-- ==== Sys2Proof/Word.lean ====
section
/-! DEFINITION. The word types of the Ixsolu 9640 model and the plainest conversions between numbers and
bytes.  Everything a test could show wrong (checksums, bit fields, comparisons of Air Time) lives in
`Sys2Proof/Machine/Ops.lean`. -/

namespace Sys2Proof

/-- One byte. -/
abbrev Byte := BitVec 8

/-- A 64-bit word: a Facet scalar register (R173), a fabric atomic (R352). -/
abbrev W64 := BitVec 64

/-- A 512-bit word: a Facet vector or mask register (R173). -/
abbrev W512 := BitVec 512

/-- A sparse map from a number to a value: the listed keys rise strictly. -/
abbrev SMap (α : Type) := List (Nat × α)

/-- A sparse byte memory: strictly rising addresses, no entry equal to what an unlisted address reads as. -/
abbrev Bytes := List (Nat × Byte)

/-- Core numbers (R14). -/
abbrev CoreId := Fin 1024
/-- Facet cluster numbers (R14). -/
abbrev ClusterId := Fin 64
/-- Port (Prism engine) numbers (R14). -/
abbrev PortId := Fin 64
/-- Serial lane numbers (R14). -/
abbrev LaneId := Fin 256
/-- Mill slice numbers (R14). -/
abbrev SliceId := Fin 4
/-- Host port numbers (R14). -/
abbrev HostId := Fin 4
/-- DMA engine numbers (R14). -/
abbrev EngineId := Fin 24
/-- DMA channel numbers (R445). -/
abbrev ChanId := Fin 768
/-- Carrier context numbers (R14). -/
abbrev CarrierId := Fin 1024
/-- Time domain: 0 primary, 1 mirror (R32). -/
abbrev DomId := Fin 2
/-- Clove unit numbers 0 to 119 (R377). -/
abbrev CloveId := Fin 120

end Sys2Proof
end

