-- ==== Sys2Proof/Syntax.lean ====
section
/-! DEFINITION. The commands: one constructor of `Instr` for each row of the table of operations and events
(`spec/opcode_table.json`), in the table's order, with the operands a row needs.  A row that the device itself
brings about (a timer, a window, a lock) carries what the hardware measured. -/

namespace Sys2Proof

/-- What a domain's loops measured at one servo update (R49, R58): phases in 2^-16 ns, offsets in 0.001 ppb.  The phase of a
PPS input is no operand: the model computes it from the edge and its ToD message (R70). -/
structure ServoMeas where
  /-- Phase of the frequency reference against its expected phase. -/
  freqPhase : Option Int
  /-- Phase error of the phase reference, reference minus domain. -/
  phase : Option Int
  /-- Frequency error of the frequency reference, in 0.001 ppb. -/
  freqErr : Int
  /-- Fractional frequency offsets of inputs against OSC_IN without correction. -/
  offs : List (Fin 24 × Int)
  deriving DecidableEq, Repr

/-- The header fields of a packet that a port sends (R441): port 0 to 3 or 4 for the SPI port. -/
structure Req where
  port : Nat
  opcode : Nat
  tag : Nat
  seq : Nat
  quiet : Bool
  scope : Nat
  inst : Nat
  deriving DecidableEq, Repr

/-- What a link counted in one measurement period (R115). -/
structure SerMeas where
  /-- Invalid sync headers, and blocks compared. -/
  badHeaders : Nat
  blocks : Nat
  /-- Corrected symbols of each lane in lane order, and symbols in the period. -/
  corrected : List Nat
  symbols : Nat
  /-- Corrected and uncorrectable codewords. -/
  corrWords : Nat
  uncorrWords : Nat
  deriving DecidableEq, Repr

/-- A packet on the fabric (R353 to R357): a request, a response or a control packet. -/
structure FabMsg where
  /-- Command (R354). -/
  cmd : Nat
  vc : Nat
  /-- Source and destination node in the u16 form of R377: tile in [9:7], node in [6:0]. -/
  src : Nat
  dst : Nat
  addr : Nat
  len : Nat
  tag : Nat := 0
  gen : Nat := 0
  /-- Status of a response (R356). -/
  status : Nat := 0
  /-- A data flit carries poison (R357). -/
  poison : Bool := false
  /-- Data bytes of the covered range, in address order. -/
  data : List Byte := []
  /-- ATOMIC operand, or the old value in its response. -/
  operand : Nat := 0
  /-- DMA channel of the device that made the request, 65,535 for any other master. -/
  chan : Nat := 65535
  /-- As the packet arrives: cycles in which its source NI had its flits ready and no credit (R369). -/
  noCredit : Nat := 0
  deriving DecidableEq, Repr

/-- What a decode of a page found (R390). -/
inductive Decode where
  | clean
  /-- Errors corrected: how many bits, and the kind of R390. -/
  | corrected (bits : Nat) (kind : Fin 3)
  | uncorrectable
  deriving DecidableEq, Repr

/-- What the check bits of a bank or page show on an access (R372, R373): the words (offset divided by 8) in which a
single bit was corrected, and whether the owner wrote the same words in the same cycle, with the byte addresses it wrote
(R371). -/
structure BankEcc where
  corrected : List Nat
  /-- Words (offset divided by 8) found uncorrectable. -/
  bad : List Nat
  /-- Byte addresses that the owner port wrote in the same cycle. -/
  owner : List Nat
  /-- For a write that allocates a page in a page cache: what a fetch for the page it evicts found (R393). -/
  evicted : Decode := .clean
  /-- Cycles in which the request waited because the owner held the port, the phase or the half it needed (R369). -/
  waited : Nat := 0
  deriving DecidableEq, Repr

/-- What DRAM returned for a waiting read (R402 to R404), as the engine's checks find it. -/
structure DramResult where
  /-- A counter block or node on the path that failed its tag: its level (0 the counter block), the decode of its
  page, and whether its tag matched after the decode (R403). -/
  meta_ : Option (Nat × Decode × Bool) := none
  /-- The line's tag matched at once (R402 step 6). -/
  tagOk : Bool := true
  /-- Decodes of the data page and of the tag page, and the tag's match after them (R404). -/
  dataPage : Decode := .clean
  tagPage : Decode := .clean
  tagAfter : Bool := true
  /-- What a fetch for the page that this access evicts found of its lines not in the cache (R393, R401). -/
  evicted : Decode := .clean
  deriving DecidableEq, Repr

/-- How the three copies of a slice's decision logic voted (R292, R293). -/
inductive MillVote where
  | agree
  /-- One copy disagrees. -/
  | copy (k : Fin 3)
  /-- No two voting copies agree. -/
  | fail
  deriving DecidableEq, Repr

/-- What a decision of a slice is about, and how the copies of its decision logic voted (R292). -/
structure Voted (α : Type) where
  about : α
  vote : MillVote
  deriving DecidableEq, Repr

/-- What the check bits of a slice's SRAM showed (R294). -/
inductive SramErr where
  | none
  | corrected (n : Nat)
  /-- Uncorrectable in an item's descriptor, by the item's order in the slice, and whether its successors can be read. -/
  | item (seq : Nat) (readable : Bool)
  /-- Uncorrectable in counter, flow, ordering or tier state. -/
  | state
  deriving DecidableEq, Repr

/-! ### Facet operands (R168 to R261) -/

/-- What the memories show when a bundle issues (R200, R204). -/
structure BundleIn where
  /-- Instruction memory: 0 clean, 1 a corrected error, 2 an uncorrectable error. -/
  imem : Fin 3
  /-- Data-memory errors corrected on the bundle's reads. -/
  dmemCorr : List Nat
  /-- Double words of data memory found uncorrectable by the bundle's reads. -/
  dmemBad : List Nat
  /-- A fabric request waits for the core's memory. -/
  fabWait : Bool
  /-- No-operation bundles (R170) that stand before this one and issue first. -/
  nops : Nat := 0
  /-- Slots of the bundle whose field holds opcode 0 or one that the slot does not define (R171). -/
  undefSlots : List (Fin 4) := []
  deriving DecidableEq, Repr

/-- Second operand of a scalar operation: a register or a 9-bit signed immediate (R176). -/
inductive Src2 where
  | reg (b : Fin 32)
  | imm (v : BitVec 9)
  deriving DecidableEq, Repr

/-- Address form of a load or store (R177). -/
inductive AddrForm where
  /-- Base plus the immediate scaled by the access size. -/
  | off (v : BitVec 9)
  /-- The base, then increased by the immediate. -/
  | postImm (v : BitVec 9)
  /-- The base, then increased by a register. -/
  | postReg (b : Fin 32)
  deriving DecidableEq, Repr

/-- Element type (R209). -/
inductive VType where
  | i8 | i16 | i32 | fp16 | bf16 | fp32 | ci16 | ci32
  deriving DecidableEq, Repr

/-- What a Clove unit's reads found (R308, R326, R329): the job record, an input, or the soft buffer poisoned or
uncorrectable; and the words (offset divided by 8) corrected in reading the record, the input, and the unit's working
area. -/
structure CloveIn where
  recordBad : Bool
  inputBad : Bool
  softBad : Bool
  recordFixed : List Nat
  inputFixed : List Nat
  workFixed : List Nat
  deriving DecidableEq, Repr

/-- A host's write to the device's registers or slots that has no row of its own (R416, R420, R435, R436, R440). -/
inductive RegWrite where
  /-- BAR0 of a host port: offset, length 4 or 8 given by `eight`, and value. -/
  | bar0 (h : HostId) (off : BitVec 16) (eight : Bool) (v : BitVec 64)
  /-- Bytes written into BAR2, the command window. -/
  | slot (h : HostId) (off : BitVec 18) (bytes : List Byte)
  /-- MSI-X Enable and Function Mask of the capability. -/
  | msix (h : HostId) (enable mask : Bool)
  /-- A value written to the command word of a DMA channel (R417). -/
  | chan (c : ChanId) (v : BitVec 64)
  /-- A value written to a flag word (R419). -/
  | flag (e : EngineId) (f : Byte) (v : BitVec 64)
  deriving DecidableEq, Repr

/-- One tile's part of an ageing sample (R547, R548): the lowest slack of each class, by cluster or Clove domain, the
limiting replica and the mean monitor degradation. -/
structure TileSample where
  array : List Int
  datapath : List Int
  clove : List Int
  fabric : Int
  /-- Lowest slack of the tile with its class and index. -/
  slack : Int
  cls : Nat
  idx : Nat
  degr : Nat
  deriving DecidableEq, Repr

/-- What the hardware finds during a start (R567, R574): each true value is a failure of that step. -/
structure StartIn where
  fuse : Bool
  rom : Bool
  clock : Bool
  /-- The flash gives no ID or does not complete a read at CONFIG, at IMAGE, at LANES. -/
  flashConfig : Bool
  flashImage : Bool
  flashLanes : Bool
  /-- The rail select of the first rail that three attempts do not set (R551). -/
  avs : Option (Fin 4)
  spd : Bool
  train : Bool
  laniman : Bool
  /-- Channel capacity that the SPDs give, in GiB (R378). -/
  capacity : Nat
  /-- The memory-protection check of a warm start finds a violation: region, tile and node index (R409). -/
  retained : Option (Fin 32 × Fin 2 × Nat)
  /-- The image region's copy matches the retained digest (R567). -/
  digestOk : Bool
  /-- Duration of the start in µs (R575). -/
  micros : Nat
  /-- Straps OSC_SEL and MSPI_EN as sampled at the release of RST_N (R557). -/
  oscSel : Bool
  mspi : Bool
  deriving DecidableEq, Repr

/-- The commands (`spec/opcode_table.json`). -/
inductive Instr where
  /-- R31 -/
  | oscInLoss
  /-- R36 -/
  | activeRoleEvaluation
  /-- R35 -/
  | residualSlewEnd
  /-- R39 -/
  | residualThresholdCrossing
  /-- R50: what the loops of domain `d` measured -/
  | servoUpdate (d : DomId) (m : ServoMeas)
  /-- R46 -/
  | ptpTimeout (d : DomId) (slot : Fin 4)
  /-- R45 -/
  | clkinEdgeMissing (k : Fin 2)
  /-- R70 -/
  | ppsInEdge (k : Fin 2)
  /-- R67 -/
  | ppsSignalLoss (k : Fin 2)
  /-- R67: the bytes of one message -/
  | todMessage (k : Fin 2) (bytes : List Byte)
  /-- R57: SSM nibble received for SyncE candidate `i` -/
  | esmcPdu (i : Fin 16) (ssm : Fin 16)
  /-- R57 -/
  | esmcTimeout (i : Fin 16)
  /-- R45 -/
  | refWtrExpiry (d : DomId) (i : Fin 24)
  /-- R64 -/
  | holdoverExpiry (d : DomId)
  /-- R58: offsets in 0.001 ppb against each domain's OCXO prediction, of the inputs with a result -/
  | driftWindowEnd (m0 m1 : List (Fin 24 × Int))
  /-- R71 -/
  | ppsOutEdge (k : Fin 4)
  /-- R71 -/
  | ppsOutPulseEnd (k : Fin 4)
  /-- R81 -/
  | timeBusParityError (tile : Fin 6) (cls : Fin 5) (unit : Byte)
  /-- R94 -/
  | comparatorFire (n : Fin 256)
  /-- R94 -/
  | taoutPulseEnd (k : Fin 4)
  /-- R114 -/
  | clockRecoveryLock (l : LaneId)
  /-- R114 -/
  | clockRecoveryLoss (l : LaneId)
  /-- R114 -/
  | codewordLock (l : LaneId)
  /-- R114 -/
  | codewordLockLoss (l : LaneId)
  /-- R114 -/
  | blockLock (p : PortId) (k : Fin 4)
  /-- R136 -/
  | blockLockLoss (p : PortId) (k : Fin 4)
  /-- R115: what one measurement period of a link counted -/
  | serWindowEnd (p : PortId) (k : Fin 4) (m : SerMeas)
  /-- R113 -/
  | eqEntryApplied (l : LaneId)
  /-- R117 -/
  | maintTimeout (p : PortId)
  /-- R123: error counts of the points in scan order -/
  | eyescanComplete (g : Fin 16) (errors : List Nat)
  /-- R125 -/
  | trendScan (l : LaneId)
  /-- R554: eye, width and height at a ratio of 10^-6 -/
  | trendScanDone (l : LaneId) (eyes : List (Fin 3 × Fin 65 × Fin 128))
  /-- R119 -/
  | prbsCheckerLock (l : LaneId)
  /-- R128 -/
  | laneGroupReady (g : Fin 16)
  /-- R133: the frame from destination address to FCS; `phyErr` marks a block in error -/
  | frameReceived (p : PortId) (k : Fin 4) (phyErr : Bool) (bytes : List Byte)
  /-- R156: symbol `j` of frame `f` of the carrier -/
  | rxWindowClose (c : CarrierId) (f j : Nat)
  /-- R159 -/
  | doorbellUlRelease (p : PortId) (c : Fin 65536) (r : Fin 64)
  /-- R158 -/
  | doorbellDlReady (p : PortId) (c : Fin 65536) (r : Fin 64)
  /-- R158 -/
  | doorbellCplaneReady (p : PortId) (c : Fin 65536) (r : Fin 64)
  /-- R161 -/
  | dlReadyDeadline (c : CarrierId) (f j : Nat)
  /-- R161 -/
  | dlTxWindowOpen (c : CarrierId) (f j : Nat)
  /-- R161 -/
  | dlTxWindowClose (c : CarrierId) (f j : Nat)
  /-- R162: slot count `q` of the carrier -/
  | cplaneReadyDeadline (c : CarrierId) (q : Nat)
  /-- R162 -/
  | cplaneTxWindowOpen (c : CarrierId) (q : Nat)
  /-- R135 -/
  | frameTransmitted (p : PortId) (k : Fin 4)
  /-- R338: window index `w` of the carrier -/
  | noiseWindowEnd (c : CarrierId) (w : Nat)
  /-- R341: the occasion of group `g` in slot `q` -/
  | prachOccasionClose (c : CarrierId) (g : Fin 16) (q : Nat)
  /-- R344 -/
  | prachStartTimeout (p : PortId)
  /-- R344 -/
  | prachProcessingStart (p : PortId)
  /-- R345 -/
  | prachProcessingEnd (p : PortId)
  /-- R190 -/
  | interruptEntry (k : CoreId)
  /-- R188 -/
  | ctimerMatch (k : CoreId)
  /-- R195 -/
  | holdLimit (k : CoreId)
  /-- R194 -/
  | coreRestore (k : CoreId)
  /-- R203 -/
  | memModeChange (c : ClusterId)
  /-- R180: core cycles that WAITWORK has waited -/
  | descriptorArrival (k : CoreId) (cycles : Nat)
  /-- R176 -/
  | add (k : CoreId) (iss : Option BundleIn) (d a : Fin 32) (b : Src2)
  /-- R176 -/
  | sub (k : CoreId) (iss : Option BundleIn) (d a : Fin 32) (b : Src2)
  /-- R176 -/
  | and (k : CoreId) (iss : Option BundleIn) (d a : Fin 32) (b : Src2)
  /-- R176 -/
  | or (k : CoreId) (iss : Option BundleIn) (d a : Fin 32) (b : Src2)
  /-- R176 -/
  | xor (k : CoreId) (iss : Option BundleIn) (d a : Fin 32) (b : Src2)
  /-- R176 -/
  | andn (k : CoreId) (iss : Option BundleIn) (d a : Fin 32) (b : Src2)
  /-- R176 -/
  | shl (k : CoreId) (iss : Option BundleIn) (d a : Fin 32) (b : Src2)
  /-- R176 -/
  | shr (k : CoreId) (iss : Option BundleIn) (d a : Fin 32) (b : Src2)
  /-- R176 -/
  | sar (k : CoreId) (iss : Option BundleIn) (d a : Fin 32) (b : Src2)
  /-- R176 -/
  | ror (k : CoreId) (iss : Option BundleIn) (d a : Fin 32) (b : Src2)
  /-- R176 -/
  | min (k : CoreId) (iss : Option BundleIn) (d a : Fin 32) (b : Src2)
  /-- R176 -/
  | max (k : CoreId) (iss : Option BundleIn) (d a : Fin 32) (b : Src2)
  /-- R176 -/
  | minu (k : CoreId) (iss : Option BundleIn) (d a : Fin 32) (b : Src2)
  /-- R176 -/
  | maxu (k : CoreId) (iss : Option BundleIn) (d a : Fin 32) (b : Src2)
  /-- R176 -/
  | clz (k : CoreId) (iss : Option BundleIn) (d a : Fin 32)
  /-- R176 -/
  | popc (k : CoreId) (iss : Option BundleIn) (d a : Fin 32)
  /-- R176 -/
  | cmpeq (k : CoreId) (iss : Option BundleIn) (d a : Fin 32) (b : Src2)
  /-- R176 -/
  | cmpne (k : CoreId) (iss : Option BundleIn) (d a : Fin 32) (b : Src2)
  /-- R176 -/
  | cmplt (k : CoreId) (iss : Option BundleIn) (d a : Fin 32) (b : Src2)
  /-- R176 -/
  | cmpltu (k : CoreId) (iss : Option BundleIn) (d a : Fin 32) (b : Src2)
  /-- R176 -/
  | cmple (k : CoreId) (iss : Option BundleIn) (d a : Fin 32) (b : Src2)
  /-- R176 -/
  | cmpleu (k : CoreId) (iss : Option BundleIn) (d a : Fin 32) (b : Src2)
  /-- R176 -/
  | limm (k : CoreId) (iss : Option BundleIn) (d : Fin 32) (imm : BitVec 31)
  /-- R176 -/
  | limmh (k : CoreId) (iss : Option BundleIn) (d : Fin 32) (imm : BitVec 31)
  /-- R176 -/
  | mul (k : CoreId) (iss : Option BundleIn) (d a b : Fin 32)
  /-- R176 -/
  | mulh (k : CoreId) (iss : Option BundleIn) (d a b : Fin 32)
  /-- R176 -/
  | mulhu (k : CoreId) (iss : Option BundleIn) (d a b : Fin 32)
  /-- R224 -/
  | scalarCmul (k : CoreId) (iss : Option BundleIn) (d a b : Fin 32) (m : BitVec 9)
  /-- R224 -/
  | scalarCmulc (k : CoreId) (iss : Option BundleIn) (d a b : Fin 32) (m : BitVec 9)
  /-- R176 -/
  | br (k : CoreId) (iss : Option BundleIn) (imm : BitVec 31)
  /-- R176 -/
  | brz (k : CoreId) (iss : Option BundleIn) (a : Fin 32) (imm : BitVec 9)
  /-- R176 -/
  | brnz (k : CoreId) (iss : Option BundleIn) (a : Fin 32) (imm : BitVec 9)
  /-- R176 -/
  | call (k : CoreId) (iss : Option BundleIn) (imm : BitVec 31)
  /-- R202 -/
  | jr (k : CoreId) (iss : Option BundleIn) (a : Fin 32)
  /-- R184 -/
  | rep (k : CoreId) (iss : Option BundleIn) (a : Fin 32) (flag : Bool) (len : BitVec 11)
  /-- R184 -/
  | repi (k : CoreId) (iss : Option BundleIn) (count : BitVec 16) (flag : Bool) (len : BitVec 11)
  /-- R174 -/
  | mfc (k : CoreId) (iss : Option BundleIn) (d : Fin 32) (c : BitVec 6)
  /-- R174 -/
  | mtc (k : CoreId) (iss : Option BundleIn) (c : BitVec 6) (a : Fin 32)
  /-- R180 -/
  | waitwork (k : CoreId) (iss : Option BundleIn)
  /-- R181 -/
  | donework (k : CoreId) (iss : Option BundleIn) (a : Fin 32)
  /-- R192 -/
  | eret (k : CoreId) (iss : Option BundleIn)
  /-- R187 -/
  | sysc (k : CoreId) (iss : Option BundleIn) (imm : BitVec 16)
  /-- R177 -/
  | ldb (k : CoreId) (iss : Option BundleIn) (d a : Fin 32) (f : AddrForm)
  /-- R177 -/
  | ldbu (k : CoreId) (iss : Option BundleIn) (d a : Fin 32) (f : AddrForm)
  /-- R177 -/
  | ldh (k : CoreId) (iss : Option BundleIn) (d a : Fin 32) (f : AddrForm)
  /-- R177 -/
  | ldhu (k : CoreId) (iss : Option BundleIn) (d a : Fin 32) (f : AddrForm)
  /-- R177 -/
  | ldw (k : CoreId) (iss : Option BundleIn) (d a : Fin 32) (f : AddrForm)
  /-- R177 -/
  | ldwu (k : CoreId) (iss : Option BundleIn) (d a : Fin 32) (f : AddrForm)
  /-- R177 -/
  | ldd (k : CoreId) (iss : Option BundleIn) (d a : Fin 32) (f : AddrForm)
  /-- R177 -/
  | stb (k : CoreId) (iss : Option BundleIn) (v a : Fin 32) (f : AddrForm)
  /-- R177 -/
  | sth (k : CoreId) (iss : Option BundleIn) (v a : Fin 32) (f : AddrForm)
  /-- R177 -/
  | stw (k : CoreId) (iss : Option BundleIn) (v a : Fin 32) (f : AddrForm)
  /-- R177 -/
  | std (k : CoreId) (iss : Option BundleIn) (v a : Fin 32) (f : AddrForm)
  /-- R177 -/
  | vld (k : CoreId) (iss : Option BundleIn) (d a : Fin 32) (f : AddrForm)
  /-- R177 -/
  | vst (k : CoreId) (iss : Option BundleIn) (v a : Fin 32) (f : AddrForm)
  /-- R177 -/
  | vld2 (k : CoreId) (iss : Option BundleIn) (d a : Fin 32) (f : AddrForm) (e b : Fin 32) (h : AddrForm)
  /-- R177 -/
  | vldst (k : CoreId) (iss : Option BundleIn) (d a : Fin 32) (f : AddrForm) (v b : Fin 32) (h : AddrForm)
  /-- R179 -/
  | aaddw (k : CoreId) (iss : Option BundleIn) (d a : Fin 32) (f : AddrForm) (v : Fin 32)
  /-- R179 -/
  | aaddd (k : CoreId) (iss : Option BundleIn) (d a : Fin 32) (f : AddrForm) (v : Fin 32)
  /-- R179 -/
  | aswpd (k : CoreId) (iss : Option BundleIn) (d a : Fin 32) (f : AddrForm) (v : Fin 32)
  /-- R229 -/
  | vlde (k : CoreId) (iss : Option BundleIn) (v a b : Fin 32) (m : BitVec 9)
  /-- R229 -/
  | vste (k : CoreId) (iss : Option BundleIn) (v a b : Fin 32) (m : BitVec 9)
  /-- R230 -/
  | vlds2 (k : CoreId) (iss : Option BundleIn) (v a b : Fin 32) (m : BitVec 9)
  /-- R230 -/
  | vlds3 (k : CoreId) (iss : Option BundleIn) (v a b : Fin 32) (m : BitVec 9)
  /-- R230 -/
  | vlds4 (k : CoreId) (iss : Option BundleIn) (v a b : Fin 32) (m : BitVec 9)
  /-- R230 -/
  | vsts2 (k : CoreId) (iss : Option BundleIn) (v a b : Fin 32) (m : BitVec 9)
  /-- R230 -/
  | vsts3 (k : CoreId) (iss : Option BundleIn) (v a b : Fin 32) (m : BitVec 9)
  /-- R230 -/
  | vsts4 (k : CoreId) (iss : Option BundleIn) (v a b : Fin 32) (m : BitVec 9)
  /-- R231 -/
  | vgath (k : CoreId) (iss : Option BundleIn) (v a b : Fin 32) (m : BitVec 9)
  /-- R231 -/
  | vscat (k : CoreId) (iss : Option BundleIn) (v a b : Fin 32) (m : BitVec 9)
  /-- R223 -/
  | vadd (k : CoreId) (iss : Option BundleIn) (sl : Bool) (ty : VType) (d a b : Fin 32) (m : BitVec 9)
  /-- R223 -/
  | vsub (k : CoreId) (iss : Option BundleIn) (sl : Bool) (ty : VType) (d a b : Fin 32) (m : BitVec 9)
  /-- R223 -/
  | vneg (k : CoreId) (iss : Option BundleIn) (sl : Bool) (ty : VType) (d a b : Fin 32) (m : BitVec 9)
  /-- R223 -/
  | vabs (k : CoreId) (iss : Option BundleIn) (sl : Bool) (ty : VType) (d a b : Fin 32) (m : BitVec 9)
  /-- R223 -/
  | vmin (k : CoreId) (iss : Option BundleIn) (sl : Bool) (ty : VType) (d a b : Fin 32) (m : BitVec 9)
  /-- R223 -/
  | vmax (k : CoreId) (iss : Option BundleIn) (sl : Bool) (ty : VType) (d a b : Fin 32) (m : BitVec 9)
  /-- R223 -/
  | vand (k : CoreId) (iss : Option BundleIn) (sl : Bool) (ty : VType) (d a b : Fin 32) (m : BitVec 9)
  /-- R223 -/
  | vor (k : CoreId) (iss : Option BundleIn) (sl : Bool) (ty : VType) (d a b : Fin 32) (m : BitVec 9)
  /-- R223 -/
  | vxor (k : CoreId) (iss : Option BundleIn) (sl : Bool) (ty : VType) (d a b : Fin 32) (m : BitVec 9)
  /-- R223 -/
  | vandn (k : CoreId) (iss : Option BundleIn) (sl : Bool) (ty : VType) (d a b : Fin 32) (m : BitVec 9)
  /-- R223 -/
  | vshl (k : CoreId) (iss : Option BundleIn) (sl : Bool) (ty : VType) (d a b : Fin 32) (m : BitVec 9)
  /-- R223 -/
  | vshr (k : CoreId) (iss : Option BundleIn) (sl : Bool) (ty : VType) (d a b : Fin 32) (m : BitVec 9)
  /-- R223 -/
  | vshru (k : CoreId) (iss : Option BundleIn) (sl : Bool) (ty : VType) (d a b : Fin 32) (m : BitVec 9)
  /-- R223 -/
  | vconj (k : CoreId) (iss : Option BundleIn) (sl : Bool) (ty : VType) (d a b : Fin 32) (m : BitVec 9)
  /-- R223 -/
  | vcmulj (k : CoreId) (iss : Option BundleIn) (sl : Bool) (ty : VType) (d a b : Fin 32) (m : BitVec 9)
  /-- R223 -/
  | vmulq (k : CoreId) (iss : Option BundleIn) (sl : Bool) (ty : VType) (d a b : Fin 32) (m : BitVec 9)
  /-- R224 -/
  | vcmulq (k : CoreId) (iss : Option BundleIn) (sl : Bool) (d a b : Fin 32) (m : BitVec 9)
  /-- R224 -/
  | vcmulqc (k : CoreId) (iss : Option BundleIn) (sl : Bool) (d a b : Fin 32) (m : BitVec 9)
  /-- R205 -/
  | cmul (k : CoreId) (iss : Option BundleIn) (sl : Bool) (d a b : Fin 32) (m : BitVec 9)
  /-- R205 -/
  | cmulc (k : CoreId) (iss : Option BundleIn) (sl : Bool) (d a b : Fin 32) (m : BitVec 9)
  /-- R205 -/
  | cmac (k : CoreId) (iss : Option BundleIn) (sl : Bool) (d a b : Fin 32) (m : BitVec 9)
  /-- R205 -/
  | cmacc (k : CoreId) (iss : Option BundleIn) (sl : Bool) (d a b : Fin 32) (m : BitVec 9)
  /-- R205 -/
  | cmacs (k : CoreId) (iss : Option BundleIn) (sl : Bool) (d a b : Fin 32) (m : BitVec 9)
  /-- R205 -/
  | cmacsc (k : CoreId) (iss : Option BundleIn) (sl : Bool) (d a b : Fin 32) (m : BitVec 9)
  /-- R223 -/
  | vnarrow (k : CoreId) (iss : Option BundleIn) (sl : Bool) (d a b : Fin 32) (m : BitVec 9)
  /-- R223 -/
  | vcnarrow (k : CoreId) (iss : Option BundleIn) (sl : Bool) (d a b : Fin 32) (m : BitVec 9)
  /-- R223 -/
  | vcwiden (k : CoreId) (iss : Option BundleIn) (sl : Bool) (d a b : Fin 32) (m : BitVec 9)
  /-- R223 -/
  | vcrsum (k : CoreId) (iss : Option BundleIn) (sl : Bool) (d a b : Fin 32) (m : BitVec 9)
  /-- R223 -/
  | vcmpeq (k : CoreId) (iss : Option BundleIn) (sl : Bool) (ty : VType) (d a b : Fin 32) (m : BitVec 9)
  /-- R223 -/
  | vcmplt (k : CoreId) (iss : Option BundleIn) (sl : Bool) (ty : VType) (d a b : Fin 32) (m : BitVec 9)
  /-- R223 -/
  | vcmple (k : CoreId) (iss : Option BundleIn) (sl : Bool) (ty : VType) (d a b : Fin 32) (m : BitVec 9)
  /-- R223 -/
  | vsel (k : CoreId) (iss : Option BundleIn) (sl : Bool) (ty : VType) (d a b : Fin 32) (m : BitVec 9)
  /-- R223 -/
  | vsplat (k : CoreId) (iss : Option BundleIn) (sl : Bool) (ty : VType) (d a b : Fin 32) (m : BitVec 9)
  /-- R223 -/
  | vslide (k : CoreId) (iss : Option BundleIn) (sl : Bool) (ty : VType) (d a b : Fin 32) (n : Fin 64) (m : BitVec 9)
  /-- R212 -/
  | setvl (k : CoreId) (iss : Option BundleIn) (sl : Bool) (ty : VType) (d a : Fin 32) (m : BitVec 9)
  /-- R223 -/
  | mlen (k : CoreId) (iss : Option BundleIn) (sl : Bool) (d a b : Fin 32) (m : BitVec 9)
  /-- R223 -/
  | mand (k : CoreId) (iss : Option BundleIn) (sl : Bool) (d a b : Fin 32) (m : BitVec 9)
  /-- R223 -/
  | mor (k : CoreId) (iss : Option BundleIn) (sl : Bool) (d a b : Fin 32) (m : BitVec 9)
  /-- R223 -/
  | mxor (k : CoreId) (iss : Option BundleIn) (sl : Bool) (d a b : Fin 32) (m : BitVec 9)
  /-- R223 -/
  | mandn (k : CoreId) (iss : Option BundleIn) (sl : Bool) (d a b : Fin 32) (m : BitVec 9)
  /-- R223 -/
  | mnot (k : CoreId) (iss : Option BundleIn) (sl : Bool) (d a b : Fin 32) (m : BitVec 9)
  /-- R223 -/
  | msel (k : CoreId) (iss : Option BundleIn) (sl : Bool) (d a b : Fin 32) (m : BitVec 9)
  /-- R223 -/
  | mpopc (k : CoreId) (iss : Option BundleIn) (sl : Bool) (d a b : Fin 32) (m : BitVec 9)
  /-- R226 -/
  | vfadd (k : CoreId) (iss : Option BundleIn) (sl : Bool) (ty : VType) (d a b : Fin 32) (m : BitVec 9)
  /-- R226 -/
  | vfsub (k : CoreId) (iss : Option BundleIn) (sl : Bool) (ty : VType) (d a b : Fin 32) (m : BitVec 9)
  /-- R226 -/
  | vfmul (k : CoreId) (iss : Option BundleIn) (sl : Bool) (ty : VType) (d a b : Fin 32) (m : BitVec 9)
  /-- R226 -/
  | vfmin (k : CoreId) (iss : Option BundleIn) (sl : Bool) (ty : VType) (d a b : Fin 32) (m : BitVec 9)
  /-- R226 -/
  | vfmax (k : CoreId) (iss : Option BundleIn) (sl : Bool) (ty : VType) (d a b : Fin 32) (m : BitVec 9)
  /-- R226 -/
  | vfma (k : CoreId) (iss : Option BundleIn) (sl : Bool) (ty : VType) (d a b : Fin 32) (m : BitVec 9)
  /-- R226 -/
  | vfcvt (k : CoreId) (iss : Option BundleIn) (sl : Bool) (src dst : VType) (d a : Fin 32) (m : BitVec 9)
  /-- R227 -/
  | fadd (k : CoreId) (iss : Option BundleIn) (sl : Bool) (d a b : Fin 32) (m : BitVec 9)
  /-- R227 -/
  | fsub (k : CoreId) (iss : Option BundleIn) (sl : Bool) (d a b : Fin 32) (m : BitVec 9)
  /-- R227 -/
  | fmul (k : CoreId) (iss : Option BundleIn) (sl : Bool) (d a b : Fin 32) (m : BitVec 9)
  /-- R227 -/
  | fma (k : CoreId) (iss : Option BundleIn) (sl : Bool) (d a b : Fin 32) (m : BitVec 9)
  /-- R227 -/
  | fcmplt (k : CoreId) (iss : Option BundleIn) (sl : Bool) (d a b : Fin 32) (m : BitVec 9)
  /-- R227 -/
  | fcmple (k : CoreId) (iss : Option BundleIn) (sl : Bool) (d a b : Fin 32) (m : BitVec 9)
  /-- R227 -/
  | fcmpeq (k : CoreId) (iss : Option BundleIn) (sl : Bool) (d a b : Fin 32) (m : BitVec 9)
  /-- R227 -/
  | fmvgf (k : CoreId) (iss : Option BundleIn) (sl : Bool) (d a b : Fin 32) (m : BitVec 9)
  /-- R227 -/
  | fmvfg (k : CoreId) (iss : Option BundleIn) (sl : Bool) (d a b : Fin 32) (m : BitVec 9)
  /-- R240 -/
  | dmap (k : CoreId) (iss : Option BundleIn) (sl : Bool) (d a b : Fin 32) (m : BitVec 9)
  /-- R240 -/
  | schol (k : CoreId) (iss : Option BundleIn) (sl : Bool) (d a b : Fin 32) (m : BitVec 9)
  /-- R240 -/
  | strsl (k : CoreId) (iss : Option BundleIn) (sl : Bool) (d a b : Fin 32) (m : BitVec 9)
  /-- R240 -/
  | strsu (k : CoreId) (iss : Option BundleIn) (sl : Bool) (d a b : Fin 32) (m : BitVec 9)
  /-- R240 -/
  | sinvh (k : CoreId) (iss : Option BundleIn) (sl : Bool) (d a b : Fin 32) (m : BitVec 9)
  /-- R258 -/
  | uerrd (k : CoreId) (iss : Option BundleIn) (sl : Bool) (d : Fin 32)
  /-- R258 -/
  | uerrs (k : CoreId) (iss : Option BundleIn) (sl : Bool) (d : Fin 32)
  /-- R244: Demap (false) or Solve (true) -/
  | unitResultWrite (k : CoreId) (solve : Bool)
  /-- R268: the slice, the master's node and the 64 bytes written -/
  | enqueue (slc : SliceId) (src : Fin 1024) (bytes : List Byte)
  /-- R269: counter, count, the master's node, and how the copies voted -/
  | counterSet (k : Fin 65536) (count : BitVec 16) (src : Voted (Fin 1024))
  /-- R269: counter, status carried, the source (0 completion, 1 DMA, 2 comparator, 3 window write), and how the copies
  voted -/
  | counterDecrement (k : Fin 65536) (st : Fin 4) (src : Voted (Fin 4))
  /-- R272, R292: the flow, and how the copies voted -/
  | flowEntryFetched (slc : SliceId) (flow : Voted (Fin 8388608))
  /-- R276: how the copies voted, and what the check bits of the slice state showed -/
  | dispatchDecision (slc : SliceId) (v : MillVote) (e : SramErr)
  /-- R284, R292 -/
  | stealRequest (victim : Voted SliceId)
  /-- R284 -/
  | stealGrant (thief : SliceId)
  /-- R277, R292: item by its order in the slice, and how the copies voted -/
  | promotion (slc : SliceId) (item : Voted Nat)
  /-- R278, R292 -/
  | urgencyEntry (slc : SliceId) (item : Voted Nat)
  /-- R281, R292 -/
  | late (slc : SliceId) (item : Voted Nat)
  /-- R286: the slot of the carrier that ends -/
  | slotEnd (c : CarrierId) (slot : Int)
  /-- R287 -/
  | tierMessage (slc : SliceId) (c : CarrierId)
  /-- R282 -/
  | lateReportPeriod (slc : SliceId)
  /-- R283 -/
  | millCheck (slc : SliceId)
  /-- R289 -/
  | drainTimeout (k : CoreId)
  /-- R290 -/
  | abortGraceExpiry (k : CoreId)
  /-- R312 -/
  | ldpcDecode (u : CloveId) (e : CloveIn)
  /-- R318 -/
  | ldpcEncode (u : CloveId) (e : CloveIn)
  /-- R317 -/
  | tbAssemble (u : CloveId) (e : CloveIn)
  /-- R319 -/
  | polarDecode (u : CloveId) (e : CloveIn)
  /-- R319 -/
  | polarEncode (u : CloveId) (e : CloveIn)
  /-- R320 -/
  | turboDecode (u : CloveId) (e : CloveIn)
  /-- R320 -/
  | turboEncode (u : CloveId) (e : CloveIn)
  /-- R321: the encode datapath, or the decode datapath -/
  | turboDatapathFree (u : CloveId) (enc : Bool) (e : CloveIn)
  /-- R310: the encode datapath of a turbo unit; whether the working area failed its check, and whether a write was
  answered with an error -/
  | cloveJobCompletion (u : CloveId) (enc : Bool) (bankBad writeBad : Bool)
  /-- R359 -/
  | read (m : FabMsg) (e : BankEcc)
  /-- R364 -/
  | write (m : FabMsg) (e : BankEcc)
  /-- R370 -/
  | atomicAdd (m : FabMsg) (e : BankEcc)
  /-- R370 -/
  | swap (m : FabMsg) (e : BankEcc)
  /-- R356 -/
  | readResp (m : FabMsg)
  /-- R356 -/
  | writeResp (m : FabMsg)
  /-- R366: node in the form of R377 -/
  | fenceReq (node : Fin 1024)
  /-- R366 -/
  | fenceAck (node : Fin 1024)
  /-- R367 -/
  | wake (domain : Fin 96)
  /-- R513: the fields of the packet's data flit -/
  | event (cls : Fin 16) (inst : Fin 4096) (code : BitVec 16) (sev : Fin 16) (detail : List Byte)
  /-- R357: boundary or 255, and link or router -/
  | flitCrcError (boundary link : Byte)
  /-- R358 -/
  | linkStuck (boundary link : Byte)
  /-- R363 -/
  | requestTimeout (node : Fin 1024) (tag : Byte)
  /-- R366 -/
  | fenceTimeout (domain : Fin 96)
  /-- R402: the waiting read with this source and tag -/
  | dramReadComplete (src : Fin 1024) (tag : Byte) (r : DramResult)
  /-- R383 -/
  | regionInitComplete (g : Fin 32)
  /-- R394: what the decode of the next page found -/
  | scrubPage (d : Decode)
  /-- R407: the decode of the page, and the lines that failed their check -/
  | rekeySweepPage (g : Fin 32) (d : Decode) (failed : List (Fin 32))
  /-- R380: whether any device of each rank reports above 85 °C -/
  | temperaturePoll (ch : Fin 12) (hot : Bool)
  /-- R416 -/
  | chanCmdStart (c : ChanId)
  /-- R416 -/
  | chanCmdStop (c : ChanId)
  /-- R416 -/
  | chanCmdReset (c : ChanId)
  /-- R420 -/
  | flagSet (e : EngineId) (f : Byte)
  /-- R419 -/
  | flagClear (e : EngineId) (f : Byte)
  /-- R423: the 64 bytes fetched -/
  | move (c : ChanId) (bytes : List Byte)
  /-- R423: the 16 bytes fetched -/
  | loop (c : ChanId) (bytes : List Byte)
  /-- R423 -/
  | waitAirtime (c : ChanId) (bytes : List Byte)
  /-- R423 -/
  | waitCounter (c : ChanId) (bytes : List Byte)
  /-- R423 -/
  | waitFlag (c : ChanId) (bytes : List Byte)
  /-- R423 -/
  | signalCounter (c : ChanId) (bytes : List Byte)
  /-- R423 -/
  | signalFlag (c : ChanId) (bytes : List Byte)
  /-- R423 -/
  | signalEvent (c : ChanId) (bytes : List Byte)
  /-- R423 -/
  | dmaEnd (c : ChanId) (bytes : List Byte)
  /-- R423 -/
  | waitAirtimeReached (c : ChanId)
  /-- R423 -/
  | counterPoll (c : ChanId)
  /-- R437 -/
  | doorbell (h : HostId) (v : BitVec 32)
  /-- R447 -/
  | packetAcceptance
  /-- R435 -/
  | replyBaseWrite (h : HostId) (v : BitVec 64)
  /-- R435 -/
  | replySizeWrite (h : HostId) (v : BitVec 32)
  /-- R440 -/
  | replyRdWrite (h : HostId) (v : BitVec 32)
  /-- R435 -/
  | atLoRead (h : HostId)
  /-- R440 -/
  | msixUnmask (h : HostId) (v : Option (Fin 64))
  /-- R435 -/
  | registerWrite (w : RegWrite)
  /-- R433 -/
  | perst (h : HostId)
  /-- R433 -/
  | flr (h : HostId)
  /-- R432 -/
  | hostLinkChange (h : HostId) (up : Bool) (width rate : Byte)
  /-- R467 -/
  | packetWrite (bytes : List Byte)
  /-- R467 -/
  | statusRead
  /-- R467 -/
  | replyRead (n : Nat)
  /-- R455 -/
  | devInfo (rq : Req) (p : List Byte)
  /-- R455 -/
  | devStatus (rq : Req) (p : List Byte)
  /-- R456 -/
  | resetWarm (rq : Req) (p : List Byte)
  /-- R457 -/
  | flashRead (rq : Req) (p : List Byte)
  /-- R457 -/
  | flashErase (rq : Req) (p : List Byte)
  /-- R457 -/
  | flashWrite (rq : Req) (p : List Byte)
  /-- R457 -/
  | flashOperationComplete (differs : Bool)
  /-- R454 -/
  | paramGet (rq : Req) (p : List Byte)
  /-- R453 -/
  | paramSet (rq : Req) (p : List Byte)
  /-- R470 -/
  | cfgStage (rq : Req) (p : List Byte)
  /-- R472 -/
  | cfgArm (rq : Req) (p : List Byte)
  /-- R486 -/
  | cfgDigest (rq : Req) (p : List Byte)
  /-- R458 -/
  | carrierStatus (rq : Req) (p : List Byte)
  /-- R338 -/
  | radioNoiseRead (rq : Req) (p : List Byte)
  /-- R347 -/
  | radioStatus (rq : Req) (p : List Byte)
  /-- R460 -/
  | kernelWrite (rq : Req) (p : List Byte)
  /-- R460 -/
  | kernelCommit (rq : Req) (p : List Byte)
  /-- R461 -/
  | kernelPlace (rq : Req) (p : List Byte)
  /-- R461 -/
  | kernelStatus (rq : Req) (p : List Byte)
  /-- R462 -/
  | millEnqueue (rq : Req) (p : List Byte)
  /-- R462 -/
  | millCounterSet (rq : Req) (p : List Byte)
  /-- R462 -/
  | millCounterRead (rq : Req) (p : List Byte)
  /-- R463 -/
  | traceRead (rq : Req) (p : List Byte)
  /-- R464 -/
  | timeStatus (rq : Req) (p : List Byte)
  /-- R464 -/
  | timeRead (rq : Req) (p : List Byte)
  /-- R101 -/
  | airtimeRead (rq : Req) (p : List Byte)
  /-- R37 -/
  | timeSwitch (rq : Req) (p : List Byte)
  /-- R38 -/
  | timeRealign (rq : Req) (p : List Byte)
  /-- R56 -/
  | timePtpFeed (rq : Req) (p : List Byte)
  /-- R465 -/
  | ptpRecv (rq : Req) (p : List Byte)
  /-- R465 -/
  | ptpSend (rq : Req) (p : List Byte)
  /-- R93 -/
  | timedArm (rq : Req) (p : List Byte)
  /-- R99 -/
  | timedCancel (rq : Req) (p : List Byte)
  /-- R99 -/
  | timedStatus (rq : Req) (p : List Byte)
  /-- R383 -/
  | memRegionCreate (rq : Req) (p : List Byte)
  /-- R384 -/
  | memRegionDelete (rq : Req) (p : List Byte)
  /-- R411 -/
  | memStatus (rq : Req) (p : List Byte)
  /-- R407 -/
  | protRekey (rq : Req) (p : List Byte)
  /-- R416 -/
  | dmaChanStart (rq : Req) (p : List Byte)
  /-- R416 -/
  | dmaChanStop (rq : Req) (p : List Byte)
  /-- R416 -/
  | dmaChanReset (rq : Req) (p : List Byte)
  /-- R415 -/
  | dmaChanStatus (rq : Req) (p : List Byte)
  /-- R555 -/
  | powerStatus (rq : Req) (p : List Byte)
  /-- R541 -/
  | powerStateSet (rq : Req) (p : List Byte)
  /-- R541 -/
  | powerTransitionComplete
  /-- R510 -/
  | poolStatus (rq : Req) (p : List Byte)
  /-- R506 -/
  | takeover (rq : Req) (p : List Byte)
  /-- R507 -/
  | migrate (rq : Req) (p : List Byte)
  /-- R115 -/
  | laneStatus (rq : Req) (p : List Byte)
  /-- R116 -/
  | laneMaintOpen (rq : Req) (p : List Byte)
  /-- R117 -/
  | laneMaintClose (rq : Req) (p : List Byte)
  /-- R121 -/
  | laneEyescanStart (rq : Req) (p : List Byte)
  /-- R123 -/
  | laneEyescanAbort (rq : Req) (p : List Byte)
  /-- R124 -/
  | laneEyescanRead (rq : Req) (p : List Byte)
  /-- R164 -/
  | fhCounters (rq : Req) (p : List Byte)
  /-- R143 -/
  | fhExcRead (rq : Req) (p : List Byte)
  /-- R369 -/
  | fabricCounters (rq : Req) (p : List Byte)
  /-- R531 -/
  | selftestRun (rq : Req) (p : List Byte)
  /-- R531 -/
  | selftestAbort (rq : Req) (p : List Byte)
  /-- R531 -/
  | selftestStatus (rq : Req) (p : List Byte)
  /-- R521 -/
  | evtSubscribe (rq : Req) (p : List Byte)
  /-- R523 -/
  | evtRead (rq : Req) (p : List Byte)
  /-- R523 -/
  | evtUnsubscribe (rq : Req) (p : List Byte)
  /-- R591 -/
  | dbgChallenge (rq : Req) (p : List Byte)
  /-- R592 -/
  | dbgUnlock (rq : Req) (p : List Byte)
  /-- R593 -/
  | dbgLock (rq : Req) (p : List Byte)
  /-- R593 -/
  | dbgStatus (rq : Req) (p : List Byte)
  /-- R552 -/
  | ageingReport (rq : Req) (p : List Byte)
  /-- R553 -/
  | ageingHistory (rq : Req) (p : List Byte)
  /-- R475 -/
  | unitReady (u : BitVec 16)
  /-- R477 -/
  | commitReadinessCheck (bad : List Nat)
  /-- R475 -/
  | shadowSwap (bad reset : List Nat)
  /-- R475 -/
  | unitApplied (u : BitVec 16)
  /-- R478 -/
  | commitOutcome
  /-- R475 -/
  | commitRollback
  /-- R497 -/
  | heartbeat (p : PortId) (bytes : List Byte)
  /-- R492 -/
  | heartbeatSend
  /-- R499 -/
  | state (p : PortId) (bytes : List Byte)
  /-- R492 -/
  | stateSend
  /-- R502 -/
  | claim (p : PortId) (bytes : List Byte)
  /-- R502 -/
  | claimLostStandby (c : CarrierId)
  /-- R504 -/
  | mirror (p : PortId) (bytes : List Byte) (d : Decode)
  /-- R504 -/
  | mirrorPageSend (c : CarrierId)
  /-- R505 -/
  | mirrorLagExceeded (c : CarrierId)
  /-- R507 -/
  | prepare (p : PortId) (bytes : List Byte)
  /-- R507 -/
  | ready (p : PortId) (bytes : List Byte)
  /-- R507 -/
  | go (p : PortId) (bytes : List Byte)
  /-- R507 -/
  | goAck (p : PortId) (bytes : List Byte)
  /-- R507 -/
  | cancel (p : PortId) (bytes : List Byte)
  /-- R507 -/
  | migrateGoDeadline (c : CarrierId)
  /-- R507 -/
  | migrateAckDeadline (c : CarrierId)
  /-- R507 -/
  | migrateSwitch (c : CarrierId)
  /-- R507 -/
  | migrateReply (c : CarrierId)
  /-- R506 -/
  | takeoverSwitch (c : CarrierId)
  /-- R497 -/
  | peerUnreachable (i : Fin 4)
  /-- R498 -/
  | timeOffsetEvaluation
  /-- R494 -/
  | keyGraceExpiry
  /-- R513 -/
  | eventAcceptance
  /-- R525 -/
  | hostLaggedTimeout (h : HostId)
  /-- R529 -/
  | selftestDue (u : Fin 1144)
  /-- R530 -/
  | selftestStart (u : Fin 1144)
  /-- R530 -/
  | selftestTestComplete (u : Fin 1144) (fail : Option (BitVec 16))
  /-- R540 -/
  | demandIdleExpiry (d : Fin 96)
  /-- R540 -/
  | demandWake (d : Fin 96)
  /-- R537 -/
  | domainPowerUpComplete (d : Fin 96)
  /-- R542 -/
  | wakeN
  /-- R542 -/
  | hostPortActivityWake (h : HostId)
  /-- R545 -/
  | droopDetect (t : Fin 6) (sag : Byte)
  /-- R545 -/
  | droopLevelFall (t : Fin 6)
  /-- R546 -/
  | stretchWindowEnd
  /-- R548 -/
  | ageingSample (tiles : List TileSample)
  /-- R549 -/
  | replanBoundary
  /-- R550 -/
  | marginFlag (t : Fin 6) (cls : Fin 5) (idx : Byte)
  /-- R551 -/
  | avsWriteComplete (rail : Fin 4) (res : Fin 3)
  /-- R603 -/
  | thermAlert (hot : Bool)
  /-- R603 -/
  | thermtrip
  /-- R557 -/
  | rstNAssert
  /-- R567 -/
  | coldStart (m : StartIn)
  /-- R557 -/
  | wrstN
  /-- R569 -/
  | warmStart (m : StartIn)
  /-- R576 -/
  | tapReset
  /-- R577 -/
  | extest (v : Nat)
  /-- R576 -/
  | samplePreload (v : Nat)
  /-- R576 -/
  | idcode
  /-- R577 -/
  | clamp
  /-- R577 -/
  | highz
  /-- R577 -/
  | extestPulse (v : Nat)
  /-- R577 -/
  | extestTrain (v : Nat)
  /-- R578 -/
  | proulAccess
  /-- R576 -/
  | bypass
  /-- R578 -/
  | nop
  /-- R580 -/
  | fabRead (addr : W64)
  /-- R580 -/
  | fabWrite (addr data : W64)
  /-- R581 -/
  | dbgRead (addr : W64)
  /-- R581 -/
  | dbgWrite (addr data : W64)
  /-- R584 -/
  | halt (k : CoreId)
  /-- R586 -/
  | resume (k : CoreId)
  /-- R586 -/
  | step (k : CoreId)
  /-- R581 -/
  | xtStatusClear (mask : Byte)
  /-- R584 -/
  | haltPointReached (k : CoreId)
  /-- R587 -/
  | crossTriggerRequest (k : CoreId)
  /-- R590 -/
  | unlockExpiry
  /-- R591 -/
  | challengeExpiry
  /-- R45 -/
  | clkinEdgesReturned (k : Fin 2)
  /-- R543 -/
  | powerRemoval
  deriving DecidableEq, Repr

end Sys2Proof
end

