-- ==== Sys2Proof/WellFormed.lean ====
section
/-! DEFINITION. Well-formed commands: the operands that the manual bounds and that the types of `Instr` do not. -/

namespace Sys2Proof

/-- Header fields fit their widths (R441); ports 0 to 3 are the host ports and 4 is the SPI port (R447). -/
def Req.wf (rq : Req) : Bool :=
  decide (rq.port ≤ 4) && decide (rq.opcode < 65536) && decide (rq.tag < 65536) && decide (rq.seq < 2 ^ 32) &&
  decide (rq.scope < 256) && decide (rq.inst < 2 ^ 32)

/-- Header fields fit their widths (R353), and the data of a packet is no longer than its length (R359). -/
def FabMsg.wf (m : FabMsg) : Bool :=
  decide (m.cmd < 16) && decide (m.vc < 4) && decide (m.src < 1024) && decide (m.dst < 1024) && decide (m.addr < 2 ^ 64) &&
  decide (m.len ≤ 256) && decide (m.tag < 256) && decide (m.gen < 4) && decide (m.status < 16) &&
  decide (m.data.length ≤ m.len) && decide (m.operand < 2 ^ 64) && decide (m.chan < 65536)

/-- The owner's bytes and the bad words lie in a bank of at most 1 MiB (R371, R372). -/
def BankEcc.wf (e : BankEcc) : Bool :=
  (e.bad.all fun w => decide (w < 131072)) && (e.corrected.all fun w => decide (w < 131072)) &&
  e.owner.all fun a => decide (a < 1048576)

/-- Bytes written to BAR2 lie within its 256 KiB (R436), and flags and commands are 64-bit values. -/
def RegWrite.wf (w : RegWrite) : Bool :=
  match w with
  | .bar0 _ off eight v => if eight then off.toNat % 8 = 0 else off.toNat % 4 = 0 && decide (v.toNat < 2 ^ 32)
  | .slot _ off bytes => decide (off.toNat + bytes.length ≤ 262144)
  | .msix _ _ _ => true
  | .chan _ _ => true
  | .flag _ _ _ => true

/-- A command is well formed. -/
def Instr.wf (i : Instr) : Bool :=
  match i with
  | .oscInLoss => true
  | .activeRoleEvaluation => true
  | .residualSlewEnd => true
  | .residualThresholdCrossing => true
  | .servoUpdate _ _ => true
  | .ptpTimeout _ _ => true
  | .clkinEdgeMissing _ => true
  | .ppsInEdge _ => true
  | .ppsSignalLoss _ => true
  | .todMessage _ _ => true
  | .esmcPdu _ _ => true
  | .esmcTimeout _ => true
  | .refWtrExpiry _ _ => true
  | .holdoverExpiry _ => true
  | .driftWindowEnd _ _ => true
  | .ppsOutEdge _ => true
  | .ppsOutPulseEnd _ => true
  | .timeBusParityError _ _ _ => true
  | .comparatorFire _ => true
  | .taoutPulseEnd _ => true
  | .clockRecoveryLock _ => true
  | .clockRecoveryLoss _ => true
  | .codewordLock _ => true
  | .codewordLockLoss _ => true
  | .blockLock _ _ => true
  | .blockLockLoss _ _ => true
  | .serWindowEnd _ _ m => decide (m.badHeaders ≤ m.blocks) && m.corrected.all fun n => decide (n ≤ m.symbols)
  | .eqEntryApplied _ => true
  | .maintTimeout _ => true
  | .eyescanComplete _ _ => true
  | .trendScan _ => true
  | .trendScanDone _ eyes => eyes.length = 1 || eyes.length = 3
  | .prbsCheckerLock _ => true
  | .laneGroupReady _ => true
  | .frameReceived _ _ _ _ => true
  | .rxWindowClose _ _ _ => true
  | .doorbellUlRelease _ _ _ => true
  | .doorbellDlReady _ _ _ => true
  | .doorbellCplaneReady _ _ _ => true
  | .dlReadyDeadline _ _ _ => true
  | .dlTxWindowOpen _ _ _ => true
  | .dlTxWindowClose _ _ _ => true
  | .cplaneReadyDeadline _ _ => true
  | .cplaneTxWindowOpen _ _ => true
  | .frameTransmitted _ _ => true
  | .noiseWindowEnd _ _ => true
  | .prachOccasionClose _ _ _ => true
  | .prachStartTimeout _ => true
  | .prachProcessingStart _ => true
  | .prachProcessingEnd _ => true
  | .interruptEntry _ => true
  | .ctimerMatch _ => true
  | .holdLimit _ => true
  | .coreRestore _ => true
  | .memModeChange _ => true
  | .descriptorArrival _ _ => true
  | .add _ _ _ _ _ => true
  | .sub _ _ _ _ _ => true
  | .and _ _ _ _ _ => true
  | .or _ _ _ _ _ => true
  | .xor _ _ _ _ _ => true
  | .andn _ _ _ _ _ => true
  | .shl _ _ _ _ _ => true
  | .shr _ _ _ _ _ => true
  | .sar _ _ _ _ _ => true
  | .ror _ _ _ _ _ => true
  | .min _ _ _ _ _ => true
  | .max _ _ _ _ _ => true
  | .minu _ _ _ _ _ => true
  | .maxu _ _ _ _ _ => true
  | .clz _ _ _ _ => true
  | .popc _ _ _ _ => true
  | .cmpeq _ _ _ _ _ => true
  | .cmpne _ _ _ _ _ => true
  | .cmplt _ _ _ _ _ => true
  | .cmpltu _ _ _ _ _ => true
  | .cmple _ _ _ _ _ => true
  | .cmpleu _ _ _ _ _ => true
  | .limm _ _ _ _ => true
  | .limmh _ _ _ _ => true
  | .mul _ _ _ _ _ => true
  | .mulh _ _ _ _ _ => true
  | .mulhu _ _ _ _ _ => true
  | .scalarCmul _ _ _ _ _ _ => true
  | .scalarCmulc _ _ _ _ _ _ => true
  | .br _ _ _ => true
  | .brz _ _ _ _ => true
  | .brnz _ _ _ _ => true
  | .call _ _ _ => true
  | .jr _ _ _ => true
  | .rep _ _ _ _ _ => true
  | .repi _ _ _ _ _ => true
  | .mfc _ _ _ _ => true
  | .mtc _ _ _ _ => true
  | .waitwork _ _ => true
  | .donework _ _ _ => true
  | .eret _ _ => true
  | .sysc _ _ _ => true
  | .ldb _ _ _ _ _ => true
  | .ldbu _ _ _ _ _ => true
  | .ldh _ _ _ _ _ => true
  | .ldhu _ _ _ _ _ => true
  | .ldw _ _ _ _ _ => true
  | .ldwu _ _ _ _ _ => true
  | .ldd _ _ _ _ _ => true
  | .stb _ _ _ _ _ => true
  | .sth _ _ _ _ _ => true
  | .stw _ _ _ _ _ => true
  | .std _ _ _ _ _ => true
  | .vld _ _ _ _ _ => true
  | .vst _ _ _ _ _ => true
  | .vld2 _ _ _ _ _ _ _ _ => true
  | .vldst _ _ _ _ _ _ _ _ => true
  | .aaddw _ _ _ _ _ _ => true
  | .aaddd _ _ _ _ _ _ => true
  | .aswpd _ _ _ _ _ _ => true
  | .vlde _ _ _ _ _ _ => true
  | .vste _ _ _ _ _ _ => true
  | .vlds2 _ _ _ _ _ _ => true
  | .vlds3 _ _ _ _ _ _ => true
  | .vlds4 _ _ _ _ _ _ => true
  | .vsts2 _ _ _ _ _ _ => true
  | .vsts3 _ _ _ _ _ _ => true
  | .vsts4 _ _ _ _ _ _ => true
  | .vgath _ _ _ _ _ _ => true
  | .vscat _ _ _ _ _ _ => true
  | .vadd _ _ _ _ _ _ _ _ => true
  | .vsub _ _ _ _ _ _ _ _ => true
  | .vneg _ _ _ _ _ _ _ _ => true
  | .vabs _ _ _ _ _ _ _ _ => true
  | .vmin _ _ _ _ _ _ _ _ => true
  | .vmax _ _ _ _ _ _ _ _ => true
  | .vand _ _ _ _ _ _ _ _ => true
  | .vor _ _ _ _ _ _ _ _ => true
  | .vxor _ _ _ _ _ _ _ _ => true
  | .vandn _ _ _ _ _ _ _ _ => true
  | .vshl _ _ _ _ _ _ _ _ => true
  | .vshr _ _ _ _ _ _ _ _ => true
  | .vshru _ _ _ _ _ _ _ _ => true
  | .vconj _ _ _ _ _ _ _ _ => true
  | .vcmulj _ _ _ _ _ _ _ _ => true
  | .vmulq _ _ _ _ _ _ _ _ => true
  | .vcmulq _ _ _ _ _ _ _ => true
  | .vcmulqc _ _ _ _ _ _ _ => true
  | .cmul _ _ _ _ _ _ _ => true
  | .cmulc _ _ _ _ _ _ _ => true
  | .cmac _ _ _ _ _ _ _ => true
  | .cmacc _ _ _ _ _ _ _ => true
  | .cmacs _ _ _ _ _ _ _ => true
  | .cmacsc _ _ _ _ _ _ _ => true
  | .vnarrow _ _ _ _ _ _ _ => true
  | .vcnarrow _ _ _ _ _ _ _ => true
  | .vcwiden _ _ _ _ _ _ _ => true
  | .vcrsum _ _ _ _ _ _ _ => true
  | .vcmpeq _ _ _ _ _ _ _ _ => true
  | .vcmplt _ _ _ _ _ _ _ _ => true
  | .vcmple _ _ _ _ _ _ _ _ => true
  | .vsel _ _ _ _ _ _ _ _ => true
  | .vsplat _ _ _ _ _ _ _ _ => true
  | .vslide _ _ _ _ _ _ _ _ _ => true
  | .setvl _ _ _ _ _ _ _ => true
  | .mlen _ _ _ _ _ _ _ => true
  | .mand _ _ _ _ _ _ _ => true
  | .mor _ _ _ _ _ _ _ => true
  | .mxor _ _ _ _ _ _ _ => true
  | .mandn _ _ _ _ _ _ _ => true
  | .mnot _ _ _ _ _ _ _ => true
  | .msel _ _ _ _ _ _ _ => true
  | .mpopc _ _ _ _ _ _ _ => true
  | .vfadd _ _ _ _ _ _ _ _ => true
  | .vfsub _ _ _ _ _ _ _ _ => true
  | .vfmul _ _ _ _ _ _ _ _ => true
  | .vfmin _ _ _ _ _ _ _ _ => true
  | .vfmax _ _ _ _ _ _ _ _ => true
  | .vfma _ _ _ _ _ _ _ _ => true
  | .vfcvt _ _ _ _ _ _ _ _ => true
  | .fadd _ _ _ _ _ _ _ => true
  | .fsub _ _ _ _ _ _ _ => true
  | .fmul _ _ _ _ _ _ _ => true
  | .fma _ _ _ _ _ _ _ => true
  | .fcmplt _ _ _ _ _ _ _ => true
  | .fcmple _ _ _ _ _ _ _ => true
  | .fcmpeq _ _ _ _ _ _ _ => true
  | .fmvgf _ _ _ _ _ _ _ => true
  | .fmvfg _ _ _ _ _ _ _ => true
  | .dmap _ _ _ _ _ _ _ => true
  | .schol _ _ _ _ _ _ _ => true
  | .strsl _ _ _ _ _ _ _ => true
  | .strsu _ _ _ _ _ _ _ => true
  | .sinvh _ _ _ _ _ _ _ => true
  | .uerrd _ _ _ _ => true
  | .uerrs _ _ _ _ => true
  | .unitResultWrite _ _ => true
  | .enqueue _ _ bytes => decide (bytes.length = 64)
  | .counterSet _ _ _ => true
  | .counterDecrement _ _ _ => true
  | .flowEntryFetched _ _ => true
  | .dispatchDecision _ _ _ => true
  | .stealRequest _ => true
  | .stealGrant _ => true
  | .promotion _ _ => true
  | .urgencyEntry _ _ => true
  | .late _ _ => true
  | .slotEnd _ _ => true
  | .tierMessage _ _ => true
  | .lateReportPeriod _ => true
  | .millCheck _ => true
  | .drainTimeout _ => true
  | .abortGraceExpiry _ => true
  | .ldpcDecode _ _ => true
  | .ldpcEncode _ _ => true
  | .tbAssemble _ _ => true
  | .polarDecode _ _ => true
  | .polarEncode _ _ => true
  | .turboDecode _ _ => true
  | .turboEncode _ _ => true
  | .turboDatapathFree _ _ _ => true
  | .cloveJobCompletion _ _ _ _ => true
  | .read m e => FabMsg.wf m && e.wf
  | .write m e => FabMsg.wf m && e.wf
  | .atomicAdd m e => FabMsg.wf m && e.wf
  | .swap m e => FabMsg.wf m && e.wf
  | .readResp m => FabMsg.wf m
  | .writeResp m => FabMsg.wf m
  | .fenceReq _ => true
  | .fenceAck _ => true
  | .wake _ => true
  | .event _ _ _ _ detail => decide (detail.length ≤ 24)
  | .flitCrcError _ _ => true
  | .linkStuck _ _ => true
  | .requestTimeout _ _ => true
  | .fenceTimeout _ => true
  | .dramReadComplete _ _ _ => true
  | .regionInitComplete _ => true
  | .scrubPage _ => true
  | .rekeySweepPage _ _ _ => true
  | .temperaturePoll _ _ => true
  | .chanCmdStart _ => true
  | .chanCmdStop _ => true
  | .chanCmdReset _ => true
  | .flagSet _ _ => true
  | .flagClear _ _ => true
  | .move _ bytes => decide (bytes.length = 64)
  | .loop _ bytes => decide (bytes.length = 16)
  | .waitAirtime _ bytes => decide (bytes.length = 16)
  | .waitCounter _ bytes => decide (bytes.length = 16)
  | .waitFlag _ bytes => decide (bytes.length = 16)
  | .signalCounter _ bytes => decide (bytes.length = 16)
  | .signalFlag _ bytes => decide (bytes.length = 16)
  | .signalEvent _ bytes => decide (bytes.length = 16)
  | .dmaEnd _ bytes => decide (bytes.length = 16)
  | .waitAirtimeReached _ => true
  | .counterPoll _ => true
  | .doorbell _ _ => true
  | .packetAcceptance => true
  | .replyBaseWrite _ _ => true
  | .replySizeWrite _ _ => true
  | .replyRdWrite _ _ => true
  | .atLoRead _ => true
  | .msixUnmask _ _ => true
  | .registerWrite w => w.wf
  | .perst _ => true
  | .flr _ => true
  | .hostLinkChange _ _ _ _ => true
  | .packetWrite _ => true
  | .statusRead => true
  | .replyRead n => decide (n ≤ 4096)
  | .devInfo rq p => Req.wf rq && decide (p.length ≤ 4076)
  | .devStatus rq p => Req.wf rq && decide (p.length ≤ 4076)
  | .resetWarm rq p => Req.wf rq && decide (p.length ≤ 4076)
  | .flashRead rq p => Req.wf rq && decide (p.length ≤ 4076)
  | .flashErase rq p => Req.wf rq && decide (p.length ≤ 4076)
  | .flashWrite rq p => Req.wf rq && decide (p.length ≤ 4076)
  | .flashOperationComplete _ => true
  | .paramGet rq p => Req.wf rq && decide (p.length ≤ 4076)
  | .paramSet rq p => Req.wf rq && decide (p.length ≤ 4076)
  | .cfgStage rq p => Req.wf rq && decide (p.length ≤ 4076)
  | .cfgArm rq p => Req.wf rq && decide (p.length ≤ 4076)
  | .cfgDigest rq p => Req.wf rq && decide (p.length ≤ 4076)
  | .carrierStatus rq p => Req.wf rq && decide (p.length ≤ 4076)
  | .radioNoiseRead rq p => Req.wf rq && decide (p.length ≤ 4076)
  | .radioStatus rq p => Req.wf rq && decide (p.length ≤ 4076)
  | .kernelWrite rq p => Req.wf rq && decide (p.length ≤ 4076)
  | .kernelCommit rq p => Req.wf rq && decide (p.length ≤ 4076)
  | .kernelPlace rq p => Req.wf rq && decide (p.length ≤ 4076)
  | .kernelStatus rq p => Req.wf rq && decide (p.length ≤ 4076)
  | .millEnqueue rq p => Req.wf rq && decide (p.length ≤ 4076)
  | .millCounterSet rq p => Req.wf rq && decide (p.length ≤ 4076)
  | .millCounterRead rq p => Req.wf rq && decide (p.length ≤ 4076)
  | .traceRead rq p => Req.wf rq && decide (p.length ≤ 4076)
  | .timeStatus rq p => Req.wf rq && decide (p.length ≤ 4076)
  | .timeRead rq p => Req.wf rq && decide (p.length ≤ 4076)
  | .airtimeRead rq p => Req.wf rq && decide (p.length ≤ 4076)
  | .timeSwitch rq p => Req.wf rq && decide (p.length ≤ 4076)
  | .timeRealign rq p => Req.wf rq && decide (p.length ≤ 4076)
  | .timePtpFeed rq p => Req.wf rq && decide (p.length ≤ 4076)
  | .ptpRecv rq p => Req.wf rq && decide (p.length ≤ 4076)
  | .ptpSend rq p => Req.wf rq && decide (p.length ≤ 4076)
  | .timedArm rq p => Req.wf rq && decide (p.length ≤ 4076)
  | .timedCancel rq p => Req.wf rq && decide (p.length ≤ 4076)
  | .timedStatus rq p => Req.wf rq && decide (p.length ≤ 4076)
  | .memRegionCreate rq p => Req.wf rq && decide (p.length ≤ 4076)
  | .memRegionDelete rq p => Req.wf rq && decide (p.length ≤ 4076)
  | .memStatus rq p => Req.wf rq && decide (p.length ≤ 4076)
  | .protRekey rq p => Req.wf rq && decide (p.length ≤ 4076)
  | .dmaChanStart rq p => Req.wf rq && decide (p.length ≤ 4076)
  | .dmaChanStop rq p => Req.wf rq && decide (p.length ≤ 4076)
  | .dmaChanReset rq p => Req.wf rq && decide (p.length ≤ 4076)
  | .dmaChanStatus rq p => Req.wf rq && decide (p.length ≤ 4076)
  | .powerStatus rq p => Req.wf rq && decide (p.length ≤ 4076)
  | .powerStateSet rq p => Req.wf rq && decide (p.length ≤ 4076)
  | .powerTransitionComplete => true
  | .poolStatus rq p => Req.wf rq && decide (p.length ≤ 4076)
  | .takeover rq p => Req.wf rq && decide (p.length ≤ 4076)
  | .migrate rq p => Req.wf rq && decide (p.length ≤ 4076)
  | .laneStatus rq p => Req.wf rq && decide (p.length ≤ 4076)
  | .laneMaintOpen rq p => Req.wf rq && decide (p.length ≤ 4076)
  | .laneMaintClose rq p => Req.wf rq && decide (p.length ≤ 4076)
  | .laneEyescanStart rq p => Req.wf rq && decide (p.length ≤ 4076)
  | .laneEyescanAbort rq p => Req.wf rq && decide (p.length ≤ 4076)
  | .laneEyescanRead rq p => Req.wf rq && decide (p.length ≤ 4076)
  | .fhCounters rq p => Req.wf rq && decide (p.length ≤ 4076)
  | .fhExcRead rq p => Req.wf rq && decide (p.length ≤ 4076)
  | .fabricCounters rq p => Req.wf rq && decide (p.length ≤ 4076)
  | .selftestRun rq p => Req.wf rq && decide (p.length ≤ 4076)
  | .selftestAbort rq p => Req.wf rq && decide (p.length ≤ 4076)
  | .selftestStatus rq p => Req.wf rq && decide (p.length ≤ 4076)
  | .evtSubscribe rq p => Req.wf rq && decide (p.length ≤ 4076)
  | .evtRead rq p => Req.wf rq && decide (p.length ≤ 4076)
  | .evtUnsubscribe rq p => Req.wf rq && decide (p.length ≤ 4076)
  | .dbgChallenge rq p => Req.wf rq && decide (p.length ≤ 4076)
  | .dbgUnlock rq p => Req.wf rq && decide (p.length ≤ 4076)
  | .dbgLock rq p => Req.wf rq && decide (p.length ≤ 4076)
  | .dbgStatus rq p => Req.wf rq && decide (p.length ≤ 4076)
  | .ageingReport rq p => Req.wf rq && decide (p.length ≤ 4076)
  | .ageingHistory rq p => Req.wf rq && decide (p.length ≤ 4076)
  | .unitReady _ => true
  | .commitReadinessCheck bad => bad.all fun u => decide (u < 65536)
  | .shadowSwap bad reset => (bad ++ reset).all fun u => decide (u < 65536)
  | .unitApplied _ => true
  | .commitOutcome => true
  | .commitRollback => true
  | .heartbeat _ bytes => decide (54 ≤ bytes.length)
  | .heartbeatSend => true
  | .state _ bytes => decide (54 ≤ bytes.length)
  | .stateSend => true
  | .claim _ bytes => decide (54 ≤ bytes.length)
  | .claimLostStandby _ => true
  | .mirror _ bytes _ => decide (54 ≤ bytes.length)
  | .mirrorPageSend _ => true
  | .mirrorLagExceeded _ => true
  | .prepare _ bytes => decide (54 ≤ bytes.length)
  | .ready _ bytes => decide (54 ≤ bytes.length)
  | .go _ bytes => decide (54 ≤ bytes.length)
  | .goAck _ bytes => decide (54 ≤ bytes.length)
  | .cancel _ bytes => decide (54 ≤ bytes.length)
  | .migrateGoDeadline _ => true
  | .migrateAckDeadline _ => true
  | .migrateSwitch _ => true
  | .migrateReply _ => true
  | .takeoverSwitch _ => true
  | .peerUnreachable _ => true
  | .timeOffsetEvaluation => true
  | .keyGraceExpiry => true
  | .eventAcceptance => true
  | .hostLaggedTimeout _ => true
  | .selftestDue _ => true
  | .selftestStart _ => true
  | .selftestTestComplete _ _ => true
  | .demandIdleExpiry _ => true
  | .demandWake _ => true
  | .domainPowerUpComplete _ => true
  | .wakeN => true
  | .hostPortActivityWake _ => true
  | .droopDetect _ _ => true
  | .droopLevelFall _ => true
  | .stretchWindowEnd => true
  | .ageingSample tiles => decide (tiles.length = 6)
  | .replanBoundary => true
  | .marginFlag _ _ _ => true
  | .avsWriteComplete _ _ => true
  | .thermAlert _ => true
  | .thermtrip => true
  | .rstNAssert => true
  | .coldStart _ => true
  | .wrstN => true
  | .warmStart _ => true
  | .tapReset => true
  | .extest _ => true
  | .samplePreload _ => true
  | .idcode => true
  | .clamp => true
  | .highz => true
  | .extestPulse _ => true
  | .extestTrain _ => true
  | .proulAccess => true
  | .bypass => true
  | .nop => true
  | .fabRead _ => true
  | .fabWrite _ _ => true
  | .dbgRead _ => true
  | .dbgWrite _ _ => true
  | .halt _ => true
  | .resume _ => true
  | .step _ => true
  | .xtStatusClear _ => true
  | .haltPointReached _ => true
  | .crossTriggerRequest _ => true
  | .unlockExpiry => true
  | .challengeExpiry => true
  | .clkinEdgesReturned _ => true
  | .powerRemoval => true

end Sys2Proof
end

