-- ==== Sys2Proof/Config.lean ====
section
/-! DEFINITION. What the manual names but does not compute: constants of mathematics and of published
standards whose tables the manual does not print, cryptographic functions, and free values.  Every constant
here that the manual does not fix is opaque, so that no statement can rest on its value (`notes/assumptions/4.md`, `notes/assumptions/5.md`). -/

namespace Sys2Proof.Config

/-- A value the manual leaves open, by its ordinal: fresh for each use through `State.freeCount`. -/
opaque freeNat : Nat → Nat
/-- A free bit. -/
opaque freeBool : Nat → Bool
/-- A free 512-bit value. -/
opaque free512 : Nat → W512

/-- The bytes of a reply whose fields the manual names without a layout, from the opcode and the fields. -/
opaque replyLayout : Nat → List Nat → List Byte
/-- The voltage step of the offset samplers in 0.01 mV (R120). -/
opaque voltageStep : Nat
/-- The slope, in ppb per second, that Laniman learns from the corrections of the last 24 h of lock (R63). -/
opaque ageSlope : List (Nat × Rat) → Rat
/-- Physical root of a logical root: sequence length and logical index (TS 38.211 clause 6.3.3.1). -/
opaque prachRoot : Nat → Nat → Nat
/-- IPv4 fields the manual does not state for frames the device builds: type of service, identification with flags,
time to live. -/
opaque ipTos : Nat
opaque ipIdent : Nat
opaque ipTtl : Nat
/-- IPv6 traffic class and flow label, and hop limit, of frames the device builds. -/
opaque ip6Flow : Nat
opaque ip6Hop : Nat
/-- The digest SHA-384 of a byte string. -/
opaque sha384 : List Byte → List Byte
/-- Verification of an ECDSA P-384 signature: key hash or key, message, signature. -/
opaque ecdsaVerify : List Byte → List Byte → List Byte → Bool
/-- One AES-256 block under a key. -/
opaque aes256 : List Byte → List Byte → List Byte
/-- A key of the key-derivation function: secret, and label followed by context. -/
opaque kdf : List Byte → List Byte → List Byte
/-- AES-256-GCM seal: key, nonce, additional data, plain text; answers cipher text and tag. -/
opaque gcmSeal : List Byte → List Byte → List Byte → List Byte → List Byte × List Byte
/-- A GMAC or GHASH tag: key, nonce, data. -/
opaque macTag : List Byte → List Byte → List Byte → List Byte
/-- The n-th output of the device's random number generator, as bytes. -/
opaque random : Nat → Nat → List Byte
/-- The set of a page cache that a page falls in: 256 sets of 16 ways, the function is not stated (R392). -/
opaque cacheSet : Nat → Nat

/-- The 8 bytes of a flow-table entry of a flow that is idle, whose layout the manual does not give (R272). -/
opaque flowIdle : Nat → List Byte

/-- A row of an LDPC base graph at a lifting size: its columns and shifts, from TS 38.212 (R312 to R314). -/
opaque ldpcRow : Nat → Nat → Nat → List (Nat × Nat)
/-- The 1,024 indices of a polar code in order of rising reliability (TS 38.212 Table 5.3.1.2-1). -/
opaque polarOrder : List Nat
/-- The 164 entries of the polar input interleaver (TS 38.212 Table 5.3.1.1-1). -/
opaque polarInterleave : List Nat
/-- The coefficients f1 and f2 of the turbo interleaver of K bits (TS 36.212 Table 5.1.3-3). -/
opaque qpp : Nat → Nat × Nat

/-- The part is of speed grade -16, else of grade -14 (R19, R611). -/
opaque gradeSixteen : Bool
/-- Speed grade as DEV_INFO reports it (R455). -/
def speedGrade : Nat := bif gradeSixteen then 16 else 14
/-- Nominal Facet clock of the device's speed grade, in MHz (R19, R549). -/
def nominalMHz : Nat := bif gradeSixteen then 1600 else 1400
/-- Revision digit of silicon revision B0 (R20, R432). -/
def revisionDigit : Nat := 0

/-- The 4,096 bytes of the ageing plan at retention offset 0x0400, whose layout the manual does not give, from the
plan's fields; and a field read from bytes that Laniman did not write (R543, R566). -/
opaque planBytes : List Nat → List Byte
opaque planParse : List Byte → Nat → Nat

/-- Predicted seconds to the next voltage step and to the next capacity step with the kind of that step, from a tile
code and the slack of the latest samples (R552). -/
opaque agePredict : Nat → List Int → Nat × Nat × Nat

/-- Serial number, boot ROM version and Laniman version (R455). -/
opaque serialNumber : Nat
opaque romVersion : Nat
opaque lanimanVersion : Nat

/-- What the fuses hold: the key hash and minimum security version of the Laniman image, and the debug-key hash
(R562, R592). -/
opaque keyHash : List Byte
opaque minVersion : Nat
opaque debugKeyHash : List Byte

end Sys2Proof.Config
end

