-- ==== Sys2Proof/Machine/State.lean ====
section
/-! DEFINITION. The state of the Ixsolu 9640 as plain data: every register, buffer, counter, mode and pin
that the manual names, one sub-structure for each block, the queue of waiting commands, and the state right
after reset.  Where the manual gives no reset value the model's value is named in `notes/assumptions/1.md`. -/

namespace Sys2Proof.Machine

/-! ## Time subsystem (R30 to R77) and Air Time (R78 to R103) -/

/-- One reference input as one time domain sees it (R43 to R47, R58 to R62). -/
structure RefInput where
  /-- The signal is present (R45). -/
  present : Bool := false
  /-- Domain time, in ns, from which the signal has been present without a break (R45). -/
  since : Nat := 0
  /-- The input has lost its signal since the last start, so the wait to restore applies (R45). -/
  lost : Bool := false
  /-- Air Time of the last PTP measurement or ESMC PDU (R45, R57, R11). -/
  lastMeas : Nat := 0
  /-- Rank 0 to 15 (R44). -/
  rank : Nat := 15
  /-- Measured frequency offset from the OCXO prediction, in 0.001 ppb (R45, R58). -/
  freq : Int := 0
  /-- Qualified in this domain (R45). -/
  qualified : Bool := false
  /-- Disqualified by the drift test (R59). -/
  driftDq : Bool := false
  /-- Presence, in ns of domain time, in this drift window before the present spell (R58). -/
  winPresent : Nat := 0
  /-- Offset from the OCXO prediction in the last window with a result, in 0.001 ppb (R58). -/
  winOff : Option Int := none
  /-- Consecutive windows outside the tolerance (R59). -/
  driftRun : Nat := 0
  /-- Consecutive windows within half of the tolerance while disqualified (R61). -/
  requalRun : Nat := 0
  deriving DecidableEq, Repr

/-- One time domain (R32). -/
structure Domain where
  /-- PTP time in units of 2^-32 ns: the 48-bit seconds, 30-bit nanoseconds and 32-bit fraction as one count (R32, R82). -/
  count : Nat := 315964819 * 1000000000 * 4294967296
  /-- Frequency correction in ppb (R32, R49). -/
  y : Rat := 0
  /-- Integral term of the servo (R49). -/
  integ : Rat := 0
  /-- State: 0 FREERUN, 1 ACQUIRING, 2 LOCKED, 3 FREQ_ONLY, 4 HOLDOVER (R40). -/
  st : Nat := 0
  /-- Consecutive updates that met the lock condition (R41). -/
  run : Nat := 0
  /-- Domain time in ns from which the domain has been LOCKED or FREQ_ONLY (R42). -/
  lockFrom : Option Nat := none
  /-- Domain time in ns from which the domain has been LOCKED without a break (R36). -/
  lockedFrom : Option Nat := none
  /-- Corrections applied during the lock: domain time in ns and y (R42, R63), newest first. -/
  samples : List (Nat × Rat) := []
  /-- Learned frequency of the last lock that was long enough (R42). -/
  learned : Option Rat := none
  /-- OCXO ageing rate in ppb per second (R63). -/
  ageRate : Rat := 0
  /-- Domain time in ns at which holdover began (R63, R64). -/
  holdFrom : Option Nat := none
  /-- Domain time in ns at which the domain was LOCKED last since the cold start (R64). -/
  lastLocked : Option Nat := none
  /-- Selected frequency reference (R47). -/
  freqRef : Option Nat := none
  /-- Selected phase reference (R47). -/
  phaseRef : Option Nat := none
  /-- The next phase error may be removed by a step: first lock or changed phase reference (R33). -/
  stepDue : Bool := true
  /-- Last measured phase error in 2^-16 ns (R464). -/
  phaseErr : Int := 0
  /-- Last phase of the frequency reference against its expected phase, in 2^-16 ns (R49). -/
  freqPhase : Int := 0
  /-- Domain time in ns of the last update of the PI loop (R49). -/
  lastUpdate : Nat := 315964819 * 1000000000
  /-- Domain time in ns at which the present drift window began (R58). -/
  winFrom : Nat := 315964819 * 1000000000
  /-- The inputs 0 to 23 that ever had a signal, by input number (R43). -/
  inputs : SMap RefInput := []
  deriving DecidableEq, Repr

/-- One ToD input (R65 to R69). -/
structure TodIn where
  /-- Sequence of the last message used, and the messages whose sequence did not follow (R68). -/
  seq : Option Nat := none
  seqErrors : Nat := 0
  /-- Seconds field of the last message used (R69). -/
  secs : Option Nat := none
  /-- Consecutive messages whose seconds rose by 1 while the signal was lost under R69. -/
  goodRun : Nat := 0
  /-- The signal is lost because the seconds field jumped (R69). -/
  secsLost : Bool := false
  /-- Consecutive closed seconds without a usable edge, and without a valid message (R43, R67). -/
  unusable : Nat := 0
  invalid : Nat := 0
  /-- A message has arrived within this second (R67). -/
  gotMsg : Bool := false
  /-- A usable message has described this second's edge (R67). -/
  usable : Bool := false
  /-- A message of this second was not discarded (R43). -/
  valid : Bool := false
  /-- Leap flags: bit 1 leap 59, bit 0 leap 61 (R65). -/
  leap : Nat := 0
  /-- TAI minus UTC in seconds (R65). -/
  taiUtc : Nat := 0
  /-- Quality of the last message used (R65). -/
  quality : Nat := 15
  /-- Domain times in ns of the last PPS_IN edge in each domain, after the input delay (R70). -/
  edge0 : Int := 0
  edge1 : Int := 0
  /-- The servo of each domain has used this edge (R50). -/
  taken0 : Bool := true
  taken1 : Bool := true
  deriving DecidableEq, Repr

/-- One pulse output (R71 to R74). -/
structure PpsOut where
  /-- Mode in force: 0 OFF, 1 ONCE, 2 PERIODIC (R71). -/
  mode : Nat := 0
  dom : Nat := 0
  start : Nat := 0
  period : Nat := 1000000000
  width : Nat := 100000000
  delay : Int := 0
  /-- Next programmed time, in ns of the domain, if any (R73). -/
  next : Option Nat := none
  /-- What is left of the present pulse, in 2^-32 ns of the active domain's time (R12, R71). -/
  fall : Option Nat := none
  /-- Domain and time of every pulse produced (R74). -/
  produced : List (Nat × Nat) := []
  /-- The programmed times between these two were jumped over by a forward step (R74). -/
  jumped : Option (Nat × Nat) := none
  /-- Level of the output pin. -/
  high : Bool := false
  deriving DecidableEq, Repr

/-- One timed-action comparator (R92 to R99). -/
structure Comparator where
  armed : Bool := false
  /-- Mode: 0 ONE_SHOT, 1 PERIODIC (R93). -/
  mode : Nat := 0
  action : Nat := 0
  arg : Nat := 0
  target : Nat := 0
  period : Nat := 0
  /-- The host port that armed it last: 0 to 3, 4 the SPI port, 255 none or Laniman (R99). -/
  port : Nat := 255
  /-- The last arming has fired (R99). -/
  fired : Bool := false
  /-- Laniman wrote a target that had already passed (R96). -/
  late : Bool := false
  deriving DecidableEq, Repr

/-- A TIME_SWITCH in its wait phase (R37). -/
structure SwitchWait where
  req : Req
  target : Nat
  force : Bool
  deriving DecidableEq, Repr

/-- The time subsystem. -/
structure TimeSt where
  /-- Strap OSC_SEL as sampled at power-on: false 10 MHz, true 20 MHz (R30). -/
  oscSel : Bool := false
  /-- The synthesiser runs from its internal reference (R31). -/
  oscLost : Bool := false
  /-- Domain 0, the primary domain (R32). -/
  dom0 : Domain := {}
  /-- Domain 1, the Mirror domain (R32). -/
  dom1 : Domain := {}
  /-- The active domain (R36). -/
  active : Nat := 0
  /-- The residual r in 2^-16 ns (R33, R82). -/
  r : Int := 0
  /-- Active-domain time, in 2^-32 ns, that the slew has not yet turned into a change of r (R35). -/
  slewFrac : Nat := 0
  /-- |r| has risen above the alarm value (R39). -/
  alarm : Bool := false
  /-- Air Time in units of 2^-32 Tc: the 64-bit count and its 32-bit fraction (R78). -/
  air : Nat := 0
  /-- Air Time in Tc before the last time-clock cycle, and the local copies that skipped an update, by unit class and
  index: the value held, and whether the skipped update is that of the present cycle (R81). -/
  prevNow : Nat := 0
  stale : SMap (Nat × Bool) := []
  /-- Air Time is aligned (R82, R83). -/
  aligned : Bool := false
  /-- TIME_SWITCH waiting for the next evaluation (R37). -/
  switchWait : Option SwitchWait := none
  /-- Drift windows closed since the cold start, and the number of the window that runs on the 100 s grid (R58). -/
  driftWindows : Nat := 0
  driftAt : Nat := 3159648
  tod0 : TodIn := {}
  tod1 : TodIn := {}
  /-- Pulse outputs by number (R71). -/
  pps : SMap PpsOut := []
  /-- For TAOUT0 to TAOUT3, the Air Time until which the output stays high (R94). -/
  taout : SMap Nat := []
  /-- Comparators 0 to 255 ever armed since the cold start (R92). -/
  comps : SMap Comparator := []
  deriving DecidableEq, Repr

/-! ## Host ports, command arbiter, maintenance SPI port, flash, kernel images (R432 to R468) -/

/-- One PCIe host port (R432 to R440). -/
structure HostPort where
  linkUp : Bool := false
  width : Nat := 0
  rate : Nat := 0
  /-- Role in force: 0 DISABLED, 1 OWNER, 2 OPERATOR, 3 OBSERVER (R434). -/
  role : Nat := 0
  scratch : BitVec 32 := 0
  atHi : BitVec 32 := 0
  /-- SLOTBUSY (R435). -/
  slotBusy : BitVec 64 := 0
  submitted : Nat := 0
  doorbellErr : Nat := 0
  badCrc : Nat := 0
  replyBase : Nat := 0
  replySize : Nat := 0
  replyWr : Nat := 0
  replyRd : Nat := 0
  replyDiscarded : Nat := 0
  /-- INTVEC: default event vector 1, state vector 2 (R435). -/
  intvec : BitVec 32 := 0x00020100
  /-- MSI-X table bytes, pending bits, and the Enable and Function Mask bits of the capability (R440). -/
  msixTable : Bytes := []
  /-- Vector mask bits of the 64 MSI-X entries; PCIe resets them to 1 (R440). -/
  vecMask : BitVec 64 := 0xFFFFFFFFFFFFFFFF
  pba : BitVec 64 := 0
  msixEnable : Bool := false
  msixMask : Bool := false
  /-- MSI-X messages sent so far, by vector: the port's output as the model records it. -/
  msixSent : SMap Nat := []
  /-- BAR2: the 64 command slots of 4 KiB (R436). -/
  slots : Bytes := []
  /-- Slots in submission order whose packets are not yet accepted (R436). -/
  order : List Nat := []
  /-- The accepted packet that has no reply yet (R447). -/
  current : Option Req := none
  /-- The reply to the accepted packet is to be discarded (R433). -/
  dropReply : Bool := false
  /-- A finished reply that waits for room in the ring (R439): header fields and payload. -/
  waiting : Option (List Byte) := none
  /-- Host memory as the device has written or read it, by host address (R351, R438). -/
  mem : Bytes := []
  deriving DecidableEq, Repr

/-- The maintenance SPI port (R467). -/
structure SpiPort where
  /-- Strap MSPI_EN. -/
  enabled : Bool := true
  /-- The packet held, its bytes as transferred. -/
  packet : Option (List Byte) := none
  current : Option Req := none
  /-- The reply held, and how many of its bytes have been read. -/
  reply : Option (List Byte) := none
  readPos : Nat := 0
  /-- PACKET_WRITE transfers discarded because the port was not ready. -/
  discarded : Nat := 0
  /-- What the last transfer returned on MSPI_MISO: one status byte, or the bytes of the reply. -/
  miso : List Byte := []
  deriving DecidableEq, Repr

/-- A flash command in its wait phase (R457). -/
structure FlashOp where
  req : Req
  /-- True for an erase, false for a write. -/
  erase : Bool
  offset : Nat
  len : Nat
  data : List Byte
  deriving DecidableEq, Repr

/-- One kernel image of the store (R459, R460). -/
structure Image where
  bytes : Bytes := []
  committed : Bool := false
  deriving DecidableEq, Repr

/-- A KERNEL_PLACE in its wait phase: the cores still to be drained and those loaded (R461). -/
structure PlaceWait where
  req : Req
  image : Nat
  /-- The committed image as the command found it. -/
  kernel : Image
  left : List Nat
  loaded : Nat
  deriving DecidableEq, Repr

/-- Host ports, command arbiter and the stores that host commands act on. -/
structure HostSt where
  port0 : HostPort := {}
  port1 : HostPort := {}
  port2 : HostPort := {}
  port3 : HostPort := {}
  spi : SpiPort := {}
  /-- The port the command arbiter accepted last; the SPI port (4) after every start (R447). -/
  lastPort : Nat := 4
  /-- Flash device: bytes that differ from 0xFF, and the command in progress (R457). -/
  flash : Bytes := []
  flashOp : Option FlashOp := none
  /-- Kernel image store by image number (R459). -/
  images : SMap Image := []
  /-- Placed image number by core (R461). -/
  placed : SMap Nat := []
  /-- Core to the tail mode that the kernel loaded on it declares (R215). -/
  kernelTail : SMap Nat := []
  placeWait : Option PlaceWait := none
  deriving DecidableEq, Repr

/-! ## Parameters and configuration changes (R469 to R488) -/

/-- A commit between its acceptance and its completion (R472, R475). -/
structure Commit where
  req : Req
  /-- Commit time T. -/
  t : Nat
  /-- The staged set taken: parameter key (ID times 65,536 plus instance) to value. -/
  set : SMap Nat
  /-- Unit IDs concerned (R474). -/
  units : List Nat
  /-- Units that hold a valid shadow and have sent READY (R475, R476). -/
  ready : List Nat := []
  /-- Reasons recorded for units that are not READY or that missed the swap (R476, R478). -/
  reasons : SMap Nat := []
  /-- 0 distributing, 1 readiness passed, 2 swapped, 3 rolling back. -/
  stage : Nat := 0
  /-- Units that have swapped to the new values and not swapped back (R475). -/
  swapped : List Nat := []
  /-- Units that have sent APPLIED (R475). -/
  applied : List Nat := []
  /-- SAFE state was entered at or after T (R481). -/
  safe : Bool := false
  /-- Held carriers that the swap released (R572). -/
  heldOut : List Nat := []
  deriving DecidableEq, Repr

/-- Configuration store. -/
structure CfgSt where
  /-- Values that differ from their defaults: committed staged values and immediate values in force. -/
  params : SMap Nat := []
  /-- The staged set of each port 0 to 4 (R469). -/
  staged : SMap (SMap Nat) := []
  commit : Option Commit := none
  /-- Generations: device 0, pool 1, port 2 + n, carrier 66 + c (R483). -/
  gens : SMap Nat := []
  /-- T of the commit that set each generation, keyed as `gens` (R486). -/
  genTimes : SMap Nat := []
  deriving DecidableEq, Repr

/-! ## Events and self-test (R513 to R535) -/

/-- An event as its source offers it to the arbiter (R513). -/
structure EventRec where
  cls : Nat
  inst : Nat
  code : Nat
  sev : Nat
  detail : List Byte
  deriving DecidableEq, Repr

/-- A log entry of 32 bytes, by its fields (R516). -/
structure LogEntry where
  seq : Nat
  at_ : Nat
  cls : Nat
  inst : Nat
  code : Nat
  cont : Bool
  ext : Bool
  sev : Nat
  len : Nat
  detail : List Byte
  deriving DecidableEq, Repr

/-- A host's subscription (R521 to R525). -/
structure Sub where
  mask : Nat
  minSev : Nat
  /-- Read position, as the number of entries written since the cold start before it. -/
  pos : Nat
  /-- Air Time of the subscription and of the last EVT_READ that returned an entry (R525). -/
  since : Nat
  lastRead : Nat
  deriving DecidableEq, Repr

/-- Event arbiter. -/
structure EventSt where
  /-- Input queue of 256 entries (R513). -/
  queue : List EventRec := []
  /-- Next sequence number (R513). -/
  nextSeq : Nat := 1
  /-- Entries held, oldest first (R520, R524). -/
  log : List LogEntry := []
  /-- Entries freed since the cold start. -/
  freed : Nat := 0
  /-- Loss table (R527). -/
  loss : SMap Nat := []
  unmatched : Nat := 0
  subs : SMap Sub := []
  /-- Hosts removed under R525 that have not read since (R523). -/
  lagged : List Nat := []
  /-- Air Time of the cycle in which the arbiter last accepted an event: it accepts at most one a cycle (R513). -/
  acceptedAt : Option Nat := none
  /-- Rate limits of events: key of event and instance to the Air Time raised last and the count since. -/
  rate : SMap (Nat × Nat) := []
  deriving DecidableEq, Repr

/-- Self-test record of one unit (R529 to R531). -/
structure UnitTest where
  /-- 0 in service, 1 waiting, 2 draining, 3 testing, 4 failed. -/
  st : Nat := 0
  result : Nat := 255
  vector : Nat := 0
  /-- Air Time of the last result. -/
  at_ : Nat := 0
  /-- Air Time at which the running test ends. -/
  until_ : Nat := 0
  /-- 0 schedule, 1 SELFTEST_RUN (R535). -/
  trigger : Nat := 0
  /-- Due time of the unit's last scheduled test (R529). -/
  dueAt : Nat := 0
  deriving DecidableEq, Repr

/-- Self-test: units are keyed 0 to 1,023 for cores and 1,024 + u for Clove unit u. -/
structure TestSt where
  units : SMap UnitTest := []
  /-- Waiting tests in start order (R529). -/
  waiting : List Nat := []
  /-- Air Time of the core release from which tests are scheduled (R529). -/
  begun : Nat := 0
  deriving DecidableEq, Repr


/-! ## Serial lanes (R104 to R130) -/

/-- One serial lane (R113 to R119, R125, R554). -/
structure Lane where
  /-- Clock-recovery lock and codeword alignment (R114). -/
  cdr : Bool := false
  codeword : Bool := false
  /-- Entry in use, and an accepted change not yet applied (R112, R113). -/
  entry : Nat := 0
  pendingEntry : Option Nat := none
  /-- Pattern checker: locked, symbol errors and compared symbols (R119). -/
  prbsLock : Bool := false
  prbsErr : Nat := 0
  prbsCmp : Nat := 0
  /-- Air Time up to which a locked checker has been counted. -/
  prbsAt : Nat := 0
  /-- Counts of R115: clock-recovery losses, marker-lock losses, block-lock losses, invalid sync headers,
  corrected symbols, corrected codewords, uncorrectable codewords; 32 bits, saturating. -/
  cdrLost : Nat := 0
  markerLost : Nat := 0
  blockLost : Nat := 0
  badHeaders : Nat := 0
  corrSymbols : Nat := 0
  corrWords : Nat := 0
  uncorrWords : Nat := 0
  /-- Results of the calibration of termination, offset and sampler trim are saved in retention memory (R128). -/
  trims : Bool := false
  /-- They are in force, and the lane is ready to acquire clock recovery (R128). -/
  calibrated : Bool := false
  /-- Trend scans, newest first, at most 32 per eye: Air Time, eye, width, height (R125, R554). -/
  trend : List (Nat × Nat × Nat × Nat) := []
  /-- Entry in use at the last trend scan, and its smallest height over the eyes (R554). -/
  trendPrev : Option (Nat × Nat) := none
  /-- Alternative entries marked unsuitable by R554. -/
  unsuitable : List Nat := []
  deriving DecidableEq, Repr

/-- One eye scan of a lane group (R121 to R125). -/
structure Scan where
  /-- Started by a host; otherwise a trend scan of Laniman. -/
  host : Bool
  lane : Nat
  mask : Nat
  k : Nat
  s : Nat
  t : Nat
  /-- Air Time of the start. -/
  start : Nat
  /-- First of the free values that stand for its error counts until the sampler gives them. -/
  free : Nat := 0
  deriving DecidableEq, Repr

/-- The readable result of the last host scan of a lane group (R124). -/
structure ScanResult where
  lane : Nat
  k : Nat
  s : Nat
  t : Nat
  /-- Map bytes that are not 255, at eye times 8,128 plus index. -/
  map : Bytes := []
  deriving DecidableEq, Repr

/-- The serial lanes. -/
structure LaneSt where
  /-- The checked copy of the board table, from its first byte; no bytes when the check failed (R107 to R110). -/
  board : Bytes := []
  lanes : SMap Lane := []
  /-- Port to the Air Time at which its maintenance window opened (R116). -/
  maint : SMap Nat := []
  /-- Lane group to the scan that runs in it, and the lanes whose trend scan is to be repeated (R122). -/
  scans : SMap Scan := []
  trendRedo : List Nat := []
  /-- Air Time of the start of each lane's last trend scan (R125). -/
  trendAt : SMap Nat := []
  /-- Lane group to the result of its last host scan (R124). -/
  results : SMap ScanResult := []
  deriving DecidableEq, Repr

/-! ## Ports and fronthaul (R131 to R167) -/

/-- A frame that waits for its link or leaves it (R135). -/
structure TxFrame where
  /-- 0 U-plane, 1 C-plane, 2 delay response, 3 PTP queue, 4 midhaul, 5 pool. -/
  kind : Nat
  /-- The frame from destination address, without FCS. -/
  bytes : List Byte
  /-- Carrier and eAxC context of a fronthaul frame. -/
  carrier : Nat := 65535
  eaxc : Nat := 65535
  /-- Running symbol of a U-plane frame or slot count of a C-plane frame, and its buffer. -/
  sym : Int := 0
  buf : Nat := 0
  /-- Air Time from which a U-plane or C-plane frame may no longer leave (R161, R162). -/
  due : Option Int := none
  deriving DecidableEq, Repr

/-- One link of a port. -/
structure Link where
  /-- Block lock holds: the link is up (R115, R136). -/
  up : Bool := false
  hiSer : Bool := false
  /-- A link without FEC in high error ratio reports a local fault (R115). -/
  localFault : Bool := false
  /-- Per-link counters of R164. -/
  phyErr : Nat := 0
  runt : Nat := 0
  oversize : Nat := 0
  fcs : Nat := 0
  macControl : Nat := 0
  filter : Nat := 0
  ringFull : Nat := 0
  linkDown : Nat := 0
  /-- Transmit queues in order of priority (R135). -/
  fh : List TxFrame := []
  ptp : List TxFrame := []
  low : List TxFrame := []
  /-- The frame in progress, and the frame sent last as the model records the output. -/
  sending : Option TxFrame := none
  lastSent : List Byte := []
  deriving DecidableEq, Repr

/-- One entry of the exception ring (R143). -/
structure ExcEntry where
  at_ : Nat
  len : Nat
  reason : Nat
  link : Nat
  bytes : List Byte
  deriving DecidableEq, Repr

/-- One receive entry of a PTP queue (R137, R465): a frame or a transmit stamp. -/
structure PtpEntry where
  /-- 0 FRAME, 1 TX_STAMP. -/
  kind : Nat
  link : Nat
  stamp : Nat
  bytes : List Byte
  deriving DecidableEq, Repr

/-- One port. -/
structure Port where
  link0 : Link := {}
  link1 : Link := {}
  link2 : Link := {}
  link3 : Link := {}
  /-- Counts of the reasons 1 to 19 (R142). -/
  reasons : SMap Nat := []
  excRingFull : Nat := 0
  excRateLimited : Nat := 0
  doorbellBad : Nat := 0
  ptpLost : Nat := 0
  roleDiscard : Nat := 0
  midhaulTxBad : Nat := 0
  /-- Exception ring, oldest first, and the Air Time of the last copy (R143). -/
  exc : List ExcEntry := []
  excAt : Option Nat := none
  /-- PTP receive queue, oldest first; a loss was reported since the host emptied it (R137). -/
  ptpRx : List PtpEntry := []
  ptpOver : Bool := false
  /-- The 1 MiB staging bank (R155). -/
  bank : Bytes := []
  deriving DecidableEq, Repr

/-- An uplink buffer of a carrier (R156, R159). -/
structure UlBuf where
  /-- Running symbol count and group that claimed the buffer last. -/
  group : Option (Int × Nat) := none
  /-- The buffer has been released since. -/
  released : Bool := true
  /-- Valid PRBs: stream of the group times 512 plus PRB. -/
  valid : List Nat := []
  complete : Bool := false
  /-- Groups that wait for the buffer, and whether the window of each has closed (R159). -/
  waiting : List (Int × Nat × Bool) := []
  /-- Gains sampled at the claim, by stream (R334). -/
  gains : SMap Int := []
  deriving DecidableEq, Repr

/-- A group whose buffer was released before its window closed, and has since been claimed for another (R156, R157). -/
structure UlDone where
  /-- Running symbol count and group. -/
  group : Int × Nat
  /-- Its valid PRBs, as in its buffer. -/
  valid : List Nat
  complete : Bool
  deriving DecidableEq, Repr

/-- A downlink or C-plane buffer (R158, R161). -/
structure TxBuf where
  ready : Bool := false
  /-- Taken at its ready deadline: running symbol or slot count, and group. -/
  taken : Option (Int × Nat) := none
  /-- Messages of the buffer that have not been sent. -/
  sending : Nat := 0
  deriving DecidableEq, Repr

/-- A C-plane section the device has sent for a carrier (R154, R161). -/
structure Announce where
  /-- 0 uplink, 1 downlink. -/
  dir : Nat
  slot : Int
  start : Nat
  num : Nat
  secType : Nat
  filter : Nat
  deriving DecidableEq, Repr

/-- An eAxC context's counters and sequence numbers (R144, R164, R335, R341). -/
structure Eaxc where
  onTime : Nat := 0
  early : Nat := 0
  late : Nat := 0
  unexpected : Nat := 0
  duplicate : Nat := 0
  missing : Nat := 0
  overrun : Nat := 0
  seqGap : Nat := 0
  decompSat : Nat := 0
  txLate : Nat := 0
  rxSeq : Option Nat := none
  txU : Nat := 0
  txC : Nat := 0
  satUl : Nat := 0
  satDl : Nat := 0
  prachShort : Nat := 0
  deriving DecidableEq, Repr

/-- A PRACH symbol received for an occasion (R339 to R342). -/
structure PrachSym where
  eaxc : Nat
  sym : Nat
  samples : List (Int × Int)
  deriving DecidableEq, Repr

/-- A PRACH occasion of a carrier's detector group (R341, R344). -/
structure Occasion where
  carrier : Nat
  group : Nat
  slot : Int
  start : Nat
  num : Nat
  /-- Air Time of closing. -/
  closed : Nat := 0
  input : List PrachSym := []
  /-- Taken at the closing: mean power of the record of each stream's noise reference, and the threshold (R342, R348). -/
  sigma : SMap Nat := []
  thr : Nat := 3072
  /-- Air Time at which processing started. -/
  begun : Nat := 0
  deriving DecidableEq, Repr

/-- The noise sums of one ANTENNA context within a window (R337, R338). -/
structure Noise where
  sum : Nat := 0
  count : Nat := 0
  /-- Slot count at which the window of the sums starts. -/
  win : Option Int := none
  /-- Air Times of gain changes not yet past a window's end. -/
  gainAt : List Nat := []
  /-- The latest record, 16 bytes, and the Air Time at which it was made. -/
  record : Option (List Byte) := none
  madeAt : Nat := 0
  deriving DecidableEq, Repr

/-- A carrier's fronthaul and radio state. -/
structure CarrierFh where
  ul : SMap UlBuf := []
  /-- Groups released and replaced whose windows are still open. -/
  ulDone : List UlDone := []
  /-- Gains sampled for PRACH symbols whose windows are still open: context, running symbol, gain (R334). -/
  prachGain : List (Nat × Int × Int) := []
  dl : SMap TxBuf := []
  cp : SMap TxBuf := []
  announced : List Announce := []
  /-- Running symbols, not covered by then, of which a downlink group missed its ready deadline (R161). -/
  missed : List Int := []
  /-- Running symbols and slots whose deadlines and windows have been handled last: receive close, downlink
  deadline, open and close, C-plane deadline and open. -/
  lastRx : Option Int := none
  lastDead : Option Int := none
  lastOpen : Option Int := none
  lastClose : Option Int := none
  lastCpDead : Option Int := none
  lastCpOpen : Option Int := none
  /-- Slot count at which the last noise window to end did end (R337). -/
  lastNoise : Option Int := none
  /-- Air Time from which the carrier has been active in the engine (R154, R162). -/
  activeFrom : Nat := 0
  /-- Accumulated early, late and missing counts of FH_RX_TIMING (R167). -/
  rxEarly : Nat := 0
  rxLate : Nat := 0
  rxMissing : Nat := 0
  /-- Idle PRB-symbols: slot, symbol, PRB (R336). -/
  idle : List (Int × Nat × Nat) := []
  idleMapBad : Nat := 0
  /-- First window since activation has not ended (R338). -/
  partialWin : Bool := true
  /-- Open PRACH occasions by group and slot: received symbols (R341). -/
  prachIn : List Occasion := []
  /-- Write index of the PRACH ring (R345). -/
  prachIdx : Nat := 0
  occasions : Nat := 0
  detections : Nat := 0
  overloads : Nat := 0
  /-- Saturation counts since the last RADIO_GAIN_SAT, and its Air Time (R335). -/
  satUl : Nat := 0
  satDl : Nat := 0
  satAt : Option Nat := none
  rxTimingAt : Option Nat := none
  deriving DecidableEq, Repr

/-- Ports, carriers' fronthaul state and radio functions. -/
structure PortSt where
  ports : SMap Port := []
  carriers : SMap CarrierFh := []
  eaxcs : SMap Eaxc := []
  noise : SMap Noise := []
  /-- Per engine: occasions queued for correlation, and the one in progress (R344). -/
  prachQueue : SMap (List Occasion) := []
  prachBusy : SMap Occasion := []
  /-- Per engine: report writes not yet issued, in order: address, bytes, and whether posted (R345). -/
  prachOut : SMap (List (Nat × List Byte × Bool)) := []
  deriving DecidableEq, Repr


/-! ## On-chip fabric and memory banks (R350 to R377) -/

/-- One network interface (R363, R366, R369).  NIs are keyed by node in the u16 form of R377; the channels of a DMA
engine have generations of their own (R426), keyed 4,096 plus the channel. -/
structure Ni where
  gen : Nat := 0
  /-- Air Times at which each generation value was left (R363). -/
  left : SMap Nat := []
  /-- A master reset waits for the 67,584 cycles of R363. -/
  resetWaits : Bool := false
  /-- The NI has received FENCE_REQ and accepts no new request of its masters (R366). -/
  stopped : Bool := false
  oldGenDropped : Nat := 0
  /-- NI_STALL of VC0 to VC3 (R369). -/
  stall : List Nat := [0, 0, 0, 0]
  deriving DecidableEq, Repr

/-- A request without a response, at its source NI (R363). -/
structure Outstanding where
  node : Nat
  tag : Nat
  gen : Nat
  /-- DMA channel of the device, or 65,535. -/
  chan : Nat
  cmd : Nat
  addr : Nat
  len : Nat
  /-- Air Time of issue. -/
  at_ : Nat
  /-- Position of the transaction within its MOVE, or another number of the master's own. -/
  seq : Nat
  /-- TIMEOUT has been handed to the master; the tag stays reserved. -/
  timedOut : Bool := false
  deriving DecidableEq, Repr

/-- Counters and errors of one bank (R369 to R374), keyed class times 4,096 plus instance (R377). -/
structure Bank where
  ownerStall : Nat := 0
  fabricStall : Nat := 0
  collided : Nat := 0
  eccCorrected : Nat := 0
  eccUncorrectable : Nat := 0
  /-- 64-bit words that hold an uncorrectable error. -/
  bad : List Nat := []
  deriving DecidableEq, Repr

/-- A fence in progress (R366): NIs that have not acknowledged, and the Air Time of step 1. -/
structure Fence where
  left : List Nat
  at_ : Nat
  /-- Why the domain goes off: the cause of POWER_DOMAIN (R556), or 255 for a fence without power-off. -/
  cause : Nat
  deriving DecidableEq, Repr

/-- The fabric. -/
structure FabSt where
  /-- Packets on their way, in order of injection. -/
  flight : List FabMsg := []
  outst : List Outstanding := []
  nis : SMap Ni := []
  fences : SMap Fence := []
  /-- DOMAIN_OFF_ANSWERED and WAKE_OVERFLOW per domain (R365, R367). -/
  offAnswered : SMap Nat := []
  wakeOverflow : SMap Nat := []
  /-- Wake buffers per router port, in arrival order (R367). -/
  wakeBuf : SMap (List FabMsg) := []
  /-- Replays per link since FABRIC_LINK_ERROR was raised last, and in all (R357, R358). -/
  replays : SMap Nat := []
  /-- Links reported stuck. -/
  stuck : List Nat := []
  /-- The crossing table has been written (R361). -/
  tableWritten : Bool := false
  reservedStatus : Nat := 0
  reservedCmd : Nat := 0
  banks : SMap Bank := []
  deriving DecidableEq, Repr

/-! ## External memory (R378 to R411) -/

/-- A region descriptor (R382, R383, R395, R407). -/
structure Region where
  /-- 0 free, 1 initialising, 2 ready. -/
  st : Nat := 0
  /-- 1 ECC_ONLY, 2 PROTECTED. -/
  mode : Nat := 0
  /-- Strength code k. -/
  strength : Nat := 0
  base : Nat := 0
  size : Nat := 0
  /-- Slots A and B: 0 EMPTY, 1 ACTIVE, 2 RETIRED; the key is the draw of the random-number generator named. -/
  slotA : Nat := 0
  slotB : Nat := 0
  keyA : Nat := 0
  keyB : Nat := 0
  /-- 15-bit key epoch, and the epoch under which each slot was loaded. -/
  epoch : Nat := 0
  epochA : Nat := 0
  epochB : Nat := 0
  /-- Next page of the re-key sweep, none when no sweep runs, and lines poisoned by it (R407). -/
  sweep : Option Nat := none
  sweepPoisoned : Nat := 0
  /-- Air Time of the last page swept, or of the start of the sweep (R407). -/
  sweepAt : Nat := 0
  /-- Accesses denied while initialising, and integrity violations (R383, MEM_STATUS). -/
  denied : Nat := 0
  violations : Nat := 0
  /-- Arena chunks that hold the region's metadata (R385). -/
  chunks : List Nat := []
  deriving DecidableEq, Repr

/-- A counter block or tree node (R398): major, minors that are not 0, and the key select of a counter block. -/
structure CtrBlock where
  major : Nat := 0
  minors : SMap Nat := []
  sel : Nat := 0
  deriving DecidableEq, Repr

/-- A page of a page cache (R392), most recently used first in its list. -/
structure CachePage where
  page : Nat
  valid : BitVec 32
  dirty : BitVec 32
  deriving DecidableEq, Repr

/-- A block of a counter cache (R400). -/
structure CacheBlock where
  key : Nat
  dirty : Bool
  deriving DecidableEq, Repr

/-- Counts of one DDR channel (MEM_STATUS). -/
structure DdrChan where
  corrected : Nat := 0
  checkBlock : Nat := 0
  uncorrectable : Nat := 0
  poisonRead : Nat := 0
  /-- A device of the channel reports above 85 °C: refresh doubled (R380). -/
  hot : Bool := false
  /-- Air Time at which MR4 was last read (R380). -/
  mr4At : Nat := 0
  deriving DecidableEq, Repr

/-- A request that waits for DRAM, or behind an earlier request for the same page (R380, R392, R402), and what a fetch for a
page that it evicts finds. -/
structure DramWait where
  req : FabMsg
  evicted : Decode := .clean
  deriving DecidableEq, Repr

/-- External memory. -/
structure MemSt where
  /-- Plain bytes of the data space, by offset; unwritten bytes are zero (R383, R564). -/
  data : Bytes := []
  /-- Poisoned lines, by offset divided by 64 (R389, R393). -/
  poison : List Nat := []
  /-- Lines beneath a failed metadata block, poisoned until the block is written again (R403): block keys. -/
  failed : List Nat := []
  /-- Channel capacity C in GiB (R378). -/
  capacity : Nat := 64
  regions : SMap Region := []
  /-- Arena chunks free inside the arena, and its bottom as an offset (R385); none before the first placement. -/
  arenaFree : List Nat := []
  arenaBottom : Option Nat := none
  /-- The draw that gave the integrity key (R395). -/
  integrityKey : Option Nat := none
  /-- Counter blocks by page and tree nodes by node key (R398, R399). -/
  ctrs : SMap CtrBlock := []
  nodes : SMap CtrBlock := []
  /-- Page caches and counter caches of E0 and E1 (R392, R400). -/
  cache0 : List CachePage := []
  cache1 : List CachePage := []
  ctrCache0 : List CacheBlock := []
  ctrCache1 : List CacheBlock := []
  chans : SMap DdrChan := []
  waits : List DramWait := []
  /-- Scrubber: next page, pass number, pages corrected and uncorrectable in the pass (R394). -/
  scrubPage : Nat := 0
  scrubPass : Nat := 0
  scrubCorrected : Nat := 0
  scrubUncorr : Nat := 0
  /-- Air Time at which the scrubber last read a page (R394). -/
  scrubAt : Nat := 0
  deriving DecidableEq, Repr

/-! ## DMA engines (R412 to R431) -/

/-- A MOVE in progress (R423, R424). -/
structure MoveJob where
  timed : Bool
  src : Nat
  dst : Nat
  len : Nat
  srcW : Nat
  dstW : Nat
  swap : Nat
  /-- Transactions of the read side not yet issued: index, address and length. -/
  toRead : List (Nat × Nat × Nat)
  /-- Data received, by index of the transaction. -/
  got : SMap (List Byte) := []
  /-- Index of the first read whose data has not yet entered the holding register, and that register. -/
  nextGot : Nat := 0
  hold : List Byte := []
  /-- Bytes handed to the write side so far. -/
  written : Nat := 0
  deriving DecidableEq, Repr

/-- One loop level (R423): body bounds and iterations. -/
structure LoopLevel where
  first : Nat
  last : Nat
  idx : Nat
  count : Nat
  deriving DecidableEq, Repr

/-- One channel (R415 to R417). -/
structure Chan where
  /-- 0 IDLE, 1 RUNNING, 2 WAITING, 3 STOPPING, 4 HALTED. -/
  st : Nat := 0
  err : Nat := 0
  /-- Held status (R422). -/
  held : Nat := 0
  prog : Nat := 0
  pc : Nat := 0
  /-- Active loop levels, innermost first. -/
  loops : List LoopLevel := []
  failAddr : Nat := 0
  bytes : Nat := 0
  /-- The WAIT that holds the channel: kind, operand, consume bit. -/
  wait : Option (Nat × Nat × Bool) := none
  /-- Air Time at which a WAIT COUNTER last read its counter (R423). -/
  pollAt : Nat := 0
  move : Option MoveJob := none
  /-- Error code to report once the outstanding transactions have completed (R427). -/
  stopWith : Nat := 0
  deriving DecidableEq, Repr

/-- One engine's flags and counters (R418 to R420, R430). -/
structure DmaEngine where
  flags : BitVec 256 := 0
  cmdBad : Nat := 0
  flagBad : Nat := 0
  collided : Nat := 0
  oldGenDropped : Nat := 0
  /-- Channels whose data is complete in the buffer and waits for a tag, in the order in which it became so (R413). -/
  writeQ : List Nat := []
  /-- The channel of the engine that the read side served last, among timed MOVEs and among the others (R413). -/
  turnTimed : Nat := 31
  turnPlain : Nat := 31
  deriving DecidableEq, Repr

/-- The DMA engines. -/
structure DmaSt where
  chans : SMap Chan := []
  engines : SMap DmaEngine := []
  deriving DecidableEq, Repr

/-! ## Facet cores (R168 to R262) -/

/-- Scalar arithmetic (R176). -/
inductive AluOp where
  | add | sub | and | or | xor | andn | shl | shr | sar | ror | min | max | minu | maxu | clz | popc
  | cmpeq | cmpne | cmplt | cmpltu | cmple | cmpleu
  deriving DecidableEq, Repr

/-- Scalar multiplies (R176). -/
inductive MulOp where
  | mul | mulh | mulhu
  deriving DecidableEq, Repr

/-- Vector-slot operations (R205, R223). -/
inductive VecOp where
  | vadd | vsub | vneg | vabs | vmin | vmax | vand | vor | vxor | vandn | vshl | vshr | vshru | vconj | vcmulj
  | vmulq | vcmulq | vcmulqc | cmul | cmulc | cmac | cmacc | cmacs | cmacsc | vnarrow | vcnarrow | vcwiden | vcrsum
  | vcmpeq | vcmplt | vcmple | vsel | vsplat
  | vslide (n : Fin 64)
  | setvl | mlen | mand | mor | mxor | mandn | mnot | msel | mpopc
  | vfadd | vfsub | vfmul | vfmin | vfmax | vfma
  | vfcvt (dst : VType)
  deriving DecidableEq, Repr

/-- Scalar floating point (R227). -/
inductive FscOp where
  | fadd | fsub | fmul | fma | fcmplt | fcmple | fcmpeq | fmvgf | fmvfg
  deriving DecidableEq, Repr

/-- Commands of the attached units (R240). -/
inductive UnitOp where
  | dmap | schol | strsl | strsu | sinvh | uerrd | uerrs
  deriving DecidableEq, Repr

/-- One operation of a bundle (R168). -/
inductive FacetOp where
  | alu (o : AluOp) (d a : Fin 32) (b : Src2)
  | limm (d : Fin 32) (imm : BitVec 31)
  | limmh (d : Fin 32) (imm : BitVec 31)
  | mul (o : MulOp) (d a b : Fin 32)
  | scmul (conj : Bool) (d a b : Fin 32) (m : BitVec 9)
  | br (imm : BitVec 31)
  | brz (a : Fin 32) (imm : BitVec 9)
  | brnz (a : Fin 32) (imm : BitVec 9)
  | call (imm : BitVec 31)
  | jr (a : Fin 32)
  | rep (a : Fin 32) (flag : Bool) (len : BitVec 11)
  | repi (count : BitVec 16) (flag : Bool) (len : BitVec 11)
  | mfc (d : Fin 32) (c : BitVec 6)
  | mtc (c : BitVec 6) (a : Fin 32)
  | waitwork
  | donework (a : Fin 32)
  | eret
  | sysc (imm : BitVec 16)
  | load (size : Nat) (signed : Bool) (d a : Fin 32) (f : AddrForm)
  | store (size : Nat) (v a : Fin 32) (f : AddrForm)
  | vld (d a : Fin 32) (f : AddrForm)
  | vst (v a : Fin 32) (f : AddrForm)
  | vld2 (d a : Fin 32) (f : AddrForm) (e b : Fin 32) (h : AddrForm)
  | vldst (d a : Fin 32) (f : AddrForm) (v b : Fin 32) (h : AddrForm)
  | atomic (size : Nat) (swap : Bool) (d a : Fin 32) (f : AddrForm) (v : Fin 32)
  | vlde (v a b : Fin 32) (m : BitVec 9)
  | vste (v a b : Fin 32) (m : BitVec 9)
  | vlds (n : Nat) (v a b : Fin 32) (m : BitVec 9)
  | vsts (n : Nat) (v a b : Fin 32) (m : BitVec 9)
  | vgath (v a b : Fin 32) (m : BitVec 9)
  | vscat (v a b : Fin 32) (m : BitVec 9)
  | vec (sl : Bool) (o : VecOp) (ty : VType) (d a b : Fin 32) (m : BitVec 9)
  | fsc (sl : Bool) (o : FscOp) (d a b : Fin 32) (m : BitVec 9)
  | unit (sl : Bool) (o : UnitOp) (d a b : Fin 32) (m : BitVec 9)
  deriving DecidableEq, Repr

/-- A result on its way to a register (R182, R183).  Destinations: 0 to 31 G, 32 to 63 V, 64 to 71 M, 72 VL. -/
structure Res where
  /-- The first bundle that reads it, counted from the core's reset. -/
  due : Nat
  dest : Nat
  /-- Bits written, and their values. -/
  mask : W512
  val : W512
  /-- The bundle that issued the operation, counted as `due` (R183). -/
  from_ : Nat := 0
  deriving DecidableEq, Repr

/-- A command accepted by an attached unit (R242, R244). -/
structure UnitCmd where
  /-- Solve, or Demap. -/
  solve : Bool
  /-- Cycle W of the write. -/
  w : Nat
  /-- Registers written, with mask and value; the destination of UERRD and UERRS is a G register. -/
  writes : List Res
  /-- The registers that stay scoreboarded until W. -/
  board : List Nat
  /-- Late error: cause and index (R256); 0 none. -/
  cause : Nat
  index : Nat
  /-- First destination register and bundle address for the record. -/
  dest : Nat
  addr : Nat
  /-- A further late error of the same command (R252, R257). -/
  more : Bool := false
  /-- UERRD and UERRS: read and clear the record. -/
  readErr : Bool
  deriving DecidableEq, Repr

/-- What a MAC pipe can forward to the next bundle (R206). -/
structure MacFwd where
  /-- The next bundle, counted as `Res.due`. -/
  next : Nat
  d : Nat
  lo : W512
  hi : W512
  deriving DecidableEq, Repr

/-- The registers of a core and what the pipeline holds: all that a discarded bundle gives back (R234). -/
structure CoreRegs where
  /-- G, V and M registers that are not zero (R173). -/
  g : SMap W64 := []
  v : SMap W512 := []
  m : SMap W512 := []
  vl : Nat := 0
  /-- Control registers that are not zero, but for CORECFG, IPEND and CYCLE (R174). -/
  ctl : SMap W64 := []
  pc : Nat := 0
  /-- Delay slots left and the branch target (R176). -/
  delay : Option (Nat × Nat) := none
  /-- Bundles issued since reset: the number of the next one. -/
  bseq : Nat := 0
  inflight : List Res := []
  cmds : List UnitCmd := []
  /-- S + r and W of the Demap unit's last command, W of the Solve unit's (R244). -/
  demapNext : Nat := 0
  demapW : Nat := 0
  solveW : Nat := 0
  demapRec : W64 := 0
  solveRec : W64 := 0
  macA : Option MacFwd := none
  macB : Option MacFwd := none
  /-- Slots load/store, A and B are occupied before this bundle (R217). -/
  busy : List Nat := [0, 0, 0]
  /-- The bundle issued last ended an iteration of the innermost active block (R186). -/
  iterEnd : Bool := false
  deriving DecidableEq, Repr

/-- A long-vector operation whose passes go on (R217, R234). -/
structure LongOp where
  op : FacetOp
  /-- The issuing bundle, the bundle of pass 0, the next pass and the group size. -/
  id : Nat
  first : Nat
  pass : Nat
  g : Nat
  /-- First element (R236). -/
  start : Nat
  /-- Active elements, fixed at issue. -/
  act : W512
  /-- Scalar operand read at issue. -/
  scalar : W64
  /-- Accumulators of a group MAC. -/
  lo : W512 := 0
  hi : W512 := 0
  /-- Results of the passes done, for an exception in a later one. -/
  done : List Res := []
  /-- The operation's bundle address. -/
  addr : Nat
  deriving DecidableEq, Repr

/-- What a long operation that can still be stopped gives back (R234): before its bundle, and after it with the other
operations of the bundle. -/
structure Snap where
  pre : CoreRegs
  preLongs : List LongOp
  regs : CoreRegs
  longs : List LongOp
  deriving DecidableEq, Repr

/-- Debug registers of a core (R583 to R587). -/
structure CoreDbg where
  halted : Bool := false
  requested : Bool := false
  /-- Cause of the halt, and of the request that waits (R583). -/
  cause : Nat := 0
  index : Nat := 0
  stepping : Bool := false
  /-- The next bundle issues whatever breakpoint it meets: RESUME or STEP left the halt there (R586). -/
  skipBp : Bool := false
  bp : List W64 := [0, 0, 0, 0]
  wp : List W64 := [0, 0]
  dxt : Nat := 0
  deriving DecidableEq, Repr

/-- One Facet core. -/
structure Core where
  regs : CoreRegs := {}
  longs : List LongOp := []
  /-- By issuing bundle, what the long operations that can still be stopped give back (R234). -/
  snaps : SMap Snap := []
  /-- Stores kept back while a long operation can still be stopped, oldest first: bundle, address and bytes (R234). -/
  kept : List (Nat × Nat × List Byte) := []
  /-- Operations of the bundle being put together. -/
  open_ : List FacetOp := []
  /-- CYCLE (R174). -/
  cycle : Nat := 0
  /-- WAITWORK waits for a descriptor (R180), and what the memories showed to its bundle. -/
  waiting : Bool := false
  waitIn : Option BundleIn := none
  /-- SUPERVISOR is pending (R188). -/
  supervisor : Bool := false
  /-- Out of service after a fatal cause, until Laniman restores it (R194). -/
  restoring : Bool := false
  faultCause : Nat := 0
  /-- Consecutive cycles in which the core took both phases while a fabric request waited (R200). -/
  starve : Nat := 0
  /-- Local data memory (R197) and instruction memory (R198). -/
  dmem : Bytes := []
  imem : Bytes := []
  /-- Tail mode in force (R212), and a change of it waits for the drain (R215). -/
  tail : Nat := 0
  tailDue : Bool := false
  dbg : CoreDbg := {}
  deriving DecidableEq, Repr

/-- One cluster (R199, R203). -/
structure Cluster where
  split : Bool := true
  /-- Reasons for split mode: bit 0 start-up, 1 self-test, 2 margin fault, 3 ageing plan. -/
  reasons : Nat := 1
  /-- Cause of the change that is due (R208). -/
  cause : Nat := 0
  deriving DecidableEq, Repr

/-- The Facet cores. -/
structure FacetSt where
  cores : SMap Core := []
  clusters : SMap Cluster := []
  deriving DecidableEq, Repr

/-! ## Mill (R263 to R300) -/

/-- A work item that a slice holds (R264, R271 to R282). -/
structure Item where
  /-- The descriptor, 64 bytes (R264). -/
  desc : List Byte
  /-- 0 parked, 1 flow-queued, 2 in the miss list, 3 ready, 4 running. -/
  place : Nat
  cls : Nat
  /-- Air Time at which it became ready, and at which it entered its class (R275, R277). -/
  readyAt : Nat := 0
  classAt : Nat := 0
  late : Bool := false
  degrade : Bool := false
  /-- Input status (R269). -/
  input : Nat := 0
  stolen : Bool := false
  /-- The unit that runs it: core 0 to 1,023, or 1,024 plus a Clove unit. -/
  unit : Nat := 0
  deriving DecidableEq, Repr

/-- A dependence counter (R269). -/
structure Counter where
  count : Nat := 0
  status : Nat := 0
  deriving DecidableEq, Repr

/-- One slice (R263). -/
structure Slice where
  /-- Items by the order in which they reached the slice. -/
  items : SMap Item := []
  nextSeq : Nat := 0
  /-- Counters that are not at count 0 and status OK, by number modulo 16,384. -/
  counters : SMap Counter := []
  /-- Flows in the cache, the one used last first, and flows being fetched (R272). -/
  flows : List Nat := []
  fetching : List Nat := []
  /-- Accesses not executed and operations ignored (R267, R269). -/
  badAccess : Nat := 0
  badOp : Nat := 0
  /-- Misses not yet reported: carrier, slot and policy (R282). -/
  misses : List (Nat × Int × Nat) := []
  /-- Late items without a carrier since the last report, by policy (R282). -/
  lateNone : List Nat := [0, 0, 0]
  /-- Late items handled since the last check report, by policy (R283). -/
  lateCheck : List Nat := [0, 0, 0]
  /-- Copy excluded from voting, the Air Time of its exclusion, and consecutive failures (R292, R293). -/
  excluded : Option Nat := none
  excludedAt : Nat := 0
  fails : Nat := 0
  sramCorrected : Nat := 0
  /-- Trace records written and lost since the start of tracing (R297, R463). -/
  traceWritten : Nat := 0
  traceLost : Nat := 0
  /-- A start stopped the slice's trace (R296). -/
  traceOff : Bool := false
  /-- The slice has answered a steal request since its last decision (R284). -/
  answered : Bool := false
  /-- The service tiers of carriers as this slice sees them, where not T0 (R287). -/
  tiers : SMap Nat := []
  deriving DecidableEq, Repr

/-- Service-tier history of a carrier, in slice c mod 4 (R286). -/
structure TierHist where
  /-- Slots since the last raise, newest first, at most 64: the slot held a miss. -/
  slots : List Bool := []
  /-- Consecutive slots without a miss. -/
  clean : Nat := 0
  deriving DecidableEq, Repr

/-- A steal request on its way (R284). -/
structure StealReq where
  thief : Nat
  victim : Nat
  clusters : Nat
  units : Nat
  deriving DecidableEq, Repr

/-- A VC3 message between slices (R287). -/
structure TierMsg where
  slc : Nat
  carrier : Nat
  tier : Nat
  /-- Air Time of the slot end at which the change was decided. -/
  at_ : Nat
  deriving DecidableEq, Repr

/-- Mill. -/
structure MillSt where
  slices : SMap Slice := []
  tierHist : SMap TierHist := []
  tierMsgs : List TierMsg := []
  stealReqs : List StealReq := []
  /-- Items given to a thief and not yet delivered, by thief, with the victim. -/
  grants : SMap (Nat × Item) := []
  /-- Delivered descriptors that have not yet reached their unit, by unit (R273). -/
  deliveries : SMap (List Byte) := []
  /-- Drained units, with the Air Time of the request (R288). -/
  drains : SMap Nat := []
  /-- Cores whose item was aborted, with the Air Time of the SUPERVISOR interrupt (R289). -/
  aborts : SMap Nat := []
  /-- Units withdrawn by a failed self-test or by the ageing plan (R530, R549). -/
  withdrawn : List Nat := []
  deriving DecidableEq, Repr


/-! ## Clove units (R301 to R332) -/

/-- What a job does with its soft buffer (R327). -/
inductive SbWrite where
  | none
  | free
  /-- Format, transmissions combined, extent, N_cb and data bytes. -/
  | write (fmt tx x ncb : Nat) (data : List Byte)
  deriving DecidableEq, Repr

/-- The immediate parameters in force when a job was delivered (R331): both iteration caps and the degraded list size. -/
structure JobCaps where
  t1 : Nat := 4
  degrade : Nat := 2
  list : Nat := 2
  deriving DecidableEq, Repr

/-- A job that runs, with what its completion will write (R310, R311). -/
structure CloveJob where
  /-- The item's slice and order in it, and its descriptor as delivered. -/
  slc : Nat
  item : Nat
  desc : List Byte
  /-- The job record (R305). -/
  rec_ : List Byte
  /-- Air Time before which the job cannot end (R322). -/
  until_ : Nat
  caps : JobCaps := {}
  outs : List (Nat × List Byte) := []
  sb : SbWrite := .none
  crc : Nat := 2
  iters : Nat := 0
  /-- Byte 4 of the result record but for bits 5 and 6 (R311). -/
  flags : Nat := 0
  reason : Nat := 0
  extent : Nat := 0
  sats : Nat := 0
  bits : Nat := 0
  cbs : Nat := 0
  deriving DecidableEq, Repr

/-- A job that waits in a turbo unit for its datapath (R321). -/
structure WaitingJob where
  /-- Datapath key, slice and order of the item, and its descriptor as delivered. -/
  key : Nat
  slc : Nat
  item : Nat
  desc : List Byte
  caps : JobCaps
  deriving DecidableEq, Repr

/-- The Clove units. -/
structure CloveSt where
  /-- Banks by unit number in the order of R377 (R303). -/
  banks : SMap Bytes := []
  /-- Running jobs by twice the unit, plus 1 for the encode datapath of a turbo unit (R321). -/
  jobs : SMap CloveJob := []
  /-- Jobs that wait in a turbo unit for their datapath. -/
  queued : List WaitingJob := []
  deriving DecidableEq, Repr

/-! ## Device pools (R489 to R512) -/

/-- What the device knows of a pool member (R497, R498, R499, R510). -/
structure Peer where
  reachable : Bool := false
  /-- Air Time of its last heartbeat. -/
  lastHb : Nat := 0
  safe : Bool := false
  /-- Members to which it has an up direct link. -/
  links : Nat := 0
  /-- Fingerprint mismatch reported and not yet ended. -/
  mismatch : Bool := false
  /-- Key epoch of its latest STATE, and whether frames to it use the new index (R494). -/
  keyEpoch : Option Nat := none
  switched : Bool := false
  /-- Twice the latest 16 offsets in 2^-16 Tc, newest first, and twice the path delay (R498). -/
  offsets : List Int := []
  delay2 : Int := 0
  /-- Median offset in 2^-16 ns, and whether it exceeds the tolerance. -/
  median : Int := 0
  above : Bool := false
  /-- Carriers it owns, by its latest STATE. -/
  owned : Nat := 0
  deriving DecidableEq, Repr

/-- One pool link, keyed by port (R496, R498).  Stamps are in 2^-16 Tc. -/
structure PoolLink where
  /-- The peer that its heartbeats name. -/
  peer : Option Nat := none
  /-- Heartbeats sent and received, by sequence: stamps, newest first, at most 64. -/
  sent : List (Nat × Nat) := []
  got : List (Nat × Nat) := []
  deriving DecidableEq, Repr

/-- One key slot (R493, R494): the epoch it holds, if any, and the frame count of the device's own frames. -/
structure PoolKey where
  epoch : Option Nat := none
  count : Nat := 0
  deriving DecidableEq, Repr

/-- Sequences accepted from one source in one slot (R495). -/
structure PoolSeen where
  top : Nat := 0
  list : List Nat := []
  deriving DecidableEq, Repr

/-- A MIGRATE in its wait phase (R507). -/
structure Migration where
  req : Req
  target : Nat
  t : Nat
  epoch : Nat
  ready : Bool := false
  goSent : Bool := false
  ack : Bool := false
  cancelled : Bool := false
  /-- The target became unreachable before T. -/
  split : Bool := false
  switched : Bool := false
  deriving DecidableEq, Repr

/-- A migration toward this device (R507). -/
structure Incoming where
  source : Nat
  t : Nat
  epoch : Nat
  readySent : Bool := false
  armed : Bool := false
  deriving DecidableEq, Repr

/-- A TAKEOVER in its wait phase (R506). -/
structure TakeWait where
  req : Req
  t : Nat
  deriving DecidableEq, Repr

/-- Mirroring of one carrier (R503 to R505). -/
structure Mirror where
  target : Nat
  /-- Next and last page of a resync; none outside one. -/
  resync : Option (Nat × Nat) := none
  /-- Pages that waited longer than the lag are open. -/
  lagging : Bool := false
  deriving DecidableEq, Repr

/-- The pool agent. -/
structure PoolSt where
  peers : SMap Peer := []
  links : SMap PoolLink := []
  /-- Owner (255 none) and ownership epoch by carrier (R500). -/
  owners : SMap (Nat × Nat) := []
  /-- Carriers held since a warm start (R572). -/
  held : List Nat := []
  slot0 : PoolKey := {}
  slot1 : PoolKey := {}
  /-- The committed key epoch as the agent has loaded it, and the Air Time at which the old slot is retired (R494). -/
  epoch : Nat := 0
  retireAt : Option Nat := none
  /-- Sequences seen, keyed 2 × source + slot (R495). -/
  seen : SMap PoolSeen := []
  /-- Frames dropped, keyed port × 8 + reason, and NO_ROUTE (R495, R497). -/
  drops : SMap Nat := []
  noRoute : Nat := 0
  /-- MIGRATE steps and MIRROR pages dropped (R504, R507). -/
  migBad : Nat := 0
  mirrorDropped : Nat := 0
  /-- Air Times at which heartbeats and STATE frames were last sent, and the offsets last evaluated (R492, R498). -/
  heartbeatAt : Nat := 0
  stateAt : Nat := 0
  offsetAt : Nat := 0
  /-- Mirror-dirty pages with the Air Time from which each waits (R504). -/
  dirty : SMap Nat := []
  mirrors : SMap Mirror := []
  /-- Mirror sequence by carrier (R504). -/
  mirrorSeq : SMap Nat := []
  /-- Carriers whose claim lost and that are not yet in standby: winner and epoch (R502). -/
  lost : SMap (Nat × Nat) := []
  migrations : SMap Migration := []
  incoming : SMap Incoming := []
  takeovers : SMap TakeWait := []
  /-- Pool secret and start count; pool frames are allowed (R493, R565). -/
  secret : List Byte := []
  startCount : Nat := 0
  frames : Bool := false
  deriving DecidableEq, Repr

/-! ## Power, droop and ageing (R536 to R556) and the thermal outputs (R603) -/

/-- The ageing plan and the last sample of one tile (R547 to R552). -/
structure TilePlan where
  v : Nat := 850
  bin : Nat := 0
  pairedOff : Nat := 0
  clustersOff : Nat := 0
  cloveOff : Nat := 0
  millOff : Bool := false
  slack : Int := 0
  cls : Nat := 0
  idx : Nat := 0
  degr : Nat := 0
  /-- Boundary of the step that the last sample planned, with kind and instance; the clusters whose every class stood
  at or above the target in that sample (R549, R550). -/
  bound : Option Nat := none
  step : Option (Nat × Nat) := none
  good : Nat := 0
  /-- Clusters in split mode for margin recovery. -/
  margin : Nat := 0
  /-- Voltage asked for on AVSBus, with the kind of step or 255 (R551). -/
  avs : Option (Nat × Nat) := none
  /-- Slack of the latest samples, newest first, at most 4,320, and a forecast that stands (R552). -/
  history : List Int := []
  forecast : Bool := false
  deriving DecidableEq, Repr

/-- Stretching of one tile (R545, R546). -/
structure Stretch where
  level : Nat := 0
  /-- Air Time from which the present level's time has not yet been counted. -/
  since : Nat := 0
  /-- Time at levels 1 to 3 since the cold start and within the present window. -/
  total : List Nat := [0, 0, 0]
  window : List Nat := [0, 0, 0]
  load : Nat := 0
  overRes : Nat := 0
  deriving DecidableEq, Repr

/-- The record of R542. -/
structure WakeCause where
  source : Nat := 0
  inst : Nat := 0
  at_ : Nat := 0
  deriving DecidableEq, Repr

/-- A POWER_STATE_SET in its wait phase (R541): the domains still to go off or to come up. -/
structure PowerWait where
  req : Req
  target : Nat
  left : List Nat
  deriving DecidableEq, Repr

/-- Power and ageing. -/
structure PowerSt where
  /-- Domains that are on and in service (R536, R537). -/
  on : List Nat := [95]
  /-- Domains to be fenced once their units have drained, with the cause of POWER_DOMAIN (R541, R549). -/
  toOff : SMap Nat := []
  /-- Domains powering up, with the cause. -/
  coming : SMap Nat := []
  /-- Wakes that became due during a fence, with the cause (R540, R367). -/
  wakeDue : SMap Nat := []
  /-- DEMAND domains that are on and whose units all wait for work, with the Air Time since which they do and no request
  has arrived (R540). -/
  idleFrom : SMap Nat := []
  wait : Option PowerWait := none
  wake : WakeCause := {}
  tiles : SMap TilePlan := []
  stretch : SMap Stretch := []
  /-- Stretch windows that have ended: the window under way begins at this multiple of 19,660,800 Tc (R546). -/
  windows : Nat := 0
  /-- Air Time at which the next ageing sample is due, while Laniman runs (R548, R551). -/
  nextSample : Option Nat := none
  /-- Samples taken, the Air Time of the last, and the records held (R548, R553). -/
  samples : Nat := 0
  sampleAt : Nat := 0
  records : List (List Byte) := []
  /-- Retained VBASE and IEN of the cores of clusters that are off (R543). -/
  kept : SMap (W64 × Nat) := []
  /-- THERM_ALERT_N is low; THERMTRIP_N is latched low (R603). -/
  alert : Bool := false
  trip : Bool := false
  deriving DecidableEq, Repr

/-! ## Start (R557 to R575) -/

/-- Start-up state. -/
structure BootSt where
  /-- DEVSTATE: 0 BOOTING, 1 RUN, 2 QUIET, 3 HOLD, 4 SAFE, 5 BOOT_FAILED (R435). -/
  devState : Nat := 0
  /-- Last start-up step completed, and failure code (R567, R574). -/
  step : Nat := 0
  fail : Nat := 0
  /-- The failed start was a warm start (R569). -/
  warmFailed : Bool := false
  /-- Host-role bytes and the flag WARM_FALLBACK, as read at the last cold start (R434, R560). -/
  roles : List Nat := [0, 0, 0, 0]
  fallback : Bool := false
  /-- Retained SHA-384 digest of the Laniman image (R562). -/
  digest : List Byte := []
  /-- The plan of each tile as the ageing record written last holds it (R566). -/
  ageSaved : SMap TilePlan := []
  /-- RST_N is low; the rails are off (R543, R557). -/
  rstLow : Bool := false
  off : Bool := false
  /-- A warm start has been requested by RESET_WARM and has not begun (R456). -/
  warmDue : Bool := false
  deriving DecidableEq, Repr

/-! ## Proul (R576 to R595) -/

/-- A live debug challenge (R591). -/
structure Challenge where
  bytes : List Byte
  expiry : Nat
  fails : Nat := 0
  deriving DecidableEq, Repr

/-- The TAP and the debug port. -/
structure ProulSt where
  /-- TAP instruction; IDCODE after a TAP reset (R576). -/
  ir : Nat := 2
  /-- The pin-driving instruction in effect (R577). -/
  driving : Option Nat := none
  /-- Boundary-scan register. -/
  bscan : Nat := 0
  /-- A pin-driving instruction was blocked since the last cold start. -/
  blocked : Bool := false
  /-- The Proul register: result, address and data of the latest operation (R578). -/
  result : Nat := 0
  addr : Nat := 0
  data : Nat := 0
  /-- The PENDING operation was caught by a relock (R590). -/
  relocked : Bool := false
  /-- XT_STATUS and cores with a cross-trigger request on its way (R581, R587). -/
  xtStatus : Nat := 0
  xtPending : List Nat := []
  unlocked : Bool := false
  unlockAt : Nat := 0
  /-- Air Time at which the unlock expires; none without expiry (R590, R594). -/
  expiry : Option Nat := none
  challenge : Option Challenge := none
  failed : Nat := 0
  deriving DecidableEq, Repr

/-! ## The device -/

/-- The state of the device. -/
structure State where
  time : TimeSt := {}
  host : HostSt := {}
  cfg : CfgSt := {}
  ev : EventSt := {}
  test : TestSt := {}
  lanes : LaneSt := {}
  ports : PortSt := {}
  facet : FacetSt := {}
  mill : MillSt := {}
  clove : CloveSt := {}
  fab : FabSt := {}
  mem : MemSt := {}
  dma : DmaSt := {}
  pool : PoolSt := {}
  power : PowerSt := {}
  boot : BootSt := {}
  proul : ProulSt := {}
  /-- The model's own counter of free values taken: no part of the device (`notes/assumptions/3.md`). -/
  freeCount : Nat := 0
  /-- Commands that wait, first in, first out. -/
  pending : List Instr := []
  deriving DecidableEq, Repr

/-- The device right after reset: at the release of RST_N, before the first start-up step (R557, R558, R567). -/
def State.reset : State := {}

/-- Faults: none.  The manual names no condition under which the block stops; every command has an effect. -/
inductive Fault where
  /-- Raised by nothing. Safe. -/
  | never
  deriving DecidableEq, Repr

/-- Refusals. -/
inductive Refusal where
  /-- A command without a meaning in the model, by its mnemonic. Safe: nothing can be proved of it. -/
  | notModelled (mnemonic : String)
  deriving DecidableEq, Repr

end Sys2Proof.Machine
end

