-- ==== Sys2Proof/Machine/Ops.lean ====
section
/-! DEFINITION. The named operations the meanings share: sparse maps and byte memories, little-endian and
big-endian numbers, saturating counters, checksums, the Air Time and domain-time reads, and free values. -/

namespace Sys2Proof.Machine

/-! ## Sparse maps -/

/-- The value listed for a key. -/
def mapGet? {α : Type} (m : SMap α) (k : Nat) : Option α :=
  match m with
  | [] => none
  | (j, v) :: t => if j = k then some v else mapGet? t k

/-- The value listed for a key, or the given one. -/
def mapGet {α : Type} (m : SMap α) (k : Nat) (d : α) : α := (mapGet? m k).getD d

/-- The map with a key's value replaced. -/
def mapSet {α : Type} (m : SMap α) (k : Nat) (v : α) : SMap α :=
  match m with
  | [] => [(k, v)]
  | (j, w) :: t =>
    if k < j then (k, v) :: (j, w) :: t
    else if k = j then (k, v) :: t
    else (j, w) :: mapSet t k v

/-- The map without a key. -/
def mapDel {α : Type} (m : SMap α) (k : Nat) : SMap α :=
  match m with
  | [] => []
  | (j, w) :: t => if j = k then mapDel t k else (j, w) :: mapDel t k

/-- The map with a key's value changed by a function, from the given default. -/
def mapMod {α : Type} (m : SMap α) (k : Nat) (d : α) (f : α → α) : SMap α :=
  mapSet m k (f (mapGet m k d))

/-- Set a key, or remove it where the value is what an unlisted key holds. -/
def mapPut (m : SMap Nat) (k v d : Nat) : SMap Nat := if v = d then mapDel m k else mapSet m k v

/-! ## Byte memories -/

/-- One byte of a memory whose unlisted addresses read as `d`. -/
def byteAt (d : Byte) (m : Bytes) (a : Nat) : Byte := mapGet m a d

/-- A memory with one byte written; writing what an unlisted address reads as removes the entry. -/
def byteSet (d : Byte) (m : Bytes) (a : Nat) (b : Byte) : Bytes :=
  if b = d then mapDel m a else mapSet m a b

/-- `n` bytes from address `a`. -/
def bytesRead (d : Byte) (m : Bytes) (a n : Nat) : List Byte :=
  (List.range n).map fun i => byteAt d m (a + i)

/-- A memory with consecutive bytes written from address `a`. -/
def bytesWrite (d : Byte) (m : Bytes) (a : Nat) (bs : List Byte) : Bytes :=
  match bs with
  | [] => m
  | b :: t => bytesWrite d (byteSet d m a b) (a + 1) t

/-- A memory with `n` bytes from `a` put back to what an unlisted address reads as. -/
def bytesClear (m : Bytes) (a n : Nat) : Bytes := m.filter fun e => e.1 < a || a + n ≤ e.1

/-- The canonical form: strictly rising addresses and no listed default byte. -/
def memWf (d : Byte) (m : Bytes) : Bool :=
  match m with
  | [] => true
  | [(_, b)] => b != d
  | (a, b) :: (c, e) :: t => b != d && decide (a < c) && memWf d ((c, e) :: t)

/-! ## Numbers and bytes (R6 to R8) -/

/-- A number as `n` little-endian bytes (R7). -/
def leBytes (n v : Nat) : List Byte :=
  match n with
  | 0 => []
  | k + 1 => BitVec.ofNat 8 v :: leBytes k (v / 256)

/-- The number of little-endian bytes (R7). -/
def leNat (bs : List Byte) : Nat :=
  match bs with
  | [] => 0
  | b :: t => b.toNat + 256 * leNat t

/-- A number as `n` big-endian bytes (R8). -/
def beBytes (n v : Nat) : List Byte := (leBytes n v).reverse

/-- The number of big-endian bytes (R8). -/
def beNat (bs : List Byte) : Nat := leNat bs.reverse

/-- A signed number as `n` little-endian bytes in two's complement, taken modulo the width. -/
def leInt (n : Nat) (v : Int) : List Byte := leBytes n (v % (2 ^ (8 * n) : Nat)).toNat

/-- The signed value of the low `w` bits of a number. -/
def toSigned (w v : Nat) : Int :=
  if v % 2 ^ w < 2 ^ (w - 1) then (v % 2 ^ w : Nat) else (v % 2 ^ w : Nat) - (2 ^ w : Nat)

/-- The two's-complement bits of a signed number in `w` bits. -/
def ofSigned (w : Nat) (v : Int) : Nat := (v % (2 ^ w : Nat)).toNat

/-- Field [hi:lo] of a number (R6). -/
def field (v hi lo : Nat) : Nat := v / 2 ^ lo % 2 ^ (hi + 1 - lo)

/-- Bit n of a number. -/
def bit (v n : Nat) : Bool := v / 2 ^ n % 2 = 1

/-- The number with bit n made 1 or 0. -/
def setBit (v n : Nat) (b : Bool) : Nat :=
  if bit v n = b then v else if b then v + 2 ^ n else v - 2 ^ n

/-- 1 for true. -/
def b2n (b : Bool) : Nat := if b then 1 else 0

/-- The bytes `n` from position `i` of a list, zero past its end. -/
def slice (bs : List Byte) (i n : Nat) : List Byte := (List.range n).map fun k => bs.getD (i + k) 0

/-- The little-endian number in `n` bytes from position `i`. -/
def rd (bs : List Byte) (i n : Nat) : Nat := leNat (slice bs i n)

/-- The big-endian number in `n` bytes from position `i`. -/
def rdBe (bs : List Byte) (i n : Nat) : Nat := beNat (slice bs i n)

/-- A list of bytes padded with zeros to a length. -/
def padTo (n : Nat) (bs : List Byte) : List Byte := bs ++ List.replicate (n - bs.length) 0

/-- Clamp a signed number to a range. -/
def clampInt (lo hi v : Int) : Int := if v < lo then lo else if hi < v then hi else v

/-- A saturating sum in `w` bits. -/
def satAdd (w a b : Nat) : Nat := min (a + b) (2 ^ w - 1)

/-- The quotient rounded up. -/
def ceilDiv (a b : Nat) : Nat := if b = 0 then 0 else (a + b - 1) / b

/-- The largest number below 2^n that meets a condition which holds up to some bound, 0 if none does. -/
def largest (n : Nat) (p : Nat → Bool) : Nat :=
  (List.range n).foldl (fun k i => if p (k + 2 ^ (n - 1 - i)) then k + 2 ^ (n - 1 - i) else k) 0

/-- 10^(k / m) ≤ q, decided on integers: 10^k ≤ q^m. -/
def pow10Le (k : Int) (m : Nat) (q : Rat) : Bool :=
  if q ≤ 0 then false
  else decide (10 ^ k.toNat * q.den ^ m ≤ q.num.toNat ^ m * 10 ^ (-k).toNat)

/-- round(2,560 × log10 q) between two bounds: the least bound when q is not positive.  A result n holds from
10^((2n − 1) / 5,120) on; no rational q meets that bound with equality, so no tie arises (R338, R346). -/
def log256 (lo hi : Int) (q : Rat) : Int :=
  min hi (lo + (largest 18 fun k => pow10Le (2 * (lo + (k : Nat)) - 1) 5120 q : Nat))

/-- π to 30 decimals (R49, R342): the manual states no precision (DESIGN CHOICE, `notes/assumptions/67.md`). -/
def piRat : Rat := 3141592653589793238462643383279 / 1000000000000000000000000000000

/-- The Taylor terms of cos (from k = 0) or sin (from k = 1) of x, in units of 2^-64. -/
def taylor (x : Int) (fuel k : Nat) (t : Int) : Int :=
  match fuel with
  | 0 => t
  | f + 1 => t + taylor x f (k + 2) (-(t * x / 2 ^ 64 * x / 2 ^ 64 / ((k + 1) * (k + 2) : Nat)))

/-- e^(j 2π q): real and imaginary part, to units of 2^-64 (R342; DESIGN CHOICE, `notes/assumptions/67.md`). -/
def cis (q : Rat) : Rat × Rat :=
  let r := q - (((2 * q + 1).floor / 2 : Int) : Rat)
  let x := (r * 2 * piRat * ((2 ^ 64 : Nat) : Rat)).floor
  (mkRat (taylor x 20 0 (2 ^ 64)) (2 ^ 64), mkRat (taylor x 20 1 x) (2 ^ 64))

/-- Drop repeated numbers, keeping the first of each. -/
def dedupNat (l : List Nat) : List Nat := l.foldl (fun acc x => if acc.contains x then acc else acc ++ [x]) []

/-! ## Checksums -/

/-- One byte of a reflected CRC with the reflected polynomial `p`. -/
def crcRefByte (p : Nat) (c : Nat) (b : Byte) : Nat :=
  (List.range 8).foldl (fun x _ => if x % 2 = 1 then (x / 2) ^^^ p else x / 2) (c ^^^ b.toNat)

/-- CRC-32C (R442): polynomial 0x1EDC6F41 reflected, initial value and final XOR of all ones. -/
def crc32c (bs : List Byte) : Nat :=
  (bs.foldl (crcRefByte 0x82F63B78) 0xFFFFFFFF) ^^^ 0xFFFFFFFF

/-- CRC-64/XZ (R485). -/
def crc64xz (bs : List Byte) : Nat :=
  (bs.foldl (crcRefByte 0xC96C5795D7870F42) 0xFFFFFFFFFFFFFFFF) ^^^ 0xFFFFFFFFFFFFFFFF

/-- One byte of the CRC-8 of the ToD message. -/
def crc8Byte (c : Nat) (b : Byte) : Nat :=
  (List.range 8).foldl (fun x _ => if 128 ≤ x then (x * 2 % 256) ^^^ 7 else x * 2 % 256) (c ^^^ b.toNat)

/-- CRC-8 of the ToD message (R66): polynomial 0x07, initial value 0, no reflection. -/
def crc8 (bs : List Byte) : Nat := bs.foldl crc8Byte 0

/-! ## Air Time and domain time -/

/-- Air Time in Tc (R78): the unsigned 64-bit count. -/
def State.now (s : State) : Nat := s.time.air / 2 ^ 32 % 2 ^ 64

/-- Air Time in Tc as the local copy of a unit shows it: unit classes 0 Prism, 1 DMA, 2 Mill (R80, R81, R103). -/
def State.localNow (s : State) (cls unit : Nat) : Nat :=
  match mapGet? s.time.stale (cls * 256 + unit) with
  | some (v, true) => v
  | _ => s.now

def State.comp (s : State) (n : Nat) : Comparator := mapGet s.time.comps n {}
def State.setComp (s : State) (n : Nat) (x : Comparator) : State :=
  { s with time := { s.time with comps := mapSet s.time.comps n x } }

/-- The commit in progress ends; Laniman's comparators for it are free again (R92). -/
def State.endCommit (s : State) : State :=
  { s with
    cfg := { s.cfg with commit := none }
    time := { s.time with comps := mapDel (mapDel s.time.comps 0) 1 } }

/-- Air Time `now` has reached the target `t`, as R91 compares. -/
def reached (now t : Nat) : Bool := decide (t ≤ now)

/-- Tc in one millisecond (R11). -/
def tcMs : Nat := 1966080

/-- Tc in one second. -/
def tcS : Nat := 1966080000

/-- A domain of the time subsystem (R32). -/
def State.dom (s : State) (d : Nat) : Domain := if d = 0 then s.time.dom0 else s.time.dom1

/-- The state with a domain replaced. -/
def State.setDom (s : State) (d : Nat) (x : Domain) : State :=
  if d = 0 then { s with time := { s.time with dom0 := x } }
  else { s with time := { s.time with dom1 := x } }

/-- A domain's time in whole nanoseconds from the PTP epoch (R32). -/
def Domain.ns (x : Domain) : Nat := x.count / 2 ^ 32

/-- The active domain (R36). -/
def State.activeDom (s : State) : Domain := s.dom s.time.active

/-- The domain's seconds field, 48 bits (R32). -/
def Domain.seconds (x : Domain) : Nat := x.ns / 1000000000 % 2 ^ 48

/-! ## Free values -/

/-- Take the next ordinal of a free value: the ordinal and the state that has moved past it. -/
def State.fresh (s : State) : Nat × State := (s.freeCount, { s with freeCount := s.freeCount + 1 })

end Sys2Proof.Machine
end

