-- ==== Sys2Proof/Machine/Params.lean ====
section
/-! DEFINITION. The parameters: the tables of every chapter (R17, R18) as one function of the ID, and the
value in force in the device and in one unit during a commit (R473 to R479). -/

namespace Sys2Proof.Machine

/-- One row of a parameter table (R17). -/
structure ParamSpec where
  /-- Size in bytes (R18). -/
  size : Nat
  signed : Bool := false
  staged : Bool
  /-- The instances are 0 to `insts` - 1. -/
  insts : Nat := 1
  /-- Instances refused with DZ_BADPARAM although they lie below `insts`. -/
  badInst : Nat → Bool := fun _ => false
  /-- Default by instance, as the bits of the value. -/
  dflt : Nat → Nat := fun _ => 0
  /-- Whether a value lies in the range, by instance. -/
  ok : Nat → Int → Bool

/-- A range of values. -/
def inRange (lo hi : Int) (_ : Nat) (v : Int) : Bool := decide (lo ≤ v) && decide (v ≤ hi)

/-- A power of two from `lo` to `hi`. -/
def pow2In (lo hi : Nat) (v : Int) : Bool :=
  (List.range 64).any fun k => decide (v = (2 ^ k : Nat)) && decide (lo ≤ 2 ^ k) && decide (2 ^ k ≤ hi)

/-- Default bandwidth of a reference input in mHz (R43). -/
def bwDefault (i : Nat) : Nat :=
  if i % 32 < 16 then 1000 else if i % 32 < 18 then 100 else if i % 32 < 20 then 10 else 50

/-- Bandwidth choices of a reference input in mHz (R43). -/
def bwOk (i : Nat) (v : Int) : Bool :=
  if i % 32 < 16 then v = 100 || v = 1000 || v = 3000 || v = 10000
  else if i % 32 < 18 then v = 100
  else if i % 32 < 20 then decide (1 ≤ v) && decide (v ≤ 100)
  else decide (10 ≤ v) && decide (v ≤ 100)

/-- Instance refused because its reference input is reserved (R43). -/
def refBad (i : Nat) : Bool := 24 ≤ i % 32

/-- Groups 0x02 and 0x03 (R75, R102). -/
def paramTime (id : Nat) : Option ParamSpec :=
  match id with
  | 0x0201 => some { size := 1, staged := false, dflt := fun _ => 1, ok := inRange 0 1 }
  | 0x0202 => some { size := 1, staged := false, ok := inRange 0 1 }
  | 0x0203 => some { size := 2, staged := false, dflt := fun _ => 10, ok := inRange 1 1000 }
  | 0x0204 => some { size := 4, staged := false, dflt := fun _ => 1500, ok := inRange 10 1000000 }
  | 0x0205 => some { size := 1, staged := false, insts := 64, badInst := refBad, ok := inRange 0 255 }
  | 0x0206 => some { size := 2, staged := false, insts := 64, badInst := refBad, dflt := bwDefault, ok := bwOk }
  | 0x0207 => some { size := 2, staged := false, insts := 2, dflt := fun _ => 50, ok := inRange 5 5000 }
  | 0x0208 => some { size := 2, staged := false, insts := 2, dflt := fun _ => 300, ok := inRange 0 3600 }
  | 0x0209 => some { size := 4, staged := false, insts := 2, dflt := fun _ => 14400, ok := inRange 60 259200 }
  | 0x020A => some { size := 4, staged := false, insts := 2, dflt := fun _ => 1000, ok := inRange 100 1000000 }
  | 0x020B => some { size := 2, staged := false, insts := 2, dflt := fun _ => 100, ok := inRange 10 10000 }
  | 0x020C => some { size := 4, staged := false, insts := 2, dflt := fun _ => 4600, ok := inRange 100 50000 }
  | 0x020D => some { size := 1, staged := true, insts := 8, dflt := fun _ => 255,
                     ok := fun _ v => inRange 0 63 0 v || decide (v = 255) }
  | 0x020E => some { size := 2, staged := false, insts := 2, dflt := fun _ => 2000, ok := inRange 250 10000 }
  | 0x020F => some { size := 2, staged := true, insts := 16, dflt := fun _ => 65535,
                     ok := fun _ v => inRange 0 255 0 v || decide (v = 65535) }
  | 0x0210 => some { size := 1, staged := true, insts := 64, ok := inRange 0 1 }
  | 0x0211 => some { size := 4, signed := true, staged := false, insts := 2, ok := inRange (-100000) 100000 }
  | 0x0212 => some { size := 1, staged := false, insts := 2, ok := inRange 0 1 }
  | 0x0213 => some { size := 1, staged := false, insts := 4, ok := inRange 0 2 }
  | 0x0214 => some { size := 1, staged := false, insts := 4, ok := inRange 0 1 }
  | 0x0215 => some { size := 8, staged := false, insts := 4, ok := fun _ _ => true }
  | 0x0216 => some { size := 8, staged := false, insts := 4, dflt := fun _ => 1000000000, ok := inRange 1000 1000000000000 }
  | 0x0217 => some { size := 4, staged := false, insts := 4, dflt := fun _ => 100000000, ok := inRange 10 500000000 }
  | 0x0218 => some { size := 4, signed := true, staged := false, insts := 4, ok := inRange (-100000) 100000 }
  | 0x0301 => some { size := 1, staged := true, insts := 1024, ok := inRange 0 2 }
  | 0x0302 => some { size := 1, staged := true, insts := 1024, dflt := fun _ => 1, ok := inRange 0 3 }
  | 0x0303 => some { size := 1, staged := true, insts := 1024, ok := inRange 0 1 }
  | 0x0304 => some { size := 8, staged := true, insts := 1024, ok := inRange 0 19660799 }
  | 0x0305 => some { size := 1, staged := false, dflt := fun _ => 1, ok := inRange 0 1 }
  | 0x0306 => some { size := 1, staged := false, dflt := fun _ => 1, ok := inRange 0 1 }
  | 0x0307 => some { size := 8, staged := false, dflt := fun _ => 196608, ok := inRange 3932 19660800 }
  | _ => none

/-- Groups 0x04 and 0x05 (R129, R165). -/
def paramLane (id : Nat) : Option ParamSpec :=
  match id with
  | 0x0401 => some { size := 1, staged := false, insts := 256, ok := inRange 0 4 }
  | 0x0402 => some { size := 1, staged := false, insts := 256, ok := inRange 0 3 }
  | 0x0403 => some { size := 1, staged := false, insts := 256, ok := inRange 0 7 }
  | 0x0404 => some { size := 1, staged := false, insts := 256, ok := inRange 0 7 }
  | 0x0405 => some { size := 1, staged := true, insts := 256, dflt := fun _ => 1, ok := inRange 0 1 }
  | 0x0406 => some { size := 1, staged := false, dflt := fun _ => 4, ok := inRange 2 9 }
  | 0x0407 => some { size := 4, staged := false, dflt := fun _ => 86400, ok := inRange 3600 604800 }
  | 0x0408 => some { size := 4, staged := false, dflt := fun _ => 600, ok := inRange 10 86400 }
  | 0x0501 => some { size := 1, staged := true, insts := 64, ok := inRange 0 5 }
  | 0x0502 => some { size := 1, staged := true, insts := 64, ok := inRange 0 3 }
  | 0x0503 => some { size := 8, staged := true, insts := 64,
                     ok := fun _ v => inRange 0 (2 ^ 48 - 1) 0 v && decide (v / 2 ^ 40 % 2 = 0) }
  | 0x0504 => some { size := 2, staged := true, insts := 64, dflt := fun _ => 9216, ok := inRange 1518 9216 }
  | 0x0505 => some { size := 4, staged := true, insts := 64, ok := fun _ _ => true }
  | 0x0506 => some { size := 8, staged := true, insts := 128, ok := fun _ _ => true }
  | _ => none

/-- Group 0x06 (R166). -/
def paramFh (id : Nat) : Option ParamSpec :=
  match id with
  | 0x0601 => some { size := 1, staged := true, insts := 64, dflt := fun _ => 1, ok := inRange 0 1 }
  | 0x0602 => some { size := 1, staged := true, insts := 64, dflt := fun _ => 9, ok := inRange 1 16 }
  | 0x0603 => some { size := 1, staged := true, insts := 64, dflt := fun _ => 1,
                     ok := fun _ v => decide (v = 0) || decide (v = 1) || decide (v = 4) }
  | 0x0604 => some { size := 1, staged := true, insts := 64, dflt := fun _ => 9, ok := inRange 1 16 }
  | 0x0605 => some { size := 1, staged := true, insts := 64, ok := inRange 0 1 }
  | 0x0606 => some { size := 1, staged := true, insts := 64, ok := inRange 0 1 }
  | 0x0607 => some { size := 1, staged := true, insts := 1024, dflt := fun _ => 255,
                     ok := fun _ v => inRange 0 63 0 v || decide (v = 255) }
  | 0x0608 => some { size := 1, staged := true, insts := 1024, ok := inRange 0 3 }
  | 0x0609 => some { size := 2, staged := true, insts := 1024, dflt := fun _ => 273, ok := inRange 1 275 }
  | 0x060A => some { size := 1, staged := true, insts := 1024, ok := inRange 0 2 }
  | 0x060B => some { size := 8, staged := true, insts := 1024, ok := inRange 0 (2 ^ 48 - 1) }
  | 0x060C => some { size := 4, staged := true, insts := 1024, ok := fun _ _ => true }
  | 0x060D => some { size := 8, staged := true, insts := 2048, ok := fun _ _ => true }
  | 0x060E => some { size := 2, staged := true, insts := 1024, dflt := fun _ => 49152,
                     ok := fun _ v => inRange 1 65535 0 v && decide (v ≠ 319) && decide (v ≠ 320) }
  | 0x060F => some { size := 2, staged := true, insts := 2048, dflt := fun _ => 65535, ok := inRange 0 65535 }
  | 0x0610 => some { size := 8, staged := true, insts := 1024, ok := inRange 0 1966080 }
  | 0x0611 => some { size := 8, staged := true, insts := 1024, dflt := fun _ => 98304, ok := inRange 1 1966080 }
  | 0x0612 => some { size := 8, staged := true, insts := 1024, dflt := fun _ => 393216, ok := inRange 1 1966080 }
  | 0x0613 => some { size := 8, staged := true, insts := 1024, dflt := fun _ => 98304, ok := inRange 0 1966080 }
  | 0x0614 => some { size := 8, staged := true, insts := 1024, dflt := fun _ => 589824, ok := inRange 1 3932160 }
  | 0x0615 => some { size := 8, staged := true, insts := 1024, dflt := fun _ => 196608, ok := inRange 0 3932160 }
  | 0x0616 => some { size := 8, staged := true, insts := 1024, dflt := fun _ => 19661, ok := inRange 0 196608 }
  | 0x0617 => some { size := 1, staged := true, insts := 3072, ok := inRange 0 255 }
  | 0x0618 => some { size := 1, staged := true, insts := 3072, ok := inRange 0 64 }
  | 0x0619 => some { size := 1, staged := true, insts := 3072, dflt := fun _ => 4, ok := inRange 1 16 }
  | 0x061A => some { size := 1, staged := true, insts := 1024, ok := inRange 0 23 }
  | 0x061B => some { size := 1, staged := true, insts := 1024, ok := inRange 0 255 }
  | 0x061C => some { size := 2, staged := true, insts := 16384, dflt := fun _ => 65535,
                     ok := fun _ v => inRange 0 1023 0 v || decide (v = 65535) }
  | 0x061D => some { size := 2, staged := true, insts := 16384, ok := inRange 0 65535 }
  | 0x061E => some { size := 1, staged := true, insts := 16384, ok := inRange 0 1 }
  | 0x061F => some { size := 1, staged := true, insts := 16384, ok := inRange 0 63 }
  | _ => none

/-- Groups 0x07 to 0x09 (R207, R238, R261, R299, R331). -/
def paramCompute (id : Nat) : Option ParamSpec :=
  match id with
  | 0x0701 => some { size := 1, staged := true, dflt := fun _ => 16, ok := inRange 4 64 }
  | 0x0702 => some { size := 1, staged := true, insts := 64, ok := inRange 0 1 }
  | 0x0710 => some { size := 1, staged := true, insts := 1024, ok := inRange 0 1 }
  | 0x0720 => some { size := 1, staged := false, dflt := fun _ => 1, ok := inRange 0 1 }
  | 0x0801 => some { size := 8, staged := false, dflt := fun _ => 70779, ok := inRange 0 19660800 }
  | 0x0802 => some { size := 8, staged := false, insts := 24, dflt := fun _ => 31457, ok := inRange 0 19660800 }
  | 0x0803 => some { size := 1, staged := false, dflt := fun _ => 8, ok := inRange 1 64 }
  | 0x0804 => some { size := 1, staged := true, dflt := fun _ => 4, ok := inRange 1 64 }
  | 0x0805 => some { size := 2, staged := false, dflt := fun _ => 64, ok := inRange 1 65535 }
  | 0x0806 => some { size := 1, staged := false, insts := 1024, dflt := fun _ => 3, ok := inRange 0 3 }
  | 0x0807 => some { size := 1, staged := false, insts := 5, dflt := fun _ => 1, ok := inRange 1 255 }
  | 0x0808 => some { size := 1, staged := false, insts := 4, dflt := fun _ => 1, ok := inRange 0 1 }
  | 0x0809 => some { size := 8, staged := false, dflt := fun _ => 98304, ok := inRange 3932 1966080 }
  | 0x080A => some { size := 8, staged := false, dflt := fun _ => 19661, ok := inRange 3932 196608 }
  | 0x080B => some { size := 8, staged := true, dflt := fun _ => 2 ^ 64 - 1,
                     ok := fun _ v => decide (v % 67108864 = 0) || decide (v = 2 ^ 64 - 1) }
  | 0x080C => some { size := 8, staged := true, insts := 4, ok := fun _ v => decide (v % 4096 = 0) }
  | 0x080D => some { size := 4, staged := true, insts := 4,
                     ok := fun _ v => decide (v = 0) || pow2In 65536 1073741824 v }
  | 0x080E => some { size := 2, staged := false, insts := 4,
                     ok := fun _ v => decide (v % 2 = 0) && inRange 0 511 0 v }
  | 0x080F => some { size := 1, staged := false, insts := 4, dflt := fun _ => 0xFF, ok := inRange 0 255 }
  | 0x0810 => some { size := 1, staged := false, ok := inRange 0 1 }
  | 0x0901 => some { size := 1, staged := false, dflt := fun _ => 4, ok := inRange 1 32 }
  | 0x0902 => some { size := 1, staged := false, dflt := fun _ => 2, ok := inRange 1 32 }
  | 0x0903 => some { size := 1, staged := true, dflt := fun _ => 12, ok := inRange 8 16 }
  | 0x0904 => some { size := 1, staged := true, insts := 1024, ok := inRange 0 2 }
  | 0x0905 => some { size := 1, staged := false, dflt := fun _ => 2, ok := fun _ v => pow2In 1 8 v }
  | _ => none

/-- Groups 0x0A to 0x0E (R348, R376, R410, R430). -/
def paramFabric (id : Nat) : Option ParamSpec :=
  match id with
  | 0x0A01 => some { size := 2, signed := true, staged := false, insts := 16384, ok := inRange (-12288) 3072 }
  | 0x0A02 => some { size := 2, signed := true, staged := false, insts := 16384, ok := inRange (-12288) 3072 }
  | 0x0A03 => some { size := 2, staged := true, insts := 1024, dflt := fun _ => 20, ok := inRange 1 1024 }
  | 0x0A04 => some { size := 1, staged := true, insts := 16384, badInst := fun i => i % 16 = 0, ok := inRange 0 13 }
  | 0x0A05 => some { size := 2, staged := true, insts := 16384, badInst := fun i => i % 16 = 0, ok := inRange 0 838 }
  | 0x0A06 => some { size := 2, staged := true, insts := 16384, badInst := fun i => i % 16 = 0,
                     dflt := fun _ => 13, ok := inRange 0 419 }
  | 0x0A07 => some { size := 1, staged := true, insts := 16384, badInst := fun i => i % 16 = 0,
                     dflt := fun _ => 64, ok := inRange 1 64 }
  | 0x0A08 => some { size := 2, staged := false, insts := 16384, badInst := fun i => i % 16 = 0,
                     dflt := fun _ => 3072, ok := inRange 0 7680 }
  | 0x0A09 => some { size := 2, staged := true, insts := 16384, dflt := fun _ => 65535,
                     ok := fun _ v => inRange 0 16383 0 v || decide (v = 65535) }
  | 0x0A0A => some { size := 8, staged := true, insts := 1024, ok := fun _ v => decide (v % 64 = 0) }
  | 0x0A0B => some { size := 2, staged := true, insts := 1024, ok := fun _ v => decide (v = 0) || pow2In 16 4096 v }
  | 0x0A0C => some { size := 1, staged := true, insts := 1024, dflt := fun _ => 255,
                     ok := fun _ v => inRange 0 23 0 v || decide (v = 255) }
  | 0x0A0D => some { size := 1, staged := true, insts := 1024, ok := inRange 0 255 }
  | 0x0B01 => some { size := 1, staged := true, insts := 96, ok := inRange 0 1 }
  | 0x0B02 => some { size := 4, staged := false, dflt := fun _ => 131072, ok := inRange 4096 1048576 }
  | 0x0B03 => some { size := 2, staged := false, dflt := fun _ => 256, ok := inRange 0 65535 }
  | 0x0C01 => some { size := 4, staged := false, dflt := fun _ => 86400, ok := inRange 3600 604800 }
  | 0x0D01 => some { size := 1, staged := false, ok := inRange 0 1 }
  | 0x0D02 => some { size := 4, staged := false, dflt := fun _ => 100000, ok := inRange 1000 10000000 }
  | 0x0E01 => some { size := 1, staged := true, insts := 768, ok := inRange 0 4 }
  | 0x0E02 => some { size := 1, staged := false, insts := 768, dflt := fun _ => 16, ok := inRange 1 64 }
  | 0x0E03 => some { size := 2, staged := false, dflt := fun _ => 256, ok := inRange 64 65535 }
  | _ => none

/-- Groups 0x10 to 0x16 (R487, R511, R534, R555, R594). -/
def paramSystem (id : Nat) : Option ParamSpec :=
  match id with
  | 0x1001 => some { size := 1, staged := true, insts := 1024, ok := inRange 0 1 }
  | 0x1002 => some { size := 8, staged := false, dflt := fun _ => 1966080000, ok := inRange 3932160 117964800000 }
  | 0x1101 => some { size := 1, staged := true, ok := inRange 0 3 }
  | 0x1102 => some { size := 1, staged := true, dflt := fun _ => 1, ok := inRange 1 4 }
  | 0x1103 => some { size := 4, staged := true, ok := fun _ _ => true }
  | 0x1104 => some { size := 4, staged := true, ok := fun _ _ => true }
  | 0x1105 => some { size := 8, staged := false, dflt := fun _ => 1966080000, ok := inRange 19660800 117964800000 }
  | 0x1106 => some { size := 4, staged := false, dflt := fun _ => 50, ok := inRange 10 10000 }
  | 0x1107 => some { size := 8, staged := false, dflt := fun _ => 1966080, ok := inRange 196608 19660800 }
  | 0x1108 => some { size := 1, staged := true, insts := 1024, ok := inRange 0 3 }
  | 0x1109 => some { size := 1, staged := true, insts := 1024, dflt := fun _ => 255,
                     ok := fun _ v => inRange 0 3 0 v || decide (v = 255) }
  | 0x110A => some { size := 8, staged := true, insts := 1024, ok := fun _ v => decide (v % 2048 = 0) }
  | 0x110B => some { size := 4, staged := true, insts := 1024,
                     ok := fun _ v => inRange 0 4294965248 0 v && decide (v % 2048 = 0) }
  | 0x1201 => some { size := 4, staged := false, insts := 5, dflt := fun _ => 86400,
                     ok := fun _ v => decide (v = 0) || inRange 3600 2592000 0 v }
  | 0x1301 => some { size := 1, staged := true, insts := 96, ok := inRange 0 3 }
  | 0x1302 => some { size := 8, staged := false, dflt := fun _ => 196608, ok := inRange 19661 19660800 }
  | 0x1303 => some { size := 1, staged := false, insts := 6, dflt := fun _ => 30, ok := inRange 10 80 }
  | 0x1304 => some { size := 2, staged := false, dflt := fun _ => 50, ok := inRange 0 200 }
  | 0x1305 => some { size := 1, staged := false, dflt := fun _ => 15, ok := inRange 0 15 }
  | 0x1401 => some { size := 1, staged := false, dflt := fun _ => 8, ok := inRange 2 32 }
  | 0x1402 => some { size := 1, staged := false, dflt := fun _ => 16, ok := inRange 4 48 }
  | 0x1403 => some { size := 2, staged := false, insts := 4, dflt := fun _ => 850,
                     ok := fun _ v => inRange 650 850 0 v && decide (v % 5 = 0) }
  | 0x1404 => some { size := 2, staged := false, insts := 4, dflt := fun _ => 650,
                     ok := fun _ v => inRange 650 850 0 v && decide (v % 5 = 0) }
  | 0x1405 => some { size := 1, staged := false, insts := 4, dflt := fun _ => 4, ok := inRange 0 4 }
  | 0x1406 => some { size := 4, staged := false, dflt := fun _ => 2592000, ok := inRange 86400 31536000 }
  | 0x1407 => some { size := 1, staged := false, dflt := fun _ => 12, ok := inRange 4 63 }
  | 0x1408 => some { size := 1, staged := false, dflt := fun _ => 8, ok := inRange 2 31 }
  | 0x1409 => some { size := 4, staged := false, dflt := fun _ => 7776000, ok := inRange 86400 31536000 }
  | 0x1601 => some { size := 8, staged := false, dflt := fun _ => 117964800000,
                     ok := inRange 1966080000 1179648000000 }
  | 0x1602 => some { size := 4, staged := false, ok := fun _ v => decide (v = 0) || inRange 60 604800 0 v }
  | 0x1603 => some { size := 1, staged := false, ok := inRange 0 1 }
  | _ => none

/-- The row of a parameter ID, none where the ID is not defined (R15, R16). -/
def paramSpec (id : Nat) : Option ParamSpec :=
  match id / 256 with
  | 2 => paramTime id
  | 3 => paramTime id
  | 4 => paramLane id
  | 5 => paramLane id
  | 6 => paramFh id
  | 7 => paramCompute id
  | 8 => paramCompute id
  | 9 => paramCompute id
  | 0x0A => paramFabric id
  | 0x0B => paramFabric id
  | 0x0C => paramFabric id
  | 0x0D => paramFabric id
  | 0x0E => paramFabric id
  | 0x10 => paramSystem id
  | 0x11 => paramSystem id
  | 0x12 => paramSystem id
  | 0x13 => paramSystem id
  | 0x14 => paramSystem id
  | 0x16 => paramSystem id
  | _ => none

/-- The key of a parameter instance. -/
def pkey (id inst : Nat) : Nat := id * 65536 + inst

/-- The default value of a parameter instance. -/
def paramDefault (id inst : Nat) : Nat := ((paramSpec id).map fun p => p.dflt inst).getD 0

/-- The committed value of a staged parameter, or the value in force of an immediate one (R454). -/
def State.param (s : State) (id inst : Nat) : Nat :=
  mapGet s.cfg.params (pkey id inst) (paramDefault id inst)

/-- The value as a signed number, for a signed type (R18). -/
def State.paramInt (s : State) (id inst : Nat) : Int :=
  toSigned (8 * ((paramSpec id).map fun p => p.size).getD 8) (s.param id inst)

/-- A value of a set over the committed configuration: what the commit would produce (R472). -/
def State.paramWith (s : State) (set : SMap Nat) (id inst : Nat) : Nat :=
  mapGet set (pkey id inst) (s.param id inst)

/-- The value a unit holds: from T until a commit completes, a unit that has swapped holds the new set (R479). -/
def State.paramIn (s : State) (unit id inst : Nat) : Nat :=
  match s.cfg.commit with
  | some c => if c.swapped.contains unit then s.paramWith c.set id inst else s.param id inst
  | none => s.param id inst

/-- The state with one parameter's value in force replaced. -/
def State.setParam (s : State) (id inst v : Nat) : State :=
  { s with cfg := { s.cfg with params := mapPut s.cfg.params (pkey id inst) v (paramDefault id inst) } }

/-- Unit ID of a class and instance (R473). -/
def unitId (cls inst : Nat) : Nat := cls * 4096 + inst

/-- The time subsystem's copy. -/
def State.paramTime (s : State) (id inst : Nat) : Nat := s.paramIn (unitId 1 0) id inst
/-- A Prism engine's copy. -/
def State.paramPort (s : State) (port id inst : Nat) : Nat := s.paramIn (unitId 2 port) id inst
/-- A Mill slice's copy. -/
def State.paramMill (s : State) (slc id inst : Nat) : Nat := s.paramIn (unitId 4 slc) id inst
/-- A Clove domain's copy. -/
def State.paramClove (s : State) (dom id inst : Nat) : Nat := s.paramIn (unitId 5 dom) id inst
/-- A Facet cluster's copy. -/
def State.paramCluster (s : State) (cl id inst : Nat) : Nat := s.paramIn (unitId 6 cl) id inst
/-- A lane group's copy. -/
def State.paramGroup (s : State) (g id inst : Nat) : Nat := s.paramIn (unitId 7 g) id inst
/-- A DMA engine's copy. -/
def State.paramDma (s : State) (e id inst : Nat) : Nat := s.paramIn (unitId 3 e) id inst

/-- The carriers whose committed `carrier[c].active` is 1. -/
def State.activeCarriers (s : State) : List Nat :=
  (s.cfg.params.filter fun e => e.1 / 65536 = 0x1001 && e.2 = 1).map fun e => e.1 % 65536

/-- The device owns a carrier (R500): alone it owns every one. -/
def State.owns (s : State) (c : Nat) : Bool :=
  s.paramIn (unitId 0 0) 0x1102 0 = 1 || (mapGet s.pool.owners c (255, 0)).1 = s.paramIn (unitId 0 0) 0x1101 0

/-- A carrier with `carrier[c].active` 1 is served: neither standby (R500) nor held (R572). -/
def State.served (s : State) (c : Nat) : Bool := s.owns c && !s.pool.held.contains c

/-- A carrier is active as the Mill slices and its Prism engine hold it (R482), and served (R500, R572). -/
def State.carrierActive (s : State) (c : Nat) : Bool :=
  s.served c &&
  match s.cfg.commit with
  | some k =>
    if k.swapped.isEmpty then s.param 0x1001 c = 1 else s.paramWith k.set 0x1001 c = 1
  | none => s.param 0x1001 c = 1

/-- Some carrier context is active (R38, R84). -/
def State.anyActive (s : State) : Bool :=
  s.activeCarriers.any s.carrierActive ||
  match s.cfg.commit with
  | some k => k.set.any fun e => e.1 / 65536 = 0x1001 && s.carrierActive (e.1 % 65536)
  | none => false

end Sys2Proof.Machine
end

