-- ==== Sys2Proof/Machine/Access.lean ====
section
/-! DEFINITION. Reads and writes of the parts of the state that several blocks share: cores, clusters, ports, links
and power domains. -/

namespace Sys2Proof.Machine

/-- A Facet core. -/
def State.core (s : State) (k : Nat) : Core := mapGet s.facet.cores k {}

/-- The state with a core replaced. -/
def State.setCore (s : State) (k : Nat) (c : Core) : State :=
  { s with facet := { s.facet with cores := mapSet s.facet.cores k c } }

/-- A Facet cluster. -/
def State.cluster (s : State) (c : Nat) : Cluster := mapGet s.facet.clusters c {}

/-- The state with a cluster replaced. -/
def State.setCluster (s : State) (c : Nat) (x : Cluster) : State :=
  { s with facet := { s.facet with clusters := mapSet s.facet.clusters c x } }

/-- A port. -/
def State.port (s : State) (p : Nat) : Port := mapGet s.ports.ports p {}

/-- The state with a port replaced. -/
def State.setPort (s : State) (p : Nat) (x : Port) : State :=
  { s with ports := { s.ports with ports := mapSet s.ports.ports p x } }

/-- Link k of a port. -/
def Port.link (x : Port) (k : Nat) : Link :=
  match k with
  | 0 => x.link0
  | 1 => x.link1
  | 2 => x.link2
  | _ => x.link3

/-- The port with a link replaced. -/
def Port.setLink (x : Port) (k : Nat) (l : Link) : Port :=
  match k with
  | 0 => { x with link0 := l }
  | 1 => { x with link1 := l }
  | 2 => { x with link2 := l }
  | _ => { x with link3 := l }

/-- A link of a port. -/
def State.link (s : State) (p k : Nat) : Link := (s.port p).link k

/-- The state with a link replaced. -/
def State.setLink (s : State) (p k : Nat) (l : Link) : State := s.setPort p ((s.port p).setLink k l)

/-- A link is up: block lock holds (R115). -/
def State.linkUp (s : State) (p k : Nat) : Bool := (s.link p k).up

/-- A power domain is on: neither off nor still coming up (R536, R537). -/
def State.domainOn (s : State) (d : Nat) : Bool := s.power.on.contains d

end Sys2Proof.Machine
end

