-- ==== Sys2Proof/Machine/Events.lean ====
section
/-! DEFINITION. Raising an event (R513 to R519): the severity of every code, the loss-table index of every
source, and the offer to the arbiter's 256-entry input queue. -/

namespace Sys2Proof.Machine

/-- Severity of a code (R519; R556, R575, R594 for groups 0x13 to 0x16), from its detail where a field selects it. -/
def eventSev (code : Nat) (d : List Byte) : Nat :=
  let b0 := rd d 0 1
  let b1 := rd d 1 1
  let b2 := rd d 2 1
  match code with
  | 0x0201 => 4
  | 0x0805 => 4
  | 0x0D02 => 4
  | 0x0B05 => if b2 = 1 then 4 else 2
  | 0x0701 => 3
  | 0x0804 => 3
  | 0x080B => 3
  | 0x0809 => 3
  | 0x0C02 => 3
  | 0x0B06 => if rd d 3 1 = 1 || rd d 3 1 = 2 then 3 else 1
  | 0x0901 => 3
  | 0x0903 => if b2 = 1 then 3 else 0
  | 0x1203 => if b2 = 1 then 3 else 0
  | 0x0E01 => 3
  | 0x0B01 => 3
  | 0x0B04 => 3
  | 0x0B02 => 3
  | 0x0305 => 3
  | 0x0405 => 3
  | 0x1105 => 3
  | 0x1107 => 3
  | 0x1108 => if rd d 3 1 = 3 then 3 else if rd d 3 1 = 0 then 2 else 1
  | 0x1003 => 3
  | 0x0204 => 2
  | 0x0205 => 2
  | 0x020A => 2
  | 0x020B => 2
  | 0x0208 => if b0 = 1 then 2 else 1
  | 0x1103 => if b1 = 1 then 2 else 1
  | 0x0402 => if b1 = 1 then 2 else 1
  | 0x0302 => 2
  | 0x0303 => 2
  | 0x0502 => 2
  | 0x0602 => 2
  | 0x0603 => 2
  | 0x0604 => 2
  | 0x0605 => 2
  | 0x0720 => 2
  | 0x0801 => 2
  | 0x0802 => 2
  | 0x0806 => 2
  | 0x0807 => 2
  | 0x0808 => 2
  | 0x080C => 2
  | 0x0902 => 2
  | 0x0A01 => 2
  | 0x0A02 => 2
  | 0x0A03 => 2
  | 0x0B03 => 2
  | 0x0E03 => 2
  | 0x0F03 => 2
  | 0x0F04 => 2
  | 0x1002 => 2
  | 0x1101 => if b1 = 0 then 2 else 1
  | 0x1102 => if b1 = 1 then 2 else 1
  | 0x1106 => if b0 = 3 || b0 = 4 then 2 else 1
  | 0x1201 => 2
  | 0x1202 => 2
  | 0x0304 => 0
  | 0x0E02 => 0
  | 0x0E04 => 0
  | 0x080A => 0
  | 0x0403 => 0
  | 0x0601 => 0
  | 0x0C03 => 0
  | 0x1301 => 1
  | 0x1302 => 0
  | 0x1303 => 2
  | 0x1401 => if b1 ≤ 1 then 1 else 2
  | 0x1402 => 3
  | 0x1403 => 2
  | 0x1404 => 1
  | 0x1405 => 3
  | 0x1501 => if b0 = 2 || b2 % 8 ≠ 0 then 2 else 1
  | 0x1601 => 2
  | 0x1602 => 1
  | 0x1603 => 2
  | 0x1604 => 1
  | _ => 1

/-- Clove domain of a Clove unit number (R377, R473): 8 decoders, 4 encoders, 2 polar units and 1 turbo unit each. -/
def cloveDomainOf (u : Nat) : Nat :=
  if u < 64 then u / 8 else if u < 96 then (u - 64) / 4 else if u < 112 then (u - 96) / 2 else u - 112

/-- Loss-table index of a source (R518). -/
def lossIndex (cls inst : Nat) : Nat :=
  match cls with
  | 0 => 187
  | 1 => 186
  | 2 => inst
  | 3 => 164 + inst / 16
  | 4 => 64 + inst
  | 5 => 88 + inst
  | 6 => 92 + cloveDomainOf inst
  | 7 => 100 + inst / 16
  | 8 => 180 + inst
  | 9 => 182 + inst
  | 10 => 190 + inst / 128
  | 11 => 196
  | 12 => 188
  | _ => 255

/-- Count a lost event against its source (R527): 32 bits, saturating. -/
def countLoss (s : State) (cls inst : Nat) : State :=
  { s with ev := { s.ev with loss := mapMod s.ev.loss (lossIndex cls inst) 0 fun n => satAdd 32 n 1 } }

/-- Offer an event to the arbiter: queued, or lost where the 256-entry input queue is full (R513, R527). -/
def offer (s : State) (e : EventRec) : State :=
  if s.ev.queue.length < 256 then { s with ev := { s.ev with queue := s.ev.queue ++ [e] } }
  else countLoss s e.cls e.inst

/-- A unit raises an event with the severity that R519 fixes for it. -/
def raise (s : State) (cls inst code : Nat) (detail : List Byte) : State :=
  offer s { cls := cls, inst := inst, code := code, sev := eventSev code detail, detail := detail }

/-- Key of a rate-limited event. -/
def rateKey (code inst : Nat) : Nat := code * 65536 + inst

/-- Count `n` happenings toward a rate-limited event; raise it with the count since the previous one when the
period has passed since it was raised last. -/
def raiseLimited (s : State) (cls inst code key period n : Nat) (detail : Nat → List Byte) : State :=
  let old := mapGet? s.ev.rate (rateKey code key)
  let due := match old with
    | none => true
    | some (t, _) => decide (t + period ≤ s.now)
  let cnt := (match old with | none => 0 | some (_, c) => c) + n
  if due then
    let s1 := raise s cls inst code (detail cnt)
    { s1 with ev := { s1.ev with rate := mapSet s1.ev.rate (rateKey code key) (s.now, 0) } }
  else
    match old with
    | none => s
    | some (t, _) => { s with ev := { s.ev with rate := mapSet s.ev.rate (rateKey code key) (t, cnt) } }

end Sys2Proof.Machine
end

