-- ==== Sys2Proof/Machine/Delaz.lean ====
section
/-! DEFINITION. The Delaz machinery every command shares (R432 to R451): host-port access, MSI-X messages,
replies and the reply ring, the catalogue, and the checks of R443. -/

namespace Sys2Proof.Machine

/-- A host port. -/
def State.hp (s : State) (h : Nat) : HostPort :=
  match h with
  | 0 => s.host.port0
  | 1 => s.host.port1
  | 2 => s.host.port2
  | _ => s.host.port3

/-- The state with a host port replaced. -/
def State.setHp (s : State) (h : Nat) (x : HostPort) : State :=
  match h with
  | 0 => { s with host := { s.host with port0 := x } }
  | 1 => { s with host := { s.host with port1 := x } }
  | 2 => { s with host := { s.host with port2 := x } }
  | _ => { s with host := { s.host with port3 := x } }

/-- Role in force of a command port: the SPI port always acts as OWNER (R434). -/
def State.roleOf (s : State) (port : Nat) : Nat := if port ≥ 4 then 1 else (s.hp port).role

/-! ## MSI-X (R440) -/

/-- Send one MSI-X message on a vector: nothing while MSI-X Enable is 0, pending while masked. -/
def msixSend (s : State) (h v : Nat) : State :=
  let p := s.hp h
  if !p.msixEnable then s
  else if p.msixMask || p.vecMask.getLsbD v then
    s.setHp h { p with pba := p.pba ||| ((1 : BitVec 64) <<< v) }
  else s.setHp h { p with msixSent := mapMod p.msixSent v 0 (· + 1) }

/-- The vectors of INTVEC (R435). -/
def HostPort.replyVec (p : HostPort) : Nat := field p.intvec.toNat 5 0
def HostPort.eventVec (p : HostPort) : Nat := field p.intvec.toNat 13 8
def HostPort.stateVec (p : HostPort) : Nat := field p.intvec.toNat 21 16

/-- Change DEVSTATE and send the state vector to every host (R435, R440). -/
def setDevState (s : State) (v : Nat) : State :=
  if s.boot.devState = v then s
  else
    let s1 := { s with boot := { s.boot with devState := v } }
    (List.range 4).foldl (fun t h => msixSend t h ((t.hp h).stateVec)) s1

/-! ## Replies (R438, R439, R441, R442) -/

/-- The 16 header bytes of a reply; `phase` is bit 0 of byte 14 (R441). -/
def replyHeader (rq : Req) (len st det : Nat) (phase : Bool) : List Byte :=
  leBytes 2 rq.opcode ++ leBytes 2 rq.tag ++ leBytes 2 len ++ leBytes 2 st ++ leBytes 4 rq.seq ++
  leBytes 2 det ++ [BitVec.ofNat 8 (b2n phase), 0]

/-- A header with its phase bit replaced. -/
def withPhase (hdr : List Byte) (phase : Bool) : List Byte := hdr.take 14 ++ [BitVec.ofNat 8 (b2n phase), 0]

/-- Replies pending in the ring (R439). -/
def HostPort.pending (p : HostPort) : Nat := (p.replyWr + 2 ^ 32 - p.replyRd % 2 ^ 32) % 2 ^ 32

/-- Count a discarded reply and report it (R433, R439, R468). -/
def countDiscard (s : State) (h : Nat) : State :=
  let p := s.hp h
  let s1 := s.setHp h { p with replyDiscarded := satAdd 32 p.replyDiscarded 1 }
  raiseLimited s1 9 h 0x0F03 h 19661 1 fun n => leBytes 1 h ++ leBytes 4 n

/-- Write one reply into the ring: payload and CRC first, then the header (R438). -/
def ringWrite (s : State) (h : Nat) (hdr pl : List Byte) : State :=
  let p := s.hp h
  let n := p.replyWr
  let ph := n / p.replySize % 2 = 0
  let hd := withPhase hdr ph
  let crc := leBytes 4 (crc32c (hd ++ pl))
  let a := p.replyBase / 4096 * 4096 + 4096 * (n % p.replySize)
  let m1 := bytesWrite 0 p.mem (a + 16) (pl ++ crc)
  let m2 := bytesWrite 0 m1 a hd
  let was := p.pending
  let s1 := s.setHp h { p with mem := m2, replyWr := (n + 1) % 2 ^ 32, current := none, waiting := none }
  if was = 0 then msixSend s1 h p.replyVec else s1

/-- Write, hold or discard a finished reply of a host port (R439). -/
def hostReply (s : State) (h : Nat) (hdr pl : List Byte) : State :=
  let p := s.hp h
  if p.dropReply then s.setHp h { p with current := none, dropReply := false }
  else if !p.linkUp || p.replySize = 0 then
    countDiscard (s.setHp h { p with current := none }) h
  else if p.replySize ≤ p.pending then s.setHp h { p with waiting := some (hdr ++ pl) }
  else ringWrite s h hdr pl

/-- Free a port without a reply: a QUIET packet that succeeded (R441). -/
def freePort (s : State) (port : Nat) : State :=
  if port ≥ 4 then { s with host := { s.host with spi := { s.host.spi with current := none } } }
  else s.setHp port { s.hp port with current := none, dropReply := false }

/-- Answer a request (R441, R444). -/
def reply (s : State) (rq : Req) (st det : Nat) (pl : List Byte) : State :=
  if rq.quiet && st = 0 then freePort s rq.port
  else
    let hdr := replyHeader rq pl.length st det false
    if rq.port ≥ 4 then
      let crc := leBytes 4 (crc32c (hdr ++ pl))
      { s with host := { s.host with
          spi := { s.host.spi with current := none, reply := some (hdr ++ pl ++ crc), readPos := 0 } } }
    else hostReply s rq.port hdr pl

/-- Answer DZ_OK with a payload. -/
def replyOk (s : State) (rq : Req) (pl : List Byte) : State := reply s rq 0 0 pl

/-- Answer a refusal. -/
def refuse (s : State) (rq : Req) (st det : Nat) : State := reply s rq st det []

/-- Status codes (R444). -/
abbrev dzBadCrc : Nat := 1
abbrev dzBadOp : Nat := 2
abbrev dzBadLen : Nat := 3
abbrev dzBadParam : Nat := 4
abbrev dzRange : Nat := 5
abbrev dzRole : Nat := 6
abbrev dzBusy : Nat := 7
abbrev dzInTest : Nat := 8
abbrev dzNotReady : Nat := 9
abbrev dzLate : Nat := 10
abbrev dzSplit : Nat := 11
abbrev dzRolledBack : Nat := 12
abbrev dzDenied : Nat := 13
abbrev dzAborted : Nat := 14
abbrev dzBooting : Nat := 15
abbrev dzFatal : Nat := 16

/-! ## Catalogue (R449) and checks (R443) -/

/-- One row of the catalogue: roles (bit 0 OWNER, bit 1 OPERATOR, bit 2 OBSERVER), scope types, and the payload
lengths the opcode's rule allows with the required length reported on failure (R443 step 7). -/
structure OpInfo where
  roles : Nat
  scopes : List Nat
  lenOk : Nat → Bool
  need : Nat

/-- A fixed payload length. -/
def opFix (roles : Nat) (scopes : List Nat) (n : Nat) : OpInfo :=
  { roles := roles, scopes := scopes, lenOk := fun k => k = n, need := n }

/-- A range of payload lengths. -/
def opVar (roles : Nat) (scopes : List Nat) (f : Nat → Bool) : OpInfo :=
  { roles := roles, scopes := scopes, lenOk := f, need := 0xFFFF }

/-- The catalogue (R449) with the payload lengths of the commands' own rules. -/
def opInfo (op : Nat) : Option OpInfo :=
  match op with
  | 0x0001 => some (opFix 7 [0] 0)
  | 0x0002 => some (opFix 7 [0] 0)
  | 0x0003 => some (opFix 1 [0] 0)
  | 0x0004 => some (opFix 1 [0] 6)
  | 0x0005 => some (opFix 1 [0] 8)
  | 0x0006 => some (opVar 1 [0] fun n => 5 ≤ n && n ≤ 4068)
  | 0x0101 => some (opVar 7 [0] fun _ => true)
  | 0x0102 => some (opVar 3 [0] fun _ => true)
  | 0x0103 => some (opVar 3 [0] fun n => 8 ≤ n)
  | 0x0104 => some (opFix 3 [0] 16)
  | 0x0105 => some (opFix 7 [0, 1, 2, 3] 0)
  | 0x0201 => some (opFix 7 [3] 0)
  | 0x0202 => some (opVar 7 [3] fun n => 2 ≤ n && n ≤ 128 && n % 2 = 0)
  | 0x0203 => some (opFix 7 [3] 4)
  | 0x0301 => some (opVar 3 [0] fun n => 9 ≤ n && n ≤ 4076)
  | 0x0302 => some (opFix 3 [0] 8)
  | 0x0303 => some (opFix 3 [0] 136)
  | 0x0304 => some (opFix 7 [0] 0)
  | 0x0305 => some (opVar 3 [0] fun n => 72 ≤ n && n ≤ 4040 && (n - 8) % 64 = 0)
  | 0x0306 => some (opVar 3 [0] fun n => 4 ≤ n && n ≤ 4076 && n % 4 = 0)
  | 0x0307 => some (opVar 7 [0] fun n => 2 ≤ n && n ≤ 1018 && n % 2 = 0)
  | 0x0308 => some (opFix 7 [0] 16)
  | 0x0401 => some (opFix 7 [0] 0)
  | 0x0402 => some (opFix 7 [0] 8)
  | 0x0403 => some (opFix 7 [0] 0)
  | 0x0404 => some (opFix 1 [0] 8)
  | 0x0405 => some (opFix 1 [0] 0)
  | 0x0406 => some (opFix 3 [0] 24)
  | 0x0407 => some (opFix 3 [2] 2)
  | 0x0408 => some (opVar 3 [2] fun n => 64 ≤ n && n ≤ 1536)
  | 0x0409 => some (opFix 3 [0] 24)
  | 0x040A => some (opFix 3 [0] 8)
  | 0x040B => some (opFix 7 [0] 0)
  | 0x0501 => some (opFix 1 [0] 24)
  | 0x0502 => some (opFix 1 [8] 0)
  | 0x0503 => some (opFix 7 [0] 0)
  | 0x0504 => some (opFix 1 [8] 0)
  | 0x0505 => some (opFix 3 [7] 8)
  | 0x0506 => some (opFix 3 [7] 0)
  | 0x0507 => some (opFix 3 [7] 0)
  | 0x0508 => some (opFix 7 [7] 0)
  | 0x0601 => some (opFix 7 [0] 0)
  | 0x0602 => some (opFix 1 [0] 8)
  | 0x0701 => some (opFix 7 [1] 0)
  | 0x0702 => some (opFix 1 [3] 16)
  | 0x0703 => some (opFix 1 [3] 16)
  | 0x0801 => some (opFix 7 [6] 0)
  | 0x0802 => some (opFix 3 [2] 0)
  | 0x0803 => some (opFix 3 [2] 0)
  | 0x0804 => some (opFix 3 [0] 8)
  | 0x0805 => some (opFix 3 [6] 0)
  | 0x0806 => some (opFix 7 [0] 8)
  | 0x0807 => some (opFix 7 [2] 0)
  | 0x0808 => some (opFix 7 [2] 8)
  | 0x0809 => some (opFix 7 [0] 0)
  | 0x080A => some (opFix 3 [4, 5] 0)
  | 0x080B => some (opFix 1 [4, 5] 0)
  | 0x080C => some (opFix 7 [4, 5] 0)
  | 0x0901 => some (opFix 7 [0] 8)
  | 0x0902 => some (opFix 7 [0] 2)
  | 0x0903 => some (opFix 7 [0] 0)
  | 0x0A01 => some (opFix 1 [0] 0)
  | 0x0A02 => some (opFix 1 [0] 192)
  | 0x0A03 => some (opFix 1 [0] 0)
  | 0x0A04 => some (opFix 7 [0] 0)
  | 0x0B01 => some (opFix 7 [0] 0)
  | 0x0B02 => some (opFix 7 [0] 4)
  | _ => none

/-- Instances of a scope type (R445). -/
def scopeLimit (sc : Nat) : Nat :=
  match sc with
  | 0 => 1
  | 1 => 1
  | 2 => 64
  | 3 => 1024
  | 4 => 1024
  | 5 => 120
  | 6 => 256
  | 7 => 768
  | 8 => 32
  | _ => 0

/-- Key of a unit in the self-test records: cores, then Clove units. -/
def testKey (scope inst : Nat) : Nat := if scope = 4 then inst else 1024 + inst

/-- A unit's self-test record. -/
def State.unitTest (s : State) (k : Nat) : UnitTest := mapGet s.test.units k {}

/-- A unit counts as under test from its drain request until it returns to service (R530). -/
def State.underTest (s : State) (k : Nat) : Bool := (s.unitTest k).st = 2 || (s.unitTest k).st = 3

/-- Length of a unit's test, Tc: a Facet core (R530), an LDPC decoder, an LDPC encoder or polar unit, a turbo unit
(R330). -/
def testLen (k : Nat) : Nat :=
  if k < 1024 then 393216 else if k < 1088 then 196608 else if k < 1136 then 98304 else 393216

/-- Remaining test time in Tc (R531): while the unit drains, the whole test time (R530). -/
def State.testLeft (s : State) (k : Nat) : Nat :=
  let u := s.unitTest k
  if u.st = 2 then testLen k else if u.st = 3 then u.until_ - s.now else 0

/-- The detail of DZ_UNIT_IN_TEST (R446): units of 19,661 Tc, rounded up, saturating. -/
def testDetail (tc : Nat) : Nat := min (ceilDiv tc 19661) 65535

/-- Opcodes a port executes while the device boots or has failed to boot (R450, R467). -/
def bootAllowed (failed : Bool) (port op : Nat) : Bool :=
  if port ≥ 4 then op = 1 || op = 2 || op = 4 || op = 5 || op = 6
  else if failed then op / 256 = 0
  else op = 1 || op = 2

/-- Groups that SAFE state refuses (R295, R443 step 6). -/
def safeGroup (op : Nat) : Bool :=
  (1 ≤ op / 256 && op / 256 ≤ 8) || op / 256 = 0x0B

/-- Steps 3 to 10 of R443: the first that fails gives status and detail. -/
def headCheck (s : State) (rq : Req) (len : Nat) : Option (Nat × Nat) :=
  let ds := s.boot.devState
  if (ds = 0 || ds = 5) && !bootAllowed (ds = 5) rq.port rq.opcode then some (dzBooting, if ds = 5 then 1 else 0)
  else match opInfo rq.opcode with
    | none => some (dzBadOp, 0)
    | some o =>
      let role := s.roleOf rq.port
      if role = 0 || role > 3 || !bit o.roles (role - 1) then some (dzRole, role)
      else if ds = 4 && safeGroup rq.opcode then some (dzFatal, 0)
      else if !o.lenOk len then some (dzBadLen, o.need)
      else if !o.scopes.contains rq.scope then some (dzBadParam, 0xFFFF)
      else if scopeLimit rq.scope ≤ rq.inst then some (dzRange, 0xFFFF)
      else if (rq.scope = 4 || rq.scope = 5) && rq.opcode ≠ 0x080B && rq.opcode ≠ 0x080C &&
          s.underTest (testKey rq.scope rq.inst) then
        some (dzInTest, testDetail (s.testLeft (testKey rq.scope rq.inst)))
      else none

/-- The port still has a packet without a reply (R447). -/
def State.portBusy (s : State) (port : Nat) : Bool :=
  if port ≥ 4 then s.host.spi.current.isSome || s.host.spi.reply.isSome
  else (s.hp port).current.isSome

/-- Accept a packet of a port (R447). -/
def acceptReq (s : State) (rq : Req) : State :=
  if rq.port ≥ 4 then
    { s with host := { s.host with lastPort := 4, spi := { s.host.spi with current := some rq, packet := none } } }
  else
    let s1 := s.setHp rq.port { s.hp rq.port with current := some rq, dropReply := false }
    { s1 with host := { s1.host with lastPort := rq.port } }

/-- No packet is accepted from a port: one of its packets still has no reply (R447), the SPI port is not enabled (R467),
or the device has no power or is held in reset. -/
def State.portShut (s : State) (port : Nat) : Bool :=
  s.portBusy port || (4 ≤ port && !s.host.spi.enabled) || s.boot.rstLow || s.boot.off

/-- An accepted packet after its CRC: the length of step 1 and the checks of R443 from step 3 on, then `body`. -/
def runChecked (s : State) (rq : Req) (pl : List Byte) (body : Req → List Byte → State → State) : State :=
  if 4076 < pl.length then refuse s rq dzBadLen 0xFFFF
  else match headCheck s rq pl.length with
    | some (st, det) => refuse s rq st det
    | none => body rq pl s

/-- A Delaz command row: the packet is accepted, checked under R443 and executed by `body`; nothing happens while
its port is shut. -/
def delaz (op : Nat) (rq : Req) (pl : List Byte) (s : State) (body : Req → List Byte → State → State) : State :=
  let rq1 := { rq with opcode := op }
  if s.portShut rq.port then s else runChecked (acceptReq s rq1) rq1 pl body

end Sys2Proof.Machine
end

