-- ==== Sys2Proof/Machine/Safe.lean ====
section
/-! DEFINITION. Entry to SAFE state (R295, R448, R481, R532, R533): the event, DEVSTATE, the waiting self-tests and
the wait phases of commands. -/

namespace Sys2Proof.Machine

/-- The device generation (R483). -/
def State.deviceGen (s : State) : Nat := mapGet s.cfg.gens 0 0

/-- The payload of a CFG_ARM reply (R480): units with a reason. -/
def armPayload (s : State) (k : Commit) (l : List (Nat × Nat)) : List Byte :=
  leBytes 4 s.deviceGen ++ leBytes 2 k.units.length ++ leBytes 2 l.length ++
  l.flatMap fun e => leBytes 2 e.1 ++ leBytes 1 e.2 ++ [0]

/-- CFG_CANCELLED (R488). -/
def cancelledEvt (s : State) (k : Commit) (cause : Nat) (l : List (Nat × Nat)) : State :=
  raise s 0 0 0x1002 (leBytes 1 k.req.port ++ leBytes 1 cause ++ leBytes 2 l.length ++
    leBytes 2 ((l.head?.map fun e => e.1).getD 0xFFFF) ++ leBytes 1 ((l.head?.map fun e => e.2).getD 0) ++ [0] ++
    leBytes 8 k.t)

/-- What SAFE state does to a commit (R481): cancelled before T, marked from T onward. -/
def safeCommit (s : State) : State :=
  match s.cfg.commit with
  | none => s
  | some k =>
    if k.stage < 2 then
      let s1 := cancelledEvt s.endCommit k 1 []
      reply s1 k.req dzAborted 1 (armPayload s1 k [])
    else { s with cfg := { s.cfg with commit := some { k with safe := true } } }

/-- A TIME_SWITCH in its wait phase ends (R37, R448). -/
def safeSwitch (s : State) : State :=
  match s.time.switchWait with
  | some w => reply { s with time := { s.time with switchWait := none } } w.req dzAborted 0 []
  | none => s

/-- A KERNEL_PLACE in its wait phase ends; cores not yet loaded keep their code (R448, R461). -/
def safePlace (s : State) : State :=
  match s.host.placeWait with
  | some w =>
    let drains := s.mill.drains.filter fun e => !w.left.contains e.1
    reply { s with host := { s.host with placeWait := none }, mill := { s.mill with drains := drains } }
      w.req dzAborted 0 []
  | none => s

/-- A POWER_STATE_SET in its wait phase ends (R448, R541). -/
def safePower (s : State) : State :=
  match s.power.wait with
  | some w => reply { s with power := { s.power with wait := none } } w.req dzAborted 0 []
  | none => s

/-- TAKEOVER and MIGRATE in their wait phases end (R448, R506, R507). -/
def safePool (s : State) : State :=
  let s1 := { s with pool := { s.pool with takeovers := [], migrations := [] } }
  let s2 := s.pool.takeovers.foldl (fun t e => reply t e.2.req dzAborted 0 []) s1
  s.pool.migrations.foldl (fun t e => reply t e.2.req dzAborted 0 []) s2

/-- Waiting self-tests are dropped (R533). -/
def safeTests (s : State) : State :=
  { s with test := { s.test with
      waiting := []
      units := s.test.units.map fun e => (e.1, if e.2.st = 1 then { e.2 with st := 0 } else e.2) } }

/-- Enter SAFE state, on the first cause only (R532): cause 0 vote failures, 1 Mill state, 2 integrity violation
(`slc` 0) or stuck link (`slc` 1). -/
def enterSafe (s : State) (cause slc : Nat) : State :=
  if s.boot.devState = 4 then s
  else
    let s1 := raise s 5 (if cause = 2 then 0 else slc) 0x0805 (leBytes 1 slc ++ leBytes 1 cause)
    safePool (safePower (safePlace (safeSwitch (safeCommit (safeTests (setDevState s1 4))))))

end Sys2Proof.Machine
end

