-- ==== Sys2Proof/Machine/Digest.lean ====
section
/-! DEFINITION. Generations and fingerprints of the configuration (R483 to R486). -/

namespace Sys2Proof.Machine

/-- A scope of R484. -/
inductive Scope where
  | device
  | pool
  | port (n : Nat)
  | carrier (c : Nat)
  deriving DecidableEq, Repr

/-- Key of a scope's generation. -/
def Scope.key (x : Scope) : Nat :=
  match x with
  | .device => 0
  | .pool => 1
  | .port n => 2 + n
  | .carrier c => 66 + c

/-- IDs of the staged parameters in ascending order. -/
def stagedIds : List Nat :=
  (List.range 0x1700).filter fun id => match paramSpec id with | some p => p.staged | none => false

/-- IDs whose path begins `eaxc[x]`, of the staged ones (R166, R348). -/
def isEaxcId (id : Nat) : Bool := (0x061C ≤ id && id ≤ 0x061F) || id = 0x0A09

/-- Carrier of an instance of a parameter whose path begins `carrier[c]`; none for another path. -/
def carrierOf (id inst : Nat) : Option Nat :=
  if 0x0301 ≤ id && id ≤ 0x0304 then some inst
  else if 0x0607 ≤ id && id ≤ 0x0616 then some (if id = 0x060D || id = 0x060F then inst / 2 else inst)
  else if 0x0617 ≤ id && id ≤ 0x0619 then some (inst / 3)
  else if id = 0x061A || id = 0x061B || id = 0x0904 then some inst
  else if id = 0x0A03 || (0x0A0A ≤ id && id ≤ 0x0A0D) then some inst
  else if 0x0A04 ≤ id && id ≤ 0x0A08 then some (inst / 16)
  else if id = 0x1001 || (0x1108 ≤ id && id ≤ 0x110B) then some inst
  else none

/-- Port of an instance of a parameter whose path begins `port[n]` or `time.port[n]`, or of a lane's parameter. -/
def portOf (id inst : Nat) : Option Nat :=
  if 0x0501 ≤ id && id ≤ 0x0505 then some inst
  else if id = 0x0506 then some (inst / 2)
  else if 0x0601 ≤ id && id ≤ 0x0606 then some inst
  else if id = 0x0210 then some inst
  else if 0x0401 ≤ id && id ≤ 0x0405 then some (inst / 4)
  else none

/-- Parameters of pool scope (R511). -/
def isPoolId (id : Nat) : Bool := (0x1102 ≤ id && id ≤ 0x1104) || (0x1108 ≤ id && id ≤ 0x110B)

/-- A staged parameter instance is a member of a scope, with the carrier of an `eaxc[x]` parameter given (R484). -/
def memberOf (x : Scope) (id inst eaxcCarrier : Nat) : Bool :=
  match x with
  | .device => true
  | .pool => isPoolId id
  | .port n => portOf id inst = some n
  | .carrier c => carrierOf id inst = some c || (isEaxcId id && eaxcCarrier = c)

/-- One record of the serialisation (R485). -/
def digestRecord (s : State) (id inst size : Nat) : List Byte := leBytes 2 id ++ leBytes 2 inst ++ leBytes size (s.param id inst)

/-- The canonical serialisation of a scope (R485). -/
def serialisation (s : State) (x : Scope) : List Byte :=
  stagedIds.flatMap fun id =>
    match paramSpec id with
    | none => []
    | some p =>
      ((List.range p.insts).filter fun i => !p.badInst i && memberOf x id i (s.param 0x061C i)).flatMap fun i =>
        digestRecord s id i p.size

/-- The fingerprint (R485). -/
def fingerprint (s : State) (x : Scope) : Nat := crc64xz (serialisation s x)

/-- The generation of a scope (R483). -/
def generation (s : State) (x : Scope) : Nat := mapGet s.cfg.gens x.key 0

/-- A commit is between T and its outcome (R486): the swap has fired and no outcome yet. -/
def commitOpen (s : State) : Bool := match s.cfg.commit with | some k => k.stage = 2 | none => false

/-- CFG_DIGEST (R486): the scope that the header names. -/
def cmdCfgDigest (rq : Req) (_ : List Byte) (s : State) : State :=
  let x := match rq.scope with
    | 1 => Scope.pool
    | 2 => Scope.port rq.inst
    | 3 => Scope.carrier rq.inst
    | _ => Scope.device
  replyOk s rq (leBytes 4 (generation s x) ++ leBytes 1 (b2n (commitOpen s)) ++ leBytes 3 0 ++
    leBytes 8 (fingerprint s x) ++ leBytes 8 (mapGet s.cfg.genTimes x.key 0))

end Sys2Proof.Machine
end

