-- ==== Sys2Proof/Machine/Float.lean ====
section
/-! DEFINITION. Floating point (R226, R251): binary16, bfloat16, binary32 as sign, infinity and rational value,
rounded to nearest with ties to even, and binary64 arithmetic on rationals for the Solve unit. -/

namespace Sys2Proof.Machine

/-- A floating-point value; `fin n q` is the magnitude q with sign n (true negative). -/
inductive FVal where
  | nan
  | inf (neg : Bool)
  | fin (neg : Bool) (q : Rat)
  deriving DecidableEq, Repr

/-- A binary format: exponent and fraction bits. -/
structure FFmt where
  eb : Nat
  mb : Nat

abbrev fmt16 : FFmt := ⟨5, 10⟩
abbrev fmtB16 : FFmt := ⟨8, 7⟩
abbrev fmt32 : FFmt := ⟨8, 23⟩

/-- Exponent bias. -/
def FFmt.bias (f : FFmt) : Int := (2 ^ (f.eb - 1) : Nat) - 1

/-- 2^e for an integer e. -/
def pow2 (e : Int) : Rat := if 0 ≤ e then ((2 ^ e.toNat : Nat) : Rat) else 1 / ((2 ^ (-e).toNat : Nat) : Rat)

/-- The value of a pattern; a subnormal input is a zero of the same sign (R226). -/
def decodeF (f : FFmt) (x : Nat) : FVal :=
  let s := bit x (f.eb + f.mb)
  let e := x / 2 ^ f.mb % 2 ^ f.eb
  let m := x % 2 ^ f.mb
  if e = 2 ^ f.eb - 1 then (if m = 0 then .inf s else .nan)
  else if e = 0 then .fin s 0
  else .fin s (((2 ^ f.mb + m : Nat) : Rat) * pow2 ((e : Int) - f.bias - f.mb))

/-- The greatest e with 2^e ≤ q, for q > 0. -/
def floorLog2 (q : Rat) : Int :=
  let e := (q.num.toNat.log2 : Int) - (q.den.log2 : Int)
  if pow2 e ≤ q then e else e - 1

/-- The nearest integer to q ≥ 0, ties to even. -/
def roundEven (q : Rat) : Nat :=
  let n := q.floor.toNat
  let d := q - (n : Rat)
  if d < 1 / 2 then n else if 1 / 2 < d then n + 1 else if n % 2 = 0 then n else n + 1

/-- The canonical quiet NaN (R226). -/
def nanBits (f : FFmt) : Nat := (2 ^ f.eb - 1) * 2 ^ f.mb + 2 ^ (f.mb - 1)
def infBits (f : FFmt) (s : Bool) : Nat := b2n s * 2 ^ (f.eb + f.mb) + (2 ^ f.eb - 1) * 2 ^ f.mb
def zeroBits (f : FFmt) (s : Bool) : Nat := b2n s * 2 ^ (f.eb + f.mb)

/-- The pattern of a value rounded to nearest, ties to even, and whether it overflowed; a subnormal result is a zero
of the same sign (R226). -/
def encodeF (f : FFmt) (v : FVal) : Nat × Bool :=
  match v with
  | .nan => (nanBits f, false)
  | .inf s => (infBits f s, false)
  | .fin s q =>
    if q ≤ 0 then (zeroBits f s, false)
    else
      let emin := 1 - f.bias
      let e0 := max (floorLog2 q) emin
      let n0 := roundEven (q / pow2 (e0 - f.mb))
      let (e, n) := if n0 = 2 ^ (f.mb + 1) then (e0 + 1, 2 ^ f.mb) else (e0, n0)
      if n < 2 ^ f.mb then (zeroBits f s, false)
      else if f.bias < e then (infBits f s, true)
      else (b2n s * 2 ^ (f.eb + f.mb) + (e + f.bias).toNat * 2 ^ f.mb + (n - 2 ^ f.mb), false)

/-- A signed rational as a finite value; `zneg` is the sign of an exact zero. -/
def ofRat (q : Rat) (zneg : Bool) : FVal := if q = 0 then .fin zneg 0 else .fin (decide (q < 0)) (if q < 0 then -q else q)

/-- The rational of a finite value. -/
def signed (s : Bool) (q : Rat) : Rat := if s then -q else q

/-- The sum, and whether the operation is invalid. -/
def fAdd (a b : FVal) : FVal × Bool :=
  match a, b with
  | .nan, _ => (.nan, true)
  | _, .nan => (.nan, true)
  | .inf s, .inf t => if s = t then (.inf s, false) else (.nan, true)
  | .inf s, _ => (.inf s, false)
  | _, .inf t => (.inf t, false)
  | .fin s p, .fin t q => (ofRat (signed s p + signed t q) (s && t), false)

/-- The value with its sign changed. -/
def fNeg (a : FVal) : FVal :=
  match a with
  | .nan => .nan
  | .inf s => .inf !s
  | .fin s q => .fin (!s) q

/-- The product, and whether the operation is invalid. -/
def fMul (a b : FVal) : FVal × Bool :=
  match a, b with
  | .nan, _ => (.nan, true)
  | _, .nan => (.nan, true)
  | .inf s, .inf t => (.inf (s != t), false)
  | .inf s, .fin t q => if q = 0 then (.nan, true) else (.inf (s != t), false)
  | .fin s p, .inf t => if p = 0 then (.nan, true) else (.inf (s != t), false)
  | .fin s p, .fin t q => (.fin (s != t) (p * q), false)

/-- d + a × b as one exact value, and whether the operation is invalid. -/
def fFma (d a b : FVal) : FVal × Bool :=
  let (p, i) := fMul a b
  let (r, j) := fAdd d p
  (r, i || j || d = .nan)

/-- a < b; none where an operand is NaN. -/
def fLt (a b : FVal) : Option Bool :=
  match a, b with
  | .nan, _ => none
  | _, .nan => none
  | .inf s, .inf t => some (s && !t)
  | .inf s, .fin _ _ => some s
  | .fin _ _, .inf t => some !t
  | .fin s p, .fin t q => some (decide (signed s p < signed t q))

/-- a = b; none where an operand is NaN. -/
def fEq (a b : FVal) : Option Bool :=
  match a, b with
  | .nan, _ => none
  | _, .nan => none
  | .fin s p, .fin t q => some (decide (signed s p = signed t q))
  | a, b => some (decide (a = b))

/-- Minimum or maximum (R226): the other operand where one is NaN; −0 is less than +0. -/
def fMinMax (max_ : Bool) (a b : FVal) : FVal × Bool :=
  match a, b with
  | .nan, .nan => (.nan, true)
  | .nan, b => (b, true)
  | a, .nan => (a, true)
  | a, b =>
    let lt := match a, b with
      | .fin s p, .fin t q => if p = 0 && q = 0 then s && !t else decide (signed s p < signed t q)
      | a, b => (fLt a b).getD false
    (if lt = max_ then b else a, false)

/-- A result written in a format, with what R222 traps: an invalid operation or an overflow. -/
def fResult (f : FFmt) (r : FVal × Bool) : Nat × Bool :=
  let (bits, ov) := encodeF f r.1
  (bits, r.2 || ov)

/-! ## Binary64 on rationals (R251) -/

/-- A rational rounded to 53 significant bits, to nearest with ties to even. -/
def r64 (q : Rat) : Rat :=
  if q = 0 then 0
  else
    let a := if q < 0 then -q else q
    let u := pow2 (max (floorLog2 a) (-1022) - 52)
    let r : Rat := (roundEven (a / u) : Rat) * u
    if q < 0 then -r else r

/-- The greatest integer whose square is at most x, for x below 2^256. -/
def isqrt (x : Nat) : Nat :=
  (List.range 128).foldl (fun r i =>
    let c := r + 2 ^ (127 - i)
    if c * c ≤ x then c else r) 0

/-- The square root rounded to binary64 (R251). -/
def sqrt64 (q : Rat) : Rat :=
  if q ≤ 0 then 0
  else
    let e := floorLog2 q / 2
    let sh := pow2 (60 - e)
    let x := q * sh * sh
    let n := isqrt x.floor.toNat
    let exact : Bool := decide ((n : Rat) * n = x)
    let v : Rat := if exact then (n : Rat) else (n : Rat) + 1 / 2
    r64 (v / sh)

/-- The nearest integer to a rational, ties to even. -/
def roundEvenInt (q : Rat) : Int := if q < 0 then -((roundEven (-q) : Nat) : Int) else ((roundEven q : Nat) : Int)

/-- The nearest integer to a rational, halves away from zero (R246). -/
def roundAway (q : Rat) : Int := if q < 0 then -((-q + 1 / 2).floor) else (q + 1 / 2).floor

end Sys2Proof.Machine
end

