-- ==== Sys2Proof/Machine/Coding.lean ====
section
/-! DEFINITION. Bit strings, CRCs and the channel codes that Clove runs (R309, R318 to R320).  The manual names
TS 38.212 and TS 36.212 without printing them: their closed formulas are written out here (PRESUMED,
`notes/assumptions/9.md`); their printed tables are opaque (`Config.ldpcRow`, `Config.polarOrder`,
`Config.polarInterleave`, `Config.qpp`). -/

namespace Sys2Proof.Machine

/-! ## Bits (R309) -/

/-- The first n bits of a byte string, bit 7 of each byte first. -/
def bitsFrom (bs : List Byte) (n : Nat) : List Bool := (List.range n).map fun i => (bs.getD (i / 8) 0).getLsbD (7 - i % 8)

/-- A bit string packed into bytes, unused bits zero. -/
def packBits (bits : List Bool) : List Byte :=
  (List.range (ceilDiv bits.length 8)).map fun k =>
    BitVec.ofNat 8 ((List.range 8).foldl (fun a i => a * 2 + b2n (bits.getD (8 * k + i) false)) 0)

/-- The CRC of a bit string under a polynomial of L bits, as bits. -/
def crcBits (poly len : Nat) (bits : List Bool) : List Bool :=
  let r := bits.foldl (fun c b =>
    let top := bit c (len - 1) != b
    let s := c * 2 % 2 ^ len
    if top then s ^^^ poly else s) 0
  (List.range len).map fun i => bit r (len - 1 - i)

/-- Polynomial and length of a CRC code (R307). -/
def crcCode (c : Nat) : Nat × Nat :=
  match c with
  | 1 => (0x1021, 16)
  | 2 => (0x864CFB, 24)
  | 3 => (0x800063, 24)
  | 4 => (0x621, 11)
  | 5 => (0x21, 6)
  | _ => (0, 0)

/-- A string ends with the CRC of what precedes it. -/
def crcMatches (c : Nat) (bits : List Bool) : Bool :=
  let (p, l) := crcCode c
  decide (bits.drop (bits.length - l) = crcBits p l (bits.take (bits.length - l)))

/-- A string with its CRC. -/
def withCrc (c : Nat) (bits : List Bool) : List Bool := bits ++ crcBits (crcCode c).1 (crcCode c).2 bits

/-- A received LLR (R309), and 1 where −128 is read as −127. -/
def llrOf (b : Byte) : Int × Nat := if b = 0x80 then (-127, 1) else (b.toInt, 0)

def sat127 (x : Int) : Int := clampInt (-127) 127 x
def sat511 (x : Int) : Int := clampInt (-511) 511 x

/-! ## LDPC parity (R318 step 3) -/

/-- One step of Gauss-Jordan elimination over GF(2): rows are bit masks, `i` the unknown that is solved. -/
def gf2Step (st : List Nat × List Nat) (i : Nat) : List Nat × List Nat :=
  match st.2.find? fun r => r.testBit i with
  | none => st
  | some p =>
    let f := fun (r : Nat) => if r.testBit i then r ^^^ p else r
    (st.1.map f ++ [p], (st.2.erase p).map f)

/-- Unknown i of a system of `n` unknowns whose rows hold the constant in bit n. -/
def gf2Solve (n : Nat) (rows : List Nat) : List Bool :=
  let sol := ((List.range n).foldl gf2Step ([], rows)).1
  (List.range n).map fun i => match sol.find? fun r => r.testBit i with
    | some r => r.testBit n
    | none => false

/-- The parity bits of an LDPC codeblock (TS 38.212 clause 5.3.2): those that meet every check of the base graph.  The
first four parity columns are solved together; each later one stands alone in its row. -/
def ldpcParity (bg z : Nat) (sys : List Bool) : List Bool :=
  let kb := if bg = 1 then 22 else 10
  let known := sys.toArray
  let sum := fun (l r : Nat) (v : Nat → Bool) (keep : Nat → Bool) =>
    (Config.ldpcRow bg z l).foldl (fun a e => if keep e.1 then a != v (e.1 * z + (r + e.2) % z) else a) false
  let row := fun (x : Nat) =>
    let l := x / z
    let r := x % z
    let mask := (Config.ldpcRow bg z l).foldl (fun a e =>
      if kb ≤ e.1 && decide (e.1 < kb + 4) then a ^^^ 2 ^ ((e.1 - kb) * z + (r + e.2) % z) else a) 0
    mask + b2n (sum l r (fun k => known.getD k false) fun c => decide (c < kb)) * 2 ^ (4 * z)
  let core := gf2Solve (4 * z) ((List.range (4 * z)).map row)
  let all := (sys ++ core).toArray
  core ++ (List.range ((if bg = 1 then 42 else 38) * z)).map fun x =>
    sum (4 + x / z) (x % z) (fun k => all.getD k false) fun c => decide (c < kb + 4)

/-! ## Polar codes (R319) -/

/-- CRC length of a polar job. -/
def polarCrc (ch a : Nat) : Nat := if ch < 2 then 24 else if a ≤ 19 then 6 else 11

/-- CRC bits of a polar payload: CRC24C, for DCI over 24 ones and the payload with the RNTI over its last 16 bits; CRC6 or
CRC11 for UCI (TS 38.212 clauses 5.1, 7.3.2 and 6.3.1.2). -/
def polarCrcBits (ch a rnti : Nat) (bits : List Bool) : List Bool :=
  match ch with
  | 0 => crcBits 0xB2B117 24 bits
  | 1 => (crcBits 0xB2B117 24 (List.replicate 24 true ++ bits)).zipIdx.map fun (b, i) => b != (decide (8 ≤ i) && bit rnti (23 - i))
  | _ => if a ≤ 19 then crcBits 0x21 6 bits else crcBits 0x621 11 bits

/-- Mother-code length N of TS 38.212 clause 5.3.1. -/
def polarN (ch k e : Nat) : Nat :=
  let l := (e - 1).log2 + 1
  let n1 := if 8 * e ≤ 9 * 2 ^ (l - 1) && 16 * k < 9 * e then l - 1 else l
  let n2 := (8 * k - 1).log2 + 1
  2 ^ max (min (min n1 n2) (if ch < 2 then 9 else 10)) 5

/-- Segments of a polar payload and the bits and coded bits of each (TS 38.212 clauses 5.2.1 and 6.3.1.4). -/
def polarSegments (ch a e : Nat) : Nat × Nat × Nat :=
  if ch = 2 && (decide (1013 ≤ a) || (decide (360 ≤ a) && decide (1088 ≤ e))) then (2, ceilDiv a 2, e / 2) else (1, a, e)

/-- The sub-block interleaver of clause 5.4.1.1. -/
def polarSub (n i : Nat) : Nat :=
  [0, 1, 2, 4, 3, 5, 6, 7, 8, 16, 9, 17, 10, 18, 11, 19, 12, 20, 13, 21, 14, 22, 15, 23, 24, 25, 26, 28, 27, 29, 30, 31].getD
    (32 * i / n) 0 * (n / 32) + i % (n / 32)

/-- Indices that rate matching freezes (clause 5.4.1.1). -/
def polarPreFrozen (n k e : Nat) : List Nat :=
  if n ≤ e then []
  else if 16 * k ≤ 7 * e then
    ((List.range (n - e)).map (polarSub n)) ++
      List.range (if 3 * n ≤ 4 * e then ceilDiv (3 * n - 2 * e) 4 else ceilDiv (9 * n - 4 * e) 16)
  else ((List.range n).drop e).map (polarSub n)

/-- Parity-check bits of a codeblock: 3 for UCI payloads of 12 to 19 bits (R319). -/
def polarNpc (ch a : Nat) : Nat := if ch = 2 && decide (a ≤ 19) then 3 else 0

/-- Information indices, those of parity-check bits among them, in order of rising reliability (clause 5.3.1.2). -/
def polarInfo (n k npc e : Nat) : List Nat :=
  let pre := polarPreFrozen n k e
  let l := Config.polarOrder.filter fun i => decide (i < n) && !pre.contains i
  l.drop (l.length - (k + npc))

/-- Ones in the binary form of an index below 1,024. -/
def ones10 (i : Nat) : Nat := ((List.range 10).filter fun b => i.testBit b).length

/-- Indices of the parity-check bits (clause 5.3.1.2): the least reliable ones, and one of least row weight where the code
is long. -/
def polarPc (k npc e : Nat) (info : List Nat) : List Nat :=
  if npc = 0 then []
  else
    let wm := if k + 192 < e + 3 then 1 else 0
    let rest := info.drop npc
    let w := rest.foldl (fun a i => min a (ones10 i)) 10
    info.take (npc - wm) ++ if wm = 0 then [] else ((rest.filter fun i => ones10 i = w).getLast?).toList

/-- The interleaver of clause 5.3.1.1 on K bits: bit k of the result is bit Π(k). -/
def polarPi (k : Nat) : List Nat := (Config.polarInterleave.filter fun m => decide (164 - k ≤ m)).map fun m => m - (164 - k)

/-- The parity-check value at index i: the sum of the information bits five, ten, … places before it (clause 5.3.1.2). -/
def polarPcBit (info pc : List Nat) (u : List Bool) : Bool :=
  u.zipIdx.foldl (fun a (b, m) => if m % 5 = u.length % 5 && info.contains m && !pc.contains m then a != b else a) false

/-- The input vector u of a codeblock. -/
def polarU (n : Nat) (info pc : List Nat) (bits : List Bool) : List Bool :=
  ((List.range n).foldl (fun (st : List Bool × List Bool) i =>
    if pc.contains i then (st.1 ++ [polarPcBit info pc st.1], st.2)
    else if info.contains i then (st.1 ++ [st.2.headD false], st.2.tail)
    else (st.1 ++ [false], st.2)) ([], bits)).1

/-- u times the Kronecker power of the polar kernel, for 2^l bits. -/
def polarX (l : Nat) (u : List Bool) : List Bool :=
  match l with
  | 0 => u
  | k + 1 =>
    let b := polarX k (u.drop (2 ^ k))
    List.zipWith (fun x y => x != y) (polarX k (u.take (2 ^ k))) b ++ b

/-- Where each of E coded bits stands among the N of the sub-block interleaver's output (clause 5.4.1.2). -/
def polarSelect (n k e i : Nat) : Nat := if n ≤ e then i % n else if 16 * k ≤ 7 * e then i + (n - e) else i

/-- The order in which the triangular interleaver of clause 5.4.1.3 sends E bits; the identity where it is off. -/
def polarOut (ch e : Nat) : List Nat :=
  if ch < 2 then List.range e
  else
    let t := ((List.range (e + 1)).find? fun t => decide (2 * e ≤ t * (t + 1))).getD e
    let start := fun (r : Nat) => r * t - r * (r - 1) / 2
    (List.range t).flatMap fun c => ((List.range (t - c)).map fun r => start r + c).filter fun p => decide (p < e)

/-- Polar encoding of one codeblock of a channel into E bits (R319). -/
def polarEncode (ch : Nat) (payload : List Bool) (e rnti : Nat) : List Bool :=
  let c := payload ++ polarCrcBits ch payload.length rnti payload
  let k := c.length
  let npc := polarNpc ch payload.length
  let n := polarN ch k e
  let info := polarInfo n k npc e
  let bits := if ch < 2 then (polarPi k).map fun i => c.getD i false else c
  let d := (polarX n.log2 (polarU n info (polarPc k npc e info) bits)).toArray
  (polarOut ch e).map fun i => d.getD (polarSub n (polarSelect n k e i)) false

/-- The LLR of the next bit of u, given the bits before it and the LLRs of 2^l coded bits, in the max-log form (R319). -/
def polarLlr (l : Nat) (y : List Int) (u : List Bool) : Int :=
  match l with
  | 0 => y.headD 0
  | k + 1 =>
    let a := y.take (2 ^ k)
    let b := y.drop (2 ^ k)
    if u.length < 2 ^ k then
      polarLlr k (List.zipWith (fun x z =>
        (if decide (x < 0) != decide (z < 0) then -1 else 1) * ((min x.natAbs z.natAbs : Nat) : Int)) a b) u
    else
      let v := polarX k (u.take (2 ^ k))
      polarLlr k (List.zipWith (fun (p : Int × Int) s => if s then p.2 - p.1 else p.2 + p.1) (a.zip b) v) (u.drop (2 ^ k))

/-- The paths of least metric, at most `size` of them; of equal ones the earlier (DESIGN CHOICE,
`notes/assumptions/68.md`). -/
def polarKeep (size : Nat) (l : List (Nat × List Bool)) : List (Nat × List Bool) :=
  (l.foldl (fun acc p => acc.takeWhile (fun q => decide (q.1 ≤ p.1)) ++ p :: acc.dropWhile fun q => decide (q.1 ≤ p.1)) []).take size

/-- Successive-cancellation list decoding (R319): the surviving vectors u, best metric first. -/
def polarPaths (n size : Nat) (info pc : List Nat) (y : List Int) : List (List Bool) :=
  ((List.range n).foldl (fun (ps : List (Nat × List Bool)) i =>
    let ext := fun (p : Nat × List Bool) (lam : Int) (b : Bool) =>
      (p.1 + (if b != decide (lam < 0) then lam.natAbs else 0), p.2 ++ [b])
    polarKeep size (ps.flatMap fun p =>
      let lam := polarLlr n.log2 y p.2
      if pc.contains i then [ext p lam (polarPcBit info pc p.2)]
      else if info.contains i then [ext p lam false, ext p lam true]
      else [ext p lam false])) [(0, [])]).map fun p => p.2

/-- The LLRs of the N coded bits from the E received (clause 5.4.1 reversed): repeated ones added, punctured ones 0,
shortened ones certain. -/
def polarRecover (ch n k e : Nat) (llrs : List Int) : List Int :=
  let short := decide (e < n) && decide (7 * e < 16 * k)
  let at_ := ((polarOut ch e).zip llrs).foldl (fun (m : SMap Int) (i, x) =>
    let p := polarSub n (polarSelect n k e i)
    mapSet m p (mapGet m p 0 + x)) []
  (List.range n).map fun p => mapGet at_ p (if short then 2 ^ 24 else 0)

/-- Polar list decoding of one codeblock of A bits: the payload, and whether a path met the CRC (R319). -/
def polarDecodeBlock (ch a rnti size e : Nat) (llrs : List Int) : List Bool × Bool :=
  let k := a + polarCrc ch a
  let npc := polarNpc ch a
  let n := polarN ch k e
  let info := polarInfo n k npc e
  let pc := polarPc k npc e info
  let undo := fun (u : List Bool) =>
    let bits := (u.zipIdx.filter fun x => info.contains x.2 && !pc.contains x.2).map fun x => x.1
    if ch < 2 then (List.range k).map fun i => bits.getD ((polarPi k).findIdx fun m => m = i) false else bits
  let words := (polarPaths n size info pc (polarRecover ch n k e llrs)).map undo
  match words.find? fun c => c.drop a = polarCrcBits ch a rnti (c.take a) with
  | some c => (c.take a, true)
  | none => ((words.headD []).take a, false)

/-- Polar list decoding of a payload (R319): one codeblock, or two segments whose first starts with a zero where A is odd. -/
def polarDecode (ch a rnti size : Nat) (llrs : List Int) : List Bool × Bool :=
  let (c, ar, er) := polarSegments ch a llrs.length
  let parts := (List.range c).map fun i => polarDecodeBlock ch ar rnti size er (llrs.drop (i * er) |>.take er)
  ((parts.flatMap fun p => p.1).drop (c * ar - a), parts.all fun p => p.2)

/-! ## Turbo codes (R320) -/

/-- The circular buffer 3 K_Π of a codeblock of K bits (TS 36.212 clause 5.1.4.1). -/
def turboBuffer (k : Nat) : Nat := 3 * (32 * ceilDiv (k + 4) 32)

/-- The coded bit at a position of the circular buffer: its stream and its index, none for a dummy or a filler bit
(TS 36.212 clause 5.1.4.1). -/
def turboSlot (k f w : Nat) : Option (Nat × Nat) :=
  let r := ceilDiv (k + 4) 32
  let kp := 32 * r
  let col := fun (c : Nat) => [0, 16, 8, 24, 4, 20, 12, 28, 2, 18, 10, 26, 6, 22, 14, 30, 1, 17, 9, 25, 5, 21, 13, 29, 3, 19, 11,
    27, 7, 23, 15, 31].getD c 0
  let (j, y) := if w < kp then (0, w % r * 32 + col (w / r))
    else
      let q := (w - kp) / 2
      let y := q % r * 32 + col (q / r)
      if (w - kp) % 2 = 0 then (1, y) else (2, (y + 1) % kp)
  let i := y - (kp - (k + 4))
  if y < kp - (k + 4) || (decide (j < 2) && decide (i < f)) then none else some (j, i)

/-- Positions of the circular buffer that carry coded bits, in the order in which they are sent for an rv. -/
def turboPositions (k f ncb rv : Nat) : List Nat :=
  let r := ceilDiv (k + 4) 32
  let k0 := r * (2 * ceilDiv ncb (8 * r) * rv + 2)
  ((List.range ncb).map fun i => (k0 + i) % ncb).filter fun w => (turboSlot k f w).isSome

/-- The QPP interleaver (TS 36.212 clause 5.1.3.2.3). -/
def turboPi (k i : Nat) : Nat := ((Config.qpp k).1 * i + (Config.qpp k).2 * i * i) % k

/-- A state of a constituent encoder after an input: the next state and the parity bit; the state's bit 2 is the newest
(feedback 1 + D² + D³, parity 1 + D + D³). -/
def rscStep (st : Nat) (u : Bool) : Nat × Bool :=
  let a := u != (st.testBit 1 != st.testBit 0)
  (b2n a * 4 + st / 2, a != (st.testBit 2 != st.testBit 0))

/-- The input that ends a constituent encoder. -/
def rscTail (st : Nat) : Bool := st.testBit 1 != st.testBit 0

/-- The parity of a constituent encoder over its bits, then the systematic and parity bits of its three tail steps. -/
def rscEncode (bits : List Bool) : List Bool × List (Bool × Bool) :=
  let (st, p) := bits.foldl (fun (s : Nat × List Bool) u => ((rscStep s.1 u).1, (rscStep s.1 u).2 :: s.2)) (0, [])
  let (_, t) := (List.range 3).foldl (fun (s : Nat × List (Bool × Bool)) _ =>
    ((rscStep s.1 (rscTail s.1)).1, s.2 ++ [(rscTail s.1, (rscStep s.1 (rscTail s.1)).2)])) (st, [])
  (p.reverse, t)

/-- Where the tail bits of the two encoders stand: stream and offset from K of systematic and parity bit n of encoder q
(TS 36.212 clause 5.1.3.2.2). -/
def turboTail (q n : Nat) : (Nat × Nat) × (Nat × Nat) :=
  match n with
  | 0 => ((0, 2 * q), (1, 2 * q))
  | 1 => ((2, 2 * q), (0, 2 * q + 1))
  | _ => ((1, 2 * q + 1), (2, 2 * q + 1))

/-- Coded bit i of stream j of a turbo codeblock. -/
def turboStreams (k : Nat) (bits : List Bool) : List (List Bool) :=
  let c := bits.toArray
  let (p1, t1) := rscEncode bits
  let (p2, t2) := rscEncode ((List.range k).map fun i => c.getD (turboPi k i) false)
  let tail := fun (j : Nat) => (List.range 4).map fun o =>
    ((List.range 2).flatMap fun q => (List.range 3).flatMap fun n =>
      let b := (if q = 0 then t1 else t2).getD n (false, false)
      (if (turboTail q n).1 = (j, o) then [b.1] else []) ++ (if (turboTail q n).2 = (j, o) then [b.2] else [])).headD false
  [bits ++ tail 0, p1 ++ tail 1, p2 ++ tail 2]

/-- The coded bits of one turbo codeblock of K bits, f of them filler: E bits of redundancy version rv (R320). -/
def turboCoded (k f : Nat) (bits : List Bool) (e ncb rv : Nat) : List Bool :=
  let d := (turboStreams k bits).map List.toArray
  let ps := (turboPositions k f ncb rv).toArray
  (List.range e).map fun i => match turboSlot k f (ps.getD (i % ps.size) 0) with
    | some (j, x) => (d.getD j #[]).getD x false
    | none => false

/-- A metric below every other. -/
def farBelow : Rat := -1000000000

/-- The branches into or out of the states of a constituent code: state, input, next state, parity.  In a tail step only
the input that ends the code. -/
def rscBranches (tail : Bool) : List (Nat × Bool × Nat × Bool) :=
  (List.range 8).flatMap fun st => [false, true].filterMap fun u =>
    if tail && u != rscTail st then none else some (st, u, (rscStep st u).1, (rscStep st u).2)

/-- Twice the metric of a branch. -/
def branchMetric (lu lp : Rat) (u p : Bool) : Rat := (if u then -lu else lu) + (if p then -lp else lp)

/-- One step of the forward recursion, or of the backward one with the branches turned round, in max-log form. -/
def mapStep (tail back : Bool) (m : List Rat) (lu lp : Rat) : List Rat :=
  (List.range 8).map fun st => (rscBranches tail).foldl (fun a (s0, u, s1, p) =>
    let (src, dst) := if back then (s1, s0) else (s0, s1)
    if dst = st then max a (m.getD src farBelow + branchMetric lu lp u p) else a) farBelow

/-- A-posteriori LLRs of a constituent code in max-log form: LLRs of input and parity of each step, and of the tail. -/
def maxLogMap (steps tail : List (Rat × Rat)) : List Rat :=
  let start := (List.range 8).map fun st => if st = 0 then (0 : Rat) else farBelow
  let last := tail.foldr (fun x b => mapStep true true b x.1 x.2) start
  let fwd := (steps.foldl (fun (l : List (List Rat)) x => mapStep false false (l.headD start) x.1 x.2 :: l) [start]).tail.reverse
  let bwd := (steps.foldr (fun x (l : List (List Rat)) => mapStep false true (l.headD last) x.1 x.2 :: l) [last]).tail
  (steps.zip (fwd.zip bwd)).map fun (x, a, b) =>
    let best := fun (v : Bool) => (rscBranches false).foldl (fun m (s0, u, s1, p) =>
      if u = v then max m (a.getD s0 farBelow + branchMetric x.1 x.2 u p + b.getD s1 farBelow) else m) (3 * farBelow)
    (best false - best true) / 2

/-- What a turbo decoder works on: LLRs of the systematic bits, of the two parities, and of the two tails. -/
structure TurboLlrs where
  sys : List Rat
  par1 : List Rat
  par2 : List Rat
  tail1 : List (Rat × Rat)
  tail2 : List (Rat × Rat)
  deriving DecidableEq, Repr

/-- The LLRs of a codeblock of K bits, f of them filler, from those of its circular buffer.  A filler bit is known to be 0
and takes 127, as R313 has it for LDPC (DEDUCED, `notes/assumptions/68.md`). -/
def turboLlrs (k f : Nat) (vals : List Int) : TurboLlrs :=
  let m : List (SMap Int) := vals.zipIdx.foldl (fun l (v, w) => match turboSlot k f w with
    | some (j, i) => l.zipIdx.map fun (x, n) => if n = j then mapSet x i v else x
    | none => l) [[], [], []]
  let at_ := fun (j i : Nat) => (((if j < 2 && decide (i < f) then 127 else mapGet (m.getD j []) i 0) : Int) : Rat)
  let tl := fun (q : Nat) => (List.range 3).map fun n =>
    (at_ (turboTail q n).1.1 (k + (turboTail q n).1.2), at_ (turboTail q n).2.1 (k + (turboTail q n).2.2))
  { sys := (List.range k).map (at_ 0), par1 := (List.range k).map (at_ 1), par2 := (List.range k).map (at_ 2)
    tail1 := tl 0, tail2 := tl 1 }

/-- One iteration of the turbo decoder (R320): from the extrinsic values of the second code to its next ones and the hard
bits.  Extrinsic values are scaled by 0.75; the arithmetic is exact (DESIGN CHOICE, `notes/assumptions/68.md`). -/
def turboIter (k : Nat) (x : TurboLlrs) (ext : List Rat) : List Rat × List Bool :=
  let pi := (List.range k).map (turboPi k)
  let inv := (pi.zipIdx.foldl (fun (a : Array Nat) (p, i) => a.setIfInBounds p i) (Array.replicate k 0)).toList
  let perm := fun (o : List Nat) (l : List Rat) => o.map fun i => l.toArray.getD i 0
  let in1 := List.zipWith (fun s e => s + 3 / 4 * e) x.sys ext
  let e1 := List.zipWith (fun a b => a - b) (maxLogMap (in1.zip x.par1) x.tail1) in1
  let in2 := List.zipWith (fun s e => s + 3 / 4 * e) (perm pi x.sys) (perm pi e1)
  let l2 := maxLogMap (in2.zip x.par2) x.tail2
  (perm inv (List.zipWith (fun a b => a - b) l2 in2), (perm inv l2).map fun v => decide (v < 0))

/-- One codeblock of a TURBO_DECODE: bits, iterations, pass.  It stops once its CRC passes (R320). -/
def turboCb (k f limit code : Nat) (vals : List Int) : List Bool × Nat × Bool :=
  let x := turboLlrs k f vals
  let (_, bits, it, ok) := (List.range limit).foldl (fun (st : List Rat × List Bool × Nat × Bool) _ =>
    let (ext, bits, it, ok) := st
    if ok then (ext, bits, it, ok)
    else
      let (e, b) := turboIter k x ext
      (e, b, it + 1, crcMatches code b)) (List.replicate k 0, [], 0, false)
  (bits, it, ok)

end Sys2Proof.Machine
end

