-- ==== Sys2Proof/Machine/Time.lean ====
section
/-! DEFINITION. The time subsystem (R30 to R77): the oscillator, the two domains, reference selection, the servo,
the drift test, holdover, the ToD message and the pulse outputs. -/

namespace Sys2Proof.Machine

/-- An event of the time subsystem (R518: class 1). -/
def timeEvt (s : State) (code : Nat) (d : List Byte) : State := raise s 1 0 code d

/-- The nearest whole number to a rational, halves upward. -/
def ratRound (q : Rat) : Int := (q + 1 / 2).floor

/-- An 's32 ppb' detail field, saturating. -/
def s32Ppb (q : Rat) : List Byte := leInt 4 (clampInt (-2147483648) 2147483647 (ratRound q))

/-- An input of a domain (R43). -/
def Domain.input (x : Domain) (i : Nat) : RefInput := mapGet x.inputs i {}

/-- Write an input of a domain. -/
def setInput (s : State) (d i : Nat) (r : RefInput) : State :=
  let x := s.dom d
  s.setDom d { x with inputs := mapSet x.inputs i r }

/-! ## Qualification and selection (R45 to R47) -/

/-- The conditions of R45 on one input of a domain, with rank 15 excluded (R46 reason 1). -/
def inputQualifies (s : State) (d : Nat) (x : Domain) (r : RefInput) : Bool :=
  let held := x.ns - r.since
  r.present && decide (r.rank < 15) && !r.driftDq &&
  decide (r.freq.natAbs ≤ s.param 0x020C d * 1000) &&
  (if x.st = 0 || x.st = 4 then decide (10 * 1000000000 ≤ held)
   else !r.lost || decide (s.param 0x0208 d * 1000000000 ≤ held))

/-- Reason of TIME_REF_LOST (R46): the first that applies; none for a loss by the drift test alone. -/
def lostReason (s : State) (d : Nat) (r : RefInput) (ptp : Bool) : Option Nat :=
  if ptp then some 3
  else if !r.present then some 0
  else if 15 ≤ r.rank then some 1
  else if s.param 0x020C d * 1000 < r.freq.natAbs then some 2
  else none

/-- Store an input with its qualification evaluated again; a loss raises TIME_REF_LOST (R45, R46).  An input
whose wait to restore is over keeps its qualification from then on.  DESIGN CHOICE (log entry 65): only an input whose signal went
waits to be restored; a loss by rank or by frequency alone ends with its cause. -/
def evalInput (s : State) (d i : Nat) (r : RefInput) (ptp : Bool) : State :=
  let x := s.dom d
  let sticky := r.qualified && r.present && decide (r.rank < 15) && !r.driftDq &&
    decide (r.freq.natAbs ≤ s.param 0x020C d * 1000)
  let q := sticky || inputQualifies s d x r
  let s1 := setInput s d i { r with qualified := q, lost := r.lost && !q }
  if r.qualified && !q then
    match lostReason s d r ptp with
    | some why => timeEvt s1 0x0204 (leBytes 1 d ++ leBytes 1 i ++ leBytes 1 why)
    | none => s1
  else s1

/-- The better of two candidates (R47): lowest rank, then lowest priority, then lowest number. -/
def betterRef (a b : Nat × Nat × Nat) : Bool :=
  a.1 < b.1 || (a.1 = b.1 && (a.2.1 < b.2.1 || (a.2.1 = b.2.1 && a.2.2 < b.2.2)))

/-- The best candidate of a class in a domain (R47): the phase class is inputs 18 to 23. -/
def bestRef (s : State) (d : Nat) (phase : Bool) : Option Nat :=
  let x := s.dom d
  let c := x.inputs.filter fun e => e.2.qualified && decide (e.2.rank < 15) && (!phase || decide (18 ≤ e.1)) &&
    decide (s.param 0x0205 (d * 32 + e.1) ≠ 0)
  let k := c.map fun e => (e.2.rank, s.param 0x0205 (d * 32 + e.1), e.1)
  match k with
  | [] => none
  | h :: t => some (t.foldl (fun b e => if betterRef e b then e else b) h).2.2

/-- TIME_REF_SELECTED for one class (R77). -/
def selEvent (s : State) (d cls : Nat) (old new : Option Nat) : State :=
  if old = new then s
  else
    let rk := match new with | some i => ((s.dom d).input i).rank | none => 255
    timeEvt s 0x0203 (leBytes 1 d ++ leBytes 1 cls ++ leBytes 1 (old.getD 255) ++ leBytes 1 (new.getD 255) ++ leBytes 1 rk)

/-- Run selection in a domain (R47); a new phase reference may be taken up by a step (R33), and a new frequency reference
has its phase captured and starts the loop's interval (R49).  DESIGN CHOICE (log entry 65): a reference that is selected again after
a loss counts as a change of reference. -/
def reselect (s : State) (d : Nat) : State :=
  let x := s.dom d
  let f := bestRef s d false
  let p := bestRef s d true
  let s1 := s.setDom d { x with
    freqRef := f
    phaseRef := p
    stepDue := x.stepDue || (decide (p ≠ x.phaseRef) && p.isSome)
    freqPhase := if f = x.freqRef then x.freqPhase else 0
    lastUpdate := if f = x.freqRef then x.lastUpdate else x.ns }
  selEvent (selEvent s1 d 0 x.freqRef f) d 1 x.phaseRef p

/-- Evaluate one input in one domain and run selection. -/
def updInput (s : State) (d i : Nat) (f : RefInput → RefInput) (ptp : Bool) : State :=
  reselect (evalInput s d i (f ((s.dom d).input i)) ptp) d

/-- The same in both domains, for a shared input (R43). -/
def updShared (s : State) (i : Nat) (f : Domain → RefInput → RefInput) : State :=
  let s1 := reselect (evalInput s 0 i (f (s.dom 0) ((s.dom 0).input i)) false) 0
  reselect (evalInput s1 1 i (f (s1.dom 1) ((s1.dom 1).input i)) false) 1

/-- An input's signal appears. -/
def RefInput.appear (x : Domain) (r : RefInput) : RefInput :=
  if r.present then r else { r with present := true, since := x.ns }

/-- Time, in ns of domain time, for which an input has been present in the drift window that runs (R58). -/
def RefInput.presence (x : Domain) (r : RefInput) : Nat :=
  r.winPresent + if r.present then x.ns - max r.since x.winFrom else 0

/-- An input's signal goes: the drift count is cleared (R62). -/
def RefInput.vanish (x : Domain) (r : RefInput) : RefInput :=
  if r.present then { r with present := false, lost := true, driftRun := 0, winPresent := r.presence x } else r

/-- The SyncE candidates that name a lane (R43). -/
def synceOf (s : State) (lane : Nat) : List Nat :=
  (List.range 16).filter fun i => s.paramTime 0x020F i = lane

/-- A lane's recovered clock appears or goes as a SyncE source (R57, R116, R126). -/
def synceSignal (s : State) (lane : Nat) (up : Bool) : State :=
  (synceOf s lane).foldl (fun t i =>
    updShared t i fun x r => if up then r.appear x else r.vanish x) s

/-! ## Domain states (R40 to R42, R63, R64) -/

/-- Time-weighted mean of the corrections over a window of domain time in ns, from samples newest first. -/
def meanY (samples : List (Nat × Rat)) (a b : Nat) : Rat :=
  let step := fun (acc : Rat × Nat) (e : Nat × Rat) =>
    let lo := max e.1 a
    let hi := min acc.2 b
    (if lo < hi then acc.1 + e.2 * (((hi - lo : Nat) : Int) : Rat) else acc.1, min acc.2 e.1)
  (samples.foldl step ((0 : Rat), b)).1 / (((b - a : Nat) : Int) : Rat)

/-- The learned frequency at a loss (R42): valid after 1,030 s of lock. -/
def learnedFreq (x : Domain) : Option Rat :=
  match x.lockFrom with
  | none => none
  | some t0 =>
    if t0 + 1030 * 1000000000 ≤ x.ns then
      some (meanY x.samples (x.ns - 1030 * 1000000000) (x.ns - 30 * 1000000000))
    else none

/-- The ageing rate at a loss (R63): 0 with less than 24 h of lock.  DESIGN CHOICE (log entry 65): the 24 h are one unbroken
lock, the one that ends. -/
def ageingRate (x : Domain) : Rat :=
  match x.lockFrom with
  | none => 0
  | some t0 =>
    if t0 + 86400 * 1000000000 ≤ x.ns then
      Config.ageSlope (x.samples.filter fun e => x.ns ≤ e.1 + 86400 * 1000000000)
    else 0

/-- A correction clamped to the domain's frequency limit (R50). -/
def clampY (s : State) (d : Nat) (y : Rat) : Rat :=
  let lim : Rat := ((s.param 0x020C d : Int) : Rat)
  if lim < y then lim else if y < 0 - lim then 0 - lim else y

/-- The OCXO prediction (R58): the learned frequency plus the predicted ageing of R63, in ppb.  DEDUCED (log entry 66): a locked
domain predicts with what it would have learned at a loss now, and 0 stands for a frequency not yet learned. -/
def ocxoPrediction (x : Domain) : Rat :=
  if x.st = 2 || x.st = 3 then (learnedFreq x).getD (x.learned.getD 0)
  else x.learned.getD 0 + x.ageRate * (((x.ns - x.holdFrom.getD x.ns : Nat) : Int) : Rat) / 1000000000

/-- Offset from the OCXO prediction, in 0.001 ppb, of an input measured against OSC_IN (R45, R58). -/
def fromPrediction (x : Domain) (v : Int) : Int := v - ratRound (ocxoPrediction x * 1000)

/-- The learned frequency at the end of a lock, and otherwise the one held (R42): a lock that ended in ACQUIRING is the last
one until the domain locks again. -/
def learnedNow (x : Domain) : Option Rat := if x.st = 2 || x.st = 3 then learnedFreq x else x.learned

/-- Put a domain into a state and raise TIME_DOMAIN_STATE (R41, R77).  HOLDOVER applies the learned frequency from its entry on
(R63); the samples of a lock begin with the correction at its start (R42). -/
def enterState (s : State) (d new : Nat) : State :=
  let x := s.dom d
  if x.st = new then s
  else
    let now := x.ns
    let locks := new = 2 || new = 3
    let ends := (x.st = 2 || x.st = 3) && !locks
    let x1 := { x with
      st := new
      run := 0
      y := if new = 0 then 0 else if new = 4 then clampY s d ((learnedNow x).getD 0) else x.y
      integ := if new = 0 then 0 else x.integ
      lockFrom := if locks then (match x.lockFrom with | some t => some t | none => some now) else none
      lockedFrom := if new = 2 then some now else none
      lastLocked := if x.st = 2 then some now else x.lastLocked
      samples := if locks then (if x.lockFrom.isSome then x.samples else [(now, x.y)]) else []
      learned := if new = 0 then none else learnedNow x
      ageRate := if ends then ageingRate x else x.ageRate
      holdFrom := if new = 4 then some now else none }
    timeEvt (s.setDom d x1) 0x0202
      (leBytes 1 d ++ leBytes 1 x.st ++ leBytes 1 new ++ s32Ppb (if new = 0 then 0 - x.y else 0))

/-- Where a domain goes when no reference is selected (R41). -/
def lostState (x : Domain) : Nat := if (learnedNow x).isSome then 4 else 0

/-- OSC_IN_LOSS (R31): both domains free-run from the internal reference. -/
def oscInLoss (s : State) : State :=
  if s.time.oscLost then s
  else
    let s1 := timeEvt { s with time := { s.time with oscLost := true } } 0x0201 []
    enterState (enterState s1 0 0) 1 0

/-! ## Pulse outputs (R71 to R74) -/

/-- A pulse output. -/
def State.ppsOut (s : State) (k : Nat) : PpsOut := mapGet s.time.pps k {}

def State.setPps (s : State) (k : Nat) (p : PpsOut) : State :=
  { s with time := { s.time with pps := mapSet s.time.pps k p } }

/-- The first programmed time of a periodic output that is at least `t`. -/
def PpsOut.firstAt (p : PpsOut) (t : Nat) : Nat :=
  if t ≤ p.start then p.start else p.start + ceilDiv (t - p.start) p.period * p.period

/-- Programmed times of an output that lie strictly between two moments of its domain. -/
def PpsOut.between (p : PpsOut) (n lo hi : Nat) : Nat :=
  if p.mode = 2 then
    let f := p.firstAt (max n (lo + 1))
    if f < hi then ceilDiv (hi - f) p.period else 0
  else if lo < n && n < hi then 1 else 0

/-- A forward step of domain `d` from whole time `lo` to `hi` by which programmed times were jumped over (R74).  A time reached
before the step whose edge still waits for its delay is not one of them.  DESIGN CHOICE (log entry 65): the one-byte count stops at
255. -/
def ppsSkip (s : State) (d lo hi : Nat) : State :=
  (List.range 4).foldl (fun t k =>
    let p := t.ppsOut k
    match p.next with
    | none => t
    | some n =>
      let cnt := p.between n lo hi
      if p.dom = d && 0 < cnt then
        let nx := if n ≤ lo then some n else if p.mode = 2 then some (p.firstAt hi) else none
        timeEvt (t.setPps k { p with next := nx, jumped := some (lo, hi) }) 0x020B
          (leBytes 1 k ++ leBytes 1 1 ++ leBytes 1 (min cnt 255))
      else t) s

/-- A write of `pps_out[k].mode` (R72, R73): the output is re-armed with the values in force.  DESIGN CHOICE (log entry 65): ONCE and
PERIODIC leave a pulse in progress high for what is left of its width. -/
def ppsArm (s : State) (k : Nat) : State :=
  let d := s.param 0x0214 k
  let now := (s.dom d).count
  let old := s.ppsOut k
  let p : PpsOut := { mode := s.param 0x0213 k, dom := d, start := s.param 0x0215 k, period := s.param 0x0216 k,
                      width := s.param 0x0217 k, delay := s.paramInt 0x0218 k, next := none, fall := old.fall,
                      produced := old.produced, high := old.high }
  match p.mode with
  | 0 => s.setPps k { p with high := false, fall := none }
  | 1 =>
    if p.start * 2 ^ 32 < now + 10000 * 2 ^ 32 then
      timeEvt (s.setPps k p) 0x020B (leBytes 1 k ++ leBytes 1 0 ++ leBytes 1 1)
    else s.setPps k { p with next := some p.start }
  | _ => s.setPps k { p with next := some (p.firstAt (ceilDiv now (2 ^ 32) + 10000)) }

/-- The domain time at which an output's programmed time `n` shows at the ball (R71).  DESIGN CHOICE (log entry 65): the delay is
added to the programmed time, and an edge that a negative delay puts before the mode write comes at once. -/
def PpsOut.edgeAt (p : PpsOut) (n : Nat) : Int := (n : Int) + p.delay

/-- The programmed time after `n`, times that a step jumped over left out (R71, R74). -/
def PpsOut.after (p : PpsOut) (n : Nat) : Option Nat :=
  if p.mode ≠ 2 then none
  else match p.jumped with
    | some (lo, hi) => if lo < n + p.period && n + p.period < hi then some (p.firstAt hi) else some (n + p.period)
    | none => some (n + p.period)

/-- PPS_OUT_EDGE (R71, R74): the output rises for its width; no time already produced is produced again. -/
def ppsOutEdge (s : State) (k : Nat) : State :=
  let p := s.ppsOut k
  match p.next with
  | none => s
  | some n =>
    if decide (((s.dom p.dom).ns : Int) < p.edgeAt n) then s
    else if p.produced.contains (p.dom, n) then s.setPps k { p with next := p.after n }
    else s.setPps k { p with
      next := p.after n
      produced := (p.dom, n) :: p.produced
      high := true
      fall := some (p.width * 2 ^ 32) }

/-- PPS_OUT_PULSE_END (R71): the width has passed and the output falls. -/
def ppsOutPulseEnd (s : State) (k : Nat) : State :=
  let p := s.ppsOut k
  if p.fall = some 0 then s.setPps k { p with fall := none, high := false } else s

/-! ## Steps and the servo (R33, R34, R48 to R50) -/

/-- A moment of a domain, in ns, carried along by a step of `e` in 2^-16 ns, so that what has elapsed since stays. -/
def shiftNs (e : Int) (t : Nat) : Nat := ((t : Int) + e / 65536).toNat

/-- An input's moments carried along by a step. -/
def RefInput.shift (e : Int) (r : RefInput) : RefInput := { r with since := shiftNs e r.since }

/-- A domain with its counter stepped by `e` in 2^-16 ns.  DEDUCED (log entry 66): the moments from which its periods run move
with the counter, so that a step shortens and lengthens no period. -/
def Domain.stepped (x : Domain) (e : Int) : Domain :=
  { x with
    count := ((x.count : Int) + e * 65536).toNat
    stepDue := false
    lockFrom := x.lockFrom.map (shiftNs e)
    lockedFrom := x.lockedFrom.map (shiftNs e)
    samples := x.samples.map fun a => (shiftNs e a.1, a.2)
    holdFrom := x.holdFrom.map (shiftNs e)
    lastLocked := x.lastLocked.map (shiftNs e)
    lastUpdate := shiftNs e x.lastUpdate
    winFrom := shiftNs e x.winFrom
    inputs := x.inputs.map fun a => (a.1, a.2.shift e) }

/-- The edges of a ToD input as a domain measured them, carried along by its step. -/
def TodIn.stepped (t : TodIn) (d : Nat) (e : Int) : TodIn :=
  if d = 0 then { t with edge0 := t.edge0 + e / 65536 } else { t with edge1 := t.edge1 + e / 65536 }

/-- A step of a domain counter by `e` in 2^-16 ns (R33, R34): Air Time shows none. -/
def domainStep (s : State) (d : Nat) (e : Int) : State :=
  let x := s.dom d
  let y := x.stepped e
  let s1 := s.setDom d y
  let s2 := { s1 with time := { s1.time with
    r := if s.time.active = d then s1.time.r - e else s1.time.r
    tod0 := s1.time.tod0.stepped d e
    tod1 := s1.time.tod1.stepped d e } }
  let s3 := timeEvt s2 0x0209 (leBytes 1 d ++ leInt 8 (e / 65536))
  if 0 < e then ppsSkip s3 d x.ns (ceilDiv y.count (2 ^ 32)) else s3

/-- Natural frequency of a loop of bandwidth `mHz` (R49): 2π × B / 2.058. -/
def omegaN (mHz : Nat) : Rat := 2 * piRat * ((mHz : Int) : Rat) / 1000 * 1000 / 2058

/-- Proportional gain (R49): 2 ζ ωn with ζ = 0.707. -/
def kP (mHz : Nat) : Rat := 2 * (707 / 1000) * omegaN mHz

/-- Integral gain (R49): ωn². -/
def kI (mHz : Nat) : Rat := omegaN mHz * omegaN mHz

/-- A phase in 2^-16 ns as a rational number of ns. -/
def nsRat (e : Int) : Rat := (e : Rat) / 65536

/-- The correction in HOLDOVER (R63): f + a × t, within the frequency limit (R50). -/
def holdoverY (s : State) (d : Nat) (x : Domain) : Rat :=
  let h : Rat := (((x.ns - x.holdFrom.getD x.ns : Nat) : Int) : Rat) / 1000000000
  clampY s d (x.learned.getD 0 + x.ageRate * h)

/-- One update of a domain's loop (R48 to R50, R63): the new correction and integral term, and whether the PI loop ran.  `fm` and
`pm` say which of the references was measured for this update: the loop integrates only what was measured since its last update,
and a phase correction in hybrid is proportional only. -/
def servoLoop (s : State) (d : Nat) (x : Domain) (fm pm : Bool) : Rat × Rat × Bool :=
  let t : Rat := (((x.ns - x.lastUpdate : Nat) : Int) : Rat) / 1000000000
  let pi1 := fun (on : Bool) (bw : Nat) (e : Int) (extra : Rat) =>
    let i1 := if on then x.integ + kI bw * nsRat e * t else x.integ
    let y1 := kP bw * nsRat e + i1 + extra
    (clampY s d y1, if clampY s d y1 = y1 then i1 else x.integ, on)
  match x.freqRef, x.phaseRef with
  | some f, some p =>
    if f = p then (if pm then pi1 true (s.param 0x0206 (d * 32 + p)) x.phaseErr 0 else (x.y, x.integ, false))
    else if fm || pm then
      pi1 fm (s.param 0x0206 (d * 32 + f)) x.freqPhase (kP (s.param 0x0206 (d * 32 + p)) * nsRat x.phaseErr)
    else (x.y, x.integ, false)
  | some f, none => if fm then pi1 true (s.param 0x0206 (d * 32 + f)) x.freqPhase 0 else (x.y, x.integ, false)
  | none, some p => if pm then pi1 true (s.param 0x0206 (d * 32 + p)) x.phaseErr 0 else (x.y, x.integ, false)
  | none, none =>
    if x.st = 4 then (holdoverY s d x, x.integ, false)
    else if x.st = 0 then (0, 0, false) else (x.y, x.integ, false)

/-- The state table of R41 at one servo update; only an update in which the reference was measured counts toward lock or breaks
the count. -/
def stateRules (s : State) (d : Nat) (ferr : Int) (fm pm : Bool) : State :=
  let x := s.dom d
  let ref := x.freqRef.isSome || x.phaseRef.isSome
  if s.time.oscLost then enterState s d 0
  else match x.st with
  | 1 =>
    if !ref then enterState s d (lostState x)
    else
      let good := if x.phaseRef.isSome then decide (x.phaseErr.natAbs < s.param 0x020B d * 65536)
        else decide (ferr.natAbs < 5000)
      let n := if !(if x.phaseRef.isSome then pm else fm) then x.run else if good then x.run + 1 else 0
      if 16 ≤ n then enterState s d (if x.phaseRef.isSome then 2 else 3)
      else s.setDom d { x with run := n }
  | 2 =>
    if !ref then enterState s d (lostState x)
    else if x.phaseRef.isNone then enterState s d 3 else s
  | 3 =>
    if !ref then enterState s d (lostState x)
    else if x.phaseRef.isSome then enterState s d 1 else s
  | _ => if ref then enterState s d 1 else s

/-- A ToD input. -/
def State.tod (s : State) (k : Nat) : TodIn := if k = 0 then s.time.tod0 else s.time.tod1

def State.setTod (s : State) (k : Nat) (t : TodIn) : State :=
  if k = 0 then { s with time := { s.time with tod0 := t } } else { s with time := { s.time with tod1 := t } }

/-- The last PPS_IN edge of an input in a domain, after its delay (R70). -/
def TodIn.edge (t : TodIn) (d : Nat) : Int := if d = 0 then t.edge0 else t.edge1

/-- The domain's servo has used the edge. -/
def TodIn.taken (t : TodIn) (d : Nat) : Bool := if d = 0 then t.taken0 else t.taken1

def TodIn.take (t : TodIn) (d : Nat) : TodIn := if d = 0 then { t with taken0 := true } else { t with taken1 := true }

/-- Phase error of PPS_IN k in a domain, in 2^-16 ns (R49, R65, R70): the seconds of the message that describes the edge, minus the
domain's time at the edge; none where no usable message has come or the edge was used before (R50: once per second). -/
def ppsPhase (s : State) (d k : Nat) : Option Int :=
  let t := s.tod k
  match t.secs with
  | some n => if t.usable && !t.taken d then some (((n : Int) * 1000000000 - t.edge d) * 65536) else none
  | none => none

/-- The phase measured for an update: of a PPS input from its edge, of a PTP slot from the operand (R43, R50). -/
def phaseMeas (s : State) (d : Nat) (m : ServoMeas) : Option Int :=
  match (s.dom d).phaseRef with
  | none => none
  | some p => if p = 18 || p = 19 then ppsPhase s d (p - 18) else m.phase

/-- The phase of a frequency-class reference, which updates every 62.5 ms of domain time (R50). -/
def freqMeas (s : State) (d : Nat) (m : ServoMeas) : Option Int :=
  let x := s.dom d
  match x.freqRef with
  | none => none
  | some f => if 18 ≤ f || decide (x.ns < x.lastUpdate + 62500000) then none else m.freqPhase

/-- The PPS edge that an update used is marked (R50). -/
def takeEdge (s : State) (d : Nat) : State :=
  match (s.dom d).phaseRef with
  | some p => if p = 18 || p = 19 then s.setTod (p - 18) ((s.tod (p - 18)).take d) else s
  | none => s

/-- SERVO_UPDATE (R50): measured input offsets, selection, a step where R33 allows one, the loop, and the state
changes, in one update. -/
def servoUpdate (s : State) (d : Nat) (m : ServoMeas) : State :=
  let s1 := m.offs.foldl (fun t e =>
    evalInput t d e.1 { (t.dom d).input e.1 with freq := fromPrediction (t.dom d) e.2 } false) s
  let s2 := reselect s1 d
  let x := s2.dom d
  let pm := phaseMeas s2 d m
  let fm := freqMeas s2 d m
  let pe := pm.getD x.phaseErr
  let big := x.stepDue && pm.isSome
  let step := big && decide (s2.param 0x020A d * 65536 < pe.natAbs)
  let s3 := if step then domainStep (takeEdge s2 d) d pe else takeEdge s2 d
  let x3 := { s3.dom d with
    phaseErr := if step then 0 else pe
    freqPhase := fm.getD x.freqPhase
    stepDue := if big then false else (s3.dom d).stepDue }
  let yi := if s3.time.oscLost then ((0 : Rat), (0 : Rat), false) else servoLoop s3 d x3 fm.isSome pm.isSome
  let keep := x3.st = 2 || x3.st = 3
  let x4 := { x3 with y := yi.1, integ := yi.2.1, lastUpdate := if yi.2.2 then x3.ns else x3.lastUpdate,
                      samples := if keep then (x3.ns, yi.1) :: x3.samples else x3.samples }
  stateRules (s3.setDom d x4) d m.freqErr fm.isSome pm.isSome

/-- REF_WTR_EXPIRY (R45). -/
def refWtrExpiry (s : State) (d i : Nat) : State := updInput s d i id false

/-- HOLDOVER_EXPIRY (R64). -/
def holdoverExpiry (s : State) (d : Nat) : State :=
  let x := s.dom d
  match x.holdFrom with
  | some t => if x.st = 4 && decide (t + s.param 0x0209 d * 1000000000 ≤ x.ns) then enterState s d 0 else s
  | none => s

/-- PTP_TIMEOUT (R45, R46): reason 3; the timeout is Air Time (R11). -/
def ptpTimeout (s : State) (d slot : Nat) : State :=
  let x := s.dom d
  let r := x.input (20 + slot)
  if r.present && decide (r.lastMeas + s.param 0x020E d * tcMs ≤ s.now) then
    updInput s d (20 + slot) (RefInput.vanish x) true
  else s

/-- CLKIN_EDGE_MISSING (R45). -/
def clkinEdgeMissing (s : State) (k : Nat) : State := updShared s (16 + k) fun x r => r.vanish x

/-- CLKIN_EDGES_RETURNED (R45). -/
def clkinEdgesReturned (s : State) (k : Nat) : State := updShared s (16 + k) fun x r => r.appear x

/-! ## ESMC, ToD and PPS inputs (R44, R57, R65 to R70) -/

/-- Rank of an ESMC SSM (R44). -/
def ssmRank (q : Nat) : Nat :=
  match q with
  | 2 => 2
  | 4 => 5
  | 8 => 8
  | 11 => 11
  | _ => 15

/-- Rank of a PTP clockClass (R44). -/
def clockClassRank (c : Nat) : Nat :=
  match c with
  | 6 => 1
  | 7 => 3
  | 135 => 4
  | 140 => 6
  | 150 => 7
  | 160 => 9
  | 165 => 10
  | 248 => 13
  | _ => 15

/-- ESMC_PDU (R57): the candidate takes the rank of the SSM. -/
def esmcPdu (s : State) (i ssm : Nat) : State :=
  updShared s i fun _ r => { r with rank := ssmRank ssm, lastMeas := s.now }

/-- ESMC_TIMEOUT (R57): no PDU for 5 s of Air Time (R11). -/
def esmcTimeout (s : State) (i : Nat) : State :=
  if decide (s.now < ((s.dom 0).input i).lastMeas + 5 * tcS) then s
  else updShared s i fun _ r => { r with rank := 15 }

/-- Real time, in ns, since the last PPS_IN edge, as the active domain measures it (R12, R67). -/
def edgeAge (s : State) (k : Nat) : Int := (s.activeDom.ns : Int) - (s.tod k).edge s.time.active

/-- Whole seconds in a time of ns. -/
def wholeSeconds (v : Int) : Nat := (v / 1000000000).toNat

/-- PPS_IN_EDGE (R67, R70): the edge is measured after its delay; the second before it is closed, and a second in which an edge
was missing closes without one. -/
def ppsInEdge (s : State) (k : Nat) : State :=
  let t := s.tod k
  let dl := s.paramInt 0x0211 k
  let gaps := wholeSeconds (edgeAge s k - dl + 500000000) - 1
  s.setTod k { t with
    edge0 := ((s.dom 0).ns : Int) - dl
    edge1 := ((s.dom 1).ns : Int) - dl
    unusable := (if t.usable then 0 else t.unusable + 1) + gaps
    invalid := (if t.valid then 0 else t.invalid + 1) + gaps
    gotMsg := false
    usable := false
    valid := false
    taken0 := false
    taken1 := false }

/-- Consecutive seconds without a usable edge, the time since the last edge counted in whole seconds (R67). -/
def edgeless (s : State) (k : Nat) : Nat :=
  (if (s.tod k).usable then 0 else (s.tod k).unusable) + wholeSeconds (edgeAge s k)

/-- Consecutive seconds without a valid message (R43). -/
def messageless (s : State) (k : Nat) : Nat :=
  (if (s.tod k).valid then 0 else (s.tod k).invalid) + wholeSeconds (edgeAge s k)

/-- The signal of PPS_IN k goes; without valid ToD messages CLKIN k has rank 15 (R43, R67).  DESIGN CHOICE (log entry 65): CLKIN k is
without them after three seconds, as PPS_IN k is without a usable edge. -/
def ppsLose (s : State) (k : Nat) : State :=
  let s1 := updShared s (18 + k) fun x r => r.vanish x
  if 3 ≤ messageless s k then updShared s1 (16 + k) fun _ r => { r with rank := 15 } else s1

/-- PPS_SIGNAL_LOSS (R67): three consecutive seconds without a usable edge. -/
def ppsSignalLoss (s : State) (k : Nat) : State := if 3 ≤ edgeless s k then ppsLose s k else s

/-- TIME_TOD_ERROR (R77). -/
def todError (s : State) (k why sq : Nat) : State :=
  timeEvt s 0x020A (leBytes 1 k ++ leBytes 1 why ++ leBytes 1 sq)

/-- The first check of R67 that a message fails: 0 start, 1 type, 2 CRC, 3 window, 4 duplicate. -/
def todCheck (s : State) (k : Nat) (b : List Byte) : Option Nat :=
  let t := s.tod k
  let age := edgeAge s k
  if rd b 0 1 ≠ 0xC5 then some 0
  else if field (rd b 1 1) 3 0 ≠ 0 then some 1
  else if crc8 (slice b 0 15) ≠ rd b 15 1 then some 2
  else if decide (age < 10000000) || decide (900000000 < age) then some 3
  else if t.gotMsg then some 4
  else none

/-- TOD_MESSAGE (R65 to R69). -/
def todMessage (s : State) (k : Nat) (b : List Byte) : State :=
  if s.param 0x0212 k = 0 then s
  else
    let t := s.tod k
    let sq := rd b 9 1
    match todCheck s k b with
    | some why => todError (s.setTod k { t with gotMsg := true, usable := false }) k why sq
    | none =>
      let secs := rd b 2 6
      let q := field (rd b 8 1) 3 0
      let fl := rd b 10 1
      let seqBad := match t.seq with | some p => decide ((p + 1) % 256 ≠ sq) | none => false
      let secBad := match t.secs with | some p => decide (p + 1 ≠ secs) | none => false
      let run := if secBad then 0 else t.goodRun + 1
      let lost1 := if secBad then true else t.secsLost && decide (run < 3)
      let usable := bit fl 2 && !lost1
      let t1 := { t with
        seq := some sq
        secs := some secs
        goodRun := run
        secsLost := lost1
        gotMsg := true
        usable := usable
        valid := true
        seqErrors := if seqBad then t.seqErrors + 1 else t.seqErrors
        leap := field fl 1 0
        taiUtc := rd b 11 1
        quality := q }
      let s1 := s.setTod k t1
      let s2 := if seqBad then todError s1 k 5 sq else s1
      let s3 := if secBad then todError s2 k 6 sq else s2
      let s4 := updShared s3 (16 + k) fun _ r => { r with rank := q }
      updShared s4 (18 + k) fun x r =>
        if lost1 then RefInput.vanish x { r with rank := q }
        else if usable then { r with rank := q }.appear x else { r with rank := q }

/-! ## Drift test (R58 to R62) -/

/-- Sort integers ascending. -/
def insertInt (v : Int) (l : List Int) : List Int :=
  match l with
  | [] => [v]
  | h :: t => if v ≤ h then v :: h :: t else h :: insertInt v t

def sortInt (l : List Int) : List Int := l.foldr insertInt []

/-- The ensemble median in 0.001 ppb (R59): with two results the prediction joins with offset 0. -/
def driftMedian (offs : List Int) : Int :=
  let l := sortInt (if offs.length = 2 then 0 :: offs else offs)
  let n := l.length
  if n = 0 then 0
  else if n % 2 = 1 then l.getD (n / 2) 0
  else (l.getD (n / 2 - 1) 0 + l.getD (n / 2) 0) / 2

/-- The results of a window (R58): the offset from the OCXO prediction of each measured input that was present for at least 90 s
of it. -/
def driftResults (x : Domain) (m : List (Fin 24 × Int)) : List (Nat × Int) :=
  (m.filter fun e => decide (90000000000 ≤ (x.input e.1).presence x)).map fun e => (e.1.val, fromPrediction x e.2)

/-- The median and the tolerance that apply to an input (R59 to R61), from the offsets of the qualified inputs with a result: one
qualified input is held against the prediction; a disqualified one against the median of what is qualified, or against the
prediction where nothing is.  DESIGN CHOICE (log entry 65): an input without a result in the window does not count for the size of the
ensemble. -/
def driftMeasure (s : State) (d : Nat) (qual : List Int) (dq : Bool) : Int × Int :=
  let near : Int := (s.param 0x0203 0 + 10) * 1000
  let far : Int := s.param 0x0207 d * 1000
  match qual with
  | [] => (0, near)
  | [v] => if dq then (v, far) else (0, near)
  | l => (driftMedian l, far)

/-- One domain's window (R58 to R62).  Against another input an input's offset is the difference of the two offsets held. -/
def driftWindow (s : State) (d : Nat) (m : List (Fin 24 × Int)) : State :=
  let x := s.dom d
  let res := driftResults x m
  let qual := (res.filter fun e => (x.input e.1).qualified).map fun e => e.2
  let need := max 1 (ceilDiv (s.param 0x0208 d) 100)
  let s1 := res.foldl (fun t e =>
    let i := e.1
    let r := { (t.dom d).input i with winOff := some e.2 }
    let mt := driftMeasure s d qual r.driftDq
    let off := e.2 - mt.1
    if r.driftDq then
      let n := if decide (2 * (off.natAbs : Int) ≤ mt.2) then r.requalRun + 1 else 0
      if need ≤ n then
        timeEvt (evalInput t d i { r with driftDq := false, driftRun := 0, requalRun := 0 } false) 0x0206
          (leBytes 1 d ++ leBytes 1 i)
      else setInput t d i { r with requalRun := n }
    else if r.qualified then
      let n := if decide (mt.2 < (off.natAbs : Int)) then r.driftRun + 1 else 0
      if 3 ≤ n then
        timeEvt (evalInput t d i { r with driftDq := true, driftRun := n, requalRun := 0 } false) 0x0205
          (leBytes 1 d ++ leBytes 1 i ++ leInt 4 (off / 1000) ++ leInt 4 (mt.1 / 1000))
      else setInput t d i { r with driftRun := n }
    else setInput t d i r) s
  reselect s1 d

/-- Offset of input `i` against input `j` in the last window in which both had a result (R58). -/
def pairOffset (x : Domain) (i j : Nat) : Option Int :=
  match (x.input i).winOff, (x.input j).winOff with
  | some a, some b => some (a - b)
  | _, _ => none

/-- A domain begins its next window. -/
def Domain.newWindow (x : Domain) : Domain :=
  { x with winFrom := x.ns, inputs := x.inputs.map fun e => (e.1, { e.2 with winPresent := 0 }) }

/-- Number of the 100 s window that runs.  DESIGN CHOICE (log entry 65): the grid that both domains share is that of the multiples of
100 s of the active domain's time. -/
def driftIndex (s : State) : Nat := s.activeDom.ns / 100000000000

/-- DRIFT_WINDOW_END (R58): one grid for both domains; nothing happens within a window. -/
def driftWindowEnd (s : State) (m0 m1 : List (Fin 24 × Int)) : State :=
  if driftIndex s = s.time.driftAt then s
  else
    let s1 := driftWindow (driftWindow s 0 m0) 1 m1
    let s2 := s1.setDom 0 (s1.dom 0).newWindow
    let s3 := s2.setDom 1 (s2.dom 1).newWindow
    { s3 with time := { s3.time with driftWindows := s3.time.driftWindows + 1, driftAt := driftIndex s } }

/-! ## Time commands (R56, R464) -/

/-- Predicted time error in ns since the last lock (R64, R464).  DESIGN CHOICE (log entry 65): the manual says from what it is
computed and not how; the model takes band × t + |a| × t² / 2. -/
def predictedError (s : State) (d : Nat) : Nat :=
  let x := s.dom d
  if x.st = 2 then 0
  else match x.lastLocked with
    | none => 0xFFFFFFFF
    | some t0 =>
      let t : Rat := (((x.ns - t0 : Nat) : Int) : Rat) / 1000000000
      let a := if x.ageRate < 0 then 0 - x.ageRate else x.ageRate
      let e := (((s.param 0x0203 0 : Nat) : Int) : Rat) * t + a * t * t / 2
      min e.floor.toNat 0xFFFFFFFE

/-- One domain's block of the TIME_STATUS reply (R464). -/
def timeStatusBlock (s : State) (d : Nat) : List Byte :=
  let x := s.dom d
  let rem := match x.holdFrom with
    | some t => (t + s.param 0x0209 d * 1000000000 - x.ns) / 1000000000
    | none => 0
  leBytes 1 x.st ++ leBytes 1 (x.phaseRef.getD 255) ++ leBytes 1 (x.freqRef.getD 255) ++
  leBytes 1 (match x.phaseRef with | some p => (x.input p).rank | none => 255) ++
  leInt 4 (clampInt (-2147483648) 2147483647 (ratRound (x.y * 1000))) ++
  leBytes 4 rem ++ leBytes 4 (predictedError s d) ++ leInt 8 x.phaseErr

/-- TIME_STATUS (R464). -/
def cmdTimeStatus (rq : Req) (_ : List Byte) (s : State) : State :=
  replyOk s rq (leBytes 1 s.time.active ++ leBytes 1 (b2n s.time.aligned) ++ [0, 0] ++
    leBytes 1 s.time.tod0.taiUtc ++ leBytes 1 s.time.tod0.leap ++ leBytes 1 s.time.tod1.taiUtc ++
    leBytes 1 s.time.tod1.leap ++ timeStatusBlock s 0 ++ timeStatusBlock s 1)

/-- TIME_READ (R464). -/
def cmdTimeRead (rq : Req) (p : List Byte) (s : State) : State :=
  let d := rd p 0 1
  if 2 ≤ d then refuse s rq dzRange 0
  else
    let x := s.dom d
    replyOk s rq (leBytes 6 x.seconds ++ leBytes 4 (x.ns % 1000000000) ++ leBytes 4 (x.count % 2 ^ 32) ++ [0, 0] ++
      leBytes 8 s.now)

/-- TIME_SWITCH (R37): the wait phase ends at the next 1 ms evaluation. -/
def cmdTimeSwitch (rq : Req) (p : List Byte) (s : State) : State :=
  let d := rd p 0 1
  if 2 ≤ d then refuse s rq dzRange 0
  else if s.time.switchWait.isSome then refuse s rq dzBusy 0xFFFF
  else { s with time := { s.time with
    switchWait := some { req := rq, target := d, force := bit (rd p 1 1) 0 } } }

/-- The extension of a 32-bit stamp against a domain time in ns (R55). -/
def extendStamp (r stamp : Nat) : Int :=
  (r : Int) + toSigned 32 ((stamp + 2 ^ 32 - r % 2 ^ 32) % 2 ^ 32)

/-- TIME_PTP_FEED (R56): checks, then the measurement updates the slot and runs a servo update with e = -offset. -/
def cmdTimePtpFeed (rq : Req) (p : List Byte) (s : State) : State :=
  let off := toSigned 64 (rd p 0 8)
  let stamp := rd p 16 4
  let d := rd p 20 1
  let slot := rd p 21 1
  let cc := rd p 22 1
  if 2 ≤ d || 4 ≤ slot then refuse s rq dzRange 0
  else if s.paramTime 0x020D (d * 4 + slot) = 255 then refuse s rq dzBadParam 0
  else
    let x := s.dom d
    if decide (1000000000 < (x.ns : Int) - extendStamp x.ns stamp) then refuse s rq dzLate 0
    else
      let s1 := updInput s d (20 + slot) (fun r => { r.appear x with rank := clockClassRank cc, lastMeas := s.now }) false
      let x1 := s1.dom d
      let isPhase := x1.phaseRef = some (20 + slot)
      let isFreq := x1.freqRef = some (20 + slot)
      let m : ServoMeas := { freqPhase := if isFreq then some (0 - off) else none,
                             phase := if isPhase then some (0 - off) else none, freqErr := 5000, offs := [] }
      replyOk (if isPhase || isFreq then servoUpdate s1 d m else s1) rq []

end Sys2Proof.Machine
end

