-- ==== Sys2Proof/Machine/AirTime.lean ====
section
/-! DEFINITION. Air Time (R78 to R91): its value from domain time and r, the advance of one time-clock cycle, and
the frames, slots and symbols of a carrier. -/

namespace Sys2Proof.Machine

/-- The value of R78 in units of 2^-32 Tc: (D + r - 315,964,819 s) times 1,966,080,000 Tc/s. -/
def airFormula (s : State) : Nat :=
  let d := (s.dom s.time.active).count
  let x : Int := (d : Int) + s.time.r * 65536 - 315964819 * 1000000000 * 4294967296
  (x * 6144 / 3125).toNat

/-- One domain's advance in one time-clock cycle (R32): the nominal 1/491.52 MHz times (1 + y × 10^-9), rounded down to
2^-32 ns.  DESIGN CHOICE (log entry 65): the manual does not say how the advance is rounded.  In HOLDOVER the correction follows
f + a × t (R63). -/
def domainTick (s : State) (d : Nat) (x : Domain) : Domain :=
  let q : Rat := (3125 / 1536 : Rat) * 4294967296 * (1 + x.y / 1000000000)
  let z := { x with count := x.count + q.floor.toNat }
  if z.st = 4 then { z with y := holdoverY s d z } else z

/-- An output pulse after some active-domain time, in 2^-32 ns (R12, R71). -/
def PpsOut.pass (t : Nat) (p : PpsOut) : PpsOut := { p with fall := p.fall.map fun v => v - t }

/-- Domain time, in 2^-32 ns, in which the slew moves r by 2^-16 ns (R35): 10 ns per second. -/
def slewUnit : Nat := 65536 * 100000000

/-- r after the slew has run for `acc` of domain time, and the time left over (R35). -/
def slewStep (r : Int) (acc : Nat) : Int × Nat :=
  let k : Nat := acc / slewUnit
  if r.natAbs ≤ k then (r, acc)
  else if 0 < r then (r - k, acc % slewUnit) else (r + k, acc % slewUnit)

/-- The slew of r is about to reach zero exactly (R35). -/
def slewEnding (s : State) : Bool := s.time.r ≠ 0 && decide (s.time.r.natAbs ≤ s.time.slewFrac / slewUnit)

/-- One time-clock cycle (R32, R35, R79): both domains advance, r slews, and Air Time never decreases. -/
def timeTick (s : State) : State :=
  let d0 := domainTick s 0 s.time.dom0
  let d1 := domainTick s 1 s.time.dom1
  let dc := if s.time.active = 0 then d0.count - s.time.dom0.count else d1.count - s.time.dom1.count
  let rs := if s.time.r = 0 then (0, 0) else slewStep s.time.r (s.time.slewFrac + dc)
  let pps := s.time.pps.map fun e => (e.1, e.2.pass dc)
  let s1 := { s with time := { s.time with dom0 := d0, dom1 := d1, r := rs.1, slewFrac := rs.2, pps := pps } }
  let stale := (s.time.stale.filter fun e => e.2.2).map fun e => (e.1, e.2.1, false)
  { s1 with time := { s1.time with air := max s.time.air (airFormula s1), prevNow := s.now, stale := stale } }

/-- RESIDUAL_SLEW_END (R35): r reaches zero exactly. -/
def residualSlewEnd (s : State) : State :=
  if slewEnding s then { s with time := { s.time with r := 0, slewFrac := 0 } } else s

/-- |r| counts as above the alarm value (R39): it has risen above it, and has not yet fallen below. -/
def residualAbove (s : State) : Bool :=
  let v := s.param 0x0204 0 * 65536
  if s.time.alarm then decide (v ≤ s.time.r.natAbs) else decide (v < s.time.r.natAbs)

/-- RESIDUAL_THRESHOLD_CROSSING (R39): |r| has crossed the alarm value in either direction. -/
def residualCrossing (s : State) : State :=
  let above := residualAbove s
  if above = s.time.alarm then s
  else
    timeEvt { s with time := { s.time with alarm := above } } 0x0208
      (leBytes 1 (b2n above) ++ leInt 8 (s.time.r / 65536))

/-- TIME_BUS_PARITY_ERROR (R81): the unit's copy skips the update of this cycle and keeps its value; it takes the next good
update whole.  A Prism engine, a DMA engine and a Mill slice compare against their copy (`State.localNow`). -/
def timeBusParityError (s : State) (tile cls : Nat) (unit : Byte) : State :=
  let key := cls * 256 + unit.toNat
  let v := match mapGet? s.time.stale key with | some e => e.1 | none => s.time.prevNow
  timeEvt { s with time := { s.time with stale := mapSet s.time.stale key (v, true) } } 0x0305
    (leBytes 1 tile ++ leBytes 1 cls ++ [unit])

/-! ## Frames, slots and symbols (R86 to R88) -/

/-- The numerology of a carrier: n, N, whether the first symbol is 1,024 Tc longer, and S (R87). -/
structure Numerology where
  n : Nat
  len : Nat
  long : Bool
  perSlot : Nat

/-- The row of R87 for a technology, spacing and cyclic prefix; none where R89 refuses the combination. -/
def numerology? (rat scs cp : Nat) : Option Numerology :=
  if rat = 0 then
    match scs, cp with
    | 0, 0 => some ⟨7, 140288, true, 14⟩
    | 1, 0 => some ⟨14, 70144, true, 14⟩
    | 2, 0 => some ⟨28, 35072, true, 14⟩
    | 2, 1 => some ⟨24, 40960, false, 12⟩
    | 3, 0 => some ⟨56, 17536, true, 14⟩
    | _, _ => none
  else if scs ≠ 0 then none
  else if cp = 0 then some ⟨7, 140288, true, 14⟩
  else if rat = 1 then some ⟨6, 163840, false, 12⟩ else none

/-- Timing of a carrier: its numerology and frame offset. -/
structure CarrierTime where
  num : Numerology
  off : Nat

/-- The timing of carrier `c` as unit `u` holds it. -/
def State.carrierTime (s : State) (u c : Nat) : CarrierTime :=
  { num := (numerology? (s.paramIn u 0x0301 c) (s.paramIn u 0x0302 c) (s.paramIn u 0x0303 c)).getD ⟨14, 70144, true, 14⟩
    off := s.paramIn u 0x0304 c }

/-- Symbols per frame. -/
def Numerology.perFrame (m : Numerology) : Nat := 20 * m.n

/-- Slots per frame (R87). -/
def Numerology.slots (m : Numerology) : Nat := m.perFrame / m.perSlot

/-- Start of symbol j in its half-subframe (R88). -/
def Numerology.symPos (m : Numerology) (j : Nat) : Nat :=
  if j = 0 then 0 else if m.long then 1024 + j * m.len else j * m.len

/-- Air Time at which running symbol J of frame F starts (R86, R88). -/
def CarrierTime.symStart (t : CarrierTime) (f : Int) (j : Nat) : Int :=
  (t.off : Int) + f * 19660800 + ((j / t.num.n * 983040 + t.num.symPos (j % t.num.n) : Nat) : Int)

/-- Air Time at which symbol `sym` of the running slot count Q starts (R337 counts slots from frame 0). -/
def CarrierTime.slotSym (t : CarrierTime) (q : Int) (sym : Nat) : Int :=
  let k : Int := (t.num.slots : Nat)
  t.symStart (q / k) ((q % k).toNat * t.num.perSlot + sym)

/-- Frame, running symbol within the frame at an Air Time (R86, R88). -/
def CarrierTime.atTime (t : CarrierTime) (air : Nat) : Int × Nat :=
  let x : Int := (air : Int) - t.off
  let f := x / 19660800
  let p := (x - f * 19660800).toNat
  let h := p / 983040
  let u := p - h * 983040
  let j := if t.num.long then (if u < 1024 + t.num.len then 0 else (u - 1024) / t.num.len) else u / t.num.len
  (f, h * t.num.n + j)

/-- Running slot count at an Air Time. -/
def CarrierTime.slotCount (t : CarrierTime) (air : Nat) : Int :=
  let a := t.atTime air
  a.1 * ((t.num.slots : Nat) : Int) + ((a.2 / t.num.perSlot : Nat) : Int)

/-- SFN of a frame count (R86). -/
def sfnOf (f : Int) : Nat := (f % 1024).toNat

/-- Hyper-frame number of a frame count (R86). -/
def hfnOf (f : Int) : Nat := (f / 1024 % 1024).toNat

/-- AIRTIME_READ (R101). -/
def cmdAirtimeRead (rq : Req) (_ : List Byte) (s : State) : State :=
  let x := s.dom s.time.active
  replyOk s rq (leBytes 8 s.now ++ leBytes 4 (s.time.air % 2 ^ 32) ++ leBytes 1 s.time.active ++
    leBytes 1 (b2n s.time.aligned) ++ [0, 0] ++ leInt 8 s.time.r ++ leBytes 6 x.seconds ++
    leBytes 4 (x.ns % 1000000000) ++ leBytes 6 0)

end Sys2Proof.Machine
end

