-- ==== Sys2Proof/Machine/Lanes.lean ====
section
/-! DEFINITION. The serial lanes (R104 to R130): board table, lock steps, error ratios, loops, test patterns and
eye scans.  What a link does when block lock comes and goes is in `Machine/Ports.lean`. -/

namespace Sys2Proof.Machine

/-- A reply whose fields the manual names without a byte layout (`notes/assumptions/6.md`). -/
def replyFields (s : State) (rq : Req) (fields : List Nat) : State :=
  replyOk s rq ((Config.replyLayout rq.opcode fields).take 4076)

/-- An event of a lane (R518: class 3). -/
def laneEvt (s : State) (l code : Nat) (d : List Byte) : State := raise s 3 l code d

def State.lane (s : State) (l : Nat) : Lane := mapGet s.lanes.lanes l {}

def State.setLane (s : State) (l : Nat) (x : Lane) : State :=
  { s with lanes := { s.lanes with lanes := mapSet s.lanes.lanes l x } }

/-! ## Modes and links (R104) -/

/-- Links of a port mode. -/
def linksOfMode (m : Nat) : Nat :=
  match m with
  | 1 => 1
  | 2 => 2
  | 3 => 4
  | 4 => 4
  | 5 => 4
  | _ => 0

/-- Lanes of link k of port n in mode m. -/
def lanesOfLink (m n k : Nat) : List Nat :=
  match m with
  | 1 => if k = 0 then [4 * n, 4 * n + 1, 4 * n + 2, 4 * n + 3] else []
  | 2 => if k < 2 then [4 * n + 2 * k, 4 * n + 2 * k + 1] else []
  | 3 => if k < 4 then [4 * n + k] else []
  | 4 => if k < 4 then [4 * n + k] else []
  | 5 => if k < 4 then [4 * n + k] else []
  | _ => []

/-- The link of its port that a lane serves in mode m. -/
def linkOfLane (m l : Nat) : Nat :=
  match m with
  | 1 => 0
  | 2 => l % 4 / 2
  | _ => l % 4

/-- The mode a port's engine holds. -/
def State.portMode (s : State) (n : Nat) : Nat := s.paramPort n 0x0501 n

/-- A lane's signalling is NRZ (R104). -/
def laneNrz (s : State) (l : Nat) : Bool := s.portMode (l / 4) = 4 || s.portMode (l / 4) = 5

/-- A link of a port carries FEC (R104). -/
def linkFec (s : State) (n k : Nat) : Bool :=
  match s.portMode n with
  | 1 => true
  | 2 => true
  | 3 => true
  | 4 => s.paramGroup (n / 4) 0x0405 (4 * n + k) = 1
  | _ => false

/-! ## Board table (R107 to R111) -/

/-- A byte of lane l's block. -/
def boardByte (s : State) (l i : Nat) : Nat := (byteAt 0 s.lanes.board (64 + 128 * l + i)).toNat

/-- The lane is routed on this board (R108); every lane is absent without a checked table (R110). -/
def lanePresent (s : State) (l : Nat) : Bool := bit (boardByte s l 0) 0

/-- The taps of one set lie within R109. -/
def tapsOk (taps : List Int) (main : Int) : Bool :=
  decide (24 ≤ main) && decide (main ≤ 63) && taps.all (fun t => decide (-32 ≤ t) && decide (t ≤ 32)) &&
  decide (taps.foldl (fun a t => a + t.natAbs) main.natAbs ≤ 64)

/-- Entry e of lane l is usable (R109). -/
def entryUsable (s : State) (l e : Nat) : Bool :=
  let b := fun i => boardByte s l (16 + 16 * e + i)
  let t := fun i => toSigned 8 (b i)
  decide (e < 5) && bit (b 0) 7 && tapsOk [t 1, t 2, t 3, t 5] (t 4) && tapsOk [t 7, t 9] (t 8) &&
  tapsOk [t 11, t 13] (t 12) && decide (b 6 ≤ 31) && decide (b 10 ≤ 31) && decide (b 14 ≤ 31)

/-- The first check of R110 that a table fails: 0 signature, 1 version or length, 2 CRC. -/
def boardCheck (b : List Byte) : Option Nat :=
  if rd b 0 4 ≠ 0x4C4E5442 then some 0
  else if rd b 4 2 ≠ 1 || rd b 8 4 ≠ 32832 then some 1
  else if crc32c (b.take 60 ++ [0, 0, 0, 0] ++ (b.drop 64)) ≠ rd b 60 4 then some 2
  else none

/-- Read and check the board table (R110), report every entry that breaks R109, its valid bit among them. -/
def loadBoard (s : State) (b : List Byte) : State :=
  match boardCheck b with
  | some why => laneEvt { s with lanes := { s.lanes with board := [] } } 0 0x0405 (leBytes 1 why ++ [0, 0])
  | none =>
    let s1 := { s with lanes := { s.lanes with board := bytesWrite 0 [] 0 b } }
    (List.range 256).foldl (fun t l =>
      (List.range 5).foldl (fun u e =>
        if !entryUsable u l e then
          laneEvt u l 0x0405 (leBytes 1 3 ++ leBytes 1 l ++ leBytes 1 e)
        else u) t) s1

/-! ## Lock steps (R114, R115) -/

/-- LANE_LOCK (R130). -/
def laneLockEvt (s : State) (l stp : Nat) (up : Bool) : State :=
  laneEvt s l 0x0401 (leBytes 1 l ++ leBytes 1 stp ++ leBytes 1 (b2n up))

/-- The lane group of a lane has power, and the lane is present. -/
def lanePowered (s : State) (l : Nat) : Bool := lanePresent s l && s.domainOn (76 + l / 16)

/-- A lane can acquire clock recovery: it has power, its port's mode uses it (R127), and it is ready (R128). -/
def laneUsable (s : State) (l : Nat) : Bool := lanePowered s l && s.portMode (l / 4) ≠ 0 && (s.lane l).calibrated

/-- Step 1 of R114 holds on a lane; a lane looped NEAR_PARALLEL bypasses clock recovery (R118). -/
def laneClock (s : State) (l : Nat) : Bool := (s.lane l).cdr || s.param 0x0402 l = 2

/-- CLOCK_RECOVERY_LOCK (R114 step 1). -/
def clockRecoveryLock (s : State) (l : Nat) : State :=
  let x := s.lane l
  if x.cdr || !laneUsable s l then s else laneLockEvt (s.setLane l { x with cdr := true }) l 0 true

/-- CODEWORD_LOCK (R114 step 2): FEC modes only, and only once every lane of the link has clock recovery. -/
def codewordLock (s : State) (l : Nat) : State :=
  let x := s.lane l
  let k := linkOfLane (s.portMode (l / 4)) l
  if x.codeword || !(lanesOfLink (s.portMode (l / 4)) (l / 4) k).all (laneClock s) || !linkFec s (l / 4) k then s
  else laneLockEvt (s.setLane l { x with codeword := true }) l 1 true

/-! ## Eye scans (R120 to R125) -/

/-- Phases and voltages a scan visits (R121). -/
def scanPhases (st : Nat) : Nat := if st = 0 then 0 else ceilDiv 64 st
def scanVolts (st : Nat) : Nat := if st = 0 then 0 else ceilDiv 127 st

/-- Eyes of a mask in ascending order. -/
def scanEyes (mask : Nat) : List Nat := (List.range 3).filter fun e => bit mask e

/-- Points of a scan. -/
def scanTotal (c : Scan) : Nat :=
  if c.host then (scanEyes c.mask).length * scanPhases c.s * scanVolts c.t
  else (scanEyes c.mask).length * (64 + 127 - 1)

/-- Map index of the i-th point of an eye (R121, R124). -/
def scanIndex (c : Scan) (i : Nat) : Nat :=
  i / scanPhases c.s * c.t * 64 + i % scanPhases c.s * c.s

/-- The byte of a point with e errors in 10^k symbols (R124). -/
def eyeByte (k e : Nat) : Nat :=
  if e = 0 then 254
  else
    let n := 10 ^ k
    ((List.range 254).filter fun m => decide (10 ^ m * e ^ 10 ≤ n ^ 10)).length - 1

/-- Symbols per second of a lane, in units of 10 kBd. -/
def laneBaud (s : State) (l : Nat) : Nat :=
  match s.portMode (l / 4) with
  | 4 => 2578125
  | 5 => 1031250
  | _ => 5312500

/-- Points scanned in an elapsed time in Tc (R120): a point takes 10^k symbols, 10^k × 196,608 / B Tc at a rate of B, and
2 µs of settling, 3,932.16 Tc. -/
def pointsIn (s : State) (c : Scan) (tc : Nat) : Nat :=
  let b := laneBaud s c.lane
  min (scanTotal c) (tc * 100 * b / (10 ^ c.k * 19660800 + 393216 * b))

/-- LANE_EYESCAN_DONE (R123). -/
def eyescanDone (s : State) (l st n : Nat) : State :=
  laneEvt s l 0x0403 (leBytes 1 l ++ leBytes 1 st ++ leBytes 2 n)

/-- Write the points of a scan into its result, from error counts in scan order. -/
def scanStore (c : Scan) (errs : List Nat) : ScanResult :=
  let per := scanPhases c.s * scanVolts c.t
  let m := (List.range errs.length).foldl (fun acc i =>
    let eye := (scanEyes c.mask).getD (i / per) 0
    byteSet 255 acc (eye * 8128 + scanIndex c (i % per)) (BitVec.ofNat 8 (eyeByte c.k (errs.getD i 0)))) []
  { lane := c.lane, k := c.k, s := c.s, t := c.t, map := m }

/-- The result of a scan so far: the points scanned, whose error counts only the sampler knows (free values). -/
def scanSoFar (s : State) (c : Scan) : ScanResult :=
  scanStore c ((List.range (pointsIn s c (s.now - c.start))).map fun i => Config.freeNat (c.free + i))

/-- End the scan of a lane group short of its last point: a host scan keeps the points scanned and reports its status; a
trend scan is repeated later. -/
def abortScan (s : State) (g st : Nat) : State :=
  match mapGet? s.lanes.scans g with
  | none => s
  | some c =>
    let s1 := { s with lanes := { s.lanes with scans := mapDel s.lanes.scans g } }
    if c.host then
      eyescanDone { s1 with lanes := { s1.lanes with results := mapSet s1.lanes.results g (scanSoFar s c) } } c.lane st
        (pointsIn s c (s.now - c.start))
    else { s1 with lanes := { s1.lanes with trendRedo := s1.lanes.trendRedo ++ [c.lane] } }

/-- End a scan that runs on one lane. -/
def abortLaneScan (s : State) (l st : Nat) : State :=
  match mapGet? s.lanes.scans (l / 16) with
  | some c => if c.lane = l then abortScan s (l / 16) st else s
  | none => s

/-- EYESCAN_COMPLETE (R123): all points are scanned. -/
def eyescanComplete (s : State) (g : Nat) (errs : List Nat) : State :=
  match mapGet? s.lanes.scans g with
  | some c =>
    if c.host then
      let r := scanStore c (errs.take (scanTotal c))
      eyescanDone { s with lanes := { s.lanes with
        scans := mapDel s.lanes.scans g, results := mapSet s.lanes.results g r } } c.lane 0 (scanTotal c)
    else s
  | none => s

/-- A lane's trend scan is due: it never ran, or `lane.trend_period` ago, or an aborted one is to be repeated (R122,
R125). -/
def trendDue (s : State) (l : Nat) : Bool :=
  s.lanes.trendRedo.contains l ||
  match mapGet? s.lanes.trendAt l with
  | some t => decide (t + s.param 0x0407 0 * tcS ≤ s.now)
  | none => true

/-- TREND_SCAN (R125): centre row and column of each eye at k = 7, once per `lane.trend_period`. -/
def trendScan (s : State) (l : Nat) : State :=
  if !trendDue s l || s.portMode (l / 4) = 0 || (mapGet? s.lanes.scans (l / 16)).isSome || !(s.lane l).cdr then s
  else
    let c : Scan := { host := false, lane := l, mask := if laneNrz s l then 2 else 7, k := 7, s := 1, t := 1, start := s.now }
    { s with lanes := { s.lanes with scans := mapSet s.lanes.scans (l / 16) c,
                                     trendRedo := s.lanes.trendRedo.filter (· ≠ l)
                                     trendAt := mapSet s.lanes.trendAt l s.now } }

/-- LANE_EYESCAN_START (R121, R122). -/
def cmdEyescanStart (rq : Req) (p : List Byte) (s : State) : State :=
  let l := rd p 0 2
  let m := field (rd p 2 1) 2 0
  let k := rd p 3 1
  let st := rd p 4 1
  let t := rd p 5 1
  let pw := fun v => v = 1 || v = 2 || v = 4 || v = 8
  if 256 ≤ l then refuse s rq dzRange 0
  else if m = 0 || (laneNrz s l && m ≠ 2) then refuse s rq dzBadParam 0
  else if k < 6 || 12 < k || !pw st || !pw t then refuse s rq dzRange 0
  else
    let g := l / 16
    let hostRuns := match mapGet? s.lanes.scans g with | some c => c.host | none => false
    if hostRuns then refuse s rq dzBusy 0
    else if !(s.lane l).cdr || s.param 0x0402 l = 2 then refuse s rq dzNotReady 0
    else
      let s1 := abortScan s g 0
      let c : Scan := { host := true, lane := l, mask := m, k := k, s := st, t := t, start := s.now, free := s1.freeCount }
      let s2 := { s1 with freeCount := s1.freeCount + scanTotal c, lanes := { s1.lanes with
        scans := mapSet s1.lanes.scans g c
        results := mapSet s1.lanes.results g { lane := l, k := k, s := st, t := t } } }
      replyOk s2 rq []

/-- LANE_EYESCAN_ABORT (R123). -/
def cmdEyescanAbort (rq : Req) (_ : List Byte) (s : State) : State :=
  match mapGet? s.lanes.scans (rq.inst / 16) with
  | some c =>
    if c.host && c.lane = rq.inst then replyOk (abortScan s (rq.inst / 16) 1) rq [] else refuse s rq dzNotReady 0
  | none => refuse s rq dzNotReady 0

/-- The readable result of a lane: of the scan that runs on it, so far, or of the last on its group (R124). -/
def eyeResult (s : State) (l : Nat) : ScanResult :=
  let none_ : ScanResult := { lane := l, k := 0, s := 0, t := 0 }
  match mapGet? s.lanes.scans (l / 16), mapGet? s.lanes.results (l / 16) with
  | some c, some r => if c.host && c.lane = l then scanSoFar s c else if r.lane = l then r else none_
  | none, some r => if r.lane = l then r else none_
  | _, none => none_

/-- LANE_EYESCAN_READ (R124). -/
def cmdEyescanRead (rq : Req) (p : List Byte) (s : State) : State :=
  let l := rd p 0 2
  let e := rd p 2 1
  let i := rd p 4 2
  if 256 ≤ l || 3 ≤ e || 8128 ≤ i then refuse s rq dzRange 0
  else
    let n := min 4064 (8128 - i)
    let r := eyeResult s l
    replyOk s rq (leBytes 1 r.k ++ leBytes 1 r.s ++ leBytes 1 r.t ++ [0] ++ leBytes 2 Config.voltageStep ++
      leBytes 2 n ++ bytesRead 255 r.map (e * 8128 + i) n)

/-! ## Patterns, loops and entries (R112, R113, R118, R119) -/

/-- A locked checker counts up to now: the symbols of the time gone by, and of those in error as many as a free value
says (R119). -/
def prbsCount (s : State) (l : Nat) : State :=
  let x := s.lane l
  if !x.prbsLock then s
  else
    let n := (s.now - x.prbsAt) * laneBaud s l / 196608
    let (f, s1) := s.fresh
    s1.setLane l { x with
      prbsAt := s.now, prbsCmp := satAdd 64 x.prbsCmp n, prbsErr := satAdd 64 x.prbsErr (Config.freeNat f % (n + 1)) }

/-- PRBS_CHECKER_LOCK (R119). -/
def prbsCheckerLock (s : State) (l : Nat) : State :=
  if s.param 0x0404 l = 0 || !laneClock s l || (s.lane l).prbsLock then s
  else s.setLane l { s.lane l with prbsLock := true, prbsAt := s.now }

/-- The condition of R112 on a write of a lane parameter. -/
def laneWritable (s : State) (l : Nat) : Bool :=
  s.portMode (l / 4) = 0 || (mapGet? s.lanes.maint (l / 4)).isSome

/-- A pattern is allowed for the lane's signalling (R119). -/
def prbsAllowed (s : State) (l v : Nat) : Bool :=
  v = 0 || (if laneNrz s l then v ≤ 5 else 6 ≤ v)

/-- The condition of a lane parameter's own rule (R112, R118, R119): DZ_BUSY or DZ_BADPARAM where it fails. -/
def laneParamCond (s : State) (id l v : Nat) : Option Nat :=
  if !laneWritable s l then some dzBusy
  else match id with
    | 0x0401 => if entryUsable s l v then none else some dzBadParam
    | 0x0402 => if v = 3 && s.param 0x0403 l ≠ 0 then some dzBadParam else none
    | 0x0403 => if !prbsAllowed s l v || (v ≠ 0 && s.param 0x0402 l = 3) then some dzBadParam else none
    | _ => if prbsAllowed s l v then none else some dzBadParam

/-- LANE_STATUS (R115, R119): the step, the entry, the counts, the checker's counts and the channel loss. -/
def cmdLaneStatus (rq : Req) (_ : List Byte) (s0 : State) : State :=
  let l := rq.inst
  let s := prbsCount s0 l
  let x := s.lane l
  let n := l / 4
  let blk := s.linkUp n (linkOfLane (s.portMode n) l)
  let stp := if !laneClock s l then 0 else if blk then 3 else if x.codeword then 2 else 1
  replyFields s rq [stp, x.entry, x.cdrLost, x.markerLost, x.blockLost, x.badHeaders, x.corrSymbols, x.corrWords,
    x.uncorrWords, boardByte s l 1, x.prbsErr, x.prbsCmp, b2n x.prbsLock]

end Sys2Proof.Machine
end

