-- ==== Sys2Proof/Machine/Fabric.lean ====
section
/-! DEFINITION. The on-chip fabric (R350 to R377): nodes, the address map, network interfaces and generations,
injection of packets, responses, and the banks behind the fabric ports. -/

namespace Sys2Proof.Machine

/-! ## Nodes (R350, R377) -/

/-- A node in the u16 form of R377. -/
def nodeId (tile n : Nat) : Nat := tile * 128 + n

def portNode (p : Nat) : Nat := nodeId (p / 32) (p % 32)
def ddrNode (ch : Nat) : Nat := nodeId (ch / 6) (32 + ch % 6)
def hostNode (h : Nat) : Nat := nodeId (h / 2) (40 + h % 2)
def dmaNode (g : Nat) : Nat := nodeId (g / 12) (48 + g % 12)
def lanimanNode : Nat := nodeId 0 64
def clusterNode (c : Nat) : Nat := nodeId (2 + c / 16) (c % 16)
def millNode (s : Nat) : Nat := nodeId (2 + s) 64

/-- The node of Clove unit u (R350, R377 numbering). -/
def cloveNode (u : Nat) : Nat :=
  if u < 64 then nodeId (2 + u / 16) (16 + u % 16)
  else if u < 96 then nodeId (2 + (u - 64) / 8) (32 + (u - 64) % 8)
  else if u < 112 then nodeId (2 + (u - 96) / 4) (40 + (u - 96) % 4)
  else nodeId (2 + (u - 112) / 2) (44 + (u - 112) % 2)

/-- The Clove unit at a node of a compute tile. -/
def cloveAtNode (s n : Nat) : Option Nat :=
  if 16 ≤ n && n < 32 then some (16 * s + n - 16)
  else if 32 ≤ n && n < 40 then some (64 + 8 * s + n - 32)
  else if 40 ≤ n && n < 44 then some (96 + 4 * s + n - 40)
  else if 44 ≤ n && n < 46 then some (112 + 2 * s + n - 44)
  else none

/-- The power domain that holds a node (R536); none for a reserved node. -/
def nodeDomain (node : Nat) : Option Nat :=
  let t := node / 128
  let n := node % 128
  if t < 2 then
    if n < 32 then some (76 + (32 * t + n) / 4)
    else if n < 38 then some (92 + t)
    else if n = 40 || n = 41 then some 94
    else if 48 ≤ n && n < 60 then some (92 + t)
    else if n = 64 && t = 0 then some 95 else none
  else if t < 6 then
    let s := t - 2
    if n < 16 then some (16 * s + n)
    else if n = 64 then some (64 + s)
    else (cloveAtNode s n).map fun u => 68 + cloveDomainOf u
  else none

/-- The NIs of a power domain. -/
def domainNodes (d : Nat) : List Nat :=
  (List.range 1024).filter fun n => nodeDomain n = some d

/-! ## Address map (R351) -/

/-- What a fabric address names. -/
inductive Target where
  | dram (raw : Bool) (off : Nat)
  | core (k off : Nat)
  | clove (u off : Nat)
  | staging (p off : Nat)
  | mill (s off : Nat)
  | dma (g off : Nat)
  | laniman (off : Nat)
  | host (h a : Nat)
  | none
  deriving DecidableEq, Repr

/-- The address map (R351). -/
def fabTarget (a : Nat) : Target :=
  if a ≤ 0xBFFFFFFFFF then .dram false a
  else if 0x10000000000 ≤ a && a ≤ 0x1BFFFFFFFFF then .dram true (a - 0x10000000000)
  else if 0x20000000000 ≤ a && a < 0x20010000000 then .core ((a - 0x20000000000) / 0x40000) (a % 0x40000)
  else if 0x20010000000 ≤ a && a < 0x20011000000 then .clove ((a - 0x20010000000) / 0x40000) (a % 0x40000)
  else if 0x20011000000 ≤ a && a < 0x20011800000 then .clove (64 + (a - 0x20011000000) / 0x40000) (a % 0x40000)
  else if 0x20011800000 ≤ a && a < 0x20011900000 then .clove (96 + (a - 0x20011800000) / 0x10000) (a % 0x10000)
  else if 0x20011900000 ≤ a && a < 0x20011D00000 then
    .clove (112 + (a - 0x20011900000) / 0x80000) ((a - 0x20011900000) % 0x80000)
  else if 0x20020000000 ≤ a && a < 0x20028000000 then
    (if (a - 0x20020000000) % 0x200000 < 0x100004 then
      .staging ((a - 0x20020000000) / 0x200000) ((a - 0x20020000000) % 0x200000) else .none)
  else if 0x20030000000 ≤ a && a < 0x20030400000 then .mill ((a - 0x20030000000) / 0x100000) (a % 0x100000)
  else if 0x20031000000 ≤ a && a < 0x20031180000 then .dma ((a - 0x20031000000) / 0x10000) (a % 0x10000)
  else if 0x20040000000 ≤ a && a ≤ 0x2007FFFFFFF then .laniman (a - 0x20040000000)
  else if 0x8000000000000000 ≤ a && a ≤ 0xFFFFFFFFFFFFFFFF then
    .host (a / 2 ^ 61 % 4) (a % 2 ^ 61)
  else .none

/-- The channel of a data-space offset (R381). -/
def ddrChannel (off : Nat) : Nat := off / 2048 % 12

/-- The destination node of an address (R351). -/
def targetNode (t : Target) : Option Nat :=
  match t with
  | .dram _ off => some (ddrNode (ddrChannel off))
  | .core k _ => some (clusterNode (k / 16))
  | .clove u _ => some (cloveNode u)
  | .staging p _ => some (portNode p)
  | .mill s _ => some (millNode s)
  | .dma g _ => some (dmaNode g)
  | .laniman _ => some lanimanNode
  | .host h _ => some (hostNode h)
  | .none => none

/-- Size of a Clove unit's bank (R368). -/
def cloveBankSize (u : Nat) : Nat := if u < 96 then 0x40000 else if u < 112 then 0x10000 else 0x80000

/-! ## Crossing table (R361) -/

/-- The neighbour tile toward a destination tile; the destination itself over a direct boundary. -/
def crossing (src dst : Nat) : Nat :=
  match src, dst with
  | 0, 1 => 2
  | 0, 3 => 2
  | 0, 5 => 4
  | 1, 0 => 5
  | 1, 2 => 3
  | 1, 4 => 5
  | 2, 1 => 3
  | 2, 5 => 3
  | 3, 0 => 2
  | 3, 4 => 2
  | 4, 1 => 5
  | 4, 3 => 5
  | 5, 0 => 4
  | 5, 2 => 4
  | _, d => d

/-- The boundary between two neighbouring tiles, numbered in the order of R24. -/
def boundaryOf (a b : Nat) : Nat :=
  let x := min a b
  let y := max a b
  match x, y with
  | 0, 2 => 0
  | 0, 4 => 1
  | 1, 3 => 2
  | 1, 5 => 3
  | 2, 3 => 4
  | 4, 5 => 5
  | 2, 4 => 6
  | 3, 5 => 7
  | _, _ => 255

/-- The boundaries a packet crosses, at most three (R25, R361). -/
def crossings (src dst : Nat) : List Nat :=
  if src = dst then []
  else
    let a := crossing src dst
    if a = dst then [boundaryOf src a]
    else
      let b := crossing a dst
      if b = dst then [boundaryOf src a, boundaryOf a b]
      else [boundaryOf src a, boundaryOf a b, boundaryOf b dst]

/-- Bridge link used within a boundary (R361). -/
def bridgeLink (src dst : Nat) : Nat := (src % 128 + dst % 128) % 16

/-! ## Network interfaces and generations (R363, R426) -/

/-- Key of the NI of a master: a DMA channel keeps a generation of its own (R426). -/
def niKey (node chan : Nat) : Nat := if chan < 768 then 4096 + chan else node

def State.ni (s : State) (k : Nat) : Ni := mapGet s.fab.nis k {}

def State.setNi (s : State) (k : Nat) (x : Ni) : State :=
  { s with fab := { s.fab with nis := mapSet s.fab.nis k x } }

/-- A number of fabric cycles in Tc, rounded up (2.0 GHz). -/
def fabCycles (n : Nat) : Nat := ceilDiv (n * 196608) 200000

/-- Master reset of an NI or of one channel (R363): poison a part-way write, advance the generation, free the tags.
A reset that would return to a generation value within 67,584 cycles of leaving it waits. -/
def masterReset (s : State) (node chan : Nat) : State :=
  let k := niKey node chan
  let x := s.ni k
  let next := (x.gen + 1) % 4
  let mine := fun (o : Outstanding) => o.node = node && (768 ≤ chan || o.chan = chan)
  let late := match mapGet? x.left next with
    | some t => decide (s.now < t + fabCycles 67584)
    | none => false
  if late then s.setNi k { x with resetWaits := true }
  else
    let s1 := s.setNi k { x with gen := next, left := mapSet x.left x.gen s.now, resetWaits := false }
    { s1 with fab := { s1.fab with outst := s1.fab.outst.filter fun o => !mine o } }

/-- The lowest free tag of a node (R353: 0 to 255). -/
def freeTag (s : State) (node : Nat) : Nat :=
  let used := (s.fab.outst.filter fun o => o.node = node).map fun o => o.tag
  ((List.range 256).filter fun t => !used.contains t).headD 0

/-- Inject a packet. -/
def inject (s : State) (m : FabMsg) : State := { s with fab := { s.fab with flight := s.fab.flight ++ [m] } }

/-- A master issues a request (R353, R355): the NI derives the destination, gives a tag and carries its generation. -/
def issue (s : State) (node chan cmd vc addr len seq : Nat) (data : List Byte) (operand : Nat) : State :=
  let tag := freeTag s node
  let gen := (s.ni (niKey node chan)).gen
  let dst := (targetNode (fabTarget addr)).getD 1023
  let s1 := if vc = 3 then s else { s with fab := { s.fab with outst := s.fab.outst ++
    [{ node := node, tag := tag, gen := gen, chan := chan, cmd := cmd, addr := addr, len := len, at_ := s.now, seq := seq }] } }
  inject s1 { cmd := cmd, vc := vc, src := node, dst := dst, addr := addr, len := len, tag := tag, gen := gen,
              data := data, operand := operand, chan := chan }

/-- A posted 8-byte WRITE on VC3 (R355). -/
def post (s : State) (node addr : Nat) (v : Nat) : State := issue s node 65535 2 3 addr 8 0 (leBytes 8 v) 0

/-- A fabric request, or work, arrives in a domain: a DEMAND domain is idle at most from now on (R540). -/
def touchDomain (s : State) (d : Nat) : State :=
  match mapGet? s.power.idleFrom d with
  | some _ => { s with power := { s.power with idleFrom := mapSet s.power.idleFrom d s.now } }
  | none => s

/-- The domain of a node, if it has one, is touched. -/
def touchNode (s : State) (node : Nat) : State :=
  match nodeDomain node with
  | some d => touchDomain s d
  | none => s

/-- NI_STALL of a source NI on a VC (R369). -/
def countStall (x : Ni) (vc n : Nat) : Ni := { x with stall := x.stall.set vc (satAdd 32 (x.stall.getD vc 0) n) }

/-- A packet leaves the list of packets on their way; the cycles its source had no credit for it are counted (R369). -/
def arrive (s : State) (m : FabMsg) : State :=
  let t : State := { s with fab := { s.fab with flight := s.fab.flight.erase { m with noCredit := 0 } } }
  if m.noCredit = 0 then t else t.setNi m.src (countStall (t.ni m.src) m.vc m.noCredit)

/-- The target's response to a request (R353 to R356): none to a posted packet. -/
def respond (s : State) (m : FabMsg) (st : Nat) (data : List Byte) (poison : Bool) (old : Nat) : State :=
  if m.vc = 3 && st ≠ 1 then s
  else
    inject s { m with cmd := if m.cmd = 2 then 6 else 5, vc := if m.vc = 2 then 2 else 1, src := m.dst, dst := m.src,
                      status := st, data := data, poison := poison, operand := old, noCredit := 0 }

/-- A refusal: nothing is executed. -/
def deny (s : State) (m : FabMsg) (st : Nat) : State := respond s m st [] false 0

/-! ## Domains (R365) -/

/-- The domain is off: its router ports answer for it. -/
def domainClosed (s : State) (d : Nat) : Bool := !s.domainOn d

/-- A router port answers for a domain and counts the answer: VC3 packets get a READ_RESP on VC1 (R365). -/
def answerOff (s : State) (m : FabMsg) (d : Nat) : State :=
  let t : State := { s with fab := { s.fab with offAnswered := mapMod s.fab.offAnswered d 0 (satAdd 32 1) } }
  respond t (if m.vc = 3 then { m with cmd := 1, vc := 0 } else m) 1 [] false 0

/-! ## Banks (R368 to R375) -/

/-- Bank keys: class 0 core, 1 Clove, 2 staging (R377). -/
def bankKey (cls inst : Nat) : Nat := cls * 4096 + inst

def State.bank (s : State) (k : Nat) : Bank := mapGet s.fab.banks k {}

def State.setBank (s : State) (k : Nat) (b : Bank) : State :=
  { s with fab := { s.fab with banks := mapSet s.fab.banks k b } }

/-- BANK_ECC (R377), at most once per 19,661 Tc per bank. -/
def bankEccEvt (s : State) (node k kind word : Nat) : State :=
  raiseLimited s 10 node 0x0B06 k 19661 1 fun _ =>
    leBytes 1 (k / 4096) ++ leBytes 2 (k % 4096) ++ leBytes 1 kind ++ leBytes 4 word ++
    leBytes 4 (s.bank k).eccCorrected

/-- Count a single-bit correction of a word; BANK_ECC kind 0 at each multiple of the step (R372). -/
def bankFixed (s : State) (node k w : Nat) : State :=
  let b := s.bank k
  let stp := s.param 0x0B03 0
  let c := satAdd 32 b.eccCorrected 1
  let s1 := s.setBank k { b with eccCorrected := c }
  if stp ≠ 0 && decide (b.eccCorrected / stp < c / stp) then bankEccEvt s1 node k 0 w else s1

/-- Count the single-bit corrections of a list of words, in order. -/
def bankCorrected (s : State) (node k : Nat) (ws : List Nat) : State := ws.foldl (fun t w => bankFixed t node k w) s

/-- FABRIC_STALL of a bank (R369). -/
def bankWaited (s : State) (k n : Nat) : State :=
  if n = 0 then s else s.setBank k { s.bank k with fabricStall := satAdd 32 (s.bank k).fabricStall n }

/-- Words found uncorrectable are marked in the bank. -/
def bankMark (s : State) (k : Nat) (bad : List Nat) : State :=
  if bad.isEmpty then s else s.setBank k { s.bank k with bad := dedupNat ((s.bank k).bad ++ bad) }

/-- Bad words that a range of bytes touches. -/
def badTouched (b : Bank) (off n : Nat) : List Nat := b.bad.filter fun w => decide (w * 8 < off + n) && decide (off < w * 8 + 8)

/-- Bad words that a range covers only in part (R374). -/
def badPartial (b : Bank) (off n : Nat) : List Nat :=
  (badTouched b off n).filter fun w => !(decide (off ≤ w * 8) && decide (w * 8 + 8 ≤ off + n))

/-- The bytes of an on-chip bank (R368). -/
def bankBytes (s : State) (cls inst : Nat) : Bytes :=
  match cls with
  | 0 => (s.core inst).dmem
  | 1 => mapGet s.clove.banks inst []
  | _ => (mapGet s.ports.ports inst {}).bank

/-- The state with a bank's bytes replaced. -/
def setBankBytes (s : State) (cls inst : Nat) (b : Bytes) : State :=
  match cls with
  | 0 => s.setCore inst { s.core inst with dmem := b }
  | 1 => { s with clove := { s.clove with banks := mapSet s.clove.banks inst b } }
  | _ =>
    let p := mapGet s.ports.ports inst {}
    { s with ports := { s.ports with ports := mapSet s.ports.ports inst { p with bank := b } } }

/-- Write bytes except those at the listed addresses (R371). -/
def bytesWriteExcept (m : Bytes) (a : Nat) (bs : List Byte) (skip : List Nat) : Bytes :=
  match bs with
  | [] => m
  | b :: t => bytesWriteExcept (if skip.contains a then m else byteSet 0 m a b) (a + 1) t skip

/-- A READ of a bank (R359, R372, R373). -/
def bankRead (s : State) (m : FabMsg) (cls inst off : Nat) (e : BankEcc) (filter : Nat → Byte → Byte) : State :=
  let k := bankKey cls inst
  let s1 := bankMark (bankCorrected (bankWaited s k e.waited) m.dst k e.corrected) k e.bad
  let hit := badTouched (s1.bank k) off m.len
  match hit with
  | [] =>
    let d := (bytesRead 0 (bankBytes s1 cls inst) off m.len).zipIdx.map fun x => filter (off + x.2) x.1
    respond s1 m 0 d false 0
  | w :: _ =>
    let b := s1.bank k
    let s2 := s1.setBank k { b with eccUncorrectable := satAdd 32 b.eccUncorrectable 1 }
    respond (bankEccEvt s2 m.dst k 1 w) m 4 (List.replicate m.len 0) true 0

/-- Words that a range of bytes touches meet words the owner wrote in the same cycle (R371). -/
def collides (off n : Nat) (owner : List Nat) : Bool :=
  owner.any fun a => decide (off / 8 ≤ a / 8) && decide (a / 8 ≤ (off + n - 1) / 8)

/-- Count a collision (R369). -/
def countCollision (s : State) (k : Nat) : State :=
  s.setBank k { s.bank k with collided := satAdd 32 (s.bank k).collided 1 }

/-- A WRITE of a bank (R364, R371, R374): committed whole, or refused whole. -/
def bankWrite (s : State) (m : FabMsg) (cls inst off : Nat) (e : BankEcc) : State :=
  let k := bankKey cls inst
  let s1 := bankMark (bankWaited s k e.waited) k e.bad
  match badPartial (s1.bank k) off m.len with
  | w :: _ => respond (bankEccEvt s1 m.dst k 2 w) m 4 [] false 0
  | [] =>
    let b := s1.bank k
    let s2 := s1.setBank k { b with bad := b.bad.filter fun w => !(badTouched b off m.len).contains w }
    let s3 := setBankBytes s2 cls inst (bytesWriteExcept (bankBytes s2 cls inst) off (padTo m.len m.data) e.owner)
    if collides off m.len e.owner then respond (countCollision s3 k) m 5 [] false 0
    else respond s3 m 0 [] false 0

/-- An ATOMIC_ADD or SWAP at a bank (R370, R374). -/
def bankAtomic (s : State) (m : FabMsg) (cls inst off : Nat) (e : BankEcc) (f : Nat → Nat) : State :=
  let k := bankKey cls inst
  let s1 := bankMark (bankCorrected (bankWaited s k e.waited) m.dst k e.corrected) k e.bad
  match badTouched (s1.bank k) off m.len with
  | w :: _ => respond (bankEccEvt s1 m.dst k 2 w) m 4 [] false 0
  | [] =>
    let old := leNat (bytesRead 0 (bankBytes s1 cls inst) off m.len)
    let new := f old % 2 ^ (8 * m.len)
    let s2 := setBankBytes s1 cls inst
      (bytesWriteExcept (bankBytes s1 cls inst) off (leBytes m.len new) e.owner)
    if collides off m.len e.owner then respond (countCollision s2 k) m 5 [] false old
    else respond s2 m 0 [] false old

end Sys2Proof.Machine
end

