-- ==== Sys2Proof/Machine/ExtMem.lean ====
section
/-! DEFINITION. External memory and its protection (R378 to R411): the data space and its regions, the page
cache, encryption, counters and the counter tree, the checks of a protected read, poison, scrubbing and
re-keying, and the commands of the regions. -/

namespace Sys2Proof.Machine

/-! ## Data space (R381) -/

/-- Bytes of the data space: 12 times 31/32 of C. -/
def dataSpace (s : State) : Nat := 12 * 31 * 2 ^ 25 * s.mem.capacity

def pageOf (off : Nat) : Nat := off / 2048
/-- Line number in the data space. -/
def lineOf (off : Nat) : Nat := off / 64
/-- Channel of a page, its channel page and the tile of its engine (R381). -/
def pageChannel (p : Nat) : Nat := p % 12
def channelPage (p : Nat) : Nat := p / 12
def pageTile (p : Nat) : Nat := p % 12 / 6
/-- Channel byte address of a page's check block (R381). -/
def checkBlockAddr (c p : Nat) : Nat := 31 * (c * 2 ^ 30) / 32 + 64 * channelPage p
/-- Pages below page `x` that lie on a tile. -/
def tilePagesBelow (tile x : Nat) : Nat := x / 12 * 6 + (if tile = 0 then min (x % 12) 6 else x % 12 - 6)

/-- A region descriptor (R382). -/
def State.region (s : State) (g : Nat) : Region := mapGet s.mem.regions g {}
/-- The state with a region descriptor replaced. -/
def State.setRegion (s : State) (g : Nat) (r : Region) : State :=
  { s with mem := { s.mem with regions := mapSet s.mem.regions g r } }

/-- What an offset of the data space lies in. -/
inductive MemPlace where
  | outside
  | image
  | arena
  | region (g : Nat)
  deriving DecidableEq, Repr

/-- The place of an offset (R382, R385, R563). -/
def memPlace (s : State) (off : Nat) : MemPlace :=
  if off < 0x10000000 then .image
  else if (match s.mem.arenaBottom with | some b => decide (b ≤ off) | none => false) then .arena
  else
    match s.mem.regions.find? (fun e => e.2.st ≠ 0 && decide (e.2.base ≤ off) && decide (off < e.2.base + e.2.size)) with
    | some e => .region e.1
    | none => .outside

/-- The region that a page lies in. -/
def pageRegion (s : State) (p : Nat) : Option Nat :=
  match memPlace s (p * 2048) with
  | .region g => some g
  | _ => none

/-- The page lies in a protected region. -/
def pageProtected (s : State) (p : Nat) : Option Nat :=
  match pageRegion s p with
  | some g => if (s.region g).mode = 2 then some g else none
  | none => none

/-! ## Views (R387) -/

/-- The view a master may use: false protected, true raw, none neither. -/
def masterView (s : State) (src chan : Nat) : Option Bool :=
  if chan < 768 then some (decide (s.paramDma (chan / 32) 0x0E01 chan ≠ 0))
  else if src = lanimanNode then some (decide (chan = 65534))
  else
    let t := src / 128
    let n := src % 128
    if t < 2 then (if n < 32 then some false else none)
    else if t < 6 then (if n < 16 then some false else if (cloveAtNode (t - 2) n).isSome then some false else none)
    else none

/-- Only Laniman itself reaches the Laniman image region (R387, R563). -/
def isLaniman (src chan : Nat) : Bool := src = lanimanNode && decide (768 ≤ chan) && decide (chan ≠ 65534)

/-- The status that refuses an access, 0 where it is allowed (R381 to R387). -/
def memAccess (s : State) (m : FabMsg) (raw : Bool) (off : Nat) (write : Bool) : Nat :=
  if dataSpace s < off + m.len then 3
  else if masterView s m.src m.chan ≠ some raw then 2
  else
    match memPlace s off with
    | .outside => 3
    | .image => if isLaniman m.src m.chan then 0 else 2
    | .arena => if raw && !write then 0 else 2
    | .region g =>
      let r := s.region g
      if r.st = 1 then 2
      else if raw && r.mode = 2 && write then 2
      else 0

/-- Count an access denied because its region initialises (R383). -/
def countDenied (s : State) (off : Nat) : State :=
  match memPlace s off with
  | .region g => if (s.region g).st = 1 then
      s.setRegion g { s.region g with denied := satAdd 32 (s.region g).denied 1 } else s
  | _ => s

/-! ## Encryption and tags (R396, R397) -/

/-- Line index of a data-space line: its physical position divided by 64 (R396). -/
def lineIndex (s : State) (off : Nat) : Nat :=
  (pageChannel (pageOf off) * (s.mem.capacity * 2 ^ 30) + 2048 * channelPage (pageOf off) + off % 2048) / 64

/-- The 128-bit block of R396. -/
def blockI (dom line major minor epoch : Nat) : Nat :=
  dom % 256 * 2 ^ 120 + line % 2 ^ 34 * 2 ^ 86 + major % 2 ^ 64 * 2 ^ 22 + minor % 2 ^ 7 * 2 ^ 15 + epoch % 2 ^ 15

/-- A block under a key, as a number. -/
def aesBlock (key : List Byte) (b : Nat) : Nat := leNat (Config.aes256 key (leBytes 16 b))

/-- The keystream of a line: blocks of domains 0 to 3 (R396). -/
def keystream (key : List Byte) (line major minor epoch : Nat) : List Byte :=
  (List.range 4).flatMap fun b => leBytes 16 (aesBlock key (blockI b line major minor epoch))

/-- The 256-bit key that the random-number generator gave at a draw (R395). -/
def slotKey (draw : Nat) : List Byte := Config.random draw 32

/-- One step of the multiplication of GHASH. -/
def ghashStep (x : Nat) (zv : Nat × Nat) (i : Nat) : Nat × Nat :=
  let z := if bit x (127 - i) then zv.1 ^^^ zv.2 else zv.1
  let v := if zv.2 % 2 = 1 then (zv.2 / 2) ^^^ (0xE1 * 2 ^ 120) else zv.2 / 2
  (z, v)

/-- The product of GHASH in GF(2^128). -/
def ghashMul (x y : Nat) : Nat := ((List.range 128).foldl (ghashStep x) (0, y)).1

/-- GHASH of AES-GCM over 16-byte blocks. -/
def ghash (h : List Byte) (blocks : List (List Byte)) : List Byte :=
  beBytes 16 (blocks.foldl (fun acc b => ghashMul (acc ^^^ beNat b) (beNat h)) 0)

/-- The 56-bit line tag (R397). -/
def lineTag (key cipher : List Byte) (line major minor epoch : Nat) : Nat :=
  let h := leBytes 16 (aesBlock key (blockI 0x20 0 0 0 0))
  let len := leBytes 16 (blockI 0x30 line major minor epoch)
  let g := ghash h ((List.range 4).map (fun b => slice cipher (16 * b) 16) ++ [len])
  (leNat g ^^^ aesBlock key (blockI 0x10 line major minor epoch)) / 2 ^ 72

/-- The 64 bytes of a counter block or node without its tag (R398). -/
def ctrBytes (b : CtrBlock) : List Byte :=
  let minors := (List.range 32).foldl (fun acc j => acc + mapGet b.minors j 0 * 2 ^ (7 * j)) 0
  leBytes 8 b.major ++ leBytes 28 minors ++ leBytes 1 b.sel ++ List.replicate 19 0

/-- The tag of a counter block or tree node, under its parent's counters (R398). -/
def nodeTag (key : List Byte) (b : CtrBlock) (tile level idx region pMajor pMinor : Nat) : Nat :=
  let line := tile * 2 ^ 33 + level * 2 ^ 30 + idx
  let body := ctrBytes b ++ List.replicate 8 0
  let h := leBytes 16 (aesBlock key (blockI 0x20 0 0 0 0))
  let len := leBytes 16 (blockI 0x40 line pMajor pMinor region)
  let g := ghash h ((List.range 4).map (fun k => slice body (16 * k) 16) ++ [len])
  (leNat g ^^^ aesBlock key (blockI 0x10 line pMajor pMinor region)) / 2 ^ 72

/-! ## Counters and the tree (R398 to R400) -/

/-- The counter block of a page. -/
def State.ctr (s : State) (p : Nat) : CtrBlock := mapGet s.mem.ctrs p {}

/-- Pages of a region on a tile. -/
def regionPages (r : Region) (tile : Nat) : Nat :=
  tilePagesBelow tile ((r.base + r.size) / 2048) - tilePagesBelow tile (r.base / 2048)

/-- Nodes at a level of a region's tree on a tile (R399). -/
def levelNodes (n k : Nat) : Nat := ceilDiv n (32 ^ k)

/-- The first level at which at most 128 nodes remain (R399). -/
def topLevel (n : Nat) : Nat :=
  ((List.range 8).filter fun k => decide (levelNodes n k ≤ 128)).headD 7

/-- The key of a counter block (level 0) or node. -/
def blockKey (g tile level idx : Nat) : Nat := ((g * 2 + tile) * 8 + level) * 2 ^ 28 + idx

/-- The key of the tag block that holds the tags of lines 8q to 8q + 7 of page i (R397, R400): levels 5 and 6 of a key are
tag blocks, whose numbers take one bit more than a level holds. -/
def tagKey (g tile i q : Nat) : Nat := blockKey g tile (5 + (4 * i + q) / 2 ^ 28) ((4 * i + q) % 2 ^ 28)

/-- Index of a page's counter block within its region and tile. -/
def pageIdx (s : State) (g p : Nat) : Nat :=
  tilePagesBelow (pageTile p) p - tilePagesBelow (pageTile p) ((s.region g).base / 2048)

/-- Increment a minor counter; past 127 the major is incremented and every minor becomes 0 (R400). -/
def bumpMinor (b : CtrBlock) (j : Nat) : CtrBlock :=
  let v := mapGet b.minors j 0 + 1
  if 127 < v then { b with major := b.major + 1, minors := [] } else { b with minors := mapSet b.minors j v }

def ctrCacheOf (s : State) (tile : Nat) : List CacheBlock := if tile = 0 then s.mem.ctrCache0 else s.mem.ctrCache1
def setCtrCache (s : State) (tile : Nat) (c : List CacheBlock) : State :=
  if tile = 0 then { s with mem := { s.mem with ctrCache0 := c } } else { s with mem := { s.mem with ctrCache1 := c } }

/-- A dirty counter block or node leaves the cache and is written, so that it no longer counts as failed (R403): its parent's
minor counter for it is incremented (R400). -/
def bumpParent (s : State) (key : Nat) : State × Nat × Bool :=
  let idx := key % 2 ^ 28
  let lv := key / 2 ^ 28 % 8
  let gt := key / 2 ^ 31
  let top := topLevel (regionPages (s.region (gt / 2)) (gt % 2))
  let plv := if top ≤ lv then 7 else lv + 1
  let pk := blockKey (gt / 2) (gt % 2) plv (idx / 32)
  let s1 := { s with mem := { s.mem with
      nodes := mapMod s.mem.nodes pk {} fun b => bumpMinor b (idx % 32)
      failed := s.mem.failed.filter fun k => k ≠ key } }
  (s1, pk, decide (plv = 7))

/-- A block is used in a tile's counter cache of 32,768 blocks; the least recently used leaves (R400). -/
def ctrTouch (fuel : Nat) (s : State) (tile key : Nat) (dirty : Bool) : State :=
  match fuel with
  | 0 => s
  | n + 1 =>
    let c := ctrCacheOf s tile
    let was := c.any fun b => b.key = key && b.dirty
    let c1 := { key := key, dirty := dirty || was } :: c.filter fun b => b.key ≠ key
    if c1.length ≤ 32768 then setCtrCache s tile c1
    else
      let s1 := setCtrCache s tile c1.dropLast
      match c1.getLast? with
      | some v =>
        if v.dirty then
          let (s2, pk, root) := bumpParent s1 v.key
          if root then s2 else ctrTouch n s2 tile pk true
        else s1
      | none => s1

/-- The blocks that an access to lines of a page uses are in the counter cache (R400, R402): the nodes above the page's
counter block, from the highest, the counter block, and the tag blocks of the lines. -/
def ctrUse (s : State) (g p : Nat) (mask : BitVec 32) (dirty : Bool) : State :=
  let tile := pageTile p
  let i := pageIdx s g p
  let top := topLevel (regionPages (s.region g) tile)
  let nodes := (List.range top).foldl (fun t k => ctrTouch 8 t tile (blockKey g tile (top - k) (i / 32 ^ (top - k))) false) s
  let s1 := ctrTouch 8 nodes tile (blockKey g tile 0 i) dirty
  ((List.range 4).filter fun q => mask >>> (8 * q) &&& 255 ≠ 0).foldl (fun t q => ctrTouch 8 t tile (tagKey g tile i q) false) s1

/-! ## Reports (R411) -/

/-- Change the counts of a DDR channel. -/
def modChan (s : State) (ch : Nat) (f : DdrChan → DdrChan) : State :=
  { s with mem := { s.mem with chans := mapMod s.mem.chans ch {} f } }

/-- MEM_CORRECTED, with the channel's counts. -/
def memCorrected (s : State) (p bits kind : Nat) : State :=
  let ch := pageChannel p
  let s1 := modChan s ch fun c =>
    if kind = 1 then { c with checkBlock := satAdd 32 c.checkBlock 1 }
    else { c with corrected := satAdd 32 c.corrected 1 }
  raiseLimited s1 8 (ch / 6) 0x0C01 ch 19661 1 fun n =>
    leBytes 1 ch ++ leBytes 1 kind ++ leBytes 4 (channelPage p) ++ leBytes 1 (min bits 255) ++ leBytes 2 (min n 65535)

/-- MEM_UNCORRECTABLE, with the channel's count. -/
def memUncorrectable (s : State) (p src mask : Nat) : State :=
  let ch := pageChannel p
  let s1 := modChan s ch fun c => { c with uncorrectable := satAdd 32 c.uncorrectable 1 }
  raiseLimited s1 8 (ch / 6) 0x0C02 ch 19661 1 fun n =>
    leBytes 1 ch ++ leBytes 1 src ++ leBytes 4 (channelPage p) ++ leBytes 4 mask ++ leBytes 2 (min n 65535)

/-- METADATA_CORRECTED of a region (R411). -/
def metadataCorrected (s : State) (g kind off : Nat) (p : Nat) : State :=
  raiseLimited s 8 (pageTile p) 0x0D01 g 19661 1 fun n =>
    leBytes 1 g ++ leBytes 1 kind ++ leBytes 8 off ++ leBytes 2 (min n 65535)

/-- The arena page of a region's chunks in a tile's channels that holds a block of its metadata: which one is Laniman's
placement, so it is free among them (R385). -/
def metaPage (s : State) (g tile : Nat) : Nat × State :=
  let cs := (s.region g).chunks
  let p := cs.getD (Config.freeNat s.freeCount % cs.length) 0 / 2048 + Config.freeNat (s.freeCount + 1) % 32768
  let q := if pageTile p = tile then p else if p % 32768 < 32762 then p + 6 else p - 6
  (q, { s with freeCount := s.freeCount + 2 })

/-- METADATA_CORRECTED that names the arena page of a region's metadata on a tile. -/
def metaFixed (s : State) (g tile kind : Nat) : State :=
  let m := metaPage s g tile
  metadataCorrected m.2 g kind (m.1 * 2048) m.1

/-- MEM_UNCORRECTABLE that names the arena page of a region's metadata on a tile. -/
def metaLost (s : State) (g tile mask : Nat) : State :=
  let m := metaPage s g tile
  memUncorrectable m.2 m.1 3 mask

/-- An integrity violation: counted, PROT_TAMPER raised, and the tamper action taken (R402 to R405, R411). -/
def tamper (s : State) (g tile cause level off : Nat) : State :=
  let s1 := s.setRegion g { s.region g with violations := satAdd 32 (s.region g).violations 1 }
  let s2 := raiseLimited s1 8 tile 0x0D02 g 19661 1 fun n =>
    leBytes 1 g ++ leBytes 1 tile ++ leBytes 1 cause ++ leBytes 1 level ++ leBytes 8 off ++ leBytes 2 (min n 65535)
  if s.param 0x0D01 0 = 1 then enterSafe s2 2 0 else s2

/-- A read answered with poison counts in POISON_READ of its channel (R393). -/
def poisonRead (s : State) (p : Nat) : State :=
  modChan s (pageChannel p) fun c => { c with poisonRead := satAdd 32 c.poisonRead 1 }

/-- Where an arena page's data-space offset is named and its kind depends on Laniman's placement, the kind is a free
value. -/
def arenaCorrected (s : State) (p : Nat) : State :=
  let g := match s.mem.regions.find? (fun e => e.2.chunks.contains (p * 2048 / 0x4000000 * 0x4000000)) with
    | some e => e.1
    | none => 0
  let (k, s1) := s.fresh
  metadataCorrected s1 g (Config.freeNat k % 3) (p * 2048) p

/-- Report a corrected or uncorrectable decode of a page. -/
def decodeReport (s : State) (p : Nat) (d : Decode) (src mask : Nat) : State :=
  match d with
  | .clean => s
  | .corrected bits kind =>
    if memPlace s (p * 2048) = .arena then arenaCorrected s p else memCorrected s p bits kind.val
  | .uncorrectable => memUncorrectable s p src mask

/-! ## Page cache (R392, R393) -/

def cacheOf (s : State) (tile : Nat) : List CachePage := if tile = 0 then s.mem.cache0 else s.mem.cache1
def setCache (s : State) (tile : Nat) (c : List CachePage) : State :=
  if tile = 0 then { s with mem := { s.mem with cache0 := c } } else { s with mem := { s.mem with cache1 := c } }

/-- The cached page, if resident. -/
def cachedPage (s : State) (p : Nat) : Option CachePage := (cacheOf s (pageTile p)).find? fun c => c.page = p

/-- Lines that a range touches, as a mask within its page. -/
def lineMask (off n : Nat) : BitVec 32 :=
  BitVec.ofNat 32 ((List.range 32).foldl (fun acc j =>
    if decide (off % 2048 < 64 * j + 64) && decide (64 * j < off % 2048 + n) then acc + 2 ^ j else acc) 0)

/-- Lines that a range covers whole. -/
def fullMask (off n : Nat) : BitVec 32 :=
  BitVec.ofNat 32 ((List.range 32).foldl (fun acc j =>
    if decide (off % 2048 ≤ 64 * j) && decide (64 * j + 64 ≤ off % 2048 + n) then acc + 2 ^ j else acc) 0)

/-- Lines of a page as data-space line numbers. -/
def maskLines (p : Nat) (m : BitVec 32) : List Nat :=
  ((List.range 32).filter fun j => m.getLsbD j).map fun j => p * 32 + j

/-- Poison lines, or clear the poison of lines. -/
def poisonLines (s : State) (ls : List Nat) : State :=
  { s with mem := { s.mem with poison := dedupNat (s.mem.poison ++ ls) } }
def unpoisonLines (s : State) (ls : List Nat) : State :=
  { s with mem := { s.mem with poison := s.mem.poison.filter fun l => !ls.contains l } }

/-- The slot that a running sweep moves a region to: the one loaded under the region's epoch (R407). -/
def sweepSlot (r : Region) : Nat := if r.epochB = r.epoch && r.slotB = 1 then 1 else 0

/-- The failed blocks without those that a write of the page's counter block writes again (R403). -/
def clearFailed (s : State) (key : Nat) : State :=
  { s with mem := { s.mem with failed := s.mem.failed.filter fun k => k ≠ key } }

/-- A block above a page has failed its tag and was not written again: the page's lines read as poison (R403). -/
def failedAbove (s : State) (p : Nat) : Bool :=
  match pageProtected s p with
  | some g =>
    let tile := pageTile p
    let i := pageIdx s g p
    s.mem.failed.any fun k => (List.range 7).any fun lv => k = blockKey g tile lv (i / 32 ^ lv)
  | none => false

/-- Write a page of a protected region in the every-line-valid form (R401). -/
def writeWholePage (s : State) (g p : Nat) (bad : List Nat) : State :=
  let c := s.ctr p
  let sel := if (s.region g).sweep.isSome then sweepSlot (s.region g) else c.sel
  let key := blockKey g (pageTile p) 0 (pageIdx s g p)
  let s1 := { s with mem := { s.mem with ctrs := mapSet s.mem.ctrs p { major := c.major + 1, minors := [], sel := sel } } }
  let s2 := clearFailed (unpoisonLines s1 (maskLines p (BitVec.allOnes 32))) key
  ctrUse (if bad.isEmpty then s2 else poisonLines s2 bad) g p (BitVec.allOnes 32) true

/-- Write a dirty page of a protected region back (R401); `d` is what the check of its invalid lines found.  A line under a
failed block, or under a slot that is RETIRED or EMPTY, fails its check too (R402, R403). -/
def protWriteBack (s : State) (g : Nat) (c : CachePage) (d : Decode) : State :=
  let p := c.page
  let slotSt := if (s.ctr p).sel = 0 then (s.region g).slotA else (s.region g).slotB
  let some_ := c.valid ≠ BitVec.allOnes 32
  let lost := some_ && failedAbove s p
  let retired := some_ && !lost && slotSt ≠ 1
  let bad := if d = .uncorrectable || lost || retired then maskLines p (~~~ c.valid) else []
  let sr := if retired then tamper s g (pageTile p) 2 255 (bad.headD 0 * 64) else s
  let s0 := decodeReport sr p d 3 (if d = .uncorrectable then (~~~ c.valid).toNat else 0)
  let dirty := (List.range 32).filter fun j => c.dirty.getLsbD j
  let b := s0.ctr p
  let ovr := dirty.any fun j => decide (127 ≤ mapGet b.minors j 0)
  if c.valid = BitVec.allOnes 32 then writeWholePage s0 g p []
  else if ovr || (s0.region g).sweep.isSome then
    writeWholePage s0 g p (bad ++ (s0.mem.poison.filter fun l => l / 32 = p && !c.valid.getLsbD (l % 32)))
  else
    let b1 := { b with minors := dirty.foldl (fun m j => mapMod m j 0 (· + 1)) b.minors }
    let s1 := { s0 with mem := { s0.mem with ctrs := mapSet s0.mem.ctrs p b1 } }
    let s2 := clearFailed (unpoisonLines s1 (maskLines p c.dirty)) (blockKey g (pageTile p) 0 (pageIdx s0 g p))
    ctrUse (if bad.isEmpty then s2 else poisonLines s2 bad) g p c.dirty true

/-- Write a page back: an ECC_ONLY page with its new check block (R393), a protected one by R401. -/
def writeBack (s : State) (c : CachePage) (d : Decode) : State :=
  if c.dirty = 0 then s
  else match pageProtected s c.page with
    | some g => protWriteBack s g c d
    | none =>
      let s1 := unpoisonLines s (maskLines c.page c.dirty)
      if c.valid = BitVec.allOnes 32 then s1
      else match d with
        | .clean => s1
        | .corrected bits kind => memCorrected s1 c.page bits kind.val
        | .uncorrectable => memUncorrectable (poisonLines s1 (maskLines c.page (~~~ c.valid))) c.page 1 (~~~ c.valid).toNat

/-- Make lines of a page valid, and dirty, in the cache; `d` is what a fetch for an evicted page found (R392). -/
def cachePut (s : State) (p : Nat) (valid dirty : BitVec 32) (d : Decode) : State :=
  let tile := pageTile p
  let c := cacheOf s tile
  match c.find? fun e => e.page = p with
  | some e =>
    setCache s tile ({ e with valid := e.valid ||| valid, dirty := e.dirty ||| dirty } :: c.filter fun x => x.page ≠ p)
  | none =>
    let sel := c.filter fun e => Config.cacheSet e.page % 256 = Config.cacheSet p % 256
    let new : CachePage := { page := p, valid := valid, dirty := dirty }
    if sel.length < 16 then setCache s tile (new :: c)
    else
      match sel.getLast? with
      | some v => writeBack (setCache s tile (new :: c.filter fun x => x.page ≠ v.page)) v d
      | none => setCache s tile (new :: c)

/-- A page is used: it becomes the most recently used. -/
def cacheUse (s : State) (p : Nat) : State :=
  let tile := pageTile p
  match cachedPage s p with
  | some e => setCache s tile (e :: (cacheOf s tile).filter fun x => x.page ≠ p)
  | none => s

/-- The lines of a range are valid in the cache. -/
def cacheHit (s : State) (off n : Nat) : Bool :=
  match cachedPage s (pageOf off) with
  | some c => lineMask off n &&& c.valid = lineMask off n
  | none => false

/-- Write a dirty resident page back and keep it clean. -/
def cleanPage (s : State) (p : Nat) : State :=
  match cachedPage s p with
  | some c =>
    if c.dirty = 0 then s
    else
      let tile := pageTile p
      writeBack (setCache s tile ((cacheOf s tile).map fun x => if x.page = p then { x with dirty := 0 } else x)) c .clean
  | none => s

/-- Discard the cached pages for which a test holds. -/
def dropPages (s : State) (f : Nat → Bool) : State :=
  { s with mem := { s.mem with cache0 := s.mem.cache0.filter (fun c => !f c.page)
                               cache1 := s.mem.cache1.filter (fun c => !f c.page) } }

/-- Write back every dirty page of a tile's page cache, then every dirty block of its counter cache (R408). -/
def flushTile (s : State) (tile : Nat) : State :=
  let s1 := (cacheOf s tile).foldl (fun t c => cleanPage t c.page) s
  let step := fun (t : State) (lv : Nat) =>
    ((ctrCacheOf t tile).filter fun b => b.dirty && b.key / 2 ^ 28 % 8 = lv).foldl (fun u b =>
      let (v, pk, root) := bumpParent u b.key
      let w := setCtrCache v tile ((ctrCacheOf v tile).map fun x => if x.key = b.key then { x with dirty := false } else x)
      if root then w else ctrTouch 8 w tile pk true) t
  (List.range 7).foldl step s1

/-! ## Internal access by the device's own units -/

/-- A line of the range reads as poison. -/
def rangePoisoned (s : State) (off n : Nat) : Bool :=
  let p := pageOf off
  let m := match cachedPage s p with | some c => lineMask off n &&& ~~~ c.valid | none => lineMask off n
  (maskLines p m).any (fun l => s.mem.poison.contains l) || (m ≠ 0 && failedAbove s p)

/-- The bytes at an offset of the data space, as plain text. -/
def extBytes (s : State) (off n : Nat) : List Byte := bytesRead 0 s.mem.data off n

/-- A unit of the device reads declared external memory through the protected view: the bytes, or none where the
range is not readable by it or reads as poison. -/
def extRead (s : State) (off n : Nat) : Option (List Byte) :=
  if dataSpace s < off + n then none
  else match memPlace s off with
    | .region g => if (s.region g).st = 2 && !rangePoisoned s off n then some (extBytes s off n) else none
    | _ => none

/-- The carriers whose mirror range covers a page and that this device owns, in a pool (R503, R504). -/
def mirrored (s : State) (p : Nat) : Bool :=
  decide (1 < s.param 0x1102 0) &&
  s.cfg.params.any fun e => e.1 / 65536 = 0x110B &&
    (let c := e.1 % 65536
     let b := s.param 0x110A c
     decide (b ≤ p * 2048) && decide (p * 2048 < b + e.2) && s.owns c)

/-- The mirror-dirty bit of a page is set by a write that reaches it (R504). -/
def mirrorMark (s : State) (p : Nat) : State :=
  if mirrored s p && (mapGet? s.pool.dirty p).isNone then
    { s with pool := { s.pool with dirty := mapSet s.pool.dirty p s.now } }
  else s

/-- Write plain bytes through the cache, in pieces of one page. -/
def extPutD (s : State) (off : Nat) (bs : List Byte) (d : Decode) : State :=
  let s1 := { s with mem := { s.mem with data := bytesWrite 0 s.mem.data off bs } }
  (List.range (bs.length / 2048 + 2)).foldl (fun t i =>
    let a := (pageOf off + i) * 2048
    let lo := max off a
    let hi := min (off + bs.length) (a + 2048)
    if hi ≤ lo then t else mirrorMark (cachePut t (pageOf a) (lineMask lo (hi - lo)) (lineMask lo (hi - lo)) d) (pageOf a)) s1

/-- As `extPutD`, with an eviction that finds no error. -/
def extPut (s : State) (off : Nat) (bs : List Byte) : State := extPutD s off bs .clean

/-- A unit of the device writes declared external memory: the state, or none where it is refused. -/
def extWriteD (s : State) (off : Nat) (bs : List Byte) (d : Decode) : Option State :=
  if dataSpace s < off + bs.length then none
  else match memPlace s off with
    | .region g => if (s.region g).st = 2 then some (extPutD s off bs d) else none
    | _ => none

/-- As `extWriteD`, with an eviction that finds no error. -/
def extWrite (s : State) (off : Nat) (bs : List Byte) : Option State := extWriteD s off bs .clean

/-! ## READ and WRITE at a memory-protection engine (R392 to R404) -/

/-- A raw read: plain text of an ECC_ONLY region, cipher text of a protected one (R387). -/
def rawBytes (s : State) (off n : Nat) : List Byte :=
  match memPlace s off with
  | .region g =>
    let r := s.region g
    if r.mode = 2 then
      (List.range n).map fun i =>
        let a := off + i
        let c := s.ctr (pageOf a)
        let key := slotKey (if c.sel = 0 then r.keyA else r.keyB)
        let ep := if c.sel = 0 then r.epochA else r.epochB
        let ks := keystream key (lineIndex s a) c.major (mapGet c.minors (a % 2048 / 64) 0) ep
        byteAt 0 s.mem.data a ^^^ ks.getD (a % 64) 0
    else extBytes s off n
  | .arena => (List.range n).map fun i => BitVec.ofNat 8 (Config.freeNat (s.freeCount + i))
  | _ => extBytes s off n

/-- A raw read of the arena took free bytes: what lies where in it is Laniman's placement (R385). -/
def rawTaken (s : State) (off n : Nat) : State :=
  if memPlace s off = .arena then { s with freeCount := s.freeCount + n } else s

/-- Answer a read with poison (R393). -/
def respondPoison (s : State) (m : FabMsg) (off : Nat) : State :=
  respond (poisonRead s (pageOf off)) m 4 (List.replicate m.len 0) true 0

/-- A READ of external memory that needs no DRAM (R392, R402): one that is refused, and a page-cache hit; none for a miss,
and for a raw read of a protected page or of the arena. -/
def readServe (s : State) (m : FabMsg) (raw : Bool) (off : Nat) : Option State :=
  match memAccess s m raw off false with
  | 0 =>
    if raw && ((pageProtected s (pageOf off)).isSome || memPlace s off = .arena) then none
    else if cacheHit s off m.len then some (respond (cacheUse s (pageOf off)) m 0 (extBytes s off m.len) false 0)
    else none
  | st => some (deny (countDenied s off) m st)

/-- Commit a write: the bytes, the cache's valid and dirty bits, and the answer. -/
def memCommit (s : State) (m : FabMsg) (off : Nat) (whole : Bool) (d : Decode) : State :=
  let s1 := { s with mem := { s.mem with data := bytesWrite 0 s.mem.data off (padTo m.len m.data) } }
  let s2 := cachePut s1 (pageOf off) (if whole then BitVec.allOnes 32 else lineMask off m.len) (lineMask off m.len) d
  respond (mirrorMark s2 (pageOf off)) m 0 [] false 0

/-- A WRITE of external memory that needs no DRAM (R392, R393): one that is refused, one of whole lines, and one whose other
lines are valid in the page cache; none where part of a line has to be fetched first. -/
def writeServe (s : State) (m : FabMsg) (raw : Bool) (off : Nat) (d : Decode) : Option State :=
  match memAccess s m raw off true with
  | 0 =>
    let part := lineMask off m.len &&& ~~~ fullMask off m.len
    let valid := match cachedPage s (pageOf off) with | some c => c.valid | none => 0
    if part &&& ~~~ valid = 0 then some (memCommit s m off false d)
    else if (maskLines (pageOf off) (part &&& ~~~ valid)).any (fun l => s.mem.poison.contains l) then some (deny s m 4)
    else none
  | st => some (deny (countDenied s off) m st)

/-- The view and offset of an address of the DRAM windows: raw view and offset (R387). -/
def dramTarget (a : Nat) : Bool × Nat :=
  match fabTarget a with
  | .dram rw o => (rw, o)
  | _ => (false, 0)

/-- A waiting request is for a page of an engine. -/
def waitFor (p : Nat) (w : DramWait) : Bool := pageOf (dramTarget w.req.addr).2 = p

/-- A request of external memory that needs no DRAM. -/
def memServe (s : State) (m : FabMsg) (raw : Bool) (off : Nat) (d : Decode) : Option State :=
  if m.cmd = 2 then writeServe s m raw off d else readServe s m raw off

/-- A request waits for DRAM, or behind a request that reached its page before it (R380). -/
def memWait (s : State) (m : FabMsg) (d : Decode) : State :=
  { s with mem := { s.mem with waits := s.mem.waits ++ [{ req := m, evicted := d }] } }

/-- A request reaches a memory-protection engine (R380, R392): what needs no DRAM is served at once, unless an earlier request
waits for its page.  A raw read of a protected page that is dirty in the page cache writes the page back first (R387). -/
def memRequest (s : State) (m : FabMsg) (raw : Bool) (off : Nat) (d : Decode) : State :=
  if s.mem.waits.any (waitFor (pageOf off)) then memWait s m d
  else match memServe s m raw off d with
    | some t => t
    | none => memWait (if raw && m.cmd ≠ 2 then cleanPage s (pageOf off) else s) m d

/-- The outcome of the checks on a protected read: the state after the reports, and whether the line is good. -/
def protCheck (s : State) (g off : Nat) (mask : BitVec 32) (r : DramResult) : State × Bool :=
  let p := pageOf off
  let tile := pageTile p
  let i := pageIdx s g p
  let lineOff := off / 64 * 64
  let c := s.ctr p
  let slotSt := if c.sel = 0 then (s.region g).slotA else (s.region g).slotB
  -- step 3, R403
  let fail := fun (t : State) (lv : Nat) =>
    { t with mem := { t.mem with failed := dedupNat (t.mem.failed ++ [blockKey g tile lv (i / 32 ^ lv)]) } }
  if failedAbove s p then (s, false)
  else
    let (s1, ok) := match r.meta_ with
      | none => (s, true)
      | some (lv, .corrected _ _, true) => (metaFixed s g tile (if lv = 0 then 1 else 2), true)
      | some (lv, .corrected _ _, false) => (fail (tamper s g tile 4 lv (i / 32 ^ lv)) lv, false)
      | some (lv, .clean, _) => (fail (tamper s g tile 3 lv (i / 32 ^ lv)) lv, false)
      | some (lv, .uncorrectable, _) => (fail (metaLost s g tile 0) lv, false)
    if !ok then (s1, false)
    else if slotSt ≠ 1 then (tamper s1 g tile 2 255 lineOff, false)
    else if (maskLines p mask).any (fun l => s1.mem.poison.contains l) then (s1, false)
    else if r.tagOk then (ctrUse s1 g p mask false, true)
    else
      -- R404
      match r.dataPage, r.tagPage with
      | .clean, .clean => (tamper s1 g tile 0 255 lineOff, false)
      | .uncorrectable, .uncorrectable => (memUncorrectable s1 p 3 mask.toNat, false)
      | dp, tp =>
        if r.tagAfter && (dp ≠ .uncorrectable && dp ≠ .clean || tp ≠ .uncorrectable && tp ≠ .clean) then
          let s2 := match tp with
            | .corrected _ _ => metaFixed s1 g tile 0
            | _ => s1
          let s3 := match dp with
            | .corrected bits kind => memCorrected s2 p bits kind.val
            | _ => s2
          (ctrUse s3 g p mask false, true)
        else if dp = .uncorrectable then (memUncorrectable s1 p 3 mask.toNat, false)
        else if tp = .uncorrectable then (metaLost s1 g tile mask.toNat, false)
        else (tamper s1 g tile 1 255 lineOff, false)

/-- The blocks of an access that DRAM was read for: those that a cached copy of the page does not hold (R400). -/
def missMask (s : State) (off n : Nat) : BitVec 32 :=
  match cachedPage s (pageOf off) with
  | some c => lineMask off n &&& ~~~ c.valid
  | none => lineMask off n

/-- A raw access to a page that region g protects: cipher text, without the checks of a protected read (R387). -/
def dramRaw (s : State) (m : FabMsg) (off : Nat) (mask : BitVec 32) (r : DramResult) : State :=
  match r.dataPage with
  | .uncorrectable => respondPoison (memUncorrectable s (pageOf off) 0 mask.toNat) m off
  | d =>
    let s1 := decodeReport s (pageOf off) d 0 0
    if (maskLines (pageOf off) mask).any fun l => s.mem.poison.contains l then respondPoison s1 m off
    else respond s1 m 0 (rawBytes s1 off m.len) false 0

/-- An access to a page that region g protects: the checks, then the access (R402 to R404). -/
def dramProtected (s : State) (m : FabMsg) (g off : Nat) (mask : BitVec 32) (r : DramResult) : State :=
  let pc := protCheck s g off mask r
  if m.cmd = 2 then (if pc.2 then memCommit pc.1 m off false r.evicted else deny pc.1 m 4)
  else if pc.2 then respond pc.1 m 0 (extBytes pc.1 off m.len) false 0
  else respondPoison pc.1 m off

/-- An access to a page without protection (R392, R393). -/
def dramPlain (s : State) (m : FabMsg) (raw : Bool) (off : Nat) (mask : BitVec 32) (r : DramResult) : State :=
  let p := pageOf off
  let bad := (maskLines p mask).any fun l => s.mem.poison.contains l
  match r.dataPage with
  | .uncorrectable =>
    let s1 := memUncorrectable s p 0 mask.toNat
    if m.cmd = 2 then deny s1 m 4 else respondPoison s1 m off
  | d =>
    let s1 := decodeReport s p d 0 0
    -- a poisoned line holds no data, so the fetch makes it neither valid nor dirty (R393)
    let good := (List.range 32).foldl (fun (v : BitVec 32) j => if s.mem.poison.contains (p * 32 + j) then v else v ||| 1#32 <<< j) 0
    let dirty : BitVec 32 := if d = .clean then 0 else good
    let s2 := if memPlace s off = .arena then s1 else cachePut s1 p good dirty r.evicted
    if m.cmd = 2 then (if bad then deny s1 m 4 else memCommit s2 m off false r.evicted)
    else if bad then respondPoison s1 m off
    else respond (if raw then rawTaken s2 off m.len else s2) m 0 (if raw then rawBytes s2 off m.len else extBytes s2 off m.len) false 0

/-- The answer to a request that DRAM was read for (R387, R392, R393, R402 to R404). -/
def dramAnswer (s : State) (w : DramWait) (r : DramResult) : State :=
  let m := w.req
  let s0 := { s with mem := { s.mem with waits := s.mem.waits.erase w } }
  let raw := (dramTarget m.addr).1
  let off := (dramTarget m.addr).2
  let st := memAccess s0 m raw off (m.cmd = 2)
  if st ≠ 0 then deny (countDenied s0 off) m st
  else
    match pageProtected s0 (pageOf off) with
    | some g =>
      if raw then dramRaw (cleanPage s0 (pageOf off)) m off (missMask s0 off m.len) r else dramProtected s0 m g off (missMask s0 off m.len) r
    | none => dramPlain s0 m raw off (missMask s0 off m.len) r

/-- The requests that wait for a page and need no DRAM are served in the order in which they reached it, up to the first that
needs DRAM (R380). -/
def drainPage (fuel : Nat) (s : State) (p : Nat) : State :=
  match fuel with
  | 0 => s
  | n + 1 =>
    match s.mem.waits.find? (waitFor p) with
    | none => s
    | some w =>
      match memServe s w.req (dramTarget w.req.addr).1 (dramTarget w.req.addr).2 w.evicted with
      | none => s
      | some t => drainPage n { t with mem := { t.mem with waits := t.mem.waits.erase w } } p

/-- What DRAM returned for a waiting request is checked, and the request answered (R392, R393, R402 to R404).  Operations on
one page run in the order in which they reached it: a request waits behind an earlier one for its page (R380). -/
def dramComplete (s : State) (src tag : Nat) (r : DramResult) : State :=
  match s.mem.waits.find? fun w => w.req.src = src && w.req.tag = tag with
  | none => s
  | some w =>
    let p := pageOf (dramTarget w.req.addr).2
    if s.mem.waits.find? (waitFor p) ≠ some w then s
    else drainPage s.mem.waits.length (dramAnswer s w r) p
/-! ## Regions (R382 to R386) -/

/-- Placement chunks of 64 MiB (R385). -/
def chunkSize : Nat := 0x4000000

/-- Pages of metadata that a protected region needs on a tile (R385). -/
def metaPages (r : Region) (tile : Nat) : Nat :=
  let n := regionPages r tile
  let nodes := (List.range (topLevel n)).foldl (fun acc k => acc + levelNodes n (k + 1)) 0
  ceilDiv (256 * n + 64 * n + 64 * nodes) 2048

/-- Pages that a list of chunks gives a tile. -/
def chunkPages (cs : List Nat) (tile : Nat) : Nat :=
  cs.foldl (fun acc c => acc + (tilePagesBelow tile ((c + chunkSize) / 2048) - tilePagesBelow tile (c / 2048))) 0

/-- Take chunks in order until both tiles' shares are held. -/
def takeChunks (r : Region) (have_ : List Nat) (order : List Nat) : Option (List Nat) :=
  if decide (metaPages r 0 ≤ chunkPages have_ 0) && decide (metaPages r 1 ≤ chunkPages have_ 1) then some have_
  else match order with
    | [] => none
    | c :: t => takeChunks r (have_ ++ [c]) t

/-- The bottom of the arena; the top of the data space where it is empty. -/
def arenaBottom (s : State) : Nat := s.mem.arenaBottom.getD (dataSpace s)

/-- Insert into a list of chunks sorted from the highest address down. -/
def insertDown (c : Nat) (l : List Nat) : List Nat :=
  match l with
  | [] => [c]
  | h :: t => if h < c then c :: h :: t else h :: insertDown c t

/-- The chunks of a new region and the arena's new bottom (R385): free chunks from the highest address down, then
new chunks below the bottom. -/
def place (s : State) (r : Region) : Option (List Nat × Nat) :=
  let bot := arenaBottom s
  let grow := (List.range (bot / chunkSize)).map fun i => bot - (i + 1) * chunkSize
  match takeChunks r [] (s.mem.arenaFree ++ grow) with
  | none => none
  | some cs =>
    let nb := cs.foldl min bot
    let top := s.mem.regions.foldl (fun acc e => if e.2.st = 0 then acc else max acc (e.2.base + e.2.size)) (r.base + r.size)
    if nb < max top 0x10000000 then none else some (cs, nb)

/-- Two ranges of offsets meet. -/
def rangesMeet (a n b k : Nat) : Bool := decide (a < b + k) && decide (b < a + n)

/-- MEM_REGION_READY (R411). -/
def regionReady (s : State) (g mode st : Nat) : State :=
  raise s 8 0 0x0C04 (leBytes 1 g ++ leBytes 1 mode ++ leBytes 1 st)

/-- MEM_REGION_CREATE (R383). -/
def cmdRegionCreate (rq : Req) (pl : List Byte) (s : State) : State :=
  let g := rd pl 0 1
  let mode := rd pl 1 1
  let k := rd pl 2 1
  let base := rd pl 8 8
  let size := rd pl 16 8
  let r : Region := { st := 1, mode := mode, strength := k, base := base, size := size }
  let live := s.mem.regions.filter fun e => e.2.st ≠ 0
  let prot := live.filter fun e => e.2.mode = 2
  let placed := if mode = 2 then place s r else some ([], arenaBottom s)
  if 31 < g then refuse s rq dzRange 0
  else if mode ≠ 1 && mode ≠ 2 then refuse s rq dzBadParam 0
  else if 3 < k then refuse s rq dzBadParam 0
  else if (s.region g).st ≠ 0 then refuse s rq dzBusy 0
  else if base % chunkSize ≠ 0 || size % chunkSize ≠ 0 || size = 0 || dataSpace s < base + size then refuse s rq dzRange 0
  else if mode = 2 && (decide (16 ≤ prot.length) ||
      decide (512 * 2 ^ 30 < prot.foldl (fun a e => a + e.2.size) size)) then refuse s rq dzRange 0
  else match placed with
    | none => refuse s rq dzRange 0
    | some (cs, nb) =>
      if rangesMeet base size 0 0x10000000 || live.any (fun e => rangesMeet base size e.2.base e.2.size) ||
          decide (arenaBottom s < base + size) then
        refuse s rq dzBadParam 0
      else
        let (draw, s1) := if mode = 2 then s.fresh else (0, s)
        let r1 := if mode = 2 then { r with slotA := 1, keyA := draw, epoch := 1, epochA := 1, chunks := cs } else r
        let inUse := cs
        let free := (s1.mem.arenaFree ++ (List.range ((arenaBottom s1 - nb) / chunkSize)).map fun i =>
          arenaBottom s1 - (i + 1) * chunkSize).filter fun c => !inUse.contains c
        let s2 := { s1 with mem := { s1.mem with
            regions := mapSet s1.mem.regions g r1
            arenaFree := free
            arenaBottom := if mode = 2 then some nb else s1.mem.arenaBottom } }
        replyOk s2 rq []

/-- Initialisation of a region completes: zero data under a valid page code, counters at zero, open for access (R383). -/
def regionInitComplete (s : State) (g : Nat) : State :=
  let r := s.region g
  if r.st ≠ 1 then s
  else
    let inR := fun p => decide (r.base ≤ p * 2048) && decide (p * 2048 < r.base + r.size)
    let s1 := dropPages s inR
    let s2 := { s1 with mem := { s1.mem with
        data := bytesClear s1.mem.data r.base r.size
        poison := s1.mem.poison.filter fun l => !inR (l / 32)
        ctrs := s1.mem.ctrs.filter fun e => !inR e.1 } }
    regionReady (s2.setRegion g { r with st := 2 }) g r.mode 0

/-- The arena after a region's chunks become free: free chunks at its bottom leave it (R385). -/
def shrinkArena (fuel : Nat) (free : List Nat) (bot top : Nat) : List Nat × Nat :=
  match fuel with
  | 0 => (free, bot)
  | n + 1 => if bot < top && free.contains bot then shrinkArena n (free.filter fun c => c ≠ bot) (bot + chunkSize) top
             else (free, bot)

/-- MEM_REGION_DELETE (R384). -/
def cmdRegionDelete (rq : Req) (s : State) : State :=
  let g := rq.inst
  let r := s.region g
  let ft := s.param 0x080B 0
  if r.st = 0 then refuse s rq dzNotReady 0
  else if r.st = 1 || r.sweep.isSome then refuse s rq dzBusy 0
  else if decide (r.base ≤ ft) && decide (ft < r.base + r.size) && s.anyActive then refuse s rq dzBusy 0
  else
    let inR := fun p => decide (r.base ≤ p * 2048) && decide (p * 2048 < r.base + r.size)
    let pages := ((s.mem.cache0 ++ s.mem.cache1).map fun c => c.page).filter inR
    let s1 := dropPages (pages.foldl cleanPage s) inR
    let mine := fun (k : Nat) => k / 2 ^ 31 / 2 = g
    let free0 := r.chunks.foldl (fun l c => insertDown c l) s1.mem.arenaFree
    let fb := shrinkArena (free0.length + 1) free0 (arenaBottom s1) (dataSpace s1)
    let s2 := { s1 with mem := { s1.mem with
        regions := mapDel s1.mem.regions g
        ctrs := s1.mem.ctrs.filter fun e => !inR e.1
        nodes := s1.mem.nodes.filter fun e => !mine e.1
        failed := s1.mem.failed.filter fun k => !mine k
        ctrCache0 := s1.mem.ctrCache0.filter fun b => !mine b.key
        ctrCache1 := s1.mem.ctrCache1.filter fun b => !mine b.key
        arenaFree := fb.1
        arenaBottom := if fb.2 < dataSpace s1 then some fb.2 else none } }
    replyOk (regionReady s2 g r.mode 1) rq []

/-- MEM_STATUS (R386, R393): the fields that the chapter lists, in a layout it does not state. -/
def cmdMemStatus (rq : Req) (s : State) : State :=
  let regs := (List.range 32).flatMap fun g =>
    let r := s.region g
    [r.st, r.mode, r.strength, r.base, r.size, r.slotA, r.slotB, r.epoch, b2n r.sweep.isSome,
     r.sweep.getD 0, r.violations] ++ r.chunks
  let chs := (List.range 12).flatMap fun c =>
    let d := mapGet s.mem.chans c {}
    [d.corrected, d.checkBlock, d.uncorrectable, d.poisonRead]
  replyOk s rq (Config.replyLayout 0x0503 (regs ++ [arenaBottom s] ++ s.mem.arenaFree ++ chs))

/-- PROT_REKEY (R407). -/
def cmdRekey (rq : Req) (s : State) : State :=
  let g := rq.inst
  let r := s.region g
  if r.st = 0 || r.mode ≠ 2 then refuse s rq dzNotReady 0
  else if r.st = 1 || r.sweep.isSome then refuse s rq dzBusy 0
  else
    let (draw, s1) := s.fresh
    let ep := (r.epoch + 1) % 2 ^ 15
    let r1 := { r with sweep := some (r.base / 2048), sweepPoisoned := 0, sweepAt := s.now, epoch := ep }
    let r2 := if r.slotA = 1 then { r1 with slotB := 1, keyB := draw, epochB := ep }
              else { r1 with slotA := 1, keyA := draw, epochA := ep }
    replyOk (s1.setRegion g r2) rq []

/-- The next page of a sweep is due: `prot.rekey_rate` pages a second since the last one (R407), in whole Tc rounded down
(`notes/assumptions/76.md`). -/
def rekeyDue (s : State) (r : Region) : Bool := decide (r.sweepAt + tcS / s.param 0x0D02 0 ≤ s.now)

/-- The re-key sweep rewrites its next page, once it is due (R407). -/
def rekeySweepPage (s : State) (g : Nat) (d : Decode) (failed : List Nat) : State :=
  let r := s.region g
  match r.sweep with
  | none => s
  | some p =>
    if !rekeyDue s r then s else
    let c := s.ctr p
    let valid := match cachedPage s p with | some e => e.valid | none => 0
    let bad := if failedAbove s p then (List.range 32).filter (fun j => !valid.getLsbD j)
      else failed.filter fun j => decide (j < 32) && !valid.getLsbD j
    let mask := bad.foldl (fun m j => setBit m j true) 0
    let s1 := match d with
      | .uncorrectable => memUncorrectable s p 4 mask
      | .corrected bits kind =>
        let t := memCorrected s p bits kind.val
        (match bad with
         | [] => t
         | j :: _ => tamper t g (pageTile p) 1 255 (p * 2048 + 64 * j))
      | .clean =>
        (match bad with
         | [] => s
         | j :: _ => tamper s g (pageTile p) 0 255 (p * 2048 + 64 * j))
    let old := s1.mem.poison.filter fun l => l / 32 = p && !valid.getLsbD (l % 32)
    let badLines := dedupNat (old ++ bad.map fun j => p * 32 + j)
    let sel := sweepSlot r
    let key := blockKey g (pageTile p) 0 (pageIdx s1 g p)
    let s2 := { s1 with mem := { s1.mem with ctrs := mapSet s1.mem.ctrs p { major := c.major + 1, minors := [], sel := sel } } }
    let s3 := clearFailed (unpoisonLines s2 (maskLines p (BitVec.allOnes 32))) key
    let s4 := ctrUse (if badLines.isEmpty then s3 else poisonLines s3 badLines) g p (BitVec.allOnes 32) true
    let r4 := s4.region g
    let n := satAdd 32 r4.sweepPoisoned bad.length
    if (p + 1) * 2048 < r.base + r.size then
      s4.setRegion g { r4 with sweep := some (p + 1), sweepPoisoned := n, sweepAt := s.now }
    else
      let r5 := { r4 with sweep := none, sweepPoisoned := n, sweepAt := s.now }
      let r6 := if sel = 1 then { r5 with slotA := 2, keyA := 0 } else { r5 with slotB := 2, keyB := 0 }
      raise (s4.setRegion g r6) 8 0 0x0D03 (leBytes 1 g ++ leBytes 1 sel ++ leBytes 2 r.epoch ++ leBytes 4 n)

/-! ## Scrubbing (R394) and temperature (R380) -/

/-- The ranges of the data space that the scrubber walks: every region, the Laniman image region too (R409), and the arena. -/
def scrubSpans (s : State) : List (Nat × Nat) :=
  (0, 0x10000000) :: (arenaBottom s, dataSpace s) ::
    (s.mem.regions.filter fun e => e.2.st ≠ 0).map fun e => (e.2.base, e.2.base + e.2.size)

/-- Tc from one page of the scrubber to the next: a full pass takes `mem.scrub_period` (R394), in whole Tc rounded down
(`notes/assumptions/76.md`). -/
def scrubGap (s : State) : Nat :=
  s.param 0x0C01 0 * tcS / (scrubSpans s).foldl (fun n x => n + (x.2 - x.1) / 2048) 0

/-- The scrubber's next page is due. -/
def scrubDue (s : State) : Bool := decide (s.mem.scrubAt + scrubGap s ≤ s.now)

/-- The next page at or after `p` that the scrubber walks: every page of every region and of the arena. -/
def nextScrub (s : State) (p : Nat) : Option Nat :=
  let cand := (scrubSpans s).filterMap fun (a, b) => if max a (p * 2048) < b then some (max (a / 2048) p) else none
  match cand with
  | [] => none
  | h :: t => some (t.foldl min h)

/-- The scrubber reads and decodes its next page, once it is due (R394). -/
def scrubPage (s : State) (d : Decode) : State :=
  match nextScrub s s.mem.scrubPage with
  | none => s
  | some p =>
    if !scrubDue s then s else
    let dirty := match cachedPage s p with | some c => decide (c.dirty ≠ 0) | none => false
    let s1 := if dirty then s else
      match d with
      | .clean => s
      | .corrected _ _ =>
        { decodeReport s p d 2 0 with mem := { (decodeReport s p d 2 0).mem with
            scrubCorrected := satAdd 32 (decodeReport s p d 2 0).mem.scrubCorrected 1 } }
      | .uncorrectable =>
        { decodeReport s p d 2 0 with mem := { (decodeReport s p d 2 0).mem with
            scrubUncorr := satAdd 32 (decodeReport s p d 2 0).mem.scrubUncorr 1 } }
    match nextScrub s1 (p + 1) with
    | some _ => { s1 with mem := { s1.mem with scrubPage := p + 1, scrubAt := s.now } }
    | none =>
      let s2 := { s1 with mem := { s1.mem with scrubPage := 0, scrubAt := s.now, scrubPass := (s1.mem.scrubPass + 1) % 2 ^ 32,
                                               scrubCorrected := 0, scrubUncorr := 0 } }
      raise s2 8 0 0x0C03 (leBytes 4 s1.mem.scrubPass ++ leBytes 4 s1.mem.scrubCorrected ++ leBytes 4 s1.mem.scrubUncorr)

/-- MR4 of a channel's ranks was read, every 32 ms (R380). -/
def temperaturePoll (s : State) (ch : Nat) (hot : Bool) : State :=
  if s.now < (mapGet s.mem.chans ch {}).mr4At + 32 * tcMs then s
  else modChan s ch fun c => { c with hot := hot, mr4At := s.now }

end Sys2Proof.Machine
end

