-- ==== Sys2Proof/Machine/Dma.lean ====
section
/-! DEFINITION. The DMA engines (R412 to R431): channel control, permissions, flags, the channel program's
instructions, moves, and the windows and commands that reach them. -/

namespace Sys2Proof.Machine

/-- A channel (R412, R415). -/
def State.chan (s : State) (c : Nat) : Chan := mapGet s.dma.chans c {}
/-- The state with a channel replaced. -/
def State.setChan (s : State) (c : Nat) (x : Chan) : State :=
  { s with dma := { s.dma with chans := mapSet s.dma.chans c x } }
/-- An engine's flags and counters. -/
def State.engine (s : State) (e : Nat) : DmaEngine := mapGet s.dma.engines e {}
def State.setEngine (s : State) (e : Nat) (x : DmaEngine) : State :=
  { s with dma := { s.dma with engines := mapSet s.dma.engines e x } }

/-- The engine of a channel (R412). -/
def chanEngine (c : Nat) : Nat := c / 32
/-- Owner in force: 0 Laniman, 1 + h host port h (R414). -/
def State.chanOwner (s : State) (c : Nat) : Nat := s.paramDma (chanEngine c) 0x0E01 c

/-- Requests of a channel without a response or TIMEOUT. -/
def chanOut (s : State) (c : Nat) : List Outstanding := s.fab.outst.filter fun o => o.chan = c && !o.timedOut
/-- READs of MOVEs outstanding. -/
def chanReads (s : State) (c : Nat) : List Outstanding := (chanOut s c).filter fun o => o.cmd = 1
/-- Every earlier WRITE of the channel has received its response (R423). -/
def writesDone (s : State) (c : Nat) : Bool := (chanOut s c).all fun o => o.cmd ≠ 2

/-- A channel that is stopping becomes HALTED once its transactions have completed (R416, R427). -/
def finishStop (s : State) (c : Nat) : State :=
  let x := s.chan c
  if x.st = 3 && (chanOut s c).isEmpty then s.setChan c { x with st := 4 } else s

/-- Stop a channel on an error (R427, R428, R431). -/
def chanFail (s : State) (c code addr : Nat) : State :=
  let x := s.chan c
  let s1 := s.setChan c { x with st := 3, err := code, failAddr := addr, move := none, wait := none }
  let s2 := raise s1 4 (chanEngine c) 0x0E01
    (leBytes 1 (chanEngine c) ++ leBytes 1 (c % 32) ++ leBytes 1 code ++ leBytes 1 (s.chanOwner c) ++ leBytes 8 addr)
  finishStop s2 c

/-- Error codes (R428). -/
abbrev dmaIllegal : Nat := 1
abbrev dmaField : Nat := 2
abbrev dmaNesting : Nat := 3
abbrev dmaPermission : Nat := 4
abbrev dmaStopped : Nat := 5

/-! ## Channel commands (R416) -/

/-- START of a channel that is IDLE or HALTED. -/
def chanStart (s : State) (c addr : Nat) : State :=
  let x : Chan := { st := 1, prog := addr, pc := addr }
  let s1 := s.setChan c x
  if addr % 16 ≠ 0 then chanFail s1 c dmaPermission addr else s1

/-- START is accepted only in IDLE or HALTED. -/
def chanIdle (s : State) (c : Nat) : Bool := (s.chan c).st = 0 || (s.chan c).st = 4

/-- STOP: nothing further is issued; the channel halts with STOPPED. -/
def chanStop (s : State) (c : Nat) : State :=
  let x := s.chan c
  if x.st = 1 || x.st = 2 then
    finishStop (s.setChan c { x with st := 3, err := dmaStopped, move := none, wait := none }) c
  else s

/-! ## Permissions (R414) -/

/-- Offset of counter k's word in its slice's Mill window, and back (R267). -/
def counterOff (k : Nat) : Nat := 0x10000 + 8 * (k % 16384)
def isCounterOff (off : Nat) : Bool := decide (0x10000 ≤ off) && decide (off < 0x30000)
/-- Fabric address of a counter word (R351). -/
def counterAddr (k : Nat) : Nat := 0x20030000000 + 0x100000 * (k / 16384) + counterOff k
/-- Fabric address of a flag word (R417). -/
def flagAddr (e f : Nat) : Nat := 0x20031000000 + 0x10000 * e + 0x8000 + 8 * f

/-- A channel's owner may reach an address (R414). -/
def dmaMay (s : State) (c addr : Nat) : Bool :=
  let ow := s.chanOwner c
  match fabTarget addr with
  | .dram raw off => if ow = 0 then !raw && decide (0x10000000 ≤ off) else raw
  | .core _ _ => ow = 0
  | .clove _ _ => ow = 0
  | .staging p _ => ow = 0 || s.paramPort p 0x0502 p = 1
  | .mill _ off => ow = 0 && isCounterOff off
  | .dma g off =>
    decide (0x8000 ≤ off) && decide (off < 0x8800) &&
      (ow = 0 || (g = chanEngine c && decide (192 ≤ (off - 0x8000) / 8)))
  | .laniman _ => false
  | .host h _ => ow = 0 || ow = h + 1
  | .none => false

/-! ## Loops and program flow (R422, R423) -/

/-- The iteration index of the l-th enclosing loop, 0 beyond the active depth (R422). -/
def loopIdx (x : Chan) (l : Nat) : Nat := match x.loops[l]? with | some v => v.idx | none => 0

/-- Leave every loop body that ends at the next instruction, or go round it again. -/
def loopBack (fuel : Nat) (x : Chan) : Chan :=
  match fuel, x.loops with
  | n + 1, v :: t =>
    if x.pc = v.last then
      if v.idx + 1 < v.count then { x with pc := v.first, loops := { v with idx := v.idx + 1 } :: t }
      else loopBack n { x with loops := t }
    else x
  | _, _ => x

/-- The channel's next instruction after one of `n` bytes. -/
def chanAdvance (x : Chan) (n : Nat) : Chan := loopBack 5 { x with pc := (x.pc + n) % 2 ^ 64 }

/-- The channel runs an instruction now: RUNNING, no MOVE in progress. -/
def chanReady (s : State) (c : Nat) : Bool := (s.chan c).st = 1 && (s.chan c).move.isNone

/-! ## Flags (R418 to R420) -/

/-- The lowest-numbered channel of an engine with a consuming WAIT on a flag. -/
def consumer (s : State) (e f : Nat) : Option Nat :=
  ((List.range 32).map fun k => e * 32 + k).find? fun c => (s.chan c).st = 2 && (s.chan c).wait = some (3, f, true)

/-- Release a channel from its WAIT. -/
def chanRelease (s : State) (c : Nat) : State :=
  s.setChan c (chanAdvance { s.chan c with st := 1, wait := none } 16)

/-- SET a flag (R420): non-consuming WAITs are released, then one consuming WAIT, which clears it. -/
def flagSetOp (s : State) (e f : Nat) : State :=
  let en := s.engine e
  if en.flags.getLsbD f then s
  else
    let s1 := s.setEngine e { en with flags := en.flags ||| ((1 : BitVec 256) <<< f) }
    let s2 := (List.range 32).foldl (fun t k =>
      let c := e * 32 + k
      if (t.chan c).st = 2 && (t.chan c).wait = some (3, f, false) then chanRelease t c else t) s1
    match consumer s2 e f with
    | some c => chanRelease (s2.setEngine e { s2.engine e with flags := (s2.engine e).flags &&& ~~~((1 : BitVec 256) <<< f) }) c
    | none => s2

/-- CLEAR a flag (R419). -/
def flagClearOp (s : State) (e f : Nat) : State :=
  let en := s.engine e
  s.setEngine e { en with flags := en.flags &&& ~~~((1 : BitVec 256) <<< f) }

/-! ## Moves (R423 to R425) -/

/-- Width in bytes of a width code (R424). -/
def widthOf (code : Nat) : Option Nat := if code ≤ 6 then some (2 ^ code) else none

/-- Group of a swap (R425). -/
def swapGroup (sw : Nat) : Option Nat :=
  match sw with
  | 0 => some 1
  | 1 => some 2
  | 2 => some 4
  | 3 => some 8
  | 4 => some 4
  | 5 => some 8
  | _ => none

/-- Position within its group of the source byte of a byte (R425). -/
def swapPos (sw i : Nat) : Nat :=
  match sw with
  | 1 => i / 2 * 2 + (1 - i % 2)
  | 2 => i / 4 * 4 + (3 - i % 4)
  | 3 => i / 8 * 8 + (7 - i % 8)
  | 4 => i / 4 * 4 + (1 - i % 4 / 2) * 2 + i % 2
  | 5 => i / 8 * 8 + (3 - i % 8 / 2) * 2 + i % 2
  | _ => i

/-- Whole groups with their units reversed (R425). -/
def swapBytes (sw : Nat) (bs : List Byte) : List Byte := (List.range bs.length).map fun i => bs.getD (swapPos sw i) 0

/-- The blocks of one side: for width w below 64 each w-aligned block, for 64 pieces within 256-byte blocks (R424).
A READ reads the whole block. -/
def readBlocks (w addr len : Nat) : List (Nat × Nat × Nat) :=
  if w < 64 then
    let a0 := addr / w * w
    (List.range ((addr + len - a0 + w - 1) / w)).map fun i => (i, a0 + i * w, w)
  else
    let b0 := addr / 256
    (List.range ((addr + len + 255) / 256 - b0)).map fun i =>
      let lo := max addr ((b0 + i) * 256)
      let hi := min (addr + len) ((b0 + i + 1) * 256)
      (i, lo, hi - lo)

/-- Length of the next WRITE of a side of width w at an address, with `left` bytes to write (R424). -/
def writeLen (w addr left : Nat) : Nat :=
  let blk := if w < 64 then w else 256
  min left ((addr / blk + 1) * blk - addr)

/-- The tags of a node are not all in use (R353). -/
def tagLeft (s : State) (node : Nat) : Bool := decide ((s.fab.outst.filter fun o => o.node = node).length < 256)

/-- Bytes of the engine's 64 KiB buffer in use: data awaited and data not yet written (R413). -/
def bufferUsed (s : State) (e : Nat) : Nat :=
  let reads := (s.fab.outst.filter fun o => o.cmd = 1 && o.chan < 768 && o.chan / 32 = e).foldl (fun a o => a + o.len) 0
  (List.range 32).foldl (fun a k => match (s.chan (e * 32 + k)).move with
    | some mv => a + mv.hold.length + mv.got.foldl (fun b g => b + g.2.length) 0
    | none => a) reads

/-- READs of an engine that are outstanding. -/
def engineOut (s : State) (e : Nat) : Nat :=
  (s.fab.outst.filter fun o => o.cmd = 1 && o.chan < 768 && o.chan / 32 = e).length

/-- A channel has a READ ready that R413 allows now: a free place among its own READs and its engine's, buffer space for the
whole READ, and a tag. -/
def readReady (s : State) (c : Nat) : Bool :=
  match (s.chan c).move with
  | none => false
  | some mv =>
    match mv.toRead with
    | [] => false
    | (_, _, l) :: _ =>
      decide ((chanReads s c).length < s.param 0x0E02 c) && decide (engineOut s (chanEngine c) < 64) &&
      decide (bufferUsed s (chanEngine c) + l ≤ 65536) && tagLeft s (dmaNode (chanEngine c))

/-- A channel issues its next READ. -/
def moveRead (s : State) (c : Nat) : State :=
  match (s.chan c).move with
  | none => s
  | some mv =>
    match mv.toRead with
    | [] => s
    | (i, a, l) :: t =>
      issue (s.setChan c { s.chan c with move := some { mv with toRead := t } }) (dmaNode (chanEngine c)) c 1
        (if mv.timed then 2 else 0) a l i [] 0

/-- The channels of an engine from the one after the channel served last. -/
def turnOrder (e last : Nat) : List Nat := (List.range 32).map fun i => 32 * e + (last + 1 + i) % 32

/-- The current MOVE of a channel is timed. -/
def timedMove (s : State) (c : Nat) : Bool := match (s.chan c).move with | some mv => mv.timed | none => false

/-- The read side of an engine (R413): timed MOVEs first, round-robin within each group, as long as a READ is ready. -/
def engineReads (fuel : Nat) (s : State) (e : Nat) : State :=
  match fuel with
  | 0 => s
  | n + 1 =>
    let x := s.engine e
    match (turnOrder e x.turnTimed).find? fun c => timedMove s c && readReady s c with
    | some c => engineReads n (moveRead (s.setEngine e { x with turnTimed := c % 32 }) c) e
    | none =>
      match (turnOrder e x.turnPlain).find? fun c => !timedMove s c && readReady s c with
      | some c => engineReads n (moveRead (s.setEngine e { x with turnPlain := c % 32 }) c) e
      | none => s

/-- The useful bytes of one returned block: those within the source range. -/
def clipBlock (mv : MoveJob) (i : Nat) (data : List Byte) : List Byte :=
  match (readBlocks mv.srcW mv.src mv.len)[i]? with
  | none => []
  | some (_, a, l) =>
    let lo := max a mv.src
    let hi := min (a + l) (mv.src + mv.len)
    (data.drop (lo - a)).take (hi - lo)

/-- Move returned data, in order, into the holding register. -/
def moveGather (fuel : Nat) (mv : MoveJob) : MoveJob :=
  match fuel with
  | 0 => mv
  | n + 1 =>
    match mapGet? mv.got mv.nextGot with
    | none => mv
    | some d =>
      moveGather n { mv with hold := mv.hold ++ clipBlock mv mv.nextGot d, got := mapDel mv.got mv.nextGot,
                             nextGot := mv.nextGot + 1 }

/-- Bytes that the holding register needs for the next WRITE: whole swap groups. -/
def writeNeed (mv : MoveJob) : Nat :=
  let g := (swapGroup mv.swap).getD 1
  let l := writeLen mv.dstW (mv.dst + mv.written) (mv.len - mv.written)
  ceilDiv (mv.written + l) g * g - mv.written / g * g

/-- Issue the WRITEs whose bytes stand in the holding register; the register keeps whole swap groups. -/
def moveWrites (fuel : Nat) (s : State) (c : Nat) : State :=
  match fuel with
  | 0 => s
  | n + 1 =>
    match (s.chan c).move with
    | none => s
    | some mv =>
      if mv.len ≤ mv.written then s.setChan c (chanAdvance { s.chan c with move := none } 64)
      else
        let g := (swapGroup mv.swap).getD 1
        let a := mv.dst + mv.written
        let l := writeLen mv.dstW a (mv.len - mv.written)
        let base := mv.written / g * g
        let need := writeNeed mv
        if mv.hold.length < need || !tagLeft s (dmaNode (chanEngine c)) then s
        else
          let bytes := ((swapBytes mv.swap (mv.hold.take need)).drop (mv.written - base)).take l
          let w1 := mv.written + l
          let mv1 := { mv with written := w1, hold := mv.hold.drop (w1 / g * g - base) }
          let x := s.chan c
          let s1 := s.setChan c { x with move := some mv1, bytes := satAdd 64 x.bytes l }
          moveWrites n (issue s1 (dmaNode (chanEngine c)) c 2 (if mv.timed then 2 else 0) a l 0 bytes 0) c

/-- The next WRITE of a channel has its data and waits for a tag. -/
def writeBlocked (s : State) (c : Nat) : Bool :=
  match (s.chan c).move with
  | some mv => decide (mv.written < mv.len) && decide (writeNeed mv ≤ mv.hold.length)
  | none => false

/-- The write side of an engine (R413): channels in the order in which their data became complete, channel c last. -/
def engineWrites (s : State) (c : Nat) : State :=
  let e := chanEngine c
  let q := if (s.engine e).writeQ.contains c then (s.engine e).writeQ else (s.engine e).writeQ ++ [c]
  let t := q.foldl (fun u k => moveWrites 65538 u k) s
  let rest := q.filter (writeBlocked t)
  if (t.engine e).writeQ = rest then t else t.setEngine e { t.engine e with writeQ := rest }

/-- An engine goes on: the write side, then the read side. -/
def enginePump (s : State) (c : Nat) : State := engineReads 65 (engineWrites s c) (chanEngine c)

/-- Go on with a channel's MOVE. -/
def movePump (s : State) (c : Nat) : State :=
  match (s.chan c).move with
  | none => s
  | some mv => enginePump (s.setChan c { s.chan c with move := some (moveGather (mv.got.length + 1) mv) }) c

/-- RESET: a master reset of the channel, which becomes IDLE; what it held is free for the engine's other channels. -/
def chanReset (s : State) (c : Nat) : State :=
  enginePump ((masterReset s (dmaNode (chanEngine c)) c).setChan c {}) c

/-- The sum of index times stride over the four levels, strides being s32 (R422). -/
def strideSum (x : Chan) (bs : List Byte) (at_ : Nat) : Int :=
  (List.range 4).foldl (fun acc l => acc + (loopIdx x l : Int) * toSigned 32 (rd bs (at_ + 4 * l) 4)) 0

/-- MOVE (R423, R424). -/
def dmaMove (s : State) (c : Nat) (bs : List Byte) : State :=
  let x := s.chan c
  let fl := rd bs 1 1
  let timed := bit fl 0
  let ordered := bit fl 1
  let imm := bit fl 2
  let sw := rd bs 3 1
  let len := rd bs 4 4
  let sc := if imm then some 1 else widthOf (rd bs 2 1 / 16)
  match sc, widthOf (rd bs 2 1 % 16), swapGroup sw with
  | some srcW, some dstW, some g =>
    if len = 0 || decide (16777216 < len) || (imm && decide (8 < len)) || len % g ≠ 0 then chanFail s c dmaField 0
    else
      let src := ofSigned 64 ((rd bs 8 8 : Int) + strideSum x bs 24)
      let dst := ofSigned 64 ((rd bs 16 8 : Int) + strideSum x bs 40)
      let reads := if imm then [] else readBlocks srcW src len
      let badRead := reads.find? fun r => !(dmaMay s c r.2.1 && dmaMay s c (r.2.1 + r.2.2 - 1))
      let badWrite := (readBlocks 64 dst len).find? fun r => !(dmaMay s c r.2.1 && dmaMay s c (r.2.1 + r.2.2 - 1))
      match badRead, badWrite with
      | some r, _ => chanFail s c dmaPermission r.2.1
      | none, some r => chanFail s c dmaPermission r.2.1
      | none, none =>
        if timed && s.chanOwner c ≠ 0 then chanFail s c dmaPermission dst
        else if ordered && !writesDone s c then s
        else
          let mv : MoveJob := { timed := timed, src := src, dst := dst, len := len, srcW := srcW, dstW := dstW, swap := sw,
                                toRead := reads, hold := if imm then (leBytes 8 src).take len else [] }
          movePump (s.setChan c { x with move := some mv }) c
  | _, _, _ => chanFail s c dmaField 0

/-! ## LOOP, WAIT, SIGNAL, END (R423) -/

/-- LOOP. -/
def dmaLoop (s : State) (c : Nat) (bs : List Byte) : State :=
  let x := s.chan c
  let body := rd bs 2 2
  let count := rd bs 4 4
  let first := x.pc + 16
  let last := first + 16 * body
  let ovr := match x.loops with | v :: _ => decide (v.last < last) | [] => false
  if body = 0 then chanFail s c dmaField 0
  else if ovr then chanFail s c dmaNesting 0
  else if count = 0 then s.setChan c (loopBack 5 { x with pc := last })
  else if 4 ≤ x.loops.length then chanFail s c dmaNesting 0
  else s.setChan c { x with pc := first, loops := { first := first, last := last, idx := 0, count := count } :: x.loops }

/-- WAIT AIRTIME. -/
def dmaWaitAirtime (s : State) (c : Nat) (bs : List Byte) : State :=
  let x := s.chan c
  let t := rd bs 8 8 + loopIdx x 0 * rd bs 4 4
  if reached (s.localNow 1 (c / 32)) t then s.setChan c (chanAdvance x 16)
  else s.setChan c { x with st := 2, wait := some (1, t, false) }

/-- The Air Time of a WAIT AIRTIME was reached. -/
def dmaAirtimeReached (s : State) (c : Nat) : State :=
  let x := s.chan c
  match x.wait with
  | some (1, t, _) => if x.st = 2 && reached (s.localNow 1 (c / 32)) t then chanRelease s c else s
  | _ => s

/-- Issue one read of the counter that a channel waits for. -/
def issuePoll (s : State) (c k : Nat) : State :=
  issue (s.setChan c { s.chan c with pollAt := s.now }) (dmaNode (chanEngine c)) c 1 0 (counterAddr k) 8 0 [] 0

/-- WAIT COUNTER. -/
def dmaWaitCounter (s : State) (c : Nat) (bs : List Byte) : State :=
  let x := s.chan c
  let k := (rd bs 8 2 + loopIdx x 0 * rd bs 4 2) % 65536
  if s.chanOwner c ≠ 0 then chanFail s c dmaPermission (counterAddr k)
  else if !tagLeft s (dmaNode (chanEngine c)) then s
  else issuePoll (s.setChan c { x with st := 2, wait := some (2, k, false) }) c k

/-- The next poll of a waiting channel is due: `dma.poll_cycles` after the last one (R423). -/
def pollDue (s : State) (c : Nat) : Bool := decide ((s.chan c).pollAt + fabCycles (s.param 0x0E03 0) ≤ s.now)

/-- The next poll of a waiting channel falls due. -/
def dmaCounterPoll (s : State) (c : Nat) : State :=
  let x := s.chan c
  match x.wait with
  | some (2, k, _) =>
    if x.st = 2 && (chanReads s c).isEmpty && pollDue s c && tagLeft s (dmaNode (chanEngine c)) then issuePoll s c k else s
  | _ => s

/-- WAIT FLAG. -/
def dmaWaitFlag (s : State) (c : Nat) (bs : List Byte) : State :=
  let x := s.chan c
  let e := chanEngine c
  let f := rd bs 8 1 + loopIdx x 0 * rd bs 4 2
  let consume := bit (rd bs 2 1) 0
  if 255 < f then chanFail s c dmaField 0
  else if s.chanOwner c ≠ 0 && decide (f < 192) then chanFail s c dmaPermission (flagAddr e f)
  else if (s.engine e).flags.getLsbD f then
    (if consume then flagClearOp s e f else s).setChan c (chanAdvance x 16)
  else s.setChan c { x with st := 2, wait := some (3, f, consume) }

/-- SIGNAL COUNTER: posts a DECREMENT with its status. -/
def dmaSignalCounter (s : State) (c : Nat) (bs : List Byte) : State :=
  let x := s.chan c
  let st := rd bs 2 1
  let k := (rd bs 8 2 + loopIdx x 0 * rd bs 4 2) % 65536
  if 4 < st then chanFail s c dmaField 0
  else if s.chanOwner c ≠ 0 then chanFail s c dmaPermission (counterAddr k)
  else if !writesDone s c then s
  else
    let v := if st = 4 then x.held else st
    let x1 := if st = 4 then { x with held := 0 } else x
    let s1 := s.setChan c (chanAdvance x1 16)
    issue s1 (dmaNode (chanEngine c)) c 2 3 (counterAddr k) 8 0 (leBytes 8 (2 * 2 ^ 24 + v * 2 ^ 16)) 0

/-- SIGNAL FLAG: posts a SET. -/
def dmaSignalFlag (s : State) (c : Nat) (bs : List Byte) : State :=
  let x := s.chan c
  let e := rd bs 2 1
  let f := rd bs 8 1 + loopIdx x 0 * rd bs 4 2
  if decide (23 < e) || decide (255 < f) then chanFail s c dmaField 0
  else if s.chanOwner c ≠ 0 && (e ≠ chanEngine c || decide (f < 192)) then chanFail s c dmaPermission (flagAddr e f)
  else if !writesDone s c then s
  else issue (s.setChan c (chanAdvance x 16)) (dmaNode (chanEngine c)) c 2 3 (flagAddr e f) 8 0 (leBytes 8 1) 0

/-- SIGNAL EVENT: raises DMA_MARK. -/
def dmaSignalEvent (s : State) (c : Nat) (bs : List Byte) : State :=
  if !writesDone s c then s
  else
    raise (s.setChan c (chanAdvance (s.chan c) 16)) 4 (chanEngine c) 0x0E02
      (leBytes 1 (chanEngine c) ++ leBytes 1 (c % 32) ++ [0, 0] ++ slice bs 8 8)

/-- END. -/
def dmaEndOp (s : State) (c : Nat) (bs : List Byte) : State :=
  let x := s.chan c
  let fl := rd bs 1 1
  let s1 := s.setChan c (if bit fl 0 then { x with pc := x.prog, loops := [] } else { x with st := 0, loops := [] })
  if bit fl 1 then
    raise s1 4 (chanEngine c) 0x0E04 (leBytes 1 (chanEngine c) ++ leBytes 1 (c % 32) ++ [0, 0] ++ leBytes 8 x.bytes)
  else s1

/-- One fetched instruction of a channel: the permission of its own address (R414), its opcode (R421) and, for WAIT
and SIGNAL, its kind; then the body of the row, where the bytes are an instruction of that row. -/
def dmaInstr (s : State) (c op kind : Nat) (bs : List Byte) (body : State → Nat → List Byte → State) : State :=
  let n := if op = 1 then 64 else 16
  let pc := (s.chan c).pc
  if !chanReady s c then s
  else if !(dmaMay s c pc && dmaMay s c (pc + n - 1)) then chanFail s c dmaPermission pc
  else if rd bs 0 1 = 0 || decide (5 < rd bs 0 1) then chanFail s c dmaIllegal 0
  else if rd bs 0 1 ≠ op then s
  else if (op = 3 || op = 4) && (rd bs 1 1 = 0 || decide (3 < rd bs 1 1)) then chanFail s c dmaField 0
  else if (op = 3 || op = 4) && rd bs 1 1 ≠ kind then s
  else body s c bs

/-! ## Responses (R427) -/

/-- The action of a channel on the response to one of its requests. -/
def dmaResponse (s : State) (c : Nat) (o : Outstanding) (status : Nat) (data : List Byte) : State :=
  let x := s.chan c
  let e := chanEngine c
  if x.st = 3 then enginePump (finishStop s c) c
  else if status ≠ 0 && status ≠ 5 then enginePump (chanFail s c (0x10 + status) o.addr) c
  else
    let s1 := if status = 5 then
        raiseLimited (s.setEngine e { s.engine e with collided := satAdd 32 (s.engine e).collided 1 }) 4 e 0x0E03 c 19661 1
          fun n => leBytes 1 e ++ leBytes 1 (c % 32) ++ leBytes 2 (min n 65535) ++ leBytes 8 o.addr
      else s
    match x.wait with
    | some (2, k, _) =>
      if o.cmd = 1 && o.addr = counterAddr k then
        let w := leNat data
        let x1 := { x with held := max x.held (w / 2 ^ 16 % 4) }
        enginePump (if w % 65536 = 0 then s1.setChan c (chanAdvance { x1 with st := 1, wait := none } 16) else s1) c
      else enginePump s1 c
    | _ =>
      match x.move with
      | some mv =>
        if o.cmd = 1 then
          movePump (s1.setChan c { s1.chan c with move := some { mv with got := mapSet mv.got o.seq data } }) c
        else movePump s1 c
      | none => enginePump s1 c

/-! ## The register and flag window (R417, R419) -/

/-- A channel's control block, 64 bytes (R417). -/
def chanBlock (s : State) (c : Nat) : List Byte :=
  let x := s.chan c
  let status := x.st + x.err * 2 ^ 8 + x.held * 2 ^ 16 + x.loops.length * 2 ^ 24
  leBytes 8 0 ++ leBytes 8 x.prog ++ leBytes 8 status ++ leBytes 8 x.pc ++
    ((List.range 4).flatMap fun l => leBytes 4 (match x.loops[l]? with | some v => v.count - v.idx | none => 0)) ++
    leBytes 8 x.failAddr ++ leBytes 8 x.bytes

/-- A command written to a channel's command word. -/
def chanCommand (s : State) (c v : Nat) : State :=
  match v % 256 with
  | 1 => if chanIdle s c then chanStart s c (s.chan c).prog else s
  | 2 => chanStop s c
  | 3 => chanReset s c
  | _ => s.setEngine (chanEngine c) { s.engine (chanEngine c) with cmdBad := satAdd 32 (s.engine (chanEngine c)).cmdBad 1 }

/-- A master may write flag words (R419). -/
def flagMaster (src chan : Nat) : Bool :=
  let t := src / 128
  let n := src % 128
  if src = lanimanNode then chan ≠ 65534
  else if t < 2 then decide (n < 32) || (decide (48 ≤ n) && decide (n < 60))
  else decide (t < 6) && decide (n < 16)

/-- A READ of an engine's window. -/
def dmaWinRead (s : State) (m : FabMsg) (g off : Nat) : State :=
  if off < 0x2000 then
    if !isLaniman m.src m.chan then deny s m 2
    else respond s m 0 (slice (chanBlock s (g * 32 + off / 256) ++ List.replicate 192 0) (off % 256) m.len) false 0
  else if 0x8000 ≤ off && off < 0x8800 then
    if m.len ≠ 8 || off % 8 ≠ 0 then deny s m 6
    else respond s m 0 (leBytes 8 (b2n ((s.engine g).flags.getLsbD ((off - 0x8000) / 8)))) false 0
  else deny s m 3

/-- A WRITE of an engine's window. -/
def dmaWinWrite (s : State) (m : FabMsg) (g off : Nat) : State :=
  if off < 0x2000 then
    if !isLaniman m.src m.chan then deny s m 2
    else
      let c := g * 32 + off / 256
      let o := off % 256
      let old := (s.chan c).prog
      let bs := leBytes 8 old
      let nb := (List.range 8).map fun i => if o ≤ 8 + i && 8 + i < o + m.len then m.data.getD (8 + i - o) 0 else bs.getD i 0
      let s1 := if o < 16 && 8 < o + m.len then s.setChan c { s.chan c with prog := leNat nb } else s
      let s2 := if o = 0 then chanCommand s1 c (leNat (m.data.take 1)) else s1
      respond s2 m 0 [] false 0
  else if 0x8000 ≤ off && off < 0x8800 then
    if !flagMaster m.src m.chan then deny s m 2
    else if m.len ≠ 8 || off % 8 ≠ 0 then deny s m 6
    else
      let f := (off - 0x8000) / 8
      let s1 := match leNat (m.data.take 1) with
        | 1 => flagSetOp s g f
        | 2 => flagClearOp s g f
        | _ => s.setEngine g { s.engine g with flagBad := satAdd 32 (s.engine g).flagBad 1 }
      respond s1 m 0 [] false 0
  else deny s m 3

/-! ## Host commands of group 0x05 (R416) -/

/-- The port owns the channel. -/
def hostOwns (s : State) (rq : Req) : Bool := decide (rq.port < 4) && s.chanOwner rq.inst = rq.port + 1

/-- DMA_CHAN_START. -/
def cmdChanStart (rq : Req) (pl : List Byte) (s : State) : State :=
  if !hostOwns s rq then refuse s rq dzDenied 0
  else if !chanIdle s rq.inst then refuse s rq dzBusy 0
  else replyOk (chanStart s rq.inst (rd pl 0 8)) rq []

/-- DMA_CHAN_STOP. -/
def cmdChanStop (rq : Req) (s : State) : State :=
  if !hostOwns s rq then refuse s rq dzDenied 0 else replyOk (chanStop s rq.inst) rq []

/-- DMA_CHAN_RESET. -/
def cmdChanReset (rq : Req) (s : State) : State :=
  if !hostOwns s rq then refuse s rq dzDenied 0 else replyOk (chanReset s rq.inst) rq []

/-- DMA_CHAN_STATUS: the control block and the engine's counters, in a layout the manual does not state. -/
def cmdChanStatus (rq : Req) (s : State) : State :=
  if !hostOwns s rq then refuse s rq dzDenied 0
  else
    let e := s.engine (chanEngine rq.inst)
    let old := e.oldGenDropped
    replyOk s rq (Config.replyLayout 0x0508
      ((chanBlock s rq.inst).map BitVec.toNat ++ [e.cmdBad, e.flagBad, e.collided, old]))

end Sys2Proof.Machine
end

