-- ==== Sys2Proof/Machine/Mill.lean ====
section
/-! DEFINITION. Mill (R263 to R300): descriptors, counters, flows, dispatch, ageing and urgency, late items,
stealing, service tiers, drain, voting, SRAM errors and the decision trace. -/

namespace Sys2Proof.Machine

/-! ## Slices, units and descriptors (R263 to R266) -/

def State.slc (s : State) (i : Nat) : Slice := mapGet s.mill.slices i {}
def State.setSlc (s : State) (i : Nat) (x : Slice) : State :=
  { s with mill := { s.mill with slices := mapSet s.mill.slices i x } }
def State.modItem (s : State) (i q : Nat) (f : Item → Item) : State :=
  let x := s.slc i
  match mapGet? x.items q with
  | some it => s.setSlc i { x with items := mapSet x.items q (f it) }
  | none => s

/-- Key of a Clove unit among the units: cores come first. -/
def cloveKey (u : Nat) : Nat := 1024 + u

/-- Target of a unit (R265). -/
def unitTarget (k : Nat) : Nat :=
  if k < 1024 then 0 else if k < 1088 then 1 else if k < 1120 then 2 else if k < 1136 then 3 else 4

/-- Slice that serves a unit (R263). -/
def unitSlice (k : Nat) : Nat :=
  if k < 1024 then k / 256 else if k < 1088 then (k - 1024) / 16 else if k < 1120 then (k - 1088) / 8
  else if k < 1136 then (k - 1120) / 4 else (k - 1136) / 2

/-- Number of units of a target in a slice (R265). -/
def targetUnits (t : Nat) : Nat :=
  match t with
  | 0 => 256
  | 1 => 16
  | 2 => 8
  | 3 => 4
  | 4 => 2
  | _ => 0

/-- The unit of a target and slice at an index. -/
def unitAt (slc t i : Nat) : Nat :=
  match t with
  | 0 => 256 * slc + i
  | 1 => 1024 + 16 * slc + i
  | 2 => 1088 + 8 * slc + i
  | 3 => 1120 + 4 * slc + i
  | _ => 1136 + 2 * slc + i

/-- Index of a unit within its slice and target. -/
def unitIndex (k : Nat) : Nat :=
  if k < 1024 then k % 256 else if k < 1088 then (k - 1024) % 16 else if k < 1120 then (k - 1088) % 8
  else if k < 1136 then (k - 1120) % 4 else (k - 1136) % 2

/-- Fields of a descriptor (R264). -/
def dEntry (d : List Byte) : Nat := rd d 8 2
def dTarget (d : List Byte) : Nat := rd d 10 1 % 16
def dAtomic (d : List Byte) : Bool := bit (rd d 11 1) 7
def dSteal (d : List Byte) : Bool := bit (rd d 11 1) 6
def dHasDeadline (d : List Byte) : Bool := bit (rd d 11 1) 5
def dPolicy (d : List Byte) : Nat := field (rd d 11 1) 4 3
def dClass (d : List Byte) : Nat := rd d 11 1 % 8
def dFlow (d : List Byte) : Nat := rd d 12 4 % 2 ^ 23
def dDeadline (d : List Byte) : Nat := rd d 16 8
def dWait (d : List Byte) : Option Nat := if bit (rd d 30 1) 0 then some (rd d 24 2) else none
def dSucc (d : List Byte) : List Nat :=
  (if bit (rd d 30 1) 1 then [rd d 26 2] else []) ++ (if bit (rd d 30 1) 2 then [rd d 28 2] else [])
def dTierFlags (d : List Byte) : Nat := rd d 31 1 % 8
def dCarrier (d : List Byte) : Nat := rd d 32 2
def dClusters (d : List Byte) : Nat := rd d 34 2
def dUnits (d : List Byte) : Nat := rd d 36 2
/-- ESTIMATE tier flag. -/
def dEstimate (d : List Byte) : Bool := bit (rd d 31 1) 2

/-- The masks name a unit, by target and index in the slice (R265). -/
def named (d : List Byte) (t i : Nat) : Bool :=
  if t ≠ dTarget d then false
  else if t = 0 then bit (dClusters d) (i / 16) && bit (dUnits d) (i % 16)
  else bit (dUnits d) i

/-- Units of a slice eligible for a descriptor, in number order. -/
def eligible (slc : Nat) (d : List Byte) : List Nat :=
  ((List.range (targetUnits (dTarget d))).filter fun i => named d (dTarget d) i).map fun i => unitAt slc (dTarget d) i

/-- Power domain of a unit (R536). -/
def unitDomain (k : Nat) : Nat := if k < 1024 then k / 16 else 68 + cloveDomainOf (k - 1024)

/-- The item that runs on a unit: its order in the unit's slice. -/
def runningOn (s : State) (k : Nat) : Option Nat :=
  ((s.slc (unitSlice k)).items.find? fun e => e.2.place = 4 && e.2.unit = k).map fun e => e.1

/-- A unit is in service (R273). -/
def inService (s : State) (k : Nat) : Bool :=
  (mapGet? s.mill.drains k).isNone && !s.underTest k && !(decide (k < 1024) && ((s.core k).restoring || (s.core k).dbg.halted)) &&
  !s.mill.withdrawn.contains k && s.domainOn (unitDomain k) && (mapGet? s.fab.fences (unitDomain k)).isNone

/-- The ageing plan has withdrawn a slice (R549). -/
def millWithdrawn (s : State) (slc : Nat) : Bool := (mapGet s.power.tiles (2 + slc) {}).millOff

/-- A unit waits for work (R273). -/
def waitsForWork (s : State) (k : Nat) : Bool :=
  if k < 1024 then (s.core k).waiting && (runningOn s k).isNone
  else if k < 1136 then (runningOn s k).isNone
  -- a turbo unit has no job while either datapath has none (R321); a delivery on its way counts as a job
  else (mapGet? s.mill.deliveries k).isNone &&
    ((mapGet? s.clove.jobs (2 * (k - 1024))).isNone || (mapGet? s.clove.jobs (2 * (k - 1024) + 1)).isNone)

/-- Idle units of a slice: they wait for work and are in service (R276). -/
def unitIdle (s : State) (k : Nat) : Bool := waitsForWork s k && inService s k

/-- A unit's drain is complete: it waits for work with no running item (R288), or it is a core that runs no kernel. -/
def drained (s : State) (k : Nat) : Bool :=
  (mapGet? s.mill.drains k).isSome && (runningOn s k).isNone &&
  (waitsForWork s k || (decide (k < 1024) && (mapGet? s.host.placed k).isNone))

/-- Ask for the drain of a unit (R288). -/
def drainUnit (s : State) (k : Nat) : State :=
  if (mapGet? s.mill.drains k).isSome then s
  else { s with mill := { s.mill with drains := mapSet s.mill.drains k s.now } }

/-- Return a unit to service. -/
def undrain (s : State) (k : Nat) : State :=
  { s with mill := { s.mill with drains := mapDel s.mill.drains k, aborts := mapDel s.mill.aborts k } }

/-! ## Trace (R297, R298) -/

/-- The tier of a carrier as a slice sees it. -/
def tierOf (s : State) (slc c : Nat) : Nat := if 1023 < c then 0 else mapGet (s.slc slc).tiers c 0

/-- Write one 16-byte record to a slice's trace ring, or count it lost. -/
def traceWrite (s : State) (slc : Nat) (rec_ : List Byte) : State :=
  let x := s.slc slc
  let size := s.paramMill slc 0x080D slc
  let cap := size / 16
  let stopped := match s.power.wait with | some w => decide (w.target = 2) | none => false
  let full := stopped || (s.param 0x0810 0 = 0 && decide (cap ≤ x.traceWritten))
  let res := if full then none else extWrite s (s.paramMill slc 0x080C slc + x.traceWritten % cap * 16) rec_
  match res with
  | some s1 => s1.setSlc slc { s1.slc slc with traceWritten := x.traceWritten + 1 }
  | none =>
    let s1 := s.setSlc slc { x with traceLost := satAdd 32 x.traceLost 1 }
    raiseLimited s1 5 slc 0x080C slc 19660800 1 fun n => leBytes 1 slc ++ leBytes 4 n

/-- Record an event of an item, where its type and class are traced.  A trace that a start stopped (R296) runs again once
its types are written or a commit changes its base or size (DESIGN CHOICE, `notes/assumptions/70.md`). -/
def trace (s : State) (slc ty : Nat) (it : Item) (v : Nat) : State :=
  if (s.slc slc).traceOff || s.paramMill slc 0x080D slc = 0 || !bit (s.param 0x080E slc) ty || !bit (s.param 0x080F slc) it.cls then s
  else
    let d := it.desc
    let b7 := it.cls * 32 + dPolicy d * 8 + b2n (dAtomic d) * 4 + tierOf s slc (dCarrier d)
    traceWrite s slc (leBytes 6 s.now ++ leBytes 1 (ty * 16 + slc * 4) ++ leBytes 1 b7 ++ leBytes 4 (dFlow d) ++
      leBytes 2 (dCarrier d) ++ leBytes 2 v)

/-- A TIER record: type 8, bytes 7 to 11 zero. -/
def traceTier (s : State) (slc c old new : Nat) : State :=
  if (s.slc slc).traceOff || s.paramMill slc 0x080D slc = 0 || !bit (s.param 0x080E slc) 8 then s
  else traceWrite s slc (leBytes 6 s.now ++ leBytes 1 (8 * 16 + slc * 4) ++ [0, 0, 0, 0, 0] ++ leBytes 2 c ++
    leBytes 2 (old + new * 4))

/-! ## Ready set and flows (R271, R272) -/

/-- Another item of the flow is in service, ready, or queued. -/
def flowBusy (x : Slice) (f q : Nat) : Bool :=
  x.items.any fun e => e.1 ≠ q && dAtomic e.2.desc && dFlow e.2.desc = f &&
    (e.2.place = 1 || e.2.place = 3 || e.2.place = 4)

/-- A cached flow is pinned while it has an item running or queued. -/
def pinned (x : Slice) (f : Nat) : Bool :=
  x.items.any fun e => dAtomic e.2.desc && dFlow e.2.desc = f && (e.2.place = 1 || e.2.place = 3 || e.2.place = 4)

/-- An item whose flow entry is cached enters the ready set or its flow's queue (R271). -/
def joinFlow (s : State) (slc q : Nat) : State :=
  let x := s.slc slc
  match mapGet? x.items q with
  | none => s
  | some it =>
    let f := dFlow it.desc
    let s1 := s.setSlc slc { x with flows := f :: x.flows.filter fun g => g ≠ f }
    if flowBusy x f q then s1.modItem slc q fun i => { i with place := 1 }
    else s1.modItem slc q fun i => { i with place := 3 }

/-- An item becomes ready with an input status (R269, R271, R272). -/
def makeReady (s : State) (slc q input : Nat) : State :=
  let s1 := s.modItem slc q fun i =>
    { i with input := input, readyAt := s.now, classAt := s.now }
  match mapGet? (s1.slc slc).items q with
  | none => s
  | some it =>
    let s2 := trace s1 slc 2 it ((dWait it.desc).getD 0xFFFF)
    if !dAtomic it.desc then s2.modItem slc q fun i => { i with place := 3 }
    else if (s2.slc slc).flows.contains (dFlow it.desc) then joinFlow s2 slc q
    else
      let x := s2.slc slc
      (s2.setSlc slc { x with fetching := if x.fetching.contains (dFlow it.desc) then x.fetching
                                          else x.fetching ++ [dFlow it.desc] }).modItem slc q
        fun i => { i with place := 2 }

/-- Insert into a list in rising order of the first component, after equals. -/
def insertByFirst (a : Nat × Nat) (m : List (Nat × Nat)) : List (Nat × Nat) :=
  match m with
  | [] => [a]
  | b :: t => if a.1 < b.1 then a :: b :: t else b :: insertByFirst a t

/-- The second components of a list of pairs, in rising order of the first. -/
def sortByFirst (l : List (Nat × Nat)) : List Nat := (l.foldl (fun m a => insertByFirst a m) []).map fun a => a.2

/-- Address of a flow's entry, where a flow table is configured (R272). -/
def flowAddr (s : State) (slc f : Nat) : Option Nat :=
  let base := s.paramMill slc 0x080B 0
  if base = 2 ^ 64 - 1 then none else some (base + 8 * f)

/-- An entry is written back to the flow table.  An entry leaves the cache only while its flow is idle. -/
def flowWriteBack (s : State) (slc f : Nat) : State :=
  match flowAddr s slc f with
  | some a => (extWrite s a (padTo 8 ((Config.flowIdle f).take 8))).getD s
  | none => s

/-- Every entry of the flow table is written as idle, page by page (R272). -/
def flowTableIdle (s : State) : State :=
  let base := s.param 0x080B 0
  if base = 2 ^ 64 - 1 then s
  else (List.range 32768).foldl (fun t p =>
    (extWrite t (base + 2048 * p) ((List.range 256).flatMap fun i => padTo 8 ((Config.flowIdle (256 * p + i)).take 8))).getD t) s

/-- A flow-table entry arrives in the cache: the flow's items leave the miss list in the order in which they became ready
(R271, R272).  Where the cache is full, the entry used longest ago that is not pinned makes room and is written back.  An
entry that cannot be read is not fetched. -/
def flowFetched (s : State) (slc f : Nat) : State :=
  let x := s.slc slc
  if !x.fetching.contains f || ((flowAddr s slc f).bind fun a => extRead s a 8).isNone then s
  else
    let room : Option (List Nat × Option Nat) :=
      if x.flows.length < 16384 then some (f :: x.flows, none)
      else match (x.flows.reverse.find? fun g => !pinned x g) with
        | some v => some (f :: x.flows.filter fun g => g ≠ v, some v)
        | none => none
    match room with
    | none => s
    | some (fl, out) =>
      let s0 := match out with | some v => flowWriteBack s slc v | none => s
      let s1 := s0.setSlc slc { s0.slc slc with flows := fl, fetching := x.fetching.filter fun g => g ≠ f }
      let mine := (x.items.filter fun e => e.2.place = 2 && dFlow e.2.desc = f).map fun e => (e.2.readyAt, e.1)
      (sortByFirst mine).foldl (fun t q => joinFlow t slc q) s1

/-- The oldest queued item of a flow by ready order. -/
def flowHead (x : Slice) (f : Nat) : Option Nat :=
  (x.items.foldl (fun (best : Option (Nat × Nat)) e =>
    if e.2.place = 1 && dAtomic e.2.desc && dFlow e.2.desc = f then
      match best with
      | some (_, t) => if e.2.readyAt < t then some (e.1, e.2.readyAt) else best
      | none => some (e.1, e.2.readyAt)
    else best) none).map fun b => b.1

/-- After an item of a flow has left: the flow's oldest queued item enters the ready set (R271, R281). -/
def flowNext (s : State) (slc : Nat) (d : List Byte) : State :=
  if !dAtomic d then s
  else
    let x := s.slc slc
    let busy := x.items.any fun e => dAtomic e.2.desc && dFlow e.2.desc = dFlow d && (e.2.place = 3 || e.2.place = 4)
    if busy then s
    else match flowHead x (dFlow d) with
      | some q => s.modItem slc q fun i => { i with place := 3 }
      | none => s

/-! ## Counters (R269) -/

def Slice.counter (x : Slice) (k : Nat) : Counter := mapGet x.counters (k % 16384) {}
def setCounter (x : Slice) (k : Nat) (c : Counter) : Slice :=
  { x with counters := if c = {} then mapDel x.counters (k % 16384) else mapSet x.counters (k % 16384) c }

/-- Items parked on a counter, in the order in which they parked. -/
def parkedOn (x : Slice) (k : Nat) : List Nat :=
  (x.items.filter fun e => e.2.place = 0 && dWait e.2.desc = some k).map fun e => e.1

/-- Release the items parked on a counter that stands at 0. -/
def releaseAt (s : State) (k : Nat) : State :=
  let slc := k / 16384
  let c := (s.slc slc).counter k
  if c.count ≠ 0 then s
  else (parkedOn (s.slc slc) k).foldl (fun t q => makeReady t slc q c.status) s

/-- SET of a counter. -/
def setCounterOp (s : State) (k count : Nat) : State :=
  let slc := k / 16384
  releaseAt (s.setSlc slc (setCounter (s.slc slc) k { count := count, status := 0 })) k

/-- DECREMENT of a counter with a status; `src` is the source class of MILL_COUNTER_UNDERFLOW. -/
def decrementOp (s : State) (k st src : Nat) : State :=
  let slc := k / 16384
  let c := (s.slc slc).counter k
  if c.count = 0 then raise s 5 slc 0x0807 (leBytes 2 k ++ leBytes 1 src)
  else
    releaseAt (s.setSlc slc (setCounter (s.slc slc) k { count := c.count - 1, status := max c.status st })) k

/-- The counter word as read. -/
def counterWord (s : State) (k : Nat) : Nat :=
  let x := s.slc (k / 16384)
  let c := x.counter k
  (parkedOn x k).length % 65536 * 2 ^ 32 + c.status * 2 ^ 16 + c.count

/-- Decrement an item's valid successors, successor 0 first; those of another slice by a VC3 message (R270). -/
def decSuccessors (s : State) (slc : Nat) (d : List Byte) (st : Nat) : State :=
  (dSucc d).foldl (fun t k =>
    if k / 16384 = slc then decrementOp t k st 0
    else post t (millNode slc) (counterAddr k) (2 * 2 ^ 24 + st * 2 ^ 16)) s

/-! ## Completion (R270) -/

/-- The completion of an item that is skipped at tier T3.  Its trace status is the low byte, 0x81; a DONEWORK that carries
0x81 is another completion (R270). -/
def skipped : Nat := 0x181

/-- Status to the successors of a completion. -/
def succStatus (tr : Nat) (degraded : Bool) : Nat :=
  match tr with
  | 0 => if degraded then 1 else 0
  | 1 => 1
  | 0x181 => 1
  | _ => 3

/-- An item completes with a trace status. -/
def completeItem (s : State) (slc q tr : Nat) : State :=
  match mapGet? (s.slc slc).items q with
  | none => s
  | some it =>
    let s1 := trace s slc 4 it (tr % 256)
    let x := s1.slc slc
    let s2 := s1.setSlc slc { x with items := mapDel x.items q }
    decSuccessors (flowNext s2 slc it.desc) slc it.desc (succStatus tr it.degrade)

/-- The item that runs on a unit completes. -/
def completeUnit (s : State) (k tr : Nat) : State :=
  match runningOn s k with
  | some q =>
    let s1 := completeItem s (unitSlice k) q tr
    { s1 with mill := { s1.mill with aborts := mapDel s1.mill.aborts k, deliveries := mapDel s1.mill.deliveries k } }
  | none => s

/-- An item is dropped: it never runs, and its successors see a status. -/
def dropItem (s : State) (slc q reason st : Nat) : State :=
  match mapGet? (s.slc slc).items q with
  | none => s
  | some it =>
    let s1 := trace s slc 6 it reason
    let x := s1.slc slc
    let s2 := s1.setSlc slc { x with items := mapDel x.items q }
    decSuccessors (flowNext s2 slc it.desc) slc it.desc st

/-- The items of a carrier are removed as DROP does, without being counted as misses (R482). -/
def dropCarrier (s : State) (c : Nat) : State :=
  (List.range 4).foldl (fun t slc =>
    let mine := ((t.slc slc).items.filter fun e => dCarrier e.2.desc = c && e.2.place ≠ 4).map fun e => e.1
    mine.foldl (fun u q => dropItem u slc q 0 2) t) s

/-! ## Ageing, urgency and late items (R277 to R282) -/

/-- Enter a class; a change of class is recorded as PROMOTE. -/
def setClass (s : State) (slc q c at_ : Nat) : State :=
  match mapGet? (s.slc slc).items q with
  | none => s
  | some it =>
    let it1 := { it with cls := c, classAt := at_ }
    trace (s.modItem slc q fun _ => it1) slc 7 it1 it.cls

/-- Ageing of one item by one class, if due (R277). -/
def promote (s : State) (slc q : Nat) : State :=
  match mapGet? (s.slc slc).items q with
  | none => s
  | some it =>
    let w := s.param 0x0802 (slc * 6 + it.cls)
    if (it.place = 1 || it.place = 2 || it.place = 3) && decide (it.cls ≤ 5) && w ≠ 0 && reached (s.localNow 2 slc) (it.classAt + w) then
      setClass s slc q (it.cls + 1) (it.classAt + w)
    else s

/-- Entry of one item into class 7, if due (R278). -/
def urgent (s : State) (slc q : Nat) : State :=
  match mapGet? (s.slc slc).items q with
  | none => s
  | some it =>
    if it.place ≠ 4 && dHasDeadline it.desc && it.cls ≠ 7 && decide (dDeadline it.desc ≤ s.localNow 2 slc + s.param 0x0801 0) then
      setClass s slc q 7 s.now
    else s

/-- Add one to a policy's count. -/
def bumpPolicy (l : List Nat) (p : Nat) : List Nat := l.zipIdx.map fun (v, i) => if i = p then satAdd 16 v 1 else v

/-- An item's deadline has passed before its delivery: its late policy applies (R280 to R282). -/
def becomeLate (s : State) (slc q : Nat) : State :=
  match mapGet? (s.slc slc).items q with
  | none => s
  | some it =>
    let d := it.desc
    if it.place = 4 || !dHasDeadline d || it.late || !reached (s.localNow 2 slc) (dDeadline d) then s
    else
      let p := dPolicy d
      let x := s.slc slc
      let c := dCarrier d
      let x1 := { x with lateCheck := bumpPolicy x.lateCheck p }
      let x2 := if c = 0xFFFF then { x1 with lateNone := bumpPolicy x1.lateNone p }
        else { x1 with misses := x1.misses ++ [(c, (s.carrierTime (unitId 4 slc) c).slotCount (dDeadline d), p)] }
      let s1 := s.setSlc slc x2
      match p with
      | 1 => dropItem s1 slc q 0 2
      | 2 => (if it.cls = 7 then s1 else setClass s1 slc q 7 s.now).modItem slc q
               fun i => { i with late := true, degrade := true }
      | _ => (if it.cls = 7 then s1 else setClass s1 slc q 7 s.now).modItem slc q fun i => { i with late := true }

/-- Items of a slice in deadline order, then those without a deadline in the order in which they reached it. -/
def byDeadline (x : Slice) : List Nat :=
  sortByFirst (x.items.map fun e => (if dHasDeadline e.2.desc then dDeadline e.2.desc else 2 ^ 64, e.1))

/-- Every promotion of an item by ageing that has fallen due (R277). -/
def promoteDue (s : State) (slc q : Nat) : State := (List.range 6).foldl (fun t _ => promote t slc q) s

/-- An item on its way to a thief is late when its deadline passes (R280): the thief applies its policy. -/
def grantLate (s : State) (thief : Nat) : State :=
  match mapGet? s.mill.grants thief with
  | none => s
  | some (victim, it) =>
    if !dHasDeadline it.desc || it.late || !reached (s.localNow 2 thief) (dDeadline it.desc) then s
    else
      let q := (s.slc thief).nextSeq
      let x := s.slc thief
      let s1 := becomeLate (s.setSlc thief { x with items := mapSet x.items q it }) thief q
      let y := s1.slc thief
      match mapGet? y.items q with
      | none => { s1 with mill := { s1.mill with grants := mapDel s1.mill.grants thief } }
      | some it1 =>
        let s2 := s1.setSlc thief { y with items := mapDel y.items q }
        { s2 with mill := { s2.mill with grants := mapSet s2.mill.grants thief (victim, it1) } }

/-- A slice takes a carrier's tier. -/
def setTier (s : State) (slc c t : Nat) : State :=
  let x := s.slc slc
  s.setSlc slc { x with tiers := if t = 0 then mapDel x.tiers c else mapSet x.tiers c t }

/-- Tier changes of a slice whose broadcast must have arrived: 3,932 Tc after the slot end (R287). -/
def tierDue (s : State) (slc : Nat) : State :=
  let due := fun (m : TierMsg) => m.slc = slc && reached s.now (m.at_ + 3932)
  if s.mill.tierMsgs.any due then
    (s.mill.tierMsgs.filter due).foldl (fun t m => setTier t slc m.carrier m.tier)
      { s with mill := { s.mill with tierMsgs := s.mill.tierMsgs.filter fun m => !due m } }
  else s

/-- Every promotion, urgency entry and late handling that has fallen due, in deadline order (R279). -/
def dueActions (s : State) (slc : Nat) : State :=
  let s1 := grantLate (tierDue s slc) slc
  (byDeadline (s1.slc slc)).foldl (fun t q => becomeLate (urgent (promoteDue t slc q) slc q) slc q) s1

/-- What falls due in every slice in a time-clock cycle (R279). -/
def millTick (s : State) : State := (List.range 4).foldl dueActions s

/-! ## Enqueue (R267, R268) -/

/-- A source that R267 allows for enqueues, SETs and READs. -/
def millSource (s : State) (src chan : Nat) : Bool :=
  if chan < 768 then s.chanOwner chan = 0
  else if src = lanimanNode then chan ≠ 65534
  else decide (2 ≤ src / 128) && decide (src / 128 < 6) && decide (src % 128 < 16)

/-- Count an access that is not executed (R267). -/
def badAccess (s : State) (slc : Nat) : State :=
  s.setSlc slc { s.slc slc with badAccess := satAdd 32 (s.slc slc).badAccess 1 }

/-- The reason for which a slice refuses a descriptor, 0 where it accepts it (R268). -/
def refusal (s : State) (slc : Nat) (d : List Byte) : Nat :=
  let t := dTarget d
  let c := dCarrier d
  let field_ := dClass d = 7 || dPolicy d = 3 || decide (4 < t) ||
    (if t = 0 then dEntry d % 16 ≠ 0 || decide (0x7FF0 < dEntry d) else dEntry d ≠ 0) ||
    (decide (1023 < c) && c ≠ 0xFFFF) || (dTierFlags d ≠ 0 && c = 0xFFFF)
  if 65536 ≤ (s.slc slc).items.length then 2
  else if field_ then 3
  else if c ≠ 0xFFFF && !s.carrierActive c then 4
  else if (eligible slc d).isEmpty || millWithdrawn s slc then 5
  else if (match dWait d with | some k => decide (k / 16384 ≠ slc) | none => false) then 6
  else if dAtomic d && (dFlow d % 4 ≠ slc || s.paramMill slc 0x080B 0 = 2 ^ 64 - 1) then 7
  else 0

/-- The bits of byte i of a descriptor that are not reserved, for a target; the delivery word is written as zero (R9,
R264, R265). -/
def descMask (tgt i : Nat) : Nat :=
  match i with
  | 10 => 0x0F
  | 14 => 0x7F
  | 15 => 0
  | 30 => 0x07
  | 31 => 0x07
  | 34 => if tgt = 0 then 0xFF else 0
  | 35 => if tgt = 0 then 0xFF else 0
  | 36 => if tgt = 3 then 0x0F else if tgt = 4 then 0x03 else 0xFF
  | 37 => if tgt < 2 then 0xFF else 0
  | 38 => 0
  | 39 => 0
  | _ => 0xFF

/-- A descriptor as a slice holds it: reserved fields read as zero (R9). -/
def heldDesc (bytes : List Byte) : List Byte :=
  (List.range 64).map fun i => bytes.getD i 0 &&& BitVec.ofNat 8 (descMask (rd bytes 10 1 % 16) i)

/-- A slice takes one descriptor: it is enqueued, or refused and treated as dropped (R268). Answers the refusal code. -/
def enqueueOp (s : State) (slc : Nat) (bytes : List Byte) : State × Nat :=
  let d := heldDesc bytes
  let r := refusal s slc d
  if r ≠ 0 then
    let it : Item := { desc := d, place := 0, cls := dClass d }
    let s1 := trace s slc 6 it r
    let s2 := raiseLimited s1 5 slc 0x0806 slc 19661 1 fun n => leBytes 1 slc ++ leBytes 1 r ++ leBytes 4 n
    (decSuccessors s2 slc d 2, r)
  else
    let x := s.slc slc
    let q := x.nextSeq
    let it : Item := { desc := d, place := 0, cls := dClass d, classAt := s.now }
    let s1 := trace (s.setSlc slc { x with items := mapSet x.items q it, nextSeq := q + 1 }) slc 1 it ((dWait d).getD 0xFFFF)
    let s2 := match dWait d with
      | none => makeReady s1 slc q 0
      | some k =>
        let c := (s1.slc slc).counter k
        if c.count = 0 then makeReady s1 slc q c.status else s1
    (becomeLate (urgent s2 slc q) slc q, 0)

/-- An access to a Mill window that is neither a READ nor a WRITE of the right form (R267): counted, and answered with the
first status that applies. -/
def millBad (s : State) (m : FabMsg) (slc off : Nat) : State :=
  deny (badAccess s slc) m (if !millSource s m.src m.chan then 2 else if off ≠ 0 && !isCounterOff off then 3 else 6)

/-- A READ of a Mill window (R267). -/
def millWinRead (s : State) (m : FabMsg) (slc off : Nat) : State :=
  if !millSource s m.src m.chan then deny (badAccess s slc) m 2
  else if off = 0 then deny (badAccess s slc) m 6
  else if !isCounterOff off then deny (badAccess s slc) m 3
  else if m.len ≠ 8 || off % 8 ≠ 0 then deny (badAccess s slc) m 6
  else respond s m 0 (leBytes 8 (counterWord s (slc * 16384 + (off - 0x10000) / 8))) false 0

/-- Source class of a counter decrement that arrives as a write. -/
def decSource (m : FabMsg) : Nat :=
  if m.vc ≠ 3 then 3 else if m.chan < 768 then 1 else if m.src = lanimanNode then 2
  else if m.src % 128 = 64 then 0 else 3

/-- A WRITE of a Mill window (R267, R269). -/
def millWinWrite (s : State) (m : FabMsg) (slc off : Nat) : State :=
  let src := millSource s m.src m.chan
  let mill := decide (2 ≤ m.src / 128) && m.src % 128 = 64
  let op := (leNat m.data / 2 ^ 24) % 256
  if off = 0 then
    if !src then deny (badAccess s slc) m 2
    else if m.len ≠ 64 then deny (badAccess s slc) m 6
    else respond (enqueueOp s slc m.data).1 m 0 [] false 0
  else if !(src || (mill && isCounterOff off && op = 2)) then deny (badAccess s slc) m 2
  else if !isCounterOff off then deny (badAccess s slc) m 3
  else if m.len ≠ 8 || off % 8 ≠ 0 then deny (badAccess s slc) m 6
  else
    let k := slc * 16384 + (off - 0x10000) / 8
    let w := leNat m.data
    let s1 := if op = 1 then setCounterOp s k (w % 65536)
      else if op = 2 then decrementOp s k (w / 2 ^ 16 % 4) (decSource m)
      else s.setSlc slc { s.slc slc with badOp := satAdd 32 (s.slc slc).badOp 1 }
    respond s1 m 0 [] false 0

/-- ENQUEUE row: a 64-byte write of a master at offset 0. -/
def millEnqueue (s : State) (slc src : Nat) (bytes : List Byte) : State :=
  if !millSource s src 65535 || bytes.length ≠ 64 then badAccess s slc else (enqueueOp s slc bytes).1

/-- COUNTER_SET row. -/
def millCounterSet (s : State) (k count src : Nat) : State :=
  if !millSource s src 65535 then badAccess s (k / 16384) else setCounterOp s k count

/-! ## Dispatch (R273 to R276) -/

/-- `a` comes before `b` in a class (R275): for class 7 by deadline, late RUN items first among equals. -/
def before (cls : Nat) (a b : Nat × Item) : Bool :=
  let ready := a.2.readyAt < b.2.readyAt || (a.2.readyAt = b.2.readyAt && a.1 < b.1)
  if cls = 7 then
    let da := dDeadline a.2.desc
    let db := dDeadline b.2.desc
    let la := a.2.late && dPolicy a.2.desc = 0
    let lb := b.2.late && dPolicy b.2.desc = 0
    da < db || (da = db && ((la && !lb) || (la = lb && ready)))
  else ready

/-- Insert an item into an ordered list of a class. -/
def insertItem (cls : Nat) (a : Nat × Item) (m : List (Nat × Item)) : List (Nat × Item) :=
  match m with
  | [] => [a]
  | b :: t => if before cls a b then a :: b :: t else b :: insertItem cls a t

/-- The ready items of a class in order. -/
def readyItems (x : Slice) (cls : Nat) : List (Nat × Item) :=
  (x.items.filter fun e => e.2.place = 3 && e.2.cls = cls).foldl (fun m a => insertItem cls a m) []

/-- The first item, by class and order, for which a test finds a unit. -/
def pick (x : Slice) (f : Item → Option Nat) : Option (Nat × Item × Nat) :=
  (List.range 8).foldl (fun (best : Option (Nat × Item × Nat)) i =>
    match best with
    | some b => some b
    | none =>
      (readyItems x (7 - i)).foldl (fun (b : Option (Nat × Item × Nat)) e =>
        match b with
        | some v => some v
        | none => (f e.2).map fun k => (e.1, e.2, k)) none) none

/-- The delivery word (R266). -/
def deliveryWord (s : State) (slc : Nat) (it : Item) : Nat :=
  tierOf s slc (dCarrier it.desc) * 2 ^ 14 + b2n it.degrade * 2 ^ 13 + it.input * 2 ^ 11 + b2n it.stolen * 2 ^ 10 +
    b2n it.late * 2 ^ 9

/-- The copy that Mill delivers. -/
def deliveredCopy (s : State) (slc : Nat) (it : Item) : List Byte :=
  it.desc.take 38 ++ leBytes 2 (deliveryWord s slc it) ++ it.desc.drop 40

/-- Deliver an item to a unit. -/
def deliver (s : State) (slc q k : Nat) : State :=
  match mapGet? (s.slc slc).items q with
  | none => s
  | some it =>
    let v := if k < 1024 then k else 0x8000 + 256 * unitTarget k + unitIndex k
    let s1 := trace s slc 3 it v
    let s2 := s1.modItem slc q fun i => { i with place := 4, unit := k }
    let s3 := touchDomain s2 (unitDomain k)
    { s3 with mill := { s3.mill with deliveries := mapSet s3.mill.deliveries k (deliveredCopy s2 slc it) } }

/-- Idle cores of a slice. -/
def idleCores (s : State) (slc : Nat) : List Nat :=
  ((List.range 256).map fun i => 256 * slc + i).filter fun k => unitIdle s k

/-- The masks of a steal request. -/
def idleMasks (s : State) (slc : Nat) : Nat × Nat :=
  (idleCores s slc).foldl (fun (cm, um) k => (setBit cm (k % 256 / 16) true, setBit um (k % 16) true)) (0, 0)

/-- A slice may answer a steal request again: one for each decision (R284). -/
def clearAnswered (s : State) (slc : Nat) : State :=
  if (s.slc slc).answered then s.setSlc slc { s.slc slc with answered := false } else s

/-- One decision of a slice (R276). -/
def decide_ (s : State) (slc : Nat) : State :=
  let s1 := clearAnswered (dueActions s slc) slc
  if s1.boot.devState = 4 || millWithdrawn s slc then s1
  else
    match pick (s1.slc slc) fun it => (eligible slc it.desc).find? fun k => unitIdle s1 k with
    | some (q, it, k) =>
      if dEstimate it.desc && tierOf s1 slc (dCarrier it.desc) = 3 then completeItem s1 slc q skipped
      else deliver s1 slc q k
    | none =>
      let (cm, um) := idleMasks s1 slc
      let asked := (s1.mill.stealReqs.any fun r => r.thief = slc) || (mapGet? s1.mill.grants slc).isSome
      if cm ≠ 0 && s1.param 0x0808 slc = 1 && !asked then
        { s1 with mill := { s1.mill with stealReqs := s1.mill.stealReqs ++
            [{ thief := slc, victim := (slc + 1) % 4, clusters := cm, units := um }] } }
      else s1

/-- One vote failure (R293). -/
def voteFail (s : State) (slc : Nat) : State :=
  let x := s.slc slc
  let n := x.fails + 1
  let s1 := raise (s.setSlc slc { x with fails := if 3 ≤ n then 0 else n }) 5 slc 0x0804 (leBytes 1 slc ++ leBytes 1 n)
  if 3 ≤ n then enterSafe s1 0 slc else s1

/-- What the check bits of the slice's SRAM showed (R294). -/
def sramError (s : State) (slc : Nat) (e : SramErr) : State :=
  let x := s.slc slc
  let evt := fun (t : State) (kind : Nat) => raise t 5 slc 0x080B (leBytes 1 slc ++ leBytes 1 kind ++ leBytes 4 x.sramCorrected)
  match e with
  | .none => s
  | .corrected n => s.setSlc slc { x with sramCorrected := satAdd 32 x.sramCorrected n }
  | .item q readable =>
    if (mapGet? x.items q).isSome then
      let s1 := if readable then s
        else s.modItem slc q fun i => { i with desc := i.desc.take 30 ++ [i.desc.getD 30 0 &&& 1] ++ i.desc.drop 31 }
      evt (dropItem s1 slc q 8 3) 0
    else s
  | .state => enterSafe (evt s 1) 1 slc

/-- The copy that does not vote: after 64 fabric cycles it has been resynchronised at the latest (R292). -/
def excludedCopy (s : State) (slc : Nat) : Option Nat :=
  let x := s.slc slc
  if s.now < x.excludedAt + fabCycles 64 then x.excluded else none

/-- A decision that an agreeing majority carries ends a run of failures, and no copy stays excluded where all three agree
(R292, R293). -/
def agreed (s : State) (slc : Nat) (out : Option Nat) (since : Nat) : State :=
  let x := s.slc slc
  if x.excluded = out && x.excludedAt = since && x.fails = 0 then s
  else s.setSlc slc { x with excluded := out, excludedAt := since, fails := 0 }

/-- A decision of a slice, as its three copies voted (R292, R293): carried out, or discarded to be made again. -/
def voted (s : State) (slc : Nat) (v : MillVote) (f : State → State) : State :=
  let x := s.slc slc
  match v with
  | .agree => f (agreed s slc none x.excludedAt)
  | .copy k =>
    match excludedCopy s slc with
    | none => f (raise (agreed s slc (some k.val) s.now) 5 slc 0x0803 (leBytes 1 slc ++ leBytes 1 k.val))
    | some j => if j = k.val then f (agreed s slc x.excluded x.excludedAt) else voteFail s slc
  | .fail => voteFail s slc

/-- DISPATCH_DECISION (R276, R292 to R294). -/
def dispatch (s : State) (slc : Nat) (v : MillVote) (e : SramErr) : State :=
  voted (sramError s slc e) slc v fun t => decide_ t slc

/-! ## Stealing (R284) -/

/-- The request's masks name an idle core that an item's masks name too. -/
def stealMatch (r : StealReq) (d : List Byte) : Bool :=
  (dClusters d &&& r.clusters) ≠ 0 && (dUnits d &&& r.units) ≠ 0

/-- A steal request reaches a victim slice, which answers one for each of its decisions.  The masks narrow the request; the
item must name a core of the thief that is idle. -/
def stealRequestOp (s : State) (victim : Nat) : State :=
  match s.mill.stealReqs.find? fun r => r.victim = victim with
  | none => s
  | some r =>
    if (s.slc victim).answered then s
    else
    let s0 := dueActions s victim
    let s1 := { s0 with mill := { s0.mill with stealReqs := s0.mill.stealReqs.erase r } }.setSlc victim
      { s0.slc victim with answered := true }
    let ok := fun (it : Item) =>
      if dTarget it.desc = 0 && dSteal it.desc && !dAtomic it.desc && stealMatch r it.desc &&
          ((eligible r.thief it.desc).any fun k => unitIdle s1 k) &&
          !((eligible victim it.desc).any fun k => unitIdle s1 k) then some 0 else none
    match (if s1.boot.devState = 4 then none else pick (s1.slc victim) ok) with
    | some (q, it, _) =>
      let x := s1.slc victim
      let s2 := s1.setSlc victim { x with items := mapDel x.items q }
      { s2 with mill := { s2.mill with grants := mapSet s2.mill.grants r.thief (victim, { it with stolen := true }) } }
    | none =>
      let nv := (victim + 1) % 4
      if nv = r.thief then s1
      else { s1 with mill := { s1.mill with stealReqs := s1.mill.stealReqs ++ [{ r with victim := nv }] } }

/-- A stolen item reaches its thief and is delivered to an idle core that its masks name; at tier T3 an ESTIMATE item is
completed in place of its delivery (R276, R285).  In SAFE state nothing is delivered (R295). -/
def stealGrantOp (s0 : State) (thief : Nat) : State :=
  let s := dueActions s0 thief
  match (if s.boot.devState = 4 then none else mapGet? s.mill.grants thief) with
  | none => s
  | some (victim, it) =>
    match (eligible thief it.desc).find? fun k => unitIdle s k with
    | none => s
    | some k =>
      let x := s.slc thief
      let q := x.nextSeq
      let s1 := s.setSlc thief { x with items := mapSet x.items q it, nextSeq := q + 1 }
      let s2 := { s1 with mill := { s1.mill with grants := mapDel s1.mill.grants thief } }
      let s3 := trace s2 thief 5 it victim
      if dEstimate it.desc && tierOf s3 thief (dCarrier it.desc) = 3 then completeItem s3 thief q skipped
      else deliver s3 thief q k

/-! ## Service tiers (R285 to R287) -/

/-- Change a carrier's tier in its own slice, report it, and broadcast it. -/
def changeTier (s : State) (c new cause : Nat) : State :=
  let h := c % 4
  let old := tierOf s h c
  let s1 := traceTier (setTier s h c new) h c old new
  let s2 := raise s1 5 h 0x0802 (leBytes 2 c ++ leBytes 1 old ++ leBytes 1 new ++ leBytes 1 cause)
  let others := (List.range 4).filter fun i => i ≠ h
  { s2 with mill := { s2.mill with tierMsgs := s2.mill.tierMsgs ++ others.map fun i => { slc := i, carrier := c, tier := new, at_ := s.now } } }

/-- A slice reports a carrier's misses up to a slot (R282). -/
def reportMisses (s : State) (slc c : Nat) (slot : Int) : State × Bool :=
  let x := s.slc slc
  let mine := x.misses.filter fun m => m.1 = c && decide (m.2.1 ≤ slot)
  if mine.isEmpty then (s, false)
  else
    let n := fun p => min (mine.filter fun m => m.2.2 = p).length 65535
    let s1 := s.setSlc slc { x with misses := x.misses.filter fun m => !(m.1 = c && decide (m.2.1 ≤ slot)) }
    (raise s1 5 slc 0x0801 (leBytes 2 c ++ leBytes 1 slc ++ leBytes 2 (n 0) ++ leBytes 2 (n 1) ++ leBytes 2 (n 2)), true)

/-- A carrier's slot ends (R282, R286).  The misses that the other slices report by VC3 messages are taken as arrived
(R287; DESIGN CHOICE, `notes/assumptions/70.md`). -/
def slotEndOp (s : State) (c : Nat) (slot : Int) : State :=
  if !s.carrierActive c then s
  else
    let (s1, miss) := (List.range 4).foldl (fun (t, m) i =>
      let (u, b) := reportMisses t i c slot
      (u, m || b)) (s, false)
    let h := mapGet s1.mill.tierHist c {}
    let h1 : TierHist := { slots := (miss :: h.slots).take 64, clean := if miss then 0 else h.clean + 1 }
    let cur := tierOf s1 (c % 4) c
    let top := s1.param 0x0806 c
    let n := ((h1.slots.take (s1.param 0x0803 0)).filter fun b => b).length
    let put := fun (t : State) (v : TierHist) => { t with mill := { t.mill with tierHist := mapSet t.mill.tierHist c v } }
    if top < cur then changeTier (put s1 h1) c top 2
    else if s1.paramMill (c % 4) 0x0804 0 ≤ n then
      let s2 := put s1 { h1 with slots := [] }
      if cur < top then changeTier s2 c (cur + 1) 0 else s2
    else if s1.param 0x0805 0 ≤ h1.clean then
      let s2 := put s1 { h1 with clean := 0 }
      if 0 < cur then changeTier s2 c (cur - 1) 1 else s2
    else put s1 h1

/-- A tier broadcast arrives at a slice (R287). -/
def tierMessageOp (s : State) (slc c : Nat) : State :=
  match s.mill.tierMsgs.find? fun m => m.slc = slc && m.carrier = c with
  | none => s
  | some m => setTier { s with mill := { s.mill with tierMsgs := s.mill.tierMsgs.erase m } } slc c m.tier

/-- Late items without a carrier are reported (R282). -/
def lateReportOp (s : State) (slc : Nat) : State :=
  let x := s.slc slc
  if x.lateNone = [0, 0, 0] then s
  else
    raise (s.setSlc slc { x with lateNone := [0, 0, 0] }) 5 slc 0x0801
      (leBytes 2 0xFFFF ++ leBytes 1 slc ++ x.lateNone.flatMap fun n => leBytes 2 n)

/-- A MILL_CHECK action reaches a slice (R283). -/
def millCheckOp (s : State) (slc : Nat) : State :=
  let s1 := dueActions s slc
  let x := s1.slc slc
  let c7 := (x.items.filter fun e => e.2.cls = 7).length
  raise (s1.setSlc slc { x with lateCheck := [0, 0, 0] }) 5 slc 0x080A
    (leBytes 1 slc ++ leBytes 4 x.items.length ++ (x.lateCheck.flatMap fun n => leBytes 2 n) ++ leBytes 2 (min c7 65535))

/-! ## Warm and cold start (R296) and host commands (R462, R463) -/

/-- Every slice is emptied (R296). -/
def millEmpty (s : State) : State :=
  let keep := (List.range 4).map fun i => (i, ({ badAccess := (s.slc i).badAccess, badOp := (s.slc i).badOp
                                                 sramCorrected := (s.slc i).sramCorrected, traceOff := true } : Slice))
  { s with mill := { slices := keep, withdrawn := s.mill.withdrawn } }

/-- MILL_ENQUEUE (R462). -/
def cmdMillEnqueue (rq : Req) (pl : List Byte) (s : State) : State :=
  let slc := rd pl 0 1
  if 3 < slc then refuse s rq dzRange 0
  else
    let n := (pl.length - 8) / 64
    let (s1, codes) := (List.range n).foldl (fun (t, l) i =>
      let (u, r) := enqueueOp t slc (slice pl (8 + 64 * i) 64)
      (u, l ++ leBytes 1 r)) (s, [])
    replyOk s1 rq codes

/-- MILL_COUNTER_SET (R462). -/
def cmdMillCounterSet (rq : Req) (pl : List Byte) (s : State) : State :=
  replyOk ((List.range (pl.length / 4)).foldl (fun t i => setCounterOp t (rd pl (4 * i) 2) (rd pl (4 * i + 2) 2)) s) rq []

/-- MILL_COUNTER_READ (R462). -/
def cmdMillCounterRead (rq : Req) (pl : List Byte) (s : State) : State :=
  replyOk s rq ((List.range (pl.length / 2)).flatMap fun i => leBytes 8 (counterWord s (rd pl (2 * i) 2)))

/-- TRACE_READ (R463). -/
def cmdTraceRead (rq : Req) (pl : List Byte) (s : State) : State :=
  let slc := rd pl 0 1
  if 3 < slc then refuse s rq dzRange 0
  else
    let x := s.slc slc
    let cap := s.paramMill slc 0x080D slc / 16
    let first := max (rd pl 8 8) (x.traceWritten - cap)
    let n := min 253 (x.traceWritten - first)
    let recs := (List.range n).flatMap fun i =>
      extBytes s (s.paramMill slc 0x080C slc + (first + i) % cap * 16) 16
    replyOk s rq (leBytes 8 x.traceWritten ++ leBytes 4 x.traceLost ++ leBytes 4 n ++ recs)

end Sys2Proof.Machine
end

