-- ==== Sys2Proof/Machine/Drain.lean ====
section
/-! DEFINITION. What Laniman does with a drained unit (R288): kernel placement (R461), tail mode (R215), memory mode
(R203), the start of a self-test (R530), and its return to service. -/

namespace Sys2Proof.Machine

/-- The code of an image, as it lies in instruction memory (R459). -/
def imageCode (im : Image) : Bytes :=
  let n := leNat (bytesRead 0 im.bytes 8 4)
  (im.bytes.filter fun e => decide (64 ≤ e.1) && decide (e.1 < 64 + n)).map fun e => (e.1 - 64, e.2)

/-- The tail mode that an image declares (R215, R459). -/
def imageTail (im : Image) : Nat := (byteAt 0 im.bytes 6).toNat

/-- The memory mode a cluster is to be in: split while any condition of R203 holds. -/
def clusterWant (s : State) (cl : Nat) : Bool := (s.cluster cl).reasons ≠ 0 || s.paramCluster cl 0x0702 cl = 1

/-- Something still holds a drained unit out of service. -/
def drainHeld (s : State) (k : Nat) : Bool :=
  s.underTest k ||
  (decide (k < 1024) &&
    ((s.core k).tailDue || (s.core k).restoring || clusterWant s (k / 16) ≠ (s.cluster (k / 16)).split ||
      (match s.host.placeWait with | some w => w.left.contains k | none => false)))

/-- Return a unit to service unless something still holds it. -/
def releaseCore (s : State) (k : Nat) : State := if drainHeld s k then s else undrain s k

/-- Change a reason for split mode (R203); the cluster is drained when its mode is to change. -/
def clusterSync (s : State) (cl cause : Nat) : State :=
  let x := s.cluster cl
  let cores := (List.range 16).map fun i => 16 * cl + i
  if clusterWant s cl ≠ x.split then cores.foldl drainUnit (s.setCluster cl { x with cause := cause })
  else cores.foldl releaseCore s

def setReason (s : State) (cl b : Nat) (on : Bool) (cause : Nat) : State :=
  let x := s.cluster cl
  clusterSync (s.setCluster cl { x with reasons := setBit x.reasons b on }) cl cause

/-- A drained core takes its new tail mode (R215). -/
def tailStep (s : State) (k : Nat) : State :=
  let c := s.core k
  if 1024 ≤ k || !c.tailDue then s
  else s.setCore k { c with tail := s.paramCluster (k / 16) 0x0710 k, tailDue := false }

/-- A drained core is loaded by the KERNEL_PLACE that waits for it (R461). -/
def placeStep (s : State) (k : Nat) : State :=
  match s.host.placeWait with
  | none => s
  | some w =>
    if !w.left.contains k then s
    else
      let s1 := s.setCore k { s.core k with imem := imageCode w.kernel }
      let w1 := { w with left := w.left.filter fun i => i ≠ k, loaded := w.loaded + 1 }
      let h := { s1.host with
        placed := mapSet s1.host.placed k w.image, kernelTail := mapSet s1.host.kernelTail k (imageTail w.kernel)
        placeWait := if w1.left.isEmpty then none else some w1 }
      let s2 := { s1 with host := h }
      if w1.left.isEmpty then replyOk s2 w.req (leBytes 2 w1.loaded) else s2

/-- Testing begins on a drained unit; a core's cluster must have reached split mode (R530). -/
def testStep (s : State) (k : Nat) : State :=
  let t := s.unitTest k
  if t.st ≠ 2 || (decide (k < 1024) && !(s.cluster (k / 16)).split) then s
  else { s with test := { s.test with units := mapSet s.test.units k { t with st := 3, until_ := s.now + testLen k } } }

/-- A unit has become drained. -/
def drainHook (s : State) (k : Nat) : State :=
  if !drained s k then s
  else releaseCore (testStep (placeStep (tailStep s k) k) k) k

/-- Drain a unit, and act at once where it is drained already. -/
def drainNow (s : State) (k : Nat) : State := drainHook (drainUnit s k) k

end Sys2Proof.Machine
end

