-- ==== Sys2Proof/Machine/Clove.lean ====
section
/-! DEFINITION. The Clove units (R301 to R332): job records and their checks, LDPC decoding with soft combining,
transport-block assembly, encoding, polar and turbo jobs, soft buffers, and the end of a job.  The code tables of
TS 38.212 and TS 36.212 that the manual only names are opaque (`Config`); the closed formulas of those
specifications are written out here and in `Coding` (PRESUMED, `notes/assumptions/9.md`). -/

namespace Sys2Proof.Machine

/-! ## Places (R303, R304) -/

/-- Job classes: the Mill target of a unit (R301). -/
def cloveTarget (u : Nat) : Nat := unitTarget (cloveKey u)

/-- Unit number within its class. -/
def cloveNumber (u : Nat) : Nat := if u < 64 then u else if u < 96 then u - 64 else if u < 112 then u - 96 else u - 112

/-- A range that a job of a unit may name. -/
inductive JobPlace where
  | core (k off : Nat)
  | exch (u off : Nat)
  | ext (off : Nat)
  | bad
  deriving DecidableEq, Repr

/-- The place of a range of bytes (R304). -/
def jobPlace (s : State) (u addr n : Nat) : JobPlace :=
  match fabTarget addr with
  | .core k off => if k / 256 = unitSlice (cloveKey u) && decide (off + n ≤ 0x40000) then .core k off else .bad
  | .clove v off =>
    if unitSlice (cloveKey v) = unitSlice (cloveKey u) && decide (cloveBankSize v / 2 ≤ off) && decide (off + n ≤ cloveBankSize v)
    then .exch v off else .bad
  | .dram false off =>
    match memPlace s off with
    | .region g => if (s.region g).st ≠ 0 && decide (off + n ≤ (s.region g).base + (s.region g).size) then .ext off else .bad
    | _ => .bad
  | _ => .bad

/-- Read a range: its bytes, or none where it reads poisoned or uncorrectable or is not answered. -/
def jobRead (s : State) (u addr n : Nat) : Option (List Byte) :=
  match jobPlace s u addr n with
  | .core k off =>
    if (badTouched (s.bank (bankKey 0 k)) off n).isEmpty && s.domainOn (k / 16) then some (bytesRead 0 (s.core k).dmem off n) else none
  | .exch v off =>
    if (badTouched (s.bank (bankKey 1 v)) off n).isEmpty && s.domainOn (unitDomain (cloveKey v)) then
      some (bytesRead 0 (bankBytes s 1 v) off n) else none
  | .ext off => extRead s off n
  | .bad => none

/-- A write of a unit to an on-chip bank (R374): refused whole, with BANK_ECC, where it covers a word with an uncorrectable
error only in part; else written, with new check bits. -/
def bankPut (s : State) (node cls inst off : Nat) (bs : List Byte) : State × Bool :=
  let k := bankKey cls inst
  let b := s.bank k
  match badPartial b off bs.length with
  | w :: _ => (bankEccEvt s node k 2 w, false)
  | [] =>
    let hit := badTouched b off bs.length
    let s1 := if hit.isEmpty then s else s.setBank k { b with bad := b.bad.filter fun w => !hit.contains w }
    (setBankBytes s1 cls inst (bytesWrite 0 (bankBytes s1 cls inst) off bs), true)

/-- Write a range: the state, and whether the write was answered without an error. -/
def jobWrite (s : State) (u addr : Nat) (bs : List Byte) : State × Bool :=
  match jobPlace s u addr bs.length with
  | .core k off => if s.domainOn (k / 16) then bankPut s (clusterNode (k / 16)) 0 k off bs else (s, false)
  | .exch v off => if s.domainOn (unitDomain (cloveKey v)) then bankPut s (cloveNode v) 1 v off bs else (s, false)
  | .ext off => match extWrite s off bs with
    | some t => (t, true)
    | none => (s, false)
  | .bad => (s, false)

/-- Writes one after the other, up to the first that is answered with an error. -/
def jobWrites (s : State) (u : Nat) (ws : List (Nat × List Byte)) : State × Bool :=
  ws.foldl (fun t w => if t.2 then jobWrite t.1 u w.1 w.2 else t) (s, true)

/-- What a unit's read of a range leaves in the bank (R329, R372, R373): its corrected errors counted, and an uncorrectable
word counted and reported. -/
def readCounts (s : State) (u addr n : Nat) (fixed : List Nat) : State :=
  let go := fun (node k off : Nat) =>
    let s1 := bankCorrected s node k fixed
    match badTouched (s1.bank k) off n with
    | [] => s1
    | w :: _ =>
      bankEccEvt (s1.setBank k { s1.bank k with eccUncorrectable := satAdd 32 (s1.bank k).eccUncorrectable 1 }) node k 1 w
  match jobPlace s u addr n with
  | .core k off => go (clusterNode (k / 16)) (bankKey 0 k) off
  | .exch v off => go (cloveNode v) (bankKey 1 v) off
  | _ => s

/-! ## Record fields (R305, R307) -/

def jTy (r : List Byte) : Nat := rd r 0 1
def jCombine (r : List Byte) : Bool := bit (rd r 1 1) 0
def jStrip (r : List Byte) : Bool := bit (rd r 1 1) 1
def jIter (r : List Byte) : Nat := rd r 2 1
def jResult (r : List Byte) : Nat := rd r 8 8
def jIn (r : List Byte) : Nat := rd r 16 8
def jOut (r : List Byte) : Nat := rd r 24 8
def jSb (r : List Byte) : Nat := rd r 32 8

def qmOk (q : Nat) : Bool := q = 1 || q = 2 || q = 4 || q = 6 || q = 8 || q = 10

/-- The 51 lifting sizes of TS 38.212 Table 5.3.2-1 (R307). -/
def liftOk (z : Nat) : Bool :=
  decide (2 ≤ z) && decide (z ≤ 384) && (List.range 8).any fun j => [2, 3, 5, 7, 9, 11, 13, 15].any fun a => a * 2 ^ j = z

/-- K_b and the columns of a base graph. -/
def kb (bg : Nat) : Nat := if bg = 1 then 22 else 10
def bgN (bg : Nat) : Nat := if bg = 1 then 66 else 50

/-- N_cb of an LDPC_DECODE record. -/
def jNcb (r : List Byte) : Nat := if rd r 52 4 = 0 then bgN (rd r 40 1) * rd r 42 2 else rd r 52 4

/-- Fields of a record lie in the ranges of R305 and R307. -/
def rangesOk (r : List Byte) : Bool :=
  let rng := fun (lo hi v : Nat) => decide (lo ≤ v) && decide (v ≤ hi)
  match jTy r with
  | 1 =>
    let bg := rd r 40 1
    let z := rd r 42 2
    rng 1 32 (jIter r) && rng 1 2 bg && qmOk (rd r 41 1) && liftOk z && rng 1 (kb bg * z) (rd r 44 2) &&
    rng 0 5 (rd r 46 1) && rng 0 3 (rd r 47 1) && rng 1 1048575 (rd r 48 4) &&
    rng (kb bg * z - 2 * z + 1) (bgN bg * z) (jNcb r)
  | 2 =>
    rng 1 2 (rd r 40 1) && qmOk (rd r 41 1) && rng 1 4 (rd r 42 2) && rng 0 3 (rd r 44 2) && rng 24 1277992 (rd r 48 4)
  | 3 => (rd r 40 1 = 1 && rng 12 140 (rd r 42 2)) || (rd r 40 1 = 2 && rng 12 1706 (rd r 42 2))
  | 4 => (rd r 40 1 = 0 && rd r 42 2 = 32) || (rd r 40 1 = 1 && rng 12 140 (rd r 42 2))
  | 5 => rng 1 8 (jIter r) && qmOk (rd r 40 1) && rng 1 4 (rd r 41 1) && rng 0 3 (rd r 42 2) && rng 16 391656 (rd r 48 4)
  | 6 => qmOk (rd r 40 1) && rng 1 4 (rd r 41 1) && rng 0 3 (rd r 42 2) && rng 16 391656 (rd r 48 4)
  | _ => rng 1 255 (rd r 40 1) && rng 0 5 (rd r 41 1) && rng 0 5 (rd r 44 2) && rd r 52 4 % 64 = 0

/-- Segmentation of TS 38.212 clause 5.2.2: codeblocks, K' and Z. -/
def ldpcSegments (bg b : Nat) : Nat × Nat × Nat :=
  let kcb := if bg = 1 then 8448 else 3840
  let c := if b ≤ kcb then 1 else ceilDiv b (kcb - 24)
  let k' := (if c = 1 then b else b + 24 * c) / c
  let k := if bg = 1 then 22 else if 640 < b then 10 else if 560 < b then 9 else if 192 < b then 8 else 6
  (c, k', ((List.range 385).find? fun z => liftOk z && decide (k' ≤ k * z)).getD 384)

/-- The 188 interleaver sizes of TS 36.212 (R320). -/
def turboSizes : List Nat :=
  ((List.range 60).map fun i => 40 + 8 * i) ++ ((List.range 32).map fun i => 528 + 16 * i) ++
  ((List.range 32).map fun i => 1056 + 32 * i) ++ ((List.range 64).map fun i => 2112 + 64 * i)

/-- Segmentation of TS 36.212 clause 5.1.2: the size of each codeblock and the filler bits of the first. -/
def turboSegments (b : Nat) : List Nat × Nat :=
  let c := if b ≤ 6144 then 1 else ceilDiv b (6144 - 24)
  let b' := if c = 1 then b else b + 24 * c
  let kp := (turboSizes.find? fun k => decide (b' ≤ c * k)).getD 6144
  let km := ((turboSizes.filter fun k => decide (k < kp)).getLast?).getD kp
  let cm := if c = 1 || kp = km then 0 else (c * kp - b') / (kp - km)
  (List.replicate cm km ++ List.replicate (c - cm) kp, (c - cm) * kp + cm * km - b')

/-- A combination of fields in their ranges that TS 38.212 or TS 36.212 defines (R308).  The manual does not list them: the
coded bits divide evenly, every codeblock gets some, the lifting size is the one that segmentation gives, a polar
codeblock fits its mother code and its output, and the parts of a transport block hold its bits (DEDUCED,
`notes/assumptions/69.md`). -/
def combinationOk (r : List Byte) : Bool :=
  let shares := fun (g u c : Nat) => g % u = 0 && decide (c ≤ g / u)
  match jTy r with
  | 1 => rd r 48 4 % rd r 41 1 = 0 && (ldpcSegments (rd r 40 1) (rd r 44 2)).2.2 = rd r 42 2 &&
      decide ((crcCode (rd r 46 1)).2 < rd r 44 2)
  | 2 => shares (rd r 52 4) (rd r 42 2 * rd r 41 1)
      (ldpcSegments (rd r 40 1) (rd r 48 4 + if 3824 < rd r 48 4 then 24 else 16)).1
  | 3 | 4 =>
    let (_, a, e) := polarSegments (rd r 40 1) (rd r 42 2) (rd r 48 4)
    let k := a + polarCrc (rd r 40 1) a + polarNpc (rd r 40 1) a
    decide (k ≤ e) && decide (e ≤ 8192) && decide (k ≤ polarN (rd r 40 1) (a + polarCrc (rd r 40 1) a) e)
  | 5 =>
    let c := (turboSegments (rd r 48 4 + 24)).1.length
    shares (rd r 52 4) (rd r 41 1 * rd r 40 1) c && decide (c ≤ rd r 56 4)
  | 6 => shares (rd r 52 4) (rd r 41 1 * rd r 40 1) (turboSegments (rd r 48 4 + 24)).1.length
  | _ =>
    let c := rd r 40 1
    let cut := if c = 1 then 0 else (crcCode (rd r 44 2)).2
    decide (cut < rd r 42 2) && decide (rd r 48 4 + (crcCode (rd r 41 1)).2 ≤ c * (rd r 42 2 - cut))

/-- The fields lie in their ranges, and the standards define their combination (R308, detail FIELD). -/
def fieldsOk (r : List Byte) : Bool := rangesOk r && combinationOk r

/-- Job types that a class runs (R306). -/
def classRuns (tgt ty : Nat) : Bool :=
  match tgt with
  | 1 => ty = 1 || ty = 7
  | 2 => ty = 2
  | 3 => ty = 3 || ty = 4
  | _ => ty = 5 || ty = 6

/-- Bytes of a job's input. -/
def jInLen (r : List Byte) : Nat :=
  match jTy r with
  | 1 => rd r 48 4
  | 2 => ceilDiv (rd r 48 4) 8
  | 3 => rd r 48 4
  | 4 => ceilDiv (rd r 42 2) 8
  | 5 => rd r 52 4
  | 6 => ceilDiv (rd r 48 4) 8
  | _ => (rd r 40 1 - 1) * rd r 52 4 + ceilDiv (rd r 42 2) 8

/-- Bits of a job's output. -/
def jOutBits (r : List Byte) : Nat :=
  match jTy r with
  | 1 => rd r 44 2 - (if jStrip r then (crcCode (rd r 46 1)).2 else 0)
  | 2 => rd r 52 4
  | 3 => rd r 42 2
  | 4 => rd r 48 4
  | 6 => rd r 52 4
  | _ => rd r 48 4

/-- The result address passes R308. -/
def resultOk (s : State) (u : Nat) (r : List Byte) : Bool := jResult r % 32 = 0 && jobPlace s u (jResult r) 32 ≠ .bad

/-- The soft buffer lies where R304 and R305 want it, whatever the job's type. -/
def sbOk (s : State) (r : List Byte) : Bool :=
  jSb r = 0 || (jSb r % 64 = 0 &&
    match fabTarget (jSb r) with
    | .dram false off => match memPlace s off with
      | .region g => (s.region g).mode = 2
      | _ => false
    | _ => false)

/-- The detail with which a record is refused, 0 where it passes (R308). -/
def recordCheck (s : State) (u : Nat) (r : List Byte) : Nat :=
  if !classRuns (cloveTarget u) (jTy r) then 1
  else if !fieldsOk r then 2
  else if !resultOk s u r || !sbOk s r || jobPlace s u (jIn r) (jInLen r) = .bad ||
      jobPlace s u (jOut r) (ceilDiv (jOutBits r) 8) = .bad then 3
  else 0

/-! ## Soft buffers (R323 to R327) -/

/-- round with halves away from zero, of x / 2^s. -/
def roundHalf (x : Int) (s : Nat) : Int := roundAway ((x : Rat) / ((2 ^ s : Nat) : Rat))

/-- BLK4 shift of a block: the least s from 0 to 4 with max |λ| >> s ≤ 7. -/
def blk4Shift (l : List Int) : Nat :=
  let m := l.foldl (fun a x => max a x.natAbs) 0
  ((List.range 5).find? fun s => m / 2 ^ s ≤ 7).getD 4

/-- Data bytes of x positions in a format (R324). -/
def sbBytes (fmt x : Nat) : Nat :=
  match fmt with
  | 0 => x
  | 1 => 3 * ceilDiv x 4
  | _ => 35 * ceilDiv x 64

/-- Values as stored (R324). -/
def sbEncode (fmt : Nat) (v : List Int) : List Byte :=
  let at_ := fun i => v.getD i 0
  match fmt with
  | 0 => v.map fun x => BitVec.ofInt 8 x
  | 1 => (List.range (ceilDiv v.length 4)).flatMap fun k =>
      leBytes 3 ((List.range 4).foldl (fun a i =>
        a + ofSigned 6 (clampInt (-31) 31 (roundHalf (at_ (4 * k + i)) 2)) * 2 ^ (6 * i)) 0)
  | _ => (List.range (ceilDiv v.length 64)).flatMap fun k =>
      let b := (List.range 64).map fun i => at_ (64 * k + i)
      let s := blk4Shift b
      leBytes 1 s ++ leBytes 32 ((List.range 64).foldl (fun a i =>
        a + ofSigned 4 (clampInt (-7) 7 (roundHalf (b.getD i 0) s)) * 2 ^ (4 * i)) 0) ++ [0, 0]

/-- Values as reconstructed, none where a BLK4 shift above 4 is stored (R324). -/
def sbDecode (fmt x : Nat) (d : List Byte) : Option (List Int) :=
  match fmt with
  | 0 => some ((List.range x).map fun i => (llrOf (d.getD i 0)).1)
  | 1 => some ((List.range x).map fun i => 4 * toSigned 6 (rd d (3 * (i / 4)) 3 / 2 ^ (6 * (i % 4))))
  | _ =>
    if (List.range (ceilDiv x 64)).any fun k => decide (4 < rd d (35 * k) 1 % 8) then none
    else some ((List.range x).map fun i =>
      let k := i / 64
      toSigned 4 (rd d (35 * k + 1) 32 / 2 ^ (4 * (i % 64))) * ((2 ^ (rd d (35 * k) 1 % 8) : Nat) : Int))

/-- What a soft buffer holds for a job: values, extent, transmissions; or the reason of loss (R326). -/
def sbRead (s : State) (u sb ncb : Nat) (bad : Bool) : (List Int × Nat × Nat) × Nat :=
  let none_ := (([] : List Int), 0, 0)
  match (if bad then none else jobRead s u sb 16) with
  | none => (none_, 1)
  | some h =>
    let x := rd h 4 4
    if rd h 0 1 = 0 then (none_, 0)
    else if rd h 0 1 ≠ 1 then (none_, 3)
    else if 2 < rd h 1 1 then (none_, 2)
    else if rd h 8 4 ≠ ncb then (none_, 4)
    else match jobRead s u (sb + 16) (sbBytes (rd h 1 1) (min x ncb)) with
      | none => (none_, 1)
      | some d => match sbDecode (rd h 1 1) (min x ncb) d with
        | none => (none_, 2)
        | some v => ((v, min x ncb, rd h 2 1), 0)

/-- Format of a failed decode's write, and whether BLK4 is forced (R325). -/
def sbFormat (s : State) (u : Nat) (d : List Byte) : Nat × Bool :=
  let c := dCarrier d
  let own := if c = 0xFFFF then 0 else s.paramClove (cloveDomainOf u) 0x0904 c
  if bit (rd d 31 1) 1 && decide (2 ≤ rd d 38 2 / 2 ^ 14) then (2, own ≠ 2) else (own, false)

/-- Write a soft buffer: header with valid 0, data, header with valid 1 (R327).  What was written before a fault stays. -/
def sbApply (s : State) (u sb : Nat) (w : SbWrite) : State × Bool :=
  match w with
  | .none => (s, true)
  | .free =>
    match jobRead s u sb 16 with
    | some h => jobWrite s u sb (0 :: h.drop 1)
    | none => jobWrite s u sb (List.replicate 16 0)
  | .write fmt tx x ncb data =>
    let h := fun (v : Nat) => leBytes 1 v ++ leBytes 1 fmt ++ leBytes 1 (min tx 255) ++ [0] ++ leBytes 4 x ++ leBytes 4 ncb ++ [0, 0, 0, 0]
    jobWrites s u [(sb, h 0), (sb + 16, data), (sb, h 1)]

/-! ## LDPC (R312 to R316, R318) -/

/-- k0 of TS 38.212 Table 5.4.2.1-2. -/
def ldpcK0 (bg z ncb rv : Nat) : Nat :=
  let n := match bg, rv with
    | 1, 1 => 17
    | 1, 2 => 33
    | 1, 3 => 56
    | 2, 1 => 13
    | 2, 2 => 25
    | 2, 3 => 43
    | _, _ => 0
  n * ncb / (bgN bg * z) * z

/-- Positions of a circular buffer that are not filler, from k0 on. -/
def ldpcPositions (bg z k' ncb rv : Nat) : List Nat :=
  ((List.range ncb).map fun i => (ldpcK0 bg z ncb rv + i) % ncb).filter fun p =>
    !(decide (k' - 2 * z ≤ p) && decide (p < kb bg * z - 2 * z))

/-- The interleaver of clause 5.4.2.2 reversed: the LLR of bit i before interleaving (R312 step 1). -/
def deinterleave (qm : Nat) (l : List (Int × Nat)) : List (Int × Nat) :=
  let e := l.length
  (List.range e).map fun x => l.getD (x % (e / qm) * qm + x / (e / qm)) (0, 0)

/-- Accumulate LLRs at positions in arrival order: values and saturations (R312 step 3). -/
def accumulate (ps : List Nat) (l : List (Int × Nat)) : SMap Int × Nat :=
  l.zipIdx.foldl (fun (m, n) (x, i) =>
    if ps.isEmpty then (m, n)
    else
      let p := ps.getD (i % ps.length) 0
      match mapGet? m p with
      | none => (mapSet m p x.1, n + x.2)
      | some y => (mapSet m p (sat127 (y + x.1)), n + x.2 + b2n (decide (sat127 (y + x.1) ≠ y + x.1)))) ([], 0)

/-- Combine with stored values: the LLRs of positions 0 to x − 1, x, and saturations (R312 step 4). -/
def combine (acc : SMap Int) (stored : List Int) (sx ncb : Nat) : List Int × Nat × Nat :=
  let top := match acc.getLast? with | some e => e.1 + 1 | none => 0
  let x := min ncb (max top sx)
  let vs := (List.range x).map fun p => (mapGet acc p 0) + stored.getD p 0
  (vs.map sat127, x, (vs.filter fun v => sat127 v ≠ v).length)

/-- Columns in use (R313). -/
def ldpcCols (bg z ncb x : Nat) : Nat := min (2 + ceilDiv ncb z) (max (kb bg + 4) (2 + ceilDiv x z))

/-- A row's update (R314): posteriors and check messages of its edges. -/
def ldpcRowStep (alpha z l r : Nat) (edges : List (Nat × Nat)) (st : SMap Int × SMap Int) : SMap Int × SMap Int :=
  let var := fun (e : Nat × Nat) => e.1 * z + (r + e.2) % z
  let key := fun (i : Nat) => (l * 384 + r) * 64 + i
  let q : List Int := edges.zipIdx.map fun (e, i) => sat511 (mapGet st.1 (var e) 0 - mapGet st.2 (key i) 0)
  let mag := q.map fun x => min x.natAbs 127
  let m1 := mag.foldl min 127
  let i1 := (List.range mag.length).find? fun i => mag.getD i 0 = m1
  let m2 := ((mag.zipIdx.filter fun x => some x.2 ≠ i1).map fun x => x.1).foldl min 127
  let neg := (q.filter fun x => x < 0).length % 2 = 1
  edges.zipIdx.foldl (fun (p, rm) (e, i) =>
    let x := q.getD i 0
    let m := if some i = i1 then m2 else m1
    let s : Int := if (neg != decide (x < 0)) then -1 else 1
    let v := s * ((min 127 ((alpha * m + 8) / 16) : Nat) : Int)
    (mapSet p (var e) (sat511 (x + v)), mapSet rm (key i) v)) st

/-- Every parity check of the layers in use is met. -/
def syndromeZero (bg z ly : Nat) (c : Nat → Bool) : Bool :=
  (List.range ly).all fun l => (List.range z).all fun r =>
    ((Config.ldpcRow bg z l).filter fun e => c (e.1 * z + (r + e.2) % z)).length % 2 = 0

/-- One iteration over the layers in use. -/
def ldpcIter (alpha bg z ly : Nat) (st : SMap Int × SMap Int) : SMap Int × SMap Int :=
  (List.range ly).foldl (fun s l => (List.range z).foldl (fun q r => ldpcRowStep alpha z l r (Config.ldpcRow bg z l) q) s) st

/-- Decode: hard bits of the first K' positions, iterations run, and whether the syndrome is zero (R314, R315). -/
def ldpcDecodeCore (alpha bg z k' nc limit : Nat) (vals : List Int) : List Bool × Nat × Bool :=
  let ly := nc - kb bg
  let ch := fun k => if k < 2 * z then 0
    else if decide (k' ≤ k) && decide (k < kb bg * z) then 127 else vals.getD (k - 2 * z) 0
  let p0 : SMap Int := (List.range (nc * z)).map fun k => (k, ch k)
  let hard := fun (p : SMap Int) k => decide (mapGet p k 0 < 0)
  let (p, _, it, ok) := (List.range limit).foldl (fun (st : SMap Int × SMap Int × Nat × Bool) _ =>
    let (p, r, it, ok) := st
    if ok then st
    else
      let (p1, r1) := ldpcIter alpha bg z ly (p, r)
      (p1, r1, it + 1, syndromeZero bg z ly (hard p1))) (p0, [], 0, false)
  ((List.range k').map (hard p), it, ok)

/-- The iteration limit, and whether the tier and the degrade flag lowered it (R315). -/
def iterLimit (p : JobCaps) (d : List Byte) (job : Nat) : Nat × Bool × Bool :=
  let w := rd d 38 2
  let t1 := bit (rd d 31 1) 0 && decide (1 ≤ w / 2 ^ 14)
  let dg := bit w 13
  let a := if t1 then p.t1 else 32
  let b := if dg then p.degrade else 32
  (min job (min a b), t1 && decide (p.t1 < job), dg && decide (p.degrade < job))

/-- CLOVE_SB_LOST (R326). -/
def sbLost (s : State) (u reason : Nat) (j : CloveJob) : State :=
  if reason = 0 then s
  else raise s 6 u 0x0902 (leBytes 2 (dCarrier j.desc) ++ leBytes 1 reason ++ [0] ++ leBytes 8 (jSb j.rec_))

/-- The stored contents a job combines with, and the reason of loss (R312 step 4, R326). -/
def storedFor (s : State) (u : Nat) (r : List Byte) (ncb : Nat) (bad : Bool) : (List Int × Nat × Nat) × Nat :=
  if jCombine r && jSb r ≠ 0 then sbRead s u (jSb r) ncb bad else (([], 0, 0), 0)

/-- A running LDPC_DECODE (R312 to R316). -/
def startLdpcDecode (s : State) (u : Nat) (j : CloveJob) (inp : List Byte) (softBad : Bool) : State × CloveJob :=
  let r := j.rec_
  let bg := rd r 40 1
  let z := rd r 42 2
  let k' := rd r 44 2
  let ncb := jNcb r
  let (st, reason) := storedFor s u r ncb softBad
  let (acc, n1) := accumulate (ldpcPositions bg z k' ncb (rd r 47 1)) (deinterleave (rd r 41 1) (inp.map llrOf))
  let (vals, x, n2) := combine acc st.1 st.2.1 ncb
  let nc := ldpcCols bg z ncb x
  let (lim, capT, capD) := iterLimit j.caps j.desc (jIter r)
  let (bits, it, syn) := ldpcDecodeCore (s.paramClove (cloveDomainOf u) 0x0903 0) bg z k' nc lim vals
  let code := rd r 46 1
  let pass := if code = 0 then syn else crcMatches code bits
  let outBits := bits.take (jOutBits r)
  let (fmt, forced) := sbFormat s u j.desc
  let sb := if jSb r = 0 then SbWrite.none else if pass then .free
    else .write fmt (st.2.2 + 1) x ncb (sbEncode fmt vals)
  let wr := decide (jSb r ≠ 0) && !pass
  let flags := b2n syn + b2n capT * 2 + b2n capD * 4 + b2n (wr && forced) * 8 + b2n (reason ≠ 0) * 16
  let cyc := nc * (it * (nc - kb bg) + 2 * ceilDiv z 128)
  let j1 := { j with outs := [(jOut r, packBits outBits)], sb := sb, crc := if code = 0 then 2 else b2n pass, iters := it
                     flags := flags, reason := reason, extent := x, sats := n1 + n2, bits := outBits.length
                     until_ := s.now + fabCycles cyc }
  (sbLost s u reason j, j1)

/-- TB_ASSEMBLE (R317). -/
def startTbAssemble (s : State) (j : CloveJob) (inp : List Byte) : State × CloveJob :=
  let r := j.rec_
  let c := rd r 40 1
  let k' := rd r 42 2
  let stride := rd r 52 4
  let cb := fun i => bitsFrom (inp.drop (i * stride)) k'
  let cbCode := rd r 44 2
  let okCb := fun i => c = 1 || cbCode = 0 || crcMatches cbCode (cb i)
  let cut := fun (l : List Bool) => if c = 1 then l else l.take (l.length - (crcCode cbCode).2)
  let all := (List.range c).flatMap fun i => cut (cb i)
  let a := rd r 48 4
  let code := rd r 41 1
  let okTb := code = 0 || crcMatches code (all.take (a + (crcCode code).2))
  let n := ((List.range c).filter okCb).length
  let checked := code ≠ 0 || (decide (1 < c) && cbCode ≠ 0)
  (s, { j with outs := [(jOut r, packBits (all.take a))], crc := if checked then b2n (okTb && n = c) else 2, bits := a, cbs := n
               until_ := s.now + fabCycles (32 + ceilDiv (c * k') 512) })

/-- Coded bits of codeblock i of C (clause 5.4.2.1 of TS 38.212 and clause 5.1.4.1 of TS 36.212). -/
def shareOf (g nl qm c i : Nat) : Nat :=
  let u := nl * qm
  if i + g / u % c + 1 ≤ c then u * (g / (u * c)) else u * ceilDiv g (u * c)

/-- One LDPC codeblock: E coded bits, interleaved (R318 steps 3 to 5). -/
def ldpcCodeblock (bg z k' ncb rv qm e : Nat) (info : List Bool) : List Bool :=
  let sys := info ++ List.replicate (kb bg * z - k') false
  let d := (sys ++ ldpcParity bg z sys).drop (2 * z)
  let ps := ldpcPositions bg z k' ncb rv
  let bits := (List.range e).map fun i => d.getD (ps.getD (i % ps.length) 0) false
  (List.range e).map fun x => bits.getD (x % qm * (e / qm) + x / qm) false

/-- LDPC_ENCODE (R318). -/
def startLdpcEncode (s : State) (j : CloveJob) (inp : List Byte) : State × CloveJob :=
  let r := j.rec_
  let bg := rd r 40 1
  let a := rd r 48 4
  let g := rd r 52 4
  let qm := rd r 41 1
  let nl := rd r 42 2
  let rv := rd r 44 2
  let tb := withCrc (if 3824 < a then 2 else 1) (bitsFrom inp a)
  let (c, k', z) := ldpcSegments bg tb.length
  let per := if c = 1 then k' else k' - 24
  let n := bgN bg * z
  let ncb := if rd r 56 4 = 0 then n else min n (rd r 56 4)
  let cb := fun i =>
    let raw := (tb.drop (i * per)).take per
    ldpcCodeblock bg z k' ncb rv qm (shareOf g nl qm c i) (if c = 1 then raw else withCrc 3 raw)
  let out := (List.range c).flatMap cb
  let cyc := (List.range c).foldl (fun t i =>
    t + 72 + 8 * ldpcCols bg z ncb (min ncb (ldpcK0 bg z ncb rv + shareOf g nl qm c i + (kb bg * z - k')))) 32
  (s, { j with outs := [(jOut r, packBits out)], bits := g, cbs := c, until_ := s.now + fabCycles cyc })

/-! ## Polar and turbo (R319, R320) -/

/-- POLAR_DECODE and POLAR_ENCODE (R319, R322: N is that of one codeblock). -/
def startPolar (s : State) (j : CloveJob) (inp : List Byte) (enc : Bool) : State × CloveJob :=
  let r := j.rec_
  let ch := rd r 40 1
  let a := rd r 42 2
  let e := rd r 48 4
  let rnti := rd r 56 2
  let (_, ar, er) := polarSegments ch a e
  let n := polarN ch (ar + polarCrc ch ar) er
  if enc then
    (s, { j with outs := [(jOut r, packBits (polarEncode ch (bitsFrom inp a) e rnti))], bits := e
                 until_ := s.now + fabCycles (32 + n * n.log2 / 16) })
  else
    let size := if bit (rd j.desc 38 2) 13 then j.caps.list else 8
    let (bits, ok) := polarDecode ch a rnti size (inp.map fun b => (llrOf b).1)
    (s, { j with outs := [(jOut r, packBits (bits.take a))], crc := b2n ok, iters := size, bits := a
                 sats := (inp.filter fun b => b = 0x80).length
                 until_ := s.now + fabCycles (64 + n * n.log2 / 8 + 8 * (a + polarCrc ch a)) })

/-- TURBO_ENCODE (R320). -/
def startTurboEncode (s : State) (j : CloveJob) (inp : List Byte) : State × CloveJob :=
  let r := j.rec_
  let a := rd r 48 4
  let g := rd r 52 4
  let tb := withCrc 2 (bitsFrom inp a)
  let (ks, f) := turboSegments tb.length
  let c := ks.length
  let (_, out) := ks.zipIdx.foldl (fun (st : List Bool × List Bool) (k, i) =>
    let n := k - (if c = 1 then 0 else 24) - (if i = 0 then f else 0)
    let raw := (if i = 0 then List.replicate f false else []) ++ st.1.take n
    let cb := if c = 1 then raw else withCrc 3 raw
    (st.1.drop n, st.2 ++ turboCoded k (if i = 0 then f else 0) cb (shareOf g (rd r 41 1) (rd r 40 1) c i) (turboBuffer k) (rd r 42 2))) (tb, [])
  let cyc := ks.foldl (fun t k => t + ceilDiv k 24) 0
  (s, { j with outs := [(jOut r, packBits (out.take g))], bits := g, until_ := s.now + fabCycles cyc })

/-- TURBO_DECODE (R320): every codeblock decoded, the soft buffer of the transport block read and written as one. -/
def startTurboDecode (s : State) (u : Nat) (j : CloveJob) (inp : List Byte) (softBad : Bool) : State × CloveJob :=
  let r := j.rec_
  let a := rd r 48 4
  let g := rd r 52 4
  let (ks, f) := turboSegments (a + 24)
  let c := ks.length
  let ncbOf := fun k => min (rd r 56 4 / c) (turboBuffer k)
  let ncb := ncbOf (ks.headD 40)
  let (lim, capT, capD) := iterLimit j.caps j.desc (jIter r)
  let (fmt, forced) := sbFormat s u j.desc
  let (h, reason0) := storedFor s u r ncb softBad
  -- codeblock i of the data starts at the next multiple of 64 bytes after its predecessor (R320)
  let fmtOld := match jobRead s u (jSb r) 16 with | some x => rd x 1 1 | none => 0
  let pad := fun (n : Nat) => ceilDiv n 64 * 64
  let seg := fun i => (List.range i).foldl (fun t q => t + pad (sbBytes fmtOld (min h.2.1 (ncbOf (ks.getD q 40))))) 0
  let raw := fun i k =>
    if reason0 ≠ 0 || h.2.1 = 0 then some []
    else jobRead s u (jSb r + 16 + seg i) (sbBytes fmtOld (min h.2.1 (ncbOf k)))
  let stored := fun i k => (raw i k).bind fun d => sbDecode fmtOld (min h.2.1 (ncbOf k)) d
  let reason := if reason0 ≠ 0 then reason0
    else if ks.zipIdx.any fun (k, i) => (raw i k).isNone then 1
    else if ks.zipIdx.any fun (k, i) => (stored i k).isNone then 2 else 0
  -- each codeblock's combined values, its extent and saturations, with its part of the input
  let step := fun (st : Nat × List (List Int × Nat × Nat)) (x : Nat × Nat) =>
    let (k, i) := x
    let e := shareOf g (rd r 41 1) (rd r 40 1) c i
    let ps := turboPositions k (if i = 0 then f else 0) (ncbOf k) (rd r 42 2)
    let (acc, n1) := accumulate ps ((inp.drop st.1 |>.take e).map llrOf)
    let old := if reason = 0 then (stored i k).getD [] else []
    let (vals, x1, n2) := combine acc old (if reason = 0 then min h.2.1 (ncbOf k) else 0) (ncbOf k)
    (st.1 + e, st.2 ++ [(vals, x1, n1 + n2)])
  let (_, soft) := ks.zipIdx.foldl step (0, [])
  let ext := soft.foldl (fun m v => max m v.2.1) 0
  let sats := soft.foldl (fun m v => m + v.2.2) 0
  let done := (ks.zipIdx.zip soft).map fun ((k, i), v) =>
    let fill := if i = 0 then f else 0
    let (cb, n, p) := turboCb k fill lim (if c = 1 then 2 else 3) v.1
    ((cb.drop fill).take (k - (if c = 1 then 0 else 24) - fill), n, p, ceilDiv (k * n) 36)
  let bits := done.flatMap fun v => v.1
  let data := (ks.zip soft).foldl (fun (l : List Byte) (k, v) =>
    let x := min ext (ncbOf k)
    padTo (pad l.length) l ++ sbEncode fmt (v.1 ++ List.replicate (x - v.1.length) 0)) []
  let pass := crcMatches 2 bits
  let sb := if jSb r = 0 then SbWrite.none else if pass then .free else .write fmt (h.2.2 + 1) ext ncb data
  let wr := decide (jSb r ≠ 0) && !pass
  let flags := b2n capT * 2 + b2n capD * 4 + b2n (wr && forced) * 8 + b2n (reason ≠ 0) * 16
  let j1 := { j with outs := [(jOut r, packBits (bits.take a))], sb := sb, crc := b2n pass
                     iters := done.foldl (fun m v => max m v.2.1) 0, flags := flags, reason := reason, extent := ext, sats := sats
                     bits := a, cbs := (done.filter fun v => v.2.2.1).length
                     until_ := s.now + fabCycles (done.foldl (fun m v => m + v.2.2.2) 0) }
  (sbLost s u reason j, j1)

/-! ## Jobs (R304, R308, R310, R311) -/

/-- CLOVE_JOB_ERROR (R329). -/
def jobError (s : State) (u detail : Nat) (d : List Byte) : State :=
  raiseLimited s 6 u 0x0901 u 19661 1 fun n =>
    leBytes 1 (cloveTarget u) ++ leBytes 1 (cloveNumber u) ++ leBytes 1 detail ++ leBytes 1 (min n 255) ++
    leBytes 4 (dFlow d) ++ leBytes 2 (dCarrier d)

/-- The result record (R311). -/
def resultRecord (s : State) (j : CloveJob) (st detail : Nat) : List Byte :=
  let fmt := match j.sb with | .write f _ _ _ _ => f | _ => 255
  let fl := if detail ≠ 0 then j.flags else j.flags + (match j.sb with | .write _ _ _ _ _ => 32 | .free => 64 | .none => 0)
  leBytes 1 st ++ leBytes 1 detail ++ leBytes 1 j.crc ++ leBytes 1 j.iters ++ leBytes 1 fl ++
  leBytes 1 (if detail ≠ 0 then 255 else fmt) ++ leBytes 2 j.reason ++ leBytes 4 j.extent ++ leBytes 4 j.sats ++
  leBytes 8 s.now ++ leBytes 4 j.bits ++ leBytes 4 j.cbs

/-- Write the result record where its address allows it. -/
def putResult (s : State) (u : Nat) (j : CloveJob) (st detail : Nat) : State :=
  if !resultOk s u j.rec_ then s else (jobWrite s u (jResult j.rec_) (resultRecord s j st detail)).1

/-- The item of a job completes (R270), and a drain may complete with it. -/
def cloveEnd (s : State) (u slc item st : Nat) : State := drainHook (completeItem s slc item st) (cloveKey u)

/-- A job fails (R308): nothing is written but the result record. -/
def jobFail (s : State) (u detail : Nat) (j : CloveJob) : State :=
  let j1 : CloveJob := { slc := j.slc, item := j.item, desc := j.desc, rec_ := j.rec_, until_ := 0, crc := 2 }
  cloveEnd (jobError (if detail = 4 then s else putResult s u j1 2 detail) u detail j.desc) u j.slc j.item 2

/-- Datapath key of a job (R321). -/
def pathKey (u : Nat) (enc : Bool) : Nat := 2 * u + b2n (enc && decide (112 ≤ u))

/-- The state and the job of a checked record of a type (R312 to R320). -/
def startType (s : State) (u ty : Nat) (j : CloveJob) (inp : List Byte) (softBad : Bool) : State × CloveJob :=
  match ty with
  | 1 => startLdpcDecode s u j inp softBad
  | 2 => startLdpcEncode s j inp
  | 3 => startPolar s j inp false
  | 4 => startPolar s j inp true
  | 5 => startTurboDecode s u j inp softBad
  | 6 => startTurboEncode s j inp
  | _ => startTbAssemble s j inp

/-- A job whose record passed its checks begins on its datapath (R312 to R321). -/
def startChecked (s : State) (u : Nat) (j : CloveJob) (inp : List Byte) (softBad : Bool) : State :=
  let p := startType s u (jTy j.rec_) j inp softBad
  { p.1 with clove := { p.1.clove with jobs := mapSet p.1.clove.jobs (pathKey u (jTy j.rec_ = 6)) p.2 } }

/-- A job whose record has been read: its checks, then its input (R308).  Errors corrected in the input and in the working
area are counted (R329). -/
def startRecord (s : State) (u : Nat) (j : CloveJob) (e : CloveIn) : State :=
  if recordCheck s u j.rec_ ≠ 0 then jobFail s u (recordCheck s u j.rec_) j
  else
    let s1 := bankCorrected (readCounts s u (jIn j.rec_) (jInLen j.rec_) e.inputFixed) (cloveNode u) (bankKey 1 u)
      e.workFixed
    match (if e.inputBad then none else jobRead s u (jIn j.rec_) (jInLen j.rec_)) with
    | none => jobFail s1 u 5 j
    | some inp => startChecked s1 u j inp e.softBad

/-- A job begins on its datapath (R308, R312 to R320), with the parameters in force at its delivery (R331). -/
def startJob (s : State) (u slc item : Nat) (d : List Byte) (p : JobCaps) (e : CloveIn) : State :=
  let rec_ := jobRead s u (rd d 0 8) 64
  let j0 : CloveJob := { slc := slc, item := item, desc := d, rec_ := rec_.getD (List.replicate 64 0), until_ := 0, caps := p }
  if rd d 0 8 % 64 ≠ 0 || jobPlace s u (rd d 0 8) 64 = .bad then
    cloveEnd (jobError s u 3 d) u slc item 2
  else
    let s1 := readCounts s u (rd d 0 8) 64 e.recordFixed
    if e.recordBad || rec_.isNone then jobFail s1 u 4 j0
    else startRecord s1 u j0 e

/-- The item that a delivery to a unit carries: the one on the unit that no job holds. -/
def deliveredItem (s : State) (u : Nat) : Option Nat :=
  let held := (s.clove.jobs.map fun e => (e.2.slc, e.2.item)) ++ s.clove.queued.map fun q => (q.slc, q.item)
  let slc := unitSlice (cloveKey u)
  ((s.slc slc).items.find? fun e => e.2.place = 4 && e.2.unit = cloveKey u && !held.contains (slc, e.1)).map fun e => e.1

/-- The immediate parameters now in force (R331). -/
def State.jobCaps (s : State) : JobCaps := { t1 := s.param 0x0901 0, degrade := s.param 0x0902 0, list := s.param 0x0905 0 }

/-- The job type that the record of a delivered descriptor names; 0 where it cannot be read. -/
def deliveredType (s : State) (u : Nat) (d : List Byte) : Nat := ((jobRead s u (rd d 0 8) 64).map jTy).getD 0

/-- A unit receives a job of a type.  A record that names a type its class does not run, or that cannot be read, is
received by any of the class's rows. -/
def receiveJob (s : State) (u ty : Nat) (e : CloveIn) : State :=
  let tgt := cloveTarget u
  match mapGet? s.mill.deliveries (cloveKey u), deliveredItem s u with
  | some d, some q =>
    let rt := deliveredType s u d
    if !classRuns tgt ty || (rt ≠ ty && classRuns tgt rt) then s
    else
      let s1 := { s with mill := { s.mill with deliveries := mapDel s.mill.deliveries (cloveKey u) } }
      let key := pathKey u (rt = 6)
      if (mapGet? s1.clove.jobs key).isSome then
        { s1 with clove := { s1.clove with queued := s1.clove.queued ++
            [{ key := key, slc := unitSlice (cloveKey u), item := q, desc := d, caps := s.jobCaps }] } }
      else startJob s1 u (unitSlice (cloveKey u)) q d s.jobCaps e
  | _, _ => s

/-- TURBO_DATAPATH_FREE: a waiting job starts on a free datapath (R321). -/
def turboDatapathFree (s : State) (u : Nat) (enc : Bool) (e : CloveIn) : State :=
  let key := pathKey u enc
  if u < 112 || (mapGet? s.clove.jobs key).isSome then s
  else match s.clove.queued.find? fun q => q.key = key with
    | none => s
    | some q => startJob { s with clove := { s.clove with queued := s.clove.queued.erase q } } u q.slc q.item q.desc q.caps e

/-- CLOVE_JOB_COMPLETION (R310): outputs, soft buffer, result record, then the report to Mill. -/
def cloveJobCompletion (s : State) (u : Nat) (enc bankBad writeBad : Bool) : State :=
  let key := pathKey u enc
  match mapGet? s.clove.jobs key with
  | none => s
  | some j =>
    if !reached s.now j.until_ then s
    else
      let s1 := { s with clove := { s.clove with jobs := mapDel s.clove.jobs key } }
      if bankBad then jobFail s1 u 7 j
      else
        let w := if writeBad then (s1, false) else jobWrites s1 u j.outs
        let v := if w.2 then sbApply w.1 u (jSb j.rec_) j.sb else w
        if v.2 then
          let st := b2n (j.flags / 2 % 16 ≠ 0)
          cloveEnd (putResult v.1 u j st 0) u j.slc j.item st
        else jobFail v.1 u 6 j

end Sys2Proof.Machine
end

