-- ==== Sys2Proof/Machine/FacetAlu.lean ====
section
/-! DEFINITION. Scalar and element arithmetic of the Facet core: the ALU and multiplies (R176), rounding and bounds
(R220, R221), element layouts (R209), complex products (R224) and one element of every vector operation (R223, R226). -/

namespace Sys2Proof.Machine

/-! ## Scalar (R176) -/

/-- Leading zeros of a 64-bit value. -/
def clz64 (x : Nat) : Nat := if x = 0 then 64 else 63 - x.log2

/-- Ones among the low n bits. -/
def popcount (n x : Nat) : Nat := (List.range n).foldl (fun a i => a + b2n (bit x i)) 0

/-- Integer ALU (R176): 64-bit two's complement, no saturation; shift amounts are bits [5:0]. -/
def aluOp (o : AluOp) (a b : W64) : W64 :=
  let n := b.toNat % 64
  match o with
  | .add => a + b
  | .sub => a - b
  | .and => a &&& b
  | .or => a ||| b
  | .xor => a ^^^ b
  | .andn => a &&& ~~~b
  | .shl => a <<< n
  | .shr => a >>> n
  | .sar => a.sshiftRight n
  | .ror => a.rotateRight n
  | .min => if a.toInt ≤ b.toInt then a else b
  | .max => if a.toInt ≤ b.toInt then b else a
  | .minu => if a.toNat ≤ b.toNat then a else b
  | .maxu => if a.toNat ≤ b.toNat then b else a
  | .clz => BitVec.ofNat 64 (clz64 a.toNat)
  | .popc => BitVec.ofNat 64 (popcount 64 a.toNat)
  | .cmpeq => BitVec.ofNat 64 (b2n (a = b))
  | .cmpne => BitVec.ofNat 64 (b2n (a ≠ b))
  | .cmplt => BitVec.ofNat 64 (b2n (a.toInt < b.toInt))
  | .cmpltu => BitVec.ofNat 64 (b2n (a.toNat < b.toNat))
  | .cmple => BitVec.ofNat 64 (b2n (a.toInt ≤ b.toInt))
  | .cmpleu => BitVec.ofNat 64 (b2n (a.toNat ≤ b.toNat))

/-- Multiplies (R176). -/
def mulOp (o : MulOp) (a b : W64) : W64 :=
  match o with
  | .mul => a * b
  | .mulh => BitVec.ofInt 64 (a.toInt * b.toInt / (2 ^ 64 : Nat))
  | .mulhu => BitVec.ofNat 64 (a.toNat * b.toNat / 2 ^ 64)

/-! ## Rounding and bounds (R220 to R222) -/

/-- x / 2^s under a rounding field: 0 truncate, 1 half-up, 2 half-even (R220). -/
def roundShift (mode s : Nat) (x : Int) : Int :=
  if s = 0 then x
  else
    let d : Int := (2 ^ s : Nat)
    match mode with
    | 0 => x / d
    | 1 => (x + (2 ^ (s - 1) : Nat)) / d
    | _ =>
      let q := x / d
      let r := x % d
      let h : Int := (2 ^ (s - 1) : Nat)
      if r < h then q else if h < r then q + 1 else if q % 2 = 0 then q else q + 1

/-- A result bounded to w bits: saturated or wrapped, and whether it left the bounds (R221, R222). -/
def bound (w : Nat) (sat : Bool) (x : Int) : Nat × Bool :=
  let hi : Int := (2 ^ (w - 1) : Nat) - 1
  let lo : Int := -((2 ^ (w - 1) : Nat) : Int)
  if x < lo then (ofSigned w (if sat then lo else x), true)
  else if hi < x then (ofSigned w (if sat then hi else x), true)
  else (ofSigned w x, false)

/-! ## Elements (R209) -/

end Sys2Proof.Machine

namespace Sys2Proof

/-- Element size in bytes. -/
def VType.size (t : VType) : Nat :=
  match t with
  | .i8 => 1
  | .i16 => 2
  | .i32 => 4
  | .fp16 => 2
  | .bf16 => 2
  | .fp32 => 4
  | .ci16 => 4
  | .ci32 => 8

/-- Elements per register E. -/
def VType.per (t : VType) : Nat := 64 / t.size

/-- Width of a component in bits. -/
def VType.comp (t : VType) : Nat :=
  match t with
  | .ci16 => 16
  | .ci32 => 32
  | t => 8 * t.size

/-- The element has two components. -/
def VType.cplx (t : VType) : Bool := t = .ci16 || t = .ci32

/-- The floating-point format of a type. -/
def VType.fmt (t : VType) : Machine.FFmt :=
  match t with
  | .fp16 => Machine.fmt16
  | .bf16 => Machine.fmtB16
  | _ => Machine.fmt32

end Sys2Proof

namespace Sys2Proof.Machine

/-- Element i of a register of n-byte elements. -/
def elemAt (n : Nat) (v : W512) (i : Nat) : Nat := v.toNat / 2 ^ (8 * n * i) % 2 ^ (8 * n)

/-- The real and imaginary components of a ci16. -/
def ci16Of (x : Nat) : Int × Int := (toSigned 16 x, toSigned 16 (x / 2 ^ 16))
/-- The real and imaginary components of a ci32. -/
def ci32Of (x : Nat) : Int × Int := (toSigned 32 x, toSigned 32 (x / 2 ^ 32))
/-- Two components of w bits as one element. -/
def pack2 (w : Nat) (re im : Nat) : Nat := re + im * 2 ^ w

/-- The exact product of two complex numbers, the second conjugated or not (R224). -/
def cprod (conj : Bool) (a b : Int × Int) : Int × Int :=
  let bi := if conj then -b.2 else b.2
  (a.1 * b.1 - a.2 * bi, a.1 * bi + a.2 * b.1)

/-- A ci16 product divided by 2^15 and bounded (R224). -/
def cmulQ15 (conj : Bool) (mode : Nat) (sat : Bool) (a b : Nat) : Nat × Bool :=
  let p := cprod conj (ci16Of a) (ci16Of b)
  let (re, t) := bound 16 sat (roundShift mode 15 p.1)
  let (im, u) := bound 16 sat (roundShift mode 15 p.2)
  (pack2 16 re im, t || u)

/-- Apply an integer function to each component of one or two elements, and bound the results. -/
def perComp (t : VType) (sat : Bool) (f : Int → Int → Int) (a b : Nat) : Nat × Bool :=
  let w := t.comp
  let (re, x) := bound w sat (f (toSigned w a) (toSigned w b))
  if t.cplx then
    let (im, y) := bound w sat (f (toSigned w (a / 2 ^ w)) (toSigned w (b / 2 ^ w)))
    (pack2 w re im, x || y)
  else (re, x)

/-- The integer compare of two elements, or the floating-point one (NaN operands give false). -/
def cmpElem (o : VecOp) (t : VType) (a b : Nat) : Bool :=
  match t with
  | .fp16 => match o with
    | .vcmpeq => (fEq (decodeF fmt16 a) (decodeF fmt16 b)).getD false
    | .vcmplt => (fLt (decodeF fmt16 a) (decodeF fmt16 b)).getD false
    | _ => (fLt (decodeF fmt16 a) (decodeF fmt16 b)).getD false || (fEq (decodeF fmt16 a) (decodeF fmt16 b)).getD false
  | .fp32 => match o with
    | .vcmpeq => (fEq (decodeF fmt32 a) (decodeF fmt32 b)).getD false
    | .vcmplt => (fLt (decodeF fmt32 a) (decodeF fmt32 b)).getD false
    | _ => (fLt (decodeF fmt32 a) (decodeF fmt32 b)).getD false || (fEq (decodeF fmt32 a) (decodeF fmt32 b)).getD false
  | t =>
    let w := t.comp
    match o with
    | .vcmpeq => decide (toSigned w a = toSigned w b)
    | .vcmplt => decide (toSigned w a < toSigned w b)
    | _ => decide (toSigned w a ≤ toSigned w b)

/-- Conversion of one element (R226): pattern and whether it traps. -/
def convert (src dst : VType) (mode : Nat) (x : Nat) : Nat × Bool :=
  match dst with
  | .i32 =>
    match decodeF src.fmt x with
    | .nan => (0, true)
    | .inf s => (ofSigned 32 (if s then -(2 ^ 31 : Nat) else (2 ^ 31 : Nat) - 1), true)
    | .fin s q =>
      let v := signed s q
      let r := match mode with
        | 0 => v.floor
        | 1 => (v + 1 / 2).floor
        | _ => roundEvenInt v
      bound 32 true r
  | _ =>
    match src with
    | .i32 => fResult dst.fmt (ofRat (toSigned 32 x : Rat) false, false)
    | _ => fResult dst.fmt (decodeF src.fmt x, false)

/-- One element of an operation whose elements stand apart: from its sources a and b, the old destination d, the
modifier's rounding and saturation, and the shift s; the pattern and whether R222 traps it. -/
def elemOp (o : VecOp) (t : VType) (mode : Nat) (sat : Bool) (s : Nat) (a b d : Nat) : Nat × Bool :=
  let w := t.comp
  match o with
  | .vadd => perComp t sat (fun x y => x + y) a b
  | .vsub => perComp t sat (fun x y => x - y) a b
  | .vneg => perComp t sat (fun x _ => -x) a b
  | .vabs => perComp t sat (fun x _ => (x.natAbs : Int)) a b
  | .vmin => perComp t true (fun x y => min x y) a b
  | .vmax => perComp t true (fun x y => max x y) a b
  | .vand => (Nat.land a b, false)
  | .vor => (Nat.lor a b, false)
  | .vxor => (Nat.xor a b, false)
  | .vandn => (Nat.land a (2 ^ w - 1 - b), false)
  | .vshl => perComp t sat (fun x _ => x * (2 ^ s : Nat)) a b
  | .vshr => perComp t true (fun x _ => roundShift mode s x) a b
  | .vshru => (a / 2 ^ s, false)
  | .vconj =>
    let (im, y) := bound w sat (-(toSigned w (a / 2 ^ w)))
    (pack2 w (a % 2 ^ w) im, y)
  | .vcmulj =>
    let (re, y) := bound w sat (-(toSigned w (a / 2 ^ w)))
    (pack2 w re (a % 2 ^ w), y)
  | .vmulq => perComp t sat (fun x y => roundShift mode (w - 1) (x * y)) a b
  | .vcmulq => cmulQ15 false mode sat a b
  | .vcmulqc => cmulQ15 true mode sat a b
  | .vfadd => fResult t.fmt (fAdd (decodeF t.fmt a) (decodeF t.fmt b))
  | .vfsub => fResult t.fmt (fAdd (decodeF t.fmt a) (fNeg (decodeF t.fmt b)))
  | .vfmul => fResult t.fmt (fMul (decodeF t.fmt a) (decodeF t.fmt b))
  | .vfmin => fResult t.fmt (fMinMax false (decodeF t.fmt a) (decodeF t.fmt b))
  | .vfmax => fResult t.fmt (fMinMax true (decodeF t.fmt a) (decodeF t.fmt b))
  | .vfma => fResult t.fmt (fFma (decodeF t.fmt d) (decodeF t.fmt a) (decodeF t.fmt b))
  | _ => (a, false)

/-- One accumulation of a complex MAC into a ci32 (R205, R225): always saturated; traps where the exact sum leaves the
bounds. -/
def macElem (add conj : Bool) (acc a b : Nat) : Nat × Bool :=
  let p := cprod conj (ci16Of a) (ci16Of b)
  let z := if add then ci32Of acc else (0, 0)
  let (re, x) := bound 32 true (z.1 + p.1)
  let (im, y) := bound 32 true (z.2 + p.2)
  (pack2 32 re im, x || y)

end Sys2Proof.Machine
end

