-- ==== Sys2Proof/Machine/FacetUnits.lean ====
section
/-! DEFINITION. What the Demap and Solve units compute (R245 to R255): log-likelihood ratios, and the Cholesky factor,
triangular solves and Hermitian inverse in binary64 in the order of R251. -/

namespace Sys2Proof.Machine

/-! ## Demap (R245 to R248) -/

/-- A modulation (R245): Qm, levels per axis, Δ, range limit, result registers, alignment of Vd. -/
structure Modulation where
  qm : Nat
  levels : Nat
  delta : Nat
  limit : Nat
  regs : Nat
  align : Nat

/-- The rows of R245. -/
def modulation (k : Nat) : Option Modulation :=
  match k with
  | 0 => some ⟨1, 2, 8192, 16384, 1, 1⟩
  | 1 => some ⟨2, 2, 8192, 16384, 1, 1⟩
  | 2 => some ⟨4, 4, 4096, 24576, 1, 1⟩
  | 3 => some ⟨6, 8, 2048, 28672, 2, 2⟩
  | 4 => some ⟨8, 16, 1024, 30720, 2, 2⟩
  | 5 => some ⟨10, 32, 512, 31744, 3, 4⟩
  | _ => none

/-- The signed amplitude below the sign bit that TS 38.211 clause 5.1 gives the bits of an axis, in units of Δ; PRESUMED
from that clause. -/
def axisTail (bs : List Bool) : Int :=
  match bs with
  | [] => 1
  | b :: t => ((2 ^ (t.length + 1) : Nat) : Int) - (if b then -1 else 1) * axisTail t

/-- The level of an axis, in units of Δ, from its bits, first bit first. -/
def axisLevel (bs : List Bool) : Int :=
  match bs with
  | [] => 0
  | b :: t => (if b then -1 else 1) * axisTail t

/-- The bits of a number, the first bit highest. -/
def bitsOf (m x : Nat) : List Bool := (List.range m).map fun i => bit x (m - 1 - i)

/-- D for bit `i` of an axis at value `v` (R246): the least squared distance to the levels with that bit. -/
def axisDist (m delta : Nat) (c : Int) (i : Nat) (v : Bool) : Nat :=
  let ds := (List.range (2 ^ m)).filterMap fun x =>
    let bs := bitsOf m x
    if bs.getD i false = v then some ((c - axisLevel bs * delta).natAbs ^ 2) else none
  match ds with
  | [] => 0
  | h :: t => t.foldl min h

/-- sat(round((D1 − D0) × n / 2^40)) (R246). -/
def llr (d0 d1 n : Nat) : Int :=
  clampInt (-127) 127 (roundAway ((((d1 : Int) - (d0 : Int)) * (n : Int) : Int) / ((2 ^ 40 : Nat) : Rat)))

/-- The received point of a symbol after the rotation of π/2-BPSK (R246). -/
def demapPoint (k p j : Nat) (y : Int × Int) : Int × Int := if k = 0 && (j + p) % 2 = 1 then (y.2, -y.1) else y

/-- The LLRs of one symbol (R246). -/
def demapSymbol (k : Nat) (mo : Modulation) (y : Int × Int) (n : Nat) : List Int :=
  if k = 0 then
    let dist := fun (s : Int) => (y.1 - s).natAbs ^ 2 + (y.2 - s).natAbs ^ 2
    [llr (dist mo.delta) (dist (-(mo.delta : Int))) n]
  else
    let m := mo.qm / 2
    (List.range mo.qm).map fun b =>
      let c := if b % 2 = 0 then y.1 else y.2
      llr (axisDist m mo.delta c (b / 2) false) (axisDist m mo.delta c (b / 2) true) n

/-- A symbol has a component beyond the range limit (R248). -/
def demapOut (mo : Modulation) (y : Int × Int) : Bool := decide (mo.limit < y.1.natAbs) || decide (mo.limit < y.2.natAbs)

/-- The outcome of DMAP (R246 to R248): byte number, value of each LLR byte written, and the lowest symbol out of range. -/
def demap (k p : Nat) (mo : Modulation) (act : Nat → Bool) (va vb : W512) : List (Nat × Nat) × Option Nat :=
  let js := (List.range 16).filter act
  let pt := fun j => demapPoint k p j (ci16Of (elemAt 4 va j))
  let bytes := js.flatMap fun j =>
    (demapSymbol k mo (pt j) (elemAt 4 vb j)).zipIdx.map fun (l, b) => (j * mo.qm + b, ofSigned 8 l)
  let pad := (List.range (64 * mo.regs - 16 * mo.qm)).map fun i => (16 * mo.qm + i, 0)
  (bytes ++ pad, js.find? fun j => demapOut mo (pt j))

/-! ## Solve (R249 to R254) -/

/-- A complex binary64 number. -/
abbrev C64 := Rat × Rat

/-- Matrix entries by 32 times the row plus the column. -/
abbrev Mat := SMap C64

def matAt (m : Mat) (i j : Nat) : C64 := mapGet m (32 * i + j) (0, 0)
def matSet (m : Mat) (i j : Nat) (v : C64) : Mat := mapSet m (32 * i + j) v

/-- The complex product, each product and each sum rounded (R251). -/
def cMul64 (x y : C64) : C64 :=
  (r64 (r64 (x.1 * y.1) - r64 (x.2 * y.2)), r64 (r64 (x.1 * y.2) + r64 (x.2 * y.1)))
def cSub64 (x y : C64) : C64 := (r64 (x.1 - y.1), r64 (x.2 - y.2))
def cAdd64 (x y : C64) : C64 := (r64 (x.1 + y.1), r64 (x.2 + y.2))
def cDiv64 (x : C64) (d : Rat) : C64 := (r64 (x.1 / d), r64 (x.2 / d))
def cConj (x : C64) : C64 := (x.1, -x.2)
/-- |v|² (R251). -/
def cAbs2 (x : C64) : Rat := r64 (r64 (x.1 * x.1) + r64 (x.2 * x.2))

/-- Index of a packed lower-triangular element (R250). -/
def packIdx (i j : Nat) : Nat := i * (i + 1) / 2 + j
/-- Registers of a packed matrix and of a vector of order n (R250). -/
def triRegs (n : Nat) : Nat := ceilDiv (n * (n + 1) / 2) 8
def vecRegs (n : Nat) : Nat := ceilDiv n 8

/-- A packed matrix from its elements, as exact integers; imaginary parts of diagonal inputs of a Hermitian matrix are
ignored (R250). -/
def unpack (n : Nat) (es : List (Int × Int)) : Mat :=
  (List.range n).foldl (fun m i => (List.range (i + 1)).foldl (fun q j =>
    let e := es.getD (packIdx i j) (0, 0)
    matSet q i j ((e.1 : Rat), (e.2 : Rat))) m) []

/-- One column of the Cholesky factor: none where the pivot is not positive (R251). -/
def cholColumn (n : Nat) (a l : Mat) (j : Nat) : Option Mat :=
  let d := (List.range j).foldl (fun d k => r64 (d - cAbs2 (matAt l j k))) (matAt a j j).1
  if d ≤ 0 then none
  else
    let p := sqrt64 d
    let l1 := matSet l j j (p, 0)
    some ((List.range (n - 1 - j)).foldl (fun q x =>
      let i := j + 1 + x
      let t := (List.range j).foldl (fun t k => cSub64 t (cMul64 (matAt q i k) (cConj (matAt q j k)))) (matAt a i j)
      matSet q i j (cDiv64 t p)) l1)

/-- The Cholesky factor, or the columns before the one whose pivot failed (R251, R254). -/
def cholesky (n : Nat) (a : Mat) : Mat × Option Nat :=
  (List.range n).foldl (fun (st : Mat × Option Nat) j =>
    match st.2 with
    | some _ => st
    | none => match cholColumn n a st.1 j with
      | some l => (l, none)
      | none => (st.1, some j)) ([], none)

/-- L x = b (R251): the solution, or the part before a zero diagonal. -/
def solveLower (n : Nat) (l : Mat) (b : List C64) : List C64 × Option Nat :=
  (List.range n).foldl (fun (st : List C64 × Option Nat) i =>
    match st.2 with
    | some _ => st
    | none =>
      let p := (matAt l i i).1
      if p = 0 then (st.1, some i)
      else
        let t := (List.range i).foldl (fun t k => cSub64 t (cMul64 (matAt l i k) (st.1.getD k (0, 0)))) (b.getD i (0, 0))
        (st.1 ++ [cDiv64 t p], none)) ([], none)

/-- L^H x = b (R251): the solution from element n − 1 downward, in that order, or the part before a zero diagonal. -/
def solveUpper (n : Nat) (l : Mat) (b : List C64) : List C64 × Option Nat :=
  (List.range n).foldl (fun (st : List C64 × Option Nat) x =>
    match st.2 with
    | some _ => st
    | none =>
      let i := n - 1 - x
      let p := (matAt l i i).1
      if p = 0 then (st.1, some i)
      else
        let t := (List.range x).foldl (fun t y =>
          let k := i + 1 + y
          cSub64 t (cMul64 (cConj (matAt l k i)) (st.1.getD (n - 1 - k) (0, 0)))) (b.getD i (0, 0))
        (st.1 ++ [cDiv64 t p], none)) ([], none)

/-- W, the inverse of L (R251). -/
def invLower (n : Nat) (l : Mat) : Mat :=
  (List.range n).foldl (fun w j =>
    let w1 := matSet w j j (r64 (1 / (matAt l j j).1), 0)
    (List.range (n - 1 - j)).foldl (fun q x =>
      let i := j + 1 + x
      let t := (List.range (i - j)).foldl (fun t y => cSub64 t (cMul64 (matAt l i (j + y)) (matAt q (j + y) j))) (0, 0)
      matSet q i j (cDiv64 t (matAt l i i).1)) w1) []

/-- B = W^H W, lower triangle (R251). -/
def gram (n : Nat) (w : Mat) : Mat :=
  (List.range n).foldl (fun b i => (List.range (i + 1)).foldl (fun q j =>
    let t := (List.range (n - i)).foldl (fun t y => cAdd64 t (cMul64 (cConj (matAt w (i + y) i)) (matAt w (i + y) j))) (0, 0)
    matSet q i j t) b) []

/-- One output element as a ci32 at shift s, and whether a component saturated (R252). -/
def solveOut (s : Nat) (v : C64) : Nat × Bool :=
  let (re, x) := bound 32 true (roundEvenInt (v.1 * ((2 ^ s : Nat) : Rat)))
  let (im, y) := bound 32 true (roundEvenInt (v.2 * ((2 ^ s : Nat) : Rat)))
  (pack2 32 re im, x || y)

/-- Output elements, and the lowest one that saturated. -/
def solveOuts (s : Nat) (vs : List C64) : List Nat × Option Nat :=
  let os := vs.map (solveOut s)
  (os.map fun o => o.1, (List.range os.length).find? fun i => (os.getD i (0, false)).2)

/-- The packed lower triangle of a matrix; diagonal outputs have imaginary part 0 (R250). -/
def packTri (n : Nat) (m : Mat) : List C64 :=
  (List.range n).flatMap fun i => (List.range (i + 1)).map fun j =>
    if i = j then ((matAt m i j).1, 0) else matAt m i j

/-- The outcome of a Solve command: elements, cause and index of its error, 0 where it has none, and whether an output
saturated besides (R251 to R254, `notes/assumptions/75.md`). -/
def solve (o : UnitOp) (n s : Nat) (a b : List (Int × Int)) : List Nat × Nat × Nat × Bool :=
  let m := unpack n a
  let rhs := b.map fun e => (((e.1 : Int) : Rat), ((e.2 : Int) : Rat))
  let fin := fun (vs : List C64) (err : Option Nat) (cause : Nat) =>
    let (os, ov) := solveOuts s vs
    match err, ov with
    | some i, v => (os, cause, i, v.isSome)
    | none, some i => (os, 3, i, false)
    | none, none => (os, 0, 0, false)
  match o with
  | .schol =>
    let (l, e) := cholesky n m
    let keep := e.getD n
    let vs := (List.range n).flatMap fun i => (List.range (i + 1)).map fun j =>
      if j < keep then matAt l i j else (0, 0)
    fin vs e 1
  | .sinvh =>
    let (l, e) := cholesky n m
    match e with
    | some j => fin (List.replicate (n * (n + 1) / 2) (0, 0)) (some j) 1
    | none => fin (packTri n (gram n (invLower n l))) none 1
  | .strsl =>
    let (x, e) := solveLower n m rhs
    fin (x ++ List.replicate (n - x.length) (0, 0)) e 2
  | .strsu =>
    let (x, e) := solveUpper n m rhs
    fin (List.replicate (n - x.length) (0, 0) ++ x.reverse) e 2
  | _ => ([], 0, 0, false)

/-- Occupancy of a Solve command in core cycles (R253). -/
def solveCycles (o : UnitOp) (n : Nat) : Nat :=
  match o with
  | .schol => 16 + n * (n + 1) * (n + 2) / 6 + 20 * n
  | .sinvh => 16 + n * (n + 1) * (n + 2) / 2 + 40 * n
  | _ => 16 + n * (n + 1) / 2 + 20 * n

end Sys2Proof.Machine
end

