-- ==== Sys2Proof/Machine/FacetVec.lean ====
section
/-! DEFINITION. Core registers and vector operations: register access and retirement (R173, R182, R183), the legality
of a vector operation (R211, R214, R216, R223), its active elements (R212, R213), and one pass of it (R217, R225). -/

namespace Sys2Proof.Machine

/-! ## Registers (R173) -/

/-- Put a register value; zero is what an unlisted register holds. -/
def putW {n : Nat} (m : SMap (BitVec n)) (k : Nat) (v : BitVec n) : SMap (BitVec n) := if v = 0 then mapDel m k else mapSet m k v

def CoreRegs.getG (c : CoreRegs) (i : Nat) : W64 := mapGet c.g i 0
def CoreRegs.getV (c : CoreRegs) (i : Nat) : W512 := mapGet c.v i 0
def CoreRegs.getM (c : CoreRegs) (i : Nat) : W512 := mapGet c.m i 0
def CoreRegs.setG (c : CoreRegs) (i : Nat) (x : W64) : CoreRegs := { c with g := putW c.g i x }
def CoreRegs.setV (c : CoreRegs) (i : Nat) (x : W512) : CoreRegs := { c with v := putW c.v i x }
def CoreRegs.setM (c : CoreRegs) (i : Nat) (x : W512) : CoreRegs := { c with m := putW c.m i x }
def CoreRegs.getC (c : CoreRegs) (i : Nat) : Nat := (mapGet c.ctl i 0).toNat
def CoreRegs.setC (c : CoreRegs) (i v : Nat) : CoreRegs := { c with ctl := putW c.ctl i (BitVec.ofNat 64 v) }

/-- Destination numbers of results. -/
abbrev dG (i : Nat) : Nat := i
abbrev dV (i : Nat) : Nat := 32 + i
abbrev dM (i : Nat) : Nat := 64 + i
abbrev dVL : Nat := 72

abbrev ones512 : W512 := BitVec.allOnes 512

/-- A register result takes its place. -/
def applyRes (c : CoreRegs) (r : Res) : CoreRegs :=
  if r.dest < 32 then c.setG r.dest (r.val.setWidth 64)
  else if r.dest < 64 then c.setV (r.dest - 32) ((c.getV (r.dest - 32) &&& ~~~r.mask) ||| (r.val &&& r.mask))
  else if r.dest < 72 then c.setM (r.dest - 64) ((c.getM (r.dest - 64) &&& ~~~r.mask) ||| (r.val &&& r.mask))
  else { c with vl := r.val.toNat % 1024 }

/-- Results that the next bundle reads take their place, in the order of their bundles (R182, R183). -/
def retireDue (c : CoreRegs) : CoreRegs :=
  let due := c.inflight.filter fun r => decide (r.due ≤ c.bseq)
  due.foldl applyRes { c with inflight := c.inflight.filter fun r => !decide (r.due ≤ c.bseq) }

/-- A full-width result for a G register. -/
def resG (due i : Nat) (v : W64) : Res := { due := due, dest := dG i, mask := ones512, val := v.setWidth 512 }

/-! ## Modifier (R211) -/

def modG (m : BitVec 9) : Nat := 2 ^ field m.toNat 8 7
def modRound (m : BitVec 9) : Nat := field m.toNat 6 5
def modSat (m : BitVec 9) : Bool := bit m.toNat 4
def modTrap (m : BitVec 9) : Bool := bit m.toNat 3
def modSel (m : BitVec 9) : Nat := field m.toNat 2 0

/-! ## Catalogue (R223) -/

/-- The types for which an operation has an opcode. -/
def typeOk (o : VecOp) (t : VType) : Bool :=
  match o with
  | .vadd => t = .i8 || t = .i16 || t = .i32 || t.cplx
  | .vsub => t = .i8 || t = .i16 || t = .i32 || t.cplx
  | .vneg => t = .i8 || t = .i16 || t = .i32 || t.cplx
  | .vshl => t = .i8 || t = .i16 || t = .i32 || t.cplx
  | .vshr => t = .i8 || t = .i16 || t = .i32 || t.cplx
  | .vconj => t.cplx
  | .vcmulj => t.cplx
  | .vmulq => t = .i16 || t = .i32
  | .vcmpeq => t = .i8 || t = .i16 || t = .i32 || t = .fp16 || t = .fp32
  | .vcmplt => t = .i8 || t = .i16 || t = .i32 || t = .fp16 || t = .fp32
  | .vcmple => t = .i8 || t = .i16 || t = .i32 || t = .fp16 || t = .fp32
  | .vsplat => t = .i8 || t = .i16 || t = .i32 || t = .ci16
  | .vfadd => t = .fp16 || t = .fp32
  | .vfsub => t = .fp16 || t = .fp32
  | .vfmul => t = .fp16 || t = .fp32
  | .vfmin => t = .fp16 || t = .fp32
  | .vfmax => t = .fp16 || t = .fp32
  | .vfma => t = .fp16 || t = .fp32
  | .vabs => t = .i8 || t = .i16 || t = .i32
  | .vmin => t = .i8 || t = .i16 || t = .i32
  | .vmax => t = .i8 || t = .i16 || t = .i32
  | .vand => t = .i8 || t = .i16 || t = .i32
  | .vor => t = .i8 || t = .i16 || t = .i32
  | .vxor => t = .i8 || t = .i16 || t = .i32
  | .vandn => t = .i8 || t = .i16 || t = .i32
  | .vshru => t = .i8 || t = .i16 || t = .i32
  | .vfcvt u => (t = .fp32 && (u = .fp16 || u = .bf16 || u = .i32)) || (u = .fp32 && (t = .fp16 || t = .bf16 || t = .i32))
  | _ => true

/-- Latency (R205, R223). -/
def vecLatency (o : VecOp) : Nat :=
  match o with
  | .vmulq => 4
  | .vcmulq => 4
  | .vcmulqc => 4
  | .cmul => 4
  | .cmulc => 4
  | .cmac => 4
  | .cmacc => 4
  | .cmacs => 4
  | .cmacsc => 4
  | .vcrsum => 4
  | .vfadd => 4
  | .vfsub => 4
  | .vfmul => 4
  | .vfmin => 4
  | .vfmax => 4
  | .vfma => 4
  | .vfcvt _ => 4
  | .setvl => 1
  | .mlen => 1
  | .mand => 1
  | .mor => 1
  | .mxor => 1
  | .mandn => 1
  | .mnot => 1
  | .msel => 1
  | .mpopc => 1
  | _ => 2

/-- Complex MAC operations (R205). -/
def isMac (o : VecOp) : Bool :=
  match o with
  | .cmul => true
  | .cmulc => true
  | .cmac => true
  | .cmacc => true
  | .cmacs => true
  | .cmacsc => true
  | _ => false

/-- The second operand of a MAC is a scalar G register. -/
def macScalar (o : VecOp) : Bool := o = .cmacs || o = .cmacsc
/-- The MAC conjugates its second operand; it adds to its accumulator. -/
def macConj (o : VecOp) : Bool := o = .cmulc || o = .cmacc || o = .cmacsc
def macAdds (o : VecOp) : Bool := !(o = .cmul || o = .cmulc)

/-- Mask operations (R223). -/
def isMaskOp (o : VecOp) : Bool :=
  match o with
  | .mlen => true
  | .mand => true
  | .mor => true
  | .mxor => true
  | .mandn => true
  | .mnot => true
  | .msel => true
  | .mpopc => true
  | _ => false

/-- Compares (R214). -/
def isCmp (o : VecOp) : Bool := o = .vcmpeq || o = .vcmplt || o = .vcmple

/-- Only group size 1 is allowed. -/
def singleOnly (o : VecOp) : Bool :=
  isMaskOp o ||
  match o with
  | .vnarrow => true
  | .vcnarrow => true
  | .vcwiden => true
  | .vcrsum => true
  | .vslide _ => true
  | .vfcvt _ => true
  | _ => false

/-- The operation rounds (R220). -/
def rounds (o : VecOp) : Bool :=
  match o with
  | .vshr => true
  | .vmulq => true
  | .vcmulq => true
  | .vcmulqc => true
  | .vnarrow => true
  | .vcnarrow => true
  | .vcrsum => true
  | .vfcvt .i32 => true
  | _ => false

/-- The operation reads Vb as a vector. -/
def readsVb (o : VecOp) : Bool :=
  match o with
  | .vadd => true
  | .vsub => true
  | .vmin => true
  | .vmax => true
  | .vand => true
  | .vor => true
  | .vxor => true
  | .vandn => true
  | .vmulq => true
  | .vcmulq => true
  | .vcmulqc => true
  | .cmul => true
  | .cmulc => true
  | .cmac => true
  | .cmacc => true
  | .vcmpeq => true
  | .vcmplt => true
  | .vcmple => true
  | .vsel => true
  | .vslide _ => true
  | .vfadd => true
  | .vfsub => true
  | .vfmul => true
  | .vfmin => true
  | .vfmax => true
  | .vfma => true
  | _ => false

/-- The operation reads Va as a vector. -/
def readsVa (o : VecOp) : Bool := !(isMaskOp o || o = .setvl || o = .vsplat)

/-- Number of elements of an operation (R209, R225); the operations on a pair have the elements of the pair. -/
def vecCount (o : VecOp) (t : VType) (g : Nat) : Nat :=
  if isMac o then 16 * g
  else match o with
    | .vnarrow => 32
    | .vcnarrow => 16
    | .vcwiden => 16
    | .vcrsum => 16
    | .vfcvt _ => 16
    | _ => t.per * g

/-- Two register groups of g overlap without coinciding (R216). -/
def overlap (g d a : Nat) : Bool := d ≠ a && decide (d < a + g) && decide (a < d + g)

/-- The operation's shift lies outside its range (R223). -/
def shiftBad (o : VecOp) (t : VType) (s : Nat) : Bool :=
  match o with
  | .vshl => decide (t.comp ≤ s)
  | .vshr => decide (t.comp ≤ s)
  | .vshru => decide (t.comp ≤ s)
  | .vcwiden => decide (15 < s)
  | .vslide n => decide (t.per ≤ n.val)
  | _ => false

/-- ILLEGAL_OP conditions of a vector operation (R205, R211, R214, R216, R223). -/
def vecIllegal (tail : Nat) (o : VecOp) (t : VType) (d a b : Nat) (m : BitVec 9) : Bool :=
  let g := modG m
  let r := modRound m
  let dV_ := !(isCmp o || isMaskOp o || o = .setvl || o = .vcrsum || isMac o || o = .vcwiden)
  !typeOk o t || (singleOnly o && g ≠ 1) || r = 3 || (!rounds o && r ≠ 0) ||
  (tail = 0 && modSel m ≠ 0 && o ≠ .vsel && o ≠ .msel) || (tail = 1 && o = .setvl) ||
  (isCmp o && decide (8 ≤ d)) ||
  (isMaskOp o && ((o ≠ .mpopc && decide (8 ≤ d)) || (o ≠ .mlen && decide (8 ≤ a)) ||
    ((o = .mand || o = .mor || o = .mxor || o = .mandn || o = .msel) && decide (8 ≤ b)))) ||
  ((isMac o || o = .vcwiden) && d % 2 = 1) || ((o = .vcnarrow || o = .vcrsum) && a % 2 = 1) || (o = .vnarrow && a = 31) ||
  shiftBad o t b ||
  (g ≠ 1 && o ≠ .setvl &&
    ((dV_ && d % g ≠ 0) || (readsVa o && a % g ≠ 0) || (readsVb o && b % g ≠ 0) ||
     (dV_ && readsVa o && overlap g d a) || (dV_ && readsVb o && overlap g d b)))

/-- Active elements of an operation of `cnt` elements, from element `start` on (R212, R213). -/
def activeMask (c : CoreRegs) (tail sel cnt start : Nat) : W512 :=
  let n := if tail = 0 then min c.vl cnt else cnt
  let low := BitVec.ofNat 512 (2 ^ n - 2 ^ min start n)
  if tail = 0 || sel = 0 then low else low &&& c.getM sel

/-! ## One pass (R217) -/

/-- Values placed in elements of `n` bytes: mask and value. -/
def placeElems (n : Nat) (es : List (Nat × Nat)) : W512 × W512 :=
  es.foldl (fun (mk, v) (i, x) =>
    (mk ||| BitVec.ofNat 512 ((2 ^ (8 * n) - 1) * 2 ^ (8 * n * i)),
     v ||| BitVec.ofNat 512 (x % 2 ^ (8 * n) * 2 ^ (8 * n * i)))) (0, 0)

/-- Run a function over elements in order up to the first that traps: the results before it, and its number. -/
def runElems (trap : Bool) (js : List Nat) (f : Nat → Nat × Bool) : List (Nat × Nat) × Option Nat :=
  js.foldl (fun (acc : List (Nat × Nat) × Option Nat) j =>
    match acc.2 with
    | some _ => acc
    | none =>
      let (x, t) := f j
      if trap && t then (acc.1, some j) else (acc.1 ++ [(j, x)], none)) ([], none)

/-- Element i of a register pair of n-byte elements. -/
def pairElem (n : Nat) (lo hi : W512) (i : Nat) : Nat :=
  if i < 64 / n then elemAt n lo i else elemAt n hi (i - 64 / n)

/-- A register pair with element i of n bytes replaced. -/
def pairSet (n : Nat) (p : W512 × W512) (i x : Nat) : W512 × W512 :=
  let (mk, v) := placeElems n [(i % (64 / n), x)]
  if i < 64 / n then ((p.1 &&& ~~~mk) ||| v, p.2) else (p.1, (p.2 &&& ~~~mk) ||| v)

/-- The results of one pass of a vector operation: without their due bundle, the trapping element, and the
accumulators of a MAC. -/
structure PassOut where
  res : List Res
  trap : Option Nat
  lo : W512
  hi : W512

/-- Pass k of a vector operation (R217, R223, R225). -/
def vecPass (c : CoreRegs) (o : VecOp) (t : VType) (d a b : Nat) (m : BitVec 9) (l : LongOp) : PassOut :=
  let k := l.pass
  let tr := modTrap m
  let rd_ := modRound m
  let sat := modSat m
  let on := fun j => l.act.getLsbD j
  let mk := fun (dest : Nat) (p : W512 × W512) => ({ due := 0, dest := dest, mask := p.1, val := p.2 } : Res)
  let va := c.getV (a + k)
  let vb := c.getV (b + k)
  if isMac o then
    let js := (List.range 16).filter fun i => on (16 * k + i)
    let (p, e) := js.foldl (fun (st : (W512 × W512) × Option Nat) i =>
      match st.2 with
      | some _ => st
      | none =>
        let y := if macScalar o then l.scalar.toNat % 2 ^ 32 else elemAt 4 vb i
        -- CMUL in a group replaces the accumulator with its first product and adds the later ones
        let first := (List.range k).all fun q => !on (16 * q + i) && decide (l.start ≤ 16 * q + i)
        let (x, ov) := macElem (macAdds o || !first) (macConj o) (pairElem 8 st.1.1 st.1.2 i) (elemAt 4 va i) y
        if tr && ov then (st.1, some (16 * k + i)) else (pairSet 8 st.1 i x, none)) ((l.lo, l.hi), none)
    -- only the accumulator elements that some product reached are written
    let last := match e with | some x => x % 16 | none => 16
    let lanes := (List.range 16).filter fun i =>
      (List.range k).any (fun q => on (16 * q + i)) || (on (16 * k + i) && decide (i < last))
    let ml := (placeElems 8 ((lanes.filter fun i => i < 8).map fun i => (i, 0))).1
    let mh := (placeElems 8 ((lanes.filter fun i => 8 ≤ i).map fun i => (i - 8, 0))).1
    { res := if k + 1 = l.g || e.isSome then [mk (dV d) (ml, p.1), mk (dV (d + 1)) (mh, p.2)] else []
      trap := e, lo := p.1, hi := p.2 }
  else
    let out := fun (r : List Res) (e : Option Nat) => ({ res := r, trap := e, lo := l.lo, hi := l.hi } : PassOut)
    let n := t.size
    let per := t.per
    match o with
    | .vnarrow =>
      let (es, e) := runElems tr ((List.range 32).filter on) fun i =>
        bound 16 true (roundShift rd_ b (toSigned 32 (pairElem 4 (c.getV a) (c.getV (a + 1)) i)))
      out [mk (dV d) (placeElems 2 es)] e
    | .vcnarrow =>
      let (es, e) := runElems tr ((List.range 16).filter on) fun i =>
        let z := ci32Of (pairElem 8 (c.getV a) (c.getV (a + 1)) i)
        let (re, x) := bound 16 true (roundShift rd_ b z.1)
        let (im, y) := bound 16 true (roundShift rd_ b z.2)
        (pack2 16 re im, x || y)
      out [mk (dV d) (placeElems 4 es)] e
    | .vcwiden =>
      let es := ((List.range 16).filter on).map fun i =>
        let z := ci16Of (elemAt 4 (c.getV a) i)
        (i, pack2 32 (ofSigned 32 (z.1 * (2 ^ b : Nat))) (ofSigned 32 (z.2 * (2 ^ b : Nat))))
      out [mk (dV d) (placeElems 8 (es.filter fun x => x.1 < 8)),
           mk (dV (d + 1)) (placeElems 8 ((es.filter fun x => 8 ≤ x.1).map fun x => (x.1 - 8, x.2)))] none
    | .vcrsum =>
      let z := ((List.range 16).filter on).foldl (fun (s : Int × Int) i =>
        let e := ci32Of (pairElem 8 (c.getV a) (c.getV (a + 1)) i)
        (s.1 + e.1, s.2 + e.2)) (0, 0)
      let (re, x) := bound 32 true (roundShift rd_ b z.1)
      let (im, y) := bound 32 true (roundShift rd_ b z.2)
      if tr && (x || y) then out [] (some 0)
      else out [mk (dG d) (ones512, BitVec.ofNat 512 (pack2 32 re im))] none
    | .vsel =>
      let es := ((List.range per).filter fun i => on (per * k + i)).map fun i =>
        (i, if l.lo.getLsbD (per * k + i) then elemAt n va i else elemAt n vb i)
      out [mk (dV (d + k)) (placeElems n es)] none
    | .vsplat =>
      let es := ((List.range per).filter fun i => on (per * k + i)).map fun i => (i, l.scalar.toNat)
      out [mk (dV (d + k)) (placeElems n es)] none
    | .vslide q =>
      let es := ((List.range per).filter on).map fun i => (i, pairElem n va vb (i + q.val))
      out [mk (dV d) (placeElems n es)] none
    | .setvl =>
      let v := min l.scalar.toNat (per * l.g)
      out [mk (dG d) (ones512, BitVec.ofNat 512 v), mk dVL (ones512, BitVec.ofNat 512 v)] none
    | .mlen => out [mk (dM d) (ones512, BitVec.ofNat 512 (2 ^ min l.scalar.toNat 512 - 1))] none
    | .mand => out [mk (dM d) (ones512, c.getM a &&& c.getM b)] none
    | .mor => out [mk (dM d) (ones512, c.getM a ||| c.getM b)] none
    | .mxor => out [mk (dM d) (ones512, c.getM a ^^^ c.getM b)] none
    | .mandn => out [mk (dM d) (ones512, c.getM a &&& ~~~c.getM b)] none
    | .mnot => out [mk (dM d) (ones512, ~~~c.getM a)] none
    | .msel =>
      let s := c.getM (modSel m)
      out [mk (dM d) (ones512, (c.getM a &&& s) ||| (c.getM b &&& ~~~s))] none
    | .mpopc => out [mk (dG d) (ones512, BitVec.ofNat 512 (popcount 512 (c.getM a).toNat))] none
    | .vfcvt u =>
      let (es, e) := runElems tr ((List.range 16).filter on) fun i => convert t u rd_ (elemAt n (c.getV a) i)
      out [mk (dV d) (placeElems u.size es)] e
    | o =>
      let js := ((List.range per).filter fun i => on (per * k + i))
      if isCmp o then
        let v := js.foldl (fun acc i => if cmpElem o t (elemAt n va i) (elemAt n vb i) then acc + 2 ^ (per * k + i) else acc) 0
        let mask := if k = 0 then ones512 else BitVec.ofNat 512 ((2 ^ per - 1) * 2 ^ (per * k))
        -- a resumed compare leaves the bits below its first element (R236)
        out [mk (dM d) (mask &&& ~~~BitVec.ofNat 512 (2 ^ l.start - 1), BitVec.ofNat 512 v)] none
      else
        let vd := c.getV (d + k)
        let (es, e) := runElems (tr && !(o = .vmin || o = .vmax || o = .vshr || o = .vshru)) js fun i =>
          elemOp o t rd_ sat b (elemAt n va i) (if readsVb o then elemAt n vb i else 0) (elemAt n vd i)
        out [mk (dV (d + k)) (placeElems n es)] (e.map fun i => per * k + i)

/-! ## Scalar floating point (R227) -/

/-- Latency of a scalar floating-point operation. -/
def fscLatency (o : FscOp) : Nat :=
  match o with
  | .fcmplt => 2
  | .fcmple => 2
  | .fcmpeq => 2
  | .fmvgf => 1
  | .fmvfg => 1
  | _ => 4

/-- The result of a scalar floating-point operation, and whether R222 traps it. -/
def fscExec (c : CoreRegs) (o : FscOp) (d a b : Nat) : Res × Bool :=
  let fa := (c.getV a).toNat
  let x := decodeF fmt32 (fa % 2 ^ 32)
  let y := decodeF fmt32 ((c.getV b).toNat % 2 ^ 32)
  let z := decodeF fmt32 ((c.getV d).toNat % 2 ^ 32)
  let low64 := BitVec.ofNat 512 (2 ^ 64 - 1)
  let f := fun (r : Nat × Bool) => (({ due := 0, dest := dV d, mask := low64, val := BitVec.ofNat 512 r.1 } : Res), r.2)
  let g := fun (v : Nat) => (({ due := 0, dest := dG d, mask := ones512, val := BitVec.ofNat 512 v } : Res), false)
  match o with
  | .fadd => f (fResult fmt32 (fAdd x y))
  | .fsub => f (fResult fmt32 (fAdd x (fNeg y)))
  | .fmul => f (fResult fmt32 (fMul x y))
  | .fma => f (fResult fmt32 (fFma z x y))
  | .fcmplt => g (b2n ((fLt x y).getD false))
  | .fcmple => g (b2n ((fLt x y).getD false || (fEq x y).getD false))
  | .fcmpeq => g (b2n ((fEq x y).getD false))
  | .fmvgf => f ((c.getG a).toNat, false)
  | .fmvfg => g (fa % 2 ^ 64)

/-- A NaN operand of a scalar compare is an invalid operation (R226). -/
def fscCmpTrap (c : CoreRegs) (o : FscOp) (a b : Nat) : Bool :=
  (o = .fcmplt || o = .fcmple || o = .fcmpeq) &&
  (decodeF fmt32 ((c.getV a).toNat % 2 ^ 32) = .nan || decodeF fmt32 ((c.getV b).toNat % 2 ^ 32) = .nan)

end Sys2Proof.Machine
end

