-- ==== Sys2Proof/Machine/FacetOps.lean ====
section
/-! DEFINITION. The operations of a bundle: the registers they name (R171, R242), their slots and legality (R170, R185,
R211 to R216, R228 to R233, R240 to R249), their accesses to data memory (R177, R178, R229 to R232), and one pass of a
long operation (R217). -/

namespace Sys2Proof.Machine

/-! ## Fields -/

/-- The signed value of a 9-bit immediate. -/
def imm9 (v : BitVec 9) : Int := v.toInt

/-- Group size of an element access; watch bit, element size, post-increment and mask select (R228). -/
def accG (m : BitVec 9) : Nat := 2 ^ field m.toNat 8 7
def accWatch (m : BitVec 9) : Bool := bit m.toNat 6
def accSize (m : BitVec 9) : Nat := 2 ^ field m.toNat 5 4
def accPost (m : BitVec 9) : Bool := bit m.toNat 3
def accSel (m : BitVec 9) : Nat := m.toNat % 8

/-- DMAP modulation and P (R245); matrix order and output shift (R249). -/
def dmapMod (m : BitVec 9) : Nat := field m.toNat 8 6
def solveN (m : BitVec 9) : Nat := field m.toNat 8 5 + 1
def solveS (m : BitVec 9) : Nat := m.toNat % 32

/-- Consecutive vector registers, as far as they exist. -/
def vRegs (b g : Nat) : List Nat := ((List.range g).filter fun i => decide (b + i < 32)).map fun i => dV (b + i)

/-! ## Slots and kinds -/

/-- Slot of an operation: 0 scalar, 1 load/store, 2 vector A, 3 vector B. -/
def slotOf (o : FacetOp) : Nat :=
  match o with
  | .load _ _ _ _ _ => 1
  | .store _ _ _ _ => 1
  | .vld _ _ _ => 1
  | .vst _ _ _ => 1
  | .vld2 _ _ _ _ _ _ => 1
  | .vldst _ _ _ _ _ _ => 1
  | .atomic _ _ _ _ _ _ => 1
  | .vlde _ _ _ _ => 1
  | .vste _ _ _ _ => 1
  | .vlds _ _ _ _ _ => 1
  | .vsts _ _ _ _ _ => 1
  | .vgath _ _ _ _ => 1
  | .vscat _ _ _ _ => 1
  | .vec sl _ _ _ _ _ _ => if sl then 3 else 2
  | .fsc sl _ _ _ _ _ => if sl then 3 else 2
  | .unit sl _ _ _ _ _ => if sl then 3 else 2
  | _ => 0

/-- Element-indexed operations (R233). -/
def isElem (o : FacetOp) : Bool :=
  match o with
  | .vlde _ _ _ _ => true
  | .vste _ _ _ _ => true
  | .vlds _ _ _ _ _ => true
  | .vsts _ _ _ _ _ => true
  | .vgath _ _ _ _ => true
  | .vscat _ _ _ _ => true
  | .vec _ _ _ _ _ _ m => modG m ≠ 1 || modTrap m
  | _ => false

/-- Branches (R176). -/
def isBranch (o : FacetOp) : Bool :=
  match o with
  | .br _ => true
  | .brz _ _ => true
  | .brnz _ _ => true
  | .call _ => true
  | .jr _ => true
  | _ => false

/-- Repeat operations. -/
def isRep (o : FacetOp) : Bool :=
  match o with
  | .rep _ _ _ => true
  | .repi _ _ _ => true
  | _ => false

/-- Extended operations (R170). -/
def isExtended (o : FacetOp) : Bool :=
  match o with
  | .limm _ _ => true
  | .limmh _ _ => true
  | .br _ => true
  | .call _ => true
  | .repi _ _ _ => true
  | _ => false

/-- Operations that may not accompany an element-indexed one (R233). -/
def barsElem (o : FacetOp) : Bool :=
  isBranch o || isRep o ||
  match o with
  | .eret => true
  | .mtc _ _ => true
  | .sysc _ => true
  | .waitwork => true
  | .donework _ => true
  | _ => false

/-! ## Registers named (R171, R242) -/

def src2Names (x : Src2) : List Nat :=
  match x with
  | .reg b => [dG b]
  | .imm _ => []

/-- The base is written: its number, or none. -/
def formWrites (a : Nat) (f : AddrForm) : List Nat :=
  match f with
  | .off _ => []
  | _ => [dG a]

def formReads (a : Nat) (f : AddrForm) : List Nat :=
  match f with
  | .postReg b => [dG a, dG b]
  | _ => [dG a]

/-- Base and amount of an element access. -/
def accReads (a b : Nat) (m : BitVec 9) : List Nat := dG a :: (if accPost m then [dG b] else [])
def accWrites (a : Nat) (m : BitVec 9) : List Nat := if accPost m then [dG a] else []

/-- Result registers of a vector operation. -/
def vecDests (o : VecOp) (d g : Nat) : List Nat :=
  if isMac o then vRegs d 2
  else if isCmp o then [dM d]
  else if isMaskOp o then (if o = .mpopc then [dG d] else [dM d])
  else if o = .setvl then [dG d, dVL]
  else if o = .vcrsum then [dG d]
  else if o = .vcwiden then vRegs d 2
  else vRegs d g

/-- Source registers of a vector operation that a scoreboard bit can mark. -/
def vecSrcs (o : VecOp) (d a b g : Nat) : List Nat :=
  (if readsVa o then
    (if o = .vnarrow || o = .vcnarrow || o = .vcrsum then vRegs a 2 else vRegs a g) else []) ++
  (if readsVb o then vRegs b g else []) ++
  (if macScalar o then [dG b] else []) ++
  (if o = .vsplat || o = .setvl || o = .mlen then [dG a] else []) ++
  (if isMac o then vRegs d 2 else []) ++ (if o = .vfma then vRegs d g else [])

/-- Number of result registers of a unit command that writes vector registers (R245, R250). -/
def unitRegs (o : UnitOp) (m : BitVec 9) : Nat :=
  match o with
  | .dmap => ((modulation (dmapMod m)).map fun x => x.regs).getD 1
  | .strsl => vecRegs (solveN m)
  | .strsu => vecRegs (solveN m)
  | _ => triRegs (solveN m)

/-- Result registers of a unit command (R242, R245, R250). -/
def unitDests (o : UnitOp) (d : Nat) (m : BitVec 9) : List Nat :=
  match o with
  | .uerrd => [dG d]
  | .uerrs => [dG d]
  | o => vRegs d (unitRegs o m)

/-- Source ranges of a unit command (R241): first register and number. -/
def unitSrcs (o : UnitOp) (a b : Nat) (m : BitVec 9) : List (Nat × Nat) :=
  match o with
  | .dmap => [(a, 1), (b, 1)]
  | .uerrd => []
  | .uerrs => []
  | .strsl => [(a, triRegs (solveN m)), (b, vecRegs (solveN m))]
  | .strsu => [(a, triRegs (solveN m)), (b, vecRegs (solveN m))]
  | _ => [(a, triRegs (solveN m))]

/-- Destination registers that an operation names, post-incremented bases among them. -/
def opDests (o : FacetOp) : List Nat :=
  match o with
  | .alu _ d _ _ => [dG d]
  | .limm d _ => [dG d]
  | .limmh d _ => [dG d]
  | .mul _ d _ _ => [dG d]
  | .scmul _ d _ _ _ => [dG d]
  | .mfc d _ => [dG d]
  | .load _ _ d a f => dG d :: formWrites a f
  | .store _ _ a f => formWrites a f
  | .vld d a f => dV d :: formWrites a f
  | .vst _ a f => formWrites a f
  | .vld2 d a f e b h => dV d :: formWrites a f ++ dV e :: formWrites b h
  | .vldst d a f _ b h => dV d :: formWrites a f ++ formWrites b h
  | .atomic _ _ d a f _ => dG d :: formWrites a f
  | .vlde v a _ m => vRegs v (accG m) ++ accWrites a m
  | .vste _ a _ m => accWrites a m
  | .vlds n v a _ m => vRegs v n ++ accWrites a m
  | .vsts _ _ a _ m => accWrites a m
  | .vgath v _ _ _ => [dV v]
  | .vec _ o _ d _ _ m => vecDests o d (modG m)
  | .fsc _ o d _ _ _ => if o = .fcmplt || o = .fcmple || o = .fcmpeq || o = .fmvfg then [dG d] else [dV d]
  | .unit _ o d _ _ m => unitDests o d m
  | _ => []

/-- Source registers that an operation names. -/
def opSrcs (o : FacetOp) : List Nat :=
  match o with
  | .alu _ _ a b => dG a :: src2Names b
  | .limmh d _ => [dG d]
  | .mul _ _ a b => [dG a, dG b]
  | .scmul _ _ a b _ => [dG a, dG b]
  | .brz a _ => [dG a]
  | .brnz a _ => [dG a]
  | .jr a => [dG a]
  | .rep a _ _ => [dG a]
  | .mtc _ a => [dG a]
  | .donework a => [dG a]
  | .load _ _ _ a f => formReads a f
  | .store _ v a f => dG v :: formReads a f
  | .vld _ a f => formReads a f
  | .vst v a f => dV v :: formReads a f
  | .vld2 _ a f _ b h => formReads a f ++ formReads b h
  | .vldst _ a f v b h => formReads a f ++ dV v :: formReads b h
  | .atomic _ _ _ a f v => dG v :: formReads a f
  | .vlde _ a b m => accReads a b m
  | .vste v a b m => vRegs v (accG m) ++ accReads a b m
  | .vlds _ _ a b m => accReads a b m
  | .vsts n v a b m => vRegs v n ++ accReads a b m
  | .vgath _ a b _ => [dG a, dV b]
  | .vscat v a b _ => [dV v, dG a, dV b]
  | .vec _ o _ d a b m => vecSrcs o d a b (modG m)
  | .fsc _ o d a b _ =>
    if o = .fmvgf then [dG a]
    else [dV a] ++ (if o = .fmvfg then [] else [dV b]) ++ (if o = .fma then [dV d] else [])
  | .unit _ o _ a b m => (unitSrcs o a b m).flatMap fun e => vRegs e.1 e.2
  | _ => []

/-! ## Legality -/

/-- ILLEGAL_OP of an element, structure, gather or scatter access (R214, R216, R228 to R231). -/
def accIllegal (tail : Nat) (o : FacetOp) : Bool :=
  let sel := fun (m : BitVec 9) => tail = 0 && accSel m ≠ 0
  match o with
  | .vlde v _ _ m => sel m || accWatch m || v.val % accG m ≠ 0
  | .vste v _ _ m => sel m || accWatch m || v.val % accG m ≠ 0
  | .vlds n v _ _ m => sel m || accWatch m || accG m ≠ 1 || decide (31 < v.val + n - 1)
  | .vsts n v _ _ m => sel m || accWatch m || accG m ≠ 1 || decide (31 < v.val + n - 1)
  | .vgath _ _ _ m => sel m || accWatch m || accG m ≠ 1 || accPost m || accSize m = 1
  | .vscat _ _ _ m => sel m || accG m ≠ 1 || accPost m || accSize m = 1
  | _ => false

/-- A destination range that partly overlaps a source range, or a range past V31 (R241). -/
def rangeBad (d n : Nat) (srcs : List (Nat × Nat)) : Bool :=
  decide (32 < d + n) ||
  srcs.any fun e => decide (32 < e.1 + e.2) || (e ≠ (d, n) && decide (e.1 < d + n) && decide (d < e.1 + e.2))

/-- ILLEGAL_OP of a unit command (R214, R241, R245). -/
def unitIllegal (tail : Nat) (o : UnitOp) (d a b : Nat) (m : BitVec 9) : Bool :=
  match o with
  | .uerrd => false
  | .uerrs => false
  | .dmap =>
    match modulation (dmapMod m) with
    | none => true
    | some mo =>
      (bit m.toNat 5 && dmapMod m ≠ 0) || field m.toNat 4 3 ≠ 0 || d % mo.align ≠ 0 ||
      (tail = 0 && modSel m ≠ 0) || rangeBad d (unitRegs .dmap m) (unitSrcs .dmap a b m)
  | o => rangeBad d (unitRegs o m) (unitSrcs o a b m)

/-- An operation raises ILLEGAL_OP at issue (R174, R184, R192, R211 to R231, R240 to R249). -/
def opIllegal (r : CoreRegs) (tail : Nat) (o : FacetOp) : Bool :=
  match o with
  | .scmul _ _ _ _ m => modRound m = 3
  | .rep _ _ len => len = 0
  | .repi _ _ len => len = 0
  | .mfc _ c => decide (0x18 ≤ c.toNat)
  | .mtc c _ => decide (0x18 ≤ c.toNat)
  | .eret => !bit (r.getC 1) 7
  | .vec _ o t d a b m => vecIllegal tail o t d a b m
  | .fsc _ _ _ _ _ m => modRound m ≠ 0 || modG m ≠ 1 || (tail = 0 && modSel m ≠ 0)
  | .unit _ o d a b m => unitIllegal tail o d a b m
  | o => accIllegal tail o

/-! ## Repeat levels (R184, R185) -/

def CoreRegs.depth (r : CoreRegs) : Nat := r.getC 0x15 % 4
def CoreRegs.rcnt (r : CoreRegs) (l : Nat) : Nat := r.getC (0x0C + l)
def CoreRegs.rsta (r : CoreRegs) (l : Nat) : Nat := r.getC (0x0F + l)
def CoreRegs.rend (r : CoreRegs) (l : Nat) : Nat := r.getC (0x12 + l)
/-- A level's block is uninterruptible. -/
def CoreRegs.closed (r : CoreRegs) (l : Nat) : Bool := !bit (r.getC 0x15) (2 + l)
/-- Some active block is uninterruptible. -/
def CoreRegs.anyClosed (r : CoreRegs) : Bool := (List.range r.depth).any fun l => r.closed l
def CoreRegs.setDepth (r : CoreRegs) (d : Nat) : CoreRegs := r.setC 0x15 (r.getC 0x15 / 4 * 4 + d)
/-- The hold count runs, and its value (R195). -/
def CoreRegs.holdOn (r : CoreRegs) : Bool := bit (r.getC 0x15) 7
def CoreRegs.hold (r : CoreRegs) : Nat := field (r.getC 0x15) 19 8
def CoreRegs.setHold (r : CoreRegs) (on : Bool) (n : Nat) : CoreRegs :=
  r.setC 0x15 (r.getC 0x15 % 128 + b2n on * 128 + min n 4095 * 256)
/-- After a block has ended: the count stops when no uninterruptible block is active. -/
def CoreRegs.holdEnd (r : CoreRegs) : CoreRegs := if r.holdOn && !r.anyClosed then r.setHold false r.hold else r

/-- Count and length of a repeat, read at issue. -/
def repOf (r : CoreRegs) (o : FacetOp) : Option (Nat × Bool × Nat) :=
  match o with
  | .rep a f len => some ((r.getG a).toNat % 2 ^ 32, f, len.toNat)
  | .repi cnt f len => some (cnt.toNat, f, len.toNat)
  | _ => none

/-- ILLEGAL_BUNDLE of one scalar operation by its place (R176, R185, R192); a repeat of count 0 opens no level. -/
def placeIllegal (r : CoreRegs) (o : FacetOp) : Bool :=
  let slot := r.delay.isSome
  let len := match o with
    | .rep _ _ n => n.toNat
    | .repi _ _ n => n.toNat
    | _ => 0
  let lastBody := fun a => (List.range r.depth).any fun l => r.rend l = a
  (isRep o && (slot || (r.depth = 3 && ((repOf r o).map fun e => e.1) ≠ some 0) || decide (0x8000 ≤ r.pc + 16 * len) ||
    (decide (0 < r.depth) && decide (r.rend (r.depth - 1) < r.pc + 16 * len)))) ||
  (isBranch o && (slot || lastBody r.pc || lastBody (r.pc + 16) || lastBody (r.pc + 32))) ||
  (o = .eret && slot) ||
  ((match o with | .waitwork => true | .donework _ => true | _ => false) && (slot || r.depth ≠ 0))

/-- Two operations name one destination (R171). -/
def destClash (ops : List FacetOp) : Bool :=
  match ops with
  | [] => false
  | o :: t => (t.any fun p => (opDests p).any fun x => (opDests o).contains x) || destClash t

/-- ILLEGAL_BUNDLE conditions of a bundle (R170, R171, R185, R217, R233); `und` are the slots that hold an opcode they
do not define. -/
def bundleIllegal (r : CoreRegs) (und : List (Fin 4)) (ops : List FacetOp) : Bool :=
  let slots := ops.map slotOf ++ und.map Fin.val
  (ops.any isExtended && slots.contains 3) || destClash ops ||
  (slots.any fun q => q ≠ 0 && decide (r.bseq < r.busy.getD (q - 1) 0)) ||
  decide (1 < (ops.filter isElem).length) || (ops.any isElem && ops.any barsElem) || ops.any (placeIllegal r)

/-! ## Accesses to data memory (R177, R178, R228 to R232) -/

/-- One access: element, store, address and length; the alignment it must have and the address that is checked. -/
structure Access where
  elem : Nat
  store : Bool
  addr : Nat
  len : Nat
  align : Nat := 1
  base : Nat := 0
  deriving DecidableEq, Repr

/-- The address of a form, for accesses of `size` bytes. -/
def formAddr (r : CoreRegs) (a : Nat) (f : AddrForm) (size : Nat) : Nat :=
  match f with
  | .off v => ofSigned 64 ((r.getG a).toNat + imm9 v * (size : Int))
  | _ => (r.getG a).toNat

/-- The post-increment of a form (R177). -/
def formPost (r : CoreRegs) (n a : Nat) (f : AddrForm) : List Res :=
  match f with
  | .off _ => []
  | .postImm v => [resG (n + 1) a (r.getG a + BitVec.ofInt 64 (imm9 v))]
  | .postReg b => [resG (n + 1) a (r.getG a + r.getG b)]

/-- The post-increment of an element access (R228). -/
def accPostRes (r : CoreRegs) (n a b : Nat) (m : BitVec 9) : List Res :=
  if accPost m then [resG (n + 1) a (r.getG a + r.getG b)] else []

/-- Elements of an element-indexed operation (R209, R229 to R231). -/
def elemCount (o : FacetOp) : Nat :=
  match o with
  | .vlde _ _ _ m => 64 / accSize m * accG m
  | .vste _ _ _ m => 64 / accSize m * accG m
  | .vlds _ _ _ _ m => 64 / accSize m
  | .vsts _ _ _ _ m => 64 / accSize m
  | .vgath _ _ _ m => if accSize m = 8 then 8 else 16
  | .vscat _ _ _ m => if accSize m = 8 then 8 else 16
  | .vec _ o t _ _ _ m => vecCount o t (modG m)
  | _ => 1

/-- The accesses of an operation in element order, for its active elements. -/
def accesses (r : CoreRegs) (act : W512) (o : FacetOp) : List Access :=
  let js := (List.range (elemCount o)).filter fun j => act.getLsbD j
  let g := fun a => (r.getG a).toNat
  match o with
  | .load sz _ _ a f =>
    let e := formAddr r a f sz
    [{ elem := 0, store := false, addr := e, len := sz, align := sz, base := e }]
  | .store sz _ a f =>
    let e := formAddr r a f sz
    [{ elem := 0, store := true, addr := e, len := sz, align := sz, base := e }]
  | .vld _ a f => [{ elem := 0, store := false, addr := formAddr r a f 64, len := 64 }]
  | .vst _ a f => [{ elem := 0, store := true, addr := formAddr r a f 64, len := 64 }]
  | .vld2 _ a f _ b h => [{ elem := 0, store := false, addr := formAddr r a f 64, len := 64 },
                          { elem := 0, store := false, addr := formAddr r b h 64, len := 64 }]
  | .vldst _ a f _ b h => [{ elem := 0, store := false, addr := formAddr r a f 64, len := 64 },
                           { elem := 0, store := true, addr := formAddr r b h 64, len := 64 }]
  | .atomic sz _ _ a f _ =>
    let e := formAddr r a f sz
    [{ elem := 0, store := false, addr := e, len := sz, align := sz, base := e },
     { elem := 0, store := true, addr := e, len := sz, align := sz, base := e }]
  | .vlde _ a _ m => js.map fun j =>
      { elem := j, store := false, addr := (g a + j * accSize m) % 2 ^ 64, len := accSize m, align := 64, base := g a }
  | .vste _ a _ m => js.map fun j =>
      { elem := j, store := true, addr := (g a + j * accSize m) % 2 ^ 64, len := accSize m, align := 64, base := g a }
  | .vlds n _ a _ m => js.map fun j =>
      { elem := j, store := false, addr := (g a + j * n * accSize m) % 2 ^ 64, len := n * accSize m, align := 64, base := g a }
  | .vsts n _ a _ m => js.map fun j =>
      { elem := j, store := true, addr := (g a + j * n * accSize m) % 2 ^ 64, len := n * accSize m, align := 64, base := g a }
  | .vgath _ a b m => js.map fun j =>
      let e := (g a + elemAt 4 (r.getV b) j) % 2 ^ 64
      { elem := j, store := false, addr := e, len := accSize m, align := accSize m, base := e }
  | .vscat _ a b m => js.map fun j =>
      let e := (g a + elemAt 4 (r.getV b) j) % 2 ^ 64
      { elem := j, store := true, addr := e, len := accSize m, align := accSize m, base := e }
  | _ => []

/-- Double words of an access. -/
def Access.words (x : Access) : List Nat := (List.range (((x.addr + x.len - 1) / 8) + 1 - x.addr / 8)).map fun i => x.addr / 8 + i

/-- Blocks of 64 bytes that the plain accesses touch (R178); other forms make one access a pass. -/
def blockCount (o : FacetOp) (as : List Access) : Nat :=
  match o with
  | .vld _ _ _ => (as.map fun x => (x.addr + 63) / 64 - x.addr / 64 + 1).foldl (fun a b => a + b) 0
  | .vst _ _ _ => (as.map fun x => (x.addr + 63) / 64 - x.addr / 64 + 1).foldl (fun a b => a + b) 0
  | .vld2 _ _ _ _ _ _ => (as.map fun x => (x.addr + 63) / 64 - x.addr / 64 + 1).foldl (fun a b => a + b) 0
  | .vldst _ _ _ _ _ _ => (as.map fun x => (x.addr + 63) / 64 - x.addr / 64 + 1).foldl (fun a b => a + b) 0
  | _ => if as.isEmpty then 0 else 1

/-- A synchronous exception: cause, EADDR, the operation's slot and destination, and its element. -/
structure Exc where
  cause : Nat
  eaddr : Nat
  slot : Nat
  dest : Nat
  elem : Nat := 0
  info : Nat := 0
  deriving DecidableEq, Repr

/-- The destination register that EINFO names. -/
def einfoDest (o : FacetOp) : Nat :=
  match o with
  | .vste v _ _ _ => v.val
  | .vsts _ v _ _ _ => v.val
  | .vscat v _ _ _ => v.val
  | .store _ v _ _ => v.val
  | .vst v _ _ => v.val
  | o => (opDests o).headD 0 % 32

/-- The first exception among accesses in element order: DMEM_ADDR, MISALIGNED, DMEM_ECC, WATCH_COLLISION (R177, R188,
R232, R235). -/
def accessExc (bad : List Nat) (watch : Bool) (as : List Access) : Option (Nat × Nat × Nat) :=
  (as.foldl (fun (st : Option (Nat × Nat × Nat) × List Nat) x =>
    match st.1 with
    | some _ => st
    | none =>
      let ws := x.words
      if 0x40000 < x.addr + x.len then (some (0x10, x.addr, x.elem), st.2)
      else if x.base % x.align ≠ 0 then (some (0x11, x.addr, x.elem), st.2)
      else
        match (if x.store then none else ws.find? fun w => bad.contains w) with
        | some w => (some (0x12, 8 * w, x.elem), st.2)
        | none =>
          match (if watch then ws.find? fun w => st.2.contains w else none) with
          | some w => (some (0x13, 8 * w, x.elem), st.2)
          | none => (none, if watch then st.2 ++ ws else st.2)) (none, [])).1

/-! ## One pass of a long operation (R217, R218) -/

/-- What a pass does: results, stores, and the element that traps. -/
structure PassEff where
  op : LongOp
  res : List Res := []
  mem : List (Nat × List Byte) := []
  trap : Option Nat := none

/-- The register bits and value of elements of n bytes read from memory. -/
def loadElems (mem : Bytes) (n : Nat) (es : List (Nat × Nat)) : W512 × W512 :=
  placeElems n (es.map fun e => (e.1, leNat (bytesRead 0 mem e.2 n)))

/-- Number of passes of an operation; SETVL has one. -/
def passCount (o : FacetOp) : Nat :=
  match o with
  | .vlde _ _ _ m => accG m
  | .vste _ _ _ m => accG m
  | .vec _ o _ _ _ _ m => if o = .setvl then 1 else modG m
  | .vgath _ _ _ _ => elemCount o
  | .vscat _ _ _ _ => elemCount o
  | _ => 1

/-- The accumulator a MAC starts from: the pipe's own, or the register pair (R206). -/
def macStart (r : CoreRegs) (sl : Bool) (d : Nat) : W512 × W512 :=
  match (if sl then r.macB else r.macA) with
  | some f => if f.next = r.bseq && f.d = d then (f.lo, f.hi) else (r.getV d, r.getV (d + 1))
  | none => (r.getV d, r.getV (d + 1))

/-- The address of element j of a gather or scatter, whose offsets were read at issue (R231). -/
def offsetAddr (l : LongOp) (j : Nat) : Nat := (l.scalar.toNat + elemAt 4 l.lo j) % 2 ^ 64

/-- The next pass of a long operation, reading registers and memory as they stand. -/
def longPass (r : CoreRegs) (mem : Bytes) (l : LongOp) : PassEff :=
  let n := r.bseq
  let k := l.pass
  let next := { l with pass := k + 1 }
  match l.op with
  | .vlde v _ _ m =>
    let sz := accSize m
    let per := 64 / sz
    let js := (List.range per).filter fun i => l.act.getLsbD (per * k + i)
    let p := loadElems mem sz (js.map fun i => (i, l.scalar.toNat + (per * k + i) * sz))
    { op := next, res := [{ due := n + 3, dest := dV (v + k), mask := p.1, val := p.2, from_ := l.id }] }
  | .vste v _ _ m =>
    let sz := accSize m
    let per := 64 / sz
    let js := (List.range per).filter fun i => l.act.getLsbD (per * k + i)
    { op := next
      mem := js.map fun i => (l.scalar.toNat + (per * k + i) * sz, leBytes sz (elemAt sz (r.getV (v + k)) i)) }
  | .vgath v _ _ m =>
    let p := loadElems mem (accSize m) (if l.act.getLsbD k then [(k, offsetAddr l k)] else [])
    { op := next, res := [{ due := n + 3, dest := dV v, mask := p.1, val := p.2, from_ := l.id }] }
  | .vscat _ _ _ m =>
    { op := next
      mem := if l.act.getLsbD k then [(offsetAddr l k, leBytes (accSize m) (elemAt (accSize m) l.hi k))] else [] }
  | .vec sl o t d a b m =>
    let acc := if isMac o && k = 0 then macStart r sl d else (l.lo, l.hi)
    let p := vecPass r o t d a b m { l with lo := acc.1, hi := acc.2 }
    let rs := p.res.map fun x => { x with due := n + vecLatency o, from_ := l.id }
    { op := { next with lo := p.lo, hi := p.hi, done := l.done ++ rs }, res := rs, trap := p.trap }
  | _ => { op := next }

end Sys2Proof.Machine
end

