-- ==== Sys2Proof/Machine/FacetCore.lean ====
section
/-! DEFINITION. The Facet core (R168 to R262, R583 to R589): issue of bundles, long operations and their precise
exceptions, interrupts, the attached units, work, fatal faults and restoration, halts. -/

namespace Sys2Proof.Machine

/-! ## Views -/

/-- CORECFG (R174). -/
def coreCfg (s : State) (k : Nat) : Nat := k * 2 ^ 12 + (s.core k).tail * 2 + b2n (s.cluster (k / 16)).split

/-- IPEND (R174, R188, R257). -/
def ipend (c : Core) : Nat :=
  let t := c.regs.getC 0x0B
  b2n (t ≠ 0 && decide (t ≤ c.cycle)) * 2 + b2n c.regs.demapRec.msb * 4 + b2n c.regs.solveRec.msb * 8 +
    b2n c.supervisor * 16

/-- Control register as MFC reads it. -/
def readCtl (s : State) (k c : Nat) : Nat :=
  match c with
  | 0 => coreCfg s k
  | 9 => ipend (s.core k)
  | 10 => (s.core k).cycle % 2 ^ 64
  | c => (s.core k).regs.getC c

/-- Writable bits of a control register, none where it is read-only (R174, R175). -/
def ctlMask (c : Nat) : Option Nat :=
  match c with
  | 0x01 => some 0xFFFC
  | 0x07 => some (2 ^ 64 - 4096)
  | 0x08 => some 0x1F
  | 0x15 => some 0xFFF9F
  | 0x00 => none
  | 0x02 => none
  | 0x05 => none
  | 0x06 => none
  | 0x09 => none
  | 0x0A => none
  | 0x17 => none
  | _ => some (2 ^ 64 - 1)

/-- The boundary is one at which R186 would take an interrupt if GIE and IEN allowed it. -/
def boundaryOpen (r : CoreRegs) : Bool :=
  r.delay.isNone && !r.anyClosed && (r.depth = 0 || r.iterEnd)

/-- The interrupt that is taken at this boundary: its bit in IPEND (R186, R189). -/
def takeable (c : Core) : Option Nat :=
  let ien := c.regs.getC 8
  if !bit ien 0 || !boundaryOpen c.regs then none
  else [1, 2, 3, 4].find? fun b => bit ien b && bit (ipend c) b

/-! ## Results, stores and passes -/

/-- Insert results in the order of their bundles (R183). -/
def insertRes (l : List Res) (x : Res) : List Res :=
  match l with
  | [] => [x]
  | y :: t => if x.from_ < y.from_ then x :: y :: t else y :: insertRes t x

def CoreRegs.addRes (r : CoreRegs) (rs : List Res) : CoreRegs := { r with inflight := rs.foldl insertRes r.inflight }

/-- Write stores to a memory in order. -/
def writeKept (mem : Bytes) (ws : List (Nat × Nat × List Byte)) : Bytes := ws.foldl (fun m w => bytesWrite 0 m w.2.1 w.2.2) mem

/-- Data memory as the core sees it: its stores that are kept back are in it (R234). -/
def Core.view (c : Core) : Bytes := writeKept c.dmem c.kept

/-- Stores of a bundle: kept back while a long operation can still be stopped (R234). -/
def coreStore (c : Core) (n : Nat) (mem : List (Nat × List Byte)) : Core :=
  if c.snaps.isEmpty then { c with dmem := writeKept c.dmem (mem.map fun w => (n, w.1, w.2)) }
  else { c with kept := c.kept ++ mem.map fun w => (n, w.1, w.2) }

/-- Stores of bundles before every operation that can still be stopped go to memory. -/
def releaseKept (c : Core) : Core :=
  let held := fun (n : Nat) => c.snaps.any fun q => decide (q.1 ≤ n)
  { c with dmem := writeKept c.dmem (c.kept.filter fun w => !held w.1), kept := c.kept.filter fun w => held w.1 }

/-- The MAC pipe of a slot can forward (R206). -/
def setForward (r : CoreRegs) (l : LongOp) : CoreRegs :=
  match l.op with
  | .vec sl o _ d _ _ _ =>
    if isMac o then
      let f : MacFwd := { next := r.bseq + 1, d := d, lo := l.lo, hi := l.hi }
      if sl then { r with macB := some f } else { r with macA := some f }
    else r
  | _ => r

/-- A long operation has passed its checks. -/
def dropSnap (c : Core) (id : Nat) : Core :=
  releaseKept { c with snaps := mapDel c.snaps id }

/-- Passes of the operations in progress that fall in this bundle; answers the operation and element that trap. -/
def runPasses (c : Core) : Core × Option (LongOp × Nat × List Res) :=
  let r := c.regs
  c.longs.foldl (fun (st : Core × Option (LongOp × Nat × List Res)) l =>
    match st.2 with
    | some _ => st
    | none =>
      let d := st.1
      if l.first + l.pass ≠ r.bseq then ({ d with longs := d.longs ++ [l] }, none)
      else
        let e := longPass r d.view l
        match e.trap with
        | some i => (d, some (e.op, i, e.res))
        | none =>
          let d1 := coreStore { d with regs := d.regs.addRes e.res } r.bseq e.mem
          if e.op.pass = passCount l.op then (dropSnap { d1 with regs := setForward d1.regs e.op } l.id, none)
          else ({ d1 with longs := d1.longs ++ [e.op] }, none)) ({ c with longs := [] }, none)

/-- A trap in a later pass: every bundle issued after the operation's own is discarded (R234, R235). -/
def rollback (c : Core) (l : LongOp) (i : Nat) (rs : List Res) : Core :=
  match mapGet? c.snaps l.id with
  | none => c
  | some q =>
    let whole := decide (i = 0)
    let rest := if whole then [] else l.done ++ rs.filter fun x => !l.done.contains x
    let regs := if whole then q.pre else { (q.regs.addRes rest).setC 0x16 i with busy := q.pre.busy }
    let longs := if whole then q.preLongs else q.longs.filter fun x => x.id ≠ l.id
    releaseKept { c with
      regs := regs, longs := longs, waiting := false, open_ := []
      snaps := c.snaps.filter fun x => decide (x.1 < l.id)
      kept := c.kept.filter fun u => decide (u.1 < l.id) || (!whole && u.1 = l.id) }

/-- Nothing of an earlier bundle is left in the pipeline: no pass, no result, no occupied slot. -/
def Core.quiet (c : Core) : Bool :=
  c.longs.isEmpty && c.regs.inflight.isEmpty && c.regs.busy.all fun b => decide (b ≤ c.regs.bseq)

/-- Let every result and pass of earlier bundles retire, one bundle distance after another: steps taken, and the trap
found (R190, R217). -/
def drainCore (fuel : Nat) (c : Core) (steps : Nat) : Core × Nat × Option (LongOp × Nat × List Res) :=
  match fuel with
  | 0 => (c, steps, none)
  | f + 1 =>
    if c.quiet then (c, steps, none)
    else
      let (d, t) := runPasses c
      match t with
      | some x => (d, steps, some x)
      | none => drainCore f { d with regs := retireDue { d.regs with bseq := d.regs.bseq + 1 } } (steps + 1)

/-- The exception of a trapping pass. -/
def trapExc (l : LongOp) (i : Nat) : Exc :=
  { cause := 0x14, eaddr := 0, slot := slotOf l.op, dest := einfoDest l.op, elem := i }

/-- Drain; a trap found on the way goes back to its own bundle and is taken there instead (R234). -/
def settle (fuel : Nat) (c : Core) (e : Option Exc) (steps : Nat) : Core × Option Exc × Nat :=
  match fuel with
  | 0 => (c, e, steps)
  | f + 1 =>
    let (d, n, t) := drainCore 64 c steps
    match t with
    | none => (d, e, n)
    | some (l, i, rs) => settle f (rollback d l i rs) (some (trapExc l i)) n

/-- The operations of a bundle in slot order. -/
def inOrder (ops : List FacetOp) : List FacetOp := (List.range 4).filterMap fun q => ops.find? fun o => slotOf o = q

/-! ## Fatal causes (R194) and entry (R190, R191) -/

/-- The flow of the item that runs on a core, or all ones. -/
def runningFlow (s : State) (k : Nat) : Nat :=
  match runningOn s k with
  | some q => ((mapGet? (s.slc (unitSlice k)).items q).map fun it => dFlow it.desc).getD 0xFFFFFFFF
  | none => 0xFFFFFFFF

/-- Steps 1 to 4 of R194, for a cause and the trace status of the item's completion. -/
def coreFault (s : State) (k cause tr : Nat) : State :=
  let c := s.core k
  let (d, _, _) := drainCore 64 c 0
  let flow := runningFlow s k
  let r := { d.regs with cmds := [], demapRec := 0, solveRec := 0 }
  let s1 := s.setCore k { d with regs := r, restoring := true, waiting := false, open_ := [], longs := [], snaps := [],
                                 dmem := d.view, kept := [], waitIn := none, faultCause := cause, dbg := { d.dbg with halted := false, requested := false, stepping := false } }
  let s2 := completeUnit s1 k tr
  raise s2 7 k 0x0701 (leBytes 2 k ++ leBytes 1 cause ++ [0] ++ leBytes 2 c.regs.pc ++ leBytes 4 flow)

/-- A fatal cause. -/
def fatal (s : State) (k cause : Nat) : State := coreFault s k cause 0x80

/-- INH is set (R193). -/
def CoreRegs.inh (r : CoreRegs) : Bool := bit (r.getC 1) 7

/-- A fatal synchronous cause of the bundle at hand, DOUBLE_FAULT in a handler (R193). -/
def syncFatal (s : State) (k cause : Nat) : State := fatal s k (if (s.core k).regs.inh then 0x06 else cause)

/-- The hold count has passed its limit at this boundary (R195). -/
def CoreRegs.holdOver (r : CoreRegs) : Bool := r.holdOn && decide (2048 < r.hold)

/-- Write the entry registers and go to the handler: cause, ESTAT slot, EADDR, EINFO; `steps` bundles were drained. -/
def enterHandler (s : State) (k cause slot eaddr einfo steps : Nat) : State :=
  let (n, s1) := s.fresh
  let c := s1.core k
  let r := c.regs
  let dpos := match r.delay with
    | some (2, _) => 1
    | some _ => 2
    | none => 0
  let estat := slot * 256 + 128 + dpos * 32 + r.depth * 8 + b2n (bit (r.getC 8) 0) * 4
  let r1 := (((((r.setC 1 estat).setC 2 cause).setC 3 r.pc).setC 5 eaddr).setC 6 einfo).setC 8 (r.getC 8 / 2 * 2)
  let r2 := match r.delay with
    | some (_, t) => r1.setC 4 t
    | none => r1
  let r3 := { (r2.setDepth 0) with delay := none, iterEnd := false, pc := (r.getC 7 + 64 * cause) % 2 ^ 64 }
  -- the entry takes at most 14 cycles (R190); how many beyond the drained bundles is left open
  let cyc := steps + Config.freeNat n % (15 - min steps 14)
  let r4 := if r3.holdOn then r3.setHold true (r3.hold + cyc) else r3
  s1.setCore k { c with regs := r4, waiting := false, waitIn := none, open_ := [], cycle := c.cycle + cyc, starve := 0 }

/-- A synchronous vectored exception at the core's present bundle (R187, R193). -/
def takeExc (s : State) (k : Nat) (e : Exc) : State :=
  let (c, e', n) := settle 8 (s.core k) (some e) 0
  let x := e'.getD e
  let s1 := s.setCore k c
  if c.regs.inh then fatal s1 k 0x06
  else enterHandler s1 k x.cause x.slot x.eaddr (x.info * 2 ^ 16 + x.dest % 32) n

/-- An interrupt at a boundary, unless the drain finds an exception of an earlier bundle (R190, R234, R257). -/
def takeInterrupt (s : State) (k b : Nat) : State :=
  let (c, e, n) := settle 8 (s.core k) none 0
  let s1 := s.setCore k c
  match e with
  | some x => if c.regs.inh then fatal s1 k 0x06 else enterHandler s1 k x.cause x.slot x.eaddr (x.dest % 32) n
  | none =>
    let rec_ := if b = 2 then c.regs.demapRec.toNat else if b = 3 then c.regs.solveRec.toNat else 0
    let s2 := if b = 4 then s1.setCore k { c with supervisor := false } else s1
    enterHandler s2 k (0x1F + b) 255 (rec_ % 2 ^ 16) (field rec_ 20 16) n

/-! ## Attached units (R240 to R260) -/

/-- A late error (R256, R257). -/
def lateError (rec_ : W64) (cmd : UnitCmd) : W64 :=
  if cmd.cause = 0 then rec_
  else if rec_.msb then rec_ ||| BitVec.ofNat 64 (2 ^ 62)
  else BitVec.ofNat 64 (2 ^ 63 + b2n cmd.more * 2 ^ 62 + cmd.cause * 2 ^ 40 + cmd.index % 256 * 2 ^ 32 + cmd.dest % 32 * 2 ^ 16 + cmd.addr % 65536)

/-- One command writes its result. -/
def unitWrite (r : CoreRegs) (cmd : UnitCmd) : CoreRegs :=
  let r1 := { r with cmds := r.cmds.erase cmd }
  if cmd.readErr then
    if cmd.solve then { (r1.setG cmd.dest r1.solveRec) with solveRec := 0 }
    else { (r1.setG cmd.dest r1.demapRec) with demapRec := 0 }
  else
    let r2 := cmd.writes.foldl applyRes r1
    if cmd.solve then { r2 with solveRec := lateError r2.solveRec cmd } else { r2 with demapRec := lateError r2.demapRec cmd }

/-- Every command whose write cycle lies before a cycle writes its result (R242). -/
def unitsBefore (c : Core) (cyc : Nat) : Core :=
  { c with regs := (c.regs.cmds.filter fun x => decide (x.w < cyc)).foldl unitWrite c.regs }

/-- INTERRUPT_ENTRY: a pending enabled interrupt is taken at the boundary the core stands at; a fatal hold count goes
before it (R189). -/
def interruptEntry (s : State) (k : Nat) : State :=
  let c0 := s.core k
  if c0.restoring || c0.dbg.halted || c0.dbg.stepping || !s.domainOn (k / 16) then s
  else if c0.regs.holdOver then syncFatal s k 0x05
  else
    let c := unitsBefore c0 c0.cycle
    match takeable c with
    | some b => takeInterrupt (s.setCore k c) k b
    | none => s

/-! ## Halts (R584 to R587) -/

/-- The core halts: results retire, and its groups fire unless a cross-trigger halted it. -/
def haltCore (s : State) (k cause idx : Nat) : State :=
  let (c, e, _) := settle 8 (s.core k) none 0
  let s0 := s.setCore k c
  let s1 := match e with
    | some x => takeExc s0 k x
    | none => s0
  let d := s1.core k
  if d.restoring then s1
  else
    let s1a := s1.setCore k { d with open_ := [], waiting := false, dbg := { d.dbg with
      halted := true, requested := false, stepping := false, cause := cause, index := idx } }
    let s2 := raiseLimited s1a 0 0 0x1604 k 19661 1 fun _ => leBytes 2 k ++ leBytes 1 cause ++ leBytes 2 d.regs.pc
    let fire := d.dbg.dxt % 256
    if cause = 5 || fire = 0 then s2
    else
      let hit := (s2.facet.cores.filter fun e => e.1 ≠ k && (e.2.dbg.dxt / 256 &&& fire) ≠ 0).map fun e => e.1
      { s2 with proul := { s2.proul with xtStatus := s2.proul.xtStatus ||| fire, xtPending := dedupNat (s2.proul.xtPending ++ hit) } }

/-- HALT_POINT_REACHED: a core with a pending request stands at its halt point. -/
def haltPoint (s : State) (k : Nat) : State :=
  let c := s.core k
  if c.dbg.requested && !c.dbg.halted && !c.restoring && boundaryOpen c.regs then haltCore s k c.dbg.cause 0 else s

/-- Ask a core to halt at its halt point, with a cause. -/
def requestHalt (s : State) (k cause : Nat) : State :=
  let c := s.core k
  if c.dbg.halted || c.dbg.requested || c.restoring then s
  else s.setCore k { c with dbg := { c.dbg with requested := true, cause := cause } }

/-- A breakpoint on an address. -/
def bpHit (c : Core) : Option Nat :=
  (List.range 4).find? fun i =>
    let w := c.dbg.bp.getD i 0
    w.msb && (w.toNat % 65536 / 16 * 16) = c.regs.pc

/-- A watchpoint on the accesses of a bundle. -/
def wpHit (c : Core) (as : List Access) : Option Nat :=
  (List.range 2).find? fun i =>
    let w := (c.dbg.wp.getD i 0).toNat
    bit w 63 && as.any fun x => x.words.contains (field w 17 3) && (if x.store then bit w 61 else bit w 62)

/-- Results of a unit over a range of registers, from the byte or element values. -/
def unitRes (size : Nat) (d regs : Nat) (es : List (Nat × Nat)) : List Res :=
  (List.range regs).map fun i =>
    let per := 64 / size
    let p := placeElems size ((es.filter fun e => e.1 / per = i).map fun e => (e.1 % per, e.2))
    { due := 0, dest := dV (d + i), mask := p.1, val := p.2 }

/-- ci32 elements of consecutive registers. -/
def ci32Elems (r : CoreRegs) (b regs : Nat) : List (Int × Int) :=
  (List.range (8 * regs)).map fun i => ci32Of (elemAt 8 (r.getV (b + i / 8)) (i % 8))

/-- A unit accepts a command at cycle c0, its operands read at issue (R241, R244).  Results are written in acceptance
order: a DMAP behind a UERRD that writes later waits for it (`notes/assumptions/75.md`). -/
def unitAccept (r0 r : CoreRegs) (tail c0 : Nat) (o : UnitOp) (d a b : Nat) (m : BitVec 9) : CoreRegs :=
  let cmd := fun (solve : Bool) (w : Nat) (ws : List Res) (cause idx : Nat) =>
    ({ solve := solve, w := w, writes := ws, board := unitDests o d m, cause := cause, index := idx, dest := d,
       addr := r0.pc, readErr := false } : UnitCmd)
  match o with
  | .uerrd =>
    let w := max (c0 + 1) (r.demapW + 1)
    { r with demapW := w, cmds := r.cmds ++ [{ cmd false w [] 0 0 with readErr := true }] }
  | .uerrs =>
    let w := max (c0 + 1) (r.solveW + 1)
    { r with solveW := w, cmds := r.cmds ++ [{ cmd true w [] 0 0 with readErr := true }] }
  | .dmap =>
    match modulation (dmapMod m) with
    | none => r
    | some mo =>
      let st := max (c0 + 1) r.demapNext
      let w := max (st + mo.regs + 5) (r.demapW + 1)
      let act := activeMask r0 tail (modSel m) 16 0
      let (bs, bad) := demap (dmapMod m) (b2n (bit m.toNat 5)) mo (fun j => act.getLsbD j) (r0.getV a) (r0.getV b)
      { r with demapNext := st + mo.regs, demapW := w
               cmds := r.cmds ++ [cmd false w (unitRes 1 d mo.regs bs) (b2n bad.isSome) (bad.getD 0)] }
  | o =>
    let n := solveN m
    let st := max (c0 + 1) (r.solveW + 1)
    let w := st + solveCycles o n - 1
    let vec := o = .strsl || o = .strsu
    let regs := if vec then vecRegs n else triRegs n
    let (vs, cause, idx, more) := solve o n (solveS m) (ci32Elems r0 a (triRegs n)) (if vec then ci32Elems r0 b (vecRegs n) else [])
    let es := (vs ++ List.replicate (8 * regs - vs.length) 0).zipIdx.map fun (x : Nat × Nat) => (x.2, x.1)
    { r with solveW := w, cmds := r.cmds ++ [{ cmd true w (unitRes 8 d regs es) cause idx with more := more }] }

/-- UNIT_RESULT_WRITE: the unit's oldest command reaches its write cycle. -/
def unitResultWrite (s : State) (k : Nat) (solve : Bool) : State :=
  let c := s.core k
  match c.regs.cmds.find? fun x => x.solve = solve with
  | none => s
  | some x =>
    let cyc := if c.dbg.halted then c.cycle else max c.cycle (x.w + 1)
    s.setCore k { c with cycle := cyc, regs := unitWrite c.regs x }

/-! ## Evaluating a bundle (R171 to R181, R184 to R237) -/

/-- What one operation does, from the registers before its bundle. -/
structure OpEff where
  res : List Res := []
  mem : List (Nat × List Byte) := []
  exc : Option Exc := none
  long : Option LongOp := none
  /-- Post-increment of an element access, made with its completion. -/
  post : List Res := []
  /-- Occupancy of the slot in bundles. -/
  occ : Nat := 1

/-- A long operation's first bundle: chained behind the other slot's operation, or this one (R219). -/
def chainOf (n : Nat) (prev : List LongOp) (sl : Bool) (o : VecOp) (a b d : Nat) (m : BitVec 9) : Option Nat :=
  let g := modG m
  if g = 1 then none
  else
    (prev.findSome? fun l =>
      match l.op with
      | .vec sl' o' _ d' _ _ m' =>
        if sl' ≠ sl && l.id + 1 = n && modG m' = g && !isMac o' && !isCmp o' && o' ≠ .setvl &&
            ((readsVa o && a = d') || (readsVb o && b = d') || (o = .vfma && d = d')) then some (vecLatency o')
        else none
      | _ => none)

/-- The effect of an operation of the load/store slot whose accesses raise nothing, over its active elements. -/
def memEff (s : State) (k n : Nat) (o : FacetOp) (as : List Access) (fv : Nat) : OpEff :=
  let c := s.core k
  let r := c.regs
  let mem := c.view
  let ld := fun (x : Access) => leNat (bytesRead 0 mem x.addr x.len)
  let vres := fun (d : Nat) (x : Access) =>
    ({ due := n + 3, dest := dV d, mask := ones512, val := BitVec.ofNat 512 (ld x), from_ := n } : Res)
  match o, as with
  | .load sz sg d a f, x :: _ =>
    let v := if sg then ofSigned 64 (toSigned (8 * sz) (ld x)) else ld x
    { res := { resG (n + 3) d (BitVec.ofNat 64 v) with from_ := n } :: formPost r n a f }
  | .store sz v a f, x :: _ => { mem := [(x.addr, leBytes sz (r.getG v).toNat)], res := formPost r n a f }
  | .vld d a f, x :: _ => { res := vres d x :: formPost r n a f }
  | .vst v a f, x :: _ => { mem := [(x.addr, leBytes 64 (r.getV v).toNat)], res := formPost r n a f }
  | .vld2 d a f e b h, x :: y :: _ => { res := vres d x :: vres e y :: (formPost r n a f ++ formPost r n b h) }
  | .vldst d a f v b h, x :: y :: _ =>
    { res := vres d x :: (formPost r n a f ++ formPost r n b h), mem := [(y.addr, leBytes 64 (r.getV v).toNat)] }
  | .atomic sz sw d a f v, x :: _ =>
    let old := ld x
    let g := (r.getG v).toNat
    -- the upper half of Gd after a 32-bit add is not stated
    let res := if sz = 4 then old + Config.freeNat fv % 2 ^ 32 * 2 ^ 32 else old
    { res := { resG (n + 3) d (BitVec.ofNat 64 res) with from_ := n } :: formPost r n a f
      mem := [(x.addr, leBytes sz (if sw then g else old + g))] }
  | .vlds f v a b m, _ =>
    let sz := accSize m
    { res := (List.range f).map fun i =>
        let p := loadElems mem sz (as.map fun x => (x.elem, x.addr + i * sz))
        { due := n + f + 2, dest := dV (v + i), mask := p.1, val := p.2, from_ := n }
      post := accPostRes r n a b m, occ := f }
  | .vsts f v a b m, _ =>
    let sz := accSize m
    { mem := as.flatMap fun x => (List.range f).map fun i => (x.addr + i * sz, leBytes sz (elemAt sz (r.getV (v + i)) x.elem))
      post := accPostRes r n a b m, occ := f }
  | _, _ => {}

/-- The active elements of an access (R212, R213). -/
def accAct (r : CoreRegs) (tail start : Nat) (o : FacetOp) : W512 :=
  let sel := match o with
    | .vlde _ _ _ m => accSel m
    | .vste _ _ _ m => accSel m
    | .vlds _ _ _ _ m => accSel m
    | .vsts _ _ _ _ m => accSel m
    | .vgath _ _ _ m => accSel m
    | .vscat _ _ _ m => accSel m
    | _ => 0
  if isElem o then activeMask r tail sel (elemCount o) start else 1

/-- The effect of one operation that is not a unit command, from element `start` on. -/
def opEff (s : State) (k : Nat) (prev : List LongOp) (bad : List Nat) (start : Nat) (o : FacetOp) : OpEff :=
  let c := s.core k
  let r := c.regs
  let n := r.bseq
  let one := fun (l : Nat) (d : Nat) (v : W64) => ({ res := [{ resG (n + l) d v with from_ := n }] } : OpEff)
  let exc := fun (cause ea i : Nat) => ({ exc := some { cause := cause, eaddr := ea, slot := slotOf o, dest := einfoDest o, elem := i } } : OpEff)
  match o with
  | .alu p d a b =>
    one 1 d (aluOp p (r.getG a) (match b with | .reg x => r.getG x | .imm v => BitVec.ofInt 64 (imm9 v)))
  | .limm d v => one 1 d (BitVec.ofInt 64 v.toInt)
  | .limmh d v => one 1 d (BitVec.ofNat 64 ((r.getG d).toNat % 2 ^ 32 + ofSigned 32 v.toInt * 2 ^ 32))
  | .mul p d a b => one 2 d (mulOp p (r.getG a) (r.getG b))
  | .scmul cj d a b m =>
    let (v, t) := cmulQ15 cj (modRound m) true ((r.getG a).toNat % 2 ^ 32) ((r.getG b).toNat % 2 ^ 32)
    if modTrap m && t then exc 0x14 0 0 else one 1 d (BitVec.ofNat 64 v)
  | .call _ => one 1 23 (BitVec.ofNat 64 (r.pc + 48))
  | .mfc d x => one 1 d (BitVec.ofNat 64 (readCtl s k x.toNat))
  | .fsc _ p d a b m =>
    let (x, t) := fscExec r p d a b
    let e := if modTrap m && (t || fscCmpTrap r p a b) then exc 0x14 0 0 else {}
    { e with res := [{ x with due := n + fscLatency p, from_ := n }] }
  | .vec sl p t d a b m =>
    let g := modG m
    let chain := chainOf n prev sl p a b d m
    let l : LongOp := { op := o, id := n, first := (chain.map fun q => n - 1 + q).getD n, pass := 0, g := g, start := start
                        act := activeMask r c.tail (if p = .vsel || p = .msel then 0 else modSel m) (vecCount p t g) start
                        scalar := if macScalar p then r.getG b else r.getG a, addr := r.pc
                        lo := if p = .vsel then r.getM (modSel m) else 0 }
    if start ≠ 0 && decide (vecCount p t g ≤ start) then { occ := g }
    else if passCount o = 1 then
      let e := longPass r c.view l
      match e.trap with
      | some i => { res := e.res, exc := some { trapExc l i with elem := i }, long := none }
      | none => { res := e.res, long := some e.op }
    else { long := some l, occ := g + (match chain with | some q => q - 1 | none => 0) }
  | .unit _ _ _ _ _ _ => {}
  | o =>
    if slotOf o ≠ 1 then {}
    else
      let act := accAct r c.tail start o
      let as := accesses r act o
      let watch := match o with
        | .vscat _ _ _ m => accWatch m
        | _ => false
      let x := accessExc bad watch as
      let kept := match x with
        | some (_, _, i) => as.filter fun y => decide (y.elem < i)
        | none => as
      let keepAct := match x with
        | some (_, _, i) => act &&& BitVec.ofNat 512 (2 ^ i - 1)
        | none => act
      let e := match o with
        | .vlde _ a b m =>
          ({ long := some { op := o, id := n, first := n, pass := 0, g := accG m, start := start, act := keepAct
                            scalar := r.getG a, addr := r.pc }, post := accPostRes r n a b m, occ := accG m } : OpEff)
        | .vste _ a b m =>
          { long := some { op := o, id := n, first := n, pass := 0, g := accG m, start := start, act := keepAct
                           scalar := r.getG a, addr := r.pc }, post := accPostRes r n a b m, occ := accG m }
        | .vgath _ a b m =>
          { long := some { op := o, id := n, first := n, pass := 0, g := accG m, start := start, act := keepAct
                           scalar := r.getG a, lo := r.getV b, addr := r.pc }, occ := elemCount o }
        | .vscat v a b m =>
          { long := some { op := o, id := n, first := n, pass := 0, g := accG m, start := start, act := keepAct
                           scalar := r.getG a, lo := r.getV b, hi := r.getV v, addr := r.pc }, occ := elemCount o }
        | o => memEff s k n o kept s.freeCount
      match x with
      | some (cause, ea, i) =>
        { e with exc := some { cause := cause, eaddr := ea, slot := 1, dest := einfoDest o, elem := i }, post := [] }
      | none => e

/-! ## After a bundle: branches, repeat blocks, control registers (R176, R184, R192, R195) -/

/-- Leave the blocks whose body does not hold the target (R185). -/
def leaveBlocks (r : CoreRegs) (t : Nat) : CoreRegs :=
  match (List.range r.depth).find? fun l => !(decide (r.rsta l ≤ t) && decide (t ≤ r.rend l)) with
  | some l => (r.setDepth l).holdEnd
  | none => r

/-- The repeat step at the last bundle of the innermost block (R184). -/
def repeatStep (fuel : Nat) (r : CoreRegs) (pc : Nat) : CoreRegs :=
  match fuel with
  | 0 => { r with pc := pc + 16 }
  | f + 1 =>
    if r.depth = 0 then { r with pc := pc + 16 }
    else
      let l := r.depth - 1
      if r.rend l ≠ pc then { r with pc := pc + 16 }
      else if 1 < r.rcnt l then { (r.setC (0x0C + l) (r.rcnt l - 1)) with pc := r.rsta l, iterEnd := true }
      else repeatStep f ((r.setC (0x0C + l) 0).setDepth l).holdEnd pc

/-- Branch target of an operation, taken or not. -/
def branchTo (r : CoreRegs) (o : FacetOp) : Option Nat :=
  let rel := fun (v : Int) => some (ofSigned 64 ((r.pc : Int) + 16 * v))
  match o with
  | .br v => rel v.toInt
  | .call v => rel v.toInt
  | .brz a v => if r.getG a = 0 then rel (imm9 v) else some (r.pc + 48)
  | .brnz a v => if r.getG a ≠ 0 then rel (imm9 v) else some (r.pc + 48)
  | .jr a => some (r.getG a).toNat
  | _ => none

/-- Open a repeat block (R184). -/
def openBlock (r : CoreRegs) (pc cnt : Nat) (flag : Bool) (len : Nat) : CoreRegs :=
  if cnt = 0 then { r with pc := pc + 16 + 16 * len }
  else
    let l := r.depth
    let r1 := ((r.setC (0x0C + l) cnt).setC (0x0F + l) (pc + 16)).setC (0x12 + l) (pc + 16 * len)
    let r2 := r1.setC 0x15 (setBit (r1.getC 0x15) (2 + l) flag)
    { (r2.setDepth (l + 1)) with pc := pc + 16 }

/-- ERET after its bundle (R192). -/
def eretStep (r : CoreRegs) : CoreRegs :=
  let st := r.getC 1
  let r1 := ((r.setC 8 (r.getC 8 / 2 * 2 + b2n (bit st 2))).setDepth (field st 4 3)).setC 1 (setBit st 7 false)
  let d := match field st 6 5 with
    | 1 => some (2, r.getC 4)
    | 2 => some (1, r.getC 4)
    | _ => none
  { r1 with pc := r.getC 3, delay := d }

/-- The place of the next bundle. -/
def nextBundle (r0 r : CoreRegs) (ops : List FacetOp) : CoreRegs :=
  let q := { r with iterEnd := false }
  let pc := r0.pc
  if ops.contains .eret then eretStep q
  else match r0.delay with
    | some (2, t) => { q with pc := pc + 16, delay := some (1, t) }
    | some (_, t) => leaveBlocks { q with pc := t, delay := none } t
    | none =>
      match ops.findSome? (branchTo r0) with
      | some t => { q with pc := pc + 16, delay := some (2, t) }
      | none =>
        match ops.findSome? (repOf r0) with
        | some (cnt, f, len) => openBlock q pc cnt f len
        | none => repeatStep 4 q pc

/-- An MTC takes effect for the next bundle (R174). -/
def mtcStep (r0 r : CoreRegs) (o : FacetOp) : CoreRegs :=
  match o with
  | .mtc c a =>
    match ctlMask c.toNat with
    | some m => r.setC c.toNat ((r0.getG a).toNat &&& m)
    | none => r
  | _ => r

/-- The hold count after a bundle of some cycles, which waited `pre` cycles (R195).  The last bundle of a block counts; a
count that has passed the limit stands until the boundary takes HOLD_LIMIT. -/
def holdStep (r0 r : CoreRegs) (pre cycles : Nat) : CoreRegs :=
  if r0.holdOn then
    let n := r0.hold + pre + cycles
    r.setHold (r.holdOn || decide (2048 < n)) n
  else if r0.anyClosed && r.anyClosed then r.setHold true cycles else r

/-! ## Issue -/

/-- Stall of a bundle's accesses: cycles, the new starvation count, and whether the fabric port took a phase (R172, R200,
R201).  A stall of `pre` cycles before the bundle ends the run of starved cycles.  In split mode every access past the
first takes a cycle of its own; in paired mode nothing but the fabric port's phase stalls (`notes/assumptions/75.md`). -/
def accessStall (s : State) (k blocks pre : Nat) (fabWait : Bool) : Nat × Nat × Bool :=
  if (s.cluster (k / 16)).split then (blocks - 1, 0, false)
  else
    let run := if pre = 0 then (s.core k).starve else 0
    let both := decide (2 ≤ blocks)
    if both && decide (s.paramCluster (k / 16) 0x0701 0 ≤ run) then (1, 0, true)
    else (0, if both && fabWait then run + 1 else 0, false)

/-- A plain access of 64 bytes (R178). -/
def isPlain (o : FacetOp) : Bool :=
  match o with
  | .vld _ _ _ => true
  | .vst _ _ _ => true
  | .vld2 _ _ _ _ _ _ => true
  | .vldst _ _ _ _ _ _ => true
  | _ => false

/-- Count memory errors found by the bundle's reads (R204). -/
def eccCount (r : CoreRegs) (dm im : Nat) : CoreRegs :=
  let w := r.getC 0x17
  r.setC 0x17 (satAdd 32 (w % 2 ^ 32) dm + satAdd 32 (w / 2 ^ 32) im * 2 ^ 32)

/-- What a bundle executes (R236): its operations and their first element, all of them unless VSTART picks out one. -/
def bundleRun (r : CoreRegs) (ops : List FacetOp) : List FacetOp × Nat :=
  let vst := r.getC 0x16
  match ops.find? isElem with
  | some e => if vst = 0 then (ops, 0) else ([e], vst)
  | none => (ops, 0)

/-- The effects of a bundle's operations, from the registers before it. -/
def bundleEffs (s : State) (k : Nat) (b : BundleIn) (prev : List LongOp) (ops : List FacetOp) : List (FacetOp × OpEff) :=
  let run := bundleRun (s.core k).regs ops
  let bad := (s.bank (bankKey 0 k)).bad ++ b.dmemBad
  run.1.map fun o => (o, opEff s k prev bad run.2 o)

/-- The exception of a bundle: the first in slot order (R187). -/
def firstExc (effs : List (FacetOp × OpEff)) : Option (FacetOp × Exc) :=
  (List.range 4).findSome? fun q =>
    (effs.find? fun x => slotOf x.1 = q && x.2.exc.isSome).bind fun x => x.2.exc.map fun e => (x.1, e)

/-- Accesses of a bundle that stall it: blocks of its plain accesses (R172, R178). -/
def plainBlocks (r : CoreRegs) (run : List FacetOp) : Nat :=
  if run.any isPlain then (run.map fun o => blockCount o (accesses r 1 o)).foldl (fun x y => x + y) 0 else 0

/-- A bundle's operations execute: exceptions first, then every effect; registers as they stood before it are read. -/
def execOps (s : State) (k : Nat) (b : BundleIn) (prev : List LongOp) (pre : Nat) (ops : List FacetOp) : State :=
  let c := s.core k
  let r := c.regs
  let n := r.bseq
  let vst := r.getC 0x16
  let run := (bundleRun r ops).1
  let start := (bundleRun r ops).2
  let effs := bundleEffs s k b prev ops
  let reads := ops.any fun o => slotOf o = 1
  let s0 := if reads then bankMark (bankCorrected s (clusterNode (k / 16)) (bankKey 0 k) b.dmemCorr) (bankKey 0 k) b.dmemBad
    else s
  -- errors corrected on the bundle's reads are counted, whether it completes or not (R204), by the bank too (R372)
  let counted := fun (q : CoreRegs) => if reads then eccCount q b.dmemCorr.length 0 else q
  let blocks := plainBlocks r run
  let (stall, starve, gave) := if blocks = 0 then (0, 0, false) else accessStall s0 k blocks pre b.fabWait
  -- units accept commands in the cycle in which the bundle issues, after its stall (R172, R244)
  let accept := fun (q : CoreRegs) (o : FacetOp) => match o with
    | .unit _ p d a' b' m => unitAccept r q c.tail (c.cycle + stall) p d a' b' m
    | _ => q
  match firstExc effs with
  | some (o, e) =>
    if !(isElem o && decide (0 < e.elem)) then takeExc (s0.setCore k { c with regs := counted r }) k e
    else
      -- elements below the failing one are written, and the bundle's other operations execute in full, one that would
      -- trap in a later slot too (R187, R235)
      let r1 := ((counted r).addRes (effs.flatMap fun x => x.2.res)).setC 0x16 e.elem
      let r2 := (effs.map fun x => x.1).foldl accept r1
      let c1 := coreStore { c with regs := { r2 with bseq := n } } n (effs.flatMap fun x => x.2.mem)
      let c3 := { c1 with longs := c1.longs ++ effs.filterMap fun x => x.2.long.bind fun l => if l.pass < passCount x.1 then some l else none }
      takeExc (s0.setCore k c3) k e
  | none =>
    let as := run.flatMap fun o => accesses r (accAct r c.tail start o) o
    let cycles := 1 + stall
    -- results, stores and long operations
    let r1 := r.addRes (effs.flatMap fun x => x.2.res ++ x.2.post)
    let r2 := run.foldl accept r1
    let r3 := if vst ≠ 0 then r2.setC 0x16 0 else r2
    let busy := (List.range 3).map fun q =>
      (effs.filter fun x => slotOf x.1 = q + 1).foldl (fun m x => max m (n + x.2.occ)) (r.busy.getD q 0)
    let r4 := { r3 with busy := busy }
    -- operations of one pass that have run, and those whose passes go on
    let r5 := effs.foldl (fun q x => match x.2.long with
      | some l => if passCount x.1 = l.pass then setForward q l else q
      | none => q) r4
    let longs := effs.filterMap fun x => x.2.long.bind fun l => if l.pass < passCount x.1 then some l else none
    let trapping := longs.filter fun l => match l.op with
      | .vec _ _ _ _ _ _ m => modTrap m
      | _ => false
    let c1 : Core := { c with longs := c.longs ++ longs, starve := starve }
    let c2 := match trapping with
      | l :: _ => { c1 with snaps := mapSet c1.snaps l.id { pre := r, preLongs := c.longs, longs := c1.longs
                                                            regs := retireDue { r5 with bseq := n + 1 } } }
      | [] => c1
    let c3 := coreStore { c2 with regs := r5 } n (effs.flatMap fun x => x.2.mem)
    -- the passes that fall in this bundle: those of the operations just issued
    let (c4, t) := runPasses c3
    let r6 := counted c4.regs
    let r7 := run.foldl (mtcStep r) (nextBundle r r6 run)
    let r8 := holdStep r { r7 with bseq := n + 1 } pre cycles
    let c5 := { c4 with regs := retireDue r8, cycle := c.cycle + cycles, open_ := [], waiting := false }
    let s1 := s0.setCore k c5
    let s2 := if gave then s1.setBank (bankKey 0 k) { s1.bank (bankKey 0 k) with ownerStall := satAdd 32 (s1.bank (bankKey 0 k)).ownerStall 1 } else s1
    let s3 := if run.any fun o => (match o with | .atomic 4 _ _ _ _ _ => true | _ => false) then { s2 with freeCount := s2.freeCount + 1 } else s2
    match t with
    | some (l, i, rs) =>
      let d := rollback (s3.core k) l i rs
      takeExc (s3.setCore k d) k (trapExc l i)
    | none =>
      let sysc := run.findSome? fun o => match o with | .sysc v => some v.toNat | _ => none
      if (s3.core k).regs.holdOver then syncFatal s3 k 0x05
      else match sysc with
      | some v => takeExc s3 k { cause := 0x15, eaddr := 0, slot := 0, dest := 0, info := v }
      | none =>
        match wpHit c as with
        | some i => if (s3.core k).dbg.halted then s3 else haltCore s3 k 4 i
        | none => s3

/-- A step ends after its bundle (R586). -/
def endStep (s : State) (k : Nat) : State :=
  let c := s.core k
  if c.dbg.stepping && !c.waiting && !c.dbg.halted && !c.restoring then haltCore s k 2 0 else s

/-- MILL_PROTOCOL (R274). -/
def millProtocol (s : State) (k kind st : Nat) : State :=
  raise s 5 (unitSlice k) 0x0808 (leBytes 2 k ++ leBytes 1 kind ++ leBytes 1 st)

/-- DONEWORK clears a record that is held (R259). -/
def doneRecord (s : State) (k : Nat) (solve : Bool) : State :=
  let c := s.core k
  let w := if solve then c.regs.solveRec else c.regs.demapRec
  if !w.msb then s
  else
    let r := if solve then { c.regs with solveRec := 0 } else { c.regs with demapRec := 0 }
    let s1 := s.setCore k { c with regs := r }
    if s.param 0x0720 0 = 1 then
      raise s1 7 k 0x0720 (leBytes 2 k ++ leBytes 1 (b2n solve) ++ leBytes 1 (field w.toNat 47 40) ++
        leBytes 1 (field w.toNat 39 32) ++ leBytes 1 (b2n (bit w.toNat 62)) ++ leBytes 2 w.toNat ++ leBytes 4 (runningFlow s k))
    else s1

/-- DONEWORK issues: every operation of earlier bundles has retired (R181, R259, R274).  A bundle that an exception
cancels does none of it (R187). -/
def doneWork (s : State) (k t0 : Nat) (b : BundleIn) (ops : List FacetOp) (ga : Nat) : State :=
  let (c, e, n) := settle 8 (s.core k) none 0
  match e with
  | some x => takeExc (s.setCore k c) k x
  | none =>
    let last := c.regs.cmds.foldl (fun m x => max m (x.w + 1)) (c.cycle + n)
    let c1 := unitsBefore { c with cycle := last } (last + 1)
    let s1 := s.setCore k c1
    match (if c1.dbg.stepping then none else takeable c1) with
    | some q => takeInterrupt s1 k q
    | none =>
      let s3 :=
        if (firstExc (bundleEffs s1 k b [] ops)).isSome then s1
        else
          let st := (c1.regs.getG ga).toNat % 256
          let s2 := doneRecord (doneRecord s1 k false) k true
          match runningOn s2 k with
          | none => millProtocol s2 k 0 st
          | some _ =>
            let s4 := completeUnit s2 k st
            if 4 ≤ st then millProtocol s4 k 2 st else s4
      execOps s3 k b [] ((s3.core k).cycle - t0) ops

/-- The passes of operations in progress go on during the wait of WAITWORK, one per core cycle (R217), reading registers
as they would stand then; their results, and those of other operations, still become visible by bundle distance
(R182, `notes/assumptions/75.md`). -/
def waitPasses (fuel : Nat) (c : Core) (ahead : CoreRegs) : Core :=
  match fuel with
  | 0 => c
  | f + 1 =>
    if c.longs.isEmpty then c
    else
      let d := (runPasses { c with regs := ahead }).1
      let new := d.regs.inflight.filter fun x => !ahead.inflight.contains x
      let regs := { c.regs.addRes new with macA := d.regs.macA, macB := d.regs.macB }
      waitPasses f { d with regs := regs } (retireDue { d.regs with bseq := ahead.bseq + 1 })

/-- The error records of a core are cleared: no record outlives its work item (R259). -/
def CoreRegs.noRecords (r : CoreRegs) : CoreRegs := { r with demapRec := 0, solveRec := 0 }

/-- WAITWORK stops issue until a descriptor arrives (R180, R274); passes in progress run on and leave their slots.  An
item that has been delivered and not yet received is what it waits for. -/
def waitWork (s : State) (k : Nat) (b : BundleIn) : State :=
  let c := s.core k
  let (d, e, _) := settle 8 c none 0
  match e with
  | some x => takeExc (s.setCore k d) k x
  | none =>
    let c1 := waitPasses 64 c (retireDue { c.regs with bseq := c.regs.bseq + 1 })
    let s1 := s.setCore k { c1 with
      regs := { c1.regs with busy := [0, 0, 0] }, waiting := true, waitIn := some b, starve := 0, open_ := c.open_ }
    let s2 := match runningOn s1 k, mapGet? s1.mill.deliveries k with
      | some _, none =>
        let s3 := millProtocol (completeUnit s1 k 0x82) k 1 0x82
        s3.setCore k { s3.core k with regs := (s3.core k).regs.noRecords }
      | _, _ => s1
    drainHook s2 k

/-- The bundle put together is issued, with what the memories show (R168 to R204). -/
def issueBundle (s : State) (k : Nat) (b : BundleIn) : State :=
  let c := s.core k
  let drop := fun (t : State) => t.setCore k { t.core k with open_ := [] }
  if c.restoring || c.waiting || c.dbg.halted || !s.domainOn (k / 16) then drop s
  else if c.dbg.requested && boundaryOpen c.regs then haltCore s k c.dbg.cause 0
  else if !c.dbg.skipBp && (bpHit c).isSome then haltCore s k 3 ((bpHit c).getD 0)
  else if c.regs.holdOver then syncFatal s k 0x05
  else if 0x8000 ≤ c.regs.pc || c.regs.pc % 16 ≠ 0 then syncFatal s k 0x03
  else if b.imem.val = 2 then syncFatal s k 0x04
  else
    -- results of unit commands written before this boundary, an error among them (R257)
    let c0 := unitsBefore c c.cycle
    let sb := s.setCore k c0
    match (if c0.dbg.stepping then none else takeable c0) with
    | some q => takeInterrupt sb k q
    | none =>
      -- passes of earlier operations that fall in this bundle; a trap among them discards it
      let (c1, t) := runPasses c0
      match t with
      | some (l, i, rs) => takeExc (sb.setCore k (rollback c1 l i rs)) k (trapExc l i)
      | none =>
        let im := b.imem.val
        let c2 := { c1 with cycle := c1.cycle + im, regs := eccCount c1.regs 0 im, dbg := { c1.dbg with skipBp := false } }
        let ops := inOrder c2.open_
        let s1 := s.setCore k c2
        if bundleIllegal c2.regs b.undefSlots ops then syncFatal s1 k 0x01
        else if !b.undefSlots.isEmpty || ops.any (opIllegal c2.regs c2.tail) then syncFatal s1 k 0x02
        else
          -- scoreboard (R242)
          let names := ops.flatMap fun o => opSrcs o ++ opDests o
          let clear := c2.regs.cmds.foldl (fun m x => if x.board.any fun q => names.contains q then max m (x.w + 1) else m) c2.cycle
          let s2 := s1.setCore k (unitsBefore { c2 with cycle := clear } clear)
          let s3 := if ops.contains .waitwork then waitWork s2 k b
            else match ops.findSome? fun o => match o with | .donework a => some a.val | _ => none with
              | some a => doneWork s2 k c.cycle b ops a
              | none => execOps s2 k b c0.longs (clear - c.cycle) ops
          endStep s3 k

/-- What the memories show to a bundle without errors or fabric requests. -/
def quietIn : BundleIn := { imem := 0, dmemCorr := [], dmemBad := [], fabWait := false }

/-- The core went on from one bundle to the next: no entry, halt or fault stopped it. -/
def wentOn (c d : Core) : Bool :=
  !d.restoring && !d.dbg.halted && d.regs.bseq = c.regs.bseq + 1 && d.regs.getC 1 = c.regs.getC 1 && d.regs.getC 8 = c.regs.getC 8

/-- No-operation bundles issue (R170), while nothing stops the core; whether all of them did. -/
def issueNops (n : Nat) (s : State) (k : Nat) : State × Bool :=
  match n with
  | 0 => (s, true)
  | m + 1 =>
    let t := issueBundle s k quietIn
    if wentOn (s.core k) (t.core k) then issueNops m t k else (t, false)

/-- The bundle put together is issued behind the no-operation bundles that stand before it; one of them that is stopped
stops it too. -/
def issueAll (s : State) (k : Nat) (b : BundleIn) : State :=
  if b.nops = 0 then issueBundle s k b
  else
    let c := s.core k
    let r := issueNops b.nops (s.setCore k { c with open_ := [] }) k
    if r.2 then issueBundle (r.1.setCore k { r.1.core k with open_ := c.open_ }) k b else r.1

/-- One operation of a bundle of a core; `iss` issues the bundle.  An operation for a slot that is already filled has no
effect. -/
def facetOp (s : State) (k : Nat) (iss : Option BundleIn) (o : FacetOp) : State :=
  let c := s.core k
  if c.restoring || c.waiting || c.dbg.halted || !s.domainOn (k / 16) then s
  else
  let s1 := if c.open_.any fun p => slotOf p = slotOf o then s else s.setCore k { c with open_ := c.open_ ++ [o] }
  match iss with
  | none => s1
  | some b => issueAll s1 k b

/-! ## Rows of the core itself -/

/-- DESCRIPTOR_ARRIVAL (R180, R212): the WAITWORK bundle executes and the descriptor is received.  Where an exception
cancels the bundle (R187), the delivery waits for the WAITWORK that issues again. -/
def descriptorArrival (s : State) (k cycles : Nat) : State :=
  let c := s.core k
  match mapGet? s.mill.deliveries k with
  | none => s
  | some d =>
    if !c.waiting || c.dbg.halted || c.restoring then s
    else
      let b := c.waitIn.getD quietIn
      let ops := inOrder c.open_
      let s1 := s.setCore k { c with cycle := c.cycle + cycles, waiting := false, waitIn := none }
      let s2 := execOps s1 k b [] cycles ops
      if (firstExc (bundleEffs s1 k b [] ops)).isSome then s2
      else
        let c2 := s2.core k
        let r := (List.range 8).foldl (fun (q : CoreRegs) w => q.setG (24 + w) (BitVec.ofNat 64 (rd d (8 * w) 8))) c2.regs
        let s3 := { s2 with mill := { s2.mill with deliveries := mapDel s2.mill.deliveries k } }
        endStep (s3.setCore k { c2 with regs := { r with vl := 512 } }) k

/-- CTIMER_MATCH: time passes on a core that waits until CYCLE reaches CTIMER (R188). -/
def ctimerMatch (s : State) (k : Nat) : State :=
  let c := s.core k
  let t := c.regs.getC 0x0B
  if t = 0 || decide (t ≤ c.cycle) || !c.waiting || c.dbg.halted || c.restoring then s else s.setCore k { c with cycle := t }

/-- HOLD_LIMIT (R195). -/
def holdLimit (s : State) (k : Nat) : State :=
  let c := s.core k
  if c.regs.holdOver && !c.restoring && !c.dbg.halted then syncFatal s k 0x05 else s

/-- The image placed on a core. -/
def placedImage (s : State) (k : Nat) : Option Image := (mapGet? s.host.placed k).bind fun i => mapGet? s.host.images i

/-- The code of the image placed on a core, from address 0 (R459, R461). -/
def placedCode (s : State) (k : Nat) : Bytes := ((placedImage s k).map imageCode).getD []

/-- A core is loaded from its recorded placement: the kernel it now holds declares that image's tail mode (R215). -/
def noteTail (s : State) (k : Nat) : State :=
  match placedImage s k with
  | some im => { s with host := { s.host with kernelTail := mapSet s.host.kernelTail k (imageTail im) } }
  | none => s

/-- CORE_RESTORE (R194): registers cleared, instruction memory rewritten, back in service. -/
def coreRestore (s : State) (k : Nat) : State :=
  let c := s.core k
  if !c.restoring then s
  else
    let s1 := s.setCore k { dmem := c.dmem, imem := placedCode s k, tail := c.tail, tailDue := c.tailDue, dbg := { c.dbg with skipBp := false } }
    drainHook (raise (noteTail s1 k) 7 k 0x0702 (leBytes 2 k ++ leBytes 1 c.faultCause)) k

/-- MEM_MODE_CHANGE (R203, R208): the cluster's cores are all drained. -/
def memModeChange (s : State) (cl : Nat) : State :=
  let x := s.cluster cl
  let want := clusterWant s cl
  let cores := (List.range 16).map fun i => 16 * cl + i
  if want = x.split || !s.domainOn cl || !(cores.all fun k => drained s k || (s.core k).restoring) then s
  else
    let s1 := s.setCluster cl { x with split := want }
    let s2 := raise s1 7 (16 * cl) 0x0703 (leBytes 1 cl ++ leBytes 1 (b2n want) ++ leBytes 1 x.cause)
    cores.foldl drainHook s2

/-- ABORT_GRACE_EXPIRY (R290). -/
def abortGraceExpiry (s : State) (k : Nat) : State :=
  match mapGet? s.mill.aborts k with
  | none => s
  | some t =>
    let held := (s.core k).dbg.halted && s.param 0x1603 0 = 1
    if held || !reached s.now (t + s.param 0x080A 0) || (runningOn s k).isNone then s
    else
      let flow := runningFlow s k
      raise (coreFault s k 0x23 0x83) 5 (unitSlice k) 0x0809 (leBytes 2 k ++ leBytes 4 flow)

/-- The SUPERVISOR abort of R289: the message goes into the last 64 bytes of the core's memory. -/
def drainTimeout (s : State) (k : Nat) : State :=
  match mapGet? s.mill.drains k, runningOn s k with
  | some t, some _ =>
    let c := s.core k
    let held := c.dbg.halted && s.param 0x1603 0 = 1
    if held || 1024 ≤ k || (mapGet? s.mill.aborts k).isSome || !reached s.now (t + s.param 0x0809 0) then s
    else
      let msg := padTo 64 (leBytes 2 1 ++ [0, 0] ++ leBytes 4 (runningFlow s k) ++ leBytes 8 s.now)
      let s1 := s.setCore k { c with dmem := bytesWrite 0 c.dmem 0x3FFC0 msg, supervisor := true }
      { s1 with mill := { s1.mill with aborts := mapSet s1.mill.aborts k s.now } }
  | _, _ => s

end Sys2Proof.Machine
end

