-- ==== Sys2Proof/Machine/Ports.lean ====
section
/-! DEFINITION. Ports below the roles (R114 to R117, R128, R131 to R137, R465, R466): links, lock and error ratios,
maintenance windows, transmit queues, the PTP queue and the midhaul rings. -/

namespace Sys2Proof.Machine

/-! ## Links and ports -/

/-- An event of a Prism engine (R518: class 2). -/
def portEvt (s : State) (p code : Nat) (d : List Byte) : State := raise s 2 p code d

/-- Change a port. -/
def modPort (s : State) (p : Nat) (f : Port → Port) : State := s.setPort p (f (s.port p))

/-- Change a link of a port. -/
def modLink (s : State) (p k : Nat) (f : Link → Link) : State := s.setLink p k (f (s.link p k))

/-- The port mode provides link k (R131). -/
def hasLink (s : State) (p k : Nat) : Bool := decide (k < linksOfMode (s.portMode p))

/-- Lanes of a link in the port's mode. -/
def linkLanes (s : State) (p k : Nat) : List Nat := lanesOfLink (s.portMode p) p k

/-- A maintenance window is open on a port (R116). -/
def maintOpen (s : State) (p : Nat) : Bool := (mapGet? s.lanes.maint p).isSome

/-- Some lane of a link is looped FAR (R118). -/
def linkFar (s : State) (p k : Nat) : Bool := (linkLanes s p k).any fun l => s.param 0x0402 l = 3

/-- Some lane of a link is looped near: its receive pins are ignored (R118). -/
def linkNear (s : State) (p k : Nat) : Bool := (linkLanes s p k).any fun l => s.param 0x0402 l = 1 || s.param 0x0402 l = 2

/-- Some lane of a link does not carry the link's transmit data: the far-end loop discards it (R118), or a pattern
replaces it (R119). -/
def txReplaced (s : State) (p k : Nat) : Bool :=
  linkFar s p k || (linkLanes s p k).any fun l => s.param 0x0403 l ≠ 0

/-- A link delivers frames to the engine: up, and no maintenance window but for the far-end loop (R116). -/
def linkDelivers (s : State) (p k : Nat) : Bool :=
  hasLink s p k && s.linkUp p k && (!maintOpen s p || linkFar s p k)

/-- A link sends frames of the engine. -/
def linkSends (s : State) (p k : Nat) : Bool := hasLink s p k && s.linkUp p k && !maintOpen s p

/-- A port's role (R131). -/
def portRole (s : State) (p : Nat) : Nat := s.paramPort p 0x0502 p

/-! ## Stamps (R51 to R54) -/

/-- The domain in which a port stamps (R54): that of a PTP slot that names it, else `time.port[n].stamp_domain`. -/
def stampDomain (s : State) (p : Nat) : Nat :=
  match (List.range 8).find? fun i => s.paramTime 0x020D i = p with
  | some i => i / 4
  | none => s.paramTime 0x0210 p

/-- The 32-bit stamp of a frame that passes the balls now (R52, R54). -/
def stampNow (s : State) (p : Nat) : Nat := (s.dom (stampDomain s p)).ns % 2 ^ 32

/-! ## Frame headers (R138) -/

/-- A tag's TPID. -/
def isTpid (v : Nat) : Bool := v = 0x8100 || v = 0x88A8

/-- VLAN tags of a frame, at most two counted. -/
def vlanTags (b : List Byte) : Nat :=
  if !isTpid (rdBe b 12 2) then 0 else if !isTpid (rdBe b 16 2) then 1 else 2

/-- Length of the Ethernet header with its tags. -/
def ethLen (b : List Byte) : Nat := 14 + 4 * vlanTags b

/-- The EtherType after the tags. -/
def etherType (b : List Byte) : Nat := rdBe b (12 + 4 * vlanTags b) 2

/-- Offset of the UDP header behind an IP header, whatever the protocol. -/
def udpOffset (b : List Byte) : Nat :=
  let h := ethLen b
  if etherType b = 0x0800 then h + 4 * field (rd b h 1) 3 0 else h + 40

/-- UDP destination port of a frame that carries UDP over IPv4 or IPv6. -/
def udpDst (b : List Byte) : Option Nat :=
  let h := ethLen b
  if (etherType b = 0x0800 && rd b (h + 9) 1 = 17) || (etherType b = 0x86DD && rd b (h + 6) 1 = 17) then
    some (rdBe b (udpOffset b + 2) 2)
  else none

/-- Offset of the PTP header of a frame that carries one. -/
def ptpOffset (b : List Byte) : Option Nat :=
  if etherType b = 0x88F7 then some (ethLen b)
  else match udpDst b with
    | some 319 => some (udpOffset b + 8)
    | _ => none

/-- Message type of a PTP event message (R51): Sync, Delay_Req, Pdelay_Req or Pdelay_Resp. -/
def ptpEvent (b : List Byte) : Option Nat :=
  match ptpOffset b with
  | some o => if rd b o 1 % 16 ≤ 3 then some (rd b o 1 % 16) else none
  | none => none

/-- The frame is an ESMC PDU (R57). -/
def isEsmc (b : List Byte) : Bool := etherType b = 0x8809 && rd b (ethLen b) 1 = 0x0A

/-- SSM of an ESMC PDU: the low 4 bits of the QL TLV (R57). -/
def esmcSsm (b : List Byte) : Nat := rd b (ethLen b + 13) 1 % 16

/-- An ESMC PDU that a link received: every SyncE candidate on its lanes takes the SSM (R57). -/
def esmcFrame (s : State) (p k : Nat) (b : List Byte) : State :=
  (linkLanes s p k).foldl (fun t l => (synceOf t l).foldl (fun u i => esmcPdu u i (esmcSsm b)) t) s

/-! ## Frame checks (R133, R134) -/

/-- CRC-32 of Ethernet. -/
def crc32 (bs : List Byte) : Nat := (bs.foldl (crcRefByte 0xEDB88320) 0xFFFFFFFF) ^^^ 0xFFFFFFFF

/-- A frame as it leaves: padded to 64 bytes with its FCS (R135). -/
def wireFrame (b : List Byte) : List Byte := padTo 60 b ++ leBytes 4 (crc32 (padTo 60 b))

/-- The FCS of a received frame is right. -/
def fcsOk (b : List Byte) : Bool := crc32 (b.take (b.length - 4)) = rd b (b.length - 4) 4

/-- Destination of pool frames (R491). -/
abbrev poolMac : Nat := 0x034657504F4C

/-- A destination address is accepted (R134). -/
def macAccepted (s : State) (p : Nat) (b : List Byte) : Bool :=
  let d := rdBe b 0 6
  portRole s p = 1 || d = s.paramPort p 0x0503 p || d = 0xFFFFFFFFFFFF || d = 0x011B19000000 ||
  d = 0x0180C200000E || d = 0x0180C2000002 || d = 0x333300000001 ||
  (d / 2 ^ 24 = 0x3333FF && d % 2 ^ 24 = s.paramPort p 0x0506 (2 * p + 1) % 2 ^ 24) ||
  (portRole s p = 2 && d = poolMac)

/-- The MAC counter that discards a frame, by its number in R133, first that applies. -/
def macCheck (s : State) (p : Nat) (phyErr : Bool) (b : List Byte) : Option Nat :=
  if phyErr then some 0
  else if b.length < 64 then some 1
  else if s.paramPort p 0x0504 p < b.length then some 2
  else if !fcsOk b then some 3
  else if etherType b = 0x8808 then some 4
  else if !macAccepted s p b then some 5
  else none

/-- Count a discarded frame. -/
def macCount (x : Link) (n : Nat) : Link :=
  match n with
  | 0 => { x with phyErr := satAdd 32 x.phyErr 1 }
  | 1 => { x with runt := satAdd 32 x.runt 1 }
  | 2 => { x with oversize := satAdd 32 x.oversize 1 }
  | 3 => { x with fcs := satAdd 32 x.fcs 1 }
  | 4 => { x with macControl := satAdd 32 x.macControl 1 }
  | _ => { x with filter := satAdd 32 x.filter 1 }

/-! ## PTP queue (R137, R465) -/

/-- Count a loss of the PTP queue; the first since the host emptied it is reported. -/
def ptpLoss (s : State) (p : Nat) : State :=
  let x := s.port p
  let n := satAdd 32 x.ptpLost 1
  let s1 := s.setPort p { x with ptpLost := n, ptpOver := true }
  if x.ptpOver then s1 else portEvt s1 p 0x0502 (leBytes 1 p ++ leBytes 4 n)

/-- Put an entry into the receive queue. -/
def ptpPut (s : State) (p : Nat) (e : PtpEntry) : State :=
  if 128 ≤ (s.port p).ptpRx.length then ptpLoss s p
  else modPort s p fun x => { x with ptpRx := x.ptpRx ++ [e] }

/-- A received frame goes to the PTP queue; `stamped` says that it carries its receive stamp. -/
def ptpFrame (s : State) (p k : Nat) (b : List Byte) (stamped : Bool) : State :=
  if 1536 < b.length then ptpLoss s p
  else ptpPut s p { kind := 0, link := k, stamp := if stamped then stampNow s p else 0, bytes := b.take (b.length - 4) }

/-- A frame for the PTP queue, stamped where it is a PTP event message (R51, R137). -/
def ptpRx (s : State) (p k : Nat) (b : List Byte) : State := ptpFrame s p k b (ptpEvent b).isSome

/-! ## Midhaul rings (R466) -/

/-- A count word of the midhaul rings. -/
def midWord (s : State) (p off : Nat) : Nat := leNat (bytesRead 0 (s.port p).bank off 4)

/-- Write a count word. -/
def setMidWord (s : State) (p off v : Nat) : State :=
  modPort s p fun x => { x with bank := bytesWrite 0 x.bank off (leBytes 4 v) }

/-- Space of a record that holds L bytes of frame. -/
def midSpace (l : Nat) : Nat := 64 * ceilDiv (16 + l) 64

/-- A record header. -/
def midHeader (s : State) (p k l ty : Nat) : List Byte :=
  leBytes 2 l ++ leBytes 1 k ++ leBytes 1 ty ++ leBytes 4 (if ty = 0 then stampNow s p else 0) ++
  leBytes 8 (if ty = 0 then s.now else 0)

/-- MIDHAUL_RX: a received frame becomes a record, or is discarded where the ring is full. -/
def midhaulRx (s : State) (p k : Nat) (b : List Byte) : State :=
  let l := b.length - 4
  let wr := midWord s p 0xC0000
  let used := (wr + 2 ^ 32 - midWord s p 0xC0004) % 2 ^ 32
  let pos := wr % 524288
  let pad := if 524288 < pos + midSpace l then 524288 - pos else 0
  if 524288 < used + pad + midSpace l then modLink s p k fun x => { x with ringFull := satAdd 32 x.ringFull 1 }
  else
    let bank := (s.port p).bank
    let b1 := if pad = 0 then bank else bytesWrite 0 bank pos (midHeader s p 0 (pad - 16) 1)
    let at_ := if pad = 0 then pos else 0
    let b2 := bytesWrite 0 b1 at_ (midHeader s p k l 0 ++ b.take l)
    setMidWord (modPort s p fun x => { x with bank := b2 }) p 0xC0000 ((wr + pad + midSpace l) % 2 ^ 32)

/-! ## Carriers' buffers, as frames free them (R158, R161) -/

/-- A carrier's fronthaul state. -/
def State.cfh (s : State) (c : Nat) : CarrierFh := mapGet s.ports.carriers c {}
def State.setCfh (s : State) (c : Nat) (x : CarrierFh) : State :=
  { s with ports := { s.ports with carriers := mapSet s.ports.carriers c x } }
def modCfh (s : State) (c : Nat) (f : CarrierFh → CarrierFh) : State := s.setCfh c (f (s.cfh c))

/-- A downlink buffer. -/
def dlBuf (s : State) (c r : Nat) : TxBuf := mapGet (s.cfh c).dl r {}
def setDlBuf (s : State) (c r : Nat) (b : TxBuf) : State := modCfh s c fun x => { x with dl := mapSet x.dl r b }
/-- A C-plane buffer. -/
def cpBuf (s : State) (c r : Nat) : TxBuf := mapGet (s.cfh c).cp r {}
def setCpBuf (s : State) (c r : Nat) (b : TxBuf) : State := modCfh s c fun x => { x with cp := mapSet x.cp r b }

/-- A downlink buffer whose messages have all been sent is free. -/
def dlFree (s : State) (c r : Nat) : State :=
  let b := dlBuf s c r
  if b.sending = 0 then setDlBuf s c r { b with taken := none } else s

/-- A frame of a carrier has left or been dropped: its buffer counts one message less. -/
def frameDone (s : State) (f : TxFrame) : State :=
  if f.buf = 65535 then s
  else if f.kind = 0 then
    let b := dlBuf s f.carrier f.buf
    dlFree (setDlBuf s f.carrier f.buf { b with sending := b.sending - 1 }) f.carrier f.buf
  else if f.kind = 1 then
    let b := cpBuf s f.carrier f.buf
    let n := b.sending - 1
    setCpBuf s f.carrier f.buf { b with sending := n, taken := if n = 0 then none else b.taken }
  else s

/-! ## Transmission (R135) -/

/-- The window of a queued frame is still open (R161, R162). -/
def TxFrame.open_ (now : Int) (f : TxFrame) : Bool := match f.due with | some d => decide (now < d) | none => true

/-- C-plane frames whose window has closed are dropped (R162), and in SAFE state all of them (R163). -/
def cpPurge (s : State) (p k : Nat) : State :=
  let now : Int := (s.localNow 0 p : Int)
  let gone := fun (f : TxFrame) => f.kind = 1 && (s.boot.devState = 4 || !f.open_ now)
  (((s.link p k).fh.filter gone).foldl frameDone
    (modLink s p k fun x => { x with fh := x.fh.filter fun f => !gone f }))

/-- A fronthaul frame may leave now: its window is open, and in SAFE state it holds no staged samples (R163). -/
def frameReady (s : State) (p : Nat) (f : TxFrame) : Bool :=
  f.open_ (s.localNow 0 p : Int) && !(s.boot.devState = 4 && f.kind = 0 && f.buf ≠ 65535)

/-- The next frame of a link by strict priority. -/
def nextFrame (ready : TxFrame → Bool) (x : Link) : Option (TxFrame × Link) :=
  match x.fh.find? ready, x.ptp, x.low with
  | some f, _, _ => some (f, { x with fh := x.fh.erase f })
  | none, f :: t, _ => some (f, { x with ptp := t })
  | none, [], f :: t => some (f, { x with low := t })
  | none, [], [] => none

/-- An idle link starts its next frame. -/
def txKick (s : State) (p k : Nat) : State :=
  let t := cpPurge s p k
  let x := t.link p k
  if x.sending.isSome || !linkSends t p k then t
  else match nextFrame (frameReady t p) x with
    | some (f, y) => t.setLink p k { y with sending := some f }
    | none => t

/-- Queue a frame in its class: fronthaul kinds 0 to 2, the PTP queue 3, midhaul and pool 4 and 5. -/
def txQueue (s : State) (p k : Nat) (f : TxFrame) : State :=
  txKick (modLink s p k fun x =>
    if f.kind ≤ 2 then { x with fh := x.fh ++ [f] }
    else if f.kind = 3 then { x with ptp := x.ptp ++ [f] }
    else { x with low := x.low ++ [f] }) p k

/-- The engine takes midhaul transmit records in ring order (R466); one frame at a time waits on each link. -/
def midhaulTx (fuel : Nat) (s : State) (p : Nat) : State :=
  match fuel with
  | 0 => s
  | n + 1 =>
    let wr := midWord s p 0xC0008
    let rdc := midWord s p 0xC000C
    if wr = rdc then s
    else
      let pos := rdc % 262144
      let h := bytesRead 0 (s.port p).bank (0x80000 + pos) 16
      let l := rd h 0 2
      let k := rd h 2 1
      let go := fun (t : State) (d : Nat) => setMidWord t p 0xC000C ((rdc + d) % 2 ^ 32)
      if rd h 3 1 = 1 then midhaulTx n (go s (262144 - pos)) p
      else if l < 60 || s.paramPort p 0x0504 p < l + 4 || !hasLink s p k then
        midhaulTx n (go (modPort s p fun x => { x with midhaulTxBad := satAdd 32 x.midhaulTxBad 1 }) (midSpace l)) p
      else if !(s.link p k).low.isEmpty || !linkSends s p k then s
      else
        let b := bytesRead 0 (s.port p).bank (0x80000 + pos + 16) l
        midhaulTx n (txQueue (go s (midSpace l)) p k { kind := 4, bytes := b }) p

/-- Run the midhaul transmit ring of a MIDHAUL port. -/
def midhaulPump (s : State) (p : Nat) : State := if portRole s p = 1 then midhaulTx 4096 s p else s

/-! ## Lock, link state and error ratios (R114, R115, R136) -/

/-- PORT_LINK (R136, R167). -/
def portLinkEvt (s : State) (p k : Nat) (up : Bool) : State :=
  portEvt s p 0x0501 (leBytes 1 p ++ leBytes 1 k ++ leBytes 1 (b2n up))

/-- LANE_LOCK of step 2 for the lanes of a link. -/
def blockEvts (s : State) (p k : Nat) (up : Bool) : State :=
  (linkLanes s p k).foldl (fun t l => laneLockEvt t l 2 up) s

/-- A lane's recovered clock serves as a SyncE source: it may not while it is looped FAR or in a window (R116, R126). -/
def synceUsable (s : State) (l : Nat) : Bool := s.param 0x0402 l ≠ 3 && !maintOpen s (l / 4)

/-- BLOCK_LOCK (R114 step 3): every lane has clock recovery and, with FEC, codeword alignment. -/
def blockLock (s : State) (p k : Nat) : State :=
  let ls := linkLanes s p k
  let ok := ls.all fun l => laneClock s l && (!linkFec s p k || (s.lane l).codeword)
  if ls.isEmpty || s.linkUp p k || !ok then s
  else
    let s1 := blockEvts (modLink s p k fun x => { x with up := true }) p k true
    let s2 := ls.foldl (fun t l => if synceUsable t l then synceSignal t l true else t) s1
    midhaulPump (txKick (portLinkEvt s2 p k true) p k) p

/-- A link in high error ratio leaves it with its blocks: LANE_HI_SER, whose ratio no measurement gives (R115). -/
def hiSerExit (s : State) (p k : Nat) : State :=
  if !(s.link p k).hiSer then s
  else
    let (f, s1) := s.fresh
    let l := (linkLanes s p k).headD (4 * p + k)
    laneEvt (modLink s1 p k fun x => { x with hiSer := false, localFault := false }) l 0x0402
      (leBytes 1 l ++ [0] ++ leBytes 1 (Config.freeNat f))

/-- A link goes down (R136): queued PTP frames are discarded and counted; a fronthaul frame in progress has not been
sent and waits again, any other is lost. -/
def linkDown (s0 : State) (p k : Nat) : State :=
  if !s0.linkUp p k then s0
  else
    let s := hiSerExit s0 p k
    let ls := linkLanes s p k
    let n := (s.link p k).ptp.length
    let s1 := modLink s p k fun x =>
      { x with up := false, ptp := [], sending := none,
               fh := (x.sending.toList.filter fun f => decide (f.kind ≤ 1)) ++ x.fh }
    let s2 := modPort s1 p fun x => { x with ptpLost := satAdd 32 x.ptpLost n }
    let s3 := ls.foldl (fun t l =>
      let y := t.lane l
      synceSignal (t.setLane l { y with blockLost := satAdd 32 y.blockLost 1 }) l false) s2
    portLinkEvt (blockEvts s3 p k false) p k false

/-- A lane loses codeword alignment (R114, R115). -/
def codewordLost (s : State) (l : Nat) : State :=
  let x := s.lane l
  if !x.codeword then s
  else laneLockEvt (s.setLane l { x with codeword := false, markerLost := satAdd 32 x.markerLost 1 }) l 1 false

/-- Step 1 no longer holds on a link: it loses block lock, and every lane its codeword alignment (R114). -/
def linkToClock (s : State) (p k : Nat) : State := (linkLanes s p k).foldl codewordLost (linkDown s p k)

/-- CLOCK_RECOVERY_LOSS (R114): the link goes back to clock recovery, unless the lane bypasses it; an eye scan on the
lane ends (R123). -/
def clockRecoveryLoss (s : State) (l : Nat) : State :=
  if !(s.lane l).cdr then s
  else
    let s1 := prbsCount s l
    let s2 := if s.param 0x0402 l = 2 then s1 else linkToClock s1 (l / 4) (linkOfLane (s.portMode (l / 4)) l)
    let y := s2.lane l
    let s3 := s2.setLane l { y with cdr := false, prbsLock := false, cdrLost := satAdd 32 y.cdrLost 1 }
    abortLaneScan (laneLockEvt s3 l 0 false) l 3

/-- CODEWORD_LOCK_LOSS (R114 step 2). -/
def codewordLockLoss (s : State) (l : Nat) : State :=
  if !(s.lane l).codeword then s
  else codewordLost (linkDown s (l / 4) (linkOfLane (s.portMode (l / 4)) l)) l

/-! ## Lane parameters and entries (R112, R113, R118, R119) -/

/-- What a write of a lane parameter does besides storing the value; `old` is the value before. -/
def laneParamEffect (s : State) (id l old v : Nat) : State :=
  match id with
  | 0x0401 => s.setLane l { s.lane l with pendingEntry := some v }
  | 0x0402 =>
    if old = v then s
    else
      let s0 := abortLaneScan s l 5
      -- a lane that no longer bypasses clock recovery takes its link back to that step
      let s1 := if old = 2 && !(s0.lane l).cdr then linkToClock s0 (l / 4) (linkOfLane (s0.portMode (l / 4)) l) else s0
      if v = 3 then synceSignal s1 l false
      else if old = 3 && synceUsable s1 l && s1.linkUp (l / 4) (linkOfLane (s1.portMode (l / 4)) l) then synceSignal s1 l true
      else s1
  | _ => s.setLane l { s.lane l with prbsErr := 0, prbsCmp := 0, prbsLock := false }

/-- EQ_ENTRY_APPLIED (R113): the entry takes effect, and clock recovery is lost and acquires again. -/
def eqEntryApplied (s : State) (l : Nat) : State :=
  let x := s.lane l
  match x.pendingEntry with
  | none => s
  | some e =>
    let s1 := clockRecoveryLoss (abortLaneScan s l 2) l
    laneEvt (s1.setLane l { s1.lane l with entry := e, pendingEntry := none })
      l 0x0404 (leBytes 1 l ++ leBytes 1 x.entry ++ leBytes 1 e)

/-- floor(-10 × log10 of a ratio) as a u8 (R130). -/
def ratioByte (num den : Nat) : Nat :=
  if num = 0 || den = 0 then 255
  else ((List.range 256).filter fun m => decide (num ^ 10 * 10 ^ m ≤ den ^ 10)).length - 1

/-- SER_WINDOW_END (R115): count, and report entry to or exit from high error ratio. -/
def serWindowEnd (s : State) (p k : Nat) (m : SerMeas) : State :=
  let ls := linkLanes s p k
  if ls.isEmpty || !s.linkUp p k then s
  else
    let fec := linkFec s p k
    let corr := m.corrected.foldl (· + ·) 0
    let s1 := ls.zipIdx.foldl (fun t (l, i) =>
      let x := t.lane l
      t.setLane l { x with
        badHeaders := satAdd 32 x.badHeaders (if fec then 0 else m.badHeaders)
        corrSymbols := satAdd 32 x.corrSymbols (if fec then m.corrected.getD i 0 else 0)
        corrWords := satAdd 32 x.corrWords (if fec then m.corrWords else 0)
        uncorrWords := satAdd 32 x.uncorrWords (if fec then m.uncorrWords else 0) }) s
    let hi :=
      if fec then decide (m.symbols < corr * 10 ^ s.param 0x0406 0)
      else if s.portMode p = 5 then decide (16 ≤ m.badHeaders) else decide (97 ≤ m.badHeaders)
    let was := (s.link p k).hiSer
    if hi = was then s1
    else
      laneEvt (modLink s1 p k fun x => { x with hiSer := hi, localFault := hi && !fec }) (ls.headD 0) 0x0402
        (leBytes 1 (ls.headD 0) ++ leBytes 1 (b2n hi) ++
          leBytes 1 (if fec then ratioByte corr m.symbols else ratioByte m.badHeaders m.blocks))

/-- A powered lane takes its saved trims and is ready (R128). -/
def restoreTrims (s : State) (l : Nat) : State :=
  if lanePowered s l && (s.lane l).trims then s.setLane l { s.lane l with calibrated := true } else s

/-- LANE_GROUP_READY (R128): the lanes of a powered group have their saved trims again and are ready to acquire clock
recovery. -/
def laneGroupReady (s : State) (g : Nat) : State := (List.range 16).foldl (fun t i => restoreTrims t (16 * g + i)) s

/-! ## Maintenance windows (R116, R117) -/

/-- LANE_MAINT (R130). -/
def maintEvt (s : State) (p st : Nat) : State := laneEvt s (4 * p) 0x0406 (leBytes 1 p ++ leBytes 1 st)

/-- References that a port carries: SyncE candidates on its lanes and PTP slots that name it. -/
def portRefs (s : State) (p : Nat) (up : Bool) : State :=
  let s1 := (List.range 4).foldl (fun t i =>
    let l := 4 * p + i
    if up && !(synceUsable t l && t.linkUp p (linkOfLane (t.portMode p) l)) then t else synceSignal t l up) s
  if up then s1
  else (List.range 8).foldl (fun t i =>
    if t.paramTime 0x020D i = p then updInput t (i / 4) (20 + i % 4) (RefInput.vanish (t.dom (i / 4))) false else t) s1

/-- Open a window. -/
def openMaint (s : State) (p : Nat) : State :=
  let s1 := { s with lanes := { s.lanes with maint := mapSet s.lanes.maint p s.now } }
  maintEvt (portRefs s1 p false) p 1

/-- Put a lane parameter back, with what a write of it does. -/
def laneParamClear (s : State) (id l : Nat) : State :=
  let old := s.param id l
  if old = 0 then s else laneParamEffect (s.setParam id l 0) id l old 0

/-- Close a window (R117): loops and patterns return to NONE and OFF; cause 0 command, 2 timeout, 3 warm start. -/
def closeMaint (s : State) (p cause : Nat) : State :=
  if !maintOpen s p then s
  else
    let s1 := (List.range 4).foldl (fun t i =>
      laneParamClear (laneParamClear (laneParamClear t 0x0402 (4 * p + i)) 0x0403 (4 * p + i)) 0x0404 (4 * p + i)) s
    let s2 := { s1 with lanes := { s1.lanes with maint := mapDel s1.lanes.maint p } }
    let s3 := maintEvt (portRefs s2 p true) p cause
    midhaulPump ((List.range 4).foldl (fun t k => txKick t p k) s3) p

/-- MAINT_TIMEOUT (R117). -/
def maintTimeout (s : State) (p : Nat) : State :=
  match mapGet? s.lanes.maint p with
  | some t => if decide (s.now < t + s.param 0x0408 0 * tcS) then s else closeMaint s p 2
  | none => s

/-- LANE_MAINT_CLOSE (R117). -/
def cmdMaintClose (rq : Req) (_ : List Byte) (s : State) : State := replyOk (closeMaint s rq.inst 0) rq []

/-! ## PTP queue commands (R465) -/

/-- PTP transmit frames that wait on a port. -/
def ptpWaiting (s : State) (p : Nat) : Nat :=
  let x := s.port p
  (x.link0.ptp.length + x.link1.ptp.length) + (x.link2.ptp.length + x.link3.ptp.length)

/-- PTP_SEND (R137, R465); a frame for a link that is down is discarded and counted (R136). -/
def cmdPtpSend (rq : Req) (b : List Byte) (s : State) : State :=
  let p := rq.inst
  let k := rd b 0 1
  if !hasLink s p k then refuse s rq dzBadParam 0
  else if 128 ≤ ptpWaiting s p then refuse s rq dzBusy 0
  else
    let s1 := if s.linkUp p k then txQueue s p k { kind := 3, bytes := b.drop 4 }
      else modPort s p fun x => { x with ptpLost := satAdd 32 x.ptpLost 1 }
    replyOk s1 rq (leBytes 2 (128 - ptpWaiting s1 p))

/-- One entry as PTP_RECV returns it (R465). -/
def ptpEntryBytes (e : PtpEntry) : List Byte :=
  let d := if e.kind = 0 then padTo (4 * ceilDiv e.bytes.length 4) e.bytes else e.bytes
  leBytes 1 e.kind ++ leBytes 1 e.link ++ leBytes 2 d.length ++ leBytes 4 e.stamp ++ d

/-- The oldest entries that fit: how many, and their bytes. -/
def ptpTake (l : List PtpEntry) (want room : Nat) : Nat × List Byte :=
  match l, want with
  | e :: t, n + 1 =>
    let b := ptpEntryBytes e
    if room < b.length then (0, [])
    else
      let r := ptpTake t n (room - b.length)
      (r.1 + 1, b ++ r.2)
  | _, _ => (0, [])

/-- PTP_RECV (R465). -/
def cmdPtpRecv (rq : Req) (b : List Byte) (s : State) : State :=
  let x := s.port rq.inst
  let r := ptpTake x.ptpRx (rd b 0 2) 4076
  let rest := x.ptpRx.drop r.1
  replyOk (s.setPort rq.inst { x with ptpRx := rest, ptpOver := x.ptpOver && !rest.isEmpty }) rq r.2

end Sys2Proof.Machine
end

