-- ==== Sys2Proof/Machine/Fronthaul.lean ====
section
/-! DEFINITION. Fronthaul (R132, R138 to R164, R333 to R336): classification and parser, compression and gain, receive
windows and uplink staging, transmit windows and downlink staging, C-plane, and the doorbells.  Message layouts inside
the eCPRI payload are those of eCPRI 2.0 and O-RAN CUS (`notes/assumptions/10.md`). -/

namespace Sys2Proof.Machine

/-! ## Carriers and contexts as an engine holds them -/

/-- Sort numbers ascending. -/
def insertNat (v : Nat) (l : List Nat) : List Nat :=
  match l with
  | [] => [v]
  | h :: t => if v ≤ h then v :: h :: t else h :: insertNat v t

def sortNat (l : List Nat) : List Nat := l.foldr insertNat []

/-- Instances of a parameter that differ from their default somewhere, ascending. -/
def listedInst (s : State) (id : Nat) : List Nat :=
  let set := match s.cfg.commit with | some k => k.set | none => []
  sortNat (dedupNat ((s.cfg.params ++ set).filterMap fun e => if e.1 / 65536 = id then some (e.1 % 65536) else none))

/-- The engine that serves a carrier: that of its port, staged once that engine has swapped (R474). -/
def carrierPort (s : State) (c : Nat) : Option Nat :=
  let old := s.param 0x0607 c
  let q := match s.cfg.commit with
    | some k =>
      let new := s.paramWith k.set 0x0607 c
      if k.swapped.contains (unitId 2 new) then new else old
    | none => old
  if q < 64 then some q else none

/-- The link of a carrier. -/
def carrierLink (s : State) (p c : Nat) : Nat := s.paramPort p 0x0608 c

/-- Carriers bound to a link of a port. -/
def linkCarriers (s : State) (p k : Nat) : List Nat :=
  (listedInst s 0x0607).filter fun c => s.paramPort p 0x0607 c = p && carrierLink s p c = k

/-- eAxC contexts of a carrier, ascending. -/
def carrierEaxcs (s : State) (p c : Nat) : List Nat := (listedInst s 0x061C).filter fun x => s.paramPort p 0x061C x = c

/-- ANTENNA contexts of a carrier. -/
def antennas (s : State) (p c : Nat) : List Nat := (carrierEaxcs s p c).filter fun x => s.paramPort p 0x061E x = 0

/-- The ANTENNA context of a stream. -/
def antennaOf (s : State) (p c st : Nat) : Option Nat := (antennas s p c).find? fun x => s.paramPort p 0x061F x = st

def eaxcOf (s : State) (x : Nat) : Eaxc := mapGet s.ports.eaxcs x {}
def modEaxc (s : State) (x : Nat) (f : Eaxc → Eaxc) : State :=
  { s with ports := { s.ports with eaxcs := mapMod s.ports.eaxcs x {} f } }

/-- PRBs of a carrier. -/
def prbCount (s : State) (p c : Nat) : Nat := s.paramPort p 0x0609 c

/-! ## Staging areas (R155) -/

def areaBuffers (s : State) (p c a : Nat) : Nat := s.paramPort p 0x0618 (3 * c + a)
def areaGroup (s : State) (p c a : Nat) : Nat := s.paramPort p 0x0619 (3 * c + a)
/-- Groups per symbol G. -/
def areaGroups (s : State) (p c a : Nat) : Nat := ceilDiv (antennas s p c).length (areaGroup s p c a)
/-- Buffer size in units of 4 KiB. -/
def bufUnits (s : State) (p c a : Nat) : Nat :=
  match a with
  | 0 => ceilDiv (areaGroup s p c 0 * prbCount s p c * 48) 4096
  | 1 => ceilDiv (areaGroup s p c 1 * (32 + prbCount s p c * 48)) 4096
  | _ => 1
/-- Offset of buffer r in the staging bank. -/
def bufAddr (s : State) (p c a r : Nat) : Nat := (s.paramPort p 0x0617 (3 * c + a) + r * bufUnits s p c a) * 4096
/-- The buffer of group q of running symbol K. -/
def bufOf (s : State) (p c a : Nat) (k : Int) (q : Nat) : Nat :=
  ((k * ((areaGroups s p c a : Nat) : Int) + (q : Nat)) % ((areaBuffers s p c a : Nat) : Int)).toNat
/-- Streams of group q. -/
def groupStreams (s : State) (p c a q : Nat) : List Nat :=
  (List.range (areaGroup s p c a)).filterMap fun i =>
    let st := q * areaGroup s p c a + i
    if st < (antennas s p c).length then some st else none

/-- Timing of a carrier at an engine, and the running symbol count (R155). -/
def fhTime (s : State) (p c : Nat) : CarrierTime := s.carrierTime (unitId 2 p) c
def CarrierTime.symIndex (t : CarrierTime) (f : Int) (j : Nat) : Int := f * ((t.num.perFrame : Nat) : Int) + (j : Nat)
/-- Start of a running symbol. -/
def CarrierTime.startOf (t : CarrierTime) (k : Int) : Int :=
  t.symStart (k / ((t.num.perFrame : Nat) : Int)) (k % ((t.num.perFrame : Nat) : Int)).toNat
/-- Slot count and symbol in the slot of a running symbol. -/
def CarrierTime.slotOf (t : CarrierTime) (k : Int) : Int × Nat :=
  (k / ((t.num.perSlot : Nat) : Int), (k % ((t.num.perSlot : Nat) : Int)).toNat)

/-- The device has sent C-plane that covers a symbol in a direction (R154, R161). -/
def covered (s : State) (c dir : Nat) (slot : Int) (sym : Nat) : Bool :=
  (s.cfh c).announced.any fun a =>
    a.dir = dir && a.slot = slot && (dir = 1 || a.secType = 1 || a.secType = 3) && decide (a.start ≤ sym) &&
    decide (sym < a.start + a.num)

/-- A handled-once guard: the running count lies above the last one handled. -/
def above (last : Option Int) (k : Int) : Bool := match last with | some l => decide (l < k) | none => true

/-! ## Gain (R333 to R335) -/

/-- The multiplier M = round(2^16 × 10^(G / 5,120)) of a gain code G (R333): the largest M with
(2M − 1) / 2^17 ≤ 10^(G / 5,120); 10^(G / 5,120) is rational only at multiples of 20 dB, where no tie arises. -/
def gainM (g : Int) : Int :=
  (largest 18 fun m => decide ((2 * m - 1) ^ 5120 * 10 ^ (-g).toNat ≤ 131072 ^ 5120 * 10 ^ g.toNat) : Nat)

/-- A component after gain, and whether it saturated. -/
def gainApply (m x : Int) : Int × Bool :=
  let y := roundAway (((x * m : Int) : Rat) / 65536)
  (clampInt (-32768) 32767 y, decide (y < -32768) || decide (32767 < y))

/-- Count saturated components; RADIO_GAIN_SAT at most once per 10 ms per carrier (R335). -/
def gainSat (s : State) (p c x ul dl : Nat) : State :=
  if ul + dl = 0 then s
  else
    let s1 := modEaxc s x fun e => { e with satUl := satAdd 32 e.satUl ul, satDl := satAdd 32 e.satDl dl }
    let y := s1.cfh c
    let due := match y.satAt with | some t => decide (t + 19660800 ≤ s.now) | none => true
    if due then
      portEvt (s1.setCfh c { y with satUl := 0, satDl := 0, satAt := some s.now }) p 0x0A01
        (leBytes 2 c ++ leBytes 4 (satAdd 32 y.satUl ul) ++ leBytes 4 (satAdd 32 y.satDl dl))
    else s1.setCfh c { y with satUl := satAdd 32 y.satUl ul, satDl := satAdd 32 y.satDl dl }

/-! ## Compression (R149 to R152) -/

/-- Bytes per PRB. -/
def prbBytes (meth w : Nat) : Nat := if meth = 0 then 48 else if meth = 1 then 1 + 3 * w else 3 * w

/-- Mantissa i of a PRB's packed components. -/
def mantissa (bs : List Byte) (w i : Nat) : Int := toSigned w (beNat bs / 2 ^ (w * (23 - i)))

/-- One PRB decompressed: 24 components, and how many saturated (R150). -/
def decompress (meth w : Nat) (bs : List Byte) : List Int × Nat :=
  let e := if meth = 1 then rd bs 0 1 % 16 else 0
  let w1 := if meth = 1 then w else 16
  let d := if meth = 1 then slice bs 1 (3 * w) else slice bs 0 48
  let v := (List.range 24).map fun i => mantissa d w1 i * ((2 ^ e : Nat) : Int)
  (v.map (clampInt (-32768) 32767), (v.filter fun x => decide (x < -32768) || decide (32767 < x)).length)

/-- Components packed into w bits each, big-endian. -/
def pack (w : Nat) (v : List Int) : List Byte :=
  beBytes (3 * w) (v.foldl (fun a x => a * 2 ^ w + ofSigned w x) 0)

/-- The exponent that R151 chooses, and whether one fits. -/
def bfpExp (w : Nat) (v : List Int) : Nat × Bool :=
  let hi : Int := (2 ^ (w - 1) : Nat) - 1
  let lo : Int := -((2 ^ (w - 1) : Nat) : Int)
  let ok := fun (e : Nat) => v.all fun x =>
    let m := roundAway ((x : Rat) / ((2 ^ e : Nat) : Rat))
    decide (lo ≤ m) && decide (m ≤ hi)
  match (List.range 16).find? ok with
  | some e => (e, true)
  | none => (15, false)

/-- One PRB compressed with BFP. -/
def bfpPrb (w : Nat) (v : List Int) : List Byte :=
  let hi : Int := (2 ^ (w - 1) : Nat) - 1
  let lo : Int := -((2 ^ (w - 1) : Nat) : Int)
  let e := (bfpExp w v).1
  leBytes 1 e ++ pack w (v.map fun x => clampInt lo hi (roundAway ((x : Rat) / ((2 ^ e : Nat) : Rat))))

/-- One component's MODCOMP code (R152); a step of 0 has no quotient, so the code is then a free value. -/
def modcompCode (w sigma : Nat) (x : Int) : Int :=
  let top : Int := (2 ^ w : Nat)
  if sigma = 0 then (Config.freeNat (ofSigned 16 x) : Int) % top
  else min (top - 1) (max 0 ((((x : Rat) / (sigma : Rat) + (top : Rat)) / 2).floor))

/-- One PRB of a downlink section: method, width, step. -/
def compressPrb (meth w sigma : Nat) (v : List Int) : List Byte :=
  if meth = 0 then pack 16 v else if meth = 1 then bfpPrb w v else pack w (v.map (modcompCode w sigma))

/-! ## Parser (R139 to R142, R146) -/

/-- An implied length against the given one (R140): 8 LEN_SHORT, 9 LEN_LONG. -/
def lenCheck (implied given : Nat) (outer : Bool) : Option Nat :=
  if given < implied then some 8 else if implied < given then (if outer && given = 64 then none else some 9) else none

/-- Ones'-complement sum of 16-bit words. -/
def onesSum (bs : List Byte) : Nat :=
  match bs with
  | [] => 0
  | [a] => a.toNat * 256
  | a :: b :: t =>
    let x := onesSum t + a.toNat * 256 + b.toNat
    if 65535 < x then x - 65535 else x

/-- UDP checksum is right, or absent over IPv4 (R139 step 10). -/
def udpSumOk (b : List Byte) (v4 : Bool) : Bool :=
  let h := ethLen b
  let u := udpOffset b
  let n := rdBe b (u + 4) 2
  let c := rdBe b (u + 6) 2
  let pseudo := (if v4 then slice b (h + 12) 8 else slice b (h + 8) 32) ++ beBytes 4 n ++ [0, 17]
  if c = 0 then v4 else onesSum (pseudo ++ (if n % 2 = 0 then slice b u n else slice b u n ++ [0])) = 0xFFFF

/-- The first IP or UDP check that fails (R139 steps 3 to 11). -/
def ipCheck (s : State) (p k : Nat) (b : List Byte) : Option Nat :=
  let h := ethLen b
  let v4 := etherType b = 0x0800
  let u := udpOffset b
  let l := b.length
  let total := rdBe b (h + 2) 2
  let plen := rdBe b (h + 4) 2
  let ulen := rdBe b (u + 4) 2
  let addr := if v4 then rdBe b (h + 16) 4 = s.paramPort p 0x0505 p
    else rdBe b (h + 24) 8 = s.paramPort p 0x0506 (2 * p) && rdBe b (h + 32) 8 = s.paramPort p 0x0506 (2 * p + 1)
  if (if v4 then rd b h 1 ≠ 0x45 else rd b h 1 / 16 ≠ 6) then some 3
  else if !v4 && rd b (h + 6) 1 ≠ 17 then some 4
  else if v4 && rdBe b (h + 6) 2 % 2 ^ 14 ≠ 0 then some 5
  else if !addr then some 6
  else if v4 && onesSum (slice b h 20) ≠ 0xFFFF then some 7
  else match lenCheck (if v4 then h + total + 4 else h + 40 + plen + 4) l true with
    | some r => some r
    | none =>
      if (if v4 then total ≠ ulen + 20 else plen ≠ ulen) then some 10
      else if !udpSumOk b v4 then some 11
      else if !(linkCarriers s p k).any fun c => s.paramPort p 0x060E c = rdBe b (u + 2) 2 then some 12
      else none

/-- Offset of the eCPRI header. -/
def ecpriOffset (b : List Byte) : Nat := if etherType b = 0xAEFE then ethLen b else udpOffset b + 8

/-- The eCPRI payload size s. -/
def ecpriSize (b : List Byte) : Nat := rdBe b (ecpriOffset b + 2) 2

/-- The first of steps 1 to 14 that fails (R139). -/
def headParse (s : State) (p k : Nat) (b : List Byte) : Option Nat :=
  let et := etherType b
  let ip := et = 0x0800 || et = 0x86DD
  let o := ecpriOffset b
  if isTpid et then some 1
  else if !(ip || et = 0xAEFE) then some 2
  else match (if ip then ipCheck s p k b else none) with
    | some r => some r
    | none =>
      if rd b o 1 / 16 ≠ 1 || bit (rd b o 1) 0 then some 13
      else if rd b (o + 1) 1 ≠ 0 && rd b (o + 1) 1 ≠ 5 then some 14
      else if ip then lenCheck (8 + 4 + ecpriSize b) (rdBe b (udpOffset b + 4) 2) false
      else lenCheck (ethLen b + 4 + ecpriSize b + 4) b.length true

/-- One section: first PRB, PRBs, and offset of its data in the frame. -/
structure Section where
  start : Nat
  num : Nat
  data : Nat

/-- Step 16 over the sections: rb and symInc of each that the payload reaches are 0 (R146). -/
def sectionHeadsOk (s : State) (p prbs : Nat) (b : List Byte) (fuel off left : Nat) : Bool :=
  match fuel with
  | 0 => true
  | n + 1 =>
    if left < 4 then true
    else
      let x := rdBe b off 3
      let np := rd b (off + 3) 1
      let hdr := if s.paramPort p 0x0605 p = 1 then 6 else 4
      let num := if np = 0 then prbs - x % 1024 else np
      let size := hdr + num * prbBytes (s.paramPort p 0x0601 p) (s.paramPort p 0x0602 p)
      x / 1024 % 4 = 0 && sectionHeadsOk s p prbs b n (off + size) (left - size)

/-- Steps 17 to 19 over the sections, in order; `off` and `left` give what remains of the payload. -/
def parseSections (s : State) (p prbs : Nat) (b : List Byte) (fuel off left : Nat) : Option Nat × List Section :=
  match fuel with
  | 0 => (none, [])
  | n + 1 =>
    if left = 0 then (none, [])
    else if left < 4 then (some 9, [])
    else
      let meth := s.paramPort p 0x0601 p
      let w := s.paramPort p 0x0602 p
      let hdr := if s.paramPort p 0x0605 p = 1 then 6 else 4
      let x := rdBe b off 3
      let start := x % 1024
      let np := rd b (off + 3) 1
      let num := if np = 0 then prbs - start else np
      let size := hdr + num * prbBytes meth w
      let cw := rd b (off + 4) 1
      let width := if cw / 16 = 0 then 16 else cw / 16
      if left < size then (some 17, [])
      else if (np = 0 && start ≠ 0) || prbs < start + num then (some 18, [])
      else if hdr = 6 && (width ≠ (if meth = 0 then 16 else w) || cw % 16 ≠ meth) then (some 19, [])
      else
        let r := parseSections s p prbs b n (off + size) (left - size)
        (r.1, { start := start, num := num, data := off + hdr } :: r.2)

/-- Contexts of a link that a PC_ID names. -/
def linkContexts (s : State) (p k pc : Nat) : List Nat :=
  (listedInst s 0x061C).filter fun x =>
    let c := s.paramPort p 0x061C x
    decide (c < 1024) && s.paramPort p 0x0607 c = p && carrierLink s p c = k && s.paramPort p 0x061D x = pc

/-- A type 0 message that passes steps 15 and 16: context, carrier and header fields. -/
structure UMsg where
  x : Nat
  c : Nat
  filter : Nat
  frame : Nat
  sub : Nat
  slot : Nat
  sym : Nat

/-- Slots per subframe of a carrier (R87). -/
def CarrierTime.perSub (t : CarrierTime) : Nat := t.num.slots / 10

/-- Steps 15 and 16 (R139, R146). -/
def parseType0 (s : State) (p k : Nat) (b : List Byte) : Nat ⊕ UMsg :=
  let o := ecpriOffset b + 4
  let pl := fun (i n : Nat) => if ecpriSize b < i + n then 0 else rdBe b (o + i) n
  let cs := linkContexts s p k (pl 0 2)
  let b4 := pl 4 1
  let f := b4 % 16
  let z := pl 6 2
  if cs.isEmpty then .inl 15
  else match cs.find? fun x => s.paramPort p 0x061E x = (if f = 0 then 0 else 1) with
    | none => .inl 16
    | some x =>
      let c := s.paramPort p 0x061C x
      let t := fhTime s p c
      if pl 3 1 ≠ 0x80 || b4 / 128 ≠ 0 || b4 / 16 % 8 ≠ 1 || 9 < z / 4096 || t.perSub ≤ z / 64 % 64 ||
          t.num.perSlot ≤ z % 64 then .inl 16
      else .inr { x := x, c := c, filter := f, frame := pl 5 1, sub := z / 4096, slot := z / 64 % 64, sym := z % 64 }

/-! ## Exception ring (R143) -/

/-- Count a parser reason and offer the frame to the exception ring. -/
def parserFail (s : State) (p k : Nat) (b : List Byte) (r : Nat) : State :=
  let s1 := modPort s p fun x => { x with reasons := mapMod x.reasons r 0 (satAdd 32 1) }
  let x := s1.port p
  let recent := match x.excAt with | some t => decide (s.now < t + 19661) | none => false
  if 256 ≤ x.exc.length then s1.setPort p { x with excRingFull := satAdd 32 x.excRingFull 1 }
  else if recent then s1.setPort p { x with excRateLimited := satAdd 32 x.excRateLimited 1 }
  else
    let e : ExcEntry := { at_ := s.now, len := b.length, reason := r, link := k, bytes := b.take 256 }
    let s2 := s1.setPort p { x with exc := x.exc ++ [e], excAt := some s.now }
    if x.exc.isEmpty then portEvt s2 p 0x0601 (leBytes 1 p ++ leBytes 1 r) else s2

/-! ## Uplink staging (R153 to R159) -/

/-- Add to FH_RX_TIMING's counts and raise it at most once per 10 ms per carrier (R167). -/
def rxTiming (s : State) (p c early late missing : Nat) : State :=
  if early + late + missing = 0 then s
  else
    let y := s.cfh c
    let e := satAdd 16 y.rxEarly early
    let l := satAdd 16 y.rxLate late
    let m := satAdd 32 y.rxMissing missing
    let due := match y.rxTimingAt with | some t => decide (t + 19660800 ≤ s.now) | none => true
    if due then
      portEvt (s.setCfh c { y with rxEarly := 0, rxLate := 0, rxMissing := 0, rxTimingAt := some s.now }) p 0x0602
        (leBytes 2 c ++ leBytes 2 e ++ leBytes 2 l ++ leBytes 4 m)
    else s.setCfh c { y with rxEarly := e, rxLate := l, rxMissing := m }

def ulBuf (s : State) (c r : Nat) : UlBuf := mapGet (s.cfh c).ul r {}
def setUlBuf (s : State) (c r : Nat) (u : UlBuf) : State := modCfh s c fun x => { x with ul := mapSet x.ul r u }

/-- Claim a buffer for a group: every valid bit clear, gains sampled (R156, R334). -/
def claimBuf (s : State) (p c r : Nat) (k : Int) (q : Nat) (rest : List (Int × Nat × Bool)) : State :=
  let gains := (groupStreams s p c 0 q).map fun st =>
    (st, match antennaOf s p c st with | some x => s.paramInt 0x0A01 x | none => 0)
  let u := ulBuf s c r
  let s1 := match u.group with
    | some g =>
      if above (s.cfh c).lastRx g.1 then
        modCfh s c fun x => { x with ulDone := x.ulDone ++ [{ group := g, valid := u.valid, complete := u.complete }] }
      else s
    | none => s
  setUlBuf s1 c r { group := some (k, q), released := false, valid := [], complete := false, waiting := rest, gains := gains }

/-- What is known of a group whose buffer was released before its window closed: while the buffer has no new group, or
after (R156, R157). -/
def ulDone? (s : State) (c r : Nat) (k : Int) (q : Nat) : Option UlDone :=
  let u := ulBuf s c r
  if u.group = some (k, q) then
    if u.released then some { group := (k, q), valid := u.valid, complete := u.complete } else none
  else (s.cfh c).ulDone.find? fun d => d.group = (k, q)

/-- The group that holds a buffer is complete: its flag is set (R157). -/
def completeGroup (s : State) (p c r : Nat) : State :=
  let u := ulBuf s c r
  if u.complete then s
  else flagSetOp (setUlBuf s c r { u with complete := true }) (s.paramPort p 0x061A c) ((s.paramPort p 0x061B c + r) % 256)

/-- A group needs a buffer that is not released: it waits, and FH_STAGING_OVERRUN is raised once (R159). -/
def waitBuf (s : State) (p c r : Nat) (k : Int) (q : Nat) (closed : Bool) : State :=
  let u := ulBuf s c r
  if u.waiting.any fun w => w.1 = k && w.2.1 = q then
    setUlBuf s c r { u with waiting := u.waiting.map fun w => if w.1 = k && w.2.1 = q then (k, q, w.2.2 || closed) else w }
  else
    portEvt (setUlBuf s c r { u with waiting := u.waiting ++ [(k, q, closed)] }) p 0x0603
      (leBytes 2 c ++ [0] ++ leBytes 1 r)

/-- Samples as staged: ci16 elements. -/
def ci16Bytes (v : List Int) : List Byte := v.flatMap fun x => leInt 2 x

/-- Write one PRB of a section into the claimed buffer of its stream (R150, R156). -/
def stagePrb (s : State) (p c x st r prb : Nat) (bs : List Byte) : State :=
  let u := ulBuf s c r
  let idx := st % areaGroup s p c 0
  if u.valid.contains (idx * 512 + prb) then modEaxc s x fun e => { e with duplicate := satAdd 32 e.duplicate 1 }
  else
    let d := decompress (s.paramPort p 0x0601 p) (s.paramPort p 0x0602 p) bs
    let m := gainM (mapGet u.gains st 0)
    let g := d.1.map (gainApply m)
    let a := bufAddr s p c 0 r + idx * prbCount s p c * 48 + prb * 48
    let s1 := modPort s p fun y => { y with bank := bytesWrite 0 y.bank a (ci16Bytes (g.map fun v => v.1)) }
    let s2 := setUlBuf s1 c r { u with valid := u.valid ++ [idx * 512 + prb] }
    let s3 := modEaxc s2 x fun e => { e with decompSat := satAdd 32 e.decompSat d.2 }
    gainSat s3 p c x (g.filter fun v => v.2).length 0

/-- PRBs of the sections of a message, with the offset of each in the frame. -/
def sectionPrbs (secs : List Section) (size : Nat) : List (Nat × Nat) :=
  secs.flatMap fun e => (List.range e.num).map fun i => (e.start + i, e.data + i * size)

/-- UPLANE_STAGING: an on-time message of an ANTENNA context (R156, R159). -/
def stageMessage (s : State) (p : Nat) (m : UMsg) (k : Int) (secs : List Section) (b : List Byte) : State :=
  let c := m.c
  let st := s.paramPort p 0x061F m.x
  let onTime := modEaxc s m.x fun e => { e with onTime := satAdd 32 e.onTime 1 }
  if areaBuffers s p c 0 = 0 then onTime
  else
    let q := st / areaGroup s p c 0
    let r := bufOf s p c 0 k q
    let u := ulBuf s c r
    let size := prbBytes (s.paramPort p 0x0601 p) (s.paramPort p 0x0602 p)
    let write := fun (t : State) =>
      let t1 := (sectionPrbs secs size).foldl (fun z e => stagePrb z p c m.x st r e.1 (slice b e.2 size)) t
      if (ulBuf t1 c r).valid.length = (groupStreams s p c 0 q).length * prbCount s p c then completeGroup t1 p c r else t1
    match ulDone? s c r k q with
    | some d =>
      let dup := ((sectionPrbs secs size).filter fun e => d.valid.contains (st % areaGroup s p c 0 * 512 + e.1)).length
      modEaxc onTime m.x fun e => { e with duplicate := satAdd 32 e.duplicate dup }
    | none =>
    if u.group = some (k, q) then write onTime
    else if u.released then write (claimBuf onTime p c r k q u.waiting)
    else modEaxc (waitBuf s p c r k q false) m.x fun e => { e with overrun := satAdd 32 e.overrun 1 }

/-! ## PRACH input (R339 to R341) -/

/-- Sequence length of a format (R340). -/
def prachLen (fmt : Nat) : Nat := if fmt ≤ 4 then 839 else 139

/-- Parameter instance of detector group f of a carrier (R348). -/
def prachInst (c f : Nat) : Nat := c * 16 + f

/-- The gain of a PRACH context's symbol K: that sampled at its first on-time message, which this one is if none is kept
(R334). -/
def prachGainOf (s : State) (c x : Nat) (k : Int) : Int × State :=
  match (s.cfh c).prachGain.find? fun g => g.1 = x && g.2.1 = k with
  | some g => (g.2.2, s)
  | none =>
    let v := s.paramInt 0x0A01 x
    (v, modCfh s c fun y => { y with prachGain := y.prachGain ++ [(x, k, v)] })

/-- The occasion of a group covers a symbol of a slot (R341). -/
def Occasion.covers (o : Occasion) (f : Nat) (slot : Int) (sym : Nat) : Bool :=
  o.group = f && o.slot = slot && decide (o.start ≤ sym) && decide (sym < o.start + o.num)

/-- An on-time message of a PRACH context: every section is decompressed and given its gain (R334, R335), and the first
L_RA samples of the first section join the occasion that covers the symbol (R341).  A second message of a stream for
one symbol is counted and has no other effect (`notes/assumptions/73.md`). -/
def prachMessage (s : State) (p : Nat) (m : UMsg) (k slot : Int) (secs : List Section) (b : List Byte) : State :=
  let c := m.c
  let l := prachLen (s.paramPort p 0x0A04 (prachInst c m.filter))
  let s0 := modEaxc s m.x fun e => { e with onTime := satAdd 32 e.onTime 1 }
  let again := (s0.cfh c).prachIn.any fun o => o.covers m.filter slot m.sym && o.input.any fun i => i.eaxc = m.x && i.sym = m.sym
  if again then s0
  else
    let g := prachGainOf s0 c m.x k
    let meth := s.paramPort p 0x0601 p
    let w := s.paramPort p 0x0602 p
    let size := prbBytes meth w
    let prbs := fun (e : Section) => (List.range e.num).map fun i => decompress meth w (slice b (e.data + i * size) size)
    let gained := fun (e : Section) => (prbs e).flatMap fun d => d.1.map (gainApply (gainM g.1))
    let dsat := secs.foldl (fun a e => a + (prbs e).foldl (fun n d => n + d.2) 0) 0
    let gsat := secs.foldl (fun a e => a + ((gained e).filter fun v => v.2).length) 0
    let s1 := gainSat (modEaxc g.2 m.x fun y => { y with decompSat := satAdd 32 y.decompSat dsat }) p c m.x gsat 0
    match secs with
    | [] => s1
    | e :: _ =>
      if e.num * 12 < l then modEaxc s1 m.x fun y => { y with prachShort := satAdd 32 y.prachShort 1 }
      else
        let comp := gained e
        let pts := (List.range l).map fun i => ((comp.getD (2 * i) (0, false)).1, (comp.getD (2 * i + 1) (0, false)).1)
        let join := fun (o : Occasion) =>
          if o.covers m.filter slot m.sym then
            { o with input := o.input ++ [{ eaxc := m.x, sym := m.sym, samples := pts }] }
          else o
        modCfh s1 c fun y => { y with prachIn := y.prachIn.map join }

/-! ## Received messages -/

/-- The occurrence of a message's symbol whose end lies nearest to its arrival (R146): the running symbol count. -/
def nearestSym (t : CarrierTime) (now : Nat) (m : UMsg) : Int :=
  let j := (m.sub * t.perSub + m.slot) * t.num.perSlot + m.sym
  let f0 := (t.atTime now).1
  let lo := f0 - (f0 - (m.frame : Nat)) % 256
  let dist := fun (f : Int) => (t.symStart f (j + 1) - (now : Int)).natAbs
  let best := if dist (lo + 256) < dist lo then lo + 256 else lo
  t.symIndex best j

/-- A type 0 message that passed every check (R144, R153, R154). -/
def uplane (s : State) (p : Nat) (m : UMsg) (secs : List Section) (b : List Byte) : State :=
  let c := m.c
  let t := fhTime s p c
  let sq := rd b (ecpriOffset b + 6) 1
  let gap := match (eaxcOf s m.x).rxSeq with | some v => decide ((v + 1) % 256 ≠ sq) | none => false
  let s1 := modEaxc s m.x fun e => { e with rxSeq := some sq, seqGap := satAdd 32 e.seqGap (b2n gap) }
  let k := nearestSym t (s.localNow 0 p) m
  let sl := t.slotOf k
  let e := t.startOf (k + 1)
  let open_ := e + (s.paramPort p 0x0610 c : Nat)
  let close := e + (s.paramPort p 0x0611 c : Nat)
  let y := s1.cfh c
  let window := s1.carrierActive c && covered s1 c 0 sl.1 sl.2 && decide ((y.activeFrom : Int) ≤ open_)
  let bump := fun (f : Eaxc → Eaxc) => modEaxc s1 m.x f
  if !window || (m.filter ≠ 0 && s.paramPort p 0x0A04 (prachInst c m.filter) = 0) then
    bump fun e => { e with unexpected := satAdd 32 e.unexpected 1 }
  else if decide ((s.localNow 0 p : Int) < open_) then
    rxTiming (bump fun e => { e with early := satAdd 32 e.early 1 }) p c 1 0 0
  else if decide (close < (s.localNow 0 p : Int)) || !above y.lastRx k then
    rxTiming (bump fun e => { e with late := satAdd 32 e.late 1 }) p c 0 1 0
  else if m.filter = 0 then stageMessage s1 p m k secs b
  else prachMessage s1 p m k sl.1 secs b

/-- DELAY_RESPONSE (R145): the answer to a type 5 request, with source and destination, and UDP ports, exchanged. -/
def delayResponse (s : State) (p k : Nat) (b : List Byte) : State :=
  let h := ethLen b
  let o := ecpriOffset b
  let et := etherType b
  let x := s.dom (stampDomain s p)
  let pl := leBytes 1 0x10 ++ leBytes 1 5 ++ beBytes 2 20 ++ slice b (o + 4) 1 ++ leBytes 1 2 ++
    beBytes 6 x.seconds ++ beBytes 4 (x.ns % 1000000000) ++ beBytes 8 0
  let eth := slice b 6 6 ++ beBytes 6 (s.paramPort p 0x0503 p) ++ slice b 12 (h - 12)
  let u := udpOffset b
  let ports := slice b (u + 2) 2 ++ slice b u 2
  let ul := 8 + pl.length
  let frame :=
    if et = 0xAEFE then eth ++ pl
    else if et = 0x0800 then
      let hd := fun (c : Nat) => leBytes 1 0x45 ++ leBytes 1 Config.ipTos ++ beBytes 2 (20 + ul) ++ beBytes 4 Config.ipIdent ++
        leBytes 1 Config.ipTtl ++ leBytes 1 17 ++ beBytes 2 c ++ slice b (h + 16) 4 ++ slice b (h + 12) 4
      eth ++ hd (0xFFFF - onesSum (hd 0)) ++ ports ++ beBytes 2 ul ++ beBytes 2 0 ++ pl
    else
      let pseudo := slice b (h + 24) 16 ++ slice b (h + 8) 16 ++ beBytes 4 ul ++ [0, 17]
      let sum := onesSum (pseudo ++ ports ++ beBytes 2 ul ++ beBytes 2 0 ++ pl)
      eth ++ beBytes 4 (6 * 2 ^ 28 + Config.ip6Flow % 2 ^ 28) ++ beBytes 2 ul ++ leBytes 1 17 ++ leBytes 1 Config.ip6Hop ++
        slice b (h + 24) 16 ++ slice b (h + 8) 16 ++ ports ++ beBytes 2 ul ++
        beBytes 2 (if sum = 0xFFFF then 0xFFFF else 0xFFFF - sum) ++ pl
  txQueue s p k { kind := 2, bytes := frame }

/-- PARSER_CHECKS (R139, R141). -/
def parser (s : State) (p k : Nat) (b : List Byte) : State :=
  match headParse s p k b with
  | some r => parserFail s p k b r
  | none =>
    let o := ecpriOffset b
    if rd b (o + 1) 1 = 5 then
      if rd b (o + 5) 1 = 0 then delayResponse s p k b else ptpFrame s p k b true
    else match parseType0 s p k b with
      | .inl r => parserFail s p k b r
      | .inr m =>
        let n := prbCount s p m.c
        if !sectionHeadsOk s p n b b.length (o + 12) (ecpriSize b - 8) then parserFail s p k b 16
        else
          let r := parseSections s p n b b.length (o + 12) (ecpriSize b - 8)
          match r.1 with
          | some why => parserFail s p k b why
          | none => uplane s p m r.2 b

/-- CLASSIFICATION of a frame on a FRONTHAUL port (R138). -/
def classify (s : State) (p k : Nat) (b : List Byte) : State :=
  let et := etherType b
  if et = 0x88F7 || et = 0x0806 || et = 0x88CC then ptpRx s p k b
  else if isEsmc b then ptpRx s p k b
  else if udpDst b = some 319 || udpDst b = some 320 then ptpRx s p k b
  else if et = 0x86DD && rd b (ethLen b + 6) 1 = 58 then ptpRx s p k b
  else parser s p k b

/-! ## Window close (R156, R157, R159) -/

/-- Slot count at which the noise window of a slot starts (R337). -/
def noiseStart (s : State) (p c : Nat) (slot : Int) : Int :=
  let w : Int := (s.paramPort p 0x0A03 c : Int)
  slot / w * w

/-- The noise sums of a context for the window that starts at a slot: those of another window are put aside. -/
def Noise.forWindow (n : Noise) (a : Int) : Noise :=
  if n.win = some a then n else { n with sum := 0, count := 0, win := some a }

/-- Power of the valid idle PRB-symbols of a symbol is added to each ANTENNA context's noise sums, in the window of its
slot (R337). -/
def noiseAdd (s : State) (p c : Nat) (k : Int) : State :=
  let t := fhTime s p c
  let sl := t.slotOf k
  let prbs := ((s.cfh c).idle.filter fun e => e.1 = sl.1 && e.2.1 = sl.2).map fun e => e.2.2
  if prbs.isEmpty || areaBuffers s p c 0 = 0 then s
  else (antennas s p c).foldl (fun z x =>
    let st := s.paramPort p 0x061F x
    let q := st / areaGroup s p c 0
    let r := bufOf s p c 0 k q
    let u := ulBuf s c r
    let idx := st % areaGroup s p c 0
    let good := if u.group = some (k, q) then prbs.filter fun b => u.valid.contains (idx * 512 + b) else []
    let pw := good.foldl (fun acc b =>
      let d := bytesRead 0 (s.port p).bank (bufAddr s p c 0 r + idx * prbCount s p c * 48 + b * 48) 48
      (List.range 24).foldl (fun a i => a + (toSigned 16 (rd d (2 * i) 2)).natAbs ^ 2) acc) 0
    { z with ports := { z.ports with
        noise := mapMod z.ports.noise x {} fun n =>
          let m := n.forWindow (noiseStart s p c sl.1)
          { m with sum := m.sum + pw, count := m.count + 12 * good.length } } }) s

/-- Count the PRB-symbols of a group that are still clear at its window close (R156). -/
def countMissing (s : State) (p c q : Nat) (valid : List Nat) : State :=
  let miss := (groupStreams s p c 0 q).map fun st =>
    let idx := st % areaGroup s p c 0
    (st, prbCount s p c - (valid.filter fun e => e / 512 = idx).length)
  let s1 := miss.foldl (fun t e =>
    match antennaOf t p c e.1 with
    | some x => modEaxc t x fun y => { y with missing := satAdd 32 y.missing e.2 }
    | none => t) s
  rxTiming s1 p c 0 0 (miss.foldl (fun a e => a + e.2) 0)

/-- The window of one group of a symbol closes; a group that was complete before has nothing left to do, whoever holds
its buffer now. -/
def closeGroup (s : State) (p c : Nat) (k : Int) (q : Nat) : State :=
  let r := bufOf s p c 0 k q
  let u := ulBuf s c r
  match ulDone? s c r k q with
  | some d =>
    if d.complete then s
    else
      let s1 := flagSetOp (countMissing s p c q d.valid) (s.paramPort p 0x061A c) ((s.paramPort p 0x061B c + r) % 256)
      if u.group = some (k, q) then setUlBuf s1 c r { ulBuf s1 c r with complete := true } else s1
  | none =>
    let s1 := if u.group ≠ some (k, q) && u.released then claimBuf s p c r k q u.waiting else s
    let v := ulBuf s1 c r
    if v.group ≠ some (k, q) then waitBuf s1 p c r k q true
    else if v.complete then s1
    else completeGroup (countMissing s1 p c q v.valid) p c r

/-- What was kept for symbols up to K while their windows were open is dropped. -/
def windowPrune (s : State) (c : Nat) (k : Int) : State :=
  modCfh s c fun x => { x with
    ulDone := x.ulDone.filter fun d => decide (k < d.group.1)
    prachGain := x.prachGain.filter fun g => decide (k < g.2.1) }

/-- RX_WINDOW_CLOSE (R156): symbol j of frame f. -/
def rxWindowClose (s : State) (c f j : Nat) : State :=
  match carrierPort s c with
  | none => s
  | some p =>
    let t := fhTime s p c
    let k := t.symIndex f j
    let sl := t.slotOf k
    let e := t.startOf (k + 1)
    let y := s.cfh c
    if !s.carrierActive c || !covered s c 0 sl.1 sl.2 || !above y.lastRx k ||
        decide (e + (s.paramPort p 0x0610 c : Nat) < (y.activeFrom : Int)) ||
        decide ((s.localNow 0 p : Int) < e + (s.paramPort p 0x0611 c : Nat)) then s
    else
      let s1 := modCfh s c fun x => { x with lastRx := some k }
      if areaBuffers s p c 0 = 0 then windowPrune s1 c k
      else
        let s2 := (List.range (areaGroups s p c 0)).foldl (fun z q => closeGroup z p c k q) s1
        windowPrune (noiseAdd s2 p c k) c k

/-! ## Doorbells (R158, R159, R161) -/

/-- Count a bad doorbell. -/
def doorbellBad (s : State) (p : Nat) : State := modPort s p fun x => { x with doorbellBad := satAdd 32 x.doorbellBad 1 }

/-- The doorbell names a carrier of the port and a buffer of the area. -/
def doorbellOk (s : State) (p c a r : Nat) : Bool :=
  decide (c < 1024) && carrierPort s c = some p && decide (r < areaBuffers s p c a)

/-- DOORBELL_UL_RELEASE (R159): the buffer is released, and claimed for the group that waits for it first. -/
def doorbellUl (s : State) (p c r : Nat) : State :=
  if !doorbellOk s p c 0 r then doorbellBad s p
  else
    let u := ulBuf s c r
    if u.released then s
    else match u.waiting with
      | [] => setUlBuf s c r { u with released := true }
      | (k, q, closed) :: t =>
        let s1 := claimBuf s p c r k q t
        if closed then completeGroup s1 p c r else s1

/-- The buffer is taken or still being sent. -/
def TxBuf.busy (b : TxBuf) : Bool := b.taken.isSome || decide (0 < b.sending)

/-- DOORBELL_DL_READY (R158, R161). -/
def doorbellDl (s : State) (p c r : Nat) : State :=
  if !doorbellOk s p c 1 r || (dlBuf s c r).busy then doorbellBad s p
  else setDlBuf s c r { dlBuf s c r with ready := true }

/-- DOORBELL_CPLANE_READY (R158, R162). -/
def doorbellCp (s0 : State) (p c r : Nat) : State :=
  let s := cpPurge s0 p (carrierLink s0 p c)
  if !doorbellOk s p c 2 r || (cpBuf s c r).busy then doorbellBad s p
  else setCpBuf s c r { cpBuf s c r with ready := true }

/-- A write to a port's doorbell word (R158). -/
def stagingDoorbell (s : State) (p v : Nat) : State :=
  let c := field v 31 16
  let r := field v 5 0
  match field v 15 8 with
  | 0 => doorbellUl s p c r
  | 1 => doorbellDl s p c r
  | 2 => doorbellCp s p c r
  | _ => doorbellBad s p

/-! ## Message building (R147, R148, R166) -/

/-- VLAN tags of a carrier, as they stand in a frame. -/
def vlanBytes (s : State) (p c : Nat) : List Byte :=
  let o := s.paramPort p 0x060F (2 * c)
  let i := s.paramPort p 0x060F (2 * c + 1)
  let tag := fun (t v : Nat) => beBytes 2 t ++ beBytes 2 v
  if o ≠ 65535 && i ≠ 65535 then tag 0x88A8 o ++ tag 0x8100 i
  else if o ≠ 65535 then tag 0x8100 o else if i ≠ 65535 then tag 0x8100 i else []

/-- A frame of a carrier around an eCPRI message (R135, R148). -/
def fhFrame (s : State) (p c : Nat) (msg : List Byte) : List Byte :=
  let eth := beBytes 6 (s.paramPort p 0x060B c) ++ beBytes 6 (s.paramPort p 0x0503 p) ++ vlanBytes s p c
  let port := beBytes 2 (s.paramPort p 0x060E c)
  let ul := 8 + msg.length
  match s.paramPort p 0x060A c with
  | 0 => eth ++ beBytes 2 0xAEFE ++ msg
  | 1 =>
    let src := beBytes 4 (s.paramPort p 0x0505 p)
    let dst := beBytes 4 (s.paramPort p 0x060C c)
    let hd := fun (x : Nat) => leBytes 1 0x45 ++ leBytes 1 Config.ipTos ++ beBytes 2 (20 + ul) ++ beBytes 4 Config.ipIdent ++
      leBytes 1 Config.ipTtl ++ leBytes 1 17 ++ beBytes 2 x ++ src ++ dst
    let sum := onesSum (src ++ dst ++ beBytes 4 ul ++ [0, 17] ++ port ++ port ++ beBytes 2 ul ++ beBytes 2 0 ++
      (if msg.length % 2 = 0 then msg else msg ++ [0]))
    eth ++ beBytes 2 0x0800 ++ hd (0xFFFF - onesSum (hd 0)) ++ port ++ port ++ beBytes 2 ul ++
      beBytes 2 (if sum = 0xFFFF then 0xFFFF else 0xFFFF - sum) ++ msg
  | _ =>
    let src := beBytes 8 (s.paramPort p 0x0506 (2 * p)) ++ beBytes 8 (s.paramPort p 0x0506 (2 * p + 1))
    let dst := beBytes 8 (s.paramPort p 0x060D (2 * c)) ++ beBytes 8 (s.paramPort p 0x060D (2 * c + 1))
    let sum := onesSum (src ++ dst ++ beBytes 4 ul ++ [0, 17] ++ port ++ port ++ beBytes 2 ul ++ beBytes 2 0 ++
      (if msg.length % 2 = 0 then msg else msg ++ [0]))
    eth ++ beBytes 2 0x86DD ++ beBytes 4 (6 * 2 ^ 28 + Config.ip6Flow % 2 ^ 28) ++ beBytes 2 ul ++ leBytes 1 17 ++
      leBytes 1 Config.ip6Hop ++ src ++ dst ++ port ++ port ++ beBytes 2 ul ++
      beBytes 2 (if sum = 0xFFFF then 0xFFFF else 0xFFFF - sum) ++ msg

/-- Bytes of a carrier's frame around its eCPRI payload, FCS included. -/
def fhOverhead (s : State) (p c : Nat) : Nat := (fhFrame s p c []).length + 4 + 4

/-- An eCPRI message of type 0 or 2: header, PC_ID, SEQ_ID and body (R144). -/
def ecpriMsg (s : State) (p x ty sq : Nat) (body : List Byte) : List Byte :=
  leBytes 1 0x10 ++ leBytes 1 ty ++ beBytes 2 (4 + body.length) ++ beBytes 2 (s.paramPort p 0x061D x) ++
  leBytes 1 sq ++ leBytes 1 0x80 ++ body

/-- O-RAN U-plane header of a symbol in the downlink. -/
def uplaneHeader (t : CarrierTime) (k : Int) : List Byte :=
  let pf : Int := (t.num.perFrame : Nat)
  let j := (k % pf).toNat
  let slot := j / t.num.perSlot
  leBytes 1 0x90 ++ leBytes 1 ((k / pf) % 256).toNat ++
  beBytes 2 (slot / t.perSub * 4096 + slot % t.perSub * 64 + j % t.num.perSlot)

/-- Queue one U-plane message of a section; `buf` is the buffer it comes from, or 65,535. -/
def sendUplane (s : State) (p c x : Nat) (k : Int) (buf id start num w : Nat) (data : List Byte) : State :=
  let t := fhTime s p c
  let whole := start = 0 && num = prbCount s p c
  let hdr := beBytes 3 (id % 4096 * 4096 + start % 1024) ++ leBytes 1 (if whole then 0 else num)
  let comp := if s.paramPort p 0x0606 p = 1 then leBytes 1 (w % 16 * 16 + s.paramPort p 0x0603 p) ++ [0] else []
  let sq := (eaxcOf s x).txU
  let msg := ecpriMsg s p x 0 sq (uplaneHeader t k ++ hdr ++ comp ++ data)
  let s1 := modEaxc s x fun e => { e with txU := (e.txU + 1) % 256 }
  let s2 := if buf = 65535 then s1 else setDlBuf s1 c buf { dlBuf s1 c buf with sending := (dlBuf s1 c buf).sending + 1 }
  txQueue s2 p (carrierLink s p c)
    { kind := 0, bytes := fhFrame s p c msg, carrier := c, eaxc := x, sym := k, buf := buf
      due := some (t.startOf k - (s.paramPort p 0x0613 c : Nat)) }

/-- Queue the messages of a section from its PRBs, each already compressed (R147). -/
def sendSection (fuel : Nat) (s : State) (p c x : Nat) (k : Int) (buf id start w : Nat) (prbs : List (List Byte)) : State :=
  match fuel with
  | 0 => s
  | n + 1 =>
    if prbs.isEmpty then s
    else
      let size := (prbs.headD []).length
      let over_ := fhOverhead s p c + 8 + 4 + (if s.paramPort p 0x0606 p = 1 then 2 else 0)
      let fit := (s.paramPort p 0x0504 p - over_) / max 1 size
      let whole := start = 0 && prbs.length = prbCount s p c && decide (prbs.length ≤ fit)
      let m := if whole then prbs.length else max 1 (min 255 (min fit prbs.length))
      sendSection n (sendUplane s p c x k buf id start m w (prbs.take m).flatten) p c x k buf id (start + m) w (prbs.drop m)

/-! ## Downlink (R160, R161, R163) -/

/-- FH_TX_UNDERRUN, at most once per 10 ms per carrier (R167). -/
def txUnderrun (s : State) (p c cause : Nat) : State :=
  raiseLimited s 2 p 0x0604 c 19660800 1 fun n => leBytes 2 c ++ leBytes 1 cause ++ leBytes 2 (min n 65535)

/-- The entries of a section map: width, section, start, count, step. -/
def mapEntries (m : List Byte) : List (Nat × Nat × Nat × Nat × Nat) :=
  (List.range 4).map fun i =>
    let a := rd m (8 * i) 2
    (a / 4096, a % 4096, rd m (8 * i + 2) 2, rd m (8 * i + 4) 2, rd m (8 * i + 6) 2)

/-- A section map is invalid (R160). -/
def mapInvalid (meth prbs : Nat) (es : List (Nat × Nat × Nat × Nat × Nat)) : Bool :=
  let used := es.filter fun e => e.2.2.2.1 ≠ 0
  (used.any fun e => decide (prbs < e.2.2.1 + e.2.2.2.1) || (meth = 4 && (e.1 = 0 || decide (4 < e.1)))) ||
  (List.range used.length).any fun i => (List.range i).any fun j =>
    let a := used.getD i (0, 0, 0, 0, 0)
    let b := used.getD j (0, 0, 0, 0, 0)
    decide (a.2.2.1 < b.2.2.1 + b.2.2.2.1) && decide (b.2.2.1 < a.2.2.1 + a.2.2.2.1)

/-- Send the zero-sample form of one stream, by its context (R161). -/
def zeroStream (s : State) (p c x : Nat) (k : Int) : State :=
  let meth := s.paramPort p 0x0603 p
  let w := s.paramPort p 0x0604 p
  if meth = 4 then s
  else sendSection 512 s p c x k 65535 0 0 (if meth = 0 then 16 else w)
    (List.replicate (prbCount s p c) (List.replicate (prbBytes meth w) 0))

/-- Send a group's zero-sample form (R161). -/
def sendZero (s : State) (p c : Nat) (k : Int) (q : Nat) : State :=
  (groupStreams s p c 1 q).foldl (fun t st =>
    match antennaOf t p c st with
    | some x => zeroStream t p c x k
    | none => t) s

/-- In SAFE state the staged samples that wait on a link do not leave: each stream with such a message is sent in its
zero-sample form (R163). -/
def safeReplace (s : State) (p k : Nat) : State :=
  let staged := fun (f : TxFrame) => f.kind = 0 && f.buf ≠ 65535
  let fs := (s.link p k).fh.filter staged
  if s.boot.devState ≠ 4 || fs.isEmpty then s
  else
    let s1 := fs.foldl frameDone (modLink s p k fun x => { x with fh := x.fh.filter fun f => !staged f })
    let keys := fs.foldl (fun acc f =>
      let e := (f.carrier, f.eaxc, f.sym)
      if acc.contains e then acc else acc ++ [e]) []
    keys.foldl (fun t e => zeroStream t p e.1 e.2.1 e.2.2) s1

/-- Send one stream of a group taken from staging; whether its section map was invalid (R160). -/
def sendStream (s : State) (p c : Nat) (k : Int) (r st : Nat) : State × Bool :=
  match antennaOf s p c st with
  | none => (s, false)
  | some x =>
    let meth := s.paramPort p 0x0603 p
    let g := areaGroup s p c 1
    let idx := st % g
    let a := bufAddr s p c 1 r
    let bank := (s.port p).bank
    let es := mapEntries (bytesRead 0 bank (a + 32 * idx) 32)
    let m := gainM (s.paramInt 0x0A02 x)
    if mapInvalid meth (prbCount s p c) es then (s, true)
    else ((es.filter fun e => e.2.2.2.1 ≠ 0).foldl (fun t e =>
      let w := if meth = 4 then e.1 else if meth = 0 then 16 else s.paramPort p 0x0604 p
      let vals := (List.range e.2.2.2.1).map fun i =>
        let d := bytesRead 0 bank (a + 32 * g + idx * prbCount s p c * 48 + (e.2.2.1 + i) * 48) 48
        (List.range 24).map fun n => gainApply m (toSigned 16 (rd d (2 * n) 2))
      let sat := (vals.flatten.filter fun v => v.2).length
      let prbs := vals.map fun v => compressPrb meth w e.2.2.2.2 (v.map fun y => y.1)
      sendSection 512 (gainSat t p c x 0 sat) p c x k r e.2.1 e.2.2.1 w prbs) s, false)

/-- Start of running symbol K less a lead. -/
def leadTime (t : CarrierTime) (k : Int) (d : Nat) : Int := t.startOf k - (d : Nat)

/-- Ready deadline of a downlink symbol (R161). -/
def dlDeadline (s : State) (p c : Nat) (k : Int) : Int :=
  leadTime (fhTime s p c) k (s.paramPort p 0x0612 c + s.paramPort p 0x0616 c)

/-- DL_READY_DEADLINE (R161). -/
def dlReadyDeadline (s : State) (c f j : Nat) : State :=
  match carrierPort s c with
  | none => s
  | some p =>
    let t := fhTime s p c
    let k := t.symIndex f j
    let sl := t.slotOf k
    let y := s.cfh c
    let d := dlDeadline s p c k
    if !s.carrierActive c || !above y.lastDead k || decide (d < (y.activeFrom : Int)) || decide ((s.localNow 0 p : Int) < d) ||
        areaBuffers s p c 1 = 0 then s
    else
      let s1 := modCfh s c fun x => { x with lastDead := some k }
      let r := (List.range (areaGroups s p c 1)).foldl (fun (a : State × Bool) q =>
        let i := bufOf a.1 p c 1 k q
        let b := dlBuf a.1 c i
        if b.ready then (setDlBuf a.1 c i { b with ready := false, taken := some (k, q) }, a.2) else (a.1, true)) (s1, false)
      if !r.2 then r.1
      else if covered s c 1 sl.1 sl.2 then txUnderrun r.1 p c 0
      else modCfh r.1 c fun x => { x with missed := x.missed ++ [k] }

/-- Send one group of a covered symbol: from staging, or in its zero-sample form where it missed its ready deadline or
the device is in SAFE state (R161, R163).  The answer says whether a section map was invalid. -/
def sendGroup (s : State) (p c : Nat) (k : Int) (q : Nat) : State × Bool :=
  let r := bufOf s p c 1 k q
  let took := (dlBuf s c r).taken = some (k, q)
  if s.boot.devState = 4 || !took then
    let s1 := sendZero s p c k q
    (if took then dlFree s1 c r else s1, false)
  else
    let z := (groupStreams s p c 1 q).foldl (fun w st =>
      let y := sendStream w.1 p c k r st
      (y.1, w.2 || y.2)) (s, false)
    (dlFree z.1 c r, z.2)

/-- DL_TX_WINDOW_OPEN (R161, R163): the messages of the symbol are built and queued; none once its window has closed. -/
def dlTxWindowOpen (s0 : State) (c f j : Nat) : State :=
  match carrierPort s0 c with
  | none => s0
  | some p =>
    let t := fhTime s0 p c
    let k := t.symIndex f j
    let sl := t.slotOf k
    let now : Int := (s0.localNow 0 p : Int)
    if !s0.carrierActive c || !above (s0.cfh c).lastOpen k || decide (dlDeadline s0 p c k < ((s0.cfh c).activeFrom : Int)) ||
        decide (now < leadTime t k (s0.paramPort p 0x0612 c)) || areaBuffers s0 p c 1 = 0 then s0
    else
      let s := safeReplace s0 p (carrierLink s0 p c)
      let missed := (s.cfh c).missed.contains k
      let s1 := modCfh s c fun x => { x with lastOpen := some k, missed := x.missed.filter fun m => decide (k < m) }
      let groups := List.range (areaGroups s p c 1)
      if !covered s c 1 sl.1 sl.2 || decide (leadTime t k (s.paramPort p 0x0613 c) ≤ now) then
        groups.foldl (fun z q =>
          let r := bufOf z p c 1 k q
          if (dlBuf z c r).taken = some (k, q) then dlFree z c r else z) s1
      else
        let s2 := if missed then txUnderrun s1 p c 0 else s1
        let z := groups.foldl (fun (w : State × Bool) q =>
          let y := sendGroup w.1 p c k q
          (y.1, w.2 || y.2)) (s2, false)
        if z.2 then txUnderrun z.1 p c 1 else z.1

/-- DL_TX_WINDOW_CLOSE (R136, R161): a message still being sent is late; no symbol is sent after its window, and the
groups with a message not sent are counted where the link is down. -/
def dlTxWindowClose (s : State) (c f j : Nat) : State :=
  match carrierPort s c with
  | none => s
  | some p =>
    let t := fhTime s p c
    let k := t.symIndex f j
    let y := s.cfh c
    let n := carrierLink s p c
    if !s.carrierActive c || !above y.lastClose k || decide ((s.localNow 0 p : Int) < leadTime t k (s.paramPort p 0x0613 c)) then s
    else
      let s1 := modCfh s c fun x => { x with lastClose := some k }
      let lk := s1.link p n
      let mine := fun (g : TxFrame) => g.kind = 0 && g.carrier = c && g.sym = k
      let s2 := match lk.sending with
        | some g => if mine g then modEaxc s1 g.eaxc fun e => { e with txLate := satAdd 32 e.txLate 1 } else s1
        | none => s1
      let late := lk.fh.filter mine
      let s3 := late.foldl frameDone (modLink s2 p n fun x => { x with fh := x.fh.filter fun g => !mine g })
      let groups := dedupNat (late.map fun g => s.paramPort p 0x061F g.eaxc / areaGroup s p c 1)
      if lk.up then s3 else modLink s3 p n fun x => { x with linkDown := satAdd 32 x.linkDown groups.length }

/-! ## C-plane (R148, R158, R162, R336) -/

/-- FH_CPLANE_REJECT (R167). -/
def cplaneReject (s : State) (p c x why : Nat) : State :=
  portEvt s p 0x0605 (leBytes 2 c ++ leBytes 2 x ++ leBytes 1 why)

/-- A slot's start less a lead. -/
def slotLead (t : CarrierTime) (q : Int) (d : Nat) : Int := t.slotSym q 0 - (d : Nat)

/-- Ready deadline of a slot's C-plane. -/
def cpDeadline (s : State) (p c : Nat) (q : Int) : Int :=
  slotLead (fhTime s p c) q (s.paramPort p 0x0614 c + s.paramPort p 0x0616 c)

/-- CPLANE_READY_DEADLINE (R162). -/
def cplaneReadyDeadline (s : State) (c q : Nat) : State :=
  match carrierPort s c with
  | none => s
  | some p =>
    let y := s.cfh c
    let n := areaBuffers s p c 2
    let d := cpDeadline s p c q
    if !s.carrierActive c || n = 0 || !above y.lastCpDead q || decide (d < (y.activeFrom : Int)) || decide ((s.localNow 0 p : Int) < d) then s
    else
      let s1 := modCfh s c fun x => { x with lastCpDead := some (q : Int) }
      let b := cpBuf s1 c (q % n)
      if b.ready then setCpBuf s1 c (q % n) { b with ready := false, taken := some ((q : Int), 0) }
      else cplaneReject s1 p c 0xFFFF 2

/-- Records of a C-plane buffer: context, payload, and whether the record runs past the buffer. -/
def cplaneRecords (fuel : Nat) (b : List Byte) (off : Nat) : List (Nat × List Byte × Bool) :=
  match fuel with
  | 0 => []
  | n + 1 =>
    if 4096 < off + 4 then []
    else
      let l := rd b (off + 2) 2
      if l = 0 then []
      else if 4096 < off + 4 + l then [(rd b off 2, [], true)]
      else (rd b off 2, slice b (off + 4) l, false) :: cplaneRecords n b (off + 4 + 4 * ceilDiv l 4)

/-- An idle-map record of a slot is taken up, or ignored whole (R336). -/
def idleRecord (s : State) (p c : Nat) (q : Int) (b : List Byte) : State :=
  let n := b.length / 8
  let e := fun (i : Nat) => (rd b (8 * i) 2 % 2 ^ 14, rd b (8 * i + 2) 2, rd b (8 * i + 4) 2)
  let bad := b.length % 8 ≠ 0 || (List.range n).any fun i => (e i).2.2 = 0 || decide (prbCount s p c < (e i).2.1 + (e i).2.2)
  if bad then
    raiseLimited (modCfh s c fun x => { x with idleMapBad := satAdd 32 x.idleMapBad 1 }) 2 p 0x0A03 c 19660800 1
      fun m => leBytes 2 c ++ leBytes 2 (min m 65535)
  else
    let pts := (List.range n).flatMap fun i => (List.range 14).flatMap fun j =>
      if bit (e i).1 j then (List.range (e i).2.2).map fun k => (q, j, (e i).2.1 + k) else []
    modCfh s c fun x => { x with idle := pts.foldl (fun acc v => if acc.contains v then acc else acc ++ [v]) x.idle }

/-- Queue one C-plane record (R148). -/
def sendCplane (s : State) (p c x : Nat) (q : Int) (buf : Nat) (body : List Byte) : State :=
  let sq := (eaxcOf s x).txC
  let s1 := modEaxc s x fun e => { e with txC := (e.txC + 1) % 256 }
  let s2 := setCpBuf s1 c buf { cpBuf s1 c buf with sending := (cpBuf s1 c buf).sending + 1 }
  txQueue s2 p (carrierLink s p c)
    { kind := 1, bytes := fhFrame s p c (ecpriMsg s p x 2 sq body), carrier := c, eaxc := x, sym := q, buf := buf
      due := some (slotLead (fhTime s p c) q (s.paramPort p 0x0615 c)) }

/-- One record of a slot's buffer: an idle map, a rejected record, or a message; none is sent in SAFE state (R163) or
after the window of R162. -/
def cplaneRecord (s : State) (p c : Nat) (q : Int) (buf : Nat) (r : Nat × List Byte × Bool) : State :=
  let closed := decide (slotLead (fhTime s p c) q (s.paramPort p 0x0615 c) ≤ (s.localNow 0 p : Int))
  if r.2.2 then cplaneReject s p c r.1 1
  else if r.1 = 0xFFFF then idleRecord s p c q r.2.1
  else if s.boot.devState = 4 || closed then s
  else if r.2.1.length < 6 || 16384 ≤ r.1 then cplaneReject s p c r.1 1
  else
    let ty := rd r.2.1 5 1
    if ty ≠ 0 && ty ≠ 1 && ty ≠ 3 then cplaneReject s p c r.1 0
    else if s.paramPort p 0x0504 p < fhOverhead s p c + 4 + r.2.1.length then cplaneReject s p c r.1 1
    else sendCplane s p c r.1 q buf r.2.1

/-- CPLANE_TX_WINDOW_OPEN (R162): the slot's records are sent; idle maps are taken up. -/
def cplaneTxWindowOpen (s : State) (c q : Nat) : State :=
  match carrierPort s c with
  | none => s
  | some p =>
    let y := s.cfh c
    let n := areaBuffers s p c 2
    let t := fhTime s p c
    if !s.carrierActive c || n = 0 || !above y.lastCpOpen q ||
        decide ((s.localNow 0 p : Int) < slotLead t q (s.paramPort p 0x0614 c)) then s
    else
      let s1 := modCfh s c fun x => { x with lastCpOpen := some (q : Int) }
      let r := q % n
      if (cpBuf s1 c r).taken ≠ some ((q : Int), 0) then s1
      else
        let b := bytesRead 0 (s1.port p).bank (bufAddr s1 p c 2 r) 4096
        let s2 := (cplaneRecords 1024 b 0).foldl (fun z e => cplaneRecord z p c q r e) s1
        let cb := cpBuf s2 c r
        if cb.sending = 0 then setCpBuf s2 c r { cb with taken := none } else s2

/-- Sections of a C-plane payload of type 0, 1 or 3: start symbol and symbols of each (O-RAN CUS). -/
def cplaneSections (fuel : Nat) (b : List Byte) (ty left off : Nat) : List Nat :=
  match fuel with
  | 0 => []
  | n + 1 =>
    if left = 0 || b.length < off + 8 then []
    else
      let ext := ty ≠ 0 && bit (rd b (off + 6) 1) 7
      let size := if ty = 3 then 12 else 8
      let next := if ext then skipExt 64 (off + size) else off + size
      rd b (off + 5) 1 % 16 :: cplaneSections n b ty (left - 1) next
where
  /-- Offset past the section extensions that start here. -/
  skipExt (fuel o : Nat) : Nat :=
    match fuel with
    | 0 => o
    | m + 1 =>
      let len := rd b (o + 1) 1
      let o1 := o + 4 * max 1 len
      if bit (rd b o 1) 7 then skipExt m o1 else o1

/-- A C-plane message has been sent: the symbols it covers (R154, R161), and a PRACH occasion for each type 3 section
(R341). -/
def cplaneSent (s : State) (p c : Nat) (q : Int) (b : List Byte) : State :=
  let dir := rd b 0 1 / 128
  let f := rd b 0 1 % 16
  let start := rdBe b 2 2 % 64
  let ty := rd b 5 1
  let nums := cplaneSections 256 b ty (rd b 4 1) (if ty = 1 then 8 else 12)
  let t := fhTime s p c
  let keep := fun (a : Announce) => decide (q < a.slot + 2 * ((t.num.slots : Nat) : Int))
  nums.foldl (fun z n =>
    let a : Announce := { dir := dir, slot := q, start := start, num := n, secType := ty, filter := f }
    let z1 := modCfh z c fun x => { x with announced := (x.announced.filter keep).filter (fun e => e ≠ a) ++ [a] }
    if ty = 3 && dir = 0 && f ≠ 0 && !((z1.cfh c).prachIn.any fun o => o.group = f && o.slot = q && o.start = start && o.num = n) then
      modCfh z1 c fun x => { x with prachIn := x.prachIn ++ [{ carrier := c, group := f, slot := q, start := start, num := n }] }
    else z1) s

/-- The payload of a C-plane frame behind its SEQ_ID. -/
def cplaneBody (b : List Byte) : List Byte :=
  let o := ecpriOffset b
  slice b (o + 8) (rdBe b (o + 2) 2 - 4)

/-- The transmit stamp of a PTP event message goes to the receive queue (R53, R137), whether the PTP queue (kind 3) or
the midhaul ring sent it; so does that of an eCPRI type 5 message of the PTP queue (R145), over Ethernet or to the UDP
port of a carrier of the link. -/
def txStamp (s : State) (p k kind : Nat) (b : List Byte) : State :=
  match ptpEvent b, ptpOffset b with
  | some ty, some o =>
    ptpPut s p { kind := 1, link := k, stamp := stampNow s p,
                 bytes := leBytes 2 (rdBe b (o + 30) 2) ++ leBytes 1 ty ++ [0] }
  | _, _ =>
    let ecpri := etherType b = 0xAEFE ||
      (match udpDst b with
       | some d => (linkCarriers s p k).any fun c => s.paramPort p 0x060E c = d
       | none => false)
    -- a type 5 message has no sequenceId or messageType, so those bytes are free values
    if kind = 3 && ecpri && rd b (ecpriOffset b + 1) 1 = 5 then
      ptpPut { s with freeCount := s.freeCount + 1 } p
        { kind := 1, link := k, stamp := stampNow s p, bytes := leBytes 3 (Config.freeNat s.freeCount) ++ [0] }
    else s

/-- FRAME_TRANSMITTED (R135): the frame in progress has left; stamps are queued and the next frame is chosen. -/
def frameTransmitted (s : State) (p k : Nat) : State :=
  let x := s.link p k
  match x.sending with
  | none => s
  | some f =>
    let s1 := s.setLink p k { x with sending := none, lastSent := wireFrame f.bytes }
    let s2 :=
      match f.kind with
      | 0 => frameDone s1 f
      | 1 => cplaneSent (frameDone s1 f) p f.carrier f.sym (cplaneBody f.bytes)
      | 3 => txStamp s1 p k 3 f.bytes
      | 4 => txStamp s1 p k 4 f.bytes
      | _ => s1
    txKick (midhaulPump (safeReplace s2 p k) p) p k

/-! ## Activation (R154, R482) -/

/-- A carrier becomes active in its engine: windows open only from now on, every buffer is free, and its noise windows
start anew (R338). -/
def fhActivate (s0 : State) (c : Nat) : State :=
  let mine := fun (x : Nat) => match carrierPort s0 c with | some p => decide (s0.paramPort p 0x061C x = c) | none => false
  let anew := fun (e : Nat × Noise) =>
    if mine e.1 then (e.1, { e.2 with sum := 0, count := 0, win := none, gainAt := [] }) else e
  let s := { s0 with ports := { s0.ports with noise := s0.ports.noise.map anew } }
  modCfh s c fun x => { x with
    ul := [], ulDone := [], prachGain := [], dl := [], cp := [], announced := [], missed := [], idle := [], prachIn := []
    lastRx := none, lastDead := none, lastOpen := none, lastClose := none, lastCpDead := none, lastCpOpen := none
    lastNoise := none, activeFrom := s.now, partialWin := true }

/-- A carrier becomes inactive: its windows end and nothing more is transmitted for it. -/
def fhDeactivate (s : State) (c : Nat) : State :=
  let s1 := modCfh s c fun x => { x with ul := [], ulDone := [], prachGain := [], dl := [], cp := [], announced := [], missed := [], idle := [], prachIn := [] }
  { s1 with ports := { s1.ports with ports := s1.ports.ports.map fun e =>
      (e.1, (List.range 4).foldl (fun (y : Port) k =>
        let l := y.link k
        y.setLink k { l with fh := l.fh.filter fun f => f.carrier ≠ c }) e.2) } }

end Sys2Proof.Machine
end

