-- ==== Sys2Proof/Machine/Radio.lean ====
section
/-! DEFINITION. Radio functions (R333 to R349) and the fronthaul reply commands: noise records, PRACH occasions,
their correlation and reports, RADIO_NOISE_READ, RADIO_STATUS, FH_COUNTERS and FH_EXC_READ. -/

namespace Sys2Proof.Machine

/-! ## Noise floor (R337, R338) -/

/-- A power in 1/256 dBFS, rounded half away from zero (R338, R346). -/
def dbfs (q : Rat) : Int := log256 (-32768) 32767 (q / ((2 ^ 31 : Nat) : Rat))

/-- The record of one ANTENNA context at the end of window w (R338). -/
def noiseRecord (w : Nat) (n : Noise) (gain part : Bool) : List Byte :=
  let flags := b2n (n.count = 0) + 2 * b2n gain + 4 * b2n part
  if n.count = 0 then leBytes 4 w ++ leBytes 4 0 ++ leBytes 4 0 ++ leBytes 2 0 ++ leBytes 1 flags ++ [0]
  else
    let mean := n.sum / n.count
    leBytes 4 w ++ leBytes 4 mean ++ leBytes 4 (min n.count (2 ^ 32 - 1)) ++
      leInt 2 (if mean = 0 then -32768 else dbfs ((mean : Nat) : Rat)) ++ leBytes 1 flags ++ [0]

/-- NOISE_WINDOW_END (R337, R338): window w of the carrier ends once the receive window of the last symbol of its
last slot has closed; a gain changed within it between the end of the window before and its own. -/
def noiseWindowEnd (s : State) (c w : Nat) : State :=
  match carrierPort s c with
  | none => s
  | some p =>
    let t := fhTime s p c
    let wn := s.paramPort p 0x0A03 c
    let y := s.cfh c
    let last : Int := (((w + 1) * wn : Nat) : Int)
    let first : Int := ((w * wn : Nat) : Int)
    let lag : Int := (s.paramPort p 0x0611 c : Int)
    let e := t.slotSym last 0
    if !s.carrierActive c || !above y.lastNoise last || wn = 0 ||
        decide (e ≤ (y.activeFrom : Int)) || decide ((s.localNow 0 p : Int) < e + lag) then s
    else
      let s1 := modCfh s c fun x => { x with
        lastNoise := some last, partialWin := false, idle := x.idle.filter fun i => decide (last ≤ i.1) }
      (antennas s p c).foldl (fun z x =>
        let n := (mapGet z.ports.noise x {}).forWindow first
        let gain := n.gainAt.any fun a => decide (t.slotSym first 0 + lag ≤ (a : Int)) && decide ((a : Int) < e + lag)
        let v : Noise := {
          record := some (noiseRecord w n gain y.partialWin), madeAt := s.now
          gainAt := n.gainAt.filter fun a => decide (e + lag ≤ (a : Int)) }
        { z with ports := { z.ports with noise := mapSet z.ports.noise x v } }) s1

/-- A change of an uplink gain is marked in the window of the context's noise record (R338). -/
def gainChanged (s : State) (x : Nat) : State :=
  { s with ports := { s.ports with noise := mapMod s.ports.noise x {} fun n => { n with gainAt := n.gainAt ++ [s.now] } } }

/-- The mean power of a context's latest record, none for "no measurement" (R342). -/
def noiseMean (s : State) (x : Nat) : Option Nat :=
  match (mapGet s.ports.noise x {}).record with
  | some r => if bit (rd r 14 1) 0 then none else some (rd r 4 4)
  | none => none

/-- The ANTENNA context that a PRACH context's noise reference names (R348). -/
def noiseRef (s : State) (p c x : Nat) : Option Nat :=
  let v := s.paramPort p 0x0A09 x
  if v = 65535 then antennaOf s p c (s.paramPort p 0x061F x) else some v

/-! ## PRACH detector (R339 to R344) -/

/-- N_D of a format (R340). -/
def prachNd (fmt : Nat) : Nat := if fmt ≤ 4 then 1024 else 256

/-- Lag of a format in Tc at a numerology (R340). -/
def prachLag (fmt mu : Nat) : Nat := if fmt ≤ 3 then 1536 else if fmt = 4 then 384 else 512 / 2 ^ mu

/-- Cyclic shifts of one root (R341). -/
def prachShifts (l ncs : Nat) : Nat := if ncs = 0 then 1 else l / ncs

/-- Logical root of the n-th root in use, wrapping to 0 after the last (R341). -/
def prachLogical (l root n : Nat) : Nat := if n = 0 then root else if root + n ≤ l - 2 then root + n else (root + n - (l - 1)) % (l - 1)

/-- A complex product. -/
def cMul (a b : Rat × Rat) : Rat × Rat := (a.1 * b.1 - a.2 * b.2, a.1 * b.2 + a.2 * b.1)

/-- A sum of complex terms. -/
def cSum (l : List (Rat × Rat)) : Rat × Rat := l.foldl (fun a b => (a.1 + b.1, a.2 + b.2)) (0, 0)

/-- X_u[k]: the L_RA-point DFT of the root sequence (R342). -/
def prachX (l u k : Nat) : Rat × Rat :=
  cSum ((List.range l).map fun n =>
    cMul (cis (-(((u * n * (n + 1) : Nat) : Rat) / ((2 * l : Nat) : Rat)))) (cis (-(((n * k : Nat) : Rat) / ((l : Nat) : Rat)))))

/-- |c[n]|² of one repetition against one root (R342). -/
def prachPower (l nd u n : Nat) (y : List (Int × Int)) : Rat :=
  let c := cSum (y.zipIdx.map fun ((a, b), k) =>
    let x := prachX l u k
    cMul (cMul ((a : Rat), (b : Rat)) (x.1, -x.2)) (cis (((k * n : Nat) : Rat) / ((nd : Nat) : Rat))))
  c.1 * c.1 + c.2 * c.2

/-- The normalised power P[n] of one root over the inputs used, each with 1 / σ² (R342). -/
def prachNorm (l nd u n : Nat) (used : List (PrachSym × Rat)) : Rat :=
  (used.foldl (fun a e => a + prachPower l nd u n e.1.samples * e.2 / ((l : Nat) : Rat)) 0) / ((used.length : Nat) : Rat)

/-- One detection (R343, R346): preamble, timing advance, delay, metric and power. -/
structure Detection where
  preamble : Nat
  adv : Int
  delay : Int
  metric : Int
  power : Int
  deriving DecidableEq, Repr

/-- Preamble p against the powers of its root (R343): P over the whole circle, the mean of the σ² used. -/
def prachDetect (fmt mu ncs thr p v : Nat) (pn : List Rat) (sg : Rat) : Option Detection :=
  let l := prachLen fmt
  let nd := prachNd fmt
  let np : Int := roundAway (-(((v * ncs * nd : Nat) : Rat) / ((l : Nat) : Rat))) % (nd : Int)
  let win := if ncs = 0 then nd else max 1 (ncs * nd / l)
  let at_ := fun (n : Int) => pn.getD (n % (nd : Int)).toNat 0
  let d := (List.range win).foldl (fun (best : Nat) (i : Nat) => if at_ (np + (best : Int)) < at_ (np + (i : Int)) then i else best) 0
  let n := np + (d : Nat)
  let pk := at_ n
  if !pow10Le (thr : Nat) 2560 pk then none
  else
    let den := 2 * (at_ (n - 1) - 2 * pk + at_ (n + 1))
    let raw := if den = 0 then 0 else (at_ (n - 1) - at_ (n + 1)) / den
    let cl := if raw < -(1 / 2) then -(1 / 2) else if 1 / 2 < raw then 1 / 2 else raw
    let delta : Rat := ((roundAway (cl * 16) : Int) : Rat) / 16
    let delay := roundAway ((((d : Nat) : Rat) + delta) * ((prachLag fmt mu : Nat) : Rat))
    some { preamble := p, adv := roundAway (((delay * (2 ^ mu : Nat) : Int) : Rat) / 1024), delay := delay
           metric := log256 0 65535 pk
           power := log256 (-32768) 32767 (pk * sg / ((l * 2 ^ 31 : Nat) : Rat)) }

/-- The detection record (R346). -/
def detectionRecord (d : Detection) : List Byte :=
  leBytes 1 2 ++ leBytes 1 d.preamble ++ [0, 0] ++ leInt 2 d.adv ++ leInt 4 d.delay ++
  leInt 2 (clampInt 0 65535 d.metric) ++ leInt 2 d.power ++ [0, 0]

/-- The occasion record (R346). -/
def occasionRecord (o : Occasion) (st n used : Nat) (floor_ : Nat) : List Byte :=
  leBytes 1 1 ++ leBytes 1 o.group ++ leBytes 1 st ++ leBytes 1 n ++ leBytes 6 o.closed ++ leBytes 2 used ++
  leBytes 2 floor_ ++ [0, 0]

/-- Issue the next write of an engine's reports: a posted write passes the order on at once, any other waits for its
response (R345). -/
def prachPump (fuel : Nat) (s : State) (p : Nat) : State :=
  match fuel, mapGet s.ports.prachOut p [] with
  | 0, _ => s
  | _, [] => s
  | k + 1, (a, bs, posted) :: t =>
    let s1 := { s with ports := { s.ports with prachOut := mapSet s.ports.prachOut p t } }
    if posted then prachPump k (issue s1 (portNode p) 65535 2 3 a bs.length 0 bs 0) p
    else issue s1 (portNode p) 65535 2 0 a bs.length 1 bs 0

/-- An engine waits for the response to a report write. -/
def prachWaits (s : State) (p : Nat) : Bool := s.fab.outst.any fun o => o.node = portNode p && o.seq = 1 && !o.timedOut

/-- The response to a report write came, or its TIMEOUT (R345). -/
def prachWritten (s : State) (p : Nat) : State :=
  if prachWaits s p then s else prachPump 4096 s p

/-- Report an occasion (R345): records into the ring, the write index, the flag. -/
def prachReport (s : State) (p : Nat) (o : Occasion) (st used : Nat) (ds : List Detection) (floor_ : Nat) : State :=
  let c := o.carrier
  let y := s.cfh c
  let n := s.paramPort p 0x0A0B c
  let base := s.paramPort p 0x0A0A c
  let s1 := s.setCfh c { y with
    occasions := satAdd 32 y.occasions 1, detections := satAdd 32 y.detections ds.length
    overloads := satAdd 32 y.overloads (b2n (st = 2)) }
  if n = 0 then s1
  else
    let recs := occasionRecord o st ds.length used floor_ :: ds.map detectionRecord
    let idx := y.prachIdx
    let ws := recs.zipIdx.map fun (r, i) => (base + 64 + 16 * ((idx + i) % n), r, false)
    let new := (idx + recs.length) % 2 ^ 32
    let fl := s.paramPort p 0x0A0C c
    let fw := if fl = 255 then [] else [(flagAddr fl (s.paramPort p 0x0A0D c), leBytes 8 1, true)]
    let s2 := modCfh s1 c fun x => { x with prachIdx := new }
    let s3 := { s2 with ports := { s2.ports with
      prachOut := mapMod s2.ports.prachOut p [] fun l => l ++ ws ++ [(base, leBytes 4 new, false)] ++ fw } }
    prachWritten s3 p

/-- Report an occasion with status OVERLOAD (R344). -/
def prachOverload (s : State) (p : Nat) (o : Occasion) : State :=
  let (f, s1) := s.fresh
  let s2 := prachReport s1 p o 2 0 [] (Config.freeNat f)
  portEvt s2 p 0x0A02 (leBytes 1 p ++ leBytes 1 o.group ++ leBytes 2 o.carrier ++ leBytes 2 1)

/-- PRACH_OCCASION_CLOSE (R341, R344): the occasion of group g in slot q closes at the window close of its last
symbol and is queued for correlation. -/
def prachOccasionClose (s : State) (c g q : Nat) : State :=
  match carrierPort s c with
  | none => s
  | some p =>
    let t := fhTime s p c
    let due := fun (o : Occasion) =>
      decide (t.slotSym o.slot (o.start + o.num) + (s.paramPort p 0x0611 c : Nat) ≤ (s.localNow 0 p : Int))
    match (s.cfh c).prachIn.find? fun o => o.group = g && o.slot = (q : Int) && due o with
    | none => s
    | some o =>
      if !s.carrierActive c then s
      else
        let o1 := { o with
          closed := s.now, thr := s.paramPort p 0x0A08 (prachInst c g)
          sigma := (dedupNat (o.input.map fun i => i.eaxc)).foldl (fun m x =>
            match (noiseRef s p c x).bind (noiseMean s) with
            | some v => mapSet m x v
            | none => m) [] }
        let s1 := modCfh s c fun x => { x with prachIn := x.prachIn.erase o }
        let qs := mapGet s.ports.prachQueue p []
        if 32 ≤ qs.length then prachOverload s1 p o1
        else { s1 with ports := { s1.ports with prachQueue := mapSet s1.ports.prachQueue p (qs ++ [o1]) } }

/-- The processing of an occasion has not started within 1 ms of its closing (R344). -/
def prachExpired (s : State) (o : Occasion) : Bool := decide (o.closed + 1966080 < s.now)

/-- PRACH_START_TIMEOUT (R344). -/
def prachStartTimeout (s : State) (p : Nat) : State :=
  match mapGet s.ports.prachQueue p [] with
  | [] => s
  | o :: t =>
    if prachExpired s o then
      prachOverload { s with ports := { s.ports with prachQueue := mapSet s.ports.prachQueue p t } } p o
    else s

/-- PRACH_PROCESSING_START (R344): an idle engine takes the occasion that closed first. -/
def prachProcessingStart (s : State) (p : Nat) : State :=
  match mapGet? s.ports.prachBusy p, mapGet s.ports.prachQueue p [] with
  | none, o :: t =>
    if prachExpired s o then s
    else { s with ports := { s.ports with
        prachQueue := mapSet s.ports.prachQueue p t, prachBusy := mapSet s.ports.prachBusy p { o with begun := s.now } } }
  | _, _ => s

/-- Roots in use by a group's preambles. -/
def prachRoots (l ncs n : Nat) : Nat := ceilDiv n (prachShifts l ncs)

/-- Detections of an occasion, in preamble order (R342, R343). -/
def prachDetections (s : State) (p : Nat) (o : Occasion) (used : List (PrachSym × Rat)) (sg : Rat) : List Detection :=
  let i := prachInst o.carrier o.group
  let fmt := s.paramPort p 0x0A04 i
  let ncs := s.paramPort p 0x0A06 i
  let n := s.paramPort p 0x0A07 i
  let l := prachLen fmt
  let nd := prachNd fmt
  let k := prachShifts l ncs
  (List.range (prachRoots l ncs n)).flatMap fun r =>
    let u := Config.prachRoot l (prachLogical l (s.paramPort p 0x0A05 i) r)
    let pn := (List.range nd).map fun j => prachNorm l nd u j used
    (List.range (min k (n - r * k))).filterMap fun v =>
      prachDetect fmt (s.paramPort p 0x0302 o.carrier) ncs o.thr (r * k + v) v pn sg

/-- PRACH_PROCESSING_END (R342 to R346): the correlations of the occasion are done. -/
def prachProcessingEnd (s : State) (p : Nat) : State :=
  match mapGet? s.ports.prachBusy p with
  | none => s
  | some o =>
    let i := prachInst o.carrier o.group
    let fmt := s.paramPort p 0x0A04 i
    let l := prachLen fmt
    let work := prachRoots l (s.paramPort p 0x0A06 i) (s.paramPort p 0x0A07 i) * o.input.length * prachNd fmt
    if s.now < o.begun + work then s
    else
      let s1 := { s with ports := { s.ports with prachBusy := mapDel s.ports.prachBusy p } }
      let (f, s2) := s1.fresh
      let free : Rat := ((Config.freeNat f : Nat) : Rat)
      let used := o.input.filterMap fun x => (mapGet? o.sigma x.eaxc).map fun v =>
        (x, if v = 0 then free else 1 / ((v : Nat) : Rat))
      if o.input.isEmpty then prachReport s2 p o 3 0 [] (Config.freeNat f)
      else if used.isEmpty then prachReport s2 p o 1 0 [] (Config.freeNat f)
      else
        let sg : Rat := ((o.sigma.foldl (fun a e => a + e.2) 0 : Nat) : Rat) / ((o.sigma.length : Nat) : Rat)
        prachReport s2 p o 0 used.length (prachDetections s2 p o used sg) (ofSigned 16 (dbfs sg))

/-! ## Commands -/

/-- RADIO_NOISE_READ (R338). -/
def cmdNoiseRead (rq : Req) (pl : List Byte) (s : State) : State :=
  let c := rq.inst
  let xs := (List.range (pl.length / 2)).map fun i => rd pl (2 * i) 2
  let ok := fun (x : Nat) => decide (x < 16384) && s.param 0x061C x = c && s.param 0x061E x = 0
  match xs.findIdx? fun x => !ok x with
  | some i => refuse s rq dzBadParam i
  | none => replyOk s rq (xs.flatMap fun x =>
      ((mapGet s.ports.noise x {}).record).getD (leBytes 14 0 ++ leBytes 1 1 ++ [0]))

/-- RADIO_STATUS (R347). -/
def cmdRadioStatus (rq : Req) (pl : List Byte) (s : State) : State :=
  let c := rq.inst
  let y := s.cfh c
  let xs := (listedInst s 0x061C).filter fun x => s.param 0x061C x = c
  let out := (xs.drop (rd pl 0 2)).take 253
  replyOk s rq (leBytes 4 y.idleMapBad ++ leBytes 4 y.occasions ++ leBytes 4 y.detections ++ leBytes 4 y.overloads ++
    leBytes 2 xs.length ++ leBytes 2 out.length ++
    out.flatMap fun x =>
      let e := eaxcOf s x
      leBytes 2 x ++ [0, 0] ++ leBytes 4 e.satUl ++ leBytes 4 e.satDl ++ leBytes 4 e.prachShort)

/-- FH_COUNTERS (R164) of the port or eAxC contexts that the scope names. -/
def cmdFhCounters (rq : Req) (_ : List Byte) (s : State) : State :=
  let x := s.port rq.inst
  let links := (List.range 4).flatMap fun k =>
    let l := x.link k
    [l.phyErr, l.runt, l.oversize, l.fcs, l.macControl, l.filter, l.ringFull, l.linkDown]
  let reasons := (List.range 19).map fun i => mapGet x.reasons (i + 1) 0
  let ctx := (listedInst s 0x061C).filter fun e => carrierPort s (s.param 0x061C e) = some rq.inst
  let es := ctx.flatMap fun e =>
    let v := eaxcOf s e
    [e, v.onTime, v.early, v.late, v.unexpected, v.duplicate, v.missing, v.overrun, v.seqGap, v.decompSat, v.txLate]
  replyFields s rq (links ++ reasons ++ [x.excRingFull, x.excRateLimited, x.doorbellBad, x.ptpLost] ++ es)

/-- One entry of the exception ring (R143). -/
def excBytes (e : ExcEntry) : List Byte :=
  leBytes 8 e.at_ ++ leBytes 2 e.len ++ leBytes 1 e.reason ++ leBytes 1 e.link ++ leBytes 4 0 ++ padTo 256 (e.bytes.take 256)

/-- FH_EXC_READ (R143). -/
def cmdFhExcRead (rq : Req) (pl : List Byte) (s : State) : State :=
  let n := rd pl 0 2
  if n = 0 || 14 < n then refuse s rq dzRange 0
  else
    let x := s.port rq.inst
    let out := x.exc.take n
    let left := x.exc.drop n
    replyOk (s.setPort rq.inst { x with exc := left }) rq
      (leBytes 2 out.length ++ leBytes 2 left.length ++ leBytes 4 0 ++ out.flatMap excBytes)

end Sys2Proof.Machine
end

