-- ==== Sys2Proof/Machine/Power.lean ====
section
/-! DEFINITION. Power domains, device states, droop stretching, ageing and lane trends (R536 to R556), with the fence
that switches a domain off (R365, R366) and the ageing record (R566). -/

namespace Sys2Proof.Machine

/-- An event of Laniman: source class 0 (R518). -/
def lanimanEvt (s : State) (code : Nat) (d : List Byte) : State := raise s 0 0 code d

/-! ## Units of a domain (R473, R536) -/

/-- Mill's units of a domain: cores by number, Clove units from 1,024. -/
def domainUnits (d : Nat) : List Nat :=
  if d < 64 then (List.range 16).map fun i => 16 * d + i
  else if 68 ≤ d && d ≤ 75 then ((List.range 120).filter fun u => cloveDomainOf u = d - 68).map fun u => 1024 + u
  else []

/-- Power domain of a unit ID. -/
def unitIdDomain (u : Nat) : Nat :=
  let n := u % 4096
  match u / 4096 with
  | 2 => 76 + n / 4
  | 3 => 92 + n / 12
  | 4 => 64 + n
  | 5 => 68 + n
  | 6 => n
  | 7 => 76 + n
  | 8 => 92 + n
  | 9 => 94
  | _ => 95

/-- A domain is in a fence, or waits for its units to drain before one. -/
def fencing (s : State) (d : Nat) : Bool := (mapGet? s.fab.fences d).isSome

/-- The ageing plan has withdrawn a domain (R549). -/
def domainWithdrawn (s : State) (d : Nat) : Bool :=
  if d < 64 then bit (mapGet s.power.tiles (2 + d / 16) {}).clustersOff (d % 16)
  else if 68 ≤ d && d ≤ 75 then bit (mapGet s.power.tiles (2 + (d - 68) / 2) {}).cloveOff ((d - 68) % 2)
  else false

/-- The committed plan of a domain, as the configuration store holds it (R539). -/
def planOf (s : State) (d : Nat) : Nat := s.paramIn (unitId 0 0) 0x1301 d

/-- Write WAKE_CAUSE (R542). -/
def writeWake (s : State) (src inst : Nat) : State :=
  { s with power := { s.power with wake := { source := src, inst := inst, at_ := s.now } } }

/-! ## Switching off (R366, R537, R543) -/

/-- Step 1 of a fence: every NI of the domain is to acknowledge (R366). -/
def fenceBegin (s : State) (d cause : Nat) : State :=
  { s with
    fab := { s.fab with fences := mapSet s.fab.fences d { left := domainNodes d, at_ := s.now, cause := cause } }
    power := { s.power with toOff := mapDel s.power.toOff d } }

/-- Ask for a domain to be switched off: at once, or once its units have drained. -/
def offAsk (s : State) (d cause : Nat) (drain : Bool) : State :=
  if !s.domainOn d || fencing s d then s
  else if drain then
    (domainUnits d).foldl drainUnit { s with power := { s.power with toOff := mapSet s.power.toOff d cause } }
  else fenceBegin s d cause

/-- The compute fabric domains are fenced last on the way to HOLD (R541). -/
def fabricLast (s : State) (d : Nat) : Bool :=
  64 ≤ d && d ≤ 67 &&
    (List.range 92).any fun e => !(decide (64 ≤ e) && decide (e ≤ 67)) &&
      (s.domainOn e) && ((mapGet? s.power.toOff e).isSome || fencing s e)

/-- FENCE_REQ reaches an NI (R366 step 2). -/
def fenceReq (s : State) (node : Nat) : State :=
  match nodeDomain node with
  | none => s
  | some d =>
    let s1 := match mapGet? s.power.toOff d with
      | some cause => if ((domainUnits d).all fun k => drained s k) && !fabricLast s d then fenceBegin s d cause else s
      | none => s
    match mapGet? s1.fab.fences d with
    | some f => if f.left.contains node then s1.setNi node { s1.ni node with stopped := true } else s1
    | none => s1

/-- Kept values of a core: VBASE and IEN (R543). -/
def keepCore (s : State) (k : Nat) : State :=
  let r := (s.core k).regs
  { s with power := { s.power with kept := mapSet s.power.kept k (BitVec.ofNat 64 (r.getC 7), r.getC 8) } }

/-- A core without power. -/
def loseCore (s : State) (k : Nat) : State := (keepCore s k).setCore k { tail := (s.core k).tail }

/-- A Clove unit without power. -/
def loseClove (s : State) (u : Nat) : State :=
  { s with clove := { banks := mapDel s.clove.banks u
                      jobs := s.clove.jobs.filter fun e => e.1 / 2 ≠ u
                      queued := s.clove.queued.filter fun e => e.key / 2 ≠ u } }

/-- A lane without power. -/
def loseLane (s : State) (l : Nat) : State :=
  let t := clockRecoveryLoss s l
  t.setLane l { t.lane l with calibrated := false }

/-- What a domain loses with its power (R127, R537). -/
def loseDomain (s : State) (d : Nat) : State :=
  if d < 64 then (domainUnits d).foldl loseCore s
  else if 68 ≤ d && d ≤ 75 then (domainUnits d).foldl (fun t k => loseClove t (k - 1024)) s
  else if 76 ≤ d && d ≤ 91 then
    let g := d - 76
    let s1 := abortScan s g 4
    let s2 := (List.range 16).foldl (fun t i => linkDown t (4 * g + i / 4) (i % 4)) s1
    let s3 := (List.range 16).foldl (fun t i => loseLane t (16 * g + i)) s2
    (List.range 4).foldl (fun t i => t.setPort (4 * g + i) { t.port (4 * g + i) with bank := [] }) s3
  else s

/-- A domain powers up: at once, or after the fence in progress (R540). -/
def powerUp (s : State) (d cause : Nat) : State :=
  if domainWithdrawn s d then s
  else if fencing s d then { s with power := { s.power with wakeDue := mapSet s.power.wakeDue d cause } }
  else if s.domainOn d then
    let s1 := { s with power := { s.power with toOff := mapDel s.power.toOff d } }
    if (mapGet? s.power.toOff d).isSome then (domainUnits d).foldl releaseCore s1 else s1
  else { s with power := { s.power with coming := mapSet s.power.coming d cause } }

/-- Remove a domain from the transition that waits for it (R541). -/
def waitDone (s : State) (d : Nat) : State :=
  match s.power.wait with
  | some w => { s with power := { s.power with wait := some { w with left := w.left.filter fun e => e ≠ d } } }
  | none => s

/-- Step 4 of a fence: the domain is isolated and switched off (R366, R537, R543). -/
def domainOff (s : State) (d : Nat) : State :=
  let cause := match mapGet? s.fab.fences d with | some f => f.cause | none => 0
  let s1 := loseDomain s d
  let due := mapGet? s.power.wakeDue d
  let s2 := { s1 with
    fab := { s1.fab with fences := mapDel s1.fab.fences d
                         banks := s1.fab.banks.map fun e =>
                           (e.1, if nodeDomain (match e.1 / 4096 with
                             | 0 => clusterNode (e.1 % 4096 / 16)
                             | 1 => cloveNode (e.1 % 4096)
                             | _ => portNode (e.1 % 4096)) = some d then { e.2 with bad := [] } else e.2) }
    power := { s1.power with on := s1.power.on.filter fun e => e ≠ d, wakeDue := mapDel s1.power.wakeDue d
                             idleFrom := mapDel s1.power.idleFrom d } }
  let s3 := waitDone (lanimanEvt s2 0x1302 (leBytes 1 d ++ [0] ++ leBytes 1 cause)) d
  match due with
  | some c => powerUp s3 d c
  | none => s3

/-- None of an NI's own requests is outstanding and it has served every request accepted for its targets (R366). -/
def niQuiet (s : State) (node : Nat) : Bool :=
  (s.fab.outst.all fun o => o.node ≠ node) &&
  (s.fab.flight.all fun m => m.dst ≠ node || decide (5 ≤ m.cmd)) &&
  (s.mem.waits.all fun w => w.req.dst ≠ node)

/-- FENCE_ACK (R366 steps 3 and 4). -/
def fenceAck (s : State) (node : Nat) : State :=
  match (nodeDomain node).bind fun d => (mapGet? s.fab.fences d).map fun f => (d, f) with
  | none => s
  | some (d, f) =>
    if !f.left.contains node || !(s.ni node).stopped || !niQuiet s node then s
    else
      let left := f.left.filter fun n => n ≠ node
      let s1 := { s with fab := { s.fab with fences := mapSet s.fab.fences d { f with left := left } } }
      if left.isEmpty then domainOff s1 d else s1

/-- FENCE_TIMEOUT (R366): Laniman forces the fence. -/
def fenceTimeout (s : State) (d : Nat) : State :=
  match mapGet? s.fab.fences d with
  | none => s
  | some f =>
    if s.now < f.at_ + fabCycles (s.param 0x0B02 0) then s
    else
      let n := (s.fab.outst.filter fun o => f.left.contains o.node).length
      let s1 := f.left.foldl (fun t node => masterReset t node 65535) s
      let s2 := lanimanEvt s1 0x0B02 (leBytes 1 d ++ leBytes 2 (min n 65535))
      domainOff s2 d

/-- The router port of a node answers for it: the domain is off, or the NI has acknowledged its fence (R365, R366). -/
def nodeClosed (s : State) (node : Nat) : Option Nat :=
  match nodeDomain node with
  | none => none
  | some d =>
    if !s.domainOn d then some d
    else match mapGet? s.fab.fences d with
      | some f => if f.left.contains node then none else some d
      | none => none

/-! ## Switching on (R537, R543) -/

/-- A core as the power-up of its domain leaves it. -/
def wakeCore (s : State) (k : Nat) : State :=
  let (vb, ien) := mapGet s.power.kept k (0, 0)
  let r := (({} : CoreRegs).setC 7 vb.toNat).setC 8 ien
  let s1 := s.setCore k { regs := r, imem := placedCode s k, tail := s.paramCluster (k / 16) 0x0710 k }
  releaseCore (noteTail s1 k) k

/-- DOMAIN_POWER_UP_COMPLETE (R537): banks filled, retention restored, configuration and placement reloaded, held
packets delivered. -/
def domainPowerUpComplete (s : State) (d : Nat) : State :=
  match mapGet? s.power.coming d with
  | none => s
  | some cause =>
    let nodes := domainNodes d
    let s1 := nodes.foldl (fun t n =>
      let u := masterReset t n 65535
      u.setNi n { u.ni n with stopped := false }) s
    let held := nodes.flatMap fun n => mapGet s1.fab.wakeBuf n []
    let s2 := { s1 with
      power := { s1.power with on := s1.power.on ++ [d], coming := mapDel s1.power.coming d }
      fab := { s1.fab with flight := s1.fab.flight ++ held, wakeBuf := s1.fab.wakeBuf.filter fun e => !nodes.contains e.1 }
      cfg := { s1.cfg with commit := s1.cfg.commit.map fun c =>
        { c with swapped := c.swapped.filter fun u => unitIdDomain u ≠ d } } }
    let s3 := if d < 64 then (domainUnits d).foldl wakeCore s2 else (domainUnits d).foldl releaseCore s2
    waitDone (lanimanEvt s3 0x1302 (leBytes 1 d ++ leBytes 1 1 ++ leBytes 1 cause)) d

/-! ## Power plan (R539 to R541) -/

/-- A plan takes effect at the commit's swap (R539): 0 ON, 1 RUN_ONLY, 2 DEMAND, 3 OFF. -/
def planSync (s : State) (d : Nat) : State :=
  let p := planOf s d
  if s.boot.devState = 2 then (if p = 0 then powerUp s d 0 else offAsk s d 0 false)
  else if s.boot.devState = 1 || s.boot.devState = 4 then
    (if p ≤ 1 then powerUp s d 0 else if p = 3 then offAsk s d 0 false else s)
  else s

/-- A DEMAND domain is on and every unit in it waits for work (R540). -/
def demandIdle (s : State) (d : Nat) : Bool :=
  s.domainOn d && planOf s d = 2 && (domainUnits d).all fun k => waitsForWork s k

/-- DEMAND domains of the power plan: Facet clusters and Clove domains that are on and whose plan is set. -/
def demandDomains (s : State) : List Nat :=
  (listedInst s 0x1301).filter fun d => decide (d < 76) && planOf s d = 2 && s.domainOn d

/-- The time since which each DEMAND domain is idle, brought up to this cycle (R540). -/
def idleWatch (s : State) : State :=
  let ds := (demandDomains s).filter (demandIdle s)
  if ds.isEmpty && s.power.idleFrom.isEmpty then s
  else
    let kept := s.power.idleFrom.filter fun e => ds.contains e.1
    { s with power := { s.power with
        idleFrom := ds.foldl (fun m d => match mapGet? m d with | some _ => m | none => mapSet m d s.now) kept } }

/-- DEMAND_IDLE_EXPIRY (R540): the domain has been idle for `power.gate_idle` of Air Time. -/
def demandIdleExpiry (s : State) (d : Nat) : State :=
  let due := match mapGet? s.power.idleFrom d with
    | some t => decide (t + s.param 0x1302 0 ≤ s.now)
    | none => false
  if (s.boot.devState = 1 || s.boot.devState = 4) && demandIdle s d && due then offAsk s d 1 false
  else s

/-- A ready item of the domain's slice has no eligible unit in service and would have one in the domain (R540). -/
def demanded (s : State) (d : Nat) : Bool :=
  let slc := if d < 64 then d / 16 else (d - 68) / 2
  ((s.slc slc).items.any fun e => e.2.place = 3 &&
    (eligible slc e.2.desc).all (fun k => !inService s k) && (eligible slc e.2.desc).any fun k => unitDomain k = d)

/-- DEMAND_WAKE (R540, R542). -/
def demandWake (s : State) (d : Nat) : State :=
  if s.boot.devState = 1 && planOf s d = 2 && (!s.domainOn d || fencing s d) && (mapGet? s.power.coming d).isNone &&
      !domainWithdrawn s d && demanded s d then
    powerUp (writeWake s 6 d) d 2
  else s

/-- WAKE reaches Laniman (R367, R542). -/
def wakePacket (s : State) (d : Nat) : State :=
  let held := (domainNodes d).any fun n => !(mapGet s.fab.wakeBuf n []).isEmpty
  if held && !s.domainOn d && (mapGet? s.power.coming d).isNone && !domainWithdrawn s d then
    powerUp (writeWake s 7 d) d 3
  else s

/-- The present state as POWER_STATE_SET counts states. -/
def powerState (s : State) : Nat := if s.boot.devState = 2 then 1 else if s.boot.devState = 3 then 2 else 0

/-- Why a target of HOLD is refused (R541). -/
def holdRefused (s : State) : Option Nat :=
  if !s.activeCarriers.isEmpty then some 1
  else if s.cfg.commit.isSome then some 2
  else if s.mem.regions.any fun e => e.2.st = 1 || e.2.sweep.isSome then some 3
  else none

/-- POWER_STATE_SET (R541). -/
def cmdPowerStateSet (rq : Req) (pl : List Byte) (s : State) : State :=
  let t := rd pl 0 1
  if 2 < t then refuse s rq dzBadParam 0
  else if s.power.wait.isSome then refuse s rq dzBusy 0xFFFF
  else if t = powerState s then replyOk s rq []
  else
    let wait := fun (u : State) (l : List Nat) =>
      { u with power := { u.power with wait := some { req := rq, target := t, left := l } } }
    match t with
    | 0 =>
      let up := (List.range 92).filter fun d => decide (planOf s d ≤ 1) && !s.domainOn d && !domainWithdrawn s d
      up.foldl (fun u d => powerUp u d 0) (wait s up)
    | 1 =>
      let off := (List.range 92).filter fun d => planOf s d ≠ 0 && (s.domainOn d)
      off.foldl (fun u d => offAsk u d 0 true) (wait s off)
    | _ =>
      match holdRefused s with
      | some det => refuse s rq dzBusy det
      | none =>
        let off := (List.range 92).filter fun d => s.domainOn d
        let still := (List.range 4).foldl (fun u c => u.setSlc c { u.slc c with traceOff := true }) s
        off.foldl (fun u d => offAsk u d 0 true) (wait still off)

/-- POWER_STATE (R556). -/
def powerStateEvt (s : State) (old new cause : Nat) : State :=
  lanimanEvt s 0x1301 (leBytes 1 old ++ leBytes 1 new ++ leBytes 1 cause)

/-- POWER_TRANSITION_COMPLETE (R541): every domain of the transition is off or in service. -/
def powerTransitionComplete (s : State) : State :=
  match s.power.wait with
  | none => s
  | some w =>
    if !w.left.isEmpty then s
    else
      let old := s.boot.devState
      let new := if w.target = 0 then 1 else if w.target = 1 then 2 else 3
      let s1 := { s with power := { s.power with wait := none } }
      let s2 := if w.target = 2 then flushTile (flushTile s1 0) 1 else if w.target = 0 then writeWake s1 8 0 else s1
      setDevState (powerStateEvt (replyOk s2 w.req []) old new 0) new

/-- A wake source that the mask enables ends HOLD by a warm start (R542). -/
def wakeHold (s : State) (src inst maskBit : Nat) : State :=
  if s.boot.devState = 3 && bit (s.param 0x1305 0) maskBit && !s.boot.warmDue then
    let s1 := writeWake s src inst
    { s1 with boot := { s1.boot with warmDue := true } }
  else s

/-- WAKE_N low, and TLP or link activity on a host port (R542). -/
def wakeN (s : State) : State := wakeHold s 1 0 0
def hostPortActivityWake (s : State) (h : Nat) : State := wakeHold s 2 h 1

/-! ## Droop (R545, R546) -/

def State.stretch (s : State) (t : Nat) : Stretch := mapGet s.power.stretch t {}
def State.setStretch (s : State) (t : Nat) (x : Stretch) : State :=
  { s with power := { s.power with stretch := mapSet s.power.stretch t x } }

/-- Add time to a level's entry. -/
def addLevel (l : List Nat) (lv n : Nat) : List Nat :=
  l.zipIdx.map fun (v, i) => if i + 1 = lv then satAdd 64 v n else v

/-- Account the time at the present level up to now (R546). -/
def stretchCount (s : State) (x : Stretch) : Stretch :=
  let n := s.now - x.since
  { x with since := s.now, total := addLevel x.total x.level n, window := addLevel x.window x.level n }

/-- DROOP_DETECT (R545): the deepest sag that a detector of the tile reports, in mV. -/
def droopDetect (s : State) (t sag : Nat) : State :=
  let th := s.param 0x1303 t
  let lv := if sag < th then 0 else if sag < th + 10 then 1 else if sag < th + 20 then 2 else 3
  let x := s.stretch t
  if x.level < lv then s.setStretch t { stretchCount s x with level := lv } else s

/-- DROOP_LEVEL_FALL (R545). -/
def droopLevelFall (s : State) (t : Nat) : State :=
  let x := s.stretch t
  if x.level = 0 then s else s.setStretch t { stretchCount s x with level := x.level - 1 }

/-- The stretch load of a window (R546). -/
def stretchLoad (w : List Nat) : Rat :=
  (((w.getD 0 0 : Nat) : Rat) / 9 + ((w.getD 1 0 : Nat) : Rat) / 5 + ((w.getD 2 0 : Nat) : Rat) / 3) / 19660800

/-- STRETCH_WINDOW_END (R546): windows end at multiples of 19,660,800 Tc. -/
def stretchWindowEnd (s : State) : State :=
  if s.now / 19660800 ≤ s.power.windows then s
  else (List.range 6).foldl (fun z t =>
    let x := stretchCount z (z.stretch t)
    let l := stretchLoad x.window
    let shown := (roundAway (l * 1000)).toNat
    let deepest := if x.window.getD 2 0 ≠ 0 then 3 else if x.window.getD 1 0 ≠ 0 then 2 else if x.window.getD 0 0 ≠ 0 then 1 else 0
    let over_ := 2 ≤ t && decide (((z.param 0x1304 0 : Nat) : Rat) < l * 1000)
    let z1 := z.setStretch t { x with window := [0, 0, 0], load := shown,
                                      overRes := if over_ then satAdd 32 x.overRes 1 else x.overRes }
    if over_ then lanimanEvt z1 0x1303 (leBytes 1 t ++ leBytes 2 shown ++ leBytes 1 deepest) else z1)
    { s with power := { s.power with windows := s.now / 19660800 } }

/-! ## Ageing (R547 to R553, R566) -/

def State.tilePlan (s : State) (t : Nat) : TilePlan := mapGet s.power.tiles t {}
def State.setTilePlan (s : State) (t : Nat) (x : TilePlan) : State :=
  { s with power := { s.power with tiles := mapSet s.power.tiles t x } }

/-- A cluster counts as in service: not withdrawn (R549). -/
def clusterIn (s : State) (cl : Nat) : Bool := !domainWithdrawn s cl

/-- Facet MAC capacity and local-memory bandwidth capacity in 0.1 % (R552). -/
def capacity (s : State) (mem : Bool) : Nat :=
  let nom : Rat := ((Config.nominalMHz : Nat) : Rat)
  let sum := ((List.range 64).filter (clusterIn s)).foldl (fun (a : Rat) cl =>
    let f := (nom - ((100 * (s.tilePlan (2 + cl / 16)).bin : Nat) : Rat)) / nom
    a + (if mem && (s.cluster cl).split then f / 2 else f)) 0
  (roundAway (sum * 1000 / 64)).toNat

/-- The fields of the plan that the ageing record keeps (R543, R566). -/
def planFields (tiles : SMap TilePlan) : List Nat :=
  (List.range 6).flatMap fun t =>
    let x := mapGet tiles t {}
    [x.v, x.bin, x.pairedOff, x.clustersOff, x.cloveOff, b2n x.millOff, ofSigned 8 x.slack]

/-- The 4,096 bytes of the plan. -/
def planImage (tiles : SMap TilePlan) : List Byte := padTo 4096 ((Config.planBytes (planFields tiles)).take 4096)

/-- Flash offsets of the two copies of the ageing record (R559). -/
def ageOffset (copy : Nat) : Nat := if copy = 0 then 0x4000 else 0x6000

/-- CRC of a copy, its own field taken as zero (R566). -/
def ageCrc (b : List Byte) : Nat := crc32c (b.take 12 ++ [0, 0, 0, 0] ++ (b.drop 16).take 4096)

/-- The sequence of a valid copy of the ageing record (R566). -/
def ageCopy (s : State) (copy : Nat) : Option Nat :=
  let b := bytesRead 0xFF s.host.flash (ageOffset copy) 4112
  if rd b 0 4 = 0x41474552 && rd b 8 4 = 4096 && rd b 12 4 = ageCrc b then some (rd b 4 4) else none

/-- The valid copy with the higher sequence, with that sequence. -/
def ageNewest (s : State) : Option (Nat × Nat) :=
  match ageCopy s 0, ageCopy s 1 with
  | some a, some b => if a < b then some (1, b) else some (0, a)
  | some a, none => some (0, a)
  | none, some b => some (1, b)
  | none, none => none

/-- Rewrite the ageing record: the other copy with the next sequence (R566). -/
def writeAgeRecord (s : State) : State :=
  let (copy, sq) := match ageNewest s with | some (c, q) => (1 - c, (q + 1) % 2 ^ 32) | none => (0, 0)
  let head := leBytes 4 0x41474552 ++ leBytes 4 sq ++ leBytes 4 4096
  let body := planImage s.power.tiles
  let crc := leBytes 4 (crc32c (head ++ [0, 0, 0, 0] ++ body))
  let f := bytesWrite 0xFF (bytesClear s.host.flash (ageOffset copy) 8192) (ageOffset copy) (head ++ crc ++ body)
  { s with host := { s.host with flash := f }, boot := { s.boot with ageSaved := s.power.tiles } }

/-- AGEING_STEP (R556). -/
def ageingStepEvt (s : State) (t kind inst : Nat) : State :=
  let x := s.tilePlan t
  lanimanEvt s 0x1401 (leBytes 1 t ++ leBytes 1 kind ++ leBytes 2 inst ++ leBytes 2 x.v ++ leBytes 1 x.bin ++
    leBytes 2 (capacity s false))

/-- Carry out a plan step of a compute tile (R549): kind and instance. -/
def ageStep (s : State) (t kind inst : Nat) : State :=
  let x := s.tilePlan t
  let done := fun (u : State) => ageingStepEvt (writeAgeRecord u) t kind inst
  match kind with
  | 0 => s.setTilePlan t { x with avs := some (min (x.v + 5) (s.param 0x1403 (t - 2)), 0) }
  | 1 => s.setTilePlan t { x with avs := some (x.v - 5, 1) }
  | 2 => done (setReason (s.setTilePlan t { x with pairedOff := setBit x.pairedOff (inst % 16) true }) inst 3 true 3)
  | 3 => done (s.setTilePlan t { x with bin := x.bin + 1 })
  | 4 => done (offAsk (s.setTilePlan t { x with clustersOff := setBit x.clustersOff (inst % 16) true }) inst 4 true)
  | 5 => done (offAsk (s.setTilePlan t { x with cloveOff := setBit x.cloveOff (inst % 2) true }) (68 + inst) 4 true)
  | _ => done (s.setTilePlan t { x with millOff := true })

/-- What R549 looks at in a sample or after a margin fault: clusters and Clove domains of the tile below target, the
fabric class, and whether every class stands at or above the release value. -/
structure AgeView where
  arr : List Nat
  dat : List Nat
  clv : List Nat
  fab : Bool
  rel : Bool

/-- The first row of R549 whose condition holds. -/
def agePlan (s : State) (t : Nat) (w : AgeView) : Option (Nat × Nat) :=
  let x := s.tilePlan t
  let c := t - 2
  let vmax := s.param 0x1403 c
  let paired := w.arr.filter fun k => !(s.cluster (16 * c + k)).split && !bit x.pairedOff k
  if (!w.arr.isEmpty || !w.dat.isEmpty || !w.clv.isEmpty || w.fab) && decide (x.v < vmax) then some (0, c)
  else if !paired.isEmpty && x.v = vmax then some (2, 16 * c + paired.headD 0)
  else if !w.dat.isEmpty && x.v = vmax && decide (x.bin < s.param 0x1405 c) then some (3, c)
  else if !w.dat.isEmpty && x.v = vmax && x.bin = s.param 0x1405 c then some (4, 16 * c + w.dat.headD 0)
  else if !w.clv.isEmpty && x.v = vmax then some (5, 2 * c + w.clv.headD 0)
  else if w.fab && !x.millOff && x.v = vmax then some (6, c)
  else if w.rel && decide (s.param 0x1404 c < x.v) then some (1, c)
  else none

/-- The positions of a list whose value lies below a bound, of those in use. -/
def belowAt (l : List Int) (bound : Nat) (use : Nat → Bool) : List Nat :=
  l.zipIdx.filterMap fun (v, i) => if use i && decide (v < (bound : Int)) then some i else none

/-- The view of R549 of one sample. -/
def ageView (s : State) (t : Nat) (m : TileSample) : AgeView :=
  let c := t - 2
  let tg := s.param 0x1401 0
  let rl := s.param 0x1402 0
  let cu := fun i => !domainWithdrawn s (16 * c + i)
  let cv := fun i => !domainWithdrawn s (68 + 2 * c + i)
  { arr := belowAt (m.array.take 16) tg cu, dat := belowAt (m.datapath.take 16) tg cu, clv := belowAt (m.clove.take 2) tg cv
    fab := decide (m.fabric < (tg : Int))
    rel := (belowAt (m.array.take 16) rl cu).isEmpty && (belowAt (m.datapath.take 16) rl cu).isEmpty &&
      (belowAt (m.clove.take 2) rl cv).isEmpty && decide ((rl : Int) ≤ m.fabric) }

/-- The re-plan boundary of a sample (R548). -/
def boundary (now : Nat) : Nat := ceilDiv (now + 3932160) 19660800 * 19660800

/-- One 16-byte history record (R553). -/
def ageRecord (n t : Nat) (x : TilePlan) (m : TileSample) : List Byte :=
  leBytes 4 n ++ leBytes 1 t ++ leBytes 1 (if t < 2 then 255 else x.bin) ++ leBytes 2 (if t < 2 then 750 else x.v) ++
  leInt 1 m.slack ++ leBytes 1 m.cls ++ leBytes 2 m.idx ++ leBytes 4 m.degr

/-- One tile of an ageing sample (R548, R549, R552). -/
def sampleTile (s : State) (t : Nat) (m : TileSample) : State :=
  let x := s.tilePlan t
  let hist := (m.slack :: x.history).take 4320
  let (_, sec, kind) := Config.agePredict t hist
  let soon := 2 ≤ t && decide (sec < s.param 0x1406 0)
  let w := ageView s t m
  let good := if t < 2 then 0 else (List.range 16).foldl (fun a i => if w.arr.contains i || w.dat.contains i then a else a + 2 ^ i) 0
  let x1 := { x with slack := m.slack, cls := m.cls, idx := m.idx, degr := m.degr, history := hist, forecast := soon
                     bound := if t < 2 then none else some (boundary s.now)
                     step := if t < 2 then none else agePlan s t w
                     good := good }
  let recs := (s.power.records ++ [ageRecord s.power.samples t x m])
  let s1 := s.setTilePlan t x1
  let s2 := { s1 with power := { s1.power with records := recs.drop (recs.length - 65536) } }
  if soon && !x.forecast then lanimanEvt s2 0x1403 (leBytes 1 t ++ leBytes 1 kind ++ leBytes 4 sec) else s2

/-- AGEING_SAMPLE (R548, R551): every tile is sampled; after the first sample the clusters leave the split mode of
start-up. A sample is due 1 s after core release, and every 600 s then. -/
def ageingSample (s : State) (ms : List TileSample) : State :=
  if !(s.power.nextSample.any fun t => decide (t ≤ s.now)) then s
  else
  let s1 := (ms.take 6).zipIdx.foldl (fun z (m, t) => sampleTile z t m) s
  let s2 := { s1 with power := { s1.power with
    samples := s1.power.samples + 1, sampleAt := s.now, nextSample := some (s.now + 600 * tcS) } }
  (List.range 64).foldl (fun z cl => if bit (z.cluster cl).reasons 0 then setReason z cl 0 false 0 else z) s2

/-- The Air Times in which a boundary gives way to a commit, and the outcome (R548). -/
def commitWindow (s : State) (b : Nat) : Option Nat :=
  match s.cfg.commit with
  | some c => if decide (c.t ≤ b + 491520) && decide (b ≤ c.t + 491520) then some (c.t + 491520) else none
  | none => none

/-- A tile reaches its boundary: the planned step, and clusters that leave margin recovery (R549, R550). -/
def replanTile (s : State) (t : Nat) : State :=
  let x := s.tilePlan t
  match x.bound with
  | none => s
  | some b =>
    if s.now < b then s
    else match commitWindow s b with
      | some o => s.setTilePlan t { x with bound := some ((o / 19660800 + 1) * 19660800) }
      | none =>
        let back := (List.range 16).filter fun i => bit x.margin i && bit x.good i
        let s1 := s.setTilePlan t { x with bound := none, step := none,
                                           margin := back.foldl (fun m i => setBit m i false) x.margin }
        let s2 := back.foldl (fun z i => setReason z (16 * (t - 2) + i) 2 false 2) s1
        match x.step with
        | some (kind, inst) => ageStep s2 t kind inst
        | none => s2

/-- REPLAN_BOUNDARY (R548, R549). -/
def replanBoundary (s : State) : State := (List.range 4).foldl (fun z c => replanTile z (2 + c)) s

/-- MARGIN_FLAG (R550): a replica's slack has fallen below 0. -/
def marginFlag (s : State) (t cls idx : Nat) : State :=
  let x := s.tilePlan t
  let s1 := lanimanEvt s 0x1402 (leBytes 1 t ++ leBytes 1 cls ++ leBytes 2 idx ++ leBytes 2 (if t < 2 then 750 else x.v))
  if t < 2 || 3 < cls then s1
  else
    let vmax := s.param 0x1403 (t - 2)
    let k := if cls < 2 then idx / 6 % 16 else idx / 16 % 2
    let s2 := if x.v < vmax then s1.setTilePlan t { x with avs := some (min (x.v + 10) vmax, 255) } else s1
    let s3 := if cls < 2 then
        let y := s2.tilePlan t
        setReason (s2.setTilePlan t { y with margin := setBit y.margin k true }) (16 * (t - 2) + k) 2 true 2
      else s2
    if x.v < vmax then s3
    else
      let w : AgeView := { arr := if cls = 0 then [k] else [], dat := if cls = 1 then [k] else [],
                           clv := if cls = 2 then [k] else [], fab := cls = 3, rel := false }
      match agePlan s t w with
      | some (kind, inst) => ageStep s3 t kind inst
      | none => s3

/-- AVS_WRITE_COMPLETE (R551): 0 done, 1 three attempts failed, 2 a status that reports a fault. -/
def avsWriteComplete (s : State) (rail res : Nat) : State :=
  let t := 2 + rail
  let x := s.tilePlan t
  match x.avs with
  | none => s
  | some (v, kind) =>
    if res = 0 then
      let s1 := s.setTilePlan t { x with v := v, avs := none }
      if kind ≤ 1 then ageingStepEvt s1 t kind rail else s1
    else lanimanEvt (s.setTilePlan t { x with avs := none }) 0x1405 (leBytes 1 rail ++ leBytes 1 (res - 1) ++ leBytes 2 v)

/-- One tile block of AGEING_REPORT (R552). -/
def ageBlock (s : State) (t : Nat) : List Byte :=
  let x := s.tilePlan t
  let (sv, sc, kind) := Config.agePredict t x.history
  leBytes 2 (if t < 2 then 750 else x.v) ++ leBytes 1 (if t < 2 then 255 else x.bin) ++ leInt 1 x.slack ++
  leBytes 2 x.pairedOff ++ leBytes 2 x.clustersOff ++ leBytes 1 (x.cloveOff % 4 + 4 * b2n x.millOff) ++ leBytes 1 x.cls ++
  leBytes 2 x.idx ++ leBytes 4 sv ++ leBytes 4 sc ++ leBytes 1 kind ++ leBytes 3 0 ++ leBytes 4 x.degr ++ leBytes 20 0

/-- AGEING_REPORT (R552). -/
def cmdAgeingReport (rq : Req) (_ : List Byte) (s : State) : State :=
  let dec := (List.range 64).filter fun u => !s.mill.withdrawn.contains (1024 + u) && !domainWithdrawn s (68 + cloveDomainOf u)
  let mills := (List.range 4).filter fun c => !millWithdrawn s c
  replyOk s rq (leBytes 2 (capacity s false) ++ leBytes 2 (capacity s true) ++ leBytes 2 dec.length ++ leBytes 2 mills.length ++
    leBytes 8 s.power.sampleAt ++ (List.range 6).flatMap (ageBlock s))

/-- AGEING_HISTORY (R553). -/
def cmdAgeingHistory (rq : Req) (pl : List Byte) (s : State) : State :=
  let first := rd pl 0 4
  let oldest := match s.power.records with | r :: _ => rd r 0 4 | [] => 0
  let out := (s.power.records.filter fun r => decide (first ≤ rd r 0 4)).take 254
  replyOk s rq (leBytes 4 oldest ++ leBytes 4 out.length ++ out.flatten)

/-- A domain has power: it is on, or it is a lane group while a pin-driving instruction of the TAP is in effect (R577). -/
def powered (s : State) (d : Nat) : Bool :=
  s.domainOn d || (decide (76 ≤ d) && decide (d ≤ 91) && s.proul.driving.isSome)

/-- POWER_STATUS (R555's chapter). -/
def cmdPowerStatus (rq : Req) (_ : List Byte) (s : State) : State :=
  let w := s.power.wake
  let on := (List.range 96).foldl (fun a d => if powered s d then a + 2 ^ d else a) 0
  replyOk s rq (leBytes 1 s.boot.devState ++ leBytes 3 0 ++
    leBytes 1 w.source ++ [0] ++ leBytes 2 w.inst ++ leBytes 4 0 ++ leBytes 8 w.at_ ++ leBytes 12 on ++
    (List.range 6).flatMap fun t =>
      let x := stretchCount s (s.stretch t)
      leBytes 2 (if t < 2 then 750 else (s.tilePlan t).v) ++ leBytes 2 x.load ++ leBytes 4 x.overRes ++
      leBytes 8 (x.total.getD 0 0) ++ leBytes 8 (x.total.getD 1 0) ++ leBytes 8 (x.total.getD 2 0))

/-! ## Lane trends (R125, R554) -/

/-- The least-squares line through points, at a time (R554). -/
def fitAt (pts : List (Nat × Nat)) (at_ : Nat) : Rat :=
  let n : Rat := ((pts.length : Nat) : Rat)
  let st : Rat := ((pts.foldl (fun a p => a + p.1) 0 : Nat) : Rat)
  let sy : Rat := ((pts.foldl (fun a p => a + p.2) 0 : Nat) : Rat)
  let stt : Rat := ((pts.foldl (fun a p => a + p.1 * p.1) 0 : Nat) : Rat)
  let sty : Rat := ((pts.foldl (fun a p => a + p.1 * p.2) 0 : Nat) : Rat)
  let den := n * stt - st * st
  let b := if den = 0 then 0 else (n * sty - st * sy) / den
  if n = 0 then 0 else (sy - b * st) / n + b * ((at_ : Nat) : Rat)

/-- A predicted value as a byte. -/
def byteRat (q : Rat) : Nat := (clampInt 0 255 q.floor).toNat

/-- The least of some rationals. -/
def minRat (l : List Rat) : Rat := l.foldl (fun a q => if q < a then q else a) (l.headD 0)

/-- TREND_SCAN_DONE (R125, R554): eye, width and height of each eye. -/
def trendScanDone (s : State) (l : Nat) (eyes : List (Nat × Nat × Nat)) : State :=
  match mapGet? s.lanes.scans (l / 16) with
  | none => s
  | some c =>
    if c.host || c.lane ≠ l then s
    else
      let x := s.lane l
      let hmin := (eyes.map fun e => e.2.2).foldl min ((eyes.map fun e => e.2.2).headD 0)
      let worse := match x.trendPrev with | some (e, h) => e ≠ x.entry && decide (hmin < h) | none => false
      let bad := if worse && !x.unsuitable.contains x.entry then x.unsuitable ++ [x.entry] else x.unsuitable
      let all := (eyes.map fun e => (s.now, e.1, e.2.1, e.2.2)) ++ x.trend
      let kept := (List.range 3).flatMap fun e => (all.filter fun r => r.2.1 = e).take 32
      let y := { x with trend := kept, unsuitable := bad, trendPrev := some (x.entry, hmin) }
      let s1 := { s with lanes := { s.lanes with scans := mapDel s.lanes.scans (l / 16) } }
      let s2 := s1.setLane l y
      let at_ := s.now + s.param 0x1409 0 * tcS
      let of := fun (e : Nat) => kept.filter fun r => r.2.1 = e
      let es := (List.range 3).filter fun e => !(of e).isEmpty
      let pw := minRat (es.map fun e => fitAt ((of e).map fun r => (r.1, r.2.2.1)) at_)
      let ph := minRat (es.map fun e => fitAt ((of e).map fun r => (r.1, r.2.2.2)) at_)
      if !es.isEmpty && (decide (ph < ((s.param 0x1407 0 : Nat) : Rat)) || decide (pw < ((s.param 0x1408 0 : Nat) : Rat))) then
        let rec_ := ((List.range 5).find? fun e => e ≠ x.entry && !bad.contains e && entryUsable s l e).getD 255
        lanimanEvt s2 0x1404 (leBytes 2 l ++ leBytes 1 x.entry ++ leBytes 1 rec_ ++ leBytes 1 (byteRat ph) ++ leBytes 1 (byteRat pw))
      else s2

end Sys2Proof.Machine
end

