-- ==== Sys2Proof/Machine/Pool.lean ====
section
/-! DEFINITION. Device pools (R489 to R512): pool frames and their keys, heartbeats and reachability, time offsets,
ownership, mirroring, takeover and migration. -/

namespace Sys2Proof.Machine

/-! ## The pool as the configuration store holds it -/

def poolIndex (s : State) : Nat := s.paramIn (unitId 0 0) 0x1101 0
def poolSize (s : State) : Nat := s.paramIn (unitId 0 0) 0x1102 0
def poolId (s : State) : Nat := s.paramIn (unitId 0 0) 0x1103 0

/-- The other members. -/
def poolPeers (s : State) : List Nat := (List.range (poolSize s)).filter fun i => i ≠ poolIndex s

def State.peer (s : State) (i : Nat) : Peer := mapGet s.pool.peers i {}
def State.setPeer (s : State) (i : Nat) (x : Peer) : State :=
  { s with pool := { s.pool with peers := mapSet s.pool.peers i x } }
def State.poolLink (s : State) (p : Nat) : PoolLink := mapGet s.pool.links p {}
def State.setPoolLink (s : State) (p : Nat) (x : PoolLink) : State :=
  { s with pool := { s.pool with links := mapSet s.pool.links p x } }

/-- An event of the pool agent: source class 11 (R518). -/
def poolEvt (s : State) (code : Nat) (d : List Byte) : State := raise s 11 0 code d

/-- Ports with role POOL whose link is up. -/
def poolPorts (s : State) : List Nat := (List.range 64).filter fun p => portRole s p = 2 && linkSends s p 0

/-- Up direct links to a peer. -/
def directPorts (s : State) (i : Nat) : List Nat := (poolPorts s).filter fun p => (s.poolLink p).peer = some i

/-- Members to which the device has an up direct link, as a mask (R496). -/
def directMask (s : State) : Nat := (poolPeers s).foldl (fun a i => if (directPorts s i).isEmpty then a else a + 2 ^ i) 0

/-- JOINED while every other member is reachable (R497). -/
def poolJoined (s : State) : Bool := (poolPeers s).all fun i => (s.peer i).reachable

/-- Unreachable members, as a mask (R508). -/
def poolMissing (s : State) : Nat := (poolPeers s).foldl (fun a i => if (s.peer i).reachable then a else a + 2 ^ i) 0

/-! ## Frames (R491 to R495) -/

/-- The label of the key-derivation function: "IXSOLU-POOL". -/
def poolLabel : List Byte := [0x49, 0x58, 0x53, 0x4F, 0x4C, 0x55, 0x2D, 0x50, 0x4F, 0x4F, 0x4C]

/-- The key of an epoch (R493). -/
def poolKey (s : State) (e : Nat) : List Byte := Config.kdf s.pool.secret (poolLabel ++ leBytes 4 (poolId s) ++ leBytes 4 e)

def State.keySlot (s : State) (k : Nat) : PoolKey := if k % 2 = 0 then s.pool.slot0 else s.pool.slot1
def State.setKeySlot (s : State) (k : Nat) (x : PoolKey) : State :=
  if k % 2 = 0 then { s with pool := { s.pool with slot0 := x } } else { s with pool := { s.pool with slot1 := x } }

/-- The 24-byte header (R491). -/
def poolHeader (s : State) (ty slot dst count len : Nat) : List Byte :=
  leBytes 4 (poolId s) ++ [0x10] ++ leBytes 1 ty ++ leBytes 1 (slot % 2 * 16 + dst * 4 + poolIndex s) ++ [0] ++
  leBytes 8 (s.pool.startCount * 2 ^ 48 + count) ++ leBytes 2 len ++ leBytes 6 0

/-- The key slot used toward a peer (R494). -/
def slotFor (s : State) (i : Nat) : Nat :=
  let new := s.pool.epoch % 2
  if (s.peer i).keyEpoch = some s.pool.epoch || (s.keySlot (new + 1)).epoch.isNone then new else (new + 1) % 2

/-- Send a frame to a peer on a port (R491, R493). -/
def poolSendOn (s : State) (p i ty : Nat) (payload : List Byte) : State :=
  let sl := slotFor s i
  let k := s.keySlot sl
  if !s.pool.frames || poolSize s ≤ 1 || k.epoch.isNone || decide (2 ^ 48 - 1 ≤ k.count) || s.boot.devState = 0 ||
      s.boot.devState = 3 || s.boot.devState = 5 then s
  else
    let n := k.count + 1
    let h := poolHeader s ty sl i n payload.length
    let (cipher, tag) := Config.gcmSeal (poolKey s (k.epoch.getD 0)) (slice h 4 12) h payload
    let frame := beBytes 6 poolMac ++ beBytes 6 (s.paramPort p 0x0503 p) ++ beBytes 2 0x88B5 ++ h ++ cipher ++ tag
    let s1 := s.setKeySlot sl { k with count := n }
    let s2 := if n = 2 ^ 47 then poolEvt s1 0x1106 (leBytes 1 4 ++ leBytes 1 255 ++ leBytes 4 (k.epoch.getD 0)) else s1
    txQueue s2 p 0 { kind := 5, bytes := frame }

/-- The port for a frame to a member: a direct link, or one to a neighbour that reports a link to it (R497). -/
def poolRoute (s : State) (i n : Nat) : Option Nat :=
  let d := directPorts s i
  if !d.isEmpty then d[n % d.length]?
  else ((poolPeers s).filter fun j => j ≠ i && bit (s.peer j).links i).findSome? fun j => (directPorts s j).head?

/-- Send a frame to a member. -/
def poolSend (s : State) (i ty : Nat) (payload : List Byte) : State :=
  match poolRoute s i 0 with
  | some p => poolSendOn s p i ty payload
  | none => s

/-- Drop a received frame (R495). -/
def poolDrop (s : State) (p src reason : Nat) : State :=
  let k := p * 8 + reason
  let n := satAdd 32 (mapGet s.pool.drops k 0) 1
  let s1 := { s with pool := { s.pool with drops := mapSet s.pool.drops k n } }
  raiseLimited s1 11 0 0x1105 p 19661 1 fun _ => leBytes 1 p ++ leBytes 1 src ++ leBytes 1 reason ++ [0] ++ leBytes 4 n

/-! ## Ownership (R500 to R502) -/

/-- Owner and ownership epoch of a carrier. -/
def ownerOf (s : State) (c : Nat) : Nat × Nat := mapGet s.pool.owners c (255, 0)

def setOwner (s : State) (c o e : Nat) : State :=
  { s with pool := { s.pool with owners := mapSet s.pool.owners c (o, e) } }

/-- POOL_OWNER (R512). -/
def ownerEvt (s : State) (c old new e cause : Nat) : State :=
  poolEvt s 0x1104 (leBytes 2 c ++ leBytes 1 old ++ leBytes 1 new ++ leBytes 4 e ++ leBytes 1 cause)

/-- One CLAIM frame to a peer. -/
def sendClaim (s : State) (i : Nat) (full last : Bool) (es : List (Nat × Bool × Nat)) : State :=
  poolSend s i 3 (leBytes 2 es.length ++ leBytes 1 (b2n full + 2 * b2n last) ++ [0] ++ leBytes 4 0 ++
    es.flatMap fun e => leBytes 2 e.1 ++ leBytes 1 (b2n e.2.1) ++ [0] ++ leBytes 4 e.2.2)

/-- Announce a change of ownership to every reachable peer (R502). -/
def announce (s : State) (c : Nat) (owned : Bool) : State :=
  ((poolPeers s).filter fun i => (s.peer i).reachable).foldl
    (fun t i => sendClaim t i false true [(c, owned, (ownerOf s c).2)]) s

/-- The full list, in frames of at most 1,023 entries (R502). -/
def sendFull (s : State) (i : Nat) : State :=
  let es := (s.pool.owners.filter fun e => e.2.1 = poolIndex s).map fun e => (e.1, true, e.2.2)
  if es.length ≤ 1023 then sendClaim s i true true es
  else sendClaim (sendClaim s i true false (es.take 1023)) i true true (es.drop 1023)

/-- The carrier starts at T0 with nothing in its engine (R482). -/
def carrierStart (s : State) (c : Nat) : State :=
  let s1 := (List.range 4).foldl (fun t i => setTier t i c 0) (fhActivate s c)
  { s1 with mill := { s1.mill with tierHist := mapDel s1.mill.tierHist c } }

/-- The carrier's items are removed and its engine stops (R482). -/
def carrierStop (s : State) (c : Nat) : State := fhDeactivate (dropCarrier s c) c

/-- Committed active on this device. -/
def committedActive (s : State) (c : Nat) : Bool := s.param 0x1001 c = 1

/-- The mirror target of a carrier that the device owns (R503). -/
def mirrorTarget (s : State) (c : Nat) : Option Nat :=
  let m := s.param 0x1109 c
  let h := s.param 0x1108 c
  let own := poolIndex s
  if poolSize s ≤ 1 || s.param 0x110B c = 0 || (ownerOf s c).1 ≠ own then none
  else if m = 255 then (if h = own then none else some h)
  else if m = own then some h else some m

/-- POOL_MIRROR (R512). -/
def mirrorEvt (s : State) (c i kind pages : Nat) : State :=
  poolEvt s 0x1108 (leBytes 2 c ++ leBytes 1 i ++ leBytes 1 kind ++ leBytes 4 pages)

/-- Begin a resync of a carrier to its target (R505). -/
def resyncStart (s : State) (c i : Nat) : State :=
  let lo := s.param 0x110A c / 2048
  let n := s.param 0x110B c / 2048
  let m : Mirror := { target := i, resync := if n = 0 then none else some (lo, lo + n - 1) }
  mirrorEvt { s with pool := { s.pool with mirrors := mapSet s.pool.mirrors c m } } c i 1 n

/-- Bring a carrier's mirroring in line with its owner, target and reachability (R503, R505). -/
def mirrorSync (s : State) (c : Nat) : State :=
  match mirrorTarget s c with
  | none => { s with pool := { s.pool with mirrors := mapDel s.pool.mirrors c } }
  | some i =>
    if (mapGet? s.pool.mirrors c).map (fun m => m.target) = some i then s
    else if (s.peer i).reachable then resyncStart s c i
    else { s with pool := { s.pool with mirrors := mapSet s.pool.mirrors c { target := i } } }

/-- The device becomes owner and serves the carrier (R501, R506, R507). -/
def becomeOwner (s : State) (c e cause : Nat) : State :=
  let old := (ownerOf s c).1
  let s1 := setOwner s c (poolIndex s) e
  let s2 := if committedActive s c && !s.pool.held.contains c then carrierStart s1 c else s1
  mirrorSync (ownerEvt (announce s2 c true) c old (poolIndex s) e cause) c

/-- The carrier goes to standby: another member owns it (R502, R507). -/
def becomeStandby (s : State) (c o e cause : Nat) : State :=
  let old := (ownerOf s c).1
  mirrorSync (ownerEvt (setOwner (carrierStop s c) c o e) c old o e cause) c

/-- A carrier becomes active at its swap (R482, R501): it starts where the device serves it. -/
def carrierActivate (s : State) (c : Nat) : State :=
  if poolSize s ≤ 1 then carrierStart s c
  else
    let (o, e) := ownerOf s c
    if o = poolIndex s then mirrorSync (carrierStart s c) c
    else if o = 255 && s.paramIn (unitId 0 0) 0x1108 c = poolIndex s then
      let s1 := setOwner s c (poolIndex s) ((e + 1) % 2 ^ 32)
      mirrorSync (ownerEvt (announce (carrierStart s1 c) c true) c 255 (poolIndex s) ((e + 1) % 2 ^ 32) 0) c
    else s

/-- A carrier becomes inactive at its swap (R482, R501). -/
def carrierDeactivate (s : State) (c : Nat) : State :=
  let s1 := carrierStop s c
  let (o, e) := ownerOf s c
  if 1 < poolSize s && o = poolIndex s then
    mirrorSync (ownerEvt (announce (setOwner s1 c 255 e) c false) c o 255 e 1) c
  else s1

/-- One entry of a CLAIM from a member (R502). -/
def claimEntry (s : State) (i c : Nat) (owned : Bool) (e : Nat) : State :=
  let (o, e0) := ownerOf s c
  let own := poolIndex s
  let wins := decide (e0 < e) || (e0 = e && decide (i < o))
  if !owned then (if o = i && decide (e0 ≤ e) then setOwner s c 255 e else s)
  else if o = own then
    let better := match mapGet? s.pool.lost c with
      | some (j, x) => decide (x < e) || (x = e && decide (i < j))
      | none => true
    if wins then (if better then { s with pool := { s.pool with lost := mapSet s.pool.lost c (i, e) } } else s)
    else ownerEvt s c i own e0 5
  else if wins || o = 255 && decide (e0 ≤ e) || o = i then setOwner s c i (max e e0) else s

/-- A CLAIM payload (R502). -/
def claimRecv (s : State) (i : Nat) (b : List Byte) : State :=
  let n := min (rd b 0 2) 1023
  (List.range n).foldl (fun t k =>
    let c := rd b (8 + 8 * k) 2
    if 1024 ≤ c || b.length < 16 + 8 * k then t else claimEntry t i c (bit (rd b (10 + 8 * k) 1) 0) (rd b (12 + 8 * k) 4)) s

/-- CLAIM_LOST_STANDBY (R502). -/
def claimLostStandby (s : State) (c : Nat) : State :=
  match mapGet? s.pool.lost c with
  | none => s
  | some (o, e) =>
    becomeStandby { s with pool := { s.pool with lost := mapDel s.pool.lost c } } c o e 4

/-! ## Heartbeats (R496 to R498) -/

/-- A stamp of now, in 2^-16 Tc. -/
def poolStamp (s : State) : Nat := s.time.air / 65536

/-- A stamp as 10 bytes: Tc and fraction. -/
def stampBytes (v : Nat) : List Byte := leBytes 8 (v / 65536) ++ leBytes 2 (v % 65536)

/-- The payload of a heartbeat to member i on a port (R496): only the link's partner is answered for what came on the link. -/
def heartbeatPayload (s : State) (p i : Nat) : List Byte :=
  let l := s.poolLink p
  let (a, ta) := l.sent.headD (0, 0)
  let (b, tb) := if l.peer = some i then l.got.headD (0, 0) else (0, 0)
  leBytes 8 a ++ stampBytes ta ++ [0, 0] ++ leBytes 8 b ++ stampBytes tb ++ leBytes 1 (directMask s) ++
  leBytes 1 (b2n (s.boot.devState = 4)) ++ leBytes 8 0

/-- HEARTBEAT_SEND (R492), 196,608 Tc after the last at the earliest: to each peer on every up direct link, or relayed. A link whose partner is not yet known
carries one to every peer. -/
def heartbeatSend (s : State) : State :=
  if s.now < s.pool.heartbeatAt + 196608 then s else
  let unknown := (poolPorts s).filter fun p => (s.poolLink p).peer.isNone
  (poolPeers s).foldl (fun t i =>
    let ds := directPorts s i ++ unknown
    let ps := if ds.isEmpty then (poolRoute s i 0).toList else ds
    ps.foldl (fun u p => poolSendOn u p i 1 (heartbeatPayload u p i)) t)
    { s with pool := { s.pool with heartbeatAt := s.now } }

/-- A pool frame has left the device: a heartbeat's transmit stamp is held (R496). -/
def poolSent (s : State) (p : Nat) (b : List Byte) : State :=
  if rd b 19 1 = 1 then
    let l := s.poolLink p
    s.setPoolLink p { l with sent := ((rd b 22 8, poolStamp s) :: l.sent).take 64 }
  else s

/-- A peer becomes reachable (R497, R502, R505). -/
def peerUp (s : State) (i : Nat) : State :=
  let s1 := poolEvt (s.setPeer i { s.peer i with reachable := true }) 0x1101
    (leBytes 1 i ++ leBytes 1 1 ++ leBytes 1 (directPorts s i).length)
  let s2 := sendFull s1 i
  (s2.pool.owners.filter fun e => e.2.1 = poolIndex s && mirrorTarget s2 e.1 = some i).foldl
    (fun t e => resyncStart t e.1 i) s2

/-- An offset measurement from a direct heartbeat (R498). -/
def offsetMeasure (s : State) (p i : Nat) (b : List Byte) (t4now : Nat × Nat) : State :=
  let l := s.poolLink p
  let st := fun (o : Nat) => rd b o 8 * 65536 + rd b (o + 8) 2
  let find := fun (m : List (Nat × Nat)) (q : Nat) => (m.find? fun e => e.1 = q).map fun e => e.2
  let s1 := s.setPoolLink p { l with got := (t4now :: l.got).take 64 }
  match find l.sent (rd b 20 8), find l.got (rd b 0 8) with
  | some t1, some t4 =>
    let t2 := st 28
    let t3 := st 8
    if t2 < t3 then
      let th : Int := ((t2 : Int) - t1) + ((t3 : Int) - t4)
      let dl : Int := ((t4 : Int) - t1) - ((t3 : Int) - t2)
      let x := s1.peer i
      s1.setPeer i { x with offsets := (th :: x.offsets).take 16, delay2 := dl }
    else s1
  | _, _ => s1

/-- A HEARTBEAT payload from member i on port p (R496, R497, R498). -/
def heartbeatRecv (s : State) (p i sq : Nat) (b : List Byte) : State :=
  let x := s.peer i
  let links := rd b 38 1 % 16
  let s1 := s.setPeer i { x with lastHb := s.now, safe := bit (rd b 39 1) 0, links := links }
  let direct := bit links (poolIndex s) || (s.poolLink p).peer.isNone
  let s2 := if direct then
      offsetMeasure (s1.setPoolLink p { s1.poolLink p with peer := some i }) p i b (sq, poolStamp s)
    else s1
  if x.reachable then s2 else peerUp s2 i

/-- PEER_UNREACHABLE (R497, R507). -/
def peerUnreachable (s : State) (i : Nat) : State :=
  let x := s.peer i
  if !x.reachable || decide (s.now < x.lastHb + 3932160) then s
  else
    let s1 := poolEvt (s.setPeer i { x with reachable := false }) 0x1101
      (leBytes 1 i ++ leBytes 1 0 ++ leBytes 1 (directPorts s i).length)
    { s1 with pool := { s1.pool with
        migrations := s1.pool.migrations.map fun e =>
          (e.1, if e.2.target = i && decide (s.now < e.2.t) then { e.2 with cancelled := true, split := true } else e.2)
        mirrors := s1.pool.mirrors.map fun e => (e.1, if e.2.target = i then { e.2 with resync := none } else e.2) } }

/-- The median of the offsets in 2^-16 ns (R498): the mean of the two middle values of an even number. -/
def medianNs (l : List Int) : Int :=
  let m := sortInt l
  let n := m.length
  let twice : Int := if n = 0 then 0 else if n % 2 = 1 then 2 * m.getD (n / 2) 0 else m.getD (n / 2 - 1) 0 + m.getD (n / 2) 0
  roundAway ((twice : Rat) / 4 * 1000000 / 1966080)

/-- TIME_OFFSET_EVALUATION (R498), every 19,660,800 Tc. -/
def timeOffsetEvaluation (s : State) : State :=
  if s.now < s.pool.offsetAt + 19660800 then s else
  (poolPeers s).foldl (fun t i =>
    let x := t.peer i
    if x.offsets.isEmpty then t
    else
      let m := medianNs x.offsets
      let hi := decide (t.param 0x1106 0 * 65536 < m.natAbs)
      let t1 := t.setPeer i { x with median := m, above := hi }
      if hi = x.above then t1
      else poolEvt t1 0x1103 (leBytes 1 i ++ leBytes 1 (b2n hi) ++ leInt 8 m))
    { s with pool := { s.pool with offsetAt := s.now } }

/-! ## STATE (R499) -/

/-- STATE_SEND (R492, R499), every 19,660,800 Tc. -/
def stateSend (s : State) : State :=
  if s.now < s.pool.stateAt + 19660800 then s else
  let map := s.pool.owners.foldl (fun a e => if e.2.1 = poolIndex s then a + 2 ^ e.1 else a) 0
  let b := leBytes 4 (generation s .pool) ++ leBytes 4 (s.param 0x1104 0) ++ leBytes 8 (fingerprint s .pool) ++
    leBytes 1 (b2n (commitOpen s)) ++ leBytes 7 0 ++ leBytes 128 map
  (poolPeers s).foldl (fun t i => poolSend t i 2 b) { s with pool := { s.pool with stateAt := s.now } }

/-- A STATE payload from a member (R494, R499). -/
def stateRecv (s : State) (i : Nat) (b : List Byte) : State :=
  let x := s.peer i
  let ep := rd b 4 4
  let n := ((List.range 1024).filter fun c => bit (rd b 24 128) c).length
  let busy := bit (rd b 16 1) 0 || commitOpen s
  let differs := rd b 8 8 ≠ fingerprint s .pool
  let sw := s.pool.retireAt.isSome && ep = s.pool.epoch && !x.switched
  let s1 := s.setPeer i { x with keyEpoch := some ep, owned := n, switched := x.switched || sw,
                                 mismatch := if busy then x.mismatch else differs }
  let s2 := if sw then poolEvt s1 0x1106 (leBytes 1 1 ++ leBytes 1 i ++ leBytes 4 ep) else s1
  if busy || differs = x.mismatch then s2
  else poolEvt s2 0x1102 (leBytes 1 i ++ leBytes 1 (b2n differs) ++ leBytes 4 (generation s .pool) ++ leBytes 4 (rd b 0 4))

/-! ## Mirroring (R503 to R505) -/

/-- A MIRROR payload (R504); `d` is what a fetch for an evicted page finds. -/
def mirrorRecv (s : State) (b : List Byte) (d : Decode) : State :=
  let c := rd b 0 2
  let off := rd b 8 8
  let lo := s.param 0x110A c
  let hi := lo + s.param 0x110B c
  if 1024 ≤ c || (ownerOf s c).1 = poolIndex s || off % 2048 ≠ 0 || off < lo || hi < off + 2048 then
    { s with pool := { s.pool with mirrorDropped := satAdd 32 s.pool.mirrorDropped 1 } }
  else match extWriteD s off (slice b 16 2048) d with
    | some t => t
    | none => mirrorEvt s c (poolIndex s) 3 1

/-- The dirty pages of a carrier's mirror range, with the Air Time from which each waits. -/
def dirtyOf (s : State) (c : Nat) : List (Nat × Nat) :=
  let lo := s.param 0x110A c
  let hi := lo + s.param 0x110B c
  s.pool.dirty.filter fun e => decide (lo ≤ e.1 * 2048) && decide (e.1 * 2048 < hi)

/-- The page that waits longest. -/
def oldestPage (l : List (Nat × Nat)) : Option Nat :=
  (l.foldl (fun (a : Option (Nat × Nat)) e => match a with
    | some m => if e.2 < m.2 then some e else some m
    | none => some e) none).map fun e => e.1

/-- A MIRROR frame with the bytes of a page leaves on a port (R503, R504). -/
def mirrorSendOn (s : State) (c i page p : Nat) (data : List Byte) : State :=
  let n := mapGet s.pool.mirrorSeq c 0 + 1
  poolSendOn { s with pool := { s.pool with mirrorSeq := mapSet s.pool.mirrorSeq c (n % 2 ^ 32) } } p i 4
    (leBytes 2 c ++ [0, 0] ++ leBytes 4 (n % 2 ^ 32) ++ leBytes 8 (page * 2048) ++ data)

/-- The page is sent where it can be read and the target has a route. -/
def mirrorSendPage (s : State) (c i page : Nat) : State :=
  match extRead s (page * 2048) 2048 with
  | none => s
  | some data =>
    match poolRoute s i c with
    | none => s
    | some p => mirrorSendOn s c i page p data

/-- Send one page of a carrier: its dirty bit is cleared, the page read and sent (R504). -/
def mirrorSend (s : State) (c i page : Nat) : State :=
  mirrorSendPage { s with pool := { s.pool with dirty := mapDel s.pool.dirty page } } c i page

/-- A carrier on its way to another member, with dirty pages: they go ahead of other carriers' pages (R507). -/
def migratesDirty (s : State) (c : Nat) : Bool :=
  (match mapGet? s.pool.migrations c with | some m => !m.cancelled && !m.switched | none => false) && !(dirtyOf s c).isEmpty &&
  (match mirrorTarget s c with | some i => (s.peer i).reachable && (poolRoute s i c).isSome | none => false)

/-- MIRROR_PAGE_SEND (R504, R505): the next page of a resync, else the dirty page that waits longest. -/
def mirrorPageSend (s : State) (c : Nat) : State :=
  match mirrorTarget s c with
  | none => s
  | some i =>
    if !(s.peer i).reachable || (poolRoute s i c).isNone then s
    else if !migratesDirty s c && s.pool.migrations.any (fun e => migratesDirty s e.1) then s
    else match (mapGet? s.pool.mirrors c).bind fun m => m.resync with
      | some (a, z) =>
        let s1 := mirrorSend s c i a
        let r := if a < z then some (a + 1, z) else none
        let s2 := { s1 with pool := { s1.pool with mirrors := mapSet s1.pool.mirrors c { target := i, resync := r } } }
        if a < z then s2 else mirrorEvt s2 c i 2 (s.param 0x110B c / 2048)
      | none =>
        match oldestPage (dirtyOf s c) with
        | some p => mirrorSend s c i p
        | none => s

/-- MIRROR_LAG_EXCEEDED (R505). -/
def mirrorLagExceeded (s : State) (c : Nat) : State :=
  match mirrorTarget s c with
  | none => s
  | some i =>
    let late := (dirtyOf s c).filter fun e => decide (e.2 + s.param 0x1107 0 < s.now)
    if late.isEmpty || !(s.peer i).reachable then s
    else raiseLimited s 11 0 0x1108 c 19660800 late.length fun n =>
      leBytes 2 c ++ leBytes 1 i ++ leBytes 1 0 ++ leBytes 4 n

/-! ## Takeover and migration (R506, R507) -/

/-- TAKEOVER (R506). -/
def cmdTakeover (rq : Req) (pl : List Byte) (s : State) : State :=
  let c := rq.inst
  let t := rd pl 0 8
  let o := (ownerOf s c).1
  if !committedActive s c then refuse s rq dzNotReady 1
  else if s.owns c then reply s rq 0 1 []
  else if o ≠ 255 && (s.peer o).reachable && !(s.peer o).safe then refuse s rq dzBusy o
  else if (mapGet? s.pool.migrations c).isSome || (mapGet? s.pool.incoming c).isSome || (mapGet? s.pool.takeovers c).isSome then
    refuse s rq dzBusy 0xFFFF
  else if t < s.now + 3932160 then refuse s rq dzLate 0
  else { s with pool := { s.pool with takeovers := mapSet s.pool.takeovers c { req := rq, t := t } } }

/-- TAKEOVER_SWITCH (R506): at T. -/
def takeoverSwitch (s : State) (c : Nat) : State :=
  match mapGet? s.pool.takeovers c with
  | none => s
  | some w =>
    if s.now < w.t then s
    else
      let e := ((ownerOf s c).2 + 1) % 2 ^ 32
      let s1 := { s with pool := { s.pool with takeovers := mapDel s.pool.takeovers c } }
      replyOk (becomeOwner s1 c e 2) w.req (leBytes 4 e)

/-- A MIGRATE frame (R507). -/
def sendMigrate (s : State) (i c st e t : Nat) : State :=
  poolSend s i 5 (leBytes 2 c ++ leBytes 1 st ++ [0] ++ leBytes 4 e ++ leBytes 8 t)

/-- MIGRATE (R507). -/
def cmdMigrate (rq : Req) (pl : List Byte) (s : State) : State :=
  let c := rq.inst
  let b := rd pl 0 1
  let t := rd pl 8 8
  let (o, e) := ownerOf s c
  if !committedActive s c then refuse s rq dzNotReady 1
  else if !s.owns c then refuse s rq dzDenied (if o = 255 then 0xFFFF else o)
  else if (mapGet? s.pool.migrations c).isSome then refuse s rq dzBusy 0xFFFF
  else if b = poolIndex s || poolSize s ≤ b then refuse s rq dzBadParam 0
  else if !(s.peer b).reachable then refuse s rq dzSplit 0
  else if t < s.now + 3932160 then refuse s rq dzLate 0
  else
    let m : Migration := { req := rq, target := b, t := t, epoch := (e + 1) % 2 ^ 32 }
    sendMigrate { s with pool := { s.pool with migrations := mapSet s.pool.migrations c m } } b c 1 m.epoch t

/-- The target answers READY once it is committed active, in standby, and its resync is complete; whether the resync is
complete only the frames' order shows, and is a free value here (R507). -/
def answerReady (s : State) (c : Nat) : State :=
  match mapGet? s.pool.incoming c with
  | none => s
  | some m =>
    if m.readySent || !committedActive s c || s.owns c then s
    else
      let (f, s1) := s.fresh
      if Config.freeBool f then
        sendMigrate { s1 with pool := { s1.pool with incoming := mapSet s1.pool.incoming c { m with readySent := true } } }
          m.source c 2 m.epoch m.t
      else s1

/-- A MIGRATE payload from member i (R507). -/
def migrateRecv (s : State) (i : Nat) (b : List Byte) : State :=
  let c := rd b 0 2
  let e := rd b 4 4
  let t := rd b 8 8
  let bad := { s with pool := { s.pool with migBad := satAdd 32 s.pool.migBad 1 } }
  let out := (mapGet? s.pool.migrations c).bind fun m => if m.target = i then some m else none
  let inc := (mapGet? s.pool.incoming c).bind fun m => if m.source = i then some m else none
  if 1024 ≤ c then bad
  else match rd b 2 1 with
    | 1 =>
      let m : Incoming := { source := i, t := t, epoch := e }
      answerReady { s with pool := { s.pool with incoming := mapSet s.pool.incoming c m } } c
    | 2 => match out with
      | some m => { s with pool := { s.pool with migrations := mapSet s.pool.migrations c { m with ready := true } } }
      | none => s
    | 3 => match inc with
      | some m =>
        sendMigrate { s with pool := { s.pool with incoming := mapSet s.pool.incoming c { m with armed := true, epoch := e, t := t } } }
          i c 4 e t
      | none => s
    | 4 => match out with
      | some m => { s with pool := { s.pool with migrations := mapSet s.pool.migrations c { m with ack := true } } }
      | none => s
    | 5 => match inc with
      | some _ => { s with pool := { s.pool with incoming := mapDel s.pool.incoming c } }
      | none => s
    | _ => bad

/-- Cancel a migration at its source. -/
def migrateCancel (s : State) (c : Nat) (m : Migration) : State :=
  sendMigrate { s with pool := { s.pool with migrations := mapSet s.pool.migrations c { m with cancelled := true } } }
    m.target c 5 m.epoch m.t

/-- MIGRATE_GO_DEADLINE (R507): by T − 491,520. -/
def migrateGoDeadline (s : State) (c : Nat) : State :=
  match mapGet? s.pool.migrations c with
  | none => s
  | some m =>
    if m.cancelled || m.goSent || decide (s.now + 491520 < m.t) then s
    else if m.ready && (dirtyOf s c).isEmpty then
      sendMigrate { s with pool := { s.pool with migrations := mapSet s.pool.migrations c { m with goSent := true } } }
        m.target c 3 m.epoch m.t
    else migrateCancel s c m

/-- MIGRATE_ACK_DEADLINE (R507): by T − 245,760. -/
def migrateAckDeadline (s : State) (c : Nat) : State :=
  match mapGet? s.pool.migrations c with
  | none => s
  | some m => if m.cancelled || m.ack || decide (s.now + 245760 < m.t) then s else migrateCancel s c m

/-- MIGRATE_SWITCH (R507): at T, at either end. -/
def migrateSwitch (s : State) (c : Nat) : State :=
  match mapGet? s.pool.migrations c, mapGet? s.pool.incoming c with
  | some m, _ =>
    if m.cancelled || m.switched || !m.goSent || decide (s.now < m.t) then s
    else becomeStandby { s with pool := { s.pool with migrations := mapSet s.pool.migrations c { m with switched := true } } }
      c m.target m.epoch 3
  | none, some m =>
    if s.now < m.t then s
    else if !m.armed then { s with pool := { s.pool with incoming := mapDel s.pool.incoming c } }
    else becomeOwner { s with pool := { s.pool with incoming := mapDel s.pool.incoming c } } c m.epoch 3
  | none, none => s

/-- MIGRATE_REPLY (R507): at T + 1,966,080. -/
def migrateReply (s : State) (c : Nat) : State :=
  match mapGet? s.pool.migrations c with
  | none => s
  | some m =>
    if s.now < m.t + 1966080 then s
    else
      let s1 := { s with pool := { s.pool with migrations := mapDel s.pool.migrations c } }
      if m.split then refuse s1 m.req dzSplit 0
      else if (ownerOf s c).1 = m.target then replyOk s1 m.req []
      else refuse s1 m.req dzNotReady (if m.ready then 2 else 1)

/-! ## Received frames (R495) -/

/-- Relay a frame for another member on a direct link to it (R497). -/
def poolRelay (s : State) (i : Nat) (b : List Byte) : State :=
  match (directPorts s i).head? with
  | some p => txQueue s p 0 { kind := 5, bytes := b }
  | none => { s with pool := { s.pool with noRoute := satAdd 32 s.pool.noRoute 1 } }

/-- Record an accepted sequence (R495). -/
def acceptSeq (x : PoolSeen) (q : Nat) : PoolSeen :=
  let top := max x.top q
  { top := top, list := (q :: x.list).filter fun v => decide (top < v + 1024) }

/-- A pool frame without its FCS, as it passes the checks of R495 and is used. -/
def poolFrame (s : State) (p : Nat) (b : List Byte) (d : Decode) : State :=
  let h := slice b 14 24
  let b6 := rd h 6 1
  let src := b6 % 4
  let dst := b6 / 4 % 4
  let sl := b6 / 16 % 2
  let ty := rd h 5 1
  let q := rd h 8 8
  let n := rd h 16 2
  let k := s.keySlot sl
  let key := 2 * src + sl
  let seen := mapGet s.pool.seen key {}
  if !s.pool.frames || rd h 0 4 ≠ poolId s || poolSize s ≤ 1 then poolDrop s p src 0
  else if rd h 4 1 / 16 ≠ 1 || ty = 0 || 5 < ty || src = poolIndex s then
    let s1 := if src = poolIndex s then poolEvt s 0x1107 (leBytes 1 p) else s
    poolDrop s1 p src 4
  else match k.epoch with
    | none => poolDrop s p src 1
    | some e =>
      let cipher := slice b 38 n
      let tag := slice b (38 + n) 16
      let iv := slice h 4 12
      -- counter mode: sealing the cipher text gives the plain text
      let plain := (Config.gcmSeal (poolKey s e) iv h cipher).1
      if b.length < 54 + n || 8192 < n || (Config.gcmSeal (poolKey s e) iv h plain).2 ≠ tag then poolDrop s p src 2
      else if seen.list.contains q || q + 1024 ≤ seen.top then poolDrop s p src 3
      else
        let s1 := { s with pool := { s.pool with seen := mapSet s.pool.seen key (acceptSeq seen q) } }
        if dst ≠ poolIndex s then poolRelay s1 dst b
        else match ty with
          | 1 => heartbeatRecv s1 p src q plain
          | 2 => stateRecv s1 src plain
          | 3 => claimRecv s1 src plain
          | 4 => answerReady (mirrorRecv s1 plain d) (rd plain 0 2)
          | _ => migrateRecv s1 src plain

/-- A received pool frame of one type, and for MIGRATE of one step: what its row carries. -/
def poolRow (s : State) (p ty : Nat) (b : List Byte) (d : Decode) : State :=
  if rd b 19 1 = ty && portRole s p = 2 then poolFrame s p b d else s

/-! ## Keys (R494) and the commit's swap -/

/-- Load a key slot with an epoch (R494, R495). -/
def loadKey (s : State) (e : Nat) : State :=
  let s1 := s.setKeySlot e { epoch := some e }
  let s2 := { s1 with pool := { s1.pool with epoch := e, seen := s1.pool.seen.filter fun x => x.1 % 2 ≠ e % 2 } }
  poolEvt s2 0x1106 (leBytes 1 0 ++ leBytes 1 255 ++ leBytes 4 e)

/-- The pool parameters of the configuration store have changed at a swap or a rollback (R494, R500). -/
def poolSync (s : State) : State :=
  let e := s.paramIn (unitId 0 0) 0x1104 0
  if poolSize s ≤ 1 then
    { s with pool := { s.pool with slot0 := {}, slot1 := {}, peers := [], links := [], retireAt := none, mirrors := [] } }
  else if (s.keySlot e).epoch = some e && s.pool.epoch = e then s
  else if (s.keySlot (s.pool.epoch)).epoch.isSome then
    let back := (s.pool.epoch + 2 ^ 32 - e) % 2 ^ 32 = 1 && (s.keySlot e).epoch = some e
    -- a rollback returns to the slot that is still valid; the slot loaded at T is emptied
    if back then
      let s1 := s.setKeySlot (e + 1) {}
      { s1 with pool := { s1.pool with epoch := e, retireAt := none } }
    else
      let s1 := loadKey s e
      { s1 with pool := { s1.pool with
          retireAt := some (s.now + s.param 0x1105 0)
          peers := s1.pool.peers.map fun x => (x.1, { x.2 with switched := false }) } }
  else loadKey s e

/-- KEY_GRACE_EXPIRY (R494). -/
def keyGraceExpiry (s : State) : State :=
  match s.pool.retireAt with
  | none => s
  | some t =>
    if s.now < t then s
    else
      let e := s.pool.epoch
      let old := (s.keySlot (e + 1)).epoch.getD 0
      let s1 := s.setKeySlot (e + 1) {}
      let s2 := poolEvt { s1 with pool := { s1.pool with retireAt := none } } 0x1106 (leBytes 1 2 ++ leBytes 1 255 ++ leBytes 4 old)
      ((poolPeers s2).filter fun i => (s2.peer i).keyEpoch ≠ some e).foldl
        (fun u i => poolEvt u 0x1106 (leBytes 1 3 ++ leBytes 1 i ++ leBytes 4 e)) s2

/-! ## POOL_STATUS (R510) -/

/-- Nanoseconds of a time in 2^-16 Tc, doubled. -/
def nsOfTwice (v : Int) : Nat := (roundAway ((v : Rat) / 131072 * 1000000000 / 1966080000)).toNat

/-- POOL_STATUS (R510); how many carriers a peer mirrors here in sync this device cannot tell: a free value. -/
def cmdPoolStatus (rq : Req) (_ : List Byte) (s : State) : State :=
  let st := if poolSize s ≤ 1 then 0 else if poolJoined s then 1 else 2
  let (f, s1) := s.fresh
  let block := fun (i : Nat) =>
    if i = poolIndex s then leBytes 32 0
    else
      let x := s.peer i
      let flags := b2n x.reachable + 2 * b2n x.safe + 4 * b2n (x.keyEpoch.isSome && !x.mismatch) +
        8 * b2n (x.keyEpoch = some (s.param 0x1104 0))
      leBytes 1 flags ++ leBytes 1 (directPorts s i).length ++ [0, 0] ++
      leBytes 4 (min (s.now - x.lastHb) (2 ^ 32 - 1)) ++ leInt 8 x.median ++ leBytes 4 (nsOfTwice x.delay2) ++
      leBytes 2 x.owned ++ leBytes 2 (Config.freeNat (f + i)) ++ leBytes 8 0
  replyOk { s1 with freeCount := s.freeCount + 4 } rq
    (leBytes 1 (poolIndex s) ++ leBytes 1 (s.param 0x1102 0) ++ leBytes 1 st ++ [0] ++ leBytes 4 (s.param 0x1104 0) ++
      leBytes 4 (generation s .pool) ++ leBytes 4 0 ++ (List.range 4).flatMap block)

end Sys2Proof.Machine
end

