-- ==== Sys2Proof/Machine/Cfg.lean ====
section
/-! DEFINITION. Parameters and configuration changes: PARAM_GET and PARAM_SET (R452 to R454), staged sets (R469, R470),
the checks of CFG_ARM (R472), the units concerned (R474), the steps of a commit (R475 to R482, R616), generations
(R483) and CARRIER_STATUS (R458). -/

namespace Sys2Proof.Machine

/-! ## Entries (R452) -/

/-- One entry of a list: ID, instance and value. -/
structure Entry where
  id : Nat
  inst : Nat
  val : Nat
  deriving DecidableEq, Repr

/-- A range of bytes lies inside one declared region; with `prot` inside a PROTECTED one (R382). -/
def inRegion (s : State) (prot : Bool) (base n : Nat) : Bool :=
  s.mem.regions.any fun e =>
    e.2.st ≠ 0 && (!prot || e.2.mode = 2) && decide (e.2.base ≤ base) && decide (base + n ≤ e.2.base + e.2.size)

/-- The value lies in the parameter's range (R18, R299). -/
def valueOk (s : State) (p : ParamSpec) (id inst v : Nat) : Bool :=
  p.ok inst (if p.signed then toSigned (8 * p.size) v else (v : Int)) &&
  (id ≠ 0x080B || v = 2 ^ 64 - 1 || inRegion s true v 67108864)

/-- A condition of an immediate parameter's own rule (R72, R112, R118, R119). -/
def ownRule (s : State) (e : Entry) : Option Nat :=
  if e.id = 0x0213 then
    (if s.param 0x0216 e.inst ≤ s.param 0x0217 e.inst then some dzRange else none)
  else if 0x0401 ≤ e.id && e.id ≤ 0x0404 then laneParamCond s e.id e.inst e.val
  else none

/-- What a command does with its entries. -/
inductive EntryUse where
  | get
  | set
  | stage
  deriving DecidableEq, Repr

/-- The checks of R452 on the entry at the head of `b`, with the values in force that `s` holds; answers the entry and
the bytes that it takes. -/
def entryCheck (s : State) (u : EntryUse) (b : List Byte) : Nat ⊕ (Entry × Nat) :=
  let id := rd b 0 2
  let inst := rd b 2 2
  let len := rd b 4 2
  let n := 8 + (len + 7) / 8 * 8
  if b.length < 8 || b.length < n then .inl dzBadLen
  else match paramSpec id with
    | none => .inl dzBadParam
    | some p =>
      let want := if u = .get then 0 else p.size
      let v := rd b 8 p.size
      let e : Entry := { id := id, inst := inst, val := if u = .get then 0 else v }
      if len ≠ want then .inl dzBadLen
      else if (u = .set && p.staged) || (u = .stage && !p.staged) then .inl dzBadParam
      else if p.insts ≤ inst then .inl dzRange
      else if p.badInst inst then .inl dzBadParam
      else if u ≠ .get && !valueOk s p id inst v then .inl dzRange
      else match (if u = .set then ownRule s e else none) with
        | some st => .inl st
        | none => .inr (e, n)

/-- The entries of a list in order, or the first failure with its index; a PARAM_SET entry is judged with the entries
before it in force. -/
def entries (fuel : Nat) (s : State) (u : EntryUse) (i : Nat) (b : List Byte) : (Nat × Nat) ⊕ List Entry :=
  match fuel with
  | 0 => .inr []
  | f + 1 =>
    if b.isEmpty then .inr []
    else match entryCheck s u b with
      | .inl st => .inl (st, i)
      | .inr (e, n) =>
        let t := if u = .set then s.setParam e.id e.inst e.val else s
        match entries f t u (i + 1) (b.drop n) with
        | .inl x => .inl x
        | .inr l => .inr (e :: l)

/-! ## PARAM_GET and PARAM_SET (R453, R454) -/

/-- A parameter's bytes in a list: the head and the padded value. -/
def entryBytes (s : State) (e : Entry) : List Byte :=
  let n := ((paramSpec e.id).map fun p => p.size).getD 0
  leBytes 2 e.id ++ leBytes 2 e.inst ++ leBytes 2 n ++ [0, 0] ++ padTo ((n + 7) / 8 * 8) (leBytes n (s.param e.id e.inst))

/-- Index of the first entry whose value ends beyond byte 4,076 of the reply. -/
def firstUnfit (l : List (List Byte)) : Option Nat :=
  (List.range l.length).find? fun i => decide (4076 < ((l.take (i + 1)).flatten).length)

/-- PARAM_GET (R454). -/
def cmdParamGet (rq : Req) (b : List Byte) (s : State) : State :=
  match entries (b.length + 1) s .get 0 b with
  | .inl (st, i) => refuse s rq st i
  | .inr l =>
    let bs := l.map (entryBytes s)
    match firstUnfit bs with
    | some i => refuse s rq dzBadLen i
    | none => replyOk s rq bs.flatten

/-- The pairs of R555, in ascending order of the lower parameter: the value of the first is to lie below that of the
second. -/
def paramPairs : List ((Nat × Nat) × (Nat × Nat)) :=
  ((0x1401, 0), (0x1402, 0)) :: (List.range 4).map fun i => ((0x1404, i), (0x1403, i))

/-- The first pair that fails after every entry of the packet, with the index of the last entry that names it. -/
def pairFail (t : State) (l : List Entry) : Option Nat :=
  (paramPairs.filterMap fun (a, b) =>
    let named := l.zipIdx.filter fun x => (x.1.id, x.1.inst) = a || (x.1.id, x.1.inst) = b
    if !named.isEmpty && decide (t.param b.1 b.2 ≤ t.param a.1 a.2) then named.getLast?.map fun x => x.2 else none).head?

/-- One immediate parameter takes effect (R453), with what its rule ties to the write. -/
def paramApply (s : State) (e : Entry) : State :=
  let old := s.param e.id e.inst
  let s1 := s.setParam e.id e.inst e.val
  if e.id = 0x0213 then ppsArm s1 e.inst
  else if 0x0401 ≤ e.id && e.id ≤ 0x0404 then laneParamEffect s1 e.id e.inst old e.val
  else if e.id = 0x080E then s1.setSlc e.inst { s1.slc e.inst with traceOff := false }
  else if e.id = 0x0A01 && old ≠ e.val then gainChanged s1 e.inst
  else s1

/-- PARAM_SET (R453). -/
def cmdParamSet (rq : Req) (b : List Byte) (s : State) : State :=
  match entries (b.length + 1) s .set 0 b with
  | .inl (st, i) => refuse s rq st i
  | .inr l =>
    match pairFail (l.foldl (fun t e => t.setParam e.id e.inst e.val) s) l with
    | some i => refuse s rq dzBadParam i
    | none => replyOk (l.foldl paramApply s) rq []

/-! ## Staged sets (R469, R470) -/

/-- The staged set of a command port. -/
def State.staged (s : State) (port : Nat) : SMap Nat := mapGet s.cfg.staged port []

/-- CFG_STAGE (R470). -/
def cmdCfgStage (rq : Req) (b : List Byte) (s : State) : State :=
  let op := rd b 0 1
  if 2 ≤ op then refuse s rq dzBadParam 0xFFFF
  else match entries (b.length + 1) s .stage 0 (b.drop 8) with
    | .inl (st, i) => refuse s rq st i
    | .inr l =>
      let set := l.foldl (fun m e => mapSet m (pkey e.id e.inst) e.val) (if op = 1 then [] else s.staged rq.port)
      if 65536 < set.length then refuse s rq dzRange 0xFFFF
      else replyOk { s with cfg := { s.cfg with staged := mapSet s.cfg.staged rq.port set } } rq (leBytes 4 set.length)

/-! ## The configuration that a commit would produce -/

/-- Instances of a parameter that the store or the set lists. -/
def overInst (s : State) (set : SMap Nat) (id : Nat) : List Nat :=
  sortNat (dedupNat ((s.cfg.params ++ set).filterMap fun e => if e.1 / 65536 = id then some (e.1 % 65536) else none))

/-- Carriers active after the commit, and carriers active in the committed configuration. -/
def actAfter (s : State) (set : SMap Nat) : List Nat := (overInst s set 0x1001).filter fun c => s.paramWith set 0x1001 c = 1
def actBefore (s : State) : List Nat := sortNat s.activeCarriers

/-- The eAxC contexts bound to a carrier, and those of kind ANTENNA. -/
def overEaxcs (s : State) (set : SMap Nat) (c : Nat) : List Nat :=
  (overInst s set 0x061C).filter fun x => s.paramWith set 0x061C x = c
def overAntennas (s : State) (set : SMap Nat) (c : Nat) : List Nat :=
  (overEaxcs s set c).filter fun x => s.paramWith set 0x061E x = 0

/-- Active carriers with a fronthaul port. -/
def overBound (s : State) (set : SMap Nat) : List Nat := (actAfter s set).filter fun c => s.paramWith set 0x0607 c ≠ 255

/-- PRACH groups of active carriers with a format: carrier, group and format. -/
def overPrach (s : State) (set : SMap Nat) : List (Nat × Nat × Nat) :=
  (actAfter s set).flatMap fun c => (List.range 16).filterMap fun f =>
    let fmt := if f = 0 then 0 else s.paramWith set 0x0A04 (c * 16 + f)
    if fmt = 0 then none else some (c, f, fmt)

/-! ## Rules that refuse a configuration (R472 step 5) -/

/-- Link rate of a port mode in Gb/s (R26). -/
def linkGbps (m : Nat) : Nat :=
  match m with
  | 1 => 400
  | 2 => 200
  | 3 => 100
  | 4 => 25
  | 5 => 10
  | _ => 0

/-- Bits of one PRB of a port in a direction (R615). -/
def prbBits (s : State) (set : SMap Nat) (p dl : Nat) : Nat :=
  match s.paramWith set (0x0601 + 2 * dl) p with
  | 0 => 384
  | 4 => 96
  | _ => 24 * s.paramWith set (0x0602 + 2 * dl) p + 4

/-- A hundred times the full-grid rate of a carrier in bits per second (R615); 0 where R89 refuses its numerology. -/
def gridRate (s : State) (set : SMap Nat) (c dl : Nat) : Nat :=
  match numerology? (s.paramWith set 0x0301 c) (s.paramWith set 0x0302 c) (s.paramWith set 0x0303 c) with
  | some m => (overAntennas s set c).length * s.paramWith set 0x0609 c * (m.perSlot * m.slots * 100) *
      prbBits s set (s.paramWith set 0x0607 c) dl * 104
  | none => 0

/-- Some link of a FRONTHAUL port carries more than its rate in a direction (R26 detail 0x0005). -/
def linkOverloaded (s : State) (set : SMap Nat) : Bool :=
  (overBound s set).any fun c =>
    let p := s.paramWith set 0x0607 c
    let k := s.paramWith set 0x0608 c
    let mates := (overBound s set).filter fun d => s.paramWith set 0x0607 d = p && s.paramWith set 0x0608 d = k
    s.paramWith set 0x0502 p = 0 && decide (k < linksOfMode (s.paramWith set 0x0501 p)) &&
      (List.range 2).any fun dl =>
        decide (linkGbps (s.paramWith set 0x0501 p) * 1000000000 * 100 < (mates.map fun d => gridRate s set d dl).sum)

/-- A carrier's place is withdrawn (R26, R549): its Mill slice, or every Facet cluster or every Clove domain of that
slice's tile.  The spec gives no parameter that places a carrier: slice c mod 4, which keeps the carrier's tier (R287),
is taken for it (DESIGN CHOICE, `notes/assumptions/72.md`). -/
def placeWithdrawn (s : State) (c : Nat) : Bool :=
  let slc := c % 4
  millWithdrawn s slc || (List.range 16).all (fun k => domainWithdrawn s (16 * slc + k)) ||
  (List.range 2).all fun m => domainWithdrawn s (68 + 2 * slc + m)

/-- R26. -/
def armLimits (s : State) (set : SMap Nat) : Option (Nat × Nat) :=
  let act := actAfter s set
  let ctx := fun c => (overEaxcs s set c).length
  if 1024 < act.length then some (dzRange, 1)
  else if act.any (fun c => decide (64 < (overAntennas s set c).length)) then some (dzRange, 2)
  else if 192 < (act.filter fun c => decide (16 < (overAntennas s set c).length)).length then some (dzRange, 3)
  else if (List.range 64).any (fun p =>
      decide (1024 < (((overBound s set).filter fun c => s.paramWith set 0x0607 c = p).map ctx).sum)) then some (dzRange, 4)
  else if linkOverloaded s set then some (dzRange, 5)
  else if act.any (placeWithdrawn s) then some (dzRange, 6)
  else none

/-- R54: no port in PTP slots of both domains. -/
def armPtpPorts (s : State) (set : SMap Nat) : Option (Nat × Nat) :=
  if (List.range 4).any (fun i => s.paramWith set 0x020D i ≠ 255 &&
      (List.range 4).any fun j => s.paramWith set 0x020D (4 + j) = s.paramWith set 0x020D i) then some (dzBadParam, 0) else none

/-- R85: an activation needs aligned Air Time while `airtime.require_aligned` is true. -/
def armAligned (s : State) (set : SMap Nat) : Option (Nat × Nat) :=
  let starts := (actAfter s set).any fun c =>
    s.param 0x1001 c ≠ 1 || (s.pool.held.contains c && mapGet? set (pkey 0x1001 c) = some 1)
  if s.param 0x0306 0 = 1 && !s.time.aligned && starts then some (dzNotReady, 0) else none

/-- R89: numerologies that R87 lists. -/
def armNumerology (s : State) (set : SMap Nat) : Option (Nat × Nat) :=
  if (actAfter s set).any fun c =>
      (numerology? (s.paramWith set 0x0301 c) (s.paramWith set 0x0302 c) (s.paramWith set 0x0303 c)).isNone then
    some (dzBadParam, 0)
  else none

/-- R90: the timing of an active carrier does not change. -/
def armTiming (s : State) (set : SMap Nat) : Option (Nat × Nat) :=
  ((actBefore s).find? fun c => [0x0301, 0x0302, 0x0303, 0x0304].any fun id => s.paramWith set id c ≠ s.param id c).map
    fun c => (dzBusy, c)

/-- R111: every lane that a port mode uses is present and its selected entry is usable. -/
def armLanes (s : State) (set : SMap Nat) : Option (Nat × Nat) :=
  ((List.range 256).find? fun l => s.paramWith set 0x0501 (l / 4) ≠ 0 &&
    (!lanePresent s l || !entryUsable s l (s.param 0x0401 l))).map fun l => (dzBadParam, l)

/-- The set holds a parameter of a carrier. -/
def setConcerns (s : State) (set : SMap Nat) (c : Nat) : Bool :=
  set.any fun e => carrierOf (e.1 / 65536) (e.1 % 65536) = some c ||
    (isEaxcId (e.1 / 65536) && s.paramWith set 0x061C (e.1 % 65536) = c)

/-- R117: no carrier commit uses a port with an open window. -/
def armWindows (s : State) (set : SMap Nat) : Option (Nat × Nat) :=
  ((List.range 64).find? fun p => maintOpen s p &&
    (overBound s set).any fun c => s.paramWith set 0x0607 c = p && setConcerns s set c).map fun p => (dzBusy, p)

/-- R132: a carrier's binding is refused. -/
def badBinding (s : State) (set : SMap Nat) (c : Nat) : Bool :=
  let p := s.paramWith set 0x0607 c
  let k := s.paramWith set 0x0608 c
  let xs := overEaxcs s set c
  let onLink := ((overBound s set).filter fun d => s.paramWith set 0x0607 d = p && s.paramWith set 0x0608 d = k).flatMap
    (overEaxcs s set)
  let a := (overAntennas s set c).map fun x => s.paramWith set 0x061F x
  (p ≠ 255 && (s.paramWith set 0x0502 p ≠ 0 || decide (linksOfMode (s.paramWith set 0x0501 p) ≤ k) ||
    xs.any fun x => onLink.any fun y => y ≠ x && s.paramWith set 0x061E y = s.paramWith set 0x061E x &&
      s.paramWith set 0x061D y = s.paramWith set 0x061D x)) ||
  sortNat a ≠ List.range a.length

/-- R132. -/
def armBindings (s : State) (set : SMap Nat) : Option (Nat × Nat) :=
  ((actAfter s set).find? (badBinding s set)).map fun c => (dzBadParam, c)

/-- Staging areas of a carrier in use: first and last unit (R155). -/
def overAreas (s : State) (set : SMap Nat) (c : Nat) : List (Nat × Nat) :=
  (List.range 3).filterMap fun a =>
    let n := s.paramWith set 0x0618 (3 * c + a)
    let g := s.paramWith set 0x0619 (3 * c + a)
    let p := s.paramWith set 0x0609 c
    let u := if a = 0 then ceilDiv (g * p * 48) 4096 else if a = 1 then ceilDiv (g * (32 + p * 48)) 4096 else 1
    let b := s.paramWith set 0x0617 (3 * c + a)
    if n = 0 then none else some (b, b + n * u - 1)

/-- R155: areas lie within unit 255 and do not overlap on a port. -/
def armAreas (s : State) (set : SMap Nat) : Option (Nat × Nat) :=
  let bad := (List.range 64).any fun p =>
    let l := ((overBound s set).filter fun c => s.paramWith set 0x0607 c = p).flatMap (overAreas s set)
    l.any (fun a => decide (255 < a.2)) ||
      l.zipIdx.any fun a => l.zipIdx.any fun b => decide (a.2 < b.2) && decide (a.1.1 ≤ b.1.2) && decide (b.1.1 ≤ a.1.2)
  if bad then some (dzBadParam, 0) else none

/-- R157, R418: uplink flags. -/
def armFlags (s : State) (set : SMap Nat) : Option (Nat × Nat) :=
  if (actAfter s set).any fun c => decide (192 < s.paramWith set 0x061B c + s.paramWith set 0x0618 (3 * c)) then
    some (dzBadParam, 0)
  else none

/-- R166: each minimum below its maximum, and PRACH streams from 0 to 15. -/
def armFronthaul (s : State) (set : SMap Nat) : Option (Nat × Nat) :=
  let act := actAfter s set
  if act.any fun c => [(0x0610, 0x0611), (0x0613, 0x0612), (0x0615, 0x0614)].any fun m =>
      decide (s.paramWith set m.2 c ≤ s.paramWith set m.1 c) then some (dzBadParam, 0)
  else ((overInst s set 0x061C).find? fun x => act.contains (s.paramWith set 0x061C x) &&
    s.paramWith set 0x061E x = 1 && decide (15 < s.paramWith set 0x061F x)).map fun x => (dzBadParam, x)

/-- The tail mode that the image a core holds declares (R215, R459). -/
def declaredTail (s : State) (k : Nat) : Option Nat := mapGet? s.host.kernelTail k

/-- R215: a core's tail mode suits the kernel it holds. -/
def armTail (s : State) (set : SMap Nat) : Option (Nat × Nat) :=
  ((overInst s set 0x0710).find? fun k =>
    let v := s.paramWith set 0x0710 k
    v ≠ s.param 0x0710 k && (match declaredTail s k with | some d => decide (d ≤ 1) && d ≠ v | none => false)).map
    fun k => (dzBadParam, k)

/-- R272: the flow table does not move while a carrier is active before or after. -/
def armFlowTable (s : State) (set : SMap Nat) : Option (Nat × Nat) :=
  if s.paramWith set 0x080B 0 = s.param 0x080B 0 then none
  else (sortNat (actBefore s ++ actAfter s set)).head?.map fun c => (dzBusy, c)

/-- R286. -/
def armTierSlots (s : State) (set : SMap Nat) : Option (Nat × Nat) :=
  if s.param 0x0803 0 < s.paramWith set 0x0804 0 then some (dzBadParam, 0) else none

/-- R339: formats that the carrier's technology and spacing allow. -/
def armPrachFormat (s : State) (set : SMap Nat) : Option (Nat × Nat) :=
  if (overPrach s set).any fun g => s.paramWith set 0x0301 g.1 ≠ 0 ||
      (decide (g.2.2 ≤ 4) && decide (2 ≤ s.paramWith set 0x0302 g.1)) then some (dzBadParam, 0)
  else none

/-- The N_CS values of the unrestricted sets (R341; PRESUMED: TS 38.211 Tables 6.3.3.1-5 to 6.3.3.1-7). -/
def ncsList (fmt : Nat) : List Nat :=
  if fmt ≤ 3 then [0, 13, 15, 18, 22, 26, 32, 38, 46, 59, 76, 93, 119, 167, 279, 419]
  else if fmt = 4 then [0, 13, 26, 33, 38, 41, 49, 55, 64, 76, 93, 119, 139, 209, 279, 419]
  else [0, 2, 4, 6, 8, 10, 12, 13, 15, 17, 19, 23, 27, 34, 46, 69]

/-- R341. -/
def armPrachNcs (s : State) (set : SMap Nat) : Option (Nat × Nat) :=
  if (overPrach s set).any fun g => !(ncsList g.2.2).contains (s.paramWith set 0x0A06 (g.1 * 16 + g.2.1)) then
    some (dzBadParam, 0)
  else none

/-- A PRACH ring lies in one of the places of R345. -/
def ringPlaced (s : State) (base n : Nat) : Bool :=
  match fabTarget base with
  | .dram false off => decide (off + n ≤ 0xC000000000) && inRegion s false off n
  | .core _ off => decide (off + n ≤ 0x40000)
  | .clove u off => decide (cloveBankSize u / 2 ≤ off) && decide (off + n ≤ cloveBankSize u)
  | _ => false

/-- R345. -/
def armRing (s : State) (set : SMap Nat) : Option (Nat × Nat) :=
  ((actAfter s set).find? fun c => s.paramWith set 0x0A0B c ≠ 0 &&
    !ringPlaced s (s.paramWith set 0x0A0A c) (64 + 16 * s.paramWith set 0x0A0B c)).map fun c => (dzBadParam, c)

/-- R348: roots below L_RA, and noise references. -/
def armNoiseRef (s : State) (set : SMap Nat) : Option (Nat × Nat) :=
  match (overPrach s set).find? fun g => decide (prachLen g.2.2 ≤ s.paramWith set 0x0A05 (g.1 * 16 + g.2.1)) with
  | some g => some (dzBadParam, g.1)
  | none =>
    ((actAfter s set).find? fun c =>
      let ants := overAntennas s set c
      (overEaxcs s set c).any fun x =>
        let r := s.paramWith set 0x0A09 x
        if r = 65535 then !(ants.any fun y => s.paramWith set 0x061F y = s.paramWith set 0x061F x) else !ants.contains r).map
      fun c => (dzBadParam, c)

/-- R376. -/
def armWake (s : State) (set : SMap Nat) : Option (Nat × Nat) :=
  ((overInst s set 0x0B01).find? fun d => s.paramWith set 0x0B01 d = 1 &&
    !(decide (d < 64) || (decide (68 ≤ d) && decide (d ≤ 91)))).map fun d => (dzBadParam, d)

/-- R418: PRACH flags. -/
def armPrachFlag (s : State) (set : SMap Nat) : Option (Nat × Nat) :=
  if (actAfter s set).any fun c => decide (191 < s.paramWith set 0x0A0D c) then some (dzBadParam, 0) else none

/-- R430: an owner is given only to a channel that is IDLE or HALTED. -/
def armOwner (s : State) (set : SMap Nat) : Option (Nat × Nat) :=
  if set.any fun e => e.1 / 65536 = 0x0E01 && !chanIdle s (e.1 % 65536) then some (dzBusy, 0) else none

/-- R490: conditions on a pool. -/
def armPool (s : State) (set : SMap Nat) : Option (Nat × Nat) :=
  let v := fun id i => s.paramWith set id i
  let size := v 0x1102 0
  let ports := (List.range 64).filter fun p => v 0x0502 p = 2
  let act := actAfter s set
  if size ≤ 1 then none
  else if size ≤ v 0x1101 0 then some (dzBadParam, 0x0101)
  else if ports.isEmpty then some (dzBadParam, 0x0102)
  else if ports.any fun p => v 0x0501 p ≠ 1 || decide (v 0x0504 p < 2122) then some (dzBadParam, 0x0103)
  else if act.any fun c => decide (size ≤ v 0x1108 c) ||
      (v 0x1109 c ≠ 255 && (decide (size ≤ v 0x1109 c) || v 0x1109 c = v 0x1108 c)) then some (dzBadParam, 0x0104)
  else if act.any fun c => v 0x110B c ≠ 0 && !inRegion s true (v 0x110A c) (v 0x110B c) then some (dzBadParam, 0x0105)
  else if 1 < s.param 0x1102 0 && v 0x1104 0 ≠ s.param 0x1104 0 && v 0x1104 0 ≠ (s.param 0x1104 0 + 1) % 2 ^ 32 then
    some (dzBadParam, 0x0106)
  else none

/-- R508: a split pool takes no pool-scope change but one that re-forms it. -/
def armSplit (s : State) (set : SMap Nat) : Option (Nat × Nat) :=
  let holds := fun id => set.any fun e => e.1 / 65536 = id
  if poolMissing s ≠ 0 && (set.any fun e => isPoolId (e.1 / 65536)) && !holds 0x1102 && !holds 0x1103 then
    some (dzSplit, poolMissing s % 16)
  else none

/-- Plans that a domain takes (R536). -/
def planAllowed (d v : Nat) : Bool :=
  if d < 64 || (68 ≤ d && d ≤ 75) then true else if 76 ≤ d && d ≤ 91 then v = 0 || v = 3 else v = 0

/-- R539. -/
def armPlan (s : State) (set : SMap Nat) : Option (Nat × Nat) :=
  match (overInst s set 0x1301).find? fun d => !planAllowed d (s.paramWith set 0x1301 d) with
  | some d => some (dzBadParam, d)
  | none =>
    ((List.range 16).find? fun g => s.paramWith set 0x1301 (76 + g) = 3 &&
      (List.range 4).any fun i => s.paramWith set 0x0501 (4 * g + i) ≠ 0).map fun g => (dzBadParam, 76 + g)

/-- R565: a pool needs a valid pool record. -/
def armPoolRecord (s : State) (set : SMap Nat) : Option (Nat × Nat) :=
  if 1 < s.paramWith set 0x1102 0 && !s.pool.frames then some (dzBadParam, 0x0107) else none

/-- Step 5 of R472: the rules in ascending order of their labels. -/
def armRules : List (State → SMap Nat → Option (Nat × Nat)) :=
  [armLimits, armPtpPorts, armAligned, armNumerology, armTiming, armLanes, armWindows, armBindings, armAreas, armFlags,
   armFronthaul, armTail, armFlowTable, armTierSlots, armPrachFormat, armPrachNcs, armRing, armNoiseRef, armWake,
   armPrachFlag, armOwner, armPool, armSplit, armPlan, armPoolRecord]

/-- The checks of R472 in order. -/
def armCheck (s : State) (set : SMap Nat) (t : Nat) : Option (Nat × Nat) :=
  if s.cfg.commit.isSome then some (dzBusy, 0xFFFF)
  else if set.isEmpty then some (dzBadParam, 0xFFFF)
  else if t < s.now + 3932160 then some (dzLate, 0)
  else if s.now + s.param 0x1002 0 < t then some (dzRange, 0xFFFF)
  else (armRules.filterMap fun f => f s set).head?

/-! ## Units concerned (R474) -/

/-- The Prism engines that hold a carrier's parameters, and every Mill slice. -/
def carrierUnits (s : State) (set : SMap Nat) (c : Nat) : List Nat :=
  ([s.param 0x0607 c, s.paramWith set 0x0607 c].filter fun p => p ≠ 255).map (unitId 2) ++ (List.range 4).map (unitId 4)

/-- The units that hold a staged parameter besides the configuration store. -/
def holders (s : State) (set : SMap Nat) (id inst : Nat) : List Nat :=
  if isEaxcId id then
    ([s.param 0x061C inst, s.paramWith set 0x061C inst].filter fun c => c ≠ 65535).flatMap (carrierUnits s set) ++
      (List.range 4).map (unitId 4)
  else match (if id / 256 = 0x11 || id / 256 = 9 then none else carrierOf id inst) with
    | some c => carrierUnits s set c
    | none =>
      match id / 256 with
      | 2 => [unitId 1 0]
      | 4 => [unitId 7 (inst / 16)]
      | 5 => [unitId 2 ((portOf id inst).getD 0)]
      | 6 => [unitId 2 ((portOf id inst).getD 0)]
      | 7 => if id = 0x0702 then [unitId 6 inst] else if id = 0x0710 then [unitId 6 (inst / 16)]
             else (List.range 64).map (unitId 6)
      | 8 => (List.range 4).map (unitId 4)
      | 9 => (List.range 8).map (unitId 5)
      | 0x0E => [unitId 3 (inst / 32)]
      | _ => []

/-- The units concerned by a set, ascending. -/
def unitsConcerned (s : State) (set : SMap Nat) : List Nat :=
  sortNat (dedupNat (unitId 0 0 :: set.flatMap fun e => holders s set (e.1 / 65536) (e.1 % 65536)))

/-- A unit's domain is off or fenced (R476, R478). -/
def unitClosed (s : State) (u : Nat) : Bool := domainClosed s (unitIdDomain u) || fencing s (unitIdDomain u)

/-! ## A commit (R475 to R482) -/

/-- The state with the commit replaced. -/
def setCommit (s : State) (k : Option Commit) : State := { s with cfg := { s.cfg with commit := k } }

/-- Laniman writes a comparator of its own (R92, R96): it notes a target that has already passed. -/
def lanimanArm (s : State) (n arg t : Nat) : State :=
  s.setComp n { armed := true, action := 1, arg := arg, target := t, late := reached s.now t }

/-- CFG_ARM (R471, R472): the shadows are written and the commit waits for its times, for which Laniman arms comparators 0
and 1 (R92, R94; their numbers are a DESIGN CHOICE, `notes/assumptions/71.md`). -/
def cmdCfgArm (rq : Req) (b : List Byte) (s : State) : State :=
  let t := rd b 0 8
  let set := s.staged rq.port
  match armCheck s set t with
  | some (st, det) => refuse s rq st det
  | none =>
    let us := unitsConcerned s set
    lanimanArm (lanimanArm (setCommit s (some { req := rq, t := t, set := set, units := us,
                                                reasons := (us.filter (unitClosed s)).map fun u => (u, 1) })) 0 0 t) 1 1 (t + 1966080)

/-- UNIT_READY (R475): a unit that loaded its shadow. -/
def unitReadyMsg (s : State) (u : Nat) : State :=
  match s.cfg.commit with
  | none => s
  | some k =>
    if k.stage ≠ 0 || !k.units.contains u || k.ready.contains u || (mapGet? k.reasons u).isSome || unitClosed s u then s
    else setCommit s (some { k with ready := k.ready ++ [u] })

/-- Answer the CFG_ARM (R480, R481): DZ_ABORTED where SAFE state was entered at or after T. -/
def armReply (s : State) (k : Commit) (st det saf : Nat) (l : List (Nat × Nat)) : State :=
  if k.safe then reply s k.req dzAborted saf (armPayload s k []) else reply s k.req st det (armPayload s k l)

/-- COMMIT_READINESS_CHECK (R476, R477): `bad` names the units whose shadow had an uncorrectable error. -/
def readinessCheck (s : State) (bad : List Nat) : State :=
  match s.cfg.commit with
  | none => s
  | some k =>
    if k.stage ≠ 0 || decide (s.now + 491520 < k.t) then s
    else
      let fail := (k.units.filter fun u => !k.ready.contains u || bad.contains u).map fun u =>
        (u, if bad.contains u then 3 else match mapGet? k.reasons u with | some r => r | none => if unitClosed s u then 1 else 2)
      if fail.isEmpty then setCommit s (some { k with stage := 1 })
      else
        let s1 := cancelledEvt s.endCommit k 0 fail
        reply s1 k.req dzNotReady fail.length (armPayload s1 k fail)

/-- What changes with the old value still in force: an engine leaves what the new value ends. -/
def swapBefore (s : State) (key old new : Nat) : State :=
  let inst := key % 65536
  if old = new then s
  else match key / 65536 with
    | 0x1001 => if new = 0 then carrierDeactivate s inst else s
    | 0x0501 => (List.range 4).foldl (fun t i => clockRecoveryLoss t (4 * inst + i)) s
    | 0x0405 =>
      if s.portMode (inst / 4) ≠ 4 then s
      else
      let s1 := linkDown s (inst / 4) (linkOfLane (s.portMode (inst / 4)) inst)
      if (s1.lane inst).codeword then codewordLockLoss s1 inst else s1
    | _ => s

/-- A SyncE input takes its signal from another lane (R43, R57). -/
def synceMoved (s : State) (i l : Nat) : State :=
  let s1 := updShared s i fun x r => r.vanish x
  if l < 256 && synceUsable s1 l && s1.linkUp (l / 4) (linkOfLane (s1.portMode (l / 4)) l) then
    updShared s1 i fun x r => r.appear x
  else s1

/-- What changes with the new value in force (R203, R215, R272, R297, R482, R539). -/
def swapAfter (s : State) (key old new : Nat) : State :=
  let inst := key % 65536
  if key / 65536 = 0x1001 then
    (if new = 1 && (old = 0 || s.pool.held.contains inst) then
      carrierActivate { s with pool := { s.pool with held := s.pool.held.filter fun c => c ≠ inst } } inst else s)
  else if old = new then s
  else match key / 65536 with
    | 0x020F => synceMoved s inst new
    | 0x0702 => clusterSync s inst 4
    | 0x0710 => if (s.core inst).tail = new then s else drainNow (s.setCore inst { s.core inst with tailDue := true }) inst
    | 0x080B => flowTableIdle ((List.range 4).foldl (fun t i => t.setSlc i { t.slc i with flows := [], fetching := [] }) s)
    | 0x080C => s.setSlc inst { s.slc inst with traceWritten := 0, traceLost := 0, traceOff := false }
    | 0x080D => s.setSlc inst { s.slc inst with traceWritten := 0, traceLost := 0, traceOff := false }
    | 0x1301 => planSync s inst
    | _ => s

/-- Move from one set of values to the other, for keys whose holder takes part. -/
def swapValues (s : State) (l : List (Nat × Nat × Nat)) (move : State → State) : State :=
  let s1 := move (l.foldl (fun t e => swapBefore t e.1 e.2.1 e.2.2) s)
  let s2 := if l.any fun e => 0x1101 ≤ e.1 / 65536 && e.1 / 65536 ≤ 0x1104 && e.2.1 ≠ e.2.2 then poolSync s1 else s1
  l.foldl (fun t e => swapAfter t e.1 e.2.1 e.2.2) s2

/-- The keys of a set of which some unit that holds them has swapped: the store holds those without another holder. -/
def movedKeys (s : State) (k : Commit) (swapped : List Nat) : List (Nat × Nat) :=
  k.set.filter fun e =>
    let h := holders s k.set (e.1 / 65536) (e.1 % 65536)
    (if h.isEmpty then [unitId 0 0] else h).any fun u => swapped.contains u

/-- SHADOW_SWAP (R475, R478): `bad` names units with an uncorrectable error in their shadow, `reset` units that were
reset since READY. -/
def shadowSwapOp (s : State) (bad reset : List Nat) : State :=
  match s.cfg.commit with
  | none => s
  | some k =>
    if k.stage ≠ 1 || decide (s.now < k.t) then s
    else
      let why := fun u => if unitClosed s u then 1 else if bad.contains u then 2 else if reset.contains u then 3 else 0
      let swapped := k.units.filter fun u => why u = 0
      let missed := (k.units.filter fun u => why u ≠ 0).map fun u => (u, why u)
      let moved := movedKeys s k swapped
      let held := (moved.filter fun e => e.1 / 65536 = 0x1001 && e.2 = 1 && s.pool.held.contains (e.1 % 65536)).map fun e =>
        e.1 % 65536
      let k1 : Commit := { k with stage := 2, swapped := swapped, reasons := missed, heldOut := held }
      swapValues s (moved.map fun e => (e.1, mapGet s.cfg.params e.1 (paramDefault (e.1 / 65536) (e.1 % 65536)), e.2))
        fun t => setCommit t (some k1)

/-- UNIT_APPLIED (R475). -/
def unitAppliedMsg (s : State) (u : Nat) : State :=
  match s.cfg.commit with
  | none => s
  | some k =>
    if k.stage ≠ 2 || !k.swapped.contains u || k.applied.contains u then s
    else setCommit s (some { k with applied := k.applied ++ [u] })

/-- The scopes whose generation an applied set increments (R483): keys of `Scope.key`. -/
def scopesOf (s : State) (set : SMap Nat) : List Nat :=
  let one := fun (e : Nat × Nat) =>
    let id := e.1 / 65536
    let inst := e.1 % 65536
    (if isPoolId id then [Scope.pool.key] else []) ++
    (match portOf id inst with | some n => [(Scope.port n).key] | none => []) ++
    (match carrierOf id inst with | some c => [(Scope.carrier c).key] | none => []) ++
    (if isEaxcId id then
      ([s.param 0x061C inst, s.paramWith set 0x061C inst].filter fun c => c < 1024).map fun c => (Scope.carrier c).key
    else [])
  dedupNat (Scope.device.key :: set.flatMap one)

/-- The set becomes the committed configuration (R478, R483). -/
def applySet (s : State) (k : Commit) : State :=
  let keys := scopesOf s k.set
  let params := k.set.foldl (fun m e => mapPut m e.1 e.2 (paramDefault (e.1 / 65536) (e.1 % 65536))) s.cfg.params
  { s with cfg := { s.cfg with
      params := params
      commit := none
      staged := mapDel s.cfg.staged k.req.port
      gens := keys.foldl (fun m x => mapMod m x 0 fun g => (g + 1) % 2 ^ 32) s.cfg.gens
      genTimes := keys.foldl (fun m x => mapSet m x k.t) s.cfg.genTimes } }

/-- The units that missed, with their reasons; the reason of a unit that swapped and sent no APPLIED is free. -/
def missedUnits (s : State) (k : Commit) : List (Nat × Nat) :=
  (k.units.filter fun u => !k.applied.contains u).map fun u => (u, mapGet k.reasons u (1 + Config.freeNat (s.freeCount + u) % 3))

/-- COMMIT_OUTCOME (R478, R480, R488). -/
def commitOutcomeOp (s : State) : State :=
  match s.cfg.commit with
  | none => s
  | some k =>
    if k.stage ≠ 2 || decide (s.now < k.t + 491520) then s
    else
      let miss := missedUnits s k
      if miss.isEmpty then
        let s1 := applySet s.endCommit k
        let s2 := (dedupNat (k.set.filterMap fun e => carrierOf (e.1 / 65536) (e.1 % 65536))).foldl mirrorSync s1
        let s3 := raise s2 0 0 0x1001 (leBytes 1 k.req.port ++ [0] ++ leBytes 2 k.units.length ++ leBytes 4 s2.deviceGen ++
          leBytes 8 k.t)
        armReply s3 k 0 0 2 []
      else
        setCommit { s with freeCount := s.freeCount + 36864 } (some { k with stage := 3, reasons := miss })

/-- COMMIT_ROLLBACK (R475, R478, R480, R616). -/
def commitRollbackOp (s : State) : State :=
  match s.cfg.commit with
  | none => s
  | some k =>
    if k.stage ≠ 3 || decide (s.now < k.t + 1966080) then s
    else
      let moved := movedKeys s k k.swapped
      let s1 := swapValues s
        (moved.map fun e => (e.1, e.2, mapGet s.cfg.params e.1 (paramDefault (e.1 / 65536) (e.1 % 65536))))
        fun t => t.endCommit
      let s2 := k.heldOut.foldl carrierStop { s1 with pool := { s1.pool with held := sortNat (s1.pool.held ++ k.heldOut) } }
      let m := k.reasons
      let s3 := raise s2 0 0 0x1003 (leBytes 1 k.req.port ++ [0] ++ leBytes 2 m.length ++
        leBytes 2 ((m.head?.map fun e => e.1).getD 0xFFFF) ++ leBytes 1 ((m.head?.map fun e => e.2).getD 0) ++ [0] ++
        leBytes 8 k.t)
      armReply s3 k dzRolledBack m.length 3 m

/-! ## CARRIER_STATUS (R458) -/

/-- CARRIER_STATUS. -/
def cmdCarrierStatus (rq : Req) (_ : List Byte) (s : State) : State :=
  let c := rq.inst
  let own := ownerOf s c
  replyOk s rq (leBytes 1 (s.param 0x1001 c) ++ leBytes 1 (tierOf s (c % 4) c) ++ leBytes 1 (s.param 0x0607 c) ++
    leBytes 1 (s.param 0x0608 c) ++ leBytes 4 (mapGet s.cfg.gens (Scope.carrier c).key 0) ++ leBytes 4 own.2 ++
    leBytes 1 (if s.param 0x1102 0 = 1 then 255 else own.1) ++ [0, 0, 0])

end Sys2Proof.Machine
end

