-- ==== Sys2Proof/Machine/EventLog.lean ====
section
/-! DEFINITION. The event arbiter's log (R513 to R528): acceptance, entries, subscriptions, reads, freeing, lagging
hosts and LOSS events. -/

namespace Sys2Proof.Machine

/-! ## Entries (R516, R517, R520) -/

/-- Entries that an event needs (R517). -/
def entriesOf (detail : List Byte) : Nat := if detail.length ≤ 12 then 1 else 2

/-- Free entries of the log (R520). -/
def logFree (s : State) : Nat := 4096 - s.ev.log.length

/-- Number of the next entry to be written, counted since the cold start. -/
def logNext (s : State) : Nat := s.ev.freed + s.ev.log.length

/-- The entries from a read position. -/
def logFrom (s : State) (pos : Nat) : List LogEntry := s.ev.log.drop (pos - s.ev.freed)

/-- Sequence number at a read position, or the next that the arbiter will assign (R521, R523). -/
def seqAt (s : State) (pos : Nat) : Nat := match logFrom s pos with | e :: _ => e.seq | [] => s.ev.nextSeq

/-- An event matches a subscription; LOSS and HOST_LAGGED match every one (R521, R522). -/
def Sub.matches (u : Sub) (code sev : Nat) : Bool :=
  code = 0x1201 || code = 0x1202 || (bit u.mask (code / 256) && decide (u.minSev ≤ sev))

/-- Matching entries pending for a subscription. -/
def subPending (s : State) (u : Sub) : Nat := ((logFrom s u.pos).filter fun e => u.matches e.code e.sev).length

/-- The 32 bytes of an entry (R516). -/
def LogEntry.bytes (e : LogEntry) : List Byte :=
  leBytes 4 e.seq ++ leBytes 8 e.at_ ++ leBytes 2 (e.cls * 4096 + e.inst) ++ leBytes 2 e.code ++
  leBytes 1 (32 * b2n e.cont + 16 * b2n e.ext + e.sev) ++ leBytes 1 e.len ++ [0, 0] ++ padTo 12 e.detail

/-- The state with the entries of an event appended under the next sequence number, and the event vector sent to every
host whose pending count rises from 0 (R513, R517, R526). -/
def logWrite (s : State) (e : EventRec) : State :=
  let n := e.detail.length
  let base : LogEntry := { seq := s.ev.nextSeq, at_ := s.now, cls := e.cls, inst := e.inst, code := e.code, cont := false,
                           ext := decide (12 < n), sev := e.sev, len := n, detail := e.detail.take 12 }
  let second : LogEntry := { base with cont := true, ext := false, detail := e.detail.drop 12 }
  let es := if 12 < n then [base, second] else [base]
  let s1 := { s with ev := { s.ev with log := s.ev.log ++ es, nextSeq := (s.ev.nextSeq + 1) % 2 ^ 32 } }
  s.ev.subs.foldl (fun t u =>
    if u.2.matches e.code e.sev && subPending s u.2 = 0 then msixSend t u.1 ((t.hp u.1).eventVec) else t) s1

/-! ## Losses (R527, R528) -/

/-- One LOSS event: it names the one or two lowest sources with losses and clears their counts. -/
def lossEvent (s : State) : State :=
  match s.ev.loss with
  | [] => s
  | [(i, n)] =>
    logWrite { s with ev := { s.ev with loss := [] } }
      { cls := 0, inst := 1, code := 0x1201, sev := 2,
        detail := leBytes 1 1 ++ leBytes 1 i ++ leBytes 4 n ++ leBytes 1 0 ++ leBytes 4 0 }
  | (i, n) :: (j, m) :: rest =>
    logWrite { s with ev := { s.ev with loss := rest } }
      { cls := 0, inst := 1, code := 0x1201, sev := 2,
        detail := leBytes 1 2 ++ leBytes 1 i ++ leBytes 4 n ++ leBytes 1 j ++ leBytes 4 m }

/-- LOSS events are written while at least 16 entries are free and a loss counter is not zero (R528). -/
def lossWrite (fuel : Nat) (s : State) : State :=
  match fuel with
  | 0 => s
  | f + 1 => if decide (16 ≤ logFree s) && !s.ev.loss.isEmpty then lossWrite f (lossEvent s) else s

/-- LOSS events that are due; 197 loss-table indices make at most 99 of them. -/
def losses (s : State) : State := lossWrite 128 s

/-! ## Acceptance (R513, R514, R522, R527) -/

/-- The arbiter takes one event: unmatched, lost for want of room, or written. -/
def acceptEvent (s : State) (e : EventRec) : State :=
  if !s.ev.subs.isEmpty && !(s.ev.subs.any fun u => u.2.matches e.code e.sev) then
    { s with ev := { s.ev with nextSeq := (s.ev.nextSeq + 1) % 2 ^ 32, unmatched := satAdd 32 s.ev.unmatched 1 } }
  else if logFree s < entriesOf e.detail then countLoss s e.cls e.inst
  else logWrite s e

/-- EVENT_ACCEPTANCE (R513): the oldest event of the input queue, and at most one in a time-clock cycle. -/
def eventAcceptanceOp (s : State) : State :=
  match s.ev.queue with
  | [] => losses s
  | e :: rest =>
    if s.ev.acceptedAt = some s.now then s
    else losses (acceptEvent { s with ev := { s.ev with queue := rest, acceptedAt := some s.now } } e)

/-- EVENT (R513): an EVENT packet reaches the arbiter; its detail holds at most 24 bytes. -/
def eventArrival (s : State) (cls inst code sev : Nat) (detail : List Byte) : State :=
  offer s { cls := cls, inst := inst, code := code, sev := sev, detail := detail.take 24 }

/-! ## Freeing and lagging hosts (R524, R525) -/

/-- Entries that every subscribed host has passed are freed; nothing while no host is subscribed (R524). -/
def logRelease (s : State) : State :=
  match s.ev.subs with
  | [] => s
  | u :: rest =>
    let low := rest.foldl (fun m x => min m x.2.pos) u.2.pos
    let n := min (low - s.ev.freed) s.ev.log.length
    { s with ev := { s.ev with log := s.ev.log.drop n, freed := s.ev.freed + n } }

/-- A host's subscription ends without an event (R523, R525). -/
def dropSub (s : State) (h : Nat) : State := losses (logRelease { s with ev := { s.ev with subs := mapDel s.ev.subs h } })

/-- Air Time at which a host lags (R525). -/
def lagDeadline (s : State) (u : Sub) : Option Nat :=
  ((logFrom s u.pos).find? fun e => u.matches e.code e.sev).map fun e => max e.at_ (max u.since u.lastRead) + 196608000

/-- HOST_LAGGED_TIMEOUT (R525). -/
def hostLaggedOp (s : State) (h : Nat) : State :=
  match mapGet? s.ev.subs h with
  | none => s
  | some u =>
    match lagDeadline s u with
    | none => s
    | some t =>
      if s.now < t then s
      else
        let pend := min (subPending s u) 65535
        let s1 := logRelease { s with ev := { s.ev with subs := mapDel s.ev.subs h, lagged := insertNat h s.ev.lagged } }
        let e : EventRec := { cls := 0, inst := 1, code := 0x1202, sev := 2,
                              detail := leBytes 1 h ++ leBytes 2 pend ++ leBytes 4 u.mask }
        losses (if logFree s1 = 0 then countLoss s1 0 1 else logWrite s1 e)

/-! ## Commands (R521 to R523) -/

/-- EVT_SUBSCRIBE (R521). -/
def cmdEvtSubscribe (rq : Req) (b : List Byte) (s : State) : State :=
  let h := rq.port
  let mask := rd b 0 4 % 2 ^ 23 - rd b 0 4 % 2
  let sev := rd b 4 1
  let mode := rd b 5 1
  if 4 ≤ h then refuse s rq dzDenied 0
  else if 4 < sev then refuse s rq dzRange 0
  else if 1 < mode then refuse s rq dzBadParam 0
  else
    let old := mapGet? s.ev.subs h
    let u : Sub := match old with
      | some x => { x with mask := mask, minSev := sev }
      | none => { mask := mask, minSev := sev, pos := if mode = 0 then s.ev.freed else logNext s, since := s.now, lastRead := s.now }
    let was := match old with | some x => subPending s x | none => 0
    let s1 := { s with ev := { s.ev with
      subs := mapSet s.ev.subs h u, lagged := s.ev.lagged.filter fun x => x ≠ h } }
    let s2 := if was = 0 && decide (0 < subPending s1 u) then msixSend s1 h ((s1.hp h).eventVec) else s1
    let s3 := losses (logRelease s2)
    replyOk s3 rq (leBytes 4 (seqAt s3 u.pos))

/-- Whole matching events from a list of entries, at most `room` entries, with the entries passed (R523). -/
def readEntries (u : Sub) (room : Nat) (l : List LogEntry) : List LogEntry × Nat :=
  match l with
  | [] => ([], 0)
  | e :: rest =>
    if !u.matches e.code e.sev then
      let r := readEntries u room rest
      (r.1, r.2 + 1)
    else if e.ext then
      match rest with
      | c :: more =>
        if room < 2 then ([], 0)
        else
          let r := readEntries u (room - 2) more
          (e :: c :: r.1, r.2 + 2)
      | [] => ([], 0)
    else if room < 1 then ([], 0)
    else
      let r := readEntries u (room - 1) rest
      (e :: r.1, r.2 + 1)

/-- EVT_READ (R523, R526). -/
def cmdEvtRead (rq : Req) (b : List Byte) (s : State) : State :=
  let h := rq.port
  match mapGet? s.ev.subs h with
  | none =>
    refuse { s with ev := { s.ev with lagged := s.ev.lagged.filter fun x => x ≠ h } } rq dzNotReady
      (if s.ev.lagged.contains h then 2 else 1)
  | some u =>
    let (es, n) := readEntries u (min (rd b 0 2) 127) (logFrom s u.pos)
    let u1 : Sub := { u with pos := max u.pos s.ev.freed + n, lastRead := if es.isEmpty then u.lastRead else s.now }
    let pend := subPending s u1
    let pl := leBytes 2 es.length ++ leBytes 2 (min pend 65535) ++ leBytes 4 (seqAt s u1.pos) ++ es.flatMap LogEntry.bytes
    let s1 := { s with ev := { s.ev with subs := mapSet s.ev.subs h u1 } }
    let s2 := if 0 < pend then msixSend s1 h ((s1.hp h).eventVec) else s1
    replyOk (losses (logRelease s2)) rq pl

/-- EVT_UNSUBSCRIBE (R523). -/
def cmdEvtUnsubscribe (rq : Req) (_ : List Byte) (s : State) : State := replyOk (dropSub s rq.port) rq []

end Sys2Proof.Machine
end

