-- ==== Sys2Proof/Machine/SelfTest.lean ====
section
/-! DEFINITION. In-service self-test (R291, R330, R529 to R531, R533). -/

namespace Sys2Proof.Machine

/-- The state with a unit's self-test record replaced. -/
def State.setTest (s : State) (k : Nat) (u : UnitTest) : State :=
  { s with test := { s.test with units := mapSet s.test.units k u } }

/-- Units of a unit's class in its slice, in service (R291). -/
def classInService (s : State) (k : Nat) : Nat :=
  ((List.range 1144).filter fun j => unitSlice j = unitSlice k && unitTarget j = unitTarget k && inService s j).length

/-- Units that a test of `k` takes out of service: a core takes its cluster with it while that leaves paired mode
(R530). -/
def testTakes (s : State) (k : Nat) : Nat :=
  if k < 1024 && !(s.cluster (k / 16)).split then ((List.range 16).filter fun i => inService s (k / 16 * 16 + i)).length
  else b2n (inService s k)

/-- R291 allows the test. -/
def testAllowed (s : State) (k : Nat) : Bool :=
  decide (s.param 0x0807 (unitTarget k) + testTakes s k ≤ classInService s k)

/-- A test begins: its unit is drained, a core's whole cluster first moved to split mode (R530). -/
def testBegin (s : State) (k : Nat) : State :=
  let s1 := s.setTest k { s.unitTest k with st := 2 }
  let s2 := if k < 1024 then setReason s1 (k / 16) 1 true 1 else s1
  drainNow s2 k

/-- Some scheduled test runs in the unit's slice on its target (R529). -/
def scheduledRuns (s : State) (k : Nat) : Bool :=
  s.test.units.any fun e => (e.2.st = 2 || e.2.st = 3) && e.2.trigger = 0 && unitSlice e.1 = unitSlice k &&
    unitTarget e.1 = unitTarget k

/-- The device runs: self-tests are scheduled in RUN and QUIET. -/
def testsRun (s : State) : Bool := s.boot.devState = 1 || s.boot.devState = 2

/-- The unit's test is the first to wait in its slice for its target, of those whose units are in service: a test waits
while its unit's domain is off (R529, R540). -/
def firstWaiting (s : State) (k : Nat) : Bool :=
  (s.test.waiting.find? fun j => unitSlice j = unitSlice k && unitTarget j = unitTarget k && inService s j) = some k

/-- Place of a unit among the units of its slice and target, in ascending number. -/
def unitRank (k : Nat) : Nat :=
  if k < 1024 then k % 256 else if k < 1088 then (k - 1024) % 16 else if k < 1120 then (k - 1088) % 8
  else if k < 1136 then (k - 1120) % 4 else (k - 1136) % 2

/-- The next due time of a unit's scheduled test (R529). DESIGN CHOICE (log 77): the units of a slice's target are due at
equal distances within each whole period of Air Time, in ascending number, with the period now in force. -/
def testDueAt (s : State) (k : Nat) : Nat :=
  let period := s.param 0x1201 (unitTarget k) * tcS
  let off := unitRank k * period / targetUnits (unitTarget k)
  let base := max (s.unitTest k).dueAt s.test.begun
  if base < off then off else off + ((base - off) / period + 1) * period

/-- The unit's DEMAND domain is off: its scheduled test waits (R540). -/
def testGated (s : State) (k : Nat) : Bool :=
  s.paramIn (unitId 0 0) 0x1301 (unitDomain k) = 2 && !s.domainOn (unitDomain k)

/-- A waiting scheduled test that a test due at `d` of unit `k` precedes: tests of SELFTEST_RUN stand first, the others
in order of their due time and then of their unit (R529, R531). -/
def testBefore (s : State) (d k j : Nat) : Bool :=
  (s.unitTest j).trigger = 0 && (decide (d < (s.unitTest j).dueAt) || (decide ((s.unitTest j).dueAt = d) && decide (k < j)))

/-- Place a test among the waiting ones. -/
def testInsert (s : State) (d k : Nat) (l : List Nat) : List Nat :=
  match l with
  | [] => [k]
  | j :: rest => if testBefore s d k j then k :: j :: rest else j :: testInsert s d k rest

/-- SELFTEST_START (R529, R530): a waiting test that R291 no longer forbids starts. -/
def selftestStartOp (s : State) (k : Nat) : State :=
  if !testsRun s || !firstWaiting s k || !inService s k || !testAllowed s k ||
      ((s.unitTest k).trigger = 0 && scheduledRuns s k) then s
  else testBegin { s with test := { s.test with waiting := s.test.waiting.filter fun j => j ≠ k } } k

/-- SELFTEST_DUE (R529): the test of a unit, in service or in a DEMAND domain that is off, has become due: it starts, or
joins the waiting tests. -/
def selftestDueOp (s : State) (k : Nat) : State :=
  if !testsRun s || s.param 0x1201 (unitTarget k) = 0 || (s.unitTest k).st ≠ 0 || !(inService s k || testGated s k) ||
      decide (s.now < testDueAt s k) then s
  else
    let d := testDueAt s k
    let s1 := s.setTest k { s.unitTest k with st := 1, trigger := 0, dueAt := d }
    let s2 := { s1 with test := { s1.test with waiting := testInsert s1 d k s1.test.waiting } }
    selftestStartOp s2 k

/-- SELFTEST_RESULT for a core, CLOVE_SELFTEST for a Clove unit (R530, R535). -/
def testEvt (s : State) (k res vec : Nat) : State :=
  if k < 1024 then
    raise s 0 0 0x1203 (leBytes 2 k ++ leBytes 1 res ++ leBytes 1 (s.unitTest k).trigger ++ leBytes 2 vec)
  else if res = 2 then s
  else raise s 6 (k - 1024) 0x0903 (leBytes 1 (unitTarget k) ++ leBytes 1 (cloveNumber (k - 1024)) ++ leBytes 1 res ++ leBytes 2 vec)

/-- A core's placement is loaded again (R461, R530). -/
def reloadCore (s : State) (k : Nat) : State := noteTail (s.setCore k { s.core k with imem := placedCode s k }) k

/-- A core's cluster leaves split mode where nothing else holds it there (R203, R530). -/
def testLeaves (s : State) (k : Nat) : State :=
  if k < 1024 && !((List.range 16).any fun i => s.underTest (k / 16 * 16 + i)) then setReason s (k / 16) 1 false 1 else s

/-- SELFTEST_TEST_COMPLETE (R530, R533): `fail` gives the failing vector. -/
def testCompleteOp (s : State) (k : Nat) (fail : Option Nat) : State :=
  let u := s.unitTest k
  if u.st ≠ 3 || decide (s.now < u.until_) then s
  else
    let res := if fail.isSome then 1 else 0
    let u1 : UnitTest := { u with st := if fail.isSome then 4 else 0, result := res, vector := fail.getD u.vector, at_ := s.now }
    let s1 := testEvt (s.setTest k u1) k res (fail.getD 0)
    let s2 := if k < 1024 then reloadCore s1 k else s1
    let s3 := if fail.isSome then { s2 with mill := { s2.mill with withdrawn := insertNat k s2.mill.withdrawn } } else s2
    if s3.boot.devState = 4 then s3
    else if fail.isSome then testLeaves s3 k
    else releaseCore (testLeaves s3 k) k

/-! ## Commands (R531) -/

/-- The record key of the unit that a command's scope names. -/
def reqUnit (rq : Req) : Nat := if rq.scope = 4 then rq.inst else 1024 + rq.inst

/-- SELFTEST_RUN (R531). -/
def cmdSelftestRun (rq : Req) (_ : List Byte) (s : State) : State :=
  let k := reqUnit rq
  if (s.unitTest k).st = 1 || s.underTest k then refuse s rq dzBusy 0
  else if s.mill.withdrawn.contains k || !s.domainOn (unitDomain k) then refuse s rq dzNotReady 0
  else
    let s1 := s.setTest k { s.unitTest k with st := 1, trigger := 1 }
    if testAllowed s1 k then reply (testBegin s1 k) rq 0 0 []
    else reply { s1 with test := { s1.test with waiting := k :: s1.test.waiting } } rq 0 1 []

/-- SELFTEST_ABORT (R531). -/
def cmdSelftestAbort (rq : Req) (_ : List Byte) (s : State) : State :=
  let k := reqUnit rq
  let u := s.unitTest k
  if u.st = 0 || u.st = 4 then refuse s rq dzNotReady 0
  else
    let s1 := s.setTest k { u with st := 0, result := 2, at_ := s.now }
    let s2 := testEvt { s1 with test := { s1.test with waiting := s1.test.waiting.filter fun j => j ≠ k } } k 2 0
    if u.st = 1 then replyOk s2 rq []
    else
      let s3 := if k < 1024 && u.st = 3 then reloadCore s2 k else s2
      replyOk (releaseCore (testLeaves s3 k) k) rq []

/-- State byte of SELFTEST_STATUS. -/
def testState (s : State) (k : Nat) : Nat :=
  let st := (s.unitTest k).st
  if st ≠ 0 then st else if inService s k then 0 else 5

/-- SELFTEST_STATUS (R531). -/
def cmdSelftestStatus (rq : Req) (_ : List Byte) (s : State) : State :=
  let k := reqUnit rq
  let u := s.unitTest k
  replyOk s rq (leBytes 1 (testState s k) ++ leBytes 1 u.result ++ leBytes 2 u.vector ++ leBytes 4 (s.testLeft k) ++
    leBytes 8 u.at_)

end Sys2Proof.Machine
end

