-- ==== Sys2Proof/Machine/HostPort.lean ====
section
/-! DEFINITION. Host ports (R432 to R442), the maintenance SPI port (R467), and the commands of groups 0x00 and 0x03 and
LANE_MAINT_OPEN: DEV_INFO, DEV_STATUS, RESET_WARM, the flash commands, kernel images and their placement (R116, R455 to
R457, R459 to R461). -/

namespace Sys2Proof.Machine

/-! ## MSI-X masks (R440) -/

/-- Send every pending message that nothing masks any more. -/
def msixFlush (s : State) (h : Nat) : State :=
  (List.range 64).foldl (fun t v =>
    let p := t.hp h
    if p.msixEnable && !p.msixMask && p.pba.getLsbD v && !p.vecMask.getLsbD v then
      t.setHp h { p with pba := p.pba &&& ~~~((1 : BitVec 64) <<< v), msixSent := mapMod p.msixSent v 0 (· + 1) }
    else t) s

/-- MSIX_UNMASK: the Function Mask, or one vector's mask bit, is cleared. -/
def msixUnmaskOp (s : State) (h : Nat) (v : Option Nat) : State :=
  let p := s.hp h
  match v with
  | none => msixFlush (s.setHp h { p with msixMask := false }) h
  | some k =>
    let tbl := byteSet 0 p.msixTable (16 * k + 12) 0
    msixFlush (s.setHp h { p with vecMask := p.vecMask &&& ~~~((1 : BitVec 64) <<< k), msixTable := tbl }) h

/-- Bytes written into the MSI-X table; bit 0 of byte 12 of an entry is the vector's mask bit. -/
def msixTableWrite (s : State) (h off : Nat) (bs : List Byte) : State :=
  let p := s.hp h
  let tbl := bytesWrite 0 p.msixTable off bs
  let v := off / 16
  let hit := off % 16 ≤ 12 && decide (12 < off % 16 + bs.length)
  let m := (byteAt 0 tbl (16 * v + 12)).getLsbD 0
  let one := (1 : BitVec 64) <<< v
  let vm := if !hit then p.vecMask else if m then p.vecMask ||| one else p.vecMask &&& ~~~one
  msixFlush (s.setHp h { p with msixTable := tbl, vecMask := vm }) h

/-! ## BAR0 (R435, R437, R439) -/

/-- DOORBELL (R437). -/
def doorbellOp (s : State) (h v : Nat) : State :=
  let p := s.hp h
  if 64 ≤ v || p.slotBusy.getLsbD v then s.setHp h { p with doorbellErr := satAdd 32 p.doorbellErr 1 }
  else s.setHp h { p with slotBusy := p.slotBusy ||| ((1 : BitVec 64) <<< v), order := p.order ++ [v],
                          submitted := (p.submitted + 1) % 2 ^ 32 }

/-- A write to REPLY_BASE or REPLY_SIZE: the counts return to 0 and a reply not yet written is discarded. -/
def ringReset (p : HostPort) : HostPort :=
  { p with replyWr := 0, replyRd := 0, waiting := none, current := if p.waiting.isSome then none else p.current }

def replyBaseOp (s : State) (h v : Nat) : State := s.setHp h (ringReset { s.hp h with replyBase := v / 4096 * 4096 })

/-- A value that REPLY_SIZE takes. -/
def ringSizeOk (v : Nat) : Bool := v = 0 || pow2In 16 1024 v

def replySizeOp (s : State) (h v : Nat) : State :=
  if ringSizeOk v then s.setHp h (ringReset { s.hp h with replySize := v }) else s

/-- A write of REPLY_RD: the reply vector where replies stay pending (R440), and a waiting reply that has room (R439). -/
def replyRdOp (s : State) (h v : Nat) : State :=
  let p : HostPort := { s.hp h with replyRd := v }
  let s1 := s.setHp h p
  let s2 := if p.pending ≠ 0 then msixSend s1 h p.replyVec else s1
  match p.waiting with
  | none => s2
  | some r => if p.replySize ≤ p.pending then s2 else ringWrite s2 h (r.take 16) (r.drop 16)

/-- A read of AT_LO latches the high half of Air Time. -/
def atLoReadOp (s : State) (h : Nat) : State :=
  s.setHp h { s.hp h with atHi := BitVec.ofNat 32 (s.now / 2 ^ 32) }

/-- What a 4-byte read of BAR0 returns (R435); every offset that is not listed reads as zero.  Reading AT_LO also latches
AT_HI, which `atLoReadOp` does. -/
def bar0Read (s : State) (h off : Nat) : Nat :=
  let p := s.hp h
  if 0x8000 ≤ off && off < 0x8400 then rd (bytesRead 0 p.msixTable (off - 0x8000) 4) 0 4
  else match off with
    | 0x0000 => 0x9640 * 65536 + 0x42 * 256 + Config.revisionDigit
    | 0x0004 => h + 4 * p.role
    | 0x0008 => s.boot.devState + 256 * s.boot.step + 65536 * s.boot.fail
    | 0x000C => p.scratch.toNat
    | 0x0010 => s.now % 2 ^ 32
    | 0x0014 => p.atHi.toNat
    | 0x0108 => p.slotBusy.toNat % 2 ^ 32
    | 0x010C => p.slotBusy.toNat / 2 ^ 32
    | 0x0110 => p.submitted
    | 0x0114 => p.doorbellErr
    | 0x0118 => p.badCrc
    | 0x0200 => p.replyBase % 2 ^ 32
    | 0x0204 => p.replyBase / 2 ^ 32
    | 0x0208 => p.replySize
    | 0x020C => p.replyWr
    | 0x0210 => p.replyRd
    | 0x0214 => p.replyDiscarded
    | 0x0220 => p.intvec.toNat
    | 0x9000 => p.pba.toNat % 2 ^ 32
    | 0x9004 => p.pba.toNat / 2 ^ 32
    | _ => 0

/-- A 4-byte write to BAR0. -/
def bar0Write (s : State) (h off v : Nat) : State :=
  let p := s.hp h
  if off = 0x000C then s.setHp h { p with scratch := BitVec.ofNat 32 v }
  else if off = 0x0100 then doorbellOp s h v
  else if off = 0x0200 then replyBaseOp s h (p.replyBase / 2 ^ 32 * 2 ^ 32 + v)
  else if off = 0x0204 then replyBaseOp s h (v * 2 ^ 32 + p.replyBase % 2 ^ 32)
  else if off = 0x0208 then replySizeOp s h v
  else if off = 0x0210 then replyRdOp s h v
  else if off = 0x0220 then s.setHp h { p with intvec := BitVec.ofNat 32 v &&& 0x003F3F3F }
  else if 0x8000 ≤ off && off < 0x8400 then msixTableWrite s h (off - 0x8000) (leBytes 4 v)
  else s

/-- REGISTER_WRITE: writes are aligned words of 4 or 8 bytes, and any other write is ignored. -/
def registerWriteOp (s : State) (w : RegWrite) : State :=
  match w with
  | .bar0 h off eight v =>
    let o := off.toNat
    if !eight then (if o % 4 = 0 then bar0Write s h o (v.toNat % 2 ^ 32) else s)
    else if o % 8 ≠ 0 then s
    else if o = 0x0200 then replyBaseOp s h v.toNat
    else bar0Write (bar0Write s h o (v.toNat % 2 ^ 32)) h (o + 4) (v.toNat / 2 ^ 32)
  | .slot h off bs =>
    let p := s.hp h
    s.setHp h { p with slots := bytesWrite 0 p.slots off.toNat (bs.take (262144 - off.toNat)) }
  | .msix h en mask =>
    let p := s.hp h
    msixFlush (s.setHp h { p with msixEnable := en, msixMask := mask, pba := if en then p.pba else 0 }) h
  | .chan c v => chanCommand s c v.toNat
  | .flag e f v =>
    match v.toNat % 256 with
    | 1 => flagSetOp s e f.toNat
    | 2 => flagClearOp s e f.toNat
    | _ => s.setEngine e { s.engine e with flagBad := satAdd 32 (s.engine e).flagBad 1 }

/-! ## Resets and links (R432, R433) -/

/-- What BAR0 and the function's configuration hold after a reset of the port. -/
def portDefaults (p : HostPort) : HostPort :=
  { linkUp := p.linkUp, width := p.width, rate := p.rate, role := p.role, slots := p.slots, mem := p.mem
    current := if p.waiting.isSome then none else p.current
    dropReply := p.current.isSome && p.waiting.isNone
    msixSent := p.msixSent }

/-- HOST_LINK (R468). -/
def hostLinkEvt (s : State) (h : Nat) (up : Bool) (w r : Nat) : State :=
  raise s 9 h 0x0F01 (leBytes 1 h ++ leBytes 1 (b2n up) ++ leBytes 1 (if up then w else 0) ++ leBytes 1 (if up then r else 0))

/-- Channels that a host port owns (R430). -/
def ownedChans (s : State) (h : Nat) : List Nat := (List.range 768).filter fun c => s.chanOwner c = h + 1

/-- PERST# or FLR of a host port (R433): kind 1 PERST#, 0 FLR. -/
def portReset (s : State) (h kind : Nat) : State :=
  let n := (s.hp h).order.length
  let s1 := (ownedChans s h).foldl chanReset (masterReset s (hostNode h) 65535)
  let s2 := s1.setHp h (portDefaults (s1.hp h))
  let s3 := { s2 with cfg := { s2.cfg with staged := mapDel s2.cfg.staged h } }
  let s4 := dropSub { s3 with ev := { s3.ev with lagged := s3.ev.lagged.filter fun x => x ≠ h } } h
  let s5 := raise s4 9 h 0x0F02 (leBytes 1 h ++ leBytes 1 kind ++ leBytes 2 (min n 65535))
  if kind = 1 && (s5.hp h).linkUp then
    hostLinkEvt (s5.setHp h { s5.hp h with linkUp := false, width := 0, rate := 0 }) h false 0 0
  else s5

/-- HOST_LINK_CHANGE: a port whose role is DISABLED never trains (R434); a reply that waits while the link goes down is
discarded (R433). -/
def hostLinkOp (s : State) (h : Nat) (up : Bool) (w r : Nat) : State :=
  let p := s.hp h
  if (up && (p.role = 0 || 3 < p.role)) || (!up && !p.linkUp) ||
      (up && p.linkUp && p.width = w && p.rate = r) then s
  else
    let s1 := s.setHp h { p with linkUp := up, width := if up then w else 0, rate := if up then r else 0 }
    let s2 := if !up && p.waiting.isSome then
      countDiscard (s1.setHp h { s1.hp h with waiting := none, current := none }) h else s1
    hostLinkEvt s2 h up w r

/-! ## The maintenance SPI port (R467) -/

/-- Ready for a packet. -/
def SpiPort.ready (x : SpiPort) : Bool := x.packet.isNone && x.current.isNone && x.reply.isNone

def State.setSpi (s : State) (x : SpiPort) : State := { s with host := { s.host with spi := x } }

/-- PACKET_WRITE: a packet while the port is ready; in HOLD it wakes the device (R542). -/
def packetWriteOp (s : State) (bs : List Byte) : State :=
  let x := s.host.spi
  if !x.enabled then s
  else
    let s1 := wakeHold s 3 0 2
    if x.ready then s1.setSpi { x with packet := some bs, miso := [] }
    else s1.setSpi { x with discarded := satAdd 32 x.discarded 1, miso := [] }

/-- The status byte. -/
def spiStatus (s : State) : Nat :=
  b2n s.host.spi.ready + 2 * b2n s.host.spi.reply.isSome + 4 * b2n (s.boot.devState = 0 || s.boot.devState = 5)

/-- STATUS_READ. -/
def statusReadOp (s : State) : State :=
  if !s.host.spi.enabled then s else s.setSpi { s.host.spi with miso := leBytes 1 (spiStatus s) }

/-- REPLY_READ of `n` bytes after the dummy byte: bytes past the end read 0x00, and a reply read whole is freed. -/
def replyReadOp (s : State) (n : Nat) : State :=
  let x := s.host.spi
  if !x.enabled then s
  else match x.reply with
    | none => s.setSpi { x with miso := List.replicate n 0 }
    | some r =>
      let out := (r ++ List.replicate n 0).take n
      if r.length ≤ n then s.setSpi { x with reply := none, readPos := 0, miso := out }
      else s.setSpi { x with readPos := max x.readPos n, miso := out }

/-! ## Device commands (R455, R456) -/

/-- DEV_INFO. -/
def cmdDevInfo (rq : Req) (_ : List Byte) (s : State) : State :=
  let idx := if s.param 0x1102 0 = 1 then 255 else s.param 0x1101 0
  let ver := if s.boot.devState = 0 then 0 else Config.lanimanVersion
  replyOk s rq (leBytes 2 0x9640 ++ leBytes 1 0x42 ++ leBytes 1 Config.revisionDigit ++ leBytes 1 Config.speedGrade ++
    leBytes 1 (min rq.port 4) ++ leBytes 1 (s.roleOf rq.port) ++ leBytes 1 idx ++ leBytes 8 Config.serialNumber ++
    leBytes 4 Config.romVersion ++ leBytes 4 ver ++ leBytes 8 0)

/-- DEV_STATUS. -/
def cmdDevStatus (rq : Req) (_ : List Byte) (s : State) : State :=
  replyOk s rq (leBytes 1 s.boot.devState ++ leBytes 1 s.boot.step ++ leBytes 1 s.boot.fail ++
    leBytes 1 (b2n s.time.aligned) ++ leBytes 2 s.activeCarriers.length ++ [0, 0] ++ leBytes 8 s.now)

/-- Every packet not yet replied is discarded without a reply (R456). -/
def discardPackets (s : State) : State :=
  let s1 := (List.range 4).foldl (fun t h =>
    t.setHp h { t.hp h with slotBusy := 0, order := [], current := none, waiting := none, dropReply := false }) s
  s1.setSpi { s1.host.spi with packet := none, current := none }

/-- RESET_WARM: the reply, then the warm start that the WARM_START step runs; after a failed cold start it is refused
(R569). -/
def cmdResetWarm (rq : Req) (_ : List Byte) (s : State) : State :=
  if s.boot.devState = 5 && !s.boot.warmFailed then refuse s rq dzNotReady 0
  else
    let s1 := discardPackets (replyOk s rq [])
    { s1 with boot := { s1.boot with warmDue := true } }

/-! ## Flash (R457, R559, R565) -/

/-- The part of the flash that the device uses (R559). -/
def flashSize : Nat := 0x800000

/-- A byte as FLASH_READ returns it: the pool secret reads as zero (R565). -/
def flashShown (s : State) (a : Nat) : Byte :=
  if 0x1010 ≤ a && a < 0x1030 then 0 else byteAt 0xFF s.host.flash a

/-- FLASH_READ. -/
def cmdFlashRead (rq : Req) (b : List Byte) (s : State) : State :=
  let off := rd b 0 4
  let n := rd b 4 2
  if s.host.flashOp.isSome then refuse s rq dzBusy 0xFFFF
  else if n = 0 || 4064 < n || flashSize < off + n then refuse s rq dzRange 0
  else replyOk s rq ((List.range n).map fun i => flashShown s (off + i))

/-- FLASH_ERASE: the wait phase begins. -/
def cmdFlashErase (rq : Req) (b : List Byte) (s : State) : State :=
  let off := rd b 0 4
  let n := rd b 4 4
  if s.host.flashOp.isSome then refuse s rq dzBusy 0xFFFF
  else if off % 4096 ≠ 0 || n % 4096 ≠ 0 then refuse s rq dzBadParam 0
  else if flashSize < off + n then refuse s rq dzRange 0
  else { s with host := { s.host with flashOp := some { req := rq, erase := true, offset := off, len := n, data := [] } } }

/-- FLASH_WRITE: the wait phase begins. -/
def cmdFlashWrite (rq : Req) (b : List Byte) (s : State) : State :=
  let off := rd b 0 4
  let d := b.drop 4
  if s.host.flashOp.isSome then refuse s rq dzBusy 0xFFFF
  else if flashSize < off + d.length then refuse s rq dzRange 0
  else { s with host := { s.host with flashOp := some { req := rq, erase := false, offset := off, len := d.length, data := d } } }

/-- Programming clears bits of the bytes present, as NOR flash does (PRESUMED). -/
def flashProgram (m : Bytes) (off : Nat) (d : List Byte) : Bytes :=
  bytesWrite 0xFF m off ((bytesRead 0xFF m off d.length).zipWith (fun a b => a &&& b) d)

/-- FLASH_OPERATION_COMPLETE: a write is read back; `differs` says that the read-back found another byte, whose value is
free. -/
def flashCompleteOp (s : State) (differs : Bool) : State :=
  match s.host.flashOp with
  | none => s
  | some f =>
    let m := if f.erase then bytesClear s.host.flash f.offset f.len else flashProgram s.host.flash f.offset f.data
    let m1 := if differs && !f.erase then byteSet 0xFF m f.offset (BitVec.ofNat 8 (Config.freeNat s.freeCount)) else m
    let bad := !f.erase && (differs || bytesRead 0xFF m f.offset f.len ≠ f.data)
    let s1 := { s with host := { s.host with flash := m1, flashOp := none }, freeCount := s.freeCount + b2n differs }
    if bad then refuse s1 f.req dzAborted 1 else replyOk s1 f.req []

/-! ## Kernel images (R215, R459 to R461) -/

/-- An image of the store. -/
def State.image (s : State) (i : Nat) : Image := mapGet s.host.images i {}

def State.setImage (s : State) (i : Nat) (x : Image) : State :=
  { s with host := { s.host with images := mapSet s.host.images i x } }

/-- KERNEL_WRITE. -/
def cmdKernelWrite (rq : Req) (b : List Byte) (s : State) : State :=
  let i := rd b 0 1
  let off := rd b 4 4
  let d := b.drop 8
  if 63 < i || 32832 < off + d.length then refuse s rq dzRange 0
  else replyOk (s.setImage i { bytes := bytesWrite 0 (s.image i).bytes off d, committed := false }) rq []

/-- The check of an image that fails first (R460). -/
def imageCheck (im : Image) : Option Nat :=
  let r := fun a n => leNat (bytesRead 0 im.bytes a n)
  let n := r 8 4
  if r 0 4 ≠ 0x46504B49 || r 4 2 ≠ 1 then some 1
  else if n % 16 ≠ 0 || n < 16 || 32768 < n then some 2
  else if 2 < r 6 1 then some 3
  else if r 60 4 ≠ crc32c (bytesRead 0 im.bytes 0 60) then some 4
  else if r 12 4 ≠ crc32c (bytesRead 0 im.bytes 64 n) then some 5
  else none

/-- KERNEL_COMMIT. -/
def cmdKernelCommit (rq : Req) (b : List Byte) (s : State) : State :=
  let i := rd b 0 1
  if 63 < i then refuse s rq dzRange 0
  else match imageCheck (s.image i) with
    | some d => refuse (s.setImage i { s.image i with committed := false }) rq dzBadParam d
    | none => replyOk (s.setImage i { s.image i with committed := true }) rq []

/-- The cores of a mask of 1,024 bits. -/
def maskCores (m : List Byte) : List Nat := (List.range 1024).filter fun k => (m.getD (k / 8) 0).getLsbD (k % 8)

/-- KERNEL_PLACE: the wait phase drains the cores; a core whose domain is off is loaded at once and takes the code at its
power-up. -/
def cmdKernelPlace (rq : Req) (b : List Byte) (s : State) : State :=
  let i := rd b 0 1
  let cores := maskCores (b.drop 8)
  let tail := imageTail (s.image i)
  if 63 < i then refuse s rq dzRange 0
  else if s.host.placeWait.isSome then refuse s rq dzBusy 0xFFFF
  else if !(s.image i).committed then refuse s rq dzNotReady 0
  else if cores.isEmpty then refuse s rq dzBadParam 0
  else match cores.find? fun k => decide (tail ≤ 1) && s.paramCluster (k / 16) 0x0710 k ≠ tail with
    | some k => refuse s rq dzBadParam k
    | none =>
      let tested := cores.filter s.underTest
      if !tested.isEmpty then refuse s rq dzInTest (testDetail ((tested.map s.testLeft).foldl max 0))
      else
        let s1 := { s with host := { s.host with placeWait := some { req := rq, image := i, kernel := s.image i, left := cores, loaded := 0 } } }
        cores.foldl (fun t k => if t.domainOn (k / 16) then drainNow t k else placeStep t k) s1

/-- KERNEL_STATUS. -/
def cmdKernelStatus (rq : Req) (_ : List Byte) (s : State) : State :=
  replyOk s rq ((List.range 1024).map fun k => BitVec.ofNat 8 (mapGet s.host.placed k 255))

/-! ## LANE_MAINT_OPEN (R116) -/

/-- The port carries an eAxC context of an active carrier. -/
def portServes (s : State) (p : Nat) : Bool :=
  s.activeCarriers.any fun c => s.param 0x0607 c = p && (listedInst s 0x061C).any fun x => s.param 0x061C x = c

/-- The port is the last up pool link to some peer. -/
def lastPoolLink (s : State) (p : Nat) : Bool := (poolPeers s).any fun i => directPorts s i = [p]

/-- LANE_MAINT_OPEN; a window that is open stays as it is. -/
def cmdMaintOpen (rq : Req) (_ : List Byte) (s : State) : State :=
  let p := rq.inst
  if portServes s p then refuse s rq dzBusy 1
  else if lastPoolLink s p then refuse s rq dzBusy 2
  else if maintOpen s p then replyOk s rq []
  else replyOk (openMaint s p) rq []

end Sys2Proof.Machine
end

