-- ==== Sys2Proof/Machine/Proul.lean ====
section
/-! DEFINITION. Proul (R576 to R595): the TAP and its pin-driving instructions, the Proul register, debug space, halting
and stepping of cores, the unlock, and the commands DBG_CHALLENGE, DBG_UNLOCK, DBG_LOCK and DBG_STATUS. -/

namespace Sys2Proof.Machine

def State.setProul (s : State) (x : ProulSt) : State := { s with proul := x }

/-! ## The TAP (R576, R577) -/

/-- TRST_N or five cycles of TMS high: the TAP controller alone is reset, with IDCODE loaded. -/
def tapResetOp (s : State) : State :=
  if s.boot.off then s else s.setProul { s.proul with ir := 2, driving := none }

/-- Load a TAP instruction that drives no pin; `v` is what the boundary-scan register then holds. -/
def tapLoad (s : State) (ir v : Nat) : State :=
  if s.boot.off then s else s.setProul { s.proul with ir := ir, driving := none, bscan := v }

/-- A pin-driving instruction takes effect while RST_N is low or DEVSTATE is BOOT_FAILED; otherwise it behaves as BYPASS
and is recorded as blocked (R577). -/
def tapDrive (s : State) (ir : Nat) (v : Option Nat) : State :=
  if s.boot.off then s
  else if s.boot.rstLow || s.boot.devState = 5 then
    s.setProul { s.proul with ir := ir, driving := some ir, bscan := v.getD s.proul.bscan }
  else s.setProul { s.proul with ir := ir, driving := none, blocked := true }

/-- The data register that a TAP instruction selects: 0 bypass, 1 boundary scan, 2 IDCODE, 3 Proul (R576). -/
def tapSelected (s : State) : Nat :=
  match s.proul.ir with
  | 1 => 1
  | 2 => 2
  | 0x20 => 3
  | i => if (i = 0 || i = 5 || i = 6) && s.proul.driving.isSome then 1 else 0

/-- The IDCODE register of B0 (R576). -/
def idcodeValue : Nat := 0x1964074F

/-- A pin-driving instruction keeps its effect only while R577 lets it. -/
def tapRecheck (s : State) : State :=
  if s.boot.rstLow || s.boot.devState = 5 || s.proul.driving.isNone then s
  else s.setProul { s.proul with driving := none, blocked := true }

/-! ## Halt, resume and step (R584 to R589) -/

/-- RESUME: the core issues from its halt point. -/
def resumeCore (s : State) (k : Nat) : State :=
  let c := s.core k
  if !c.dbg.halted then s
  else drainHook (s.setCore k { c with dbg := { c.dbg with halted := false, requested := false, cause := 0, index := 0, skipBp := true } }) k

/-- STEP: one bundle is to issue. -/
def stepCore (s : State) (k : Nat) : State :=
  let c := s.core k
  if !c.dbg.halted then s
  else s.setCore k { c with dbg := { c.dbg with halted := false, requested := false, stepping := true, skipBp := true } }

/-- HALT: a request, taken at the halt point.  A core that is halted or has no power ignores it. -/
def haltRequest (s : State) (k cause : Nat) : State :=
  if !s.domainOn (k / 16) then s else requestHalt s k cause

/-- A write of DCTL: one bit at a time. -/
def dctlWrite (s : State) (k v : Nat) : State :=
  if v = 1 then haltRequest s k 1 else if v = 2 then resumeCore s k else if v = 4 then stepCore s k else s

/-- A cross-trigger request reaches a core (R587). -/
def crossTrigger (s : State) (k : Nat) : State :=
  if !s.proul.xtPending.contains k then s
  else haltRequest (s.setProul { s.proul with xtPending := s.proul.xtPending.filter fun i => i ≠ k }) k 5

/-! ## Debug space (R581 to R583) -/

/-- DSTAT. -/
def dstat (c : Core) : Nat :=
  b2n c.dbg.halted + 2 * b2n c.dbg.requested +
    (if c.dbg.halted then 4 * c.dbg.cause + 32 * c.dbg.index else 0) + 65536 * (c.regs.pc % 65536)

/-- A debug register as it reads; none at an offset without a register. -/
def dbgRegRead (c : Core) (off : Nat) : Option Nat :=
  match off with
  | 0x400 => some 0
  | 0x408 => some (dstat c)
  | 0x420 => some (c.dbg.bp.getD 0 0).toNat
  | 0x428 => some (c.dbg.bp.getD 1 0).toNat
  | 0x430 => some (c.dbg.bp.getD 2 0).toNat
  | 0x438 => some (c.dbg.bp.getD 3 0).toNat
  | 0x440 => some (c.dbg.wp.getD 0 0).toNat
  | 0x448 => some (c.dbg.wp.getD 1 0).toNat
  | 0x450 => some c.dbg.dxt
  | 0x458 => some 0
  | _ => none

/-- A breakpoint or watchpoint register keeps its defined bits. -/
def bpValue (v : Nat) : W64 := BitVec.ofNat 64 (v / 2 ^ 63 % 2 * 2 ^ 63 + v % 65536 / 16 * 16)
def wpValue (v : Nat) : W64 := BitVec.ofNat 64 (v / 2 ^ 61 % 8 * 2 ^ 61 + field v 17 3 * 8)

/-- A write of a debug register. -/
def dbgRegWrite (s : State) (k off v : Nat) : State :=
  let c := s.core k
  if off = 0x400 then dctlWrite s k v
  else if 0x420 ≤ off && off ≤ 0x438 then
    s.setCore k { c with dbg := { c.dbg with bp := c.dbg.bp.set ((off - 0x420) / 8) (bpValue v) } }
  else if off = 0x440 || off = 0x448 then
    s.setCore k { c with dbg := { c.dbg with wp := c.dbg.wp.set ((off - 0x440) / 8) (wpValue v) } }
  else if off = 0x450 then s.setCore k { c with dbg := { c.dbg with dxt := v % 65536 } }
  else s

/-- One 64-bit word of a 512-bit register, and the register with it replaced. -/
def wordOf (x : W512) (w : Nat) : Nat := x.toNat / 2 ^ (64 * w) % 2 ^ 64
def withWord (x : W512) (w v : Nat) : W512 :=
  BitVec.ofNat 512 (x.toNat - wordOf x w * 2 ^ (64 * w) + v % 2 ^ 64 * 2 ^ (64 * w))

/-- The place a debug-space address names (R581). -/
inductive DbgPlace where
  | bad
  | g (k n : Nat)
  | ctl (k c : Nat)
  | vl (k : Nat)
  | reg (k off : Nat)
  | imem (k off : Nat)
  | v (k n w : Nat)
  | m (k n w : Nat)
  | xt
  deriving DecidableEq, Repr

/-- Decode of a debug-space address: misaligned, a reserved field that is not zero, and offsets without contents are
bad. -/
def dbgPlace (a : Nat) : DbgPlace :=
  let k := field a 29 20
  let off := a % 2 ^ 20
  if a % 8 ≠ 0 || 2 ^ 32 ≤ a then .bad
  else match field a 31 30 with
    | 0 =>
      if off < 0x100 then .g k (off / 8)
      else if off < 0x1C0 then .ctl k ((off - 0x100) / 8)
      else if off = 0x300 then .vl k
      else if (dbgRegRead {} off).isSome then .reg k off
      else .bad
    | 1 => if off < 0x8000 then .imem k off else .bad
    | 2 =>
      if off < 0x800 then .v k (off / 64) (off / 8 % 8)
      else if off < 0xA00 then .m k ((off - 0x800) / 64) (off / 8 % 8)
      else .bad
    | _ => if k = 0 && off = 0 then .xt else .bad

/-- The core whose halt an access needs (R582). -/
def haltedOnly (p : DbgPlace) : Option Nat :=
  match p with
  | .g k _ => some k
  | .ctl k _ => some k
  | .vl k => some k
  | .imem k _ => some k
  | .v k _ _ => some k
  | .m k _ _ => some k
  | _ => none

/-- What a debug read returns. -/
def dbgValue (s : State) (p : DbgPlace) : Nat :=
  match p with
  | .g k n => ((s.core k).regs.getG n).toNat
  | .ctl k c => readCtl s k c
  | .vl k => (s.core k).regs.vl
  | .reg k off => (dbgRegRead (s.core k) off).getD 0
  | .imem k off => leNat (bytesRead 0 (s.core k).imem off 8)
  | .v k n w => wordOf ((s.core k).regs.getV n) w
  | .m k n w => wordOf ((s.core k).regs.getM n) w
  | .xt => s.proul.xtStatus
  | .bad => 0

/-- VL counts 0 to 512 elements (R212); what a larger value written leaves is open. -/
def vlWritten (v ord : Nat) : Nat := if v ≤ 512 then v else Config.freeNat ord % 513

/-- What a debug write does. -/
def dbgStore (s : State) (p : DbgPlace) (v : Nat) : State :=
  match p with
  | .g k n => s.setCore k { s.core k with regs := (s.core k).regs.setG n (BitVec.ofNat 64 v) }
  | .ctl k c =>
    match ctlMask c with
    | some m => s.setCore k { s.core k with regs := (s.core k).regs.setC c (v &&& m) }
    | none => s
  | .vl k =>
    let t := s.setCore k { s.core k with regs := { (s.core k).regs with vl := vlWritten v s.freeCount } }
    { t with freeCount := t.freeCount + b2n (decide (512 < v)) }
  | .reg k off => dbgRegWrite s k off v
  | .v k n w => s.setCore k { s.core k with regs := (s.core k).regs.setV n (withWord ((s.core k).regs.getV n) w v) }
  | .m k n w => s.setCore k { s.core k with regs := (s.core k).regs.setM n (withWord ((s.core k).regs.getM n) w v) }
  | .xt => s.setProul { s.proul with xtStatus := s.proul.xtStatus &&& (255 - v % 256) }
  | .imem _ _ => s
  | .bad => s

/-! ## Operations of the Proul register (R578 to R582) -/

abbrev proulOk : Nat := 0
abbrev proulPending : Nat := 1
abbrev proulLocked : Nat := 2
abbrev proulNotHalted : Nat := 3
abbrev proulBadOp : Nat := 4
abbrev proulBadAddress : Nat := 5

/-- The register after an operation with a result. -/
def proulDone (s : State) (addr res data : Nat) : State :=
  s.setProul { s.proul with result := res, addr := addr, data := data }

/-- An operation starts: discarded while the previous one is PENDING, LOCKED while debug access is. -/
def proulOp (s : State) (addr : Nat) (body : State → State) : State :=
  if s.boot.off || s.proul.result = proulPending then s
  else if !s.proul.unlocked then proulDone s addr proulLocked 0
  else body s

/-- NOP. -/
def proulNop (s : State) : State := proulOp s 0 fun t => proulDone t 0 proulOk 0

/-- FAB_READ and FAB_WRITE: a fabric transaction of 8 bytes (R580). -/
def proulFab (s : State) (write : Bool) (addr data : Nat) : State :=
  proulOp s addr fun t =>
    if addr % 8 ≠ 0 then proulDone t addr proulBadAddress 0
    else
      let u := proulDone t addr proulPending 0
      issue (u.setProul { u.proul with relocked := false }) lanimanNode 65534 (if write then 2 else 1) 0 addr 8 0
        (if write then leBytes 8 data else []) 0

/-- The response to a fabric operation (R579); one caught by a relock reads LOCKED (R590). -/
def proulResponse (s : State) (status : Nat) (data : List Byte) : State :=
  if s.proul.result ≠ proulPending then s
  else if s.proul.relocked then s.setProul { s.proul with result := proulLocked, data := 0, relocked := false }
  else if status = 0 then s.setProul { s.proul with result := proulOk, data := leNat (data.take 8) }
  else s.setProul { s.proul with result := 0x10 + status, data := 0 }

/-- DBG_READ. -/
def proulDbgRead (s : State) (addr : Nat) : State :=
  proulOp s addr fun t =>
    let p := dbgPlace addr
    if p = .bad then proulDone t addr proulBadAddress 0
    else match haltedOnly p with
      | some k => if (t.core k).dbg.halted then proulDone t addr proulOk (dbgValue t p) else proulDone t addr proulNotHalted 0
      | none => proulDone t addr proulOk (dbgValue t p)

/-- DBG_WRITE: one to instruction memory gives BAD_OP (R581). -/
def proulDbgWrite (s : State) (addr data : Nat) : State :=
  proulOp s addr fun t =>
    let p := dbgPlace addr
    match p with
    | .bad => proulDone t addr proulBadAddress 0
    | .imem _ _ => proulDone t addr proulBadOp 0
    | _ =>
      match haltedOnly p with
      | some k =>
        if (t.core k).dbg.halted then proulDone (dbgStore t p data) addr proulOk 0 else proulDone t addr proulNotHalted 0
      | none => proulDone (dbgStore t p data) addr proulOk 0

/-- Debug-space addresses of DCTL and XT_STATUS. -/
def dctlAddr (k : Nat) : Nat := k * 2 ^ 20 + 0x400
def xtAddr : Nat := 3 * 2 ^ 30

/-! ## Unlock (R590 to R593) -/

/-- Every halted core resumes and every debug register is cleared (R590); answers how many cores resumed. -/
def clearDebug (s : State) : State × Nat :=
  let halted := (s.facet.cores.filter fun e => e.2.dbg.halted).map fun e => e.1
  let s1 := halted.foldl resumeCore s
  let clear := fun (e : Nat × Core) => (e.1, ({ e.2 with dbg := { skipBp := e.2.dbg.skipBp } } : Core))
  let s2 : State := { s1 with facet := { s1.facet with cores := s1.facet.cores.map clear } }
  (s2.setProul { s2.proul with xtStatus := 0, xtPending := [], relocked := s2.proul.result = proulPending,
                               unlocked := false, unlockAt := 0, expiry := none }, halted.length)

/-- Debug access returns to LOCKED with an event: cause 0 DBG_LOCK, 1 expiry. -/
def relock (s : State) (cause : Nat) : State :=
  if !s.proul.unlocked then s
  else
    let r := clearDebug s
    raise r.1 0 0 0x1602 (leBytes 1 cause ++ leBytes 2 r.2)

/-- UNLOCK_EXPIRY (R590). -/
def unlockExpiryOp (s : State) : State :=
  match s.proul.expiry with
  | some t => if reached s.now t then relock s 1 else s
  | none => s

/-- CHALLENGE_EXPIRY (R591). -/
def challengeExpiryOp (s : State) : State :=
  match s.proul.challenge with
  | some c => if reached s.now c.expiry then s.setProul { s.proul with challenge := none } else s
  | none => s

/-- The challenge that is live now. -/
def liveChallenge (s : State) : Option Challenge := s.proul.challenge.filter fun c => !reached s.now c.expiry

/-- DBG_CHALLENGE (R591). -/
def cmdDbgChallenge (rq : Req) (_ : List Byte) (s : State) : State :=
  if s.proul.unlocked then refuse s rq dzBusy 0xFFFF
  else
    let bytes := padTo 32 ((Config.random s.freeCount 32).take 32)
    let ex := s.now + s.param 0x1601 0
    let s1 := { (s.setProul { s.proul with challenge := some { bytes := bytes, expiry := ex } }) with
      freeCount := s.freeCount + 1 }
    replyOk s1 rq (bytes ++ leBytes 8 ex)

/-- DBG_UNLOCK refused: counted, with its event (R593, R595). -/
def unlockFails (s : State) (rq : Req) (st det : Nat) : State :=
  let s1 := s.setProul { s.proul with failed := satAdd 32 s.proul.failed 1 }
  refuse (raise s1 0 0 0x1603 (leBytes 1 (min rq.port 4) ++ leBytes 2 det)) rq st det

/-- A failure that counts against the challenge: the third voids it (R592). -/
def challengeFails (s : State) (c : Challenge) : State :=
  s.setProul { s.proul with challenge := if c.fails < 2 then some { c with fails := c.fails + 1 } else none }

/-- DBG_UNLOCK (R592). -/
def cmdDbgUnlock (rq : Req) (b : List Byte) (s : State) : State :=
  if s.proul.unlocked then unlockFails s rq dzDenied 4
  else match liveChallenge s with
    | none => unlockFails s rq dzNotReady 1
    | some c =>
      let key := b.take 96
      if Config.debugKeyHash.all (fun x => x = 0) || Config.sha384 key ≠ Config.debugKeyHash then
        unlockFails (challengeFails s c) rq dzDenied 2
      else if !Config.ecdsaVerify key (c.bytes ++ leBytes 8 Config.serialNumber) (b.drop 96) then
        unlockFails (challengeFails s c) rq dzDenied 3
      else
        let life := s.param 0x1602 0
        let s1 := s.setProul { s.proul with challenge := none, unlocked := true, unlockAt := s.now,
                                            expiry := if life = 0 then none else some (s.now + life * tcS) }
        replyOk (raise s1 0 0 0x1601 (leBytes 1 (min rq.port 4))) rq []

/-- DBG_LOCK (R593). -/
def cmdDbgLock (rq : Req) (_ : List Byte) (s : State) : State := replyOk (relock s 0) rq []

/-- DBG_STATUS (R593). -/
def cmdDbgStatus (rq : Req) (_ : List Byte) (s : State) : State :=
  let halted := (s.facet.cores.filter fun e => e.2.dbg.halted).length
  replyOk s rq (leBytes 1 (b2n s.proul.unlocked) ++
    leBytes 1 (b2n (liveChallenge s).isSome + 2 * b2n s.proul.blocked) ++ leBytes 2 halted ++
    leBytes 4 s.proul.failed ++ leBytes 8 (if s.proul.unlocked then s.proul.unlockAt else 0))

end Sys2Proof.Machine
end

