-- ==== Sys2Proof/Machine/StartUp.lean ====
section
/-! DEFINITION. Reset and start (R557 to R575): RST_N, the cold start, WRST_N, the warm start, failures and
START_COMPLETE, power removal, and the thermal outputs (R603). -/

namespace Sys2Proof.Machine

/-! ## Clearing at a cold start (R557, R558) -/

/-- What a host port holds after a cold reset: host memory lies outside the device. -/
def portCold (p : HostPort) (keepLink : Bool) : HostPort :=
  { mem := p.mem, msixSent := p.msixSent, linkUp := keepLink && p.linkUp
    width := if keepLink then p.width else 0, rate := if keepLink then p.rate else 0 }

/-- The range of a host's flash command that a reset cuts off holds free values (R573). -/
def flashCut (s : State) : Bytes × Nat :=
  match s.host.flashOp with
  | none => (s.host.flash, s.freeCount)
  | some f =>
    (bytesWrite 0xFF s.host.flash f.offset ((List.range f.len).map fun i => BitVec.ofNat 8 (Config.freeNat (s.freeCount + i))),
      s.freeCount + f.len)

/-- Every memory, register and counter that is not named as kept across a cold start is cleared (R558).  The flash, host
memory, the TAP and the pins keep what they hold; the entry of each lane is kept until the start reports its return to 0
(R113). -/
def coldClear (s : State) (keepLink : Bool) : State :=
  let f := flashCut s
  let lane := fun (e : Nat × Lane) => (e.1, ({ entry := e.2.entry } : Lane))
  { host := { port0 := portCold s.host.port0 keepLink, port1 := portCold s.host.port1 keepLink,
              port2 := portCold s.host.port2 keepLink, port3 := portCold s.host.port3 keepLink,
              spi := { enabled := s.host.spi.enabled }, flash := f.1 }
    time := { oscSel := s.time.oscSel }
    lanes := { lanes := (s.lanes.lanes.filter fun e => e.2.entry ≠ 0).map lane }
    power := { alert := s.power.alert, trip := s.power.trip }
    boot := { ageSaved := s.boot.ageSaved, rstLow := s.boot.rstLow, off := s.boot.off }
    proul := { ir := s.proul.ir, driving := s.proul.driving, bscan := s.proul.bscan }
    freeCount := f.2
    pending := s.pending }

/-- RST_N goes low: every domain is held in reset (R557). -/
def rstNAssertOp (s : State) : State :=
  if s.boot.rstLow then s
  else
    let t := coldClear s false
    { t with boot := { t.boot with rstLow := true }, power := { t.power with on := if s.boot.off then [] else [95] } }

/-- Power is removed: the retention memory, the always-on domain and the DRAM are lost (R538, R543). -/
def powerRemovalOp (s : State) : State :=
  let t := coldClear s false
  { t with
    boot := { t.boot with off := true }
    power := { t.power with on := [], alert := false, trip := false }
    proul := {} }

/-! ## Start steps (R567) -/

/-- A start on its way: the state, the flags of START_COMPLETE and the failure code, 0 while no step has failed. -/
structure BootRun where
  s : State
  flags : Nat := 0
  fail : Nat := 0
  deriving DecidableEq, Repr

/-- One step: skipped after a failure, and recorded in DEVSTATE when it completes. -/
def bootStep (r : BootRun) (x : Nat × (BootRun → BootRun)) : BootRun :=
  if r.fail ≠ 0 then r
  else
    let q := x.2 r
    if q.fail ≠ 0 then q else { q with s := { q.s with boot := { q.s.boot with step := x.1 } } }

/-- A step that only may fail. -/
def testStep_ (bad : Bool) (code : Nat) (r : BootRun) : BootRun := if bad then { r with fail := code } else r

/-- A step that changes the state. -/
def onState (f : State → State) (r : BootRun) : BootRun := { r with s := f r.s }

/-- Domains that come on. -/
def powerOnAll (s : State) (ds : List Nat) : State :=
  { s with power := { s.power with on := s.power.on ++ ds.filter fun d => !s.power.on.contains d } }

/-- Domains of a range that are on in RUN (R538, R539): plan ON or RUN_ONLY, and not withdrawn. -/
def runDomains (s : State) (lo n : Nat) : List Nat :=
  ((List.range n).map fun i => lo + i).filter fun d => planOf s d ≤ 1 && !domainWithdrawn s d

/-! ### CONFIG (R560, R566, R434) -/

/-- The boot configuration in the flash: valid, or replaced by zeros. -/
def bootConfig (s : State) : List Byte × Bool :=
  let b := bytesRead 0xFF s.host.flash 0 4096
  if rd b 0 4 = 0x43464758 && rd b 4 2 = 1 && rd b 4092 4 = crc32c (b.take 4092) then (b, true)
  else (List.replicate 4096 0, false)

/-- Roles of the four host ports as the configuration gives them: 4 to 255 are taken as DISABLED. -/
def configRoles (b : List Byte) : List Nat :=
  (List.range 4).map fun h => if rd b (8 + h) 1 < 4 then rd b (8 + h) 1 else 0

/-- Give every host port its role. -/
def setRoles (s : State) (roles : List Nat) : State :=
  let t := (List.range 4).foldl (fun u h => u.setHp h { u.hp h with role := roles.getD h 0 }) s
  { t with boot := { t.boot with roles := roles } }

/-- The plan of a tile from the record's 4,096 plan bytes. -/
def parsePlan (b : List Byte) (t : Nat) : TilePlan :=
  let f := fun (j : Nat) => Config.planParse b (7 * t + j)
  { v := f 0, bin := f 1, pairedOff := f 2, clustersOff := f 3, cloveOff := f 4, millOff := f 5 = 1, slack := toSigned 8 (f 6) }

/-- The ageing plan as a cold start finds it: the record's plan, or none. -/
def recordPlan (s : State) : Option (SMap TilePlan) :=
  (ageNewest s).map fun e =>
    let b := bytesRead 0xFF s.host.flash (ageOffset e.1 + 16) 4096
    if b = planImage s.boot.ageSaved then s.boot.ageSaved
    else (List.range 6).map fun t => (t, parsePlan b t)

/-- Step CONFIG of a cold start. -/
def stepConfig (m : StartIn) (r : BootRun) : BootRun :=
  if m.flashConfig then { r with fail := 4 }
  else
    let cfg := bootConfig r.s
    let roles := configRoles cfg.1
    let owner := roles.contains 1
    let s1 := setRoles r.s (if owner then roles else roles.set 0 1)
    let s2 := { s1 with boot := { s1.boot with fallback := bit (rd cfg.1 12 1) 0 } }
    let s3 := if owner then s2 else raise s2 9 0 0x0F04 []
    let tiles := (recordPlan s3).getD []
    let rec_ := (recordPlan s3).isSome
    let rail := fun (t : Nat) =>
      let x := mapGet tiles t {}
      let vmax := s3.param 0x1403 (t - 2)
      (t, ({ v := if rec_ then min (x.v + 10) vmax else vmax, bin := x.bin, pairedOff := x.pairedOff,
             clustersOff := x.clustersOff, cloveOff := x.cloveOff, millOff := x.millOff, slack := x.slack } : TilePlan))
    { r with s := { s3 with power := { s3.power with tiles := (List.range 4).map fun c => rail (2 + c) } }
             flags := r.flags + b2n (!cfg.2) }

/-! ### RAILS, SRAM and the rest -/

/-- Clusters start in split mode (R551): the start-up reason, with those of the plan and of margin recovery. -/
def startClusters (s : State) : SMap Cluster :=
  ((List.range 64).map fun cl =>
    let x := s.tilePlan (2 + cl / 16)
    (cl, ({ reasons := 1 + 4 * b2n (bit x.margin (cl % 16)) + 8 * b2n (bit x.pairedOff (cl % 16)) } : Cluster))).filter
      fun e => e.2.reasons ≠ 1

/-- Cores as a start leaves them (R173, R461): registers zero, code from the placement, tail mode as committed. -/
def startCores (s : State) : SMap Core :=
  ((List.range 1024).map fun k =>
    (k, ({ imem := placedCode s k, tail := s.param 0x0710 k } : Core))).filter fun e =>
      (mapGet? s.host.placed e.1).isSome || e.2.tail ≠ 0

/-- Step RAILS: rails set, compute domains on by their plans, the crossing table written (R361, R551). -/
def stepRails (m : StartIn) (r : BootRun) : BootRun :=
  match m.avs with
  | some k => { r with s := lanimanEvt r.s 0x1405 (leBytes 1 k.val ++ [0] ++ leBytes 2 (r.s.tilePlan (2 + k.val)).v), fail := 5 }
  | none =>
    let s1 := powerOnAll r.s (runDomains r.s 0 76)
    { r with s := { s1 with fab := { s1.fab with tableWritten := true } } }

/-- Step SRAM: every on-chip memory outside the always-on domain holds zeros, and cores and clusters stand as R173 and
R551 say (R375). -/
def stepSram (s : State) : State :=
  (s.host.placed.map fun e => e.1).foldl noteTail { s with facet := { cores := startCores s, clusters := startClusters s } }

/-- Step DDR_TRAIN of a cold start (R378). -/
def stepTrain (m : StartIn) (r : BootRun) : BootRun :=
  if m.spd then { r with fail := 6 }
  else if m.train then { r with fail := 7 }
  else
    let s1 := powerOnAll r.s [92, 93]
    { r with s := { s1 with mem := { s1.mem with capacity := m.capacity } } }

/-- Step DDR_FILL (R564): every page is zero, with a valid page code. -/
def stepFill (s : State) : State := { s with mem := { s.mem with data := [], poison := [], failed := [] } }

/-- The Laniman image in the flash: header and code. -/
def imageHeader (s : State) : List Byte := bytesRead 0xFF s.host.flash 0x20000 4096
def imageCodeLen (h : List Byte) : Nat := rd h 8 4

/-- Checks of step IMAGE in their order (R562); 0 where all pass. -/
def imageVerify (h code : List Byte) : Nat :=
  if rd h 0 4 ≠ 0x494D4C4E || rd h 4 2 ≠ 1 || imageCodeLen h % 4096 ≠ 0 || imageCodeLen h < 4096 ||
      8253440 < imageCodeLen h then 8
  else if Config.sha384 (slice h 16 96) ≠ Config.keyHash then 9
  else if rd h 12 4 < Config.minVersion then 0x0B
  else if !Config.ecdsaVerify (slice h 16 96) (h.take 112 ++ code) (slice h 112 96) then 0x0A
  else 0

/-- Step IMAGE of a cold start. -/
def stepImage (m : StartIn) (r : BootRun) : BootRun :=
  if m.flashImage then { r with fail := 4 }
  else
    let h := imageHeader r.s
    let code := bytesRead 0xFF r.s.host.flash 0x21000 (imageCodeLen h)
    match imageVerify h code with
    | 0 => { r with s := { r.s with boot := { r.s.boot with digest := Config.sha384 (h ++ code) } } }
    | c => { r with fail := c }

/-- Step IMAGE of a warm start: a matching digest, or the cold-start step. -/
def stepImageWarm (m : StartIn) (r : BootRun) : BootRun :=
  if m.digestOk then r else stepImage m { r with flags := r.flags + 8 }

/-- Step KEYS of a cold start: region table, key slots and roots cleared, the integrity key drawn (R395). -/
def stepKeys (s : State) : State :=
  { s with
    mem := { s.mem with regions := [], ctrs := [], nodes := [], arenaFree := [], arenaBottom := none
                        integrityKey := some s.freeCount }
    freeCount := s.freeCount + 1 }

/-- Lanes of powered groups whose calibration is made or restored (R128). -/
def calibrate (s : State) : State :=
  (List.range 256).foldl (fun t l =>
    if lanePresent t l then restoreTrims (t.setLane l { t.lane l with trims := true }) l else t) s

/-- Step LANES of a warm start: the saved trims are restored (R128). -/
def restoreLanes (s : State) : State := (List.range 256).foldl restoreTrims s

/-- Step LANES of a cold start: board table, calibration, and every lane at entry 0 (R110, R113, R128). -/
def stepLanes (m : StartIn) (r : BootRun) : BootRun :=
  if m.flashLanes then { r with fail := 4 }
  else
    let s1 := powerOnAll r.s (runDomains r.s 76 16)
    let old := s1.lanes.lanes.filter fun e => e.2.entry ≠ 0
    let s2 := loadBoard { s1 with lanes := { s1.lanes with lanes := [] } } (bytesRead 0xFF s1.host.flash 0x10000 32832)
    let s3 := old.foldl (fun t e => laneEvt t e.1 0x0404 (leBytes 1 e.1 ++ leBytes 1 e.2.entry ++ [0])) s2
    { r with s := calibrate s3 }

/-! ### LANIMAN (R565) -/

/-- A slot of the start-count area. -/
def startSlot (s : State) (i : Nat) : Nat := rd (bytesRead 0xFF s.host.flash (0x2000 + 2 * i) 2) 0 2

/-- The start count, and the slot that holds it: the largest value in a programmed slot, none where no slot is
programmed. -/
def startCount (s : State) : Option (Nat × Nat) :=
  (List.range 4096).foldl (fun a i =>
    let v := startSlot s i
    if v = 0xFFFF then a
    else match a with
      | some (b, _) => if b < v then some (v, i) else a
      | none => some (v, i)) none

/-- The count, 0 where no slot is programmed. -/
def startCountValue (s : State) : Nat := match startCount s with | some e => e.1 | none => 0

/-- The slot after the one that holds the count. -/
def startCountNext (s : State) : Nat := match startCount s with | some e => (e.2 + 1) % 4096 | none => 0

/-- Program a count into a slot; the first slot of a sector erases it. -/
def startCountProgram (s : State) (n slot : Nat) : State :=
  let at_ := 0x2000 + 2 * slot
  let f := if slot % 2048 = 0 then bytesClear s.host.flash at_ 4096 else s.host.flash
  { s with host := { s.host with flash := flashProgram f at_ (leBytes 2 n) } }

/-- Count + 1 goes into the slot after the one that holds the largest value. -/
def startCountUpdate (s : State) : State :=
  if startCountValue s < 65535 then startCountProgram s (startCountValue s + 1) (startCountNext s) else s

/-- The pool record of the flash, where it is valid. -/
def poolRecord (s : State) : Option (List Byte) :=
  let b := bytesRead 0xFF s.host.flash 0x1000 4096
  if rd b 0 4 = 0x4C4F4F50 && rd b 4 2 = 1 && rd b 4092 4 = crc32c (b.take 4092) then some b else none

/-- Step LANIMAN of a cold start. -/
def stepLaniman (m : StartIn) (r : BootRun) : BootRun :=
  if m.laniman then { r with fail := 0x0E }
  else
    let n := startCountValue r.s
    let s1 := startCountUpdate r.s
    let pr := poolRecord s1
    { r with
      s := { s1 with pool := { s1.pool with secret := (pr.map fun b => slice b 16 32).getD [], startCount := min (n + 1) 65535
                                            frames := pr.isSome && decide (n < 65535) } }
      flags := r.flags + 2 * b2n pr.isNone + 4 * b2n (decide (65535 ≤ n)) }

/-! ## End of a start (R574, R575) -/

/-- START_COMPLETE and RUN; Laniman has written the flow table as idle (R272). -/
def startDone (r : BootRun) (kind code wake micros : Nat) : State :=
  let s0 := flowTableIdle r.s
  let s1 := setDevState { s0 with
    boot := { s0.boot with step := 14, fail := 0, warmFailed := false, warmDue := false }
    power := { s0.power with nextSample := some (s0.now + tcS) }
    test := { s0.test with begun := s0.now } } 1
  tapRecheck (lanimanEvt s1 0x1501
    (leBytes 1 kind ++ leBytes 1 code ++ leBytes 1 r.flags ++ leBytes 1 wake ++ leBytes 4 micros))

/-- A failed start: only the host-port and always-on domains stay on, and DEVSTATE is BOOT_FAILED. -/
def startFailed (r : BootRun) (warm : Bool) : State :=
  let s1 := { r.s with
    boot := { r.s.boot with fail := r.fail, warmFailed := warm, warmDue := false }
    power := { r.s.power with on := r.s.power.on.filter fun d => decide (94 ≤ d) } }
  setDevState s1 5

/-! ## Cold start -/

/-- A domain counter some microseconds after its reset value (R32, R558). -/
def domainAfter (x : Domain) (micros : Nat) : Domain := { x with count := ({} : Domain).count + micros * 1000 * 2 ^ 32 }

/-- Air Time in 2^-32 Tc some microseconds after the release of RST_N (R82, R558). -/
def startAir (micros : Nat) : Nat := 196608 * 2 ^ 32 * micros / 100

/-- Time since the release of RST_N: Air Time and both domain counters (R82, R558). -/
def startTime (s : State) (micros : Nat) : State :=
  { s with time := { s.time with air := startAir micros, dom0 := domainAfter s.time.dom0 micros
                                 dom1 := domainAfter s.time.dom1 micros } }

/-- The steps of a cold start up to LANIMAN. -/
def coldSteps (m : StartIn) : List (Nat × (BootRun → BootRun)) :=
  [(1, testStep_ m.fuse 1), (2, testStep_ m.rom 2), (3, onState fun t => powerOnAll t [94]),
   (4, testStep_ m.clock 3), (5, stepConfig m), (6, stepRails m), (7, onState stepSram), (8, stepTrain m),
   (9, onState stepFill), (10, stepImage m), (11, onState stepKeys), (12, stepLanes m), (13, stepLaniman m)]

/-- Run a cold start on a cleared state: kind 0, or 2 after a refused warm start with its code. -/
def coldRun (s : State) (m : StartIn) (kind code : Nat) : State :=
  let r := (coldSteps m).foldl bootStep { s := startTime s m.micros }
  if r.fail ≠ 0 then startFailed r false else startDone r kind code 0 m.micros

/-- COLD_START: the release of RST_N samples the straps, clears THERMTRIP_N and runs the steps.  A device whose RST_N has
been released already is at the moment of that release (R557). -/
def coldStartOp (s : State) (m : StartIn) : State :=
  if s.boot.rstLow then
    let t := coldClear s false
    let u := { t with
      time := { t.time with oscSel := m.oscSel }
      host := { t.host with spi := { enabled := m.mspi } }
      boot := { t.boot with rstLow := false, off := false }
      power := { t.power with trip := false } }
    coldRun (tapRecheck u) m 0 0
  else if s.boot.off || s.boot.devState ≠ 0 || s.boot.step ≠ 0 || s.boot.warmDue then s
  else coldRun s m 0 0

/-! ## Warm start (R569 to R572) -/

/-- BAR0 of a host port as a warm start leaves it (R456): the link, the role and the configuration space stay. -/
def portWarm (p : HostPort) : HostPort :=
  { portDefaults p with msixEnable := p.msixEnable, msixMask := p.msixMask, current := none, dropReply := false }

/-- A link after a warm start: the counts stay. -/
def linkWarm (x : Link) : Link :=
  { phyErr := x.phyErr, runt := x.runt, oversize := x.oversize, fcs := x.fcs, macControl := x.macControl,
    filter := x.filter, ringFull := x.ringFull, linkDown := x.linkDown, lastSent := x.lastSent }

/-- A port after a warm start: counters stay; banks, the PTP queue and the exception ring are cleared. -/
def portWarmFh (x : Port) : Port :=
  { x with link0 := linkWarm x.link0, link1 := linkWarm x.link1, link2 := linkWarm x.link2, link3 := linkWarm x.link3,
           exc := [], excAt := none, ptpRx := [], ptpOver := false, bank := [] }

/-- A carrier's counts after a warm start. -/
def carrierWarm (x : CarrierFh) : CarrierFh :=
  { rxEarly := x.rxEarly, rxLate := x.rxLate, rxMissing := x.rxMissing, idleMapBad := x.idleMapBad, prachIdx := x.prachIdx,
    occasions := x.occasions, detections := x.detections, overloads := x.overloads, satUl := x.satUl, satDl := x.satDl,
    satAt := x.satAt, rxTimingAt := x.rxTimingAt }

/-- The device quiesces (R569): links lose their locks, windows close, the engines flush. -/
def quiesce (s : State) : State :=
  let s1 := (s.lanes.lanes.filter fun e => e.2.cdr).foldl (fun t e => clockRecoveryLoss t e.1) s
  let s2 := (s1.lanes.maint.map fun e => e.1).foldl (fun t p => closeMaint t p 3) s1
  flushTile (flushTile s2 0) 1

/-- Host side of R571: BAR0, packets, staged sets and subscriptions. -/
def warmHost (s : State) : State :=
  let f := flashCut s
  let s1 := (List.range 4).foldl (fun t h => t.setHp h (portWarm (t.hp h))) (discardPackets s)
  { s1 with
    host := { s1.host with lastPort := 4, placeWait := none, flash := f.1, flashOp := none }
    cfg := { s1.cfg with staged := [], commit := none }
    ev := { s1.ev with subs := [], lagged := [] }
    test := {}
    freeCount := f.2 }

/-- Time subsystem and lanes of R571: host comparators stay, those of Laniman go; loops and patterns end. -/
def warmTime (s : State) : State :=
  let keep := fun (e : Nat × Nat) => !(decide (0x0402 * 65536 ≤ e.1) && decide (e.1 < 0x0405 * 65536))
  { s with
    time := { s.time with switchWait := none, comps := s.time.comps.filter fun e => decide (64 ≤ e.1) }
    cfg := { s.cfg with params := s.cfg.params.filter keep }
    lanes := { s.lanes with
      lanes := s.lanes.lanes.map fun e => (e.1, ({ e.2 with prbsLock := false, prbsErr := 0, prbsCmp := 0, calibrated := false } : Lane))
      maint := [], scans := [], trendRedo := [], results := [] } }

/-- Fronthaul, Mill, Clove, DMA and fabric of R571. -/
def warmUnits (s : State) : State :=
  let eaxc := fun (e : Nat × Eaxc) => (e.1, ({ e.2 with rxSeq := none, txU := 0, txC := 0 } : Eaxc))
  let ni := fun (e : Nat × Ni) => (e.1, ({ oldGenDropped := e.2.oldGenDropped, stall := e.2.stall } : Ni))
  let bank := fun (e : Nat × Bank) => (e.1, ({ e.2 with bad := [] } : Bank))
  let eng := fun (e : Nat × DmaEngine) => (e.1, ({ e.2 with flags := 0 } : DmaEngine))
  let s1 := millEmpty s
  { s1 with
    mill := { s1.mill with withdrawn := [] }
    ports := { ports := s1.ports.ports.map fun e => (e.1, portWarmFh e.2)
               carriers := s1.ports.carriers.map fun e => (e.1, carrierWarm e.2)
               eaxcs := s1.ports.eaxcs.map eaxc }
    clove := {}
    dma := { engines := s1.dma.engines.map eng }
    facet := {}
    fab := { s1.fab with flight := [], outst := [], nis := s1.fab.nis.map ni, fences := [], wakeBuf := [],
                         stuck := [], tableWritten := false, banks := s1.fab.banks.map bank }
    mem := { s1.mem with cache0 := [], cache1 := [], ctrCache0 := [], ctrCache1 := [], waits := [] } }

/-- Pool, power and debug of R571, R572 and R590: every carrier committed active is held. -/
def warmRest (s : State) : State :=
  let held := sortNat s.activeCarriers
  let s1 := (clearDebug { s with
    pool := { s.pool with held := held, migrations := [], incoming := [], takeovers := [] }
    power := { s.power with on := s.power.on.filter fun d => decide (94 ≤ d)
                            toOff := [], coming := [], wakeDue := [], idleFrom := [], wait := none, kept := [],
                            nextSample := none } }).1
  if s1.proul.relocked then s1.setProul { s1.proul with result := proulLocked, data := 0, relocked := false } else s1

/-- Everything that a warm start clears. -/
def warmClear (s : State) : State := warmRest (warmUnits (warmTime (warmHost (quiesce s))))

/-- Step CLOCK of a warm start: only where the synthesiser runs on its internal reference. -/
def stepClockWarm (m : StartIn) (r : BootRun) : BootRun :=
  if !r.s.time.oscLost then r
  else if m.clock then { r with fail := 3 }
  else { r with s := { r.s with time := { r.s.time with oscLost := false } } }

/-- Step KEYS of a warm start: the retained tag and the roots are verified (R409). -/
def stepVerify (m : StartIn) (r : BootRun) : BootRun :=
  match m.retained with
  | none => r
  | some (g, t, idx) =>
    let s1 := r.s.setRegion g { r.s.region g with violations := satAdd 32 (r.s.region g).violations 1 }
    let top := topLevel (regionPages (r.s.region g) t)
    { r with
      s := raiseLimited s1 8 t 0x0D02 g 19661 1 fun n =>
        leBytes 1 g ++ leBytes 1 t ++ [5] ++ leBytes 1 top ++ leBytes 8 idx ++ leBytes 2 (min n 65535)
      fail := 0x0C }

/-- The steps of a warm start up to LANIMAN. -/
def warmSteps (m : StartIn) : List (Nat × (BootRun → BootRun)) :=
  [(1, testStep_ m.fuse 1), (2, testStep_ m.rom 2), (3, id), (4, stepClockWarm m), (5, id), (6, stepRails m),
   (7, onState stepSram),
   (8, fun r => if m.train then { r with fail := 0x0D } else onState (fun t => powerOnAll t [92, 93]) r),
   (9, id), (10, stepImageWarm m), (11, stepVerify m),
   (12, onState fun t => restoreLanes (powerOnAll t (runDomains t 76 16))), (13, testStep_ m.laniman 0x0E)]

/-- The steps run; a refusal at DDR_TRAIN or KEYS falls back to a cold start where the boot configuration says so
(R570). -/
def warmRun (s : State) (m : StartIn) : State :=
  let r := (warmSteps m).foldl bootStep { s := s }
  if r.fail = 0 then startDone r 1 0 s.power.wake.source m.micros
  else if (r.fail = 0x0C || r.fail = 0x0D) && s.boot.fallback then coldRun (coldClear r.s true) m 2 r.fail
  else startFailed r true

/-- A transition to HOLD is still on its way to the flush (R573). -/
def holdOnItsWay (s : State) : Bool :=
  match s.power.wait with
  | some w => w.target = 2 && !w.left.isEmpty
  | none => false

/-- WARM_START: due, the device quiesces unless it comes from HOLD, and runs the steps. -/
def warmStartOp (s : State) (m : StartIn) : State :=
  if !s.boot.warmDue || s.boot.rstLow || s.boot.off || holdOnItsWay s then s
  else
    let s1 := setDevState { s with boot := { s.boot with warmDue := false, step := 0, fail := 0 } } 0
    warmRun (warmClear s1) m

/-- WRST_N low for 1 µs: requests a warm start in RUN, QUIET and SAFE state, and wakes from HOLD whatever the mask holds;
ignored during a start and in BOOT_FAILED (R557, R569, R573). -/
def wrstNOp (s : State) : State :=
  if s.boot.rstLow || s.boot.off || s.boot.warmDue || s.boot.devState = 0 || s.boot.devState = 5 then s
  else
    let s1 := if s.boot.devState = 3 then writeWake s 5 0 else s
    { s1 with boot := { s1.boot with warmDue := true } }

/-! ## Thermal outputs (R603) -/

/-- THERM_ALERT: some sensor reads at least 100 °C (`hot`), or every sensor reads below 97 °C. -/
def thermAlertOp (s : State) (hot : Bool) : State :=
  if s.boot.off then s else { s with power := { s.power with alert := hot } }

/-- THERMTRIP: the pin latches low, and in the same cycle domains 0 to 94 lose power; nothing is flushed, so external
memory and the integrity of its regions are not kept. -/
def thermtripOp (s : State) : State :=
  if s.boot.off || s.power.trip then s
  else
    let s1 := warmUnits (discardPackets s)
    let down := fun (p : HostPort) => ({ portDefaults p with linkUp := false, width := 0, rate := 0, current := none, dropReply := false } : HostPort)
    let dark := fun (e : Nat × Lane) => (e.1, ({ e.2 with cdr := false, codeword := false, prbsLock := false, calibrated := false } : Lane))
    { s1 with
      host := { s1.host with port0 := down s1.host.port0, port1 := down s1.host.port1, port2 := down s1.host.port2,
                             port3 := down s1.host.port3 }
      lanes := { s1.lanes with lanes := s1.lanes.lanes.map dark, scans := [] }
      mem := { capacity := s1.mem.capacity }
      power := { s1.power with on := [95], toOff := [], coming := [], wakeDue := [], idleFrom := [], kept := [], trip := true, alert := true } }

end Sys2Proof.Machine
end

