-- ==== Sys2Proof/Machine/FabricRows.lean ====
section
/-! DEFINITION. Fabric packets as they arrive (R351 to R367): requests at their targets, responses at their masters,
fences, wakes, link errors and timeouts, and FABRIC_COUNTERS (R369). -/

namespace Sys2Proof.Machine

/-- A fabric event of a node (R377). -/
def fabEvt (s : State) (node code : Nat) (d : List Byte) : State := raise s 10 node code d

/-! ## At the router port of the target (R365, R367) -/

/-- Packets held for a domain come from wake-on-packet: the parameter is set and the domain is off under its plan. -/
def wakeHolds (s : State) (d : Nat) : Bool :=
  s.paramIn (unitId 0 0) 0x0B01 d = 1 && !s.domainOn d && !domainWithdrawn s d && !fencing s d

/-- A request reaches the router port of a node whose domain is off or fenced: it is held in the wake buffer, or
answered with DOMAIN_OFF. -/
def atClosed (s : State) (m : FabMsg) (d : Nat) : State :=
  if !wakeHolds s d then answerOff s m d
  else
    let held := mapGet s.fab.wakeBuf m.dst []
    if held.length < 16 then { s with fab := { s.fab with wakeBuf := mapSet s.fab.wakeBuf m.dst (held ++ [{ m with noCredit := 0 }]) } }
    else
      let s1 : State := { s with fab := { s.fab with wakeOverflow := mapMod s.fab.wakeOverflow d 0 (satAdd 32 1) } }
      raiseLimited (answerOff s1 m d) 10 m.dst 0x0B03 d 19661 1 fun n => leBytes 1 d ++ leBytes 2 (min n 65535)

/-! ## Format of requests (R352, R354, R355, R359) -/

/-- A posted write: 8 bytes to a Mill counter word or a DMA flag word. -/
def postable (m : FabMsg) : Bool :=
  m.len = 8 && m.addr % 8 = 0 && match fabTarget m.addr with
    | .mill _ off => isCounterOff off
    | .dma _ off => decide (0x8000 ≤ off) && decide (off < 0x8800)
    | _ => false

/-- The VC is one that the command's row allows. -/
def vcOk (m : FabMsg) : Bool :=
  match m.cmd with
  | 1 => m.vc = 0 || m.vc = 2
  | 2 => m.vc = 0 || m.vc = 2 || (m.vc = 3 && postable m)
  | 3 => m.vc = 0
  | 4 => m.vc = 0
  | _ => false

/-- Length, alignment and the 256-byte boundary. -/
def shapeOk (m : FabMsg) : Bool :=
  if m.cmd = 3 || m.cmd = 4 then (m.len = 4 || m.len = 8) && m.addr % m.len = 0
  else 1 ≤ m.len && m.len ≤ 256 && m.addr / 256 = (m.addr + m.len - 1) / 256

/-- An address names an on-chip bank (R352, R368). -/
def isBank (t : Target) : Bool :=
  match t with
  | .core _ _ => true
  | .clove _ _ => true
  | .staging _ off => decide (off < 0x100000)
  | _ => false

/-- A Clove bank offset lies in the working half (R303, R352). -/
def workingHalf (src u off : Nat) : Bool := decide (off < cloveBankSize u / 2) && decide (src ≠ cloveNode u)

/-- A reserved command value (R354). -/
def cmdReserved (n : Nat) : Bool := n = 0 || 11 ≤ n

/-- The command value of a packet that the READ or WRITE row carries: a reserved value stands, any other is the row's. -/
def asRow (row : Nat) (m : FabMsg) : FabMsg := if cmdReserved m.cmd then m else { m with cmd := row }

/-- A reserved command is answered with FORMAT on VC1 and counted (R354). -/
def reservedCommand (s : State) (m : FabMsg) : State :=
  deny { s with fab := { s.fab with reservedCmd := satAdd 32 s.fab.reservedCmd 1 } } { m with vc := 0 } 6

/-- Arrival of a request, up to its target: the router port, the address map, the VC and the format. -/
def request (s : State) (m : FabMsg) (body : State → Target → State) : State :=
  let s1 := touchNode (arrive s m) m.dst
  match nodeClosed s1 m.dst with
  | some d => atClosed s1 m d
  | none =>
    if cmdReserved m.cmd then reservedCommand s1 m
    else match fabTarget m.addr with
      | .mill slc off =>
        if !vcOk m then millBad s1 { m with vc := 0 } slc off
        else if !shapeOk m then millBad s1 m slc off else body s1 (.mill slc off)
      | .none => deny s1 m 3
      | t => if !vcOk m then deny s1 { m with vc := 0 } 6 else if !shapeOk m then deny s1 m 6 else body s1 t

/-! ## READ (R359) -/

/-- A byte of a staging bank belongs to an uplink PRB whose valid bit is clear (R156). -/
def stageHidden (s : State) (p off : Nat) : Bool :=
  (s.activeCarriers.filter fun c => carrierPort s c = some p).any fun c =>
    let size := bufUnits s p c 0 * 4096
    let base := bufAddr s p c 0 0
    let o := (off - base) % size
    let per := prbCount s p c * 48
    decide (base ≤ off) && decide (off < base + areaBuffers s p c 0 * size) && decide (o < areaGroup s p c 0 * per) &&
      !(ulBuf s c ((off - base) / size)).valid.contains (o / per * 512 + o % per / 48)

/-- A byte of a staging bank as a fabric read returns it: the reserved part of a MIDHAUL bank reads zero (R466). -/
def stageByte (s : State) (p off : Nat) (b : Byte) : Byte :=
  if portRole s p = 1 then (if 0xC0010 ≤ off then 0 else b) else if stageHidden s p off then 0 else b

/-- The bytes a host's memory holds (R351). -/
def hostRead (s : State) (m : FabMsg) (h a : Nat) : State :=
  if 768 ≤ m.chan then deny s m 2
  else if !(s.hp h).linkUp then s
  else respond s m 0 (bytesRead 0 (s.hp h).mem a m.len) false 0

/-- READ at its target.  Laniman's own space has contents that the manual does not lay out: they read as free bytes. -/
def readOp (s : State) (msg : FabMsg) (e : BankEcc) : State :=
  let m := asRow 1 msg
  request s m fun t tgt =>
    match tgt with
    | .dram raw off => memRequest t m raw off e.evicted
    | .core k off => bankRead t m 0 k off e fun _ b => b
    | .clove u off => if workingHalf m.src u off then deny t m 2 else bankRead t m 1 u off e fun _ b => b
    | .staging p off => if 0x100000 ≤ off then deny t m 6 else bankRead t m 2 p off e (stageByte t p)
    | .mill slc off => millWinRead t m slc off
    | .dma g off => dmaWinRead t m g off
    | .laniman _ =>
      if !isLaniman m.src m.chan then deny t m 2
      else respond { t with freeCount := t.freeCount + m.len } m 0
        ((List.range m.len).map fun i => BitVec.ofNat 8 (Config.freeNat (t.freeCount + i))) false 0
    | .host h a => hostRead t m h a
    | .none => t

/-! ## WRITE (R364) -/

/-- A poisoned write is discarded whole. -/
def discardPoison (s : State) (m : FabMsg) : State :=
  fabEvt (respond s m 7 [] false 0) m.dst 0x0B01 (leBytes 2 m.dst ++ leBytes 2 m.src ++ leBytes 1 m.gen ++ leBytes 8 m.addr)

/-- Words of a MIDHAUL bank that a fabric write leaves alone: those the engine owns, and the reserved part (R466). -/
def midhaulKept (off : Nat) : Bool :=
  (decide (0xC0000 ≤ off) && decide (off < 0xC0004)) || decide (0xC000C ≤ off)

/-- A WRITE of a staging window: the bank, or the doorbell word. -/
def stagingWrite (s : State) (m : FabMsg) (p off : Nat) (e : BankEcc) : State :=
  if 0x100000 ≤ off then
    if m.len ≠ 4 || off ≠ 0x100000 then deny s m 6 else respond (stagingDoorbell s p (leNat (m.data.take 4))) m 0 [] false 0
  else if portRole s p = 1 then
    let d := (padTo m.len m.data).zipIdx.map fun x => if midhaulKept (off + x.2) then byteAt 0 (s.port p).bank (off + x.2) else x.1
    midhaulPump (bankWrite s { m with data := d } 2 p off e) p
  else bankWrite s m 2 p off e

/-- A write of host memory. -/
def hostWrite (s : State) (m : FabMsg) (h a : Nat) : State :=
  if 768 ≤ m.chan then deny s m 2
  else if !(s.hp h).linkUp then s
  else respond (s.setHp h { s.hp h with mem := bytesWrite 0 (s.hp h).mem a (padTo m.len m.data) }) m 0 [] false 0

/-- WRITE at its target: buffered whole, then committed, discarded where poisoned, or refused. -/
def writeOp (s : State) (msg : FabMsg) (e : BankEcc) : State :=
  let m := asRow 2 msg
  request s m fun t tgt =>
    if m.poison then discardPoison t m
    else match tgt with
      | .dram raw off => memRequest t m raw off e.evicted
      | .core k off => bankWrite t m 0 k off e
      | .clove u off => if workingHalf m.src u off then deny t m 2 else bankWrite t m 1 u off e
      | .staging p off => stagingWrite t m p off e
      | .mill slc off => millWinWrite t m slc off
      | .dma g off => dmaWinWrite t m g off
      | .laniman _ => if isLaniman m.src m.chan then respond t m 0 [] false 0 else deny t m 2
      | .host h a => hostWrite t m h a
      | .none => t

/-! ## ATOMIC_ADD and SWAP (R370) -/

/-- An atomic at its target: only an on-chip bank serves it. -/
def atomicOp (s : State) (m : FabMsg) (e : BankEcc) (f : Nat → Nat) : State :=
  request s m fun t tgt =>
    if !isBank tgt then (match tgt with | .mill slc off => millBad t m slc off | _ => deny t m 6)
    else match tgt with
      | .core k off => bankAtomic t m 0 k off e f
      | .clove u off => if workingHalf m.src u off then deny t m 2 else bankAtomic t m 1 u off e f
      | .staging p off =>
        if portRole t p = 1 && (List.range m.len).any (fun i => midhaulKept (off + i)) then
          respond t m 0 [] false (leNat (bytesRead 0 (t.port p).bank off m.len))
        else bankAtomic t m 2 p off e f
      | _ => t

def atomicAddOp (s : State) (m : FabMsg) (e : BankEcc) : State := atomicOp s { m with cmd := 3 } e fun x => x + m.operand
def swapOp (s : State) (m : FabMsg) (e : BankEcc) : State := atomicOp s { m with cmd := 4 } e fun _ => m.operand

/-! ## Responses (R356, R363) -/

/-- Channel numbers under which the comparators send their messages: 61,440 plus the comparator (R95). -/
def comparatorChan (n : Nat) : Nat := 61440 + n

/-- AIRTIME_TAC_FAULT (R95, R103). -/
def tacFault (s : State) (n action : Nat) : State :=
  raise s 12 n 0x0303 (leBytes 1 n ++ leBytes 1 action ++ [0])

/-- A message of a comparator was answered with DOMAIN_OFF (R95). -/
def comparatorAnswer (s : State) (m : FabMsg) : State :=
  let n := m.chan - 61440
  let act := match fabTarget m.addr with | .dma _ _ => 2 | .mill _ off => if isCounterOff off then 3 else 4 | _ => 0
  if m.status = 1 then tacFault s n act else s

/-- A response of another generation is dropped and counted (R363, R426). -/
def dropOldGen (s : State) (m : FabMsg) : State :=
  if m.chan < 768 then
    s.setEngine (chanEngine m.chan) { s.engine (chanEngine m.chan) with
      oldGenDropped := satAdd 32 (s.engine (chanEngine m.chan)).oldGenDropped 1 }
  else s.setNi m.dst { s.ni m.dst with oldGenDropped := satAdd 32 (s.ni m.dst).oldGenDropped 1 }

/-- Hand a status to the master that made a request. -/
def toMaster (s : State) (o : Outstanding) (status : Nat) (data : List Byte) : State :=
  if o.chan < 768 then dmaResponse s o.chan o status data
  else if o.chan = 65534 then proulResponse s status data
  else if o.node % 128 < 32 && o.node < 256 && o.seq = 1 then prachWritten s (o.node / 128 * 32 + o.node % 128)
  else s

/-- A response arrives: dropped where the domain is closed or the generation has passed; a reserved status is handed on
as DENIED and counted. -/
def responseOp (s : State) (m : FabMsg) : State :=
  let s1 := arrive s m
  if (nodeClosed s1 m.dst).isSome then s1
  else if 61440 ≤ m.chan && m.chan < 61696 then comparatorAnswer s1 m
  else if m.gen ≠ (s1.ni (niKey m.dst m.chan)).gen then dropOldGen s1 m
  else match s1.fab.outst.find? fun o => o.node = m.dst && o.tag = m.tag && o.addr = m.addr with
    | none => s1
    | some o =>
      let s2 : State := { s1 with fab := { s1.fab with
        outst := s1.fab.outst.erase o, reservedStatus := satAdd 32 s1.fab.reservedStatus (b2n (decide (9 ≤ m.status))) } }
      if o.timedOut then s2
      else toMaster s2 o (if 9 ≤ m.status then 2 else m.status) m.data

/-- REQUEST_TIMEOUT (R363): the tag stays reserved, and the master takes TIMEOUT. -/
def requestTimeoutOp (s : State) (node tag : Nat) : State :=
  match s.fab.outst.find? fun o => o.node = node && o.tag = tag && !o.timedOut with
  | none => s
  | some o =>
    if s.now < o.at_ + fabCycles 67584 then s
    else
      let mark := fun (x : Outstanding) => if x = o then { x with timedOut := true } else x
      let s1 : State := { s with fab := { s.fab with outst := s.fab.outst.map mark } }
      let s2 := raiseLimited s1 10 node 0x0B04 node 19661 1 fun n => leBytes 2 node ++ leBytes 2 (min n 65535)
      toMaster s2 { o with timedOut := true } 8 []

/-- Master resets that waited for the 67,584 cycles (R363). -/
def waitingResets (s : State) : State :=
  (s.fab.nis.filter fun e => e.2.resetWaits).foldl (fun t e =>
    if e.1 < 4096 then masterReset t e.1 65535 else masterReset t (dmaNode (chanEngine (e.1 - 4096))) (e.1 - 4096)) s

/-! ## Links (R357, R358) -/

/-- Key of a link. -/
def linkKey (boundary link : Nat) : Nat := boundary * 256 + link

/-- The link exists: one of 16 on one of the 8 boundaries (R24), or, with boundary 255, one inside a tile (R376). -/
def linkExists (boundary link : Nat) : Bool := boundary = 255 || (decide (boundary < 8) && decide (link < 16))

/-- FLIT_CRC_ERROR: the flit is replayed and counted; FABRIC_LINK_ERROR with state 0 at most once per period. -/
def flitCrcOp (s : State) (boundary link : Nat) : State :=
  if !linkExists boundary link then s else
  let k := linkKey boundary link
  let s1 : State := { s with fab := { s.fab with replays := mapMod s.fab.replays k 0 (satAdd 32 1) } }
  raiseLimited s1 10 0 0x0B05 k 19660800 1 fun n => leBytes 1 boundary ++ leBytes 1 link ++ [0] ++ leBytes 4 n

/-- LINK_STUCK: reported once with state 1, and the device enters SAFE state. -/
def linkStuckOp (s : State) (boundary link : Nat) : State :=
  if !linkExists boundary link then s else
  let k := linkKey boundary link
  if s.fab.stuck.contains k then s
  else
    let s1 : State := { s with fab := { s.fab with stuck := s.fab.stuck ++ [k] } }
    let s2 := fabEvt s1 0 0x0B05 (leBytes 1 boundary ++ leBytes 1 link ++ [1] ++ leBytes 4 (mapGet s.fab.replays k 0))
    enterSafe s2 2 1

/-! ## FABRIC_COUNTERS (R369) -/

/-- Every counter of the fabric and its banks. -/
def fabricCounts (s : State) : List Nat :=
  (s.fab.banks.flatMap fun e => [e.1, e.2.ownerStall, e.2.fabricStall, e.2.collided, e.2.eccCorrected, e.2.eccUncorrectable]) ++
  (s.fab.nis.flatMap fun e => e.1 :: e.2.oldGenDropped :: e.2.stall) ++
  (s.fab.offAnswered.flatMap fun e => [e.1, e.2]) ++ (s.fab.wakeOverflow.flatMap fun e => [e.1, e.2]) ++
  (s.fab.replays.flatMap fun e => [e.1, e.2]) ++ [s.fab.reservedStatus, s.fab.reservedCmd]

/-- FABRIC_COUNTERS: the manual names the counters and gives no layout. -/
def cmdFabricCounters (rq : Req) (_ : List Byte) (s : State) : State := replyFields s rq (fabricCounts s)

end Sys2Proof.Machine
end

