-- ==== Sys2Proof/Machine/Timed.lean ====
section
/-! DEFINITION. Timed-action comparators (R92 to R100), the 1 ms evaluation of the active role (R36, R37), realignment
(R38, R83, R84, R100), and what falls due as Air Time passes. -/

namespace Sys2Proof.Machine

/-! ## Comparators -/

/-- A comparator sends a posted 8-byte write (R95, R355). -/
def compPost (s : State) (n addr v : Nat) : State :=
  issue s lanimanNode (comparatorChan n) 2 3 addr 8 0 (leBytes 8 v) 0

/-- MILL_CHECK is carried to a slice as a VC3 message; it is lost where the slice's domain is off or fenced (R94, R95). -/
def compCheck (s : State) (n slc : Nat) : State :=
  if (nodeClosed s (millNode slc)).isSome then tacFault s n 4
  else inject s { cmd := 2, vc := 3, src := lanimanNode, dst := millNode slc, addr := 0x20030000000 + 0x100000 * slc,
                  len := 8, chan := comparatorChan n }

/-- PULSE: the output is high until the later of the present end and that of the new pulse. -/
def compPulse (s : State) (k w : Nat) : State :=
  let until_ := s.now + 64 * w
  let old := mapGet s.time.taout k 0
  { s with time := { s.time with taout := mapSet s.time.taout k (max old until_) } }

/-- The effect of an action (R94).  Laniman's SHADOW_SWAP names the swap of a commit as unit set 0 and its rollback as unit
set 1 (DESIGN CHOICE, `notes/assumptions/71.md`). -/
def compAction (s : State) (n : Nat) (c : Comparator) : State :=
  match c.action with
  | 1 => if n < 64 then (if c.arg = 0 then shadowSwapOp s [] [] else commitRollbackOp s) else s
  | 2 => compPost s n (flagAddr (field c.arg 15 8) (c.arg % 256)) 1
  | 3 => compPost s n (counterAddr (c.arg % 65536)) (2 * 2 ^ 24)
  | 4 => ((List.range 4).filter fun i => bit c.arg i).foldl (fun t i => compCheck t n i) s
  | 5 => compPulse s (field c.arg 9 8) (c.arg % 256)
  | 6 => raise s 12 n 0x0304 (leBytes 1 n ++ leBytes 4 c.arg)
  | _ => s

/-- First value of target + n × period above Air Time, n at least 1 (R97). -/
def nextTarget (now target period : Nat) : Nat :=
  if period = 0 then target else if now < target then target + period else target + ((now - target) / period + 1) * period

/-- The comparator after a firing (R97). -/
def compAfter (now : Nat) (c : Comparator) : Comparator :=
  if c.mode = 1 then { c with fired := true, late := false, target := nextTarget now c.target c.period } else { c with armed := false, fired := true, late := false }

/-- A comparator fires: its action, its next target, and in HOLD the wake of a host comparator (R94, R97, R542). -/
def fire (s : State) (n : Nat) : State :=
  let c := s.comp n
  let s1 := compAction (s.setComp n (compAfter s.now c)) n c
  if 64 ≤ n then wakeHold s1 4 n 3 else s1

/-- The comparator is armed and its copy of Air Time has reached the target (R91). -/
def compDue (s : State) (n : Nat) : Bool := (s.comp n).armed && reached s.now (s.comp n).target

/-- AIRTIME_TAC_LATE (R96, R103). -/
def tacLate (s : State) (n late : Nat) : State := raise s 12 n 0x0302 (leBytes 1 n ++ leBytes 4 (min late (2 ^ 32 - 1)))

/-- COMPARATOR_FIRE.  A comparator that Laniman wrote with a target already passed fires late (R96). -/
def comparatorFireOp (s : State) (n : Nat) : State :=
  if compDue s n then
    let c := s.comp n
    if c.late then tacLate (fire s n) n (s.now - c.target) else fire s n
  else s

/-- TAOUT_PULSE_END. -/
def taoutPulseEndOp (s : State) (k : Nat) : State :=
  match mapGet? s.time.taout k with
  | some t => if reached s.now t then { s with time := { s.time with taout := mapDel s.time.taout k } } else s
  | none => s

/-- MILL_CHECK reaches a slice: the message that a comparator sent has arrived. -/
def millCheckRow (s : State) (slc : Nat) : State :=
  let mine := fun (m : FabMsg) => m.vc = 3 && m.dst = millNode slc && m.addr = 0x20030000000 + 0x100000 * slc &&
    decide (61440 ≤ m.chan) && decide (m.chan < 61696)
  millCheckOp { s with fab := { s.fab with flight := match s.fab.flight.find? mine with
    | some m => s.fab.flight.erase m
    | none => s.fab.flight } } slc

/-! ## TIMED_ARM, TIMED_CANCEL, TIMED_STATUS (R92, R93, R96, R99) -/

/-- The argument lies in the range that a host may name, reserved bits ignored (R94, R418). -/
def argOk (action arg : Nat) : Bool :=
  match action with
  | 2 => decide (field arg 15 8 < 24) && decide (192 ≤ arg % 256)
  | 5 => decide (0 < arg % 256)
  | _ => true

/-- An argument with its reserved bits read as zero (R9). -/
def argKept (action arg : Nat) : Nat :=
  match action with
  | 2 => arg % 65536
  | 3 => arg % 65536
  | 4 => arg % 16
  | 5 => arg % 1024
  | _ => arg

/-- The lowest-numbered host comparator that is not armed. -/
def freeComp (s : State) : Option Nat := ((List.range 192).map fun i => 64 + i).find? fun n => !(s.comp n).armed

/-- The checks of TIMED_ARM in their order (R93): the status, and otherwise the comparator. -/
def armTimed (s : State) (num action mode arg target period : Nat) : Nat ⊕ Nat :=
  if num < 64 then .inl dzDenied
  else if 255 < num && num ≠ 0xFFFF then .inl dzRange
  else if action = 1 then .inl dzDenied
  else if action = 0 || 6 < action then .inl dzBadParam
  else if 1 < mode then .inl dzBadParam
  else if !argOk action arg then .inl dzRange
  else if mode = 0 && period ≠ 0 then .inl dzBadParam
  else if mode = 1 && (period < 16384 || 2 ^ 48 < period) then .inl dzRange
  else if target < s.now + s.param 0x0307 0 then .inl dzLate
  else if num = 0xFFFF then (match freeComp s with | some n => .inr n | none => .inl dzBusy)
  else if (s.comp num).armed then .inl dzBusy
  else .inr num

/-- TIMED_ARM. -/
def cmdTimedArm (rq : Req) (p : List Byte) (s : State) : State :=
  let action := rd p 2 1
  let mode := rd p 3 1
  let arg := rd p 4 4
  let target := rd p 8 8
  let period := rd p 16 8
  match armTimed s (rd p 0 2) action mode arg target period with
  | .inl st => refuse s rq st 0
  | .inr n =>
    let c : Comparator := { armed := true, mode := mode, action := action, arg := argKept action arg, target := target,
                            period := period, port := min rq.port 4, fired := false }
    replyOk (s.setComp n c) rq (leBytes 2 n)

/-- TIMED_CANCEL (R99). -/
def cmdTimedCancel (rq : Req) (p : List Byte) (s : State) : State :=
  let n := rd p 0 2
  let c := s.comp n
  if n < 64 then refuse s rq dzDenied 0
  else if 255 < n then refuse s rq dzRange 0
  else if s.roleOf rq.port ≠ 1 && c.port ≠ rq.port then refuse s rq dzDenied 3
  else if compDue s n then
    -- a firing in the cycle of the acceptance counts as having fired
    let s1 := fire s n
    if c.mode = 0 then refuse s1 rq dzLate 1 else replyOk (s1.setComp n { s1.comp n with armed := false }) rq []
  else if c.armed then replyOk (s.setComp n { c with armed := false }) rq []
  else if c.mode = 0 && c.fired then refuse s rq dzLate 1
  else refuse s rq dzLate 2

/-- TIMED_STATUS: the manual names the fields of each host comparator and gives no layout. -/
def cmdTimedStatus (rq : Req) (_ : List Byte) (s : State) : State :=
  replyFields s rq (((List.range 192).map fun i => 64 + i).flatMap fun n =>
    let c := s.comp n
    [b2n c.armed, c.mode, c.action, c.arg, c.target, c.period, c.port, b2n c.fired])

/-! ## Realignment (R38, R83, R84, R100) -/

/-- r becomes zero in one step; every comparator whose target a forward step passes fires once, late. -/
def realign (s : State) (cause : Nat) : State :=
  let old := s.now
  let s1 : State := { s with time := { s.time with r := 0, slewFrac := 0 } }
  let s2 : State := { s1 with time := { s1.time with air := airFormula s1, aligned := (s.dom s.time.active).st = 2 } }
  let step : Int := (s2.now : Int) - (old : Int)
  let s3 := timeEvt s2 0x0301 (leInt 8 step ++ leBytes 1 cause ++ leBytes 1 (b2n s2.time.aligned))
  if step ≤ 0 then s3
  else millTick <| (List.range 256).foldl (fun t n =>
    let c := t.comp n
    if c.armed && decide (old < c.target) && reached s2.now c.target then tacLate (fire t n) n (s2.now - c.target) else t) s3

/-- TIME_REALIGN (R38): only while no carrier context is active. -/
def cmdTimeRealign (rq : Req) (_ : List Byte) (s : State) : State :=
  if s.anyActive then refuse s rq dzBusy 0 else replyOk (realign s 0) rq []

/-! ## The 1 ms evaluation (R36, R37, R84) -/

/-- The active role passes to the other domain (R34): Air Time shows no step. -/
def switchActive (s : State) (cause : Nat) : State :=
  let a := s.time.active
  let b := 1 - a
  let d : Int := ((s.dom b).count : Int) - ((s.dom a).count : Int)
  let s1 : State := { s with time := { s.time with active := b, r := s.time.r - d / 65536 } }
  timeEvt s1 0x0207 (leBytes 1 a ++ leBytes 1 b ++ leBytes 1 cause ++
    leInt 4 (clampInt (-2147483648) 2147483647 (d / 4294967296)) ++ s32Ppb ((s.dom b).y - (s.dom a).y))

/-- The automatic decision: away from a domain that is not LOCKED, and back to the primary domain. -/
def autoSwitch (s : State) : State :=
  let a := s.time.active
  if s.param 0x0201 0 = 1 && (s.dom a).st ≠ 2 && (s.dom (1 - a)).st = 2 then switchActive s 0
  else if s.param 0x0202 0 = 1 && a = 1 && s.time.dom0.st = 2 &&
      (match s.time.dom0.lockedFrom with
        | some t => decide (t + s.param 0x0208 0 * 1000000000 ≤ s.time.dom0.ns)
        | none => false) then switchActive s 2
  else s

/-- A TIME_SWITCH in its wait phase is carried out after the automatic decision (R37). -/
def commandedSwitch (s : State) : State :=
  match s.time.switchWait with
  | none => s
  | some w =>
    let s1 : State := { s with time := { s.time with switchWait := none } }
    if s1.time.active = w.target then replyOk s1 w.req []
    else if (s1.dom w.target).st ≠ 2 && !w.force then refuse s1 w.req dzNotReady 0
    else replyOk (switchActive s1 1) w.req []

/-- AUTO_REALIGN (R84). -/
def autoRealign (s : State) : State :=
  if s.param 0x0305 0 = 1 && !s.anyActive && (s.time.r ≠ 0 || !s.time.aligned) && (s.dom s.time.active).st = 2 then realign s 1
  else s

/-- ACTIVE_ROLE_EVALUATION. -/
def activeRoleEvaluationOp (s : State) : State := autoRealign (commandedSwitch (autoSwitch s))

/-! ## What falls due with time (R91): one cycle of the time clock on an empty queue -/

/-- A PPS output edge or end is due. -/
def ppsDue (s : State) (k : Nat) : List Instr :=
  let p := s.ppsOut k
  let ns : Int := ((s.dom p.dom).ns : Int)
  match Fin.ofNat 4 k with
  | j =>
    (if p.fall = some 0 then [Instr.ppsOutPulseEnd j] else []) ++
    (match p.next with | some t => if p.edgeAt t ≤ ns then [Instr.ppsOutEdge j] else [] | none => [])

/-- Air Time has reached a multiple of 1 ms since a moment. -/
def msPassed (old new : Nat) : Bool := decide (old / tcMs < new / tcMs)

/-- Rows that fall due in the state after a cycle, in the order of their numbers. -/
def dueRows (old s : State) : List Instr :=
  (if msPassed old.now s.now then [Instr.activeRoleEvaluation] else []) ++
  (if slewEnding s then [Instr.residualSlewEnd] else []) ++
  (if residualAbove s ≠ s.time.alarm then [Instr.residualThresholdCrossing] else []) ++
  ((List.range 4).flatMap fun k => ppsDue s k) ++
  ((s.time.comps.filter fun e => e.2.armed && reached s.now e.2.target).map fun e => Instr.comparatorFire (Fin.ofNat 256 e.1)) ++
  ((s.time.taout.filter fun e => reached s.now e.2).map fun e => Instr.taoutPulseEnd (Fin.ofNat 4 e.1))

/-- The DMA channels in WAIT for an Air Time that has come (R369). -/
def dueChannels (s : State) : List Nat :=
  (s.dma.chans.filter fun e => match e.2.wait with
    | some (1, t, _) => e.2.st = 2 && reached (s.localNow 1 (e.1 / 32)) t
    | _ => false).map fun e => e.1

/-- One cycle of the time clock: time passes, waiting master resets are made, DMA channels whose Air Time has come go on,
and the rows that fell due join the queue. Nothing counts while RST_N is low or power is off. -/
def idleCycle (s : State) : State :=
  if s.boot.rstLow || s.boot.off then s
  else
    let u := millTick (waitingResets (timeTick s))
    let t := idleWatch ((dueChannels u).foldl dmaAirtimeReached u)
    { t with pending := t.pending ++ dueRows s t }

end Sys2Proof.Machine
end

