-- ==== Sys2Proof/Machine/PortRows.lean ====
section
/-! DEFINITION. Frames as they arrive on and leave a link (R131 to R138), and the pool frames that a row of its own names
(R492 to R509). -/

namespace Sys2Proof.Machine

/-! ## FRAME_RECEIVED -/

/-- What the fetch behind a received MIRROR page finds: the frame's row does not carry it, so it is free. -/
def freeDecode (s : State) : Decode :=
  match Config.freeNat s.freeCount % 3 with
  | 0 => .clean
  | 1 => .corrected (Config.freeNat (s.freeCount + 1)) (Fin.ofNat 3 (Config.freeNat (s.freeCount + 2)))
  | _ => .uncorrectable

/-- A frame that no receiver of the port's role takes (R131). -/
def roleDrop (s : State) (p : Nat) : State := modPort s p fun x => { x with roleDiscard := satAdd 32 x.roleDiscard 1 }

/-- The frame is a PTP message. -/
def isPtp (b : List Byte) : Bool := etherType b = 0x88F7 || udpDst b = some 319 || udpDst b = some 320

/-- A frame for the PTP queue of a POOL or TIMING port, or a discarded one. -/
def timingRx (s : State) (p k : Nat) (b : List Byte) : State := if isPtp b || isEsmc b then ptpRx s p k b else roleDrop s p

/-- The frame is an untagged pool frame (R491). -/
def isPoolFrame (b : List Byte) : Bool := rdBe b 0 6 = poolMac && rdBe b 12 2 = 0x88B5

/-- A frame that passed the MAC, by the port's role (R131).  A PTP message on a MIDHAUL port goes to the ring record alone,
which carries its stamp (R466), and not to the PTP queue as well (DESIGN CHOICE, `notes/assumptions/74.md`). -/
def roleRx (s : State) (p k : Nat) (b : List Byte) : State :=
  match portRole s p with
  | 0 => classify s p k b
  | 1 => midhaulRx s p k b
  | 2 =>
    if isPoolFrame b then poolFrame { s with freeCount := s.freeCount + 3 } p (b.take (b.length - 4)) (freeDecode s)
    else timingRx s p k b
  | _ => timingRx s p k b

/-- A frame on a link's receive path: the filters of R133, the SSM of an ESMC PDU, and the role's receiver. -/
def frameIn (s : State) (p k : Nat) (phyErr : Bool) (b : List Byte) : State :=
  if !linkDelivers s p k then s
  else match macCheck s p phyErr b with
    | some n => modLink s p k fun x => macCount x n
    | none => roleRx (if isEsmc b then esmcFrame s p k b else s) p k b

/-- FRAME_RECEIVED: a frame from the receive pins, which a near-end loop ignores (R118). -/
def frameReceived (s : State) (p k : Nat) (phyErr : Bool) (b : List Byte) : State :=
  if linkNear s p k then s else frameIn s p k phyErr b

/-! ## FRAME_TRANSMITTED -/

/-- A frame whose link carries other data than the port's is discarded: nothing of it was sent (R118, R119). -/
def frameLost (s : State) (p k : Nat) (f : TxFrame) : State :=
  txKick (midhaulPump (safeReplace (frameDone (modLink s p k fun x => { x with sending := none }) f) p k) p) p k

/-- FRAME_TRANSMITTED, with the stamp of a pool frame that left (R496); in a near-end loop the frame comes back to the
receive path (R118). -/
def frameSent (s : State) (p k : Nat) : State :=
  match (s.link p k).sending with
  | some f =>
    if txReplaced s p k then frameLost s p k f
    else
      let s1 := frameTransmitted (if f.kind = 5 then poolSent s p f.bytes else s) p k
      if linkNear s p k then frameIn s1 p k false (wireFrame f.bytes) else s1
  | none => s

/-! ## Rows of received pool frames -/

/-- The plain text of a pool frame whose tag is right under its key slot (R493, R495). -/
def poolPlain (s : State) (b : List Byte) : Option (List Byte) :=
  let h := slice b 14 24
  let n := rd h 16 2
  match (s.keySlot (rd h 6 1 / 16 % 2)).epoch with
  | none => none
  | some e =>
    let plain := (Config.gcmSeal (poolKey s e) (slice h 4 12) h (slice b 38 n)).1
    if (Config.gcmSeal (poolKey s e) (slice h 4 12) h plain).2 = slice b (38 + n) 16 then some plain else none

/-- A received MIGRATE frame of one step (R507): a frame whose plain text names another step is not this row's. -/
def migrateRow (s : State) (p step : Nat) (b : List Byte) : State :=
  match poolPlain s b with
  | some pl => if rd pl 2 1 = step then poolRow s p 5 b .clean else s
  | none => poolRow s p 5 b .clean

end Sys2Proof.Machine
end

