-- ==== Sys2Proof/Machine/Packets.lean ====
section
/-! DEFINITION. PACKET_ACCEPTANCE (R436, R441 to R451): the arbiter's turn, a packet's bytes, and the command that its
opcode names. -/

namespace Sys2Proof.Machine

/-! ## The command of an opcode (R449) -/

/-- Groups 0x00 and 0x01. -/
def opDevice (op : Nat) : Req → List Byte → State → State :=
  match op with
  | 0x0001 => cmdDevInfo
  | 0x0002 => cmdDevStatus
  | 0x0003 => cmdResetWarm
  | 0x0004 => cmdFlashRead
  | 0x0005 => cmdFlashErase
  | 0x0006 => cmdFlashWrite
  | 0x0101 => cmdParamGet
  | 0x0102 => cmdParamSet
  | 0x0103 => cmdCfgStage
  | 0x0104 => cmdCfgArm
  | _ => cmdCfgDigest

/-- Groups 0x02 and 0x03. -/
def opCompute (op : Nat) : Req → List Byte → State → State :=
  match op with
  | 0x0201 => cmdCarrierStatus
  | 0x0202 => cmdNoiseRead
  | 0x0203 => cmdRadioStatus
  | 0x0301 => cmdKernelWrite
  | 0x0302 => cmdKernelCommit
  | 0x0303 => cmdKernelPlace
  | 0x0304 => cmdKernelStatus
  | 0x0305 => cmdMillEnqueue
  | 0x0306 => cmdMillCounterSet
  | 0x0307 => cmdMillCounterRead
  | _ => cmdTraceRead

/-- Group 0x04. -/
def opTime (op : Nat) : Req → List Byte → State → State :=
  match op with
  | 0x0401 => cmdTimeStatus
  | 0x0402 => cmdTimeRead
  | 0x0403 => cmdAirtimeRead
  | 0x0404 => cmdTimeSwitch
  | 0x0405 => cmdTimeRealign
  | 0x0406 => cmdTimePtpFeed
  | 0x0407 => cmdPtpRecv
  | 0x0408 => cmdPtpSend
  | 0x0409 => cmdTimedArm
  | 0x040A => cmdTimedCancel
  | _ => cmdTimedStatus

/-- Groups 0x05 to 0x07. -/
def opMemory (op : Nat) : Req → List Byte → State → State :=
  match op with
  | 0x0501 => cmdRegionCreate
  | 0x0502 => fun rq _ s => cmdRegionDelete rq s
  | 0x0503 => fun rq _ s => cmdMemStatus rq s
  | 0x0504 => fun rq _ s => cmdRekey rq s
  | 0x0505 => cmdChanStart
  | 0x0506 => fun rq _ s => cmdChanStop rq s
  | 0x0507 => fun rq _ s => cmdChanReset rq s
  | 0x0508 => fun rq _ s => cmdChanStatus rq s
  | 0x0601 => cmdPowerStatus
  | 0x0602 => cmdPowerStateSet
  | 0x0701 => cmdPoolStatus
  | 0x0702 => cmdTakeover
  | _ => cmdMigrate

/-- Group 0x08. -/
def opLanes (op : Nat) : Req → List Byte → State → State :=
  match op with
  | 0x0801 => cmdLaneStatus
  | 0x0802 => cmdMaintOpen
  | 0x0803 => cmdMaintClose
  | 0x0804 => cmdEyescanStart
  | 0x0805 => cmdEyescanAbort
  | 0x0806 => cmdEyescanRead
  | 0x0807 => cmdFhCounters
  | 0x0808 => cmdFhExcRead
  | 0x0809 => cmdFabricCounters
  | 0x080A => cmdSelftestRun
  | 0x080B => cmdSelftestAbort
  | _ => cmdSelftestStatus

/-- Groups 0x09 to 0x0B. -/
def opReports (op : Nat) : Req → List Byte → State → State :=
  match op with
  | 0x0901 => cmdEvtSubscribe
  | 0x0902 => cmdEvtRead
  | 0x0903 => cmdEvtUnsubscribe
  | 0x0A01 => cmdDbgChallenge
  | 0x0A02 => cmdDbgUnlock
  | 0x0A03 => cmdDbgLock
  | 0x0A04 => cmdDbgStatus
  | 0x0B01 => cmdAgeingReport
  | _ => cmdAgeingHistory

/-- The command of a defined opcode. -/
def opBody (op : Nat) (rq : Req) (pl : List Byte) (s : State) : State :=
  match op / 256 with
  | 0 => opDevice op rq pl s
  | 1 => opDevice op rq pl s
  | 2 => opCompute op rq pl s
  | 3 => opCompute op rq pl s
  | 4 => opTime op rq pl s
  | 5 => opMemory op rq pl s
  | 6 => opMemory op rq pl s
  | 7 => opMemory op rq pl s
  | 8 => opLanes op rq pl s
  | _ => opReports op rq pl s

/-! ## A packet's bytes (R441, R442) -/

/-- The header fields of a packet. -/
def packetReq (port : Nat) (b : List Byte) : Req :=
  { port := port, opcode := rd b 0 2, tag := rd b 2 2, seq := rd b 12 4, quiet := bit (rd b 6 1) 0, scope := rd b 7 1, inst := rd b 8 4 }

/-- The packet's CRC-32C is right. -/
def packetCrcOk (b : List Byte) (len : Nat) : Bool := crc32c (b.take (16 + len)) = rd b (16 + len) 4

/-- An accepted packet: steps 1 and 2 of R443, and the transfer's length on the SPI port (R467), before the others. -/
def runPacket (s : State) (rq : Req) (b : List Byte) : State :=
  let len := rd b 4 2
  if 4076 < len || (4 ≤ rq.port && b.length ≠ 20 + len) then refuse s rq dzBadLen 0xFFFF
  else if !packetCrcOk b len then
    let s1 := if 4 ≤ rq.port then s
      else s.setHp rq.port { s.hp rq.port with badCrc := satAdd 32 (s.hp rq.port).badCrc 1 }
    refuse s1 rq dzBadCrc 0
  else runChecked s rq (slice b 16 len) (opBody rq.opcode)

/-! ## The arbiter (R447) -/

/-- The bytes of the packet that a port offers: the oldest it submitted, while no earlier packet waits for its reply. -/
def offered (s : State) (port : Nat) : Option (List Byte) :=
  if s.portShut port then none
  else if 4 ≤ port then s.host.spi.packet
  else match (s.hp port).order with
    | k :: _ => some (bytesRead 0 (s.hp port).slots (4096 * k) 4096)
    | [] => none

/-- The port whose turn it is: the first that offers a packet after the one accepted last. -/
def turn (s : State) : Option (Nat × List Byte) :=
  ((List.range 5).map fun i => (s.host.lastPort + 1 + i) % 5).findSome? fun p => (offered s p).map fun b => (p, b)

/-- The slot of the accepted packet becomes free (R436). -/
def freeSlot (s : State) (port : Nat) : State :=
  if 4 ≤ port then s
  else match (s.hp port).order with
    | k :: rest => s.setHp port { s.hp port with order := rest, slotBusy := (s.hp port).slotBusy &&& ~~~((1 : BitVec 64) <<< k) }
    | [] => s

/-- PACKET_ACCEPTANCE. -/
def packetAcceptanceOp (s : State) : State :=
  match turn s with
  | none => s
  | some (p, b) =>
    let rq := packetReq p b
    runPacket (acceptReq (freeSlot s p) rq) rq b

end Sys2Proof.Machine
end

