-- ==== Sys2Proof/Machine/RunCfg.lean ====
section
/-! DEFINITION. Meanings of the rows of a configuration change (chapter 16). -/

namespace Sys2Proof.Machine

/-- UNIT_READY (R475). -/
def execUnitReady (u : BitVec 16) (s : State) : Host.Outcome State Fault Refusal := .next (unitReadyMsg s u.toNat)

/-- COMMIT_READINESS_CHECK (R477). -/
def execCommitReadinessCheck (bad : List Nat) (s : State) : Host.Outcome State Fault Refusal := .next (readinessCheck s bad)

/-- SHADOW_SWAP (R475). -/
def execShadowSwap (bad reset : List Nat) (s : State) : Host.Outcome State Fault Refusal := .next (shadowSwapOp s bad reset)

/-- UNIT_APPLIED (R475). -/
def execUnitApplied (u : BitVec 16) (s : State) : Host.Outcome State Fault Refusal := .next (unitAppliedMsg s u.toNat)

/-- COMMIT_OUTCOME (R478). -/
def execCommitOutcome (s : State) : Host.Outcome State Fault Refusal := .next (commitOutcomeOp s)

/-- COMMIT_ROLLBACK (R475). -/
def execCommitRollback (s : State) : Host.Outcome State Fault Refusal := .next (commitRollbackOp s)

end Sys2Proof.Machine
end

