-- ==== Sys2Proof/Machine/RunClove.lean ====
section
/-! DEFINITION. Meanings of the Clove rows (chapter 10). -/

namespace Sys2Proof.Machine

/-- LDPC_DECODE (R312). -/
def execLdpcDecode (u : CloveId) (e : CloveIn) (s : State) : Host.Outcome State Fault Refusal := .next (receiveJob s u 1 e)

/-- LDPC_ENCODE (R318). -/
def execLdpcEncode (u : CloveId) (e : CloveIn) (s : State) : Host.Outcome State Fault Refusal := .next (receiveJob s u 2 e)

/-- TB_ASSEMBLE (R317). -/
def execTbAssemble (u : CloveId) (e : CloveIn) (s : State) : Host.Outcome State Fault Refusal := .next (receiveJob s u 7 e)

/-- POLAR_DECODE (R319). -/
def execPolarDecode (u : CloveId) (e : CloveIn) (s : State) : Host.Outcome State Fault Refusal := .next (receiveJob s u 3 e)

/-- POLAR_ENCODE (R319). -/
def execPolarEncode (u : CloveId) (e : CloveIn) (s : State) : Host.Outcome State Fault Refusal := .next (receiveJob s u 4 e)

/-- TURBO_DECODE (R320). -/
def execTurboDecode (u : CloveId) (e : CloveIn) (s : State) : Host.Outcome State Fault Refusal := .next (receiveJob s u 5 e)

/-- TURBO_ENCODE (R320). -/
def execTurboEncode (u : CloveId) (e : CloveIn) (s : State) : Host.Outcome State Fault Refusal := .next (receiveJob s u 6 e)

/-- TURBO_DATAPATH_FREE (R321). -/
def execTurboDatapathFree (u : CloveId) (enc : Bool) (e : CloveIn) (s : State) : Host.Outcome State Fault Refusal :=
  .next (turboDatapathFree s u enc e)

/-- CLOVE_JOB_COMPLETION (R310). -/
def execCloveJobCompletion (u : CloveId) (enc : Bool) (bankBad writeBad : Bool) (s : State) : Host.Outcome State Fault Refusal :=
  .next (cloveJobCompletion s u enc bankBad writeBad)

end Sys2Proof.Machine
end

