-- ==== Sys2Proof/Machine/RunDelaz.lean ====
section
/-! DEFINITION. Meanings of the Delaz commands (chapter 15): each packet is accepted, checked and executed. -/

namespace Sys2Proof.Machine

/-- DEV_INFO (R455). -/
def execDevInfo (rq : Req) (p : List Byte) (s : State) : Host.Outcome State Fault Refusal :=
  .next (delaz 0x0001 rq p s cmdDevInfo)

/-- DEV_STATUS (R455). -/
def execDevStatus (rq : Req) (p : List Byte) (s : State) : Host.Outcome State Fault Refusal :=
  .next (delaz 0x0002 rq p s cmdDevStatus)

/-- RESET_WARM (R456). -/
def execResetWarm (rq : Req) (p : List Byte) (s : State) : Host.Outcome State Fault Refusal :=
  .next (delaz 0x0003 rq p s cmdResetWarm)

/-- FLASH_READ (R457). -/
def execFlashRead (rq : Req) (p : List Byte) (s : State) : Host.Outcome State Fault Refusal :=
  .next (delaz 0x0004 rq p s cmdFlashRead)

/-- FLASH_ERASE (R457). -/
def execFlashErase (rq : Req) (p : List Byte) (s : State) : Host.Outcome State Fault Refusal :=
  .next (delaz 0x0005 rq p s cmdFlashErase)

/-- FLASH_WRITE (R457). -/
def execFlashWrite (rq : Req) (p : List Byte) (s : State) : Host.Outcome State Fault Refusal :=
  .next (delaz 0x0006 rq p s cmdFlashWrite)

/-- PARAM_GET (R454). -/
def execParamGet (rq : Req) (p : List Byte) (s : State) : Host.Outcome State Fault Refusal :=
  .next (delaz 0x0101 rq p s cmdParamGet)

/-- PARAM_SET (R453). -/
def execParamSet (rq : Req) (p : List Byte) (s : State) : Host.Outcome State Fault Refusal :=
  .next (delaz 0x0102 rq p s cmdParamSet)

/-- CFG_STAGE (R470). -/
def execCfgStage (rq : Req) (p : List Byte) (s : State) : Host.Outcome State Fault Refusal :=
  .next (delaz 0x0103 rq p s cmdCfgStage)

/-- CFG_ARM (R472). -/
def execCfgArm (rq : Req) (p : List Byte) (s : State) : Host.Outcome State Fault Refusal :=
  .next (delaz 0x0104 rq p s cmdCfgArm)

/-- CFG_DIGEST (R486). -/
def execCfgDigest (rq : Req) (p : List Byte) (s : State) : Host.Outcome State Fault Refusal :=
  .next (delaz 0x0105 rq p s cmdCfgDigest)

/-- CARRIER_STATUS (R458). -/
def execCarrierStatus (rq : Req) (p : List Byte) (s : State) : Host.Outcome State Fault Refusal :=
  .next (delaz 0x0201 rq p s cmdCarrierStatus)

/-- RADIO_NOISE_READ (R338). -/
def execRadioNoiseRead (rq : Req) (p : List Byte) (s : State) : Host.Outcome State Fault Refusal :=
  .next (delaz 0x0202 rq p s cmdNoiseRead)

/-- RADIO_STATUS (R347). -/
def execRadioStatus (rq : Req) (p : List Byte) (s : State) : Host.Outcome State Fault Refusal :=
  .next (delaz 0x0203 rq p s cmdRadioStatus)

/-- KERNEL_WRITE (R460). -/
def execKernelWrite (rq : Req) (p : List Byte) (s : State) : Host.Outcome State Fault Refusal :=
  .next (delaz 0x0301 rq p s cmdKernelWrite)

/-- KERNEL_COMMIT (R460). -/
def execKernelCommit (rq : Req) (p : List Byte) (s : State) : Host.Outcome State Fault Refusal :=
  .next (delaz 0x0302 rq p s cmdKernelCommit)

/-- KERNEL_PLACE (R461). -/
def execKernelPlace (rq : Req) (p : List Byte) (s : State) : Host.Outcome State Fault Refusal :=
  .next (delaz 0x0303 rq p s cmdKernelPlace)

/-- KERNEL_STATUS (R461). -/
def execKernelStatus (rq : Req) (p : List Byte) (s : State) : Host.Outcome State Fault Refusal :=
  .next (delaz 0x0304 rq p s cmdKernelStatus)

/-- MILL_ENQUEUE (R462). -/
def execMillEnqueue (rq : Req) (p : List Byte) (s : State) : Host.Outcome State Fault Refusal :=
  .next (delaz 0x0305 rq p s cmdMillEnqueue)

/-- MILL_COUNTER_SET (R462). -/
def execMillCounterSet (rq : Req) (p : List Byte) (s : State) : Host.Outcome State Fault Refusal :=
  .next (delaz 0x0306 rq p s cmdMillCounterSet)

/-- MILL_COUNTER_READ (R462). -/
def execMillCounterRead (rq : Req) (p : List Byte) (s : State) : Host.Outcome State Fault Refusal :=
  .next (delaz 0x0307 rq p s cmdMillCounterRead)

/-- TRACE_READ (R463). -/
def execTraceRead (rq : Req) (p : List Byte) (s : State) : Host.Outcome State Fault Refusal :=
  .next (delaz 0x0308 rq p s cmdTraceRead)

/-- TIME_STATUS (R464). -/
def execTimeStatus (rq : Req) (p : List Byte) (s : State) : Host.Outcome State Fault Refusal :=
  .next (delaz 0x0401 rq p s cmdTimeStatus)

/-- TIME_READ (R464). -/
def execTimeRead (rq : Req) (p : List Byte) (s : State) : Host.Outcome State Fault Refusal :=
  .next (delaz 0x0402 rq p s cmdTimeRead)

/-- AIRTIME_READ (R101). -/
def execAirtimeRead (rq : Req) (p : List Byte) (s : State) : Host.Outcome State Fault Refusal :=
  .next (delaz 0x0403 rq p s cmdAirtimeRead)

/-- TIME_SWITCH (R37). -/
def execTimeSwitch (rq : Req) (p : List Byte) (s : State) : Host.Outcome State Fault Refusal :=
  .next (delaz 0x0404 rq p s cmdTimeSwitch)

/-- TIME_REALIGN (R38). -/
def execTimeRealign (rq : Req) (p : List Byte) (s : State) : Host.Outcome State Fault Refusal :=
  .next (delaz 0x0405 rq p s cmdTimeRealign)

/-- TIME_PTP_FEED (R56). -/
def execTimePtpFeed (rq : Req) (p : List Byte) (s : State) : Host.Outcome State Fault Refusal :=
  .next (delaz 0x0406 rq p s cmdTimePtpFeed)

/-- PTP_RECV (R465). -/
def execPtpRecv (rq : Req) (p : List Byte) (s : State) : Host.Outcome State Fault Refusal :=
  .next (delaz 0x0407 rq p s cmdPtpRecv)

/-- PTP_SEND (R465). -/
def execPtpSend (rq : Req) (p : List Byte) (s : State) : Host.Outcome State Fault Refusal :=
  .next (delaz 0x0408 rq p s cmdPtpSend)

/-- TIMED_ARM (R93). -/
def execTimedArm (rq : Req) (p : List Byte) (s : State) : Host.Outcome State Fault Refusal :=
  .next (delaz 0x0409 rq p s cmdTimedArm)

/-- TIMED_CANCEL (R99). -/
def execTimedCancel (rq : Req) (p : List Byte) (s : State) : Host.Outcome State Fault Refusal :=
  .next (delaz 0x040A rq p s cmdTimedCancel)

/-- TIMED_STATUS (R99). -/
def execTimedStatus (rq : Req) (p : List Byte) (s : State) : Host.Outcome State Fault Refusal :=
  .next (delaz 0x040B rq p s cmdTimedStatus)

/-- MEM_REGION_CREATE (R383). -/
def execMemRegionCreate (rq : Req) (p : List Byte) (s : State) : Host.Outcome State Fault Refusal :=
  .next (delaz 0x0501 rq p s cmdRegionCreate)

/-- MEM_REGION_DELETE (R384). -/
def execMemRegionDelete (rq : Req) (p : List Byte) (s : State) : Host.Outcome State Fault Refusal :=
  .next (delaz 0x0502 rq p s (fun rq_ _ t => cmdRegionDelete rq_ t))

/-- MEM_STATUS (R411). -/
def execMemStatus (rq : Req) (p : List Byte) (s : State) : Host.Outcome State Fault Refusal :=
  .next (delaz 0x0503 rq p s (fun rq_ _ t => cmdMemStatus rq_ t))

/-- PROT_REKEY (R407). -/
def execProtRekey (rq : Req) (p : List Byte) (s : State) : Host.Outcome State Fault Refusal :=
  .next (delaz 0x0504 rq p s (fun rq_ _ t => cmdRekey rq_ t))

/-- DMA_CHAN_START (R416). -/
def execDmaChanStart (rq : Req) (p : List Byte) (s : State) : Host.Outcome State Fault Refusal :=
  .next (delaz 0x0505 rq p s cmdChanStart)

/-- DMA_CHAN_STOP (R416). -/
def execDmaChanStop (rq : Req) (p : List Byte) (s : State) : Host.Outcome State Fault Refusal :=
  .next (delaz 0x0506 rq p s (fun rq_ _ t => cmdChanStop rq_ t))

/-- DMA_CHAN_RESET (R416). -/
def execDmaChanReset (rq : Req) (p : List Byte) (s : State) : Host.Outcome State Fault Refusal :=
  .next (delaz 0x0507 rq p s (fun rq_ _ t => cmdChanReset rq_ t))

/-- DMA_CHAN_STATUS (R415). -/
def execDmaChanStatus (rq : Req) (p : List Byte) (s : State) : Host.Outcome State Fault Refusal :=
  .next (delaz 0x0508 rq p s (fun rq_ _ t => cmdChanStatus rq_ t))

/-- POWER_STATUS (R555). -/
def execPowerStatus (rq : Req) (p : List Byte) (s : State) : Host.Outcome State Fault Refusal :=
  .next (delaz 0x0601 rq p s cmdPowerStatus)

/-- POWER_STATE_SET (R541). -/
def execPowerStateSet (rq : Req) (p : List Byte) (s : State) : Host.Outcome State Fault Refusal :=
  .next (delaz 0x0602 rq p s cmdPowerStateSet)

/-- POOL_STATUS (R510). -/
def execPoolStatus (rq : Req) (p : List Byte) (s : State) : Host.Outcome State Fault Refusal :=
  .next (delaz 0x0701 rq p s cmdPoolStatus)

/-- TAKEOVER (R506). -/
def execTakeover (rq : Req) (p : List Byte) (s : State) : Host.Outcome State Fault Refusal :=
  .next (delaz 0x0702 rq p s cmdTakeover)

/-- MIGRATE (R507). -/
def execMigrate (rq : Req) (p : List Byte) (s : State) : Host.Outcome State Fault Refusal :=
  .next (delaz 0x0703 rq p s cmdMigrate)

/-- LANE_STATUS (R115). -/
def execLaneStatus (rq : Req) (p : List Byte) (s : State) : Host.Outcome State Fault Refusal :=
  .next (delaz 0x0801 rq p s cmdLaneStatus)

/-- LANE_MAINT_OPEN (R116). -/
def execLaneMaintOpen (rq : Req) (p : List Byte) (s : State) : Host.Outcome State Fault Refusal :=
  .next (delaz 0x0802 rq p s cmdMaintOpen)

/-- LANE_MAINT_CLOSE (R117). -/
def execLaneMaintClose (rq : Req) (p : List Byte) (s : State) : Host.Outcome State Fault Refusal :=
  .next (delaz 0x0803 rq p s cmdMaintClose)

/-- LANE_EYESCAN_START (R121). -/
def execLaneEyescanStart (rq : Req) (p : List Byte) (s : State) : Host.Outcome State Fault Refusal :=
  .next (delaz 0x0804 rq p s cmdEyescanStart)

/-- LANE_EYESCAN_ABORT (R123). -/
def execLaneEyescanAbort (rq : Req) (p : List Byte) (s : State) : Host.Outcome State Fault Refusal :=
  .next (delaz 0x0805 rq p s cmdEyescanAbort)

/-- LANE_EYESCAN_READ (R124). -/
def execLaneEyescanRead (rq : Req) (p : List Byte) (s : State) : Host.Outcome State Fault Refusal :=
  .next (delaz 0x0806 rq p s cmdEyescanRead)

/-- FH_COUNTERS (R164). -/
def execFhCounters (rq : Req) (p : List Byte) (s : State) : Host.Outcome State Fault Refusal :=
  .next (delaz 0x0807 rq p s cmdFhCounters)

/-- FH_EXC_READ (R143). -/
def execFhExcRead (rq : Req) (p : List Byte) (s : State) : Host.Outcome State Fault Refusal :=
  .next (delaz 0x0808 rq p s cmdFhExcRead)

/-- FABRIC_COUNTERS (R369). -/
def execFabricCounters (rq : Req) (p : List Byte) (s : State) : Host.Outcome State Fault Refusal :=
  .next (delaz 0x0809 rq p s cmdFabricCounters)

/-- SELFTEST_RUN (R531). -/
def execSelftestRun (rq : Req) (p : List Byte) (s : State) : Host.Outcome State Fault Refusal :=
  .next (delaz 0x080A rq p s cmdSelftestRun)

/-- SELFTEST_ABORT (R531). -/
def execSelftestAbort (rq : Req) (p : List Byte) (s : State) : Host.Outcome State Fault Refusal :=
  .next (delaz 0x080B rq p s cmdSelftestAbort)

/-- SELFTEST_STATUS (R531). -/
def execSelftestStatus (rq : Req) (p : List Byte) (s : State) : Host.Outcome State Fault Refusal :=
  .next (delaz 0x080C rq p s cmdSelftestStatus)

/-- EVT_SUBSCRIBE (R521). -/
def execEvtSubscribe (rq : Req) (p : List Byte) (s : State) : Host.Outcome State Fault Refusal :=
  .next (delaz 0x0901 rq p s cmdEvtSubscribe)

/-- EVT_READ (R523). -/
def execEvtRead (rq : Req) (p : List Byte) (s : State) : Host.Outcome State Fault Refusal :=
  .next (delaz 0x0902 rq p s cmdEvtRead)

/-- EVT_UNSUBSCRIBE (R523). -/
def execEvtUnsubscribe (rq : Req) (p : List Byte) (s : State) : Host.Outcome State Fault Refusal :=
  .next (delaz 0x0903 rq p s cmdEvtUnsubscribe)

/-- DBG_CHALLENGE (R591). -/
def execDbgChallenge (rq : Req) (p : List Byte) (s : State) : Host.Outcome State Fault Refusal :=
  .next (delaz 0x0A01 rq p s cmdDbgChallenge)

/-- DBG_UNLOCK (R592). -/
def execDbgUnlock (rq : Req) (p : List Byte) (s : State) : Host.Outcome State Fault Refusal :=
  .next (delaz 0x0A02 rq p s cmdDbgUnlock)

/-- DBG_LOCK (R593). -/
def execDbgLock (rq : Req) (p : List Byte) (s : State) : Host.Outcome State Fault Refusal :=
  .next (delaz 0x0A03 rq p s cmdDbgLock)

/-- DBG_STATUS (R593). -/
def execDbgStatus (rq : Req) (p : List Byte) (s : State) : Host.Outcome State Fault Refusal :=
  .next (delaz 0x0A04 rq p s cmdDbgStatus)

/-- AGEING_REPORT (R552). -/
def execAgeingReport (rq : Req) (p : List Byte) (s : State) : Host.Outcome State Fault Refusal :=
  .next (delaz 0x0B01 rq p s cmdAgeingReport)

/-- AGEING_HISTORY (R553). -/
def execAgeingHistory (rq : Req) (p : List Byte) (s : State) : Host.Outcome State Fault Refusal :=
  .next (delaz 0x0B02 rq p s cmdAgeingHistory)

end Sys2Proof.Machine
end

