-- ==== Sys2Proof/Machine/RunDma.lean ====
section
/-! DEFINITION. Meanings of the DMA rows (chapter 14). -/

namespace Sys2Proof.Machine

/-- CHAN_CMD_START (R416). -/
def execChanCmdStart (c : ChanId) (s : State) : Host.Outcome State Fault Refusal := .next (chanCommand s c 1)

/-- CHAN_CMD_STOP (R416). -/
def execChanCmdStop (c : ChanId) (s : State) : Host.Outcome State Fault Refusal := .next (chanCommand s c 2)

/-- CHAN_CMD_RESET (R416). -/
def execChanCmdReset (c : ChanId) (s : State) : Host.Outcome State Fault Refusal := .next (chanCommand s c 3)

/-- FLAG_SET (R420). -/
def execFlagSet (e : EngineId) (f : Byte) (s : State) : Host.Outcome State Fault Refusal := .next (flagSetOp s e f.toNat)

/-- FLAG_CLEAR (R419). -/
def execFlagClear (e : EngineId) (f : Byte) (s : State) : Host.Outcome State Fault Refusal :=
  .next (flagClearOp s e f.toNat)

/-- MOVE (R423). -/
def execMove (c : ChanId) (bytes : List Byte) (s : State) : Host.Outcome State Fault Refusal :=
  .next (dmaInstr s c 1 0 bytes dmaMove)

/-- LOOP (R423). -/
def execLoop (c : ChanId) (bytes : List Byte) (s : State) : Host.Outcome State Fault Refusal :=
  .next (dmaInstr s c 2 0 bytes dmaLoop)

/-- WAIT_AIRTIME (R423). -/
def execWaitAirtime (c : ChanId) (bytes : List Byte) (s : State) : Host.Outcome State Fault Refusal :=
  .next (dmaInstr s c 3 1 bytes dmaWaitAirtime)

/-- WAIT_COUNTER (R423). -/
def execWaitCounter (c : ChanId) (bytes : List Byte) (s : State) : Host.Outcome State Fault Refusal :=
  .next (dmaInstr s c 3 2 bytes dmaWaitCounter)

/-- WAIT_FLAG (R423). -/
def execWaitFlag (c : ChanId) (bytes : List Byte) (s : State) : Host.Outcome State Fault Refusal :=
  .next (dmaInstr s c 3 3 bytes dmaWaitFlag)

/-- SIGNAL_COUNTER (R423). -/
def execSignalCounter (c : ChanId) (bytes : List Byte) (s : State) : Host.Outcome State Fault Refusal :=
  .next (dmaInstr s c 4 1 bytes dmaSignalCounter)

/-- SIGNAL_FLAG (R423). -/
def execSignalFlag (c : ChanId) (bytes : List Byte) (s : State) : Host.Outcome State Fault Refusal :=
  .next (dmaInstr s c 4 2 bytes dmaSignalFlag)

/-- SIGNAL_EVENT (R423). -/
def execSignalEvent (c : ChanId) (bytes : List Byte) (s : State) : Host.Outcome State Fault Refusal :=
  .next (dmaInstr s c 4 3 bytes dmaSignalEvent)

/-- END (R423). -/
def execDmaEnd (c : ChanId) (bytes : List Byte) (s : State) : Host.Outcome State Fault Refusal :=
  .next (dmaInstr s c 5 0 bytes dmaEndOp)

/-- WAIT_AIRTIME_REACHED (R423). -/
def execWaitAirtimeReached (c : ChanId) (s : State) : Host.Outcome State Fault Refusal := .next (dmaAirtimeReached s c)

/-- COUNTER_POLL (R423). -/
def execCounterPoll (c : ChanId) (s : State) : Host.Outcome State Fault Refusal := .next (dmaCounterPoll s c)

end Sys2Proof.Machine
end

