-- ==== Sys2Proof/Machine/RunEvents.lean ====
section
/-! DEFINITION. Meanings of the rows of events and self-test (chapter 18). -/

namespace Sys2Proof.Machine

/-- EVENT_ACCEPTANCE (R513). -/
def execEventAcceptance (s : State) : Host.Outcome State Fault Refusal := .next (eventAcceptanceOp s)

/-- HOST_LAGGED_TIMEOUT (R525). -/
def execHostLaggedTimeout (h : HostId) (s : State) : Host.Outcome State Fault Refusal := .next (hostLaggedOp s h)

/-- SELFTEST_DUE (R529). -/
def execSelftestDue (u : Fin 1144) (s : State) : Host.Outcome State Fault Refusal := .next (selftestDueOp s u)

/-- SELFTEST_START (R530). -/
def execSelftestStart (u : Fin 1144) (s : State) : Host.Outcome State Fault Refusal := .next (selftestStartOp s u)

/-- SELFTEST_TEST_COMPLETE (R530). -/
def execSelftestTestComplete (u : Fin 1144) (fail : Option (BitVec 16)) (s : State) : Host.Outcome State Fault Refusal :=
  .next (testCompleteOp s u (fail.map fun (x : BitVec 16) => x.toNat))

end Sys2Proof.Machine
end

