-- ==== Sys2Proof/Machine/RunFabric.lean ====
section
/-! DEFINITION. Meanings of the fabric and external-memory rows (chapters 12 and 13). -/

namespace Sys2Proof.Machine

/-- READ (R359). -/
def execRead (m : FabMsg) (e : BankEcc) (s : State) : Host.Outcome State Fault Refusal := .next (readOp s m e)

/-- WRITE (R364). -/
def execWrite (m : FabMsg) (e : BankEcc) (s : State) : Host.Outcome State Fault Refusal := .next (writeOp s m e)

/-- ATOMIC_ADD (R370). -/
def execAtomicAdd (m : FabMsg) (e : BankEcc) (s : State) : Host.Outcome State Fault Refusal := .next (atomicAddOp s m e)

/-- SWAP (R370). -/
def execSwap (m : FabMsg) (e : BankEcc) (s : State) : Host.Outcome State Fault Refusal := .next (swapOp s m e)

/-- READ_RESP (R356). -/
def execReadResp (m : FabMsg) (s : State) : Host.Outcome State Fault Refusal := .next (responseOp s m)

/-- WRITE_RESP (R356). -/
def execWriteResp (m : FabMsg) (s : State) : Host.Outcome State Fault Refusal := .next (responseOp s m)

/-- FENCE_REQ (R366). -/
def execFenceReq (node : Fin 1024) (s : State) : Host.Outcome State Fault Refusal := .next (fenceReq s node)

/-- FENCE_ACK (R366). -/
def execFenceAck (node : Fin 1024) (s : State) : Host.Outcome State Fault Refusal := .next (fenceAck s node)

/-- WAKE (R367). -/
def execWake (domain : Fin 96) (s : State) : Host.Outcome State Fault Refusal := .next (wakePacket s domain)

/-- EVENT (R513). -/
def execEvent (cls : Fin 16) (inst : Fin 4096) (code : BitVec 16) (sev : Fin 16) (detail : List Byte) (s : State) : Host.Outcome State Fault Refusal :=
  .next (eventArrival s cls inst code.toNat sev detail)

/-- FLIT_CRC_ERROR (R357). -/
def execFlitCrcError (boundary link : Byte) (s : State) : Host.Outcome State Fault Refusal :=
  .next (flitCrcOp s boundary.toNat link.toNat)

/-- LINK_STUCK (R358). -/
def execLinkStuck (boundary link : Byte) (s : State) : Host.Outcome State Fault Refusal :=
  .next (linkStuckOp s boundary.toNat link.toNat)

/-- REQUEST_TIMEOUT (R363). -/
def execRequestTimeout (node : Fin 1024) (tag : Byte) (s : State) : Host.Outcome State Fault Refusal :=
  .next (requestTimeoutOp s node tag.toNat)

/-- FENCE_TIMEOUT (R366). -/
def execFenceTimeout (domain : Fin 96) (s : State) : Host.Outcome State Fault Refusal := .next (fenceTimeout s domain)

/-- DRAM_READ_COMPLETE (R402). -/
def execDramReadComplete (src : Fin 1024) (tag : Byte) (r : DramResult) (s : State) : Host.Outcome State Fault Refusal :=
  .next (dramComplete s src tag.toNat r)

/-- REGION_INIT_COMPLETE (R383). -/
def execRegionInitComplete (g : Fin 32) (s : State) : Host.Outcome State Fault Refusal := .next (regionInitComplete s g)

/-- SCRUB_PAGE (R394). -/
def execScrubPage (d : Decode) (s : State) : Host.Outcome State Fault Refusal := .next (scrubPage s d)

/-- REKEY_SWEEP_PAGE (R407). -/
def execRekeySweepPage (g : Fin 32) (d : Decode) (failed : List (Fin 32)) (s : State) : Host.Outcome State Fault Refusal :=
  .next (rekeySweepPage s g d (failed.map fun (x : Fin 32) => x.val))

/-- TEMPERATURE_POLL (R380). -/
def execTemperaturePoll (ch : Fin 12) (hot : Bool) (s : State) : Host.Outcome State Fault Refusal :=
  .next (temperaturePoll s ch hot)

end Sys2Proof.Machine
end

