-- ==== Sys2Proof/Machine/RunFacet.lean ====
section
/-! DEFINITION. Meanings of the scalar Facet rows (chapter 6). -/

namespace Sys2Proof.Machine

/-- INTERRUPT_ENTRY (R190). -/
def execInterruptEntry (k : CoreId) (s : State) : Host.Outcome State Fault Refusal := .next (interruptEntry s k)

/-- CTIMER_MATCH (R188). -/
def execCtimerMatch (k : CoreId) (s : State) : Host.Outcome State Fault Refusal := .next (ctimerMatch s k)

/-- HOLD_LIMIT (R195). -/
def execHoldLimit (k : CoreId) (s : State) : Host.Outcome State Fault Refusal := .next (holdLimit s k)

/-- CORE_RESTORE (R194). -/
def execCoreRestore (k : CoreId) (s : State) : Host.Outcome State Fault Refusal := .next (coreRestore s k)

/-- MEM_MODE_CHANGE (R203). -/
def execMemModeChange (c : ClusterId) (s : State) : Host.Outcome State Fault Refusal := .next (memModeChange s c)

/-- DESCRIPTOR_ARRIVAL (R180). -/
def execDescriptorArrival (k : CoreId) (cycles : Nat) (s : State) : Host.Outcome State Fault Refusal :=
  .next (descriptorArrival s k cycles)

/-- ADD (R176). -/
def execAdd (k : CoreId) (iss : Option BundleIn) (d a : Fin 32) (b : Src2) (s : State) : Host.Outcome State Fault Refusal :=
  .next (facetOp s k iss (.alu .add d a b))

/-- SUB (R176). -/
def execSub (k : CoreId) (iss : Option BundleIn) (d a : Fin 32) (b : Src2) (s : State) : Host.Outcome State Fault Refusal :=
  .next (facetOp s k iss (.alu .sub d a b))

/-- AND (R176). -/
def execAnd (k : CoreId) (iss : Option BundleIn) (d a : Fin 32) (b : Src2) (s : State) : Host.Outcome State Fault Refusal :=
  .next (facetOp s k iss (.alu .and d a b))

/-- OR (R176). -/
def execOr (k : CoreId) (iss : Option BundleIn) (d a : Fin 32) (b : Src2) (s : State) : Host.Outcome State Fault Refusal :=
  .next (facetOp s k iss (.alu .or d a b))

/-- XOR (R176). -/
def execXor (k : CoreId) (iss : Option BundleIn) (d a : Fin 32) (b : Src2) (s : State) : Host.Outcome State Fault Refusal :=
  .next (facetOp s k iss (.alu .xor d a b))

/-- ANDN (R176). -/
def execAndn (k : CoreId) (iss : Option BundleIn) (d a : Fin 32) (b : Src2) (s : State) : Host.Outcome State Fault Refusal :=
  .next (facetOp s k iss (.alu .andn d a b))

/-- SHL (R176). -/
def execShl (k : CoreId) (iss : Option BundleIn) (d a : Fin 32) (b : Src2) (s : State) : Host.Outcome State Fault Refusal :=
  .next (facetOp s k iss (.alu .shl d a b))

/-- SHR (R176). -/
def execShr (k : CoreId) (iss : Option BundleIn) (d a : Fin 32) (b : Src2) (s : State) : Host.Outcome State Fault Refusal :=
  .next (facetOp s k iss (.alu .shr d a b))

/-- SAR (R176). -/
def execSar (k : CoreId) (iss : Option BundleIn) (d a : Fin 32) (b : Src2) (s : State) : Host.Outcome State Fault Refusal :=
  .next (facetOp s k iss (.alu .sar d a b))

/-- ROR (R176). -/
def execRor (k : CoreId) (iss : Option BundleIn) (d a : Fin 32) (b : Src2) (s : State) : Host.Outcome State Fault Refusal :=
  .next (facetOp s k iss (.alu .ror d a b))

/-- MIN (R176). -/
def execMin (k : CoreId) (iss : Option BundleIn) (d a : Fin 32) (b : Src2) (s : State) : Host.Outcome State Fault Refusal :=
  .next (facetOp s k iss (.alu .min d a b))

/-- MAX (R176). -/
def execMax (k : CoreId) (iss : Option BundleIn) (d a : Fin 32) (b : Src2) (s : State) : Host.Outcome State Fault Refusal :=
  .next (facetOp s k iss (.alu .max d a b))

/-- MINU (R176). -/
def execMinu (k : CoreId) (iss : Option BundleIn) (d a : Fin 32) (b : Src2) (s : State) : Host.Outcome State Fault Refusal :=
  .next (facetOp s k iss (.alu .minu d a b))

/-- MAXU (R176). -/
def execMaxu (k : CoreId) (iss : Option BundleIn) (d a : Fin 32) (b : Src2) (s : State) : Host.Outcome State Fault Refusal :=
  .next (facetOp s k iss (.alu .maxu d a b))

/-- CLZ (R176). -/
def execClz (k : CoreId) (iss : Option BundleIn) (d a : Fin 32) (s : State) : Host.Outcome State Fault Refusal :=
  .next (facetOp s k iss (.alu .clz d a (.imm 0)))

/-- POPC (R176). -/
def execPopc (k : CoreId) (iss : Option BundleIn) (d a : Fin 32) (s : State) : Host.Outcome State Fault Refusal :=
  .next (facetOp s k iss (.alu .popc d a (.imm 0)))

/-- CMPEQ (R176). -/
def execCmpeq (k : CoreId) (iss : Option BundleIn) (d a : Fin 32) (b : Src2) (s : State) : Host.Outcome State Fault Refusal :=
  .next (facetOp s k iss (.alu .cmpeq d a b))

/-- CMPNE (R176). -/
def execCmpne (k : CoreId) (iss : Option BundleIn) (d a : Fin 32) (b : Src2) (s : State) : Host.Outcome State Fault Refusal :=
  .next (facetOp s k iss (.alu .cmpne d a b))

/-- CMPLT (R176). -/
def execCmplt (k : CoreId) (iss : Option BundleIn) (d a : Fin 32) (b : Src2) (s : State) : Host.Outcome State Fault Refusal :=
  .next (facetOp s k iss (.alu .cmplt d a b))

/-- CMPLTU (R176). -/
def execCmpltu (k : CoreId) (iss : Option BundleIn) (d a : Fin 32) (b : Src2) (s : State) : Host.Outcome State Fault Refusal :=
  .next (facetOp s k iss (.alu .cmpltu d a b))

/-- CMPLE (R176). -/
def execCmple (k : CoreId) (iss : Option BundleIn) (d a : Fin 32) (b : Src2) (s : State) : Host.Outcome State Fault Refusal :=
  .next (facetOp s k iss (.alu .cmple d a b))

/-- CMPLEU (R176). -/
def execCmpleu (k : CoreId) (iss : Option BundleIn) (d a : Fin 32) (b : Src2) (s : State) : Host.Outcome State Fault Refusal :=
  .next (facetOp s k iss (.alu .cmpleu d a b))

/-- LIMM (R176). -/
def execLimm (k : CoreId) (iss : Option BundleIn) (d : Fin 32) (imm : BitVec 31) (s : State) : Host.Outcome State Fault Refusal :=
  .next (facetOp s k iss (.limm d imm))

/-- LIMMH (R176). -/
def execLimmh (k : CoreId) (iss : Option BundleIn) (d : Fin 32) (imm : BitVec 31) (s : State) : Host.Outcome State Fault Refusal :=
  .next (facetOp s k iss (.limmh d imm))

/-- MUL (R176). -/
def execMul (k : CoreId) (iss : Option BundleIn) (d a b : Fin 32) (s : State) : Host.Outcome State Fault Refusal :=
  .next (facetOp s k iss (.mul .mul d a b))

/-- MULH (R176). -/
def execMulh (k : CoreId) (iss : Option BundleIn) (d a b : Fin 32) (s : State) : Host.Outcome State Fault Refusal :=
  .next (facetOp s k iss (.mul .mulh d a b))

/-- MULHU (R176). -/
def execMulhu (k : CoreId) (iss : Option BundleIn) (d a b : Fin 32) (s : State) : Host.Outcome State Fault Refusal :=
  .next (facetOp s k iss (.mul .mulhu d a b))

/-- SCALAR_CMUL (R224). -/
def execScalarCmul (k : CoreId) (iss : Option BundleIn) (d a b : Fin 32) (m : BitVec 9) (s : State) : Host.Outcome State Fault Refusal :=
  .next (facetOp s k iss (.scmul false d a b m))

/-- SCALAR_CMULC (R224). -/
def execScalarCmulc (k : CoreId) (iss : Option BundleIn) (d a b : Fin 32) (m : BitVec 9) (s : State) : Host.Outcome State Fault Refusal :=
  .next (facetOp s k iss (.scmul true d a b m))

/-- BR (R176). -/
def execBr (k : CoreId) (iss : Option BundleIn) (imm : BitVec 31) (s : State) : Host.Outcome State Fault Refusal :=
  .next (facetOp s k iss (.br imm))

/-- BRZ (R176). -/
def execBrz (k : CoreId) (iss : Option BundleIn) (a : Fin 32) (imm : BitVec 9) (s : State) : Host.Outcome State Fault Refusal :=
  .next (facetOp s k iss (.brz a imm))

/-- BRNZ (R176). -/
def execBrnz (k : CoreId) (iss : Option BundleIn) (a : Fin 32) (imm : BitVec 9) (s : State) : Host.Outcome State Fault Refusal :=
  .next (facetOp s k iss (.brnz a imm))

/-- CALL (R176). -/
def execCall (k : CoreId) (iss : Option BundleIn) (imm : BitVec 31) (s : State) : Host.Outcome State Fault Refusal :=
  .next (facetOp s k iss (.call imm))

/-- JR (R202). -/
def execJr (k : CoreId) (iss : Option BundleIn) (a : Fin 32) (s : State) : Host.Outcome State Fault Refusal :=
  .next (facetOp s k iss (.jr a))

/-- REP (R184). -/
def execRep (k : CoreId) (iss : Option BundleIn) (a : Fin 32) (flag : Bool) (len : BitVec 11) (s : State) : Host.Outcome State Fault Refusal :=
  .next (facetOp s k iss (.rep a flag len))

/-- REPI (R184). -/
def execRepi (k : CoreId) (iss : Option BundleIn) (count : BitVec 16) (flag : Bool) (len : BitVec 11) (s : State) : Host.Outcome State Fault Refusal :=
  .next (facetOp s k iss (.repi count flag len))

/-- MFC (R174). -/
def execMfc (k : CoreId) (iss : Option BundleIn) (d : Fin 32) (c : BitVec 6) (s : State) : Host.Outcome State Fault Refusal :=
  .next (facetOp s k iss (.mfc d c))

/-- MTC (R174). -/
def execMtc (k : CoreId) (iss : Option BundleIn) (c : BitVec 6) (a : Fin 32) (s : State) : Host.Outcome State Fault Refusal :=
  .next (facetOp s k iss (.mtc c a))

/-- WAITWORK (R180). -/
def execWaitwork (k : CoreId) (iss : Option BundleIn) (s : State) : Host.Outcome State Fault Refusal :=
  .next (facetOp s k iss (.waitwork))

/-- DONEWORK (R181). -/
def execDonework (k : CoreId) (iss : Option BundleIn) (a : Fin 32) (s : State) : Host.Outcome State Fault Refusal :=
  .next (facetOp s k iss (.donework a))

/-- ERET (R192). -/
def execEret (k : CoreId) (iss : Option BundleIn) (s : State) : Host.Outcome State Fault Refusal :=
  .next (facetOp s k iss (.eret))

/-- SYSC (R187). -/
def execSysc (k : CoreId) (iss : Option BundleIn) (imm : BitVec 16) (s : State) : Host.Outcome State Fault Refusal :=
  .next (facetOp s k iss (.sysc imm))

/-- LDB (R177). -/
def execLdb (k : CoreId) (iss : Option BundleIn) (d a : Fin 32) (f : AddrForm) (s : State) : Host.Outcome State Fault Refusal :=
  .next (facetOp s k iss (.load 1 true d a f))

/-- LDBU (R177). -/
def execLdbu (k : CoreId) (iss : Option BundleIn) (d a : Fin 32) (f : AddrForm) (s : State) : Host.Outcome State Fault Refusal :=
  .next (facetOp s k iss (.load 1 false d a f))

/-- LDH (R177). -/
def execLdh (k : CoreId) (iss : Option BundleIn) (d a : Fin 32) (f : AddrForm) (s : State) : Host.Outcome State Fault Refusal :=
  .next (facetOp s k iss (.load 2 true d a f))

/-- LDHU (R177). -/
def execLdhu (k : CoreId) (iss : Option BundleIn) (d a : Fin 32) (f : AddrForm) (s : State) : Host.Outcome State Fault Refusal :=
  .next (facetOp s k iss (.load 2 false d a f))

/-- LDW (R177). -/
def execLdw (k : CoreId) (iss : Option BundleIn) (d a : Fin 32) (f : AddrForm) (s : State) : Host.Outcome State Fault Refusal :=
  .next (facetOp s k iss (.load 4 true d a f))

/-- LDWU (R177). -/
def execLdwu (k : CoreId) (iss : Option BundleIn) (d a : Fin 32) (f : AddrForm) (s : State) : Host.Outcome State Fault Refusal :=
  .next (facetOp s k iss (.load 4 false d a f))

/-- LDD (R177). -/
def execLdd (k : CoreId) (iss : Option BundleIn) (d a : Fin 32) (f : AddrForm) (s : State) : Host.Outcome State Fault Refusal :=
  .next (facetOp s k iss (.load 8 false d a f))

/-- STB (R177). -/
def execStb (k : CoreId) (iss : Option BundleIn) (v a : Fin 32) (f : AddrForm) (s : State) : Host.Outcome State Fault Refusal :=
  .next (facetOp s k iss (.store 1 v a f))

/-- STH (R177). -/
def execSth (k : CoreId) (iss : Option BundleIn) (v a : Fin 32) (f : AddrForm) (s : State) : Host.Outcome State Fault Refusal :=
  .next (facetOp s k iss (.store 2 v a f))

/-- STW (R177). -/
def execStw (k : CoreId) (iss : Option BundleIn) (v a : Fin 32) (f : AddrForm) (s : State) : Host.Outcome State Fault Refusal :=
  .next (facetOp s k iss (.store 4 v a f))

/-- STD (R177). -/
def execStd (k : CoreId) (iss : Option BundleIn) (v a : Fin 32) (f : AddrForm) (s : State) : Host.Outcome State Fault Refusal :=
  .next (facetOp s k iss (.store 8 v a f))

/-- VLD (R177). -/
def execVld (k : CoreId) (iss : Option BundleIn) (d a : Fin 32) (f : AddrForm) (s : State) : Host.Outcome State Fault Refusal :=
  .next (facetOp s k iss (.vld d a f))

/-- VST (R177). -/
def execVst (k : CoreId) (iss : Option BundleIn) (v a : Fin 32) (f : AddrForm) (s : State) : Host.Outcome State Fault Refusal :=
  .next (facetOp s k iss (.vst v a f))

/-- VLD2 (R177). -/
def execVld2 (k : CoreId) (iss : Option BundleIn) (d a : Fin 32) (f : AddrForm) (e b : Fin 32) (h : AddrForm) (s : State) : Host.Outcome State Fault Refusal :=
  .next (facetOp s k iss (.vld2 d a f e b h))

/-- VLDST (R177). -/
def execVldst (k : CoreId) (iss : Option BundleIn) (d a : Fin 32) (f : AddrForm) (v b : Fin 32) (h : AddrForm) (s : State) : Host.Outcome State Fault Refusal :=
  .next (facetOp s k iss (.vldst d a f v b h))

/-- AADDW (R179). -/
def execAaddw (k : CoreId) (iss : Option BundleIn) (d a : Fin 32) (f : AddrForm) (v : Fin 32) (s : State) : Host.Outcome State Fault Refusal :=
  .next (facetOp s k iss (.atomic 4 false d a f v))

/-- AADDD (R179). -/
def execAaddd (k : CoreId) (iss : Option BundleIn) (d a : Fin 32) (f : AddrForm) (v : Fin 32) (s : State) : Host.Outcome State Fault Refusal :=
  .next (facetOp s k iss (.atomic 8 false d a f v))

/-- ASWPD (R179). -/
def execAswpd (k : CoreId) (iss : Option BundleIn) (d a : Fin 32) (f : AddrForm) (v : Fin 32) (s : State) : Host.Outcome State Fault Refusal :=
  .next (facetOp s k iss (.atomic 8 true d a f v))

/-- VLDE (R229). -/
def execVlde (k : CoreId) (iss : Option BundleIn) (v a b : Fin 32) (m : BitVec 9) (s : State) : Host.Outcome State Fault Refusal :=
  .next (facetOp s k iss (.vlde v a b m))

/-- VSTE (R229). -/
def execVste (k : CoreId) (iss : Option BundleIn) (v a b : Fin 32) (m : BitVec 9) (s : State) : Host.Outcome State Fault Refusal :=
  .next (facetOp s k iss (.vste v a b m))

/-- VLDS2 (R230). -/
def execVlds2 (k : CoreId) (iss : Option BundleIn) (v a b : Fin 32) (m : BitVec 9) (s : State) : Host.Outcome State Fault Refusal :=
  .next (facetOp s k iss (.vlds 2 v a b m))

/-- VLDS3 (R230). -/
def execVlds3 (k : CoreId) (iss : Option BundleIn) (v a b : Fin 32) (m : BitVec 9) (s : State) : Host.Outcome State Fault Refusal :=
  .next (facetOp s k iss (.vlds 3 v a b m))

/-- VLDS4 (R230). -/
def execVlds4 (k : CoreId) (iss : Option BundleIn) (v a b : Fin 32) (m : BitVec 9) (s : State) : Host.Outcome State Fault Refusal :=
  .next (facetOp s k iss (.vlds 4 v a b m))

/-- VSTS2 (R230). -/
def execVsts2 (k : CoreId) (iss : Option BundleIn) (v a b : Fin 32) (m : BitVec 9) (s : State) : Host.Outcome State Fault Refusal :=
  .next (facetOp s k iss (.vsts 2 v a b m))

/-- VSTS3 (R230). -/
def execVsts3 (k : CoreId) (iss : Option BundleIn) (v a b : Fin 32) (m : BitVec 9) (s : State) : Host.Outcome State Fault Refusal :=
  .next (facetOp s k iss (.vsts 3 v a b m))

/-- VSTS4 (R230). -/
def execVsts4 (k : CoreId) (iss : Option BundleIn) (v a b : Fin 32) (m : BitVec 9) (s : State) : Host.Outcome State Fault Refusal :=
  .next (facetOp s k iss (.vsts 4 v a b m))

/-- VGATH (R231). -/
def execVgath (k : CoreId) (iss : Option BundleIn) (v a b : Fin 32) (m : BitVec 9) (s : State) : Host.Outcome State Fault Refusal :=
  .next (facetOp s k iss (.vgath v a b m))

/-- VSCAT (R231). -/
def execVscat (k : CoreId) (iss : Option BundleIn) (v a b : Fin 32) (m : BitVec 9) (s : State) : Host.Outcome State Fault Refusal :=
  .next (facetOp s k iss (.vscat v a b m))

/-- VADD (R223). -/
def execVadd (k : CoreId) (iss : Option BundleIn) (sl : Bool) (ty : VType) (d a b : Fin 32) (m : BitVec 9) (s : State) : Host.Outcome State Fault Refusal :=
  .next (facetOp s k iss (.vec sl .vadd ty d a b m))

end Sys2Proof.Machine
end

