-- ==== Sys2Proof/Machine/RunHost.lean ====
section
/-! DEFINITION. Meanings of the rows of the host ports, the SPI port and the flash (chapter 15). -/

namespace Sys2Proof.Machine

/-- DOORBELL (R437). -/
def execDoorbell (h : HostId) (v : BitVec 32) (s : State) : Host.Outcome State Fault Refusal :=
  .next (doorbellOp s h v.toNat)

/-- PACKET_ACCEPTANCE (R447). -/
def execPacketAcceptance (s : State) : Host.Outcome State Fault Refusal := .next (packetAcceptanceOp s)

/-- REPLY_BASE_WRITE (R435). -/
def execReplyBaseWrite (h : HostId) (v : BitVec 64) (s : State) : Host.Outcome State Fault Refusal :=
  .next (replyBaseOp s h v.toNat)

/-- REPLY_SIZE_WRITE (R435). -/
def execReplySizeWrite (h : HostId) (v : BitVec 32) (s : State) : Host.Outcome State Fault Refusal :=
  .next (replySizeOp s h v.toNat)

/-- REPLY_RD_WRITE (R440). -/
def execReplyRdWrite (h : HostId) (v : BitVec 32) (s : State) : Host.Outcome State Fault Refusal :=
  .next (replyRdOp s h v.toNat)

/-- AT_LO_READ (R435). -/
def execAtLoRead (h : HostId) (s : State) : Host.Outcome State Fault Refusal := .next (atLoReadOp s h)

/-- MSIX_UNMASK (R440). -/
def execMsixUnmask (h : HostId) (v : Option (Fin 64)) (s : State) : Host.Outcome State Fault Refusal :=
  .next (msixUnmaskOp s h (v.map fun (x : Fin 64) => x.val))

/-- REGISTER_WRITE (R435). -/
def execRegisterWrite (w : RegWrite) (s : State) : Host.Outcome State Fault Refusal := .next (registerWriteOp s w)

/-- PERST (R433). -/
def execPerst (h : HostId) (s : State) : Host.Outcome State Fault Refusal := .next (portReset s h 1)

/-- FLR (R433). -/
def execFlr (h : HostId) (s : State) : Host.Outcome State Fault Refusal := .next (portReset s h 0)

/-- HOST_LINK_CHANGE (R432). -/
def execHostLinkChange (h : HostId) (up : Bool) (width rate : Byte) (s : State) : Host.Outcome State Fault Refusal :=
  .next (hostLinkOp s h up width.toNat rate.toNat)

/-- PACKET_WRITE (R467). -/
def execPacketWrite (bytes : List Byte) (s : State) : Host.Outcome State Fault Refusal := .next (packetWriteOp s bytes)

/-- STATUS_READ (R467). -/
def execStatusRead (s : State) : Host.Outcome State Fault Refusal := .next (statusReadOp s)

/-- REPLY_READ (R467). -/
def execReplyRead (n : Nat) (s : State) : Host.Outcome State Fault Refusal := .next (replyReadOp s n)

/-- FLASH_OPERATION_COMPLETE (R457). -/
def execFlashOperationComplete (differs : Bool) (s : State) : Host.Outcome State Fault Refusal :=
  .next (flashCompleteOp s differs)

end Sys2Proof.Machine
end

