-- ==== Sys2Proof/Machine/RunLanes.lean ====
section
/-! DEFINITION. Meanings of the lane rows (chapter 4). -/

namespace Sys2Proof.Machine

/-- CLOCK_RECOVERY_LOCK (R114). -/
def execClockRecoveryLock (l : LaneId) (s : State) : Host.Outcome State Fault Refusal := .next (clockRecoveryLock s l)

/-- CLOCK_RECOVERY_LOSS (R114). -/
def execClockRecoveryLoss (l : LaneId) (s : State) : Host.Outcome State Fault Refusal := .next (clockRecoveryLoss s l)

/-- CODEWORD_LOCK (R114). -/
def execCodewordLock (l : LaneId) (s : State) : Host.Outcome State Fault Refusal := .next (codewordLock s l)

/-- CODEWORD_LOCK_LOSS (R114). -/
def execCodewordLockLoss (l : LaneId) (s : State) : Host.Outcome State Fault Refusal := .next (codewordLockLoss s l)

/-- BLOCK_LOCK (R114). -/
def execBlockLock (p : PortId) (k : Fin 4) (s : State) : Host.Outcome State Fault Refusal :=
  .next (safeReplace (blockLock s p k) p k)

/-- BLOCK_LOCK_LOSS (R136). -/
def execBlockLockLoss (p : PortId) (k : Fin 4) (s : State) : Host.Outcome State Fault Refusal := .next (linkDown s p k)

/-- SER_WINDOW_END (R115). -/
def execSerWindowEnd (p : PortId) (k : Fin 4) (m : SerMeas) (s : State) : Host.Outcome State Fault Refusal :=
  .next (serWindowEnd s p k m)

/-- EQ_ENTRY_APPLIED (R113). -/
def execEqEntryApplied (l : LaneId) (s : State) : Host.Outcome State Fault Refusal := .next (eqEntryApplied s l)

/-- MAINT_TIMEOUT (R117). -/
def execMaintTimeout (p : PortId) (s : State) : Host.Outcome State Fault Refusal := .next (maintTimeout s p)

/-- EYESCAN_COMPLETE (R123). -/
def execEyescanComplete (g : Fin 16) (errors : List Nat) (s : State) : Host.Outcome State Fault Refusal :=
  .next (eyescanComplete s g errors)

/-- TREND_SCAN (R125). -/
def execTrendScan (l : LaneId) (s : State) : Host.Outcome State Fault Refusal := .next (trendScan s l)

/-- TREND_SCAN_DONE (R554). -/
def execTrendScanDone (l : LaneId) (eyes : List (Fin 3 × Fin 65 × Fin 128)) (s : State) : Host.Outcome State Fault Refusal :=
  .next (trendScanDone s l (eyes.map fun (x : Fin 3 × Fin 65 × Fin 128) => (x.1.val, x.2.1.val, x.2.2.val)))

/-- PRBS_CHECKER_LOCK (R119). -/
def execPrbsCheckerLock (l : LaneId) (s : State) : Host.Outcome State Fault Refusal := .next (prbsCheckerLock s l)

/-- LANE_GROUP_READY (R128). -/
def execLaneGroupReady (g : Fin 16) (s : State) : Host.Outcome State Fault Refusal := .next (laneGroupReady s g)

end Sys2Proof.Machine
end

