-- ==== Sys2Proof/Machine/RunMill.lean ====
section
/-! DEFINITION. Meanings of the Mill rows (chapter 9). -/

namespace Sys2Proof.Machine

/-- ENQUEUE (R268). -/
def execEnqueue (slc : SliceId) (src : Fin 1024) (bytes : List Byte) (s : State) : Host.Outcome State Fault Refusal :=
  .next (millEnqueue s slc src bytes)

/-- COUNTER_SET (R269). -/
def execCounterSet (k : Fin 65536) (count : BitVec 16) (src : Voted (Fin 1024)) (s : State) :
    Host.Outcome State Fault Refusal := .next (voted s (k / 16384) src.vote fun t => millCounterSet t k count.toNat src.about)

/-- COUNTER_DECREMENT (R269). -/
def execCounterDecrement (k : Fin 65536) (st : Fin 4) (src : Voted (Fin 4)) (s : State) :
    Host.Outcome State Fault Refusal := .next (voted s (k / 16384) src.vote fun t => decrementOp t k st src.about)

/-- FLOW_ENTRY_FETCHED (R272). -/
def execFlowEntryFetched (slc : SliceId) (flow : Voted (Fin 8388608)) (s : State) : Host.Outcome State Fault Refusal :=
  .next (voted s slc flow.vote fun t => flowFetched t slc flow.about)

/-- DISPATCH_DECISION (R276). -/
def execDispatchDecision (slc : SliceId) (v : MillVote) (e : SramErr) (s : State) : Host.Outcome State Fault Refusal :=
  .next (dispatch s slc v e)

/-- STEAL_REQUEST (R284). -/
def execStealRequest (victim : Voted SliceId) (s : State) : Host.Outcome State Fault Refusal :=
  .next (voted s victim.about victim.vote fun t => stealRequestOp t victim.about)

/-- STEAL_GRANT (R284). -/
def execStealGrant (thief : SliceId) (s : State) : Host.Outcome State Fault Refusal := .next (stealGrantOp s thief)

/-- PROMOTION (R277). -/
def execPromotion (slc : SliceId) (item : Voted Nat) (s : State) : Host.Outcome State Fault Refusal :=
  .next (voted s slc item.vote fun t => promote t slc item.about)

/-- URGENCY_ENTRY (R278). -/
def execUrgencyEntry (slc : SliceId) (item : Voted Nat) (s : State) : Host.Outcome State Fault Refusal :=
  .next (voted s slc item.vote fun t => urgent t slc item.about)

/-- LATE (R281). -/
def execLate (slc : SliceId) (item : Voted Nat) (s : State) : Host.Outcome State Fault Refusal :=
  .next (voted s slc item.vote fun t => becomeLate t slc item.about)

/-- SLOT_END (R286). -/
def execSlotEnd (c : CarrierId) (slot : Int) (s : State) : Host.Outcome State Fault Refusal := .next (slotEndOp s c slot)

/-- TIER_MESSAGE (R287). -/
def execTierMessage (slc : SliceId) (c : CarrierId) (s : State) : Host.Outcome State Fault Refusal :=
  .next (tierMessageOp s slc c)

/-- LATE_REPORT_PERIOD (R282). -/
def execLateReportPeriod (slc : SliceId) (s : State) : Host.Outcome State Fault Refusal := .next (lateReportOp s slc)

/-- MILL_CHECK (R283). -/
def execMillCheck (slc : SliceId) (s : State) : Host.Outcome State Fault Refusal := .next (millCheckRow s slc)

/-- DRAIN_TIMEOUT (R289). -/
def execDrainTimeout (k : CoreId) (s : State) : Host.Outcome State Fault Refusal := .next (drainTimeout s k)

/-- ABORT_GRACE_EXPIRY (R290). -/
def execAbortGraceExpiry (k : CoreId) (s : State) : Host.Outcome State Fault Refusal := .next (abortGraceExpiry s k)

end Sys2Proof.Machine
end

