-- ==== Sys2Proof/Machine/RunPool.lean ====
section
/-! DEFINITION. Meanings of the pool rows (chapter 17). -/

namespace Sys2Proof.Machine

/-- HEARTBEAT (R497). -/
def execHeartbeat (p : PortId) (bytes : List Byte) (s : State) : Host.Outcome State Fault Refusal :=
  .next (poolRow s p 1 bytes .clean)

/-- HEARTBEAT_SEND (R492). -/
def execHeartbeatSend (s : State) : Host.Outcome State Fault Refusal := .next (heartbeatSend s)

/-- STATE (R499). -/
def execState (p : PortId) (bytes : List Byte) (s : State) : Host.Outcome State Fault Refusal :=
  .next (poolRow s p 2 bytes .clean)

/-- STATE_SEND (R492). -/
def execStateSend (s : State) : Host.Outcome State Fault Refusal := .next (stateSend s)

/-- CLAIM (R502). -/
def execClaim (p : PortId) (bytes : List Byte) (s : State) : Host.Outcome State Fault Refusal :=
  .next (poolRow s p 3 bytes .clean)

/-- CLAIM_LOST_STANDBY (R502). -/
def execClaimLostStandby (c : CarrierId) (s : State) : Host.Outcome State Fault Refusal := .next (claimLostStandby s c)

/-- MIRROR (R504). -/
def execMirror (p : PortId) (bytes : List Byte) (d : Decode) (s : State) : Host.Outcome State Fault Refusal :=
  .next (poolRow s p 4 bytes d)

/-- MIRROR_PAGE_SEND (R504). -/
def execMirrorPageSend (c : CarrierId) (s : State) : Host.Outcome State Fault Refusal := .next (mirrorPageSend s c)

/-- MIRROR_LAG_EXCEEDED (R505). -/
def execMirrorLagExceeded (c : CarrierId) (s : State) : Host.Outcome State Fault Refusal := .next (mirrorLagExceeded s c)

/-- PREPARE (R507). -/
def execPrepare (p : PortId) (bytes : List Byte) (s : State) : Host.Outcome State Fault Refusal :=
  .next (migrateRow s p 1 bytes)

/-- READY (R507). -/
def execReady (p : PortId) (bytes : List Byte) (s : State) : Host.Outcome State Fault Refusal :=
  .next (migrateRow s p 2 bytes)

/-- GO (R507). -/
def execGo (p : PortId) (bytes : List Byte) (s : State) : Host.Outcome State Fault Refusal := .next (migrateRow s p 3 bytes)

/-- GO_ACK (R507). -/
def execGoAck (p : PortId) (bytes : List Byte) (s : State) : Host.Outcome State Fault Refusal :=
  .next (migrateRow s p 4 bytes)

/-- CANCEL (R507). -/
def execCancel (p : PortId) (bytes : List Byte) (s : State) : Host.Outcome State Fault Refusal :=
  .next (migrateRow s p 5 bytes)

/-- MIGRATE_GO_DEADLINE (R507). -/
def execMigrateGoDeadline (c : CarrierId) (s : State) : Host.Outcome State Fault Refusal := .next (migrateGoDeadline s c)

/-- MIGRATE_ACK_DEADLINE (R507). -/
def execMigrateAckDeadline (c : CarrierId) (s : State) : Host.Outcome State Fault Refusal := .next (migrateAckDeadline s c)

/-- MIGRATE_SWITCH (R507). -/
def execMigrateSwitch (c : CarrierId) (s : State) : Host.Outcome State Fault Refusal := .next (migrateSwitch s c)

/-- MIGRATE_REPLY (R507). -/
def execMigrateReply (c : CarrierId) (s : State) : Host.Outcome State Fault Refusal := .next (migrateReply s c)

/-- TAKEOVER_SWITCH (R506). -/
def execTakeoverSwitch (c : CarrierId) (s : State) : Host.Outcome State Fault Refusal := .next (takeoverSwitch s c)

/-- PEER_UNREACHABLE (R497). -/
def execPeerUnreachable (i : Fin 4) (s : State) : Host.Outcome State Fault Refusal := .next (peerUnreachable s i)

/-- TIME_OFFSET_EVALUATION (R498). -/
def execTimeOffsetEvaluation (s : State) : Host.Outcome State Fault Refusal := .next (timeOffsetEvaluation s)

/-- KEY_GRACE_EXPIRY (R494). -/
def execKeyGraceExpiry (s : State) : Host.Outcome State Fault Refusal := .next (keyGraceExpiry s)

end Sys2Proof.Machine
end

