-- ==== Sys2Proof/Machine/RunPorts.lean ====
section
/-! DEFINITION. Meanings of the port and fronthaul rows (chapters 5 and 11). -/

namespace Sys2Proof.Machine

/-- FRAME_RECEIVED (R133). -/
def execFrameReceived (p : PortId) (k : Fin 4) (phyErr : Bool) (bytes : List Byte) (s : State) : Host.Outcome State Fault Refusal :=
  .next (frameReceived s p k phyErr bytes)

/-- RX_WINDOW_CLOSE (R156). -/
def execRxWindowClose (c : CarrierId) (f j : Nat) (s : State) : Host.Outcome State Fault Refusal :=
  .next (rxWindowClose s c f j)

/-- DOORBELL_UL_RELEASE (R159). -/
def execDoorbellUlRelease (p : PortId) (c : Fin 65536) (r : Fin 64) (s : State) : Host.Outcome State Fault Refusal :=
  .next (doorbellUl s p c r)

/-- DOORBELL_DL_READY (R158). -/
def execDoorbellDlReady (p : PortId) (c : Fin 65536) (r : Fin 64) (s : State) : Host.Outcome State Fault Refusal :=
  .next (doorbellDl s p c r)

/-- DOORBELL_CPLANE_READY (R158). -/
def execDoorbellCplaneReady (p : PortId) (c : Fin 65536) (r : Fin 64) (s : State) : Host.Outcome State Fault Refusal :=
  .next (doorbellCp s p c r)

/-- DL_READY_DEADLINE (R161). -/
def execDlReadyDeadline (c : CarrierId) (f j : Nat) (s : State) : Host.Outcome State Fault Refusal :=
  .next (dlReadyDeadline s c f j)

/-- DL_TX_WINDOW_OPEN (R161). -/
def execDlTxWindowOpen (c : CarrierId) (f j : Nat) (s : State) : Host.Outcome State Fault Refusal :=
  .next (dlTxWindowOpen s c f j)

/-- DL_TX_WINDOW_CLOSE (R161). -/
def execDlTxWindowClose (c : CarrierId) (f j : Nat) (s : State) : Host.Outcome State Fault Refusal :=
  .next (dlTxWindowClose s c f j)

/-- CPLANE_READY_DEADLINE (R162). -/
def execCplaneReadyDeadline (c : CarrierId) (q : Nat) (s : State) : Host.Outcome State Fault Refusal :=
  .next (cplaneReadyDeadline s c q)

/-- CPLANE_TX_WINDOW_OPEN (R162). -/
def execCplaneTxWindowOpen (c : CarrierId) (q : Nat) (s : State) : Host.Outcome State Fault Refusal :=
  .next (cplaneTxWindowOpen s c q)

/-- FRAME_TRANSMITTED (R135). -/
def execFrameTransmitted (p : PortId) (k : Fin 4) (s : State) : Host.Outcome State Fault Refusal := .next (frameSent s p k)

/-- NOISE_WINDOW_END (R338). -/
def execNoiseWindowEnd (c : CarrierId) (w : Nat) (s : State) : Host.Outcome State Fault Refusal :=
  .next (noiseWindowEnd s c w)

/-- PRACH_OCCASION_CLOSE (R341). -/
def execPrachOccasionClose (c : CarrierId) (g : Fin 16) (q : Nat) (s : State) : Host.Outcome State Fault Refusal :=
  .next (prachOccasionClose s c g q)

/-- PRACH_START_TIMEOUT (R344). -/
def execPrachStartTimeout (p : PortId) (s : State) : Host.Outcome State Fault Refusal := .next (prachStartTimeout s p)

/-- PRACH_PROCESSING_START (R344). -/
def execPrachProcessingStart (p : PortId) (s : State) : Host.Outcome State Fault Refusal := .next (prachProcessingStart s p)

/-- PRACH_PROCESSING_END (R345). -/
def execPrachProcessingEnd (p : PortId) (s : State) : Host.Outcome State Fault Refusal := .next (prachProcessingEnd s p)

end Sys2Proof.Machine
end

