-- ==== Sys2Proof/Machine/RunPower.lean ====
section
/-! DEFINITION. Meanings of the rows of power, ageing and temperature (chapter 19). -/

namespace Sys2Proof.Machine

/-- POWER_TRANSITION_COMPLETE (R541). -/
def execPowerTransitionComplete (s : State) : Host.Outcome State Fault Refusal := .next (powerTransitionComplete s)

/-- DEMAND_IDLE_EXPIRY (R540). -/
def execDemandIdleExpiry (d : Fin 96) (s : State) : Host.Outcome State Fault Refusal := .next (demandIdleExpiry s d)

/-- DEMAND_WAKE (R540). -/
def execDemandWake (d : Fin 96) (s : State) : Host.Outcome State Fault Refusal := .next (demandWake s d)

/-- DOMAIN_POWER_UP_COMPLETE (R537). -/
def execDomainPowerUpComplete (d : Fin 96) (s : State) : Host.Outcome State Fault Refusal :=
  .next (domainPowerUpComplete s d)

/-- WAKE_N (R542). -/
def execWakeN (s : State) : Host.Outcome State Fault Refusal := .next (wakeN s)

/-- HOST_PORT_ACTIVITY_WAKE (R542). -/
def execHostPortActivityWake (h : HostId) (s : State) : Host.Outcome State Fault Refusal := .next (hostPortActivityWake s h)

/-- DROOP_DETECT (R545). -/
def execDroopDetect (t : Fin 6) (sag : Byte) (s : State) : Host.Outcome State Fault Refusal :=
  .next (droopDetect s t sag.toNat)

/-- DROOP_LEVEL_FALL (R545). -/
def execDroopLevelFall (t : Fin 6) (s : State) : Host.Outcome State Fault Refusal := .next (droopLevelFall s t)

/-- STRETCH_WINDOW_END (R546). -/
def execStretchWindowEnd (s : State) : Host.Outcome State Fault Refusal := .next (stretchWindowEnd s)

/-- AGEING_SAMPLE (R548). -/
def execAgeingSample (tiles : List TileSample) (s : State) : Host.Outcome State Fault Refusal :=
  .next (ageingSample s tiles)

/-- REPLAN_BOUNDARY (R549). -/
def execReplanBoundary (s : State) : Host.Outcome State Fault Refusal := .next (replanBoundary s)

/-- MARGIN_FLAG (R550). -/
def execMarginFlag (t : Fin 6) (cls : Fin 5) (idx : Byte) (s : State) : Host.Outcome State Fault Refusal :=
  .next (marginFlag s t cls idx.toNat)

/-- AVS_WRITE_COMPLETE (R551). -/
def execAvsWriteComplete (rail : Fin 4) (res : Fin 3) (s : State) : Host.Outcome State Fault Refusal :=
  .next (avsWriteComplete s rail res)

/-- THERM_ALERT (R603). -/
def execThermAlert (hot : Bool) (s : State) : Host.Outcome State Fault Refusal := .next (thermAlertOp s hot)

/-- THERMTRIP (R603). -/
def execThermtrip (s : State) : Host.Outcome State Fault Refusal := .next (thermtripOp s)

end Sys2Proof.Machine
end

