-- ==== Sys2Proof/Machine/RunProul.lean ====
section
/-! DEFINITION. Meanings of the rows of the TAP and Proul (chapter 21). -/

namespace Sys2Proof.Machine

/-- TAP_RESET (R576). -/
def execTapReset (s : State) : Host.Outcome State Fault Refusal := .next (tapResetOp s)

/-- EXTEST (R577). -/
def execExtest (v : Nat) (s : State) : Host.Outcome State Fault Refusal := .next (tapDrive s 0 (some v))

/-- SAMPLE_PRELOAD (R576). -/
def execSamplePreload (v : Nat) (s : State) : Host.Outcome State Fault Refusal := .next (tapLoad s 1 v)

/-- IDCODE (R576). -/
def execIdcode (s : State) : Host.Outcome State Fault Refusal := .next (tapLoad s 2 s.proul.bscan)

/-- CLAMP (R577). -/
def execClamp (s : State) : Host.Outcome State Fault Refusal := .next (tapDrive s 3 none)

/-- HIGHZ (R577). -/
def execHighz (s : State) : Host.Outcome State Fault Refusal := .next (tapDrive s 4 none)

/-- EXTEST_PULSE (R577). -/
def execExtestPulse (v : Nat) (s : State) : Host.Outcome State Fault Refusal := .next (tapDrive s 5 (some v))

/-- EXTEST_TRAIN (R577). -/
def execExtestTrain (v : Nat) (s : State) : Host.Outcome State Fault Refusal := .next (tapDrive s 6 (some v))

/-- PROUL_ACCESS (R578). -/
def execProulAccess (s : State) : Host.Outcome State Fault Refusal := .next (tapLoad s 0x20 s.proul.bscan)

/-- BYPASS (R576). -/
def execBypass (s : State) : Host.Outcome State Fault Refusal := .next (tapLoad s 0xFF s.proul.bscan)

/-- NOP (R578). -/
def execNop (s : State) : Host.Outcome State Fault Refusal := .next (proulNop s)

/-- FAB_READ (R580). -/
def execFabRead (addr : W64) (s : State) : Host.Outcome State Fault Refusal := .next (proulFab s false addr.toNat 0)

/-- FAB_WRITE (R580). -/
def execFabWrite (addr data : W64) (s : State) : Host.Outcome State Fault Refusal :=
  .next (proulFab s true addr.toNat data.toNat)

/-- DBG_READ (R581). -/
def execDbgRead (addr : W64) (s : State) : Host.Outcome State Fault Refusal := .next (proulDbgRead s addr.toNat)

/-- DBG_WRITE (R581). -/
def execDbgWrite (addr data : W64) (s : State) : Host.Outcome State Fault Refusal :=
  .next (proulDbgWrite s addr.toNat data.toNat)

/-- HALT (R584). -/
def execHalt (k : CoreId) (s : State) : Host.Outcome State Fault Refusal := .next (proulDbgWrite s (dctlAddr k) 1)

/-- RESUME (R586). -/
def execResume (k : CoreId) (s : State) : Host.Outcome State Fault Refusal := .next (proulDbgWrite s (dctlAddr k) 2)

/-- STEP (R586). -/
def execStep (k : CoreId) (s : State) : Host.Outcome State Fault Refusal := .next (proulDbgWrite s (dctlAddr k) 4)

/-- XT_STATUS_CLEAR (R581). -/
def execXtStatusClear (mask : Byte) (s : State) : Host.Outcome State Fault Refusal :=
  .next (proulDbgWrite s xtAddr mask.toNat)

/-- HALT_POINT_REACHED (R584). -/
def execHaltPointReached (k : CoreId) (s : State) : Host.Outcome State Fault Refusal := .next (haltPoint s k)

/-- CROSS_TRIGGER_REQUEST (R587). -/
def execCrossTriggerRequest (k : CoreId) (s : State) : Host.Outcome State Fault Refusal := .next (crossTrigger s k)

/-- UNLOCK_EXPIRY (R590). -/
def execUnlockExpiry (s : State) : Host.Outcome State Fault Refusal := .next (unlockExpiryOp s)

/-- CHALLENGE_EXPIRY (R591). -/
def execChallengeExpiry (s : State) : Host.Outcome State Fault Refusal := .next (challengeExpiryOp s)

end Sys2Proof.Machine
end

