-- ==== Sys2Proof/Machine/RunStart.lean ====
section
/-! DEFINITION. Meanings of the rows of start-up (chapter 20). -/

namespace Sys2Proof.Machine

/-- RST_N_ASSERT (R557). -/
def execRstNAssert (s : State) : Host.Outcome State Fault Refusal := .next (rstNAssertOp s)

/-- COLD_START (R567). -/
def execColdStart (m : StartIn) (s : State) : Host.Outcome State Fault Refusal := .next (coldStartOp s m)

/-- WRST_N (R557). -/
def execWrstN (s : State) : Host.Outcome State Fault Refusal := .next (wrstNOp s)

/-- WARM_START (R569). -/
def execWarmStart (m : StartIn) (s : State) : Host.Outcome State Fault Refusal := .next (warmStartOp s m)

/-- POWER_REMOVAL (R543). -/
def execPowerRemoval (s : State) : Host.Outcome State Fault Refusal := .next (powerRemovalOp s)

end Sys2Proof.Machine
end

