-- ==== Sys2Proof/Machine/RunTime.lean ====
section
/-! DEFINITION. Meanings of the time rows (chapters 2 and 3). -/

namespace Sys2Proof.Machine

/-- OSC_IN_LOSS (R31). -/
def execOscInLoss (s : State) : Host.Outcome State Fault Refusal := .next (oscInLoss s)

/-- ACTIVE_ROLE_EVALUATION (R36). -/
def execActiveRoleEvaluation (s : State) : Host.Outcome State Fault Refusal := .next (activeRoleEvaluationOp s)

/-- RESIDUAL_SLEW_END (R35). -/
def execResidualSlewEnd (s : State) : Host.Outcome State Fault Refusal := .next (residualSlewEnd s)

/-- RESIDUAL_THRESHOLD_CROSSING (R39). -/
def execResidualThresholdCrossing (s : State) : Host.Outcome State Fault Refusal := .next (residualCrossing s)

/-- SERVO_UPDATE (R50). -/
def execServoUpdate (d : DomId) (m : ServoMeas) (s : State) : Host.Outcome State Fault Refusal := .next (servoUpdate s d m)

/-- PTP_TIMEOUT (R46). -/
def execPtpTimeout (d : DomId) (slot : Fin 4) (s : State) : Host.Outcome State Fault Refusal := .next (ptpTimeout s d slot)

/-- CLKIN_EDGE_MISSING (R45). -/
def execClkinEdgeMissing (k : Fin 2) (s : State) : Host.Outcome State Fault Refusal := .next (clkinEdgeMissing s k)

/-- PPS_IN_EDGE (R70). -/
def execPpsInEdge (k : Fin 2) (s : State) : Host.Outcome State Fault Refusal := .next (ppsInEdge s k)

/-- PPS_SIGNAL_LOSS (R67). -/
def execPpsSignalLoss (k : Fin 2) (s : State) : Host.Outcome State Fault Refusal := .next (ppsSignalLoss s k)

/-- TOD_MESSAGE (R67). -/
def execTodMessage (k : Fin 2) (bytes : List Byte) (s : State) : Host.Outcome State Fault Refusal :=
  .next (todMessage s k bytes)

/-- ESMC_PDU (R57). -/
def execEsmcPdu (i : Fin 16) (ssm : Fin 16) (s : State) : Host.Outcome State Fault Refusal := .next (esmcPdu s i ssm)

/-- ESMC_TIMEOUT (R57). -/
def execEsmcTimeout (i : Fin 16) (s : State) : Host.Outcome State Fault Refusal := .next (esmcTimeout s i)

/-- REF_WTR_EXPIRY (R45). -/
def execRefWtrExpiry (d : DomId) (i : Fin 24) (s : State) : Host.Outcome State Fault Refusal := .next (refWtrExpiry s d i)

/-- HOLDOVER_EXPIRY (R64). -/
def execHoldoverExpiry (d : DomId) (s : State) : Host.Outcome State Fault Refusal := .next (holdoverExpiry s d)

/-- DRIFT_WINDOW_END (R58). -/
def execDriftWindowEnd (m0 m1 : List (Fin 24 × Int)) (s : State) : Host.Outcome State Fault Refusal :=
  .next (driftWindowEnd s m0 m1)

/-- PPS_OUT_EDGE (R71). -/
def execPpsOutEdge (k : Fin 4) (s : State) : Host.Outcome State Fault Refusal := .next (ppsOutEdge s k)

/-- PPS_OUT_PULSE_END (R71). -/
def execPpsOutPulseEnd (k : Fin 4) (s : State) : Host.Outcome State Fault Refusal := .next (ppsOutPulseEnd s k)

/-- TIME_BUS_PARITY_ERROR (R81). -/
def execTimeBusParityError (tile : Fin 6) (cls : Fin 5) (unit : Byte) (s : State) : Host.Outcome State Fault Refusal :=
  .next (timeBusParityError s tile cls unit)

/-- COMPARATOR_FIRE (R94). -/
def execComparatorFire (n : Fin 256) (s : State) : Host.Outcome State Fault Refusal := .next (comparatorFireOp s n)

/-- TAOUT_PULSE_END (R94). -/
def execTaoutPulseEnd (k : Fin 4) (s : State) : Host.Outcome State Fault Refusal := .next (taoutPulseEndOp s k)

/-- CLKIN_EDGES_RETURNED (R45). -/
def execClkinEdgesReturned (k : Fin 2) (s : State) : Host.Outcome State Fault Refusal := .next (clkinEdgesReturned s k)

end Sys2Proof.Machine
end

