-- ==== Sys2Proof/Machine/RunVector.lean ====
section
/-! DEFINITION. Meanings of the vector, floating-point and unit rows of a Facet core (chapters 7 and 8). -/

namespace Sys2Proof.Machine

/-- VSUB (R223). -/
def execVsub (k : CoreId) (iss : Option BundleIn) (sl : Bool) (ty : VType) (d a b : Fin 32) (m : BitVec 9) (s : State) : Host.Outcome State Fault Refusal :=
  .next (facetOp s k iss (.vec sl .vsub ty d a b m))

/-- VNEG (R223). -/
def execVneg (k : CoreId) (iss : Option BundleIn) (sl : Bool) (ty : VType) (d a b : Fin 32) (m : BitVec 9) (s : State) : Host.Outcome State Fault Refusal :=
  .next (facetOp s k iss (.vec sl .vneg ty d a b m))

/-- VABS (R223). -/
def execVabs (k : CoreId) (iss : Option BundleIn) (sl : Bool) (ty : VType) (d a b : Fin 32) (m : BitVec 9) (s : State) : Host.Outcome State Fault Refusal :=
  .next (facetOp s k iss (.vec sl .vabs ty d a b m))

/-- VMIN (R223). -/
def execVmin (k : CoreId) (iss : Option BundleIn) (sl : Bool) (ty : VType) (d a b : Fin 32) (m : BitVec 9) (s : State) : Host.Outcome State Fault Refusal :=
  .next (facetOp s k iss (.vec sl .vmin ty d a b m))

/-- VMAX (R223). -/
def execVmax (k : CoreId) (iss : Option BundleIn) (sl : Bool) (ty : VType) (d a b : Fin 32) (m : BitVec 9) (s : State) : Host.Outcome State Fault Refusal :=
  .next (facetOp s k iss (.vec sl .vmax ty d a b m))

/-- VAND (R223). -/
def execVand (k : CoreId) (iss : Option BundleIn) (sl : Bool) (ty : VType) (d a b : Fin 32) (m : BitVec 9) (s : State) : Host.Outcome State Fault Refusal :=
  .next (facetOp s k iss (.vec sl .vand ty d a b m))

/-- VOR (R223). -/
def execVor (k : CoreId) (iss : Option BundleIn) (sl : Bool) (ty : VType) (d a b : Fin 32) (m : BitVec 9) (s : State) : Host.Outcome State Fault Refusal :=
  .next (facetOp s k iss (.vec sl .vor ty d a b m))

/-- VXOR (R223). -/
def execVxor (k : CoreId) (iss : Option BundleIn) (sl : Bool) (ty : VType) (d a b : Fin 32) (m : BitVec 9) (s : State) : Host.Outcome State Fault Refusal :=
  .next (facetOp s k iss (.vec sl .vxor ty d a b m))

/-- VANDN (R223). -/
def execVandn (k : CoreId) (iss : Option BundleIn) (sl : Bool) (ty : VType) (d a b : Fin 32) (m : BitVec 9) (s : State) : Host.Outcome State Fault Refusal :=
  .next (facetOp s k iss (.vec sl .vandn ty d a b m))

/-- VSHL (R223). -/
def execVshl (k : CoreId) (iss : Option BundleIn) (sl : Bool) (ty : VType) (d a b : Fin 32) (m : BitVec 9) (s : State) : Host.Outcome State Fault Refusal :=
  .next (facetOp s k iss (.vec sl .vshl ty d a b m))

/-- VSHR (R223). -/
def execVshr (k : CoreId) (iss : Option BundleIn) (sl : Bool) (ty : VType) (d a b : Fin 32) (m : BitVec 9) (s : State) : Host.Outcome State Fault Refusal :=
  .next (facetOp s k iss (.vec sl .vshr ty d a b m))

/-- VSHRU (R223). -/
def execVshru (k : CoreId) (iss : Option BundleIn) (sl : Bool) (ty : VType) (d a b : Fin 32) (m : BitVec 9) (s : State) : Host.Outcome State Fault Refusal :=
  .next (facetOp s k iss (.vec sl .vshru ty d a b m))

/-- VCONJ (R223). -/
def execVconj (k : CoreId) (iss : Option BundleIn) (sl : Bool) (ty : VType) (d a b : Fin 32) (m : BitVec 9) (s : State) : Host.Outcome State Fault Refusal :=
  .next (facetOp s k iss (.vec sl .vconj ty d a b m))

/-- VCMULJ (R223). -/
def execVcmulj (k : CoreId) (iss : Option BundleIn) (sl : Bool) (ty : VType) (d a b : Fin 32) (m : BitVec 9) (s : State) : Host.Outcome State Fault Refusal :=
  .next (facetOp s k iss (.vec sl .vcmulj ty d a b m))

/-- VMULQ (R223). -/
def execVmulq (k : CoreId) (iss : Option BundleIn) (sl : Bool) (ty : VType) (d a b : Fin 32) (m : BitVec 9) (s : State) : Host.Outcome State Fault Refusal :=
  .next (facetOp s k iss (.vec sl .vmulq ty d a b m))

/-- VCMULQ (R224). -/
def execVcmulq (k : CoreId) (iss : Option BundleIn) (sl : Bool) (d a b : Fin 32) (m : BitVec 9) (s : State) : Host.Outcome State Fault Refusal :=
  .next (facetOp s k iss (.vec sl .vcmulq .ci16 d a b m))

/-- VCMULQC (R224). -/
def execVcmulqc (k : CoreId) (iss : Option BundleIn) (sl : Bool) (d a b : Fin 32) (m : BitVec 9) (s : State) : Host.Outcome State Fault Refusal :=
  .next (facetOp s k iss (.vec sl .vcmulqc .ci16 d a b m))

/-- CMUL (R205). -/
def execCmul (k : CoreId) (iss : Option BundleIn) (sl : Bool) (d a b : Fin 32) (m : BitVec 9) (s : State) : Host.Outcome State Fault Refusal :=
  .next (facetOp s k iss (.vec sl .cmul .ci16 d a b m))

/-- CMULC (R205). -/
def execCmulc (k : CoreId) (iss : Option BundleIn) (sl : Bool) (d a b : Fin 32) (m : BitVec 9) (s : State) : Host.Outcome State Fault Refusal :=
  .next (facetOp s k iss (.vec sl .cmulc .ci16 d a b m))

/-- CMAC (R205). -/
def execCmac (k : CoreId) (iss : Option BundleIn) (sl : Bool) (d a b : Fin 32) (m : BitVec 9) (s : State) : Host.Outcome State Fault Refusal :=
  .next (facetOp s k iss (.vec sl .cmac .ci16 d a b m))

/-- CMACC (R205). -/
def execCmacc (k : CoreId) (iss : Option BundleIn) (sl : Bool) (d a b : Fin 32) (m : BitVec 9) (s : State) : Host.Outcome State Fault Refusal :=
  .next (facetOp s k iss (.vec sl .cmacc .ci16 d a b m))

/-- CMACS (R205). -/
def execCmacs (k : CoreId) (iss : Option BundleIn) (sl : Bool) (d a b : Fin 32) (m : BitVec 9) (s : State) : Host.Outcome State Fault Refusal :=
  .next (facetOp s k iss (.vec sl .cmacs .ci16 d a b m))

/-- CMACSC (R205). -/
def execCmacsc (k : CoreId) (iss : Option BundleIn) (sl : Bool) (d a b : Fin 32) (m : BitVec 9) (s : State) : Host.Outcome State Fault Refusal :=
  .next (facetOp s k iss (.vec sl .cmacsc .ci16 d a b m))

/-- VNARROW (R223). -/
def execVnarrow (k : CoreId) (iss : Option BundleIn) (sl : Bool) (d a b : Fin 32) (m : BitVec 9) (s : State) : Host.Outcome State Fault Refusal :=
  .next (facetOp s k iss (.vec sl .vnarrow .i32 d a b m))

/-- VCNARROW (R223). -/
def execVcnarrow (k : CoreId) (iss : Option BundleIn) (sl : Bool) (d a b : Fin 32) (m : BitVec 9) (s : State) : Host.Outcome State Fault Refusal :=
  .next (facetOp s k iss (.vec sl .vcnarrow .ci32 d a b m))

/-- VCWIDEN (R223). -/
def execVcwiden (k : CoreId) (iss : Option BundleIn) (sl : Bool) (d a b : Fin 32) (m : BitVec 9) (s : State) : Host.Outcome State Fault Refusal :=
  .next (facetOp s k iss (.vec sl .vcwiden .ci16 d a b m))

/-- VCRSUM (R223). -/
def execVcrsum (k : CoreId) (iss : Option BundleIn) (sl : Bool) (d a b : Fin 32) (m : BitVec 9) (s : State) : Host.Outcome State Fault Refusal :=
  .next (facetOp s k iss (.vec sl .vcrsum .ci32 d a b m))

/-- VCMPEQ (R223). -/
def execVcmpeq (k : CoreId) (iss : Option BundleIn) (sl : Bool) (ty : VType) (d a b : Fin 32) (m : BitVec 9) (s : State) : Host.Outcome State Fault Refusal :=
  .next (facetOp s k iss (.vec sl .vcmpeq ty d a b m))

/-- VCMPLT (R223). -/
def execVcmplt (k : CoreId) (iss : Option BundleIn) (sl : Bool) (ty : VType) (d a b : Fin 32) (m : BitVec 9) (s : State) : Host.Outcome State Fault Refusal :=
  .next (facetOp s k iss (.vec sl .vcmplt ty d a b m))

/-- VCMPLE (R223). -/
def execVcmple (k : CoreId) (iss : Option BundleIn) (sl : Bool) (ty : VType) (d a b : Fin 32) (m : BitVec 9) (s : State) : Host.Outcome State Fault Refusal :=
  .next (facetOp s k iss (.vec sl .vcmple ty d a b m))

/-- VSEL (R223). -/
def execVsel (k : CoreId) (iss : Option BundleIn) (sl : Bool) (ty : VType) (d a b : Fin 32) (m : BitVec 9) (s : State) : Host.Outcome State Fault Refusal :=
  .next (facetOp s k iss (.vec sl .vsel ty d a b m))

/-- VSPLAT (R223). -/
def execVsplat (k : CoreId) (iss : Option BundleIn) (sl : Bool) (ty : VType) (d a b : Fin 32) (m : BitVec 9) (s : State) : Host.Outcome State Fault Refusal :=
  .next (facetOp s k iss (.vec sl .vsplat ty d a b m))

/-- VSLIDE (R223). -/
def execVslide (k : CoreId) (iss : Option BundleIn) (sl : Bool) (ty : VType) (d a b : Fin 32) (n : Fin 64) (m : BitVec 9) (s : State) : Host.Outcome State Fault Refusal :=
  .next (facetOp s k iss (.vec sl (.vslide n) ty d a b m))

/-- SETVL (R212). -/
def execSetvl (k : CoreId) (iss : Option BundleIn) (sl : Bool) (ty : VType) (d a : Fin 32) (m : BitVec 9) (s : State) : Host.Outcome State Fault Refusal :=
  .next (facetOp s k iss (.vec sl .setvl ty d a 0 m))

/-- MLEN (R223). -/
def execMlen (k : CoreId) (iss : Option BundleIn) (sl : Bool) (d a b : Fin 32) (m : BitVec 9) (s : State) : Host.Outcome State Fault Refusal :=
  .next (facetOp s k iss (.vec sl .mlen .i8 d a b m))

/-- MAND (R223). -/
def execMand (k : CoreId) (iss : Option BundleIn) (sl : Bool) (d a b : Fin 32) (m : BitVec 9) (s : State) : Host.Outcome State Fault Refusal :=
  .next (facetOp s k iss (.vec sl .mand .i8 d a b m))

/-- MOR (R223). -/
def execMor (k : CoreId) (iss : Option BundleIn) (sl : Bool) (d a b : Fin 32) (m : BitVec 9) (s : State) : Host.Outcome State Fault Refusal :=
  .next (facetOp s k iss (.vec sl .mor .i8 d a b m))

/-- MXOR (R223). -/
def execMxor (k : CoreId) (iss : Option BundleIn) (sl : Bool) (d a b : Fin 32) (m : BitVec 9) (s : State) : Host.Outcome State Fault Refusal :=
  .next (facetOp s k iss (.vec sl .mxor .i8 d a b m))

/-- MANDN (R223). -/
def execMandn (k : CoreId) (iss : Option BundleIn) (sl : Bool) (d a b : Fin 32) (m : BitVec 9) (s : State) : Host.Outcome State Fault Refusal :=
  .next (facetOp s k iss (.vec sl .mandn .i8 d a b m))

/-- MNOT (R223). -/
def execMnot (k : CoreId) (iss : Option BundleIn) (sl : Bool) (d a b : Fin 32) (m : BitVec 9) (s : State) : Host.Outcome State Fault Refusal :=
  .next (facetOp s k iss (.vec sl .mnot .i8 d a b m))

/-- MSEL (R223). -/
def execMsel (k : CoreId) (iss : Option BundleIn) (sl : Bool) (d a b : Fin 32) (m : BitVec 9) (s : State) : Host.Outcome State Fault Refusal :=
  .next (facetOp s k iss (.vec sl .msel .i8 d a b m))

/-- MPOPC (R223). -/
def execMpopc (k : CoreId) (iss : Option BundleIn) (sl : Bool) (d a b : Fin 32) (m : BitVec 9) (s : State) : Host.Outcome State Fault Refusal :=
  .next (facetOp s k iss (.vec sl .mpopc .i8 d a b m))

/-- VFADD (R226). -/
def execVfadd (k : CoreId) (iss : Option BundleIn) (sl : Bool) (ty : VType) (d a b : Fin 32) (m : BitVec 9) (s : State) : Host.Outcome State Fault Refusal :=
  .next (facetOp s k iss (.vec sl .vfadd ty d a b m))

/-- VFSUB (R226). -/
def execVfsub (k : CoreId) (iss : Option BundleIn) (sl : Bool) (ty : VType) (d a b : Fin 32) (m : BitVec 9) (s : State) : Host.Outcome State Fault Refusal :=
  .next (facetOp s k iss (.vec sl .vfsub ty d a b m))

/-- VFMUL (R226). -/
def execVfmul (k : CoreId) (iss : Option BundleIn) (sl : Bool) (ty : VType) (d a b : Fin 32) (m : BitVec 9) (s : State) : Host.Outcome State Fault Refusal :=
  .next (facetOp s k iss (.vec sl .vfmul ty d a b m))

/-- VFMIN (R226). -/
def execVfmin (k : CoreId) (iss : Option BundleIn) (sl : Bool) (ty : VType) (d a b : Fin 32) (m : BitVec 9) (s : State) : Host.Outcome State Fault Refusal :=
  .next (facetOp s k iss (.vec sl .vfmin ty d a b m))

/-- VFMAX (R226). -/
def execVfmax (k : CoreId) (iss : Option BundleIn) (sl : Bool) (ty : VType) (d a b : Fin 32) (m : BitVec 9) (s : State) : Host.Outcome State Fault Refusal :=
  .next (facetOp s k iss (.vec sl .vfmax ty d a b m))

/-- VFMA (R226). -/
def execVfma (k : CoreId) (iss : Option BundleIn) (sl : Bool) (ty : VType) (d a b : Fin 32) (m : BitVec 9) (s : State) : Host.Outcome State Fault Refusal :=
  .next (facetOp s k iss (.vec sl .vfma ty d a b m))

/-- VFCVT (R226). -/
def execVfcvt (k : CoreId) (iss : Option BundleIn) (sl : Bool) (src dst : VType) (d a : Fin 32) (m : BitVec 9) (s : State) : Host.Outcome State Fault Refusal :=
  .next (facetOp s k iss (.vec sl (.vfcvt dst) src d a 0 m))

/-- FADD (R227). -/
def execFadd (k : CoreId) (iss : Option BundleIn) (sl : Bool) (d a b : Fin 32) (m : BitVec 9) (s : State) : Host.Outcome State Fault Refusal :=
  .next (facetOp s k iss (.fsc sl .fadd d a b m))

/-- FSUB (R227). -/
def execFsub (k : CoreId) (iss : Option BundleIn) (sl : Bool) (d a b : Fin 32) (m : BitVec 9) (s : State) : Host.Outcome State Fault Refusal :=
  .next (facetOp s k iss (.fsc sl .fsub d a b m))

/-- FMUL (R227). -/
def execFmul (k : CoreId) (iss : Option BundleIn) (sl : Bool) (d a b : Fin 32) (m : BitVec 9) (s : State) : Host.Outcome State Fault Refusal :=
  .next (facetOp s k iss (.fsc sl .fmul d a b m))

/-- FMA (R227). -/
def execFma (k : CoreId) (iss : Option BundleIn) (sl : Bool) (d a b : Fin 32) (m : BitVec 9) (s : State) : Host.Outcome State Fault Refusal :=
  .next (facetOp s k iss (.fsc sl .fma d a b m))

/-- FCMPLT (R227). -/
def execFcmplt (k : CoreId) (iss : Option BundleIn) (sl : Bool) (d a b : Fin 32) (m : BitVec 9) (s : State) : Host.Outcome State Fault Refusal :=
  .next (facetOp s k iss (.fsc sl .fcmplt d a b m))

/-- FCMPLE (R227). -/
def execFcmple (k : CoreId) (iss : Option BundleIn) (sl : Bool) (d a b : Fin 32) (m : BitVec 9) (s : State) : Host.Outcome State Fault Refusal :=
  .next (facetOp s k iss (.fsc sl .fcmple d a b m))

/-- FCMPEQ (R227). -/
def execFcmpeq (k : CoreId) (iss : Option BundleIn) (sl : Bool) (d a b : Fin 32) (m : BitVec 9) (s : State) : Host.Outcome State Fault Refusal :=
  .next (facetOp s k iss (.fsc sl .fcmpeq d a b m))

/-- FMVGF (R227). -/
def execFmvgf (k : CoreId) (iss : Option BundleIn) (sl : Bool) (d a b : Fin 32) (m : BitVec 9) (s : State) : Host.Outcome State Fault Refusal :=
  .next (facetOp s k iss (.fsc sl .fmvgf d a b m))

/-- FMVFG (R227). -/
def execFmvfg (k : CoreId) (iss : Option BundleIn) (sl : Bool) (d a b : Fin 32) (m : BitVec 9) (s : State) : Host.Outcome State Fault Refusal :=
  .next (facetOp s k iss (.fsc sl .fmvfg d a b m))

/-- DMAP (R246). -/
def execDmap (k : CoreId) (iss : Option BundleIn) (sl : Bool) (d a b : Fin 32) (m : BitVec 9) (s : State) : Host.Outcome State Fault Refusal :=
  .next (facetOp s k iss (.unit sl .dmap d a b m))

/-- SCHOL (R251). -/
def execSchol (k : CoreId) (iss : Option BundleIn) (sl : Bool) (d a b : Fin 32) (m : BitVec 9) (s : State) : Host.Outcome State Fault Refusal :=
  .next (facetOp s k iss (.unit sl .schol d a b m))

/-- STRSL (R251). -/
def execStrsl (k : CoreId) (iss : Option BundleIn) (sl : Bool) (d a b : Fin 32) (m : BitVec 9) (s : State) : Host.Outcome State Fault Refusal :=
  .next (facetOp s k iss (.unit sl .strsl d a b m))

/-- STRSU (R251). -/
def execStrsu (k : CoreId) (iss : Option BundleIn) (sl : Bool) (d a b : Fin 32) (m : BitVec 9) (s : State) : Host.Outcome State Fault Refusal :=
  .next (facetOp s k iss (.unit sl .strsu d a b m))

/-- SINVH (R251). -/
def execSinvh (k : CoreId) (iss : Option BundleIn) (sl : Bool) (d a b : Fin 32) (m : BitVec 9) (s : State) : Host.Outcome State Fault Refusal :=
  .next (facetOp s k iss (.unit sl .sinvh d a b m))

/-- UERRD (R258). -/
def execUerrd (k : CoreId) (iss : Option BundleIn) (sl : Bool) (d : Fin 32) (s : State) : Host.Outcome State Fault Refusal :=
  .next (facetOp s k iss (.unit sl .uerrd d 0 0 0))

/-- UERRS (R258). -/
def execUerrs (k : CoreId) (iss : Option BundleIn) (sl : Bool) (d : Fin 32) (s : State) : Host.Outcome State Fault Refusal :=
  .next (facetOp s k iss (.unit sl .uerrs d 0 0 0))

/-- UNIT_RESULT_WRITE (R244). -/
def execUnitResultWrite (k : CoreId) (solve : Bool) (s : State) : Host.Outcome State Fault Refusal :=
  .next (unitResultWrite s k solve)

end Sys2Proof.Machine
end

