-- ==== Sys2Proof/Machine/Dispatch.lean ====
section
/-! DEFINITION. One arm for each command. -/

namespace Sys2Proof.Machine

def exec (i : Instr) (s : State) : Host.Outcome State Fault Refusal :=
  match i with
  | .oscInLoss => Sys2Proof.Machine.execOscInLoss s
  | .activeRoleEvaluation => Sys2Proof.Machine.execActiveRoleEvaluation s
  | .residualSlewEnd => Sys2Proof.Machine.execResidualSlewEnd s
  | .residualThresholdCrossing => Sys2Proof.Machine.execResidualThresholdCrossing s
  | .servoUpdate d m => Sys2Proof.Machine.execServoUpdate d m s
  | .ptpTimeout d slot => Sys2Proof.Machine.execPtpTimeout d slot s
  | .clkinEdgeMissing k => Sys2Proof.Machine.execClkinEdgeMissing k s
  | .ppsInEdge k => Sys2Proof.Machine.execPpsInEdge k s
  | .ppsSignalLoss k => Sys2Proof.Machine.execPpsSignalLoss k s
  | .todMessage k bytes => Sys2Proof.Machine.execTodMessage k bytes s
  | .esmcPdu n ssm => Sys2Proof.Machine.execEsmcPdu n ssm s
  | .esmcTimeout n => Sys2Proof.Machine.execEsmcTimeout n s
  | .refWtrExpiry d n => Sys2Proof.Machine.execRefWtrExpiry d n s
  | .holdoverExpiry d => Sys2Proof.Machine.execHoldoverExpiry d s
  | .driftWindowEnd m0 m1 => Sys2Proof.Machine.execDriftWindowEnd m0 m1 s
  | .ppsOutEdge k => Sys2Proof.Machine.execPpsOutEdge k s
  | .ppsOutPulseEnd k => Sys2Proof.Machine.execPpsOutPulseEnd k s
  | .timeBusParityError tile cls unit => Sys2Proof.Machine.execTimeBusParityError tile cls unit s
  | .comparatorFire n => Sys2Proof.Machine.execComparatorFire n s
  | .taoutPulseEnd k => Sys2Proof.Machine.execTaoutPulseEnd k s
  | .clockRecoveryLock l => Sys2Proof.Machine.execClockRecoveryLock l s
  | .clockRecoveryLoss l => Sys2Proof.Machine.execClockRecoveryLoss l s
  | .codewordLock l => Sys2Proof.Machine.execCodewordLock l s
  | .codewordLockLoss l => Sys2Proof.Machine.execCodewordLockLoss l s
  | .blockLock p k => Sys2Proof.Machine.execBlockLock p k s
  | .blockLockLoss p k => Sys2Proof.Machine.execBlockLockLoss p k s
  | .serWindowEnd p k m => Sys2Proof.Machine.execSerWindowEnd p k m s
  | .eqEntryApplied l => Sys2Proof.Machine.execEqEntryApplied l s
  | .maintTimeout p => Sys2Proof.Machine.execMaintTimeout p s
  | .eyescanComplete g errors => Sys2Proof.Machine.execEyescanComplete g errors s
  | .trendScan l => Sys2Proof.Machine.execTrendScan l s
  | .trendScanDone l eyes => Sys2Proof.Machine.execTrendScanDone l eyes s
  | .prbsCheckerLock l => Sys2Proof.Machine.execPrbsCheckerLock l s
  | .laneGroupReady g => Sys2Proof.Machine.execLaneGroupReady g s
  | .frameReceived p k phyErr bytes => Sys2Proof.Machine.execFrameReceived p k phyErr bytes s
  | .rxWindowClose c f j => Sys2Proof.Machine.execRxWindowClose c f j s
  | .doorbellUlRelease p c r => Sys2Proof.Machine.execDoorbellUlRelease p c r s
  | .doorbellDlReady p c r => Sys2Proof.Machine.execDoorbellDlReady p c r s
  | .doorbellCplaneReady p c r => Sys2Proof.Machine.execDoorbellCplaneReady p c r s
  | .dlReadyDeadline c f j => Sys2Proof.Machine.execDlReadyDeadline c f j s
  | .dlTxWindowOpen c f j => Sys2Proof.Machine.execDlTxWindowOpen c f j s
  | .dlTxWindowClose c f j => Sys2Proof.Machine.execDlTxWindowClose c f j s
  | .cplaneReadyDeadline c q => Sys2Proof.Machine.execCplaneReadyDeadline c q s
  | .cplaneTxWindowOpen c q => Sys2Proof.Machine.execCplaneTxWindowOpen c q s
  | .frameTransmitted p k => Sys2Proof.Machine.execFrameTransmitted p k s
  | .noiseWindowEnd c w => Sys2Proof.Machine.execNoiseWindowEnd c w s
  | .prachOccasionClose c g q => Sys2Proof.Machine.execPrachOccasionClose c g q s
  | .prachStartTimeout p => Sys2Proof.Machine.execPrachStartTimeout p s
  | .prachProcessingStart p => Sys2Proof.Machine.execPrachProcessingStart p s
  | .prachProcessingEnd p => Sys2Proof.Machine.execPrachProcessingEnd p s
  | .interruptEntry k => Sys2Proof.Machine.execInterruptEntry k s
  | .ctimerMatch k => Sys2Proof.Machine.execCtimerMatch k s
  | .holdLimit k => Sys2Proof.Machine.execHoldLimit k s
  | .coreRestore k => Sys2Proof.Machine.execCoreRestore k s
  | .memModeChange c => Sys2Proof.Machine.execMemModeChange c s
  | .descriptorArrival k cycles => Sys2Proof.Machine.execDescriptorArrival k cycles s
  | .add k iss d a b => Sys2Proof.Machine.execAdd k iss d a b s
  | .sub k iss d a b => Sys2Proof.Machine.execSub k iss d a b s
  | .and k iss d a b => Sys2Proof.Machine.execAnd k iss d a b s
  | .or k iss d a b => Sys2Proof.Machine.execOr k iss d a b s
  | .xor k iss d a b => Sys2Proof.Machine.execXor k iss d a b s
  | .andn k iss d a b => Sys2Proof.Machine.execAndn k iss d a b s
  | .shl k iss d a b => Sys2Proof.Machine.execShl k iss d a b s
  | .shr k iss d a b => Sys2Proof.Machine.execShr k iss d a b s
  | .sar k iss d a b => Sys2Proof.Machine.execSar k iss d a b s
  | .ror k iss d a b => Sys2Proof.Machine.execRor k iss d a b s
  | .min k iss d a b => Sys2Proof.Machine.execMin k iss d a b s
  | .max k iss d a b => Sys2Proof.Machine.execMax k iss d a b s
  | .minu k iss d a b => Sys2Proof.Machine.execMinu k iss d a b s
  | .maxu k iss d a b => Sys2Proof.Machine.execMaxu k iss d a b s
  | .clz k iss d a => Sys2Proof.Machine.execClz k iss d a s
  | .popc k iss d a => Sys2Proof.Machine.execPopc k iss d a s
  | .cmpeq k iss d a b => Sys2Proof.Machine.execCmpeq k iss d a b s
  | .cmpne k iss d a b => Sys2Proof.Machine.execCmpne k iss d a b s
  | .cmplt k iss d a b => Sys2Proof.Machine.execCmplt k iss d a b s
  | .cmpltu k iss d a b => Sys2Proof.Machine.execCmpltu k iss d a b s
  | .cmple k iss d a b => Sys2Proof.Machine.execCmple k iss d a b s
  | .cmpleu k iss d a b => Sys2Proof.Machine.execCmpleu k iss d a b s
  | .limm k iss d imm => Sys2Proof.Machine.execLimm k iss d imm s
  | .limmh k iss d imm => Sys2Proof.Machine.execLimmh k iss d imm s
  | .mul k iss d a b => Sys2Proof.Machine.execMul k iss d a b s
  | .mulh k iss d a b => Sys2Proof.Machine.execMulh k iss d a b s
  | .mulhu k iss d a b => Sys2Proof.Machine.execMulhu k iss d a b s
  | .scalarCmul k iss d a b m => Sys2Proof.Machine.execScalarCmul k iss d a b m s
  | .scalarCmulc k iss d a b m => Sys2Proof.Machine.execScalarCmulc k iss d a b m s
  | .br k iss imm => Sys2Proof.Machine.execBr k iss imm s
  | .brz k iss a imm => Sys2Proof.Machine.execBrz k iss a imm s
  | .brnz k iss a imm => Sys2Proof.Machine.execBrnz k iss a imm s
  | .call k iss imm => Sys2Proof.Machine.execCall k iss imm s
  | .jr k iss a => Sys2Proof.Machine.execJr k iss a s
  | .rep k iss a flag len => Sys2Proof.Machine.execRep k iss a flag len s
  | .repi k iss count flag len => Sys2Proof.Machine.execRepi k iss count flag len s
  | .mfc k iss d c => Sys2Proof.Machine.execMfc k iss d c s
  | .mtc k iss c a => Sys2Proof.Machine.execMtc k iss c a s
  | .waitwork k iss => Sys2Proof.Machine.execWaitwork k iss s
  | .donework k iss a => Sys2Proof.Machine.execDonework k iss a s
  | .eret k iss => Sys2Proof.Machine.execEret k iss s
  | .sysc k iss imm => Sys2Proof.Machine.execSysc k iss imm s
  | .ldb k iss d a f => Sys2Proof.Machine.execLdb k iss d a f s
  | .ldbu k iss d a f => Sys2Proof.Machine.execLdbu k iss d a f s
  | .ldh k iss d a f => Sys2Proof.Machine.execLdh k iss d a f s
  | .ldhu k iss d a f => Sys2Proof.Machine.execLdhu k iss d a f s
  | .ldw k iss d a f => Sys2Proof.Machine.execLdw k iss d a f s
  | .ldwu k iss d a f => Sys2Proof.Machine.execLdwu k iss d a f s
  | .ldd k iss d a f => Sys2Proof.Machine.execLdd k iss d a f s
  | .stb k iss v a f => Sys2Proof.Machine.execStb k iss v a f s
  | .sth k iss v a f => Sys2Proof.Machine.execSth k iss v a f s
  | .stw k iss v a f => Sys2Proof.Machine.execStw k iss v a f s
  | .std k iss v a f => Sys2Proof.Machine.execStd k iss v a f s
  | .vld k iss d a f => Sys2Proof.Machine.execVld k iss d a f s
  | .vst k iss v a f => Sys2Proof.Machine.execVst k iss v a f s
  | .vld2 k iss d a f e b h => Sys2Proof.Machine.execVld2 k iss d a f e b h s
  | .vldst k iss d a f v b h => Sys2Proof.Machine.execVldst k iss d a f v b h s
  | .aaddw k iss d a f v => Sys2Proof.Machine.execAaddw k iss d a f v s
  | .aaddd k iss d a f v => Sys2Proof.Machine.execAaddd k iss d a f v s
  | .aswpd k iss d a f v => Sys2Proof.Machine.execAswpd k iss d a f v s
  | .vlde k iss v a b m => Sys2Proof.Machine.execVlde k iss v a b m s
  | .vste k iss v a b m => Sys2Proof.Machine.execVste k iss v a b m s
  | .vlds2 k iss v a b m => Sys2Proof.Machine.execVlds2 k iss v a b m s
  | .vlds3 k iss v a b m => Sys2Proof.Machine.execVlds3 k iss v a b m s
  | .vlds4 k iss v a b m => Sys2Proof.Machine.execVlds4 k iss v a b m s
  | .vsts2 k iss v a b m => Sys2Proof.Machine.execVsts2 k iss v a b m s
  | .vsts3 k iss v a b m => Sys2Proof.Machine.execVsts3 k iss v a b m s
  | .vsts4 k iss v a b m => Sys2Proof.Machine.execVsts4 k iss v a b m s
  | .vgath k iss v a b m => Sys2Proof.Machine.execVgath k iss v a b m s
  | .vscat k iss v a b m => Sys2Proof.Machine.execVscat k iss v a b m s
  | .vadd k iss sl ty d a b m => Sys2Proof.Machine.execVadd k iss sl ty d a b m s
  | .vsub k iss sl ty d a b m => Sys2Proof.Machine.execVsub k iss sl ty d a b m s
  | .vneg k iss sl ty d a b m => Sys2Proof.Machine.execVneg k iss sl ty d a b m s
  | .vabs k iss sl ty d a b m => Sys2Proof.Machine.execVabs k iss sl ty d a b m s
  | .vmin k iss sl ty d a b m => Sys2Proof.Machine.execVmin k iss sl ty d a b m s
  | .vmax k iss sl ty d a b m => Sys2Proof.Machine.execVmax k iss sl ty d a b m s
  | .vand k iss sl ty d a b m => Sys2Proof.Machine.execVand k iss sl ty d a b m s
  | .vor k iss sl ty d a b m => Sys2Proof.Machine.execVor k iss sl ty d a b m s
  | .vxor k iss sl ty d a b m => Sys2Proof.Machine.execVxor k iss sl ty d a b m s
  | .vandn k iss sl ty d a b m => Sys2Proof.Machine.execVandn k iss sl ty d a b m s
  | .vshl k iss sl ty d a b m => Sys2Proof.Machine.execVshl k iss sl ty d a b m s
  | .vshr k iss sl ty d a b m => Sys2Proof.Machine.execVshr k iss sl ty d a b m s
  | .vshru k iss sl ty d a b m => Sys2Proof.Machine.execVshru k iss sl ty d a b m s
  | .vconj k iss sl ty d a b m => Sys2Proof.Machine.execVconj k iss sl ty d a b m s
  | .vcmulj k iss sl ty d a b m => Sys2Proof.Machine.execVcmulj k iss sl ty d a b m s
  | .vmulq k iss sl ty d a b m => Sys2Proof.Machine.execVmulq k iss sl ty d a b m s
  | .vcmulq k iss sl d a b m => Sys2Proof.Machine.execVcmulq k iss sl d a b m s
  | .vcmulqc k iss sl d a b m => Sys2Proof.Machine.execVcmulqc k iss sl d a b m s
  | .cmul k iss sl d a b m => Sys2Proof.Machine.execCmul k iss sl d a b m s
  | .cmulc k iss sl d a b m => Sys2Proof.Machine.execCmulc k iss sl d a b m s
  | .cmac k iss sl d a b m => Sys2Proof.Machine.execCmac k iss sl d a b m s
  | .cmacc k iss sl d a b m => Sys2Proof.Machine.execCmacc k iss sl d a b m s
  | .cmacs k iss sl d a b m => Sys2Proof.Machine.execCmacs k iss sl d a b m s
  | .cmacsc k iss sl d a b m => Sys2Proof.Machine.execCmacsc k iss sl d a b m s
  | .vnarrow k iss sl d a b m => Sys2Proof.Machine.execVnarrow k iss sl d a b m s
  | .vcnarrow k iss sl d a b m => Sys2Proof.Machine.execVcnarrow k iss sl d a b m s
  | .vcwiden k iss sl d a b m => Sys2Proof.Machine.execVcwiden k iss sl d a b m s
  | .vcrsum k iss sl d a b m => Sys2Proof.Machine.execVcrsum k iss sl d a b m s
  | .vcmpeq k iss sl ty d a b m => Sys2Proof.Machine.execVcmpeq k iss sl ty d a b m s
  | .vcmplt k iss sl ty d a b m => Sys2Proof.Machine.execVcmplt k iss sl ty d a b m s
  | .vcmple k iss sl ty d a b m => Sys2Proof.Machine.execVcmple k iss sl ty d a b m s
  | .vsel k iss sl ty d a b m => Sys2Proof.Machine.execVsel k iss sl ty d a b m s
  | .vsplat k iss sl ty d a b m => Sys2Proof.Machine.execVsplat k iss sl ty d a b m s
  | .vslide k iss sl ty d a b n m => Sys2Proof.Machine.execVslide k iss sl ty d a b n m s
  | .setvl k iss sl ty d a m => Sys2Proof.Machine.execSetvl k iss sl ty d a m s
  | .mlen k iss sl d a b m => Sys2Proof.Machine.execMlen k iss sl d a b m s
  | .mand k iss sl d a b m => Sys2Proof.Machine.execMand k iss sl d a b m s
  | .mor k iss sl d a b m => Sys2Proof.Machine.execMor k iss sl d a b m s
  | .mxor k iss sl d a b m => Sys2Proof.Machine.execMxor k iss sl d a b m s
  | .mandn k iss sl d a b m => Sys2Proof.Machine.execMandn k iss sl d a b m s
  | .mnot k iss sl d a b m => Sys2Proof.Machine.execMnot k iss sl d a b m s
  | .msel k iss sl d a b m => Sys2Proof.Machine.execMsel k iss sl d a b m s
  | .mpopc k iss sl d a b m => Sys2Proof.Machine.execMpopc k iss sl d a b m s
  | .vfadd k iss sl ty d a b m => Sys2Proof.Machine.execVfadd k iss sl ty d a b m s
  | .vfsub k iss sl ty d a b m => Sys2Proof.Machine.execVfsub k iss sl ty d a b m s
  | .vfmul k iss sl ty d a b m => Sys2Proof.Machine.execVfmul k iss sl ty d a b m s
  | .vfmin k iss sl ty d a b m => Sys2Proof.Machine.execVfmin k iss sl ty d a b m s
  | .vfmax k iss sl ty d a b m => Sys2Proof.Machine.execVfmax k iss sl ty d a b m s
  | .vfma k iss sl ty d a b m => Sys2Proof.Machine.execVfma k iss sl ty d a b m s
  | .vfcvt k iss sl src dst d a m => Sys2Proof.Machine.execVfcvt k iss sl src dst d a m s
  | .fadd k iss sl d a b m => Sys2Proof.Machine.execFadd k iss sl d a b m s
  | .fsub k iss sl d a b m => Sys2Proof.Machine.execFsub k iss sl d a b m s
  | .fmul k iss sl d a b m => Sys2Proof.Machine.execFmul k iss sl d a b m s
  | .fma k iss sl d a b m => Sys2Proof.Machine.execFma k iss sl d a b m s
  | .fcmplt k iss sl d a b m => Sys2Proof.Machine.execFcmplt k iss sl d a b m s
  | .fcmple k iss sl d a b m => Sys2Proof.Machine.execFcmple k iss sl d a b m s
  | .fcmpeq k iss sl d a b m => Sys2Proof.Machine.execFcmpeq k iss sl d a b m s
  | .fmvgf k iss sl d a b m => Sys2Proof.Machine.execFmvgf k iss sl d a b m s
  | .fmvfg k iss sl d a b m => Sys2Proof.Machine.execFmvfg k iss sl d a b m s
  | .dmap k iss sl d a b m => Sys2Proof.Machine.execDmap k iss sl d a b m s
  | .schol k iss sl d a b m => Sys2Proof.Machine.execSchol k iss sl d a b m s
  | .strsl k iss sl d a b m => Sys2Proof.Machine.execStrsl k iss sl d a b m s
  | .strsu k iss sl d a b m => Sys2Proof.Machine.execStrsu k iss sl d a b m s
  | .sinvh k iss sl d a b m => Sys2Proof.Machine.execSinvh k iss sl d a b m s
  | .uerrd k iss sl d => Sys2Proof.Machine.execUerrd k iss sl d s
  | .uerrs k iss sl d => Sys2Proof.Machine.execUerrs k iss sl d s
  | .unitResultWrite k solve => Sys2Proof.Machine.execUnitResultWrite k solve s
  | .enqueue slc src bytes => Sys2Proof.Machine.execEnqueue slc src bytes s
  | .counterSet k count src => Sys2Proof.Machine.execCounterSet k count src s
  | .counterDecrement k st src => Sys2Proof.Machine.execCounterDecrement k st src s
  | .flowEntryFetched slc flow => Sys2Proof.Machine.execFlowEntryFetched slc flow s
  | .dispatchDecision slc v e => Sys2Proof.Machine.execDispatchDecision slc v e s
  | .stealRequest victim => Sys2Proof.Machine.execStealRequest victim s
  | .stealGrant thief => Sys2Proof.Machine.execStealGrant thief s
  | .promotion slc item => Sys2Proof.Machine.execPromotion slc item s
  | .urgencyEntry slc item => Sys2Proof.Machine.execUrgencyEntry slc item s
  | .late slc item => Sys2Proof.Machine.execLate slc item s
  | .slotEnd c slot => Sys2Proof.Machine.execSlotEnd c slot s
  | .tierMessage slc c => Sys2Proof.Machine.execTierMessage slc c s
  | .lateReportPeriod slc => Sys2Proof.Machine.execLateReportPeriod slc s
  | .millCheck slc => Sys2Proof.Machine.execMillCheck slc s
  | .drainTimeout k => Sys2Proof.Machine.execDrainTimeout k s
  | .abortGraceExpiry k => Sys2Proof.Machine.execAbortGraceExpiry k s
  | .ldpcDecode u e => Sys2Proof.Machine.execLdpcDecode u e s
  | .ldpcEncode u e => Sys2Proof.Machine.execLdpcEncode u e s
  | .tbAssemble u e => Sys2Proof.Machine.execTbAssemble u e s
  | .polarDecode u e => Sys2Proof.Machine.execPolarDecode u e s
  | .polarEncode u e => Sys2Proof.Machine.execPolarEncode u e s
  | .turboDecode u e => Sys2Proof.Machine.execTurboDecode u e s
  | .turboEncode u e => Sys2Proof.Machine.execTurboEncode u e s
  | .turboDatapathFree u enc e => Sys2Proof.Machine.execTurboDatapathFree u enc e s
  | .cloveJobCompletion u enc bankBad writeBad => Sys2Proof.Machine.execCloveJobCompletion u enc bankBad writeBad s
  | .read m e => Sys2Proof.Machine.execRead m e s
  | .write m e => Sys2Proof.Machine.execWrite m e s
  | .atomicAdd m e => Sys2Proof.Machine.execAtomicAdd m e s
  | .swap m e => Sys2Proof.Machine.execSwap m e s
  | .readResp m => Sys2Proof.Machine.execReadResp m s
  | .writeResp m => Sys2Proof.Machine.execWriteResp m s
  | .fenceReq node => Sys2Proof.Machine.execFenceReq node s
  | .fenceAck node => Sys2Proof.Machine.execFenceAck node s
  | .wake domain => Sys2Proof.Machine.execWake domain s
  | .event cls inst code sev detail => Sys2Proof.Machine.execEvent cls inst code sev detail s
  | .flitCrcError boundary link => Sys2Proof.Machine.execFlitCrcError boundary link s
  | .linkStuck boundary link => Sys2Proof.Machine.execLinkStuck boundary link s
  | .requestTimeout node tag => Sys2Proof.Machine.execRequestTimeout node tag s
  | .fenceTimeout domain => Sys2Proof.Machine.execFenceTimeout domain s
  | .dramReadComplete src tag r => Sys2Proof.Machine.execDramReadComplete src tag r s
  | .regionInitComplete g => Sys2Proof.Machine.execRegionInitComplete g s
  | .scrubPage d => Sys2Proof.Machine.execScrubPage d s
  | .rekeySweepPage g d failed => Sys2Proof.Machine.execRekeySweepPage g d failed s
  | .temperaturePoll ch hot => Sys2Proof.Machine.execTemperaturePoll ch hot s
  | .chanCmdStart c => Sys2Proof.Machine.execChanCmdStart c s
  | .chanCmdStop c => Sys2Proof.Machine.execChanCmdStop c s
  | .chanCmdReset c => Sys2Proof.Machine.execChanCmdReset c s
  | .flagSet e f => Sys2Proof.Machine.execFlagSet e f s
  | .flagClear e f => Sys2Proof.Machine.execFlagClear e f s
  | .move c bytes => Sys2Proof.Machine.execMove c bytes s
  | .loop c bytes => Sys2Proof.Machine.execLoop c bytes s
  | .waitAirtime c bytes => Sys2Proof.Machine.execWaitAirtime c bytes s
  | .waitCounter c bytes => Sys2Proof.Machine.execWaitCounter c bytes s
  | .waitFlag c bytes => Sys2Proof.Machine.execWaitFlag c bytes s
  | .signalCounter c bytes => Sys2Proof.Machine.execSignalCounter c bytes s
  | .signalFlag c bytes => Sys2Proof.Machine.execSignalFlag c bytes s
  | .signalEvent c bytes => Sys2Proof.Machine.execSignalEvent c bytes s
  | .dmaEnd c bytes => Sys2Proof.Machine.execDmaEnd c bytes s
  | .waitAirtimeReached c => Sys2Proof.Machine.execWaitAirtimeReached c s
  | .counterPoll c => Sys2Proof.Machine.execCounterPoll c s
  | .doorbell h v => Sys2Proof.Machine.execDoorbell h v s
  | .packetAcceptance => Sys2Proof.Machine.execPacketAcceptance s
  | .replyBaseWrite h v => Sys2Proof.Machine.execReplyBaseWrite h v s
  | .replySizeWrite h v => Sys2Proof.Machine.execReplySizeWrite h v s
  | .replyRdWrite h v => Sys2Proof.Machine.execReplyRdWrite h v s
  | .atLoRead h => Sys2Proof.Machine.execAtLoRead h s
  | .msixUnmask h v => Sys2Proof.Machine.execMsixUnmask h v s
  | .registerWrite w => Sys2Proof.Machine.execRegisterWrite w s
  | .perst h => Sys2Proof.Machine.execPerst h s
  | .flr h => Sys2Proof.Machine.execFlr h s
  | .hostLinkChange h up width rate => Sys2Proof.Machine.execHostLinkChange h up width rate s
  | .packetWrite bytes => Sys2Proof.Machine.execPacketWrite bytes s
  | .statusRead => Sys2Proof.Machine.execStatusRead s
  | .replyRead n => Sys2Proof.Machine.execReplyRead n s
  | .devInfo rq p => Sys2Proof.Machine.execDevInfo rq p s
  | .devStatus rq p => Sys2Proof.Machine.execDevStatus rq p s
  | .resetWarm rq p => Sys2Proof.Machine.execResetWarm rq p s
  | .flashRead rq p => Sys2Proof.Machine.execFlashRead rq p s
  | .flashErase rq p => Sys2Proof.Machine.execFlashErase rq p s
  | .flashWrite rq p => Sys2Proof.Machine.execFlashWrite rq p s
  | .flashOperationComplete differs => Sys2Proof.Machine.execFlashOperationComplete differs s
  | .paramGet rq p => Sys2Proof.Machine.execParamGet rq p s
  | .paramSet rq p => Sys2Proof.Machine.execParamSet rq p s
  | .cfgStage rq p => Sys2Proof.Machine.execCfgStage rq p s
  | .cfgArm rq p => Sys2Proof.Machine.execCfgArm rq p s
  | .cfgDigest rq p => Sys2Proof.Machine.execCfgDigest rq p s
  | .carrierStatus rq p => Sys2Proof.Machine.execCarrierStatus rq p s
  | .radioNoiseRead rq p => Sys2Proof.Machine.execRadioNoiseRead rq p s
  | .radioStatus rq p => Sys2Proof.Machine.execRadioStatus rq p s
  | .kernelWrite rq p => Sys2Proof.Machine.execKernelWrite rq p s
  | .kernelCommit rq p => Sys2Proof.Machine.execKernelCommit rq p s
  | .kernelPlace rq p => Sys2Proof.Machine.execKernelPlace rq p s
  | .kernelStatus rq p => Sys2Proof.Machine.execKernelStatus rq p s
  | .millEnqueue rq p => Sys2Proof.Machine.execMillEnqueue rq p s
  | .millCounterSet rq p => Sys2Proof.Machine.execMillCounterSet rq p s
  | .millCounterRead rq p => Sys2Proof.Machine.execMillCounterRead rq p s
  | .traceRead rq p => Sys2Proof.Machine.execTraceRead rq p s
  | .timeStatus rq p => Sys2Proof.Machine.execTimeStatus rq p s
  | .timeRead rq p => Sys2Proof.Machine.execTimeRead rq p s
  | .airtimeRead rq p => Sys2Proof.Machine.execAirtimeRead rq p s
  | .timeSwitch rq p => Sys2Proof.Machine.execTimeSwitch rq p s
  | .timeRealign rq p => Sys2Proof.Machine.execTimeRealign rq p s
  | .timePtpFeed rq p => Sys2Proof.Machine.execTimePtpFeed rq p s
  | .ptpRecv rq p => Sys2Proof.Machine.execPtpRecv rq p s
  | .ptpSend rq p => Sys2Proof.Machine.execPtpSend rq p s
  | .timedArm rq p => Sys2Proof.Machine.execTimedArm rq p s
  | .timedCancel rq p => Sys2Proof.Machine.execTimedCancel rq p s
  | .timedStatus rq p => Sys2Proof.Machine.execTimedStatus rq p s
  | .memRegionCreate rq p => Sys2Proof.Machine.execMemRegionCreate rq p s
  | .memRegionDelete rq p => Sys2Proof.Machine.execMemRegionDelete rq p s
  | .memStatus rq p => Sys2Proof.Machine.execMemStatus rq p s
  | .protRekey rq p => Sys2Proof.Machine.execProtRekey rq p s
  | .dmaChanStart rq p => Sys2Proof.Machine.execDmaChanStart rq p s
  | .dmaChanStop rq p => Sys2Proof.Machine.execDmaChanStop rq p s
  | .dmaChanReset rq p => Sys2Proof.Machine.execDmaChanReset rq p s
  | .dmaChanStatus rq p => Sys2Proof.Machine.execDmaChanStatus rq p s
  | .powerStatus rq p => Sys2Proof.Machine.execPowerStatus rq p s
  | .powerStateSet rq p => Sys2Proof.Machine.execPowerStateSet rq p s
  | .powerTransitionComplete => Sys2Proof.Machine.execPowerTransitionComplete s
  | .poolStatus rq p => Sys2Proof.Machine.execPoolStatus rq p s
  | .takeover rq p => Sys2Proof.Machine.execTakeover rq p s
  | .migrate rq p => Sys2Proof.Machine.execMigrate rq p s
  | .laneStatus rq p => Sys2Proof.Machine.execLaneStatus rq p s
  | .laneMaintOpen rq p => Sys2Proof.Machine.execLaneMaintOpen rq p s
  | .laneMaintClose rq p => Sys2Proof.Machine.execLaneMaintClose rq p s
  | .laneEyescanStart rq p => Sys2Proof.Machine.execLaneEyescanStart rq p s
  | .laneEyescanAbort rq p => Sys2Proof.Machine.execLaneEyescanAbort rq p s
  | .laneEyescanRead rq p => Sys2Proof.Machine.execLaneEyescanRead rq p s
  | .fhCounters rq p => Sys2Proof.Machine.execFhCounters rq p s
  | .fhExcRead rq p => Sys2Proof.Machine.execFhExcRead rq p s
  | .fabricCounters rq p => Sys2Proof.Machine.execFabricCounters rq p s
  | .selftestRun rq p => Sys2Proof.Machine.execSelftestRun rq p s
  | .selftestAbort rq p => Sys2Proof.Machine.execSelftestAbort rq p s
  | .selftestStatus rq p => Sys2Proof.Machine.execSelftestStatus rq p s
  | .evtSubscribe rq p => Sys2Proof.Machine.execEvtSubscribe rq p s
  | .evtRead rq p => Sys2Proof.Machine.execEvtRead rq p s
  | .evtUnsubscribe rq p => Sys2Proof.Machine.execEvtUnsubscribe rq p s
  | .dbgChallenge rq p => Sys2Proof.Machine.execDbgChallenge rq p s
  | .dbgUnlock rq p => Sys2Proof.Machine.execDbgUnlock rq p s
  | .dbgLock rq p => Sys2Proof.Machine.execDbgLock rq p s
  | .dbgStatus rq p => Sys2Proof.Machine.execDbgStatus rq p s
  | .ageingReport rq p => Sys2Proof.Machine.execAgeingReport rq p s
  | .ageingHistory rq p => Sys2Proof.Machine.execAgeingHistory rq p s
  | .unitReady u => Sys2Proof.Machine.execUnitReady u s
  | .commitReadinessCheck bad => Sys2Proof.Machine.execCommitReadinessCheck bad s
  | .shadowSwap bad reset => Sys2Proof.Machine.execShadowSwap bad reset s
  | .unitApplied u => Sys2Proof.Machine.execUnitApplied u s
  | .commitOutcome => Sys2Proof.Machine.execCommitOutcome s
  | .commitRollback => Sys2Proof.Machine.execCommitRollback s
  | .heartbeat p bytes => Sys2Proof.Machine.execHeartbeat p bytes s
  | .heartbeatSend => Sys2Proof.Machine.execHeartbeatSend s
  | .state p bytes => Sys2Proof.Machine.execState p bytes s
  | .stateSend => Sys2Proof.Machine.execStateSend s
  | .claim p bytes => Sys2Proof.Machine.execClaim p bytes s
  | .claimLostStandby c => Sys2Proof.Machine.execClaimLostStandby c s
  | .mirror p bytes d => Sys2Proof.Machine.execMirror p bytes d s
  | .mirrorPageSend c => Sys2Proof.Machine.execMirrorPageSend c s
  | .mirrorLagExceeded c => Sys2Proof.Machine.execMirrorLagExceeded c s
  | .prepare p bytes => Sys2Proof.Machine.execPrepare p bytes s
  | .ready p bytes => Sys2Proof.Machine.execReady p bytes s
  | .go p bytes => Sys2Proof.Machine.execGo p bytes s
  | .goAck p bytes => Sys2Proof.Machine.execGoAck p bytes s
  | .cancel p bytes => Sys2Proof.Machine.execCancel p bytes s
  | .migrateGoDeadline c => Sys2Proof.Machine.execMigrateGoDeadline c s
  | .migrateAckDeadline c => Sys2Proof.Machine.execMigrateAckDeadline c s
  | .migrateSwitch c => Sys2Proof.Machine.execMigrateSwitch c s
  | .migrateReply c => Sys2Proof.Machine.execMigrateReply c s
  | .takeoverSwitch c => Sys2Proof.Machine.execTakeoverSwitch c s
  | .peerUnreachable n => Sys2Proof.Machine.execPeerUnreachable n s
  | .timeOffsetEvaluation => Sys2Proof.Machine.execTimeOffsetEvaluation s
  | .keyGraceExpiry => Sys2Proof.Machine.execKeyGraceExpiry s
  | .eventAcceptance => Sys2Proof.Machine.execEventAcceptance s
  | .hostLaggedTimeout h => Sys2Proof.Machine.execHostLaggedTimeout h s
  | .selftestDue u => Sys2Proof.Machine.execSelftestDue u s
  | .selftestStart u => Sys2Proof.Machine.execSelftestStart u s
  | .selftestTestComplete u fail => Sys2Proof.Machine.execSelftestTestComplete u fail s
  | .demandIdleExpiry d => Sys2Proof.Machine.execDemandIdleExpiry d s
  | .demandWake d => Sys2Proof.Machine.execDemandWake d s
  | .domainPowerUpComplete d => Sys2Proof.Machine.execDomainPowerUpComplete d s
  | .wakeN => Sys2Proof.Machine.execWakeN s
  | .hostPortActivityWake h => Sys2Proof.Machine.execHostPortActivityWake h s
  | .droopDetect t sag => Sys2Proof.Machine.execDroopDetect t sag s
  | .droopLevelFall t => Sys2Proof.Machine.execDroopLevelFall t s
  | .stretchWindowEnd => Sys2Proof.Machine.execStretchWindowEnd s
  | .ageingSample tiles => Sys2Proof.Machine.execAgeingSample tiles s
  | .replanBoundary => Sys2Proof.Machine.execReplanBoundary s
  | .marginFlag t cls idx => Sys2Proof.Machine.execMarginFlag t cls idx s
  | .avsWriteComplete rail res => Sys2Proof.Machine.execAvsWriteComplete rail res s
  | .thermAlert hot => Sys2Proof.Machine.execThermAlert hot s
  | .thermtrip => Sys2Proof.Machine.execThermtrip s
  | .rstNAssert => Sys2Proof.Machine.execRstNAssert s
  | .coldStart m => Sys2Proof.Machine.execColdStart m s
  | .wrstN => Sys2Proof.Machine.execWrstN s
  | .warmStart m => Sys2Proof.Machine.execWarmStart m s
  | .tapReset => Sys2Proof.Machine.execTapReset s
  | .extest v => Sys2Proof.Machine.execExtest v s
  | .samplePreload v => Sys2Proof.Machine.execSamplePreload v s
  | .idcode => Sys2Proof.Machine.execIdcode s
  | .clamp => Sys2Proof.Machine.execClamp s
  | .highz => Sys2Proof.Machine.execHighz s
  | .extestPulse v => Sys2Proof.Machine.execExtestPulse v s
  | .extestTrain v => Sys2Proof.Machine.execExtestTrain v s
  | .proulAccess => Sys2Proof.Machine.execProulAccess s
  | .bypass => Sys2Proof.Machine.execBypass s
  | .nop => Sys2Proof.Machine.execNop s
  | .fabRead addr => Sys2Proof.Machine.execFabRead addr s
  | .fabWrite addr data => Sys2Proof.Machine.execFabWrite addr data s
  | .dbgRead addr => Sys2Proof.Machine.execDbgRead addr s
  | .dbgWrite addr data => Sys2Proof.Machine.execDbgWrite addr data s
  | .halt k => Sys2Proof.Machine.execHalt k s
  | .resume k => Sys2Proof.Machine.execResume k s
  | .step k => Sys2Proof.Machine.execStep k s
  | .xtStatusClear mask => Sys2Proof.Machine.execXtStatusClear mask s
  | .haltPointReached k => Sys2Proof.Machine.execHaltPointReached k s
  | .crossTriggerRequest k => Sys2Proof.Machine.execCrossTriggerRequest k s
  | .unlockExpiry => Sys2Proof.Machine.execUnlockExpiry s
  | .challengeExpiry => Sys2Proof.Machine.execChallengeExpiry s
  | .clkinEdgesReturned k => Sys2Proof.Machine.execClkinEdgesReturned k s
  | .powerRemoval => Sys2Proof.Machine.execPowerRemoval s

end Sys2Proof.Machine
end

