-- ==== Sys2Proof/Machine/Step.lean ====
section
/-! DEFINITION. One step: the command at the front of the queue, or one cycle of the time clock. -/

namespace Sys2Proof.Machine

/-- The state with a command in front of its queue. -/
def State.withFront (s : State) (i : Instr) : State := { s with pending := i :: s.pending }

/-- One step.  The command that waits longest is executed with the rest of the queue.  On an empty queue one cycle of the
time clock passes (DESIGN CHOICE, `notes/assumptions/20.md`). -/
def step (s : State) : Host.Outcome State Fault Refusal :=
  match s.pending with
  | i :: rest => exec i { s with pending := rest }
  | [] => .next (idleCycle s)

/-- The state in which the command that a word spells stands in front of the queue; unchanged where it spells none. -/
def State.withFetchWord (s : State) (nbits w : Nat) : State :=
  match decodeTableWord nbits w with
  | some i => s.withFront i
  | none => s

end Sys2Proof.Machine
end

