-- ==== Sys2Proof/Safety.lean ====
section
/-! DEFINITION. What a legal state is, in the terms the statements use. -/

namespace Sys2Proof.Machine

/-- A legal state: every waiting command is well formed; DEVSTATE is one of the six values of R435; the active domain is 0 or
1 (R36); a time domain is in one of the five states of R40; the arbiter's input queue holds at most 256 events (R513); and the
flash, a byte memory whose unlisted bytes read 0xFF, is in its canonical form. -/
def State.Inv (s : State) : Prop :=
  (∀ i ∈ s.pending, Instr.wf i = true) ∧ s.boot.devState ≤ 5 ∧ s.time.active ≤ 1 ∧
  (s.time.dom0.st ≤ 4 ∧ s.time.dom1.st ≤ 4) ∧ s.ev.queue.length ≤ 256 ∧ memWf 0xFF s.host.flash = true

/-- Core `k` issues the next bundle undisturbed: it is in service and not halted, no debug request, breakpoint or watchpoint
stands (R583 to R586), interrupts are disabled (R186), no branch, repeat block, long operation, result or unit command is
under way, its slots are free (R217), its next bundle lies in instruction memory (R198), and its data memory holds no word
that cannot be corrected (R204). -/
def QuietCore (s : State) (k : Nat) : Prop :=
  ((s.core k).restoring = false ∧ (s.core k).waiting = false ∧ s.domainOn (k / 16) = true) ∧
  ((s.core k).dbg.halted = false ∧ (s.core k).dbg.requested = false ∧ (s.core k).dbg.stepping = false ∧
    (s.core k).dbg.skipBp = false ∧ (s.core k).dbg.bp = [0, 0, 0, 0] ∧ (s.core k).dbg.wp = [0, 0]) ∧
  ((s.core k).regs.pc < 0x8000 ∧ (s.core k).regs.pc % 16 = 0 ∧ (s.core k).regs.delay = none ∧
    (s.core k).regs.iterEnd = false ∧ (s.core k).regs.getC 0x15 = 0 ∧ (s.core k).regs.getC 0x08 % 2 = 0 ∧
    (s.core k).regs.getC 0x16 = 0) ∧
  ((s.core k).longs = [] ∧ (s.core k).snaps = [] ∧ (s.core k).kept = [] ∧ (s.core k).open_ = [] ∧
    (s.core k).regs.inflight = [] ∧ (s.core k).regs.cmds = [] ∧ (s.core k).regs.macA = none ∧ (s.core k).regs.macB = none) ∧
  ((s.core k).regs.busy.length = 3 ∧ ∀ b ∈ (s.core k).regs.busy, b ≤ (s.core k).regs.bseq) ∧
  (s.bank (bankKey 0 k)).bad = []

/-- What the memories show when nothing is wrong: no error, and no request of the fabric. -/
def quietIssue : BundleIn := { imem := 0, dmemCorr := [], dmemBad := [], fabWait := false }

end Sys2Proof.Machine
end

