-- ==== Sys2Proof/Certificates/Slice0/Obligations.lean ====
section
/-! DEFINITION. The statements about the model, family by family.  Each says in Lean what a rule of the manual says. -/

/-! ## Words the statements share -/

namespace Sys2Proof.Claims

open Sys2Proof.Machine

/-- The parts of the state that a frame speaks of: one for each block of the device, and the model's own counter. -/
inductive Part where
  | time | host | cfg | ev | test | lanes | ports | facet | mill | clove | fab | mem | dma | pool | power | boot | proul | free
  deriving DecidableEq, Repr

/-- Every part but those listed, and the queue, is as before. -/
abbrev SameExcept (l : List Part) (s t : State) : Prop :=
  (.time ∈ l ∨ t.time = s.time) ∧ (.host ∈ l ∨ t.host = s.host) ∧ (.cfg ∈ l ∨ t.cfg = s.cfg) ∧ (.ev ∈ l ∨ t.ev = s.ev) ∧
  (.test ∈ l ∨ t.test = s.test) ∧ (.lanes ∈ l ∨ t.lanes = s.lanes) ∧ (.ports ∈ l ∨ t.ports = s.ports) ∧
  (.facet ∈ l ∨ t.facet = s.facet) ∧ (.mill ∈ l ∨ t.mill = s.mill) ∧ (.clove ∈ l ∨ t.clove = s.clove) ∧
  (.fab ∈ l ∨ t.fab = s.fab) ∧ (.mem ∈ l ∨ t.mem = s.mem) ∧ (.dma ∈ l ∨ t.dma = s.dma) ∧ (.pool ∈ l ∨ t.pool = s.pool) ∧
  (.power ∈ l ∨ t.power = s.power) ∧ (.boot ∈ l ∨ t.boot = s.boot) ∧ (.proul ∈ l ∨ t.proul = s.proul) ∧
  (.free ∈ l ∨ t.freeCount = s.freeCount) ∧ t.pending = s.pending

/-- The command answers a next state, and that state is as described. -/
abbrev Does (i : Instr) (s : State) (P : State → Prop) : Prop := ∃ t, exec i s = .next t ∧ P t

/-- The command answers the state unchanged. -/
abbrev Idle (i : Instr) (s : State) : Prop := exec i s = .next s

/-- The arbiter's input queue has room for `n` more events (R513). -/
abbrev Room (n : Nat) (s : State) : Prop := s.ev.queue.length + n ≤ 256

/-- Exactly this event was offered and has joined the input queue (R513); nothing else of the arbiter changed. -/
abbrev Raised (s t : State) (cls inst code sev : Nat) (detail : List Byte) : Prop :=
  t.ev = { s.ev with queue := s.ev.queue ++ [{ cls := cls, inst := inst, code := code, sev := sev, detail := detail }] }

/-- An event of this class, instance and code stands in the input queue. -/
abbrev Queued (t : State) (cls inst code : Nat) : Prop := ∃ e ∈ t.ev.queue, e.cls = cls ∧ e.inst = inst ∧ e.code = code

end Sys2Proof.Claims

open Sys2Proof Sys2Proof.Machine Sys2Proof.Claims

/-! ## The machine as a whole -/

/-- A step at a state with a command in front of its queue is that command on the state with the queue's rest. -/
def Obligations.StepRunsFrontCommand : Prop :=
  (∀ (c : Instr) (s : State), step (s.withFront c) = exec c s) ∧
  ∀ (c : Instr) (rest : List Instr) (s : State), s.pending = c :: rest → step s = exec c { s with pending := rest }

/-- No command touches the queue: it belongs to the step. -/
def Obligations.CommandsLeaveTheQueue : Prop :=
  ∀ (c : Instr) (s : State), ∃ t, exec c s = .next t ∧ t.pending = s.pending

/-- What reset leaves, as the rules give it: DEVSTATE is BOOTING (R435), both domains stand in FREERUN at correction 0 (R40)
at the GPS epoch (R558, R82), Air Time is 0 and r is 0 (R82), the primary domain is active (R36), the event log is empty and
the next sequence is 1 (R513), the SPI port counts as accepted last (R447), only the always-on domain is on (R557), and the
TAP selects IDCODE (R576). -/
def Obligations.ResetLeaves : Prop :=
  State.reset.boot.devState = 0 ∧ State.reset.boot.step = 0 ∧ State.reset.time.dom0.st = 0 ∧ State.reset.time.dom1.st = 0 ∧
  State.reset.time.dom0.y = 0 ∧ State.reset.time.dom1.y = 0 ∧ State.reset.time.dom0.seconds = 315964819 ∧
  State.reset.now = 0 ∧ State.reset.time.r = 0 ∧ State.reset.time.active = 0 ∧ State.reset.ev.log = [] ∧
  State.reset.ev.nextSeq = 1 ∧ State.reset.host.lastPort = 4 ∧ State.reset.power.on = [95] ∧ State.reset.proul.ir = 2 ∧
  State.reset.pending = []

/-- The invariant of `Safety.lean` holds right after reset. -/
def Obligations.ResetSatisfiesInvariant : Prop := State.reset.Inv

/-- Every step, a command or a cycle of the time clock, keeps the invariant of `Safety.lean`: waiting commands stay well
formed, DEVSTATE and the domain states stay legal (R435, R40), the active domain stays 0 or 1 (R36), the arbiter's input queue
never exceeds 256 events (R513), and the flash keeps its canonical form. -/
def Obligations.InvariantKeptByEveryStep : Prop :=
  ∀ s t : State, s.Inv → step s = .next t → t.Inv

/-! ## Time domains, references and Air Time (R30 to R103) -/

/-- The loss of OSC_IN (R31), the end of holdover (R64), and the residual r (R35, R39).  A loss puts both domains into FREERUN
and reports TIME_OSC_LOSS; Air Time keeps its value.  When the holdover period is over the domain enters FREERUN with y = 0
and its counter does not move.  The slew ends with r exactly zero; |r| crossing the alarm value is reported once in either
direction, and no event is raised while it equals that value.  A copy fault (R81) is reported, and the local copy of the unit
named keeps, for the bad cycle, the value it had; every other copy and everything else stays. -/
def Obligations.OscillatorHoldoverAndResidual : Prop :=
  (∀ s : State, s.time.oscLost = false → Room 3 s →
    Does .oscInLoss s fun t => t.time.oscLost = true ∧ t.time.dom0.st = 0 ∧ t.time.dom1.st = 0 ∧ t.time.air = s.time.air ∧
      t.time.dom0.count = s.time.dom0.count ∧ t.time.dom1.count = s.time.dom1.count ∧ Queued t 1 0 0x0201 ∧
      SameExcept [.time, .ev] s t) ∧
  (∀ s : State, s.time.oscLost = true → Idle .oscInLoss s) ∧
  (∀ (d : DomId) (s : State) (t0 : Nat), (s.dom d).st = 4 → (s.dom d).holdFrom = some t0 →
    t0 + s.param 0x0209 d * 1000000000 ≤ (s.dom d).ns → Room 1 s →
    Does (.holdoverExpiry d) s fun t => (t.dom d).st = 0 ∧ (t.dom d).y = 0 ∧ (t.dom d).count = (s.dom d).count ∧
      t.time.air = s.time.air ∧ Queued t 1 0 0x0202 ∧ SameExcept [.time, .ev] s t) ∧
  (∀ s : State, s.time.r ≠ 0 → s.time.r.natAbs ≤ s.time.slewFrac / (65536 * 100000000) →
    Does .residualSlewEnd s fun t => t.time.r = 0 ∧ t.time.dom0 = s.time.dom0 ∧ t.time.dom1 = s.time.dom1 ∧
      t.time.air = s.time.air ∧ SameExcept [.time] s t) ∧
  (∀ s : State, s.time.alarm = false → s.param 0x0204 0 * 65536 < s.time.r.natAbs → Room 1 s →
    Does .residualThresholdCrossing s fun t => t.time = { s.time with alarm := true } ∧
      Raised s t 1 0 0x0208 2 ([1] ++ leInt 8 (s.time.r / 65536)) ∧ SameExcept [.time, .ev] s t) ∧
  (∀ s : State, s.time.alarm = true → s.time.r.natAbs < s.param 0x0204 0 * 65536 → Room 1 s →
    Does .residualThresholdCrossing s fun t => t.time = { s.time with alarm := false } ∧
      Raised s t 1 0 0x0208 1 ([0] ++ leInt 8 (s.time.r / 65536)) ∧ SameExcept [.time, .ev] s t) ∧
  (∀ s : State, s.time.r.natAbs = s.param 0x0204 0 * 65536 → Idle .residualThresholdCrossing s) ∧
  ∀ (tile : Fin 6) (cls : Fin 5) (unit : Byte) (s : State), Room 1 s →
    Does (.timeBusParityError tile cls unit) s fun t =>
      Raised s t 1 0 0x0305 3 [BitVec.ofNat 8 tile, BitVec.ofNat 8 cls, unit] ∧
      t.time = { s.time with stale := t.time.stale } ∧
      (∃ v, mapGet? t.time.stale (cls.val * 256 + unit.toNat) = some (v, true) ∧
        (mapGet? s.time.stale (cls.val * 256 + unit.toNat) = none → v = s.time.prevNow) ∧
        ∀ e, mapGet? s.time.stale (cls.val * 256 + unit.toNat) = some e → v = e.1) ∧
      (∀ j, j ≠ cls.val * 256 + unit.toNat → mapGet? t.time.stale j = mapGet? s.time.stale j) ∧ SameExcept [.time, .ev] s t

namespace Sys2Proof.Claims

open Sys2Proof.Machine

/-- Input `i` reads as described in both domains, every other input of both reads as before, and nothing changes but the time
domains and the events raised. -/
abbrev SharedInput (s t : State) (i : Nat) (P : Domain → RefInput → RefInput → Prop) : Prop :=
  (∀ d : DomId, P (s.dom d) ((s.dom d).input i) ((t.dom d).input i) ∧
    (∀ j, j ≠ i → (t.dom d).input j = (s.dom d).input j) ∧ (t.dom d).count = (s.dom d).count ∧ (t.dom d).st = (s.dom d).st ∧
    (t.dom d).y = (s.dom d).y) ∧
  t.time.r = s.time.r ∧ t.time.active = s.time.active ∧ t.time.air = s.time.air ∧ SameExcept [.time, .ev] s t

/-- A usable ToD message of the form of R65, in its window and the first of its second (R67). -/
abbrev TodUsable (s : State) (k : Nat) (b : List Byte) : Prop :=
  s.param 0x0212 k ≠ 0 ∧ rd b 0 1 = 0xC5 ∧ rd b 1 1 % 16 = 0 ∧ crc8 (slice b 0 15) = rd b 15 1 ∧
  10000000 ≤ edgeAge s k ∧ edgeAge s k ≤ 900000000 ∧
  (s.tod k).gotMsg = false

end Sys2Proof.Claims

/-- What the reference inputs do (R43 to R45, R57, R67, R70).  An ESMC PDU gives the candidate the rank of its SSM in both
domains and 5 s without one give rank 15; missing CLKIN edges remove the signal of input 16 + k, and returned edges restore
it; a PTP slot without a measurement for its timeout loses its signal in its own domain; three seconds without a usable edge
remove the signal of input 18 + k; a PPS_IN edge is measured after its delay; a usable ToD message leaves its sequence, its
seconds and its leap fields; and an input that meets every condition of R45 is qualified.  That CLKIN k counts as without valid
messages after three seconds is the model's choice (log entry 65). -/
def Obligations.ReferenceInputs : Prop :=
  (∀ (i ssm : Fin 16) (s : State), Does (.esmcPdu i ssm) s fun t => SharedInput s t i fun _ _ r =>
    r.rank = if ssm.val = 2 then 2 else if ssm.val = 4 then 5 else if ssm.val = 8 then 8 else if ssm.val = 11 then 11 else 15) ∧
  (∀ (i : Fin 16) (s : State), ((s.dom 0).input i).lastMeas + 5 * tcS ≤ s.now →
    Does (.esmcTimeout i) s fun t => SharedInput s t i fun _ _ r => r.rank = 15) ∧
  (∀ (k : Fin 2) (s : State), Does (.clkinEdgeMissing k) s fun t => SharedInput s t (16 + k) fun _ o r =>
    r.present = false ∧ r.qualified = false ∧ r.rank = o.rank) ∧
  (∀ (k : Fin 2) (s : State), Does (.clkinEdgesReturned k) s fun t => SharedInput s t (16 + k) fun x o r =>
    r.present = true ∧ r.lastMeas = o.lastMeas ∧ r.rank = o.rank ∧ r.since = if o.present then o.since else x.ns) ∧
  (∀ (d : DomId) (k : Fin 4) (s : State), ((s.dom d).input (20 + k)).present = true →
    ((s.dom d).input (20 + k)).lastMeas + s.param 0x020E d * tcMs ≤ s.now →
    Does (.ptpTimeout d k) s fun t => ((t.dom d).input (20 + k)).present = false ∧
      ((t.dom d).input (20 + k)).qualified = false ∧ (∀ j, j ≠ 20 + k.val → (t.dom d).input j = (s.dom d).input j) ∧
      t.dom (1 - d.val) = s.dom (1 - d.val) ∧ SameExcept [.time, .ev] s t) ∧
  (∀ (k : Fin 2) (s : State), 3 ≤ edgeless s k →
    Does (.ppsSignalLoss k) s fun t => (∀ d : DomId, ((t.dom d).input (18 + k)).present = false ∧
      ((t.dom d).input (18 + k)).qualified = false ∧
      ((t.dom d).input (16 + k)).rank = if 3 ≤ messageless s k then 15 else ((s.dom d).input (16 + k)).rank) ∧
      t.tod k = s.tod k ∧ SameExcept [.time, .ev] s t) ∧
  (∀ (k : Fin 2) (s : State), edgeless s k < 3 → Idle (.ppsSignalLoss k) s) ∧
  (∀ (k : Fin 2) (s : State), Does (.ppsInEdge k) s fun t =>
    (t.tod k).edge0 = ((s.dom 0).ns : Int) - s.paramInt 0x0211 k ∧
    (t.tod k).edge1 = ((s.dom 1).ns : Int) - s.paramInt 0x0211 k ∧ (t.tod k).gotMsg = false ∧ (t.tod k).usable = false ∧
    t.tod (1 - k.val) = s.tod (1 - k.val) ∧ t.time.dom0 = s.time.dom0 ∧ t.time.dom1 = s.time.dom1 ∧ SameExcept [.time] s t) ∧
  (∀ (k : Fin 2) (b : List Byte) (s : State), TodUsable s k b →
    Does (.todMessage k b) s fun t => (t.tod k).seq = some (rd b 9 1) ∧ (t.tod k).secs = some (rd b 2 6) ∧
      (t.tod k).leap = rd b 10 1 % 4 ∧ (t.tod k).taiUtc = rd b 11 1 ∧
      (∀ d : DomId, ((t.dom d).input (16 + k)).rank = rd b 8 1 % 16 ∧ ((t.dom d).input (18 + k)).rank = rd b 8 1 % 16) ∧
      SameExcept [.time, .ev] s t) ∧
  ∀ (d : DomId) (i : Fin 24) (s : State), ((s.dom d).input i).present = true → ((s.dom d).input i).rank < 15 →
    ((s.dom d).input i).driftDq = false → ((s.dom d).input i).freq.natAbs ≤ s.param 0x020C d * 1000 →
    (s.dom d).st ≠ 0 → (s.dom d).st ≠ 4 → ((s.dom d).input i).since + s.param 0x0208 d * 1000000000 ≤ (s.dom d).ns →
    Does (.refWtrExpiry d i) s fun t => ((t.dom d).input i).qualified = true ∧
      (∀ j, j ≠ i.val → (t.dom d).input j = (s.dom d).input j) ∧ t.dom (1 - d.val) = s.dom (1 - d.val) ∧
      SameExcept [.time, .ev] s t

/-- A domain locks and a drifting reference is dropped (R41, R47, R50, R59, R60).  In ACQUIRING, with one qualified PTP slot
as phase reference, the 16th consecutive update with a small phase error makes the domain LOCKED, and the correction lies
within the frequency limit.  An input that is the only qualified one of domain 0 with a result, was present for 90 s of the
window, and whose offset from the OCXO prediction exceeds the OCXO's band plus 10 ppb in a third consecutive window is
disqualified, and TIME_REF_DRIFT reports it; every other input only starts its next window.  Within a window nothing happens.
That the grid of the windows lies at multiples of 100 s of the active domain's time is the model's choice (log entry 65). -/
def Obligations.ServoAndDrift : Prop :=
  (∀ (d : DomId) (k : Fin 4) (e : Int) (r : RefInput) (s : State), s.time.oscLost = false → (s.dom d).st = 1 →
    (s.dom d).run = 15 → (s.dom d).stepDue = false → (s.dom d).inputs = [(20 + k.val, r)] → r.qualified = true → r.rank < 15 →
    (s.dom d).phaseRef = some (20 + k.val) → s.param 0x0205 (d.val * 32 + (20 + k.val)) ≠ 0 →
    e.natAbs < s.param 0x020B d * 65536 → Room 3 s →
    Does (.servoUpdate d { freqPhase := none, phase := some e, freqErr := 0, offs := [] }) s fun t =>
      (t.dom d).st = 2 ∧ (t.dom d).phaseErr = e ∧ (t.dom d).count = (s.dom d).count ∧ (t.dom d).phaseRef = some (20 + k.val) ∧
      -((s.param 0x020C d : Int) : Rat) ≤ (t.dom d).y ∧ (t.dom d).y ≤ ((s.param 0x020C d : Int) : Rat) ∧
      t.dom (1 - d.val) = s.dom (1 - d.val) ∧ t.time.air = s.time.air ∧ Queued t 1 0 0x0202 ∧ SameExcept [.time, .ev] s t) ∧
  (∀ (i : Fin 24) (off : Int) (s : State), driftIndex s ≠ s.time.driftAt → ((s.dom 0).input i).qualified = true →
    ((s.dom 0).input i).driftDq = false → ((s.dom 0).input i).driftRun = 2 →
    90000000000 ≤ ((s.dom 0).input i).presence (s.dom 0) →
    ((s.param 0x0203 0 : Int) + 10) * 1000 < ((fromPrediction (s.dom 0) off).natAbs : Int) → Room 4 s →
    Does (.driftWindowEnd [(i, off)] []) s fun t => ((t.dom 0).input i).driftDq = true ∧
      ((t.dom 0).input i).qualified = false ∧
      ((t.dom 0).input i).winOff = some (fromPrediction (s.dom 0) off) ∧ ((t.dom 0).input i).winPresent = 0 ∧
      (∀ j, j ≠ i.val → (t.dom 0).input j = { (s.dom 0).input j with winPresent := 0 }) ∧
      (∀ j, (t.dom 1).input j = { (s.dom 1).input j with winPresent := 0 }) ∧ t.time.driftAt = driftIndex s ∧
      Queued t 1 0 0x0205 ∧ SameExcept [.time, .ev] s t) ∧
  ∀ (m0 m1 : List (Fin 24 × Int)) (s : State), driftIndex s = s.time.driftAt → Idle (.driftWindowEnd m0 m1) s

/-- The 1 ms evaluation (R34, R36, R37).  Where the automatic switch is enabled, the active domain is not LOCKED and the other
one is, the role passes, r takes the difference of the two counters so that Air Time does not move, and TIME_ACTIVE_SWITCH
reports it; where neither domain's state asks for a switch, nothing changes.  Automatic realignment is off in both. -/
def Obligations.ActiveRoleEvaluation : Prop :=
  (∀ s : State, s.time.active ≤ 1 → s.param 0x0201 0 = 1 → s.param 0x0305 0 ≠ 1 → s.time.switchWait = none →
    (s.dom s.time.active).st ≠ 2 → (s.dom (1 - s.time.active)).st = 2 → Room 1 s →
    Does .activeRoleEvaluation s fun t => t.time.active = 1 - s.time.active ∧
      t.time.r = s.time.r - (((s.dom (1 - s.time.active)).count : Int) - ((s.dom s.time.active).count : Int)) / 65536 ∧
      t.time.air = s.time.air ∧ t.time.dom0 = s.time.dom0 ∧ t.time.dom1 = s.time.dom1 ∧ Queued t 1 0 0x0207 ∧
      SameExcept [.time, .ev] s t) ∧
  (∀ s : State, s.param 0x0305 0 ≠ 1 → s.time.switchWait = none → (s.dom s.time.active).st = 2 → s.time.active = 0 →
    Idle .activeRoleEvaluation s) ∧
  ∀ (w : SwitchWait) (s : State), s.param 0x0201 0 ≠ 1 → s.param 0x0202 0 ≠ 1 → s.param 0x0305 0 ≠ 1 →
    s.time.switchWait = some w → w.target ≠ s.time.active → (s.dom w.target).st = 2 → s.time.active ≤ 1 → w.target ≤ 1 →
    Does .activeRoleEvaluation s fun t => t.time.active = w.target ∧ t.time.switchWait = none ∧ t.time.air = s.time.air ∧
      t.time.dom0 = s.time.dom0 ∧ t.time.dom1 = s.time.dom1 ∧ SameExcept [.time, .ev, .host] s t

/-- The pulse outputs and the comparators (R71, R74, R91, R94, R97).  A programmed time of a PPS output raises the pin for
its width, and a periodic output goes on to the next; a time already produced raises nothing again; the width over, the pin
falls; an armed comparator whose target Air Time
has reached takes its action, ONE_SHOT becomes free and PERIODIC takes the next target above Air Time; an output TAOUT falls
when its pulse is over. -/
def Obligations.PulsesAndComparators : Prop :=
  (∀ (k : Fin 4) (n : Nat) (s : State), (s.ppsOut k).next = some n →
    (s.ppsOut k).produced.contains ((s.ppsOut k).dom, n) = false → (s.ppsOut k).jumped = none →
    (n : Int) + (s.ppsOut k).delay ≤ ((s.dom (s.ppsOut k).dom).ns : Int) →
    Does (.ppsOutEdge k) s fun t => (t.ppsOut k).high = true ∧ (t.ppsOut k).produced = ((s.ppsOut k).dom, n) :: (s.ppsOut k).produced ∧
      (t.ppsOut k).fall = some ((s.ppsOut k).width * 2 ^ 32) ∧
      (t.ppsOut k).next = (if (s.ppsOut k).mode = 2 then some (n + (s.ppsOut k).period) else none) ∧
      (∀ j, j ≠ k.val → t.ppsOut j = s.ppsOut j) ∧ t.time = { s.time with pps := t.time.pps } ∧ SameExcept [.time] s t) ∧
  (∀ (k : Fin 4) (n : Nat) (s : State), (s.ppsOut k).next = some n →
    ((s.dom (s.ppsOut k).dom).ns : Int) < (n : Int) + (s.ppsOut k).delay → Idle (.ppsOutEdge k) s) ∧
  (∀ (k : Fin 4) (n : Nat) (s : State), (s.ppsOut k).next = some n →
    (s.ppsOut k).produced.contains ((s.ppsOut k).dom, n) = true →
    (n : Int) + (s.ppsOut k).delay ≤ ((s.dom (s.ppsOut k).dom).ns : Int) →
    Does (.ppsOutEdge k) s fun t => t.ppsOut k = { s.ppsOut k with next := (s.ppsOut k).after n } ∧
      (∀ j, j ≠ k.val → t.ppsOut j = s.ppsOut j) ∧ SameExcept [.time] s t) ∧
  (∀ (k : Fin 4) (s : State), (s.ppsOut k).fall = some 0 →
    Does (.ppsOutPulseEnd k) s fun t => (t.ppsOut k).high = false ∧ (t.ppsOut k).fall = none ∧
      (∀ j, j ≠ k.val → t.ppsOut j = s.ppsOut j) ∧ t.time = { s.time with pps := t.time.pps } ∧ SameExcept [.time] s t) ∧
  (∀ (n : Fin 256) (s : State), 64 ≤ n.val → (s.comp n).armed = true → (s.comp n).target ≤ s.now → (s.comp n).action = 6 →
    (s.comp n).late = false → (s.comp n).arg < 2 ^ 32 → s.boot.devState ≠ 3 → Room 1 s →
    Does (.comparatorFire n) s fun t => (t.comp n).fired = true ∧
      ((s.comp n).mode = 0 → (t.comp n).armed = false) ∧
      ((s.comp n).mode = 1 → 0 < (s.comp n).period → (t.comp n).armed = true ∧ s.now < (t.comp n).target ∧
        (t.comp n).target ≤ s.now + (s.comp n).period ∧ ∃ m, 1 ≤ m ∧ (t.comp n).target = (s.comp n).target + m * (s.comp n).period) ∧
      (∀ j, j ≠ n.val → t.comp j = s.comp j) ∧ t.time = { s.time with comps := t.time.comps } ∧
      Raised s t 12 n 0x0304 0 (leBytes 1 n ++ leBytes 4 (s.comp n).arg) ∧ SameExcept [.time, .ev] s t) ∧
  (∀ (n : Fin 256) (s : State), (s.comp n).armed = false → Idle (.comparatorFire n) s) ∧
  (∀ (n : Fin 256) (s : State), s.now < (s.comp n).target → Idle (.comparatorFire n) s) ∧
  ∀ (k : Fin 4) (u : Nat) (s : State), mapGet? s.time.taout k = some u → u ≤ s.now →
    Does (.taoutPulseEnd k) s fun t => t.time = { s.time with taout := mapDel s.time.taout k } ∧ SameExcept [.time] s t

/-! ## Serial lanes (R104 to R130) -/

namespace Sys2Proof.Claims

open Sys2Proof.Machine

/-- No lane but `l` has changed. -/
abbrev OtherLanes (s t : State) (l : Nat) : Prop := ∀ j, j ≠ l → t.lane j = s.lane j

end Sys2Proof.Claims

/-- The locks of a lane (R114, R115, R127, R128).  Clock recovery locks on a present, powered, ready lane of a port with a mode,
codeword alignment follows where the link carries FEC and every lane of it has clock recovery, and each is reported by
LANE_LOCK.  A lost clock recovery takes the whole link back to step 1: the link is down and every lane of it has lost its
codeword alignment; each lost lock is counted once.  No lane of another link changes. -/
def Obligations.LaneLocks : Prop :=
  (∀ (l : LaneId) (s : State), (s.lane l).cdr = false → lanePresent s l = true → s.domainOn (76 + l / 16) = true →
    s.portMode (l / 4) ≠ 0 → (s.lane l).calibrated = true → Room 1 s →
    Does (.clockRecoveryLock l) s fun t => t.lane l = { s.lane l with cdr := true } ∧ OtherLanes s t l ∧
      Raised s t 3 l 0x0401 1 [BitVec.ofNat 8 l, 0, 1] ∧ SameExcept [.lanes, .ev] s t) ∧
  (∀ (l : LaneId) (s : State), (s.lane l).calibrated = false → Idle (.clockRecoveryLock l) s) ∧
  (∀ (l : LaneId) (s : State), (s.lane l).codeword = false →
    (∀ j ∈ lanesOfLink (s.portMode (l / 4)) (l / 4) (linkOfLane (s.portMode (l / 4)) l), laneClock s j = true) →
    linkFec s (l / 4) (linkOfLane (s.portMode (l / 4)) l) = true → Room 1 s →
    Does (.codewordLock l) s fun t => t.lane l = { s.lane l with codeword := true } ∧ OtherLanes s t l ∧
      Raised s t 3 l 0x0401 1 [BitVec.ofNat 8 l, 1, 1] ∧ SameExcept [.lanes, .ev] s t) ∧
  (∀ (l : LaneId) (s : State), (s.lane l).cdr = true → (s.lane l).codeword = true → (s.lane l).prbsLock = false →
    s.param 0x0402 l ≠ 2 →
    lanesOfLink (s.portMode (l / 4)) (l / 4) (linkOfLane (s.portMode (l / 4)) l) = [l.val] →
    s.linkUp (l / 4) (linkOfLane (s.portMode (l / 4)) l) = false → mapGet? s.lanes.scans (l / 16) = none → Room 2 s →
    Does (.clockRecoveryLoss l) s fun t => t.lane l = { s.lane l with
        cdr := false, codeword := false, cdrLost := min ((s.lane l).cdrLost + 1) (2 ^ 32 - 1)
        markerLost := min ((s.lane l).markerLost + 1) (2 ^ 32 - 1) } ∧
      OtherLanes s t l ∧ t.ev.queue = s.ev.queue ++
        [{ cls := 3, inst := l, code := 0x0401, sev := 1, detail := [BitVec.ofNat 8 l, 1, 0] },
         { cls := 3, inst := l, code := 0x0401, sev := 1, detail := [BitVec.ofNat 8 l, 0, 0] }] ∧
      SameExcept [.lanes, .ev] s t) ∧
  (∀ (l : LaneId) (s : State), (s.lane l).cdr = true → s.param 0x0402 l ≠ 2 →
    Does (.clockRecoveryLoss l) s fun t => (t.lane l).cdr = false ∧ (t.lane l).prbsLock = false ∧
      t.linkUp (l / 4) (linkOfLane (s.portMode (l / 4)) l) = false ∧
      (∀ j ∈ lanesOfLink (s.portMode (l / 4)) (l / 4) (linkOfLane (s.portMode (l / 4)) l), (t.lane j).codeword = false) ∧
      (∀ j, j ≠ l.val → j ∉ lanesOfLink (s.portMode (l / 4)) (l / 4) (linkOfLane (s.portMode (l / 4)) l) → t.lane j = s.lane j) ∧
      SameExcept [.time, .lanes, .ports, .ev, .free] s t) ∧
  (∀ (l : LaneId) (s : State), (s.lane l).codeword = true → s.linkUp (l / 4) (linkOfLane (s.portMode (l / 4)) l) = false →
    Room 1 s → Does (.codewordLockLoss l) s fun t => t.lane l = { s.lane l with
        codeword := false, markerLost := min ((s.lane l).markerLost + 1) (2 ^ 32 - 1) } ∧
      OtherLanes s t l ∧ Raised s t 3 l 0x0401 1 [BitVec.ofNat 8 l, 1, 0] ∧ SameExcept [.lanes, .ev] s t) ∧
  (∀ (l : LaneId) (s : State), (s.lane l).cdr = false → Idle (.clockRecoveryLoss l) s) ∧
  ∀ (l : LaneId) (s : State), (s.lane l).codeword = false → Idle (.codewordLockLoss l) s

/-- The state of a link (R114 step 3, R115, R136).  A link whose lanes all have their locks comes up; a link that loses block
lock goes down, its PTP frames are discarded and counted, and its other frames of fronthaul wait on; the counts of R115 grow
by what a window found; a link without FEC in high error ratio reports local fault.  Ready lanes are those whose saved trims a
powered group restores (R128). -/
def Obligations.LinkStates : Prop :=
  (∀ (p : PortId) (k : Fin 4) (s : State), lanesOfLink (s.portMode p) p k ≠ [] → s.linkUp p k = false →
    (∀ l ∈ lanesOfLink (s.portMode p) p k, laneClock s l = true ∧ (linkFec s p k = true → (s.lane l).codeword = true)) →
    Does (.blockLock p k) s fun t => t.linkUp p k = true ∧ t.lanes = s.lanes ∧ SameExcept [.time, .ports, .ev] s t) ∧
  (∀ (p : PortId) (k : Fin 4) (s : State), s.linkUp p k = true →
    Does (.blockLockLoss p k) s fun t => t.linkUp p k = false ∧ (t.link p k).ptp = [] ∧ (t.link p k).sending = none ∧
      (t.link p k).hiSer = false ∧
      (t.port p).ptpLost = min ((s.port p).ptpLost + (s.link p k).ptp.length) (2 ^ 32 - 1) ∧
      (∀ j, j ≠ p.val → t.port j = s.port j) ∧ SameExcept [.time, .lanes, .ports, .ev, .free] s t) ∧
  (∀ (p : PortId) (k : Fin 4) (s : State), s.linkUp p k = false → Idle (.blockLockLoss p k) s) ∧
  (∀ (p : PortId) (k : Fin 4) (m : SerMeas) (l : Nat) (s : State), s.linkUp p k = true →
    lanesOfLink (s.portMode p) p k = [l] → linkFec s p k = true → (s.link p k).hiSer = false →
    m.corrected.foldl (· + ·) 0 * 10 ^ s.param 0x0406 0 ≤ m.symbols →
    Does (.serWindowEnd p k m) s fun t => t.lane l = { s.lane l with
        badHeaders := min (s.lane l).badHeaders (2 ^ 32 - 1)
        corrSymbols := min ((s.lane l).corrSymbols + m.corrected.getD 0 0) (2 ^ 32 - 1)
        corrWords := min ((s.lane l).corrWords + m.corrWords) (2 ^ 32 - 1)
        uncorrWords := min ((s.lane l).uncorrWords + m.uncorrWords) (2 ^ 32 - 1) } ∧
      OtherLanes s t l ∧ SameExcept [.lanes] s t) ∧
  (∀ (p : PortId) (k : Fin 4) (m : SerMeas) (l : Nat) (s : State), s.linkUp p k = true →
    lanesOfLink (s.portMode p) p k = [l] → linkFec s p k = false → s.portMode p ≠ 5 → (s.link p k).hiSer = false →
    97 ≤ m.badHeaders → Room 1 s →
    Does (.serWindowEnd p k m) s fun t => (t.link p k).hiSer = true ∧ (t.link p k).localFault = true ∧
      (t.lane l).badHeaders = min ((s.lane l).badHeaders + m.badHeaders) (2 ^ 32 - 1) ∧ OtherLanes s t l ∧
      Queued t 3 l 0x0402 ∧ SameExcept [.lanes, .ports, .ev] s t) ∧
  ∀ (g : Fin 16) (i : Fin 16) (s : State), s.domainOn (76 + g) = true → lanePresent s (16 * g + i) = true →
    (s.lane (16 * g + i)).trims = true →
    Does (.laneGroupReady g) s fun t => t.lane (16 * g + i) = { s.lane (16 * g + i) with calibrated := true } ∧
      (∀ j, j / 16 ≠ g.val → t.lane j = s.lane j) ∧ SameExcept [.lanes] s t

/-- Lane settings, scans and windows (R113, R117, R119, R123, R125).  An accepted entry takes effect, is reported with the
entry before it, and clock recovery starts again; a host scan that is complete leaves its result and is reported with its
points; a trend scan takes a free lane
group, and its results replace it in the lane's record; the checker of a lane locks while a pattern is expected; an expired
maintenance window closes. -/
def Obligations.LaneSettingsAndScans : Prop :=
  (∀ (l : LaneId) (e : Nat) (s : State), (s.lane l).pendingEntry = some e → (s.lane l).cdr = false →
    mapGet? s.lanes.scans (l / 16) = none → Room 1 s →
    Does (.eqEntryApplied l) s fun t => t.lane l = { s.lane l with entry := e, pendingEntry := none } ∧ OtherLanes s t l ∧
      Raised s t 3 l 0x0404 1 [BitVec.ofNat 8 l, BitVec.ofNat 8 (s.lane l).entry, BitVec.ofNat 8 e] ∧
      SameExcept [.lanes, .ev] s t) ∧
  (∀ (l : LaneId) (e : Nat) (s : State), (s.lane l).pendingEntry = some e → (s.lane l).cdr = true →
    Does (.eqEntryApplied l) s fun t => (t.lane l).entry = e ∧ (t.lane l).pendingEntry = none ∧ (t.lane l).cdr = false ∧
      SameExcept [.time, .lanes, .ports, .ev, .free] s t) ∧
  (∀ (g : Fin 16) (errs : List Nat) (c : Scan) (s : State), mapGet? s.lanes.scans g = some c → c.host = true → Room 1 s →
    Does (.eyescanComplete g errs) s fun t => t.lanes.scans = mapDel s.lanes.scans g ∧
      (∃ r, mapGet? t.lanes.results g = some r ∧ r.lane = c.lane ∧ r.k = c.k ∧ r.s = c.s ∧ r.t = c.t) ∧
      t.lanes.lanes = s.lanes.lanes ∧ Queued t 3 c.lane 0x0403 ∧ SameExcept [.lanes, .ev] s t) ∧
  (∀ (l : LaneId) (s : State), trendDue s l = false → Idle (.trendScan l) s) ∧
  (∀ (l : LaneId) (s : State), trendDue s l = true → s.portMode (l / 4) ≠ 0 → mapGet? s.lanes.scans (l / 16) = none →
    (s.lane l).cdr = true →
    Does (.trendScan l) s fun t => (∃ c, mapGet? t.lanes.scans (l / 16) = some c ∧ c.host = false ∧ c.lane = l.val ∧ c.k = 7 ∧
      c.start = s.now ∧ c.mask = if laneNrz s l then 2 else 7) ∧ mapGet? t.lanes.trendAt l = some s.now ∧ t.lanes.lanes = s.lanes.lanes ∧
        SameExcept [.lanes] s t) ∧
  (∀ (l : LaneId) (eyes : List (Fin 3 × Fin 65 × Fin 128)) (c : Scan) (s : State), mapGet? s.lanes.scans (l / 16) = some c →
    c.host = false → c.lane = l.val →
    Does (.trendScanDone l eyes) s fun t => t.lanes.scans = mapDel s.lanes.scans (l / 16) ∧
      (∃ h, (t.lane l).trendPrev = some ((s.lane l).entry, h)) ∧ (t.lane l).entry = (s.lane l).entry ∧ OtherLanes s t l ∧
      SameExcept [.lanes, .ev] s t) ∧
  (∀ (l : LaneId) (s : State), s.param 0x0404 l ≠ 0 → laneClock s l = true → (s.lane l).prbsLock = false →
    Does (.prbsCheckerLock l) s fun t => t.lane l = { s.lane l with prbsLock := true, prbsAt := s.now } ∧ OtherLanes s t l ∧
      SameExcept [.lanes] s t) ∧
  (∀ (p : PortId) (t0 : Nat) (s : State), mapGet? s.lanes.maint p = some t0 → t0 + s.param 0x0408 0 * 1966080000 ≤ s.now →
    (∀ i < 4, s.param 0x0402 (4 * p + i) = 0 ∧ s.param 0x0403 (4 * p + i) = 0 ∧ s.param 0x0404 (4 * p + i) = 0) →
    Does (.maintTimeout p) s fun t => t.lanes = { s.lanes with maint := mapDel s.lanes.maint p } ∧
      SameExcept [.time, .lanes, .ports, .ev] s t) ∧
  ∀ (p : PortId) (t0 : Nat) (s : State), mapGet? s.lanes.maint p = some t0 → s.now < t0 + s.param 0x0408 0 * 1966080000 →
    Idle (.maintTimeout p) s

/-! ## Ports, fronthaul and radio (R131 to R167, R333 to R349) -/

namespace Sys2Proof.Claims

open Sys2Proof.Machine

/-- No port but `p` has changed. -/
abbrev OtherPorts (s t : State) (p : Nat) : Prop := ∀ j, j ≠ p → t.port j = s.port j

/-- No carrier's fronthaul state but that of `c` has changed. -/
abbrev OtherCarriers (s t : State) (c : Nat) : Prop := ∀ j, j ≠ c → t.cfh j = s.cfh j

/-- Engine `p` serves the active carrier `c`. -/
abbrev Serves (s : State) (p c : Nat) : Prop := carrierPort s c = some p ∧ s.carrierActive c = true

/-- A C-plane message that covers running symbol `k` has been sent in direction `dir`. -/
abbrev Covered (s : State) (p c dir : Nat) (k : Int) : Prop :=
  covered s c dir ((fhTime s p c).slotOf k).1 ((fhTime s p c).slotOf k).2 = true

/-- The close of running symbol `k`'s receive window is due and has not been handled (R154, R156). -/
abbrev RxDue (s : State) (p c : Nat) (k : Int) : Prop :=
  Covered s p c 0 k ∧ above (s.cfh c).lastRx k = true ∧
  ((s.cfh c).activeFrom : Int) ≤ (fhTime s p c).startOf (k + 1) + s.paramPort p 0x0610 c ∧
  (fhTime s p c).startOf (k + 1) + s.paramPort p 0x0611 c ≤ s.localNow 0 p ∧ areaBuffers s p c 0 ≠ 0

/-- The ready deadline of running symbol `k` has passed and has not been handled (R161). -/
abbrev ReadyDue (s : State) (p c : Nat) (k : Int) : Prop :=
  above (s.cfh c).lastDead k = true ∧ ((s.cfh c).activeFrom : Int) ≤ dlDeadline s p c k ∧ dlDeadline s p c k ≤ s.localNow 0 p ∧
  areaBuffers s p c 1 ≠ 0

/-- The transmit window of running symbol `k` is open and its opening has not been handled (R161). -/
abbrev TxDue (s : State) (p c : Nat) (k : Int) : Prop :=
  above (s.cfh c).lastOpen k = true ∧ ((s.cfh c).activeFrom : Int) ≤ dlDeadline s p c k ∧
  (fhTime s p c).startOf k - s.paramPort p 0x0612 c ≤ s.localNow 0 p ∧
  s.localNow 0 p < (fhTime s p c).startOf k - s.paramPort p 0x0613 c ∧ areaBuffers s p c 1 ≠ 0

/-- No frame that waits on the link has lost its window (R162) or its licence to be sent (R163). -/
abbrev Sendable (s : State) (p k : Nat) : Prop :=
  ∀ g ∈ (s.link p k).fh, (g.kind = 1 → s.boot.devState ≠ 4 ∧ g.open_ (s.localNow 0 p) = true) ∧
    (g.kind = 0 → s.boot.devState = 4 → g.buf = 65535)

/-- The link's queue of fronthaul frames grew by at least one frame, each as described; what it sends is as before. -/
abbrev Queues (s t : State) (p k : Nat) (P : TxFrame → Prop) : Prop :=
  ∃ l, l ≠ [] ∧ (t.link p k).fh = (s.link p k).fh ++ l ∧ (∀ f ∈ l, P f) ∧ (t.link p k).sending = (s.link p k).sending ∧
    (t.link p k).ptp = (s.link p k).ptp ∧ (t.link p k).low = (s.link p k).low ∧ (t.port p).bank = (s.port p).bank ∧ OtherPorts s t p

end Sys2Proof.Claims

/-- Frames that arrive on and leave a link (R131 to R138).  A link that delivers nothing changes nothing, and a near
loopback takes nothing from the pins (R118); the first check of
R133 that fails counts the frame on its link and nothing else; a PTP frame of a TIMING port joins its queue, stamped where it
is an event message; any other frame there is counted as one without a receiver.  A frame that has left is the link's last,
and nothing is in progress on a link with empty queues. -/
def Obligations.PortFrames : Prop :=
  (∀ (p : PortId) (k : Fin 4) (e : Bool) (b : List Byte) (s : State), linkDelivers s p k = false → Idle (.frameReceived p k e b) s) ∧
  (∀ (p : PortId) (k : Fin 4) (e : Bool) (b : List Byte) (s : State), linkNear s p k = true → Idle (.frameReceived p k e b) s) ∧
  (∀ (p : PortId) (k : Fin 4) (b : List Byte) (s : State), linkNear s p k = false → linkDelivers s p k = true →
    Does (.frameReceived p k true b) s fun t =>
      t.link p k = { s.link p k with phyErr := min ((s.link p k).phyErr + 1) (2 ^ 32 - 1) } ∧ OtherPorts s t p ∧
      SameExcept [.ports] s t) ∧
  (∀ (p : PortId) (k : Fin 4) (b : List Byte) (s : State), linkNear s p k = false → linkDelivers s p k = true → b.length < 64 →
    Does (.frameReceived p k false b) s fun t =>
      t.link p k = { s.link p k with runt := min ((s.link p k).runt + 1) (2 ^ 32 - 1) } ∧ OtherPorts s t p ∧
      SameExcept [.ports] s t) ∧
  (∀ (p : PortId) (k : Fin 4) (b : List Byte) (s : State), linkNear s p k = false → linkDelivers s p k = true →
    64 ≤ b.length → s.paramPort p 0x0504 p < b.length →
    Does (.frameReceived p k false b) s fun t =>
      t.link p k = { s.link p k with oversize := min ((s.link p k).oversize + 1) (2 ^ 32 - 1) } ∧ OtherPorts s t p ∧
      SameExcept [.ports] s t) ∧
  (∀ (p : PortId) (k : Fin 4) (b : List Byte) (s : State), linkNear s p k = false → linkDelivers s p k = true →
    macCheck s p false b = none → portRole s p = 3 → isPtp b = true → isEsmc b = false → b.length ≤ 1536 → (s.port p).ptpRx.length < 128 →
    Does (.frameReceived p k false b) s fun t => t.port p = { s.port p with
        ptpRx := (s.port p).ptpRx ++ [{ kind := 0, link := k, stamp := if (ptpEvent b).isSome then stampNow s p else 0,
                                        bytes := b.take (b.length - 4) }] } ∧
      OtherPorts s t p ∧ SameExcept [.ports] s t) ∧
  (∀ (p : PortId) (k : Fin 4) (b : List Byte) (s : State), linkNear s p k = false → linkDelivers s p k = true →
    macCheck s p false b = none → portRole s p = 3 → isPtp b = false → isEsmc b = false →
    Does (.frameReceived p k false b) s fun t =>
      t.port p = { s.port p with roleDiscard := min ((s.port p).roleDiscard + 1) (2 ^ 32 - 1) } ∧ OtherPorts s t p ∧
      SameExcept [.ports] s t) ∧
  (∀ (p : PortId) (k : Fin 4) (s : State), (s.link p k).sending = none → Idle (.frameTransmitted p k) s) ∧
  ∀ (p : PortId) (k : Fin 4) (f : TxFrame) (s : State), (s.link p k).sending = some f → f.kind = 2 → portRole s p ≠ 1 →
    txReplaced s p k = false → linkNear s p k = false →
    (s.link p k).fh = [] → (s.link p k).ptp = [] → (s.link p k).low = [] →
    Does (.frameTransmitted p k) s fun t =>
      t.link p k = { s.link p k with sending := none, lastSent := wireFrame f.bytes } ∧ OtherPorts s t p ∧
      SameExcept [.ports] s t

/-- Uplink staging (R156, R157, R159).  A closing window of a symbol with one group claims the group's buffer if it has been
released, and marks the group complete; a group that was complete before is neither claimed nor completed again, whoever holds
its buffer by then; a released buffer goes to the group that waits for it first, with every valid bit
clear, and is complete at once where that group's window has closed; a doorbell that names no buffer of the port is counted;
a second release changes nothing.  No byte of staging changes. -/
def Obligations.UplinkStaging : Prop :=
  (∀ (c : CarrierId) (f j p : Nat) (k : Int) (s : State), (fhTime s p c).symIndex f j = k → Serves s p c → RxDue s p c k →
    areaGroups s p c 0 = 1 → ulDone? s c (bufOf s p c 0 k 0) k 0 = none →
    (ulBuf s c (bufOf s p c 0 k 0)).group = some (k, 0) ∨ (ulBuf s c (bufOf s p c 0 k 0)).released = true →
    Does (.rxWindowClose c f j) s fun t => (t.cfh c).lastRx = some k ∧
      (ulBuf t c (bufOf s p c 0 k 0)).group = some (k, 0) ∧ (ulBuf t c (bufOf s p c 0 k 0)).complete = true ∧
      OtherCarriers s t c ∧ t.ports.ports = s.ports.ports ∧ SameExcept [.ports, .ev, .dma] s t) ∧
  (∀ (c : CarrierId) (f j p : Nat) (k : Int) (d : UlDone) (s : State), (fhTime s p c).symIndex f j = k → Serves s p c →
    RxDue s p c k → areaGroups s p c 0 = 1 → ulDone? s c (bufOf s p c 0 k 0) k 0 = some d → d.complete = true →
    Does (.rxWindowClose c f j) s fun t => (t.cfh c).lastRx = some k ∧ (∀ r, ulBuf t c r = ulBuf s c r) ∧
      OtherCarriers s t c ∧ t.ports.ports = s.ports.ports ∧ SameExcept [.ports] s t) ∧
  (∀ (c : CarrierId) (f j : Nat) (s : State), s.carrierActive c = false → Idle (.rxWindowClose c f j) s) ∧
  (∀ (p : PortId) (c : Fin 65536) (r : Fin 64) (s : State), doorbellOk s p c 0 r = false →
    Does (.doorbellUlRelease p c r) s fun t =>
      t.port p = { s.port p with doorbellBad := min ((s.port p).doorbellBad + 1) (2 ^ 32 - 1) } ∧ OtherPorts s t p ∧
      t.ports.carriers = s.ports.carriers ∧ SameExcept [.ports] s t) ∧
  (∀ (p : PortId) (c : Fin 65536) (r : Fin 64) (s : State), doorbellOk s p c 0 r = true → (ulBuf s c r).released = true →
    Idle (.doorbellUlRelease p c r) s) ∧
  (∀ (p : PortId) (c : Fin 65536) (r : Fin 64) (s : State), doorbellOk s p c 0 r = true → (ulBuf s c r).released = false →
    (ulBuf s c r).waiting = [] →
    Does (.doorbellUlRelease p c r) s fun t => ulBuf t c r = { ulBuf s c r with released := true } ∧
      (∀ j, j ≠ r.val → ulBuf t c j = ulBuf s c j) ∧ OtherCarriers s t c ∧ t.ports.ports = s.ports.ports ∧
      SameExcept [.ports] s t) ∧
  ∀ (p : PortId) (c : Fin 65536) (r : Fin 64) (k : Int) (q : Nat) (closed : Bool) (rest : List (Int × Nat × Bool)) (s : State),
    doorbellOk s p c 0 r = true → (ulBuf s c r).released = false → (ulBuf s c r).waiting = (k, q, closed) :: rest →
    Does (.doorbellUlRelease p c r) s fun t => (ulBuf t c r).group = some (k, q) ∧ (ulBuf t c r).valid = [] ∧
      (ulBuf t c r).released = false ∧ (ulBuf t c r).complete = closed ∧ (ulBuf t c r).waiting = rest ∧
      (∀ j, j ≠ r.val → ulBuf t c j = ulBuf s c j) ∧ OtherCarriers s t c ∧ t.ports.ports = s.ports.ports ∧
      SameExcept [.ports, .dma] s t

/-- Downlink staging (R158, R161, R163), for a symbol with one group.  A ready doorbell of a free buffer makes it ready, any
other is counted; at the ready deadline a ready buffer is taken, and a group without one has missed it, which is reported then
if the symbol is covered and at the opening of its window if it is covered by then; when the window opens, a taken group of one
stream sends the sections of its map from staging, and a group that was not taken its zero samples, on a link that is still
sending; a window that closes takes the symbol's waiting messages away. -/
def Obligations.DownlinkStaging : Prop :=
  (∀ (p : PortId) (c : Fin 65536) (r : Fin 64) (s : State), doorbellOk s p c 1 r = true → (dlBuf s c r).busy = false →
    Does (.doorbellDlReady p c r) s fun t => dlBuf t c r = { dlBuf s c r with ready := true } ∧
      (∀ j, j ≠ r.val → dlBuf t c j = dlBuf s c j) ∧ OtherCarriers s t c ∧ t.ports.ports = s.ports.ports ∧ SameExcept [.ports] s t) ∧
  (∀ (p : PortId) (c : Fin 65536) (r : Fin 64) (s : State), doorbellOk s p c 1 r = false ∨ (dlBuf s c r).busy = true →
    Does (.doorbellDlReady p c r) s fun t =>
      t.port p = { s.port p with doorbellBad := min ((s.port p).doorbellBad + 1) (2 ^ 32 - 1) } ∧ OtherPorts s t p ∧
      t.ports.carriers = s.ports.carriers ∧ SameExcept [.ports] s t) ∧
  (∀ (c : CarrierId) (f j p : Nat) (k : Int) (s : State), (fhTime s p c).symIndex f j = k → Serves s p c → ReadyDue s p c k →
    areaGroups s p c 1 = 1 →
    Does (.dlReadyDeadline c f j) s fun t => (t.cfh c).lastDead = some k ∧
      ((dlBuf s c (bufOf s p c 1 k 0)).ready = true →
        dlBuf t c (bufOf s p c 1 k 0) = { dlBuf s c (bufOf s p c 1 k 0) with ready := false, taken := some (k, 0) } ∧ t.ev = s.ev) ∧
      ((dlBuf s c (bufOf s p c 1 k 0)).ready = false → dlBuf t c (bufOf s p c 1 k 0) = dlBuf s c (bufOf s p c 1 k 0) ∧
        (¬ Covered s p c 1 k → (t.cfh c).missed = (s.cfh c).missed ++ [k] ∧ t.ev = s.ev) ∧
        (Covered s p c 1 k → mapGet? s.ev.rate (rateKey 0x0604 c) = none → Room 1 s → Queued t 2 p 0x0604)) ∧
      OtherCarriers s t c ∧ t.ports.ports = s.ports.ports ∧ SameExcept [.ports, .ev] s t) ∧
  (∀ (c : CarrierId) (f j p x st : Nat) (k : Int) (s : State), (fhTime s p c).symIndex f j = k → Serves s p c → TxDue s p c k →
    areaGroups s p c 1 = 1 → Covered s p c 1 k → (dlBuf s c (bufOf s p c 1 k 0)).taken ≠ some (k, 0) →
    Sendable s p (carrierLink s p c) → s.paramPort p 0x0603 p ≠ 4 → groupStreams s p c 1 0 = [st] → antennaOf s p c st = some x →
      prbCount s p c ≠ 0 →
    (s.link p (carrierLink s p c)).sending.isSome = true →
    Does (.dlTxWindowOpen c f j) s fun t => (t.cfh c).lastOpen = some k ∧
      Queues s t p (carrierLink s p c) (fun g => g.kind = 0 ∧ g.carrier = c.val ∧ g.eaxc = x ∧ g.sym = k ∧ g.buf = 65535) ∧
      ((s.cfh c).missed.contains k = true → mapGet? s.ev.rate (rateKey 0x0604 c) = none → Room 1 s → Queued t 2 p 0x0604) ∧
      OtherCarriers s t c ∧ SameExcept [.ports, .ev] s t) ∧
  (∀ (c : CarrierId) (f j p x st : Nat) (k : Int) (s : State), (fhTime s p c).symIndex f j = k → Serves s p c → TxDue s p c k →
    areaGroups s p c 1 = 1 → Covered s p c 1 k → (dlBuf s c (bufOf s p c 1 k 0)).taken = some (k, 0) → s.boot.devState ≠ 4 →
    Sendable s p (carrierLink s p c) → groupStreams s p c 1 0 = [st] → antennaOf s p c st = some x → bufOf s p c 1 k 0 ≠ 65535 →
    mapInvalid (s.paramPort p 0x0603 p) (prbCount s p c) (mapEntries (bytesRead 0 (s.port p).bank
      (bufAddr s p c 1 (bufOf s p c 1 k 0) + 32 * (st % areaGroup s p c 1)) 32)) = false →
    (mapEntries (bytesRead 0 (s.port p).bank
      (bufAddr s p c 1 (bufOf s p c 1 k 0) + 32 * (st % areaGroup s p c 1)) 32)).any (fun e => e.2.2.2.1 ≠ 0) = true →
    (s.link p (carrierLink s p c)).sending.isSome = true →
    Does (.dlTxWindowOpen c f j) s fun t => (t.cfh c).lastOpen = some k ∧
      Queues s t p (carrierLink s p c) (fun g => g.kind = 0 ∧ g.carrier = c.val ∧ g.eaxc = x ∧ g.sym = k ∧ g.buf = bufOf s p c 1 k 0) ∧
      OtherCarriers s t c ∧ SameExcept [.ports, .ev] s t) ∧
  ∀ (c : CarrierId) (f j p : Nat) (k : Int) (s : State), (fhTime s p c).symIndex f j = k → Serves s p c →
    above (s.cfh c).lastClose k = true → (fhTime s p c).startOf k - s.paramPort p 0x0613 c ≤ s.localNow 0 p →
    (s.link p (carrierLink s p c)).up = true →
    Does (.dlTxWindowClose c f j) s fun t => (t.cfh c).lastClose = some k ∧
      t.link p (carrierLink s p c) = { s.link p (carrierLink s p c) with
        fh := (s.link p (carrierLink s p c)).fh.filter fun g => !(g.kind = 0 && g.carrier = c && g.sym = k) } ∧
      (∀ g, (s.link p (carrierLink s p c)).sending = some g → g.kind = 0 → g.carrier = c.val → g.sym = k →
        (eaxcOf t g.eaxc).txLate = min ((eaxcOf s g.eaxc).txLate + 1) (2 ^ 32 - 1)) ∧
      OtherCarriers s t c ∧ OtherPorts s t p ∧ SameExcept [.ports] s t

/-- C-plane staging (R148, R158, R162).  A ready doorbell of a free buffer makes it ready, any other is counted; at the ready
deadline a ready buffer is taken for its slot, and one that is not is reported with reason 2; when the window opens, a buffer
with one record sends it as one message under the context's next sequence number. -/
def Obligations.CplaneStaging : Prop :=
  (∀ (p : PortId) (c : Fin 65536) (r : Fin 64) (s : State), doorbellOk s p c 2 r = true → (cpBuf s c r).busy = false →
    Sendable s p (carrierLink s p c) →
    Does (.doorbellCplaneReady p c r) s fun t => cpBuf t c r = { cpBuf s c r with ready := true } ∧
      (∀ j, j ≠ r.val → cpBuf t c j = cpBuf s c j) ∧ OtherCarriers s t c ∧ (∀ j, t.port j = s.port j) ∧ SameExcept [.ports] s t) ∧
  (∀ (p : PortId) (c : Fin 65536) (r : Fin 64) (s : State), doorbellOk s p c 2 r = false ∨ (cpBuf s c r).busy = true →
    Sendable s p (carrierLink s p c) →
    Does (.doorbellCplaneReady p c r) s fun t =>
      t.port p = { s.port p with doorbellBad := min ((s.port p).doorbellBad + 1) (2 ^ 32 - 1) } ∧ OtherPorts s t p ∧
      t.ports.carriers = s.ports.carriers ∧ SameExcept [.ports] s t) ∧
  (∀ (c : CarrierId) (q p : Nat) (s : State), Serves s p c → areaBuffers s p c 2 ≠ 0 → above (s.cfh c).lastCpDead q = true →
    ((s.cfh c).activeFrom : Int) ≤ cpDeadline s p c q → cpDeadline s p c q ≤ s.localNow 0 p →
    Does (.cplaneReadyDeadline c q) s fun t => (t.cfh c).lastCpDead = some (q : Int) ∧
      ((cpBuf s c (q % areaBuffers s p c 2)).ready = true → cpBuf t c (q % areaBuffers s p c 2) =
        { cpBuf s c (q % areaBuffers s p c 2) with ready := false, taken := some ((q : Int), 0) } ∧ t.ev = s.ev) ∧
      ((cpBuf s c (q % areaBuffers s p c 2)).ready = false → Room 1 s →
        cpBuf t c (q % areaBuffers s p c 2) = cpBuf s c (q % areaBuffers s p c 2) ∧
        Raised s t 2 p 0x0605 2 (leBytes 2 c ++ leBytes 2 0xFFFF ++ leBytes 1 2)) ∧
      OtherCarriers s t c ∧ t.ports.ports = s.ports.ports ∧ SameExcept [.ports, .ev] s t) ∧
  ∀ (c : CarrierId) (q p x : Nat) (body : List Byte) (s : State), Serves s p c → areaBuffers s p c 2 ≠ 0 →
    above (s.cfh c).lastCpOpen q = true → slotLead (fhTime s p c) q (s.paramPort p 0x0614 c) ≤ s.localNow 0 p →
    s.localNow 0 p < slotLead (fhTime s p c) q (s.paramPort p 0x0615 c) → Sendable s p (carrierLink s p c) →
    (cpBuf s c (q % areaBuffers s p c 2)).taken = some ((q : Int), 0) → s.boot.devState ≠ 4 →
    cplaneRecords 1024 (bytesRead 0 (s.port p).bank (bufAddr s p c 2 (q % areaBuffers s p c 2)) 4096) 0 = [(x, body, false)] →
    x < 16384 → 6 ≤ body.length → rd body 5 1 = 0 ∨ rd body 5 1 = 1 ∨ rd body 5 1 = 3 →
    fhOverhead s p c + 4 + body.length ≤ s.paramPort p 0x0504 p → s.linkUp p (carrierLink s p c) = true →
    (s.link p (carrierLink s p c)).sending.isSome = true →
    Does (.cplaneTxWindowOpen c q) s fun t => (t.cfh c).lastCpOpen = some (q : Int) ∧
      (t.link p (carrierLink s p c)).fh = (s.link p (carrierLink s p c)).fh ++
        [{ kind := 1, bytes := fhFrame s p c (ecpriMsg s p x 2 (eaxcOf s x).txC body), carrier := c, eaxc := x, sym := q,
           buf := q % areaBuffers s p c 2, due := some (slotLead (fhTime s p c) q (s.paramPort p 0x0615 c)) }] ∧
      (eaxcOf t x).txC = ((eaxcOf s x).txC + 1) % 256 ∧
      (cpBuf t c (q % areaBuffers s p c 2)).sending = (cpBuf s c (q % areaBuffers s p c 2)).sending + 1 ∧
      OtherCarriers s t c ∧ OtherPorts s t p ∧ SameExcept [.ports] s t

/-- Radio functions (R337, R338, R341, R344, R345).  A noise window that ends makes each antenna's record anew and starts new
sums; an occasion that closes joins the engine's queue; one not started in time is counted as an overload and reported; an
idle engine takes the occasion that closed first; and a finished one is counted.  The last clauses are for a carrier without
a report ring, where the reports are only counted. -/
def Obligations.RadioOccasions : Prop :=
  (∀ (c : CarrierId) (w p : Nat) (s : State), Serves s p c → s.paramPort p 0x0A03 c ≠ 0 →
    above (s.cfh c).lastNoise (((w + 1) * s.paramPort p 0x0A03 c : Nat) : Int) = true →
    ((s.cfh c).activeFrom : Int) < (fhTime s p c).slotSym (((w + 1) * s.paramPort p 0x0A03 c : Nat) : Int) 0 →
    (fhTime s p c).slotSym (((w + 1) * s.paramPort p 0x0A03 c : Nat) : Int) 0 + s.paramPort p 0x0611 c ≤ s.localNow 0 p →
    Does (.noiseWindowEnd c w) s fun t =>
      (t.cfh c).lastNoise = some (((w + 1) * s.paramPort p 0x0A03 c : Nat) : Int) ∧ (t.cfh c).partialWin = false ∧
      (∀ x ∈ antennas s p c, (mapGet t.ports.noise x {}).sum = 0 ∧ (mapGet t.ports.noise x {}).count = 0 ∧
        (mapGet t.ports.noise x {}).madeAt = s.now ∧ ∃ r, (mapGet t.ports.noise x {}).record = some r ∧ r.take 4 = leBytes 4 w) ∧
      (∀ x, x ∉ antennas s p c → mapGet t.ports.noise x {} = mapGet s.ports.noise x {}) ∧
      OtherCarriers s t c ∧ t.ports.ports = s.ports.ports ∧ SameExcept [.ports] s t) ∧
  (∀ (c : CarrierId) (g : Fin 16) (q p : Nat) (o : Occasion) (s : State), Serves s p c →
    ((s.cfh c).prachIn.find? fun e => e.group = g.val && e.slot = (q : Int) &&
        decide ((fhTime s p c).slotSym e.slot (e.start + e.num) + s.paramPort p 0x0611 c ≤ s.localNow 0 p)) = some o →
    (mapGet s.ports.prachQueue p []).length < 32 →
    Does (.prachOccasionClose c g q) s fun t => (t.cfh c).prachIn = (s.cfh c).prachIn.erase o ∧
      (∃ o', mapGet t.ports.prachQueue p [] = mapGet s.ports.prachQueue p [] ++ [o'] ∧ o'.closed = s.now ∧ o'.carrier = o.carrier ∧
        o'.group = o.group ∧ o'.slot = o.slot ∧ o'.input = o.input ∧ o'.thr = s.paramPort p 0x0A08 (c * 16 + g)) ∧
      OtherCarriers s t c ∧ t.ports.ports = s.ports.ports ∧ SameExcept [.ports] s t) ∧
  (∀ (p : PortId) (o : Occasion) (rest : List Occasion) (s : State), mapGet s.ports.prachQueue p [] = o :: rest →
    o.closed + 1966080 < s.now → s.paramPort p 0x0A0B o.carrier = 0 → Room 1 s →
    Does (.prachStartTimeout p) s fun t => mapGet t.ports.prachQueue p [] = rest ∧
      (t.cfh o.carrier).overloads = min ((s.cfh o.carrier).overloads + 1) (2 ^ 32 - 1) ∧
      (t.cfh o.carrier).occasions = min ((s.cfh o.carrier).occasions + 1) (2 ^ 32 - 1) ∧
      (t.cfh o.carrier).detections = min (s.cfh o.carrier).detections (2 ^ 32 - 1) ∧ Queued t 2 p 0x0A02 ∧
      OtherCarriers s t o.carrier ∧ SameExcept [.ports, .ev, .free] s t) ∧
  (∀ (p : PortId) (o : Occasion) (rest : List Occasion) (s : State), mapGet s.ports.prachQueue p [] = o :: rest →
    s.now ≤ o.closed + 1966080 → Idle (.prachStartTimeout p) s) ∧
  (∀ (p : PortId) (o : Occasion) (rest : List Occasion) (s : State), mapGet s.ports.prachQueue p [] = o :: rest →
    mapGet? s.ports.prachBusy p = none → s.now ≤ o.closed + 1966080 →
    Does (.prachProcessingStart p) s fun t => mapGet t.ports.prachQueue p [] = rest ∧
      mapGet? t.ports.prachBusy p = some { o with begun := s.now } ∧ t.ports.carriers = s.ports.carriers ∧ SameExcept [.ports] s t) ∧
  ∀ (p : PortId) (o : Occasion) (s : State), mapGet? s.ports.prachBusy p = some o → s.paramPort p 0x0A0B o.carrier = 0 →
    o.input = [] → o.begun ≤ s.now →
    Does (.prachProcessingEnd p) s fun t => t.ports.prachBusy = mapDel s.ports.prachBusy p ∧
      (t.cfh o.carrier).occasions = min ((s.cfh o.carrier).occasions + 1) (2 ^ 32 - 1) ∧
      (t.cfh o.carrier).detections = min (s.cfh o.carrier).detections (2 ^ 32 - 1) ∧
      OtherCarriers s t o.carrier ∧ SameExcept [.ports, .free] s t

/-! ## Facet cores: scalar operations (R168 to R204) -/

namespace Sys2Proof.Claims

open Sys2Proof.Machine

/-- Core `k` ran one bundle: its count and its time went on; nothing but its registers, its data memory and its time changed,
and no other core or cluster. -/
abbrev Ran (s t : State) (k : Nat) : Prop :=
  t.core k = { s.core k with
    regs := (t.core k).regs, dmem := (t.core k).dmem, cycle := (t.core k).cycle, starve := (t.core k).starve } ∧
  (t.core k).regs.bseq = (s.core k).regs.bseq + 1 ∧ (s.core k).cycle < (t.core k).cycle ∧
  (∀ j, j ≠ k → t.core j = s.core j) ∧ t.facet.clusters = s.facet.clusters

/-- All registers but the listed G registers and control registers hold what they held; results under way are `l`. -/
abbrev RegsKept (s t : State) (k : Nat) (g c : List Nat) (l : List Res) : Prop :=
  (∀ i, i ∉ g → (t.core k).regs.getG i = (s.core k).regs.getG i) ∧
  (∀ i, i ∉ c → (t.core k).regs.getC i = (s.core k).regs.getC i) ∧
  (∀ i, (t.core k).regs.getV i = (s.core k).regs.getV i) ∧ (∀ i, (t.core k).regs.getM i = (s.core k).regs.getM i) ∧
  (t.core k).regs.vl = (s.core k).regs.vl ∧ (t.core k).regs.inflight = l ∧ (t.core k).regs.cmds = [] ∧
  (t.core k).regs.demapRec = (s.core k).regs.demapRec ∧ (t.core k).regs.solveRec = (s.core k).regs.solveRec

/-- The next bundle stands at `pc`; `d` holds the delay slots left and the branch target. -/
abbrev NextAt (t : State) (k pc : Nat) (d : Option (Nat × Nat)) : Prop := (t.core k).regs.pc = pc ∧ (t.core k).regs.delay = d

/-- No byte of the core's data memory has changed. -/
abbrev DmemKept (s t : State) (k : Nat) : Prop := (t.core k).dmem = (s.core k).dmem

/-- The bundle runs, and the next one reads `v` in `Gd`; nothing else changes. -/
abbrev GivesG (i : Instr) (s : State) (k : Nat) (d : Fin 32) (v : W64) : Prop :=
  Does i s fun t => Ran s t k ∧ (t.core k).regs.getG d = v ∧ RegsKept s t k [d.val] [] [] ∧
    NextAt t k ((s.core k).regs.pc + 16) none ∧ DmemKept s t k ∧ SameExcept [.facet] s t

/-- The bundle runs, and the results `l` are under way; no register has changed yet. -/
abbrev GivesLate (i : Instr) (s : State) (k : Nat) (P : List Res → Prop) : Prop :=
  Does i s fun t => Ran s t k ∧ P (t.core k).regs.inflight ∧ RegsKept s t k [] [] (t.core k).regs.inflight ∧
    NextAt t k ((s.core k).regs.pc + 16) none ∧ DmemKept s t k ∧ SameExcept [.facet] s t

/-- A G register result of latency `lat`. -/
def lateG (s : State) (k lat : Nat) (d : Fin 32) (v : W64) : Res :=
  { due := (s.core k).regs.bseq + lat, dest := d, mask := BitVec.allOnes 512, val := v.setWidth 512
    from_ := (s.core k).regs.bseq }

/-- The bundle runs as a branch: two delay slots are left, and the target is known. -/
abbrev Branches (i : Instr) (s : State) (k target : Nat) : Prop :=
  Does i s fun t => Ran s t k ∧ RegsKept s t k [] [] [] ∧ NextAt t k ((s.core k).regs.pc + 16) (some (2, target)) ∧
    DmemKept s t k ∧ SameExcept [.facet] s t

/-- The bundle runs and changes control registers only: those listed. -/
abbrev SetsC (i : Instr) (s : State) (k pc : Nat) (d : Option (Nat × Nat)) (c : List (Nat × Nat)) : Prop :=
  Does i s fun t => Ran s t k ∧ RegsKept s t k [] (c.map fun e => e.1) [] ∧ (∀ e ∈ c, (t.core k).regs.getC e.1 = e.2) ∧
    NextAt t k pc d ∧ DmemKept s t k ∧ SameExcept [.facet] s t

/-- The second operand of a scalar operation (R176). -/
def src2 (r : CoreRegs) (b : Src2) : W64 :=
  match b with
  | .reg x => r.getG x
  | .imm v => v.signExtend 64

/-- A bundle address `16 × v` bytes from `pc`. -/
def relTarget (pc : Nat) (v : Int) : Nat := (((pc : Int) + 16 * v) % (2 ^ 64 : Nat)).toNat

end Sys2Proof.Claims

/-- Integer ALU and immediate operations (R176), each as the one operation of a bundle: Gd takes the result for the next
bundle, and no other register, no memory and no other core changes.  MIN and MAX compare signed values; shifts take bits [5:0].
-/
def Obligations.ScalarAlu : Prop :=
  ∀ (k : CoreId) (d a : Fin 32) (b : Src2) (s : State), QuietCore s k →
    let q := some quietIssue
    let x := (s.core k).regs.getG a
    let y := src2 (s.core k).regs b
    let n := y.toNat % 64
    GivesG (.add k q d a b) s k d (x + y) ∧ GivesG (.sub k q d a b) s k d (x - y) ∧
    GivesG (.and k q d a b) s k d (x &&& y) ∧ GivesG (.or k q d a b) s k d (x ||| y) ∧
    GivesG (.xor k q d a b) s k d (x ^^^ y) ∧ GivesG (.andn k q d a b) s k d (x &&& ~~~y) ∧
    GivesG (.shl k q d a b) s k d (x <<< n) ∧ GivesG (.shr k q d a b) s k d (x >>> n) ∧
    GivesG (.sar k q d a b) s k d (x.sshiftRight n) ∧ GivesG (.ror k q d a b) s k d ((x >>> n) ||| (x <<< (64 - n))) ∧
    GivesG (.min k q d a b) s k d (if BitVec.slt y x then y else x) ∧
    GivesG (.max k q d a b) s k d (if BitVec.slt x y then y else x) ∧
    GivesG (.minu k q d a b) s k d (if y < x then y else x) ∧ GivesG (.maxu k q d a b) s k d (if x < y then y else x) ∧
    GivesG (.cmpeq k q d a b) s k d (if x = y then 1 else 0) ∧ GivesG (.cmpne k q d a b) s k d (if x = y then 0 else 1) ∧
    GivesG (.cmplt k q d a b) s k d (if BitVec.slt x y then 1 else 0) ∧
    GivesG (.cmple k q d a b) s k d (if BitVec.sle x y then 1 else 0) ∧
    GivesG (.cmpltu k q d a b) s k d (if x < y then 1 else 0) ∧ GivesG (.cmpleu k q d a b) s k d (if x ≤ y then 1 else 0) ∧
    (∃ z ≤ 64, (∀ i < 64, 64 - z ≤ i → x.getLsbD i = false) ∧ (z < 64 → x.getLsbD (63 - z) = true) ∧
      GivesG (.clz k q d a) s k d (BitVec.ofNat 64 z)) ∧
    GivesG (.popc k q d a) s k d (BitVec.ofNat 64 ((List.range 64).filter fun i => x.getLsbD i).length) ∧
    ∀ v : BitVec 31, GivesG (.limm k q d v) s k d (v.signExtend 64) ∧
      GivesG (.limmh k q d v) s k d ((v.signExtend 32) ++ ((s.core k).regs.getG d).setWidth 32)

/-- Multiplies, the scalar complex product and MFC (R174, R176, R224).  A multiply's result has latency 2; CMUL and CMULC give
a ci16, rounded and saturated, with the high half 0; MFC gives the control register. -/
def Obligations.ScalarMultiply : Prop :=
  ∀ (k : CoreId) (d a b : Fin 32) (s : State), QuietCore s k →
    let q := some quietIssue
    let x := (s.core k).regs.getG a
    let y := (s.core k).regs.getG b
    GivesLate (.mul k q d a b) s k (fun l => l = [lateG s k 2 d (x * y)]) ∧
    GivesLate (.mulh k q d a b) s k (fun l => l = [lateG s k 2 d (BitVec.ofInt 64 (x.toInt * y.toInt / 2 ^ 64))]) ∧
    GivesLate (.mulhu k q d a b) s k (fun l => l = [lateG s k 2 d (BitVec.ofNat 64 (x.toNat * y.toNat / 2 ^ 64))]) ∧
    (∀ m : BitVec 9, modRound m ≠ 3 → modTrap m = false →
      GivesG (.scalarCmul k q d a b m) s k d
        (BitVec.ofNat 64 (cmulQ15 false (modRound m) true (x.toNat % 2 ^ 32) (y.toNat % 2 ^ 32)).1) ∧
      GivesG (.scalarCmulc k q d a b m) s k d
        (BitVec.ofNat 64 (cmulQ15 true (modRound m) true (x.toNat % 2 ^ 32) (y.toNat % 2 ^ 32)).1)) ∧
    ∀ c : BitVec 6, c.toNat < 0x18 → GivesG (.mfc k q d c) s k d (BitVec.ofNat 64 (readCtl s k c.toNat))

/-- Branches, repeat blocks, MTC and ERET (R174, R176, R184, R192).  A branch leaves two delay slots; BRZ and BRNZ go on behind
them where the condition does not hold; CALL puts the address behind them into G23; REP and REPI open level 0, or skip the body
for a count of 0; MTC writes the writable bits of its register, and a read-only one not at all; ERET goes back to EPC with the
saved depth and enable. -/
def Obligations.ScalarControl : Prop :=
  ∀ (k : CoreId) (s : State), QuietCore s k →
    let q := some quietIssue
    let r := (s.core k).regs
    (∀ v : BitVec 31, Branches (.br k q v) s k (relTarget r.pc v.toInt)) ∧
    (∀ (a : Fin 32) (v : BitVec 9),
      Branches (.brz k q a v) s k (if r.getG a = 0 then relTarget r.pc v.toInt else r.pc + 48) ∧
      Branches (.brnz k q a v) s k (if r.getG a = 0 then r.pc + 48 else relTarget r.pc v.toInt)) ∧
    (∀ v : BitVec 31, Does (.call k q v) s fun t => Ran s t k ∧ (t.core k).regs.getG 23 = BitVec.ofNat 64 (r.pc + 48) ∧
      RegsKept s t k [23] [] [] ∧ NextAt t k (r.pc + 16) (some (2, relTarget r.pc v.toInt)) ∧ DmemKept s t k ∧
      SameExcept [.facet] s t) ∧
    (∀ a : Fin 32, Branches (.jr k q a) s k (r.getG a).toNat) ∧
    (∀ (a : Fin 32) (f : Bool) (n : BitVec 11), n ≠ 0 → r.pc + 16 * n.toNat < 0x8000 → (r.getG a).toNat % 2 ^ 32 ≠ 0 →
      SetsC (.rep k q a f n) s k (r.pc + 16) none [(0x0C, (r.getG a).toNat % 2 ^ 32), (0x0F, r.pc + 16), (0x12, r.pc + 16 * n.toNat),
        (0x15, if f then 5 else 1)]) ∧
    (∀ (c : BitVec 16) (f : Bool) (n : BitVec 11), n ≠ 0 → r.pc + 16 * n.toNat < 0x8000 → c ≠ 0 →
      SetsC (.repi k q c f n) s k (r.pc + 16) none [(0x0C, c.toNat), (0x0F, r.pc + 16), (0x12, r.pc + 16 * n.toNat),
        (0x15, if f then 5 else 1)]) ∧
    (∀ (f : Bool) (n : BitVec 11), n ≠ 0 → r.pc + 16 * n.toNat < 0x8000 →
      SetsC (.repi k q 0 f n) s k (r.pc + 16 + 16 * n.toNat) none []) ∧
    (∀ (c : BitVec 6) (a : Fin 32), c.toNat < 0x18 →
      (∀ m, ctlMask c.toNat = some m → SetsC (.mtc k q c a) s k (r.pc + 16) none [(c.toNat, (r.getG a).toNat &&& m)]) ∧
      (ctlMask c.toNat = none → SetsC (.mtc k q c a) s k (r.pc + 16) none [])) ∧
    (bit (r.getC 1) 7 = true → (r.getC 1) / 32 % 4 = 0 → SetsC (.eret k q) s k (r.getC 3) none
      [(1, r.getC 1 - 128), (8, r.getC 8 + r.getC 1 / 4 % 2), (0x15, r.getC 1 / 8 % 4)])

/-- Exception entry (R187 to R194, R202).  SYSC, a misaligned load, and an interrupt that is enabled write ESTAT, ECAUSE, EPC,
EADDR and EINFO, disable interrupts, and go to the handler; an undefined control register is a fatal cause, which
takes the core out of service. -/
def Obligations.ExceptionEntry : Prop :=
  (∀ (k : CoreId) (v : BitVec 16) (s : State), QuietCore s k → bit ((s.core k).regs.getC 1) 7 = false →
    Does (.sysc k (some quietIssue) v) s fun t => (t.core k).regs.getC 1 = 0x80 ∧ (t.core k).regs.getC 2 = 0x15 ∧
      (t.core k).regs.getC 3 = (s.core k).regs.pc + 16 ∧ (t.core k).regs.getC 5 = 0 ∧
      (t.core k).regs.getC 6 = v.toNat * 2 ^ 16 ∧ (t.core k).regs.pc = ((s.core k).regs.getC 7 + 64 * 0x15) % 2 ^ 64 ∧
      (∀ i, (t.core k).regs.getG i = (s.core k).regs.getG i) ∧ (∀ i, (t.core k).regs.getV i = (s.core k).regs.getV i) ∧
      DmemKept s t k ∧ (∀ j, j ≠ k.val → t.core j = s.core j) ∧ SameExcept [.facet, .free] s t) ∧
  (∀ (k : CoreId) (d a : Fin 32) (s : State), QuietCore s k → bit ((s.core k).regs.getC 1) 7 = false →
    ((s.core k).regs.getG a).toNat < 0x3FFF8 → ((s.core k).regs.getG a).toNat % 8 ≠ 0 →
    Does (.ldd k (some quietIssue) d a (.off 0)) s fun t => (t.core k).regs.getC 1 = 0x180 ∧ (t.core k).regs.getC 2 = 0x11 ∧
      (t.core k).regs.getC 3 = (s.core k).regs.pc ∧ (t.core k).regs.getC 5 = ((s.core k).regs.getG a).toNat ∧
      (t.core k).regs.getC 6 = d.val ∧ (t.core k).regs.pc = ((s.core k).regs.getC 7 + 64 * 0x11) % 2 ^ 64 ∧
      (∀ i, (t.core k).regs.getG i = (s.core k).regs.getG i) ∧ DmemKept s t k ∧ SameExcept [.facet, .free] s t) ∧
  (∀ (k : CoreId) (b : Nat) (s : State), (s.core k).restoring = false → (s.core k).dbg.halted = false →
    (s.core k).dbg.stepping = false → s.domainOn (k / 16) = true → takeable (s.core k) = some b → (s.core k).longs = [] →
    (s.core k).regs.inflight = [] → (s.core k).regs.getC 0x15 = 0 → (s.core k).regs.delay = none →
    Does (.interruptEntry k) s fun t => (t.core k).regs.getC 1 = 0xFF84 ∧ (t.core k).regs.getC 2 = 0x1F + b ∧
      (t.core k).regs.getC 3 = (s.core k).regs.pc % 2 ^ 64 ∧ (t.core k).regs.getC 5 < 2 ^ 16 ∧
      (t.core k).regs.getC 8 = (s.core k).regs.getC 8 - 1 ∧ (t.core k).supervisor = ((s.core k).supervisor && b ≠ 4) ∧
      (t.core k).regs.pc = ((s.core k).regs.getC 7 + 64 * (0x1F + b)) % 2 ^ 64 ∧ (t.core k).waiting = false ∧
      (∀ i, (t.core k).regs.getG i = (s.core k).regs.getG i) ∧ DmemKept s t k ∧ (∀ j, j ≠ k.val → t.core j = s.core j) ∧
      SameExcept [.facet, .free] s t) ∧
  (∀ (k : CoreId) (s : State), takeable (s.core k) = none → Idle (.interruptEntry k) s) ∧
  ∀ (k : CoreId) (d : Fin 32) (c : BitVec 6) (s : State), QuietCore s k → 0x18 ≤ c.toNat → runningOn s k = none → Room 1 s →
    Does (.mfc k (some quietIssue) d c) s fun t => (t.core k).restoring = true ∧ (t.core k).faultCause = 2 ∧
      (∀ i, (t.core k).regs.getG i = (s.core k).regs.getG i) ∧ DmemKept s t k ∧ (∀ j, j ≠ k.val → t.core j = s.core j) ∧
      Queued t 7 k 0x0701 ∧ SameExcept [.facet, .ev] s t

/-- Work, waiting and service of a core (R180, R181, R188, R194, R195, R203).  WAITWORK waits; a descriptor that arrives goes
into G24 to G31 with VL 512, and issue goes on; DONEWORK completes the running item; time on a waiting core reaches CTIMER; the
hold limit and a restoration take the core out of service and back with its registers cleared; a drained cluster takes its
memory mode. -/
def Obligations.CoreWork : Prop :=
  (∀ (k : CoreId) (s : State), QuietCore s k → runningOn s k = none → mapGet? s.mill.drains k = none →
    Does (.waitwork k (some quietIssue)) s fun t => (t.core k).waiting = true ∧ (t.core k).regs.pc = (s.core k).regs.pc ∧
      (∀ i, (t.core k).regs.getG i = (s.core k).regs.getG i) ∧ DmemKept s t k ∧ (∀ j, j ≠ k.val → t.core j = s.core j) ∧
      SameExcept [.facet] s t) ∧
  (∀ (k : CoreId) (n : Nat) (d : List Byte) (s : State), QuietCore { s with facet := { s.facet with
      cores := mapSet s.facet.cores k { s.core k with waiting := false, open_ := [] } } } k → (s.core k).waiting = true →
    (s.core k).open_ = [.waitwork] → mapGet? s.mill.deliveries k = some d →
    Does (.descriptorArrival k n) s fun t => (t.core k).waiting = false ∧ (t.core k).open_ = [] ∧ (t.core k).regs.vl = 512 ∧
      (∀ i < 8, (t.core k).regs.getG (24 + i) = BitVec.ofNat 64 (rd d (8 * i) 8)) ∧
      (∀ i, i < 24 → (t.core k).regs.getG i = (s.core k).regs.getG i) ∧ (t.core k).regs.pc = (s.core k).regs.pc + 16 ∧
      t.mill = { s.mill with deliveries := mapDel s.mill.deliveries k } ∧ DmemKept s t k ∧
      (∀ j, j ≠ k.val → t.core j = s.core j) ∧ SameExcept [.facet, .mill] s t) ∧
  (∀ (k : CoreId) (a : Fin 32) (q : Nat) (s : State), QuietCore s k → runningOn s k = some q →
    ((s.core k).regs.getG a).toNat % 256 < 4 → (s.core k).regs.demapRec = 0 → (s.core k).regs.solveRec = 0 →
    Does (.donework k (some quietIssue) a) s fun t => mapGet? (t.slc (unitSlice k)).items q = none ∧
      (∀ i, (t.core k).regs.getG i = (s.core k).regs.getG i) ∧ (t.core k).regs.pc = (s.core k).regs.pc + 16 ∧
      (t.core k).regs.bseq = (s.core k).regs.bseq + 1 ∧ DmemKept s t k ∧ t.pending = s.pending) ∧
  (∀ (k : CoreId) (s : State), (s.core k).waiting = true → (s.core k).dbg.halted = false → (s.core k).restoring = false →
    (s.core k).cycle < (s.core k).regs.getC 0x0B →
    Does (.ctimerMatch k) s fun t => t.core k = { s.core k with cycle := (s.core k).regs.getC 0x0B } ∧
      (∀ j, j ≠ k.val → t.core j = s.core j) ∧ SameExcept [.facet] s t) ∧
  (∀ (k : CoreId) (s : State), (s.core k).regs.holdOn = true → 2048 < (s.core k).regs.hold → (s.core k).restoring = false →
    (s.core k).dbg.halted = false → (s.core k).longs = [] → (s.core k).regs.inflight = [] → runningOn s k = none → Room 1 s →
    Does (.holdLimit k) s fun t => (t.core k).restoring = true ∧ (t.core k).faultCause = 5 ∧ DmemKept s t k ∧
      (∀ j, j ≠ k.val → t.core j = s.core j) ∧ Queued t 7 k 0x0701 ∧ SameExcept [.facet, .ev] s t) ∧
  (∀ (k : CoreId) (s : State), (s.core k).restoring = true → mapGet? s.mill.drains k = none → Room 1 s →
    Does (.coreRestore k) s fun t => (t.core k).restoring = false ∧ (t.core k).regs = {} ∧ (t.core k).cycle = 0 ∧
      DmemKept s t k ∧ (t.core k).imem = placedCode s k ∧ (∀ j, j ≠ k.val → t.core j = s.core j) ∧ Queued t 7 k 0x0702 ∧
      SameExcept [.facet, .ev] s t) ∧
  (∀ (k : CoreId) (s : State), (s.core k).restoring = false → Idle (.coreRestore k) s) ∧
  ∀ (c : ClusterId) (s : State), clusterWant s c ≠ (s.cluster c).split → s.domainOn c = true →
    (∀ i < 16, (s.core (16 * c + i)).restoring = true) → (∀ i < 16, mapGet? s.mill.drains (16 * c + i) = none) → Room 1 s →
    Does (.memModeChange c) s fun t => t.cluster c = { s.cluster c with split := clusterWant s c } ∧
      (∀ j, j ≠ c.val → t.cluster j = s.cluster j) ∧ t.facet.cores = s.facet.cores ∧ Queued t 7 (16 * c) 0x0703 ∧
      SameExcept [.facet, .ev] s t

/-! ## Facet cores: data memory (R177 to R179, R228 to R231) -/

namespace Sys2Proof.Claims

open Sys2Proof.Machine

/-- The base register after an access of this form (R177): post-increment adds the immediate or Gb, the offset form leaves it.
-/
def baseAfter (r : CoreRegs) (a : Fin 32) (f : AddrForm) : W64 :=
  match f with
  | .off _ => r.getG a
  | .postImm v => r.getG a + v.signExtend 64
  | .postReg b => r.getG a + r.getG b

/-- The bundle ran: the base register `a` has the value `v`, no other register has changed, and the next bundle follows. -/
abbrev RanMem (s t : State) (k : Nat) (a : Fin 32) (v : W64) : Prop :=
  Ran s t k ∧ (t.core k).regs.getG a = v ∧ RegsKept s t k [a.val] [] (t.core k).regs.inflight ∧
  NextAt t k ((s.core k).regs.pc + 16) none

/-- The bytes `bs` stand at address `e` of the core's data memory, and every other byte is as before. -/
abbrev StoredOnly (s t : State) (k e : Nat) (bs : List Byte) : Prop :=
  bytesRead 0 (t.core k).dmem e bs.length = bs ∧
  ∀ j, j < e ∨ e + bs.length ≤ j → byteAt 0 (t.core k).dmem j = byteAt 0 (s.core k).dmem j

/-- The little-endian number in `n` bytes of the core's data memory. -/
def memNum (s : State) (k e n : Nat) : Nat := leNat (bytesRead 0 (s.core k).dmem e n)

/-- A V register result of latency `lat` that writes the whole register. -/
def lateV (s : State) (k lat d v : Nat) : Res :=
  { due := (s.core k).regs.bseq + lat, dest := 32 + d, mask := BitVec.allOnes 512, val := BitVec.ofNat 512 v
    from_ := (s.core k).regs.bseq }

/-- An access of `n` bytes at `e` lies in data memory (R177, R197). -/
abbrev InDmem (e n : Nat) : Prop := e + n ≤ 0x40000

/-- Element `j` of `cnt` is active (R212, R213): below VL in VL mode, selected by the mask in MASK mode. -/
abbrev Active (c : Core) (sel cnt j : Nat) : Prop :=
  j < cnt ∧ (c.tail = 0 → j < c.regs.vl) ∧ (c.tail ≠ 0 → sel ≠ 0 → (c.regs.getM sel).getLsbD j = true)

/-- The bits of a result that it writes are those of the active elements of `n` bytes. -/
abbrev WritesOnly (r : Res) (n : Nat) (act : Nat → Prop) : Prop := ∀ j < 512, r.mask.getLsbD j = true ↔ act (j / (8 * n))

end Sys2Proof.Claims

/-- Scalar loads and stores and the local atomics (R177, R179), for every address form, at an aligned address in data memory.
A load's result has latency 3 and leaves memory as it is; a store changes its own bytes and no other; a post-increment updates
the base for the next bundle; an atomic stores the sum or the new value and returns the old one. -/
def Obligations.ScalarMemory : Prop :=
  ∀ (k : CoreId) (d a v : Fin 32) (f : AddrForm) (s : State), QuietCore s k →
    let q := some quietIssue
    let e := formAddr (s.core k).regs a f
    let w := baseAfter (s.core k).regs a f
    let g := ((s.core k).regs.getG v).toNat
    let loads := fun (i : Instr) (n : Nat) (x : W64) => InDmem (e n) n → e n % n = 0 →
      Does i s fun t => RanMem s t k a w ∧ (t.core k).regs.inflight = [lateG s k 3 d x] ∧ DmemKept s t k ∧ SameExcept [.facet] s t
    let stores := fun (i : Instr) (n : Nat) => InDmem (e n) n → e n % n = 0 →
      Does i s fun t => RanMem s t k a w ∧ (t.core k).regs.inflight = [] ∧ StoredOnly s t k (e n) (leBytes n g) ∧ SameExcept [.facet] s t
    loads (.ldb k q d a f) 1 ((BitVec.ofNat 8 (memNum s k (e 1) 1)).signExtend 64) ∧
    loads (.ldbu k q d a f) 1 (BitVec.ofNat 64 (memNum s k (e 1) 1)) ∧
    loads (.ldh k q d a f) 2 ((BitVec.ofNat 16 (memNum s k (e 2) 2)).signExtend 64) ∧
    loads (.ldhu k q d a f) 2 (BitVec.ofNat 64 (memNum s k (e 2) 2)) ∧
    loads (.ldw k q d a f) 4 ((BitVec.ofNat 32 (memNum s k (e 4) 4)).signExtend 64) ∧
    loads (.ldwu k q d a f) 4 (BitVec.ofNat 64 (memNum s k (e 4) 4)) ∧
    loads (.ldd k q d a f) 8 (BitVec.ofNat 64 (memNum s k (e 8) 8)) ∧
    stores (.stb k q v a f) 1 ∧ stores (.sth k q v a f) 2 ∧ stores (.stw k q v a f) 4 ∧ stores (.std k q v a f) 8 ∧
    (InDmem (e 4) 4 → e 4 % 4 = 0 → Does (.aaddw k q d a f v) s fun t => RanMem s t k a w ∧
      StoredOnly s t k (e 4) (leBytes 4 ((memNum s k (e 4) 4 + g) % 2 ^ 32)) ∧
      (∃ x, (t.core k).regs.inflight = [lateG s k 3 d x] ∧ x.toNat % 2 ^ 32 = memNum s k (e 4) 4) ∧ SameExcept [.facet, .free] s t) ∧
    (InDmem (e 8) 8 → e 8 % 8 = 0 → Does (.aaddd k q d a f v) s fun t => RanMem s t k a w ∧
      StoredOnly s t k (e 8) (leBytes 8 ((memNum s k (e 8) 8 + g) % 2 ^ 64)) ∧
      (t.core k).regs.inflight = [lateG s k 3 d (BitVec.ofNat 64 (memNum s k (e 8) 8))] ∧ SameExcept [.facet] s t) ∧
    (InDmem (e 8) 8 → e 8 % 8 = 0 → Does (.aswpd k q d a f v) s fun t => RanMem s t k a w ∧
      StoredOnly s t k (e 8) (leBytes 8 g) ∧
      (t.core k).regs.inflight = [lateG s k 3 d (BitVec.ofNat 64 (memNum s k (e 8) 8))] ∧ SameExcept [.facet] s t)

/-- Vector loads and stores of 64 bytes at any alignment, one or two in a bundle (R177, R178).  The dual forms are stated for
two bases, or for offsets from one; VLDST reads memory before its own store. -/
def Obligations.VectorMemory : Prop :=
  ∀ (k : CoreId) (d a v b : Fin 32) (f : AddrForm) (s : State), QuietCore s k →
    let q := some quietIssue
    let r := (s.core k).regs
    let e := formAddr r a f 64
    let w := baseAfter r a f
    (InDmem e 64 → Does (.vld k q d a f) s fun t => RanMem s t k a w ∧
      (t.core k).regs.inflight = [lateV s k 3 d (memNum s k e 64)] ∧ DmemKept s t k ∧ SameExcept [.facet, .fab] s t) ∧
    (InDmem e 64 → Does (.vst k q v a f) s fun t => RanMem s t k a w ∧ (t.core k).regs.inflight = [] ∧
      StoredOnly s t k e (leBytes 64 (r.getV v).toNat) ∧ SameExcept [.facet, .fab] s t) ∧
    ∀ h : AddrForm, InDmem e 64 → InDmem (formAddr r b h 64) 64 → a ≠ b ∨ ((∃ i, f = .off i) ∧ ∃ j, h = .off j) →
      let both := fun (t : State) => Ran s t k ∧ (t.core k).regs.getG a = w ∧ (t.core k).regs.getG b = baseAfter r b h ∧
        RegsKept s t k [a.val, b.val] [] (t.core k).regs.inflight ∧ NextAt t k (r.pc + 16) none ∧ SameExcept [.facet, .fab] s t
      (Does (.vld2 k q d a f v b h) s fun t => both t ∧ (t.core k).regs.inflight.length = 2 ∧
        lateV s k 3 d (memNum s k e 64) ∈ (t.core k).regs.inflight ∧
        lateV s k 3 v (memNum s k (formAddr r b h 64) 64) ∈ (t.core k).regs.inflight ∧ DmemKept s t k) ∧
      Does (.vldst k q d a f v b h) s fun t => both t ∧
        (t.core k).regs.inflight = [lateV s k 3 d (memNum s k e 64)] ∧
        StoredOnly s t k (formAddr r b h 64) (leBytes 64 (r.getV v).toNat)

/-- Element-indexed accesses of one register (R228 to R231), without a post-increment.  VLDE and VSTE move the active elements
between a register and consecutive elements of memory, VLDS and VSTS between `n` registers and structures of `n` elements, VGATH
and VSCAT between a register and elements at byte offsets in Vb.  Inactive elements are neither read nor written. -/
def Obligations.ElementMemory : Prop :=
  ∀ (k : CoreId) (v a b : Fin 32) (m : BitVec 9) (s : State), QuietCore s k → accG m = 1 → accPost m = false →
    accWatch m = false → ((s.core k).tail = 0 → accSel m = 0) →
    let q := some quietIssue
    let r := (s.core k).regs
    let n := accSize m
    let g := (r.getG a).toNat
    let act := Active (s.core k) (accSel m)
    let ran := fun (t : State) => Ran s t k ∧ RegsKept s t k [] [] (t.core k).regs.inflight ∧
      NextAt t k (r.pc + 16) none ∧ SameExcept [.facet] s t
    let structs := fun (i : Instr) (c : Nat) => v.val + c ≤ 32 → g % 64 = 0 → InDmem g (64 * c) →
      Does i s fun t => ran t ∧ DmemKept s t k ∧ (t.core k).regs.inflight.length = c ∧
        ∀ i < c, ∃ x ∈ (t.core k).regs.inflight, x.dest = 32 + v + i ∧ x.due = r.bseq + c + 2 ∧
          WritesOnly x n (act (64 / n)) ∧ ∀ j, act (64 / n) j → elemAt n x.val j = memNum s k (g + (j * c + i) * n) n
    let scatters := fun (i : Instr) (c : Nat) => v.val + c ≤ 32 → g % 64 = 0 → InDmem g (64 * c) →
      Does i s fun t => ran t ∧ (t.core k).regs.inflight = [] ∧
        (∀ i < c, ∀ j, act (64 / n) j → memNum t k (g + (j * c + i) * n) n = elemAt n (r.getV (v + i)) j) ∧
        ∀ e, (∀ j, act (64 / n) j → e < g + j * c * n ∨ g + (j + 1) * c * n ≤ e) →
          byteAt 0 (t.core k).dmem e = byteAt 0 (s.core k).dmem e
    let cnt := if n = 8 then 8 else 16
    let off := fun (j : Nat) => (g + elemAt 4 (r.getV b) j) % 2 ^ 64
    (g % 64 = 0 → InDmem g 64 → Does (.vlde k q v a b m) s fun t => ran t ∧ DmemKept s t k ∧
      ∃ x, (t.core k).regs.inflight = [x] ∧ x.dest = 32 + v ∧ x.due = r.bseq + 3 ∧ WritesOnly x n (act (64 / n)) ∧
        ∀ j, act (64 / n) j → elemAt n x.val j = memNum s k (g + j * n) n) ∧
    (g % 64 = 0 → InDmem g 64 → Does (.vste k q v a b m) s fun t => ran t ∧ (t.core k).regs.inflight = [] ∧
      (∀ j, act (64 / n) j → memNum t k (g + j * n) n = elemAt n (r.getV v) j) ∧
      ∀ e, (∀ j, act (64 / n) j → e < g + j * n ∨ g + (j + 1) * n ≤ e) →
        byteAt 0 (t.core k).dmem e = byteAt 0 (s.core k).dmem e) ∧
    structs (.vlds2 k q v a b m) 2 ∧ structs (.vlds3 k q v a b m) 3 ∧ structs (.vlds4 k q v a b m) 4 ∧
    scatters (.vsts2 k q v a b m) 2 ∧ scatters (.vsts3 k q v a b m) 3 ∧ scatters (.vsts4 k q v a b m) 4 ∧
    (n ≠ 1 → (∀ j, act cnt j → InDmem (off j) n ∧ off j % n = 0) →
      (Does (.vgath k q v a b m) s fun t => ran t ∧ DmemKept s t k ∧
        (∀ j, act cnt j → ∃ x ∈ (t.core k).regs.inflight, x.dest = 32 + v ∧ x.due = r.bseq + 3 + j ∧ WritesOnly x n (fun i => i = j) ∧
          elemAt n x.val j = memNum s k (off j) n) ∧
        ∀ x ∈ (t.core k).regs.inflight, ∃ j, act cnt j ∧ x.due = r.bseq + 3 + j) ∧
      Does (.vscat k q v a b m) s fun t => ran t ∧ (t.core k).regs.inflight = [] ∧
        (∀ j, act cnt j → (∀ i, act cnt i → j < i → off i ≠ off j) → memNum t k (off j) n = elemAt n (r.getV v) j) ∧
        ∀ e, (∀ j, act cnt j → e < off j ∨ off j + n ≤ e) → byteAt 0 (t.core k).dmem e = byteAt 0 (s.core k).dmem e)

/-! ## Facet cores: vector operations (R205 to R227) -/

namespace Sys2Proof.Claims

open Sys2Proof.Machine

/-- A vector operation of group size 1 that the core accepts in its tail mode, with its trap bit clear (R211 to R216). -/
abbrev VecForm (s : State) (k : Nat) (o : VecOp) (ty : VType) (d a b : Nat) (m : BitVec 9) : Prop :=
  modG m = 1 ∧ modTrap m = false ∧ vecIllegal (s.core k).tail o ty d a b m = false

/-- One result of latency `lat` is under way to `Vd`: it writes the active elements of `size` bytes among the first `cnt`, and
element `j` is as `P j` says; nothing else has changed. -/
abbrev GivesV (i : Instr) (s : State) (k : Nat) (m : BitVec 9) (lat : Nat) (d : Fin 32) (size cnt : Nat) (P : Nat → Nat → Prop) : Prop :=
  GivesLate i s k fun l => ∃ x, l = [x] ∧ x.dest = 32 + d ∧ x.due = (s.core k).regs.bseq + lat ∧ x.from_ = (s.core k).regs.bseq ∧
    WritesOnly x size (Active (s.core k) (modSel m) cnt) ∧ ∀ j, Active (s.core k) (modSel m) cnt j → P j (elemAt size x.val j)

/-- The signed components of an element (R209): one, or the real and imaginary ones of a complex element. -/
def comps (ty : VType) (x : Nat) : List Int :=
  if ty.cplx then [toSigned ty.comp x, toSigned ty.comp (x / 2 ^ ty.comp)] else [toSigned ty.comp x]

/-- An exact result as an element holds it: saturated, or its low bits (R221). -/
def fit (w : Nat) (sat : Bool) (z : Int) : Int := if sat then clampInt (-(2 ^ (w - 1))) (2 ^ (w - 1) - 1) z else Int.bmod z (2 ^ w)

/-- Every component of `r` is the exact result of `f` on those of `x` and `y`, fitted. -/
abbrev ByComp (ty : VType) (sat : Bool) (f : Int → Int → Int) (x y r : Nat) : Prop :=
  comps ty r = List.zipWith (fun u v => fit ty.comp sat (f u v)) (comps ty x) (comps ty y)

/-- Element `j` of a register. -/
def elemOf (s : State) (k : Nat) (ty : VType) (v : Fin 32) (j : Nat) : Nat := elemAt ty.size ((s.core k).regs.getV v) j

end Sys2Proof.Claims

/-- Integer vector operations of one register (R220 to R224), with the trap bit clear: each active element of the result is the
exact value per component, saturated or wrapped where the operation saturates, and inactive elements are not written. -/
def Obligations.VectorInteger : Prop :=
  ∀ (k : CoreId) (sl : Bool) (ty : VType) (d a b : Fin 32) (m : BitVec 9) (s : State), QuietCore s k →
    let q := some quietIssue
    let sat := modSat m
    let x := elemOf s k ty a
    let y := elemOf s k ty b
    let gives := fun (o : VecOp) (i : Instr) (lat : Nat) (P : Nat → Nat → Prop) =>
      VecForm s k o ty d a b m → GivesV i s k m lat d ty.size ty.per P
    gives .vadd (.vadd k q sl ty d a b m) 2 (fun j => ByComp ty sat (fun u v => u + v) (x j) (y j)) ∧
    gives .vsub (.vsub k q sl ty d a b m) 2 (fun j => ByComp ty sat (fun u v => u - v) (x j) (y j)) ∧
    gives .vneg (.vneg k q sl ty d a b m) 2 (fun j => ByComp ty sat (fun u _ => -u) (x j) (x j)) ∧
    gives .vabs (.vabs k q sl ty d a b m) 2 (fun j => ByComp ty sat (fun u _ => |u|) (x j) (x j)) ∧
    gives .vmin (.vmin k q sl ty d a b m) 2 (fun j => ByComp ty sat (fun u v => min u v) (x j) (y j)) ∧
    gives .vmax (.vmax k q sl ty d a b m) 2 (fun j => ByComp ty sat (fun u v => max u v) (x j) (y j)) ∧
    gives .vand (.vand k q sl ty d a b m) 2 (fun j r => r = x j &&& y j) ∧
    gives .vor (.vor k q sl ty d a b m) 2 (fun j r => r = x j ||| y j) ∧
    gives .vxor (.vxor k q sl ty d a b m) 2 (fun j r => r = x j ^^^ y j) ∧
    gives .vandn (.vandn k q sl ty d a b m) 2 (fun j r => r = x j &&& (2 ^ ty.comp - 1 - y j)) ∧
    gives .vshl (.vshl k q sl ty d a b m) 2 (fun j => ByComp ty sat (fun u _ => u * 2 ^ b.val) (x j) (x j)) ∧
    gives .vshr (.vshr k q sl ty d a b m) 2 (fun j => ByComp ty sat (fun u _ => roundShift (modRound m) b u) (x j) (x j)) ∧
    gives .vshru (.vshru k q sl ty d a b m) 2 (fun j r => r = x j / 2 ^ b.val) ∧
    gives .vconj (.vconj k q sl ty d a b m) 2 (fun j r => ∃ u v, comps ty (x j) = [u, v] ∧ comps ty r = [u, fit ty.comp sat (-v)]) ∧
    gives .vcmulj (.vcmulj k q sl ty d a b m) 2 (fun j r => ∃ u v, comps ty (x j) = [u, v] ∧ comps ty r = [fit ty.comp sat (-v), u]) ∧
    gives .vmulq (.vmulq k q sl ty d a b m) 4
      (fun j => ByComp ty sat (fun u v => roundShift (modRound m) (ty.comp - 1) (u * v)) (x j) (y j)) ∧
    (ty = .ci16 → gives .vcmulq (.vcmulq k q sl d a b m) 4 (fun j r => ∃ u v w z, comps ty (x j) = [u, v] ∧ comps ty (y j) = [w, z] ∧
      comps ty r = [fit 16 sat (roundShift (modRound m) 15 (u * w - v * z)), fit 16 sat (roundShift (modRound m) 15 (u * z + v * w))])) ∧
    (ty = .ci16 → gives .vcmulqc (.vcmulqc k q sl d a b m) 4 (fun j r => ∃ u v w z, comps ty (x j) = [u, v] ∧ comps ty (y j) = [w, z] ∧
      comps ty r = [fit 16 sat (roundShift (modRound m) 15 (u * w + v * z)), fit 16 sat (roundShift (modRound m) 15 (v * w - u * z))]))

/-- Complex multiply-accumulate (R205, R225): 16 products of ci16 elements, or of elements with one scalar, replace or are added
to the accumulator pair Vd and Vd+1, saturated per component; an inactive element is not written.  Nothing else
changes but the pipe's own copy of the accumulator. -/
def Obligations.ComplexMac : Prop :=
  ∀ (k : CoreId) (sl : Bool) (d a b : Fin 32) (m : BitVec 9) (s : State), QuietCore s k →
    let q := some quietIssue
    let r := (s.core k).regs
    let c := fun (j : Nat) => ci16Of (elemAt 4 (r.getV a) j)
    let e := fun (j : Nat) => ci16Of (elemAt 4 (r.getV b) j)
    let g := ci16Of ((r.getG b).toNat % 2 ^ 32)
    let old := fun (j : Nat) => ci32Of (pairElem 8 (r.getV d) (r.getV (d + 1)) j)
    let gives := fun (o : VecOp) (i : Instr) (f : Nat → Int × Int) => VecForm s k o .ci16 d a b m →
      GivesLate i s k fun l => ∃ x y, l = [x, y] ∧ x.dest = 32 + d ∧ y.dest = 32 + d + 1 ∧ x.due = r.bseq + 4 ∧ y.due = r.bseq + 4 ∧
        WritesOnly x 8 (Active (s.core k) (modSel m) 16) ∧ WritesOnly y 8 (fun j => Active (s.core k) (modSel m) 16 (j + 8)) ∧
        ∀ j < 16, Active (s.core k) (modSel m) 16 j →
          ci32Of (pairElem 8 x.val y.val j) = (fit 32 true (f j).1, fit 32 true (f j).2)
    gives .cmul (.cmul k q sl d a b m) (fun j => ((c j).1 * (e j).1 - (c j).2 * (e j).2, (c j).1 * (e j).2 + (c j).2 * (e j).1)) ∧
    gives .cmulc (.cmulc k q sl d a b m) (fun j => ((c j).1 * (e j).1 + (c j).2 * (e j).2, (c j).2 * (e j).1 - (c j).1 * (e j).2)) ∧
    gives .cmac (.cmac k q sl d a b m) (fun j => ((old j).1 + (c j).1 * (e j).1 - (c j).2 * (e j).2,
      (old j).2 + (c j).1 * (e j).2 + (c j).2 * (e j).1)) ∧
    gives .cmacc (.cmacc k q sl d a b m) (fun j => ((old j).1 + (c j).1 * (e j).1 + (c j).2 * (e j).2,
      (old j).2 + (c j).2 * (e j).1 - (c j).1 * (e j).2)) ∧
    gives .cmacs (.cmacs k q sl d a b m) (fun j => ((old j).1 + (c j).1 * g.1 - (c j).2 * g.2, (old j).2 + (c j).1 * g.2 + (c j).2 * g.1)) ∧
    gives .cmacsc (.cmacsc k q sl d a b m) (fun j => ((old j).1 + (c j).1 * g.1 + (c j).2 * g.2, (old j).2 + (c j).2 * g.1 - (c j).1 * g.2))

/-- Conversions between element sizes, sums, selections and vector length (R209, R212, R214, R223).  VNARROW and VCNARROW round
and saturate the elements of a pair; VCWIDEN scales them into a pair; VCRSUM gives the rounded sum of the active elements;
compares give one mask bit per element and 0 elsewhere; VSEL, VSPLAT and VSLIDE move elements; SETVL bounds VL. -/
def Obligations.VectorShape : Prop :=
  ∀ (k : CoreId) (sl : Bool) (ty : VType) (d a b : Fin 32) (m : BitVec 9) (s : State), QuietCore s k →
    let q := some quietIssue
    let r := (s.core k).regs
    let rnd := modRound m
    let x := elemOf s k ty a
    let y := elemOf s k ty b
    let act := Active (s.core k) (modSel m)
    let pr := fun (j : Nat) => ci32Of (pairElem 8 (r.getV a) (r.getV (a + 1)) j)
    let sum := fun (f : Int × Int → Int) => (((List.range 16).filter fun j =>
      decide ((s.core k).tail ≠ 0 ∨ j < r.vl) && (decide ((s.core k).tail = 0 ∨ modSel m = 0) || (r.getM (modSel m)).getLsbD j)).map
        fun j => f (pr j)).sum
    let cmp := fun (o : VecOp) (i : Instr) (P : Int → Int → Prop) => VecForm s k o ty d a b m → ty ≠ .fp16 → ty ≠ .fp32 →
      GivesLate i s k fun l => ∃ z, l = [z] ∧ z.dest = 64 + d ∧ z.due = r.bseq + 2 ∧ z.mask = BitVec.allOnes 512 ∧
        ∀ j < 512, z.val.getLsbD j = true ↔ act ty.per j ∧ P (toSigned ty.comp (x j)) (toSigned ty.comp (y j))
    (VecForm s k .vnarrow .i32 d a b m → GivesV (.vnarrow k q sl d a b m) s k m 2 d 2 32 fun j v =>
      toSigned 16 v = fit 16 true (roundShift rnd b (toSigned 32 (pairElem 4 (r.getV a) (r.getV (a + 1)) j)))) ∧
    (VecForm s k .vcnarrow .ci32 d a b m → GivesV (.vcnarrow k q sl d a b m) s k m 2 d 4 16 fun j v =>
      ci16Of v = (fit 16 true (roundShift rnd b (pr j).1), fit 16 true (roundShift rnd b (pr j).2))) ∧
    (VecForm s k .vcwiden .ci16 d a b m → GivesLate (.vcwiden k q sl d a b m) s k fun l => ∃ u v, l = [u, v] ∧ u.dest = 32 + d ∧
      v.dest = 32 + d + 1 ∧ u.due = r.bseq + 2 ∧ v.due = r.bseq + 2 ∧ WritesOnly u 8 (fun j => act 16 j) ∧
      WritesOnly v 8 (fun j => act 16 (j + 8)) ∧ ∀ j, act 16 j → ci32Of (pairElem 8 u.val v.val j) =
        ((ci16Of (elemAt 4 (r.getV a) j)).1 * 2 ^ b.val, (ci16Of (elemAt 4 (r.getV a) j)).2 * 2 ^ b.val)) ∧
    (VecForm s k .vcrsum .ci32 d a b m → GivesLate (.vcrsum k q sl d a b m) s k fun l => ∃ v : W64, l = [lateG s k 4 d v] ∧
      ci32Of v.toNat = (fit 32 true (roundShift rnd b (sum fun z => z.1)), fit 32 true (roundShift rnd b (sum fun z => z.2)))) ∧
    cmp .vcmpeq (.vcmpeq k q sl ty d a b m) (fun u v => u = v) ∧ cmp .vcmplt (.vcmplt k q sl ty d a b m) (fun u v => u < v) ∧
    cmp .vcmple (.vcmple k q sl ty d a b m) (fun u v => u ≤ v) ∧
    (VecForm s k .vsel ty d a b m → GivesV (.vsel k q sl ty d a b m) s k 0 2 d ty.size ty.per fun j v =>
      v = if (r.getM (modSel m)).getLsbD j then x j else y j) ∧
    (VecForm s k .vsplat ty d a b m → GivesV (.vsplat k q sl ty d a b m) s k m 2 d ty.size ty.per fun _ v =>
      v = (r.getG a).toNat % 2 ^ (8 * ty.size)) ∧
    (∀ n : Fin 64, VecForm s k (.vslide n) ty d a b m → GivesV (.vslide k q sl ty d a b n m) s k m 2 d ty.size ty.per fun j v =>
      v = if j + n.val < ty.per then x (j + n.val) else y (j + n.val - ty.per)) ∧
    (VecForm s k .setvl ty d a 0 m → Does (.setvl k q sl ty d a m) s fun t => Ran s t k ∧
      (t.core k).regs.vl = min (r.getG a).toNat ty.per ∧ (t.core k).regs.getG d = BitVec.ofNat 64 (min (r.getG a).toNat ty.per) ∧
      (∀ i, i ≠ d.val → (t.core k).regs.getG i = r.getG i) ∧ (∀ i, (t.core k).regs.getV i = r.getV i) ∧
      (∀ i, (t.core k).regs.getM i = r.getM i) ∧ (∀ i, (t.core k).regs.getC i = r.getC i) ∧ (t.core k).regs.inflight = [] ∧
      NextAt t k (r.pc + 16) none ∧ DmemKept s t k ∧ SameExcept [.facet] s t)

/-- Mask operations (R223): bitwise over 512 bits, with latency 1; MLEN sets the low bits; MPOPC counts into Gd. -/
def Obligations.MaskOperations : Prop :=
  ∀ (k : CoreId) (sl : Bool) (d a b : Fin 32) (m : BitVec 9) (s : State), QuietCore s k →
    let q := some quietIssue
    let r := (s.core k).regs
    let x := r.getM a
    let y := r.getM b
    let z := r.getM (modSel m)
    let gives := fun (o : VecOp) (i : Instr) (v : W512) => VecForm s k o .i8 d a b m →
      Does i s fun t => Ran s t k ∧ (t.core k).regs.getM d = v ∧ (∀ j, j ≠ d.val → (t.core k).regs.getM j = r.getM j) ∧
        (∀ j, (t.core k).regs.getG j = r.getG j) ∧ (∀ j, (t.core k).regs.getV j = r.getV j) ∧ (∀ j, (t.core k).regs.getC j = r.getC j) ∧
        (t.core k).regs.vl = r.vl ∧ (t.core k).regs.inflight = [] ∧ NextAt t k (r.pc + 16) none ∧ DmemKept s t k ∧ SameExcept [.facet] s t
    gives .mand (.mand k q sl d a b m) (x &&& y) ∧ gives .mor (.mor k q sl d a b m) (x ||| y) ∧
    gives .mxor (.mxor k q sl d a b m) (x ^^^ y) ∧ gives .mandn (.mandn k q sl d a b m) (x &&& ~~~y) ∧
    gives .mnot (.mnot k q sl d a b m) (~~~x) ∧ gives .msel (.msel k q sl d a b m) ((x &&& z) ||| (y &&& ~~~z)) ∧
    gives .mlen (.mlen k q sl d a b m) (BitVec.ofNat 512 (2 ^ min (r.getG a).toNat 512 - 1)) ∧
    (VecForm s k .mpopc .i8 d a b m → GivesG (.mpopc k q sl d a b m) s k d
      (BitVec.ofNat 64 ((List.range 512).filter fun i => x.getLsbD i).length))

/-- Floating point (R226, R227): exact values rounded once to the format, with the trap bit clear.  A scalar operation works on
the low 32 bits of V registers and writes the low 64 bits of Vd, its compares and FMVFG a G register. -/
def Obligations.FloatingPoint : Prop :=
  ∀ (k : CoreId) (sl : Bool) (ty : VType) (d a b : Fin 32) (m : BitVec 9) (s : State), QuietCore s k →
    let q := some quietIssue
    let r := (s.core k).regs
    let f := fun (v : Fin 32) (j : Nat) => decodeF ty.fmt (elemOf s k ty v j)
    let gives := fun (o : VecOp) (i : Instr) (e : Nat → FVal × Bool) => VecForm s k o ty d a b m →
      GivesV i s k m 4 d ty.size ty.per fun j v => v = (fResult ty.fmt (e j)).1
    let w := fun (v : Fin 32) => decodeF fmt32 ((r.getV v).toNat % 2 ^ 32)
    let legal := modRound m = 0 ∧ modG m = 1 ∧ modTrap m = false ∧ ((s.core k).tail = 0 → modSel m = 0)
    let low := fun (i : Instr) (lat v : Nat) => legal → GivesLate i s k fun l => ∃ x, l = [x] ∧ x.dest = 32 + d ∧ x.due = r.bseq + lat ∧
      (∀ j < 512, x.mask.getLsbD j = decide (j < 64)) ∧ x.val.toNat % 2 ^ 64 = v
    gives .vfadd (.vfadd k q sl ty d a b m) (fun j => fAdd (f a j) (f b j)) ∧
    gives .vfsub (.vfsub k q sl ty d a b m) (fun j => fAdd (f a j) (fNeg (f b j))) ∧
    gives .vfmul (.vfmul k q sl ty d a b m) (fun j => fMul (f a j) (f b j)) ∧
    gives .vfmin (.vfmin k q sl ty d a b m) (fun j => fMinMax false (f a j) (f b j)) ∧
    gives .vfmax (.vfmax k q sl ty d a b m) (fun j => fMinMax true (f a j) (f b j)) ∧
    gives .vfma (.vfma k q sl ty d a b m) (fun j => fFma (f d j) (f a j) (f b j)) ∧
    (∀ u : VType, VecForm s k (.vfcvt u) ty d a 0 m → GivesV (.vfcvt k q sl ty u d a m) s k m 4 d u.size 16 fun j v =>
      v = (convert ty u (modRound m) (elemOf s k ty a j)).1) ∧
    low (.fadd k q sl d a b m) 4 (fResult fmt32 (fAdd (w a) (w b))).1 ∧
    low (.fsub k q sl d a b m) 4 (fResult fmt32 (fAdd (w a) (fNeg (w b)))).1 ∧
    low (.fmul k q sl d a b m) 4 (fResult fmt32 (fMul (w a) (w b))).1 ∧
    low (.fma k q sl d a b m) 4 (fResult fmt32 (fFma (w d) (w a) (w b))).1 ∧
    (legal → GivesLate (.fcmplt k q sl d a b m) s k fun l => l = [lateG s k 2 d (if fLt (w a) (w b) = some true then 1 else 0)]) ∧
    (legal → GivesLate (.fcmpeq k q sl d a b m) s k fun l => l = [lateG s k 2 d (if fEq (w a) (w b) = some true then 1 else 0)]) ∧
    (legal → GivesLate (.fcmple k q sl d a b m) s k fun l =>
      l = [lateG s k 2 d (if fLt (w a) (w b) = some true ∨ fEq (w a) (w b) = some true then 1 else 0)]) ∧
    (legal → Does (.fmvgf k q sl d a b m) s fun t => Ran s t k ∧ (t.core k).regs.inflight = [] ∧
      (∀ j < 512, ((t.core k).regs.getV d).getLsbD j = if j < 64 then (r.getG a).getLsbD j else (r.getV d).getLsbD j) ∧
      (∀ j, j ≠ d.val → (t.core k).regs.getV j = r.getV j) ∧ (∀ j, (t.core k).regs.getG j = r.getG j) ∧
      (∀ j, (t.core k).regs.getM j = r.getM j) ∧ (∀ j, (t.core k).regs.getC j = r.getC j) ∧ NextAt t k (r.pc + 16) none ∧
      DmemKept s t k ∧ SameExcept [.facet] s t) ∧
    (legal → GivesG (.fmvfg k q sl d a b m) s k d ((r.getV a).setWidth 64))

/-- The attached units (R240 to R260).  A command is accepted in its bundle and its destination registers stay marked until its
write cycle, which lies behind the unit's last; a command's write puts its registers into place and, without an error, leaves
the error record; UERRD and UERRS return the record and clear it. -/
def Obligations.AttachedUnits : Prop :=
  (∀ (k : CoreId) (sl : Bool) (d a b : Fin 32) (m : BitVec 9) (s : State), QuietCore s k →
    let q := some quietIssue
    let r := (s.core k).regs
    let accepts := fun (o : UnitOp) (i : Instr) (d a b : Fin 32) (m : BitVec 9) (solve readErr : Bool) =>
      unitIllegal (s.core k).tail o d a b m = false → Does i s fun t => Ran s t k ∧ DmemKept s t k ∧
        (∃ c, (t.core k).regs.cmds = [c] ∧ c.solve = solve ∧ c.readErr = readErr ∧ c.dest = d.val ∧ c.addr = r.pc ∧
          c.board = unitDests o d m ∧ (s.core k).cycle < c.w ∧ (if solve then r.solveW else r.demapW) < c.w ∧
          (if solve then (t.core k).regs.solveW else (t.core k).regs.demapW) = c.w) ∧
        (∀ j, (t.core k).regs.getG j = r.getG j) ∧ (∀ j, (t.core k).regs.getV j = r.getV j) ∧ (∀ j, (t.core k).regs.getC j = r.getC j) ∧
        (t.core k).regs.inflight = [] ∧ NextAt t k (r.pc + 16) none ∧ SameExcept [.facet] s t
    (r.demapW ≤ r.demapNext + 5 → accepts .dmap (.dmap k q sl d a b m) d a b m false false) ∧
    accepts .schol (.schol k q sl d a b m) d a b m true false ∧ accepts .strsl (.strsl k q sl d a b m) d a b m true false ∧
    accepts .strsu (.strsu k q sl d a b m) d a b m true false ∧ accepts .sinvh (.sinvh k q sl d a b m) d a b m true false ∧
    accepts .uerrd (.uerrd k q sl d) d 0 0 0 false true ∧ accepts .uerrs (.uerrs k q sl d) d 0 0 0 true true) ∧
  (∀ (k : CoreId) (solve : Bool) (c : UnitCmd) (s : State), (s.core k).regs.cmds = [c] → c.solve = solve → c.readErr = false →
    c.cause = 0 → (s.core k).dbg.halted = false →
    Does (.unitResultWrite k solve) s fun t => t.core k = { s.core k with
        regs := { c.writes.foldl applyRes (s.core k).regs with cmds := [] }, cycle := max (s.core k).cycle (c.w + 1) } ∧
      (∀ j, j ≠ k.val → t.core j = s.core j) ∧ SameExcept [.facet] s t) ∧
  (∀ (k : CoreId) (c : UnitCmd) (s : State), (s.core k).regs.cmds = [c] → c.solve = true → c.readErr = true →
    Does (.unitResultWrite k true) s fun t => (t.core k).regs.getG c.dest = (s.core k).regs.solveRec ∧ (t.core k).regs.solveRec = 0 ∧
      (t.core k).regs.cmds = [] ∧ (∀ j, j ≠ c.dest → (t.core k).regs.getG j = (s.core k).regs.getG j) ∧ SameExcept [.facet] s t) ∧
  ∀ (k : CoreId) (solve : Bool) (s : State), (∀ c ∈ (s.core k).regs.cmds, c.solve ≠ solve) → Idle (.unitResultWrite k solve) s

/-! ## Mill (R263 to R300) -/

namespace Sys2Proof.Claims

open Sys2Proof.Machine

/-- The slice's decision trace is off (R297). -/
abbrev NoTrace (s : State) (slc : Nat) : Prop := s.paramMill slc 0x080D slc = 0

/-- No slice but `slc` has changed. -/
abbrev OtherSlices (s t : State) (slc : Nat) : Prop := ∀ j, j ≠ slc → t.slc j = s.slc j

/-- A slice after a vote on which its three copies agreed: no copy is excluded, and a run of failures ends (R292, R293). -/
abbrev Agreed (s : State) (slc : Nat) : Slice := { s.slc slc with excluded := none, fails := 0 }

/-- The vote is all that changed. -/
abbrev OnlyAgreed (s t : State) (slc : Nat) : Prop := t.slc slc = Agreed s slc ∧ OtherSlices s t slc ∧ SameExcept [.mill] s t

/-- No item on its way to the slice as a thief and no tier change that it must have taken by now (R280, R287). -/
abbrev NoneArriving (s : State) (slc : Nat) : Prop :=
  mapGet? s.mill.grants slc = none ∧ ∀ m ∈ s.mill.tierMsgs, m.slc = slc → reached s.now (m.at_ + 3932) = false

/-- An item whose completion or loss touches no other: it heads no flow and has no successor. -/
abbrev Alone (it : Item) : Prop := dAtomic it.desc = false ∧ dSucc it.desc = []

/-- No item but `q` of the slice has changed. -/
abbrev OtherItems (s t : State) (slc q : Nat) : Prop :=
  ∀ j, j ≠ q → mapGet? (t.slc slc).items j = mapGet? (s.slc slc).items j

/-- A decision's due actions change nothing: the slice's one class-`c` item has no deadline and does not age (R277, R278). -/
abbrev Settled (s : State) (slc : Nat) (it : Item) : Prop :=
  dHasDeadline it.desc = false ∧ it.cls ≤ 6 ∧ (it.cls ≤ 5 → s.param 0x0802 (slc * 6 + it.cls) = 0)

/-- The slice makes decisions (R295, R549). -/
abbrev Decides (s : State) (slc : Nat) : Prop := s.boot.devState ≠ 4 ∧ millWithdrawn s slc = false

/-- The unit is the first of the item's eligible units that is idle (R274, R276). -/
abbrev FirstIdle (s : State) (slc : Nat) (it : Item) (k : Nat) : Prop :=
  (eligible slc it.desc).find? (fun u => unitIdle s u) = some k

/-- The slice reported nothing of carrier `c` at the end of slot `slot`: it holds no miss up to there. -/
abbrev NoMiss (s : State) (c : Nat) (slot : Int) : Prop :=
  ∀ i, i < 4 → ((s.slc i).misses.filter fun m => m.1 = c && decide (m.2.1 ≤ slot)) = []

end Sys2Proof.Claims

/-- How items reach a slice and become ready (R267 to R269, R271, R272), with tracing off.  An access that R267 does not allow
is counted; a descriptor that passes the checks joins the slice and is ready, or parked where its counter is not 0; a refused
one is reported; a SET gives a counter its count and status OK; a decrement of a counter at 0 is reported, of one above it
takes 1 and the worse status, and at 0 the items parked there are ready with the counter's status; a flow entry that can be
read and arrives moves the flow's item into the ready set.  Where a row names a vote, the copies agree. -/
def Obligations.MillQueues : Prop :=
  (∀ (slc : SliceId) (src : Fin 1024) (b : List Byte) (s : State), millSource s src 65535 = false ∨ b.length ≠ 64 →
    Does (.enqueue slc src b) s fun t => t.slc slc = { s.slc slc with badAccess := min ((s.slc slc).badAccess + 1) (2 ^ 32 - 1) } ∧
      OtherSlices s t slc ∧ SameExcept [.mill] s t) ∧
  (∀ (slc : SliceId) (src : Fin 1024) (b : List Byte) (s : State), millSource s src 65535 = true → b.length = 64 → NoTrace s slc →
    refusal s slc (heldDesc b) = 0 → dHasDeadline (heldDesc b) = false → dAtomic (heldDesc b) = false → dWait (heldDesc b) = none →
    Does (.enqueue slc src b) s fun t => t.slc slc = { s.slc slc with
        nextSeq := (s.slc slc).nextSeq + 1,
        items := mapSet (s.slc slc).items (s.slc slc).nextSeq
          { desc := heldDesc b, place := 3, cls := dClass (heldDesc b), readyAt := s.now, classAt := s.now } } ∧
      OtherSlices s t slc ∧ SameExcept [.mill] s t) ∧
  (∀ (slc : SliceId) (src : Fin 1024) (b : List Byte) (n : Nat) (s : State), millSource s src 65535 = true → b.length = 64 →
    NoTrace s slc → refusal s slc (heldDesc b) = 0 → dHasDeadline (heldDesc b) = false → dWait (heldDesc b) = some n →
    ((s.slc slc).counter n).count ≠ 0 →
    Does (.enqueue slc src b) s fun t => t.slc slc = { s.slc slc with
        nextSeq := (s.slc slc).nextSeq + 1,
        items := mapSet (s.slc slc).items (s.slc slc).nextSeq
          { desc := heldDesc b, place := 0, cls := dClass (heldDesc b), classAt := s.now } } ∧
      OtherSlices s t slc ∧ SameExcept [.mill] s t) ∧
  (∀ (slc : SliceId) (src : Fin 1024) (b : List Byte) (s : State), millSource s src 65535 = true → b.length = 64 → NoTrace s slc →
    refusal s slc (heldDesc b) ≠ 0 → dSucc (heldDesc b) = [] → mapGet? s.ev.rate (rateKey 0x0806 slc) = none → Room 1 s →
    Does (.enqueue slc src b) s fun t =>
      t.ev.queue = s.ev.queue ++ [{
        cls := 5, inst := slc, code := 0x0806, sev := 2,
        detail := leBytes 1 slc ++ leBytes 1 (refusal s slc (heldDesc b)) ++ leBytes 4 1 }] ∧ SameExcept [.ev] s t) ∧
  (∀ (k : Fin 65536) (n : BitVec 16) (src : Fin 1024) (s : State), millSource s src 65535 = true → n ≠ 0 →
    Does (.counterSet k n ⟨src, .agree⟩) s fun t => (t.slc (k / 16384)).counter k = { count := n.toNat, status := 0 } ∧
      (∀ j, j % 16384 ≠ k % 16384 → (t.slc (k / 16384)).counter j = (s.slc (k / 16384)).counter j) ∧
      (t.slc (k / 16384)).items = (s.slc (k / 16384)).items ∧ OtherSlices s t (k / 16384) ∧ SameExcept [.mill] s t) ∧
  (∀ (k : Fin 65536) (n : BitVec 16) (src : Fin 1024) (s : State), millSource s src 65535 = false →
    Does (.counterSet k n ⟨src, .agree⟩) s fun t => t.slc (k / 16384) =
        { Agreed s (k / 16384) with badAccess := min ((s.slc (k / 16384)).badAccess + 1) (2 ^ 32 - 1) } ∧
      OtherSlices s t (k / 16384) ∧ SameExcept [.mill] s t) ∧
  (∀ (k : Fin 65536) (src : Fin 1024) (q : Nat) (it : Item) (s : State), millSource s src 65535 = true → NoTrace s (k / 16384) →
    parkedOn (s.slc (k / 16384)) k = [q] → mapGet? (s.slc (k / 16384)).items q = some it → dAtomic it.desc = false →
    Does (.counterSet k 0 ⟨src, .agree⟩) s fun t => (t.slc (k / 16384)).counter k = {} ∧
      mapGet? (t.slc (k / 16384)).items q = some { it with place := 3, input := 0, readyAt := s.now, classAt := s.now } ∧
      OtherItems s t (k / 16384) q ∧ OtherSlices s t (k / 16384) ∧ SameExcept [.mill] s t) ∧
  (∀ (k : Fin 65536) (st src : Fin 4) (s : State), ((s.slc (k / 16384)).counter k).count = 0 → Room 1 s →
    Does (.counterDecrement k st ⟨src, .agree⟩) s fun t => Raised s t 5 (k / 16384) 0x0807 2 (leBytes 2 k ++ leBytes 1 src) ∧
      t.slc (k / 16384) = Agreed s (k / 16384) ∧ OtherSlices s t (k / 16384) ∧ SameExcept [.mill, .ev] s t) ∧
  (∀ (k : Fin 65536) (st src : Fin 4) (s : State), 1 < ((s.slc (k / 16384)).counter k).count →
    Does (.counterDecrement k st ⟨src, .agree⟩) s fun t => (t.slc (k / 16384)).counter k =
        { count := ((s.slc (k / 16384)).counter k).count - 1, status := max ((s.slc (k / 16384)).counter k).status st } ∧
      (∀ j, j % 16384 ≠ k % 16384 → (t.slc (k / 16384)).counter j = (s.slc (k / 16384)).counter j) ∧
      (t.slc (k / 16384)).items = (s.slc (k / 16384)).items ∧ OtherSlices s t (k / 16384) ∧ SameExcept [.mill] s t) ∧
  (∀ (k : Fin 65536) (st src : Fin 4) (q : Nat) (it : Item) (s : State), ((s.slc (k / 16384)).counter k).count = 1 →
    NoTrace s (k / 16384) → parkedOn (s.slc (k / 16384)) k = [q] → mapGet? (s.slc (k / 16384)).items q = some it →
    dAtomic it.desc = false →
    Does (.counterDecrement k st ⟨src, .agree⟩) s fun t =>
      (t.slc (k / 16384)).counter k = { count := 0, status := max ((s.slc (k / 16384)).counter k).status st } ∧
      mapGet? (t.slc (k / 16384)).items q = some { it with
        place := 3, readyAt := s.now, classAt := s.now, input := max ((s.slc (k / 16384)).counter k).status st } ∧
      OtherItems s t (k / 16384) q ∧ OtherSlices s t (k / 16384) ∧ SameExcept [.mill] s t) ∧
  (∀ (slc : SliceId) (f : Fin 8388608) (s : State), f.val ∉ (s.slc slc).fetching →
    Does (.flowEntryFetched slc ⟨f, .agree⟩) s fun t => OnlyAgreed s t slc) ∧
  ∀ (slc : SliceId) (f : Fin 8388608) (q : Nat) (it : Item) (s : State), f.val ∈ (s.slc slc).fetching →
    f.val ∉ (s.slc slc).flows → (s.slc slc).flows.length < 16384 → (s.slc slc).items = [(q, it)] → it.place = 2 →
    dFlow it.desc = f → dAtomic it.desc = true → ((flowAddr s slc f).bind fun a => extRead s a 8).isSome = true →
    Does (.flowEntryFetched slc ⟨f, .agree⟩) s fun t => t.slc slc = { Agreed s slc with
        flows := f.val :: (s.slc slc).flows, fetching := (s.slc slc).fetching.filter (fun g => g ≠ f),
        items := [(q, { it with place := 3 })] } ∧
      OtherSlices s t slc ∧ SameExcept [.mill] s t

/-- Dispatch, ageing, urgency, late policies and stealing (R273 to R285, R292 to R294), with tracing off.  A decision on which
the copies agree delivers the ready item to the first idle unit that its masks name, the higher class first; with nothing to
deliver, an idle core and stealing on, the slice asks the next slice; a copy that disagrees is excluded, and one on which no
two agree is discarded, as is any other decision of the slice.  A request that finds nothing goes round until it is back at its
thief; one that finds an item sends it, and the thief delivers it; a slice answers one for each of its decisions.  Ageing adds
one to the class; the urgency horizon gives class 7; a late item is kept, dropped or degraded as its policy says, and counts as
a miss of its carrier. -/
def Obligations.MillDispatch : Prop :=
  (∀ (slc : SliceId) (q k : Nat) (it : Item) (s : State), NoTrace s slc → Decides s slc → (s.slc slc).items = [(q, it)] →
    it.place = 3 → Settled s slc it → NoneArriving s slc → FirstIdle s slc it k → dEstimate it.desc = false →
    Does (.dispatchDecision slc .agree .none) s fun t =>
      (t.slc slc) = { Agreed s slc with answered := false, items := [(q, { it with place := 4, unit := k })] } ∧
      t.mill.deliveries = mapSet s.mill.deliveries k (deliveredCopy s slc it) ∧ OtherSlices s t slc ∧
      t.power = { s.power with idleFrom := t.power.idleFrom } ∧ SameExcept [.mill, .power] s t) ∧
  (∀ (slc : SliceId) (q q' k : Nat) (it it' : Item) (s : State), NoTrace s slc → Decides s slc → q < q' →
    (s.slc slc).items = [(q, it), (q', it')] → it.place = 3 → it'.place = 3 → Settled s slc it → Settled s slc it' →
    it.cls < it'.cls → NoneArriving s slc → FirstIdle s slc it' k → dEstimate it'.desc = false →
    Does (.dispatchDecision slc .agree .none) s fun t => (t.slc slc) = { s.slc slc with
        excluded := none, fails := 0, answered := false, items := [(q, it), (q', { it' with place := 4, unit := k })] } ∧
      t.mill.deliveries = mapSet s.mill.deliveries k (deliveredCopy s slc it') ∧ OtherSlices s t slc ∧
      t.power = { s.power with idleFrom := t.power.idleFrom } ∧ SameExcept [.mill, .power] s t) ∧
  (∀ (slc : SliceId) (n : Nat) (s : State), Decides s slc → (s.slc slc).items = [] → s.param 0x0808 slc = 1 →
    (idleMasks s slc).1 ≠ 0 → (∀ r ∈ s.mill.stealReqs, r.thief ≠ slc.val) → NoneArriving s slc →
    Does (.dispatchDecision slc .agree (.corrected n)) s fun t => t.slc slc = { s.slc slc with
        excluded := none, fails := 0, answered := false, sramCorrected := min ((s.slc slc).sramCorrected + n) (2 ^ 32 - 1) } ∧
      t.mill.stealReqs = s.mill.stealReqs ++ [{
        thief := slc, victim := (slc + 1) % 4, clusters := (idleMasks s slc).1, units := (idleMasks s slc).2 }] ∧
      OtherSlices s t slc ∧ SameExcept [.mill] s t) ∧
  (∀ (slc : SliceId) (k : Fin 3) (s : State), Decides s slc → (s.slc slc).items = [] → s.param 0x0808 slc ≠ 1 →
    excludedCopy s slc = none → NoneArriving s slc → Room 1 s →
    Does (.dispatchDecision slc (.copy k) .none) s fun t =>
      t.slc slc = { s.slc slc with excluded := some k.val, excludedAt := s.now, fails := 0, answered := false } ∧
      Raised s t 5 slc 0x0803 1 (leBytes 1 slc ++ leBytes 1 k.val) ∧ OtherSlices s t slc ∧ SameExcept [.mill, .ev] s t) ∧
  (∀ (slc : SliceId) (s : State), (s.slc slc).fails < 2 → Room 1 s →
    Does (.dispatchDecision slc .fail .none) s fun t => t.slc slc = { s.slc slc with fails := (s.slc slc).fails + 1 } ∧
      Raised s t 5 slc 0x0804 3 (leBytes 1 slc ++ leBytes 1 ((s.slc slc).fails + 1)) ∧ OtherSlices s t slc ∧
      SameExcept [.mill, .ev] s t) ∧
  (∀ (slc : SliceId) (q : Nat) (k : Fin 65536) (n : BitVec 16) (st : Fin 4) (src : Fin 1024) (o : Fin 4) (f : Fin 8388608) (i : Instr)
    (s : State), k.val / 16384 = slc.val → (s.slc slc).fails < 2 → Room 1 s →
    i ∈ [Instr.counterSet k n ⟨src, .fail⟩, .counterDecrement k st ⟨o, .fail⟩, .flowEntryFetched slc ⟨f, .fail⟩, .stealRequest ⟨slc, .fail⟩,
      .promotion slc ⟨q, .fail⟩, .urgencyEntry slc ⟨q, .fail⟩, .late slc ⟨q, .fail⟩] →
    Does i s fun t => t.slc slc = { s.slc slc with fails := (s.slc slc).fails + 1 } ∧
      Raised s t 5 slc 0x0804 3 (leBytes 1 slc ++ leBytes 1 ((s.slc slc).fails + 1)) ∧ OtherSlices s t slc ∧
      SameExcept [.mill, .ev] s t) ∧
  (∀ (v : SliceId) (s : State), (∀ r ∈ s.mill.stealReqs, r.victim ≠ v.val) ∨ (s.slc v).answered = true →
    Does (.stealRequest ⟨v, .agree⟩) s fun t => OnlyAgreed s t v ∧ t.mill.stealReqs = s.mill.stealReqs) ∧
  (∀ (v : SliceId) (r : StealReq) (s : State), s.mill.stealReqs = [r] → r.victim = v.val → (s.slc v).items = [] →
    (s.slc v).answered = false → NoneArriving s v →
    Does (.stealRequest ⟨v, .agree⟩) s fun t => t.slc v = { Agreed s v with answered := true } ∧
      t.mill.stealReqs = (if (v.val + 1) % 4 = r.thief then [] else [{ r with victim := (v.val + 1) % 4 }]) ∧
      t.mill.grants = s.mill.grants ∧ OtherSlices s t v ∧ SameExcept [.mill] s t) ∧
  (∀ (v : SliceId) (r : StealReq) (q : Nat) (it : Item) (s : State), s.mill.stealReqs = [r] → r.victim = v.val →
    s.boot.devState ≠ 4 → (s.slc v).items = [(q, it)] → it.place = 3 → Settled s v it → dTarget it.desc = 0 → dSteal it.desc = true →
    dAtomic it.desc = false → stealMatch r it.desc = true → (∀ k ∈ eligible v it.desc, unitIdle s k = false) →
    (eligible r.thief it.desc).any (fun k => unitIdle s k) = true → (s.slc v).answered = false → NoneArriving s v →
    Does (.stealRequest ⟨v, .agree⟩) s fun t => t.slc v = { Agreed s v with items := [], answered := true } ∧ t.mill.stealReqs = [] ∧
      t.mill.grants = mapSet s.mill.grants r.thief (v.val, { it with stolen := true }) ∧ OtherSlices s t v ∧ SameExcept [.mill] s t) ∧
  (∀ (h : SliceId) (s : State), NoneArriving s h → (s.slc h).items = [] → Idle (.stealGrant h) s) ∧
  (∀ (h : SliceId) (v k : Nat) (it : Item) (s : State), NoTrace s h → mapGet? s.mill.grants h = some (v, it) →
    dueActions s h = s → s.boot.devState ≠ 4 → FirstIdle s h it k → dEstimate it.desc = false →
    Does (.stealGrant h) s fun t => mapGet? (t.slc h).items (s.slc h).nextSeq = some { it with place := 4, unit := k } ∧
      (t.slc h).nextSeq = (s.slc h).nextSeq + 1 ∧ OtherItems s t h (s.slc h).nextSeq ∧
      t.mill.grants = mapDel s.mill.grants h ∧ t.mill.deliveries = mapSet s.mill.deliveries k (deliveredCopy s h it) ∧
      OtherSlices s t h ∧ t.power = { s.power with idleFrom := t.power.idleFrom } ∧ SameExcept [.mill, .power] s t) ∧
  (∀ (slc : SliceId) (q : Nat) (it : Item) (s : State), NoTrace s slc → mapGet? (s.slc slc).items q = some it →
    it.place = 1 ∨ it.place = 2 ∨ it.place = 3 → it.cls ≤ 5 → s.param 0x0802 (slc * 6 + it.cls) ≠ 0 →
    reached (s.localNow 2 slc) (it.classAt + s.param 0x0802 (slc * 6 + it.cls)) = true →
    Does (.promotion slc ⟨q, .agree⟩) s fun t => mapGet? (t.slc slc).items q = some { it with
        cls := it.cls + 1, classAt := it.classAt + s.param 0x0802 (slc * 6 + it.cls) } ∧
      OtherItems s t slc q ∧ OtherSlices s t slc ∧ SameExcept [.mill] s t) ∧
  (∀ (slc : SliceId) (q : Nat) (it : Item) (s : State), mapGet? (s.slc slc).items q = some it → it.place = 0 →
    Does (.promotion slc ⟨q, .agree⟩) s fun t => OnlyAgreed s t slc) ∧
  (∀ (slc : SliceId) (q : Nat) (it : Item) (s : State), NoTrace s slc → mapGet? (s.slc slc).items q = some it → it.place ≠ 4 →
    dHasDeadline it.desc = true → it.cls ≠ 7 → dDeadline it.desc ≤ s.localNow 2 slc + s.param 0x0801 0 →
    Does (.urgencyEntry slc ⟨q, .agree⟩) s fun t => mapGet? (t.slc slc).items q = some { it with cls := 7, classAt := s.now } ∧
      OtherItems s t slc q ∧ OtherSlices s t slc ∧ SameExcept [.mill] s t) ∧
  (∀ (slc : SliceId) (q : Nat) (it : Item) (s : State), mapGet? (s.slc slc).items q = some it →
    it.place = 4 ∨ dHasDeadline it.desc = false ∨ it.late = true →
    Does (.late slc ⟨q, .agree⟩) s fun t => OnlyAgreed s t slc) ∧
  (∀ (slc : SliceId) (q : Nat) (it : Item) (s : State), NoTrace s slc → mapGet? (s.slc slc).items q = some it → it.place ≠ 4 →
    dHasDeadline it.desc = true → it.late = false → reached (s.localNow 2 slc) (dDeadline it.desc) = true → dPolicy it.desc ≠ 1 →
    dCarrier it.desc ≠ 0xFFFF →
    Does (.late slc ⟨q, .agree⟩) s fun t => (∃ i', mapGet? (t.slc slc).items q = some i' ∧ i'.cls = 7 ∧ i'.late = true ∧
        i'.degrade = (it.degrade || dPolicy it.desc = 2) ∧ i'.desc = it.desc ∧ i'.place = it.place) ∧
      (t.slc slc).misses = (s.slc slc).misses ++ [(dCarrier it.desc,
        (s.carrierTime (unitId 4 slc) (dCarrier it.desc)).slotCount (dDeadline it.desc), dPolicy it.desc)] ∧
      OtherItems s t slc q ∧ OtherSlices s t slc ∧ SameExcept [.mill] s t) ∧
  ∀ (slc : SliceId) (q : Nat) (it : Item) (s : State), NoTrace s slc → mapGet? (s.slc slc).items q = some it → it.place ≠ 4 →
    dHasDeadline it.desc = true → it.late = false → reached (s.localNow 2 slc) (dDeadline it.desc) = true → dPolicy it.desc = 1 →
    dCarrier it.desc = 0xFFFF → Alone it →
    Does (.late slc ⟨q, .agree⟩) s fun t => t.slc slc = { Agreed s slc with
        items := mapDel (s.slc slc).items q, lateCheck := bumpPolicy (s.slc slc).lateCheck 1, lateNone := bumpPolicy (s.slc slc).lateNone 1 } ∧
      OtherSlices s t slc ∧ SameExcept [.mill] s t

/-- Service tiers, reports and drain (R282, R283, R286, R287, R289, R290), with tracing off.  A slot without a miss lengthens
the carrier's run, and a run of `tier_down_slots` lowers the tier by one; a slot with a miss reports it, and `tier_up_slots` of
them raise the tier; each change is reported and sent to the other slices, which take it when it arrives.  Late items without a
carrier are reported per slice; the check action reports what the slice holds; a drain that lasts too long aborts the item, and
an aborted item not completed in time is completed for it and its core restored. The slice of a carrier is the model's choice
(log entry 72). -/
def Obligations.MillService : Prop :=
  (∀ (c : CarrierId) (slot : Int) (s : State), s.carrierActive c = false → Idle (.slotEnd c slot) s) ∧
  (∀ (c : CarrierId) (slot : Int) (h : TierHist) (s : State), s.carrierActive c = true → NoMiss s c slot →
    mapGet s.mill.tierHist c {} = h → tierOf s (c % 4) c ≤ s.param 0x0806 c →
    ((((false :: h.slots).take 64).take (s.param 0x0803 0)).filter fun b => b).length < s.paramMill (c % 4) 0x0804 0 →
    h.clean + 1 < s.param 0x0805 0 →
    Does (.slotEnd c slot) s fun t => t.mill = { s.mill with
      tierHist := mapSet s.mill.tierHist c { slots := (false :: h.slots).take 64, clean := h.clean + 1 } } ∧ SameExcept [.mill] s t) ∧
  (∀ (c : CarrierId) (slot : Int) (h : TierHist) (s : State), s.carrierActive c = true → NoMiss s c slot → NoTrace s (c % 4) →
    mapGet s.mill.tierHist c {} = h → tierOf s (c % 4) c ≤ s.param 0x0806 c → 0 < tierOf s (c % 4) c →
    ((((false :: h.slots).take 64).take (s.param 0x0803 0)).filter fun b => b).length < s.paramMill (c % 4) 0x0804 0 →
    s.param 0x0805 0 ≤ h.clean + 1 → Room 1 s →
    Does (.slotEnd c slot) s fun t => tierOf t (c % 4) c = tierOf s (c % 4) c - 1 ∧
      Raised s t 5 (c % 4) 0x0802 2 (leBytes 2 c ++ leBytes 1 (tierOf s (c % 4) c) ++ leBytes 1 (tierOf s (c % 4) c - 1) ++
        leBytes 1 1) ∧
      (∀ i, i < 4 → i ≠ c.val % 4 → { slc := i, carrier := c, tier := tierOf s (c % 4) c - 1, at_ := s.now } ∈ t.mill.tierMsgs) ∧
      (mapGet t.mill.tierHist c {}).clean = 0 ∧ (t.slc (c % 4)).items = (s.slc (c % 4)).items ∧
      OtherSlices s t (c % 4) ∧ SameExcept [.mill, .ev] s t) ∧
  (∀ (c : CarrierId) (slot sl : Int) (h : TierHist) (i p : Nat) (s : State), s.carrierActive c = true → i < 4 → p < 3 → sl ≤ slot →
    (s.slc i).misses = [(c.val, sl, p)] → (∀ j, j < 4 → j ≠ i → (s.slc j).misses = []) → NoTrace s (c % 4) →
    mapGet s.mill.tierHist c {} = h → tierOf s (c % 4) c < s.param 0x0806 c →
    s.paramMill (c % 4) 0x0804 0 ≤ ((((true :: h.slots).take 64).take (s.param 0x0803 0)).filter fun b => b).length → Room 2 s →
    Does (.slotEnd c slot) s fun t => tierOf t (c % 4) c = tierOf s (c % 4) c + 1 ∧ (t.slc i).misses = [] ∧
      t.ev.queue = s.ev.queue ++
        [{ cls := 5, inst := i, code := 0x0801, sev := 2, detail := leBytes 2 c ++ leBytes 1 i ++
             leBytes 2 (if p = 0 then 1 else 0) ++ leBytes 2 (if p = 1 then 1 else 0) ++ leBytes 2 (if p = 2 then 1 else 0) },
         { cls := 5, inst := c % 4, code := 0x0802, sev := 2, detail := leBytes 2 c ++ leBytes 1 (tierOf s (c % 4) c) ++
             leBytes 1 (tierOf s (c % 4) c + 1) ++ leBytes 1 0 }] ∧
      (mapGet t.mill.tierHist c {}).slots = [] ∧ (mapGet t.mill.tierHist c {}).clean = 0 ∧ SameExcept [.mill, .ev] s t) ∧
  (∀ (slc : SliceId) (c : CarrierId) (s : State), (∀ m ∈ s.mill.tierMsgs, m.slc ≠ slc.val ∨ m.carrier ≠ c.val) →
    Idle (.tierMessage slc c) s) ∧
  (∀ (slc : SliceId) (c : CarrierId) (n a : Nat) (l : List TierMsg) (s : State),
    s.mill.tierMsgs = { slc := slc, carrier := c, tier := n, at_ := a } :: l →
    Does (.tierMessage slc c) s fun t => tierOf t slc c = n ∧ t.mill.tierMsgs = l ∧ (t.slc slc).items = (s.slc slc).items ∧
      OtherSlices s t slc ∧ SameExcept [.mill] s t) ∧
  (∀ (slc : SliceId) (s : State), (s.slc slc).lateNone = [0, 0, 0] → Idle (.lateReportPeriod slc) s) ∧
  (∀ (slc : SliceId) (a b c : Nat) (s : State), (s.slc slc).lateNone = [a, b, c] → a + b + c ≠ 0 → Room 1 s →
    Does (.lateReportPeriod slc) s fun t => t.slc slc = { s.slc slc with lateNone := [0, 0, 0] } ∧
      Raised s t 5 slc 0x0801 2 (leBytes 2 0xFFFF ++ leBytes 1 slc ++ leBytes 2 a ++ leBytes 2 b ++ leBytes 2 c) ∧
      OtherSlices s t slc ∧ SameExcept [.mill, .ev] s t) ∧
  (∀ (slc : SliceId) (q : Nat) (it : Item) (a b c : Nat) (s : State), (s.slc slc).lateCheck = [a, b, c] →
    (s.slc slc).items = [(q, it)] → Settled s slc it → NoneArriving s slc → (∀ m ∈ s.fab.flight, m.vc ≠ 3) → Room 1 s →
    Does (.millCheck slc) s fun t => t.slc slc = { s.slc slc with lateCheck := [0, 0, 0] } ∧
      Raised s t 5 slc 0x080A 0 (leBytes 1 slc ++ leBytes 4 1 ++ leBytes 2 a ++ leBytes 2 b ++ leBytes 2 c ++ leBytes 2 0) ∧
      OtherSlices s t slc ∧ SameExcept [.mill, .ev] s t) ∧
  (∀ (k : CoreId) (s : State), mapGet? s.mill.drains k = none → Idle (.drainTimeout k) s) ∧
  (∀ (k : CoreId) (d q : Nat) (s : State), mapGet? s.mill.drains k = some d → runningOn s k = some q →
    mapGet? s.mill.aborts k = none → s.param 0x1603 0 ≠ 1 → reached s.now (d + s.param 0x0809 0) = true →
    Does (.drainTimeout k) s fun t => t.core k = { s.core k with
        supervisor := true,
        dmem := bytesWrite 0 (s.core k).dmem 0x3FFC0
          (leBytes 2 1 ++ [0, 0] ++ leBytes 4 (runningFlow s k) ++ leBytes 8 s.now ++ List.replicate 48 0) } ∧
      (∀ j, j ≠ k.val → t.core j = s.core j) ∧ t.mill = { s.mill with aborts := mapSet s.mill.aborts k s.now } ∧
      SameExcept [.facet, .mill] s t) ∧
  (∀ (k : CoreId) (s : State), mapGet? s.mill.aborts k = none → Idle (.abortGraceExpiry k) s) ∧
  ∀ (k : CoreId) (a q : Nat) (it : Item) (s : State), mapGet? s.mill.aborts k = some a → (s.slc (k / 256)).items = [(q, it)] →
    it.place = 4 → it.unit = k.val → Alone it → NoTrace s (k / 256) → s.param 0x1603 0 ≠ 1 →
    reached s.now (a + s.param 0x080A 0) = true → Room 2 s →
    Does (.abortGraceExpiry k) s fun t => (t.core k).restoring = true ∧ (t.core k).faultCause = 0x23 ∧
      (∀ j, j ≠ k.val → t.core j = s.core j) ∧ t.slc (k / 256) = { s.slc (k / 256) with items := [] } ∧
      mapGet? t.mill.aborts k = none ∧ t.mill.drains = s.mill.drains ∧ OtherSlices s t (k / 256) ∧
      Queued t 7 k 0x0701 ∧ Queued t 5 (k / 256) 0x0809 ∧ SameExcept [.facet, .mill, .ev] s t

/-! ## Clove (R301 to R332) -/

namespace Sys2Proof.Claims

open Sys2Proof.Machine

/-- A job whose reads meet no error. -/
def cleanIn : CloveIn := { recordBad := false, inputBad := false, softBad := false, recordFixed := [], inputFixed := [], workFixed := [] }

/-- The row that runs a job type (R306). -/
def cloveRow (ty : Nat) (u : CloveId) (e : CloveIn) : Instr :=
  match ty with
  | 1 => .ldpcDecode u e
  | 2 => .ldpcEncode u e
  | 3 => .polarDecode u e
  | 4 => .polarEncode u e
  | 5 => .turboDecode u e
  | 6 => .turboEncode u e
  | _ => .tbAssemble u e

/-- The record `r` of unit `u` names a type that the class runs, with fields in their ranges and a combination of them that the
standards define, and addresses in their places (R305 to R308).  The manual does not list the combinations: they are those of
`notes/assumptions/69.md`. -/
abbrev Passes (s : State) (u : Nat) (r : List Byte) : Prop :=
  classRuns (cloveTarget u) (jTy r) = true ∧ fieldsOk r = true ∧ resultOk s u r = true ∧ sbOk s r = true ∧
  jobPlace s u (jIn r) (jInLen r) ≠ .bad ∧ jobPlace s u (jOut r) (ceilDiv (jOutBits r) 8) ≠ .bad

/-- A delivery carries item `q` with descriptor `d` to unit `u`; its record `r` names type `ty`, passes the checks of R308, its
input reads `inp`, and its datapath is free. -/
abbrev JobReady (s : State) (u ty q : Nat) (d r inp : List Byte) : Prop :=
  mapGet? s.mill.deliveries (cloveKey u) = some d ∧ deliveredItem s u = some q ∧ rd d 0 8 % 64 = 0 ∧
  jobPlace s u (rd d 0 8) 64 ≠ .bad ∧ jobRead s u (rd d 0 8) 64 = some r ∧ jTy r = ty ∧ Passes s u r ∧
  jobRead s u (jIn r) (jInLen r) = some inp ∧ mapGet? s.clove.jobs (pathKey u (ty = 6)) = none

/-- The job as it stands before its type has filled it in. -/
def jobOf (c : JobCaps) (u q : Nat) (d r : List Byte) : CloveJob :=
  { slc := unitSlice (cloveKey u), item := q, desc := d, rec_ := r, until_ := 0, caps := c }

/-- The unit took the delivery and now runs job `j` on its datapath; nothing else has changed. -/
abbrev Begins (s t : State) (u ty : Nat) (j : CloveJob) : Prop :=
  t.clove = { s.clove with jobs := mapSet s.clove.jobs (pathKey u (ty = 6)) j } ∧
  t.mill = { s.mill with deliveries := mapDel s.mill.deliveries (cloveKey u) } ∧ SameExcept [.mill, .clove] s t

/-- The values an LDPC or turbo decoder works on for a job without a soft buffer (R312, steps 1 to 4). -/
def softValues (ps : List Nat) (l : List (Int × Nat)) (ncb : Nat) : List Int := (combine (accumulate ps l).1 [] 0 ncb).1

/-- The slice holds the one item `q`, which nothing waits for, and neither traces nor drains the unit. -/
abbrev SoleItem (s : State) (u q : Nat) (it : Item) : Prop :=
  (s.slc (unitSlice (cloveKey u))).items = [(q, it)] ∧ Alone it ∧ NoTrace s (unitSlice (cloveKey u)) ∧
  mapGet? s.mill.drains (cloveKey u) = none

end Sys2Proof.Claims

/-- A unit takes a job of each type (R304 to R308, R312 to R321).  Without a delivery, and for a type its class does not run,
nothing happens.  A job that passes its checks begins: what it will write, its counts and the Air Time before which it cannot
end are those of its type, under the caps in force at its delivery (R331) (the clauses are for one codeblock and no soft
buffer).  A job with a misplaced record, or one that fails a check, completes at once with status 2 and is reported. -/
def Obligations.CloveJobsBegin : Prop :=
  (∀ (ty : Nat) (u : CloveId) (e : CloveIn) (s : State), mapGet? s.mill.deliveries (cloveKey u) = none →
    Idle (cloveRow ty u e) s) ∧
  (∀ (ty : Nat) (u : CloveId) (e : CloveIn) (s : State), 1 ≤ ty → ty ≤ 7 → classRuns (cloveTarget u) ty = false →
    Idle (cloveRow ty u e) s) ∧
  (∀ (u : CloveId) (q : Nat) (d r inp : List Byte) (s : State), JobReady s u 1 q d r inp → jSb r = 0 →
    Does (.ldpcDecode u cleanIn) s fun t =>
      let v := softValues (ldpcPositions (rd r 40 1) (rd r 42 2) (rd r 44 2) (jNcb r) (rd r 47 1))
        (deinterleave (rd r 41 1) (inp.map llrOf)) (jNcb r)
      let nc := ldpcCols (rd r 40 1) (rd r 42 2) (jNcb r) v.length
      ∃ j : CloveJob, ∃ bits : List Bool, ∃ syn : Bool, Begins s t u 1 j ∧
        ldpcDecodeCore (s.paramClove (cloveDomainOf u) 0x0903 0) (rd r 40 1) (rd r 42 2) (rd r 44 2) nc
          (iterLimit s.jobCaps d (jIter r)).1 v = (bits, j.iters, syn) ∧ j.iters ≤ jIter r ∧
        j.outs = [(jOut r, packBits (bits.take (jOutBits r)))] ∧
        j.crc = (if rd r 46 1 = 0 then 2 else if crcMatches (rd r 46 1) bits then 1 else 0) ∧ j.sb = .none ∧ j.item = q ∧
        j.until_ = s.now + fabCycles (nc * (j.iters * (nc - kb (rd r 40 1)) + 2 * ceilDiv (rd r 42 2) 128))) ∧
  (∀ (u : CloveId) (q : Nat) (d r inp : List Byte) (s : State), JobReady s u 2 q d r inp →
    let l := if 3824 < rd r 48 4 then 2 else 1
    let tb := withCrc l (bitsFrom inp (rd r 48 4))
    let seg := ldpcSegments (rd r 40 1) tb.length
    let ncb := if rd r 56 4 = 0 then bgN (rd r 40 1) * seg.2.2 else min (bgN (rd r 40 1) * seg.2.2) (rd r 56 4)
    let e := rd r 42 2 * rd r 41 1 * (rd r 52 4 / (rd r 42 2 * rd r 41 1))
    seg.1 = 1 → seg.2.1 = tb.length →
    Does (.ldpcEncode u cleanIn) s fun t => ∃ j : CloveJob, Begins s t u 2 j ∧ j.item = q ∧ j.sb = .none ∧ j.cbs = 1 ∧
      j.bits = rd r 52 4 ∧
      j.outs = [(jOut r, packBits (ldpcCodeblock (rd r 40 1) seg.2.2 seg.2.1 ncb (rd r 44 2) (rd r 41 1) e tb))]) ∧
  (∀ (u : CloveId) (q : Nat) (d r inp : List Byte) (s : State), JobReady s u 3 q d r inp →
    let a := rd r 42 2
    let ch := rd r 40 1
    let list := if bit (rd d 38 2) 13 then s.param 0x0905 0 else 8
    let sg := polarSegments ch a (rd r 48 4)
    let n := polarN ch (sg.2.1 + polarCrc ch sg.2.1) sg.2.2
    let res := polarDecode ch a (rd r 56 2) list (inp.map fun b => (llrOf b).1)
    Does (.polarDecode u cleanIn) s fun t => Begins s t u 3 { jobOf s.jobCaps u q d r with
      outs := [(jOut r, packBits (res.1.take a))], crc := if res.2 then 1 else 0, iters := list, bits := a,
      sats := (inp.filter fun b => b = 0x80).length,
      until_ := s.now + fabCycles (64 + n * n.log2 / 8 + 8 * (a + polarCrc ch a)) }) ∧
  (∀ (u : CloveId) (q : Nat) (d r inp : List Byte) (s : State), JobReady s u 4 q d r inp →
    let a := rd r 42 2
    let ch := rd r 40 1
    let sg := polarSegments ch a (rd r 48 4)
    let n := polarN ch (sg.2.1 + polarCrc ch sg.2.1) sg.2.2
    Does (.polarEncode u cleanIn) s fun t => Begins s t u 4 { jobOf s.jobCaps u q d r with
      outs := [(jOut r, packBits (polarEncode ch (bitsFrom inp a) (rd r 48 4) (rd r 56 2)))],
      bits := rd r 48 4, until_ := s.now + fabCycles (32 + n * n.log2 / 16) }) ∧
  (∀ (u : CloveId) (q k f : Nat) (d r inp : List Byte) (s : State), JobReady s u 5 q d r inp → jSb r = 0 →
    turboSegments (rd r 48 4 + 24) = ([k], f) →
    let ncb := min (rd r 56 4) (turboBuffer k)
    let e := rd r 41 1 * rd r 40 1 * (rd r 52 4 / (rd r 41 1 * rd r 40 1))
    let v := softValues (turboPositions k f ncb (rd r 42 2)) ((inp.take e).map llrOf) ncb
    let cb := turboCb k f (iterLimit s.jobCaps d (jIter r)).1 2 v
    let body := (cb.1.drop f).take (k - f)
    Does (.turboDecode u cleanIn) s fun t => ∃ j : CloveJob, Begins s t u 5 j ∧ j.item = q ∧ j.sb = .none ∧
      j.outs = [(jOut r, packBits (body.take (rd r 48 4)))] ∧ j.crc = (if crcMatches 2 body then 1 else 0) ∧
      j.iters = cb.2.1 ∧ j.cbs = (if cb.2.2 then 1 else 0) ∧ j.bits = rd r 48 4 ∧
      j.until_ = s.now + fabCycles (ceilDiv (k * cb.2.1) 36)) ∧
  (∀ (u : CloveId) (q k f : Nat) (d r inp : List Byte) (s : State), JobReady s u 6 q d r inp →
    turboSegments (withCrc 2 (bitsFrom inp (rd r 48 4))).length = ([k], f) →
    let e := rd r 41 1 * rd r 40 1 * (rd r 52 4 / (rd r 41 1 * rd r 40 1))
    let cb := List.replicate f false ++ (withCrc 2 (bitsFrom inp (rd r 48 4))).take (k - f)
    Does (.turboEncode u cleanIn) s fun t => Begins s t u 6 { jobOf s.jobCaps u q d r with
      outs := [(jOut r, packBits ((turboCoded k f cb e (turboBuffer k) (rd r 42 2)).take (rd r 52 4)))],
      bits := rd r 52 4, until_ := s.now + fabCycles (ceilDiv k 24) }) ∧
  (∀ (u : CloveId) (q : Nat) (d r inp : List Byte) (s : State), JobReady s u 7 q d r inp → rd r 40 1 = 1 →
    let cb := bitsFrom inp (rd r 42 2)
    let ok := crcMatches (rd r 41 1) (cb.take (rd r 48 4 + (crcCode (rd r 41 1)).2))
    Does (.tbAssemble u cleanIn) s fun t => Begins s t u 7 { jobOf s.jobCaps u q d r with
      outs := [(jOut r, packBits (cb.take (rd r 48 4)))], crc := if rd r 41 1 = 0 then 2 else if ok then 1 else 0,
      bits := rd r 48 4, cbs := 1, until_ := s.now + fabCycles (32 + ceilDiv (rd r 42 2) 512) }) ∧
  (∀ (ty : Nat) (u : CloveId) (q : Nat) (it : Item) (d : List Byte) (e : CloveIn) (s : State), 1 ≤ ty → ty ≤ 7 →
    classRuns (cloveTarget u) ty = true → mapGet? s.mill.deliveries (cloveKey u) = some d → deliveredItem s u = some q →
    mapGet? s.clove.jobs (2 * u.val) = none → jobRead s u (rd d 0 8) 64 = none → rd d 0 8 % 64 ≠ 0 → SoleItem s u q it →
    mapGet? s.ev.rate (rateKey 0x0901 u) = none → Room 1 s →
    Does (cloveRow ty u e) s fun t => (t.slc (unitSlice (cloveKey u))).items = [] ∧
      t.ev.queue = s.ev.queue ++ [{
        cls := 6, inst := u, code := 0x0901, sev := 3, detail := leBytes 1 (cloveTarget u) ++
          leBytes 1 (cloveNumber u) ++ leBytes 1 3 ++ leBytes 1 1 ++ leBytes 4 (dFlow d) ++ leBytes 2 (dCarrier d) }] ∧
      t.clove = s.clove ∧ OtherSlices s t (unitSlice (cloveKey u)) ∧ SameExcept [.mill, .ev] s t) ∧
  ∀ (ty : Nat) (u : CloveId) (q n : Nat) (it : Item) (d r : List Byte) (e : CloveIn) (s : State), 1 ≤ ty → ty ≤ 7 →
    mapGet? s.mill.deliveries (cloveKey u) = some d → deliveredItem s u = some q → rd d 0 8 % 64 = 0 →
    jobPlace s u (rd d 0 8) 64 ≠ .bad → jobRead s u (rd d 0 8) 64 = some r → jTy r = ty → classRuns (cloveTarget u) ty = true →
    recordCheck s u r = n → n ≠ 0 → resultOk s u r = false → e.recordBad = false → e.recordFixed = [] → SoleItem s u q it →
    mapGet? s.clove.jobs (pathKey u (ty = 6)) = none → mapGet? s.ev.rate (rateKey 0x0901 u) = none → Room 1 s →
    Does (cloveRow ty u e) s fun t => (t.slc (unitSlice (cloveKey u))).items = [] ∧
      t.ev.queue = s.ev.queue ++ [{
        cls := 6, inst := u, code := 0x0901, sev := 3, detail := leBytes 1 (cloveTarget u) ++
          leBytes 1 (cloveNumber u) ++ leBytes 1 n ++ leBytes 1 1 ++ leBytes 4 (dFlow d) ++ leBytes 2 (dCarrier d) }] ∧
      t.clove = s.clove ∧ OtherSlices s t (unitSlice (cloveKey u)) ∧ SameExcept [.mill, .ev] s t

/-- A turbo unit's second datapath and the end of a job (R310, R311, R321).  A job whose datapath is busy waits in the unit, and
starts when the datapath is free; a job that cannot have ended yet goes on; one that ends writes its output, then its result
record, and its item completes; one whose bank failed writes no output and is reported with detail 7. -/
def Obligations.CloveJobsEnd : Prop :=
  (∀ (u : CloveId) (q : Nat) (d r : List Byte) (e : CloveIn) (s : State), mapGet? s.mill.deliveries (cloveKey u) = some d →
    deliveredItem s u = some q → 112 ≤ u.val → jobRead s u (rd d 0 8) 64 = some r → jTy r = 6 →
    (mapGet? s.clove.jobs (2 * u.val + 1)).isSome = true →
    Does (.turboEncode u e) s fun t =>
      t.clove = { s.clove with queued := s.clove.queued ++ [{
        key := 2 * u.val + 1, slc := unitSlice (cloveKey u), item := q, desc := d, caps := s.jobCaps }] } ∧
      t.mill = { s.mill with deliveries := mapDel s.mill.deliveries (cloveKey u) } ∧ SameExcept [.mill, .clove] s t) ∧
  (∀ (u : CloveId) (enc : Bool) (e : CloveIn) (s : State),
    u.val < 112 ∨ (mapGet? s.clove.jobs (2 * u.val + (if enc then 1 else 0))).isSome = true ∨ s.clove.queued = [] →
    Idle (.turboDatapathFree u enc e) s) ∧
  (∀ (u : CloveId) (q k f : Nat) (c : JobCaps) (d r inp : List Byte) (s : State), 112 ≤ u.val → mapGet? s.clove.jobs (2 * u.val + 1) = none →
    s.clove.queued = [{ key := 2 * u.val + 1, slc := unitSlice (cloveKey u), item := q, desc := d, caps := c }] → rd d 0 8 % 64 = 0 →
      jobPlace s u (rd d 0 8) 64 ≠ .bad →
    jobRead s u (rd d 0 8) 64 = some r → jTy r = 6 → Passes s u r → jobRead s u (jIn r) (jInLen r) = some inp →
    turboSegments (withCrc 2 (bitsFrom inp (rd r 48 4))).length = ([k], f) →
    let e := rd r 41 1 * rd r 40 1 * (rd r 52 4 / (rd r 41 1 * rd r 40 1))
    let cb := List.replicate f false ++ (withCrc 2 (bitsFrom inp (rd r 48 4))).take (k - f)
    Does (.turboDatapathFree u true cleanIn) s fun t => t.clove = { s.clove with
        queued := [],
        jobs := mapSet s.clove.jobs (2 * u.val + 1) { jobOf c u q d r with
          outs := [(jOut r, packBits ((turboCoded k f cb e (turboBuffer k) (rd r 42 2)).take (rd r 52 4)))],
          bits := rd r 52 4, until_ := s.now + fabCycles (ceilDiv k 24) } } ∧ SameExcept [.clove] s t) ∧
  (∀ (u : CloveId) (enc a b : Bool) (s : State), mapGet? s.clove.jobs (pathKey u enc) = none →
    Idle (.cloveJobCompletion u enc a b) s) ∧
  (∀ (u : CloveId) (enc a b : Bool) (j : CloveJob) (s : State), mapGet? s.clove.jobs (pathKey u enc) = some j →
    reached s.now j.until_ = false → Idle (.cloveJobCompletion u enc a b) s) ∧
  (∀ (u : CloveId) (enc : Bool) (j : CloveJob) (a k off off' : Nat) (bs : List Byte) (it : Item) (s : State),
    mapGet? s.clove.jobs (pathKey u enc) = some j → reached s.now j.until_ = true → j.outs = [(a, bs)] → j.sb = .none →
    jobPlace s u a bs.length = .core k off → jobPlace s u (jResult j.rec_) 32 = .core k off' → jResult j.rec_ % 32 = 0 →
    badTouched (s.bank (bankKey 0 k)) off bs.length = [] → badTouched (s.bank (bankKey 0 k)) off' 32 = [] →
    s.domainOn (k / 16) = true → j.slc = unitSlice (cloveKey u) → SoleItem s u j.item it →
    Does (.cloveJobCompletion u enc false false) s fun t =>
      t.core k = { s.core k with
        dmem := bytesWrite 0 (bytesWrite 0 (s.core k).dmem off bs) off'
         (leBytes 1 (if j.flags / 2 % 16 = 0 then 0 else 1) ++ leBytes 1 0 ++ leBytes 1 j.crc ++ leBytes 1 j.iters ++
          leBytes 1 j.flags ++ leBytes 1 255 ++ leBytes 2 j.reason ++ leBytes 4 j.extent ++ leBytes 4 j.sats ++ leBytes 8 s.now ++
          leBytes 4 j.bits ++ leBytes 4 j.cbs) } ∧
      (∀ i, i ≠ k → t.core i = s.core i) ∧ t.clove = { s.clove with jobs := mapDel s.clove.jobs (pathKey u enc) } ∧
      (t.slc (unitSlice (cloveKey u))).items = [] ∧ OtherSlices s t (unitSlice (cloveKey u)) ∧
      SameExcept [.facet, .mill, .clove] s t) ∧
  ∀ (u : CloveId) (enc b : Bool) (j : CloveJob) (it : Item) (s : State), mapGet? s.clove.jobs (pathKey u enc) = some j →
    reached s.now j.until_ = true → resultOk s u j.rec_ = false → j.slc = unitSlice (cloveKey u) → SoleItem s u j.item it →
    mapGet? s.ev.rate (rateKey 0x0901 u) = none → Room 1 s →
    Does (.cloveJobCompletion u enc true b) s fun t =>
      t.clove = { s.clove with jobs := mapDel s.clove.jobs (pathKey u enc) } ∧ (t.slc (unitSlice (cloveKey u))).items = [] ∧
      t.ev.queue = s.ev.queue ++ [{
        cls := 6, inst := u, code := 0x0901, sev := 3, detail := leBytes 1 (cloveTarget u) ++
          leBytes 1 (cloveNumber u) ++ leBytes 1 7 ++ leBytes 1 1 ++ leBytes 4 (dFlow j.desc) ++ leBytes 2 (dCarrier j.desc) }] ∧
      OtherSlices s t (unitSlice (cloveKey u)) ∧ SameExcept [.mill, .clove, .ev] s t

/-! ## Fabric and external memory (R350 to R411) -/

namespace Sys2Proof.Claims

open Sys2Proof.Machine

/-- The response to a request: from its target back to its source, a READ_RESP, or a WRITE_RESP to a WRITE (R354, R356). -/
def answer (m : FabMsg) (st : Nat) (data : List Byte) (poison : Bool) (old : Nat) : FabMsg :=
  { m with cmd := if m.cmd = 2 then 6 else 5, vc := if m.vc = 2 then 2 else 1, src := m.dst, dst := m.src, status := st,
           data := data, poison := poison, operand := old, noCredit := 0 }

/-- A packet is no longer on its way, and another is. -/
abbrev Answered (s t : State) (m r : FabMsg) : Prop := t.fab.flight = s.fab.flight.erase m ++ [r]

/-- Of the power control, only the time since which a domain's units have been idle has changed: a request arrived (R540). -/
abbrev OnlyIdleTime (s t : State) : Prop := t.power = { s.power with idleFrom := t.power.idleFrom }

/-- Of the fabric, only the packets on their way have changed. -/
abbrev OnlyFlight (s t : State) : Prop := t.fab = { s.fab with flight := t.fab.flight }

/-- Of the fabric, only the packets on their way and the banks' records have changed, and every record reads as before. -/
abbrev FlightAndBanks (s t : State) : Prop :=
  t.fab = { s.fab with flight := t.fab.flight, banks := t.fab.banks } ∧ ∀ k, t.bank k = s.bank k

/-- A request with a well-formed header, which never waited for credit, reaches the open router port of its target (R352, R354,
R355, R365). -/
abbrev Arrives (s : State) (m : FabMsg) (cmd : Nat) (t : Target) : Prop :=
  m.cmd = cmd ∧ m.noCredit = 0 ∧ nodeClosed s m.dst = none ∧ vcOk m = true ∧ shapeOk m = true ∧ fabTarget m.addr = t

/-- No bad bits were met and the owner port wrote nothing in the same cycle (R371, R372). -/
def calm : BankEcc := { corrected := [], bad := [], owner := [] }

/-- A response reaches the NI of its request: the domain is open, the generation is current, and exactly one request matches. -/
abbrev Matches (s : State) (m : FabMsg) (o : Outstanding) : Prop :=
  m.noCredit = 0 ∧ nodeClosed s m.dst = none ∧ ¬(61440 ≤ m.chan ∧ m.chan < 61696) ∧ m.gen = (s.ni (niKey m.dst m.chan)).gen ∧
  s.fab.outst = [o] ∧ o.node = m.dst ∧ o.tag = m.tag ∧ o.addr = m.addr

/-- The master is neither a DMA channel, nor Proul, nor a PRACH engine: it takes the status without an effect of its own here.
-/
abbrev PlainMaster (o : Outstanding) : Prop := 768 ≤ o.chan ∧ o.chan ≠ 65534 ∧ o.seq ≠ 1

/-- The request that waits for DRAM under this source and tag is the only one. -/
abbrev OneWait (s : State) (src tag : Nat) (m : FabMsg) : Prop :=
  s.mem.waits = [{ req := m }] ∧ m.src = src ∧ m.tag = tag

end Sys2Proof.Claims

/-- Requests at their targets (R267, R352 to R356, R359, R364, R365, R367, R370 to R374).  A READ of a bank answers its bytes,
a WRITE commits them, ATOMIC_ADD and SWAP answer the old value and store the new one; a request for a domain that is off, for
an address that names nothing, of a wrong shape or of a reserved command is answered with its status and changes no bank; an
atomic at a Mill window is counted there and answered. -/
def Obligations.FabricRequests : Prop :=
  (∀ (m : FabMsg) (k off : Nat) (s : State), Arrives s m 1 (.core k off) → badTouched (s.bank (bankKey 0 k)) off m.len = [] →
    Does (.read m calm) s fun t => Answered s t m (answer m 0 (bytesRead 0 (s.core k).dmem off m.len) false 0) ∧
      OnlyFlight s t ∧ OnlyIdleTime s t ∧ SameExcept [.fab, .power] s t) ∧
  (∀ (m : FabMsg) (k off w : Nat) (l : List Nat) (s : State), Arrives s m 1 (.core k off) → m.vc ≠ 3 →
    badTouched (s.bank (bankKey 0 k)) off m.len = w :: l →
    mapGet? s.ev.rate (rateKey 0x0B06 k) = none → Room 1 s →
    Does (.read m calm) s fun t => Answered s t m (answer m 4 (List.replicate m.len 0) true 0) ∧
      (t.bank (bankKey 0 k)).eccUncorrectable = min ((s.bank (bankKey 0 k)).eccUncorrectable + 1) (2 ^ 32 - 1) ∧
      (∀ j, j ≠ bankKey 0 k → t.bank j = s.bank j) ∧ Queued t 10 m.dst 0x0B06 ∧ OnlyIdleTime s t ∧ SameExcept [.fab, .ev, .power] s t) ∧
  (∀ (m : FabMsg) (u off : Nat) (s : State), Arrives s m 1 (.clove u off) → off < cloveBankSize u / 2 → m.src ≠ cloveNode u →
    Does (.read m calm) s fun t => Answered s t m (answer m 2 [] false 0) ∧ OnlyFlight s t ∧ OnlyIdleTime s t ∧ SameExcept [.fab, .power] s t) ∧
  (∀ (m : FabMsg) (h a : Nat) (s : State), Arrives s m 1 (.host h a) → m.chan < 768 → (s.hp h).linkUp = true →
    Does (.read m calm) s fun t => Answered s t m (answer m 0 (bytesRead 0 (s.hp h).mem a m.len) false 0) ∧
      OnlyFlight s t ∧ OnlyIdleTime s t ∧ SameExcept [.fab, .power] s t) ∧
  (∀ (m : FabMsg) (off : Nat) (s : State), Arrives s m 1 (.dram false off) → memAccess s m false off false = 0 →
    s.mem.waits.any (waitFor (pageOf off)) = false → cacheHit s off m.len = true →
    Does (.read m calm) s fun t => Answered s t m (answer m 0 (bytesRead 0 s.mem.data off m.len) false 0) ∧
      t.mem.data = s.mem.data ∧ t.mem.waits = s.mem.waits ∧ OnlyFlight s t ∧ OnlyIdleTime s t ∧ SameExcept [.fab, .mem, .power] s t) ∧
  (∀ (m : FabMsg) (off : Nat) (s : State), Arrives s m 1 (.dram false off) → memAccess s m false off false = 0 →
    s.mem.waits.any (waitFor (pageOf off)) = false → cacheHit s off m.len = false →
    Does (.read m calm) s fun t => t.fab = { s.fab with flight := s.fab.flight.erase m } ∧
      t.mem = { s.mem with waits := s.mem.waits ++ [{ req := m }] } ∧ OnlyIdleTime s t ∧ SameExcept [.fab, .mem, .power] s t) ∧
  (∀ (m : FabMsg) (k off : Nat) (s : State), Arrives s m 2 (.core k off) → m.vc ≠ 3 → m.poison = false → m.data.length = m.len →
    badTouched (s.bank (bankKey 0 k)) off m.len = [] →
    Does (.write m calm) s fun t => Answered s t m (answer m 0 [] false 0) ∧
      t.core k = { s.core k with dmem := bytesWrite 0 (s.core k).dmem off m.data } ∧ (∀ j, j ≠ k → t.core j = s.core j) ∧
      FlightAndBanks s t ∧ OnlyIdleTime s t ∧ SameExcept [.fab, .facet, .power] s t) ∧
  (∀ (m : FabMsg) (k off : Nat) (e : BankEcc) (s : State), Arrives s m 2 (.core k off) → m.vc ≠ 3 → m.poison = true → Room 1 s →
    Does (.write m e) s fun t => Answered s t m (answer m 7 [] false 0) ∧
      Raised s t 10 m.dst 0x0B01 3 (leBytes 2 m.dst ++ leBytes 2 m.src ++ leBytes 1 m.gen ++ leBytes 8 m.addr) ∧
      OnlyFlight s t ∧ OnlyIdleTime s t ∧ SameExcept [.fab, .ev, .power] s t) ∧
  (∀ (m : FabMsg) (k off : Nat) (s : State), Arrives s m 3 (.core k off) → badTouched (s.bank (bankKey 0 k)) off m.len = [] →
    let old := leNat (bytesRead 0 (s.core k).dmem off m.len)
    Does (.atomicAdd m calm) s fun t => Answered s t m (answer m 0 [] false old) ∧
      t.core k = { s.core k with
        dmem := bytesWrite 0 (s.core k).dmem off (leBytes m.len ((old + m.operand) % 2 ^ (8 * m.len))) } ∧
      (∀ j, j ≠ k → t.core j = s.core j) ∧ OnlyFlight s t ∧ OnlyIdleTime s t ∧ SameExcept [.fab, .facet, .power] s t) ∧
  (∀ (m : FabMsg) (k off : Nat) (s : State), Arrives s m 4 (.core k off) → badTouched (s.bank (bankKey 0 k)) off m.len = [] →
    Does (.swap m calm) s fun t =>
      Answered s t m (answer m 0 [] false (leNat (bytesRead 0 (s.core k).dmem off m.len))) ∧
      t.core k = { s.core k with
        dmem := bytesWrite 0 (s.core k).dmem off (leBytes m.len (m.operand % 2 ^ (8 * m.len))) } ∧
      (∀ j, j ≠ k → t.core j = s.core j) ∧ OnlyFlight s t ∧ OnlyIdleTime s t ∧ SameExcept [.fab, .facet, .power] s t) ∧
  (∀ (m : FabMsg) (off : Nat) (raw : Bool) (s : State), Arrives s m 3 (.dram raw off) →
    Does (.atomicAdd m calm) s fun t => Answered s t m (answer m 6 [] false 0) ∧ OnlyFlight s t ∧ OnlyIdleTime s t ∧
      SameExcept [.fab, .power] s t) ∧
  (∀ (m : FabMsg) (slc off : Nat) (s : State), Arrives s m 3 (.mill slc off) →
    Does (.atomicAdd m calm) s fun t =>
      Answered s t m (answer m (if !millSource s m.src m.chan then 2 else if off ≠ 0 && !isCounterOff off then 3 else 6) [] false 0) ∧
      t.slc slc = { s.slc slc with badAccess := min ((s.slc slc).badAccess + 1) (2 ^ 32 - 1) } ∧
      (∀ j, j ≠ slc → t.slc j = s.slc j) ∧ OnlyFlight s t ∧ OnlyIdleTime s t ∧ SameExcept [.fab, .mill, .power] s t) ∧
  (∀ (m : FabMsg) (d : Nat) (e : BankEcc) (s : State), m.cmd = 1 ∨ m.cmd = 2 → m.noCredit = 0 → m.vc ≠ 3 → nodeClosed s m.dst = some d →
    wakeHolds s d = false →
    Does (if m.cmd = 1 then .read m e else .write m e) s fun t => Answered s t m (answer m 1 [] false 0) ∧
      mapGet t.fab.offAnswered d 0 = min (mapGet s.fab.offAnswered d 0 + 1) (2 ^ 32 - 1) ∧ OnlyIdleTime s t ∧ SameExcept [.fab, .power] s t) ∧
  (∀ (m : FabMsg) (d : Nat) (e : BankEcc) (s : State), m.cmd = 2 → m.noCredit = 0 → nodeClosed s m.dst = some d → wakeHolds s d = true →
    (mapGet s.fab.wakeBuf m.dst []).length < 16 →
    Does (.write m e) s fun t => t.fab = { s.fab with
      flight := s.fab.flight.erase m, wakeBuf := mapSet s.fab.wakeBuf m.dst (mapGet s.fab.wakeBuf m.dst [] ++ [m]) } ∧
      OnlyIdleTime s t ∧ SameExcept [.fab, .power] s t) ∧
  (∀ (m : FabMsg) (e : BankEcc) (s : State), m.cmd = 1 → m.noCredit = 0 → nodeClosed s m.dst = none → vcOk m = true → fabTarget m.addr = .none →
    Does (.read m e) s fun t => Answered s t m (answer m 3 [] false 0) ∧ OnlyFlight s t ∧ OnlyIdleTime s t ∧ SameExcept [.fab, .power] s t) ∧
  (∀ (m : FabMsg) (e : BankEcc) (s : State), m.cmd = 2 → m.noCredit = 0 → m.vc ≠ 3 → nodeClosed s m.dst = none → vcOk m = true →
    fabTarget m.addr ≠ .none → (∀ slc off, fabTarget m.addr ≠ .mill slc off) → shapeOk m = false →
    Does (.write m e) s fun t => Answered s t m (answer m 6 [] false 0) ∧ OnlyFlight s t ∧ OnlyIdleTime s t ∧ SameExcept [.fab, .power] s t) ∧
  ∀ (m : FabMsg) (e : BankEcc) (s : State), m.cmd = 0 ∨ 11 ≤ m.cmd → m.noCredit = 0 → nodeClosed s m.dst = none →
    Does (.read m e) s fun t => Answered s t m (answer { m with vc := 0 } 6 [] false 0) ∧
      t.fab.reservedCmd = min (s.fab.reservedCmd + 1) (2 ^ 32 - 1) ∧ OnlyIdleTime s t ∧ SameExcept [.fab, .power] s t

/-- Responses, fences, wakes, events, link errors and timeouts (R95, R356 to R358, R363, R366, R367, R513).  A response ends
its request; one of another generation is dropped and counted; a fence is asked for, acknowledged, and forced when it lasts too
long, and then the domain is off; a WAKE powers the domain that holds packets; an EVENT joins the arbiter's queue or is counted
as lost; a replayed flit is counted, a stuck link puts the device in SAFE state, and a request without an answer is marked. -/
def Obligations.FabricControl : Prop :=
  (∀ (m : FabMsg) (o : Outstanding) (s : State), Matches s m o → PlainMaster o →
    Does (.readResp m) s fun t => t.fab.flight = s.fab.flight.erase m ∧ t.fab.outst = [] ∧ t.fab.nis = s.fab.nis ∧
      SameExcept [.fab] s t) ∧
  (∀ (m : FabMsg) (o : Outstanding) (s : State), Matches s m o → PlainMaster o →
    Does (.writeResp m) s fun t => t.fab.flight = s.fab.flight.erase m ∧ t.fab.outst = [] ∧
      t.fab.reservedStatus = min (s.fab.reservedStatus + if 9 ≤ m.status then 1 else 0) (2 ^ 32 - 1) ∧ SameExcept [.fab] s t) ∧
  (∀ (m : FabMsg) (s : State), nodeClosed s m.dst = none → 61696 ≤ m.chan → m.gen ≠ (s.ni m.dst).gen →
    Does (.readResp m) s fun t => t.fab.outst = s.fab.outst ∧
      (t.ni m.dst).oldGenDropped = min ((s.ni m.dst).oldGenDropped + 1) (2 ^ 32 - 1) ∧ SameExcept [.fab] s t) ∧
  (∀ (m : FabMsg) (n : Nat) (s : State), nodeClosed s m.dst = none → m.noCredit = 0 → m.chan = 61440 + n → n < 256 → m.status = 1 →
    (∃ g off, fabTarget m.addr = .dma g off) → Room 1 s →
    Does (.readResp m) s fun t => Raised s t 12 n 0x0303 2 (leBytes 1 n ++ [2, 0]) ∧ OnlyFlight s t ∧ SameExcept [.fab, .ev] s t) ∧
  (∀ (n : Fin 1024) (s : State), nodeDomain n = none → Idle (.fenceReq n) s ∧ Idle (.fenceAck n) s) ∧
  (∀ (n : Fin 1024) (d : Nat) (f : Fence) (s : State), nodeDomain n = some d → mapGet? s.power.toOff d = none →
    mapGet? s.fab.fences d = some f → n.val ∈ f.left →
    Does (.fenceReq n) s fun t => t.ni n = { s.ni n with stopped := true } ∧ (∀ j, j ≠ n.val → t.ni j = s.ni j) ∧
      t.fab.fences = s.fab.fences ∧ SameExcept [.fab] s t) ∧
  (∀ (n : Fin 1024) (d c : Nat) (s : State), nodeDomain n = some d → mapGet? s.power.toOff d = some c → fabricLast s d = false →
    (∀ k ∈ domainUnits d, drained s k = true) →
    Does (.fenceReq n) s fun t => mapGet? t.fab.fences d = some { left := domainNodes d, at_ := s.now, cause := c } ∧
      mapGet? t.power.toOff d = none ∧ (t.ni n).stopped = true ∧ t.power.on = s.power.on ∧ SameExcept [.fab, .power] s t) ∧
  (∀ (n : Fin 1024) (d : Nat) (f : Fence) (s : State), nodeDomain n = some d → mapGet? s.fab.fences d = some f →
    n.val ∈ f.left → (s.ni n).stopped = true → niQuiet s n = true → (∃ j ∈ f.left, j ≠ n.val) →
    Does (.fenceAck n) s fun t => t.fab = { s.fab with
      fences := mapSet s.fab.fences d { f with left := f.left.filter (fun j => j ≠ n) } } ∧ SameExcept [.fab] s t) ∧
  (∀ (n : Fin 1024) (d : Nat) (f : Fence) (s : State), nodeDomain n = some d → d < 64 → mapGet? s.fab.fences d = some f →
    f.left = [n.val] → (s.ni n).stopped = true → niQuiet s n = true → mapGet? s.power.wakeDue d = none → Room 1 s →
    Does (.fenceAck n) s fun t => d ∉ t.power.on ∧ (∀ e, e ≠ d → (e ∈ t.power.on ↔ e ∈ s.power.on)) ∧
      mapGet? t.fab.fences d = none ∧ (∀ k, k / 16 = d → t.core k = { tail := (s.core k).tail }) ∧
      (∀ k, k / 16 ≠ d → t.core k = s.core k) ∧ Raised s t 0 0 0x1302 0 (leBytes 1 d ++ [0] ++ leBytes 1 f.cause) ∧
      SameExcept [.fab, .power, .facet, .ev] s t) ∧
  (∀ (n : Fin 1024) (s : State), niQuiet s n = false ∨ (s.ni n).stopped = false → Idle (.fenceAck n) s) ∧
  (∀ (d : Fin 96) (s : State), (∃ n, nodeDomain n = some d.val ∧ n < 1024 ∧ mapGet s.fab.wakeBuf n [] ≠ []) → s.domainOn d = false →
    mapGet? s.power.coming d = none → domainWithdrawn s d = false → mapGet? s.fab.fences d = none →
    Does (.wake d) s fun t => t.power = { s.power with
      wake := { source := 7, inst := d, at_ := s.now }, coming := mapSet s.power.coming d 3 } ∧ SameExcept [.power] s t) ∧
  (∀ (d : Fin 96) (s : State), s.domainOn d = true → Idle (.wake d) s) ∧
  (∀ (c : Fin 16) (i : Fin 4096) (code : BitVec 16) (sev : Fin 16) (b : List Byte) (s : State), Room 1 s →
    Does (.event c i code sev b) s fun t => Raised s t c i code.toNat sev (b.take 24) ∧ SameExcept [.ev] s t) ∧
  (∀ (c : Fin 16) (i : Fin 4096) (code : BitVec 16) (sev : Fin 16) (b : List Byte) (s : State), 256 ≤ s.ev.queue.length →
    Does (.event c i code sev b) s fun t => t.ev.queue = s.ev.queue ∧
      mapGet t.ev.loss (lossIndex c i) 0 = min (mapGet s.ev.loss (lossIndex c i) 0 + 1) (2 ^ 32 - 1) ∧ SameExcept [.ev] s t) ∧
  (∀ (b l : Byte) (s : State), linkExists b.toNat l.toNat = false → Idle (.flitCrcError b l) s ∧ Idle (.linkStuck b l) s) ∧
  (∀ (b l : Byte) (s : State), linkExists b.toNat l.toNat = true → mapGet? s.ev.rate (rateKey 0x0B05 (linkKey b.toNat l.toNat)) = none →
    Room 1 s →
    Does (.flitCrcError b l) s fun t =>
      t.fab = { s.fab with
        replays := mapSet s.fab.replays (linkKey b.toNat l.toNat)
         (min (mapGet s.fab.replays (linkKey b.toNat l.toNat) 0 + 1) (2 ^ 32 - 1)) } ∧
      Queued t 10 0 0x0B05 ∧ SameExcept [.fab, .ev] s t) ∧
  (∀ (b l : Byte) (s : State), linkKey b.toNat l.toNat ∈ s.fab.stuck → Idle (.linkStuck b l) s) ∧
  (∀ (b l : Byte) (s : State), linkExists b.toNat l.toNat = true → linkKey b.toNat l.toNat ∉ s.fab.stuck → s.boot.devState ≠ 4 → Room 2 s →
    Does (.linkStuck b l) s fun t => t.fab.stuck = s.fab.stuck ++ [linkKey b.toNat l.toNat] ∧ t.boot.devState = 4 ∧
      Queued t 10 0 0x0B05 ∧ Queued t 5 0 0x0805 ∧ t.facet = s.facet ∧ t.mem = s.mem) ∧
  (∀ (n : Fin 1024) (g : Byte) (s : State), (∀ o ∈ s.fab.outst, o.node = n.val → o.tag ≠ g.toNat) →
    Idle (.requestTimeout n g) s) ∧
  (∀ (n : Fin 1024) (g : Byte) (o : Outstanding) (s : State), s.fab.outst = [o] → o.node = n.val → o.tag = g.toNat →
    o.timedOut = false → o.at_ + fabCycles 67584 ≤ s.now → PlainMaster o → mapGet? s.ev.rate (rateKey 0x0B04 n) = none → Room 1 s →
    Does (.requestTimeout n g) s fun t => t.fab = { s.fab with outst := [{ o with timedOut := true }] } ∧
      Queued t 10 n 0x0B04 ∧ SameExcept [.fab, .ev] s t) ∧
  (∀ (d : Fin 96) (f : Fence) (s : State), mapGet? s.fab.fences d = none ∨
    (mapGet? s.fab.fences d = some f ∧ s.now < f.at_ + fabCycles (s.param 0x0B02 0)) → Idle (.fenceTimeout d) s) ∧
  ∀ (d : Fin 96) (f : Fence) (n : Nat) (s : State), d.val < 64 → mapGet? s.fab.fences d = some f → f.left = [n] →
    f.at_ + fabCycles (s.param 0x0B02 0) ≤ s.now → mapGet? s.power.wakeDue d = none → Room 2 s →
    Does (.fenceTimeout d) s fun t => d.val ∉ t.power.on ∧ mapGet? t.fab.fences d = none ∧
      Queued t 0 0 0x0B02 ∧ Queued t 0 0 0x1302 ∧ (∀ k, k / 16 ≠ d.val → t.core k = s.core k) ∧
      SameExcept [.fab, .power, .facet, .ev] s t

/-- External memory (R380, R383, R392 to R394, R402, R407).  A read that waited for DRAM is answered with the bytes where the
checks pass, and its page is then in the cache; a page beyond correction answers poison and is counted; a region whose
initialisation is complete reads as zero and is open; the scrubber goes to its next page and reports each pass; a re-key sweep
gives each page a new major counter under the new key and ends with the old slot retired; a hot channel is noted. The spacing
of the sweeps is the model's choice (log entry 76). -/
def Obligations.ExternalMemory : Prop :=
  (∀ (src : Fin 1024) (g : Byte) (r : DramResult) (s : State), s.mem.waits = [] → Idle (.dramReadComplete src g r) s) ∧
  (∀ (src : Fin 1024) (g : Byte) (m : FabMsg) (n off : Nat) (s : State), OneWait s src g.toNat m → m.cmd = 1 → m.vc = 0 →
    dramTarget m.addr = (false, off) → memAccess s m false off false = 0 → memPlace s off = .region n →
    pageProtected s (pageOf off) = none → cachedPage s (pageOf off) = none → s.mem.poison = [] →
    (cacheOf s (pageTile (pageOf off))).length < 16 →
    Does (.dramReadComplete src g {}) s fun t => t.fab = { s.fab with
        flight := s.fab.flight ++ [answer m 0 (bytesRead 0 s.mem.data off m.len) false 0] } ∧
      cachedPage t (pageOf off) = some { page := pageOf off, valid := BitVec.allOnes 32, dirty := 0 } ∧
      t.mem.data = s.mem.data ∧ t.mem.waits = [] ∧ SameExcept [.fab, .mem] s t) ∧
  (∀ (src : Fin 1024) (g : Byte) (m : FabMsg) (off : Nat) (s : State), OneWait s src g.toNat m → m.cmd = 1 → m.vc = 0 →
    dramTarget m.addr = (false, off) → memAccess s m false off false = 0 → pageProtected s (pageOf off) = none →
    mapGet? s.ev.rate (rateKey 0x0C02 (pageChannel (pageOf off))) = none → Room 1 s →
    Does (.dramReadComplete src g { dataPage := .uncorrectable }) s fun t => t.fab = { s.fab with
        flight := s.fab.flight ++ [answer m 4 (List.replicate m.len 0) true 0] } ∧
      mapGet t.mem.chans (pageChannel (pageOf off)) {} =
        { mapGet s.mem.chans (pageChannel (pageOf off)) {} with
          uncorrectable := min ((mapGet s.mem.chans (pageChannel (pageOf off)) {}).uncorrectable + 1) (2 ^ 32 - 1),
          poisonRead := min ((mapGet s.mem.chans (pageChannel (pageOf off)) {}).poisonRead + 1) (2 ^ 32 - 1) } ∧
      Queued t 8 (pageChannel (pageOf off) / 6) 0x0C02 ∧ t.mem.data = s.mem.data ∧ SameExcept [.fab, .mem, .ev] s t) ∧
  (∀ (src : Fin 1024) (g : Byte) (m : FabMsg) (n off : Nat) (s : State), OneWait s src g.toNat m → m.cmd = 1 → m.vc = 0 →
    dramTarget m.addr = (false, off) → memAccess s m false off false = 0 → pageProtected s (pageOf off) = some n →
    failedAbove s (pageOf off) = false → s.mem.poison = [] → (s.ctr (pageOf off)).sel = 0 → (s.region n).slotA = 1 →
    Does (.dramReadComplete src g {}) s fun t => t.fab = { s.fab with
        flight := s.fab.flight ++ [answer m 0 (bytesRead 0 s.mem.data off m.len) false 0] } ∧
      t.mem.data = s.mem.data ∧ t.mem.regions = s.mem.regions ∧ t.mem.waits = [] ∧ SameExcept [.fab, .mem] s t) ∧
  (∀ (g : Fin 32) (s : State), (s.region g).st ≠ 1 → Idle (.regionInitComplete g) s) ∧
  (∀ (g : Fin 32) (s : State), (s.region g).st = 1 → Room 1 s →
    Does (.regionInitComplete g) s fun t => t.region g = { s.region g with st := 2 } ∧
      (∀ j, j ≠ g.val → t.region j = s.region j) ∧
      (∀ a, byteAt 0 t.mem.data a =
        if (s.region g).base ≤ a ∧ a < (s.region g).base + (s.region g).size then 0 else byteAt 0 s.mem.data a) ∧
      Raised s t 8 0 0x0C04 1 (leBytes 1 g ++ leBytes 1 (s.region g).mode ++ leBytes 1 0) ∧ SameExcept [.mem, .ev] s t) ∧
  (∀ (d : Decode) (s : State), scrubDue s = false → Idle (.scrubPage d) s) ∧
  (∀ (p : Nat) (s : State), nextScrub s s.mem.scrubPage = some p → scrubDue s = true → (nextScrub s (p + 1)).isSome = true →
    Does (.scrubPage .clean) s fun t => t.mem = { s.mem with scrubPage := p + 1, scrubAt := s.now } ∧ SameExcept [.mem] s t) ∧
  (∀ (p : Nat) (s : State), nextScrub s s.mem.scrubPage = some p → scrubDue s = true → nextScrub s (p + 1) = none →
    Room 1 s →
    Does (.scrubPage .clean) s fun t => t.mem = { s.mem with
        scrubPage := 0, scrubAt := s.now, scrubPass := (s.mem.scrubPass + 1) % 2 ^ 32, scrubCorrected := 0, scrubUncorr := 0 } ∧
      Raised s t 8 0 0x0C03 0 (leBytes 4 s.mem.scrubPass ++ leBytes 4 s.mem.scrubCorrected ++ leBytes 4 s.mem.scrubUncorr) ∧
      SameExcept [.mem, .ev] s t) ∧
  (∀ (g : Fin 32) (d : Decode) (l : List (Fin 32)) (s : State), (s.region g).sweep = none ∨ rekeyDue s (s.region g) = false →
    Idle (.rekeySweepPage g d l) s) ∧
  (∀ (g : Fin 32) (p : Nat) (s : State), (s.region g).sweep = some p → failedAbove s p = false → s.mem.poison = [] →
    rekeyDue s (s.region g) = true → (p + 1) * 2048 < (s.region g).base + (s.region g).size →
    (s.region g).sweepPoisoned < 2 ^ 32 →
    Does (.rekeySweepPage g .clean []) s fun t => t.region g = { s.region g with sweep := some (p + 1), sweepAt := s.now } ∧
      t.ctr p = { major := (s.ctr p).major + 1, minors := [], sel := sweepSlot (s.region g) } ∧
      (∀ q, q ≠ p → t.ctr q = s.ctr q) ∧ t.mem.data = s.mem.data ∧ SameExcept [.mem] s t) ∧
  (∀ (g : Fin 32) (p : Nat) (s : State), (s.region g).sweep = some p → failedAbove s p = false → s.mem.poison = [] →
    rekeyDue s (s.region g) = true → (s.region g).base + (s.region g).size ≤ (p + 1) * 2048 →
    sweepSlot (s.region g) = 1 → (s.region g).sweepPoisoned = 0 → Room 1 s →
    Does (.rekeySweepPage g .clean []) s fun t =>
      t.region g = { s.region g with sweep := none, slotA := 2, keyA := 0, sweepAt := s.now } ∧
      t.ctr p = { major := (s.ctr p).major + 1, minors := [], sel := 1 } ∧
      Raised s t 8 0 0x0D03 1 (leBytes 1 g ++ leBytes 1 1 ++ leBytes 2 (s.region g).epoch ++ leBytes 4 0) ∧
      SameExcept [.mem, .ev] s t) ∧
  (∀ (ch : Fin 12) (hot : Bool) (s : State), s.now < (mapGet s.mem.chans ch {}).mr4At + 32 * tcMs →
    Idle (.temperaturePoll ch hot) s) ∧
  ∀ (ch : Fin 12) (hot : Bool) (s : State), (mapGet s.mem.chans ch {}).mr4At + 32 * tcMs ≤ s.now →
    Does (.temperaturePoll ch hot) s fun t =>
      mapGet t.mem.chans ch {} = { mapGet s.mem.chans ch {} with hot := hot, mr4At := s.now } ∧
      (∀ j, j ≠ ch.val → mapGet t.mem.chans j {} = mapGet s.mem.chans j {}) ∧ SameExcept [.mem] s t

/-! ## DMA engines (R412 to R431) -/

namespace Sys2Proof.Claims

open Sys2Proof.Machine

/-- No channel but `c` has changed. -/
abbrev OtherChans (s t : State) (c : Nat) : Prop := ∀ j, j ≠ c → t.chan j = s.chan j

/-- The channel is RUNNING without a MOVE in progress and outside every loop, and its owner may reach the instruction's own
bytes (R414, R415). -/
abbrev Runs (s : State) (c n : Nat) : Prop :=
  (s.chan c).st = 1 ∧ (s.chan c).move = none ∧ (s.chan c).loops = [] ∧ dmaMay s c (s.chan c).pc = true ∧
  dmaMay s c ((s.chan c).pc + n - 1) = true

/-- The packet that a request of channel `c` travels in (R353, R355). -/
def dmaPacket (s : State) (c cmd vc addr len : Nat) (data : List Byte) : FabMsg :=
  { cmd := cmd, vc := vc, src := dmaNode (chanEngine c), dst := (targetNode (fabTarget addr)).getD 1023, addr := addr, len := len,
    tag := freeTag s (dmaNode (chanEngine c)), gen := (s.ni (niKey (dmaNode (chanEngine c)) c)).gen, data := data, chan := c }

/-- The record of a request that waits for its response. -/
def dmaWaits (s : State) (c seq : Nat) (m : FabMsg) : Outstanding :=
  { node := m.src, tag := m.tag, gen := m.gen, chan := c, cmd := m.cmd, addr := m.addr, len := m.len, at_ := s.now, seq := seq }

/-- The channel issued one request, which waits for its response. -/
abbrev Issues (s t : State) (c seq : Nat) (m : FabMsg) : Prop :=
  t.fab = { s.fab with flight := s.fab.flight ++ [m], outst := s.fab.outst ++ [dmaWaits s c seq m] }

/-- The channel posted one write on VC3 (R355). -/
abbrev Posts (s t : State) (m : FabMsg) : Prop := t.fab = { s.fab with flight := s.fab.flight ++ [m] }

/-- The channel halted with an error code and address, which its engine reported (R427, R428). -/
abbrev Halts (s t : State) (c code addr : Nat) : Prop :=
  t.chan c = { s.chan c with st := 4, err := code, failAddr := addr, move := none, wait := none } ∧ OtherChans s t c ∧
  t.dma.engines = s.dma.engines ∧ Raised s t 4 (chanEngine c) 0x0E01 3 (leBytes 1 (chanEngine c) ++ leBytes 1 (c % 32) ++
    leBytes 1 code ++ leBytes 1 (s.chanOwner c) ++ leBytes 8 addr) ∧ SameExcept [.dma, .ev] s t

/-- The channel goes on with the next instruction, `n` bytes further; nothing else of the engines has changed. -/
abbrev Advances (s t : State) (c n : Nat) (x : Chan) : Prop :=
  t.chan c = { x with pc := (x.pc + n) % 2 ^ 64 } ∧ OtherChans s t c ∧ t.dma.engines = s.dma.engines

/-- The engine of channel `c` has nothing else to go on with: no other channel of it has a MOVE, and none of its WRITEs waits
for a tag (R413). -/
abbrev QuietEngine (s : State) (c : Nat) : Prop :=
  (s.engine (chanEngine c)).writeQ = [] ∧ ∀ k, chanEngine k = chanEngine c → k ≠ c → (s.chan k).move = none

/-- A row that runs an instruction of 16 bytes, with the bytes fetched. -/
abbrev IsShortRow (i : Instr) (c : ChanId) (bs : List Byte) : Prop :=
  i = .loop c bs ∨ i = .waitAirtime c bs ∨ i = .waitCounter c bs ∨ i = .waitFlag c bs ∨ i = .signalCounter c bs ∨
  i = .signalFlag c bs ∨ i = .signalEvent c bs ∨ i = .dmaEnd c bs

end Sys2Proof.Claims

/-- Channel commands and flags (R363, R416, R418 to R420).  START takes an idle or halted channel to its program; STOP halts it
with STOPPED, at once where nothing is outstanding; RESET resets the channel as a master; setting a flag keeps it set, or, where
a consuming WAIT holds a channel, releases that channel and leaves the flag clear; CLEAR clears it. -/
def Obligations.DmaControl : Prop :=
  (∀ (c : ChanId) (s : State), (s.chan c).st = 0 ∨ (s.chan c).st = 4 → (s.chan c).prog % 16 = 0 →
    Does (.chanCmdStart c) s fun t => t.chan c = { st := 1, prog := (s.chan c).prog, pc := (s.chan c).prog } ∧
      OtherChans s t c ∧ t.dma.engines = s.dma.engines ∧ SameExcept [.dma] s t) ∧
  (∀ (c : ChanId) (s : State), (s.chan c).st = 0 ∨ (s.chan c).st = 4 → (s.chan c).prog % 16 ≠ 0 → chanOut s c = [] → Room 1 s →
    Does (.chanCmdStart c) s fun t => (t.chan c).st = 4 ∧ (t.chan c).err = 4 ∧ (t.chan c).failAddr = (s.chan c).prog ∧
      OtherChans s t c ∧ Queued t 4 (chanEngine c) 0x0E01 ∧ SameExcept [.dma, .ev] s t) ∧
  (∀ (c : ChanId) (s : State), (s.chan c).st ≠ 0 → (s.chan c).st ≠ 4 → Idle (.chanCmdStart c) s) ∧
  (∀ (c : ChanId) (s : State), (s.chan c).st = 1 ∨ (s.chan c).st = 2 →
    Does (.chanCmdStop c) s fun t => t.chan c = { s.chan c with
        st := if chanOut s c = [] then 4 else 3, err := 5, move := none, wait := none } ∧
      OtherChans s t c ∧ t.dma.engines = s.dma.engines ∧ SameExcept [.dma] s t) ∧
  (∀ (c : ChanId) (s : State), (s.chan c).st ≠ 1 → (s.chan c).st ≠ 2 → Idle (.chanCmdStop c) s) ∧
  (∀ (c : ChanId) (s : State),
    mapGet? (s.ni (4096 + c.val)).left (((s.ni (4096 + c.val)).gen + 1) % 4) = none → QuietEngine s c →
    Does (.chanCmdReset c) s fun t => t.chan c = {} ∧ OtherChans s t c ∧ t.dma.engines = s.dma.engines ∧
      (t.ni (4096 + c.val)).gen = ((s.ni (4096 + c.val)).gen + 1) % 4 ∧
      (∀ o, o ∈ t.fab.outst ↔ o ∈ s.fab.outst ∧ ¬(o.node = dmaNode (chanEngine c) ∧ o.chan = c.val)) ∧
      SameExcept [.dma, .fab] s t) ∧
  (∀ (e : EngineId) (f : Byte) (s : State), (s.engine e).flags.getLsbD f.toNat = true → Idle (.flagSet e f) s) ∧
  (∀ (e : EngineId) (f : Byte) (s : State), (s.engine e).flags.getLsbD f.toNat = false → (∀ c, (s.chan c).wait = none) →
    Does (.flagSet e f) s fun t => (t.engine e).flags = (s.engine e).flags ||| ((1 : BitVec 256) <<< f.toNat) ∧
      (∀ j, j ≠ e.val → t.engine j = s.engine j) ∧ t.dma.chans = s.dma.chans ∧ SameExcept [.dma] s t) ∧
  (∀ (e : EngineId) (f : Byte) (c : ChanId) (s : State), (s.engine e).flags.getLsbD f.toNat = false → chanEngine c = e.val →
    (s.chan c).st = 2 → (s.chan c).wait = some (3, f.toNat, true) → (s.chan c).loops = [] →
    (∀ j, j ≠ c.val → (s.chan j).wait = none) →
    Does (.flagSet e f) s fun t => (t.engine e).flags.getLsbD f.toNat = false ∧
      (∀ j, j ≠ f.toNat → (t.engine e).flags.getLsbD j = (s.engine e).flags.getLsbD j) ∧
      t.chan c = { s.chan c with st := 1, wait := none, pc := ((s.chan c).pc + 16) % 2 ^ 64 } ∧ OtherChans s t c ∧
      SameExcept [.dma] s t) ∧
  ∀ (e : EngineId) (f : Byte) (s : State),
    Does (.flagClear e f) s fun t => (t.engine e).flags = (s.engine e).flags &&& ~~~((1 : BitVec 256) <<< f.toNat) ∧
      (∀ j, j ≠ e.val → t.engine j = s.engine j) ∧ t.dma.chans = s.dma.chans ∧ SameExcept [.dma] s t

/-- The instructions of a channel program (R414, R421 to R423, R428), outside loops but where a clause says otherwise.  A
channel that does not run takes none; one that may not reach its own instruction, or meets an unknown opcode, halts with its
error code; LOOP enters its body, skips it at count 0, and goes round; WAIT goes on or waits; SIGNAL posts or raises; END ends
the program, or starts it again. -/
def Obligations.DmaInstructions : Prop :=
  (∀ (c : ChanId) (bs : List Byte) (s : State), (s.chan c).st ≠ 1 →
    ∀ i, i = .move c bs ∨ IsShortRow i c bs → Idle i s) ∧
  (∀ (c : ChanId) (bs : List Byte) (s : State), (s.chan c).st = 1 → (s.chan c).move = none → dmaMay s c (s.chan c).pc = false →
    chanOut s c = [] → Room 1 s →
    ∀ i, i = .move c bs ∨ IsShortRow i c bs → Does i s fun t => Halts s t c 4 (s.chan c).pc) ∧
  (∀ (c : ChanId) (bs : List Byte) (s : State), Runs s c 16 → rd bs 0 1 = 0 ∨ 5 < rd bs 0 1 → chanOut s c = [] → Room 1 s →
    ∀ i, IsShortRow i c bs → Does i s fun t => Halts s t c 1 0) ∧
  (∀ (c : ChanId) (bs : List Byte) (s : State), Runs s c 16 → rd bs 0 1 = 2 → rd bs 2 2 ≠ 0 → rd bs 4 4 ≠ 0 →
    Does (.loop c bs) s fun t => t.chan c = { s.chan c with
        pc := (s.chan c).pc + 16,
        loops := [{ first := (s.chan c).pc + 16, last := (s.chan c).pc + 16 + 16 * rd bs 2 2, idx := 0, count := rd bs 4 4 }] } ∧
      OtherChans s t c ∧ t.dma.engines = s.dma.engines ∧ SameExcept [.dma] s t) ∧
  (∀ (c : ChanId) (bs : List Byte) (s : State), Runs s c 16 → rd bs 0 1 = 2 → rd bs 2 2 ≠ 0 → rd bs 4 4 = 0 →
    Does (.loop c bs) s fun t => t.chan c = { s.chan c with pc := (s.chan c).pc + 16 + 16 * rd bs 2 2 } ∧
      OtherChans s t c ∧ t.dma.engines = s.dma.engines ∧ SameExcept [.dma] s t) ∧
  (∀ (c : ChanId) (bs : List Byte) (s : State), Runs s c 16 → rd bs 0 1 = 2 → rd bs 2 2 = 0 → chanOut s c = [] → Room 1 s →
    Does (.loop c bs) s fun t => Halts s t c 2 0) ∧
  (∀ (c : ChanId) (bs : List Byte) (v : LoopLevel) (rest : List LoopLevel) (s : State), (s.chan c).st = 1 → (s.chan c).move = none →
    dmaMay s c (s.chan c).pc = true → dmaMay s c ((s.chan c).pc + 15) = true → (s.chan c).loops = v :: rest →
    rd bs 0 1 = 3 → rd bs 1 1 = 1 → reached (s.localNow 1 (c / 32)) (rd bs 8 8 + v.idx * rd bs 4 4) = true →
    ((s.chan c).pc + 16) % 2 ^ 64 = v.last → v.idx + 1 < v.count →
    Does (.waitAirtime c bs) s fun t => t.chan c = { s.chan c with
        pc := v.first, loops := { v with idx := v.idx + 1 } :: rest } ∧
      OtherChans s t c ∧ t.dma.engines = s.dma.engines ∧ SameExcept [.dma] s t) ∧
  (∀ (c : ChanId) (bs : List Byte) (s : State), Runs s c 16 → rd bs 0 1 = 3 → rd bs 1 1 = 1 → reached (s.localNow 1 (c / 32)) (rd bs 8 8) = true →
    Does (.waitAirtime c bs) s fun t => Advances s t c 16 (s.chan c) ∧ SameExcept [.dma] s t) ∧
  (∀ (c : ChanId) (bs : List Byte) (s : State), Runs s c 16 → rd bs 0 1 = 3 → rd bs 1 1 = 1 →
    reached (s.localNow 1 (c / 32)) (rd bs 8 8) = false →
    Does (.waitAirtime c bs) s fun t => t.chan c = { s.chan c with st := 2, wait := some (1, rd bs 8 8, false) } ∧
      OtherChans s t c ∧ t.dma.engines = s.dma.engines ∧ SameExcept [.dma] s t) ∧
  (∀ (c : ChanId) (u : Nat) (b : Bool) (s : State), (s.chan c).st = 2 → (s.chan c).wait = some (1, u, b) → (s.chan c).loops = [] →
    reached (s.localNow 1 (c / 32)) u = true →
    Does (.waitAirtimeReached c) s fun t => Advances s t c 16 { s.chan c with st := 1, wait := none } ∧ SameExcept [.dma] s t) ∧
  (∀ (c : ChanId) (s : State), (s.chan c).wait = none → Idle (.waitAirtimeReached c) s ∧ Idle (.counterPoll c) s) ∧
  (∀ (c : ChanId) (bs : List Byte) (s : State), Runs s c 16 → rd bs 0 1 = 3 → rd bs 1 1 = 2 → s.chanOwner c = 0 →
    tagLeft s (dmaNode (chanEngine c)) = true →
    Does (.waitCounter c bs) s fun t =>
      t.chan c = { s.chan c with st := 2, wait := some (2, rd bs 8 2 % 65536, false), pollAt := s.now } ∧
      OtherChans s t c ∧ t.dma.engines = s.dma.engines ∧
      Issues s t c 0 (dmaPacket s c 1 0 (counterAddr (rd bs 8 2 % 65536)) 8 []) ∧ SameExcept [.dma, .fab] s t) ∧
  (∀ (c : ChanId) (bs : List Byte) (s : State), Runs s c 16 → rd bs 0 1 = 3 → rd bs 1 1 = 2 → s.chanOwner c ≠ 0 →
    chanOut s c = [] → Room 1 s →
    Does (.waitCounter c bs) s fun t => Halts s t c 4 (counterAddr (rd bs 8 2 % 65536))) ∧
  (∀ (c : ChanId) (k : Nat) (b : Bool) (s : State), (s.chan c).st = 2 → (s.chan c).wait = some (2, k, b) → chanReads s c = [] →
    pollDue s c = true → tagLeft s (dmaNode (chanEngine c)) = true →
    Does (.counterPoll c) s fun t => t.chan c = { s.chan c with pollAt := s.now } ∧ OtherChans s t c ∧
      t.dma.engines = s.dma.engines ∧ Issues s t c 0 (dmaPacket s c 1 0 (counterAddr k) 8 []) ∧ SameExcept [.dma, .fab] s t) ∧
  (∀ (c : ChanId) (s : State), pollDue s c = false → Idle (.counterPoll c) s) ∧
  (∀ (c : ChanId) (bs : List Byte) (s : State), Runs s c 16 → rd bs 0 1 = 3 → rd bs 1 1 = 3 →
    s.chanOwner c = 0 ∨ 192 ≤ rd bs 8 1 → (s.engine (chanEngine c)).flags.getLsbD (rd bs 8 1) = true →
    Does (.waitFlag c bs) s fun t => t.chan c = { s.chan c with pc := ((s.chan c).pc + 16) % 2 ^ 64 } ∧ OtherChans s t c ∧
      (t.engine (chanEngine c)).flags.getLsbD (rd bs 8 1) = (if bit (rd bs 2 1) 0 then false else true) ∧
      (∀ j, j ≠ rd bs 8 1 → (t.engine (chanEngine c)).flags.getLsbD j = (s.engine (chanEngine c)).flags.getLsbD j) ∧
      SameExcept [.dma] s t) ∧
  (∀ (c : ChanId) (bs : List Byte) (s : State), Runs s c 16 → rd bs 0 1 = 3 → rd bs 1 1 = 3 →
    s.chanOwner c = 0 ∨ 192 ≤ rd bs 8 1 → (s.engine (chanEngine c)).flags.getLsbD (rd bs 8 1) = false →
    Does (.waitFlag c bs) s fun t => t.chan c = { s.chan c with
        st := 2, wait := some (3, rd bs 8 1, bit (rd bs 2 1) 0) } ∧
      OtherChans s t c ∧ t.dma.engines = s.dma.engines ∧ SameExcept [.dma] s t) ∧
  (∀ (c : ChanId) (bs : List Byte) (s : State), Runs s c 16 → rd bs 0 1 = 4 → rd bs 1 1 = 1 → rd bs 2 1 ≤ 4 → s.chanOwner c = 0 →
    writesDone s c = true →
    Does (.signalCounter c bs) s fun t =>
      Advances s t c 16 { s.chan c with held := if rd bs 2 1 = 4 then 0 else (s.chan c).held } ∧
      Posts s t (dmaPacket s c 2 3 (counterAddr (rd bs 8 2 % 65536)) 8 (leBytes 8
        (2 * 2 ^ 24 + (if rd bs 2 1 = 4 then (s.chan c).held else rd bs 2 1) * 2 ^ 16))) ∧ SameExcept [.dma, .fab] s t) ∧
  (∀ (c : ChanId) (bs : List Byte) (s : State), Runs s c 16 → rd bs 0 1 = 4 → rd bs 1 1 = 2 → rd bs 2 1 ≤ 23 → s.chanOwner c = 0 →
    writesDone s c = true →
    Does (.signalFlag c bs) s fun t => Advances s t c 16 (s.chan c) ∧
      Posts s t (dmaPacket s c 2 3 (flagAddr (rd bs 2 1) (rd bs 8 1)) 8 (leBytes 8 1)) ∧ SameExcept [.dma, .fab] s t) ∧
  (∀ (c : ChanId) (bs : List Byte) (s : State), Runs s c 16 → rd bs 0 1 = 4 → rd bs 1 1 = 3 → writesDone s c = true → Room 1 s →
    Does (.signalEvent c bs) s fun t => Advances s t c 16 (s.chan c) ∧
      Raised s t 4 (chanEngine c) 0x0E02 0 (leBytes 1 (chanEngine c) ++ leBytes 1 (c % 32) ++ [0, 0] ++ slice bs 8 8) ∧
      SameExcept [.dma, .ev] s t) ∧
  (∀ (c : ChanId) (bs : List Byte) (s : State), Runs s c 16 → rd bs 0 1 = 4 → rd bs 1 1 = 3 → writesDone s c = false →
    Idle (.signalEvent c bs) s) ∧
  ∀ (c : ChanId) (bs : List Byte) (s : State), Runs s c 16 → rd bs 0 1 = 5 → bit (rd bs 1 1) 1 = false →
    Does (.dmaEnd c bs) s fun t => t.chan c = (if bit (rd bs 1 1) 0 then { s.chan c with pc := (s.chan c).prog }
        else { s.chan c with st := 0 }) ∧
      OtherChans s t c ∧ t.dma.engines = s.dma.engines ∧ SameExcept [.dma] s t

/-- MOVE (R413, R423, R424, R425, R427, R430).  A MOVE whose fields and ranges pass the checks is taken: the channel holds it
with the blocks that it will read, or with its immediate, and its engine goes on (clauses for one outside every loop).  A MOVE
of an immediate writes its bytes and ends; one whose source lies in one block reads it, and when the data has come writes it
and ends; a range of length 0 or beyond the owner's reach halts the channel, and so does an error response, with the code that
its status gives; a collision is counted. -/
def Obligations.DmaMoves : Prop :=
  (∀ (c : ChanId) (bs : List Byte) (sw dw g src dst : Nat) (s : State), Runs s c 64 → rd bs 0 1 = 1 →
    (if bit (rd bs 1 1) 2 then some 1 else widthOf (rd bs 2 1 / 16)) = some sw → widthOf (rd bs 2 1 % 16) = some dw →
    swapGroup (rd bs 3 1) = some g → 1 ≤ rd bs 4 4 → rd bs 4 4 ≤ 16777216 → (bit (rd bs 1 1) 2 = true → rd bs 4 4 ≤ 8) →
    rd bs 4 4 % g = 0 → src = rd bs 8 8 → dst = rd bs 16 8 →
    (bit (rd bs 1 1) 2 = false →
      ∀ r ∈ readBlocks sw src (rd bs 4 4), dmaMay s c r.2.1 = true ∧ dmaMay s c (r.2.1 + r.2.2 - 1) = true) →
    (∀ r ∈ readBlocks 64 dst (rd bs 4 4), dmaMay s c r.2.1 = true ∧ dmaMay s c (r.2.1 + r.2.2 - 1) = true) →
    (bit (rd bs 1 1) 0 = true → s.chanOwner c = 0) → (bit (rd bs 1 1) 1 = true → writesDone s c = true) →
    Does (.move c bs) s fun t => t = movePump (s.setChan c { s.chan c with move := some {
        timed := bit (rd bs 1 1) 0, src := src, dst := dst, len := rd bs 4 4, srcW := sw, dstW := dw, swap := rd bs 3 1
        toRead := if bit (rd bs 1 1) 2 then [] else readBlocks sw src (rd bs 4 4)
        hold := if bit (rd bs 1 1) 2 then (leBytes 8 src).take (rd bs 4 4) else [] } }) c ∧ SameExcept [.dma, .fab] s t) ∧
  (∀ (c : ChanId) (bs : List Byte) (w : Nat) (s : State), Runs s c 64 → rd bs 0 1 = 1 → bit (rd bs 1 1) 2 = true →
    bit (rd bs 1 1) 1 = false → rd bs 3 1 = 0 → 1 ≤ rd bs 4 4 → rd bs 4 4 ≤ 8 → s.chanOwner c = 0 →
    widthOf (rd bs 2 1 % 16) = some w → rd bs 16 8 / 256 = (rd bs 16 8 + rd bs 4 4 - 1) / 256 →
    dmaMay s c (rd bs 16 8) = true → dmaMay s c (rd bs 16 8 + rd bs 4 4 - 1) = true →
    rd bs 16 8 % w + rd bs 4 4 ≤ w → tagLeft s (dmaNode (chanEngine c)) = true → QuietEngine s c →
    Does (.move c bs) s fun t =>
      Advances s t c 64 { s.chan c with bytes := min ((s.chan c).bytes + rd bs 4 4) (2 ^ 64 - 1) } ∧
      Issues s t c 0 (dmaPacket s c 2 (if bit (rd bs 1 1) 0 then 2 else 0) (rd bs 16 8) (rd bs 4 4)
        ((leBytes 8 (rd bs 8 8)).take (rd bs 4 4))) ∧ SameExcept [.dma, .fab] s t) ∧
  (∀ (c : ChanId) (bs : List Byte) (s : State), Runs s c 64 → rd bs 0 1 = 1 → bit (rd bs 1 1) 2 = false → bit (rd bs 1 1) 1 = false →
    rd bs 3 1 = 0 → 1 ≤ rd bs 4 4 → s.chanOwner c = 0 → rd bs 2 1 = 0x66 →
    rd bs 8 8 / 256 = (rd bs 8 8 + rd bs 4 4 - 1) / 256 → rd bs 16 8 / 256 = (rd bs 16 8 + rd bs 4 4 - 1) / 256 →
    dmaMay s c (rd bs 8 8) = true → dmaMay s c (rd bs 8 8 + rd bs 4 4 - 1) = true →
    dmaMay s c (rd bs 16 8) = true → dmaMay s c (rd bs 16 8 + rd bs 4 4 - 1) = true →
    s.fab.outst = [] → QuietEngine s c → 0 < s.param 0x0E02 c →
    Does (.move c bs) s fun t => (∃ mv, t.chan c = { s.chan c with move := some mv } ∧ mv.toRead = [] ∧ mv.got = [] ∧
        mv.src = rd bs 8 8 ∧ mv.dst = rd bs 16 8 ∧ mv.len = rd bs 4 4 ∧ mv.written = 0 ∧ mv.timed = bit (rd bs 1 1) 0) ∧
      OtherChans s t c ∧ (∀ e, e ≠ chanEngine c → t.engine e = s.engine e) ∧
      t.engine (chanEngine c) = (if bit (rd bs 1 1) 0 then { s.engine (chanEngine c) with turnTimed := c % 32 }
        else { s.engine (chanEngine c) with turnPlain := c % 32 }) ∧
      Issues s t c 0 (dmaPacket s c 1 (if bit (rd bs 1 1) 0 then 2 else 0) (rd bs 8 8) (rd bs 4 4) []) ∧
      SameExcept [.dma, .fab] s t) ∧
  (∀ (c : ChanId) (m : FabMsg) (o : Outstanding) (mv : MoveJob) (s : State), Matches s m o → o.chan = c.val → o.timedOut = false →
    o.cmd = 1 → o.seq = 0 → m.status = 0 → (s.chan c).st = 1 → (s.chan c).wait = none → (s.chan c).loops = [] →
    (s.chan c).move = some mv → mv.toRead = [] → mv.got = [] → mv.nextGot = 0 → mv.hold = [] → mv.written = 0 → mv.swap = 0 →
    mv.srcW = 64 → mv.dstW = 64 → 1 ≤ mv.len → mv.src / 256 = (mv.src + mv.len - 1) / 256 →
    mv.dst / 256 = (mv.dst + mv.len - 1) / 256 → m.data.length = mv.len → QuietEngine s c →
    Does (.readResp m) s fun t =>
      Advances s t c 64 { s.chan c with move := none, bytes := min ((s.chan c).bytes + mv.len) (2 ^ 64 - 1) } ∧
      (∃ r, t.fab.flight = s.fab.flight.erase m ++ [r] ∧ r.cmd = 2 ∧ r.vc = (if mv.timed then 2 else 0) ∧ r.addr = mv.dst ∧
        r.len = mv.len ∧ r.data = m.data ∧ r.chan = c.val ∧ t.fab.outst = [dmaWaits s c 0 r]) ∧ SameExcept [.dma, .fab] s t) ∧
  (∀ (c : ChanId) (bs : List Byte) (s : State), Runs s c 64 → rd bs 0 1 = 1 → rd bs 4 4 = 0 → chanOut s c = [] → Room 1 s →
    Does (.move c bs) s fun t => Halts s t c 2 0) ∧
  (∀ (c : ChanId) (bs : List Byte) (s : State), Runs s c 64 → rd bs 0 1 = 1 → bit (rd bs 1 1) 2 = true → rd bs 3 1 = 0 →
    1 ≤ rd bs 4 4 → rd bs 4 4 ≤ 8 → rd bs 2 1 % 16 ≤ 6 → rd bs 16 8 / 256 = (rd bs 16 8 + rd bs 4 4 - 1) / 256 →
    dmaMay s c (rd bs 16 8) = false → chanOut s c = [] → Room 1 s →
    Does (.move c bs) s fun t => Halts s t c 4 (rd bs 16 8)) ∧
  (∀ (c : ChanId) (m : FabMsg) (o : Outstanding) (s : State), Matches s m o → o.chan = c.val → o.timedOut = false →
    1 ≤ m.status → m.status ≤ 8 → m.status ≠ 5 → (s.chan c).st = 1 → QuietEngine s c → Room 1 s →
    Does (.writeResp m) s fun t => t.chan c = { s.chan c with
        st := 4, err := 0x10 + m.status, failAddr := o.addr, move := none, wait := none } ∧ OtherChans s t c ∧
      t.fab.outst = [] ∧ Queued t 4 (chanEngine c) 0x0E01 ∧ SameExcept [.dma, .fab, .ev] s t) ∧
  (∀ (c : ChanId) (m : FabMsg) (o : Outstanding) (s : State), Matches s m o → o.chan = c.val → o.timedOut = false →
    m.status = 5 → (s.chan c).st = 1 → (s.chan c).wait = none → (s.chan c).move = none →
    QuietEngine s c → mapGet? s.ev.rate (rateKey 0x0E03 c) = none → Room 1 s →
    Does (.writeResp m) s fun t => t.dma.chans = s.dma.chans ∧ t.fab.outst = [] ∧
      (t.engine (chanEngine c)).collided = min ((s.engine (chanEngine c)).collided + 1) (2 ^ 32 - 1) ∧
      Queued t 4 (chanEngine c) 0x0E03 ∧ SameExcept [.dma, .fab, .ev] s t) ∧
  ∀ (c : ChanId) (m : FabMsg) (o : Outstanding) (k : Nat) (b : Bool) (s : State), Matches s m o → o.chan = c.val →
    o.timedOut = false → o.cmd = 1 → m.status = 0 → (s.chan c).st = 2 → (s.chan c).wait = some (2, k, b) → o.addr = counterAddr k →
    (s.chan c).loops = [] → (s.chan c).move = none → QuietEngine s c → leNat m.data % 65536 = 0 →
    Does (.readResp m) s fun t =>
      Advances s t c 16 { s.chan c with st := 1, wait := none, held := max (s.chan c).held (leNat m.data / 2 ^ 16 % 4) } ∧
      t.fab.outst = [] ∧ SameExcept [.dma, .fab] s t

/-! ## Host ports and Delaz (R432 to R469) -/

namespace Sys2Proof.Claims

open Sys2Proof.Machine

/-- No host port but `h` has changed. -/
abbrev OtherHosts (s t : State) (h : Fin 4) : Prop := ∀ j : Fin 4, j ≠ h → t.hp j = s.hp j

/-- The request as the device holds it: its opcode is the row's. -/
def asOp (rq : Req) (op : Nat) : Req := { rq with opcode := op }

/-- The state in which a packet's command runs: the packet is accepted, its port waits for the reply (R447). -/
def accepted (s : State) (rq : Req) (op : Nat) : State := acceptReq s (asOp rq op)

/-- The packet of a command with `n` payload bytes is accepted and passes every check of R443. -/
abbrev Accepts (s : State) (rq : Req) (op n : Nat) : Prop :=
  s.portShut rq.port = false ∧ n ≤ 4076 ∧ headCheck s (asOp rq op) n = none

/-- The command changes nothing and answers DZ_OK with a payload. -/
abbrev Answers (i : Instr) (s : State) (rq : Req) (op : Nat) (pl : List Byte) : Prop :=
  exec i s = .next (replyOk (accepted s rq op) (asOp rq op) pl)

/-- The command changes nothing and answers a refusal. -/
abbrev Refuses (i : Instr) (s : State) (rq : Req) (op st det : Nat) : Prop :=
  exec i s = .next (refuse (accepted s rq op) (asOp rq op) st det)

/-- The command leads to a state as described, and answers DZ_OK with a payload from there. -/
abbrev Leads (i : Instr) (rq : Req) (op : Nat) (pl : List Byte) (P : State → Prop) : State → Prop := fun s =>
  ∃ u, exec i s = .next (replyOk u (asOp rq op) pl) ∧ P u

/-- The row of a Delaz opcode (R449). -/
abbrev IsDelaz (i : Instr) (op : Nat) (rq : Req) (p : List Byte) : Prop :=
  (op = 0x0001 ∧ i = .devInfo rq p) ∨ (op = 0x0002 ∧ i = .devStatus rq p) ∨ (op = 0x0003 ∧ i = .resetWarm rq p) ∨
  (op = 0x0004 ∧ i = .flashRead rq p) ∨ (op = 0x0005 ∧ i = .flashErase rq p) ∨ (op = 0x0006 ∧ i = .flashWrite rq p) ∨
  (op = 0x0101 ∧ i = .paramGet rq p) ∨ (op = 0x0102 ∧ i = .paramSet rq p) ∨ (op = 0x0103 ∧ i = .cfgStage rq p) ∨
  (op = 0x0104 ∧ i = .cfgArm rq p) ∨ (op = 0x0105 ∧ i = .cfgDigest rq p) ∨ (op = 0x0201 ∧ i = .carrierStatus rq p) ∨
  (op = 0x0202 ∧ i = .radioNoiseRead rq p) ∨ (op = 0x0203 ∧ i = .radioStatus rq p) ∨ (op = 0x0301 ∧ i = .kernelWrite rq p) ∨
  (op = 0x0302 ∧ i = .kernelCommit rq p) ∨ (op = 0x0303 ∧ i = .kernelPlace rq p) ∨ (op = 0x0304 ∧ i = .kernelStatus rq p) ∨
  (op = 0x0305 ∧ i = .millEnqueue rq p) ∨ (op = 0x0306 ∧ i = .millCounterSet rq p) ∨ (op = 0x0307 ∧ i = .millCounterRead rq p) ∨
  (op = 0x0308 ∧ i = .traceRead rq p) ∨ (op = 0x0401 ∧ i = .timeStatus rq p) ∨ (op = 0x0402 ∧ i = .timeRead rq p) ∨
  (op = 0x0403 ∧ i = .airtimeRead rq p) ∨ (op = 0x0404 ∧ i = .timeSwitch rq p) ∨ (op = 0x0405 ∧ i = .timeRealign rq p) ∨
  (op = 0x0406 ∧ i = .timePtpFeed rq p) ∨ (op = 0x0407 ∧ i = .ptpRecv rq p) ∨ (op = 0x0408 ∧ i = .ptpSend rq p) ∨
  (op = 0x0409 ∧ i = .timedArm rq p) ∨ (op = 0x040A ∧ i = .timedCancel rq p) ∨ (op = 0x040B ∧ i = .timedStatus rq p) ∨
  (op = 0x0501 ∧ i = .memRegionCreate rq p) ∨ (op = 0x0502 ∧ i = .memRegionDelete rq p) ∨ (op = 0x0503 ∧ i = .memStatus rq p) ∨
  (op = 0x0504 ∧ i = .protRekey rq p) ∨ (op = 0x0505 ∧ i = .dmaChanStart rq p) ∨ (op = 0x0506 ∧ i = .dmaChanStop rq p) ∨
  (op = 0x0507 ∧ i = .dmaChanReset rq p) ∨ (op = 0x0508 ∧ i = .dmaChanStatus rq p) ∨ (op = 0x0601 ∧ i = .powerStatus rq p) ∨
  (op = 0x0602 ∧ i = .powerStateSet rq p) ∨ (op = 0x0701 ∧ i = .poolStatus rq p) ∨ (op = 0x0702 ∧ i = .takeover rq p) ∨
  (op = 0x0703 ∧ i = .migrate rq p) ∨ (op = 0x0801 ∧ i = .laneStatus rq p) ∨ (op = 0x0802 ∧ i = .laneMaintOpen rq p) ∨
  (op = 0x0803 ∧ i = .laneMaintClose rq p) ∨ (op = 0x0804 ∧ i = .laneEyescanStart rq p) ∨
  (op = 0x0805 ∧ i = .laneEyescanAbort rq p) ∨ (op = 0x0806 ∧ i = .laneEyescanRead rq p) ∨ (op = 0x0807 ∧ i = .fhCounters rq p) ∨
  (op = 0x0808 ∧ i = .fhExcRead rq p) ∨ (op = 0x0809 ∧ i = .fabricCounters rq p) ∨ (op = 0x080A ∧ i = .selftestRun rq p) ∨
  (op = 0x080B ∧ i = .selftestAbort rq p) ∨ (op = 0x080C ∧ i = .selftestStatus rq p) ∨ (op = 0x0901 ∧ i = .evtSubscribe rq p) ∨
  (op = 0x0902 ∧ i = .evtRead rq p) ∨ (op = 0x0903 ∧ i = .evtUnsubscribe rq p) ∨ (op = 0x0A01 ∧ i = .dbgChallenge rq p) ∨
  (op = 0x0A02 ∧ i = .dbgUnlock rq p) ∨ (op = 0x0A03 ∧ i = .dbgLock rq p) ∨ (op = 0x0A04 ∧ i = .dbgStatus rq p) ∨
  (op = 0x0B01 ∧ i = .ageingReport rq p) ∨ (op = 0x0B02 ∧ i = .ageingHistory rq p)

/-- The payload of DEV_STATUS (R455). -/
def devStatusBytes (s : State) : List Byte :=
  leBytes 1 s.boot.devState ++ leBytes 1 s.boot.step ++ leBytes 1 s.boot.fail ++ leBytes 1 (if s.time.aligned then 1 else 0) ++
  leBytes 2 s.activeCarriers.length ++ [0, 0] ++ leBytes 8 s.now

/-- A reply with its CRC-32C (R441, R442). -/
def withCrc32 (b : List Byte) : List Byte := b ++ leBytes 4 (crc32c b)

end Sys2Proof.Claims

/-- Registers, resets and links of the host ports, the SPI port, and the end of a flash operation (R432 to R440, R457, R467).
A doorbell queues a free slot and counts any other; a write of the ring's base or size empties it; a read of AT_LO latches the
high half; a vector that was pending is sent when nothing masks it; PERST# and FLR give the port its reset values, and PERST#
takes its link down; the SPI port takes a packet while it is ready, and returns its status and its reply; an erase or a write
ends with the flash as it asked. -/
def Obligations.HostPorts : Prop :=
  (∀ (h : HostId) (v : BitVec 32) (s : State), v.toNat < 64 → (s.hp h).slotBusy.getLsbD v.toNat = false →
    Does (.doorbell h v) s fun t => t.hp h = { s.hp h with
        slotBusy := (s.hp h).slotBusy ||| ((1 : BitVec 64) <<< v.toNat), order := (s.hp h).order ++ [v.toNat],
        submitted := ((s.hp h).submitted + 1) % 2 ^ 32 } ∧ OtherHosts s t h ∧ SameExcept [.host] s t) ∧
  (∀ (h : HostId) (v : BitVec 32) (s : State), 64 ≤ v.toNat ∨ (s.hp h).slotBusy.getLsbD v.toNat = true →
    Does (.doorbell h v) s fun t =>
      t.hp h = { s.hp h with doorbellErr := min ((s.hp h).doorbellErr + 1) (2 ^ 32 - 1) } ∧ OtherHosts s t h ∧ SameExcept [.host] s t) ∧
  (∀ (h : HostId) (v : BitVec 64) (s : State), (s.hp h).waiting = none →
    Does (.replyBaseWrite h v) s fun t =>
      t.hp h = { s.hp h with replyBase := v.toNat / 4096 * 4096, replyWr := 0, replyRd := 0 } ∧ OtherHosts s t h ∧
      SameExcept [.host] s t) ∧
  (∀ (h : HostId) (v : BitVec 32) (s : State), v = 0 ∨ v = 16 ∨ v = 32 ∨ v = 64 ∨ v = 128 ∨ v = 256 ∨ v = 512 ∨ v = 1024 →
    Does (.replySizeWrite h v) s fun t => t.hp h = { s.hp h with
        replySize := v.toNat, replyWr := 0, replyRd := 0, waiting := none,
        current := if (s.hp h).waiting.isSome then none else (s.hp h).current } ∧ OtherHosts s t h ∧ SameExcept [.host] s t) ∧
  (∀ (h : HostId) (v : BitVec 32) (s : State), ringSizeOk v.toNat = false → Idle (.replySizeWrite h v) s) ∧
  (∀ (h : HostId) (v : BitVec 32) (s : State), (s.hp h).waiting = none → (s.hp h).msixEnable = false →
    Does (.replyRdWrite h v) s fun t => t.hp h = { s.hp h with replyRd := v.toNat } ∧ OtherHosts s t h ∧ SameExcept [.host] s t) ∧
  (∀ (h : HostId) (s : State),
    Does (.atLoRead h) s fun t => t.hp h = { s.hp h with atHi := BitVec.ofNat 32 (s.now / 2 ^ 32) } ∧ OtherHosts s t h ∧
      SameExcept [.host] s t) ∧
  (∀ (h : HostId) (v : Fin 64) (s : State), (s.hp h).msixEnable = true → (s.hp h).msixMask = true →
    (s.hp h).pba = (1 : BitVec 64) <<< v.val → (s.hp h).vecMask.getLsbD v = false →
    Does (.msixUnmask h none) s fun t => t.hp h = { s.hp h with
        msixMask := false, pba := 0, msixSent := mapMod (s.hp h).msixSent v 0 (· + 1) } ∧ OtherHosts s t h ∧
      SameExcept [.host] s t) ∧
  (∀ (h : HostId) (v : Fin 64) (s : State), (s.hp h).pba = 0 →
    Does (.msixUnmask h (some v)) s fun t => (t.hp h).vecMask.getLsbD v = false ∧
      (∀ j, j ≠ v.val → (t.hp h).vecMask.getLsbD j = (s.hp h).vecMask.getLsbD j) ∧ (t.hp h).msixSent = (s.hp h).msixSent ∧
      OtherHosts s t h ∧ SameExcept [.host] s t) ∧
  (∀ (h : HostId) (v : BitVec 64) (s : State),
    Does (.registerWrite (.bar0 h 0x000C false v)) s fun t =>
      t.hp h = { s.hp h with scratch := BitVec.ofNat 32 (v.toNat % 2 ^ 32) } ∧ OtherHosts s t h ∧ SameExcept [.host] s t) ∧
  (∀ (e : EngineId) (f : Byte) (v : BitVec 64) (s : State), 2 < v.toNat % 256 ∨ v.toNat % 256 = 0 →
    Does (.registerWrite (.flag e f v)) s fun t =>
      t.engine e = { s.engine e with flagBad := min ((s.engine e).flagBad + 1) (2 ^ 32 - 1) } ∧ t.dma.chans = s.dma.chans ∧
      SameExcept [.dma] s t) ∧
  (∀ (h : HostId) (s : State), ownedChans s h = [] → s.ev.subs = [] → s.ev.loss = [] → (s.hp h).current = none →
    (s.hp h).waiting = none → (s.hp h).linkUp = true → Room 2 s →
    Does (.perst h) s fun t =>
      t.hp h = { role := (s.hp h).role, slots := (s.hp h).slots, mem := (s.hp h).mem, msixSent := (s.hp h).msixSent } ∧
      OtherHosts s t h ∧ t.staged h = [] ∧ Queued t 9 h 0x0F02 ∧ Queued t 9 h 0x0F01 ∧
      SameExcept [.host, .fab, .cfg, .ev] s t) ∧
  (∀ (h : HostId) (s : State), ownedChans s h = [] → s.ev.subs = [] → s.ev.loss = [] → (s.hp h).current = none →
    (s.hp h).waiting = none → Room 1 s →
    Does (.flr h) s fun t => t.hp h = {
        linkUp := (s.hp h).linkUp, width := (s.hp h).width, rate := (s.hp h).rate,
        role := (s.hp h).role, slots := (s.hp h).slots, mem := (s.hp h).mem, msixSent := (s.hp h).msixSent } ∧
      OtherHosts s t h ∧ t.staged h = [] ∧ Queued t 9 h 0x0F02 ∧ SameExcept [.host, .fab, .cfg, .ev] s t) ∧
  (∀ (h : HostId) (w r : Byte) (s : State), 1 ≤ (s.hp h).role → (s.hp h).role ≤ 3 → (s.hp h).linkUp = false → Room 1 s →
    Does (.hostLinkChange h true w r) s fun t =>
      t.hp h = { s.hp h with linkUp := true, width := w.toNat, rate := r.toNat } ∧ OtherHosts s t h ∧
      Raised s t 9 h 0x0F01 1 (leBytes 1 h ++ leBytes 1 1 ++ leBytes 1 w.toNat ++ leBytes 1 r.toNat) ∧ SameExcept [.host, .ev] s t) ∧
  (∀ (h : HostId) (w r : Byte) (s : State), (s.hp h).role = 0 → Idle (.hostLinkChange h true w r) s) ∧
  (∀ (b : List Byte) (s : State), s.host.spi.enabled = true → s.boot.devState ≠ 3 → s.host.spi.ready = true →
    Does (.packetWrite b) s fun t => t.host = { s.host with spi := { s.host.spi with packet := some b, miso := [] } } ∧
      SameExcept [.host] s t) ∧
  (∀ (b : List Byte) (s : State), s.host.spi.enabled = true → s.boot.devState ≠ 3 → s.host.spi.ready = false →
    Does (.packetWrite b) s fun t => t.host = { s.host with
        spi := { s.host.spi with discarded := min (s.host.spi.discarded + 1) (2 ^ 32 - 1), miso := [] } } ∧ SameExcept [.host] s t) ∧
  (∀ (n : Nat) (s : State), s.host.spi.enabled = false → Idle .statusRead s ∧ Idle (.replyRead n) s) ∧
  (∀ (s : State), s.host.spi.enabled = true →
    Does .statusRead s fun t => t.host = { s.host with spi := { s.host.spi with
        miso := leBytes 1 ((if s.host.spi.ready then 1 else 0) + (if s.host.spi.reply.isSome then 2 else 0) +
          (if s.boot.devState = 0 ∨ s.boot.devState = 5 then 4 else 0)) } } ∧ SameExcept [.host] s t) ∧
  (∀ (r : List Byte) (n : Nat) (s : State), s.host.spi.enabled = true → s.host.spi.reply = some r → r.length ≤ n →
    Does (.replyRead n) s fun t => t.host = { s.host with
        spi := { s.host.spi with reply := none, readPos := 0, miso := r ++ List.replicate (n - r.length) 0 } } ∧
      SameExcept [.host] s t) ∧
  (∀ (d : Bool) (s : State), s.host.flashOp = none → Idle (.flashOperationComplete d) s) ∧
  (∀ (f : FlashOp) (s : State), s.host.flashOp = some f → f.erase = true →
    ∃ u, exec (.flashOperationComplete false) s = .next (replyOk u f.req []) ∧ u.host.flashOp = none ∧
      (∀ a, byteAt 0xFF u.host.flash a = if f.offset ≤ a ∧ a < f.offset + f.len then 0xFF else byteAt 0xFF s.host.flash a) ∧
      SameExcept [.host] s u) ∧
  ∀ (f : FlashOp) (s : State), s.host.flashOp = some f → f.erase = false → f.len = f.data.length →
    bytesRead 0xFF s.host.flash f.offset f.len = List.replicate f.len 0xFF →
    ∃ u, exec (.flashOperationComplete false) s = .next (replyOk u f.req []) ∧ u.host.flashOp = none ∧
      bytesRead 0xFF u.host.flash f.offset f.len = f.data ∧
      (∀ a, a < f.offset ∨ f.offset + f.len ≤ a → byteAt 0xFF u.host.flash a = byteAt 0xFF s.host.flash a) ∧
      SameExcept [.host] s u

/-- How a packet is taken and answered (R433, R438, R439, R441 to R444, R447, R450).  A port with a packet in progress takes
none; a command that a check of R443 stops is answered with that check's status and detail and has no other effect; while the
device boots a host port gets DZ_BOOTING for all but DEV_INFO and DEV_STATUS, SAFE state refuses the groups that act, and a
role that the catalogue does not give gets DZ_ROLE.  A reply goes to the SPI port, or into the host's ring; with the ring full
it waits, with the link down it is discarded and counted, and a QUIET success has none. -/
def Obligations.DelazPackets : Prop :=
  (∀ (i : Instr) (op : Nat) (rq : Req) (p : List Byte) (s : State), IsDelaz i op rq p → s.portShut rq.port = true → Idle i s) ∧
  (∀ (i : Instr) (op : Nat) (rq : Req) (p : List Byte) (s : State), IsDelaz i op rq p → s.portShut rq.port = false →
    4076 < p.length → Refuses i s rq op 3 0xFFFF) ∧
  (∀ (i : Instr) (op st det : Nat) (rq : Req) (p : List Byte) (s : State), IsDelaz i op rq p → s.portShut rq.port = false →
    p.length ≤ 4076 → headCheck s (asOp rq op) p.length = some (st, det) → Refuses i s rq op st det) ∧
  (∀ (i : Instr) (op : Nat) (rq : Req) (p : List Byte) (s : State), IsDelaz i op rq p → s.portShut rq.port = false →
    p.length ≤ 4076 → rq.port < 4 → s.boot.devState = 0 → 2 < op → Refuses i s rq op 15 0) ∧
  (∀ (i : Instr) (op : Nat) (o : OpInfo) (rq : Req) (p : List Byte) (s : State), IsDelaz i op rq p → s.portShut rq.port = false →
    p.length ≤ 4076 → rq.port < 4 → s.boot.devState ≠ 0 → s.boot.devState ≠ 5 → opInfo op = some o →
    (s.hp rq.port).role = 0 ∨ bit o.roles ((s.hp rq.port).role - 1) = false → Refuses i s rq op 6 (s.hp rq.port).role) ∧
  (∀ (i : Instr) (op : Nat) (rq : Req) (p : List Byte) (s : State), IsDelaz i op rq p → s.portShut rq.port = false →
    p.length ≤ 4076 → 4 ≤ rq.port → s.boot.devState = 4 → safeGroup op = true → Refuses i s rq op 16 0) ∧
  (∀ (rq : Req) (p : List Byte) (s : State), Accepts s rq 0x0002 p.length → 4 ≤ rq.port → rq.quiet = false →
    Does (.devStatus rq p) s fun t => t.host = { s.host with
        lastPort := 4,
        spi := { s.host.spi with
          packet := none, current := none, readPos := 0,
          reply := some (withCrc32 (replyHeader (asOp rq 2) 16 0 0 false ++ devStatusBytes s)) } } ∧ SameExcept [.host] s t) ∧
  (∀ (h : HostId) (rq : Req) (p : List Byte) (s : State), rq.port = h → Accepts s rq 0x0002 p.length → rq.quiet = false →
    (s.hp h).linkUp = true → (s.hp h).pending < (s.hp h).replySize → (s.hp h).msixEnable = false →
    Does (.devStatus rq p) s fun t =>
      let hdr := replyHeader (asOp rq 2) 16 0 0 ((s.hp h).replyWr / (s.hp h).replySize % 2 = 0)
      let at_ := (s.hp h).replyBase / 4096 * 4096 + 4096 * ((s.hp h).replyWr % (s.hp h).replySize)
      t.hp h = { s.hp h with
          dropReply := false, current := none, waiting := none, replyWr := ((s.hp h).replyWr + 1) % 2 ^ 32,
          mem := bytesWrite 0 (bytesWrite 0 (s.hp h).mem (at_ + 16)
            (devStatusBytes s ++ leBytes 4 (crc32c (hdr ++ devStatusBytes s)))) at_ hdr } ∧
      OtherHosts s t h ∧ t.host.lastPort = h ∧ SameExcept [.host] s t) ∧
  (∀ (h : HostId) (rq : Req) (p : List Byte) (s : State), rq.port = h → Accepts s rq 0x0002 p.length → rq.quiet = false →
    (s.hp h).linkUp = true → (s.hp h).replySize ≠ 0 → (s.hp h).replySize ≤ (s.hp h).pending →
    Does (.devStatus rq p) s fun t => t.hp h = { s.hp h with
          dropReply := false, current := some (asOp rq 2),
          waiting := some (replyHeader (asOp rq 2) 16 0 0 false ++ devStatusBytes s) } ∧
      OtherHosts s t h ∧ SameExcept [.host] s t) ∧
  (∀ (h : HostId) (rq : Req) (p : List Byte) (s : State), rq.port = h → Accepts s rq 0x0002 p.length → rq.quiet = false →
    (s.hp h).linkUp = false → mapGet? s.ev.rate (rateKey 0x0F03 h) = none → Room 1 s →
    Does (.devStatus rq p) s fun t => t.hp h = { s.hp h with
          dropReply := false, current := none, replyDiscarded := min ((s.hp h).replyDiscarded + 1) (2 ^ 32 - 1) } ∧
      OtherHosts s t h ∧ Queued t 9 h 0x0F03 ∧ SameExcept [.host, .ev] s t) ∧
  (∀ (h : HostId) (rq : Req) (p : List Byte) (s : State), rq.port = h → Accepts s rq 0x0002 p.length → rq.quiet = true →
    Does (.devStatus rq p) s fun t => t.hp h = { s.hp h with dropReply := false, current := none } ∧ OtherHosts s t h ∧
      SameExcept [.host] s t) ∧
  (∀ (s : State), turn s = none → Idle .packetAcceptance s) ∧
  (∀ (b : List Byte) (q : Nat) (s : State), turn s = some (q, b) → rd b 4 2 ≤ 4076 → (q < 4 ∨ b.length = 20 + rd b 4 2) →
    packetCrcOk b (rd b 4 2) = true → rd b 0 2 = 2 → headCheck s (packetReq q b) (rd b 4 2) = none →
    exec .packetAcceptance s =
      .next (replyOk (acceptReq (freeSlot s q) (packetReq q b)) (packetReq q b) (devStatusBytes s))) ∧
  ∀ (b : List Byte) (s : State), turn s = some (4, b) → rd b 4 2 ≤ 4076 → b.length = 20 + rd b 4 2 →
    packetCrcOk b (rd b 4 2) = false →
    exec .packetAcceptance s = .next (refuse (acceptReq s (packetReq 4 b)) (packetReq 4 b) 1 0)

/-- Device and compute commands (R338, R347, R455 to R463).  Each clause gives the reply and what the command changed before
it. -/
def Obligations.DelazDevice : Prop :=
  (∀ (rq : Req) (p : List Byte) (s : State), Accepts s rq 0x0001 p.length → s.boot.devState ≠ 0 → s.param 0x1102 0 ≠ 1 →
    Answers (.devInfo rq p) s rq 0x0001 (leBytes 2 0x9640 ++ leBytes 1 0x42 ++ leBytes 1 0 ++
      leBytes 1 Config.speedGrade ++ leBytes 1 (min rq.port 4) ++ leBytes 1 (s.roleOf rq.port) ++ leBytes 1 (s.param 0x1101 0) ++
      leBytes 8 Config.serialNumber ++ leBytes 4 Config.romVersion ++ leBytes 4 Config.lanimanVersion ++ leBytes 8 0)) ∧
  (∀ (rq : Req) (p : List Byte) (s : State), Accepts s rq 0x0002 p.length →
    Answers (.devStatus rq p) s rq 0x0002 (devStatusBytes s)) ∧
  (∀ (rq : Req) (p : List Byte) (s : State), Accepts s rq 0x0003 p.length → s.boot.devState ≠ 5 →
    Does (.resetWarm rq p) s fun t => t.boot = { s.boot with warmDue := true } ∧
      (∀ h : Fin 4, (t.hp h).order = [] ∧ (t.hp h).slotBusy = 0 ∧ (t.hp h).current = none ∧ (t.hp h).waiting = none) ∧
      t.host.spi.packet = none ∧ SameExcept [.host, .ev, .boot] s t) ∧
  (∀ (rq : Req) (p : List Byte) (s : State), Accepts s rq 0x0004 p.length → s.host.flashOp = none → 1 ≤ rd p 4 2 → rd p 4 2 ≤ 4064 →
    rd p 0 4 + rd p 4 2 ≤ 0x800000 →
    Answers (.flashRead rq p) s rq 0x0004 ((List.range (rd p 4 2)).map fun i =>
      if 0x1010 ≤ rd p 0 4 + i ∧ rd p 0 4 + i < 0x1030 then 0 else byteAt 0xFF s.host.flash (rd p 0 4 + i))) ∧
  (∀ (rq : Req) (p : List Byte) (s : State), Accepts s rq 0x0005 p.length → s.host.flashOp = none → rd p 0 4 % 4096 = 0 →
    rd p 4 4 % 4096 = 0 → rd p 0 4 + rd p 4 4 ≤ 0x800000 →
    Does (.flashErase rq p) s fun t => t.host = { (accepted s rq 0x0005).host with
        flashOp := some { req := asOp rq 0x0005, erase := true, offset := rd p 0 4, len := rd p 4 4, data := [] } } ∧ SameExcept [.host] s t) ∧
  (∀ (rq : Req) (p : List Byte) (s : State), Accepts s rq 0x0006 p.length → s.host.flashOp = none →
    rd p 0 4 + (p.drop 4).length ≤ 0x800000 →
    Does (.flashWrite rq p) s fun t => t.host = { (accepted s rq 0x0006).host with
        flashOp := some { req := asOp rq 0x0006, erase := false, offset := rd p 0 4, len := (p.drop 4).length, data := p.drop 4 } } ∧
      SameExcept [.host] s t) ∧
  (∀ (rq : Req) (p : List Byte) (s : State), Accepts s rq 0x0201 p.length → s.param 0x1102 0 ≠ 1 → rq.inst ≤ 1023 →
    Answers (.carrierStatus rq p) s rq 0x0201 (leBytes 1 (s.param 0x1001 rq.inst) ++ leBytes 1 (tierOf s (rq.inst % 4) rq.inst) ++
      leBytes 1 (s.param 0x0607 rq.inst) ++ leBytes 1 (s.param 0x0608 rq.inst) ++
      leBytes 4 (mapGet s.cfg.gens (Scope.carrier rq.inst).key 0) ++ leBytes 4 (ownerOf s rq.inst).2 ++
      leBytes 1 (ownerOf s rq.inst).1 ++ [0, 0, 0])) ∧
  (∀ (rq : Req) (p : List Byte) (x : Nat) (s : State), Accepts s rq 0x0202 p.length → p.length = 2 → rd p 0 2 = x → x < 16384 →
    s.param 0x061C x = rq.inst → s.param 0x061E x = 0 →
    Answers (.radioNoiseRead rq p) s rq 0x0202
      (((mapGet s.ports.noise x {}).record).getD (leBytes 14 0 ++ leBytes 1 1 ++ [0]))) ∧
  (∀ (rq : Req) (p : List Byte) (s : State), Accepts s rq 0x0203 p.length →
    let xs := (listedInst s 0x061C).filter fun x => s.param 0x061C x = rq.inst
    let out := (xs.drop (rd p 0 2)).take 253
    Answers (.radioStatus rq p) s rq 0x0203 (leBytes 4 (s.cfh rq.inst).idleMapBad ++ leBytes 4 (s.cfh rq.inst).occasions ++
      leBytes 4 (s.cfh rq.inst).detections ++ leBytes 4 (s.cfh rq.inst).overloads ++ leBytes 2 xs.length ++ leBytes 2 out.length ++
      out.flatMap fun x => leBytes 2 x ++ [0, 0] ++ leBytes 4 (eaxcOf s x).satUl ++ leBytes 4 (eaxcOf s x).satDl ++
        leBytes 4 (eaxcOf s x).prachShort)) ∧
  (∀ (rq : Req) (p : List Byte) (s : State), Accepts s rq 0x0301 p.length → rd p 0 1 ≤ 63 → rd p 4 4 + (p.drop 8).length ≤ 32832 →
    Leads (.kernelWrite rq p) rq 0x0301 [] (fun u => u.image (rd p 0 1) =
        { bytes := bytesWrite 0 (s.image (rd p 0 1)).bytes (rd p 4 4) (p.drop 8), committed := false } ∧
      (∀ j, j ≠ rd p 0 1 → u.image j = s.image j) ∧ SameExcept [.host] s u) s) ∧
  (∀ (rq : Req) (p : List Byte) (s : State), Accepts s rq 0x0302 p.length → rd p 0 1 ≤ 63 → imageCheck (s.image (rd p 0 1)) = none →
    Leads (.kernelCommit rq p) rq 0x0302 [] (fun u => u.image (rd p 0 1) = { s.image (rd p 0 1) with committed := true } ∧
      (∀ j, j ≠ rd p 0 1 → u.image j = s.image j) ∧ SameExcept [.host] s u) s) ∧
  (∀ (rq : Req) (p : List Byte) (n : Nat) (s : State), Accepts s rq 0x0302 p.length → rd p 0 1 ≤ 63 →
    imageCheck (s.image (rd p 0 1)) = some n →
    ∃ u, exec (.kernelCommit rq p) s = .next (refuse u (asOp rq 0x0302) 4 n) ∧ (u.image (rd p 0 1)).committed = false ∧
      SameExcept [.host] s u) ∧
  (∀ (rq : Req) (p : List Byte) (k : Nat) (s : State), Accepts s rq 0x0303 p.length → rd p 0 1 ≤ 63 → s.host.placeWait = none →
    (s.image (rd p 0 1)).committed = true → maskCores (p.drop 8) = [k] → imageTail (s.image (rd p 0 1)) = 2 →
    s.underTest k = false → s.domainOn (k / 16) = false →
    Leads (.kernelPlace rq p) rq 0x0303 (leBytes 2 1) (fun u =>
      u.core k = { s.core k with imem := imageCode (s.image (rd p 0 1)) } ∧
      (∀ j, j ≠ k → u.core j = s.core j) ∧ mapGet? u.host.placed k = some (rd p 0 1) ∧
      mapGet? u.host.kernelTail k = some 2 ∧ u.host.placeWait = none ∧
      SameExcept [.host, .facet] s u) s) ∧
  (∀ (rq : Req) (p : List Byte) (s : State), Accepts s rq 0x0303 p.length → rd p 0 1 ≤ 63 → s.host.placeWait = none →
    (s.image (rd p 0 1)).committed = false → Refuses (.kernelPlace rq p) s rq 0x0303 9 0) ∧
  (∀ (rq : Req) (p : List Byte) (s : State), Accepts s rq 0x0304 p.length →
    Answers (.kernelStatus rq p) s rq 0x0304
      ((List.range 1024).map fun k => BitVec.ofNat 8 (mapGet s.host.placed k 255))) ∧
  (∀ (rq : Req) (p : List Byte) (s : State), Accepts s rq 0x0305 p.length → p.length = 72 → rd p 0 1 ≤ 3 →
    let e := enqueueOp (accepted s rq 0x0305) (rd p 0 1) (slice p 8 64)
    exec (.millEnqueue rq p) s = .next (replyOk e.1 (asOp rq 0x0305) (leBytes 1 e.2))) ∧
  (∀ (rq : Req) (p : List Byte) (s : State), Accepts s rq 0x0306 p.length → p.length = 4 → rd p 2 2 ≠ 0 →
    Leads (.millCounterSet rq p) rq 0x0306 [] (fun u =>
      (u.slc (rd p 0 2 / 16384)).counter (rd p 0 2) = { count := rd p 2 2, status := 0 } ∧
      OtherSlices s u (rd p 0 2 / 16384) ∧ SameExcept [.host, .mill] s u) s) ∧
  (∀ (rq : Req) (p : List Byte) (s : State), Accepts s rq 0x0307 p.length →
    Answers (.millCounterRead rq p) s rq 0x0307
      ((List.range (p.length / 2)).flatMap fun i => leBytes 8 (counterWord s (rd p (2 * i) 2)))) ∧
  (∀ (rq : Req) (p : List Byte) (s : State), Accepts s rq 0x0308 p.length → rd p 0 1 ≤ 3 → rd p 8 8 ≥ (s.slc (rd p 0 1)).traceWritten →
    Answers (.traceRead rq p) s rq 0x0308 (leBytes 8 (s.slc (rd p 0 1)).traceWritten ++ leBytes 4 (s.slc (rd p 0 1)).traceLost ++
      leBytes 4 0)) ∧
  ∀ (rq : Req) (p : List Byte) (s : State), Accepts s rq 0x0308 p.length → 3 < rd p 0 1 → Refuses (.traceRead rq p) s rq 0x0308 5 0

/-- Configuration and time commands (R37, R38, R56, R93, R99, R101, R453, R454, R464, R465, R470 to R472, R486).  Each clause
gives the reply and what the command changed before it. -/
def Obligations.DelazTime : Prop :=
  (∀ (rq : Req) (p : List Byte) (l : List Entry) (s : State), Accepts s rq 0x0101 p.length →
    entries (p.length + 1) s .get 0 p = .inr l → firstUnfit (l.map (entryBytes s)) = none →
    Answers (.paramGet rq p) s rq 0x0101 (l.map (entryBytes s)).flatten) ∧
  (∀ (rq : Req) (p : List Byte) (st i : Nat) (s : State), Accepts s rq 0x0101 p.length →
    entries (p.length + 1) s .get 0 p = .inl (st, i) → Refuses (.paramGet rq p) s rq 0x0101 st i) ∧
  (∀ (rq : Req) (p : List Byte) (e : Entry) (s : State), Accepts s rq 0x0102 p.length → entries (p.length + 1) s .set 0 p = .inr [e] →
    pairFail (s.setParam e.id e.inst e.val) [e] = none → e.id < 0x0401 ∨ 0x0404 < e.id → e.id ≠ 0x0213 → e.id ≠ 0x0A01 →
    e.id ≠ 0x080E →
    Leads (.paramSet rq p) rq 0x0102 [] (fun u => u.param e.id e.inst = e.val ∧
      (∀ i j, pkey i j ≠ pkey e.id e.inst → u.param i j = s.param i j) ∧ u.cfg = { s.cfg with params := u.cfg.params } ∧
      SameExcept [.host, .cfg] s u) s) ∧
  (∀ (rq : Req) (p : List Byte) (st i : Nat) (s : State), Accepts s rq 0x0102 p.length →
    entries (p.length + 1) s .set 0 p = .inl (st, i) → Refuses (.paramSet rq p) s rq 0x0102 st i) ∧
  (∀ (rq : Req) (p : List Byte) (e : Entry) (s : State), Accepts s rq 0x0103 p.length → rd p 0 1 = 0 →
    entries (p.length + 1) s .stage 0 (p.drop 8) = .inr [e] → s.staged rq.port = [] →
    Leads (.cfgStage rq p) rq 0x0103 (leBytes 4 1) (fun u => u.staged rq.port = [(pkey e.id e.inst, e.val)] ∧
      u.cfg.params = s.cfg.params ∧ (∀ j, j ≠ rq.port → u.staged j = s.staged j) ∧ SameExcept [.host, .cfg] s u) s) ∧
  (∀ (rq : Req) (p : List Byte) (s : State), Accepts s rq 0x0104 p.length → armCheck s (s.staged rq.port) (rd p 0 8) = none →
    let us := unitsConcerned s (s.staged rq.port)
    Does (.cfgArm rq p) s fun t => t.cfg = { s.cfg with
        commit := some {
          req := asOp rq 0x0104, t := rd p 0 8, set := s.staged rq.port, units := us
          reasons := (us.filter (unitClosed s)).map fun u => (u, 1) } } ∧
      t.comp 0 = { armed := true, action := 1, arg := 0, target := rd p 0 8, late := reached s.now (rd p 0 8) } ∧
      t.comp 1 = { armed := true, action := 1, arg := 1, target := rd p 0 8 + 1966080, late := reached s.now (rd p 0 8 + 1966080) } ∧
      (∀ n, 1 < n → t.comp n = s.comp n) ∧ SameExcept [.host, .cfg, .time] s t) ∧
  (∀ (rq : Req) (p : List Byte) (st det : Nat) (s : State), Accepts s rq 0x0104 p.length →
    armCheck s (s.staged rq.port) (rd p 0 8) = some (st, det) → Refuses (.cfgArm rq p) s rq 0x0104 st det) ∧
  (∀ (rq : Req) (p : List Byte) (x : Scope) (s : State), Accepts s rq 0x0105 p.length →
    (rq.scope = 0 ∧ x = .device) ∨ (rq.scope = 1 ∧ x = .pool) ∨ (rq.scope = 2 ∧ x = .port rq.inst) ∨
      (rq.scope = 3 ∧ x = .carrier rq.inst) →
    Answers (.cfgDigest rq p) s rq 0x0105 (leBytes 4 (generation s x) ++ leBytes 1 (if commitOpen s then 1 else 0) ++ leBytes 3 0 ++
      leBytes 8 (fingerprint s x) ++ leBytes 8 (mapGet s.cfg.genTimes x.key 0))) ∧
  (∀ (rq : Req) (p : List Byte) (s : State), Accepts s rq 0x0401 p.length →
    Answers (.timeStatus rq p) s rq 0x0401 (leBytes 1 s.time.active ++ leBytes 1 (if s.time.aligned then 1 else 0) ++ [0, 0] ++
      leBytes 1 s.time.tod0.taiUtc ++ leBytes 1 s.time.tod0.leap ++ leBytes 1 s.time.tod1.taiUtc ++ leBytes 1 s.time.tod1.leap ++
      timeStatusBlock s 0 ++ timeStatusBlock s 1)) ∧
  (∀ (rq : Req) (p : List Byte) (d : Nat) (s : State), Accepts s rq 0x0402 p.length → rd p 0 1 = d → d < 2 →
    Answers (.timeRead rq p) s rq 0x0402 (leBytes 6 (s.dom d).seconds ++ leBytes 4 ((s.dom d).ns % 1000000000) ++
      leBytes 4 ((s.dom d).count % 2 ^ 32) ++ [0, 0] ++ leBytes 8 s.now)) ∧
  (∀ (rq : Req) (p : List Byte) (s : State), Accepts s rq 0x0402 p.length → 2 ≤ rd p 0 1 → Refuses (.timeRead rq p) s rq 0x0402 5 0) ∧
  (∀ (rq : Req) (p : List Byte) (s : State), Accepts s rq 0x0403 p.length →
    Answers (.airtimeRead rq p) s rq 0x0403 (leBytes 8 s.now ++ leBytes 4 (s.time.air % 2 ^ 32) ++ leBytes 1 s.time.active ++
      leBytes 1 (if s.time.aligned then 1 else 0) ++ [0, 0] ++ leInt 8 s.time.r ++ leBytes 6 (s.dom s.time.active).seconds ++
      leBytes 4 ((s.dom s.time.active).ns % 1000000000) ++ leBytes 6 0)) ∧
  (∀ (rq : Req) (p : List Byte) (s : State), Accepts s rq 0x0404 p.length → rd p 0 1 < 2 → s.time.switchWait = none →
    Does (.timeSwitch rq p) s fun t => t.time = { s.time with
        switchWait := some { req := asOp rq 0x0404, target := rd p 0 1, force := bit (rd p 1 1) 0 } } ∧ SameExcept [.host, .time] s t) ∧
  (∀ (rq : Req) (p : List Byte) (s : State), Accepts s rq 0x0405 p.length → s.anyActive = true →
    Refuses (.timeRealign rq p) s rq 0x0405 7 0) ∧
  (∀ (rq : Req) (p : List Byte) (s : State), Accepts s rq 0x0405 p.length → s.anyActive = false → (∀ n, (s.comp n).armed = false) →
    (∀ i, (s.slc i).items = []) → s.mill.grants = [] → s.mill.tierMsgs = [] → Room 1 s →
    Leads (.timeRealign rq p) rq 0x0405 [] (fun u => u.time.r = 0 ∧ u.time.slewFrac = 0 ∧
      u.time.air = airFormula { s with time := { s.time with r := 0, slewFrac := 0 } } ∧
      (u.time.aligned = true ↔ (s.dom s.time.active).st = 2) ∧ Queued u 1 0 0x0301 ∧ SameExcept [.host, .time, .ev] s u) s) ∧
  (∀ (rq : Req) (p : List Byte) (d n : Nat) (s : State), Accepts s rq 0x0406 p.length → rd p 20 1 = d → rd p 21 1 = n → d < 2 → n < 4 →
    s.paramTime 0x020D (d * 4 + n) ≠ 255 → ((s.dom d).ns : Int) - extendStamp (s.dom d).ns (rd p 16 4) ≤ 1000000000 →
    let u := updInput (accepted s rq 0x0406) d (20 + n) (fun r => { r.appear (s.dom d) with rank := clockClassRank (rd p 22 1), lastMeas := s.now }) false
    (u.dom d).phaseRef ≠ some (20 + n) → (u.dom d).freqRef ≠ some (20 + n) →
    exec (.timePtpFeed rq p) s = .next (replyOk u (asOp rq 0x0406) [])) ∧
  (∀ (rq : Req) (p : List Byte) (s : State), Accepts s rq 0x0406 p.length → 2 ≤ rd p 20 1 ∨ 4 ≤ rd p 21 1 →
    Refuses (.timePtpFeed rq p) s rq 0x0406 5 0) ∧
  (∀ (rq : Req) (p : List Byte) (s : State), Accepts s rq 0x0407 p.length →
    let r := ptpTake (s.port rq.inst).ptpRx (rd p 0 2) 4076
    Leads (.ptpRecv rq p) rq 0x0407 r.2 (fun u => u.port rq.inst = { s.port rq.inst with
        ptpRx := (s.port rq.inst).ptpRx.drop r.1
        ptpOver := (s.port rq.inst).ptpOver && !((s.port rq.inst).ptpRx.drop r.1).isEmpty } ∧
      OtherPorts s u rq.inst ∧ u.ports.carriers = s.ports.carriers ∧ SameExcept [.host, .ports] s u) s) ∧
  (∀ (rq : Req) (p : List Byte) (k : Nat) (s : State), Accepts s rq 0x0408 p.length → rd p 0 1 = k → k < 4 → hasLink s rq.inst k = true →
    ptpWaiting s rq.inst < 128 → (s.link rq.inst k).sending.isSome = true → s.linkUp rq.inst k = true → Sendable s rq.inst k →
    Leads (.ptpSend rq p) rq 0x0408 (leBytes 2 (127 - ptpWaiting s rq.inst)) (fun u => u.link rq.inst k =
        { s.link rq.inst k with ptp := (s.link rq.inst k).ptp ++ [{ kind := 3, bytes := p.drop 4 }] } ∧
      OtherPorts s u rq.inst ∧ SameExcept [.host, .ports] s u) s) ∧
  (∀ (rq : Req) (p : List Byte) (k : Nat) (s : State), Accepts s rq 0x0408 p.length → rd p 0 1 = k → k < 4 → hasLink s rq.inst k = true →
    ptpWaiting s rq.inst < 128 → s.linkUp rq.inst k = false →
    Leads (.ptpSend rq p) rq 0x0408 (leBytes 2 (128 - ptpWaiting s rq.inst)) (fun u => u.port rq.inst =
        { s.port rq.inst with ptpLost := min ((s.port rq.inst).ptpLost + 1) (2 ^ 32 - 1) } ∧
      OtherPorts s u rq.inst ∧ SameExcept [.host, .ports] s u) s) ∧
  (∀ (rq : Req) (p : List Byte) (n : Nat) (s : State), Accepts s rq 0x0409 p.length →
    armTimed s (rd p 0 2) (rd p 2 1) (rd p 3 1) (rd p 4 4) (rd p 8 8) (rd p 16 8) = .inr n →
    Leads (.timedArm rq p) rq 0x0409 (leBytes 2 n) (fun u => u.comp n =
        { armed := true, mode := rd p 3 1, action := rd p 2 1, arg := argKept (rd p 2 1) (rd p 4 4), target := rd p 8 8,
          period := rd p 16 8, port := min rq.port 4, fired := false } ∧
      (∀ j, j ≠ n → u.comp j = s.comp j) ∧ SameExcept [.host, .time] s u) s) ∧
  (∀ (rq : Req) (p : List Byte) (st : Nat) (s : State), Accepts s rq 0x0409 p.length →
    armTimed s (rd p 0 2) (rd p 2 1) (rd p 3 1) (rd p 4 4) (rd p 8 8) (rd p 16 8) = .inl st →
    Refuses (.timedArm rq p) s rq 0x0409 st 0) ∧
  (∀ (rq : Req) (p : List Byte) (n : Nat) (s : State), Accepts s rq 0x040A p.length → rd p 0 2 = n → 64 ≤ n → n ≤ 255 →
    s.roleOf rq.port = 1 ∨ (s.comp n).port = rq.port → compDue s n = false → (s.comp n).armed = true →
    Leads (.timedCancel rq p) rq 0x040A [] (fun u => u.comp n = { s.comp n with armed := false } ∧
      (∀ j, j ≠ n → u.comp j = s.comp j) ∧ SameExcept [.host, .time] s u) s) ∧
  (∀ (rq : Req) (p : List Byte) (s : State), Accepts s rq 0x040A p.length → rd p 0 2 < 64 →
    Refuses (.timedCancel rq p) s rq 0x040A 13 0) ∧
  ∀ (rq : Req) (p : List Byte) (s : State), Accepts s rq 0x040B p.length →
    Answers (.timedStatus rq p) s rq 0x040B ((Config.replyLayout 0x040B (((List.range 192).map fun i => 64 + i).flatMap fun n =>
      [if (s.comp n).armed then 1 else 0, (s.comp n).mode, (s.comp n).action, (s.comp n).arg, (s.comp n).target, (s.comp n).period,
       (s.comp n).port, if (s.comp n).fired then 1 else 0])).take 4076)

/-- Memory, DMA, power and pool commands (R383, R384, R407, R411, R415, R416, R506, R507, R510, R541).  Each clause gives the
reply, or the wait, and what the command changed. -/
def Obligations.DelazMemory : Prop :=
  (∀ (rq : Req) (p : List Byte) (s : State), Accepts s rq 0x0501 p.length → rd p 0 1 ≤ 31 → rd p 1 1 = 1 → rd p 2 1 ≤ 3 →
    (s.region (rd p 0 1)).st = 0 → rd p 8 8 % 0x4000000 = 0 → rd p 16 8 % 0x4000000 = 0 → rd p 16 8 ≠ 0 →
    0x10000000 ≤ rd p 8 8 → rd p 8 8 + rd p 16 8 ≤ arenaBottom s → arenaBottom s ≤ dataSpace s →
    (∀ e ∈ s.mem.regions, e.2.st ≠ 0 → rangesMeet (rd p 8 8) (rd p 16 8) e.2.base e.2.size = false) →
    Leads (.memRegionCreate rq p) rq 0x0501 [] (fun u => u.region (rd p 0 1) =
        { st := 1, mode := 1, strength := rd p 2 1, base := rd p 8 8, size := rd p 16 8 } ∧
      (∀ j, j ≠ rd p 0 1 → u.region j = s.region j) ∧ u.mem.data = s.mem.data ∧ u.mem.arenaBottom = s.mem.arenaBottom ∧
      SameExcept [.host, .mem] s u) s) ∧
  (∀ (rq : Req) (p : List Byte) (s : State), Accepts s rq 0x0501 p.length → 31 < rd p 0 1 →
    Refuses (.memRegionCreate rq p) s rq 0x0501 5 0) ∧
  (∀ (rq : Req) (p : List Byte) (s : State), Accepts s rq 0x0502 p.length → (s.region rq.inst).st = 2 →
    (s.region rq.inst).sweep = none → s.anyActive = false → s.mem.cache0 = [] → s.mem.cache1 = [] → Room 1 s →
    Leads (.memRegionDelete rq p) rq 0x0502 [] (fun u => u.region rq.inst = {} ∧ (∀ j, j ≠ rq.inst → u.region j = s.region j) ∧
      u.mem.data = s.mem.data ∧ Queued u 8 0 0x0C04 ∧ SameExcept [.host, .mem, .ev] s u) s) ∧
  (∀ (rq : Req) (p : List Byte) (s : State), Accepts s rq 0x0502 p.length → (s.region rq.inst).st = 0 →
    Refuses (.memRegionDelete rq p) s rq 0x0502 9 0) ∧
  (∀ (rq : Req) (p : List Byte) (s : State), Accepts s rq 0x0503 p.length →
    ∃ l, Answers (.memStatus rq p) s rq 0x0503 (Config.replyLayout 0x0503 l) ∧
      (∀ g, g < 32 → (s.region g).st ∈ l ∧ (s.region g).base ∈ l ∧ (s.region g).size ∈ l ∧ (s.region g).violations ∈ l) ∧
      ∀ c, c < 12 → (mapGet s.mem.chans c {}).corrected ∈ l ∧ (mapGet s.mem.chans c {}).uncorrectable ∈ l ∧
        (mapGet s.mem.chans c {}).poisonRead ∈ l) ∧
  (∀ (rq : Req) (p : List Byte) (s : State), Accepts s rq 0x0504 p.length → (s.region rq.inst).st = 2 →
    (s.region rq.inst).mode = 2 → (s.region rq.inst).sweep = none → (s.region rq.inst).slotA = 1 →
    Leads (.protRekey rq p) rq 0x0504 [] (fun u => u.region rq.inst = { s.region rq.inst with
        sweep := some ((s.region rq.inst).base / 2048), sweepPoisoned := 0, epoch := ((s.region rq.inst).epoch + 1) % 2 ^ 15,
        slotB := 1, keyB := s.freeCount, epochB := ((s.region rq.inst).epoch + 1) % 2 ^ 15 } ∧
      (∀ j, j ≠ rq.inst → u.region j = s.region j) ∧ SameExcept [.host, .mem, .free] s u) s) ∧
  (∀ (rq : Req) (p : List Byte) (s : State), Accepts s rq 0x0504 p.length → (s.region rq.inst).mode ≠ 2 →
    Refuses (.protRekey rq p) s rq 0x0504 9 0) ∧
  (∀ (rq : Req) (p : List Byte) (s : State), Accepts s rq 0x0505 p.length → rq.port < 4 → s.chanOwner rq.inst = rq.port + 1 →
    (s.chan rq.inst).st = 0 ∨ (s.chan rq.inst).st = 4 → rd p 0 8 % 16 = 0 →
    Leads (.dmaChanStart rq p) rq 0x0505 [] (fun u => u.chan rq.inst = { st := 1, prog := rd p 0 8, pc := rd p 0 8 } ∧
      OtherChans s u rq.inst ∧ SameExcept [.host, .dma] s u) s) ∧
  (∀ (i : Instr) (op : Nat) (rq : Req) (p : List Byte) (s : State),
    (op = 0x0505 ∧ i = .dmaChanStart rq p) ∨ (op = 0x0506 ∧ i = .dmaChanStop rq p) ∨ (op = 0x0507 ∧ i = .dmaChanReset rq p) ∨
      (op = 0x0508 ∧ i = .dmaChanStatus rq p) → Accepts s rq op p.length →
    4 ≤ rq.port ∨ s.chanOwner rq.inst ≠ rq.port + 1 → Refuses i s rq op 13 0) ∧
  (∀ (rq : Req) (p : List Byte) (s : State), Accepts s rq 0x0506 p.length → rq.port < 4 → s.chanOwner rq.inst = rq.port + 1 →
    (s.chan rq.inst).st = 1 ∨ (s.chan rq.inst).st = 2 →
    Leads (.dmaChanStop rq p) rq 0x0506 [] (fun u => u.chan rq.inst = { s.chan rq.inst with
        st := if chanOut s rq.inst = [] then 4 else 3, err := 5, move := none, wait := none } ∧
      OtherChans s u rq.inst ∧ SameExcept [.host, .dma] s u) s) ∧
  (∀ (rq : Req) (p : List Byte) (s : State), Accepts s rq 0x0507 p.length → rq.port < 4 → s.chanOwner rq.inst = rq.port + 1 →
    QuietEngine s rq.inst →
    Leads (.dmaChanReset rq p) rq 0x0507 [] (fun u => u.chan rq.inst = {} ∧ OtherChans s u rq.inst ∧
      SameExcept [.host, .dma, .fab] s u) s) ∧
  (∀ (rq : Req) (p : List Byte) (s : State), Accepts s rq 0x0508 p.length → rq.port < 4 → s.chanOwner rq.inst = rq.port + 1 →
    Answers (.dmaChanStatus rq p) s rq 0x0508 (Config.replyLayout 0x0508 ((chanBlock s rq.inst).map BitVec.toNat ++
      [(s.engine (chanEngine rq.inst)).cmdBad, (s.engine (chanEngine rq.inst)).flagBad, (s.engine (chanEngine rq.inst)).collided,
       (s.engine (chanEngine rq.inst)).oldGenDropped]))) ∧
  (∀ (rq : Req) (p : List Byte) (s : State), Accepts s rq 0x0601 p.length →
    ∃ b l, Answers (.powerStatus rq p) s rq 0x0601 (leBytes 1 s.boot.devState ++ leBytes 3 0 ++ leBytes 1 s.power.wake.source ++ [0] ++
      leBytes 2 s.power.wake.inst ++ leBytes 4 0 ++ leBytes 8 s.power.wake.at_ ++ leBytes 12 b ++ l) ∧
      ∀ d, bit b d = true ↔ d < 96 ∧ (d ∈ s.power.on ∨ (76 ≤ d ∧ d ≤ 91 ∧ s.proul.driving ≠ none))) ∧
  (∀ (rq : Req) (p : List Byte) (s : State), Accepts s rq 0x0602 p.length → 2 < rd p 0 1 →
    Refuses (.powerStateSet rq p) s rq 0x0602 4 0) ∧
  (∀ (rq : Req) (p : List Byte) (s : State), Accepts s rq 0x0602 p.length → s.power.wait = none → rd p 0 1 = powerState s →
    Answers (.powerStateSet rq p) s rq 0x0602 []) ∧
  (∀ (rq : Req) (p : List Byte) (s : State), Accepts s rq 0x0602 p.length → s.power.wait = none → rd p 0 1 = 2 → powerState s ≠ 2 →
    s.activeCarriers ≠ [] → Refuses (.powerStateSet rq p) s rq 0x0602 7 1) ∧
  (∀ (rq : Req) (p : List Byte) (s : State), Accepts s rq 0x0602 p.length → s.power.wait = none → rd p 0 1 = 1 → powerState s ≠ 1 →
    (∀ d, mapGet? s.fab.fences d = none) →
    Does (.powerStateSet rq p) s fun t => t.power.wait = some { req := asOp rq 0x0602, target := 1, left := (List.range 92).filter fun d => planOf s d ≠ 0 && s.domainOn d } ∧
      (∀ d, d < 92 → planOf s d ≠ 0 → s.domainOn d = true → mapGet? t.power.toOff d = some 0) ∧ t.power.on = s.power.on ∧
      SameExcept [.host, .power, .mill] s t) ∧
  (∀ (rq : Req) (p : List Byte) (s : State), Accepts s rq 0x0701 p.length →
    ∃ l, exec (.poolStatus rq p) s = .next (replyOk { accepted s rq 0x0701 with freeCount := s.freeCount + 4 } (asOp rq 0x0701)
      (leBytes 1 (poolIndex s) ++ leBytes 1 (s.param 0x1102 0) ++
        leBytes 1 (if poolSize s ≤ 1 then 0 else if poolJoined s then 1 else 2) ++ [0] ++ leBytes 4 (s.param 0x1104 0) ++
        leBytes 4 (generation s .pool) ++ leBytes 4 0 ++ l))) ∧
  (∀ (rq : Req) (p : List Byte) (s : State), Accepts s rq 0x0702 p.length → committedActive s rq.inst = true →
    s.owns rq.inst = true →
    exec (.takeover rq p) s = .next (reply (accepted s rq 0x0702) (asOp rq 0x0702) 0 1 [])) ∧
  (∀ (rq : Req) (p : List Byte) (s : State), Accepts s rq 0x0702 p.length → committedActive s rq.inst = true →
    s.owns rq.inst = false → (ownerOf s rq.inst).1 = 255 → mapGet? s.pool.migrations rq.inst = none →
    mapGet? s.pool.incoming rq.inst = none → mapGet? s.pool.takeovers rq.inst = none → s.now + 3932160 ≤ rd p 0 8 →
    Does (.takeover rq p) s fun t => t.pool = { s.pool with
        takeovers := mapSet s.pool.takeovers rq.inst { req := asOp rq 0x0702, t := rd p 0 8 } } ∧ SameExcept [.host, .pool] s t) ∧
  (∀ (rq : Req) (p : List Byte) (s : State), Accepts s rq 0x0703 p.length → committedActive s rq.inst = true →
    s.owns rq.inst = false → (ownerOf s rq.inst).1 ≠ 255 → Refuses (.migrate rq p) s rq 0x0703 13 (ownerOf s rq.inst).1) ∧
  ∀ (rq : Req) (p : List Byte) (s : State), Accepts s rq 0x0703 p.length → committedActive s rq.inst = true →
    s.owns rq.inst = true → mapGet? s.pool.migrations rq.inst = none → rd p 0 1 ≠ poolIndex s → rd p 0 1 < poolSize s →
    (s.peer (rd p 0 1)).reachable = true → s.now + 3932160 ≤ rd p 8 8 →
    Does (.migrate rq p) s fun t => mapGet? t.pool.migrations rq.inst = some
        { req := asOp rq 0x0703, target := rd p 0 1, t := rd p 8 8, epoch := ((ownerOf s rq.inst).2 + 1) % 2 ^ 32 } ∧
      (∀ c, c ≠ rq.inst → mapGet? t.pool.migrations c = mapGet? s.pool.migrations c) ∧ t.pool.takeovers = s.pool.takeovers ∧
      t.cfg = s.cfg

/-- Lane, port and self-test commands (R115 to R117, R121 to R124, R143, R164, R369, R531).  Each clause gives the reply and
what the command changed before it. -/
def Obligations.DelazLanes : Prop :=
  (∀ (rq : Req) (p : List Byte) (s : State), Accepts s rq 0x0801 p.length →
    let x := s.lane rq.inst
    let st := if !x.cdr then 0 else if s.linkUp (rq.inst / 4) (linkOfLane (s.portMode (rq.inst / 4)) rq.inst) then 3
      else if x.codeword then 2 else 1
    Answers (.laneStatus rq p) s rq 0x0801 ((Config.replyLayout 0x0801 [st, x.entry, x.cdrLost, x.markerLost, x.blockLost, x.badHeaders,
      x.corrSymbols, x.corrWords, x.uncorrWords, boardByte s rq.inst 1, x.prbsErr, x.prbsCmp,
      if x.prbsLock then 1 else 0]).take 4076)) ∧
  (∀ (rq : Req) (p : List Byte) (s : State), Accepts s rq 0x0802 p.length → portServes s rq.inst = true →
    Refuses (.laneMaintOpen rq p) s rq 0x0802 7 1) ∧
  (∀ (rq : Req) (p : List Byte) (s : State), Accepts s rq 0x0802 p.length → portServes s rq.inst = false →
    lastPoolLink s rq.inst = false → maintOpen s rq.inst = false →
    Leads (.laneMaintOpen rq p) rq 0x0802 [] (fun u => mapGet? u.lanes.maint rq.inst = some s.now ∧
      (∀ j, j ≠ rq.inst → mapGet? u.lanes.maint j = mapGet? s.lanes.maint j) ∧ u.lanes.scans = s.lanes.scans ∧
      SameExcept [.host, .lanes, .time, .ev] s u) s) ∧
  (∀ (rq : Req) (p : List Byte) (s : State), Accepts s rq 0x0803 p.length → maintOpen s rq.inst = false →
    Answers (.laneMaintClose rq p) s rq 0x0803 []) ∧
  (∀ (rq : Req) (p : List Byte) (s : State), Accepts s rq 0x0803 p.length → maintOpen s rq.inst = true →
    Leads (.laneMaintClose rq p) rq 0x0803 [] (fun u => mapGet? u.lanes.maint rq.inst = none ∧
      (∀ j, j ≠ rq.inst → mapGet? u.lanes.maint j = mapGet? s.lanes.maint j) ∧ u.mill = s.mill ∧ u.mem = s.mem) s) ∧
  (∀ (rq : Req) (p : List Byte) (l : Nat) (s : State), Accepts s rq 0x0804 p.length → rd p 0 2 = l → l < 256 → rd p 2 1 = 2 →
    6 ≤ rd p 3 1 → rd p 3 1 ≤ 12 → rd p 4 1 = 1 ∨ rd p 4 1 = 2 ∨ rd p 4 1 = 4 ∨ rd p 4 1 = 8 →
    rd p 5 1 = 1 ∨ rd p 5 1 = 2 ∨ rd p 5 1 = 4 ∨ rd p 5 1 = 8 → mapGet? s.lanes.scans (l / 16) = none →
    (s.lane l).cdr = true → s.param 0x0402 l ≠ 2 →
    Leads (.laneEyescanStart rq p) rq 0x0804 [] (fun u => u.lanes = { s.lanes with
        scans := mapSet s.lanes.scans (l / 16) {
          host := true, lane := l, mask := 2, k := rd p 3 1, s := rd p 4 1, t := rd p 5 1, start := s.now, free := s.freeCount },
        results := mapSet s.lanes.results (l / 16) { lane := l, k := rd p 3 1, s := rd p 4 1, t := rd p 5 1 } } ∧
      u.freeCount = s.freeCount + scanPhases (rd p 4 1) * scanVolts (rd p 5 1) ∧ SameExcept [.host, .lanes, .free] s u) s) ∧
  (∀ (rq : Req) (p : List Byte) (s : State), Accepts s rq 0x0804 p.length → 256 ≤ rd p 0 2 →
    Refuses (.laneEyescanStart rq p) s rq 0x0804 5 0) ∧
  (∀ (rq : Req) (p : List Byte) (c : Scan) (s : State), Accepts s rq 0x0805 p.length →
    mapGet? s.lanes.scans (rq.inst / 16) = some c → c.host = true → c.lane = rq.inst → Room 1 s →
    Leads (.laneEyescanAbort rq p) rq 0x0805 [] (fun u => mapGet? u.lanes.scans (rq.inst / 16) = none ∧
      (∀ g, g ≠ rq.inst / 16 → mapGet? u.lanes.scans g = mapGet? s.lanes.scans g) ∧
      mapGet? u.lanes.results (rq.inst / 16) = some (scanSoFar s c) ∧ Queued u 3 rq.inst 0x0403 ∧
      SameExcept [.host, .lanes, .ev] s u) s) ∧
  (∀ (rq : Req) (p : List Byte) (s : State), Accepts s rq 0x0805 p.length → mapGet? s.lanes.scans (rq.inst / 16) = none →
    Refuses (.laneEyescanAbort rq p) s rq 0x0805 9 0) ∧
  (∀ (rq : Req) (p : List Byte) (r : ScanResult) (s : State), Accepts s rq 0x0806 p.length → rd p 0 2 < 256 → rd p 2 1 < 3 →
    rd p 4 2 < 8128 → eyeResult s (rd p 0 2) = r →
    let n := min 4064 (8128 - rd p 4 2)
    Answers (.laneEyescanRead rq p) s rq 0x0806 (leBytes 1 r.k ++ leBytes 1 r.s ++ leBytes 1 r.t ++ [0] ++
      leBytes 2 Config.voltageStep ++ leBytes 2 n ++ bytesRead 255 r.map (rd p 2 1 * 8128 + rd p 4 2) n)) ∧
  (∀ (rq : Req) (p : List Byte) (s : State), Accepts s rq 0x0807 p.length →
    ∃ l, Answers (.fhCounters rq p) s rq 0x0807 ((Config.replyLayout 0x0807 l).take 4076) ∧
      (∀ k, k < 4 → (s.link rq.inst k).runt ∈ l ∧ (s.link rq.inst k).fcs ∈ l) ∧ (s.port rq.inst).doorbellBad ∈ l) ∧
  (∀ (rq : Req) (p : List Byte) (n : Nat) (s : State), Accepts s rq 0x0808 p.length → rd p 0 2 = n → 1 ≤ n → n ≤ 14 →
    Leads (.fhExcRead rq p) rq 0x0808 (leBytes 2 ((s.port rq.inst).exc.take n).length ++
        leBytes 2 ((s.port rq.inst).exc.drop n).length ++ leBytes 4 0 ++ ((s.port rq.inst).exc.take n).flatMap excBytes)
      (fun u => u.port rq.inst = { s.port rq.inst with exc := (s.port rq.inst).exc.drop n } ∧ OtherPorts s u rq.inst ∧
        SameExcept [.host, .ports] s u) s) ∧
  (∀ (rq : Req) (p : List Byte) (s : State), Accepts s rq 0x0808 p.length → rd p 0 2 = 0 ∨ 14 < rd p 0 2 →
    Refuses (.fhExcRead rq p) s rq 0x0808 5 0) ∧
  (∀ (rq : Req) (p : List Byte) (s : State), Accepts s rq 0x0809 p.length →
    Answers (.fabricCounters rq p) s rq 0x0809 ((Config.replyLayout 0x0809 (fabricCounts s)).take 4076)) ∧
  (∀ (rq : Req) (p : List Byte) (k : Nat) (s : State), Accepts s rq 0x080A p.length → reqUnit rq = k → (s.unitTest k).st = 0 →
    k ∉ s.mill.withdrawn → s.domainOn (unitDomain k) = true →
    testAllowed (s.setTest k { s.unitTest k with st := 1, trigger := 1 }) k = false →
    ∃ u, exec (.selftestRun rq p) s = .next (reply u (asOp rq 0x080A) 0 1 []) ∧
      u.unitTest k = { s.unitTest k with st := 1, trigger := 1 } ∧ u.test.waiting = k :: s.test.waiting ∧
      SameExcept [.host, .test] s u) ∧
  (∀ (rq : Req) (p : List Byte) (v : Nat) (s : State), Accepts s rq 0x080A p.length → rq.scope = 5 → rq.inst = v →
    (s.unitTest (1024 + v)).st = 0 → (1024 + v) ∉ s.mill.withdrawn → s.domainOn (unitDomain (1024 + v)) = true →
    mapGet? s.mill.drains (1024 + v) = none → waitsForWork s (1024 + v) = true → runningOn s (1024 + v) = none →
    s.host.placeWait = none → testAllowed (s.setTest (1024 + v) { s.unitTest (1024 + v) with st := 1, trigger := 1 }) (1024 + v) = true →
    Leads (.selftestRun rq p) rq 0x080A [] (fun u => (u.unitTest (1024 + v)).st = 3 ∧
      (u.unitTest (1024 + v)).until_ = s.now + testLen (1024 + v) ∧ mapGet? u.mill.drains (1024 + v) = some s.now ∧
      SameExcept [.host, .test, .mill] s u) s) ∧
  (∀ (rq : Req) (p : List Byte) (k : Nat) (s : State), Accepts s rq 0x080B p.length → reqUnit rq = k → k < 1024 →
    (s.unitTest k).st = 1 → Room 1 s →
    Leads (.selftestAbort rq p) rq 0x080B [] (fun u => u.unitTest k = { s.unitTest k with st := 0, result := 2, at_ := s.now } ∧
      u.test.waiting = s.test.waiting.filter (fun j => j ≠ k) ∧ Queued u 0 0 0x1203 ∧ SameExcept [.host, .test, .ev] s u) s) ∧
  (∀ (rq : Req) (p : List Byte) (s : State), Accepts s rq 0x080B p.length → (s.unitTest (reqUnit rq)).st = 0 →
    Refuses (.selftestAbort rq p) s rq 0x080B 9 0) ∧
  ∀ (rq : Req) (p : List Byte) (k : Nat) (s : State), Accepts s rq 0x080C p.length → reqUnit rq = k →
    Answers (.selftestStatus rq p) s rq 0x080C (leBytes 1 (testState s k) ++ leBytes 1 (s.unitTest k).result ++
      leBytes 2 (s.unitTest k).vector ++ leBytes 4 (s.testLeft k) ++ leBytes 8 (s.unitTest k).at_)

/-- Event, debug and ageing commands (R521, R523, R526, R552, R553, R591 to R593).  Each clause gives the reply and what the
command changed before it.  The bytes of a challenge are free: no statement rests on them. -/
def Obligations.DelazReports : Prop :=
  (∀ (rq : Req) (p : List Byte) (s : State), Accepts s rq 0x0901 p.length → rq.port < 4 → rd p 4 1 ≤ 4 → rd p 5 1 = 1 →
    mapGet? s.ev.subs rq.port = none → s.ev.loss = [] →
    Leads (.evtSubscribe rq p) rq 0x0901 (leBytes 4 s.ev.nextSeq) (fun u => mapGet? u.ev.subs rq.port = some
        { mask := rd p 0 4 % 2 ^ 23 - rd p 0 4 % 2, minSev := rd p 4 1, pos := s.ev.freed + s.ev.log.length, since := s.now,
          lastRead := s.now } ∧
      (∀ h, h ≠ rq.port → mapGet? u.ev.subs h = mapGet? s.ev.subs h) ∧ rq.port ∉ u.ev.lagged ∧
      ((∃ e ∈ s.ev.subs, e.2.pos ≤ s.ev.freed) → u.ev.log = s.ev.log) ∧
      SameExcept [.host, .ev] s u) s) ∧
  (∀ (rq : Req) (p : List Byte) (s : State), Accepts s rq 0x0901 p.length → 4 ≤ rq.port →
    Refuses (.evtSubscribe rq p) s rq 0x0901 13 0) ∧
  (∀ (rq : Req) (p : List Byte) (s : State), Accepts s rq 0x0902 p.length → mapGet? s.ev.subs rq.port = none →
    rq.port ∉ s.ev.lagged →
    ∃ u, exec (.evtRead rq p) s = .next (refuse u (asOp rq 0x0902) 9 1) ∧ u.ev.subs = s.ev.subs ∧ u.ev.log = s.ev.log ∧
      SameExcept [.host, .ev] s u) ∧
  (∀ (rq : Req) (p : List Byte) (x : Sub) (e : LogEntry) (s : State), Accepts s rq 0x0902 p.length → s.ev.subs = [(rq.port, x)] →
    s.ev.log = [e] → x.pos = s.ev.freed → x.matches e.code e.sev = true → e.ext = false → 1 ≤ rd p 0 2 → s.ev.loss = [] →
    Leads (.evtRead rq p) rq 0x0902 (leBytes 2 1 ++ leBytes 2 0 ++ leBytes 4 s.ev.nextSeq ++ e.bytes) (fun u =>
      u.ev.subs = [(rq.port, { x with pos := s.ev.freed + 1, lastRead := s.now })] ∧ u.ev.log = [] ∧
      u.ev.freed = s.ev.freed + 1 ∧ SameExcept [.host, .ev] s u) s) ∧
  (∀ (rq : Req) (p : List Byte) (s : State), Accepts s rq 0x0903 p.length → s.ev.loss = [] →
    Leads (.evtUnsubscribe rq p) rq 0x0903 [] (fun u => mapGet? u.ev.subs rq.port = none ∧
      (∀ h, h ≠ rq.port → mapGet? u.ev.subs h = mapGet? s.ev.subs h) ∧ SameExcept [.host, .ev] s u) s) ∧
  (∀ (rq : Req) (p : List Byte) (s : State), Accepts s rq 0x0A01 p.length → s.proul.unlocked = false →
    ∃ b : List Byte, b.length = 32 ∧
      Leads (.dbgChallenge rq p) rq 0x0A01 (b ++ leBytes 8 (s.now + s.param 0x1601 0)) (fun u =>
        u.proul = { s.proul with challenge := some { bytes := b, expiry := s.now + s.param 0x1601 0 } } ∧
        SameExcept [.host, .proul, .free] s u) s) ∧
  (∀ (rq : Req) (p : List Byte) (s : State), Accepts s rq 0x0A01 p.length → s.proul.unlocked = true →
    Refuses (.dbgChallenge rq p) s rq 0x0A01 7 0xFFFF) ∧
  (∀ (rq : Req) (p : List Byte) (c : Challenge) (s : State), Accepts s rq 0x0A02 p.length → s.proul.unlocked = false →
    liveChallenge s = some c → s.param 0x1602 0 = 0 → Room 1 s →
    let keyOk := Config.debugKeyHash.all (fun x => x = 0) = false ∧ Config.sha384 (p.take 96) = Config.debugKeyHash
    let sigOk := Config.ecdsaVerify (p.take 96) (c.bytes ++ leBytes 8 Config.serialNumber) (p.drop 96) = true
    (keyOk ∧ sigOk → Leads (.dbgUnlock rq p) rq 0x0A02 [] (fun u =>
      u.proul = { s.proul with challenge := none, unlocked := true, unlockAt := s.now, expiry := none } ∧
      Raised s u 0 0 0x1601 2 (leBytes 1 (min rq.port 4)) ∧ SameExcept [.host, .proul, .ev] s u) s) ∧
    (¬(keyOk ∧ sigOk) → ∃ u, exec (.dbgUnlock rq p) s = .next (refuse u (asOp rq 0x0A02) 13 (if keyOk then 3 else 2)) ∧
      u.proul = { s.proul with
        failed := min (s.proul.failed + 1) (2 ^ 32 - 1)
        challenge := if c.fails < 2 then some { c with fails := c.fails + 1 } else none } ∧
      Queued u 0 0 0x1603 ∧ SameExcept [.host, .proul, .ev] s u)) ∧
  (∀ (rq : Req) (p : List Byte) (s : State), Accepts s rq 0x0A02 p.length → s.proul.unlocked = false → s.proul.challenge = none →
    Room 1 s →
    ∃ u, exec (.dbgUnlock rq p) s = .next (refuse u (asOp rq 0x0A02) 9 1) ∧
      u.proul = { s.proul with failed := min (s.proul.failed + 1) (2 ^ 32 - 1) } ∧
      Raised s u 0 0 0x1603 2 (leBytes 1 (min rq.port 4) ++ leBytes 2 1) ∧ SameExcept [.host, .proul, .ev] s u) ∧
  (∀ (rq : Req) (p : List Byte) (s : State), Accepts s rq 0x0A03 p.length → s.proul.unlocked = false →
    Answers (.dbgLock rq p) s rq 0x0A03 []) ∧
  (∀ (rq : Req) (p : List Byte) (s : State), Accepts s rq 0x0A03 p.length → s.proul.unlocked = true → s.facet.cores = [] → Room 1 s →
    Leads (.dbgLock rq p) rq 0x0A03 [] (fun u => u.proul.unlocked = false ∧ u.proul.unlockAt = 0 ∧ u.proul.expiry = none ∧
      Raised s u 0 0 0x1602 1 (leBytes 1 0 ++ leBytes 2 0) ∧ SameExcept [.host, .proul, .ev] s u) s) ∧
  (∀ (rq : Req) (p : List Byte) (s : State), Accepts s rq 0x0A04 p.length →
    Answers (.dbgStatus rq p) s rq 0x0A04 (leBytes 1 (if s.proul.unlocked then 1 else 0) ++
      leBytes 1 ((if (liveChallenge s).isSome then 1 else 0) + (if s.proul.blocked then 2 else 0)) ++
      leBytes 2 (s.facet.cores.filter fun e => e.2.dbg.halted).length ++ leBytes 4 s.proul.failed ++
      leBytes 8 (if s.proul.unlocked then s.proul.unlockAt else 0))) ∧
  (∀ (rq : Req) (p : List Byte) (s : State), Accepts s rq 0x0B01 p.length →
    ∃ a b, Answers (.ageingReport rq p) s rq 0x0B01 (leBytes 2 (capacity s false) ++ leBytes 2 (capacity s true) ++ leBytes 2 a ++
      leBytes 2 b ++ leBytes 8 s.power.sampleAt ++ (List.range 6).flatMap (ageBlock s)) ∧ a ≤ 64 ∧ b ≤ 4) ∧
  ∀ (rq : Req) (p : List Byte) (r : List Byte) (l : List (List Byte)) (s : State), Accepts s rq 0x0B02 p.length →
    s.power.records = r :: l →
    let out := ((r :: l).filter fun x => decide (rd p 0 4 ≤ rd x 0 4)).take 254
    Answers (.ageingHistory rq p) s rq 0x0B02 (leBytes 4 (rd r 0 4) ++ leBytes 4 out.length ++ out.flatten)

/-- TIME_REALIGN sets r to zero in one step, and Air Time takes the value that the active domain gives it with r at zero; it is
accepted only while no carrier context is active, and in any other case it is refused with DZ_BUSY (R38). -/
def Obligations.RealignClearsResidual : Prop :=
  (∀ (rq : Req) (p : List Byte) (s : State), Accepts s rq 0x0405 p.length → s.anyActive = true →
    Refuses (.timeRealign rq p) s rq 0x0405 7 0) ∧
  ∀ (rq : Req) (p : List Byte) (s : State), Accepts s rq 0x0405 p.length → s.anyActive = false →
    Does (.timeRealign rq p) s fun t =>
      t.time.r = 0 ∧ t.time.air = airFormula { s with time := { s.time with r := 0, slewFrac := 0 } }

/-- DBG_CHALLENGE has no payload; it draws 32 bytes from the random-number generator and makes them the live challenge in place
of any earlier one; it answers with the challenge and the Air Time at which it expires, `debug.challenge_life` after
acceptance; while debug access is unlocked it is refused with DZ_BUSY (R591). -/
def Obligations.ChallengeIsDrawn : Prop :=
  (∀ (rq : Req) (p : List Byte) (s : State), Accepts s rq 0x0A01 p.length → p = []) ∧
  (∀ (rq : Req) (s : State), Accepts s rq 0x0A01 0 → s.proul.unlocked = false →
    let b := padTo 32 ((Config.random s.freeCount 32).take 32)
    b.length = 32 ∧ Leads (.dbgChallenge rq []) rq 0x0A01 (b ++ leBytes 8 (s.now + s.param 0x1601 0)) (fun u =>
      u.proul = { s.proul with challenge := some { bytes := b, expiry := s.now + s.param 0x1601 0 } }) s) ∧
  ∀ (rq : Req) (p : List Byte) (s : State), Accepts s rq 0x0A01 p.length → s.proul.unlocked = true →
    ∃ d, Refuses (.dbgChallenge rq p) s rq 0x0A01 7 d

/-! ## Configuration changes (R471 to R488) -/

namespace Sys2Proof.Claims

open Sys2Proof.Machine

/-- The parameters of a set change nothing at the swap but their own values: no carrier, port mode, lane mapping, Mill table or
plan is among them. -/
abbrev Inert (set : SMap Nat) : Prop :=
  ∀ e ∈ set, e.1 / 65536 ∉ [0x0405, 0x0501, 0x020F, 0x0702, 0x0710, 0x080B, 0x080C, 0x080D, 0x1001, 0x1301] ∧
    (e.1 / 65536 < 0x1101 ∨ 0x1104 < e.1 / 65536)

/-- Why a unit misses the swap (R478): its domain, its shadow's check bits, or a reset. -/
def missReason (s : State) (bad reset : List Nat) (u : Nat) : Nat :=
  if unitClosed s u then 1 else if u ∈ bad then 2 else if u ∈ reset then 3 else 0

/-- A commit that ends leaves comparators 0 and 1, which Laniman armed for its times, disarmed; no other time state changes
(R92). -/
abbrev Disarmed (s t : State) : Prop := t.time = { s.time with comps := mapDel (mapDel s.time.comps 0) 1 }

/-- Why a unit is not READY (R476). -/
def unreadyReason (s : State) (k : Commit) (bad : List Nat) (u : Nat) : Nat :=
  if u ∈ bad then 3 else (mapGet? k.reasons u).getD (if unitClosed s u then 1 else 2)

end Sys2Proof.Claims

/-- The steps of a commit (R475 to R478, R480, R483).  A unit's READY and APPLIED join the commit's lists.  At T − 491,520 the
commit goes on only if every unit concerned is READY, else it ends with DZ_NOTREADY and CFG_CANCELLED.  At T the units that can
swap do, and read the new values; the store still holds the old ones.  At T + 491,520 the set is committed when every unit has
applied it, and the device generation rises by 1; else the rollback of T + 1,966,080 returns every unit to the old values, with
DZ_ROLLEDBACK. When the commit ends, the two comparators that Laniman armed for it are disarmed.  Without a commit, or before
its time, a step does nothing. -/
def Obligations.Commits : Prop :=
  (∀ (i : Instr) (s : State), s.cfg.commit = none →
    (∃ u, i = .unitReady u) ∨ (∃ b, i = .commitReadinessCheck b) ∨ (∃ b r, i = .shadowSwap b r) ∨ (∃ u, i = .unitApplied u) ∨
      i = .commitOutcome ∨ i = .commitRollback → Idle i s) ∧
  (∀ (u : BitVec 16) (k : Commit) (s : State), s.cfg.commit = some k → k.stage = 0 → u.toNat ∈ k.units → u.toNat ∉ k.ready →
    mapGet? k.reasons u.toNat = none → unitClosed s u.toNat = false →
    Does (.unitReady u) s fun t => t.cfg = { s.cfg with commit := some { k with ready := k.ready ++ [u.toNat] } } ∧
      SameExcept [.cfg] s t) ∧
  (∀ (u : BitVec 16) (k : Commit) (s : State), s.cfg.commit = some k → unitClosed s u.toNat = true → Idle (.unitReady u) s) ∧
  (∀ (bad : List Nat) (k : Commit) (s : State), s.cfg.commit = some k → k.stage = 0 → k.t ≤ s.now + 491520 →
    (∀ u ∈ k.units, u ∈ k.ready ∧ u ∉ bad) →
    Does (.commitReadinessCheck bad) s fun t => t.cfg = { s.cfg with commit := some { k with stage := 1 } } ∧
      SameExcept [.cfg] s t) ∧
  (∀ (bad : List Nat) (k : Commit) (s : State), s.cfg.commit = some k → k.stage = 0 → s.now + 491520 < k.t →
    Idle (.commitReadinessCheck bad) s) ∧
  (∀ (bad : List Nat) (k : Commit) (s : State), s.cfg.commit = some k → k.stage = 0 → k.t ≤ s.now + 491520 →
    (∃ u ∈ k.units, u ∉ k.ready ∨ u ∈ bad) → Room 1 s →
    let l := (k.units.filter fun u => u ∉ k.ready ∨ u ∈ bad).map fun u => (u, unreadyReason s k bad u)
    ∃ t, exec (.commitReadinessCheck bad) s = .next (reply t k.req 9 l.length (leBytes 4 s.deviceGen ++ leBytes 2 k.units.length ++
        leBytes 2 l.length ++ l.flatMap fun e => leBytes 2 e.1 ++ leBytes 1 e.2 ++ [0])) ∧
      t.cfg = { s.cfg with commit := none } ∧ Queued t 0 0 0x1002 ∧ Disarmed s t ∧ SameExcept [.cfg, .ev, .time] s t) ∧
  (∀ (bad reset : List Nat) (k : Commit) (s : State), s.cfg.commit = some k → k.stage = 1 → k.t ≤ s.now → Inert k.set →
    Does (.shadowSwap bad reset) s fun t => t.cfg = { s.cfg with commit := some { k with
        stage := 2
        swapped := k.units.filter fun u => missReason s bad reset u = 0
        reasons := (k.units.filter fun u => missReason s bad reset u ≠ 0).map fun u => (u, missReason s bad reset u)
        heldOut := [] } } ∧ SameExcept [.cfg] s t ∧
      (∀ u id inst v, u ∈ k.units → missReason s bad reset u = 0 → mapGet? k.set (pkey id inst) = some v → t.paramIn u id inst = v) ∧
      ∀ u id inst, missReason s bad reset u ≠ 0 → t.paramIn u id inst = s.param id inst) ∧
  (∀ (bad reset : List Nat) (k : Commit) (s : State), s.cfg.commit = some k → k.stage = 1 → s.now < k.t →
    Idle (.shadowSwap bad reset) s) ∧
  (∀ (u : BitVec 16) (k : Commit) (s : State), s.cfg.commit = some k → k.stage = 2 → u.toNat ∈ k.swapped → u.toNat ∉ k.applied →
    Does (.unitApplied u) s fun t => t.cfg = { s.cfg with commit := some { k with applied := k.applied ++ [u.toNat] } } ∧
      SameExcept [.cfg] s t) ∧
  (∀ (k : Commit) (e : Nat × Nat) (s : State), s.cfg.commit = some k → k.stage = 2 → k.t + 491520 ≤ s.now → k.safe = false →
    (∀ u ∈ k.units, u ∈ k.applied) → k.set = [e] → carrierOf (e.1 / 65536) (e.1 % 65536) = none → Room 1 s →
    ∃ t, exec .commitOutcome s = .next (replyOk t k.req (leBytes 4 ((s.deviceGen + 1) % 2 ^ 32) ++ leBytes 2 k.units.length ++
        leBytes 2 0)) ∧
      t.cfg.commit = none ∧ t.param (e.1 / 65536) (e.1 % 65536) = e.2 ∧ t.deviceGen = (s.deviceGen + 1) % 2 ^ 32 ∧
      (∀ i j, pkey i j ≠ e.1 → t.param i j = s.param i j) ∧ mapGet? t.cfg.staged k.req.port = none ∧ Queued t 0 0 0x1001 ∧
      Disarmed s t ∧ SameExcept [.cfg, .ev, .time] s t) ∧
  (∀ (k : Commit) (s : State), s.cfg.commit = some k → k.stage = 2 → k.t + 491520 ≤ s.now → (∃ u ∈ k.units, u ∉ k.applied) →
    Does .commitOutcome s fun t => (∃ m : SMap Nat, t.cfg = { s.cfg with commit := some { k with stage := 3, reasons := m } } ∧
        m.map (fun x => x.1) = k.units.filter (fun u => u ∉ k.applied) ∧
        ∀ u r, u ∉ k.applied → mapGet? k.reasons u = some r → ∀ x ∈ m, x.1 = u → x.2 = r) ∧
      SameExcept [.cfg, .free] s t) ∧
  ∀ (k : Commit) (s : State), s.cfg.commit = some k → k.stage = 3 → k.t + 1966080 ≤ s.now → k.safe = false → Inert k.set →
    k.heldOut = [] → s.pool.held = [] → Room 1 s →
    ∃ t, exec .commitRollback s = .next (reply t k.req 12 k.reasons.length (leBytes 4 s.deviceGen ++ leBytes 2 k.units.length ++
        leBytes 2 k.reasons.length ++ k.reasons.flatMap fun e => leBytes 2 e.1 ++ leBytes 1 e.2 ++ [0])) ∧
      t.cfg = { s.cfg with commit := none } ∧ (∀ u id inst, t.paramIn u id inst = s.param id inst) ∧ Queued t 0 0 0x1003 ∧
      Disarmed s t ∧ SameExcept [.cfg, .ev, .time] s t

/-! ## Pools (R489 to R512) -/

namespace Sys2Proof.Claims

open Sys2Proof.Machine

/-- The bytes that a pool frame's cipher text stands for under the slot that the frame names (R493). -/
def poolBody (s : State) (b : List Byte) : List Byte :=
  let h := slice b 14 24
  (Config.gcmSeal (poolKey s ((s.keySlot (rd h 6 1 / 16 % 2)).epoch.getD 0)) (slice h 4 12) h (slice b 38 (rd h 16 2))).1

/-- The tag of a pool frame is right (R495, step 4).  The cipher is an opaque constant of `Config`. -/
abbrev Genuine (s : State) (b : List Byte) : Prop :=
  let h := slice b 14 24
  (Config.gcmSeal (poolKey s ((s.keySlot (rd h 6 1 / 16 % 2)).epoch.getD 0)) (slice h 4 12) h (poolBody s b)).2 =
    slice b (38 + rd h 16 2) 16

/-- A frame of a type from member `src` for this device reaches a POOL port and passes every check of R495 but that of its tag.
-/
abbrev PoolArrives (s : State) (p ty src : Nat) (b : List Byte) : Prop :=
  let h := slice b 14 24
  let seen := mapGet s.pool.seen (2 * src + rd h 6 1 / 16 % 2) {}
  rd b 19 1 = ty ∧ rd h 5 1 = ty ∧ portRole s p = 2 ∧ s.pool.frames = true ∧ rd h 0 4 = poolId s ∧ 1 < poolSize s ∧
  rd h 4 1 / 16 = 1 ∧ rd h 6 1 % 4 = src ∧ src ≠ poolIndex s ∧ rd h 6 1 / 4 % 4 = poolIndex s ∧
  (s.keySlot (rd h 6 1 / 16 % 2)).epoch.isSome = true ∧ 54 + rd h 16 2 ≤ b.length ∧ rd h 16 2 ≤ 8192 ∧
  rd h 8 8 ∉ seen.list ∧ seen.top < rd h 8 8 + 1024

/-- The record of sequences with the frame's (R495). -/
def withSeen (s : State) (b : List Byte) : State :=
  let h := slice b 14 24
  let key := 2 * (rd h 6 1 % 4) + rd h 6 1 / 16 % 2
  { s with pool := { s.pool with seen := mapSet s.pool.seen key (acceptSeq (mapGet s.pool.seen key {}) (rd h 8 8)) } }

/-- A frame with a wrong tag is dropped and counted with reason 2 (R495). -/
abbrev Dropped (s t : State) (p : Nat) : Prop :=
  mapGet t.pool.drops (p * 8 + 2) 0 = min (mapGet s.pool.drops (p * 8 + 2) 0 + 1) (2 ^ 32 - 1) ∧
  t.pool = { s.pool with drops := t.pool.drops } ∧ SameExcept [.pool, .ev] s t

/-- The bytes of the next pool frame to a member on a port (R491, R493). -/
def poolBytes (s : State) (p i ty : Nat) (payload : List Byte) : List Byte :=
  let k := s.keySlot (slotFor s i)
  let h := poolHeader s ty (slotFor s i) i (k.count + 1) payload.length
  let c := Config.gcmSeal (poolKey s (k.epoch.getD 0)) (slice h 4 12) h payload
  beBytes 6 poolMac ++ beBytes 6 (s.paramPort p 0x0503 p) ++ beBytes 2 0x88B5 ++ h ++ c.1 ++ c.2

/-- The device may send pool frames to a member, and the port's link is busy with an earlier frame (R491, R493). -/
abbrev MaySend (s : State) (p i : Nat) : Prop :=
  s.pool.frames = true ∧ 1 < poolSize s ∧ (s.keySlot (slotFor s i)).epoch.isSome = true ∧
  (s.keySlot (slotFor s i)).count + 1 < 2 ^ 47 ∧ s.boot.devState ∉ [0, 3, 5] ∧ (s.link p 0).sending.isSome = true

/-- One frame has joined the port's queue, and its slot's count has risen. -/
abbrev Sends (s t : State) (p i ty : Nat) (payload : List Byte) : Prop :=
  t.link p 0 = { s.link p 0 with low := (s.link p 0).low ++ [{ kind := 5, bytes := poolBytes s p i ty payload }] } ∧
  t.keySlot (slotFor s i) = { s.keySlot (slotFor s i) with count := (s.keySlot (slotFor s i)).count + 1 } ∧
  SameExcept [.pool, .ports] s t

/-- The payload of a STATE frame (R499). -/
def statePayload (s : State) : List Byte :=
  leBytes 4 (generation s .pool) ++ leBytes 4 (s.param 0x1104 0) ++ leBytes 8 (fingerprint s .pool) ++
  leBytes 1 (if commitOpen s then 1 else 0) ++ leBytes 7 0 ++
  leBytes 128 (s.pool.owners.foldl (fun a e => if e.2.1 = poolIndex s then a + 2 ^ e.1 else a) 0)

end Sys2Proof.Claims

/-- Received pool frames (R494 to R499, R502, R504, R507).  A frame whose tag is wrong is dropped and counted; a row of another
type than the frame's does nothing.  A heartbeat renews its sender and makes it reachable; a STATE frame records its sender's
key epoch and compares the fingerprints; a claim settles who owns a carrier; a mirror page is written whole into memory, or
dropped and counted; each step of a migration does its part.  What a genuine frame holds is the opaque cipher's plain text, so
each effect is stated of that. -/
def Obligations.PoolFrames : Prop :=
  (∀ (i : Instr) (ty : Nat) (p : PortId) (b : List Byte) (s : State),
    (ty = 1 ∧ i = .heartbeat p b) ∨ (ty = 2 ∧ i = .state p b) ∨ (ty = 3 ∧ i = .claim p b) ∨ (ty = 4 ∧ ∃ d, i = .mirror p b d) →
    rd b 19 1 ≠ ty → Idle i s) ∧
  (∀ (p : PortId) (src : Nat) (b : List Byte) (s : State), PoolArrives s p 1 src b → Room 1 s →
    Does (.heartbeat p b) s fun t => (¬Genuine s b → Dropped s t p) ∧ (Genuine s b →
      (t.peer src).lastHb = s.now ∧ (t.peer src).safe = bit (rd (poolBody s b) 39 1) 0 ∧
      (t.peer src).links = rd (poolBody s b) 38 1 % 16 ∧ (t.peer src).reachable = true ∧ (∀ j, j ≠ src → t.peer j = s.peer j) ∧
      (bit (rd (poolBody s b) 38 1 % 16) (poolIndex s) = true → (t.poolLink p).peer = some src) ∧
      ((s.peer src).reachable = false → Queued t 11 0 0x1101) ∧ t.mem = s.mem ∧ t.cfg = s.cfg ∧ t.facet = s.facet)) ∧
  (∀ (p : PortId) (src : Nat) (b : List Byte) (s : State), PoolArrives s p 2 src b → s.pool.retireAt = none → Room 1 s →
    Does (.state p b) s fun t => (¬Genuine s b → Dropped s t p) ∧ (Genuine s b →
      let open_ := bit (rd (poolBody s b) 16 1) 0 || commitOpen s
      let differs := decide (rd (poolBody s b) 8 8 ≠ fingerprint s .pool)
      t.peer src = { s.peer src with
        keyEpoch := some (rd (poolBody s b) 4 4)
        owned := ((List.range 1024).filter fun c => bit (rd (poolBody s b) 24 128) c).length
        mismatch := if open_ then (s.peer src).mismatch else differs } ∧
      (∀ j, j ≠ src → t.peer j = s.peer j) ∧ (open_ = false → differs ≠ (s.peer src).mismatch → Queued t 11 0 0x1102) ∧
      SameExcept [.pool, .ev] s t)) ∧
  (∀ (p : PortId) (src : Nat) (b : List Byte) (s : State), PoolArrives s p 3 src b → Room 1 s →
    Does (.claim p b) s fun t => (¬Genuine s b → Dropped s t p) ∧
      (∀ c e : Nat, Genuine s b → rd (poolBody s b) 0 2 = 1 → 16 ≤ (poolBody s b).length → rd (poolBody s b) 8 2 = c → c < 1024 →
        rd (poolBody s b) 12 4 = e →
        SameExcept [.pool, .ev] s t ∧ (∀ j, j ≠ c → ownerOf t j = ownerOf s j) ∧
        (bit (rd (poolBody s b) 10 1) 0 = true → (ownerOf s c).1 ≠ poolIndex s → (ownerOf s c).2 < e → ownerOf t c = (src, e)) ∧
        (bit (rd (poolBody s b) 10 1) 0 = true → (ownerOf s c).1 = poolIndex s → (ownerOf s c).2 < e →
          (∀ o x, mapGet? s.pool.lost c = some (o, x) → x < e) →
          ownerOf t c = ownerOf s c ∧ mapGet? t.pool.lost c = some (src, e)) ∧
        (bit (rd (poolBody s b) 10 1) 0 = true → (ownerOf s c).1 = poolIndex s → e < (ownerOf s c).2 →
          ownerOf t c = ownerOf s c ∧ t.pool.lost = s.pool.lost ∧ Queued t 11 0 0x1104) ∧
        (bit (rd (poolBody s b) 10 1) 0 = false → (ownerOf s c).1 = src → (ownerOf s c).2 ≤ e → ownerOf t c = (255, e)))) ∧
  (∀ (p : PortId) (src : Nat) (b : List Byte) (d : Decode) (s : State), PoolArrives s p 4 src b →
    (∀ c, mapGet? s.pool.incoming c = none) →
    Does (.mirror p b d) s fun t => (¬Genuine s b → Dropped s t p) ∧
      (∀ c off : Nat, Genuine s b → rd (poolBody s b) 0 2 = c → rd (poolBody s b) 8 8 = off →
        (1024 ≤ c ∨ (ownerOf s c).1 = poolIndex s ∨ off % 2048 ≠ 0 ∨ off < s.param 0x110A c ∨
            s.param 0x110A c + s.param 0x110B c < off + 2048 →
          t.pool.mirrorDropped = min (s.pool.mirrorDropped + 1) (2 ^ 32 - 1) ∧ SameExcept [.pool] s t) ∧
        ∀ g, c < 1024 → (ownerOf s c).1 ≠ poolIndex s → off % 2048 = 0 → s.param 0x110A c ≤ off →
          off + 2048 ≤ s.param 0x110A c + s.param 0x110B c → off + (slice (poolBody s b) 16 2048).length ≤ dataSpace s →
          memPlace s off = .region g → (s.region g).st = 2 →
          t = extPutD (withSeen s b) off (slice (poolBody s b) 16 2048) d)) ∧
  (∀ (i : Instr) (step : Nat) (p : PortId) (src : Nat) (b : List Byte) (s : State),
    (step = 1 ∧ i = .prepare p b) ∨ (step = 2 ∧ i = .ready p b) ∨ (step = 3 ∧ i = .go p b) ∨ (step = 4 ∧ i = .goAck p b) ∨
      (step = 5 ∧ i = .cancel p b) → PoolArrives s p 5 src b →
    Does i s fun t => (¬Genuine s b → Dropped s t p) ∧ (Genuine s b → rd (poolBody s b) 2 1 ≠ step → t = s) ∧
      (Genuine s b → SameExcept [.pool, .ports, .ev, .free] s t) ∧
      ∀ c : Nat, Genuine s b → rd (poolBody s b) 2 1 = step → rd (poolBody s b) 0 2 = c → c < 1024 →
        (∀ j, j ≠ c → mapGet? t.pool.incoming j = mapGet? s.pool.incoming j ∧
          mapGet? t.pool.migrations j = mapGet? s.pool.migrations j) ∧ t.pool.owners = s.pool.owners ∧
        (step = 1 → ∃ r, mapGet? t.pool.incoming c = some
          { source := src, t := rd (poolBody s b) 8 8, epoch := rd (poolBody s b) 4 4, readySent := r }) ∧
        (∀ m, step = 2 → mapGet? s.pool.migrations c = some m → m.target = src →
          mapGet? t.pool.migrations c = some { m with ready := true }) ∧
        (∀ m, step = 3 → mapGet? s.pool.incoming c = some m → m.source = src →
          mapGet? t.pool.incoming c = some { m with
            armed := true, epoch := rd (poolBody s b) 4 4, t := rd (poolBody s b) 8 8 }) ∧
        (∀ m, step = 4 → mapGet? s.pool.migrations c = some m → m.target = src →
          mapGet? t.pool.migrations c = some { m with ack := true }) ∧
        ∀ m, step = 5 → mapGet? s.pool.incoming c = some m → m.source = src → mapGet? t.pool.incoming c = none)

/-- What the pool agent does at its times (R492, R494, R497, R498, R502 to R507).  Heartbeats go every 196,608 Tc, STATE frames
and the offset evaluation every 19,660,800 Tc, and a send sooner does nothing.  Heartbeats and STATE frames join the queue of
the link to a peer; a carrier whose claim lost goes to standby; a dirty page leaves in a MIRROR frame and is no longer dirty; a
late page is reported; a migration sends GO or is cancelled at its deadlines, the owner changes at T, and the reply follows; a
takeover makes the device owner at its T; a silent peer becomes unreachable, which cancels the migrations toward it; the median
of a peer's offsets is compared with the tolerance; the old key slot is retired. -/
def Obligations.PoolTimers : Prop :=
  (∀ s : State, (s.now < s.pool.heartbeatAt + 196608 → Idle .heartbeatSend s) ∧
    (s.now < s.pool.stateAt + 19660800 → Idle .stateSend s) ∧
    (s.now < s.pool.offsetAt + 19660800 → Idle .timeOffsetEvaluation s)) ∧
  (∀ s : State, poolSize s ≤ 1 →
    (s.pool.heartbeatAt + 196608 ≤ s.now →
      exec .heartbeatSend s = .next { s with pool := { s.pool with heartbeatAt := s.now } }) ∧
    (s.pool.stateAt + 19660800 ≤ s.now → exec .stateSend s = .next { s with pool := { s.pool with stateAt := s.now } })) ∧
  (∀ (i p : Nat) (s : State), poolPeers s = [i] → directPorts s i = [p] → (∀ q ∈ poolPorts s, (s.poolLink q).peer ≠ none) →
    MaySend s p i → s.pool.heartbeatAt + 196608 ≤ s.now →
    Does .heartbeatSend s fun t => Sends s t p i 1 (heartbeatPayload s p i) ∧ t.pool.heartbeatAt = s.now) ∧
  (∀ (i p : Nat) (s : State), poolPeers s = [i] → poolRoute s i 0 = some p → MaySend s p i →
    s.pool.stateAt + 19660800 ≤ s.now → Does .stateSend s fun t => Sends s t p i 2 (statePayload s) ∧ t.pool.stateAt = s.now) ∧
  (∀ (c : CarrierId) (s : State), mapGet? s.pool.lost c = none → Idle (.claimLostStandby c) s) ∧
  (∀ (c : CarrierId) (o e : Nat) (s : State), mapGet? s.pool.lost c = some (o, e) → o ≠ poolIndex s →
    (∀ n : Fin 4, (s.slc n).items = []) → Room 1 s →
    Does (.claimLostStandby c) s fun t => ownerOf t c = (o, e) ∧ mapGet? t.pool.lost c = none ∧ (t.cfh c).ul = [] ∧
      (t.cfh c).dl = [] ∧ (t.cfh c).cp = [] ∧ mapGet? t.pool.mirrors c = none ∧ Queued t 11 0 0x1104 ∧
      (∀ j, j ≠ c.val → ownerOf t j = ownerOf s j) ∧ t.mem = s.mem ∧ t.cfg = s.cfg) ∧
  (∀ (c : CarrierId) (i p pg : Nat) (data : List Byte) (s : State), mirrorTarget s c = some i → (s.peer i).reachable = true →
    poolRoute s i c = some p → (mapGet? s.pool.mirrors c).bind (fun m => m.resync) = none → oldestPage (dirtyOf s c) = some pg →
    extRead s (pg * 2048) 2048 = some data → MaySend s p i → s.pool.migrations = [] →
    Does (.mirrorPageSend c) s fun t => t.pool.dirty = mapDel s.pool.dirty pg ∧
      mapGet t.pool.mirrorSeq c 0 = (mapGet s.pool.mirrorSeq c 0 + 1) % 2 ^ 32 ∧
      Sends s t p i 4 (leBytes 2 c ++ [0, 0] ++ leBytes 4 ((mapGet s.pool.mirrorSeq c 0 + 1) % 2 ^ 32) ++ leBytes 8 (pg * 2048) ++
        data)) ∧
  (∀ (c : CarrierId) (s : State), mirrorTarget s c = none → Idle (.mirrorPageSend c) s ∧ Idle (.mirrorLagExceeded c) s) ∧
  (∀ (c : CarrierId) (i : Nat) (s : State), mirrorTarget s c = some i → (s.peer i).reachable = true →
    (∃ e ∈ dirtyOf s c, e.2 + s.param 0x1107 0 < s.now) → mapGet? s.ev.rate (rateKey 0x1108 c) = none → Room 1 s →
    Does (.mirrorLagExceeded c) s fun t => Queued t 11 0 0x1108 ∧ SameExcept [.ev] s t) ∧
  (∀ (c : CarrierId) (s : State), mapGet? s.pool.migrations c = none → Idle (.migrateGoDeadline c) s ∧ Idle (.migrateAckDeadline c) s ∧
    Idle (.migrateReply c) s ∧ (mapGet? s.pool.incoming c = none → Idle (.migrateSwitch c) s)) ∧
  (∀ (c : CarrierId) (m : Migration) (s : State), mapGet? s.pool.migrations c = some m → m.cancelled = false → m.goSent = false →
    m.t ≤ s.now + 491520 →
    Does (.migrateGoDeadline c) s fun t => SameExcept [.pool, .ports, .ev] s t ∧
      (m.ready = true ∧ dirtyOf s c = [] → mapGet? t.pool.migrations c = some { m with goSent := true }) ∧
      (m.ready = false ∨ dirtyOf s c ≠ [] → mapGet? t.pool.migrations c = some { m with cancelled := true })) ∧
  (∀ (c : CarrierId) (m : Migration) (s : State), mapGet? s.pool.migrations c = some m → m.cancelled = false → m.ack = false →
    m.t ≤ s.now + 245760 →
    Does (.migrateAckDeadline c) s fun t => SameExcept [.pool, .ports, .ev] s t ∧
      mapGet? t.pool.migrations c = some { m with cancelled := true }) ∧
  (∀ (c : CarrierId) (m : Migration) (s : State), mapGet? s.pool.migrations c = some m → m.cancelled = false → m.switched = false →
    m.goSent = true → m.t ≤ s.now → (∀ n : Fin 4, (s.slc n).items = []) →
    Does (.migrateSwitch c) s fun t => ownerOf t c = (m.target, m.epoch) ∧
      mapGet? t.pool.migrations c = some { m with switched := true } ∧ t.mem = s.mem ∧ t.cfg = s.cfg) ∧
  (∀ (c : CarrierId) (m : Incoming) (s : State), mapGet? s.pool.migrations c = none → mapGet? s.pool.incoming c = some m →
    m.armed = true → m.t ≤ s.now →
    Does (.migrateSwitch c) s fun t => ownerOf t c = (poolIndex s, m.epoch) ∧ mapGet? t.pool.incoming c = none ∧ t.mem = s.mem ∧
      t.cfg = s.cfg) ∧
  (∀ (c : CarrierId) (m : Incoming) (s : State), mapGet? s.pool.migrations c = none → mapGet? s.pool.incoming c = some m →
    m.armed = false → m.t ≤ s.now →
    exec (.migrateSwitch c) s = .next { s with pool := { s.pool with incoming := mapDel s.pool.incoming c } }) ∧
  (∀ (c : CarrierId) (m : Migration) (s : State), mapGet? s.pool.migrations c = some m → m.t + 1966080 ≤ s.now →
    let u := { s with pool := { s.pool with migrations := mapDel s.pool.migrations c } }
    (m.split = true → exec (.migrateReply c) s = .next (refuse u m.req 11 0)) ∧
    (m.split = false → (ownerOf s c).1 = m.target → exec (.migrateReply c) s = .next (replyOk u m.req [])) ∧
    (m.split = false → (ownerOf s c).1 ≠ m.target → exec (.migrateReply c) s = .next (refuse u m.req 9 (if m.ready then 2 else 1)))) ∧
  (∀ (c : CarrierId) (w : TakeWait) (s : State), mapGet? s.pool.takeovers c = some w → w.t ≤ s.now →
    ∃ u, exec (.takeoverSwitch c) s = .next (replyOk u w.req (leBytes 4 (((ownerOf s c).2 + 1) % 2 ^ 32))) ∧
      ownerOf u c = (poolIndex s, ((ownerOf s c).2 + 1) % 2 ^ 32) ∧ mapGet? u.pool.takeovers c = none ∧ u.mem = s.mem ∧ u.cfg = s.cfg) ∧
  (∀ (c : CarrierId) (s : State), mapGet? s.pool.takeovers c = none → Idle (.takeoverSwitch c) s) ∧
  (∀ (i : Fin 4) (s : State), (s.peer i).reachable = true → (s.peer i).lastHb + 3932160 ≤ s.now → Room 1 s →
    Does (.peerUnreachable i) s fun t => t.peer i = { s.peer i with reachable := false } ∧ (∀ j, j ≠ i.val → t.peer j = s.peer j) ∧
      (∀ c m, mapGet? s.pool.migrations c = some m → m.target = i.val → s.now < m.t →
        mapGet? t.pool.migrations c = some { m with cancelled := true, split := true }) ∧
      t.pool.owners = s.pool.owners ∧ Queued t 11 0 0x1101 ∧ SameExcept [.pool, .ev] s t) ∧
  (∀ (i : Fin 4) (s : State), (s.peer i).reachable = false ∨ s.now < (s.peer i).lastHb + 3932160 → Idle (.peerUnreachable i) s) ∧
  (∀ (i : Nat) (s : State), poolPeers s = [i] → (s.peer i).offsets ≠ [] → Room 1 s →
    s.pool.offsetAt + 19660800 ≤ s.now → Does .timeOffsetEvaluation s fun t => (t.peer i).median = medianNs (s.peer i).offsets ∧
      ((t.peer i).above = true ↔ s.param 0x1106 0 * 65536 < (medianNs (s.peer i).offsets).natAbs) ∧
      ((t.peer i).above ≠ (s.peer i).above → Queued t 11 0 0x1103) ∧ SameExcept [.pool, .ev] s t) ∧
  (∀ (x : Nat) (s : State), s.pool.retireAt = some x → x ≤ s.now → Room 1 s →
    Does .keyGraceExpiry s fun t => t.pool.retireAt = none ∧ t.keySlot (s.pool.epoch + 1) = {} ∧
      t.keySlot s.pool.epoch = s.keySlot s.pool.epoch ∧ Queued t 11 0 0x1106 ∧ SameExcept [.pool, .ev] s t) ∧
  ∀ s : State, s.pool.retireAt = none → Idle .keyGraceExpiry s

/-! ## Events and self-test (R513 to R535) -/

namespace Sys2Proof.Claims

open Sys2Proof.Machine

/-- The entries of an event as the arbiter writes them (R516, R517). -/
def entriesFor (s : State) (e : EventRec) : List LogEntry :=
  let a : LogEntry := { seq := s.ev.nextSeq, at_ := s.now, cls := e.cls, inst := e.inst, code := e.code, cont := false,
                        ext := decide (12 < e.detail.length), sev := e.sev, len := e.detail.length, detail := e.detail.take 12 }
  if 12 < e.detail.length then [a, { a with cont := true, ext := false, detail := e.detail.drop 12 }] else [a]

/-- A Clove unit is in service and idle, nothing waits for a placement, and the device is in RUN. -/
abbrev IdleClove (s : State) (k : Nat) : Prop :=
  1024 ≤ k ∧ s.boot.devState = 1 ∧ inService s k = true ∧ waitsForWork s k = true ∧ runningOn s k = none ∧ s.host.placeWait = none

/-- A test of a unit has begun, and runs to its end. -/
abbrev TestRuns (s t : State) (k : Nat) : Prop :=
  (t.unitTest k).st = 3 ∧ (t.unitTest k).until_ = s.now + testLen k ∧ k ∉ t.test.waiting ∧ mapGet? t.mill.drains k = some s.now ∧
  (∀ j, j ≠ k → t.unitTest j = s.unitTest j) ∧ SameExcept [.test, .mill] s t

end Sys2Proof.Claims

/-- The arbiter's acceptance, lagging hosts, and self-tests (R513, R517, R522, R525, R527, R529, R530).  The oldest event of
the queue, at most one in a cycle, is written under the next sequence number at this Air Time, in one entry or two; unmatched,
it is only numbered and counted; without room it is counted as lost.  A host that does not read is unsubscribed.  A test that
is due waits, in the order of the due times, while too few units would stay in service or its DEMAND domain is off, and else
runs; before its due time nothing happens; its result is recorded and reported, and a unit that fails is withdrawn. Where R529
leaves the due times open, they are the model's choice (log entry 77). -/
def Obligations.EventsAndTests : Prop :=
  (∀ s : State, s.ev.queue = [] → s.ev.loss = [] → Idle .eventAcceptance s) ∧
  (∀ s : State, s.ev.queue ≠ [] → s.ev.acceptedAt = some s.now → Idle .eventAcceptance s) ∧
  (∀ (e : EventRec) (rest : List EventRec) (s : State), s.ev.queue = e :: rest → s.ev.acceptedAt ≠ some s.now →
    s.ev.subs = [] → s.ev.loss = [] → (entriesFor s e).length ≤ 4096 - s.ev.log.length →
    Does .eventAcceptance s fun t => t.ev = { s.ev with
        queue := rest, acceptedAt := some s.now, log := s.ev.log ++ entriesFor s e, nextSeq := (s.ev.nextSeq + 1) % 2 ^ 32 } ∧
          SameExcept [.ev] s t) ∧
  (∀ (e : EventRec) (rest : List EventRec) (s : State), s.ev.queue = e :: rest → s.ev.acceptedAt ≠ some s.now → s.ev.subs ≠ [] →
    (∀ u ∈ s.ev.subs, u.2.matches e.code e.sev = false) → s.ev.loss = [] →
    Does .eventAcceptance s fun t => t.ev = { s.ev with
        queue := rest, acceptedAt := some s.now, nextSeq := (s.ev.nextSeq + 1) % 2 ^ 32
        unmatched := min (s.ev.unmatched + 1) (2 ^ 32 - 1) } ∧
      SameExcept [.ev] s t) ∧
  (∀ (e : EventRec) (rest : List EventRec) (s : State), s.ev.queue = e :: rest → s.ev.acceptedAt ≠ some s.now → s.ev.subs = [] →
    4096 - s.ev.log.length < (entriesFor s e).length →
    Does .eventAcceptance s fun t => t.ev.queue = rest ∧ t.ev.log = s.ev.log ∧ t.ev.nextSeq = s.ev.nextSeq ∧
      mapGet t.ev.loss (lossIndex e.cls e.inst) 0 = min (mapGet s.ev.loss (lossIndex e.cls e.inst) 0 + 1) (2 ^ 32 - 1) ∧
      SameExcept [.ev] s t) ∧
  (∀ (h : HostId) (s : State), mapGet? s.ev.subs h = none → Idle (.hostLaggedTimeout h) s) ∧
  (∀ (h : HostId) (u : Sub) (x : Nat) (s : State), s.ev.subs = [(h.val, u)] → lagDeadline s u = some x → x ≤ s.now →
    s.ev.log.length < 4096 → s.ev.loss = [] →
    Does (.hostLaggedTimeout h) s fun t => t.ev.subs = [] ∧ h.val ∈ t.ev.lagged ∧ (∃ e : LogEntry,
        t.ev.log = s.ev.log ++ [e] ∧ e.code = 0x1202 ∧ e.seq = s.ev.nextSeq ∧ e.at_ = s.now ∧
        e.detail = leBytes 1 h.val ++ leBytes 2 (min (subPending s u) 65535) ++ leBytes 4 u.mask) ∧
      SameExcept [.ev] s t) ∧
  (∀ (h : HostId) (u : Sub) (x : Nat) (s : State), mapGet? s.ev.subs h = some u → lagDeadline s u = some x → s.now < x →
    Idle (.hostLaggedTimeout h) s) ∧
  (∀ (k : Fin 1144) (s : State), s.boot.devState = 1 → s.param 0x1201 (unitTarget k) ≠ 0 → (s.unitTest k).st = 0 →
    testDueAt s k ≤ s.now →
    let u := s.setTest k { s.unitTest k with st := 1, trigger := 0, dueAt := testDueAt s k }
    (inService s k = true ∧ testAllowed u k = false) ∨ testGated s k = true →
    exec (.selftestDue k) s =
      .next { u with test := { u.test with waiting := testInsert u (testDueAt s k) k u.test.waiting } }) ∧
  (∀ (k : Fin 1144) (s : State), IdleClove s k.val → s.param 0x1201 (unitTarget k) ≠ 0 → (s.unitTest k).st = 0 →
    testDueAt s k ≤ s.now → testAllowed (s.setTest k { s.unitTest k with st := 1, trigger := 0, dueAt := testDueAt s k }) k = true →
      s.test.waiting = [] → s.test.units = [] →
    Does (.selftestDue k) s fun t => TestRuns s t k.val) ∧
  (∀ (k : Fin 1144) (s : State), s.param 0x1201 (unitTarget k) = 0 ∨ (inService s k = false ∧ testGated s k = false) ∨
    s.now < testDueAt s k → Idle (.selftestDue k) s) ∧
  (∀ (k : Fin 1144) (s : State), IdleClove s k.val → firstWaiting s k = true → testAllowed s k = true →
    (s.unitTest k).trigger = 1 → Does (.selftestStart k) s fun t => TestRuns s t k.val) ∧
  (∀ (k : Fin 1144) (s : State), firstWaiting s k = false ∨ testAllowed s k = false → Idle (.selftestStart k) s) ∧
  (∀ (k : Fin 1144) (f : Option (BitVec 16)) (s : State), (s.unitTest k).st ≠ 3 ∨ s.now < (s.unitTest k).until_ →
    Idle (.selftestTestComplete k f) s) ∧
  (∀ (k : Fin 1144) (s : State), 1024 ≤ k.val → (s.unitTest k).st = 3 → (s.unitTest k).until_ ≤ s.now → s.boot.devState ≠ 4 →
    Room 1 s →
    Does (.selftestTestComplete k none) s fun t =>
      t.unitTest k = { s.unitTest k with st := 0, result := 0, at_ := s.now } ∧ mapGet? t.mill.drains k = none ∧
      t.mill.withdrawn = s.mill.withdrawn ∧
      Raised s t 6 (k.val - 1024) 0x0903 0 (leBytes 1 (unitTarget k) ++ leBytes 1 (cloveNumber (k.val - 1024)) ++ leBytes 1 0 ++
        leBytes 2 0) ∧ (∀ j, j ≠ k.val → t.unitTest j = s.unitTest j) ∧ SameExcept [.test, .ev, .mill] s t) ∧
  (∀ (k : Fin 1144) (v : BitVec 16) (s : State), 1024 ≤ k.val → (s.unitTest k).st = 3 → (s.unitTest k).until_ ≤ s.now → Room 1 s →
    Does (.selftestTestComplete k (some v)) s fun t =>
      t.unitTest k = { s.unitTest k with st := 4, result := 1, vector := v.toNat, at_ := s.now } ∧
      k.val ∈ t.mill.withdrawn ∧ t.mill.drains = s.mill.drains ∧
      Raised s t 6 (k.val - 1024) 0x0903 3 (leBytes 1 (unitTarget k) ++ leBytes 1 (cloveNumber (k.val - 1024)) ++ leBytes 1 1 ++
        leBytes 2 v.toNat) ∧ (∀ j, j ≠ k.val → t.unitTest j = s.unitTest j) ∧ SameExcept [.test, .ev, .mill] s t) ∧
  ∀ (k : Fin 1144) (v : BitVec 16) (s : State), k.val < 1024 → (s.unitTest k).st = 3 → (s.unitTest k).until_ ≤ s.now →
    s.boot.devState = 4 → Room 1 s →
    Does (.selftestTestComplete k (some v)) s fun t =>
      t.unitTest k = { s.unitTest k with st := 4, result := 1, vector := v.toNat, at_ := s.now } ∧ k.val ∈ t.mill.withdrawn ∧
      t.core k = { s.core k with imem := placedCode s k } ∧
      Raised s t 0 0 0x1203 3 (leBytes 2 k.val ++ leBytes 1 1 ++ leBytes 1 (s.unitTest k).trigger ++ leBytes 2 v.toNat) ∧
      SameExcept [.test, .ev, .mill, .facet, .host] s t

/-! ## Power, ageing and temperature (R536 to R556, R603) -/

namespace Sys2Proof.Claims

open Sys2Proof.Machine

/-- No page and no counter block is cached: nothing is to be flushed (R408). -/
abbrev NothingCached (s : State) : Prop := s.mem.cache0 = [] ∧ s.mem.cache1 = [] ∧ s.mem.ctrCache0 = [] ∧ s.mem.ctrCache1 = []

/-- The stretch level that a sag calls for (R545). -/
def sagLevel (threshold sag : Nat) : Nat :=
  if sag < threshold then 0 else if sag < threshold + 10 then 1 else if sag < threshold + 20 then 2 else 3

/-- No tile's plan but `x` has changed. -/
abbrev OtherTiles (s t : State) (x : Nat) : Prop := ∀ j, j ≠ x → t.tilePlan j = s.tilePlan j

end Sys2Proof.Claims

/-- Device states, domains and wakes (R366, R537, R540 to R543).  A transition ends when its last domain is done: the reply
(with its event if it is discarded), POWER_STATE, and the new DEVSTATE.  A DEMAND domain whose units have all waited, with no
request arriving, for `power.gate_idle` is fenced, and no sooner; demand powers it up, or waits for the fence in progress.  A
domain that has powered up is in service, its held packets are on their way, and its cores hold their retained VBASE and IEN
and their placed code.  In HOLD a wake source that the mask enables records itself and starts a warm start. -/
def Obligations.PowerStates : Prop :=
  (∀ s : State, s.power.wait = none → Idle .powerTransitionComplete s) ∧
  (∀ (w : PowerWait) (s : State), s.power.wait = some w → w.left ≠ [] → Idle .powerTransitionComplete s) ∧
  (∀ (w : PowerWait) (s : State), s.power.wait = some w → w.left = [] → w.target = 0 → Room 2 s →
    Does .powerTransitionComplete s fun t => t.boot = { s.boot with devState := 1 } ∧
      t.power = { s.power with wait := none, wake := { source := 8, inst := 0, at_ := s.now } } ∧
      Raised (replyOk s w.req []) t 0 0 0x1301 1 (leBytes 1 s.boot.devState ++ leBytes 1 1 ++ leBytes 1 0) ∧
      SameExcept [.host, .ev, .boot, .power] s t) ∧
  (∀ (w : PowerWait) (s : State), s.power.wait = some w → w.left = [] → w.target = 1 → Room 2 s →
    Does .powerTransitionComplete s fun t => t.boot = { s.boot with devState := 2 } ∧ t.power = { s.power with wait := none } ∧
      Raised (replyOk s w.req []) t 0 0 0x1301 1 (leBytes 1 s.boot.devState ++ leBytes 1 2 ++ leBytes 1 0) ∧
      SameExcept [.host, .ev, .boot, .power] s t) ∧
  (∀ (w : PowerWait) (s : State), s.power.wait = some w → w.left = [] → w.target = 2 → NothingCached s → Room 2 s →
    Does .powerTransitionComplete s fun t => t.boot = { s.boot with devState := 3 } ∧ t.power = { s.power with wait := none } ∧
      Raised (replyOk s w.req []) t 0 0 0x1301 1 (leBytes 1 s.boot.devState ++ leBytes 1 3 ++ leBytes 1 0) ∧
      SameExcept [.host, .ev, .boot, .power] s t) ∧
  (∀ (d : Fin 96) (s : State), planOf s d ≠ 2 → Idle (.demandIdleExpiry d) s ∧ Idle (.demandWake d) s) ∧
  (∀ (d : Fin 96) (s : State), (∀ x, mapGet? s.power.idleFrom d = some x → s.now < x + s.param 0x1302 0) →
    Idle (.demandIdleExpiry d) s) ∧
  (∀ (d : Fin 96) (k : Nat) (s : State), k ∈ domainUnits d → waitsForWork s k = false → Idle (.demandIdleExpiry d) s) ∧
  (∀ (d : Fin 96) (x : Nat) (s : State), s.boot.devState = 1 ∨ s.boot.devState = 4 → planOf s d = 2 → s.domainOn d = true →
    mapGet? s.power.idleFrom d = some x → x + s.param 0x1302 0 ≤ s.now → mapGet? s.fab.fences d = none →
      (∀ k ∈ domainUnits d, waitsForWork s k = true) →
    Does (.demandIdleExpiry d) s fun t =>
      t.fab = { s.fab with fences := mapSet s.fab.fences d { left := domainNodes d, at_ := s.now, cause := 1 } } ∧
      t.power = { s.power with toOff := mapDel s.power.toOff d } ∧ SameExcept [.fab, .power] s t) ∧
  (∀ (d : Fin 96) (s : State), s.boot.devState = 1 → planOf s d = 2 → s.domainOn d = false → mapGet? s.fab.fences d = none →
    mapGet? s.power.coming d = none → domainWithdrawn s d = false → demanded s d = true →
    Does (.demandWake d) s fun t => t.power = { s.power with
        wake := { source := 6, inst := d, at_ := s.now }, coming := mapSet s.power.coming d 2 } ∧ SameExcept [.power] s t) ∧
  (∀ (d : Fin 96) (s : State), s.boot.devState = 1 → planOf s d = 2 → (mapGet? s.fab.fences d).isSome = true →
    mapGet? s.power.coming d = none → domainWithdrawn s d = false → demanded s d = true →
    Does (.demandWake d) s fun t => t.power = { s.power with
        wake := { source := 6, inst := d, at_ := s.now }, wakeDue := mapSet s.power.wakeDue d 2 } ∧ SameExcept [.power] s t) ∧
  (∀ (d : Fin 96) (s : State), demanded s d = false ∨ domainWithdrawn s d = true ∨ (mapGet? s.power.coming d).isSome = true ∨
    s.boot.devState ≠ 1 → Idle (.demandWake d) s) ∧
  (∀ (d : Fin 96) (s : State), mapGet? s.power.coming d = none → Idle (.domainPowerUpComplete d) s) ∧
  (∀ (d : Fin 96) (cause : Nat) (s : State), mapGet? s.power.coming d = some cause → Room 1 s →
    Does (.domainPowerUpComplete d) s fun t => t.power.on = s.power.on ++ [d.val] ∧ mapGet? t.power.coming d = none ∧
      (∀ n ∈ domainNodes d, mapGet? t.fab.wakeBuf n = none ∧ (t.ni n).stopped = false) ∧
      t.fab.flight = s.fab.flight ++ (domainNodes d).flatMap (fun n => mapGet s.fab.wakeBuf n []) ∧
      (d.val < 64 → ∀ k ∈ domainUnits d, (t.core k).imem = placedCode s k ∧
        (t.core k).regs.getC 7 = (mapGet s.power.kept k (0, 0)).1.toNat ∧ (t.core k).waiting = false) ∧
      Raised s t 0 0 0x1302 0 (leBytes 1 d ++ leBytes 1 1 ++ leBytes 1 cause) ∧
      SameExcept [.fab, .power, .cfg, .facet, .mill, .ev, .host] s t) ∧
  (∀ s : State, s.boot.devState = 3 → bit (s.param 0x1305 0) 0 = true → s.boot.warmDue = false →
    Does .wakeN s fun t => t.boot = { s.boot with warmDue := true } ∧
      t.power = { s.power with wake := { source := 1, inst := 0, at_ := s.now } } ∧ SameExcept [.boot, .power] s t) ∧
  (∀ s : State, s.boot.devState ≠ 3 ∨ bit (s.param 0x1305 0) 0 = false → Idle .wakeN s) ∧
  (∀ (h : HostId) (s : State), s.boot.devState = 3 → bit (s.param 0x1305 0) 1 = true → s.boot.warmDue = false →
    Does (.hostPortActivityWake h) s fun t => t.boot = { s.boot with warmDue := true } ∧
      t.power = { s.power with wake := { source := 2, inst := h, at_ := s.now } } ∧ SameExcept [.boot, .power] s t) ∧
  ∀ (h : HostId) (s : State), s.boot.devState ≠ 3 ∨ bit (s.param 0x1305 0) 1 = false → Idle (.hostPortActivityWake h) s

/-- Droop, ageing and temperature (R545, R546, R548 to R551, R603).  A deeper sag raises a tile's level and a fall lowers it by
one, with the time at the old level counted; a window's end reports its load, clears it, and raises POWER_STRETCH above the
reserve.  A sample records each tile's slack and its plan step; at the boundary the step is taken; a margin flag is reported
and raises the voltage; the AVSBus answers to a write.  THERM_ALERT_N follows the sensors, and THERMTRIP_N latches and takes
the power of domains 0 to 94. -/
def Obligations.PowerSensors : Prop :=
  (∀ (x : Fin 6) (sag : Byte) (s : State), (s.stretch x).level < sagLevel (s.param 0x1303 x) sag.toNat →
    Does (.droopDetect x sag) s fun t =>
      t.stretch x = { stretchCount s (s.stretch x) with level := sagLevel (s.param 0x1303 x) sag.toNat } ∧
      (∀ j, j ≠ x.val → t.stretch j = s.stretch j) ∧ SameExcept [.power] s t) ∧
  (∀ (x : Fin 6) (sag : Byte) (s : State), sagLevel (s.param 0x1303 x) sag.toNat ≤ (s.stretch x).level → Idle (.droopDetect x sag) s) ∧
  (∀ (x : Fin 6) (s : State), 0 < (s.stretch x).level →
    Does (.droopLevelFall x) s fun t => t.stretch x = { stretchCount s (s.stretch x) with level := (s.stretch x).level - 1 } ∧
      (∀ j, j ≠ x.val → t.stretch j = s.stretch j) ∧ SameExcept [.power] s t) ∧
  (∀ (x : Fin 6) (s : State), (s.stretch x).level = 0 → Idle (.droopLevelFall x) s) ∧
  (∀ s : State, s.now / 19660800 ≤ s.power.windows → Idle .stretchWindowEnd s) ∧
  (∀ s : State, s.power.windows < s.now / 19660800 → Room 6 s →
    Does .stretchWindowEnd s fun t => t.power.windows = s.now / 19660800 ∧ SameExcept [.power, .ev] s t ∧ ∀ x : Fin 6,
      let y := stretchCount s (s.stretch x)
      let over_ := 2 ≤ x.val ∧ ((s.param 0x1304 0 : Nat) : Rat) < stretchLoad y.window * 1000
      (t.stretch x).window = [0, 0, 0] ∧ (t.stretch x).total = y.total ∧ (t.stretch x).level = y.level ∧
      (t.stretch x).load = (roundAway (stretchLoad y.window * 1000)).toNat ∧
      (over_ → Queued t 0 0 0x1303 ∧ (t.stretch x).overRes = min (y.overRes + 1) (2 ^ 32 - 1)) ∧
      (¬over_ → (t.stretch x).overRes = y.overRes)) ∧
  (∀ (ms : List TileSample) (s : State), (∀ x, s.power.nextSample = some x → s.now < x) → Idle (.ageingSample ms) s) ∧
  (∀ (ms : List TileSample) (x : Nat) (s : State), s.power.nextSample = some x → x ≤ s.now →
    (∀ cl, cl < 64 → bit (s.cluster cl).reasons 0 = false) →
    Does (.ageingSample ms) s fun t => t.power.samples = s.power.samples + 1 ∧ t.power.sampleAt = s.now ∧
      t.power.nextSample = some (s.now + 1179648000000) ∧
      (∀ (x : Fin 6) (m : TileSample), ms[x.val]? = some m →
        (t.tilePlan x).slack = m.slack ∧ (t.tilePlan x).cls = m.cls ∧ (t.tilePlan x).idx = m.idx ∧ (t.tilePlan x).degr = m.degr ∧
        (t.tilePlan x).v = (s.tilePlan x).v ∧ (t.tilePlan x).bin = (s.tilePlan x).bin ∧
        (2 ≤ x.val → (t.tilePlan x).bound = some (boundary s.now) ∧ (t.tilePlan x).step = agePlan s x (ageView s x m))) ∧
      SameExcept [.power, .ev] s t) ∧
  (∀ (ms : List TileSample) (x : Nat) (s : State), s.power.nextSample = some x → x ≤ s.now → Does (.ageingSample ms) s fun t =>
    ∀ cl, cl < 64 → bit (t.cluster cl).reasons 0 = false) ∧
  (∀ s : State, (∀ x : Fin 6, (s.tilePlan x).bound = none) → Idle .replanBoundary s) ∧
  (∀ (x : Fin 6) (b : Nat) (s : State), 2 ≤ x.val → (s.tilePlan x).bound = some b → b ≤ s.now → commitWindow s b = none →
    (∀ j : Fin 6, j ≠ x → (s.tilePlan j).bound = none) → (s.tilePlan x).margin = 0 → Room 1 s →
    ((s.tilePlan x).step = none →
      Does .replanBoundary s fun t => t.tilePlan x = { s.tilePlan x with bound := none } ∧ OtherTiles s t x ∧ SameExcept [.power] s t) ∧
    (∀ i, (s.tilePlan x).step = some (0, i) →
      Does .replanBoundary s fun t => t.tilePlan x = { s.tilePlan x with
          bound := none, step := none, avs := some (min ((s.tilePlan x).v + 5) (s.param 0x1403 (x.val - 2)), 0) } ∧
        OtherTiles s t x ∧ SameExcept [.power] s t) ∧
    (∀ i, (s.tilePlan x).step = some (1, i) →
      Does .replanBoundary s fun t => t.tilePlan x = { s.tilePlan x with
          bound := none, step := none, avs := some ((s.tilePlan x).v - 5, 1) } ∧ OtherTiles s t x ∧ SameExcept [.power] s t) ∧
    ∀ i, (s.tilePlan x).step = some (3, i) →
      Does .replanBoundary s fun t => t.tilePlan x = { s.tilePlan x with
          bound := none, step := none, bin := (s.tilePlan x).bin + 1 } ∧ OtherTiles s t x ∧ Queued t 0 0 0x1401 ∧
        t.boot.ageSaved = t.power.tiles ∧ SameExcept [.power, .host, .boot, .ev] s t) ∧
  (∀ (x : Fin 6) (b o : Nat) (s : State), 2 ≤ x.val → (s.tilePlan x).bound = some b → b ≤ s.now → commitWindow s b = some o →
    (∀ j : Fin 6, j ≠ x → (s.tilePlan j).bound = none) →
    Does .replanBoundary s fun t => t.tilePlan x = { s.tilePlan x with bound := some ((o / 19660800 + 1) * 19660800) } ∧
      OtherTiles s t x ∧ SameExcept [.power] s t) ∧
  (∀ (x : Fin 6) (c : Fin 5) (idx : Byte) (s : State), x.val < 2 ∨ c.val = 4 → Room 1 s →
    Does (.marginFlag x c idx) s fun t => Raised s t 0 0 0x1402 3 (leBytes 1 x ++ leBytes 1 c ++ leBytes 2 idx.toNat ++
        leBytes 2 (if x.val < 2 then 750 else (s.tilePlan x).v)) ∧ SameExcept [.ev] s t) ∧
  (∀ (x : Fin 6) (c : Fin 5) (idx : Byte) (s : State), 2 ≤ x.val → c.val = 2 ∨ c.val = 3 →
    (s.tilePlan x).v < s.param 0x1403 (x.val - 2) → Room 1 s →
    Does (.marginFlag x c idx) s fun t => t.tilePlan x = { s.tilePlan x with
        avs := some (min ((s.tilePlan x).v + 10) (s.param 0x1403 (x.val - 2)), 255) } ∧ OtherTiles s t x ∧ Queued t 0 0 0x1402 ∧
      SameExcept [.power, .ev] s t) ∧
  (∀ (rail : Fin 4) (res : Fin 3) (s : State), (s.tilePlan (2 + rail.val)).avs = none → Idle (.avsWriteComplete rail res) s) ∧
  (∀ (rail : Fin 4) (v kind : Nat) (s : State), (s.tilePlan (2 + rail.val)).avs = some (v, kind) → Room 1 s →
    Does (.avsWriteComplete rail 0) s fun t => t.tilePlan (2 + rail.val) = { s.tilePlan (2 + rail.val) with v := v, avs := none } ∧
      OtherTiles s t (2 + rail.val) ∧ (kind ≤ 1 → Queued t 0 0 0x1401) ∧ (1 < kind → t.ev = s.ev) ∧ SameExcept [.power, .ev] s t) ∧
  (∀ (rail : Fin 4) (res : Fin 3) (v kind : Nat) (s : State), (s.tilePlan (2 + rail.val)).avs = some (v, kind) → res ≠ 0 → Room 1 s →
    Does (.avsWriteComplete rail res) s fun t => t.tilePlan (2 + rail.val) = { s.tilePlan (2 + rail.val) with avs := none } ∧
      OtherTiles s t (2 + rail.val) ∧ Raised s t 0 0 0x1405 3 (leBytes 1 rail ++ leBytes 1 (res.val - 1) ++ leBytes 2 v) ∧
      SameExcept [.power, .ev] s t) ∧
  (∀ (hot : Bool) (s : State), s.boot.off = false →
    Does (.thermAlert hot) s fun t => t.power = { s.power with alert := hot } ∧ SameExcept [.power] s t) ∧
  (∀ s : State, s.boot.off = false → s.power.trip = false →
    Does .thermtrip s fun t => t.power.trip = true ∧ t.power.alert = true ∧ t.power.on = [95] ∧ t.power.coming = [] ∧
      t.mem = { capacity := s.mem.capacity } ∧ (∀ h : Fin 4, (t.hp h).linkUp = false ∧ (t.hp h).current = none) ∧
      t.cfg.params = s.cfg.params) ∧
  ∀ s : State, s.boot.off = true ∨ s.power.trip = true → Idle .thermtrip s ∧ (s.boot.off = true → ∀ hot, Idle (.thermAlert hot) s)

/-! ## Reset and start (R557 to R575) -/

namespace Sys2Proof.Claims

open Sys2Proof.Machine

/-- Everything inside the device that a reset clears stands at its reset value: the blocks, the configuration, the event log
and the pool. -/
abbrev Cleared (t : State) : Prop :=
  t.cfg = {} ∧ t.ev = {} ∧ t.test = {} ∧ t.ports = {} ∧ t.facet = {} ∧ t.mill = {} ∧ t.clove = {} ∧ t.fab = {} ∧ t.mem = {} ∧
  t.dma = {} ∧ t.pool = {}

/-- Nothing fails in the steps that the start's own findings decide. -/
abbrev FindsNothing (m : StartIn) : Prop :=
  m.fuse = false ∧ m.rom = false ∧ m.clock = false ∧ m.flashConfig = false ∧ m.flashImage = false ∧ m.flashLanes = false ∧
  m.avs = none ∧ m.spd = false ∧ m.train = false ∧ m.laniman = false

/-- The code with which step IMAGE refuses the flash's Laniman image; 0 where every check passes (R562). -/
def imageCodeOf (s : State) : Nat := imageVerify (imageHeader s) (bytesRead 0xFF s.host.flash 0x21000 (imageCodeLen (imageHeader s)))

/-- No lane, window or cache holds anything that a warm start would end. -/
abbrev Quiet (s : State) : Prop := s.lanes.lanes = [] ∧ s.lanes.maint = [] ∧ NothingCached s ∧ s.proul.driving = none

end Sys2Proof.Claims

/-- Resets, power removal and the two starts (R538, R543, R557, R558, R562, R567, R569 to R574).  RST_N low and the loss of
power clear the device; the flash and host memory stay, and RST_N leaves the TAP alone.  A cold start ends in RUN with
START_COMPLETE, or in BOOT_FAILED with the code of the first step that fails, and then only the domains from 94 on stay on.
WRST_N asks for a warm start, also out of HOLD, which it records; a warm start that succeeds keeps the configuration and
external memory, ends subscriptions and staged sets, and holds every carrier committed active. -/
def Obligations.ResetsAndStarts : Prop :=
  (∀ s : State, s.boot.rstLow = true → Idle .rstNAssert s) ∧
  (∀ s : State, s.boot.rstLow = false → s.host.flashOp = none →
    Does .rstNAssert s fun t => t.boot.rstLow = true ∧ t.boot.devState = 0 ∧ t.power.on = (if s.boot.off then [] else [95]) ∧
      Cleared t ∧ t.host.flash = s.host.flash ∧ (∀ h : Fin 4, (t.hp h).mem = (s.hp h).mem ∧ (t.hp h).linkUp = false) ∧
      t.proul.ir = s.proul.ir ∧ t.proul.driving = s.proul.driving ∧ t.proul.unlocked = false ∧ t.time.air = 0) ∧
  (∀ s : State, s.host.flashOp = none →
    Does .powerRemoval s fun t => t.boot.off = true ∧ t.power.on = [] ∧ t.power.kept = [] ∧ Cleared t ∧ t.proul = {} ∧
      t.host.flash = s.host.flash ∧ t.time.air = 0) ∧
  (∀ s : State, s.boot.rstLow = false → s.boot.off = false → s.boot.devState = 1 ∨ s.boot.devState = 2 ∨ s.boot.devState = 4 →
    s.boot.warmDue = false →
    Does .wrstN s fun t => t.boot = { s.boot with warmDue := true } ∧ SameExcept [.boot] s t) ∧
  (∀ s : State, s.boot.rstLow = false → s.boot.off = false → s.boot.devState = 3 → s.boot.warmDue = false →
    Does .wrstN s fun t => t.boot = { s.boot with warmDue := true } ∧
      t.power = { s.power with wake := { source := 5, inst := 0, at_ := s.now } } ∧ SameExcept [.boot, .power] s t) ∧
  (∀ s : State, s.boot.devState = 0 ∨ s.boot.devState = 5 → Idle .wrstN s) ∧
  (∀ (m : StartIn) (s : State), s.boot.rstLow = false → s.boot.devState ≠ 0 → Idle (.coldStart m) s) ∧
  (∀ (m : StartIn) (s : State), s.boot.rstLow = true → s.host.flashOp = none → m.fuse = true →
    Does (.coldStart m) s fun t => t.boot.devState = 5 ∧ t.boot.fail = 1 ∧ t.boot.step = 0 ∧ t.boot.rstLow = false ∧ t.power.on = [95] ∧
      t.time.air = startAir m.micros ∧ t.host.spi.enabled = m.mspi ∧ t.time.oscSel = m.oscSel ∧ t.power.trip = false ∧
      t.host.flash = s.host.flash) ∧
  (∀ (m : StartIn) (s : State), s.boot.rstLow = true → s.host.flashOp = none → s.lanes.lanes = [] → FindsNothing m →
    Does (.coldStart m) s fun t => t.boot.rstLow = false ∧ t.time.air = startAir m.micros ∧
      (imageCodeOf s ≠ 0 → t.boot.devState = 5 ∧ t.boot.fail = imageCodeOf s ∧ t.boot.step = 9 ∧ t.power.on = [95, 94]) ∧
      (imageCodeOf s = 0 → t.boot.devState = 1 ∧ t.boot.fail = 0 ∧ t.boot.step = 14 ∧ t.mem.capacity = m.capacity ∧
        t.mem.data = [] ∧ t.mem.regions = [] ∧ t.cfg = {} ∧
        (boardCheck (bytesRead 0xFF s.host.flash 0x10000 32832) ≠ none → Queued t 0 0 0x1501))) ∧
  (∀ (m : StartIn) (s : State), s.boot.warmDue = false → Idle (.warmStart m) s) ∧
  (∀ (m : StartIn) (s : State), s.boot.warmDue = true → s.boot.rstLow = false → s.boot.off = false → s.power.wait = none →
    s.host.flashOp = none → m.fuse = true →
    Does (.warmStart m) s fun t => t.boot.devState = 5 ∧ t.boot.fail = 1 ∧ t.boot.step = 0 ∧ t.boot.warmFailed = true ∧
      t.boot.warmDue = false ∧ ∀ d ∈ t.power.on, 94 ≤ d) ∧
  ∀ (m : StartIn) (s : State), s.boot.warmDue = true → s.boot.rstLow = false → s.boot.off = false → s.power.wait = none →
    s.host.flashOp = none → s.time.oscLost = false → FindsNothing m → m.retained = none → m.digestOk = true → Quiet s → Room 1 s →
    Does (.warmStart m) s fun t => t.boot.devState = 1 ∧ t.boot.fail = 0 ∧ t.boot.step = 14 ∧ t.boot.warmDue = false ∧
      t.pool.held = sortNat s.activeCarriers ∧ t.ev.subs = [] ∧ t.ev.log = s.ev.log ∧ t.cfg.staged = [] ∧ t.cfg.commit = none ∧
      (s.param 0x080B 0 = 2 ^ 64 - 1 → t.mem.data = s.mem.data ∧ t.mem.regions = s.mem.regions) ∧ t.time.air = s.time.air ∧ t.clove = {} ∧
        t.proul.unlocked = false ∧
      Queued t 0 0 0x1501

/-! ## TAP and Proul (R576 to R595) -/

namespace Sys2Proof.Claims

open Sys2Proof.Machine

/-- The Proul register takes an operation's result, and nothing else changes. -/
abbrev Results (i : Instr) (s : State) (addr res data : Nat) : Prop :=
  Does i s fun t => t.proul = { s.proul with result := res, addr := addr, data := data } ∧ SameExcept [.proul] s t

/-- The Proul register executes operations: the device has power, debug access is unlocked, none is PENDING (R578, R590). -/
abbrev Unlocked (s : State) : Prop := s.boot.off = false ∧ s.proul.unlocked = true ∧ s.proul.result ≠ 1

/-- An operation of the Proul register with the address that it names (R578, R581, R584, R586). -/
abbrev IsProul (i : Instr) (addr : Nat) : Prop :=
  (i = .nop ∧ addr = 0) ∨ (∃ a, i = .fabRead a ∧ addr = a.toNat) ∨ (∃ a d, i = .fabWrite a d ∧ addr = a.toNat) ∨
  (∃ a, i = .dbgRead a ∧ addr = a.toNat) ∨ (∃ a d, i = .dbgWrite a d ∧ addr = a.toNat) ∨ (∃ k, i = .halt k ∧ addr = dctlAddr k) ∨
  (∃ k, i = .resume k ∧ addr = dctlAddr k) ∨ (∃ k, i = .step k ∧ addr = dctlAddr k) ∨ (∃ m, i = .xtStatusClear m ∧ addr = xtAddr)

/-- A write of debug space succeeded: its effect on one core, and the result OK. -/
abbrev Stores (i : Instr) (s : State) (addr k : Nat) (c : Core) : Prop :=
  Does i s fun t => t.core k = c ∧ (∀ j, j ≠ k → t.core j = s.core j) ∧
    t.proul = { s.proul with result := 0, addr := addr, data := 0 } ∧ SameExcept [.proul, .facet] s t

end Sys2Proof.Claims

/-- The TAP, the Proul register and debug access (R576 to R581, R584, R586, R587, R590, R591).  A TAP instruction is loaded;
one that drives pins takes effect only while RST_N is low or the start has failed, and is else recorded as blocked.  An
operation is discarded while one is PENDING and reads LOCKED while debug access is; a fabric operation is a transaction of 8
bytes; a debug access reads or writes the place that its address names, of a halted core where it needs one.  HALT requests,
RESUME and STEP end a halt; the core halts at its halt point; a cross-trigger request halts with cause 5; an unlock and a
challenge expire. -/
def Obligations.TapAndProul : Prop :=
  (∀ s : State, s.boot.off = false →
    (Does .tapReset s fun t => t.proul = { s.proul with ir := 2, driving := none } ∧ SameExcept [.proul] s t) ∧
    (∀ v, Does (.samplePreload v) s fun t => t.proul = { s.proul with ir := 1, driving := none, bscan := v } ∧
      SameExcept [.proul] s t) ∧
    (Does .idcode s fun t => t.proul = { s.proul with ir := 2, driving := none } ∧ SameExcept [.proul] s t) ∧
    (Does .proulAccess s fun t => t.proul = { s.proul with ir := 0x20, driving := none } ∧ SameExcept [.proul] s t) ∧
    Does .bypass s fun t => t.proul = { s.proul with ir := 0xFF, driving := none } ∧ SameExcept [.proul] s t) ∧
  (∀ (i : Instr) (ir v : Nat) (s : State), (ir = 0 ∧ i = .extest v) ∨ (ir = 3 ∧ i = .clamp ∧ v = s.proul.bscan) ∨
      (ir = 4 ∧ i = .highz ∧ v = s.proul.bscan) ∨ (ir = 5 ∧ i = .extestPulse v) ∨ (ir = 6 ∧ i = .extestTrain v) → s.boot.off = false →
    Does i s fun t => SameExcept [.proul] s t ∧
      (s.boot.rstLow = true ∨ s.boot.devState = 5 → t.proul = { s.proul with ir := ir, driving := some ir, bscan := v }) ∧
      (s.boot.rstLow = false → s.boot.devState ≠ 5 → t.proul = { s.proul with ir := ir, driving := none, blocked := true })) ∧
  (∀ (i : Instr) (a : Nat) (s : State), IsProul i a → s.boot.off = true ∨ s.proul.result = 1 → Idle i s) ∧
  (∀ (i : Instr) (a : Nat) (s : State), IsProul i a → s.boot.off = false → s.proul.result ≠ 1 → s.proul.unlocked = false →
    Results i s a 2 0) ∧
  (∀ s : State, Unlocked s → Results .nop s 0 0 0) ∧
  (∀ (a d : W64) (s : State), Unlocked s → a.toNat % 8 ≠ 0 → Results (.fabRead a) s a.toNat 5 0 ∧ Results (.fabWrite a d) s a.toNat 5 0) ∧
  (∀ (i : Instr) (a d : W64) (cmd : Nat) (s : State), Unlocked s → a.toNat % 8 = 0 →
    (cmd = 1 ∧ i = .fabRead a) ∨ (cmd = 2 ∧ i = .fabWrite a d) →
    Does i s fun t => t.proul = { s.proul with result := 1, addr := a.toNat, data := 0, relocked := false } ∧
      t.fab.flight = s.fab.flight ++ [{
        cmd := cmd, vc := 0, src := lanimanNode,
        dst := (targetNode (fabTarget a.toNat)).getD 1023, addr := a.toNat, len := 8, tag := freeTag s lanimanNode,
        gen := (s.ni (niKey lanimanNode 65534)).gen, data := if cmd = 2 then leBytes 8 d.toNat else [], chan := 65534 }] ∧
      SameExcept [.proul, .fab] s t) ∧
  (∀ (a d : W64) (s : State), Unlocked s → dbgPlace a.toNat = .bad →
    Results (.dbgRead a) s a.toNat 5 0 ∧ Results (.dbgWrite a d) s a.toNat 5 0) ∧
  (∀ (a d : W64) (k off : Nat) (s : State), Unlocked s → dbgPlace a.toNat = .imem k off → Results (.dbgWrite a d) s a.toNat 4 0) ∧
  (∀ (a d : W64) (k n : Nat) (s : State), Unlocked s → dbgPlace a.toNat = .g k n → (s.core k).dbg.halted = false →
    Results (.dbgRead a) s a.toNat 3 0 ∧ Results (.dbgWrite a d) s a.toNat 3 0) ∧
  (∀ (a : W64) (k n : Nat) (s : State), Unlocked s → dbgPlace a.toNat = .g k n → (s.core k).dbg.halted = true →
    Results (.dbgRead a) s a.toNat 0 ((s.core k).regs.getG n).toNat) ∧
  (∀ (a : W64) (k off : Nat) (s : State), Unlocked s → dbgPlace a.toNat = .imem k off → (s.core k).dbg.halted = true →
    Results (.dbgRead a) s a.toNat 0 (leNat (bytesRead 0 (s.core k).imem off 8))) ∧
  (∀ (a : W64) (k : Nat) (s : State), Unlocked s → dbgPlace a.toNat = .reg k 0x408 → Results (.dbgRead a) s a.toNat 0 (dstat (s.core k))) ∧
  (∀ (a d : W64) (k n : Nat) (s : State), Unlocked s → dbgPlace a.toNat = .g k n → (s.core k).dbg.halted = true →
    Stores (.dbgWrite a d) s a.toNat k { s.core k with regs := (s.core k).regs.setG n d }) ∧
  (∀ (a d : W64) (k i : Nat) (s : State), Unlocked s → i < 4 → dbgPlace a.toNat = .reg k (0x420 + 8 * i) →
    Stores (.dbgWrite a d) s a.toNat k { s.core k with
      dbg := { (s.core k).dbg with bp := (s.core k).dbg.bp.set i (bpValue d.toNat) } }) ∧
  (∀ (k : CoreId) (s : State), Unlocked s → s.domainOn (k.val / 16) = true → (s.core k).dbg.halted = false →
    (s.core k).dbg.requested = false → (s.core k).restoring = false →
    Stores (.halt k) s (dctlAddr k) k { s.core k with dbg := { (s.core k).dbg with requested := true, cause := 1 } }) ∧
  (∀ (k : CoreId) (s : State), Unlocked s → (s.core k).dbg.halted = true → mapGet? s.mill.drains k = none →
    Stores (.resume k) s (dctlAddr k) k { s.core k with
      dbg := { (s.core k).dbg with halted := false, requested := false, cause := 0, index := 0, skipBp := true } }) ∧
  (∀ (k : CoreId) (s : State), Unlocked s → (s.core k).dbg.halted = true →
    Stores (.step k) s (dctlAddr k) k { s.core k with
      dbg := { (s.core k).dbg with halted := false, requested := false, stepping := true, skipBp := true } }) ∧
  (∀ (i : Instr) (k : CoreId) (s : State), Unlocked s →
    (i = .halt k ∧ (s.core k).dbg.halted = true) ∨ ((i = .resume k ∨ i = .step k) ∧ (s.core k).dbg.halted = false) →
    Results i s (dctlAddr k) 0 0) ∧
  (∀ (m : Byte) (s : State), Unlocked s →
    Does (.xtStatusClear m) s fun t => t.proul = { s.proul with
        result := 0, addr := xtAddr, data := 0, xtStatus := s.proul.xtStatus &&& (255 - m.toNat) } ∧ SameExcept [.proul] s t) ∧
  (∀ (k : CoreId) (s : State), (s.core k).dbg.requested = false ∨ boundaryOpen (s.core k).regs = false → Idle (.haltPointReached k) s) ∧
  (∀ (k : CoreId) (s : State), (s.core k).dbg.requested = true → (s.core k).dbg.halted = false → (s.core k).restoring = false →
    boundaryOpen (s.core k).regs = true → (settle 8 (s.core k) none 0).2.1 = none →
    (settle 8 (s.core k) none 0).1.restoring = false → (settle 8 (s.core k) none 0).1.dbg.dxt % 256 = 0 →
    mapGet? s.ev.rate (rateKey 0x1604 k) = none → Room 1 s →
    Does (.haltPointReached k) s fun t => t.core k = { (settle 8 (s.core k) none 0).1 with
        open_ := [], waiting := false
        dbg := { (settle 8 (s.core k) none 0).1.dbg with
          halted := true, requested := false, stepping := false, cause := (s.core k).dbg.cause, index := 0 } } ∧
      (∀ j, j ≠ k.val → t.core j = s.core j) ∧ Queued t 0 0 0x1604 ∧ SameExcept [.facet, .ev] s t) ∧
  (∀ (k : CoreId) (s : State), k.val ∉ s.proul.xtPending → Idle (.crossTriggerRequest k) s) ∧
  (∀ (k : CoreId) (s : State), k.val ∈ s.proul.xtPending → s.domainOn (k.val / 16) = true → (s.core k).dbg.halted = false →
    (s.core k).dbg.requested = false → (s.core k).restoring = false →
    Does (.crossTriggerRequest k) s fun t =>
      t.core k = { s.core k with dbg := { (s.core k).dbg with requested := true, cause := 5 } } ∧
      (∀ j, j ≠ k.val → t.core j = s.core j) ∧ k.val ∉ t.proul.xtPending ∧ SameExcept [.proul, .facet] s t) ∧
  (∀ s : State, s.proul.expiry = none → Idle .unlockExpiry s) ∧
  (∀ (x : Nat) (s : State), s.proul.expiry = some x → x ≤ s.now → s.proul.unlocked = true → s.facet.cores = [] → Room 1 s →
    Does .unlockExpiry s fun t => t.proul.unlocked = false ∧ t.proul.unlockAt = 0 ∧ t.proul.expiry = none ∧
      Raised s t 0 0 0x1602 1 (leBytes 1 1 ++ leBytes 2 0) ∧ SameExcept [.proul, .ev] s t) ∧
  (∀ (c : Challenge) (s : State), s.proul.challenge = some c → c.expiry ≤ s.now →
    Does .challengeExpiry s fun t => t.proul = { s.proul with challenge := none } ∧ SameExcept [.proul] s t) ∧
  ∀ s : State, s.proul.challenge = none → Idle .challengeExpiry s
end

