-- ==== Sys2Proof/Laws/Memory.lean ====
section
/-! SUPPORT. Byte memories and sparse maps: the canonical form is kept by every memory operation, and what a read
finds after a write. -/

namespace Sys2Proof.Machine

theorem memWf_iff (d : Byte) (m : Bytes) :
    memWf d m = true ↔ (∀ e ∈ m, e.2 ≠ d) ∧ m.Pairwise fun x y => x.1 < y.1 := by
  induction m with
  | nil => simp [memWf]
  | cons e t ih =>
    cases t with
    | nil => simp [memWf]
    | cons f t =>
      simp only [memWf, Bool.and_eq_true, bne_iff_ne, decide_eq_true_eq, ih]
      constructor
      · rintro ⟨⟨h1, h2⟩, h3, h4⟩
        refine ⟨fun x hx => ?_, List.pairwise_cons.mpr ⟨fun x hx => ?_, h4⟩⟩
        · rcases List.mem_cons.mp hx with rfl | hx
          · exact h1
          · exact h3 x hx
        · rcases List.mem_cons.mp hx with rfl | hx
          · exact h2
          · exact h2.trans ((List.pairwise_cons.mp h4).1 x hx)
      · rintro ⟨h1, h2⟩
        have h3 := List.pairwise_cons.mp h2
        exact ⟨⟨h1 e (by simp), h3.1 f (by simp)⟩, fun x hx => h1 x (List.mem_cons_of_mem _ hx), h3.2⟩

theorem mem_mapSet {α : Type} (m : SMap α) (k : Nat) (v : α) (e : Nat × α) (h : e ∈ mapSet m k v) : e = (k, v) ∨ e ∈ m := by
  induction m with
  | nil => simpa [mapSet] using h
  | cons a t ih =>
    unfold mapSet at h
    split at h
    · simpa using h
    · split at h
      · rcases List.mem_cons.mp h with h | h
        · exact .inl h
        · exact .inr (List.mem_cons_of_mem _ h)
      · rcases List.mem_cons.mp h with h | h
        · exact .inr (h ▸ List.mem_cons_self)
        · exact (ih h).imp_right (List.mem_cons_of_mem _)

theorem mem_mapDel {α : Type} (m : SMap α) (k : Nat) (e : Nat × α) (h : e ∈ mapDel m k) : e ∈ m := by
  induction m with
  | nil => exact h
  | cons a t ih =>
    unfold mapDel at h
    split at h
    · exact List.mem_cons_of_mem _ (ih h)
    · rcases List.mem_cons.mp h with h | h
      · exact h ▸ List.mem_cons_self
      · exact List.mem_cons_of_mem _ (ih h)

theorem mapSet_sorted {α : Type} {m : SMap α} (k : Nat) (v : α) (h : m.Pairwise fun x y => x.1 < y.1) :
    (mapSet m k v).Pairwise fun x y => x.1 < y.1 := by
  induction m with
  | nil => simp [mapSet]
  | cons a t ih =>
    have h' := List.pairwise_cons.mp h
    unfold mapSet
    split
    · rename_i lt
      refine List.pairwise_cons.mpr ⟨fun x hx => ?_, h⟩
      rcases List.mem_cons.mp hx with rfl | hx
      · exact lt
      · exact lt.trans (h'.1 x hx)
    · split
      · rename_i e
        exact List.pairwise_cons.mpr ⟨fun x hx => e ▸ h'.1 x hx, h'.2⟩
      · refine List.pairwise_cons.mpr ⟨fun x hx => ?_, ih h'.2⟩
        rcases mem_mapSet t k v x hx with rfl | hx
        · dsimp only
          omega
        · exact h'.1 x hx

theorem mapDel_sorted {α : Type} {m : SMap α} (k : Nat) (h : m.Pairwise fun x y => x.1 < y.1) :
    (mapDel m k).Pairwise fun x y => x.1 < y.1 := by
  induction m with
  | nil => exact h
  | cons a t ih =>
    have h' := List.pairwise_cons.mp h
    unfold mapDel
    split
    · exact ih h'.2
    · exact List.pairwise_cons.mpr ⟨fun x hx => h'.1 x (mem_mapDel t k x hx), ih h'.2⟩

theorem byteSet_wf {d : Byte} {m : Bytes} (a : Nat) (b : Byte) (h : memWf d m = true) : memWf d (byteSet d m a b) = true := by
  rw [memWf_iff] at h ⊢
  unfold byteSet
  split
  · exact ⟨fun e he => h.1 e (mem_mapDel m a e he), mapDel_sorted a h.2⟩
  · rename_i ne
    refine ⟨fun e he => ?_, mapSet_sorted a b h.2⟩
    rcases mem_mapSet m a b e he with rfl | he
    · exact ne
    · exact h.1 e he

theorem bytesWrite_wf {d : Byte} (bs : List Byte) {m : Bytes} (a : Nat) (h : memWf d m = true) :
    memWf d (bytesWrite d m a bs) = true := by
  induction bs generalizing m a with
  | nil => exact h
  | cons b t ih => exact ih (a + 1) (byteSet_wf a b h)

theorem bytesClear_wf {d : Byte} {m : Bytes} (a n : Nat) (h : memWf d m = true) : memWf d (bytesClear m a n) = true := by
  rw [memWf_iff] at h ⊢
  exact ⟨fun e he => h.1 e (List.mem_filter.mp he).1, h.2.filter _⟩


end Sys2Proof.Machine
end

