-- ==== Sys2Proof/Laws/Keeps.lean ====
section
/-! SUPPORT. The relation that every operation keeps between the state before it and the state after it: reflexive,
transitive, and closed under the loops of the model. -/

namespace Sys2Proof.Machine

/-- What every operation of the block keeps: the queue of waiting commands, a legal DEVSTATE (R435), a legal active
domain (R36), at most 256 events in the arbiter's input queue (R513), the canonical form of the flash, and legal states of
the time domains (R40). -/
structure Keeps (s t : State) : Prop where
  pending : t.pending = s.pending
  dev : s.boot.devState ≤ 5 → t.boot.devState ≤ 5
  act : s.time.active ≤ 1 → t.time.active ≤ 1
  queue : s.ev.queue.length ≤ 256 → t.ev.queue.length ≤ 256
  flash : memWf 0xFF s.host.flash = true → memWf 0xFF t.host.flash = true
  doms : (s.time.dom0.st ≤ 4 ∧ s.time.dom1.st ≤ 4) → (t.time.dom0.st ≤ 4 ∧ t.time.dom1.st ≤ 4)

theorem Keeps.refl (s : State) : Keeps s s := ⟨rfl, id, id, id, id, id⟩

theorem Keeps.trans {s t u : State} (h : Keeps s t) (k : Keeps t u) : Keeps s u :=
  ⟨k.pending.trans h.pending, k.dev ∘ h.dev, k.act ∘ h.act, k.queue ∘ h.queue, k.flash ∘ h.flash, k.doms ∘ h.doms⟩

theorem Keeps.upd {s x : State} {time : TimeSt} {host : HostSt} {cfg : CfgSt} {ev : EventSt} {test : TestSt}
    {lanes : LaneSt} {ports : PortSt} {facet : FacetSt} {mill : MillSt} {clove : CloveSt} {fab : FabSt} {mem : MemSt}
    {dma : DmaSt} {pool : PoolSt} {power : PowerSt} {boot : BootSt} {proul : ProulSt} {freeCount : Nat} {pending : List Instr}
    (hp : pending = x.pending)
    (hd : boot.devState = x.boot.devState) (ha : time.active = x.time.active) (hq : ev.queue = x.ev.queue)
    (hf : host.flash = x.host.flash) (h0 : time.dom0.st = x.time.dom0.st) (h1 : time.dom1.st = x.time.dom1.st)
    (h : Keeps s x) :
    Keeps s (State.mk time host cfg ev test lanes ports facet mill clove fab mem dma pool power boot proul freeCount pending) :=
  h.trans ⟨hp, fun k => hd.trans_le k, fun k => ha.trans_le k, fun k => by simpa [hq] using k,
    fun k => by simpa [hf] using k, fun k => ⟨h0.trans_le k.1, h1.trans_le k.2⟩⟩

theorem Keeps.setFlash {s x t : State} (h : Keeps s x) (hp : t.pending = x.pending) (hd : t.boot.devState = x.boot.devState)
    (ht : t.time = x.time) (hq : t.ev.queue = x.ev.queue)
    (hf : memWf 0xFF x.host.flash = true → memWf 0xFF t.host.flash = true) : Keeps s t :=
  h.trans ⟨hp, fun k => hd.trans_le k, fun k => ht ▸ k, fun k => hq ▸ k, hf, fun k => ht ▸ k⟩

theorem Keeps.ite {s a b : State} {c : Prop} {inst : Decidable c} (ha : Keeps s a) (hb : Keeps s b) : Keeps s (if c then a else b) := by
  split <;> assumption

theorem Keeps.ite_fst {s : State} {β : Type} {a b : State × β} {c : Prop} {inst : Decidable c} (ha : Keeps s a.1) (hb : Keeps s b.1) :
    Keeps s (if c then a else b).1 := by
  split <;> assumption

theorem Keeps.of_snd {s t : State} {β : Type} {p : β × State} {b : β} (e : p = (b, t)) (h : Keeps s p.2) : Keeps s t := by
  rw [e] at h
  exact h

theorem Keeps.of_fst {s t : State} {β : Type} {p : State × β} {b : β} (e : p = (t, b)) (h : Keeps s p.1) : Keeps s t := by
  rw [e] at h
  exact h

theorem Keeps.getD {s d : State} {o : Option State} (h : Keeps s d) (ho : ∀ t, o = some t → Keeps s t) : Keeps s (o.getD d) := by
  cases o with
  | none => exact h
  | some t => exact ho t rfl

theorem of_ite_none {α : Type} {c : Prop} {inst : Decidable c} {o : Option α} {t : α} (e : (if c then none else o) = some t) : o = some t := by
  split at e
  · cases e
  · exact e

theorem dom_st {x : State} (h : x.time.dom0.st ≤ 4 ∧ x.time.dom1.st ≤ 4) (d : Nat) : (x.dom d).st ≤ 4 := by
  unfold State.dom
  split
  · exact h.1
  · exact h.2

theorem Keeps.foldl {s i : State} {α : Type} {f : State → α → State} {l : List α} (hi : Keeps s i)
    (hf : ∀ x a, Keeps s x → Keeps s (f x a)) : Keeps s (l.foldl f i) := by
  induction l generalizing i with
  | nil => exact hi
  | cons a l ih => exact ih (hf _ _ hi)

theorem Keeps.foldl_fst {s : State} {α β : Type} {i : State × β} {f : State × β → α → State × β} {l : List α}
    (hi : Keeps s i.1) (hf : ∀ x a, Keeps s x.1 → Keeps s (f x a).1) : Keeps s (l.foldl f i).1 := by
  induction l generalizing i with
  | nil => exact hi
  | cons a l ih => exact ih (hf _ _ hi)

theorem Keeps.foldl_snd {s : State} {α β : Type} {i : β × State} {f : β × State → α → β × State} {l : List α}
    (hi : Keeps s i.2) (hf : ∀ x a, Keeps s x.2 → Keeps s (f x a).2) : Keeps s (l.foldl f i).2 := by
  induction l generalizing i with
  | nil => exact hi
  | cons a l ih => exact ih (hf _ _ hi)

end Sys2Proof.Machine
end

