-- ==== Sys2Proof/Laws/KeepsTime.lean ====
section
/-! SUPPORT. What the operations of Machine/Ops.lean, Machine/Params.lean, Machine/Access.lean, Machine/Events.lean, Machine/Delaz.lean, Machine/Time.lean, Machine/AirTime.lean, Machine/Lanes.lean, Machine/Fabric.lean, Machine/Safe.lean keep. -/

set_option linter.unusedTactic false
set_option linter.unreachableTactic false
set_option linter.unusedVariables false

namespace Sys2Proof.Machine

theorem keeps_State_setComp {s x : State} (h : Keeps s x) : ∀ a1 a2, Keeps s (State.setComp x a1 a2) := by
  intro a1 a2
  unfold State.setComp
  refine Keeps.upd rfl rfl rfl rfl rfl rfl rfl ?_
  exact h

theorem keeps_State_endCommit {s x : State} (h : Keeps s x) : Keeps s (State.endCommit x) := by
  unfold State.endCommit
  refine Keeps.upd rfl rfl rfl rfl rfl rfl rfl ?_
  exact h

theorem keeps_State_setDom {s x : State} (h : Keeps s x) (d : Nat) (y : Domain)
    (hd : x.time.dom0.st ≤ 4 ∧ x.time.dom1.st ≤ 4 → y.st ≤ 4) : Keeps s (x.setDom d y) := by
  unfold State.setDom
  split
  · exact h.trans ⟨rfl, id, id, id, id, fun k => ⟨hd k, k.2⟩⟩
  · exact h.trans ⟨rfl, id, id, id, id, fun k => ⟨k.1, hd k⟩⟩

theorem keeps_State_fresh {s x : State} (h : Keeps s x) : Keeps s (State.fresh x).2 := by
  unfold State.fresh
  dsimp only
  refine Keeps.upd rfl rfl rfl rfl rfl rfl rfl ?_
  exact h

theorem keeps_State_setParam {s x : State} (h : Keeps s x) : ∀ a1 a2 a3, Keeps s (State.setParam x a1 a2 a3) := by
  intro a1 a2 a3
  unfold State.setParam
  refine Keeps.upd rfl rfl rfl rfl rfl rfl rfl ?_
  exact h

theorem keeps_State_setCore {s x : State} (h : Keeps s x) : ∀ a1 a2, Keeps s (State.setCore x a1 a2) := by
  intro a1 a2
  unfold State.setCore
  refine Keeps.upd rfl rfl rfl rfl rfl rfl rfl ?_
  exact h

theorem keeps_State_setCluster {s x : State} (h : Keeps s x) : ∀ a1 a2, Keeps s (State.setCluster x a1 a2) := by
  intro a1 a2
  unfold State.setCluster
  refine Keeps.upd rfl rfl rfl rfl rfl rfl rfl ?_
  exact h

theorem keeps_State_setPort {s x : State} (h : Keeps s x) : ∀ a1 a2, Keeps s (State.setPort x a1 a2) := by
  intro a1 a2
  unfold State.setPort
  refine Keeps.upd rfl rfl rfl rfl rfl rfl rfl ?_
  exact h

theorem keeps_State_setLink {s x : State} (h : Keeps s x) : ∀ a1 a2 a3, Keeps s (State.setLink x a1 a2 a3) := by
  intro a1 a2 a3
  unfold State.setLink
  apply keeps_State_setPort
  exact h

theorem keeps_countLoss {s x : State} (h : Keeps s x) : ∀ a1 a2, Keeps s (countLoss x a1 a2) := by
  intro a1 a2
  unfold countLoss
  refine Keeps.upd rfl rfl rfl rfl rfl rfl rfl ?_
  exact h

theorem keeps_offer {s x : State} (h : Keeps s x) : ∀ e, Keeps s (offer x e) := by
  intro e
  unfold offer
  split
  · exact h.trans ⟨rfl, id, id, fun _ => by simp only [List.length_append, List.length_cons, List.length_nil]; omega, id, id⟩
  · exact keeps_countLoss h _ _

theorem keeps_raise {s x : State} (h : Keeps s x) : ∀ a1 a2 a3 a4, Keeps s (raise x a1 a2 a3 a4) := by
  intro a1 a2 a3 a4
  unfold raise
  apply keeps_offer
  exact h

theorem keeps_raiseLimited {s x : State} (h : Keeps s x) : ∀ a1 a2 a3 a4 a5 a6 a7, Keeps s (raiseLimited x a1 a2 a3 a4 a5 a6 a7) := by
  intro a1 a2 a3 a4 a5 a6 a7
  unfold raiseLimited
  dsimp only
  apply Keeps.ite
  · refine Keeps.upd rfl rfl rfl rfl rfl rfl rfl ?_
    apply keeps_raise
    exact h
  · split
    · exact h
    · refine Keeps.upd rfl rfl rfl rfl rfl rfl rfl ?_
      exact h

theorem keeps_State_setHp {s x : State} (h : Keeps s x) : ∀ a1 a2, Keeps s (State.setHp x a1 a2) := by
  intro a1 a2
  unfold State.setHp
  split
  · refine Keeps.upd rfl rfl rfl rfl rfl rfl rfl ?_
    exact h
  · refine Keeps.upd rfl rfl rfl rfl rfl rfl rfl ?_
    exact h
  · refine Keeps.upd rfl rfl rfl rfl rfl rfl rfl ?_
    exact h
  · refine Keeps.upd rfl rfl rfl rfl rfl rfl rfl ?_
    exact h

theorem keeps_msixSend {s x : State} (h : Keeps s x) : ∀ a1 a2, Keeps s (msixSend x a1 a2) := by
  intro a1 a2
  unfold msixSend
  dsimp only
  apply Keeps.ite
  · exact h
  · apply Keeps.ite
    · apply keeps_State_setHp
      exact h
    · apply keeps_State_setHp
      exact h

theorem keeps_setDevState {s x : State} (h : Keeps s x) : ∀ a1, a1 ≤ 5 → Keeps s (setDevState x a1) := by
  intro a1 k
  unfold setDevState
  split
  · exact h
  · exact Keeps.foldl (h.trans ⟨rfl, fun _ => k, id, id, id, id⟩) fun _ _ hx => keeps_msixSend hx _ _

theorem keeps_countDiscard {s x : State} (h : Keeps s x) : ∀ a1, Keeps s (countDiscard x a1) := by
  intro a1
  unfold countDiscard
  dsimp only
  apply keeps_raiseLimited
  apply keeps_State_setHp
  exact h

theorem keeps_ringWrite {s x : State} (h : Keeps s x) : ∀ a1 a2 a3, Keeps s (ringWrite x a1 a2 a3) := by
  intro a1 a2 a3
  unfold ringWrite
  dsimp only
  apply Keeps.ite
  · apply keeps_msixSend
    apply keeps_State_setHp
    exact h
  · apply keeps_State_setHp
    exact h

theorem keeps_hostReply {s x : State} (h : Keeps s x) : ∀ a1 a2 a3, Keeps s (hostReply x a1 a2 a3) := by
  intro a1 a2 a3
  unfold hostReply
  dsimp only
  apply Keeps.ite
  · apply keeps_State_setHp
    exact h
  · apply Keeps.ite
    · apply keeps_countDiscard
      apply keeps_State_setHp
      exact h
    · apply Keeps.ite
      · apply keeps_State_setHp
        exact h
      · apply keeps_ringWrite
        exact h

theorem keeps_freePort {s x : State} (h : Keeps s x) : ∀ a1, Keeps s (freePort x a1) := by
  intro a1
  unfold freePort
  apply Keeps.ite
  · refine Keeps.upd rfl rfl rfl rfl rfl rfl rfl ?_
    exact h
  · apply keeps_State_setHp
    exact h

theorem keeps_reply {s x : State} (h : Keeps s x) : ∀ a1 a2 a3 a4, Keeps s (reply x a1 a2 a3 a4) := by
  intro a1 a2 a3 a4
  unfold reply
  apply Keeps.ite
  · apply keeps_freePort
    exact h
  · dsimp only
    apply Keeps.ite
    · refine Keeps.upd rfl rfl rfl rfl rfl rfl rfl ?_
      exact h
    · apply keeps_hostReply
      exact h

theorem keeps_replyOk {s x : State} (h : Keeps s x) : ∀ a1 a2, Keeps s (replyOk x a1 a2) := by
  intro a1 a2
  unfold replyOk
  apply keeps_reply
  exact h

theorem keeps_refuse {s x : State} (h : Keeps s x) : ∀ a1 a2 a3, Keeps s (refuse x a1 a2 a3) := by
  intro a1 a2 a3
  unfold refuse
  apply keeps_reply
  exact h

theorem keeps_acceptReq {s x : State} (h : Keeps s x) : ∀ a1, Keeps s (acceptReq x a1) := by
  intro a1
  unfold acceptReq
  apply Keeps.ite
  · refine Keeps.upd rfl rfl rfl rfl rfl rfl rfl ?_
    exact h
  · dsimp only
    refine Keeps.upd rfl rfl rfl rfl rfl rfl rfl ?_
    apply keeps_State_setHp
    exact h

theorem keeps_runChecked {s x : State} (h : Keeps s x) (rq : Req) (pl : List Byte) (body : Req → List Byte → State → State)
    (hb : ∀ rq pl y, Keeps s y → Keeps s (body rq pl y)) : Keeps s (runChecked x rq pl body) := by
  unfold runChecked
  split
  · exact keeps_refuse h _ _ _
  · split
    · exact keeps_refuse h _ _ _
    · exact hb _ _ _ h

theorem keeps_delaz {s x : State} (h : Keeps s x) (op : Nat) (rq : Req) (pl : List Byte) (body : Req → List Byte → State → State)
    (hb : ∀ rq pl y, Keeps s y → Keeps s (body rq pl y)) : Keeps s (delaz op rq pl x body) := by
  unfold delaz
  dsimp only
  split
  · exact h
  · exact keeps_runChecked (keeps_acceptReq h _) _ _ _ hb

theorem keeps_timeEvt {s x : State} (h : Keeps s x) : ∀ a1 a2, Keeps s (timeEvt x a1 a2) := by
  intro a1 a2
  unfold timeEvt
  apply keeps_raise
  exact h

theorem keeps_setInput {s x : State} (h : Keeps s x) : ∀ a1 a2 a3, Keeps s (setInput x a1 a2 a3) := by
  intro a1 a2 a3
  unfold setInput
  dsimp only
  apply keeps_State_setDom
  · exact h
  · intro k
    first | assumption | rfl | omega | exact dom_st (by assumption) _ | decide | (split <;> omega) | (exact And.left (by assumption)) | (exact And.right (by assumption))

theorem keeps_evalInput {s x : State} (h : Keeps s x) : ∀ a1 a2 a3 a4, Keeps s (evalInput x a1 a2 a3 a4) := by
  intro a1 a2 a3 a4
  unfold evalInput
  dsimp only
  apply Keeps.ite
  · split
    · apply keeps_timeEvt
      apply keeps_setInput
      exact h
    · apply keeps_setInput
      exact h
  · apply keeps_setInput
    exact h

theorem keeps_selEvent {s x : State} (h : Keeps s x) : ∀ a1 a2 a3 a4, Keeps s (selEvent x a1 a2 a3 a4) := by
  intro a1 a2 a3 a4
  unfold selEvent
  apply Keeps.ite
  · exact h
  · dsimp only
    apply keeps_timeEvt
    exact h

theorem keeps_reselect {s x : State} (h : Keeps s x) : ∀ a1, Keeps s (reselect x a1) := by
  intro a1
  unfold reselect
  dsimp only
  apply keeps_selEvent
  apply keeps_selEvent
  apply keeps_State_setDom
  · exact h
  · intro k
    first | assumption | rfl | omega | exact dom_st (by assumption) _ | decide | (split <;> omega) | (exact And.left (by assumption)) | (exact And.right (by assumption))

theorem keeps_updInput {s x : State} (h : Keeps s x) : ∀ a1 a2 a3 a4, Keeps s (updInput x a1 a2 a3 a4) := by
  intro a1 a2 a3 a4
  unfold updInput
  apply keeps_reselect
  apply keeps_evalInput
  exact h

theorem keeps_updShared {s x : State} (h : Keeps s x) : ∀ a1 a2, Keeps s (updShared x a1 a2) := by
  intro a1 a2
  unfold updShared
  dsimp only
  apply keeps_reselect
  apply keeps_evalInput
  apply keeps_reselect
  apply keeps_evalInput
  exact h

theorem keeps_synceSignal {s x : State} (h : Keeps s x) : ∀ a1 a2, Keeps s (synceSignal x a1 a2) := by
  intro a1 a2
  unfold synceSignal
  apply Keeps.foldl
  · exact h
  · intro _ _ k
    apply keeps_updShared
    assumption

theorem keeps_enterState {s x : State} (h : Keeps s x) : ∀ a1 a2, a2 ≤ 4 → Keeps s (enterState x a1 a2) := by
  intro a1 a2 k
  unfold enterState
  dsimp only
  apply Keeps.ite
  · exact h
  · exact keeps_timeEvt (keeps_State_setDom h _ _ fun _ => k) _ _

theorem keeps_oscInLoss {s x : State} (h : Keeps s x) : Keeps s (oscInLoss x) := by
  unfold oscInLoss
  apply Keeps.ite
  · exact h
  · dsimp only
    apply keeps_enterState
    · apply keeps_enterState
      · apply keeps_timeEvt
        refine Keeps.upd rfl rfl rfl rfl rfl rfl rfl ?_
        exact h
      · first | assumption | rfl | omega | exact dom_st (by assumption) _ | decide | (split <;> omega) | (exact And.left (by assumption)) | (exact And.right (by assumption))
    · first | assumption | rfl | omega | exact dom_st (by assumption) _ | decide | (split <;> omega) | (exact And.left (by assumption)) | (exact And.right (by assumption))

theorem keeps_State_setPps {s x : State} (h : Keeps s x) : ∀ a1 a2, Keeps s (State.setPps x a1 a2) := by
  intro a1 a2
  unfold State.setPps
  refine Keeps.upd rfl rfl rfl rfl rfl rfl rfl ?_
  exact h

theorem keeps_ppsSkip {s x : State} (h : Keeps s x) : ∀ a1 a2 a3, Keeps s (ppsSkip x a1 a2 a3) := by
  intro a1 a2 a3
  unfold ppsSkip
  apply Keeps.foldl
  · exact h
  · intro _ _ k
    dsimp only
    split
    · assumption
    · apply Keeps.ite
      · apply keeps_timeEvt
        apply keeps_State_setPps
        assumption
      · assumption

theorem keeps_ppsArm {s x : State} (h : Keeps s x) : ∀ a1, Keeps s (ppsArm x a1) := by
  intro a1
  unfold ppsArm
  dsimp only
  split
  · apply keeps_State_setPps
    exact h
  · apply Keeps.ite
    · apply keeps_timeEvt
      apply keeps_State_setPps
      exact h
    · apply keeps_State_setPps
      exact h
  · apply keeps_State_setPps
    exact h

theorem keeps_ppsOutEdge {s x : State} (h : Keeps s x) : ∀ a1, Keeps s (ppsOutEdge x a1) := by
  intro a1
  unfold ppsOutEdge
  dsimp only
  split
  · exact h
  · apply Keeps.ite
    · exact h
    · apply Keeps.ite
      · apply keeps_State_setPps
        exact h
      · apply keeps_State_setPps
        exact h

theorem keeps_ppsOutPulseEnd {s x : State} (h : Keeps s x) : ∀ a1, Keeps s (ppsOutPulseEnd x a1) := by
  intro a1
  unfold ppsOutPulseEnd
  dsimp only
  apply Keeps.ite
  · apply keeps_State_setPps
    exact h
  · exact h

theorem keeps_domainStep {s x : State} (h : Keeps s x) : ∀ a1 a2, Keeps s (domainStep x a1 a2) := by
  intro a1 a2
  unfold domainStep
  dsimp only
  apply Keeps.ite
  · apply keeps_ppsSkip
    apply keeps_timeEvt
    refine Keeps.upd rfl rfl rfl rfl rfl rfl rfl ?_
    apply keeps_State_setDom
    · exact h
    · intro k
      first | assumption | rfl | omega | exact dom_st (by assumption) _ | decide | (split <;> omega) | (exact And.left (by assumption)) | (exact And.right (by assumption))
  · apply keeps_timeEvt
    refine Keeps.upd rfl rfl rfl rfl rfl rfl rfl ?_
    apply keeps_State_setDom
    · exact h
    · intro k
      first | assumption | rfl | omega | exact dom_st (by assumption) _ | decide | (split <;> omega) | (exact And.left (by assumption)) | (exact And.right (by assumption))

theorem lostState_le (d : Domain) : lostState d ≤ 4 := by
  unfold lostState
  split <;> decide

theorem keeps_stateRules {s x : State} (h : Keeps s x) : ∀ a1 a2 a3 a4, Keeps s (stateRules x a1 a2 a3 a4) := by
  intro a1 a2 a3 a4
  have e : ∀ n, n ≤ 4 → Keeps s (enterState x a1 n) := fun n k => keeps_enterState h a1 n k
  unfold stateRules
  dsimp only
  repeat' first
    | exact h
    | exact e _ (lostState_le _)
    | exact e _ (by decide)
    | exact e _ (by split <;> decide)
    | exact keeps_State_setDom h _ _ fun k => dom_st k _
    | apply Keeps.ite
    | split

theorem keeps_State_setTod {s x : State} (h : Keeps s x) : ∀ a1 a2, Keeps s (State.setTod x a1 a2) := by
  intro a1 a2
  unfold State.setTod
  apply Keeps.ite
  · refine Keeps.upd rfl rfl rfl rfl rfl rfl rfl ?_
    exact h
  · refine Keeps.upd rfl rfl rfl rfl rfl rfl rfl ?_
    exact h

theorem keeps_takeEdge {s x : State} (h : Keeps s x) : ∀ a1, Keeps s (takeEdge x a1) := by
  intro a1
  unfold takeEdge
  split
  · apply Keeps.ite
    · apply keeps_State_setTod
      exact h
    · exact h
  · exact h

theorem keeps_servoUpdate {s x : State} (h : Keeps s x) : ∀ a1 a2, Keeps s (servoUpdate x a1 a2) := by
  intro a1 a2
  unfold servoUpdate
  dsimp only
  apply keeps_stateRules
  apply keeps_State_setDom
  · apply Keeps.ite
    · apply keeps_domainStep
      apply keeps_takeEdge
      apply keeps_reselect
      apply Keeps.foldl
      · exact h
      · intro _ _ k
        apply keeps_evalInput
        assumption
    · apply keeps_takeEdge
      apply keeps_reselect
      apply Keeps.foldl
      · exact h
      · intro _ _ k
        apply keeps_evalInput
        assumption
  · intro k
    first | assumption | rfl | omega | exact dom_st (by assumption) _ | decide | (split <;> omega) | (exact And.left (by assumption)) | (exact And.right (by assumption))

theorem keeps_refWtrExpiry {s x : State} (h : Keeps s x) : ∀ a1 a2, Keeps s (refWtrExpiry x a1 a2) := by
  intro a1 a2
  unfold refWtrExpiry
  apply keeps_updInput
  exact h

theorem keeps_holdoverExpiry {s x : State} (h : Keeps s x) : ∀ a1, Keeps s (holdoverExpiry x a1) := by
  intro a1
  unfold holdoverExpiry
  dsimp only
  split
  · apply Keeps.ite
    · apply keeps_enterState
      · exact h
      · first | assumption | rfl | omega | exact dom_st (by assumption) _ | decide | (split <;> omega) | (exact And.left (by assumption)) | (exact And.right (by assumption))
    · exact h
  · exact h

theorem keeps_ptpTimeout {s x : State} (h : Keeps s x) : ∀ a1 a2, Keeps s (ptpTimeout x a1 a2) := by
  intro a1 a2
  unfold ptpTimeout
  dsimp only
  apply Keeps.ite
  · apply keeps_updInput
    exact h
  · exact h

theorem keeps_clkinEdgeMissing {s x : State} (h : Keeps s x) : ∀ a1, Keeps s (clkinEdgeMissing x a1) := by
  intro a1
  unfold clkinEdgeMissing
  apply keeps_updShared
  exact h

theorem keeps_clkinEdgesReturned {s x : State} (h : Keeps s x) : ∀ a1, Keeps s (clkinEdgesReturned x a1) := by
  intro a1
  unfold clkinEdgesReturned
  apply keeps_updShared
  exact h

theorem keeps_esmcPdu {s x : State} (h : Keeps s x) : ∀ a1 a2, Keeps s (esmcPdu x a1 a2) := by
  intro a1 a2
  unfold esmcPdu
  apply keeps_updShared
  exact h

theorem keeps_esmcTimeout {s x : State} (h : Keeps s x) : ∀ a1, Keeps s (esmcTimeout x a1) := by
  intro a1
  unfold esmcTimeout
  apply Keeps.ite
  · exact h
  · apply keeps_updShared
    exact h

theorem keeps_ppsInEdge {s x : State} (h : Keeps s x) : ∀ a1, Keeps s (ppsInEdge x a1) := by
  intro a1
  unfold ppsInEdge
  dsimp only
  apply keeps_State_setTod
  exact h

theorem keeps_ppsLose {s x : State} (h : Keeps s x) : ∀ a1, Keeps s (ppsLose x a1) := by
  intro a1
  unfold ppsLose
  dsimp only
  apply Keeps.ite
  · apply keeps_updShared
    apply keeps_updShared
    exact h
  · apply keeps_updShared
    exact h

theorem keeps_ppsSignalLoss {s x : State} (h : Keeps s x) : ∀ a1, Keeps s (ppsSignalLoss x a1) := by
  intro a1
  unfold ppsSignalLoss
  apply Keeps.ite
  · apply keeps_ppsLose
    exact h
  · exact h

theorem keeps_todError {s x : State} (h : Keeps s x) : ∀ a1 a2 a3, Keeps s (todError x a1 a2 a3) := by
  intro a1 a2 a3
  unfold todError
  apply keeps_timeEvt
  exact h

theorem keeps_todMessage {s x : State} (h : Keeps s x) : ∀ a1 a2, Keeps s (todMessage x a1 a2) := by
  intro a1 a2
  unfold todMessage
  apply Keeps.ite
  · exact h
  · dsimp only
    split
    · apply keeps_todError
      apply keeps_State_setTod
      exact h
    · apply keeps_updShared
      apply keeps_updShared
      apply Keeps.ite
      · apply keeps_todError
        apply Keeps.ite
        · apply keeps_todError
          apply keeps_State_setTod
          exact h
        · apply keeps_State_setTod
          exact h
      · apply Keeps.ite
        · apply keeps_todError
          apply keeps_State_setTod
          exact h
        · apply keeps_State_setTod
          exact h

theorem keeps_driftWindow {s x : State} (h : Keeps s x) : ∀ a1 a2, Keeps s (driftWindow x a1 a2) := by
  intro a1 a2
  unfold driftWindow
  dsimp only
  apply keeps_reselect
  apply Keeps.foldl
  · exact h
  · intro _ _ k
    apply Keeps.ite
    · apply Keeps.ite
      · apply keeps_timeEvt
        apply keeps_evalInput
        assumption
      · apply keeps_setInput
        assumption
    · apply Keeps.ite
      · apply Keeps.ite
        · apply keeps_timeEvt
          apply keeps_evalInput
          assumption
        · apply keeps_setInput
          assumption
      · apply keeps_setInput
        assumption

theorem keeps_driftWindowEnd {s x : State} (h : Keeps s x) : ∀ a1 a2, Keeps s (driftWindowEnd x a1 a2) := by
  intro a1 a2
  unfold driftWindowEnd
  apply Keeps.ite
  · exact h
  · dsimp only
    refine Keeps.upd rfl rfl rfl rfl rfl rfl rfl ?_
    apply keeps_State_setDom
    · apply keeps_State_setDom
      · apply keeps_driftWindow
        apply keeps_driftWindow
        exact h
      · intro k
        first | assumption | rfl | omega | exact dom_st (by assumption) _ | decide | (split <;> omega) | (exact And.left (by assumption)) | (exact And.right (by assumption))
    · intro k
      first | assumption | rfl | omega | exact dom_st (by assumption) _ | decide | (split <;> omega) | (exact And.left (by assumption)) | (exact And.right (by assumption))

theorem keeps_cmdTimeStatus {s x : State} (h : Keeps s x) : ∀ a1 a2, Keeps s (cmdTimeStatus a1 a2 x) := by
  intro a1 a2
  unfold cmdTimeStatus
  apply keeps_replyOk
  exact h

theorem keeps_cmdTimeRead {s x : State} (h : Keeps s x) : ∀ a1 a2, Keeps s (cmdTimeRead a1 a2 x) := by
  intro a1 a2
  unfold cmdTimeRead
  dsimp only
  apply Keeps.ite
  · apply keeps_refuse
    exact h
  · apply keeps_replyOk
    exact h

theorem keeps_cmdTimeSwitch {s x : State} (h : Keeps s x) : ∀ a1 a2, Keeps s (cmdTimeSwitch a1 a2 x) := by
  intro a1 a2
  unfold cmdTimeSwitch
  dsimp only
  apply Keeps.ite
  · apply keeps_refuse
    exact h
  · apply Keeps.ite
    · apply keeps_refuse
      exact h
    · refine Keeps.upd rfl rfl rfl rfl rfl rfl rfl ?_
      exact h

theorem keeps_cmdTimePtpFeed {s x : State} (h : Keeps s x) : ∀ a1 a2, Keeps s (cmdTimePtpFeed a1 a2 x) := by
  intro a1 a2
  unfold cmdTimePtpFeed
  dsimp only
  apply Keeps.ite
  · apply keeps_refuse
    exact h
  · apply Keeps.ite
    · apply keeps_refuse
      exact h
    · apply Keeps.ite
      · apply keeps_refuse
        exact h
      · apply keeps_replyOk
        apply Keeps.ite
        · apply keeps_servoUpdate
          apply keeps_updInput
          exact h
        · apply keeps_updInput
          exact h

theorem domainTick_st (s : State) (d : Nat) (x : Domain) : (domainTick s d x).st = x.st := by
  unfold domainTick
  dsimp only
  split <;> rfl

theorem keeps_timeTick {s x : State} (h : Keeps s x) : Keeps s (timeTick x) := by
  unfold timeTick
  dsimp only
  exact Keeps.upd rfl rfl rfl rfl rfl (domainTick_st _ _ _) (domainTick_st _ _ _) h

theorem keeps_residualSlewEnd {s x : State} (h : Keeps s x) : Keeps s (residualSlewEnd x) := by
  unfold residualSlewEnd
  apply Keeps.ite
  · refine Keeps.upd rfl rfl rfl rfl rfl rfl rfl ?_
    exact h
  · exact h

theorem keeps_residualCrossing {s x : State} (h : Keeps s x) : Keeps s (residualCrossing x) := by
  unfold residualCrossing
  dsimp only
  apply Keeps.ite
  · exact h
  · apply keeps_timeEvt
    refine Keeps.upd rfl rfl rfl rfl rfl rfl rfl ?_
    exact h

theorem keeps_timeBusParityError {s x : State} (h : Keeps s x) : ∀ a1 a2 a3, Keeps s (timeBusParityError x a1 a2 a3) := by
  intro a1 a2 a3
  unfold timeBusParityError
  dsimp only
  apply keeps_timeEvt
  refine Keeps.upd rfl rfl rfl rfl rfl rfl rfl ?_
  exact h

theorem keeps_cmdAirtimeRead {s x : State} (h : Keeps s x) : ∀ a1 a2, Keeps s (cmdAirtimeRead a1 a2 x) := by
  intro a1 a2
  unfold cmdAirtimeRead
  dsimp only
  apply keeps_replyOk
  exact h

theorem keeps_replyFields {s x : State} (h : Keeps s x) : ∀ a1 a2, Keeps s (replyFields x a1 a2) := by
  intro a1 a2
  unfold replyFields
  apply keeps_replyOk
  exact h

theorem keeps_laneEvt {s x : State} (h : Keeps s x) : ∀ a1 a2 a3, Keeps s (laneEvt x a1 a2 a3) := by
  intro a1 a2 a3
  unfold laneEvt
  apply keeps_raise
  exact h

theorem keeps_State_setLane {s x : State} (h : Keeps s x) : ∀ a1 a2, Keeps s (State.setLane x a1 a2) := by
  intro a1 a2
  unfold State.setLane
  refine Keeps.upd rfl rfl rfl rfl rfl rfl rfl ?_
  exact h

theorem keeps_loadBoard {s x : State} (h : Keeps s x) : ∀ a1, Keeps s (loadBoard x a1) := by
  intro a1
  unfold loadBoard
  split
  · apply keeps_laneEvt
    refine Keeps.upd rfl rfl rfl rfl rfl rfl rfl ?_
    exact h
  · dsimp only
    apply Keeps.foldl
    · refine Keeps.upd rfl rfl rfl rfl rfl rfl rfl ?_
      exact h
    · intro _ _ k
      apply Keeps.foldl
      · assumption
      · intro _ _ k
        apply Keeps.ite
        · apply keeps_laneEvt
          assumption
        · assumption

theorem keeps_laneLockEvt {s x : State} (h : Keeps s x) : ∀ a1 a2 a3, Keeps s (laneLockEvt x a1 a2 a3) := by
  intro a1 a2 a3
  unfold laneLockEvt
  apply keeps_laneEvt
  exact h

theorem keeps_clockRecoveryLock {s x : State} (h : Keeps s x) : ∀ a1, Keeps s (clockRecoveryLock x a1) := by
  intro a1
  unfold clockRecoveryLock
  dsimp only
  apply Keeps.ite
  · exact h
  · apply keeps_laneLockEvt
    apply keeps_State_setLane
    exact h

theorem keeps_codewordLock {s x : State} (h : Keeps s x) : ∀ a1, Keeps s (codewordLock x a1) := by
  intro a1
  unfold codewordLock
  dsimp only
  apply Keeps.ite
  · exact h
  · apply keeps_laneLockEvt
    apply keeps_State_setLane
    exact h

theorem keeps_eyescanDone {s x : State} (h : Keeps s x) : ∀ a1 a2 a3, Keeps s (eyescanDone x a1 a2 a3) := by
  intro a1 a2 a3
  unfold eyescanDone
  apply keeps_laneEvt
  exact h

theorem keeps_abortScan {s x : State} (h : Keeps s x) : ∀ a1 a2, Keeps s (abortScan x a1 a2) := by
  intro a1 a2
  unfold abortScan
  split
  · exact h
  · dsimp only
    apply Keeps.ite
    · apply keeps_eyescanDone
      refine Keeps.upd rfl rfl rfl rfl rfl rfl rfl ?_
      exact h
    · refine Keeps.upd rfl rfl rfl rfl rfl rfl rfl ?_
      exact h

theorem keeps_abortLaneScan {s x : State} (h : Keeps s x) : ∀ a1 a2, Keeps s (abortLaneScan x a1 a2) := by
  intro a1 a2
  unfold abortLaneScan
  split
  · apply Keeps.ite
    · apply keeps_abortScan
      exact h
    · exact h
  · exact h

theorem keeps_eyescanComplete {s x : State} (h : Keeps s x) : ∀ a1 a2, Keeps s (eyescanComplete x a1 a2) := by
  intro a1 a2
  unfold eyescanComplete
  split
  · apply Keeps.ite
    · dsimp only
      apply keeps_eyescanDone
      refine Keeps.upd rfl rfl rfl rfl rfl rfl rfl ?_
      exact h
    · exact h
  · exact h

theorem keeps_trendScan {s x : State} (h : Keeps s x) : ∀ a1, Keeps s (trendScan x a1) := by
  intro a1
  unfold trendScan
  apply Keeps.ite
  · exact h
  · dsimp only
    refine Keeps.upd rfl rfl rfl rfl rfl rfl rfl ?_
    exact h

theorem keeps_cmdEyescanStart {s x : State} (h : Keeps s x) : ∀ a1 a2, Keeps s (cmdEyescanStart a1 a2 x) := by
  intro a1 a2
  unfold cmdEyescanStart
  dsimp only
  apply Keeps.ite
  · apply keeps_refuse
    exact h
  · apply Keeps.ite
    · apply keeps_refuse
      exact h
    · apply Keeps.ite
      · apply keeps_refuse
        exact h
      · apply Keeps.ite
        · apply keeps_refuse
          exact h
        · apply Keeps.ite
          · apply keeps_refuse
            exact h
          · apply keeps_replyOk
            refine Keeps.upd rfl rfl rfl rfl rfl rfl rfl ?_
            apply keeps_abortScan
            exact h

theorem keeps_cmdEyescanAbort {s x : State} (h : Keeps s x) : ∀ a1 a2, Keeps s (cmdEyescanAbort a1 a2 x) := by
  intro a1 a2
  unfold cmdEyescanAbort
  split
  · apply Keeps.ite
    · apply keeps_replyOk
      apply keeps_abortScan
      exact h
    · apply keeps_refuse
      exact h
  · apply keeps_refuse
    exact h

theorem keeps_cmdEyescanRead {s x : State} (h : Keeps s x) : ∀ a1 a2, Keeps s (cmdEyescanRead a1 a2 x) := by
  intro a1 a2
  unfold cmdEyescanRead
  dsimp only
  apply Keeps.ite
  · apply keeps_refuse
    exact h
  · apply keeps_replyOk
    exact h

theorem keeps_prbsCount {s x : State} (h : Keeps s x) : ∀ a1, Keeps s (prbsCount x a1) := by
  intro a1
  unfold prbsCount
  dsimp only
  apply Keeps.ite
  · exact h
  · apply keeps_State_setLane
    apply keeps_State_fresh
    exact h

theorem keeps_prbsCheckerLock {s x : State} (h : Keeps s x) : ∀ a1, Keeps s (prbsCheckerLock x a1) := by
  intro a1
  unfold prbsCheckerLock
  apply Keeps.ite
  · exact h
  · apply keeps_State_setLane
    exact h

theorem keeps_cmdLaneStatus {s x : State} (h : Keeps s x) : ∀ a1 a2, Keeps s (cmdLaneStatus a1 a2 x) := by
  intro a1 a2
  unfold cmdLaneStatus
  dsimp only
  apply keeps_replyFields
  apply keeps_prbsCount
  exact h

theorem keeps_State_setNi {s x : State} (h : Keeps s x) : ∀ a1 a2, Keeps s (State.setNi x a1 a2) := by
  intro a1 a2
  unfold State.setNi
  refine Keeps.upd rfl rfl rfl rfl rfl rfl rfl ?_
  exact h

theorem keeps_masterReset {s x : State} (h : Keeps s x) : ∀ a1 a2, Keeps s (masterReset x a1 a2) := by
  intro a1 a2
  unfold masterReset
  dsimp only
  apply Keeps.ite
  · apply keeps_State_setNi
    exact h
  · refine Keeps.upd rfl rfl rfl rfl rfl rfl rfl ?_
    apply keeps_State_setNi
    exact h

theorem keeps_inject {s x : State} (h : Keeps s x) : ∀ a1, Keeps s (inject x a1) := by
  intro a1
  unfold inject
  refine Keeps.upd rfl rfl rfl rfl rfl rfl rfl ?_
  exact h

theorem keeps_issue {s x : State} (h : Keeps s x) : ∀ a1 a2 a3 a4 a5 a6 a7 a8 a9, Keeps s (issue x a1 a2 a3 a4 a5 a6 a7 a8 a9) := by
  intro a1 a2 a3 a4 a5 a6 a7 a8 a9
  unfold issue
  dsimp only
  apply keeps_inject
  apply Keeps.ite
  · exact h
  · refine Keeps.upd rfl rfl rfl rfl rfl rfl rfl ?_
    exact h

theorem keeps_post {s x : State} (h : Keeps s x) : ∀ a1 a2 a3, Keeps s (post x a1 a2 a3) := by
  intro a1 a2 a3
  unfold post
  apply keeps_issue
  exact h

theorem keeps_touchDomain {s x : State} (h : Keeps s x) : ∀ a1, Keeps s (touchDomain x a1) := by
  intro a1
  unfold touchDomain
  split
  · refine Keeps.upd rfl rfl rfl rfl rfl rfl rfl ?_
    exact h
  · exact h

theorem keeps_touchNode {s x : State} (h : Keeps s x) : ∀ a1, Keeps s (touchNode x a1) := by
  intro a1
  unfold touchNode
  split
  · apply keeps_touchDomain
    exact h
  · exact h

theorem keeps_arrive {s x : State} (h : Keeps s x) : ∀ a1, Keeps s (arrive x a1) := by
  intro a1
  unfold arrive
  dsimp only
  apply Keeps.ite
  · refine Keeps.upd rfl rfl rfl rfl rfl rfl rfl ?_
    exact h
  · apply keeps_State_setNi
    refine Keeps.upd rfl rfl rfl rfl rfl rfl rfl ?_
    exact h

theorem keeps_respond {s x : State} (h : Keeps s x) : ∀ a1 a2 a3 a4 a5, Keeps s (respond x a1 a2 a3 a4 a5) := by
  intro a1 a2 a3 a4 a5
  unfold respond
  apply Keeps.ite
  · exact h
  · apply keeps_inject
    exact h

theorem keeps_deny {s x : State} (h : Keeps s x) : ∀ a1 a2, Keeps s (deny x a1 a2) := by
  intro a1 a2
  unfold deny
  apply keeps_respond
  exact h

theorem keeps_answerOff {s x : State} (h : Keeps s x) : ∀ a1 a2, Keeps s (answerOff x a1 a2) := by
  intro a1 a2
  unfold answerOff
  dsimp only
  apply keeps_respond
  refine Keeps.upd rfl rfl rfl rfl rfl rfl rfl ?_
  exact h

theorem keeps_State_setBank {s x : State} (h : Keeps s x) : ∀ a1 a2, Keeps s (State.setBank x a1 a2) := by
  intro a1 a2
  unfold State.setBank
  refine Keeps.upd rfl rfl rfl rfl rfl rfl rfl ?_
  exact h

theorem keeps_bankEccEvt {s x : State} (h : Keeps s x) : ∀ a1 a2 a3 a4, Keeps s (bankEccEvt x a1 a2 a3 a4) := by
  intro a1 a2 a3 a4
  unfold bankEccEvt
  apply keeps_raiseLimited
  exact h

theorem keeps_bankFixed {s x : State} (h : Keeps s x) : ∀ a1 a2 a3, Keeps s (bankFixed x a1 a2 a3) := by
  intro a1 a2 a3
  unfold bankFixed
  dsimp only
  apply Keeps.ite
  · apply keeps_bankEccEvt
    apply keeps_State_setBank
    exact h
  · apply keeps_State_setBank
    exact h

theorem keeps_bankCorrected {s x : State} (h : Keeps s x) : ∀ a1 a2 a3, Keeps s (bankCorrected x a1 a2 a3) := by
  intro a1 a2 a3
  unfold bankCorrected
  apply Keeps.foldl
  · exact h
  · intro _ _ k
    apply keeps_bankFixed
    assumption

theorem keeps_bankWaited {s x : State} (h : Keeps s x) : ∀ a1 a2, Keeps s (bankWaited x a1 a2) := by
  intro a1 a2
  unfold bankWaited
  apply Keeps.ite
  · exact h
  · apply keeps_State_setBank
    exact h

theorem keeps_bankMark {s x : State} (h : Keeps s x) : ∀ a1 a2, Keeps s (bankMark x a1 a2) := by
  intro a1 a2
  unfold bankMark
  apply Keeps.ite
  · exact h
  · apply keeps_State_setBank
    exact h

theorem keeps_setBankBytes {s x : State} (h : Keeps s x) : ∀ a1 a2 a3, Keeps s (setBankBytes x a1 a2 a3) := by
  intro a1 a2 a3
  unfold setBankBytes
  split
  · apply keeps_State_setCore
    exact h
  · refine Keeps.upd rfl rfl rfl rfl rfl rfl rfl ?_
    exact h
  · dsimp only
    refine Keeps.upd rfl rfl rfl rfl rfl rfl rfl ?_
    exact h

theorem keeps_bankRead {s x : State} (h : Keeps s x) : ∀ a1 a2 a3 a4 a5 a6, Keeps s (bankRead x a1 a2 a3 a4 a5 a6) := by
  intro a1 a2 a3 a4 a5 a6
  unfold bankRead
  dsimp only
  split
  · apply keeps_respond
    apply keeps_bankMark
    apply keeps_bankCorrected
    apply keeps_bankWaited
    exact h
  · apply keeps_respond
    apply keeps_bankEccEvt
    apply keeps_State_setBank
    apply keeps_bankMark
    apply keeps_bankCorrected
    apply keeps_bankWaited
    exact h

theorem keeps_countCollision {s x : State} (h : Keeps s x) : ∀ a1, Keeps s (countCollision x a1) := by
  intro a1
  unfold countCollision
  apply keeps_State_setBank
  exact h

theorem keeps_bankWrite {s x : State} (h : Keeps s x) : ∀ a1 a2 a3 a4 a5, Keeps s (bankWrite x a1 a2 a3 a4 a5) := by
  intro a1 a2 a3 a4 a5
  unfold bankWrite
  dsimp only
  split
  · apply keeps_respond
    apply keeps_bankEccEvt
    apply keeps_bankMark
    apply keeps_bankWaited
    exact h
  · apply Keeps.ite
    · apply keeps_respond
      apply keeps_countCollision
      apply keeps_setBankBytes
      apply keeps_State_setBank
      apply keeps_bankMark
      apply keeps_bankWaited
      exact h
    · apply keeps_respond
      apply keeps_setBankBytes
      apply keeps_State_setBank
      apply keeps_bankMark
      apply keeps_bankWaited
      exact h

theorem keeps_bankAtomic {s x : State} (h : Keeps s x) : ∀ a1 a2 a3 a4 a5 a6, Keeps s (bankAtomic x a1 a2 a3 a4 a5 a6) := by
  intro a1 a2 a3 a4 a5 a6
  unfold bankAtomic
  dsimp only
  split
  · apply keeps_respond
    apply keeps_bankEccEvt
    apply keeps_bankMark
    apply keeps_bankCorrected
    apply keeps_bankWaited
    exact h
  · apply Keeps.ite
    · apply keeps_respond
      apply keeps_countCollision
      apply keeps_setBankBytes
      apply keeps_bankMark
      apply keeps_bankCorrected
      apply keeps_bankWaited
      exact h
    · apply keeps_respond
      apply keeps_setBankBytes
      apply keeps_bankMark
      apply keeps_bankCorrected
      apply keeps_bankWaited
      exact h

theorem keeps_cancelledEvt {s x : State} (h : Keeps s x) : ∀ a1 a2 a3, Keeps s (cancelledEvt x a1 a2 a3) := by
  intro a1 a2 a3
  unfold cancelledEvt
  apply keeps_raise
  exact h

theorem keeps_safeCommit {s x : State} (h : Keeps s x) : Keeps s (safeCommit x) := by
  unfold safeCommit
  split
  · exact h
  · apply Keeps.ite
    · dsimp only
      apply keeps_reply
      apply keeps_cancelledEvt
      apply keeps_State_endCommit
      exact h
    · refine Keeps.upd rfl rfl rfl rfl rfl rfl rfl ?_
      exact h

theorem keeps_safeSwitch {s x : State} (h : Keeps s x) : Keeps s (safeSwitch x) := by
  unfold safeSwitch
  split
  · apply keeps_reply
    refine Keeps.upd rfl rfl rfl rfl rfl rfl rfl ?_
    exact h
  · exact h

theorem keeps_safePlace {s x : State} (h : Keeps s x) : Keeps s (safePlace x) := by
  unfold safePlace
  split
  · dsimp only
    apply keeps_reply
    refine Keeps.upd rfl rfl rfl rfl rfl rfl rfl ?_
    exact h
  · exact h

theorem keeps_safePower {s x : State} (h : Keeps s x) : Keeps s (safePower x) := by
  unfold safePower
  split
  · apply keeps_reply
    refine Keeps.upd rfl rfl rfl rfl rfl rfl rfl ?_
    exact h
  · exact h

theorem keeps_safePool {s x : State} (h : Keeps s x) : Keeps s (safePool x) := by
  unfold safePool
  dsimp only
  apply Keeps.foldl
  · apply Keeps.foldl
    · refine Keeps.upd rfl rfl rfl rfl rfl rfl rfl ?_
      exact h
    · intro _ _ k
      apply keeps_reply
      assumption
  · intro _ _ k
    apply keeps_reply
    assumption

theorem keeps_safeTests {s x : State} (h : Keeps s x) : Keeps s (safeTests x) := by
  unfold safeTests
  refine Keeps.upd rfl rfl rfl rfl rfl rfl rfl ?_
  exact h

theorem keeps_enterSafe {s x : State} (h : Keeps s x) : ∀ a1 a2, Keeps s (enterSafe x a1 a2) := by
  intro a1 a2
  unfold enterSafe
  apply Keeps.ite
  · exact h
  · dsimp only
    apply keeps_safePool
    apply keeps_safePower
    apply keeps_safePlace
    apply keeps_safeSwitch
    apply keeps_safeCommit
    apply keeps_safeTests
    apply keeps_setDevState
    · apply keeps_raise
      exact h
    · first | assumption | rfl | omega | exact dom_st (by assumption) _ | decide | (split <;> omega) | (exact And.left (by assumption)) | (exact And.right (by assumption))

end Sys2Proof.Machine
end

