-- ==== Sys2Proof/Laws/KeepsMemory.lean ====
section
/-! SUPPORT. What the operations of Machine/ExtMem.lean, Machine/Dma.lean keep. -/

set_option linter.unusedTactic false
set_option linter.unreachableTactic false
set_option linter.unusedVariables false

namespace Sys2Proof.Machine

theorem keeps_State_setRegion {s x : State} (h : Keeps s x) : ∀ a1 a2, Keeps s (State.setRegion x a1 a2) := by
  intro a1 a2
  unfold State.setRegion
  refine Keeps.upd rfl rfl rfl rfl rfl rfl rfl ?_
  exact h

theorem keeps_countDenied {s x : State} (h : Keeps s x) : ∀ a1, Keeps s (countDenied x a1) := by
  intro a1
  unfold countDenied
  split
  · apply Keeps.ite
    · apply keeps_State_setRegion
      exact h
    · exact h
  · exact h

theorem keeps_setCtrCache {s x : State} (h : Keeps s x) : ∀ a1 a2, Keeps s (setCtrCache x a1 a2) := by
  intro a1 a2
  unfold setCtrCache
  apply Keeps.ite
  · refine Keeps.upd rfl rfl rfl rfl rfl rfl rfl ?_
    exact h
  · refine Keeps.upd rfl rfl rfl rfl rfl rfl rfl ?_
    exact h

theorem keeps_bumpParent {s x : State} (h : Keeps s x) : ∀ a1, Keeps s (bumpParent x a1).1 := by
  intro a1
  unfold bumpParent
  dsimp only
  refine Keeps.upd rfl rfl rfl rfl rfl rfl rfl ?_
  exact h

theorem keeps_ctrTouch (n : Nat) {s x : State} (h : Keeps s x) : ∀ a2 a3 a4, Keeps s (ctrTouch n x a2 a3 a4) := by
  induction n generalizing x with
  | zero => exact fun _ _ _ => h
  | succ n ih =>
    intro a2 a3 a4
    unfold ctrTouch
    dsimp only
    split
    · exact keeps_setCtrCache h _ _
    · split
      · split
        · split
          · exact keeps_bumpParent (keeps_setCtrCache h _ _) _
          · exact ih (keeps_bumpParent (keeps_setCtrCache h _ _) _) _ _ _
        · exact keeps_setCtrCache h _ _
      · exact keeps_setCtrCache h _ _

theorem keeps_ctrUse {s x : State} (h : Keeps s x) : ∀ a1 a2 a3 a4, Keeps s (ctrUse x a1 a2 a3 a4) := by
  intro a1 a2 a3 a4
  unfold ctrUse
  dsimp only
  apply Keeps.foldl
  · apply keeps_ctrTouch
    apply Keeps.foldl
    · exact h
    · intro _ _ k
      apply keeps_ctrTouch
      assumption
  · intro _ _ k
    apply keeps_ctrTouch
    assumption

theorem keeps_modChan {s x : State} (h : Keeps s x) : ∀ a1 a2, Keeps s (modChan x a1 a2) := by
  intro a1 a2
  unfold modChan
  refine Keeps.upd rfl rfl rfl rfl rfl rfl rfl ?_
  exact h

theorem keeps_memCorrected {s x : State} (h : Keeps s x) : ∀ a1 a2 a3, Keeps s (memCorrected x a1 a2 a3) := by
  intro a1 a2 a3
  unfold memCorrected
  dsimp only
  apply keeps_raiseLimited
  apply keeps_modChan
  exact h

theorem keeps_memUncorrectable {s x : State} (h : Keeps s x) : ∀ a1 a2 a3, Keeps s (memUncorrectable x a1 a2 a3) := by
  intro a1 a2 a3
  unfold memUncorrectable
  dsimp only
  apply keeps_raiseLimited
  apply keeps_modChan
  exact h

theorem keeps_metadataCorrected {s x : State} (h : Keeps s x) : ∀ a1 a2 a3 a4, Keeps s (metadataCorrected x a1 a2 a3 a4) := by
  intro a1 a2 a3 a4
  unfold metadataCorrected
  apply keeps_raiseLimited
  exact h

theorem keeps_metaPage {s x : State} (h : Keeps s x) : ∀ a1 a2, Keeps s (metaPage x a1 a2).2 := by
  intro a1 a2
  unfold metaPage
  dsimp only
  refine Keeps.upd rfl rfl rfl rfl rfl rfl rfl ?_
  exact h

theorem keeps_metaFixed {s x : State} (h : Keeps s x) : ∀ a1 a2 a3, Keeps s (metaFixed x a1 a2 a3) := by
  intro a1 a2 a3
  unfold metaFixed
  dsimp only
  apply keeps_metadataCorrected
  apply keeps_metaPage
  exact h

theorem keeps_metaLost {s x : State} (h : Keeps s x) : ∀ a1 a2 a3, Keeps s (metaLost x a1 a2 a3) := by
  intro a1 a2 a3
  unfold metaLost
  dsimp only
  apply keeps_memUncorrectable
  apply keeps_metaPage
  exact h

theorem keeps_tamper {s x : State} (h : Keeps s x) : ∀ a1 a2 a3 a4 a5, Keeps s (tamper x a1 a2 a3 a4 a5) := by
  intro a1 a2 a3 a4 a5
  unfold tamper
  dsimp only
  apply Keeps.ite
  · apply keeps_enterSafe
    apply keeps_raiseLimited
    apply keeps_State_setRegion
    exact h
  · apply keeps_raiseLimited
    apply keeps_State_setRegion
    exact h

theorem keeps_poisonRead {s x : State} (h : Keeps s x) : ∀ a1, Keeps s (poisonRead x a1) := by
  intro a1
  unfold poisonRead
  apply keeps_modChan
  exact h

theorem keeps_arenaCorrected {s x : State} (h : Keeps s x) : ∀ a1, Keeps s (arenaCorrected x a1) := by
  intro a1
  unfold arenaCorrected
  dsimp only
  apply keeps_metadataCorrected
  apply keeps_State_fresh
  exact h

theorem keeps_decodeReport {s x : State} (h : Keeps s x) : ∀ a1 a2 a3 a4, Keeps s (decodeReport x a1 a2 a3 a4) := by
  intro a1 a2 a3 a4
  unfold decodeReport
  split
  · exact h
  · apply Keeps.ite
    · apply keeps_arenaCorrected
      exact h
    · apply keeps_memCorrected
      exact h
  · apply keeps_memUncorrectable
    exact h

theorem keeps_setCache {s x : State} (h : Keeps s x) : ∀ a1 a2, Keeps s (setCache x a1 a2) := by
  intro a1 a2
  unfold setCache
  apply Keeps.ite
  · refine Keeps.upd rfl rfl rfl rfl rfl rfl rfl ?_
    exact h
  · refine Keeps.upd rfl rfl rfl rfl rfl rfl rfl ?_
    exact h

theorem keeps_poisonLines {s x : State} (h : Keeps s x) : ∀ a1, Keeps s (poisonLines x a1) := by
  intro a1
  unfold poisonLines
  refine Keeps.upd rfl rfl rfl rfl rfl rfl rfl ?_
  exact h

theorem keeps_unpoisonLines {s x : State} (h : Keeps s x) : ∀ a1, Keeps s (unpoisonLines x a1) := by
  intro a1
  unfold unpoisonLines
  refine Keeps.upd rfl rfl rfl rfl rfl rfl rfl ?_
  exact h

theorem keeps_clearFailed {s x : State} (h : Keeps s x) : ∀ a1, Keeps s (clearFailed x a1) := by
  intro a1
  unfold clearFailed
  refine Keeps.upd rfl rfl rfl rfl rfl rfl rfl ?_
  exact h

theorem keeps_writeWholePage {s x : State} (h : Keeps s x) : ∀ a1 a2 a3, Keeps s (writeWholePage x a1 a2 a3) := by
  intro a1 a2 a3
  unfold writeWholePage
  dsimp only
  apply keeps_ctrUse
  apply Keeps.ite
  · apply keeps_clearFailed
    apply keeps_unpoisonLines
    refine Keeps.upd rfl rfl rfl rfl rfl rfl rfl ?_
    exact h
  · apply keeps_poisonLines
    apply keeps_clearFailed
    apply keeps_unpoisonLines
    refine Keeps.upd rfl rfl rfl rfl rfl rfl rfl ?_
    exact h

theorem keeps_protWriteBack {s x : State} (h : Keeps s x) : ∀ a1 a2 a3, Keeps s (protWriteBack x a1 a2 a3) := by
  intro a1 a2 a3
  unfold protWriteBack
  dsimp only
  apply Keeps.ite
  · apply keeps_writeWholePage
    apply keeps_decodeReport
    apply Keeps.ite
    · apply keeps_tamper
      exact h
    · exact h
  · apply Keeps.ite
    · apply keeps_writeWholePage
      apply keeps_decodeReport
      apply Keeps.ite
      · apply keeps_tamper
        exact h
      · exact h
    · apply keeps_ctrUse
      apply Keeps.ite
      · apply keeps_clearFailed
        apply keeps_unpoisonLines
        refine Keeps.upd rfl rfl rfl rfl rfl rfl rfl ?_
        apply keeps_decodeReport
        apply Keeps.ite
        · apply keeps_tamper
          exact h
        · exact h
      · apply keeps_poisonLines
        apply keeps_clearFailed
        apply keeps_unpoisonLines
        refine Keeps.upd rfl rfl rfl rfl rfl rfl rfl ?_
        apply keeps_decodeReport
        apply Keeps.ite
        · apply keeps_tamper
          exact h
        · exact h

theorem keeps_writeBack {s x : State} (h : Keeps s x) : ∀ a1 a2, Keeps s (writeBack x a1 a2) := by
  intro a1 a2
  unfold writeBack
  apply Keeps.ite
  · exact h
  · split
    · apply keeps_protWriteBack
      exact h
    · dsimp only
      apply Keeps.ite
      · apply keeps_unpoisonLines
        exact h
      · split
        · apply keeps_unpoisonLines
          exact h
        · apply keeps_memCorrected
          apply keeps_unpoisonLines
          exact h
        · apply keeps_memUncorrectable
          apply keeps_poisonLines
          apply keeps_unpoisonLines
          exact h

theorem keeps_cachePut {s x : State} (h : Keeps s x) : ∀ a1 a2 a3 a4, Keeps s (cachePut x a1 a2 a3 a4) := by
  intro a1 a2 a3 a4
  unfold cachePut
  dsimp only
  split
  · apply keeps_setCache
    exact h
  · apply Keeps.ite
    · apply keeps_setCache
      exact h
    · split
      · apply keeps_writeBack
        apply keeps_setCache
        exact h
      · apply keeps_setCache
        exact h

theorem keeps_cacheUse {s x : State} (h : Keeps s x) : ∀ a1, Keeps s (cacheUse x a1) := by
  intro a1
  unfold cacheUse
  dsimp only
  split
  · apply keeps_setCache
    exact h
  · exact h

theorem keeps_cleanPage {s x : State} (h : Keeps s x) : ∀ a1, Keeps s (cleanPage x a1) := by
  intro a1
  unfold cleanPage
  split
  · apply Keeps.ite
    · exact h
    · dsimp only
      apply keeps_writeBack
      apply keeps_setCache
      exact h
  · exact h

theorem keeps_dropPages {s x : State} (h : Keeps s x) : ∀ a1, Keeps s (dropPages x a1) := by
  intro a1
  unfold dropPages
  refine Keeps.upd rfl rfl rfl rfl rfl rfl rfl ?_
  exact h

theorem keeps_flushTile {s x : State} (h : Keeps s x) : ∀ a1, Keeps s (flushTile x a1) := by
  intro a1
  unfold flushTile
  dsimp only
  apply Keeps.foldl
  · apply Keeps.foldl
    · exact h
    · intro _ _ k
      apply keeps_cleanPage
      assumption
  · intro _ _ k
    apply Keeps.foldl
    · assumption
    · intro _ _ k
      apply Keeps.ite
      · apply keeps_setCtrCache
        apply keeps_bumpParent
        assumption
      · apply keeps_ctrTouch
        apply keeps_setCtrCache
        apply keeps_bumpParent
        assumption

theorem keeps_mirrorMark {s x : State} (h : Keeps s x) : ∀ a1, Keeps s (mirrorMark x a1) := by
  intro a1
  unfold mirrorMark
  apply Keeps.ite
  · refine Keeps.upd rfl rfl rfl rfl rfl rfl rfl ?_
    exact h
  · exact h

theorem keeps_extPutD {s x : State} (h : Keeps s x) : ∀ a1 a2 a3, Keeps s (extPutD x a1 a2 a3) := by
  intro a1 a2 a3
  unfold extPutD
  dsimp only
  apply Keeps.foldl
  · refine Keeps.upd rfl rfl rfl rfl rfl rfl rfl ?_
    exact h
  · intro _ _ k
    apply Keeps.ite
    · assumption
    · apply keeps_mirrorMark
      apply keeps_cachePut
      assumption

theorem keeps_extPut {s x : State} (h : Keeps s x) : ∀ a1 a2, Keeps s (extPut x a1 a2) := by
  intro a1 a2
  unfold extPut
  apply keeps_extPutD
  exact h

theorem keeps_extWriteD {s x : State} (h : Keeps s x) : ∀ a1 a2 a3 t, extWriteD x a1 a2 a3 = some t → Keeps s t := by
  intro a1 a2 a3 t e
  unfold extWriteD at e
  split at e
  · cases e
  · split at e
    · split at e
      · exact Option.some.inj e ▸ keeps_extPutD h _ _ _
      · cases e
    · cases e

theorem keeps_extWrite {s x : State} (h : Keeps s x) : ∀ a1 a2 t, extWrite x a1 a2 = some t → Keeps s t :=
  fun _ _ t e => keeps_extWriteD h _ _ _ t e

theorem keeps_rawTaken {s x : State} (h : Keeps s x) : ∀ a1 a2, Keeps s (rawTaken x a1 a2) := by
  intro a1 a2
  unfold rawTaken
  apply Keeps.ite
  · refine Keeps.upd rfl rfl rfl rfl rfl rfl rfl ?_
    exact h
  · exact h

theorem keeps_respondPoison {s x : State} (h : Keeps s x) : ∀ a1 a2, Keeps s (respondPoison x a1 a2) := by
  intro a1 a2
  unfold respondPoison
  apply keeps_respond
  apply keeps_poisonRead
  exact h

theorem keeps_readServe {s x : State} (h : Keeps s x) : ∀ a1 a2 a3 t, readServe x a1 a2 a3 = some t → Keeps s t := by
  intro a1 a2 a3 t e
  unfold readServe at e
  split at e
  · replace e := of_ite_none e
    split at e
    · exact Option.some.inj e ▸ keeps_respond (keeps_cacheUse h _) _ _ _ _ _
    · cases e
  · exact Option.some.inj e ▸ keeps_deny (keeps_countDenied h _) _ _

theorem keeps_memCommit {s x : State} (h : Keeps s x) : ∀ a1 a2 a3 a4, Keeps s (memCommit x a1 a2 a3 a4) := by
  intro a1 a2 a3 a4
  unfold memCommit
  dsimp only
  apply keeps_respond
  apply keeps_mirrorMark
  apply keeps_cachePut
  refine Keeps.upd rfl rfl rfl rfl rfl rfl rfl ?_
  exact h

theorem keeps_writeServe {s x : State} (h : Keeps s x) : ∀ a1 a2 a3 a4 t, writeServe x a1 a2 a3 a4 = some t → Keeps s t := by
  intro a1 a2 a3 a4 t e
  unfold writeServe at e
  dsimp only at e
  repeat' split at e
  all_goals first
    | exact Option.some.inj e ▸ keeps_memCommit h _ _ _ _
    | exact Option.some.inj e ▸ keeps_deny h _ _
    | exact Option.some.inj e ▸ keeps_deny (keeps_countDenied h _) _ _
    | cases e

theorem keeps_memServe {s x : State} (h : Keeps s x) : ∀ a1 a2 a3 a4 t, memServe x a1 a2 a3 a4 = some t → Keeps s t := by
  intro a1 a2 a3 a4 t e
  unfold memServe at e
  split at e
  · exact keeps_writeServe h _ _ _ _ _ e
  · exact keeps_readServe h _ _ _ _ e

theorem keeps_memWait {s x : State} (h : Keeps s x) : ∀ a1 a2, Keeps s (memWait x a1 a2) := by
  intro a1 a2
  unfold memWait
  refine Keeps.upd rfl rfl rfl rfl rfl rfl rfl ?_
  exact h

theorem keeps_memRequest {s x : State} (h : Keeps s x) : ∀ a1 a2 a3 a4, Keeps s (memRequest x a1 a2 a3 a4) := by
  intro a1 a2 a3 a4
  unfold memRequest
  apply Keeps.ite
  · exact keeps_memWait h _ _
  · split
    · rename_i e
      exact keeps_memServe h _ _ _ _ _ e
    · exact keeps_memWait (Keeps.ite (keeps_cleanPage h _) h) _ _

theorem keeps_protCheck {s x : State} (h : Keeps s x) : ∀ a1 a2 a3 a4, Keeps s (protCheck x a1 a2 a3 a4).1 := by
  intro a1 a2 a3 a4
  unfold protCheck
  dsimp only
  apply Keeps.ite_fst
  · dsimp only
    exact h
  · apply Keeps.ite_fst
    · dsimp only
      split
      · dsimp only
        exact h
      · dsimp only
        apply keeps_metaFixed
        exact h
      · dsimp only
        refine Keeps.upd rfl rfl rfl rfl rfl rfl rfl ?_
        apply keeps_tamper
        exact h
      · dsimp only
        refine Keeps.upd rfl rfl rfl rfl rfl rfl rfl ?_
        apply keeps_tamper
        exact h
      · dsimp only
        refine Keeps.upd rfl rfl rfl rfl rfl rfl rfl ?_
        apply keeps_metaLost
        exact h
    · apply Keeps.ite_fst
      · dsimp only
        apply keeps_tamper
        split
        · dsimp only
          exact h
        · dsimp only
          apply keeps_metaFixed
          exact h
        · dsimp only
          refine Keeps.upd rfl rfl rfl rfl rfl rfl rfl ?_
          apply keeps_tamper
          exact h
        · dsimp only
          refine Keeps.upd rfl rfl rfl rfl rfl rfl rfl ?_
          apply keeps_tamper
          exact h
        · dsimp only
          refine Keeps.upd rfl rfl rfl rfl rfl rfl rfl ?_
          apply keeps_metaLost
          exact h
      · apply Keeps.ite_fst
        · dsimp only
          split
          · dsimp only
            exact h
          · dsimp only
            apply keeps_metaFixed
            exact h
          · dsimp only
            refine Keeps.upd rfl rfl rfl rfl rfl rfl rfl ?_
            apply keeps_tamper
            exact h
          · dsimp only
            refine Keeps.upd rfl rfl rfl rfl rfl rfl rfl ?_
            apply keeps_tamper
            exact h
          · dsimp only
            refine Keeps.upd rfl rfl rfl rfl rfl rfl rfl ?_
            apply keeps_metaLost
            exact h
        · apply Keeps.ite_fst
          · dsimp only
            apply keeps_ctrUse
            split
            · dsimp only
              exact h
            · dsimp only
              apply keeps_metaFixed
              exact h
            · dsimp only
              refine Keeps.upd rfl rfl rfl rfl rfl rfl rfl ?_
              apply keeps_tamper
              exact h
            · dsimp only
              refine Keeps.upd rfl rfl rfl rfl rfl rfl rfl ?_
              apply keeps_tamper
              exact h
            · dsimp only
              refine Keeps.upd rfl rfl rfl rfl rfl rfl rfl ?_
              apply keeps_metaLost
              exact h
          · split
            · dsimp only
              apply keeps_tamper
              split
              · dsimp only
                exact h
              · dsimp only
                apply keeps_metaFixed
                exact h
              · dsimp only
                refine Keeps.upd rfl rfl rfl rfl rfl rfl rfl ?_
                apply keeps_tamper
                exact h
              · dsimp only
                refine Keeps.upd rfl rfl rfl rfl rfl rfl rfl ?_
                apply keeps_tamper
                exact h
              · dsimp only
                refine Keeps.upd rfl rfl rfl rfl rfl rfl rfl ?_
                apply keeps_metaLost
                exact h
            · dsimp only
              apply keeps_memUncorrectable
              split
              · dsimp only
                exact h
              · dsimp only
                apply keeps_metaFixed
                exact h
              · dsimp only
                refine Keeps.upd rfl rfl rfl rfl rfl rfl rfl ?_
                apply keeps_tamper
                exact h
              · dsimp only
                refine Keeps.upd rfl rfl rfl rfl rfl rfl rfl ?_
                apply keeps_tamper
                exact h
              · dsimp only
                refine Keeps.upd rfl rfl rfl rfl rfl rfl rfl ?_
                apply keeps_metaLost
                exact h
            · apply Keeps.ite_fst
              · dsimp only
                apply keeps_ctrUse
                split
                · apply keeps_memCorrected
                  split
                  · apply keeps_metaFixed
                    split
                    · dsimp only
                      exact h
                    · dsimp only
                      apply keeps_metaFixed
                      exact h
                    · dsimp only
                      refine Keeps.upd rfl rfl rfl rfl rfl rfl rfl ?_
                      apply keeps_tamper
                      exact h
                    · dsimp only
                      refine Keeps.upd rfl rfl rfl rfl rfl rfl rfl ?_
                      apply keeps_tamper
                      exact h
                    · dsimp only
                      refine Keeps.upd rfl rfl rfl rfl rfl rfl rfl ?_
                      apply keeps_metaLost
                      exact h
                  · split
                    · dsimp only
                      exact h
                    · dsimp only
                      apply keeps_metaFixed
                      exact h
                    · dsimp only
                      refine Keeps.upd rfl rfl rfl rfl rfl rfl rfl ?_
                      apply keeps_tamper
                      exact h
                    · dsimp only
                      refine Keeps.upd rfl rfl rfl rfl rfl rfl rfl ?_
                      apply keeps_tamper
                      exact h
                    · dsimp only
                      refine Keeps.upd rfl rfl rfl rfl rfl rfl rfl ?_
                      apply keeps_metaLost
                      exact h
                · split
                  · apply keeps_metaFixed
                    split
                    · dsimp only
                      exact h
                    · dsimp only
                      apply keeps_metaFixed
                      exact h
                    · dsimp only
                      refine Keeps.upd rfl rfl rfl rfl rfl rfl rfl ?_
                      apply keeps_tamper
                      exact h
                    · dsimp only
                      refine Keeps.upd rfl rfl rfl rfl rfl rfl rfl ?_
                      apply keeps_tamper
                      exact h
                    · dsimp only
                      refine Keeps.upd rfl rfl rfl rfl rfl rfl rfl ?_
                      apply keeps_metaLost
                      exact h
                  · split
                    · dsimp only
                      exact h
                    · dsimp only
                      apply keeps_metaFixed
                      exact h
                    · dsimp only
                      refine Keeps.upd rfl rfl rfl rfl rfl rfl rfl ?_
                      apply keeps_tamper
                      exact h
                    · dsimp only
                      refine Keeps.upd rfl rfl rfl rfl rfl rfl rfl ?_
                      apply keeps_tamper
                      exact h
                    · dsimp only
                      refine Keeps.upd rfl rfl rfl rfl rfl rfl rfl ?_
                      apply keeps_metaLost
                      exact h
              · apply Keeps.ite_fst
                · dsimp only
                  apply keeps_memUncorrectable
                  split
                  · dsimp only
                    exact h
                  · dsimp only
                    apply keeps_metaFixed
                    exact h
                  · dsimp only
                    refine Keeps.upd rfl rfl rfl rfl rfl rfl rfl ?_
                    apply keeps_tamper
                    exact h
                  · dsimp only
                    refine Keeps.upd rfl rfl rfl rfl rfl rfl rfl ?_
                    apply keeps_tamper
                    exact h
                  · dsimp only
                    refine Keeps.upd rfl rfl rfl rfl rfl rfl rfl ?_
                    apply keeps_metaLost
                    exact h
                · apply Keeps.ite_fst
                  · dsimp only
                    apply keeps_metaLost
                    split
                    · dsimp only
                      exact h
                    · dsimp only
                      apply keeps_metaFixed
                      exact h
                    · dsimp only
                      refine Keeps.upd rfl rfl rfl rfl rfl rfl rfl ?_
                      apply keeps_tamper
                      exact h
                    · dsimp only
                      refine Keeps.upd rfl rfl rfl rfl rfl rfl rfl ?_
                      apply keeps_tamper
                      exact h
                    · dsimp only
                      refine Keeps.upd rfl rfl rfl rfl rfl rfl rfl ?_
                      apply keeps_metaLost
                      exact h
                  · dsimp only
                    apply keeps_tamper
                    split
                    · dsimp only
                      exact h
                    · dsimp only
                      apply keeps_metaFixed
                      exact h
                    · dsimp only
                      refine Keeps.upd rfl rfl rfl rfl rfl rfl rfl ?_
                      apply keeps_tamper
                      exact h
                    · dsimp only
                      refine Keeps.upd rfl rfl rfl rfl rfl rfl rfl ?_
                      apply keeps_tamper
                      exact h
                    · dsimp only
                      refine Keeps.upd rfl rfl rfl rfl rfl rfl rfl ?_
                      apply keeps_metaLost
                      exact h

theorem keeps_dramRaw {s x : State} (h : Keeps s x) : ∀ a1 a2 a3 a4, Keeps s (dramRaw x a1 a2 a3 a4) := by
  intro a1 a2 a3 a4
  unfold dramRaw
  split
  · apply keeps_respondPoison
    apply keeps_memUncorrectable
    exact h
  · dsimp only
    apply Keeps.ite
    · apply keeps_respondPoison
      apply keeps_decodeReport
      exact h
    · apply keeps_respond
      apply keeps_decodeReport
      exact h

theorem keeps_dramProtected {s x : State} (h : Keeps s x) : ∀ a1 a2 a3 a4 a5, Keeps s (dramProtected x a1 a2 a3 a4 a5) := by
  intro a1 a2 a3 a4 a5
  unfold dramProtected
  dsimp only
  apply Keeps.ite
  · apply Keeps.ite
    · apply keeps_memCommit
      apply keeps_protCheck
      exact h
    · apply keeps_deny
      apply keeps_protCheck
      exact h
  · apply Keeps.ite
    · apply keeps_respond
      apply keeps_protCheck
      exact h
    · apply keeps_respondPoison
      apply keeps_protCheck
      exact h

theorem keeps_dramPlain {s x : State} (h : Keeps s x) : ∀ a1 a2 a3 a4 a5, Keeps s (dramPlain x a1 a2 a3 a4 a5) := by
  intro a1 a2 a3 a4 a5
  unfold dramPlain
  dsimp only
  split
  · apply Keeps.ite
    · apply keeps_deny
      apply keeps_memUncorrectable
      exact h
    · apply keeps_respondPoison
      apply keeps_memUncorrectable
      exact h
  · apply Keeps.ite
    · apply Keeps.ite
      · apply keeps_deny
        apply keeps_decodeReport
        exact h
      · apply keeps_memCommit
        apply Keeps.ite
        · apply keeps_decodeReport
          exact h
        · apply keeps_cachePut
          apply keeps_decodeReport
          exact h
    · apply Keeps.ite
      · apply keeps_respondPoison
        apply keeps_decodeReport
        exact h
      · apply keeps_respond
        apply Keeps.ite
        · apply keeps_rawTaken
          apply Keeps.ite
          · apply keeps_decodeReport
            exact h
          · apply keeps_cachePut
            apply keeps_decodeReport
            exact h
        · apply Keeps.ite
          · apply keeps_decodeReport
            exact h
          · apply keeps_cachePut
            apply keeps_decodeReport
            exact h

theorem keeps_dramAnswer {s x : State} (h : Keeps s x) : ∀ a1 a2, Keeps s (dramAnswer x a1 a2) := by
  intro a1 a2
  unfold dramAnswer
  dsimp only
  apply Keeps.ite
  · apply keeps_deny
    apply keeps_countDenied
    refine Keeps.upd rfl rfl rfl rfl rfl rfl rfl ?_
    exact h
  · split
    · apply Keeps.ite
      · apply keeps_dramRaw
        apply keeps_cleanPage
        refine Keeps.upd rfl rfl rfl rfl rfl rfl rfl ?_
        exact h
      · apply keeps_dramProtected
        refine Keeps.upd rfl rfl rfl rfl rfl rfl rfl ?_
        exact h
    · apply keeps_dramPlain
      refine Keeps.upd rfl rfl rfl rfl rfl rfl rfl ?_
      exact h

theorem keeps_drainPage (n : Nat) {s x : State} (h : Keeps s x) : ∀ p, Keeps s (drainPage n x p) := by
  induction n generalizing x with
  | zero => exact fun _ => h
  | succ n ih =>
    intro p
    unfold drainPage
    split
    · exact h
    · split
      · exact h
      · rename_i e
        exact ih (Keeps.upd rfl rfl rfl rfl rfl rfl rfl (keeps_memServe h _ _ _ _ _ e)) _

theorem keeps_dramComplete {s x : State} (h : Keeps s x) : ∀ a1 a2 a3, Keeps s (dramComplete x a1 a2 a3) := by
  intro a1 a2 a3
  unfold dramComplete
  split
  · exact h
  · dsimp only
    apply Keeps.ite
    · exact h
    · apply keeps_drainPage
      apply keeps_dramAnswer
      exact h

theorem keeps_regionReady {s x : State} (h : Keeps s x) : ∀ a1 a2 a3, Keeps s (regionReady x a1 a2 a3) := by
  intro a1 a2 a3
  unfold regionReady
  apply keeps_raise
  exact h

theorem keeps_cmdRegionCreate {s x : State} (h : Keeps s x) : ∀ a1 a2, Keeps s (cmdRegionCreate a1 a2 x) := by
  intro a1 a2
  unfold cmdRegionCreate
  dsimp only
  apply Keeps.ite
  · apply keeps_refuse
    exact h
  · apply Keeps.ite
    · apply keeps_refuse
      exact h
    · apply Keeps.ite
      · apply keeps_refuse
        exact h
      · apply Keeps.ite
        · apply keeps_refuse
          exact h
        · apply Keeps.ite
          · apply keeps_refuse
            exact h
          · apply Keeps.ite
            · apply keeps_refuse
              exact h
            · split
              · apply keeps_refuse
                exact h
              · apply Keeps.ite
                · apply keeps_refuse
                  exact h
                · apply keeps_replyOk
                  refine Keeps.upd rfl rfl rfl rfl rfl rfl rfl ?_
                  split
                  · apply keeps_State_fresh
                    exact h
                  · dsimp only
                    exact h

theorem keeps_regionInitComplete {s x : State} (h : Keeps s x) : ∀ a1, Keeps s (regionInitComplete x a1) := by
  intro a1
  unfold regionInitComplete
  dsimp only
  apply Keeps.ite
  · exact h
  · apply keeps_regionReady
    apply keeps_State_setRegion
    refine Keeps.upd rfl rfl rfl rfl rfl rfl rfl ?_
    apply keeps_dropPages
    exact h

theorem keeps_cmdRegionDelete {s x : State} (h : Keeps s x) : ∀ a1, Keeps s (cmdRegionDelete a1 x) := by
  intro a1
  unfold cmdRegionDelete
  dsimp only
  apply Keeps.ite
  · apply keeps_refuse
    exact h
  · apply Keeps.ite
    · apply keeps_refuse
      exact h
    · apply Keeps.ite
      · apply keeps_refuse
        exact h
      · apply keeps_replyOk
        apply keeps_regionReady
        refine Keeps.upd rfl rfl rfl rfl rfl rfl rfl ?_
        apply keeps_dropPages
        apply Keeps.foldl
        · exact h
        · intro _ _ k
          apply keeps_cleanPage
          assumption

theorem keeps_cmdMemStatus {s x : State} (h : Keeps s x) : ∀ a1, Keeps s (cmdMemStatus a1 x) := by
  intro a1
  unfold cmdMemStatus
  dsimp only
  apply keeps_replyOk
  exact h

theorem keeps_cmdRekey {s x : State} (h : Keeps s x) : ∀ a1, Keeps s (cmdRekey a1 x) := by
  intro a1
  unfold cmdRekey
  dsimp only
  apply Keeps.ite
  · apply keeps_refuse
    exact h
  · apply Keeps.ite
    · apply keeps_refuse
      exact h
    · apply keeps_replyOk
      apply keeps_State_setRegion
      apply keeps_State_fresh
      exact h

theorem keeps_rekeySweepPage {s x : State} (h : Keeps s x) : ∀ a1 a2 a3, Keeps s (rekeySweepPage x a1 a2 a3) := by
  intro a1 a2 a3
  unfold rekeySweepPage
  dsimp only
  split
  · exact h
  · apply Keeps.ite
    · exact h
    · apply Keeps.ite
      · apply keeps_State_setRegion
        apply keeps_ctrUse
        apply Keeps.ite
        · apply keeps_clearFailed
          apply keeps_unpoisonLines
          refine Keeps.upd rfl rfl rfl rfl rfl rfl rfl ?_
          split
          · apply keeps_memUncorrectable
            exact h
          · split
            · apply keeps_memCorrected
              exact h
            · apply keeps_tamper
              apply keeps_memCorrected
              exact h
          · split
            · exact h
            · apply keeps_tamper
              exact h
        · apply keeps_poisonLines
          apply keeps_clearFailed
          apply keeps_unpoisonLines
          refine Keeps.upd rfl rfl rfl rfl rfl rfl rfl ?_
          split
          · apply keeps_memUncorrectable
            exact h
          · split
            · apply keeps_memCorrected
              exact h
            · apply keeps_tamper
              apply keeps_memCorrected
              exact h
          · split
            · exact h
            · apply keeps_tamper
              exact h
      · apply keeps_raise
        apply keeps_State_setRegion
        apply keeps_ctrUse
        apply Keeps.ite
        · apply keeps_clearFailed
          apply keeps_unpoisonLines
          refine Keeps.upd rfl rfl rfl rfl rfl rfl rfl ?_
          split
          · apply keeps_memUncorrectable
            exact h
          · split
            · apply keeps_memCorrected
              exact h
            · apply keeps_tamper
              apply keeps_memCorrected
              exact h
          · split
            · exact h
            · apply keeps_tamper
              exact h
        · apply keeps_poisonLines
          apply keeps_clearFailed
          apply keeps_unpoisonLines
          refine Keeps.upd rfl rfl rfl rfl rfl rfl rfl ?_
          split
          · apply keeps_memUncorrectable
            exact h
          · split
            · apply keeps_memCorrected
              exact h
            · apply keeps_tamper
              apply keeps_memCorrected
              exact h
          · split
            · exact h
            · apply keeps_tamper
              exact h

theorem keeps_scrubPage {s x : State} (h : Keeps s x) : ∀ a1, Keeps s (scrubPage x a1) := by
  intro a1
  unfold scrubPage
  split
  · exact h
  · apply Keeps.ite
    · exact h
    · dsimp only
      split
      · refine Keeps.upd rfl rfl rfl rfl rfl rfl rfl ?_
        apply Keeps.ite
        · exact h
        · split
          · exact h
          · refine Keeps.upd rfl rfl rfl rfl rfl rfl rfl ?_
            apply keeps_decodeReport
            exact h
          · refine Keeps.upd rfl rfl rfl rfl rfl rfl rfl ?_
            apply keeps_decodeReport
            exact h
      · apply keeps_raise
        refine Keeps.upd rfl rfl rfl rfl rfl rfl rfl ?_
        apply Keeps.ite
        · exact h
        · split
          · exact h
          · refine Keeps.upd rfl rfl rfl rfl rfl rfl rfl ?_
            apply keeps_decodeReport
            exact h
          · refine Keeps.upd rfl rfl rfl rfl rfl rfl rfl ?_
            apply keeps_decodeReport
            exact h

theorem keeps_temperaturePoll {s x : State} (h : Keeps s x) : ∀ a1 a2, Keeps s (temperaturePoll x a1 a2) := by
  intro a1 a2
  unfold temperaturePoll
  apply Keeps.ite
  · exact h
  · apply keeps_modChan
    exact h

theorem keeps_State_setChan {s x : State} (h : Keeps s x) : ∀ a1 a2, Keeps s (State.setChan x a1 a2) := by
  intro a1 a2
  unfold State.setChan
  refine Keeps.upd rfl rfl rfl rfl rfl rfl rfl ?_
  exact h

theorem keeps_State_setEngine {s x : State} (h : Keeps s x) : ∀ a1 a2, Keeps s (State.setEngine x a1 a2) := by
  intro a1 a2
  unfold State.setEngine
  refine Keeps.upd rfl rfl rfl rfl rfl rfl rfl ?_
  exact h

theorem keeps_finishStop {s x : State} (h : Keeps s x) : ∀ a1, Keeps s (finishStop x a1) := by
  intro a1
  unfold finishStop
  dsimp only
  apply Keeps.ite
  · apply keeps_State_setChan
    exact h
  · exact h

theorem keeps_chanFail {s x : State} (h : Keeps s x) : ∀ a1 a2 a3, Keeps s (chanFail x a1 a2 a3) := by
  intro a1 a2 a3
  unfold chanFail
  dsimp only
  apply keeps_finishStop
  apply keeps_raise
  apply keeps_State_setChan
  exact h

theorem keeps_chanStart {s x : State} (h : Keeps s x) : ∀ a1 a2, Keeps s (chanStart x a1 a2) := by
  intro a1 a2
  unfold chanStart
  dsimp only
  apply Keeps.ite
  · apply keeps_chanFail
    apply keeps_State_setChan
    exact h
  · apply keeps_State_setChan
    exact h

theorem keeps_chanStop {s x : State} (h : Keeps s x) : ∀ a1, Keeps s (chanStop x a1) := by
  intro a1
  unfold chanStop
  dsimp only
  apply Keeps.ite
  · apply keeps_finishStop
    apply keeps_State_setChan
    exact h
  · exact h

theorem keeps_chanRelease {s x : State} (h : Keeps s x) : ∀ a1, Keeps s (chanRelease x a1) := by
  intro a1
  unfold chanRelease
  apply keeps_State_setChan
  exact h

theorem keeps_flagSetOp {s x : State} (h : Keeps s x) : ∀ a1 a2, Keeps s (flagSetOp x a1 a2) := by
  intro a1 a2
  unfold flagSetOp
  dsimp only
  apply Keeps.ite
  · exact h
  · split
    · apply keeps_chanRelease
      apply keeps_State_setEngine
      apply Keeps.foldl
      · apply keeps_State_setEngine
        exact h
      · intro _ _ k
        apply Keeps.ite
        · apply keeps_chanRelease
          assumption
        · assumption
    · apply Keeps.foldl
      · apply keeps_State_setEngine
        exact h
      · intro _ _ k
        apply Keeps.ite
        · apply keeps_chanRelease
          assumption
        · assumption

theorem keeps_flagClearOp {s x : State} (h : Keeps s x) : ∀ a1 a2, Keeps s (flagClearOp x a1 a2) := by
  intro a1 a2
  unfold flagClearOp
  dsimp only
  apply keeps_State_setEngine
  exact h

theorem keeps_moveRead {s x : State} (h : Keeps s x) : ∀ a1, Keeps s (moveRead x a1) := by
  intro a1
  unfold moveRead
  split
  · exact h
  · split
    · exact h
    · apply keeps_issue
      apply keeps_State_setChan
      exact h

theorem keeps_engineReads (n : Nat) {s x : State} (h : Keeps s x) : ∀ e, Keeps s (engineReads n x e) := by
  induction n generalizing x with
  | zero => exact fun _ => h
  | succ n ih =>
    intro e
    unfold engineReads
    dsimp only
    split
    · exact ih (keeps_moveRead (keeps_State_setEngine h _ _) _) _
    · split
      · exact ih (keeps_moveRead (keeps_State_setEngine h _ _) _) _
      · exact h

theorem keeps_moveWrites (n : Nat) {s x : State} (h : Keeps s x) : ∀ c, Keeps s (moveWrites n x c) := by
  induction n generalizing x with
  | zero => exact fun _ => h
  | succ n ih =>
    intro c
    unfold moveWrites
    dsimp only
    split
    · exact h
    · split
      · exact keeps_State_setChan h _ _
      · split
        · exact h
        · exact ih (keeps_issue (keeps_State_setChan h _ _) _ _ _ _ _ _ _ _ _) _

theorem keeps_engineWrites {s x : State} (h : Keeps s x) : ∀ a1, Keeps s (engineWrites x a1) := by
  intro a1
  unfold engineWrites
  dsimp only
  apply Keeps.ite
  · apply Keeps.foldl
    · exact h
    · intro _ _ k
      apply keeps_moveWrites
      assumption
  · apply keeps_State_setEngine
    apply Keeps.foldl
    · exact h
    · intro _ _ k
      apply keeps_moveWrites
      assumption

theorem keeps_enginePump {s x : State} (h : Keeps s x) : ∀ a1, Keeps s (enginePump x a1) := by
  intro a1
  unfold enginePump
  apply keeps_engineReads
  apply keeps_engineWrites
  exact h

theorem keeps_movePump {s x : State} (h : Keeps s x) : ∀ a1, Keeps s (movePump x a1) := by
  intro a1
  unfold movePump
  split
  · exact h
  · apply keeps_enginePump
    apply keeps_State_setChan
    exact h

theorem keeps_chanReset {s x : State} (h : Keeps s x) : ∀ a1, Keeps s (chanReset x a1) := by
  intro a1
  unfold chanReset
  apply keeps_enginePump
  apply keeps_State_setChan
  apply keeps_masterReset
  exact h

theorem keeps_dmaMove {s x : State} (h : Keeps s x) : ∀ a1 a2, Keeps s (dmaMove x a1 a2) := by
  intro a1 a2
  unfold dmaMove
  dsimp only
  split
  · apply Keeps.ite
    · apply keeps_chanFail
      exact h
    · split
      · apply keeps_chanFail
        exact h
      · apply keeps_chanFail
        exact h
      · apply Keeps.ite
        · apply keeps_chanFail
          exact h
        · apply Keeps.ite
          · exact h
          · apply keeps_movePump
            apply keeps_State_setChan
            exact h
  · apply keeps_chanFail
    exact h

theorem keeps_dmaLoop {s x : State} (h : Keeps s x) : ∀ a1 a2, Keeps s (dmaLoop x a1 a2) := by
  intro a1 a2
  unfold dmaLoop
  dsimp only
  apply Keeps.ite
  · apply keeps_chanFail
    exact h
  · apply Keeps.ite
    · apply keeps_chanFail
      exact h
    · apply Keeps.ite
      · apply keeps_State_setChan
        exact h
      · apply Keeps.ite
        · apply keeps_chanFail
          exact h
        · apply keeps_State_setChan
          exact h

theorem keeps_dmaWaitAirtime {s x : State} (h : Keeps s x) : ∀ a1 a2, Keeps s (dmaWaitAirtime x a1 a2) := by
  intro a1 a2
  unfold dmaWaitAirtime
  dsimp only
  apply Keeps.ite
  · apply keeps_State_setChan
    exact h
  · apply keeps_State_setChan
    exact h

theorem keeps_dmaAirtimeReached {s x : State} (h : Keeps s x) : ∀ a1, Keeps s (dmaAirtimeReached x a1) := by
  intro a1
  unfold dmaAirtimeReached
  dsimp only
  split
  · apply Keeps.ite
    · apply keeps_chanRelease
      exact h
    · exact h
  · exact h

theorem keeps_issuePoll {s x : State} (h : Keeps s x) : ∀ a1 a2, Keeps s (issuePoll x a1 a2) := by
  intro a1 a2
  unfold issuePoll
  apply keeps_issue
  apply keeps_State_setChan
  exact h

theorem keeps_dmaWaitCounter {s x : State} (h : Keeps s x) : ∀ a1 a2, Keeps s (dmaWaitCounter x a1 a2) := by
  intro a1 a2
  unfold dmaWaitCounter
  dsimp only
  apply Keeps.ite
  · apply keeps_chanFail
    exact h
  · apply Keeps.ite
    · exact h
    · apply keeps_issuePoll
      apply keeps_State_setChan
      exact h

theorem keeps_dmaCounterPoll {s x : State} (h : Keeps s x) : ∀ a1, Keeps s (dmaCounterPoll x a1) := by
  intro a1
  unfold dmaCounterPoll
  dsimp only
  split
  · apply Keeps.ite
    · apply keeps_issuePoll
      exact h
    · exact h
  · exact h

theorem keeps_dmaWaitFlag {s x : State} (h : Keeps s x) : ∀ a1 a2, Keeps s (dmaWaitFlag x a1 a2) := by
  intro a1 a2
  unfold dmaWaitFlag
  dsimp only
  apply Keeps.ite
  · apply keeps_chanFail
    exact h
  · apply Keeps.ite
    · apply keeps_chanFail
      exact h
    · apply Keeps.ite
      · apply keeps_State_setChan
        apply Keeps.ite
        · apply keeps_flagClearOp
          exact h
        · exact h
      · apply keeps_State_setChan
        exact h

theorem keeps_dmaSignalCounter {s x : State} (h : Keeps s x) : ∀ a1 a2, Keeps s (dmaSignalCounter x a1 a2) := by
  intro a1 a2
  unfold dmaSignalCounter
  dsimp only
  apply Keeps.ite
  · apply keeps_chanFail
    exact h
  · apply Keeps.ite
    · apply keeps_chanFail
      exact h
    · apply Keeps.ite
      · exact h
      · apply keeps_issue
        apply keeps_State_setChan
        exact h

theorem keeps_dmaSignalFlag {s x : State} (h : Keeps s x) : ∀ a1 a2, Keeps s (dmaSignalFlag x a1 a2) := by
  intro a1 a2
  unfold dmaSignalFlag
  dsimp only
  apply Keeps.ite
  · apply keeps_chanFail
    exact h
  · apply Keeps.ite
    · apply keeps_chanFail
      exact h
    · apply Keeps.ite
      · exact h
      · apply keeps_issue
        apply keeps_State_setChan
        exact h

theorem keeps_dmaSignalEvent {s x : State} (h : Keeps s x) : ∀ a1 a2, Keeps s (dmaSignalEvent x a1 a2) := by
  intro a1 a2
  unfold dmaSignalEvent
  apply Keeps.ite
  · exact h
  · apply keeps_raise
    apply keeps_State_setChan
    exact h

theorem keeps_dmaEndOp {s x : State} (h : Keeps s x) : ∀ a1 a2, Keeps s (dmaEndOp x a1 a2) := by
  intro a1 a2
  unfold dmaEndOp
  dsimp only
  apply Keeps.ite
  · apply keeps_raise
    apply keeps_State_setChan
    exact h
  · apply keeps_State_setChan
    exact h

theorem keeps_dmaInstr {s x : State} (h : Keeps s x) (c op kind : Nat) (bs : List Byte)
    (body : State → Nat → List Byte → State) (hb : ∀ y c bs, Keeps s y → Keeps s (body y c bs)) :
    Keeps s (dmaInstr x c op kind bs body) := by
  unfold dmaInstr
  dsimp only
  repeat' first
    | exact h
    | exact keeps_chanFail h _ _ _
    | exact hb _ _ _ h
    | apply Keeps.ite

theorem keeps_dmaResponse {s x : State} (h : Keeps s x) : ∀ a1 a2 a3 a4, Keeps s (dmaResponse x a1 a2 a3 a4) := by
  intro a1 a2 a3 a4
  unfold dmaResponse
  dsimp only
  apply Keeps.ite
  · apply keeps_enginePump
    apply keeps_finishStop
    exact h
  · apply Keeps.ite
    · apply keeps_enginePump
      apply keeps_chanFail
      exact h
    · split
      · apply Keeps.ite
        · apply keeps_enginePump
          apply Keeps.ite
          · apply keeps_State_setChan
            apply Keeps.ite
            · apply keeps_raiseLimited
              apply keeps_State_setEngine
              exact h
            · exact h
          · apply Keeps.ite
            · apply keeps_raiseLimited
              apply keeps_State_setEngine
              exact h
            · exact h
        · apply keeps_enginePump
          apply Keeps.ite
          · apply keeps_raiseLimited
            apply keeps_State_setEngine
            exact h
          · exact h
      · split
        · apply Keeps.ite
          · apply keeps_movePump
            apply keeps_State_setChan
            apply Keeps.ite
            · apply keeps_raiseLimited
              apply keeps_State_setEngine
              exact h
            · exact h
          · apply keeps_movePump
            apply Keeps.ite
            · apply keeps_raiseLimited
              apply keeps_State_setEngine
              exact h
            · exact h
        · apply keeps_enginePump
          apply Keeps.ite
          · apply keeps_raiseLimited
            apply keeps_State_setEngine
            exact h
          · exact h

theorem keeps_chanCommand {s x : State} (h : Keeps s x) : ∀ a1 a2, Keeps s (chanCommand x a1 a2) := by
  intro a1 a2
  unfold chanCommand
  split
  · apply Keeps.ite
    · apply keeps_chanStart
      exact h
    · exact h
  · apply keeps_chanStop
    exact h
  · apply keeps_chanReset
    exact h
  · apply keeps_State_setEngine
    exact h

theorem keeps_dmaWinRead {s x : State} (h : Keeps s x) : ∀ a1 a2 a3, Keeps s (dmaWinRead x a1 a2 a3) := by
  intro a1 a2 a3
  unfold dmaWinRead
  apply Keeps.ite
  · apply Keeps.ite
    · apply keeps_deny
      exact h
    · apply keeps_respond
      exact h
  · apply Keeps.ite
    · apply Keeps.ite
      · apply keeps_deny
        exact h
      · apply keeps_respond
        exact h
    · apply keeps_deny
      exact h

theorem keeps_dmaWinWrite {s x : State} (h : Keeps s x) : ∀ a1 a2 a3, Keeps s (dmaWinWrite x a1 a2 a3) := by
  intro a1 a2 a3
  unfold dmaWinWrite
  apply Keeps.ite
  · apply Keeps.ite
    · apply keeps_deny
      exact h
    · dsimp only
      apply keeps_respond
      apply Keeps.ite
      · apply keeps_chanCommand
        apply Keeps.ite
        · apply keeps_State_setChan
          exact h
        · exact h
      · apply Keeps.ite
        · apply keeps_State_setChan
          exact h
        · exact h
  · apply Keeps.ite
    · apply Keeps.ite
      · apply keeps_deny
        exact h
      · apply Keeps.ite
        · apply keeps_deny
          exact h
        · dsimp only
          apply keeps_respond
          split
          · apply keeps_flagSetOp
            exact h
          · apply keeps_flagClearOp
            exact h
          · apply keeps_State_setEngine
            exact h
    · apply keeps_deny
      exact h

theorem keeps_cmdChanStart {s x : State} (h : Keeps s x) : ∀ a1 a2, Keeps s (cmdChanStart a1 a2 x) := by
  intro a1 a2
  unfold cmdChanStart
  apply Keeps.ite
  · apply keeps_refuse
    exact h
  · apply Keeps.ite
    · apply keeps_refuse
      exact h
    · apply keeps_replyOk
      apply keeps_chanStart
      exact h

theorem keeps_cmdChanStop {s x : State} (h : Keeps s x) : ∀ a1, Keeps s (cmdChanStop a1 x) := by
  intro a1
  unfold cmdChanStop
  apply Keeps.ite
  · apply keeps_refuse
    exact h
  · apply keeps_replyOk
    apply keeps_chanStop
    exact h

theorem keeps_cmdChanReset {s x : State} (h : Keeps s x) : ∀ a1, Keeps s (cmdChanReset a1 x) := by
  intro a1
  unfold cmdChanReset
  apply Keeps.ite
  · apply keeps_refuse
    exact h
  · apply keeps_replyOk
    apply keeps_chanReset
    exact h

theorem keeps_cmdChanStatus {s x : State} (h : Keeps s x) : ∀ a1, Keeps s (cmdChanStatus a1 x) := by
  intro a1
  unfold cmdChanStatus
  apply Keeps.ite
  · apply keeps_refuse
    exact h
  · dsimp only
    apply keeps_replyOk
    exact h

end Sys2Proof.Machine
end

