-- ==== Sys2Proof/Laws/KeepsMill.lean ====
section
/-! SUPPORT. What the operations of Machine/Mill.lean, Machine/Drain.lean keep. -/

set_option linter.unusedTactic false
set_option linter.unreachableTactic false
set_option linter.unusedVariables false

namespace Sys2Proof.Machine

theorem keeps_State_setSlc {s x : State} (h : Keeps s x) : ∀ a1 a2, Keeps s (State.setSlc x a1 a2) := by
  intro a1 a2
  unfold State.setSlc
  refine Keeps.upd rfl rfl rfl rfl rfl rfl rfl ?_
  exact h

theorem keeps_State_modItem {s x : State} (h : Keeps s x) : ∀ a1 a2 a3, Keeps s (State.modItem x a1 a2 a3) := by
  intro a1 a2 a3
  unfold State.modItem
  dsimp only
  split
  · apply keeps_State_setSlc
    exact h
  · exact h

theorem keeps_drainUnit {s x : State} (h : Keeps s x) : ∀ a1, Keeps s (drainUnit x a1) := by
  intro a1
  unfold drainUnit
  apply Keeps.ite
  · exact h
  · refine Keeps.upd rfl rfl rfl rfl rfl rfl rfl ?_
    exact h

theorem keeps_undrain {s x : State} (h : Keeps s x) : ∀ a1, Keeps s (undrain x a1) := by
  intro a1
  unfold undrain
  refine Keeps.upd rfl rfl rfl rfl rfl rfl rfl ?_
  exact h

theorem keeps_traceWrite {s x : State} (h : Keeps s x) : ∀ a1 a2, Keeps s (traceWrite x a1 a2) := by
  intro a1 a2
  unfold traceWrite
  dsimp only
  split
  · rename_i e
    exact keeps_State_setSlc (keeps_extWrite h _ _ _ (of_ite_none e)) _ _
  · exact keeps_raiseLimited (keeps_State_setSlc h _ _) _ _ _ _ _ _ _

theorem keeps_trace {s x : State} (h : Keeps s x) : ∀ a1 a2 a3 a4, Keeps s (trace x a1 a2 a3 a4) := by
  intro a1 a2 a3 a4
  unfold trace
  apply Keeps.ite
  · exact h
  · dsimp only
    apply keeps_traceWrite
    exact h

theorem keeps_traceTier {s x : State} (h : Keeps s x) : ∀ a1 a2 a3 a4, Keeps s (traceTier x a1 a2 a3 a4) := by
  intro a1 a2 a3 a4
  unfold traceTier
  apply Keeps.ite
  · exact h
  · apply keeps_traceWrite
    exact h

theorem keeps_joinFlow {s x : State} (h : Keeps s x) : ∀ a1 a2, Keeps s (joinFlow x a1 a2) := by
  intro a1 a2
  unfold joinFlow
  dsimp only
  split
  · exact h
  · apply Keeps.ite
    · apply keeps_State_modItem
      apply keeps_State_setSlc
      exact h
    · apply keeps_State_modItem
      apply keeps_State_setSlc
      exact h

theorem keeps_makeReady {s x : State} (h : Keeps s x) : ∀ a1 a2 a3, Keeps s (makeReady x a1 a2 a3) := by
  intro a1 a2 a3
  unfold makeReady
  dsimp only
  split
  · exact h
  · apply Keeps.ite
    · apply keeps_State_modItem
      apply keeps_trace
      apply keeps_State_modItem
      exact h
    · apply Keeps.ite
      · apply keeps_joinFlow
        apply keeps_trace
        apply keeps_State_modItem
        exact h
      · apply keeps_State_modItem
        apply keeps_State_setSlc
        apply keeps_trace
        apply keeps_State_modItem
        exact h

theorem keeps_flowWriteBack {s x : State} (h : Keeps s x) : ∀ a1 a2, Keeps s (flowWriteBack x a1 a2) := by
  intro a1 a2
  unfold flowWriteBack
  split
  · exact Keeps.getD h fun _ k => keeps_extWrite h _ _ _ k
  · exact h

theorem keeps_flowTableIdle {s x : State} (h : Keeps s x) : Keeps s (flowTableIdle x) := by
  unfold flowTableIdle
  exact Keeps.ite h (Keeps.foldl h fun _ _ k => Keeps.getD k fun _ e => keeps_extWrite k _ _ _ e)

theorem keeps_flowFetched {s x : State} (h : Keeps s x) : ∀ a1 a2, Keeps s (flowFetched x a1 a2) := by
  intro a1 a2
  unfold flowFetched
  dsimp only
  apply Keeps.ite
  · exact h
  · split
    · exact h
    · apply Keeps.foldl
      · apply keeps_State_setSlc
        split
        · apply keeps_flowWriteBack
          exact h
        · exact h
      · intro _ _ k
        apply keeps_joinFlow
        assumption

theorem keeps_flowNext {s x : State} (h : Keeps s x) : ∀ a1 a2, Keeps s (flowNext x a1 a2) := by
  intro a1 a2
  unfold flowNext
  apply Keeps.ite
  · exact h
  · dsimp only
    apply Keeps.ite
    · exact h
    · split
      · apply keeps_State_modItem
        exact h
      · exact h

theorem keeps_releaseAt {s x : State} (h : Keeps s x) : ∀ a1, Keeps s (releaseAt x a1) := by
  intro a1
  unfold releaseAt
  dsimp only
  apply Keeps.ite
  · exact h
  · apply Keeps.foldl
    · exact h
    · intro _ _ k
      apply keeps_makeReady
      assumption

theorem keeps_setCounterOp {s x : State} (h : Keeps s x) : ∀ a1 a2, Keeps s (setCounterOp x a1 a2) := by
  intro a1 a2
  unfold setCounterOp
  dsimp only
  apply keeps_releaseAt
  apply keeps_State_setSlc
  exact h

theorem keeps_decrementOp {s x : State} (h : Keeps s x) : ∀ a1 a2 a3, Keeps s (decrementOp x a1 a2 a3) := by
  intro a1 a2 a3
  unfold decrementOp
  dsimp only
  apply Keeps.ite
  · apply keeps_raise
    exact h
  · apply keeps_releaseAt
    apply keeps_State_setSlc
    exact h

theorem keeps_decSuccessors {s x : State} (h : Keeps s x) : ∀ a1 a2 a3, Keeps s (decSuccessors x a1 a2 a3) := by
  intro a1 a2 a3
  unfold decSuccessors
  apply Keeps.foldl
  · exact h
  · intro _ _ k
    apply Keeps.ite
    · apply keeps_decrementOp
      assumption
    · apply keeps_post
      assumption

theorem keeps_completeItem {s x : State} (h : Keeps s x) : ∀ a1 a2 a3, Keeps s (completeItem x a1 a2 a3) := by
  intro a1 a2 a3
  unfold completeItem
  split
  · exact h
  · dsimp only
    apply keeps_decSuccessors
    apply keeps_flowNext
    apply keeps_State_setSlc
    apply keeps_trace
    exact h

theorem keeps_completeUnit {s x : State} (h : Keeps s x) : ∀ a1 a2, Keeps s (completeUnit x a1 a2) := by
  intro a1 a2
  unfold completeUnit
  split
  · dsimp only
    refine Keeps.upd rfl rfl rfl rfl rfl rfl rfl ?_
    apply keeps_completeItem
    exact h
  · exact h

theorem keeps_dropItem {s x : State} (h : Keeps s x) : ∀ a1 a2 a3 a4, Keeps s (dropItem x a1 a2 a3 a4) := by
  intro a1 a2 a3 a4
  unfold dropItem
  split
  · exact h
  · dsimp only
    apply keeps_decSuccessors
    apply keeps_flowNext
    apply keeps_State_setSlc
    apply keeps_trace
    exact h

theorem keeps_dropCarrier {s x : State} (h : Keeps s x) : ∀ a1, Keeps s (dropCarrier x a1) := by
  intro a1
  unfold dropCarrier
  apply Keeps.foldl
  · exact h
  · intro _ _ k
    dsimp only
    apply Keeps.foldl
    · assumption
    · intro _ _ k
      apply keeps_dropItem
      assumption

theorem keeps_setClass {s x : State} (h : Keeps s x) : ∀ a1 a2 a3 a4, Keeps s (setClass x a1 a2 a3 a4) := by
  intro a1 a2 a3 a4
  unfold setClass
  split
  · exact h
  · dsimp only
    apply keeps_trace
    apply keeps_State_modItem
    exact h

theorem keeps_promote {s x : State} (h : Keeps s x) : ∀ a1 a2, Keeps s (promote x a1 a2) := by
  intro a1 a2
  unfold promote
  split
  · exact h
  · dsimp only
    apply Keeps.ite
    · apply keeps_setClass
      exact h
    · exact h

theorem keeps_urgent {s x : State} (h : Keeps s x) : ∀ a1 a2, Keeps s (urgent x a1 a2) := by
  intro a1 a2
  unfold urgent
  split
  · exact h
  · apply Keeps.ite
    · apply keeps_setClass
      exact h
    · exact h

theorem keeps_becomeLate {s x : State} (h : Keeps s x) : ∀ a1 a2, Keeps s (becomeLate x a1 a2) := by
  intro a1 a2
  unfold becomeLate
  split
  · exact h
  · dsimp only
    apply Keeps.ite
    · exact h
    · split
      · apply keeps_dropItem
        apply keeps_State_setSlc
        exact h
      · apply keeps_State_modItem
        apply Keeps.ite
        · apply keeps_State_setSlc
          exact h
        · apply keeps_setClass
          apply keeps_State_setSlc
          exact h
      · apply keeps_State_modItem
        apply Keeps.ite
        · apply keeps_State_setSlc
          exact h
        · apply keeps_setClass
          apply keeps_State_setSlc
          exact h

theorem keeps_promoteDue {s x : State} (h : Keeps s x) : ∀ a1 a2, Keeps s (promoteDue x a1 a2) := by
  intro a1 a2
  unfold promoteDue
  apply Keeps.foldl
  · exact h
  · intro _ _ k
    apply keeps_promote
    assumption

theorem keeps_grantLate {s x : State} (h : Keeps s x) : ∀ a1, Keeps s (grantLate x a1) := by
  intro a1
  unfold grantLate
  split
  · exact h
  · apply Keeps.ite
    · exact h
    · dsimp only
      split
      · refine Keeps.upd rfl rfl rfl rfl rfl rfl rfl ?_
        apply keeps_becomeLate
        apply keeps_State_setSlc
        exact h
      · refine Keeps.upd rfl rfl rfl rfl rfl rfl rfl ?_
        apply keeps_State_setSlc
        apply keeps_becomeLate
        apply keeps_State_setSlc
        exact h

theorem keeps_setTier {s x : State} (h : Keeps s x) : ∀ a1 a2 a3, Keeps s (setTier x a1 a2 a3) := by
  intro a1 a2 a3
  unfold setTier
  dsimp only
  apply keeps_State_setSlc
  exact h

theorem keeps_tierDue {s x : State} (h : Keeps s x) : ∀ a1, Keeps s (tierDue x a1) := by
  intro a1
  unfold tierDue
  dsimp only
  apply Keeps.ite
  · apply Keeps.foldl
    · refine Keeps.upd rfl rfl rfl rfl rfl rfl rfl ?_
      exact h
    · intro _ _ k
      apply keeps_setTier
      assumption
  · exact h

theorem keeps_dueActions {s x : State} (h : Keeps s x) : ∀ a1, Keeps s (dueActions x a1) := by
  intro a1
  unfold dueActions
  dsimp only
  apply Keeps.foldl
  · apply keeps_grantLate
    apply keeps_tierDue
    exact h
  · intro _ _ k
    apply keeps_becomeLate
    apply keeps_urgent
    apply keeps_promoteDue
    assumption

theorem keeps_millTick {s x : State} (h : Keeps s x) : Keeps s (millTick x) := by
  unfold millTick
  apply Keeps.foldl
  · exact h
  · intro _ _ k
    apply keeps_dueActions
    assumption

theorem keeps_badAccess {s x : State} (h : Keeps s x) : ∀ a1, Keeps s (badAccess x a1) := by
  intro a1
  unfold badAccess
  apply keeps_State_setSlc
  exact h

theorem keeps_enqueueOp {s x : State} (h : Keeps s x) : ∀ a1 a2, Keeps s (enqueueOp x a1 a2).1 := by
  intro a1 a2
  unfold enqueueOp
  dsimp only
  apply Keeps.ite_fst
  · dsimp only
    apply keeps_decSuccessors
    apply keeps_raiseLimited
    apply keeps_trace
    exact h
  · dsimp only
    apply keeps_becomeLate
    apply keeps_urgent
    split
    · apply keeps_makeReady
      apply keeps_trace
      apply keeps_State_setSlc
      exact h
    · apply Keeps.ite
      · apply keeps_makeReady
        apply keeps_trace
        apply keeps_State_setSlc
        exact h
      · apply keeps_trace
        apply keeps_State_setSlc
        exact h

theorem keeps_millBad {s x : State} (h : Keeps s x) : ∀ a1 a2 a3, Keeps s (millBad x a1 a2 a3) := by
  intro a1 a2 a3
  unfold millBad
  apply keeps_deny
  apply keeps_badAccess
  exact h

theorem keeps_millWinRead {s x : State} (h : Keeps s x) : ∀ a1 a2 a3, Keeps s (millWinRead x a1 a2 a3) := by
  intro a1 a2 a3
  unfold millWinRead
  apply Keeps.ite
  · apply keeps_deny
    apply keeps_badAccess
    exact h
  · apply Keeps.ite
    · apply keeps_deny
      apply keeps_badAccess
      exact h
    · apply Keeps.ite
      · apply keeps_deny
        apply keeps_badAccess
        exact h
      · apply Keeps.ite
        · apply keeps_deny
          apply keeps_badAccess
          exact h
        · apply keeps_respond
          exact h

theorem keeps_millWinWrite {s x : State} (h : Keeps s x) : ∀ a1 a2 a3, Keeps s (millWinWrite x a1 a2 a3) := by
  intro a1 a2 a3
  unfold millWinWrite
  dsimp only
  apply Keeps.ite
  · apply Keeps.ite
    · apply keeps_deny
      apply keeps_badAccess
      exact h
    · apply Keeps.ite
      · apply keeps_deny
        apply keeps_badAccess
        exact h
      · apply keeps_respond
        apply keeps_enqueueOp
        exact h
  · apply Keeps.ite
    · apply keeps_deny
      apply keeps_badAccess
      exact h
    · apply Keeps.ite
      · apply keeps_deny
        apply keeps_badAccess
        exact h
      · apply Keeps.ite
        · apply keeps_deny
          apply keeps_badAccess
          exact h
        · apply keeps_respond
          apply Keeps.ite
          · apply keeps_setCounterOp
            exact h
          · apply Keeps.ite
            · apply keeps_decrementOp
              exact h
            · apply keeps_State_setSlc
              exact h

theorem keeps_millEnqueue {s x : State} (h : Keeps s x) : ∀ a1 a2 a3, Keeps s (millEnqueue x a1 a2 a3) := by
  intro a1 a2 a3
  unfold millEnqueue
  apply Keeps.ite
  · apply keeps_badAccess
    exact h
  · apply keeps_enqueueOp
    exact h

theorem keeps_millCounterSet {s x : State} (h : Keeps s x) : ∀ a1 a2 a3, Keeps s (millCounterSet x a1 a2 a3) := by
  intro a1 a2 a3
  unfold millCounterSet
  apply Keeps.ite
  · apply keeps_badAccess
    exact h
  · apply keeps_setCounterOp
    exact h

theorem keeps_deliver {s x : State} (h : Keeps s x) : ∀ a1 a2 a3, Keeps s (deliver x a1 a2 a3) := by
  intro a1 a2 a3
  unfold deliver
  split
  · exact h
  · dsimp only
    refine Keeps.upd rfl rfl rfl rfl rfl rfl rfl ?_
    apply keeps_touchDomain
    apply keeps_State_modItem
    apply keeps_trace
    exact h

theorem keeps_clearAnswered {s x : State} (h : Keeps s x) : ∀ a1, Keeps s (clearAnswered x a1) := by
  intro a1
  unfold clearAnswered
  apply Keeps.ite
  · apply keeps_State_setSlc
    exact h
  · exact h

theorem keeps_decide_ {s x : State} (h : Keeps s x) : ∀ a1, Keeps s (decide_ x a1) := by
  intro a1
  unfold decide_
  dsimp only
  apply Keeps.ite
  · apply keeps_clearAnswered
    apply keeps_dueActions
    exact h
  · split
    · apply Keeps.ite
      · apply keeps_completeItem
        apply keeps_clearAnswered
        apply keeps_dueActions
        exact h
      · apply keeps_deliver
        apply keeps_clearAnswered
        apply keeps_dueActions
        exact h
    · apply Keeps.ite
      · refine Keeps.upd rfl rfl rfl rfl rfl rfl rfl ?_
        apply keeps_clearAnswered
        apply keeps_dueActions
        exact h
      · apply keeps_clearAnswered
        apply keeps_dueActions
        exact h

theorem keeps_voteFail {s x : State} (h : Keeps s x) : ∀ a1, Keeps s (voteFail x a1) := by
  intro a1
  unfold voteFail
  dsimp only
  apply Keeps.ite
  · apply keeps_enterSafe
    apply keeps_raise
    apply keeps_State_setSlc
    exact h
  · apply keeps_raise
    apply keeps_State_setSlc
    exact h

theorem keeps_sramError {s x : State} (h : Keeps s x) : ∀ a1 a2, Keeps s (sramError x a1 a2) := by
  intro a1 a2
  unfold sramError
  dsimp only
  split
  · exact h
  · apply keeps_State_setSlc
    exact h
  · apply Keeps.ite
    · apply keeps_raise
      apply keeps_dropItem
      apply Keeps.ite
      · exact h
      · apply keeps_State_modItem
        exact h
    · exact h
  · apply keeps_enterSafe
    apply keeps_raise
    exact h

theorem keeps_agreed {s x : State} (h : Keeps s x) : ∀ a1 a2 a3, Keeps s (agreed x a1 a2 a3) := by
  intro a1 a2 a3
  unfold agreed
  dsimp only
  apply Keeps.ite
  · exact h
  · apply keeps_State_setSlc
    exact h

theorem keeps_voted {s x : State} (h : Keeps s x) (a1 : Nat) (v : MillVote) (f : State → State)
    (hf : ∀ y, Keeps s y → Keeps s (f y)) : Keeps s (voted x a1 v f) := by
  unfold voted
  dsimp only
  split
  · exact hf _ (keeps_agreed h _ _ _)
  · split
    · exact hf _ (keeps_raise (keeps_agreed h _ _ _) _ _ _ _)
    · exact Keeps.ite (hf _ (keeps_agreed h _ _ _)) (keeps_voteFail h _)
  · exact keeps_voteFail h _

theorem keeps_dispatch {s x : State} (h : Keeps s x) : ∀ a1 a2 a3, Keeps s (dispatch x a1 a2 a3) := by
  intro a1 a2 a3
  unfold dispatch
  apply keeps_voted
  · apply keeps_sramError
    exact h
  · intro _ k
    apply keeps_decide_
    assumption

theorem keeps_stealRequestOp {s x : State} (h : Keeps s x) : ∀ a1, Keeps s (stealRequestOp x a1) := by
  intro a1
  unfold stealRequestOp
  split
  · exact h
  · apply Keeps.ite
    · exact h
    · dsimp only
      split
      · refine Keeps.upd rfl rfl rfl rfl rfl rfl rfl ?_
        apply keeps_State_setSlc
        apply keeps_State_setSlc
        refine Keeps.upd rfl rfl rfl rfl rfl rfl rfl ?_
        apply keeps_dueActions
        exact h
      · apply Keeps.ite
        · apply keeps_State_setSlc
          refine Keeps.upd rfl rfl rfl rfl rfl rfl rfl ?_
          apply keeps_dueActions
          exact h
        · refine Keeps.upd rfl rfl rfl rfl rfl rfl rfl ?_
          apply keeps_State_setSlc
          refine Keeps.upd rfl rfl rfl rfl rfl rfl rfl ?_
          apply keeps_dueActions
          exact h

theorem keeps_stealGrantOp {s x : State} (h : Keeps s x) : ∀ a1, Keeps s (stealGrantOp x a1) := by
  intro a1
  unfold stealGrantOp
  dsimp only
  split
  · apply keeps_dueActions
    exact h
  · split
    · apply keeps_dueActions
      exact h
    · apply Keeps.ite
      · apply keeps_completeItem
        apply keeps_trace
        refine Keeps.upd rfl rfl rfl rfl rfl rfl rfl ?_
        apply keeps_State_setSlc
        apply keeps_dueActions
        exact h
      · apply keeps_deliver
        apply keeps_trace
        refine Keeps.upd rfl rfl rfl rfl rfl rfl rfl ?_
        apply keeps_State_setSlc
        apply keeps_dueActions
        exact h

theorem keeps_changeTier {s x : State} (h : Keeps s x) : ∀ a1 a2 a3, Keeps s (changeTier x a1 a2 a3) := by
  intro a1 a2 a3
  unfold changeTier
  dsimp only
  refine Keeps.upd rfl rfl rfl rfl rfl rfl rfl ?_
  apply keeps_raise
  apply keeps_traceTier
  apply keeps_setTier
  exact h

theorem keeps_reportMisses {s x : State} (h : Keeps s x) : ∀ a1 a2 a3, Keeps s (reportMisses x a1 a2 a3).1 := by
  intro a1 a2 a3
  unfold reportMisses
  dsimp only
  apply Keeps.ite_fst
  · dsimp only
    exact h
  · dsimp only
    apply keeps_raise
    apply keeps_State_setSlc
    exact h

theorem keeps_slotEndOp {s x : State} (h : Keeps s x) : ∀ a1 a2, Keeps s (slotEndOp x a1 a2) := by
  intro a1 a2
  unfold slotEndOp
  apply Keeps.ite
  · exact h
  · split
    dsimp only
    apply Keeps.ite
    · apply keeps_changeTier
      refine Keeps.upd rfl rfl rfl rfl rfl rfl rfl ?_
      refine Keeps.of_fst (by assumption) ?_
      apply Keeps.foldl_fst
      · dsimp only
        exact h
      · intro _ _ k
        split
        split
        dsimp only
        refine Keeps.of_fst (by assumption) ?_
        apply keeps_reportMisses
        assumption
    · apply Keeps.ite
      · apply Keeps.ite
        · apply keeps_changeTier
          refine Keeps.upd rfl rfl rfl rfl rfl rfl rfl ?_
          refine Keeps.of_fst (by assumption) ?_
          apply Keeps.foldl_fst
          · dsimp only
            exact h
          · intro _ _ k
            split
            split
            dsimp only
            refine Keeps.of_fst (by assumption) ?_
            apply keeps_reportMisses
            assumption
        · refine Keeps.upd rfl rfl rfl rfl rfl rfl rfl ?_
          refine Keeps.of_fst (by assumption) ?_
          apply Keeps.foldl_fst
          · dsimp only
            exact h
          · intro _ _ k
            split
            split
            dsimp only
            refine Keeps.of_fst (by assumption) ?_
            apply keeps_reportMisses
            assumption
      · apply Keeps.ite
        · apply Keeps.ite
          · apply keeps_changeTier
            refine Keeps.upd rfl rfl rfl rfl rfl rfl rfl ?_
            refine Keeps.of_fst (by assumption) ?_
            apply Keeps.foldl_fst
            · dsimp only
              exact h
            · intro _ _ k
              split
              split
              dsimp only
              refine Keeps.of_fst (by assumption) ?_
              apply keeps_reportMisses
              assumption
          · refine Keeps.upd rfl rfl rfl rfl rfl rfl rfl ?_
            refine Keeps.of_fst (by assumption) ?_
            apply Keeps.foldl_fst
            · dsimp only
              exact h
            · intro _ _ k
              split
              split
              dsimp only
              refine Keeps.of_fst (by assumption) ?_
              apply keeps_reportMisses
              assumption
        · refine Keeps.upd rfl rfl rfl rfl rfl rfl rfl ?_
          refine Keeps.of_fst (by assumption) ?_
          apply Keeps.foldl_fst
          · dsimp only
            exact h
          · intro _ _ k
            split
            split
            dsimp only
            refine Keeps.of_fst (by assumption) ?_
            apply keeps_reportMisses
            assumption

theorem keeps_tierMessageOp {s x : State} (h : Keeps s x) : ∀ a1 a2, Keeps s (tierMessageOp x a1 a2) := by
  intro a1 a2
  unfold tierMessageOp
  split
  · exact h
  · apply keeps_setTier
    refine Keeps.upd rfl rfl rfl rfl rfl rfl rfl ?_
    exact h

theorem keeps_lateReportOp {s x : State} (h : Keeps s x) : ∀ a1, Keeps s (lateReportOp x a1) := by
  intro a1
  unfold lateReportOp
  dsimp only
  apply Keeps.ite
  · exact h
  · apply keeps_raise
    apply keeps_State_setSlc
    exact h

theorem keeps_millCheckOp {s x : State} (h : Keeps s x) : ∀ a1, Keeps s (millCheckOp x a1) := by
  intro a1
  unfold millCheckOp
  dsimp only
  apply keeps_raise
  apply keeps_State_setSlc
  apply keeps_dueActions
  exact h

theorem keeps_millEmpty {s x : State} (h : Keeps s x) : Keeps s (millEmpty x) := by
  unfold millEmpty
  dsimp only
  refine Keeps.upd rfl rfl rfl rfl rfl rfl rfl ?_
  exact h

theorem keeps_cmdMillEnqueue {s x : State} (h : Keeps s x) : ∀ a1 a2, Keeps s (cmdMillEnqueue a1 a2 x) := by
  intro a1 a2
  unfold cmdMillEnqueue
  dsimp only
  apply Keeps.ite
  · apply keeps_refuse
    exact h
  · apply keeps_replyOk
    apply Keeps.foldl_fst
    · dsimp only
      exact h
    · intro _ _ k
      dsimp only
      apply keeps_enqueueOp
      assumption

theorem keeps_cmdMillCounterSet {s x : State} (h : Keeps s x) : ∀ a1 a2, Keeps s (cmdMillCounterSet a1 a2 x) := by
  intro a1 a2
  unfold cmdMillCounterSet
  apply keeps_replyOk
  apply Keeps.foldl
  · exact h
  · intro _ _ k
    apply keeps_setCounterOp
    assumption

theorem keeps_cmdMillCounterRead {s x : State} (h : Keeps s x) : ∀ a1 a2, Keeps s (cmdMillCounterRead a1 a2 x) := by
  intro a1 a2
  unfold cmdMillCounterRead
  apply keeps_replyOk
  exact h

theorem keeps_cmdTraceRead {s x : State} (h : Keeps s x) : ∀ a1 a2, Keeps s (cmdTraceRead a1 a2 x) := by
  intro a1 a2
  unfold cmdTraceRead
  dsimp only
  apply Keeps.ite
  · apply keeps_refuse
    exact h
  · apply keeps_replyOk
    exact h

theorem keeps_releaseCore {s x : State} (h : Keeps s x) : ∀ a1, Keeps s (releaseCore x a1) := by
  intro a1
  unfold releaseCore
  apply Keeps.ite
  · exact h
  · apply keeps_undrain
    exact h

theorem keeps_clusterSync {s x : State} (h : Keeps s x) : ∀ a1 a2, Keeps s (clusterSync x a1 a2) := by
  intro a1 a2
  unfold clusterSync
  dsimp only
  apply Keeps.ite
  · apply Keeps.foldl
    · apply keeps_State_setCluster
      exact h
    · intro _ _ k
      apply keeps_drainUnit
      assumption
  · apply Keeps.foldl
    · exact h
    · intro _ _ k
      apply keeps_releaseCore
      assumption

theorem keeps_setReason {s x : State} (h : Keeps s x) : ∀ a1 a2 a3 a4, Keeps s (setReason x a1 a2 a3 a4) := by
  intro a1 a2 a3 a4
  unfold setReason
  dsimp only
  apply keeps_clusterSync
  apply keeps_State_setCluster
  exact h

theorem keeps_tailStep {s x : State} (h : Keeps s x) : ∀ a1, Keeps s (tailStep x a1) := by
  intro a1
  unfold tailStep
  dsimp only
  apply Keeps.ite
  · exact h
  · apply keeps_State_setCore
    exact h

theorem keeps_placeStep {s x : State} (h : Keeps s x) : ∀ a1, Keeps s (placeStep x a1) := by
  intro a1
  unfold placeStep
  split
  · exact h
  · apply Keeps.ite
    · exact h
    · dsimp only
      apply Keeps.ite
      · apply keeps_replyOk
        refine Keeps.upd rfl rfl rfl rfl rfl rfl rfl ?_
        apply keeps_State_setCore
        exact h
      · refine Keeps.upd rfl rfl rfl rfl rfl rfl rfl ?_
        apply keeps_State_setCore
        exact h

theorem keeps_testStep {s x : State} (h : Keeps s x) : ∀ a1, Keeps s (testStep x a1) := by
  intro a1
  unfold testStep
  dsimp only
  apply Keeps.ite
  · exact h
  · refine Keeps.upd rfl rfl rfl rfl rfl rfl rfl ?_
    exact h

theorem keeps_drainHook {s x : State} (h : Keeps s x) : ∀ a1, Keeps s (drainHook x a1) := by
  intro a1
  unfold drainHook
  apply Keeps.ite
  · exact h
  · apply keeps_releaseCore
    apply keeps_testStep
    apply keeps_placeStep
    apply keeps_tailStep
    exact h

theorem keeps_drainNow {s x : State} (h : Keeps s x) : ∀ a1, Keeps s (drainNow x a1) := by
  intro a1
  unfold drainNow
  apply keeps_drainHook
  apply keeps_drainUnit
  exact h

end Sys2Proof.Machine
end

