-- ==== Sys2Proof/Laws/KeepsCores.lean ====
section
/-! SUPPORT. What the operations of Machine/FacetCore.lean, Machine/Clove.lean keep. -/

set_option linter.unusedTactic false
set_option linter.unreachableTactic false
set_option linter.unusedVariables false

namespace Sys2Proof.Machine

theorem keeps_coreFault {s x : State} (h : Keeps s x) : ∀ a1 a2 a3, Keeps s (coreFault x a1 a2 a3) := by
  intro a1 a2 a3
  unfold coreFault
  dsimp only
  apply keeps_raise
  apply keeps_completeUnit
  apply keeps_State_setCore
  exact h

theorem keeps_fatal {s x : State} (h : Keeps s x) : ∀ a1 a2, Keeps s (fatal x a1 a2) := by
  intro a1 a2
  unfold fatal
  apply keeps_coreFault
  exact h

theorem keeps_syncFatal {s x : State} (h : Keeps s x) : ∀ a1 a2, Keeps s (syncFatal x a1 a2) := by
  intro a1 a2
  unfold syncFatal
  apply keeps_fatal
  exact h

theorem keeps_enterHandler {s x : State} (h : Keeps s x) : ∀ a1 a2 a3 a4 a5 a6, Keeps s (enterHandler x a1 a2 a3 a4 a5 a6) := by
  intro a1 a2 a3 a4 a5 a6
  unfold enterHandler
  split
  dsimp only
  apply keeps_State_setCore
  refine Keeps.of_snd (by assumption) ?_
  apply keeps_State_fresh
  exact h

theorem keeps_takeExc {s x : State} (h : Keeps s x) : ∀ a1 a2, Keeps s (takeExc x a1 a2) := by
  intro a1 a2
  unfold takeExc
  split
  dsimp only
  apply Keeps.ite
  · apply keeps_fatal
    apply keeps_State_setCore
    exact h
  · apply keeps_enterHandler
    apply keeps_State_setCore
    exact h

theorem keeps_takeInterrupt {s x : State} (h : Keeps s x) : ∀ a1 a2, Keeps s (takeInterrupt x a1 a2) := by
  intro a1 a2
  unfold takeInterrupt
  split
  dsimp only
  split
  · apply Keeps.ite
    · apply keeps_fatal
      apply keeps_State_setCore
      exact h
    · apply keeps_enterHandler
      apply keeps_State_setCore
      exact h
  · apply keeps_enterHandler
    apply Keeps.ite
    · apply keeps_State_setCore
      apply keeps_State_setCore
      exact h
    · apply keeps_State_setCore
      exact h

theorem keeps_interruptEntry {s x : State} (h : Keeps s x) : ∀ a1, Keeps s (interruptEntry x a1) := by
  intro a1
  unfold interruptEntry
  dsimp only
  apply Keeps.ite
  · exact h
  · apply Keeps.ite
    · apply keeps_syncFatal
      exact h
    · split
      · apply keeps_takeInterrupt
        apply keeps_State_setCore
        exact h
      · exact h

theorem keeps_haltCore {s x : State} (h : Keeps s x) : ∀ a1 a2 a3, Keeps s (haltCore x a1 a2 a3) := by
  intro a1 a2 a3
  unfold haltCore
  split
  dsimp only
  apply Keeps.ite
  · split
    · apply keeps_takeExc
      apply keeps_State_setCore
      exact h
    · apply keeps_State_setCore
      exact h
  · apply Keeps.ite
    · apply keeps_raiseLimited
      apply keeps_State_setCore
      split
      · apply keeps_takeExc
        apply keeps_State_setCore
        exact h
      · apply keeps_State_setCore
        exact h
    · refine Keeps.upd rfl rfl rfl rfl rfl rfl rfl ?_
      apply keeps_raiseLimited
      apply keeps_State_setCore
      split
      · apply keeps_takeExc
        apply keeps_State_setCore
        exact h
      · apply keeps_State_setCore
        exact h

theorem keeps_haltPoint {s x : State} (h : Keeps s x) : ∀ a1, Keeps s (haltPoint x a1) := by
  intro a1
  unfold haltPoint
  dsimp only
  apply Keeps.ite
  · apply keeps_haltCore
    exact h
  · exact h

theorem keeps_requestHalt {s x : State} (h : Keeps s x) : ∀ a1 a2, Keeps s (requestHalt x a1 a2) := by
  intro a1 a2
  unfold requestHalt
  dsimp only
  apply Keeps.ite
  · exact h
  · apply keeps_State_setCore
    exact h

theorem keeps_unitResultWrite {s x : State} (h : Keeps s x) : ∀ a1 a2, Keeps s (unitResultWrite x a1 a2) := by
  intro a1 a2
  unfold unitResultWrite
  dsimp only
  split
  · exact h
  · apply keeps_State_setCore
    exact h

theorem keeps_execOps {s x : State} (h : Keeps s x) : ∀ a1 a2 a3 a4 a5, Keeps s (execOps x a1 a2 a3 a4 a5) := by
  intro a1 a2 a3 a4 a5
  unfold execOps
  dsimp only
  split
  · apply Keeps.ite
    · apply keeps_takeExc
      apply keeps_State_setCore
      apply Keeps.ite
      · apply keeps_bankMark
        apply keeps_bankCorrected
        exact h
      · exact h
    · apply keeps_takeExc
      apply keeps_State_setCore
      apply Keeps.ite
      · apply keeps_bankMark
        apply keeps_bankCorrected
        exact h
      · exact h
  · split
    · apply keeps_takeExc
      apply keeps_State_setCore
      apply Keeps.ite
      · refine Keeps.upd rfl rfl rfl rfl rfl rfl rfl ?_
        apply Keeps.ite
        · apply keeps_State_setBank
          apply keeps_State_setCore
          apply Keeps.ite
          · apply keeps_bankMark
            apply keeps_bankCorrected
            exact h
          · exact h
        · apply keeps_State_setCore
          apply Keeps.ite
          · apply keeps_bankMark
            apply keeps_bankCorrected
            exact h
          · exact h
      · apply Keeps.ite
        · apply keeps_State_setBank
          apply keeps_State_setCore
          apply Keeps.ite
          · apply keeps_bankMark
            apply keeps_bankCorrected
            exact h
          · exact h
        · apply keeps_State_setCore
          apply Keeps.ite
          · apply keeps_bankMark
            apply keeps_bankCorrected
            exact h
          · exact h
    · apply Keeps.ite
      · apply keeps_syncFatal
        apply Keeps.ite
        · refine Keeps.upd rfl rfl rfl rfl rfl rfl rfl ?_
          apply Keeps.ite
          · apply keeps_State_setBank
            apply keeps_State_setCore
            apply Keeps.ite
            · apply keeps_bankMark
              apply keeps_bankCorrected
              exact h
            · exact h
          · apply keeps_State_setCore
            apply Keeps.ite
            · apply keeps_bankMark
              apply keeps_bankCorrected
              exact h
            · exact h
        · apply Keeps.ite
          · apply keeps_State_setBank
            apply keeps_State_setCore
            apply Keeps.ite
            · apply keeps_bankMark
              apply keeps_bankCorrected
              exact h
            · exact h
          · apply keeps_State_setCore
            apply Keeps.ite
            · apply keeps_bankMark
              apply keeps_bankCorrected
              exact h
            · exact h
      · split
        · apply keeps_takeExc
          apply Keeps.ite
          · refine Keeps.upd rfl rfl rfl rfl rfl rfl rfl ?_
            apply Keeps.ite
            · apply keeps_State_setBank
              apply keeps_State_setCore
              apply Keeps.ite
              · apply keeps_bankMark
                apply keeps_bankCorrected
                exact h
              · exact h
            · apply keeps_State_setCore
              apply Keeps.ite
              · apply keeps_bankMark
                apply keeps_bankCorrected
                exact h
              · exact h
          · apply Keeps.ite
            · apply keeps_State_setBank
              apply keeps_State_setCore
              apply Keeps.ite
              · apply keeps_bankMark
                apply keeps_bankCorrected
                exact h
              · exact h
            · apply keeps_State_setCore
              apply Keeps.ite
              · apply keeps_bankMark
                apply keeps_bankCorrected
                exact h
              · exact h
        · split
          · apply Keeps.ite
            · apply Keeps.ite
              · refine Keeps.upd rfl rfl rfl rfl rfl rfl rfl ?_
                apply Keeps.ite
                · apply keeps_State_setBank
                  apply keeps_State_setCore
                  apply Keeps.ite
                  · apply keeps_bankMark
                    apply keeps_bankCorrected
                    exact h
                  · exact h
                · apply keeps_State_setCore
                  apply Keeps.ite
                  · apply keeps_bankMark
                    apply keeps_bankCorrected
                    exact h
                  · exact h
              · apply Keeps.ite
                · apply keeps_State_setBank
                  apply keeps_State_setCore
                  apply Keeps.ite
                  · apply keeps_bankMark
                    apply keeps_bankCorrected
                    exact h
                  · exact h
                · apply keeps_State_setCore
                  apply Keeps.ite
                  · apply keeps_bankMark
                    apply keeps_bankCorrected
                    exact h
                  · exact h
            · apply keeps_haltCore
              apply Keeps.ite
              · refine Keeps.upd rfl rfl rfl rfl rfl rfl rfl ?_
                apply Keeps.ite
                · apply keeps_State_setBank
                  apply keeps_State_setCore
                  apply Keeps.ite
                  · apply keeps_bankMark
                    apply keeps_bankCorrected
                    exact h
                  · exact h
                · apply keeps_State_setCore
                  apply Keeps.ite
                  · apply keeps_bankMark
                    apply keeps_bankCorrected
                    exact h
                  · exact h
              · apply Keeps.ite
                · apply keeps_State_setBank
                  apply keeps_State_setCore
                  apply Keeps.ite
                  · apply keeps_bankMark
                    apply keeps_bankCorrected
                    exact h
                  · exact h
                · apply keeps_State_setCore
                  apply Keeps.ite
                  · apply keeps_bankMark
                    apply keeps_bankCorrected
                    exact h
                  · exact h
          · apply Keeps.ite
            · refine Keeps.upd rfl rfl rfl rfl rfl rfl rfl ?_
              apply Keeps.ite
              · apply keeps_State_setBank
                apply keeps_State_setCore
                apply Keeps.ite
                · apply keeps_bankMark
                  apply keeps_bankCorrected
                  exact h
                · exact h
              · apply keeps_State_setCore
                apply Keeps.ite
                · apply keeps_bankMark
                  apply keeps_bankCorrected
                  exact h
                · exact h
            · apply Keeps.ite
              · apply keeps_State_setBank
                apply keeps_State_setCore
                apply Keeps.ite
                · apply keeps_bankMark
                  apply keeps_bankCorrected
                  exact h
                · exact h
              · apply keeps_State_setCore
                apply Keeps.ite
                · apply keeps_bankMark
                  apply keeps_bankCorrected
                  exact h
                · exact h

theorem keeps_endStep {s x : State} (h : Keeps s x) : ∀ a1, Keeps s (endStep x a1) := by
  intro a1
  unfold endStep
  dsimp only
  apply Keeps.ite
  · apply keeps_haltCore
    exact h
  · exact h

theorem keeps_millProtocol {s x : State} (h : Keeps s x) : ∀ a1 a2 a3, Keeps s (millProtocol x a1 a2 a3) := by
  intro a1 a2 a3
  unfold millProtocol
  apply keeps_raise
  exact h

theorem keeps_doneRecord {s x : State} (h : Keeps s x) : ∀ a1 a2, Keeps s (doneRecord x a1 a2) := by
  intro a1 a2
  unfold doneRecord
  dsimp only
  apply Keeps.ite
  · exact h
  · apply Keeps.ite
    · apply keeps_raise
      apply keeps_State_setCore
      exact h
    · apply keeps_State_setCore
      exact h

theorem keeps_doneWork {s x : State} (h : Keeps s x) : ∀ a1 a2 a3 a4 a5, Keeps s (doneWork x a1 a2 a3 a4 a5) := by
  intro a1 a2 a3 a4 a5
  unfold doneWork
  split
  split
  · apply keeps_takeExc
    apply keeps_State_setCore
    exact h
  · dsimp only
    split
    · apply keeps_takeInterrupt
      apply keeps_State_setCore
      exact h
    · apply keeps_execOps
      apply Keeps.ite
      · apply keeps_State_setCore
        exact h
      · split
        · apply keeps_millProtocol
          apply keeps_doneRecord
          apply keeps_doneRecord
          apply keeps_State_setCore
          exact h
        · apply Keeps.ite
          · apply keeps_millProtocol
            apply keeps_completeUnit
            apply keeps_doneRecord
            apply keeps_doneRecord
            apply keeps_State_setCore
            exact h
          · apply keeps_completeUnit
            apply keeps_doneRecord
            apply keeps_doneRecord
            apply keeps_State_setCore
            exact h

theorem keeps_waitWork {s x : State} (h : Keeps s x) : ∀ a1 a2, Keeps s (waitWork x a1 a2) := by
  intro a1 a2
  unfold waitWork
  dsimp only
  split
  · apply keeps_takeExc
    apply keeps_State_setCore
    exact h
  · apply keeps_drainHook
    split
    · apply keeps_State_setCore
      apply keeps_millProtocol
      apply keeps_completeUnit
      apply keeps_State_setCore
      exact h
    · apply keeps_State_setCore
      exact h

theorem keeps_issueBundle {s x : State} (h : Keeps s x) : ∀ a1 a2, Keeps s (issueBundle x a1 a2) := by
  intro a1 a2
  unfold issueBundle
  dsimp only
  apply Keeps.ite
  · apply keeps_State_setCore
    exact h
  · apply Keeps.ite
    · apply keeps_haltCore
      exact h
    · apply Keeps.ite
      · apply keeps_haltCore
        exact h
      · apply Keeps.ite
        · apply keeps_syncFatal
          exact h
        · apply Keeps.ite
          · apply keeps_syncFatal
            exact h
          · apply Keeps.ite
            · apply keeps_syncFatal
              exact h
            · split
              · apply keeps_takeInterrupt
                apply keeps_State_setCore
                exact h
              · split
                · apply keeps_takeExc
                  apply keeps_State_setCore
                  apply keeps_State_setCore
                  exact h
                · apply Keeps.ite
                  · apply keeps_syncFatal
                    apply keeps_State_setCore
                    exact h
                  · apply Keeps.ite
                    · apply keeps_syncFatal
                      apply keeps_State_setCore
                      exact h
                    · apply keeps_endStep
                      apply Keeps.ite
                      · apply keeps_waitWork
                        apply keeps_State_setCore
                        apply keeps_State_setCore
                        exact h
                      · split
                        · apply keeps_doneWork
                          apply keeps_State_setCore
                          apply keeps_State_setCore
                          exact h
                        · apply keeps_execOps
                          apply keeps_State_setCore
                          apply keeps_State_setCore
                          exact h

theorem keeps_issueNops (n : Nat) {s x : State} (h : Keeps s x) : ∀ k, Keeps s (issueNops n x k).1 := by
  induction n generalizing x with
  | zero => exact fun _ => h
  | succ n ih =>
    intro k
    unfold issueNops
    dsimp only
    apply Keeps.ite_fst
    · exact ih (keeps_issueBundle h _ _) _
    · exact keeps_issueBundle h _ _

theorem keeps_issueAll {s x : State} (h : Keeps s x) : ∀ a1 a2, Keeps s (issueAll x a1 a2) := by
  intro a1 a2
  unfold issueAll
  apply Keeps.ite
  · apply keeps_issueBundle
    exact h
  · dsimp only
    apply Keeps.ite
    · apply keeps_issueBundle
      apply keeps_State_setCore
      apply keeps_issueNops
      apply keeps_State_setCore
      exact h
    · apply keeps_issueNops
      apply keeps_State_setCore
      exact h

theorem keeps_facetOp {s x : State} (h : Keeps s x) : ∀ a1 a2 a3, Keeps s (facetOp x a1 a2 a3) := by
  intro a1 a2 a3
  unfold facetOp
  dsimp only
  apply Keeps.ite
  · exact h
  · split
    · apply Keeps.ite
      · exact h
      · apply keeps_State_setCore
        exact h
    · apply keeps_issueAll
      apply Keeps.ite
      · exact h
      · apply keeps_State_setCore
        exact h

theorem keeps_descriptorArrival {s x : State} (h : Keeps s x) : ∀ a1 a2, Keeps s (descriptorArrival x a1 a2) := by
  intro a1 a2
  unfold descriptorArrival
  dsimp only
  split
  · exact h
  · apply Keeps.ite
    · exact h
    · apply Keeps.ite
      · apply keeps_execOps
        apply keeps_State_setCore
        exact h
      · apply keeps_endStep
        apply keeps_State_setCore
        refine Keeps.upd rfl rfl rfl rfl rfl rfl rfl ?_
        apply keeps_execOps
        apply keeps_State_setCore
        exact h

theorem keeps_ctimerMatch {s x : State} (h : Keeps s x) : ∀ a1, Keeps s (ctimerMatch x a1) := by
  intro a1
  unfold ctimerMatch
  dsimp only
  apply Keeps.ite
  · exact h
  · apply keeps_State_setCore
    exact h

theorem keeps_holdLimit {s x : State} (h : Keeps s x) : ∀ a1, Keeps s (holdLimit x a1) := by
  intro a1
  unfold holdLimit
  dsimp only
  apply Keeps.ite
  · apply keeps_syncFatal
    exact h
  · exact h

theorem keeps_noteTail {s x : State} (h : Keeps s x) : ∀ a1, Keeps s (noteTail x a1) := by
  intro a1
  unfold noteTail
  split
  · refine Keeps.upd rfl rfl rfl rfl rfl rfl rfl ?_
    exact h
  · exact h

theorem keeps_coreRestore {s x : State} (h : Keeps s x) : ∀ a1, Keeps s (coreRestore x a1) := by
  intro a1
  unfold coreRestore
  dsimp only
  apply Keeps.ite
  · exact h
  · apply keeps_drainHook
    apply keeps_raise
    apply keeps_noteTail
    apply keeps_State_setCore
    exact h

theorem keeps_memModeChange {s x : State} (h : Keeps s x) : ∀ a1, Keeps s (memModeChange x a1) := by
  intro a1
  unfold memModeChange
  dsimp only
  apply Keeps.ite
  · exact h
  · apply Keeps.foldl
    · apply keeps_raise
      apply keeps_State_setCluster
      exact h
    · intro _ _ k
      apply keeps_drainHook
      assumption

theorem keeps_abortGraceExpiry {s x : State} (h : Keeps s x) : ∀ a1, Keeps s (abortGraceExpiry x a1) := by
  intro a1
  unfold abortGraceExpiry
  split
  · exact h
  · dsimp only
    apply Keeps.ite
    · exact h
    · apply keeps_raise
      apply keeps_coreFault
      exact h

theorem keeps_drainTimeout {s x : State} (h : Keeps s x) : ∀ a1, Keeps s (drainTimeout x a1) := by
  intro a1
  unfold drainTimeout
  split
  · dsimp only
    apply Keeps.ite
    · exact h
    · refine Keeps.upd rfl rfl rfl rfl rfl rfl rfl ?_
      apply keeps_State_setCore
      exact h
  · exact h

theorem keeps_bankPut {s x : State} (h : Keeps s x) : ∀ a1 a2 a3 a4 a5, Keeps s (bankPut x a1 a2 a3 a4 a5).1 := by
  intro a1 a2 a3 a4 a5
  unfold bankPut
  dsimp only
  split
  · dsimp only
    apply keeps_bankEccEvt
    exact h
  · dsimp only
    apply keeps_setBankBytes
    apply Keeps.ite
    · exact h
    · apply keeps_State_setBank
      exact h

theorem keeps_jobWrite {s x : State} (h : Keeps s x) : ∀ a1 a2 a3, Keeps s (jobWrite x a1 a2 a3).1 := by
  intro a1 a2 a3
  unfold jobWrite
  split
  · exact Keeps.ite_fst (keeps_bankPut h _ _ _ _ _) h
  · exact Keeps.ite_fst (keeps_bankPut h _ _ _ _ _) h
  · split
    · rename_i e
      exact keeps_extWrite h _ _ _ e
    · exact h
  · exact h

theorem keeps_jobWrites {s x : State} (h : Keeps s x) : ∀ a1 a2, Keeps s (jobWrites x a1 a2).1 := by
  intro a1 a2
  unfold jobWrites
  apply Keeps.foldl_fst
  · exact h
  · intro y w k
    exact Keeps.ite_fst (keeps_jobWrite k _ _ _) k

theorem keeps_readCounts {s x : State} (h : Keeps s x) : ∀ a1 a2 a3 a4, Keeps s (readCounts x a1 a2 a3 a4) := by
  intro a1 a2 a3 a4
  unfold readCounts
  dsimp only
  split
  · split
    · apply keeps_bankCorrected
      exact h
    · apply keeps_bankEccEvt
      apply keeps_State_setBank
      apply keeps_bankCorrected
      exact h
  · split
    · apply keeps_bankCorrected
      exact h
    · apply keeps_bankEccEvt
      apply keeps_State_setBank
      apply keeps_bankCorrected
      exact h
  · exact h

theorem keeps_sbApply {s x : State} (h : Keeps s x) : ∀ a1 a2 a3, Keeps s (sbApply x a1 a2 a3).1 := by
  intro a1 a2 a3
  unfold sbApply
  split
  · exact h
  · split
    · exact keeps_jobWrite h _ _ _
    · exact keeps_jobWrite h _ _ _
  · exact keeps_jobWrites h _ _

theorem keeps_sbLost {s x : State} (h : Keeps s x) : ∀ a1 a2 a3, Keeps s (sbLost x a1 a2 a3) := by
  intro a1 a2 a3
  unfold sbLost
  apply Keeps.ite
  · exact h
  · apply keeps_raise
    exact h

theorem keeps_startLdpcDecode {s x : State} (h : Keeps s x) : ∀ a1 a2 a3 a4, Keeps s (startLdpcDecode x a1 a2 a3 a4).1 := by
  intro a1 a2 a3 a4
  unfold startLdpcDecode
  dsimp only
  apply keeps_sbLost
  exact h

theorem keeps_startTbAssemble {s x : State} (h : Keeps s x) : ∀ a1 a2, Keeps s (startTbAssemble x a1 a2).1 := by
  intro a1 a2
  unfold startTbAssemble
  dsimp only
  exact h

theorem keeps_startLdpcEncode {s x : State} (h : Keeps s x) : ∀ a1 a2, Keeps s (startLdpcEncode x a1 a2).1 := by
  intro a1 a2
  unfold startLdpcEncode
  dsimp only
  exact h

theorem keeps_startPolar {s x : State} (h : Keeps s x) : ∀ a1 a2 a3, Keeps s (startPolar x a1 a2 a3).1 := by
  intro a1 a2 a3
  unfold startPolar
  dsimp only
  apply Keeps.ite_fst
  · dsimp only
    exact h
  · dsimp only
    exact h

theorem keeps_startTurboEncode {s x : State} (h : Keeps s x) : ∀ a1 a2, Keeps s (startTurboEncode x a1 a2).1 := by
  intro a1 a2
  unfold startTurboEncode
  dsimp only
  exact h

theorem keeps_startTurboDecode {s x : State} (h : Keeps s x) : ∀ a1 a2 a3 a4, Keeps s (startTurboDecode x a1 a2 a3 a4).1 := by
  intro a1 a2 a3 a4
  unfold startTurboDecode
  dsimp only
  apply keeps_sbLost
  exact h

theorem keeps_jobError {s x : State} (h : Keeps s x) : ∀ a1 a2 a3, Keeps s (jobError x a1 a2 a3) := by
  intro a1 a2 a3
  unfold jobError
  apply keeps_raiseLimited
  exact h

theorem keeps_putResult {s x : State} (h : Keeps s x) : ∀ a1 a2 a3 a4, Keeps s (putResult x a1 a2 a3 a4) := by
  intro a1 a2 a3 a4
  unfold putResult
  exact Keeps.ite h (keeps_jobWrite h _ _ _)

theorem keeps_cloveEnd {s x : State} (h : Keeps s x) : ∀ a1 a2 a3 a4, Keeps s (cloveEnd x a1 a2 a3 a4) := by
  intro a1 a2 a3 a4
  unfold cloveEnd
  apply keeps_drainHook
  apply keeps_completeItem
  exact h

theorem keeps_jobFail {s x : State} (h : Keeps s x) : ∀ a1 a2 a3, Keeps s (jobFail x a1 a2 a3) := by
  intro a1 a2 a3
  unfold jobFail
  dsimp only
  apply keeps_cloveEnd
  apply keeps_jobError
  apply Keeps.ite
  · exact h
  · apply keeps_putResult
    exact h

theorem keeps_startType {s x : State} (h : Keeps s x) : ∀ a1 a2 a3 a4 a5, Keeps s (startType x a1 a2 a3 a4 a5).1 := by
  intro a1 a2 a3 a4 a5
  unfold startType
  split
  · apply keeps_startLdpcDecode
    exact h
  · apply keeps_startLdpcEncode
    exact h
  · apply keeps_startPolar
    exact h
  · apply keeps_startPolar
    exact h
  · apply keeps_startTurboDecode
    exact h
  · apply keeps_startTurboEncode
    exact h
  · apply keeps_startTbAssemble
    exact h

theorem keeps_startChecked {s x : State} (h : Keeps s x) : ∀ a1 a2 a3 a4, Keeps s (startChecked x a1 a2 a3 a4) := by
  intro a1 a2 a3 a4
  unfold startChecked
  dsimp only
  refine Keeps.upd rfl rfl rfl rfl rfl rfl rfl ?_
  apply keeps_startType
  exact h

theorem keeps_startRecord {s x : State} (h : Keeps s x) : ∀ a1 a2 a3, Keeps s (startRecord x a1 a2 a3) := by
  intro a1 a2 a3
  unfold startRecord
  apply Keeps.ite
  · apply keeps_jobFail
    exact h
  · dsimp only
    split
    · apply keeps_jobFail
      apply keeps_bankCorrected
      apply keeps_readCounts
      exact h
    · apply keeps_startChecked
      apply keeps_bankCorrected
      apply keeps_readCounts
      exact h

theorem keeps_startJob {s x : State} (h : Keeps s x) : ∀ a1 a2 a3 a4 a5 a6, Keeps s (startJob x a1 a2 a3 a4 a5 a6) := by
  intro a1 a2 a3 a4 a5 a6
  unfold startJob
  dsimp only
  apply Keeps.ite
  · apply keeps_cloveEnd
    apply keeps_jobError
    exact h
  · apply Keeps.ite
    · apply keeps_jobFail
      apply keeps_readCounts
      exact h
    · apply keeps_startRecord
      apply keeps_readCounts
      exact h

theorem keeps_receiveJob {s x : State} (h : Keeps s x) : ∀ a1 a2 a3, Keeps s (receiveJob x a1 a2 a3) := by
  intro a1 a2 a3
  unfold receiveJob
  dsimp only
  split
  · apply Keeps.ite
    · exact h
    · apply Keeps.ite
      · refine Keeps.upd rfl rfl rfl rfl rfl rfl rfl ?_
        exact h
      · apply keeps_startJob
        refine Keeps.upd rfl rfl rfl rfl rfl rfl rfl ?_
        exact h
  · exact h

theorem keeps_turboDatapathFree {s x : State} (h : Keeps s x) : ∀ a1 a2 a3, Keeps s (turboDatapathFree x a1 a2 a3) := by
  intro a1 a2 a3
  unfold turboDatapathFree
  dsimp only
  apply Keeps.ite
  · exact h
  · split
    · exact h
    · apply keeps_startJob
      refine Keeps.upd rfl rfl rfl rfl rfl rfl rfl ?_
      exact h

theorem keeps_cloveJobCompletion {s x : State} (h : Keeps s x) : ∀ a1 a2 a3 a4, Keeps s (cloveJobCompletion x a1 a2 a3 a4) := by
  intro a1 a2 a3 a4
  unfold cloveJobCompletion
  dsimp only
  split
  · exact h
  · have k : Keeps s { x with clove := { x.clove with jobs := mapDel x.clove.jobs (pathKey a1 a2) } } :=
      Keeps.upd rfl rfl rfl rfl rfl rfl rfl h
    apply Keeps.ite
    · exact h
    · apply Keeps.ite
      · exact keeps_jobFail k _ _ _
      · rename_i j _
        have kw : Keeps s (if a4 then ({ x with clove := { x.clove with jobs := mapDel x.clove.jobs (pathKey a1 a2) } }, false)
            else jobWrites { x with clove := { x.clove with jobs := mapDel x.clove.jobs (pathKey a1 a2) } } a1 j.outs).1 :=
          Keeps.ite_fst k (keeps_jobWrites k _ _)
        apply Keeps.ite
        · apply keeps_cloveEnd
          apply keeps_putResult
          exact Keeps.ite_fst (keeps_sbApply kw _ _ _) kw
        · apply keeps_jobFail
          exact Keeps.ite_fst (keeps_sbApply kw _ _ _) kw

end Sys2Proof.Machine
end

