-- ==== Sys2Proof/Laws/KeepsPorts.lean ====
section
/-! SUPPORT. What the operations of Machine/Ports.lean, Machine/Fronthaul.lean, Machine/Radio.lean keep. -/

set_option linter.unusedTactic false
set_option linter.unreachableTactic false
set_option linter.unusedVariables false

namespace Sys2Proof.Machine

theorem keeps_portEvt {s x : State} (h : Keeps s x) : ∀ a1 a2 a3, Keeps s (portEvt x a1 a2 a3) := by
  intro a1 a2 a3
  unfold portEvt
  apply keeps_raise
  exact h

theorem keeps_modPort {s x : State} (h : Keeps s x) : ∀ a1 a2, Keeps s (modPort x a1 a2) := by
  intro a1 a2
  unfold modPort
  apply keeps_State_setPort
  exact h

theorem keeps_modLink {s x : State} (h : Keeps s x) : ∀ a1 a2 a3, Keeps s (modLink x a1 a2 a3) := by
  intro a1 a2 a3
  unfold modLink
  apply keeps_State_setLink
  exact h

theorem keeps_esmcFrame {s x : State} (h : Keeps s x) : ∀ a1 a2 a3, Keeps s (esmcFrame x a1 a2 a3) := by
  intro a1 a2 a3
  unfold esmcFrame
  apply Keeps.foldl
  · exact h
  · intro _ _ k
    apply Keeps.foldl
    · assumption
    · intro _ _ k
      apply keeps_esmcPdu
      assumption

theorem keeps_ptpLoss {s x : State} (h : Keeps s x) : ∀ a1, Keeps s (ptpLoss x a1) := by
  intro a1
  unfold ptpLoss
  dsimp only
  apply Keeps.ite
  · apply keeps_State_setPort
    exact h
  · apply keeps_portEvt
    apply keeps_State_setPort
    exact h

theorem keeps_ptpPut {s x : State} (h : Keeps s x) : ∀ a1 a2, Keeps s (ptpPut x a1 a2) := by
  intro a1 a2
  unfold ptpPut
  apply Keeps.ite
  · apply keeps_ptpLoss
    exact h
  · apply keeps_modPort
    exact h

theorem keeps_ptpFrame {s x : State} (h : Keeps s x) : ∀ a1 a2 a3 a4, Keeps s (ptpFrame x a1 a2 a3 a4) := by
  intro a1 a2 a3 a4
  unfold ptpFrame
  apply Keeps.ite
  · apply keeps_ptpLoss
    exact h
  · apply keeps_ptpPut
    exact h

theorem keeps_ptpRx {s x : State} (h : Keeps s x) : ∀ a1 a2 a3, Keeps s (ptpRx x a1 a2 a3) := by
  intro a1 a2 a3
  unfold ptpRx
  apply keeps_ptpFrame
  exact h

theorem keeps_setMidWord {s x : State} (h : Keeps s x) : ∀ a1 a2 a3, Keeps s (setMidWord x a1 a2 a3) := by
  intro a1 a2 a3
  unfold setMidWord
  apply keeps_modPort
  exact h

theorem keeps_midhaulRx {s x : State} (h : Keeps s x) : ∀ a1 a2 a3, Keeps s (midhaulRx x a1 a2 a3) := by
  intro a1 a2 a3
  unfold midhaulRx
  dsimp only
  apply Keeps.ite
  · apply keeps_modLink
    exact h
  · apply keeps_setMidWord
    apply keeps_modPort
    exact h

theorem keeps_State_setCfh {s x : State} (h : Keeps s x) : ∀ a1 a2, Keeps s (State.setCfh x a1 a2) := by
  intro a1 a2
  unfold State.setCfh
  refine Keeps.upd rfl rfl rfl rfl rfl rfl rfl ?_
  exact h

theorem keeps_modCfh {s x : State} (h : Keeps s x) : ∀ a1 a2, Keeps s (modCfh x a1 a2) := by
  intro a1 a2
  unfold modCfh
  apply keeps_State_setCfh
  exact h

theorem keeps_setDlBuf {s x : State} (h : Keeps s x) : ∀ a1 a2 a3, Keeps s (setDlBuf x a1 a2 a3) := by
  intro a1 a2 a3
  unfold setDlBuf
  apply keeps_modCfh
  exact h

theorem keeps_setCpBuf {s x : State} (h : Keeps s x) : ∀ a1 a2 a3, Keeps s (setCpBuf x a1 a2 a3) := by
  intro a1 a2 a3
  unfold setCpBuf
  apply keeps_modCfh
  exact h

theorem keeps_dlFree {s x : State} (h : Keeps s x) : ∀ a1 a2, Keeps s (dlFree x a1 a2) := by
  intro a1 a2
  unfold dlFree
  dsimp only
  apply Keeps.ite
  · apply keeps_setDlBuf
    exact h
  · exact h

theorem keeps_frameDone {s x : State} (h : Keeps s x) : ∀ a1, Keeps s (frameDone x a1) := by
  intro a1
  unfold frameDone
  apply Keeps.ite
  · exact h
  · apply Keeps.ite
    · dsimp only
      apply keeps_dlFree
      apply keeps_setDlBuf
      exact h
    · apply Keeps.ite
      · dsimp only
        apply keeps_setCpBuf
        exact h
      · exact h

theorem keeps_cpPurge {s x : State} (h : Keeps s x) : ∀ a1 a2, Keeps s (cpPurge x a1 a2) := by
  intro a1 a2
  unfold cpPurge
  dsimp only
  apply Keeps.foldl
  · apply keeps_modLink
    exact h
  · intro _ _ k
    apply keeps_frameDone
    assumption

theorem keeps_txKick {s x : State} (h : Keeps s x) : ∀ a1 a2, Keeps s (txKick x a1 a2) := by
  intro a1 a2
  unfold txKick
  dsimp only
  apply Keeps.ite
  · apply keeps_cpPurge
    exact h
  · split
    · apply keeps_State_setLink
      apply keeps_cpPurge
      exact h
    · apply keeps_cpPurge
      exact h

theorem keeps_txQueue {s x : State} (h : Keeps s x) : ∀ a1 a2 a3, Keeps s (txQueue x a1 a2 a3) := by
  intro a1 a2 a3
  unfold txQueue
  apply keeps_txKick
  apply keeps_modLink
  exact h

theorem keeps_midhaulTx (n : Nat) {s x : State} (h : Keeps s x) : ∀ p, Keeps s (midhaulTx n x p) := by
  induction n generalizing x with
  | zero => exact fun _ => h
  | succ n ih =>
    intro p
    unfold midhaulTx
    dsimp only
    repeat' first
      | exact h
      | exact ih (keeps_setMidWord h _ _ _) _
      | exact ih (keeps_setMidWord (keeps_modPort h _ _) _ _ _) _
      | exact ih (keeps_txQueue (keeps_setMidWord h _ _ _) _ _ _) _
      | apply Keeps.ite

theorem keeps_midhaulPump {s x : State} (h : Keeps s x) : ∀ a1, Keeps s (midhaulPump x a1) := by
  intro a1
  unfold midhaulPump
  apply Keeps.ite
  · apply keeps_midhaulTx
    exact h
  · exact h

theorem keeps_portLinkEvt {s x : State} (h : Keeps s x) : ∀ a1 a2 a3, Keeps s (portLinkEvt x a1 a2 a3) := by
  intro a1 a2 a3
  unfold portLinkEvt
  apply keeps_portEvt
  exact h

theorem keeps_blockEvts {s x : State} (h : Keeps s x) : ∀ a1 a2 a3, Keeps s (blockEvts x a1 a2 a3) := by
  intro a1 a2 a3
  unfold blockEvts
  apply Keeps.foldl
  · exact h
  · intro _ _ k
    apply keeps_laneLockEvt
    assumption

theorem keeps_blockLock {s x : State} (h : Keeps s x) : ∀ a1 a2, Keeps s (blockLock x a1 a2) := by
  intro a1 a2
  unfold blockLock
  dsimp only
  apply Keeps.ite
  · exact h
  · apply keeps_midhaulPump
    apply keeps_txKick
    apply keeps_portLinkEvt
    apply Keeps.foldl
    · apply keeps_blockEvts
      apply keeps_modLink
      exact h
    · intro _ _ k
      apply Keeps.ite
      · apply keeps_synceSignal
        assumption
      · assumption

theorem keeps_hiSerExit {s x : State} (h : Keeps s x) : ∀ a1 a2, Keeps s (hiSerExit x a1 a2) := by
  intro a1 a2
  unfold hiSerExit
  apply Keeps.ite
  · exact h
  · split
    dsimp only
    apply keeps_laneEvt
    apply keeps_modLink
    refine Keeps.of_snd (by assumption) ?_
    apply keeps_State_fresh
    exact h

theorem keeps_linkDown {s x : State} (h : Keeps s x) : ∀ a1 a2, Keeps s (linkDown x a1 a2) := by
  intro a1 a2
  unfold linkDown
  apply Keeps.ite
  · exact h
  · dsimp only
    apply keeps_portLinkEvt
    apply keeps_blockEvts
    apply Keeps.foldl
    · apply keeps_modPort
      apply keeps_modLink
      apply keeps_hiSerExit
      exact h
    · intro _ _ k
      apply keeps_synceSignal
      apply keeps_State_setLane
      assumption

theorem keeps_codewordLost {s x : State} (h : Keeps s x) : ∀ a1, Keeps s (codewordLost x a1) := by
  intro a1
  unfold codewordLost
  dsimp only
  apply Keeps.ite
  · exact h
  · apply keeps_laneLockEvt
    apply keeps_State_setLane
    exact h

theorem keeps_linkToClock {s x : State} (h : Keeps s x) : ∀ a1 a2, Keeps s (linkToClock x a1 a2) := by
  intro a1 a2
  unfold linkToClock
  apply Keeps.foldl
  · apply keeps_linkDown
    exact h
  · intro _ _ k
    apply keeps_codewordLost
    assumption

theorem keeps_clockRecoveryLoss {s x : State} (h : Keeps s x) : ∀ a1, Keeps s (clockRecoveryLoss x a1) := by
  intro a1
  unfold clockRecoveryLoss
  apply Keeps.ite
  · exact h
  · dsimp only
    apply keeps_abortLaneScan
    apply keeps_laneLockEvt
    apply keeps_State_setLane
    apply Keeps.ite
    · apply keeps_prbsCount
      exact h
    · apply keeps_linkToClock
      apply keeps_prbsCount
      exact h

theorem keeps_codewordLockLoss {s x : State} (h : Keeps s x) : ∀ a1, Keeps s (codewordLockLoss x a1) := by
  intro a1
  unfold codewordLockLoss
  apply Keeps.ite
  · exact h
  · apply keeps_codewordLost
    apply keeps_linkDown
    exact h

theorem keeps_laneParamEffect {s x : State} (h : Keeps s x) : ∀ a1 a2 a3 a4, Keeps s (laneParamEffect x a1 a2 a3 a4) := by
  intro a1 a2 a3 a4
  unfold laneParamEffect
  split
  · apply keeps_State_setLane
    exact h
  · apply Keeps.ite
    · exact h
    · dsimp only
      apply Keeps.ite
      · apply keeps_synceSignal
        apply Keeps.ite
        · apply keeps_linkToClock
          apply keeps_abortLaneScan
          exact h
        · apply keeps_abortLaneScan
          exact h
      · apply Keeps.ite
        · apply keeps_synceSignal
          apply Keeps.ite
          · apply keeps_linkToClock
            apply keeps_abortLaneScan
            exact h
          · apply keeps_abortLaneScan
            exact h
        · apply Keeps.ite
          · apply keeps_linkToClock
            apply keeps_abortLaneScan
            exact h
          · apply keeps_abortLaneScan
            exact h
  · apply keeps_State_setLane
    exact h

theorem keeps_eqEntryApplied {s x : State} (h : Keeps s x) : ∀ a1, Keeps s (eqEntryApplied x a1) := by
  intro a1
  unfold eqEntryApplied
  dsimp only
  split
  · exact h
  · apply keeps_laneEvt
    apply keeps_State_setLane
    apply keeps_clockRecoveryLoss
    apply keeps_abortLaneScan
    exact h

theorem keeps_serWindowEnd {s x : State} (h : Keeps s x) : ∀ a1 a2 a3, Keeps s (serWindowEnd x a1 a2 a3) := by
  intro a1 a2 a3
  unfold serWindowEnd
  dsimp only
  apply Keeps.ite
  · exact h
  · apply Keeps.ite
    · apply Keeps.foldl
      · exact h
      · intro _ _ k
        apply keeps_State_setLane
        assumption
    · apply keeps_laneEvt
      apply keeps_modLink
      apply Keeps.foldl
      · exact h
      · intro _ _ k
        apply keeps_State_setLane
        assumption

theorem keeps_restoreTrims {s x : State} (h : Keeps s x) : ∀ a1, Keeps s (restoreTrims x a1) := by
  intro a1
  unfold restoreTrims
  apply Keeps.ite
  · apply keeps_State_setLane
    exact h
  · exact h

theorem keeps_laneGroupReady {s x : State} (h : Keeps s x) : ∀ a1, Keeps s (laneGroupReady x a1) := by
  intro a1
  unfold laneGroupReady
  apply Keeps.foldl
  · exact h
  · intro _ _ k
    apply keeps_restoreTrims
    assumption

theorem keeps_maintEvt {s x : State} (h : Keeps s x) : ∀ a1 a2, Keeps s (maintEvt x a1 a2) := by
  intro a1 a2
  unfold maintEvt
  apply keeps_laneEvt
  exact h

theorem keeps_portRefs {s x : State} (h : Keeps s x) : ∀ a1 a2, Keeps s (portRefs x a1 a2) := by
  intro a1 a2
  unfold portRefs
  dsimp only
  apply Keeps.ite
  · apply Keeps.foldl
    · exact h
    · intro _ _ k
      apply Keeps.ite
      · assumption
      · apply keeps_synceSignal
        assumption
  · apply Keeps.foldl
    · apply Keeps.foldl
      · exact h
      · intro _ _ k
        apply Keeps.ite
        · assumption
        · apply keeps_synceSignal
          assumption
    · intro _ _ k
      apply Keeps.ite
      · apply keeps_updInput
        assumption
      · assumption

theorem keeps_openMaint {s x : State} (h : Keeps s x) : ∀ a1, Keeps s (openMaint x a1) := by
  intro a1
  unfold openMaint
  dsimp only
  apply keeps_maintEvt
  apply keeps_portRefs
  refine Keeps.upd rfl rfl rfl rfl rfl rfl rfl ?_
  exact h

theorem keeps_laneParamClear {s x : State} (h : Keeps s x) : ∀ a1 a2, Keeps s (laneParamClear x a1 a2) := by
  intro a1 a2
  unfold laneParamClear
  dsimp only
  apply Keeps.ite
  · exact h
  · apply keeps_laneParamEffect
    apply keeps_State_setParam
    exact h

theorem keeps_closeMaint {s x : State} (h : Keeps s x) : ∀ a1 a2, Keeps s (closeMaint x a1 a2) := by
  intro a1 a2
  unfold closeMaint
  apply Keeps.ite
  · exact h
  · dsimp only
    apply keeps_midhaulPump
    apply Keeps.foldl
    · apply keeps_maintEvt
      apply keeps_portRefs
      refine Keeps.upd rfl rfl rfl rfl rfl rfl rfl ?_
      apply Keeps.foldl
      · exact h
      · intro _ _ k
        apply keeps_laneParamClear
        apply keeps_laneParamClear
        apply keeps_laneParamClear
        assumption
    · intro _ _ k
      apply keeps_txKick
      assumption

theorem keeps_maintTimeout {s x : State} (h : Keeps s x) : ∀ a1, Keeps s (maintTimeout x a1) := by
  intro a1
  unfold maintTimeout
  split
  · apply Keeps.ite
    · exact h
    · apply keeps_closeMaint
      exact h
  · exact h

theorem keeps_cmdMaintClose {s x : State} (h : Keeps s x) : ∀ a1 a2, Keeps s (cmdMaintClose a1 a2 x) := by
  intro a1 a2
  unfold cmdMaintClose
  apply keeps_replyOk
  apply keeps_closeMaint
  exact h

theorem keeps_cmdPtpSend {s x : State} (h : Keeps s x) : ∀ a1 a2, Keeps s (cmdPtpSend a1 a2 x) := by
  intro a1 a2
  unfold cmdPtpSend
  dsimp only
  apply Keeps.ite
  · apply keeps_refuse
    exact h
  · apply Keeps.ite
    · apply keeps_refuse
      exact h
    · apply keeps_replyOk
      apply Keeps.ite
      · apply keeps_txQueue
        exact h
      · apply keeps_modPort
        exact h

theorem keeps_cmdPtpRecv {s x : State} (h : Keeps s x) : ∀ a1 a2, Keeps s (cmdPtpRecv a1 a2 x) := by
  intro a1 a2
  unfold cmdPtpRecv
  dsimp only
  apply keeps_replyOk
  apply keeps_State_setPort
  exact h

theorem keeps_modEaxc {s x : State} (h : Keeps s x) : ∀ a1 a2, Keeps s (modEaxc x a1 a2) := by
  intro a1 a2
  unfold modEaxc
  refine Keeps.upd rfl rfl rfl rfl rfl rfl rfl ?_
  exact h

theorem keeps_gainSat {s x : State} (h : Keeps s x) : ∀ a1 a2 a3 a4 a5, Keeps s (gainSat x a1 a2 a3 a4 a5) := by
  intro a1 a2 a3 a4 a5
  unfold gainSat
  apply Keeps.ite
  · exact h
  · dsimp only
    apply Keeps.ite
    · apply keeps_portEvt
      apply keeps_State_setCfh
      apply keeps_modEaxc
      exact h
    · apply keeps_State_setCfh
      apply keeps_modEaxc
      exact h

theorem keeps_parserFail {s x : State} (h : Keeps s x) : ∀ a1 a2 a3 a4, Keeps s (parserFail x a1 a2 a3 a4) := by
  intro a1 a2 a3 a4
  unfold parserFail
  dsimp only
  apply Keeps.ite
  · apply keeps_State_setPort
    apply keeps_modPort
    exact h
  · apply Keeps.ite
    · apply keeps_State_setPort
      apply keeps_modPort
      exact h
    · apply Keeps.ite
      · apply keeps_portEvt
        apply keeps_State_setPort
        apply keeps_modPort
        exact h
      · apply keeps_State_setPort
        apply keeps_modPort
        exact h

theorem keeps_rxTiming {s x : State} (h : Keeps s x) : ∀ a1 a2 a3 a4 a5, Keeps s (rxTiming x a1 a2 a3 a4 a5) := by
  intro a1 a2 a3 a4 a5
  unfold rxTiming
  apply Keeps.ite
  · exact h
  · dsimp only
    apply Keeps.ite
    · apply keeps_portEvt
      apply keeps_State_setCfh
      exact h
    · apply keeps_State_setCfh
      exact h

theorem keeps_setUlBuf {s x : State} (h : Keeps s x) : ∀ a1 a2 a3, Keeps s (setUlBuf x a1 a2 a3) := by
  intro a1 a2 a3
  unfold setUlBuf
  apply keeps_modCfh
  exact h

theorem keeps_claimBuf {s x : State} (h : Keeps s x) : ∀ a1 a2 a3 a4 a5 a6, Keeps s (claimBuf x a1 a2 a3 a4 a5 a6) := by
  intro a1 a2 a3 a4 a5 a6
  unfold claimBuf
  dsimp only
  apply keeps_setUlBuf
  split
  · apply Keeps.ite
    · apply keeps_modCfh
      exact h
    · exact h
  · exact h

theorem keeps_completeGroup {s x : State} (h : Keeps s x) : ∀ a1 a2 a3, Keeps s (completeGroup x a1 a2 a3) := by
  intro a1 a2 a3
  unfold completeGroup
  dsimp only
  apply Keeps.ite
  · exact h
  · apply keeps_flagSetOp
    apply keeps_setUlBuf
    exact h

theorem keeps_waitBuf {s x : State} (h : Keeps s x) : ∀ a1 a2 a3 a4 a5 a6, Keeps s (waitBuf x a1 a2 a3 a4 a5 a6) := by
  intro a1 a2 a3 a4 a5 a6
  unfold waitBuf
  dsimp only
  apply Keeps.ite
  · apply keeps_setUlBuf
    exact h
  · apply keeps_portEvt
    apply keeps_setUlBuf
    exact h

theorem keeps_stagePrb {s x : State} (h : Keeps s x) : ∀ a1 a2 a3 a4 a5 a6 a7, Keeps s (stagePrb x a1 a2 a3 a4 a5 a6 a7) := by
  intro a1 a2 a3 a4 a5 a6 a7
  unfold stagePrb
  dsimp only
  apply Keeps.ite
  · apply keeps_modEaxc
    exact h
  · apply keeps_gainSat
    apply keeps_modEaxc
    apply keeps_setUlBuf
    apply keeps_modPort
    exact h

theorem keeps_stageMessage {s x : State} (h : Keeps s x) : ∀ a1 a2 a3 a4 a5, Keeps s (stageMessage x a1 a2 a3 a4 a5) := by
  intro a1 a2 a3 a4 a5
  unfold stageMessage
  dsimp only
  apply Keeps.ite
  · apply keeps_modEaxc
    exact h
  · split
    · apply keeps_modEaxc
      apply keeps_modEaxc
      exact h
    · apply Keeps.ite
      · apply Keeps.ite
        · apply keeps_completeGroup
          apply Keeps.foldl
          · apply keeps_modEaxc
            exact h
          · intro _ _ k
            apply keeps_stagePrb
            assumption
        · apply Keeps.foldl
          · apply keeps_modEaxc
            exact h
          · intro _ _ k
            apply keeps_stagePrb
            assumption
      · apply Keeps.ite
        · apply Keeps.ite
          · apply keeps_completeGroup
            apply Keeps.foldl
            · apply keeps_claimBuf
              apply keeps_modEaxc
              exact h
            · intro _ _ k
              apply keeps_stagePrb
              assumption
          · apply Keeps.foldl
            · apply keeps_claimBuf
              apply keeps_modEaxc
              exact h
            · intro _ _ k
              apply keeps_stagePrb
              assumption
        · apply keeps_modEaxc
          apply keeps_waitBuf
          exact h

theorem keeps_prachGainOf {s x : State} (h : Keeps s x) : ∀ a1 a2 a3, Keeps s (prachGainOf x a1 a2 a3).2 := by
  intro a1 a2 a3
  unfold prachGainOf
  split
  · dsimp only
    exact h
  · dsimp only
    apply keeps_modCfh
    exact h

theorem keeps_prachMessage {s x : State} (h : Keeps s x) : ∀ a1 a2 a3 a4 a5 a6, Keeps s (prachMessage x a1 a2 a3 a4 a5 a6) := by
  intro a1 a2 a3 a4 a5 a6
  unfold prachMessage
  dsimp only
  apply Keeps.ite
  · apply keeps_modEaxc
    exact h
  · split
    · apply keeps_gainSat
      apply keeps_modEaxc
      apply keeps_prachGainOf
      apply keeps_modEaxc
      exact h
    · apply Keeps.ite
      · apply keeps_modEaxc
        apply keeps_gainSat
        apply keeps_modEaxc
        apply keeps_prachGainOf
        apply keeps_modEaxc
        exact h
      · apply keeps_modCfh
        apply keeps_gainSat
        apply keeps_modEaxc
        apply keeps_prachGainOf
        apply keeps_modEaxc
        exact h

theorem keeps_uplane {s x : State} (h : Keeps s x) : ∀ a1 a2 a3 a4, Keeps s (uplane x a1 a2 a3 a4) := by
  intro a1 a2 a3 a4
  unfold uplane
  dsimp only
  apply Keeps.ite
  · apply keeps_modEaxc
    apply keeps_modEaxc
    exact h
  · apply Keeps.ite
    · apply keeps_rxTiming
      apply keeps_modEaxc
      apply keeps_modEaxc
      exact h
    · apply Keeps.ite
      · apply keeps_rxTiming
        apply keeps_modEaxc
        apply keeps_modEaxc
        exact h
      · apply Keeps.ite
        · apply keeps_stageMessage
          apply keeps_modEaxc
          exact h
        · apply keeps_prachMessage
          apply keeps_modEaxc
          exact h

theorem keeps_delayResponse {s x : State} (h : Keeps s x) : ∀ a1 a2 a3, Keeps s (delayResponse x a1 a2 a3) := by
  intro a1 a2 a3
  unfold delayResponse
  dsimp only
  apply keeps_txQueue
  exact h

theorem keeps_parser {s x : State} (h : Keeps s x) : ∀ a1 a2 a3, Keeps s (parser x a1 a2 a3) := by
  intro a1 a2 a3
  unfold parser
  split
  · apply keeps_parserFail
    exact h
  · dsimp only
    apply Keeps.ite
    · apply Keeps.ite
      · apply keeps_delayResponse
        exact h
      · apply keeps_ptpFrame
        exact h
    · split
      · apply keeps_parserFail
        exact h
      · apply Keeps.ite
        · apply keeps_parserFail
          exact h
        · split
          · apply keeps_parserFail
            exact h
          · apply keeps_uplane
            exact h

theorem keeps_classify {s x : State} (h : Keeps s x) : ∀ a1 a2 a3, Keeps s (classify x a1 a2 a3) := by
  intro a1 a2 a3
  unfold classify
  dsimp only
  apply Keeps.ite
  · apply keeps_ptpRx
    exact h
  · apply Keeps.ite
    · apply keeps_ptpRx
      exact h
    · apply Keeps.ite
      · apply keeps_ptpRx
        exact h
      · apply Keeps.ite
        · apply keeps_ptpRx
          exact h
        · apply keeps_parser
          exact h

theorem keeps_noiseAdd {s x : State} (h : Keeps s x) : ∀ a1 a2 a3, Keeps s (noiseAdd x a1 a2 a3) := by
  intro a1 a2 a3
  unfold noiseAdd
  dsimp only
  apply Keeps.ite
  · exact h
  · apply Keeps.foldl
    · exact h
    · intro _ _ k
      refine Keeps.upd rfl rfl rfl rfl rfl rfl rfl ?_
      assumption

theorem keeps_countMissing {s x : State} (h : Keeps s x) : ∀ a1 a2 a3 a4, Keeps s (countMissing x a1 a2 a3 a4) := by
  intro a1 a2 a3 a4
  unfold countMissing
  dsimp only
  apply keeps_rxTiming
  apply Keeps.foldl
  · exact h
  · intro _ _ k
    split
    · apply keeps_modEaxc
      assumption
    · assumption

theorem keeps_closeGroup {s x : State} (h : Keeps s x) : ∀ a1 a2 a3 a4, Keeps s (closeGroup x a1 a2 a3 a4) := by
  intro a1 a2 a3 a4
  unfold closeGroup
  dsimp only
  split
  · apply Keeps.ite
    · exact h
    · apply Keeps.ite
      · apply keeps_setUlBuf
        apply keeps_flagSetOp
        apply keeps_countMissing
        exact h
      · apply keeps_flagSetOp
        apply keeps_countMissing
        exact h
  · apply Keeps.ite
    · apply keeps_waitBuf
      apply Keeps.ite
      · apply keeps_claimBuf
        exact h
      · exact h
    · apply Keeps.ite
      · apply Keeps.ite
        · apply keeps_claimBuf
          exact h
        · exact h
      · apply keeps_completeGroup
        apply keeps_countMissing
        apply Keeps.ite
        · apply keeps_claimBuf
          exact h
        · exact h

theorem keeps_windowPrune {s x : State} (h : Keeps s x) : ∀ a1 a2, Keeps s (windowPrune x a1 a2) := by
  intro a1 a2
  unfold windowPrune
  apply keeps_modCfh
  exact h

theorem keeps_rxWindowClose {s x : State} (h : Keeps s x) : ∀ a1 a2 a3, Keeps s (rxWindowClose x a1 a2 a3) := by
  intro a1 a2 a3
  unfold rxWindowClose
  split
  · exact h
  · dsimp only
    apply Keeps.ite
    · exact h
    · apply Keeps.ite
      · apply keeps_windowPrune
        apply keeps_modCfh
        exact h
      · apply keeps_windowPrune
        apply keeps_noiseAdd
        apply Keeps.foldl
        · apply keeps_modCfh
          exact h
        · intro _ _ k
          apply keeps_closeGroup
          assumption

theorem keeps_doorbellBad {s x : State} (h : Keeps s x) : ∀ a1, Keeps s (doorbellBad x a1) := by
  intro a1
  unfold doorbellBad
  apply keeps_modPort
  exact h

theorem keeps_doorbellUl {s x : State} (h : Keeps s x) : ∀ a1 a2 a3, Keeps s (doorbellUl x a1 a2 a3) := by
  intro a1 a2 a3
  unfold doorbellUl
  apply Keeps.ite
  · apply keeps_doorbellBad
    exact h
  · dsimp only
    apply Keeps.ite
    · exact h
    · split
      · apply keeps_setUlBuf
        exact h
      · apply Keeps.ite
        · apply keeps_completeGroup
          apply keeps_claimBuf
          exact h
        · apply keeps_claimBuf
          exact h

theorem keeps_doorbellDl {s x : State} (h : Keeps s x) : ∀ a1 a2 a3, Keeps s (doorbellDl x a1 a2 a3) := by
  intro a1 a2 a3
  unfold doorbellDl
  apply Keeps.ite
  · apply keeps_doorbellBad
    exact h
  · apply keeps_setDlBuf
    exact h

theorem keeps_doorbellCp {s x : State} (h : Keeps s x) : ∀ a1 a2 a3, Keeps s (doorbellCp x a1 a2 a3) := by
  intro a1 a2 a3
  unfold doorbellCp
  dsimp only
  apply Keeps.ite
  · apply keeps_doorbellBad
    apply keeps_cpPurge
    exact h
  · apply keeps_setCpBuf
    apply keeps_cpPurge
    exact h

theorem keeps_stagingDoorbell {s x : State} (h : Keeps s x) : ∀ a1 a2, Keeps s (stagingDoorbell x a1 a2) := by
  intro a1 a2
  unfold stagingDoorbell
  dsimp only
  split
  · apply keeps_doorbellUl
    exact h
  · apply keeps_doorbellDl
    exact h
  · apply keeps_doorbellCp
    exact h
  · apply keeps_doorbellBad
    exact h

theorem keeps_sendUplane {s x : State} (h : Keeps s x) : ∀ a1 a2 a3 a4 a5 a6 a7 a8 a9 a10, Keeps s (sendUplane x a1 a2 a3 a4 a5 a6 a7 a8 a9 a10) := by
  intro a1 a2 a3 a4 a5 a6 a7 a8 a9 a10
  unfold sendUplane
  dsimp only
  apply keeps_txQueue
  apply Keeps.ite
  · apply keeps_modEaxc
    exact h
  · apply keeps_setDlBuf
    apply keeps_modEaxc
    exact h

theorem keeps_sendSection (n : Nat) {s x : State} (h : Keeps s x) : ∀ p c y k buf id start w prbs,
    Keeps s (sendSection n x p c y k buf id start w prbs) := by
  induction n generalizing x with
  | zero => exact fun _ _ _ _ _ _ _ _ _ => h
  | succ n ih =>
    intro p c y k buf id start w prbs
    unfold sendSection
    dsimp only
    apply Keeps.ite
    · exact h
    · exact ih (keeps_sendUplane h _ _ _ _ _ _ _ _ _ _) _ _ _ _ _ _ _ _ _

theorem keeps_txUnderrun {s x : State} (h : Keeps s x) : ∀ a1 a2 a3, Keeps s (txUnderrun x a1 a2 a3) := by
  intro a1 a2 a3
  unfold txUnderrun
  apply keeps_raiseLimited
  exact h

theorem keeps_zeroStream {s x : State} (h : Keeps s x) : ∀ a1 a2 a3 a4, Keeps s (zeroStream x a1 a2 a3 a4) := by
  intro a1 a2 a3 a4
  unfold zeroStream
  dsimp only
  apply Keeps.ite
  · exact h
  · apply keeps_sendSection
    exact h

theorem keeps_sendZero {s x : State} (h : Keeps s x) : ∀ a1 a2 a3 a4, Keeps s (sendZero x a1 a2 a3 a4) := by
  intro a1 a2 a3 a4
  unfold sendZero
  apply Keeps.foldl
  · exact h
  · intro _ _ k
    split
    · apply keeps_zeroStream
      assumption
    · assumption

theorem keeps_safeReplace {s x : State} (h : Keeps s x) : ∀ a1 a2, Keeps s (safeReplace x a1 a2) := by
  intro a1 a2
  unfold safeReplace
  dsimp only
  apply Keeps.ite
  · exact h
  · apply Keeps.foldl
    · apply Keeps.foldl
      · apply keeps_modLink
        exact h
      · intro _ _ k
        apply keeps_frameDone
        assumption
    · intro _ _ k
      apply keeps_zeroStream
      assumption

theorem keeps_sendStream {s x : State} (h : Keeps s x) : ∀ a1 a2 a3 a4 a5, Keeps s (sendStream x a1 a2 a3 a4 a5).1 := by
  intro a1 a2 a3 a4 a5
  unfold sendStream
  split
  · dsimp only
    exact h
  · dsimp only
    apply Keeps.ite_fst
    · dsimp only
      exact h
    · dsimp only
      apply Keeps.foldl
      · exact h
      · intro _ _ k
        apply keeps_sendSection
        apply keeps_gainSat
        assumption

theorem keeps_dlReadyDeadline {s x : State} (h : Keeps s x) : ∀ a1 a2 a3, Keeps s (dlReadyDeadline x a1 a2 a3) := by
  intro a1 a2 a3
  unfold dlReadyDeadline
  split
  · exact h
  · dsimp only
    apply Keeps.ite
    · exact h
    · apply Keeps.ite
      · apply Keeps.foldl_fst
        · dsimp only
          apply keeps_modCfh
          exact h
        · intro _ _ k
          apply Keeps.ite_fst
          · dsimp only
            apply keeps_setDlBuf
            assumption
          · dsimp only
            assumption
      · apply Keeps.ite
        · apply keeps_txUnderrun
          apply Keeps.foldl_fst
          · dsimp only
            apply keeps_modCfh
            exact h
          · intro _ _ k
            apply Keeps.ite_fst
            · dsimp only
              apply keeps_setDlBuf
              assumption
            · dsimp only
              assumption
        · apply keeps_modCfh
          apply Keeps.foldl_fst
          · dsimp only
            apply keeps_modCfh
            exact h
          · intro _ _ k
            apply Keeps.ite_fst
            · dsimp only
              apply keeps_setDlBuf
              assumption
            · dsimp only
              assumption

theorem keeps_sendGroup {s x : State} (h : Keeps s x) : ∀ a1 a2 a3 a4, Keeps s (sendGroup x a1 a2 a3 a4).1 := by
  intro a1 a2 a3 a4
  unfold sendGroup
  dsimp only
  apply Keeps.ite_fst
  · dsimp only
    apply Keeps.ite
    · apply keeps_dlFree
      apply keeps_sendZero
      exact h
    · apply keeps_sendZero
      exact h
  · dsimp only
    apply keeps_dlFree
    apply Keeps.foldl_fst
    · dsimp only
      exact h
    · intro _ _ k
      dsimp only
      apply keeps_sendStream
      assumption

theorem keeps_dlTxWindowOpen {s x : State} (h : Keeps s x) : ∀ a1 a2 a3, Keeps s (dlTxWindowOpen x a1 a2 a3) := by
  intro a1 a2 a3
  unfold dlTxWindowOpen
  split
  · exact h
  · dsimp only
    apply Keeps.ite
    · exact h
    · apply Keeps.ite
      · apply Keeps.foldl
        · apply keeps_modCfh
          apply keeps_safeReplace
          exact h
        · intro _ _ k
          apply Keeps.ite
          · apply keeps_dlFree
            assumption
          · assumption
      · apply Keeps.ite
        · apply keeps_txUnderrun
          apply Keeps.foldl_fst
          · dsimp only
            apply Keeps.ite
            · apply keeps_txUnderrun
              apply keeps_modCfh
              apply keeps_safeReplace
              exact h
            · apply keeps_modCfh
              apply keeps_safeReplace
              exact h
          · intro _ _ k
            dsimp only
            apply keeps_sendGroup
            assumption
        · apply Keeps.foldl_fst
          · dsimp only
            apply Keeps.ite
            · apply keeps_txUnderrun
              apply keeps_modCfh
              apply keeps_safeReplace
              exact h
            · apply keeps_modCfh
              apply keeps_safeReplace
              exact h
          · intro _ _ k
            dsimp only
            apply keeps_sendGroup
            assumption

theorem keeps_dlTxWindowClose {s x : State} (h : Keeps s x) : ∀ a1 a2 a3, Keeps s (dlTxWindowClose x a1 a2 a3) := by
  intro a1 a2 a3
  unfold dlTxWindowClose
  split
  · exact h
  · dsimp only
    apply Keeps.ite
    · exact h
    · apply Keeps.ite
      · apply Keeps.foldl
        · apply keeps_modLink
          split
          · apply Keeps.ite
            · apply keeps_modEaxc
              apply keeps_modCfh
              exact h
            · apply keeps_modCfh
              exact h
          · apply keeps_modCfh
            exact h
        · intro _ _ k
          apply keeps_frameDone
          assumption
      · apply keeps_modLink
        apply Keeps.foldl
        · apply keeps_modLink
          split
          · apply Keeps.ite
            · apply keeps_modEaxc
              apply keeps_modCfh
              exact h
            · apply keeps_modCfh
              exact h
          · apply keeps_modCfh
            exact h
        · intro _ _ k
          apply keeps_frameDone
          assumption

theorem keeps_cplaneReject {s x : State} (h : Keeps s x) : ∀ a1 a2 a3 a4, Keeps s (cplaneReject x a1 a2 a3 a4) := by
  intro a1 a2 a3 a4
  unfold cplaneReject
  apply keeps_portEvt
  exact h

theorem keeps_cplaneReadyDeadline {s x : State} (h : Keeps s x) : ∀ a1 a2, Keeps s (cplaneReadyDeadline x a1 a2) := by
  intro a1 a2
  unfold cplaneReadyDeadline
  split
  · exact h
  · dsimp only
    apply Keeps.ite
    · exact h
    · apply Keeps.ite
      · apply keeps_setCpBuf
        apply keeps_modCfh
        exact h
      · apply keeps_cplaneReject
        apply keeps_modCfh
        exact h

theorem keeps_idleRecord {s x : State} (h : Keeps s x) : ∀ a1 a2 a3 a4, Keeps s (idleRecord x a1 a2 a3 a4) := by
  intro a1 a2 a3 a4
  unfold idleRecord
  dsimp only
  apply Keeps.ite
  · apply keeps_raiseLimited
    apply keeps_modCfh
    exact h
  · apply keeps_modCfh
    exact h

theorem keeps_sendCplane {s x : State} (h : Keeps s x) : ∀ a1 a2 a3 a4 a5 a6, Keeps s (sendCplane x a1 a2 a3 a4 a5 a6) := by
  intro a1 a2 a3 a4 a5 a6
  unfold sendCplane
  dsimp only
  apply keeps_txQueue
  apply keeps_setCpBuf
  apply keeps_modEaxc
  exact h

theorem keeps_cplaneRecord {s x : State} (h : Keeps s x) : ∀ a1 a2 a3 a4 a5, Keeps s (cplaneRecord x a1 a2 a3 a4 a5) := by
  intro a1 a2 a3 a4 a5
  unfold cplaneRecord
  dsimp only
  apply Keeps.ite
  · apply keeps_cplaneReject
    exact h
  · apply Keeps.ite
    · apply keeps_idleRecord
      exact h
    · apply Keeps.ite
      · exact h
      · apply Keeps.ite
        · apply keeps_cplaneReject
          exact h
        · apply Keeps.ite
          · apply keeps_cplaneReject
            exact h
          · apply Keeps.ite
            · apply keeps_cplaneReject
              exact h
            · apply keeps_sendCplane
              exact h

theorem keeps_cplaneTxWindowOpen {s x : State} (h : Keeps s x) : ∀ a1 a2, Keeps s (cplaneTxWindowOpen x a1 a2) := by
  intro a1 a2
  unfold cplaneTxWindowOpen
  split
  · exact h
  · dsimp only
    apply Keeps.ite
    · exact h
    · apply Keeps.ite
      · apply keeps_modCfh
        exact h
      · apply Keeps.ite
        · apply keeps_setCpBuf
          apply Keeps.foldl
          · apply keeps_modCfh
            exact h
          · intro _ _ k
            apply keeps_cplaneRecord
            assumption
        · apply Keeps.foldl
          · apply keeps_modCfh
            exact h
          · intro _ _ k
            apply keeps_cplaneRecord
            assumption

theorem keeps_cplaneSent {s x : State} (h : Keeps s x) : ∀ a1 a2 a3 a4, Keeps s (cplaneSent x a1 a2 a3 a4) := by
  intro a1 a2 a3 a4
  unfold cplaneSent
  dsimp only
  apply Keeps.foldl
  · exact h
  · intro _ _ k
    apply Keeps.ite
    · apply keeps_modCfh
      apply keeps_modCfh
      assumption
    · apply keeps_modCfh
      assumption

theorem keeps_txStamp {s x : State} (h : Keeps s x) : ∀ a1 a2 a3 a4, Keeps s (txStamp x a1 a2 a3 a4) := by
  intro a1 a2 a3 a4
  unfold txStamp
  split
  · apply keeps_ptpPut
    exact h
  · dsimp only
    apply Keeps.ite
    · apply keeps_ptpPut
      refine Keeps.upd rfl rfl rfl rfl rfl rfl rfl ?_
      exact h
    · exact h

theorem keeps_frameTransmitted {s x : State} (h : Keeps s x) : ∀ a1 a2, Keeps s (frameTransmitted x a1 a2) := by
  intro a1 a2
  unfold frameTransmitted
  dsimp only
  split
  · exact h
  · apply keeps_txKick
    apply keeps_midhaulPump
    apply keeps_safeReplace
    split
    · apply keeps_frameDone
      apply keeps_State_setLink
      exact h
    · apply keeps_cplaneSent
      apply keeps_frameDone
      apply keeps_State_setLink
      exact h
    · apply keeps_txStamp
      apply keeps_State_setLink
      exact h
    · apply keeps_txStamp
      apply keeps_State_setLink
      exact h
    · apply keeps_State_setLink
      exact h

theorem keeps_fhActivate {s x : State} (h : Keeps s x) : ∀ a1, Keeps s (fhActivate x a1) := by
  intro a1
  unfold fhActivate
  dsimp only
  apply keeps_modCfh
  refine Keeps.upd rfl rfl rfl rfl rfl rfl rfl ?_
  exact h

theorem keeps_fhDeactivate {s x : State} (h : Keeps s x) : ∀ a1, Keeps s (fhDeactivate x a1) := by
  intro a1
  unfold fhDeactivate
  dsimp only
  refine Keeps.upd rfl rfl rfl rfl rfl rfl rfl ?_
  apply keeps_modCfh
  exact h

theorem keeps_noiseWindowEnd {s x : State} (h : Keeps s x) : ∀ a1 a2, Keeps s (noiseWindowEnd x a1 a2) := by
  intro a1 a2
  unfold noiseWindowEnd
  split
  · exact h
  · dsimp only
    apply Keeps.ite
    · exact h
    · apply Keeps.foldl
      · apply keeps_modCfh
        exact h
      · intro _ _ k
        refine Keeps.upd rfl rfl rfl rfl rfl rfl rfl ?_
        assumption

theorem keeps_gainChanged {s x : State} (h : Keeps s x) : ∀ a1, Keeps s (gainChanged x a1) := by
  intro a1
  unfold gainChanged
  refine Keeps.upd rfl rfl rfl rfl rfl rfl rfl ?_
  exact h

theorem keeps_prachPump (n : Nat) {s x : State} (h : Keeps s x) : ∀ p, Keeps s (prachPump n x p) := by
  induction n generalizing x with
  | zero => exact fun _ => h
  | succ n ih =>
    intro p
    unfold prachPump
    split
    · exact h
    · exact h
    · rename_i e _
      have k : ∀ o, Keeps s { x with ports := { x.ports with prachOut := o } } := fun o => Keeps.upd rfl rfl rfl rfl rfl rfl rfl h
      dsimp only
      apply Keeps.ite
      · cases e
        exact ih (keeps_issue (k _) _ _ _ _ _ _ _ _ _) _
      · exact keeps_issue (k _) _ _ _ _ _ _ _ _ _

theorem keeps_prachWritten {s x : State} (h : Keeps s x) : ∀ a1, Keeps s (prachWritten x a1) := by
  intro a1
  unfold prachWritten
  apply Keeps.ite
  · exact h
  · apply keeps_prachPump
    exact h

theorem keeps_prachReport {s x : State} (h : Keeps s x) : ∀ a1 a2 a3 a4 a5 a6, Keeps s (prachReport x a1 a2 a3 a4 a5 a6) := by
  intro a1 a2 a3 a4 a5 a6
  unfold prachReport
  dsimp only
  apply Keeps.ite
  · apply keeps_State_setCfh
    exact h
  · apply keeps_prachWritten
    refine Keeps.upd rfl rfl rfl rfl rfl rfl rfl ?_
    apply keeps_modCfh
    apply keeps_State_setCfh
    exact h

theorem keeps_prachOverload {s x : State} (h : Keeps s x) : ∀ a1 a2, Keeps s (prachOverload x a1 a2) := by
  intro a1 a2
  unfold prachOverload
  split
  dsimp only
  apply keeps_portEvt
  apply keeps_prachReport
  refine Keeps.of_snd (by assumption) ?_
  apply keeps_State_fresh
  exact h

theorem keeps_prachOccasionClose {s x : State} (h : Keeps s x) : ∀ a1 a2 a3, Keeps s (prachOccasionClose x a1 a2 a3) := by
  intro a1 a2 a3
  unfold prachOccasionClose
  split
  · exact h
  · dsimp only
    split
    · exact h
    · apply Keeps.ite
      · exact h
      · apply Keeps.ite
        · apply keeps_prachOverload
          apply keeps_modCfh
          exact h
        · refine Keeps.upd rfl rfl rfl rfl rfl rfl rfl ?_
          apply keeps_modCfh
          exact h

theorem keeps_prachStartTimeout {s x : State} (h : Keeps s x) : ∀ a1, Keeps s (prachStartTimeout x a1) := by
  intro a1
  unfold prachStartTimeout
  split
  · exact h
  · apply Keeps.ite
    · apply keeps_prachOverload
      refine Keeps.upd rfl rfl rfl rfl rfl rfl rfl ?_
      exact h
    · exact h

theorem keeps_prachProcessingStart {s x : State} (h : Keeps s x) : ∀ a1, Keeps s (prachProcessingStart x a1) := by
  intro a1
  unfold prachProcessingStart
  split
  · apply Keeps.ite
    · exact h
    · refine Keeps.upd rfl rfl rfl rfl rfl rfl rfl ?_
      exact h
  · exact h

theorem keeps_prachProcessingEnd {s x : State} (h : Keeps s x) : ∀ a1, Keeps s (prachProcessingEnd x a1) := by
  intro a1
  unfold prachProcessingEnd
  split
  · exact h
  · dsimp only
    apply Keeps.ite
    · exact h
    · apply Keeps.ite
      · apply keeps_prachReport
        apply keeps_State_fresh
        refine Keeps.upd rfl rfl rfl rfl rfl rfl rfl ?_
        exact h
      · apply Keeps.ite
        · apply keeps_prachReport
          apply keeps_State_fresh
          refine Keeps.upd rfl rfl rfl rfl rfl rfl rfl ?_
          exact h
        · apply keeps_prachReport
          apply keeps_State_fresh
          refine Keeps.upd rfl rfl rfl rfl rfl rfl rfl ?_
          exact h

theorem keeps_cmdNoiseRead {s x : State} (h : Keeps s x) : ∀ a1 a2, Keeps s (cmdNoiseRead a1 a2 x) := by
  intro a1 a2
  unfold cmdNoiseRead
  dsimp only
  split
  · apply keeps_refuse
    exact h
  · apply keeps_replyOk
    exact h

theorem keeps_cmdRadioStatus {s x : State} (h : Keeps s x) : ∀ a1 a2, Keeps s (cmdRadioStatus a1 a2 x) := by
  intro a1 a2
  unfold cmdRadioStatus
  dsimp only
  apply keeps_replyOk
  exact h

theorem keeps_cmdFhCounters {s x : State} (h : Keeps s x) : ∀ a1 a2, Keeps s (cmdFhCounters a1 a2 x) := by
  intro a1 a2
  unfold cmdFhCounters
  dsimp only
  apply keeps_replyFields
  exact h

theorem keeps_cmdFhExcRead {s x : State} (h : Keeps s x) : ∀ a1 a2, Keeps s (cmdFhExcRead a1 a2 x) := by
  intro a1 a2
  unfold cmdFhExcRead
  dsimp only
  apply Keeps.ite
  · apply keeps_refuse
    exact h
  · apply keeps_replyOk
    apply keeps_State_setPort
    exact h

end Sys2Proof.Machine
end

