-- ==== Sys2Proof/Laws/KeepsPower.lean ====
section
/-! SUPPORT. What the operations of Machine/Power.lean keep. -/

set_option linter.unusedTactic false
set_option linter.unreachableTactic false
set_option linter.unusedVariables false

namespace Sys2Proof.Machine

theorem keeps_lanimanEvt {s x : State} (h : Keeps s x) : ∀ a1 a2, Keeps s (lanimanEvt x a1 a2) := by
  intro a1 a2
  unfold lanimanEvt
  apply keeps_raise
  exact h

theorem keeps_writeWake {s x : State} (h : Keeps s x) : ∀ a1 a2, Keeps s (writeWake x a1 a2) := by
  intro a1 a2
  unfold writeWake
  refine Keeps.upd rfl rfl rfl rfl rfl rfl rfl ?_
  exact h

theorem keeps_fenceBegin {s x : State} (h : Keeps s x) : ∀ a1 a2, Keeps s (fenceBegin x a1 a2) := by
  intro a1 a2
  unfold fenceBegin
  refine Keeps.upd rfl rfl rfl rfl rfl rfl rfl ?_
  exact h

theorem keeps_offAsk {s x : State} (h : Keeps s x) : ∀ a1 a2 a3, Keeps s (offAsk x a1 a2 a3) := by
  intro a1 a2 a3
  unfold offAsk
  apply Keeps.ite
  · exact h
  · apply Keeps.ite
    · apply Keeps.foldl
      · refine Keeps.upd rfl rfl rfl rfl rfl rfl rfl ?_
        exact h
      · intro _ _ k
        apply keeps_drainUnit
        assumption
    · apply keeps_fenceBegin
      exact h

theorem keeps_fenceReq {s x : State} (h : Keeps s x) : ∀ a1, Keeps s (fenceReq x a1) := by
  intro a1
  unfold fenceReq
  split
  · exact h
  · dsimp only
    split
    · apply Keeps.ite
      · apply keeps_State_setNi
        split
        · apply Keeps.ite
          · apply keeps_fenceBegin
            exact h
          · exact h
        · assumption
      · split
        · apply Keeps.ite
          · apply keeps_fenceBegin
            exact h
          · exact h
        · assumption
    · split
      · apply Keeps.ite
        · apply keeps_fenceBegin
          exact h
        · exact h
      · assumption

theorem keeps_keepCore {s x : State} (h : Keeps s x) : ∀ a1, Keeps s (keepCore x a1) := by
  intro a1
  unfold keepCore
  dsimp only
  refine Keeps.upd rfl rfl rfl rfl rfl rfl rfl ?_
  exact h

theorem keeps_loseCore {s x : State} (h : Keeps s x) : ∀ a1, Keeps s (loseCore x a1) := by
  intro a1
  unfold loseCore
  apply keeps_State_setCore
  apply keeps_keepCore
  exact h

theorem keeps_loseClove {s x : State} (h : Keeps s x) : ∀ a1, Keeps s (loseClove x a1) := by
  intro a1
  unfold loseClove
  refine Keeps.upd rfl rfl rfl rfl rfl rfl rfl ?_
  exact h

theorem keeps_loseLane {s x : State} (h : Keeps s x) : ∀ a1, Keeps s (loseLane x a1) := by
  intro a1
  unfold loseLane
  dsimp only
  apply keeps_State_setLane
  apply keeps_clockRecoveryLoss
  exact h

theorem keeps_loseDomain {s x : State} (h : Keeps s x) : ∀ a1, Keeps s (loseDomain x a1) := by
  intro a1
  unfold loseDomain
  apply Keeps.ite
  · apply Keeps.foldl
    · exact h
    · intro _ _ k
      apply keeps_loseCore
      assumption
  · apply Keeps.ite
    · apply Keeps.foldl
      · exact h
      · intro _ _ k
        apply keeps_loseClove
        assumption
    · apply Keeps.ite
      · dsimp only
        apply Keeps.foldl
        · apply Keeps.foldl
          · apply Keeps.foldl
            · apply keeps_abortScan
              exact h
            · intro _ _ k
              apply keeps_linkDown
              assumption
          · intro _ _ k
            apply keeps_loseLane
            assumption
        · intro _ _ k
          apply keeps_State_setPort
          assumption
      · exact h

theorem keeps_powerUp {s x : State} (h : Keeps s x) : ∀ a1 a2, Keeps s (powerUp x a1 a2) := by
  intro a1 a2
  unfold powerUp
  apply Keeps.ite
  · exact h
  · apply Keeps.ite
    · refine Keeps.upd rfl rfl rfl rfl rfl rfl rfl ?_
      exact h
    · apply Keeps.ite
      · dsimp only
        apply Keeps.ite
        · apply Keeps.foldl
          · refine Keeps.upd rfl rfl rfl rfl rfl rfl rfl ?_
            exact h
          · intro _ _ k
            apply keeps_releaseCore
            assumption
        · refine Keeps.upd rfl rfl rfl rfl rfl rfl rfl ?_
          exact h
      · refine Keeps.upd rfl rfl rfl rfl rfl rfl rfl ?_
        exact h

theorem keeps_waitDone {s x : State} (h : Keeps s x) : ∀ a1, Keeps s (waitDone x a1) := by
  intro a1
  unfold waitDone
  split
  · refine Keeps.upd rfl rfl rfl rfl rfl rfl rfl ?_
    exact h
  · exact h

theorem keeps_domainOff {s x : State} (h : Keeps s x) : ∀ a1, Keeps s (domainOff x a1) := by
  intro a1
  unfold domainOff
  dsimp only
  split
  · apply keeps_powerUp
    apply keeps_waitDone
    apply keeps_lanimanEvt
    refine Keeps.upd rfl rfl rfl rfl rfl rfl rfl ?_
    apply keeps_loseDomain
    exact h
  · apply keeps_waitDone
    apply keeps_lanimanEvt
    refine Keeps.upd rfl rfl rfl rfl rfl rfl rfl ?_
    apply keeps_loseDomain
    exact h

theorem keeps_fenceAck {s x : State} (h : Keeps s x) : ∀ a1, Keeps s (fenceAck x a1) := by
  intro a1
  unfold fenceAck
  split
  · exact h
  · apply Keeps.ite
    · exact h
    · dsimp only
      apply Keeps.ite
      · apply keeps_domainOff
        refine Keeps.upd rfl rfl rfl rfl rfl rfl rfl ?_
        exact h
      · refine Keeps.upd rfl rfl rfl rfl rfl rfl rfl ?_
        exact h

theorem keeps_fenceTimeout {s x : State} (h : Keeps s x) : ∀ a1, Keeps s (fenceTimeout x a1) := by
  intro a1
  unfold fenceTimeout
  split
  · exact h
  · apply Keeps.ite
    · exact h
    · dsimp only
      apply keeps_domainOff
      apply keeps_lanimanEvt
      apply Keeps.foldl
      · exact h
      · intro _ _ k
        apply keeps_masterReset
        assumption

theorem keeps_wakeCore {s x : State} (h : Keeps s x) : ∀ a1, Keeps s (wakeCore x a1) := by
  intro a1
  unfold wakeCore
  split
  dsimp only
  apply keeps_releaseCore
  apply keeps_noteTail
  apply keeps_State_setCore
  exact h

theorem keeps_domainPowerUpComplete {s x : State} (h : Keeps s x) : ∀ a1, Keeps s (domainPowerUpComplete x a1) := by
  intro a1
  unfold domainPowerUpComplete
  split
  · exact h
  · dsimp only
    apply keeps_waitDone
    apply keeps_lanimanEvt
    apply Keeps.ite
    · apply Keeps.foldl
      · refine Keeps.upd rfl rfl rfl rfl rfl rfl rfl ?_
        apply Keeps.foldl
        · exact h
        · intro _ _ k
          apply keeps_State_setNi
          apply keeps_masterReset
          assumption
      · intro _ _ k
        apply keeps_wakeCore
        assumption
    · apply Keeps.foldl
      · refine Keeps.upd rfl rfl rfl rfl rfl rfl rfl ?_
        apply Keeps.foldl
        · exact h
        · intro _ _ k
          apply keeps_State_setNi
          apply keeps_masterReset
          assumption
      · intro _ _ k
        apply keeps_releaseCore
        assumption

theorem keeps_planSync {s x : State} (h : Keeps s x) : ∀ a1, Keeps s (planSync x a1) := by
  intro a1
  unfold planSync
  dsimp only
  apply Keeps.ite
  · apply Keeps.ite
    · apply keeps_powerUp
      exact h
    · apply keeps_offAsk
      exact h
  · apply Keeps.ite
    · apply Keeps.ite
      · apply keeps_powerUp
        exact h
      · apply Keeps.ite
        · apply keeps_offAsk
          exact h
        · exact h
    · exact h

theorem keeps_idleWatch {s x : State} (h : Keeps s x) : Keeps s (idleWatch x) := by
  unfold idleWatch
  dsimp only
  apply Keeps.ite
  · exact h
  · refine Keeps.upd rfl rfl rfl rfl rfl rfl rfl ?_
    exact h

theorem keeps_demandIdleExpiry {s x : State} (h : Keeps s x) : ∀ a1, Keeps s (demandIdleExpiry x a1) := by
  intro a1
  unfold demandIdleExpiry
  dsimp only
  apply Keeps.ite
  · apply keeps_offAsk
    exact h
  · exact h

theorem keeps_demandWake {s x : State} (h : Keeps s x) : ∀ a1, Keeps s (demandWake x a1) := by
  intro a1
  unfold demandWake
  apply Keeps.ite
  · apply keeps_powerUp
    apply keeps_writeWake
    exact h
  · exact h

theorem keeps_wakePacket {s x : State} (h : Keeps s x) : ∀ a1, Keeps s (wakePacket x a1) := by
  intro a1
  unfold wakePacket
  dsimp only
  apply Keeps.ite
  · apply keeps_powerUp
    apply keeps_writeWake
    exact h
  · exact h

theorem keeps_cmdPowerStateSet {s x : State} (h : Keeps s x) : ∀ a1 a2, Keeps s (cmdPowerStateSet a1 a2 x) := by
  intro a1 a2
  unfold cmdPowerStateSet
  dsimp only
  apply Keeps.ite
  · apply keeps_refuse
    exact h
  · apply Keeps.ite
    · apply keeps_refuse
      exact h
    · apply Keeps.ite
      · apply keeps_replyOk
        exact h
      · split
        · apply Keeps.foldl
          · refine Keeps.upd rfl rfl rfl rfl rfl rfl rfl ?_
            exact h
          · intro _ _ k
            apply keeps_powerUp
            assumption
        · apply Keeps.foldl
          · refine Keeps.upd rfl rfl rfl rfl rfl rfl rfl ?_
            exact h
          · intro _ _ k
            apply keeps_offAsk
            assumption
        · split
          · apply keeps_refuse
            exact h
          · apply Keeps.foldl
            · refine Keeps.upd rfl rfl rfl rfl rfl rfl rfl ?_
              apply Keeps.foldl
              · exact h
              · intro _ _ k
                apply keeps_State_setSlc
                assumption
            · intro _ _ k
              apply keeps_offAsk
              assumption

theorem keeps_powerStateEvt {s x : State} (h : Keeps s x) : ∀ a1 a2 a3, Keeps s (powerStateEvt x a1 a2 a3) := by
  intro a1 a2 a3
  unfold powerStateEvt
  apply keeps_lanimanEvt
  exact h

theorem keeps_powerTransitionComplete {s x : State} (h : Keeps s x) : Keeps s (powerTransitionComplete x) := by
  unfold powerTransitionComplete
  split
  · exact h
  · dsimp only
    apply Keeps.ite
    · exact h
    · refine keeps_setDevState (keeps_powerStateEvt (keeps_replyOk ?_ _ _) _ _ _) _ (by split <;> [decide; (split <;> decide)])
      have k : Keeps s { x with power := { x.power with wait := none } } := Keeps.upd rfl rfl rfl rfl rfl rfl rfl h
      apply Keeps.ite
      · exact keeps_flushTile (keeps_flushTile k _) _
      · apply Keeps.ite
        · exact keeps_writeWake k _ _
        · exact k

theorem keeps_wakeHold {s x : State} (h : Keeps s x) : ∀ a1 a2 a3, Keeps s (wakeHold x a1 a2 a3) := by
  intro a1 a2 a3
  unfold wakeHold
  apply Keeps.ite
  · dsimp only
    refine Keeps.upd rfl rfl rfl rfl rfl rfl rfl ?_
    apply keeps_writeWake
    exact h
  · exact h

theorem keeps_wakeN {s x : State} (h : Keeps s x) : Keeps s (wakeN x) := by
  unfold wakeN
  apply keeps_wakeHold
  exact h

theorem keeps_hostPortActivityWake {s x : State} (h : Keeps s x) : ∀ a1, Keeps s (hostPortActivityWake x a1) := by
  intro a1
  unfold hostPortActivityWake
  apply keeps_wakeHold
  exact h

theorem keeps_State_setStretch {s x : State} (h : Keeps s x) : ∀ a1 a2, Keeps s (State.setStretch x a1 a2) := by
  intro a1 a2
  unfold State.setStretch
  refine Keeps.upd rfl rfl rfl rfl rfl rfl rfl ?_
  exact h

theorem keeps_droopDetect {s x : State} (h : Keeps s x) : ∀ a1 a2, Keeps s (droopDetect x a1 a2) := by
  intro a1 a2
  unfold droopDetect
  dsimp only
  apply Keeps.ite
  · apply keeps_State_setStretch
    exact h
  · exact h

theorem keeps_droopLevelFall {s x : State} (h : Keeps s x) : ∀ a1, Keeps s (droopLevelFall x a1) := by
  intro a1
  unfold droopLevelFall
  dsimp only
  apply Keeps.ite
  · exact h
  · apply keeps_State_setStretch
    exact h

theorem keeps_stretchWindowEnd {s x : State} (h : Keeps s x) : Keeps s (stretchWindowEnd x) := by
  unfold stretchWindowEnd
  apply Keeps.ite
  · exact h
  · apply Keeps.foldl
    · refine Keeps.upd rfl rfl rfl rfl rfl rfl rfl ?_
      exact h
    · intro _ _ k
      dsimp only
      apply Keeps.ite
      · apply keeps_lanimanEvt
        apply keeps_State_setStretch
        assumption
      · apply keeps_State_setStretch
        assumption

theorem keeps_State_setTilePlan {s x : State} (h : Keeps s x) : ∀ a1 a2, Keeps s (State.setTilePlan x a1 a2) := by
  intro a1 a2
  unfold State.setTilePlan
  refine Keeps.upd rfl rfl rfl rfl rfl rfl rfl ?_
  exact h

theorem keeps_writeAgeRecord {s x : State} (h : Keeps s x) : Keeps s (writeAgeRecord x) := by
  unfold writeAgeRecord
  dsimp only
  refine h.setFlash rfl rfl rfl rfl fun k => ?_
  apply bytesWrite_wf
  apply bytesClear_wf
  exact k

theorem keeps_ageingStepEvt {s x : State} (h : Keeps s x) : ∀ a1 a2 a3, Keeps s (ageingStepEvt x a1 a2 a3) := by
  intro a1 a2 a3
  unfold ageingStepEvt
  dsimp only
  apply keeps_lanimanEvt
  exact h

theorem keeps_ageStep {s x : State} (h : Keeps s x) : ∀ a1 a2 a3, Keeps s (ageStep x a1 a2 a3) := by
  intro a1 a2 a3
  unfold ageStep
  dsimp only
  split
  · apply keeps_State_setTilePlan
    exact h
  · apply keeps_State_setTilePlan
    exact h
  · apply keeps_ageingStepEvt
    apply keeps_writeAgeRecord
    apply keeps_setReason
    apply keeps_State_setTilePlan
    exact h
  · apply keeps_ageingStepEvt
    apply keeps_writeAgeRecord
    apply keeps_State_setTilePlan
    exact h
  · apply keeps_ageingStepEvt
    apply keeps_writeAgeRecord
    apply keeps_offAsk
    apply keeps_State_setTilePlan
    exact h
  · apply keeps_ageingStepEvt
    apply keeps_writeAgeRecord
    apply keeps_offAsk
    apply keeps_State_setTilePlan
    exact h
  · apply keeps_ageingStepEvt
    apply keeps_writeAgeRecord
    apply keeps_State_setTilePlan
    exact h

theorem keeps_sampleTile {s x : State} (h : Keeps s x) : ∀ a1 a2, Keeps s (sampleTile x a1 a2) := by
  intro a1 a2
  unfold sampleTile
  dsimp only
  apply Keeps.ite
  · apply keeps_lanimanEvt
    refine Keeps.upd rfl rfl rfl rfl rfl rfl rfl ?_
    apply keeps_State_setTilePlan
    exact h
  · refine Keeps.upd rfl rfl rfl rfl rfl rfl rfl ?_
    apply keeps_State_setTilePlan
    exact h

theorem keeps_ageingSample {s x : State} (h : Keeps s x) : ∀ a1, Keeps s (ageingSample x a1) := by
  intro a1
  unfold ageingSample
  apply Keeps.ite
  · exact h
  · dsimp only
    apply Keeps.foldl
    · refine Keeps.upd rfl rfl rfl rfl rfl rfl rfl ?_
      apply Keeps.foldl
      · exact h
      · intro _ _ k
        apply keeps_sampleTile
        assumption
    · intro _ _ k
      apply Keeps.ite
      · apply keeps_setReason
        assumption
      · assumption

theorem keeps_replanTile {s x : State} (h : Keeps s x) : ∀ a1, Keeps s (replanTile x a1) := by
  intro a1
  unfold replanTile
  dsimp only
  split
  · exact h
  · apply Keeps.ite
    · exact h
    · split
      · apply keeps_State_setTilePlan
        exact h
      · split
        · apply keeps_ageStep
          apply Keeps.foldl
          · apply keeps_State_setTilePlan
            exact h
          · intro _ _ k
            apply keeps_setReason
            assumption
        · apply Keeps.foldl
          · apply keeps_State_setTilePlan
            exact h
          · intro _ _ k
            apply keeps_setReason
            assumption

theorem keeps_replanBoundary {s x : State} (h : Keeps s x) : Keeps s (replanBoundary x) := by
  unfold replanBoundary
  apply Keeps.foldl
  · exact h
  · intro _ _ k
    apply keeps_replanTile
    assumption

theorem keeps_marginFlag {s x : State} (h : Keeps s x) : ∀ a1 a2 a3, Keeps s (marginFlag x a1 a2 a3) := by
  intro a1 a2 a3
  unfold marginFlag
  dsimp only
  apply Keeps.ite
  · apply keeps_lanimanEvt
    exact h
  · apply Keeps.ite
    · apply Keeps.ite
      · apply keeps_setReason
        apply keeps_State_setTilePlan
        apply Keeps.ite
        · apply keeps_State_setTilePlan
          apply keeps_lanimanEvt
          exact h
        · apply keeps_lanimanEvt
          exact h
      · apply Keeps.ite
        · apply keeps_State_setTilePlan
          apply keeps_lanimanEvt
          exact h
        · apply keeps_lanimanEvt
          exact h
    · split
      · apply keeps_ageStep
        apply Keeps.ite
        · apply keeps_setReason
          apply keeps_State_setTilePlan
          apply Keeps.ite
          · apply keeps_State_setTilePlan
            apply keeps_lanimanEvt
            exact h
          · apply keeps_lanimanEvt
            exact h
        · apply Keeps.ite
          · apply keeps_State_setTilePlan
            apply keeps_lanimanEvt
            exact h
          · apply keeps_lanimanEvt
            exact h
      · apply Keeps.ite
        · apply keeps_setReason
          apply keeps_State_setTilePlan
          apply Keeps.ite
          · apply keeps_State_setTilePlan
            apply keeps_lanimanEvt
            exact h
          · apply keeps_lanimanEvt
            exact h
        · apply Keeps.ite
          · apply keeps_State_setTilePlan
            apply keeps_lanimanEvt
            exact h
          · apply keeps_lanimanEvt
            exact h

theorem keeps_avsWriteComplete {s x : State} (h : Keeps s x) : ∀ a1 a2, Keeps s (avsWriteComplete x a1 a2) := by
  intro a1 a2
  unfold avsWriteComplete
  dsimp only
  split
  · exact h
  · apply Keeps.ite
    · apply Keeps.ite
      · apply keeps_ageingStepEvt
        apply keeps_State_setTilePlan
        exact h
      · apply keeps_State_setTilePlan
        exact h
    · apply keeps_lanimanEvt
      apply keeps_State_setTilePlan
      exact h

theorem keeps_cmdAgeingReport {s x : State} (h : Keeps s x) : ∀ a1 a2, Keeps s (cmdAgeingReport a1 a2 x) := by
  intro a1 a2
  unfold cmdAgeingReport
  dsimp only
  apply keeps_replyOk
  exact h

theorem keeps_cmdAgeingHistory {s x : State} (h : Keeps s x) : ∀ a1 a2, Keeps s (cmdAgeingHistory a1 a2 x) := by
  intro a1 a2
  unfold cmdAgeingHistory
  dsimp only
  apply keeps_replyOk
  exact h

theorem keeps_cmdPowerStatus {s x : State} (h : Keeps s x) : ∀ a1 a2, Keeps s (cmdPowerStatus a1 a2 x) := by
  intro a1 a2
  unfold cmdPowerStatus
  dsimp only
  apply keeps_replyOk
  exact h

theorem keeps_trendScanDone {s x : State} (h : Keeps s x) : ∀ a1 a2, Keeps s (trendScanDone x a1 a2) := by
  intro a1 a2
  unfold trendScanDone
  split
  · exact h
  · apply Keeps.ite
    · exact h
    · dsimp only
      apply Keeps.ite
      · apply keeps_lanimanEvt
        apply keeps_State_setLane
        refine Keeps.upd rfl rfl rfl rfl rfl rfl rfl ?_
        exact h
      · apply keeps_State_setLane
        refine Keeps.upd rfl rfl rfl rfl rfl rfl rfl ?_
        exact h

end Sys2Proof.Machine
end

