-- ==== Sys2Proof/Laws/KeepsPool.lean ====
section
/-! SUPPORT. What the operations of Machine/Digest.lean, Machine/Pool.lean keep. -/

set_option linter.unusedTactic false
set_option linter.unreachableTactic false
set_option linter.unusedVariables false

namespace Sys2Proof.Machine

theorem keeps_cmdCfgDigest {s x : State} (h : Keeps s x) : ∀ a1 a2, Keeps s (cmdCfgDigest a1 a2 x) := by
  intro a1 a2
  unfold cmdCfgDigest
  dsimp only
  apply keeps_replyOk
  exact h

theorem keeps_State_setPeer {s x : State} (h : Keeps s x) : ∀ a1 a2, Keeps s (State.setPeer x a1 a2) := by
  intro a1 a2
  unfold State.setPeer
  refine Keeps.upd rfl rfl rfl rfl rfl rfl rfl ?_
  exact h

theorem keeps_State_setPoolLink {s x : State} (h : Keeps s x) : ∀ a1 a2, Keeps s (State.setPoolLink x a1 a2) := by
  intro a1 a2
  unfold State.setPoolLink
  refine Keeps.upd rfl rfl rfl rfl rfl rfl rfl ?_
  exact h

theorem keeps_poolEvt {s x : State} (h : Keeps s x) : ∀ a1 a2, Keeps s (poolEvt x a1 a2) := by
  intro a1 a2
  unfold poolEvt
  apply keeps_raise
  exact h

theorem keeps_State_setKeySlot {s x : State} (h : Keeps s x) : ∀ a1 a2, Keeps s (State.setKeySlot x a1 a2) := by
  intro a1 a2
  unfold State.setKeySlot
  apply Keeps.ite
  · refine Keeps.upd rfl rfl rfl rfl rfl rfl rfl ?_
    exact h
  · refine Keeps.upd rfl rfl rfl rfl rfl rfl rfl ?_
    exact h

theorem keeps_poolSendOn {s x : State} (h : Keeps s x) : ∀ a1 a2 a3 a4, Keeps s (poolSendOn x a1 a2 a3 a4) := by
  intro a1 a2 a3 a4
  unfold poolSendOn
  dsimp only
  apply Keeps.ite
  · exact h
  · apply keeps_txQueue
    apply Keeps.ite
    · apply keeps_poolEvt
      apply keeps_State_setKeySlot
      exact h
    · apply keeps_State_setKeySlot
      exact h

theorem keeps_poolSend {s x : State} (h : Keeps s x) : ∀ a1 a2 a3, Keeps s (poolSend x a1 a2 a3) := by
  intro a1 a2 a3
  unfold poolSend
  split
  · apply keeps_poolSendOn
    exact h
  · exact h

theorem keeps_poolDrop {s x : State} (h : Keeps s x) : ∀ a1 a2 a3, Keeps s (poolDrop x a1 a2 a3) := by
  intro a1 a2 a3
  unfold poolDrop
  dsimp only
  apply keeps_raiseLimited
  refine Keeps.upd rfl rfl rfl rfl rfl rfl rfl ?_
  exact h

theorem keeps_setOwner {s x : State} (h : Keeps s x) : ∀ a1 a2 a3, Keeps s (setOwner x a1 a2 a3) := by
  intro a1 a2 a3
  unfold setOwner
  refine Keeps.upd rfl rfl rfl rfl rfl rfl rfl ?_
  exact h

theorem keeps_ownerEvt {s x : State} (h : Keeps s x) : ∀ a1 a2 a3 a4 a5, Keeps s (ownerEvt x a1 a2 a3 a4 a5) := by
  intro a1 a2 a3 a4 a5
  unfold ownerEvt
  apply keeps_poolEvt
  exact h

theorem keeps_sendClaim {s x : State} (h : Keeps s x) : ∀ a1 a2 a3 a4, Keeps s (sendClaim x a1 a2 a3 a4) := by
  intro a1 a2 a3 a4
  unfold sendClaim
  apply keeps_poolSend
  exact h

theorem keeps_announce {s x : State} (h : Keeps s x) : ∀ a1 a2, Keeps s (announce x a1 a2) := by
  intro a1 a2
  unfold announce
  apply Keeps.foldl
  · exact h
  · intro _ _ k
    apply keeps_sendClaim
    assumption

theorem keeps_sendFull {s x : State} (h : Keeps s x) : ∀ a1, Keeps s (sendFull x a1) := by
  intro a1
  unfold sendFull
  dsimp only
  apply Keeps.ite
  · apply keeps_sendClaim
    exact h
  · apply keeps_sendClaim
    apply keeps_sendClaim
    exact h

theorem keeps_carrierStart {s x : State} (h : Keeps s x) : ∀ a1, Keeps s (carrierStart x a1) := by
  intro a1
  unfold carrierStart
  dsimp only
  refine Keeps.upd rfl rfl rfl rfl rfl rfl rfl ?_
  apply Keeps.foldl
  · apply keeps_fhActivate
    exact h
  · intro _ _ k
    apply keeps_setTier
    assumption

theorem keeps_carrierStop {s x : State} (h : Keeps s x) : ∀ a1, Keeps s (carrierStop x a1) := by
  intro a1
  unfold carrierStop
  apply keeps_fhDeactivate
  apply keeps_dropCarrier
  exact h

theorem keeps_mirrorEvt {s x : State} (h : Keeps s x) : ∀ a1 a2 a3 a4, Keeps s (mirrorEvt x a1 a2 a3 a4) := by
  intro a1 a2 a3 a4
  unfold mirrorEvt
  apply keeps_poolEvt
  exact h

theorem keeps_resyncStart {s x : State} (h : Keeps s x) : ∀ a1 a2, Keeps s (resyncStart x a1 a2) := by
  intro a1 a2
  unfold resyncStart
  dsimp only
  apply keeps_mirrorEvt
  refine Keeps.upd rfl rfl rfl rfl rfl rfl rfl ?_
  exact h

theorem keeps_mirrorSync {s x : State} (h : Keeps s x) : ∀ a1, Keeps s (mirrorSync x a1) := by
  intro a1
  unfold mirrorSync
  split
  · refine Keeps.upd rfl rfl rfl rfl rfl rfl rfl ?_
    exact h
  · apply Keeps.ite
    · exact h
    · apply Keeps.ite
      · apply keeps_resyncStart
        exact h
      · refine Keeps.upd rfl rfl rfl rfl rfl rfl rfl ?_
        exact h

theorem keeps_becomeOwner {s x : State} (h : Keeps s x) : ∀ a1 a2 a3, Keeps s (becomeOwner x a1 a2 a3) := by
  intro a1 a2 a3
  unfold becomeOwner
  dsimp only
  apply keeps_mirrorSync
  apply keeps_ownerEvt
  apply keeps_announce
  apply Keeps.ite
  · apply keeps_carrierStart
    apply keeps_setOwner
    exact h
  · apply keeps_setOwner
    exact h

theorem keeps_becomeStandby {s x : State} (h : Keeps s x) : ∀ a1 a2 a3 a4, Keeps s (becomeStandby x a1 a2 a3 a4) := by
  intro a1 a2 a3 a4
  unfold becomeStandby
  dsimp only
  apply keeps_mirrorSync
  apply keeps_ownerEvt
  apply keeps_setOwner
  apply keeps_carrierStop
  exact h

theorem keeps_carrierActivate {s x : State} (h : Keeps s x) : ∀ a1, Keeps s (carrierActivate x a1) := by
  intro a1
  unfold carrierActivate
  apply Keeps.ite
  · apply keeps_carrierStart
    exact h
  · split
    apply Keeps.ite
    · apply keeps_mirrorSync
      apply keeps_carrierStart
      exact h
    · apply Keeps.ite
      · dsimp only
        apply keeps_mirrorSync
        apply keeps_ownerEvt
        apply keeps_announce
        apply keeps_carrierStart
        apply keeps_setOwner
        exact h
      · exact h

theorem keeps_carrierDeactivate {s x : State} (h : Keeps s x) : ∀ a1, Keeps s (carrierDeactivate x a1) := by
  intro a1
  unfold carrierDeactivate
  dsimp only
  apply Keeps.ite
  · apply keeps_mirrorSync
    apply keeps_ownerEvt
    apply keeps_announce
    apply keeps_setOwner
    apply keeps_carrierStop
    exact h
  · apply keeps_carrierStop
    exact h

theorem keeps_claimEntry {s x : State} (h : Keeps s x) : ∀ a1 a2 a3 a4, Keeps s (claimEntry x a1 a2 a3 a4) := by
  intro a1 a2 a3 a4
  unfold claimEntry
  split
  dsimp only
  apply Keeps.ite
  · apply Keeps.ite
    · apply keeps_setOwner
      exact h
    · exact h
  · apply Keeps.ite
    · apply Keeps.ite
      · apply Keeps.ite
        · refine Keeps.upd rfl rfl rfl rfl rfl rfl rfl ?_
          exact h
        · exact h
      · apply keeps_ownerEvt
        exact h
    · apply Keeps.ite
      · apply keeps_setOwner
        exact h
      · exact h

theorem keeps_claimRecv {s x : State} (h : Keeps s x) : ∀ a1 a2, Keeps s (claimRecv x a1 a2) := by
  intro a1 a2
  unfold claimRecv
  dsimp only
  apply Keeps.foldl
  · exact h
  · intro _ _ k
    apply Keeps.ite
    · assumption
    · apply keeps_claimEntry
      assumption

theorem keeps_claimLostStandby {s x : State} (h : Keeps s x) : ∀ a1, Keeps s (claimLostStandby x a1) := by
  intro a1
  unfold claimLostStandby
  split
  · exact h
  · apply keeps_becomeStandby
    refine Keeps.upd rfl rfl rfl rfl rfl rfl rfl ?_
    exact h

theorem keeps_heartbeatSend {s x : State} (h : Keeps s x) : Keeps s (heartbeatSend x) := by
  unfold heartbeatSend
  apply Keeps.ite
  · exact h
  · dsimp only
    apply Keeps.foldl
    · refine Keeps.upd rfl rfl rfl rfl rfl rfl rfl ?_
      exact h
    · intro _ _ k
      apply Keeps.foldl
      · assumption
      · intro _ _ k
        apply keeps_poolSendOn
        assumption

theorem keeps_poolSent {s x : State} (h : Keeps s x) : ∀ a1 a2, Keeps s (poolSent x a1 a2) := by
  intro a1 a2
  unfold poolSent
  apply Keeps.ite
  · dsimp only
    apply keeps_State_setPoolLink
    exact h
  · exact h

theorem keeps_peerUp {s x : State} (h : Keeps s x) : ∀ a1, Keeps s (peerUp x a1) := by
  intro a1
  unfold peerUp
  dsimp only
  apply Keeps.foldl
  · apply keeps_sendFull
    apply keeps_poolEvt
    apply keeps_State_setPeer
    exact h
  · intro _ _ k
    apply keeps_resyncStart
    assumption

theorem keeps_offsetMeasure {s x : State} (h : Keeps s x) : ∀ a1 a2 a3 a4, Keeps s (offsetMeasure x a1 a2 a3 a4) := by
  intro a1 a2 a3 a4
  unfold offsetMeasure
  dsimp only
  split
  · apply Keeps.ite
    · apply keeps_State_setPeer
      apply keeps_State_setPoolLink
      exact h
    · apply keeps_State_setPoolLink
      exact h
  · apply keeps_State_setPoolLink
    exact h

theorem keeps_heartbeatRecv {s x : State} (h : Keeps s x) : ∀ a1 a2 a3 a4, Keeps s (heartbeatRecv x a1 a2 a3 a4) := by
  intro a1 a2 a3 a4
  unfold heartbeatRecv
  dsimp only
  apply Keeps.ite
  · apply Keeps.ite
    · apply keeps_offsetMeasure
      apply keeps_State_setPoolLink
      apply keeps_State_setPeer
      exact h
    · apply keeps_State_setPeer
      exact h
  · apply keeps_peerUp
    apply Keeps.ite
    · apply keeps_offsetMeasure
      apply keeps_State_setPoolLink
      apply keeps_State_setPeer
      exact h
    · apply keeps_State_setPeer
      exact h

theorem keeps_peerUnreachable {s x : State} (h : Keeps s x) : ∀ a1, Keeps s (peerUnreachable x a1) := by
  intro a1
  unfold peerUnreachable
  dsimp only
  apply Keeps.ite
  · exact h
  · refine Keeps.upd rfl rfl rfl rfl rfl rfl rfl ?_
    apply keeps_poolEvt
    apply keeps_State_setPeer
    exact h

theorem keeps_timeOffsetEvaluation {s x : State} (h : Keeps s x) : Keeps s (timeOffsetEvaluation x) := by
  unfold timeOffsetEvaluation
  apply Keeps.ite
  · exact h
  · apply Keeps.foldl
    · refine Keeps.upd rfl rfl rfl rfl rfl rfl rfl ?_
      exact h
    · intro _ _ k
      dsimp only
      apply Keeps.ite
      · assumption
      · apply Keeps.ite
        · apply keeps_State_setPeer
          assumption
        · apply keeps_poolEvt
          apply keeps_State_setPeer
          assumption

theorem keeps_stateSend {s x : State} (h : Keeps s x) : Keeps s (stateSend x) := by
  unfold stateSend
  apply Keeps.ite
  · exact h
  · dsimp only
    apply Keeps.foldl
    · refine Keeps.upd rfl rfl rfl rfl rfl rfl rfl ?_
      exact h
    · intro _ _ k
      apply keeps_poolSend
      assumption

theorem keeps_stateRecv {s x : State} (h : Keeps s x) : ∀ a1 a2, Keeps s (stateRecv x a1 a2) := by
  intro a1 a2
  unfold stateRecv
  dsimp only
  apply Keeps.ite
  · apply Keeps.ite
    · apply keeps_poolEvt
      apply keeps_State_setPeer
      exact h
    · apply keeps_State_setPeer
      exact h
  · apply keeps_poolEvt
    apply Keeps.ite
    · apply keeps_poolEvt
      apply keeps_State_setPeer
      exact h
    · apply keeps_State_setPeer
      exact h

theorem keeps_mirrorRecv {s x : State} (h : Keeps s x) : ∀ a1 a2, Keeps s (mirrorRecv x a1 a2) := by
  intro a1 a2
  unfold mirrorRecv
  dsimp only
  apply Keeps.ite
  · refine Keeps.upd rfl rfl rfl rfl rfl rfl rfl ?_
    exact h
  · split
    · apply keeps_extWriteD <;> try assumption
    · apply keeps_mirrorEvt
      exact h

theorem keeps_mirrorSendOn {s x : State} (h : Keeps s x) : ∀ a1 a2 a3 a4 a5, Keeps s (mirrorSendOn x a1 a2 a3 a4 a5) := by
  intro a1 a2 a3 a4 a5
  unfold mirrorSendOn
  dsimp only
  apply keeps_poolSendOn
  refine Keeps.upd rfl rfl rfl rfl rfl rfl rfl ?_
  exact h

theorem keeps_mirrorSendPage {s x : State} (h : Keeps s x) : ∀ a1 a2 a3, Keeps s (mirrorSendPage x a1 a2 a3) := by
  intro a1 a2 a3
  unfold mirrorSendPage
  generalize extRead x (a3 * 2048) 2048 = o
  cases o with
  | none => exact h
  | some d =>
    generalize poolRoute x a2 a1 = p
    cases p with
    | none => exact h
    | some p => exact keeps_mirrorSendOn h _ _ _ _ _

theorem keeps_mirrorSend {s x : State} (h : Keeps s x) : ∀ a1 a2 a3, Keeps s (mirrorSend x a1 a2 a3) := by
  intro a1 a2 a3
  unfold mirrorSend
  apply keeps_mirrorSendPage
  refine Keeps.upd rfl rfl rfl rfl rfl rfl rfl ?_
  exact h

theorem keeps_mirrorPageSend {s x : State} (h : Keeps s x) : ∀ a1, Keeps s (mirrorPageSend x a1) := by
  intro a1
  unfold mirrorPageSend
  split
  · exact h
  · apply Keeps.ite
    · exact h
    · apply Keeps.ite
      · exact h
      · split
        · dsimp only
          apply Keeps.ite
          · refine Keeps.upd rfl rfl rfl rfl rfl rfl rfl ?_
            apply keeps_mirrorSend
            exact h
          · apply keeps_mirrorEvt
            refine Keeps.upd rfl rfl rfl rfl rfl rfl rfl ?_
            apply keeps_mirrorSend
            exact h
        · split
          · apply keeps_mirrorSend
            exact h
          · exact h

theorem keeps_mirrorLagExceeded {s x : State} (h : Keeps s x) : ∀ a1, Keeps s (mirrorLagExceeded x a1) := by
  intro a1
  unfold mirrorLagExceeded
  split
  · exact h
  · dsimp only
    apply Keeps.ite
    · exact h
    · apply keeps_raiseLimited
      exact h

theorem keeps_cmdTakeover {s x : State} (h : Keeps s x) : ∀ a1 a2, Keeps s (cmdTakeover a1 a2 x) := by
  intro a1 a2
  unfold cmdTakeover
  dsimp only
  apply Keeps.ite
  · apply keeps_refuse
    exact h
  · apply Keeps.ite
    · apply keeps_reply
      exact h
    · apply Keeps.ite
      · apply keeps_refuse
        exact h
      · apply Keeps.ite
        · apply keeps_refuse
          exact h
        · apply Keeps.ite
          · apply keeps_refuse
            exact h
          · refine Keeps.upd rfl rfl rfl rfl rfl rfl rfl ?_
            exact h

theorem keeps_takeoverSwitch {s x : State} (h : Keeps s x) : ∀ a1, Keeps s (takeoverSwitch x a1) := by
  intro a1
  unfold takeoverSwitch
  split
  · exact h
  · apply Keeps.ite
    · exact h
    · dsimp only
      apply keeps_replyOk
      apply keeps_becomeOwner
      refine Keeps.upd rfl rfl rfl rfl rfl rfl rfl ?_
      exact h

theorem keeps_sendMigrate {s x : State} (h : Keeps s x) : ∀ a1 a2 a3 a4 a5, Keeps s (sendMigrate x a1 a2 a3 a4 a5) := by
  intro a1 a2 a3 a4 a5
  unfold sendMigrate
  apply keeps_poolSend
  exact h

theorem keeps_cmdMigrate {s x : State} (h : Keeps s x) : ∀ a1 a2, Keeps s (cmdMigrate a1 a2 x) := by
  intro a1 a2
  unfold cmdMigrate
  dsimp only
  apply Keeps.ite
  · apply keeps_refuse
    exact h
  · apply Keeps.ite
    · apply keeps_refuse
      exact h
    · apply Keeps.ite
      · apply keeps_refuse
        exact h
      · apply Keeps.ite
        · apply keeps_refuse
          exact h
        · apply Keeps.ite
          · apply keeps_refuse
            exact h
          · apply Keeps.ite
            · apply keeps_refuse
              exact h
            · apply keeps_sendMigrate
              refine Keeps.upd rfl rfl rfl rfl rfl rfl rfl ?_
              exact h

theorem keeps_answerReady {s x : State} (h : Keeps s x) : ∀ a1, Keeps s (answerReady x a1) := by
  intro a1
  unfold answerReady
  split
  · exact h
  · apply Keeps.ite
    · exact h
    · split
      apply Keeps.ite
      · apply keeps_sendMigrate
        refine Keeps.upd rfl rfl rfl rfl rfl rfl rfl ?_
        refine Keeps.of_snd (by assumption) ?_
        apply keeps_State_fresh
        exact h
      · refine Keeps.of_snd (by assumption) ?_
        apply keeps_State_fresh
        exact h

theorem keeps_migrateRecv {s x : State} (h : Keeps s x) : ∀ a1 a2, Keeps s (migrateRecv x a1 a2) := by
  intro a1 a2
  unfold migrateRecv
  dsimp only
  apply Keeps.ite
  · refine Keeps.upd rfl rfl rfl rfl rfl rfl rfl ?_
    exact h
  · split
    · apply keeps_answerReady
      refine Keeps.upd rfl rfl rfl rfl rfl rfl rfl ?_
      exact h
    · split
      · refine Keeps.upd rfl rfl rfl rfl rfl rfl rfl ?_
        exact h
      · exact h
    · split
      · apply keeps_sendMigrate
        refine Keeps.upd rfl rfl rfl rfl rfl rfl rfl ?_
        exact h
      · exact h
    · split
      · refine Keeps.upd rfl rfl rfl rfl rfl rfl rfl ?_
        exact h
      · exact h
    · split
      · refine Keeps.upd rfl rfl rfl rfl rfl rfl rfl ?_
        exact h
      · exact h
    · refine Keeps.upd rfl rfl rfl rfl rfl rfl rfl ?_
      exact h

theorem keeps_migrateCancel {s x : State} (h : Keeps s x) : ∀ a1 a2, Keeps s (migrateCancel x a1 a2) := by
  intro a1 a2
  unfold migrateCancel
  apply keeps_sendMigrate
  refine Keeps.upd rfl rfl rfl rfl rfl rfl rfl ?_
  exact h

theorem keeps_migrateGoDeadline {s x : State} (h : Keeps s x) : ∀ a1, Keeps s (migrateGoDeadline x a1) := by
  intro a1
  unfold migrateGoDeadline
  split
  · exact h
  · apply Keeps.ite
    · exact h
    · apply Keeps.ite
      · apply keeps_sendMigrate
        refine Keeps.upd rfl rfl rfl rfl rfl rfl rfl ?_
        exact h
      · apply keeps_migrateCancel
        exact h

theorem keeps_migrateAckDeadline {s x : State} (h : Keeps s x) : ∀ a1, Keeps s (migrateAckDeadline x a1) := by
  intro a1
  unfold migrateAckDeadline
  split
  · exact h
  · apply Keeps.ite
    · exact h
    · apply keeps_migrateCancel
      exact h

theorem keeps_migrateSwitch {s x : State} (h : Keeps s x) : ∀ a1, Keeps s (migrateSwitch x a1) := by
  intro a1
  unfold migrateSwitch
  split
  · apply Keeps.ite
    · exact h
    · apply keeps_becomeStandby
      refine Keeps.upd rfl rfl rfl rfl rfl rfl rfl ?_
      exact h
  · apply Keeps.ite
    · exact h
    · apply Keeps.ite
      · refine Keeps.upd rfl rfl rfl rfl rfl rfl rfl ?_
        exact h
      · apply keeps_becomeOwner
        refine Keeps.upd rfl rfl rfl rfl rfl rfl rfl ?_
        exact h
  · exact h

theorem keeps_migrateReply {s x : State} (h : Keeps s x) : ∀ a1, Keeps s (migrateReply x a1) := by
  intro a1
  unfold migrateReply
  split
  · exact h
  · apply Keeps.ite
    · exact h
    · dsimp only
      apply Keeps.ite
      · apply keeps_refuse
        refine Keeps.upd rfl rfl rfl rfl rfl rfl rfl ?_
        exact h
      · apply Keeps.ite
        · apply keeps_replyOk
          refine Keeps.upd rfl rfl rfl rfl rfl rfl rfl ?_
          exact h
        · apply keeps_refuse
          refine Keeps.upd rfl rfl rfl rfl rfl rfl rfl ?_
          exact h

theorem keeps_poolRelay {s x : State} (h : Keeps s x) : ∀ a1 a2, Keeps s (poolRelay x a1 a2) := by
  intro a1 a2
  unfold poolRelay
  split
  · apply keeps_txQueue
    exact h
  · refine Keeps.upd rfl rfl rfl rfl rfl rfl rfl ?_
    exact h

theorem keeps_poolFrame {s x : State} (h : Keeps s x) : ∀ a1 a2 a3, Keeps s (poolFrame x a1 a2 a3) := by
  intro a1 a2 a3
  unfold poolFrame
  dsimp only
  apply Keeps.ite
  · apply keeps_poolDrop
    exact h
  · apply Keeps.ite
    · apply keeps_poolDrop
      apply Keeps.ite
      · apply keeps_poolEvt
        exact h
      · exact h
    · split
      · apply keeps_poolDrop
        exact h
      · apply Keeps.ite
        · apply keeps_poolDrop
          exact h
        · apply Keeps.ite
          · apply keeps_poolDrop
            exact h
          · apply Keeps.ite
            · apply keeps_poolRelay
              refine Keeps.upd rfl rfl rfl rfl rfl rfl rfl ?_
              exact h
            · split
              · apply keeps_heartbeatRecv
                refine Keeps.upd rfl rfl rfl rfl rfl rfl rfl ?_
                exact h
              · apply keeps_stateRecv
                refine Keeps.upd rfl rfl rfl rfl rfl rfl rfl ?_
                exact h
              · apply keeps_claimRecv
                refine Keeps.upd rfl rfl rfl rfl rfl rfl rfl ?_
                exact h
              · apply keeps_answerReady
                apply keeps_mirrorRecv
                refine Keeps.upd rfl rfl rfl rfl rfl rfl rfl ?_
                exact h
              · apply keeps_migrateRecv
                refine Keeps.upd rfl rfl rfl rfl rfl rfl rfl ?_
                exact h

theorem keeps_poolRow {s x : State} (h : Keeps s x) : ∀ a1 a2 a3 a4, Keeps s (poolRow x a1 a2 a3 a4) := by
  intro a1 a2 a3 a4
  unfold poolRow
  apply Keeps.ite
  · apply keeps_poolFrame
    exact h
  · exact h

theorem keeps_loadKey {s x : State} (h : Keeps s x) : ∀ a1, Keeps s (loadKey x a1) := by
  intro a1
  unfold loadKey
  dsimp only
  apply keeps_poolEvt
  refine Keeps.upd rfl rfl rfl rfl rfl rfl rfl ?_
  apply keeps_State_setKeySlot
  exact h

theorem keeps_poolSync {s x : State} (h : Keeps s x) : Keeps s (poolSync x) := by
  unfold poolSync
  dsimp only
  apply Keeps.ite
  · refine Keeps.upd rfl rfl rfl rfl rfl rfl rfl ?_
    exact h
  · apply Keeps.ite
    · exact h
    · apply Keeps.ite
      · apply Keeps.ite
        · refine Keeps.upd rfl rfl rfl rfl rfl rfl rfl ?_
          apply keeps_State_setKeySlot
          exact h
        · refine Keeps.upd rfl rfl rfl rfl rfl rfl rfl ?_
          apply keeps_loadKey
          exact h
      · apply keeps_loadKey
        exact h

theorem keeps_keyGraceExpiry {s x : State} (h : Keeps s x) : Keeps s (keyGraceExpiry x) := by
  unfold keyGraceExpiry
  split
  · exact h
  · apply Keeps.ite
    · exact h
    · dsimp only
      apply Keeps.foldl
      · apply keeps_poolEvt
        refine Keeps.upd rfl rfl rfl rfl rfl rfl rfl ?_
        apply keeps_State_setKeySlot
        exact h
      · intro _ _ k
        apply keeps_poolEvt
        assumption

theorem keeps_cmdPoolStatus {s x : State} (h : Keeps s x) : ∀ a1 a2, Keeps s (cmdPoolStatus a1 a2 x) := by
  intro a1 a2
  unfold cmdPoolStatus
  dsimp only
  apply keeps_replyOk
  refine Keeps.upd rfl rfl rfl rfl rfl rfl rfl ?_
  apply keeps_State_fresh
  exact h

end Sys2Proof.Machine
end

