-- ==== Sys2Proof/Laws/KeepsCfg.lean ====
section
/-! SUPPORT. What the operations of Machine/Cfg.lean, Machine/EventLog.lean, Machine/SelfTest.lean keep. -/

set_option linter.unusedTactic false
set_option linter.unreachableTactic false
set_option linter.unusedVariables false

namespace Sys2Proof.Machine

theorem keeps_cmdParamGet {s x : State} (h : Keeps s x) : ∀ a1 a2, Keeps s (cmdParamGet a1 a2 x) := by
  intro a1 a2
  unfold cmdParamGet
  split
  · apply keeps_refuse
    exact h
  · dsimp only
    split
    · apply keeps_refuse
      exact h
    · apply keeps_replyOk
      exact h

theorem keeps_paramApply {s x : State} (h : Keeps s x) : ∀ a1, Keeps s (paramApply x a1) := by
  intro a1
  unfold paramApply
  dsimp only
  apply Keeps.ite
  · apply keeps_ppsArm
    apply keeps_State_setParam
    exact h
  · apply Keeps.ite
    · apply keeps_laneParamEffect
      apply keeps_State_setParam
      exact h
    · apply Keeps.ite
      · apply keeps_State_setSlc
        apply keeps_State_setParam
        exact h
      · apply Keeps.ite
        · apply keeps_gainChanged
          apply keeps_State_setParam
          exact h
        · apply keeps_State_setParam
          exact h

theorem keeps_cmdParamSet {s x : State} (h : Keeps s x) : ∀ a1 a2, Keeps s (cmdParamSet a1 a2 x) := by
  intro a1 a2
  unfold cmdParamSet
  split
  · apply keeps_refuse
    exact h
  · split
    · apply keeps_refuse
      exact h
    · apply keeps_replyOk
      apply Keeps.foldl
      · exact h
      · intro _ _ k
        apply keeps_paramApply
        assumption

theorem keeps_cmdCfgStage {s x : State} (h : Keeps s x) : ∀ a1 a2, Keeps s (cmdCfgStage a1 a2 x) := by
  intro a1 a2
  unfold cmdCfgStage
  dsimp only
  apply Keeps.ite
  · apply keeps_refuse
    exact h
  · split
    · apply keeps_refuse
      exact h
    · apply Keeps.ite
      · apply keeps_refuse
        exact h
      · apply keeps_replyOk
        refine Keeps.upd rfl rfl rfl rfl rfl rfl rfl ?_
        exact h

theorem keeps_setCommit {s x : State} (h : Keeps s x) : ∀ a1, Keeps s (setCommit x a1) := by
  intro a1
  unfold setCommit
  refine Keeps.upd rfl rfl rfl rfl rfl rfl rfl ?_
  exact h

theorem keeps_lanimanArm {s x : State} (h : Keeps s x) : ∀ a1 a2 a3, Keeps s (lanimanArm x a1 a2 a3) := by
  intro a1 a2 a3
  unfold lanimanArm
  apply keeps_State_setComp
  exact h

theorem keeps_cmdCfgArm {s x : State} (h : Keeps s x) : ∀ a1 a2, Keeps s (cmdCfgArm a1 a2 x) := by
  intro a1 a2
  unfold cmdCfgArm
  dsimp only
  split
  · apply keeps_refuse
    exact h
  · apply keeps_lanimanArm
    apply keeps_lanimanArm
    apply keeps_setCommit
    exact h

theorem keeps_unitReadyMsg {s x : State} (h : Keeps s x) : ∀ a1, Keeps s (unitReadyMsg x a1) := by
  intro a1
  unfold unitReadyMsg
  split
  · exact h
  · apply Keeps.ite
    · exact h
    · apply keeps_setCommit
      exact h

theorem keeps_armReply {s x : State} (h : Keeps s x) : ∀ a1 a2 a3 a4 a5, Keeps s (armReply x a1 a2 a3 a4 a5) := by
  intro a1 a2 a3 a4 a5
  unfold armReply
  apply Keeps.ite
  · apply keeps_reply
    exact h
  · apply keeps_reply
    exact h

theorem keeps_readinessCheck {s x : State} (h : Keeps s x) : ∀ a1, Keeps s (readinessCheck x a1) := by
  intro a1
  unfold readinessCheck
  split
  · exact h
  · apply Keeps.ite
    · exact h
    · dsimp only
      apply Keeps.ite
      · apply keeps_setCommit
        exact h
      · apply keeps_reply
        apply keeps_cancelledEvt
        apply keeps_State_endCommit
        exact h

theorem keeps_swapBefore {s x : State} (h : Keeps s x) : ∀ a1 a2 a3, Keeps s (swapBefore x a1 a2 a3) := by
  intro a1 a2 a3
  unfold swapBefore
  dsimp only
  apply Keeps.ite
  · exact h
  · split
    · apply Keeps.ite
      · apply keeps_carrierDeactivate
        exact h
      · exact h
    · apply Keeps.foldl
      · exact h
      · intro _ _ k
        apply keeps_clockRecoveryLoss
        assumption
    · apply Keeps.ite
      · exact h
      · apply Keeps.ite
        · apply keeps_codewordLockLoss
          apply keeps_linkDown
          exact h
        · apply keeps_linkDown
          exact h
    · exact h

theorem keeps_synceMoved {s x : State} (h : Keeps s x) : ∀ a1 a2, Keeps s (synceMoved x a1 a2) := by
  intro a1 a2
  unfold synceMoved
  dsimp only
  apply Keeps.ite
  · apply keeps_updShared
    apply keeps_updShared
    exact h
  · apply keeps_updShared
    exact h

theorem keeps_swapAfter {s x : State} (h : Keeps s x) : ∀ a1 a2 a3, Keeps s (swapAfter x a1 a2 a3) := by
  intro a1 a2 a3
  unfold swapAfter
  dsimp only
  apply Keeps.ite
  · apply Keeps.ite
    · apply keeps_carrierActivate
      refine Keeps.upd rfl rfl rfl rfl rfl rfl rfl ?_
      exact h
    · exact h
  · apply Keeps.ite
    · exact h
    · split
      · apply keeps_synceMoved
        exact h
      · apply keeps_clusterSync
        exact h
      · apply Keeps.ite
        · exact h
        · apply keeps_drainNow
          apply keeps_State_setCore
          exact h
      · apply keeps_flowTableIdle
        apply Keeps.foldl
        · exact h
        · intro _ _ k
          apply keeps_State_setSlc
          assumption
      · apply keeps_State_setSlc
        exact h
      · apply keeps_State_setSlc
        exact h
      · apply keeps_planSync
        exact h
      · exact h

theorem keeps_swapValues {s x : State} (h : Keeps s x) (l : List (Nat × Nat × Nat)) (move : State → State)
    (hm : ∀ y, Keeps s y → Keeps s (move y)) : Keeps s (swapValues x l move) := by
  unfold swapValues
  dsimp only
  apply Keeps.foldl
  · apply Keeps.ite
    · exact keeps_poolSync (hm _ (Keeps.foldl h fun _ _ k => keeps_swapBefore k _ _ _))
    · exact hm _ (Keeps.foldl h fun _ _ k => keeps_swapBefore k _ _ _)
  · exact fun _ _ k => keeps_swapAfter k _ _ _

theorem keeps_shadowSwapOp {s x : State} (h : Keeps s x) : ∀ a1 a2, Keeps s (shadowSwapOp x a1 a2) := by
  intro a1 a2
  unfold shadowSwapOp
  split
  · exact h
  · apply Keeps.ite
    · exact h
    · dsimp only
      apply keeps_swapValues
      · exact h
      · intro _ k
        apply keeps_setCommit
        assumption

theorem keeps_unitAppliedMsg {s x : State} (h : Keeps s x) : ∀ a1, Keeps s (unitAppliedMsg x a1) := by
  intro a1
  unfold unitAppliedMsg
  split
  · exact h
  · apply Keeps.ite
    · exact h
    · apply keeps_setCommit
      exact h

theorem keeps_applySet {s x : State} (h : Keeps s x) : ∀ a1, Keeps s (applySet x a1) := by
  intro a1
  unfold applySet
  dsimp only
  refine Keeps.upd rfl rfl rfl rfl rfl rfl rfl ?_
  exact h

theorem keeps_commitOutcomeOp {s x : State} (h : Keeps s x) : Keeps s (commitOutcomeOp x) := by
  unfold commitOutcomeOp
  split
  · exact h
  · apply Keeps.ite
    · exact h
    · dsimp only
      apply Keeps.ite
      · apply keeps_armReply
        apply keeps_raise
        apply Keeps.foldl
        · apply keeps_applySet
          apply keeps_State_endCommit
          exact h
        · intro _ _ k
          apply keeps_mirrorSync
          assumption
      · apply keeps_setCommit
        refine Keeps.upd rfl rfl rfl rfl rfl rfl rfl ?_
        exact h

theorem keeps_commitRollbackOp {s x : State} (h : Keeps s x) : Keeps s (commitRollbackOp x) := by
  unfold commitRollbackOp
  split
  · exact h
  · apply Keeps.ite
    · exact h
    · dsimp only
      apply keeps_armReply
      apply keeps_raise
      apply Keeps.foldl
      · refine Keeps.upd rfl rfl rfl rfl rfl rfl rfl ?_
        apply keeps_swapValues
        · exact h
        · intro _ k
          apply keeps_State_endCommit
          assumption
      · intro _ _ k
        apply keeps_carrierStop
        assumption

theorem keeps_cmdCarrierStatus {s x : State} (h : Keeps s x) : ∀ a1 a2, Keeps s (cmdCarrierStatus a1 a2 x) := by
  intro a1 a2
  unfold cmdCarrierStatus
  dsimp only
  apply keeps_replyOk
  exact h

theorem keeps_logWrite {s x : State} (h : Keeps s x) : ∀ a1, Keeps s (logWrite x a1) := by
  intro a1
  unfold logWrite
  dsimp only
  apply Keeps.foldl
  · refine Keeps.upd rfl rfl rfl rfl rfl rfl rfl ?_
    exact h
  · intro _ _ k
    apply Keeps.ite
    · apply keeps_msixSend
      assumption
    · assumption

theorem keeps_lossEvent {s x : State} (h : Keeps s x) : Keeps s (lossEvent x) := by
  unfold lossEvent
  split
  · exact h
  · apply keeps_logWrite
    refine Keeps.upd rfl rfl rfl rfl rfl rfl rfl ?_
    exact h
  · apply keeps_logWrite
    refine Keeps.upd rfl rfl rfl rfl rfl rfl rfl ?_
    exact h

theorem keeps_lossWrite (n : Nat) {s x : State} (h : Keeps s x) : Keeps s (lossWrite n x) := by
  induction n generalizing x with
  | zero => exact h
  | succ n ih =>
    unfold lossWrite
    split
    · exact ih (keeps_lossEvent h)
    · exact h

theorem keeps_losses {s x : State} (h : Keeps s x) : Keeps s (losses x) := by
  unfold losses
  apply keeps_lossWrite
  exact h

theorem keeps_acceptEvent {s x : State} (h : Keeps s x) : ∀ a1, Keeps s (acceptEvent x a1) := by
  intro a1
  unfold acceptEvent
  apply Keeps.ite
  · refine Keeps.upd rfl rfl rfl rfl rfl rfl rfl ?_
    exact h
  · apply Keeps.ite
    · apply keeps_countLoss
      exact h
    · apply keeps_logWrite
      exact h

theorem keeps_eventAcceptanceOp {s x : State} (h : Keeps s x) : Keeps s (eventAcceptanceOp x) := by
  unfold eventAcceptanceOp
  split
  · exact keeps_losses h
  · rename_i e rest he
    apply Keeps.ite
    · exact h
    · apply keeps_losses
      apply keeps_acceptEvent
      refine h.trans ⟨rfl, id, id, fun k => ?_, id, id⟩
      rw [he, List.length_cons] at k
      exact Nat.le_of_succ_le k

theorem keeps_eventArrival {s x : State} (h : Keeps s x) : ∀ a1 a2 a3 a4 a5, Keeps s (eventArrival x a1 a2 a3 a4 a5) := by
  intro a1 a2 a3 a4 a5
  unfold eventArrival
  apply keeps_offer
  exact h

theorem keeps_logRelease {s x : State} (h : Keeps s x) : Keeps s (logRelease x) := by
  unfold logRelease
  split
  · exact h
  · dsimp only
    refine Keeps.upd rfl rfl rfl rfl rfl rfl rfl ?_
    exact h

theorem keeps_dropSub {s x : State} (h : Keeps s x) : ∀ a1, Keeps s (dropSub x a1) := by
  intro a1
  unfold dropSub
  apply keeps_losses
  apply keeps_logRelease
  refine Keeps.upd rfl rfl rfl rfl rfl rfl rfl ?_
  exact h

theorem keeps_hostLaggedOp {s x : State} (h : Keeps s x) : ∀ a1, Keeps s (hostLaggedOp x a1) := by
  intro a1
  unfold hostLaggedOp
  split
  · exact h
  · split
    · exact h
    · apply Keeps.ite
      · exact h
      · dsimp only
        apply keeps_losses
        apply Keeps.ite
        · apply keeps_countLoss
          apply keeps_logRelease
          refine Keeps.upd rfl rfl rfl rfl rfl rfl rfl ?_
          exact h
        · apply keeps_logWrite
          apply keeps_logRelease
          refine Keeps.upd rfl rfl rfl rfl rfl rfl rfl ?_
          exact h

theorem keeps_cmdEvtSubscribe {s x : State} (h : Keeps s x) : ∀ a1 a2, Keeps s (cmdEvtSubscribe a1 a2 x) := by
  intro a1 a2
  unfold cmdEvtSubscribe
  dsimp only
  apply Keeps.ite
  · apply keeps_refuse
    exact h
  · apply Keeps.ite
    · apply keeps_refuse
      exact h
    · apply Keeps.ite
      · apply keeps_refuse
        exact h
      · apply keeps_replyOk
        apply keeps_losses
        apply keeps_logRelease
        apply Keeps.ite
        · apply keeps_msixSend
          refine Keeps.upd rfl rfl rfl rfl rfl rfl rfl ?_
          exact h
        · refine Keeps.upd rfl rfl rfl rfl rfl rfl rfl ?_
          exact h

theorem keeps_cmdEvtRead {s x : State} (h : Keeps s x) : ∀ a1 a2, Keeps s (cmdEvtRead a1 a2 x) := by
  intro a1 a2
  unfold cmdEvtRead
  dsimp only
  split
  · apply keeps_refuse
    refine Keeps.upd rfl rfl rfl rfl rfl rfl rfl ?_
    exact h
  · apply keeps_replyOk
    apply keeps_losses
    apply keeps_logRelease
    apply Keeps.ite
    · apply keeps_msixSend
      refine Keeps.upd rfl rfl rfl rfl rfl rfl rfl ?_
      exact h
    · refine Keeps.upd rfl rfl rfl rfl rfl rfl rfl ?_
      exact h

theorem keeps_cmdEvtUnsubscribe {s x : State} (h : Keeps s x) : ∀ a1 a2, Keeps s (cmdEvtUnsubscribe a1 a2 x) := by
  intro a1 a2
  unfold cmdEvtUnsubscribe
  apply keeps_replyOk
  apply keeps_dropSub
  exact h

theorem keeps_State_setTest {s x : State} (h : Keeps s x) : ∀ a1 a2, Keeps s (State.setTest x a1 a2) := by
  intro a1 a2
  unfold State.setTest
  refine Keeps.upd rfl rfl rfl rfl rfl rfl rfl ?_
  exact h

theorem keeps_testBegin {s x : State} (h : Keeps s x) : ∀ a1, Keeps s (testBegin x a1) := by
  intro a1
  unfold testBegin
  dsimp only
  apply keeps_drainNow
  apply Keeps.ite
  · apply keeps_setReason
    apply keeps_State_setTest
    exact h
  · apply keeps_State_setTest
    exact h

theorem keeps_selftestStartOp {s x : State} (h : Keeps s x) : ∀ a1, Keeps s (selftestStartOp x a1) := by
  intro a1
  unfold selftestStartOp
  apply Keeps.ite
  · exact h
  · apply keeps_testBegin
    refine Keeps.upd rfl rfl rfl rfl rfl rfl rfl ?_
    exact h

theorem keeps_selftestDueOp {s x : State} (h : Keeps s x) : ∀ a1, Keeps s (selftestDueOp x a1) := by
  intro a1
  unfold selftestDueOp
  apply Keeps.ite
  · exact h
  · dsimp only
    apply keeps_selftestStartOp
    refine Keeps.upd rfl rfl rfl rfl rfl rfl rfl ?_
    apply keeps_State_setTest
    exact h

theorem keeps_testEvt {s x : State} (h : Keeps s x) : ∀ a1 a2 a3, Keeps s (testEvt x a1 a2 a3) := by
  intro a1 a2 a3
  unfold testEvt
  apply Keeps.ite
  · apply keeps_raise
    exact h
  · apply Keeps.ite
    · exact h
    · apply keeps_raise
      exact h

theorem keeps_reloadCore {s x : State} (h : Keeps s x) : ∀ a1, Keeps s (reloadCore x a1) := by
  intro a1
  unfold reloadCore
  apply keeps_noteTail
  apply keeps_State_setCore
  exact h

theorem keeps_testLeaves {s x : State} (h : Keeps s x) : ∀ a1, Keeps s (testLeaves x a1) := by
  intro a1
  unfold testLeaves
  apply Keeps.ite
  · apply keeps_setReason
    exact h
  · exact h

theorem keeps_testCompleteOp {s x : State} (h : Keeps s x) : ∀ a1 a2, Keeps s (testCompleteOp x a1 a2) := by
  intro a1 a2
  unfold testCompleteOp
  dsimp only
  apply Keeps.ite
  · exact h
  · apply Keeps.ite
    · apply Keeps.ite
      · refine Keeps.upd rfl rfl rfl rfl rfl rfl rfl ?_
        apply Keeps.ite
        · apply keeps_reloadCore
          apply keeps_testEvt
          apply keeps_State_setTest
          exact h
        · apply keeps_testEvt
          apply keeps_State_setTest
          exact h
      · apply Keeps.ite
        · apply keeps_reloadCore
          apply keeps_testEvt
          apply keeps_State_setTest
          exact h
        · apply keeps_testEvt
          apply keeps_State_setTest
          exact h
    · apply Keeps.ite
      · apply keeps_testLeaves
        apply Keeps.ite
        · refine Keeps.upd rfl rfl rfl rfl rfl rfl rfl ?_
          apply Keeps.ite
          · apply keeps_reloadCore
            apply keeps_testEvt
            apply keeps_State_setTest
            exact h
          · apply keeps_testEvt
            apply keeps_State_setTest
            exact h
        · apply Keeps.ite
          · apply keeps_reloadCore
            apply keeps_testEvt
            apply keeps_State_setTest
            exact h
          · apply keeps_testEvt
            apply keeps_State_setTest
            exact h
      · apply keeps_releaseCore
        apply keeps_testLeaves
        apply Keeps.ite
        · refine Keeps.upd rfl rfl rfl rfl rfl rfl rfl ?_
          apply Keeps.ite
          · apply keeps_reloadCore
            apply keeps_testEvt
            apply keeps_State_setTest
            exact h
          · apply keeps_testEvt
            apply keeps_State_setTest
            exact h
        · apply Keeps.ite
          · apply keeps_reloadCore
            apply keeps_testEvt
            apply keeps_State_setTest
            exact h
          · apply keeps_testEvt
            apply keeps_State_setTest
            exact h

theorem keeps_cmdSelftestRun {s x : State} (h : Keeps s x) : ∀ a1 a2, Keeps s (cmdSelftestRun a1 a2 x) := by
  intro a1 a2
  unfold cmdSelftestRun
  dsimp only
  apply Keeps.ite
  · apply keeps_refuse
    exact h
  · apply Keeps.ite
    · apply keeps_refuse
      exact h
    · apply Keeps.ite
      · apply keeps_reply
        apply keeps_testBegin
        apply keeps_State_setTest
        exact h
      · apply keeps_reply
        refine Keeps.upd rfl rfl rfl rfl rfl rfl rfl ?_
        apply keeps_State_setTest
        exact h

theorem keeps_cmdSelftestAbort {s x : State} (h : Keeps s x) : ∀ a1 a2, Keeps s (cmdSelftestAbort a1 a2 x) := by
  intro a1 a2
  unfold cmdSelftestAbort
  dsimp only
  apply Keeps.ite
  · apply keeps_refuse
    exact h
  · apply Keeps.ite
    · apply keeps_replyOk
      apply keeps_testEvt
      refine Keeps.upd rfl rfl rfl rfl rfl rfl rfl ?_
      apply keeps_State_setTest
      exact h
    · apply keeps_replyOk
      apply keeps_releaseCore
      apply keeps_testLeaves
      apply Keeps.ite
      · apply keeps_reloadCore
        apply keeps_testEvt
        refine Keeps.upd rfl rfl rfl rfl rfl rfl rfl ?_
        apply keeps_State_setTest
        exact h
      · apply keeps_testEvt
        refine Keeps.upd rfl rfl rfl rfl rfl rfl rfl ?_
        apply keeps_State_setTest
        exact h

theorem keeps_cmdSelftestStatus {s x : State} (h : Keeps s x) : ∀ a1 a2, Keeps s (cmdSelftestStatus a1 a2 x) := by
  intro a1 a2
  unfold cmdSelftestStatus
  dsimp only
  apply keeps_replyOk
  exact h

end Sys2Proof.Machine
end

