-- ==== Sys2Proof/Laws/KeepsHost.lean ====
section
/-! SUPPORT. What the operations of Machine/HostPort.lean, Machine/Proul.lean keep. -/

set_option linter.unusedTactic false
set_option linter.unreachableTactic false
set_option linter.unusedVariables false

namespace Sys2Proof.Machine

theorem keeps_msixFlush {s x : State} (h : Keeps s x) : ∀ a1, Keeps s (msixFlush x a1) := by
  intro a1
  unfold msixFlush
  apply Keeps.foldl
  · exact h
  · intro _ _ k
    dsimp only
    apply Keeps.ite
    · apply keeps_State_setHp
      assumption
    · assumption

theorem keeps_msixUnmaskOp {s x : State} (h : Keeps s x) : ∀ a1 a2, Keeps s (msixUnmaskOp x a1 a2) := by
  intro a1 a2
  unfold msixUnmaskOp
  dsimp only
  split
  · apply keeps_msixFlush
    apply keeps_State_setHp
    exact h
  · apply keeps_msixFlush
    apply keeps_State_setHp
    exact h

theorem keeps_msixTableWrite {s x : State} (h : Keeps s x) : ∀ a1 a2 a3, Keeps s (msixTableWrite x a1 a2 a3) := by
  intro a1 a2 a3
  unfold msixTableWrite
  dsimp only
  apply keeps_msixFlush
  apply keeps_State_setHp
  exact h

theorem keeps_doorbellOp {s x : State} (h : Keeps s x) : ∀ a1 a2, Keeps s (doorbellOp x a1 a2) := by
  intro a1 a2
  unfold doorbellOp
  dsimp only
  apply Keeps.ite
  · apply keeps_State_setHp
    exact h
  · apply keeps_State_setHp
    exact h

theorem keeps_replyBaseOp {s x : State} (h : Keeps s x) : ∀ a1 a2, Keeps s (replyBaseOp x a1 a2) := by
  intro a1 a2
  unfold replyBaseOp
  apply keeps_State_setHp
  exact h

theorem keeps_replySizeOp {s x : State} (h : Keeps s x) : ∀ a1 a2, Keeps s (replySizeOp x a1 a2) := by
  intro a1 a2
  unfold replySizeOp
  apply Keeps.ite
  · apply keeps_State_setHp
    exact h
  · exact h

theorem keeps_replyRdOp {s x : State} (h : Keeps s x) : ∀ a1 a2, Keeps s (replyRdOp x a1 a2) := by
  intro a1 a2
  unfold replyRdOp
  dsimp only
  split
  · apply Keeps.ite
    · apply keeps_msixSend
      apply keeps_State_setHp
      exact h
    · apply keeps_State_setHp
      exact h
  · apply Keeps.ite
    · apply Keeps.ite
      · apply keeps_msixSend
        apply keeps_State_setHp
        exact h
      · apply keeps_State_setHp
        exact h
    · apply keeps_ringWrite
      apply Keeps.ite
      · apply keeps_msixSend
        apply keeps_State_setHp
        exact h
      · apply keeps_State_setHp
        exact h

theorem keeps_atLoReadOp {s x : State} (h : Keeps s x) : ∀ a1, Keeps s (atLoReadOp x a1) := by
  intro a1
  unfold atLoReadOp
  apply keeps_State_setHp
  exact h

theorem keeps_bar0Write {s x : State} (h : Keeps s x) : ∀ a1 a2 a3, Keeps s (bar0Write x a1 a2 a3) := by
  intro a1 a2 a3
  unfold bar0Write
  dsimp only
  apply Keeps.ite
  · apply keeps_State_setHp
    exact h
  · apply Keeps.ite
    · apply keeps_doorbellOp
      exact h
    · apply Keeps.ite
      · apply keeps_replyBaseOp
        exact h
      · apply Keeps.ite
        · apply keeps_replyBaseOp
          exact h
        · apply Keeps.ite
          · apply keeps_replySizeOp
            exact h
          · apply Keeps.ite
            · apply keeps_replyRdOp
              exact h
            · apply Keeps.ite
              · apply keeps_State_setHp
                exact h
              · apply Keeps.ite
                · apply keeps_msixTableWrite
                  exact h
                · exact h

theorem keeps_registerWriteOp {s x : State} (h : Keeps s x) : ∀ a1, Keeps s (registerWriteOp x a1) := by
  intro a1
  unfold registerWriteOp
  split
  · dsimp only
    apply Keeps.ite
    · apply Keeps.ite
      · apply keeps_bar0Write
        exact h
      · exact h
    · apply Keeps.ite
      · exact h
      · apply Keeps.ite
        · apply keeps_replyBaseOp
          exact h
        · apply keeps_bar0Write
          apply keeps_bar0Write
          exact h
  · dsimp only
    apply keeps_State_setHp
    exact h
  · dsimp only
    apply keeps_msixFlush
    apply keeps_State_setHp
    exact h
  · apply keeps_chanCommand
    exact h
  · split
    · apply keeps_flagSetOp
      exact h
    · apply keeps_flagClearOp
      exact h
    · apply keeps_State_setEngine
      exact h

theorem keeps_hostLinkEvt {s x : State} (h : Keeps s x) : ∀ a1 a2 a3 a4, Keeps s (hostLinkEvt x a1 a2 a3 a4) := by
  intro a1 a2 a3 a4
  unfold hostLinkEvt
  apply keeps_raise
  exact h

theorem keeps_portReset {s x : State} (h : Keeps s x) : ∀ a1 a2, Keeps s (portReset x a1 a2) := by
  intro a1 a2
  unfold portReset
  dsimp only
  apply Keeps.ite
  · apply keeps_hostLinkEvt
    apply keeps_State_setHp
    apply keeps_raise
    apply keeps_dropSub
    refine Keeps.upd rfl rfl rfl rfl rfl rfl rfl ?_
    apply keeps_State_setHp
    apply Keeps.foldl
    · apply keeps_masterReset
      exact h
    · intro _ _ k
      apply keeps_chanReset
      assumption
  · apply keeps_raise
    apply keeps_dropSub
    refine Keeps.upd rfl rfl rfl rfl rfl rfl rfl ?_
    apply keeps_State_setHp
    apply Keeps.foldl
    · apply keeps_masterReset
      exact h
    · intro _ _ k
      apply keeps_chanReset
      assumption

theorem keeps_hostLinkOp {s x : State} (h : Keeps s x) : ∀ a1 a2 a3 a4, Keeps s (hostLinkOp x a1 a2 a3 a4) := by
  intro a1 a2 a3 a4
  unfold hostLinkOp
  dsimp only
  apply Keeps.ite
  · exact h
  · apply keeps_hostLinkEvt
    apply Keeps.ite
    · apply keeps_countDiscard
      apply keeps_State_setHp
      apply keeps_State_setHp
      exact h
    · apply keeps_State_setHp
      exact h

theorem keeps_State_setSpi {s x : State} (h : Keeps s x) : ∀ a1, Keeps s (State.setSpi x a1) := by
  intro a1
  unfold State.setSpi
  refine Keeps.upd rfl rfl rfl rfl rfl rfl rfl ?_
  exact h

theorem keeps_packetWriteOp {s x : State} (h : Keeps s x) : ∀ a1, Keeps s (packetWriteOp x a1) := by
  intro a1
  unfold packetWriteOp
  dsimp only
  apply Keeps.ite
  · exact h
  · apply Keeps.ite
    · apply keeps_State_setSpi
      apply keeps_wakeHold
      exact h
    · apply keeps_State_setSpi
      apply keeps_wakeHold
      exact h

theorem keeps_statusReadOp {s x : State} (h : Keeps s x) : Keeps s (statusReadOp x) := by
  unfold statusReadOp
  apply Keeps.ite
  · exact h
  · apply keeps_State_setSpi
    exact h

theorem keeps_replyReadOp {s x : State} (h : Keeps s x) : ∀ a1, Keeps s (replyReadOp x a1) := by
  intro a1
  unfold replyReadOp
  dsimp only
  apply Keeps.ite
  · exact h
  · split
    · apply keeps_State_setSpi
      exact h
    · apply Keeps.ite
      · apply keeps_State_setSpi
        exact h
      · apply keeps_State_setSpi
        exact h

theorem keeps_cmdDevInfo {s x : State} (h : Keeps s x) : ∀ a1 a2, Keeps s (cmdDevInfo a1 a2 x) := by
  intro a1 a2
  unfold cmdDevInfo
  dsimp only
  apply keeps_replyOk
  exact h

theorem keeps_cmdDevStatus {s x : State} (h : Keeps s x) : ∀ a1 a2, Keeps s (cmdDevStatus a1 a2 x) := by
  intro a1 a2
  unfold cmdDevStatus
  apply keeps_replyOk
  exact h

theorem keeps_discardPackets {s x : State} (h : Keeps s x) : Keeps s (discardPackets x) := by
  unfold discardPackets
  dsimp only
  apply keeps_State_setSpi
  apply Keeps.foldl
  · exact h
  · intro _ _ k
    apply keeps_State_setHp
    assumption

theorem keeps_cmdResetWarm {s x : State} (h : Keeps s x) : ∀ a1 a2, Keeps s (cmdResetWarm a1 a2 x) := by
  intro a1 a2
  unfold cmdResetWarm
  apply Keeps.ite
  · apply keeps_refuse
    exact h
  · dsimp only
    refine Keeps.upd rfl rfl rfl rfl rfl rfl rfl ?_
    apply keeps_discardPackets
    apply keeps_replyOk
    exact h

theorem keeps_cmdFlashRead {s x : State} (h : Keeps s x) : ∀ a1 a2, Keeps s (cmdFlashRead a1 a2 x) := by
  intro a1 a2
  unfold cmdFlashRead
  dsimp only
  apply Keeps.ite
  · apply keeps_refuse
    exact h
  · apply Keeps.ite
    · apply keeps_refuse
      exact h
    · apply keeps_replyOk
      exact h

theorem keeps_cmdFlashErase {s x : State} (h : Keeps s x) : ∀ a1 a2, Keeps s (cmdFlashErase a1 a2 x) := by
  intro a1 a2
  unfold cmdFlashErase
  dsimp only
  apply Keeps.ite
  · apply keeps_refuse
    exact h
  · apply Keeps.ite
    · apply keeps_refuse
      exact h
    · apply Keeps.ite
      · apply keeps_refuse
        exact h
      · refine Keeps.upd rfl rfl rfl rfl rfl rfl rfl ?_
        exact h

theorem keeps_cmdFlashWrite {s x : State} (h : Keeps s x) : ∀ a1 a2, Keeps s (cmdFlashWrite a1 a2 x) := by
  intro a1 a2
  unfold cmdFlashWrite
  dsimp only
  apply Keeps.ite
  · apply keeps_refuse
    exact h
  · apply Keeps.ite
    · apply keeps_refuse
      exact h
    · refine Keeps.upd rfl rfl rfl rfl rfl rfl rfl ?_
      exact h

theorem keeps_flashCompleteOp {s x : State} (h : Keeps s x) : ∀ a1, Keeps s (flashCompleteOp x a1) := by
  intro a1
  unfold flashCompleteOp
  split
  · exact h
  · rename_i f _
    have k : ∀ m n, (memWf 0xFF x.host.flash = true → memWf 0xFF m = true) →
        Keeps s { x with host := { x.host with flash := m, flashOp := none }, freeCount := n } :=
      fun m n hm => h.setFlash rfl rfl rfl rfl hm
    have hm : memWf 0xFF x.host.flash = true →
        memWf 0xFF (if f.erase then bytesClear x.host.flash f.offset f.len else flashProgram x.host.flash f.offset f.data) = true := by
      intro w
      split
      · exact bytesClear_wf _ _ w
      · exact bytesWrite_wf _ _ w
    apply Keeps.ite
    · apply keeps_refuse
      apply k
      intro w
      split
      · exact byteSet_wf _ _ (hm w)
      · exact hm w
    · apply keeps_replyOk
      apply k
      intro w
      split
      · exact byteSet_wf _ _ (hm w)
      · exact hm w

theorem keeps_State_setImage {s x : State} (h : Keeps s x) : ∀ a1 a2, Keeps s (State.setImage x a1 a2) := by
  intro a1 a2
  unfold State.setImage
  refine Keeps.upd rfl rfl rfl rfl rfl rfl rfl ?_
  exact h

theorem keeps_cmdKernelWrite {s x : State} (h : Keeps s x) : ∀ a1 a2, Keeps s (cmdKernelWrite a1 a2 x) := by
  intro a1 a2
  unfold cmdKernelWrite
  dsimp only
  apply Keeps.ite
  · apply keeps_refuse
    exact h
  · apply keeps_replyOk
    apply keeps_State_setImage
    exact h

theorem keeps_cmdKernelCommit {s x : State} (h : Keeps s x) : ∀ a1 a2, Keeps s (cmdKernelCommit a1 a2 x) := by
  intro a1 a2
  unfold cmdKernelCommit
  dsimp only
  apply Keeps.ite
  · apply keeps_refuse
    exact h
  · split
    · apply keeps_refuse
      apply keeps_State_setImage
      exact h
    · apply keeps_replyOk
      apply keeps_State_setImage
      exact h

theorem keeps_cmdKernelPlace {s x : State} (h : Keeps s x) : ∀ a1 a2, Keeps s (cmdKernelPlace a1 a2 x) := by
  intro a1 a2
  unfold cmdKernelPlace
  dsimp only
  apply Keeps.ite
  · apply keeps_refuse
    exact h
  · apply Keeps.ite
    · apply keeps_refuse
      exact h
    · apply Keeps.ite
      · apply keeps_refuse
        exact h
      · apply Keeps.ite
        · apply keeps_refuse
          exact h
        · split
          · apply keeps_refuse
            exact h
          · apply Keeps.ite
            · apply keeps_refuse
              exact h
            · apply Keeps.foldl
              · refine Keeps.upd rfl rfl rfl rfl rfl rfl rfl ?_
                exact h
              · intro _ _ k
                apply Keeps.ite
                · apply keeps_drainNow
                  assumption
                · apply keeps_placeStep
                  assumption

theorem keeps_cmdKernelStatus {s x : State} (h : Keeps s x) : ∀ a1 a2, Keeps s (cmdKernelStatus a1 a2 x) := by
  intro a1 a2
  unfold cmdKernelStatus
  apply keeps_replyOk
  exact h

theorem keeps_cmdMaintOpen {s x : State} (h : Keeps s x) : ∀ a1 a2, Keeps s (cmdMaintOpen a1 a2 x) := by
  intro a1 a2
  unfold cmdMaintOpen
  dsimp only
  apply Keeps.ite
  · apply keeps_refuse
    exact h
  · apply Keeps.ite
    · apply keeps_refuse
      exact h
    · apply Keeps.ite
      · apply keeps_replyOk
        exact h
      · apply keeps_replyOk
        apply keeps_openMaint
        exact h

theorem keeps_State_setProul {s x : State} (h : Keeps s x) : ∀ a1, Keeps s (State.setProul x a1) := by
  intro a1
  unfold State.setProul
  refine Keeps.upd rfl rfl rfl rfl rfl rfl rfl ?_
  exact h

theorem keeps_tapResetOp {s x : State} (h : Keeps s x) : Keeps s (tapResetOp x) := by
  unfold tapResetOp
  apply Keeps.ite
  · exact h
  · apply keeps_State_setProul
    exact h

theorem keeps_tapLoad {s x : State} (h : Keeps s x) : ∀ a1 a2, Keeps s (tapLoad x a1 a2) := by
  intro a1 a2
  unfold tapLoad
  apply Keeps.ite
  · exact h
  · apply keeps_State_setProul
    exact h

theorem keeps_tapDrive {s x : State} (h : Keeps s x) : ∀ a1 a2, Keeps s (tapDrive x a1 a2) := by
  intro a1 a2
  unfold tapDrive
  apply Keeps.ite
  · exact h
  · apply Keeps.ite
    · apply keeps_State_setProul
      exact h
    · apply keeps_State_setProul
      exact h

theorem keeps_tapRecheck {s x : State} (h : Keeps s x) : Keeps s (tapRecheck x) := by
  unfold tapRecheck
  apply Keeps.ite
  · exact h
  · apply keeps_State_setProul
    exact h

theorem keeps_resumeCore {s x : State} (h : Keeps s x) : ∀ a1, Keeps s (resumeCore x a1) := by
  intro a1
  unfold resumeCore
  dsimp only
  apply Keeps.ite
  · exact h
  · apply keeps_drainHook
    apply keeps_State_setCore
    exact h

theorem keeps_stepCore {s x : State} (h : Keeps s x) : ∀ a1, Keeps s (stepCore x a1) := by
  intro a1
  unfold stepCore
  dsimp only
  apply Keeps.ite
  · exact h
  · apply keeps_State_setCore
    exact h

theorem keeps_haltRequest {s x : State} (h : Keeps s x) : ∀ a1 a2, Keeps s (haltRequest x a1 a2) := by
  intro a1 a2
  unfold haltRequest
  apply Keeps.ite
  · exact h
  · apply keeps_requestHalt
    exact h

theorem keeps_dctlWrite {s x : State} (h : Keeps s x) : ∀ a1 a2, Keeps s (dctlWrite x a1 a2) := by
  intro a1 a2
  unfold dctlWrite
  apply Keeps.ite
  · apply keeps_haltRequest
    exact h
  · apply Keeps.ite
    · apply keeps_resumeCore
      exact h
    · apply Keeps.ite
      · apply keeps_stepCore
        exact h
      · exact h

theorem keeps_crossTrigger {s x : State} (h : Keeps s x) : ∀ a1, Keeps s (crossTrigger x a1) := by
  intro a1
  unfold crossTrigger
  apply Keeps.ite
  · exact h
  · apply keeps_haltRequest
    apply keeps_State_setProul
    exact h

theorem keeps_dbgRegWrite {s x : State} (h : Keeps s x) : ∀ a1 a2 a3, Keeps s (dbgRegWrite x a1 a2 a3) := by
  intro a1 a2 a3
  unfold dbgRegWrite
  dsimp only
  apply Keeps.ite
  · apply keeps_dctlWrite
    exact h
  · apply Keeps.ite
    · apply keeps_State_setCore
      exact h
    · apply Keeps.ite
      · apply keeps_State_setCore
        exact h
      · apply Keeps.ite
        · apply keeps_State_setCore
          exact h
        · exact h

theorem keeps_dbgStore {s x : State} (h : Keeps s x) : ∀ a1 a2, Keeps s (dbgStore x a1 a2) := by
  intro a1 a2
  unfold dbgStore
  split
  · apply keeps_State_setCore
    exact h
  · split
    · apply keeps_State_setCore
      exact h
    · exact h
  · dsimp only
    refine Keeps.upd rfl rfl rfl rfl rfl rfl rfl ?_
    apply keeps_State_setCore
    exact h
  · apply keeps_dbgRegWrite
    exact h
  · apply keeps_State_setCore
    exact h
  · apply keeps_State_setCore
    exact h
  · apply keeps_State_setProul
    exact h
  · exact h
  · exact h

theorem keeps_proulDone {s x : State} (h : Keeps s x) : ∀ a1 a2 a3, Keeps s (proulDone x a1 a2 a3) := by
  intro a1 a2 a3
  unfold proulDone
  apply keeps_State_setProul
  exact h

theorem keeps_proulOp {s x : State} (h : Keeps s x) (a : Nat) (body : State → State)
    (hb : ∀ y, Keeps s y → Keeps s (body y)) : Keeps s (proulOp x a body) := by
  unfold proulOp
  split
  · exact h
  · split
    · exact keeps_proulDone h _ _ _
    · exact hb _ h

theorem keeps_proulNop {s x : State} (h : Keeps s x) : Keeps s (proulNop x) := by
  unfold proulNop
  apply keeps_proulOp
  · exact h
  · intro _ k
    apply keeps_proulDone
    assumption

theorem keeps_proulFab {s x : State} (h : Keeps s x) : ∀ a1 a2 a3, Keeps s (proulFab x a1 a2 a3) := by
  intro a1 a2 a3
  unfold proulFab
  apply keeps_proulOp
  · exact h
  · intro _ k
    apply Keeps.ite
    · apply keeps_proulDone
      assumption
    · dsimp only
      apply keeps_issue
      apply keeps_State_setProul
      apply keeps_proulDone
      assumption

theorem keeps_proulResponse {s x : State} (h : Keeps s x) : ∀ a1 a2, Keeps s (proulResponse x a1 a2) := by
  intro a1 a2
  unfold proulResponse
  apply Keeps.ite
  · exact h
  · apply Keeps.ite
    · apply keeps_State_setProul
      exact h
    · apply Keeps.ite
      · apply keeps_State_setProul
        exact h
      · apply keeps_State_setProul
        exact h

theorem keeps_proulDbgRead {s x : State} (h : Keeps s x) : ∀ a1, Keeps s (proulDbgRead x a1) := by
  intro a1
  unfold proulDbgRead
  apply keeps_proulOp
  · exact h
  · intro _ k
    dsimp only
    apply Keeps.ite
    · apply keeps_proulDone
      assumption
    · split
      · apply Keeps.ite
        · apply keeps_proulDone
          assumption
        · apply keeps_proulDone
          assumption
      · apply keeps_proulDone
        assumption

theorem keeps_proulDbgWrite {s x : State} (h : Keeps s x) : ∀ a1 a2, Keeps s (proulDbgWrite x a1 a2) := by
  intro a1 a2
  unfold proulDbgWrite
  apply keeps_proulOp
  · exact h
  · intro _ k
    dsimp only
    split
    · apply keeps_proulDone
      assumption
    · apply keeps_proulDone
      assumption
    · split
      · apply Keeps.ite
        · apply keeps_proulDone
          apply keeps_dbgStore
          assumption
        · apply keeps_proulDone
          assumption
      · apply keeps_proulDone
        apply keeps_dbgStore
        assumption

theorem keeps_clearDebug {s x : State} (h : Keeps s x) : Keeps s (clearDebug x).1 := by
  unfold clearDebug
  dsimp only
  apply keeps_State_setProul
  refine Keeps.upd rfl rfl rfl rfl rfl rfl rfl ?_
  apply Keeps.foldl
  · exact h
  · intro _ _ k
    apply keeps_resumeCore
    assumption

theorem keeps_relock {s x : State} (h : Keeps s x) : ∀ a1, Keeps s (relock x a1) := by
  intro a1
  unfold relock
  apply Keeps.ite
  · exact h
  · dsimp only
    apply keeps_raise
    apply keeps_clearDebug
    exact h

theorem keeps_unlockExpiryOp {s x : State} (h : Keeps s x) : Keeps s (unlockExpiryOp x) := by
  unfold unlockExpiryOp
  split
  · apply Keeps.ite
    · apply keeps_relock
      exact h
    · exact h
  · exact h

theorem keeps_challengeExpiryOp {s x : State} (h : Keeps s x) : Keeps s (challengeExpiryOp x) := by
  unfold challengeExpiryOp
  split
  · apply Keeps.ite
    · apply keeps_State_setProul
      exact h
    · exact h
  · exact h

theorem keeps_cmdDbgChallenge {s x : State} (h : Keeps s x) : ∀ a1 a2, Keeps s (cmdDbgChallenge a1 a2 x) := by
  intro a1 a2
  unfold cmdDbgChallenge
  apply Keeps.ite
  · apply keeps_refuse
    exact h
  · dsimp only
    apply keeps_replyOk
    refine Keeps.upd rfl rfl rfl rfl rfl rfl rfl ?_
    apply keeps_State_setProul
    exact h

theorem keeps_unlockFails {s x : State} (h : Keeps s x) : ∀ a1 a2 a3, Keeps s (unlockFails x a1 a2 a3) := by
  intro a1 a2 a3
  unfold unlockFails
  dsimp only
  apply keeps_refuse
  apply keeps_raise
  apply keeps_State_setProul
  exact h

theorem keeps_challengeFails {s x : State} (h : Keeps s x) : ∀ a1, Keeps s (challengeFails x a1) := by
  intro a1
  unfold challengeFails
  apply keeps_State_setProul
  exact h

theorem keeps_cmdDbgUnlock {s x : State} (h : Keeps s x) : ∀ a1 a2, Keeps s (cmdDbgUnlock a1 a2 x) := by
  intro a1 a2
  unfold cmdDbgUnlock
  apply Keeps.ite
  · apply keeps_unlockFails
    exact h
  · split
    · apply keeps_unlockFails
      exact h
    · dsimp only
      apply Keeps.ite
      · apply keeps_unlockFails
        apply keeps_challengeFails
        exact h
      · apply Keeps.ite
        · apply keeps_unlockFails
          apply keeps_challengeFails
          exact h
        · apply keeps_replyOk
          apply keeps_raise
          apply keeps_State_setProul
          exact h

theorem keeps_cmdDbgLock {s x : State} (h : Keeps s x) : ∀ a1 a2, Keeps s (cmdDbgLock a1 a2 x) := by
  intro a1 a2
  unfold cmdDbgLock
  apply keeps_replyOk
  apply keeps_relock
  exact h

theorem keeps_cmdDbgStatus {s x : State} (h : Keeps s x) : ∀ a1 a2, Keeps s (cmdDbgStatus a1 a2 x) := by
  intro a1 a2
  unfold cmdDbgStatus
  dsimp only
  apply keeps_replyOk
  exact h

end Sys2Proof.Machine
end

