-- ==== Sys2Proof/Laws/KeepsStart.lean ====
section
/-! SUPPORT. What the operations of Machine/StartUp.lean keep. -/

set_option linter.unusedTactic false
set_option linter.unreachableTactic false
set_option linter.unusedVariables false

namespace Sys2Proof.Machine

theorem flashCut_wf (x : State) (w : memWf 0xFF x.host.flash = true) : memWf 0xFF (flashCut x).1 = true := by
  unfold flashCut
  split
  · exact w
  · exact bytesWrite_wf _ _ w

theorem keeps_coldClear {s x : State} (h : Keeps s x) : ∀ a1, Keeps s (coldClear x a1) :=
  fun _ => h.trans ⟨rfl, fun _ => Nat.zero_le _, fun _ => Nat.zero_le _, fun _ => Nat.zero_le _, flashCut_wf x,
    fun _ => ⟨Nat.zero_le _, Nat.zero_le _⟩⟩

theorem keeps_rstNAssertOp {s x : State} (h : Keeps s x) : Keeps s (rstNAssertOp x) := by
  unfold rstNAssertOp
  apply Keeps.ite
  · exact h
  · dsimp only
    refine Keeps.upd rfl rfl rfl rfl rfl rfl rfl ?_
    apply keeps_coldClear
    exact h

theorem keeps_powerRemovalOp {s x : State} (h : Keeps s x) : Keeps s (powerRemovalOp x) := by
  unfold powerRemovalOp
  dsimp only
  refine Keeps.upd rfl rfl rfl rfl rfl rfl rfl ?_
  apply keeps_coldClear
  exact h

theorem keeps_powerOnAll {s x : State} (h : Keeps s x) : ∀ a1, Keeps s (powerOnAll x a1) := by
  intro a1
  unfold powerOnAll
  refine Keeps.upd rfl rfl rfl rfl rfl rfl rfl ?_
  exact h

theorem keeps_setRoles {s x : State} (h : Keeps s x) : ∀ a1, Keeps s (setRoles x a1) := by
  intro a1
  unfold setRoles
  dsimp only
  refine Keeps.upd rfl rfl rfl rfl rfl rfl rfl ?_
  apply Keeps.foldl
  · exact h
  · intro _ _ k
    apply keeps_State_setHp
    assumption

theorem keeps_stepSram {s x : State} (h : Keeps s x) : Keeps s (stepSram x) := by
  unfold stepSram
  apply Keeps.foldl
  · refine Keeps.upd rfl rfl rfl rfl rfl rfl rfl ?_
    exact h
  · intro _ _ k
    apply keeps_noteTail
    assumption

theorem keeps_stepFill {s x : State} (h : Keeps s x) : Keeps s (stepFill x) := by
  unfold stepFill
  refine Keeps.upd rfl rfl rfl rfl rfl rfl rfl ?_
  exact h

theorem keeps_stepKeys {s x : State} (h : Keeps s x) : Keeps s (stepKeys x) := by
  unfold stepKeys
  refine Keeps.upd rfl rfl rfl rfl rfl rfl rfl ?_
  exact h

theorem keeps_calibrate {s x : State} (h : Keeps s x) : Keeps s (calibrate x) := by
  unfold calibrate
  apply Keeps.foldl
  · exact h
  · intro _ _ k
    apply Keeps.ite
    · apply keeps_restoreTrims
      apply keeps_State_setLane
      assumption
    · assumption

theorem keeps_restoreLanes {s x : State} (h : Keeps s x) : Keeps s (restoreLanes x) := by
  unfold restoreLanes
  apply Keeps.foldl
  · exact h
  · intro _ _ k
    apply keeps_restoreTrims
    assumption

theorem keeps_startCountProgram {s x : State} (h : Keeps s x) : ∀ a1 a2, Keeps s (startCountProgram x a1 a2) := by
  intro a1 a2
  unfold startCountProgram
  refine h.setFlash rfl rfl rfl rfl fun k => ?_
  dsimp only
  apply bytesWrite_wf
  split
  · exact bytesClear_wf _ _ k
  · exact k

theorem keeps_startCountUpdate {s x : State} (h : Keeps s x) : Keeps s (startCountUpdate x) := by
  unfold startCountUpdate
  apply Keeps.ite
  · apply keeps_startCountProgram
    exact h
  · exact h

theorem domainAfter_st (x : Domain) (m : Nat) : (domainAfter x m).st = x.st := by
  unfold domainAfter
  rfl

theorem keeps_startTime {s x : State} (h : Keeps s x) : ∀ a1, Keeps s (startTime x a1) := by
  intro a1
  unfold startTime
  exact Keeps.upd rfl rfl rfl rfl rfl (domainAfter_st _ _) (domainAfter_st _ _) h

theorem keeps_bootTest (bad : Bool) (code : Nat) {s : State} {r : BootRun} (h : Keeps s r.s) : Keeps s (testStep_ bad code r).s := by
  unfold testStep_
  split <;> exact h

theorem keeps_onState {f : State → State} {s : State} {r : BootRun} (h : Keeps s r.s) (hf : ∀ y, Keeps s y → Keeps s (f y)) :
    Keeps s (onState f r).s := hf _ h

theorem keeps_bootSteps {s : State} {l : List (Nat × (BootRun → BootRun))} {r : BootRun} (h : Keeps s r.s)
    (hl : ∀ e ∈ l, ∀ q : BootRun, Keeps s q.s → Keeps s (e.2 q).s) : Keeps s (l.foldl bootStep r).s := by
  induction l generalizing r with
  | nil => exact h
  | cons e l ih =>
    refine ih ?_ fun f hf => hl f (List.mem_cons_of_mem _ hf)
    unfold bootStep
    split
    · exact h
    · dsimp only
      split
      · exact hl e List.mem_cons_self _ h
      · exact Keeps.upd rfl rfl rfl rfl rfl rfl rfl (hl e List.mem_cons_self _ h)

theorem keeps_stepConfig (m : StartIn) {s : State} {r : BootRun} (h : Keeps s r.s) : Keeps s (stepConfig m r).s := by
  unfold stepConfig
  split
  · exact h
  · have k : ∀ l, Keeps s (setRoles r.s l) := fun l => keeps_setRoles h l
    have k1 : ∀ l b, Keeps s { setRoles r.s l with boot := { (setRoles r.s l).boot with fallback := b } } :=
      fun l b => Keeps.upd rfl rfl rfl rfl rfl rfl rfl (k l)
    dsimp only
    refine Keeps.upd rfl rfl rfl rfl rfl rfl rfl ?_
    apply Keeps.ite
    · exact k1 _ _
    · exact keeps_raise (k1 _ _) _ _ _ _

theorem keeps_stepRails (m : StartIn) {s : State} {r : BootRun} (h : Keeps s r.s) : Keeps s (stepRails m r).s := by
  unfold stepRails
  split
  · exact keeps_lanimanEvt h _ _
  · exact Keeps.upd rfl rfl rfl rfl rfl rfl rfl (keeps_powerOnAll h _)

theorem keeps_stepTrain (m : StartIn) {s : State} {r : BootRun} (h : Keeps s r.s) : Keeps s (stepTrain m r).s := by
  unfold stepTrain
  split
  · exact h
  · split
    · exact h
    · exact Keeps.upd rfl rfl rfl rfl rfl rfl rfl (keeps_powerOnAll h _)

theorem keeps_stepImage (m : StartIn) {s : State} {r : BootRun} (h : Keeps s r.s) : Keeps s (stepImage m r).s := by
  unfold stepImage
  split
  · exact h
  · dsimp only
    split
    · exact Keeps.upd rfl rfl rfl rfl rfl rfl rfl h
    · exact h

theorem keeps_stepImageWarm (m : StartIn) {s : State} {r : BootRun} (h : Keeps s r.s) : Keeps s (stepImageWarm m r).s := by
  unfold stepImageWarm
  split
  · exact h
  · exact keeps_stepImage m (r := { r with flags := r.flags + 8 }) h

theorem keeps_stepLanes (m : StartIn) {s : State} {r : BootRun} (h : Keeps s r.s) : Keeps s (stepLanes m r).s := by
  unfold stepLanes
  split
  · exact h
  · dsimp only
    apply keeps_calibrate
    apply Keeps.foldl
    · apply keeps_loadBoard
      exact Keeps.upd rfl rfl rfl rfl rfl rfl rfl (keeps_powerOnAll h _)
    · exact fun _ _ k => keeps_laneEvt k _ _ _

theorem keeps_stepLaniman (m : StartIn) {s : State} {r : BootRun} (h : Keeps s r.s) : Keeps s (stepLaniman m r).s := by
  unfold stepLaniman
  split
  · exact h
  · exact Keeps.upd rfl rfl rfl rfl rfl rfl rfl (keeps_startCountUpdate h)

theorem keeps_stepClockWarm (m : StartIn) {s : State} {r : BootRun} (h : Keeps s r.s) : Keeps s (stepClockWarm m r).s := by
  unfold stepClockWarm
  split
  · exact h
  · split
    · exact h
    · exact Keeps.upd rfl rfl rfl rfl rfl rfl rfl h

theorem keeps_stepVerify (m : StartIn) {s : State} {r : BootRun} (h : Keeps s r.s) : Keeps s (stepVerify m r).s := by
  unfold stepVerify
  split
  · exact h
  · dsimp only
    exact keeps_raiseLimited (keeps_State_setRegion h _ _) _ _ _ _ _ _ _

theorem keeps_startDone {s : State} {r : BootRun} (h : Keeps s r.s) : ∀ a1 a2 a3 a4, Keeps s (startDone r a1 a2 a3 a4) := by
  intro a1 a2 a3 a4
  unfold startDone
  dsimp only
  apply keeps_tapRecheck
  apply keeps_lanimanEvt
  refine keeps_setDevState ?_ _ (by decide)
  exact Keeps.upd rfl rfl rfl rfl rfl rfl rfl (keeps_flowTableIdle h)

theorem keeps_startFailed {s : State} {r : BootRun} (h : Keeps s r.s) : ∀ a1, Keeps s (startFailed r a1) := by
  intro a1
  unfold startFailed
  dsimp only
  refine keeps_setDevState ?_ _ (by decide)
  exact Keeps.upd rfl rfl rfl rfl rfl rfl rfl h

theorem keeps_coldSteps (m : StartIn) {s : State} : ∀ e ∈ coldSteps m, ∀ q : BootRun, Keeps s q.s → Keeps s (e.2 q).s := by
  intro e he q h
  simp only [coldSteps, List.mem_cons, List.not_mem_nil, or_false] at he
  rcases he with rfl | rfl | rfl | rfl | rfl | rfl | rfl | rfl | rfl | rfl | rfl | rfl | rfl
  · exact keeps_bootTest _ _ h
  · exact keeps_bootTest _ _ h
  · exact keeps_powerOnAll h _
  · exact keeps_bootTest _ _ h
  · exact keeps_stepConfig m h
  · exact keeps_stepRails m h
  · exact keeps_stepSram h
  · exact keeps_stepTrain m h
  · exact keeps_stepFill h
  · dsimp only
    exact keeps_stepImage m h
  · exact keeps_stepKeys h
  · exact keeps_stepLanes m h
  · exact keeps_stepLaniman m h

theorem keeps_coldRun {s x : State} (h : Keeps s x) : ∀ a1 a2 a3, Keeps s (coldRun x a1 a2 a3) := by
  intro a1 a2 a3
  unfold coldRun
  have k : Keeps s ((coldSteps a1).foldl bootStep { s := startTime x a1.micros }).s :=
    keeps_bootSteps (keeps_startTime h _) (keeps_coldSteps a1)
  dsimp only
  apply Keeps.ite
  · exact keeps_startFailed k _
  · exact keeps_startDone k _ _ _ _

theorem keeps_coldStartOp {s x : State} (h : Keeps s x) : ∀ a1, Keeps s (coldStartOp x a1) := by
  intro a1
  unfold coldStartOp
  apply Keeps.ite
  · dsimp only
    apply keeps_coldRun
    apply keeps_tapRecheck
    refine Keeps.upd rfl rfl rfl rfl rfl rfl rfl ?_
    apply keeps_coldClear
    exact h
  · apply Keeps.ite
    · exact h
    · apply keeps_coldRun
      exact h

theorem keeps_quiesce {s x : State} (h : Keeps s x) : Keeps s (quiesce x) := by
  unfold quiesce
  dsimp only
  apply keeps_flushTile
  apply keeps_flushTile
  apply Keeps.foldl
  · apply Keeps.foldl
    · exact h
    · intro _ _ k
      apply keeps_clockRecoveryLoss
      assumption
  · intro _ _ k
    apply keeps_closeMaint
    assumption

theorem keeps_warmHost {s x : State} (h : Keeps s x) : Keeps s (warmHost x) := by
  unfold warmHost
  dsimp only
  have k : Keeps s ((List.range 4).foldl (fun t h => t.setHp h (portWarm (t.hp h))) (discardPackets x)) :=
    Keeps.foldl (keeps_discardPackets h) fun _ _ q => keeps_State_setHp q _ _
  exact ⟨k.pending, k.dev, k.act, k.queue, fun w => flashCut_wf x (h.flash w), k.doms⟩

theorem keeps_warmTime {s x : State} (h : Keeps s x) : Keeps s (warmTime x) := by
  unfold warmTime
  dsimp only
  refine Keeps.upd rfl rfl rfl rfl rfl rfl rfl ?_
  exact h

theorem keeps_warmUnits {s x : State} (h : Keeps s x) : Keeps s (warmUnits x) := by
  unfold warmUnits
  dsimp only
  refine Keeps.upd rfl rfl rfl rfl rfl rfl rfl ?_
  apply keeps_millEmpty
  exact h

theorem keeps_warmRest {s x : State} (h : Keeps s x) : Keeps s (warmRest x) := by
  unfold warmRest
  dsimp only
  apply Keeps.ite
  · apply keeps_State_setProul
    apply keeps_clearDebug
    refine Keeps.upd rfl rfl rfl rfl rfl rfl rfl ?_
    exact h
  · apply keeps_clearDebug
    refine Keeps.upd rfl rfl rfl rfl rfl rfl rfl ?_
    exact h

theorem keeps_warmClear {s x : State} (h : Keeps s x) : Keeps s (warmClear x) := by
  unfold warmClear
  apply keeps_warmRest
  apply keeps_warmUnits
  apply keeps_warmTime
  apply keeps_warmHost
  apply keeps_quiesce
  exact h

theorem keeps_warmSteps (m : StartIn) {s : State} : ∀ e ∈ warmSteps m, ∀ q : BootRun, Keeps s q.s → Keeps s (e.2 q).s := by
  intro e he q h
  simp only [warmSteps, List.mem_cons, List.not_mem_nil, or_false] at he
  rcases he with rfl | rfl | rfl | rfl | rfl | rfl | rfl | rfl | rfl | rfl | rfl | rfl | rfl
  · exact keeps_bootTest _ _ h
  · exact keeps_bootTest _ _ h
  · exact h
  · exact keeps_stepClockWarm m h
  · exact h
  · exact keeps_stepRails m h
  · exact keeps_stepSram h
  · dsimp only
    split
    · exact h
    · exact keeps_powerOnAll h _
  · exact h
  · dsimp only
    exact keeps_stepImageWarm m h
  · dsimp only
    exact keeps_stepVerify m h
  · dsimp only [onState]
    exact keeps_restoreLanes (keeps_powerOnAll h _)
  · exact keeps_bootTest _ _ h

theorem keeps_warmRun {s x : State} (h : Keeps s x) : ∀ a1, Keeps s (warmRun x a1) := by
  intro a1
  unfold warmRun
  have k : Keeps s ((warmSteps a1).foldl bootStep { s := x }).s := keeps_bootSteps h (keeps_warmSteps a1)
  dsimp only
  apply Keeps.ite
  · exact keeps_startDone k _ _ _ _
  · apply Keeps.ite
    · exact keeps_coldRun (keeps_coldClear k _) _ _ _
    · exact keeps_startFailed k _

theorem keeps_warmStartOp {s x : State} (h : Keeps s x) : ∀ a1, Keeps s (warmStartOp x a1) := by
  intro a1
  unfold warmStartOp
  apply Keeps.ite
  · exact h
  · dsimp only
    apply keeps_warmRun
    apply keeps_warmClear
    apply keeps_setDevState
    · refine Keeps.upd rfl rfl rfl rfl rfl rfl rfl ?_
      exact h
    · first | assumption | rfl | omega | exact dom_st (by assumption) _ | decide | (split <;> omega) | (exact And.left (by assumption)) | (exact And.right (by assumption))

theorem keeps_wrstNOp {s x : State} (h : Keeps s x) : Keeps s (wrstNOp x) := by
  unfold wrstNOp
  apply Keeps.ite
  · exact h
  · dsimp only
    refine Keeps.upd rfl rfl rfl rfl rfl rfl rfl ?_
    apply Keeps.ite
    · apply keeps_writeWake
      exact h
    · exact h

theorem keeps_thermAlertOp {s x : State} (h : Keeps s x) : ∀ a1, Keeps s (thermAlertOp x a1) := by
  intro a1
  unfold thermAlertOp
  apply Keeps.ite
  · exact h
  · refine Keeps.upd rfl rfl rfl rfl rfl rfl rfl ?_
    exact h

theorem keeps_thermtripOp {s x : State} (h : Keeps s x) : Keeps s (thermtripOp x) := by
  unfold thermtripOp
  apply Keeps.ite
  · exact h
  · dsimp only
    refine Keeps.upd rfl rfl rfl rfl rfl rfl rfl ?_
    apply keeps_warmUnits
    apply keeps_discardPackets
    exact h

end Sys2Proof.Machine
end

