-- ==== Sys2Proof/Laws/KeepsRows.lean ====
section
/-! SUPPORT. What the operations of Machine/FabricRows.lean, Machine/Timed.lean, Machine/PortRows.lean, Machine/Packets.lean keep. -/

set_option linter.unusedTactic false
set_option linter.unreachableTactic false
set_option linter.unusedVariables false

namespace Sys2Proof.Machine

theorem keeps_fabEvt {s x : State} (h : Keeps s x) : ∀ a1 a2 a3, Keeps s (fabEvt x a1 a2 a3) := by
  intro a1 a2 a3
  unfold fabEvt
  apply keeps_raise
  exact h

theorem keeps_atClosed {s x : State} (h : Keeps s x) : ∀ a1 a2, Keeps s (atClosed x a1 a2) := by
  intro a1 a2
  unfold atClosed
  apply Keeps.ite
  · apply keeps_answerOff
    exact h
  · dsimp only
    apply Keeps.ite
    · refine Keeps.upd rfl rfl rfl rfl rfl rfl rfl ?_
      exact h
    · apply keeps_raiseLimited
      apply keeps_answerOff
      refine Keeps.upd rfl rfl rfl rfl rfl rfl rfl ?_
      exact h

theorem keeps_reservedCommand {s x : State} (h : Keeps s x) : ∀ a1, Keeps s (reservedCommand x a1) := by
  intro a1
  unfold reservedCommand
  apply keeps_deny
  refine Keeps.upd rfl rfl rfl rfl rfl rfl rfl ?_
  exact h

theorem keeps_request {s x : State} (h : Keeps s x) (m : FabMsg) (body : State → Target → State)
    (hb : ∀ y t, Keeps s y → Keeps s (body y t)) : Keeps s (request x m body) := by
  have k := keeps_touchNode (keeps_arrive h m) m.dst
  unfold request
  dsimp only
  split
  · exact keeps_atClosed k _ _
  · apply Keeps.ite
    · exact keeps_reservedCommand k _
    · split
      · exact Keeps.ite (keeps_millBad k _ _ _) (Keeps.ite (keeps_millBad k _ _ _) (hb _ _ k))
      · exact keeps_deny k _ _
      · exact Keeps.ite (keeps_deny k _ _) (Keeps.ite (keeps_deny k _ _) (hb _ _ k))

theorem keeps_hostRead {s x : State} (h : Keeps s x) : ∀ a1 a2 a3, Keeps s (hostRead x a1 a2 a3) := by
  intro a1 a2 a3
  unfold hostRead
  apply Keeps.ite
  · apply keeps_deny
    exact h
  · apply Keeps.ite
    · exact h
    · apply keeps_respond
      exact h

theorem keeps_readOp {s x : State} (h : Keeps s x) : ∀ a1 a2, Keeps s (readOp x a1 a2) := by
  intro a1 a2
  unfold readOp
  dsimp only
  apply keeps_request
  · exact h
  · intro _ _ k
    split
    · apply keeps_memRequest
      assumption
    · apply keeps_bankRead
      assumption
    · apply Keeps.ite
      · apply keeps_deny
        assumption
      · apply keeps_bankRead
        assumption
    · apply Keeps.ite
      · apply keeps_deny
        assumption
      · apply keeps_bankRead
        assumption
    · apply keeps_millWinRead
      assumption
    · apply keeps_dmaWinRead
      assumption
    · apply Keeps.ite
      · apply keeps_deny
        assumption
      · apply keeps_respond
        refine Keeps.upd rfl rfl rfl rfl rfl rfl rfl ?_
        assumption
    · apply keeps_hostRead
      assumption
    · assumption

theorem keeps_discardPoison {s x : State} (h : Keeps s x) : ∀ a1, Keeps s (discardPoison x a1) := by
  intro a1
  unfold discardPoison
  apply keeps_fabEvt
  apply keeps_respond
  exact h

theorem keeps_stagingWrite {s x : State} (h : Keeps s x) : ∀ a1 a2 a3 a4, Keeps s (stagingWrite x a1 a2 a3 a4) := by
  intro a1 a2 a3 a4
  unfold stagingWrite
  apply Keeps.ite
  · apply Keeps.ite
    · apply keeps_deny
      exact h
    · apply keeps_respond
      apply keeps_stagingDoorbell
      exact h
  · apply Keeps.ite
    · dsimp only
      apply keeps_midhaulPump
      apply keeps_bankWrite
      exact h
    · apply keeps_bankWrite
      exact h

theorem keeps_hostWrite {s x : State} (h : Keeps s x) : ∀ a1 a2 a3, Keeps s (hostWrite x a1 a2 a3) := by
  intro a1 a2 a3
  unfold hostWrite
  apply Keeps.ite
  · apply keeps_deny
    exact h
  · apply Keeps.ite
    · exact h
    · apply keeps_respond
      apply keeps_State_setHp
      exact h

theorem keeps_writeOp {s x : State} (h : Keeps s x) : ∀ a1 a2, Keeps s (writeOp x a1 a2) := by
  intro a1 a2
  unfold writeOp
  dsimp only
  apply keeps_request
  · exact h
  · intro _ _ k
    apply Keeps.ite
    · apply keeps_discardPoison
      assumption
    · split
      · apply keeps_memRequest
        assumption
      · apply keeps_bankWrite
        assumption
      · apply Keeps.ite
        · apply keeps_deny
          assumption
        · apply keeps_bankWrite
          assumption
      · apply keeps_stagingWrite
        assumption
      · apply keeps_millWinWrite
        assumption
      · apply keeps_dmaWinWrite
        assumption
      · apply Keeps.ite
        · apply keeps_respond
          assumption
        · apply keeps_deny
          assumption
      · apply keeps_hostWrite
        assumption
      · assumption

theorem keeps_atomicOp {s x : State} (h : Keeps s x) : ∀ a1 a2 a3, Keeps s (atomicOp x a1 a2 a3) := by
  intro a1 a2 a3
  unfold atomicOp
  apply keeps_request
  · exact h
  · intro _ _ k
    apply Keeps.ite
    · split
      · apply keeps_millBad
        assumption
      · apply keeps_deny
        assumption
    · split
      · apply keeps_bankAtomic
        assumption
      · apply Keeps.ite
        · apply keeps_deny
          assumption
        · apply keeps_bankAtomic
          assumption
      · apply Keeps.ite
        · apply keeps_respond
          assumption
        · apply keeps_bankAtomic
          assumption
      · assumption

theorem keeps_atomicAddOp {s x : State} (h : Keeps s x) : ∀ a1 a2, Keeps s (atomicAddOp x a1 a2) := by
  intro a1 a2
  unfold atomicAddOp
  apply keeps_atomicOp
  exact h

theorem keeps_swapOp {s x : State} (h : Keeps s x) : ∀ a1 a2, Keeps s (swapOp x a1 a2) := by
  intro a1 a2
  unfold swapOp
  apply keeps_atomicOp
  exact h

theorem keeps_tacFault {s x : State} (h : Keeps s x) : ∀ a1 a2, Keeps s (tacFault x a1 a2) := by
  intro a1 a2
  unfold tacFault
  apply keeps_raise
  exact h

theorem keeps_comparatorAnswer {s x : State} (h : Keeps s x) : ∀ a1, Keeps s (comparatorAnswer x a1) := by
  intro a1
  unfold comparatorAnswer
  dsimp only
  apply Keeps.ite
  · apply keeps_tacFault
    exact h
  · exact h

theorem keeps_dropOldGen {s x : State} (h : Keeps s x) : ∀ a1, Keeps s (dropOldGen x a1) := by
  intro a1
  unfold dropOldGen
  apply Keeps.ite
  · apply keeps_State_setEngine
    exact h
  · apply keeps_State_setNi
    exact h

theorem keeps_toMaster {s x : State} (h : Keeps s x) : ∀ a1 a2 a3, Keeps s (toMaster x a1 a2 a3) := by
  intro a1 a2 a3
  unfold toMaster
  apply Keeps.ite
  · apply keeps_dmaResponse
    exact h
  · apply Keeps.ite
    · apply keeps_proulResponse
      exact h
    · apply Keeps.ite
      · apply keeps_prachWritten
        exact h
      · exact h

theorem keeps_responseOp {s x : State} (h : Keeps s x) : ∀ a1, Keeps s (responseOp x a1) := by
  intro a1
  unfold responseOp
  dsimp only
  apply Keeps.ite
  · apply keeps_arrive
    exact h
  · apply Keeps.ite
    · apply keeps_comparatorAnswer
      apply keeps_arrive
      exact h
    · apply Keeps.ite
      · apply keeps_dropOldGen
        apply keeps_arrive
        exact h
      · split
        · apply keeps_arrive
          exact h
        · apply Keeps.ite
          · refine Keeps.upd rfl rfl rfl rfl rfl rfl rfl ?_
            apply keeps_arrive
            exact h
          · apply keeps_toMaster
            refine Keeps.upd rfl rfl rfl rfl rfl rfl rfl ?_
            apply keeps_arrive
            exact h

theorem keeps_requestTimeoutOp {s x : State} (h : Keeps s x) : ∀ a1 a2, Keeps s (requestTimeoutOp x a1 a2) := by
  intro a1 a2
  unfold requestTimeoutOp
  split
  · exact h
  · apply Keeps.ite
    · exact h
    · dsimp only
      apply keeps_toMaster
      apply keeps_raiseLimited
      refine Keeps.upd rfl rfl rfl rfl rfl rfl rfl ?_
      exact h

theorem keeps_waitingResets {s x : State} (h : Keeps s x) : Keeps s (waitingResets x) := by
  unfold waitingResets
  apply Keeps.foldl
  · exact h
  · intro _ _ k
    apply Keeps.ite
    · apply keeps_masterReset
      assumption
    · apply keeps_masterReset
      assumption

theorem keeps_flitCrcOp {s x : State} (h : Keeps s x) : ∀ a1 a2, Keeps s (flitCrcOp x a1 a2) := by
  intro a1 a2
  unfold flitCrcOp
  apply Keeps.ite
  · exact h
  · dsimp only
    apply keeps_raiseLimited
    refine Keeps.upd rfl rfl rfl rfl rfl rfl rfl ?_
    exact h

theorem keeps_linkStuckOp {s x : State} (h : Keeps s x) : ∀ a1 a2, Keeps s (linkStuckOp x a1 a2) := by
  intro a1 a2
  unfold linkStuckOp
  apply Keeps.ite
  · exact h
  · dsimp only
    apply Keeps.ite
    · exact h
    · apply keeps_enterSafe
      apply keeps_fabEvt
      refine Keeps.upd rfl rfl rfl rfl rfl rfl rfl ?_
      exact h

theorem keeps_cmdFabricCounters {s x : State} (h : Keeps s x) : ∀ a1 a2, Keeps s (cmdFabricCounters a1 a2 x) := by
  intro a1 a2
  unfold cmdFabricCounters
  apply keeps_replyFields
  exact h

theorem keeps_compPost {s x : State} (h : Keeps s x) : ∀ a1 a2 a3, Keeps s (compPost x a1 a2 a3) := by
  intro a1 a2 a3
  unfold compPost
  apply keeps_issue
  exact h

theorem keeps_compCheck {s x : State} (h : Keeps s x) : ∀ a1 a2, Keeps s (compCheck x a1 a2) := by
  intro a1 a2
  unfold compCheck
  apply Keeps.ite
  · apply keeps_tacFault
    exact h
  · apply keeps_inject
    exact h

theorem keeps_compPulse {s x : State} (h : Keeps s x) : ∀ a1 a2, Keeps s (compPulse x a1 a2) := by
  intro a1 a2
  unfold compPulse
  dsimp only
  refine Keeps.upd rfl rfl rfl rfl rfl rfl rfl ?_
  exact h

theorem keeps_compAction {s x : State} (h : Keeps s x) : ∀ a1 a2, Keeps s (compAction x a1 a2) := by
  intro a1 a2
  unfold compAction
  split
  · apply Keeps.ite
    · apply Keeps.ite
      · apply keeps_shadowSwapOp
        exact h
      · apply keeps_commitRollbackOp
        exact h
    · exact h
  · apply keeps_compPost
    exact h
  · apply keeps_compPost
    exact h
  · apply Keeps.foldl
    · exact h
    · intro _ _ k
      apply keeps_compCheck
      assumption
  · apply keeps_compPulse
    exact h
  · apply keeps_raise
    exact h
  · exact h

theorem keeps_fire {s x : State} (h : Keeps s x) : ∀ a1, Keeps s (fire x a1) := by
  intro a1
  unfold fire
  dsimp only
  apply Keeps.ite
  · apply keeps_wakeHold
    apply keeps_compAction
    apply keeps_State_setComp
    exact h
  · apply keeps_compAction
    apply keeps_State_setComp
    exact h

theorem keeps_tacLate {s x : State} (h : Keeps s x) : ∀ a1 a2, Keeps s (tacLate x a1 a2) := by
  intro a1 a2
  unfold tacLate
  apply keeps_raise
  exact h

theorem keeps_comparatorFireOp {s x : State} (h : Keeps s x) : ∀ a1, Keeps s (comparatorFireOp x a1) := by
  intro a1
  unfold comparatorFireOp
  apply Keeps.ite
  · dsimp only
    apply Keeps.ite
    · apply keeps_tacLate
      apply keeps_fire
      exact h
    · apply keeps_fire
      exact h
  · exact h

theorem keeps_taoutPulseEndOp {s x : State} (h : Keeps s x) : ∀ a1, Keeps s (taoutPulseEndOp x a1) := by
  intro a1
  unfold taoutPulseEndOp
  split
  · apply Keeps.ite
    · refine Keeps.upd rfl rfl rfl rfl rfl rfl rfl ?_
      exact h
    · exact h
  · exact h

theorem keeps_millCheckRow {s x : State} (h : Keeps s x) : ∀ a1, Keeps s (millCheckRow x a1) := by
  intro a1
  unfold millCheckRow
  dsimp only
  apply keeps_millCheckOp
  refine Keeps.upd rfl rfl rfl rfl rfl rfl rfl ?_
  exact h

theorem keeps_cmdTimedArm {s x : State} (h : Keeps s x) : ∀ a1 a2, Keeps s (cmdTimedArm a1 a2 x) := by
  intro a1 a2
  unfold cmdTimedArm
  dsimp only
  split
  · apply keeps_refuse
    exact h
  · apply keeps_replyOk
    apply keeps_State_setComp
    exact h

theorem keeps_cmdTimedCancel {s x : State} (h : Keeps s x) : ∀ a1 a2, Keeps s (cmdTimedCancel a1 a2 x) := by
  intro a1 a2
  unfold cmdTimedCancel
  dsimp only
  apply Keeps.ite
  · apply keeps_refuse
    exact h
  · apply Keeps.ite
    · apply keeps_refuse
      exact h
    · apply Keeps.ite
      · apply keeps_refuse
        exact h
      · apply Keeps.ite
        · apply Keeps.ite
          · apply keeps_refuse
            apply keeps_fire
            exact h
          · apply keeps_replyOk
            apply keeps_State_setComp
            apply keeps_fire
            exact h
        · apply Keeps.ite
          · apply keeps_replyOk
            apply keeps_State_setComp
            exact h
          · apply Keeps.ite
            · apply keeps_refuse
              exact h
            · apply keeps_refuse
              exact h

theorem keeps_cmdTimedStatus {s x : State} (h : Keeps s x) : ∀ a1 a2, Keeps s (cmdTimedStatus a1 a2 x) := by
  intro a1 a2
  unfold cmdTimedStatus
  apply keeps_replyFields
  exact h

theorem keeps_realign {s x : State} (h : Keeps s x) : ∀ a1, Keeps s (realign x a1) := by
  intro a1
  unfold realign
  dsimp only
  apply Keeps.ite
  · apply keeps_timeEvt
    refine Keeps.upd rfl rfl rfl rfl rfl rfl rfl ?_
    exact h
  · apply keeps_millTick
    apply Keeps.foldl
    · apply keeps_timeEvt
      refine Keeps.upd rfl rfl rfl rfl rfl rfl rfl ?_
      exact h
    · intro _ _ k
      apply Keeps.ite
      · apply keeps_tacLate
        apply keeps_fire
        assumption
      · assumption

theorem keeps_cmdTimeRealign {s x : State} (h : Keeps s x) : ∀ a1 a2, Keeps s (cmdTimeRealign a1 a2 x) := by
  intro a1 a2
  unfold cmdTimeRealign
  apply Keeps.ite
  · apply keeps_refuse
    exact h
  · apply keeps_replyOk
    apply keeps_realign
    exact h

theorem keeps_switchActive {s x : State} (h : Keeps s x) : ∀ a1, Keeps s (switchActive x a1) := by
  intro a1
  unfold switchActive
  dsimp only
  apply keeps_timeEvt
  exact h.trans ⟨rfl, id, fun _ => Nat.sub_le _ _, id, id, id⟩

theorem keeps_autoSwitch {s x : State} (h : Keeps s x) : Keeps s (autoSwitch x) := by
  unfold autoSwitch
  dsimp only
  apply Keeps.ite
  · apply keeps_switchActive
    exact h
  · apply Keeps.ite
    · apply keeps_switchActive
      exact h
    · exact h

theorem keeps_commandedSwitch {s x : State} (h : Keeps s x) : Keeps s (commandedSwitch x) := by
  unfold commandedSwitch
  split
  · exact h
  · dsimp only
    apply Keeps.ite
    · apply keeps_replyOk
      refine Keeps.upd rfl rfl rfl rfl rfl rfl rfl ?_
      exact h
    · apply Keeps.ite
      · apply keeps_refuse
        refine Keeps.upd rfl rfl rfl rfl rfl rfl rfl ?_
        exact h
      · apply keeps_replyOk
        apply keeps_switchActive
        refine Keeps.upd rfl rfl rfl rfl rfl rfl rfl ?_
        exact h

theorem keeps_autoRealign {s x : State} (h : Keeps s x) : Keeps s (autoRealign x) := by
  unfold autoRealign
  apply Keeps.ite
  · apply keeps_realign
    exact h
  · exact h

theorem keeps_activeRoleEvaluationOp {s x : State} (h : Keeps s x) : Keeps s (activeRoleEvaluationOp x) := by
  unfold activeRoleEvaluationOp
  apply keeps_autoRealign
  apply keeps_commandedSwitch
  apply keeps_autoSwitch
  exact h

theorem ppsDue_wf (s : State) (k : Nat) : ∀ i ∈ ppsDue s k, Instr.wf i = true := by
  intro i hi
  unfold ppsDue at hi
  simp only [List.mem_append] at hi
  rcases hi with h | h
  · split at h
    · rw [List.mem_singleton.mp h]
      rfl
    · cases h
  · split at h
    · split at h
      · rw [List.mem_singleton.mp h]
        rfl
      · cases h
    · cases h

theorem dueRows_wf (old s : State) : ∀ i ∈ dueRows old s, Instr.wf i = true := by
  intro i hi
  unfold dueRows at hi
  simp only [List.mem_append] at hi
  rcases hi with ((((h | h) | h) | h) | h) | h
  · split at h
    · rcases List.mem_singleton.mp h with rfl
      rfl
    · cases h
  · split at h
    · rcases List.mem_singleton.mp h with rfl
      rfl
    · cases h
  · split at h
    · rcases List.mem_singleton.mp h with rfl
      rfl
    · cases h
  · obtain ⟨k, _, h⟩ := List.mem_flatMap.mp h
    exact ppsDue_wf s k i h
  · obtain ⟨e, _, rfl⟩ := List.mem_map.mp h
    rfl
  · obtain ⟨e, _, rfl⟩ := List.mem_map.mp h
    rfl

theorem idleCycle_keeps (s : State) :
    Keeps s { idleCycle s with pending := s.pending } ∧ ∃ l, (∀ i ∈ l, Instr.wf i = true) ∧ (idleCycle s).pending = s.pending ++ l := by
  unfold idleCycle
  split
  · exact ⟨Keeps.refl s, [], by simp, by simp⟩
  · have ku := keeps_millTick (keeps_waitingResets (keeps_timeTick (Keeps.refl s)))
    have k := keeps_idleWatch (Keeps.foldl (f := dmaAirtimeReached)
      (l := dueChannels (millTick (waitingResets (timeTick s)))) ku fun _ _ k => keeps_dmaAirtimeReached k _)
    dsimp only
    generalize idleWatch _ = u at k ⊢
    exact ⟨⟨rfl, k.dev, k.act, k.queue, k.flash, k.doms⟩, _, dueRows_wf s _, by rw [k.pending]⟩

theorem keeps_roleDrop {s x : State} (h : Keeps s x) : ∀ a1, Keeps s (roleDrop x a1) := by
  intro a1
  unfold roleDrop
  apply keeps_modPort
  exact h

theorem keeps_timingRx {s x : State} (h : Keeps s x) : ∀ a1 a2 a3, Keeps s (timingRx x a1 a2 a3) := by
  intro a1 a2 a3
  unfold timingRx
  apply Keeps.ite
  · apply keeps_ptpRx
    exact h
  · apply keeps_roleDrop
    exact h

theorem keeps_roleRx {s x : State} (h : Keeps s x) : ∀ a1 a2 a3, Keeps s (roleRx x a1 a2 a3) := by
  intro a1 a2 a3
  unfold roleRx
  split
  · apply keeps_classify
    exact h
  · apply keeps_midhaulRx
    exact h
  · apply Keeps.ite
    · apply keeps_poolFrame
      refine Keeps.upd rfl rfl rfl rfl rfl rfl rfl ?_
      exact h
    · apply keeps_timingRx
      exact h
  · apply keeps_timingRx
    exact h

theorem keeps_frameIn {s x : State} (h : Keeps s x) : ∀ a1 a2 a3 a4, Keeps s (frameIn x a1 a2 a3 a4) := by
  intro a1 a2 a3 a4
  unfold frameIn
  apply Keeps.ite
  · exact h
  · split
    · apply keeps_modLink
      exact h
    · apply keeps_roleRx
      apply Keeps.ite
      · apply keeps_esmcFrame
        exact h
      · exact h

theorem keeps_frameReceived {s x : State} (h : Keeps s x) : ∀ a1 a2 a3 a4, Keeps s (frameReceived x a1 a2 a3 a4) := by
  intro a1 a2 a3 a4
  unfold frameReceived
  apply Keeps.ite
  · exact h
  · apply keeps_frameIn
    exact h

theorem keeps_frameLost {s x : State} (h : Keeps s x) : ∀ a1 a2 a3, Keeps s (frameLost x a1 a2 a3) := by
  intro a1 a2 a3
  unfold frameLost
  apply keeps_txKick
  apply keeps_midhaulPump
  apply keeps_safeReplace
  apply keeps_frameDone
  apply keeps_modLink
  exact h

theorem keeps_frameSent {s x : State} (h : Keeps s x) : ∀ a1 a2, Keeps s (frameSent x a1 a2) := by
  intro a1 a2
  unfold frameSent
  split
  · apply Keeps.ite
    · apply keeps_frameLost
      exact h
    · dsimp only
      apply Keeps.ite
      · apply keeps_frameIn
        apply keeps_frameTransmitted
        apply Keeps.ite
        · apply keeps_poolSent
          exact h
        · exact h
      · apply keeps_frameTransmitted
        apply Keeps.ite
        · apply keeps_poolSent
          exact h
        · exact h
  · exact h

theorem keeps_migrateRow {s x : State} (h : Keeps s x) : ∀ a1 a2 a3, Keeps s (migrateRow x a1 a2 a3) := by
  intro a1 a2 a3
  unfold migrateRow
  split
  · apply Keeps.ite
    · apply keeps_poolRow
      exact h
    · exact h
  · apply keeps_poolRow
    exact h

theorem keeps_opDevice {s x : State} (h : Keeps s x) : ∀ a1 a2 a3, Keeps s (opDevice a1 a2 a3 x) := by
  intro a1 a2 a3
  unfold opDevice
  split
  · apply keeps_cmdDevInfo
    exact h
  · apply keeps_cmdDevStatus
    exact h
  · apply keeps_cmdResetWarm
    exact h
  · apply keeps_cmdFlashRead
    exact h
  · apply keeps_cmdFlashErase
    exact h
  · apply keeps_cmdFlashWrite
    exact h
  · apply keeps_cmdParamGet
    exact h
  · apply keeps_cmdParamSet
    exact h
  · apply keeps_cmdCfgStage
    exact h
  · apply keeps_cmdCfgArm
    exact h
  · apply keeps_cmdCfgDigest
    exact h

theorem keeps_opCompute {s x : State} (h : Keeps s x) : ∀ a1 a2 a3, Keeps s (opCompute a1 a2 a3 x) := by
  intro a1 a2 a3
  unfold opCompute
  split
  · apply keeps_cmdCarrierStatus
    exact h
  · apply keeps_cmdNoiseRead
    exact h
  · apply keeps_cmdRadioStatus
    exact h
  · apply keeps_cmdKernelWrite
    exact h
  · apply keeps_cmdKernelCommit
    exact h
  · apply keeps_cmdKernelPlace
    exact h
  · apply keeps_cmdKernelStatus
    exact h
  · apply keeps_cmdMillEnqueue
    exact h
  · apply keeps_cmdMillCounterSet
    exact h
  · apply keeps_cmdMillCounterRead
    exact h
  · apply keeps_cmdTraceRead
    exact h

theorem keeps_opTime {s x : State} (h : Keeps s x) : ∀ a1 a2 a3, Keeps s (opTime a1 a2 a3 x) := by
  intro a1 a2 a3
  unfold opTime
  split
  · apply keeps_cmdTimeStatus
    exact h
  · apply keeps_cmdTimeRead
    exact h
  · apply keeps_cmdAirtimeRead
    exact h
  · apply keeps_cmdTimeSwitch
    exact h
  · apply keeps_cmdTimeRealign
    exact h
  · apply keeps_cmdTimePtpFeed
    exact h
  · apply keeps_cmdPtpRecv
    exact h
  · apply keeps_cmdPtpSend
    exact h
  · apply keeps_cmdTimedArm
    exact h
  · apply keeps_cmdTimedCancel
    exact h
  · apply keeps_cmdTimedStatus
    exact h

theorem keeps_opMemory {s x : State} (h : Keeps s x) : ∀ a1 a2 a3, Keeps s (opMemory a1 a2 a3 x) := by
  intro a1 a2 a3
  unfold opMemory
  split
  · apply keeps_cmdRegionCreate
    exact h
  · dsimp only
    apply keeps_cmdRegionDelete
    exact h
  · dsimp only
    apply keeps_cmdMemStatus
    exact h
  · dsimp only
    apply keeps_cmdRekey
    exact h
  · apply keeps_cmdChanStart
    exact h
  · dsimp only
    apply keeps_cmdChanStop
    exact h
  · dsimp only
    apply keeps_cmdChanReset
    exact h
  · dsimp only
    apply keeps_cmdChanStatus
    exact h
  · apply keeps_cmdPowerStatus
    exact h
  · apply keeps_cmdPowerStateSet
    exact h
  · apply keeps_cmdPoolStatus
    exact h
  · apply keeps_cmdTakeover
    exact h
  · apply keeps_cmdMigrate
    exact h

theorem keeps_opLanes {s x : State} (h : Keeps s x) : ∀ a1 a2 a3, Keeps s (opLanes a1 a2 a3 x) := by
  intro a1 a2 a3
  unfold opLanes
  split
  · apply keeps_cmdLaneStatus
    exact h
  · apply keeps_cmdMaintOpen
    exact h
  · apply keeps_cmdMaintClose
    exact h
  · apply keeps_cmdEyescanStart
    exact h
  · apply keeps_cmdEyescanAbort
    exact h
  · apply keeps_cmdEyescanRead
    exact h
  · apply keeps_cmdFhCounters
    exact h
  · apply keeps_cmdFhExcRead
    exact h
  · apply keeps_cmdFabricCounters
    exact h
  · apply keeps_cmdSelftestRun
    exact h
  · apply keeps_cmdSelftestAbort
    exact h
  · apply keeps_cmdSelftestStatus
    exact h

theorem keeps_opReports {s x : State} (h : Keeps s x) : ∀ a1 a2 a3, Keeps s (opReports a1 a2 a3 x) := by
  intro a1 a2 a3
  unfold opReports
  split
  · apply keeps_cmdEvtSubscribe
    exact h
  · apply keeps_cmdEvtRead
    exact h
  · apply keeps_cmdEvtUnsubscribe
    exact h
  · apply keeps_cmdDbgChallenge
    exact h
  · apply keeps_cmdDbgUnlock
    exact h
  · apply keeps_cmdDbgLock
    exact h
  · apply keeps_cmdDbgStatus
    exact h
  · apply keeps_cmdAgeingReport
    exact h
  · apply keeps_cmdAgeingHistory
    exact h

theorem keeps_opBody {s x : State} (h : Keeps s x) : ∀ a1 a2 a3, Keeps s (opBody a1 a2 a3 x) := by
  intro a1 a2 a3
  unfold opBody
  split
  · apply keeps_opDevice
    exact h
  · apply keeps_opDevice
    exact h
  · apply keeps_opCompute
    exact h
  · apply keeps_opCompute
    exact h
  · apply keeps_opTime
    exact h
  · apply keeps_opMemory
    exact h
  · apply keeps_opMemory
    exact h
  · apply keeps_opMemory
    exact h
  · apply keeps_opLanes
    exact h
  · apply keeps_opReports
    exact h

theorem keeps_runPacket {s x : State} (h : Keeps s x) : ∀ a1 a2, Keeps s (runPacket x a1 a2) := by
  intro a1 a2
  unfold runPacket
  dsimp only
  apply Keeps.ite
  · apply keeps_refuse
    exact h
  · apply Keeps.ite
    · apply keeps_refuse
      apply Keeps.ite
      · exact h
      · apply keeps_State_setHp
        exact h
    · apply keeps_runChecked
      · exact h
      · intro _ _ _ k
        apply keeps_opBody
        assumption

theorem keeps_freeSlot {s x : State} (h : Keeps s x) : ∀ a1, Keeps s (freeSlot x a1) := by
  intro a1
  unfold freeSlot
  apply Keeps.ite
  · exact h
  · split
    · apply keeps_State_setHp
      exact h
    · exact h

theorem keeps_packetAcceptanceOp {s x : State} (h : Keeps s x) : Keeps s (packetAcceptanceOp x) := by
  unfold packetAcceptanceOp
  split
  · exact h
  · dsimp only
    apply keeps_runPacket
    apply keeps_acceptReq
    apply keeps_freeSlot
    exact h

end Sys2Proof.Machine
end

