-- ==== Sys2Proof/Laws/KeepsExec.lean ====
section
/-! SUPPORT. Every command answers a next state that keeps what `Keeps` names. -/

namespace Sys2Proof.Machine

/-- A command answers a next state, and keeps the queue of waiting commands. -/
theorem exec_keeps (i : Instr) (s : State) : ∃ t, exec i s = .next t ∧ Keeps s t := by
  cases i with
  | oscInLoss => exact ⟨_, rfl, keeps_oscInLoss (.refl s)⟩
  | activeRoleEvaluation => exact ⟨_, rfl, keeps_activeRoleEvaluationOp (.refl s)⟩
  | residualSlewEnd => exact ⟨_, rfl, keeps_residualSlewEnd (.refl s)⟩
  | residualThresholdCrossing => exact ⟨_, rfl, keeps_residualCrossing (.refl s)⟩
  | servoUpdate d m => exact ⟨_, rfl, keeps_servoUpdate (.refl s) _ _⟩
  | ptpTimeout d slot => exact ⟨_, rfl, keeps_ptpTimeout (.refl s) _ _⟩
  | clkinEdgeMissing k => exact ⟨_, rfl, keeps_clkinEdgeMissing (.refl s) _⟩
  | ppsInEdge k => exact ⟨_, rfl, keeps_ppsInEdge (.refl s) _⟩
  | ppsSignalLoss k => exact ⟨_, rfl, keeps_ppsSignalLoss (.refl s) _⟩
  | todMessage k bytes => exact ⟨_, rfl, keeps_todMessage (.refl s) _ _⟩
  | esmcPdu n ssm => exact ⟨_, rfl, keeps_esmcPdu (.refl s) _ _⟩
  | esmcTimeout n => exact ⟨_, rfl, keeps_esmcTimeout (.refl s) _⟩
  | refWtrExpiry d n => exact ⟨_, rfl, keeps_refWtrExpiry (.refl s) _ _⟩
  | holdoverExpiry d => exact ⟨_, rfl, keeps_holdoverExpiry (.refl s) _⟩
  | driftWindowEnd m0 m1 => exact ⟨_, rfl, keeps_driftWindowEnd (.refl s) _ _⟩
  | ppsOutEdge k => exact ⟨_, rfl, keeps_ppsOutEdge (.refl s) _⟩
  | ppsOutPulseEnd k => exact ⟨_, rfl, keeps_ppsOutPulseEnd (.refl s) _⟩
  | timeBusParityError tile cls unit => exact ⟨_, rfl, keeps_timeBusParityError (.refl s) _ _ _⟩
  | comparatorFire n => exact ⟨_, rfl, keeps_comparatorFireOp (.refl s) _⟩
  | taoutPulseEnd k => exact ⟨_, rfl, keeps_taoutPulseEndOp (.refl s) _⟩
  | clockRecoveryLock l => exact ⟨_, rfl, keeps_clockRecoveryLock (.refl s) _⟩
  | clockRecoveryLoss l => exact ⟨_, rfl, keeps_clockRecoveryLoss (.refl s) _⟩
  | codewordLock l => exact ⟨_, rfl, keeps_codewordLock (.refl s) _⟩
  | codewordLockLoss l => exact ⟨_, rfl, keeps_codewordLockLoss (.refl s) _⟩
  | blockLock p k => exact ⟨_, rfl, keeps_safeReplace (keeps_blockLock (.refl s) _ _) _ _⟩
  | blockLockLoss p k => exact ⟨_, rfl, keeps_linkDown (.refl s) _ _⟩
  | serWindowEnd p k m => exact ⟨_, rfl, keeps_serWindowEnd (.refl s) _ _ _⟩
  | eqEntryApplied l => exact ⟨_, rfl, keeps_eqEntryApplied (.refl s) _⟩
  | maintTimeout p => exact ⟨_, rfl, keeps_maintTimeout (.refl s) _⟩
  | eyescanComplete g errors => exact ⟨_, rfl, keeps_eyescanComplete (.refl s) _ _⟩
  | trendScan l => exact ⟨_, rfl, keeps_trendScan (.refl s) _⟩
  | trendScanDone l eyes => exact ⟨_, rfl, keeps_trendScanDone (.refl s) _ _⟩
  | prbsCheckerLock l => exact ⟨_, rfl, keeps_prbsCheckerLock (.refl s) _⟩
  | laneGroupReady g => exact ⟨_, rfl, keeps_laneGroupReady (.refl s) _⟩
  | frameReceived p k phyErr bytes => exact ⟨_, rfl, keeps_frameReceived (.refl s) _ _ _ _⟩
  | rxWindowClose c f j => exact ⟨_, rfl, keeps_rxWindowClose (.refl s) _ _ _⟩
  | doorbellUlRelease p c r => exact ⟨_, rfl, keeps_doorbellUl (.refl s) _ _ _⟩
  | doorbellDlReady p c r => exact ⟨_, rfl, keeps_doorbellDl (.refl s) _ _ _⟩
  | doorbellCplaneReady p c r => exact ⟨_, rfl, keeps_doorbellCp (.refl s) _ _ _⟩
  | dlReadyDeadline c f j => exact ⟨_, rfl, keeps_dlReadyDeadline (.refl s) _ _ _⟩
  | dlTxWindowOpen c f j => exact ⟨_, rfl, keeps_dlTxWindowOpen (.refl s) _ _ _⟩
  | dlTxWindowClose c f j => exact ⟨_, rfl, keeps_dlTxWindowClose (.refl s) _ _ _⟩
  | cplaneReadyDeadline c q => exact ⟨_, rfl, keeps_cplaneReadyDeadline (.refl s) _ _⟩
  | cplaneTxWindowOpen c q => exact ⟨_, rfl, keeps_cplaneTxWindowOpen (.refl s) _ _⟩
  | frameTransmitted p k => exact ⟨_, rfl, keeps_frameSent (.refl s) _ _⟩
  | noiseWindowEnd c w => exact ⟨_, rfl, keeps_noiseWindowEnd (.refl s) _ _⟩
  | prachOccasionClose c g q => exact ⟨_, rfl, keeps_prachOccasionClose (.refl s) _ _ _⟩
  | prachStartTimeout p => exact ⟨_, rfl, keeps_prachStartTimeout (.refl s) _⟩
  | prachProcessingStart p => exact ⟨_, rfl, keeps_prachProcessingStart (.refl s) _⟩
  | prachProcessingEnd p => exact ⟨_, rfl, keeps_prachProcessingEnd (.refl s) _⟩
  | interruptEntry k => exact ⟨_, rfl, keeps_interruptEntry (.refl s) _⟩
  | ctimerMatch k => exact ⟨_, rfl, keeps_ctimerMatch (.refl s) _⟩
  | holdLimit k => exact ⟨_, rfl, keeps_holdLimit (.refl s) _⟩
  | coreRestore k => exact ⟨_, rfl, keeps_coreRestore (.refl s) _⟩
  | memModeChange c => exact ⟨_, rfl, keeps_memModeChange (.refl s) _⟩
  | descriptorArrival k cycles => exact ⟨_, rfl, keeps_descriptorArrival (.refl s) _ _⟩
  | add k iss d a b => exact ⟨_, rfl, keeps_facetOp (.refl s) _ _ _⟩
  | sub k iss d a b => exact ⟨_, rfl, keeps_facetOp (.refl s) _ _ _⟩
  | and k iss d a b => exact ⟨_, rfl, keeps_facetOp (.refl s) _ _ _⟩
  | or k iss d a b => exact ⟨_, rfl, keeps_facetOp (.refl s) _ _ _⟩
  | xor k iss d a b => exact ⟨_, rfl, keeps_facetOp (.refl s) _ _ _⟩
  | andn k iss d a b => exact ⟨_, rfl, keeps_facetOp (.refl s) _ _ _⟩
  | shl k iss d a b => exact ⟨_, rfl, keeps_facetOp (.refl s) _ _ _⟩
  | shr k iss d a b => exact ⟨_, rfl, keeps_facetOp (.refl s) _ _ _⟩
  | sar k iss d a b => exact ⟨_, rfl, keeps_facetOp (.refl s) _ _ _⟩
  | ror k iss d a b => exact ⟨_, rfl, keeps_facetOp (.refl s) _ _ _⟩
  | min k iss d a b => exact ⟨_, rfl, keeps_facetOp (.refl s) _ _ _⟩
  | max k iss d a b => exact ⟨_, rfl, keeps_facetOp (.refl s) _ _ _⟩
  | minu k iss d a b => exact ⟨_, rfl, keeps_facetOp (.refl s) _ _ _⟩
  | maxu k iss d a b => exact ⟨_, rfl, keeps_facetOp (.refl s) _ _ _⟩
  | clz k iss d a => exact ⟨_, rfl, keeps_facetOp (.refl s) _ _ _⟩
  | popc k iss d a => exact ⟨_, rfl, keeps_facetOp (.refl s) _ _ _⟩
  | cmpeq k iss d a b => exact ⟨_, rfl, keeps_facetOp (.refl s) _ _ _⟩
  | cmpne k iss d a b => exact ⟨_, rfl, keeps_facetOp (.refl s) _ _ _⟩
  | cmplt k iss d a b => exact ⟨_, rfl, keeps_facetOp (.refl s) _ _ _⟩
  | cmpltu k iss d a b => exact ⟨_, rfl, keeps_facetOp (.refl s) _ _ _⟩
  | cmple k iss d a b => exact ⟨_, rfl, keeps_facetOp (.refl s) _ _ _⟩
  | cmpleu k iss d a b => exact ⟨_, rfl, keeps_facetOp (.refl s) _ _ _⟩
  | limm k iss d imm => exact ⟨_, rfl, keeps_facetOp (.refl s) _ _ _⟩
  | limmh k iss d imm => exact ⟨_, rfl, keeps_facetOp (.refl s) _ _ _⟩
  | mul k iss d a b => exact ⟨_, rfl, keeps_facetOp (.refl s) _ _ _⟩
  | mulh k iss d a b => exact ⟨_, rfl, keeps_facetOp (.refl s) _ _ _⟩
  | mulhu k iss d a b => exact ⟨_, rfl, keeps_facetOp (.refl s) _ _ _⟩
  | scalarCmul k iss d a b m => exact ⟨_, rfl, keeps_facetOp (.refl s) _ _ _⟩
  | scalarCmulc k iss d a b m => exact ⟨_, rfl, keeps_facetOp (.refl s) _ _ _⟩
  | br k iss imm => exact ⟨_, rfl, keeps_facetOp (.refl s) _ _ _⟩
  | brz k iss a imm => exact ⟨_, rfl, keeps_facetOp (.refl s) _ _ _⟩
  | brnz k iss a imm => exact ⟨_, rfl, keeps_facetOp (.refl s) _ _ _⟩
  | call k iss imm => exact ⟨_, rfl, keeps_facetOp (.refl s) _ _ _⟩
  | jr k iss a => exact ⟨_, rfl, keeps_facetOp (.refl s) _ _ _⟩
  | rep k iss a flag len => exact ⟨_, rfl, keeps_facetOp (.refl s) _ _ _⟩
  | repi k iss count flag len => exact ⟨_, rfl, keeps_facetOp (.refl s) _ _ _⟩
  | mfc k iss d c => exact ⟨_, rfl, keeps_facetOp (.refl s) _ _ _⟩
  | mtc k iss c a => exact ⟨_, rfl, keeps_facetOp (.refl s) _ _ _⟩
  | waitwork k iss => exact ⟨_, rfl, keeps_facetOp (.refl s) _ _ _⟩
  | donework k iss a => exact ⟨_, rfl, keeps_facetOp (.refl s) _ _ _⟩
  | eret k iss => exact ⟨_, rfl, keeps_facetOp (.refl s) _ _ _⟩
  | sysc k iss imm => exact ⟨_, rfl, keeps_facetOp (.refl s) _ _ _⟩
  | ldb k iss d a f => exact ⟨_, rfl, keeps_facetOp (.refl s) _ _ _⟩
  | ldbu k iss d a f => exact ⟨_, rfl, keeps_facetOp (.refl s) _ _ _⟩
  | ldh k iss d a f => exact ⟨_, rfl, keeps_facetOp (.refl s) _ _ _⟩
  | ldhu k iss d a f => exact ⟨_, rfl, keeps_facetOp (.refl s) _ _ _⟩
  | ldw k iss d a f => exact ⟨_, rfl, keeps_facetOp (.refl s) _ _ _⟩
  | ldwu k iss d a f => exact ⟨_, rfl, keeps_facetOp (.refl s) _ _ _⟩
  | ldd k iss d a f => exact ⟨_, rfl, keeps_facetOp (.refl s) _ _ _⟩
  | stb k iss v a f => exact ⟨_, rfl, keeps_facetOp (.refl s) _ _ _⟩
  | sth k iss v a f => exact ⟨_, rfl, keeps_facetOp (.refl s) _ _ _⟩
  | stw k iss v a f => exact ⟨_, rfl, keeps_facetOp (.refl s) _ _ _⟩
  | std k iss v a f => exact ⟨_, rfl, keeps_facetOp (.refl s) _ _ _⟩
  | vld k iss d a f => exact ⟨_, rfl, keeps_facetOp (.refl s) _ _ _⟩
  | vst k iss v a f => exact ⟨_, rfl, keeps_facetOp (.refl s) _ _ _⟩
  | vld2 k iss d a f e b h => exact ⟨_, rfl, keeps_facetOp (.refl s) _ _ _⟩
  | vldst k iss d a f v b h => exact ⟨_, rfl, keeps_facetOp (.refl s) _ _ _⟩
  | aaddw k iss d a f v => exact ⟨_, rfl, keeps_facetOp (.refl s) _ _ _⟩
  | aaddd k iss d a f v => exact ⟨_, rfl, keeps_facetOp (.refl s) _ _ _⟩
  | aswpd k iss d a f v => exact ⟨_, rfl, keeps_facetOp (.refl s) _ _ _⟩
  | vlde k iss v a b m => exact ⟨_, rfl, keeps_facetOp (.refl s) _ _ _⟩
  | vste k iss v a b m => exact ⟨_, rfl, keeps_facetOp (.refl s) _ _ _⟩
  | vlds2 k iss v a b m => exact ⟨_, rfl, keeps_facetOp (.refl s) _ _ _⟩
  | vlds3 k iss v a b m => exact ⟨_, rfl, keeps_facetOp (.refl s) _ _ _⟩
  | vlds4 k iss v a b m => exact ⟨_, rfl, keeps_facetOp (.refl s) _ _ _⟩
  | vsts2 k iss v a b m => exact ⟨_, rfl, keeps_facetOp (.refl s) _ _ _⟩
  | vsts3 k iss v a b m => exact ⟨_, rfl, keeps_facetOp (.refl s) _ _ _⟩
  | vsts4 k iss v a b m => exact ⟨_, rfl, keeps_facetOp (.refl s) _ _ _⟩
  | vgath k iss v a b m => exact ⟨_, rfl, keeps_facetOp (.refl s) _ _ _⟩
  | vscat k iss v a b m => exact ⟨_, rfl, keeps_facetOp (.refl s) _ _ _⟩
  | vadd k iss sl ty d a b m => exact ⟨_, rfl, keeps_facetOp (.refl s) _ _ _⟩
  | vsub k iss sl ty d a b m => exact ⟨_, rfl, keeps_facetOp (.refl s) _ _ _⟩
  | vneg k iss sl ty d a b m => exact ⟨_, rfl, keeps_facetOp (.refl s) _ _ _⟩
  | vabs k iss sl ty d a b m => exact ⟨_, rfl, keeps_facetOp (.refl s) _ _ _⟩
  | vmin k iss sl ty d a b m => exact ⟨_, rfl, keeps_facetOp (.refl s) _ _ _⟩
  | vmax k iss sl ty d a b m => exact ⟨_, rfl, keeps_facetOp (.refl s) _ _ _⟩
  | vand k iss sl ty d a b m => exact ⟨_, rfl, keeps_facetOp (.refl s) _ _ _⟩
  | vor k iss sl ty d a b m => exact ⟨_, rfl, keeps_facetOp (.refl s) _ _ _⟩
  | vxor k iss sl ty d a b m => exact ⟨_, rfl, keeps_facetOp (.refl s) _ _ _⟩
  | vandn k iss sl ty d a b m => exact ⟨_, rfl, keeps_facetOp (.refl s) _ _ _⟩
  | vshl k iss sl ty d a b m => exact ⟨_, rfl, keeps_facetOp (.refl s) _ _ _⟩
  | vshr k iss sl ty d a b m => exact ⟨_, rfl, keeps_facetOp (.refl s) _ _ _⟩
  | vshru k iss sl ty d a b m => exact ⟨_, rfl, keeps_facetOp (.refl s) _ _ _⟩
  | vconj k iss sl ty d a b m => exact ⟨_, rfl, keeps_facetOp (.refl s) _ _ _⟩
  | vcmulj k iss sl ty d a b m => exact ⟨_, rfl, keeps_facetOp (.refl s) _ _ _⟩
  | vmulq k iss sl ty d a b m => exact ⟨_, rfl, keeps_facetOp (.refl s) _ _ _⟩
  | vcmulq k iss sl d a b m => exact ⟨_, rfl, keeps_facetOp (.refl s) _ _ _⟩
  | vcmulqc k iss sl d a b m => exact ⟨_, rfl, keeps_facetOp (.refl s) _ _ _⟩
  | cmul k iss sl d a b m => exact ⟨_, rfl, keeps_facetOp (.refl s) _ _ _⟩
  | cmulc k iss sl d a b m => exact ⟨_, rfl, keeps_facetOp (.refl s) _ _ _⟩
  | cmac k iss sl d a b m => exact ⟨_, rfl, keeps_facetOp (.refl s) _ _ _⟩
  | cmacc k iss sl d a b m => exact ⟨_, rfl, keeps_facetOp (.refl s) _ _ _⟩
  | cmacs k iss sl d a b m => exact ⟨_, rfl, keeps_facetOp (.refl s) _ _ _⟩
  | cmacsc k iss sl d a b m => exact ⟨_, rfl, keeps_facetOp (.refl s) _ _ _⟩
  | vnarrow k iss sl d a b m => exact ⟨_, rfl, keeps_facetOp (.refl s) _ _ _⟩
  | vcnarrow k iss sl d a b m => exact ⟨_, rfl, keeps_facetOp (.refl s) _ _ _⟩
  | vcwiden k iss sl d a b m => exact ⟨_, rfl, keeps_facetOp (.refl s) _ _ _⟩
  | vcrsum k iss sl d a b m => exact ⟨_, rfl, keeps_facetOp (.refl s) _ _ _⟩
  | vcmpeq k iss sl ty d a b m => exact ⟨_, rfl, keeps_facetOp (.refl s) _ _ _⟩
  | vcmplt k iss sl ty d a b m => exact ⟨_, rfl, keeps_facetOp (.refl s) _ _ _⟩
  | vcmple k iss sl ty d a b m => exact ⟨_, rfl, keeps_facetOp (.refl s) _ _ _⟩
  | vsel k iss sl ty d a b m => exact ⟨_, rfl, keeps_facetOp (.refl s) _ _ _⟩
  | vsplat k iss sl ty d a b m => exact ⟨_, rfl, keeps_facetOp (.refl s) _ _ _⟩
  | vslide k iss sl ty d a b n m => exact ⟨_, rfl, keeps_facetOp (.refl s) _ _ _⟩
  | setvl k iss sl ty d a m => exact ⟨_, rfl, keeps_facetOp (.refl s) _ _ _⟩
  | mlen k iss sl d a b m => exact ⟨_, rfl, keeps_facetOp (.refl s) _ _ _⟩
  | mand k iss sl d a b m => exact ⟨_, rfl, keeps_facetOp (.refl s) _ _ _⟩
  | mor k iss sl d a b m => exact ⟨_, rfl, keeps_facetOp (.refl s) _ _ _⟩
  | mxor k iss sl d a b m => exact ⟨_, rfl, keeps_facetOp (.refl s) _ _ _⟩
  | mandn k iss sl d a b m => exact ⟨_, rfl, keeps_facetOp (.refl s) _ _ _⟩
  | mnot k iss sl d a b m => exact ⟨_, rfl, keeps_facetOp (.refl s) _ _ _⟩
  | msel k iss sl d a b m => exact ⟨_, rfl, keeps_facetOp (.refl s) _ _ _⟩
  | mpopc k iss sl d a b m => exact ⟨_, rfl, keeps_facetOp (.refl s) _ _ _⟩
  | vfadd k iss sl ty d a b m => exact ⟨_, rfl, keeps_facetOp (.refl s) _ _ _⟩
  | vfsub k iss sl ty d a b m => exact ⟨_, rfl, keeps_facetOp (.refl s) _ _ _⟩
  | vfmul k iss sl ty d a b m => exact ⟨_, rfl, keeps_facetOp (.refl s) _ _ _⟩
  | vfmin k iss sl ty d a b m => exact ⟨_, rfl, keeps_facetOp (.refl s) _ _ _⟩
  | vfmax k iss sl ty d a b m => exact ⟨_, rfl, keeps_facetOp (.refl s) _ _ _⟩
  | vfma k iss sl ty d a b m => exact ⟨_, rfl, keeps_facetOp (.refl s) _ _ _⟩
  | vfcvt k iss sl src dst d a m => exact ⟨_, rfl, keeps_facetOp (.refl s) _ _ _⟩
  | fadd k iss sl d a b m => exact ⟨_, rfl, keeps_facetOp (.refl s) _ _ _⟩
  | fsub k iss sl d a b m => exact ⟨_, rfl, keeps_facetOp (.refl s) _ _ _⟩
  | fmul k iss sl d a b m => exact ⟨_, rfl, keeps_facetOp (.refl s) _ _ _⟩
  | fma k iss sl d a b m => exact ⟨_, rfl, keeps_facetOp (.refl s) _ _ _⟩
  | fcmplt k iss sl d a b m => exact ⟨_, rfl, keeps_facetOp (.refl s) _ _ _⟩
  | fcmple k iss sl d a b m => exact ⟨_, rfl, keeps_facetOp (.refl s) _ _ _⟩
  | fcmpeq k iss sl d a b m => exact ⟨_, rfl, keeps_facetOp (.refl s) _ _ _⟩
  | fmvgf k iss sl d a b m => exact ⟨_, rfl, keeps_facetOp (.refl s) _ _ _⟩
  | fmvfg k iss sl d a b m => exact ⟨_, rfl, keeps_facetOp (.refl s) _ _ _⟩
  | dmap k iss sl d a b m => exact ⟨_, rfl, keeps_facetOp (.refl s) _ _ _⟩
  | schol k iss sl d a b m => exact ⟨_, rfl, keeps_facetOp (.refl s) _ _ _⟩
  | strsl k iss sl d a b m => exact ⟨_, rfl, keeps_facetOp (.refl s) _ _ _⟩
  | strsu k iss sl d a b m => exact ⟨_, rfl, keeps_facetOp (.refl s) _ _ _⟩
  | sinvh k iss sl d a b m => exact ⟨_, rfl, keeps_facetOp (.refl s) _ _ _⟩
  | uerrd k iss sl d => exact ⟨_, rfl, keeps_facetOp (.refl s) _ _ _⟩
  | uerrs k iss sl d => exact ⟨_, rfl, keeps_facetOp (.refl s) _ _ _⟩
  | unitResultWrite k solve => exact ⟨_, rfl, keeps_unitResultWrite (.refl s) _ _⟩
  | enqueue slc src bytes => exact ⟨_, rfl, keeps_millEnqueue (.refl s) _ _ _⟩
  | counterSet k count src => exact ⟨_, rfl, keeps_voted (.refl s) _ _ _ (fun _ k => keeps_millCounterSet k _ _ _)⟩
  | counterDecrement k st src => exact ⟨_, rfl, keeps_voted (.refl s) _ _ _ (fun _ k => keeps_decrementOp k _ _ _)⟩
  | flowEntryFetched slc flow => exact ⟨_, rfl, keeps_voted (.refl s) _ _ _ (fun _ k => keeps_flowFetched k _ _)⟩
  | dispatchDecision slc v e => exact ⟨_, rfl, keeps_dispatch (.refl s) _ _ _⟩
  | stealRequest victim => exact ⟨_, rfl, keeps_voted (.refl s) _ _ _ (fun _ k => keeps_stealRequestOp k _)⟩
  | stealGrant thief => exact ⟨_, rfl, keeps_stealGrantOp (.refl s) _⟩
  | promotion slc item => exact ⟨_, rfl, keeps_voted (.refl s) _ _ _ (fun _ k => keeps_promote k _ _)⟩
  | urgencyEntry slc item => exact ⟨_, rfl, keeps_voted (.refl s) _ _ _ (fun _ k => keeps_urgent k _ _)⟩
  | late slc item => exact ⟨_, rfl, keeps_voted (.refl s) _ _ _ (fun _ k => keeps_becomeLate k _ _)⟩
  | slotEnd c slot => exact ⟨_, rfl, keeps_slotEndOp (.refl s) _ _⟩
  | tierMessage slc c => exact ⟨_, rfl, keeps_tierMessageOp (.refl s) _ _⟩
  | lateReportPeriod slc => exact ⟨_, rfl, keeps_lateReportOp (.refl s) _⟩
  | millCheck slc => exact ⟨_, rfl, keeps_millCheckRow (.refl s) _⟩
  | drainTimeout k => exact ⟨_, rfl, keeps_drainTimeout (.refl s) _⟩
  | abortGraceExpiry k => exact ⟨_, rfl, keeps_abortGraceExpiry (.refl s) _⟩
  | ldpcDecode u e => exact ⟨_, rfl, keeps_receiveJob (.refl s) _ _ _⟩
  | ldpcEncode u e => exact ⟨_, rfl, keeps_receiveJob (.refl s) _ _ _⟩
  | tbAssemble u e => exact ⟨_, rfl, keeps_receiveJob (.refl s) _ _ _⟩
  | polarDecode u e => exact ⟨_, rfl, keeps_receiveJob (.refl s) _ _ _⟩
  | polarEncode u e => exact ⟨_, rfl, keeps_receiveJob (.refl s) _ _ _⟩
  | turboDecode u e => exact ⟨_, rfl, keeps_receiveJob (.refl s) _ _ _⟩
  | turboEncode u e => exact ⟨_, rfl, keeps_receiveJob (.refl s) _ _ _⟩
  | turboDatapathFree u enc e => exact ⟨_, rfl, keeps_turboDatapathFree (.refl s) _ _ _⟩
  | cloveJobCompletion u enc bankBad writeBad => exact ⟨_, rfl, keeps_cloveJobCompletion (.refl s) _ _ _ _⟩
  | read m e => exact ⟨_, rfl, keeps_readOp (.refl s) _ _⟩
  | write m e => exact ⟨_, rfl, keeps_writeOp (.refl s) _ _⟩
  | atomicAdd m e => exact ⟨_, rfl, keeps_atomicAddOp (.refl s) _ _⟩
  | swap m e => exact ⟨_, rfl, keeps_swapOp (.refl s) _ _⟩
  | readResp m => exact ⟨_, rfl, keeps_responseOp (.refl s) _⟩
  | writeResp m => exact ⟨_, rfl, keeps_responseOp (.refl s) _⟩
  | fenceReq node => exact ⟨_, rfl, keeps_fenceReq (.refl s) _⟩
  | fenceAck node => exact ⟨_, rfl, keeps_fenceAck (.refl s) _⟩
  | wake domain => exact ⟨_, rfl, keeps_wakePacket (.refl s) _⟩
  | event cls inst code sev detail => exact ⟨_, rfl, keeps_eventArrival (.refl s) _ _ _ _ _⟩
  | flitCrcError boundary link => exact ⟨_, rfl, keeps_flitCrcOp (.refl s) _ _⟩
  | linkStuck boundary link => exact ⟨_, rfl, keeps_linkStuckOp (.refl s) _ _⟩
  | requestTimeout node tag => exact ⟨_, rfl, keeps_requestTimeoutOp (.refl s) _ _⟩
  | fenceTimeout domain => exact ⟨_, rfl, keeps_fenceTimeout (.refl s) _⟩
  | dramReadComplete src tag r => exact ⟨_, rfl, keeps_dramComplete (.refl s) _ _ _⟩
  | regionInitComplete g => exact ⟨_, rfl, keeps_regionInitComplete (.refl s) _⟩
  | scrubPage d => exact ⟨_, rfl, keeps_scrubPage (.refl s) _⟩
  | rekeySweepPage g d failed => exact ⟨_, rfl, keeps_rekeySweepPage (.refl s) _ _ _⟩
  | temperaturePoll ch hot => exact ⟨_, rfl, keeps_temperaturePoll (.refl s) _ _⟩
  | chanCmdStart c => exact ⟨_, rfl, keeps_chanCommand (.refl s) _ _⟩
  | chanCmdStop c => exact ⟨_, rfl, keeps_chanCommand (.refl s) _ _⟩
  | chanCmdReset c => exact ⟨_, rfl, keeps_chanCommand (.refl s) _ _⟩
  | flagSet e f => exact ⟨_, rfl, keeps_flagSetOp (.refl s) _ _⟩
  | flagClear e f => exact ⟨_, rfl, keeps_flagClearOp (.refl s) _ _⟩
  | move c bytes => exact ⟨_, rfl, keeps_dmaInstr (.refl s) _ _ _ _ _ (fun _ _ _ k => keeps_dmaMove k _ _)⟩
  | loop c bytes => exact ⟨_, rfl, keeps_dmaInstr (.refl s) _ _ _ _ _ (fun _ _ _ k => keeps_dmaLoop k _ _)⟩
  | waitAirtime c bytes => exact ⟨_, rfl, keeps_dmaInstr (.refl s) _ _ _ _ _ (fun _ _ _ k => keeps_dmaWaitAirtime k _ _)⟩
  | waitCounter c bytes => exact ⟨_, rfl, keeps_dmaInstr (.refl s) _ _ _ _ _ (fun _ _ _ k => keeps_dmaWaitCounter k _ _)⟩
  | waitFlag c bytes => exact ⟨_, rfl, keeps_dmaInstr (.refl s) _ _ _ _ _ (fun _ _ _ k => keeps_dmaWaitFlag k _ _)⟩
  | signalCounter c bytes => exact ⟨_, rfl, keeps_dmaInstr (.refl s) _ _ _ _ _ (fun _ _ _ k => keeps_dmaSignalCounter k _ _)⟩
  | signalFlag c bytes => exact ⟨_, rfl, keeps_dmaInstr (.refl s) _ _ _ _ _ (fun _ _ _ k => keeps_dmaSignalFlag k _ _)⟩
  | signalEvent c bytes => exact ⟨_, rfl, keeps_dmaInstr (.refl s) _ _ _ _ _ (fun _ _ _ k => keeps_dmaSignalEvent k _ _)⟩
  | dmaEnd c bytes => exact ⟨_, rfl, keeps_dmaInstr (.refl s) _ _ _ _ _ (fun _ _ _ k => keeps_dmaEndOp k _ _)⟩
  | waitAirtimeReached c => exact ⟨_, rfl, keeps_dmaAirtimeReached (.refl s) _⟩
  | counterPoll c => exact ⟨_, rfl, keeps_dmaCounterPoll (.refl s) _⟩
  | doorbell h v => exact ⟨_, rfl, keeps_doorbellOp (.refl s) _ _⟩
  | packetAcceptance => exact ⟨_, rfl, keeps_packetAcceptanceOp (.refl s)⟩
  | replyBaseWrite h v => exact ⟨_, rfl, keeps_replyBaseOp (.refl s) _ _⟩
  | replySizeWrite h v => exact ⟨_, rfl, keeps_replySizeOp (.refl s) _ _⟩
  | replyRdWrite h v => exact ⟨_, rfl, keeps_replyRdOp (.refl s) _ _⟩
  | atLoRead h => exact ⟨_, rfl, keeps_atLoReadOp (.refl s) _⟩
  | msixUnmask h v => exact ⟨_, rfl, keeps_msixUnmaskOp (.refl s) _ _⟩
  | registerWrite w => exact ⟨_, rfl, keeps_registerWriteOp (.refl s) _⟩
  | perst h => exact ⟨_, rfl, keeps_portReset (.refl s) _ _⟩
  | flr h => exact ⟨_, rfl, keeps_portReset (.refl s) _ _⟩
  | hostLinkChange h up width rate => exact ⟨_, rfl, keeps_hostLinkOp (.refl s) _ _ _ _⟩
  | packetWrite bytes => exact ⟨_, rfl, keeps_packetWriteOp (.refl s) _⟩
  | statusRead => exact ⟨_, rfl, keeps_statusReadOp (.refl s)⟩
  | replyRead n => exact ⟨_, rfl, keeps_replyReadOp (.refl s) _⟩
  | devInfo rq p => exact ⟨_, rfl, keeps_delaz (.refl s) _ _ _ _ (fun _ _ _ k => keeps_cmdDevInfo k _ _)⟩
  | devStatus rq p => exact ⟨_, rfl, keeps_delaz (.refl s) _ _ _ _ (fun _ _ _ k => keeps_cmdDevStatus k _ _)⟩
  | resetWarm rq p => exact ⟨_, rfl, keeps_delaz (.refl s) _ _ _ _ (fun _ _ _ k => keeps_cmdResetWarm k _ _)⟩
  | flashRead rq p => exact ⟨_, rfl, keeps_delaz (.refl s) _ _ _ _ (fun _ _ _ k => keeps_cmdFlashRead k _ _)⟩
  | flashErase rq p => exact ⟨_, rfl, keeps_delaz (.refl s) _ _ _ _ (fun _ _ _ k => keeps_cmdFlashErase k _ _)⟩
  | flashWrite rq p => exact ⟨_, rfl, keeps_delaz (.refl s) _ _ _ _ (fun _ _ _ k => keeps_cmdFlashWrite k _ _)⟩
  | flashOperationComplete differs => exact ⟨_, rfl, keeps_flashCompleteOp (.refl s) _⟩
  | paramGet rq p => exact ⟨_, rfl, keeps_delaz (.refl s) _ _ _ _ (fun _ _ _ k => keeps_cmdParamGet k _ _)⟩
  | paramSet rq p => exact ⟨_, rfl, keeps_delaz (.refl s) _ _ _ _ (fun _ _ _ k => keeps_cmdParamSet k _ _)⟩
  | cfgStage rq p => exact ⟨_, rfl, keeps_delaz (.refl s) _ _ _ _ (fun _ _ _ k => keeps_cmdCfgStage k _ _)⟩
  | cfgArm rq p => exact ⟨_, rfl, keeps_delaz (.refl s) _ _ _ _ (fun _ _ _ k => keeps_cmdCfgArm k _ _)⟩
  | cfgDigest rq p => exact ⟨_, rfl, keeps_delaz (.refl s) _ _ _ _ (fun _ _ _ k => keeps_cmdCfgDigest k _ _)⟩
  | carrierStatus rq p => exact ⟨_, rfl, keeps_delaz (.refl s) _ _ _ _ (fun _ _ _ k => keeps_cmdCarrierStatus k _ _)⟩
  | radioNoiseRead rq p => exact ⟨_, rfl, keeps_delaz (.refl s) _ _ _ _ (fun _ _ _ k => keeps_cmdNoiseRead k _ _)⟩
  | radioStatus rq p => exact ⟨_, rfl, keeps_delaz (.refl s) _ _ _ _ (fun _ _ _ k => keeps_cmdRadioStatus k _ _)⟩
  | kernelWrite rq p => exact ⟨_, rfl, keeps_delaz (.refl s) _ _ _ _ (fun _ _ _ k => keeps_cmdKernelWrite k _ _)⟩
  | kernelCommit rq p => exact ⟨_, rfl, keeps_delaz (.refl s) _ _ _ _ (fun _ _ _ k => keeps_cmdKernelCommit k _ _)⟩
  | kernelPlace rq p => exact ⟨_, rfl, keeps_delaz (.refl s) _ _ _ _ (fun _ _ _ k => keeps_cmdKernelPlace k _ _)⟩
  | kernelStatus rq p => exact ⟨_, rfl, keeps_delaz (.refl s) _ _ _ _ (fun _ _ _ k => keeps_cmdKernelStatus k _ _)⟩
  | millEnqueue rq p => exact ⟨_, rfl, keeps_delaz (.refl s) _ _ _ _ (fun _ _ _ k => keeps_cmdMillEnqueue k _ _)⟩
  | millCounterSet rq p => exact ⟨_, rfl, keeps_delaz (.refl s) _ _ _ _ (fun _ _ _ k => keeps_cmdMillCounterSet k _ _)⟩
  | millCounterRead rq p => exact ⟨_, rfl, keeps_delaz (.refl s) _ _ _ _ (fun _ _ _ k => keeps_cmdMillCounterRead k _ _)⟩
  | traceRead rq p => exact ⟨_, rfl, keeps_delaz (.refl s) _ _ _ _ (fun _ _ _ k => keeps_cmdTraceRead k _ _)⟩
  | timeStatus rq p => exact ⟨_, rfl, keeps_delaz (.refl s) _ _ _ _ (fun _ _ _ k => keeps_cmdTimeStatus k _ _)⟩
  | timeRead rq p => exact ⟨_, rfl, keeps_delaz (.refl s) _ _ _ _ (fun _ _ _ k => keeps_cmdTimeRead k _ _)⟩
  | airtimeRead rq p => exact ⟨_, rfl, keeps_delaz (.refl s) _ _ _ _ (fun _ _ _ k => keeps_cmdAirtimeRead k _ _)⟩
  | timeSwitch rq p => exact ⟨_, rfl, keeps_delaz (.refl s) _ _ _ _ (fun _ _ _ k => keeps_cmdTimeSwitch k _ _)⟩
  | timeRealign rq p => exact ⟨_, rfl, keeps_delaz (.refl s) _ _ _ _ (fun _ _ _ k => keeps_cmdTimeRealign k _ _)⟩
  | timePtpFeed rq p => exact ⟨_, rfl, keeps_delaz (.refl s) _ _ _ _ (fun _ _ _ k => keeps_cmdTimePtpFeed k _ _)⟩
  | ptpRecv rq p => exact ⟨_, rfl, keeps_delaz (.refl s) _ _ _ _ (fun _ _ _ k => keeps_cmdPtpRecv k _ _)⟩
  | ptpSend rq p => exact ⟨_, rfl, keeps_delaz (.refl s) _ _ _ _ (fun _ _ _ k => keeps_cmdPtpSend k _ _)⟩
  | timedArm rq p => exact ⟨_, rfl, keeps_delaz (.refl s) _ _ _ _ (fun _ _ _ k => keeps_cmdTimedArm k _ _)⟩
  | timedCancel rq p => exact ⟨_, rfl, keeps_delaz (.refl s) _ _ _ _ (fun _ _ _ k => keeps_cmdTimedCancel k _ _)⟩
  | timedStatus rq p => exact ⟨_, rfl, keeps_delaz (.refl s) _ _ _ _ (fun _ _ _ k => keeps_cmdTimedStatus k _ _)⟩
  | memRegionCreate rq p => exact ⟨_, rfl, keeps_delaz (.refl s) _ _ _ _ (fun _ _ _ k => keeps_cmdRegionCreate k _ _)⟩
  | memRegionDelete rq p => exact ⟨_, rfl, keeps_delaz (.refl s) _ _ _ _ (fun _ _ _ k => keeps_cmdRegionDelete k _)⟩
  | memStatus rq p => exact ⟨_, rfl, keeps_delaz (.refl s) _ _ _ _ (fun _ _ _ k => keeps_cmdMemStatus k _)⟩
  | protRekey rq p => exact ⟨_, rfl, keeps_delaz (.refl s) _ _ _ _ (fun _ _ _ k => keeps_cmdRekey k _)⟩
  | dmaChanStart rq p => exact ⟨_, rfl, keeps_delaz (.refl s) _ _ _ _ (fun _ _ _ k => keeps_cmdChanStart k _ _)⟩
  | dmaChanStop rq p => exact ⟨_, rfl, keeps_delaz (.refl s) _ _ _ _ (fun _ _ _ k => keeps_cmdChanStop k _)⟩
  | dmaChanReset rq p => exact ⟨_, rfl, keeps_delaz (.refl s) _ _ _ _ (fun _ _ _ k => keeps_cmdChanReset k _)⟩
  | dmaChanStatus rq p => exact ⟨_, rfl, keeps_delaz (.refl s) _ _ _ _ (fun _ _ _ k => keeps_cmdChanStatus k _)⟩
  | powerStatus rq p => exact ⟨_, rfl, keeps_delaz (.refl s) _ _ _ _ (fun _ _ _ k => keeps_cmdPowerStatus k _ _)⟩
  | powerStateSet rq p => exact ⟨_, rfl, keeps_delaz (.refl s) _ _ _ _ (fun _ _ _ k => keeps_cmdPowerStateSet k _ _)⟩
  | powerTransitionComplete => exact ⟨_, rfl, keeps_powerTransitionComplete (.refl s)⟩
  | poolStatus rq p => exact ⟨_, rfl, keeps_delaz (.refl s) _ _ _ _ (fun _ _ _ k => keeps_cmdPoolStatus k _ _)⟩
  | takeover rq p => exact ⟨_, rfl, keeps_delaz (.refl s) _ _ _ _ (fun _ _ _ k => keeps_cmdTakeover k _ _)⟩
  | migrate rq p => exact ⟨_, rfl, keeps_delaz (.refl s) _ _ _ _ (fun _ _ _ k => keeps_cmdMigrate k _ _)⟩
  | laneStatus rq p => exact ⟨_, rfl, keeps_delaz (.refl s) _ _ _ _ (fun _ _ _ k => keeps_cmdLaneStatus k _ _)⟩
  | laneMaintOpen rq p => exact ⟨_, rfl, keeps_delaz (.refl s) _ _ _ _ (fun _ _ _ k => keeps_cmdMaintOpen k _ _)⟩
  | laneMaintClose rq p => exact ⟨_, rfl, keeps_delaz (.refl s) _ _ _ _ (fun _ _ _ k => keeps_cmdMaintClose k _ _)⟩
  | laneEyescanStart rq p => exact ⟨_, rfl, keeps_delaz (.refl s) _ _ _ _ (fun _ _ _ k => keeps_cmdEyescanStart k _ _)⟩
  | laneEyescanAbort rq p => exact ⟨_, rfl, keeps_delaz (.refl s) _ _ _ _ (fun _ _ _ k => keeps_cmdEyescanAbort k _ _)⟩
  | laneEyescanRead rq p => exact ⟨_, rfl, keeps_delaz (.refl s) _ _ _ _ (fun _ _ _ k => keeps_cmdEyescanRead k _ _)⟩
  | fhCounters rq p => exact ⟨_, rfl, keeps_delaz (.refl s) _ _ _ _ (fun _ _ _ k => keeps_cmdFhCounters k _ _)⟩
  | fhExcRead rq p => exact ⟨_, rfl, keeps_delaz (.refl s) _ _ _ _ (fun _ _ _ k => keeps_cmdFhExcRead k _ _)⟩
  | fabricCounters rq p => exact ⟨_, rfl, keeps_delaz (.refl s) _ _ _ _ (fun _ _ _ k => keeps_cmdFabricCounters k _ _)⟩
  | selftestRun rq p => exact ⟨_, rfl, keeps_delaz (.refl s) _ _ _ _ (fun _ _ _ k => keeps_cmdSelftestRun k _ _)⟩
  | selftestAbort rq p => exact ⟨_, rfl, keeps_delaz (.refl s) _ _ _ _ (fun _ _ _ k => keeps_cmdSelftestAbort k _ _)⟩
  | selftestStatus rq p => exact ⟨_, rfl, keeps_delaz (.refl s) _ _ _ _ (fun _ _ _ k => keeps_cmdSelftestStatus k _ _)⟩
  | evtSubscribe rq p => exact ⟨_, rfl, keeps_delaz (.refl s) _ _ _ _ (fun _ _ _ k => keeps_cmdEvtSubscribe k _ _)⟩
  | evtRead rq p => exact ⟨_, rfl, keeps_delaz (.refl s) _ _ _ _ (fun _ _ _ k => keeps_cmdEvtRead k _ _)⟩
  | evtUnsubscribe rq p => exact ⟨_, rfl, keeps_delaz (.refl s) _ _ _ _ (fun _ _ _ k => keeps_cmdEvtUnsubscribe k _ _)⟩
  | dbgChallenge rq p => exact ⟨_, rfl, keeps_delaz (.refl s) _ _ _ _ (fun _ _ _ k => keeps_cmdDbgChallenge k _ _)⟩
  | dbgUnlock rq p => exact ⟨_, rfl, keeps_delaz (.refl s) _ _ _ _ (fun _ _ _ k => keeps_cmdDbgUnlock k _ _)⟩
  | dbgLock rq p => exact ⟨_, rfl, keeps_delaz (.refl s) _ _ _ _ (fun _ _ _ k => keeps_cmdDbgLock k _ _)⟩
  | dbgStatus rq p => exact ⟨_, rfl, keeps_delaz (.refl s) _ _ _ _ (fun _ _ _ k => keeps_cmdDbgStatus k _ _)⟩
  | ageingReport rq p => exact ⟨_, rfl, keeps_delaz (.refl s) _ _ _ _ (fun _ _ _ k => keeps_cmdAgeingReport k _ _)⟩
  | ageingHistory rq p => exact ⟨_, rfl, keeps_delaz (.refl s) _ _ _ _ (fun _ _ _ k => keeps_cmdAgeingHistory k _ _)⟩
  | unitReady u => exact ⟨_, rfl, keeps_unitReadyMsg (.refl s) _⟩
  | commitReadinessCheck bad => exact ⟨_, rfl, keeps_readinessCheck (.refl s) _⟩
  | shadowSwap bad reset => exact ⟨_, rfl, keeps_shadowSwapOp (.refl s) _ _⟩
  | unitApplied u => exact ⟨_, rfl, keeps_unitAppliedMsg (.refl s) _⟩
  | commitOutcome => exact ⟨_, rfl, keeps_commitOutcomeOp (.refl s)⟩
  | commitRollback => exact ⟨_, rfl, keeps_commitRollbackOp (.refl s)⟩
  | heartbeat p bytes => exact ⟨_, rfl, keeps_poolRow (.refl s) _ _ _ _⟩
  | heartbeatSend => exact ⟨_, rfl, keeps_heartbeatSend (.refl s)⟩
  | state p bytes => exact ⟨_, rfl, keeps_poolRow (.refl s) _ _ _ _⟩
  | stateSend => exact ⟨_, rfl, keeps_stateSend (.refl s)⟩
  | claim p bytes => exact ⟨_, rfl, keeps_poolRow (.refl s) _ _ _ _⟩
  | claimLostStandby c => exact ⟨_, rfl, keeps_claimLostStandby (.refl s) _⟩
  | mirror p bytes d => exact ⟨_, rfl, keeps_poolRow (.refl s) _ _ _ _⟩
  | mirrorPageSend c => exact ⟨_, rfl, keeps_mirrorPageSend (.refl s) _⟩
  | mirrorLagExceeded c => exact ⟨_, rfl, keeps_mirrorLagExceeded (.refl s) _⟩
  | prepare p bytes => exact ⟨_, rfl, keeps_migrateRow (.refl s) _ _ _⟩
  | ready p bytes => exact ⟨_, rfl, keeps_migrateRow (.refl s) _ _ _⟩
  | go p bytes => exact ⟨_, rfl, keeps_migrateRow (.refl s) _ _ _⟩
  | goAck p bytes => exact ⟨_, rfl, keeps_migrateRow (.refl s) _ _ _⟩
  | cancel p bytes => exact ⟨_, rfl, keeps_migrateRow (.refl s) _ _ _⟩
  | migrateGoDeadline c => exact ⟨_, rfl, keeps_migrateGoDeadline (.refl s) _⟩
  | migrateAckDeadline c => exact ⟨_, rfl, keeps_migrateAckDeadline (.refl s) _⟩
  | migrateSwitch c => exact ⟨_, rfl, keeps_migrateSwitch (.refl s) _⟩
  | migrateReply c => exact ⟨_, rfl, keeps_migrateReply (.refl s) _⟩
  | takeoverSwitch c => exact ⟨_, rfl, keeps_takeoverSwitch (.refl s) _⟩
  | peerUnreachable n => exact ⟨_, rfl, keeps_peerUnreachable (.refl s) _⟩
  | timeOffsetEvaluation => exact ⟨_, rfl, keeps_timeOffsetEvaluation (.refl s)⟩
  | keyGraceExpiry => exact ⟨_, rfl, keeps_keyGraceExpiry (.refl s)⟩
  | eventAcceptance => exact ⟨_, rfl, keeps_eventAcceptanceOp (.refl s)⟩
  | hostLaggedTimeout h => exact ⟨_, rfl, keeps_hostLaggedOp (.refl s) _⟩
  | selftestDue u => exact ⟨_, rfl, keeps_selftestDueOp (.refl s) _⟩
  | selftestStart u => exact ⟨_, rfl, keeps_selftestStartOp (.refl s) _⟩
  | selftestTestComplete u fail => exact ⟨_, rfl, keeps_testCompleteOp (.refl s) _ _⟩
  | demandIdleExpiry d => exact ⟨_, rfl, keeps_demandIdleExpiry (.refl s) _⟩
  | demandWake d => exact ⟨_, rfl, keeps_demandWake (.refl s) _⟩
  | domainPowerUpComplete d => exact ⟨_, rfl, keeps_domainPowerUpComplete (.refl s) _⟩
  | wakeN => exact ⟨_, rfl, keeps_wakeN (.refl s)⟩
  | hostPortActivityWake h => exact ⟨_, rfl, keeps_hostPortActivityWake (.refl s) _⟩
  | droopDetect t sag => exact ⟨_, rfl, keeps_droopDetect (.refl s) _ _⟩
  | droopLevelFall t => exact ⟨_, rfl, keeps_droopLevelFall (.refl s) _⟩
  | stretchWindowEnd => exact ⟨_, rfl, keeps_stretchWindowEnd (.refl s)⟩
  | ageingSample tiles => exact ⟨_, rfl, keeps_ageingSample (.refl s) _⟩
  | replanBoundary => exact ⟨_, rfl, keeps_replanBoundary (.refl s)⟩
  | marginFlag t cls idx => exact ⟨_, rfl, keeps_marginFlag (.refl s) _ _ _⟩
  | avsWriteComplete rail res => exact ⟨_, rfl, keeps_avsWriteComplete (.refl s) _ _⟩
  | thermAlert hot => exact ⟨_, rfl, keeps_thermAlertOp (.refl s) _⟩
  | thermtrip => exact ⟨_, rfl, keeps_thermtripOp (.refl s)⟩
  | rstNAssert => exact ⟨_, rfl, keeps_rstNAssertOp (.refl s)⟩
  | coldStart m => exact ⟨_, rfl, keeps_coldStartOp (.refl s) _⟩
  | wrstN => exact ⟨_, rfl, keeps_wrstNOp (.refl s)⟩
  | warmStart m => exact ⟨_, rfl, keeps_warmStartOp (.refl s) _⟩
  | tapReset => exact ⟨_, rfl, keeps_tapResetOp (.refl s)⟩
  | extest v => exact ⟨_, rfl, keeps_tapDrive (.refl s) _ _⟩
  | samplePreload v => exact ⟨_, rfl, keeps_tapLoad (.refl s) _ _⟩
  | idcode => exact ⟨_, rfl, keeps_tapLoad (.refl s) _ _⟩
  | clamp => exact ⟨_, rfl, keeps_tapDrive (.refl s) _ _⟩
  | highz => exact ⟨_, rfl, keeps_tapDrive (.refl s) _ _⟩
  | extestPulse v => exact ⟨_, rfl, keeps_tapDrive (.refl s) _ _⟩
  | extestTrain v => exact ⟨_, rfl, keeps_tapDrive (.refl s) _ _⟩
  | proulAccess => exact ⟨_, rfl, keeps_tapLoad (.refl s) _ _⟩
  | bypass => exact ⟨_, rfl, keeps_tapLoad (.refl s) _ _⟩
  | nop => exact ⟨_, rfl, keeps_proulNop (.refl s)⟩
  | fabRead addr => exact ⟨_, rfl, keeps_proulFab (.refl s) _ _ _⟩
  | fabWrite addr data => exact ⟨_, rfl, keeps_proulFab (.refl s) _ _ _⟩
  | dbgRead addr => exact ⟨_, rfl, keeps_proulDbgRead (.refl s) _⟩
  | dbgWrite addr data => exact ⟨_, rfl, keeps_proulDbgWrite (.refl s) _ _⟩
  | halt k => exact ⟨_, rfl, keeps_proulDbgWrite (.refl s) _ _⟩
  | resume k => exact ⟨_, rfl, keeps_proulDbgWrite (.refl s) _ _⟩
  | step k => exact ⟨_, rfl, keeps_proulDbgWrite (.refl s) _ _⟩
  | xtStatusClear mask => exact ⟨_, rfl, keeps_proulDbgWrite (.refl s) _ _⟩
  | haltPointReached k => exact ⟨_, rfl, keeps_haltPoint (.refl s) _⟩
  | crossTriggerRequest k => exact ⟨_, rfl, keeps_crossTrigger (.refl s) _⟩
  | unlockExpiry => exact ⟨_, rfl, keeps_unlockExpiryOp (.refl s)⟩
  | challengeExpiry => exact ⟨_, rfl, keeps_challengeExpiryOp (.refl s)⟩
  | clkinEdgesReturned k => exact ⟨_, rfl, keeps_clkinEdgesReturned (.refl s) _⟩
  | powerRemoval => exact ⟨_, rfl, keeps_powerRemovalOp (.refl s)⟩

end Sys2Proof.Machine
end

