-- ==== Sys2Proof/Laws/State.lean ====
section
/-! SUPPORT. Reading a part of the state back after it was written: each part reads as written, and every other part
reads as before. -/

namespace Sys2Proof.Machine

/-! ## Sparse maps -/

@[simp] theorem mapGet?_mapSet_self {α : Type} (m : SMap α) (k : Nat) (v : α) : mapGet? (mapSet m k v) k = some v := by
  induction m with
  | nil => simp [mapSet, mapGet?]
  | cons e t ih =>
    obtain ⟨j, w⟩ := e
    unfold mapSet
    split
    · simp [mapGet?]
    · split
      · simp [mapGet?]
      · rename_i h
        simp [mapGet?, Ne.symm h, ih]

@[simp] theorem mapGet?_mapSet_ne {α : Type} (m : SMap α) {k j : Nat} (v : α) (h : j ≠ k) :
    mapGet? (mapSet m k v) j = mapGet? m j := by
  induction m with
  | nil => simp [mapSet, mapGet?, Ne.symm h]
  | cons e t ih =>
    obtain ⟨i, w⟩ := e
    unfold mapSet
    split
    · simp [mapGet?, Ne.symm h]
    · split
      · rename_i e
        subst e
        simp [mapGet?, Ne.symm h]
      · simp only [mapGet?, ih]

@[simp] theorem mapGet_mapSet_self {α : Type} (m : SMap α) (k : Nat) (v d : α) : mapGet (mapSet m k v) k d = v := by
  simp [mapGet]

@[simp] theorem mapGet_mapSet_ne {α : Type} (m : SMap α) {k j : Nat} (v d : α) (h : j ≠ k) :
    mapGet (mapSet m k v) j d = mapGet m j d := by
  simp [mapGet, h]

@[simp] theorem mapGet?_nil {α : Type} (k : Nat) : mapGet? ([] : SMap α) k = none := rfl

@[simp] theorem mapGet_nil {α : Type} (k : Nat) (d : α) : mapGet ([] : SMap α) k d = d := rfl


/-! ## setDom -/

@[simp] theorem State.dom_setDom_self (s : State) (d : Nat) (x : Domain) : (s.setDom d x).dom d = x := by
  unfold State.setDom State.dom
  split <;> rfl

@[simp] theorem State.setDom_host (s : State) (d : Nat) (x : Domain) : (s.setDom d x).host = s.host := by
  unfold State.setDom
  split <;> rfl

@[simp] theorem State.setDom_cfg (s : State) (d : Nat) (x : Domain) : (s.setDom d x).cfg = s.cfg := by
  unfold State.setDom
  split <;> rfl

@[simp] theorem State.setDom_ev (s : State) (d : Nat) (x : Domain) : (s.setDom d x).ev = s.ev := by
  unfold State.setDom
  split <;> rfl

@[simp] theorem State.setDom_test (s : State) (d : Nat) (x : Domain) : (s.setDom d x).test = s.test := by
  unfold State.setDom
  split <;> rfl

@[simp] theorem State.setDom_lanes (s : State) (d : Nat) (x : Domain) : (s.setDom d x).lanes = s.lanes := by
  unfold State.setDom
  split <;> rfl

@[simp] theorem State.setDom_ports (s : State) (d : Nat) (x : Domain) : (s.setDom d x).ports = s.ports := by
  unfold State.setDom
  split <;> rfl

@[simp] theorem State.setDom_facet (s : State) (d : Nat) (x : Domain) : (s.setDom d x).facet = s.facet := by
  unfold State.setDom
  split <;> rfl

@[simp] theorem State.setDom_mill (s : State) (d : Nat) (x : Domain) : (s.setDom d x).mill = s.mill := by
  unfold State.setDom
  split <;> rfl

@[simp] theorem State.setDom_clove (s : State) (d : Nat) (x : Domain) : (s.setDom d x).clove = s.clove := by
  unfold State.setDom
  split <;> rfl

@[simp] theorem State.setDom_fab (s : State) (d : Nat) (x : Domain) : (s.setDom d x).fab = s.fab := by
  unfold State.setDom
  split <;> rfl

@[simp] theorem State.setDom_mem (s : State) (d : Nat) (x : Domain) : (s.setDom d x).mem = s.mem := by
  unfold State.setDom
  split <;> rfl

@[simp] theorem State.setDom_dma (s : State) (d : Nat) (x : Domain) : (s.setDom d x).dma = s.dma := by
  unfold State.setDom
  split <;> rfl

@[simp] theorem State.setDom_pool (s : State) (d : Nat) (x : Domain) : (s.setDom d x).pool = s.pool := by
  unfold State.setDom
  split <;> rfl

@[simp] theorem State.setDom_power (s : State) (d : Nat) (x : Domain) : (s.setDom d x).power = s.power := by
  unfold State.setDom
  split <;> rfl

@[simp] theorem State.setDom_boot (s : State) (d : Nat) (x : Domain) : (s.setDom d x).boot = s.boot := by
  unfold State.setDom
  split <;> rfl

@[simp] theorem State.setDom_proul (s : State) (d : Nat) (x : Domain) : (s.setDom d x).proul = s.proul := by
  unfold State.setDom
  split <;> rfl

@[simp] theorem State.setDom_freeCount (s : State) (d : Nat) (x : Domain) : (s.setDom d x).freeCount = s.freeCount := by
  unfold State.setDom
  split <;> rfl

@[simp] theorem State.setDom_pending (s : State) (d : Nat) (x : Domain) : (s.setDom d x).pending = s.pending := by
  unfold State.setDom
  split <;> rfl


/-! ## setPps -/

@[simp] theorem State.ppsOut_setPps_self (s : State) (k : Nat) (p : PpsOut) : (s.setPps k p).ppsOut k = p := by
  simp [State.setPps, State.ppsOut]

@[simp] theorem State.ppsOut_setPps_ne (s : State) (k : Nat) (p : PpsOut) {j : Nat} (h : j ≠ k) :
    (s.setPps k p).ppsOut j = s.ppsOut j := by
  simp [State.setPps, State.ppsOut, h]

@[simp] theorem State.setPps_host (s : State) (k : Nat) (p : PpsOut) : (s.setPps k p).host = s.host := by
  unfold State.setPps
  rfl

@[simp] theorem State.setPps_cfg (s : State) (k : Nat) (p : PpsOut) : (s.setPps k p).cfg = s.cfg := by
  unfold State.setPps
  rfl

@[simp] theorem State.setPps_ev (s : State) (k : Nat) (p : PpsOut) : (s.setPps k p).ev = s.ev := by
  unfold State.setPps
  rfl

@[simp] theorem State.setPps_test (s : State) (k : Nat) (p : PpsOut) : (s.setPps k p).test = s.test := by
  unfold State.setPps
  rfl

@[simp] theorem State.setPps_lanes (s : State) (k : Nat) (p : PpsOut) : (s.setPps k p).lanes = s.lanes := by
  unfold State.setPps
  rfl

@[simp] theorem State.setPps_ports (s : State) (k : Nat) (p : PpsOut) : (s.setPps k p).ports = s.ports := by
  unfold State.setPps
  rfl

@[simp] theorem State.setPps_facet (s : State) (k : Nat) (p : PpsOut) : (s.setPps k p).facet = s.facet := by
  unfold State.setPps
  rfl

@[simp] theorem State.setPps_mill (s : State) (k : Nat) (p : PpsOut) : (s.setPps k p).mill = s.mill := by
  unfold State.setPps
  rfl

@[simp] theorem State.setPps_clove (s : State) (k : Nat) (p : PpsOut) : (s.setPps k p).clove = s.clove := by
  unfold State.setPps
  rfl

@[simp] theorem State.setPps_fab (s : State) (k : Nat) (p : PpsOut) : (s.setPps k p).fab = s.fab := by
  unfold State.setPps
  rfl

@[simp] theorem State.setPps_mem (s : State) (k : Nat) (p : PpsOut) : (s.setPps k p).mem = s.mem := by
  unfold State.setPps
  rfl

@[simp] theorem State.setPps_dma (s : State) (k : Nat) (p : PpsOut) : (s.setPps k p).dma = s.dma := by
  unfold State.setPps
  rfl

@[simp] theorem State.setPps_pool (s : State) (k : Nat) (p : PpsOut) : (s.setPps k p).pool = s.pool := by
  unfold State.setPps
  rfl

@[simp] theorem State.setPps_power (s : State) (k : Nat) (p : PpsOut) : (s.setPps k p).power = s.power := by
  unfold State.setPps
  rfl

@[simp] theorem State.setPps_boot (s : State) (k : Nat) (p : PpsOut) : (s.setPps k p).boot = s.boot := by
  unfold State.setPps
  rfl

@[simp] theorem State.setPps_proul (s : State) (k : Nat) (p : PpsOut) : (s.setPps k p).proul = s.proul := by
  unfold State.setPps
  rfl

@[simp] theorem State.setPps_freeCount (s : State) (k : Nat) (p : PpsOut) : (s.setPps k p).freeCount = s.freeCount := by
  unfold State.setPps
  rfl

@[simp] theorem State.setPps_pending (s : State) (k : Nat) (p : PpsOut) : (s.setPps k p).pending = s.pending := by
  unfold State.setPps
  rfl


/-! ## setTod -/

@[simp] theorem State.tod_setTod_self (s : State) (k : Nat) (t : TodIn) : (s.setTod k t).tod k = t := by
  unfold State.setTod State.tod
  split <;> rfl

@[simp] theorem State.setTod_host (s : State) (k : Nat) (t : TodIn) : (s.setTod k t).host = s.host := by
  unfold State.setTod
  split <;> rfl

@[simp] theorem State.setTod_cfg (s : State) (k : Nat) (t : TodIn) : (s.setTod k t).cfg = s.cfg := by
  unfold State.setTod
  split <;> rfl

@[simp] theorem State.setTod_ev (s : State) (k : Nat) (t : TodIn) : (s.setTod k t).ev = s.ev := by
  unfold State.setTod
  split <;> rfl

@[simp] theorem State.setTod_test (s : State) (k : Nat) (t : TodIn) : (s.setTod k t).test = s.test := by
  unfold State.setTod
  split <;> rfl

@[simp] theorem State.setTod_lanes (s : State) (k : Nat) (t : TodIn) : (s.setTod k t).lanes = s.lanes := by
  unfold State.setTod
  split <;> rfl

@[simp] theorem State.setTod_ports (s : State) (k : Nat) (t : TodIn) : (s.setTod k t).ports = s.ports := by
  unfold State.setTod
  split <;> rfl

@[simp] theorem State.setTod_facet (s : State) (k : Nat) (t : TodIn) : (s.setTod k t).facet = s.facet := by
  unfold State.setTod
  split <;> rfl

@[simp] theorem State.setTod_mill (s : State) (k : Nat) (t : TodIn) : (s.setTod k t).mill = s.mill := by
  unfold State.setTod
  split <;> rfl

@[simp] theorem State.setTod_clove (s : State) (k : Nat) (t : TodIn) : (s.setTod k t).clove = s.clove := by
  unfold State.setTod
  split <;> rfl

@[simp] theorem State.setTod_fab (s : State) (k : Nat) (t : TodIn) : (s.setTod k t).fab = s.fab := by
  unfold State.setTod
  split <;> rfl

@[simp] theorem State.setTod_mem (s : State) (k : Nat) (t : TodIn) : (s.setTod k t).mem = s.mem := by
  unfold State.setTod
  split <;> rfl

@[simp] theorem State.setTod_dma (s : State) (k : Nat) (t : TodIn) : (s.setTod k t).dma = s.dma := by
  unfold State.setTod
  split <;> rfl

@[simp] theorem State.setTod_pool (s : State) (k : Nat) (t : TodIn) : (s.setTod k t).pool = s.pool := by
  unfold State.setTod
  split <;> rfl

@[simp] theorem State.setTod_power (s : State) (k : Nat) (t : TodIn) : (s.setTod k t).power = s.power := by
  unfold State.setTod
  split <;> rfl

@[simp] theorem State.setTod_boot (s : State) (k : Nat) (t : TodIn) : (s.setTod k t).boot = s.boot := by
  unfold State.setTod
  split <;> rfl

@[simp] theorem State.setTod_proul (s : State) (k : Nat) (t : TodIn) : (s.setTod k t).proul = s.proul := by
  unfold State.setTod
  split <;> rfl

@[simp] theorem State.setTod_freeCount (s : State) (k : Nat) (t : TodIn) : (s.setTod k t).freeCount = s.freeCount := by
  unfold State.setTod
  split <;> rfl

@[simp] theorem State.setTod_pending (s : State) (k : Nat) (t : TodIn) : (s.setTod k t).pending = s.pending := by
  unfold State.setTod
  split <;> rfl


/-! ## setComp -/

@[simp] theorem State.comp_setComp_self (s : State) (n : Nat) (x : Comparator) : (s.setComp n x).comp n = x := by
  simp [State.setComp, State.comp]

@[simp] theorem State.comp_setComp_ne (s : State) (n : Nat) (x : Comparator) {j : Nat} (h : j ≠ n) :
    (s.setComp n x).comp j = s.comp j := by
  simp [State.setComp, State.comp, h]

@[simp] theorem State.setComp_host (s : State) (n : Nat) (x : Comparator) : (s.setComp n x).host = s.host := by
  unfold State.setComp
  rfl

@[simp] theorem State.setComp_cfg (s : State) (n : Nat) (x : Comparator) : (s.setComp n x).cfg = s.cfg := by
  unfold State.setComp
  rfl

@[simp] theorem State.setComp_ev (s : State) (n : Nat) (x : Comparator) : (s.setComp n x).ev = s.ev := by
  unfold State.setComp
  rfl

@[simp] theorem State.setComp_test (s : State) (n : Nat) (x : Comparator) : (s.setComp n x).test = s.test := by
  unfold State.setComp
  rfl

@[simp] theorem State.setComp_lanes (s : State) (n : Nat) (x : Comparator) : (s.setComp n x).lanes = s.lanes := by
  unfold State.setComp
  rfl

@[simp] theorem State.setComp_ports (s : State) (n : Nat) (x : Comparator) : (s.setComp n x).ports = s.ports := by
  unfold State.setComp
  rfl

@[simp] theorem State.setComp_facet (s : State) (n : Nat) (x : Comparator) : (s.setComp n x).facet = s.facet := by
  unfold State.setComp
  rfl

@[simp] theorem State.setComp_mill (s : State) (n : Nat) (x : Comparator) : (s.setComp n x).mill = s.mill := by
  unfold State.setComp
  rfl

@[simp] theorem State.setComp_clove (s : State) (n : Nat) (x : Comparator) : (s.setComp n x).clove = s.clove := by
  unfold State.setComp
  rfl

@[simp] theorem State.setComp_fab (s : State) (n : Nat) (x : Comparator) : (s.setComp n x).fab = s.fab := by
  unfold State.setComp
  rfl

@[simp] theorem State.setComp_mem (s : State) (n : Nat) (x : Comparator) : (s.setComp n x).mem = s.mem := by
  unfold State.setComp
  rfl

@[simp] theorem State.setComp_dma (s : State) (n : Nat) (x : Comparator) : (s.setComp n x).dma = s.dma := by
  unfold State.setComp
  rfl

@[simp] theorem State.setComp_pool (s : State) (n : Nat) (x : Comparator) : (s.setComp n x).pool = s.pool := by
  unfold State.setComp
  rfl

@[simp] theorem State.setComp_power (s : State) (n : Nat) (x : Comparator) : (s.setComp n x).power = s.power := by
  unfold State.setComp
  rfl

@[simp] theorem State.setComp_boot (s : State) (n : Nat) (x : Comparator) : (s.setComp n x).boot = s.boot := by
  unfold State.setComp
  rfl

@[simp] theorem State.setComp_proul (s : State) (n : Nat) (x : Comparator) : (s.setComp n x).proul = s.proul := by
  unfold State.setComp
  rfl

@[simp] theorem State.setComp_freeCount (s : State) (n : Nat) (x : Comparator) : (s.setComp n x).freeCount = s.freeCount := by
  unfold State.setComp
  rfl

@[simp] theorem State.setComp_pending (s : State) (n : Nat) (x : Comparator) : (s.setComp n x).pending = s.pending := by
  unfold State.setComp
  rfl


/-! ## setLane -/

@[simp] theorem State.lane_setLane_self (s : State) (l : Nat) (x : Lane) : (s.setLane l x).lane l = x := by
  simp [State.setLane, State.lane]

@[simp] theorem State.lane_setLane_ne (s : State) (l : Nat) (x : Lane) {j : Nat} (h : j ≠ l) :
    (s.setLane l x).lane j = s.lane j := by
  simp [State.setLane, State.lane, h]

@[simp] theorem State.setLane_time (s : State) (l : Nat) (x : Lane) : (s.setLane l x).time = s.time := by
  unfold State.setLane
  rfl

@[simp] theorem State.setLane_host (s : State) (l : Nat) (x : Lane) : (s.setLane l x).host = s.host := by
  unfold State.setLane
  rfl

@[simp] theorem State.setLane_cfg (s : State) (l : Nat) (x : Lane) : (s.setLane l x).cfg = s.cfg := by
  unfold State.setLane
  rfl

@[simp] theorem State.setLane_ev (s : State) (l : Nat) (x : Lane) : (s.setLane l x).ev = s.ev := by
  unfold State.setLane
  rfl

@[simp] theorem State.setLane_test (s : State) (l : Nat) (x : Lane) : (s.setLane l x).test = s.test := by
  unfold State.setLane
  rfl

@[simp] theorem State.setLane_ports (s : State) (l : Nat) (x : Lane) : (s.setLane l x).ports = s.ports := by
  unfold State.setLane
  rfl

@[simp] theorem State.setLane_facet (s : State) (l : Nat) (x : Lane) : (s.setLane l x).facet = s.facet := by
  unfold State.setLane
  rfl

@[simp] theorem State.setLane_mill (s : State) (l : Nat) (x : Lane) : (s.setLane l x).mill = s.mill := by
  unfold State.setLane
  rfl

@[simp] theorem State.setLane_clove (s : State) (l : Nat) (x : Lane) : (s.setLane l x).clove = s.clove := by
  unfold State.setLane
  rfl

@[simp] theorem State.setLane_fab (s : State) (l : Nat) (x : Lane) : (s.setLane l x).fab = s.fab := by
  unfold State.setLane
  rfl

@[simp] theorem State.setLane_mem (s : State) (l : Nat) (x : Lane) : (s.setLane l x).mem = s.mem := by
  unfold State.setLane
  rfl

@[simp] theorem State.setLane_dma (s : State) (l : Nat) (x : Lane) : (s.setLane l x).dma = s.dma := by
  unfold State.setLane
  rfl

@[simp] theorem State.setLane_pool (s : State) (l : Nat) (x : Lane) : (s.setLane l x).pool = s.pool := by
  unfold State.setLane
  rfl

@[simp] theorem State.setLane_power (s : State) (l : Nat) (x : Lane) : (s.setLane l x).power = s.power := by
  unfold State.setLane
  rfl

@[simp] theorem State.setLane_boot (s : State) (l : Nat) (x : Lane) : (s.setLane l x).boot = s.boot := by
  unfold State.setLane
  rfl

@[simp] theorem State.setLane_proul (s : State) (l : Nat) (x : Lane) : (s.setLane l x).proul = s.proul := by
  unfold State.setLane
  rfl

@[simp] theorem State.setLane_freeCount (s : State) (l : Nat) (x : Lane) : (s.setLane l x).freeCount = s.freeCount := by
  unfold State.setLane
  rfl

@[simp] theorem State.setLane_pending (s : State) (l : Nat) (x : Lane) : (s.setLane l x).pending = s.pending := by
  unfold State.setLane
  rfl


/-! ## setPort -/

@[simp] theorem State.port_setPort_self (s : State) (p : Nat) (x : Port) : (s.setPort p x).port p = x := by
  simp [State.setPort, State.port]

@[simp] theorem State.port_setPort_ne (s : State) (p : Nat) (x : Port) {j : Nat} (h : j ≠ p) :
    (s.setPort p x).port j = s.port j := by
  simp [State.setPort, State.port, h]

@[simp] theorem State.setPort_time (s : State) (p : Nat) (x : Port) : (s.setPort p x).time = s.time := by
  unfold State.setPort
  rfl

@[simp] theorem State.setPort_host (s : State) (p : Nat) (x : Port) : (s.setPort p x).host = s.host := by
  unfold State.setPort
  rfl

@[simp] theorem State.setPort_cfg (s : State) (p : Nat) (x : Port) : (s.setPort p x).cfg = s.cfg := by
  unfold State.setPort
  rfl

@[simp] theorem State.setPort_ev (s : State) (p : Nat) (x : Port) : (s.setPort p x).ev = s.ev := by
  unfold State.setPort
  rfl

@[simp] theorem State.setPort_test (s : State) (p : Nat) (x : Port) : (s.setPort p x).test = s.test := by
  unfold State.setPort
  rfl

@[simp] theorem State.setPort_lanes (s : State) (p : Nat) (x : Port) : (s.setPort p x).lanes = s.lanes := by
  unfold State.setPort
  rfl

@[simp] theorem State.setPort_facet (s : State) (p : Nat) (x : Port) : (s.setPort p x).facet = s.facet := by
  unfold State.setPort
  rfl

@[simp] theorem State.setPort_mill (s : State) (p : Nat) (x : Port) : (s.setPort p x).mill = s.mill := by
  unfold State.setPort
  rfl

@[simp] theorem State.setPort_clove (s : State) (p : Nat) (x : Port) : (s.setPort p x).clove = s.clove := by
  unfold State.setPort
  rfl

@[simp] theorem State.setPort_fab (s : State) (p : Nat) (x : Port) : (s.setPort p x).fab = s.fab := by
  unfold State.setPort
  rfl

@[simp] theorem State.setPort_mem (s : State) (p : Nat) (x : Port) : (s.setPort p x).mem = s.mem := by
  unfold State.setPort
  rfl

@[simp] theorem State.setPort_dma (s : State) (p : Nat) (x : Port) : (s.setPort p x).dma = s.dma := by
  unfold State.setPort
  rfl

@[simp] theorem State.setPort_pool (s : State) (p : Nat) (x : Port) : (s.setPort p x).pool = s.pool := by
  unfold State.setPort
  rfl

@[simp] theorem State.setPort_power (s : State) (p : Nat) (x : Port) : (s.setPort p x).power = s.power := by
  unfold State.setPort
  rfl

@[simp] theorem State.setPort_boot (s : State) (p : Nat) (x : Port) : (s.setPort p x).boot = s.boot := by
  unfold State.setPort
  rfl

@[simp] theorem State.setPort_proul (s : State) (p : Nat) (x : Port) : (s.setPort p x).proul = s.proul := by
  unfold State.setPort
  rfl

@[simp] theorem State.setPort_freeCount (s : State) (p : Nat) (x : Port) : (s.setPort p x).freeCount = s.freeCount := by
  unfold State.setPort
  rfl

@[simp] theorem State.setPort_pending (s : State) (p : Nat) (x : Port) : (s.setPort p x).pending = s.pending := by
  unfold State.setPort
  rfl


/-! ## setCfh -/

@[simp] theorem State.cfh_setCfh_self (s : State) (c : Nat) (x : CarrierFh) : (s.setCfh c x).cfh c = x := by
  simp [State.setCfh, State.cfh]

@[simp] theorem State.cfh_setCfh_ne (s : State) (c : Nat) (x : CarrierFh) {j : Nat} (h : j ≠ c) :
    (s.setCfh c x).cfh j = s.cfh j := by
  simp [State.setCfh, State.cfh, h]

@[simp] theorem State.setCfh_time (s : State) (c : Nat) (x : CarrierFh) : (s.setCfh c x).time = s.time := by
  unfold State.setCfh
  rfl

@[simp] theorem State.setCfh_host (s : State) (c : Nat) (x : CarrierFh) : (s.setCfh c x).host = s.host := by
  unfold State.setCfh
  rfl

@[simp] theorem State.setCfh_cfg (s : State) (c : Nat) (x : CarrierFh) : (s.setCfh c x).cfg = s.cfg := by
  unfold State.setCfh
  rfl

@[simp] theorem State.setCfh_ev (s : State) (c : Nat) (x : CarrierFh) : (s.setCfh c x).ev = s.ev := by
  unfold State.setCfh
  rfl

@[simp] theorem State.setCfh_test (s : State) (c : Nat) (x : CarrierFh) : (s.setCfh c x).test = s.test := by
  unfold State.setCfh
  rfl

@[simp] theorem State.setCfh_lanes (s : State) (c : Nat) (x : CarrierFh) : (s.setCfh c x).lanes = s.lanes := by
  unfold State.setCfh
  rfl

@[simp] theorem State.setCfh_facet (s : State) (c : Nat) (x : CarrierFh) : (s.setCfh c x).facet = s.facet := by
  unfold State.setCfh
  rfl

@[simp] theorem State.setCfh_mill (s : State) (c : Nat) (x : CarrierFh) : (s.setCfh c x).mill = s.mill := by
  unfold State.setCfh
  rfl

@[simp] theorem State.setCfh_clove (s : State) (c : Nat) (x : CarrierFh) : (s.setCfh c x).clove = s.clove := by
  unfold State.setCfh
  rfl

@[simp] theorem State.setCfh_fab (s : State) (c : Nat) (x : CarrierFh) : (s.setCfh c x).fab = s.fab := by
  unfold State.setCfh
  rfl

@[simp] theorem State.setCfh_mem (s : State) (c : Nat) (x : CarrierFh) : (s.setCfh c x).mem = s.mem := by
  unfold State.setCfh
  rfl

@[simp] theorem State.setCfh_dma (s : State) (c : Nat) (x : CarrierFh) : (s.setCfh c x).dma = s.dma := by
  unfold State.setCfh
  rfl

@[simp] theorem State.setCfh_pool (s : State) (c : Nat) (x : CarrierFh) : (s.setCfh c x).pool = s.pool := by
  unfold State.setCfh
  rfl

@[simp] theorem State.setCfh_power (s : State) (c : Nat) (x : CarrierFh) : (s.setCfh c x).power = s.power := by
  unfold State.setCfh
  rfl

@[simp] theorem State.setCfh_boot (s : State) (c : Nat) (x : CarrierFh) : (s.setCfh c x).boot = s.boot := by
  unfold State.setCfh
  rfl

@[simp] theorem State.setCfh_proul (s : State) (c : Nat) (x : CarrierFh) : (s.setCfh c x).proul = s.proul := by
  unfold State.setCfh
  rfl

@[simp] theorem State.setCfh_freeCount (s : State) (c : Nat) (x : CarrierFh) : (s.setCfh c x).freeCount = s.freeCount := by
  unfold State.setCfh
  rfl

@[simp] theorem State.setCfh_pending (s : State) (c : Nat) (x : CarrierFh) : (s.setCfh c x).pending = s.pending := by
  unfold State.setCfh
  rfl


/-! ## setCore -/

@[simp] theorem State.core_setCore_self (s : State) (k : Nat) (c : Core) : (s.setCore k c).core k = c := by
  simp [State.setCore, State.core]

@[simp] theorem State.core_setCore_ne (s : State) (k : Nat) (c : Core) {j : Nat} (h : j ≠ k) :
    (s.setCore k c).core j = s.core j := by
  simp [State.setCore, State.core, h]

@[simp] theorem State.setCore_time (s : State) (k : Nat) (c : Core) : (s.setCore k c).time = s.time := by
  unfold State.setCore
  rfl

@[simp] theorem State.setCore_host (s : State) (k : Nat) (c : Core) : (s.setCore k c).host = s.host := by
  unfold State.setCore
  rfl

@[simp] theorem State.setCore_cfg (s : State) (k : Nat) (c : Core) : (s.setCore k c).cfg = s.cfg := by
  unfold State.setCore
  rfl

@[simp] theorem State.setCore_ev (s : State) (k : Nat) (c : Core) : (s.setCore k c).ev = s.ev := by
  unfold State.setCore
  rfl

@[simp] theorem State.setCore_test (s : State) (k : Nat) (c : Core) : (s.setCore k c).test = s.test := by
  unfold State.setCore
  rfl

@[simp] theorem State.setCore_lanes (s : State) (k : Nat) (c : Core) : (s.setCore k c).lanes = s.lanes := by
  unfold State.setCore
  rfl

@[simp] theorem State.setCore_ports (s : State) (k : Nat) (c : Core) : (s.setCore k c).ports = s.ports := by
  unfold State.setCore
  rfl

@[simp] theorem State.setCore_mill (s : State) (k : Nat) (c : Core) : (s.setCore k c).mill = s.mill := by
  unfold State.setCore
  rfl

@[simp] theorem State.setCore_clove (s : State) (k : Nat) (c : Core) : (s.setCore k c).clove = s.clove := by
  unfold State.setCore
  rfl

@[simp] theorem State.setCore_fab (s : State) (k : Nat) (c : Core) : (s.setCore k c).fab = s.fab := by
  unfold State.setCore
  rfl

@[simp] theorem State.setCore_mem (s : State) (k : Nat) (c : Core) : (s.setCore k c).mem = s.mem := by
  unfold State.setCore
  rfl

@[simp] theorem State.setCore_dma (s : State) (k : Nat) (c : Core) : (s.setCore k c).dma = s.dma := by
  unfold State.setCore
  rfl

@[simp] theorem State.setCore_pool (s : State) (k : Nat) (c : Core) : (s.setCore k c).pool = s.pool := by
  unfold State.setCore
  rfl

@[simp] theorem State.setCore_power (s : State) (k : Nat) (c : Core) : (s.setCore k c).power = s.power := by
  unfold State.setCore
  rfl

@[simp] theorem State.setCore_boot (s : State) (k : Nat) (c : Core) : (s.setCore k c).boot = s.boot := by
  unfold State.setCore
  rfl

@[simp] theorem State.setCore_proul (s : State) (k : Nat) (c : Core) : (s.setCore k c).proul = s.proul := by
  unfold State.setCore
  rfl

@[simp] theorem State.setCore_freeCount (s : State) (k : Nat) (c : Core) : (s.setCore k c).freeCount = s.freeCount := by
  unfold State.setCore
  rfl

@[simp] theorem State.setCore_pending (s : State) (k : Nat) (c : Core) : (s.setCore k c).pending = s.pending := by
  unfold State.setCore
  rfl


/-! ## setCluster -/

@[simp] theorem State.cluster_setCluster_self (s : State) (c : Nat) (x : Cluster) : (s.setCluster c x).cluster c = x := by
  simp [State.setCluster, State.cluster]

@[simp] theorem State.cluster_setCluster_ne (s : State) (c : Nat) (x : Cluster) {j : Nat} (h : j ≠ c) :
    (s.setCluster c x).cluster j = s.cluster j := by
  simp [State.setCluster, State.cluster, h]

@[simp] theorem State.setCluster_time (s : State) (c : Nat) (x : Cluster) : (s.setCluster c x).time = s.time := by
  unfold State.setCluster
  rfl

@[simp] theorem State.setCluster_host (s : State) (c : Nat) (x : Cluster) : (s.setCluster c x).host = s.host := by
  unfold State.setCluster
  rfl

@[simp] theorem State.setCluster_cfg (s : State) (c : Nat) (x : Cluster) : (s.setCluster c x).cfg = s.cfg := by
  unfold State.setCluster
  rfl

@[simp] theorem State.setCluster_ev (s : State) (c : Nat) (x : Cluster) : (s.setCluster c x).ev = s.ev := by
  unfold State.setCluster
  rfl

@[simp] theorem State.setCluster_test (s : State) (c : Nat) (x : Cluster) : (s.setCluster c x).test = s.test := by
  unfold State.setCluster
  rfl

@[simp] theorem State.setCluster_lanes (s : State) (c : Nat) (x : Cluster) : (s.setCluster c x).lanes = s.lanes := by
  unfold State.setCluster
  rfl

@[simp] theorem State.setCluster_ports (s : State) (c : Nat) (x : Cluster) : (s.setCluster c x).ports = s.ports := by
  unfold State.setCluster
  rfl

@[simp] theorem State.setCluster_mill (s : State) (c : Nat) (x : Cluster) : (s.setCluster c x).mill = s.mill := by
  unfold State.setCluster
  rfl

@[simp] theorem State.setCluster_clove (s : State) (c : Nat) (x : Cluster) : (s.setCluster c x).clove = s.clove := by
  unfold State.setCluster
  rfl

@[simp] theorem State.setCluster_fab (s : State) (c : Nat) (x : Cluster) : (s.setCluster c x).fab = s.fab := by
  unfold State.setCluster
  rfl

@[simp] theorem State.setCluster_mem (s : State) (c : Nat) (x : Cluster) : (s.setCluster c x).mem = s.mem := by
  unfold State.setCluster
  rfl

@[simp] theorem State.setCluster_dma (s : State) (c : Nat) (x : Cluster) : (s.setCluster c x).dma = s.dma := by
  unfold State.setCluster
  rfl

@[simp] theorem State.setCluster_pool (s : State) (c : Nat) (x : Cluster) : (s.setCluster c x).pool = s.pool := by
  unfold State.setCluster
  rfl

@[simp] theorem State.setCluster_power (s : State) (c : Nat) (x : Cluster) : (s.setCluster c x).power = s.power := by
  unfold State.setCluster
  rfl

@[simp] theorem State.setCluster_boot (s : State) (c : Nat) (x : Cluster) : (s.setCluster c x).boot = s.boot := by
  unfold State.setCluster
  rfl

@[simp] theorem State.setCluster_proul (s : State) (c : Nat) (x : Cluster) : (s.setCluster c x).proul = s.proul := by
  unfold State.setCluster
  rfl

@[simp] theorem State.setCluster_freeCount (s : State) (c : Nat) (x : Cluster) : (s.setCluster c x).freeCount = s.freeCount := by
  unfold State.setCluster
  rfl

@[simp] theorem State.setCluster_pending (s : State) (c : Nat) (x : Cluster) : (s.setCluster c x).pending = s.pending := by
  unfold State.setCluster
  rfl


/-! ## setSlc -/

@[simp] theorem State.slc_setSlc_self (s : State) (i : Nat) (x : Slice) : (s.setSlc i x).slc i = x := by
  simp [State.setSlc, State.slc]

@[simp] theorem State.slc_setSlc_ne (s : State) (i : Nat) (x : Slice) {j : Nat} (h : j ≠ i) :
    (s.setSlc i x).slc j = s.slc j := by
  simp [State.setSlc, State.slc, h]

@[simp] theorem State.setSlc_time (s : State) (i : Nat) (x : Slice) : (s.setSlc i x).time = s.time := by
  unfold State.setSlc
  rfl

@[simp] theorem State.setSlc_host (s : State) (i : Nat) (x : Slice) : (s.setSlc i x).host = s.host := by
  unfold State.setSlc
  rfl

@[simp] theorem State.setSlc_cfg (s : State) (i : Nat) (x : Slice) : (s.setSlc i x).cfg = s.cfg := by
  unfold State.setSlc
  rfl

@[simp] theorem State.setSlc_ev (s : State) (i : Nat) (x : Slice) : (s.setSlc i x).ev = s.ev := by
  unfold State.setSlc
  rfl

@[simp] theorem State.setSlc_test (s : State) (i : Nat) (x : Slice) : (s.setSlc i x).test = s.test := by
  unfold State.setSlc
  rfl

@[simp] theorem State.setSlc_lanes (s : State) (i : Nat) (x : Slice) : (s.setSlc i x).lanes = s.lanes := by
  unfold State.setSlc
  rfl

@[simp] theorem State.setSlc_ports (s : State) (i : Nat) (x : Slice) : (s.setSlc i x).ports = s.ports := by
  unfold State.setSlc
  rfl

@[simp] theorem State.setSlc_facet (s : State) (i : Nat) (x : Slice) : (s.setSlc i x).facet = s.facet := by
  unfold State.setSlc
  rfl

@[simp] theorem State.setSlc_clove (s : State) (i : Nat) (x : Slice) : (s.setSlc i x).clove = s.clove := by
  unfold State.setSlc
  rfl

@[simp] theorem State.setSlc_fab (s : State) (i : Nat) (x : Slice) : (s.setSlc i x).fab = s.fab := by
  unfold State.setSlc
  rfl

@[simp] theorem State.setSlc_mem (s : State) (i : Nat) (x : Slice) : (s.setSlc i x).mem = s.mem := by
  unfold State.setSlc
  rfl

@[simp] theorem State.setSlc_dma (s : State) (i : Nat) (x : Slice) : (s.setSlc i x).dma = s.dma := by
  unfold State.setSlc
  rfl

@[simp] theorem State.setSlc_pool (s : State) (i : Nat) (x : Slice) : (s.setSlc i x).pool = s.pool := by
  unfold State.setSlc
  rfl

@[simp] theorem State.setSlc_power (s : State) (i : Nat) (x : Slice) : (s.setSlc i x).power = s.power := by
  unfold State.setSlc
  rfl

@[simp] theorem State.setSlc_boot (s : State) (i : Nat) (x : Slice) : (s.setSlc i x).boot = s.boot := by
  unfold State.setSlc
  rfl

@[simp] theorem State.setSlc_proul (s : State) (i : Nat) (x : Slice) : (s.setSlc i x).proul = s.proul := by
  unfold State.setSlc
  rfl

@[simp] theorem State.setSlc_freeCount (s : State) (i : Nat) (x : Slice) : (s.setSlc i x).freeCount = s.freeCount := by
  unfold State.setSlc
  rfl

@[simp] theorem State.setSlc_pending (s : State) (i : Nat) (x : Slice) : (s.setSlc i x).pending = s.pending := by
  unfold State.setSlc
  rfl


/-! ## setNi -/

@[simp] theorem State.ni_setNi_self (s : State) (k : Nat) (x : Ni) : (s.setNi k x).ni k = x := by
  simp [State.setNi, State.ni]

@[simp] theorem State.ni_setNi_ne (s : State) (k : Nat) (x : Ni) {j : Nat} (h : j ≠ k) :
    (s.setNi k x).ni j = s.ni j := by
  simp [State.setNi, State.ni, h]

@[simp] theorem State.setNi_time (s : State) (k : Nat) (x : Ni) : (s.setNi k x).time = s.time := by
  unfold State.setNi
  rfl

@[simp] theorem State.setNi_host (s : State) (k : Nat) (x : Ni) : (s.setNi k x).host = s.host := by
  unfold State.setNi
  rfl

@[simp] theorem State.setNi_cfg (s : State) (k : Nat) (x : Ni) : (s.setNi k x).cfg = s.cfg := by
  unfold State.setNi
  rfl

@[simp] theorem State.setNi_ev (s : State) (k : Nat) (x : Ni) : (s.setNi k x).ev = s.ev := by
  unfold State.setNi
  rfl

@[simp] theorem State.setNi_test (s : State) (k : Nat) (x : Ni) : (s.setNi k x).test = s.test := by
  unfold State.setNi
  rfl

@[simp] theorem State.setNi_lanes (s : State) (k : Nat) (x : Ni) : (s.setNi k x).lanes = s.lanes := by
  unfold State.setNi
  rfl

@[simp] theorem State.setNi_ports (s : State) (k : Nat) (x : Ni) : (s.setNi k x).ports = s.ports := by
  unfold State.setNi
  rfl

@[simp] theorem State.setNi_facet (s : State) (k : Nat) (x : Ni) : (s.setNi k x).facet = s.facet := by
  unfold State.setNi
  rfl

@[simp] theorem State.setNi_mill (s : State) (k : Nat) (x : Ni) : (s.setNi k x).mill = s.mill := by
  unfold State.setNi
  rfl

@[simp] theorem State.setNi_clove (s : State) (k : Nat) (x : Ni) : (s.setNi k x).clove = s.clove := by
  unfold State.setNi
  rfl

@[simp] theorem State.setNi_mem (s : State) (k : Nat) (x : Ni) : (s.setNi k x).mem = s.mem := by
  unfold State.setNi
  rfl

@[simp] theorem State.setNi_dma (s : State) (k : Nat) (x : Ni) : (s.setNi k x).dma = s.dma := by
  unfold State.setNi
  rfl

@[simp] theorem State.setNi_pool (s : State) (k : Nat) (x : Ni) : (s.setNi k x).pool = s.pool := by
  unfold State.setNi
  rfl

@[simp] theorem State.setNi_power (s : State) (k : Nat) (x : Ni) : (s.setNi k x).power = s.power := by
  unfold State.setNi
  rfl

@[simp] theorem State.setNi_boot (s : State) (k : Nat) (x : Ni) : (s.setNi k x).boot = s.boot := by
  unfold State.setNi
  rfl

@[simp] theorem State.setNi_proul (s : State) (k : Nat) (x : Ni) : (s.setNi k x).proul = s.proul := by
  unfold State.setNi
  rfl

@[simp] theorem State.setNi_freeCount (s : State) (k : Nat) (x : Ni) : (s.setNi k x).freeCount = s.freeCount := by
  unfold State.setNi
  rfl

@[simp] theorem State.setNi_pending (s : State) (k : Nat) (x : Ni) : (s.setNi k x).pending = s.pending := by
  unfold State.setNi
  rfl


/-! ## setBank -/

@[simp] theorem State.bank_setBank_self (s : State) (k : Nat) (b : Bank) : (s.setBank k b).bank k = b := by
  simp [State.setBank, State.bank]

@[simp] theorem State.bank_setBank_ne (s : State) (k : Nat) (b : Bank) {j : Nat} (h : j ≠ k) :
    (s.setBank k b).bank j = s.bank j := by
  simp [State.setBank, State.bank, h]

@[simp] theorem State.setBank_time (s : State) (k : Nat) (b : Bank) : (s.setBank k b).time = s.time := by
  unfold State.setBank
  rfl

@[simp] theorem State.setBank_host (s : State) (k : Nat) (b : Bank) : (s.setBank k b).host = s.host := by
  unfold State.setBank
  rfl

@[simp] theorem State.setBank_cfg (s : State) (k : Nat) (b : Bank) : (s.setBank k b).cfg = s.cfg := by
  unfold State.setBank
  rfl

@[simp] theorem State.setBank_ev (s : State) (k : Nat) (b : Bank) : (s.setBank k b).ev = s.ev := by
  unfold State.setBank
  rfl

@[simp] theorem State.setBank_test (s : State) (k : Nat) (b : Bank) : (s.setBank k b).test = s.test := by
  unfold State.setBank
  rfl

@[simp] theorem State.setBank_lanes (s : State) (k : Nat) (b : Bank) : (s.setBank k b).lanes = s.lanes := by
  unfold State.setBank
  rfl

@[simp] theorem State.setBank_ports (s : State) (k : Nat) (b : Bank) : (s.setBank k b).ports = s.ports := by
  unfold State.setBank
  rfl

@[simp] theorem State.setBank_facet (s : State) (k : Nat) (b : Bank) : (s.setBank k b).facet = s.facet := by
  unfold State.setBank
  rfl

@[simp] theorem State.setBank_mill (s : State) (k : Nat) (b : Bank) : (s.setBank k b).mill = s.mill := by
  unfold State.setBank
  rfl

@[simp] theorem State.setBank_clove (s : State) (k : Nat) (b : Bank) : (s.setBank k b).clove = s.clove := by
  unfold State.setBank
  rfl

@[simp] theorem State.setBank_mem (s : State) (k : Nat) (b : Bank) : (s.setBank k b).mem = s.mem := by
  unfold State.setBank
  rfl

@[simp] theorem State.setBank_dma (s : State) (k : Nat) (b : Bank) : (s.setBank k b).dma = s.dma := by
  unfold State.setBank
  rfl

@[simp] theorem State.setBank_pool (s : State) (k : Nat) (b : Bank) : (s.setBank k b).pool = s.pool := by
  unfold State.setBank
  rfl

@[simp] theorem State.setBank_power (s : State) (k : Nat) (b : Bank) : (s.setBank k b).power = s.power := by
  unfold State.setBank
  rfl

@[simp] theorem State.setBank_boot (s : State) (k : Nat) (b : Bank) : (s.setBank k b).boot = s.boot := by
  unfold State.setBank
  rfl

@[simp] theorem State.setBank_proul (s : State) (k : Nat) (b : Bank) : (s.setBank k b).proul = s.proul := by
  unfold State.setBank
  rfl

@[simp] theorem State.setBank_freeCount (s : State) (k : Nat) (b : Bank) : (s.setBank k b).freeCount = s.freeCount := by
  unfold State.setBank
  rfl

@[simp] theorem State.setBank_pending (s : State) (k : Nat) (b : Bank) : (s.setBank k b).pending = s.pending := by
  unfold State.setBank
  rfl


/-! ## setRegion -/

@[simp] theorem State.region_setRegion_self (s : State) (g : Nat) (r : Region) : (s.setRegion g r).region g = r := by
  simp [State.setRegion, State.region]

@[simp] theorem State.region_setRegion_ne (s : State) (g : Nat) (r : Region) {j : Nat} (h : j ≠ g) :
    (s.setRegion g r).region j = s.region j := by
  simp [State.setRegion, State.region, h]

@[simp] theorem State.setRegion_time (s : State) (g : Nat) (r : Region) : (s.setRegion g r).time = s.time := by
  unfold State.setRegion
  rfl

@[simp] theorem State.setRegion_host (s : State) (g : Nat) (r : Region) : (s.setRegion g r).host = s.host := by
  unfold State.setRegion
  rfl

@[simp] theorem State.setRegion_cfg (s : State) (g : Nat) (r : Region) : (s.setRegion g r).cfg = s.cfg := by
  unfold State.setRegion
  rfl

@[simp] theorem State.setRegion_ev (s : State) (g : Nat) (r : Region) : (s.setRegion g r).ev = s.ev := by
  unfold State.setRegion
  rfl

@[simp] theorem State.setRegion_test (s : State) (g : Nat) (r : Region) : (s.setRegion g r).test = s.test := by
  unfold State.setRegion
  rfl

@[simp] theorem State.setRegion_lanes (s : State) (g : Nat) (r : Region) : (s.setRegion g r).lanes = s.lanes := by
  unfold State.setRegion
  rfl

@[simp] theorem State.setRegion_ports (s : State) (g : Nat) (r : Region) : (s.setRegion g r).ports = s.ports := by
  unfold State.setRegion
  rfl

@[simp] theorem State.setRegion_facet (s : State) (g : Nat) (r : Region) : (s.setRegion g r).facet = s.facet := by
  unfold State.setRegion
  rfl

@[simp] theorem State.setRegion_mill (s : State) (g : Nat) (r : Region) : (s.setRegion g r).mill = s.mill := by
  unfold State.setRegion
  rfl

@[simp] theorem State.setRegion_clove (s : State) (g : Nat) (r : Region) : (s.setRegion g r).clove = s.clove := by
  unfold State.setRegion
  rfl

@[simp] theorem State.setRegion_fab (s : State) (g : Nat) (r : Region) : (s.setRegion g r).fab = s.fab := by
  unfold State.setRegion
  rfl

@[simp] theorem State.setRegion_dma (s : State) (g : Nat) (r : Region) : (s.setRegion g r).dma = s.dma := by
  unfold State.setRegion
  rfl

@[simp] theorem State.setRegion_pool (s : State) (g : Nat) (r : Region) : (s.setRegion g r).pool = s.pool := by
  unfold State.setRegion
  rfl

@[simp] theorem State.setRegion_power (s : State) (g : Nat) (r : Region) : (s.setRegion g r).power = s.power := by
  unfold State.setRegion
  rfl

@[simp] theorem State.setRegion_boot (s : State) (g : Nat) (r : Region) : (s.setRegion g r).boot = s.boot := by
  unfold State.setRegion
  rfl

@[simp] theorem State.setRegion_proul (s : State) (g : Nat) (r : Region) : (s.setRegion g r).proul = s.proul := by
  unfold State.setRegion
  rfl

@[simp] theorem State.setRegion_freeCount (s : State) (g : Nat) (r : Region) : (s.setRegion g r).freeCount = s.freeCount := by
  unfold State.setRegion
  rfl

@[simp] theorem State.setRegion_pending (s : State) (g : Nat) (r : Region) : (s.setRegion g r).pending = s.pending := by
  unfold State.setRegion
  rfl


/-! ## setChan -/

@[simp] theorem State.chan_setChan_self (s : State) (c : Nat) (x : Chan) : (s.setChan c x).chan c = x := by
  simp [State.setChan, State.chan]

@[simp] theorem State.chan_setChan_ne (s : State) (c : Nat) (x : Chan) {j : Nat} (h : j ≠ c) :
    (s.setChan c x).chan j = s.chan j := by
  simp [State.setChan, State.chan, h]

@[simp] theorem State.setChan_time (s : State) (c : Nat) (x : Chan) : (s.setChan c x).time = s.time := by
  unfold State.setChan
  rfl

@[simp] theorem State.setChan_host (s : State) (c : Nat) (x : Chan) : (s.setChan c x).host = s.host := by
  unfold State.setChan
  rfl

@[simp] theorem State.setChan_cfg (s : State) (c : Nat) (x : Chan) : (s.setChan c x).cfg = s.cfg := by
  unfold State.setChan
  rfl

@[simp] theorem State.setChan_ev (s : State) (c : Nat) (x : Chan) : (s.setChan c x).ev = s.ev := by
  unfold State.setChan
  rfl

@[simp] theorem State.setChan_test (s : State) (c : Nat) (x : Chan) : (s.setChan c x).test = s.test := by
  unfold State.setChan
  rfl

@[simp] theorem State.setChan_lanes (s : State) (c : Nat) (x : Chan) : (s.setChan c x).lanes = s.lanes := by
  unfold State.setChan
  rfl

@[simp] theorem State.setChan_ports (s : State) (c : Nat) (x : Chan) : (s.setChan c x).ports = s.ports := by
  unfold State.setChan
  rfl

@[simp] theorem State.setChan_facet (s : State) (c : Nat) (x : Chan) : (s.setChan c x).facet = s.facet := by
  unfold State.setChan
  rfl

@[simp] theorem State.setChan_mill (s : State) (c : Nat) (x : Chan) : (s.setChan c x).mill = s.mill := by
  unfold State.setChan
  rfl

@[simp] theorem State.setChan_clove (s : State) (c : Nat) (x : Chan) : (s.setChan c x).clove = s.clove := by
  unfold State.setChan
  rfl

@[simp] theorem State.setChan_fab (s : State) (c : Nat) (x : Chan) : (s.setChan c x).fab = s.fab := by
  unfold State.setChan
  rfl

@[simp] theorem State.setChan_mem (s : State) (c : Nat) (x : Chan) : (s.setChan c x).mem = s.mem := by
  unfold State.setChan
  rfl

@[simp] theorem State.setChan_pool (s : State) (c : Nat) (x : Chan) : (s.setChan c x).pool = s.pool := by
  unfold State.setChan
  rfl

@[simp] theorem State.setChan_power (s : State) (c : Nat) (x : Chan) : (s.setChan c x).power = s.power := by
  unfold State.setChan
  rfl

@[simp] theorem State.setChan_boot (s : State) (c : Nat) (x : Chan) : (s.setChan c x).boot = s.boot := by
  unfold State.setChan
  rfl

@[simp] theorem State.setChan_proul (s : State) (c : Nat) (x : Chan) : (s.setChan c x).proul = s.proul := by
  unfold State.setChan
  rfl

@[simp] theorem State.setChan_freeCount (s : State) (c : Nat) (x : Chan) : (s.setChan c x).freeCount = s.freeCount := by
  unfold State.setChan
  rfl

@[simp] theorem State.setChan_pending (s : State) (c : Nat) (x : Chan) : (s.setChan c x).pending = s.pending := by
  unfold State.setChan
  rfl


/-! ## setEngine -/

@[simp] theorem State.engine_setEngine_self (s : State) (e : Nat) (x : DmaEngine) : (s.setEngine e x).engine e = x := by
  simp [State.setEngine, State.engine]

@[simp] theorem State.engine_setEngine_ne (s : State) (e : Nat) (x : DmaEngine) {j : Nat} (h : j ≠ e) :
    (s.setEngine e x).engine j = s.engine j := by
  simp [State.setEngine, State.engine, h]

@[simp] theorem State.setEngine_time (s : State) (e : Nat) (x : DmaEngine) : (s.setEngine e x).time = s.time := by
  unfold State.setEngine
  rfl

@[simp] theorem State.setEngine_host (s : State) (e : Nat) (x : DmaEngine) : (s.setEngine e x).host = s.host := by
  unfold State.setEngine
  rfl

@[simp] theorem State.setEngine_cfg (s : State) (e : Nat) (x : DmaEngine) : (s.setEngine e x).cfg = s.cfg := by
  unfold State.setEngine
  rfl

@[simp] theorem State.setEngine_ev (s : State) (e : Nat) (x : DmaEngine) : (s.setEngine e x).ev = s.ev := by
  unfold State.setEngine
  rfl

@[simp] theorem State.setEngine_test (s : State) (e : Nat) (x : DmaEngine) : (s.setEngine e x).test = s.test := by
  unfold State.setEngine
  rfl

@[simp] theorem State.setEngine_lanes (s : State) (e : Nat) (x : DmaEngine) : (s.setEngine e x).lanes = s.lanes := by
  unfold State.setEngine
  rfl

@[simp] theorem State.setEngine_ports (s : State) (e : Nat) (x : DmaEngine) : (s.setEngine e x).ports = s.ports := by
  unfold State.setEngine
  rfl

@[simp] theorem State.setEngine_facet (s : State) (e : Nat) (x : DmaEngine) : (s.setEngine e x).facet = s.facet := by
  unfold State.setEngine
  rfl

@[simp] theorem State.setEngine_mill (s : State) (e : Nat) (x : DmaEngine) : (s.setEngine e x).mill = s.mill := by
  unfold State.setEngine
  rfl

@[simp] theorem State.setEngine_clove (s : State) (e : Nat) (x : DmaEngine) : (s.setEngine e x).clove = s.clove := by
  unfold State.setEngine
  rfl

@[simp] theorem State.setEngine_fab (s : State) (e : Nat) (x : DmaEngine) : (s.setEngine e x).fab = s.fab := by
  unfold State.setEngine
  rfl

@[simp] theorem State.setEngine_mem (s : State) (e : Nat) (x : DmaEngine) : (s.setEngine e x).mem = s.mem := by
  unfold State.setEngine
  rfl

@[simp] theorem State.setEngine_pool (s : State) (e : Nat) (x : DmaEngine) : (s.setEngine e x).pool = s.pool := by
  unfold State.setEngine
  rfl

@[simp] theorem State.setEngine_power (s : State) (e : Nat) (x : DmaEngine) : (s.setEngine e x).power = s.power := by
  unfold State.setEngine
  rfl

@[simp] theorem State.setEngine_boot (s : State) (e : Nat) (x : DmaEngine) : (s.setEngine e x).boot = s.boot := by
  unfold State.setEngine
  rfl

@[simp] theorem State.setEngine_proul (s : State) (e : Nat) (x : DmaEngine) : (s.setEngine e x).proul = s.proul := by
  unfold State.setEngine
  rfl

@[simp] theorem State.setEngine_freeCount (s : State) (e : Nat) (x : DmaEngine) : (s.setEngine e x).freeCount = s.freeCount := by
  unfold State.setEngine
  rfl

@[simp] theorem State.setEngine_pending (s : State) (e : Nat) (x : DmaEngine) : (s.setEngine e x).pending = s.pending := by
  unfold State.setEngine
  rfl


/-! ## setHp -/

@[simp] theorem State.hp_setHp_self (s : State) (h : Nat) (x : HostPort) : (s.setHp h x).hp h = x := by
  rcases h with _ | _ | _ | k <;> rfl

@[simp] theorem State.setHp_time (s : State) (h : Nat) (x : HostPort) : (s.setHp h x).time = s.time := by
  unfold State.setHp
  split <;> rfl

@[simp] theorem State.setHp_cfg (s : State) (h : Nat) (x : HostPort) : (s.setHp h x).cfg = s.cfg := by
  unfold State.setHp
  split <;> rfl

@[simp] theorem State.setHp_ev (s : State) (h : Nat) (x : HostPort) : (s.setHp h x).ev = s.ev := by
  unfold State.setHp
  split <;> rfl

@[simp] theorem State.setHp_test (s : State) (h : Nat) (x : HostPort) : (s.setHp h x).test = s.test := by
  unfold State.setHp
  split <;> rfl

@[simp] theorem State.setHp_lanes (s : State) (h : Nat) (x : HostPort) : (s.setHp h x).lanes = s.lanes := by
  unfold State.setHp
  split <;> rfl

@[simp] theorem State.setHp_ports (s : State) (h : Nat) (x : HostPort) : (s.setHp h x).ports = s.ports := by
  unfold State.setHp
  split <;> rfl

@[simp] theorem State.setHp_facet (s : State) (h : Nat) (x : HostPort) : (s.setHp h x).facet = s.facet := by
  unfold State.setHp
  split <;> rfl

@[simp] theorem State.setHp_mill (s : State) (h : Nat) (x : HostPort) : (s.setHp h x).mill = s.mill := by
  unfold State.setHp
  split <;> rfl

@[simp] theorem State.setHp_clove (s : State) (h : Nat) (x : HostPort) : (s.setHp h x).clove = s.clove := by
  unfold State.setHp
  split <;> rfl

@[simp] theorem State.setHp_fab (s : State) (h : Nat) (x : HostPort) : (s.setHp h x).fab = s.fab := by
  unfold State.setHp
  split <;> rfl

@[simp] theorem State.setHp_mem (s : State) (h : Nat) (x : HostPort) : (s.setHp h x).mem = s.mem := by
  unfold State.setHp
  split <;> rfl

@[simp] theorem State.setHp_dma (s : State) (h : Nat) (x : HostPort) : (s.setHp h x).dma = s.dma := by
  unfold State.setHp
  split <;> rfl

@[simp] theorem State.setHp_pool (s : State) (h : Nat) (x : HostPort) : (s.setHp h x).pool = s.pool := by
  unfold State.setHp
  split <;> rfl

@[simp] theorem State.setHp_power (s : State) (h : Nat) (x : HostPort) : (s.setHp h x).power = s.power := by
  unfold State.setHp
  split <;> rfl

@[simp] theorem State.setHp_boot (s : State) (h : Nat) (x : HostPort) : (s.setHp h x).boot = s.boot := by
  unfold State.setHp
  split <;> rfl

@[simp] theorem State.setHp_proul (s : State) (h : Nat) (x : HostPort) : (s.setHp h x).proul = s.proul := by
  unfold State.setHp
  split <;> rfl

@[simp] theorem State.setHp_freeCount (s : State) (h : Nat) (x : HostPort) : (s.setHp h x).freeCount = s.freeCount := by
  unfold State.setHp
  split <;> rfl

@[simp] theorem State.setHp_pending (s : State) (h : Nat) (x : HostPort) : (s.setHp h x).pending = s.pending := by
  unfold State.setHp
  split <;> rfl


/-! ## setSpi -/

@[simp] theorem State.setSpi_time (s : State) (x : SpiPort) : (s.setSpi x).time = s.time := by
  unfold State.setSpi
  rfl

@[simp] theorem State.setSpi_cfg (s : State) (x : SpiPort) : (s.setSpi x).cfg = s.cfg := by
  unfold State.setSpi
  rfl

@[simp] theorem State.setSpi_ev (s : State) (x : SpiPort) : (s.setSpi x).ev = s.ev := by
  unfold State.setSpi
  rfl

@[simp] theorem State.setSpi_test (s : State) (x : SpiPort) : (s.setSpi x).test = s.test := by
  unfold State.setSpi
  rfl

@[simp] theorem State.setSpi_lanes (s : State) (x : SpiPort) : (s.setSpi x).lanes = s.lanes := by
  unfold State.setSpi
  rfl

@[simp] theorem State.setSpi_ports (s : State) (x : SpiPort) : (s.setSpi x).ports = s.ports := by
  unfold State.setSpi
  rfl

@[simp] theorem State.setSpi_facet (s : State) (x : SpiPort) : (s.setSpi x).facet = s.facet := by
  unfold State.setSpi
  rfl

@[simp] theorem State.setSpi_mill (s : State) (x : SpiPort) : (s.setSpi x).mill = s.mill := by
  unfold State.setSpi
  rfl

@[simp] theorem State.setSpi_clove (s : State) (x : SpiPort) : (s.setSpi x).clove = s.clove := by
  unfold State.setSpi
  rfl

@[simp] theorem State.setSpi_fab (s : State) (x : SpiPort) : (s.setSpi x).fab = s.fab := by
  unfold State.setSpi
  rfl

@[simp] theorem State.setSpi_mem (s : State) (x : SpiPort) : (s.setSpi x).mem = s.mem := by
  unfold State.setSpi
  rfl

@[simp] theorem State.setSpi_dma (s : State) (x : SpiPort) : (s.setSpi x).dma = s.dma := by
  unfold State.setSpi
  rfl

@[simp] theorem State.setSpi_pool (s : State) (x : SpiPort) : (s.setSpi x).pool = s.pool := by
  unfold State.setSpi
  rfl

@[simp] theorem State.setSpi_power (s : State) (x : SpiPort) : (s.setSpi x).power = s.power := by
  unfold State.setSpi
  rfl

@[simp] theorem State.setSpi_boot (s : State) (x : SpiPort) : (s.setSpi x).boot = s.boot := by
  unfold State.setSpi
  rfl

@[simp] theorem State.setSpi_proul (s : State) (x : SpiPort) : (s.setSpi x).proul = s.proul := by
  unfold State.setSpi
  rfl

@[simp] theorem State.setSpi_freeCount (s : State) (x : SpiPort) : (s.setSpi x).freeCount = s.freeCount := by
  unfold State.setSpi
  rfl

@[simp] theorem State.setSpi_pending (s : State) (x : SpiPort) : (s.setSpi x).pending = s.pending := by
  unfold State.setSpi
  rfl


/-! ## setImage -/

@[simp] theorem State.image_setImage_self (s : State) (i : Nat) (x : Image) : (s.setImage i x).image i = x := by
  simp [State.setImage, State.image]

@[simp] theorem State.image_setImage_ne (s : State) (i : Nat) (x : Image) {j : Nat} (h : j ≠ i) :
    (s.setImage i x).image j = s.image j := by
  simp [State.setImage, State.image, h]

@[simp] theorem State.setImage_time (s : State) (i : Nat) (x : Image) : (s.setImage i x).time = s.time := by
  unfold State.setImage
  rfl

@[simp] theorem State.setImage_cfg (s : State) (i : Nat) (x : Image) : (s.setImage i x).cfg = s.cfg := by
  unfold State.setImage
  rfl

@[simp] theorem State.setImage_ev (s : State) (i : Nat) (x : Image) : (s.setImage i x).ev = s.ev := by
  unfold State.setImage
  rfl

@[simp] theorem State.setImage_test (s : State) (i : Nat) (x : Image) : (s.setImage i x).test = s.test := by
  unfold State.setImage
  rfl

@[simp] theorem State.setImage_lanes (s : State) (i : Nat) (x : Image) : (s.setImage i x).lanes = s.lanes := by
  unfold State.setImage
  rfl

@[simp] theorem State.setImage_ports (s : State) (i : Nat) (x : Image) : (s.setImage i x).ports = s.ports := by
  unfold State.setImage
  rfl

@[simp] theorem State.setImage_facet (s : State) (i : Nat) (x : Image) : (s.setImage i x).facet = s.facet := by
  unfold State.setImage
  rfl

@[simp] theorem State.setImage_mill (s : State) (i : Nat) (x : Image) : (s.setImage i x).mill = s.mill := by
  unfold State.setImage
  rfl

@[simp] theorem State.setImage_clove (s : State) (i : Nat) (x : Image) : (s.setImage i x).clove = s.clove := by
  unfold State.setImage
  rfl

@[simp] theorem State.setImage_fab (s : State) (i : Nat) (x : Image) : (s.setImage i x).fab = s.fab := by
  unfold State.setImage
  rfl

@[simp] theorem State.setImage_mem (s : State) (i : Nat) (x : Image) : (s.setImage i x).mem = s.mem := by
  unfold State.setImage
  rfl

@[simp] theorem State.setImage_dma (s : State) (i : Nat) (x : Image) : (s.setImage i x).dma = s.dma := by
  unfold State.setImage
  rfl

@[simp] theorem State.setImage_pool (s : State) (i : Nat) (x : Image) : (s.setImage i x).pool = s.pool := by
  unfold State.setImage
  rfl

@[simp] theorem State.setImage_power (s : State) (i : Nat) (x : Image) : (s.setImage i x).power = s.power := by
  unfold State.setImage
  rfl

@[simp] theorem State.setImage_boot (s : State) (i : Nat) (x : Image) : (s.setImage i x).boot = s.boot := by
  unfold State.setImage
  rfl

@[simp] theorem State.setImage_proul (s : State) (i : Nat) (x : Image) : (s.setImage i x).proul = s.proul := by
  unfold State.setImage
  rfl

@[simp] theorem State.setImage_freeCount (s : State) (i : Nat) (x : Image) : (s.setImage i x).freeCount = s.freeCount := by
  unfold State.setImage
  rfl

@[simp] theorem State.setImage_pending (s : State) (i : Nat) (x : Image) : (s.setImage i x).pending = s.pending := by
  unfold State.setImage
  rfl


/-! ## setPeer -/

@[simp] theorem State.peer_setPeer_self (s : State) (i : Nat) (x : Peer) : (s.setPeer i x).peer i = x := by
  simp [State.setPeer, State.peer]

@[simp] theorem State.peer_setPeer_ne (s : State) (i : Nat) (x : Peer) {j : Nat} (h : j ≠ i) :
    (s.setPeer i x).peer j = s.peer j := by
  simp [State.setPeer, State.peer, h]

@[simp] theorem State.setPeer_time (s : State) (i : Nat) (x : Peer) : (s.setPeer i x).time = s.time := by
  unfold State.setPeer
  rfl

@[simp] theorem State.setPeer_host (s : State) (i : Nat) (x : Peer) : (s.setPeer i x).host = s.host := by
  unfold State.setPeer
  rfl

@[simp] theorem State.setPeer_cfg (s : State) (i : Nat) (x : Peer) : (s.setPeer i x).cfg = s.cfg := by
  unfold State.setPeer
  rfl

@[simp] theorem State.setPeer_ev (s : State) (i : Nat) (x : Peer) : (s.setPeer i x).ev = s.ev := by
  unfold State.setPeer
  rfl

@[simp] theorem State.setPeer_test (s : State) (i : Nat) (x : Peer) : (s.setPeer i x).test = s.test := by
  unfold State.setPeer
  rfl

@[simp] theorem State.setPeer_lanes (s : State) (i : Nat) (x : Peer) : (s.setPeer i x).lanes = s.lanes := by
  unfold State.setPeer
  rfl

@[simp] theorem State.setPeer_ports (s : State) (i : Nat) (x : Peer) : (s.setPeer i x).ports = s.ports := by
  unfold State.setPeer
  rfl

@[simp] theorem State.setPeer_facet (s : State) (i : Nat) (x : Peer) : (s.setPeer i x).facet = s.facet := by
  unfold State.setPeer
  rfl

@[simp] theorem State.setPeer_mill (s : State) (i : Nat) (x : Peer) : (s.setPeer i x).mill = s.mill := by
  unfold State.setPeer
  rfl

@[simp] theorem State.setPeer_clove (s : State) (i : Nat) (x : Peer) : (s.setPeer i x).clove = s.clove := by
  unfold State.setPeer
  rfl

@[simp] theorem State.setPeer_fab (s : State) (i : Nat) (x : Peer) : (s.setPeer i x).fab = s.fab := by
  unfold State.setPeer
  rfl

@[simp] theorem State.setPeer_mem (s : State) (i : Nat) (x : Peer) : (s.setPeer i x).mem = s.mem := by
  unfold State.setPeer
  rfl

@[simp] theorem State.setPeer_dma (s : State) (i : Nat) (x : Peer) : (s.setPeer i x).dma = s.dma := by
  unfold State.setPeer
  rfl

@[simp] theorem State.setPeer_power (s : State) (i : Nat) (x : Peer) : (s.setPeer i x).power = s.power := by
  unfold State.setPeer
  rfl

@[simp] theorem State.setPeer_boot (s : State) (i : Nat) (x : Peer) : (s.setPeer i x).boot = s.boot := by
  unfold State.setPeer
  rfl

@[simp] theorem State.setPeer_proul (s : State) (i : Nat) (x : Peer) : (s.setPeer i x).proul = s.proul := by
  unfold State.setPeer
  rfl

@[simp] theorem State.setPeer_freeCount (s : State) (i : Nat) (x : Peer) : (s.setPeer i x).freeCount = s.freeCount := by
  unfold State.setPeer
  rfl

@[simp] theorem State.setPeer_pending (s : State) (i : Nat) (x : Peer) : (s.setPeer i x).pending = s.pending := by
  unfold State.setPeer
  rfl


/-! ## setPoolLink -/

@[simp] theorem State.poolLink_setPoolLink_self (s : State) (p : Nat) (x : PoolLink) : (s.setPoolLink p x).poolLink p = x := by
  simp [State.setPoolLink, State.poolLink]

@[simp] theorem State.poolLink_setPoolLink_ne (s : State) (p : Nat) (x : PoolLink) {j : Nat} (h : j ≠ p) :
    (s.setPoolLink p x).poolLink j = s.poolLink j := by
  simp [State.setPoolLink, State.poolLink, h]

@[simp] theorem State.setPoolLink_time (s : State) (p : Nat) (x : PoolLink) : (s.setPoolLink p x).time = s.time := by
  unfold State.setPoolLink
  rfl

@[simp] theorem State.setPoolLink_host (s : State) (p : Nat) (x : PoolLink) : (s.setPoolLink p x).host = s.host := by
  unfold State.setPoolLink
  rfl

@[simp] theorem State.setPoolLink_cfg (s : State) (p : Nat) (x : PoolLink) : (s.setPoolLink p x).cfg = s.cfg := by
  unfold State.setPoolLink
  rfl

@[simp] theorem State.setPoolLink_ev (s : State) (p : Nat) (x : PoolLink) : (s.setPoolLink p x).ev = s.ev := by
  unfold State.setPoolLink
  rfl

@[simp] theorem State.setPoolLink_test (s : State) (p : Nat) (x : PoolLink) : (s.setPoolLink p x).test = s.test := by
  unfold State.setPoolLink
  rfl

@[simp] theorem State.setPoolLink_lanes (s : State) (p : Nat) (x : PoolLink) : (s.setPoolLink p x).lanes = s.lanes := by
  unfold State.setPoolLink
  rfl

@[simp] theorem State.setPoolLink_ports (s : State) (p : Nat) (x : PoolLink) : (s.setPoolLink p x).ports = s.ports := by
  unfold State.setPoolLink
  rfl

@[simp] theorem State.setPoolLink_facet (s : State) (p : Nat) (x : PoolLink) : (s.setPoolLink p x).facet = s.facet := by
  unfold State.setPoolLink
  rfl

@[simp] theorem State.setPoolLink_mill (s : State) (p : Nat) (x : PoolLink) : (s.setPoolLink p x).mill = s.mill := by
  unfold State.setPoolLink
  rfl

@[simp] theorem State.setPoolLink_clove (s : State) (p : Nat) (x : PoolLink) : (s.setPoolLink p x).clove = s.clove := by
  unfold State.setPoolLink
  rfl

@[simp] theorem State.setPoolLink_fab (s : State) (p : Nat) (x : PoolLink) : (s.setPoolLink p x).fab = s.fab := by
  unfold State.setPoolLink
  rfl

@[simp] theorem State.setPoolLink_mem (s : State) (p : Nat) (x : PoolLink) : (s.setPoolLink p x).mem = s.mem := by
  unfold State.setPoolLink
  rfl

@[simp] theorem State.setPoolLink_dma (s : State) (p : Nat) (x : PoolLink) : (s.setPoolLink p x).dma = s.dma := by
  unfold State.setPoolLink
  rfl

@[simp] theorem State.setPoolLink_power (s : State) (p : Nat) (x : PoolLink) : (s.setPoolLink p x).power = s.power := by
  unfold State.setPoolLink
  rfl

@[simp] theorem State.setPoolLink_boot (s : State) (p : Nat) (x : PoolLink) : (s.setPoolLink p x).boot = s.boot := by
  unfold State.setPoolLink
  rfl

@[simp] theorem State.setPoolLink_proul (s : State) (p : Nat) (x : PoolLink) : (s.setPoolLink p x).proul = s.proul := by
  unfold State.setPoolLink
  rfl

@[simp] theorem State.setPoolLink_freeCount (s : State) (p : Nat) (x : PoolLink) : (s.setPoolLink p x).freeCount = s.freeCount := by
  unfold State.setPoolLink
  rfl

@[simp] theorem State.setPoolLink_pending (s : State) (p : Nat) (x : PoolLink) : (s.setPoolLink p x).pending = s.pending := by
  unfold State.setPoolLink
  rfl


/-! ## setTilePlan -/

@[simp] theorem State.tilePlan_setTilePlan_self (s : State) (t : Nat) (x : TilePlan) : (s.setTilePlan t x).tilePlan t = x := by
  simp [State.setTilePlan, State.tilePlan]

@[simp] theorem State.tilePlan_setTilePlan_ne (s : State) (t : Nat) (x : TilePlan) {j : Nat} (h : j ≠ t) :
    (s.setTilePlan t x).tilePlan j = s.tilePlan j := by
  simp [State.setTilePlan, State.tilePlan, h]

@[simp] theorem State.setTilePlan_time (s : State) (t : Nat) (x : TilePlan) : (s.setTilePlan t x).time = s.time := by
  unfold State.setTilePlan
  rfl

@[simp] theorem State.setTilePlan_host (s : State) (t : Nat) (x : TilePlan) : (s.setTilePlan t x).host = s.host := by
  unfold State.setTilePlan
  rfl

@[simp] theorem State.setTilePlan_cfg (s : State) (t : Nat) (x : TilePlan) : (s.setTilePlan t x).cfg = s.cfg := by
  unfold State.setTilePlan
  rfl

@[simp] theorem State.setTilePlan_ev (s : State) (t : Nat) (x : TilePlan) : (s.setTilePlan t x).ev = s.ev := by
  unfold State.setTilePlan
  rfl

@[simp] theorem State.setTilePlan_test (s : State) (t : Nat) (x : TilePlan) : (s.setTilePlan t x).test = s.test := by
  unfold State.setTilePlan
  rfl

@[simp] theorem State.setTilePlan_lanes (s : State) (t : Nat) (x : TilePlan) : (s.setTilePlan t x).lanes = s.lanes := by
  unfold State.setTilePlan
  rfl

@[simp] theorem State.setTilePlan_ports (s : State) (t : Nat) (x : TilePlan) : (s.setTilePlan t x).ports = s.ports := by
  unfold State.setTilePlan
  rfl

@[simp] theorem State.setTilePlan_facet (s : State) (t : Nat) (x : TilePlan) : (s.setTilePlan t x).facet = s.facet := by
  unfold State.setTilePlan
  rfl

@[simp] theorem State.setTilePlan_mill (s : State) (t : Nat) (x : TilePlan) : (s.setTilePlan t x).mill = s.mill := by
  unfold State.setTilePlan
  rfl

@[simp] theorem State.setTilePlan_clove (s : State) (t : Nat) (x : TilePlan) : (s.setTilePlan t x).clove = s.clove := by
  unfold State.setTilePlan
  rfl

@[simp] theorem State.setTilePlan_fab (s : State) (t : Nat) (x : TilePlan) : (s.setTilePlan t x).fab = s.fab := by
  unfold State.setTilePlan
  rfl

@[simp] theorem State.setTilePlan_mem (s : State) (t : Nat) (x : TilePlan) : (s.setTilePlan t x).mem = s.mem := by
  unfold State.setTilePlan
  rfl

@[simp] theorem State.setTilePlan_dma (s : State) (t : Nat) (x : TilePlan) : (s.setTilePlan t x).dma = s.dma := by
  unfold State.setTilePlan
  rfl

@[simp] theorem State.setTilePlan_pool (s : State) (t : Nat) (x : TilePlan) : (s.setTilePlan t x).pool = s.pool := by
  unfold State.setTilePlan
  rfl

@[simp] theorem State.setTilePlan_boot (s : State) (t : Nat) (x : TilePlan) : (s.setTilePlan t x).boot = s.boot := by
  unfold State.setTilePlan
  rfl

@[simp] theorem State.setTilePlan_proul (s : State) (t : Nat) (x : TilePlan) : (s.setTilePlan t x).proul = s.proul := by
  unfold State.setTilePlan
  rfl

@[simp] theorem State.setTilePlan_freeCount (s : State) (t : Nat) (x : TilePlan) : (s.setTilePlan t x).freeCount = s.freeCount := by
  unfold State.setTilePlan
  rfl

@[simp] theorem State.setTilePlan_pending (s : State) (t : Nat) (x : TilePlan) : (s.setTilePlan t x).pending = s.pending := by
  unfold State.setTilePlan
  rfl


/-! ## setStretch -/

@[simp] theorem State.stretch_setStretch_self (s : State) (t : Nat) (x : Stretch) : (s.setStretch t x).stretch t = x := by
  simp [State.setStretch, State.stretch]

@[simp] theorem State.stretch_setStretch_ne (s : State) (t : Nat) (x : Stretch) {j : Nat} (h : j ≠ t) :
    (s.setStretch t x).stretch j = s.stretch j := by
  simp [State.setStretch, State.stretch, h]

@[simp] theorem State.setStretch_time (s : State) (t : Nat) (x : Stretch) : (s.setStretch t x).time = s.time := by
  unfold State.setStretch
  rfl

@[simp] theorem State.setStretch_host (s : State) (t : Nat) (x : Stretch) : (s.setStretch t x).host = s.host := by
  unfold State.setStretch
  rfl

@[simp] theorem State.setStretch_cfg (s : State) (t : Nat) (x : Stretch) : (s.setStretch t x).cfg = s.cfg := by
  unfold State.setStretch
  rfl

@[simp] theorem State.setStretch_ev (s : State) (t : Nat) (x : Stretch) : (s.setStretch t x).ev = s.ev := by
  unfold State.setStretch
  rfl

@[simp] theorem State.setStretch_test (s : State) (t : Nat) (x : Stretch) : (s.setStretch t x).test = s.test := by
  unfold State.setStretch
  rfl

@[simp] theorem State.setStretch_lanes (s : State) (t : Nat) (x : Stretch) : (s.setStretch t x).lanes = s.lanes := by
  unfold State.setStretch
  rfl

@[simp] theorem State.setStretch_ports (s : State) (t : Nat) (x : Stretch) : (s.setStretch t x).ports = s.ports := by
  unfold State.setStretch
  rfl

@[simp] theorem State.setStretch_facet (s : State) (t : Nat) (x : Stretch) : (s.setStretch t x).facet = s.facet := by
  unfold State.setStretch
  rfl

@[simp] theorem State.setStretch_mill (s : State) (t : Nat) (x : Stretch) : (s.setStretch t x).mill = s.mill := by
  unfold State.setStretch
  rfl

@[simp] theorem State.setStretch_clove (s : State) (t : Nat) (x : Stretch) : (s.setStretch t x).clove = s.clove := by
  unfold State.setStretch
  rfl

@[simp] theorem State.setStretch_fab (s : State) (t : Nat) (x : Stretch) : (s.setStretch t x).fab = s.fab := by
  unfold State.setStretch
  rfl

@[simp] theorem State.setStretch_mem (s : State) (t : Nat) (x : Stretch) : (s.setStretch t x).mem = s.mem := by
  unfold State.setStretch
  rfl

@[simp] theorem State.setStretch_dma (s : State) (t : Nat) (x : Stretch) : (s.setStretch t x).dma = s.dma := by
  unfold State.setStretch
  rfl

@[simp] theorem State.setStretch_pool (s : State) (t : Nat) (x : Stretch) : (s.setStretch t x).pool = s.pool := by
  unfold State.setStretch
  rfl

@[simp] theorem State.setStretch_boot (s : State) (t : Nat) (x : Stretch) : (s.setStretch t x).boot = s.boot := by
  unfold State.setStretch
  rfl

@[simp] theorem State.setStretch_proul (s : State) (t : Nat) (x : Stretch) : (s.setStretch t x).proul = s.proul := by
  unfold State.setStretch
  rfl

@[simp] theorem State.setStretch_freeCount (s : State) (t : Nat) (x : Stretch) : (s.setStretch t x).freeCount = s.freeCount := by
  unfold State.setStretch
  rfl

@[simp] theorem State.setStretch_pending (s : State) (t : Nat) (x : Stretch) : (s.setStretch t x).pending = s.pending := by
  unfold State.setStretch
  rfl


/-! ## setProul -/

@[simp] theorem State.setProul_time (s : State) (x : ProulSt) : (s.setProul x).time = s.time := by
  unfold State.setProul
  rfl

@[simp] theorem State.setProul_host (s : State) (x : ProulSt) : (s.setProul x).host = s.host := by
  unfold State.setProul
  rfl

@[simp] theorem State.setProul_cfg (s : State) (x : ProulSt) : (s.setProul x).cfg = s.cfg := by
  unfold State.setProul
  rfl

@[simp] theorem State.setProul_ev (s : State) (x : ProulSt) : (s.setProul x).ev = s.ev := by
  unfold State.setProul
  rfl

@[simp] theorem State.setProul_test (s : State) (x : ProulSt) : (s.setProul x).test = s.test := by
  unfold State.setProul
  rfl

@[simp] theorem State.setProul_lanes (s : State) (x : ProulSt) : (s.setProul x).lanes = s.lanes := by
  unfold State.setProul
  rfl

@[simp] theorem State.setProul_ports (s : State) (x : ProulSt) : (s.setProul x).ports = s.ports := by
  unfold State.setProul
  rfl

@[simp] theorem State.setProul_facet (s : State) (x : ProulSt) : (s.setProul x).facet = s.facet := by
  unfold State.setProul
  rfl

@[simp] theorem State.setProul_mill (s : State) (x : ProulSt) : (s.setProul x).mill = s.mill := by
  unfold State.setProul
  rfl

@[simp] theorem State.setProul_clove (s : State) (x : ProulSt) : (s.setProul x).clove = s.clove := by
  unfold State.setProul
  rfl

@[simp] theorem State.setProul_fab (s : State) (x : ProulSt) : (s.setProul x).fab = s.fab := by
  unfold State.setProul
  rfl

@[simp] theorem State.setProul_mem (s : State) (x : ProulSt) : (s.setProul x).mem = s.mem := by
  unfold State.setProul
  rfl

@[simp] theorem State.setProul_dma (s : State) (x : ProulSt) : (s.setProul x).dma = s.dma := by
  unfold State.setProul
  rfl

@[simp] theorem State.setProul_pool (s : State) (x : ProulSt) : (s.setProul x).pool = s.pool := by
  unfold State.setProul
  rfl

@[simp] theorem State.setProul_power (s : State) (x : ProulSt) : (s.setProul x).power = s.power := by
  unfold State.setProul
  rfl

@[simp] theorem State.setProul_boot (s : State) (x : ProulSt) : (s.setProul x).boot = s.boot := by
  unfold State.setProul
  rfl

@[simp] theorem State.setProul_freeCount (s : State) (x : ProulSt) : (s.setProul x).freeCount = s.freeCount := by
  unfold State.setProul
  rfl

@[simp] theorem State.setProul_pending (s : State) (x : ProulSt) : (s.setProul x).pending = s.pending := by
  unfold State.setProul
  rfl


/-! ## setTest -/

@[simp] theorem State.unitTest_setTest_self (s : State) (k : Nat) (u : UnitTest) : (s.setTest k u).unitTest k = u := by
  simp [State.setTest, State.unitTest]

@[simp] theorem State.unitTest_setTest_ne (s : State) (k : Nat) (u : UnitTest) {j : Nat} (h : j ≠ k) :
    (s.setTest k u).unitTest j = s.unitTest j := by
  simp [State.setTest, State.unitTest, h]

@[simp] theorem State.setTest_time (s : State) (k : Nat) (u : UnitTest) : (s.setTest k u).time = s.time := by
  unfold State.setTest
  rfl

@[simp] theorem State.setTest_host (s : State) (k : Nat) (u : UnitTest) : (s.setTest k u).host = s.host := by
  unfold State.setTest
  rfl

@[simp] theorem State.setTest_cfg (s : State) (k : Nat) (u : UnitTest) : (s.setTest k u).cfg = s.cfg := by
  unfold State.setTest
  rfl

@[simp] theorem State.setTest_ev (s : State) (k : Nat) (u : UnitTest) : (s.setTest k u).ev = s.ev := by
  unfold State.setTest
  rfl

@[simp] theorem State.setTest_lanes (s : State) (k : Nat) (u : UnitTest) : (s.setTest k u).lanes = s.lanes := by
  unfold State.setTest
  rfl

@[simp] theorem State.setTest_ports (s : State) (k : Nat) (u : UnitTest) : (s.setTest k u).ports = s.ports := by
  unfold State.setTest
  rfl

@[simp] theorem State.setTest_facet (s : State) (k : Nat) (u : UnitTest) : (s.setTest k u).facet = s.facet := by
  unfold State.setTest
  rfl

@[simp] theorem State.setTest_mill (s : State) (k : Nat) (u : UnitTest) : (s.setTest k u).mill = s.mill := by
  unfold State.setTest
  rfl

@[simp] theorem State.setTest_clove (s : State) (k : Nat) (u : UnitTest) : (s.setTest k u).clove = s.clove := by
  unfold State.setTest
  rfl

@[simp] theorem State.setTest_fab (s : State) (k : Nat) (u : UnitTest) : (s.setTest k u).fab = s.fab := by
  unfold State.setTest
  rfl

@[simp] theorem State.setTest_mem (s : State) (k : Nat) (u : UnitTest) : (s.setTest k u).mem = s.mem := by
  unfold State.setTest
  rfl

@[simp] theorem State.setTest_dma (s : State) (k : Nat) (u : UnitTest) : (s.setTest k u).dma = s.dma := by
  unfold State.setTest
  rfl

@[simp] theorem State.setTest_pool (s : State) (k : Nat) (u : UnitTest) : (s.setTest k u).pool = s.pool := by
  unfold State.setTest
  rfl

@[simp] theorem State.setTest_power (s : State) (k : Nat) (u : UnitTest) : (s.setTest k u).power = s.power := by
  unfold State.setTest
  rfl

@[simp] theorem State.setTest_boot (s : State) (k : Nat) (u : UnitTest) : (s.setTest k u).boot = s.boot := by
  unfold State.setTest
  rfl

@[simp] theorem State.setTest_proul (s : State) (k : Nat) (u : UnitTest) : (s.setTest k u).proul = s.proul := by
  unfold State.setTest
  rfl

@[simp] theorem State.setTest_freeCount (s : State) (k : Nat) (u : UnitTest) : (s.setTest k u).freeCount = s.freeCount := by
  unfold State.setTest
  rfl

@[simp] theorem State.setTest_pending (s : State) (k : Nat) (u : UnitTest) : (s.setTest k u).pending = s.pending := by
  unfold State.setTest
  rfl


/-! ## Raising an event -/

@[simp] theorem offer_time (s : State) (e : EventRec) : (offer s e).time = s.time := by
  unfold offer
  split <;> rfl

@[simp] theorem raise_time (s : State) (c i n : Nat) (b : List Byte) : (raise s c i n b).time = s.time := offer_time _ _

@[simp] theorem offer_host (s : State) (e : EventRec) : (offer s e).host = s.host := by
  unfold offer
  split <;> rfl

@[simp] theorem raise_host (s : State) (c i n : Nat) (b : List Byte) : (raise s c i n b).host = s.host := offer_host _ _

@[simp] theorem offer_cfg (s : State) (e : EventRec) : (offer s e).cfg = s.cfg := by
  unfold offer
  split <;> rfl

@[simp] theorem raise_cfg (s : State) (c i n : Nat) (b : List Byte) : (raise s c i n b).cfg = s.cfg := offer_cfg _ _

@[simp] theorem offer_test (s : State) (e : EventRec) : (offer s e).test = s.test := by
  unfold offer
  split <;> rfl

@[simp] theorem raise_test (s : State) (c i n : Nat) (b : List Byte) : (raise s c i n b).test = s.test := offer_test _ _

@[simp] theorem offer_lanes (s : State) (e : EventRec) : (offer s e).lanes = s.lanes := by
  unfold offer
  split <;> rfl

@[simp] theorem raise_lanes (s : State) (c i n : Nat) (b : List Byte) : (raise s c i n b).lanes = s.lanes := offer_lanes _ _

@[simp] theorem offer_ports (s : State) (e : EventRec) : (offer s e).ports = s.ports := by
  unfold offer
  split <;> rfl

@[simp] theorem raise_ports (s : State) (c i n : Nat) (b : List Byte) : (raise s c i n b).ports = s.ports := offer_ports _ _

@[simp] theorem offer_facet (s : State) (e : EventRec) : (offer s e).facet = s.facet := by
  unfold offer
  split <;> rfl

@[simp] theorem raise_facet (s : State) (c i n : Nat) (b : List Byte) : (raise s c i n b).facet = s.facet := offer_facet _ _

@[simp] theorem offer_mill (s : State) (e : EventRec) : (offer s e).mill = s.mill := by
  unfold offer
  split <;> rfl

@[simp] theorem raise_mill (s : State) (c i n : Nat) (b : List Byte) : (raise s c i n b).mill = s.mill := offer_mill _ _

@[simp] theorem offer_clove (s : State) (e : EventRec) : (offer s e).clove = s.clove := by
  unfold offer
  split <;> rfl

@[simp] theorem raise_clove (s : State) (c i n : Nat) (b : List Byte) : (raise s c i n b).clove = s.clove := offer_clove _ _

@[simp] theorem offer_fab (s : State) (e : EventRec) : (offer s e).fab = s.fab := by
  unfold offer
  split <;> rfl

@[simp] theorem raise_fab (s : State) (c i n : Nat) (b : List Byte) : (raise s c i n b).fab = s.fab := offer_fab _ _

@[simp] theorem offer_mem (s : State) (e : EventRec) : (offer s e).mem = s.mem := by
  unfold offer
  split <;> rfl

@[simp] theorem raise_mem (s : State) (c i n : Nat) (b : List Byte) : (raise s c i n b).mem = s.mem := offer_mem _ _

@[simp] theorem offer_dma (s : State) (e : EventRec) : (offer s e).dma = s.dma := by
  unfold offer
  split <;> rfl

@[simp] theorem raise_dma (s : State) (c i n : Nat) (b : List Byte) : (raise s c i n b).dma = s.dma := offer_dma _ _

@[simp] theorem offer_pool (s : State) (e : EventRec) : (offer s e).pool = s.pool := by
  unfold offer
  split <;> rfl

@[simp] theorem raise_pool (s : State) (c i n : Nat) (b : List Byte) : (raise s c i n b).pool = s.pool := offer_pool _ _

@[simp] theorem offer_power (s : State) (e : EventRec) : (offer s e).power = s.power := by
  unfold offer
  split <;> rfl

@[simp] theorem raise_power (s : State) (c i n : Nat) (b : List Byte) : (raise s c i n b).power = s.power := offer_power _ _

@[simp] theorem offer_boot (s : State) (e : EventRec) : (offer s e).boot = s.boot := by
  unfold offer
  split <;> rfl

@[simp] theorem raise_boot (s : State) (c i n : Nat) (b : List Byte) : (raise s c i n b).boot = s.boot := offer_boot _ _

@[simp] theorem offer_proul (s : State) (e : EventRec) : (offer s e).proul = s.proul := by
  unfold offer
  split <;> rfl

@[simp] theorem raise_proul (s : State) (c i n : Nat) (b : List Byte) : (raise s c i n b).proul = s.proul := offer_proul _ _

@[simp] theorem offer_freeCount (s : State) (e : EventRec) : (offer s e).freeCount = s.freeCount := by
  unfold offer
  split <;> rfl

@[simp] theorem raise_freeCount (s : State) (c i n : Nat) (b : List Byte) : (raise s c i n b).freeCount = s.freeCount := offer_freeCount _ _

@[simp] theorem offer_pending (s : State) (e : EventRec) : (offer s e).pending = s.pending := by
  unfold offer
  split <;> rfl

@[simp] theorem raise_pending (s : State) (c i n : Nat) (b : List Byte) : (raise s c i n b).pending = s.pending := offer_pending _ _

@[simp] theorem raise_dom (s : State) (c i n : Nat) (b : List Byte) (k : Nat) : (raise s c i n b).dom k = s.dom k := by
  simp [State.dom]

@[simp] theorem raise_ppsOut (s : State) (c i n : Nat) (b : List Byte) (k : Nat) : (raise s c i n b).ppsOut k = s.ppsOut k := by
  simp [State.ppsOut]

@[simp] theorem raise_tod (s : State) (c i n : Nat) (b : List Byte) (k : Nat) : (raise s c i n b).tod k = s.tod k := by
  simp [State.tod]

@[simp] theorem raise_comp (s : State) (c i n : Nat) (b : List Byte) (k : Nat) : (raise s c i n b).comp k = s.comp k := by
  simp [State.comp]

@[simp] theorem raise_lane (s : State) (c i n : Nat) (b : List Byte) (k : Nat) : (raise s c i n b).lane k = s.lane k := by
  simp [State.lane]

@[simp] theorem raise_port (s : State) (c i n : Nat) (b : List Byte) (k : Nat) : (raise s c i n b).port k = s.port k := by
  simp [State.port]

@[simp] theorem raise_cfh (s : State) (c i n : Nat) (b : List Byte) (k : Nat) : (raise s c i n b).cfh k = s.cfh k := by
  simp [State.cfh]

@[simp] theorem raise_core (s : State) (c i n : Nat) (b : List Byte) (k : Nat) : (raise s c i n b).core k = s.core k := by
  simp [State.core]

@[simp] theorem raise_cluster (s : State) (c i n : Nat) (b : List Byte) (k : Nat) : (raise s c i n b).cluster k = s.cluster k := by
  simp [State.cluster]

@[simp] theorem raise_slc (s : State) (c i n : Nat) (b : List Byte) (k : Nat) : (raise s c i n b).slc k = s.slc k := by
  simp [State.slc]

@[simp] theorem raise_ni (s : State) (c i n : Nat) (b : List Byte) (k : Nat) : (raise s c i n b).ni k = s.ni k := by
  simp [State.ni]

@[simp] theorem raise_bank (s : State) (c i n : Nat) (b : List Byte) (k : Nat) : (raise s c i n b).bank k = s.bank k := by
  simp [State.bank]

@[simp] theorem raise_region (s : State) (c i n : Nat) (b : List Byte) (k : Nat) : (raise s c i n b).region k = s.region k := by
  simp [State.region]

@[simp] theorem raise_chan (s : State) (c i n : Nat) (b : List Byte) (k : Nat) : (raise s c i n b).chan k = s.chan k := by
  simp [State.chan]

@[simp] theorem raise_engine (s : State) (c i n : Nat) (b : List Byte) (k : Nat) : (raise s c i n b).engine k = s.engine k := by
  simp [State.engine]

@[simp] theorem raise_hp (s : State) (c i n : Nat) (b : List Byte) (k : Nat) : (raise s c i n b).hp k = s.hp k := by
  simp [State.hp]

@[simp] theorem raise_image (s : State) (c i n : Nat) (b : List Byte) (k : Nat) : (raise s c i n b).image k = s.image k := by
  simp [State.image]

@[simp] theorem raise_peer (s : State) (c i n : Nat) (b : List Byte) (k : Nat) : (raise s c i n b).peer k = s.peer k := by
  simp [State.peer]

@[simp] theorem raise_poolLink (s : State) (c i n : Nat) (b : List Byte) (k : Nat) : (raise s c i n b).poolLink k = s.poolLink k := by
  simp [State.poolLink]

@[simp] theorem raise_tilePlan (s : State) (c i n : Nat) (b : List Byte) (k : Nat) : (raise s c i n b).tilePlan k = s.tilePlan k := by
  simp [State.tilePlan]

@[simp] theorem raise_stretch (s : State) (c i n : Nat) (b : List Byte) (k : Nat) : (raise s c i n b).stretch k = s.stretch k := by
  simp [State.stretch]

@[simp] theorem raise_unitTest (s : State) (c i n : Nat) (b : List Byte) (k : Nat) : (raise s c i n b).unitTest k = s.unitTest k := by
  simp [State.unitTest]

/-- With room in the input queue an event joins it, and nothing else of the arbiter changes. -/
theorem offer_room (s : State) (e : EventRec) (h : s.ev.queue.length < 256) :
    offer s e = { s with ev := { s.ev with queue := s.ev.queue ++ [e] } } := by
  simp [offer, h]

end Sys2Proof.Machine
end

