-- ==== Sys2Proof/Machine/PageCode.lean ====
section
/-! DEFINITION. The page code (R388, R389): the binary BCH code over GF(2^15) and the check block of a page.  No
command shows a check block (R391); the functions say what the engine's encoder writes. -/

namespace Sys2Proof.Machine

/-- The product with α in GF(2^15), field polynomial x^15 + x + 1 (R388). -/
def gfDouble (a : Nat) : Nat := if 2 ^ 14 ≤ a then (a * 2 % 2 ^ 15) ^^^ 3 else a * 2

/-- The product in GF(2^15). -/
def gfMul (a b : Nat) : Nat :=
  ((List.range 15).foldl (fun st i => (if bit b i then st.1 ^^^ st.2 else st.1, gfDouble st.2)) (0, a)).1

/-- The power α^n. -/
def gfAlpha (n : Nat) : Nat := (List.range n).foldl (fun a _ => gfDouble a) 1

/-- The n-th conjugate of a field element: n squarings. -/
def gfConj (a n : Nat) : Nat := (List.range n).foldl (fun x _ => gfMul x x) a

/-- A polynomial over GF(2^15), lowest coefficient first, times (x + a). -/
def polyTimesRoot (p : List Nat) (a : Nat) : List Nat :=
  List.zipWith (· ^^^ ·) (0 :: p) (p.map (gfMul a) ++ [0])

/-- The minimal polynomial of α^i over GF(2), as bits of a number (R388). -/
def minPoly (i : Nat) : Nat :=
  let p := (List.range 15).foldl (fun q n => polyTimesRoot q (gfConj (gfAlpha i) n)) [1]
  p.foldr (fun c acc => acc * 2 + c % 2) 0

/-- The product of two polynomials over GF(2) as bits of numbers; `n` bounds the degree of the second. -/
def gf2Mul (a b n : Nat) : Nat :=
  (List.range (n + 1)).foldl (fun acc i => if bit b i then acc ^^^ (a * 2 ^ i) else acc) 0

/-- The generator of the code of strength t, of degree 15 t (R388). -/
def pageGenerator (t : Nat) : Nat := (List.range t).foldl (fun g i => gf2Mul g (minPoly (2 * i + 1)) 15) 1

/-- One message bit, highest degree first, through the encoder of a generator of degree n. -/
def encodeBit (g n r : Nat) (b : Bool) : Nat :=
  let fb := bit r (n - 1) != b
  let sh := r * 2 % 2 ^ n
  if fb then sh ^^^ (g % 2 ^ n) else sh

/-- The parity of a page: x^(15 t) m(x) mod g(x), with the data from x^32 up and the poison mask below (R388). -/
def pageParity (t : Nat) (data : List Byte) (mask : Nat) : Nat :=
  let bits := (List.range 32).map (fun i => bit mask i) ++
    data.flatMap fun b => (List.range 8).map fun i => b.getLsbD i
  bits.reverse.foldl (encodeBit (pageGenerator t) (15 * t)) 0

/-- The 64-byte check block of a page (R389). -/
def checkBlock (t : Nat) (data : List Byte) (mask : Nat) : List Byte :=
  leBytes 60 (pageParity t data mask) ++ leBytes 4 mask

/-- Memory-controller cycles that a decode adds to a page read (R390). -/
def decodeCycles (t : Nat) (clean : Bool) : Nat := if clean then 8 else 168 + 40 * t

end Sys2Proof.Machine
end

