-- ==== Sys2Proof/Tests/Slice0.lean ====
section
/-! SUPPORT. Smoke tests of WellFormed, small tests of single steps, and for every statement with premises a state and operands that
meet the premises of each of its clauses. -/

set_option maxRecDepth 100000
set_option linter.unusedVariables false
set_option linter.unusedSimpArgs false

namespace Sys2Proof.Tests

open Sys2Proof.Machine Sys2Proof.Claims

/-- A device in RUN with every power domain on. -/
def s1 : State := { boot := { devState := 1 }, power := { on := List.range 96 } }

/-- A packet of host port 0 with only these fields set. -/
def q (op : Nat) (inst : Nat := 0) : Req :=
  { port := 0, opcode := op, tag := 7, seq := 1, quiet := false, scope := 0, inst := inst }

/-- `s1` at Air Time `t`. -/
def at1 (t : Nat) : State := { s1 with time := { s1.time with air := t * 2 ^ 32 } }

/-- A domain `ns` nanoseconds after the epoch. -/
def domAt (ns : Nat) : Domain := { count := ns * 2 ^ 32 }

/-- A ToD message whose checksum is right. -/
def todBytes : List Byte :=
  let b : List Byte := 0xC5 :: List.replicate 14 0
  b ++ [BitVec.ofNat 8 (crc8 b)]

/-- `s` with these parameter values in force. -/
def pars (s : State) (l : List (Nat × Nat × Nat)) : State := l.foldl (fun s e => s.setParam e.1 e.2.1 e.2.2) s

/-- Carrier 0 is active on port 0 with one uplink eAxC and two buffers in each staging area, long after the epoch. -/
def carr : State :=
  pars (at1 (10 ^ 12)) [(0x0607, 0, 0), (0x1001, 0, 1), (0x061C, 0, 0), (0x0618, 0, 2), (0x0618, 1, 2), (0x0618, 2, 2)]

/-- A frame of 64 bytes to the PTP multicast address with this EtherType and a right frame check sequence. -/
def frame (ty : List Byte) : List Byte :=
  let b : List Byte := [0x01, 0x1B, 0x19, 0, 0, 0, 0, 0, 0, 0, 0, 0] ++ ty ++ List.replicate 46 0
  b ++ leBytes 4 (crc32 b)

/-- Port 0 in mode 5 with role 3 and link 0 up. -/
def linked : State := (pars s1 [(0x0501, 0, 5), (0x0502, 0, 3)]).setLink 0 0 { up := true }

/-- A descriptor for core 0 of its slice, of no carrier, with these bytes set. -/
def desc (l : List (Nat × Byte)) : List Byte :=
  (List.range 64).map fun i =>
    mapGet l i (if i = 32 ∨ i = 33 then 255 else if i = 34 ∨ i = 36 then 1 else 0)

/-- An item of class 6 in the ready set. -/
def ready (l : List (Nat × Byte)) : Item := { desc := desc l, place := 3, cls := 6 }

/-- Slice 0 holds this item alone, and core 0 waits for work. -/
def holds (q : Nat) (it : Item) : State :=
  { s1 with mill := { slices := [(0, { items := [(q, it)] })] }, facet := { cores := [(0, { waiting := true })] } }

/-- A packet of the maintenance SPI port, which has the owner's role. -/
def p4 (inst : Nat := 0) (scope : Nat := 0) : Req :=
  { port := 4, opcode := 0, tag := 7, seq := 1, quiet := false, scope := scope, inst := inst }

/-- Bytes by position, the others zero. -/
def sparse (n : Nat) (l : List (Nat × Byte)) : List Byte := (List.range n).map fun i => mapGet l i 0

/-- A request of 8 bytes from cluster 0 to core 0's data memory. -/
def toCore (cmd : Nat) : FabMsg := { cmd := cmd, vc := 0, src := 256, dst := 256, addr := 0x20000000000, len := 8, data := List.replicate 8 1 }

/-- A read of 8 bytes at the bottom of the first region. -/
def toDram : FabMsg := { cmd := 1, vc := 0, src := 256, dst := 256, addr := 0x10000000, len := 8 }

/-- `s1` with region 0 of 16 MiB at its place, in a mode. -/
def mem1 (mode : Nat) (waits : List FabMsg) : State :=
  { s1 with mem := { regions := [(0, { st := 2, mode := mode, base := 0x10000000, size := 0x1000000, slotA := 1 })],
                     waits := waits.map fun m => { req := m } } }

/-- `s1` with DMA channel 0 as given. -/
def dma1 (c : Chan) : State := { s1 with dma := { chans := [(0, c)] } }

/-- A channel that runs at the bottom of core 0's data memory. -/
def run0 : Chan := { st := 1, pc := 0x20000000000 }

/-- The request of a master that waits for its response. -/
def waits1 (chan cmd : Nat) : Outstanding :=
  { node := 256, tag := 0, gen := 0, chan := chan, cmd := cmd, addr := 0x20000000000, len := 8, at_ := 0, seq := 0 }

/-- `s1` with host port 0 as given. -/
def hp0 (h : HostPort) : State := { s1 with host := { port0 := h } }

/-- Host port 0 is up with the owner's role and a ring of 16 entries. -/
def up0 : HostPort := { linkUp := true, role := 1, replySize := 16 }

/-- A DEV_STATUS packet with its check. -/
def statusPacket : List Byte :=
  let b := sparse 16 [(0, 2), (2, 7), (12, 1)]
  b ++ leBytes 4 (crc32c b)

/-- Core 0 takes interrupts, and one is pending. -/
def coreIrq : State := { s1 with facet := { cores := [(0, { cycle := 9, regs := { ctl := [(0x08, 31), (0x0B, 1)] } })] } }

theorem other_chan (x : Chan) {j : Nat} (h : j ≠ 0) : ((dma1 x).chan j).wait = none := by
  simp [State.chan, dma1, mapGet, mapGet?, h, Ne.symm h]

theorem no_move (x : Chan) (h : x.move = none) (j : Nat) : ((dma1 x).chan j).move = none := by
  by_cases e : j = 0
  · subst e; exact h
  · simp [State.chan, dma1, mapGet, mapGet?, e, Ne.symm e]

/-- A job record with these fields: input, result and output lie in core 0's data memory. -/
def jobRec (l : List (Nat × Byte)) : List Byte :=
  let at_ := fun i => mapGet l i (mapGet [(9, 4), (13, 2), (17, 1), (21, 2), (25, 8), (29, 2)] i 0)
  (List.range 64).map at_

/-- Slice 0 has delivered an item to Clove unit `u`; its record stands at the bottom of core 0's data memory. -/
def jobAt (u : Nat) (r : List Byte) : State :=
  { s1 with
    facet := { cores := [(0, { dmem := bytesWrite 0 [] 0 r })] }
    mill := { slices := [(0, { items := [(3, { desc := desc [(5, 2)], place := 4, cls := 6, unit := 1024 + u })] })]
              deliveries := [(1024 + u, desc [(5, 2)])] } }

/-- `s1` with these four units of parameters 1101 to 1103: member 0 of a pool of two. -/
def pooled : State := pars s1 [(0x1101, 0, 0), (0x1102, 0, 2)]

/-- An image of one bundle of zeros with a header that passes the check of its codes. -/
def codeImage : List Byte :=
  let h : List Byte := leBytes 4 0x46504B49 ++ leBytes 2 1 ++ leBytes 2 0 ++ leBytes 4 16 ++ leBytes 4 (crc32c (List.replicate 16 0)) ++ List.replicate 44 0
  h ++ leBytes 4 (crc32c h) ++ List.replicate 16 0

/-- A packet of host port 0 with a scope. -/
def qs (inst : Nat) (scope : Nat) : Req := { q 0 inst with scope := scope }

/-- Member 0 of a pool of two, with port 0 a POOL port and the key of slot 0 loaded. -/
def member : State :=
  { pars pooled [(0x0502, 0, 2)] with pool := { slot0 := { epoch := some 0 }, frames := true } }

/-- A pool frame of a type from member 1 to member 0, with an empty body. -/
def poolFrame (ty : Byte) : List Byte := sparse 60 [(18, 16), (19, ty), (20, 1), (22, 1)]

/-- A commit of one parameter for core 0, between its arming and its reply. -/
def commit0 : Commit := { req := q 0x0104, t := 0, set := [(0x03060000, 1)], units := [0x0500] }

/-- `s1` with a commit in progress. -/
def committing (k : Commit) : State := { s1 with cfg := { commit := some k } }

/-- `s1` with the debug port unlocked. -/
def unlk : State := { s1 with proul := { unlocked := true } }

/-- The same with core 0 halted. -/
def halted0 : State := { unlk with facet := { cores := [(0, { dbg := { halted := true } })] } }

/-- `carr` within the transmission windows of symbol 280, the first of frame 1. -/
def carr2 : State := { carr with time := (at1 19360800).time }

theorem mapGet?_mem (m : SMap Chan) {j : Nat} {x : Chan} (h : mapGet? m j = some x) : (j, x) ∈ m := by
  induction m with
  | nil => cases h
  | cons e t ih =>
    rw [mapGet?] at h
    split at h
    · next he => cases h; subst he; exact List.mem_cons_self
    · exact List.mem_cons_of_mem _ (ih h)

/-- The other channels of an engine are quiet where no listed channel but this one holds a move. -/
theorem quiet_engine {s : State} {c : Nat} (hw : (s.engine (chanEngine c)).writeQ = [])
    (hm : ∀ e ∈ s.dma.chans, e.1 = c ∨ e.2.move = none) : QuietEngine s c := by
  refine ⟨hw, fun k _ hk => ?_⟩
  unfold State.chan mapGet
  cases h : mapGet? s.dma.chans k with
  | none => rfl
  | some x => exact (hm _ (mapGet?_mem _ h)).resolve_left hk

/-! ## Ill-formed commands are refused by `Instr.wf` -/

/-- A read of 8 bytes that is well formed. -/
def read8 : FabMsg := { cmd := 1, vc := 0, src := 256, dst := 256, addr := 0x20000000000, len := 8 }

/-- An owner port that does nothing and a bank without errors. -/
def still : BankEcc := { corrected := [], bad := [], owner := [] }

theorem test_wf_read : Instr.wf (.read read8 still) = true := by decide

theorem test_wf_req : Instr.wf (.devInfo (q 1) []) = true := by decide

theorem test_ill_req : ∀ rq ∈ [{ q 1 with port := 5 }, q 65536, { q 1 with tag := 65536 }, { q 1 with seq := 2 ^ 32 },
    { q 1 with scope := 256 }, q 1 (2 ^ 32)], Instr.wf (.devInfo rq []) = false := by decide

theorem test_ill_payload : Instr.wf (.devInfo (q 1) (List.replicate 4077 0)) = false := by decide

theorem test_ill_packet : ∀ m ∈ [{ read8 with cmd := 16 }, { read8 with vc := 4 }, { read8 with src := 1024 },
    { read8 with dst := 1024 }, { read8 with addr := 2 ^ 64 }, { read8 with len := 257 }, { read8 with tag := 256 },
    { read8 with gen := 4 }, { read8 with status := 16 }, { read8 with data := List.replicate 9 0 },
    { read8 with operand := 2 ^ 64 }, { read8 with chan := 65536 }], Instr.wf (.read m still) = false := by decide

theorem test_ill_bank : ∀ e ∈ [{ still with bad := [131072] }, { still with corrected := [131072] }, { still with owner := [1048576] }],
    Instr.wf (.read read8 e) = false := by decide

theorem test_ill_register : ∀ w ∈ [RegWrite.bar0 0 4 true 0, .bar0 0 2 false 0, .bar0 0 0 false (2 ^ 32), .slot 0 262143 [1, 2]],
    Instr.wf (.registerWrite w) = false := by decide

theorem test_ill_lengths : ∀ i ∈ [Instr.enqueue 0 256 [], .event 0 0 0 0 (List.replicate 25 0), .move 0 [], .loop 0 [],
    .waitAirtime 0 [], .waitCounter 0 [], .waitFlag 0 [], .signalCounter 0 [], .signalFlag 0 [], .signalEvent 0 [], .dmaEnd 0 [],
    .heartbeat 0 [], .state 0 [], .claim 0 [], .mirror 0 [] .clean, .prepare 0 [], .ready 0 [], .go 0 [], .goAck 0 [], .cancel 0 [],
    .ageingSample [], .trendScanDone 0 [], .replyRead 4097, .commitReadinessCheck [65536], .shadowSwap [65536] [],
    .shadowSwap [] [65536]], Instr.wf i = false := by decide

theorem test_ill_window : ∀ m ∈ [({ badHeaders := 2, blocks := 1, corrected := [], symbols := 0, corrWords := 0, uncorrWords := 0 } : SerMeas),
    { badHeaders := 0, blocks := 1, corrected := [3], symbols := 2, corrWords := 0, uncorrWords := 0 }],
    Instr.wf (.serWindowEnd 0 0 m) = false := by decide

/-! ## Single steps, with results that the manual gives -/

/-- The state that a command answers. -/
def after (i : Instr) (s : State) : State :=
  match exec i s with
  | .next t => t
  | _ => s

/-- A program of one bundle with this operation: `Gd` behind it. -/
def gAfter (i : Instr) (d : Nat) : W64 := ((after i s1).core 0).regs.getG d

/-- The table gives no row any bits. -/
theorem test_word_spells_nothing : decodeTableWord 32 0x12345678 = none := by decide

/-- R435: reset leaves the device BOOTING. -/
theorem test_reset_booting : State.reset.boot.devState = 0 := by decide

/-- R176: LIMM sign-extends its immediate. -/
theorem test_limm : gAfter (.limm 0 (some quietIssue) 3 (-2)) 3 = -2 := by decide

/-- R176: no bit is set in zero. -/
theorem test_popc_zero : gAfter (.popc 0 (some quietIssue) 3 4) 3 = 0 := by decide

/-- R176: CLZ of zero is 64. -/
theorem test_clz_zero : gAfter (.clz 0 (some quietIssue) 3 4) 3 = 64 := by decide

/-- R557: without power no domain is on. -/
theorem test_power_removal : (after .powerRemoval s1).power.on = [] := by decide

/-- R31: loss of OSC_IN takes both domains to FREERUN. -/
theorem test_osc_loss : (after .oscInLoss { s1 with time := { s1.time with dom1 := { st := 2 } } }).time.dom1.st = 0 := by decide

/-- R576: TAP reset selects IDCODE. -/
theorem test_tap_reset : (after .tapReset { s1 with proul := { ir := 0xFF } }).proul.ir = 2 := by decide

/-- The check values of CRC-32 and CRC-32C over the digits 1 to 9. -/
theorem test_crc : crc32 [0x31, 0x32, 0x33, 0x34, 0x35, 0x36, 0x37, 0x38, 0x39] = 0xCBF43926 ∧
    crc32c [0x31, 0x32, 0x33, 0x34, 0x35, 0x36, 0x37, 0x38, 0x39] = 0xE3069283 := by decide

theorem witness_StepRunsFrontCommand : ∃ (c : Instr) (rest : List Instr) (s : State), (s.pending = c :: rest) :=
  ⟨.oscInLoss, [], { s1 with pending := [.oscInLoss] }, by decide⟩

theorem witness_OscillatorHoldoverAndResidual :
    (∃ (s : State), (s.time.oscLost = false) ∧ (Room 3 s)) ∧
    (∃ (s : State), (s.time.oscLost = true)) ∧
    (∃ (d : DomId) (s : State) (t0 : Nat), ((s.dom d).st = 4) ∧ ((s.dom d).holdFrom = some t0) ∧
      (t0 + s.param 0x0209 d * 1000000000 ≤ (s.dom d).ns) ∧ (Room 1 s)) ∧
    (∃ (s : State), (s.time.r ≠ 0) ∧ (s.time.r.natAbs ≤ s.time.slewFrac / (65536 * 100000000))) ∧
    (∃ (s : State), (s.time.alarm = false) ∧ (s.param 0x0204 0 * 65536 < s.time.r.natAbs) ∧ (Room 1 s)) ∧
    (∃ (s : State), (s.time.alarm = true) ∧ (s.time.r.natAbs < s.param 0x0204 0 * 65536) ∧ (Room 1 s)) ∧
    (∃ (s : State), (s.time.r.natAbs = s.param 0x0204 0 * 65536)) ∧
    (∃ (tile : Fin 6) (cls : Fin 5) (unit : Byte) (s : State), (Room 1 s)) :=
  ⟨ ⟨s1, by decide, by decide⟩,
    ⟨{ s1 with time := { s1.time with oscLost := true } }, by decide⟩,
    ⟨0, { s1 with time := { s1.time with dom0 := { st := 4, holdFrom := some 0, count := 10 ^ 19 * 2 ^ 32 } } }, 0, by decide, by decide,
      by decide, by decide⟩,
    ⟨{ s1 with time := { s1.time with r := 1, slewFrac := 10 ^ 18 } }, by decide, by decide⟩,
    ⟨{ s1 with time := { s1.time with r := 10 ^ 12 } }, by decide, by decide, by decide⟩,
    ⟨{ s1 with time := { s1.time with r := 1, alarm := true } }, by decide, by decide, by decide⟩,
    ⟨{ s1 with time := { s1.time with r := 65536 * s1.param 0x0204 0 } }, by decide⟩,
    ⟨0, 0, 0, s1, by decide⟩⟩

theorem witness_ReferenceInputs :
    (∃ (i : Fin 16) (s : State), (((s.dom 0).input i).lastMeas + 5 * tcS ≤ s.now)) ∧
    (∃ (d : DomId) (k : Fin 4) (s : State), (((s.dom d).input (20 + k)).present = true) ∧
      (((s.dom d).input (20 + k)).lastMeas + s.param 0x020E d * tcMs ≤ s.now)) ∧
    (∃ (k : Fin 2) (s : State), (3 ≤ edgeless s k)) ∧
    (∃ (k : Fin 2) (s : State), (edgeless s k < 3)) ∧
    (∃ (k : Fin 2) (b : List Byte) (s : State), (TodUsable s k b)) ∧
    (∃ (d : DomId) (i : Fin 24) (s : State), (((s.dom d).input i).present = true) ∧ (((s.dom d).input i).rank < 15) ∧
      (((s.dom d).input i).driftDq = false) ∧ (((s.dom d).input i).freq.natAbs ≤ s.param 0x020C d * 1000) ∧ ((s.dom d).st ≠ 0) ∧
      ((s.dom d).st ≠ 4) ∧ (((s.dom d).input i).since + s.param 0x0208 d * 1000000000 ≤ (s.dom d).ns)) :=
  ⟨ ⟨0, { at1 (10 ^ 12) with time := { (at1 (10 ^ 12)).time with dom0 := domAt (10 ^ 10) } }, by decide⟩,
    ⟨0, 0, { at1 (10 ^ 12) with time := { (at1 (10 ^ 12)).time with dom0 := { count := 10 ^ 19 * 2 ^ 32, inputs := [(20, { present := true })] } } },
      by decide, by decide⟩,
    ⟨0, { s1 with time := { s1.time with tod0 := { unusable := 3 } } }, by decide⟩,
    ⟨0, { s1 with time := { s1.time with dom0 := domAt 0, tod0 := { usable := true, edge0 := 0 } } }, by decide⟩,
    ⟨0, todBytes, { s1.setParam 0x0212 0 1 with time := { s1.time with dom0 := domAt 20000000 } }, by decide⟩,
    ⟨0, 3, { s1 with time := { s1.time with dom0 := { count := 10 ^ 19 * 2 ^ 32, st := 1, inputs := [(3, { present := true, rank := 2 })] } } },
      by decide, by decide, by decide, by decide, by decide, by decide, by decide⟩⟩

theorem witness_ServoAndDrift :
    (∃ (d : DomId) (k : Fin 4) (e : Int) (r : RefInput) (s : State), (s.time.oscLost = false) ∧ ((s.dom d).st = 1) ∧
      ((s.dom d).run = 15) ∧ ((s.dom d).stepDue = false) ∧ ((s.dom d).inputs = [(20 + k.val, r)]) ∧ (r.qualified = true) ∧
      (r.rank < 15) ∧ ((s.dom d).phaseRef = some (20 + k.val)) ∧ (s.param 0x0205 (d.val * 32 + (20 + k.val)) ≠ 0) ∧
      (e.natAbs < s.param 0x020B d * 65536) ∧ (Room 3 s)) ∧
    (∃ (i : Fin 24) (off : Int) (s : State), (driftIndex s ≠ s.time.driftAt) ∧ (((s.dom 0).input i).qualified = true) ∧
      (((s.dom 0).input i).driftDq = false) ∧ (((s.dom 0).input i).driftRun = 2) ∧
      (90000000000 ≤ ((s.dom 0).input i).presence (s.dom 0)) ∧
      (((s.param 0x0203 0 : Int) + 10) * 1000 < ((fromPrediction (s.dom 0) off).natAbs : Int)) ∧ (Room 4 s)) ∧
    (∃ (m0 : List (Fin 24 × Int)) (m1 : List (Fin 24 × Int)) (s : State), (driftIndex s = s.time.driftAt)) :=
  ⟨ ⟨0, 0, 5, { present := true, qualified := true, rank := 2 },
    { (s1.setParam 0x0205 20 1) with time := { s1.time with dom0 := { st := 1, run := 15, stepDue := false, phaseRef := some 20, inputs := [(20, { present := true, qualified := true, rank := 2 })] } } },
    by decide, by decide, by decide, by decide, by decide, by decide, by decide, by decide, by decide, by decide, by decide⟩,
    ⟨3, 10 ^ 9, { s1 with time := { s1.time with dom0 := { count := 10 ^ 11 * 2 ^ 32, winFrom := 0, inputs := [(3, { qualified := true, driftRun := 2, present := true, since := 0 })] } } },
      by decide, by decide, by decide, by decide, by decide, by decide +kernel, by decide⟩,
    ⟨[], [], s1, by decide⟩⟩

theorem witness_ActiveRoleEvaluation :
    (∃ (s : State), (s.time.active ≤ 1) ∧ (s.param 0x0201 0 = 1) ∧ (s.param 0x0305 0 ≠ 1) ∧ (s.time.switchWait = none) ∧
      ((s.dom s.time.active).st ≠ 2) ∧ ((s.dom (1 - s.time.active)).st = 2) ∧ (Room 1 s)) ∧
    (∃ (s : State), (s.param 0x0305 0 ≠ 1) ∧ (s.time.switchWait = none) ∧ ((s.dom s.time.active).st = 2) ∧ (s.time.active = 0)) ∧
    (∃ (w : SwitchWait) (s : State), (s.param 0x0201 0 ≠ 1) ∧ (s.param 0x0202 0 ≠ 1) ∧ (s.param 0x0305 0 ≠ 1) ∧
      (s.time.switchWait = some w) ∧ (w.target ≠ s.time.active) ∧ ((s.dom w.target).st = 2) ∧ (s.time.active ≤ 1) ∧ (w.target ≤ 1)) :=
  ⟨ ⟨{ ((s1.setParam 0x0201 0 1).setParam 0x0305 0 0) with time := { s1.time with dom1 := { st := 2 } } }, by decide, by decide,
    by decide, by decide, by decide, by decide, by decide⟩,
    ⟨{ (s1.setParam 0x0305 0 0) with time := { (s1.setParam 0x0305 0 0).time with dom0 := { st := 2 } } }, by decide, by decide,
      by decide, by decide⟩,
    ⟨{ req := q 0x0102, target := 1, force := false },
      { ((s1.setParam 0x0201 0 0).setParam 0x0305 0 0) with time := { s1.time with dom1 := { st := 2 }, switchWait := some { req := q 0x0102, target := 1, force := false } } },
      by decide, by decide, by decide, by decide, by decide, by decide, by decide, by decide⟩⟩

theorem witness_PulsesAndComparators :
    (∃ (k : Fin 4) (n : Nat) (s : State), ((s.ppsOut k).next = some n) ∧ ((s.ppsOut k).produced.contains ((s.ppsOut k).dom, n) = false) ∧
      ((s.ppsOut k).jumped = none) ∧ ((n : Int) + (s.ppsOut k).delay ≤ ((s.dom (s.ppsOut k).dom).ns : Int))) ∧
    (∃ (k : Fin 4) (n : Nat) (s : State), ((s.ppsOut k).next = some n) ∧
      (((s.dom (s.ppsOut k).dom).ns : Int) < (n : Int) + (s.ppsOut k).delay)) ∧
    (∃ (k : Fin 4) (n : Nat) (s : State), ((s.ppsOut k).next = some n) ∧ ((s.ppsOut k).produced.contains ((s.ppsOut k).dom, n) = true) ∧
      ((n : Int) + (s.ppsOut k).delay ≤ ((s.dom (s.ppsOut k).dom).ns : Int))) ∧
    (∃ (k : Fin 4) (s : State), ((s.ppsOut k).fall = some 0)) ∧
    (∃ (n : Fin 256) (s : State), (64 ≤ n.val) ∧ ((s.comp n).armed = true) ∧ ((s.comp n).target ≤ s.now) ∧ ((s.comp n).action = 6) ∧
      ((s.comp n).late = false) ∧ ((s.comp n).arg < 2 ^ 32) ∧ (s.boot.devState ≠ 3) ∧ (Room 1 s)) ∧
    (∃ (n : Fin 256) (s : State), ((s.comp n).armed = false)) ∧
    (∃ (n : Fin 256) (s : State), (s.now < (s.comp n).target)) ∧
    (∃ (k : Fin 4) (u : Nat) (s : State), (mapGet? s.time.taout k = some u) ∧ (u ≤ s.now)) :=
  ⟨ ⟨0, 0, s1.setPps 0 { next := some 0 }, by decide, by decide, by decide, by decide⟩,
    ⟨0, 10 ^ 18, s1.setPps 0 { next := some (10 ^ 18) }, by decide, by decide⟩,
    ⟨0, 0, s1.setPps 0 { next := some 0, produced := [(0, 0)] }, by decide, by decide, by decide⟩,
    ⟨0, s1.setPps 0 { fall := some 0 }, by decide⟩,
    ⟨64, s1.setComp 64 { armed := true, action := 6 }, by decide, by decide, by decide, by decide, by decide, by decide, by decide,
      by decide⟩,
    ⟨0, s1, by decide⟩,
    ⟨0, s1.setComp 0 { armed := true, target := 5 }, by decide⟩,
    ⟨0, 0, { s1 with time := { s1.time with taout := [(0, 0)] } }, by decide, by decide⟩⟩

theorem witness_LaneLocks :
    (∃ (l : LaneId) (s : State), ((s.lane l).cdr = false) ∧ (lanePresent s l = true) ∧ (s.domainOn (76 + l / 16) = true) ∧
      (s.portMode (l / 4) ≠ 0) ∧ ((s.lane l).calibrated = true) ∧ (Room 1 s)) ∧
    (∃ (l : LaneId) (s : State), ((s.lane l).calibrated = false)) ∧
    (∃ (l : LaneId) (s : State), ((s.lane l).codeword = false) ∧
      ((∀ j ∈ lanesOfLink (s.portMode (l / 4)) (l / 4) (linkOfLane (s.portMode (l / 4)) l), laneClock s j = true)) ∧
      (linkFec s (l / 4) (linkOfLane (s.portMode (l / 4)) l) = true) ∧ (Room 1 s)) ∧
    (∃ (l : LaneId) (s : State), ((s.lane l).cdr = true) ∧ ((s.lane l).codeword = true) ∧ ((s.lane l).prbsLock = false) ∧
      (s.param 0x0402 l ≠ 2) ∧ (lanesOfLink (s.portMode (l / 4)) (l / 4) (linkOfLane (s.portMode (l / 4)) l) = [l.val]) ∧
      (s.linkUp (l / 4) (linkOfLane (s.portMode (l / 4)) l) = false) ∧ (mapGet? s.lanes.scans (l / 16) = none) ∧ (Room 2 s)) ∧
    (∃ (l : LaneId) (s : State), ((s.lane l).cdr = true) ∧ (s.param 0x0402 l ≠ 2)) ∧
    (∃ (l : LaneId) (s : State), ((s.lane l).codeword = true) ∧ (s.linkUp (l / 4) (linkOfLane (s.portMode (l / 4)) l) = false) ∧
      (Room 1 s)) ∧
    (∃ (l : LaneId) (s : State), ((s.lane l).cdr = false)) ∧
    (∃ (l : LaneId) (s : State), ((s.lane l).codeword = false)) :=
  ⟨ ⟨0, { (pars s1 [(0x0501, 0, 5)]) with lanes := { board := [(64, 1)], lanes := [(0, { calibrated := true })] } }, by decide,
    by decide, by decide, by decide, by decide, by decide⟩,
    ⟨0, s1, by decide⟩,
    ⟨0, (s1.setParam 0x0501 0 3).setLane 0 { cdr := true }, by decide, by decide, by decide, by decide⟩,
    ⟨0, (s1.setParam 0x0501 0 3).setLane 0 { cdr := true, codeword := true }, by decide, by decide, by decide, by decide, by decide,
      by decide, by decide, by decide⟩,
    ⟨0, (s1.setParam 0x0501 0 3).setLane 0 { cdr := true, codeword := true }, by decide, by decide⟩,
    ⟨0, s1.setLane 0 { codeword := true }, by decide, by decide, by decide⟩,
    ⟨0, s1, by decide⟩,
    ⟨0, s1, by decide⟩⟩

theorem witness_LinkStates :
    (∃ (p : PortId) (k : Fin 4) (s : State), (lanesOfLink (s.portMode p) p k ≠ []) ∧ (s.linkUp p k = false) ∧
      ((∀ l ∈ lanesOfLink (s.portMode p) p k, laneClock s l = true ∧ (linkFec s p k = true → (s.lane l).codeword = true)))) ∧
    (∃ (p : PortId) (k : Fin 4) (s : State), (s.linkUp p k = true)) ∧
    (∃ (p : PortId) (k : Fin 4) (s : State), (s.linkUp p k = false)) ∧
    (∃ (p : PortId) (k : Fin 4) (m : SerMeas) (l : Nat) (s : State), (s.linkUp p k = true) ∧ (lanesOfLink (s.portMode p) p k = [l]) ∧
      (linkFec s p k = true) ∧ ((s.link p k).hiSer = false) ∧ (m.corrected.foldl (· + ·) 0 * 10 ^ s.param 0x0406 0 ≤ m.symbols)) ∧
    (∃ (p : PortId) (k : Fin 4) (m : SerMeas) (l : Nat) (s : State), (s.linkUp p k = true) ∧ (lanesOfLink (s.portMode p) p k = [l]) ∧
      (linkFec s p k = false) ∧ (s.portMode p ≠ 5) ∧ ((s.link p k).hiSer = false) ∧ (97 ≤ m.badHeaders) ∧ (Room 1 s)) ∧
    (∃ (g : Fin 16) (i : Fin 16) (s : State), (s.domainOn (76 + g) = true) ∧ (lanePresent s (16 * g + i) = true) ∧
      ((s.lane (16 * g + i)).trims = true)) :=
  ⟨ ⟨0, 0, (s1.setParam 0x0501 0 5).setLane 0 { cdr := true }, by decide, by decide, by decide⟩,
    ⟨0, 0, s1.setLink 0 0 { up := true }, by decide⟩,
    ⟨0, 0, s1, by decide⟩,
    ⟨0, 0, { badHeaders := 0, blocks := 0, corrected := [], symbols := 0, corrWords := 0, uncorrWords := 0 }, 0,
      (s1.setParam 0x0501 0 3).setLink 0 0 { up := true }, by decide, by decide, by decide, by decide, by decide⟩,
    ⟨0, 0, { badHeaders := 100, blocks := 0, corrected := [], symbols := 0, corrWords := 0, uncorrWords := 0 }, 0, (pars s1 [(0x0501, 0,
      4), (0x0405, 0, 0)]).setLink 0 0 { up := true }, by decide, by decide, by decide, by decide, by decide, by decide, by decide⟩,
    ⟨0, 0, { s1 with lanes := { board := [(64, 1)], lanes := [(0, { trims := true })] } }, by decide, by decide, by decide⟩⟩

theorem witness_LaneSettingsAndScans_1 :
    (∃ (l : LaneId) (e : Nat) (s : State), ((s.lane l).pendingEntry = some e) ∧ ((s.lane l).cdr = false) ∧
      (mapGet? s.lanes.scans (l / 16) = none) ∧ (Room 1 s)) ∧
    (∃ (l : LaneId) (e : Nat) (s : State), ((s.lane l).pendingEntry = some e) ∧ ((s.lane l).cdr = true)) ∧
    (∃ (g : Fin 16) (errs : List Nat) (c : Scan) (s : State), (mapGet? s.lanes.scans g = some c) ∧ (c.host = true) ∧ (Room 1 s)) ∧
    (∃ (l : LaneId) (s : State), (trendDue s l = false)) ∧
    (∃ (l : LaneId) (s : State), (trendDue s l = true) ∧ (s.portMode (l / 4) ≠ 0) ∧ (mapGet? s.lanes.scans (l / 16) = none) ∧
      ((s.lane l).cdr = true)) ∧
    (∃ (l : LaneId) (eyes : List (Fin 3 × Fin 65 × Fin 128)) (c : Scan) (s : State), (mapGet? s.lanes.scans (l / 16) = some c) ∧
      (c.host = false) ∧ (c.lane = l.val)) ∧
    (∃ (l : LaneId) (s : State), (s.param 0x0404 l ≠ 0) ∧ (laneClock s l = true) ∧ ((s.lane l).prbsLock = false)) ∧
    (∃ (p : PortId) (t0 : Nat) (s : State), (mapGet? s.lanes.maint p = some t0) ∧ (t0 + s.param 0x0408 0 * 1966080000 ≤ s.now) ∧
      ((∀ i < 4, s.param 0x0402 (4 * p + i) = 0 ∧ s.param 0x0403 (4 * p + i) = 0 ∧ s.param 0x0404 (4 * p + i) = 0))) :=
  ⟨ ⟨0, 1, s1.setLane 0 { pendingEntry := some 1 }, by decide, by decide, by decide, by decide⟩,
    ⟨0, 1, (s1.setParam 0x0501 0 3).setLane 0 { pendingEntry := some 1, cdr := true }, by decide, by decide⟩,
    ⟨0, [], { host := true, lane := 0, mask := 0, k := 0, s := 0, t := 0, start := 0 },
      { s1 with lanes := { scans := [(0, { host := true, lane := 0, mask := 0, k := 0, s := 0, t := 0, start := 0 })] } }, by decide,
      by decide, by decide⟩,
    ⟨0, { s1 with lanes := { trendAt := [(0, 0)] } }, by decide⟩,
    ⟨0, (s1.setParam 0x0501 0 5).setLane 0 { cdr := true }, by decide, by decide, by decide, by decide⟩,
    ⟨0, [], { host := false, lane := 0, mask := 0, k := 0, s := 0, t := 0, start := 0 },
      { s1 with lanes := { scans := [(0, { host := false, lane := 0, mask := 0, k := 0, s := 0, t := 0, start := 0 })] } }, by decide,
      by decide, by decide⟩,
    ⟨0, (s1.setParam 0x0404 0 1).setLane 0 { cdr := true }, by decide, by decide, by decide⟩,
    ⟨0, 0, { at1 (10 ^ 14) with lanes := { maint := [(0, 0)] } }, by decide, by decide, by decide⟩⟩

theorem witness_LaneSettingsAndScans_2 : ∃ (p : PortId) (t0 : Nat) (s : State), (mapGet? s.lanes.maint p = some t0) ∧
  (s.now < t0 + s.param 0x0408 0 * 1966080000) :=
  ⟨0, 0, { s1 with lanes := { maint := [(0, 0)] } }, by decide, by decide⟩

theorem witness_PortFrames_1 :
    (∃ (p : PortId) (k : Fin 4) (e : Bool) (b : List Byte) (s : State), (linkDelivers s p k = false)) ∧
    (∃ (p : PortId) (k : Fin 4) (e : Bool) (b : List Byte) (s : State), (linkNear s p k = true)) ∧
    (∃ (p : PortId) (k : Fin 4) (b : List Byte) (s : State), (linkNear s p k = false) ∧ (linkDelivers s p k = true)) ∧
    (∃ (p : PortId) (k : Fin 4) (b : List Byte) (s : State), (linkNear s p k = false) ∧ (linkDelivers s p k = true) ∧ (b.length < 64)) ∧
    (∃ (p : PortId) (k : Fin 4) (b : List Byte) (s : State), (linkNear s p k = false) ∧ (linkDelivers s p k = true) ∧ (64 ≤ b.length) ∧
      (s.paramPort p 0x0504 p < b.length)) ∧
    (∃ (p : PortId) (k : Fin 4) (b : List Byte) (s : State), (linkNear s p k = false) ∧ (linkDelivers s p k = true) ∧
      (macCheck s p false b = none) ∧ (portRole s p = 3) ∧ (isPtp b = true) ∧ (isEsmc b = false) ∧ (b.length ≤ 1536) ∧
      ((s.port p).ptpRx.length < 128)) ∧
    (∃ (p : PortId) (k : Fin 4) (b : List Byte) (s : State), (linkNear s p k = false) ∧ (linkDelivers s p k = true) ∧
      (macCheck s p false b = none) ∧ (portRole s p = 3) ∧ (isPtp b = false) ∧ (isEsmc b = false)) ∧
    (∃ (p : PortId) (k : Fin 4) (s : State), ((s.link p k).sending = none)) :=
  ⟨ ⟨0, 0, false, [], s1, by decide⟩,
    ⟨0, 0, false, [], pars s1 [(0x0501, 0, 5), (0x0402, 0, 1)], by decide⟩,
    ⟨0, 0, [], linked, by decide, by decide⟩,
    ⟨0, 0, [], linked, by decide, by decide, by decide⟩,
    ⟨0, 0, List.replicate 65 0, (linked.setParam 0x0504 0 64), by decide, by decide, by decide, by decide⟩,
    ⟨0, 0, frame [0x88, 0xF7], linked, by decide, by decide, by decide, by decide, by decide, by decide, by decide, by decide⟩,
    ⟨0, 0, frame [0x08, 0x00], linked, by decide, by decide, by decide, by decide, by decide, by decide⟩,
    ⟨0, 0, s1, by decide⟩⟩

theorem witness_PortFrames_2 : ∃ (p : PortId) (k : Fin 4) (f : TxFrame) (s : State), ((s.link p k).sending = some f) ∧ (f.kind = 2) ∧
  (portRole s p ≠ 1) ∧ (txReplaced s p k = false) ∧ (linkNear s p k = false) ∧ ((s.link p k).fh = []) ∧ ((s.link p k).ptp = []) ∧
  ((s.link p k).low = []) :=
  ⟨0, 0, { kind := 2, bytes := [] }, s1.setLink 0 0 { sending := some { kind := 2, bytes := [] } }, by decide, by decide, by decide,
    by decide, by decide, by decide, by decide, by decide⟩

theorem witness_UplinkStaging :
    (∃ (c : CarrierId) (f : Nat) (j : Nat) (p : Nat) (k : Int) (s : State), ((fhTime s p c).symIndex f j = k) ∧ (Serves s p c) ∧
      (RxDue s p c k) ∧ (areaGroups s p c 0 = 1) ∧ (ulDone? s c (bufOf s p c 0 k 0) k 0 = none) ∧
      ((ulBuf s c (bufOf s p c 0 k 0)).group = some (k, 0) ∨ (ulBuf s c (bufOf s p c 0 k 0)).released = true)) ∧
    (∃ (c : CarrierId) (f : Nat) (j : Nat) (p : Nat) (k : Int) (d : UlDone) (s : State), ((fhTime s p c).symIndex f j = k) ∧
      (Serves s p c) ∧ (RxDue s p c k) ∧ (areaGroups s p c 0 = 1) ∧ (ulDone? s c (bufOf s p c 0 k 0) k 0 = some d) ∧ (d.complete = true)) ∧
    (∃ (c : CarrierId) (f : Nat) (j : Nat) (s : State), (s.carrierActive c = false)) ∧
    (∃ (p : PortId) (c : Fin 65536) (r : Fin 64) (s : State), (doorbellOk s p c 0 r = false)) ∧
    (∃ (p : PortId) (c : Fin 65536) (r : Fin 64) (s : State), (doorbellOk s p c 0 r = true) ∧ ((ulBuf s c r).released = true)) ∧
    (∃ (p : PortId) (c : Fin 65536) (r : Fin 64) (s : State), (doorbellOk s p c 0 r = true) ∧ ((ulBuf s c r).released = false) ∧
      ((ulBuf s c r).waiting = [])) ∧
    (∃ (p : PortId) (c : Fin 65536) (r : Fin 64) (k : Int) (q : Nat) (closed : Bool) (rest : List (Int × Nat × Bool)) (s : State),
      (doorbellOk s p c 0 r = true) ∧ ((ulBuf s c r).released = false) ∧ ((ulBuf s c r).waiting = (k, q, closed) :: rest)) :=
  ⟨ ⟨0, 0, 0, 0, 0, carr.setCfh 0 { announced := [{ dir := 0, slot := 0, start := 0, num := 14, secType := 1, filter := 0 }] },
    by decide, by decide, by decide, by decide, by decide, by decide⟩,
    ⟨0, 0, 0, 0, 0, { group := (0, 0), valid := [], complete := true },
      (carr.setCfh 0 { announced := [{ dir := 0, slot := 0, start := 0, num := 14, secType := 1, filter := 0 }] }).setCfh 0 { (carr.setCfh 0 { announced := [{ dir := 0, slot := 0, start := 0, num := 14, secType := 1, filter := 0 }] }).cfh 0 with ulDone := [{ group := (0, 0), valid := [], complete := true }] },
      by decide, by decide, by decide, by decide, by decide, by decide⟩,
    ⟨0, 0, 0, s1, by decide⟩,
    ⟨0, 0, 0, s1, by decide⟩,
    ⟨0, 0, 0, carr, by decide, by decide⟩,
    ⟨0, 0, 0, carr.setCfh 0 { ul := [(0, { released := false })] }, by decide, by decide, by decide⟩,
    ⟨0, 0, 0, 3, 0, true, [], carr.setCfh 0 { ul := [(0, { released := false, waiting := [(3, 0, true)] })] }, by decide, by decide,
      by decide⟩⟩

theorem witness_DownlinkStaging :
    (∃ (p : PortId) (c : Fin 65536) (r : Fin 64) (s : State), (doorbellOk s p c 1 r = true) ∧ ((dlBuf s c r).busy = false)) ∧
    (∃ (p : PortId) (c : Fin 65536) (r : Fin 64) (s : State), (doorbellOk s p c 1 r = false ∨ (dlBuf s c r).busy = true)) ∧
    (∃ (c : CarrierId) (f : Nat) (j : Nat) (p : Nat) (k : Int) (s : State), ((fhTime s p c).symIndex f j = k) ∧ (Serves s p c) ∧
      (ReadyDue s p c k) ∧ (areaGroups s p c 1 = 1)) ∧
    (∃ (c : CarrierId) (f : Nat) (j : Nat) (p : Nat) (x : Nat) (st : Nat) (k : Int) (s : State), ((fhTime s p c).symIndex f j = k) ∧
      (Serves s p c) ∧ (TxDue s p c k) ∧ (areaGroups s p c 1 = 1) ∧ (Covered s p c 1 k) ∧
      ((dlBuf s c (bufOf s p c 1 k 0)).taken ≠ some (k, 0)) ∧ (Sendable s p (carrierLink s p c)) ∧ (s.paramPort p 0x0603 p ≠ 4) ∧
      (groupStreams s p c 1 0 = [st]) ∧ (antennaOf s p c st = some x) ∧ (prbCount s p c ≠ 0) ∧
      ((s.link p (carrierLink s p c)).sending.isSome = true)) ∧
    (∃ (c : CarrierId) (f : Nat) (j : Nat) (p : Nat) (x : Nat) (st : Nat) (k : Int) (s : State), ((fhTime s p c).symIndex f j = k) ∧
      (Serves s p c) ∧ (TxDue s p c k) ∧ (areaGroups s p c 1 = 1) ∧ (Covered s p c 1 k) ∧
      ((dlBuf s c (bufOf s p c 1 k 0)).taken = some (k, 0)) ∧ (s.boot.devState ≠ 4) ∧ (Sendable s p (carrierLink s p c)) ∧
      (groupStreams s p c 1 0 = [st]) ∧ (antennaOf s p c st = some x) ∧ (bufOf s p c 1 k 0 ≠ 65535) ∧
      (mapInvalid (s.paramPort p 0x0603 p) (prbCount s p c) (mapEntries (bytesRead 0 (s.port p).bank (bufAddr s p c 1 (bufOf s p c 1 k 0) + 32 * (st % areaGroup s p c 1)) 32)) = false) ∧
      ((mapEntries (bytesRead 0 (s.port p).bank (bufAddr s p c 1 (bufOf s p c 1 k 0) + 32 * (st % areaGroup s p c 1)) 32)).any (fun e => e.2.2.2.1 ≠ 0) = true) ∧
      ((s.link p (carrierLink s p c)).sending.isSome = true)) ∧
    (∃ (c : CarrierId) (f : Nat) (j : Nat) (p : Nat) (k : Int) (s : State), ((fhTime s p c).symIndex f j = k) ∧ (Serves s p c) ∧
      (above (s.cfh c).lastClose k = true) ∧ ((fhTime s p c).startOf k - s.paramPort p 0x0613 c ≤ s.localNow 0 p) ∧
      ((s.link p (carrierLink s p c)).up = true)) :=
  ⟨ ⟨0, 0, 0, carr, by decide, by decide⟩,
    ⟨0, 0, 0, s1, by decide⟩,
    ⟨0, 1, 0, 0, 280, carr, by decide, by decide, by decide, by decide⟩,
    ⟨0, 1, 0, 0, 0, 0, 280,
      (carr2.setCfh 0 { announced := [{ dir := 1, slot := 20, start := 0, num := 14, secType := 1, filter := 0 }] }).setLink 0 0 { sending := some { kind := 0, bytes := [] } },
      by decide, by decide, by decide, by decide, by decide, by decide, by decide, by decide, by decide, by decide, by decide, by decide⟩,
    ⟨0, 1, 0, 0, 0, 0, 280,
      (carr2.setCfh 0 { announced := [{ dir := 1, slot := 20, start := 0, num := 14, secType := 1, filter := 0 }], dl := [(0, { ready := true, taken := some (280, 0) })] }).setPort 0 { bank := [(3, 1), (4, 1)], link0 := { sending := some { kind := 0, bytes := [] } } },
      by decide, by decide, by decide, by decide, by decide, by decide, by decide, by decide, by decide, by decide, by decide, by decide,
      by decide, by decide⟩,
    ⟨0, 0, 0, 0, 0, carr.setLink 0 0 { up := true }, by decide, by decide, by decide, by decide, by decide⟩⟩

theorem witness_CplaneStaging :
    (∃ (p : PortId) (c : Fin 65536) (r : Fin 64) (s : State), (doorbellOk s p c 2 r = true) ∧ ((cpBuf s c r).busy = false) ∧
      (Sendable s p (carrierLink s p c))) ∧
    (∃ (p : PortId) (c : Fin 65536) (r : Fin 64) (s : State), (doorbellOk s p c 2 r = false ∨ (cpBuf s c r).busy = true) ∧
      (Sendable s p (carrierLink s p c))) ∧
    (∃ (c : CarrierId) (q : Nat) (p : Nat) (s : State), (Serves s p c) ∧ (areaBuffers s p c 2 ≠ 0) ∧
      (above (s.cfh c).lastCpDead q = true) ∧ (((s.cfh c).activeFrom : Int) ≤ cpDeadline s p c q) ∧ (cpDeadline s p c q ≤ s.localNow 0 p)) ∧
    (∃ (c : CarrierId) (q : Nat) (p : Nat) (x : Nat) (body : List Byte) (s : State), (Serves s p c) ∧ (areaBuffers s p c 2 ≠ 0) ∧
      (above (s.cfh c).lastCpOpen q = true) ∧ (slotLead (fhTime s p c) q (s.paramPort p 0x0614 c) ≤ s.localNow 0 p) ∧
      (s.localNow 0 p < slotLead (fhTime s p c) q (s.paramPort p 0x0615 c)) ∧ (Sendable s p (carrierLink s p c)) ∧
      ((cpBuf s c (q % areaBuffers s p c 2)).taken = some ((q : Int), 0)) ∧ (s.boot.devState ≠ 4) ∧
      (cplaneRecords 1024 (bytesRead 0 (s.port p).bank (bufAddr s p c 2 (q % areaBuffers s p c 2)) 4096) 0 = [(x, body, false)]) ∧
      (x < 16384) ∧ (6 ≤ body.length) ∧ (rd body 5 1 = 0 ∨ rd body 5 1 = 1 ∨ rd body 5 1 = 3) ∧
      (fhOverhead s p c + 4 + body.length ≤ s.paramPort p 0x0504 p) ∧ (s.linkUp p (carrierLink s p c) = true) ∧
      ((s.link p (carrierLink s p c)).sending.isSome = true)) :=
  ⟨ ⟨0, 0, 0, carr, by decide, by decide, by decide⟩,
    ⟨0, 0, 0, s1, by decide, by decide⟩,
    ⟨0, 20, 0, carr, by decide, by decide, by decide, by decide, by decide⟩,
    ⟨0, 20, 0, 0, List.replicate 16 0,
      (carr2.setCfh 0 { cp := [(0, { ready := true, taken := some (20, 0) })] }).setPort 0 { bank := [(2, 16)], link0 := { up := true, sending := some { kind := 0, bytes := [] } } },
      by decide, by decide, by decide, by decide, by decide, by decide, by decide, by decide, by decide, by decide, by decide, by decide,
      by decide, by decide, by decide⟩⟩

theorem witness_RadioOccasions :
    (∃ (c : CarrierId) (w : Nat) (p : Nat) (s : State), (Serves s p c) ∧ (s.paramPort p 0x0A03 c ≠ 0) ∧
      (above (s.cfh c).lastNoise (((w + 1) * s.paramPort p 0x0A03 c : Nat) : Int) = true) ∧
      (((s.cfh c).activeFrom : Int) < (fhTime s p c).slotSym (((w + 1) * s.paramPort p 0x0A03 c : Nat) : Int) 0) ∧
      ((fhTime s p c).slotSym (((w + 1) * s.paramPort p 0x0A03 c : Nat) : Int) 0 + s.paramPort p 0x0611 c ≤ s.localNow 0 p)) ∧
    (∃ (c : CarrierId) (g : Fin 16) (q : Nat) (p : Nat) (o : Occasion) (s : State), (Serves s p c) ∧
      (((s.cfh c).prachIn.find? fun e => e.group = g.val && e.slot = (q : Int) && decide ((fhTime s p c).slotSym e.slot (e.start + e.num) + s.paramPort p 0x0611 c ≤ s.localNow 0 p)) = some o) ∧
      ((mapGet s.ports.prachQueue p []).length < 32)) ∧
    (∃ (p : PortId) (o : Occasion) (rest : List Occasion) (s : State), (mapGet s.ports.prachQueue p [] = o :: rest) ∧
      (o.closed + 1966080 < s.now) ∧ (s.paramPort p 0x0A0B o.carrier = 0) ∧ (Room 1 s)) ∧
    (∃ (p : PortId) (o : Occasion) (rest : List Occasion) (s : State), (mapGet s.ports.prachQueue p [] = o :: rest) ∧
      (s.now ≤ o.closed + 1966080)) ∧
    (∃ (p : PortId) (o : Occasion) (rest : List Occasion) (s : State), (mapGet s.ports.prachQueue p [] = o :: rest) ∧
      (mapGet? s.ports.prachBusy p = none) ∧ (s.now ≤ o.closed + 1966080)) ∧
    (∃ (p : PortId) (o : Occasion) (s : State), (mapGet? s.ports.prachBusy p = some o) ∧ (s.paramPort p 0x0A0B o.carrier = 0) ∧
      (o.input = []) ∧ (o.begun ≤ s.now)) :=
  ⟨ ⟨0, 0, 0, carr, by decide, by decide, by decide, by decide, by decide⟩,
    ⟨0, 0, 0, 0, { carrier := 0, group := 0, slot := 0, start := 0, num := 1 },
      carr.setCfh 0 { prachIn := [{ carrier := 0, group := 0, slot := 0, start := 0, num := 1 }] }, by decide, by decide, by decide⟩,
    ⟨0, { carrier := 0, group := 0, slot := 0, start := 0, num := 1 }, [],
      { carr with ports := { carr.ports with prachQueue := [(0, [{ carrier := 0, group := 0, slot := 0, start := 0, num := 1 }])] } },
      by decide, by decide, by decide, by decide⟩,
    ⟨0, { carrier := 0, group := 0, slot := 0, start := 0, num := 1 }, [],
      { s1 with ports := { s1.ports with prachQueue := [(0, [{ carrier := 0, group := 0, slot := 0, start := 0, num := 1 }])] } },
      by decide, by decide⟩,
    ⟨0, { carrier := 0, group := 0, slot := 0, start := 0, num := 1 }, [],
      { s1 with ports := { s1.ports with prachQueue := [(0, [{ carrier := 0, group := 0, slot := 0, start := 0, num := 1 }])] } },
      by decide, by decide, by decide⟩,
    ⟨0, { carrier := 0, group := 0, slot := 0, start := 0, num := 1 },
      { carr with ports := { carr.ports with prachBusy := [(0, { carrier := 0, group := 0, slot := 0, start := 0, num := 1 })] } },
      by decide, by decide, by decide, by decide⟩⟩

theorem witness_ExceptionEntry :
    (∃ (k : CoreId) (v : BitVec 16) (s : State), (QuietCore s k) ∧ (bit ((s.core k).regs.getC 1) 7 = false)) ∧
    (∃ (k : CoreId) (d : Fin 32) (a : Fin 32) (s : State), (QuietCore s k) ∧ (bit ((s.core k).regs.getC 1) 7 = false) ∧
      (((s.core k).regs.getG a).toNat < 0x3FFF8) ∧ (((s.core k).regs.getG a).toNat % 8 ≠ 0)) ∧
    (∃ (k : CoreId) (b : Nat) (s : State), ((s.core k).restoring = false) ∧ ((s.core k).dbg.halted = false) ∧
      ((s.core k).dbg.stepping = false) ∧ (s.domainOn (k / 16) = true) ∧ (takeable (s.core k) = some b) ∧ ((s.core k).longs = []) ∧
      ((s.core k).regs.inflight = []) ∧ ((s.core k).regs.getC 0x15 = 0) ∧ ((s.core k).regs.delay = none)) ∧
    (∃ (k : CoreId) (s : State), (takeable (s.core k) = none)) ∧
    (∃ (k : CoreId) (d : Fin 32) (c : BitVec 6) (s : State), (QuietCore s k) ∧ (0x18 ≤ c.toNat) ∧ (runningOn s k = none) ∧ (Room 1 s)) :=
  ⟨ ⟨0, 0, s1, by unfold QuietCore; decide, by decide⟩,
    ⟨0, 0, 1, { s1 with facet := { cores := [(0, { regs := { g := [(1, 4)] } })] } }, by unfold QuietCore; decide, by decide, by decide,
      by decide⟩,
    ⟨0, 1, coreIrq, by decide, by decide, by decide, by decide, by decide, by decide, by decide, by decide, by decide⟩,
    ⟨0, s1, by decide⟩,
    ⟨0, 0, 0x18, s1, by unfold QuietCore; decide, by decide, by decide, by decide⟩⟩

theorem witness_CoreWork :
    (∃ (k : CoreId) (s : State), (QuietCore s k) ∧ (runningOn s k = none) ∧ (mapGet? s.mill.drains k = none)) ∧
    (∃ (k : CoreId) (n : Nat) (d : List Byte) (s : State),
      (QuietCore { s with facet := { s.facet with cores := mapSet s.facet.cores k { s.core k with waiting := false, open_ := [] } } } k) ∧
      ((s.core k).waiting = true) ∧ ((s.core k).open_ = [.waitwork]) ∧ (mapGet? s.mill.deliveries k = some d)) ∧
    (∃ (k : CoreId) (a : Fin 32) (q : Nat) (s : State), (QuietCore s k) ∧ (runningOn s k = some q) ∧
      (((s.core k).regs.getG a).toNat % 256 < 4) ∧ ((s.core k).regs.demapRec = 0) ∧ ((s.core k).regs.solveRec = 0)) ∧
    (∃ (k : CoreId) (s : State), ((s.core k).waiting = true) ∧ ((s.core k).dbg.halted = false) ∧ ((s.core k).restoring = false) ∧
      ((s.core k).cycle < (s.core k).regs.getC 0x0B)) ∧
    (∃ (k : CoreId) (s : State), ((s.core k).regs.holdOn = true) ∧ (2048 < (s.core k).regs.hold) ∧ ((s.core k).restoring = false) ∧
      ((s.core k).dbg.halted = false) ∧ ((s.core k).longs = []) ∧ ((s.core k).regs.inflight = []) ∧ (runningOn s k = none) ∧ (Room 1 s)) ∧
    (∃ (k : CoreId) (s : State), ((s.core k).restoring = true) ∧ (mapGet? s.mill.drains k = none) ∧ (Room 1 s)) ∧
    (∃ (k : CoreId) (s : State), ((s.core k).restoring = false)) ∧
    (∃ (c : ClusterId) (s : State), (clusterWant s c ≠ (s.cluster c).split) ∧ (s.domainOn c = true) ∧ ((∀ i < 16,
      (s.core (16 * c + i)).restoring = true)) ∧ ((∀ i < 16, mapGet? s.mill.drains (16 * c + i) = none)) ∧ (Room 1 s)) :=
  ⟨ ⟨0, s1, by unfold QuietCore; decide, by decide, by decide⟩,
    ⟨0, 0, List.replicate 64 1,
      { s1 with facet := { cores := [(0, { waiting := true, open_ := [.waitwork] })] }, mill := { deliveries := [(0, List.replicate 64 1)] } },
      by unfold QuietCore; decide, by decide, by decide, by decide⟩,
    ⟨0, 0, 3, { s1 with mill := { slices := [(0, { items := [(3, { ready [] with place := 4 })] })] } }, by unfold QuietCore; decide,
      by decide, by decide, by decide, by decide⟩,
    ⟨0, { s1 with facet := { cores := [(0, { waiting := true, cycle := 1, regs := { ctl := [(0x0B, 9)] } })] } }, by decide, by decide,
      by decide, by decide⟩,
    ⟨0, { s1 with facet := { cores := [(0, { regs := { ctl := [(0x15, 128 + 256 * 3000)] } })] } }, by decide, by decide, by decide,
      by decide, by decide, by decide, by decide, by decide⟩,
    ⟨0, { s1 with facet := { cores := [(0, { restoring := true })] } }, by decide, by decide, by decide⟩,
    ⟨0, s1, by decide⟩,
    ⟨0, { s1 with facet := { cores := (List.range 16).map fun i => (i, { restoring := true }), clusters := [(0, { split := false })] } },
      by decide, by decide, by decide, by decide, by decide⟩⟩

theorem witness_AttachedUnits :
    (∃ (k : CoreId) (sl : Bool) (d : Fin 32) (a : Fin 32) (b : Fin 32) (m : BitVec 9) (s : State), (QuietCore s k)) ∧
    (∃ (k : CoreId) (solve : Bool) (c : UnitCmd) (s : State), ((s.core k).regs.cmds = [c]) ∧ (c.solve = solve) ∧ (c.readErr = false) ∧
      (c.cause = 0) ∧ ((s.core k).dbg.halted = false)) ∧
    (∃ (k : CoreId) (c : UnitCmd) (s : State), ((s.core k).regs.cmds = [c]) ∧ (c.solve = true) ∧ (c.readErr = true)) ∧
    (∃ (k : CoreId) (solve : Bool) (s : State), ((∀ c ∈ (s.core k).regs.cmds, c.solve ≠ solve))) :=
  ⟨ ⟨0, false, 0, 0, 0, 0, s1, by unfold QuietCore; decide⟩,
    ⟨0, false, { solve := false, w := 0, writes := [], board := [], cause := 0, index := 0, dest := 0, addr := 0, readErr := false },
      { s1 with facet := { cores := [(0, { regs := { cmds := [{ solve := false, w := 0, writes := [], board := [], cause := 0, index := 0, dest := 0, addr := 0, readErr := false }] } })] } },
      by decide, by decide, by decide, by decide, by decide⟩,
    ⟨0, { solve := true, w := 0, writes := [], board := [], cause := 0, index := 0, dest := 0, addr := 0, readErr := true },
      { s1 with facet := { cores := [(0, { regs := { cmds := [{ solve := true, w := 0, writes := [], board := [], cause := 0, index := 0, dest := 0, addr := 0, readErr := true }] } })] } },
      by decide, by decide, by decide⟩,
    ⟨0, false, s1, by decide⟩⟩

theorem witness_MillQueues_1 :
    (∃ (slc : SliceId) (src : Fin 1024) (b : List Byte) (s : State), (millSource s src 65535 = false ∨ b.length ≠ 64)) ∧
    (∃ (slc : SliceId) (src : Fin 1024) (b : List Byte) (s : State), (millSource s src 65535 = true) ∧ (b.length = 64) ∧
      (NoTrace s slc) ∧ (refusal s slc (heldDesc b) = 0) ∧ (dHasDeadline (heldDesc b) = false) ∧ (dAtomic (heldDesc b) = false) ∧
      (dWait (heldDesc b) = none)) ∧
    (∃ (slc : SliceId) (src : Fin 1024) (b : List Byte) (n : Nat) (s : State), (millSource s src 65535 = true) ∧ (b.length = 64) ∧
      (NoTrace s slc) ∧ (refusal s slc (heldDesc b) = 0) ∧ (dHasDeadline (heldDesc b) = false) ∧ (dWait (heldDesc b) = some n) ∧
      (((s.slc slc).counter n).count ≠ 0)) ∧
    (∃ (slc : SliceId) (src : Fin 1024) (b : List Byte) (s : State), (millSource s src 65535 = true) ∧ (b.length = 64) ∧
      (NoTrace s slc) ∧ (refusal s slc (heldDesc b) ≠ 0) ∧ (dSucc (heldDesc b) = []) ∧ (mapGet? s.ev.rate (rateKey 0x0806 slc) = none) ∧
      (Room 1 s)) ∧
    (∃ (k : Fin 65536) (n : BitVec 16) (src : Fin 1024) (s : State), (millSource s src 65535 = true) ∧ (n ≠ 0)) ∧
    (∃ (k : Fin 65536) (n : BitVec 16) (src : Fin 1024) (s : State), (millSource s src 65535 = false)) ∧
    (∃ (k : Fin 65536) (src : Fin 1024) (q : Nat) (it : Item) (s : State), (millSource s src 65535 = true) ∧ (NoTrace s (k / 16384)) ∧
      (parkedOn (s.slc (k / 16384)) k = [q]) ∧ (mapGet? (s.slc (k / 16384)).items q = some it) ∧ (dAtomic it.desc = false)) ∧
    (∃ (k : Fin 65536) (st : Fin 4) (src : Fin 4) (s : State), (((s.slc (k / 16384)).counter k).count = 0) ∧ (Room 1 s)) :=
  ⟨ ⟨0, 0, [], s1, by decide⟩,
    ⟨0, 256, desc [], s1, by decide, by decide, by decide, by decide, by decide, by decide, by decide⟩,
    ⟨0, 256, desc [(30, 1)], 0, { s1 with mill := { slices := [(0, { counters := [(0, { count := 2 })] })] } }, by decide, by decide,
      by decide, by decide, by decide, by decide, by decide⟩,
    ⟨0, 256, desc [(11, 7)], s1, by decide, by decide, by decide, by decide, by decide, by decide, by decide⟩,
    ⟨0, 5, 256, s1, by decide, by decide⟩,
    ⟨0, 0, 0, s1, by decide⟩,
    ⟨0, 256, 3, { desc := desc [(30, 1)], place := 0, cls := 6 },
      { s1 with mill := { slices := [(0, { items := [(3, { desc := desc [(30, 1)], place := 0, cls := 6 })], counters := [(0, { count := 2 })] })] } },
      by decide, by decide, by decide, by decide, by decide⟩,
    ⟨0, 0, 0, s1, by decide, by decide⟩⟩

theorem witness_MillQueues_2 :
    (∃ (k : Fin 65536) (st : Fin 4) (src : Fin 4) (s : State), (1 < ((s.slc (k / 16384)).counter k).count)) ∧
    (∃ (k : Fin 65536) (st : Fin 4) (src : Fin 4) (q : Nat) (it : Item) (s : State), (((s.slc (k / 16384)).counter k).count = 1) ∧
      (NoTrace s (k / 16384)) ∧ (parkedOn (s.slc (k / 16384)) k = [q]) ∧ (mapGet? (s.slc (k / 16384)).items q = some it) ∧
      (dAtomic it.desc = false)) ∧
    (∃ (slc : SliceId) (f : Fin 8388608) (s : State), (f.val ∉ (s.slc slc).fetching)) ∧
    (∃ (slc : SliceId) (f : Fin 8388608) (q : Nat) (it : Item) (s : State), (f.val ∈ (s.slc slc).fetching) ∧
      (f.val ∉ (s.slc slc).flows) ∧ ((s.slc slc).flows.length < 16384) ∧ ((s.slc slc).items = [(q, it)]) ∧ (it.place = 2) ∧
      (dFlow it.desc = f) ∧ (dAtomic it.desc = true) ∧ (((flowAddr s slc f).bind fun a => extRead s a 8).isSome = true)) :=
  ⟨ ⟨0, 0, 0, { s1 with mill := { slices := [(0, { counters := [(0, { count := 2 })] })] } }, by decide⟩,
    ⟨0, 0, 0, 3, { desc := desc [(30, 1)], place := 0, cls := 6 },
      { s1 with mill := { slices := [(0, { items := [(3, { desc := desc [(30, 1)], place := 0, cls := 6 })], counters := [(0, { count := 1 })] })] } },
      by decide, by decide, by decide, by decide, by decide⟩,
    ⟨0, 0, s1, by decide⟩,
    ⟨0, 0, 3, { desc := desc [(11, 128)], place := 2, cls := 6 },
      { pars (mem1 1 []) [(0x080B, 0, 0x10000000)] with mill := { slices := [(0, { items := [(3, { desc := desc [(11, 128)], place := 2, cls := 6 })], fetching := [0] })] } },
      by decide, by decide, by decide, by decide, by decide, by decide, by decide, by decide⟩⟩

theorem witness_MillDispatch_1 :
    (∃ (slc : SliceId) (q : Nat) (k : Nat) (it : Item) (s : State), (NoTrace s slc) ∧ (Decides s slc) ∧ ((s.slc slc).items = [(q, it)]) ∧
      (it.place = 3) ∧ (Settled s slc it) ∧ (NoneArriving s slc) ∧ (FirstIdle s slc it k) ∧ (dEstimate it.desc = false)) ∧
    (∃ (slc : SliceId) (q : Nat) (q' : Nat) (k : Nat) (it : Item) (it' : Item) (s : State), (NoTrace s slc) ∧ (Decides s slc) ∧
      (q < q') ∧ ((s.slc slc).items = [(q, it), (q', it')]) ∧ (it.place = 3) ∧ (it'.place = 3) ∧ (Settled s slc it) ∧
      (Settled s slc it') ∧ (it.cls < it'.cls) ∧ (NoneArriving s slc) ∧ (FirstIdle s slc it' k) ∧ (dEstimate it'.desc = false)) ∧
    (∃ (slc : SliceId) (n : Nat) (s : State), (Decides s slc) ∧ ((s.slc slc).items = []) ∧ (s.param 0x0808 slc = 1) ∧
      ((idleMasks s slc).1 ≠ 0) ∧ ((∀ r ∈ s.mill.stealReqs, r.thief ≠ slc.val)) ∧ (NoneArriving s slc)) ∧
    (∃ (slc : SliceId) (k : Fin 3) (s : State), (Decides s slc) ∧ ((s.slc slc).items = []) ∧ (s.param 0x0808 slc ≠ 1) ∧
      (excludedCopy s slc = none) ∧ (NoneArriving s slc) ∧ (Room 1 s)) ∧
    (∃ (slc : SliceId) (s : State), ((s.slc slc).fails < 2) ∧ (Room 1 s)) ∧
    (∃ (slc : SliceId) (q : Nat) (k : Fin 65536) (n : BitVec 16) (st : Fin 4) (src : Fin 1024) (o : Fin 4) (f : Fin 8388608) (i : Instr) (s : State),
      (k.val / 16384 = slc.val) ∧ ((s.slc slc).fails < 2) ∧ (Room 1 s) ∧ (i ∈ [Instr.counterSet k n ⟨src, .fail⟩,
      .counterDecrement k st ⟨o, .fail⟩, .flowEntryFetched slc ⟨f, .fail⟩, .stealRequest ⟨slc, .fail⟩, .promotion slc ⟨q, .fail⟩,
      .urgencyEntry slc ⟨q, .fail⟩, .late slc ⟨q, .fail⟩])) ∧
    (∃ (v : SliceId) (s : State), ((∀ r ∈ s.mill.stealReqs, r.victim ≠ v.val) ∨ (s.slc v).answered = true)) ∧
    (∃ (v : SliceId) (r : StealReq) (s : State), (s.mill.stealReqs = [r]) ∧ (r.victim = v.val) ∧ ((s.slc v).items = []) ∧
      ((s.slc v).answered = false) ∧ (NoneArriving s v)) :=
  ⟨ ⟨0, 3, 0, (ready []), holds 3 (ready []), by decide, by decide, by decide, by decide, by decide, by decide, by decide, by decide⟩,
    ⟨0, 3, 4, 0, { ready [] with cls := 2 }, { ready [] with cls := 6 },
      { (s1.setParam 0x0802 2 0) with mill := { slices := [(0, { items := [(3, { ready [] with cls := 2 }), (4, { ready [] with cls := 6 })] })] }, facet := { cores := [(0, { waiting := true })] } },
      by decide, by decide, by decide, by decide, by decide, by decide, by decide, by decide, by decide, by decide, by decide, by decide⟩,
    ⟨0, 1, { s1 with facet := { cores := [(0, { waiting := true })] } }, by decide, by decide, by decide, by decide, by decide, by decide⟩,
    ⟨0, 0, s1.setParam 0x0808 0 0, by decide, by decide, by decide, by decide, by decide, by decide⟩,
    ⟨0, s1, by decide, by decide⟩,
    ⟨0, 0, 0, 0, 0, 0, 0, 0, (.counterDecrement 0 0 ⟨0, .fail⟩), s1, by decide, by decide, by decide, by decide⟩,
    ⟨0, s1, by decide⟩,
    ⟨0, { thief := 1, victim := 0, clusters := 1, units := 1 },
      { s1 with mill := { stealReqs := [{ thief := 1, victim := 0, clusters := 1, units := 1 }] } }, by decide, by decide, by decide,
      by decide, by decide⟩⟩

theorem witness_MillDispatch_2 :
    (∃ (v : SliceId) (r : StealReq) (q : Nat) (it : Item) (s : State), (s.mill.stealReqs = [r]) ∧ (r.victim = v.val) ∧
      (s.boot.devState ≠ 4) ∧ ((s.slc v).items = [(q, it)]) ∧ (it.place = 3) ∧ (Settled s v it) ∧ (dTarget it.desc = 0) ∧
      (dSteal it.desc = true) ∧ (dAtomic it.desc = false) ∧ (stealMatch r it.desc = true) ∧ ((∀ k ∈ eligible v it.desc,
      unitIdle s k = false)) ∧ ((eligible r.thief it.desc).any (fun k => unitIdle s k) = true) ∧ ((s.slc v).answered = false) ∧
      (NoneArriving s v)) ∧
    (∃ (h : SliceId) (s : State), (NoneArriving s h) ∧ ((s.slc h).items = [])) ∧
    (∃ (h : SliceId) (v : Nat) (k : Nat) (it : Item) (s : State), (NoTrace s h) ∧ (mapGet? s.mill.grants h = some (v, it)) ∧
      (dueActions s h = s) ∧ (s.boot.devState ≠ 4) ∧ (FirstIdle s h it k) ∧ (dEstimate it.desc = false)) ∧
    (∃ (slc : SliceId) (q : Nat) (it : Item) (s : State), (NoTrace s slc) ∧ (mapGet? (s.slc slc).items q = some it) ∧
      (it.place = 1 ∨ it.place = 2 ∨ it.place = 3) ∧ (it.cls ≤ 5) ∧ (s.param 0x0802 (slc * 6 + it.cls) ≠ 0) ∧
      (reached (s.localNow 2 slc) (it.classAt + s.param 0x0802 (slc * 6 + it.cls)) = true)) ∧
    (∃ (slc : SliceId) (q : Nat) (it : Item) (s : State), (mapGet? (s.slc slc).items q = some it) ∧ (it.place = 0)) ∧
    (∃ (slc : SliceId) (q : Nat) (it : Item) (s : State), (NoTrace s slc) ∧ (mapGet? (s.slc slc).items q = some it) ∧ (it.place ≠ 4) ∧
      (dHasDeadline it.desc = true) ∧ (it.cls ≠ 7) ∧ (dDeadline it.desc ≤ s.localNow 2 slc + s.param 0x0801 0)) ∧
    (∃ (slc : SliceId) (q : Nat) (it : Item) (s : State), (mapGet? (s.slc slc).items q = some it) ∧
      (it.place = 4 ∨ dHasDeadline it.desc = false ∨ it.late = true)) ∧
    (∃ (slc : SliceId) (q : Nat) (it : Item) (s : State), (NoTrace s slc) ∧ (mapGet? (s.slc slc).items q = some it) ∧ (it.place ≠ 4) ∧
      (dHasDeadline it.desc = true) ∧ (it.late = false) ∧ (reached (s.localNow 2 slc) (dDeadline it.desc) = true) ∧
      (dPolicy it.desc ≠ 1) ∧ (dCarrier it.desc ≠ 0xFFFF)) :=
  ⟨ ⟨0, { thief := 1, victim := 0, clusters := 1, units := 1 }, 3, (ready [(11, 64)]),
    { s1 with mill := { slices := [(0, { items := [(3, ready [(11, 64)])] })], stealReqs := [{ thief := 1, victim := 0, clusters := 1, units := 1 }] }, facet := { cores := [(256, { waiting := true })] } },
    by decide, by decide, by decide, by decide, by decide, by decide, by decide, by decide, by decide, by decide, by decide, by decide,
    by decide, by decide⟩,
    ⟨0, s1, by decide, by decide⟩,
    ⟨0, 1, 0, (ready []), { s1 with mill := { grants := [(0, (1, ready []))] }, facet := { cores := [(0, { waiting := true })] } },
      by decide, by decide, by decide, by decide, by decide, by decide⟩,
    ⟨0, 3, { desc := desc [], place := 3, cls := 2 },
      { at1 (10 ^ 6) with mill := { slices := [(0, { items := [(3, { desc := desc [], place := 3, cls := 2 })] })] } }, by decide,
      by decide, by decide, by decide, by decide, by decide⟩,
    ⟨0, 3, { desc := desc [(30, 1)], place := 0, cls := 6 },
      { at1 (10 ^ 6) with mill := { slices := [(0, { items := [(3, { desc := desc [(30, 1)], place := 0, cls := 6 })] })] } }, by decide,
      by decide⟩,
    ⟨0, 3, { desc := desc [(11, 32)], place := 3, cls := 6 },
      { at1 (10 ^ 6) with mill := { slices := [(0, { items := [(3, { desc := desc [(11, 32)], place := 3, cls := 6 })] })] } },
      by decide, by decide, by decide, by decide, by decide, by decide⟩,
    ⟨0, 3, (ready []), { at1 (10 ^ 6) with mill := { slices := [(0, { items := [(3, (ready []))] })] } }, by decide, by decide⟩,
    ⟨0, 3, { desc := desc [(11, 32), (32, 0), (33, 0)], place := 3, cls := 6 },
      { at1 (10 ^ 6) with mill := { slices := [(0, { items := [(3, { desc := desc [(11, 32), (32, 0), (33, 0)], place := 3, cls := 6 })] })] } },
      by decide, by decide, by decide, by decide, by decide, by decide, by decide, by decide⟩⟩

theorem witness_MillDispatch_3 : ∃ (slc : SliceId) (q : Nat) (it : Item) (s : State), (NoTrace s slc) ∧
  (mapGet? (s.slc slc).items q = some it) ∧ (it.place ≠ 4) ∧ (dHasDeadline it.desc = true) ∧ (it.late = false) ∧
  (reached (s.localNow 2 slc) (dDeadline it.desc) = true) ∧ (dPolicy it.desc = 1) ∧ (dCarrier it.desc = 0xFFFF) ∧ (Alone it) :=
  ⟨0, 3, { desc := desc [(11, 40)], place := 3, cls := 6 },
    { at1 (10 ^ 6) with mill := { slices := [(0, { items := [(3, { desc := desc [(11, 40)], place := 3, cls := 6 })] })] } }, by decide,
    by decide, by decide, by decide, by decide, by decide, by decide, by decide, by decide⟩

theorem witness_MillService_1 :
    (∃ (c : CarrierId) (slot : Int) (s : State), (s.carrierActive c = false)) ∧
    (∃ (c : CarrierId) (slot : Int) (h : TierHist) (s : State), (s.carrierActive c = true) ∧ (NoMiss s c slot) ∧
      (mapGet s.mill.tierHist c {} = h) ∧ (tierOf s (c % 4) c ≤ s.param 0x0806 c) ∧
      (((((false :: h.slots).take 64).take (s.param 0x0803 0)).filter fun b => b).length < s.paramMill (c % 4) 0x0804 0) ∧
      (h.clean + 1 < s.param 0x0805 0)) ∧
    (∃ (c : CarrierId) (slot : Int) (h : TierHist) (s : State), (s.carrierActive c = true) ∧ (NoMiss s c slot) ∧ (NoTrace s (c % 4)) ∧
      (mapGet s.mill.tierHist c {} = h) ∧ (tierOf s (c % 4) c ≤ s.param 0x0806 c) ∧ (0 < tierOf s (c % 4) c) ∧
      (((((false :: h.slots).take 64).take (s.param 0x0803 0)).filter fun b => b).length < s.paramMill (c % 4) 0x0804 0) ∧
      (s.param 0x0805 0 ≤ h.clean + 1) ∧ (Room 1 s)) ∧
    (∃ (c : CarrierId) (slot : Int) (sl : Int) (h : TierHist) (i : Nat) (p : Nat) (s : State), (s.carrierActive c = true) ∧ (i < 4) ∧
      (p < 3) ∧ (sl ≤ slot) ∧ ((s.slc i).misses = [(c.val, sl, p)]) ∧ ((∀ j, j < 4 → j ≠ i → (s.slc j).misses = [])) ∧
      (NoTrace s (c % 4)) ∧ (mapGet s.mill.tierHist c {} = h) ∧ (tierOf s (c % 4) c < s.param 0x0806 c) ∧
      (s.paramMill (c % 4) 0x0804 0 ≤ ((((true :: h.slots).take 64).take (s.param 0x0803 0)).filter fun b => b).length) ∧ (Room 2 s)) ∧
    (∃ (slc : SliceId) (c : CarrierId) (s : State), ((∀ m ∈ s.mill.tierMsgs, m.slc ≠ slc.val ∨ m.carrier ≠ c.val))) ∧
    (∃ (slc : SliceId) (c : CarrierId) (n : Nat) (a : Nat) (l : List TierMsg) (s : State),
      (s.mill.tierMsgs = { slc := slc, carrier := c, tier := n, at_ := a } :: l)) ∧
    (∃ (slc : SliceId) (s : State), ((s.slc slc).lateNone = [0, 0, 0])) ∧
    (∃ (slc : SliceId) (a : Nat) (b : Nat) (c : Nat) (s : State), ((s.slc slc).lateNone = [a, b, c]) ∧ (a + b + c ≠ 0) ∧ (Room 1 s)) :=
  ⟨ ⟨0, 0, s1, by decide⟩,
    ⟨0, 0, {}, (pars s1 [(0x1001, 0, 1), (0x0803, 0, 1), (0x0804, 0, 1)]), by decide, by decide, by decide, by decide, by decide,
      by decide⟩,
    ⟨0, 0, { clean := 63 },
      { (pars s1 [(0x1001, 0, 1), (0x0803, 0, 1), (0x0804, 0, 1)]) with mill := { tierHist := [(0, { clean := 63 })], slices := [(0, { tiers := [(0, 1)] })] } },
      by decide, by decide, by decide, by decide, by decide, by decide, by decide, by decide, by decide⟩,
    ⟨0, 0, 0, {}, 1, 0, { (pars s1 [(0x1001, 0, 1), (0x0803, 0, 1), (0x0804, 0, 1)]) with mill := { slices := [(1, { misses := [(0, 0, 0)] })] } },
      by decide, by decide, by decide, by decide, by decide, by decide, by decide, by decide, by decide, by decide, by decide⟩,
    ⟨0, 0, s1, by decide⟩,
    ⟨0, 0, 2, 0, [], { s1 with mill := { tierMsgs := [{ slc := 0, carrier := 0, tier := 2, at_ := 0 }] } }, by decide⟩,
    ⟨0, s1, by decide⟩,
    ⟨0, 1, 0, 2, { s1 with mill := { slices := [(0, { lateNone := [1, 0, 2] })] } }, by decide, by decide, by decide⟩⟩

theorem witness_MillService_2 :
    (∃ (slc : SliceId) (q : Nat) (it : Item) (a : Nat) (b : Nat) (c : Nat) (s : State), ((s.slc slc).lateCheck = [a, b, c]) ∧
      ((s.slc slc).items = [(q, it)]) ∧ (Settled s slc it) ∧ (NoneArriving s slc) ∧ ((∀ m ∈ s.fab.flight, m.vc ≠ 3)) ∧ (Room 1 s)) ∧
    (∃ (k : CoreId) (s : State), (mapGet? s.mill.drains k = none)) ∧
    (∃ (k : CoreId) (d : Nat) (q : Nat) (s : State), (mapGet? s.mill.drains k = some d) ∧ (runningOn s k = some q) ∧
      (mapGet? s.mill.aborts k = none) ∧ (s.param 0x1603 0 ≠ 1) ∧ (reached s.now (d + s.param 0x0809 0) = true)) ∧
    (∃ (k : CoreId) (s : State), (mapGet? s.mill.aborts k = none)) ∧
    (∃ (k : CoreId) (a : Nat) (q : Nat) (it : Item) (s : State), (mapGet? s.mill.aborts k = some a) ∧ ((s.slc (k / 256)).items = [(q,
      it)]) ∧ (it.place = 4) ∧ (it.unit = k.val) ∧ (Alone it) ∧ (NoTrace s (k / 256)) ∧ (s.param 0x1603 0 ≠ 1) ∧
      (reached s.now (a + s.param 0x080A 0) = true) ∧ (Room 2 s)) :=
  ⟨ ⟨0, 3, { ready [] with place := 4 }, 0, 1, 0,
    { s1 with mill := { slices := [(0, { items := [(3, { ready [] with place := 4 })], lateCheck := [0, 1, 0] })] } }, by decide,
    by decide, by decide, by decide, by decide, by decide⟩,
    ⟨0, s1, by decide⟩,
    ⟨0, 0, 3, { at1 (10 ^ 6) with mill := { slices := [(0, { items := [(3, { ready [] with place := 4 })] })], drains := [(0, 0)], aborts := [] } },
      by decide, by decide, by decide, by decide, by decide⟩,
    ⟨0, s1, by decide⟩,
    ⟨0, 0, 3, { ready [] with place := 4 },
      { at1 (10 ^ 6) with mill := { slices := [(0, { items := [(3, { ready [] with place := 4 })] })], drains := [(0, 0)], aborts := [(0, 0)] } },
      by decide, by decide, by decide, by decide, by decide, by decide, by decide, by decide, by decide⟩⟩

theorem witness_CloveJobsBegin_1 :
    (∃ (ty : Nat) (u : CloveId) (e : CloveIn) (s : State), (mapGet? s.mill.deliveries (cloveKey u) = none)) ∧
    (∃ (ty : Nat) (u : CloveId) (e : CloveIn) (s : State), (1 ≤ ty) ∧ (ty ≤ 7) ∧ (classRuns (cloveTarget u) ty = false)) ∧
    (∃ (u : CloveId) (q : Nat) (d : List Byte) (r : List Byte) (inp : List Byte) (s : State), (JobReady s u 1 q d r inp) ∧ (jSb r = 0)) ∧
    (∃ (u : CloveId) (q : Nat) (d : List Byte) (r : List Byte) (inp : List Byte) (s : State), (JobReady s u 2 q d r inp)) ∧
    (∃ (u : CloveId) (q : Nat) (d : List Byte) (r : List Byte) (inp : List Byte) (s : State), (JobReady s u 3 q d r inp)) ∧
    (∃ (u : CloveId) (q : Nat) (d : List Byte) (r : List Byte) (inp : List Byte) (s : State), (JobReady s u 4 q d r inp)) ∧
    (∃ (u : CloveId) (q : Nat) (k : Nat) (f : Nat) (d : List Byte) (r : List Byte) (inp : List Byte) (s : State),
      (JobReady s u 5 q d r inp) ∧ (jSb r = 0) ∧ (turboSegments (rd r 48 4 + 24) = ([k], f))) ∧
    (∃ (u : CloveId) (q : Nat) (k : Nat) (f : Nat) (d : List Byte) (r : List Byte) (inp : List Byte) (s : State),
      (JobReady s u 6 q d r inp) ∧ (turboSegments (withCrc 2 (bitsFrom inp (rd r 48 4))).length = ([k], f))) :=
  ⟨ ⟨1, 0, cleanIn, s1, by decide⟩,
    ⟨2, 0, cleanIn, s1, by decide, by decide, by decide⟩,
    ⟨0, 3, (desc [(5, 2)]), (jobRec [(0, 1), (2, 1), (40, 2), (41, 2), (42, 2), (44, 12), (48, 8)]), (List.replicate 8 0),
      jobAt 0 (jobRec [(0, 1), (2, 1), (40, 2), (41, 2), (42, 2), (44, 12), (48, 8)]), by decide, by decide⟩,
    ⟨64, 3, (desc [(5, 2)]), (jobRec [(0, 2), (40, 2), (41, 2), (42, 1), (48, 24), (52, 48)]), (List.replicate 3 0),
      jobAt 64 (jobRec [(0, 2), (40, 2), (41, 2), (42, 1), (48, 24), (52, 48)]), by decide⟩,
    ⟨96, 3, (desc [(5, 2)]), (jobRec [(0, 3), (40, 1), (42, 12), (48, 40)]), (List.replicate 40 0), jobAt 96 (jobRec [(0, 3), (40, 1),
      (42, 12), (48, 40)]), by decide⟩,
    ⟨96, 3, (desc [(5, 2)]), (jobRec [(0, 4), (40, 1), (42, 12), (48, 40)]), (List.replicate 2 0), jobAt 96 (jobRec [(0, 4), (40, 1),
      (42, 12), (48, 40)]), by decide⟩,
    ⟨112, 3, 40, 0, (desc [(5, 2)]), (jobRec [(0, 5), (2, 1), (40, 2), (41, 1), (48, 16), (52, 132), (56, 132)]), (List.replicate 132 0),
      jobAt 112 (jobRec [(0, 5), (2, 1), (40, 2), (41, 1), (48, 16), (52, 132), (56, 132)]), by decide, by decide, by decide⟩,
    ⟨112, 3, 40, 0, (desc [(5, 2)]), (jobRec [(0, 6), (40, 2), (41, 1), (48, 16), (52, 132)]), (List.replicate 2 0),
      jobAt 112 (jobRec [(0, 6), (40, 2), (41, 1), (48, 16), (52, 132)]), by decide, by decide⟩⟩

theorem witness_CloveJobsBegin_2 :
    (∃ (u : CloveId) (q : Nat) (d : List Byte) (r : List Byte) (inp : List Byte) (s : State), (JobReady s u 7 q d r inp) ∧
      (rd r 40 1 = 1)) ∧
    (∃ (ty : Nat) (u : CloveId) (q : Nat) (it : Item) (d : List Byte) (e : CloveIn) (s : State), (1 ≤ ty) ∧ (ty ≤ 7) ∧
      (classRuns (cloveTarget u) ty = true) ∧ (mapGet? s.mill.deliveries (cloveKey u) = some d) ∧ (deliveredItem s u = some q) ∧
      (mapGet? s.clove.jobs (2 * u.val) = none) ∧ (jobRead s u (rd d 0 8) 64 = none) ∧ (rd d 0 8 % 64 ≠ 0) ∧ (SoleItem s u q it) ∧
      (mapGet? s.ev.rate (rateKey 0x0901 u) = none) ∧ (Room 1 s)) ∧
    (∃ (ty : Nat) (u : CloveId) (q : Nat) (n : Nat) (it : Item) (d : List Byte) (r : List Byte) (e : CloveIn) (s : State), (1 ≤ ty) ∧
      (ty ≤ 7) ∧ (mapGet? s.mill.deliveries (cloveKey u) = some d) ∧ (deliveredItem s u = some q) ∧ (rd d 0 8 % 64 = 0) ∧
      (jobPlace s u (rd d 0 8) 64 ≠ .bad) ∧ (jobRead s u (rd d 0 8) 64 = some r) ∧ (jTy r = ty) ∧ (classRuns (cloveTarget u) ty = true) ∧
      (recordCheck s u r = n) ∧ (n ≠ 0) ∧ (resultOk s u r = false) ∧ (e.recordBad = false) ∧ (e.recordFixed = []) ∧ (SoleItem s u q it) ∧
      (mapGet? s.clove.jobs (pathKey u (ty = 6)) = none) ∧ (mapGet? s.ev.rate (rateKey 0x0901 u) = none) ∧ (Room 1 s)) :=
  ⟨ ⟨0, 3, (desc [(5, 2)]), (jobRec [(0, 7), (40, 1), (42, 24), (48, 24)]), (List.replicate 3 0), jobAt 0 (jobRec [(0, 7), (40, 1), (42,
    24), (48, 24)]), by decide, by decide⟩,
    ⟨1, 0, 3, { desc := desc [(0, 1)], place := 4, cls := 6, unit := 1024 }, (desc [(0, 1)]), cleanIn,
      { s1 with mill := { slices := [(0, { items := [(3, { desc := desc [(0, 1)], place := 4, cls := 6, unit := 1024 })] })], deliveries := [(1024, desc [(0, 1)])] } },
      by decide, by decide, by decide, by decide, by decide, by decide, by decide, by decide, by decide, by decide, by decide⟩,
    ⟨1, 0, 3, 2, { desc := desc [(5, 2)], place := 4, cls := 6, unit := 1024 }, (desc [(5, 2)]), (sparse 64 [(0, 1)]), cleanIn,
      jobAt 0 (sparse 64 [(0, 1)]), by decide, by decide, by decide, by decide, by decide, by decide, by decide, by decide, by decide,
      by decide, by decide, by decide, by decide, by decide, by decide, by decide, by decide, by decide⟩⟩

theorem witness_CloveJobsEnd :
    (∃ (u : CloveId) (q : Nat) (d : List Byte) (r : List Byte) (e : CloveIn) (s : State),
      (mapGet? s.mill.deliveries (cloveKey u) = some d) ∧ (deliveredItem s u = some q) ∧ (112 ≤ u.val) ∧
      (jobRead s u (rd d 0 8) 64 = some r) ∧ (jTy r = 6) ∧ ((mapGet? s.clove.jobs (2 * u.val + 1)).isSome = true)) ∧
    (∃ (u : CloveId) (enc : Bool) (e : CloveIn) (s : State),
      (u.val < 112 ∨ (mapGet? s.clove.jobs (2 * u.val + (if enc then 1 else 0))).isSome = true ∨ s.clove.queued = [])) ∧
    (∃ (u : CloveId) (q : Nat) (k : Nat) (f : Nat) (c : JobCaps) (d : List Byte) (r : List Byte) (inp : List Byte) (s : State),
      (112 ≤ u.val) ∧ (mapGet? s.clove.jobs (2 * u.val + 1) = none) ∧
      (s.clove.queued = [{ key := 2 * u.val + 1, slc := unitSlice (cloveKey u), item := q, desc := d, caps := c }]) ∧
      (rd d 0 8 % 64 = 0) ∧ (jobPlace s u (rd d 0 8) 64 ≠ .bad) ∧ (jobRead s u (rd d 0 8) 64 = some r) ∧ (jTy r = 6) ∧ (Passes s u r) ∧
      (jobRead s u (jIn r) (jInLen r) = some inp) ∧ (turboSegments (withCrc 2 (bitsFrom inp (rd r 48 4))).length = ([k], f))) ∧
    (∃ (u : CloveId) (enc : Bool) (a : Bool) (b : Bool) (s : State), (mapGet? s.clove.jobs (pathKey u enc) = none)) ∧
    (∃ (u : CloveId) (enc : Bool) (a : Bool) (b : Bool) (j : CloveJob) (s : State), (mapGet? s.clove.jobs (pathKey u enc) = some j) ∧
      (reached s.now j.until_ = false)) ∧
    (∃ (u : CloveId) (enc : Bool) (j : CloveJob) (a : Nat) (k : Nat) (off : Nat) (off' : Nat) (bs : List Byte) (it : Item) (s : State),
      (mapGet? s.clove.jobs (pathKey u enc) = some j) ∧ (reached s.now j.until_ = true) ∧ (j.outs = [(a, bs)]) ∧ (j.sb = .none) ∧
      (jobPlace s u a bs.length = .core k off) ∧ (jobPlace s u (jResult j.rec_) 32 = .core k off') ∧ (jResult j.rec_ % 32 = 0) ∧
      (badTouched (s.bank (bankKey 0 k)) off bs.length = []) ∧ (badTouched (s.bank (bankKey 0 k)) off' 32 = []) ∧
      (s.domainOn (k / 16) = true) ∧ (j.slc = unitSlice (cloveKey u)) ∧ (SoleItem s u j.item it)) ∧
    (∃ (u : CloveId) (enc : Bool) (b : Bool) (j : CloveJob) (it : Item) (s : State), (mapGet? s.clove.jobs (pathKey u enc) = some j) ∧
      (reached s.now j.until_ = true) ∧ (resultOk s u j.rec_ = false) ∧ (j.slc = unitSlice (cloveKey u)) ∧ (SoleItem s u j.item it) ∧
      (mapGet? s.ev.rate (rateKey 0x0901 u) = none) ∧ (Room 1 s)) :=
  ⟨ ⟨112, 3, (desc [(5, 2)]), (jobRec [(0, 6), (40, 2), (41, 1), (48, 16), (52, 132)]), cleanIn,
    { jobAt 112 (jobRec [(0, 6), (40, 2), (41, 1), (48, 16), (52, 132)]) with clove := { jobs := [(225, { slc := 0, item := 4, desc := desc [(5, 2)], rec_ := [], until_ := 0 })] } },
    by decide, by decide, by decide, by decide, by decide, by decide⟩,
    ⟨0, false, cleanIn, s1, by decide⟩,
    ⟨112, 3, 40, 0, {}, (desc [(5, 2)]), (jobRec [(0, 6), (40, 2), (41, 1), (48, 16), (52, 132)]), (List.replicate 2 0),
      { jobAt 112 (jobRec [(0, 6), (40, 2), (41, 1), (48, 16), (52, 132)]) with clove := { queued := [{ key := 225, slc := 0, item := 3, desc := desc [(5, 2)], caps := {} }] } },
      by decide, by decide, by decide, by decide, by decide, by decide, by decide, by decide, by decide, by decide⟩,
    ⟨0, false, false, false, s1, by decide⟩,
    ⟨0, false, false, false, { slc := 0, item := 3, desc := desc [(5, 2)], rec_ := [], until_ := 5 },
      { s1 with clove := { jobs := [(0, { slc := 0, item := 3, desc := desc [(5, 2)], rec_ := [], until_ := 5 })] } }, by decide,
      by decide⟩,
    ⟨0, false, { slc := 0, item := 3, desc := desc [(5, 2)], rec_ := jobRec [], until_ := 0, outs := [(0x20000000800, [1])] },
      0x20000000800, 0, 0x800, 0x400, [1], { desc := desc [(5, 2)], place := 4, cls := 6, unit := 1024 },
      { jobAt 0 [] with clove := { jobs := [(0, { slc := 0, item := 3, desc := desc [(5, 2)], rec_ := jobRec [], until_ := 0, outs := [(0x20000000800, [1])] })] } },
      by decide, by decide, by decide, by decide, by decide, by decide, by decide, by decide, by decide, by decide, by decide, by decide⟩,
    ⟨0, false, false, { slc := 0, item := 3, desc := desc [(5, 2)], rec_ := sparse 64 [], until_ := 0 },
      { desc := desc [(5, 2)], place := 4, cls := 6, unit := 1024 },
      { jobAt 0 [] with clove := { jobs := [(0, { slc := 0, item := 3, desc := desc [(5, 2)], rec_ := sparse 64 [], until_ := 0 })] } },
      by decide, by decide, by decide, by decide, by decide, by decide, by decide⟩⟩

theorem witness_FabricRequests_1 :
    (∃ (m : FabMsg) (k : Nat) (off : Nat) (s : State), (Arrives s m 1 (.core k off)) ∧ (badTouched (s.bank (bankKey 0 k)) off m.len = [])) ∧
    (∃ (m : FabMsg) (k : Nat) (off : Nat) (w : Nat) (l : List Nat) (s : State), (Arrives s m 1 (.core k off)) ∧ (m.vc ≠ 3) ∧
      (badTouched (s.bank (bankKey 0 k)) off m.len = w :: l) ∧ (mapGet? s.ev.rate (rateKey 0x0B06 k) = none) ∧ (Room 1 s)) ∧
    (∃ (m : FabMsg) (u : Nat) (off : Nat) (s : State), (Arrives s m 1 (.clove u off)) ∧ (off < cloveBankSize u / 2) ∧
      (m.src ≠ cloveNode u)) ∧
    (∃ (m : FabMsg) (h : Nat) (a : Nat) (s : State), (Arrives s m 1 (.host h a)) ∧ (m.chan < 768) ∧ ((s.hp h).linkUp = true)) ∧
    (∃ (m : FabMsg) (off : Nat) (s : State), (Arrives s m 1 (.dram false off)) ∧ (memAccess s m false off false = 0) ∧
      (s.mem.waits.any (waitFor (pageOf off)) = false) ∧ (cacheHit s off m.len = true)) ∧
    (∃ (m : FabMsg) (off : Nat) (s : State), (Arrives s m 1 (.dram false off)) ∧ (memAccess s m false off false = 0) ∧
      (s.mem.waits.any (waitFor (pageOf off)) = false) ∧ (cacheHit s off m.len = false)) ∧
    (∃ (m : FabMsg) (k : Nat) (off : Nat) (s : State), (Arrives s m 2 (.core k off)) ∧ (m.vc ≠ 3) ∧ (m.poison = false) ∧
      (m.data.length = m.len) ∧ (badTouched (s.bank (bankKey 0 k)) off m.len = [])) ∧
    (∃ (m : FabMsg) (k : Nat) (off : Nat) (e : BankEcc) (s : State), (Arrives s m 2 (.core k off)) ∧ (m.vc ≠ 3) ∧ (m.poison = true) ∧
      (Room 1 s)) :=
  ⟨ ⟨(toCore 1), 0, 0, { s1 with fab := { flight := [toCore 1] } }, by decide, by decide⟩,
    ⟨(toCore 1), 0, 0, 0, [], { s1 with fab := { banks := [(bankKey 0 0, { bad := [0] })] } }, by decide, by decide, by decide,
      by decide, by decide⟩,
    ⟨{ toCore 1 with addr := 0x20010000000, dst := 272 }, 0, 0, s1, by decide, by decide, by decide⟩,
    ⟨{ toCore 1 with addr := 0x8000000000000000, chan := 0 }, 0, 0, hp0 up0, by decide, by decide, by decide⟩,
    ⟨toDram, 0x10000000,
      { mem1 1 [] with mem := { (mem1 1 []).mem with cache0 := [{ page := 131072, valid := 0xFFFFFFFF, dirty := 0 }], cache1 := [{ page := 131072, valid := 0xFFFFFFFF, dirty := 0 }] } },
      by decide, by decide, by decide, by decide⟩,
    ⟨toDram, 0x10000000, mem1 1 [], by decide, by decide, by decide, by decide⟩,
    ⟨(toCore 2), 0, 0, s1, by decide, by decide, by decide, by decide, by decide⟩,
    ⟨{ toCore 2 with poison := true }, 0, 0, calm, s1, by decide, by decide, by decide, by decide⟩⟩

theorem witness_FabricRequests_2 :
    (∃ (m : FabMsg) (k : Nat) (off : Nat) (s : State), (Arrives s m 3 (.core k off)) ∧ (badTouched (s.bank (bankKey 0 k)) off m.len = [])) ∧
    (∃ (m : FabMsg) (k : Nat) (off : Nat) (s : State), (Arrives s m 4 (.core k off)) ∧ (badTouched (s.bank (bankKey 0 k)) off m.len = [])) ∧
    (∃ (m : FabMsg) (off : Nat) (raw : Bool) (s : State), (Arrives s m 3 (.dram raw off))) ∧
    (∃ (m : FabMsg) (slc : Nat) (off : Nat) (s : State), (Arrives s m 3 (.mill slc off))) ∧
    (∃ (m : FabMsg) (d : Nat) (e : BankEcc) (s : State), (m.cmd = 1 ∨ m.cmd = 2) ∧ (m.noCredit = 0) ∧ (m.vc ≠ 3) ∧
      (nodeClosed s m.dst = some d) ∧ (wakeHolds s d = false)) ∧
    (∃ (m : FabMsg) (d : Nat) (e : BankEcc) (s : State), (m.cmd = 2) ∧ (m.noCredit = 0) ∧ (nodeClosed s m.dst = some d) ∧
      (wakeHolds s d = true) ∧ ((mapGet s.fab.wakeBuf m.dst []).length < 16)) ∧
    (∃ (m : FabMsg) (e : BankEcc) (s : State), (m.cmd = 1) ∧ (m.noCredit = 0) ∧ (nodeClosed s m.dst = none) ∧ (vcOk m = true) ∧
      (fabTarget m.addr = .none)) ∧
    (∃ (m : FabMsg) (e : BankEcc) (s : State), (m.cmd = 2) ∧ (m.noCredit = 0) ∧ (m.vc ≠ 3) ∧ (nodeClosed s m.dst = none) ∧
      (vcOk m = true) ∧ (fabTarget m.addr ≠ .none) ∧ ((∀ slc off, fabTarget m.addr ≠ .mill slc off)) ∧ (shapeOk m = false)) :=
  ⟨ ⟨(toCore 3), 0, 0, s1, by decide, by decide⟩,
    ⟨(toCore 4), 0, 0, s1, by decide, by decide⟩,
    ⟨{ toDram with cmd := 3 }, 0x10000000, false, s1, by decide⟩,
    ⟨{ toCore 3 with addr := 0x20030000000, dst := millNode 0 }, 0, 0, s1, by decide⟩,
    ⟨(toCore 1), 0, calm, { s1 with fab := { fences := [(0, { left := [], at_ := 0, cause := 0 })] } }, by decide, by decide, by decide,
      by decide, by decide⟩,
    ⟨(toCore 2), 0, calm, { (s1.setParam 0x0B01 0 1) with power := { on := [95] } }, by decide, by decide, by decide, by decide, by decide⟩,
    ⟨{ toCore 1 with addr := 0x30000000000 }, calm, s1, by decide, by decide, by decide, by decide, by decide⟩,
    ⟨{ toCore 2 with len := 0 }, calm, s1, by decide, by decide, by decide, by decide, by decide, by decide, (fun a b h => nomatch h),
      by decide⟩⟩

theorem witness_FabricRequests_3 : ∃ (m : FabMsg) (e : BankEcc) (s : State), (m.cmd = 0 ∨ 11 ≤ m.cmd) ∧ (m.noCredit = 0) ∧
  (nodeClosed s m.dst = none) :=
  ⟨{ toCore 1 with cmd := 11 }, calm, s1, by decide, by decide, by decide⟩

theorem witness_FabricControl_1 :
    (∃ (m : FabMsg) (o : Outstanding) (s : State), (Matches s m o) ∧ (PlainMaster o)) ∧
    (∃ (m : FabMsg) (o : Outstanding) (s : State), (Matches s m o) ∧ (PlainMaster o)) ∧
    (∃ (m : FabMsg) (s : State), (nodeClosed s m.dst = none) ∧ (61696 ≤ m.chan) ∧ (m.gen ≠ (s.ni m.dst).gen)) ∧
    (∃ (m : FabMsg) (n : Nat) (s : State), (nodeClosed s m.dst = none) ∧ (m.noCredit = 0) ∧ (m.chan = 61440 + n) ∧ (n < 256) ∧
      (m.status = 1) ∧ ((∃ g off, fabTarget m.addr = .dma g off)) ∧ (Room 1 s)) ∧
    (∃ (n : Fin 1024) (s : State), (nodeDomain n = none)) ∧
    (∃ (n : Fin 1024) (d : Nat) (f : Fence) (s : State), (nodeDomain n = some d) ∧ (mapGet? s.power.toOff d = none) ∧
      (mapGet? s.fab.fences d = some f) ∧ (n.val ∈ f.left)) ∧
    (∃ (n : Fin 1024) (d : Nat) (c : Nat) (s : State), (nodeDomain n = some d) ∧ (mapGet? s.power.toOff d = some c) ∧
      (fabricLast s d = false) ∧ ((∀ k ∈ domainUnits d, drained s k = true))) ∧
    (∃ (n : Fin 1024) (d : Nat) (f : Fence) (s : State), (nodeDomain n = some d) ∧ (mapGet? s.fab.fences d = some f) ∧ (n.val ∈ f.left) ∧
      ((s.ni n).stopped = true) ∧ (niQuiet s n = true) ∧ ((∃ j ∈ f.left, j ≠ n.val))) :=
  ⟨ ⟨{ toCore 5 with vc := 1 }, (waits1 65535 1), { s1 with fab := { outst := [waits1 65535 1], flight := [toCore 5] } }, by decide,
    by decide⟩,
    ⟨{ toCore 5 with vc := 1 }, (waits1 65535 2), { s1 with fab := { outst := [waits1 65535 2] } }, by decide, by decide⟩,
    ⟨{ toCore 5 with gen := 1 }, s1, by decide, by decide, by decide⟩,
    ⟨{ toCore 5 with chan := 61440, status := 1, addr := 0x20031008000 }, 0, s1, by decide, by decide, by decide, by decide, by decide,
      ⟨0, 0x8000, by decide⟩, by decide⟩,
    ⟨1023, s1, by decide⟩,
    ⟨256, 0, { left := [256], at_ := 0, cause := 0 },
      { s1 with fab := { nis := [(256, { stopped := true })], fences := [(0, { left := [256], at_ := 0, cause := 0 })] } }, by decide,
      by decide, by decide, by decide⟩,
    ⟨256, 0, 1, { s1 with power := { s1.power with toOff := [(0, 1)] }, mill := { drains := (List.range 16).map fun i => (i, 0) } },
      by decide, by decide, by decide, by decide⟩,
    ⟨256, 0, { left := [256, 257], at_ := 0, cause := 0 },
      { s1 with fab := { nis := [(256, { stopped := true })], fences := [(0, { left := [256, 257], at_ := 0, cause := 0 })] } },
      by decide, by decide, by decide, by decide, by decide, by decide⟩⟩

theorem witness_FabricControl_2 :
    (∃ (n : Fin 1024) (d : Nat) (f : Fence) (s : State), (nodeDomain n = some d) ∧ (d < 64) ∧ (mapGet? s.fab.fences d = some f) ∧
      (f.left = [n.val]) ∧ ((s.ni n).stopped = true) ∧ (niQuiet s n = true) ∧ (mapGet? s.power.wakeDue d = none) ∧ (Room 1 s)) ∧
    (∃ (n : Fin 1024) (s : State), (niQuiet s n = false ∨ (s.ni n).stopped = false)) ∧
    (∃ (d : Fin 96) (s : State), ((∃ n, nodeDomain n = some d.val ∧ n < 1024 ∧ mapGet s.fab.wakeBuf n [] ≠ [])) ∧
      (s.domainOn d = false) ∧ (mapGet? s.power.coming d = none) ∧ (domainWithdrawn s d = false) ∧ (mapGet? s.fab.fences d = none)) ∧
    (∃ (d : Fin 96) (s : State), (s.domainOn d = true)) ∧
    (∃ (c : Fin 16) (i : Fin 4096) (code : BitVec 16) (sev : Fin 16) (b : List Byte) (s : State), (Room 1 s)) ∧
    (∃ (c : Fin 16) (i : Fin 4096) (code : BitVec 16) (sev : Fin 16) (b : List Byte) (s : State), (256 ≤ s.ev.queue.length)) ∧
    (∃ (b : Byte) (l : Byte) (s : State), (linkExists b.toNat l.toNat = false)) ∧
    (∃ (b : Byte) (l : Byte) (s : State), (linkExists b.toNat l.toNat = true) ∧
      (mapGet? s.ev.rate (rateKey 0x0B05 (linkKey b.toNat l.toNat)) = none) ∧ (Room 1 s)) :=
  ⟨ ⟨256, 0, { left := [256], at_ := 0, cause := 0 },
    { s1 with fab := { nis := [(256, { stopped := true })], fences := [(0, { left := [256], at_ := 0, cause := 0 })] } }, by decide,
    by decide, by decide, by decide, by decide, by decide, by decide, by decide⟩,
    ⟨0, s1, by decide⟩,
    ⟨0, { s1 with power := { on := [95] }, fab := { wakeBuf := [(256, [toCore 1])] } }, ⟨256, by decide⟩, by decide, by decide,
      by decide, by decide⟩,
    ⟨0, s1, by decide⟩,
    ⟨0, 0, 0, 0, [], s1, by decide⟩,
    ⟨0, 0, 0, 0, [], { s1 with ev := { queue := List.replicate 256 { cls := 0, inst := 0, code := 0, sev := 0, detail := [] } } },
      by decide⟩,
    ⟨8, 0, s1, by decide⟩,
    ⟨0, 0, s1, by decide, by decide, by decide⟩⟩

theorem witness_FabricControl_3 :
    (∃ (b : Byte) (l : Byte) (s : State), (linkKey b.toNat l.toNat ∈ s.fab.stuck)) ∧
    (∃ (b : Byte) (l : Byte) (s : State), (linkExists b.toNat l.toNat = true) ∧ (linkKey b.toNat l.toNat ∉ s.fab.stuck) ∧
      (s.boot.devState ≠ 4) ∧ (Room 2 s)) ∧
    (∃ (n : Fin 1024) (g : Byte) (s : State), ((∀ o ∈ s.fab.outst, o.node = n.val → o.tag ≠ g.toNat))) ∧
    (∃ (n : Fin 1024) (g : Byte) (o : Outstanding) (s : State), (s.fab.outst = [o]) ∧ (o.node = n.val) ∧ (o.tag = g.toNat) ∧
      (o.timedOut = false) ∧ (o.at_ + fabCycles 67584 ≤ s.now) ∧ (PlainMaster o) ∧ (mapGet? s.ev.rate (rateKey 0x0B04 n) = none) ∧
      (Room 1 s)) ∧
    (∃ (d : Fin 96) (f : Fence) (s : State), (mapGet? s.fab.fences d = none ∨ (mapGet? s.fab.fences d = some f ∧
      s.now < f.at_ + fabCycles (s.param 0x0B02 0)))) ∧
    (∃ (d : Fin 96) (f : Fence) (n : Nat) (s : State), (d.val < 64) ∧ (mapGet? s.fab.fences d = some f) ∧ (f.left = [n]) ∧
      (f.at_ + fabCycles (s.param 0x0B02 0) ≤ s.now) ∧ (mapGet? s.power.wakeDue d = none) ∧ (Room 2 s)) :=
  ⟨ ⟨0, 0, { s1 with fab := { stuck := [linkKey 0 0] } }, by decide⟩,
    ⟨0, 0, s1, by decide, by decide, by decide, by decide⟩,
    ⟨0, 0, s1, by decide⟩,
    ⟨256, 0, (waits1 65535 1), { at1 (10 ^ 9) with fab := { outst := [waits1 65535 1] } }, by decide, by decide, by decide, by decide,
      by decide, by decide, by decide, by decide⟩,
    ⟨0, { left := [], at_ := 0, cause := 0 }, s1, by decide⟩,
    ⟨0, { left := [256], at_ := 0, cause := 0 }, 256,
      { at1 (10 ^ 10) with fab := { nis := [(256, { stopped := true })], fences := [(0, { left := [256], at_ := 0, cause := 0 })] } },
      by decide, by decide, by decide, by decide, by decide, by decide⟩⟩

theorem witness_ExternalMemory_1 :
    (∃ (src : Fin 1024) (g : Byte) (r : DramResult) (s : State), (s.mem.waits = [])) ∧
    (∃ (src : Fin 1024) (g : Byte) (m : FabMsg) (n : Nat) (off : Nat) (s : State), (OneWait s src g.toNat m) ∧ (m.cmd = 1) ∧ (m.vc = 0) ∧
      (dramTarget m.addr = (false, off)) ∧ (memAccess s m false off false = 0) ∧ (memPlace s off = .region n) ∧
      (pageProtected s (pageOf off) = none) ∧ (cachedPage s (pageOf off) = none) ∧ (s.mem.poison = []) ∧
      ((cacheOf s (pageTile (pageOf off))).length < 16)) ∧
    (∃ (src : Fin 1024) (g : Byte) (m : FabMsg) (off : Nat) (s : State), (OneWait s src g.toNat m) ∧ (m.cmd = 1) ∧ (m.vc = 0) ∧
      (dramTarget m.addr = (false, off)) ∧ (memAccess s m false off false = 0) ∧ (pageProtected s (pageOf off) = none) ∧
      (mapGet? s.ev.rate (rateKey 0x0C02 (pageChannel (pageOf off))) = none) ∧ (Room 1 s)) ∧
    (∃ (src : Fin 1024) (g : Byte) (m : FabMsg) (n : Nat) (off : Nat) (s : State), (OneWait s src g.toNat m) ∧ (m.cmd = 1) ∧ (m.vc = 0) ∧
      (dramTarget m.addr = (false, off)) ∧ (memAccess s m false off false = 0) ∧ (pageProtected s (pageOf off) = some n) ∧
      (failedAbove s (pageOf off) = false) ∧ (s.mem.poison = []) ∧ ((s.ctr (pageOf off)).sel = 0) ∧ ((s.region n).slotA = 1)) ∧
    (∃ (g : Fin 32) (s : State), ((s.region g).st ≠ 1)) ∧
    (∃ (g : Fin 32) (s : State), ((s.region g).st = 1) ∧ (Room 1 s)) ∧
    (∃ (d : Decode) (s : State), (scrubDue s = false)) ∧
    (∃ (p : Nat) (s : State), (nextScrub s s.mem.scrubPage = some p) ∧ (scrubDue s = true) ∧ ((nextScrub s (p + 1)).isSome = true)) :=
  ⟨ ⟨0, 0, {}, s1, by decide⟩,
    ⟨256, 0, toDram, 0, 0x10000000, mem1 1 [toDram], by decide, by decide, by decide, by decide, by decide, by decide, by decide,
      by decide, by decide, by decide⟩,
    ⟨256, 0, toDram, 0x10000000, mem1 1 [toDram], by decide, by decide, by decide, by decide, by decide, by decide, by decide, by decide⟩,
    ⟨256, 0, toDram, 0, 0x10000000, mem1 2 [toDram], by decide, by decide, by decide, by decide, by decide, by decide, by decide,
      by decide, by decide, by decide⟩,
    ⟨0, s1, by decide⟩,
    ⟨0, { s1 with mem := { regions := [(0, { st := 1, base := 0x10000000, size := 0x1000000 })] } }, by decide, by decide⟩,
    ⟨.clean, s1, by decide⟩,
    ⟨0, at1 (10 ^ 13), by decide, by decide, by decide⟩⟩

theorem witness_ExternalMemory_2 :
    (∃ (p : Nat) (s : State), (nextScrub s s.mem.scrubPage = some p) ∧ (scrubDue s = true) ∧ (nextScrub s (p + 1) = none) ∧ (Room 1 s)) ∧
    (∃ (g : Fin 32) (d : Decode) (l : List (Fin 32)) (s : State), ((s.region g).sweep = none ∨ rekeyDue s (s.region g) = false)) ∧
    (∃ (g : Fin 32) (p : Nat) (s : State), ((s.region g).sweep = some p) ∧ (failedAbove s p = false) ∧ (s.mem.poison = []) ∧
      (rekeyDue s (s.region g) = true) ∧ ((p + 1) * 2048 < (s.region g).base + (s.region g).size) ∧ ((s.region g).sweepPoisoned < 2 ^ 32)) ∧
    (∃ (g : Fin 32) (p : Nat) (s : State), ((s.region g).sweep = some p) ∧ (failedAbove s p = false) ∧ (s.mem.poison = []) ∧
      (rekeyDue s (s.region g) = true) ∧ ((s.region g).base + (s.region g).size ≤ (p + 1) * 2048) ∧ (sweepSlot (s.region g) = 1) ∧
      ((s.region g).sweepPoisoned = 0) ∧ (Room 1 s)) ∧
    (∃ (ch : Fin 12) (hot : Bool) (s : State), (s.now < (mapGet s.mem.chans ch {}).mr4At + 32 * tcMs)) ∧
    (∃ (ch : Fin 12) (hot : Bool) (s : State), ((mapGet s.mem.chans ch {}).mr4At + 32 * tcMs ≤ s.now)) :=
  ⟨ ⟨131071, { (at1 (10 ^ 13)) with mem := { scrubPage := 131071 } }, by decide, by decide, by decide, by decide⟩,
    ⟨0, .clean, [], s1, by decide⟩,
    ⟨0, 131072, { (at1 (10 ^ 13)) with mem := { regions := [(0, { st := 2, mode := 2, base := 0x10000000, size := 0x1000000, sweep := some 131072 })] } },
      by decide, by decide, by decide, by decide, by decide, by decide⟩,
    ⟨0, 139263, { (at1 (10 ^ 13)) with mem := { regions := [(0, { st := 2, mode := 2, base := 0x10000000, size := 0x1000000, slotB := 1, sweep := some 139263 })] } },
      by decide, by decide, by decide, by decide, by decide, by decide, by decide, by decide⟩,
    ⟨0, false, s1, by decide⟩,
    ⟨0, false, at1 (10 ^ 13), by decide⟩⟩

theorem witness_DmaControl_1 :
    (∃ (c : ChanId) (s : State), ((s.chan c).st = 0 ∨ (s.chan c).st = 4) ∧ ((s.chan c).prog % 16 = 0)) ∧
    (∃ (c : ChanId) (s : State), ((s.chan c).st = 0 ∨ (s.chan c).st = 4) ∧ ((s.chan c).prog % 16 ≠ 0) ∧ (chanOut s c = []) ∧ (Room 1 s)) ∧
    (∃ (c : ChanId) (s : State), ((s.chan c).st ≠ 0) ∧ ((s.chan c).st ≠ 4)) ∧
    (∃ (c : ChanId) (s : State), ((s.chan c).st = 1 ∨ (s.chan c).st = 2)) ∧
    (∃ (c : ChanId) (s : State), ((s.chan c).st ≠ 1) ∧ ((s.chan c).st ≠ 2)) ∧
    (∃ (c : ChanId) (s : State), (mapGet? (s.ni (4096 + c.val)).left (((s.ni (4096 + c.val)).gen + 1) % 4) = none) ∧ (QuietEngine s c)) ∧
    (∃ (e : EngineId) (f : Byte) (s : State), ((s.engine e).flags.getLsbD f.toNat = true)) ∧
    (∃ (e : EngineId) (f : Byte) (s : State), ((s.engine e).flags.getLsbD f.toNat = false) ∧ ((∀ c, (s.chan c).wait = none))) :=
  ⟨ ⟨0, s1, by decide, by decide⟩,
    ⟨0, dma1 { prog := 8 }, by decide, by decide, by decide, by decide⟩,
    ⟨0, dma1 { st := 1 }, by decide, by decide⟩,
    ⟨0, dma1 { st := 1 }, by decide⟩,
    ⟨0, s1, by decide, by decide⟩,
    ⟨0, s1, by decide, quiet_engine (by decide) (by decide)⟩,
    ⟨0, 0, { s1 with dma := { engines := [(0, { flags := 1 })] } }, by decide⟩,
    ⟨0, 0, s1, by decide, by intro c; rfl⟩⟩

theorem witness_DmaControl_2 : ∃ (e : EngineId) (f : Byte) (c : ChanId) (s : State), ((s.engine e).flags.getLsbD f.toNat = false) ∧
  (chanEngine c = e.val) ∧ ((s.chan c).st = 2) ∧ ((s.chan c).wait = some (3, f.toNat, true)) ∧ ((s.chan c).loops = []) ∧ ((∀ j,
  j ≠ c.val → (s.chan j).wait = none)) :=
  ⟨0, 0, 0, dma1 { st := 2, wait := some (3, 0, true) }, by decide, by decide, by decide, by decide, by decide,
    by intro j h; exact other_chan _ h⟩

theorem witness_DmaInstructions_1 :
    (∃ (c : ChanId) (bs : List Byte) (s : State), ((s.chan c).st ≠ 1)) ∧
    (∃ (c : ChanId) (bs : List Byte) (s : State), ((s.chan c).st = 1) ∧ ((s.chan c).move = none) ∧ (dmaMay s c (s.chan c).pc = false) ∧
      (chanOut s c = []) ∧ (Room 1 s)) ∧
    (∃ (c : ChanId) (bs : List Byte) (s : State), (Runs s c 16) ∧ (rd bs 0 1 = 0 ∨ 5 < rd bs 0 1) ∧ (chanOut s c = []) ∧ (Room 1 s)) ∧
    (∃ (c : ChanId) (bs : List Byte) (s : State), (Runs s c 16) ∧ (rd bs 0 1 = 2) ∧ (rd bs 2 2 ≠ 0) ∧ (rd bs 4 4 ≠ 0)) ∧
    (∃ (c : ChanId) (bs : List Byte) (s : State), (Runs s c 16) ∧ (rd bs 0 1 = 2) ∧ (rd bs 2 2 ≠ 0) ∧ (rd bs 4 4 = 0)) ∧
    (∃ (c : ChanId) (bs : List Byte) (s : State), (Runs s c 16) ∧ (rd bs 0 1 = 2) ∧ (rd bs 2 2 = 0) ∧ (chanOut s c = []) ∧ (Room 1 s)) ∧
    (∃ (c : ChanId) (bs : List Byte) (v : LoopLevel) (rest : List LoopLevel) (s : State), ((s.chan c).st = 1) ∧
      ((s.chan c).move = none) ∧ (dmaMay s c (s.chan c).pc = true) ∧ (dmaMay s c ((s.chan c).pc + 15) = true) ∧
      ((s.chan c).loops = v :: rest) ∧ (rd bs 0 1 = 3) ∧ (rd bs 1 1 = 1) ∧
      (reached (s.localNow 1 (c / 32)) (rd bs 8 8 + v.idx * rd bs 4 4) = true) ∧ (((s.chan c).pc + 16) % 2 ^ 64 = v.last) ∧
      (v.idx + 1 < v.count)) ∧
    (∃ (c : ChanId) (bs : List Byte) (s : State), (Runs s c 16) ∧ (rd bs 0 1 = 3) ∧ (rd bs 1 1 = 1) ∧
      (reached (s.localNow 1 (c / 32)) (rd bs 8 8) = true)) :=
  ⟨ ⟨0, [], s1, by decide⟩,
    ⟨0, [], dma1 { st := 1 }, by decide, by decide, by decide, by decide, by decide⟩,
    ⟨0, sparse 16 [], dma1 run0, by decide, by decide, by decide, by decide⟩,
    ⟨0, sparse 16 [(0, 2), (2, 1), (4, 1)], dma1 run0, by decide, by decide, by decide, by decide⟩,
    ⟨0, sparse 16 [(0, 2), (2, 1)], dma1 run0, by decide, by decide, by decide, by decide⟩,
    ⟨0, sparse 16 [(0, 2)], dma1 run0, by decide, by decide, by decide, by decide, by decide⟩,
    ⟨0, sparse 16 [(0, 3), (1, 1)], { first := 0, last := 0x20000000010, idx := 0, count := 2 }, [],
      dma1 { run0 with loops := [{ first := 0, last := 0x20000000010, idx := 0, count := 2 }] }, by decide, by decide, by decide,
      by decide, by decide, by decide, by decide, by decide, by decide, by decide⟩,
    ⟨0, sparse 16 [(0, 3), (1, 1)], dma1 run0, by decide, by decide, by decide, by decide⟩⟩

theorem witness_DmaInstructions_2 :
    (∃ (c : ChanId) (bs : List Byte) (s : State), (Runs s c 16) ∧ (rd bs 0 1 = 3) ∧ (rd bs 1 1 = 1) ∧
      (reached (s.localNow 1 (c / 32)) (rd bs 8 8) = false)) ∧
    (∃ (c : ChanId) (u : Nat) (b : Bool) (s : State), ((s.chan c).st = 2) ∧ ((s.chan c).wait = some (1, u, b)) ∧
      ((s.chan c).loops = []) ∧ (reached (s.localNow 1 (c / 32)) u = true)) ∧
    (∃ (c : ChanId) (s : State), ((s.chan c).wait = none)) ∧
    (∃ (c : ChanId) (bs : List Byte) (s : State), (Runs s c 16) ∧ (rd bs 0 1 = 3) ∧ (rd bs 1 1 = 2) ∧ (s.chanOwner c = 0) ∧
      (tagLeft s (dmaNode (chanEngine c)) = true)) ∧
    (∃ (c : ChanId) (bs : List Byte) (s : State), (Runs s c 16) ∧ (rd bs 0 1 = 3) ∧ (rd bs 1 1 = 2) ∧ (s.chanOwner c ≠ 0) ∧
      (chanOut s c = []) ∧ (Room 1 s)) ∧
    (∃ (c : ChanId) (k : Nat) (b : Bool) (s : State), ((s.chan c).st = 2) ∧ ((s.chan c).wait = some (2, k, b)) ∧ (chanReads s c = []) ∧
      (pollDue s c = true) ∧ (tagLeft s (dmaNode (chanEngine c)) = true)) ∧
    (∃ (c : ChanId) (s : State), (pollDue s c = false)) ∧
    (∃ (c : ChanId) (bs : List Byte) (s : State), (Runs s c 16) ∧ (rd bs 0 1 = 3) ∧ (rd bs 1 1 = 3) ∧
      (s.chanOwner c = 0 ∨ 192 ≤ rd bs 8 1) ∧ ((s.engine (chanEngine c)).flags.getLsbD (rd bs 8 1) = true)) :=
  ⟨ ⟨0, sparse 16 [(0, 3), (1, 1), (8, 9)], dma1 run0, by decide, by decide, by decide, by decide⟩,
    ⟨0, 0, true, dma1 { run0 with st := 2, wait := some (1, 0, true) }, by decide, by decide, by decide, by decide⟩,
    ⟨0, s1, by decide⟩,
    ⟨0, sparse 16 [(0, 3), (1, 2)], dma1 run0, by decide, by decide, by decide, by decide, by decide⟩,
    ⟨0, sparse 16 [(0, 3), (1, 2)], (dma1 { st := 1, pc := 0x10000000000 }).setParam 0x0E01 0 1, by decide, by decide, by decide,
      by decide, by decide, by decide⟩,
    ⟨0, 0, true, { dma1 { run0 with st := 2, wait := some (2, 0, true) } with time := (at1 (10 ^ 9)).time }, by decide, by decide,
      by decide, by decide, by decide⟩,
    ⟨0, s1, by decide⟩,
    ⟨0, sparse 16 [(0, 3), (1, 3)], { dma1 run0 with dma := { (dma1 run0).dma with engines := [(0, { flags := 1 })] } }, by decide,
      by decide, by decide, by decide, by decide⟩⟩

theorem witness_DmaInstructions_3 :
    (∃ (c : ChanId) (bs : List Byte) (s : State), (Runs s c 16) ∧ (rd bs 0 1 = 3) ∧ (rd bs 1 1 = 3) ∧
      (s.chanOwner c = 0 ∨ 192 ≤ rd bs 8 1) ∧ ((s.engine (chanEngine c)).flags.getLsbD (rd bs 8 1) = false)) ∧
    (∃ (c : ChanId) (bs : List Byte) (s : State), (Runs s c 16) ∧ (rd bs 0 1 = 4) ∧ (rd bs 1 1 = 1) ∧ (rd bs 2 1 ≤ 4) ∧
      (s.chanOwner c = 0) ∧ (writesDone s c = true)) ∧
    (∃ (c : ChanId) (bs : List Byte) (s : State), (Runs s c 16) ∧ (rd bs 0 1 = 4) ∧ (rd bs 1 1 = 2) ∧ (rd bs 2 1 ≤ 23) ∧
      (s.chanOwner c = 0) ∧ (writesDone s c = true)) ∧
    (∃ (c : ChanId) (bs : List Byte) (s : State), (Runs s c 16) ∧ (rd bs 0 1 = 4) ∧ (rd bs 1 1 = 3) ∧ (writesDone s c = true) ∧
      (Room 1 s)) ∧
    (∃ (c : ChanId) (bs : List Byte) (s : State), (Runs s c 16) ∧ (rd bs 0 1 = 4) ∧ (rd bs 1 1 = 3) ∧ (writesDone s c = false)) ∧
    (∃ (c : ChanId) (bs : List Byte) (s : State), (Runs s c 16) ∧ (rd bs 0 1 = 5) ∧ (bit (rd bs 1 1) 1 = false)) :=
  ⟨ ⟨0, sparse 16 [(0, 3), (1, 3)], dma1 run0, by decide, by decide, by decide, by decide, by decide⟩,
    ⟨0, sparse 16 [(0, 4), (1, 1)], dma1 run0, by decide, by decide, by decide, by decide, by decide, by decide⟩,
    ⟨0, sparse 16 [(0, 4), (1, 2)], dma1 run0, by decide, by decide, by decide, by decide, by decide, by decide⟩,
    ⟨0, sparse 16 [(0, 4), (1, 3)], dma1 run0, by decide, by decide, by decide, by decide, by decide⟩,
    ⟨0, sparse 16 [(0, 4), (1, 3)], { dma1 run0 with fab := { outst := [waits1 0 2] } }, by decide, by decide, by decide, by decide⟩,
    ⟨0, sparse 16 [(0, 5)], dma1 run0, by decide, by decide, by decide⟩⟩

theorem witness_DmaMoves_1 :
    (∃ (c : ChanId) (bs : List Byte) (sw : Nat) (dw : Nat) (g : Nat) (src : Nat) (dst : Nat) (s : State), (Runs s c 64) ∧
      (rd bs 0 1 = 1) ∧ ((if bit (rd bs 1 1) 2 then some 1 else widthOf (rd bs 2 1 / 16)) = some sw) ∧
      (widthOf (rd bs 2 1 % 16) = some dw) ∧ (swapGroup (rd bs 3 1) = some g) ∧ (1 ≤ rd bs 4 4) ∧ (rd bs 4 4 ≤ 16777216) ∧
      ((bit (rd bs 1 1) 2 = true → rd bs 4 4 ≤ 8)) ∧ (rd bs 4 4 % g = 0) ∧ (src = rd bs 8 8) ∧ (dst = rd bs 16 8) ∧
      ((bit (rd bs 1 1) 2 = false → ∀ r ∈ readBlocks sw src (rd bs 4 4), dmaMay s c r.2.1 = true ∧
      dmaMay s c (r.2.1 + r.2.2 - 1) = true)) ∧ ((∀ r ∈ readBlocks 64 dst (rd bs 4 4), dmaMay s c r.2.1 = true ∧
      dmaMay s c (r.2.1 + r.2.2 - 1) = true)) ∧ ((bit (rd bs 1 1) 0 = true → s.chanOwner c = 0)) ∧ ((bit (rd bs 1 1) 1 = true →
      writesDone s c = true))) ∧
    (∃ (c : ChanId) (bs : List Byte) (w : Nat) (s : State), (Runs s c 64) ∧ (rd bs 0 1 = 1) ∧ (bit (rd bs 1 1) 2 = true) ∧
      (bit (rd bs 1 1) 1 = false) ∧ (rd bs 3 1 = 0) ∧ (1 ≤ rd bs 4 4) ∧ (rd bs 4 4 ≤ 8) ∧ (s.chanOwner c = 0) ∧
      (widthOf (rd bs 2 1 % 16) = some w) ∧ (rd bs 16 8 / 256 = (rd bs 16 8 + rd bs 4 4 - 1) / 256) ∧ (dmaMay s c (rd bs 16 8) = true) ∧
      (dmaMay s c (rd bs 16 8 + rd bs 4 4 - 1) = true) ∧ (rd bs 16 8 % w + rd bs 4 4 ≤ w) ∧ (tagLeft s (dmaNode (chanEngine c)) = true) ∧
      (QuietEngine s c)) ∧
    (∃ (c : ChanId) (bs : List Byte) (s : State), (Runs s c 64) ∧ (rd bs 0 1 = 1) ∧ (bit (rd bs 1 1) 2 = false) ∧
      (bit (rd bs 1 1) 1 = false) ∧ (rd bs 3 1 = 0) ∧ (1 ≤ rd bs 4 4) ∧ (s.chanOwner c = 0) ∧ (rd bs 2 1 = 0x66) ∧
      (rd bs 8 8 / 256 = (rd bs 8 8 + rd bs 4 4 - 1) / 256) ∧ (rd bs 16 8 / 256 = (rd bs 16 8 + rd bs 4 4 - 1) / 256) ∧
      (dmaMay s c (rd bs 8 8) = true) ∧ (dmaMay s c (rd bs 8 8 + rd bs 4 4 - 1) = true) ∧ (dmaMay s c (rd bs 16 8) = true) ∧
      (dmaMay s c (rd bs 16 8 + rd bs 4 4 - 1) = true) ∧ (s.fab.outst = []) ∧ (QuietEngine s c) ∧ (0 < s.param 0x0E02 c)) ∧
    (∃ (c : ChanId) (m : FabMsg) (o : Outstanding) (mv : MoveJob) (s : State), (Matches s m o) ∧ (o.chan = c.val) ∧
      (o.timedOut = false) ∧ (o.cmd = 1) ∧ (o.seq = 0) ∧ (m.status = 0) ∧ ((s.chan c).st = 1) ∧ ((s.chan c).wait = none) ∧
      ((s.chan c).loops = []) ∧ ((s.chan c).move = some mv) ∧ (mv.toRead = []) ∧ (mv.got = []) ∧ (mv.nextGot = 0) ∧ (mv.hold = []) ∧
      (mv.written = 0) ∧ (mv.swap = 0) ∧ (mv.srcW = 64) ∧ (mv.dstW = 64) ∧ (1 ≤ mv.len) ∧ (mv.src / 256 = (mv.src + mv.len - 1) / 256) ∧
      (mv.dst / 256 = (mv.dst + mv.len - 1) / 256) ∧ (m.data.length = mv.len) ∧ (QuietEngine s c)) ∧
    (∃ (c : ChanId) (bs : List Byte) (s : State), (Runs s c 64) ∧ (rd bs 0 1 = 1) ∧ (rd bs 4 4 = 0) ∧ (chanOut s c = []) ∧ (Room 1 s)) ∧
    (∃ (c : ChanId) (bs : List Byte) (s : State), (Runs s c 64) ∧ (rd bs 0 1 = 1) ∧ (bit (rd bs 1 1) 2 = true) ∧ (rd bs 3 1 = 0) ∧
      (1 ≤ rd bs 4 4) ∧ (rd bs 4 4 ≤ 8) ∧ (rd bs 2 1 % 16 ≤ 6) ∧ (rd bs 16 8 / 256 = (rd bs 16 8 + rd bs 4 4 - 1) / 256) ∧
      (dmaMay s c (rd bs 16 8) = false) ∧ (chanOut s c = []) ∧ (Room 1 s)) ∧
    (∃ (c : ChanId) (m : FabMsg) (o : Outstanding) (s : State), (Matches s m o) ∧ (o.chan = c.val) ∧ (o.timedOut = false) ∧
      (1 ≤ m.status) ∧ (m.status ≤ 8) ∧ (m.status ≠ 5) ∧ ((s.chan c).st = 1) ∧ (QuietEngine s c) ∧ (Room 1 s)) ∧
    (∃ (c : ChanId) (m : FabMsg) (o : Outstanding) (s : State), (Matches s m o) ∧ (o.chan = c.val) ∧ (o.timedOut = false) ∧
      (m.status = 5) ∧ ((s.chan c).st = 1) ∧ ((s.chan c).wait = none) ∧ ((s.chan c).move = none) ∧ (QuietEngine s c) ∧
      (mapGet? s.ev.rate (rateKey 0x0E03 c) = none) ∧ (Room 1 s)) :=
  ⟨ ⟨0, (sparse 64 [(0, 1), (2, 102), (4, 64), (13, 2), (21, 2)]), 64, 64, 1, 0x20000000000, 0x20000000000, dma1 run0, by decide,
    by decide, by decide, by decide, by decide, by decide, by decide, by decide, by decide, by decide, by decide, by decide, by decide,
    by decide, by decide⟩,
    ⟨0, sparse 64 [(0, 1), (1, 4), (2, 3), (4, 8), (21, 2)], 8, dma1 run0, by decide, by decide, by decide, by decide, by decide,
      by decide, by decide, by decide, by decide, by decide, by decide, by decide, by decide, by decide,
      quiet_engine (by decide) (by decide)⟩,
    ⟨0, sparse 64 [(0, 1), (2, 102), (4, 64), (13, 2), (21, 2)], dma1 run0, by decide, by decide, by decide, by decide, by decide,
      by decide, by decide, by decide, by decide, by decide, by decide, by decide, by decide, by decide, by decide, ⟨rfl,
      fun k _ _ => no_move _ rfl k⟩, by decide⟩,
    ⟨0, { toCore 5 with vc := 1, chan := 0 }, (waits1 0 1),
      { timed := false, src := 0x20000000000, dst := 0x20000000000, len := 8, srcW := 64, dstW := 64, swap := 0, toRead := [] },
      { dma1 { run0 with move := some { timed := false, src := 0x20000000000, dst := 0x20000000000, len := 8, srcW := 64, dstW := 64, swap := 0, toRead := [] } } with fab := { outst := [waits1 0 1] } },
      by decide, by decide, by decide, by decide, by decide, by decide, by decide, by decide, by decide, by decide, by decide, by decide,
      by decide, by decide, by decide, by decide, by decide, by decide, by decide, by decide, by decide, by decide,
      quiet_engine (by decide) (by decide)⟩,
    ⟨0, sparse 64 [(0, 1)], dma1 run0, by decide, by decide, by decide, by decide, by decide⟩,
    ⟨0, sparse 64 [(0, 1), (1, 4), (4, 8)], dma1 run0, by decide, by decide, by decide, by decide, by decide, by decide, by decide,
      by decide, by decide, by decide, by decide⟩,
    ⟨0, { toCore 6 with vc := 1, chan := 0, status := 1 }, (waits1 0 2), { dma1 run0 with fab := { outst := [waits1 0 2] } }, by decide,
      by decide, by decide, by decide, by decide, by decide, by decide, quiet_engine (by decide) (by decide), by decide⟩,
    ⟨0, { toCore 6 with vc := 1, chan := 0, status := 5 }, (waits1 0 2), { dma1 run0 with fab := { outst := [waits1 0 2] } }, by decide,
      by decide, by decide, by decide, by decide, by decide, by decide, quiet_engine (by decide) (by decide), by decide, by decide⟩⟩

theorem witness_DmaMoves_2 : ∃ (c : ChanId) (m : FabMsg) (o : Outstanding) (k : Nat) (b : Bool) (s : State), (Matches s m o) ∧
  (o.chan = c.val) ∧ (o.timedOut = false) ∧ (o.cmd = 1) ∧ (m.status = 0) ∧ ((s.chan c).st = 2) ∧ ((s.chan c).wait = some (2, k, b)) ∧
  (o.addr = counterAddr k) ∧ ((s.chan c).loops = []) ∧ ((s.chan c).move = none) ∧ (QuietEngine s c) ∧ (leNat m.data % 65536 = 0) :=
  ⟨0, { toCore 5 with vc := 1, chan := 0, addr := counterAddr 0, data := List.replicate 8 0 }, { waits1 0 1 with addr := counterAddr 0 },
    0, true, { dma1 { run0 with st := 2, wait := some (2, 0, true) } with fab := { outst := [{ waits1 0 1 with addr := counterAddr 0 }] } },
    by decide, by decide, by decide, by decide, by decide, by decide, by decide, by decide, by decide, by decide,
    quiet_engine (by decide) (by decide), by decide⟩

theorem witness_HostPorts_1 :
    (∃ (h : HostId) (v : BitVec 32) (s : State), (v.toNat < 64) ∧ ((s.hp h).slotBusy.getLsbD v.toNat = false)) ∧
    (∃ (h : HostId) (v : BitVec 32) (s : State), (64 ≤ v.toNat ∨ (s.hp h).slotBusy.getLsbD v.toNat = true)) ∧
    (∃ (h : HostId) (v : BitVec 64) (s : State), ((s.hp h).waiting = none)) ∧
    (∃ (h : HostId) (v : BitVec 32) (s : State), (v = 0 ∨ v = 16 ∨ v = 32 ∨ v = 64 ∨ v = 128 ∨ v = 256 ∨ v = 512 ∨ v = 1024)) ∧
    (∃ (h : HostId) (v : BitVec 32) (s : State), (ringSizeOk v.toNat = false)) ∧
    (∃ (h : HostId) (v : BitVec 32) (s : State), ((s.hp h).waiting = none) ∧ ((s.hp h).msixEnable = false)) ∧
    (∃ (h : HostId) (v : Fin 64) (s : State), ((s.hp h).msixEnable = true) ∧ ((s.hp h).msixMask = true) ∧
      ((s.hp h).pba = (1 : BitVec 64) <<< v.val) ∧ ((s.hp h).vecMask.getLsbD v = false)) ∧
    (∃ (h : HostId) (v : Fin 64) (s : State), ((s.hp h).pba = 0)) :=
  ⟨ ⟨0, 0, s1, by decide, by decide⟩,
    ⟨0, 64, s1, by decide⟩,
    ⟨0, 0, s1, by decide⟩,
    ⟨0, 0, s1, by decide⟩,
    ⟨0, 3, s1, by decide⟩,
    ⟨0, 0, s1, by decide, by decide⟩,
    ⟨0, 0, hp0 { msixEnable := true, msixMask := true, pba := 1, vecMask := 0 }, by decide, by decide, by decide, by decide⟩,
    ⟨0, 0, s1, by decide⟩⟩

theorem witness_HostPorts_2 :
    (∃ (e : EngineId) (f : Byte) (v : BitVec 64) (s : State), (2 < v.toNat % 256 ∨ v.toNat % 256 = 0)) ∧
    (∃ (h : HostId) (s : State), (ownedChans s h = []) ∧ (s.ev.subs = []) ∧ (s.ev.loss = []) ∧ ((s.hp h).current = none) ∧
      ((s.hp h).waiting = none) ∧ ((s.hp h).linkUp = true) ∧ (Room 2 s)) ∧
    (∃ (h : HostId) (s : State), (ownedChans s h = []) ∧ (s.ev.subs = []) ∧ (s.ev.loss = []) ∧ ((s.hp h).current = none) ∧
      ((s.hp h).waiting = none) ∧ (Room 1 s)) ∧
    (∃ (h : HostId) (w : Byte) (r : Byte) (s : State), (1 ≤ (s.hp h).role) ∧ ((s.hp h).role ≤ 3) ∧ ((s.hp h).linkUp = false) ∧ (Room 1 s)) ∧
    (∃ (h : HostId) (w : Byte) (r : Byte) (s : State), ((s.hp h).role = 0)) ∧
    (∃ (b : List Byte) (s : State), (s.host.spi.enabled = true) ∧ (s.boot.devState ≠ 3) ∧ (s.host.spi.ready = true)) ∧
    (∃ (b : List Byte) (s : State), (s.host.spi.enabled = true) ∧ (s.boot.devState ≠ 3) ∧ (s.host.spi.ready = false)) ∧
    (∃ (n : Nat) (s : State), (s.host.spi.enabled = false)) :=
  ⟨ ⟨0, 0, 3, s1, by decide⟩,
    ⟨0, hp0 up0, by decide, by decide, by decide, by decide, by decide, by decide, by decide⟩,
    ⟨0, s1, by decide, by decide, by decide, by decide, by decide, by decide⟩,
    ⟨0, 0, 0, hp0 { role := 1 }, by decide, by decide, by decide, by decide⟩,
    ⟨0, 0, 0, s1, by decide⟩,
    ⟨[], s1, by decide, by decide, by decide⟩,
    ⟨[], { s1 with host := { spi := { packet := some [] } } }, by decide, by decide, by decide⟩,
    ⟨0, { s1 with host := { spi := { enabled := false } } }, by decide⟩⟩

theorem witness_HostPorts_3 :
    (∃ (s : State), (s.host.spi.enabled = true)) ∧
    (∃ (r : List Byte) (n : Nat) (s : State), (s.host.spi.enabled = true) ∧ (s.host.spi.reply = some r) ∧ (r.length ≤ n)) ∧
    (∃ (d : Bool) (s : State), (s.host.flashOp = none)) ∧
    (∃ (f : FlashOp) (s : State), (s.host.flashOp = some f) ∧ (f.erase = true)) ∧
    (∃ (f : FlashOp) (s : State), (s.host.flashOp = some f) ∧ (f.erase = false) ∧ (f.len = f.data.length) ∧
      (bytesRead 0xFF s.host.flash f.offset f.len = List.replicate f.len 0xFF)) :=
  ⟨ ⟨s1, by decide⟩,
    ⟨[1], 1, { s1 with host := { spi := { reply := some [1] } } }, by decide, by decide, by decide⟩,
    ⟨false, s1, by decide⟩,
    ⟨{ req := p4, erase := true, offset := 0, len := 4096, data := [] },
      { s1 with host := { flashOp := some { req := p4, erase := true, offset := 0, len := 4096, data := [] } } }, by decide, by decide⟩,
    ⟨{ req := p4, erase := false, offset := 0, len := 2, data := [1, 2] },
      { s1 with host := { flashOp := some { req := p4, erase := false, offset := 0, len := 2, data := [1, 2] } } }, by decide, by decide,
      by decide, by decide⟩⟩

theorem witness_DelazPackets_1 :
    (∃ (i : Instr) (op : Nat) (rq : Req) (p : List Byte) (s : State), (IsDelaz i op rq p) ∧ (s.portShut rq.port = true)) ∧
    (∃ (i : Instr) (op : Nat) (rq : Req) (p : List Byte) (s : State), (IsDelaz i op rq p) ∧ (s.portShut rq.port = false) ∧
      (4076 < p.length)) ∧
    (∃ (i : Instr) (op : Nat) (st : Nat) (det : Nat) (rq : Req) (p : List Byte) (s : State), (IsDelaz i op rq p) ∧
      (s.portShut rq.port = false) ∧ (p.length ≤ 4076) ∧ (headCheck s (asOp rq op) p.length = some (st, det))) ∧
    (∃ (i : Instr) (op : Nat) (rq : Req) (p : List Byte) (s : State), (IsDelaz i op rq p) ∧ (s.portShut rq.port = false) ∧
      (p.length ≤ 4076) ∧ (rq.port < 4) ∧ (s.boot.devState = 0) ∧ (2 < op)) ∧
    (∃ (i : Instr) (op : Nat) (o : OpInfo) (rq : Req) (p : List Byte) (s : State), (IsDelaz i op rq p) ∧ (s.portShut rq.port = false) ∧
      (p.length ≤ 4076) ∧ (rq.port < 4) ∧ (s.boot.devState ≠ 0) ∧ (s.boot.devState ≠ 5) ∧ (opInfo op = some o) ∧
      ((s.hp rq.port).role = 0 ∨ bit o.roles ((s.hp rq.port).role - 1) = false)) ∧
    (∃ (i : Instr) (op : Nat) (rq : Req) (p : List Byte) (s : State), (IsDelaz i op rq p) ∧ (s.portShut rq.port = false) ∧
      (p.length ≤ 4076) ∧ (4 ≤ rq.port) ∧ (s.boot.devState = 4) ∧ (safeGroup op = true)) ∧
    (∃ (rq : Req) (p : List Byte) (s : State), (Accepts s rq 0x0002 p.length) ∧ (4 ≤ rq.port) ∧ (rq.quiet = false)) ∧
    (∃ (h : HostId) (rq : Req) (p : List Byte) (s : State), (rq.port = h) ∧ (Accepts s rq 0x0002 p.length) ∧ (rq.quiet = false) ∧
      ((s.hp h).linkUp = true) ∧ ((s.hp h).pending < (s.hp h).replySize) ∧ ((s.hp h).msixEnable = false)) :=
  ⟨ ⟨(.devStatus p4 []), 2, p4, [], { s1 with boot := { devState := 1, off := true } }, .inr (.inl ⟨rfl, rfl⟩), by decide⟩,
    ⟨(.devStatus p4 (List.replicate 4077 0)), 2, p4, (List.replicate 4077 0), s1, .inr (.inl ⟨rfl, rfl⟩), by decide, by decide⟩,
    ⟨(.devStatus p4 [0]), 2, 3, 0, p4, [0], s1, .inr (.inl ⟨rfl, rfl⟩), by decide, by decide, by decide⟩,
    ⟨(.resetWarm (q 0) []), 3, (q 0), [], { s1 with boot := {} }, .inr (.inr (.inl ⟨rfl, rfl⟩)), by decide, by decide, by decide,
      by decide, by decide⟩,
    ⟨(.devStatus (q 0) []), 2, (opFix 7 [0] 0), (q 0), [], s1, .inr (.inl ⟨rfl, rfl⟩), by decide, by decide, by decide, by decide,
      by decide, rfl, by decide⟩,
    ⟨(.cfgArm p4 []), 0x0104, p4, [], { s1 with boot := { devState := 4 } },
      .inr (.inr (.inr (.inr (.inr (.inr (.inr (.inr (.inr (.inl ⟨rfl, rfl⟩))))))))), by decide, by decide, by decide, by decide,
      by decide⟩,
    ⟨p4, [], s1, by decide, by decide, by decide⟩,
    ⟨0, (q 2), [], hp0 up0, by decide, by decide, by decide, by decide, by decide, by decide⟩⟩

theorem witness_DelazPackets_2 :
    (∃ (h : HostId) (rq : Req) (p : List Byte) (s : State), (rq.port = h) ∧ (Accepts s rq 0x0002 p.length) ∧ (rq.quiet = false) ∧
      ((s.hp h).linkUp = true) ∧ ((s.hp h).replySize ≠ 0) ∧ ((s.hp h).replySize ≤ (s.hp h).pending)) ∧
    (∃ (h : HostId) (rq : Req) (p : List Byte) (s : State), (rq.port = h) ∧ (Accepts s rq 0x0002 p.length) ∧ (rq.quiet = false) ∧
      ((s.hp h).linkUp = false) ∧ (mapGet? s.ev.rate (rateKey 0x0F03 h) = none) ∧ (Room 1 s)) ∧
    (∃ (h : HostId) (rq : Req) (p : List Byte) (s : State), (rq.port = h) ∧ (Accepts s rq 0x0002 p.length) ∧ (rq.quiet = true)) ∧
    (∃ (s : State), (turn s = none)) ∧
    (∃ (b : List Byte) (q : Nat) (s : State), (turn s = some (q, b)) ∧ (rd b 4 2 ≤ 4076) ∧ ((q < 4 ∨ b.length = 20 + rd b 4 2)) ∧
      (packetCrcOk b (rd b 4 2) = true) ∧ (rd b 0 2 = 2) ∧ (headCheck s (packetReq q b) (rd b 4 2) = none)) ∧
    (∃ (b : List Byte) (s : State), (turn s = some (4, b)) ∧ (rd b 4 2 ≤ 4076) ∧ (b.length = 20 + rd b 4 2) ∧
      (packetCrcOk b (rd b 4 2) = false)) :=
  ⟨ ⟨0, (q 2), [], hp0 { up0 with replyWr := 16 }, by decide, by decide, by decide, by decide, by decide, by decide⟩,
    ⟨0, (q 2), [], hp0 { up0 with linkUp := false }, by decide, by decide, by decide, by decide, by decide, by decide⟩,
    ⟨0, { q 2 with quiet := true }, [], hp0 up0, by decide, by decide, by decide⟩,
    ⟨s1, by decide⟩,
    ⟨statusPacket, 4, { s1 with host := { spi := { packet := some (statusPacket) } } }, by decide, by decide, by decide, by decide,
      by decide, by decide⟩,
    ⟨(sparse 20 [(0, 2)]), { s1 with host := { spi := { packet := some (sparse 20 [(0, 2)]) } } }, by decide, by decide, by decide,
      by decide⟩⟩

theorem witness_DelazDevice_1 :
    (∃ (rq : Req) (p : List Byte) (s : State), (Accepts s rq 0x0001 p.length) ∧ (s.boot.devState ≠ 0) ∧ (s.param 0x1102 0 ≠ 1)) ∧
    (∃ (rq : Req) (p : List Byte) (s : State), (Accepts s rq 0x0002 p.length)) ∧
    (∃ (rq : Req) (p : List Byte) (s : State), (Accepts s rq 0x0003 p.length) ∧ (s.boot.devState ≠ 5)) ∧
    (∃ (rq : Req) (p : List Byte) (s : State), (Accepts s rq 0x0004 p.length) ∧ (s.host.flashOp = none) ∧ (1 ≤ rd p 4 2) ∧
      (rd p 4 2 ≤ 4064) ∧ (rd p 0 4 + rd p 4 2 ≤ 0x800000)) ∧
    (∃ (rq : Req) (p : List Byte) (s : State), (Accepts s rq 0x0005 p.length) ∧ (s.host.flashOp = none) ∧ (rd p 0 4 % 4096 = 0) ∧
      (rd p 4 4 % 4096 = 0) ∧ (rd p 0 4 + rd p 4 4 ≤ 0x800000)) ∧
    (∃ (rq : Req) (p : List Byte) (s : State), (Accepts s rq 0x0006 p.length) ∧ (s.host.flashOp = none) ∧
      (rd p 0 4 + (p.drop 4).length ≤ 0x800000)) ∧
    (∃ (rq : Req) (p : List Byte) (s : State), (Accepts s rq 0x0201 p.length) ∧ (s.param 0x1102 0 ≠ 1) ∧ (rq.inst ≤ 1023)) ∧
    (∃ (rq : Req) (p : List Byte) (x : Nat) (s : State), (Accepts s rq 0x0202 p.length) ∧ (p.length = 2) ∧ (rd p 0 2 = x) ∧ (x < 16384) ∧
      (s.param 0x061C x = rq.inst) ∧ (s.param 0x061E x = 0)) :=
  ⟨ ⟨p4, [], pooled, by decide, by decide, by decide⟩,
    ⟨p4, [], s1, by decide⟩,
    ⟨p4, [], s1, by decide, by decide⟩,
    ⟨p4, (sparse 6 [(4, 1)]), s1, by decide, by decide, by decide, by decide, by decide⟩,
    ⟨p4, (sparse 8 [(5, 16)]), s1, by decide, by decide, by decide, by decide, by decide⟩,
    ⟨p4, (sparse 5 []), s1, by decide, by decide, by decide⟩,
    ⟨(p4 0 3), [], pooled, by decide, by decide, by decide⟩,
    ⟨(p4 0 3), (sparse 2 []), 0, carr, by decide, by decide, by decide, by decide, by decide, by decide⟩⟩

theorem witness_DelazDevice_2 :
    (∃ (rq : Req) (p : List Byte) (s : State), (Accepts s rq 0x0203 p.length)) ∧
    (∃ (rq : Req) (p : List Byte) (s : State), (Accepts s rq 0x0301 p.length) ∧ (rd p 0 1 ≤ 63) ∧ (rd p 4 4 + (p.drop 8).length ≤ 32832)) ∧
    (∃ (rq : Req) (p : List Byte) (s : State), (Accepts s rq 0x0302 p.length) ∧ (rd p 0 1 ≤ 63) ∧
      (imageCheck (s.image (rd p 0 1)) = none)) ∧
    (∃ (rq : Req) (p : List Byte) (n : Nat) (s : State), (Accepts s rq 0x0302 p.length) ∧ (rd p 0 1 ≤ 63) ∧
      (imageCheck (s.image (rd p 0 1)) = some n)) ∧
    (∃ (rq : Req) (p : List Byte) (k : Nat) (s : State), (Accepts s rq 0x0303 p.length) ∧ (rd p 0 1 ≤ 63) ∧ (s.host.placeWait = none) ∧
      ((s.image (rd p 0 1)).committed = true) ∧ (maskCores (p.drop 8) = [k]) ∧ (imageTail (s.image (rd p 0 1)) = 2) ∧
      (s.underTest k = false) ∧ (s.domainOn (k / 16) = false)) ∧
    (∃ (rq : Req) (p : List Byte) (s : State), (Accepts s rq 0x0303 p.length) ∧ (rd p 0 1 ≤ 63) ∧ (s.host.placeWait = none) ∧
      ((s.image (rd p 0 1)).committed = false)) ∧
    (∃ (rq : Req) (p : List Byte) (s : State), (Accepts s rq 0x0304 p.length)) ∧
    (∃ (rq : Req) (p : List Byte) (s : State), (Accepts s rq 0x0305 p.length) ∧ (p.length = 72) ∧ (rd p 0 1 ≤ 3)) :=
  ⟨ ⟨(p4 0 3), (sparse 4 []), s1, by decide⟩,
    ⟨p4, (sparse 9 [(8, 7)]), s1, by decide, by decide, by decide⟩,
    ⟨p4, (sparse 8 []), { s1 with host := { images := [(0, { bytes := bytesWrite 0 [] 0 codeImage })] } }, by decide, by decide, by decide⟩,
    ⟨p4, (sparse 8 []), 1, s1, by decide, by decide, by decide⟩,
    ⟨p4, (sparse 136 [(8, 1)]), 0,
      { s1 with power := { on := [] }, host := { images := [(0, { committed := true, bytes := [(6, 2)] })] } }, by decide, by decide,
      by decide, by decide, by decide, by decide, by decide, by decide⟩,
    ⟨p4, (sparse 136 []), s1, by decide, by decide, by decide, by decide⟩,
    ⟨p4, [], s1, by decide⟩,
    ⟨p4, (sparse 72 []), s1, by decide, by decide, by decide⟩⟩

theorem witness_DelazDevice_3 :
    (∃ (rq : Req) (p : List Byte) (s : State), (Accepts s rq 0x0306 p.length) ∧ (p.length = 4) ∧ (rd p 2 2 ≠ 0)) ∧
    (∃ (rq : Req) (p : List Byte) (s : State), (Accepts s rq 0x0307 p.length)) ∧
    (∃ (rq : Req) (p : List Byte) (s : State), (Accepts s rq 0x0308 p.length) ∧ (rd p 0 1 ≤ 3) ∧
      (rd p 8 8 ≥ (s.slc (rd p 0 1)).traceWritten)) ∧
    (∃ (rq : Req) (p : List Byte) (s : State), (Accepts s rq 0x0308 p.length) ∧ (3 < rd p 0 1)) :=
  ⟨ ⟨p4, (sparse 4 [(2, 1)]), s1, by decide, by decide, by decide⟩,
    ⟨p4, (sparse 2 []), s1, by decide⟩,
    ⟨p4, (sparse 16 []), s1, by decide, by decide, by decide⟩,
    ⟨p4, (sparse 16 [(0, 4)]), s1, by decide, by decide⟩⟩

theorem witness_DelazTime_1 :
    (∃ (rq : Req) (p : List Byte) (l : List Entry) (s : State), (Accepts s rq 0x0101 p.length) ∧
      (entries (p.length + 1) s .get 0 p = .inr l) ∧ (firstUnfit (l.map (entryBytes s)) = none)) ∧
    (∃ (rq : Req) (p : List Byte) (st : Nat) (i : Nat) (s : State), (Accepts s rq 0x0101 p.length) ∧
      (entries (p.length + 1) s .get 0 p = .inl (st, i))) ∧
    (∃ (rq : Req) (p : List Byte) (e : Entry) (s : State), (Accepts s rq 0x0102 p.length) ∧
      (entries (p.length + 1) s .set 0 p = .inr [e]) ∧ (pairFail (s.setParam e.id e.inst e.val) [e] = none) ∧
      (e.id < 0x0401 ∨ 0x0404 < e.id) ∧ (e.id ≠ 0x0213) ∧ (e.id ≠ 0x0A01) ∧ (e.id ≠ 0x080E)) ∧
    (∃ (rq : Req) (p : List Byte) (st : Nat) (i : Nat) (s : State), (Accepts s rq 0x0102 p.length) ∧
      (entries (p.length + 1) s .set 0 p = .inl (st, i))) ∧
    (∃ (rq : Req) (p : List Byte) (e : Entry) (s : State), (Accepts s rq 0x0103 p.length) ∧ (rd p 0 1 = 0) ∧
      (entries (p.length + 1) s .stage 0 (p.drop 8) = .inr [e]) ∧ (s.staged rq.port = [])) ∧
    (∃ (rq : Req) (p : List Byte) (s : State), (Accepts s rq 0x0104 p.length) ∧ (armCheck s (s.staged rq.port) (rd p 0 8) = none)) ∧
    (∃ (rq : Req) (p : List Byte) (st : Nat) (det : Nat) (s : State), (Accepts s rq 0x0104 p.length) ∧
      (armCheck s (s.staged rq.port) (rd p 0 8) = some (st, det))) ∧
    (∃ (rq : Req) (p : List Byte) (x : Scope) (s : State), (Accepts s rq 0x0105 p.length) ∧ ((rq.scope = 0 ∧
      x = .device) ∨ (rq.scope = 1 ∧ x = .pool) ∨ (rq.scope = 2 ∧ x = .port rq.inst) ∨ (rq.scope = 3 ∧ x = .carrier rq.inst))) :=
  ⟨ ⟨p4, (sparse 8 [(0, 1), (1, 2), (2, 0), (3, 0)]), [{ id := 513, inst := 0, val := 0 }], s1, by decide, by decide, by decide⟩,
    ⟨p4, (sparse 8 []), 4, 0, s1, by decide, by decide⟩,
    ⟨p4, (sparse 16 [(0, 1), (1, 2), (2, 0), (3, 0), (4, 1), (8, 1)]), { id := 513, inst := 0, val := 1 }, s1, by decide, by decide,
      by decide, by decide, by decide, by decide, by decide⟩,
    ⟨p4, (sparse 8 []), 4, 0, s1, by decide, by decide⟩,
    ⟨p4, (sparse 24 [(8, 1), (9, 16), (10, 0), (11, 0), (12, 1), (16, 1)]), { id := 4097, inst := 0, val := 1 }, s1, by decide,
      by decide, by decide, by decide⟩,
    ⟨p4, (sparse 16 [(3, 1)]), { s1 with cfg := { staged := [(4, [(0x10050000, 1)])] } }, by decide, by decide⟩,
    ⟨p4, (sparse 16 []), 4, 0xFFFF, s1, by decide, by decide⟩,
    ⟨p4, [], .device, s1, by decide, by decide⟩⟩

theorem witness_DelazTime_2 :
    (∃ (rq : Req) (p : List Byte) (s : State), (Accepts s rq 0x0401 p.length)) ∧
    (∃ (rq : Req) (p : List Byte) (d : Nat) (s : State), (Accepts s rq 0x0402 p.length) ∧ (rd p 0 1 = d) ∧ (d < 2)) ∧
    (∃ (rq : Req) (p : List Byte) (s : State), (Accepts s rq 0x0402 p.length) ∧ (2 ≤ rd p 0 1)) ∧
    (∃ (rq : Req) (p : List Byte) (s : State), (Accepts s rq 0x0403 p.length)) ∧
    (∃ (rq : Req) (p : List Byte) (s : State), (Accepts s rq 0x0404 p.length) ∧ (rd p 0 1 < 2) ∧ (s.time.switchWait = none)) ∧
    (∃ (rq : Req) (p : List Byte) (s : State), (Accepts s rq 0x0405 p.length) ∧ (s.anyActive = true)) ∧
    (∃ (rq : Req) (p : List Byte) (s : State), (Accepts s rq 0x0405 p.length) ∧ (s.anyActive = false) ∧ ((∀ n,
      (s.comp n).armed = false)) ∧ ((∀ i, (s.slc i).items = [])) ∧ (s.mill.grants = []) ∧ (s.mill.tierMsgs = []) ∧ (Room 1 s)) ∧
    (∃ (rq : Req) (p : List Byte) (d : Nat) (n : Nat) (s : State), (Accepts s rq 0x0406 p.length) ∧ (rd p 20 1 = d) ∧ (rd p 21 1 = n) ∧
      (d < 2) ∧ (n < 4) ∧ (s.paramTime 0x020D (d * 4 + n) ≠ 255) ∧
      (((s.dom d).ns : Int) - extendStamp (s.dom d).ns (rd p 16 4) ≤ 1000000000)) :=
  ⟨ ⟨p4, [], s1, by decide⟩,
    ⟨p4, (sparse 8 []), 0, s1, by decide, by decide, by decide⟩,
    ⟨p4, (sparse 8 [(0, 2)]), s1, by decide, by decide⟩,
    ⟨p4, [], s1, by decide⟩,
    ⟨p4, (sparse 8 [(0, 1)]), s1, by decide, by decide, by decide⟩,
    ⟨p4, [], carr, by decide, by decide⟩,
    ⟨p4, [], s1, by decide, by decide, by intro n; rfl, fun _ => rfl, by decide, by decide, by decide⟩,
    ⟨p4, (sparse 24 []), 0, 0, pars s1 [(0x020D, 0, 1)], by decide, by decide, by decide, by decide, by decide, by decide, by decide⟩⟩

theorem witness_DelazTime_3 :
    (∃ (rq : Req) (p : List Byte) (s : State), (Accepts s rq 0x0406 p.length) ∧ (2 ≤ rd p 20 1 ∨ 4 ≤ rd p 21 1)) ∧
    (∃ (rq : Req) (p : List Byte) (s : State), (Accepts s rq 0x0407 p.length)) ∧
    (∃ (rq : Req) (p : List Byte) (k : Nat) (s : State), (Accepts s rq 0x0408 p.length) ∧ (rd p 0 1 = k) ∧ (k < 4) ∧
      (hasLink s rq.inst k = true) ∧ (ptpWaiting s rq.inst < 128) ∧ ((s.link rq.inst k).sending.isSome = true) ∧
      (s.linkUp rq.inst k = true) ∧ (Sendable s rq.inst k)) ∧
    (∃ (rq : Req) (p : List Byte) (k : Nat) (s : State), (Accepts s rq 0x0408 p.length) ∧ (rd p 0 1 = k) ∧ (k < 4) ∧
      (hasLink s rq.inst k = true) ∧ (ptpWaiting s rq.inst < 128) ∧ (s.linkUp rq.inst k = false)) ∧
    (∃ (rq : Req) (p : List Byte) (n : Nat) (s : State), (Accepts s rq 0x0409 p.length) ∧
      (armTimed s (rd p 0 2) (rd p 2 1) (rd p 3 1) (rd p 4 4) (rd p 8 8) (rd p 16 8) = .inr n)) ∧
    (∃ (rq : Req) (p : List Byte) (st : Nat) (s : State), (Accepts s rq 0x0409 p.length) ∧
      (armTimed s (rd p 0 2) (rd p 2 1) (rd p 3 1) (rd p 4 4) (rd p 8 8) (rd p 16 8) = .inl st)) ∧
    (∃ (rq : Req) (p : List Byte) (n : Nat) (s : State), (Accepts s rq 0x040A p.length) ∧ (rd p 0 2 = n) ∧ (64 ≤ n) ∧ (n ≤ 255) ∧
      (s.roleOf rq.port = 1 ∨ (s.comp n).port = rq.port) ∧ (compDue s n = false) ∧ ((s.comp n).armed = true)) ∧
    (∃ (rq : Req) (p : List Byte) (s : State), (Accepts s rq 0x040A p.length) ∧ (rd p 0 2 < 64)) :=
  ⟨ ⟨p4, (sparse 24 [(20, 2)]), s1, by decide, by decide⟩,
    ⟨(p4 0 2), (sparse 2 []), s1, by decide⟩,
    ⟨(p4 0 2), (sparse 64 []), 0, (pars s1 [(0x0501, 0, 5)]).setLink 0 0 { up := true, sending := some { kind := 2, bytes := [] } },
      by decide, by decide, by decide, by decide, by decide, by decide, by decide, by decide⟩,
    ⟨(p4 0 2), (sparse 64 []), 0, pars s1 [(0x0501, 0, 5)], by decide, by decide, by decide, by decide, by decide, by decide⟩,
    ⟨p4, (sparse 24 [(0, 64), (2, 6), (11, 1)]), 64, s1, by decide, by decide⟩,
    ⟨p4, (sparse 24 []), 13, s1, by decide, by decide⟩,
    ⟨p4, (sparse 8 [(0, 64)]), 64, s1.setComp 64 { armed := true, target := 5 }, by decide, by decide, by decide, by decide, by decide,
      by decide, by decide⟩,
    ⟨p4, (sparse 8 []), s1, by decide, by decide⟩⟩

theorem witness_DelazTime_4 : ∃ (rq : Req) (p : List Byte) (s : State), (Accepts s rq 0x040B p.length) :=
  ⟨p4, [], s1, by decide⟩

theorem witness_DelazMemory_1 :
    (∃ (rq : Req) (p : List Byte) (s : State), (Accepts s rq 0x0501 p.length) ∧ (rd p 0 1 ≤ 31) ∧ (rd p 1 1 = 1) ∧ (rd p 2 1 ≤ 3) ∧
      ((s.region (rd p 0 1)).st = 0) ∧ (rd p 8 8 % 0x4000000 = 0) ∧ (rd p 16 8 % 0x4000000 = 0) ∧ (rd p 16 8 ≠ 0) ∧
      (0x10000000 ≤ rd p 8 8) ∧ (rd p 8 8 + rd p 16 8 ≤ arenaBottom s) ∧ (arenaBottom s ≤ dataSpace s) ∧ ((∀ e ∈ s.mem.regions,
      e.2.st ≠ 0 → rangesMeet (rd p 8 8) (rd p 16 8) e.2.base e.2.size = false))) ∧
    (∃ (rq : Req) (p : List Byte) (s : State), (Accepts s rq 0x0501 p.length) ∧ (31 < rd p 0 1)) ∧
    (∃ (rq : Req) (p : List Byte) (s : State), (Accepts s rq 0x0502 p.length) ∧ ((s.region rq.inst).st = 2) ∧
      ((s.region rq.inst).sweep = none) ∧ (s.anyActive = false) ∧ (s.mem.cache0 = []) ∧ (s.mem.cache1 = []) ∧ (Room 1 s)) ∧
    (∃ (rq : Req) (p : List Byte) (s : State), (Accepts s rq 0x0502 p.length) ∧ ((s.region rq.inst).st = 0)) ∧
    (∃ (rq : Req) (p : List Byte) (s : State), (Accepts s rq 0x0503 p.length)) ∧
    (∃ (rq : Req) (p : List Byte) (s : State), (Accepts s rq 0x0504 p.length) ∧ ((s.region rq.inst).st = 2) ∧
      ((s.region rq.inst).mode = 2) ∧ ((s.region rq.inst).sweep = none) ∧ ((s.region rq.inst).slotA = 1)) ∧
    (∃ (rq : Req) (p : List Byte) (s : State), (Accepts s rq 0x0504 p.length) ∧ ((s.region rq.inst).mode ≠ 2)) ∧
    (∃ (rq : Req) (p : List Byte) (s : State), (Accepts s rq 0x0505 p.length) ∧ (rq.port < 4) ∧ (s.chanOwner rq.inst = rq.port + 1) ∧
      ((s.chan rq.inst).st = 0 ∨ (s.chan rq.inst).st = 4) ∧ (rd p 0 8 % 16 = 0)) :=
  ⟨ ⟨p4, (sparse 24 [(0, 1), (1, 1), (11, 16), (19, 4)]), { s1 with mem := { capacity := 1 } }, by decide, by decide, by decide,
    by decide, by decide, by decide, by decide, by decide, by decide, by decide, by decide, by decide⟩,
    ⟨p4, (sparse 24 [(0, 32)]), s1, by decide, by decide⟩,
    ⟨(p4 0 8), [], mem1 1 [], by decide, by decide, by decide, by decide, by decide, by decide, by decide⟩,
    ⟨(p4 0 8), [], s1, by decide, by decide⟩,
    ⟨p4, [], s1, by decide⟩,
    ⟨(p4 0 8), [], mem1 2 [], by decide, by decide, by decide, by decide, by decide⟩,
    ⟨(p4 0 8), [], s1, by decide, by decide⟩,
    ⟨(qs 0 7), (sparse 8 []), pars { dma1 { st := 0 } with host := { port0 := up0 } } [(0x0E01, 0, 1)], by decide, by decide, by decide,
      by decide, by decide⟩⟩

theorem witness_DelazMemory_2 :
    (∃ (i : Instr) (op : Nat) (rq : Req) (p : List Byte) (s : State), ((op = 0x0505 ∧ i = .dmaChanStart rq p) ∨ (op = 0x0506 ∧
      i = .dmaChanStop rq p) ∨ (op = 0x0507 ∧ i = .dmaChanReset rq p) ∨ (op = 0x0508 ∧ i = .dmaChanStatus rq p)) ∧
      (Accepts s rq op p.length) ∧ (4 ≤ rq.port ∨ s.chanOwner rq.inst ≠ rq.port + 1)) ∧
    (∃ (rq : Req) (p : List Byte) (s : State), (Accepts s rq 0x0506 p.length) ∧ (rq.port < 4) ∧ (s.chanOwner rq.inst = rq.port + 1) ∧
      ((s.chan rq.inst).st = 1 ∨ (s.chan rq.inst).st = 2)) ∧
    (∃ (rq : Req) (p : List Byte) (s : State), (Accepts s rq 0x0507 p.length) ∧ (rq.port < 4) ∧ (s.chanOwner rq.inst = rq.port + 1) ∧
      (QuietEngine s rq.inst)) ∧
    (∃ (rq : Req) (p : List Byte) (s : State), (Accepts s rq 0x0508 p.length) ∧ (rq.port < 4) ∧ (s.chanOwner rq.inst = rq.port + 1)) ∧
    (∃ (rq : Req) (p : List Byte) (s : State), (Accepts s rq 0x0601 p.length)) ∧
    (∃ (rq : Req) (p : List Byte) (s : State), (Accepts s rq 0x0602 p.length) ∧ (2 < rd p 0 1)) ∧
    (∃ (rq : Req) (p : List Byte) (s : State), (Accepts s rq 0x0602 p.length) ∧ (s.power.wait = none) ∧ (rd p 0 1 = powerState s)) ∧
    (∃ (rq : Req) (p : List Byte) (s : State), (Accepts s rq 0x0602 p.length) ∧ (s.power.wait = none) ∧ (rd p 0 1 = 2) ∧
      (powerState s ≠ 2) ∧ (s.activeCarriers ≠ [])) :=
  ⟨ ⟨(.dmaChanStart (p4 0 7) (sparse 8 [])), 0x0505, (p4 0 7), (sparse 8 []), s1, .inl ⟨rfl, rfl⟩, by decide, by decide⟩,
    ⟨(qs 0 7), [], pars { dma1 { st := 1 } with host := { port0 := up0 } } [(0x0E01, 0, 1)], by decide, by decide, by decide, by decide⟩,
    ⟨(qs 0 7), [], pars { dma1 { st := 1 } with host := { port0 := up0 } } [(0x0E01, 0, 1)], by decide, by decide, by decide,
      quiet_engine (by decide) (by decide)⟩,
    ⟨(qs 0 7), [], pars { dma1 { st := 1 } with host := { port0 := up0 } } [(0x0E01, 0, 1)], by decide, by decide, by decide⟩,
    ⟨p4, [], s1, by decide⟩,
    ⟨p4, (sparse 8 [(0, 3)]), s1, by decide, by decide⟩,
    ⟨p4, (sparse 8 []), s1, by decide, by decide, by decide⟩,
    ⟨p4, (sparse 8 [(0, 2)]), carr, by decide, by decide, by decide, by decide, by decide⟩⟩

theorem witness_DelazMemory_3 :
    (∃ (rq : Req) (p : List Byte) (s : State), (Accepts s rq 0x0602 p.length) ∧ (s.power.wait = none) ∧ (rd p 0 1 = 1) ∧
      (powerState s ≠ 1) ∧ ((∀ d, mapGet? s.fab.fences d = none))) ∧
    (∃ (rq : Req) (p : List Byte) (s : State), (Accepts s rq 0x0701 p.length)) ∧
    (∃ (rq : Req) (p : List Byte) (s : State), (Accepts s rq 0x0702 p.length) ∧ (committedActive s rq.inst = true) ∧
      (s.owns rq.inst = true)) ∧
    (∃ (rq : Req) (p : List Byte) (s : State), (Accepts s rq 0x0702 p.length) ∧ (committedActive s rq.inst = true) ∧
      (s.owns rq.inst = false) ∧ ((ownerOf s rq.inst).1 = 255) ∧ (mapGet? s.pool.migrations rq.inst = none) ∧
      (mapGet? s.pool.incoming rq.inst = none) ∧ (mapGet? s.pool.takeovers rq.inst = none) ∧ (s.now + 3932160 ≤ rd p 0 8)) ∧
    (∃ (rq : Req) (p : List Byte) (s : State), (Accepts s rq 0x0703 p.length) ∧ (committedActive s rq.inst = true) ∧
      (s.owns rq.inst = false) ∧ ((ownerOf s rq.inst).1 ≠ 255)) ∧
    (∃ (rq : Req) (p : List Byte) (s : State), (Accepts s rq 0x0703 p.length) ∧ (committedActive s rq.inst = true) ∧
      (s.owns rq.inst = true) ∧ (mapGet? s.pool.migrations rq.inst = none) ∧ (rd p 0 1 ≠ poolIndex s) ∧ (rd p 0 1 < poolSize s) ∧
      ((s.peer (rd p 0 1)).reachable = true) ∧ (s.now + 3932160 ≤ rd p 8 8)) :=
  ⟨ ⟨p4, (sparse 8 [(0, 1)]), s1, by decide, by decide, by decide, by decide, by intro d; rfl⟩,
    ⟨(p4 0 1), [], s1, by decide⟩,
    ⟨(p4 0 3), (sparse 16 []), carr, by decide, by decide, by decide⟩,
    ⟨(p4 0 3), (sparse 16 [(3, 1)]), pars pooled [(0x1001, 0, 1)], by decide, by decide, by decide, by decide, by decide, by decide,
      by decide, by decide⟩,
    ⟨(p4 0 3), (sparse 16 []), { pars pooled [(0x1001, 0, 1)] with pool := { owners := [(0, (1, 5))] } }, by decide, by decide,
      by decide, by decide⟩,
    ⟨(p4 0 3), (sparse 16 [(0, 1), (11, 1)]),
      { pars pooled [(0x1001, 0, 1)] with pool := { owners := [(0, (0, 5))], peers := [(1, { reachable := true })] } }, by decide,
      by decide, by decide, by decide, by decide, by decide, by decide, by decide⟩⟩

theorem witness_DelazLanes_1 :
    (∃ (rq : Req) (p : List Byte) (s : State), (Accepts s rq 0x0801 p.length)) ∧
    (∃ (rq : Req) (p : List Byte) (s : State), (Accepts s rq 0x0802 p.length) ∧ (portServes s rq.inst = true)) ∧
    (∃ (rq : Req) (p : List Byte) (s : State), (Accepts s rq 0x0802 p.length) ∧ (portServes s rq.inst = false) ∧
      (lastPoolLink s rq.inst = false) ∧ (maintOpen s rq.inst = false)) ∧
    (∃ (rq : Req) (p : List Byte) (s : State), (Accepts s rq 0x0803 p.length) ∧ (maintOpen s rq.inst = false)) ∧
    (∃ (rq : Req) (p : List Byte) (s : State), (Accepts s rq 0x0803 p.length) ∧ (maintOpen s rq.inst = true)) ∧
    (∃ (rq : Req) (p : List Byte) (l : Nat) (s : State), (Accepts s rq 0x0804 p.length) ∧ (rd p 0 2 = l) ∧ (l < 256) ∧ (rd p 2 1 = 2) ∧
      (6 ≤ rd p 3 1) ∧ (rd p 3 1 ≤ 12) ∧ (rd p 4 1 = 1 ∨ rd p 4 1 = 2 ∨ rd p 4 1 = 4 ∨ rd p 4 1 = 8) ∧
      (rd p 5 1 = 1 ∨ rd p 5 1 = 2 ∨ rd p 5 1 = 4 ∨ rd p 5 1 = 8) ∧ (mapGet? s.lanes.scans (l / 16) = none) ∧ ((s.lane l).cdr = true) ∧
      (s.param 0x0402 l ≠ 2)) ∧
    (∃ (rq : Req) (p : List Byte) (s : State), (Accepts s rq 0x0804 p.length) ∧ (256 ≤ rd p 0 2)) ∧
    (∃ (rq : Req) (p : List Byte) (c : Scan) (s : State), (Accepts s rq 0x0805 p.length) ∧
      (mapGet? s.lanes.scans (rq.inst / 16) = some c) ∧ (c.host = true) ∧ (c.lane = rq.inst) ∧ (Room 1 s)) :=
  ⟨ ⟨(p4 0 6), [], s1, by decide⟩,
    ⟨(p4 0 2), [], carr, by decide, by decide⟩,
    ⟨(p4 0 2), [], s1, by decide, by decide, by decide, by decide⟩,
    ⟨(p4 0 2), [], s1, by decide, by decide⟩,
    ⟨(p4 0 2), [], { s1 with lanes := { maint := [(0, 0)] } }, by decide, by decide⟩,
    ⟨p4, (sparse 8 [(2, 2), (3, 6), (4, 1), (5, 1)]), 0, s1.setLane 0 { cdr := true }, by decide, by decide, by decide, by decide,
      by decide, by decide, by decide, by decide, by decide, by decide, by decide⟩,
    ⟨p4, (sparse 8 [(1, 1)]), s1, by decide, by decide⟩,
    ⟨(p4 0 6), [], { host := true, lane := 0, mask := 0, k := 0, s := 0, t := 0, start := 0 },
      { s1 with lanes := { scans := [(0, { host := true, lane := 0, mask := 0, k := 0, s := 0, t := 0, start := 0 })] } }, by decide,
      by decide, by decide, by decide, by decide⟩⟩

theorem witness_DelazLanes_2 :
    (∃ (rq : Req) (p : List Byte) (s : State), (Accepts s rq 0x0805 p.length) ∧ (mapGet? s.lanes.scans (rq.inst / 16) = none)) ∧
    (∃ (rq : Req) (p : List Byte) (r : ScanResult) (s : State), (Accepts s rq 0x0806 p.length) ∧ (rd p 0 2 < 256) ∧ (rd p 2 1 < 3) ∧
      (rd p 4 2 < 8128) ∧ (eyeResult s (rd p 0 2) = r)) ∧
    (∃ (rq : Req) (p : List Byte) (s : State), (Accepts s rq 0x0807 p.length)) ∧
    (∃ (rq : Req) (p : List Byte) (n : Nat) (s : State), (Accepts s rq 0x0808 p.length) ∧ (rd p 0 2 = n) ∧ (1 ≤ n) ∧ (n ≤ 14)) ∧
    (∃ (rq : Req) (p : List Byte) (s : State), (Accepts s rq 0x0808 p.length) ∧ (rd p 0 2 = 0 ∨ 14 < rd p 0 2)) ∧
    (∃ (rq : Req) (p : List Byte) (s : State), (Accepts s rq 0x0809 p.length)) ∧
    (∃ (rq : Req) (p : List Byte) (k : Nat) (s : State), (Accepts s rq 0x080A p.length) ∧ (reqUnit rq = k) ∧ ((s.unitTest k).st = 0) ∧
      (k ∉ s.mill.withdrawn) ∧ (s.domainOn (unitDomain k) = true) ∧
      (testAllowed (s.setTest k { s.unitTest k with st := 1, trigger := 1 }) k = false)) ∧
    (∃ (rq : Req) (p : List Byte) (v : Nat) (s : State), (Accepts s rq 0x080A p.length) ∧ (rq.scope = 5) ∧ (rq.inst = v) ∧
      ((s.unitTest (1024 + v)).st = 0) ∧ ((1024 + v) ∉ s.mill.withdrawn) ∧ (s.domainOn (unitDomain (1024 + v)) = true) ∧
      (mapGet? s.mill.drains (1024 + v) = none) ∧ (waitsForWork s (1024 + v) = true) ∧ (runningOn s (1024 + v) = none) ∧
      (s.host.placeWait = none) ∧
      (testAllowed (s.setTest (1024 + v) { s.unitTest (1024 + v) with st := 1, trigger := 1 }) (1024 + v) = true)) :=
  ⟨ ⟨(p4 0 6), [], s1, by decide, by decide⟩,
    ⟨p4, (sparse 8 []), { lane := 0, k := 2, s := 6, t := 6 },
      { s1 with lanes := { results := [(0, { lane := 0, k := 2, s := 6, t := 6 })] } }, by decide, by decide, by decide, by decide,
      by decide⟩,
    ⟨(p4 0 2), [], s1, by decide⟩,
    ⟨(p4 0 2), (sparse 8 [(0, 1)]), 1, s1, by decide, by decide, by decide, by decide⟩,
    ⟨(p4 0 2), (sparse 8 []), s1, by decide, by decide⟩,
    ⟨p4, [], s1, by decide⟩,
    ⟨(p4 0 4), [], 0, pars s1 [(0x0807, unitTarget 0, 1024)], by decide, by decide, by decide, by decide, by decide, by decide⟩,
    ⟨(p4 0 5), [], 0, s1, by decide, by decide, by decide, by decide, by decide, by decide, by decide, by decide, by decide, by decide,
      by decide⟩⟩

theorem witness_DelazLanes_3 :
    (∃ (rq : Req) (p : List Byte) (k : Nat) (s : State), (Accepts s rq 0x080B p.length) ∧ (reqUnit rq = k) ∧ (k < 1024) ∧
      ((s.unitTest k).st = 1) ∧ (Room 1 s)) ∧
    (∃ (rq : Req) (p : List Byte) (s : State), (Accepts s rq 0x080B p.length) ∧ ((s.unitTest (reqUnit rq)).st = 0)) ∧
    (∃ (rq : Req) (p : List Byte) (k : Nat) (s : State), (Accepts s rq 0x080C p.length) ∧ (reqUnit rq = k)) :=
  ⟨ ⟨(p4 0 4), [], 0, s1.setTest 0 { st := 1 }, by decide, by decide, by decide, by decide, by decide⟩,
    ⟨(p4 0 4), [], s1, by decide, by decide⟩,
    ⟨(p4 0 4), [], 0, s1, by decide, by decide⟩⟩

theorem witness_DelazReports_1 :
    (∃ (rq : Req) (p : List Byte) (s : State), (Accepts s rq 0x0901 p.length) ∧ (rq.port < 4) ∧ (rd p 4 1 ≤ 4) ∧ (rd p 5 1 = 1) ∧
      (mapGet? s.ev.subs rq.port = none) ∧ (s.ev.loss = [])) ∧
    (∃ (rq : Req) (p : List Byte) (s : State), (Accepts s rq 0x0901 p.length) ∧ (4 ≤ rq.port)) ∧
    (∃ (rq : Req) (p : List Byte) (s : State), (Accepts s rq 0x0902 p.length) ∧ (mapGet? s.ev.subs rq.port = none) ∧
      (rq.port ∉ s.ev.lagged)) ∧
    (∃ (rq : Req) (p : List Byte) (x : Sub) (e : LogEntry) (s : State), (Accepts s rq 0x0902 p.length) ∧ (s.ev.subs = [(rq.port, x)]) ∧
      (s.ev.log = [e]) ∧ (x.pos = s.ev.freed) ∧ (x.matches e.code e.sev = true) ∧ (e.ext = false) ∧ (1 ≤ rd p 0 2) ∧ (s.ev.loss = [])) ∧
    (∃ (rq : Req) (p : List Byte) (s : State), (Accepts s rq 0x0903 p.length) ∧ (s.ev.loss = [])) ∧
    (∃ (rq : Req) (p : List Byte) (s : State), (Accepts s rq 0x0A01 p.length) ∧ (s.proul.unlocked = false)) ∧
    (∃ (rq : Req) (p : List Byte) (s : State), (Accepts s rq 0x0A01 p.length) ∧ (s.proul.unlocked = true)) ∧
    (∃ (rq : Req) (p : List Byte) (c : Challenge) (s : State), (Accepts s rq 0x0A02 p.length) ∧ (s.proul.unlocked = false) ∧
      (liveChallenge s = some c) ∧ (s.param 0x1602 0 = 0) ∧ (Room 1 s)) :=
  ⟨ ⟨(qs 0 0), (sparse 8 [(5, 1)]), hp0 up0, by decide, by decide, by decide, by decide, by decide, by decide⟩,
    ⟨p4, (sparse 8 []), s1, by decide, by decide⟩,
    ⟨p4, (sparse 2 []), s1, by decide, by decide, by decide⟩,
    ⟨(qs 0 0), (sparse 2 [(0, 1)]), { mask := 0xFFFF, minSev := 0, pos := 0, since := 0, lastRead := 0 },
      { seq := 1, at_ := 0, cls := 0, inst := 0, code := 0x0101, cont := false, ext := false, sev := 0, len := 0, detail := [] },
      { hp0 up0 with ev := { log := [{ seq := 1, at_ := 0, cls := 0, inst := 0, code := 0x0101, cont := false, ext := false, sev := 0, len := 0, detail := [] }], subs := [(0, { mask := 0xFFFF, minSev := 0, pos := 0, since := 0, lastRead := 0 })] } },
      by decide, by decide, by decide, by decide, by decide, by decide, by decide, by decide⟩,
    ⟨p4, [], s1, by decide, by decide⟩,
    ⟨p4, [], s1, by decide, by decide⟩,
    ⟨p4, [], { s1 with proul := { unlocked := true } }, by decide, by decide⟩,
    ⟨p4, (sparse 192 []), { bytes := [1], expiry := 5 }, { s1 with proul := { challenge := some { bytes := [1], expiry := 5 } } },
      by decide, by decide, by decide, by decide, by decide⟩⟩

theorem witness_DelazReports_2 :
    (∃ (rq : Req) (p : List Byte) (s : State), (Accepts s rq 0x0A02 p.length) ∧ (s.proul.unlocked = false) ∧ (s.proul.challenge = none) ∧
      (Room 1 s)) ∧
    (∃ (rq : Req) (p : List Byte) (s : State), (Accepts s rq 0x0A03 p.length) ∧ (s.proul.unlocked = false)) ∧
    (∃ (rq : Req) (p : List Byte) (s : State), (Accepts s rq 0x0A03 p.length) ∧ (s.proul.unlocked = true) ∧ (s.facet.cores = []) ∧
      (Room 1 s)) ∧
    (∃ (rq : Req) (p : List Byte) (s : State), (Accepts s rq 0x0A04 p.length)) ∧
    (∃ (rq : Req) (p : List Byte) (s : State), (Accepts s rq 0x0B01 p.length)) ∧
    (∃ (rq : Req) (p : List Byte) (r : List Byte) (l : List (List Byte)) (s : State), (Accepts s rq 0x0B02 p.length) ∧
      (s.power.records = r :: l)) :=
  ⟨ ⟨p4, (sparse 192 []), s1, by decide, by decide, by decide, by decide⟩,
    ⟨p4, [], s1, by decide, by decide⟩,
    ⟨p4, [], { s1 with proul := { unlocked := true } }, by decide, by decide, by decide, by decide⟩,
    ⟨p4, [], s1, by decide⟩,
    ⟨p4, [], s1, by decide⟩,
    ⟨p4, (sparse 4 []), [1], [], { s1 with power := { records := [[1]] } }, by decide, by decide⟩⟩

theorem witness_RealignClearsResidual :
    (∃ (rq : Req) (p : List Byte) (s : State), (Accepts s rq 0x0405 p.length) ∧ (s.anyActive = true)) ∧
    (∃ (rq : Req) (p : List Byte) (s : State), (Accepts s rq 0x0405 p.length) ∧ (s.anyActive = false)) :=
  ⟨ ⟨p4, [], carr, by decide, by decide⟩,
    ⟨p4, [], s1, by decide, by decide⟩⟩

theorem witness_ChallengeIsDrawn :
    (∃ (rq : Req) (p : List Byte) (s : State), (Accepts s rq 0x0A01 p.length)) ∧
    (∃ (rq : Req) (s : State), (Accepts s rq 0x0A01 0) ∧ (s.proul.unlocked = false)) ∧
    (∃ (rq : Req) (p : List Byte) (s : State), (Accepts s rq 0x0A01 p.length) ∧ (s.proul.unlocked = true)) :=
  ⟨ ⟨p4, [], s1, by decide⟩,
    ⟨p4, s1, by decide, by decide⟩,
    ⟨p4, [], { s1 with proul := { unlocked := true } }, by decide, by decide⟩⟩

theorem witness_Commits_1 :
    (∃ (i : Instr) (s : State), (s.cfg.commit = none) ∧ ((∃ u, i = .unitReady u) ∨ (∃ b, i = .commitReadinessCheck b) ∨ (∃ b r,
      i = .shadowSwap b r) ∨ (∃ u, i = .unitApplied u) ∨ i = .commitOutcome ∨ i = .commitRollback)) ∧
    (∃ (u : BitVec 16) (k : Commit) (s : State), (s.cfg.commit = some k) ∧ (k.stage = 0) ∧ (u.toNat ∈ k.units) ∧ (u.toNat ∉ k.ready) ∧
      (mapGet? k.reasons u.toNat = none) ∧ (unitClosed s u.toNat = false)) ∧
    (∃ (u : BitVec 16) (k : Commit) (s : State), (s.cfg.commit = some k) ∧ (unitClosed s u.toNat = true)) ∧
    (∃ (bad : List Nat) (k : Commit) (s : State), (s.cfg.commit = some k) ∧ (k.stage = 0) ∧ (k.t ≤ s.now + 491520) ∧ ((∀ u ∈ k.units,
      u ∈ k.ready ∧ u ∉ bad))) ∧
    (∃ (bad : List Nat) (k : Commit) (s : State), (s.cfg.commit = some k) ∧ (k.stage = 0) ∧ (s.now + 491520 < k.t)) ∧
    (∃ (bad : List Nat) (k : Commit) (s : State), (s.cfg.commit = some k) ∧ (k.stage = 0) ∧ (k.t ≤ s.now + 491520) ∧ ((∃ u ∈ k.units,
      u ∉ k.ready ∨ u ∈ bad)) ∧ (Room 1 s)) ∧
    (∃ (bad : List Nat) (reset : List Nat) (k : Commit) (s : State), (s.cfg.commit = some k) ∧ (k.stage = 1) ∧ (k.t ≤ s.now) ∧
      (Inert k.set)) ∧
    (∃ (bad : List Nat) (reset : List Nat) (k : Commit) (s : State), (s.cfg.commit = some k) ∧ (k.stage = 1) ∧ (s.now < k.t)) :=
  ⟨ ⟨.commitOutcome, s1, by decide, .inr (.inr (.inr (.inr (.inl rfl))))⟩,
    ⟨0x0500, commit0, committing commit0, by decide, by decide, by decide, by decide, by decide, by decide⟩,
    ⟨0x0500, commit0, { committing commit0 with power := { on := [] } }, by decide, by decide⟩,
    ⟨[], { commit0 with ready := [0x0500] }, committing { commit0 with ready := [0x0500] }, by decide, by decide, by decide, by decide⟩,
    ⟨[], { commit0 with t := 10 ^ 9 }, committing { commit0 with t := 10 ^ 9 }, by decide, by decide, by decide⟩,
    ⟨[], commit0, committing commit0, by decide, by decide, by decide, by decide, by decide⟩,
    ⟨[], [], { commit0 with stage := 1 }, committing { commit0 with stage := 1 }, by decide, by decide, by decide, by decide⟩,
    ⟨[], [], { commit0 with stage := 1, t := 5 }, committing { commit0 with stage := 1, t := 5 }, by decide, by decide, by decide⟩⟩

theorem witness_Commits_2 :
    (∃ (u : BitVec 16) (k : Commit) (s : State), (s.cfg.commit = some k) ∧ (k.stage = 2) ∧ (u.toNat ∈ k.swapped) ∧ (u.toNat ∉ k.applied)) ∧
    (∃ (k : Commit) (e : Nat × Nat) (s : State), (s.cfg.commit = some k) ∧ (k.stage = 2) ∧ (k.t + 491520 ≤ s.now) ∧ (k.safe = false) ∧
      ((∀ u ∈ k.units, u ∈ k.applied)) ∧ (k.set = [e]) ∧ (carrierOf (e.1 / 65536) (e.1 % 65536) = none) ∧ (Room 1 s)) ∧
    (∃ (k : Commit) (s : State), (s.cfg.commit = some k) ∧ (k.stage = 2) ∧ (k.t + 491520 ≤ s.now) ∧ ((∃ u ∈ k.units, u ∉ k.applied))) ∧
    (∃ (k : Commit) (s : State), (s.cfg.commit = some k) ∧ (k.stage = 3) ∧ (k.t + 1966080 ≤ s.now) ∧ (k.safe = false) ∧ (Inert k.set) ∧
      (k.heldOut = []) ∧ (s.pool.held = []) ∧ (Room 1 s)) :=
  ⟨ ⟨0x0500, { commit0 with stage := 2, swapped := [0x0500] }, committing { commit0 with stage := 2, swapped := [0x0500] }, by decide,
    by decide, by decide, by decide⟩,
    ⟨{ commit0 with stage := 2, applied := [0x0500] }, (0x03060000, 1),
      { at1 (10 ^ 9) with cfg := { commit := some { commit0 with stage := 2, applied := [0x0500] } } }, by decide, by decide, by decide,
      by decide, by decide, by decide, by decide, by decide⟩,
    ⟨{ commit0 with stage := 2 }, { at1 (10 ^ 9) with cfg := { commit := some { commit0 with stage := 2 } } }, by decide, by decide,
      by decide, by decide⟩,
    ⟨{ commit0 with stage := 3 }, { at1 (10 ^ 9) with cfg := { commit := some { commit0 with stage := 3 } } }, by decide, by decide,
      by decide, by decide, by decide, by decide, by decide, by decide⟩⟩

theorem witness_PoolFrames :
    (∃ (i : Instr) (ty : Nat) (p : PortId) (b : List Byte) (s : State), ((ty = 1 ∧ i = .heartbeat p b) ∨ (ty = 2 ∧
      i = .state p b) ∨ (ty = 3 ∧ i = .claim p b) ∨ (ty = 4 ∧ ∃ d, i = .mirror p b d)) ∧ (rd b 19 1 ≠ ty)) ∧
    (∃ (p : PortId) (src : Nat) (b : List Byte) (s : State), (PoolArrives s p 1 src b) ∧ (Room 1 s)) ∧
    (∃ (p : PortId) (src : Nat) (b : List Byte) (s : State), (PoolArrives s p 2 src b) ∧ (s.pool.retireAt = none) ∧ (Room 1 s)) ∧
    (∃ (p : PortId) (src : Nat) (b : List Byte) (s : State), (PoolArrives s p 3 src b) ∧ (Room 1 s)) ∧
    (∃ (p : PortId) (src : Nat) (b : List Byte) (d : Decode) (s : State), (PoolArrives s p 4 src b) ∧ ((∀ c,
      mapGet? s.pool.incoming c = none))) ∧
    (∃ (i : Instr) (step : Nat) (p : PortId) (src : Nat) (b : List Byte) (s : State), ((step = 1 ∧ i = .prepare p b) ∨ (step = 2 ∧
      i = .ready p b) ∨ (step = 3 ∧ i = .go p b) ∨ (step = 4 ∧ i = .goAck p b) ∨ (step = 5 ∧ i = .cancel p b)) ∧
      (PoolArrives s p 5 src b)) :=
  ⟨ ⟨(.state 0 []), 2, 0, [], s1, .inr (.inl ⟨rfl, rfl⟩), by decide⟩,
    ⟨0, 1, (poolFrame 1), member, by decide, by decide⟩,
    ⟨0, 1, (poolFrame 2), member, by decide, by decide, by decide⟩,
    ⟨0, 1, (poolFrame 3), member, by decide, by decide⟩,
    ⟨0, 1, (poolFrame 4), .clean, member, by decide, by intro c; rfl⟩,
    ⟨(.go 0 (poolFrame 5)), 3, 0, 1, (poolFrame 5), member, .inr (.inr (.inl ⟨rfl, rfl⟩)), by decide⟩⟩

theorem witness_PoolTimers_1 :
    (∃ (s : State), (poolSize s ≤ 1)) ∧
    (∃ (i : Nat) (p : Nat) (s : State), (poolPeers s = [i]) ∧ (directPorts s i = [p]) ∧ ((∀ q ∈ poolPorts s,
      (s.poolLink q).peer ≠ none)) ∧ (MaySend s p i) ∧ (s.pool.heartbeatAt + 196608 ≤ s.now)) ∧
    (∃ (i : Nat) (p : Nat) (s : State), (poolPeers s = [i]) ∧ (poolRoute s i 0 = some p) ∧ (MaySend s p i) ∧
      (s.pool.stateAt + 19660800 ≤ s.now)) ∧
    (∃ (c : CarrierId) (s : State), (mapGet? s.pool.lost c = none)) ∧
    (∃ (c : CarrierId) (o : Nat) (e : Nat) (s : State), (mapGet? s.pool.lost c = some (o, e)) ∧ (o ≠ poolIndex s) ∧ ((∀ n : Fin 4,
      (s.slc n).items = [])) ∧ (Room 1 s)) ∧
    (∃ (c : CarrierId) (i : Nat) (p : Nat) (pg : Nat) (data : List Byte) (s : State), (mirrorTarget s c = some i) ∧
      ((s.peer i).reachable = true) ∧ (poolRoute s i c = some p) ∧ ((mapGet? s.pool.mirrors c).bind (fun m => m.resync) = none) ∧
      (oldestPage (dirtyOf s c) = some pg) ∧ (extRead s (pg * 2048) 2048 = some data) ∧ (MaySend s p i) ∧ (s.pool.migrations = [])) ∧
    (∃ (c : CarrierId) (s : State), (mirrorTarget s c = none)) ∧
    (∃ (c : CarrierId) (i : Nat) (s : State), (mirrorTarget s c = some i) ∧ ((s.peer i).reachable = true) ∧ ((∃ e ∈ dirtyOf s c,
      e.2 + s.param 0x1107 0 < s.now)) ∧ (mapGet? s.ev.rate (rateKey 0x1108 c) = none) ∧ (Room 1 s)) :=
  ⟨ ⟨s1, by decide⟩,
    ⟨1, 0, { (pars member [(0x0501, 0, 5), (0x110B, 0, 0x100000), (0x110A, 0, 0x10000000), (0x1109, 0, 1)]) with pool := { member.pool with links := [(0, { peer := some 1 })] }, ports := { ports := [(0, { link0 := { up := true, sending := some { kind := 2, bytes := [] } } })] }, time := (at1 (10 ^ 9)).time },
      by decide, by decide, by decide, by decide, by decide⟩,
    ⟨1, 0, { (pars member [(0x0501, 0, 5), (0x110B, 0, 0x100000), (0x110A, 0, 0x10000000), (0x1109, 0, 1)]) with pool := { member.pool with links := [(0, { peer := some 1 })] }, ports := { ports := [(0, { link0 := { up := true, sending := some { kind := 2, bytes := [] } } })] }, time := (at1 (10 ^ 9)).time },
      by decide, by decide, by decide, by decide⟩,
    ⟨0, s1, by decide⟩,
    ⟨0, 1, 5, { pooled with pool := { lost := [(0, (1, 5))] } }, by decide, by decide, by decide, by decide⟩,
    ⟨0, 1, 0, 131072, (List.replicate 2048 0),
      { (pars member [(0x0501, 0, 5), (0x110B, 0, 0x100000), (0x110A, 0, 0x10000000), (0x1109, 0, 1)]) with pool := { member.pool with links := [(0, { peer := some 1 })], owners := [(0, (0, 5))], peers := [(1, { reachable := true })], dirty := [(131072, 0)] }, ports := { ports := [(0, { link0 := { up := true, sending := some { kind := 2, bytes := [] } } })] }, mem := { (mem1 1 []).mem with capacity := 1 } },
      by decide, by decide, by decide, by decide, by decide, by decide, by decide, by decide⟩,
    ⟨0, s1, by decide⟩,
    ⟨0, 1, { at1 (10 ^ 12) with cfg := (pars member [(0x110B, 0, 0x100000), (0x110A, 0, 0x10000000), (0x1109, 0, 1)]).cfg, pool := { owners := [(0, (0, 5))], peers := [(1, { reachable := true })], dirty := [(131072, 0)] } },
      by decide, by decide, by decide, by decide, by decide⟩⟩

theorem witness_PoolTimers_2 :
    (∃ (c : CarrierId) (s : State), (mapGet? s.pool.migrations c = none)) ∧
    (∃ (c : CarrierId) (m : Migration) (s : State), (mapGet? s.pool.migrations c = some m) ∧ (m.cancelled = false) ∧ (m.goSent = false) ∧
      (m.t ≤ s.now + 491520)) ∧
    (∃ (c : CarrierId) (m : Migration) (s : State), (mapGet? s.pool.migrations c = some m) ∧ (m.cancelled = false) ∧ (m.ack = false) ∧
      (m.t ≤ s.now + 245760)) ∧
    (∃ (c : CarrierId) (m : Migration) (s : State), (mapGet? s.pool.migrations c = some m) ∧ (m.cancelled = false) ∧
      (m.switched = false) ∧ (m.goSent = true) ∧ (m.t ≤ s.now) ∧ ((∀ n : Fin 4, (s.slc n).items = []))) ∧
    (∃ (c : CarrierId) (m : Incoming) (s : State), (mapGet? s.pool.migrations c = none) ∧ (mapGet? s.pool.incoming c = some m) ∧
      (m.armed = true) ∧ (m.t ≤ s.now)) ∧
    (∃ (c : CarrierId) (m : Incoming) (s : State), (mapGet? s.pool.migrations c = none) ∧ (mapGet? s.pool.incoming c = some m) ∧
      (m.armed = false) ∧ (m.t ≤ s.now)) ∧
    (∃ (c : CarrierId) (m : Migration) (s : State), (mapGet? s.pool.migrations c = some m) ∧ (m.t + 1966080 ≤ s.now)) ∧
    (∃ (c : CarrierId) (w : TakeWait) (s : State), (mapGet? s.pool.takeovers c = some w) ∧ (w.t ≤ s.now)) :=
  ⟨ ⟨0, s1, by decide⟩,
    ⟨0, { req := q 0x0703, target := 1, t := 0, epoch := 5 },
      { s1 with pool := { migrations := [(0, { req := q 0x0703, target := 1, t := 0, epoch := 5 })] } }, by decide, by decide, by decide,
      by decide⟩,
    ⟨0, { req := q 0x0703, target := 1, t := 0, epoch := 5 },
      { s1 with pool := { migrations := [(0, { req := q 0x0703, target := 1, t := 0, epoch := 5 })] } }, by decide, by decide, by decide,
      by decide⟩,
    ⟨0, { req := q 0x0703, target := 1, t := 0, epoch := 5 , goSent := true },
      { pooled with pool := { migrations := [(0, { req := q 0x0703, target := 1, t := 0, epoch := 5 , goSent := true })] } }, by decide,
      by decide, by decide, by decide, by decide, by decide⟩,
    ⟨0, { source := 1, t := 0, epoch := 5, armed := true },
      { pooled with pool := { incoming := [(0, { source := 1, t := 0, epoch := 5, armed := true })] } }, by decide, by decide, by decide,
      by decide⟩,
    ⟨0, { source := 1, t := 0, epoch := 5 }, { pooled with pool := { incoming := [(0, { source := 1, t := 0, epoch := 5 })] } },
      by decide, by decide, by decide, by decide⟩,
    ⟨0, { req := q 0x0703, target := 1, t := 0, epoch := 5 },
      { (at1 (10 ^ 9)) with pool := { migrations := [(0, { req := q 0x0703, target := 1, t := 0, epoch := 5 })] } }, by decide, by decide⟩,
    ⟨0, { req := q 0x0702, t := 0 }, { s1 with pool := { takeovers := [(0, { req := q 0x0702, t := 0 })] } }, by decide, by decide⟩⟩

theorem witness_PoolTimers_3 :
    (∃ (c : CarrierId) (s : State), (mapGet? s.pool.takeovers c = none)) ∧
    (∃ (i : Fin 4) (s : State), ((s.peer i).reachable = true) ∧ ((s.peer i).lastHb + 3932160 ≤ s.now) ∧ (Room 1 s)) ∧
    (∃ (i : Fin 4) (s : State), ((s.peer i).reachable = false ∨ s.now < (s.peer i).lastHb + 3932160)) ∧
    (∃ (i : Nat) (s : State), (poolPeers s = [i]) ∧ ((s.peer i).offsets ≠ []) ∧ (Room 1 s) ∧ (s.pool.offsetAt + 19660800 ≤ s.now)) ∧
    (∃ (x : Nat) (s : State), (s.pool.retireAt = some x) ∧ (x ≤ s.now) ∧ (Room 1 s)) ∧
    (∃ (s : State), (s.pool.retireAt = none)) :=
  ⟨ ⟨0, s1, by decide⟩,
    ⟨1, { (at1 (10 ^ 9)) with pool := { peers := [(1, { reachable := true })] } }, by decide, by decide, by decide⟩,
    ⟨1, s1, by decide⟩,
    ⟨1, { pooled with time := (at1 (10 ^ 9)).time, pool := { peers := [(1, { offsets := [4] })] } }, by decide, by decide, by decide,
      by decide⟩,
    ⟨0, { s1 with pool := { retireAt := some 0 } }, by decide, by decide, by decide⟩,
    ⟨s1, by decide⟩⟩

theorem witness_EventsAndTests_1 :
    (∃ (s : State), (s.ev.queue = []) ∧ (s.ev.loss = [])) ∧
    (∃ (s : State), (s.ev.queue ≠ []) ∧ (s.ev.acceptedAt = some s.now)) ∧
    (∃ (e : EventRec) (rest : List EventRec) (s : State), (s.ev.queue = e :: rest) ∧ (s.ev.acceptedAt ≠ some s.now) ∧ (s.ev.subs = []) ∧
      (s.ev.loss = []) ∧ ((entriesFor s e).length ≤ 4096 - s.ev.log.length)) ∧
    (∃ (e : EventRec) (rest : List EventRec) (s : State), (s.ev.queue = e :: rest) ∧ (s.ev.acceptedAt ≠ some s.now) ∧ (s.ev.subs ≠ []) ∧
      ((∀ u ∈ s.ev.subs, u.2.matches e.code e.sev = false)) ∧ (s.ev.loss = [])) ∧
    (∃ (e : EventRec) (rest : List EventRec) (s : State), (s.ev.queue = e :: rest) ∧ (s.ev.acceptedAt ≠ some s.now) ∧ (s.ev.subs = []) ∧
      (4096 - s.ev.log.length < (entriesFor s e).length)) ∧
    (∃ (h : HostId) (s : State), (mapGet? s.ev.subs h = none)) ∧
    (∃ (h : HostId) (u : Sub) (x : Nat) (s : State), (s.ev.subs = [(h.val, u)]) ∧ (lagDeadline s u = some x) ∧ (x ≤ s.now) ∧
      (s.ev.log.length < 4096) ∧ (s.ev.loss = [])) ∧
    (∃ (h : HostId) (u : Sub) (x : Nat) (s : State), (mapGet? s.ev.subs h = some u) ∧ (lagDeadline s u = some x) ∧ (s.now < x)) :=
  ⟨ ⟨s1, by decide, by decide⟩,
    ⟨{ s1 with ev := { queue := [{ cls := 0, inst := 0, code := 0x0101, sev := 1, detail := [] }], acceptedAt := some 0 } }, by decide,
      by decide⟩,
    ⟨{ cls := 0, inst := 0, code := 0x0101, sev := 1, detail := [] }, [],
      { s1 with ev := { queue := [{ cls := 0, inst := 0, code := 0x0101, sev := 1, detail := [] }] } }, by decide, by decide, by decide,
      by decide, by decide⟩,
    ⟨{ cls := 0, inst := 0, code := 0x0101, sev := 1, detail := [] }, [],
      { s1 with ev := { queue := [{ cls := 0, inst := 0, code := 0x0101, sev := 1, detail := [] }], subs := [(0, { mask := 0, minSev := 4, pos := 0, since := 0, lastRead := 0 })] } },
      by decide, by decide, by decide, by decide, by decide⟩,
    ⟨{ cls := 0, inst := 0, code := 0x0101, sev := 1, detail := [] }, [],
      { s1 with ev := { queue := [{ cls := 0, inst := 0, code := 0x0101, sev := 1, detail := [] }], log := List.replicate 4096 { seq := 1, at_ := 0, cls := 0, inst := 0, code := 0x0101, cont := false, ext := false, sev := 0, len := 0, detail := [] } } },
      by decide, by decide, by decide, by decide⟩,
    ⟨0, s1, by decide⟩,
    ⟨0, { mask := 0xFFFF, minSev := 0, pos := 0, since := 0, lastRead := 0 }, 196608000,
      { at1 (10 ^ 12) with ev := { subs := [(0, { mask := 0xFFFF, minSev := 0, pos := 0, since := 0, lastRead := 0 })], log := [{ seq := 1, at_ := 0, cls := 0, inst := 0, code := 0x0101, cont := false, ext := false, sev := 0, len := 0, detail := [] }] } },
      by decide, by decide, by decide, by decide, by decide⟩,
    ⟨0, { mask := 0xFFFF, minSev := 0, pos := 0, since := 0, lastRead := 0 }, 196608000,
      { s1 with ev := { subs := [(0, { mask := 0xFFFF, minSev := 0, pos := 0, since := 0, lastRead := 0 })], log := [{ seq := 1, at_ := 0, cls := 0, inst := 0, code := 0x0101, cont := false, ext := false, sev := 0, len := 0, detail := [] }] } },
      by decide, by decide, by decide⟩⟩

theorem witness_EventsAndTests_2 :
    (∃ (k : Fin 1144) (s : State), (s.boot.devState = 1) ∧ (s.param 0x1201 (unitTarget k) ≠ 0) ∧ ((s.unitTest k).st = 0) ∧
      (testDueAt s k ≤ s.now)) ∧
    (∃ (k : Fin 1144) (s : State), (IdleClove s k.val) ∧ (s.param 0x1201 (unitTarget k) ≠ 0) ∧ ((s.unitTest k).st = 0) ∧
      (testDueAt s k ≤ s.now) ∧
      (testAllowed (s.setTest k { s.unitTest k with st := 1, trigger := 0, dueAt := testDueAt s k }) k = true) ∧ (s.test.waiting = []) ∧
      (s.test.units = [])) ∧
    (∃ (k : Fin 1144) (s : State), (s.param 0x1201 (unitTarget k) = 0 ∨ (inService s k = false ∧
      testGated s k = false) ∨ s.now < testDueAt s k)) ∧
    (∃ (k : Fin 1144) (s : State), (IdleClove s k.val) ∧ (firstWaiting s k = true) ∧ (testAllowed s k = true) ∧
      ((s.unitTest k).trigger = 1)) ∧
    (∃ (k : Fin 1144) (s : State), (firstWaiting s k = false ∨ testAllowed s k = false)) ∧
    (∃ (k : Fin 1144) (f : Option (BitVec 16)) (s : State), ((s.unitTest k).st ≠ 3 ∨ s.now < (s.unitTest k).until_)) ∧
    (∃ (k : Fin 1144) (s : State), (1024 ≤ k.val) ∧ ((s.unitTest k).st = 3) ∧ ((s.unitTest k).until_ ≤ s.now) ∧ (s.boot.devState ≠ 4) ∧
      (Room 1 s)) ∧
    (∃ (k : Fin 1144) (v : BitVec 16) (s : State), (1024 ≤ k.val) ∧ ((s.unitTest k).st = 3) ∧ ((s.unitTest k).until_ ≤ s.now) ∧
      (Room 1 s)) :=
  ⟨ ⟨0, { pars s1 [(0x0807, unitTarget 0, 1024), (0x1201, unitTarget 0, 100)] with time := (at1 (10 ^ 12)).time }, by decide, by decide,
    by decide, by decide⟩,
    ⟨1024, { pars s1 [(0x1201, unitTarget 1024, 100)] with time := (at1 (10 ^ 12)).time }, by decide, by decide, by decide, by decide,
      by decide, by decide, by decide⟩,
    ⟨0, { s1 with power := { on := [] } }, by decide⟩,
    ⟨1024, { s1.setTest 1024 { st := 1, trigger := 1 } with test := { waiting := [1024], units := [(1024, { st := 1, trigger := 1 })] } },
      by decide, by decide, by decide, by decide⟩,
    ⟨0, s1, by decide⟩,
    ⟨0, none, s1, by decide⟩,
    ⟨1024, s1.setTest 1024 { st := 3 }, by decide, by decide, by decide, by decide, by decide⟩,
    ⟨1024, 5, s1.setTest 1024 { st := 3 }, by decide, by decide, by decide, by decide⟩⟩

theorem witness_EventsAndTests_3 : ∃ (k : Fin 1144) (v : BitVec 16) (s : State), (k.val < 1024) ∧ ((s.unitTest k).st = 3) ∧
  ((s.unitTest k).until_ ≤ s.now) ∧ (s.boot.devState = 4) ∧ (Room 1 s) :=
  ⟨0, 5, { s1.setTest 0 { st := 3 } with boot := { devState := 4 } }, by decide, by decide, by decide, by decide, by decide⟩

theorem witness_PowerStates_1 :
    (∃ (s : State), (s.power.wait = none)) ∧
    (∃ (w : PowerWait) (s : State), (s.power.wait = some w) ∧ (w.left ≠ [])) ∧
    (∃ (w : PowerWait) (s : State), (s.power.wait = some w) ∧ (w.left = []) ∧ (w.target = 0) ∧ (Room 2 s)) ∧
    (∃ (w : PowerWait) (s : State), (s.power.wait = some w) ∧ (w.left = []) ∧ (w.target = 1) ∧ (Room 2 s)) ∧
    (∃ (w : PowerWait) (s : State), (s.power.wait = some w) ∧ (w.left = []) ∧ (w.target = 2) ∧ (NothingCached s) ∧ (Room 2 s)) ∧
    (∃ (d : Fin 96) (s : State), (planOf s d ≠ 2)) ∧
    (∃ (d : Fin 96) (s : State), ((∀ x, mapGet? s.power.idleFrom d = some x → s.now < x + s.param 0x1302 0))) ∧
    (∃ (d : Fin 96) (k : Nat) (s : State), (k ∈ domainUnits d) ∧ (waitsForWork s k = false)) :=
  ⟨ ⟨s1, by decide⟩,
    ⟨{ req := q 0x0602, target := 0, left := [3] },
      { s1 with power := { wait := some { req := q 0x0602, target := 0, left := [3] } }, boot := { devState := 1 } }, by decide, by decide⟩,
    ⟨{ req := q 0x0602, target := 0, left := [] },
      { s1 with power := { wait := some { req := q 0x0602, target := 0, left := [] } }, boot := { devState := 2 } }, by decide,
      by decide, by decide, by decide⟩,
    ⟨{ req := q 0x0602, target := 1, left := [] },
      { s1 with power := { wait := some { req := q 0x0602, target := 1, left := [] } }, boot := { devState := 1 } }, by decide,
      by decide, by decide, by decide⟩,
    ⟨{ req := q 0x0602, target := 2, left := [] },
      { s1 with power := { wait := some { req := q 0x0602, target := 2, left := [] } }, boot := { devState := 1 } }, by decide,
      by decide, by decide, by decide, by decide⟩,
    ⟨0, s1, by decide⟩,
    ⟨0, s1, by decide⟩,
    ⟨0, 0, s1, by decide, by decide⟩⟩

theorem witness_PowerStates_2 :
    (∃ (d : Fin 96) (x : Nat) (s : State), (s.boot.devState = 1 ∨ s.boot.devState = 4) ∧ (planOf s d = 2) ∧ (s.domainOn d = true) ∧
      (mapGet? s.power.idleFrom d = some x) ∧ (x + s.param 0x1302 0 ≤ s.now) ∧ (mapGet? s.fab.fences d = none) ∧ ((∀ k ∈ domainUnits d,
      waitsForWork s k = true))) ∧
    (∃ (d : Fin 96) (s : State), (s.boot.devState = 1) ∧ (planOf s d = 2) ∧ (s.domainOn d = false) ∧ (mapGet? s.fab.fences d = none) ∧
      (mapGet? s.power.coming d = none) ∧ (domainWithdrawn s d = false) ∧ (demanded s d = true)) ∧
    (∃ (d : Fin 96) (s : State), (s.boot.devState = 1) ∧ (planOf s d = 2) ∧ ((mapGet? s.fab.fences d).isSome = true) ∧
      (mapGet? s.power.coming d = none) ∧ (domainWithdrawn s d = false) ∧ (demanded s d = true)) ∧
    (∃ (d : Fin 96) (s : State),
      (demanded s d = false ∨ domainWithdrawn s d = true ∨ (mapGet? s.power.coming d).isSome = true ∨ s.boot.devState ≠ 1)) ∧
    (∃ (d : Fin 96) (s : State), (mapGet? s.power.coming d = none)) ∧
    (∃ (d : Fin 96) (cause : Nat) (s : State), (mapGet? s.power.coming d = some cause) ∧ (Room 1 s)) ∧
    (∃ (s : State), (s.boot.devState = 3) ∧ (bit (s.param 0x1305 0) 0 = true) ∧ (s.boot.warmDue = false)) ∧
    (∃ (s : State), (s.boot.devState ≠ 3 ∨ bit (s.param 0x1305 0) 0 = false)) :=
  ⟨ ⟨0, 0, { pars s1 [(0x1301, 0, 2)] with facet := { cores := (List.range 16).map fun k => (k, { waiting := true }) }, time := (at1 (10 ^ 12)).time, power := { s1.power with idleFrom := [(0, 0)] } },
    by decide, by decide, by decide, by decide, by decide, by decide, by decide⟩,
    ⟨0, { pars (holds 3 (ready [])) [(0x1301, 0, 2)] with power := { on := [] } }, by decide, by decide, by decide, by decide, by decide,
      by decide, by decide⟩,
    ⟨0, { pars (holds 3 (ready [])) [(0x1301, 0, 2)] with fab := { fences := [(0, { left := [], at_ := 0, cause := 1 })] } }, by decide,
      by decide, by decide, by decide, by decide, by decide⟩,
    ⟨0, s1, by decide⟩,
    ⟨0, s1, by decide⟩,
    ⟨0, 1, { s1 with power := { coming := [(0, 1)] } }, by decide, by decide⟩,
    ⟨{ pars s1 [(0x1305, 0, 3)] with boot := { devState := 3 } }, by decide, by decide, by decide⟩,
    ⟨s1, by decide⟩⟩

theorem witness_PowerStates_3 :
    (∃ (h : HostId) (s : State), (s.boot.devState = 3) ∧ (bit (s.param 0x1305 0) 1 = true) ∧ (s.boot.warmDue = false)) ∧
    (∃ (h : HostId) (s : State), (s.boot.devState ≠ 3 ∨ bit (s.param 0x1305 0) 1 = false)) :=
  ⟨ ⟨0, { pars s1 [(0x1305, 0, 3)] with boot := { devState := 3 } }, by decide, by decide, by decide⟩,
    ⟨0, s1, by decide⟩⟩

theorem witness_PowerSensors_1 :
    (∃ (x : Fin 6) (sag : Byte) (s : State), ((s.stretch x).level < sagLevel (s.param 0x1303 x) sag.toNat)) ∧
    (∃ (x : Fin 6) (sag : Byte) (s : State), (sagLevel (s.param 0x1303 x) sag.toNat ≤ (s.stretch x).level)) ∧
    (∃ (x : Fin 6) (s : State), (0 < (s.stretch x).level)) ∧
    (∃ (x : Fin 6) (s : State), ((s.stretch x).level = 0)) ∧
    (∃ (s : State), (s.now / 19660800 ≤ s.power.windows)) ∧
    (∃ (s : State), (s.power.windows < s.now / 19660800) ∧ (Room 6 s)) ∧
    (∃ (ms : List TileSample) (s : State), ((∀ x, s.power.nextSample = some x → s.now < x))) ∧
    (∃ (ms : List TileSample) (x : Nat) (s : State), (s.power.nextSample = some x) ∧ (x ≤ s.now) ∧ ((∀ cl, cl < 64 →
      bit (s.cluster cl).reasons 0 = false))) :=
  ⟨ ⟨0, 255, s1, by decide⟩,
    ⟨0, 0, s1, by decide⟩,
    ⟨0, { s1 with power := { stretch := [(0, { level := 1 })] } }, by decide⟩,
    ⟨0, s1, by decide⟩,
    ⟨s1, by decide⟩,
    ⟨at1 (10 ^ 9), by decide, by decide⟩,
    ⟨[], s1, by decide⟩,
    ⟨[], 0, { s1 with power := { s1.power with nextSample := some 0 }, facet := { clusters := (List.range 64).map fun k => (k, { reasons := 0 }) } },
      by decide, by decide, by decide⟩⟩

theorem witness_PowerSensors_2 :
    (∃ (ms : List TileSample) (x : Nat) (s : State), (s.power.nextSample = some x) ∧ (x ≤ s.now)) ∧
    (∃ (s : State), ((∀ x : Fin 6, (s.tilePlan x).bound = none))) ∧
    (∃ (x : Fin 6) (b : Nat) (s : State), (2 ≤ x.val) ∧ ((s.tilePlan x).bound = some b) ∧ (b ≤ s.now) ∧ (commitWindow s b = none) ∧
      ((∀ j : Fin 6, j ≠ x → (s.tilePlan j).bound = none)) ∧ ((s.tilePlan x).margin = 0) ∧ (Room 1 s)) ∧
    (∃ (x : Fin 6) (b : Nat) (o : Nat) (s : State), (2 ≤ x.val) ∧ ((s.tilePlan x).bound = some b) ∧ (b ≤ s.now) ∧
      (commitWindow s b = some o) ∧ ((∀ j : Fin 6, j ≠ x → (s.tilePlan j).bound = none))) ∧
    (∃ (x : Fin 6) (c : Fin 5) (idx : Byte) (s : State), (x.val < 2 ∨ c.val = 4) ∧ (Room 1 s)) ∧
    (∃ (x : Fin 6) (c : Fin 5) (idx : Byte) (s : State), (2 ≤ x.val) ∧ (c.val = 2 ∨ c.val = 3) ∧
      ((s.tilePlan x).v < s.param 0x1403 (x.val - 2)) ∧ (Room 1 s)) ∧
    (∃ (rail : Fin 4) (res : Fin 3) (s : State), ((s.tilePlan (2 + rail.val)).avs = none)) ∧
    (∃ (rail : Fin 4) (v : Nat) (kind : Nat) (s : State), ((s.tilePlan (2 + rail.val)).avs = some (v, kind)) ∧ (Room 1 s)) :=
  ⟨ ⟨[], 0, { s1 with power := { s1.power with nextSample := some 0 } }, by decide, by decide⟩,
    ⟨s1, by decide⟩,
    ⟨2, 0, { s1 with power := { s1.power with tiles := [(2, { bound := some 0 })] } }, by decide, by decide, by decide, by decide,
      by decide, by decide, by decide⟩,
    ⟨2, 0, 491520, { s1 with power := { s1.power with tiles := [(2, { bound := some 0 })] }, cfg := { commit := some commit0 } },
      by decide, by decide, by decide, by decide, by decide⟩,
    ⟨0, 0, 0, s1, by decide, by decide⟩,
    ⟨2, 2, 0, { s1 with power := { s1.power with tiles := [(2, { v := 800 })] } }, by decide, by decide, by decide, by decide⟩,
    ⟨0, 0, s1, by decide⟩,
    ⟨0, 800, 0, { s1 with power := { s1.power with tiles := [(2, { avs := some (800, 0) })] } }, by decide, by decide⟩⟩

theorem witness_PowerSensors_3 :
    (∃ (rail : Fin 4) (res : Fin 3) (v : Nat) (kind : Nat) (s : State), ((s.tilePlan (2 + rail.val)).avs = some (v, kind)) ∧ (res ≠ 0) ∧
      (Room 1 s)) ∧
    (∃ (hot : Bool) (s : State), (s.boot.off = false)) ∧
    (∃ (s : State), (s.boot.off = false) ∧ (s.power.trip = false)) ∧
    (∃ (s : State), (s.boot.off = true ∨ s.power.trip = true)) ∧
    (∃ (x : Fin 6) (b : Nat) (s : State), (2 ≤ x.val) ∧ ((s.tilePlan x).bound = some b) ∧ (b ≤ s.now) ∧ (commitWindow s b = none) ∧
      ((∀ j : Fin 6, j ≠ x → (s.tilePlan j).bound = none)) ∧ ((s.tilePlan x).margin = 0) ∧ (Room 1 s) ∧ ((s.tilePlan x).step = none)) ∧
    (∃ (x : Fin 6) (b : Nat) (i : Nat) (s : State), (2 ≤ x.val) ∧ ((s.tilePlan x).bound = some b) ∧ (b ≤ s.now) ∧
      (commitWindow s b = none) ∧ ((∀ j : Fin 6, j ≠ x → (s.tilePlan j).bound = none)) ∧ ((s.tilePlan x).margin = 0) ∧ (Room 1 s) ∧
      ((s.tilePlan x).step = some (0, i))) ∧
    (∃ (x : Fin 6) (b : Nat) (i : Nat) (s : State), (2 ≤ x.val) ∧ ((s.tilePlan x).bound = some b) ∧ (b ≤ s.now) ∧
      (commitWindow s b = none) ∧ ((∀ j : Fin 6, j ≠ x → (s.tilePlan j).bound = none)) ∧ ((s.tilePlan x).margin = 0) ∧ (Room 1 s) ∧
      ((s.tilePlan x).step = some (1, i))) ∧
    (∃ (x : Fin 6) (b : Nat) (i : Nat) (s : State), (2 ≤ x.val) ∧ ((s.tilePlan x).bound = some b) ∧ (b ≤ s.now) ∧
      (commitWindow s b = none) ∧ ((∀ j : Fin 6, j ≠ x → (s.tilePlan j).bound = none)) ∧ ((s.tilePlan x).margin = 0) ∧ (Room 1 s) ∧
      ((s.tilePlan x).step = some (3, i))) :=
  ⟨ ⟨0, 1, 800, 0, { s1 with power := { s1.power with tiles := [(2, { avs := some (800, 0) })] } }, by decide, by decide, by decide⟩,
    ⟨false, s1, by decide⟩,
    ⟨s1, by decide, by decide⟩,
    ⟨{ s1 with boot := { off := true } }, by decide⟩,
    ⟨2, 0, { s1 with power := { s1.power with tiles := [(2, { bound := some 0 })] } }, by decide, by decide, by decide, by decide,
      by decide, by decide, by decide, by decide⟩,
    ⟨2, 0, 0, { s1 with power := { s1.power with tiles := [(2, { bound := some 0, step := some (0, 0) })] } }, by decide, by decide,
      by decide, by decide, by decide, by decide, by decide, by decide⟩,
    ⟨2, 0, 0, { s1 with power := { s1.power with tiles := [(2, { bound := some 0, step := some (1, 0) })] } }, by decide, by decide,
      by decide, by decide, by decide, by decide, by decide, by decide⟩,
    ⟨2, 0, 0, { s1 with power := { s1.power with tiles := [(2, { bound := some 0, step := some (3, 0) })] } }, by decide, by decide,
      by decide, by decide, by decide, by decide, by decide, by decide⟩⟩

theorem witness_ResetsAndStarts_1 :
    (∃ (s : State), (s.boot.rstLow = true)) ∧
    (∃ (s : State), (s.boot.rstLow = false) ∧ (s.host.flashOp = none)) ∧
    (∃ (s : State), (s.host.flashOp = none)) ∧
    (∃ (s : State), (s.boot.rstLow = false) ∧ (s.boot.off = false) ∧ (s.boot.devState = 1 ∨ s.boot.devState = 2 ∨ s.boot.devState = 4) ∧
      (s.boot.warmDue = false)) ∧
    (∃ (s : State), (s.boot.rstLow = false) ∧ (s.boot.off = false) ∧ (s.boot.devState = 3) ∧ (s.boot.warmDue = false)) ∧
    (∃ (s : State), (s.boot.devState = 0 ∨ s.boot.devState = 5)) ∧
    (∃ (m : StartIn) (s : State), (s.boot.rstLow = false) ∧ (s.boot.devState ≠ 0)) ∧
    (∃ (m : StartIn) (s : State), (s.boot.rstLow = true) ∧ (s.host.flashOp = none) ∧ (m.fuse = true)) :=
  ⟨ ⟨{ s1 with boot := { rstLow := true } }, by decide⟩,
    ⟨s1, by decide, by decide⟩,
    ⟨s1, by decide⟩,
    ⟨s1, by decide, by decide, by decide, by decide⟩,
    ⟨{ s1 with boot := { devState := 3 } }, by decide, by decide, by decide, by decide⟩,
    ⟨{ s1 with boot := { devState := 5 } }, by decide⟩,
    ⟨{ fuse := false, rom := false, clock := false, flashConfig := false, flashImage := false, flashLanes := false, avs := none, spd := false, train := false, laniman := false, capacity := 1, retained := none, digestOk := true, micros := 0, oscSel := false, mspi := false },
      s1, by decide, by decide⟩,
    ⟨{ fuse := true, rom := false, clock := false, flashConfig := false, flashImage := false, flashLanes := false, avs := none, spd := false, train := false, laniman := false, capacity := 1, retained := none, digestOk := true, micros := 0, oscSel := false, mspi := false },
      { s1 with boot := { rstLow := true } }, by decide, by decide, by decide⟩⟩

theorem witness_ResetsAndStarts_2 :
    (∃ (m : StartIn) (s : State), (s.boot.rstLow = true) ∧ (s.host.flashOp = none) ∧ (s.lanes.lanes = []) ∧ (FindsNothing m)) ∧
    (∃ (m : StartIn) (s : State), (s.boot.warmDue = false)) ∧
    (∃ (m : StartIn) (s : State), (s.boot.warmDue = true) ∧ (s.boot.rstLow = false) ∧ (s.boot.off = false) ∧ (s.power.wait = none) ∧
      (s.host.flashOp = none) ∧ (m.fuse = true)) ∧
    (∃ (m : StartIn) (s : State), (s.boot.warmDue = true) ∧ (s.boot.rstLow = false) ∧ (s.boot.off = false) ∧ (s.power.wait = none) ∧
      (s.host.flashOp = none) ∧ (s.time.oscLost = false) ∧ (FindsNothing m) ∧ (m.retained = none) ∧ (m.digestOk = true) ∧ (Quiet s) ∧
      (Room 1 s)) :=
  ⟨ ⟨{ fuse := false, rom := false, clock := false, flashConfig := false, flashImage := false, flashLanes := false, avs := none, spd := false, train := false, laniman := false, capacity := 1, retained := none, digestOk := true, micros := 0, oscSel := false, mspi := false },
    { s1 with boot := { rstLow := true } }, by decide, by decide, by decide, by decide⟩,
    ⟨{ fuse := false, rom := false, clock := false, flashConfig := false, flashImage := false, flashLanes := false, avs := none, spd := false, train := false, laniman := false, capacity := 1, retained := none, digestOk := true, micros := 0, oscSel := false, mspi := false },
      s1, by decide⟩,
    ⟨{ fuse := true, rom := false, clock := false, flashConfig := false, flashImage := false, flashLanes := false, avs := none, spd := false, train := false, laniman := false, capacity := 1, retained := none, digestOk := true, micros := 0, oscSel := false, mspi := false },
      { s1 with boot := { devState := 1, warmDue := true } }, by decide, by decide, by decide, by decide, by decide, by decide⟩,
    ⟨{ fuse := false, rom := false, clock := false, flashConfig := false, flashImage := false, flashLanes := false, avs := none, spd := false, train := false, laniman := false, capacity := 1, retained := none, digestOk := true, micros := 0, oscSel := false, mspi := false },
      { s1 with boot := { devState := 1, warmDue := true } }, by decide, by decide, by decide, by decide, by decide, by decide,
      by decide, by decide, by decide, by decide, by decide⟩⟩

theorem witness_TapAndProul_1 :
    (∃ (s : State), (s.boot.off = false)) ∧
    (∃ (i : Instr) (ir : Nat) (v : Nat) (s : State), ((ir = 0 ∧ i = .extest v) ∨ (ir = 3 ∧ i = .clamp ∧ v = s.proul.bscan) ∨ (ir = 4 ∧
      i = .highz ∧ v = s.proul.bscan) ∨ (ir = 5 ∧ i = .extestPulse v) ∨ (ir = 6 ∧ i = .extestTrain v)) ∧ (s.boot.off = false)) ∧
    (∃ (i : Instr) (a : Nat) (s : State), (IsProul i a) ∧ (s.boot.off = true ∨ s.proul.result = 1)) ∧
    (∃ (i : Instr) (a : Nat) (s : State), (IsProul i a) ∧ (s.boot.off = false) ∧ (s.proul.result ≠ 1) ∧ (s.proul.unlocked = false)) ∧
    (∃ (s : State), (Unlocked s)) ∧
    (∃ (a : W64) (d : W64) (s : State), (Unlocked s) ∧ (a.toNat % 8 ≠ 0)) ∧
    (∃ (i : Instr) (a : W64) (d : W64) (cmd : Nat) (s : State), (Unlocked s) ∧ (a.toNat % 8 = 0) ∧ ((cmd = 1 ∧
      i = .fabRead a) ∨ (cmd = 2 ∧ i = .fabWrite a d))) ∧
    (∃ (a : W64) (d : W64) (s : State), (Unlocked s) ∧ (dbgPlace a.toNat = .bad)) :=
  ⟨ ⟨s1, by decide⟩,
    ⟨(.extest 5), 0, 5, s1, .inl ⟨rfl, rfl⟩, by decide⟩,
    ⟨.nop, 0, { s1 with proul := { result := 1 } }, .inl ⟨rfl, rfl⟩, by decide⟩,
    ⟨.nop, 0, s1, .inl ⟨rfl, rfl⟩, by decide, by decide, by decide⟩,
    ⟨unlk, by decide⟩,
    ⟨1, 0, unlk, by decide, by decide⟩,
    ⟨(.fabRead 8), 8, 0, 1, unlk, by decide, by decide, .inl ⟨rfl, rfl⟩⟩,
    ⟨1, 0, unlk, by decide, by decide⟩⟩

theorem witness_TapAndProul_2 :
    (∃ (a : W64) (d : W64) (k : Nat) (off : Nat) (s : State), (Unlocked s) ∧ (dbgPlace a.toNat = .imem k off)) ∧
    (∃ (a : W64) (d : W64) (k : Nat) (n : Nat) (s : State), (Unlocked s) ∧ (dbgPlace a.toNat = .g k n) ∧ ((s.core k).dbg.halted = false)) ∧
    (∃ (a : W64) (k : Nat) (n : Nat) (s : State), (Unlocked s) ∧ (dbgPlace a.toNat = .g k n) ∧ ((s.core k).dbg.halted = true)) ∧
    (∃ (a : W64) (k : Nat) (off : Nat) (s : State), (Unlocked s) ∧ (dbgPlace a.toNat = .imem k off) ∧ ((s.core k).dbg.halted = true)) ∧
    (∃ (a : W64) (k : Nat) (s : State), (Unlocked s) ∧ (dbgPlace a.toNat = .reg k 0x408)) ∧
    (∃ (a : W64) (d : W64) (k : Nat) (n : Nat) (s : State), (Unlocked s) ∧ (dbgPlace a.toNat = .g k n) ∧ ((s.core k).dbg.halted = true)) ∧
    (∃ (a : W64) (d : W64) (k : Nat) (i : Nat) (s : State), (Unlocked s) ∧ (i < 4) ∧ (dbgPlace a.toNat = .reg k (0x420 + 8 * i))) ∧
    (∃ (k : CoreId) (s : State), (Unlocked s) ∧ (s.domainOn (k.val / 16) = true) ∧ ((s.core k).dbg.halted = false) ∧
      ((s.core k).dbg.requested = false) ∧ ((s.core k).restoring = false)) :=
  ⟨ ⟨0x40000008, 0, 0, 8, unlk, by decide, by decide⟩,
    ⟨8, 0, 0, 1, unlk, by decide, by decide, by decide⟩,
    ⟨8, 0, 1, halted0, by decide, by decide, by decide⟩,
    ⟨0x40000008, 0, 8, halted0, by decide, by decide, by decide⟩,
    ⟨0x408, 0, unlk, by decide, by decide⟩,
    ⟨8, 0, 0, 1, halted0, by decide, by decide, by decide⟩,
    ⟨0x428, 0, 0, 1, unlk, by decide, by decide, by decide⟩,
    ⟨0, unlk, by decide, by decide, by decide, by decide, by decide⟩⟩

theorem witness_TapAndProul_3 :
    (∃ (k : CoreId) (s : State), (Unlocked s) ∧ ((s.core k).dbg.halted = true) ∧ (mapGet? s.mill.drains k = none)) ∧
    (∃ (k : CoreId) (s : State), (Unlocked s) ∧ ((s.core k).dbg.halted = true)) ∧
    (∃ (i : Instr) (k : CoreId) (s : State), (Unlocked s) ∧ ((i = .halt k ∧
      (s.core k).dbg.halted = true) ∨ ((i = .resume k ∨ i = .step k) ∧ (s.core k).dbg.halted = false))) ∧
    (∃ (m : Byte) (s : State), (Unlocked s)) ∧
    (∃ (k : CoreId) (s : State), ((s.core k).dbg.requested = false ∨ boundaryOpen (s.core k).regs = false)) ∧
    (∃ (k : CoreId) (s : State), ((s.core k).dbg.requested = true) ∧ ((s.core k).dbg.halted = false) ∧ ((s.core k).restoring = false) ∧
      (boundaryOpen (s.core k).regs = true) ∧ ((settle 8 (s.core k) none 0).2.1 = none) ∧
      ((settle 8 (s.core k) none 0).1.restoring = false) ∧ ((settle 8 (s.core k) none 0).1.dbg.dxt % 256 = 0) ∧
      (mapGet? s.ev.rate (rateKey 0x1604 k) = none) ∧ (Room 1 s)) ∧
    (∃ (k : CoreId) (s : State), (k.val ∉ s.proul.xtPending)) ∧
    (∃ (k : CoreId) (s : State), (k.val ∈ s.proul.xtPending) ∧ (s.domainOn (k.val / 16) = true) ∧ ((s.core k).dbg.halted = false) ∧
      ((s.core k).dbg.requested = false) ∧ ((s.core k).restoring = false)) :=
  ⟨ ⟨0, halted0, by decide, by decide, by decide⟩,
    ⟨0, halted0, by decide, by decide⟩,
    ⟨(.halt 0), 0, halted0, by decide, .inl ⟨rfl, by decide⟩⟩,
    ⟨0, unlk, by decide⟩,
    ⟨0, s1, by decide⟩,
    ⟨0, { s1 with facet := { cores := [(0, { dbg := { requested := true } })] } }, by decide, by decide, by decide, by decide, by decide,
      by decide, by decide, by decide, by decide⟩,
    ⟨0, s1, by decide⟩,
    ⟨0, { s1 with proul := { xtPending := [0] } }, by decide, by decide, by decide, by decide, by decide⟩⟩

theorem witness_TapAndProul_4 :
    (∃ (s : State), (s.proul.expiry = none)) ∧
    (∃ (x : Nat) (s : State), (s.proul.expiry = some x) ∧ (x ≤ s.now) ∧ (s.proul.unlocked = true) ∧ (s.facet.cores = []) ∧ (Room 1 s)) ∧
    (∃ (c : Challenge) (s : State), (s.proul.challenge = some c) ∧ (c.expiry ≤ s.now)) ∧
    (∃ (s : State), (s.proul.challenge = none)) :=
  ⟨ ⟨s1, by decide⟩,
    ⟨0, { s1 with proul := { unlocked := true, expiry := some 0 } }, by decide, by decide, by decide, by decide, by decide⟩,
    ⟨{ bytes := [], expiry := 0 }, { s1 with proul := { challenge := some { bytes := [], expiry := 0 } } }, by decide, by decide⟩,
    ⟨s1, by decide⟩⟩

/-! ## Facet rows: a core at the bottom of its memory, and operands that a form takes -/

theorem quiet1 : QuietCore s1 0 := by unfold QuietCore; decide

theorem witness_ScalarAlu : QuietCore s1 0 := quiet1

theorem witness_ScalarMultiply : QuietCore s1 0 := quiet1

theorem witness_ScalarControl : QuietCore s1 0 := quiet1

theorem witness_ScalarMemory : QuietCore s1 0 ∧ ∀ n ∈ [1, 2, 4, 8], InDmem (formAddr (s1.core 0).regs 6 (.postReg 5) n) n ∧
    formAddr (s1.core 0).regs 6 (.postReg 5) n % n = 0 := ⟨quiet1, by decide⟩

theorem witness_VectorMemory : QuietCore s1 0 ∧ InDmem (formAddr (s1.core 0).regs 6 (.postReg 5) 64) 64 := ⟨quiet1, by decide⟩

theorem witness_ElementMemory : QuietCore s1 0 ∧ accG 0x022 = 1 ∧ accPost 0x022 = false ∧ accWatch 0x022 = false ∧
    ((s1.core 0).tail = 0 → accSel 0x020 = 0) ∧ ((s1.core 0).regs.getG 5).toNat % 64 = 0 ∧
    InDmem ((s1.core 0).regs.getG 5).toNat 256 := ⟨quiet1, by decide, by decide, by decide, by decide, by decide, by decide⟩

theorem witness_VectorInteger : QuietCore s1 0 ∧
    (∀ o ∈ [VecOp.vadd, .vsub, .vneg, .vabs, .vmin, .vmax, .vand, .vor, .vxor, .vandn, .vshl, .vshr, .vshru, .vmulq],
      VecForm s1 0 o .i16 4 6 2 0) ∧
    ∀ o ∈ [VecOp.vconj, .vcmulj, .vcmulq, .vcmulqc], VecForm s1 0 o .ci16 4 6 2 0 := ⟨quiet1, by decide, by decide⟩

theorem witness_ComplexMac : QuietCore s1 0 ∧
    ∀ o ∈ [VecOp.cmul, .cmulc, .cmac, .cmacc, .cmacs, .cmacsc], VecForm s1 0 o .ci16 4 6 2 0 := ⟨quiet1, by decide⟩

theorem witness_VectorShape : QuietCore s1 0 ∧ VecForm s1 0 .vnarrow .i32 4 6 2 0 ∧ VecForm s1 0 .vcnarrow .ci32 4 6 2 0 ∧
    VecForm s1 0 .vcwiden .ci16 4 6 2 0 ∧ VecForm s1 0 .vcrsum .ci32 4 6 2 0 ∧ VecForm s1 0 .setvl .i16 4 6 0 0 ∧
    ∀ o ∈ [VecOp.vcmpeq, .vcmplt, .vcmple, .vsel, .vsplat, .vslide 3], VecForm s1 0 o .i16 4 6 2 0 :=
  ⟨quiet1, by decide, by decide, by decide, by decide, by decide, by decide⟩

theorem witness_MaskOperations : QuietCore s1 0 ∧
    ∀ o ∈ [VecOp.mand, .mor, .mxor, .mandn, .mnot, .msel, .mlen, .mpopc], VecForm s1 0 o .i8 4 6 2 0 := ⟨quiet1, by decide⟩

theorem witness_FloatingPoint : QuietCore s1 0 ∧
    (∀ o ∈ [VecOp.vfadd, .vfsub, .vfmul, .vfmin, .vfmax, .vfma], VecForm s1 0 o .fp32 4 6 2 0) ∧
    VecForm s1 0 (.vfcvt .i32) .fp32 4 6 0 0 ∧ modRound 0 = 0 ∧ modG 0 = 1 ∧ modTrap 0 = false ∧ modSel 0 = 0 :=
  ⟨quiet1, by decide, by decide, by decide, by decide, by decide, by decide⟩

/-! ## The invariant -/

theorem witness_InvariantKeptByEveryStep :
    ∃ t, State.reset.Inv ∧ Sys2Proof.Machine.step State.reset = .next t := ⟨idleCycle State.reset, by unfold State.Inv; decide, rfl⟩

end Sys2Proof.Tests
end

section
namespace Sys2Proof.Machine

/-- The invariant passes along an operation, but for the queue, which the step owns. -/
theorem Keeps.inv {s t : State} (k : Keeps s t) (h : s.Inv) (hq : ∀ i ∈ t.pending, Instr.wf i = true) : t.Inv := by
  obtain ⟨-, hdev, hact, hdoms, hev, hflash⟩ := h
  exact ⟨hq, k.dev hdev, k.act hact, k.doms hdoms, k.queue hev, k.flash hflash⟩

/-- A cycle of the time clock keeps the invariant: what falls due joins the queue well formed. -/
theorem idleCycle_inv (s : State) (h : s.Inv) : (idleCycle s).Inv := by
  obtain ⟨k, due, hdue, hpend⟩ := idleCycle_keeps s
  have hwf : ∀ i ∈ (idleCycle s).pending, Instr.wf i = true := by
    rw [hpend]
    exact fun i hi => (List.mem_append.mp hi).elim (h.1 i) (hdue i)
  exact ⟨hwf, (k.inv h h.1).2⟩

/-- A command keeps the invariant: it leaves the queue as it is. -/
theorem exec_inv (c : Instr) (s t : State) (h : s.Inv) (e : exec c s = .next t) : t.Inv := by
  obtain ⟨u, hu, k⟩ := exec_keeps c s
  obtain rfl : u = t := by simpa [hu] using e
  exact k.inv h (k.pending ▸ h.1)

/-- Settles O5: a step on an empty queue is a cycle of the time clock, any other is the front command on the queue's rest. -/
theorem invariantKeptByEveryStep : Obligations.InvariantKeptByEveryStep := by
  intro s t h e
  unfold step at e
  split at e
  case h_1 c rest hp =>
    have hrest : State.Inv { s with pending := rest } := ⟨fun i hi => h.1 i (hp ▸ List.mem_cons_of_mem c hi), h.2⟩
    exact exec_inv c _ t hrest e
  case h_2 =>
    obtain rfl : idleCycle s = t := by simpa using e
    exact idleCycle_inv s h

end Sys2Proof.Machine
end

section
namespace Sys2Proof.Machine

open Sys2Proof.Claims

/-! ## The arbiter's input queue as events are raised (R513) -/

/-- An event raised with room in the queue joins it, with the severity of its code (R519). -/
theorem raise_room (s : State) (c i n : Nat) (b : List Byte) (h : Room 1 s) :
    (raise s c i n b).ev =
      { s.ev with queue := s.ev.queue ++ [{ cls := c, inst := i, code := n, sev := eventSev n b, detail := b }] } := by
  unfold raise
  rw [offer_room s _ (by omega)]

theorem raise_queued (s : State) (c i n : Nat) (b : List Byte) (h : Room 1 s) : Queued (raise s c i n b) c i n := by
  simp [Queued, raise_room s c i n b h]

/-- Events that wait in the queue go on waiting, and at most `n` have joined them. -/
def QueueGrows (n : Nat) (s t : State) : Prop :=
  (∀ e ∈ s.ev.queue, e ∈ t.ev.queue) ∧ t.ev.queue.length ≤ s.ev.queue.length + n

theorem QueueGrows.of_ev {s t : State} (n : Nat) (h : t.ev = s.ev) : QueueGrows n s t := by
  simp [QueueGrows, h]

theorem QueueGrows.trans {s t u : State} {m n : Nat} (h : QueueGrows m s t) (k : QueueGrows n t u) : QueueGrows (m + n) s u :=
  ⟨fun e he => k.1 e (h.1 e he), by have := h.2; have := k.2; omega⟩

theorem QueueGrows.mono {s t : State} {m n : Nat} (h : QueueGrows m s t) (le : m ≤ n) : QueueGrows n s t :=
  ⟨h.1, h.2.trans (by omega)⟩

theorem QueueGrows.queued {s t : State} {n c i k : Nat} (h : QueueGrows n s t) (q : Queued s c i k) : Queued t c i k :=
  q.imp fun e he => ⟨h.1 e he.1, he.2⟩

theorem QueueGrows.room {s t : State} {m n : Nat} (h : QueueGrows m s t) (r : Room (m + n) s) : Room n t := by
  have := h.2
  unfold Room at *
  omega

theorem queueGrows_raise (s : State) (c i n : Nat) (b : List Byte) : QueueGrows 1 s (raise s c i n b) := by
  unfold QueueGrows raise offer
  split
  · exact ⟨fun e he => by simp [he], by simp⟩
  · exact ⟨fun e he => he, by simp [countLoss]⟩

/-! ## What an operation on the time domains may change -/

/-- Only the two time domains and the arbiter have changed. -/
def DomsOnly (s t : State) : Prop :=
  ∃ d0 d1 ev, t = { s with time := { s.time with dom0 := d0, dom1 := d1 }, ev := ev }

theorem DomsOnly.refl (s : State) : DomsOnly s s := ⟨_, _, _, rfl⟩

theorem DomsOnly.trans {s t u : State} : DomsOnly s t → DomsOnly t u → DomsOnly s u := by
  rintro ⟨d0, d1, ev, rfl⟩ ⟨e0, e1, ev', rfl⟩
  exact ⟨e0, e1, ev', rfl⟩

theorem DomsOnly.r {s t : State} (h : DomsOnly s t) : t.time.r = s.time.r := by
  obtain ⟨d0, d1, ev, rfl⟩ := h
  rfl

theorem DomsOnly.active {s t : State} (h : DomsOnly s t) : t.time.active = s.time.active := by
  obtain ⟨d0, d1, ev, rfl⟩ := h
  rfl

theorem DomsOnly.air {s t : State} (h : DomsOnly s t) : t.time.air = s.time.air := by
  obtain ⟨d0, d1, ev, rfl⟩ := h
  rfl

theorem DomsOnly.oscLost {s t : State} (h : DomsOnly s t) : t.time.oscLost = s.time.oscLost := by
  obtain ⟨d0, d1, ev, rfl⟩ := h
  rfl

theorem DomsOnly.tod {s t : State} (h : DomsOnly s t) (k : Nat) : t.tod k = s.tod k := by
  obtain ⟨d0, d1, ev, rfl⟩ := h
  rfl

/-- Only the time subsystem and the arbiter have changed. -/
def TimeOnly (s t : State) : Prop := ∃ time ev, t = { s with time := time, ev := ev }

theorem TimeOnly.setTime (s : State) (time : TimeSt) : TimeOnly s { s with time := time } := ⟨time, s.ev, rfl⟩

theorem DomsOnly.timeOnly {s t : State} (h : DomsOnly s t) : TimeOnly s t := by
  obtain ⟨d0, d1, ev, rfl⟩ := h
  exact ⟨_, ev, rfl⟩

theorem TimeOnly.trans {s t u : State} : TimeOnly s t → TimeOnly t u → TimeOnly s u := by
  rintro ⟨time, ev, rfl⟩ ⟨time', ev', rfl⟩
  exact ⟨time', ev', rfl⟩

theorem TimeOnly.sameExcept {s t : State} (h : TimeOnly s t) : SameExcept [.time, .ev] s t := by
  obtain ⟨time, ev, rfl⟩ := h
  simp [SameExcept]

theorem TimeOnly.param {s t : State} (h : TimeOnly s t) (id inst : Nat) : t.param id inst = s.param id inst := by
  obtain ⟨time, ev, rfl⟩ := h
  rfl

theorem DomsOnly.sameExcept {s t : State} (h : DomsOnly s t) : SameExcept [.time, .ev] s t := h.timeOnly.sameExcept

theorem DomsOnly.param {s t : State} (h : DomsOnly s t) (id inst : Nat) : t.param id inst = s.param id inst :=
  h.timeOnly.param id inst

theorem domsOnly_setDom (s : State) (d : Nat) (x : Domain) : DomsOnly s (s.setDom d x) := by
  unfold State.setDom
  split
  · exact ⟨x, s.time.dom1, s.ev, rfl⟩
  · exact ⟨s.time.dom0, x, s.ev, rfl⟩

theorem domsOnly_raise (s : State) (c i n : Nat) (b : List Byte) : DomsOnly s (raise s c i n b) := by
  unfold raise offer
  split <;> exact ⟨s.time.dom0, s.time.dom1, _, rfl⟩

/-- Domain numbers name one domain or the other: only 0 is the primary domain. -/
theorem State.dom_setDom_ne (s : State) {d e : Nat} (x : Domain) (h : ¬(e = 0 ↔ d = 0)) : (s.setDom d x).dom e = s.dom e := by
  unfold State.setDom State.dom
  by_cases hd : d = 0 <;> simp_all

/-- What a change of domain `d` alone, with up to `n` events, leaves. -/
structure OneDom (n d : Nat) (s t : State) : Prop where
  doms : DomsOnly s t
  other : ∀ e, ¬(e = 0 ↔ d = 0) → t.dom e = s.dom e
  queue : QueueGrows n s t

theorem OneDom.trans {m n d : Nat} {s t u : State} (h : OneDom m d s t) (k : OneDom n d t u) : OneDom (m + n) d s u :=
  ⟨h.doms.trans k.doms, fun e he => (k.other e he).trans (h.other e he), h.queue.trans k.queue⟩

theorem OneDom.mono {m n d : Nat} {s t : State} (h : OneDom m d s t) (le : m ≤ n) : OneDom n d s t :=
  ⟨h.doms, h.other, h.queue.mono le⟩

theorem OneDom.refl (n d : Nat) (s : State) : OneDom n d s s := ⟨.refl s, fun _ _ => rfl, .of_ev n rfl⟩

theorem oneDom_setDom (s : State) (d : Nat) (x : Domain) : OneDom 0 d s (s.setDom d x) :=
  ⟨domsOnly_setDom s d x, fun _ he => s.dom_setDom_ne x he, .of_ev 0 (by simp)⟩

theorem oneDom_timeEvt (s : State) (d n : Nat) (b : List Byte) : OneDom 1 d s (timeEvt s n b) :=
  ⟨domsOnly_raise s 1 0 n b, fun e _ => raise_dom s 1 0 n b e, queueGrows_raise s 1 0 n b⟩

@[simp] theorem timeEvt_dom (s : State) (n : Nat) (b : List Byte) (d : Nat) : (timeEvt s n b).dom d = s.dom d :=
  raise_dom s 1 0 n b d

/-! ## Reference inputs: storing, evaluating, selecting (R45 to R47) -/

@[simp] theorem Domain.input_mapSet_self (x : Domain) (i : Nat) (r : RefInput) :
    ({ x with inputs := mapSet x.inputs i r } : Domain).input i = r := by
  simp [Domain.input]

@[simp] theorem Domain.input_mapSet_ne (x : Domain) {i j : Nat} (r : RefInput) (h : j ≠ i) :
    ({ x with inputs := mapSet x.inputs i r } : Domain).input j = x.input j := by
  simp [Domain.input, h]

/-- The qualification that an input has once it has been evaluated (R45). -/
def requalified (s : State) (d : Nat) (r : RefInput) : Bool :=
  (r.qualified && r.present && decide (r.rank < 15) && !r.driftDq && decide (r.freq.natAbs ≤ s.param 0x020C d * 1000)) ||
    inputQualifies s d (s.dom d) r

/-- An input as its evaluation stores it (R45). -/
def requalify (s : State) (d : Nat) (r : RefInput) : RefInput :=
  { r with qualified := requalified s d r, lost := r.lost && !requalified s d r }

/-- An input without a signal is not qualified (R45). -/
theorem requalified_absent (s : State) (d : Nat) (r : RefInput) (h : r.present = false) : requalified s d r = false := by
  simp [requalified, inputQualifies, h]

/-- An input that the drift test has disqualified is not qualified (R45, R59). -/
theorem requalified_drifted (s : State) (d : Nat) (r : RefInput) (h : r.driftDq = true) : requalified s d r = false := by
  simp [requalified, inputQualifies, h]

/-- Evaluating input `i` of a domain replaces that input alone, and reports at most its loss (R45, R46). -/
theorem evalInput_spec (s : State) (d i : Nat) (r : RefInput) (ptp : Bool) :
    OneDom 1 d s (evalInput s d i r ptp) ∧
    (evalInput s d i r ptp).dom d = { s.dom d with inputs := mapSet (s.dom d).inputs i (requalify s d r) } := by
  have stored : OneDom 0 d s (setInput s d i (requalify s d r)) := oneDom_setDom s d _
  have written : (setInput s d i (requalify s d r)).dom d =
      { s.dom d with inputs := mapSet (s.dom d).inputs i (requalify s d r) } := s.dom_setDom_self d _
  unfold evalInput
  dsimp only
  split
  · split
    · exact ⟨stored.trans (oneDom_timeEvt _ d _ _), (timeEvt_dom _ _ _ d).trans written⟩
    · exact ⟨stored.mono (Nat.zero_le 1), written⟩
  · exact ⟨stored.mono (Nat.zero_le 1), written⟩

/-- Selection reports at most a change of the reference of its class (R77). -/
theorem selEvent_spec (s : State) (d cls : Nat) (old new : Option Nat) :
    OneDom 1 d s (selEvent s d cls old new) ∧ (selEvent s d cls old new).dom d = s.dom d := by
  unfold selEvent
  split
  · exact ⟨.refl 1 d s, rfl⟩
  · exact ⟨oneDom_timeEvt s d _ _, timeEvt_dom s _ _ d⟩

/-- A domain with these references selected (R47). -/
def Domain.selected (x : Domain) (f p : Option Nat) : Domain :=
  { x with
    freqRef := f
    phaseRef := p
    stepDue := x.stepDue || (decide (p ≠ x.phaseRef) && p.isSome)
    freqPhase := if f = x.freqRef then x.freqPhase else 0
    lastUpdate := if f = x.freqRef then x.lastUpdate else x.ns }

/-- Selection in a domain changes its references alone, and reports at most both classes (R47, R77). -/
theorem reselect_spec (s : State) (d : Nat) :
    OneDom 2 d s (reselect s d) ∧ (reselect s d).dom d = (s.dom d).selected (bestRef s d false) (bestRef s d true) := by
  have chosen := oneDom_setDom s d ((s.dom d).selected (bestRef s d false) (bestRef s d true))
  obtain ⟨hf, df⟩ := selEvent_spec (s.setDom d ((s.dom d).selected (bestRef s d false) (bestRef s d true))) d 0
    (s.dom d).freqRef (bestRef s d false)
  obtain ⟨hp, dp⟩ := selEvent_spec (selEvent (s.setDom d ((s.dom d).selected (bestRef s d false) (bestRef s d true))) d 0
    (s.dom d).freqRef (bestRef s d false)) d 1 (s.dom d).phaseRef (bestRef s d true)
  exact ⟨chosen.trans (hf.trans hp), dp.trans (df.trans (s.dom_setDom_self d _))⟩

/-- Updating one input of a domain: the input is evaluated, no other input changes, and the domain's counter, state and
correction stay. -/
theorem updInput_spec (s : State) (d i : Nat) (f : RefInput → RefInput) (ptp : Bool) :
    OneDom 3 d s (updInput s d i f ptp) ∧
    ((updInput s d i f ptp).dom d).input i = requalify s d (f ((s.dom d).input i)) ∧
    (∀ j, j ≠ i → ((updInput s d i f ptp).dom d).input j = (s.dom d).input j) ∧
    ((updInput s d i f ptp).dom d).count = (s.dom d).count ∧ ((updInput s d i f ptp).dom d).st = (s.dom d).st ∧
    ((updInput s d i f ptp).dom d).y = (s.dom d).y := by
  obtain ⟨he, de⟩ := evalInput_spec s d i (f ((s.dom d).input i)) ptp
  obtain ⟨hr, dr⟩ := reselect_spec (evalInput s d i (f ((s.dom d).input i)) ptp) d
  have dom_eq := dr.trans (congrArg (Domain.selected · _ _) de)
  refine ⟨he.trans hr, ?_⟩
  unfold updInput
  rw [dom_eq]
  exact ⟨Domain.input_mapSet_self _ i _, fun j hj => Domain.input_mapSet_ne _ _ hj, rfl, rfl, rfl⟩

/-- A shared input is updated in domain 0 and then in domain 1, in each from that domain's own view of it (R43). -/
theorem updShared_eq (s : State) (i : Nat) (f : Domain → RefInput → RefInput) :
    updShared s i f = updInput (updInput s 0 i (f (s.dom 0)) false) 1 i (f (s.dom 1)) false := by
  have h : (updInput s 0 i (f (s.dom 0)) false).dom 1 = s.dom 1 := (updInput_spec s 0 i _ false).1.other 1 (by decide)
  rw [← h]
  rfl

/-- What an update of a shared input leaves in one domain. -/
structure InputUpdated (s t : State) (i d : Nat) (r : RefInput) : Prop where
  self : ∃ u : State, ((t.dom d).input i) = requalify u d r
  other : ∀ j, j ≠ i → (t.dom d).input j = (s.dom d).input j
  count : (t.dom d).count = (s.dom d).count
  st : (t.dom d).st = (s.dom d).st
  y : (t.dom d).y = (s.dom d).y

/-- Updating a shared input: each domain's view of it is evaluated, and nothing else of either domain but its references
changes. -/
theorem updShared_spec (s : State) (i : Nat) (f : Domain → RefInput → RefInput) :
    DomsOnly s (updShared s i f) ∧
    ∀ d : DomId, InputUpdated s (updShared s i f) i d (f (s.dom d) ((s.dom d).input i)) := by
  obtain ⟨h0, self0, other0, count0, st0, y0⟩ := updInput_spec s 0 i (f (s.dom 0)) false
  obtain ⟨h1, self1, other1, count1, st1, y1⟩ := updInput_spec (updInput s 0 i (f (s.dom 0)) false) 1 i (f (s.dom 1)) false
  have keep0 := h1.other 0 (by decide)
  have keep1 := h0.other 1 (by decide)
  rw [updShared_eq]
  refine ⟨h0.doms.trans h1.doms, fun d => ?_⟩
  match d with
  | 0 =>
    refine ⟨⟨s, ?_⟩, fun j hj => ?_, ?_, ?_, ?_⟩ <;> simp only [Fin.isValue, Fin.val_zero, keep0]
    · exact self0
    · exact other0 j hj
    · exact count0
    · exact st0
    · exact y0
  | 1 =>
    rw [keep1] at self1 other1 count1 st1 y1
    exact ⟨⟨_, self1⟩, other1, count1, st1, y1⟩

end Sys2Proof.Machine
end

section
namespace Sys2Proof.Machine

open Sys2Proof.Claims

/-! ## Reference inputs as they come and go (R43 to R45, R57, R67, R70) -/

@[simp] theorem RefInput.vanish_present (x : Domain) (r : RefInput) : (r.vanish x).present = false := by
  unfold RefInput.vanish
  split <;> simp_all

@[simp] theorem RefInput.vanish_rank (x : Domain) (r : RefInput) : (r.vanish x).rank = r.rank := by
  unfold RefInput.vanish
  split <;> rfl

@[simp] theorem RefInput.appear_present (x : Domain) (r : RefInput) : (r.appear x).present = true := by
  unfold RefInput.appear
  split <;> simp_all

@[simp] theorem RefInput.appear_lastMeas (x : Domain) (r : RefInput) : (r.appear x).lastMeas = r.lastMeas := by
  unfold RefInput.appear
  split <;> rfl

@[simp] theorem RefInput.appear_rank (x : Domain) (r : RefInput) : (r.appear x).rank = r.rank := by
  unfold RefInput.appear
  split <;> rfl

theorem RefInput.appear_since (x : Domain) (r : RefInput) :
    (r.appear x).since = if r.present then r.since else x.ns := by
  unfold RefInput.appear
  split <;> rfl

/-- An input whose signal has gone is not qualified, whatever state evaluates it (R45). -/
theorem requalify_vanish_qualified (s : State) (d : Nat) (x : Domain) (r : RefInput) :
    (requalify s d (r.vanish x)).qualified = false :=
  requalified_absent s d _ (r.vanish_present x)

theorem ssmRank_eq (ssm : Fin 16) : ssmRank ssm =
    if ssm.val = 2 then 2 else if ssm.val = 4 then 5 else if ssm.val = 8 then 8 else if ssm.val = 11 then 11 else 15 := by
  decide +revert

/-- A shared input reads as described where its evaluation in each domain gives what is described. -/
theorem updShared_sharedInput (s : State) (i : Nat) (f : Domain → RefInput → RefInput) (P : Domain → RefInput → RefInput → Prop)
    (h : ∀ (d : DomId) (u : State), P (s.dom d) ((s.dom d).input i) (requalify u d (f (s.dom d) ((s.dom d).input i)))) :
    SharedInput s (updShared s i f) i P := by
  obtain ⟨doms, input⟩ := updShared_spec s i f
  refine ⟨fun d => ?_, doms.r, doms.active, doms.air, doms.sameExcept⟩
  obtain ⟨⟨u, self⟩, other, count, st, y⟩ := input d
  exact ⟨self ▸ h d u, other, count, st, y⟩

theorem esmcPdu_rank (i ssm : Fin 16) (s : State) : SharedInput s (esmcPdu s i ssm) i fun _ _ r =>
    r.rank = if ssm.val = 2 then 2 else if ssm.val = 4 then 5 else if ssm.val = 8 then 8 else if ssm.val = 11 then 11 else 15 :=
  updShared_sharedInput s i _ _ fun _ _ => ssmRank_eq ssm

theorem esmcTimeout_rank (i : Fin 16) (s : State) (h : ((s.dom 0).input i).lastMeas + 5 * tcS ≤ s.now) :
    SharedInput s (esmcTimeout s i) i fun _ _ r => r.rank = 15 := by
  unfold esmcTimeout
  rw [if_neg (by simpa using h)]
  exact updShared_sharedInput s i _ _ fun _ _ => rfl

theorem clkinEdgeMissing_absent (k : Fin 2) (s : State) : SharedInput s (clkinEdgeMissing s k) (16 + k) fun _ o r =>
    r.present = false ∧ r.qualified = false ∧ r.rank = o.rank :=
  updShared_sharedInput s (16 + k) _ _ fun d u =>
    ⟨RefInput.vanish_present _ _, requalify_vanish_qualified u d _ _, RefInput.vanish_rank _ _⟩

theorem clkinEdgesReturned_present (k : Fin 2) (s : State) :
    SharedInput s (clkinEdgesReturned s k) (16 + k) fun x o r =>
      r.present = true ∧ r.lastMeas = o.lastMeas ∧ r.rank = o.rank ∧ r.since = if o.present then o.since else x.ns :=
  updShared_sharedInput s (16 + k) _ _ fun _ _ =>
    ⟨RefInput.appear_present _ _, RefInput.appear_lastMeas _ _, RefInput.appear_rank _ _, RefInput.appear_since _ _⟩

/-- The two domains are different ones. -/
theorem DomId.other_ne (d : DomId) : ¬(1 - d.val = 0 ↔ d.val = 0) := by
  omega

/-- What an update of one input of a domain shows: the other inputs and the other domain keep everything. -/
theorem updInput_frame (d : DomId) (i : Nat) (f : RefInput → RefInput) (ptp : Bool) (s : State) :
    (∀ j, j ≠ i → ((updInput s d i f ptp).dom d).input j = (s.dom d).input j) ∧
    (updInput s d i f ptp).dom (1 - d.val) = s.dom (1 - d.val) ∧ SameExcept [.time, .ev] s (updInput s d i f ptp) := by
  obtain ⟨one, -, other, -⟩ := updInput_spec s d i f ptp
  exact ⟨other, one.other _ (DomId.other_ne d), one.doms.sameExcept⟩

theorem ptpTimeout_absent (d : DomId) (k : Fin 4) (s : State) (present : ((s.dom d).input (20 + k)).present = true)
    (due : ((s.dom d).input (20 + k)).lastMeas + s.param 0x020E d * tcMs ≤ s.now) :
    (((ptpTimeout s d k).dom d).input (20 + k)).present = false ∧ (((ptpTimeout s d k).dom d).input (20 + k)).qualified = false ∧
    (∀ j, j ≠ 20 + k.val → ((ptpTimeout s d k).dom d).input j = (s.dom d).input j) ∧
    (ptpTimeout s d k).dom (1 - d.val) = s.dom (1 - d.val) ∧ SameExcept [.time, .ev] s (ptpTimeout s d k) := by
  have lost : ptpTimeout s d k = updInput s d (20 + k) (RefInput.vanish (s.dom d)) true := by
    simp [ptpTimeout, present, due]
  obtain ⟨-, self, -⟩ := updInput_spec s d (20 + k) (RefInput.vanish (s.dom d)) true
  rw [lost, self]
  exact ⟨RefInput.vanish_present _ _, requalify_vanish_qualified s d _ _, updInput_frame d (20 + k) _ true s⟩

/-- The loss of PPS_IN k: its signal goes, and CLKIN k takes rank 15 where it has been without messages (R43, R67). -/
theorem ppsLose_absent (k : Fin 2) (s : State) :
    (∀ d : DomId, (((ppsLose s k).dom d).input (18 + k)).present = false ∧
      (((ppsLose s k).dom d).input (18 + k)).qualified = false ∧
      (((ppsLose s k).dom d).input (16 + k)).rank = if 3 ≤ messageless s k then 15 else ((s.dom d).input (16 + k)).rank) ∧
    DomsOnly s (ppsLose s k) := by
  obtain ⟨doms, input⟩ := updShared_spec s (18 + k) fun x r => r.vanish x
  have gone (d : DomId) : (((updShared s (18 + k) fun x r => r.vanish x).dom d).input (18 + k)).present = false ∧
      (((updShared s (18 + k) fun x r => r.vanish x).dom d).input (18 + k)).qualified = false := by
    obtain ⟨⟨u, self⟩, -⟩ := input d
    rw [self]
    exact ⟨RefInput.vanish_present _ _, requalify_vanish_qualified u d _ _⟩
  have clk (d : DomId) := (input d).other (16 + k) (by omega)
  unfold ppsLose
  dsimp only
  split
  case isTrue silent =>
    obtain ⟨doms', input'⟩ := updShared_spec (updShared s (18 + k) fun x r => r.vanish x) (16 + k) fun _ r => { r with rank := 15 }
    refine ⟨fun d => ?_, doms.trans doms'⟩
    obtain ⟨⟨u, self⟩, other, -⟩ := input' d
    rw [other (18 + k) (by omega), self]
    exact ⟨(gone d).1, (gone d).2, rfl⟩
  case isFalse heard => exact ⟨fun d => ⟨(gone d).1, (gone d).2, congrArg RefInput.rank (clk d)⟩, doms⟩

theorem ppsSignalLoss_absent (k : Fin 2) (s : State) (h : 3 ≤ edgeless s k) :
    (∀ d : DomId, (((ppsSignalLoss s k).dom d).input (18 + k)).present = false ∧
      (((ppsSignalLoss s k).dom d).input (18 + k)).qualified = false ∧
      (((ppsSignalLoss s k).dom d).input (16 + k)).rank = if 3 ≤ messageless s k then 15 else ((s.dom d).input (16 + k)).rank) ∧
    (ppsSignalLoss s k).tod k = s.tod k ∧ SameExcept [.time, .ev] s (ppsSignalLoss s k) := by
  have lost : ppsSignalLoss s k = ppsLose s k := by simp [ppsSignalLoss, h]
  obtain ⟨inputs, doms⟩ := ppsLose_absent k s
  rw [lost]
  exact ⟨inputs, doms.tod k, doms.sameExcept⟩

/-! ## PPS edges and ToD messages (R65 to R70) -/

/-- Writing one ToD input leaves the other one, the domains, and every other block. -/
theorem State.setTod_frame (s : State) (k : Fin 2) (t : TodIn) :
    (s.setTod k t).tod (1 - k.val) = s.tod (1 - k.val) ∧ (s.setTod k t).time.dom0 = s.time.dom0 ∧
    (s.setTod k t).time.dom1 = s.time.dom1 ∧ SameExcept [.time] s (s.setTod k t) := by
  match k with
  | 0 => exact ⟨rfl, rfl, rfl, by simp [SameExcept]⟩
  | 1 => exact ⟨rfl, rfl, rfl, by simp [SameExcept]⟩

theorem timeOnly_setTod (s : State) (k : Nat) (t : TodIn) : TimeOnly s (s.setTod k t) := by
  unfold State.setTod
  split <;> exact .setTime s _

theorem ppsInEdge_measured (k : Fin 2) (s : State) :
    ((ppsInEdge s k).tod k).edge0 = ((s.dom 0).ns : Int) - s.paramInt 0x0211 k ∧
    ((ppsInEdge s k).tod k).edge1 = ((s.dom 1).ns : Int) - s.paramInt 0x0211 k ∧
    ((ppsInEdge s k).tod k).gotMsg = false ∧ ((ppsInEdge s k).tod k).usable = false ∧
    (ppsInEdge s k).tod (1 - k.val) = s.tod (1 - k.val) ∧ (ppsInEdge s k).time.dom0 = s.time.dom0 ∧
    (ppsInEdge s k).time.dom1 = s.time.dom1 ∧ SameExcept [.time] s (ppsInEdge s k) := by
  unfold ppsInEdge
  dsimp only
  rw [State.tod_setTod_self]
  exact ⟨rfl, rfl, rfl, rfl, State.setTod_frame s k _⟩

theorem todError_domsOnly (s : State) (k why sq : Nat) : DomsOnly s (todError s k why sq) := domsOnly_raise s 1 0 0x020A _

/-- A message of the form of R65, in its window and the first of its second, passes the checks of R67. -/
theorem todCheck_usable {s : State} {k : Nat} {b : List Byte} (h : TodUsable s k b) : todCheck s k b = none := by
  obtain ⟨-, start, type, crc, early, late, first⟩ := h
  simp [todCheck, field, start, type, crc, first, Int.not_lt.mpr early, Int.not_lt.mpr late]

/-- A usable message stores its fields and then gives its quality as rank to the CLKIN and the PPS input of its number; the
reports of a jump in sequence or seconds come between (R66 to R69). -/
theorem todMessage_usable {s : State} {k : Nat} {b : List Byte} (h : TodUsable s k b) :
    ∃ (t : TodIn) (u : State) (f : Domain → RefInput → RefInput),
      todMessage s k b = updShared (updShared u (16 + k) fun _ r => { r with rank := rd b 8 1 % 16 }) (18 + k) f ∧
      (t.seq = some (rd b 9 1) ∧ t.secs = some (rd b 2 6) ∧ t.leap = rd b 10 1 % 4 ∧ t.taiUtc = rd b 11 1) ∧
      DomsOnly (s.setTod k t) u ∧ (∀ x r, (f x r).rank = rd b 8 1 % 16) := by
  have rank : field (rd b 8 1) 3 0 = rd b 8 1 % 16 := by simp [field]
  unfold todMessage
  rw [if_neg h.1, todCheck_usable h, rank]
  extract_lets t sq secs q fl seqBad secBad run lost usable taken s1 s2 s3 s4
  have seqReported : DomsOnly s1 s2 := by
    unfold s2
    split
    · exact todError_domsOnly _ _ _ _
    · exact .refl _
  have secReported : DomsOnly s2 s3 := by
    unfold s3
    split
    · exact todError_domsOnly _ _ _ _
    · exact .refl _
  refine ⟨taken, s3, _, rfl, ⟨rfl, rfl, by simp [taken, fl, field], rfl⟩, seqReported.trans secReported, fun x r => ?_⟩
  split
  · exact RefInput.vanish_rank _ _
  · split
    · exact RefInput.appear_rank _ _
    · rfl

theorem todMessage_taken (k : Fin 2) (b : List Byte) (s : State) (h : TodUsable s k b) :
    ((todMessage s k b).tod k).seq = some (rd b 9 1) ∧ ((todMessage s k b).tod k).secs = some (rd b 2 6) ∧
    ((todMessage s k b).tod k).leap = rd b 10 1 % 4 ∧ ((todMessage s k b).tod k).taiUtc = rd b 11 1 ∧
    (∀ d : DomId, (((todMessage s k b).dom d).input (16 + k)).rank = rd b 8 1 % 16 ∧
      (((todMessage s k b).dom d).input (18 + k)).rank = rd b 8 1 % 16) ∧
    SameExcept [.time, .ev] s (todMessage s k b) := by
  obtain ⟨t, u, f, e, ⟨seq, secs, leap, utc⟩, reported, rank⟩ := todMessage_usable h
  obtain ⟨doms16, input16⟩ := updShared_spec u (16 + k) fun _ r => { r with rank := rd b 8 1 % 16 }
  obtain ⟨doms18, input18⟩ := updShared_spec (updShared u (16 + k) fun _ r => { r with rank := rd b 8 1 % 16 }) (18 + k) f
  have doms := (reported.trans doms16).trans doms18
  have taken : (todMessage s k b).tod k = t := by
    rw [e, doms.tod, State.tod_setTod_self]
  rw [taken]
  refine ⟨seq, secs, leap, utc, fun d => ?_, ?_⟩
  · obtain ⟨⟨v, self16⟩, -⟩ := input16 d
    obtain ⟨⟨w, self18⟩, other18, -⟩ := input18 d
    rw [e, other18 (16 + k) (by omega), self16, self18]
    exact ⟨rfl, rank _ _⟩
  · exact ((timeOnly_setTod s k t).trans (e ▸ doms.timeOnly)).sameExcept

/-! ## Qualification after the wait to restore (R45) -/

/-- An input that meets every condition of R45 is qualified by its evaluation. -/
theorem requalified_restored (s : State) (d : Nat) (r : RefInput) (present : r.present = true) (rank : r.rank < 15)
    (steady : r.driftDq = false) (freq : r.freq.natAbs ≤ s.param 0x020C d * 1000) (run : (s.dom d).st ≠ 0) (track : (s.dom d).st ≠ 4)
    (waited : r.since + s.param 0x0208 d * 1000000000 ≤ (s.dom d).ns) : requalified s d r = true := by
  have held : s.param 0x0208 d * 1000000000 ≤ (s.dom d).ns - r.since := by omega
  simp [requalified, inputQualifies, present, rank, steady, freq, run, track, held]

/-- Settles O7, one lemma for each kind of input. -/
theorem referenceInputs : Obligations.ReferenceInputs := by
  refine ⟨fun i ssm s => ⟨_, rfl, esmcPdu_rank i ssm s⟩, fun i s h => ⟨_, rfl, esmcTimeout_rank i s h⟩,
    fun k s => ⟨_, rfl, clkinEdgeMissing_absent k s⟩, fun k s => ⟨_, rfl, clkinEdgesReturned_present k s⟩,
    fun d k s present due => ⟨_, rfl, ptpTimeout_absent d k s present due⟩,
    fun k s h => ⟨_, rfl, ppsSignalLoss_absent k s h⟩, fun k s h => ?edges,
    fun k s => ⟨_, rfl, ppsInEdge_measured k s⟩, fun k b s h => ⟨_, rfl, todMessage_taken k b s h⟩,
    fun d i s present rank steady freq run track waited => ⟨_, rfl, ?restored⟩⟩
  case edges => exact congrArg Host.Outcome.next (if_neg (Nat.not_le.mpr h))
  case restored =>
    obtain ⟨-, self, -⟩ := updInput_spec s d i id false
    refine ⟨?_, updInput_frame d i id false s⟩
    exact (congrArg RefInput.qualified self).trans (requalified_restored s d _ present rank steady freq run track waited)

end Sys2Proof.Machine
end

section
namespace Sys2Proof.Machine

open Sys2Proof.Claims

/-! ## The states of a domain (R40, R41) -/

/-- A domain that enters a state: the counter, the references and the phase error stay. -/
theorem enterState_spec (s : State) (d new : Nat) :
    OneDom 1 d s (enterState s d new) ∧ ((enterState s d new).dom d).st = new ∧
    ((enterState s d new).dom d).count = (s.dom d).count ∧ ((enterState s d new).dom d).phaseErr = (s.dom d).phaseErr ∧
    ((enterState s d new).dom d).phaseRef = (s.dom d).phaseRef := by
  unfold enterState
  dsimp only
  split
  case isTrue same => exact ⟨.refl 1 d s, same, rfl, rfl, rfl⟩
  case isFalse differs =>
    rw [timeEvt_dom, State.dom_setDom_self]
    exact ⟨(oneDom_setDom s d _).trans (oneDom_timeEvt _ d _ _), rfl, rfl, rfl, rfl⟩

/-- A change of state is reported (R77). -/
theorem enterState_queued (s : State) (d new : Nat) (h : (s.dom d).st ≠ new) (room : Room 1 s) :
    Queued (enterState s d new) 1 0 0x0202 := by
  unfold enterState
  rw [if_neg h]
  exact raise_queued _ 1 0 0x0202 _ (by simpa [Room] using room)

/-- Entry to FREERUN sets the correction to 0 (R41). -/
theorem enterState_freerun_y (s : State) (d : Nat) (h : (s.dom d).st ≠ 0) : ((enterState s d 0).dom d).y = 0 := by
  unfold enterState
  rw [if_neg h]
  dsimp only
  rw [timeEvt_dom, State.dom_setDom_self]
  rfl

/-- Entry to LOCKED leaves the correction (R41). -/
theorem enterState_locked_y (s : State) (d : Nat) (h : (s.dom d).st ≠ 2) : ((enterState s d 2).dom d).y = (s.dom d).y := by
  unfold enterState
  rw [if_neg h]
  dsimp only
  rw [timeEvt_dom, State.dom_setDom_self]
  rfl

/-! ## Loss of OSC_IN, end of holdover, residual, copies of Air Time (R31, R35, R39, R64, R81) -/

theorem oscInLoss_freerun (s : State) (h : s.time.oscLost = false) (room : Room 3 s) :
    (oscInLoss s).time.oscLost = true ∧ (oscInLoss s).time.dom0.st = 0 ∧ (oscInLoss s).time.dom1.st = 0 ∧
    (oscInLoss s).time.air = s.time.air ∧ (oscInLoss s).time.dom0.count = s.time.dom0.count ∧
    (oscInLoss s).time.dom1.count = s.time.dom1.count ∧ Queued (oscInLoss s) 1 0 0x0201 ∧
    SameExcept [.time, .ev] s (oscInLoss s) := by
  let lost : State := timeEvt { s with time := { s.time with oscLost := true } } 0x0201 []
  have reported : Queued lost 1 0 0x0201 := raise_queued _ 1 0 0x0201 [] (by simp only [Room] at *; omega)
  have atLoss : DomsOnly { s with time := { s.time with oscLost := true } } lost := domsOnly_raise _ _ _ _ _
  obtain ⟨h0, st0, count0, -⟩ := enterState_spec lost 0 0
  obtain ⟨h1, st1, count1, -⟩ := enterState_spec (enterState lost 0 0) 1 0
  have e : oscInLoss s = enterState (enterState lost 0 0) 1 0 := by simp [oscInLoss, h, lost]
  have keep0 := h1.other 0 (by decide)
  have keep1 := h0.other 1 (by decide)
  have doms := (atLoss.trans h0.doms).trans h1.doms
  rw [e]
  refine ⟨doms.oscLost, (congrArg Domain.st keep0).trans st0, st1, doms.air, ?_, ?_, (h0.queue.trans h1.queue).queued reported,
    ((TimeOnly.setTime s _).trans doms.timeOnly).sameExcept⟩
  · exact ((congrArg Domain.count keep0).trans count0).trans (congrArg Domain.count (timeEvt_dom _ _ _ 0))
  · exact (count1.trans (congrArg Domain.count keep1)).trans (congrArg Domain.count (timeEvt_dom _ _ _ 1))

theorem holdoverExpiry_freerun (d : DomId) (s : State) (t0 : Nat) (holds : (s.dom d).st = 4) (since : (s.dom d).holdFrom = some t0)
    (elapsed : t0 + s.param 0x0209 d * 1000000000 ≤ (s.dom d).ns) (room : Room 1 s) :
    ((holdoverExpiry s d).dom d).st = 0 ∧ ((holdoverExpiry s d).dom d).y = 0 ∧
    ((holdoverExpiry s d).dom d).count = (s.dom d).count ∧ (holdoverExpiry s d).time.air = s.time.air ∧
    Queued (holdoverExpiry s d) 1 0 0x0202 ∧ SameExcept [.time, .ev] s (holdoverExpiry s d) := by
  have e : holdoverExpiry s d = enterState s d 0 := by simp [holdoverExpiry, since, holds, elapsed]
  obtain ⟨one, st, count, -⟩ := enterState_spec s d 0
  rw [e]
  exact ⟨st, enterState_freerun_y s d (by simp [holds]), count, one.doms.air, enterState_queued s d 0 (by simp [holds]) room,
    one.doms.sameExcept⟩

theorem residualSlewEnd_zero (s : State) (h : s.time.r ≠ 0) (due : s.time.r.natAbs ≤ s.time.slewFrac / (65536 * 100000000)) :
    residualSlewEnd s = { s with time := { s.time with r := 0, slewFrac := 0 } } := by
  have ending : slewEnding s = true := by
    simp only [slewEnding, Bool.and_eq_true, decide_eq_true_eq]
    exact ⟨h, due⟩
  simp [residualSlewEnd, ending]

/-- The residual crosses the alarm value in one direction or the other: the new side is stored and reported (R39). -/
theorem residualCrossing_crossed (s : State) (above : Bool) (h : residualAbove s = above) (was : s.time.alarm = !above) :
    residualCrossing s = timeEvt { s with time := { s.time with alarm := above } } 0x0208
      (leBytes 1 (b2n above) ++ leInt 8 (s.time.r / 65536)) := by
  subst h
  unfold residualCrossing
  rw [if_neg (by simp [was])]

/-- What a crossing shows: the alarm's new side, and TIME_RESIDUAL with the severity of that side. -/
theorem residualCrossing_reported (s : State) (above : Bool) (sev : Nat) (h : residualAbove s = above) (was : s.time.alarm = !above)
    (severity : ∀ l, eventSev 0x0208 (BitVec.ofNat 8 (b2n above) :: l) = sev) (room : Room 1 s) :
    (residualCrossing s).time = { s.time with alarm := above } ∧
    Raised s (residualCrossing s) 1 0 0x0208 sev ([BitVec.ofNat 8 (b2n above)] ++ leInt 8 (s.time.r / 65536)) ∧
    SameExcept [.time, .ev] s (residualCrossing s) := by
  rw [residualCrossing_crossed s above h was]
  refine ⟨raise_time _ _ _ _ _, ?_, ?_⟩
  · have := raise_room { s with time := { s.time with alarm := above } } 1 0 0x0208
      (leBytes 1 (b2n above) ++ leInt 8 (s.time.r / 65536)) room
    simpa [Raised, timeEvt, leBytes, severity] using this
  · exact ((TimeOnly.setTime s _).trans (domsOnly_raise _ 1 0 0x0208 _).timeOnly).sameExcept

/-- A copy fault names one copy: it holds the value it had, marked as of this cycle (R81). -/
theorem timeBusParityError_spec (tile : Fin 6) (cls : Fin 5) (unit : Byte) (s : State) (room : Room 1 s) :
    ∃ v, (∀ e, mapGet? s.time.stale (cls.val * 256 + unit.toNat) = some e → v = e.1) ∧
      (mapGet? s.time.stale (cls.val * 256 + unit.toNat) = none → v = s.time.prevNow) ∧
      (timeBusParityError s tile cls unit).time =
        { s.time with stale := mapSet s.time.stale (cls.val * 256 + unit.toNat) (v, true) } ∧
      Raised s (timeBusParityError s tile cls unit) 1 0 0x0305 3 [BitVec.ofNat 8 tile, BitVec.ofNat 8 cls, unit] ∧
      SameExcept [.time, .ev] s (timeBusParityError s tile cls unit) := by
  unfold timeBusParityError
  extract_lets key v
  refine ⟨v, ?_, ?_, raise_time _ _ _ _ _, ?_, ?_⟩
  · intro e he
    simp [v, key, he]
  · intro he
    simp [v, key, he]
  · exact raise_room { s with time := { s.time with stale := mapSet s.time.stale key (v, true) } } 1 0 0x0305 _ room
  · exact ((TimeOnly.setTime s _).trans (domsOnly_raise _ 1 0 0x0305 _).timeOnly).sameExcept

/-- Settles O6, one lemma for each of its events. -/
theorem oscillatorHoldoverAndResidual : Obligations.OscillatorHoldoverAndResidual := by
  refine ⟨fun s h room => ⟨_, rfl, oscInLoss_freerun s h room⟩, fun s h => ?lostAlready,
    fun d s t0 holds since elapsed room => ⟨_, rfl, holdoverExpiry_freerun d s t0 holds since elapsed room⟩,
    fun s h due => ⟨_, rfl, ?slew⟩, fun s was h room => ⟨_, rfl, ?rises⟩, fun s was h room => ⟨_, rfl, ?falls⟩,
    fun s h => ?equal, fun tile cls unit s room => ⟨_, rfl, ?copy⟩⟩
  case lostAlready => exact congrArg Host.Outcome.next (if_pos h)
  case slew =>
    rw [residualSlewEnd_zero s h due]
    simp [SameExcept]
  case rises => exact residualCrossing_reported s true 2 (by simp [residualAbove, was, h]) (by simp [was]) (fun _ => rfl) room
  case falls =>
    exact residualCrossing_reported s false 1 (by simp [residualAbove, was, h]) (by simp [was]) (fun _ => rfl) room
  case equal =>
    have side : residualAbove s = s.time.alarm := by
      cases was : s.time.alarm <;> simp [residualAbove, was, h]
    exact congrArg Host.Outcome.next (if_pos side)
  case copy =>
    obtain ⟨v, held, fresh, time, reported, same⟩ := timeBusParityError_spec tile cls unit s room
    rw [time]
    exact ⟨reported, rfl, ⟨v, mapGet?_mapSet_self _ _ _, fresh, held⟩, fun j hj => mapGet?_mapSet_ne _ _ hj, same⟩

end Sys2Proof.Machine
end

section
namespace Sys2Proof.Machine

open Sys2Proof.Claims

/-! ## Pulse outputs (R71, R74) -/

/-- Writing one pulse output changes nothing else of the time subsystem, and no other block. -/
theorem State.setPps_frame (s : State) (k : Nat) (p : PpsOut) :
    (∀ j, j ≠ k → (s.setPps k p).ppsOut j = s.ppsOut j) ∧ (s.setPps k p).time = { s.time with pps := (s.setPps k p).time.pps } ∧
    SameExcept [.time] s (s.setPps k p) :=
  ⟨fun _ hj => s.ppsOut_setPps_ne k p hj, rfl, by simp [SameExcept]⟩

/-- A pulse output without a jump goes on by its period, or has no further time (R71). -/
theorem PpsOut.after_no_jump (p : PpsOut) (n : Nat) (h : p.jumped = none) :
    p.after n = if p.mode = 2 then some (n + p.period) else none := by
  unfold PpsOut.after
  split <;> simp_all

/-- A pulse output whose programmed time has come and was not produced before: it rises for its width (R71, R74). -/
theorem ppsOutEdge_rises (s : State) (k n : Nat) (next : (s.ppsOut k).next = some n)
    (new : (s.ppsOut k).produced.contains ((s.ppsOut k).dom, n) = false)
    (due : (n : Int) + (s.ppsOut k).delay ≤ ((s.dom (s.ppsOut k).dom).ns : Int)) :
    ppsOutEdge s k = s.setPps k { s.ppsOut k with
      next := (s.ppsOut k).after n
      produced := ((s.ppsOut k).dom, n) :: (s.ppsOut k).produced
      high := true
      fall := some ((s.ppsOut k).width * 2 ^ 32) } := by
  simp only [ppsOutEdge, next, PpsOut.edgeAt, Int.not_lt.mpr due, decide_false, Bool.false_eq_true, if_false, new]

/-- A time already produced is not produced again: the output goes on to the next (R74). -/
theorem ppsOutEdge_repeated (s : State) (k n : Nat) (next : (s.ppsOut k).next = some n)
    (old : (s.ppsOut k).produced.contains ((s.ppsOut k).dom, n) = true)
    (due : (n : Int) + (s.ppsOut k).delay ≤ ((s.dom (s.ppsOut k).dom).ns : Int)) :
    ppsOutEdge s k = s.setPps k { s.ppsOut k with next := (s.ppsOut k).after n } := by
  simp only [ppsOutEdge, next, PpsOut.edgeAt, Int.not_lt.mpr due, decide_false, Bool.false_eq_true, if_false, old, if_true]

theorem ppsOutEdge_early (s : State) (k n : Nat) (next : (s.ppsOut k).next = some n)
    (early : ((s.dom (s.ppsOut k).dom).ns : Int) < (n : Int) + (s.ppsOut k).delay) : ppsOutEdge s k = s := by
  simp only [ppsOutEdge, next, PpsOut.edgeAt, early, decide_true, if_true]

theorem ppsOutPulseEnd_falls (s : State) (k : Nat) (h : (s.ppsOut k).fall = some 0) :
    ppsOutPulseEnd s k = s.setPps k { s.ppsOut k with fall := none, high := false } := if_pos h

/-! ## Comparators (R91, R94, R97) -/

/-- The next target of a periodic comparator is its first one above Air Time, at most a period ahead (R97). -/
theorem nextTarget_spec {now target period : Nat} (passed : target ≤ now) (h : 0 < period) :
    now < nextTarget now target period ∧ nextTarget now target period ≤ now + period ∧
    ∃ m, 1 ≤ m ∧ nextTarget now target period = target + m * period := by
  have e : nextTarget now target period = target + ((now - target) / period + 1) * period := by
    simp [nextTarget, Nat.ne_of_gt h, Nat.not_lt.mpr passed]
  have split := Nat.div_add_mod' (now - target) period
  have small := Nat.mod_lt (now - target) h
  have expand : ((now - target) / period + 1) * period = (now - target) / period * period + period := Nat.succ_mul _ _
  exact ⟨by omega, by omega, _, Nat.succ_pos _, e⟩

/-- Outside HOLD nothing wakes (R542). -/
theorem wakeHold_awake (s : State) (src inst maskBit : Nat) (h : s.boot.devState ≠ 3) : wakeHold s src inst maskBit = s := by
  simp [wakeHold, h]

/-- A host comparator with action EVENT that fires on time outside HOLD: it is stored as R97 has it, and its event is raised. -/
theorem comparatorFireOp_event (s : State) (n : Nat) (host : 64 ≤ n) (armed : (s.comp n).armed = true)
    (passed : (s.comp n).target ≤ s.now) (event : (s.comp n).action = 6) (onTime : (s.comp n).late = false)
    (awake : s.boot.devState ≠ 3) :
    comparatorFireOp s n = raise (s.setComp n (compAfter s.now (s.comp n))) 12 n 0x0304
      (leBytes 1 n ++ leBytes 4 (s.comp n).arg) := by
  have due : compDue s n = true := by simp [compDue, armed, reached, passed]
  have fired : fire s n = raise (s.setComp n (compAfter s.now (s.comp n))) 12 n 0x0304
      (leBytes 1 n ++ leBytes 4 (s.comp n).arg) := by
    unfold fire
    simp only [host, if_true, compAction, event]
    exact wakeHold_awake _ _ _ _ (by simpa using awake)
  simp [comparatorFireOp, due, onTime, fired]

/-- A one-shot comparator is free after it fired. -/
theorem compAfter_oneShot (now : Nat) (c : Comparator) (h : c.mode = 0) : (compAfter now c).armed = false := by
  simp [compAfter, h]

theorem compAfter_periodic (now : Nat) (c : Comparator) (h : c.mode = 1) :
    (compAfter now c).armed = c.armed ∧ (compAfter now c).target = nextTarget now c.target c.period := by
  simp [compAfter, h]

theorem compAfter_fired (now : Nat) (c : Comparator) : (compAfter now c).fired = true := by
  unfold compAfter
  split <;> rfl

/-- What a fired EVENT comparator shows. -/
theorem comparatorFireOp_shows (s : State) (n : Nat) (host : 64 ≤ n) (armed : (s.comp n).armed = true)
    (passed : (s.comp n).target ≤ s.now) (event : (s.comp n).action = 6) (onTime : (s.comp n).late = false)
    (awake : s.boot.devState ≠ 3) (room : Room 1 s) :
    (comparatorFireOp s n).comp n = compAfter s.now (s.comp n) ∧
    (∀ j, j ≠ n → (comparatorFireOp s n).comp j = s.comp j) ∧
    (comparatorFireOp s n).time = { s.time with comps := (comparatorFireOp s n).time.comps } ∧
    Raised s (comparatorFireOp s n) 12 n 0x0304 0 (leBytes 1 n ++ leBytes 4 (s.comp n).arg) ∧
    SameExcept [.time, .ev] s (comparatorFireOp s n) := by
  rw [comparatorFireOp_event s n host armed passed event onTime awake]
  refine ⟨by simp, fun j hj => by simp [hj], ?_, ?_, by simp [SameExcept]⟩
  · rw [raise_time]
    rfl
  · have := raise_room (s.setComp n (compAfter s.now (s.comp n))) 12 n 0x0304 (leBytes 1 n ++ leBytes 4 (s.comp n).arg)
      (by simpa [Room] using room)
    simpa [Raised, eventSev] using this

theorem comparatorFireOp_idle (s : State) (n : Nat) (h : compDue s n = false) : comparatorFireOp s n = s := by
  simp [comparatorFireOp, h]

/-- Settles O10, output by output and comparator by comparator. -/
theorem pulsesAndComparators : Obligations.PulsesAndComparators := by
  refine ⟨fun k n s next new unjumped due => ⟨_, rfl, ?rises⟩, fun k n s next early => ?early,
    fun k n s next old due => ⟨_, rfl, ?repeated⟩, fun k s h => ⟨_, rfl, ?falls⟩,
    fun n s host armed passed event onTime _ awake room => ⟨_, rfl, ?fires⟩, fun n s h => ?free, fun n s h => ?ahead,
    fun k u s h due => ⟨_, rfl, ?taout⟩⟩
  case rises =>
    rw [ppsOutEdge_rises s k n next new due]
    beta_reduce
    rw [State.ppsOut_setPps_self]
    exact ⟨rfl, rfl, rfl, PpsOut.after_no_jump _ n unjumped, State.setPps_frame s k _⟩
  case early => exact congrArg Host.Outcome.next (ppsOutEdge_early s k n next early)
  case repeated =>
    rw [ppsOutEdge_repeated s k n next old due]
    beta_reduce
    rw [State.ppsOut_setPps_self]
    obtain ⟨others, -, same⟩ := State.setPps_frame s k { s.ppsOut k with next := (s.ppsOut k).after n }
    exact ⟨rfl, others, same⟩
  case falls =>
    rw [ppsOutPulseEnd_falls s k h]
    beta_reduce
    rw [State.ppsOut_setPps_self]
    exact ⟨rfl, rfl, State.setPps_frame s k _⟩
  case fires =>
    obtain ⟨self, others, time, raised, same⟩ := comparatorFireOp_shows s n host armed passed event onTime awake room
    rw [self]
    refine ⟨compAfter_fired _ _, compAfter_oneShot _ _, fun periodic positive => ?_, others, time, raised, same⟩
    obtain ⟨stays, target⟩ := compAfter_periodic s.now (s.comp n) periodic
    rw [stays, target]
    exact ⟨armed, nextTarget_spec passed positive⟩
  case free => exact congrArg Host.Outcome.next (comparatorFireOp_idle s n (by simp [compDue, h]))
  case ahead => exact congrArg Host.Outcome.next (comparatorFireOp_idle s n (by simp [compDue, reached, h]))
  case taout =>
    have e : taoutPulseEndOp s k = { s with time := { s.time with taout := mapDel s.time.taout k } } := by
      simp [taoutPulseEndOp, h, reached, due]
    rw [e]
    exact ⟨rfl, by simp [SameExcept]⟩

end Sys2Proof.Machine
end

section
namespace Sys2Proof.Machine

open Sys2Proof.Claims

/-! ## What a reply may change (R438 to R441) -/

/-- Only the host ports, the SPI port and the arbiter have changed. -/
def HostOnly (s t : State) : Prop := ∃ host ev, t = { s with host := host, ev := ev }

theorem HostOnly.refl (s : State) : HostOnly s s := ⟨_, _, rfl⟩

theorem HostOnly.trans {s t u : State} : HostOnly s t → HostOnly t u → HostOnly s u := by
  rintro ⟨host, ev, rfl⟩ ⟨host', ev', rfl⟩
  exact ⟨host', ev', rfl⟩

theorem HostOnly.time {s t : State} (h : HostOnly s t) : t.time = s.time := by
  obtain ⟨host, ev, rfl⟩ := h
  rfl

theorem HostOnly.param {s t : State} (h : HostOnly s t) (id inst : Nat) : t.param id inst = s.param id inst := by
  obtain ⟨host, ev, rfl⟩ := h
  rfl

theorem HostOnly.sameExcept {s t : State} (h : HostOnly s t) : SameExcept [.host, .ev] s t := by
  obtain ⟨host, ev, rfl⟩ := h
  simp [SameExcept]

theorem hostOnly_setHp (s : State) (h : Nat) (x : HostPort) : HostOnly s (s.setHp h x) := by
  unfold State.setHp
  split <;> exact ⟨_, s.ev, rfl⟩

theorem hostOnly_raise (s : State) (c i n : Nat) (b : List Byte) : HostOnly s (raise s c i n b) := by
  unfold raise offer
  split <;> exact ⟨s.host, _, rfl⟩

theorem hostOnly_raiseLimited (s : State) (c i n key period cnt : Nat) (b : Nat → List Byte) :
    HostOnly s (raiseLimited s c i n key period cnt b) := by
  unfold raiseLimited
  extract_lets old due total s1
  split
  · exact (hostOnly_raise s c i n (b total)).trans ⟨s1.host, _, rfl⟩
  · clear_value total due
    cases old with
    | none => exact .refl s
    | some _ => exact ⟨s.host, _, rfl⟩

theorem hostOnly_msixSend (s : State) (h v : Nat) : HostOnly s (msixSend s h v) := by
  unfold msixSend
  dsimp only
  split
  · exact .refl s
  · split <;> exact hostOnly_setHp s h _

theorem hostOnly_countDiscard (s : State) (h : Nat) : HostOnly s (countDiscard s h) := by
  unfold countDiscard
  exact (hostOnly_setHp s h _).trans (hostOnly_raiseLimited _ 9 h 0x0F03 h 19661 1 _)

theorem hostOnly_ringWrite (s : State) (h : Nat) (hdr pl : List Byte) : HostOnly s (ringWrite s h hdr pl) := by
  unfold ringWrite
  dsimp only
  split
  · exact (hostOnly_setHp s h _).trans (hostOnly_msixSend _ h _)
  · exact hostOnly_setHp s h _

theorem hostOnly_hostReply (s : State) (h : Nat) (hdr pl : List Byte) : HostOnly s (hostReply s h hdr pl) := by
  unfold hostReply
  dsimp only
  split
  · exact hostOnly_setHp s h _
  · split
    · exact (hostOnly_setHp s h _).trans (hostOnly_countDiscard _ h)
    · split
      · exact hostOnly_setHp s h _
      · exact hostOnly_ringWrite s h hdr pl

theorem hostOnly_freePort (s : State) (port : Nat) : HostOnly s (freePort s port) := by
  unfold freePort
  split
  · exact ⟨_, s.ev, rfl⟩
  · exact hostOnly_setHp s port _

theorem hostOnly_reply (s : State) (rq : Req) (st det : Nat) (pl : List Byte) : HostOnly s (reply s rq st det pl) := by
  unfold reply
  dsimp only
  split
  · exact hostOnly_freePort s rq.port
  · split
    · exact ⟨_, s.ev, rfl⟩
    · exact hostOnly_hostReply s rq.port _ pl

theorem hostOnly_replyOk (s : State) (rq : Req) (pl : List Byte) : HostOnly s (replyOk s rq pl) := hostOnly_reply s rq 0 0 pl

/-! ## The 1 ms evaluation of the active role (R36, R37) -/

/-- The role passes: r takes the difference of the counters, and Air Time and both domains stay (R34). -/
theorem switchActive_spec (s : State) (cause : Nat) :
    (switchActive s cause).time = { s.time with
      active := 1 - s.time.active
      r := s.time.r - (((s.dom (1 - s.time.active)).count : Int) - ((s.dom s.time.active).count : Int)) / 65536 } ∧
    TimeOnly s (switchActive s cause) ∧ (Room 1 s → Queued (switchActive s cause) 1 0 0x0207) := by
  unfold switchActive timeEvt
  exact ⟨raise_time _ _ _ _ _, (TimeOnly.setTime s _).trans (domsOnly_raise _ 1 0 0x0207 _).timeOnly,
    fun room => raise_queued _ 1 0 0x0207 _ room⟩

/-- Automatic realignment switched off changes nothing (R84). -/
theorem autoRealign_off (s : State) (h : s.param 0x0305 0 ≠ 1) : autoRealign s = s := by
  simp [autoRealign, h]

theorem commandedSwitch_none (s : State) (h : s.time.switchWait = none) : commandedSwitch s = s := by
  simp [commandedSwitch, h]

theorem autoSwitch_away (s : State) (on : s.param 0x0201 0 = 1) (active : (s.dom s.time.active).st ≠ 2)
    (other : (s.dom (1 - s.time.active)).st = 2) : autoSwitch s = switchActive s 0 := by
  simp [autoSwitch, on, active, other]

theorem autoSwitch_primary_locked (s : State) (locked : (s.dom s.time.active).st = 2) (primary : s.time.active = 0) :
    autoSwitch s = s := by
  simp [autoSwitch, primary ▸ locked, primary]

theorem autoSwitch_off (s : State) (away : s.param 0x0201 0 ≠ 1) (back : s.param 0x0202 0 ≠ 1) : autoSwitch s = s := by
  simp [autoSwitch, away, back]

/-- A waiting TIME_SWITCH to the other domain, which is LOCKED, passes the role and is answered (R37). -/
theorem commandedSwitch_passes (s : State) (w : SwitchWait) (waits : s.time.switchWait = some w) (other : w.target ≠ s.time.active)
    (locked : (s.dom w.target).st = 2) : commandedSwitch s =
      replyOk (switchActive { s with time := { s.time with switchWait := none } } 1) w.req [] := by
  have stillLocked : (State.dom { s with time := { s.time with switchWait := none } } w.target).st = 2 := locked
  simp [commandedSwitch, waits, Ne.symm other, stillLocked]

/-- Settles O9, from what each of the three decisions does in the state described. -/
theorem activeRoleEvaluation : Obligations.ActiveRoleEvaluation := by
  refine ⟨fun s legal on noRealign noWait active other room => ?auto, fun s noRealign noWait locked primary => ?stay,
    fun w s away back noRealign waits differs locked legal target => ?commanded⟩
  case auto =>
    obtain ⟨time, only, queued⟩ := switchActive_spec s 0
    have e : activeRoleEvaluationOp s = switchActive s 0 := by
      unfold activeRoleEvaluationOp
      rw [autoSwitch_away s on active other, commandedSwitch_none _ (by rw [time]; exact noWait),
        autoRealign_off _ (by rw [only.param]; exact noRealign)]
    refine ⟨_, congrArg Host.Outcome.next e, ?_⟩
    beta_reduce
    rw [time]
    exact ⟨rfl, rfl, rfl, rfl, rfl, queued room, only.sameExcept⟩
  case stay =>
    refine congrArg Host.Outcome.next (?_ : activeRoleEvaluationOp s = s)
    unfold activeRoleEvaluationOp
    rw [autoSwitch_primary_locked s locked primary, commandedSwitch_none s noWait, autoRealign_off s noRealign]
  case commanded =>
    obtain ⟨time, only, -⟩ := switchActive_spec { s with time := { s.time with switchWait := none } } 1
    have answered := hostOnly_replyOk (switchActive { s with time := { s.time with switchWait := none } } 1) w.req []
    have e : activeRoleEvaluationOp s =
        replyOk (switchActive { s with time := { s.time with switchWait := none } } 1) w.req [] := by
      unfold activeRoleEvaluationOp
      rw [autoSwitch_off s away back, commandedSwitch_passes s w waits differs locked,
        autoRealign_off _ (by rw [answered.param, only.param]; exact noRealign)]
    refine ⟨_, congrArg Host.Outcome.next e, ?_⟩
    beta_reduce
    rw [answered.time, time]
    refine ⟨show 1 - s.time.active = w.target by omega, rfl, rfl, rfl, rfl, ?_⟩
    obtain ⟨tm, ev, passed⟩ := only
    obtain ⟨host, ev', final⟩ := answered
    rw [final, passed]
    simp [SameExcept]

end Sys2Proof.Machine
end

section
namespace Sys2Proof.Machine

open Sys2Proof.Claims

/-! ## A servo update against one PTP slot (R41, R47, R50) -/

/-- A clamped correction lies within the frequency limit (R50). -/
theorem clampY_bounds (s : State) (d : Nat) (y : Rat) :
    -((s.param 0x020C d : Int) : Rat) ≤ clampY s d y ∧ clampY s d y ≤ ((s.param 0x020C d : Int) : Rat) := by
  have positive : (0 : Rat) ≤ ((s.param 0x020C d : Int) : Rat) := by positivity
  unfold clampY
  dsimp only
  split
  · exact ⟨by linarith, le_refl _⟩
  · split <;> constructor <;> linarith

/-- The only qualified input of a domain with a priority is its best reference (R47). -/
theorem bestRef_single (s : State) (d i : Nat) (r : RefInput) (phase : Bool) (only : (s.dom d).inputs = [(i, r)])
    (qualified : r.qualified = true) (rank : r.rank < 15) (cls : phase = true → 18 ≤ i) (prio : s.param 0x0205 (d * 32 + i) ≠ 0) :
    bestRef s d phase = some i := by
  have inClass : (!phase || decide (18 ≤ i)) = true := by
    cases phase
    · rfl
    · simp [cls rfl]
  simp [bestRef, only, qualified, rank, inClass, prio]

/-- With one reference for both classes, measured in this update, the loop's correction is a clamped one (R49, R50). -/
theorem servoLoop_one_ref (s : State) (d p : Nat) (x : Domain) (fm : Bool) (freq : x.freqRef = some p) (phase : x.phaseRef = some p) :
    ∃ y, (servoLoop s d x fm true).1 = clampY s d y := by
  simp only [servoLoop, freq, phase, if_true]
  exact ⟨_, rfl⟩

/-- In ACQUIRING the 16th consecutive measured update with a small phase error locks the domain (R41). -/
theorem stateRules_locks (s : State) (d p : Nat) (ferr : Int) (fm : Bool) (osc : s.time.oscLost = false) (st : (s.dom d).st = 1)
    (run : (s.dom d).run = 15) (phase : (s.dom d).phaseRef = some p)
    (small : (s.dom d).phaseErr.natAbs < s.param 0x020B d * 65536) : stateRules s d ferr fm true = enterState s d 2 := by
  simp [stateRules, osc, st, run, phase, small]

/-- An update that measures a PTP slot, the domain's only reference, stores the error and a correction within the limit, and
then applies the state rules. -/
theorem servoUpdate_slot (s : State) (d i : Nat) (e : Int) (only : bestRef s d false = some i ∧ bestRef s d true = some i)
    (slot : 20 ≤ i) (osc : s.time.oscLost = false) (st : (s.dom d).st = 1) (stepDue : (s.dom d).stepDue = false)
    (phase : (s.dom d).phaseRef = some i) :
    ∃ x : Domain, (x.st = 1 ∧ x.run = (s.dom d).run ∧ x.phaseErr = e ∧ x.count = (s.dom d).count ∧ x.phaseRef = some i ∧
        ∃ y, x.y = clampY s d y) ∧
      servoUpdate s d { freqPhase := none, phase := some e, freqErr := 0, offs := [] } =
        stateRules ((reselect s d).setDom d x) d 0 false true := by
  obtain ⟨one, chosen⟩ := reselect_spec s d
  rw [only.1, only.2] at chosen
  have noPps : i ≠ 18 ∧ i ≠ 19 := by omega
  have pm : phaseMeas (reselect s d) d { freqPhase := none, phase := some e, freqErr := 0, offs := [] } = some e := by
    simp [phaseMeas, chosen, Domain.selected, noPps]
  have fm : freqMeas (reselect s d) d { freqPhase := none, phase := some e, freqErr := 0, offs := [] } = none := by
    simp [freqMeas, chosen, Domain.selected]
  have noEdge : takeEdge (reselect s d) d = reselect s d := by
    simp [takeEdge, chosen, Domain.selected, noPps]
  have noStep : ((reselect s d).dom d).stepDue = false := by
    simp [chosen, Domain.selected, stepDue, phase]
  have osc' : (reselect s d).time.oscLost = false := one.doms.oscLost.trans osc
  have st' : ((reselect s d).dom d).st = 1 := by rw [chosen]; exact st
  have run' : ((reselect s d).dom d).run = (s.dom d).run := by rw [chosen]; rfl
  have count' : ((reselect s d).dom d).count = (s.dom d).count := by rw [chosen]; rfl
  have phase' : ((reselect s d).dom d).phaseRef = some i := by rw [chosen]; rfl
  have sameLimit (y : Rat) : clampY (reselect s d) d y = clampY s d y := by
    unfold clampY
    rw [one.doms.param]
  obtain ⟨y, loop⟩ := servoLoop_one_ref (reselect s d) d i
    { (reselect s d).dom d with phaseErr := e, stepDue := false } false (by rw [chosen]; rfl) (by rw [chosen]; rfl)
  unfold servoUpdate
  simp only [List.foldl_nil, pm, fm, noEdge, noStep, osc', Option.getD_some, Option.getD_none, Option.isSome_some,
    Option.isSome_none, Bool.false_and, Bool.false_eq_true, if_false]
  refine ⟨_, ?_, rfl⟩
  exact ⟨st', run', rfl, count', phase', y, loop.trans (sameLimit y)⟩

/-- The 16th consecutive update with a small phase error against a PTP slot locks the domain (R41). -/
theorem servoUpdate_locks (d : DomId) (k : Fin 4) (e : Int) (r : RefInput) (s : State) (osc : s.time.oscLost = false)
    (st : (s.dom d).st = 1) (run : (s.dom d).run = 15) (stepDue : (s.dom d).stepDue = false)
    (only : (s.dom d).inputs = [(20 + k.val, r)]) (qualified : r.qualified = true) (rank : r.rank < 15)
    (phase : (s.dom d).phaseRef = some (20 + k.val)) (prio : s.param 0x0205 (d.val * 32 + (20 + k.val)) ≠ 0)
    (small : e.natAbs < s.param 0x020B d * 65536) (room : Room 3 s) :
    ∃ t, servoUpdate s d { freqPhase := none, phase := some e, freqErr := 0, offs := [] } = t ∧
      (t.dom d).st = 2 ∧ (t.dom d).phaseErr = e ∧ (t.dom d).count = (s.dom d).count ∧ (t.dom d).phaseRef = some (20 + k.val) ∧
      -((s.param 0x020C d : Int) : Rat) ≤ (t.dom d).y ∧ (t.dom d).y ≤ ((s.param 0x020C d : Int) : Rat) ∧
      t.dom (1 - d.val) = s.dom (1 - d.val) ∧ t.time.air = s.time.air ∧ Queued t 1 0 0x0202 ∧ SameExcept [.time, .ev] s t := by
  have best (phase : Bool) : bestRef s d phase = some (20 + k.val) :=
    bestRef_single s d (20 + k) r phase only qualified rank (fun _ => by omega) prio
  obtain ⟨x, ⟨xst, xrun, xerr, xcount, xphase, y, xy⟩, update⟩ :=
    servoUpdate_slot s d (20 + k) e ⟨best false, best true⟩ (by omega) osc st stepDue phase
  have selected := (reselect_spec s d).1
  have stored := selected.trans (oneDom_setDom (reselect s d) d x)
  have domX : ((reselect s d).setDom d x).dom d = x := State.dom_setDom_self _ d x
  have locks := stateRules_locks ((reselect s d).setDom d x) d (20 + k) 0 false (stored.doms.oscLost.trans osc)
    (by rw [domX]; exact xst) (by rw [domX]; exact xrun.trans run) (by rw [domX]; exact xphase)
    (by rw [domX, stored.doms.param, xerr]; exact small)
  obtain ⟨entered, est, ecount, eerr, ephase⟩ := enterState_spec ((reselect s d).setDom d x) d 2
  have ey := enterState_locked_y ((reselect s d).setDom d x) d (by rw [domX, xst]; decide)
  have queued := enterState_queued ((reselect s d).setDom d x) d 2 (by rw [domX, xst]; decide) (stored.queue.room room)
  have all := stored.trans entered
  rw [domX] at ecount eerr ephase ey
  refine ⟨_, update.trans locks, est, eerr.trans xerr, ecount.trans xcount, ephase.trans xphase, ?_, ?_,
    all.other _ (DomId.other_ne d), all.doms.air, queued, all.doms.sameExcept⟩
  · rw [ey, xy]
    exact (clampY_bounds s d y).1
  · rw [ey, xy]
    exact (clampY_bounds s d y).2

/-! ## The drift test (R58 to R60) -/

theorem mapGet?_map_snd {α : Type} (m : SMap α) (f : α → α) (k : Nat) :
    mapGet? (m.map fun e => (e.1, f e.2)) k = (mapGet? m k).map f := by
  induction m with
  | nil => rfl
  | cons e m ih =>
    obtain ⟨j, v⟩ := e
    simp only [List.map_cons, mapGet?]
    split
    · rfl
    · exact ih

/-- A new window clears the presence of every input and nothing else of it (R58). -/
theorem Domain.newWindow_input (x : Domain) (i : Nat) : x.newWindow.input i = { x.input i with winPresent := 0 } := by
  simp only [Domain.newWindow, Domain.input, mapGet, mapGet?_map_snd x.inputs fun r => { r with winPresent := 0 }]
  cases mapGet? x.inputs i <;> rfl

@[simp] theorem Domain.selected_input (x : Domain) (f p : Option Nat) (i : Nat) : (x.selected f p).input i = x.input i := rfl

/-- A window without results only selects again. -/
theorem driftWindow_nil (s : State) (d : Nat) : driftWindow s d [] = reselect s d := rfl

/-- The input as the drift test leaves it before its evaluation, in its third window outside the tolerance (R59). -/
def drifted (x : Domain) (i : Nat) (off : Int) : RefInput :=
  { x.input i with winOff := some (fromPrediction x off), driftDq := true, driftRun := 3, requalRun := 0 }

/-- The only qualified input with a result, outside the OCXO's band plus 10 ppb in a third consecutive window, is
disqualified and reported (R59, R60). -/
theorem driftWindow_disqualifies (s : State) (i : Fin 24) (off : Int) (qualified : ((s.dom 0).input i).qualified = true)
    (fresh : ((s.dom 0).input i).driftDq = false) (run : ((s.dom 0).input i).driftRun = 2)
    (present : 90000000000 ≤ ((s.dom 0).input i).presence (s.dom 0))
    (outside : ((s.param 0x0203 0 : Int) + 10) * 1000 < ((fromPrediction (s.dom 0) off).natAbs : Int)) :
    ∃ b, driftWindow s 0 [(i, off)] = reselect (timeEvt (evalInput s 0 i (drifted (s.dom 0) i off) false) 0x0205 b) 0 := by
  have results : driftResults (s.dom 0) [(i, off)] = [(i.val, fromPrediction (s.dom 0) off)] := by
    simp [driftResults, present]
  unfold driftWindow
  simp only [results, List.filter_cons, qualified, if_true, List.filter_nil, List.map_cons, List.map_nil, List.foldl_cons,
    List.foldl_nil, fresh, Bool.false_eq_true, if_false, driftMeasure, Int.sub_zero, outside, decide_true, run,
    Nat.reduceAdd, Nat.le_refl, drifted]
  exact ⟨_, rfl⟩

/-- Both domains begin their next window, number `n` of the grid (R58). -/
def windowEnded (s : State) (n : Nat) : State :=
  let s1 := s.setDom 0 (s.dom 0).newWindow
  let s2 := s1.setDom 1 (s1.dom 1).newWindow
  { s2 with time := { s2.time with driftWindows := s2.time.driftWindows + 1, driftAt := n } }

theorem windowEnded_input0 (s : State) (n j : Nat) :
    ((windowEnded s n).dom 0).input j = { (s.dom 0).input j with winPresent := 0 } := Domain.newWindow_input _ j

theorem windowEnded_input1 (s : State) (n j : Nat) :
    ((windowEnded s n).dom 1).input j = { (s.dom 1).input j with winPresent := 0 } := Domain.newWindow_input _ j

theorem windowEnded_queued {s : State} (n : Nat) {c i k : Nat} (h : Queued s c i k) : Queued (windowEnded s n) c i k := h

theorem windowEnded_timeOnly (s : State) (n : Nat) : TimeOnly s (windowEnded s n) := ⟨_, _, rfl⟩

/-- The end of a window that disqualifies input `i` of domain 0: what every input shows then. -/
theorem driftWindowEnd_disqualifies (i : Fin 24) (off : Int) (s : State) (ended : driftIndex s ≠ s.time.driftAt)
    (qualified : ((s.dom 0).input i).qualified = true) (fresh : ((s.dom 0).input i).driftDq = false)
    (run : ((s.dom 0).input i).driftRun = 2) (present : 90000000000 ≤ ((s.dom 0).input i).presence (s.dom 0))
    (outside : ((s.param 0x0203 0 : Int) + 10) * 1000 < ((fromPrediction (s.dom 0) off).natAbs : Int)) (room : Room 4 s) :
    ∃ t, driftWindowEnd s [(i, off)] [] = t ∧ ((t.dom 0).input i).driftDq = true ∧
      ((t.dom 0).input i).qualified = false ∧
      ((t.dom 0).input i).winOff = some (fromPrediction (s.dom 0) off) ∧ ((t.dom 0).input i).winPresent = 0 ∧
      (∀ j, j ≠ i.val → (t.dom 0).input j = { (s.dom 0).input j with winPresent := 0 }) ∧
      (∀ j, (t.dom 1).input j = { (s.dom 1).input j with winPresent := 0 }) ∧ t.time.driftAt = driftIndex s ∧
      Queued t 1 0 0x0205 ∧ SameExcept [.time, .ev] s t := by
  obtain ⟨b, window⟩ := driftWindow_disqualifies s i off qualified fresh run present outside
  obtain ⟨evald, dom0⟩ := evalInput_spec s 0 i (drifted (s.dom 0) i off) false
  have room' : Room (1 + 1) s := by
    unfold Room at *
    omega
  have reported := evald.trans (oneDom_timeEvt _ 0 0x0205 b)
  obtain ⟨again0, sel0⟩ := reselect_spec (timeEvt (evalInput s 0 i (drifted (s.dom 0) i off) false) 0x0205 b) 0
  have first := reported.trans again0
  rw [← window] at first again0 sel0
  obtain ⟨again1, sel1⟩ := reselect_spec (driftWindow s 0 [(i, off)]) 1
  have e : driftWindowEnd s [(i, off)] [] = windowEnded (driftWindow (driftWindow s 0 [(i, off)]) 1 []) (driftIndex s) :=
    if_neg ended
  have doms := first.doms.trans again1.doms
  have input0 (j : Nat) : ((windowEnded (reselect (driftWindow s 0 [(i, off)]) 1) (driftIndex s)).dom 0).input j =
      { ({ s.dom 0 with inputs := mapSet (s.dom 0).inputs i (requalify s 0 (drifted (s.dom 0) i off)) } : Domain).input j with
        winPresent := 0 } := by
    rw [windowEnded_input0, again1.other 0 (by decide), sel0, Domain.selected_input, timeEvt_dom, dom0]
  rw [driftWindow_nil] at e
  refine ⟨_, e, ?_, ?_, ?_, ?_, fun j hj => ?_, fun j => ?_, rfl, ?_, ?_⟩
  · rw [input0, Domain.input_mapSet_self]
    rfl
  · rw [input0, Domain.input_mapSet_self]
    exact requalified_drifted s 0 _ rfl
  · rw [input0, Domain.input_mapSet_self]
    rfl
  · rw [input0]
  · rw [input0, Domain.input_mapSet_ne _ _ hj]
  · rw [windowEnded_input1, sel1, Domain.selected_input, first.other 1 (by decide)]
  · have mark := raise_queued (evalInput s 0 i (drifted (s.dom 0) i off) false) 1 0 0x0205 b (evald.queue.room room')
    exact windowEnded_queued _ ((again0.queue.trans again1.queue).queued mark)
  · exact (doms.timeOnly.trans (windowEnded_timeOnly _ _)).sameExcept

/-- Settles O8: the update that locks, the window that disqualifies, and no window's end. -/
theorem servoAndDrift : Obligations.ServoAndDrift := by
  refine ⟨fun d k e r s osc st run stepDue only qualified rank phase prio small room => ?locks,
    fun i off s ended qualified fresh run present outside room => ?drifts, fun m0 m1 s within => ?within⟩
  case locks =>
    obtain ⟨t, update, shows⟩ := servoUpdate_locks d k e r s osc st run stepDue only qualified rank phase prio small room
    exact ⟨t, congrArg Host.Outcome.next update, shows⟩
  case drifts =>
    obtain ⟨t, window, shows⟩ := driftWindowEnd_disqualifies i off s ended qualified fresh run present outside room
    exact ⟨t, congrArg Host.Outcome.next window, shows⟩
  case within => exact congrArg Host.Outcome.next (if_pos within)

end Sys2Proof.Machine
end

section
namespace Sys2Proof.Machine

open Sys2Proof.Claims

/-! ## A command on an accepted packet (R443, R447) -/

/-- A host part in which the ports' roles and the tail modes of the placed images are those of the state. -/
structure KeepsRoles (s : State) (host : HostSt) : Prop where
  role : ∀ port, State.roleOf { s with host := host } port = s.roleOf port
  tails : host.kernelTail = s.host.kernelTail

theorem State.setHp_onlyHost (s : State) (h : Nat) (x : HostPort) :
    ∃ host, s.setHp h x = { s with host := host } ∧ host.kernelTail = s.host.kernelTail := by
  unfold State.setHp
  split <;> exact ⟨_, rfl, rfl⟩

theorem State.hp_setHp_role (s : State) (h k : Nat) (x : HostPort) (same : x.role = (s.hp h).role) :
    ((s.setHp h x).hp k).role = (s.hp k).role := by
  unfold State.setHp State.hp at *
  split <;> split <;> simp_all

/-- Accepting a packet changes the host part alone, and neither a port's role nor what is placed. -/
theorem acceptReq_onlyHost (s : State) (rq : Req) : ∃ host, acceptReq s rq = { s with host := host } ∧ KeepsRoles s host := by
  unfold acceptReq
  split
  · exact ⟨_, rfl, fun _ => rfl, rfl⟩
  · obtain ⟨host, e, tails⟩ := s.setHp_onlyHost rq.port { s.hp rq.port with current := some rq, dropReply := false }
    have role (port : Nat) : (State.hp { s with host := host } port).role = (s.hp port).role :=
      e ▸ s.hp_setHp_role rq.port port _ rfl
    have roleOf (port : Nat) : State.roleOf { s with host := host } port = s.roleOf port := by
      simp only [State.roleOf, role]
    dsimp only
    rw [e]
    exact ⟨_, rfl, roleOf, tails⟩

/-- The checks of R443 read nothing of the host part but the roles. -/
theorem headCheck_onlyHost (s : State) (host : HostSt) (rq : Req) (len : Nat)
    (role : State.roleOf { s with host := host } rq.port = s.roleOf rq.port) :
    headCheck { s with host := host } rq len = headCheck s rq len := by
  unfold headCheck
  rw [role]
  rfl

/-- A packet that is accepted and passes every check runs its command's body on the accepted state, which differs from the
state before in the host part alone. -/
theorem delaz_runs {s : State} {rq : Req} {op : Nat} {p : List Byte} (h : Accepts s rq op p.length) :
    ∃ host, accepted s rq op = { s with host := host } ∧ KeepsRoles s host ∧
      ∀ body, delaz op rq p s body = body (asOp rq op) p { s with host := host } := by
  obtain ⟨shut, len, head⟩ := h
  obtain ⟨host, e, keeps⟩ := acceptReq_onlyHost s (asOp rq op)
  refine ⟨host, e, keeps, fun body => ?_⟩
  have checked : headCheck (acceptReq s (asOp rq op)) (asOp rq op) p.length = none := by
    rw [e, headCheck_onlyHost s host _ _ (keeps.role _), head]
  have runs : runChecked (acceptReq s (asOp rq op)) (asOp rq op) p body = body (asOp rq op) p (acceptReq s (asOp rq op)) := by
    rw [runChecked, if_neg (Nat.not_lt.mpr len), checked]
  calc delaz op rq p s body = runChecked (acceptReq s (asOp rq op)) (asOp rq op) p body := by simp [delaz, shut, asOp]
    _ = body (asOp rq op) p { s with host := host } := by rw [runs, e]

section
variable {i : Instr} {rq : Req} {op : Nat} {p : List Byte} {s : State} {body : Req → List Byte → State → State}

/-- A command whose body answers DZ_OK on every such state answers so. -/
theorem answers_of_body {pl : List Byte} (row : exec i s = .next (delaz op rq p s body)) (h : Accepts s rq op p.length)
    (e : ∀ host, KeepsRoles s host → body (asOp rq op) p { s with host := host } = replyOk { s with host := host } (asOp rq op) pl) :
    Answers i s rq op pl := by
  obtain ⟨host, acc, keeps, runs⟩ := delaz_runs h
  unfold Answers
  rw [row, runs, e host keeps, acc]

/-- A command whose body refuses on every such state is refused. -/
theorem refuses_of_body {st det : Nat} (row : exec i s = .next (delaz op rq p s body)) (h : Accepts s rq op p.length)
    (e : ∀ host, KeepsRoles s host → body (asOp rq op) p { s with host := host } = refuse { s with host := host } (asOp rq op) st det) :
    Refuses i s rq op st det := by
  obtain ⟨host, acc, keeps, runs⟩ := delaz_runs h
  unfold Refuses
  rw [row, runs, e host keeps, acc]

/-- A command whose body answers DZ_OK from a state as described leads to one. -/
theorem leads_of_body {pl : List Byte} {P : State → Prop} (row : exec i s = .next (delaz op rq p s body))
    (h : Accepts s rq op p.length)
    (e : ∀ host, KeepsRoles s host →
      ∃ u, body (asOp rq op) p { s with host := host } = replyOk u (asOp rq op) pl ∧ P u) :
    Leads i rq op pl P s := by
  obtain ⟨host, -, keeps, runs⟩ := delaz_runs h
  obtain ⟨u, eq, hu⟩ := e host keeps
  exact ⟨u, by rw [row, runs, eq], hu⟩

/-- A command whose body leads to a state as described without a reply. -/
theorem does_of_body {P : State → Prop} (row : exec i s = .next (delaz op rq p s body)) (h : Accepts s rq op p.length)
    (e : ∀ host, KeepsRoles s host → P (body (asOp rq op) p { s with host := host })) : Does i s P := by
  obtain ⟨host, -, keeps, runs⟩ := delaz_runs h
  exact ⟨_, by rw [row, runs], e host keeps⟩

end

end Sys2Proof.Machine
end

section
namespace Sys2Proof.Machine

open Sys2Proof.Claims

/-! ## Sparse maps with a key removed -/

@[simp] theorem mapGet?_mapDel_self {α : Type} (m : SMap α) (k : Nat) : mapGet? (mapDel m k) k = none := by
  induction m with
  | nil => rfl
  | cons e t ih =>
    obtain ⟨j, v⟩ := e
    unfold mapDel
    split
    · exact ih
    · rename_i h
      simp [mapGet?, h, ih]

@[simp] theorem mapGet?_mapDel_ne {α : Type} (m : SMap α) {k j : Nat} (h : j ≠ k) : mapGet? (mapDel m k) j = mapGet? m j := by
  induction m with
  | nil => rfl
  | cons e t ih =>
    obtain ⟨i, v⟩ := e
    unfold mapDel
    split
    · rename_i e
      subst e
      simp [mapGet?, Ne.symm h, ih]
    · simp only [mapGet?, ih]

/-- A stored value reads back, whether it is listed or is the default. -/
theorem mapGet_mapPut_self (m : SMap Nat) (k v d : Nat) : mapGet (mapPut m k v d) k d = v := by
  unfold mapPut mapGet
  split <;> simp_all

theorem mapGet_mapPut_ne (m : SMap Nat) {k j : Nat} (v d d' : Nat) (h : j ≠ k) : mapGet (mapPut m k v d) j d' = mapGet m j d' := by
  unfold mapPut mapGet
  split <;> simp [h]

theorem State.param_setParam_self (s : State) (id inst v : Nat) : (s.setParam id inst v).param id inst = v :=
  mapGet_mapPut_self _ _ _ _

theorem State.param_setParam_ne (s : State) {id inst i j : Nat} (v : Nat) (h : pkey i j ≠ pkey id inst) :
    (s.setParam id inst v).param i j = s.param i j :=
  mapGet_mapPut_ne _ v _ _ h

@[simp] theorem asOp_port (rq : Req) (op : Nat) : (asOp rq op).port = rq.port := rfl

@[simp] theorem asOp_inst (rq : Req) (op : Nat) : (asOp rq op).inst = rq.inst := rfl

@[simp] theorem asOp_opcode (rq : Req) (op : Nat) : (asOp rq op).opcode = op := rfl

/-! ## Entries and parameter commands (R452 to R454, R470) -/

/-- The checks of entries read nothing of the host part. -/
theorem entries_onlyHost (fuel : Nat) (s : State) (host : HostSt) (u : EntryUse) (i : Nat) (b : List Byte) :
    entries fuel { s with host := host } u i b = entries fuel s u i b := by
  induction fuel generalizing s i b with
  | zero => rfl
  | succ n ih =>
    have head : entryCheck { s with host := host } u b = entryCheck s u b := rfl
    unfold entries
    rw [head]
    split
    · rfl
    · split
      · rfl
      · rename_i e len _
        have next : (if u = .set then State.setParam { s with host := host } e.id e.inst e.val else { s with host := host }) =
            { (if u = .set then s.setParam e.id e.inst e.val else s) with host := host } := by
          split <;> rfl
        dsimp only
        rw [next, ih]

/-- PARAM_GET answers the values of its entries (R454). -/
theorem paramGet_answers (rq : Req) (p : List Byte) (l : List Entry) (s : State) (h : Accepts s rq 0x0101 p.length)
    (parsed : entries (p.length + 1) s .get 0 p = .inr l) (fit : firstUnfit (l.map (entryBytes s)) = none) :
    Answers (.paramGet rq p) s rq 0x0101 (l.map (entryBytes s)).flatten := by
  refine answers_of_body rfl h fun host keeps => ?_
  have bytes : l.map (entryBytes { s with host := host }) = l.map (entryBytes s) := rfl
  simp only [cmdParamGet, entries_onlyHost, parsed, bytes, fit]

theorem paramGet_refuses (rq : Req) (p : List Byte) (st i : Nat) (s : State) (h : Accepts s rq 0x0101 p.length)
    (failed : entries (p.length + 1) s .get 0 p = .inl (st, i)) : Refuses (.paramGet rq p) s rq 0x0101 st i := by
  refine refuses_of_body rfl h fun host _ => ?_
  simp only [cmdParamGet, entries_onlyHost, failed]

/-- A parameter whose rule ties nothing to the write only takes its value (R453). -/
theorem paramApply_plain (s : State) (e : Entry) (noPps : e.id ≠ 0x0213) (noLane : e.id < 0x0401 ∨ 0x0404 < e.id)
    (noGain : e.id ≠ 0x0A01) (noTrace : e.id ≠ 0x080E) : paramApply s e = s.setParam e.id e.inst e.val := by
  have lane : ¬(0x0401 ≤ e.id ∧ e.id ≤ 0x0404) := by omega
  simp [paramApply, noPps, lane, noGain, noTrace]

theorem paramSet_leads (rq : Req) (p : List Byte) (e : Entry) (s : State) (h : Accepts s rq 0x0102 p.length)
    (parsed : entries (p.length + 1) s .set 0 p = .inr [e]) (pairs : pairFail (s.setParam e.id e.inst e.val) [e] = none)
    (noLane : e.id < 0x0401 ∨ 0x0404 < e.id) (noPps : e.id ≠ 0x0213) (noGain : e.id ≠ 0x0A01) (noTrace : e.id ≠ 0x080E) :
    Leads (.paramSet rq p) rq 0x0102 [] (fun u => u.param e.id e.inst = e.val ∧
      (∀ i j, pkey i j ≠ pkey e.id e.inst → u.param i j = s.param i j) ∧ u.cfg = { s.cfg with params := u.cfg.params } ∧
      SameExcept [.host, .cfg] s u) s := by
  refine leads_of_body rfl h fun host keeps => ⟨State.setParam { s with host := host } e.id e.inst e.val, ?_, ?_⟩
  · have pairs' : pairFail (State.setParam { s with host := host } e.id e.inst e.val) [e] = none := pairs
    simp only [cmdParamSet, entries_onlyHost, parsed, List.foldl_cons, List.foldl_nil, pairs',
      paramApply_plain _ e noPps noLane noGain noTrace]
  · exact ⟨State.param_setParam_self _ _ _ _, fun i j hij => State.param_setParam_ne _ _ hij, rfl,
      by simp [SameExcept, State.setParam]⟩

theorem paramSet_refuses (rq : Req) (p : List Byte) (st i : Nat) (s : State) (h : Accepts s rq 0x0102 p.length)
    (failed : entries (p.length + 1) s .set 0 p = .inl (st, i)) : Refuses (.paramSet rq p) s rq 0x0102 st i := by
  refine refuses_of_body rfl h fun host _ => ?_
  simp only [cmdParamSet, entries_onlyHost, failed]

/-- A set of one entry, staged where nothing is staged, is that entry (R470). -/
theorem cfgStage_leads (rq : Req) (p : List Byte) (e : Entry) (s : State) (h : Accepts s rq 0x0103 p.length) (op : rd p 0 1 = 0)
    (parsed : entries (p.length + 1) s .stage 0 (p.drop 8) = .inr [e]) (empty : s.staged rq.port = []) :
    Leads (.cfgStage rq p) rq 0x0103 (leBytes 4 1) (fun u => u.staged rq.port = [(pkey e.id e.inst, e.val)] ∧
      u.cfg.params = s.cfg.params ∧ (∀ j, j ≠ rq.port → u.staged j = s.staged j) ∧ SameExcept [.host, .cfg] s u) s := by
  refine leads_of_body rfl h fun host keeps =>
    ⟨{ s with host := host, cfg := { s.cfg with staged := mapSet s.cfg.staged rq.port [(pkey e.id e.inst, e.val)] } }, ?_, ?_⟩
  · have empty' : State.staged { s with host := host } rq.port = [] := empty
    simp [cmdCfgStage, op, entries_onlyHost, parsed, empty', mapSet]
  · exact ⟨mapGet_mapSet_self _ _ _ _, rfl, fun j hj => mapGet_mapSet_ne _ _ _ hj, by simp [SameExcept]⟩

/-! ## Arming a commit, and the digest (R471, R472, R486) -/

/-- Of the host part the rules that refuse a configuration read the tail modes of the placed images alone (R215). -/
theorem armRules_onlyHost (s : State) (host : HostSt) (set : SMap Nat) (tails : host.kernelTail = s.host.kernelTail) :
    (armRules.filterMap fun f => f { s with host := host } set) = armRules.filterMap fun f => f s set := by
  have declared : declaredTail { s with host := host } = declaredTail s := by
    funext k
    exact congrArg (mapGet? · k) tails
  have tail : armTail { s with host := host } set = armTail s set := by
    unfold armTail
    rw [declared]
    rfl
  unfold armRules
  simp only [List.filterMap_cons, tail]
  rfl

theorem armCheck_onlyHost (s : State) (host : HostSt) (set : SMap Nat) (t : Nat) (tails : host.kernelTail = s.host.kernelTail) :
    armCheck { s with host := host } set t = armCheck s set t := by
  unfold armCheck
  rw [armRules_onlyHost s host set tails]
  rfl

theorem cfgArm_does (rq : Req) (p : List Byte) (s : State) (h : Accepts s rq 0x0104 p.length)
    (passes : armCheck s (s.staged rq.port) (rd p 0 8) = none) :
    let us := unitsConcerned s (s.staged rq.port)
    Does (.cfgArm rq p) s fun t => t.cfg = { s.cfg with
        commit := some {
          req := asOp rq 0x0104, t := rd p 0 8, set := s.staged rq.port, units := us
          reasons := (us.filter (unitClosed s)).map fun u => (u, 1) } } ∧
      t.comp 0 = { armed := true, action := 1, arg := 0, target := rd p 0 8, late := reached s.now (rd p 0 8) } ∧
      t.comp 1 = { armed := true, action := 1, arg := 1, target := rd p 0 8 + 1966080, late := reached s.now (rd p 0 8 + 1966080) } ∧
      (∀ n, 1 < n → t.comp n = s.comp n) ∧ SameExcept [.host, .cfg, .time] s t := by
  refine does_of_body rfl h fun host keeps => ?_
  have passes' : armCheck { s with host := host } (State.staged { s with host := host } rq.port) (rd p 0 8) = none :=
    (armCheck_onlyHost s host _ _ keeps.tails).trans passes
  simp only [cmdCfgArm, asOp_port, passes']
  refine ⟨rfl, ?_, ?_, fun n hn => ?_, by simp [SameExcept, lanimanArm, setCommit]⟩
  · exact (State.comp_setComp_ne _ 1 _ (by decide)).trans (State.comp_setComp_self _ 0 _)
  · exact State.comp_setComp_self _ 1 _
  · exact (State.comp_setComp_ne _ 1 _ (by omega)).trans (State.comp_setComp_ne _ 0 _ (by omega))

theorem cfgArm_refuses (rq : Req) (p : List Byte) (st det : Nat) (s : State) (h : Accepts s rq 0x0104 p.length)
    (failed : armCheck s (s.staged rq.port) (rd p 0 8) = some (st, det)) : Refuses (.cfgArm rq p) s rq 0x0104 st det := by
  refine refuses_of_body rfl h fun host keeps => ?_
  have failed' : armCheck { s with host := host } (State.staged { s with host := host } rq.port) (rd p 0 8) = some (st, det) :=
    (armCheck_onlyHost s host _ _ keeps.tails).trans failed
  simp only [cmdCfgArm, asOp_port, failed']

/-- CFG_DIGEST answers for the scope that its header names (R486). -/
theorem cfgDigest_answers (rq : Req) (p : List Byte) (x : Scope) (s : State) (h : Accepts s rq 0x0105 p.length)
    (scope : (rq.scope = 0 ∧ x = .device) ∨ (rq.scope = 1 ∧ x = .pool) ∨ (rq.scope = 2 ∧ x = .port rq.inst) ∨
      (rq.scope = 3 ∧ x = .carrier rq.inst)) :
    Answers (.cfgDigest rq p) s rq 0x0105 (leBytes 4 (generation s x) ++ leBytes 1 (if commitOpen s then 1 else 0) ++ leBytes 3 0 ++
      leBytes 8 (fingerprint s x) ++ leBytes 8 (mapGet s.cfg.genTimes x.key 0)) := by
  refine answers_of_body rfl h fun host keeps => ?_
  have named : (match (asOp rq 0x0105).scope with
      | 1 => Scope.pool
      | 2 => Scope.port (asOp rq 0x0105).inst
      | 3 => Scope.carrier (asOp rq 0x0105).inst
      | _ => Scope.device) = x := by
    rcases scope with ⟨sc, rfl⟩ | ⟨sc, rfl⟩ | ⟨sc, rfl⟩ | ⟨sc, rfl⟩ <;> simp [asOp, sc]
  subst named
  rfl

/-! ## Reading and switching time (R37, R56, R101, R464) -/

theorem timeStatus_answers (rq : Req) (p : List Byte) (s : State) (h : Accepts s rq 0x0401 p.length) :
    Answers (.timeStatus rq p) s rq 0x0401 (leBytes 1 s.time.active ++ leBytes 1 (if s.time.aligned then 1 else 0) ++ [0, 0] ++
      leBytes 1 s.time.tod0.taiUtc ++ leBytes 1 s.time.tod0.leap ++ leBytes 1 s.time.tod1.taiUtc ++ leBytes 1 s.time.tod1.leap ++
      timeStatusBlock s 0 ++ timeStatusBlock s 1) :=
  answers_of_body rfl h fun _ _ => rfl

theorem timeRead_answers (rq : Req) (p : List Byte) (d : Nat) (s : State) (h : Accepts s rq 0x0402 p.length) (dom : rd p 0 1 = d)
    (lt : d < 2) : Answers (.timeRead rq p) s rq 0x0402 (leBytes 6 (s.dom d).seconds ++ leBytes 4 ((s.dom d).ns % 1000000000) ++
      leBytes 4 ((s.dom d).count % 2 ^ 32) ++ [0, 0] ++ leBytes 8 s.now) := by
  subst dom
  exact answers_of_body rfl h fun _ _ => if_neg (Nat.not_le.mpr lt)

theorem timeRead_refuses (rq : Req) (p : List Byte) (s : State) (h : Accepts s rq 0x0402 p.length) (out : 2 ≤ rd p 0 1) :
    Refuses (.timeRead rq p) s rq 0x0402 5 0 :=
  refuses_of_body rfl h fun _ _ => if_pos out

theorem airtimeRead_answers (rq : Req) (p : List Byte) (s : State) (h : Accepts s rq 0x0403 p.length) :
    Answers (.airtimeRead rq p) s rq 0x0403 (leBytes 8 s.now ++ leBytes 4 (s.time.air % 2 ^ 32) ++ leBytes 1 s.time.active ++
      leBytes 1 (if s.time.aligned then 1 else 0) ++ [0, 0] ++ leInt 8 s.time.r ++ leBytes 6 (s.dom s.time.active).seconds ++
      leBytes 4 ((s.dom s.time.active).ns % 1000000000) ++ leBytes 6 0) :=
  answers_of_body rfl h fun _ _ => rfl

/-- TIME_SWITCH begins its wait phase (R37). -/
theorem timeSwitch_does (rq : Req) (p : List Byte) (s : State) (h : Accepts s rq 0x0404 p.length) (dom : rd p 0 1 < 2)
    (idle : s.time.switchWait = none) : Does (.timeSwitch rq p) s fun t => t.time = { s.time with
        switchWait := some { req := asOp rq 0x0404, target := rd p 0 1, force := bit (rd p 1 1) 0 } } ∧
      SameExcept [.host, .time] s t := by
  refine does_of_body rfl h fun host keeps => ?_
  simp [cmdTimeSwitch, Nat.not_le.mpr dom, idle, SameExcept]

/-- A measurement for a bound slot of a domain, not late: the slot is updated, and where it is no reference that is all (R56). -/
theorem cmdTimePtpFeed_slot (rq : Req) (p : List Byte) (s : State) (dom : rd p 20 1 < 2) (slot : rd p 21 1 < 4)
    (bound : s.paramTime 0x020D (rd p 20 1 * 4 + rd p 21 1) ≠ 255)
    (recent : ((s.dom (rd p 20 1)).ns : Int) - extendStamp (s.dom (rd p 20 1)).ns (rd p 16 4) ≤ 1000000000) :
    let u := updInput s (rd p 20 1) (20 + rd p 21 1)
      (fun r => { r.appear (s.dom (rd p 20 1)) with rank := clockClassRank (rd p 22 1), lastMeas := s.now }) false
    (u.dom (rd p 20 1)).phaseRef ≠ some (20 + rd p 21 1) → (u.dom (rd p 20 1)).freqRef ≠ some (20 + rd p 21 1) →
    cmdTimePtpFeed rq p s = replyOk u rq [] := by
  intro u noPhase noFreq
  unfold cmdTimePtpFeed
  dsimp only
  rw [if_neg (by simp [dom, slot]), if_neg bound, if_neg (by simpa using recent),
    if_neg (by simp only [Bool.or_eq_true, decide_eq_true_eq, not_or]; exact ⟨noPhase, noFreq⟩)]

theorem timePtpFeed_updates (rq : Req) (p : List Byte) (d n : Nat) (s : State) (h : Accepts s rq 0x0406 p.length)
    (dom : rd p 20 1 = d) (slot : rd p 21 1 = n) (dlt : d < 2) (nlt : n < 4) (bound : s.paramTime 0x020D (d * 4 + n) ≠ 255)
    (recent : ((s.dom d).ns : Int) - extendStamp (s.dom d).ns (rd p 16 4) ≤ 1000000000) :
    let u := updInput (accepted s rq 0x0406) d (20 + n)
      (fun r => { r.appear (s.dom d) with rank := clockClassRank (rd p 22 1), lastMeas := s.now }) false
    (u.dom d).phaseRef ≠ some (20 + n) → (u.dom d).freqRef ≠ some (20 + n) →
    exec (.timePtpFeed rq p) s = .next (replyOk u (asOp rq 0x0406) []) := by
  intro u noPhase noFreq
  obtain ⟨host, acc, -, runs⟩ := delaz_runs h
  subst dom slot
  unfold u at noPhase noFreq ⊢
  rw [acc] at noPhase noFreq ⊢
  exact congrArg Host.Outcome.next ((runs cmdTimePtpFeed).trans
    (cmdTimePtpFeed_slot (asOp rq 0x0406) p { s with host := host } dlt nlt bound recent noPhase noFreq))

theorem timePtpFeed_refuses (rq : Req) (p : List Byte) (s : State) (h : Accepts s rq 0x0406 p.length)
    (out : 2 ≤ rd p 20 1 ∨ 4 ≤ rd p 21 1) : Refuses (.timePtpFeed rq p) s rq 0x0406 5 0 := by
  refine refuses_of_body rfl h fun host keeps => ?_
  simp [cmdTimePtpFeed, out]

/-! ## The PTP queues (R137, R465) -/

theorem ptpRecv_leads (rq : Req) (p : List Byte) (s : State) (h : Accepts s rq 0x0407 p.length) :
    let r := ptpTake (s.port rq.inst).ptpRx (rd p 0 2) 4076
    Leads (.ptpRecv rq p) rq 0x0407 r.2 (fun u => u.port rq.inst = { s.port rq.inst with
        ptpRx := (s.port rq.inst).ptpRx.drop r.1
        ptpOver := (s.port rq.inst).ptpOver && !((s.port rq.inst).ptpRx.drop r.1).isEmpty } ∧
      OtherPorts s u rq.inst ∧ u.ports.carriers = s.ports.carriers ∧ SameExcept [.host, .ports] s u) s := by
  intro r
  refine leads_of_body rfl h fun host _ => ⟨State.setPort { s with host := host } rq.inst { s.port rq.inst with
    ptpRx := (s.port rq.inst).ptpRx.drop r.1
    ptpOver := (s.port rq.inst).ptpOver && !((s.port rq.inst).ptpRx.drop r.1).isEmpty }, rfl, ?_⟩
  exact ⟨State.port_setPort_self _ _ _, fun j hj => State.port_setPort_ne _ _ _ hj, rfl, by simp [SameExcept]⟩

@[simp] theorem Port.link_setLink_self (x : Port) (k : Nat) (l : Link) : (x.setLink k l).link k = l := by
  match k with
  | 0 | 1 | 2 | _ + 3 => rfl

@[simp] theorem State.link_setLink_self (s : State) (p k : Nat) (l : Link) : (s.setLink p k l).link p k = l := by
  simp [State.setLink, State.link]

/-- Writing a link of a port changes no other port and no other block. -/
theorem State.setLink_frame (s : State) (p k : Nat) (l : Link) :
    OtherPorts s (s.setLink p k l) p ∧ SameExcept [.ports] s (s.setLink p k l) :=
  ⟨fun _ hj => State.port_setPort_ne _ _ _ hj, by simp [SameExcept, State.setLink]⟩

/-- Where no waiting frame has lost its window or its licence, a purge of the C-plane frames finds none (R162, R163). -/
theorem cpPurge_sendable (s : State) (p k : Nat) (h : Sendable s p k) : cpPurge s p k = s.setLink p k (s.link p k) := by
  have stays (g : TxFrame) (hg : g ∈ (s.link p k).fh) :
      (g.kind = 1 && (s.boot.devState = 4 || !g.open_ (s.localNow 0 p : Int))) = false := by
    by_cases c : g.kind = 1
    · simp [c, (h g hg).1 c]
    · simp [c]
  have none_ : (s.link p k).fh.filter (fun g => g.kind = 1 && (s.boot.devState = 4 || !g.open_ (s.localNow 0 p : Int))) = [] :=
    List.filter_eq_nil_iff.mpr fun g hg => by simp [stays g hg]
  have all : (s.link p k).fh.filter (fun g => !(g.kind = 1 && (s.boot.devState = 4 || !g.open_ (s.localNow 0 p : Int)))) =
      (s.link p k).fh := List.filter_eq_self.mpr fun g hg => by simp [stays g hg]
  unfold cpPurge modLink
  dsimp only
  rw [none_, all]
  rfl

/-- A PTP frame for a link that is sending waits in the link's queue (R137). -/
theorem txQueue_ptp_sending (s : State) (p k : Nat) (b : List Byte) (h : Sendable s p k) (sending : (s.link p k).sending.isSome = true) :
    let l := { s.link p k with ptp := (s.link p k).ptp ++ [{ kind := 3, bytes := b }] }
    txQueue s p k { kind := 3, bytes := b } = (s.setLink p k l).setLink p k l := by
  intro l
  have sendable : Sendable (s.setLink p k l) p k := by
    intro g hg
    rw [State.link_setLink_self] at hg
    exact h g hg
  have purged : cpPurge (s.setLink p k l) p k = (s.setLink p k l).setLink p k l := by
    rw [cpPurge_sendable _ p k sendable, State.link_setLink_self]
  have queued : modLink s p k (fun x => if (3 : Nat) ≤ 2 then { x with fh := x.fh ++ [{ kind := 3, bytes := b }] }
      else if (3 : Nat) = 3 then { x with ptp := x.ptp ++ [{ kind := 3, bytes := b }] }
      else { x with low := x.low ++ [{ kind := 3, bytes := b }] }) = s.setLink p k l := rfl
  unfold txQueue txKick
  dsimp only
  rw [queued, purged, State.link_setLink_self, if_pos (by simp [l, sending])]

/-- A port with one more PTP frame on one of its links has one more waiting. -/
theorem ptpWaiting_setLink (s : State) (p k : Nat) (l : Link) (link : k < 4)
    (grown : l.ptp.length = (s.link p k).ptp.length + 1) : ptpWaiting (s.setLink p k l) p = ptpWaiting s p + 1 := by
  unfold ptpWaiting State.setLink State.link at *
  rw [State.port_setPort_self]
  interval_cases k <;> simp only [Port.setLink, Port.link] at * <;> omega

/-- Writing a link again with the same value leaves as many frames waiting. -/
theorem ptpWaiting_setLink_again (s : State) (p k : Nat) (l : Link) :
    ptpWaiting ((s.setLink p k l).setLink p k l) p = ptpWaiting (s.setLink p k l) p := by
  unfold ptpWaiting State.setLink
  rw [State.port_setPort_self, State.port_setPort_self]
  match k with
  | 0 | 1 | 2 | _ + 3 => rfl

/-- PTP_SEND on a link that is sending: the frame waits in the link's queue, and the reply counts the places left. -/
theorem cmdPtpSend_sending (rq : Req) (p : List Byte) (s : State) (lt : rd p 0 1 < 4) (has : hasLink s rq.inst (rd p 0 1) = true)
    (space : ptpWaiting s rq.inst < 128) (sending : (s.link rq.inst (rd p 0 1)).sending.isSome = true)
    (up : s.linkUp rq.inst (rd p 0 1) = true) (sendable : Sendable s rq.inst (rd p 0 1)) :
    let l := { s.link rq.inst (rd p 0 1) with ptp := (s.link rq.inst (rd p 0 1)).ptp ++ [{ kind := 3, bytes := p.drop 4 }] }
    cmdPtpSend rq p s = replyOk ((s.setLink rq.inst (rd p 0 1) l).setLink rq.inst (rd p 0 1) l) rq (leBytes 2 (127 - ptpWaiting s rq.inst)) := by
  intro l
  have waiting : ptpWaiting ((s.setLink rq.inst (rd p 0 1) l).setLink rq.inst (rd p 0 1) l) rq.inst = ptpWaiting s rq.inst + 1 := by
    rw [ptpWaiting_setLink_again, ptpWaiting_setLink s rq.inst (rd p 0 1) l lt (by simp [l])]
  unfold cmdPtpSend
  dsimp only
  rw [if_neg (by simp [has]), if_neg (Nat.not_le.mpr space), if_pos up, txQueue_ptp_sending s _ _ _ sendable sending, waiting,
    Nat.sub_add_eq, Nat.sub_right_comm]

theorem ptpSend_leads (rq : Req) (p : List Byte) (k : Nat) (s : State) (h : Accepts s rq 0x0408 p.length) (number : rd p 0 1 = k)
    (lt : k < 4) (has : hasLink s rq.inst k = true) (space : ptpWaiting s rq.inst < 128)
    (sending : (s.link rq.inst k).sending.isSome = true) (up : s.linkUp rq.inst k = true) (sendable : Sendable s rq.inst k) :
    Leads (.ptpSend rq p) rq 0x0408 (leBytes 2 (127 - ptpWaiting s rq.inst)) (fun u => u.link rq.inst k =
        { s.link rq.inst k with ptp := (s.link rq.inst k).ptp ++ [{ kind := 3, bytes := p.drop 4 }] } ∧
      OtherPorts s u rq.inst ∧ SameExcept [.host, .ports] s u) s := by
  subst number
  refine leads_of_body rfl h fun host _ => ⟨_,
    cmdPtpSend_sending (asOp rq 0x0408) p { s with host := host } lt has space sending up sendable, ?_⟩
  refine ⟨State.link_setLink_self _ _ _ _, fun j hj => ?_, by simp [SameExcept, State.setLink]⟩
  exact ((State.setLink_frame _ _ _ _).1 j hj).trans ((State.setLink_frame _ _ _ _).1 j hj)

/-- PTP_SEND on a link that is down: the frame is lost and counted (R136). -/
theorem cmdPtpSend_down (rq : Req) (p : List Byte) (s : State) (has : hasLink s rq.inst (rd p 0 1) = true)
    (space : ptpWaiting s rq.inst < 128) (down : s.linkUp rq.inst (rd p 0 1) = false) :
    cmdPtpSend rq p s = replyOk (s.setPort rq.inst { s.port rq.inst with ptpLost := min ((s.port rq.inst).ptpLost + 1) (2 ^ 32 - 1) })
      rq (leBytes 2 (128 - ptpWaiting s rq.inst)) := by
  have waiting (n : Nat) : ptpWaiting (s.setPort rq.inst { s.port rq.inst with ptpLost := n }) rq.inst = ptpWaiting s rq.inst := by
    simp only [ptpWaiting, State.port_setPort_self]
  unfold cmdPtpSend modPort satAdd
  dsimp only
  rw [if_neg (by simp [has]), if_neg (Nat.not_le.mpr space), if_neg (by simp [down]), waiting]

theorem ptpSend_down_leads (rq : Req) (p : List Byte) (k : Nat) (s : State) (h : Accepts s rq 0x0408 p.length)
    (number : rd p 0 1 = k) (_ : k < 4) (has : hasLink s rq.inst k = true) (space : ptpWaiting s rq.inst < 128)
    (down : s.linkUp rq.inst k = false) :
    Leads (.ptpSend rq p) rq 0x0408 (leBytes 2 (128 - ptpWaiting s rq.inst)) (fun u => u.port rq.inst =
        { s.port rq.inst with ptpLost := min ((s.port rq.inst).ptpLost + 1) (2 ^ 32 - 1) } ∧
      OtherPorts s u rq.inst ∧ SameExcept [.host, .ports] s u) s := by
  subst number
  refine leads_of_body rfl h fun host _ => ⟨_, cmdPtpSend_down (asOp rq 0x0408) p { s with host := host } has space down, ?_⟩
  exact ⟨State.port_setPort_self _ _ _, fun j hj => State.port_setPort_ne _ _ _ hj, by simp [SameExcept]⟩

/-! ## Host comparators (R93, R99) -/

theorem timedArm_leads (rq : Req) (p : List Byte) (n : Nat) (s : State) (h : Accepts s rq 0x0409 p.length)
    (passes : armTimed s (rd p 0 2) (rd p 2 1) (rd p 3 1) (rd p 4 4) (rd p 8 8) (rd p 16 8) = .inr n) :
    Leads (.timedArm rq p) rq 0x0409 (leBytes 2 n) (fun u => u.comp n =
        { armed := true, mode := rd p 3 1, action := rd p 2 1, arg := argKept (rd p 2 1) (rd p 4 4), target := rd p 8 8,
          period := rd p 16 8, port := min rq.port 4, fired := false } ∧
      (∀ j, j ≠ n → u.comp j = s.comp j) ∧ SameExcept [.host, .time] s u) s := by
  refine leads_of_body rfl h fun host _ => ⟨State.setComp { s with host := host } n
    { armed := true, mode := rd p 3 1, action := rd p 2 1, arg := argKept (rd p 2 1) (rd p 4 4), target := rd p 8 8,
      period := rd p 16 8, port := min rq.port 4, fired := false }, ?_, ?_⟩
  · have passes' : armTimed { s with host := host } (rd p 0 2) (rd p 2 1) (rd p 3 1) (rd p 4 4) (rd p 8 8) (rd p 16 8) = .inr n :=
      passes
    simp only [cmdTimedArm, passes', asOp_port]
  · exact ⟨State.comp_setComp_self _ _ _, fun j hj => State.comp_setComp_ne _ _ _ hj, by simp [SameExcept]⟩

theorem timedArm_refuses (rq : Req) (p : List Byte) (st : Nat) (s : State) (h : Accepts s rq 0x0409 p.length)
    (failed : armTimed s (rd p 0 2) (rd p 2 1) (rd p 3 1) (rd p 4 4) (rd p 8 8) (rd p 16 8) = .inl st) :
    Refuses (.timedArm rq p) s rq 0x0409 st 0 := by
  refine refuses_of_body rfl h fun host _ => ?_
  have failed' : armTimed { s with host := host } (rd p 0 2) (rd p 2 1) (rd p 3 1) (rd p 4 4) (rd p 8 8) (rd p 16 8) = .inl st :=
    failed
  simp only [cmdTimedArm, failed']

/-- TIMED_CANCEL of an armed comparator that is not due frees it, for the OWNER or the port that armed it (R99). -/
theorem cmdTimedCancel_armed (rq : Req) (p : List Byte) (s : State) (hostComp : 64 ≤ rd p 0 2) (listed : rd p 0 2 ≤ 255)
    (allowed : s.roleOf rq.port = 1 ∨ (s.comp (rd p 0 2)).port = rq.port) (early : compDue s (rd p 0 2) = false)
    (armed : (s.comp (rd p 0 2)).armed = true) :
    cmdTimedCancel rq p s = replyOk (s.setComp (rd p 0 2) { s.comp (rd p 0 2) with armed := false }) rq [] := by
  unfold cmdTimedCancel
  dsimp only
  rw [if_neg (Nat.not_lt.mpr hostComp), if_neg (Nat.not_lt.mpr listed), if_neg (by rcases allowed with e | e <;> simp [e]),
    if_neg (by simp [early]), if_pos armed]

theorem timedCancel_leads (rq : Req) (p : List Byte) (n : Nat) (s : State) (h : Accepts s rq 0x040A p.length) (number : rd p 0 2 = n)
    (hostComp : 64 ≤ n) (listed : n ≤ 255) (allowed : s.roleOf rq.port = 1 ∨ (s.comp n).port = rq.port)
    (early : compDue s n = false) (armed : (s.comp n).armed = true) :
    Leads (.timedCancel rq p) rq 0x040A [] (fun u => u.comp n = { s.comp n with armed := false } ∧
      (∀ j, j ≠ n → u.comp j = s.comp j) ∧ SameExcept [.host, .time] s u) s := by
  subst number
  refine leads_of_body rfl h fun host keeps => ⟨_,
    cmdTimedCancel_armed (asOp rq 0x040A) p { s with host := host } hostComp listed ?_ early armed, ?_⟩
  · rwa [keeps.role]
  · exact ⟨State.comp_setComp_self _ _ _, fun j hj => State.comp_setComp_ne _ _ _ hj, by simp [SameExcept]⟩

theorem timedCancel_refuses (rq : Req) (p : List Byte) (s : State) (h : Accepts s rq 0x040A p.length) (low : rd p 0 2 < 64) :
    Refuses (.timedCancel rq p) s rq 0x040A 13 0 :=
  refuses_of_body rfl h fun _ _ => if_pos low

theorem timedStatus_answers (rq : Req) (p : List Byte) (s : State) (h : Accepts s rq 0x040B p.length) :
    Answers (.timedStatus rq p) s rq 0x040B ((Config.replyLayout 0x040B (((List.range 192).map fun i => 64 + i).flatMap fun n =>
      [if (s.comp n).armed then 1 else 0, (s.comp n).mode, (s.comp n).action, (s.comp n).arg, (s.comp n).target, (s.comp n).period,
       (s.comp n).port, if (s.comp n).fired then 1 else 0])).take 4076) :=
  answers_of_body rfl h fun _ _ => rfl

/-! ## TIME_REALIGN with nothing armed and nothing queued (R38) -/

theorem timeRealign_refuses (rq : Req) (p : List Byte) (s : State) (h : Accepts s rq 0x0405 p.length) (active : s.anyActive = true) :
    Refuses (.timeRealign rq p) s rq 0x0405 7 0 :=
  refuses_of_body rfl h fun _ _ => if_pos active

/-- The state with r at zero and Air Time as the active domain then gives it (R38, R83). -/
def realignedClock (s : State) : State :=
  { s with time := { s.time with
      r := 0, slewFrac := 0, air := airFormula { s with time := { s.time with r := 0, slewFrac := 0 } }
      aligned := (s.dom s.time.active).st = 2 } }

/-- The same with the realignment's event raised: the state before any comparator fires. -/
def realigned (s : State) (cause : Nat) : State :=
  timeEvt (realignedClock s) 0x0301 (leInt 8 (((realignedClock s).now : Int) - (s.now : Int)) ++ leBytes 1 cause ++
    leBytes 1 (b2n (realignedClock s).time.aligned))

/-- One comparator at a forward step of Air Time: it fires late where the step passed its target (R100). -/
def firePassed (was new : Nat) (t : State) (n : Nat) : State :=
  if (t.comp n).armed && decide (was < (t.comp n).target) && reached new (t.comp n).target then
    tacLate (fire t n) n (new - (t.comp n).target)
  else t

theorem realign_cases (s : State) (cause : Nat) : realign s cause = realigned s cause ∨
    realign s cause = millTick ((List.range 256).foldl (firePassed s.now (realignedClock s).now) (realigned s cause)) := by
  by_cases back : ((realignedClock s).now : Int) - (s.now : Int) ≤ 0
  · exact .inl (if_pos back)
  · exact .inr (if_neg back)

/-- Raising an event changes the arbiter alone. -/
theorem raise_eq (s : State) (c i n : Nat) (b : List Byte) : ∃ ev, raise s c i n b = { s with ev := ev } := by
  unfold raise offer
  split <;> exact ⟨_, rfl⟩

theorem realigned_eq (s : State) (cause : Nat) : ∃ ev, realigned s cause = { realignedClock s with ev := ev } := raise_eq _ _ _ _ _

/-- The Mill does nothing in a cycle where no slice holds an item and nothing is on its way (R279). -/
theorem millTick_idle (s : State) (items : ∀ i, (s.slc i).items = []) (grants : s.mill.grants = []) (msgs : s.mill.tierMsgs = []) :
    millTick s = s := by
  have idle (slc : Nat) : dueActions s slc = s := by
    simp [dueActions, tierDue, msgs, grantLate, grants, byDeadline, items, sortByFirst]
  exact List.foldlRecOn (motive := (· = s)) _ _ rfl fun t e slc _ => by rw [e, idle]

theorem realign_idle (s : State) (cause : Nat) (free : ∀ n, (s.comp n).armed = false) (items : ∀ i, (s.slc i).items = [])
    (grants : s.mill.grants = []) (msgs : s.mill.tierMsgs = []) : realign s cause = realigned s cause := by
  obtain ⟨ev, e⟩ := realigned_eq s cause
  have unarmed (n : Nat) : (State.comp (realigned s cause) n).armed = false := by rw [e]; exact free n
  have idle : millTick (realigned s cause) = realigned s cause := by rw [e]; exact millTick_idle _ items grants msgs
  have none_fires (was new : Nat) (l : List Nat) : l.foldl (firePassed was new) (realigned s cause) = realigned s cause :=
    List.foldlRecOn (motive := (· = realigned s cause)) l _ rfl fun t same n _ => by simp [firePassed, same, unarmed]
  rcases realign_cases s cause with same | forward
  · exact same
  · rw [forward, none_fires, idle]

theorem timeRealign_leads (rq : Req) (p : List Byte) (s : State) (h : Accepts s rq 0x0405 p.length) (quiet : s.anyActive = false)
    (free : ∀ n, (s.comp n).armed = false) (items : ∀ i, (s.slc i).items = []) (grants : s.mill.grants = [])
    (msgs : s.mill.tierMsgs = []) (room : Room 1 s) :
    Leads (.timeRealign rq p) rq 0x0405 [] (fun u => u.time.r = 0 ∧ u.time.slewFrac = 0 ∧
      u.time.air = airFormula { s with time := { s.time with r := 0, slewFrac := 0 } } ∧
      (u.time.aligned = true ↔ (s.dom s.time.active).st = 2) ∧ Queued u 1 0 0x0301 ∧ SameExcept [.host, .time, .ev] s u) s := by
  refine leads_of_body rfl h fun host _ => ⟨realigned { s with host := host } 0, ?_, ?_⟩
  · have quiet' : ¬State.anyActive { s with host := host } = true := Bool.not_eq_true _ |>.mpr quiet
    rw [cmdTimeRealign, if_neg quiet', realign_idle { s with host := host } 0 free items grants msgs]
  · have queued : Queued (realigned { s with host := host } 0) 1 0 0x0301 := raise_queued _ _ _ _ _ room
    obtain ⟨ev, e⟩ := realigned_eq { s with host := host } 0
    rw [e] at queued ⊢
    exact ⟨rfl, rfl, rfl, decide_eq_true_iff, queued, by simp [SameExcept, realignedClock]⟩

/-- Settles O47, clause by clause: the row of the command leads to its body (`delaz_runs`), and each body's own lemma above says
what it answers and leaves. -/
theorem delazTime : Obligations.DelazTime :=
  ⟨paramGet_answers, paramGet_refuses, paramSet_leads, paramSet_refuses, cfgStage_leads,
   cfgArm_does, cfgArm_refuses, cfgDigest_answers, timeStatus_answers, timeRead_answers, timeRead_refuses, airtimeRead_answers,
   timeSwitch_does, timeRealign_refuses, timeRealign_leads, timePtpFeed_updates, timePtpFeed_refuses, ptpRecv_leads, ptpSend_leads,
   ptpSend_down_leads, timedArm_leads, timedArm_refuses, timedCancel_leads, timedCancel_refuses, timedStatus_answers⟩

end Sys2Proof.Machine
end

section
namespace Sys2Proof.Machine

open Sys2Proof.Claims

/-! ## What leaves r and Air Time alone (R35, R83) -/

/-! Comparators that a realignment fires reach most of the machine.  The lemmas below follow the definitions in their order: `_time`
where an operation leaves the time subsystem as it was, `_clock` where it may write a domain, a comparator or the switch that waits. -/

/-- r and Air Time, the two values that only the time subsystem's own steps change (R35, R83). -/
def TimeSt.clock (t : TimeSt) : Int × Nat := (t.r, t.air)

@[simp] theorem State.time_ite (c : Prop) [Decidable c] (s t : State) : (if c then s else t).time = if c then s.time else t.time :=
  apply_ite _ _ _ _

@[simp] theorem TimeSt.clock_ite (c : Prop) [Decidable c] (s t : TimeSt) : (if c then s else t).clock = if c then s.clock else t.clock :=
  apply_ite _ _ _ _

/-- A fold of steps that leave the time subsystem alone leaves it alone. -/
@[simp] theorem time_foldl {α : Type} (f : State → α → State) (h : ∀ t a, (f t a).time = t.time) (l : List α) (s : State) :
    (l.foldl f s).time = s.time :=
  List.foldlRecOn (motive := fun t => t.time = s.time) l f rfl fun t e a _ => (h t a).trans e

/-- A fold of steps that leave r and Air Time leaves them. -/
@[simp] theorem clock_foldl {α : Type} (f : State → α → State) (h : ∀ t a, (f t a).time.clock = t.time.clock) (l : List α) (s : State) :
    (l.foldl f s).time.clock = s.time.clock :=
  List.foldlRecOn (motive := fun t => t.time.clock = s.time.clock) l f rfl fun t e a _ => (h t a).trans e

theorem DomsOnly.clock {s t : State} (h : DomsOnly s t) : t.time.clock = s.time.clock := Prod.ext h.r h.air

/-! ## Writes of the time subsystem that leave r and Air Time (R32, R92) -/

@[simp] theorem State.setComp_clock (s : State) (n : Nat) (x : Comparator) : (s.setComp n x).time.clock = s.time.clock := rfl

@[simp] theorem State.endCommit_clock (s : State) : s.endCommit.time.clock = s.time.clock := rfl

/-! ## Events, replies and one-field writes -/

@[simp] theorem State.fresh_time (s : State) : s.fresh.2.time = s.time := rfl

@[simp] theorem State.setLink_time (s : State) (p k : Nat) (l : Link) : (s.setLink p k l).time = s.time := rfl

@[simp] theorem raiseLimited_time (s : State) (cls inst code key period n : Nat) (detail : Nat → List Byte) :
    (raiseLimited s cls inst code key period n detail).time = s.time :=
  (hostOnly_raiseLimited s cls inst code key period n detail).time

@[simp] theorem msixSend_time (s : State) (h v : Nat) : (msixSend s h v).time = s.time :=
  (hostOnly_msixSend s h v).time

@[simp] theorem setDevState_time (s : State) (v : Nat) : (setDevState s v).time = s.time := by simp [setDevState]

@[simp] theorem reply_time (s : State) (rq : Req) (st det : Nat) (pl : List Byte) : (reply s rq st det pl).time = s.time :=
  (hostOnly_reply s rq st det pl).time

@[simp] theorem replyOk_time (s : State) (rq : Req) (pl : List Byte) : (replyOk s rq pl).time = s.time :=
  (hostOnly_replyOk s rq pl).time

/-! ## Entering the safe state (R532) -/

@[simp] theorem cancelledEvt_time (s : State) (k : Commit) (cause : Nat) (l : List (Nat × Nat)) :
    (cancelledEvt s k cause l).time = s.time := by simp [cancelledEvt]

@[simp] theorem safeCommit_clock (s : State) : (safeCommit s).time.clock = s.time.clock := by
  unfold safeCommit
  split <;> simp

@[simp] theorem safeSwitch_clock (s : State) : (safeSwitch s).time.clock = s.time.clock := by
  unfold safeSwitch
  split
  · simp only [reply_time]
    rfl
  · rfl

@[simp] theorem safePlace_time (s : State) : (safePlace s).time = s.time := by
  unfold safePlace
  split <;> simp

@[simp] theorem safePower_time (s : State) : (safePower s).time = s.time := by
  unfold safePower
  split <;> simp

@[simp] theorem safePool_time (s : State) : (safePool s).time = s.time := by simp [safePool]

@[simp] theorem safeTests_time (s : State) : (safeTests s).time = s.time := rfl

@[simp] theorem enterSafe_clock (s : State) (cause slc : Nat) : (enterSafe s cause slc).time.clock = s.time.clock := by
  unfold enterSafe
  split <;> simp

/-! ## Reference inputs (R44, R45) -/

@[simp] theorem updShared_clock (s : State) (i : Nat) (f : Domain → RefInput → RefInput) :
    (updShared s i f).time.clock = s.time.clock :=
  (updShared_spec s i f).1.clock

@[simp] theorem synceSignal_clock (s : State) (lane : Nat) (up : Bool) :
    (synceSignal s lane up).time.clock = s.time.clock := by simp [synceSignal]

/-! ## Lanes (R114, R123) -/

@[simp] theorem laneEvt_time (s : State) (l code : Nat) (d : List Byte) : (laneEvt s l code d).time = s.time := by simp [laneEvt]

@[simp] theorem laneLockEvt_time (s : State) (l stp : Nat) (up : Bool) : (laneLockEvt s l stp up).time = s.time := by simp [laneLockEvt]

@[simp] theorem eyescanDone_time (s : State) (l st n : Nat) : (eyescanDone s l st n).time = s.time := by simp [eyescanDone]

@[simp] theorem abortScan_time (s : State) (g st : Nat) : (abortScan s g st).time = s.time := by
  unfold abortScan
  split <;> simp

@[simp] theorem abortLaneScan_time (s : State) (l st : Nat) : (abortLaneScan s l st).time = s.time := by
  unfold abortLaneScan
  split <;> simp

@[simp] theorem prbsCount_time (s : State) (l : Nat) : (prbsCount s l).time = s.time := by simp [prbsCount]

/-! ## The fabric, external memory and its cache -/

@[simp] theorem inject_time (s : State) (m : FabMsg) : (inject s m).time = s.time := rfl

@[simp] theorem post_time (s : State) (node addr : Nat) (v : Nat) : (post s node addr v).time = s.time := rfl

@[simp] theorem setCtrCache_time (s : State) (tile : Nat) (c : List CacheBlock) : (setCtrCache s tile c).time = s.time := by
  unfold setCtrCache
  split <;> simp

@[simp] theorem bumpParent_time (s : State) (key : Nat) : (bumpParent s key).1.time = s.time := rfl

@[simp] theorem ctrTouch_time (fuel : Nat) (s : State) (tile key : Nat) (dirty : Bool) :
    (ctrTouch fuel s tile key dirty).time = s.time := by
  induction fuel generalizing s key dirty with
  | zero => rfl
  | succ n ih =>
    unfold ctrTouch
    dsimp only
    split
    · simp
    · split
      · split
        · split <;> simp [ih]
        · simp
      · simp

@[simp] theorem ctrUse_time (s : State) (g p : Nat) (mask : BitVec 32) (dirty : Bool) :
    (ctrUse s g p mask dirty).time = s.time := by simp [ctrUse]

@[simp] theorem modChan_time (s : State) (ch : Nat) (f : DdrChan → DdrChan) : (modChan s ch f).time = s.time := rfl

@[simp] theorem memCorrected_time (s : State) (p bits kind : Nat) : (memCorrected s p bits kind).time = s.time := by simp [memCorrected]

@[simp] theorem memUncorrectable_time (s : State) (p src mask : Nat) :
    (memUncorrectable s p src mask).time = s.time := by simp [memUncorrectable]

@[simp] theorem metadataCorrected_time (s : State) (g kind off : Nat) (p : Nat) :
    (metadataCorrected s g kind off p).time = s.time := by simp [metadataCorrected]

@[simp] theorem tamper_clock (s : State) (g tile cause level off : Nat) : (tamper s g tile cause level off).time.clock = s.time.clock := by
  unfold tamper
  split <;> simp

@[simp] theorem arenaCorrected_time (s : State) (p : Nat) : (arenaCorrected s p).time = s.time := by simp [arenaCorrected]

@[simp] theorem decodeReport_time (s : State) (p : Nat) (d : Decode) (src mask : Nat) : (decodeReport s p d src mask).time = s.time := by
  unfold decodeReport
  split <;> simp

@[simp] theorem setCache_time (s : State) (tile : Nat) (c : List CachePage) : (setCache s tile c).time = s.time := by
  unfold setCache
  split <;> simp

@[simp] theorem poisonLines_time (s : State) (ls : List Nat) : (poisonLines s ls).time = s.time := rfl

@[simp] theorem unpoisonLines_time (s : State) (ls : List Nat) : (unpoisonLines s ls).time = s.time := rfl

@[simp] theorem clearFailed_time (s : State) (key : Nat) : (clearFailed s key).time = s.time := rfl

@[simp] theorem writeWholePage_time (s : State) (g p : Nat) (bad : List Nat) :
    (writeWholePage s g p bad).time = s.time := by simp [writeWholePage]

@[simp] theorem protWriteBack_clock (s : State) (g : Nat) (c : CachePage) (d : Decode) :
    (protWriteBack s g c d).time.clock = s.time.clock := by simp [protWriteBack]

@[simp] theorem writeBack_clock (s : State) (c : CachePage) (d : Decode) : (writeBack s c d).time.clock = s.time.clock := by
  unfold writeBack
  split
  · rfl
  · split
    · simp
    · dsimp only
      split
      · simp
      · split <;> simp

@[simp] theorem cachePut_clock (s : State) (p : Nat) (valid dirty : BitVec 32) (d : Decode) :
    (cachePut s p valid dirty d).time.clock = s.time.clock := by
  unfold cachePut
  dsimp only
  split
  · simp
  · split
    · simp
    · split <;> simp

@[simp] theorem mirrorMark_time (s : State) (p : Nat) : (mirrorMark s p).time = s.time := by
  unfold mirrorMark
  split <;> simp

@[simp] theorem extPutD_clock (s : State) (off : Nat) (bs : List Byte) (d : Decode) : (extPutD s off bs d).time.clock = s.time.clock := by
  simp [extPutD]

theorem extWriteD_clock (s : State) (off : Nat) (bs : List Byte) (d : Decode) {t : State} (h : extWriteD s off bs d = some t) :
    t.time.clock = s.time.clock := by
  unfold extWriteD at h
  split at h
  · cases h
  · split at h
    · split at h
      · cases h
        exact extPutD_clock s off bs d
      · cases h
    · cases h

theorem extWrite_clock (s : State) (off : Nat) (bs : List Byte) {t : State} (h : extWrite s off bs = some t) :
    t.time.clock = s.time.clock := extWriteD_clock s off bs .clean h

/-! ## Items of the Mill (R267 to R287) -/

@[simp] theorem State.modItem_time (s : State) (i q : Nat) (f : Item → Item) : (s.modItem i q f).time = s.time := by
  unfold State.modItem
  dsimp only
  split <;> simp

@[simp] theorem drainUnit_time (s : State) (k : Nat) : (drainUnit s k).time = s.time := by
  unfold drainUnit
  split <;> simp

@[simp] theorem undrain_time (s : State) (k : Nat) : (undrain s k).time = s.time := rfl

@[simp] theorem traceWrite_clock (s : State) (slc : Nat) (rec_ : List Byte) : (traceWrite s slc rec_).time.clock = s.time.clock := by
  unfold traceWrite
  dsimp only
  split
  case h_1 t written =>
    simp [extWrite_clock _ _ _ (Option.ite_none_left_eq_some.mp written).2]
  case h_2 => simp

@[simp] theorem trace_clock (s : State) (slc ty : Nat) (it : Item) (v : Nat) : (trace s slc ty it v).time.clock = s.time.clock := by
  unfold trace
  split <;> simp

@[simp] theorem joinFlow_time (s : State) (slc q : Nat) : (joinFlow s slc q).time = s.time := by
  unfold joinFlow
  dsimp only
  split <;> simp

@[simp] theorem makeReady_clock (s : State) (slc q input : Nat) : (makeReady s slc q input).time.clock = s.time.clock := by
  unfold makeReady
  dsimp only
  split <;> simp

@[simp] theorem flowTableIdle_clock (s : State) : (flowTableIdle s).time.clock = s.time.clock := by
  unfold flowTableIdle
  dsimp only
  split
  · rfl
  · refine clock_foldl _ (fun t p => ?_) _ _
    cases e : extWrite t _ _ with
    | none => rfl
    | some u => exact extWrite_clock t _ _ e

@[simp] theorem flowNext_time (s : State) (slc : Nat) (d : List Byte) : (flowNext s slc d).time = s.time := by
  unfold flowNext
  dsimp only
  split
  · rfl
  · split
    · rfl
    · split <;> simp

@[simp] theorem releaseAt_clock (s : State) (k : Nat) : (releaseAt s k).time.clock = s.time.clock := by simp [releaseAt]

@[simp] theorem decrementOp_clock (s : State) (k st src : Nat) : (decrementOp s k st src).time.clock = s.time.clock := by simp [decrementOp]

@[simp] theorem decSuccessors_clock (s : State) (slc : Nat) (d : List Byte) (st : Nat) :
    (decSuccessors s slc d st).time.clock = s.time.clock := by simp [decSuccessors]

@[simp] theorem dropItem_clock (s : State) (slc q reason st : Nat) : (dropItem s slc q reason st).time.clock = s.time.clock := by
  unfold dropItem
  split <;> simp

@[simp] theorem dropCarrier_clock (s : State) (c : Nat) : (dropCarrier s c).time.clock = s.time.clock := by simp [dropCarrier]

@[simp] theorem setClass_clock (s : State) (slc q c at_ : Nat) : (setClass s slc q c at_).time.clock = s.time.clock := by
  unfold setClass
  split <;> simp

@[simp] theorem promote_clock (s : State) (slc q : Nat) : (promote s slc q).time.clock = s.time.clock := by
  unfold promote
  split <;> simp

@[simp] theorem urgent_clock (s : State) (slc q : Nat) : (urgent s slc q).time.clock = s.time.clock := by
  unfold urgent
  split <;> simp

@[simp] theorem becomeLate_clock (s : State) (slc q : Nat) : (becomeLate s slc q).time.clock = s.time.clock := by
  unfold becomeLate
  split
  · rfl
  · dsimp only
    split
    · rfl
    · split <;> simp

@[simp] theorem promoteDue_clock (s : State) (slc q : Nat) : (promoteDue s slc q).time.clock = s.time.clock := by simp [promoteDue]

@[simp] theorem grantLate_clock (s : State) (thief : Nat) : (grantLate s thief).time.clock = s.time.clock := by
  unfold grantLate
  split
  · rfl
  · dsimp only
    split
    · rfl
    · split <;> simp

@[simp] theorem setTier_time (s : State) (slc c t : Nat) : (setTier s slc c t).time = s.time := by simp [setTier]

@[simp] theorem tierDue_time (s : State) (slc : Nat) : (tierDue s slc).time = s.time := by simp [tierDue]

@[simp] theorem dueActions_clock (s : State) (slc : Nat) : (dueActions s slc).time.clock = s.time.clock := by simp [dueActions]

@[simp] theorem millTick_clock (s : State) : (millTick s).time.clock = s.time.clock := by simp [millTick]

/-! ## Drained units -/

@[simp] theorem releaseCore_time (s : State) (k : Nat) : (releaseCore s k).time = s.time := by
  unfold releaseCore
  split <;> simp

@[simp] theorem clusterSync_time (s : State) (cl cause : Nat) : (clusterSync s cl cause).time = s.time := by simp [clusterSync]

@[simp] theorem tailStep_time (s : State) (k : Nat) : (tailStep s k).time = s.time := by simp [tailStep]

@[simp] theorem placeStep_time (s : State) (k : Nat) : (placeStep s k).time = s.time := by
  unfold placeStep
  split <;> simp

@[simp] theorem testStep_time (s : State) (k : Nat) : (testStep s k).time = s.time := by simp [testStep]

@[simp] theorem drainHook_time (s : State) (k : Nat) : (drainHook s k).time = s.time := by
  unfold drainHook
  split <;> simp

@[simp] theorem drainNow_time (s : State) (k : Nat) : (drainNow s k).time = s.time := by simp [drainNow]

/-! ## Ports, links and frame buffers -/

@[simp] theorem portEvt_time (s : State) (p code : Nat) (d : List Byte) : (portEvt s p code d).time = s.time := by simp [portEvt]

@[simp] theorem modPort_time (s : State) (p : Nat) (f : Port → Port) : (modPort s p f).time = s.time := rfl

@[simp] theorem modLink_time (s : State) (p k : Nat) (f : Link → Link) : (modLink s p k f).time = s.time := rfl

@[simp] theorem modCfh_time (s : State) (c : Nat) (f : CarrierFh → CarrierFh) : (modCfh s c f).time = s.time := rfl

@[simp] theorem setDlBuf_time (s : State) (c r : Nat) (b : TxBuf) : (setDlBuf s c r b).time = s.time := rfl

@[simp] theorem setCpBuf_time (s : State) (c r : Nat) (b : TxBuf) : (setCpBuf s c r b).time = s.time := rfl

@[simp] theorem dlFree_time (s : State) (c r : Nat) : (dlFree s c r).time = s.time := by simp [dlFree]

@[simp] theorem frameDone_time (s : State) (f : TxFrame) : (frameDone s f).time = s.time := by simp [frameDone]

@[simp] theorem cpPurge_time (s : State) (p k : Nat) : (cpPurge s p k).time = s.time := by simp [cpPurge]

@[simp] theorem txKick_time (s : State) (p k : Nat) : (txKick s p k).time = s.time := by
  unfold txKick
  dsimp only
  split
  · simp
  · split <;> simp

@[simp] theorem txQueue_time (s : State) (p k : Nat) (f : TxFrame) : (txQueue s p k f).time = s.time := by simp [txQueue]

@[simp] theorem portLinkEvt_time (s : State) (p k : Nat) (up : Bool) : (portLinkEvt s p k up).time = s.time := by simp [portLinkEvt]

@[simp] theorem blockEvts_time (s : State) (p k : Nat) (up : Bool) : (blockEvts s p k up).time = s.time := by simp [blockEvts]

@[simp] theorem hiSerExit_time (s : State) (p k : Nat) : (hiSerExit s p k).time = s.time := by
  unfold hiSerExit
  split <;> simp

@[simp] theorem linkDown_clock (s0 : State) (p k : Nat) : (linkDown s0 p k).time.clock = s0.time.clock := by simp [linkDown]

@[simp] theorem codewordLost_time (s : State) (l : Nat) : (codewordLost s l).time = s.time := by simp [codewordLost]

@[simp] theorem linkToClock_clock (s : State) (p k : Nat) : (linkToClock s p k).time.clock = s.time.clock := by simp [linkToClock]

@[simp] theorem clockRecoveryLoss_clock (s : State) (l : Nat) :
    (clockRecoveryLoss s l).time.clock = s.time.clock := by simp [clockRecoveryLoss]

@[simp] theorem codewordLockLoss_clock (s : State) (l : Nat) : (codewordLockLoss s l).time.clock = s.time.clock := by
  unfold codewordLockLoss
  split <;> simp

/-! ## Carriers and power domains -/

@[simp] theorem fhActivate_time (s0 : State) (c : Nat) : (fhActivate s0 c).time = s0.time := rfl

@[simp] theorem fhDeactivate_time (s : State) (c : Nat) : (fhDeactivate s c).time = s.time := rfl

@[simp] theorem writeWake_time (s : State) (src inst : Nat) : (writeWake s src inst).time = s.time := rfl

@[simp] theorem fenceBegin_time (s : State) (d cause : Nat) : (fenceBegin s d cause).time = s.time := rfl

@[simp] theorem offAsk_time (s : State) (d cause : Nat) (drain : Bool) : (offAsk s d cause drain).time = s.time := by simp [offAsk]

@[simp] theorem powerUp_time (s : State) (d cause : Nat) : (powerUp s d cause).time = s.time := by simp [powerUp]

@[simp] theorem planSync_time (s : State) (d : Nat) : (planSync s d).time = s.time := by simp [planSync]

@[simp] theorem wakeHold_time (s : State) (src inst maskBit : Nat) : (wakeHold s src inst maskBit).time = s.time := by
  unfold wakeHold
  split <;> simp

/-! ## The pool -/

@[simp] theorem poolEvt_time (s : State) (code : Nat) (d : List Byte) : (poolEvt s code d).time = s.time := by simp [poolEvt]

@[simp] theorem State.setKeySlot_time (s : State) (k : Nat) (x : PoolKey) : (s.setKeySlot k x).time = s.time := by
  unfold State.setKeySlot
  split <;> simp

@[simp] theorem poolSendOn_time (s : State) (p i ty : Nat) (payload : List Byte) :
    (poolSendOn s p i ty payload).time = s.time := by simp [poolSendOn]

@[simp] theorem poolSend_time (s : State) (i ty : Nat) (payload : List Byte) : (poolSend s i ty payload).time = s.time := by
  unfold poolSend
  split <;> simp

@[simp] theorem setOwner_time (s : State) (c o e : Nat) : (setOwner s c o e).time = s.time := rfl

@[simp] theorem ownerEvt_time (s : State) (c old new e cause : Nat) : (ownerEvt s c old new e cause).time = s.time := by simp [ownerEvt]

@[simp] theorem sendClaim_time (s : State) (i : Nat) (full last : Bool) (es : List (Nat × Bool × Nat)) :
    (sendClaim s i full last es).time = s.time := by simp [sendClaim]

@[simp] theorem announce_time (s : State) (c : Nat) (owned : Bool) : (announce s c owned).time = s.time := by simp [announce]

@[simp] theorem carrierStart_time (s : State) (c : Nat) : (carrierStart s c).time = s.time := by simp [carrierStart]

@[simp] theorem carrierStop_clock (s : State) (c : Nat) : (carrierStop s c).time.clock = s.time.clock := by simp [carrierStop]

@[simp] theorem mirrorEvt_time (s : State) (c i kind pages : Nat) : (mirrorEvt s c i kind pages).time = s.time := by simp [mirrorEvt]

@[simp] theorem resyncStart_time (s : State) (c i : Nat) : (resyncStart s c i).time = s.time := by simp [resyncStart]

@[simp] theorem mirrorSync_time (s : State) (c : Nat) : (mirrorSync s c).time = s.time := by
  unfold mirrorSync
  split <;> simp

@[simp] theorem carrierActivate_time (s : State) (c : Nat) : (carrierActivate s c).time = s.time := by simp [carrierActivate]

@[simp] theorem carrierDeactivate_clock (s : State) (c : Nat) :
    (carrierDeactivate s c).time.clock = s.time.clock := by simp [carrierDeactivate]

@[simp] theorem loadKey_time (s : State) (e : Nat) : (loadKey s e).time = s.time := by simp [loadKey]

@[simp] theorem poolSync_time (s : State) : (poolSync s).time = s.time := by simp [poolSync]

/-! ## The swap of a commit and its rollback -/

@[simp] theorem setCommit_time (s : State) (k : Option Commit) : (setCommit s k).time = s.time := rfl

@[simp] theorem armReply_time (s : State) (k : Commit) (st det saf : Nat) (l : List (Nat × Nat)) :
    (armReply s k st det saf l).time = s.time := by
  unfold armReply
  split <;> simp

@[simp] theorem swapBefore_clock (s : State) (key old new : Nat) : (swapBefore s key old new).time.clock = s.time.clock := by
  unfold swapBefore
  dsimp only
  split
  · rfl
  · split <;> simp

@[simp] theorem synceMoved_clock (s : State) (i l : Nat) : (synceMoved s i l).time.clock = s.time.clock := by simp [synceMoved]

@[simp] theorem swapAfter_clock (s : State) (key old new : Nat) : (swapAfter s key old new).time.clock = s.time.clock := by
  unfold swapAfter
  dsimp only
  split
  · simp
  · split
    · rfl
    · split <;> simp

theorem swapValues_clock (s : State) (l : List (Nat × Nat × Nat)) (move : State → State)
    (h : ∀ t, (move t).time.clock = t.time.clock) : (swapValues s l move).time.clock = s.time.clock := by
  simp [swapValues, h]

@[simp] theorem shadowSwapOp_clock (s : State) (bad reset : List Nat) : (shadowSwapOp s bad reset).time.clock = s.time.clock := by
  unfold shadowSwapOp
  dsimp only
  split
  · rfl
  · split
    · rfl
    · exact swapValues_clock _ _ _ fun t => by simp

@[simp] theorem commitRollbackOp_clock (s : State) : (commitRollbackOp s).time.clock = s.time.clock := by
  unfold commitRollbackOp
  dsimp only
  split
  · rfl
  · split
    · rfl
    · rw [armReply_time, raise_time, clock_foldl _ carrierStop_clock]
      exact swapValues_clock _ _ _ State.endCommit_clock

/-! ## Comparators -/

@[simp] theorem tacFault_time (s : State) (n action : Nat) : (tacFault s n action).time = s.time := by simp [tacFault]

@[simp] theorem compPost_time (s : State) (n addr v : Nat) : (compPost s n addr v).time = s.time := rfl

@[simp] theorem compCheck_time (s : State) (n slc : Nat) : (compCheck s n slc).time = s.time := by
  unfold compCheck
  split <;> simp

@[simp] theorem compPulse_clock (s : State) (k w : Nat) : (compPulse s k w).time.clock = s.time.clock := rfl

@[simp] theorem compAction_clock (s : State) (n : Nat) (c : Comparator) : (compAction s n c).time.clock = s.time.clock := by
  unfold compAction
  split <;> simp

@[simp] theorem fire_clock (s : State) (n : Nat) : (fire s n).time.clock = s.time.clock := by simp [fire]

@[simp] theorem tacLate_time (s : State) (n late : Nat) : (tacLate s n late).time = s.time := by simp [tacLate]

/-! ## TIME_REALIGN with comparators that fire (R38, R100) -/

theorem firePassed_clock (was new : Nat) (t : State) (n : Nat) : (firePassed was new t n).time.clock = t.time.clock := by
  simp [firePassed]

theorem realigned_clock (s : State) (cause : Nat) :
    (realigned s cause).time.clock = (0, airFormula { s with time := { s.time with r := 0, slewFrac := 0 } }) := by
  obtain ⟨ev, e⟩ := realigned_eq s cause
  rw [e]
  rfl

/-- The comparators that a forward step fires, and what then falls due in the Mill, leave r at zero and Air Time where the
realignment put it. -/
theorem realign_clock (s : State) (cause : Nat) :
    (realign s cause).time.clock = (0, airFormula { s with time := { s.time with r := 0, slewFrac := 0 } }) := by
  rcases realign_cases s cause with same | forward
  · rw [same, realigned_clock]
  · rw [forward, millTick_clock, clock_foldl _ (firePassed_clock _ _), realigned_clock]

theorem timeRealign_clears (rq : Req) (p : List Byte) (s : State) (h : Accepts s rq 0x0405 p.length) (quiet : s.anyActive = false) :
    Does (.timeRealign rq p) s fun t => t.time.r = 0 ∧ t.time.air = airFormula { s with time := { s.time with r := 0, slewFrac := 0 } } := by
  refine does_of_body rfl h fun host _ => ?_
  have quiet' : ¬State.anyActive { s with host := host } = true := Bool.not_eq_true _ |>.mpr quiet
  rw [cmdTimeRealign, if_neg quiet', replyOk_time]
  exact Prod.mk.inj (realign_clock { s with host := host } 0)

/-- Settles O51: no operation that a realignment can start through a comparator or the Mill writes r or Air Time. -/
theorem realignClearsResidual : Obligations.RealignClearsResidual := ⟨timeRealign_refuses, timeRealign_clears⟩

end Sys2Proof.Machine
end

section
namespace Sys2Proof.Machine

open Sys2Proof.Claims

/-! ## What the fabric's own operations change (R353, R363) -/

/-- A packet that never waited for credit leaves the list of packets on their way, and nothing else changes. -/
theorem arrive_unstalled (s : State) (m : FabMsg) (h : m.noCredit = 0) :
    arrive s m = { s with fab := { s.fab with flight := s.fab.flight.erase m } } := by
  have unmarked : { m with noCredit := 0 } = m := by rw [← h]
  simp [arrive, h, unmarked]

/-- An arrival closes and opens no domain. -/
theorem nodeClosed_arrive (s : State) (m : FabMsg) (node : Nat) : nodeClosed (arrive s m) node = nodeClosed s node := by
  unfold arrive
  dsimp only
  split <;> rfl

/-- Counting the stall of a source NI leaves each NI's generation and dropped responses. -/
theorem arrive_ni (s : State) (m : FabMsg) (k : Nat) :
    ((arrive s m).ni k).gen = (s.ni k).gen ∧ ((arrive s m).ni k).oldGenDropped = (s.ni k).oldGenDropped := by
  unfold arrive
  dsimp only
  split
  · exact ⟨rfl, rfl⟩
  · by_cases same : k = m.src
    · subst same
      rw [State.ni_setNi_self]
      exact ⟨rfl, rfl⟩
    · rw [State.ni_setNi_ne _ _ _ same]
      exact ⟨rfl, rfl⟩

/-- An arrival changes the fabric alone, and ends no request. -/
theorem arrive_frame (s : State) (m : FabMsg) :
    (arrive s m).fab.outst = s.fab.outst ∧ SameExcept [.fab] s (arrive s m) := by
  unfold arrive
  dsimp only
  split <;> simp [SameExcept, State.setNi]

/-! ## Responses (R356, R363) -/

/-- A master that is neither a DMA channel, nor Proul, nor a PRACH engine takes a status without an effect. -/
theorem toMaster_plain (s : State) (o : Outstanding) (status : Nat) (data : List Byte) (h : PlainMaster o) :
    toMaster s o status data = s := by
  obtain ⟨noDma, noProul, noPrach⟩ := h
  simp [toMaster, Nat.not_lt.mpr noDma, noProul, noPrach]

/-- A response that matches the one request of a plain master ends it. -/
theorem responseOp_matches (s : State) (m : FabMsg) (o : Outstanding) (h : Matches s m o) (plain : PlainMaster o) :
    responseOp s m = { s with fab := { s.fab with
      flight := s.fab.flight.erase m, outst := [],
      reservedStatus := satAdd 32 s.fab.reservedStatus (b2n (decide (9 ≤ m.status))) } } := by
  obtain ⟨credit, opened, noComparator, gen, sole, node, tag, addr⟩ := h
  have gen' : m.gen = ((arrive s m).ni (niKey m.dst m.chan)).gen := gen.trans (arrive_ni s m _).1.symm
  have found : (arrive s m).fab.outst.find? (fun x => x.node = m.dst && x.tag = m.tag && x.addr = m.addr) = some o := by
    simp [(arrive_frame s m).1, sole, node, tag, addr]
  have chan : ¬(decide (61440 ≤ m.chan) && decide (m.chan < 61696)) = true := by simpa using noComparator
  unfold responseOp
  dsimp only
  rw [nodeClosed_arrive, opened, if_neg (by simp), if_neg chan, if_neg (by simpa using gen'), found]
  dsimp only
  rw [toMaster_plain _ _ _ _ plain, ite_self, arrive_unstalled s m credit]
  simp [sole]

theorem response_ends (s : State) (m : FabMsg) (o : Outstanding) (h : Matches s m o) (plain : PlainMaster o) :
    (responseOp s m).fab.flight = s.fab.flight.erase m ∧ (responseOp s m).fab.outst = [] ∧ (responseOp s m).fab.nis = s.fab.nis ∧
    (responseOp s m).fab.reservedStatus = min (s.fab.reservedStatus + if 9 ≤ m.status then 1 else 0) (2 ^ 32 - 1) ∧
    SameExcept [.fab] s (responseOp s m) := by
  rw [responseOp_matches s m o h plain]
  simp [SameExcept, satAdd, b2n]

/-- A response of another generation to a master that is no DMA channel is counted at its NI and ends no request (R363). -/
theorem response_oldGen (s : State) (m : FabMsg) (opened : nodeClosed s m.dst = none) (chan : 61696 ≤ m.chan)
    (old : m.gen ≠ (s.ni m.dst).gen) :
    (responseOp s m).fab.outst = s.fab.outst ∧
    ((responseOp s m).ni m.dst).oldGenDropped = min ((s.ni m.dst).oldGenDropped + 1) (2 ^ 32 - 1) ∧
    SameExcept [.fab] s (responseOp s m) := by
  obtain ⟨gen, counted⟩ := arrive_ni s m m.dst
  obtain ⟨outst, frame⟩ := arrive_frame s m
  have key : niKey m.dst m.chan = m.dst := if_neg (by omega)
  have dropped : responseOp s m = dropOldGen (arrive s m) m := by
    unfold responseOp
    dsimp only
    rw [nodeClosed_arrive, opened, if_neg (by simp), if_neg (by simp; omega), if_pos (by rwa [key, gen])]
  rw [dropped, dropOldGen, if_neg (by omega), State.ni_setNi_self, ← counted]
  exact ⟨outst, rfl, by simpa [SameExcept] using frame⟩

/-- A comparator whose message to a DMA engine was answered with DOMAIN_OFF reports its fault (R95). -/
theorem response_comparatorFault (s : State) (m : FabMsg) (n : Nat) (opened : nodeClosed s m.dst = none) (credit : m.noCredit = 0)
    (chan : m.chan = 61440 + n) (number : n < 256) (off : m.status = 1) (dma : ∃ g off, fabTarget m.addr = .dma g off)
    (room : Room 1 s) :
    Raised s (responseOp s m) 12 n 0x0303 2 (leBytes 1 n ++ [2, 0]) ∧ OnlyFlight s (responseOp s m) ∧
    SameExcept [.fab, .ev] s (responseOp s m) := by
  obtain ⟨g, a, target⟩ := dma
  have faults : responseOp s m = tacFault (arrive s m) n 2 := by
    unfold responseOp
    dsimp only
    rw [nodeClosed_arrive, opened, if_neg (by simp), if_pos (by simp; omega)]
    simp [comparatorAnswer, target, off, chan]
  rw [faults, arrive_unstalled s m credit, tacFault]
  refine ⟨?_, ?_, ?_⟩
  · exact raise_room { s with fab := { s.fab with flight := s.fab.flight.erase m } } 12 n 0x0303 _ room
  · simp [OnlyFlight]
  · simp [SameExcept]

end Sys2Proof.Machine
end

section
namespace Sys2Proof.Machine

open Sys2Proof.Claims

/-! ## Events that find room (R513) -/

/-- An event raised with room in the queue joins it, and nothing else of the device changes. -/
theorem raise_joins (s : State) (c i n : Nat) (b : List Byte) (h : Room 1 s) :
    raise s c i n b = { s with ev := { s.ev with
      queue := s.ev.queue ++ [{ cls := c, inst := i, code := n, sev := eventSev n b, detail := b }] } } :=
  offer_room s _ h

/-! ## Fences (R366) -/

/-- Another NI of a domain is asked to stop while the domain's fence is in progress. -/
theorem fenceReq_asked (n : Fin 1024) (d : Nat) (f : Fence) (s : State) (domain : nodeDomain n = some d)
    (steady : mapGet? s.power.toOff d = none) (fence : mapGet? s.fab.fences d = some f) (asked : n.val ∈ f.left) :
    (fenceReq s n).ni n = { s.ni n with stopped := true } ∧ (∀ j, j ≠ n.val → (fenceReq s n).ni j = s.ni j) ∧
    (fenceReq s n).fab.fences = s.fab.fences ∧ SameExcept [.fab] s (fenceReq s n) := by
  have stops : fenceReq s n = s.setNi n { s.ni n with stopped := true } := by
    simp [fenceReq, domain, steady, fence, asked]
  rw [stops]
  exact ⟨State.ni_setNi_self _ _ _, fun j hj => State.ni_setNi_ne _ _ _ hj, rfl, by simp [SameExcept]⟩

/-- A domain whose units have drained is fenced: every NI of it is to acknowledge. -/
theorem fenceReq_begins (n : Fin 1024) (d c : Nat) (s : State) (domain : nodeDomain n = some d)
    (toOff : mapGet? s.power.toOff d = some c) (last : fabricLast s d = false) (units : ∀ k ∈ domainUnits d, drained s k = true) :
    mapGet? (fenceReq s n).fab.fences d = some { left := domainNodes d, at_ := s.now, cause := c } ∧
    mapGet? (fenceReq s n).power.toOff d = none ∧ ((fenceReq s n).ni n).stopped = true ∧
    (fenceReq s n).power.on = s.power.on ∧ SameExcept [.fab, .power] s (fenceReq s n) := by
  have member : n.val ∈ domainNodes d := by simp [domainNodes, domain]
  have fence : mapGet? (fenceBegin s d c).fab.fences d = some { left := domainNodes d, at_ := s.now, cause := c } :=
    mapGet?_mapSet_self _ _ _
  have begins : fenceReq s n = (fenceBegin s d c).setNi n { (fenceBegin s d c).ni n with stopped := true } := by
    have all : ((domainUnits d).all fun k => drained s k) = true := List.all_eq_true.mpr units
    simp [fenceReq, domain, toOff, all, last, fence, member]
  rw [begins, State.ni_setNi_self]
  refine ⟨fence, ?_, rfl, rfl, ?_⟩
  · exact mapGet?_mapDel_self _ _
  · simp [SameExcept, fenceBegin]

/-- An NI that has stopped and is quiet acknowledges its fence: it is left no longer, and the last one's domain goes off. -/
theorem fenceAck_acknowledges (n : Fin 1024) (d : Nat) (f : Fence) (s : State) (domain : nodeDomain n = some d)
    (fence : mapGet? s.fab.fences d = some f) (asked : n.val ∈ f.left) (stopped : (s.ni n).stopped = true)
    (quiet : niQuiet s n = true) :
    fenceAck s n =
      let left := f.left.filter fun j => j ≠ n.val
      let s1 : State := { s with fab := { s.fab with fences := mapSet s.fab.fences d { f with left := left } } }
      if left.isEmpty then domainOff s1 d else s1 := by
  simp [fenceAck, domain, fence, asked, stopped, quiet]

theorem fenceAck_others_left (n : Fin 1024) (d : Nat) (f : Fence) (s : State) (domain : nodeDomain n = some d)
    (fence : mapGet? s.fab.fences d = some f) (asked : n.val ∈ f.left) (stopped : (s.ni n).stopped = true)
    (quiet : niQuiet s n = true) (others : ∃ j ∈ f.left, j ≠ n.val) :
    (fenceAck s n).fab = { s.fab with fences := mapSet s.fab.fences d { f with left := f.left.filter (fun j => j ≠ n) } } ∧
    SameExcept [.fab] s (fenceAck s n) := by
  have remain : (f.left.filter fun j => j ≠ n.val).isEmpty = false := by
    obtain ⟨j, member, other⟩ := others
    simpa using ⟨j, member, other⟩
  rw [fenceAck_acknowledges n d f s domain fence asked stopped quiet]
  dsimp only
  rw [remain]
  exact ⟨rfl, by simp [SameExcept]⟩

/-- An NI that has not been asked to stop, or still serves requests, does not acknowledge. -/
theorem fenceAck_idle (n : Fin 1024) (s : State) (busy : niQuiet s n = false ∨ (s.ni n).stopped = false) : fenceAck s n = s := by
  have waits (f : Fence) : (!f.left.contains n.val || !(s.ni n).stopped || !niQuiet s n) = true := by
    rcases busy with h | h <;> simp [h]
  unfold fenceAck
  split
  case h_1 => rfl
  case h_2 d f _ => exact if_pos (waits f)

/-! ## A Facet domain that goes off (R537, R543) -/

/-- Mill's units of a Facet cluster are its sixteen cores (R473). -/
theorem mem_domainUnits {d : Nat} (cluster : d < 64) (k : Nat) : k ∈ domainUnits d ↔ k / 16 = d := by
  rw [domainUnits, if_pos cluster, List.mem_map]
  constructor
  · rintro ⟨i, hi, rfl⟩
    have := List.mem_range.mp hi
    omega
  · rintro rfl
    exact ⟨k % 16, List.mem_range.mpr (by omega), by omega⟩

theorem loseCore_core (s : State) (k j : Nat) :
    (loseCore s k).core j = if j = k then { tail := (s.core j).tail } else s.core j := by
  split
  case isTrue same =>
    subst same
    exact State.core_setCore_self _ _ _
  case isFalse differs => exact State.core_setCore_ne _ _ _ differs

/-- Of cores that lose their power nothing is left but the tail of the configuration; the other cores stay. -/
theorem loseCores_core (ks : List Nat) (s : State) (j : Nat) :
    (ks.foldl loseCore s).core j = if j ∈ ks then { tail := (s.core j).tail } else s.core j := by
  induction ks generalizing s with
  | nil => rfl
  | cons k ks ih =>
    rw [List.foldl_cons, ih, loseCore_core]
    by_cases same : j = k <;> by_cases later : j ∈ ks <;> simp [same, later]

/-- Cores that lose their power write the cores and the retention store alone. -/
theorem loseCores_frame (ks : List Nat) (s : State) :
    ∃ kept facet, ks.foldl loseCore s = { s with power := { s.power with kept := kept }, facet := facet } :=
  List.foldlRecOn (motive := fun t => ∃ kept facet, t = { s with power := { s.power with kept := kept }, facet := facet })
    ks _ ⟨_, _, rfl⟩ fun t ⟨_, _, e⟩ k _ => by
      subst e
      exact ⟨_, _, rfl⟩

/-- A domain without power or fence, and without the wake and the idle time that it had noted (R366, R537); `banks` are the records
of the banks after it. -/
def isolated (s : State) (d : Nat) (banks : SMap Bank) : State :=
  { s with
    fab := { s.fab with fences := mapDel s.fab.fences d, banks := banks }
    power := { s.power with on := s.power.on.filter fun e => e ≠ d, wakeDue := mapDel s.power.wakeDue d
                            idleFrom := mapDel s.power.idleFrom d } }

/-- A domain that no wake waits for loses what its power held, is isolated, and is reported with the cause of its fence. -/
theorem domainOff_isolates (s : State) (d : Nat) (f : Fence) (fence : mapGet? s.fab.fences d = some f)
    (noWake : mapGet? s.power.wakeDue d = none) :
    ∃ banks, domainOff s d =
      waitDone (lanimanEvt (isolated (loseDomain s d) d banks) 0x1302 (leBytes 1 d ++ [0] ++ leBytes 1 f.cause)) d := by
  simp only [domainOff, fence, noWake]
  exact ⟨_, rfl⟩

/-- What the end of a fence leaves of a Facet domain that no wake waits for: it is off, it has no fence, its cores have lost all but
their tails, and POWER_DOMAIN is reported. -/
structure SwitchedOff (s t : State) (d cause : Nat) : Prop where
  on : ∀ e, e ∈ t.power.on ↔ e ≠ d ∧ e ∈ s.power.on
  fence : mapGet? t.fab.fences d = none
  lost : ∀ k, k / 16 = d → t.core k = { tail := (s.core k).tail }
  other : ∀ k, k / 16 ≠ d → t.core k = s.core k
  event : Raised s t 0 0 0x1302 0 (leBytes 1 d ++ [0] ++ leBytes 1 cause)
  frame : SameExcept [.fab, .power, .facet, .ev] s t

/-- The transition that waits for a domain takes note in the power control alone (R541). -/
theorem waitDone_frame (s : State) (d : Nat) : ∃ wait, waitDone s d = { s with power := { s.power with wait := wait } } := by
  unfold waitDone
  split
  · exact ⟨_, rfl⟩
  · exact ⟨s.power.wait, rfl⟩

theorem domainOff_cluster (s : State) (d : Nat) (f : Fence) (cluster : d < 64) (fence : mapGet? s.fab.fences d = some f)
    (noWake : mapGet? s.power.wakeDue d = none) (room : Room 1 s) : SwitchedOff s (domainOff s d) d f.cause := by
  have cores (k : Nat) := loseCores_core (domainUnits d) s k
  obtain ⟨kept, facet, lost⟩ := loseCores_frame (domainUnits d) s
  obtain ⟨banks, off⟩ := domainOff_isolates s d f fence noWake
  obtain ⟨wait, noted⟩ := waitDone_frame (lanimanEvt (isolated (loseDomain s d) d banks) 0x1302
    (leBytes 1 d ++ [0] ++ leBytes 1 f.cause)) d
  rw [lost] at cores
  rw [off, noted, loseDomain, if_pos cluster, lost, lanimanEvt, raise_joins]
  · simp only [mem_domainUnits cluster] at cores
    exact {
      on := by simp [isolated, and_comm]
      fence := mapGet?_mapDel_self _ _
      lost := fun k own => (cores k).trans (if_pos own)
      other := fun k foreign => (cores k).trans (if_neg foreign)
      event := rfl
      frame := by simp [SameExcept, isolated] }
  · exact room

theorem fenceAck_last (n : Fin 1024) (d : Nat) (f : Fence) (s : State) (domain : nodeDomain n = some d) (cluster : d < 64)
    (fence : mapGet? s.fab.fences d = some f) (sole : f.left = [n.val]) (stopped : (s.ni n).stopped = true)
    (quiet : niQuiet s n = true) (noWake : mapGet? s.power.wakeDue d = none) (room : Room 1 s) :
    SwitchedOff s (fenceAck s n) d f.cause := by
  rw [fenceAck_acknowledges n d f s domain fence (by simp [sole]) stopped quiet]
  have gone : (f.left.filter fun j => j ≠ n.val) = [] := by simp [sole]
  simp only [gone, List.isEmpty_nil, if_true]
  obtain ⟨on, fenceOff, lost, other, event, frame⟩ :=
    domainOff_cluster { s with fab := { s.fab with fences := mapSet s.fab.fences d { f with left := [] } } } d _ cluster
      (mapGet?_mapSet_self _ _ _) noWake room
  exact ⟨on, fenceOff, lost, other, event, by simpa [SameExcept] using frame⟩

/-! ## Fences that last too long (R363, R366) -/

/-- A master reset writes NIs and takes requests back, and nothing else. -/
theorem masterReset_frame (s : State) (node chan : Nat) :
    ∃ nis outst, masterReset s node chan = { s with fab := { s.fab with nis := nis, outst := outst } } := by
  unfold masterReset
  extract_lets k x next mine late s1
  split
  · exact ⟨_, s.fab.outst, rfl⟩
  · exact ⟨_, _, rfl⟩

/-- A fence is not forced before its time. -/
theorem fenceTimeout_early (s : State) (d : Nat)
    (h : ∀ f, mapGet? s.fab.fences d = some f → s.now < f.at_ + fabCycles (s.param 0x0B02 0)) : fenceTimeout s d = s := by
  unfold fenceTimeout
  split
  case h_1 => rfl
  case h_2 f fence => exact if_pos (h f fence)

/-- A fence that lasted too long and waits for one NI is forced: the NI is reset and FENCE_TIMEOUT reported, and in the state after
that the domain goes off. -/
theorem fenceTimeout_forces (s : State) (d n : Nat) (f : Fence) (fence : mapGet? s.fab.fences d = some f) (sole : f.left = [n])
    (late : f.at_ + fabCycles (s.param 0x0B02 0) ≤ s.now) (room : Room 2 s) :
    ∃ u, fenceTimeout s d = domainOff u d ∧ u.fab.fences = s.fab.fences ∧ Queued u 0 0 0x0B02 ∧ Room 1 u ∧
      SameExcept [.fab, .ev] s u := by
  obtain ⟨nis, outst, reset⟩ := masterReset_frame s n 65535
  have room1 : Room 1 s := by unfold Room at *; omega
  simp only [fenceTimeout, fence, sole, if_neg (Nat.not_lt.mpr late), List.foldl_cons, List.foldl_nil, reset]
  refine ⟨_, rfl, ?_, raise_queued _ 0 0 0x0B02 _ room1, (queueGrows_raise _ 0 0 0x0B02 _).room room, ?_⟩
  · simp [lanimanEvt]
  · simp [lanimanEvt, SameExcept]

theorem fenceTimeout_off (d n : Nat) (f : Fence) (s : State) (cluster : d < 64) (fence : mapGet? s.fab.fences d = some f)
    (sole : f.left = [n]) (late : f.at_ + fabCycles (s.param 0x0B02 0) ≤ s.now) (noWake : mapGet? s.power.wakeDue d = none)
    (room : Room 2 s) :
    d ∉ (fenceTimeout s d).power.on ∧ mapGet? (fenceTimeout s d).fab.fences d = none ∧ Queued (fenceTimeout s d) 0 0 0x0B02 ∧
    Queued (fenceTimeout s d) 0 0 0x1302 ∧ (∀ k, k / 16 ≠ d → (fenceTimeout s d).core k = s.core k) ∧
    SameExcept [.fab, .power, .facet, .ev] s (fenceTimeout s d) := by
  obtain ⟨u, e, fences, timeout, room1, reset⟩ := fenceTimeout_forces s d n f fence sole late room
  have power : u.power = s.power := by simp_all [SameExcept]
  obtain ⟨on, fenceOff, -, other, event, frame⟩ := domainOff_cluster u d f cluster (fences ▸ fence) (power ▸ noWake) room1
  rw [e]
  refine ⟨fun member => ((on d).mp member).1 rfl, fenceOff, ?_, ?_, ?_, ?_⟩
  · obtain ⟨r, member, source⟩ := timeout
    exact ⟨r, by simp [event, member], source⟩
  · simp [Queued, event]
  · simp_all [SameExcept, State.core]
  · simp_all [SameExcept]

/-! ## WAKE (R367, R542) -/

/-- The domain that holds packets and is off powers up, with the WAKE as the cause. -/
theorem wakePacket_powers (d : Nat) (s : State)
    (holds : ∃ n, nodeDomain n = some d ∧ n < 1024 ∧ mapGet s.fab.wakeBuf n [] ≠ []) (off : s.domainOn d = false)
    (coming : mapGet? s.power.coming d = none) (kept : domainWithdrawn s d = false) (fence : mapGet? s.fab.fences d = none) :
    wakePacket s d = { s with power := { s.power with
      wake := { source := 7, inst := d, at_ := s.now }, coming := mapSet s.power.coming d 3 } } := by
  have held : ((domainNodes d).any fun n => !(mapGet s.fab.wakeBuf n []).isEmpty) = true := by
    obtain ⟨n, domain, node, packets⟩ := holds
    simp only [List.any_eq_true, domainNodes, List.mem_filter, List.mem_range]
    exact ⟨n, ⟨node, by simp [domain]⟩, by simp [packets]⟩
  have off' : State.domainOn (writeWake s 7 d) d = false := off
  have kept' : domainWithdrawn (writeWake s 7 d) d = false := kept
  have fence' : fencing (writeWake s 7 d) d = false := by simp [fencing, writeWake, fence]
  have powers : wakePacket s d = powerUp (writeWake s 7 d) d 3 := by simp [wakePacket, held, off, coming, kept]
  rw [powers, powerUp, if_neg (by simp [kept']), if_neg (by simp [fence']), if_neg (by simp [off'])]
  rfl

theorem wakePacket_on (d : Nat) (s : State) (on : s.domainOn d = true) : wakePacket s d = s := by
  simp [wakePacket, on]

end Sys2Proof.Machine
end
section
namespace Sys2Proof.Machine

open Sys2Proof.Claims

/-! ## Limited events (R357, R363, R513) -/

/-- A limited event that has not been raised before is raised now, and nothing but the arbiter changes. -/
theorem raiseLimited_first (s : State) (c i n key period count : Nat) (b : Nat → List Byte)
    (h : mapGet? s.ev.rate (rateKey n key) = none) (room : Room 1 s) :
    ∃ ev, raiseLimited s c i n key period count b = { s with ev := ev } ∧
      Queued (raiseLimited s c i n key period count b) c i n := by
  simp only [raiseLimited, h, if_true, raise_joins s c i n _ room]
  exact ⟨_, rfl, by simp [Queued]⟩

/-- An EVENT packet joins the arbiter's queue with at most 24 bytes of detail. -/
theorem eventArrival_room (s : State) (c i n sev : Nat) (b : List Byte) (room : Room 1 s) :
    Raised s (eventArrival s c i n sev b) c i n sev (b.take 24) ∧ SameExcept [.ev] s (eventArrival s c i n sev b) := by
  rw [eventArrival, offer_room _ _ room]
  exact ⟨rfl, by simp [SameExcept]⟩

/-- An EVENT packet that finds the arbiter's queue full is counted against its source. -/
theorem eventArrival_full (s : State) (c i n sev : Nat) (b : List Byte) (full : 256 ≤ s.ev.queue.length) :
    (eventArrival s c i n sev b).ev.queue = s.ev.queue ∧
    mapGet (eventArrival s c i n sev b).ev.loss (lossIndex c i) 0 = min (mapGet s.ev.loss (lossIndex c i) 0 + 1) (2 ^ 32 - 1) ∧
    SameExcept [.ev] s (eventArrival s c i n sev b) := by
  rw [eventArrival, offer, if_neg (Nat.not_lt.mpr full)]
  exact ⟨rfl, mapGet_mapSet_self _ _ _ _, by simp [SameExcept, countLoss]⟩

/-! ## Links (R357, R358) -/

/-- A replayed flit is counted for its link, and reported where its link was not reported before. -/
theorem flitCrcOp_counts (s : State) (b l : Nat) (link : linkExists b l = true)
    (fresh : mapGet? s.ev.rate (rateKey 0x0B05 (linkKey b l)) = none) (room : Room 1 s) :
    (flitCrcOp s b l).fab = { s.fab with
      replays := mapSet s.fab.replays (linkKey b l) (min (mapGet s.fab.replays (linkKey b l) 0 + 1) (2 ^ 32 - 1)) } ∧
    Queued (flitCrcOp s b l) 10 0 0x0B05 ∧ SameExcept [.fab, .ev] s (flitCrcOp s b l) := by
  obtain ⟨ev, e, queued⟩ := raiseLimited_first
    { s with fab := { s.fab with replays := mapMod s.fab.replays (linkKey b l) 0 (satAdd 32 1) } } 10 0 0x0B05 (linkKey b l) 19660800 1
    (fun n => leBytes 1 b ++ leBytes 1 l ++ [0] ++ leBytes 4 n) fresh room
  have counts : flitCrcOp s b l = _ := if_neg (by simp [link])
  rw [counts]
  refine ⟨?_, queued, ?_⟩
  · rw [e, mapMod, satAdd, Nat.add_comm]
  · rw [e]
    simp [SameExcept]

theorem flitCrcOp_noLink (s : State) (b l : Nat) (h : linkExists b l = false) : flitCrcOp s b l = s := if_pos (by simp [h])

theorem linkStuckOp_noLink (s : State) (b l : Nat) (h : linkExists b l = false) : linkStuckOp s b l = s := if_pos (by simp [h])

theorem linkStuckOp_again (s : State) (b l : Nat) (h : linkKey b l ∈ s.fab.stuck) : linkStuckOp s b l = s := by
  simp [linkStuckOp, h]

/-! ## Replies keep the events that wait (R438 to R441) -/

/-- What the steps of an entry to SAFE state leave: DEVSTATE, the cores, the fabric and the external memory, and the events that
wait. -/
structure SafeKeeps (s t : State) : Prop where
  boot : t.boot = s.boot
  facet : t.facet = s.facet
  fab : t.fab = s.fab
  mem : t.mem = s.mem
  waiting : s.ev.queue ⊆ t.ev.queue

theorem SafeKeeps.refl (s : State) : SafeKeeps s s := ⟨rfl, rfl, rfl, rfl, List.Subset.refl _⟩

theorem SafeKeeps.trans {s t u : State} (h : SafeKeeps s t) (k : SafeKeeps t u) : SafeKeeps s u :=
  ⟨k.boot.trans h.boot, k.facet.trans h.facet, k.fab.trans h.fab, k.mem.trans h.mem, List.Subset.trans h.waiting k.waiting⟩

/-- The host ports and the arbiter may change as long as the events that wait go on waiting. -/
theorem SafeKeeps.of_hostOnly {s t : State} (h : HostOnly s t) (waiting : s.ev.queue ⊆ t.ev.queue) : SafeKeeps s t := by
  obtain ⟨host, ev, rfl⟩ := h
  exact ⟨rfl, rfl, rfl, rfl, waiting⟩

theorem SafeKeeps.foldl {α : Type} {s : State} (f : State → α → State) (step : ∀ t a, SafeKeeps t (f t a)) (l : List α) :
    SafeKeeps s (l.foldl f s) :=
  List.foldlRecOn (motive := SafeKeeps s) l f (.refl s) fun t h a _ => h.trans (step t a)

theorem safeKeeps_setHp (s : State) (h : Nat) (x : HostPort) : SafeKeeps s (s.setHp h x) :=
  .of_hostOnly (hostOnly_setHp s h x) (by simp)

theorem safeKeeps_raise (s : State) (c i n : Nat) (b : List Byte) : SafeKeeps s (raise s c i n b) :=
  .of_hostOnly (hostOnly_raise s c i n b) (queueGrows_raise s c i n b).1

theorem safeKeeps_raiseLimited (s : State) (c i n key period count : Nat) (b : Nat → List Byte) :
    SafeKeeps s (raiseLimited s c i n key period count b) := by
  unfold raiseLimited
  extract_lets old due total s1
  split
  · have raised : SafeKeeps s s1 := safeKeeps_raise s c i n (b total)
    exact ⟨raised.boot, raised.facet, raised.fab, raised.mem, raised.waiting⟩
  · clear_value total due
    cases old with
    | none => exact .refl s
    | some _ => exact ⟨rfl, rfl, rfl, rfl, List.Subset.refl _⟩

theorem safeKeeps_msixSend (s : State) (h v : Nat) : SafeKeeps s (msixSend s h v) := by
  unfold msixSend
  dsimp only
  split
  · exact .refl s
  · split <;> exact safeKeeps_setHp s h _

theorem safeKeeps_ringWrite (s : State) (h : Nat) (hdr pl : List Byte) : SafeKeeps s (ringWrite s h hdr pl) := by
  unfold ringWrite
  dsimp only
  split
  · exact (safeKeeps_setHp s h _).trans (safeKeeps_msixSend _ h _)
  · exact safeKeeps_setHp s h _

theorem safeKeeps_hostReply (s : State) (h : Nat) (hdr pl : List Byte) : SafeKeeps s (hostReply s h hdr pl) := by
  unfold hostReply countDiscard
  dsimp only
  split
  · exact safeKeeps_setHp s h _
  · split
    · exact ((safeKeeps_setHp s h _).trans (safeKeeps_setHp _ h _)).trans (safeKeeps_raiseLimited _ 9 h 0x0F03 h 19661 1 _)
    · split
      · exact safeKeeps_setHp s h _
      · exact safeKeeps_ringWrite s h hdr pl

theorem safeKeeps_reply (s : State) (rq : Req) (st det : Nat) (pl : List Byte) : SafeKeeps s (reply s rq st det pl) := by
  unfold reply freePort
  dsimp only
  split
  · split
    · exact ⟨rfl, rfl, rfl, rfl, List.Subset.refl _⟩
    · exact safeKeeps_setHp s rq.port _
  · split
    · exact ⟨rfl, rfl, rfl, rfl, List.Subset.refl _⟩
    · exact safeKeeps_hostReply s rq.port _ pl

/-! ## Entry to SAFE state (R448, R532, R533) -/

theorem safeKeeps_safeTests (s : State) : SafeKeeps s (safeTests s) := ⟨rfl, rfl, rfl, rfl, List.Subset.refl _⟩

theorem safeKeeps_safeCommit (s : State) : SafeKeeps s (safeCommit s) := by
  unfold safeCommit
  split
  case h_1 => exact .refl s
  case h_2 k _ =>
    split
    · have ended : SafeKeeps s s.endCommit := ⟨rfl, rfl, rfl, rfl, List.Subset.refl _⟩
      exact (ended.trans (safeKeeps_raise _ 0 0 0x1002 _)).trans (safeKeeps_reply _ k.req _ 1 _)
    · exact ⟨rfl, rfl, rfl, rfl, List.Subset.refl _⟩

theorem safeKeeps_safeSwitch (s : State) : SafeKeeps s (safeSwitch s) := by
  unfold safeSwitch
  split
  case h_1 w _ =>
    have ended : SafeKeeps s { s with time := { s.time with switchWait := none } } := ⟨rfl, rfl, rfl, rfl, List.Subset.refl _⟩
    exact ended.trans (safeKeeps_reply _ w.req _ 0 [])
  case h_2 => exact .refl s

theorem safeKeeps_safePlace (s : State) : SafeKeeps s (safePlace s) := by
  unfold safePlace
  split
  case h_1 w _ =>
    have ended (drains) : SafeKeeps s { s with host := { s.host with placeWait := none }, mill := { s.mill with drains := drains } } :=
      ⟨rfl, rfl, rfl, rfl, List.Subset.refl _⟩
    exact (ended _).trans (safeKeeps_reply _ w.req _ 0 [])
  case h_2 => exact .refl s

theorem safeKeeps_safePower (s : State) : SafeKeeps s (safePower s) := by
  unfold safePower
  split
  case h_1 w _ =>
    have ended : SafeKeeps s { s with power := { s.power with wait := none } } := ⟨rfl, rfl, rfl, rfl, List.Subset.refl _⟩
    exact ended.trans (safeKeeps_reply _ w.req _ 0 [])
  case h_2 => exact .refl s

theorem safeKeeps_safePool (s : State) : SafeKeeps s (safePool s) := by
  have ended : SafeKeeps s { s with pool := { s.pool with takeovers := [], migrations := [] } } :=
    ⟨rfl, rfl, rfl, rfl, List.Subset.refl _⟩
  have replies {α : Type} (l : SMap α) (req : α → Req) (t : State) :
      SafeKeeps t (l.foldl (fun t e => reply t (req e.2) dzAborted 0 []) t) :=
    .foldl _ (fun t e => safeKeeps_reply t (req e.2) dzAborted 0 []) l
  exact (ended.trans (replies s.pool.takeovers (·.req) _)).trans (replies s.pool.migrations (·.req) _)

/-- A change of DEVSTATE is written and sent to the hosts, and keeps the rest. -/
theorem safeKeeps_setDevState (s : State) (v : Nat) : SafeKeeps { s with boot := { s.boot with devState := v } } (setDevState s v) := by
  unfold setDevState
  split
  case isTrue same => rw [← same]; exact .refl s
  case isFalse => exact .foldl _ (fun t h => safeKeeps_msixSend t h _) _

/-- The first cause of SAFE state is reported and DEVSTATE becomes 4; then every command in a wait phase ends. -/
theorem enterSafe_steps (s : State) (cause slc : Nat) (first : s.boot.devState ≠ 4) :
    ∃ b, SafeKeeps { raise s 5 (if cause = 2 then 0 else slc) 0x0805 b with boot := { s.boot with devState := 4 } }
      (enterSafe s cause slc) := by
  refine ⟨leBytes 1 slc ++ leBytes 1 cause, ?_⟩
  rw [enterSafe, if_neg first]
  have state := safeKeeps_setDevState (raise s 5 (if cause = 2 then 0 else slc) 0x0805 (leBytes 1 slc ++ leBytes 1 cause)) 4
  rw [raise_boot] at state
  exact (((((state.trans (safeKeeps_safeTests _)).trans (safeKeeps_safeCommit _)).trans (safeKeeps_safeSwitch _)).trans
    (safeKeeps_safePlace _)).trans (safeKeeps_safePower _)).trans (safeKeeps_safePool _)

theorem enterSafe_first (s : State) (cause slc : Nat) (first : s.boot.devState ≠ 4) (room : Room 1 s) :
    (enterSafe s cause slc).boot.devState = 4 ∧ Queued (enterSafe s cause slc) 5 (if cause = 2 then 0 else slc) 0x0805 ∧
    (∀ c i n, Queued s c i n → Queued (enterSafe s cause slc) c i n) ∧ (enterSafe s cause slc).fab = s.fab ∧
    (enterSafe s cause slc).facet = s.facet ∧ (enterSafe s cause slc).mem = s.mem := by
  obtain ⟨b, boot, facet, fab, mem, waiting⟩ := enterSafe_steps s cause slc first
  have waits {c i n : Nat} (q : Queued (raise s 5 (if cause = 2 then 0 else slc) 0x0805 b) c i n) :
      Queued (enterSafe s cause slc) c i n := q.imp fun e h => ⟨waiting h.1, h.2⟩
  exact ⟨congrArg BootSt.devState boot, waits (raise_queued s 5 _ 0x0805 b room),
    fun c i n q => waits ((queueGrows_raise s 5 _ 0x0805 b).queued q),
    fab.trans (raise_fab _ _ _ _ _), facet.trans (raise_facet _ _ _ _ _), mem.trans (raise_mem _ _ _ _ _)⟩

/-- A stuck link is noted and reported, and the device enters SAFE state; the cores and the external memory stay.  MILL_SAFE has the
source class and instance of the device (log entry 49). -/
theorem linkStuckOp_safe (s : State) (b l : Nat) (link : linkExists b l = true) (fresh : linkKey b l ∉ s.fab.stuck)
    (first : s.boot.devState ≠ 4) (room : Room 2 s) :
    (linkStuckOp s b l).fab.stuck = s.fab.stuck ++ [linkKey b l] ∧ (linkStuckOp s b l).boot.devState = 4 ∧
    Queued (linkStuckOp s b l) 10 0 0x0B05 ∧ Queued (linkStuckOp s b l) 5 0 0x0805 ∧ (linkStuckOp s b l).facet = s.facet ∧
    (linkStuckOp s b l).mem = s.mem := by
  obtain ⟨detail, steps⟩ : ∃ detail, linkStuckOp s b l =
      enterSafe (raise { s with fab := { s.fab with stuck := s.fab.stuck ++ [linkKey b l] } } 10 0 0x0B05 detail) 2 1 :=
    ⟨_, (if_neg (by simp [link])).trans (if_neg (by simp [fresh]))⟩
  rw [steps]
  have room1 : Room 1 s := by unfold Room at *; omega
  obtain ⟨state, safe, waits, fab, facet, mem⟩ := enterSafe_first
    (raise { s with fab := { s.fab with stuck := s.fab.stuck ++ [linkKey b l] } } 10 0 0x0B05 detail) 2 1 (by rwa [raise_boot])
    ((queueGrows_raise _ 10 0 0x0B05 detail).room room)
  refine ⟨?_, state, waits _ _ _ (raise_queued _ 10 0 0x0B05 _ room1), safe, ?_, ?_⟩
  · rw [fab, raise_fab]
  · rw [facet, raise_facet]
  · rw [mem, raise_mem]

/-! ## Requests without an answer (R363) -/

theorem requestTimeoutOp_none (s : State) (node tag : Nat) (h : ∀ o ∈ s.fab.outst, o.node = node → o.tag ≠ tag) :
    requestTimeoutOp s node tag = s := by
  have none : s.fab.outst.find? (fun o => o.node = node && o.tag = tag && !o.timedOut) = none := by
    rw [List.find?_eq_none]
    intro o member
    have := h o member
    simp_all
  simp [requestTimeoutOp, none]

/-- A plain master's request whose time is over is marked and reported; its tag stays reserved. -/
theorem requestTimeoutOp_marks (s : State) (node tag : Nat) (o : Outstanding) (sole : s.fab.outst = [o]) (own : o.node = node)
    (same : o.tag = tag) (unmarked : o.timedOut = false) (late : o.at_ + fabCycles 67584 ≤ s.now) (plain : PlainMaster o)
    (fresh : mapGet? s.ev.rate (rateKey 0x0B04 node) = none) (room : Room 1 s) :
    (requestTimeoutOp s node tag).fab = { s.fab with outst := [{ o with timedOut := true }] } ∧
    Queued (requestTimeoutOp s node tag) 10 node 0x0B04 ∧ SameExcept [.fab, .ev] s (requestTimeoutOp s node tag) := by
  obtain ⟨ev, e, queued⟩ := raiseLimited_first { s with fab := { s.fab with outst := [{ o with timedOut := true }] } } 10 node 0x0B04
    node 19661 1 (fun n => leBytes 2 node ++ leBytes 2 (min n 65535)) fresh room
  have found : s.fab.outst.find? (fun o => o.node = node && o.tag = tag && !o.timedOut) = some o := by
    simp [sole, own, same, unmarked]
  have marks : requestTimeoutOp s node tag = raiseLimited { s with fab := { s.fab with outst := [{ o with timedOut := true }] } } 10
      node 0x0B04 node 19661 1 (fun n => leBytes 2 node ++ leBytes 2 (min n 65535)) := by
    unfold requestTimeoutOp
    rw [found]
    dsimp only
    rw [if_neg (Nat.not_lt.mpr late), toMaster_plain _ { o with timedOut := true } _ _ plain, sole, List.map_singleton, if_pos rfl]
  rw [marks]
  refine ⟨by rw [e], queued, ?_⟩
  rw [e]
  simp [SameExcept]

/-! ## Control packets, links, interfaces and fences (R95, R356 to R358, R363, R366, R367, R513) -/

/-- Settles O39, one lemma for each packet, link error and timeout. -/
theorem fabricControl : Obligations.FabricControl := by
  refine ⟨fun m o s h plain => ⟨_, rfl, ?read⟩, fun m o s h plain => ⟨_, rfl, ?write⟩,
    fun m s opened chan old => ⟨_, rfl, response_oldGen s m opened chan old⟩,
    fun m n s opened credit chan number off dma room => ⟨_, rfl, response_comparatorFault s m n opened credit chan number off dma room⟩,
    fun n s domain => ⟨congrArg Host.Outcome.next (by simp [fenceReq, domain]),
      congrArg Host.Outcome.next (by simp [fenceAck, domain])⟩,
    fun n d f s domain steady fence asked => ⟨_, rfl, fenceReq_asked n d f s domain steady fence asked⟩,
    fun n d c s domain toOff last units => ⟨_, rfl, fenceReq_begins n d c s domain toOff last units⟩,
    fun n d f s domain fence asked stopped quiet others =>
      ⟨_, rfl, fenceAck_others_left n d f s domain fence asked stopped quiet others⟩,
    fun n d f s domain cluster fence sole stopped quiet noWake room => ⟨_, rfl, ?off⟩,
    fun n s busy => congrArg Host.Outcome.next (fenceAck_idle n s busy),
    fun d s holds off coming kept fence => ⟨_, rfl, ?wake⟩,
    fun d s on => congrArg Host.Outcome.next (wakePacket_on d s on),
    fun c i code sev b s room => ⟨_, rfl, eventArrival_room s c i code.toNat sev b room⟩,
    fun c i code sev b s full => ⟨_, rfl, eventArrival_full s c i code.toNat sev b full⟩,
    fun b l s noLink => ⟨congrArg Host.Outcome.next (flitCrcOp_noLink s _ _ noLink),
      congrArg Host.Outcome.next (linkStuckOp_noLink s _ _ noLink)⟩,
    fun b l s link fresh room => ⟨_, rfl, flitCrcOp_counts s _ _ link fresh room⟩,
    fun b l s again => congrArg Host.Outcome.next (linkStuckOp_again s _ _ again),
    fun b l s link fresh first room => ⟨_, rfl, linkStuckOp_safe s _ _ link fresh first room⟩,
    fun n g s none => congrArg Host.Outcome.next (requestTimeoutOp_none s n _ none),
    fun n g o s sole own same unmarked late plain fresh room =>
      ⟨_, rfl, requestTimeoutOp_marks s n _ o sole own same unmarked late plain fresh room⟩,
    fun d f s early => congrArg Host.Outcome.next ?early,
    fun d f n s cluster fence sole late noWake room => ⟨_, rfl, fenceTimeout_off d n f s cluster fence sole late noWake room⟩⟩
  case read =>
    obtain ⟨flight, outst, nis, -, frame⟩ := response_ends s m o h plain
    exact ⟨flight, outst, nis, frame⟩
  case write =>
    obtain ⟨flight, outst, -, reserved, frame⟩ := response_ends s m o h plain
    exact ⟨flight, outst, reserved, frame⟩
  case off =>
    obtain ⟨on, fenceOff, lost, other, event, frame⟩ := fenceAck_last n d f s domain cluster fence sole stopped quiet noWake room
    exact ⟨fun member => ((on d).mp member).1 rfl, fun e differs => (on e).trans (and_iff_right differs), fenceOff, lost, other, event,
      frame⟩
  case wake =>
    rw [wakePacket_powers d s holds off coming kept fence]
    exact ⟨rfl, by simp [SameExcept]⟩
  case early =>
    refine fenceTimeout_early s d fun g fence => ?_
    obtain none | ⟨same, early⟩ := early
    · simp [none] at fence
    · obtain rfl : f = g := by simpa [same] using fence
      exact early

end Sys2Proof.Machine
end

section
namespace Sys2Proof.Machine

open Sys2Proof.Claims

/-! ## What the lock steps of a lane may change (R114, R115) -/

/-- Of the device only the time subsystem, the lanes, the ports, the arbiter and the free values have changed. -/
def LinkOnly (s t : State) : Prop :=
  ∃ time lanes ports ev free, t = { s with time := time, lanes := lanes, ports := ports, ev := ev, freeCount := free }

theorem LinkOnly.trans {s t u : State} : LinkOnly s t → LinkOnly t u → LinkOnly s u := by
  rintro ⟨time, lanes, ports, ev, free, rfl⟩ ⟨time', lanes', ports', ev', free', rfl⟩
  exact ⟨time', lanes', ports', ev', free', rfl⟩

theorem LinkOnly.cfg {s t : State} (h : LinkOnly s t) : t.cfg = s.cfg := by
  obtain ⟨time, lanes, ports, ev, free, rfl⟩ := h
  rfl

theorem LinkOnly.sameExcept {s t : State} (h : LinkOnly s t) : SameExcept [.time, .lanes, .ports, .ev, .free] s t := by
  obtain ⟨time, lanes, ports, ev, free, rfl⟩ := h
  simp [SameExcept]

/-- The lanes of a link follow from the configuration. -/
theorem linkLanes_of_cfg {s t : State} (h : t.cfg = s.cfg) (p k : Nat) : linkLanes t p k = linkLanes s p k := by
  simp only [linkLanes, State.portMode, State.paramPort, State.paramIn, State.paramWith, State.param, h]

/-- Of the lanes only those of `ls` have changed, no port has, and of the rest of the device what `LinkOnly` names. -/
structure LaneStep (ls : List Nat) (s t : State) : Prop where
  only : LinkOnly s t
  ports : t.ports = s.ports
  others : ∀ j, j ∉ ls → t.lane j = s.lane j

theorem LaneStep.refl (ls : List Nat) (s : State) : LaneStep ls s s := ⟨⟨_, _, _, _, _, rfl⟩, rfl, fun _ _ => rfl⟩

theorem LaneStep.trans {ls : List Nat} {s t u : State} (h : LaneStep ls s t) (k : LaneStep ls t u) : LaneStep ls s u :=
  ⟨h.only.trans k.only, k.ports.trans h.ports, fun j hj => (k.others j hj).trans (h.others j hj)⟩

theorem LaneStep.mono {ls ms : List Nat} {s t : State} (h : LaneStep ls s t) (sub : ls ⊆ ms) : LaneStep ms s t :=
  ⟨h.only, h.ports, fun j hj => h.others j fun mem => hj (sub mem)⟩

theorem LaneStep.foldl {α : Type} {ls : List Nat} (f : State → α → State) (l : List α) (s : State)
    (step : ∀ t, ∀ a ∈ l, LaneStep ls t (f t a)) : LaneStep ls s (l.foldl f s) :=
  List.foldlRecOn (motive := LaneStep ls s) l f (.refl ls s) fun t h a mem => h.trans (step t a mem)

theorem LaneStep.linkUp {ls : List Nat} {s t : State} (h : LaneStep ls s t) (p k : Nat) : t.linkUp p k = s.linkUp p k := by
  simp only [State.linkUp, State.link, State.port, h.ports]

theorem laneStep_setLane (s : State) (l : Nat) (x : Lane) : LaneStep [l] s (s.setLane l x) :=
  ⟨⟨_, _, _, _, _, rfl⟩, rfl, fun _ hj => State.lane_setLane_ne s l x (by simpa using hj)⟩

theorem laneStep_raise (s : State) (c i n : Nat) (b : List Byte) : LaneStep [] s (raise s c i n b) := by
  obtain ⟨ev, e⟩ := raise_eq s c i n b
  rw [e]
  exact ⟨⟨_, _, _, _, _, rfl⟩, rfl, fun _ _ => rfl⟩

@[simp] theorem laneLockEvt_lane (s : State) (l stp : Nat) (up : Bool) (j : Nat) : (laneLockEvt s l stp up).lane j = s.lane j :=
  raise_lane s _ _ _ _ j

theorem laneStep_laneLockEvt (s : State) (l stp : Nat) (up : Bool) : LaneStep [] s (laneLockEvt s l stp up) :=
  laneStep_raise s _ _ _ _

theorem laneStep_eyescanDone (s : State) (l st n : Nat) : LaneStep [] s (eyescanDone s l st n) := laneStep_raise s _ _ _ _

theorem laneStep_portLinkEvt (s : State) (p k : Nat) (up : Bool) : LaneStep [] s (portLinkEvt s p k up) :=
  laneStep_raise s _ _ _ _

theorem LaneStep.of_domsOnly {s t : State} (h : DomsOnly s t) : LaneStep [] s t := by
  obtain ⟨d0, d1, ev, rfl⟩ := h
  exact ⟨⟨_, _, _, _, _, rfl⟩, rfl, fun _ _ => rfl⟩

theorem laneStep_synceSignal (s : State) (l : Nat) (up : Bool) : LaneStep [] s (synceSignal s l up) :=
  LaneStep.foldl _ _ s fun t i _ => .of_domsOnly (updShared_spec t i _).1

theorem laneStep_blockEvts (s : State) (p k : Nat) (up : Bool) : LaneStep [] s (blockEvts s p k up) :=
  LaneStep.foldl _ _ s fun t l _ => laneStep_laneLockEvt t l 2 up

/-- A checker's counts belong to its lane (R119). -/
theorem laneStep_prbsCount (s : State) (l : Nat) : LaneStep [l] s (prbsCount s l) := by
  unfold prbsCount
  dsimp only
  split
  · exact .refl [l] s
  · have fresh : LaneStep [l] s s.fresh.2 := ⟨⟨_, _, _, _, _, rfl⟩, rfl, fun _ _ => rfl⟩
    exact fresh.trans (laneStep_setLane _ l _)

/-- The end of a scan leaves the record of every lane (R123). -/
theorem laneStep_abortLaneScan (s : State) (l st : Nat) : LaneStep [] s (abortLaneScan s l st) := by
  have scans (lanes : LaneSt) (same : lanes.lanes = s.lanes.lanes) : LaneStep [] s { s with lanes := lanes } :=
    ⟨⟨_, _, _, _, _, rfl⟩, rfl, fun j _ => by simp [State.lane, same]⟩
  unfold abortLaneScan abortScan
  split
  · split
    · split
      · exact .refl [] s
      · dsimp only
        split
        · refine LaneStep.trans ?_ (laneStep_eyescanDone _ _ _ _)
          exact scans _ rfl
        · exact scans _ rfl
    · exact .refl [] s
  · exact .refl [] s

/-! ## A link that goes back to clock recovery (R114, R136) -/

/-- A link that leaves high error ratio changes no lane (R115). -/
theorem hiSerExit_frame (s : State) (p k : Nat) : LinkOnly s (hiSerExit s p k) ∧ (hiSerExit s p k).lanes = s.lanes := by
  unfold hiSerExit
  split
  · exact ⟨⟨_, _, _, _, _, rfl⟩, rfl⟩
  · dsimp only
    have left : LinkOnly s (modLink s.fresh.2 p k fun x => { x with hiSer := false, localFault := false }) := ⟨_, _, _, _, _, rfl⟩
    exact ⟨left.trans (laneStep_raise _ _ _ _ _).only, raise_lanes _ _ _ _ _⟩

/-- A link that is down: its PTP frames are discarded and counted, and a fronthaul frame in progress waits again (R136). -/
def droppedLink (s : State) (p k : Nat) : State :=
  modPort (modLink s p k fun x => { x with
    up := false, ptp := [], sending := none, fh := (x.sending.toList.filter fun f => decide (f.kind ≤ 1)) ++ x.fh }) p
    fun x => { x with ptpLost := satAdd 32 x.ptpLost (s.link p k).ptp.length }

/-- A lane's block lock is lost and counted, and its clock with it (R115, R126). -/
def blockLoss (s : State) (l : Nat) : State :=
  synceSignal (s.setLane l { s.lane l with blockLost := satAdd 32 (s.lane l).blockLost 1 }) l false

/-- The steps by which a link that was up goes down. -/
theorem linkDown_up (s : State) (p k : Nat) (up : s.linkUp p k = true) :
    linkDown s p k = portLinkEvt (blockEvts ((linkLanes (hiSerExit s p k) p k).foldl blockLoss
      (droppedLink (hiSerExit s p k) p k)) p k false) p k false :=
  if_neg (by simp [up])

theorem linkDown_down (s : State) (p k : Nat) (down : s.linkUp p k = false) : linkDown s p k = s := if_pos (by simp [down])

theorem droppedLink_linkUp (s : State) (p k : Nat) : (droppedLink s p k).linkUp p k = false := by
  simp only [droppedLink, modPort, modLink, State.setLink, State.linkUp, State.link, State.port_setPort_self]
  match k with
  | 0 | 1 | 2 | _ + 3 => rfl

theorem laneStep_blockLoss (s : State) (l : Nat) : LaneStep [l] s (blockLoss s l) :=
  (laneStep_setLane s l _).trans ((laneStep_synceSignal _ l false).mono (List.nil_subset _))

/-- After `linkDown` the link is down, and no lane but its own has changed. -/
theorem linkDown_spec (s : State) (p k : Nat) :
    LinkOnly s (linkDown s p k) ∧ (linkDown s p k).linkUp p k = false ∧
    ∀ j, j ∉ linkLanes s p k → (linkDown s p k).lane j = s.lane j := by
  cases up : s.linkUp p k with
  | false =>
    rw [linkDown_down s p k up]
    exact ⟨⟨_, _, _, _, _, rfl⟩, up, fun _ _ => rfl⟩
  | true =>
    obtain ⟨exits, lanes⟩ := hiSerExit_frame s p k
    have dropped : LinkOnly (hiSerExit s p k) (droppedLink (hiSerExit s p k) p k) := ⟨_, _, _, _, _, rfl⟩
    have losses : LaneStep (linkLanes s p k) (droppedLink (hiSerExit s p k) p k)
        ((linkLanes s p k).foldl blockLoss (droppedLink (hiSerExit s p k) p k)) :=
      LaneStep.foldl _ _ _ fun t l mem => (laneStep_blockLoss t l).mono (by simpa using mem)
    have steps := losses.trans (((laneStep_blockEvts _ p k false).trans
      (laneStep_portLinkEvt _ p k false)).mono (List.nil_subset _))
    rw [linkDown_up s p k up, linkLanes_of_cfg exits.cfg]
    refine ⟨exits.trans (dropped.trans steps.only), (steps.linkUp p k).trans (droppedLink_linkUp _ p k), fun j hj => ?_⟩
    calc _ = (droppedLink (hiSerExit s p k) p k).lane j := steps.others j hj
      _ = s.lane j := congrArg (fun lanes : LaneSt => mapGet lanes.lanes j {}) lanes

/-- After `codewordLost` the lane has no codeword alignment. -/
theorem codewordLost_spec (s : State) (l : Nat) :
    LaneStep [l] s (codewordLost s l) ∧ ((codewordLost s l).lane l).codeword = false := by
  unfold codewordLost
  dsimp only
  split
  · exact ⟨.refl [l] s, by simp_all⟩
  · exact ⟨(laneStep_setLane s l _).trans ((laneStep_laneLockEvt _ l 1 false).mono (List.nil_subset _)), by simp⟩

theorem codewordLost_codeword (s : State) (l j : Nat) (h : (s.lane j).codeword = false) :
    ((codewordLost s l).lane j).codeword = false := by
  obtain ⟨step, lost⟩ := codewordLost_spec s l
  by_cases e : j = l
  · rw [e, lost]
  · rw [step.others j (by simpa using e), h]

theorem foldl_codewordLost_codeword (ls : List Nat) (s : State) (j : Nat) (h : j ∈ ls ∨ (s.lane j).codeword = false) :
    ((ls.foldl codewordLost s).lane j).codeword = false := by
  induction ls generalizing s with
  | nil => simpa using h
  | cons l ls ih =>
    refine ih _ (or_iff_not_imp_left.mpr fun later => ?_)
    obtain mem | out := h
    · obtain rfl : j = l := by simpa [later] using mem
      exact (codewordLost_spec s j).2
    · exact codewordLost_codeword s l j out

theorem linkToClock_spec (s : State) (p k : Nat) :
    LinkOnly s (linkToClock s p k) ∧ (linkToClock s p k).linkUp p k = false ∧
    (∀ j ∈ linkLanes s p k, ((linkToClock s p k).lane j).codeword = false) ∧
    ∀ j, j ∉ linkLanes s p k → (linkToClock s p k).lane j = s.lane j := by
  obtain ⟨only, down, others⟩ := linkDown_spec s p k
  have steps : LaneStep (linkLanes s p k) (linkDown s p k) (linkToClock s p k) :=
    LaneStep.foldl _ _ _ fun t l mem => (codewordLost_spec t l).1.mono (by simpa using mem)
  exact ⟨only.trans steps.only, (steps.linkUp p k).trans down,
    fun j mem => foldl_codewordLost_codeword _ _ j (.inl mem), fun j hj => (steps.others j hj).trans (others j hj)⟩

/-- The lane's own part of a loss of clock recovery: the lock and the checker's are gone, and the loss is counted (R115). -/
def clockLoss (s : State) (l : Nat) : State :=
  s.setLane l { s.lane l with cdr := false, prbsLock := false, cdrLost := satAdd 32 (s.lane l).cdrLost 1 }

/-- The steps of a loss of clock recovery on a lane that does not bypass it. -/
theorem clockRecoveryLoss_locked (s : State) (l : Nat) (locked : (s.lane l).cdr = true) (noBypass : s.param 0x0402 l ≠ 2) :
    clockRecoveryLoss s l = abortLaneScan (laneLockEvt (clockLoss (linkToClock (prbsCount s l) (l / 4)
      (linkOfLane (s.portMode (l / 4)) l)) l) l 0 false) l 3 := by
  unfold clockRecoveryLoss
  dsimp only
  rw [if_neg (by simp [locked]), if_neg noBypass]
  rfl

/-- After `clockRecoveryLoss` of a lane that does not bypass clock recovery its link is down, and every lane of the link has lost
its codeword alignment; no lane of another link has changed. -/
theorem clockRecoveryLoss_spec (s : State) (l : Nat) (locked : (s.lane l).cdr = true) (noBypass : s.param 0x0402 l ≠ 2) :
    let k := linkOfLane (s.portMode (l / 4)) l
    let t := clockRecoveryLoss s l
    (t.lane l).cdr = false ∧ (t.lane l).prbsLock = false ∧ t.linkUp (l / 4) k = false ∧
    (∀ j ∈ linkLanes s (l / 4) k, (t.lane j).codeword = false) ∧
    (∀ j, j ≠ l → j ∉ linkLanes s (l / 4) k → t.lane j = s.lane j) ∧
    SameExcept [.time, .lanes, .ports, .ev, .free] s t := by
  intro k t
  have counted := laneStep_prbsCount s l
  obtain ⟨clock, down, lost, others⟩ := linkToClock_spec (prbsCount s l) (l / 4) k
  rw [linkLanes_of_cfg counted.only.cfg] at lost others
  have ended : LaneStep [] (clockLoss (linkToClock (prbsCount s l) (l / 4) k) l) t := by
    unfold t
    rw [clockRecoveryLoss_locked s l locked noBypass]
    exact (laneStep_laneLockEvt _ l 0 false).trans (laneStep_abortLaneScan _ l 3)
  have self : t.lane l = _ := (ended.others l List.not_mem_nil).trans (State.lane_setLane_self _ l _)
  have other (j : Nat) (hj : j ≠ l) : t.lane j = (linkToClock (prbsCount s l) (l / 4) k).lane j :=
    (ended.others j List.not_mem_nil).trans (State.lane_setLane_ne _ l _ hj)
  have own := laneStep_setLane (linkToClock (prbsCount s l) (l / 4) k) l
  refine ⟨by rw [self], by rw [self], ((own _).trans (ended.mono (List.nil_subset _))).linkUp (l / 4) k |>.trans down,
    fun j mem => ?_, fun j hj out => ?_,
    (counted.only.trans (clock.trans ((own _).only.trans ended.only))).sameExcept⟩
  · by_cases e : j = l
    · subst e
      rw [self]
      exact lost j mem
    · rw [other j e]
      exact lost j mem
  · rw [other j hj, others j out, counted.others j (by simpa using hj)]

/-! ## Locks that come and go on one lane (R114, R115, R127, R128, R130) -/

theorem satAdd_32 (a b : Nat) : satAdd 32 a b = min (a + b) (2 ^ 32 - 1) := rfl

/-- LANE_LOCK with room in the arbiter's queue (R130). -/
theorem laneLockEvt_joins (s : State) (l stp : Nat) (up : Bool) (room : Room 1 s) :
    laneLockEvt s l stp up = { s with ev := { s.ev with queue := s.ev.queue ++ [{
      cls := 3, inst := l, code := 0x0401, sev := 1, detail := [BitVec.ofNat 8 l, BitVec.ofNat 8 stp, BitVec.ofNat 8 (b2n up)] }] } } :=
  raise_joins s _ _ _ _ room

/-- A lane's record is rewritten and LANE_LOCK reported: no other lane and nothing else of the device changes. -/
theorem setLane_laneLockEvt (s : State) (l stp : Nat) (up : Bool) (x : Lane) (room : Room 1 s) :
    let t := laneLockEvt (s.setLane l x) l stp up
    t.lane l = x ∧ OtherLanes s t l ∧
    Raised s t 3 l 0x0401 1 [BitVec.ofNat 8 l, BitVec.ofNat 8 stp, BitVec.ofNat 8 (b2n up)] ∧ SameExcept [.lanes, .ev] s t := by
  intro t
  unfold t
  rw [laneLockEvt_joins (s.setLane l x) l stp up room]
  exact ⟨State.lane_setLane_self s l x, fun j hj => State.lane_setLane_ne s l x hj, rfl, by simp [SameExcept, State.setLane]⟩

theorem clockRecoveryLock_locks (s : State) (l : Nat) (out : (s.lane l).cdr = false) (present : lanePresent s l = true)
    (power : s.domainOn (76 + l / 16) = true) (mode : s.portMode (l / 4) ≠ 0) (ready : (s.lane l).calibrated = true) :
    clockRecoveryLock s l = laneLockEvt (s.setLane l { s.lane l with cdr := true }) l 0 true :=
  if_neg (by simp [out, laneUsable, lanePowered, present, power, mode, ready])

/-- A lane that is not ready acquires no lock (R128). -/
theorem clockRecoveryLock_notReady (s : State) (l : Nat) (h : (s.lane l).calibrated = false) : clockRecoveryLock s l = s :=
  if_pos (by simp [laneUsable, h])

theorem codewordLock_locks (s : State) (l : Nat) (out : (s.lane l).codeword = false)
    (clock : ∀ j ∈ linkLanes s (l / 4) (linkOfLane (s.portMode (l / 4)) l), laneClock s j = true)
    (fec : linkFec s (l / 4) (linkOfLane (s.portMode (l / 4)) l) = true) :
    codewordLock s l = laneLockEvt (s.setLane l { s.lane l with codeword := true }) l 1 true :=
  if_neg (by
    have all : (lanesOfLink (s.portMode (l / 4)) (l / 4) (linkOfLane (s.portMode (l / 4)) l)).all (laneClock s) = true :=
      List.all_eq_true.mpr clock
    simp [out, fec, all])

theorem codewordLost_locked (s : State) (l : Nat) (locked : (s.lane l).codeword = true) :
    codewordLost s l = laneLockEvt (s.setLane l { s.lane l with
      codeword := false, markerLost := min ((s.lane l).markerLost + 1) (2 ^ 32 - 1) }) l 1 false :=
  if_neg (by simp [locked])

/-- Codeword alignment lost on a lane whose link is down already. -/
theorem codewordLockLoss_down (s : State) (l : Nat) (locked : (s.lane l).codeword = true)
    (down : s.linkUp (l / 4) (linkOfLane (s.portMode (l / 4)) l) = false) : codewordLockLoss s l = codewordLost s l := by
  rw [codewordLockLoss, if_neg (by simp [locked]), linkDown_down s _ _ down]

theorem abortLaneScan_none (s : State) (l st : Nat) (h : mapGet? s.lanes.scans (l / 16) = none) : abortLaneScan s l st = s := by
  rw [abortLaneScan, h]

/-- The two losses of a lane that has both locks, each counted (R114, R115). -/
def bothLost (x : Lane) : Lane :=
  { x with
    cdr := false, codeword := false, cdrLost := min (x.cdrLost + 1) (2 ^ 32 - 1)
    markerLost := min (x.markerLost + 1) (2 ^ 32 - 1) }

section
variable {s : State} {l : Nat} (locked : (s.lane l).cdr = true) (aligned : (s.lane l).codeword = true)
  (idle : (s.lane l).prbsLock = false) (noBypass : s.param 0x0402 l ≠ 2)
  (sole : linkLanes s (l / 4) (linkOfLane (s.portMode (l / 4)) l) = [l])
  (down : s.linkUp (l / 4) (linkOfLane (s.portMode (l / 4)) l) = false) (noScan : mapGet? s.lanes.scans (l / 16) = none)
include locked aligned idle noBypass sole down noScan

/-- Clock recovery lost on the only lane of a link that is down: the lane's two losses, one after the other. -/
theorem clockRecoveryLoss_sole : clockRecoveryLoss s l = laneLockEvt (clockLoss (codewordLost s l) l) l 0 false := by
  have count : prbsCount s l = s := if_pos (by simp [idle])
  have clock : linkToClock s (l / 4) (linkOfLane (s.portMode (l / 4)) l) = codewordLost s l := by
    rw [linkToClock, sole, linkDown_down s _ _ down]
    rfl
  have scans : (laneLockEvt (clockLoss (codewordLost s l) l) l 0 false).lanes.scans = s.lanes.scans := by
    simp [codewordLost_locked s l aligned, clockLoss, laneLockEvt, laneEvt, State.setLane]
  rw [clockRecoveryLoss_locked s l locked noBypass, count, clock, abortLaneScan_none _ l 3 (scans ▸ noScan)]

theorem clockRecoveryLoss_sole_spec (room : Room 2 s) :
    let t := clockRecoveryLoss s l
    t.lane l = bothLost (s.lane l) ∧ OtherLanes s t l ∧ t.ev.queue = s.ev.queue ++
      [{ cls := 3, inst := l, code := 0x0401, sev := 1, detail := [BitVec.ofNat 8 l, 1, 0] },
       { cls := 3, inst := l, code := 0x0401, sev := 1, detail := [BitVec.ofNat 8 l, 0, 0] }] ∧
    SameExcept [.lanes, .ev] s t := by
  intro t
  have steps : t = laneLockEvt (clockLoss (laneLockEvt (s.setLane l { s.lane l with
      codeword := false, markerLost := min ((s.lane l).markerLost + 1) (2 ^ 32 - 1) }) l 1 false) l) l 0 false := by
    rw [← codewordLost_locked s l aligned]
    exact clockRecoveryLoss_sole locked aligned idle noBypass sole down noScan
  refine ⟨by simp [steps, clockLoss, bothLost, idle, satAdd_32], fun j hj => by simp [steps, clockLoss, hj], ?_⟩
  rw [steps, laneLockEvt_joins (s.setLane l _) l 1 false (Nat.le_trans (Nat.add_le_add_left (by decide) _) room), clockLoss,
    laneLockEvt_joins _ l 0 false]
  · exact ⟨List.append_assoc _ _ _, by simp [SameExcept, State.setLane]⟩
  · simp only [Room, State.setLane_ev, List.length_append, List.length_singleton]
    exact room
end

/-- Settles O11, one lemma for each lock that comes or goes. -/
theorem laneLocks : Obligations.LaneLocks := by
  unfold Obligations.LaneLocks
  refine ⟨fun l s out present power mode ready room => ?_,
    fun l s notReady => congrArg Host.Outcome.next (clockRecoveryLock_notReady s l notReady),
    fun l s out clock fec room => ?_,
    fun l s locked aligned idle noBypass sole down noScan room =>
      ⟨_, rfl, clockRecoveryLoss_sole_spec locked aligned idle noBypass sole down noScan room⟩,
    fun l s locked noBypass => ⟨_, rfl, clockRecoveryLoss_spec s l locked noBypass⟩,
    fun l s locked down room => ?_,
    fun l s out => congrArg Host.Outcome.next (if_pos (by simp [out])),
    fun l s out => congrArg Host.Outcome.next (if_pos (by simp [out]))⟩
  · exact ⟨_, congrArg Host.Outcome.next (clockRecoveryLock_locks s l out present power mode ready),
      setLane_laneLockEvt s l 0 true _ room⟩
  · exact ⟨_, congrArg Host.Outcome.next (codewordLock_locks s l out clock fec), setLane_laneLockEvt s l 1 true _ room⟩
  · exact ⟨_, congrArg Host.Outcome.next ((codewordLockLoss_down s l locked down).trans (codewordLost_locked s l locked)),
      setLane_laneLockEvt s l 1 false _ room⟩

end Sys2Proof.Machine
end

section
namespace Sys2Proof.Machine

open Sys2Proof.Claims

/-! ## LANE_STATUS of a lane whose checker is locked (R119) -/

theorem HostOnly.lane {s t : State} (h : HostOnly s t) (l : Nat) : t.lane l = s.lane l := by
  obtain ⟨host, ev, rfl⟩ := h
  rfl

/-- A command that only answers changes no lane. -/
theorem answers_lane {i : Instr} {s : State} {rq : Req} {op : Nat} {pl : List Byte} (h : Answers i s rq op pl) (l : Nat) :
    Does i s fun t => t.lane l = s.lane l := by
  obtain ⟨host, acc, -⟩ := acceptReq_onlyHost s (asOp rq op)
  have accepts : HostOnly s (accepted s rq op) := ⟨host, s.ev, acc⟩
  exact ⟨_, h, (accepts.trans (hostOnly_replyOk _ _ _)).lane l⟩

/-- Symbols that a lane has received since its checker was counted last. -/
def symbolsSince (s : State) (l : Nat) : Nat := (s.now - (s.lane l).prbsAt) * laneBaud s l / 196608

/-- A locked checker compares every symbol received. -/
theorem prbsCount_compared (s : State) (l : Nat) (locked : (s.lane l).prbsLock = true) :
    ((prbsCount s l).lane l).prbsCmp = satAdd 64 (s.lane l).prbsCmp (symbolsSince s l) := by
  rw [prbsCount, if_neg (by simp [locked])]
  exact congrArg Lane.prbsCmp (State.lane_setLane_self s.fresh.2 l _)

/-- LANE_STATUS brings the counts of a locked checker up to now before it answers. -/
theorem laneStatus_counts (rq : Req) (p : List Byte) (s : State) (h : Accepts s rq 0x0801 p.length)
    (locked : (s.lane rq.inst).prbsLock = true) :
    Does (.laneStatus rq p) s fun t =>
      (t.lane rq.inst).prbsCmp = satAdd 64 (s.lane rq.inst).prbsCmp (symbolsSince s rq.inst) := by
  refine does_of_body rfl h fun host _ => ?_
  have counted := prbsCount_compared { s with host := host } rq.inst locked
  exact (congrArg Lane.prbsCmp ((hostOnly_replyOk _ _ _).lane rq.inst)).trans counted

/-- Refutes O49: its first clause has LANE_STATUS change nothing and return the counts as they stand, but on a lane whose pattern
checker is locked the command first counts the symbols compared since the last count (R119).  Here lane 0 of a device in RUN has
been locked since Air Time 0, and at Air Time 196,608 the command counts 5,312,500 symbols. -/
theorem not_delazLanes : ¬ Obligations.DelazLanes := by
  rintro ⟨status, -⟩
  let s : State := {
    time := { air := 196608 * 2 ^ 32 }, boot := { devState := 1 }, power := { on := List.range 96 }
    lanes := { lanes := [(0, { cdr := true, prbsLock := true })] } }
  let rq : Req := { port := 4, opcode := 0, tag := 7, seq := 1, quiet := false, scope := 6, inst := 0 }
  have accepts : Accepts s rq 0x0801 ([] : List Byte).length := by decide
  obtain ⟨t, answers, same⟩ := answers_lane (status rq [] s accepts) 0
  obtain ⟨u, counts, compared⟩ := laneStatus_counts rq [] s accepts (by decide)
  obtain rfl : t = u := Host.Outcome.next.inj (answers.symm.trans counts)
  have none_compared : (t.lane 0).prbsCmp = 0 := congrArg Lane.prbsCmp same
  have all_compared : (t.lane 0).prbsCmp = 5312500 := compared.trans (by decide)
  omega

end Sys2Proof.Machine
end

section
namespace Sys2Proof.Machine

open Sys2Proof.Claims

/-! ## What the fronthaul's staging may change (R155 to R163) -/

/-- Of the device only the ports, the arbiter and the DMA have changed. -/
def FhOnly (s t : State) : Prop := ∃ ports ev dma, t = { s with ports := ports, ev := ev, dma := dma }

theorem FhOnly.refl (s : State) : FhOnly s s := ⟨_, _, _, rfl⟩

theorem FhOnly.trans {s t u : State} : FhOnly s t → FhOnly t u → FhOnly s u := by
  rintro ⟨ports, ev, dma, rfl⟩ ⟨ports', ev', dma', rfl⟩
  exact ⟨ports', ev', dma', rfl⟩

theorem FhOnly.sameExcept {s t : State} (h : FhOnly s t) : SameExcept [.ports, .ev, .dma] s t := by
  obtain ⟨ports, ev, dma, rfl⟩ := h
  simp [SameExcept]

theorem FhOnly.sameExcept_ports_ev {s t : State} (h : FhOnly s t) (dma : t.dma = s.dma) : SameExcept [.ports, .ev] s t := by
  obtain ⟨ports, ev, dma', rfl⟩ := h
  simpa [SameExcept] using dma

theorem FhOnly.sameExcept_ports_dma {s t : State} (h : FhOnly s t) (ev : t.ev = s.ev) : SameExcept [.ports, .dma] s t := by
  obtain ⟨ports, ev', dma, rfl⟩ := h
  simpa [SameExcept] using ev

theorem FhOnly.sameExcept_ports {s t : State} (h : FhOnly s t) (ev : t.ev = s.ev) (dma : t.dma = s.dma) :
    SameExcept [.ports] s t := by
  obtain ⟨ports, ev', dma', rfl⟩ := h
  simp_all [SameExcept]

theorem fhOnly_modCfh (s : State) (c : Nat) (f : CarrierFh → CarrierFh) : FhOnly s (modCfh s c f) := ⟨_, _, _, rfl⟩

/-- A limited event changes the arbiter alone. -/
theorem raiseLimited_eq (s : State) (c i n key period count : Nat) (b : Nat → List Byte) :
    ∃ ev, raiseLimited s c i n key period count b = { s with ev := ev } := by
  unfold raiseLimited
  extract_lets old due total s1
  split
  · obtain ⟨ev, raised⟩ := raise_eq s c i n (b total)
    simp only [s1, raised]
    exact ⟨_, rfl⟩
  · clear_value total due
    cases old with
    | none => exact ⟨s.ev, rfl⟩
    | some _ => exact ⟨_, rfl⟩

/-- Setting a flag changes the DMA alone. -/
theorem flagSetOp_eq (s : State) (e f : Nat) : ∃ dma, flagSetOp s e f = { s with dma := dma } := by
  have releases (k : List Nat) (t : State) : ∃ dma, k.foldl (fun t k =>
      if (t.chan (e * 32 + k)).st = 2 && (t.chan (e * 32 + k)).wait = some (3, f, false) then chanRelease t (e * 32 + k) else t) t =
        { t with dma := dma } :=
    List.foldlRecOn (motive := fun u => ∃ dma, u = { t with dma := dma }) k _ ⟨t.dma, rfl⟩ fun u ⟨dma, hu⟩ k _ => by
      split
      · exact ⟨_, by rw [hu]; rfl⟩
      · exact ⟨dma, hu⟩
  unfold flagSetOp
  extract_lets en s1 s2
  obtain ⟨dma, released⟩ : ∃ dma, s2 = { s1 with dma := dma } := releases _ s1
  split
  · exact ⟨s.dma, rfl⟩
  · split
    · exact ⟨_, by rw [released]; rfl⟩
    · exact ⟨dma, released⟩

@[simp] theorem modCfh_cfh_self (s : State) (c : Nat) (f : CarrierFh → CarrierFh) : (modCfh s c f).cfh c = f (s.cfh c) :=
  State.cfh_setCfh_self _ _ _

@[simp] theorem modCfh_cfh_ne (s : State) {c j : Nat} (f : CarrierFh → CarrierFh) (h : j ≠ c) :
    (modCfh s c f).cfh j = s.cfh j :=
  State.cfh_setCfh_ne _ _ _ h

/-- An operation on carrier `c` alone: of the ports it changes no port and no other carrier, and `v` of the carrier stays. -/
structure CarrierStep {α : Type} (c : Nat) (v : CarrierFh → α) (s t : State) : Prop where
  only : FhOnly s t
  ports : t.ports.ports = s.ports.ports
  others : OtherCarriers s t c
  kept : v (t.cfh c) = v (s.cfh c)

section
variable {α : Type} {c : Nat} {v : CarrierFh → α} {s t u : State}

theorem CarrierStep.refl (c : Nat) (v : CarrierFh → α) (s : State) : CarrierStep c v s s := ⟨.refl s, rfl, fun _ _ => rfl, rfl⟩

theorem CarrierStep.trans (h : CarrierStep c v s t) (k : CarrierStep c v t u) : CarrierStep c v s u :=
  ⟨h.only.trans k.only, k.ports.trans h.ports, fun j hj => (k.others j hj).trans (h.others j hj), k.kept.trans h.kept⟩

theorem CarrierStep.foldl {β : Type} (f : State → β → State) (l : List β) (s : State)
    (step : ∀ t, ∀ b ∈ l, CarrierStep c v t (f t b)) : CarrierStep c v s (l.foldl f s) :=
  List.foldlRecOn (motive := CarrierStep c v s) l f (.refl c v s) fun t h b mem => h.trans (step t b mem)

theorem CarrierStep.map {β : Type} (h : CarrierStep c v s t) (w : α → β) : CarrierStep c (fun x => w (v x)) s t :=
  ⟨h.only, h.ports, h.others, congrArg w h.kept⟩

theorem carrierStep_modCfh (s : State) (f : CarrierFh → CarrierFh) (h : v (f (s.cfh c)) = v (s.cfh c)) :
    CarrierStep c v s (modCfh s c f) :=
  ⟨fhOnly_modCfh s c f, rfl, fun _ hj => modCfh_cfh_ne s f hj, by rw [modCfh_cfh_self, h]⟩

theorem carrierStep_setCfh (s : State) (x : CarrierFh) (h : v x = v (s.cfh c)) : CarrierStep c v s (s.setCfh c x) :=
  carrierStep_modCfh s (fun _ => x) h

theorem carrierStep_modEaxc (c : Nat) (v : CarrierFh → α) (s : State) (x : Nat) (f : Eaxc → Eaxc) :
    CarrierStep c v s (modEaxc s x f) :=
  ⟨⟨_, _, _, rfl⟩, rfl, fun _ _ => rfl, rfl⟩

theorem carrierStep_raise (c : Nat) (v : CarrierFh → α) (s : State) (cls i n : Nat) (b : List Byte) :
    CarrierStep c v s (raise s cls i n b) := by
  obtain ⟨ev, raised⟩ := raise_eq s cls i n b
  rw [raised]
  exact ⟨⟨_, _, _, rfl⟩, rfl, fun _ _ => rfl, rfl⟩

theorem carrierStep_portEvt (c : Nat) (v : CarrierFh → α) (s : State) (p n : Nat) (b : List Byte) :
    CarrierStep c v s (portEvt s p n b) :=
  carrierStep_raise c v s 2 p n b

theorem carrierStep_raiseLimited (c : Nat) (v : CarrierFh → α) (s : State) (cls i n key period count : Nat)
    (b : Nat → List Byte) : CarrierStep c v s (raiseLimited s cls i n key period count b) := by
  obtain ⟨ev, raised⟩ := raiseLimited_eq s cls i n key period count b
  rw [raised]
  exact ⟨⟨_, _, _, rfl⟩, rfl, fun _ _ => rfl, rfl⟩

theorem carrierStep_flagSetOp (c : Nat) (v : CarrierFh → α) (s : State) (e f : Nat) : CarrierStep c v s (flagSetOp s e f) := by
  obtain ⟨dma, set⟩ := flagSetOp_eq s e f
  rw [set]
  exact ⟨⟨_, _, _, rfl⟩, rfl, fun _ _ => rfl, rfl⟩

end

/-! ## Doorbells that name no buffer (R158) -/

/-- A bad doorbell is counted on its port, and nothing else changes. -/
theorem doorbellBad_counts (s : State) (p : Nat) :
    (doorbellBad s p).port p = { s.port p with doorbellBad := min ((s.port p).doorbellBad + 1) (2 ^ 32 - 1) } ∧
      OtherPorts s (doorbellBad s p) p ∧ (doorbellBad s p).ports.carriers = s.ports.carriers ∧ SameExcept [.ports] s (doorbellBad s p) :=
  ⟨State.port_setPort_self _ _ _, fun _ hj => State.port_setPort_ne _ _ _ hj, rfl, by simp [SameExcept, doorbellBad, modPort]⟩

end Sys2Proof.Machine
end

section
namespace Sys2Proof.Machine

open Sys2Proof.Claims

/-! ## Uplink buffers (R156, R157, R159) -/

/-- A carrier's uplink buffers, and the last symbol whose receive window it has handled. -/
def CarrierFh.uplink (x : CarrierFh) : SMap UlBuf × Option Int := (x.ul, x.lastRx)

/-- Uplink buffer `r` of carrier `c` is now `b`, and no other uplink buffer and no window of the carrier has changed. -/
structure UlWrite (c r : Nat) (b : UlBuf) (s t : State) : Prop where
  step : CarrierStep c (·.lastRx) s t
  here : ulBuf t c r = b
  others : ∀ j, j ≠ r → ulBuf t c j = ulBuf s c j

section
variable {c r : Nat} {b d : UlBuf} {s t u : State}

theorem UlWrite.trans (h : UlWrite c r b s t) (k : UlWrite c r d t u) : UlWrite c r d s u :=
  ⟨h.step.trans k.step, k.here, fun j hj => (k.others j hj).trans (h.others j hj)⟩

/-- An operation that leaves the uplink buffers alone leaves each as it is. -/
theorem CarrierStep.ulBuf (h : CarrierStep c CarrierFh.uplink s t) (r : Nat) : ulBuf t c r = Machine.ulBuf s c r :=
  congrArg (fun m : SMap UlBuf × Option Int => mapGet m.1 r {}) h.kept

theorem CarrierStep.ulWrite (h : CarrierStep c CarrierFh.uplink s t) (r : Nat) : UlWrite c r (Machine.ulBuf s c r) s t :=
  ⟨h.map Prod.snd, h.ulBuf r, fun j _ => h.ulBuf j⟩

theorem UlWrite.then_step (h : UlWrite c r b s t) (k : CarrierStep c CarrierFh.uplink t u) : UlWrite c r b s u :=
  h.trans (h.here ▸ k.ulWrite r)

end

theorem setUlBuf_writes (s : State) (c r : Nat) (b : UlBuf) : UlWrite c r b s (setUlBuf s c r b) where
  step := carrierStep_modCfh s _ rfl
  here := by simp [ulBuf, setUlBuf]
  others j hj := by simp [ulBuf, setUlBuf, hj]

/-- The gains that a claim samples, by stream (R334). -/
def sampledGains (s : State) (p c q : Nat) : SMap Int :=
  (groupStreams s p c 0 q).map fun st => (st, match antennaOf s p c st with | some x => s.paramInt 0x0A01 x | none => 0)

/-- The buffer of a group that has just claimed it (R156). -/
def claimed (s : State) (p c : Nat) (k : Int) (q : Nat) (rest : List (Int × Nat × Bool)) : UlBuf :=
  { group := some (k, q), released := false, valid := [], complete := false, waiting := rest, gains := sampledGains s p c q }

theorem claimBuf_writes (s : State) (p c r : Nat) (k : Int) (q : Nat) (rest : List (Int × Nat × Bool)) :
    UlWrite c r (claimed s p c k q rest) s (claimBuf s p c r k q rest) ∧ (claimBuf s p c r k q rest).ev = s.ev := by
  unfold claimBuf
  extract_lets gains b s1
  have remembers : CarrierStep c CarrierFh.uplink s s1 ∧ s1.ev = s.ev := by
    unfold s1
    split
    · split
      · exact ⟨carrierStep_modCfh s _ rfl, rfl⟩
      · exact ⟨.refl _ _ _, rfl⟩
    · exact ⟨.refl _ _ _, rfl⟩
  exact ⟨(remembers.1.ulWrite r).trans (setUlBuf_writes s1 c r _), remembers.2⟩

/-- Completing a group sets its mark and its flag (R157). -/
theorem completeGroup_writes (s : State) (p c r : Nat) :
    UlWrite c r { ulBuf s c r with complete := true } s (completeGroup s p c r) ∧ (completeGroup s p c r).ev = s.ev := by
  unfold completeGroup
  dsimp only
  split
  next done =>
    have same : { ulBuf s c r with complete := true } = ulBuf s c r := by rw [← done]
    rw [same]
    exact ⟨(CarrierStep.refl c _ s).ulWrite r, rfl⟩
  next =>
    refine ⟨(setUlBuf_writes s c r _).then_step (carrierStep_flagSetOp c _ _ _ _), ?_⟩
    obtain ⟨dma, set⟩ := flagSetOp_eq (setUlBuf s c r { ulBuf s c r with complete := true }) (s.paramPort p 0x061A c)
      ((s.paramPort p 0x061B c + r) % 256)
    rw [set]
    rfl

/-! ## The close of a receive window (R156, R337) -/

theorem rxTiming_step (s : State) (p c early late missing : Nat) :
    CarrierStep c CarrierFh.uplink s (rxTiming s p c early late missing) := by
  unfold rxTiming
  extract_lets y e l m due
  split
  · exact .refl _ _ _
  · split
    · exact .trans (carrierStep_setCfh s _ (by rfl)) (carrierStep_portEvt c _ _ _ _ _)
    · exact carrierStep_setCfh s _ rfl

theorem countMissing_step (s : State) (p c q : Nat) (valid : List Nat) :
    CarrierStep c CarrierFh.uplink s (countMissing s p c q valid) := by
  unfold countMissing
  extract_lets miss s1
  refine .trans (.foldl _ _ s fun t e _ => ?_) (rxTiming_step s1 p c _ _ _)
  split
  · exact carrierStep_modEaxc c _ t _ _
  · exact .refl _ _ _

/-- The noise sums are all that the noise of a symbol adds to. -/
theorem noiseAdd_eq (s : State) (p c : Nat) (k : Int) :
    ∃ noise, noiseAdd s p c k = { s with ports := { s.ports with noise := noise } } := by
  unfold noiseAdd
  extract_lets t sl prbs
  split
  · exact ⟨s.ports.noise, rfl⟩
  · refine List.foldlRecOn (motive := fun z => ∃ noise : SMap Noise, z = { s with ports := { s.ports with noise := noise } }) _ _
      ⟨s.ports.noise, rfl⟩ ?_
    rintro z ⟨noise, rfl⟩ x -
    exact ⟨_, rfl⟩

theorem noiseAdd_step (s : State) (p c : Nat) (k : Int) : CarrierStep c CarrierFh.uplink s (noiseAdd s p c k) := by
  obtain ⟨noise, added⟩ := noiseAdd_eq s p c k
  rw [added]
  exact ⟨⟨_, _, _, rfl⟩, rfl, fun _ _ => rfl, rfl⟩

/-- A group that was complete before the close of its window has nothing left to do (R157). -/
theorem closeGroup_done (s : State) (p c : Nat) (k : Int) (q : Nat) (d : UlDone)
    (known : ulDone? s c (bufOf s p c 0 k q) k q = some d) (done : d.complete = true) : closeGroup s p c k q = s := by
  simp [closeGroup, known, done]

/-- A group not known to be over closes with the buffer it holds, or with the released one that it claims now. -/
theorem closeGroup_open (s : State) (p c : Nat) (k : Int) (q : Nat) (open_ : ulDone? s c (bufOf s p c 0 k q) k q = none)
    (free : (ulBuf s c (bufOf s p c 0 k q)).group = some (k, q) ∨ (ulBuf s c (bufOf s p c 0 k q)).released = true) :
    ∃ b t, b.group = some (k, q) ∧ UlWrite c (bufOf s p c 0 k q) b s t ∧
      closeGroup s p c k q = if b.complete then t else completeGroup (countMissing t p c q b.valid) p c (bufOf s p c 0 k q) := by
  by_cases held : (ulBuf s c (bufOf s p c 0 k q)).group = some (k, q)
  · refine ⟨_, s, held, (CarrierStep.refl c _ s).ulWrite _, ?_⟩
    simp [closeGroup, open_, held]
  · have released := free.resolve_left held
    obtain ⟨claims, -⟩ := claimBuf_writes s p c (bufOf s p c 0 k q) k q (ulBuf s c (bufOf s p c 0 k q)).waiting
    refine ⟨_, _, rfl, claims, ?_⟩
    simp [closeGroup, open_, held, released, claims.here, claimed]

/-- After the close of its window such a group holds its buffer, complete (R156, R157). -/
theorem closeGroup_completes (s : State) (p c : Nat) (k : Int) (q : Nat) (open_ : ulDone? s c (bufOf s p c 0 k q) k q = none)
    (free : (ulBuf s c (bufOf s p c 0 k q)).group = some (k, q) ∨ (ulBuf s c (bufOf s p c 0 k q)).released = true) :
    ∃ b, b.group = some (k, q) ∧ b.complete = true ∧ UlWrite c (bufOf s p c 0 k q) b s (closeGroup s p c k q) := by
  obtain ⟨b, t, group, claims, closes⟩ := closeGroup_open s p c k q open_ free
  rw [closes]
  split
  next done => exact ⟨b, group, done, claims⟩
  next =>
    have counted := claims.then_step (countMissing_step t p c q b.valid)
    have completes := (completeGroup_writes (countMissing t p c q b.valid) p c (bufOf s p c 0 k q)).1
    rw [counted.here] at completes
    exact ⟨{ b with complete := true }, group, rfl, counted.trans completes⟩

theorem windowPrune_step (s : State) (c : Nat) (k : Int) : CarrierStep c CarrierFh.uplink s (windowPrune s c k) :=
  carrierStep_modCfh s _ rfl

/-- The carrier has dealt with the close of the receive window of symbol `k`. -/
def rxClosed (s : State) (c : Nat) (k : Int) : State := modCfh s c fun x => { x with lastRx := some k }

/-- What follows the groups at the close of a receive window: the noise sums, and what is kept no longer. -/
def rxSettled (s : State) (p c : Nat) (k : Int) : State := windowPrune (noiseAdd s p c k) c k

theorem rxSettled_step (s : State) (p c : Nat) (k : Int) : CarrierStep c CarrierFh.uplink s (rxSettled s p c k) :=
  (noiseAdd_step s p c k).trans (windowPrune_step _ c k)

theorem rxClosed_step (s : State) (c : Nat) (k : Int) : CarrierStep c (fun x => (x.ul, x.ulDone)) s (rxClosed s c k) :=
  carrierStep_modCfh s _ rfl

theorem rxClosed_ulBuf (s : State) (c : Nat) (k : Int) (r : Nat) : ulBuf (rxClosed s c k) c r = ulBuf s c r := by
  simp [ulBuf, rxClosed]

theorem rxClosed_ulDone? (s : State) (c : Nat) (k : Int) (r : Nat) (m : Int) (q : Nat) :
    ulDone? (rxClosed s c k) c r m q = ulDone? s c r m q := by
  unfold ulDone?
  rw [rxClosed_ulBuf, rxClosed, modCfh_cfh_self]

/-- A receive window that is due closes the one group of its symbol. -/
theorem rxWindowClose_one (c f j p : Nat) (k : Int) (s : State) (index : (fhTime s p c).symIndex f j = k) (serves : Serves s p c)
    (due : RxDue s p c k) (one : areaGroups s p c 0 = 1) :
    rxWindowClose s c f j = rxSettled (closeGroup (rxClosed s c k) p c k 0) p c k := by
  obtain ⟨port, active⟩ := serves
  obtain ⟨cov, fresh, since, passed, area⟩ := due
  unfold rxWindowClose
  simp only [port, index]
  rw [if_neg (by simp [active, cov, fresh, since, passed]), if_neg area, one]
  rfl

theorem rxWindowClose_completes (c : CarrierId) (f j p : Nat) (k : Int) (s : State) (index : (fhTime s p c).symIndex f j = k)
    (serves : Serves s p c) (due : RxDue s p c k) (one : areaGroups s p c 0 = 1)
    (open_ : ulDone? s c (bufOf s p c 0 k 0) k 0 = none)
    (free : (ulBuf s c (bufOf s p c 0 k 0)).group = some (k, 0) ∨ (ulBuf s c (bufOf s p c 0 k 0)).released = true) :
    Does (.rxWindowClose c f j) s fun t => (t.cfh c).lastRx = some k ∧
      (ulBuf t c (bufOf s p c 0 k 0)).group = some (k, 0) ∧ (ulBuf t c (bufOf s p c 0 k 0)).complete = true ∧
      OtherCarriers s t c ∧ t.ports.ports = s.ports.ports ∧ SameExcept [.ports, .ev, .dma] s t := by
  refine ⟨_, congrArg Host.Outcome.next (rxWindowClose_one c f j p k s index serves due one), ?_⟩
  obtain ⟨b, group, complete, closes⟩ := closeGroup_completes (rxClosed s c k) p c k 0 ((rxClosed_ulDone? s c k _ k 0).trans open_)
    ((rxClosed_ulBuf s c k _).symm ▸ free)
  have settled := closes.then_step (rxSettled_step _ p c k)
  have lastRx : ((rxClosed s c k).cfh c).lastRx = some k := by simp [rxClosed]
  have begins := rxClosed_step s c k
  refine ⟨settled.step.kept.trans lastRx, ?_, ?_, fun j hj => (settled.step.others j hj).trans (begins.others j hj),
    settled.step.ports.trans begins.ports, (begins.only.trans settled.step.only).sameExcept⟩
  · exact (congrArg UlBuf.group settled.here).trans group
  · exact (congrArg UlBuf.complete settled.here).trans complete

theorem rxWindowClose_again (c : CarrierId) (f j p : Nat) (k : Int) (d : UlDone) (s : State)
    (index : (fhTime s p c).symIndex f j = k) (serves : Serves s p c) (due : RxDue s p c k) (one : areaGroups s p c 0 = 1)
    (known : ulDone? s c (bufOf s p c 0 k 0) k 0 = some d) (done : d.complete = true) :
    Does (.rxWindowClose c f j) s fun t => (t.cfh c).lastRx = some k ∧ (∀ r, ulBuf t c r = ulBuf s c r) ∧
      OtherCarriers s t c ∧ t.ports.ports = s.ports.ports ∧ SameExcept [.ports] s t := by
  refine ⟨_, congrArg Host.Outcome.next (rxWindowClose_one c f j p k s index serves due one), ?_⟩
  rw [closeGroup_done (rxClosed s c k) p c k 0 d ((rxClosed_ulDone? s c k _ k 0).trans known) done]
  have begins := rxClosed_step s c k
  have settled := rxSettled_step (rxClosed s c k) p c k
  have lastRx : ((rxClosed s c k).cfh c).lastRx = some k := by simp [rxClosed]
  obtain ⟨noise, added⟩ := noiseAdd_eq (rxClosed s c k) p c k
  refine ⟨(settled.map Prod.snd).kept.trans lastRx, fun r => (settled.ulBuf r).trans (rxClosed_ulBuf s c k r),
    fun j hj => (settled.others j hj).trans (begins.others j hj), settled.ports.trans begins.ports,
    (begins.only.trans settled.only).sameExcept_ports ?_ ?_⟩ <;> (rw [rxSettled, added]; rfl)

theorem rxWindowClose_inactive (s : State) (c f j : Nat) (h : s.carrierActive c = false) : rxWindowClose s c f j = s := by
  unfold rxWindowClose
  cases carrierPort s c with
  | none => rfl
  | some p => exact if_pos (by simp [h])

/-! ## The release of a buffer (R159) -/

/-- A doorbell that names no buffer of the port is counted. -/
theorem doorbellUl_bad (s : State) (p c r : Nat) (h : doorbellOk s p c 0 r = false) : doorbellUl s p c r = doorbellBad s p :=
  if_pos (by simp [h])

theorem doorbellUl_released (s : State) (p c r : Nat) (ok : doorbellOk s p c 0 r = true) (h : (ulBuf s c r).released = true) :
    doorbellUl s p c r = s := by
  simp [doorbellUl, ok, h]

/-- A buffer that no group waits for is free once it is released. -/
theorem doorbellUl_unwanted (s : State) (p c r : Nat) (ok : doorbellOk s p c 0 r = true) (held : (ulBuf s c r).released = false)
    (unwanted : (ulBuf s c r).waiting = []) : doorbellUl s p c r = setUlBuf s c r { ulBuf s c r with released := true } := by
  simp [doorbellUl, ok, held, unwanted]

/-- A released buffer goes to the group that waits for it first, complete at once where its window has closed. -/
theorem doorbellUl_handed_on (s : State) (p c r : Nat) (k : Int) (q : Nat) (closed : Bool) (rest : List (Int × Nat × Bool))
    (ok : doorbellOk s p c 0 r = true) (held : (ulBuf s c r).released = false)
    (waits : (ulBuf s c r).waiting = (k, q, closed) :: rest) :
    UlWrite c r { claimed s p c k q rest with complete := closed } s (doorbellUl s p c r) ∧ (doorbellUl s p c r).ev = s.ev := by
  have hands : doorbellUl s p c r =
      if closed then completeGroup (claimBuf s p c r k q rest) p c r else claimBuf s p c r k q rest := by
    simp [doorbellUl, ok, held, waits]
  obtain ⟨claims, quiet⟩ := claimBuf_writes s p c r k q rest
  rw [hands]
  cases closed with
  | false => exact ⟨claims, quiet⟩
  | true =>
    obtain ⟨completes, quiet'⟩ := completeGroup_writes (claimBuf s p c r k q rest) p c r
    rw [claims.here] at completes
    exact ⟨claims.trans completes, quiet'.trans quiet⟩

/-- Settles O15: the close of a window writes the one buffer of its group, and a release hands its buffer on as `doorbellUl` says;
what follows a close (noise sums, what is kept no longer) touches no buffer. -/
theorem uplinkStaging : Obligations.UplinkStaging := by
  refine ⟨rxWindowClose_completes, rxWindowClose_again, fun c f j s h => congrArg Host.Outcome.next (rxWindowClose_inactive s c f j h),
    fun p c r s bad => ⟨_, congrArg Host.Outcome.next (doorbellUl_bad s p c r bad), doorbellBad_counts s p⟩,
    fun p c r s ok h => congrArg Host.Outcome.next (doorbellUl_released s p c r ok h),
    fun p c r s ok held unwanted => ⟨_, congrArg Host.Outcome.next (doorbellUl_unwanted s p c r ok held unwanted), ?_⟩,
    fun p c r k q closed rest s ok held waits => ⟨_, rfl, ?_⟩⟩
  · have written := setUlBuf_writes s c r { ulBuf s c r with released := true }
    exact ⟨written.here, written.others, written.step.others, rfl, written.step.only.sameExcept_ports rfl rfl⟩
  · obtain ⟨written, quiet⟩ := doorbellUl_handed_on s p c r k q closed rest ok held waits
    have here := written.here
    exact ⟨congrArg UlBuf.group here, congrArg UlBuf.valid here, congrArg UlBuf.released here, congrArg UlBuf.complete here,
      congrArg UlBuf.waiting here, written.others, written.step.others, written.step.ports,
      written.step.only.sameExcept_ports_dma quiet⟩

end Sys2Proof.Machine
end

section
namespace Sys2Proof.Machine

open Sys2Proof.Claims

/-! ## What a Prism engine reads of the configuration and the time (R138, R155, R161) -/

section
variable {s t : State} (h : FhOnly s t)
include h

theorem FhOnly.paramPort (p id inst : Nat) : t.paramPort p id inst = s.paramPort p id inst := by
  obtain ⟨ports, ev, dma, rfl⟩ := h
  rfl

theorem FhOnly.devState : t.boot.devState = s.boot.devState := by
  obtain ⟨ports, ev, dma, rfl⟩ := h
  rfl

theorem FhOnly.localNow (cls unit : Nat) : t.localNow cls unit = s.localNow cls unit := by
  obtain ⟨ports, ev, dma, rfl⟩ := h
  rfl

theorem FhOnly.carrierLink (p c : Nat) : carrierLink t p c = Machine.carrierLink s p c := h.paramPort p 0x0608 c

theorem FhOnly.prbCount (p c : Nat) : prbCount t p c = Machine.prbCount s p c := h.paramPort p 0x0609 c

theorem FhOnly.areaGroup (p c a : Nat) : areaGroup t p c a = Machine.areaGroup s p c a := h.paramPort p 0x0619 _

theorem FhOnly.antennas (p c : Nat) : antennas t p c = Machine.antennas s p c := by
  obtain ⟨ports, ev, dma, rfl⟩ := h
  rfl

theorem FhOnly.antennaOf (p c st : Nat) : antennaOf t p c st = Machine.antennaOf s p c st := by
  simp only [Machine.antennaOf, h.antennas, h.paramPort]

theorem FhOnly.groupStreams (p c a q : Nat) : groupStreams t p c a q = Machine.groupStreams s p c a q := by
  simp only [Machine.groupStreams, h.antennas, h.areaGroup]

theorem FhOnly.bufOf (p c a : Nat) (k : Int) (q : Nat) : bufOf t p c a k q = Machine.bufOf s p c a k q := by
  obtain ⟨ports, ev, dma, rfl⟩ := h
  rfl

theorem FhOnly.bufAddr (p c a r : Nat) : bufAddr t p c a r = Machine.bufAddr s p c a r := by
  obtain ⟨ports, ev, dma, rfl⟩ := h
  rfl

end

/-! ## A link that is sending (R135, R162, R163) -/

/-- A frame may wait on a link of port `p`: it has not lost its window (R162) or its licence to be sent (R163). -/
def MayWait (s : State) (p : Nat) (g : TxFrame) : Prop :=
  (g.kind = 1 → s.boot.devState ≠ 4 ∧ g.open_ (s.localNow 0 p) = true) ∧ (g.kind = 0 → s.boot.devState = 4 → g.buf = 65535)

/-- The link is sending a frame, and every fronthaul frame that waits on it may go on waiting. -/
structure Busy (s : State) (p n : Nat) : Prop where
  sendable : ∀ g ∈ (s.link p n).fh, MayWait s p g
  sending : (s.link p n).sending.isSome = true

/-- A fronthaul frame for a link that is sending waits in the link's queue (R135). -/
theorem txQueue_waits (s : State) (p n : Nat) (f : TxFrame) (fronthaul : f.kind ≤ 2) (busy : Busy s p n) (may : MayWait s p f) :
    let l := { s.link p n with fh := (s.link p n).fh ++ [f] }
    txQueue s p n f = (s.setLink p n l).setLink p n l := by
  intro l
  have sendable : Sendable (s.setLink p n l) p n := by
    intro g hg
    rw [State.link_setLink_self] at hg
    obtain old | new := List.mem_append.mp hg
    · exact busy.sendable g old
    · exact List.mem_singleton.mp new ▸ may
  have purged : cpPurge (s.setLink p n l) p n = (s.setLink p n l).setLink p n l := by
    rw [cpPurge_sendable _ p n sendable, State.link_setLink_self]
  unfold txQueue txKick modLink
  simp only [if_pos fronthaul]
  rw [purged, State.link_setLink_self, if_pos (by simp [l, busy.sending])]

/-- The queue of fronthaul frames of link `n` of port `p` has grown by `l`, for carrier `c`: no other port, no other carrier, no
staged byte and no transmit window has changed, and the events that waited go on waiting. -/
structure TxGrows (p n c : Nat) (l : List TxFrame) (s t : State) : Prop where
  only : FhOnly s t
  dma : t.dma = s.dma
  events : ∀ e ∈ s.ev.queue, e ∈ t.ev.queue
  others : OtherCarriers s t c
  lastOpen : (t.cfh c).lastOpen = (s.cfh c).lastOpen
  ports : OtherPorts s t p
  bank : (t.port p).bank = (s.port p).bank
  fh : (t.link p n).fh = (s.link p n).fh ++ l
  sending : (t.link p n).sending = (s.link p n).sending
  ptp : (t.link p n).ptp = (s.link p n).ptp
  low : (t.link p n).low = (s.link p n).low

section
variable {p n c : Nat} {l m : List TxFrame} {s t u : State}

theorem TxGrows.trans (h : TxGrows p n c l s t) (k : TxGrows p n c m t u) : TxGrows p n c (l ++ m) s u where
  only := h.only.trans k.only
  dma := k.dma.trans h.dma
  events e he := k.events e (h.events e he)
  others j hj := (k.others j hj).trans (h.others j hj)
  lastOpen := k.lastOpen.trans h.lastOpen
  ports j hj := (k.ports j hj).trans (h.ports j hj)
  bank := k.bank.trans h.bank
  fh := by rw [k.fh, h.fh, List.append_assoc]
  sending := k.sending.trans h.sending
  ptp := k.ptp.trans h.ptp
  low := k.low.trans h.low

theorem CarrierStep.port (h : CarrierStep c (·.lastOpen) s t) (j : Nat) : t.port j = s.port j := by
  rw [State.port, State.port, h.ports]

/-- An operation on the carrier alone queues no frame. -/
theorem CarrierStep.txGrows (h : CarrierStep c (·.lastOpen) s t) (dma : t.dma = s.dma) (events : ∀ e ∈ s.ev.queue, e ∈ t.ev.queue)
    (p n : Nat) : TxGrows p n c [] s t where
  only := h.only
  dma := dma
  events := events
  others := h.others
  lastOpen := h.kept
  ports j _ := h.port j
  bank := by rw [h.port]
  fh := by rw [State.link, State.link, h.port, List.append_nil]
  sending := by rw [State.link, State.link, h.port]
  ptp := by rw [State.link, State.link, h.port]
  low := by rw [State.link, State.link, h.port]

theorem TxGrows.refl (p n c : Nat) (s : State) : TxGrows p n c [] s s := (CarrierStep.refl c _ s).txGrows rfl (fun _ h => h) p n

theorem txGrows_portEvt (p n c : Nat) (s : State) (i code : Nat) (b : List Byte) : TxGrows p n c [] s (portEvt s i code b) :=
  (carrierStep_portEvt c _ s i code b).txGrows (raise_dma _ _ _ _ _) (queueGrows_raise _ _ _ _ _).1 p n

theorem TxGrows.busy (h : TxGrows p n c l s t) (busy : Busy s p n) (may : ∀ g ∈ l, MayWait s p g) : Busy t p n where
  sendable g hg := by
    unfold MayWait
    rw [h.only.devState, h.only.localNow]
    rw [h.fh] at hg
    exact (List.mem_append.mp hg).elim (busy.sendable g) (may g)
  sending := by rw [h.sending, busy.sending]

end

theorem Port.bank_setLink (x : Port) (k : Nat) (l : Link) : (x.setLink k l).bank = x.bank := by
  match k with
  | 0 | 1 | 2 | _ + 3 => rfl

theorem txQueue_grows (s : State) (p n c : Nat) (f : TxFrame) (fronthaul : f.kind ≤ 2) (busy : Busy s p n) (may : MayWait s p f) :
    TxGrows p n c [f] s (txQueue s p n f) := by
  rw [txQueue_waits s p n f fronthaul busy may]
  refine ⟨⟨_, _, _, rfl⟩, rfl, fun _ h => h, fun _ _ => rfl, rfl, fun j hj => ?_, ?_, ?_, ?_, ?_, ?_⟩
  · exact ((State.setLink_frame _ _ _ _).1 j hj).trans ((State.setLink_frame _ _ _ _).1 j hj)
  · simp [State.setLink, Port.bank_setLink]
  all_goals rw [State.link_setLink_self]

/-! ## U-plane messages of one stream (R147, R161) -/

/-- A U-plane message of context `x` for running symbol `k`, from buffer `buf`. -/
def IsUplane (c x : Nat) (k : Int) (buf : Nat) (g : TxFrame) : Prop :=
  g.kind = 0 ∧ g.carrier = c ∧ g.eaxc = x ∧ g.sym = k ∧ g.buf = buf

/-- The carrier's link is sending, and messages from buffer `buf` may wait on it. -/
structure CanSend (s : State) (p c buf : Nat) : Prop where
  busy : Busy s p (carrierLink s p c)
  safe : s.boot.devState = 4 → buf = 65535

/-- At least `m` U-plane messages of a stream have joined the queue of the carrier's link, and nothing else. -/
def Sends (m p c x : Nat) (k : Int) (buf : Nat) (s t : State) : Prop :=
  ∃ l, m ≤ l.length ∧ (∀ f ∈ l, IsUplane c x k buf f) ∧ TxGrows p (carrierLink s p c) c l s t

section
variable {m m' p c x buf : Nat} {k : Int} {s t u : State}

theorem TxGrows.sends (h : TxGrows p (carrierLink s p c) c [] s t) : Sends 0 p c x k buf s t := ⟨[], le_rfl, by simp, h⟩

theorem Sends.refl (s : State) : Sends 0 p c x k buf s s := (TxGrows.refl _ _ _ _).sends

theorem Sends.trans (h : Sends m p c x k buf s t) (g : Sends m' p c x k buf t u) : Sends (m + m') p c x k buf s u := by
  obtain ⟨l, many, each, grows⟩ := h
  obtain ⟨l', many', each', grows'⟩ := g
  rw [grows.only.carrierLink] at grows'
  exact ⟨l ++ l', by simp; omega, fun f hf => (List.mem_append.mp hf).elim (each f) (each' f), grows.trans grows'⟩

theorem Sends.mono (h : Sends m p c x k buf s t) (le : m' ≤ m) : Sends m' p c x k buf s t := by
  obtain ⟨l, many, rest⟩ := h
  exact ⟨l, le.trans many, rest⟩

theorem IsUplane.mayWait {g : TxFrame} (h : IsUplane c x k buf g) (safe : s.boot.devState = 4 → buf = 65535) : MayWait s p g := by
  obtain ⟨kind, -, -, -, from_⟩ := h
  exact ⟨fun cplane => by simp [kind] at cplane, fun _ dev => from_.trans (safe dev)⟩

theorem Sends.canSend (h : Sends m p c x k buf s t) (can : CanSend s p c buf) : CanSend t p c buf := by
  obtain ⟨l, -, each, grows⟩ := h
  refine ⟨?_, by rw [grows.only.devState]; exact can.safe⟩
  rw [grows.only.carrierLink]
  exact grows.busy can.busy fun g hg => (each g hg).mayWait can.safe

/-- Operations that each queue a message queue as many as there are. -/
theorem Sends.foldl {β : Type} (f : State → β → State) (l : List β) (s : State) (can : CanSend s p c buf)
    (step : ∀ t, CanSend t p c buf → ∀ b ∈ l, Sends 1 p c x k buf t (f t b)) : Sends l.length p c x k buf s (l.foldl f s) := by
  induction l generalizing s with
  | nil => exact .refl s
  | cons b l ih =>
    have first := step s can b (by simp)
    have rest := ih (f s b) (first.canSend can) fun t ht d hd => step t ht d (List.mem_cons_of_mem b hd)
    exact (first.trans rest).mono (by rw [List.length_cons]; omega)

end

theorem sendUplane_sends (s : State) (p c x : Nat) (k : Int) (buf id start num w : Nat) (data : List Byte)
    (can : CanSend s p c buf) : Sends 1 p c x k buf s (sendUplane s p c x k buf id start num w data) := by
  unfold sendUplane
  extract_lets t whole hdr comp sq msg s1 b s2
  have counted : TxGrows p (carrierLink s p c) c [] s s2 := by
    have numbered := carrierStep_modEaxc c (·.lastOpen) s x fun e => { e with txU := (e.txU + 1) % 256 }
    unfold s2
    split
    · exact numbered.txGrows rfl (fun _ h => h) _ _
    · exact (numbered.trans (carrierStep_modCfh _ _ rfl)).txGrows rfl (fun _ h => h) _ _
  obtain ⟨busy, safe⟩ := (counted.sends (x := x) (k := k) (buf := buf)).canSend can
  rw [counted.only.carrierLink] at busy
  refine ⟨[_], le_rfl, List.forall_mem_singleton.mpr ⟨rfl, rfl, rfl, rfl, rfl⟩,
    counted.trans (txQueue_grows s2 p _ c _ (Nat.zero_le 2) busy ?_)⟩
  exact IsUplane.mayWait (c := c) (x := x) (k := k) ⟨rfl, rfl, rfl, rfl, rfl⟩ safe

/-- A section is sent in at least one message, unless it is empty (R147). -/
theorem sendSection_sends (p c x : Nat) (k : Int) (buf id w : Nat) (fuel start : Nat) (prbs : List (List Byte)) (s : State)
    (can : CanSend s p c buf) :
    Sends (min 1 (min fuel prbs.length)) p c x k buf s (sendSection fuel s p c x k buf id start w prbs) := by
  induction fuel generalizing s start prbs with
  | zero => exact (Sends.refl s).mono (by omega)
  | succ fuel ih =>
    unfold sendSection
    extract_lets size over_ fit whole m
    split
    next empty => exact (Sends.refl s).mono (by simp [List.isEmpty_iff.mp empty])
    next =>
      have first := sendUplane_sends s p c x k buf id start m w (prbs.take m).flatten can
      exact (first.trans (ih (start + m) (prbs.drop m) _ (first.canSend can))).mono (by omega)

/-- Where the U-plane has a zero-sample form, a stream of a carrier with PRBs is sent in it (R161). -/
theorem zeroStream_sends (s : State) (p c x : Nat) (k : Int) (form : s.paramPort p 0x0603 p ≠ 4) (prbs : prbCount s p c ≠ 0)
    (can : CanSend s p c 65535) : Sends 1 p c x k 65535 s (zeroStream s p c x k) := by
  unfold zeroStream
  dsimp only
  rw [if_neg form]
  exact (sendSection_sends p c x k _ _ _ _ _ _ s can).mono (by rw [List.length_replicate]; omega)

/-- Counting saturated components queues no frame (R335). -/
theorem gainSat_sends (s : State) (p c x ul dl y : Nat) (k : Int) (buf : Nat) :
    Sends 0 p c y k buf s (gainSat s p c x ul dl) := by
  unfold gainSat
  extract_lets s1 z due
  split
  · exact .refl s
  · have counted := carrierStep_modEaxc c (·.lastOpen) s x fun e =>
      { e with satUl := satAdd 32 e.satUl ul, satDl := satAdd 32 e.satDl dl }
    split
    · exact .trans (m := 0) (m' := 0)
        ((counted.trans (carrierStep_setCfh s1 _ (by rfl))).txGrows rfl (fun _ h => h) _ _).sends (txGrows_portEvt _ _ _ _ _ _ _).sends
    · exact ((counted.trans (carrierStep_setCfh s1 _ (by rfl))).txGrows rfl (fun _ h => h) _ _).sends

/-- The section map of stream `st` in downlink buffer `r` (R160). -/
def streamMap (s : State) (p c r st : Nat) : List (Nat × Nat × Nat × Nat × Nat) :=
  mapEntries (bytesRead 0 (s.port p).bank (bufAddr s p c 1 r + 32 * (st % areaGroup s p c 1)) 32)

/-- A stream whose section map is valid and names PRBs is sent from staging (R160, R161). -/
theorem sendStream_sends (s : State) (p c : Nat) (k : Int) (r st x : Nat) (antenna : antennaOf s p c st = some x)
    (valid : mapInvalid (s.paramPort p 0x0603 p) (prbCount s p c) (streamMap s p c r st) = false)
    (used : (streamMap s p c r st).any (fun e => e.2.2.2.1 ≠ 0) = true) (can : CanSend s p c r) :
    Sends 1 p c x k r s (sendStream s p c k r st).1 ∧ (sendStream s p c k r st).2 = false := by
  unfold streamMap at valid used
  obtain ⟨e, mem, some_⟩ := List.any_eq_true.mp used
  unfold sendStream
  simp only [antenna, valid, Bool.false_eq_true, if_false, and_true]
  refine (Sends.foldl _ _ s can fun t ht d hd => ?_).mono (List.length_pos_of_mem (List.mem_filter.mpr ⟨mem, some_⟩))
  have prbs : d.2.2.2.1 ≠ 0 := by simpa using (List.mem_filter.mp hd).2
  have counted (sat : Nat) := gainSat_sends t p c x 0 sat x k r
  refine Sends.mono ((counted _).trans (sendSection_sends p c x k r _ _ _ _ _ _ ((counted _).canSend ht))) ?_
  simp only [List.length_map, List.length_range]
  omega

end Sys2Proof.Machine
end

section
namespace Sys2Proof.Machine

open Sys2Proof.Claims

/-! ## Groups of a symbol as its transmit window opens (R161, R163) -/

/-- A group of one stream that was not taken is sent in its zero-sample form (R161). -/
theorem sendGroup_untaken (s : State) (p c : Nat) (k : Int) (q st x : Nat)
    (untaken : (dlBuf s c (bufOf s p c 1 k q)).taken ≠ some (k, q)) (stream : groupStreams s p c 1 q = [st])
    (antenna : antennaOf s p c st = some x) : sendGroup s p c k q = (zeroStream s p c x k, false) := by
  simp [sendGroup, untaken, sendZero, stream, antenna]

/-- A group of one stream that was taken is sent from staging, outside the SAFE state (R161, R163). -/
theorem sendGroup_taken (s : State) (p c : Nat) (k : Int) (q st : Nat) (taken : (dlBuf s c (bufOf s p c 1 k q)).taken = some (k, q))
    (notSafe : s.boot.devState ≠ 4) (stream : groupStreams s p c 1 q = [st]) :
    sendGroup s p c k q = (dlFree (sendStream s p c k (bufOf s p c 1 k q) st).1 c (bufOf s p c 1 k q),
      (sendStream s p c k (bufOf s p c 1 k q) st).2) := by
  simp [sendGroup, taken, notSafe, stream]

/-- Freeing a buffer takes away at most what took it. -/
theorem dlFree_cases (s : State) (c r : Nat) : dlFree s c r = s ∨ dlFree s c r = setDlBuf s c r { dlBuf s c r with taken := none } := by
  unfold dlFree
  dsimp only
  split
  · exact .inr rfl
  · exact .inl rfl

theorem dlFree_sends (s : State) (p c x r buf : Nat) (k : Int) : Sends 0 p c x k buf s (dlFree s c r) := by
  obtain same | freed := dlFree_cases s c r
  · rw [same]
    exact .refl s
  · rw [freed]
    exact (CarrierStep.txGrows (carrierStep_modCfh s _ rfl) rfl (fun _ h => h) _ _).sends

/-- Where the staged samples that wait may go on waiting, none is replaced (R163). -/
theorem safeReplace_sendable (s : State) (p n : Nat) (h : Sendable s p n) : safeReplace s p n = s := by
  unfold safeReplace
  extract_lets staged fs s1 keys
  refine if_pos ?_
  by_cases safe : s.boot.devState = 4
  · have none_ : fs = [] := List.filter_eq_nil_iff.mpr fun g hg => by
      by_cases kind : g.kind = 0
      · simp [staged, (h g hg).2 kind safe]
      · simp [staged, kind]
    simp [none_]
  · simp [safe]

/-! ## The opening of a transmit window (R161) -/

theorem txUnderrun_step {α : Type} (v : CarrierFh → α) (s : State) (p c cause : Nat) :
    CarrierStep c v s (txUnderrun s p c cause) ∧ (txUnderrun s p c cause).dma = s.dma := by
  refine ⟨carrierStep_raiseLimited c v s _ _ _ _ _ _ _, ?_⟩
  obtain ⟨ev, raised⟩ := raiseLimited_eq s 2 p 0x0604 c 19660800 1 fun n => leBytes 2 c ++ leBytes 1 cause ++ leBytes 2 (min n 65535)
  rw [txUnderrun, raised]

/-- A first underrun of the carrier is reported (R167). -/
theorem txUnderrun_queued (s : State) (p c cause : Nat) (first : mapGet? s.ev.rate (rateKey 0x0604 c) = none) (room : Room 1 s) :
    Queued (txUnderrun s p c cause) 2 p 0x0604 :=
  (raiseLimited_first s 2 p 0x0604 c 19660800 1 _ first room).choose_spec.2

/-- The carrier has dealt with the opening of the transmit window of symbol `k`. -/
def openHandled (s : State) (c : Nat) (k : Int) : State :=
  modCfh s c fun x => { x with lastOpen := some k, missed := x.missed.filter fun m => decide (k < m) }

/-- A covered symbol's transmit window has opened; a ready deadline that one of its groups missed while it was not covered is
reported now (R161, R167). -/
def windowOpened (s : State) (p c : Nat) (k : Int) : State :=
  if (s.cfh c).missed.contains k then txUnderrun (openHandled s c k) p c 0 else openHandled s c k

theorem windowOpened_cases (s : State) (p c : Nat) (k : Int) : ∃ ev, windowOpened s p c k = { openHandled s c k with ev := ev } := by
  unfold windowOpened
  split
  · exact raiseLimited_eq _ _ _ _ _ _ _ _
  · exact ⟨_, rfl⟩

theorem windowOpened_lastOpen (s : State) (p c : Nat) (k : Int) : ((windowOpened s p c k).cfh c).lastOpen = some k := by
  obtain ⟨ev, opens⟩ := windowOpened_cases s p c k
  have handled : ((openHandled s c k).cfh c).lastOpen = some k := by simp [openHandled]
  rw [opens]
  exact handled

theorem windowOpened_step (s : State) (p c : Nat) (k : Int) :
    CarrierStep c (·.dl) s (windowOpened s p c k) ∧ (windowOpened s p c k).dma = s.dma := by
  obtain ⟨ev, opens⟩ := windowOpened_cases s p c k
  rw [opens]
  have handled : CarrierStep c (·.dl) s (openHandled s c k) := carrierStep_modCfh s _ rfl
  exact ⟨handled.trans ⟨⟨_, _, _, rfl⟩, rfl, fun _ _ => rfl, rfl⟩, rfl⟩

theorem windowOpened_reports (s : State) (p c : Nat) (k : Int) (missed : (s.cfh c).missed.contains k = true)
    (first : mapGet? s.ev.rate (rateKey 0x0604 c) = none) (room : Room 1 s) : Queued (windowOpened s p c k) 2 p 0x0604 := by
  rw [windowOpened, if_pos missed]
  exact txUnderrun_queued (openHandled s c k) p c 0 first room

/-- The transmit window of a covered symbol with one group opens: that group is sent. -/
theorem dlTxWindowOpen_one (c f j p : Nat) (k : Int) (s : State) (index : (fhTime s p c).symIndex f j = k) (serves : Serves s p c)
    (due : TxDue s p c k) (one : areaGroups s p c 1 = 1) (cov : Covered s p c 1 k) (sendable : Sendable s p (carrierLink s p c)) :
    dlTxWindowOpen s c f j =
      let z := sendGroup (windowOpened s p c k) p c k 0
      if z.2 then txUnderrun z.1 p c 1 else z.1 := by
  obtain ⟨port, active⟩ := serves
  obtain ⟨fresh, since, begun, notOver, area⟩ := due
  have begun' : leadTime (fhTime s p c) k (s.paramPort p 0x0612 c) ≤ s.localNow 0 p := begun
  have notOver' : (s.localNow 0 p : Int) < leadTime (fhTime s p c) k (s.paramPort p 0x0613 c) := notOver
  unfold dlTxWindowOpen
  simp only [port, index]
  rw [if_neg (by simp [active, fresh, since, begun', area]), safeReplace_sendable s p _ sendable,
    if_neg (by simp [cov, notOver']), one]
  simp only [List.range_one, List.foldl_cons, List.foldl_nil, Bool.false_or]
  rfl

/-- Messages that join the link's queue after the window's opening make the queue grow as `Queues` says. -/
theorem Sends.queues {m p c x buf : Nat} {k : Int} {s u t : State} (begins : CarrierStep c (·.dl) s u) (dma : u.dma = s.dma)
    (sends : Sends (m + 1) p c x k buf u t) :
    Queues s t p (carrierLink s p c) (IsUplane c x k buf) ∧ OtherCarriers s t c ∧ SameExcept [.ports, .ev] s t := by
  obtain ⟨l, many, each, grows⟩ := sends
  have port (j : Nat) : u.port j = s.port j := by rw [State.port, State.port, begins.ports]
  have link (n : Nat) : u.link p n = s.link p n := by rw [State.link, State.link, port]
  rw [begins.only.carrierLink] at grows
  refine ⟨⟨l, List.ne_nil_of_length_pos (by omega), ?_, each, ?_, ?_, ?_, ?_, fun j hj => (grows.ports j hj).trans (port j)⟩,
    fun j hj => (grows.others j hj).trans (begins.others j hj), (begins.only.trans grows.only).sameExcept_ports_ev (grows.dma.trans dma)⟩
  · rw [grows.fh, link]
  · rw [grows.sending, link]
  · rw [grows.ptp, link]
  · rw [grows.low, link]
  · rw [grows.bank, port]

/-- After the opening of a window the link can send as before. -/
theorem windowOpened_canSend (s : State) (p c buf : Nat) (k : Int) (sendable : Sendable s p (carrierLink s p c))
    (sending : (s.link p (carrierLink s p c)).sending.isSome = true) (safe : s.boot.devState = 4 → buf = 65535) :
    CanSend (windowOpened s p c k) p c buf := by
  obtain ⟨begins, -⟩ := windowOpened_step s p c k
  obtain ⟨ev, opens⟩ := windowOpened_cases s p c k
  refine ⟨?_, by rw [begins.only.devState]; exact safe⟩
  rw [begins.only.carrierLink, opens]
  exact ⟨sendable, sending⟩

theorem dlBuf_windowOpened (s : State) (p c r : Nat) (k : Int) : dlBuf (windowOpened s p c k) c r = dlBuf s c r :=
  congrArg (fun m : SMap TxBuf => mapGet m r {}) (windowOpened_step s p c k).1.kept

theorem dlTxWindowOpen_zero (c : CarrierId) (f j p x st : Nat) (k : Int) (s : State) (index : (fhTime s p c).symIndex f j = k)
    (serves : Serves s p c) (due : TxDue s p c k) (one : areaGroups s p c 1 = 1) (cov : Covered s p c 1 k)
    (untaken : (dlBuf s c (bufOf s p c 1 k 0)).taken ≠ some (k, 0)) (sendable : Sendable s p (carrierLink s p c))
    (form : s.paramPort p 0x0603 p ≠ 4) (stream : groupStreams s p c 1 0 = [st]) (antenna : antennaOf s p c st = some x)
    (prbs : prbCount s p c ≠ 0) (sending : (s.link p (carrierLink s p c)).sending.isSome = true) :
    Does (.dlTxWindowOpen c f j) s fun t => (t.cfh c).lastOpen = some k ∧
      Queues s t p (carrierLink s p c) (fun g => g.kind = 0 ∧ g.carrier = c.val ∧ g.eaxc = x ∧ g.sym = k ∧ g.buf = 65535) ∧
      ((s.cfh c).missed.contains k = true → mapGet? s.ev.rate (rateKey 0x0604 c) = none → Room 1 s → Queued t 2 p 0x0604) ∧
      OtherCarriers s t c ∧ SameExcept [.ports, .ev] s t := by
  refine ⟨_, congrArg Host.Outcome.next (dlTxWindowOpen_one c f j p k s index serves due one cov sendable), ?_⟩
  obtain ⟨begins, dma⟩ := windowOpened_step s p c k
  have only := begins.only
  rw [sendGroup_untaken (windowOpened s p c k) p c k 0 st x (by rw [only.bufOf, dlBuf_windowOpened]; exact untaken)
    ((only.groupStreams p c 1 0).trans stream) ((only.antennaOf p c st).trans antenna)]
  simp only [Bool.false_eq_true, if_false]
  have sends := zeroStream_sends (windowOpened s p c k) p c x k (by rw [only.paramPort]; exact form)
    (by rw [only.prbCount]; exact prbs) (windowOpened_canSend s p c 65535 k sendable sending fun _ => rfl)
  obtain ⟨queues, others, frame⟩ := sends.queues (m := 0) begins dma
  obtain ⟨l, -, -, grows⟩ := sends
  refine ⟨grows.lastOpen.trans (windowOpened_lastOpen s p c k), queues, fun missed first room => ?_, others, frame⟩
  exact (windowOpened_reports s p c k missed first room).imp fun e he => ⟨grows.events e he.1, he.2⟩

theorem dlTxWindowOpen_staged (c : CarrierId) (f j p x st : Nat) (k : Int) (s : State) (index : (fhTime s p c).symIndex f j = k)
    (serves : Serves s p c) (due : TxDue s p c k) (one : areaGroups s p c 1 = 1) (cov : Covered s p c 1 k)
    (taken : (dlBuf s c (bufOf s p c 1 k 0)).taken = some (k, 0)) (notSafe : s.boot.devState ≠ 4)
    (sendable : Sendable s p (carrierLink s p c)) (stream : groupStreams s p c 1 0 = [st]) (antenna : antennaOf s p c st = some x)
    (valid : mapInvalid (s.paramPort p 0x0603 p) (prbCount s p c) (streamMap s p c (bufOf s p c 1 k 0) st) = false)
    (used : (streamMap s p c (bufOf s p c 1 k 0) st).any (fun e => e.2.2.2.1 ≠ 0) = true)
    (sending : (s.link p (carrierLink s p c)).sending.isSome = true) :
    Does (.dlTxWindowOpen c f j) s fun t => (t.cfh c).lastOpen = some k ∧
      Queues s t p (carrierLink s p c) (fun g => g.kind = 0 ∧ g.carrier = c.val ∧ g.eaxc = x ∧ g.sym = k ∧ g.buf = bufOf s p c 1 k 0) ∧
      OtherCarriers s t c ∧ SameExcept [.ports, .ev] s t := by
  refine ⟨_, congrArg Host.Outcome.next (dlTxWindowOpen_one c f j p k s index serves due one cov sendable), ?_⟩
  obtain ⟨begins, dma⟩ := windowOpened_step s p c k
  have only := begins.only
  have buf := only.bufOf p c 1 k 0
  have map : streamMap (windowOpened s p c k) p c (bufOf s p c 1 k 0) st = streamMap s p c (bufOf s p c 1 k 0) st := by
    rw [streamMap, streamMap, State.port, State.port, begins.ports, only.bufAddr, only.areaGroup]
  obtain ⟨staged, wellMapped⟩ := sendStream_sends (windowOpened s p c k) p c k (bufOf s p c 1 k 0) st x
    ((only.antennaOf p c st).trans antenna) (by rw [map, only.paramPort, only.prbCount]; exact valid) (by rw [map]; exact used)
    (windowOpened_canSend s p c _ k sendable sending fun safe => absurd safe notSafe)
  rw [sendGroup_taken (windowOpened s p c k) p c k 0 st (by rw [buf, dlBuf_windowOpened]; exact taken)
    (by rw [only.devState]; exact notSafe) ((only.groupStreams p c 1 0).trans stream), buf]
  simp only [wellMapped, Bool.false_eq_true, if_false]
  have sends := staged.trans (dlFree_sends _ p c x (bufOf s p c 1 k 0) _ k)
  obtain ⟨queues, others, frame⟩ := sends.queues (m := 0) begins dma
  obtain ⟨l, -, -, grows⟩ := sends
  exact ⟨grows.lastOpen.trans (windowOpened_lastOpen s p c k), queues, others, frame⟩

end Sys2Proof.Machine
end

section
namespace Sys2Proof.Machine

open Sys2Proof.Claims

/-! ## Downlink buffers: doorbell and ready deadline (R158, R161) -/

theorem doorbellDl_ready (s : State) (p c r : Nat) (ok : doorbellOk s p c 1 r = true) (free : (dlBuf s c r).busy = false) :
    doorbellDl s p c r = setDlBuf s c r { dlBuf s c r with ready := true } :=
  if_neg (by simp [ok, free])

theorem doorbellDl_bad (s : State) (p c r : Nat) (h : doorbellOk s p c 1 r = false ∨ (dlBuf s c r).busy = true) :
    doorbellDl s p c r = doorbellBad s p :=
  if_pos (by obtain bad | busy := h <;> simp [*])

theorem dlBuf_setDlBuf_self (s : State) (c r : Nat) (b : TxBuf) : dlBuf (setDlBuf s c r b) c r = b := by
  simp [dlBuf, setDlBuf]

theorem dlBuf_setDlBuf_ne (s : State) (c : Nat) {r j : Nat} (b : TxBuf) (h : j ≠ r) : dlBuf (setDlBuf s c r b) c j = dlBuf s c j := by
  simp [dlBuf, setDlBuf, h]

/-- The carrier has dealt with the ready deadline of symbol `k`. -/
def deadlineHandled (s : State) (c : Nat) (k : Int) : State := modCfh s c fun x => { x with lastDead := some k }

theorem dlBuf_deadlineHandled (s : State) (c r : Nat) (k : Int) : dlBuf (deadlineHandled s c k) c r = dlBuf s c r := by
  simp [dlBuf, deadlineHandled]

/-- At a ready deadline that is due, the ready buffer of the symbol's one group is taken; without one the deadline is missed. -/
theorem dlReadyDeadline_one (c f j p : Nat) (k : Int) (s : State) (index : (fhTime s p c).symIndex f j = k) (serves : Serves s p c)
    (due : ReadyDue s p c k) (one : areaGroups s p c 1 = 1) :
    dlReadyDeadline s c f j =
      if (dlBuf s c (bufOf s p c 1 k 0)).ready = true then
        setDlBuf (deadlineHandled s c k) c (bufOf s p c 1 k 0)
          { dlBuf s c (bufOf s p c 1 k 0) with ready := false, taken := some (k, 0) }
      else if Covered s p c 1 k then txUnderrun (deadlineHandled s c k) p c 0
      else modCfh (deadlineHandled s c k) c fun x => { x with missed := x.missed ++ [k] } := by
  obtain ⟨port, active⟩ := serves
  obtain ⟨fresh, since, passed, area⟩ := due
  have buf : bufOf (deadlineHandled s c k) p c 1 k 0 = bufOf s p c 1 k 0 := rfl
  unfold dlReadyDeadline
  simp only [port, index]
  rw [if_neg (by simp [active, fresh, since, passed, area]), one]
  simp only [List.range_one, List.foldl_cons, List.foldl_nil]
  rw [← deadlineHandled, buf, dlBuf_deadlineHandled]
  split <;> rfl

theorem dlReadyDeadline_takes (c : CarrierId) (f j p : Nat) (k : Int) (s : State) (index : (fhTime s p c).symIndex f j = k)
    (serves : Serves s p c) (due : ReadyDue s p c k) (one : areaGroups s p c 1 = 1) :
    Does (.dlReadyDeadline c f j) s fun t => (t.cfh c).lastDead = some k ∧
      ((dlBuf s c (bufOf s p c 1 k 0)).ready = true →
        dlBuf t c (bufOf s p c 1 k 0) = { dlBuf s c (bufOf s p c 1 k 0) with ready := false, taken := some (k, 0) } ∧ t.ev = s.ev) ∧
      ((dlBuf s c (bufOf s p c 1 k 0)).ready = false → dlBuf t c (bufOf s p c 1 k 0) = dlBuf s c (bufOf s p c 1 k 0) ∧
        (¬ Covered s p c 1 k → (t.cfh c).missed = (s.cfh c).missed ++ [k] ∧ t.ev = s.ev) ∧
        (Covered s p c 1 k → mapGet? s.ev.rate (rateKey 0x0604 c) = none → Room 1 s → Queued t 2 p 0x0604)) ∧
      OtherCarriers s t c ∧ t.ports.ports = s.ports.ports ∧ SameExcept [.ports, .ev] s t := by
  refine ⟨_, congrArg Host.Outcome.next (dlReadyDeadline_one c f j p k s index serves due one), ?_⟩
  have handled : ((deadlineHandled s c k).cfh c).lastDead = some k := by simp [deadlineHandled]
  have step : CarrierStep c (fun x => (x.dl, x.missed)) s (deadlineHandled s c k) := carrierStep_modCfh s _ rfl
  split
  next ready =>
    have takes : CarrierStep c (·.lastDead) (deadlineHandled s c k) (setDlBuf (deadlineHandled s c k) c (bufOf s p c 1 k 0)
        { dlBuf s c (bufOf s p c 1 k 0) with ready := false, taken := some (k, 0) }) := carrierStep_modCfh _ _ rfl
    refine ⟨takes.kept.trans handled, fun _ => ⟨dlBuf_setDlBuf_self _ _ _ _, rfl⟩, fun unready => by simp [ready] at unready,
      fun j hj => (takes.others j hj).trans (step.others j hj), rfl, (step.only.trans takes.only).sameExcept_ports_ev rfl⟩
  next unready =>
    split
    next cov =>
      obtain ⟨reports, dma⟩ := txUnderrun_step (fun x => (x.lastDead, x.dl)) (deadlineHandled s c k) p c 0
      refine ⟨(reports.map Prod.fst).kept.trans handled, fun ready => absurd ready unready, fun _ => ⟨?_, fun no => absurd cov no,
        fun _ first room => ?_⟩, fun j hj => (reports.others j hj).trans (step.others j hj), reports.ports,
        (step.only.trans reports.only).sameExcept_ports_ev dma⟩
      · exact (congrArg (fun m : SMap TxBuf => mapGet m _ {}) (reports.map Prod.snd).kept).trans (dlBuf_deadlineHandled s c _ k)
      · exact txUnderrun_queued (deadlineHandled s c k) p c 0 first room
    next uncov =>
      have missed : CarrierStep c (fun x => (x.lastDead, x.dl)) (deadlineHandled s c k)
          (modCfh (deadlineHandled s c k) c fun x => { x with missed := x.missed ++ [k] }) := carrierStep_modCfh _ _ rfl
      refine ⟨(missed.map Prod.fst).kept.trans handled, fun ready => absurd ready unready, fun _ => ⟨?_, fun _ => ⟨?_, rfl⟩,
        fun cov => absurd cov uncov⟩, fun j hj => (missed.others j hj).trans (step.others j hj), rfl,
        (step.only.trans missed.only).sameExcept_ports_ev rfl⟩
      · exact (congrArg (fun m : SMap TxBuf => mapGet m _ {}) (missed.map Prod.snd).kept).trans (dlBuf_deadlineHandled s c _ k)
      · simp [deadlineHandled]

/-! ## The close of a transmit window (R136, R161) -/

/-- What the end of a frame does to its carrier: of the device only carriers' states change, and no window of this one. -/
structure FreesBuffers (c : Nat) (s t : State) : Prop where
  step : CarrierStep c (·.lastClose) s t
  carriers : ∃ m, t = { s with ports := { s.ports with carriers := m } }

section
variable {c : Nat} {s t u : State}

theorem FreesBuffers.refl (c : Nat) (s : State) : FreesBuffers c s s := ⟨.refl c _ s, _, rfl⟩

theorem FreesBuffers.trans (h : FreesBuffers c s t) (k : FreesBuffers c t u) : FreesBuffers c s u := by
  obtain ⟨step, m, rfl⟩ := h
  obtain ⟨step', m', rfl⟩ := k
  exact ⟨step.trans step', m', rfl⟩

theorem freesBuffers_modCfh (s : State) (f : CarrierFh → CarrierFh) (h : (f (s.cfh c)).lastClose = (s.cfh c).lastClose) :
    FreesBuffers c s (modCfh s c f) :=
  ⟨carrierStep_modCfh s f h, _, rfl⟩

end

theorem freesBuffers_setDlBuf (s : State) (c r : Nat) (b : TxBuf) : FreesBuffers c s (setDlBuf s c r b) :=
  freesBuffers_modCfh s _ rfl

theorem freesBuffers_dlFree (s : State) (c r : Nat) : FreesBuffers c s (dlFree s c r) := by
  obtain same | freed := dlFree_cases s c r
  · rw [same]
    exact .refl c s
  · rw [freed]
    exact freesBuffers_setDlBuf s c r _

theorem freesBuffers_frameDone (s : State) (f : TxFrame) : FreesBuffers f.carrier s (frameDone s f) := by
  unfold frameDone
  dsimp only
  split
  · exact .refl _ s
  · split
    · exact (freesBuffers_setDlBuf s _ _ _).trans (freesBuffers_dlFree _ _ _)
    · split
      · exact freesBuffers_modCfh s _ rfl
      · exact .refl _ s

/-- A U-plane frame of running symbol `k` of carrier `c`. -/
def ofSymbol (c : Nat) (k : Int) (g : TxFrame) : Bool := g.kind = 0 && g.carrier = c && g.sym = k

theorem freesBuffers_symbol (s : State) (c : Nat) (k : Int) (l : List TxFrame) :
    FreesBuffers c s ((l.filter (ofSymbol c k)).foldl frameDone s) :=
  List.foldlRecOn (motive := FreesBuffers c s) _ _ (.refl c s) fun t h g mem => by
    have carrier : g.carrier = c := by
      have := (List.mem_filter.mp mem).2
      simp only [ofSymbol, Bool.and_eq_true, decide_eq_true_eq] at this
      exact this.1.2
    exact h.trans (carrier ▸ freesBuffers_frameDone t g)

/-- The carrier has dealt with the close of the transmit window of symbol `k`. -/
def closeHandled (s : State) (c : Nat) (k : Int) : State := modCfh s c fun x => { x with lastClose := some k }

/-- The symbol's messages that wait on link `n` are gone (R161). -/
def dropSymbol (s : State) (p n c : Nat) (k : Int) : State :=
  modLink s p n fun x => { x with fh := x.fh.filter fun g => !ofSymbol c k g }

theorem eaxcOf_modEaxc_self (s : State) (x : Nat) (f : Eaxc → Eaxc) : eaxcOf (modEaxc s x f) x = f (eaxcOf s x) := by
  simp [eaxcOf, modEaxc, mapMod]

/-- At the close of a transmit window that is due, on a link that is up: a message of the symbol still being sent is late, and
those that wait are dropped. -/
theorem dlTxWindowClose_up (c f j p : Nat) (k : Int) (s : State) (index : (fhTime s p c).symIndex f j = k) (serves : Serves s p c)
    (fresh : above (s.cfh c).lastClose k = true) (due : (fhTime s p c).startOf k - s.paramPort p 0x0613 c ≤ s.localNow 0 p)
    (up : (s.link p (carrierLink s p c)).up = true) :
    ∃ u, (∃ eaxcs, u = { closeHandled s c k with ports := { (closeHandled s c k).ports with eaxcs := eaxcs } }) ∧
      (∀ g, (s.link p (carrierLink s p c)).sending = some g → ofSymbol c k g = true →
        (eaxcOf u g.eaxc).txLate = min ((eaxcOf s g.eaxc).txLate + 1) (2 ^ 32 - 1)) ∧
      dlTxWindowClose s c f j = ((s.link p (carrierLink s p c)).fh.filter (ofSymbol c k)).foldl frameDone
        (dropSymbol u p (carrierLink s p c) c k) := by
  obtain ⟨port, active⟩ := serves
  have due' : leadTime (fhTime s p c) k (s.paramPort p 0x0613 c) ≤ s.localNow 0 p := due
  have link : (closeHandled s c k).link p (carrierLink s p c) = s.link p (carrierLink s p c) := rfl
  unfold dlTxWindowClose
  simp only [port, index]
  rw [if_neg (by simp [active, fresh, due']), ← closeHandled, link, if_pos up]
  refine ⟨_, ?_, ?_, rfl⟩
  · split
    · split
      · exact ⟨_, rfl⟩
      · exact ⟨_, rfl⟩
    · exact ⟨_, rfl⟩
  · intro g sending mine
    unfold ofSymbol at mine
    simp only [sending, mine, if_true, eaxcOf_modEaxc_self]
    rfl

theorem dlTxWindowClose_drops (c : CarrierId) (f j p : Nat) (k : Int) (s : State) (index : (fhTime s p c).symIndex f j = k)
    (serves : Serves s p c) (fresh : above (s.cfh c).lastClose k = true)
    (due : (fhTime s p c).startOf k - s.paramPort p 0x0613 c ≤ s.localNow 0 p) (up : (s.link p (carrierLink s p c)).up = true) :
    Does (.dlTxWindowClose c f j) s fun t => (t.cfh c).lastClose = some k ∧
      t.link p (carrierLink s p c) = { s.link p (carrierLink s p c) with
        fh := (s.link p (carrierLink s p c)).fh.filter fun g => !(g.kind = 0 && g.carrier = c && g.sym = k) } ∧
      (∀ g, (s.link p (carrierLink s p c)).sending = some g → g.kind = 0 → g.carrier = c.val → g.sym = k →
        (eaxcOf t g.eaxc).txLate = min ((eaxcOf s g.eaxc).txLate + 1) (2 ^ 32 - 1)) ∧
      OtherCarriers s t c ∧ OtherPorts s t p ∧ SameExcept [.ports] s t := by
  obtain ⟨u, ⟨eaxcs, rfl⟩, late, closes⟩ := dlTxWindowClose_up c f j p k s index serves fresh due up
  refine ⟨_, congrArg Host.Outcome.next closes, ?_⟩
  have handled : ((closeHandled s c k).cfh c).lastClose = some k := by simp [closeHandled]
  have begins : CarrierStep c (·.dl) s (closeHandled s c k) := carrierStep_modCfh s _ rfl
  generalize dropped : dropSymbol { closeHandled s c k with ports := { (closeHandled s c k).ports with eaxcs := eaxcs } } p
    (carrierLink s p c) c k = d
  have only : FhOnly s d := dropped ▸ ⟨_, _, _, rfl⟩
  have quiet : d.ev = s.ev ∧ d.dma = s.dma := dropped ▸ ⟨rfl, rfl⟩
  have cfh (j : Nat) : d.cfh j = (closeHandled s c k).cfh j := dropped ▸ rfl
  have ports : OtherPorts s d p := dropped ▸ fun j hj => State.port_setPort_ne _ _ _ hj
  have link : d.link p (carrierLink s p c) = { s.link p (carrierLink s p c) with
      fh := (s.link p (carrierLink s p c)).fh.filter fun g => !ofSymbol c k g } := dropped ▸ State.link_setLink_self _ _ _ _
  have counts : d.ports.eaxcs = eaxcs := dropped ▸ rfl
  obtain ⟨frees, m, done⟩ := freesBuffers_symbol d c k (s.link p (carrierLink s p c)).fh
  have port (j : Nat) : (((s.link p (carrierLink s p c)).fh.filter (ofSymbol c k)).foldl frameDone d).port j = d.port j := by
    rw [State.port, State.port, frees.ports]
  refine ⟨frees.kept.trans ((congrArg _ (cfh c)).trans handled), ?_, fun g sending kind carrier sym => ?_,
    fun j hj => (frees.others j hj).trans ((cfh j).trans (begins.others j hj)), fun j hj => (port j).trans (ports j hj), ?_⟩
  · rw [State.link, port, ← State.link, link]
    rfl
  · rw [done, eaxcOf, counts]
    exact late g sending (by simp [ofSymbol, kind, carrier, sym])
  · exact (only.trans frees.only).sameExcept_ports (by rw [done]; exact quiet.1) (by rw [done]; exact quiet.2)

/-- Settles O16: a ready deadline takes the one group's buffer or counts a miss; an opening queues the group's messages on the link,
which is sending and so keeps them all; a close drops what waits, which frees buffers and touches no window. -/
theorem downlinkStaging : Obligations.DownlinkStaging := by
  refine ⟨fun p c r s ok free => ⟨_, congrArg Host.Outcome.next (doorbellDl_ready s p c r ok free), ?_⟩,
    fun p c r s bad => ⟨_, congrArg Host.Outcome.next (doorbellDl_bad s p c r bad), doorbellBad_counts s p⟩,
    dlReadyDeadline_takes, dlTxWindowOpen_zero, ?_, dlTxWindowClose_drops⟩
  · have step : CarrierStep c (·.ul) s (setDlBuf s c r { dlBuf s c r with ready := true }) := carrierStep_modCfh s _ rfl
    exact ⟨dlBuf_setDlBuf_self _ _ _ _, fun j hj => dlBuf_setDlBuf_ne _ _ _ hj, step.others, rfl, step.only.sameExcept_ports rfl rfl⟩
  · intro c f j p x st k s index serves due one cov taken notSafe sendable stream antenna _ valid used sending
    exact dlTxWindowOpen_staged c f j p x st k s index serves due one cov taken notSafe sendable stream antenna valid used sending

end Sys2Proof.Machine
end

section
namespace Sys2Proof.Machine

open Sys2Proof.Claims

/-! ## C-plane buffers: doorbell and ready deadline (R158, R162) -/

theorem Port.setLink_link (x : Port) (k : Nat) : x.setLink k (x.link k) = x := by
  match k with
  | 0 | 1 | 2 | _ + 3 => rfl

/-- Writing a link with what it holds changes no port. -/
theorem State.port_setLink_link (s : State) (p k j : Nat) : (s.setLink p k (s.link p k)).port j = s.port j := by
  by_cases h : j = p
  · rw [h, State.setLink, State.port_setPort_self, State.link, Port.setLink_link]
  · exact (State.setLink_frame s p k _).1 j h

/-- A ready doorbell on a link whose frames may all go on waiting readies a free buffer and counts any other. -/
theorem doorbellCp_sendable (s : State) (p c r : Nat) (sendable : Sendable s p (carrierLink s p c)) :
    doorbellCp s p c r =
      let u := s.setLink p (carrierLink s p c) (s.link p (carrierLink s p c))
      if !doorbellOk s p c 2 r || (cpBuf s c r).busy then doorbellBad u p
      else setCpBuf u c r { cpBuf s c r with ready := true } := by
  unfold doorbellCp
  rw [cpPurge_sendable s p _ sendable]
  rfl

theorem cpBuf_setCpBuf_self (s : State) (c r : Nat) (b : TxBuf) : cpBuf (setCpBuf s c r b) c r = b := by
  simp [cpBuf, setCpBuf]

theorem cpBuf_setCpBuf_ne (s : State) (c : Nat) {r j : Nat} (b : TxBuf) (h : j ≠ r) : cpBuf (setCpBuf s c r b) c j = cpBuf s c j := by
  simp [cpBuf, setCpBuf, h]

theorem setCpBuf_others (s : State) (c r : Nat) (b : TxBuf) : OtherCarriers s (setCpBuf s c r b) c :=
  fun _ hj => modCfh_cfh_ne s _ hj

theorem doorbellCplaneReady_readies (p : PortId) (c : Fin 65536) (r : Fin 64) (s : State) (ok : doorbellOk s p c 2 r = true)
    (free : (cpBuf s c r).busy = false) (sendable : Sendable s p (carrierLink s p c)) :
    Does (.doorbellCplaneReady p c r) s fun t => cpBuf t c r = { cpBuf s c r with ready := true } ∧
      (∀ j, j ≠ r.val → cpBuf t c j = cpBuf s c j) ∧ OtherCarriers s t c ∧ (∀ j, t.port j = s.port j) ∧ SameExcept [.ports] s t := by
  refine ⟨_, congrArg Host.Outcome.next ((doorbellCp_sendable s p c r sendable).trans (if_neg (by simp [ok, free]))), ?_⟩
  exact ⟨cpBuf_setCpBuf_self _ _ _ _, fun j hj => cpBuf_setCpBuf_ne _ _ _ hj, setCpBuf_others _ _ _ _,
    State.port_setLink_link s p _, FhOnly.sameExcept_ports ⟨_, _, _, rfl⟩ rfl rfl⟩

theorem doorbellCplaneReady_bad (p : PortId) (c : Fin 65536) (r : Fin 64) (s : State)
    (bad : doorbellOk s p c 2 r = false ∨ (cpBuf s c r).busy = true) (sendable : Sendable s p (carrierLink s p c)) :
    Does (.doorbellCplaneReady p c r) s fun t =>
      t.port p = { s.port p with doorbellBad := min ((s.port p).doorbellBad + 1) (2 ^ 32 - 1) } ∧ OtherPorts s t p ∧
      t.ports.carriers = s.ports.carriers ∧ SameExcept [.ports] s t := by
  refine ⟨_, congrArg Host.Outcome.next ((doorbellCp_sendable s p c r sendable).trans
    (if_pos (by obtain bad | busy := bad <;> simp [*]))), ?_⟩
  obtain ⟨counts, others, carriers, -⟩ := doorbellBad_counts (s.setLink p (carrierLink s p c) (s.link p (carrierLink s p c))) p
  rw [State.port_setLink_link] at counts
  exact ⟨counts, fun j hj => (others j hj).trans (State.port_setLink_link s p _ j), carriers,
    FhOnly.sameExcept_ports ⟨_, _, _, rfl⟩ rfl rfl⟩

/-- The carrier has dealt with the C-plane's ready deadline of slot `q`. -/
def cpDeadlineHandled (s : State) (c q : Nat) : State := modCfh s c fun x => { x with lastCpDead := some (q : Int) }

theorem cpBuf_cpDeadlineHandled (s : State) (c q r : Nat) : cpBuf (cpDeadlineHandled s c q) c r = cpBuf s c r := by
  simp [cpBuf, cpDeadlineHandled]

/-- At a C-plane ready deadline that is due, the slot's buffer is taken if it is ready, and reported if it is not. -/
theorem cplaneReadyDeadline_due (c q p : Nat) (s : State) (serves : Serves s p c) (area : areaBuffers s p c 2 ≠ 0)
    (fresh : above (s.cfh c).lastCpDead q = true) (since : ((s.cfh c).activeFrom : Int) ≤ cpDeadline s p c q)
    (passed : cpDeadline s p c q ≤ s.localNow 0 p) :
    cplaneReadyDeadline s c q =
      if (cpBuf s c (q % areaBuffers s p c 2)).ready = true then
        setCpBuf (cpDeadlineHandled s c q) c (q % areaBuffers s p c 2)
          { cpBuf s c (q % areaBuffers s p c 2) with ready := false, taken := some ((q : Int), 0) }
      else cplaneReject (cpDeadlineHandled s c q) p c 0xFFFF 2 := by
  obtain ⟨port, active⟩ := serves
  unfold cplaneReadyDeadline
  simp only [port]
  rw [if_neg (by simp [active, area, fresh, since, passed]), ← cpDeadlineHandled, cpBuf_cpDeadlineHandled]

theorem cplaneReadyDeadline_takes (c : CarrierId) (q p : Nat) (s : State) (serves : Serves s p c) (area : areaBuffers s p c 2 ≠ 0)
    (fresh : above (s.cfh c).lastCpDead q = true) (since : ((s.cfh c).activeFrom : Int) ≤ cpDeadline s p c q)
    (passed : cpDeadline s p c q ≤ s.localNow 0 p) :
    Does (.cplaneReadyDeadline c q) s fun t => (t.cfh c).lastCpDead = some (q : Int) ∧
      ((cpBuf s c (q % areaBuffers s p c 2)).ready = true → cpBuf t c (q % areaBuffers s p c 2) =
        { cpBuf s c (q % areaBuffers s p c 2) with ready := false, taken := some ((q : Int), 0) } ∧ t.ev = s.ev) ∧
      ((cpBuf s c (q % areaBuffers s p c 2)).ready = false → Room 1 s →
        cpBuf t c (q % areaBuffers s p c 2) = cpBuf s c (q % areaBuffers s p c 2) ∧
        Raised s t 2 p 0x0605 2 (leBytes 2 c ++ leBytes 2 0xFFFF ++ leBytes 1 2)) ∧
      OtherCarriers s t c ∧ t.ports.ports = s.ports.ports ∧ SameExcept [.ports, .ev] s t := by
  refine ⟨_, congrArg Host.Outcome.next (cplaneReadyDeadline_due c q p s serves area fresh since passed), ?_⟩
  have handled : ((cpDeadlineHandled s c q).cfh c).lastCpDead = some (q : Int) := by simp [cpDeadlineHandled]
  have step : CarrierStep c (·.cp) s (cpDeadlineHandled s c q) := carrierStep_modCfh s _ rfl
  split
  next ready =>
    have takes : CarrierStep c (·.lastCpDead) (cpDeadlineHandled s c q) (setCpBuf (cpDeadlineHandled s c q) c
        (q % areaBuffers s p c 2) { cpBuf s c (q % areaBuffers s p c 2) with ready := false, taken := some ((q : Int), 0) }) :=
      carrierStep_modCfh _ _ rfl
    exact ⟨takes.kept.trans handled, fun _ => ⟨cpBuf_setCpBuf_self _ _ _ _, rfl⟩, fun unready => by simp [ready] at unready,
      fun j hj => (takes.others j hj).trans (step.others j hj), rfl, (step.only.trans takes.only).sameExcept_ports_ev rfl⟩
  next unready =>
    have reports := carrierStep_portEvt c (fun x => (x.lastCpDead, x.cp)) (cpDeadlineHandled s c q) p 0x0605
      (leBytes 2 c ++ leBytes 2 0xFFFF ++ leBytes 1 2)
    refine ⟨(reports.map Prod.fst).kept.trans handled, fun ready => absurd ready unready, fun _ room => ⟨?_, ?_⟩,
      fun j hj => (reports.others j hj).trans (step.others j hj), reports.ports,
      (step.only.trans reports.only).sameExcept_ports_ev (raise_dma _ _ _ _ _)⟩
    · exact (congrArg (fun m : SMap TxBuf => mapGet m _ {}) (reports.map Prod.snd).kept).trans (cpBuf_cpDeadlineHandled s c q _)
    · exact raise_room (cpDeadlineHandled s c q) 2 p 0x0605 _ room

/-! ## The opening of the C-plane's transmit window (R148, R162) -/

/-- The frame of a C-plane record, under its context's next sequence number (R148). -/
def cplaneFrame (s : State) (p c x q buf : Nat) (body : List Byte) : TxFrame :=
  { kind := 1, bytes := fhFrame s p c (ecpriMsg s p x 2 (eaxcOf s x).txC body), carrier := c, eaxc := x, sym := q, buf := buf
    due := some (slotLead (fhTime s p c) q (s.paramPort p 0x0615 c)) }

/-- A record of a C-plane section type 0, 1 or 3 that fits a frame is sent while its window is open (R148, R162). -/
theorem cplaneRecord_sends (s : State) (p c x q buf : Nat) (body : List Byte)
    (open_ : s.localNow 0 p < slotLead (fhTime s p c) q (s.paramPort p 0x0615 c)) (notSafe : s.boot.devState ≠ 4)
    (context : x < 16384) (long : 6 ≤ body.length) (type : rd body 5 1 = 0 ∨ rd body 5 1 = 1 ∨ rd body 5 1 = 3)
    (fits : fhOverhead s p c + 4 + body.length ≤ s.paramPort p 0x0504 p) :
    cplaneRecord s p c q buf (x, body, false) = sendCplane s p c x q buf body := by
  have antenna : x ≠ 0xFFFF := by omega
  unfold cplaneRecord
  dsimp only
  rw [if_neg Bool.false_ne_true, if_neg antenna, if_neg (by simp [notSafe, open_]), if_neg (by simp; omega),
    if_neg (by simp; omega), if_neg (by omega)]

/-- A C-plane message of context `x` has taken its sequence number. -/
def cplaneNumbered (s : State) (x : Nat) : State := modEaxc s x fun e => { e with txC := (e.txC + 1) % 256 }

/-- A C-plane message has been counted with its context and with its buffer. -/
def cplaneCounted (s : State) (c x buf : Nat) : State :=
  setCpBuf (cplaneNumbered s x) c buf { cpBuf s c buf with sending := (cpBuf s c buf).sending + 1 }

theorem setCpBuf_step (s : State) (c r : Nat) (b : TxBuf) : CarrierStep c (·.lastCpOpen) s (setCpBuf s c r b) :=
  carrierStep_modCfh s _ rfl

theorem cplaneCounted_step (s : State) (c x buf : Nat) : CarrierStep c (·.lastCpOpen) s (cplaneCounted s c x buf) :=
  (carrierStep_modEaxc c _ s x _).trans (setCpBuf_step (cplaneNumbered s x) c buf _)

theorem cplaneCounted_counts (s : State) (c x buf : Nat) :
    (eaxcOf (cplaneCounted s c x buf) x).txC = ((eaxcOf s x).txC + 1) % 256 ∧
    (cpBuf (cplaneCounted s c x buf) c buf).sending = (cpBuf s c buf).sending + 1 := by
  constructor
  · exact congrArg Eaxc.txC (eaxcOf_modEaxc_self s x fun e => { e with txC := (e.txC + 1) % 256 })
  · rw [cplaneCounted, cpBuf_setCpBuf_self]

/-- A C-plane message for a link that is sending waits there. -/
theorem sendCplane_waits (s : State) (p c x q buf : Nat) (body : List Byte) (busy : Busy s p (carrierLink s p c))
    (open_ : s.localNow 0 p < slotLead (fhTime s p c) q (s.paramPort p 0x0615 c)) (notSafe : s.boot.devState ≠ 4) :
    let l := { s.link p (carrierLink s p c) with
      fh := (s.link p (carrierLink s p c)).fh ++ [cplaneFrame s p c x q buf body] }
    sendCplane s p c x q buf body =
      ((cplaneCounted s c x buf).setLink p (carrierLink s p c) l).setLink p (carrierLink s p c) l :=
  txQueue_waits (cplaneCounted s c x buf) p (carrierLink s p c) (cplaneFrame s p c x q buf body) one_le_two
    ⟨busy.sendable, busy.sending⟩ ⟨fun _ => ⟨notSafe, decide_eq_true open_⟩, fun uplane => absurd uplane Nat.one_ne_zero⟩

/-- The carrier has dealt with the opening of the C-plane's transmit window of slot `q`. -/
def cpOpenHandled (s : State) (c q : Nat) : State := modCfh s c fun x => { x with lastCpOpen := some (q : Int) }

theorem cpBuf_cpOpenHandled (s : State) (c q r : Nat) : cpBuf (cpOpenHandled s c q) c r = cpBuf s c r := by
  simp [cpBuf, cpOpenHandled]

/-- As its window opens, a taken buffer that holds one record has that record dealt with; a message of it that waits keeps the
buffer taken. -/
theorem cplaneTxWindowOpen_one (c q p : Nat) (s : State) (record : Nat × List Byte × Bool) (serves : Serves s p c)
    (area : areaBuffers s p c 2 ≠ 0) (fresh : above (s.cfh c).lastCpOpen q = true)
    (begun : slotLead (fhTime s p c) q (s.paramPort p 0x0614 c) ≤ s.localNow 0 p)
    (taken : (cpBuf s c (q % areaBuffers s p c 2)).taken = some ((q : Int), 0))
    (records : cplaneRecords 1024 (bytesRead 0 (s.port p).bank (bufAddr s p c 2 (q % areaBuffers s p c 2)) 4096) 0 = [record])
    (waits : (cpBuf (cplaneRecord (cpOpenHandled s c q) p c q (q % areaBuffers s p c 2) record) c
      (q % areaBuffers s p c 2)).sending ≠ 0) :
    cplaneTxWindowOpen s c q = cplaneRecord (cpOpenHandled s c q) p c q (q % areaBuffers s p c 2) record := by
  obtain ⟨port, active⟩ := serves
  have records' : cplaneRecords 1024 (bytesRead 0 ((cpOpenHandled s c q).port p).bank
      (bufAddr (cpOpenHandled s c q) p c 2 (q % areaBuffers s p c 2)) 4096) 0 = [record] := records
  unfold cplaneTxWindowOpen
  simp only [port]
  rw [if_neg (by simp [active, area, fresh, begun]), ← cpOpenHandled, cpBuf_cpOpenHandled, if_neg (by simp [taken]), records']
  exact if_neg waits

theorem cplaneTxWindowOpen_sends (c : CarrierId) (q p x : Nat) (body : List Byte) (s : State) (serves : Serves s p c)
    (area : areaBuffers s p c 2 ≠ 0) (fresh : above (s.cfh c).lastCpOpen q = true)
    (begun : slotLead (fhTime s p c) q (s.paramPort p 0x0614 c) ≤ s.localNow 0 p)
    (open_ : s.localNow 0 p < slotLead (fhTime s p c) q (s.paramPort p 0x0615 c)) (sendable : Sendable s p (carrierLink s p c))
    (taken : (cpBuf s c (q % areaBuffers s p c 2)).taken = some ((q : Int), 0)) (notSafe : s.boot.devState ≠ 4)
    (records : cplaneRecords 1024 (bytesRead 0 (s.port p).bank (bufAddr s p c 2 (q % areaBuffers s p c 2)) 4096) 0 =
      [(x, body, false)])
    (context : x < 16384) (long : 6 ≤ body.length) (type : rd body 5 1 = 0 ∨ rd body 5 1 = 1 ∨ rd body 5 1 = 3)
    (fits : fhOverhead s p c + 4 + body.length ≤ s.paramPort p 0x0504 p)
    (sending : (s.link p (carrierLink s p c)).sending.isSome = true) :
    Does (.cplaneTxWindowOpen c q) s fun t => (t.cfh c).lastCpOpen = some (q : Int) ∧
      (t.link p (carrierLink s p c)).fh = (s.link p (carrierLink s p c)).fh ++
        [cplaneFrame s p c x q (q % areaBuffers s p c 2) body] ∧
      (eaxcOf t x).txC = ((eaxcOf s x).txC + 1) % 256 ∧
      (cpBuf t c (q % areaBuffers s p c 2)).sending = (cpBuf s c (q % areaBuffers s p c 2)).sending + 1 ∧
      OtherCarriers s t c ∧ OtherPorts s t p ∧ SameExcept [.ports] s t := by
  have sends := (cplaneRecord_sends (cpOpenHandled s c q) p c x q (q % areaBuffers s p c 2) body open_ notSafe context long type
    fits).trans (sendCplane_waits (cpOpenHandled s c q) p c x q (q % areaBuffers s p c 2) body ⟨sendable, sending⟩ open_ notSafe)
  obtain ⟨numbered, waiting⟩ := cplaneCounted_counts (cpOpenHandled s c q) c x (q % areaBuffers s p c 2)
  have counted := cplaneCounted_step (cpOpenHandled s c q) c x (q % areaBuffers s p c 2)
  have begins : CarrierStep c (·.ul) s (cpOpenHandled s c q) := carrierStep_modCfh s _ rfl
  have handled : ((cpOpenHandled s c q).cfh c).lastCpOpen = some (q : Int) := by simp [cpOpenHandled]
  have opens := cplaneTxWindowOpen_one c q p s (x, body, false) serves area fresh begun taken records
    (by rw [sends]; exact waiting.trans_ne (Nat.succ_ne_zero _))
  refine ⟨_, congrArg Host.Outcome.next (opens.trans sends), counted.kept.trans handled, ?_, numbered, ?_,
    fun j hj => (counted.others j hj).trans (begins.others j hj), fun j hj => ?_, ?_⟩
  · exact congrArg Link.fh (State.link_setLink_self _ _ _ _)
  · exact waiting.trans (by rw [cpBuf_cpOpenHandled])
  · exact ((State.setLink_frame _ _ _ _).1 j hj).trans ((State.setLink_frame _ _ _ _).1 j hj)
  · exact FhOnly.sameExcept_ports ⟨_, _, _, rfl⟩ rfl rfl

/-- Settles O17: a doorbell's purge finds no frame to drop, a ready deadline takes the slot's buffer or reports it, and an opening
queues the one record on the link, which is sending and so keeps it. -/
theorem cplaneStaging : Obligations.CplaneStaging := by
  refine ⟨doorbellCplaneReady_readies, doorbellCplaneReady_bad, cplaneReadyDeadline_takes, ?_⟩
  intro c q p x body s serves area fresh begun open_ sendable taken notSafe records context long type fits _ sending
  exact cplaneTxWindowOpen_sends c q p x body s serves area fresh begun open_ sendable taken notSafe records context long type fits
    sending

end Sys2Proof.Machine
end

section
namespace Sys2Proof.Machine

open Sys2Proof.Claims

/-! ## Registers of a core, as they read (R173, R174) -/

theorem mapGet_putW {n : Nat} (m : SMap (BitVec n)) (k i : Nat) (v : BitVec n) :
    mapGet (putW m k v) i 0 = if i = k then v else mapGet m i 0 := by
  unfold putW mapGet
  by_cases hi : i = k
  · subst hi
    split <;> simp_all
  · split <;> simp [hi]

@[simp] theorem CoreRegs.getG_setG (r : CoreRegs) (i j : Nat) (x : W64) :
    (r.setG j x).getG i = if i = j then x else r.getG i := mapGet_putW _ _ _ _

theorem CoreRegs.getC_setC (r : CoreRegs) (i j v : Nat) :
    (r.setC j v).getC i = if i = j then v % 2 ^ 64 else r.getC i := by
  unfold CoreRegs.getC CoreRegs.setC
  rw [mapGet_putW]
  split <;> simp

theorem CoreRegs.getC_lt (r : CoreRegs) (i : Nat) : r.getC i < 2 ^ 64 := (mapGet r.ctl i 0).isLt

/-- What a program and the units can see of a core's registers. -/
structure Shown where
  g : Nat → W64
  c : Nat → Nat
  v : Nat → W512
  m : Nat → W512
  vl : Nat
  cmds : List UnitCmd
  demapRec : W64
  solveRec : W64

/-- A core's registers as they read, whatever maps hold them. -/
def CoreRegs.shown (r : CoreRegs) : Shown :=
  { g := r.getG, c := r.getC, v := r.getV, m := r.getM, vl := r.vl, cmds := r.cmds, demapRec := r.demapRec, solveRec := r.solveRec }

theorem CoreRegs.shown_setG (r : CoreRegs) (i : Nat) (x : W64) :
    (r.setG i x).shown = { r.shown with g := Function.update r.getG i x } := by
  have reads : (r.setG i x).getG = Function.update r.getG i x := by
    funext j
    simp [Function.update_apply]
  unfold CoreRegs.shown
  rw [reads]
  rfl

theorem CoreRegs.shown_setC (r : CoreRegs) (i v : Nat) : (r.setC i v).shown = { r.shown with c := (r.setC i v).getC } := rfl

/-- Memory errors that were not found are not counted. -/
theorem eccCount_shown (r : CoreRegs) : (eccCount r 0 0).shown = r.shown := by
  have reads : (eccCount r 0 0).getC = r.getC := by
    funext i
    have := r.getC_lt 0x17
    simp only [eccCount, CoreRegs.getC_setC, satAdd_32]
    split
    · subst_vars
      omega
    · rfl
  unfold eccCount at *
  rw [CoreRegs.shown_setC, reads]
  rfl

/-- A control register's write leaves the place of the next bundle and the results under way. -/
theorem CoreRegs.setC_place (r : CoreRegs) (i v : Nat) : (r.setC i v).pc = r.pc ∧ (r.setC i v).delay = r.delay ∧
    (r.setC i v).bseq = r.bseq ∧ (r.setC i v).inflight = r.inflight := ⟨rfl, rfl, rfl, rfl⟩

theorem eccCount_place (r : CoreRegs) (dm im : Nat) : (eccCount r dm im).pc = r.pc ∧ (eccCount r dm im).delay = r.delay ∧
    (eccCount r dm im).bseq = r.bseq ∧ (eccCount r dm im).inflight = r.inflight := CoreRegs.setC_place _ _ _

theorem setForward_shown (r : CoreRegs) (l : LongOp) : (setForward r l).shown = r.shown := by
  unfold setForward
  split
  · split
    · dsimp only
      split <;> rfl
    · rfl
  · rfl

@[simp] theorem getG_eccCount (r : CoreRegs) (i : Nat) : (eccCount r 0 0).getG i = r.getG i :=
  congrFun (congrArg Shown.g (eccCount_shown r)) i

@[simp] theorem getV_eccCount (r : CoreRegs) (i : Nat) : (eccCount r 0 0).getV i = r.getV i :=
  congrFun (congrArg Shown.v (eccCount_shown r)) i

@[simp] theorem getC_eccCount (r : CoreRegs) (i : Nat) : (eccCount r 0 0).getC i = r.getC i :=
  congrFun (congrArg Shown.c (eccCount_shown r)) i

@[simp] theorem demapRec_eccCount (r : CoreRegs) : (eccCount r 0 0).demapRec = r.demapRec :=
  congrArg Shown.demapRec (eccCount_shown r)

@[simp] theorem solveRec_eccCount (r : CoreRegs) : (eccCount r 0 0).solveRec = r.solveRec :=
  congrArg Shown.solveRec (eccCount_shown r)

/-! ## Results under way and results due (R182, R183) -/

theorem insertRes_filter_neg (p : Res → Bool) (l : List Res) (x : Res) (hx : p x = false) :
    (insertRes l x).filter p = l.filter p := by
  induction l with
  | nil => simp [insertRes, hx]
  | cons y t ih =>
    unfold insertRes
    split
    · simp [List.filter_cons, hx]
    · simp [List.filter_cons, ih]

theorem mem_insertRes (l : List Res) (x y : Res) : y ∈ insertRes l x ↔ y = x ∨ y ∈ l := by
  induction l with
  | nil => simp [insertRes]
  | cons z t ih =>
    unfold insertRes
    split
    · simp
    · simp only [List.mem_cons, ih]
      tauto

theorem insertRes_sorted (l : List Res) (x : Res) (h : l.Pairwise fun a b => a.from_ ≤ b.from_) :
    (insertRes l x).Pairwise fun a b => a.from_ ≤ b.from_ := by
  induction l with
  | nil => simp [insertRes]
  | cons y t ih =>
    obtain ⟨hy, ht⟩ := List.pairwise_cons.mp h
    unfold insertRes
    split
    · rename_i lt
      refine List.pairwise_cons.mpr ⟨fun z hz => ?_, h⟩
      rcases List.mem_cons.mp hz with rfl | hz
      · omega
      · have := hy z hz
        omega
    · refine List.pairwise_cons.mpr ⟨fun z hz => ?_, ih ht⟩
      rcases (mem_insertRes t x z).mp hz with rfl | hz
      · omega
      · exact hy z hz

/-- Among results of one bundle, a new one goes last. -/
theorem insertRes_filter_pos (p : Res → Bool) (l : List Res) (x : Res) (h : l.Pairwise fun a b => a.from_ ≤ b.from_)
    (hx : p x = true) (hl : ∀ y ∈ l, p y = true → y.from_ = x.from_) : (insertRes l x).filter p = l.filter p ++ [x] := by
  induction l with
  | nil => simp [insertRes, hx]
  | cons y t ih =>
    obtain ⟨hy, ht⟩ := List.pairwise_cons.mp h
    unfold insertRes
    split
    · rename_i lt
      have none : (y :: t).filter p = [] := by
        refine List.filter_eq_nil_iff.mpr fun z hz pz => ?_
        have same := hl z hz pz
        rcases List.mem_cons.mp hz with rfl | hz
        · omega
        · have := hy z hz
          omega
      rw [List.filter_cons, none]
      simp [hx]
    · simp only [List.filter_cons, ih ht fun z hz => hl z (List.mem_cons_of_mem _ hz)]
      split <;> simp

/-- Of the results of one bundle that join those under way, those that share a property stay in their order. -/
theorem foldl_insertRes_filter (p : Res → Bool) (n : Nat) (rs l : List Res) (h : l.Pairwise fun a b => a.from_ ≤ b.from_)
    (hl : ∀ y ∈ l, p y = true → y.from_ = n) (hr : ∀ y ∈ rs, p y = true → y.from_ = n) :
    (rs.foldl insertRes l).filter p = l.filter p ++ rs.filter p := by
  induction rs generalizing l with
  | nil => simp
  | cons x rs ih =>
    have joined : ∀ y ∈ insertRes l x, p y = true → y.from_ = n := by
      intro y hy
      rcases (mem_insertRes l x y).mp hy with rfl | hy
      · exact hr y List.mem_cons_self
      · exact hl y hy
    rw [List.foldl_cons, ih _ (insertRes_sorted l x h) joined fun y hy => hr y (List.mem_cons_of_mem _ hy), List.filter_cons]
    cases px : p x with
    | false => simp [insertRes_filter_neg p l x px]
    | true =>
      have same : ∀ y ∈ l, p y = true → y.from_ = x.from_ := fun y hy py =>
        (hl y hy py).trans (hr x List.mem_cons_self px).symm
      simp [insertRes_filter_pos p l x h px same]

/-- G registers with results written to them in turn. -/
def putG (g : Nat → W64) (rs : List Res) : Nat → W64 :=
  rs.foldl (fun f x => Function.update f x.dest (x.val.setWidth 64)) g

theorem applyRes_shown (r : CoreRegs) (x : Res) (h : x.dest < 32) :
    (applyRes r x).shown = { r.shown with g := Function.update r.getG x.dest (x.val.setWidth 64) } := by
  unfold applyRes
  rw [if_pos h, CoreRegs.shown_setG]

theorem foldl_applyRes_shown (rs : List Res) (r : CoreRegs) (h : ∀ x ∈ rs, x.dest < 32) :
    (rs.foldl applyRes r).shown = { r.shown with g := putG r.getG rs } := by
  induction rs generalizing r with
  | nil => rfl
  | cons x rs ih =>
    have shows := applyRes_shown r x (h x List.mem_cons_self)
    have reads : (applyRes r x).getG = Function.update r.getG x.dest (x.val.setWidth 64) := congrArg Shown.g shows
    rw [List.foldl_cons, ih _ fun y hy => h y (List.mem_cons_of_mem _ hy), shows, reads]
    rfl

/-- A result's arrival leaves the place of the next bundle, the results under way and the control registers. -/
theorem applyRes_place (r : CoreRegs) (x : Res) : (applyRes r x).pc = r.pc ∧ (applyRes r x).delay = r.delay ∧
    (applyRes r x).bseq = r.bseq ∧ (applyRes r x).inflight = r.inflight ∧ (applyRes r x).ctl = r.ctl := by
  unfold applyRes
  split
  · exact ⟨rfl, rfl, rfl, rfl, rfl⟩
  · split
    · exact ⟨rfl, rfl, rfl, rfl, rfl⟩
    · split <;> exact ⟨rfl, rfl, rfl, rfl, rfl⟩

theorem foldl_applyRes_place (rs : List Res) (r : CoreRegs) : (rs.foldl applyRes r).pc = r.pc ∧
    (rs.foldl applyRes r).delay = r.delay ∧ (rs.foldl applyRes r).bseq = r.bseq ∧ (rs.foldl applyRes r).inflight = r.inflight ∧
    (rs.foldl applyRes r).ctl = r.ctl := by
  induction rs generalizing r with
  | nil => exact ⟨rfl, rfl, rfl, rfl, rfl⟩
  | cons x rs ih =>
    obtain ⟨pc, delay, bseq, inflight, ctl⟩ := applyRes_place r x
    obtain ⟨pc', delay', bseq', inflight', ctl'⟩ := ih (applyRes r x)
    exact ⟨pc'.trans pc, delay'.trans delay, bseq'.trans bseq, inflight'.trans inflight, ctl'.trans ctl⟩

/-- Results that arrive write no control register. -/
theorem retireDue_getC (r : CoreRegs) (i : Nat) : (retireDue r).getC i = r.getC i := by
  obtain ⟨-, -, -, -, ctl⟩ := foldl_applyRes_place (r.inflight.filter fun x => decide (x.due ≤ r.bseq))
    { r with inflight := r.inflight.filter fun x => !decide (x.due ≤ r.bseq) }
  exact congrArg (fun m => (mapGet m i 0).toNat) ctl

end Sys2Proof.Machine
end

section
namespace Sys2Proof.Machine

open Sys2Proof.Claims

/-! ## Operations of one pass that go on to the next bundle (R170 to R178, R205) -/

/-- An operation that changes no control register, goes on to the bundle behind it, and is no unit command or wait. -/
def straight (o : FacetOp) : Bool :=
  match o with
  | .alu _ _ _ _ => true
  | .limm _ _ => true
  | .limmh _ _ => true
  | .mul _ _ _ _ => true
  | .scmul _ _ _ _ _ => true
  | .mfc _ _ => true
  | .load _ _ _ _ _ => true
  | .store _ _ _ _ => true
  | .vld _ _ _ => true
  | .vst _ _ _ => true
  | .vld2 _ _ _ _ _ _ => true
  | .vldst _ _ _ _ _ _ => true
  | .atomic _ _ _ _ _ _ => true
  | .vec _ _ _ _ _ _ _ => true
  | _ => false

/-- The registers of a core between two bundles, with nothing under way (as `QuietCore` says). -/
structure CoreRegs.Rests (r : CoreRegs) : Prop where
  fetches : r.pc < 0x8000 ∧ r.pc % 16 = 0
  delay : r.delay = none
  iterEnd : r.iterEnd = false
  flags : r.getC 0x15 = 0
  masked : r.getC 0x08 % 2 = 0
  vstart : r.getC 0x16 = 0
  inflight : r.inflight = []
  cmds : r.cmds = []
  macA : r.macA = none
  macB : r.macB = none
  slots : r.busy.length = 3 ∧ ∀ b ∈ r.busy, b ≤ r.bseq

theorem QuietCore.rests {s : State} {k : Nat} (h : QuietCore s k) : (s.core k).regs.Rests := by
  obtain ⟨-, -, ⟨low, aligned, delay, iter, flags, masked, vstart⟩, ⟨-, -, -, -, inflight, cmds, macA, macB⟩, slots, -⟩ := h
  exact ⟨⟨low, aligned⟩, delay, iter, flags, masked, vstart, inflight, cmds, macA, macB, slots⟩

theorem CoreRegs.Rests.setC {r : CoreRegs} (h : r.Rests) {i v : Nat} (reads : ∀ j, (r.setC i v).getC j = r.getC j) :
    (r.setC i v).Rests :=
  { h with flags := (reads _).trans h.flags, masked := by rw [reads]; exact h.masked, vstart := (reads _).trans h.vstart }

theorem CoreRegs.Rests.eccCount {r : CoreRegs} (h : r.Rests) : (eccCount r 0 0).Rests := h.setC (getC_eccCount r)

section
variable {r : CoreRegs} (h : r.Rests)
include h

theorem CoreRegs.Rests.depth : r.depth = 0 := by simp [CoreRegs.depth, h.flags]

theorem CoreRegs.Rests.anyClosed : r.anyClosed = false := by simp [CoreRegs.anyClosed, h.depth]

theorem CoreRegs.Rests.holdOn : r.holdOn = false := by simp [CoreRegs.holdOn, h.flags, bit]

/-- Outside every uninterruptible block the hold count stands (R195). -/
theorem CoreRegs.Rests.holdStep (q : CoreRegs) (pre cycles : Nat) : holdStep r q pre cycles = q := by
  simp [Machine.holdStep, h.holdOn, h.anyClosed]

/-- Every slot is free. -/
theorem CoreRegs.Rests.slot_free (i : Nat) : r.busy.getD i 0 ≤ r.bseq := by
  rw [List.getD_eq_getElem?_getD]
  cases e : r.busy[i]? with
  | none => simp
  | some b => exact h.slots.2 b (List.mem_of_getElem? e)

end

theorem placeIllegal_straight (r : CoreRegs) {o : FacetOp} (hs : straight o = true) : placeIllegal r o = false := by
  cases o <;> simp [straight] at hs <;> simp [placeIllegal, isRep, isBranch]

theorem barsElem_straight {o : FacetOp} (hs : straight o = true) : barsElem o = false := by
  cases o <;> simp [straight] at hs <;> rfl

theorem extended_slot {o : FacetOp} (ho : isExtended o = true) : slotOf o = 0 := by
  cases o <;> simp [isExtended] at ho <;> rfl

theorem slotOf_lt (o : FacetOp) : slotOf o < 4 := by
  have vector : ∀ sl : Bool, (if sl then 3 else 2) < 4 := by decide
  unfold slotOf
  split
  case h_14 sl _ _ _ _ _ _ => exact vector sl
  case h_15 sl _ _ _ _ _ => exact vector sl
  case h_16 sl _ _ _ _ _ => exact vector sl
  all_goals decide

theorem inOrder_one (o : FacetOp) : inOrder [o] = [o] := by
  have lt := slotOf_lt o
  have four : slotOf o = 0 ∨ slotOf o = 1 ∨ slotOf o = 2 ∨ slotOf o = 3 := by omega
  rcases four with e | e | e | e <;> simp [inOrder, List.range_succ, e]

theorem bundleIllegal_one {r : CoreRegs} (h : r.Rests) {o : FacetOp} (hs : straight o = true) : bundleIllegal r [] [o] = false := by
  have free := h.slot_free (slotOf o - 1)
  have slot : isExtended o = true → ¬ 3 = slotOf o := fun e => by simp [extended_slot e]
  have one : ¬ 1 < ([o].filter isElem).length := by
    have := List.length_filter_le isElem [o]
    simp only [List.length_singleton] at this
    omega
  unfold bundleIllegal
  simp only [placeIllegal_straight r hs, barsElem_straight hs, one, destClash, List.any_cons, List.any_nil, List.map_cons, List.map_nil,
    List.append_nil, decide_false, Bool.or_false, Bool.and_false, Bool.or_eq_false_iff, Bool.and_eq_false_iff, decide_eq_false_iff_not,
    Nat.not_lt]
  refine ⟨?_, .inr free⟩
  cases ext : isExtended o with
  | false => exact .inl rfl
  | true =>
    right
    simpa using slot ext

/-- Whether a straight operation is legal does not depend on the registers. -/
theorem opIllegal_straight (r q : CoreRegs) (tail : Nat) {o : FacetOp} (hs : straight o = true) :
    opIllegal r tail o = opIllegal q tail o := by
  cases o <;> simp [straight] at hs <;> rfl

theorem nextBundle_straight {r : CoreRegs} (h : r.Rests) (q : CoreRegs) (hq : q.getC 0x15 = 0) {o : FacetOp} (hs : straight o = true) :
    nextBundle r q [o] = { q with iterEnd := false, pc := r.pc + 16 } := by
  have depth : CoreRegs.depth { q with iterEnd := false } = 0 := by
    have : CoreRegs.getC { q with iterEnd := false } 0x15 = 0 := hq
    simp [CoreRegs.depth, this]
  have branch : branchTo r o = none := by cases o <;> simp [straight] at hs <;> rfl
  have rep : repOf r o = none := by cases o <;> simp [straight] at hs <;> rfl
  have eret : FacetOp.eret ≠ o := by
    rintro rfl
    simp [straight] at hs
  simp [nextBundle, eret, h.delay, branch, rep, repeatStep, depth]

theorem mtcStep_straight (r q : CoreRegs) {o : FacetOp} (hs : straight o = true) : mtcStep r q o = q := by
  cases o <;> simp [straight] at hs <;> rfl

/-! ## The stages of a quiet core's bundle (R172, R182, R217, R234) -/

theorem mapSet_mapSet {α : Type} (m : SMap α) (k : Nat) (v w : α) : mapSet (mapSet m k v) k w = mapSet m k w := by
  induction m with
  | nil => simp [mapSet]
  | cons e t ih =>
    obtain ⟨j, x⟩ := e
    simp only [mapSet]
    split
    · simp [mapSet]
    · rename_i ge
      split
      · simp [mapSet]
      · rename_i ne
        simp only [mapSet, if_neg ge, if_neg ne, ih]

@[simp] theorem State.setCore_setCore (s : State) (k : Nat) (c d : Core) : (s.setCore k c).setCore k d = s.setCore k d := by
  simp [State.setCore, mapSet_mapSet]

@[simp] theorem State.domainOn_setCore (s : State) (k d : Nat) (c : Core) : (s.setCore k c).domainOn d = s.domainOn d := rfl

theorem unitsBefore_idle (c : Core) (n : Nat) (h : c.regs.cmds = []) : unitsBefore c n = c := by
  simp [unitsBefore, h]

theorem runPasses_none (c : Core) (h : c.longs = []) : runPasses c = (c, none) := by
  have same : { c with longs := [] } = c := by rw [← h]
  simp [runPasses, h, same]

theorem takeable_masked {c : Core} (h : c.regs.getC 0x08 % 2 = 0) : takeable c = none := by
  simp [takeable, bit, h]

theorem wpHit_none {c : Core} (h : c.dbg.wp = [0, 0]) (as : List Access) : wpHit c as = none := by
  simp [wpHit, h, List.range_succ, bit]

theorem bpHit_none {c : Core} (h : c.dbg.bp = [0, 0, 0, 0]) : bpHit c = none := by
  simp [bpHit, h, List.range_succ]

/-- Nothing is kept back: stores go to memory at once. -/
theorem coreStore_now {c : Core} (h : c.snaps = []) (n : Nat) (mem : List (Nat × List Byte)) :
    coreStore c n mem = { c with dmem := mem.foldl (fun m w => bytesWrite 0 m w.1 w.2) c.dmem } := by
  simp [coreStore, h, writeKept, List.foldl_map]

theorem endStep_running {s : State} {k : Nat} (h : (s.core k).dbg.stepping = false) : endStep s k = s := by
  simp [endStep, h]

/-- A core that issues its next bundle undisturbed (the part of `QuietCore` that speaks of the core alone). -/
structure Core.Free (c : Core) : Prop where
  restoring : c.restoring = false
  waiting : c.waiting = false
  halted : c.dbg.halted = false
  requested : c.dbg.requested = false
  stepping : c.dbg.stepping = false
  skipBp : c.dbg.skipBp = false
  bp : c.dbg.bp = [0, 0, 0, 0]
  wp : c.dbg.wp = [0, 0]
  rests : c.regs.Rests
  longs : c.longs = []
  snaps : c.snaps = []
  kept : c.kept = []

theorem QuietCore.free {s : State} {k : Nat} (h : QuietCore s k) : (s.core k).Free := by
  have rests := h.rests
  obtain ⟨⟨restoring, waiting, -⟩, ⟨halted, requested, stepping, skip, bp, wp⟩, -, ⟨longs, snaps, kept, -⟩, -, -⟩ := h
  exact ⟨restoring, waiting, halted, requested, stepping, skip, bp, wp, rests, longs, snaps, kept⟩

theorem QuietCore.on {s : State} {k : Nat} (h : QuietCore s k) : s.domainOn (k / 16) = true := by
  obtain ⟨⟨-, -, on⟩, -⟩ := h
  exact on

theorem QuietCore.opened {s : State} {k : Nat} (h : QuietCore s k) : (s.core k).open_ = [] := by
  obtain ⟨-, -, -, ⟨-, -, -, opened, -⟩, -, -⟩ := h
  exact opened

theorem QuietCore.noBadWord {s : State} {k : Nat} (h : QuietCore s k) : (s.bank (bankKey 0 k)).bad = [] := by
  obtain ⟨-, -, -, -, -, bad⟩ := h
  exact bad

theorem CoreDbg.eta_running {d : CoreDbg} (halted : d.halted = false) (requested : d.requested = false)
    (stepping : d.stepping = false) (skip : d.skipBp = false) :
    ({ cause := d.cause, index := d.index, bp := d.bp, wp := d.wp, dxt := d.dxt } : CoreDbg) = d := by
  cases d
  simp_all

/-- A straight operation that is legal issues as a bundle of its own, and its effects follow. -/
theorem issueBundle_straight {s : State} {k : Nat} (h : (s.core k).Free) (on : s.domainOn (k / 16) = true) {o : FacetOp}
    (opened : (s.core k).open_ = [o]) (hs : straight o = true) (legal : opIllegal (s.core k).regs (s.core k).tail o = false) :
    issueBundle s k quietIssue =
      endStep (execOps (s.setCore k { s.core k with regs := eccCount (s.core k).regs 0 0 }) k quietIssue [] 0 [o]) k := by
  have rests := h.rests
  have ecc := rests.eccCount
  have legal' : opIllegal (eccCount (s.core k).regs 0 0) (s.core k).tail o = false := (opIllegal_straight _ _ _ hs).trans legal
  have wait : FacetOp.waitwork ≠ o := by
    rintro rfl
    simp [straight] at hs
  have fetches : ¬ (0x8000 ≤ (s.core k).regs.pc ∨ (s.core k).regs.pc % 16 ≠ 0) := by have := rests.fetches; omega
  have limit : (s.core k).regs.holdOver = false := by simp [CoreRegs.holdOver, rests.holdOn]
  have dbg := CoreDbg.eta_running h.halted h.requested h.stepping h.skipBp
  unfold issueBundle
  simp only [h.restoring, h.waiting, h.halted, on, h.requested, h.skipBp, h.stepping, bpHit_none h.bp, limit,
    unitsBefore_idle _ _ rests.cmds, takeable_masked rests.masked, runPasses_none _ h.longs, opened, inOrder_one, quietIssue]
  simp [fetches, bundleIllegal_one ecc hs, legal', wait, unitsBefore_idle, ecc.cmds, dbg, h.longs]
  -- what is left is the choice of DONEWORK, which no straight operation is
  cases o <;> simp [straight] at hs <;> rfl

end Sys2Proof.Machine
end

section
namespace Sys2Proof.Machine

open Sys2Proof.Claims

/-! ## What a bundle of one straight operation leaves (R172, R182, R204, R206) -/

/-- The registers `q` read as `r` do, with the results `rs` alone under way and no branch. -/
structure CoreRegs.Carries (r q : CoreRegs) (rs : List Res) : Prop where
  shown : q.shown = r.shown
  inflight : q.inflight = rs.foldl insertRes []
  delay : q.delay = none

theorem CoreRegs.Rests.carries {r : CoreRegs} (h : r.Rests) (rs : List Res) : r.Carries (r.addRes rs) rs :=
  ⟨rfl, by rw [addRes, h.inflight], h.delay⟩

theorem CoreRegs.Carries.busy {r q : CoreRegs} {rs : List Res} (h : r.Carries q rs) (b : List Nat) :
    r.Carries { q with busy := b } rs := ⟨h.shown, h.inflight, h.delay⟩

theorem CoreRegs.Carries.setForward {r q : CoreRegs} {rs : List Res} (h : r.Carries q rs) (l : LongOp) :
    r.Carries (setForward q l) rs := by
  have place : (Machine.setForward q l).inflight = q.inflight ∧ (Machine.setForward q l).delay = q.delay := by
    unfold Machine.setForward
    split
    · split
      · dsimp only
        split <;> exact ⟨rfl, rfl⟩
      · exact ⟨rfl, rfl⟩
    · exact ⟨rfl, rfl⟩
  exact ⟨(setForward_shown q l).trans h.shown, place.1.trans h.inflight, place.2.trans h.delay⟩

theorem CoreRegs.Carries.eccCount {r q : CoreRegs} {rs : List Res} (h : r.Carries q rs) : r.Carries (eccCount q 0 0) rs := by
  obtain ⟨-, delay, -, inflight⟩ := eccCount_place q 0 0
  exact ⟨(eccCount_shown q).trans h.shown, inflight.trans h.inflight, delay.trans h.delay⟩

/-- The registers `q` are `r` one bundle on, with the results `rs` put under way; those that are due have yet to arrive. -/
structure CoreRegs.Behind (r q : CoreRegs) (rs : List Res) : Prop where
  shown : q.shown = r.shown
  inflight : q.inflight = rs.foldl insertRes []
  pc : q.pc = r.pc + 16
  delay : q.delay = none
  bseq : q.bseq = r.bseq + 1

/-- Only the 32-bit local add draws a free value (R179). -/
def drawsFree (o : FacetOp) : Bool :=
  match o with
  | .atomic 4 _ _ _ _ _ => true
  | _ => false

/-- The cause that SYSC gives (R187). -/
def syscOf (o : FacetOp) : Option Nat :=
  match o with
  | .sysc v => some v.toNat
  | _ => none

theorem syscOf_straight {o : FacetOp} (hs : straight o = true) : syscOf o = none := by
  cases o <;> simp [straight] at hs <;> rfl

theorem bundleRun_one {r : CoreRegs} {o : FacetOp} (he : isElem o = false) : bundleRun r [o] = ([o], 0) := by
  simp [bundleRun, he]

theorem bundleEffs_one {s : State} {k : Nat} (bad : (s.bank (bankKey 0 k)).bad = []) {o : FacetOp} (he : isElem o = false) :
    bundleEffs s k quietIssue [] [o] = [(o, opEff s k [] [] 0 o)] := by
  simp [bundleEffs, bundleRun_one he, bad, quietIssue]

theorem firstExc_one {o : FacetOp} {e : OpEff} (exc : e.exc = none) : firstExc [(o, e)] = none := by
  simp [firstExc, exc]

/-- An operation whose passes are done leaves no long operation behind. -/
theorem noPassLeft {o : FacetOp} {e : OpEff} (passed : ∀ l, e.long = some l → l.pass = passCount o) :
    (e.long.bind fun l => if l.pass < passCount o then some l else none) = none := by
  cases el : e.long with
  | none => rfl
  | some l => simp [passed l el]

/-- The effects of one straight operation that raises nothing: its results are under way, its stores are made, and the next
bundle follows. -/
theorem execOps_straight {s : State} {k : Nat} (h : (s.core k).Free) (bad : (s.bank (bankKey 0 k)).bad = []) {o : FacetOp}
    (hs : straight o = true) (he : isElem o = false) {e : OpEff} (eff : opEff s k [] [] 0 o = e) (exc : e.exc = none)
    (passed : ∀ l, e.long = some l → l.pass = passCount o) :
    ∃ q cyc starve fab free, (s.core k).regs.Behind q (e.res ++ e.post) ∧ (s.core k).cycle < cyc ∧
      (isPlain o = false → fab = s.fab) ∧ (drawsFree o = false → free = s.freeCount) ∧
      execOps s k quietIssue [] 0 [o] =
        { s.setCore k { s.core k with
            regs := retireDue q, dmem := e.mem.foldl (fun m w => bytesWrite 0 m w.1 w.2) (s.core k).dmem
            cycle := cyc, starve := starve, open_ := [] } with fab := fab, freeCount := free } := by
  have rests := h.rests
  unfold execOps
  extract_lets c r n vst ops start es reads s0 counted blocks accs r1 busy ls trapping sysc
  have hops : ops = [o] := congrArg Prod.fst (bundleRun_one he)
  have hes : es = [(o, e)] := (bundleEffs_one bad he).trans (by rw [eff])
  have hls : ls = [] := by simp [ls, hes, noPassLeft passed]
  have htr : trapping = [] := by simp [trapping, hls]
  have hsysc : sysc = none := by
    rw [show sysc = ops.findSome? syscOf from rfl, hops]
    simp [syscOf_straight hs]
  have hstall : isPlain o = false → blocks = 0 := fun plain => by simp [blocks, hops, plainBlocks, plain]
  have hs0 : s0 = s := by
    simp only [s0, quietIssue]
    split <;> rfl
  -- the stall of the bundle's plain accesses, whatever it is
  generalize hst : (if blocks = 0 then (0, 0, false) else accessStall s0 k blocks 0 quietIssue.fabWait) = st
  obtain ⟨stall, starve, gave⟩ := st
  dsimp -zeta only
  rw [hes, firstExc_one exc]
  dsimp -zeta only
  extract_lets accept cycles r2 r3 r4 r5 c1 c2 c3 r6 r7 r8 c5 s1 b s2 s3
  have carries1 : r.Carries r1 (e.res ++ e.post) := by
    simp only [r1, hes, List.flatMap_cons, List.flatMap_nil, List.append_nil]
    exact rests.carries _
  have hr2 : r2 = r1 := by
    rw [show r2 = ops.foldl accept r1 from rfl, hops]
    cases o <;> simp [straight] at hs <;> rfl
  have hr3 : r3 = r1 := by rw [← hr2]; exact if_neg (fun ne => ne rests.vstart)
  have carries4 : r.Carries r4 (e.res ++ e.post) := by
    simp only [r4, hr3]
    exact carries1.busy busy
  have carries5 : r.Carries r5 (e.res ++ e.post) := by
    simp only [r5, List.foldl_cons, List.foldl_nil]
    split
    · split
      · exact carries4.setForward _
      · exact carries4
    · exact carries4
  have hc2 : c2 = { c with starve := starve } := by simp only [c2, htr, c1, hls, List.append_nil]
  have hc3 : c3 = { c with regs := r5, dmem := e.mem.foldl (fun m w => bytesWrite 0 m w.1 w.2) c.dmem, starve := starve } := by
    simp only [c3, hc2, List.flatMap_cons, List.flatMap_nil, List.append_nil]
    rw [coreStore_now (by exact h.snaps)]
  have passes : runPasses c3 = (c3, none) := runPasses_none _ (by rw [hc3]; exact h.longs)
  have carries6 : r.Carries r6 (e.res ++ e.post) := by
    rw [show r6 = counted (runPasses c3).1.regs from rfl, passes, hc3]
    simp only [counted, quietIssue, List.length_nil]
    split
    · exact carries5.eccCount
    · exact carries5
  have flags : r6.getC 0x15 = 0 := (congrFun (congrArg Shown.c carries6.shown) _).trans rests.flags
  have hr8 : r8 = { r6 with iterEnd := false, pc := r.pc + 16, bseq := r.bseq + 1 } := by
    simp only [r8, r7, hops, List.foldl_cons, List.foldl_nil, mtcStep_straight _ _ hs]
    rw [rests.holdStep, nextBundle_straight rests _ flags hs]
  have behind : r.Behind r8 (e.res ++ e.post) := by
    rw [hr8]
    exact ⟨carries6.shown, carries6.inflight, rfl, carries6.delay, rfl⟩
  have core3 : s3.core k = c5 := by
    have same : s3.facet = s1.facet := by
      simp only [s3, s2]
      split <;> split <;> rfl
    rw [State.core, same]
    exact State.core_setCore_self s0 k c5
  have limit : (s3.core k).regs.holdOver = false := by
    have zero : (retireDue r8).getC 0x15 = 0 := by rw [retireDue_getC, hr8]; exact flags
    rw [core3]
    simp [CoreRegs.holdOver, CoreRegs.holdOn, c5, zero, bit]
  refine ⟨r8, c.cycle + cycles, starve, s3.fab, s3.freeCount, behind, ?_, ?_, ?_, ?_⟩
  · simp only [cycles, c]
    omega
  · intro plain
    rw [if_pos (hstall plain)] at hst
    obtain ⟨-, -, rfl⟩ : 0 = stall ∧ 0 = starve ∧ false = gave := by simpa using hst
    have kept2 : s2.fab = s.fab := by rw [← hs0]; rfl
    rw [← kept2]
    simp only [s3]
    split <;> rfl
  · intro draws
    have kept2 : s2.freeCount = s.freeCount := by
      rw [← hs0]
      simp only [s2]
      split <;> rfl
    have none_draws : (ops.any drawsFree) = false := by simp [hops, draws]
    exact (congrArg State.freeCount (if_neg (ne_true_of_eq_false none_draws))).trans kept2
  · have one : s1 = s.setCore k { s.core k with
        regs := retireDue r8, dmem := e.mem.foldl (fun m w => bytesWrite 0 m w.1 w.2) (s.core k).dmem
        cycle := (s.core k).cycle + cycles, starve := starve, open_ := [] } := by
      simp only [s1, hs0, c5, passes]
      rw [hc3]
      simp only [c, h.waiting]
    have two : s3 = { s1 with fab := s3.fab, freeCount := s3.freeCount } := by
      simp only [s3, s2]
      split <;> split <;> rfl
    rw [passes, limit, hsysc, wpHit_none (c := c) h.wp, ← one]
    exact two

end Sys2Proof.Machine
end

section
namespace Sys2Proof.Machine

open Sys2Proof.Claims

/-! ## A quiet core after one straight operation (R170, R182) -/

/-- Of the results `rs` that bundle `n` puts under way, `due` arrive before the next bundle, all in G registers, and `late` do
not. -/
structure Timed (n : Nat) (rs late due : List Res) : Prop where
  stays : rs.filter (fun x => !decide (x.due ≤ n + 1)) = late
  arrives : rs.filter (fun x => decide (x.due ≤ n + 1)) = due
  lateFrom : ∀ x ∈ late, x.from_ = n
  dueFrom : ∃ f, ∀ x ∈ due, x.from_ = f
  dueDest : ∀ x ∈ due, x.dest < 32

theorem foldl_insertRes_filter_eq (p : Res → Bool) (n : Nat) (rs : List Res) (h : ∀ x ∈ rs.filter p, x.from_ = n) :
    (rs.foldl insertRes []).filter p = rs.filter p := by
  have new : ∀ y ∈ rs, p y = true → y.from_ = n := fun y hy py => h y (List.mem_filter.mpr ⟨hy, py⟩)
  simpa using foldl_insertRes_filter p n rs [] List.Pairwise.nil (by simp) new

/-- The registers that the next bundle finds. -/
theorem CoreRegs.Behind.retireDue {r q : CoreRegs} {rs late due : List Res} (h : r.Behind q rs) (ht : Timed r.bseq rs late due) :
    (retireDue q).shown = { r.shown with g := putG r.getG due } ∧ (retireDue q).inflight = late ∧
      (retireDue q).pc = r.pc + 16 ∧ (retireDue q).delay = none ∧ (retireDue q).bseq = r.bseq + 1 := by
  obtain ⟨f, due_from⟩ := ht.dueFrom
  have arrive : q.inflight.filter (fun x => decide (x.due ≤ q.bseq)) = due := by
    rw [h.inflight, h.bseq, foldl_insertRes_filter_eq _ f _ (by rw [ht.arrives]; exact due_from), ht.arrives]
  have stay : q.inflight.filter (fun x => !decide (x.due ≤ q.bseq)) = late := by
    rw [h.inflight, h.bseq, foldl_insertRes_filter_eq _ r.bseq _ (by rw [ht.stays]; exact ht.lateFrom), ht.stays]
  have eq : Machine.retireDue q = due.foldl applyRes { q with inflight := late } := by
    unfold Machine.retireDue
    rw [arrive, stay]
  obtain ⟨pc, delay, bseq, inflight, -⟩ := foldl_applyRes_place due { q with inflight := late }
  have reads : CoreRegs.getG { q with inflight := late } = r.getG := congrArg Shown.g h.shown
  rw [eq]
  refine ⟨?_, inflight, pc.trans h.pc, delay.trans h.delay, bseq.trans h.bseq⟩
  rw [foldl_applyRes_shown due _ ht.dueDest, reads]
  exact congrArg (fun (x : Shown) => { x with g := putG r.getG due }) h.shown

/-- Core `k` ran the bundle of `o` alone: the results `due` have arrived, `late` are under way, and the stores `mem` are made. -/
structure RanOne (s t : State) (k : Nat) (o : FacetOp) (late due : List Res) (mem : List (Nat × List Byte)) : Prop where
  ran : Ran s t k
  shown : (t.core k).regs.shown = { (s.core k).regs.shown with g := putG (s.core k).regs.getG due }
  inflight : (t.core k).regs.inflight = late
  next : NextAt t k ((s.core k).regs.pc + 16) none
  dmem : (t.core k).dmem = mem.foldl (fun m w => bytesWrite 0 m w.1 w.2) (s.core k).dmem
  frame : SameExcept [.facet, .fab, .free] s t
  fab : isPlain o = false → t.fab = s.fab
  free : drawsFree o = false → t.freeCount = s.freeCount

/-- Core `k` with the bundle of one operation put together and its checks passed. -/
def issued (s : State) (k : Nat) (o : FacetOp) : State :=
  s.setCore k { s.core k with open_ := [o], regs := eccCount (s.core k).regs 0 0 }

@[simp] theorem core_issued (s : State) (k : Nat) (o : FacetOp) :
    (issued s k o).core k = { s.core k with open_ := [o], regs := eccCount (s.core k).regs 0 0 } := State.core_setCore_self _ _ _

theorem free_issued {s : State} {k : Nat} (h : (s.core k).Free) (o : FacetOp) : ((issued s k o).core k).Free := by
  rw [core_issued]
  exact { h with rests := h.rests.eccCount }

/-- The one operation of a bundle, from its command to its effects. -/
theorem facetOp_issues {s : State} {k : Nat} (h : QuietCore s k) {o : FacetOp} (hs : straight o = true)
    (legal : opIllegal (s.core k).regs (s.core k).tail o = false) :
    facetOp s k (some quietIssue) o = endStep (execOps (issued s k o) k quietIssue [] 0 [o]) k := by
  have free := h.free
  have issue := issueBundle_straight (s := s.setCore k { s.core k with open_ := [o] }) (k := k) (o := o)
    (by rw [State.core_setCore_self]; exact { free with }) h.on (by rw [State.core_setCore_self]) hs
    (by rw [State.core_setCore_self]; exact legal)
  rw [State.core_setCore_self, State.setCore_setCore] at issue
  unfold facetOp
  simp only [h.opened, List.any_nil, List.nil_append, Bool.false_eq_true, if_false]
  rw [if_neg (by simp [free.restoring, free.waiting, free.halted, h.on])]
  exact (if_pos rfl).trans issue

/-- The rule that a straight operation's statement rests on: its effect `e`, timed, is all that its bundle does. -/
theorem facetOp_straight {s : State} {k : Nat} (h : QuietCore s k) {o : FacetOp} (hs : straight o = true) (he : isElem o = false)
    (legal : opIllegal (s.core k).regs (s.core k).tail o = false) {e : OpEff} (eff : opEff (issued s k o) k [] [] 0 o = e)
    (exc : e.exc = none) (passed : ∀ l, e.long = some l → l.pass = passCount o) {late due : List Res}
    (timed : Timed (s.core k).regs.bseq (e.res ++ e.post) late due) :
    RanOne s (facetOp s k (some quietIssue) o) k o late due e.mem := by
  obtain ⟨q, cyc, starve, fab, free, behind, later, hfab, hfree, runs⟩ := execOps_straight (free_issued h.free o) h.noBadWord hs he eff exc passed
  obtain ⟨pc, -, bseq, -⟩ := eccCount_place (s.core k).regs 0 0
  have behind' : CoreRegs.Behind (s.core k).regs q (e.res ++ e.post) := by
    rw [core_issued] at behind
    exact ⟨behind.shown.trans (eccCount_shown _), behind.inflight, behind.pc.trans (by rw [pc]), behind.delay,
      behind.bseq.trans (by rw [bseq])⟩
  obtain ⟨shown, inflight, pc, delay, bseq⟩ := behind'.retireDue timed
  rw [core_issued, issued, State.setCore_setCore] at runs
  generalize ht : execOps _ k quietIssue [] 0 [o] = t at runs
  have core_t : t.core k = { s.core k with
      regs := retireDue q, dmem := e.mem.foldl (fun m w => bytesWrite 0 m w.1 w.2) (s.core k).dmem, cycle := cyc, starve := starve
      open_ := [] } := by
    rw [runs]
    exact State.core_setCore_self s k _
  have stays : facetOp s k (some quietIssue) o = t := by
    rw [facetOp_issues h hs legal, issued, ht]
    exact endStep_running (by rw [core_t]; exact h.free.stepping)
  have others : ∀ j, j ≠ k → t.core j = s.core j := by
    intro j hj
    rw [runs]
    exact State.core_setCore_ne s k _ hj
  rw [stays]
  rw [core_issued] at later
  refine ⟨⟨?_, ?_, ?_, others, ?_⟩, ?_, ?_, ⟨?_, ?_⟩, ?_, ?_, fun plain => ?_, fun draws => ?_⟩
  · rw [core_t]; simp only [h.opened]
  · rw [core_t]; exact bseq
  · rw [core_t]; exact later
  · rw [runs]; rfl
  · rw [core_t]; exact shown
  · rw [core_t]; exact inflight
  · rw [core_t]; exact pc
  · rw [core_t]; exact delay
  · rw [core_t]
  · rw [runs]; simp [SameExcept]
  · rw [runs]; exact hfab plain
  · rw [runs]; exact hfree draws

end Sys2Proof.Machine
end

section
namespace Sys2Proof.Machine

open Sys2Proof.Claims

/-! ## What the statements say of such a bundle -/

@[simp] theorem bseq_eccCount (r : CoreRegs) (dm im : Nat) : (eccCount r dm im).bseq = r.bseq := by
  obtain ⟨-, -, bseq, -⟩ := eccCount_place r dm im
  exact bseq

@[simp] theorem pc_eccCount (r : CoreRegs) (dm im : Nat) : (eccCount r dm im).pc = r.pc := (eccCount_place r dm im).1

/-- Every register but those that `due` writes reads as before. -/
theorem RanOne.regsKept {s t : State} {k : Nat} {o : FacetOp} {late due : List Res} {mem : List (Nat × List Byte)}
    (h : RanOne s t k o late due mem) (idle : (s.core k).regs.cmds = []) {g : List Nat}
    (kept : ∀ i, i ∉ g → putG (s.core k).regs.getG due i = (s.core k).regs.getG i) : RegsKept s t k g [] late := by
  have shown := h.shown
  exact ⟨fun i hi => (congrFun (congrArg Shown.g shown) i).trans (kept i hi), fun i _ => congrFun (congrArg Shown.c shown) i,
    congrFun (congrArg Shown.v shown), congrFun (congrArg Shown.m shown), congrArg Shown.vl shown, h.inflight,
    (congrArg Shown.cmds shown).trans idle, congrArg Shown.demapRec shown, congrArg Shown.solveRec shown⟩

theorem RanOne.getG {s t : State} {k : Nat} {o : FacetOp} {late due : List Res} {mem : List (Nat × List Byte)}
    (h : RanOne s t k o late due mem) (i : Nat) : (t.core k).regs.getG i = putG (s.core k).regs.getG due i :=
  congrFun (congrArg Shown.g h.shown) i

theorem RanOne.sameExcept {s t : State} {k : Nat} {o : FacetOp} {late due : List Res} {mem : List (Nat × List Byte)}
    (h : RanOne s t k o late due mem) (l : List Part) (facet : .facet ∈ l) (fab : .fab ∈ l ∨ isPlain o = false)
    (free : .free ∈ l ∨ drawsFree o = false) : SameExcept l s t := by
  have frame := h.frame
  simp only [SameExcept, List.mem_cons, List.not_mem_nil, or_false, reduceCtorEq, false_or] at frame
  obtain ⟨time, host, cfg, ev, test, lanes, ports, -, mill, clove, -, mem, dma, pool, power, boot, proul, -, pending⟩ := frame
  exact ⟨.inr time, .inr host, .inr cfg, .inr ev, .inr test, .inr lanes, .inr ports, .inl facet, .inr mill, .inr clove,
    fab.imp_right h.fab, .inr mem, .inr dma, .inr pool, .inr power, .inr boot, .inr proul, free.imp_right h.free, pending⟩

/-- A scalar operation that raises nothing and stores nothing gives one G register result. -/
def oneG (n lat : Nat) (d : Fin 32) (v : W64) : OpEff := { res := [{ resG (n + lat) d v with from_ := n }] }

theorem resG_setWidth (v : W64) : (v.setWidth 512).setWidth 64 = v := by
  rw [BitVec.setWidth_setWidth_of_le _ (by omega), BitVec.setWidth_eq]

theorem timed_oneG_now (n : Nat) (d : Fin 32) (v : W64) :
    Timed n ((oneG n 1 d v).res ++ (oneG n 1 d v).post) [] [{ resG (n + 1) d v with from_ := n }] :=
  { stays := by simp [oneG, resG], arrives := by simp [oneG, resG], lateFrom := by simp, dueFrom := ⟨n, by simp⟩
    dueDest := by simp [resG] }

theorem timed_oneG_late (n lat : Nat) (d : Fin 32) (v : W64) (late : 1 < lat) :
    Timed n ((oneG n lat d v).res ++ (oneG n lat d v).post) [{ resG (n + lat) d v with from_ := n }] [] :=
  { stays := by simp [oneG, resG, late], arrives := by simp [oneG, resG, late], lateFrom := by simp, dueFrom := ⟨n, by simp⟩
    dueDest := by simp }

section
variable {s : State} {k : Nat} (h : QuietCore s k) {i : Instr} {o : FacetOp}
  (runs : exec i s = .next (facetOp s k (some quietIssue) o)) (hs : straight o = true) (he : isElem o = false)
  (legal : opIllegal (s.core k).regs (s.core k).tail o = false) (plain : isPlain o = false) (draws : drawsFree o = false)
include h runs hs he legal plain draws

theorem givesG_of_oneG {d : Fin 32} {v : W64} (eff : opEff (issued s k o) k [] [] 0 o = oneG (s.core k).regs.bseq 1 d v) :
    GivesG i s k d v := by
  have ran := facetOp_straight h hs he legal eff rfl (by simp [oneG]) (timed_oneG_now _ d v)
  refine ⟨_, runs, ran.ran, ?_, ran.regsKept h.rests.cmds fun j hj => ?_, ran.next, ran.dmem,
    ran.sameExcept _ (by simp) (.inr plain) (.inr draws)⟩
  · rw [ran.getG]
    simp [putG, resG]
  · have ne : j ≠ d := by simpa using hj
    simp [putG, resG, ne]

theorem givesLate_of_oneG {d : Fin 32} {v : W64} {lat : Nat} (late : 1 < lat)
    (eff : opEff (issued s k o) k [] [] 0 o = oneG (s.core k).regs.bseq lat d v) :
    GivesLate i s k fun l => l = [lateG s k lat d v] := by
  have ran := facetOp_straight h hs he legal eff rfl (by simp [oneG]) (timed_oneG_late _ lat d v late)
  refine ⟨_, runs, ran.ran, ran.inflight, ?_, ran.next, ran.dmem, ran.sameExcept _ (by simp) (.inr plain) (.inr draws)⟩
  rw [ran.inflight]
  exact ran.regsKept h.rests.cmds fun j _ => rfl

end

/-! ## The integer ALU (R176) -/

theorem aluOp_min (x y : W64) : aluOp .min x y = if BitVec.slt y x then y else x := by
  simp only [aluOp, BitVec.slt, decide_eq_true_eq, ← Int.not_lt, ite_not]

theorem aluOp_max (x y : W64) : aluOp .max x y = if BitVec.slt x y then y else x := by
  rcases lt_trichotomy x.toInt y.toInt with lt | eq | gt
  · simp [aluOp, BitVec.slt, lt, lt.le]
  · simp [aluOp, BitVec.slt, BitVec.eq_of_toInt_eq eq]
  · simp [aluOp, BitVec.slt, gt.not_ge, gt.le]

theorem aluOp_minu (x y : W64) : aluOp .minu x y = if y < x then y else x := by
  simp only [aluOp, BitVec.lt_def, ← Nat.not_lt, ite_not]

theorem aluOp_maxu (x y : W64) : aluOp .maxu x y = if x < y then y else x := by
  rcases lt_trichotomy x.toNat y.toNat with lt | eq | gt
  · simp [aluOp, BitVec.lt_def, lt, lt.le]
  · simp [aluOp, BitVec.eq_of_toNat_eq eq]
  · simp [aluOp, BitVec.lt_def, gt.not_ge, gt.le]

/-- A comparison gives 1 or 0. -/
theorem ofNat_b2n (p : Prop) [Decidable p] : BitVec.ofNat 64 (b2n (decide p)) = if p then 1 else 0 := by
  by_cases hp : p <;> simp [b2n, hp]

theorem aluOp_ror (x y : W64) : aluOp .ror x y = (x >>> (y.toNat % 64)) ||| (x <<< (64 - y.toNat % 64)) := by
  have lt : y.toNat % 64 < 64 := Nat.mod_lt _ (by decide)
  exact (BitVec.rotateRight_def).trans (by rw [Nat.mod_eq_of_lt lt])

end Sys2Proof.Machine
end

section
namespace Sys2Proof.Machine

open Sys2Proof.Claims

theorem clz64_spec (x : W64) : clz64 x.toNat ≤ 64 ∧ (∀ i < 64, 64 - clz64 x.toNat ≤ i → x.getLsbD i = false) ∧
    (clz64 x.toNat < 64 → x.getLsbD (63 - clz64 x.toNat) = true) := by
  unfold clz64
  by_cases zero : x.toNat = 0
  · have : x = 0 := BitVec.eq_of_toNat_eq zero
    simp [this]
  · have log : x.toNat.log2 < 64 := (Nat.log2_lt zero).mpr x.isLt
    rw [if_neg zero]
    refine ⟨by omega, fun i hi le => ?_, fun _ => ?_⟩
    · exact Nat.testBit_lt_two_pow (Nat.lt_log2_self.trans_le (Nat.pow_le_pow_right (by decide) (by omega)))
    · rw [show 63 - (63 - x.toNat.log2) = x.toNat.log2 by omega]
      exact Nat.testBit_log2 zero

theorem bit_eq_getLsbD (x : W64) (i : Nat) : bit x.toNat i = x.getLsbD i := by
  rw [bit, BitVec.getLsbD, Nat.testBit_eq_decide_div_mod_eq]

theorem foldl_b2n {α : Type} (p : α → Bool) (l : List α) (n : Nat) :
    l.foldl (fun a i => a + b2n (p i)) n = n + (l.filter p).length := by
  induction l generalizing n with
  | nil => rfl
  | cons i l ih =>
    rw [List.foldl_cons, ih, List.filter_cons]
    cases p i <;> simp [b2n]
    omega

theorem popcount_64 (x : W64) : popcount 64 x.toNat = ((List.range 64).filter fun i => x.getLsbD i).length := by
  simp only [popcount, bit_eq_getLsbD]
  rw [foldl_b2n, Nat.zero_add]

theorem ofSigned_toInt {n : Nat} (w : Nat) (v : BitVec n) : ofSigned w v.toInt = (v.signExtend w).toNat := by
  simp [ofSigned, BitVec.signExtend, BitVec.toNat_ofInt]

theorem limmh_value (g : W64) (v : BitVec 31) :
    BitVec.ofNat 64 (g.toNat % 2 ^ 32 + ofSigned 32 v.toInt * 2 ^ 32) = v.signExtend 32 ++ g.setWidth 32 := by
  have low : g.toNat % 2 ^ 32 < 2 ^ 32 := Nat.mod_lt _ (by decide)
  have high := (v.signExtend 32).isLt
  apply BitVec.eq_of_toNat_eq
  rw [ofSigned_toInt, BitVec.toNat_append, BitVec.toNat_setWidth, ← Nat.shiftLeft_add_eq_or_of_lt low, Nat.shiftLeft_eq,
    BitVec.toNat_ofNat, Nat.mod_eq_of_lt (by omega), Nat.add_comm]

section
variable (s : State) (k : Nat) (d a b : Fin 32)

theorem opEff_alu (p : AluOp) (y : Src2) : opEff (issued s k (.alu p d a y)) k [] [] 0 (.alu p d a y) =
    oneG (s.core k).regs.bseq 1 d (aluOp p ((s.core k).regs.getG a) (src2 (s.core k).regs y)) := by
  cases y <;> simp [opEff, oneG, src2, imm9, BitVec.signExtend]

theorem opEff_limm (v : BitVec 31) : opEff (issued s k (.limm d v)) k [] [] 0 (.limm d v) =
    oneG (s.core k).regs.bseq 1 d (v.signExtend 64) := by
  simp [opEff, oneG, BitVec.signExtend]

theorem opEff_limmh (v : BitVec 31) : opEff (issued s k (.limmh d v)) k [] [] 0 (.limmh d v) =
    oneG (s.core k).regs.bseq 1 d (v.signExtend 32 ++ ((s.core k).regs.getG d).setWidth 32) := by
  rw [← limmh_value]
  simp [opEff, oneG]

theorem opEff_mul (p : MulOp) : opEff (issued s k (.mul p d a b)) k [] [] 0 (.mul p d a b) =
    oneG (s.core k).regs.bseq 2 d (mulOp p ((s.core k).regs.getG a) ((s.core k).regs.getG b)) := by
  simp [opEff, oneG]

theorem opEff_scmul (cj : Bool) (m : BitVec 9) (trap : modTrap m = false) :
    opEff (issued s k (.scmul cj d a b m)) k [] [] 0 (.scmul cj d a b m) =
      oneG (s.core k).regs.bseq 1 d (BitVec.ofNat 64 (cmulQ15 cj (modRound m) true (((s.core k).regs.getG a).toNat % 2 ^ 32)
        (((s.core k).regs.getG b).toNat % 2 ^ 32)).1) := by
  simp [opEff, oneG, trap]

/-- MFC reads the control registers of the bundle's start. -/
theorem readCtl_issued (o : FacetOp) (c : Nat) : readCtl (issued s k o) k c = readCtl s k c := by
  unfold readCtl
  split
  · have cluster : (issued s k o).cluster (k / 16) = s.cluster (k / 16) := rfl
    simp [coreCfg, cluster]
  · simp [ipend]
  · simp
  · simp

theorem opEff_mfc (c : BitVec 6) : opEff (issued s k (.mfc d c)) k [] [] 0 (.mfc d c) =
    oneG (s.core k).regs.bseq 1 d (BitVec.ofNat 64 (readCtl s k c.toNat)) := by
  simp [opEff, oneG, readCtl_issued]

end

/-- The effect of an ALU operation is its value in `Gd`. -/
theorem givesG_alu {s : State} {k : Nat} (h : QuietCore s k) (p : AluOp) (d a : Fin 32) (y : Src2) {i : Instr}
    (runs : exec i s = .next (facetOp s k (some quietIssue) (.alu p d a y))) :
    GivesG i s k d (aluOp p ((s.core k).regs.getG a) (src2 (s.core k).regs y)) :=
  givesG_of_oneG h runs rfl rfl rfl rfl rfl (opEff_alu s k d a p y)

theorem givesLate_mul {s : State} {k : Nat} (h : QuietCore s k) (p : MulOp) (d a b : Fin 32) {i : Instr}
    (runs : exec i s = .next (facetOp s k (some quietIssue) (.mul p d a b))) :
    GivesLate i s k fun l => l = [lateG s k 2 d (mulOp p ((s.core k).regs.getG a) ((s.core k).regs.getG b))] :=
  givesLate_of_oneG h runs rfl rfl rfl rfl rfl (by decide) (opEff_mul s k d a b p)

/-- Settles O19: every operation is `aluOp` of its two operands, or an immediate, and `aluOp` is the value that R176 gives. -/
theorem scalarAlu : Obligations.ScalarAlu := by
  intro k d a b s h q x y n
  have alu := fun (p : AluOp) (y : Src2) (i : Instr) (v : W64) runs (value : aluOp p x (src2 (s.core k).regs y) = v) =>
    value ▸ givesG_alu h p d a y (i := i) runs
  obtain ⟨clz_le, clz_low, clz_high⟩ := clz64_spec x
  refine ⟨alu .add b _ _ rfl rfl, alu .sub b _ _ rfl rfl, alu .and b _ _ rfl rfl, alu .or b _ _ rfl rfl, alu .xor b _ _ rfl rfl,
    alu .andn b _ _ rfl rfl, alu .shl b _ _ rfl rfl, alu .shr b _ _ rfl rfl, alu .sar b _ _ rfl rfl,
    alu .ror b _ _ rfl (aluOp_ror x y), alu .min b _ _ rfl (aluOp_min x y), alu .max b _ _ rfl (aluOp_max x y),
    alu .minu b _ _ rfl (aluOp_minu x y), alu .maxu b _ _ rfl (aluOp_maxu x y), alu .cmpeq b _ _ rfl (ofNat_b2n _),
    alu .cmpne b _ _ rfl ?_, alu .cmplt b _ _ rfl ?_, alu .cmple b _ _ rfl ?_, alu .cmpltu b _ _ rfl (ofNat_b2n _),
    alu .cmpleu b _ _ rfl (ofNat_b2n _),
    ⟨clz64 x.toNat, clz_le, clz_low, clz_high, alu .clz (.imm 0) _ _ rfl rfl⟩, alu .popc (.imm 0) _ _ rfl ?_, fun v => ⟨?_, ?_⟩⟩
  · exact (ofNat_b2n _).trans (ite_not _ _ _)
  · exact (ofNat_b2n _).trans (if_congr (by simp [BitVec.slt]; rfl) rfl rfl)
  · exact (ofNat_b2n _).trans (if_congr (by simp [BitVec.sle]; rfl) rfl rfl)
  · exact congrArg (BitVec.ofNat 64) (popcount_64 x)
  · exact givesG_of_oneG h rfl rfl rfl rfl rfl rfl (opEff_limm s k d v)
  · exact givesG_of_oneG h rfl rfl rfl rfl rfl rfl (opEff_limmh s k d v)

/-- Settles O20: the multiplies are `mulOp` two bundles on; the complex product and MFC are there for the next bundle. -/
theorem scalarMultiply : Obligations.ScalarMultiply := by
  intro k d a b s h q x y
  refine ⟨givesLate_mul h .mul d a b rfl, givesLate_mul h .mulh d a b rfl, givesLate_mul h .mulhu d a b rfl,
    fun m round trap => ⟨?_, ?_⟩, fun c low => ?_⟩
  · exact givesG_of_oneG h (o := .scmul false d a b m) rfl rfl rfl (decide_eq_false round) rfl rfl (opEff_scmul s k d a b false m trap)
  · exact givesG_of_oneG h (o := .scmul true d a b m) rfl rfl rfl (decide_eq_false round) rfl rfl (opEff_scmul s k d a b true m trap)
  · exact givesG_of_oneG h (o := .mfc d c) rfl rfl rfl (decide_eq_false (by omega)) rfl rfl (opEff_mfc s k d c)

end Sys2Proof.Machine
end

section
namespace Sys2Proof.Machine

open Sys2Proof.Claims

/-! ## Bytes of a memory, written and read back (R7, R197) -/

theorem byteAt_byteSet (d : Byte) (m : Bytes) (a j : Nat) (b : Byte) :
    byteAt d (byteSet d m a b) j = if j = a then b else byteAt d m j := by
  unfold byteAt byteSet mapGet
  by_cases hj : j = a
  · subst hj
    split <;> simp_all
  · split <;> simp [hj]

theorem byteAt_bytesWrite (d : Byte) (bs : List Byte) (m : Bytes) (a j : Nat) :
    byteAt d (bytesWrite d m a bs) j = if a ≤ j ∧ j < a + bs.length then bs.getD (j - a) d else byteAt d m j := by
  induction bs generalizing m a with
  | nil =>
    rw [if_neg (by simp)]
    rfl
  | cons b bs ih =>
    rw [bytesWrite, ih, byteAt_byteSet, List.length_cons]
    rcases lt_trichotomy j a with lt | rfl | gt
    · rw [if_neg (by omega), if_neg (by omega), if_neg (by omega)]
    · rw [if_neg (by omega), if_pos rfl, if_pos (by omega), Nat.sub_self, List.getD_cons_zero]
    · obtain ⟨i, rfl⟩ : ∃ i, j = a + 1 + i := ⟨j - (a + 1), by omega⟩
      rw [show a + 1 + i - (a + 1) = i by omega, show a + 1 + i - a = i + 1 by omega, List.getD_cons_succ]
      by_cases le : i < bs.length
      · rw [if_pos (by omega), if_pos (by omega)]
      · rw [if_neg (by omega), if_neg (by omega), if_neg (by omega)]

theorem bytesRead_bytesWrite (d : Byte) (m : Bytes) (a : Nat) (bs : List Byte) :
    bytesRead d (bytesWrite d m a bs) a bs.length = bs := by
  refine List.ext_getElem (by simp [bytesRead]) fun i _ hi => ?_
  simp [bytesRead, byteAt_bytesWrite, hi]

theorem leBytes_mod (n v : Nat) : leBytes n (v % 256 ^ n) = leBytes n v := by
  induction n generalizing v with
  | zero => rfl
  | succ n ih =>
    have low : v % 256 ^ (n + 1) % 256 = v % 256 := Nat.mod_mod_of_dvd _ (Dvd.intro_left (256 ^ n) (pow_succ 256 n).symm)
    have high : v % 256 ^ (n + 1) / 256 = v / 256 % 256 ^ n := by
      rw [pow_succ, Nat.mul_comm, Nat.mod_mul_right_div_self]
    rw [leBytes, leBytes, high, ih]
    congr 1
    exact BitVec.eq_of_toNat_eq low

theorem storedOnly_of_dmem {s t : State} {k e : Nat} {bs : List Byte} (h : (t.core k).dmem = bytesWrite 0 (s.core k).dmem e bs) :
    StoredOnly s t k e bs := by
  rw [StoredOnly, h]
  refine ⟨bytesRead_bytesWrite _ _ _ _, fun j hj => ?_⟩
  rw [byteAt_bytesWrite, if_neg (by omega)]

/-! ## Address forms (R177) -/

@[simp] theorem formAddr_eccCount (r : CoreRegs) (a : Nat) (f : AddrForm) (n : Nat) :
    formAddr (eccCount r 0 0) a f n = formAddr r a f n := by
  cases f <;> simp [formAddr]

@[simp] theorem formPost_eccCount (r : CoreRegs) (n a : Nat) (f : AddrForm) :
    formPost (eccCount r 0 0) n a f = formPost r n a f := by
  cases f <;> simp [formPost]

theorem mem_formPost {r : CoreRegs} {n : Nat} {a : Fin 32} {f : AddrForm} {x : Res} (h : x ∈ formPost r n a f) :
    x.due ≤ n + 1 ∧ x.from_ = 0 ∧ x.dest < 32 := by
  cases f with
  | off v => cases h
  | postImm v =>
    obtain rfl := List.mem_singleton.mp h
    exact ⟨le_rfl, rfl, a.isLt⟩
  | postReg b =>
    obtain rfl := List.mem_singleton.mp h
    exact ⟨le_rfl, rfl, a.isLt⟩

/-- A post-increment leaves `baseAfter` in the base; the offset form has none. -/
theorem putG_formPost (r : CoreRegs) (n : Nat) (a : Fin 32) (f : AddrForm) (g : Nat → W64) (base : g a = r.getG a) :
    putG g (formPost r n a f) = Function.update g a (baseAfter r a f) := by
  cases f with
  | off v => exact (Function.update_eq_self_iff.mpr base.symm).symm
  | postImm v => simp only [putG, formPost, resG, List.foldl_cons, List.foldl_nil, resG_setWidth]; rfl
  | postReg b => simp only [putG, formPost, resG, List.foldl_cons, List.foldl_nil, resG_setWidth]; rfl

/-- Results of the bundle that come later, and post-increments. -/
theorem timed_posts {n : Nat} {ls ps : List Res} (late : ∀ x ∈ ls, n + 1 < x.due ∧ x.from_ = n)
    (posts : ∀ x ∈ ps, x.due ≤ n + 1 ∧ x.from_ = 0 ∧ x.dest < 32) : Timed n (ls ++ ps) ls ps := by
  have wait : ∀ x ∈ ls, ¬ x.due ≤ n + 1 := fun x hx => Nat.not_le.mpr (late x hx).1
  refine ⟨?_, ?_, fun x hx => (late x hx).2, ⟨0, fun x hx => (posts x hx).2.1⟩, fun x hx => (posts x hx).2.2⟩
  · rw [List.filter_append, List.filter_eq_self.mpr (by simpa using wait), List.filter_eq_nil_iff.mpr, List.append_nil]
    simpa using fun x hx => (posts x hx).1
  · rw [List.filter_append, List.filter_eq_nil_iff.mpr (by simpa using wait), List.filter_eq_self.mpr, List.nil_append]
    simpa using fun x hx => (posts x hx).1

theorem RanOne.ranMem {s t : State} {k n : Nat} {o : FacetOp} {late : List Res} {a : Fin 32} {f : AddrForm}
    {mem : List (Nat × List Byte)} (h : RanOne s t k o late (formPost (s.core k).regs n a f) mem) (idle : (s.core k).regs.cmds = []) :
    RanMem s t k a (baseAfter (s.core k).regs a f) := by
  have base := putG_formPost (s.core k).regs n a f _ rfl
  refine ⟨h.ran, ?_, ?_, h.next⟩
  · rw [h.getG, base, Function.update_self]
  · rw [h.inflight]
    refine h.regsKept idle fun i hi => ?_
    have ne : i ≠ a := by simpa using hi
    rw [base, Function.update_of_ne ne]

/-! ## Accesses that raise nothing (R177, R188, R232) -/

theorem accessExc_none (as : List Access) (h : ∀ x ∈ as, x.addr + x.len ≤ 0x40000 ∧ x.base % x.align = 0) :
    accessExc [] false as = none := by
  have clean : ∀ ws : List Nat, (ws.find? fun w => ([] : List Nat).contains w) = none := fun ws =>
    List.find?_eq_none.mpr (by simp)
  induction as with
  | nil => rfl
  | cons x as ih =>
    obtain ⟨low, aligned⟩ := h x List.mem_cons_self
    have rest := ih fun y hy => h y (List.mem_cons_of_mem _ hy)
    simp only [accessExc, clean, ite_self, Bool.false_eq_true, if_false, ne_eq] at rest ⊢
    rw [List.foldl_cons]
    simpa only [if_neg (Nat.not_lt.mpr low), aligned, not_true_eq_false, if_false] using rest

/-- A load, a store or a local atomic of consecutive bytes (R177 to R179). -/
def isLdSt (o : FacetOp) : Bool :=
  match o with
  | .load _ _ _ _ _ => true
  | .store _ _ _ _ => true
  | .vld _ _ _ => true
  | .vst _ _ _ => true
  | .vld2 _ _ _ _ _ _ => true
  | .vldst _ _ _ _ _ _ => true
  | .atomic _ _ _ _ _ _ => true
  | _ => false

theorem opEff_ldSt (s : State) (k : Nat) {o : FacetOp} (ho : isLdSt o = true)
    (reach : ∀ x ∈ accesses (s.core k).regs 1 o, x.addr + x.len ≤ 0x40000 ∧ x.base % x.align = 0) :
    opEff s k [] [] 0 o = memEff s k (s.core k).regs.bseq o (accesses (s.core k).regs 1 o) s.freeCount := by
  have clean := accessExc_none _ reach
  cases o <;> simp [isLdSt] at ho <;>
    simp only [opEff, slotOf, accAct, isElem, ne_eq, not_true_eq_false, Bool.false_eq_true, if_false, clean]

end Sys2Proof.Machine
end

section
namespace Sys2Proof.Machine

open Sys2Proof.Claims

/-! ## Loads, stores and atomics of the core's own memory (R177 to R179) -/

theorem toSigned_eq_toInt {w : Nat} (hw : 0 < w) (v : Nat) : toSigned w v = (BitVec.ofNat w v).toInt := by
  obtain ⟨n, rfl⟩ : ∃ n, w = n + 1 := ⟨w - 1, by omega⟩
  rw [toSigned, BitVec.toInt_eq_toNat_cond, BitVec.toNat_ofNat, Nat.add_sub_cancel, pow_succ]
  split <;> split <;> omega

theorem ofNat_ofSigned (z : Int) : BitVec.ofNat 64 (ofSigned 64 z) = BitVec.ofInt 64 z :=
  BitVec.eq_of_toNat_eq <| by
    rw [ofSigned, BitVec.toNat_ofInt, BitVec.toNat_ofNat]
    omega

/-- What a scalar load puts into its register: the bytes read, sign-extended or not. -/
def loadValue (sz : Nat) (sg : Bool) (x : Nat) : W64 := BitVec.ofNat 64 (if sg then ofSigned 64 (toSigned (8 * sz) x) else x)

theorem loadValue_signed {sz : Nat} (hs : 0 < sz) (x : Nat) : loadValue sz true x = (BitVec.ofNat (8 * sz) x).signExtend 64 := by
  rw [loadValue, if_pos rfl, ofNat_ofSigned, toSigned_eq_toInt (by omega)]
  rfl

theorem view_issued {s : State} {k : Nat} (kept : (s.core k).kept = []) (o : FacetOp) : ((issued s k o).core k).view = (s.core k).dmem := by
  simp [Core.view, kept, writeKept]

section
variable {s : State} {k : Nat} (h : QuietCore s k)
include h

theorem opEff_load (sz : Nat) (sg : Bool) (d a : Fin 32) (f : AddrForm) (low : InDmem (formAddr (s.core k).regs a f sz) sz)
    (aligned : formAddr (s.core k).regs a f sz % sz = 0) :
    opEff (issued s k (.load sz sg d a f)) k [] [] 0 (.load sz sg d a f) =
      { res := [lateG s k 3 d (loadValue sz sg (memNum s k (formAddr (s.core k).regs a f sz) sz))] ++
          formPost (s.core k).regs (s.core k).regs.bseq a f } := by
  rw [opEff_ldSt _ _ rfl (by simpa [accesses] using ⟨low, aligned⟩)]
  simp only [memEff, accesses, view_issued h.free.kept]
  simp only [core_issued, formAddr_eccCount, formPost_eccCount, bseq_eccCount]
  rfl

omit h in
theorem opEff_store (sz : Nat) (v a : Fin 32) (f : AddrForm) (low : InDmem (formAddr (s.core k).regs a f sz) sz)
    (aligned : formAddr (s.core k).regs a f sz % sz = 0) :
    opEff (issued s k (.store sz v a f)) k [] [] 0 (.store sz v a f) =
      { res := formPost (s.core k).regs (s.core k).regs.bseq a f
        mem := [(formAddr (s.core k).regs a f sz, leBytes sz ((s.core k).regs.getG v).toNat)] } := by
  rw [opEff_ldSt _ _ rfl (by simpa [accesses] using ⟨low, aligned⟩)]
  simp only [memEff, accesses, core_issued, formAddr_eccCount, formPost_eccCount, bseq_eccCount, getG_eccCount]

/-- What an atomic returns: 32 bits of memory below a free half, or 64 bits (R179). -/
def atomicValue (s : State) (sz old : Nat) : W64 :=
  BitVec.ofNat 64 (if sz = 4 then old + Config.freeNat s.freeCount % 2 ^ 32 * 2 ^ 32 else old)

theorem opEff_atomic (sz : Nat) (sw : Bool) (d a : Fin 32) (f : AddrForm) (v : Fin 32)
    (low : InDmem (formAddr (s.core k).regs a f sz) sz) (aligned : formAddr (s.core k).regs a f sz % sz = 0) :
    opEff (issued s k (.atomic sz sw d a f v)) k [] [] 0 (.atomic sz sw d a f v) =
      { res := [lateG s k 3 d (atomicValue s sz (memNum s k (formAddr (s.core k).regs a f sz) sz))] ++
          formPost (s.core k).regs (s.core k).regs.bseq a f
        mem := [(formAddr (s.core k).regs a f sz, leBytes sz (if sw then ((s.core k).regs.getG v).toNat
          else memNum s k (formAddr (s.core k).regs a f sz) sz + ((s.core k).regs.getG v).toNat))] } := by
  rw [opEff_ldSt _ _ rfl (by simpa [accesses] using ⟨low, aligned⟩)]
  simp only [memEff, accesses, view_issued h.free.kept]
  simp only [core_issued, formAddr_eccCount, formPost_eccCount, bseq_eccCount, getG_eccCount]
  rfl

variable {i : Instr} {sz : Nat} {a : Fin 32} {f : AddrForm} (low : InDmem (formAddr (s.core k).regs a f sz) sz)
  (aligned : formAddr (s.core k).regs a f sz % sz = 0)
include low aligned

theorem load_does {sg : Bool} {d : Fin 32} (runs : exec i s = .next (facetOp s k (some quietIssue) (.load sz sg d a f))) :
    Does i s fun t => RanMem s t k a (baseAfter (s.core k).regs a f) ∧
      (t.core k).regs.inflight = [lateG s k 3 d (loadValue sz sg (memNum s k (formAddr (s.core k).regs a f sz) sz))] ∧
      DmemKept s t k ∧ SameExcept [.facet] s t := by
  have ran := facetOp_straight h rfl rfl rfl (opEff_load h sz sg d a f low aligned) rfl (by simp)
    (by rw [List.append_nil]; exact timed_posts (by simp [lateG]) fun x => mem_formPost)
  exact ⟨_, runs, ran.ranMem h.rests.cmds, ran.inflight, ran.dmem, ran.sameExcept _ (by simp) (.inr rfl) (.inr rfl)⟩

theorem store_does {v : Fin 32} (runs : exec i s = .next (facetOp s k (some quietIssue) (.store sz v a f))) :
    Does i s fun t => RanMem s t k a (baseAfter (s.core k).regs a f) ∧ (t.core k).regs.inflight = [] ∧
      StoredOnly s t k (formAddr (s.core k).regs a f sz) (leBytes sz ((s.core k).regs.getG v).toNat) ∧ SameExcept [.facet] s t := by
  have ran := facetOp_straight h rfl rfl rfl (opEff_store sz v a f low aligned) rfl (by simp)
    (by rw [List.append_nil]; exact timed_posts (ls := []) (by simp) fun x => mem_formPost)
  exact ⟨_, runs, ran.ranMem h.rests.cmds, ran.inflight, storedOnly_of_dmem ran.dmem,
    ran.sameExcept _ (by simp) (.inr rfl) (.inr rfl)⟩

theorem atomic_does {sw : Bool} {d v : Fin 32} (runs : exec i s = .next (facetOp s k (some quietIssue) (.atomic sz sw d a f v)))
    (l : List Part) (facet : .facet ∈ l) (free : .free ∈ l ∨ drawsFree (.atomic sz sw d a f v) = false) :
    Does i s fun t => RanMem s t k a (baseAfter (s.core k).regs a f) ∧
      StoredOnly s t k (formAddr (s.core k).regs a f sz) (leBytes sz (if sw then ((s.core k).regs.getG v).toNat
        else memNum s k (formAddr (s.core k).regs a f sz) sz + ((s.core k).regs.getG v).toNat)) ∧
      (t.core k).regs.inflight = [lateG s k 3 d (atomicValue s sz (memNum s k (formAddr (s.core k).regs a f sz) sz))] ∧
      SameExcept l s t := by
  have ran := facetOp_straight h rfl rfl rfl (opEff_atomic h sz sw d a f v low aligned) rfl (by simp)
    (by rw [List.append_nil]; exact timed_posts (by simp [lateG]) fun x => mem_formPost)
  exact ⟨_, runs, ran.ranMem h.rests.cmds, storedOnly_of_dmem ran.dmem, ran.inflight, ran.sameExcept _ facet (.inr rfl) free⟩

end

end Sys2Proof.Machine
end

section
namespace Sys2Proof.Machine

open Sys2Proof.Claims

theorem leNat_lt (bs : List Byte) : leNat bs < 256 ^ bs.length := by
  induction bs with
  | nil => simp [leNat]
  | cons b bs ih =>
    have := b.isLt
    rw [leNat, List.length_cons, pow_succ]
    omega

theorem memNum_lt (s : State) (k e n : Nat) : memNum s k e n < 256 ^ n := by
  simpa [memNum, bytesRead] using leNat_lt (bytesRead 0 (s.core k).dmem e n)

/-- The low half of what the 32-bit atomic returns is the old word; the upper half is free (R179). -/
theorem atomicValue_low (s : State) (k e : Nat) : (atomicValue s 4 (memNum s k e 4)).toNat % 2 ^ 32 = memNum s k e 4 := by
  have := memNum_lt s k e 4
  rw [atomicValue, if_pos rfl, BitVec.toNat_ofNat]
  omega

/-- Settles O24: a load, a store and an atomic at an address that raises nothing, and the values the operations take of them. -/
theorem scalarMemory : Obligations.ScalarMemory := by
  intro k d a v f s h q e w g loads stores
  have plain : ∀ (sz : Nat) (i : Instr), exec i s = .next (facetOp s k q (.load sz false d a f)) →
      loads i sz (BitVec.ofNat 64 (memNum s k (e sz) sz)) := fun sz i runs low aligned => load_does h low aligned runs
  have signed : ∀ (sz : Nat) (i : Instr), 0 < sz → exec i s = .next (facetOp s k q (.load sz true d a f)) →
      loads i sz ((BitVec.ofNat (8 * sz) (memNum s k (e sz) sz)).signExtend 64) := fun sz i pos runs low aligned =>
    loadValue_signed pos _ ▸ load_does h low aligned runs
  have store : ∀ (sz : Nat) (i : Instr), exec i s = .next (facetOp s k q (.store sz v a f)) → stores i sz :=
    fun sz i runs low aligned => store_does h low aligned runs
  refine ⟨signed 1 _ (by decide) rfl, plain 1 _ rfl, signed 2 _ (by decide) rfl, plain 2 _ rfl, signed 4 _ (by decide) rfl,
    plain 4 _ rfl, plain 8 _ rfl, store 1 _ rfl, store 2 _ rfl, store 4 _ rfl, store 8 _ rfl, fun low aligned => ?_,
    fun low aligned => ?_, fun low aligned => ?_⟩
  · obtain ⟨t, runs, ran, stored, late, same⟩ :=
      atomic_does h low aligned (sw := false) (d := d) (v := v) (i := .aaddw k q d a f v) rfl [.facet, .free] (by simp) (by simp)
    rw [if_neg (by decide), ← leBytes_mod] at stored
    exact ⟨t, runs, ran, stored, ⟨_, late, atomicValue_low s k (e 4)⟩, same⟩
  · have does := atomic_does h low aligned (sw := false) (d := d) (v := v) (i := .aaddd k q d a f v) rfl [.facet] (by simp) (.inr rfl)
    rw [if_neg (by decide), ← leBytes_mod] at does
    exact does
  · exact atomic_does h low aligned (sw := true) rfl [.facet] (by simp) (.inr rfl)

/-! ## Vector loads and stores (R177, R178) -/

theorem putG_append (g : Nat → W64) (ps qs : List Res) : putG g (ps ++ qs) = putG (putG g ps) qs := List.foldl_append

/-- The post-increments of two accesses of one bundle, to two bases or to none. -/
theorem putG_twoPosts (r : CoreRegs) (n : Nat) (a b : Fin 32) (f g : AddrForm)
    (apart : a ≠ b ∨ ((∃ i, f = .off i) ∧ ∃ j, g = .off j)) :
    putG r.getG (formPost r n a f ++ formPost r n b g) a = baseAfter r a f ∧
      putG r.getG (formPost r n a f ++ formPost r n b g) b = baseAfter r b g ∧
      ∀ i, i ∉ [a.val, b.val] → putG r.getG (formPost r n a f ++ formPost r n b g) i = r.getG i := by
  rcases apart with ne | ⟨⟨i, rfl⟩, j, rfl⟩
  · have ne' : a.val ≠ b.val := fun e => ne (Fin.ext e)
    have base : Function.update r.getG a (baseAfter r a f) b = r.getG b := Function.update_of_ne ne'.symm _ _
    rw [putG_append, putG_formPost r n a f _ rfl, putG_formPost r n b g _ base]
    refine ⟨?_, Function.update_self _ _ _, fun i hi => ?_⟩
    · rw [Function.update_of_ne ne', Function.update_self]
    · obtain ⟨ha, hb⟩ : i ≠ a ∧ i ≠ b := by simpa using hi
      rw [Function.update_of_ne hb, Function.update_of_ne ha]
  · exact ⟨rfl, rfl, fun i _ => rfl⟩

section
variable {s : State} {k : Nat} (h : QuietCore s k) {i : Instr} {d a v b : Fin 32} {f g : AddrForm}
  (low : InDmem (formAddr (s.core k).regs a f 64) 64)
include h low

theorem opEff_vld : opEff (issued s k (.vld d a f)) k [] [] 0 (.vld d a f) =
    { res := [lateV s k 3 d (memNum s k (formAddr (s.core k).regs a f 64) 64)] ++
        formPost (s.core k).regs (s.core k).regs.bseq a f } := by
  rw [opEff_ldSt _ _ rfl (by simpa [accesses, Nat.mod_one] using low)]
  simp only [memEff, accesses, view_issued h.free.kept]
  simp only [core_issued, formAddr_eccCount, formPost_eccCount, bseq_eccCount]
  rfl

omit h in
theorem opEff_vst : opEff (issued s k (.vst v a f)) k [] [] 0 (.vst v a f) =
    { res := formPost (s.core k).regs (s.core k).regs.bseq a f
      mem := [(formAddr (s.core k).regs a f 64, leBytes 64 ((s.core k).regs.getV v).toNat)] } := by
  rw [opEff_ldSt _ _ rfl (by simpa [accesses, Nat.mod_one] using low)]
  simp only [memEff, accesses, core_issued, formAddr_eccCount, formPost_eccCount, bseq_eccCount, getV_eccCount]

theorem vld_does (runs : exec i s = .next (facetOp s k (some quietIssue) (.vld d a f))) :
    Does i s fun t => RanMem s t k a (baseAfter (s.core k).regs a f) ∧
      (t.core k).regs.inflight = [lateV s k 3 d (memNum s k (formAddr (s.core k).regs a f 64) 64)] ∧ DmemKept s t k ∧
      SameExcept [.facet, .fab] s t := by
  have ran := facetOp_straight h rfl rfl rfl (opEff_vld (d := d) h low) rfl (by simp)
    (by rw [List.append_nil]; exact timed_posts (by simp [lateV]) fun x => mem_formPost)
  exact ⟨_, runs, ran.ranMem h.rests.cmds, ran.inflight, ran.dmem, ran.sameExcept _ (by simp) (.inl (by simp)) (.inr rfl)⟩

theorem vst_does (runs : exec i s = .next (facetOp s k (some quietIssue) (.vst v a f))) :
    Does i s fun t => RanMem s t k a (baseAfter (s.core k).regs a f) ∧ (t.core k).regs.inflight = [] ∧
      StoredOnly s t k (formAddr (s.core k).regs a f 64) (leBytes 64 ((s.core k).regs.getV v).toNat) ∧
      SameExcept [.facet, .fab] s t := by
  have ran := facetOp_straight h rfl rfl rfl (opEff_vst (v := v) low) rfl (by simp)
    (by rw [List.append_nil]; exact timed_posts (ls := []) (by simp) fun x => mem_formPost)
  exact ⟨_, runs, ran.ranMem h.rests.cmds, ran.inflight, storedOnly_of_dmem ran.dmem,
    ran.sameExcept _ (by simp) (.inl (by simp)) (.inr rfl)⟩

variable (low' : InDmem (formAddr (s.core k).regs b g 64) 64)
include low'

theorem opEff_vld2 : opEff (issued s k (.vld2 d a f v b g)) k [] [] 0 (.vld2 d a f v b g) =
    { res := [lateV s k 3 d (memNum s k (formAddr (s.core k).regs a f 64) 64),
          lateV s k 3 v (memNum s k (formAddr (s.core k).regs b g 64) 64)] ++
        (formPost (s.core k).regs (s.core k).regs.bseq a f ++ formPost (s.core k).regs (s.core k).regs.bseq b g) } := by
  rw [opEff_ldSt _ _ rfl (by simpa [accesses, Nat.mod_one] using And.intro low low')]
  simp only [memEff, accesses, view_issued h.free.kept]
  simp only [core_issued, formAddr_eccCount, formPost_eccCount, bseq_eccCount]
  rfl

theorem opEff_vldst : opEff (issued s k (.vldst d a f v b g)) k [] [] 0 (.vldst d a f v b g) =
    { res := [lateV s k 3 d (memNum s k (formAddr (s.core k).regs a f 64) 64)] ++
        (formPost (s.core k).regs (s.core k).regs.bseq a f ++ formPost (s.core k).regs (s.core k).regs.bseq b g)
      mem := [(formAddr (s.core k).regs b g 64, leBytes 64 ((s.core k).regs.getV v).toNat)] } := by
  rw [opEff_ldSt _ _ rfl (by simpa [accesses, Nat.mod_one] using And.intro low low')]
  simp only [memEff, accesses, view_issued h.free.kept]
  simp only [core_issued, formAddr_eccCount, formPost_eccCount, bseq_eccCount, getV_eccCount]
  rfl

end

/-- Post-increments of two accesses, with the results `late` behind them. -/
theorem timed_twoPosts (r : CoreRegs) (a b : Fin 32) (f g : AddrForm) {late : List Res}
    (hl : ∀ x ∈ late, r.bseq + 1 < x.due ∧ x.from_ = r.bseq) :
    Timed r.bseq (late ++ (formPost r r.bseq a f ++ formPost r r.bseq b g) ++ []) late
      (formPost r r.bseq a f ++ formPost r r.bseq b g) := by
  rw [List.append_nil]
  exact timed_posts hl fun x hx => (List.mem_append.mp hx).elim mem_formPost mem_formPost

/-- Settles O25: each form's accesses raise nothing, read memory before the store, and leave each base as its form says. -/
theorem vectorMemory : Obligations.VectorMemory := by
  intro k d a v b f s h q r e w
  refine ⟨fun low => vld_does h low rfl, fun low => vst_does h low rfl, fun g low low' apart => ?_⟩
  intro both
  obtain ⟨base, base', others⟩ := putG_twoPosts r r.bseq a b f g apart
  have both_of : ∀ {t : State} {o : FacetOp} {late : List Res} {mem : List (Nat × List Byte)}, drawsFree o = false →
      RanOne s t k o late (formPost r r.bseq a f ++ formPost r r.bseq b g) mem → both t := by
    intro t o late mem draws ran
    refine ⟨ran.ran, (ran.getG a).trans base, (ran.getG b).trans base', ?_, ran.next,
      ran.sameExcept _ (by simp) (.inl (by simp)) (.inr draws)⟩
    rw [ran.inflight]
    exact ran.regsKept h.rests.cmds others
  have two := facetOp_straight h rfl rfl rfl (opEff_vld2 (d := d) (v := v) h low low') rfl (by simp)
    (timed_twoPosts r a b f g (by simp [lateV, r]))
  have one := facetOp_straight h rfl rfl rfl (opEff_vldst (d := d) (v := v) h low low') rfl (by simp)
    (timed_twoPosts r a b f g (by simp [lateV, r]))
  refine ⟨⟨_, rfl, both_of rfl two, ?_, ?_, ?_, two.dmem⟩, ⟨_, rfl, both_of rfl one, one.inflight, storedOnly_of_dmem one.dmem⟩⟩
  · rw [two.inflight]; rfl
  · rw [two.inflight]; exact List.mem_cons_self
  · rw [two.inflight]; exact List.mem_cons_of_mem _ List.mem_cons_self

end Sys2Proof.Machine
end

section
namespace Sys2Proof.Machine

open Sys2Proof.Claims

/-! ## Elements of registers, bit by bit (R209) -/

theorem testBit_elemAt (n : Nat) (v : W512) (i b : Nat) :
    (elemAt n v i).testBit b = (decide (b < 8 * n) && v.getLsbD (8 * n * i + b)) := by
  rw [elemAt, Nat.testBit_mod_two_pow, Nat.testBit_div_two_pow, BitVec.getLsbD, Nat.add_comm b]

theorem elemAt_lt (n : Nat) (v : W512) (i : Nat) : elemAt n v i < 2 ^ (8 * n) := Nat.mod_lt _ (Nat.two_pow_pos _)

/-- A field of `w` bits at place `i` covers the bits of that place. -/
theorem getLsbD_field (w i x q : Nat) (hq : q < 512) :
    (BitVec.ofNat 512 (x * 2 ^ (w * i))).getLsbD q = (decide (w * i ≤ q) && x.testBit (q - w * i)) := by
  rw [BitVec.getLsbD_ofNat, Nat.testBit_mul_two_pow]
  simp [hq]

theorem getLsbD_fieldMask {w i q : Nat} (hw : 0 < w) (hq : q < 512) :
    (BitVec.ofNat 512 ((2 ^ w - 1) * 2 ^ (w * i))).getLsbD q = decide (q / w = i) := by
  rw [getLsbD_field _ _ _ _ hq, Nat.testBit_two_pow_sub_one, Bool.eq_iff_iff]
  simp only [Bool.and_eq_true, decide_eq_true_eq]
  rw [Nat.div_eq_iff hw, Nat.mul_comm w i]
  omega

/-- The bits that a list of elements writes are those of the elements listed. -/
theorem placeElems_mask {n : Nat} (hn : 0 < n) (es : List (Nat × Nat)) {q : Nat} (hq : q < 512) :
    (placeElems n es).1.getLsbD q = true ↔ ∃ e ∈ es, q / (8 * n) = e.1 := by
  have gen : ∀ mv : W512 × W512, (es.foldl (fun (mv : W512 × W512) (e : Nat × Nat) =>
      (mv.1 ||| BitVec.ofNat 512 ((2 ^ (8 * n) - 1) * 2 ^ (8 * n * e.1)),
        mv.2 ||| BitVec.ofNat 512 (e.2 % 2 ^ (8 * n) * 2 ^ (8 * n * e.1)))) mv).1.getLsbD q = true ↔
      mv.1.getLsbD q = true ∨ ∃ e ∈ es, q / (8 * n) = e.1 := by
    induction es with
    | nil => simp
    | cons e es ih =>
      intro mv
      rw [List.foldl_cons, ih, BitVec.getLsbD_or, getLsbD_fieldMask (by omega) hq]
      simp [or_assoc]
  refine (gen (0, 0)).trans ?_
  simp

/-- An element replaced reads as written, and the others as before. -/
theorem elemAt_replaced {n : Nat} (hn : 0 < n) (v : W512) {i j : Nat} (x : Nat) (hj : 8 * n * (j + 1) ≤ 512) :
    elemAt n ((v &&& ~~~(placeElems n [(i, x)]).1) ||| (placeElems n [(i, x)]).2) j =
      if j = i then x % 2 ^ (8 * n) else elemAt n v j := by
  have low : x % 2 ^ (8 * n) < 2 ^ (8 * n) := Nat.mod_lt _ (Nat.two_pow_pos _)
  refine Nat.eq_of_testBit_eq fun b => ?_
  rw [testBit_elemAt]
  by_cases hb : b < 8 * n
  · have hq : 8 * n * j + b < 512 := by rw [Nat.mul_add] at hj; omega
    have place : (8 * n * j + b) / (8 * n) = j := by
      rw [Nat.mul_add_div (by omega), Nat.div_eq_of_lt hb, Nat.add_zero]
    have mask : (placeElems n [(i, x)]).1.getLsbD (8 * n * j + b) = decide (j = i) := by
      rw [Bool.eq_iff_iff, placeElems_mask hn _ hq, place]
      simp
    have value : (placeElems n [(i, x)]).2.getLsbD (8 * n * j + b) =
        (decide (8 * n * i ≤ 8 * n * j + b) && (x % 2 ^ (8 * n)).testBit (8 * n * j + b - 8 * n * i)) := by
      rw [← getLsbD_field _ _ _ _ hq]
      simp [placeElems]
    rw [BitVec.getLsbD_or, BitVec.getLsbD_and, BitVec.getLsbD_not, mask, value, decide_eq_true hb, decide_eq_true hq]
    rcases lt_trichotomy j i with lt | rfl | gt
    · have far := Nat.mul_le_mul_left (8 * n) (Nat.succ_le_of_lt lt)
      rw [Nat.mul_succ] at far
      rw [if_neg (by omega), testBit_elemAt, decide_eq_true hb]
      simp [show ¬ 8 * n * i ≤ 8 * n * j + b by omega, lt.ne]
    · simp
    · have far := Nat.mul_le_mul_left (8 * n) (Nat.succ_le_of_lt gt)
      rw [Nat.mul_succ] at far
      have beyond : (x % 2 ^ (8 * n)).testBit (8 * n * j + b - 8 * n * i) = false :=
        Nat.testBit_lt_two_pow (low.trans_le (Nat.pow_le_pow_right (by decide) (by omega)))
      rw [if_neg (by omega), testBit_elemAt, decide_eq_true hb, beyond]
      simp [gt.ne']
  · rw [decide_eq_false hb, Bool.false_and]
    symm
    refine Nat.testBit_lt_two_pow (lt_of_lt_of_le ?_ (Nat.pow_le_pow_right (by decide) (Nat.not_lt.mp hb)))
    split
    · exact low
    · exact elemAt_lt n v j

theorem pairElem_pairSet (p : W512 × W512) {i j : Nat} (x : Nat) (hi : i < 16) (hj : j < 16) :
    pairElem 8 (pairSet 8 p i x).1 (pairSet 8 p i x).2 j = if j = i then x % 2 ^ 64 else pairElem 8 p.1 p.2 j := by
  unfold pairElem pairSet
  by_cases ci : i < 8 <;> by_cases cj : j < 8
  · simp only [show 64 / 8 = 8 from rfl, ci, cj, if_true, Nat.mod_eq_of_lt ci]
    exact elemAt_replaced (by decide) _ _ (by omega)
  · simp [ci, cj, show j ≠ i by omega]
  · simp [ci, cj, show j ≠ i by omega]
  · simp only [show 64 / 8 = 8 from rfl, ci, cj, if_false, show i % 8 = i - 8 by omega]
    rw [elemAt_replaced (by decide) _ _ (by omega)]
    exact if_congr (by omega) rfl rfl

/-! ## The complex multiply-accumulate (R205, R225) -/

/-- The elements that are active in the core's tail mode (R212, R213). -/
theorem getLsbD_activeMask (r : CoreRegs) (tail sel cnt : Nat) {j : Nat} (hj : j < 512) :
    (activeMask r tail sel cnt 0).getLsbD j = true ↔
      j < cnt ∧ (tail = 0 → j < r.vl) ∧ (tail ≠ 0 → sel ≠ 0 → (r.getM sel).getLsbD j = true) := by
  have low : ∀ n, (BitVec.ofNat 512 (2 ^ n - 1)).getLsbD j = decide (j < n) := by
    intro n
    rw [BitVec.getLsbD_ofNat, Nat.testBit_two_pow_sub_one]
    simp [hj]
  unfold activeMask
  by_cases ht : tail = 0
  · simp [ht, low, and_comm]
  · by_cases hsel : sel = 0
    · simp [ht, hsel, low]
    · simp [ht, hsel, low]

/-- One product joins its element of the accumulator pair. -/
def macStep (p : VecOp) (r : CoreRegs) (a b : Nat) (scalar : W64) (acc : W512 × W512) (i : Nat) : W512 × W512 :=
  pairSet 8 acc i (macElem (macAdds p) (macConj p) (pairElem 8 acc.1 acc.2 i) (elemAt 4 (r.getV a) i)
    (if macScalar p then scalar.toNat % 2 ^ 32 else elemAt 4 (r.getV b) i)).1

theorem pack2_lt {re im : Nat} (hr : re < 2 ^ 32) (hi : im < 2 ^ 32) : pack2 32 re im < 2 ^ 64 := by
  unfold pack2
  omega

theorem bound_lt (w : Nat) (sat : Bool) (z : Int) : (bound w sat z).1 < 2 ^ w := by
  have pos : (0 : Int) < (2 ^ w : Nat) := by positivity
  have lt : ∀ y, ofSigned w y < 2 ^ w := by
    intro y
    have := Int.emod_lt_of_pos y pos
    have := Int.emod_nonneg y pos.ne'
    unfold ofSigned
    omega
  unfold bound
  dsimp only
  split
  · exact lt _
  · split <;> exact lt _

theorem macElem_lt (add conj : Bool) (acc a b : Nat) : (macElem add conj acc a b).1 < 2 ^ 64 :=
  pack2_lt (bound_lt _ _ _) (bound_lt _ _ _)

/-- Products of different elements leave each other's accumulators. -/
theorem foldl_macStep (p : VecOp) (r : CoreRegs) (a b : Nat) (scalar : W64) (js : List Nat) (acc : W512 × W512)
    (once : js.Nodup) (low : ∀ i ∈ js, i < 16) {j : Nat} (hj : j ∈ js) :
    pairElem 8 (js.foldl (macStep p r a b scalar) acc).1 (js.foldl (macStep p r a b scalar) acc).2 j =
      (macElem (macAdds p) (macConj p) (pairElem 8 acc.1 acc.2 j) (elemAt 4 (r.getV a) j)
        (if macScalar p then scalar.toNat % 2 ^ 32 else elemAt 4 (r.getV b) j)).1 := by
  have j16 := low j hj
  have others : ∀ (is : List Nat) (q : W512 × W512), (∀ i ∈ is, i < 16) → j ∉ is →
      pairElem 8 (is.foldl (macStep p r a b scalar) q).1 (is.foldl (macStep p r a b scalar) q).2 j = pairElem 8 q.1 q.2 j := by
    intro is
    induction is with
    | nil => exact fun _ _ _ => rfl
    | cons i is ih =>
      intro q hi hn
      obtain ⟨ne, out⟩ := not_or.mp (mt List.mem_cons.mpr hn)
      rw [List.foldl_cons, ih _ (fun x hx => hi x (List.mem_cons_of_mem _ hx)) out, macStep,
        pairElem_pairSet _ _ (hi i List.mem_cons_self) j16, if_neg ne]
  induction js generalizing acc with
  | nil => cases hj
  | cons i is ih =>
    obtain ⟨out, once'⟩ := List.nodup_cons.mp once
    have low' : ∀ x ∈ is, x < 16 := fun x hx => low x (List.mem_cons_of_mem _ hx)
    rw [List.foldl_cons]
    by_cases e : j = i
    · subst e
      rw [others is _ low' out, macStep, pairElem_pairSet _ _ j16 j16, if_pos rfl,
        Nat.mod_eq_of_lt (macElem_lt _ _ _ _ _)]
    · have later : j ∈ is := (List.mem_cons.mp hj).resolve_left e
      rw [ih _ once' low' later, macStep,
        pairElem_pairSet _ _ (low i List.mem_cons_self) j16, if_neg e]

end Sys2Proof.Machine
end

section
namespace Sys2Proof.Machine

open Sys2Proof.Claims

theorem foldl_untrapped {β ι α : Type} (f : β × Option α → ι → β × Option α) (g : β → ι → β)
    (step : ∀ x i, f (x, none) i = (g x i, none)) (js : List ι) (x : β) : js.foldl f (x, none) = (js.foldl g x, none) := by
  induction js generalizing x with
  | nil => rfl
  | cons i js ih => rw [List.foldl_cons, step, ih, List.foldl_cons]

/-- The lanes of one register of the accumulator pair: a mask of 8-byte elements. -/
def laneMask (lanes : List Nat) : W512 := (placeElems 8 (lanes.map fun i => (i, 0))).1

/-- The one pass of a MAC of group size 1 that may not trap: both accumulator registers, in the lanes of the active elements. -/
theorem vecPass_mac (r : CoreRegs) {p : VecOp} (hp : isMac p = true) (ty : VType) (d a b : Nat) {m : BitVec 9}
    (trap : modTrap m = false) {l : LongOp} (first : l.pass = 0) (one : l.g = 1) :
    let js := (List.range 16).filter fun i => l.act.getLsbD i
    let acc := js.foldl (macStep p r a b l.scalar) (l.lo, l.hi)
    (vecPass r p ty d a b m l).res =
      [{ due := 0, dest := dV d, mask := laneMask (js.filter fun i => i < 8), val := acc.1 },
       { due := 0, dest := dV (d + 1), mask := laneMask ((js.filter fun i => 8 ≤ i).map fun i => i - 8), val := acc.2 }] ∧
      (vecPass r p ty d a b m l).trap = none := by
  intro js acc
  unfold vecPass
  rw [if_pos hp]
  have lanes : (List.range 16).filter (fun i => l.act.getLsbD i && decide (i < 16)) = js := by
    refine List.filter_congr fun i hi => ?_
    rw [decide_eq_true (List.mem_range.mp hi), Bool.and_true]
  simp only [first, one, trap, Nat.mul_zero, Nat.zero_add, List.range_zero, List.all_nil, List.any_nil, Bool.not_true, Bool.or_false,
    Bool.false_or, Bool.false_and, Bool.false_eq_true, if_false, Nat.add_zero]
  rw [foldl_untrapped _ (macStep p r a b l.scalar) (fun x i => rfl)]
  simp only [lanes]
  refine ⟨?_, trivial⟩
  rw [if_pos (by decide), laneMask, laneMask, List.map_map]
  rfl

theorem getLsbD_laneMask (lanes : List Nat) {q : Nat} (hq : q < 512) : (laneMask lanes).getLsbD q = true ↔ q / (8 * 8) ∈ lanes := by
  rw [laneMask, placeElems_mask (by decide) _ hq]
  simp

/-- A MAC as it issues on registers without a forwarded accumulator (R206, R217). -/
def macIssue (r : CoreRegs) (tail : Nat) (sl : Bool) (p : VecOp) (ty : VType) (d a b : Fin 32) (m : BitVec 9) : LongOp :=
  { op := .vec sl p ty d a b m, id := r.bseq, first := r.bseq, pass := 0, g := 1, start := 0
    act := activeMask r tail (modSel m) 16 0, scalar := if macScalar p then r.getG b else r.getG a, addr := r.pc
    lo := r.getV d, hi := r.getV (d + 1) }

/-- A MAC of group size 1 is one pass, which issues its results. -/
theorem opEff_mac (s : State) (k : Nat) {p : VecOp} (hp : isMac p = true) (sl : Bool) (ty : VType) (d a b : Fin 32) {m : BitVec 9}
    (one : modG m = 1) (trap : modTrap m = false) (noA : (s.core k).regs.macA = none) (noB : (s.core k).regs.macB = none) :
    ∃ l : LongOp, l.pass = 1 ∧ opEff s k [] [] 0 (.vec sl p ty d a b m) =
      { res := (vecPass (s.core k).regs p ty d a b m (macIssue (s.core k).regs (s.core k).tail sl p ty d a b m)).res.map
          fun x => { x with due := (s.core k).regs.bseq + vecLatency p, from_ := (s.core k).regs.bseq }
        long := some l } := by
  have notSel : p ≠ .vsel ∧ p ≠ .msel ∧ p ≠ .setvl := by
    refine ⟨?_, ?_, ?_⟩ <;> rintro rfl <;> simp [isMac] at hp
  obtain ⟨noVsel, noMsel, noSetvl⟩ := notSel
  have start : macStart (s.core k).regs sl d = ((s.core k).regs.getV d, (s.core k).regs.getV (d + 1)) := by
    cases sl <;> simp [macStart, noA, noB]
  have untrapped := (vecPass_mac (s.core k).regs hp ty d a b trap
    (l := macIssue (s.core k).regs (s.core k).tail sl p ty d a b m) rfl rfl).2
  have chain : ∀ n, chainOf n [] sl p a b d m = none := fun n => by simp [chainOf, one]
  have count : vecCount p ty 1 = 16 := by simp [vecCount, hp]
  simp only [macIssue] at untrapped
  simp [opEff, one, chain, passCount, noSetvl, count, noVsel, noMsel, longPass, hp, start, macIssue, untrapped]

end Sys2Proof.Machine
end

section
namespace Sys2Proof.Machine

open Sys2Proof.Claims

theorem toSigned_ofSigned {y : Int} (lo : -2 ^ 31 ≤ y) (hi : y < 2 ^ 31) : toSigned 32 (ofSigned 32 y) = y := by
  unfold toSigned ofSigned
  norm_num at lo hi ⊢
  split <;> omega

/-- A sum bounded to 32 bits reads back as the clamped sum (R221). -/
theorem toSigned_bound (z : Int) : toSigned 32 (bound 32 true z).1 = fit 32 true z := by
  unfold bound fit clampInt
  norm_num
  split
  · exact toSigned_ofSigned (y := -2 ^ 31) (by norm_num) (by norm_num)
  · split
    · exact toSigned_ofSigned (y := 2 ^ 31 - 1) (by norm_num) (by norm_num)
    · exact toSigned_ofSigned (by omega) (by omega)

theorem ci32Of_pack2 {re im : Nat} (hr : re < 2 ^ 32) : ci32Of (pack2 32 re im) = (toSigned 32 re, toSigned 32 im) := by
  have low : (re + im * 2 ^ 32) % 2 ^ 32 = re % 2 ^ 32 := Nat.add_mul_mod_self_right _ _ _
  have high : (re + im * 2 ^ 32) / 2 ^ 32 = im := by omega
  unfold ci32Of pack2
  rw [high, toSigned, low]
  rfl

/-- An accumulation is the exact sum of the accumulator and the product, saturated per component (R225). -/
theorem ci32Of_macElem (add conj : Bool) (acc x y : Nat) : ci32Of (macElem add conj acc x y).1 =
    (fit 32 true ((if add then ci32Of acc else (0, 0)).1 + (cprod conj (ci16Of x) (ci16Of y)).1),
      fit 32 true ((if add then ci32Of acc else (0, 0)).2 + (cprod conj (ci16Of x) (ci16Of y)).2)) := by
  rw [← toSigned_bound, ← toSigned_bound]
  exact ci32Of_pack2 (bound_lt _ _ _)

@[simp] theorem getM_eccCount (r : CoreRegs) (i : Nat) : (eccCount r 0 0).getM i = r.getM i :=
  congrFun (congrArg Shown.m (eccCount_shown r)) i

@[simp] theorem vl_eccCount (r : CoreRegs) : (eccCount r 0 0).vl = r.vl := congrArg Shown.vl (eccCount_shown r)

theorem macIssue_eccCount (r : CoreRegs) (tail : Nat) (sl : Bool) (p : VecOp) (ty : VType) (d a b : Fin 32) (m : BitVec 9) :
    macIssue (eccCount r 0 0) tail sl p ty d a b m = macIssue r tail sl p ty d a b m := by
  simp [macIssue, activeMask]

theorem macStep_eccCount (p : VecOp) (r : CoreRegs) (a b : Nat) (scalar : W64) :
    macStep p (eccCount r 0 0) a b scalar = macStep p r a b scalar := by
  funext acc i
  simp [macStep]

theorem vecLatency_mac {p : VecOp} (hp : isMac p = true) : vecLatency p = 4 := by
  cases p <;> simp [isMac] at hp <;> rfl

/-- The product or the sum that element `j` of a MAC holds, before it is saturated. -/
def macExact (r : CoreRegs) (p : VecOp) (d a b : Fin 32) (j : Nat) : Int × Int :=
  let z := if macAdds p then ci32Of (pairElem 8 (r.getV d) (r.getV (d + 1)) j) else (0, 0)
  let c := cprod (macConj p) (ci16Of (elemAt 4 (r.getV a) j))
    (ci16Of (if macScalar p then (r.getG b).toNat % 2 ^ 32 else elemAt 4 (r.getV b) j))
  (z.1 + c.1, z.2 + c.2)

/-- The elements that a MAC visits. -/
def macLanes (r : CoreRegs) (tail : Nat) (m : BitVec 9) : List Nat :=
  (List.range 16).filter fun i => (activeMask r tail (modSel m) 16 0).getLsbD i

theorem mem_macLanes (c : Core) (m : BitVec 9) (j : Nat) : j ∈ macLanes c.regs c.tail m ↔ Active c (modSel m) 16 j := by
  rw [macLanes, List.mem_filter, List.mem_range]
  constructor
  · exact fun ⟨lt, on⟩ => (getLsbD_activeMask _ _ _ _ (by omega)).mp on
  · exact fun act => ⟨act.1, (getLsbD_activeMask _ _ _ _ (by have := act.1; omega)).mpr act⟩

/-- The lanes of the pair's second register. -/
theorem mem_upperLanes (l : List Nat) (j : Nat) : j ∈ (l.filter fun i => 8 ≤ i).map (fun i => i - 8) ↔ j + 8 ∈ l := by
  simp only [List.mem_map, List.mem_filter, decide_eq_true_eq]
  constructor
  · rintro ⟨i, ⟨hi, le⟩, rfl⟩
    rwa [Nat.sub_add_cancel le]
  · exact fun hj => ⟨j + 8, ⟨hj, Nat.le_add_left 8 j⟩, Nat.add_sub_cancel j 8⟩

/-- A MAC writes the active elements of its accumulator pair, four bundles on. -/
theorem mac_gives {s : State} {k : Nat} (h : QuietCore s k) {p : VecOp} (hp : isMac p = true) (sl : Bool) (d a b : Fin 32) (m : BitVec 9)
    (form : VecForm s k p .ci16 d a b m) {i : Instr} (runs : exec i s = .next (facetOp s k (some quietIssue) (.vec sl p .ci16 d a b m)))
    {f : Nat → Int × Int} (value : ∀ j, macExact (s.core k).regs p d a b j = f j) :
    GivesLate i s k fun l => ∃ x y, l = [x, y] ∧ x.dest = 32 + d ∧ y.dest = 32 + d + 1 ∧ x.due = (s.core k).regs.bseq + 4 ∧
      y.due = (s.core k).regs.bseq + 4 ∧ WritesOnly x 8 (Active (s.core k) (modSel m) 16) ∧
      WritesOnly y 8 (fun j => Active (s.core k) (modSel m) 16 (j + 8)) ∧
      ∀ j < 16, Active (s.core k) (modSel m) 16 j →
        ci32Of (pairElem 8 x.val y.val j) = (fit 32 true (f j).1, fit 32 true (f j).2) := by
  obtain ⟨one, trap, legal⟩ := form
  have elem : isElem (.vec sl p .ci16 d a b m) = false := by simp [isElem, one, trap]
  obtain ⟨l, passed, eff⟩ := opEff_mac (issued s k (.vec sl p .ci16 d a b m)) k hp sl .ci16 d a b one trap
    (by rw [core_issued]; exact h.rests.eccCount.macA) (by rw [core_issued]; exact h.rests.eccCount.macB)
  have pass := (vecPass_mac (eccCount (s.core k).regs 0 0) hp .ci16 d a b trap
    (l := macIssue (s.core k).regs (s.core k).tail sl p .ci16 d a b m) rfl rfl).1
  simp only [core_issued, macIssue_eccCount, pass, macStep_eccCount, bseq_eccCount, vecLatency_mac hp, List.map_cons, List.map_nil] at eff
  have ran := facetOp_straight h rfl elem legal eff rfl (by rintro _ ⟨⟩; rw [passed]; simp [passCount, one])
    (timed_posts (ps := []) (by simp) (by simp))
  refine ⟨_, runs, ran.ran, ⟨_, _, ran.inflight, rfl, rfl, rfl, rfl, ?_, ?_, ?_⟩, ?_, ran.next, ran.dmem,
    ran.sameExcept _ (by simp) (.inr rfl) (.inr rfl)⟩
  · intro q hq
    rw [getLsbD_laneMask _ hq, List.mem_filter]
    exact (and_iff_left (decide_eq_true (by omega))).trans (mem_macLanes _ m _)
  · intro q hq
    exact (getLsbD_laneMask _ hq).trans ((mem_upperLanes _ _).trans (mem_macLanes _ m _))
  · intro j hj act
    have visited : j ∈ macLanes (s.core k).regs (s.core k).tail m := (mem_macLanes _ m j).mpr act
    refine (congrArg ci32Of (foldl_macStep p _ _ _ _ _ _ (List.nodup_range.filter _) ?_ visited)).trans ?_
    · exact fun i hi => List.mem_range.mp (List.mem_filter.mp hi).1
    · have scalar : (if macScalar p then (macIssue (s.core k).regs (s.core k).tail sl p .ci16 d a b m).scalar.toNat % 2 ^ 32
          else elemAt 4 ((s.core k).regs.getV b) j) =
          if macScalar p then ((s.core k).regs.getG b).toNat % 2 ^ 32 else elemAt 4 ((s.core k).regs.getV b) j := by
        cases hs : macScalar p <;> simp [macIssue, hs]
      rw [ci32Of_macElem, scalar, ← value]
      rfl
  · rw [ran.inflight]
    exact ran.regsKept h.rests.cmds fun _ _ => rfl

/-- Settles O28: each operation is a MAC whose exact sum is the product of R224, alone or with the old accumulator. -/
theorem complexMac : Obligations.ComplexMac := by
  intro k sl d a b m s h q r c e g old gives
  refine ⟨fun form => mac_gives h rfl sl d a b m form rfl fun j => Prod.ext ?_ ?_,
    fun form => mac_gives h rfl sl d a b m form rfl fun j => Prod.ext ?_ ?_,
    fun form => mac_gives h rfl sl d a b m form rfl fun j => Prod.ext ?_ ?_,
    fun form => mac_gives h rfl sl d a b m form rfl fun j => Prod.ext ?_ ?_,
    fun form => mac_gives h rfl sl d a b m form rfl fun j => Prod.ext ?_ ?_,
    fun form => mac_gives h rfl sl d a b m form rfl fun j => Prod.ext ?_ ?_⟩
  all_goals
    simp [macExact, macAdds, macConj, macScalar, cprod, r, c, e, g, old]
    try ring

end Sys2Proof.Machine
end

section
namespace Sys2Proof.Machine

open Sys2Proof.Claims

/-- A device in RUN, every power domain on, whose core 0 holds these registers. -/
def core0With (r : CoreRegs) : State :=
  { boot := { devState := 1 }, power := { on := List.range 96 }, facet := { cores := [(0, { regs := r })] } }

/-! ## Where MTC and HOLD_LIMIT do not do what the statements say (R174, R193, R195) -/

theorem core0With_quiet : QuietCore (core0With { g := [(1, 0xBB880)] }) 0 := by
  unfold QuietCore
  decide

/-- RFLAGS takes the hold count as written, and a count of 3,003 that runs is past its limit (R174, R195): the core faults. -/
theorem exec_mtc_fatal : ∃ t, exec (.mtc 0 (some quietIssue) 0x15 1) (core0With { g := [(1, 0xBB880)] }) = .next t ∧
    (t.core 0).restoring = true :=
  ⟨_, rfl, by decide⟩

/-- Refutes O21: an MTC that writes RFLAGS (0x15) with a running hold count past 2,048 takes the core out of service at the
bundle's end (R174, R195), where the statement has it go on with the register written. -/
theorem not_scalarControl : ¬ Obligations.ScalarControl := by
  intro h
  obtain ⟨-, -, -, -, -, -, -, mtc, -⟩ := h 0 _ core0With_quiet
  obtain ⟨t, runs, ⟨ran, -⟩, -⟩ := (mtc 0x15 1 (by decide)).1 0xFFF9F rfl
  obtain ⟨u, fatal, out⟩ := exec_mtc_fatal
  obtain rfl : t = u := Host.Outcome.next.inj (runs.symm.trans fatal)
  rw [show (t.core 0).restoring = false from congrArg Core.restoring ran] at out
  cases out

/-- In a handler (INH, R193) HOLD_LIMIT is DOUBLE_FAULT. -/
theorem exec_holdLimit_double : ∃ t, exec (.holdLimit 0) (core0With { ctl := [(1, 0x80), (0x15, 0xBB880)] }) = .next t ∧
    (t.core 0).faultCause = 6 :=
  ⟨_, rfl, by decide⟩

/-- Refutes O23: the hold limit's clause leaves INH open, and in a handler the fatal cause is DOUBLE_FAULT, 6, and not 5 (R193). -/
theorem not_coreWork : ¬ Obligations.CoreWork := by
  intro h
  obtain ⟨-, -, -, -, limit, -⟩ := h
  obtain ⟨t, runs, -, cause, -⟩ := limit 0 (core0With { ctl := [(1, 0x80), (0x15, 0xBB880)] }) (by decide) (by decide) (by decide)
    (by decide) (by decide) (by decide) (by decide) (by decide)
  obtain ⟨u, double, out⟩ := exec_holdLimit_double
  obtain rfl : t = u := Host.Outcome.next.inj (runs.symm.trans double)
  rw [show (t.core 0).faultCause = 5 from cause] at out
  cases out

end Sys2Proof.Machine
end

section
namespace Sys2Proof.Machine

open Sys2Proof.Claims

/-! ## Results that arrive in any register (R173, R182, R183) -/

@[simp] theorem CoreRegs.getV_setV (r : CoreRegs) (i j : Nat) (x : W512) :
    (r.setV j x).getV i = if i = j then x else r.getV i := mapGet_putW _ _ _ _

@[simp] theorem CoreRegs.getM_setM (r : CoreRegs) (i j : Nat) (x : W512) :
    (r.setM j x).getM i = if i = j then x else r.getM i := mapGet_putW _ _ _ _

theorem CoreRegs.shown_setV (r : CoreRegs) (i : Nat) (x : W512) :
    (r.setV i x).shown = { r.shown with v := Function.update r.getV i x } := by
  have reads : (r.setV i x).getV = Function.update r.getV i x := by
    funext j
    simp [Function.update_apply]
  unfold CoreRegs.shown
  rw [reads]
  rfl

theorem CoreRegs.shown_setM (r : CoreRegs) (i : Nat) (x : W512) :
    (r.setM i x).shown = { r.shown with m := Function.update r.getM i x } := by
  have reads : (r.setM i x).getM = Function.update r.getM i x := by
    funext j
    simp [Function.update_apply]
  unfold CoreRegs.shown
  rw [reads]
  rfl

/-- The bits that a result writes, over what its register held. -/
def Res.over (x : Res) (old : W512) : W512 := (old &&& ~~~x.mask) ||| (x.val &&& x.mask)

/-- Registers as they read once a result has arrived. -/
def Shown.put (w : Shown) (x : Res) : Shown :=
  if x.dest < 32 then { w with g := Function.update w.g x.dest (x.val.setWidth 64) }
  else if x.dest < 64 then { w with v := Function.update w.v (x.dest - 32) (x.over (w.v (x.dest - 32))) }
  else if x.dest < 72 then { w with m := Function.update w.m (x.dest - 64) (x.over (w.m (x.dest - 64))) }
  else { w with vl := x.val.toNat % 1024 }

theorem applyRes_put (r : CoreRegs) (x : Res) : (applyRes r x).shown = r.shown.put x := by
  unfold applyRes Shown.put
  split
  · exact CoreRegs.shown_setG _ _ _
  · split
    · exact CoreRegs.shown_setV _ _ _
    · split
      · exact CoreRegs.shown_setM _ _ _
      · rfl

theorem foldl_applyRes_put (rs : List Res) (r : CoreRegs) : (rs.foldl applyRes r).shown = rs.foldl Shown.put r.shown := by
  induction rs generalizing r with
  | nil => rfl
  | cons x rs ih => rw [List.foldl_cons, List.foldl_cons, ih, applyRes_put]

/-- The results of bundle `n` that the next bundle reads, and those that it does not. -/
def dueNext (n : Nat) (rs : List Res) : List Res := rs.filter fun x => decide (x.due ≤ n + 1)
def dueLater (n : Nat) (rs : List Res) : List Res := rs.filter fun x => !decide (x.due ≤ n + 1)

/-- The registers that the next bundle finds, whichever registers the results go to. -/
theorem CoreRegs.Behind.retires {r q : CoreRegs} {rs : List Res} (h : r.Behind q rs) (own : ∀ x ∈ rs, x.from_ = r.bseq) :
    (Machine.retireDue q).shown = (dueNext r.bseq rs).foldl Shown.put r.shown ∧ (Machine.retireDue q).inflight = dueLater r.bseq rs ∧
      (Machine.retireDue q).pc = r.pc + 16 ∧ (Machine.retireDue q).delay = none ∧ (Machine.retireDue q).bseq = r.bseq + 1 := by
  have arrive : q.inflight.filter (fun x => decide (x.due ≤ q.bseq)) = dueNext r.bseq rs := by
    rw [h.inflight, h.bseq]
    exact foldl_insertRes_filter_eq _ r.bseq _ fun x hx => own x (List.mem_filter.mp hx).1
  have stay : q.inflight.filter (fun x => !decide (x.due ≤ q.bseq)) = dueLater r.bseq rs := by
    rw [h.inflight, h.bseq]
    exact foldl_insertRes_filter_eq _ r.bseq _ fun x hx => own x (List.mem_filter.mp hx).1
  have eq : Machine.retireDue q = (dueNext r.bseq rs).foldl applyRes { q with inflight := dueLater r.bseq rs } := by
    unfold Machine.retireDue
    rw [arrive, stay]
  obtain ⟨pc, delay, bseq, inflight, -⟩ := foldl_applyRes_place (dueNext r.bseq rs) { q with inflight := dueLater r.bseq rs }
  rw [eq]
  refine ⟨?_, inflight, pc.trans h.pc, delay.trans h.delay, bseq.trans h.bseq⟩
  rw [foldl_applyRes_put]
  exact congrArg (fun w => (dueNext r.bseq rs).foldl Shown.put w) h.shown

/-! ## A quiet core after one operation of the vector slots (R172, R182) -/

/-- Core `k` ran a bundle that leaves its memory: of the results `rs`, the ones that the next bundle reads have arrived, and the
others are under way. -/
structure RanRegs (s t : State) (k : Nat) (rs : List Res) : Prop where
  ran : Ran s t k
  shown : (t.core k).regs.shown = (dueNext (s.core k).regs.bseq rs).foldl Shown.put (s.core k).regs.shown
  inflight : (t.core k).regs.inflight = dueLater (s.core k).regs.bseq rs
  next : NextAt t k ((s.core k).regs.pc + 16) none
  dmem : DmemKept s t k
  frame : SameExcept [.facet] s t

/-- What the stages of a bundle without accesses come to: the results are under way, and time goes on. -/
def ExecsTo (s : State) (k : Nat) (o : FacetOp) (rs : List Res) : Prop :=
  ∃ q cyc starve, (s.core k).regs.Behind q rs ∧ (s.core k).cycle < cyc ∧
    execOps (issued s k o) k quietIssue [] 0 [o] =
      s.setCore k { s.core k with regs := retireDue q, cycle := cyc, starve := starve, open_ := [] }

/-- The rule that a statement on the vector slots rests on. -/
theorem facetOp_ranRegs {s : State} {k : Nat} (h : QuietCore s k) {o : FacetOp} {rs : List Res}
    (issues : facetOp s k (some quietIssue) o = endStep (execOps (issued s k o) k quietIssue [] 0 [o]) k)
    (execs : ExecsTo s k o rs) (own : ∀ x ∈ rs, x.from_ = (s.core k).regs.bseq) :
    RanRegs s (facetOp s k (some quietIssue) o) k rs := by
  obtain ⟨q, cyc, starve, behind, later, runs⟩ := execs
  obtain ⟨shown, inflight, pc, delay, bseq⟩ := behind.retires own
  have stepping : ((s.setCore k { s.core k with
      regs := retireDue q, cycle := cyc, starve := starve, open_ := [] }).core k).dbg.stepping = false := by
    rw [State.core_setCore_self]
    exact h.free.stepping
  rw [issues, runs, endStep_running stepping]
  refine ⟨⟨?_, ?_, ?_, fun j hj => State.core_setCore_ne s k _ hj, rfl⟩, ?_, ?_, ⟨?_, ?_⟩, ?_, by simp [SameExcept, State.setCore]⟩
  · simp [h.opened]
  all_goals simp only [DmemKept, State.core_setCore_self]
  · exact bseq
  · exact later
  · exact shown
  · exact inflight
  · exact pc
  · exact delay

section
variable {s t : State} {k : Nat} {rs : List Res}

/-- Nothing arrives for the next bundle: the registers are as they were. -/
theorem RanRegs.late (h : RanRegs s t k rs) (later : ∀ x ∈ rs, (s.core k).regs.bseq + 1 < x.due) :
    (t.core k).regs.shown = (s.core k).regs.shown ∧ (t.core k).regs.inflight = rs := by
  have none_due : dueNext (s.core k).regs.bseq rs = [] :=
    List.filter_eq_nil_iff.mpr fun x hx => by have := later x hx; simp; omega
  have all : dueLater (s.core k).regs.bseq rs = rs :=
    List.filter_eq_self.mpr fun x hx => by have := later x hx; simp; omega
  exact ⟨by rw [h.shown, none_due]; rfl, by rw [h.inflight, all]⟩

/-- Everything arrives for the next bundle. -/
theorem RanRegs.now (h : RanRegs s t k rs) (now : ∀ x ∈ rs, x.due = (s.core k).regs.bseq + 1) :
    (t.core k).regs.shown = rs.foldl Shown.put (s.core k).regs.shown ∧ (t.core k).regs.inflight = [] := by
  have all : dueNext (s.core k).regs.bseq rs = rs := List.filter_eq_self.mpr fun x hx => by simp [now x hx]
  have none_left : dueLater (s.core k).regs.bseq rs = [] := List.filter_eq_nil_iff.mpr fun x hx => by simp [now x hx]
  exact ⟨by rw [h.shown, all], by rw [h.inflight, none_left]⟩

end

/-- Registers that read as before are kept. -/
theorem regsKept_of_shown {s t : State} {k : Nat} (idle : (s.core k).regs.cmds = []) {l : List Res}
    (shown : (t.core k).regs.shown = (s.core k).regs.shown) (under : (t.core k).regs.inflight = l) : RegsKept s t k [] [] l :=
  ⟨fun i _ => congrFun (congrArg Shown.g shown) i, fun i _ => congrFun (congrArg Shown.c shown) i,
    congrFun (congrArg Shown.v shown), congrFun (congrArg Shown.m shown), congrArg Shown.vl shown, under,
    (congrArg Shown.cmds shown).trans idle, congrArg Shown.demapRec shown, congrArg Shown.solveRec shown⟩

end Sys2Proof.Machine
end

section
namespace Sys2Proof.Machine

open Sys2Proof.Claims

/-! ## The bundle of one vector or scalar floating-point operation -/

theorem CoreRegs.Behind.of_eccCount {r q : CoreRegs} {rs : List Res} (h : (eccCount r 0 0).Behind q rs) : r.Behind q rs :=
  ⟨h.shown.trans (eccCount_shown r), h.inflight, h.pc.trans (by rw [pc_eccCount]), h.delay, h.bseq.trans (by rw [bseq_eccCount])⟩

theorem execsTo_vec {s : State} {k : Nat} (h : QuietCore s k) {sl : Bool} {p : VecOp} {ty : VType} {d a b : Fin 32} {m : BitVec 9}
    (he : isElem (.vec sl p ty d a b m) = false) {rs : List Res} {l : LongOp} (once : passCount (.vec sl p ty d a b m) = l.pass)
    (eff : opEff (issued s k (.vec sl p ty d a b m)) k [] [] 0 (.vec sl p ty d a b m) = { res := rs, long := some l }) :
    ExecsTo s k (.vec sl p ty d a b m) rs := by
  obtain ⟨q, cyc, starve, fab, free, behind, later, hfab, hfree, runs⟩ := execOps_straight (free_issued h.free _) h.noBadWord rfl he
    eff rfl (by rintro _ ⟨⟩; exact once.symm)
  obtain rfl := hfab rfl
  obtain rfl := hfree rfl
  rw [core_issued] at behind later runs
  rw [issued, State.setCore_setCore] at runs
  rw [List.append_nil] at behind
  exact ⟨q, cyc, starve, behind.of_eccCount, later, runs⟩

section
variable {s : State} {k : Nat} {sl : Bool} {p : FscOp} {d a b : Fin 32} {m : BitVec 9}

theorem placeIllegal_fsc (r : CoreRegs) : placeIllegal r (.fsc sl p d a b m) = false := by simp [placeIllegal, isRep, isBranch]

theorem bundleIllegal_fsc {r : CoreRegs} (h : r.Rests) : bundleIllegal r [] [.fsc sl p d a b m] = false := by
  have free : ¬ r.bseq < r.busy.getD (slotOf (.fsc sl p d a b m) - 1) 0 := Nat.not_lt.mpr (h.slot_free _)
  have plain : isExtended (.fsc sl p d a b m) = false := rfl
  have whole : isElem (.fsc sl p d a b m) = false := rfl
  simp only [bundleIllegal, placeIllegal_fsc, destClash, plain, whole, free, List.any_cons, List.any_nil, List.map_cons, List.map_nil,
    List.append_nil, List.filter_cons, List.filter_nil, List.length_nil, decide_false, Bool.or_false, Bool.and_false, Bool.false_and,
    Bool.false_eq_true, if_false, Nat.not_lt_zero]

/-- Whether the operation is legal does not depend on the registers. -/
theorem opIllegal_fsc (r q : CoreRegs) (tail : Nat) : opIllegal r tail (.fsc sl p d a b m) = opIllegal q tail (.fsc sl p d a b m) := rfl

theorem issueBundle_fsc (h : (s.core k).Free) (on : s.domainOn (k / 16) = true) (opened : (s.core k).open_ = [.fsc sl p d a b m])
    (legal : opIllegal (s.core k).regs (s.core k).tail (.fsc sl p d a b m) = false) :
    issueBundle s k quietIssue = endStep (execOps (s.setCore k { s.core k with regs := eccCount (s.core k).regs 0 0 }) k quietIssue [] 0
      [.fsc sl p d a b m]) k := by
  have rests := h.rests
  have ecc := rests.eccCount
  have legal' : opIllegal (eccCount (s.core k).regs 0 0) (s.core k).tail (.fsc sl p d a b m) = false := (opIllegal_fsc _ _ _).trans legal
  have fetches : ¬ (0x8000 ≤ (s.core k).regs.pc ∨ (s.core k).regs.pc % 16 ≠ 0) := by have := rests.fetches; omega
  have limit : (s.core k).regs.holdOver = false := by simp [CoreRegs.holdOver, rests.holdOn]
  have dbg := CoreDbg.eta_running h.halted h.requested h.stepping h.skipBp
  unfold issueBundle
  simp only [h.restoring, h.waiting, h.halted, on, h.requested, h.skipBp, h.stepping, bpHit_none h.bp, limit,
    unitsBefore_idle _ _ rests.cmds, takeable_masked rests.masked, runPasses_none _ h.longs, opened, inOrder_one, quietIssue]
  simp [fetches, bundleIllegal_fsc ecc, legal', unitsBefore_idle, ecc.cmds, dbg, h.longs]

/-- A legal scalar floating-point operation issues as a bundle of its own. -/
theorem facetOp_fsc (h : QuietCore s k)
    (legal : opIllegal (s.core k).regs (s.core k).tail (.fsc sl p d a b m) = false) :
    facetOp s k (some quietIssue) (.fsc sl p d a b m) =
      endStep (execOps (issued s k (.fsc sl p d a b m)) k quietIssue [] 0 [.fsc sl p d a b m]) k := by
  have free := h.free
  have issue := issueBundle_fsc (s := s.setCore k { s.core k with open_ := [.fsc sl p d a b m] }) (k := k)
    (by rw [State.core_setCore_self]; exact { free with }) h.on (by rw [State.core_setCore_self])
    (by rw [State.core_setCore_self]; exact legal)
  rw [State.core_setCore_self, State.setCore_setCore] at issue
  unfold facetOp
  simp only [h.opened, List.any_nil, List.nil_append, Bool.false_eq_true, if_false]
  rw [if_neg (by simp [free.restoring, free.waiting, free.halted, h.on])]
  exact (if_pos rfl).trans issue

theorem nextBundle_fsc {r : CoreRegs} (h : r.Rests) (q : CoreRegs) (hq : q.getC 0x15 = 0) :
    nextBundle r q [.fsc sl p d a b m] = { q with iterEnd := false, pc := r.pc + 16 } := by
  have depth : CoreRegs.depth { q with iterEnd := false } = 0 := by
    have : CoreRegs.getC { q with iterEnd := false } 0x15 = 0 := hq
    simp [CoreRegs.depth, this]
  simp [nextBundle, h.delay, branchTo, repOf, repeatStep, depth]

/-- The effect of a scalar floating-point operation is its result: it makes no access and leaves no pass. -/
theorem execOps_fsc (h : (s.core k).Free) (bad : (s.bank (bankKey 0 k)).bad = []) {rs : List Res}
    (eff : opEff s k [] [] 0 (.fsc sl p d a b m) = { res := rs }) :
    ∃ q cyc starve, (s.core k).regs.Behind q rs ∧ (s.core k).cycle < cyc ∧
      execOps s k quietIssue [] 0 [.fsc sl p d a b m] =
        s.setCore k { s.core k with regs := retireDue q, cycle := cyc, starve := starve, open_ := [] } := by
  have rests := h.rests
  unfold execOps
  extract_lets c r n vst ops start es reads s0 counted blocks accs r1 busy ls trapping sysc
  have hops : ops = [.fsc sl p d a b m] := congrArg Prod.fst (bundleRun_one rfl)
  have hes : es = [(.fsc sl p d a b m, { res := rs })] := (bundleEffs_one bad rfl).trans (by rw [eff])
  have noRead : reads = false := by cases sl <;> rfl
  have noBlock : blocks = 0 := by
    rw [show blocks = plainBlocks r ops from rfl, hops]
    rfl
  have hls : ls = [] := by simp [ls, hes]
  have htr : trapping = [] := by simp [trapping, hls]
  have hsysc : sysc = none := by
    rw [show sysc = ops.findSome? syscOf from rfl, hops]
    rfl
  have hs0 : s0 = s := if_neg (by rw [noRead]; decide)
  rw [if_pos noBlock]
  dsimp -zeta only
  rw [hes, firstExc_one rfl]
  dsimp -zeta only
  extract_lets accept cycles r2 r3 r4 r5 c1 c2 c3 r6 r7 r8 c5 s1 bk s2 s3
  have hr3 : r3 = r1 := by
    have plain : r2 = r1 := by
      rw [show r2 = ops.foldl accept r1 from rfl, hops]
      rfl
    rw [← plain]
    exact if_neg (fun ne => ne rests.vstart)
  have carries5 : r.Carries r5 rs := by
    have carries1 : r.Carries r1 rs := by
      simp only [r1, hes, List.flatMap_cons, List.flatMap_nil, List.append_nil]
      exact rests.carries _
    have same : r5 = { r1 with busy := busy } := by rw [← hr3]; rfl
    rw [same]
    exact carries1.busy busy
  have hc3 : c3 = { c with regs := r5, starve := 0 } := by
    simp only [c3, c2, htr, c1, hls, List.append_nil, List.flatMap_cons, List.flatMap_nil]
    rw [coreStore_now (by exact h.snaps)]
    rfl
  have passes : runPasses c3 = (c3, none) := runPasses_none _ (by rw [hc3]; exact h.longs)
  have hr6 : r6 = r5 := by
    rw [show r6 = counted (runPasses c3).1.regs from rfl, passes, hc3]
    exact if_neg (by rw [noRead]; decide)
  have flags : r6.getC 0x15 = 0 := by
    rw [hr6]
    exact (congrFun (congrArg Shown.c carries5.shown) _).trans rests.flags
  have hr8 : r8 = { r6 with iterEnd := false, pc := r.pc + 16, bseq := r.bseq + 1 } := by
    simp only [r8, r7, hops, List.foldl_cons, List.foldl_nil, mtcStep]
    rw [rests.holdStep, nextBundle_fsc rests _ flags]
  have behind : r.Behind r8 rs := by
    rw [hr8, hr6]
    exact ⟨carries5.shown, carries5.inflight, rfl, carries5.delay, rfl⟩
  have s3_eq : s3 = s.setCore k c5 := by
    have draws : (ops.any drawsFree) = false := by rw [hops]; rfl
    rw [show s3 = if ops.any drawsFree then { s2 with freeCount := s2.freeCount + 1 } else s2 from rfl, draws, ← hs0]
    rfl
  have limit : (s3.core k).regs.holdOver = false := by
    have zero : (retireDue r8).getC 0x15 = 0 := by rw [retireDue_getC, hr8]; exact flags
    rw [s3_eq, State.core_setCore_self]
    simp [CoreRegs.holdOver, CoreRegs.holdOn, c5, zero, bit]
  refine ⟨r8, c.cycle + cycles, 0, behind, Nat.lt_add_of_pos_right (Nat.succ_pos _), ?_⟩
  have core5 : c5 = { c with regs := retireDue r8, cycle := c.cycle + cycles, starve := 0, open_ := [] } := by
    simp only [c5, passes]
    rw [hc3]
    simp only [c, h.waiting]
  rw [passes, limit, hsysc, wpHit_none (c := c) h.wp, ← core5]
  exact s3_eq

theorem execsTo_fsc (h : QuietCore s k) {rs : List Res}
    (eff : opEff (issued s k (.fsc sl p d a b m)) k [] [] 0 (.fsc sl p d a b m) = { res := rs }) :
    ExecsTo s k (.fsc sl p d a b m) rs := by
  obtain ⟨q, cyc, starve, behind, later, runs⟩ := execOps_fsc (free_issued h.free _) h.noBadWord eff
  rw [core_issued] at behind later runs
  rw [issued, State.setCore_setCore] at runs
  exact ⟨q, cyc, starve, behind.of_eccCount, later, runs⟩

end

end Sys2Proof.Machine
end

section
namespace Sys2Proof.Machine

open Sys2Proof.Claims

/-! ## One pass of a vector operation (R209 to R214, R217) -/

/-- With the trap bit clear every element is computed. -/
theorem runElems_untrapped (js : List Nat) (f : Nat → Nat × Bool) : runElems false js f = (js.map fun j => (j, (f j).1), none) := by
  have gen : ∀ acc : List (Nat × Nat), js.foldl (fun (acc : List (Nat × Nat) × Option Nat) j =>
      match acc.2 with
      | some _ => acc
      | none =>
        let (x, t) := f j
        if false && t then (acc.1, some j) else (acc.1 ++ [(j, x)], none)) (acc, none) =
      (acc ++ js.map fun j => (j, (f j).1), none) := by
    induction js with
    | nil => simp
    | cons j js ih => 
      intro acc
      rw [List.foldl_cons]
      exact (ih _).trans (by simp)
  exact gen []

theorem vecPass_untrapped (r : CoreRegs) {p : VecOp} (hp : isMac p = false) (ty : VType) (d a b : Nat) {m : BitVec 9}
    (trap : modTrap m = false) (l : LongOp) : (vecPass r p ty d a b m l).trap = none := by
  cases p <;> simp [isMac] at hp <;> simp [vecPass, isMac, isCmp, trap, runElems_untrapped]

/-- A pass reads the vector and mask registers, and no others. -/
theorem vecPass_eccCount (r : CoreRegs) (p : VecOp) (ty : VType) (d a b : Nat) (m : BitVec 9) (l : LongOp) :
    vecPass (eccCount r 0 0) p ty d a b m l = vecPass r p ty d a b m l := by
  unfold vecPass
  simp only [getV_eccCount, getM_eccCount]

/-- A vector operation of group size 1 as it issues (R212 to R214, R217). -/
def vecIssue (r : CoreRegs) (tail : Nat) (sl : Bool) (p : VecOp) (ty : VType) (d a b : Fin 32) (m : BitVec 9) : LongOp :=
  { op := .vec sl p ty d a b m, id := r.bseq, first := r.bseq, pass := 0, g := 1, start := 0
    act := activeMask r tail (if p = .vsel ∨ p = .msel then 0 else modSel m) (vecCount p ty 1) 0
    scalar := if macScalar p then r.getG b else r.getG a, addr := r.pc, lo := if p = .vsel then r.getM (modSel m) else 0 }

theorem vecIssue_eccCount (r : CoreRegs) (tail : Nat) (sl : Bool) (p : VecOp) (ty : VType) (d a b : Fin 32) (m : BitVec 9) :
    vecIssue (eccCount r 0 0) tail sl p ty d a b m = vecIssue r tail sl p ty d a b m := by
  simp only [vecIssue, activeMask, vl_eccCount, getM_eccCount, getG_eccCount, bseq_eccCount, pc_eccCount]

/-- What the one pass of a vector operation puts under way. -/
def vecResults (r : CoreRegs) (tail : Nat) (sl : Bool) (p : VecOp) (ty : VType) (d a b : Fin 32) (m : BitVec 9) : List Res :=
  (vecPass r p ty d a b m (vecIssue r tail sl p ty d a b m)).res.map fun x => { x with due := r.bseq + vecLatency p, from_ := r.bseq }

theorem opEff_vec (s : State) (k : Nat) {p : VecOp} (hp : isMac p = false) (sl : Bool) (ty : VType) (d a b : Fin 32) {m : BitVec 9}
    (one : modG m = 1) (trap : modTrap m = false) :
    ∃ l : LongOp, l.pass = 1 ∧ opEff s k [] [] 0 (.vec sl p ty d a b m) =
      { res := vecResults (s.core k).regs (s.core k).tail sl p ty d a b m, long := some l } := by
  have untrapped := vecPass_untrapped (s.core k).regs hp ty d a b trap (vecIssue (s.core k).regs (s.core k).tail sl p ty d a b m)
  have chain : ∀ n, chainOf n [] sl p a b d m = none := fun n => by simp [chainOf, one]
  simp only [opEff, one, chain, Option.map_none, Option.getD_none, ne_eq, not_true_eq_false, decide_false, Bool.false_and,
    Bool.false_eq_true, if_false, passCount, ite_self, if_true, longPass, hp, Bool.or_eq_true, decide_eq_true_eq]
  rw [← vecIssue, untrapped]
  exact ⟨_, rfl, rfl⟩

/-- A vector operation of group size 1 that may not trap does what its one pass says. -/
theorem vec_ran {s : State} {k : Nat} (h : QuietCore s k) {p : VecOp} (hp : isMac p = false) (sl : Bool) {ty : VType} {d a b : Fin 32}
    {m : BitVec 9} (form : VecForm s k p ty d a b m) :
    RanRegs s (facetOp s k (some quietIssue) (.vec sl p ty d a b m)) k (vecResults (s.core k).regs (s.core k).tail sl p ty d a b m) := by
  obtain ⟨one, trap, legal⟩ := form
  obtain ⟨l, passed, eff⟩ := opEff_vec (issued s k (.vec sl p ty d a b m)) k hp sl ty d a b one trap
  rw [vecResults, core_issued] at eff
  simp only [vecPass_eccCount, vecIssue_eccCount, bseq_eccCount] at eff
  refine facetOp_ranRegs h (facetOp_issues h rfl legal) (execsTo_vec h (by simp [isElem, one, trap]) ?_ eff) ?_
  · simp [passCount, one, passed]
  · intro x hx
    obtain ⟨y, -, rfl⟩ := List.mem_map.mp hx
    rfl

end Sys2Proof.Machine
end

section
namespace Sys2Proof.Machine

open Sys2Proof.Claims

/-! ## Results element by element (R209, R212, R213) -/

/-- A bit of the value that a list of elements holds is a bit of one of them. -/
theorem placeElems_value (n : Nat) (es : List (Nat × Nat)) {q : Nat} (hq : q < 512) :
    (placeElems n es).2.getLsbD q = true ↔ ∃ e ∈ es, 8 * n * e.1 ≤ q ∧ (e.2 % 2 ^ (8 * n)).testBit (q - 8 * n * e.1) = true := by
  have gen : ∀ mv : W512 × W512, (es.foldl (fun (mv : W512 × W512) (e : Nat × Nat) =>
      (mv.1 ||| BitVec.ofNat 512 ((2 ^ (8 * n) - 1) * 2 ^ (8 * n * e.1)),
        mv.2 ||| BitVec.ofNat 512 (e.2 % 2 ^ (8 * n) * 2 ^ (8 * n * e.1)))) mv).2.getLsbD q = true ↔
      mv.2.getLsbD q = true ∨ ∃ e ∈ es, 8 * n * e.1 ≤ q ∧ (e.2 % 2 ^ (8 * n)).testBit (q - 8 * n * e.1) = true := by
    induction es with
    | nil => simp
    | cons e es ih =>
      intro mv
      rw [List.foldl_cons, ih, BitVec.getLsbD_or, getLsbD_field _ _ _ _ hq]
      simp only [Bool.or_eq_true, Bool.and_eq_true, decide_eq_true_eq, List.mem_cons, exists_eq_or_imp, or_assoc]
  refine (gen (0, 0)).trans ?_
  simp only [BitVec.ofNat_eq_ofNat, BitVec.getLsbD_zero, Bool.false_eq_true, false_or]

/-- An element of the list reads back, cut to its width. -/
theorem elemAt_placeElems {n : Nat} (js : List Nat) (f : Nat → Nat) {j : Nat} (hj : j ∈ js) (fits : 8 * n * (j + 1) ≤ 512) :
    elemAt n (placeElems n (js.map fun i => (i, f i))).2 j = f j % 2 ^ (8 * n) := by
  have low : ∀ i, f i % 2 ^ (8 * n) < 2 ^ (8 * n) := fun i => Nat.mod_lt _ (Nat.two_pow_pos _)
  refine Nat.eq_of_testBit_eq fun b => ?_
  rw [testBit_elemAt]
  by_cases hb : b < 8 * n
  · have hq : 8 * n * j + b < 512 := by rw [Nat.mul_add] at fits; omega
    rw [decide_eq_true hb, Bool.true_and, Bool.eq_iff_iff, placeElems_value n _ hq]
    constructor
    · rintro ⟨e, he, below, set⟩
      obtain ⟨i, -, rfl⟩ := List.mem_map.mp he
      dsimp only at below set
      have near : i = j := by
        have le : 8 * n * j + b - 8 * n * i < 8 * n := by
          by_contra far
          have beyond := Nat.testBit_lt_two_pow ((low i).trans_le (Nat.pow_le_pow_right (by decide) (Nat.not_lt.mp far)))
          rw [beyond] at set
          cases set
        rcases lt_trichotomy i j with lt | eq | gt
        · have := Nat.mul_le_mul_left (8 * n) (Nat.succ_le_of_lt lt)
          rw [Nat.mul_succ] at this
          omega
        · exact eq
        · have := Nat.mul_le_mul_left (8 * n) (Nat.succ_le_of_lt gt)
          rw [Nat.mul_succ] at this
          omega
      subst near
      rwa [Nat.add_sub_cancel_left] at set
    · exact fun set => ⟨(j, f j), List.mem_map.mpr ⟨j, hj, rfl⟩, Nat.le_add_right _ _, by rwa [Nat.add_sub_cancel_left]⟩
  · rw [decide_eq_false hb, Bool.false_and]
    exact (Nat.testBit_lt_two_pow ((low j).trans_le (Nat.pow_le_pow_right (by decide) (Nat.not_lt.mp hb)))).symm

/-- The elements that an operation of `cnt` elements visits. -/
def lanes (c : Core) (sel cnt : Nat) : List Nat := (List.range cnt).filter fun j => (activeMask c.regs c.tail sel cnt 0).getLsbD j

theorem mem_lanes (c : Core) (sel : Nat) {cnt : Nat} (low : cnt ≤ 512) (j : Nat) : j ∈ lanes c sel cnt ↔ Active c sel cnt j := by
  rw [lanes, List.mem_filter, List.mem_range]
  constructor
  · exact fun ⟨lt, on⟩ => (getLsbD_activeMask _ _ _ _ (by omega)).mp on
  · exact fun act => ⟨act.1, (getLsbD_activeMask _ _ _ _ (by have := act.1; omega)).mpr act⟩

/-- A pass result to register `dest`, with the elements `f` of the visited lanes. -/
def lanesOut (dest n : Nat) (js : List Nat) (f : Nat → Nat) : Res :=
  { due := 0, dest := dest, mask := (placeElems n (js.map fun j => (j, f j))).1, val := (placeElems n (js.map fun j => (j, f j))).2 }

theorem lanesOut_writesOnly (dest : Nat) {n : Nat} (hn : 0 < n) (js : List Nat) (f : Nat → Nat) {due src : Nat} {act : Nat → Prop}
    (visits : ∀ j, 8 * n * j < 512 → (j ∈ js ↔ act j)) : WritesOnly { lanesOut dest n js f with due := due, from_ := src } n act := by
  intro q hq
  refine (placeElems_mask hn _ hq).trans ?_
  rw [← visits _ ((Nat.mul_div_le q (8 * n)).trans_lt hq)]
  simp

theorem vec_late {s : State} {k : Nat} (h : QuietCore s k) {p : VecOp} (hp : isMac p = false) (late : 1 < vecLatency p) {sl : Bool}
    {ty : VType} {d a b : Fin 32} {m : BitVec 9} (form : VecForm s k p ty d a b m) {i : Instr}
    (runs : exec i s = .next (facetOp s k (some quietIssue) (.vec sl p ty d a b m))) {P : List Res → Prop}
    (results : P (vecResults (s.core k).regs (s.core k).tail sl p ty d a b m)) : GivesLate i s k P := by
  have ran := vec_ran h hp sl form
  obtain ⟨shown, inflight⟩ := ran.late fun x hx => by
    obtain ⟨y, -, rfl⟩ := List.mem_map.mp hx
    exact Nat.add_lt_add_left late _
  exact ⟨_, runs, ran.ran, by rwa [inflight], regsKept_of_shown h.rests.cmds shown rfl, ran.next, ran.dmem, ran.frame⟩

/-- The lanes that an operation visits as it issues. -/
theorem lanes_of_vecIssue (c : Core) (sl : Bool) {p : VecOp} {ty : VType} (d a b : Fin 32) {m : BitVec 9} {sel cnt : Nat}
    (selected : (if p = .vsel ∨ p = .msel then 0 else modSel m) = sel) (counted : vecCount p ty 1 = cnt) :
    ((List.range cnt).filter fun j => (vecIssue c.regs c.tail sl p ty d a b m).act.getLsbD j) = lanes c sel cnt := by
  subst selected counted
  rfl

/-- An operation whose one result is `f`, lane by lane. -/
theorem givesV_of_lanes {s : State} {k : Nat} (h : QuietCore s k) {p : VecOp} (hp : isMac p = false) (late : 1 < vecLatency p)
    {sl : Bool} {ty : VType} {d a b : Fin 32} {m m' : BitVec 9} (form : VecForm s k p ty d a b m) {i : Instr}
    (runs : exec i s = .next (facetOp s k (some quietIssue) (.vec sl p ty d a b m))) {n cnt : Nat} (hn : 0 < n) (fits : n * cnt ≤ 64)
    (selected : (if p = .vsel ∨ p = .msel then 0 else modSel m) = modSel m') (counted : vecCount p ty 1 = cnt) {f : Nat → Nat}
    (pass : (vecPass (s.core k).regs p ty d a b m (vecIssue (s.core k).regs (s.core k).tail sl p ty d a b m)).res =
      [lanesOut (dV d) n ((List.range cnt).filter fun j => (vecIssue (s.core k).regs (s.core k).tail sl p ty d a b m).act.getLsbD j) f])
    {P : Nat → Nat → Prop}
    (value : ∀ j, Active (s.core k) (modSel m') cnt j → P j (f j % 2 ^ (8 * n))) :
    GivesV i s k m' (vecLatency p) d n cnt P := by
  have count : cnt ≤ 512 := by nlinarith
  have visits := mem_lanes (s.core k) (modSel m') count
  refine vec_late h hp late form runs ?_
  rw [vecResults, pass, lanes_of_vecIssue _ _ _ _ _ selected counted]
  refine ⟨_, rfl, rfl, rfl, rfl, lanesOut_writesOnly _ hn _ _ fun j _ => visits j, fun j act => ?_⟩
  have inside : 8 * n * (j + 1) ≤ 512 := by
    have := Nat.mul_le_mul_left n (show j + 1 ≤ cnt from act.1)
    rw [Nat.mul_assoc]
    omega
  have reads := elemAt_placeElems (lanes (s.core k) (modSel m') cnt) f ((visits j).mpr act) inside
  exact reads ▸ value j act

/-! ## Operations on elements that stand apart (R223) -/

/-- An operation that `elemOp` gives element by element. -/
def isLane (p : VecOp) : Bool :=
  match p with
  | .vadd => true
  | .vsub => true
  | .vneg => true
  | .vabs => true
  | .vmin => true
  | .vmax => true
  | .vand => true
  | .vor => true
  | .vxor => true
  | .vandn => true
  | .vshl => true
  | .vshr => true
  | .vshru => true
  | .vconj => true
  | .vcmulj => true
  | .vmulq => true
  | .vcmulq => true
  | .vcmulqc => true
  | .vfadd => true
  | .vfsub => true
  | .vfmul => true
  | .vfmin => true
  | .vfmax => true
  | .vfma => true
  | _ => false

/-- The result of element `j` of such an operation. -/
def laneValue (r : CoreRegs) (p : VecOp) (ty : VType) (d a b : Fin 32) (m : BitVec 9) (j : Nat) : Nat :=
  (elemOp p ty (modRound m) (modSat m) b (elemAt ty.size (r.getV a) j) (if readsVb p then elemAt ty.size (r.getV b) j else 0)
    (elemAt ty.size (r.getV d) j)).1

theorem isLane_traits {p : VecOp} (hp : isLane p = true) :
    isMac p = false ∧ isCmp p = false ∧ 1 < vecLatency p ∧ p ≠ .vsel ∧ p ≠ .msel ∧ ∀ ty, vecCount p ty 1 = ty.per := by
  cases p <;> simp [isLane] at hp <;> simp [isMac, isCmp, vecLatency, vecCount]

theorem vecPass_lane (r : CoreRegs) {p : VecOp} (hp : isLane p = true) (ty : VType) (d a b : Fin 32) {m : BitVec 9}
    (trap : modTrap m = false) {l : LongOp} (first : l.pass = 0) :
    (vecPass r p ty d a b m l).res =
      [lanesOut (dV d) ty.size ((List.range ty.per).filter fun j => l.act.getLsbD j) (laneValue r p ty d a b m)] := by
  cases p <;> simp [isLane] at hp <;>
    simp [vecPass, isMac, isCmp, trap, first, runElems_untrapped, lanesOut, laneValue]

theorem VType.size_per (ty : VType) : 0 < ty.size ∧ ty.size * ty.per = 64 := by
  cases ty <;> decide

/-- An elementwise operation gives the values of `elemOp`. -/
theorem lane_gives {s : State} {k : Nat} (h : QuietCore s k) {p : VecOp} (hp : isLane p = true) {sl : Bool} {ty : VType}
    {d a b : Fin 32} {m : BitVec 9} (form : VecForm s k p ty d a b m) {i : Instr}
    (runs : exec i s = .next (facetOp s k (some quietIssue) (.vec sl p ty d a b m))) {P : Nat → Nat → Prop}
    (value : ∀ j, P j (laneValue (s.core k).regs p ty d a b m j % 2 ^ (8 * ty.size))) :
    GivesV i s k m (vecLatency p) d ty.size ty.per P := by
  obtain ⟨mac, -, late, noVsel, noMsel, count⟩ := isLane_traits hp
  obtain ⟨pos, whole⟩ := VType.size_per ty
  exact givesV_of_lanes h mac late form runs pos whole.le (if_neg (by simp [noVsel, noMsel])) (count ty)
    (vecPass_lane _ hp ty d a b form.2.1 rfl) fun j _ => value j

end Sys2Proof.Machine
end

section
namespace Sys2Proof.Machine

open Sys2Proof.Claims

/-! ## Results bounded to their type (R220, R221) -/

/-- The numbers that `w` bits hold as two's complement. -/
def FitsIn (w : Nat) (z : Int) : Prop := -(2 ^ (w - 1)) ≤ z ∧ z ≤ 2 ^ (w - 1) - 1

theorem two_pow_half {w : Nat} (hw : 0 < w) : (2 ^ w : Int) = 2 * 2 ^ (w - 1) := by
  rw [← pow_succ', Nat.sub_add_cancel hw]

theorem bmod_fitsIn {w : Nat} (hw : 0 < w) {z : Int} (h : FitsIn w z) : Int.bmod z (2 ^ w) = z := by
  obtain ⟨lo, hi⟩ := h
  have half := two_pow_half hw
  refine Int.bmod_eq_of_le ?_ ?_ <;> push_cast <;> omega

theorem toSigned_fitsIn {w : Nat} (hw : 0 < w) (v : Nat) : FitsIn w (toSigned w v) := by
  have half := two_pow_half hw
  have low : v % 2 ^ w < 2 ^ w := Nat.mod_lt _ (Nat.two_pow_pos w)
  unfold FitsIn toSigned
  zify at low ⊢
  split <;> omega

theorem toSigned_ofSigned_bmod {w : Nat} (hw : 0 < w) (z : Int) : toSigned w (ofSigned w z) = Int.bmod z (2 ^ w) := by
  rw [toSigned_eq_toInt hw, ← BitVec.toInt_ofInt]
  congr 1
  refine BitVec.eq_of_toNat_eq ?_
  rw [BitVec.toNat_ofNat, BitVec.toNat_ofInt, ofSigned]
  have := Int.emod_lt_of_pos z (show (0 : Int) < (2 ^ w : Nat) by positivity)
  refine Nat.mod_eq_of_lt ?_
  omega

theorem fit_fitsIn {w : Nat} (hw : 0 < w) (sat : Bool) {z : Int} (h : FitsIn w z) : fit w sat z = z := by
  unfold fit
  split
  · obtain ⟨lo, hi⟩ := h
    rw [clampInt, if_neg (by omega), if_neg (by omega)]
  · exact bmod_fitsIn hw h

/-- A bounded result reads back as the exact one, fitted. -/
theorem toSigned_bound_fit {w : Nat} (hw : 0 < w) (sat : Bool) (z : Int) : toSigned w (bound w sat z).1 = fit w sat z := by
  have pos : (0 : Int) < 2 ^ (w - 1) := by positivity
  have reads : ∀ y, FitsIn w y → toSigned w (ofSigned w y) = y := fun y hy => (toSigned_ofSigned_bmod hw y).trans (bmod_fitsIn hw hy)
  unfold bound fit clampInt
  push_cast
  by_cases lo : z < -2 ^ (w - 1)
  · rw [if_pos lo, if_pos lo]
    cases sat
    · exact toSigned_ofSigned_bmod hw z
    · exact reads _ ⟨le_rfl, by omega⟩
  · rw [if_neg lo, if_neg lo]
    by_cases hi : 2 ^ (w - 1) - 1 < z
    · rw [if_pos hi, if_pos hi]
      cases sat
      · exact toSigned_ofSigned_bmod hw z
      · exact reads _ ⟨by omega, le_rfl⟩
    · rw [if_neg hi, if_neg hi, reads z ⟨by omega, by omega⟩]
      cases sat
      · exact (bmod_fitsIn hw ⟨by omega, by omega⟩).symm
      · rfl

/-- A rounded quotient lies between the number and 0, or is the next integer above the quotient (R220). -/
theorem roundShift_near (mode s : Nat) (x : Int) (hs : s ≠ 0) : x / 2 ^ s ≤ roundShift mode s x ∧ roundShift mode s x ≤ x / 2 ^ s + 1 := by
  have whole := two_pow_half (Nat.pos_of_ne_zero hs)
  have pos : (0 : Int) < 2 ^ (s - 1) := by positivity
  unfold roundShift
  rw [if_neg hs]
  push_cast
  split
  · omega
  · have up : (x + 2 ^ (s - 1)) / 2 ^ s ≤ (x + 1 * 2 ^ s) / 2 ^ s := Int.ediv_le_ediv (by omega) (by omega)
    rw [Int.add_mul_ediv_right _ _ (by omega)] at up
    exact ⟨Int.ediv_le_ediv (by omega) (by omega), up⟩
  · split
    · omega
    · split
      · omega
      · split <;> omega

theorem roundShift_fitsIn {w : Nat} (hw : 1 < w) (mode s : Nat) {x : Int} (h : FitsIn w x) : FitsIn w (roundShift mode s x) := by
  by_cases hs : s = 0
  · simpa [roundShift, hs] using h
  · obtain ⟨lo, hi⟩ := h
    obtain ⟨below, above⟩ := roundShift_near mode s x hs
    have two : (2 : Int) ≤ 2 ^ s := by
      calc (2 : Int) = 2 ^ 1 := rfl
        _ ≤ 2 ^ s := pow_le_pow_right₀ (by decide) (Nat.pos_of_ne_zero hs)
    have half := two_pow_half (w := w - 1) (by omega)
    have pos : (0 : Int) < 2 ^ (w - 1 - 1) := by positivity
    have least : -(2 ^ (w - 1)) ≤ x / 2 ^ s := (Int.le_ediv_iff_mul_le (by omega)).mpr (by nlinarith)
    have most : x / 2 ^ s ≤ 2 ^ (w - 1 - 1) - 1 := by
      have : x / 2 ^ s < 2 ^ (w - 1 - 1) := (Int.ediv_lt_iff_lt_mul (by omega)).mpr (by nlinarith)
      omega
    exact ⟨by omega, by omega⟩

end Sys2Proof.Machine
end

section
namespace Sys2Proof.Machine

open Sys2Proof.Claims

/-! ## Integer elements by component (R209, R221 to R224) -/

theorem bound_fitsIn {w : Nat} (sat : Bool) {z : Int} (h : FitsIn w z) : bound w sat z = (ofSigned w z, false) := by
  obtain ⟨lo, hi⟩ := h
  unfold bound
  push_cast
  rw [if_neg (by omega), if_neg (by omega)]

theorem VType.comp_pos (ty : VType) : 1 < ty.comp := by cases ty <;> decide

theorem VType.size_comp (ty : VType) : 8 * ty.size = if ty.cplx then 2 * ty.comp else ty.comp := by cases ty <;> decide

theorem pack2_lt_two_pow {w re im : Nat} (hr : re < 2 ^ w) (hi : im < 2 ^ w) : pack2 w re im < 2 ^ (2 * w) := by
  unfold pack2
  rw [Nat.two_mul, pow_add]
  nlinarith

theorem toSigned_mod (w v : Nat) : toSigned w (v % 2 ^ w) = toSigned w v := by
  unfold toSigned
  rw [Nat.mod_mod]

theorem pack2_parts {w re im : Nat} (hr : re < 2 ^ w) : toSigned w (pack2 w re im) = toSigned w re ∧ pack2 w re im / 2 ^ w = im := by
  unfold pack2
  constructor
  · rw [← toSigned_mod w (re + _), Nat.add_mul_mod_self_right, Nat.mod_eq_of_lt hr]
  · rw [Nat.add_mul_div_right _ _ (Nat.two_pow_pos w), Nat.div_eq_of_lt hr, Nat.zero_add]

theorem comps_cplx {ty : VType} (hc : ty.cplx = true) (x : Nat) : comps ty x = [toSigned ty.comp x, toSigned ty.comp (x / 2 ^ ty.comp)] :=
  if_pos hc

/-- A complex element reads back as its two components. -/
theorem comps_pack2 {ty : VType} (hc : ty.cplx = true) {re im : Nat} (hr : re < 2 ^ ty.comp) (hi : im < 2 ^ ty.comp) :
    comps ty (pack2 ty.comp re im % 2 ^ (8 * ty.size)) = [toSigned ty.comp re, toSigned ty.comp im] := by
  have whole : 8 * ty.size = 2 * ty.comp := by rw [VType.size_comp, if_pos hc]
  obtain ⟨low, high⟩ := pack2_parts (im := im) hr
  rw [whole, Nat.mod_eq_of_lt (pack2_lt_two_pow hr hi), comps_cplx hc, low, high]

theorem perComp_value (ty : VType) (sat : Bool) (f : Int → Int → Int) (x y : Nat) : (perComp ty sat f x y).1 =
    if ty.cplx then pack2 ty.comp (bound ty.comp sat (f (toSigned ty.comp x) (toSigned ty.comp y))).1
      (bound ty.comp sat (f (toSigned ty.comp (x / 2 ^ ty.comp)) (toSigned ty.comp (y / 2 ^ ty.comp)))).1
    else (bound ty.comp sat (f (toSigned ty.comp x) (toSigned ty.comp y))).1 := by
  unfold perComp
  cases ty.cplx <;> rfl

/-- An integer operation by component gives the exact results, fitted. -/
theorem byComp_perComp (ty : VType) (sat : Bool) (f : Int → Int → Int) (x y : Nat) :
    ByComp ty sat f x y ((perComp ty sat f x y).1 % 2 ^ (8 * ty.size)) := by
  have pos : 0 < ty.comp := (Nat.lt_succ_self 0).trans (VType.comp_pos ty)
  rw [ByComp, perComp_value]
  cases hc : ty.cplx with
  | true =>
    rw [if_pos rfl, comps_pack2 hc (bound_lt _ _ _) (bound_lt _ _ _), comps_cplx hc, comps_cplx hc, toSigned_bound_fit pos,
      toSigned_bound_fit pos]
    rfl
  | false =>
    have whole : 8 * ty.size = ty.comp := by rw [VType.size_comp, hc]; rfl
    rw [if_neg Bool.false_ne_true, whole, Nat.mod_eq_of_lt (bound_lt _ _ _)]
    simp only [comps, hc, Bool.false_eq_true, if_false, toSigned_bound_fit pos, List.zipWith_cons_cons, List.zipWith_nil_left]

/-- An operation whose results fit needs no saturation (R223, "none"). -/
theorem perComp_fitsIn (ty : VType) (sat : Bool) {f : Int → Int → Int}
    (fits : ∀ u v, FitsIn ty.comp u → FitsIn ty.comp v → FitsIn ty.comp (f u v)) (x y : Nat) :
    perComp ty true f x y = perComp ty sat f x y := by
  have pos : 0 < ty.comp := (Nat.lt_succ_self 0).trans (VType.comp_pos ty)
  have inside : ∀ u v, FitsIn ty.comp (f (toSigned ty.comp u) (toSigned ty.comp v)) := fun u v =>
    fits _ _ (toSigned_fitsIn pos u) (toSigned_fitsIn pos v)
  unfold perComp
  simp only [bound_fitsIn _ (inside _ _)]

theorem byComp_of_fitsIn (ty : VType) (sat : Bool) {f : Int → Int → Int}
    (fits : ∀ u v, FitsIn ty.comp u → FitsIn ty.comp v → FitsIn ty.comp (f u v)) (x y : Nat) :
    ByComp ty sat f x y ((perComp ty true f x y).1 % 2 ^ (8 * ty.size)) := by
  rw [perComp_fitsIn ty sat fits]
  exact byComp_perComp ty sat f x y

/-- A ci16 product of Q15 numbers is the exact product, scaled and fitted (R224). -/
theorem comps_cmulQ15 (conj : Bool) (mode : Nat) (sat : Bool) (x y : Nat) :
    comps .ci16 ((cmulQ15 conj mode sat x y).1 % 2 ^ (8 * VType.ci16.size)) =
      [fit 16 sat (roundShift mode 15 (cprod conj (ci16Of x) (ci16Of y)).1),
        fit 16 sat (roundShift mode 15 (cprod conj (ci16Of x) (ci16Of y)).2)] :=
  (comps_pack2 (ty := .ci16) rfl (bound_lt _ _ _) (bound_lt _ _ _)).trans
    (by rw [show VType.ci16.comp = 16 from rfl, toSigned_bound_fit (by decide), toSigned_bound_fit (by decide)])

theorem typeOk_of_legal {tail : Nat} {p : VecOp} {ty : VType} {d a b : Nat} {m : BitVec 9} (h : vecIllegal tail p ty d a b m = false) :
    typeOk p ty = true := by
  cases ok : typeOk p ty with
  | true => rfl
  | false => simp [vecIllegal, ok] at h

/-- Settles O27: element by element, each operation is `elemOp` of R223, and its components are the exact results, fitted. -/
theorem vectorInteger : Obligations.VectorInteger := by
  intro k sl ty d a b m s h q sat x y gives
  have low : ∀ (v : Fin 32) (j : Nat), elemOf s k ty v j < 2 ^ (8 * ty.size) := fun v j => elemAt_lt _ _ _
  have pos : 0 < ty.comp := (Nat.lt_succ_self 0).trans (VType.comp_pos ty)
  have fits_min : ∀ u v, FitsIn ty.comp u → FitsIn ty.comp v → FitsIn ty.comp (min u v) := fun u v hu hv => by
    rcases min_choice u v with e | e <;> rw [e] <;> assumption
  have fits_max : ∀ u v, FitsIn ty.comp u → FitsIn ty.comp v → FitsIn ty.comp (max u v) := fun u v hu hv => by
    rcases max_choice u v with e | e <;> rw [e] <;> assumption
  refine ⟨fun form => lane_gives h rfl form rfl fun j => byComp_perComp ty sat _ _ _,
    fun form => lane_gives h rfl form rfl fun j => byComp_perComp ty sat _ _ _,
    fun form => lane_gives h rfl form rfl fun j => byComp_perComp ty sat (fun u _ => -u) _ (x j),
    fun form => lane_gives h rfl form rfl fun j => ?_,
    fun form => lane_gives h rfl form rfl fun j => byComp_of_fitsIn ty sat fits_min _ _,
    fun form => lane_gives h rfl form rfl fun j => byComp_of_fitsIn ty sat fits_max _ _,
    fun form => lane_gives h rfl form rfl fun j => Nat.mod_eq_of_lt (Nat.and_lt_two_pow _ (low b j)),
    fun form => lane_gives h rfl form rfl fun j => Nat.mod_eq_of_lt (Nat.or_lt_two_pow (low a j) (low b j)),
    fun form => lane_gives h rfl form rfl fun j => Nat.mod_eq_of_lt (Nat.xor_lt_two_pow (low a j) (low b j)),
    fun form => lane_gives h rfl form rfl fun j => Nat.mod_eq_of_lt (Nat.and_le_left.trans_lt (low a j)),
    fun form => lane_gives h rfl form rfl fun j => ?_,
    fun form => lane_gives h rfl form rfl fun j =>
      byComp_of_fitsIn ty sat (fun u _ hu _ => roundShift_fitsIn (VType.comp_pos ty) (modRound m) b hu) _ (x j),
    fun form => lane_gives h rfl form rfl fun j => Nat.mod_eq_of_lt ((Nat.div_le_self _ _).trans_lt (low a j)),
    fun form => lane_gives h rfl form rfl fun j => ?_,
    fun form => lane_gives h rfl form rfl fun j => ?_,
    fun form => lane_gives h rfl form rfl fun j => byComp_perComp ty sat _ _ _,
    ?_, ?_⟩
  · have abs : (fun u _ => |u| : Int → Int → Int) = fun u _ => (u.natAbs : Int) := by simp only [Int.natCast_natAbs]
    rw [abs]
    exact byComp_perComp ty sat (fun u _ => (u.natAbs : Int)) _ (x j)
  · have scale : (2 ^ b.val : Int) = (2 ^ b.val : Nat) := by push_cast; rfl
    simp only [scale]
    exact byComp_perComp ty sat (fun u _ => u * (2 ^ b.val : Nat)) _ (x j)
  · have hc : ty.cplx = true := typeOk_of_legal form.2.2
    refine ⟨_, _, comps_cplx hc _, (comps_pack2 hc (Nat.mod_lt _ (Nat.two_pow_pos _)) (bound_lt _ _ _)).trans ?_⟩
    rw [toSigned_mod, toSigned_bound_fit pos]
    rfl
  · have hc : ty.cplx = true := typeOk_of_legal form.2.2
    refine ⟨_, _, comps_cplx hc _, (comps_pack2 hc (bound_lt _ _ _) (Nat.mod_lt _ (Nat.two_pow_pos _))).trans ?_⟩
    rw [toSigned_mod, toSigned_bound_fit pos]
    rfl
  · rintro rfl form
    refine lane_gives h (p := .vcmulq) rfl form rfl fun j => ⟨_, _, _, _, comps_cplx rfl _, comps_cplx rfl _, ?_⟩
    exact comps_cmulQ15 false (modRound m) sat (x j) (y j)
  · rintro rfl form
    refine lane_gives h (p := .vcmulqc) rfl form rfl fun j => ⟨_, _, _, _, comps_cplx rfl _, comps_cplx rfl _, ?_⟩
    refine (comps_cmulQ15 true (modRound m) sat (x j) (y j)).trans ?_
    simp only [cprod, ci16Of, if_true, mul_neg, sub_neg_eq_add, neg_add_eq_sub]
    rfl

end Sys2Proof.Machine
end

section
namespace Sys2Proof.Machine

open Sys2Proof.Claims

/-! ## Results that the next bundle reads (R182, R223) -/

theorem Res.over_whole {x : Res} (whole : x.mask = ones512) (old : W512) : x.over old = x.val := by
  simp [Res.over, whole]

theorem Shown.put_g (w : Shown) {x : Res} {d : Fin 32} (dest : x.dest = d) :
    w.put x = { w with g := Function.update w.g d (x.val.setWidth 64) } := by
  rw [Shown.put, if_pos (dest ▸ d.isLt), dest]

theorem Shown.put_v (w : Shown) {x : Res} {d : Fin 32} (dest : x.dest = 32 + d) :
    w.put x = { w with v := Function.update w.v d (x.over (w.v d)) } := by
  have := d.isLt
  rw [Shown.put, if_neg (by omega), if_pos (by omega), show x.dest - 32 = d by omega]

theorem Shown.put_m (w : Shown) {x : Res} {d : Nat} (low : d < 8) (dest : x.dest = 64 + d) (whole : x.mask = ones512) :
    w.put x = { w with m := Function.update w.m d x.val } := by
  rw [Shown.put, if_neg (by omega), if_neg (by omega), if_pos (by omega), show x.dest - 64 = d by omega, Res.over_whole whole]

theorem Shown.put_vl (w : Shown) {x : Res} (dest : x.dest = 72) : w.put x = { w with vl := x.val.toNat % 1024 } := by
  rw [Shown.put, if_neg (by omega), if_neg (by omega), if_neg (by omega)]

/-- Registers of which only `Gd` has changed. -/
theorem regsKept_of_put_g {s t : State} {k : Nat} (idle : (s.core k).regs.cmds = []) {d : Fin 32} {v : W64}
    (shown : (t.core k).regs.shown = { (s.core k).regs.shown with g := Function.update (s.core k).regs.getG d v })
    (under : (t.core k).regs.inflight = []) : (t.core k).regs.getG d = v ∧ RegsKept s t k [d.val] [] [] := by
  have reads : ∀ j, (t.core k).regs.getG j = Function.update (s.core k).regs.getG d v j := congrFun (congrArg Shown.g shown)
  refine ⟨(reads d).trans (Function.update_self _ _ _), fun j hj => ?_, fun j _ => congrFun (congrArg Shown.c shown) j,
    congrFun (congrArg Shown.v shown), congrFun (congrArg Shown.m shown), congrArg Shown.vl shown, under,
    (congrArg Shown.cmds shown).trans idle, congrArg Shown.demapRec shown, congrArg Shown.solveRec shown⟩
  exact (reads j).trans (Function.update_of_ne (by simpa using hj) _ _)

section
variable {s : State} {k : Nat} (h : QuietCore s k) {p : VecOp} (hp : isMac p = false) (at_once : vecLatency p = 1) {sl : Bool}
  {ty : VType} {d a b : Fin 32} {m : BitVec 9} (form : VecForm s k p ty d a b m) {i : Instr}
  (runs : exec i s = .next (facetOp s k (some quietIssue) (.vec sl p ty d a b m)))
include h hp at_once form runs

/-- A vector operation of latency 1: its results stand in the registers. -/
theorem vec_now : Does i s fun t => RanRegs s t k (vecResults (s.core k).regs (s.core k).tail sl p ty d a b m) ∧
    (t.core k).regs.shown =
      (vecResults (s.core k).regs (s.core k).tail sl p ty d a b m).foldl Shown.put (s.core k).regs.shown ∧
    (t.core k).regs.inflight = [] := by
  have ran := vec_ran h hp sl form
  obtain ⟨shown, inflight⟩ := ran.now fun x hx => by
    obtain ⟨y, -, rfl⟩ := List.mem_map.mp hx
    exact congrArg _ at_once
  exact ⟨_, runs, ran, shown, inflight⟩

/-- An operation whose one result goes to a G register. -/
theorem vec_givesG {x : Res} (pass : (vecPass (s.core k).regs p ty d a b m (vecIssue (s.core k).regs (s.core k).tail sl p ty d a b m)).res
    = [x]) (dest : x.dest = d) : GivesG i s k d (x.val.setWidth 64) := by
  obtain ⟨t, runs, ran, shown, inflight⟩ := vec_now h hp at_once form runs
  rw [vecResults, pass] at shown
  obtain ⟨value, kept⟩ := regsKept_of_put_g h.rests.cmds (shown.trans (Shown.put_g _ dest)) inflight
  exact ⟨t, runs, ran.ran, value, kept, ran.next, ran.dmem, ran.frame⟩

/-- An operation whose one result is a whole mask register. -/
theorem vec_givesM {x : Res} (pass : (vecPass (s.core k).regs p ty d a b m (vecIssue (s.core k).regs (s.core k).tail sl p ty d a b m)).res
    = [x]) (dest : x.dest = dM d) (low : d.val < 8) (whole : x.mask = ones512) :
    Does i s fun t => Ran s t k ∧ (t.core k).regs.getM d = x.val ∧
      (∀ j, j ≠ d.val → (t.core k).regs.getM j = (s.core k).regs.getM j) ∧
      (∀ j, (t.core k).regs.getG j = (s.core k).regs.getG j) ∧ (∀ j, (t.core k).regs.getV j = (s.core k).regs.getV j) ∧
      (∀ j, (t.core k).regs.getC j = (s.core k).regs.getC j) ∧ (t.core k).regs.vl = (s.core k).regs.vl ∧
      (t.core k).regs.inflight = [] ∧ NextAt t k ((s.core k).regs.pc + 16) none ∧ DmemKept s t k ∧ SameExcept [.facet] s t := by
  obtain ⟨t, runs, ran, shown, inflight⟩ := vec_now h hp at_once form runs
  rw [vecResults, pass] at shown
  replace shown := shown.trans (Shown.put_m _ low dest whole)
  have reads : ∀ j, (t.core k).regs.getM j = Function.update (s.core k).regs.getM d x.val j := congrFun (congrArg Shown.m shown)
  exact ⟨t, runs, ran.ran, (reads d).trans (Function.update_self _ _ _),
    fun j hj => (reads j).trans (Function.update_of_ne hj _ _), congrFun (congrArg Shown.g shown), congrFun (congrArg Shown.v shown),
    congrFun (congrArg Shown.c shown), congrArg Shown.vl shown, inflight, ran.next, ran.dmem, ran.frame⟩

end

/-! ## Mask operations (R223) -/

/-- The destination of a mask operation is one of the eight mask registers. -/
theorem maskDest_lt {tail : Nat} {p : VecOp} {ty : VType} {d a b : Nat} {m : BitVec 9} (h : vecIllegal tail p ty d a b m = false)
    (mask : isMaskOp p = true) (dest : p ≠ .mpopc) : d < 8 := by
  by_contra high
  simp [vecIllegal, mask, dest, Nat.not_lt.mp high] at h

theorem popcount_512 (x : W512) : popcount 512 x.toNat = ((List.range 512).filter fun i => x.getLsbD i).length := by
  have bits : ∀ i, bit x.toNat i = x.getLsbD i := fun i => by rw [bit, BitVec.getLsbD, Nat.testBit_eq_decide_div_mod_eq]
  simp only [popcount, bits]
  rw [foldl_b2n, Nat.zero_add]

/-- Settles O30: each operation has one result, a whole mask register, but for MPOPC's count in `Gd`. -/
theorem maskOperations : Obligations.MaskOperations := by
  intro k sl d a b m s h q r x y z gives
  have mask : ∀ (o : VecOp) (i : Instr) (v : W512), isMac o = false → vecLatency o = 1 → isMaskOp o = true → o ≠ .mpopc →
      exec i s = .next (facetOp s k q (.vec sl o .i8 d a b m)) →
      (vecPass r o .i8 d a b m (vecIssue r (s.core k).tail sl o .i8 d a b m)).res =
        [{ due := 0, dest := dM d, mask := ones512, val := v }] → gives o i v :=
    fun o i v mac lat hm dest runs pass form => vec_givesM h mac lat form runs pass rfl (maskDest_lt form.2.2 hm dest) rfl
  refine ⟨mask .mand _ _ rfl rfl rfl (by decide) rfl rfl, mask .mor _ _ rfl rfl rfl (by decide) rfl rfl,
    mask .mxor _ _ rfl rfl rfl (by decide) rfl rfl, mask .mandn _ _ rfl rfl rfl (by decide) rfl rfl,
    mask .mnot _ _ rfl rfl rfl (by decide) rfl rfl, mask .msel _ _ rfl rfl rfl (by decide) rfl rfl,
    mask .mlen _ _ rfl rfl rfl (by decide) rfl rfl, fun form => ?_⟩
  have count := vec_givesG h (p := .mpopc) rfl rfl form (i := .mpopc k q sl d a b m) rfl rfl rfl
  rw [BitVec.setWidth_ofNat_of_le (by decide), popcount_512] at count
  exact count

end Sys2Proof.Machine
end

section
namespace Sys2Proof.Machine

open Sys2Proof.Claims

/-! ## Conversions between element sizes (R212, R223) -/

/-- Element `j` of a narrowed pair (VNARROW), and of a narrowed complex pair (VCNARROW). -/
def narrowValue (r : CoreRegs) (a b mode j : Nat) : Nat :=
  (bound 16 true (roundShift mode b (toSigned 32 (pairElem 4 (r.getV a) (r.getV (a + 1)) j)))).1

def cnarrowValue (r : CoreRegs) (a b mode j : Nat) : Nat :=
  let z := ci32Of (pairElem 8 (r.getV a) (r.getV (a + 1)) j)
  pack2 16 (bound 16 true (roundShift mode b z.1)).1 (bound 16 true (roundShift mode b z.2)).1

/-- Element `j` of a widened register (VCWIDEN). -/
def cwidenValue (r : CoreRegs) (a b j : Nat) : Nat :=
  let z := ci16Of (elemAt 4 (r.getV a) j)
  pack2 32 (ofSigned 32 (z.1 * (2 ^ b : Nat))) (ofSigned 32 (z.2 * (2 ^ b : Nat)))

section
variable (r : CoreRegs) (ty : VType) (d a b : Nat) {m : BitVec 9} (trap : modTrap m = false) (l : LongOp)

include trap in
theorem vecPass_vnarrow : (vecPass r .vnarrow ty d a b m l).res =
    [lanesOut (dV d) 2 ((List.range 32).filter fun j => l.act.getLsbD j) (narrowValue r a b (modRound m))] := by
  simp [vecPass, isMac, trap, runElems_untrapped, lanesOut, narrowValue]

include trap in
theorem vecPass_vcnarrow : (vecPass r .vcnarrow ty d a b m l).res =
    [lanesOut (dV d) 4 ((List.range 16).filter fun j => l.act.getLsbD j) (cnarrowValue r a b (modRound m))] := by
  simp [vecPass, isMac, trap, runElems_untrapped, lanesOut, cnarrowValue]

/-- The pair that VCWIDEN writes: elements 0 to 7, and elements 8 to 15. -/
theorem vecPass_vcwiden : (vecPass r .vcwiden ty d a b m l).res =
    [lanesOut (dV d) 8 (((List.range 16).filter fun j => l.act.getLsbD j).filter fun j => j < 8) (cwidenValue r a b),
      lanesOut (dV (d + 1)) 8 ((((List.range 16).filter fun j => l.act.getLsbD j).filter fun j => 8 ≤ j).map fun j => j - 8)
        fun j => cwidenValue r a b (j + 8)] := by
  have upper : ∀ js : List Nat, ((js.filter fun j => 8 ≤ j).map fun j => (j - 8, cwidenValue r a b j)) =
      (js.filter fun j => 8 ≤ j).map fun j => (j - 8, cwidenValue r a b (j - 8 + 8)) := fun js =>
    List.map_congr_left fun j hj => by rw [Nat.sub_add_cancel (by simpa using (List.mem_filter.mp hj).2)]
  simp only [lanesOut, List.map_map, Function.comp_def]
  rw [← upper]
  simp only [vecPass, isMac, Bool.false_eq_true, if_false, List.filter_map, List.map_map, Function.comp_def]
  rfl

theorem vecPass_vsel (first : l.pass = 0) : (vecPass r .vsel ty d a b m l).res =
    [lanesOut (dV d) ty.size ((List.range ty.per).filter fun j => l.act.getLsbD j) fun j =>
      if l.lo.getLsbD j then elemAt ty.size (r.getV a) j else elemAt ty.size (r.getV b) j] := by
  simp [vecPass, isMac, first, lanesOut]

theorem vecPass_vsplat (first : l.pass = 0) : (vecPass r .vsplat ty d a b m l).res =
    [lanesOut (dV d) ty.size ((List.range ty.per).filter fun j => l.act.getLsbD j) fun _ => l.scalar.toNat] := by
  simp [vecPass, isMac, first, lanesOut]

theorem vecPass_vslide (n : Fin 64) (first : l.pass = 0) : (vecPass r (.vslide n) ty d a b m l).res =
    [lanesOut (dV d) ty.size ((List.range ty.per).filter fun j => l.act.getLsbD j) fun j =>
      pairElem ty.size (r.getV a) (r.getV b) (j + n.val)] := by
  simp [vecPass, isMac, first, lanesOut]

end

end Sys2Proof.Machine
end

section
namespace Sys2Proof.Machine

open Sys2Proof.Claims

/-! ## Sums, compares and the vector length (R212, R214, R223) -/

theorem foldl_pair_sum (f : Nat → Int × Int) (js : List Nat) (z : Int × Int) :
    js.foldl (fun s i => (s.1 + (f i).1, s.2 + (f i).2)) z = (z.1 + (js.map fun i => (f i).1).sum, z.2 + (js.map fun i => (f i).2).sum) := by
  induction js generalizing z with
  | nil => simp
  | cons j js ih => simp [ih, Int.add_assoc]

/-- A component of the sum that VCRSUM rounds, over the lanes `js` of the pair at `Va`. -/
def crsumTotal (r : CoreRegs) (a : Nat) (js : List Nat) (part : Int × Int → Int) : Int :=
  (js.map fun j => part (ci32Of (pairElem 8 (r.getV a) (r.getV (a + 1)) j))).sum

/-- What VCRSUM gives: both components of the sum, rounded and saturated. -/
def crsumValue (r : CoreRegs) (a b mode : Nat) (js : List Nat) : Nat :=
  pack2 32 (bound 32 true (roundShift mode b (crsumTotal r a js fun z => z.1))).1
    (bound 32 true (roundShift mode b (crsumTotal r a js fun z => z.2))).1

theorem vecPass_vcrsum (r : CoreRegs) (ty : VType) (d a b : Nat) {m : BitVec 9} (trap : modTrap m = false) (l : LongOp) :
    (vecPass r .vcrsum ty d a b m l).res = [{
      due := 0, dest := dG d, mask := ones512
      val := BitVec.ofNat 512 (crsumValue r a b (modRound m) ((List.range 16).filter fun j => l.act.getLsbD j)) }] := by
  simp only [vecPass, isMac, Bool.false_eq_true, if_false, trap, Bool.false_and, crsumValue, crsumTotal]
  rw [foldl_pair_sum fun j => ci32Of (pairElem 8 (r.getV a) (r.getV (a + 1)) j)]
  simp only [zero_add]

theorem crsumValue_lt (r : CoreRegs) (a b mode : Nat) (js : List Nat) : crsumValue r a b mode js < 2 ^ 64 :=
  pack2_lt (bound_lt _ _ _) (bound_lt _ _ _)

theorem ci32Of_crsumValue (r : CoreRegs) (a b mode : Nat) (js : List Nat) : ci32Of (crsumValue r a b mode js) =
    (fit 32 true (roundShift mode b (crsumTotal r a js fun z => z.1)), fit 32 true (roundShift mode b (crsumTotal r a js fun z => z.2))) := by
  rw [crsumValue, ci32Of_pack2 (bound_lt _ _ _), toSigned_bound, toSigned_bound]

/-- The lanes, said as the statements say them. -/
theorem lanes_eq_filter (c : Core) (sel : Nat) {cnt : Nat} (low : cnt ≤ 512) : lanes c sel cnt = (List.range cnt).filter fun j =>
    decide (c.tail ≠ 0 ∨ j < c.regs.vl) && (decide (c.tail = 0 ∨ sel = 0) || (c.regs.getM sel).getLsbD j) := by
  refine List.filter_congr fun j hj => ?_
  have lt := List.mem_range.mp hj
  rw [Bool.eq_iff_iff, getLsbD_activeMask _ _ _ _ (by omega)]
  simp only [Bool.and_eq_true, Bool.or_eq_true, decide_eq_true_eq]
  tauto

/-- A number put together from powers of 2 has the bits of those powers. -/
theorem foldl_two_pow (on c : Nat → Bool) (n : Nat) :
    ((List.range n).filter on).foldl (fun acc i => if c i then acc + 2 ^ i else acc) 0 < 2 ^ n ∧
      ∀ j, (((List.range n).filter on).foldl (fun acc i => if c i then acc + 2 ^ i else acc) 0).testBit j =
        (decide (j < n) && on j && c j) := by
  induction n with
  | zero => simp
  | succ n ih =>
    obtain ⟨low, bits⟩ := ih
    rw [List.range_succ, List.filter_append, List.foldl_append]
    generalize ((List.range n).filter on).foldl (fun acc i => if c i then acc + 2 ^ i else acc) 0 = v at low bits
    by_cases new : on n = true ∧ c n = true
    · obtain ⟨hon, hc⟩ := new
      simp only [List.filter_cons, hon, if_true, List.filter_nil, List.foldl_cons, List.foldl_nil, hc]
      refine ⟨by rw [pow_succ]; omega, fun j => ?_⟩
      rcases lt_trichotomy j n with lt | rfl | gt
      · rw [Nat.add_comm, Nat.testBit_two_pow_add_gt lt, bits, decide_eq_true lt, decide_eq_true (by omega)]
      · rw [Nat.add_comm, Nat.testBit_two_pow_add_eq, Nat.testBit_lt_two_pow low]
        simp [hon, hc]
      · rw [decide_eq_false (by omega), Bool.false_and, Bool.false_and]
        refine Nat.testBit_lt_two_pow (lt_of_lt_of_le (b := 2 ^ (n + 1)) (by rw [pow_succ]; omega) ?_)
        exact Nat.pow_le_pow_right (by decide) gt
    · have same : ([n].filter on).foldl (fun acc i => if c i then acc + 2 ^ i else acc) v = v := by
        cases hon : on n <;> cases hc : c n <;> simp_all
      rw [same]
      refine ⟨low.trans (Nat.pow_lt_pow_succ (by decide)), fun j => ?_⟩
      rw [bits]
      rcases Nat.lt_trichotomy j n with lt | rfl | gt
      · rw [decide_eq_true lt, decide_eq_true (by omega)]
      · cases hon : on j <;> cases hc : c j <;> simp_all
      · rw [decide_eq_false (by omega), decide_eq_false (by omega)]

theorem vecPass_cmp (r : CoreRegs) {p : VecOp} (hp : isCmp p = true) (ty : VType) (d a b : Nat) (m : BitVec 9) {l : LongOp}
    (first : l.pass = 0) (fresh : l.start = 0) :
    (vecPass r p ty d a b m l).res = [{ due := 0, dest := dM d, mask := ones512
                                        val := BitVec.ofNat 512 (((List.range ty.per).filter fun j => l.act.getLsbD j).foldl
      (fun acc j => if cmpElem p ty (elemAt ty.size (r.getV a) j) (elemAt ty.size (r.getV b) j) then acc + 2 ^ j else acc) 0) }] := by
  have whole : ones512 &&& ~~~BitVec.ofNat 512 (2 ^ 0 - 1) = ones512 := by
    rw [Nat.pow_zero, Nat.sub_self, BitVec.not_zero, BitVec.and_self]
  cases p <;> simp [isCmp] at hp <;>
    simp only [vecPass, isMac, isCmp, first, fresh, whole, Nat.mul_zero, Nat.zero_add, Nat.add_zero, reduceCtorEq, decide_true,
      decide_false, Bool.true_or, Bool.or_true, Bool.or_self, Bool.false_eq_true, if_true, if_false]

theorem cmpElem_int {ty : VType} (no16 : ty ≠ .fp16) (no32 : ty ≠ .fp32) (x y : Nat) :
    cmpElem .vcmpeq ty x y = decide (toSigned ty.comp x = toSigned ty.comp y) ∧
      cmpElem .vcmplt ty x y = decide (toSigned ty.comp x < toSigned ty.comp y) ∧
      cmpElem .vcmple ty x y = decide (toSigned ty.comp x ≤ toSigned ty.comp y) := by
  cases ty
  case fp16 => exact absurd rfl no16
  case fp32 => exact absurd rfl no32
  all_goals exact ⟨rfl, rfl, rfl⟩

/-- A compare writes one bit per element, and 0 for every other. -/
theorem cmp_gives {s : State} {k : Nat} (h : QuietCore s k) {p : VecOp} (hp : isCmp p = true) {sl : Bool} {ty : VType} {d a b : Fin 32}
    {m : BitVec 9} (form : VecForm s k p ty d a b m) {i : Instr}
    (runs : exec i s = .next (facetOp s k (some quietIssue) (.vec sl p ty d a b m))) {P : Int → Int → Prop}
    (compares : ∀ x y, cmpElem p ty x y = true ↔ P (toSigned ty.comp x) (toSigned ty.comp y)) :
    GivesLate i s k fun l => ∃ z, l = [z] ∧ z.dest = 64 + d ∧ z.due = (s.core k).regs.bseq + 2 ∧ z.mask = BitVec.allOnes 512 ∧
      ∀ j < 512, z.val.getLsbD j = true ↔ Active (s.core k) (modSel m) ty.per j ∧
        P (toSigned ty.comp (elemOf s k ty a j)) (toSigned ty.comp (elemOf s k ty b j)) := by
  have traits : isMac p = false ∧ vecLatency p = 2 ∧ p ≠ .vsel ∧ p ≠ .msel ∧ vecCount p ty 1 = ty.per := by
    cases p <;> simp [isCmp] at hp <;> simp [isMac, vecLatency, vecCount]
  obtain ⟨mac, lat, noVsel, noMsel, count⟩ := traits
  refine vec_late h mac (by rw [lat]; decide) form runs ?_
  rw [vecResults, vecPass_cmp _ hp ty d a b m rfl rfl]
  refine ⟨_, rfl, rfl, by rw [← lat], rfl, fun j hj => ?_⟩
  have per : ty.per ≤ 512 := by
    obtain ⟨-, whole⟩ := VType.size_per ty
    nlinarith [VType.size_per ty]
  have visits := mem_lanes (s.core k) (modSel m) per j
  rw [lanes, List.mem_filter, List.mem_range] at visits
  dsimp only
  rw [BitVec.getLsbD_ofNat, decide_eq_true hj, Bool.true_and, (foldl_two_pow _ _ _).2]
  simp only [vecIssue, noVsel, noMsel, or_self, if_false, count, Bool.and_eq_true, decide_eq_true_eq, visits, compares]
  rfl

/-- SETVL bounds VL for the next bundle, and gives it in `Gd` (R212). -/
theorem setvl_does {s : State} {k : Nat} (h : QuietCore s k) {sl : Bool} {ty : VType} {d a : Fin 32} {m : BitVec 9}
    (form : VecForm s k .setvl ty d a 0 m) {i : Instr}
    (runs : exec i s = .next (facetOp s k (some quietIssue) (.vec sl .setvl ty d a 0 m))) :
    Does i s fun t => RanRegs s t k (vecResults (s.core k).regs (s.core k).tail sl .setvl ty d a 0 m) ∧
      (t.core k).regs.inflight = [] ∧ (t.core k).regs.shown = { (s.core k).regs.shown with
        g := Function.update (s.core k).regs.getG d (BitVec.ofNat 64 (min ((s.core k).regs.getG a).toNat ty.per))
        vl := min ((s.core k).regs.getG a).toNat ty.per } := by
  obtain ⟨t, runs, ran, shown, inflight⟩ := vec_now h rfl rfl form runs
  refine ⟨t, runs, ran, inflight, shown.trans ?_⟩
  have per : ty.per ≤ 64 := by cases ty <;> decide
  have pass : (vecPass (s.core k).regs .setvl ty d a (0 : Fin 32) m (vecIssue (s.core k).regs (s.core k).tail sl .setvl ty d a 0 m)).res =
      [{ due := 0, dest := dG d, mask := ones512, val := BitVec.ofNat 512 (min ((s.core k).regs.getG a).toNat ty.per) },
        { due := 0, dest := dVL, mask := ones512, val := BitVec.ofNat 512 (min ((s.core k).regs.getG a).toNat ty.per) }] := by
    simp only [vecPass, isMac, vecIssue, macScalar, Bool.false_eq_true, if_false, Nat.mul_one]
    rfl
  have fits : (BitVec.ofNat 512 (min ((s.core k).regs.getG a).toNat ty.per)).toNat % 1024 = min ((s.core k).regs.getG a).toNat ty.per := by
    rw [BitVec.toNat_ofNat]
    omega
  rw [vecResults, pass, List.map_cons, List.map_cons, List.map_nil, List.foldl_cons, List.foldl_cons, List.foldl_nil,
    Shown.put_vl _ rfl, Shown.put_g (d := d) _ rfl]
  dsimp only
  rw [fits, BitVec.setWidth_ofNat_of_le (by decide)]
  rfl

end Sys2Proof.Machine
end

section
namespace Sys2Proof.Machine

open Sys2Proof.Claims

theorem shift_of_vcwiden {tail : Nat} {ty : VType} {d a b : Nat} {m : BitVec 9} (h : vecIllegal tail .vcwiden ty d a b m = false) :
    b ≤ 15 := by
  by_contra high
  simp [vecIllegal, shiftBad, Nat.lt_of_not_le high] at h

/-- A ci16 component scaled by at most 2^15 is a ci32 component (R223). -/
theorem scaled_fitsIn {b : Nat} (hb : b ≤ 15) (x : Nat) : toSigned 32 (ofSigned 32 (toSigned 16 x * (2 ^ b : Nat))) = toSigned 16 x * 2 ^ b := by
  obtain ⟨lo, hi⟩ := toSigned_fitsIn (w := 16) (by decide) x
  have most : (2 ^ b : Int) ≤ 2 ^ 15 := pow_le_pow_right₀ (by decide) hb
  have pos : (0 : Int) < 2 ^ b := by positivity
  rw [toSigned_ofSigned_bmod (by decide)]
  push_cast
  refine bmod_fitsIn (w := 32) (by decide) ⟨?_, ?_⟩ <;> norm_num at lo hi most ⊢ <;> nlinarith

theorem ci32Of_cwidenValue (r : CoreRegs) (a : Nat) {b : Nat} (hb : b ≤ 15) (j : Nat) : ci32Of (cwidenValue r a b j % 2 ^ (8 * 8)) =
    ((ci16Of (elemAt 4 (r.getV a) j)).1 * 2 ^ b, (ci16Of (elemAt 4 (r.getV a) j)).2 * 2 ^ b) := by
  have low : ∀ z, ofSigned 32 z < 2 ^ 32 := fun z => by
    have := Int.emod_lt_of_pos z (show (0 : Int) < (2 ^ 32 : Nat) by decide)
    unfold ofSigned
    omega
  have small : cwidenValue r a b j < 2 ^ (8 * 8) := pack2_lt (low _) (low _)
  rw [Nat.mod_eq_of_lt small, cwidenValue, ci32Of_pack2 (low _)]
  exact Prod.ext (scaled_fitsIn hb _) (scaled_fitsIn hb _)

/-- A narrowed complex element holds both components, rounded and saturated (R223). -/
theorem ci16Of_cnarrowValue (r : CoreRegs) (a b mode j : Nat) : ci16Of (cnarrowValue r a b mode j % 2 ^ (8 * 4)) =
    (fit 16 true (roundShift mode b (ci32Of (pairElem 8 (r.getV a) (r.getV (a + 1)) j)).1),
      fit 16 true (roundShift mode b (ci32Of (pairElem 8 (r.getV a) (r.getV (a + 1)) j)).2)) := by
  have low := fun z => bound_lt 16 true z
  have small : cnarrowValue r a b mode j < 2 ^ (8 * 4) := pack2_lt_two_pow (low _) (low _)
  rw [Nat.mod_eq_of_lt small, cnarrowValue, ci16Of, (pack2_parts (low _)).1, (pack2_parts (low _)).2,
    toSigned_bound_fit (by decide), toSigned_bound_fit (by decide)]

section
variable {s : State} {k : Nat} (h : QuietCore s k) {sl : Bool} {d a b : Fin 32} {m : BitVec 9} {i : Instr}
include h

/-- VCWIDEN writes the active elements of its pair. -/
theorem vcwiden_gives (form : VecForm s k .vcwiden .ci16 d a b m)
    (runs : exec i s = .next (facetOp s k (some quietIssue) (.vec sl .vcwiden .ci16 d a b m))) :
    GivesLate i s k fun l => ∃ u v, l = [u, v] ∧ u.dest = 32 + d ∧ v.dest = 32 + d + 1 ∧ u.due = (s.core k).regs.bseq + 2 ∧
      v.due = (s.core k).regs.bseq + 2 ∧ WritesOnly u 8 (fun j => Active (s.core k) (modSel m) 16 j) ∧
      WritesOnly v 8 (fun j => Active (s.core k) (modSel m) 16 (j + 8)) ∧
      ∀ j, Active (s.core k) (modSel m) 16 j → ci32Of (pairElem 8 u.val v.val j) =
        ((ci16Of (elemAt 4 ((s.core k).regs.getV a) j)).1 * 2 ^ b.val, (ci16Of (elemAt 4 ((s.core k).regs.getV a) j)).2 * 2 ^ b.val) := by
  have shift := shift_of_vcwiden form.2.2
  have visits := mem_lanes (s.core k) (modSel m) (cnt := 16) (by decide)
  refine vec_late h rfl (by decide) form runs ?_
  rw [vecResults, vecPass_vcwiden]
  rw [lanes_of_vecIssue (s.core k) sl (p := .vcwiden) (ty := .ci16) d a b (sel := modSel m) (cnt := 16) rfl rfl]
  have lower : ∀ j, j < 8 → (j ∈ (lanes (s.core k) (modSel m) 16).filter (fun j => j < 8) ↔ Active (s.core k) (modSel m) 16 j) :=
    fun j hj => by rw [← visits, List.mem_filter]; exact and_iff_left (decide_eq_true hj)
  have upper : ∀ j, j ∈ ((lanes (s.core k) (modSel m) 16).filter fun j => 8 ≤ j).map (fun j => j - 8) ↔
      Active (s.core k) (modSel m) 16 (j + 8) := fun j => (mem_upperLanes _ j).trans (visits _)
  refine ⟨_, _, rfl, rfl, rfl, rfl, rfl, lanesOut_writesOnly _ (by decide) _ _ fun j hj => lower j (by omega),
    lanesOut_writesOnly _ (by decide) _ _ fun j _ => upper j, fun j act => ?_⟩
  have lt := act.1
  by_cases hj : j < 8
  · refine (congrArg ci32Of ((if_pos hj).trans (elemAt_placeElems _ _ ((lower j hj).mpr act) (by omega)))).trans ?_
    exact ci32Of_cwidenValue _ a shift j
  · obtain ⟨i, rfl⟩ : ∃ i, j = i + 8 := ⟨j - 8, by omega⟩
    refine (congrArg ci32Of ((if_neg hj).trans (elemAt_placeElems _ _ ((upper i).mpr act) (by omega)))).trans ?_
    exact ci32Of_cwidenValue _ a shift (i + 8)

/-- VCRSUM gives the rounded sums of the active elements' components in `Gd`. -/
theorem vcrsum_gives (form : VecForm s k .vcrsum .ci32 d a b m)
    (runs : exec i s = .next (facetOp s k (some quietIssue) (.vec sl .vcrsum .ci32 d a b m))) :
    GivesLate i s k fun l => ∃ v : W64, l = [lateG s k 4 d v] ∧ ci32Of v.toNat =
      (fit 32 true (roundShift (modRound m) b (crsumTotal (s.core k).regs a (lanes (s.core k) (modSel m) 16) fun z => z.1)),
        fit 32 true (roundShift (modRound m) b (crsumTotal (s.core k).regs a (lanes (s.core k) (modSel m) 16) fun z => z.2))) := by
  refine vec_late h rfl (by decide) form runs ?_
  rw [vecResults, vecPass_vcrsum _ _ _ _ _ form.2.1,
    lanes_of_vecIssue (s.core k) sl (p := .vcrsum) (ty := .ci32) d a b (sel := modSel m) (cnt := 16) rfl rfl]
  have small := crsumValue_lt (s.core k).regs a b (modRound m) (lanes (s.core k) (modSel m) 16)
  refine ⟨BitVec.ofNat 64 (crsumValue (s.core k).regs a b (modRound m) (lanes (s.core k) (modSel m) 16)), ?_, ?_⟩
  · rw [lateG, BitVec.setWidth_ofNat_of_le_of_lt (by decide) small]
    rfl
  · rw [BitVec.toNat_ofNat, Nat.mod_eq_of_lt small, ci32Of_crsumValue]

end

/-- Settles O29: each clause is its operation's one pass, lane by lane, sum by sum or bit by bit. -/
theorem vectorShape : Obligations.VectorShape := by
  intro k sl ty d a b m s h q r rnd x y act pr sum cmp
  obtain ⟨size, whole⟩ := VType.size_per ty
  have low : ∀ (v : Fin 32) (j : Nat), elemOf s k ty v j < 2 ^ (8 * ty.size) := fun v j => elemAt_lt _ _ _
  have compares : ∀ (o : VecOp) (i : Instr) (P : Int → Int → Prop), isCmp o = true →
      exec i s = .next (facetOp s k q (.vec sl o ty d a b m)) →
      (ty ≠ .fp16 → ty ≠ .fp32 → ∀ u v, cmpElem o ty u v = true ↔ P (toSigned ty.comp u) (toSigned ty.comp v)) → cmp o i P :=
    fun o i P hc runs values form no16 no32 => cmp_gives h hc form runs (values no16 no32)
  refine ⟨fun form => givesV_of_lanes h rfl (by decide) form rfl (by decide) (by decide) rfl rfl
      (vecPass_vnarrow _ _ _ _ _ form.2.1 _) fun j _ => ?_,
    fun form => givesV_of_lanes h rfl (by decide) form rfl (by decide) (by decide) rfl rfl
      (vecPass_vcnarrow _ _ _ _ _ form.2.1 _) fun j _ => ci16Of_cnarrowValue _ _ _ _ _,
    fun form => vcwiden_gives h form rfl, fun form => ?_,
    compares .vcmpeq _ _ rfl rfl fun no16 no32 u v => by rw [(cmpElem_int no16 no32 u v).1, decide_eq_true_iff],
    compares .vcmplt _ _ rfl rfl fun no16 no32 u v => by rw [(cmpElem_int no16 no32 u v).2.1, decide_eq_true_iff],
    compares .vcmple _ _ rfl rfl fun no16 no32 u v => by rw [(cmpElem_int no16 no32 u v).2.2, decide_eq_true_iff],
    fun form => ?_, fun form => ?_, fun n form => ?_, fun form => ?_⟩
  · exact (congrArg (toSigned 16) (Nat.mod_eq_of_lt (bound_lt 16 true _))).trans (toSigned_bound_fit (by decide) true _)
  · have total : ∀ f, sum f = crsumTotal r a (lanes (s.core k) (modSel m) 16) f := fun f => by
      rw [lanes_eq_filter _ _ (by decide)]
      rfl
    rw [total, total]
    exact vcrsum_gives h form rfl
  · refine givesV_of_lanes h rfl (by decide) form rfl size whole.le rfl (Nat.mul_one _) (vecPass_vsel _ _ _ _ _ _ rfl) fun j _ => ?_
    refine (Nat.mod_eq_of_lt ?_).trans rfl
    split
    · exact low a j
    · exact low b j
  · exact givesV_of_lanes h rfl (by decide) form rfl size whole.le rfl (Nat.mul_one _) (vecPass_vsplat _ _ _ _ _ _ rfl) fun j _ => rfl
  · refine givesV_of_lanes h rfl one_lt_two form rfl size whole.le rfl (Nat.mul_one _) (vecPass_vslide _ _ _ _ _ _ n rfl) fun j _ => ?_
    refine (Nat.mod_eq_of_lt ?_).trans rfl
    unfold pairElem
    split
    · exact elemAt_lt _ _ _
    · exact elemAt_lt _ _ _
  · obtain ⟨t, runs, ran, inflight, shown⟩ := setvl_does h form (i := .setvl k q sl ty d a m) rfl
    have reads : ∀ j, (t.core k).regs.getG j = Function.update r.getG d _ j := congrFun (congrArg Shown.g shown)
    exact ⟨t, runs, ran.ran, congrArg Shown.vl shown, (reads d).trans (Function.update_self _ _ _),
      fun j hj => (reads j).trans (Function.update_of_ne hj _ _), congrFun (congrArg Shown.v shown), congrFun (congrArg Shown.m shown),
      congrFun (congrArg Shown.c shown), inflight, ran.next, ran.dmem, ran.frame⟩

end Sys2Proof.Machine
end

section
namespace Sys2Proof.Machine

open Sys2Proof.Claims

/-! ## Patterns of a floating-point format (R226) -/

theorem pow2_eq (e : Int) : pow2 e = (2 : Rat) ^ e := by
  unfold pow2
  split
  · next h =>
    obtain ⟨n, rfl⟩ := Int.eq_ofNat_of_zero_le h
    simp
  · next h =>
    obtain ⟨n, hn⟩ := Int.eq_ofNat_of_zero_le (show 0 ≤ -e by omega)
    rw [hn, show e = -(n : Int) by omega]
    simp

theorem lt_pow2_floorLog2 {q : Rat} (hq : 0 < q) : q < pow2 (floorLog2 q + 1) := by
  have num : (q.num.toNat : Rat) < 2 ^ ((q.num.toNat.log2 : Int) + 1) := by exact_mod_cast Nat.lt_log2_self
  have den : (2 : Rat) ^ (q.den.log2 : Int) ≤ q.den := by exact_mod_cast Nat.log2_self_le q.den_nz
  have parts : q = q.num.toNat / q.den := by
    have whole : (q.num.toNat : Rat) = q.num := by exact_mod_cast Int.toNat_of_nonneg (Rat.num_nonneg.mpr hq.le)
    rw [whole, Rat.num_div_den]
  have upper : q < pow2 ((q.num.toNat.log2 : Int) - q.den.log2 + 1) := by
    calc q = q.num.toNat / q.den := parts
      _ ≤ q.num.toNat / 2 ^ (q.den.log2 : Int) := div_le_div_of_nonneg_left (Nat.cast_nonneg _) (by positivity) den
      _ < 2 ^ ((q.num.toNat.log2 : Int) + 1) / 2 ^ (q.den.log2 : Int) := div_lt_div_of_pos_right num (by positivity)
      _ = pow2 ((q.num.toNat.log2 : Int) - q.den.log2 + 1) := by
        rw [pow2_eq, ← zpow_sub₀ two_ne_zero]
        congr 1
        omega
  unfold floorLog2
  dsimp only
  split
  · exact upper
  · next above => rwa [Int.sub_add_cancel, ← not_le]

theorem roundEven_le {q : Rat} (hq : 0 ≤ q) {n : Nat} (h : q < n) : roundEven q ≤ n := by
  have floor : q.floor.toNat < n := by
    have := Rat.floor_lt_iff.mpr (show q < ((n : Int) : Rat) by exact_mod_cast h)
    have := Rat.le_floor_iff.mpr (show ((0 : Int) : Rat) ≤ q by exact_mod_cast hq)
    omega
  unfold roundEven
  dsimp only
  split
  · omega
  · split
    · omega
    · split <;> omega

/-- A pattern of sign, exponent field and fraction, whose exponent field is not full or whose fraction is not, has the format's width. -/
theorem pattern_lt {eb mb x y : Nat} (s : Bool) (hx : x + 1 ≤ 2 ^ eb) (hy : y < 2 ^ mb) : b2n s * 2 ^ (eb + mb) + x * 2 ^ mb + y < 2 ^ (1 + eb + mb) := by
  have sign : b2n s ≤ 1 := by cases s <;> decide
  have field := Nat.mul_le_mul_right (2 ^ mb) hx
  have signed := Nat.mul_le_mul_right (2 ^ (eb + mb)) sign
  rw [Nat.add_mul, ← pow_add] at field
  rw [Nat.add_assoc, Nat.add_assoc, pow_add 2 1]
  omega

/-- A value that is scaled by the exponent of its leading bit, or by a greater one, rounds to a significand of the format. -/
theorem significand_le (f : FFmt) {q : Rat} (hq : 0 < q) {e : Int} :
    roundEven (q / pow2 (max (floorLog2 q) e - f.mb)) ≤ 2 ^ (f.mb + 1) := by
  have pos : (0 : Rat) < pow2 (max (floorLog2 q) e - f.mb) := by rw [pow2_eq]; positivity
  refine roundEven_le (div_nonneg hq.le pos.le) ?_
  rw [div_lt_iff₀ pos]
  calc q < pow2 (floorLog2 q + 1) := lt_pow2_floorLog2 hq
    _ ≤ pow2 (max (floorLog2 q) e + 1) := by
      rw [pow2_eq, pow2_eq]
      exact zpow_le_zpow_right₀ one_le_two (by omega)
    _ = (2 ^ (f.mb + 1) : Nat) * pow2 (max (floorLog2 q) e - f.mb) := by
      rw [pow2_eq, pow2_eq]
      push_cast
      rw [← zpow_natCast, ← zpow_add₀ two_ne_zero]
      congr 1
      push_cast
      omega

/-- A pattern has the width of its format. -/
theorem encodeF_lt (f : FFmt) (v : FVal) (he : 0 < f.eb) (hm : 0 < f.mb) : (encodeF f v).1 < 2 ^ (1 + f.eb + f.mb) := by
  have full : 2 ^ f.eb - 1 + 1 ≤ 2 ^ f.eb := by have := Nat.two_pow_pos f.eb; omega
  have zeros : ∀ s, zeroBits f s < 2 ^ (1 + f.eb + f.mb) := fun s => by
    simpa [zeroBits] using pattern_lt s (Nat.two_pow_pos f.eb) (Nat.two_pow_pos f.mb)
  have infs : ∀ s, infBits f s < 2 ^ (1 + f.eb + f.mb) := fun s => pattern_lt s full (Nat.two_pow_pos f.mb)
  cases v with
  | nan => 
    have := pattern_lt (mb := f.mb) false full (Nat.pow_lt_pow_right (by decide) (Nat.sub_lt hm Nat.one_pos))
    simpa [encodeF, nanBits, b2n] using this
  | inf s => exact infs s
  | fin s q =>
    have rounded : ∀ (e : Int) (n : Nat), n < 2 ^ (f.mb + 1) → (if n < 2 ^ f.mb then (zeroBits f s, false)
        else if f.bias < e then (infBits f s, true)
        else (b2n s * 2 ^ (f.eb + f.mb) + (e + f.bias).toNat * 2 ^ f.mb + (n - 2 ^ f.mb), false)).1 < 2 ^ (1 + f.eb + f.mb) := by
      intro e n hn
      split
      · exact zeros s
      · split
        · exact infs s
        · next within =>
          have bias : 0 ≤ f.bias ∧ f.bias + f.bias = 2 ^ f.eb - 2 := by
            have := two_pow_half he
            have : (0 : Int) < 2 ^ (f.eb - 1) := by positivity
            unfold FFmt.bias
            push_cast
            omega
          refine pattern_lt s ?_ (by rw [pow_succ] at hn; omega)
          zify
          omega
    simp only [encodeF]
    split
    · exact zeros s
    · next pos =>
      have small : roundEven (q / pow2 (max (floorLog2 q) (1 - f.bias) - f.mb)) ≤ 2 ^ (f.mb + 1) := significand_le f (not_le.mp pos)
      split
      · exact rounded _ _ (Nat.pow_lt_pow_right (by decide) (Nat.lt_succ_self _))
      · next ne => exact rounded _ _ (lt_of_le_of_ne small ne)

end Sys2Proof.Machine
end

section
namespace Sys2Proof.Machine

open Sys2Proof.Claims

/-! ## Vector floating point (R226) -/

/-- A type that has floating-point patterns (R209). -/
def floatType (ty : VType) : Bool := ty = .fp16 || ty = .bf16 || ty = .fp32

/-- A result of a floating-point type fits its element. -/
theorem fResult_whole {ty : VType} (ht : floatType ty = true) (v : FVal × Bool) :
    (fResult ty.fmt v).1 % 2 ^ (8 * ty.size) = (fResult ty.fmt v).1 := by
  have width : 0 < ty.fmt.eb ∧ 0 < ty.fmt.mb ∧ 8 * ty.size = 1 + ty.fmt.eb + ty.fmt.mb := by
    cases ty <;> simp [floatType] at ht <;> decide
  obtain ⟨he, hm, hw⟩ := width
  rw [hw]
  exact Nat.mod_eq_of_lt (encodeF_lt ty.fmt v.1 he hm)

theorem floatType_of_typeOk {ty : VType} (h : (decide (ty = .fp16) || decide (ty = .fp32)) = true) : floatType ty = true := by
  cases ty <;> simp at h <;> rfl

theorem vecPass_vfcvt (r : CoreRegs) (u ty : VType) (d a b : Nat) {m : BitVec 9} (trap : modTrap m = false) (l : LongOp) :
    (vecPass r (.vfcvt u) ty d a b m l).res = [lanesOut (dV d) u.size ((List.range 16).filter fun j => l.act.getLsbD j) fun j =>
      (convert ty u (modRound m) (elemAt ty.size (r.getV a) j)).1] := by
  simp [vecPass, isMac, trap, runElems_untrapped, lanesOut]

theorem ofSigned_lt (w : Nat) (z : Int) : ofSigned w z < 2 ^ w := by
  have := Int.emod_lt_of_pos z (show (0 : Int) < (2 ^ w : Nat) by positivity)
  unfold ofSigned
  omega

/-- A conversion to i32 fits its element: a bounded integer, or 0 for NaN. -/
theorem convert_i32_lt (ty : VType) (mode x : Nat) : (convert ty .i32 mode x).1 < 2 ^ 32 := by
  simp only [convert]
  split
  · decide
  · exact ofSigned_lt _ _
  · exact bound_lt _ _ _

theorem convert_float (ty : VType) {u : VType} (hu : floatType u = true) (mode x : Nat) :
    ∃ v, convert ty u mode x = fResult u.fmt v := by
  cases u <;> simp [floatType] at hu <;> cases ty <;> exact ⟨_, rfl⟩

/-- A converted element fits the type it is converted to. -/
theorem convert_whole {ty u : VType} (ok : typeOk (.vfcvt u) ty = true) (mode x : Nat) :
    (convert ty u mode x).1 % 2 ^ (8 * u.size) = (convert ty u mode x).1 ∧ u.size * 16 ≤ 64 ∧ 0 < u.size := by
  have dst : u = .i32 ∨ floatType u = true ∧ u.size * 16 ≤ 64 ∧ 0 < u.size := by
    cases u <;> simp [typeOk] at ok <;> decide
  rcases dst with rfl | ⟨float, narrow⟩
  · exact ⟨Nat.mod_eq_of_lt (convert_i32_lt ty mode x), by decide, by decide⟩
  · obtain ⟨v, eq⟩ := convert_float ty float mode x
    exact ⟨eq ▸ fResult_whole float v, narrow⟩

/-! ## Scalar floating point (R227) -/

/-- A scalar floating-point operation's result, on its way. -/
def fscRes (r : CoreRegs) (p : FscOp) (d a b : Fin 32) : Res :=
  { (fscExec r p d a b).1 with due := r.bseq + fscLatency p, from_ := r.bseq }

theorem fscExec_eccCount (r : CoreRegs) (p : FscOp) (d a b : Nat) : fscExec (eccCount r 0 0) p d a b = fscExec r p d a b := by
  unfold fscExec
  simp only [getV_eccCount, getG_eccCount]

theorem opEff_fsc (s : State) (k : Nat) (sl : Bool) (p : FscOp) (d a b : Fin 32) {m : BitVec 9} (trap : modTrap m = false) :
    opEff (issued s k (.fsc sl p d a b m)) k [] [] 0 (.fsc sl p d a b m) = { res := [fscRes (s.core k).regs p d a b] } := by
  simp [opEff, trap, fscExec_eccCount, fscRes]

/-- The modifier of a scalar floating-point operation that the core accepts, with the trap bit clear. -/
def FscForm (c : Core) (m : BitVec 9) : Prop := modRound m = 0 ∧ modG m = 1 ∧ modTrap m = false ∧ (c.tail = 0 → modSel m = 0)

theorem opIllegal_fsc_eq (r : CoreRegs) (tail : Nat) (sl : Bool) (p : FscOp) (d a b : Fin 32) (m : BitVec 9) :
    opIllegal r tail (.fsc sl p d a b m) = (modRound m ≠ 0 || modG m ≠ 1 || (tail = 0 && modSel m ≠ 0)) := rfl

section
variable {s : State} {k : Nat} (h : QuietCore s k) {sl : Bool} {p : FscOp} {d a b : Fin 32} {m : BitVec 9}
  (form : FscForm (s.core k) m) {i : Instr} (runs : exec i s = .next (facetOp s k (some quietIssue) (.fsc sl p d a b m)))
include h form

theorem fsc_ran : RanRegs s (facetOp s k (some quietIssue) (.fsc sl p d a b m)) k [fscRes (s.core k).regs p d a b] := by
  obtain ⟨round, one, trap, sel⟩ := form
  have legal : opIllegal (s.core k).regs (s.core k).tail (.fsc sl p d a b m) = false := by
    rw [opIllegal_fsc_eq]
    by_cases vl : (s.core k).tail = 0
    · simp [round, one, sel vl]
    · simp [round, one, vl]
  exact facetOp_ranRegs h (facetOp_fsc h legal) (execsTo_fsc h (opEff_fsc s k sl p d a b trap)) (by simp [fscRes])

include runs

theorem fsc_late (late : 1 < fscLatency p) {P : List Res → Prop} (result : P [fscRes (s.core k).regs p d a b]) : GivesLate i s k P := by
  have ran := fsc_ran h (sl := sl) (p := p) (d := d) (a := a) (b := b) form
  obtain ⟨shown, inflight⟩ := ran.late (by simpa [fscRes] using late)
  exact ⟨_, runs, ran.ran, by rwa [inflight], regsKept_of_shown h.rests.cmds shown rfl, ran.next, ran.dmem, ran.frame⟩

theorem fsc_now (at_once : fscLatency p = 1) : Does i s fun t => RanRegs s t k [fscRes (s.core k).regs p d a b] ∧
    (t.core k).regs.shown = (s.core k).regs.shown.put (fscRes (s.core k).regs p d a b) ∧ (t.core k).regs.inflight = [] := by
  have ran := fsc_ran h (sl := sl) (p := p) (d := d) (a := a) (b := b) form
  obtain ⟨shown, inflight⟩ := ran.now (by simp [fscRes, at_once])
  exact ⟨_, runs, ran, shown, inflight⟩

end

/-- The low half-word of a V register that scalar floating point writes. -/
theorem getLsbD_low64 {j : Nat} (hj : j < 512) : (BitVec.ofNat 512 (2 ^ 64 - 1)).getLsbD j = decide (j < 64) := by
  rw [BitVec.getLsbD_ofNat, Nat.testBit_two_pow_sub_one, decide_eq_true hj, Bool.true_and]

/-- A G register copied over the low half-word: the other bits stay. -/
theorem getLsbD_over_low64 (g : W64) (old : W512) {due dest src j : Nat} (hj : j < 512) :
    (Res.over { due := due, dest := dest, mask := BitVec.ofNat 512 (2 ^ 64 - 1), val := BitVec.ofNat 512 g.toNat, from_ := src }
      old).getLsbD j = if j < 64 then g.getLsbD j else old.getLsbD j := by
  rw [Res.over, BitVec.getLsbD_or, BitVec.getLsbD_and, BitVec.getLsbD_not, BitVec.getLsbD_and, getLsbD_low64 hj, BitVec.getLsbD_ofNat,
    decide_eq_true hj]
  by_cases low : j < 64
  · simp [low, BitVec.getLsbD]
  · simp [low]

theorem setWidth_low64 (v : W512) : (BitVec.ofNat 512 (v.toNat % 2 ^ 64)).setWidth 64 = v.setWidth 64 := by
  rw [BitVec.setWidth_ofNat_of_le (by decide)]
  exact BitVec.eq_of_toNat_eq (by rw [BitVec.toNat_ofNat, BitVec.toNat_setWidth, Nat.mod_mod])

theorem fResult32_lt (v : FVal × Bool) : (fResult fmt32 v).1 < 2 ^ 32 := encodeF_lt fmt32 v.1 (by decide) (by decide)

theorem getD_false_iff (c : Option Bool) : c.getD false = true ↔ c = some true := by
  rcases c with _ | _ | _ <;> simp

section
variable {s : State} {k : Nat} (h : QuietCore s k) {sl : Bool} {p : FscOp} {d a b : Fin 32} {m : BitVec 9}
  (form : FscForm (s.core k) m) {i : Instr} (runs : exec i s = .next (facetOp s k (some quietIssue) (.fsc sl p d a b m)))
include h form runs

/-- An arithmetic operation writes its binary32 result to the low 64 bits of Vd. -/
theorem fsc_gives_low (late : 1 < fscLatency p) {v : FVal × Bool} (result : (fscExec (s.core k).regs p d a b).1 =
      { due := 0, dest := dV d, mask := BitVec.ofNat 512 (2 ^ 64 - 1), val := BitVec.ofNat 512 (fResult fmt32 v).1 }) :
    GivesLate i s k fun l => ∃ x, l = [x] ∧ x.dest = 32 + d ∧ x.due = (s.core k).regs.bseq + fscLatency p ∧
      (∀ j < 512, x.mask.getLsbD j = decide (j < 64)) ∧ x.val.toNat % 2 ^ 64 = (fResult fmt32 v).1 := by
  have small := fResult32_lt v
  refine fsc_late h form runs late ?_
  rw [fscRes, result]
  refine ⟨_, rfl, rfl, rfl, fun j hj => getLsbD_low64 hj, ?_⟩
  dsimp only
  rw [BitVec.toNat_ofNat]
  omega

/-- A compare writes 1 or 0 to Gd. -/
theorem fsc_gives_flag (two : fscLatency p = 2) {c : Bool} (result : (fscExec (s.core k).regs p d a b).1 =
      { due := 0, dest := dG d, mask := ones512, val := BitVec.ofNat 512 (b2n c) }) {P : Prop} [Decidable P] (holds : c = true ↔ P) :
    GivesLate i s k fun l => l = [lateG s k 2 d (if P then 1 else 0)] := by
  refine fsc_late h form runs (two ▸ one_lt_two) ?_
  have value : BitVec.ofNat 512 (b2n c) = (if P then (1 : W64) else 0).setWidth 512 := by
    by_cases hP : P
    · simp [holds.mpr hP, hP, b2n]
    · have no : c = false := by simpa using mt holds.mp hP
      simp [no, hP, b2n]
  rw [fscRes, result, two, lateG, ← value]

end

/-- Settles O31: a vector operation is `fResult` of its exact value lane by lane, and a scalar one is the same of the low 32
bits. -/
theorem floatingPoint : Obligations.FloatingPoint := by
  intro k sl ty d a b m s h q r f gives w legal low
  have lanes : ∀ (o : VecOp) (i : Instr) (e : Nat → FVal × Bool), isLane o = true → vecLatency o = 4 →
      (typeOk o ty = true → floatType ty = true) → exec i s = .next (facetOp s k q (.vec sl o ty d a b m)) →
      (∀ j, laneValue r o ty d a b m j = (fResult ty.fmt (e j)).1) → gives o i e := by
    intro o i e lane lat float runs value form
    have gives := lane_gives h lane form runs (P := fun j v => v = (fResult ty.fmt (e j)).1) fun j => by
      rw [value, fResult_whole (float (typeOk_of_legal form.2.2))]
    rwa [lat] at gives
  refine ⟨lanes .vfadd _ _ rfl rfl floatType_of_typeOk rfl fun j => rfl, lanes .vfsub _ _ rfl rfl floatType_of_typeOk rfl fun j => rfl,
    lanes .vfmul _ _ rfl rfl floatType_of_typeOk rfl fun j => rfl, lanes .vfmin _ _ rfl rfl floatType_of_typeOk rfl fun j => rfl,
    lanes .vfmax _ _ rfl rfl floatType_of_typeOk rfl fun j => rfl, lanes .vfma _ _ rfl rfl floatType_of_typeOk rfl fun j => rfl,
    fun u form => ?_,
    fun form => fsc_gives_low h (p := .fadd) form rfl (by decide) rfl, fun form => fsc_gives_low h (p := .fsub) form rfl (by decide) rfl,
    fun form => fsc_gives_low h (p := .fmul) form rfl (by decide) rfl, fun form => fsc_gives_low h (p := .fma) form rfl (by decide) rfl,
    fun form => fsc_gives_flag h (p := .fcmplt) form rfl rfl rfl (getD_false_iff _),
    fun form => fsc_gives_flag h (p := .fcmpeq) form rfl rfl rfl (getD_false_iff _),
    fun form => fsc_gives_flag h (p := .fcmple) form rfl rfl rfl ?_, fun form => ?_, fun form => ?_⟩
  · obtain ⟨-, narrow, pos⟩ := convert_whole (typeOk_of_legal form.2.2) (modRound m) 0
    exact givesV_of_lanes h (p := .vfcvt u) rfl (show 1 < 4 by decide) form rfl pos narrow rfl rfl (vecPass_vfcvt _ _ _ _ _ _ form.2.1 _)
      fun j _ => (convert_whole (typeOk_of_legal form.2.2) _ _).1
  · rw [Bool.or_eq_true, getD_false_iff, getD_false_iff]
  · obtain ⟨t, runs, ran, shown, inflight⟩ := fsc_now h (p := .fmvgf) form (i := .fmvgf k q sl d a b m) rfl rfl
    replace shown := shown.trans (Shown.put_v (d := d) _ rfl)
    have reads : ∀ j, (t.core k).regs.getV j = Function.update r.getV d _ j := congrFun (congrArg Shown.v shown)
    refine ⟨t, runs, ran.ran, inflight, fun j hj => ?_, fun j hj => (reads j).trans (Function.update_of_ne hj _ _),
      congrFun (congrArg Shown.g shown), congrFun (congrArg Shown.m shown), congrFun (congrArg Shown.c shown), ran.next, ran.dmem,
      ran.frame⟩
    rw [reads, Function.update_self]
    exact getLsbD_over_low64 _ _ hj
  · obtain ⟨t, runs, ran, shown, inflight⟩ := fsc_now h (p := .fmvfg) form (i := .fmvfg k q sl d a b m) rfl rfl
    obtain ⟨value, kept⟩ := regsKept_of_put_g h.rests.cmds (shown.trans (Shown.put_g (d := d) _ rfl)) inflight
    exact ⟨t, runs, ran.ran, value.trans (setWidth_low64 _), kept, ran.next, ran.dmem, ran.frame⟩

end Sys2Proof.Machine
end

section
namespace Sys2Proof.Machine

open Sys2Proof.Claims

/-! ## A gather is under way for a bundle per element (R217, R231) -/

/-- A core with 16 active elements, whose base and offsets are 0. -/
def gathering : State := core0With { vl := 16 }

theorem gathering_quiet : QuietCore gathering 0 := by
  unfold QuietCore
  decide

/-- VGATH serves one element position per bundle (R231): behind its own bundle the other passes wait. -/
theorem exec_vgath_goesOn : ∃ t, exec (.vgath 0 (some quietIssue) 0 0 0 0x020) gathering = .next t ∧ (t.core 0).longs.length = 1 :=
  ⟨_, rfl, by decide +kernel⟩

/-- Refutes O26: the clause for VGATH has the core done with the access at the end of its bundle, with every element's result
under way, where a gather of 16 aligned words of data memory has made one pass and goes on for 15 bundles (R217, R231). -/
theorem not_elementMemory : ¬ Obligations.ElementMemory := by
  intro h
  obtain ⟨-, -, -, -, -, -, -, -, gathers⟩ := h 0 0 0 0 0x020 gathering gathering_quiet rfl rfl rfl fun _ => rfl
  have zero : ∀ j, elemAt 4 0#512 j = 0 := fun j => by
    simp only [elemAt, BitVec.toNat_ofNat, Nat.zero_mod, Nat.zero_div]
  have reach : ∀ j, InDmem ((0 + elemAt 4 0#512 j) % 2 ^ 64) 4 ∧ (0 + elemAt 4 0#512 j) % 2 ^ 64 % 4 = 0 := fun j => by simp [zero]
  obtain ⟨⟨t, runs, ⟨⟨ran, -⟩, -⟩, -⟩, -⟩ := gathers (by decide) fun j _ => reach j
  obtain ⟨u, again, goesOn⟩ := exec_vgath_goesOn
  obtain rfl : t = u := Host.Outcome.next.inj (runs.symm.trans again)
  rw [show (t.core 0).longs = [] from congrArg Core.longs ran] at goesOn
  cases goesOn

end Sys2Proof.Machine
end

section
namespace Sys2Proof.Machine

open Sys2Proof.Claims

/-! ## One slice of the Mill after another (R263) -/

/-- `t` is `s` with slice `i` of the Mill as `x`; no other slice, and nothing else of the device, has changed. -/
structure SliceAs (s : State) (i : Nat) (x : Slice) (t : State) : Prop where
  here : t.slc i = x
  there : OtherSlices s t i
  rest : ∃ l, t = { s with mill := { s.mill with slices := l } }

variable {s t : State} {i : Nat} {x : Slice}

theorem SliceAs.refl (s : State) (i : Nat) : SliceAs s i (s.slc i) s := ⟨rfl, fun _ _ => rfl, s.mill.slices, rfl⟩

theorem SliceAs.setSlc (h : SliceAs s i x t) (y : Slice) : SliceAs s i y (t.setSlc i y) := by
  refine ⟨State.slc_setSlc_self _ _ _, fun j hj => (State.slc_setSlc_ne _ _ _ hj).trans (h.there j hj), ?_⟩
  obtain ⟨l, rfl⟩ := h.rest
  exact ⟨_, rfl⟩

theorem SliceAs.sameExcept (h : SliceAs s i x t) : SameExcept [.mill] s t := by
  obtain ⟨l, rfl⟩ := h.rest
  simp [SameExcept]

/-- What the slice holds, the other slices, and the frame, as the statements about the Mill ask for them. -/
theorem SliceAs.spec (h : SliceAs s i x t) : t.slc i = x ∧ OtherSlices s t i ∧ SameExcept [.mill] s t :=
  ⟨h.here, h.there, h.sameExcept⟩

theorem SliceAs.now (h : SliceAs s i x t) : t.now = s.now := by
  obtain ⟨l, rfl⟩ := h.rest
  rfl

theorem SliceAs.localNow (h : SliceAs s i x t) (c u : Nat) : t.localNow c u = s.localNow c u := by
  obtain ⟨l, rfl⟩ := h.rest
  rfl

theorem SliceAs.param (h : SliceAs s i x t) (id inst : Nat) : t.param id inst = s.param id inst := by
  obtain ⟨l, rfl⟩ := h.rest
  rfl

theorem SliceAs.paramMill (h : SliceAs s i x t) (slc id inst : Nat) : t.paramMill slc id inst = s.paramMill slc id inst := by
  obtain ⟨l, rfl⟩ := h.rest
  rfl

theorem SliceAs.carrierTime (h : SliceAs s i x t) (u c : Nat) : t.carrierTime u c = s.carrierTime u c := by
  obtain ⟨l, rfl⟩ := h.rest
  rfl

theorem SliceAs.millSource (h : SliceAs s i x t) (src chan : Nat) : millSource t src chan = millSource s src chan := by
  obtain ⟨l, rfl⟩ := h.rest
  rfl

theorem SliceAs.ev (h : SliceAs s i x t) : t.ev = s.ev := by
  obtain ⟨l, rfl⟩ := h.rest
  rfl

/-- A slice changes beside an event as it changes without it. -/
theorem SliceAs.raise (h : SliceAs s i x t) (c j n : Nat) (b : List Byte) : SliceAs (raise s c j n b) i x (raise t c j n b) := by
  refine ⟨by rw [raise_slc, h.here], fun k hk => by rw [raise_slc, raise_slc, h.there k hk], ?_⟩
  obtain ⟨l, rfl⟩ := h.rest
  refine ⟨l, ?_⟩
  unfold Machine.raise offer
  dsimp only
  split <;> rfl

/-- A slice that changes beside one event, as the statements about the Mill ask for it. -/
theorem SliceAs.raise_spec {c j n : Nat} {b : List Byte} (h : SliceAs (Machine.raise s c j n b) i x t) (room : Room 1 s) :
    t.slc i = x ∧ Raised s t c j n (eventSev n b) b ∧ OtherSlices s t i ∧ SameExcept [.mill, .ev] s t := by
  refine ⟨h.here, h.ev.trans (raise_room s c j n b room), fun k hk => (h.there k hk).trans (raise_slc _ _ _ _ _ _), ?_⟩
  obtain ⟨l, rfl⟩ := h.rest
  simp [SameExcept]

/-! ## Votes (R292, R293) -/

theorem SliceAs.agreed (h : SliceAs s i x t) (out : Option Nat) (since : Nat) :
    SliceAs s i { x with excluded := out, excludedAt := since, fails := 0 } (agreed t i out since) := by
  unfold Machine.agreed
  dsimp only
  rw [h.here]
  split
  case isTrue same =>
    obtain ⟨⟨rfl, rfl⟩, fails⟩ : (x.excluded = out ∧ x.excludedAt = since) ∧ x.fails = 0 := by simpa using same
    rwa [← fails]
  case isFalse => exact h.setSlc _

/-- A decision on which the copies agree is made on a state in which the slice's vote is all that changed. -/
theorem voted_agree (s : State) (i : Nat) (f : State → State) : ∃ t, SliceAs s i (Agreed s i) t ∧ voted s i .agree f = f t :=
  ⟨_, (SliceAs.refl s i).agreed none (s.slc i).excludedAt, rfl⟩

/-- The first or second failure in a row is counted and reported, and nothing is decided (R293). -/
theorem voteFail_retries (s : State) (i : Nat) (fails : (s.slc i).fails < 2) (room : Room 1 s) :
    (voteFail s i).slc i = { s.slc i with fails := (s.slc i).fails + 1 } ∧
    Raised s (voteFail s i) 5 i 0x0804 3 (leBytes 1 i ++ leBytes 1 ((s.slc i).fails + 1)) ∧ OtherSlices s (voteFail s i) i ∧
    SameExcept [.mill, .ev] s (voteFail s i) := by
  have few : ¬3 ≤ (s.slc i).fails + 1 := by omega
  simp only [voteFail, if_neg few]
  exact (((SliceAs.refl s i).setSlc { s.slc i with fails := (s.slc i).fails + 1 }).raise _ _ _ _).raise_spec room

/-! ## Items of a slice -/

theorem SliceAs.modItem (h : SliceAs s i x t) {q : Nat} {it : Item} (item : mapGet? x.items q = some it) (f : Item → Item) :
    SliceAs s i { x with items := mapSet x.items q (f it) } (t.modItem i q f) := by
  unfold State.modItem
  dsimp only
  rw [h.here, item]
  exact h.setSlc _

/-- Nothing is traced while the slice's trace is off (R297). -/
theorem trace_off (s : State) (i ty : Nat) (it : Item) (v : Nat) (off : NoTrace s i) : trace s i ty it v = s := by
  simp [trace, off]

theorem SliceAs.trace (h : SliceAs s i x t) (off : NoTrace s i) (ty : Nat) (it : Item) (v : Nat) : trace t i ty it v = t :=
  trace_off t i ty it v ((h.paramMill _ _ _).trans off)

/-- An item without a flow becomes ready at once (R269, R271). -/
theorem SliceAs.makeReady (h : SliceAs s i x t) (off : NoTrace s i) {q : Nat} {it : Item} (item : mapGet? x.items q = some it)
    (free : dAtomic it.desc = false) (n : Nat) :
    SliceAs s i { x with items := mapSet x.items q { it with place := 3, input := n, readyAt := s.now, classAt := s.now } }
      (makeReady t i q n) := by
  have noted := h.modItem item fun e => { e with input := n, readyAt := s.now, classAt := s.now }
  have found : mapGet? ((t.modItem i q fun e => { e with input := n, readyAt := t.now, classAt := t.now }).slc i).items q =
      some { it with input := n, readyAt := s.now, classAt := s.now } := by
    rw [h.now, noted.here]
    exact mapGet?_mapSet_self _ _ _
  have ready := noted.modItem (q := q) (mapGet?_mapSet_self _ _ _) fun e => { e with place := 3 }
  simp only [mapSet_mapSet] at ready
  unfold Machine.makeReady
  dsimp only
  rw [found]
  dsimp only
  rw [h.now, noted.trace off, free, if_pos (by rfl)]
  exact ready

/-! ## Counters (R269) -/

theorem counter_setCounter_self (x : Slice) (k : Nat) (c : Counter) : (setCounter x k c).counter k = c := by
  unfold setCounter Slice.counter
  split
  case isTrue zero => simp [zero, mapGet]
  case isFalse => simp

theorem counter_setCounter_ne (x : Slice) {j k : Nat} (c : Counter) (h : j % 16384 ≠ k % 16384) :
    (setCounter x k c).counter j = x.counter j := by
  unfold setCounter Slice.counter
  split
  case isTrue => simp [mapGet, h]
  case isFalse => simp [h]

/-- A counter that does not stand at 0 releases nothing. -/
theorem SliceAs.counts {k : Nat} (h : SliceAs s (k / 16384) x t) (c : Counter) (counting : c.count ≠ 0) :
    SliceAs s (k / 16384) (setCounter x k c) (releaseAt (t.setSlc (k / 16384) (setCounter x k c)) k) := by
  have stays : releaseAt (t.setSlc (k / 16384) (setCounter x k c)) k = t.setSlc (k / 16384) (setCounter x k c) := by
    simp [releaseAt, counter_setCounter_self, counting]
  rw [stays]
  exact h.setSlc _

/-- A counter that comes to 0 makes the one item parked there ready, with the counter's status as its input. -/
theorem SliceAs.releases {k q : Nat} {it : Item} (h : SliceAs s (k / 16384) x t) (c : Counter) (zero : c.count = 0)
    (parked : parkedOn x k = [q]) (item : mapGet? x.items q = some it) (free : dAtomic it.desc = false) (off : NoTrace s (k / 16384)) :
    SliceAs s (k / 16384)
      { setCounter x k c with
        items := mapSet x.items q { it with place := 3, input := c.status, readyAt := s.now, classAt := s.now } }
      (releaseAt (t.setSlc (k / 16384) (setCounter x k c)) k) := by
  have alone : parkedOn (setCounter x k c) k = [q] := parked
  have ready : releaseAt (t.setSlc (k / 16384) (setCounter x k c)) k =
      Machine.makeReady (t.setSlc (k / 16384) (setCounter x k c)) (k / 16384) q c.status := by
    simp [releaseAt, counter_setCounter_self, zero, alone]
  rw [ready]
  exact (h.setSlc (setCounter x k c)).makeReady off item free c.status

/-- What the statements about counters ask for where a counter takes a value and releases nothing. -/
theorem SliceAs.counts_spec {k : Fin 65536} {c : Counter} (h : SliceAs s (k / 16384) (setCounter x k c) t) :
    (t.slc (k / 16384)).counter k = c ∧
    (∀ j : Fin 65536, j % 16384 ≠ k % 16384 → (t.slc (k / 16384)).counter j = x.counter j) ∧
    (t.slc (k / 16384)).items = x.items ∧ OtherSlices s t (k / 16384) ∧ SameExcept [.mill] s t := by
  refine ⟨?_, fun j hj => ?_, ?_, h.there, h.sameExcept⟩ <;> rw [h.here]
  · exact counter_setCounter_self x k c
  · exact counter_setCounter_ne x c fun same => hj (Fin.ext same)
  · rfl

/-- What they ask for where the counter's one item is released. -/
theorem SliceAs.releases_spec {k q : Nat} {c : Counter} {it : Item}
    (h : SliceAs s (k / 16384) { setCounter x k c with items := mapSet x.items q it } t)
    (same : x.items = (s.slc (k / 16384)).items) :
    (t.slc (k / 16384)).counter k = c ∧ mapGet? (t.slc (k / 16384)).items q = some it ∧ OtherItems s t (k / 16384) q ∧
    OtherSlices s t (k / 16384) ∧ SameExcept [.mill] s t := by
  refine ⟨?_, ?_, fun j hj => ?_, h.there, h.sameExcept⟩ <;> rw [h.here]
  · exact counter_setCounter_self x k c
  · exact mapGet?_mapSet_self _ _ _
  · exact (mapGet?_mapSet_ne _ _ hj).trans (by rw [same])

/-! ## Urgency, late items and ageing that are not due (R277 to R281) -/

/-- An item without a deadline becomes neither urgent nor late. -/
theorem urgent_noDeadline (s : State) (i q : Nat) (h : ∀ it, mapGet? (s.slc i).items q = some it → dHasDeadline it.desc = false) :
    urgent s i q = s := by
  unfold urgent
  split
  case h_1 => rfl
  case h_2 it item => simp [h it item]

/-- An item that runs, has no deadline or has been late already does not become late. -/
theorem becomeLate_idle (s : State) (i q : Nat)
    (h : ∀ it, mapGet? (s.slc i).items q = some it → it.place = 4 ∨ dHasDeadline it.desc = false ∨ it.late = true) :
    becomeLate s i q = s := by
  unfold becomeLate
  split
  case h_1 => rfl
  case h_2 it item => rcases h it item with runs | none | late <;> simp [*]

/-! ## Descriptors that reach a slice (R267, R268) -/

/-- A descriptor that the slice refuses is reported, where none was reported before, and has no other effect without successors. -/
theorem enqueueOp_refused (s : State) (i : Nat) (b : List Byte) (off : NoTrace s i) (refused : refusal s i (heldDesc b) ≠ 0)
    (noSucc : dSucc (heldDesc b) = []) (first : mapGet? s.ev.rate (rateKey 0x0806 i) = none) (room : Room 1 s) :
    (enqueueOp s i b).1.ev.queue = s.ev.queue ++ [{
      cls := 5, inst := i, code := 0x0806, sev := 2,
      detail := leBytes 1 i ++ leBytes 1 (refusal s i (heldDesc b)) ++ leBytes 4 1 }] ∧ SameExcept [.ev] s (enqueueOp s i b).1 := by
  have reports : (enqueueOp s i b).1 = raiseLimited s 5 i 0x0806 i 19661 1 fun n =>
      leBytes 1 i ++ leBytes 1 (refusal s i (heldDesc b)) ++ leBytes 4 n := by
    simp only [enqueueOp, if_pos refused, trace_off s i _ _ _ off, decSuccessors, noSucc, List.foldl_nil]
  rw [reports]
  simp only [raiseLimited, first, if_true, raise_joins s _ _ _ _ room]
  exact ⟨rfl, by simp [SameExcept]⟩

/-- The item that an accepted descriptor becomes. -/
def heldItem (s : State) (b : List Byte) : Item := { desc := heldDesc b, place := 0, cls := dClass (heldDesc b), classAt := s.now }

/-- The slice with an accepted descriptor's item in it. -/
def takenIn (s : State) (i : Nat) (b : List Byte) : Slice :=
  { s.slc i with items := mapSet (s.slc i).items (s.slc i).nextSeq (heldItem s b), nextSeq := (s.slc i).nextSeq + 1 }

theorem SliceAs.noDeadline (h : SliceAs s i x t) {q : Nat} {it : Item} (item : mapGet? x.items q = some it)
    (none : dHasDeadline it.desc = false) : becomeLate (urgent t i q) i q = t := by
  have held (e : Item) (he : mapGet? (t.slc i).items q = some e) : dHasDeadline e.desc = false := by
    rw [h.here, item] at he
    exact Option.some.inj he ▸ none
  rw [urgent_noDeadline t i q held, becomeLate_idle t i q fun e he => .inr (.inl (held e he))]

/-- The slice right after an accepted descriptor has reached it: the item is ready where nothing holds it at a counter. -/
def entered (s : State) (i : Nat) (b : List Byte) : State :=
  match dWait (heldDesc b) with
  | none => makeReady (s.setSlc i (takenIn s i b)) i (s.slc i).nextSeq 0
  | some k =>
    if ((takenIn s i b).counter k).count = 0 then
      makeReady (s.setSlc i (takenIn s i b)) i (s.slc i).nextSeq ((takenIn s i b).counter k).status
    else s.setSlc i (takenIn s i b)

theorem enqueueOp_accepted (s : State) (i : Nat) (b : List Byte) (off : NoTrace s i) (accepted : refusal s i (heldDesc b) = 0) :
    (enqueueOp s i b).1 = becomeLate (urgent (entered s i b) i (s.slc i).nextSeq) i (s.slc i).nextSeq := by
  have untraced : trace (s.setSlc i (takenIn s i b)) i 1 (heldItem s b) ((dWait (heldDesc b)).getD 0xFFFF) =
      s.setSlc i (takenIn s i b) := trace_off _ _ _ _ _ off
  unfold takenIn heldItem at untraced
  simp only [enqueueOp, accepted, ne_eq, not_true_eq_false, if_false, untraced, State.slc_setSlc_self]
  rfl

/-- An accepted descriptor that waits for no counter is ready at once. -/
theorem enqueueOp_ready (s : State) (i : Nat) (b : List Byte) (off : NoTrace s i) (accepted : refusal s i (heldDesc b) = 0)
    (noDeadline : dHasDeadline (heldDesc b) = false) (free : dAtomic (heldDesc b) = false) (noWait : dWait (heldDesc b) = none) :
    SliceAs s i { takenIn s i b with
        items := mapSet (s.slc i).items (s.slc i).nextSeq { heldItem s b with place := 3, readyAt := s.now } }
      (enqueueOp s i b).1 := by
  have taken := (SliceAs.refl s i).setSlc (takenIn s i b)
  have ready := taken.makeReady off (q := (s.slc i).nextSeq) (mapGet?_mapSet_self _ _ _) free 0
  have enters : entered s i b = makeReady (s.setSlc i (takenIn s i b)) i (s.slc i).nextSeq 0 := by simp [entered, noWait]
  have keeps := ready.noDeadline (q := (s.slc i).nextSeq) (mapGet?_mapSet_self _ _ _) noDeadline
  rw [enqueueOp_accepted s i b off accepted, enters, keeps]
  simpa only [takenIn, heldItem, mapSet_mapSet] using ready

/-- An accepted descriptor whose counter does not stand at 0 is parked. -/
theorem enqueueOp_parks (s : State) (i n : Nat) (b : List Byte) (off : NoTrace s i) (accepted : refusal s i (heldDesc b) = 0)
    (noDeadline : dHasDeadline (heldDesc b) = false) (waits : dWait (heldDesc b) = some n)
    (counting : ((s.slc i).counter n).count ≠ 0) : SliceAs s i (takenIn s i b) (enqueueOp s i b).1 := by
  have taken := (SliceAs.refl s i).setSlc (takenIn s i b)
  have stays : ((takenIn s i b).counter n).count ≠ 0 := counting
  have enters : entered s i b = s.setSlc i (takenIn s i b) := by simp [entered, waits, stays]
  rw [enqueueOp_accepted s i b off accepted, enters, taken.noDeadline (mapGet?_mapSet_self _ _ _) noDeadline]
  exact taken

/-- An access that R267 does not allow is counted. -/
theorem SliceAs.badAccess (h : SliceAs s i x t) :
    SliceAs s i { x with badAccess := min (x.badAccess + 1) (2 ^ 32 - 1) } (badAccess t i) := by
  unfold Machine.badAccess
  rw [h.here]
  exact h.setSlc _

/-- A descriptor of 64 bytes from an allowed source is taken. -/
theorem millEnqueue_taken (s : State) (i src : Nat) (b : List Byte) (source : millSource s src 65535 = true)
    (length : b.length = 64) : millEnqueue s i src b = (enqueueOp s i b).1 :=
  if_neg (by simp [source, length])

/-! ## Flows (R271, R272) -/

/-- An item that is the only one of its flow enters the ready set. -/
theorem SliceAs.joinFlow (h : SliceAs s i x t) {q : Nat} {it : Item} (item : mapGet? x.items q = some it)
    (first : flowBusy x (dFlow it.desc) q = false) :
    SliceAs s i { x with
        flows := dFlow it.desc :: x.flows.filter (fun g => g ≠ dFlow it.desc), items := mapSet x.items q { it with place := 3 } }
      (joinFlow t i q) := by
  unfold Machine.joinFlow
  dsimp only
  rw [h.here, item]
  dsimp only
  rw [first, if_neg (by simp)]
  exact (h.setSlc { x with flows := dFlow it.desc :: x.flows.filter fun g => g ≠ dFlow it.desc }).modItem item
    fun e => { e with place := 3 }

/-- A flow entry that arrives where the cache has room makes the flow's one waiting item ready. -/
theorem SliceAs.flowFetched (h : SliceAs s i x t) {f q : Nat} {it : Item} (asked : f ∈ x.fetching) (fresh : f ∉ x.flows)
    (room : x.flows.length < 16384) (items : x.items = [(q, it)]) (missed : it.place = 2) (flow : dFlow it.desc = f)
    (readable : ((flowAddr s i f).bind fun a => extRead s a 8).isSome = true) :
    SliceAs s i { x with
        flows := f :: x.flows, fetching := x.fetching.filter (fun g => g ≠ f), items := [(q, { it with place := 3 })] }
      (flowFetched t i f) := by
  have readable' : ((flowAddr t i f).bind fun a => extRead t a 8).isNone = false := by
    obtain ⟨l, rfl⟩ := h.rest
    exact Option.isNone_eq_false_iff.mpr readable
  have cached := h.setSlc { x with flows := f :: x.flows, fetching := x.fetching.filter fun g => g ≠ f }
  have joined := cached.joinFlow (q := q) (it := it) (by simp [items, mapGet?]) (by simp [flowBusy, items])
  have only : (f :: x.flows).filter (fun g => g ≠ f) = x.flows := by
    simp only [List.filter_cons, ne_eq, not_true_eq_false, decide_false, Bool.false_eq_true, if_false]
    exact List.filter_eq_self.mpr fun g hg => by simpa using fun e : g = f => fresh (e ▸ hg)
  rw [flow] at joined
  dsimp only at joined
  rw [only] at joined
  unfold Machine.flowFetched
  dsimp only
  rw [h.here, readable', if_neg (by simpa using asked), if_pos room]
  simp only [items, List.filter_cons, missed, flow, decide_true, Bool.and_self, if_true, List.filter_nil, List.map_cons, List.map_nil]
  simpa [h.here, items, mapSet, sortByFirst, insertByFirst] using joined

/-! ## Enqueue, counters and flows (R267 to R269, R271, R272) -/

/-- Settles O33: each row is one operation of a slice, made on the state that the vote leaves where the row has one. -/
theorem millQueues : Obligations.MillQueues := by
  refine ⟨fun slc src b s wrong => ⟨_, rfl, ?bad⟩,
    fun slc src b s source length off accepted noDeadline free noWait => ⟨_, rfl, ?ready⟩,
    fun slc src b n s source length off accepted noDeadline waits counting => ⟨_, rfl, ?parks⟩,
    fun slc src b s source length off refused noSucc first room => ⟨_, rfl, ?refused⟩,
    fun k n src s source counting => ⟨_, rfl, ?set⟩, fun k n src s wrong => ⟨_, rfl, ?badSet⟩,
    fun k src q it s source off parked item free => ⟨_, rfl, ?setZero⟩, fun k st src s zero room => ⟨_, rfl, ?underflow⟩,
    fun k st src s counting => ⟨_, rfl, ?decrement⟩, fun k st src q it s one off parked item free => ⟨_, rfl, ?release⟩,
    fun slc f s unasked => ⟨_, rfl, ?unasked⟩,
    fun slc f q it s asked fresh room items missed flow atomic readable => ⟨_, rfl, ?fetched⟩⟩
  case bad =>
    have counted : millEnqueue s slc src b = badAccess s slc := if_pos (by simpa using wrong)
    rw [counted]
    exact (SliceAs.refl s slc).badAccess.spec
  case ready =>
    rw [millEnqueue_taken s slc src b source length]
    exact (enqueueOp_ready s slc b off accepted noDeadline free noWait).spec
  case parks =>
    rw [millEnqueue_taken s slc src b source length]
    exact (enqueueOp_parks s slc n b off accepted noDeadline waits counting).spec
  case refused =>
    rw [millEnqueue_taken s slc src b source length]
    exact enqueueOp_refused s slc b off refused noSucc first room
  case set =>
    obtain ⟨t, h, runs⟩ := voted_agree s (k / 16384) fun t => millCounterSet t k n.toNat src
    have counts : n.toNat ≠ 0 := fun zero => counting (BitVec.eq_of_toNat_eq zero)
    have sets : millCounterSet t k n.toNat src = setCounterOp t k n.toNat := if_neg (by simp [h.millSource, source])
    rw [runs, sets, setCounterOp, h.here]
    exact (h.counts ⟨n.toNat, 0⟩ counts).counts_spec
  case badSet =>
    obtain ⟨t, h, runs⟩ := voted_agree s (k / 16384) fun t => millCounterSet t k n.toNat src
    have counted : millCounterSet t k n.toNat src = badAccess t (k / 16384) := if_pos (by simp [h.millSource, wrong])
    rw [runs, counted]
    exact h.badAccess.spec
  case setZero =>
    obtain ⟨t, h, runs⟩ := voted_agree s (k / 16384) fun t => millCounterSet t k (0 : BitVec 16).toNat src
    have sets : millCounterSet t k (0 : BitVec 16).toNat src = setCounterOp t k 0 := if_neg (by simp [h.millSource, source])
    rw [runs, sets, setCounterOp, h.here]
    exact (h.releases ⟨0, 0⟩ rfl parked item free off).releases_spec rfl
  case underflow =>
    obtain ⟨t, h, runs⟩ := voted_agree s (k / 16384) fun t => decrementOp t k st src
    have zero' : ((t.slc (k / 16384)).counter k).count = 0 := by rw [h.here]; exact zero
    have reports : decrementOp t k st src = raise t 5 (k / 16384) 0x0807 (leBytes 2 k ++ leBytes 1 src) := if_pos zero'
    rw [runs, reports]
    obtain ⟨slice, raised, others, frame⟩ := (h.raise _ _ _ _).raise_spec room
    exact ⟨raised, slice, others, frame⟩
  case decrement =>
    obtain ⟨t, h, runs⟩ := voted_agree s (k / 16384) fun t => decrementOp t k st src
    have stands : (Agreed s (k / 16384)).counter k = (s.slc (k / 16384)).counter k := rfl
    rw [runs, decrementOp, h.here, stands, if_neg (by omega)]
    exact (h.counts ⟨_, _⟩ (by dsimp only; omega)).counts_spec
  case release =>
    obtain ⟨t, h, runs⟩ := voted_agree s (k / 16384) fun t => decrementOp t k st src
    have stands : (Agreed s (k / 16384)).counter k = (s.slc (k / 16384)).counter k := rfl
    rw [runs, decrementOp, h.here, stands, if_neg (by omega), one]
    exact (h.releases ⟨0, _⟩ rfl parked item free off).releases_spec rfl
  case unasked =>
    obtain ⟨t, h, runs⟩ := voted_agree s slc fun t => flowFetched t slc f
    have idle : flowFetched t slc f = t := if_pos (by simp [h.here, unasked])
    rw [runs, idle]
    exact h.spec
  case fetched =>
    obtain ⟨t, h, runs⟩ := voted_agree s slc fun t => flowFetched t slc f
    rw [runs]
    exact (h.flowFetched asked fresh room items missed flow readable).spec

end Sys2Proof.Machine
end

section
namespace Sys2Proof.Machine

open Sys2Proof.Claims

variable {s t u : State} {i : Nat} {x : Slice}

/-! ## Items that nothing falls due for (R277 to R280, R287) -/

theorem mem_of_mapGet? {α : Type} {m : SMap α} {k : Nat} {v : α} (h : mapGet? m k = some v) : (k, v) ∈ m := by
  induction m with
  | nil => cases h
  | cons e t ih =>
    rw [mapGet?] at h
    split at h
    case isTrue same =>
      cases h
      subst same
      exact List.mem_cons_self
    case isFalse => exact List.mem_cons_of_mem _ (ih h)

/-- A parked item does not age, nor does one in a class without ageing (R277). -/
theorem promote_idle (s : State) (i q : Nat) (h : ∀ it, mapGet? (s.slc i).items q = some it →
    it.place = 0 ∨ (it.cls ≤ 5 → s.param 0x0802 (i * 6 + it.cls) = 0)) : promote s i q = s := by
  unfold promote
  split
  case h_1 => rfl
  case h_2 it item =>
    refine if_neg fun due => ?_
    simp only [Bool.and_eq_true, Bool.or_eq_true, decide_eq_true_eq] at due
    obtain ⟨⟨⟨place, low⟩, ages⟩, -⟩ := due
    rcases h it item with parked | still
    · omega
    · exact ages (still low)

/-- No item is on its way to the slice, and every tier message that it must have taken has been taken (R280, R287). -/
theorem tierDue_idle (s : State) (i : Nat) (h : NoneArriving s i) : tierDue s i = s := by
  refine if_neg fun due => ?_
  obtain ⟨m, sent, late⟩ := List.any_eq_true.mp due
  simp only [Bool.and_eq_true, decide_eq_true_eq] at late
  simp [h.2 m sent late.1] at late

/-- Nothing falls due in a slice whose items have no deadline and do not age, and to which nothing is on its way (R279). -/
theorem dueActions_settled (s : State) (i : Nat) (arriving : NoneArriving s i) (settled : ∀ e ∈ (s.slc i).items, Settled s i e.2) :
    dueActions s i = s := by
  have held (q : Nat) (it : Item) (item : mapGet? (s.slc i).items q = some it) : Settled s i it := settled _ (mem_of_mapGet? item)
  have young (q : Nat) : promoteDue s i q = s := by
    unfold promoteDue
    exact List.foldl_fixed' (fun _ => promote_idle s i q fun it item => .inr (held q it item).2.2) _
  have still (q : Nat) : becomeLate (urgent (promoteDue s i q) i q) i q = s := by
    rw [young, urgent_noDeadline s i q fun it item => (held q it item).1,
      becomeLate_idle s i q fun it item => .inr (.inl (held q it item).1)]
  have noGrant : grantLate s i = s := by
    unfold grantLate
    rw [arriving.1]
  unfold dueActions
  dsimp only
  rw [tierDue_idle s i arriving, noGrant]
  generalize byDeadline (s.slc i) = l
  exact List.foldlRecOn (motive := (· = s)) l _ rfl fun t same q _ => by rw [same, still]

theorem SliceAs.dueActions (h : SliceAs s i x t) (arriving : NoneArriving s i) (settled : ∀ e ∈ x.items, Settled s i e.2) :
    dueActions t i = t := by
  refine dueActions_settled t i ?_ ?_
  · obtain ⟨l, rfl⟩ := h.rest
    exact arriving
  · rw [h.here]
    simpa only [Settled, h.param] using settled

theorem SliceAs.clearAnswered (h : SliceAs s i x t) : SliceAs s i { x with answered := false } (clearAnswered t i) := by
  unfold Machine.clearAnswered
  rw [h.here]
  split
  case isTrue => exact h.setSlc _
  case isFalse none =>
    have same : { x with answered := false } = x := by
      cases x
      simpa using none
    rwa [same]

/-! ## Idle units (R273) -/

/-- Whether a unit is idle depends on no part of a slice but its items. -/
theorem SliceAs.unitIdle (h : SliceAs s i x t) (same : x.items = (s.slc i).items) (k : Nat) : unitIdle t k = unitIdle s k := by
  have items (j : Nat) : (t.slc j).items = (s.slc j).items := by
    by_cases at_ : j = i
    · rw [at_, h.here, same]
    · rw [h.there j at_]
  have runs : runningOn t k = runningOn s k := by rw [runningOn, runningOn, items]
  unfold Machine.unitIdle waitsForWork inService
  rw [runs]
  obtain ⟨l, rfl⟩ := h.rest
  rfl

/-- The first idle unit that an item's masks name (R276). -/
def firstIdle (s : State) (i : Nat) (it : Item) : Option Nat := (eligible i it.desc).find? fun k => unitIdle s k

theorem SliceAs.firstIdle (h : SliceAs s i x t) (same : x.items = (s.slc i).items) : firstIdle t i = firstIdle s i := by
  funext it
  simp only [Machine.firstIdle, h.unitIdle same]

theorem SliceAs.idleMasks (h : SliceAs s i x t) (same : x.items = (s.slc i).items) : idleMasks t i = idleMasks s i := by
  simp only [Machine.idleMasks, idleCores, h.unitIdle same]

/-! ## The item that a decision takes (R275, R276) -/

/-- A fold that keeps its first result finds the first. -/
theorem foldl_first {α β : Type} (step : Option β → α → Option β) (keeps : ∀ v a, step (some v) a = some v) (l : List α)
    (b : Option β) : l.foldl step b = b.or (l.findSome? (step none)) := by
  induction l generalizing b with
  | nil => simp
  | cons a l ih =>
    rw [List.foldl_cons, ih]
    cases b with
    | some v => simp [keeps]
    | none => cases found : step none a <;> simp [found]

/-- The classes are searched from 7 down, each in its order. -/
theorem pick_eq (x : Slice) (f : Item → Option Nat) : pick x f = (List.range 8).findSome? fun c =>
    (readyItems x (7 - c)).findSome? fun e => (f e.2).map fun k => (e.1, e.2, k) := by
  unfold pick
  rw [foldl_first _ fun _ _ => rfl, Option.none_or]
  dsimp only
  congr 1
  funext c
  rw [foldl_first _ fun _ _ => rfl, Option.none_or]

theorem pick_empty (x : Slice) (f : Item → Option Nat) (empty : x.items = []) : pick x f = none := by
  simp [pick_eq, readyItems, empty]

/-- The one item of the highest class that holds a ready item is taken where a unit is found for it. -/
theorem pick_top {f : Item → Option Nat} {c k : Nat} {e : Nat × Item} (class_ : c ≤ 7) (top : readyItems x c = [e])
    (above : ∀ d, c < d → readyItems x d = []) (found : f e.2 = some k) : pick x f = some (e.1, e.2, k) := by
  have order : ∀ c ≤ 7, List.range 8 = List.range (7 - c) ++ (7 - c) :: List.range' (8 - c) c := by decide
  rw [pick_eq, List.findSome?_eq_some_iff]
  refine ⟨_, _, _, order c class_, ?_, fun d hd => ?_⟩
  · rw [Nat.sub_sub_self class_, top]
    simp [found]
  · have high : c < 7 - d := by
      have := List.mem_range.mp hd
      omega
    simp [above _ high]

theorem pick_sole {f : Item → Option Nat} {q k : Nat} {it : Item} (items : x.items = [(q, it)]) (ready : it.place = 3)
    (class_ : it.cls ≤ 6) (found : f it = some k) : pick x f = some (q, it, k) := by
  refine pick_top (c := it.cls) (e := (q, it)) (by omega) ?_ (fun d high => ?_) found
  · simp [readyItems, items, ready, insertItem]
  · have other : it.cls ≠ d := by omega
    simp [readyItems, items, other]

theorem pick_higher {f : Item → Option Nat} {q q' k : Nat} {it it' : Item} (items : x.items = [(q, it), (q', it')])
    (ready : it'.place = 3) (class_ : it'.cls ≤ 6) (lower : it.cls < it'.cls) (found : f it' = some k) :
    pick x f = some (q', it', k) := by
  refine pick_top (c := it'.cls) (e := (q', it')) (by omega) ?_ (fun d high => ?_) found
  · have other : it.cls ≠ it'.cls := by omega
    simp [readyItems, items, ready, other, insertItem]
  · have other : it.cls ≠ d := by omega
    have other' : it'.cls ≠ d := by omega
    simp [readyItems, items, other, other']

/-! ## Delivery (R266, R276) -/

/-- Item `q` of slice `i` is delivered to unit `k`: nothing changes but the item, the deliveries under way, and the time since which
the unit's domain has been idle. -/
structure Delivers (s : State) (i q k : Nat) (it : Item) (u : State) : Prop where
  here : u.slc i = { s.slc i with items := mapSet (s.slc i).items q { it with place := 4, unit := k } }
  there : OtherSlices s u i
  rest : ∃ l idle, u = { s with
    mill := { s.mill with slices := l, deliveries := mapSet s.mill.deliveries k (deliveredCopy s i it) }
    power := { s.power with idleFrom := idle } }

theorem touchDomain_eq (s : State) (d : Nat) : ∃ idle, touchDomain s d = { s with power := { s.power with idleFrom := idle } } := by
  unfold touchDomain
  split
  · exact ⟨_, rfl⟩
  · exact ⟨s.power.idleFrom, rfl⟩

theorem deliver_delivers (s : State) (i q k : Nat) {it : Item} (off : NoTrace s i) (item : mapGet? (s.slc i).items q = some it) :
    Delivers s i q k it (deliver s i q k) := by
  have runs := (SliceAs.refl s i).modItem item fun e => { e with place := 4, unit := k }
  obtain ⟨idle, touched⟩ := touchDomain_eq (s.modItem i q fun e => { e with place := 4, unit := k }) (unitDomain k)
  have word : deliveredCopy (s.modItem i q fun e => { e with place := 4, unit := k }) i it = deliveredCopy s i it := by
    simp only [deliveredCopy, deliveryWord, tierOf, runs.here]
  have gives : deliver s i q k = { s.modItem i q fun e => { e with place := 4, unit := k } with
      mill := { (s.modItem i q fun e => { e with place := 4, unit := k }).mill with
        deliveries := mapSet (s.modItem i q fun e => { e with place := 4, unit := k }).mill.deliveries k (deliveredCopy s i it) }
      power := { (s.modItem i q fun e => { e with place := 4, unit := k }).power with idleFrom := idle } } := by
    simp only [deliver, item, trace_off s i _ _ _ off, touched, word]
  obtain ⟨l, e⟩ := runs.rest
  rw [gives]
  exact ⟨runs.here, runs.there, l, idle, by rw [e]⟩

/-- A delivery out of a slice that holds `x` and the tiers of `s`, as the statements about dispatch ask for it. -/
theorem Delivers.spec {q k : Nat} {it : Item} (d : Delivers t i q k it u) (h : SliceAs s i x t) (tiers : x.tiers = (s.slc i).tiers) :
    u.slc i = { x with items := mapSet x.items q { it with place := 4, unit := k } } ∧
    u.mill.deliveries = mapSet s.mill.deliveries k (deliveredCopy s i it) ∧ OtherSlices s u i ∧
    u.power = { s.power with idleFrom := u.power.idleFrom } ∧ SameExcept [.mill, .power] s u := by
  have word : deliveredCopy t i it = deliveredCopy s i it := by
    simp only [deliveredCopy, deliveryWord, tierOf, h.here, tiers]
  obtain ⟨l, idle, e⟩ := d.rest
  rw [word] at e
  obtain ⟨l', rfl⟩ := h.rest
  refine ⟨by rw [d.here, h.here], by rw [e], fun j hj => (d.there j hj).trans (h.there j hj), by rw [e], ?_⟩
  rw [e]
  simp [SameExcept]

/-! ## Decisions (R276) -/

/-- A decision that finds an item and a unit delivers the one to the other. -/
theorem SliceAs.decide_delivers {q k : Nat} {it : Item} (h : SliceAs s i x t) (off : NoTrace s i) (awake : Decides s i)
    (arriving : NoneArriving s i) (settled : ∀ e ∈ x.items, Settled s i e.2) (same : x.items = (s.slc i).items)
    (item : mapGet? x.items q = some it) (picked : pick x (Machine.firstIdle s i) = some (q, it, k))
    (noEstimate : dEstimate it.desc = false) :
    Delivers (Machine.clearAnswered t i) i q k it (decide_ t i) := by
  have cleared := h.clearAnswered
  have runs : (Machine.clearAnswered t i).boot.devState ≠ 4 := by
    obtain ⟨l, e⟩ := cleared.rest
    rw [e]
    exact awake.1
  have present : millWithdrawn t i = false := by
    obtain ⟨l, rfl⟩ := h.rest
    exact awake.2
  have finds : pick ((Machine.clearAnswered t i).slc i) (Machine.firstIdle (Machine.clearAnswered t i) i) = some (q, it, k) := by
    rw [cleared.here, cleared.firstIdle same]
    simpa [pick_eq, readyItems] using picked
  have delivers : decide_ t i = deliver (Machine.clearAnswered t i) i q k := by
    unfold Machine.firstIdle at finds
    simp only [decide_, h.dueActions arriving settled, runs, present, finds, noEstimate]
    simp
  rw [delivers]
  refine deliver_delivers _ _ _ _ ((cleared.paramMill _ _ _).trans off) ?_
  rw [cleared.here]
  exact item

/-- The state with the steal requests on their way replaced. -/
abbrev withReqs (s : State) (l : List StealReq) : State := { s with mill := { s.mill with stealReqs := l } }

theorem SliceAs.withReqs (h : SliceAs s i x t) (l : List StealReq) : SliceAs (withReqs s l) i x (withReqs t l) := by
  refine ⟨h.here, h.there, ?_⟩
  obtain ⟨slices, rfl⟩ := h.rest
  exact ⟨slices, rfl⟩

/-- With no ready item and stealing off, a decision changes nothing but that the slice may answer a steal request again. -/
theorem SliceAs.decide_rests (h : SliceAs s i x t) (empty : x.items = []) (arriving : NoneArriving s i)
    (noSteal : s.param 0x0808 i ≠ 1) : SliceAs s i { x with answered := false } (decide_ t i) := by
  have cleared := h.clearAnswered
  have settled : ∀ e ∈ x.items, Settled s i e.2 := by simp [empty]
  have rests : decide_ t i = Machine.clearAnswered t i := by
    unfold decide_
    rw [h.dueActions arriving settled]
    dsimp only
    split
    case isTrue => rfl
    case isFalse =>
      rw [cleared.here, pick_empty { x with answered := false } _ empty]
      simp [cleared.param, noSteal]
  rw [rests]
  exact cleared

/-- With no ready item, an idle core and stealing on, a slice that has asked nobody yet asks the next slice. -/
theorem SliceAs.decide_asks (h : SliceAs s i x t) (awake : Decides s i) (empty : x.items = []) (same : x.items = (s.slc i).items)
    (arriving : NoneArriving s i) (steals : s.param 0x0808 i = 1) (idle : (Machine.idleMasks s i).1 ≠ 0)
    (noReq : ∀ r ∈ s.mill.stealReqs, r.thief ≠ i) :
    ∃ u, SliceAs s i { x with answered := false } u ∧ decide_ t i = Machine.withReqs u (s.mill.stealReqs ++ [{
      thief := i, victim := (i + 1) % 4, clusters := (Machine.idleMasks s i).1, units := (Machine.idleMasks s i).2 }]) := by
  have cleared := h.clearAnswered
  have settled : ∀ e ∈ x.items, Settled s i e.2 := by simp [empty]
  have runs : (Machine.clearAnswered t i).boot.devState ≠ 4 := by
    obtain ⟨l, e⟩ := cleared.rest
    rw [e]
    exact awake.1
  have present : millWithdrawn t i = false := by
    obtain ⟨l, rfl⟩ := h.rest
    exact awake.2
  have unasked : ((Machine.clearAnswered t i).mill.stealReqs.any fun r => r.thief = i) = false ∧
      mapGet? (Machine.clearAnswered t i).mill.grants i = none ∧ (Machine.clearAnswered t i).mill.stealReqs = s.mill.stealReqs := by
    obtain ⟨l, e⟩ := cleared.rest
    rw [e]
    exact ⟨by simpa using noReq, arriving.1, rfl⟩
  obtain ⟨noneAsked, noneGiven, reqs⟩ := unasked
  refine ⟨_, cleared, ?_⟩
  unfold decide_
  rw [h.dueActions arriving settled]
  dsimp only
  rw [present, if_neg (by simpa using runs), cleared.here, pick_empty { x with answered := false } _ empty]
  dsimp only
  rw [cleared.idleMasks same, noneAsked, noneGiven, cleared.param, steals, reqs]
  exact if_pos (by simpa using idle)

end Sys2Proof.Machine
end

section
namespace Sys2Proof.Machine

open Sys2Proof.Claims

variable {s t u : State} {i q : Nat} {x : Slice} {it : Item}

/-! ## Ageing, urgency and late items that are due (R277 to R282) -/

theorem SliceAs.setClass (h : SliceAs s i x t) (off : NoTrace s i) (item : mapGet? x.items q = some it) (c a : Nat) :
    SliceAs s i { x with items := mapSet x.items q { it with cls := c, classAt := a } } (setClass t i q c a) := by
  have entered := h.modItem item fun _ => { it with cls := c, classAt := a }
  unfold Machine.setClass
  rw [h.here, item]
  dsimp only
  rw [entered.trace off]
  exact entered

/-- An item whose ageing is due enters the next class (R277). -/
theorem SliceAs.promote (h : SliceAs s i x t) (off : NoTrace s i) (item : mapGet? x.items q = some it)
    (waits : it.place = 1 ∨ it.place = 2 ∨ it.place = 3) (low : it.cls ≤ 5) (ages : s.param 0x0802 (i * 6 + it.cls) ≠ 0)
    (due : reached (s.localNow 2 i) (it.classAt + s.param 0x0802 (i * 6 + it.cls)) = true) :
    SliceAs s i { x with items := mapSet x.items q { it with
        cls := it.cls + 1, classAt := it.classAt + s.param 0x0802 (i * 6 + it.cls) } } (promote t i q) := by
  unfold Machine.promote
  rw [h.here, item]
  dsimp only
  rw [h.param, h.localNow, if_pos]
  · exact h.setClass off item _ _
  · simpa [due, low, ages, or_assoc] using waits

/-- An item within the urgency horizon of its deadline enters class 7 (R278). -/
theorem SliceAs.urgent (h : SliceAs s i x t) (off : NoTrace s i) (item : mapGet? x.items q = some it) (waits : it.place ≠ 4)
    (deadline : dHasDeadline it.desc = true) (low : it.cls ≠ 7) (near : dDeadline it.desc ≤ s.localNow 2 i + s.param 0x0801 0) :
    SliceAs s i { x with items := mapSet x.items q { it with cls := 7, classAt := s.now } } (urgent t i q) := by
  unfold Machine.urgent
  rw [h.here, item]
  dsimp only
  rw [h.param, h.localNow, h.now, if_pos (by simp [waits, deadline, low, near])]
  exact h.setClass off item _ _

/-- An item that touches no other is dropped: it leaves the slice (R281). -/
theorem SliceAs.dropItem (h : SliceAs s i x t) (off : NoTrace s i) (item : mapGet? x.items q = some it) (alone : Alone it)
    (reason st : Nat) : SliceAs s i { x with items := mapDel x.items q } (dropItem t i q reason st) := by
  have leaves := h.setSlc { x with items := mapDel x.items q }
  unfold Machine.dropItem
  rw [h.here, item]
  dsimp only
  rw [h.trace off, h.here, flowNext, alone.1, decSuccessors, alone.2]
  exact leaves

/-- A late item without a carrier whose policy is DROP leaves the slice, counted for both reports (R281 to R283). -/
theorem SliceAs.becomeLate_drops (h : SliceAs s i x t) (off : NoTrace s i) (item : mapGet? x.items q = some it) (waits : it.place ≠ 4)
    (deadline : dHasDeadline it.desc = true) (fresh : it.late = false) (passed : reached (s.localNow 2 i) (dDeadline it.desc) = true)
    (policy : dPolicy it.desc = 1) (noCarrier : dCarrier it.desc = 0xFFFF) (alone : Alone it) :
    SliceAs s i { x with
        items := mapDel x.items q, lateCheck := bumpPolicy x.lateCheck 1, lateNone := bumpPolicy x.lateNone 1 }
      (becomeLate t i q) := by
  have counted := h.setSlc { x with lateCheck := bumpPolicy x.lateCheck 1, lateNone := bumpPolicy x.lateNone 1 }
  unfold Machine.becomeLate
  rw [h.here, item]
  dsimp only
  rw [h.localNow, if_neg (by simp [waits, deadline, fresh, passed]), policy, if_pos noCarrier]
  exact counted.dropItem off item alone 0 2

/-- The slice with one more late item of a carrier: a miss in the slot in which the deadline lies (R282). -/
def missed (s : State) (i : Nat) (x : Slice) (it : Item) : Slice :=
  { x with
    lateCheck := bumpPolicy x.lateCheck (dPolicy it.desc)
    misses := x.misses ++ [(dCarrier it.desc, (s.carrierTime (unitId 4 i) (dCarrier it.desc)).slotCount (dDeadline it.desc),
      dPolicy it.desc)] }

/-- The item in class 7, since now where it enters it. -/
def inClass7 (s : State) (it : Item) : Item := if it.cls = 7 then it else { it with cls := 7, classAt := s.now }

theorem SliceAs.classThen (h : SliceAs s i x t) (off : NoTrace s i) (item : mapGet? x.items q = some it) (f : Item → Item) :
    SliceAs s i { x with items := mapSet x.items q (f (inClass7 s it)) }
      ((if it.cls = 7 then t else Machine.setClass t i q 7 s.now).modItem i q f) := by
  unfold inClass7
  split
  case isTrue => exact h.modItem item f
  case isFalse =>
    have entered := (h.setClass off item 7 s.now).modItem (mapGet?_mapSet_self _ _ _) f
    simpa only [mapSet_mapSet] using entered

/-- A late item of a carrier that is not dropped stays in class 7, and counts as a miss (R281, R282). -/
theorem SliceAs.becomeLate_stays (h : SliceAs s i x t) (off : NoTrace s i) (item : mapGet? x.items q = some it) (waits : it.place ≠ 4)
    (deadline : dHasDeadline it.desc = true) (fresh : it.late = false) (passed : reached (s.localNow 2 i) (dDeadline it.desc) = true)
    (policy : dPolicy it.desc ≠ 1) (carrier : dCarrier it.desc ≠ 0xFFFF) :
    SliceAs s i { missed s i x it with items := mapSet x.items q { inClass7 s it with
        late := true, degrade := (inClass7 s it).degrade || decide (dPolicy it.desc = 2) } } (becomeLate t i q) := by
  have counted := h.setSlc (missed s i x it)
  have kept := counted.classThen off item
  unfold missed at kept
  unfold Machine.becomeLate
  rw [h.here, item]
  dsimp only
  rw [h.localNow, if_neg (by simp [waits, deadline, fresh, passed]), if_neg carrier, h.carrierTime,
    h.now]
  split
  case h_1 drop => exact absurd drop policy
  case h_2 degrade => simpa [degrade, missed] using kept fun e => { e with late := true, degrade := true }
  case h_3 other =>
    have stays : dPolicy it.desc ≠ 2 := other
    simpa [stays, missed] using kept fun e => { e with late := true }

theorem inClass7_desc (s : State) (it : Item) : (inClass7 s it).desc = it.desc := by unfold inClass7; split <;> rfl
theorem inClass7_place (s : State) (it : Item) : (inClass7 s it).place = it.place := by unfold inClass7; split <;> rfl
theorem inClass7_degrade (s : State) (it : Item) : (inClass7 s it).degrade = it.degrade := by unfold inClass7; split <;> rfl
theorem inClass7_cls (s : State) (it : Item) : (inClass7 s it).cls = 7 := by
  unfold inClass7
  split
  case isTrue h => exact h
  case isFalse => rfl

/-! ## Stealing (R284) -/

/-- A slice to which no request has come, or which has answered one since its last decision, answers none. -/
theorem stealRequestOp_idle (s : State) (v : Nat)
    (h : (∀ r ∈ s.mill.stealReqs, r.victim ≠ v) ∨ (s.slc v).answered = true) : stealRequestOp s v = s := by
  unfold stealRequestOp
  rcases h with none | answered
  · have unasked : s.mill.stealReqs.find? (fun r => r.victim = v) = Option.none := by simpa using none
    rw [unasked]
  · rw [answered]
    split <;> rfl

/-- A slice without a ready item sends a request on to the next slice, or ends it where that is the thief. -/
theorem SliceAs.steal_passes {v : Nat} {r : StealReq} (h : SliceAs s v x t) (sole : s.mill.stealReqs = [r]) (here : r.victim = v)
    (empty : x.items = []) (fresh : x.answered = false) (arriving : NoneArriving s v) :
    SliceAs (Machine.withReqs s (if (v + 1) % 4 = r.thief then [] else [{ r with victim := (v + 1) % 4 }])) v
      { x with answered := true } (stealRequestOp t v) := by
  have settled : ∀ e ∈ x.items, Settled s v e.2 := by simp [empty]
  have reqs : t.mill.stealReqs = [r] := by
    obtain ⟨l, rfl⟩ := h.rest
    exact sole
  have found : t.mill.stealReqs.find? (fun r => r.victim = v) = some r := by simp [reqs, here]
  have sent (l : List StealReq) := (h.withReqs l).setSlc { x with answered := true }
  unfold stealRequestOp
  rw [found]
  dsimp only
  rw [h.here, fresh, if_neg Bool.false_ne_true, h.dueActions arriving settled, h.here, reqs, List.erase_cons_head, State.slc_setSlc_self,
    pick_empty { x with answered := true } _ empty, ite_self]
  dsimp only
  by_cases back : (v + 1) % 4 = r.thief
  · rw [if_pos back, if_pos back]
    exact sent []
  · rw [if_neg back, if_neg back]
    exact sent [{ r with victim := (v + 1) % 4 }]

/-- What a victim gives: its one item, ready, which names an idle core of the thief and none of its own (R284). -/
abbrev Gives (s : State) (v : Nat) (r : StealReq) (it : Item) : Prop :=
  it.place = 3 ∧ dTarget it.desc = 0 ∧ dSteal it.desc = true ∧ dAtomic it.desc = false ∧ stealMatch r it.desc = true ∧
  (∀ k ∈ eligible v it.desc, unitIdle s k = false) ∧ (eligible r.thief it.desc).any (fun k => unitIdle s k) = true

/-- A slice whose one ready item the thief may run gives it to the thief. -/
theorem SliceAs.steal_gives {v : Nat} {r : StealReq} (h : SliceAs s v x t) (sole : s.mill.stealReqs = [r]) (here : r.victim = v)
    (items : x.items = [(q, it)]) (same : x.items = (s.slc v).items) (fresh : x.answered = false) (arriving : NoneArriving s v)
    (awake : s.boot.devState ≠ 4) (settled : Settled s v it) (gives : Gives s v r it) :
    SliceAs { s with mill := { s.mill with
        stealReqs := [], grants := mapSet s.mill.grants r.thief (v, { it with stolen := true }) } } v
      { x with items := [], answered := true } (stealRequestOp t v) := by
  have settled' : ∀ e ∈ x.items, Settled s v e.2 := by simpa [items] using settled
  have reqs : t.mill.stealReqs = [r] := by
    obtain ⟨l, rfl⟩ := h.rest
    exact sole
  have found : t.mill.stealReqs.find? (fun r => r.victim = v) = some r := by simp [reqs, here]
  have sent := (h.withReqs []).setSlc { x with answered := true }
  have runs : ((Machine.withReqs t []).setSlc v { x with answered := true }).boot.devState ≠ 4 := by
    obtain ⟨l, e⟩ := sent.rest
    rw [e]
    exact awake
  have idle (k : Nat) : Machine.unitIdle ((Machine.withReqs t []).setSlc v { x with answered := true }) k = Machine.unitIdle s k :=
    sent.unitIdle same k
  obtain ⟨ready, core, may, free, fits, busy, thief⟩ := gives
  have found : pick { x with answered := true } (fun e =>
      if (decide (dTarget e.desc = 0) && dSteal e.desc && !dAtomic e.desc && stealMatch r e.desc &&
        ((eligible r.thief e.desc).any fun k =>
          Machine.unitIdle ((Machine.withReqs t []).setSlc v { x with answered := true }) k) &&
        !((eligible v e.desc).any fun k =>
          Machine.unitIdle ((Machine.withReqs t []).setSlc v { x with answered := true }) k)) = true
      then some 0 else none) = some (q, it, 0) := by
    refine pick_sole items ready settled.2.1 (if_pos ?_)
    simp only [idle, core, may, free, fits, thief]
    simpa using busy
  unfold stealRequestOp
  rw [‹t.mill.stealReqs.find? _ = _›]
  dsimp only
  rw [h.here, fresh, if_neg Bool.false_ne_true, h.dueActions arriving settled', h.here, reqs, List.erase_cons_head,
    State.slc_setSlc_self, if_neg runs, found]
  dsimp only
  have left := sent.setSlc { x with items := [], answered := true }
  have emptied : mapDel x.items q = [] := by simp [items, mapDel]
  rw [emptied]
  refine ⟨left.here, left.there, ?_⟩
  obtain ⟨l, rfl⟩ := h.rest
  exact ⟨_, rfl⟩

/-- Nothing is granted to a slice to which nothing is on its way (R284). -/
theorem stealGrantOp_none (s : State) (i : Nat) (arriving : NoneArriving s i) (empty : (s.slc i).items = []) :
    stealGrantOp s i = s := by
  have due : dueActions s i = s := dueActions_settled s i arriving (by simp [empty])
  unfold stealGrantOp
  rw [due]
  dsimp only
  rw [arriving.1, ite_self]

/-- An item that reaches its thief is delivered there to the first idle core that its masks name (R284). -/
theorem stealGrantOp_delivers (s : State) (i v k : Nat) (off : NoTrace s i) (grant : mapGet? s.mill.grants i = some (v, it))
    (due : dueActions s i = s) (awake : s.boot.devState ≠ 4) (idle : FirstIdle s i it k) (noEstimate : dEstimate it.desc = false) :
    ∃ t, SliceAs { s with mill := { s.mill with grants := mapDel s.mill.grants i } } i
        { s.slc i with items := mapSet (s.slc i).items (s.slc i).nextSeq it, nextSeq := (s.slc i).nextSeq + 1 } t ∧
      Delivers t i (s.slc i).nextSeq k it (stealGrantOp s i) := by
  have taken := (SliceAs.refl { s with mill := { s.mill with grants := mapDel s.mill.grants i } } i).setSlc
    { s.slc i with items := mapSet (s.slc i).items (s.slc i).nextSeq it, nextSeq := (s.slc i).nextSeq + 1 }
  refine ⟨_, taken, ?_⟩
  have delivers := deliver_delivers _ i (s.slc i).nextSeq k (it := it) ((taken.paramMill _ _ _).trans off) (by
    rw [taken.here]
    exact mapGet?_mapSet_self _ _ _)
  have grants : stealGrantOp s i = deliver (State.setSlc { s with mill := { s.mill with grants := mapDel s.mill.grants i } } i
      { s.slc i with items := mapSet (s.slc i).items (s.slc i).nextSeq it, nextSeq := (s.slc i).nextSeq + 1 }) i (s.slc i).nextSeq k := by
    unfold stealGrantOp
    rw [due]
    dsimp only
    rw [if_neg awake, grant]
    dsimp only
    rw [idle]
    dsimp only
    rw [noEstimate, Bool.false_and, if_neg Bool.false_ne_true]
    exact congrArg (fun u => deliver u i (s.slc i).nextSeq k) (trace_off _ _ _ _ _ off)
  rw [grants]
  exact delivers

/-! ## What the statements ask for -/

theorem sameExcept_mill_power {m : MillSt} (h : SameExcept [.mill, .power] { s with mill := m } t) :
    SameExcept [.mill, .power] s t := by
  simpa [SameExcept] using h

theorem sameExcept_mill {m : MillSt} (h : SameExcept [.mill] { s with mill := m } t) : SameExcept [.mill] s t := by
  simpa [SameExcept] using h

/-- One item of a slice has changed: the item, the others, the other slices and the frame. -/
theorem SliceAs.item_spec {e : Item} (h : SliceAs s i { x with items := mapSet x.items q e } t) (same : x.items = (s.slc i).items) :
    mapGet? (t.slc i).items q = some e ∧ OtherItems s t i q ∧ OtherSlices s t i ∧ SameExcept [.mill] s t := by
  refine ⟨?_, fun j hj => ?_, h.there, h.sameExcept⟩ <;> rw [h.here]
  · exact mapGet?_mapSet_self _ _ _
  · exact (mapGet?_mapSet_ne _ _ hj).trans (by rw [same])

/-! ## Decisions, stealing, ageing, urgency and late items (R273 to R285, R292 to R294) -/

/-- Settles O34: each decision is one operation of a slice, made on the state that the vote leaves. -/
theorem millDispatch : Obligations.MillDispatch := by
  refine ⟨fun slc q k it s off awake items ready settled arriving idle noEstimate => ⟨_, rfl, ?sole⟩,
    fun slc q q' k it it' s off awake order items ready ready' settled settled' lower arriving idle noEstimate => ⟨_, rfl, ?higher⟩,
    fun slc n s awake empty steals idle noReq arriving => ⟨_, rfl, ?asks⟩,
    fun slc k s awake empty noSteal voting arriving room => ⟨_, rfl, ?excludes⟩,
    fun slc s fails room => ⟨_, rfl, voteFail_retries s slc fails room⟩,
    fun slc q k n st src o f i s same fails room row => ⟨voteFail s slc, ?fails, voteFail_retries s slc fails room⟩,
    fun v s none => ⟨_, rfl, ?unasked⟩,
    fun v r s sole here empty fresh arriving => ⟨_, rfl, ?passes⟩,
    fun v r q it s sole here awake items ready settled core may free fits busy thief fresh arriving => ⟨_, rfl, ?gives⟩,
    fun h s arriving empty => congrArg Host.Outcome.next (stealGrantOp_none s h arriving empty),
    fun h v k it s off grant due awake idle noEstimate => ⟨_, rfl, ?grants⟩,
    fun slc q it s off item waits low ages due => ⟨_, rfl, ?promotes⟩,
    fun slc q it s item parked => ⟨_, rfl, ?parked⟩,
    fun slc q it s off item waits deadline low near => ⟨_, rfl, ?urgent⟩,
    fun slc q it s item idle => ⟨_, rfl, ?notLate⟩,
    fun slc q it s off item waits deadline fresh passed policy carrier => ⟨_, rfl, ?stays⟩,
    fun slc q it s off item waits deadline fresh passed policy noCarrier alone => ⟨_, rfl, ?drops⟩⟩
  case sole =>
    obtain ⟨t, h, runs⟩ := voted_agree s slc fun t => decide_ t slc
    have delivers := h.decide_delivers off awake arriving (by simpa [items] using settled) rfl (by simp [items, mapGet?])
      (pick_sole items ready settled.2.1 idle) noEstimate
    rw [dispatch, sramError, runs]
    simpa [items, mapSet] using delivers.spec h.clearAnswered rfl
  case higher =>
    obtain ⟨t, h, runs⟩ := voted_agree s slc fun t => decide_ t slc
    have later : q ≠ q' := by omega
    have delivers := h.decide_delivers off awake arriving (by simpa [items] using ⟨settled, settled'⟩) rfl
      (by simp [items, mapGet?, later]) (pick_higher items ready' settled'.2.1 lower idle) noEstimate
    rw [dispatch, sramError, runs]
    simpa [items, mapSet, Nat.not_lt.mpr order.le, later.symm] using delivers.spec h.clearAnswered rfl
  case asks =>
    have counted := (SliceAs.refl s slc).setSlc { s.slc slc with sramCorrected := satAdd 32 (s.slc slc).sramCorrected n }
    have agrees := counted.agreed none (s.slc slc).excludedAt
    obtain ⟨u, kept, asks⟩ := agrees.decide_asks awake empty rfl arriving steals idle noReq
    have runs : dispatch s slc .agree (.corrected n) = decide_ (agreed (s.setSlc slc
        { s.slc slc with sramCorrected := satAdd 32 (s.slc slc).sramCorrected n }) slc none (s.slc slc).excludedAt) slc := by
      simp only [dispatch, sramError, voted, State.slc_setSlc_self]
    rw [runs, asks]
    exact ⟨kept.here, rfl, kept.there, sameExcept_mill (kept.withReqs _).sameExcept⟩
  case excludes =>
    have marked := (SliceAs.refl s slc).agreed (some k.val) s.now
    have runs : dispatch s slc (.copy k) .none =
        decide_ (raise (agreed s slc (some k.val) s.now) 5 slc 0x0803 (leBytes 1 slc ++ leBytes 1 k.val)) slc := by
      simp only [dispatch, sramError, voted, voting]
    rw [runs]
    refine ((marked.raise _ _ _ _).decide_rests empty ?_ ?_).raise_spec room
    · simpa only [NoneArriving, State.now, raise_mill, raise_time] using arriving
    · simpa only [State.param, raise_cfg] using noSteal
  case fails =>
    simp only [List.mem_cons, List.not_mem_nil, or_false] at row
    rcases row with rfl | rfl | rfl | rfl | rfl | rfl | rfl
    · exact congrArg (fun j => Host.Outcome.next (voteFail s j)) same
    · exact congrArg (fun j => Host.Outcome.next (voteFail s j)) same
    all_goals rfl
  case unasked =>
    obtain ⟨t, h, runs⟩ := voted_agree s v fun t => stealRequestOp t v
    have reqs : t.mill.stealReqs = s.mill.stealReqs := by
      obtain ⟨l, rfl⟩ := h.rest
      rfl
    rw [runs, stealRequestOp_idle t v (by rw [h.here, reqs]; exact none)]
    exact ⟨h.spec, reqs⟩
  case passes =>
    obtain ⟨t, h, runs⟩ := voted_agree s v fun t => stealRequestOp t v
    have passed := h.steal_passes sole here empty fresh arriving
    rw [runs]
    obtain ⟨l, e⟩ := passed.rest
    exact ⟨passed.here, by rw [e], by rw [e], passed.there, sameExcept_mill passed.sameExcept⟩
  case gives =>
    obtain ⟨t, h, runs⟩ := voted_agree s v fun t => stealRequestOp t v
    have given := h.steal_gives sole here items rfl fresh arriving awake settled ⟨ready, core, may, free, fits, busy, thief⟩
    rw [runs]
    obtain ⟨l, e⟩ := given.rest
    exact ⟨given.here, by rw [e], by rw [e], given.there, sameExcept_mill given.sameExcept⟩
  case grants =>
    obtain ⟨t, taken, delivers⟩ := stealGrantOp_delivers s h v k off grant due awake idle noEstimate
    obtain ⟨slice, deliveries, others, power, frame⟩ := delivers.spec taken rfl
    obtain ⟨l, idle, e⟩ := delivers.rest
    obtain ⟨l', e'⟩ := taken.rest
    refine ⟨?_, by rw [slice], fun j hj => ?_, by rw [e, e'], deliveries, others, power, sameExcept_mill_power frame⟩ <;> rw [slice]
    · exact mapGet?_mapSet_self _ _ _
    · rw [mapGet?_mapSet_ne _ _ hj, mapGet?_mapSet_ne _ _ hj]
  case promotes =>
    obtain ⟨t, h, runs⟩ := voted_agree s slc fun t => promote t slc q
    rw [runs]
    exact (h.promote off item waits low ages due).item_spec rfl
  case parked =>
    obtain ⟨t, h, runs⟩ := voted_agree s slc fun t => promote t slc q
    rw [runs, promote_idle t slc q fun e he => ?_]
    · exact h.spec
    · rw [h.here, item] at he
      exact .inl (Option.some.inj he ▸ parked)
  case urgent =>
    obtain ⟨t, h, runs⟩ := voted_agree s slc fun t => urgent t slc q
    rw [runs]
    exact (h.urgent off item waits deadline low near).item_spec rfl
  case notLate =>
    obtain ⟨t, h, runs⟩ := voted_agree s slc fun t => becomeLate t slc q
    rw [runs, becomeLate_idle t slc q fun e he => ?_]
    · exact h.spec
    · rw [h.here, item] at he
      exact Option.some.inj he ▸ idle
  case stays =>
    obtain ⟨t, h, runs⟩ := voted_agree s slc fun t => becomeLate t slc q
    have late := h.becomeLate_stays off item waits deadline fresh passed policy carrier
    obtain ⟨held, others, slices, frame⟩ := SliceAs.item_spec (x := missed s slc (Agreed s slc) it) late rfl
    rw [runs]
    refine ⟨⟨_, held, inClass7_cls s it, rfl, ?_, inClass7_desc s it, inClass7_place s it⟩, ?_, others, slices, frame⟩
    · dsimp only
      rw [inClass7_degrade]
    · rw [late.here]
      rfl
  case drops =>
    obtain ⟨t, h, runs⟩ := voted_agree s slc fun t => becomeLate t slc q
    rw [runs]
    exact (h.becomeLate_drops off item waits deadline fresh passed policy noCarrier alone).spec

end Sys2Proof.Machine
end

section
namespace Sys2Proof.Machine

open Sys2Proof.Claims

variable {s t u : State} {i q : Nat} {x : Slice} {it : Item}

/-! ## Tiers of carriers (R286, R287) -/

theorem SliceAs.setTier (h : SliceAs s i x t) (c n : Nat) :
    SliceAs s i { x with tiers := if n = 0 then mapDel x.tiers c else mapSet x.tiers c n } (setTier t i c n) := by
  unfold Machine.setTier
  rw [h.here]
  exact h.setSlc _

/-- A slice reads back the tier that it has taken; T0 is not listed. -/
theorem tierOf_taken {c n : Nat} (carrier : c < 1024)
    (h : (t.slc i).tiers = if n = 0 then mapDel x.tiers c else mapSet x.tiers c n) : tierOf t i c = n := by
  rw [tierOf, if_neg (by omega), h, mapGet]
  split
  case isTrue zero => simp [zero]
  case isFalse => simp

/-- The broadcasts of a change of a carrier's tier, to every slice but the carrier's own (R287). -/
def broadcasts (s : State) (c n : Nat) : List TierMsg :=
  ((List.range 4).filter fun i => i ≠ c % 4).map fun i => { slc := i, carrier := c, tier := n, at_ := s.now }

/-- A change of a carrier's tier in its own slice, with its report and its broadcasts. -/
structure ChangesTier (s : State) (c n cause : Nat) (t : State) : Prop where
  tier : tierOf t (c % 4) c = n
  here : ∃ l, t.slc (c % 4) = { s.slc (c % 4) with tiers := l }
  there : OtherSlices s t (c % 4)
  raised : Raised s t 5 (c % 4) 0x0802 2
    (leBytes 2 c ++ leBytes 1 (tierOf s (c % 4) c) ++ leBytes 1 n ++ leBytes 1 cause)
  rest : ∃ l ev, t = { s with mill := { s.mill with slices := l, tierMsgs := s.mill.tierMsgs ++ broadcasts s c n }, ev := ev }

theorem changeTier_changes (s : State) (c n cause : Nat) (carrier : c < 1024) (off : NoTrace s (c % 4)) (room : Room 1 s) :
    ChangesTier s c n cause (changeTier s c n cause) := by
  have taken := (SliceAs.refl s (c % 4)).setTier c n
  have untraced : traceTier (setTier s (c % 4) c n) (c % 4) c (tierOf s (c % 4) c) n = setTier s (c % 4) c n := by
    have off' : NoTrace (setTier s (c % 4) c n) (c % 4) := (taken.paramMill _ _ _).trans off
    simp [traceTier, off']
  have reported := taken.raise 5 (c % 4) 0x0802
    (leBytes 2 c ++ leBytes 1 (tierOf s (c % 4) c) ++ leBytes 1 n ++ leBytes 1 cause)
  obtain ⟨here, raised, there, -⟩ := reported.raise_spec room
  obtain ⟨l, e⟩ := reported.rest
  have sends : changeTier s c n cause = { s with
      mill := { s.mill with slices := l, tierMsgs := s.mill.tierMsgs ++ broadcasts s c n }
      ev := (raise s 5 (c % 4) 0x0802
        (leBytes 2 c ++ leBytes 1 (tierOf s (c % 4) c) ++ leBytes 1 n ++ leBytes 1 cause)).ev } := by
    simp only [changeTier, untraced, e]
    rw [raise_joins s _ _ _ _ room]
    rfl
  rw [e] at here there
  rw [sends]
  exact ⟨tierOf_taken carrier (congrArg Slice.tiers here), ⟨_, here⟩, there, raise_room s _ _ _ _ room, l, _, rfl⟩

/-! ## Ends of slots (R282, R286) -/

theorem reportMisses_none (s : State) (i c : Nat) (slot : Int)
    (none : ((s.slc i).misses.filter fun m => m.1 = c && decide (m.2.1 ≤ slot)) = []) : reportMisses s i c slot = (s, false) := by
  simp [reportMisses, none]

/-- The detail of MILL_LATE for one miss under a policy (R300). -/
def oneMiss (i c p : Nat) : List Byte :=
  leBytes 2 c ++ leBytes 1 i ++ leBytes 2 (if p = 0 then 1 else 0) ++ leBytes 2 (if p = 1 then 1 else 0) ++
    leBytes 2 (if p = 2 then 1 else 0)

/-- The state after a slice has reported its one miss. -/
def missReported (s : State) (i c p : Nat) : State := raise (s.setSlc i { s.slc i with misses := [] }) 5 i 0x0801 (oneMiss i c p)

theorem reportMisses_one (s : State) (i c p : Nat) (sl slot : Int) (ended : sl ≤ slot) (miss : (s.slc i).misses = [(c, sl, p)]) :
    reportMisses s i c slot = (missReported s i c p, true) := by
  have count (j : Nat) : min ([(c, sl, p)].filter fun m => m.2.2 = j).length 65535 = if p = j then 1 else 0 := by
    by_cases same : p = j <;> simp [same]
  have mine : ([(c, sl, p)].filter fun m => m.1 = c && decide (m.2.1 ≤ slot)) = [(c, sl, p)] := by simp [ended]
  have others : ([(c, sl, p)].filter fun m => !(m.1 = c && decide (m.2.1 ≤ slot))) = [] := by simp [ended]
  simp only [reportMisses, miss, mine, others, count]
  rfl

/-- The state with a carrier's service-tier history replaced. -/
abbrev withHist (s : State) (c : Nat) (h : TierHist) : State :=
  { s with mill := { s.mill with tierHist := mapSet s.mill.tierHist c h } }

/-- The history of a carrier with one more slot. -/
def nextHist (s : State) (c : Nat) (miss : Bool) : TierHist :=
  { slots := (miss :: (mapGet s.mill.tierHist c {}).slots).take 64
    clean := if miss then 0 else (mapGet s.mill.tierHist c {}).clean + 1 }

/-- The slots of a history's window that held a miss (R286). -/
def missesIn (s : State) (h : TierHist) : Nat := ((h.slots.take (s.param 0x0803 0)).filter fun b => b).length

/-- A slot without a miss: the run of such slots grows, and a run that is long enough lowers the tier. -/
theorem slotEndOp_clean (s : State) (c : Nat) (slot : Int) (active : s.carrierActive c = true) (noMiss : NoMiss s c slot)
    (within : tierOf s (c % 4) c ≤ s.param 0x0806 c)
    (few : missesIn s (nextHist s c false) < s.paramMill (c % 4) 0x0804 0) : slotEndOp s c slot =
      if s.param 0x0805 0 ≤ (nextHist s c false).clean then
        if 0 < tierOf s (c % 4) c then
          changeTier (withHist s c { nextHist s c false with clean := 0 }) c (tierOf s (c % 4) c - 1) 1
        else withHist s c { nextHist s c false with clean := 0 }
      else withHist s c (nextHist s c false) := by
  have quiet (i : Nat) (hi : i < 4) := reportMisses_none s i c slot (noMiss i hi)
  have slices : List.range 4 = [0, 1, 2, 3] := rfl
  unfold missesIn nextHist at few
  simp only [slotEndOp, active, slices, List.foldl_cons, List.foldl_nil, quiet 0 (by omega), quiet 1 (by omega), quiet 2 (by omega),
    quiet 3 (by omega), Bool.or_false, Bool.not_true, if_neg Bool.false_ne_true, if_neg (Nat.not_lt.mpr within),
    if_neg (Nat.not_le.mpr few)]
  rfl

/-- What a slice that has reported its one miss shows: the miss is gone, and MILL_LATE has joined the queue. -/
theorem missReported_slice (s : State) (i c p : Nat) :
    SliceAs (raise s 5 i 0x0801 (oneMiss i c p)) i { s.slc i with misses := [] } (missReported s i c p) :=
  ((SliceAs.refl s i).setSlc { s.slc i with misses := [] }).raise _ _ _ _

theorem missReported_rest (s : State) (i c p : Nat) :
    ∃ l ev, missReported s i c p = { s with mill := { s.mill with slices := l }, ev := ev } := by
  obtain ⟨ev, e⟩ := raise_eq s 5 i 0x0801 (oneMiss i c p)
  obtain ⟨l, e'⟩ := (missReported_slice s i c p).rest
  exact ⟨l, ev, by rw [e', e]⟩

theorem missReported_queue (s : State) (i c p : Nat) (room : Room 1 s) : (missReported s i c p).ev.queue =
    s.ev.queue ++ [{ cls := 5, inst := i, code := 0x0801, sev := 2, detail := oneMiss i c p }] := by
  rw [(missReported_slice s i c p).ev, raise_room s _ _ _ _ room]
  rfl

theorem missReported_misses (s : State) (i c p : Nat) : ((missReported s i c p).slc i).misses = [] := by
  rw [(missReported_slice s i c p).here]

theorem missReported_tierOf (s : State) (i c p j : Nat) : tierOf (missReported s i c p) j c = tierOf s j c := by
  obtain ⟨here, there, -⟩ := missReported_slice s i c p
  by_cases same : j = i
  · simp only [tierOf, same, here]
  · simp only [tierOf, there _ same, raise_slc]

/-- A slot with a miss in a slice: it is reported, and enough such slots raise the tier (R286). -/
theorem slotEndOp_missed (s : State) (i c p : Nat) (sl slot : Int) (active : s.carrierActive c = true) (slice : i < 4)
    (ended : sl ≤ slot) (miss : (s.slc i).misses = [(c, sl, p)]) (others : ∀ j, j < 4 → j ≠ i → (s.slc j).misses = [])
    (below : tierOf s (c % 4) c < s.param 0x0806 c)
    (many : s.paramMill (c % 4) 0x0804 0 ≤ missesIn s (nextHist s c true)) : slotEndOp s c slot =
      changeTier (withHist (missReported s i c p) c { nextHist s c true with slots := [] }) c (tierOf s (c % 4) c + 1) 0 := by
  obtain ⟨here, there, l, rest⟩ := missReported_slice s i c p
  have reports := reportMisses_one s i c p sl slot ended miss
  have quiet (j : Nat) (hj : j < 4) (other : j ≠ i) : reportMisses s j c slot = (s, false) :=
    reportMisses_none s j c slot (by simp [others j hj other])
  have done (j : Nat) (hj : j < 4) : reportMisses (missReported s i c p) j c slot = (missReported s i c p, false) := by
    refine reportMisses_none _ j c slot ?_
    by_cases same : j = i
    · simp [same, here]
    · simp [there j same, others j hj same]
  have slices : List.range 4 = [0, 1, 2, 3] := rfl
  have fold (f : State × Bool → Nat → State × Bool)
      (hf : ∀ t m j u b, reportMisses t j c slot = (u, b) → f (t, m) j = (u, m || b)) :
      [0, 1, 2, 3].foldl f (s, false) = (missReported s i c p, true) := by
    have before (j : Nat) (hj : j < 4) (other : j ≠ i) : f (s, false) j = (s, false) := hf _ _ _ _ _ (quiet j hj other)
    have at_ : f (s, false) i = (missReported s i c p, true) := hf _ _ _ _ _ reports
    have after (j : Nat) (hj : j < 4) : f (missReported s i c p, true) j = (missReported s i c p, true) := hf _ _ _ _ _ (done j hj)
    interval_cases i <;> simp [before, at_, after]
  have tier := missReported_tierOf s i c p (c % 4)
  obtain ⟨l', ev, e⟩ := missReported_rest s i c p
  have hist : (missReported s i c p).mill.tierHist = s.mill.tierHist := by rw [e]
  have param (n k : Nat) : (missReported s i c p).param n k = s.param n k := by
    rw [e]
    rfl
  have paramMill (n k : Nat) : (missReported s i c p).paramMill (c % 4) n k = s.paramMill (c % 4) n k := by
    rw [e]
    rfl
  unfold missesIn nextHist at many
  unfold slotEndOp
  rw [active, slices, fold]
  · dsimp only
    simp only [hist, tier, param, paramMill, if_true, Bool.not_true, if_neg Bool.false_ne_true,
      if_neg (Nat.not_lt.mpr below.le), if_pos below]
    rw [if_pos many]
    simp only [withHist, nextHist, hist, if_true]
  · intro t m j u b h
    simp only [h]

/-! ## Broadcasts, periodic reports and checks (R282, R283, R287) -/

theorem tierMessageOp_idle (s : State) (i c : Nat) (none : ∀ m ∈ s.mill.tierMsgs, m.slc ≠ i ∨ m.carrier ≠ c) :
    tierMessageOp s i c = s := by
  have unsent : (s.mill.tierMsgs.find? fun m => m.slc = i && m.carrier = c) = Option.none := by
    simpa [List.find?_eq_none, ← not_and_or] using none
  rw [tierMessageOp, unsent]

/-- The state with other broadcasts under way. -/
abbrev withTierMsgs (s : State) (l : List TierMsg) : State := { s with mill := { s.mill with tierMsgs := l } }

theorem tierMessageOp_head (s : State) (m : TierMsg) (l : List TierMsg) (sent : s.mill.tierMsgs = m :: l) :
    tierMessageOp s m.slc m.carrier = setTier (withTierMsgs s l) m.slc m.carrier m.tier := by
  simp [tierMessageOp, sent]

theorem lateReportOp_idle (s : State) (i : Nat) (none : (s.slc i).lateNone = [0, 0, 0]) : lateReportOp s i = s := if_pos none

theorem lateReportOp_reports (s : State) (i a b c : Nat) (late : (s.slc i).lateNone = [a, b, c]) (some : a + b + c ≠ 0) :
    lateReportOp s i = raise (s.setSlc i { s.slc i with lateNone := [0, 0, 0] }) 5 i 0x0801
      (leBytes 2 0xFFFF ++ leBytes 1 i ++ leBytes 2 a ++ leBytes 2 b ++ leBytes 2 c) := by
  have listed : (s.slc i).lateNone ≠ [0, 0, 0] := by
    rw [late]
    simp
    omega
  rw [lateReportOp, if_neg listed, late]
  simp

/-- A check that finds no message of its comparator under way takes none. -/
theorem millCheckRow_eq (s : State) (i : Nat) (none : ∀ m ∈ s.fab.flight, m.vc ≠ 3) : millCheckRow s i = millCheckOp s i := by
  have unsent (p : FabMsg → Bool) : (s.fab.flight.find? fun m => m.vc = 3 && p m) = Option.none := by
    simpa [List.find?_eq_none] using fun m hm vc => absurd vc (none m hm)
  unfold millCheckRow
  simp only [Bool.and_assoc]
  rw [unsent]

/-- A check of a slice whose one item is settled reports it and the counts of late items (R283). -/
theorem millCheckOp_settled (s : State) (i a b c : Nat) (late : (s.slc i).lateCheck = [a, b, c])
    (items : (s.slc i).items = [(q, it)])
    (settled : Settled s i it) (arriving : NoneArriving s i) :
    millCheckOp s i = raise (s.setSlc i { s.slc i with lateCheck := [0, 0, 0] }) 5 i 0x080A
      (leBytes 1 i ++ leBytes 4 1 ++ leBytes 2 a ++ leBytes 2 b ++ leBytes 2 c ++ leBytes 2 0) := by
  have low : it.cls ≠ 7 := by have := settled.2.1; omega
  unfold millCheckOp
  rw [dueActions_settled s i arriving (by simpa [items] using settled)]
  simp [items, late, low]

/-! ## Drain and abort (R289, R290) -/

theorem drainTimeout_idle (s : State) (k : Nat) (none : mapGet? s.mill.drains k = none) : drainTimeout s k = s := by
  rw [drainTimeout, none]

/-- A drain that has lasted too long: the core's item is asked to end (R289). -/
theorem drainTimeout_aborts (s : State) (k d : Nat) (drain : mapGet? s.mill.drains k = some d) (runs : runningOn s k = some q)
    (core : k < 1024) (fresh : mapGet? s.mill.aborts k = none) (free : s.param 0x1603 0 ≠ 1)
    (due : reached s.now (d + s.param 0x0809 0) = true) : drainTimeout s k =
      { s.setCore k { s.core k with
          dmem := bytesWrite 0 (s.core k).dmem 0x3FFC0
            (padTo 64 (leBytes 2 1 ++ [0, 0] ++ leBytes 4 (runningFlow s k) ++ leBytes 8 s.now))
          supervisor := true } with mill := { s.mill with aborts := mapSet s.mill.aborts k s.now } } := by
  rw [drainTimeout, drain, runs]
  dsimp only
  rw [if_neg (by simp [core, fresh, free, due])]
  rfl

theorem SliceAs.completeItem (h : SliceAs s i x t) (off : NoTrace s i) (item : mapGet? x.items q = some it) (alone : Alone it)
    (tr : Nat) : SliceAs s i { x with items := mapDel x.items q } (completeItem t i q tr) := by
  have leaves := h.setSlc { x with items := mapDel x.items q }
  unfold Machine.completeItem
  rw [h.here, item]
  dsimp only
  rw [h.trace off, h.here, flowNext, alone.1, decSuccessors, alone.2]
  exact leaves

/-- A unit's abort and delivery are forgotten. -/
abbrev released (s : State) (k : Nat) : State :=
  { s with mill := { s.mill with aborts := mapDel s.mill.aborts k, deliveries := mapDel s.mill.deliveries k } }

theorem SliceAs.released (h : SliceAs s i x t) (k : Nat) : SliceAs (released s k) i x (released t k) := by
  obtain ⟨here, there, l, rfl⟩ := h
  exact ⟨here, there, l, rfl⟩

/-- The sole item of a slice that runs on a unit completes, and no other item sees it (R270). -/
theorem completeUnit_sole {k : Nat} (off : NoTrace s (unitSlice k)) (items : (s.slc (unitSlice k)).items = [(q, it)])
    (runs : it.place = 4) (here : it.unit = k) (alone : Alone it) (tr : Nat) :
    SliceAs (released s k) (unitSlice k) { s.slc (unitSlice k) with items := [] } (completeUnit s k tr) := by
  have running : runningOn s k = some q := by simp [runningOn, items, runs, here]
  have completes := (SliceAs.refl s (unitSlice k)).completeItem (q := q) (it := it) off (by simp [items, mapGet?]) alone tr
  rw [completeUnit, running]
  simpa [items, mapDel] using completes.released k

/-- The core that a fatal cause leaves behind (R194). -/
def faulted (c : Core) (cause : Nat) : Core :=
  let d := (drainCore 64 c 0).1
  { d with
    regs := { d.regs with cmds := [], demapRec := 0, solveRec := 0 }
    restoring := true, waiting := false, open_ := [], longs := [], snaps := []
    dmem := d.view, kept := [], waitIn := none, faultCause := cause
    dbg := { d.dbg with halted := false, requested := false, stepping := false } }

theorem coreFault_eq (s : State) (k cause tr : Nat) : coreFault s k cause tr =
    raise (completeUnit (s.setCore k (faulted (s.core k) cause)) k tr) 7 k 0x0701
      (leBytes 2 k ++ leBytes 1 cause ++ [0] ++ leBytes 2 (s.core k).regs.pc ++ leBytes 4 (runningFlow s k)) := rfl

/-- Two events in a row join a queue with room for both. -/
theorem raise_raise (u : State) (room : Room 2 u) (c i n : Nat) (b : List Byte) (c' i' n' : Nat) (b' : List Byte) :
    ∃ ev, raise (raise u c i n b) c' i' n' b' = { u with ev := ev } ∧ Queued { u with ev := ev } c i n ∧
      Queued { u with ev := ev } c' i' n' := by
  have room' : Room 1 (raise u c i n b) := (queueGrows_raise u c i n b).room room
  have first := (queueGrows_raise (raise u c i n b) c' i' n' b').queued (raise_queued u c i n b (by omega))
  have second := raise_queued (raise u c i n b) c' i' n' b' room'
  obtain ⟨ev, e⟩ := raise_eq u c i n b
  obtain ⟨ev', e'⟩ := raise_eq { u with ev := ev } c' i' n' b'
  rw [e, e'] at first second
  exact ⟨ev', by rw [e, e'], first, second⟩

theorem abortGraceExpiry_idle (s : State) (k : Nat) (none : mapGet? s.mill.aborts k = none) : abortGraceExpiry s k = s := by
  rw [abortGraceExpiry, none]

theorem abortGraceExpiry_faults (s : State) (k a : Nat) (abort : mapGet? s.mill.aborts k = some a) (runs : runningOn s k = some q)
    (free : s.param 0x1603 0 ≠ 1) (due : reached s.now (a + s.param 0x080A 0) = true) : abortGraceExpiry s k =
      raise (coreFault s k 0x23 0x83) 5 (unitSlice k) 0x0809 (leBytes 2 k ++ leBytes 4 (runningFlow s k)) := by
  rw [abortGraceExpiry, abort]
  dsimp only
  rw [if_neg (by simp [runs, free, due])]

/-! ## The obligation -/

/-- Settles O35: a service-tier change is one raise and one write of the carrier's slice, and an abort is the completion of the
core's one item. -/
theorem millService : Obligations.MillService := by
  refine ⟨fun c slot s off => congrArg Host.Outcome.next (if_pos (by simp [off])),
    fun c slot h s active noMiss hist within few short => ⟨_, rfl, ?grows⟩,
    fun c slot h s active noMiss off hist within above few long room => ⟨_, rfl, ?lowers⟩,
    fun c slot sl h i p s active slice policy ended miss others off hist below many room => ⟨_, rfl, ?raises⟩,
    fun slc c s none => congrArg Host.Outcome.next (tierMessageOp_idle s slc c none),
    fun slc c n a l s sent => ⟨_, rfl, ?taken⟩,
    fun slc s none => congrArg Host.Outcome.next (lateReportOp_idle s slc none),
    fun slc a b c s late some room => ⟨_, rfl, ?late⟩,
    fun slc q it a b c s late items settled arriving noCheck room => ⟨_, rfl, ?check⟩,
    fun k s none => congrArg Host.Outcome.next (drainTimeout_idle s k none),
    fun k d q s drain runs fresh free due => ⟨_, rfl, ?aborts⟩,
    fun k s none => congrArg Host.Outcome.next (abortGraceExpiry_idle s k none),
    fun k a q it s abort items runs here alone off free due room => ⟨_, rfl, ?faults⟩⟩
  case grows =>
    subst hist
    have short' : (nextHist s c false).clean < s.param 0x0805 0 := short
    rw [slotEndOp_clean s c slot active noMiss within few, if_neg (Nat.not_le.mpr short')]
    exact ⟨rfl, by simp [SameExcept]⟩
  case lowers =>
    subst hist
    have changes := changeTier_changes (withHist s c { nextHist s c false with clean := 0 }) c (tierOf s (c % 4) c - 1) 1 c.isLt off room
    have long' : s.param 0x0805 0 ≤ (nextHist s c false).clean := long
    rw [slotEndOp_clean s c slot active noMiss within few, if_pos long', if_pos above]
    obtain ⟨tier, ⟨l, here⟩, there, raised, slices, ev, e⟩ := changes
    refine ⟨tier, raised, fun i hi other => ?_, ?_, ?_, there, ?_⟩
    · rw [e]
      exact List.mem_append_right _ (List.mem_map.mpr ⟨i, by simp [hi, other], rfl⟩)
    · rw [e]
      simp
    · rw [here]
      rfl
    · rw [e]
      simp [SameExcept]
  case raises =>
    subst hist
    have tier := missReported_tierOf s i c p (c % 4)
    have misses := missReported_misses s i c p
    have queue := missReported_queue s i c p (by omega)
    obtain ⟨l, ev, e⟩ := missReported_rest s i c p
    rw [slotEndOp_missed s i c p sl slot active slice ended miss others below many]
    generalize missReported s i c p = u at *
    have off' : NoTrace (withHist u c { nextHist s c true with slots := [] }) (c % 4) := by
      rw [e]
      exact off
    have room' : Room 1 (withHist u c { nextHist s c true with slots := [] }) := by
      simp only [Room, queue, List.length_append, List.length_singleton]
      omega
    obtain ⟨changed, ⟨l', here⟩, there, raised, slices, ev', e'⟩ := changeTier_changes _ c (tierOf s (c % 4) c + 1) 0 c.isLt off' room'
    refine ⟨changed, ?_, ?_, ?_, ?_, ?_⟩
    · by_cases same : i = c % 4
      · rw [same] at misses ⊢
        rw [here]
        exact misses
      · rw [there i same]
        exact misses
    · rw [raised]
      simp only [queue, List.append_assoc, List.singleton_append]
      rw [← tier]
      rfl
    · rw [e']
      simp
    · rw [e']
      simp [nextHist]
    · rw [e', e]
      simp [SameExcept]
  case taken =>
    have takes := (SliceAs.refl (withTierMsgs s l) slc).setTier c n
    rw [tierMessageOp_head s ⟨slc, c, n, a⟩ l sent]
    obtain ⟨here, there, l', e⟩ := takes
    exact ⟨tierOf_taken c.isLt (congrArg Slice.tiers here), by rw [e], by rw [here]; rfl, there,
      sameExcept_mill (SliceAs.sameExcept ⟨here, there, l', e⟩)⟩
  case late =>
    have reports := ((SliceAs.refl s slc).setSlc { s.slc slc with lateNone := [0, 0, 0] }).raise 5 slc 0x0801
    rw [lateReportOp_reports s slc a b c late some]
    exact (reports _).raise_spec room
  case check =>
    have reports := ((SliceAs.refl s slc).setSlc { s.slc slc with lateCheck := [0, 0, 0] }).raise 5 slc 0x080A
    rw [millCheckRow_eq s slc noCheck, millCheckOp_settled s slc a b c late items settled arriving]
    exact (reports _).raise_spec room
  case aborts =>
    have length : (leBytes 2 1 ++ [0, 0] ++ leBytes 4 (runningFlow s k) ++ leBytes 8 s.now).length = 16 := rfl
    rw [drainTimeout_aborts s k d drain runs k.isLt fresh free due, padTo, length]
    exact ⟨State.core_setCore_self _ _ _, fun j hj => State.core_setCore_ne _ _ _ hj, rfl, by simp [SameExcept]⟩
  case faults =>
    have slice : k.val / 256 = unitSlice k := (if_pos k.isLt).symm
    rw [slice] at items off ⊢
    have running : runningOn s k = some q := by simp [runningOn, items, runs, here]
    rw [abortGraceExpiry_faults s k a abort running free due, coreFault_eq]
    have completes := completeUnit_sole (s := s.setCore k (faulted (s.core k) 0x23)) (k := k) off items runs here alone 0x83
    generalize leBytes 2 k ++ leBytes 1 0x23 ++ [0] ++ leBytes 2 (s.core k).regs.pc ++ leBytes 4 (runningFlow s k) = b
    generalize leBytes 2 k ++ leBytes 4 (runningFlow s k) = b'
    obtain ⟨ev, told, fatal, aborted⟩ := raise_raise (released (s.setCore k (faulted (s.core k) 0x23)) k) room 7 k 0x0701 b 5
      (unitSlice k) 0x0809 b'
    have slices := (completes.raise 7 k 0x0701 b).raise 5 (unitSlice k) 0x0809 b'
    rw [told] at slices
    obtain ⟨slice, others, l, rest⟩ := slices
    rw [rest] at slice others ⊢
    have core := State.core_setCore_self s k (faulted (s.core k) 0x23)
    exact ⟨congrArg Core.restoring core, congrArg Core.faultCause core, fun j hj => State.core_setCore_ne _ _ _ hj, slice,
      mapGet?_mapDel_self _ _, rfl, others, fatal, aborted, by simp [SameExcept]⟩

end Sys2Proof.Machine
end

section
namespace Sys2Proof.Machine

open Sys2Proof.Claims

variable {s t u : State} {m : FabMsg}

/-! ## Arrival and response (R353 to R356, R365) -/

/-- A request has left the packets on their way, and the idle time of its domain has begun again (R540). -/
abbrev atPort (s : State) (m : FabMsg) (idle : SMap Nat) : State :=
  { s with fab := { s.fab with flight := s.fab.flight.erase m }, power := { s.power with idleFrom := idle } }

theorem touchNode_arrive (s : State) (m : FabMsg) (credit : m.noCredit = 0) :
    ∃ idle, touchNode (arrive s m) m.dst = atPort s m idle := by
  rw [arrive_unstalled s m credit]
  unfold touchNode
  split
  case h_1 d _ => exact touchDomain_eq _ d
  case h_2 => exact ⟨s.power.idleFrom, rfl⟩

/-- A response joins the packets on their way, but for one to a posted packet. -/
theorem respond_answers (u : State) (m : FabMsg) (st : Nat) (data : List Byte) (poison : Bool) (old : Nat) (back : m.vc ≠ 3 ∨ st = 1) :
    respond u m st data poison old = inject u (answer m st data poison old) := by
  rw [respond, if_neg (by simp; omega)]
  rfl

/-- A READ or WRITE that carries its row's command stands as it is. -/
theorem asRow_own (m : FabMsg) (row : Nat) (own : m.cmd = row) : asRow row m = m := by
  subst own
  unfold asRow
  split <;> rfl

theorem request_closed (s : State) (m : FabMsg) (d : Nat) (credit : m.noCredit = 0) (closed : nodeClosed s m.dst = some d) :
    ∃ idle, ∀ body, request s m body = atClosed (atPort s m idle) m d := by
  obtain ⟨idle, touched⟩ := touchNode_arrive s m credit
  have closed' : nodeClosed (atPort s m idle) m.dst = some d := closed
  exact ⟨idle, fun body => by rw [request, touched, closed']⟩

section
variable (s : State) (m : FabMsg) (credit : m.noCredit = 0) (opened : nodeClosed s m.dst = none)
include credit opened

/-- At an open port, a request goes on to the checks of its command, address, VC and format. -/
theorem touchNode_open : ∃ idle, touchNode (arrive s m) m.dst = atPort s m idle ∧ nodeClosed (atPort s m idle) m.dst = none := by
  obtain ⟨idle, touched⟩ := touchNode_arrive s m credit
  exact ⟨idle, touched, opened⟩

theorem request_reserved (reserved : cmdReserved m.cmd = true) :
    ∃ idle, ∀ body, request s m body = reservedCommand (atPort s m idle) m := by
  obtain ⟨idle, touched, opened'⟩ := touchNode_open s m credit opened
  refine ⟨idle, fun body => ?_⟩
  rw [request, touched, opened', reserved]
  rfl

theorem request_unmapped (known : cmdReserved m.cmd = false) (target : fabTarget m.addr = .none) :
    ∃ idle, ∀ body, request s m body = deny (atPort s m idle) m 3 := by
  obtain ⟨idle, touched, opened'⟩ := touchNode_open s m credit opened
  refine ⟨idle, fun body => ?_⟩
  rw [request, touched, opened', known, target]
  rfl

theorem request_misshapen (known : cmdReserved m.cmd = false) (vc : vcOk m = true) (named : fabTarget m.addr ≠ .none)
    (noMill : ∀ slc off, fabTarget m.addr ≠ .mill slc off) (shape : shapeOk m = false) :
    ∃ idle, ∀ body, request s m body = deny (atPort s m idle) m 6 := by
  obtain ⟨idle, touched, opened'⟩ := touchNode_open s m credit opened
  refine ⟨idle, fun body => ?_⟩
  rw [request, touched, opened', known, vc, shape]
  generalize fabTarget m.addr = target at *
  cases target
  case none => exact absurd rfl named
  case mill slc off => exact absurd rfl (noMill slc off)
  all_goals rfl

end

/-- A well-formed request reaches what its address names. -/
theorem request_arrives {cmd : Nat} {tgt : Target} (s : State) (m : FabMsg) (h : Arrives s m cmd tgt) (known : cmdReserved cmd = false)
    (named : tgt ≠ .none) : ∃ idle, ∀ body, request s m body = body (atPort s m idle) tgt := by
  obtain ⟨own, credit, opened, vc, shape, target⟩ := h
  obtain ⟨idle, touched, opened'⟩ := touchNode_open s m credit opened
  refine ⟨idle, fun body => ?_⟩
  rw [request, touched, opened', own, known, target, vc, shape]
  cases tgt
  case none => exact absurd rfl named
  all_goals rfl

/-- A request that is answered at its port: what the statements ask of one that changes nothing else. -/
theorem atPort_answered (s : State) (m r : FabMsg) (idle : SMap Nat) :
    Answered s (inject (atPort s m idle) r) m r ∧ OnlyFlight s (inject (atPort s m idle) r) ∧
      OnlyIdleTime s (inject (atPort s m idle) r) ∧ SameExcept [.fab, .power] s (inject (atPort s m idle) r) :=
  ⟨rfl, rfl, rfl, by simp [SameExcept, inject]⟩

theorem vc_of_read (own : m.cmd = 1) (vc : vcOk m = true) : m.vc ≠ 3 := by
  simp only [vcOk, own, Bool.or_eq_true, decide_eq_true_eq] at vc
  omega

theorem read_answerable {tgt : Target} (h : Arrives s m 1 tgt) : m.vc ≠ 3 := by
  obtain ⟨own, -, -, vc, -, -⟩ := h
  exact vc_of_read own vc

theorem atomic_answerable {cmd : Nat} {tgt : Target} (h : Arrives s m cmd tgt) (atomic : cmd = 3 ∨ cmd = 4) : m.vc ≠ 3 := by
  obtain ⟨own, -, -, vc, -, -⟩ := h
  rcases atomic with rfl | rfl <;> simp only [vcOk, own, decide_eq_true_eq] at vc <;> omega

/-! ## Closed ports (R365, R367) -/

theorem atClosed_off (u : State) (m : FabMsg) (d : Nat) (back : m.vc ≠ 3) (stays : wakeHolds u d = false) : atClosed u m d =
    inject { u with fab := { u.fab with offAnswered := mapMod u.fab.offAnswered d 0 (satAdd 32 1) } } (answer m 1 [] false 0) := by
  rw [atClosed, if_pos (by simp [stays]), answerOff, if_neg back, respond_answers _ _ _ _ _ _ (.inr rfl)]

theorem atClosed_held (u : State) (m : FabMsg) (d : Nat) (credit : m.noCredit = 0) (wakes : wakeHolds u d = true)
    (space : (mapGet u.fab.wakeBuf m.dst []).length < 16) : atClosed u m d =
    { u with fab := { u.fab with wakeBuf := mapSet u.fab.wakeBuf m.dst (mapGet u.fab.wakeBuf m.dst [] ++ [m]) } } := by
  have unmarked : { m with noCredit := 0 } = m := by rw [← credit]
  rw [atClosed, if_neg (by simp [wakes])]
  dsimp only
  rw [if_pos space, unmarked]

/-! ## Banks (R370 to R374) -/

/-- Nothing that the banks' words have of themselves changes a bank in a calm access. -/
theorem bankReady_calm (u : State) (node k : Nat) :
    bankMark (bankCorrected (bankWaited u k calm.waited) node k calm.corrected) k calm.bad = u := rfl

theorem bankRead_clean (u : State) (m : FabMsg) (k off : Nat) (clean : badTouched (u.bank (bankKey 0 k)) off m.len = []) :
    bankRead u m 0 k off calm (fun _ b => b) = respond u m 0 (bytesRead 0 (u.core k).dmem off m.len) false 0 := by
  unfold bankRead
  simp only [bankReady_calm, clean, List.zipIdx_map_fst]
  rfl

/-- A bank has met one more word beyond correction. -/
def countUncorrectable (u : State) (k : Nat) : State :=
  u.setBank k { u.bank k with eccUncorrectable := satAdd 32 (u.bank k).eccUncorrectable 1 }

/-- A READ that meets a word beyond correction: the bank counts it and reports it, and the answer is poison (R372, R373). -/
theorem bankRead_bad (u : State) (m : FabMsg) (k off w : Nat) (l : List Nat)
    (bad : badTouched (u.bank (bankKey 0 k)) off m.len = w :: l) :
    bankRead u m 0 k off calm (fun _ b => b) =
      respond (bankEccEvt (countUncorrectable u (bankKey 0 k)) m.dst (bankKey 0 k) 1 w) m 4 (List.replicate m.len 0) true 0 := by
  unfold bankRead
  simp only [bankReady_calm, bad]
  rfl

/-- A bank's record written over with itself reads as before, as does every other. -/
theorem bank_setBank_own (u : State) (k j : Nat) : (u.setBank k (u.bank k)).bank j = u.bank j := by
  by_cases same : j = k
  · rw [same, State.bank_setBank_self]
  · exact State.bank_setBank_ne _ _ _ same

theorem bytesWriteExcept_calm (a : Nat) (bs : List Byte) (mem : Bytes) : bytesWriteExcept mem a bs calm.owner = bytesWrite 0 mem a bs := by
  induction bs generalizing mem a with
  | nil => rfl
  | cons b bs ih => exact ih (a + 1) _

/-- A WRITE of a core's memory that touches no bad word is committed whole (R371). -/
theorem bankWrite_clean (u : State) (m : FabMsg) (k off : Nat) (whole : m.data.length = m.len)
    (clean : badTouched (u.bank (bankKey 0 k)) off m.len = []) :
    bankWrite u m 0 k off calm = respond ((u.setBank (bankKey 0 k) (u.bank (bankKey 0 k))).setCore k
      { u.core k with dmem := bytesWrite 0 (u.core k).dmem off m.data }) m 0 [] false 0 := by
  have ready : bankMark (bankWaited u (bankKey 0 k) calm.waited) (bankKey 0 k) calm.bad = u := rfl
  have data : padTo m.len m.data = m.data := by simp [padTo, whole]
  have kept : (u.bank (bankKey 0 k)).bad.filter (fun w => !([] : List Nat).contains w) = (u.bank (bankKey 0 k)).bad := by simp
  unfold bankWrite
  simp only [ready, badPartial, clean, List.filter_nil, data, kept, bytesWriteExcept_calm]
  rfl

theorem bankAtomic_clean (u : State) (m : FabMsg) (k off : Nat) (f : Nat → Nat)
    (clean : badTouched (u.bank (bankKey 0 k)) off m.len = []) :
    bankAtomic u m 0 k off calm f = respond (u.setCore k { u.core k with
        dmem := bytesWrite 0 (u.core k).dmem off
          (leBytes m.len (f (leNat (bytesRead 0 (u.core k).dmem off m.len)) % 2 ^ (8 * m.len))) })
      m 0 [] false (leNat (bytesRead 0 (u.core k).dmem off m.len)) := by
  unfold bankAtomic
  simp only [bankReady_calm, clean, bytesWriteExcept_calm]
  rfl

theorem bankEccEvt_first (u : State) (node k kind word : Nat) (fresh : mapGet? u.ev.rate (rateKey 0x0B06 k) = none) (room : Room 1 u) :
    ∃ ev, bankEccEvt u node k kind word = { u with ev := ev } ∧ Queued (bankEccEvt u node k kind word) 10 node 0x0B06 :=
  raiseLimited_first u _ _ _ _ _ _ _ fresh room

/-! ## External memory (R380, R392) -/

/-- The use of a cached page reorders its cache. -/
theorem cacheUse_eq (u : State) (p : Nat) : ∃ c c', cacheUse u p = { u with mem := { u.mem with cache0 := c, cache1 := c' } } := by
  unfold cacheUse setCache
  dsimp only
  split
  · split
    · exact ⟨_, u.mem.cache1, rfl⟩
    · exact ⟨u.mem.cache0, _, rfl⟩
  · exact ⟨u.mem.cache0, u.mem.cache1, rfl⟩

section
variable (u : State) (m : FabMsg) (off : Nat) (own : m.cmd = 1) (allowed : memAccess u m false off false = 0)
  (first : u.mem.waits.any (waitFor (pageOf off)) = false)
include own allowed first

theorem memRequest_hit (hit : cacheHit u off m.len = true) (d : Decode) :
    memRequest u m false off d = respond (cacheUse u (pageOf off)) m 0 (bytesRead 0 u.mem.data off m.len) false 0 := by
  have reads : m.cmd ≠ 2 := by omega
  rw [memRequest, first, memServe, if_neg reads, readServe, allowed]
  simp [hit, extBytes]

theorem memRequest_miss (miss : cacheHit u off m.len = false) (d : Decode) : memRequest u m false off d = memWait u m d := by
  have reads : m.cmd ≠ 2 := by omega
  rw [memRequest, first, memServe, if_neg reads, readServe, allowed]
  simp [miss]

end

/-! ## Requests at the targets of the statements (R359, R364, R370) -/

theorem readOp_core {k off : Nat} (h : Arrives s m 1 (.core k off)) (e : BankEcc) :
    ∃ idle, readOp s m e = bankRead (atPort s m idle) m 0 k off e fun _ b => b := by
  obtain ⟨idle, goes⟩ := request_arrives s m h rfl (by simp)
  exact ⟨idle, by rw [readOp, asRow_own m 1 h.1, goes]⟩

theorem readOp_dram {off : Nat} {raw : Bool} (h : Arrives s m 1 (.dram raw off)) (e : BankEcc) :
    ∃ idle, readOp s m e = memRequest (atPort s m idle) m raw off e.evicted := by
  obtain ⟨idle, goes⟩ := request_arrives s m h rfl (by simp)
  exact ⟨idle, by rw [readOp, asRow_own m 1 h.1, goes]⟩

/-- The working half of a Clove bank is its own node's (R303). -/
theorem readOp_workingHalf {n off : Nat} (h : Arrives s m 1 (.clove n off)) (working : off < cloveBankSize n / 2)
    (other : m.src ≠ cloveNode n) (e : BankEcc) : ∃ idle, readOp s m e = deny (atPort s m idle) m 2 := by
  obtain ⟨idle, goes⟩ := request_arrives s m h rfl (by simp)
  exact ⟨idle, by rw [readOp, asRow_own m 1 h.1, goes]; exact if_pos (by simp [workingHalf, working, other])⟩

theorem readOp_host {p a : Nat} (h : Arrives s m 1 (.host p a)) (dma : m.chan < 768) (up : (s.hp p).linkUp = true) (e : BankEcc) :
    ∃ idle, readOp s m e = respond (atPort s m idle) m 0 (bytesRead 0 (s.hp p).mem a m.len) false 0 := by
  obtain ⟨idle, goes⟩ := request_arrives s m h rfl (by simp)
  have up' : ¬(!((atPort s m idle).hp p).linkUp) = true := by
    rw [show ((atPort s m idle).hp p).linkUp = true from up]
    simp
  refine ⟨idle, ?_⟩
  rw [readOp, asRow_own m 1 h.1, goes]
  dsimp only
  rw [hostRead, if_neg (by omega), if_neg up']
  rfl

theorem writeOp_core {k off : Nat} (h : Arrives s m 2 (.core k off)) (e : BankEcc) : ∃ idle, writeOp s m e =
    if m.poison then discardPoison (atPort s m idle) m else bankWrite (atPort s m idle) m 0 k off e := by
  obtain ⟨idle, goes⟩ := request_arrives s m h rfl (by simp)
  exact ⟨idle, by rw [writeOp, asRow_own m 2 h.1, goes]⟩

section
variable {cmd off : Nat}

theorem atomicOp_core {k : Nat} (h : Arrives s m cmd (.core k off)) (known : cmdReserved cmd = false) (e : BankEcc) (f : Nat → Nat) :
    ∃ idle, atomicOp s m e f = bankAtomic (atPort s m idle) m 0 k off e f := by
  obtain ⟨idle, goes⟩ := request_arrives s m h known (by simp)
  exact ⟨idle, by rw [atomicOp, goes]; rfl⟩

theorem atomicOp_dram {raw : Bool} (h : Arrives s m cmd (.dram raw off)) (known : cmdReserved cmd = false) (e : BankEcc) (f : Nat → Nat) :
    ∃ idle, atomicOp s m e f = deny (atPort s m idle) m 6 := by
  obtain ⟨idle, goes⟩ := request_arrives s m h known (by simp)
  exact ⟨idle, by rw [atomicOp, goes]; rfl⟩

theorem atomicOp_mill {slc : Nat} (h : Arrives s m cmd (.mill slc off)) (known : cmdReserved cmd = false) (e : BankEcc) (f : Nat → Nat) :
    ∃ idle, atomicOp s m e f = millBad (atPort s m idle) m slc off := by
  obtain ⟨idle, goes⟩ := request_arrives s m h known (by simp)
  exact ⟨idle, by rw [atomicOp, goes]; rfl⟩

end

/-- The memory of one core, and an answer, are all that a request changed. -/
theorem coreStored_answered (s : State) (m r : FabMsg) (idle : SMap Nat) (k : Nat) (c : Core) :
    Answered s (inject ((atPort s m idle).setCore k c) r) m r ∧ (inject ((atPort s m idle).setCore k c) r).core k = c ∧
      (∀ j, j ≠ k → (inject ((atPort s m idle).setCore k c) r).core j = s.core j) ∧
      OnlyFlight s (inject ((atPort s m idle).setCore k c) r) ∧ OnlyIdleTime s (inject ((atPort s m idle).setCore k c) r) ∧
      SameExcept [.fab, .facet, .power] s (inject ((atPort s m idle).setCore k c) r) :=
  ⟨rfl, State.core_setCore_self _ _ _, fun _ hj => State.core_setCore_ne _ _ _ hj, rfl, rfl, by simp [SameExcept, inject]⟩

/-! ## The obligation -/

/-- Settles O38: a request passes its port and the checks of its header, and one operation of its target answers it. -/
theorem fabricRequests : Obligations.FabricRequests := by
  refine ⟨fun m k off s h clean => ⟨_, rfl, ?read⟩,
    fun m k off w l s h back bad fresh room => ⟨_, rfl, ?readBad⟩,
    fun m u off s h working other => ⟨_, rfl, ?readClove⟩,
    fun m p a s h dma up => ⟨_, rfl, ?readHost⟩,
    fun m off s h allowed first hit => ⟨_, rfl, ?readHit⟩,
    fun m off s h allowed first miss => ⟨_, rfl, ?readMiss⟩,
    fun m k off s h back sound whole clean => ⟨_, rfl, ?write⟩,
    fun m k off e s h back poison room => ⟨_, rfl, ?writePoison⟩,
    fun m k off s h clean => ⟨_, rfl, ?add⟩,
    fun m k off s h clean => ⟨_, rfl, ?swap⟩,
    fun m off raw s h => ⟨_, rfl, ?addDram⟩,
    fun m slc off s h => ⟨_, rfl, ?addMill⟩,
    fun m d e s cmd credit back closed stays => ?off,
    fun m d e s own credit closed wakes space => ⟨_, rfl, ?held⟩,
    fun m e s own credit opened vc target => ⟨_, rfl, ?unmapped⟩,
    fun m e s own credit back opened vc named noMill shape => ⟨_, rfl, ?misshapen⟩,
    fun m e s reserved credit opened => ⟨_, rfl, ?reserved⟩⟩
  case read =>
    obtain ⟨idle, reads⟩ := readOp_core h calm
    rw [reads, bankRead_clean (atPort s m idle) m k off clean, respond_answers _ _ _ _ _ _ (.inl (read_answerable h))]
    exact atPort_answered s m _ idle
  case readBad =>
    obtain ⟨idle, reads⟩ := readOp_core h calm
    rw [reads, bankRead_bad (atPort s m idle) m k off w l bad, respond_answers _ _ _ _ _ _ (.inl back)]
    have key : bankKey 0 k = k := by simp [bankKey]
    rw [← key] at fresh
    obtain ⟨ev, e, told⟩ := bankEccEvt_first (countUncorrectable (atPort s m idle) (bankKey 0 k)) m.dst (bankKey 0 k) 1 w fresh room
    rw [e] at told ⊢
    exact ⟨rfl, congrArg Bank.eccUncorrectable (State.bank_setBank_self (atPort s m idle) _ _),
      fun j hj => State.bank_setBank_ne (atPort s m idle) _ _ hj, told, rfl,
      by simp [SameExcept, inject, countUncorrectable]⟩
  case readClove =>
    obtain ⟨idle, reads⟩ := readOp_workingHalf h working other calm
    rw [reads, deny, respond_answers _ _ _ _ _ _ (.inl (read_answerable h))]
    exact atPort_answered s m _ idle
  case readHost =>
    obtain ⟨idle, reads⟩ := readOp_host h dma up calm
    rw [reads, respond_answers _ _ _ _ _ _ (.inl (read_answerable h))]
    exact atPort_answered s m _ idle
  case readHit =>
    obtain ⟨idle, reads⟩ := readOp_dram h calm
    obtain ⟨c, c', used⟩ := cacheUse_eq (atPort s m idle) (pageOf off)
    rw [reads, memRequest_hit (atPort s m idle) m off h.1 allowed first hit,
      respond_answers _ _ _ _ _ _ (.inl (read_answerable h)), used]
    exact ⟨rfl, rfl, rfl, rfl, rfl, by simp [SameExcept, inject]⟩
  case readMiss =>
    obtain ⟨idle, reads⟩ := readOp_dram h calm
    rw [reads, memRequest_miss (atPort s m idle) m off h.1 allowed first miss]
    exact ⟨rfl, rfl, rfl, by simp [SameExcept, memWait]⟩
  case write =>
    obtain ⟨idle, writes⟩ := writeOp_core h calm
    rw [writes, if_neg (by simp [sound]), bankWrite_clean (atPort s m idle) m k off whole clean,
      respond_answers _ _ _ _ _ _ (.inl back)]
    exact ⟨rfl, State.core_setCore_self _ _ _, fun j hj => State.core_setCore_ne _ _ _ hj,
      ⟨rfl, bank_setBank_own (atPort s m idle) (bankKey 0 k)⟩, rfl, by simp [SameExcept, inject]⟩
  case writePoison =>
    obtain ⟨idle, writes⟩ := writeOp_core h e
    rw [writes, if_pos poison, discardPoison, respond_answers _ _ _ _ _ _ (.inl back), fabEvt,
      raise_joins (inject (atPort s m idle) (answer m 7 [] false 0)) _ _ _ _ room]
    exact ⟨rfl, rfl, rfl, rfl, by simp [SameExcept, inject]⟩
  case add =>
    have own : { m with cmd := 3 } = m := by rw [← h.1]
    obtain ⟨idle, adds⟩ := atomicOp_core h rfl calm fun x => x + m.operand
    rw [atomicAddOp, own, adds, bankAtomic_clean (atPort s m idle) m k off _ clean,
      respond_answers _ _ _ _ _ _ (.inl (atomic_answerable h (.inl rfl)))]
    exact coreStored_answered s m _ idle k _
  case swap =>
    have own : { m with cmd := 4 } = m := by rw [← h.1]
    obtain ⟨idle, swaps⟩ := atomicOp_core h rfl calm fun _ => m.operand
    rw [swapOp, own, swaps, bankAtomic_clean (atPort s m idle) m k off _ clean,
      respond_answers _ _ _ _ _ _ (.inl (atomic_answerable h (.inr rfl)))]
    exact coreStored_answered s m _ idle k _
  case addDram =>
    have own : { m with cmd := 3 } = m := by rw [← h.1]
    obtain ⟨idle, refused⟩ := atomicOp_dram h rfl calm fun x => x + m.operand
    rw [atomicAddOp, own, refused, deny, respond_answers _ _ _ _ _ _ (.inl (atomic_answerable h (.inl rfl)))]
    exact atPort_answered s m _ idle
  case addMill =>
    have own : { m with cmd := 3 } = m := by rw [← h.1]
    obtain ⟨idle, refused⟩ := atomicOp_mill h rfl calm fun x => x + m.operand
    rw [atomicAddOp, own, refused, millBad, deny, respond_answers _ _ _ _ _ _ (.inl (atomic_answerable h (.inl rfl)))]
    obtain ⟨here, there, l, counted⟩ := (SliceAs.refl (atPort s m idle) slc).badAccess
    exact ⟨rfl, here, there, rfl, rfl, by rw [counted]; simp [SameExcept, inject]⟩
  case off =>
    obtain ⟨idle, goes⟩ := request_closed s m d credit closed
    have answers := atClosed_off (atPort s m idle) m d back stays
    have runs : exec (if m.cmd = 1 then .read m e else .write m e) s = .next (atClosed (atPort s m idle) m d) := by
      rcases cmd with own | own
      · rw [if_pos own]
        exact congrArg Host.Outcome.next (by rw [readOp, asRow_own m 1 own, goes])
      · rw [if_neg (by omega)]
        exact congrArg Host.Outcome.next (by rw [writeOp, asRow_own m 2 own, goes])
    rw [answers] at runs
    exact ⟨_, runs, rfl, by simp [inject, mapMod, satAdd, Nat.add_comm], rfl, by simp [SameExcept, inject]⟩
  case held =>
    obtain ⟨idle, goes⟩ := request_closed s m d credit closed
    rw [writeOp, asRow_own m 2 own, goes, atClosed_held (atPort s m idle) m d credit wakes space]
    exact ⟨rfl, rfl, by simp [SameExcept]⟩
  case unmapped =>
    have known : cmdReserved m.cmd = false := by simp [own, cmdReserved]
    obtain ⟨idle, goes⟩ := request_unmapped s m credit opened known target
    rw [readOp, asRow_own m 1 own, goes, deny, respond_answers _ _ _ _ _ _ (.inl (vc_of_read own vc))]
    exact atPort_answered s m _ idle
  case misshapen =>
    have known : cmdReserved m.cmd = false := by simp [own, cmdReserved]
    obtain ⟨idle, goes⟩ := request_misshapen s m credit opened known vc named noMill shape
    rw [writeOp, asRow_own m 2 own, goes, deny, respond_answers _ _ _ _ _ _ (.inl back)]
    exact atPort_answered s m _ idle
  case reserved =>
    have known : cmdReserved m.cmd = true := by simpa [cmdReserved] using reserved
    have stands : asRow 1 m = m := if_pos known
    obtain ⟨idle, goes⟩ := request_reserved s m credit opened known
    rw [readOp, stands, goes, reservedCommand, deny, respond_answers _ _ _ _ _ _ (.inl (by simp))]
    exact ⟨rfl, rfl, rfl, by simp [SameExcept, inject]⟩

end Sys2Proof.Machine
end

section
namespace Sys2Proof.Machine

open Sys2Proof.Claims

variable {s t : State} {u q a n k off : Nat} {it : Item} {r d inp bs : List Byte} {j : CloveJob}

/-! ## Reads and writes of a Clove job (R304, R329, R374) -/

/-- A read that is answered, with nothing to correct, leaves no count in its bank. -/
theorem readCounts_answered (h : (jobRead s u a n).isSome = true) : readCounts s u a n [] = s := by
  unfold jobRead at h
  unfold readCounts
  split at h <;> rename_i place <;> simp only [place]
  case h_1 k off | h_2 k off =>
    split at h
    case isTrue clean =>
      simp only [Bool.and_eq_true, List.isEmpty_iff] at clean
      simp only [bankCorrected, List.foldl_nil, clean.1]
    case isFalse => exact absurd h (by simp)

/-- The state with bytes written into a core's memory. -/
abbrev coreStored (s : State) (k off : Nat) (bs : List Byte) : State :=
  s.setCore k { s.core k with dmem := bytesWrite 0 (s.core k).dmem off bs }

theorem coreStored_twice_core (s : State) (k off off' : Nat) (bs bs' : List Byte) :
    (coreStored (coreStored s k off bs) k off' bs').core k =
      { s.core k with dmem := bytesWrite 0 (bytesWrite 0 (s.core k).dmem off bs) off' bs' } := by
  simp [coreStored]

/-- A range's place does not depend on what a core's memory holds. -/
theorem jobPlace_coreStored (s : State) (k off : Nat) (bs : List Byte) (u a n : Nat) :
    jobPlace (coreStored s k off bs) u a n = jobPlace s u a n := rfl

/-- A write into a core's memory that touches no bad word is answered, and changes that memory alone. -/
theorem jobWrite_core (place : jobPlace s u a bs.length = .core k off) (on : s.domainOn (k / 16) = true)
    (clean : badTouched (s.bank (bankKey 0 k)) off bs.length = []) :
    jobWrite s u a bs = (coreStored s k off bs, true) := by
  unfold jobWrite
  simp only [place, on, if_true, bankPut, badPartial, clean, List.filter_nil, List.isEmpty_nil]
  rfl

/-- A range's place does not depend on the units' own state. -/
theorem jobPlace_clove (s : State) (c : CloveSt) (u a n : Nat) : jobPlace { s with clove := c } u a n = jobPlace s u a n := rfl

/-- The state with no job waiting for a datapath. -/
abbrev unqueued (s : State) : State := { s with clove := { s.clove with queued := [] } }

theorem jobRead_unqueued (s : State) (u a n : Nat) : jobRead (unqueued s) u a n = jobRead s u a n := rfl

/-! ## Records that pass their checks (R305 to R308) -/

theorem resultOk_clove (s : State) (c : CloveSt) (u : Nat) (r : List Byte) :
    resultOk { s with clove := c } u r = resultOk s u r := by
  unfold resultOk
  generalize jResult r = a
  rfl

theorem sbOk_clove (s : State) (c : CloveSt) (r : List Byte) : sbOk { s with clove := c } r = sbOk s r := by
  unfold sbOk
  generalize jSb r = a
  rfl

/-- Whether a record passes does not depend on the units' own state. -/
theorem passes_clove (c : CloveSt) (h : Passes s u r) : Passes { s with clove := c } u r := by
  simpa only [Passes, resultOk_clove, sbOk_clove, jobPlace_clove] using h

theorem recordCheck_passes (h : Passes s u r) : recordCheck s u r = 0 := by
  obtain ⟨runs, fields, result, soft, input, output⟩ := h
  simp [recordCheck, runs, fields, result, soft, input, output]

/-- A job whose aligned record passes its checks and whose reads meet no error begins as its type begins. -/
theorem startJob_clean {c : JobCaps} (aligned : rd d 0 8 % 64 = 0) (placed : jobPlace s u (rd d 0 8) 64 ≠ .bad)
    (record : jobRead s u (rd d 0 8) 64 = some r) (passes : Passes s u r) (input : jobRead s u (jIn r) (jInLen r) = some inp) :
    startJob s u (unitSlice (cloveKey u)) q d c cleanIn = startChecked s u (jobOf c u q d r) inp false := by
  have uncounted : readCounts s u (rd d 0 8) 64 [] = s := readCounts_answered (by simp [record])
  have uncounted' : readCounts s u (jIn r) (jInLen r) [] = s := readCounts_answered (by simp [input])
  simp [startJob, startRecord, cleanIn, jobOf, aligned, placed, record, uncounted, uncounted', recordCheck_passes passes, input,
    bankCorrected]

/-! ## The datapaths of a unit (R320, R321) -/

/-- A turbo unit's datapaths are the even and the odd key of the unit. -/
theorem pathKey_turbo (turbo : 112 ≤ u) (enc : Bool) : pathKey u enc = 2 * u + if enc then 1 else 0 := by
  simp [pathKey, b2n, turbo]

theorem cloveTarget_turbo (turbo : 112 ≤ u) : cloveTarget u = 4 := by
  rw [cloveTarget, cloveKey, unitTarget, if_neg (by omega), if_neg (by omega), if_neg (by omega), if_neg (by omega)]

/-- One codeblock takes every coded bit that divides evenly over layers and modulation. -/
theorem shareOf_one (g nl qm : Nat) : shareOf g nl qm 1 0 = nl * qm * (g / (nl * qm)) := by
  simp [shareOf, Nat.mod_one]

/-- A turbo encoding of one codeblock of `k` bits, `f` of them filler, that begins at `now` (R320, R322). -/
def turboEncoded (now k f : Nat) (j : CloveJob) (inp : List Byte) : CloveJob :=
  let r := j.rec_
  let e := rd r 41 1 * rd r 40 1 * (rd r 52 4 / (rd r 41 1 * rd r 40 1))
  let cb := List.replicate f false ++ (withCrc 2 (bitsFrom inp (rd r 48 4))).take (k - f)
  { j with
    outs := [(jOut r, packBits ((turboCoded k f cb e (turboBuffer k) (rd r 42 2)).take (rd r 52 4)))]
    bits := rd r 52 4, until_ := now + fabCycles (ceilDiv k 24) }

theorem startTurboEncode_one {f : Nat} (one : turboSegments (withCrc 2 (bitsFrom inp (rd j.rec_ 48 4))).length = ([k], f)) :
    startTurboEncode s j inp = (s, turboEncoded s.now k f j inp) := by
  simp [startTurboEncode, turboEncoded, one, shareOf_one]

/-- A turbo encoding takes the unit's encode datapath (R321). -/
theorem startChecked_turboEncode {f : Nat} {softBad : Bool} (type : jTy j.rec_ = 6)
    (one : turboSegments (withCrc 2 (bitsFrom inp (rd j.rec_ 48 4))).length = ([k], f)) :
    startChecked s u j inp softBad =
      { s with clove := { s.clove with jobs := mapSet s.clove.jobs (pathKey u true) (turboEncoded s.now k f j inp) } } := by
  simp [startChecked, startType, type, startTurboEncode_one one]

/-- A job for a busy datapath of the unit waits there, under the parameters in force at its delivery (R321, R331). -/
theorem receiveJob_waits {ty : Nat} {e : CloveIn} (delivered : mapGet? s.mill.deliveries (cloveKey u) = some d)
    (item : deliveredItem s u = some q) (type : deliveredType s u d = ty) (runs : classRuns (cloveTarget u) ty = true)
    (busy : (mapGet? s.clove.jobs (pathKey u (ty = 6))).isSome = true) :
    receiveJob s u ty e = { s with
      mill := { s.mill with deliveries := mapDel s.mill.deliveries (cloveKey u) }
      clove := { s.clove with queued := s.clove.queued ++ [{
        key := pathKey u (ty = 6), slc := unitSlice (cloveKey u), item := q, desc := d, caps := s.jobCaps }] } } := by
  simp [receiveJob, delivered, item, type, runs, busy]

theorem turboDatapathFree_idle {enc : Bool} {e : CloveIn}
    (h : u < 112 ∨ (mapGet? s.clove.jobs (2 * u + if enc then 1 else 0)).isSome = true ∨ s.clove.queued = []) :
    turboDatapathFree s u enc e = s := by
  unfold turboDatapathFree
  by_cases turbo : u < 112
  case pos => simp [turbo]
  case neg =>
    rcases h with few | busy | empty
    · exact absurd few turbo
    · simp [pathKey_turbo (Nat.not_lt.mp turbo), busy]
    · simp [empty]

/-- The one job that waits for a datapath begins on it once that is free (R321). -/
theorem turboDatapathFree_begins {enc : Bool} {c : JobCaps} (turbo : 112 ≤ u)
    (free : mapGet? s.clove.jobs (pathKey u enc) = none)
    (waits : s.clove.queued = [{ key := pathKey u enc, slc := unitSlice (cloveKey u), item := q, desc := d, caps := c }])
    (aligned : rd d 0 8 % 64 = 0) (placed : jobPlace s u (rd d 0 8) 64 ≠ .bad) (record : jobRead s u (rd d 0 8) 64 = some r)
    (passes : Passes s u r) (input : jobRead s u (jIn r) (jInLen r) = some inp) :
    turboDatapathFree s u enc cleanIn = startChecked (unqueued s) u (jobOf c u q d r) inp false := by
  have leaves : turboDatapathFree s u enc cleanIn = startJob (unqueued s) u (unitSlice (cloveKey u)) q d c cleanIn := by
    simp [turboDatapathFree, Nat.not_lt.mpr turbo, free, waits]
  rw [← jobPlace_clove s { s.clove with queued := [] }] at placed
  rw [← jobRead_unqueued] at record input
  rw [leaves, startJob_clean aligned placed record (passes_clove _ passes) input]

/-! ## The end of a job (R270, R308, R310, R311) -/

/-- The sole item of a unit's slice completes with the unit's job, and no drain waits for it. -/
theorem cloveEnd_sole (sole : SoleItem s u q it) (st : Nat) :
    SliceAs s (unitSlice (cloveKey u)) { s.slc (unitSlice (cloveKey u)) with items := [] }
      (cloveEnd s u (unitSlice (cloveKey u)) q st) := by
  obtain ⟨items, alone, off, inService⟩ := sole
  have item : mapGet? (s.slc (unitSlice (cloveKey u))).items q = some it := by simp [items, mapGet?]
  have completes := (SliceAs.refl s (unitSlice (cloveKey u))).completeItem off item alone st
  have undrained : drained (completeItem s (unitSlice (cloveKey u)) q st) (cloveKey u) = false := by
    obtain ⟨l, e⟩ := completes.rest
    simp [e, drained, inService]
  rw [cloveEnd, drainHook, undrained]
  simpa [items, mapDel] using completes

/-- The report of a job that failed (R329). -/
def errorDetail (u detail : Nat) (d : List Byte) : List Byte :=
  leBytes 1 (cloveTarget u) ++ leBytes 1 (cloveNumber u) ++ leBytes 1 detail ++ leBytes 1 1 ++ leBytes 4 (dFlow d) ++
    leBytes 2 (dCarrier d)

/-- The state once the arbiter holds the report of a failed job. -/
abbrev jobReported (s : State) (u detail : Nat) (d : List Byte) : State :=
  { s with ev := { s.ev with
    queue := s.ev.queue ++ [{ cls := 6, inst := u, code := 0x0901, sev := 3, detail := errorDetail u detail d }]
    rate := mapSet s.ev.rate (rateKey 0x0901 u) (s.now, 0) } }

/-- The first failed job of a unit is reported, and nothing but the arbiter changes. -/
theorem jobError_first (s : State) (u detail : Nat) (d : List Byte) (first : mapGet? s.ev.rate (rateKey 0x0901 u) = none)
    (room : Room 1 s) : jobError s u detail d = jobReported s u detail d := by
  simp only [jobError, raiseLimited, first, if_true, raise_joins s _ _ _ _ room]
  rfl

/-- The state once a job has left its datapath. -/
abbrev jobGone (s : State) (key : Nat) : State := { s with clove := { s.clove with jobs := mapDel s.clove.jobs key } }

section
variable {enc bankBad writeBad : Bool}

theorem cloveJobCompletion_free (free : mapGet? s.clove.jobs (pathKey u enc) = none) :
    cloveJobCompletion s u enc bankBad writeBad = s := by
  simp [cloveJobCompletion, free]

theorem cloveJobCompletion_early (runs : mapGet? s.clove.jobs (pathKey u enc) = some j) (early : reached s.now j.until_ = false) :
    cloveJobCompletion s u enc bankBad writeBad = s := by
  simp [cloveJobCompletion, runs, early]

/-- A job whose bank failed fails with detail 7 (R308). -/
theorem cloveJobCompletion_bankBad (runs : mapGet? s.clove.jobs (pathKey u enc) = some j) (due : reached s.now j.until_ = true) :
    cloveJobCompletion s u enc true writeBad = jobFail (jobGone s (pathKey u enc)) u 7 j := by
  simp [cloveJobCompletion, runs, due]

end

/-- A job whose result record has no place writes nothing when it fails: it is reported, and its item completes (R308). -/
theorem jobFail_placeless (detail : Nat) (noResult : resultOk s u j.rec_ = false) (slice : j.slc = unitSlice (cloveKey u))
    (sole : SoleItem s u j.item it) (first : mapGet? s.ev.rate (rateKey 0x0901 u) = none) (room : Room 1 s) :
    SliceAs (jobReported s u detail j.desc) (unitSlice (cloveKey u)) { s.slc (unitSlice (cloveKey u)) with items := [] }
      (jobFail s u detail j) := by
  have unwritten : jobFail s u detail j = cloveEnd (jobError s u detail j.desc) u j.slc j.item 2 := by
    simp [jobFail, putResult, noResult]
  rw [unwritten, jobError_first s u detail j.desc first room, slice]
  exact cloveEnd_sole (s := jobReported s u detail j.desc) sole 2

theorem resultRecord_length (s : State) (j : CloveJob) (st detail : Nat) : (resultRecord s j st detail).length = 32 := rfl

/-- The result record of a job is written into a core's memory (R311). -/
theorem putResult_core {st detail : Nat} (aligned : jResult j.rec_ % 32 = 0)
    (place : jobPlace s u (jResult j.rec_) 32 = .core k off) (on : s.domainOn (k / 16) = true)
    (clean : badTouched (s.bank (bankKey 0 k)) off 32 = []) :
    putResult s u j st detail = coreStored s k off (resultRecord s j st detail) := by
  have placed : resultOk s u j.rec_ = true := by simp [resultOk, aligned, place]
  rw [← resultRecord_length s j st detail] at place clean
  rw [putResult, placed, jobWrite_core place on clean]
  rfl

/-- The status of a job that ended: 0, or 1 where a cap, a forced format or a lost soft buffer is flagged (R311). -/
abbrev endStatus (j : CloveJob) : Nat := if j.flags / 2 % 16 = 0 then 0 else 1

/-- The result record of a job without a soft buffer that ended (R311). -/
theorem resultRecord_ended (s : State) (st : Nat) (noSoft : j.sb = .none) : resultRecord s j st 0 =
    leBytes 1 st ++ leBytes 1 0 ++ leBytes 1 j.crc ++ leBytes 1 j.iters ++ leBytes 1 j.flags ++ leBytes 1 255 ++
      leBytes 2 j.reason ++ leBytes 4 j.extent ++ leBytes 4 j.sats ++ leBytes 8 s.now ++ leBytes 4 j.bits ++ leBytes 4 j.cbs := by
  simp [resultRecord, noSoft]

/-- A job without a soft buffer whose one output is written ends with its result record and its item (R310, R311). -/
theorem cloveJobCompletion_written {enc : Bool} (runs : mapGet? s.clove.jobs (pathKey u enc) = some j)
    (due : reached s.now j.until_ = true) (output : j.outs = [(a, bs)]) (noSoft : j.sb = .none)
    (written : jobWrite (jobGone s (pathKey u enc)) u a bs = (t, true)) :
    cloveJobCompletion s u enc false false = cloveEnd (putResult t u j (endStatus j) 0) u j.slc j.item (endStatus j) := by
  have status : b2n (decide (j.flags / 2 % 16 ≠ 0)) = endStatus j := by
    by_cases zero : j.flags / 2 % 16 = 0 <;> simp [b2n, endStatus, zero]
  unfold cloveJobCompletion
  simp only [runs, due, output, noSoft, jobWrites, List.foldl_cons, List.foldl_nil, written, sbApply, status]
  simp

/-- The state once a job has written its output and then its result record into a core's memory. -/
abbrev jobWritten (s : State) (key k off off' : Nat) (bs : List Byte) (j : CloveJob) : State :=
  coreStored (coreStored (jobGone s key) k off bs) k off' (resultRecord s j (endStatus j) 0)

/-- A job ends with its output in a core's memory, its result record behind it, and its item (R310). -/
theorem cloveJobCompletion_core {enc : Bool} {off' : Nat} (runs : mapGet? s.clove.jobs (pathKey u enc) = some j)
    (due : reached s.now j.until_ = true) (output : j.outs = [(a, bs)]) (noSoft : j.sb = .none)
    (place : jobPlace s u a bs.length = .core k off) (place' : jobPlace s u (jResult j.rec_) 32 = .core k off')
    (aligned : jResult j.rec_ % 32 = 0) (clean : badTouched (s.bank (bankKey 0 k)) off bs.length = [])
    (clean' : badTouched (s.bank (bankKey 0 k)) off' 32 = []) (on : s.domainOn (k / 16) = true) :
    cloveJobCompletion s u enc false false =
      cloveEnd (jobWritten s (pathKey u enc) k off off' bs j) u j.slc j.item (endStatus j) := by
  have writes := jobWrite_core (s := jobGone s (pathKey u enc)) place on clean
  rw [← jobPlace_clove s (jobGone s (pathKey u enc)).clove, ← jobPlace_coreStored _ k off bs] at place'
  rw [cloveJobCompletion_written runs due output noSoft writes, putResult_core aligned place' on clean']
  rfl

/-! ## The obligation -/

/-- Settles O37: a turbo unit's second datapath takes the job that waits for it, and a job's end is its writes, its report, or
neither while it cannot have ended. -/
theorem cloveJobsEnd : Obligations.CloveJobsEnd := by
  refine ⟨fun u q d r e s delivered item turbo record type busy => ⟨_, rfl, ?waits⟩,
    fun u enc e s h => congrArg Host.Outcome.next (turboDatapathFree_idle h),
    fun u q k f c d r inp s turbo free queue aligned placed record type passes input one => ⟨_, rfl, ?starts⟩,
    fun u enc bankBad writeBad s free => congrArg Host.Outcome.next (cloveJobCompletion_free free),
    fun u enc bankBad writeBad j s runs early => congrArg Host.Outcome.next (cloveJobCompletion_early runs early),
    fun u enc j a k off off' bs it s runs due output noSoft place place' aligned clean clean' on slice sole => ⟨_, rfl, ?ends⟩,
    fun u enc writeBad j it s runs due noResult slice sole first room => ⟨_, rfl, ?fails⟩⟩
  case waits =>
    have key : pathKey u true = 2 * u + 1 := pathKey_turbo turbo true
    have runs : classRuns (cloveTarget u) 6 = true := by rw [cloveTarget_turbo turbo]; rfl
    have named : deliveredType s u d = 6 := by simp [deliveredType, record, type]
    rw [← key] at busy ⊢
    rw [receiveJob_waits delivered item named runs busy]
    exact ⟨rfl, rfl, by simp [SameExcept]⟩
  case starts =>
    have key : pathKey u true = 2 * u + 1 := pathKey_turbo turbo true
    rw [← key] at free queue ⊢
    rw [turboDatapathFree_begins turbo free queue aligned placed record passes input,
      startChecked_turboEncode (j := jobOf c u q d r) type one]
    exact ⟨rfl, by simp [SameExcept]⟩
  case ends =>
    obtain ⟨here, there, l, e⟩ :=
      cloveEnd_sole (s := jobWritten s (pathKey u enc) k off off' bs j) (u := u) sole (endStatus j)
    rw [cloveJobCompletion_core runs due output noSoft place place' aligned clean clean' on, slice]
    refine ⟨?_, fun i hi => ?_, ?_, congrArg Slice.items here, there, ?_⟩ <;> rw [e]
    · rw [← resultRecord_ended s (endStatus j) noSoft]
      exact coreStored_twice_core _ _ _ _ _ _
    · exact (State.core_setCore_ne _ _ _ hi).trans (State.core_setCore_ne _ _ _ hi)
    · rfl
    · simp [SameExcept]
  case fails =>
    have noResult' : resultOk (jobGone s (pathKey u enc)) u j.rec_ = false := (resultOk_clove _ _ _ _).trans noResult
    rw [cloveJobCompletion_bankBad runs due]
    obtain ⟨here, there, l, e⟩ := jobFail_placeless (s := jobGone s (pathKey u enc)) 7 noResult' slice sole first room
    exact ⟨by rw [e], congrArg Slice.items here, by rw [e]; rfl, there, by rw [e]; simp [SameExcept]⟩

end Sys2Proof.Machine
end

section
namespace Sys2Proof.Machine

open Sys2Proof.Claims

/-! ## The end of a noise window (R337, R338) -/

/-- A context's noise once window `w` of its carrier has ended: the record made anew, and new sums. -/
def windowNoise (s : State) (c w p : Nat) (n : Noise) : Noise :=
  let first : Int := ((w * s.paramPort p 0x0A03 c : Nat) : Int)
  let lag : Int := (s.paramPort p 0x0611 c : Int)
  let ends : Int := (fhTime s p c).slotSym (((w + 1) * s.paramPort p 0x0A03 c : Nat) : Int) 0
  { record := some (noiseRecord w (n.forWindow first)
      ((n.forWindow first).gainAt.any fun a =>
        decide ((fhTime s p c).slotSym first 0 + lag ≤ (a : Int)) && decide ((a : Int) < ends + lag))
      (s.cfh c).partialWin)
    madeAt := s.now
    gainAt := (n.forWindow first).gainAt.filter fun a => decide (ends + lag ≤ (a : Int)) }

theorem noiseRecord_window (w : Nat) (n : Noise) (gain part : Bool) : (noiseRecord w n gain part).take 4 = leBytes 4 w := by
  unfold noiseRecord
  dsimp only
  split <;> simp [leBytes]

/-- The carrier has dealt with the end of the window before slot `last`. -/
def noiseEnded (s : State) (c : Nat) (last : Int) : State :=
  modCfh s c fun x => { x with
    lastNoise := some last, partialWin := false, idle := x.idle.filter fun i => decide (last ≤ i.1) }

/-- A window that is due renews the noise of each of the carrier's antennas. -/
theorem noiseWindowEnd_due {s : State} {c w p : Nat} (serves : Serves s p c) (slots : s.paramPort p 0x0A03 c ≠ 0)
    (fresh : above (s.cfh c).lastNoise (((w + 1) * s.paramPort p 0x0A03 c : Nat) : Int) = true)
    (since : ((s.cfh c).activeFrom : Int) < (fhTime s p c).slotSym (((w + 1) * s.paramPort p 0x0A03 c : Nat) : Int) 0)
    (passed : (fhTime s p c).slotSym (((w + 1) * s.paramPort p 0x0A03 c : Nat) : Int) 0 + s.paramPort p 0x0611 c ≤
      s.localNow 0 p) :
    noiseWindowEnd s c w = (antennas s p c).foldl (fun z x => { z with ports := { z.ports with
        noise := mapSet z.ports.noise x (windowNoise s c w p (mapGet z.ports.noise x {})) } })
      (noiseEnded s c (((w + 1) * s.paramPort p 0x0A03 c : Nat) : Int)) := by
  obtain ⟨port, active⟩ := serves
  unfold noiseWindowEnd
  simp only [port]
  rw [if_neg (by simpa [active, slots, and_assoc] using ⟨fresh, since, passed⟩)]
  rfl

/-- What renewing the noise of the contexts of `l` by `f` changes. -/
structure RenewsNoise (f : Noise → Noise) (l : List Nat) (s t : State) : Prop where
  only : ∃ noise, t = { s with ports := { s.ports with noise := noise } }
  listed : ∀ x ∈ l, ∃ n, mapGet t.ports.noise x {} = f n
  others : ∀ x, x ∉ l → mapGet t.ports.noise x {} = mapGet s.ports.noise x {}

theorem RenewsNoise.cfh {f : Noise → Noise} {l : List Nat} {s t : State} (h : RenewsNoise f l s t) (j : Nat) :
    t.cfh j = s.cfh j := by
  obtain ⟨noise, rfl⟩ := h.only
  rfl

theorem renewsNoise_foldl (f : Noise → Noise) (l : List Nat) (s : State) :
    RenewsNoise f l s (l.foldl (fun z x => { z with ports := { z.ports with
      noise := mapSet z.ports.noise x (f (mapGet z.ports.noise x {})) } }) s) := by
  induction l generalizing s with
  | nil => exact ⟨⟨_, rfl⟩, by simp, fun _ _ => rfl⟩
  | cons a l ih =>
    obtain ⟨⟨noise, only⟩, listed, others⟩ := ih { s with ports := { s.ports with
      noise := mapSet s.ports.noise a (f (mapGet s.ports.noise a {})) } }
    refine ⟨⟨noise, only⟩, fun x hx => ?_, fun x hx => ?_⟩
    · by_cases tail : x ∈ l
      · exact listed x tail
      · obtain rfl : x = a := (List.mem_cons.mp hx).resolve_right tail
        exact ⟨_, (others x tail).trans (mapGet_mapSet_self _ _ _ _)⟩
    · obtain ⟨ne, tail⟩ := not_or.mp (List.mem_cons.not.mp hx)
      exact (others x tail).trans (mapGet_mapSet_ne _ _ _ ne)

theorem noiseWindowEnd_renews (c : CarrierId) (w p : Nat) (s : State) (serves : Serves s p c) (slots : s.paramPort p 0x0A03 c ≠ 0)
    (fresh : above (s.cfh c).lastNoise (((w + 1) * s.paramPort p 0x0A03 c : Nat) : Int) = true)
    (since : ((s.cfh c).activeFrom : Int) < (fhTime s p c).slotSym (((w + 1) * s.paramPort p 0x0A03 c : Nat) : Int) 0)
    (passed : (fhTime s p c).slotSym (((w + 1) * s.paramPort p 0x0A03 c : Nat) : Int) 0 + s.paramPort p 0x0611 c ≤
      s.localNow 0 p) :
    Does (.noiseWindowEnd c w) s fun t =>
      (t.cfh c).lastNoise = some (((w + 1) * s.paramPort p 0x0A03 c : Nat) : Int) ∧ (t.cfh c).partialWin = false ∧
      (∀ x ∈ antennas s p c, (mapGet t.ports.noise x {}).sum = 0 ∧ (mapGet t.ports.noise x {}).count = 0 ∧
        (mapGet t.ports.noise x {}).madeAt = s.now ∧ ∃ r, (mapGet t.ports.noise x {}).record = some r ∧ r.take 4 = leBytes 4 w) ∧
      (∀ x, x ∉ antennas s p c → mapGet t.ports.noise x {} = mapGet s.ports.noise x {}) ∧
      OtherCarriers s t c ∧ t.ports.ports = s.ports.ports ∧ SameExcept [.ports] s t := by
  refine ⟨_, congrArg Host.Outcome.next (noiseWindowEnd_due serves slots fresh since passed), ?_⟩
  generalize (((w + 1) * s.paramPort p 0x0A03 c : Nat) : Int) = last
  have renews := renewsNoise_foldl (windowNoise s c w p) (antennas s p c) (noiseEnded s c last)
  generalize (antennas s p c).foldl _ _ = t at renews ⊢
  have here : t.cfh c = { s.cfh c with
      lastNoise := some last, partialWin := false, idle := (s.cfh c).idle.filter fun i => decide (last ≤ i.1) } :=
    (renews.cfh c).trans (modCfh_cfh_self s c _)
  refine ⟨congrArg CarrierFh.lastNoise here, congrArg CarrierFh.partialWin here, fun x hx => ?_, renews.others,
    fun j hj => (renews.cfh j).trans (modCfh_cfh_ne s _ hj), ?_, ?_⟩
  · obtain ⟨n, hn⟩ := renews.listed x hx
    rw [hn]
    exact ⟨rfl, rfl, rfl, _, rfl, noiseRecord_window _ _ _ _⟩
  · obtain ⟨noise, rfl⟩ := renews.only
    rfl
  · obtain ⟨noise, rfl⟩ := renews.only
    simp [SameExcept, noiseEnded, modCfh]

/-! ## PRACH occasions (R341, R344, R345) -/

/-- The state with an engine's queue of occasions replaced. -/
def State.setPrachQueue (s : State) (p : Nat) (l : List Occasion) : State :=
  { s with ports := { s.ports with prachQueue := mapSet s.ports.prachQueue p l } }

theorem State.prachQueue_setPrachQueue (s : State) (p : Nat) (l : List Occasion) :
    mapGet (s.setPrachQueue p l).ports.prachQueue p [] = l :=
  mapGet_mapSet_self _ _ _ _

/-- An occasion that closes joins the queue of its engine while that has room (R341). -/
theorem prachOccasionClose_queues (c : CarrierId) (g : Fin 16) (q p : Nat) (o : Occasion) (s : State) (serves : Serves s p c)
    (due : ((s.cfh c).prachIn.find? fun e => e.group = g.val && e.slot = (q : Int) &&
        decide ((fhTime s p c).slotSym e.slot (e.start + e.num) + s.paramPort p 0x0611 c ≤ s.localNow 0 p)) = some o)
    (space : (mapGet s.ports.prachQueue p []).length < 32) :
    Does (.prachOccasionClose c g q) s fun t => (t.cfh c).prachIn = (s.cfh c).prachIn.erase o ∧
      (∃ o', mapGet t.ports.prachQueue p [] = mapGet s.ports.prachQueue p [] ++ [o'] ∧ o'.closed = s.now ∧ o'.carrier = o.carrier ∧
        o'.group = o.group ∧ o'.slot = o.slot ∧ o'.input = o.input ∧ o'.thr = s.paramPort p 0x0A08 (c * 16 + g)) ∧
      OtherCarriers s t c ∧ t.ports.ports = s.ports.ports ∧ SameExcept [.ports] s t := by
  obtain ⟨port, active⟩ := serves
  let gone := modCfh s c fun x => { x with prachIn := x.prachIn.erase o }
  have here : gone.cfh c = { s.cfh c with prachIn := (s.cfh c).prachIn.erase o } := modCfh_cfh_self s c _
  have others (j : Nat) (hj : j ≠ c) : gone.cfh j = s.cfh j := modCfh_cfh_ne s _ hj
  obtain ⟨o', closes, closed, same⟩ : ∃ o' : Occasion,
      prachOccasionClose s c g q = gone.setPrachQueue p (mapGet s.ports.prachQueue p [] ++ [o']) ∧
      o'.closed = s.now ∧ o'.carrier = o.carrier ∧ o'.group = o.group ∧ o'.slot = o.slot ∧ o'.input = o.input ∧
      o'.thr = s.paramPort p 0x0A08 (c * 16 + g) := by
    unfold prachOccasionClose
    simp only [port, due]
    rw [if_neg (by simp [active]), if_neg (Nat.not_le.mpr space)]
    exact ⟨_, rfl, rfl, rfl, rfl, rfl, rfl, rfl⟩
  refine ⟨_, congrArg Host.Outcome.next closes, congrArg CarrierFh.prachIn here,
    ⟨o', State.prachQueue_setPrachQueue _ _ _, closed, same⟩, others, rfl, ?_⟩
  simp [SameExcept, State.setPrachQueue, gone, modCfh]

/-- A carrier with one more occasion of `st` counted, and `n` more detections (R345). -/
def occasionCounted (y : CarrierFh) (st n : Nat) : CarrierFh :=
  { y with occasions := satAdd 32 y.occasions 1, detections := satAdd 32 y.detections n
           overloads := satAdd 32 y.overloads (b2n (st = 2)) }

/-- Without a report ring an occasion is counted and no more. -/
theorem prachReport_counts (s : State) (p : Nat) (o : Occasion) (st used : Nat) (ds : List Detection) (floor_ : Nat)
    (noRing : s.paramPort p 0x0A0B o.carrier = 0) :
    prachReport s p o st used ds floor_ = s.setCfh o.carrier (occasionCounted (s.cfh o.carrier) st ds.length) :=
  if_pos noRing

/-- An occasion not started in time is counted as an overload and reported (R344). -/
theorem prachStartTimeout_overloads (p : PortId) (o : Occasion) (rest : List Occasion) (s : State)
    (queue : mapGet s.ports.prachQueue p [] = o :: rest) (late : o.closed + 1966080 < s.now)
    (noRing : s.paramPort p 0x0A0B o.carrier = 0) (room : Room 1 s) :
    Does (.prachStartTimeout p) s fun t => mapGet t.ports.prachQueue p [] = rest ∧
      (t.cfh o.carrier).overloads = min ((s.cfh o.carrier).overloads + 1) (2 ^ 32 - 1) ∧
      (t.cfh o.carrier).occasions = min ((s.cfh o.carrier).occasions + 1) (2 ^ 32 - 1) ∧
      (t.cfh o.carrier).detections = min (s.cfh o.carrier).detections (2 ^ 32 - 1) ∧ Queued t 2 p 0x0A02 ∧
      OtherCarriers s t o.carrier ∧ SameExcept [.ports, .ev, .free] s t := by
  have expired : prachExpired s o = true := decide_eq_true late
  let taken := (s.setPrachQueue p rest).fresh.2
  let counted := taken.setCfh o.carrier (occasionCounted (s.cfh o.carrier) 2 0)
  have overloads : prachStartTimeout s p =
      portEvt counted p 0x0A02 (leBytes 1 p ++ leBytes 1 o.group ++ leBytes 2 o.carrier ++ leBytes 2 1) := by
    unfold prachStartTimeout
    simp only [queue]
    rw [if_pos expired, prachOverload]
    exact congrArg (portEvt · _ _ _) (prachReport_counts taken p o 2 0 [] _ noRing)
  have here : counted.cfh o.carrier = occasionCounted (s.cfh o.carrier) 2 0 := State.cfh_setCfh_self _ _ _
  have others (j : Nat) (hj : j ≠ o.carrier) : counted.cfh j = s.cfh j := State.cfh_setCfh_ne taken _ _ hj
  have raised := raise_joins counted 2 p 0x0A02 (leBytes 1 p ++ leBytes 1 o.group ++ leBytes 2 o.carrier ++ leBytes 2 1) room
  refine ⟨_, congrArg Host.Outcome.next (overloads.trans raised), State.prachQueue_setPrachQueue s p rest,
    congrArg CarrierFh.overloads here, congrArg CarrierFh.occasions here, congrArg CarrierFh.detections here,
    by simp [Queued], others, ?_⟩
  simp [SameExcept, counted, taken, State.setPrachQueue, State.fresh]

theorem prachExpired_early {s : State} {o : Occasion} (early : s.now ≤ o.closed + 1966080) : ¬prachExpired s o = true := by
  simpa [prachExpired] using early

theorem prachStartTimeout_early (p : PortId) (o : Occasion) (rest : List Occasion) (s : State)
    (queue : mapGet s.ports.prachQueue p [] = o :: rest) (early : s.now ≤ o.closed + 1966080) : Idle (.prachStartTimeout p) s := by
  have waits : prachStartTimeout s p = s := by
    simp only [prachStartTimeout, queue]
    exact if_neg (prachExpired_early early)
  exact congrArg Host.Outcome.next waits

/-- An idle engine takes the occasion that closed first (R344). -/
theorem prachProcessingStart_takes (p : PortId) (o : Occasion) (rest : List Occasion) (s : State)
    (queue : mapGet s.ports.prachQueue p [] = o :: rest) (idle : mapGet? s.ports.prachBusy p = none)
    (early : s.now ≤ o.closed + 1966080) :
    Does (.prachProcessingStart p) s fun t => mapGet t.ports.prachQueue p [] = rest ∧
      mapGet? t.ports.prachBusy p = some { o with begun := s.now } ∧ t.ports.carriers = s.ports.carriers ∧ SameExcept [.ports] s t := by
  let taken := s.setPrachQueue p rest
  have takes : prachProcessingStart s p =
      { taken with ports := { taken.ports with prachBusy := mapSet s.ports.prachBusy p { o with begun := s.now } } } := by
    simp only [prachProcessingStart, queue, idle]
    exact if_neg (prachExpired_early early)
  exact ⟨_, congrArg Host.Outcome.next takes, State.prachQueue_setPrachQueue s p rest, mapGet?_mapSet_self _ _ _, rfl,
    by simp [SameExcept, taken, State.setPrachQueue]⟩

/-- An occasion without input takes no time, and is counted without a detection (R343, R345). -/
theorem prachProcessingEnd_counts (p : PortId) (o : Occasion) (s : State) (busy : mapGet? s.ports.prachBusy p = some o)
    (noRing : s.paramPort p 0x0A0B o.carrier = 0) (noInput : o.input = []) (begun : o.begun ≤ s.now) :
    Does (.prachProcessingEnd p) s fun t => t.ports.prachBusy = mapDel s.ports.prachBusy p ∧
      (t.cfh o.carrier).occasions = min ((s.cfh o.carrier).occasions + 1) (2 ^ 32 - 1) ∧
      (t.cfh o.carrier).detections = min (s.cfh o.carrier).detections (2 ^ 32 - 1) ∧
      OtherCarriers s t o.carrier ∧ SameExcept [.ports, .free] s t := by
  let freed : State := { s with ports := { s.ports with prachBusy := mapDel s.ports.prachBusy p }, freeCount := s.freeCount + 1 }
  have ends : prachProcessingEnd s p = freed.setCfh o.carrier (occasionCounted (s.cfh o.carrier) 3 0) := by
    unfold prachProcessingEnd
    simp only [busy, noInput]
    rw [if_neg (by simpa using begun)]
    exact prachReport_counts freed p o 3 0 [] _ noRing
  have here : (freed.setCfh o.carrier (occasionCounted (s.cfh o.carrier) 3 0)).cfh o.carrier =
      occasionCounted (s.cfh o.carrier) 3 0 := State.cfh_setCfh_self _ _ _
  refine ⟨_, congrArg Host.Outcome.next ends, rfl, congrArg CarrierFh.occasions here, congrArg CarrierFh.detections here,
    fun j hj => State.cfh_setCfh_ne freed _ _ hj, ?_⟩
  simp [SameExcept, freed]

/-- Settles O18, one lemma for each row: a window's end renews the noise map antenna by antenna, and an occasion goes through the
engine's queue and is counted. -/
theorem radioOccasions : Obligations.RadioOccasions :=
  ⟨noiseWindowEnd_renews, prachOccasionClose_queues, prachStartTimeout_overloads, prachStartTimeout_early,
   prachProcessingStart_takes, prachProcessingEnd_counts⟩

end Sys2Proof.Machine
end

section
namespace Sys2Proof.Machine

open Sys2Proof.Claims

/-! ## The stores that device commands act on (R457 to R461) -/

/-- A host part whose flash and kernel stores are those of the state. -/
structure KeepsStores (s : State) (host : HostSt) : Prop where
  flash : host.flash = s.host.flash
  flashOp : host.flashOp = s.host.flashOp
  images : host.images = s.host.images
  placed : host.placed = s.host.placed
  placeWait : host.placeWait = s.host.placeWait

theorem keepsStores_setHp (s : State) (h : Nat) (x : HostPort) : KeepsStores s (s.setHp h x).host := by
  unfold State.setHp
  split <;> exact ⟨rfl, rfl, rfl, rfl, rfl⟩

theorem keepsStores_acceptReq (s : State) (rq : Req) : KeepsStores s (acceptReq s rq).host := by
  unfold acceptReq
  split
  · exact ⟨rfl, rfl, rfl, rfl, rfl⟩
  · obtain ⟨flash, flashOp, images, placed, placeWait⟩ :=
      keepsStores_setHp s rq.port { s.hp rq.port with current := some rq, dropReply := false }
    exact ⟨flash, flashOp, images, placed, placeWait⟩

theorem keepsStores_accepted (s : State) (rq : Req) (op : Nat) : KeepsStores s (accepted s rq op).host :=
  keepsStores_acceptReq s _

theorem accepted_image (s : State) (rq : Req) (op i : Nat) : (accepted s rq op).image i = s.image i := by
  simp only [State.image, (keepsStores_accepted s rq op).images]

theorem accepted_onlyHost (s : State) (rq : Req) (op : Nat) : ∃ host, accepted s rq op = { s with host := host } := by
  obtain ⟨host, e, -⟩ := acceptReq_onlyHost s (asOp rq op)
  exact ⟨host, e⟩

/-- What a change of the host part leaves, it leaves of the state before the packet was accepted. -/
theorem accepted_sameExcept (s : State) (rq : Req) (op : Nat) : SameExcept [.host] s (accepted s rq op) := by
  obtain ⟨host, e⟩ := accepted_onlyHost s rq op
  rw [e]
  simp [SameExcept]

section
variable {i : Instr} {rq : Req} {op : Nat} {p : List Byte} {s : State} {body : Req → List Byte → State → State}

/-- A packet that is accepted and passes every check runs its command's body on the accepted state. -/
theorem runs_accepted (row : exec i s = .next (delaz op rq p s body)) (h : Accepts s rq op p.length) :
    exec i s = .next (body (asOp rq op) p (accepted s rq op)) := by
  obtain ⟨host, acc, -, runs⟩ := delaz_runs h
  rw [row, runs, acc]

end

/-! ## DEV_INFO, DEV_STATUS and RESET_WARM (R455, R456) -/

theorem devInfo_answers (rq : Req) (p : List Byte) (s : State) (h : Accepts s rq 0x0001 p.length) (up : s.boot.devState ≠ 0)
    (alone : s.param 0x1102 0 ≠ 1) :
    Answers (.devInfo rq p) s rq 0x0001 (leBytes 2 0x9640 ++ leBytes 1 0x42 ++ leBytes 1 0 ++
      leBytes 1 Config.speedGrade ++ leBytes 1 (min rq.port 4) ++ leBytes 1 (s.roleOf rq.port) ++ leBytes 1 (s.param 0x1101 0) ++
      leBytes 8 Config.serialNumber ++ leBytes 4 Config.romVersion ++ leBytes 4 Config.lanimanVersion ++ leBytes 8 0) := by
  refine answers_of_body rfl h fun host keeps => ?_
  have alone' : ¬State.param { s with host := host } 0x1102 0 = 1 := alone
  unfold cmdDevInfo
  dsimp only
  rw [if_neg alone', if_neg up, asOp_port, keeps.role]
  rfl

theorem devStatus_answers (rq : Req) (p : List Byte) (s : State) (h : Accepts s rq 0x0002 p.length) :
    Answers (.devStatus rq p) s rq 0x0002 (devStatusBytes s) :=
  answers_of_body rfl h fun _ _ => rfl

/-- A host port whose packets are discarded: those accepted, the one under way, and the reply that waits (R456). -/
def HostPort.discarded (x : HostPort) : HostPort :=
  { x with slotBusy := 0, order := [], current := none, waiting := none, dropReply := false }

theorem discardPackets_hp (s : State) (h : Fin 4) : (discardPackets s).hp h = (s.hp h).discarded := by
  fin_cases h <;> rfl

theorem hostOnly_discardPackets (s : State) : HostOnly s (discardPackets s) := ⟨_, s.ev, rfl⟩

theorem resetWarm_does (rq : Req) (p : List Byte) (s : State) (h : Accepts s rq 0x0003 p.length) (up : s.boot.devState ≠ 5) :
    Does (.resetWarm rq p) s fun t => t.boot = { s.boot with warmDue := true } ∧
      (∀ h : Fin 4, (t.hp h).order = [] ∧ (t.hp h).slotBusy = 0 ∧ (t.hp h).current = none ∧ (t.hp h).waiting = none) ∧
      t.host.spi.packet = none ∧ SameExcept [.host, .ev, .boot] s t := by
  refine does_of_body rfl h fun host _ => ?_
  let replied := replyOk { s with host := host } (asOp rq 0x0003) []
  have resets : cmdResetWarm (asOp rq 0x0003) p { s with host := host } =
      { discardPackets replied with boot := { (discardPackets replied).boot with warmDue := true } } := if_neg (by simp [up])
  obtain ⟨host', ev, e⟩ := (hostOnly_replyOk { s with host := host } (asOp rq 0x0003) []).trans (hostOnly_discardPackets replied)
  rw [resets]
  refine ⟨by rw [e], fun k => ?_, rfl, by rw [e]; simp [SameExcept]⟩
  have emptied := discardPackets_hp replied k
  exact ⟨congrArg HostPort.order emptied, congrArg HostPort.slotBusy emptied, congrArg HostPort.current emptied,
    congrArg HostPort.waiting emptied⟩

/-! ## Flash commands (R457, R565) -/

theorem flashRead_answers (rq : Req) (p : List Byte) (s : State) (h : Accepts s rq 0x0004 p.length) (free : s.host.flashOp = none)
    (least : 1 ≤ rd p 4 2) (most : rd p 4 2 ≤ 4064) (within : rd p 0 4 + rd p 4 2 ≤ 0x800000) :
    Answers (.flashRead rq p) s rq 0x0004 ((List.range (rd p 4 2)).map fun i =>
      if 0x1010 ≤ rd p 0 4 + i ∧ rd p 0 4 + i < 0x1030 then 0 else byteAt 0xFF s.host.flash (rd p 0 4 + i)) := by
  have keeps := keepsStores_accepted s rq 0x0004
  refine (runs_accepted rfl h).trans (congrArg Host.Outcome.next ?_)
  have range : ¬(rd p 4 2 = 0 || 4064 < rd p 4 2 || flashSize < rd p 0 4 + rd p 4 2) = true := by
    have size : flashSize = 0x800000 := rfl
    simp only [Bool.or_eq_true, decide_eq_true_eq]
    omega
  unfold cmdFlashRead
  dsimp only
  rw [keeps.flashOp, free, if_neg (by decide), if_neg range]
  simp only [flashShown, keeps.flash, Bool.and_eq_true, decide_eq_true_eq]

/-- The accepted state with a flash operation under way. -/
theorem accepted_flashOp (s : State) (rq : Req) (op : Nat) (f : FlashOp) :
    SameExcept [.host] s { accepted s rq op with host := { (accepted s rq op).host with flashOp := some f } } := by
  obtain ⟨host, e⟩ := accepted_onlyHost s rq op
  rw [e]
  simp [SameExcept]

theorem flashErase_begins (rq : Req) (p : List Byte) (s : State) (h : Accepts s rq 0x0005 p.length) (free : s.host.flashOp = none)
    (start : rd p 0 4 % 4096 = 0) (size : rd p 4 4 % 4096 = 0) (within : rd p 0 4 + rd p 4 4 ≤ 0x800000) :
    Does (.flashErase rq p) s fun t => t.host = { (accepted s rq 0x0005).host with
        flashOp := some { req := asOp rq 0x0005, erase := true, offset := rd p 0 4, len := rd p 4 4, data := [] } } ∧
      SameExcept [.host] s t := by
  have fits : ¬flashSize < rd p 0 4 + rd p 4 4 := Nat.not_lt.mpr within
  refine ⟨_, (runs_accepted rfl h).trans (congrArg Host.Outcome.next ?_), rfl, accepted_flashOp s rq 0x0005 _⟩
  unfold cmdFlashErase
  dsimp only
  rw [(keepsStores_accepted s rq 0x0005).flashOp, free, if_neg (by decide), if_neg (by simp [start, size]), if_neg fits]

theorem flashWrite_begins (rq : Req) (p : List Byte) (s : State) (h : Accepts s rq 0x0006 p.length) (free : s.host.flashOp = none)
    (within : rd p 0 4 + (p.drop 4).length ≤ 0x800000) :
    Does (.flashWrite rq p) s fun t => t.host = { (accepted s rq 0x0006).host with
        flashOp := some { req := asOp rq 0x0006, erase := false, offset := rd p 0 4, len := (p.drop 4).length, data := p.drop 4 } } ∧
      SameExcept [.host] s t := by
  have fits : ¬flashSize < rd p 0 4 + (p.drop 4).length := Nat.not_lt.mpr within
  refine ⟨_, (runs_accepted rfl h).trans (congrArg Host.Outcome.next ?_), rfl, accepted_flashOp s rq 0x0006 _⟩
  unfold cmdFlashWrite
  dsimp only
  rw [(keepsStores_accepted s rq 0x0006).flashOp, free, if_neg (by decide), if_neg fits]

/-! ## Carriers and radio (R338, R347, R458) -/

theorem carrierStatus_answers (rq : Req) (p : List Byte) (s : State) (h : Accepts s rq 0x0201 p.length)
    (alone : s.param 0x1102 0 ≠ 1) (_ : rq.inst ≤ 1023) :
    Answers (.carrierStatus rq p) s rq 0x0201 (leBytes 1 (s.param 0x1001 rq.inst) ++ leBytes 1 (tierOf s (rq.inst % 4) rq.inst) ++
      leBytes 1 (s.param 0x0607 rq.inst) ++ leBytes 1 (s.param 0x0608 rq.inst) ++
      leBytes 4 (mapGet s.cfg.gens (Scope.carrier rq.inst).key 0) ++ leBytes 4 (ownerOf s rq.inst).2 ++
      leBytes 1 (ownerOf s rq.inst).1 ++ [0, 0, 0]) := by
  refine answers_of_body rfl h fun host _ => ?_
  have alone' : ¬State.param { s with host := host } 0x1102 0 = 1 := alone
  unfold cmdCarrierStatus
  dsimp only
  rw [if_neg alone']
  rfl

/-- RADIO_NOISE_READ of one antenna context of the carrier (R338). -/
theorem radioNoiseRead_answers (rq : Req) (p : List Byte) (x : Nat) (s : State) (h : Accepts s rq 0x0202 p.length)
    (one : p.length = 2) (named : rd p 0 2 = x) (context : x < 16384) (mine : s.param 0x061C x = rq.inst)
    (antenna : s.param 0x061E x = 0) :
    Answers (.radioNoiseRead rq p) s rq 0x0202
      (((mapGet s.ports.noise x {}).record).getD (leBytes 14 0 ++ leBytes 1 1 ++ [0])) := by
  subst named
  refine answers_of_body rfl h fun host _ => ?_
  have mine' : State.param { s with host := host } 0x061C (rd p 0 2) = rq.inst := mine
  have antenna' : State.param { s with host := host } 0x061E (rd p 0 2) = 0 := antenna
  simp [cmdNoiseRead, one, context, mine', antenna']

theorem radioStatus_answers (rq : Req) (p : List Byte) (s : State) (h : Accepts s rq 0x0203 p.length) :
    let xs := (listedInst s 0x061C).filter fun x => s.param 0x061C x = rq.inst
    let out := (xs.drop (rd p 0 2)).take 253
    Answers (.radioStatus rq p) s rq 0x0203 (leBytes 4 (s.cfh rq.inst).idleMapBad ++ leBytes 4 (s.cfh rq.inst).occasions ++
      leBytes 4 (s.cfh rq.inst).detections ++ leBytes 4 (s.cfh rq.inst).overloads ++ leBytes 2 xs.length ++ leBytes 2 out.length ++
      out.flatMap fun x => leBytes 2 x ++ [0, 0] ++ leBytes 4 (eaxcOf s x).satUl ++ leBytes 4 (eaxcOf s x).satDl ++
        leBytes 4 (eaxcOf s x).prachShort) :=
  answers_of_body rfl h fun _ _ => rfl

/-! ## Kernel commands (R459 to R461) -/

/-- A change of one image of the store, on an accepted packet. -/
theorem accepted_setImage (s : State) (rq : Req) (op i : Nat) (x : Image) :
    ((accepted s rq op).setImage i x).image i = x ∧ (∀ j, j ≠ i → ((accepted s rq op).setImage i x).image j = s.image j) ∧
    SameExcept [.host] s ((accepted s rq op).setImage i x) :=
  ⟨State.image_setImage_self _ _ _, fun j hj => (State.image_setImage_ne _ _ _ hj).trans (accepted_image s rq op j), by
    obtain ⟨host, e⟩ := accepted_onlyHost s rq op
    rw [e]
    simp [SameExcept, State.setImage]⟩

theorem kernelWrite_leads (rq : Req) (p : List Byte) (s : State) (h : Accepts s rq 0x0301 p.length) (number : rd p 0 1 ≤ 63)
    (within : rd p 4 4 + (p.drop 8).length ≤ 32832) :
    Leads (.kernelWrite rq p) rq 0x0301 [] (fun u => u.image (rd p 0 1) =
        { bytes := bytesWrite 0 (s.image (rd p 0 1)).bytes (rd p 4 4) (p.drop 8), committed := false } ∧
      (∀ j, j ≠ rd p 0 1 → u.image j = s.image j) ∧ SameExcept [.host] s u) s := by
  refine ⟨_, (runs_accepted rfl h).trans (congrArg Host.Outcome.next ?_), accepted_setImage s rq 0x0301 (rd p 0 1) _⟩
  have fits : ¬(63 < rd p 0 1 || 32832 < rd p 4 4 + (p.drop 8).length) = true := by
    simp only [Bool.or_eq_true, decide_eq_true_eq]
    omega
  unfold cmdKernelWrite
  dsimp only
  rw [if_neg fits, accepted_image]

theorem kernelCommit_leads (rq : Req) (p : List Byte) (s : State) (h : Accepts s rq 0x0302 p.length) (number : rd p 0 1 ≤ 63)
    (sound : imageCheck (s.image (rd p 0 1)) = none) :
    Leads (.kernelCommit rq p) rq 0x0302 [] (fun u => u.image (rd p 0 1) = { s.image (rd p 0 1) with committed := true } ∧
      (∀ j, j ≠ rd p 0 1 → u.image j = s.image j) ∧ SameExcept [.host] s u) s := by
  refine ⟨_, (runs_accepted rfl h).trans (congrArg Host.Outcome.next ?_), accepted_setImage s rq 0x0302 (rd p 0 1) _⟩
  unfold cmdKernelCommit
  dsimp only
  rw [if_neg (Nat.not_lt.mpr number), accepted_image, sound]

/-- An image that fails a check is committed no longer, and the check that failed first is the detail (R460). -/
theorem kernelCommit_refuses (rq : Req) (p : List Byte) (n : Nat) (s : State) (h : Accepts s rq 0x0302 p.length)
    (number : rd p 0 1 ≤ 63) (bad : imageCheck (s.image (rd p 0 1)) = some n) :
    ∃ u, exec (.kernelCommit rq p) s = .next (refuse u (asOp rq 0x0302) 4 n) ∧ (u.image (rd p 0 1)).committed = false ∧
      SameExcept [.host] s u := by
  obtain ⟨here, -, frame⟩ := accepted_setImage s rq 0x0302 (rd p 0 1) { s.image (rd p 0 1) with committed := false }
  refine ⟨_, (runs_accepted rfl h).trans (congrArg Host.Outcome.next ?_), congrArg Image.committed here, frame⟩
  unfold cmdKernelCommit
  dsimp only
  rw [if_neg (Nat.not_lt.mpr number), accepted_image, bad]

/-- The state with a kernel loaded on core `k` as image `i`, and no KERNEL_PLACE that waits (R461). -/
def kernelPlaced (s : State) (i k : Nat) (kernel : Image) : State :=
  let loaded := s.setCore k { s.core k with imem := imageCode kernel }
  { loaded with host := { loaded.host with
      placed := mapSet loaded.host.placed k i, kernelTail := mapSet loaded.host.kernelTail k (imageTail kernel)
      placeWait := none } }

/-- A KERNEL_PLACE that waits for one core alone is answered once that core is drained. -/
theorem placeStep_last {s : State} {k : Nat} {w : PlaceWait} (waits : s.host.placeWait = some w) (last : w.left = [k]) :
    placeStep s k = replyOk (kernelPlaced s w.image k w.kernel) w.req (leBytes 2 (w.loaded + 1)) := by
  have left : w.left.filter (fun i => i ≠ k) = [] := by simp [last]
  unfold placeStep
  simp only [waits]
  rw [if_neg (by simp [last])]
  simp only [left, List.isEmpty_nil, if_true]
  rfl

/-- KERNEL_PLACE of one core whose domain is off goes on to load it. -/
theorem cmdKernelPlace_off (rq : Req) (p : List Byte) (s : State) {k : Nat} (number : rd p 0 1 ≤ 63)
    (free : s.host.placeWait = none) (committed : (s.image (rd p 0 1)).committed = true) (core : maskCores (p.drop 8) = [k])
    (anyTail : imageTail (s.image (rd p 0 1)) = 2) (service : s.underTest k = false) (off : s.domainOn (k / 16) = false) :
    cmdKernelPlace rq p s = placeStep { s with host := { s.host with placeWait := some {
      req := rq, image := rd p 0 1, kernel := s.image (rd p 0 1), left := [k], loaded := 0 } } } k := by
  have off' : ¬s.domainOn (k / 16) = true := by simp [off]
  unfold cmdKernelPlace
  dsimp only
  rw [if_neg (Nat.not_lt.mpr number), free, if_neg (by decide), if_neg (by simp [committed]), core, if_neg (by simp)]
  simp only [List.find?_cons, List.find?_nil, List.filter_cons, List.filter_nil, List.foldl_cons, List.foldl_nil, anyTail, service]
  exact if_neg off'

theorem kernelPlace_leads (rq : Req) (p : List Byte) (k : Nat) (s : State) (h : Accepts s rq 0x0303 p.length)
    (number : rd p 0 1 ≤ 63) (free : s.host.placeWait = none) (committed : (s.image (rd p 0 1)).committed = true)
    (core : maskCores (p.drop 8) = [k]) (anyTail : imageTail (s.image (rd p 0 1)) = 2) (service : s.underTest k = false)
    (off : s.domainOn (k / 16) = false) :
    Leads (.kernelPlace rq p) rq 0x0303 (leBytes 2 1) (fun u =>
      u.core k = { s.core k with imem := imageCode (s.image (rd p 0 1)) } ∧
      (∀ j, j ≠ k → u.core j = s.core j) ∧ mapGet? u.host.placed k = some (rd p 0 1) ∧
      mapGet? u.host.kernelTail k = some 2 ∧ u.host.placeWait = none ∧
      SameExcept [.host, .facet] s u) s := by
  obtain ⟨host, e⟩ := accepted_onlyHost s rq 0x0303
  have image := accepted_image s rq 0x0303 (rd p 0 1)
  have free' := (keepsStores_accepted s rq 0x0303).placeWait.trans free
  have runs := runs_accepted (i := .kernelPlace rq p) rfl h
  rw [e] at image free' runs
  rw [cmdKernelPlace_off _ p _ number free' (by rw [image, committed]) core (by rw [image, anyTail]) service off,
    placeStep_last rfl rfl, image] at runs
  refine ⟨_, runs, State.core_setCore_self _ _ _, fun j hj => State.core_setCore_ne _ _ _ hj, mapGet?_mapSet_self _ _ _,
    (mapGet?_mapSet_self _ _ _).trans (congrArg some anyTail), rfl, ?_⟩
  simp [SameExcept, kernelPlaced]

theorem kernelPlace_refuses (rq : Req) (p : List Byte) (s : State) (h : Accepts s rq 0x0303 p.length) (number : rd p 0 1 ≤ 63)
    (free : s.host.placeWait = none) (uncommitted : (s.image (rd p 0 1)).committed = false) :
    Refuses (.kernelPlace rq p) s rq 0x0303 9 0 := by
  refine (runs_accepted rfl h).trans (congrArg Host.Outcome.next ?_)
  unfold cmdKernelPlace
  dsimp only
  rw [if_neg (Nat.not_lt.mpr number), (keepsStores_accepted s rq 0x0303).placeWait, free, if_neg (by decide), accepted_image,
    if_pos (by simp [uncommitted])]

theorem kernelStatus_answers (rq : Req) (p : List Byte) (s : State) (h : Accepts s rq 0x0304 p.length) :
    Answers (.kernelStatus rq p) s rq 0x0304 ((List.range 1024).map fun k => BitVec.ofNat 8 (mapGet s.host.placed k 255)) := by
  refine (runs_accepted rfl h).trans (congrArg Host.Outcome.next ?_)
  rw [cmdKernelStatus, (keepsStores_accepted s rq 0x0304).placed]

/-! ## Mill commands (R462, R463) -/

theorem millEnqueue_one (rq : Req) (p : List Byte) (s : State) (h : Accepts s rq 0x0305 p.length) (one : p.length = 72)
    (slc : rd p 0 1 ≤ 3) :
    let e := enqueueOp (accepted s rq 0x0305) (rd p 0 1) (slice p 8 64)
    exec (.millEnqueue rq p) s = .next (replyOk e.1 (asOp rq 0x0305) (leBytes 1 e.2)) := by
  refine (runs_accepted rfl h).trans (congrArg Host.Outcome.next ?_)
  unfold cmdMillEnqueue
  dsimp only
  rw [if_neg (Nat.not_lt.mpr slc), one]
  rfl

/-- A SET to a count that is not 0 writes its counter and releases nothing (R269). -/
theorem setCounterOp_counts (s : State) (k : Nat) {n : Nat} (counting : n ≠ 0) :
    SliceAs s (k / 16384) (setCounter (s.slc (k / 16384)) k { count := n, status := 0 }) (setCounterOp s k n) :=
  (SliceAs.refl s (k / 16384)).counts ⟨n, 0⟩ counting

theorem millCounterSet_leads (rq : Req) (p : List Byte) (s : State) (h : Accepts s rq 0x0306 p.length) (one : p.length = 4)
    (counting : rd p 2 2 ≠ 0) :
    Leads (.millCounterSet rq p) rq 0x0306 [] (fun u =>
      (u.slc (rd p 0 2 / 16384)).counter (rd p 0 2) = { count := rd p 2 2, status := 0 } ∧
      OtherSlices s u (rd p 0 2 / 16384) ∧ SameExcept [.host, .mill] s u) s := by
  refine leads_of_body rfl h fun host _ => ⟨setCounterOp { s with host := host } (rd p 0 2) (rd p 2 2), ?_, ?_⟩
  · unfold cmdMillCounterSet
    rw [one]
    rfl
  · obtain ⟨here, there, l, e⟩ := setCounterOp_counts { s with host := host } (rd p 0 2) counting
    refine ⟨?_, there, ?_⟩
    · rw [here]
      exact counter_setCounter_self _ _ _
    · rw [e]
      simp [SameExcept]

theorem millCounterRead_answers (rq : Req) (p : List Byte) (s : State) (h : Accepts s rq 0x0307 p.length) :
    Answers (.millCounterRead rq p) s rq 0x0307
      ((List.range (p.length / 2)).flatMap fun i => leBytes 8 (counterWord s (rd p (2 * i) 2))) :=
  answers_of_body rfl h fun _ _ => rfl

/-- TRACE_READ from a record that is not written yet answers no record (R463). -/
theorem traceRead_answers (rq : Req) (p : List Byte) (s : State) (h : Accepts s rq 0x0308 p.length) (slc : rd p 0 1 ≤ 3)
    (ahead : rd p 8 8 ≥ (s.slc (rd p 0 1)).traceWritten) :
    Answers (.traceRead rq p) s rq 0x0308 (leBytes 8 (s.slc (rd p 0 1)).traceWritten ++ leBytes 4 (s.slc (rd p 0 1)).traceLost ++
      leBytes 4 0) := by
  refine answers_of_body rfl h fun host _ => ?_
  have noRecord (n : Nat) : min 253 ((s.slc (rd p 0 1)).traceWritten - max (rd p 8 8) n) = 0 := by omega
  have same : State.slc { s with host := host } (rd p 0 1) = s.slc (rd p 0 1) := rfl
  unfold cmdTraceRead
  dsimp only
  rw [if_neg (Nat.not_lt.mpr slc), same, noRecord, List.range_zero, List.flatMap_nil, List.append_nil]

theorem traceRead_refuses (rq : Req) (p : List Byte) (s : State) (h : Accepts s rq 0x0308 p.length) (slc : 3 < rd p 0 1) :
    Refuses (.traceRead rq p) s rq 0x0308 5 0 :=
  refuses_of_body rfl h fun _ _ => if_pos slc

/-- Settles O46, clause by clause: the row of the command leads to its body, and each body's own lemma above says what it answers
and leaves. -/
theorem delazDevice : Obligations.DelazDevice :=
  ⟨devInfo_answers, devStatus_answers, resetWarm_does, flashRead_answers, flashErase_begins, flashWrite_begins,
   carrierStatus_answers, radioNoiseRead_answers, radioStatus_answers, kernelWrite_leads, kernelCommit_leads, kernelCommit_refuses,
   kernelPlace_leads, kernelPlace_refuses, kernelStatus_answers, millEnqueue_one, millCounterSet_leads, millCounterRead_answers,
   traceRead_answers, traceRead_refuses⟩

end Sys2Proof.Machine
end

section
namespace Sys2Proof.Machine

open Sys2Proof.Claims

/-! ## One channel of the DMA engines after another (R412, R415) -/

/-- `t` is `s` with channel `c` as `x`; no other channel, and nothing else of the device, has changed. -/
structure ChanAs (s : State) (c : Nat) (x : Chan) (t : State) : Prop where
  here : t.chan c = x
  there : OtherChans s t c
  rest : ∃ l, t = { s with dma := { s.dma with chans := l } }

section
variable {s t : State} {c : Nat} {x : Chan}

theorem ChanAs.refl (s : State) (c : Nat) : ChanAs s c (s.chan c) s := ⟨rfl, fun _ _ => rfl, s.dma.chans, rfl⟩

theorem ChanAs.setChan (h : ChanAs s c x t) (y : Chan) : ChanAs s c y (t.setChan c y) := by
  refine ⟨State.chan_setChan_self _ _ _, fun j hj => (State.chan_setChan_ne _ _ _ hj).trans (h.there j hj), ?_⟩
  obtain ⟨l, rfl⟩ := h.rest
  exact ⟨_, rfl⟩

/-- The channel, the other channels, the engines and the frame, as the statements about the channels ask for them. -/
theorem ChanAs.spec (h : ChanAs s c x t) :
    t.chan c = x ∧ OtherChans s t c ∧ t.dma.engines = s.dma.engines ∧ SameExcept [.dma] s t := by
  refine ⟨h.here, h.there, ?_⟩
  obtain ⟨l, rfl⟩ := h.rest
  simp [SameExcept]

theorem ChanAs.engine (h : ChanAs s c x t) (e : Nat) : t.engine e = s.engine e := by
  obtain ⟨l, rfl⟩ := h.rest
  rfl

theorem ChanAs.chanOut (h : ChanAs s c x t) (k : Nat) : chanOut t k = chanOut s k := by
  obtain ⟨l, rfl⟩ := h.rest
  rfl

/-- A channel that stops is HALTED where nothing of it is outstanding, and STOPPING until then (R416, R427). -/
theorem ChanAs.finishStop (h : ChanAs s c x t) (stopping : x.st = 3) :
    ChanAs s c { x with st := if Machine.chanOut s c = [] then 4 else 3 } (finishStop t c) := by
  have unfolded : Machine.finishStop t c = if Machine.chanOut s c = [] then t.setChan c { x with st := 4 } else t := by
    simp [Machine.finishStop, h.here, h.chanOut, stopping]
  rw [unfolded]
  split
  · exact h.setChan _
  · have same : { x with st := 3 } = x := by rw [← stopping]
    rwa [same]

/-- A channel changes beside an event as it changes without it. -/
theorem ChanAs.raise (h : ChanAs s c x t) (k i n : Nat) (b : List Byte) :
    ChanAs (Machine.raise s k i n b) c x (Machine.raise t k i n b) := by
  refine ⟨by rw [raise_chan, h.here], fun j hj => by rw [raise_chan, raise_chan, h.there j hj], ?_⟩
  obtain ⟨l, rfl⟩ := h.rest
  refine ⟨l, ?_⟩
  unfold Machine.raise offer
  dsimp only
  split <;> rfl

/-- A channel that changes beside one event, as the statements about the channels ask for it. -/
theorem ChanAs.raise_spec {k i n : Nat} {b : List Byte} (h : ChanAs (Machine.raise s k i n b) c x t) (room : Room 1 s) :
    t.chan c = x ∧ OtherChans s t c ∧ t.dma.engines = s.dma.engines ∧ Raised s t k i n (eventSev n b) b ∧
      SameExcept [.dma, .ev] s t := by
  refine ⟨h.here, fun j hj => (h.there j hj).trans (raise_chan _ _ _ _ _ _), ?_⟩
  obtain ⟨l, rfl⟩ := h.rest
  simp [SameExcept, raise_room s k i n b room]

end

/-! ## Channels that stop (R416, R427, R428) -/

/-- An error halts a channel with nothing outstanding, and is reported. -/
theorem chanFail_halts (s : State) (c code addr : Nat) (quiet : chanOut s c = []) (room : Room 1 s) :
    Halts s (chanFail s c code addr) c code addr := by
  have stopping := ((ChanAs.refl s c).setChan
    { s.chan c with st := 3, err := code, failAddr := addr, move := none, wait := none }).raise 4 (chanEngine c) 0x0E01
      (leBytes 1 (chanEngine c) ++ leBytes 1 (c % 32) ++ leBytes 1 code ++ leBytes 1 (s.chanOwner c) ++ leBytes 8 addr)
  obtain ⟨here, there, engines, event, frame⟩ := (stopping.finishStop rfl).raise_spec room
  have out (u : State) (sameFab : u.fab = s.fab) : chanOut u c = [] := by rwa [chanOut, sameFab]
  rw [out _ (raise_fab _ _ _ _ _), if_pos rfl] at here
  exact ⟨here, there, engines, event, frame⟩

/-- STOP of a channel at work: it halts with STOPPED once nothing of it is outstanding. -/
theorem chanStop_stops (s : State) (c : Nat) (atWork : (s.chan c).st = 1 ∨ (s.chan c).st = 2) :
    ChanAs s c { s.chan c with st := if chanOut s c = [] then 4 else 3, err := 5, move := none, wait := none } (chanStop s c) := by
  have unfolded : chanStop s c =
      finishStop (s.setChan c { s.chan c with st := 3, err := dmaStopped, move := none, wait := none }) c := by
    rw [chanStop, if_pos (by simpa using atWork)]
  rw [unfolded]
  exact ((ChanAs.refl s c).setChan { s.chan c with st := 3, err := dmaStopped, move := none, wait := none }).finishStop rfl

/-! ## Channels that start (R414, R416) -/

theorem chanStart_runs (s : State) (c : Nat) {addr : Nat} (aligned : addr % 16 = 0) :
    ChanAs s c { st := 1, prog := addr, pc := addr } (chanStart s c addr) := by
  have unfolded : chanStart s c addr = s.setChan c { st := 1, prog := addr, pc := addr } := by simp [chanStart, aligned]
  rw [unfolded]
  exact (ChanAs.refl s c).setChan _

theorem chanStart_misaligned (s : State) (c : Nat) {addr : Nat} (misaligned : addr % 16 ≠ 0) :
    chanStart s c addr = chanFail (s.setChan c { st := 1, prog := addr, pc := addr }) c dmaPermission addr := by
  simp [chanStart, misaligned]

/-! ## Engines with nothing to go on with (R413) -/

theorem moveWrites_noMove (n : Nat) {s : State} {c : Nat} (noMove : (s.chan c).move = none) : moveWrites n s c = s := by
  cases n with
  | zero => rfl
  | succ n => simp only [moveWrites, noMove]

theorem readReady_noMove {s : State} {c : Nat} (noMove : (s.chan c).move = none) : readReady s c = false := by
  simp only [readReady, noMove]

theorem chanEngine_turnOrder {e last k : Nat} (h : k ∈ turnOrder e last) : chanEngine k = e := by
  obtain ⟨i, -, rfl⟩ := List.mem_map.mp h
  unfold chanEngine
  omega

theorem engineReads_noMove (n : Nat) {s : State} {e : Nat} (noMove : ∀ k, chanEngine k = e → (s.chan k).move = none) :
    engineReads n s e = s := by
  cases n with
  | zero => rfl
  | succ n =>
    have noneReady (last : Nat) (p : Nat → Bool) : (turnOrder e last).find? (fun c => p c && readReady s c) = none := by
      rw [List.find?_eq_none]
      intro k hk
      simp [readReady_noMove (noMove k (chanEngine_turnOrder hk))]
    simp only [engineReads, noneReady]

theorem engineWrites_noMove {s : State} {c : Nat} (noWrite : (s.engine (chanEngine c)).writeQ = []) (noMove : (s.chan c).move = none) :
    engineWrites s c = s := by
  simp [engineWrites, noWrite, moveWrites_noMove _ noMove, writeBlocked, noMove]

theorem enginePump_quiet {s : State} {c : Nat} (quiet : QuietEngine s c) (noMove : (s.chan c).move = none) : enginePump s c = s := by
  obtain ⟨noWrite, others⟩ := quiet
  rw [enginePump, engineWrites_noMove noWrite noMove]
  refine engineReads_noMove 65 fun k hk => ?_
  by_cases same : k = c
  · rwa [same]
  · exact others k hk same

/-! ## Channels that are reset (R363, R416) -/

/-- A master reset to a generation value that was never left is not put off. -/
theorem masterReset_chan (s : State) (node c : Nat) (dma : c < 768)
    (fresh : mapGet? (s.ni (4096 + c)).left (((s.ni (4096 + c)).gen + 1) % 4) = none) :
    ((masterReset s node c).ni (4096 + c)).gen = ((s.ni (4096 + c)).gen + 1) % 4 ∧
    ∀ o, o ∈ (masterReset s node c).fab.outst ↔ o ∈ s.fab.outst ∧ ¬(o.node = node ∧ o.chan = c) := by
  have key : niKey node c = 4096 + c := if_pos dma
  have below : ¬768 ≤ c := by omega
  unfold masterReset
  rw [key]
  extract_lets k x next mine late s1
  have inTime : late = false := by simp only [late, next, x, k, fresh]
  rw [inTime, if_neg Bool.false_ne_true]
  constructor
  · exact congrArg Ni.gen (State.ni_setNi_self s _ _)
  · simp [s1, mine, below, State.setNi, imp_iff_not_or]

/-- RESET of a channel whose engine has nothing else to go on with: a master reset of the channel, which becomes IDLE. -/
theorem chanReset_quiet (s : State) (c : Nat) (quiet : QuietEngine s c) :
    ChanAs (masterReset s (dmaNode (chanEngine c)) c) c {} (chanReset s c) := by
  obtain ⟨noWrite, noMove⟩ := quiet
  obtain ⟨nis, outst, frame⟩ := masterReset_frame s (dmaNode (chanEngine c)) c
  have idle := (ChanAs.refl (masterReset s (dmaNode (chanEngine c)) c) c).setChan {}
  have others : QuietEngine ((masterReset s (dmaNode (chanEngine c)) c).setChan c {}) c := by
    refine ⟨?_, fun k hk other => ?_⟩
    · rw [idle.engine, frame]
      exact noWrite
    · rw [idle.there k other, frame]
      exact noMove k hk other
  rw [chanReset, enginePump_quiet others (by rw [idle.here])]
  exact idle

/-! ## Flags (R418 to R420) -/

theorem chanAdvance_straight {x : Chan} (n : Nat) (straight : x.loops = []) :
    chanAdvance x n = { x with pc := (x.pc + n) % 2 ^ 64 } := by
  simp [chanAdvance, loopBack, straight]

/-- The state with flag `f` of engine `e` set. -/
def withFlag (s : State) (e f : Nat) : State :=
  s.setEngine e { s.engine e with flags := (s.engine e).flags ||| ((1 : BitVec 256) <<< f) }

section
variable {s : State} {e f : Nat}

theorem flagSetOp_set (set : (s.engine e).flags.getLsbD f = true) : flagSetOp s e f = s := by
  unfold flagSetOp
  exact if_pos set

/-- A SET that no non-consuming WAIT waits for leaves the flag to a consuming WAIT. -/
theorem flagSetOp_unwaited (clear : (s.engine e).flags.getLsbD f = false) (unwaited : ∀ k, (s.chan k).wait ≠ some (3, f, false)) :
    flagSetOp s e f = (consumer s e f).elim (withFlag s e f) (chanRelease (flagClearOp (withFlag s e f) e f)) := by
  unfold flagSetOp
  extract_lets en s1 s2 last
  rw [if_neg (by simp [en, clear])]
  have noneReleased : s2 = withFlag s e f := by
    refine List.foldl_fixed' (fun k => if_neg ?_) _
    simp only [Bool.and_eq_true, decide_eq_true_eq, not_and]
    exact fun _ => unwaited (e * 32 + k)
  have sameConsumer : consumer (withFlag s e f) e f = consumer s e f := rfl
  simp only [last, noneReleased, sameConsumer]
  cases consumer s e f <;> rfl

theorem consumer_none (unwaited : ∀ k, (s.chan k).wait ≠ some (3, f, true)) : consumer s e f = none := by
  rw [consumer, List.find?_eq_none]
  intro k _
  simp [unwaited k]

/-- The one channel that waits is the consumer of its flag. -/
theorem consumer_sole {c : Nat} (engine : chanEngine c = e) (waiting : (s.chan c).st = 2) (wait : (s.chan c).wait = some (3, f, true))
    (others : ∀ j, j ≠ c → (s.chan j).wait = none) : consumer s e f = some c := by
  have listed : c ∈ (List.range 32).map fun k => e * 32 + k := by
    refine List.mem_map.mpr ⟨c % 32, List.mem_range.mpr (by omega), ?_⟩
    unfold chanEngine at engine
    omega
  cases found : consumer s e f with
  | none =>
    have fails := List.find?_eq_none.mp found c listed
    simp [waiting, wait] at fails
  | some j =>
    have holds := List.find?_some found
    by_cases same : j = c
    · rw [same]
    · simp [others j same] at holds

end

/-- Setting a flag changes that flag of its engine, and nothing else. -/
theorem withFlag_only (s : State) (e f : Nat) :
    ((withFlag s e f).engine e).flags = (s.engine e).flags ||| ((1 : BitVec 256) <<< f) ∧
    (∀ j, j ≠ e → (withFlag s e f).engine j = s.engine j) ∧ (withFlag s e f).dma.chans = s.dma.chans ∧
    SameExcept [.dma] s (withFlag s e f) := by
  refine ⟨congrArg DmaEngine.flags (State.engine_setEngine_self _ _ _), fun j hj => State.engine_setEngine_ne _ _ _ hj, rfl, ?_⟩
  simp [withFlag, SameExcept]

/-- CLEAR changes that flag of its engine, and nothing else. -/
theorem flagClearOp_only (s : State) (e f : Nat) :
    ((flagClearOp s e f).engine e).flags = (s.engine e).flags &&& ~~~((1 : BitVec 256) <<< f) ∧
    (∀ j, j ≠ e → (flagClearOp s e f).engine j = s.engine j) ∧ (flagClearOp s e f).dma.chans = s.dma.chans ∧
    SameExcept [.dma] s (flagClearOp s e f) := by
  refine ⟨congrArg DmaEngine.flags (State.engine_setEngine_self _ _ _), fun j hj => State.engine_setEngine_ne _ _ _ hj, rfl, ?_⟩
  simp [flagClearOp, SameExcept]

/-- A bit set and cleared again is clear, and no other has changed. -/
theorem getLsbD_set_clear (x : BitVec 256) (f j : Nat) :
    ((x ||| (1 : BitVec 256) <<< f) &&& ~~~((1 : BitVec 256) <<< f)).getLsbD j = (decide (j ≠ f) && x.getLsbD j) := by
  have one : (1 : BitVec 256) <<< f = BitVec.twoPow 256 f := rfl
  rw [one]
  by_cases inside : j < 256
  · by_cases same : j = f
    · simp [same]
    · simp [BitVec.getElem_twoPow, inside, same]
  · rw [BitVec.getLsbD_of_ge _ _ (by omega), BitVec.getLsbD_of_ge x _ (by omega), Bool.and_false]

/-- Clearing a flag that was just set leaves it clear and no other flag changed. -/
theorem flagClearOp_withFlag (s : State) (e f j : Nat) :
    ((flagClearOp (withFlag s e f) e f).engine e).flags.getLsbD j = (decide (j ≠ f) && (s.engine e).flags.getLsbD j) := by
  obtain ⟨set, -⟩ := withFlag_only s e f
  obtain ⟨cleared, -⟩ := flagClearOp_only (withFlag s e f) e f
  rw [cleared, set, getLsbD_set_clear]

theorem chanRelease_straight (s : State) (c : Nat) (straight : (s.chan c).loops = []) :
    ChanAs s c { s.chan c with st := 1, wait := none, pc := ((s.chan c).pc + 16) % 2 ^ 64 } (chanRelease s c) := by
  rw [chanRelease, chanAdvance_straight (x := { s.chan c with st := 1, wait := none }) 16 straight]
  exact (ChanAs.refl s c).setChan _

/-- A SET that releases the one consuming WAIT on the flag leaves the flag clear. -/
theorem flagSetOp_consumed {s : State} {e f c : Nat} (clear : (s.engine e).flags.getLsbD f = false) (engine : chanEngine c = e)
    (waiting : (s.chan c).st = 2) (wait : (s.chan c).wait = some (3, f, true)) (others : ∀ j, j ≠ c → (s.chan j).wait = none) :
    flagSetOp s e f = chanRelease (flagClearOp (withFlag s e f) e f) c := by
  rw [flagSetOp_unwaited clear, consumer_sole engine waiting wait others]
  · rfl
  · intro k
    by_cases same : k = c
    · simp [same, wait]
    · simp [others k same]

/-! ## Commands of a channel (R416) -/

section
variable (c : ChanId) (s : State)

theorem chanCmdStart_row : exec (.chanCmdStart c) s = .next (if chanIdle s c then chanStart s c (s.chan c).prog else s) := rfl

theorem chanCmdReset_row : exec (.chanCmdReset c) s = .next (chanReset s c) := rfl

theorem chanCmdStart_starts (idle : (s.chan c).st = 0 ∨ (s.chan c).st = 4) :
    exec (.chanCmdStart c) s = .next (chanStart s c (s.chan c).prog) := by
  rw [chanCmdStart_row, if_pos (by simpa [chanIdle] using idle)]

theorem chanCmdStart_aligned (idle : (s.chan c).st = 0 ∨ (s.chan c).st = 4) (aligned : (s.chan c).prog % 16 = 0) :
    Does (.chanCmdStart c) s fun t => t.chan c = { st := 1, prog := (s.chan c).prog, pc := (s.chan c).prog } ∧
      OtherChans s t c ∧ t.dma.engines = s.dma.engines ∧ SameExcept [.dma] s t :=
  ⟨_, chanCmdStart_starts c s idle, (chanStart_runs s c aligned).spec⟩

theorem chanCmdStart_misaligned (idle : (s.chan c).st = 0 ∨ (s.chan c).st = 4) (misaligned : (s.chan c).prog % 16 ≠ 0)
    (quiet : chanOut s c = []) (room : Room 1 s) :
    Does (.chanCmdStart c) s fun t => (t.chan c).st = 4 ∧ (t.chan c).err = 4 ∧ (t.chan c).failAddr = (s.chan c).prog ∧
      OtherChans s t c ∧ Queued t 4 (chanEngine c) 0x0E01 ∧ SameExcept [.dma, .ev] s t := by
  have started := chanCmdStart_starts c s idle
  rw [chanStart_misaligned s c misaligned] at started
  obtain ⟨-, others, -, -⟩ := ((ChanAs.refl s c).setChan { st := 1, prog := (s.chan c).prog, pc := (s.chan c).prog }).spec
  obtain ⟨here, there, -, event, frame⟩ :=
    chanFail_halts (s.setChan c { st := 1, prog := (s.chan c).prog, pc := (s.chan c).prog }) c dmaPermission (s.chan c).prog quiet room
  exact ⟨_, started, by rw [here], by rw [here], by rw [here], fun j hj => (there j hj).trans (others j hj),
    by simp [Queued, event], by simpa [SameExcept] using frame⟩

theorem chanCmdStart_busy (notIdle : (s.chan c).st ≠ 0) (notHalted : (s.chan c).st ≠ 4) : Idle (.chanCmdStart c) s := by
  rw [Idle, chanCmdStart_row, if_neg (by simp [chanIdle, notIdle, notHalted])]

theorem chanCmdStop_stops (atWork : (s.chan c).st = 1 ∨ (s.chan c).st = 2) :
    Does (.chanCmdStop c) s fun t => t.chan c = { s.chan c with
        st := if chanOut s c = [] then 4 else 3, err := 5, move := none, wait := none } ∧
      OtherChans s t c ∧ t.dma.engines = s.dma.engines ∧ SameExcept [.dma] s t :=
  ⟨_, rfl, (chanStop_stops s c atWork).spec⟩

theorem chanCmdStop_notAtWork (notRunning : (s.chan c).st ≠ 1) (notWaiting : (s.chan c).st ≠ 2) : Idle (.chanCmdStop c) s :=
  congrArg Host.Outcome.next (if_neg (by simp [notRunning, notWaiting]))

theorem chanCmdReset_resets (fresh : mapGet? (s.ni (4096 + c.val)).left (((s.ni (4096 + c.val)).gen + 1) % 4) = none)
    (quiet : QuietEngine s c) :
    Does (.chanCmdReset c) s fun t => t.chan c = {} ∧ OtherChans s t c ∧ t.dma.engines = s.dma.engines ∧
      (t.ni (4096 + c.val)).gen = ((s.ni (4096 + c.val)).gen + 1) % 4 ∧
      (∀ o, o ∈ t.fab.outst ↔ o ∈ s.fab.outst ∧ ¬(o.node = dmaNode (chanEngine c) ∧ o.chan = c.val)) ∧
      SameExcept [.dma, .fab] s t := by
  obtain ⟨gen, requests⟩ := masterReset_chan s (dmaNode (chanEngine c)) c c.isLt fresh
  obtain ⟨nis, outst, master⟩ := masterReset_frame s (dmaNode (chanEngine c)) c
  obtain ⟨here, there, l, reset⟩ := chanReset_quiet s c quiet
  refine ⟨_, chanCmdReset_row c s, here, ?_⟩
  rw [master] at gen requests
  rw [reset, master] at there ⊢
  exact ⟨there, rfl, gen, requests, by simp [SameExcept]⟩

end

/-! ## SET and CLEAR of a flag (R419, R420) -/

section
variable (e : EngineId) (f : Byte) (s : State)

theorem flagSet_again (set : (s.engine e).flags.getLsbD f.toNat = true) : Idle (.flagSet e f) s :=
  congrArg Host.Outcome.next (flagSetOp_set set)

theorem flagSet_sets (clear : (s.engine e).flags.getLsbD f.toNat = false) (unwaited : ∀ c, (s.chan c).wait = none) :
    Does (.flagSet e f) s fun t => (t.engine e).flags = (s.engine e).flags ||| ((1 : BitVec 256) <<< f.toNat) ∧
      (∀ j, j ≠ e.val → t.engine j = s.engine j) ∧ t.dma.chans = s.dma.chans ∧ SameExcept [.dma] s t := by
  have result : flagSetOp s e f.toNat = withFlag s e f.toNat := by
    rw [flagSetOp_unwaited clear (by simp [unwaited]), consumer_none (by simp [unwaited])]
    rfl
  exact ⟨_, congrArg Host.Outcome.next result, withFlag_only s e f.toNat⟩

theorem flagSet_releases (c : ChanId) (clear : (s.engine e).flags.getLsbD f.toNat = false) (engine : chanEngine c = e.val)
    (waiting : (s.chan c).st = 2) (wait : (s.chan c).wait = some (3, f.toNat, true)) (straight : (s.chan c).loops = [])
    (others : ∀ j, j ≠ c.val → (s.chan j).wait = none) :
    Does (.flagSet e f) s fun t => (t.engine e).flags.getLsbD f.toNat = false ∧
      (∀ j, j ≠ f.toNat → (t.engine e).flags.getLsbD j = (s.engine e).flags.getLsbD j) ∧
      t.chan c = { s.chan c with st := 1, wait := none, pc := ((s.chan c).pc + 16) % 2 ^ 64 } ∧ OtherChans s t c ∧
      SameExcept [.dma] s t := by
  have released := chanRelease_straight (flagClearOp (withFlag s e f.toNat) e f.toNat) c straight
  obtain ⟨here, there, -, frame⟩ := released.spec
  refine ⟨_, congrArg Host.Outcome.next (flagSetOp_consumed clear engine waiting wait others), ?_, fun j hj => ?_, here, there, ?_⟩
  · simp [released.engine, flagClearOp_withFlag]
  · simp [released.engine, flagClearOp_withFlag, hj]
  · simpa [flagClearOp, withFlag, SameExcept] using frame

theorem flagClear_clears :
    Does (.flagClear e f) s fun t => (t.engine e).flags = (s.engine e).flags &&& ~~~((1 : BitVec 256) <<< f.toNat) ∧
      (∀ j, j ≠ e.val → t.engine j = s.engine j) ∧ t.dma.chans = s.dma.chans ∧ SameExcept [.dma] s t :=
  ⟨_, rfl, flagClearOp_only s e f.toNat⟩

end

/-- Settles O41, clause by clause: each command's own lemma above says what it does to its channel or flag. -/
theorem dmaControl : Obligations.DmaControl :=
  ⟨chanCmdStart_aligned, chanCmdStart_misaligned, chanCmdStart_busy, chanCmdStop_stops, chanCmdStop_notAtWork, chanCmdReset_resets,
   flagSet_again, flagSet_sets, fun e f c s => flagSet_releases e f s c, flagClear_clears⟩

end Sys2Proof.Machine
end

section
namespace Sys2Proof.Machine

open Sys2Proof.Claims

/-! ## A byte memory with a range cleared (R383) -/

theorem mapGet?_filter_key {α : Type} (m : SMap α) (f : Nat → Bool) (k : Nat) :
    mapGet? (m.filter fun e => f e.1) k = if f k then mapGet? m k else none := by
  induction m with
  | nil => simp
  | cons e t ih =>
    obtain ⟨j, v⟩ := e
    by_cases same : j = k
    · subst same
      cases keep : f j
      · simp [keep, ih]
      · simp [keep, mapGet?]
    · cases keep : f j <;> simp [keep, mapGet?, same, ih]

theorem byteAt_bytesClear (d : Byte) (m : Bytes) (a n j : Nat) :
    byteAt d (bytesClear m a n) j = if a ≤ j ∧ j < a + n then d else byteAt d m j := by
  have kept : mapGet? (bytesClear m a n) j = _ := mapGet?_filter_key m (fun x => x < a || a + n ≤ x) j
  rw [byteAt, mapGet, kept]
  by_cases inside : a ≤ j ∧ j < a + n
  · rw [if_pos inside, if_neg (by simp; omega)]
    rfl
  · rw [if_neg inside, if_pos (by simp; omega)]
    rfl

/-! ## The counter tree and its caches (R400) -/

/-- `t` is `s` with other counter caches, tree nodes and failed blocks: what a use of the counter tree may change. -/
def TreeOnly (s t : State) : Prop :=
  ∃ nodes failed c0 c1, t = { s with mem := { s.mem with nodes := nodes, failed := failed, ctrCache0 := c0, ctrCache1 := c1 } }

theorem TreeOnly.refl (s : State) : TreeOnly s s := ⟨_, _, _, _, rfl⟩

theorem TreeOnly.trans {s t u : State} : TreeOnly s t → TreeOnly t u → TreeOnly s u := by
  rintro ⟨_, _, _, _, rfl⟩ ⟨_, _, _, _, rfl⟩
  exact ⟨_, _, _, _, rfl⟩

theorem TreeOnly.foldl {α : Type} {f : State → α → State} (step : ∀ u x, TreeOnly u (f u x)) (l : List α) (s : State) :
    TreeOnly s (l.foldl f s) := by
  induction l generalizing s with
  | nil => exact .refl s
  | cons x l ih => exact (step s x).trans (ih _)

theorem treeOnly_setCtrCache (s : State) (tile : Nat) (c : List CacheBlock) : TreeOnly s (setCtrCache s tile c) := by
  unfold setCtrCache
  split <;> exact ⟨_, _, _, _, rfl⟩

theorem treeOnly_bumpParent (s : State) (key : Nat) : TreeOnly s (bumpParent s key).1 := ⟨_, _, _, _, rfl⟩

theorem treeOnly_ctrTouch (fuel : Nat) (s : State) (tile key : Nat) (dirty : Bool) : TreeOnly s (ctrTouch fuel s tile key dirty) := by
  induction fuel generalizing s key dirty with
  | zero => exact .refl s
  | succ n ih =>
    unfold ctrTouch
    dsimp only
    split
    · exact treeOnly_setCtrCache s tile _
    · have evicted := treeOnly_setCtrCache s tile
      split
      · split
        · have bumped := fun c key => (evicted c).trans (treeOnly_bumpParent _ key)
          split
          · exact bumped _ _
          · exact (bumped _ _).trans (ih _ _ _)
        · exact evicted _
      · exact evicted _

theorem treeOnly_ctrUse (s : State) (g p : Nat) (mask : BitVec 32) (dirty : Bool) : TreeOnly s (ctrUse s g p mask dirty) :=
  ((TreeOnly.foldl (fun _ _ => treeOnly_ctrTouch _ _ _ _ _) _ s).trans (treeOnly_ctrTouch _ _ _ _ _)).trans
    (TreeOnly.foldl (fun _ _ => treeOnly_ctrTouch _ _ _ _ _) _ _)

/-! ## The page cache (R392) -/

theorem setCache_only (s : State) (tile : Nat) (c : List CachePage) :
    ∃ c0 c1, setCache s tile c = { s with mem := { s.mem with cache0 := c0, cache1 := c1 } } := by
  unfold setCache
  split <;> exact ⟨_, _, rfl⟩

theorem cacheOf_setCache_self (s : State) (tile : Nat) (c : List CachePage) : cacheOf (setCache s tile c) tile = c := by
  unfold cacheOf setCache
  split <;> rfl

/-- A page that is not resident joins a cache whose set has a free way. -/
theorem cachePut_absent {s : State} {p : Nat} (valid dirty : BitVec 32) (d : Decode) (absent : cachedPage s p = none)
    (free : (cacheOf s (pageTile p)).length < 16) :
    cachePut s p valid dirty d =
      setCache s (pageTile p) ({ page := p, valid := valid, dirty := dirty } :: cacheOf s (pageTile p)) := by
  have fits := (List.length_filter_le (fun e => Config.cacheSet e.page % 256 = Config.cacheSet p % 256)
    (cacheOf s (pageTile p))).trans_lt free
  have absent' : (cacheOf s (pageTile p)).find? (fun c => c.page = p) = none := absent
  simp only [cachePut, absent', if_pos fits]

/-- Page `p`, fetched whole, is the most recently used of its tile's cache. -/
def pageFetched (s : State) (p : Nat) : State :=
  setCache s (pageTile p) ({ page := p, valid := BitVec.allOnes 32, dirty := 0 } :: cacheOf s (pageTile p))

theorem pageFetched_only (s : State) (p : Nat) :
    ∃ c0 c1, pageFetched s p = { s with mem := { s.mem with cache0 := c0, cache1 := c1 } } := setCache_only s (pageTile p) _

theorem cachedPage_pageFetched (s : State) (p : Nat) :
    cachedPage (pageFetched s p) p = some { page := p, valid := BitVec.allOnes 32, dirty := 0 } := by
  rw [cachedPage, pageFetched, cacheOf_setCache_self]
  simp

/-! ## Reports of a channel (R393, R411) -/

/-- The channel of page `p` has counted one more page beyond correction. -/
def uncorrectableCounted (s : State) (p : Nat) : State :=
  modChan s (pageChannel p) fun c => { c with uncorrectable := satAdd 32 c.uncorrectable 1 }

theorem memUncorrectable_first (s : State) (p src mask : Nat) (first : mapGet? s.ev.rate (rateKey 0x0C02 (pageChannel p)) = none)
    (room : Room 1 s) :
    ∃ ev, memUncorrectable s p src mask = { uncorrectableCounted s p with ev := ev } ∧
      Queued (memUncorrectable s p src mask) 8 (pageChannel p / 6) 0x0C02 := by
  unfold memUncorrectable
  exact raiseLimited_first (uncorrectableCounted s p) _ _ _ _ _ _ _ first room

/-! ## A read that DRAM has answered (R380, R392, R393, R402) -/

/-- No request waits for DRAM any longer. -/
abbrev unwaited (s : State) : State := { s with mem := { s.mem with waits := [] } }

theorem drainPage_noWaits (n : Nat) {s : State} (p : Nat) (none : s.mem.waits = []) : drainPage n s p = s := by
  cases n with
  | zero => rfl
  | succ n => simp [drainPage, none]

theorem dramComplete_noWaits (s : State) (src tag : Nat) (r : DramResult) (none : s.mem.waits = []) :
    dramComplete s src tag r = s := by
  simp [dramComplete, none]

section
variable {s : State} {src tag off : Nat} {m : FabMsg}

/-- The only request that waits is answered, and none is left to be served after it. -/
theorem dramComplete_sole (r : DramResult) (sole : OneWait s src tag m) (served : (dramAnswer s { req := m } r).mem.waits = []) :
    dramComplete s src tag r = dramAnswer s { req := m } r := by
  obtain ⟨waits, rfl, rfl⟩ := sole
  simp [dramComplete, waits, waitFor, drainPage_noWaits _ _ served]

/-- A READ through the protected view that the region allows goes on to the checks of its page. -/
theorem dramAnswer_read (r : DramResult) (sole : OneWait s src tag m) (read : m.cmd = 1) (target : dramTarget m.addr = (false, off))
    (allowed : memAccess s m false off false = 0) :
    dramAnswer s { req := m } r = (pageProtected s (pageOf off)).elim
      (dramPlain (unwaited s) m false off (missMask s off m.len) r)
      fun g => dramProtected (unwaited s) m g off (missMask s off m.len) r := by
  obtain ⟨waits, -, -⟩ := sole
  have gone : s.mem.waits.erase { req := m } = [] := by simp [waits]
  have allowed' : memAccess (unwaited s) m false off false = 0 := allowed
  have same : pageProtected (unwaited s) (pageOf off) = pageProtected s (pageOf off) := rfl
  unfold dramAnswer
  simp only [gone, target, read, show ¬(1 = 2) by decide, decide_false, allowed', ne_eq, not_true_eq_false, if_false, same]
  cases pageProtected s (pageOf off) <;> rfl

end

section
variable (u : State) {m : FabMsg} (read : m.cmd = 1) (back : m.vc = 0) (mask : BitVec 32)
include read back

/-- A clean READ of a page without protection brings the page into the cache. -/
theorem dramPlain_clean {n off : Nat} (place : memPlace u off = .region n) (absent : cachedPage u (pageOf off) = none)
    (sound : u.mem.poison = []) (free : (cacheOf u (pageTile (pageOf off))).length < 16) :
    dramPlain u m false off mask {} =
      inject (pageFetched u (pageOf off)) (answer m 0 (bytesRead 0 u.mem.data off m.len) false 0) := by
  have whole : (List.range 32).foldl (fun (v : BitVec 32) j => v ||| 1#32 <<< j) 0 = BitVec.allOnes 32 := by decide
  have put : cachePut u (pageOf off) (BitVec.allOnes 32) 0 .clean = pageFetched u (pageOf off) := cachePut_absent _ _ _ absent free
  obtain ⟨c0, c1, only⟩ := pageFetched_only u (pageOf off)
  unfold dramPlain
  simp only [decodeReport, sound, place, read, List.contains_nil, Bool.false_eq_true, if_false, whole, if_true,
    reduceCtorEq, OfNat.one_ne_ofNat]
  rw [if_neg (by simp), put, respond_answers _ m _ _ _ _ (.inl (by omega)), extBytes, only]

/-- A page beyond correction answers poison, which its channel counts twice: as uncorrectable and as read (R393). -/
theorem dramPlain_uncorrectable (off : Nat)
    (first : mapGet? u.ev.rate (rateKey 0x0C02 (pageChannel (pageOf off))) = none) (room : Room 1 u) :
    ∃ ev, dramPlain u m false off mask { dataPage := .uncorrectable } =
        inject (poisonRead { uncorrectableCounted u (pageOf off) with ev := ev } (pageOf off))
          (answer m 4 (List.replicate m.len 0) true 0) ∧
      Queued (dramPlain u m false off mask { dataPage := .uncorrectable }) 8 (pageChannel (pageOf off) / 6) 0x0C02 := by
  obtain ⟨ev, reported, queued⟩ := memUncorrectable_first u (pageOf off) 0 mask.toNat first room
  have answered : dramPlain u m false off mask { dataPage := .uncorrectable } =
      inject (poisonRead (memUncorrectable u (pageOf off) 0 mask.toNat) (pageOf off))
        (answer m 4 (List.replicate m.len 0) true 0) := by
    simp only [dramPlain, read, respondPoison, OfNat.one_ne_ofNat, if_false]
    rw [respond_answers _ m _ _ _ _ (.inl (by omega))]
  rw [answered]
  exact ⟨ev, by rw [reported], queued⟩

/-- A clean READ of a protected page whose block and slot stand passes every check (R402). -/
theorem dramProtected_clean {g off : Nat} (above : failedAbove u (pageOf off) = false) (sound : u.mem.poison = [])
    (slot : (u.ctr (pageOf off)).sel = 0) (active : (u.region g).slotA = 1) :
    ∃ t, TreeOnly u t ∧ dramProtected u m g off mask {} = inject t (answer m 0 (bytesRead 0 u.mem.data off m.len) false 0) := by
  have passes : protCheck u g off mask {} = (ctrUse u g (pageOf off) mask false, true) := by
    simp [protCheck, above, slot, active, sound]
  obtain ⟨nodes, failed, c0, c1, used⟩ := treeOnly_ctrUse u g (pageOf off) mask false
  refine ⟨_, treeOnly_ctrUse u g (pageOf off) mask false, ?_⟩
  simp only [dramProtected, passes, read, OfNat.one_ne_ofNat, if_false, if_true]
  rw [respond_answers _ m _ _ _ _ (.inl (by omega)), used, extBytes]

end

/-! ## External memory's commands (R380, R383, R392 to R394, R402, R407) -/

theorem dramReadComplete_idle (src : Fin 1024) (g : Byte) (r : DramResult) (s : State) (none : s.mem.waits = []) :
    Idle (.dramReadComplete src g r) s := congrArg Host.Outcome.next (dramComplete_noWaits s src g.toNat r none)

section
variable {src : Fin 1024} {g : Byte} {m : FabMsg} {r : DramResult} {off : Nat} {s t : State} (sole : OneWait s src g.toNat m)
  (read : m.cmd = 1) (target : dramTarget m.addr = (false, off)) (allowed : memAccess s m false off false = 0)
  (served : t.mem.waits = [])
include sole read target allowed served

theorem dramReadComplete_plain (plain : pageProtected s (pageOf off) = none)
    (answered : dramPlain (unwaited s) m false off (missMask s off m.len) r = t) : exec (.dramReadComplete src g r) s = .next t := by
  have reads := dramAnswer_read r sole read target allowed
  rw [plain, Option.elim_none, answered] at reads
  exact congrArg Host.Outcome.next ((dramComplete_sole r sole (by rw [reads, served])).trans reads)

theorem dramReadComplete_guarded {n : Nat} (guarded : pageProtected s (pageOf off) = some n)
    (answered : dramProtected (unwaited s) m n off (missMask s off m.len) r = t) : exec (.dramReadComplete src g r) s = .next t := by
  have reads := dramAnswer_read r sole read target allowed
  rw [guarded, Option.elim_some, answered] at reads
  exact congrArg Host.Outcome.next ((dramComplete_sole r sole (by rw [reads, served])).trans reads)

end

theorem dramReadComplete_cached (src : Fin 1024) (g : Byte) (m : FabMsg) (n off : Nat) (s : State) (sole : OneWait s src g.toNat m)
    (read : m.cmd = 1) (back : m.vc = 0) (target : dramTarget m.addr = (false, off)) (allowed : memAccess s m false off false = 0)
    (place : memPlace s off = .region n) (plain : pageProtected s (pageOf off) = none) (absent : cachedPage s (pageOf off) = none)
    (sound : s.mem.poison = []) (free : (cacheOf s (pageTile (pageOf off))).length < 16) :
    Does (.dramReadComplete src g {}) s fun t => t.fab = { s.fab with
        flight := s.fab.flight ++ [answer m 0 (bytesRead 0 s.mem.data off m.len) false 0] } ∧
      cachedPage t (pageOf off) = some { page := pageOf off, valid := BitVec.allOnes 32, dirty := 0 } ∧
      t.mem.data = s.mem.data ∧ t.mem.waits = [] ∧ SameExcept [.fab, .mem] s t := by
  have answered := dramPlain_clean (unwaited s) read back (missMask s off m.len) place absent sound free
  have resident := cachedPage_pageFetched (unwaited s) (pageOf off)
  obtain ⟨c0, c1, only⟩ := pageFetched_only (unwaited s) (pageOf off)
  rw [only] at answered resident
  exact ⟨_, dramReadComplete_plain sole read target allowed rfl plain answered, rfl, resident, rfl, rfl,
    by simp [SameExcept, inject]⟩

theorem dramReadComplete_poison (src : Fin 1024) (g : Byte) (m : FabMsg) (off : Nat) (s : State) (sole : OneWait s src g.toNat m)
    (read : m.cmd = 1) (back : m.vc = 0) (target : dramTarget m.addr = (false, off)) (allowed : memAccess s m false off false = 0)
    (plain : pageProtected s (pageOf off) = none)
    (first : mapGet? s.ev.rate (rateKey 0x0C02 (pageChannel (pageOf off))) = none) (room : Room 1 s) :
    Does (.dramReadComplete src g { dataPage := .uncorrectable }) s fun t => t.fab = { s.fab with
        flight := s.fab.flight ++ [answer m 4 (List.replicate m.len 0) true 0] } ∧
      mapGet t.mem.chans (pageChannel (pageOf off)) {} =
        { mapGet s.mem.chans (pageChannel (pageOf off)) {} with
          uncorrectable := min ((mapGet s.mem.chans (pageChannel (pageOf off)) {}).uncorrectable + 1) (2 ^ 32 - 1),
          poisonRead := min ((mapGet s.mem.chans (pageChannel (pageOf off)) {}).poisonRead + 1) (2 ^ 32 - 1) } ∧
      Queued t 8 (pageChannel (pageOf off) / 6) 0x0C02 ∧ t.mem.data = s.mem.data ∧ SameExcept [.fab, .mem, .ev] s t := by
  obtain ⟨ev, answered, queued⟩ := dramPlain_uncorrectable (unwaited s) read back (missMask s off m.len) off first room
  rw [answered] at queued
  refine ⟨_, dramReadComplete_plain sole read target allowed rfl plain answered, rfl, ?_, queued, rfl, ?_⟩
  · simp [inject, poisonRead, uncorrectableCounted, modChan, mapMod, satAdd]
  · simp [SameExcept, inject, poisonRead, uncorrectableCounted, modChan]

theorem dramReadComplete_protected (src : Fin 1024) (g : Byte) (m : FabMsg) (n off : Nat) (s : State) (sole : OneWait s src g.toNat m)
    (read : m.cmd = 1) (back : m.vc = 0) (target : dramTarget m.addr = (false, off)) (allowed : memAccess s m false off false = 0)
    (guarded : pageProtected s (pageOf off) = some n) (above : failedAbove s (pageOf off) = false) (sound : s.mem.poison = [])
    (slot : (s.ctr (pageOf off)).sel = 0) (active : (s.region n).slotA = 1) :
    Does (.dramReadComplete src g {}) s fun t => t.fab = { s.fab with
        flight := s.fab.flight ++ [answer m 0 (bytesRead 0 s.mem.data off m.len) false 0] } ∧
      t.mem.data = s.mem.data ∧ t.mem.regions = s.mem.regions ∧ t.mem.waits = [] ∧ SameExcept [.fab, .mem] s t := by
  obtain ⟨_, ⟨nodes, failed, c0, c1, rfl⟩, answered⟩ :=
    dramProtected_clean (unwaited s) read back (missMask s off m.len) above sound slot active
  refine ⟨_, dramReadComplete_guarded sole read target allowed rfl guarded answered, rfl, rfl, rfl, rfl, ?_⟩
  simp [SameExcept, inject]

/-! ## Regions whose initialisation completes (R383) -/

theorem regionInitComplete_idle (g : Fin 32) (s : State) (other : (s.region g).st ≠ 1) : Idle (.regionInitComplete g) s :=
  congrArg Host.Outcome.next (if_pos other)

theorem regionInitComplete_opens (g : Fin 32) (s : State) (initialising : (s.region g).st = 1) (room : Room 1 s) :
    Does (.regionInitComplete g) s fun t => t.region g = { s.region g with st := 2 } ∧
      (∀ j, j ≠ g.val → t.region j = s.region j) ∧
      (∀ a, byteAt 0 t.mem.data a =
        if (s.region g).base ≤ a ∧ a < (s.region g).base + (s.region g).size then 0 else byteAt 0 s.mem.data a) ∧
      Raised s t 8 0 0x0C04 1 (leBytes 1 g ++ leBytes 1 (s.region g).mode ++ leBytes 1 0) ∧ SameExcept [.mem, .ev] s t := by
  exact ⟨_, congrArg Host.Outcome.next ((if_neg (not_not.mpr initialising)).trans (raise_joins _ _ _ _ _ room)),
    State.region_setRegion_self _ _ _, fun j other => State.region_setRegion_ne _ _ _ other, byteAt_bytesClear 0 _ _ _, rfl,
    by simp [SameExcept, State.setRegion, dropPages]⟩

/-! ## The scrubber (R394) -/

theorem scrubPage_early (d : Decode) (s : State) (early : scrubDue s = false) : Idle (.scrubPage d) s := by
  refine congrArg Host.Outcome.next ?_
  unfold scrubPage
  split
  · rfl
  · exact if_pos (by simp [early])

/-- The scrubber's pass is over and the next begins. -/
def scrubPassed (s : State) : State := { s with mem := { s.mem with
  scrubPage := 0, scrubAt := s.now, scrubPass := (s.mem.scrubPass + 1) % 2 ^ 32, scrubCorrected := 0, scrubUncorr := 0 } }

section
variable (p : Nat) (s : State) (next : nextScrub s s.mem.scrubPage = some p) (due : scrubDue s = true)
include next due

theorem scrubPage_walks (more : (nextScrub s (p + 1)).isSome = true) :
    Does (.scrubPage .clean) s fun t => t.mem = { s.mem with scrubPage := p + 1, scrubAt := s.now } ∧ SameExcept [.mem] s t := by
  obtain ⟨q, more⟩ := Option.isSome_iff_exists.mp more
  have walks : scrubPage s .clean = { s with mem := { s.mem with scrubPage := p + 1, scrubAt := s.now } } := by
    simp [scrubPage, next, due, more]
  exact ⟨_, congrArg Host.Outcome.next walks, rfl, by simp [SameExcept]⟩

theorem scrubPage_passes (last : nextScrub s (p + 1) = none) (room : Room 1 s) :
    Does (.scrubPage .clean) s fun t => t.mem = { s.mem with
        scrubPage := 0, scrubAt := s.now, scrubPass := (s.mem.scrubPass + 1) % 2 ^ 32, scrubCorrected := 0, scrubUncorr := 0 } ∧
      Raised s t 8 0 0x0C03 0 (leBytes 4 s.mem.scrubPass ++ leBytes 4 s.mem.scrubCorrected ++ leBytes 4 s.mem.scrubUncorr) ∧
      SameExcept [.mem, .ev] s t := by
  have reports : scrubPage s .clean = raise (scrubPassed s) 8 0 0x0C03
      (leBytes 4 s.mem.scrubPass ++ leBytes 4 s.mem.scrubCorrected ++ leBytes 4 s.mem.scrubUncorr) := by
    simp [scrubPage, next, due, last, scrubPassed]
  exact ⟨_, congrArg Host.Outcome.next (reports.trans (raise_joins _ _ _ _ _ room)), rfl, rfl, by simp [SameExcept, scrubPassed]⟩

end

/-! ## Re-key sweeps (R407) -/

theorem rekeySweepPage_idle (g : Fin 32) (d : Decode) (l : List (Fin 32)) (s : State)
    (rests : (s.region g).sweep = none ∨ rekeyDue s (s.region g) = false) : Idle (.rekeySweepPage g d l) s := by
  refine congrArg Host.Outcome.next ?_
  unfold rekeySweepPage
  dsimp only
  split
  · rfl
  case h_2 p sweeps =>
    have early : rekeyDue s (s.region g) = false := rests.resolve_left (by simp [sweeps])
    exact if_pos (by simp [early])

/-- The state after a sweep has written page `p` of region `g`: no line of it reads as poison, and its counter block starts over
under the slot that the sweep moves to. -/
def pageRekeyed (s : State) (g p : Nat) : State :=
  ctrUse
    (clearFailed
      (unpoisonLines
        { s with mem := { s.mem with
            ctrs := mapSet s.mem.ctrs p { major := (s.ctr p).major + 1, minors := [], sel := sweepSlot (s.region g) } } }
        (maskLines p (BitVec.allOnes 32)))
      (blockKey g (pageTile p) 0 (pageIdx s g p)))
    g p (BitVec.allOnes 32) true

theorem pageRekeyed_only (s : State) (g p : Nat) (sound : s.mem.poison = []) :
    ∃ nodes failed c0 c1, pageRekeyed s g p = { s with mem := { s.mem with
      ctrs := mapSet s.mem.ctrs p { major := (s.ctr p).major + 1, minors := [], sel := sweepSlot (s.region g) }
      nodes := nodes, failed := failed, ctrCache0 := c0, ctrCache1 := c1 } } := by
  obtain ⟨nodes, failed, c0, c1, used⟩ := treeOnly_ctrUse _ g p (BitVec.allOnes 32) true
  exact ⟨nodes, failed, c0, c1, used.trans (by simp [clearFailed, unpoisonLines, sound])⟩

theorem pageRekeyed_region (s : State) (g p : Nat) (sound : s.mem.poison = []) : (pageRekeyed s g p).region g = s.region g := by
  obtain ⟨_, _, _, _, only⟩ := pageRekeyed_only s g p sound
  rw [only]
  rfl

theorem satAdd_zero {w n : Nat} (fits : n < 2 ^ w) : satAdd w n 0 = n := by
  unfold satAdd
  omega

/-- The region when its sweep has moved every page to slot `sel`: the other slot is retired. -/
def otherRetired (r : Region) (sel : Nat) : Region :=
  if sel = 1 then { r with slotA := 2, keyA := 0 } else { r with slotB := 2, keyB := 0 }

/-- The region's sweep goes on from page `p`, which state `u` holds rewritten; after the region's last page it ends. -/
def sweepNoted (s : State) (g p : Nat) (u : State) : State :=
  let swept : Region := { u.region g with sweepPoisoned := satAdd 32 (u.region g).sweepPoisoned 0, sweepAt := s.now }
  if (p + 1) * 2048 < (s.region g).base + (s.region g).size then u.setRegion g { swept with sweep := some (p + 1) }
  else
    raise (u.setRegion g (otherRetired { swept with sweep := none } (sweepSlot (s.region g)))) 8 0 0x0D03
      (leBytes 1 g ++ leBytes 1 (sweepSlot (s.region g)) ++ leBytes 2 (s.region g).epoch ++ leBytes 4 swept.sweepPoisoned)

section
variable (g : Fin 32) (p : Nat) (s : State) (sweeps : (s.region g).sweep = some p) (above : failedAbove s p = false)
  (sound : s.mem.poison = []) (due : rekeyDue s (s.region g) = true)
include sweeps above sound due

theorem rekeySweepPage_clean : rekeySweepPage s g .clean [] = sweepNoted s g p (pageRekeyed s g p) := by
  have noPoison : ∀ f, s.mem.poison.filter f = [] := by simp [sound]
  unfold rekeySweepPage
  simp only [sweeps, above, due, noPoison, Bool.not_true, Bool.false_eq_true, if_false, List.filter_nil]
  rfl

theorem rekeySweepPage_goesOn (more : (p + 1) * 2048 < (s.region g).base + (s.region g).size)
    (counted : (s.region g).sweepPoisoned < 2 ^ 32) :
    Does (.rekeySweepPage g .clean []) s fun t => t.region g = { s.region g with sweep := some (p + 1), sweepAt := s.now } ∧
      t.ctr p = { major := (s.ctr p).major + 1, minors := [], sel := sweepSlot (s.region g) } ∧
      (∀ q, q ≠ p → t.ctr q = s.ctr q) ∧ t.mem.data = s.mem.data ∧ SameExcept [.mem] s t := by
  have swept := rekeySweepPage_clean g p s sweeps above sound due
  obtain ⟨nodes, failed, c0, c1, only⟩ := pageRekeyed_only s g p sound
  rw [sweepNoted, if_pos more, pageRekeyed_region s g p sound, satAdd_zero counted, only] at swept
  exact ⟨_, congrArg Host.Outcome.next swept, State.region_setRegion_self _ _ _, mapGet_mapSet_self _ _ _ _,
    fun q other => mapGet_mapSet_ne _ _ _ other, rfl, by simp [SameExcept, State.setRegion]⟩

theorem rekeySweepPage_ends (last : (s.region g).base + (s.region g).size ≤ (p + 1) * 2048) (slotB : sweepSlot (s.region g) = 1)
    (whole : (s.region g).sweepPoisoned = 0) (room : Room 1 s) :
    Does (.rekeySweepPage g .clean []) s fun t =>
      t.region g = { s.region g with sweep := none, slotA := 2, keyA := 0, sweepAt := s.now } ∧
      t.ctr p = { major := (s.ctr p).major + 1, minors := [], sel := 1 } ∧
      Raised s t 8 0 0x0D03 1 (leBytes 1 g ++ leBytes 1 1 ++ leBytes 2 (s.region g).epoch ++ leBytes 4 0) ∧
      SameExcept [.mem, .ev] s t := by
  have swept := rekeySweepPage_clean g p s sweeps above sound due
  obtain ⟨nodes, failed, c0, c1, only⟩ := pageRekeyed_only s g p sound
  rw [sweepNoted, if_neg (Nat.not_lt.mpr last), pageRekeyed_region s g p sound, whole, satAdd_zero (by decide), only, slotB,
    otherRetired, if_pos rfl] at swept
  refine ⟨_, congrArg Host.Outcome.next (swept.trans (raise_joins _ _ _ _ _ room)), ?_, mapGet_mapSet_self _ _ _ _, rfl, ?_⟩
  · rw [← whole]
    exact State.region_setRegion_self _ _ _
  · simp [SameExcept, State.setRegion]

end

/-! ## Temperature (R380) -/

theorem temperaturePoll_early (ch : Fin 12) (hot : Bool) (s : State) (early : s.now < (mapGet s.mem.chans ch {}).mr4At + 32 * tcMs) :
    Idle (.temperaturePoll ch hot) s := congrArg Host.Outcome.next (if_pos early)

theorem temperaturePoll_notes (ch : Fin 12) (hot : Bool) (s : State) (due : (mapGet s.mem.chans ch {}).mr4At + 32 * tcMs ≤ s.now) :
    Does (.temperaturePoll ch hot) s fun t =>
      mapGet t.mem.chans ch {} = { mapGet s.mem.chans ch {} with hot := hot, mr4At := s.now } ∧
      (∀ j, j ≠ ch.val → mapGet t.mem.chans j {} = mapGet s.mem.chans j {}) ∧ SameExcept [.mem] s t :=
  ⟨_, congrArg Host.Outcome.next (if_neg (Nat.not_lt.mpr due)), mapGet_mapSet_self _ _ _ _,
    fun _ other => mapGet_mapSet_ne _ _ _ other, by simp [SameExcept, modChan]⟩

/-- Settles O40, clause by clause: each command's own lemma above says what it does to its page, region or channel. -/
theorem externalMemory : Obligations.ExternalMemory :=
  ⟨dramReadComplete_idle, dramReadComplete_cached, dramReadComplete_poison, dramReadComplete_protected, regionInitComplete_idle,
   regionInitComplete_opens, scrubPage_early, scrubPage_walks, scrubPage_passes, rekeySweepPage_idle, rekeySweepPage_goesOn,
   rekeySweepPage_ends, temperaturePoll_early, temperaturePoll_notes⟩

end Sys2Proof.Machine
end

section
namespace Sys2Proof.Machine

open Sys2Proof.Claims

/-! ## When a re-key sweep starts (R407) -/

theorem HostOnly.region {s t : State} (h : HostOnly s t) (g : Nat) : t.region g = s.region g := by
  obtain ⟨host, ev, rfl⟩ := h
  rfl

/-- A PROT_REKEY that starts its sweep notes the Air Time: the sweep's first page is due one page's time later (R407). -/
theorem cmdRekey_sweepAt (rq : Req) (s : State) (ready : (s.region rq.inst).st = 2) (prot : (s.region rq.inst).mode = 2)
    (idle : (s.region rq.inst).sweep = none) : ((cmdRekey rq s).region rq.inst).sweepAt = s.now := by
  unfold cmdRekey
  dsimp only
  rw [if_neg (by simp [ready, prot]), if_neg (by simp [ready, idle]), (hostOnly_replyOk _ _ _).region, State.region_setRegion_self]
  split <;> rfl

theorem protRekey_sweepAt (rq : Req) (p : List Byte) (s : State) (h : Accepts s rq 0x0504 p.length)
    (ready : (s.region rq.inst).st = 2) (prot : (s.region rq.inst).mode = 2) (idle : (s.region rq.inst).sweep = none) :
    Does (.protRekey rq p) s fun t => (t.region rq.inst).sweepAt = s.now :=
  does_of_body rfl h fun host _ => cmdRekey_sweepAt (asOp rq 0x0504) { s with host := host } ready prot idle

/-- What a command that leads to a state leaves there of a region stands after its reply. -/
theorem leads_region {i : Instr} {rq : Req} {op : Nat} {pl : List Byte} {P : State → Prop} {s : State} (h : Leads i rq op pl P s)
    {g : Nat} {r : Region} (region : ∀ u, P u → u.region g = r) : Does i s fun t => t.region g = r := by
  obtain ⟨u, runs, hu⟩ := h
  exact ⟨_, runs, ((hostOnly_replyOk u _ _).region g).trans (region u hu)⟩

/-- Refutes O48: its clause for PROT_REKEY lists what changes of the region and leaves out the Air Time of the sweep's start, from
which the sweep's first page is due (R407).  Here a device in RUN at Air Time 1 re-keys protected region 0, whose last sweep is
noted at 0. -/
theorem not_delazMemory : ¬ Obligations.DelazMemory := by
  rintro ⟨-, -, -, -, -, rekey, -⟩
  let s : State := {
    time := { air := 2 ^ 32 }, boot := { devState := 1 }, power := { on := List.range 96 }
    mem := { regions := [(0, { st := 2, mode := 2, base := 0x10000000, size := 0x4000000, slotA := 1 })] } }
  let rq : Req := { port := 4, opcode := 0, tag := 7, seq := 1, quiet := false, scope := 8, inst := 0 }
  have accepts : Accepts s rq 0x0504 ([] : List Byte).length := by decide
  obtain ⟨t, leads, kept⟩ := leads_region (rekey rq [] s accepts rfl rfl rfl rfl) fun u ⟨region, _⟩ => region
  obtain ⟨u, runs, noted⟩ := protRekey_sweepAt rq [] s accepts rfl rfl rfl
  obtain rfl : t = u := Host.Outcome.next.inj (leads.symm.trans runs)
  have still : (t.region rq.inst).sweepAt = 0 := congrArg Region.sweepAt kept
  exact absurd (noted.symm.trans still) (by decide)

end Sys2Proof.Machine
end

section
namespace Sys2Proof.Machine

/-! ## The step, the queue and reset -/

/-- Settles O1: the front command is the head of the queue, and the rest is what is behind it. -/
theorem stepRunsFrontCommand : Obligations.StepRunsFrontCommand := by
  refine ⟨fun c s => rfl, fun c rest s h => ?_⟩
  unfold step
  rw [h]

/-- Settles O2, from what every command keeps (`exec_keeps`). -/
theorem commandsLeaveTheQueue : Obligations.CommandsLeaveTheQueue := fun c s =>
  let ⟨t, runs, kept⟩ := exec_keeps c s
  ⟨t, runs, kept.pending⟩

/-- Settles O4: no command waits at reset, and every other part of the invariant speaks of a reset value. -/
theorem resetSatisfiesInvariant : Obligations.ResetSatisfiesInvariant := by
  refine ⟨fun i h => ?_, ?_⟩
  · cases h
  · decide

end Sys2Proof.Machine
end

section
namespace Sys2Proof.Machine

open Sys2Proof.Claims

/-! ## An instruction of a channel program that is taken (R414, R415, R421) -/

section
variable {s : State} {c op kind : Nat} {bs : List Byte} {body : State → Nat → List Byte → State}

theorem dmaInstr_notRunning (stands : (s.chan c).st ≠ 1) : dmaInstr s c op kind bs body = s := by
  unfold dmaInstr
  exact if_pos (by simp [chanReady, stands])

theorem dmaInstr_unreachable (runs : (s.chan c).st = 1) (noMove : (s.chan c).move = none) (denied : dmaMay s c (s.chan c).pc = false) :
    dmaInstr s c op kind bs body = chanFail s c dmaPermission (s.chan c).pc := by
  simp [dmaInstr, chanReady, runs, noMove, denied]

/-- A channel that runs, whose owner may reach the instruction's bytes, takes an instruction of its row's kind. -/
theorem dmaInstr_taken (runs : (s.chan c).st = 1) (noMove : (s.chan c).move = none) (may : dmaMay s c (s.chan c).pc = true)
    (mayLast : dmaMay s c ((s.chan c).pc + (if op = 1 then 64 else 16) - 1) = true) (known : 1 ≤ op ∧ op ≤ 5)
    (isOp : rd bs 0 1 = op) (isKind : op = 3 ∨ op = 4 → rd bs 1 1 = kind ∧ 1 ≤ kind ∧ kind ≤ 3) :
    dmaInstr s c op kind bs body = body s c bs := by
  have ready : ¬((!chanReady s c) = true) := by simp [chanReady, runs, noMove]
  have opcode : ¬((decide (op = 0) || decide (5 < op)) = true) := by
    simp only [Bool.or_eq_true, decide_eq_true_eq]
    omega
  unfold dmaInstr
  simp only [ready, may, mayLast, Bool.and_self, Bool.not_true, Bool.false_eq_true, if_false, opcode, isOp, ne_eq, not_true_eq_false]
  by_cases sorted : op = 3 ∨ op = 4
  · obtain ⟨same, low, high⟩ := isKind sorted
    have named : ¬(kind = 0 ∨ 3 < kind) := by omega
    simp [same, named]
  · simp [sorted]

/-- A channel that runs outside every loop takes an instruction of 16 bytes of its row's kind. -/
theorem dmaInstr_runs (runs : Runs s c 16) (isOp : rd bs 0 1 = op) (short : 2 ≤ op ∧ op ≤ 5)
    (isKind : op = 3 ∨ op = 4 → rd bs 1 1 = kind ∧ 1 ≤ kind ∧ kind ≤ 3) : dmaInstr s c op kind bs body = body s c bs := by
  obtain ⟨running, noMove, -, may, mayLast⟩ := runs
  have long : op ≠ 1 := by omega
  exact dmaInstr_taken running noMove may (by simpa [long] using mayLast) (by omega) isOp isKind

theorem dmaInstr_unknown (runs : Runs s c 16) (long : op ≠ 1) (unknown : rd bs 0 1 = 0 ∨ 5 < rd bs 0 1) :
    dmaInstr s c op kind bs body = chanFail s c dmaIllegal 0 := by
  obtain ⟨running, noMove, -, may, mayLast⟩ := runs
  unfold dmaInstr
  simp only [chanReady, running, noMove, if_neg long, may, mayLast, decide_true, Option.isNone_none, Bool.and_self, Bool.not_true,
    Bool.false_eq_true, if_false]
  exact if_pos (by simpa using unknown)

end

/-- One byte is below 256. -/
theorem rd_one_lt (bs : List Byte) (i : Nat) : rd bs i 1 < 256 := by
  calc rd bs i 1 < 256 ^ (slice bs i 1).length := leNat_lt _
    _ ≤ 256 ^ 1 := Nat.pow_le_pow_right (by decide) (by simp [slice])

/-- A flag cleared is clear, and every other is as it was. -/
theorem getLsbD_cleared (x : BitVec 256) (f j : Nat) :
    (x &&& ~~~((1 : BitVec 256) <<< f)).getLsbD j = (decide (j ≠ f) && x.getLsbD j) := by
  have one : (1 : BitVec 256) <<< f = BitVec.twoPow 256 f := rfl
  rw [one]
  by_cases inside : j < 256
  · by_cases same : j = f
    · simp [same]
    · simp [BitVec.getElem_twoPow, inside, same]
  · rw [BitVec.getLsbD_of_ge _ _ (by omega), BitVec.getLsbD_of_ge x _ (by omega), Bool.and_false]

/-- A MOVE, or a row of a short instruction, takes its channel's bytes to a body of its own. -/
theorem instr_row {i : Instr} {c : ChanId} {bs : List Byte} (row : i = .move c bs ∨ IsShortRow i c bs) :
    ∃ op kind body, ∀ s, exec i s = .next (dmaInstr s c op kind bs body) := by
  rcases row with rfl | rfl | rfl | rfl | rfl | rfl | rfl | rfl | rfl <;> exact ⟨_, _, _, fun _ => rfl⟩

theorem shortRow_row {i : Instr} {c : ChanId} {bs : List Byte} (row : IsShortRow i c bs) :
    ∃ op kind body, op ≠ 1 ∧ ∀ s, exec i s = .next (dmaInstr s c op kind bs body) := by
  rcases row with rfl | rfl | rfl | rfl | rfl | rfl | rfl | rfl <;> exact ⟨_, _, _, by decide, fun _ => rfl⟩

/-! ## Channels that go on (R422, R423) -/

section
variable {s : State} {c : Nat}

/-- The channel, taken to another value by its own instruction. -/
theorem chanAs_set (s : State) (c : Nat) (x : Chan) : ChanAs s c x (s.setChan c x) := (ChanAs.refl s c).setChan x

theorem chanAs_advance {x : Chan} (straight : x.loops = []) :
    ChanAs s c { x with pc := (x.pc + 16) % 2 ^ 64 } (s.setChan c (chanAdvance x 16)) := by
  rw [chanAdvance_straight 16 straight]
  exact chanAs_set s c _

/-- An advance to the end of a loop's body, in an iteration before the last, goes back to the body's start. -/
theorem chanAdvance_around {x : Chan} {v : LoopLevel} {rest : List LoopLevel} (loops : x.loops = v :: rest)
    (last : (x.pc + 16) % 2 ^ 64 = v.last) (more : v.idx + 1 < v.count) :
    chanAdvance x 16 = { x with pc := v.first, loops := { v with idx := v.idx + 1 } :: rest } := by
  simp only [chanAdvance, loopBack, loops, last, if_true, more]

theorem loopIdx_straight {x : Chan} (straight : x.loops = []) (l : Nat) : loopIdx x l = 0 := by
  simp [loopIdx, straight]

/-- A channel that issues a request which waits for its response. -/
theorem ChanAs.issues {t : State} {x : Chan} (h : ChanAs s c x t) (cmd addr len seq : Nat) (data : List Byte) :
    let u := issue t (dmaNode (chanEngine c)) c cmd 0 addr len seq data 0
    u.chan c = x ∧ OtherChans s u c ∧ u.dma.engines = s.dma.engines ∧ Issues s u c seq (dmaPacket s c cmd 0 addr len data) ∧
      SameExcept [.dma, .fab] s u := by
  obtain ⟨here, there, l, rfl⟩ := h
  exact ⟨here, there, rfl, rfl, by simp [SameExcept, issue, inject]⟩

/-- A channel that goes on and posts a write on VC3. -/
theorem ChanAs.posts {t : State} {x : Chan} (h : ChanAs s c { x with pc := (x.pc + 16) % 2 ^ 64 } t) (cmd addr len : Nat)
    (data : List Byte) :
    let u := issue t (dmaNode (chanEngine c)) c cmd 3 addr len 0 data 0
    Advances s u c 16 x ∧ Posts s u (dmaPacket s c cmd 3 addr len data) ∧ SameExcept [.dma, .fab] s u := by
  obtain ⟨here, there, l, rfl⟩ := h
  exact ⟨⟨here, there, rfl⟩, rfl, by simp [SameExcept, issue, inject]⟩

end

/-! ## The instructions (R414, R421 to R423, R428) -/

section
variable (c : ChanId) (bs : List Byte) (s : State)

theorem instr_idle (stands : (s.chan c).st ≠ 1) (i : Instr) (row : i = .move c bs ∨ IsShortRow i c bs) : Idle i s := by
  obtain ⟨op, kind, body, runs⟩ := instr_row row
  rw [Idle, runs, dmaInstr_notRunning stands]

theorem instr_denied (runs : (s.chan c).st = 1) (noMove : (s.chan c).move = none) (denied : dmaMay s c (s.chan c).pc = false)
    (quiet : chanOut s c = []) (room : Room 1 s) (i : Instr) (row : i = .move c bs ∨ IsShortRow i c bs) :
    Does i s fun t => Halts s t c 4 (s.chan c).pc := by
  obtain ⟨op, kind, body, taken⟩ := instr_row row
  exact ⟨_, (taken s).trans (congrArg _ (dmaInstr_unreachable runs noMove denied)), chanFail_halts s c 4 _ quiet room⟩

theorem instr_illegal (runs : Runs s c 16) (unknown : rd bs 0 1 = 0 ∨ 5 < rd bs 0 1) (quiet : chanOut s c = []) (room : Room 1 s)
    (i : Instr) (row : IsShortRow i c bs) : Does i s fun t => Halts s t c 1 0 := by
  obtain ⟨op, kind, body, long, taken⟩ := shortRow_row row
  exact ⟨_, (taken s).trans (congrArg _ (dmaInstr_unknown runs long unknown)), chanFail_halts s c 1 0 quiet room⟩

section
variable (runs : Runs s c 16) (isLoop : rd bs 0 1 = 2)
include runs isLoop

theorem loop_row : exec (.loop c bs) s = .next (dmaLoop s c bs) :=
  congrArg Host.Outcome.next (dmaInstr_runs runs isLoop (by decide) (by simp))

theorem loop_enters (body : rd bs 2 2 ≠ 0) (count : rd bs 4 4 ≠ 0) :
    Does (.loop c bs) s fun t => t.chan c = { s.chan c with
        pc := (s.chan c).pc + 16,
        loops := [{ first := (s.chan c).pc + 16, last := (s.chan c).pc + 16 + 16 * rd bs 2 2, idx := 0, count := rd bs 4 4 }] } ∧
      OtherChans s t c ∧ t.dma.engines = s.dma.engines ∧ SameExcept [.dma] s t := by
  obtain ⟨-, -, straight, -, -⟩ := id runs
  refine ⟨_, loop_row c bs s runs isLoop, ?_⟩
  simp only [dmaLoop, straight, body, count, Bool.false_eq_true, if_false, List.length_nil, show ¬4 ≤ 0 by decide]
  exact (chanAs_set s c _).spec

theorem loop_skips (body : rd bs 2 2 ≠ 0) (count : rd bs 4 4 = 0) :
    Does (.loop c bs) s fun t => t.chan c = { s.chan c with pc := (s.chan c).pc + 16 + 16 * rd bs 2 2 } ∧
      OtherChans s t c ∧ t.dma.engines = s.dma.engines ∧ SameExcept [.dma] s t := by
  obtain ⟨-, -, straight, -, -⟩ := id runs
  refine ⟨_, loop_row c bs s runs isLoop, ?_⟩
  simp only [dmaLoop, straight, body, count, Bool.false_eq_true, if_false, if_true, loopBack]
  exact (chanAs_set s c _).spec

theorem loop_bodiless (body : rd bs 2 2 = 0) (quiet : chanOut s c = []) (room : Room 1 s) :
    Does (.loop c bs) s fun t => Halts s t c 2 0 := by
  refine ⟨_, loop_row c bs s runs isLoop, ?_⟩
  simp only [dmaLoop, body, if_true]
  exact chanFail_halts s c 2 0 quiet room

end

theorem waitAirtime_around (v : LoopLevel) (rest : List LoopLevel) (runs : (s.chan c).st = 1) (noMove : (s.chan c).move = none)
    (may : dmaMay s c (s.chan c).pc = true) (mayLast : dmaMay s c ((s.chan c).pc + 15) = true) (loops : (s.chan c).loops = v :: rest)
    (isWait : rd bs 0 1 = 3) (isTime : rd bs 1 1 = 1) (passed : reached (s.localNow 1 (c / 32)) (rd bs 8 8 + v.idx * rd bs 4 4) = true)
    (last : ((s.chan c).pc + 16) % 2 ^ 64 = v.last) (more : v.idx + 1 < v.count) :
    Does (.waitAirtime c bs) s fun t => t.chan c = { s.chan c with
        pc := v.first, loops := { v with idx := v.idx + 1 } :: rest } ∧
      OtherChans s t c ∧ t.dma.engines = s.dma.engines ∧ SameExcept [.dma] s t := by
  refine ⟨_, congrArg Host.Outcome.next (dmaInstr_taken runs noMove may mayLast (by decide) isWait fun _ => ⟨isTime, by decide⟩), ?_⟩
  have index : loopIdx (s.chan c) 0 = v.idx := by simp [loopIdx, loops]
  simp only [dmaWaitAirtime, index, passed, if_true, chanAdvance_around loops last more]
  exact (chanAs_set s c _).spec

section
variable (runs : Runs s c 16) (isWait : rd bs 0 1 = 3) (isTime : rd bs 1 1 = 1)
include runs isWait isTime

theorem waitAirtime_row : exec (.waitAirtime c bs) s = .next
    (if reached (s.localNow 1 (c / 32)) (rd bs 8 8) then s.setChan c (chanAdvance (s.chan c) 16)
      else s.setChan c { s.chan c with st := 2, wait := some (1, rd bs 8 8, false) }) := by
  obtain ⟨-, -, straight, -, -⟩ := id runs
  refine congrArg Host.Outcome.next ((dmaInstr_runs runs isWait (by decide) fun _ => ⟨isTime, by decide⟩).trans ?_)
  simp only [dmaWaitAirtime, loopIdx_straight straight, Nat.zero_mul, Nat.add_zero]

theorem waitAirtime_passes (passed : reached (s.localNow 1 (c / 32)) (rd bs 8 8) = true) :
    Does (.waitAirtime c bs) s fun t => Advances s t c 16 (s.chan c) ∧ SameExcept [.dma] s t := by
  obtain ⟨-, -, straight, -, -⟩ := id runs
  obtain ⟨here, there, engines, frame⟩ := (chanAs_advance (s := s) (c := c) straight).spec
  exact ⟨_, (waitAirtime_row c bs s runs isWait isTime).trans (by rw [if_pos passed]), ⟨here, there, engines⟩, frame⟩

theorem waitAirtime_waits (ahead : reached (s.localNow 1 (c / 32)) (rd bs 8 8) = false) :
    Does (.waitAirtime c bs) s fun t => t.chan c = { s.chan c with st := 2, wait := some (1, rd bs 8 8, false) } ∧
      OtherChans s t c ∧ t.dma.engines = s.dma.engines ∧ SameExcept [.dma] s t :=
  ⟨_, (waitAirtime_row c bs s runs isWait isTime).trans (by rw [ahead, if_neg Bool.false_ne_true]), (chanAs_set s c _).spec⟩

end

theorem waitAirtimeReached_releases (u : Nat) (b : Bool) (waits : (s.chan c).st = 2) (wait : (s.chan c).wait = some (1, u, b))
    (straight : (s.chan c).loops = []) (passed : reached (s.localNow 1 (c / 32)) u = true) :
    Does (.waitAirtimeReached c) s fun t => Advances s t c 16 { s.chan c with st := 1, wait := none } ∧ SameExcept [.dma] s t := by
  have releases : dmaAirtimeReached s c = chanRelease s c := by simp [dmaAirtimeReached, wait, waits, passed]
  obtain ⟨here, there, engines, frame⟩ := (chanRelease_straight s c straight).spec
  exact ⟨_, congrArg Host.Outcome.next releases, ⟨here, there, engines⟩, frame⟩

theorem noWait_idle (noWait : (s.chan c).wait = none) : Idle (.waitAirtimeReached c) s ∧ Idle (.counterPoll c) s :=
  ⟨congrArg Host.Outcome.next (by simp only [dmaAirtimeReached, noWait]),
   congrArg Host.Outcome.next (by simp only [dmaCounterPoll, noWait])⟩

section
variable (runs : Runs s c 16) (isWait : rd bs 0 1 = 3) (isCounter : rd bs 1 1 = 2)
include runs isWait isCounter

theorem waitCounter_row : exec (.waitCounter c bs) s = .next (dmaWaitCounter s c bs) :=
  congrArg Host.Outcome.next (dmaInstr_runs runs isWait (by decide) fun _ => ⟨isCounter, by decide⟩)

theorem waitCounter_reads (owner : s.chanOwner c = 0) (tag : tagLeft s (dmaNode (chanEngine c)) = true) :
    Does (.waitCounter c bs) s fun t =>
      t.chan c = { s.chan c with st := 2, wait := some (2, rd bs 8 2 % 65536, false), pollAt := s.now } ∧
      OtherChans s t c ∧ t.dma.engines = s.dma.engines ∧
      Issues s t c 0 (dmaPacket s c 1 0 (counterAddr (rd bs 8 2 % 65536)) 8 []) ∧ SameExcept [.dma, .fab] s t := by
  obtain ⟨-, -, straight, -, -⟩ := id runs
  refine ⟨_, waitCounter_row c bs s runs isWait isCounter, ?_⟩
  simp only [dmaWaitCounter, owner, tag, loopIdx_straight straight, Nat.zero_mul, Nat.add_zero, ne_eq, not_true_eq_false, if_false,
    Bool.not_true, Bool.false_eq_true, issuePoll, State.chan_setChan_self]
  exact ((chanAs_set s c _).setChan _).issues _ _ _ _ _

theorem waitCounter_denied (owner : s.chanOwner c ≠ 0) (quiet : chanOut s c = []) (room : Room 1 s) :
    Does (.waitCounter c bs) s fun t => Halts s t c 4 (counterAddr (rd bs 8 2 % 65536)) := by
  obtain ⟨-, -, straight, -, -⟩ := id runs
  refine ⟨_, waitCounter_row c bs s runs isWait isCounter, ?_⟩
  simp only [dmaWaitCounter, owner, loopIdx_straight straight, Nat.zero_mul, Nat.add_zero, ne_eq, not_false_eq_true, if_true]
  exact chanFail_halts s c 4 _ quiet room

end

theorem counterPoll_reads (k : Nat) (b : Bool) (waits : (s.chan c).st = 2) (wait : (s.chan c).wait = some (2, k, b))
    (quiet : chanReads s c = []) (due : pollDue s c = true) (tag : tagLeft s (dmaNode (chanEngine c)) = true) :
    Does (.counterPoll c) s fun t => t.chan c = { s.chan c with pollAt := s.now } ∧ OtherChans s t c ∧
      t.dma.engines = s.dma.engines ∧ Issues s t c 0 (dmaPacket s c 1 0 (counterAddr k) 8 []) ∧ SameExcept [.dma, .fab] s t := by
  have polls : dmaCounterPoll s c = issuePoll s c k := by simp [dmaCounterPoll, wait, waits, quiet, due, tag]
  exact ⟨_, congrArg Host.Outcome.next polls, (chanAs_set s c _).issues _ _ _ _ _⟩

theorem counterPoll_early (early : pollDue s c = false) : Idle (.counterPoll c) s := by
  refine congrArg Host.Outcome.next ?_
  unfold dmaCounterPoll
  dsimp only
  split
  · exact if_neg (by simp [early])
  · rfl

section
variable (runs : Runs s c 16) (isWait : rd bs 0 1 = 3) (isFlag : rd bs 1 1 = 3) (may : s.chanOwner c = 0 ∨ 192 ≤ rd bs 8 1)
include runs isWait isFlag may

/-- A WAIT FLAG outside loops names its flag alone, which is one of the engine's 256 and the owner may wait for. -/
theorem waitFlag_row : exec (.waitFlag c bs) s = .next
    (if (s.engine (chanEngine c)).flags.getLsbD (rd bs 8 1) then
      (if bit (rd bs 2 1) 0 then flagClearOp s (chanEngine c) (rd bs 8 1) else s).setChan c (chanAdvance (s.chan c) 16)
    else s.setChan c { s.chan c with st := 2, wait := some (3, rd bs 8 1, bit (rd bs 2 1) 0) }) := by
  obtain ⟨-, -, straight, -, -⟩ := id runs
  refine congrArg Host.Outcome.next ((dmaInstr_runs runs isWait (by decide) fun _ => ⟨isFlag, by decide⟩).trans ?_)
  have small : ¬255 < rd bs 8 1 := by
    have := rd_one_lt bs 8
    omega
  have reaches : ¬((decide (s.chanOwner c ≠ 0) && decide (rd bs 8 1 < 192)) = true) := by
    simp only [ne_eq, Bool.and_eq_true, decide_eq_true_eq]
    omega
  simp only [dmaWaitFlag, loopIdx_straight straight, Nat.zero_mul, Nat.add_zero, if_neg small, if_neg reaches]

theorem waitFlag_passes (set : (s.engine (chanEngine c)).flags.getLsbD (rd bs 8 1) = true) :
    Does (.waitFlag c bs) s fun t => t.chan c = { s.chan c with pc := ((s.chan c).pc + 16) % 2 ^ 64 } ∧ OtherChans s t c ∧
      (t.engine (chanEngine c)).flags.getLsbD (rd bs 8 1) = (if bit (rd bs 2 1) 0 then false else true) ∧
      (∀ j, j ≠ rd bs 8 1 → (t.engine (chanEngine c)).flags.getLsbD j = (s.engine (chanEngine c)).flags.getLsbD j) ∧
      SameExcept [.dma] s t := by
  obtain ⟨-, -, straight, -, -⟩ := id runs
  refine ⟨_, (waitFlag_row c bs s runs isWait isFlag may).trans (by rw [if_pos set]), ?_⟩
  split
  case isTrue =>
    obtain ⟨flags, -, chans, frame⟩ := flagClearOp_only s (chanEngine c) (rd bs 8 1)
    have advanced := chanAs_advance (s := flagClearOp s (chanEngine c) (rd bs 8 1)) (c := c) straight
    refine ⟨advanced.here, advanced.there, ?_, fun j other => ?_, ?_⟩
    · rw [advanced.engine, flags, getLsbD_cleared]
      simp
    · rw [advanced.engine, flags, getLsbD_cleared]
      simp [other]
    · simp [SameExcept, flagClearOp]
  case isFalse =>
    have advanced := chanAs_advance (s := s) (c := c) straight
    exact ⟨advanced.here, advanced.there, by rw [advanced.engine, set], fun j _ => by rw [advanced.engine], advanced.spec.2.2.2⟩

theorem waitFlag_waits (clear : (s.engine (chanEngine c)).flags.getLsbD (rd bs 8 1) = false) :
    Does (.waitFlag c bs) s fun t => t.chan c = { s.chan c with st := 2, wait := some (3, rd bs 8 1, bit (rd bs 2 1) 0) } ∧
      OtherChans s t c ∧ t.dma.engines = s.dma.engines ∧ SameExcept [.dma] s t :=
  ⟨_, (waitFlag_row c bs s runs isWait isFlag may).trans (by rw [clear, if_neg Bool.false_ne_true]), (chanAs_set s c _).spec⟩

end

section
variable (runs : Runs s c 16) (isSignal : rd bs 0 1 = 4)
include runs isSignal

theorem signalCounter_posts (isCounter : rd bs 1 1 = 1) (status : rd bs 2 1 ≤ 4) (owner : s.chanOwner c = 0)
    (written : writesDone s c = true) :
    Does (.signalCounter c bs) s fun t =>
      Advances s t c 16 { s.chan c with held := if rd bs 2 1 = 4 then 0 else (s.chan c).held } ∧
      Posts s t (dmaPacket s c 2 3 (counterAddr (rd bs 8 2 % 65536)) 8 (leBytes 8
        (2 * 2 ^ 24 + (if rd bs 2 1 = 4 then (s.chan c).held else rd bs 2 1) * 2 ^ 16))) ∧ SameExcept [.dma, .fab] s t := by
  obtain ⟨-, -, straight, -, -⟩ := id runs
  refine ⟨_, congrArg Host.Outcome.next (dmaInstr_runs runs isSignal (by decide) fun _ => ⟨isCounter, by decide⟩), ?_⟩
  have held : (if rd bs 2 1 = 4 then { s.chan c with held := 0 } else s.chan c) =
      { s.chan c with held := if rd bs 2 1 = 4 then 0 else (s.chan c).held } := by
    split <;> rfl
  simp only [dmaSignalCounter, if_neg (Nat.not_lt.mpr status), owner, written, loopIdx_straight straight, Nat.zero_mul, Nat.add_zero,
    ne_eq, not_true_eq_false, if_false, Bool.not_true, Bool.false_eq_true, held]
  exact (chanAs_advance (x := { s.chan c with held := if rd bs 2 1 = 4 then 0 else (s.chan c).held }) straight).posts _ _ _ _

theorem signalFlag_posts (isFlag : rd bs 1 1 = 2) (engine : rd bs 2 1 ≤ 23) (owner : s.chanOwner c = 0) (written : writesDone s c = true) :
    Does (.signalFlag c bs) s fun t => Advances s t c 16 (s.chan c) ∧
      Posts s t (dmaPacket s c 2 3 (flagAddr (rd bs 2 1) (rd bs 8 1)) 8 (leBytes 8 1)) ∧ SameExcept [.dma, .fab] s t := by
  obtain ⟨-, -, straight, -, -⟩ := id runs
  refine ⟨_, congrArg Host.Outcome.next (dmaInstr_runs runs isSignal (by decide) fun _ => ⟨isFlag, by decide⟩), ?_⟩
  have names : ¬((decide (23 < rd bs 2 1) || decide (255 < rd bs 8 1)) = true) := by
    have := rd_one_lt bs 8
    simp only [Bool.or_eq_true, decide_eq_true_eq]
    omega
  simp only [dmaSignalFlag, loopIdx_straight straight, Nat.zero_mul, Nat.add_zero, if_neg names, owner, written, ne_eq,
    not_true_eq_false, decide_false, Bool.false_and, Bool.not_true, Bool.false_eq_true, if_false]
  exact (chanAs_advance straight).posts _ _ _ _

section
variable (isEvent : rd bs 1 1 = 3)
include isEvent

theorem signalEvent_row : exec (.signalEvent c bs) s = .next (dmaSignalEvent s c bs) :=
  congrArg Host.Outcome.next (dmaInstr_runs runs isSignal (by decide) fun _ => ⟨isEvent, by decide⟩)

theorem signalEvent_raises (written : writesDone s c = true) (room : Room 1 s) :
    Does (.signalEvent c bs) s fun t => Advances s t c 16 (s.chan c) ∧
      Raised s t 4 (chanEngine c) 0x0E02 0 (leBytes 1 (chanEngine c) ++ leBytes 1 (c % 32) ++ [0, 0] ++ slice bs 8 8) ∧
      SameExcept [.dma, .ev] s t := by
  obtain ⟨-, -, straight, -, -⟩ := id runs
  refine ⟨_, signalEvent_row c bs s runs isSignal isEvent, ?_⟩
  simp only [dmaSignalEvent, written, Bool.not_true, Bool.false_eq_true, if_false]
  obtain ⟨here, there, engines, event, frame⟩ := ((chanAs_advance (s := s) (c := c) straight).raise _ _ _ _).raise_spec room
  exact ⟨⟨here, there, engines⟩, event, frame⟩

theorem signalEvent_waits (unwritten : writesDone s c = false) : Idle (.signalEvent c bs) s :=
  (signalEvent_row c bs s runs isSignal isEvent).trans (congrArg _ (if_pos (by simp [unwritten])))

end

end

theorem dmaEnd_ends (runs : Runs s c 16) (isEnd : rd bs 0 1 = 5) (silent : bit (rd bs 1 1) 1 = false) :
    Does (.dmaEnd c bs) s fun t => t.chan c = (if bit (rd bs 1 1) 0 then { s.chan c with pc := (s.chan c).prog }
        else { s.chan c with st := 0 }) ∧
      OtherChans s t c ∧ t.dma.engines = s.dma.engines ∧ SameExcept [.dma] s t := by
  obtain ⟨-, -, straight, -, -⟩ := id runs
  refine ⟨_, congrArg Host.Outcome.next (dmaInstr_runs runs isEnd (by decide) (by simp)), ?_⟩
  simp only [dmaEndOp, silent, Bool.false_eq_true, if_false, ← straight]
  exact (chanAs_set s c _).spec

end

/-- Settles O42, clause by clause: each instruction's own lemma above says where it leaves its channel. -/
theorem dmaInstructions : Obligations.DmaInstructions :=
  ⟨instr_idle, instr_denied, instr_illegal, loop_enters, loop_skips, loop_bodiless,
   fun c bs v rest s => waitAirtime_around c bs s v rest, waitAirtime_passes, waitAirtime_waits,
   fun c u b s => waitAirtimeReached_releases c s u b, noWait_idle, waitCounter_reads, waitCounter_denied,
   fun c k b s => counterPoll_reads c s k b, counterPoll_early, waitFlag_passes, waitFlag_waits, signalCounter_posts,
   signalFlag_posts, signalEvent_raises, signalEvent_waits, dmaEnd_ends⟩

end Sys2Proof.Machine
end

section
namespace Sys2Proof.Machine

open Sys2Proof.Claims

/-! ## One host port after another (R432) -/

theorem State.hp_setHp_other (s : State) {h j : HostId} (x : HostPort) (other : j ≠ h) : (s.setHp h x).hp j = s.hp j := by
  fin_cases h <;> fin_cases j <;> simp_all [State.setHp, State.hp]

/-- `t` is `s` with host port `h` as `x`; no other host port, and nothing else than the host part, has changed. -/
structure HpAs (s : State) (h : HostId) (x : HostPort) (t : State) : Prop where
  here : t.hp h = x
  there : OtherHosts s t h
  rest : ∃ host, t = { s with host := host }

section
variable {s t : State} {h : HostId} {x : HostPort}

theorem HpAs.refl (s : State) (h : HostId) : HpAs s h (s.hp h) s := ⟨rfl, fun _ _ => rfl, s.host, rfl⟩

theorem HpAs.setHp (a : HpAs s h x t) (y : HostPort) : HpAs s h y (t.setHp h y) := by
  refine ⟨State.hp_setHp_self _ _ _, fun j other => (State.hp_setHp_other _ _ other).trans (a.there j other), ?_⟩
  obtain ⟨host, rfl⟩ := a.rest
  obtain ⟨host', e, -⟩ := State.setHp_onlyHost { s with host := host } h y
  exact ⟨host', e⟩

theorem hpAs_set (s : State) (h : HostId) (y : HostPort) : HpAs s h y (s.setHp h y) := (HpAs.refl s h).setHp y

/-- The port, the other ports and the frame, as the statements about the ports ask for them. -/
theorem HpAs.spec (a : HpAs s h x t) : t.hp h = x ∧ OtherHosts s t h ∧ SameExcept [.host] s t := by
  refine ⟨a.here, a.there, ?_⟩
  obtain ⟨host, rfl⟩ := a.rest
  simp [SameExcept]

end

/-! ## The registers of a host port (R435, R437, R439) -/

section
variable (h : HostId) (v : BitVec 32) (s : State)

theorem doorbell_queues (slot : v.toNat < 64) (free : (s.hp h).slotBusy.getLsbD v.toNat = false) :
    Does (.doorbell h v) s fun t => t.hp h = { s.hp h with
        slotBusy := (s.hp h).slotBusy ||| ((1 : BitVec 64) <<< v.toNat), order := (s.hp h).order ++ [v.toNat],
        submitted := ((s.hp h).submitted + 1) % 2 ^ 32 } ∧ OtherHosts s t h ∧ SameExcept [.host] s t :=
  ⟨_, congrArg Host.Outcome.next (if_neg (by rw [free]; simpa using slot)), (hpAs_set s h _).spec⟩

theorem doorbell_counts (refused : 64 ≤ v.toNat ∨ (s.hp h).slotBusy.getLsbD v.toNat = true) :
    Does (.doorbell h v) s fun t =>
      t.hp h = { s.hp h with doorbellErr := min ((s.hp h).doorbellErr + 1) (2 ^ 32 - 1) } ∧ OtherHosts s t h ∧
      SameExcept [.host] s t :=
  ⟨_, congrArg Host.Outcome.next (if_pos (by simpa using refused)), (hpAs_set s h _).spec⟩

theorem replyBaseWrite_empties (h : HostId) (v : BitVec 64) (s : State) (noReply : (s.hp h).waiting = none) :
    Does (.replyBaseWrite h v) s fun t =>
      t.hp h = { s.hp h with replyBase := v.toNat / 4096 * 4096, replyWr := 0, replyRd := 0 } ∧ OtherHosts s t h ∧
      SameExcept [.host] s t := by
  have emptied : ringReset { s.hp h with replyBase := v.toNat / 4096 * 4096 } =
      { s.hp h with replyBase := v.toNat / 4096 * 4096, replyWr := 0, replyRd := 0 } := by
    simp [ringReset, noReply]
  refine ⟨_, rfl, ?_⟩
  rw [replyBaseOp, emptied]
  exact (hpAs_set s h _).spec

theorem replySizeWrite_empties
    (size : v = 0 ∨ v = 16 ∨ v = 32 ∨ v = 64 ∨ v = 128 ∨ v = 256 ∨ v = 512 ∨ v = 1024) :
    Does (.replySizeWrite h v) s fun t => t.hp h = { s.hp h with
        replySize := v.toNat, replyWr := 0, replyRd := 0, waiting := none,
        current := if (s.hp h).waiting.isSome then none else (s.hp h).current } ∧ OtherHosts s t h ∧ SameExcept [.host] s t := by
  have taken : ringSizeOk v.toNat = true := by
    rcases size with rfl | rfl | rfl | rfl | rfl | rfl | rfl | rfl <;> decide
  exact ⟨_, congrArg Host.Outcome.next (if_pos taken), (hpAs_set s h _).spec⟩

theorem replySizeWrite_idle (other : ringSizeOk v.toNat = false) : Idle (.replySizeWrite h v) s :=
  congrArg Host.Outcome.next (if_neg (by simp [other]))

theorem msixSend_disabled {s : State} {h v : Nat} (disabled : (s.hp h).msixEnable = false) : msixSend s h v = s :=
  if_pos (by simp [disabled])

theorem replyRdWrite_reads (noReply : (s.hp h).waiting = none) (disabled : (s.hp h).msixEnable = false) :
    Does (.replyRdWrite h v) s fun t => t.hp h = { s.hp h with replyRd := v.toNat } ∧ OtherHosts s t h ∧ SameExcept [.host] s t := by
  have reads : replyRdOp s h v.toNat = s.setHp h { s.hp h with replyRd := v.toNat } := by
    unfold replyRdOp
    simp only [noReply]
    split
    · exact msixSend_disabled (by simp [disabled])
    · rfl
  exact ⟨_, congrArg Host.Outcome.next reads, (hpAs_set s h _).spec⟩

theorem atLoRead_latches (h : HostId) (s : State) :
    Does (.atLoRead h) s fun t => t.hp h = { s.hp h with atHi := BitVec.ofNat 32 (s.now / 2 ^ 32) } ∧ OtherHosts s t h ∧
      SameExcept [.host] s t :=
  ⟨_, rfl, (hpAs_set s h _).spec⟩

theorem registerWrite_scratch (h : HostId) (v : BitVec 64) (s : State) :
    Does (.registerWrite (.bar0 h 0x000C false v)) s fun t =>
      t.hp h = { s.hp h with scratch := BitVec.ofNat 32 (v.toNat % 2 ^ 32) } ∧ OtherHosts s t h ∧ SameExcept [.host] s t :=
  ⟨_, rfl, (hpAs_set s h _).spec⟩

theorem registerWrite_flagBad (e : EngineId) (f : Byte) (v : BitVec 64) (s : State) (other : 2 < v.toNat % 256 ∨ v.toNat % 256 = 0) :
    Does (.registerWrite (.flag e f v)) s fun t =>
      t.engine e = { s.engine e with flagBad := min ((s.engine e).flagBad + 1) (2 ^ 32 - 1) } ∧ t.dma.chans = s.dma.chans ∧
      SameExcept [.dma] s t := by
  have counts : registerWriteOp s (.flag e f v) =
      s.setEngine e { s.engine e with flagBad := satAdd 32 (s.engine e).flagBad 1 } := by
    unfold registerWriteOp
    dsimp only
    split
    case h_1 set => omega
    case h_2 clear => omega
    case h_3 => rfl
  exact ⟨_, congrArg Host.Outcome.next counts, State.engine_setEngine_self _ _ _, rfl, by simp [SameExcept]⟩

end

/-! ## MSI-X vectors that are unmasked (R440) -/

theorem foldl_fixed_mem {α β : Type} {f : α → β → α} {a : α} {l : List β} (fixed : ∀ b ∈ l, f a b = a) : l.foldl f a = a := by
  induction l with
  | nil => rfl
  | cons b l ih =>
    rw [List.foldl_cons, fixed b List.mem_cons_self]
    exact ih fun c hc => fixed c (List.mem_cons_of_mem b hc)

/-- A message is sent where nothing masks its pending vector. -/
def msixTry (h : Nat) (t : State) (v : Nat) : State :=
  let p := t.hp h
  if p.msixEnable && !p.msixMask && p.pba.getLsbD v && !p.vecMask.getLsbD v then
    t.setHp h { p with pba := p.pba &&& ~~~((1 : BitVec 64) <<< v), msixSent := mapMod p.msixSent v 0 (· + 1) }
  else t

theorem msixFlush_eq (s : State) (h : Nat) : msixFlush s h = (List.range 64).foldl (msixTry h) s := rfl

theorem msixTry_notPending {s : State} {h v : Nat} (clear : (s.hp h).pba.getLsbD v = false) : msixTry h s v = s :=
  if_neg (by simp [clear])

theorem msixFlush_nonePending {s : State} {h : Nat} (clear : (s.hp h).pba = 0) : msixFlush s h = s :=
  foldl_fixed_mem fun v _ => msixTry_notPending (by simp [clear])

/-- The one pending vector, masked by nothing, is sent. -/
theorem msixFlush_one {s : State} {h : Nat} (v : Fin 64) (enabled : (s.hp h).msixEnable = true) (open_ : (s.hp h).msixMask = false)
    (pending : (s.hp h).pba = (1 : BitVec 64) <<< v.val) (unmasked : (s.hp h).vecMask.getLsbD v = false) :
    msixFlush s h = s.setHp h { s.hp h with pba := 0, msixSent := mapMod (s.hp h).msixSent v 0 (· + 1) } := by
  obtain ⟨before, after, split_⟩ := List.append_of_mem (List.mem_range.mpr v.isLt)
  have notBefore : v.val ∉ before := by
    have nodup := List.nodup_range (n := 64)
    rw [split_, List.nodup_middle] at nodup
    exact fun mem => (List.nodup_cons.mp nodup).1 (List.mem_append_left after mem)
  have bits (w : Nat) : (s.hp h).pba.getLsbD w = decide (w = v.val) := by
    have inside := v.isLt
    have one : (1 : BitVec 64) <<< v.val = BitVec.twoPow 64 v.val := rfl
    rw [pending, one, BitVec.getLsbD_twoPow]
    simp [eq_comm, inside]
  have none : (s.hp h).pba &&& ~~~((1 : BitVec 64) <<< v.val) = 0 := by
    rw [pending]
    simp
  have sends : msixTry h s v = s.setHp h { s.hp h with pba := 0, msixSent := mapMod (s.hp h).msixSent v 0 (· + 1) } := by
    unfold msixTry
    dsimp only
    rw [if_pos (by rw [enabled, open_, unmasked, bits]; simp), none]
  have unsent : before.foldl (msixTry h) s = s :=
    foldl_fixed_mem fun w hw => msixTry_notPending (by rw [bits, decide_eq_false]; rintro rfl; exact notBefore hw)
  rw [msixFlush_eq, split_, List.foldl_append, List.foldl_cons, unsent, sends]
  exact foldl_fixed_mem fun w _ => msixTry_notPending (by simp)

theorem msixUnmask_sends (h : HostId) (v : Fin 64) (s : State) (enabled : (s.hp h).msixEnable = true)
    (_masked : (s.hp h).msixMask = true) (pending : (s.hp h).pba = (1 : BitVec 64) <<< v.val)
    (unmasked : (s.hp h).vecMask.getLsbD v = false) :
    Does (.msixUnmask h none) s fun t => t.hp h = { s.hp h with
        msixMask := false, pba := 0, msixSent := mapMod (s.hp h).msixSent v 0 (· + 1) } ∧ OtherHosts s t h ∧
      SameExcept [.host] s t := by
  have opened := hpAs_set s h { s.hp h with msixMask := false }
  have sends := msixFlush_one (s := s.setHp h { s.hp h with msixMask := false }) (h := h) v
    (by rw [opened.here]; exact enabled) (by rw [opened.here]) (by rw [opened.here]; exact pending)
    (by rw [opened.here]; exact unmasked)
  rw [opened.here] at sends
  exact ⟨_, congrArg Host.Outcome.next sends, (opened.setHp _).spec⟩

theorem msixUnmask_vector (h : HostId) (v : Fin 64) (s : State) (clear : (s.hp h).pba = 0) :
    Does (.msixUnmask h (some v)) s fun t => (t.hp h).vecMask.getLsbD v = false ∧
      (∀ j, j ≠ v.val → (t.hp h).vecMask.getLsbD j = (s.hp h).vecMask.getLsbD j) ∧ (t.hp h).msixSent = (s.hp h).msixSent ∧
      OtherHosts s t h ∧ SameExcept [.host] s t := by
  have unmasked := hpAs_set s h { s.hp h with
    vecMask := (s.hp h).vecMask &&& ~~~((1 : BitVec 64) <<< v.val), msixTable := byteSet 0 (s.hp h).msixTable (16 * v.val + 12) 0 }
  have sends : msixUnmaskOp s h (some v.val) = s.setHp h { s.hp h with
      vecMask := (s.hp h).vecMask &&& ~~~((1 : BitVec 64) <<< v.val)
      msixTable := byteSet 0 (s.hp h).msixTable (16 * v.val + 12) 0 } :=
    msixFlush_nonePending (by rw [unmasked.here]; exact clear)
  obtain ⟨here, there, frame⟩ := unmasked.spec
  refine ⟨_, congrArg Host.Outcome.next sends, ?_, fun j other => ?_, ?_, there, frame⟩
  · rw [here]
    simp
  · have one : (1 : BitVec 64) <<< v.val = BitVec.twoPow 64 v.val := rfl
    rw [here]
    dsimp only
    rw [one]
    by_cases inside : j < 64
    · simp [BitVec.getElem_twoPow, inside, other]
    · rw [BitVec.getLsbD_of_ge _ _ (by omega), BitVec.getLsbD_of_ge _ _ (by omega)]
  · rw [here]

/-! ## Resets and links of a host port (R432 to R434, R468) -/

/-- A subscription that ends where none stands and no loss is to be reported changes nothing. -/
theorem dropSub_none {s : State} (h : Nat) (noSubs : s.ev.subs = []) (noLoss : s.ev.loss = []) : dropSub s h = s := by
  have same : { s with ev := { s.ev with subs := mapDel s.ev.subs h } } = s := by
    rw [noSubs, mapDel, ← noSubs]
  have kept : logRelease s = s := by simp only [logRelease, noSubs]
  rw [dropSub, same, kept, losses, lossWrite, if_neg (by simp [noLoss])]

/-- The state after a reset of port `h` before it is reported, where the port owns no channel and no host is subscribed. -/
def portCleared (s : State) (h : HostId) : State :=
  let t := (masterReset s (hostNode h) 65535).setHp h (portDefaults (s.hp h))
  { t with cfg := { t.cfg with staged := mapDel t.cfg.staged h }, ev := { t.ev with lagged := t.ev.lagged.filter fun x => x ≠ h.val } }

/-- What a reset of port `h` leaves: the port as `x`, nothing staged for it, and every other part but the fabric's and the
arbiter's as it was. -/
structure PortReset (s : State) (h : HostId) (x : HostPort) (t : State) : Prop where
  here : t.hp h = x
  there : OtherHosts s t h
  staged : t.staged h = []
  frame : SameExcept [.host, .fab, .cfg, .ev] s t

section
variable {s t : State} {h : HostId} {x : HostPort}

theorem portCleared_reset (s : State) (h : HostId) :
    PortReset s h (portDefaults (s.hp h)) (portCleared s h) ∧ (portCleared s h).ev.queue = s.ev.queue := by
  obtain ⟨nis, outst, master⟩ := masterReset_frame s (hostNode h) 65535
  have cleared := hpAs_set (masterReset s (hostNode h) 65535) h (portDefaults (s.hp h))
  obtain ⟨host, frame⟩ := cleared.rest
  have hps (j : HostId) : (portCleared s h).hp j = ((masterReset s (hostNode h) 65535).setHp h (portDefaults (s.hp h))).hp j := rfl
  have parts : portCleared s h = { masterReset s (hostNode h) 65535 with
      host := host, cfg := { s.cfg with staged := mapDel s.cfg.staged h }
      ev := { s.ev with lagged := s.ev.lagged.filter fun x => x ≠ h.val } } := by
    unfold portCleared
    dsimp only
    rw [frame, master]
  refine ⟨⟨(hps h).trans cleared.here, fun j other => (hps j).trans ?_, ?_, ?_⟩, ?_⟩
  · rw [cleared.there j other, master]
    rfl
  · rw [parts]
    simp [State.staged, mapGet]
  · rw [parts, master]
    simp [SameExcept]
  · rw [parts]

/-- An event that is raised after a reset leaves what the reset left. -/
theorem PortReset.raise (r : PortReset s h x t) (c i n : Nat) (b : List Byte) : PortReset s h x (Machine.raise t c i n b) := by
  obtain ⟨host, ev, e⟩ := hostOnly_raise t c i n b
  have hp (j : Nat) : (Machine.raise t c i n b).hp j = t.hp j := by
    unfold Machine.raise offer
    split <;> rfl
  refine ⟨(hp h).trans r.here, fun j other => (hp j).trans (r.there j other), ?_, ?_⟩
  · rw [e]
    exact r.staged
  · rw [e]
    have frame := r.frame
    simp only [SameExcept] at frame ⊢
    simpa using frame

theorem PortReset.setHp (r : PortReset s h x t) (y : HostPort) : PortReset s h y (t.setHp h y) := by
  have set := hpAs_set t h y
  obtain ⟨host, e⟩ := set.rest
  refine ⟨set.here, fun j other => (set.there j other).trans (r.there j other), ?_, ?_⟩
  · rw [e]
    exact r.staged
  · rw [e]
    have frame := r.frame
    simp only [SameExcept] at frame ⊢
    simpa using frame

/-- A reset of a port that owns no channel, with no host subscribed, clears the port and is reported; PERST# then takes a link
that is up down. -/
theorem portReset_eq (kind : Nat) (owned : ownedChans s h = []) (noSubs : s.ev.subs = []) (noLoss : s.ev.loss = []) :
    portReset s h kind =
      let u := raise (portCleared s h) 9 h 0x0F02 (leBytes 1 h ++ leBytes 1 kind ++ leBytes 2 (min (s.hp h).order.length 65535))
      if kind = 1 && (u.hp h).linkUp then hostLinkEvt (u.setHp h { u.hp h with linkUp := false, width := 0, rate := 0 }) h false 0 0
      else u := by
  obtain ⟨nis, outst, master⟩ := masterReset_frame s (hostNode h) 65535
  have port : (masterReset s (hostNode h) 65535).hp h = s.hp h := by
    rw [master]
    rfl
  have ev : (masterReset s (hostNode h) 65535).ev = s.ev := by
    rw [master]
  unfold portReset
  simp only [owned, List.foldl_nil, port]
  rw [dropSub_none h (by simpa [ev] using noSubs) (by simpa [ev] using noLoss)]
  rfl

end

section
variable (h : HostId) (s : State) (owned : ownedChans s h = []) (noSubs : s.ev.subs = []) (noLoss : s.ev.loss = [])
  (noPacket : (s.hp h).current = none) (noReply : (s.hp h).waiting = none)
include noPacket noReply

/-- A port without a packet or reply under way keeps of a reset its link, its role, its slots, and what lies outside it. -/
theorem portDefaults_quiet : portDefaults (s.hp h) = {
    linkUp := (s.hp h).linkUp, width := (s.hp h).width, rate := (s.hp h).rate,
    role := (s.hp h).role, slots := (s.hp h).slots, mem := (s.hp h).mem, msixSent := (s.hp h).msixSent } := by
  simp [portDefaults, noPacket, noReply]

include owned noSubs noLoss

theorem perst_resets (up : (s.hp h).linkUp = true) (room : Room 2 s) :
    Does (.perst h) s fun t =>
      t.hp h = { role := (s.hp h).role, slots := (s.hp h).slots, mem := (s.hp h).mem, msixSent := (s.hp h).msixSent } ∧
      OtherHosts s t h ∧ t.staged h = [] ∧ Queued t 9 h 0x0F02 ∧ Queued t 9 h 0x0F01 ∧
      SameExcept [.host, .fab, .cfg, .ev] s t := by
  obtain ⟨cleared, queue⟩ := portCleared_reset s h
  rw [portDefaults_quiet h s noPacket noReply] at cleared
  have resets := portReset_eq 1 owned noSubs noLoss
  have event := cleared.raise 9 h 0x0F02 (leBytes 1 h ++ leBytes 1 1 ++ leBytes 2 (min (s.hp h).order.length 65535))
  dsimp only at resets
  rw [event.here, if_pos (by simp [up])] at resets
  have roomCleared : Room (1 + 1) (portCleared s h) := by simpa only [Room, queue] using room
  have grows := queueGrows_raise (portCleared s h) 9 h 0x0F02
    (leBytes 1 h ++ leBytes 1 1 ++ leBytes 2 (min (s.hp h).order.length 65535))
  have queued := raise_queued (portCleared s h) 9 h 0x0F02
    (leBytes 1 h ++ leBytes 1 1 ++ leBytes 2 (min (s.hp h).order.length 65535)) (by unfold Room at *; omega)
  have done := event.setHp { role := (s.hp h).role, slots := (s.hp h).slots, mem := (s.hp h).mem, msixSent := (s.hp h).msixSent }
  have second := done.raise 9 h 0x0F01 (leBytes 1 h ++ leBytes 1 (b2n false) ++ leBytes 1 0 ++ leBytes 1 0)
  have roomLeft := grows.room roomCleared
  exact ⟨_, congrArg Host.Outcome.next resets, second.here, second.there, second.staged,
    (queueGrows_raise _ _ _ _ _).queued (by simpa only [Queued, State.setHp_ev] using queued),
    raise_queued _ _ _ _ _ (by simpa only [Room, State.setHp_ev] using roomLeft), second.frame⟩

theorem flr_resets (room : Room 1 s) :
    Does (.flr h) s fun t => t.hp h = {
        linkUp := (s.hp h).linkUp, width := (s.hp h).width, rate := (s.hp h).rate,
        role := (s.hp h).role, slots := (s.hp h).slots, mem := (s.hp h).mem, msixSent := (s.hp h).msixSent } ∧
      OtherHosts s t h ∧ t.staged h = [] ∧ Queued t 9 h 0x0F02 ∧ SameExcept [.host, .fab, .cfg, .ev] s t := by
  obtain ⟨cleared, queue⟩ := portCleared_reset s h
  rw [portDefaults_quiet h s noPacket noReply] at cleared
  have resets := portReset_eq 0 owned noSubs noLoss
  have event := cleared.raise 9 h 0x0F02 (leBytes 1 h ++ leBytes 1 0 ++ leBytes 2 (min (s.hp h).order.length 65535))
  dsimp only at resets
  rw [if_neg (by simp)] at resets
  exact ⟨_, congrArg Host.Outcome.next resets, event.here, event.there, event.staged,
    raise_queued _ _ _ _ _ (by simpa only [Room, queue] using room), event.frame⟩

end

theorem hostLinkChange_trains (h : HostId) (w r : Byte) (s : State) (least : 1 ≤ (s.hp h).role) (most : (s.hp h).role ≤ 3)
    (down : (s.hp h).linkUp = false) (room : Room 1 s) :
    Does (.hostLinkChange h true w r) s fun t =>
      t.hp h = { s.hp h with linkUp := true, width := w.toNat, rate := r.toNat } ∧ OtherHosts s t h ∧
      Raised s t 9 h 0x0F01 1 (leBytes 1 h ++ leBytes 1 1 ++ leBytes 1 w.toNat ++ leBytes 1 r.toNat) ∧ SameExcept [.host, .ev] s t := by
  have role : ¬((s.hp h).role = 0 ∨ 3 < (s.hp h).role) := by omega
  have trains : hostLinkOp s h true w.toNat r.toNat =
      raise (s.setHp h { s.hp h with linkUp := true, width := w.toNat, rate := r.toNat }) 9 h 0x0F01
        (leBytes 1 h ++ leBytes 1 1 ++ leBytes 1 w.toNat ++ leBytes 1 r.toNat) := by
    simp [hostLinkOp, hostLinkEvt, role, down, b2n]
  have up := hpAs_set s h { s.hp h with linkUp := true, width := w.toNat, rate := r.toNat }
  obtain ⟨host, e⟩ := up.rest
  refine ⟨_, congrArg Host.Outcome.next (trains.trans (raise_joins _ _ _ _ _ (by simpa only [Room, State.setHp_ev] using room))),
    up.here, up.there, ?_, ?_⟩
  · rw [e]
    rfl
  · rw [e]
    simp [SameExcept]

theorem hostLinkChange_disabled (h : HostId) (w r : Byte) (s : State) (disabled : (s.hp h).role = 0) :
    Idle (.hostLinkChange h true w r) s := congrArg Host.Outcome.next (if_pos (by simp [disabled]))

/-! ## The maintenance SPI port (R467) -/

section
variable (b : List Byte) (s : State) (enabled : s.host.spi.enabled = true)
include enabled

theorem packetWrite_awake (awake : s.boot.devState ≠ 3) : packetWriteOp s b =
    if s.host.spi.ready then s.setSpi { s.host.spi with packet := some b, miso := [] }
    else s.setSpi { s.host.spi with discarded := satAdd 32 s.host.spi.discarded 1, miso := [] } := by
  have stays : wakeHold s 3 0 2 = s := if_neg (by simp [awake])
  simp only [packetWriteOp, enabled, stays, Bool.not_true, Bool.false_eq_true, if_false]

theorem packetWrite_takes (awake : s.boot.devState ≠ 3) (ready : s.host.spi.ready = true) :
    Does (.packetWrite b) s fun t => t.host = { s.host with spi := { s.host.spi with packet := some b, miso := [] } } ∧
      SameExcept [.host] s t :=
  ⟨_, congrArg Host.Outcome.next ((packetWrite_awake b s enabled awake).trans (if_pos ready)), rfl, by simp [SameExcept]⟩

theorem packetWrite_discards (awake : s.boot.devState ≠ 3) (busy : s.host.spi.ready = false) :
    Does (.packetWrite b) s fun t => t.host = { s.host with
        spi := { s.host.spi with discarded := min (s.host.spi.discarded + 1) (2 ^ 32 - 1), miso := [] } } ∧ SameExcept [.host] s t :=
  ⟨_, congrArg Host.Outcome.next ((packetWrite_awake b s enabled awake).trans (if_neg (by simp [busy]))), rfl, by simp [SameExcept]⟩

end

theorem spi_disabled (n : Nat) (s : State) (disabled : s.host.spi.enabled = false) : Idle .statusRead s ∧ Idle (.replyRead n) s :=
  ⟨congrArg Host.Outcome.next (if_pos (by simp [disabled])), congrArg Host.Outcome.next (if_pos (by simp [disabled]))⟩

theorem statusRead_returns (s : State) (enabled : s.host.spi.enabled = true) :
    Does .statusRead s fun t => t.host = { s.host with spi := { s.host.spi with
        miso := leBytes 1 ((if s.host.spi.ready then 1 else 0) + (if s.host.spi.reply.isSome then 2 else 0) +
          (if s.boot.devState = 0 ∨ s.boot.devState = 5 then 4 else 0)) } } ∧ SameExcept [.host] s t := by
  have status : spiStatus s = (if s.host.spi.ready then 1 else 0) + (if s.host.spi.reply.isSome then 2 else 0) +
      (if s.boot.devState = 0 ∨ s.boot.devState = 5 then 4 else 0) := by
    simp [spiStatus, b2n, mul_ite]
  have reads : statusReadOp s = s.setSpi { s.host.spi with miso := leBytes 1 (spiStatus s) } := if_neg (by simp [enabled])
  rw [status] at reads
  exact ⟨_, congrArg Host.Outcome.next reads, rfl, by simp [SameExcept]⟩

theorem replyRead_whole (r : List Byte) (n : Nat) (s : State) (enabled : s.host.spi.enabled = true)
    (held : s.host.spi.reply = some r) (whole : r.length ≤ n) :
    Does (.replyRead n) s fun t => t.host = { s.host with
        spi := { s.host.spi with reply := none, readPos := 0, miso := r ++ List.replicate (n - r.length) 0 } } ∧
      SameExcept [.host] s t := by
  have bytes : (r ++ List.replicate n (0 : Byte)).take n = r ++ List.replicate (n - r.length) 0 := by
    rw [List.take_append, List.take_of_length_le whole, List.take_replicate, min_eq_left (Nat.sub_le _ _)]
  have reads : replyReadOp s n = s.setSpi { s.host.spi with
      reply := none, readPos := 0, miso := r ++ List.replicate (n - r.length) 0 } := by
    simp only [replyReadOp, enabled, held, whole, bytes, Bool.not_true, Bool.false_eq_true, if_false, if_true]
  exact ⟨_, congrArg Host.Outcome.next reads, rfl, by simp [SameExcept]⟩

/-! ## The end of a flash operation (R457) -/

theorem flashOperationComplete_idle (d : Bool) (s : State) (none : s.host.flashOp = none) : Idle (.flashOperationComplete d) s :=
  congrArg Host.Outcome.next (by simp only [flashCompleteOp, none])

/-- The state after the flash operation, with the flash as it left it. -/
def flashDone (s : State) (m : Bytes) : State := { s with host := { s.host with flash := m, flashOp := none } }

theorem flashDone_frame (s : State) (m : Bytes) : SameExcept [.host] s (flashDone s m) := by simp [SameExcept, flashDone]

theorem flashOperationComplete_erases (f : FlashOp) (s : State) (waits : s.host.flashOp = some f) (erases : f.erase = true) :
    ∃ u, exec (.flashOperationComplete false) s = .next (replyOk u f.req []) ∧ u.host.flashOp = none ∧
      (∀ a, byteAt 0xFF u.host.flash a = if f.offset ≤ a ∧ a < f.offset + f.len then 0xFF else byteAt 0xFF s.host.flash a) ∧
      SameExcept [.host] s u := by
  have ends : flashCompleteOp s false = replyOk (flashDone s (bytesClear s.host.flash f.offset f.len)) f.req [] := by
    simp [flashCompleteOp, waits, erases, flashDone, b2n]
  exact ⟨_, congrArg Host.Outcome.next ends, rfl, byteAt_bytesClear 0xFF _ _ _, flashDone_frame s _⟩

/-- Erased bytes are programmed to the data. -/
theorem flashProgram_erased {m : Bytes} {off : Nat} {d : List Byte}
    (erased : bytesRead 0xFF m off d.length = List.replicate d.length 0xFF) : flashProgram m off d = bytesWrite 0xFF m off d := by
  have all : (List.replicate d.length (0xFF : Byte)).zipWith (fun a b => a &&& b) d = d := by
    refine List.ext_getElem (by simp) fun i _ _ => ?_
    rw [List.getElem_zipWith, List.getElem_replicate]
    exact BitVec.allOnes_and
  rw [flashProgram, erased, all]

theorem flashOperationComplete_writes (f : FlashOp) (s : State) (waits : s.host.flashOp = some f) (writes : f.erase = false)
    (len : f.len = f.data.length) (erased : bytesRead 0xFF s.host.flash f.offset f.len = List.replicate f.len 0xFF) :
    ∃ u, exec (.flashOperationComplete false) s = .next (replyOk u f.req []) ∧ u.host.flashOp = none ∧
      bytesRead 0xFF u.host.flash f.offset f.len = f.data ∧
      (∀ a, a < f.offset ∨ f.offset + f.len ≤ a → byteAt 0xFF u.host.flash a = byteAt 0xFF s.host.flash a) ∧
      SameExcept [.host] s u := by
  rw [len] at erased ⊢
  have programmed := flashProgram_erased erased
  have readBack := bytesRead_bytesWrite 0xFF s.host.flash f.offset f.data
  have ends : flashCompleteOp s false = replyOk (flashDone s (bytesWrite 0xFF s.host.flash f.offset f.data)) f.req [] := by
    simp only [flashCompleteOp, waits, writes, programmed, len, readBack, ne_eq, not_true_eq_false, decide_false, Bool.or_self,
      Bool.not_false, Bool.and_false, Bool.false_and, Bool.false_eq_true, if_false]
    rfl
  refine ⟨_, congrArg Host.Outcome.next ends, rfl, readBack, fun a outside => ?_, flashDone_frame s _⟩
  exact (byteAt_bytesWrite 0xFF _ _ _ _).trans (if_neg (by omega))

/-- Settles O44, clause by clause: each register, reset, link and transfer has its own lemma above. -/
theorem hostPorts : Obligations.HostPorts :=
  ⟨doorbell_queues, doorbell_counts, replyBaseWrite_empties, replySizeWrite_empties, replySizeWrite_idle, replyRdWrite_reads,
   atLoRead_latches, msixUnmask_sends, msixUnmask_vector, registerWrite_scratch, registerWrite_flagBad, perst_resets, flr_resets,
   hostLinkChange_trains, hostLinkChange_disabled, packetWrite_takes, packetWrite_discards, spi_disabled, statusRead_returns,
   replyRead_whole, flashOperationComplete_idle, flashOperationComplete_erases, flashOperationComplete_writes⟩

end Sys2Proof.Machine
end

section
namespace Sys2Proof.Machine

open Sys2Proof.Claims

/-! ## The rows of the Delaz commands (R443, R449) -/

/-- The row of an opcode checks its packet and runs a body, and the role OWNER may give each opcode. -/
theorem delaz_row {i : Instr} {op : Nat} {rq : Req} {p : List Byte} (row : IsDelaz i op rq p) :
    (∃ body, ∀ s, exec i s = .next (delaz op rq p s body)) ∧ ∃ o, opInfo op = some o ∧ bit o.roles 0 = true := by
  unfold IsDelaz at row
  casesm* _ ∨ _, _ ∧ _ <;> subst_vars <;> exact ⟨⟨_, fun _ => rfl⟩, _, rfl, rfl⟩

section
variable (i : Instr) (op : Nat) (rq : Req) (p : List Byte) (s : State) (row : IsDelaz i op rq p)
include row

theorem delaz_shut (shut : s.portShut rq.port = true) : Idle i s := by
  obtain ⟨⟨body, runs⟩, -⟩ := delaz_row row
  exact (runs s).trans (congrArg Host.Outcome.next (if_pos shut))

variable (open_ : s.portShut rq.port = false)
include open_

/-- A packet whose port is open is accepted before it is checked. -/
theorem delaz_checked : ∃ body, exec i s = .next (runChecked (accepted s rq op) (asOp rq op) p body) := by
  obtain ⟨⟨body, runs⟩, -⟩ := delaz_row row
  exact ⟨body, (runs s).trans (congrArg Host.Outcome.next (if_neg (by simp [open_])))⟩

theorem delaz_tooLong (long : 4076 < p.length) : Refuses i s rq op 3 0xFFFF := by
  obtain ⟨body, runs⟩ := delaz_checked i op rq p s row open_
  exact runs.trans (congrArg Host.Outcome.next (if_pos long))

end

theorem headCheck_accepted (s : State) (rq : Req) (op n : Nat) :
    headCheck (accepted s rq op) (asOp rq op) n = headCheck s (asOp rq op) n := by
  obtain ⟨host, e, keeps⟩ := acceptReq_onlyHost s (asOp rq op)
  rw [accepted, e, headCheck_onlyHost s host _ _ (keeps.role _)]

theorem delaz_fails (i : Instr) (op st det : Nat) (rq : Req) (p : List Byte) (s : State) (row : IsDelaz i op rq p)
    (open_ : s.portShut rq.port = false) (len : p.length ≤ 4076) (fails : headCheck s (asOp rq op) p.length = some (st, det)) :
    Refuses i s rq op st det := by
  obtain ⟨body, runs⟩ := delaz_checked i op rq p s row open_
  refine runs.trans (congrArg Host.Outcome.next ?_)
  rw [runChecked, if_neg (Nat.not_lt.mpr len), headCheck_accepted, fails]

/-! ## Boot, role and SAFE state (R434, R443, R450) -/

section
variable (i : Instr) (op : Nat) (rq : Req) (p : List Byte) (s : State) (row : IsDelaz i op rq p)
  (open_ : s.portShut rq.port = false) (len : p.length ≤ 4076)
include row open_ len

theorem delaz_booting (host : rq.port < 4) (boots : s.boot.devState = 0) (other : 2 < op) : Refuses i s rq op 15 0 := by
  refine delaz_fails i op 15 0 rq p s row open_ len ?_
  have barred : bootAllowed false rq.port op = false := by
    have inHost : ¬4 ≤ rq.port := by omega
    have notFirst : ¬(op = 1 ∨ op = 2) := by omega
    simpa [bootAllowed, inHost] using not_or.mp notFirst
  simp [headCheck, boots, barred]

theorem delaz_role (o : OpInfo) (host : rq.port < 4) (started : s.boot.devState ≠ 0) (notFailed : s.boot.devState ≠ 5)
    (info : opInfo op = some o) (none : (s.hp rq.port).role = 0 ∨ bit o.roles ((s.hp rq.port).role - 1) = false) :
    Refuses i s rq op 6 (s.hp rq.port).role := by
  refine delaz_fails i op 6 _ rq p s row open_ len ?_
  have role : s.roleOf rq.port = (s.hp rq.port).role := if_neg (by omega)
  have given : ((decide ((s.hp rq.port).role = 0) || decide ((s.hp rq.port).role > 3) || !bit o.roles ((s.hp rq.port).role - 1)) = true) := by
    rcases none with disabled | barred
    · simp [disabled]
    · simp [barred]
  simp only [headCheck, asOp_opcode, asOp_port, info, role, given, started, notFailed, decide_false, Bool.or_self, Bool.false_and,
    Bool.false_eq_true, if_false, if_true]

theorem delaz_fatal (spi : 4 ≤ rq.port) (safe : s.boot.devState = 4) (acts : safeGroup op = true) : Refuses i s rq op 16 0 := by
  obtain ⟨-, o, info, owner⟩ := delaz_row row
  refine delaz_fails i op 16 0 rq p s row open_ len ?_
  have role : s.roleOf rq.port = 1 := if_pos spi
  simp [headCheck, info, role, safe, acts, owner]

end

/-! ## Replies (R438, R439, R441, R442) -/

theorem withPhase_replyHeader (rq : Req) (len st det : Nat) (a b : Bool) :
    withPhase (replyHeader rq len st det a) b = replyHeader rq len st det b := rfl

theorem devStatusBytes_length (s : State) : (devStatusBytes s).length = 16 := rfl

theorem State.setHp_lastPort (s : State) (h : Nat) (x : HostPort) : (s.setHp h x).host.lastPort = s.host.lastPort := by
  unfold State.setHp
  split <;> rfl

/-- A host port whose packet is accepted holds it as the packet under way, and counts as accepted last. -/
theorem accepted_hp {rq : Req} {h : HostId} (op : Nat) (s : State) (port : rq.port = h) :
    HpAs s h { s.hp h with current := some (asOp rq op), dropReply := false } (accepted s rq op) ∧
      (accepted s rq op).host.lastPort = h := by
  have inHost : ¬4 ≤ h.val := by omega
  have accepts : accepted s rq op =
      let t := s.setHp h { s.hp h with current := some (asOp rq op), dropReply := false }
      { t with host := { t.host with lastPort := h } } := by
    simp only [accepted, acceptReq, asOp_port, port, ge_iff_le, if_neg inHost]
  obtain ⟨here, there, host, e⟩ := hpAs_set s h { s.hp h with current := some (asOp rq op), dropReply := false }
  rw [accepts]
  exact ⟨⟨here, there, { host with lastPort := h.val }, by dsimp only; rw [e]⟩, rfl⟩

section
variable {s : State} {rq : Req} (pl : List Byte)

/-- A reply to the SPI port stays there with its CRC-32C. -/
theorem replyOk_spi (spi : 4 ≤ rq.port) (loud : rq.quiet = false) :
    replyOk s rq pl = { s with host := { s.host with
      spi := { s.host.spi with
        current := none, reply := some (withCrc32 (replyHeader rq pl.length 0 0 false ++ pl)), readPos := 0 } } } := by
  simp [replyOk, reply, loud, spi, withCrc32]

variable {h : HostId} (port : rq.port = h)
include port

theorem replyOk_host (loud : rq.quiet = false) :
    replyOk s rq pl = hostReply s h (replyHeader rq pl.length 0 0 false) pl := by
  have inHost : ¬4 ≤ h.val := by omega
  simp only [replyOk, reply, loud, Bool.false_and, Bool.false_eq_true, if_false, ge_iff_le, port, if_neg inHost]

theorem replyOk_quiet (quiet : rq.quiet = true) : replyOk s rq pl = s.setHp h { s.hp h with current := none, dropReply := false } := by
  have inHost : ¬4 ≤ h.val := by omega
  simp only [replyOk, reply, quiet, freePort, decide_true, Bool.and_self, if_true, ge_iff_le, port, if_neg inHost]

end

section
variable {s : State} {h : HostId} (hdr pl : List Byte) (kept : (s.hp h).dropReply = false) (up : (s.hp h).linkUp = true)
include kept

theorem hostReply_down (down : (s.hp h).linkUp = false) :
    hostReply s h hdr pl = countDiscard (s.setHp h { s.hp h with current := none }) h := by
  simp only [hostReply, kept, down, Bool.not_false, Bool.true_or, Bool.false_eq_true, if_false, if_true]

include up

theorem hostReply_full (ring : (s.hp h).replySize ≠ 0) (full : (s.hp h).replySize ≤ (s.hp h).pending) :
    hostReply s h hdr pl = s.setHp h { s.hp h with waiting := some (hdr ++ pl) } := by
  simp only [hostReply, kept, up, ring, full, Bool.not_true, decide_false, Bool.or_self, Bool.false_eq_true, if_false, if_true]

/-- A reply that finds room joins the ring; with MSI-X disabled no message goes. -/
theorem hostReply_ring (room : (s.hp h).pending < (s.hp h).replySize) (disabled : (s.hp h).msixEnable = false) :
    hostReply s h hdr pl =
      let hd := withPhase hdr ((s.hp h).replyWr / (s.hp h).replySize % 2 = 0)
      let at_ := (s.hp h).replyBase / 4096 * 4096 + 4096 * ((s.hp h).replyWr % (s.hp h).replySize)
      s.setHp h { s.hp h with
        mem := bytesWrite 0 (bytesWrite 0 (s.hp h).mem (at_ + 16) (pl ++ leBytes 4 (crc32c (hd ++ pl)))) at_ hd
        replyWr := ((s.hp h).replyWr + 1) % 2 ^ 32, current := none, waiting := none } := by
  have ring : (s.hp h).replySize ≠ 0 := by omega
  simp only [hostReply, kept, up, ring, Nat.not_le.mpr room, Bool.not_true, decide_false, Bool.or_self, Bool.false_eq_true, if_false,
    ringWrite]
  split
  · exact msixSend_disabled (by simp [disabled])
  · rfl

end

/-! ## DEV_STATUS, answered on every port (R438, R439, R441) -/

theorem devStatus_spi (rq : Req) (p : List Byte) (s : State) (accepts : Accepts s rq 0x0002 p.length) (spi : 4 ≤ rq.port)
    (loud : rq.quiet = false) :
    Does (.devStatus rq p) s fun t => t.host = { s.host with
        lastPort := 4,
        spi := { s.host.spi with
          packet := none, current := none, readPos := 0,
          reply := some (withCrc32 (replyHeader (asOp rq 2) 16 0 0 false ++ devStatusBytes s)) } } ∧ SameExcept [.host] s t := by
  have taken : accepted s rq 2 = { s with host := { s.host with
      lastPort := 4, spi := { s.host.spi with current := some (asOp rq 2), packet := none } } } := if_pos spi
  refine ⟨_, (devStatus_answers rq p s accepts).trans (congrArg _ (replyOk_spi (devStatusBytes s) spi loud)), ?_, ?_⟩
  · rw [taken]
    rfl
  · rw [taken]
    simp [SameExcept]

/-! The replies below are of any command that changes nothing, on host port `h`, with `n` bytes of payload. -/

section
variable {s : State} {h : HostId} {rq : Req} {op n : Nat} {pl : List Byte} (port : rq.port = h)
include port

theorem replyOk_rings (len : pl.length = n) (loud : rq.quiet = false) (up : (s.hp h).linkUp = true)
    (room : (s.hp h).pending < (s.hp h).replySize) (disabled : (s.hp h).msixEnable = false) :
    let hdr := replyHeader (asOp rq op) n 0 0 ((s.hp h).replyWr / (s.hp h).replySize % 2 = 0)
    let at_ := (s.hp h).replyBase / 4096 * 4096 + 4096 * ((s.hp h).replyWr % (s.hp h).replySize)
    HpAs s h { s.hp h with
        dropReply := false, current := none, waiting := none, replyWr := ((s.hp h).replyWr + 1) % 2 ^ 32,
        mem := bytesWrite 0 (bytesWrite 0 (s.hp h).mem (at_ + 16) (pl ++ leBytes 4 (crc32c (hdr ++ pl)))) at_ hdr }
      (replyOk (accepted s rq op) (asOp rq op) pl) ∧
    (replyOk (accepted s rq op) (asOp rq op) pl).host.lastPort = h := by
  obtain ⟨taken, last⟩ := accepted_hp op s port
  have rings := hostReply_ring (s := accepted s rq op) (h := h) (replyHeader (asOp rq op) n 0 0 false) pl
    (by rw [taken.here]) (by rw [taken.here]; exact up) (by rw [taken.here]; exact room) (by rw [taken.here]; exact disabled)
  simp only [taken.here, withPhase_replyHeader] at rings
  rw [replyOk_host (rq := asOp rq op) pl port loud, len, rings]
  exact ⟨taken.setHp _, (State.setHp_lastPort _ _ _).trans last⟩

theorem replyOk_waits (len : pl.length = n) (loud : rq.quiet = false) (up : (s.hp h).linkUp = true)
    (ring : (s.hp h).replySize ≠ 0) (full : (s.hp h).replySize ≤ (s.hp h).pending) :
    HpAs s h { s.hp h with
        dropReply := false, current := some (asOp rq op), waiting := some (replyHeader (asOp rq op) n 0 0 false ++ pl) }
      (replyOk (accepted s rq op) (asOp rq op) pl) := by
  obtain ⟨taken, -⟩ := accepted_hp op s port
  have waits := hostReply_full (s := accepted s rq op) (h := h) (replyHeader (asOp rq op) n 0 0 false) pl
    (by rw [taken.here]) (by rw [taken.here]; exact up) (by rw [taken.here]; exact ring) (by rw [taken.here]; exact full)
  rw [taken.here] at waits
  rw [replyOk_host (rq := asOp rq op) pl port loud, len, waits]
  exact taken.setHp _

theorem replyOk_discarded (loud : rq.quiet = false) (down : (s.hp h).linkUp = false)
    (first : mapGet? s.ev.rate (rateKey 0x0F03 h) = none) (room : Room 1 s) :
    ∃ t ev, HpAs s h { s.hp h with
        dropReply := false, current := none, replyDiscarded := min ((s.hp h).replyDiscarded + 1) (2 ^ 32 - 1) } t ∧
      replyOk (accepted s rq op) (asOp rq op) pl = { t with ev := ev } ∧
      Queued (replyOk (accepted s rq op) (asOp rq op) pl) 9 h 0x0F03 := by
  obtain ⟨taken, -⟩ := accepted_hp op s port
  have drops := hostReply_down (s := accepted s rq op) (h := h) (replyHeader (asOp rq op) pl.length 0 0 false) pl
    (by rw [taken.here]) (by rw [taken.here]; exact down)
  rw [taken.here, countDiscard, State.hp_setHp_self] at drops
  have counted := (taken.setHp { s.hp h with current := none, dropReply := false }).setHp
    { s.hp h with current := none, dropReply := false, replyDiscarded := satAdd 32 (s.hp h).replyDiscarded 1 }
  obtain ⟨host, e⟩ := counted.rest
  obtain ⟨ev, reported, queued⟩ := raiseLimited_first
    (((accepted s rq op).setHp h { s.hp h with current := none, dropReply := false }).setHp h
      { s.hp h with current := none, dropReply := false, replyDiscarded := satAdd 32 (s.hp h).replyDiscarded 1 })
    9 h 0x0F03 h 19661 1 (fun n => leBytes 1 h ++ leBytes 4 n) (by rw [e]; exact first) (by rw [e]; exact room)
  rw [replyOk_host (rq := asOp rq op) pl port loud, drops]
  exact ⟨_, ev, counted, reported, queued⟩

theorem replyOk_silent (quiet : rq.quiet = true) :
    HpAs s h { s.hp h with dropReply := false, current := none } (replyOk (accepted s rq op) (asOp rq op) pl) := by
  obtain ⟨taken, -⟩ := accepted_hp op s port
  rw [replyOk_quiet (rq := asOp rq op) pl port quiet, taken.here]
  exact taken.setHp _

end

section
variable (h : HostId) (rq : Req) (p : List Byte) (s : State) (port : rq.port = h) (accepts : Accepts s rq 0x0002 p.length)
include port accepts

theorem devStatus_rings (loud : rq.quiet = false) (up : (s.hp h).linkUp = true) (room : (s.hp h).pending < (s.hp h).replySize)
    (disabled : (s.hp h).msixEnable = false) :
    Does (.devStatus rq p) s fun t =>
      let hdr := replyHeader (asOp rq 2) 16 0 0 ((s.hp h).replyWr / (s.hp h).replySize % 2 = 0)
      let at_ := (s.hp h).replyBase / 4096 * 4096 + 4096 * ((s.hp h).replyWr % (s.hp h).replySize)
      t.hp h = { s.hp h with
          dropReply := false, current := none, waiting := none, replyWr := ((s.hp h).replyWr + 1) % 2 ^ 32,
          mem := bytesWrite 0 (bytesWrite 0 (s.hp h).mem (at_ + 16)
            (devStatusBytes s ++ leBytes 4 (crc32c (hdr ++ devStatusBytes s)))) at_ hdr } ∧
      OtherHosts s t h ∧ t.host.lastPort = h ∧ SameExcept [.host] s t := by
  obtain ⟨rings, last⟩ := replyOk_rings (op := 2) port (devStatusBytes_length s) loud up room disabled
  obtain ⟨here, there, frame⟩ := rings.spec
  exact ⟨_, devStatus_answers rq p s accepts, here, there, last, frame⟩

theorem devStatus_waits (loud : rq.quiet = false) (up : (s.hp h).linkUp = true) (ring : (s.hp h).replySize ≠ 0)
    (full : (s.hp h).replySize ≤ (s.hp h).pending) :
    Does (.devStatus rq p) s fun t => t.hp h = { s.hp h with
          dropReply := false, current := some (asOp rq 2),
          waiting := some (replyHeader (asOp rq 2) 16 0 0 false ++ devStatusBytes s) } ∧
      OtherHosts s t h ∧ SameExcept [.host] s t :=
  ⟨_, devStatus_answers rq p s accepts, (replyOk_waits (op := 2) port (devStatusBytes_length s) loud up ring full).spec⟩

theorem devStatus_discarded (loud : rq.quiet = false) (down : (s.hp h).linkUp = false)
    (first : mapGet? s.ev.rate (rateKey 0x0F03 h) = none) (room : Room 1 s) :
    Does (.devStatus rq p) s fun t => t.hp h = { s.hp h with
          dropReply := false, current := none, replyDiscarded := min ((s.hp h).replyDiscarded + 1) (2 ^ 32 - 1) } ∧
      OtherHosts s t h ∧ Queued t 9 h 0x0F03 ∧ SameExcept [.host, .ev] s t := by
  obtain ⟨t, ev, drops, e, queued⟩ := replyOk_discarded (op := 2) (pl := devStatusBytes s) port loud down first room
  obtain ⟨here, there, host, frame⟩ := drops
  have answers := devStatus_answers rq p s accepts
  rw [Answers, e] at answers
  rw [e] at queued
  exact ⟨_, answers, here, there, queued, by rw [frame]; simp [SameExcept]⟩

theorem devStatus_quiet (quiet : rq.quiet = true) :
    Does (.devStatus rq p) s fun t => t.hp h = { s.hp h with dropReply := false, current := none } ∧ OtherHosts s t h ∧
      SameExcept [.host] s t :=
  ⟨_, devStatus_answers rq p s accepts, (replyOk_silent port quiet).spec⟩

end

/-! ## The arbiter of packets (R436, R442, R447) -/

theorem packetAcceptance_idle (s : State) (none : turn s = none) : Idle .packetAcceptance s :=
  congrArg Host.Outcome.next (by simp only [packetAcceptanceOp, none])

/-- A slot that becomes free changes the host part alone, and no port's role. -/
theorem freeSlot_onlyHost (s : State) (q : Nat) : ∃ host, freeSlot s q = { s with host := host } ∧
    ∀ port, State.roleOf { s with host := host } port = s.roleOf port := by
  unfold freeSlot
  split
  · exact ⟨s.host, rfl, fun _ => rfl⟩
  · split
    case h_1 k rest _ =>
      have role (port : Nat) := s.hp_setHp_role q port
        { s.hp q with order := rest, slotBusy := (s.hp q).slotBusy &&& ~~~((1 : BitVec 64) <<< k) } rfl
      obtain ⟨host, e, -⟩ := s.setHp_onlyHost q
        { s.hp q with order := rest, slotBusy := (s.hp q).slotBusy &&& ~~~((1 : BitVec 64) <<< k) }
      rw [e] at role ⊢
      exact ⟨host, rfl, fun port => by simp only [State.roleOf, role]⟩
    case h_2 => exact ⟨s.host, rfl, fun _ => rfl⟩

section
variable (b : List Byte) (s : State)

theorem packetAcceptance_runs {q : Nat} (offers : turn s = some (q, b)) :
    exec .packetAcceptance s = .next (runPacket (acceptReq (freeSlot s q) (packetReq q b)) (packetReq q b) b) :=
  congrArg Host.Outcome.next (by simp only [packetAcceptanceOp, offers])

theorem packetAcceptance_devStatus (q : Nat) (offers : turn s = some (q, b)) (len : rd b 4 2 ≤ 4076)
    (whole : q < 4 ∨ b.length = 20 + rd b 4 2) (crc : packetCrcOk b (rd b 4 2) = true) (op : rd b 0 2 = 2)
    (passes : headCheck s (packetReq q b) (rd b 4 2) = none) :
    exec .packetAcceptance s =
      .next (replyOk (acceptReq (freeSlot s q) (packetReq q b)) (packetReq q b) (devStatusBytes s)) := by
  obtain ⟨host, freed, role⟩ := freeSlot_onlyHost s q
  obtain ⟨host', taken, keeps⟩ := acceptReq_onlyHost (freeSlot s q) (packetReq q b)
  rw [freed] at taken keeps
  have passes' : headCheck (acceptReq (freeSlot s q) (packetReq q b)) (packetReq q b) (slice b 16 (rd b 4 2)).length = none := by
    rw [freed, taken, show (slice b 16 (rd b 4 2)).length = rd b 4 2 by simp [slice],
      headCheck_onlyHost s host' _ _ ((keeps.role _).trans (role _)), passes]
  have short : ¬(4076 < rd b 4 2 || (4 ≤ (packetReq q b).port && b.length ≠ 20 + rd b 4 2)) = true := by
    have port : (packetReq q b).port = q := rfl
    simp only [port, Bool.or_eq_true, Bool.and_eq_true, decide_eq_true_eq]
    omega
  have long : ¬4076 < (slice b 16 (rd b 4 2)).length := by simpa [slice] using len
  have isStatus : opBody (packetReq q b).opcode = opBody 2 := congrArg opBody op
  rw [packetAcceptance_runs b s offers, runPacket]
  simp only [if_neg short, crc, Bool.not_true, Bool.false_eq_true, if_false, runChecked, if_neg long, passes', isStatus]
  rw [freed, taken]
  rfl

theorem packetAcceptance_badCrc (offers : turn s = some (4, b)) (len : rd b 4 2 ≤ 4076) (whole : b.length = 20 + rd b 4 2)
    (crc : packetCrcOk b (rd b 4 2) = false) :
    exec .packetAcceptance s = .next (refuse (acceptReq s (packetReq 4 b)) (packetReq 4 b) 1 0) := by
  have short : ¬(4076 < rd b 4 2 || (4 ≤ (packetReq 4 b).port && b.length ≠ 20 + rd b 4 2)) = true := by
    simp only [whole, Bool.or_eq_true, Bool.and_eq_true, decide_eq_true_eq]
    omega
  have spi : 4 ≤ (packetReq 4 b).port := le_refl 4
  have same : freeSlot s 4 = s := rfl
  rw [packetAcceptance_runs b s offers, runPacket, same]
  simp only [if_neg short, crc, Bool.not_false, if_true, if_pos spi]

end

/-- Settles O45: the checks of R443 answer before a command's body runs, and DEV_STATUS, which changes nothing, shows what
becomes of a reply. -/
theorem delazPackets : Obligations.DelazPackets :=
  ⟨delaz_shut, delaz_tooLong, delaz_fails, delaz_booting, fun i op o rq p s row open_ len => delaz_role i op rq p s row open_ len o,
   delaz_fatal, devStatus_spi, devStatus_rings, devStatus_waits, devStatus_discarded, devStatus_quiet, packetAcceptance_idle,
   fun b q s => packetAcceptance_devStatus b s q, packetAcceptance_badCrc⟩

/-! ## DBG_CHALLENGE (R591) -/

/-- A packet whose opcode has one payload length passes the checks only with that length. -/
theorem accepts_length {s : State} {rq : Req} {op n : Nat} {o : OpInfo} (accepts : Accepts s rq op n) (info : opInfo op = some o) :
    o.lenOk n = true := by
  obtain ⟨-, -, passes⟩ := accepts
  by_contra wrong
  have wrong' : o.lenOk n = false := by simpa using wrong
  simp only [headCheck, asOp_opcode, info, wrong', Bool.not_false, if_true] at passes
  split_ifs at passes

theorem dbgChallenge_empty (rq : Req) (p : List Byte) (s : State) (accepts : Accepts s rq 0x0A01 p.length) : p = [] := by
  have none : (opFix 1 [0] 0).lenOk p.length = true := accepts_length accepts rfl
  simpa [opFix] using none

theorem dbgChallenge_draws (rq : Req) (s : State) (accepts : Accepts s rq 0x0A01 0) (locked : s.proul.unlocked = false) :
    let b := padTo 32 ((Config.random s.freeCount 32).take 32)
    b.length = 32 ∧ Leads (.dbgChallenge rq []) rq 0x0A01 (b ++ leBytes 8 (s.now + s.param 0x1601 0)) (fun u =>
      u.proul = { s.proul with challenge := some { bytes := b, expiry := s.now + s.param 0x1601 0 } }) s := by
  refine ⟨by simp [padTo], leads_of_body rfl accepts fun host _ => ?_⟩
  simp only [cmdDbgChallenge, locked, Bool.false_eq_true, if_false]
  exact ⟨_, rfl, rfl⟩

theorem dbgChallenge_unlocked (rq : Req) (p : List Byte) (s : State) (accepts : Accepts s rq 0x0A01 p.length)
    (unlocked : s.proul.unlocked = true) : ∃ d, Refuses (.dbgChallenge rq p) s rq 0x0A01 7 d :=
  ⟨0xFFFF, refuses_of_body rfl accepts fun _ _ => if_pos unlocked⟩

/-- Settles O52: the payload's length is one of the checks, and the command's body draws the challenge. -/
theorem challengeIsDrawn : Obligations.ChallengeIsDrawn := ⟨dbgChallenge_empty, dbgChallenge_draws, dbgChallenge_unlocked⟩

end Sys2Proof.Machine
end

section
namespace Sys2Proof.Machine

open Sys2Proof.Claims

/-! ## The TAP (R576, R577) -/

section
variable (s : State) (powered : s.boot.off = false)
include powered

theorem tapLoad_loads (ir v : Nat) :
    (tapLoad s ir v).proul = { s.proul with ir := ir, driving := none, bscan := v } ∧ SameExcept [.proul] s (tapLoad s ir v) := by
  rw [tapLoad, if_neg (by simp [powered])]
  exact ⟨rfl, by simp [SameExcept]⟩

theorem tapReset_loads :
    (tapResetOp s).proul = { s.proul with ir := 2, driving := none } ∧ SameExcept [.proul] s (tapResetOp s) := by
  rw [tapResetOp, if_neg (by simp [powered])]
  exact ⟨rfl, by simp [SameExcept]⟩

/-- A pin-driving instruction drives the pins or is blocked, as R577 lets it. -/
theorem tapDrive_drives (ir : Nat) (v : Option Nat) :
    SameExcept [.proul] s (tapDrive s ir v) ∧
    (s.boot.rstLow = true ∨ s.boot.devState = 5 →
      (tapDrive s ir v).proul = { s.proul with ir := ir, driving := some ir, bscan := v.getD s.proul.bscan }) ∧
    (s.boot.rstLow = false → s.boot.devState ≠ 5 →
      (tapDrive s ir v).proul = { s.proul with ir := ir, driving := none, blocked := true }) := by
  rw [tapDrive, if_neg (by simp [powered])]
  split
  case isTrue may =>
    have mayDrive : s.boot.rstLow = true ∨ s.boot.devState = 5 := by simpa using may
    exact ⟨by simp [SameExcept], fun _ => rfl, fun high started => by simp [high, started] at mayDrive⟩
  case isFalse barred =>
    have mayNot : ¬(s.boot.rstLow = true ∨ s.boot.devState = 5) := by simpa using barred
    exact ⟨by simp [SameExcept], fun may => absurd may mayNot, fun _ _ => rfl⟩

theorem tap_loads :
    (Does .tapReset s fun t => t.proul = { s.proul with ir := 2, driving := none } ∧ SameExcept [.proul] s t) ∧
    (∀ v, Does (.samplePreload v) s fun t => t.proul = { s.proul with ir := 1, driving := none, bscan := v } ∧
      SameExcept [.proul] s t) ∧
    (Does .idcode s fun t => t.proul = { s.proul with ir := 2, driving := none } ∧ SameExcept [.proul] s t) ∧
    (Does .proulAccess s fun t => t.proul = { s.proul with ir := 0x20, driving := none } ∧ SameExcept [.proul] s t) ∧
    Does .bypass s fun t => t.proul = { s.proul with ir := 0xFF, driving := none } ∧ SameExcept [.proul] s t :=
  ⟨⟨_, rfl, tapReset_loads s powered⟩, fun v => ⟨_, rfl, tapLoad_loads s powered 1 v⟩, ⟨_, rfl, tapLoad_loads s powered 2 _⟩,
   ⟨_, rfl, tapLoad_loads s powered 0x20 _⟩, ⟨_, rfl, tapLoad_loads s powered 0xFF _⟩⟩

end

theorem tap_drives (i : Instr) (ir v : Nat) (s : State)
    (row : (ir = 0 ∧ i = .extest v) ∨ (ir = 3 ∧ i = .clamp ∧ v = s.proul.bscan) ∨
      (ir = 4 ∧ i = .highz ∧ v = s.proul.bscan) ∨ (ir = 5 ∧ i = .extestPulse v) ∨ (ir = 6 ∧ i = .extestTrain v))
    (powered : s.boot.off = false) :
    Does i s fun t => SameExcept [.proul] s t ∧
      (s.boot.rstLow = true ∨ s.boot.devState = 5 → t.proul = { s.proul with ir := ir, driving := some ir, bscan := v }) ∧
      (s.boot.rstLow = false → s.boot.devState ≠ 5 → t.proul = { s.proul with ir := ir, driving := none, blocked := true }) := by
  rcases row with ⟨rfl, rfl⟩ | ⟨rfl, rfl, rfl⟩ | ⟨rfl, rfl, rfl⟩ | ⟨rfl, rfl⟩ | ⟨rfl, rfl⟩ <;>
    exact ⟨_, rfl, tapDrive_drives s powered _ _⟩

/-! ## Operations of the Proul register (R578 to R582) -/

/-- An operation of the Proul register is one of `proulOp` with the address that it names. -/
theorem proul_row {i : Instr} {a : Nat} (row : IsProul i a) : ∃ body : State → State → State, ∀ s, exec i s = .next (proulOp s a (body s)) := by
  rcases row with ⟨rfl, rfl⟩ | ⟨a, rfl, rfl⟩ | ⟨a, d, rfl, rfl⟩ | ⟨a, rfl, rfl⟩ | ⟨a, d, rfl, rfl⟩ | ⟨k, rfl, rfl⟩ | ⟨k, rfl, rfl⟩ |
    ⟨k, rfl, rfl⟩ | ⟨m, rfl, rfl⟩ <;> exact ⟨_, fun _ => rfl⟩

theorem proulDone_results {i : Instr} {s : State} {addr res data : Nat} (runs : exec i s = .next (proulDone s addr res data)) :
    Results i s addr res data := ⟨_, runs, rfl, by simp [SameExcept, proulDone]⟩

theorem proul_pending (i : Instr) (a : Nat) (s : State) (row : IsProul i a) (busy : s.boot.off = true ∨ s.proul.result = 1) : Idle i s := by
  obtain ⟨body, runs⟩ := proul_row row
  exact (runs s).trans (congrArg Host.Outcome.next (if_pos (by simpa using busy)))

theorem proulOp_open {s : State} (addr : Nat) (body : State → State) (powered : s.boot.off = false) (done : s.proul.result ≠ 1) :
    proulOp s addr body = if !s.proul.unlocked then proulDone s addr proulLocked 0 else body s :=
  if_neg (by simp [powered, done])

theorem proul_locked (i : Instr) (a : Nat) (s : State) (row : IsProul i a) (powered : s.boot.off = false) (done : s.proul.result ≠ 1)
    (locked : s.proul.unlocked = false) : Results i s a 2 0 := by
  obtain ⟨body, runs⟩ := proul_row row
  refine proulDone_results ((runs s).trans (congrArg Host.Outcome.next ?_))
  rw [proulOp_open _ _ powered done, if_pos (by simp [locked])]

theorem proulOp_unlocked {s : State} (addr : Nat) (body : State → State) (unlocked : Unlocked s) : proulOp s addr body = body s := by
  obtain ⟨powered, open_, done⟩ := unlocked
  rw [proulOp_open _ _ powered done, if_neg (by simp [open_])]

theorem nop_results (s : State) (unlocked : Unlocked s) : Results .nop s 0 0 0 :=
  proulDone_results (congrArg Host.Outcome.next (proulOp_unlocked 0 _ unlocked))

/-! ## Fabric operations (R580) -/

theorem fab_misaligned (a d : W64) (s : State) (unlocked : Unlocked s) (misaligned : a.toNat % 8 ≠ 0) :
    Results (.fabRead a) s a.toNat 5 0 ∧ Results (.fabWrite a d) s a.toNat 5 0 := by
  have refuses (write : Bool) (data : Nat) : proulFab s write a.toNat data = proulDone s a.toNat 5 0 := by
    rw [proulFab, proulOp_unlocked _ _ unlocked, if_pos misaligned]
  exact ⟨proulDone_results (congrArg Host.Outcome.next (refuses false 0)),
    proulDone_results (congrArg Host.Outcome.next (refuses true d.toNat))⟩

/-- An aligned fabric operation leaves the register PENDING and sends one packet of 8 bytes. -/
theorem proulFab_sends (s : State) (write : Bool) (addr data : Nat) (unlocked : Unlocked s) (aligned : addr % 8 = 0) :
    (proulFab s write addr data).proul = { s.proul with result := 1, addr := addr, data := 0, relocked := false } ∧
    (proulFab s write addr data).fab.flight = s.fab.flight ++ [{
      cmd := if write then 2 else 1, vc := 0, src := lanimanNode, dst := (targetNode (fabTarget addr)).getD 1023, addr := addr, len := 8
      tag := freeTag s lanimanNode, gen := (s.ni (niKey lanimanNode 65534)).gen
      data := if write then leBytes 8 data else [], chan := 65534 }] ∧
    SameExcept [.proul, .fab] s (proulFab s write addr data) := by
  rw [proulFab, proulOp_unlocked _ _ unlocked, if_neg (not_not.mpr aligned)]
  exact ⟨rfl, rfl, by simp [SameExcept, issue, inject, proulDone]⟩

theorem fab_sends (i : Instr) (a d : W64) (cmd : Nat) (s : State) (unlocked : Unlocked s) (aligned : a.toNat % 8 = 0)
    (row : (cmd = 1 ∧ i = .fabRead a) ∨ (cmd = 2 ∧ i = .fabWrite a d)) :
    Does i s fun t => t.proul = { s.proul with result := 1, addr := a.toNat, data := 0, relocked := false } ∧
      t.fab.flight = s.fab.flight ++ [{
        cmd := cmd, vc := 0, src := lanimanNode,
        dst := (targetNode (fabTarget a.toNat)).getD 1023, addr := a.toNat, len := 8, tag := freeTag s lanimanNode,
        gen := (s.ni (niKey lanimanNode 65534)).gen, data := if cmd = 2 then leBytes 8 d.toNat else [], chan := 65534 }] ∧
      SameExcept [.proul, .fab] s t := by
  rcases row with ⟨rfl, rfl⟩ | ⟨rfl, rfl⟩
  · exact ⟨_, rfl, proulFab_sends s false a.toNat 0 unlocked aligned⟩
  · exact ⟨_, rfl, proulFab_sends s true a.toNat d.toNat unlocked aligned⟩

/-! ## Debug reads and writes (R581 to R583) -/

section
variable {s : State} (unlocked : Unlocked s)
include unlocked

/-- A debug read of a place that no halt guards answers its value. -/
theorem dbgRead_free {a : W64} {p : DbgPlace} (place : dbgPlace a.toNat = p) (named : p ≠ .bad) (free : haltedOnly p = none) :
    Results (.dbgRead a) s a.toNat 0 (dbgValue s p) := by
  refine proulDone_results (congrArg Host.Outcome.next ?_)
  rw [proulDbgRead, proulOp_unlocked _ _ unlocked]
  simp only [place, if_neg named, free]

/-- A debug read of a halted core's place answers its value, and one of a core that is not halted NOT_HALTED. -/
theorem dbgRead_core {a : W64} {p : DbgPlace} {k : Nat} (place : dbgPlace a.toNat = p) (guarded : haltedOnly p = some k) :
    exec (.dbgRead a) s = .next (if (s.core k).dbg.halted then proulDone s a.toNat 0 (dbgValue s p) else proulDone s a.toNat 3 0) := by
  have named : p ≠ .bad := by
    rintro rfl
    cases guarded
  refine congrArg Host.Outcome.next ?_
  rw [proulDbgRead, proulOp_unlocked _ _ unlocked]
  simp only [place, if_neg named, guarded]

/-- A debug write of a place that no halt guards stores at once. -/
theorem dbgWrite_free {i : Instr} {a v : Nat} {p : DbgPlace} (row : exec i s = .next (proulDbgWrite s a v)) (place : dbgPlace a = p)
    (free : (∃ k off, p = .reg k off) ∨ p = .xt) : exec i s = .next (proulDone (dbgStore s p v) a 0 0) := by
  refine row.trans (congrArg Host.Outcome.next ?_)
  rw [proulDbgWrite, proulOp_unlocked _ _ unlocked]
  rcases free with ⟨k, off, rfl⟩ | rfl <;> simp only [place, haltedOnly]

theorem dbgWrite_g {a d : W64} {k n : Nat} (place : dbgPlace a.toNat = .g k n) :
    exec (.dbgWrite a d) s = .next (if (s.core k).dbg.halted then
      proulDone (s.setCore k { s.core k with regs := (s.core k).regs.setG n d }) a.toNat 0 0 else proulDone s a.toNat 3 0) := by
  refine congrArg Host.Outcome.next ?_
  rw [proulDbgWrite, proulOp_unlocked _ _ unlocked]
  simp only [place, haltedOnly, dbgStore, BitVec.ofNat_toNat, BitVec.setWidth_eq]

end

section
variable (a d : W64) (s : State) (unlocked : Unlocked s)
include unlocked

theorem dbg_badAddress (place : dbgPlace a.toNat = .bad) : Results (.dbgRead a) s a.toNat 5 0 ∧ Results (.dbgWrite a d) s a.toNat 5 0 := by
  constructor
  · refine proulDone_results (congrArg Host.Outcome.next ?_)
    rw [proulDbgRead, proulOp_unlocked _ _ unlocked]
    exact if_pos place
  · refine proulDone_results (congrArg Host.Outcome.next ?_)
    rw [proulDbgWrite, proulOp_unlocked _ _ unlocked]
    simp only [place]

end

theorem dbgWrite_imem (a d : W64) (k off : Nat) (s : State) (unlocked : Unlocked s) (place : dbgPlace a.toNat = .imem k off) :
    Results (.dbgWrite a d) s a.toNat 4 0 := by
  refine proulDone_results (congrArg Host.Outcome.next ?_)
  rw [proulDbgWrite, proulOp_unlocked _ _ unlocked]
  simp only [place]

theorem dbg_notHalted (a d : W64) (k n : Nat) (s : State) (unlocked : Unlocked s) (place : dbgPlace a.toNat = .g k n)
    (runs : (s.core k).dbg.halted = false) : Results (.dbgRead a) s a.toNat 3 0 ∧ Results (.dbgWrite a d) s a.toNat 3 0 := by
  have notHalted : ¬(s.core k).dbg.halted = true := by simp [runs]
  exact ⟨proulDone_results ((dbgRead_core unlocked place rfl).trans (by rw [if_neg notHalted])),
    proulDone_results ((dbgWrite_g unlocked place).trans (by rw [if_neg notHalted]))⟩

theorem dbgRead_g (a : W64) (k n : Nat) (s : State) (unlocked : Unlocked s) (place : dbgPlace a.toNat = .g k n)
    (halted : (s.core k).dbg.halted = true) : Results (.dbgRead a) s a.toNat 0 ((s.core k).regs.getG n).toNat :=
  proulDone_results ((dbgRead_core unlocked place rfl).trans (by rw [if_pos halted]; rfl))

theorem dbgRead_imem (a : W64) (k off : Nat) (s : State) (unlocked : Unlocked s) (place : dbgPlace a.toNat = .imem k off)
    (halted : (s.core k).dbg.halted = true) : Results (.dbgRead a) s a.toNat 0 (leNat (bytesRead 0 (s.core k).imem off 8)) :=
  proulDone_results ((dbgRead_core unlocked place rfl).trans (by rw [if_pos halted]; rfl))

theorem dbgRead_dstat (a : W64) (k : Nat) (s : State) (unlocked : Unlocked s) (place : dbgPlace a.toNat = .reg k 0x408) :
    Results (.dbgRead a) s a.toNat 0 (dstat (s.core k)) := dbgRead_free unlocked place (by simp) rfl

/-- A write that replaces a core in debug space. -/
theorem stores_setCore {i : Instr} {s : State} {addr k : Nat} {c : Core} (runs : exec i s = .next (proulDone (s.setCore k c) addr 0 0)) :
    Stores i s addr k c :=
  ⟨_, runs, State.core_setCore_self s k c, fun _ other => State.core_setCore_ne s k c other, rfl,
   by simp [SameExcept, proulDone, State.setProul]⟩

theorem dbgWrite_setsG (a d : W64) (k n : Nat) (s : State) (unlocked : Unlocked s) (place : dbgPlace a.toNat = .g k n)
    (halted : (s.core k).dbg.halted = true) :
    Stores (.dbgWrite a d) s a.toNat k { s.core k with regs := (s.core k).regs.setG n d } :=
  stores_setCore ((dbgWrite_g unlocked place).trans (by rw [if_pos halted]))

theorem dbgWrite_setsBreakpoint (a d : W64) (k i : Nat) (s : State) (unlocked : Unlocked s) (one : i < 4)
    (place : dbgPlace a.toNat = .reg k (0x420 + 8 * i)) :
    Stores (.dbgWrite a d) s a.toNat k { s.core k with
      dbg := { (s.core k).dbg with bp := (s.core k).dbg.bp.set i (bpValue d.toNat) } } := by
  refine stores_setCore ((dbgWrite_free unlocked rfl place (.inl ⟨_, _, rfl⟩)).trans ?_)
  have other : ¬0x420 + 8 * i = 0x400 := by omega
  have inside : (decide (0x420 ≤ 0x420 + 8 * i) && decide (0x420 + 8 * i ≤ 0x438)) = true := by
    simp only [Bool.and_eq_true, decide_eq_true_eq]
    omega
  have index : (0x420 + 8 * i - 0x420) / 8 = i := by omega
  rw [dbgStore, dbgRegWrite, if_neg other, if_pos inside, index]

/-! ## HALT, RESUME and STEP (R584, R586) -/

theorem dbgPlace_dctl (k : CoreId) : dbgPlace (dctlAddr k) = .reg k 0x400 := by
  have small := k.isLt
  have core : field (dctlAddr k) 29 20 = k.val := by
    unfold field dctlAddr
    omega
  have register : dctlAddr k % 2 ^ 20 = 0x400 := by
    unfold dctlAddr
    omega
  have kind : field (dctlAddr k) 31 30 = 0 := by
    unfold field dctlAddr
    omega
  have inside : ¬(dctlAddr k % 8 ≠ 0 ∨ 2 ^ 32 ≤ dctlAddr k) := by
    unfold dctlAddr
    omega
  simp only [dbgPlace, core, register, kind]
  rw [if_neg (by simpa using inside)]
  rfl

theorem drainHook_inService {t : State} {k : Nat} (noDrain : mapGet? t.mill.drains k = none) : drainHook t k = t :=
  if_pos (by simp [drained, noDrain])

section
variable (k : CoreId) (s : State) (unlocked : Unlocked s)
include unlocked

/-- A write of DCTL acts on its core and answers OK. -/
theorem dctl_writes {i : Instr} {v : Nat} (row : exec i s = .next (proulDbgWrite s (dctlAddr k) v)) :
    exec i s = .next (proulDone (dctlWrite s k v) (dctlAddr k) 0 0) :=
  dbgWrite_free unlocked row (dbgPlace_dctl k) (.inl ⟨_, _, rfl⟩)

theorem halt_requests (on : s.domainOn (k.val / 16) = true) (runs : (s.core k).dbg.halted = false)
    (fresh : (s.core k).dbg.requested = false) (inService : (s.core k).restoring = false) :
    Stores (.halt k) s (dctlAddr k) k { s.core k with dbg := { (s.core k).dbg with requested := true, cause := 1 } } := by
  refine stores_setCore ((dctl_writes k s unlocked rfl).trans ?_)
  simp [dctlWrite, haltRequest, requestHalt, on, runs, fresh, inService]

theorem resume_resumes (halted : (s.core k).dbg.halted = true) (noDrain : mapGet? s.mill.drains k = none) :
    Stores (.resume k) s (dctlAddr k) k { s.core k with
      dbg := { (s.core k).dbg with halted := false, requested := false, cause := 0, index := 0, skipBp := true } } := by
  refine stores_setCore ((dctl_writes k s unlocked rfl).trans (congrArg Host.Outcome.next ?_))
  have resumes : dctlWrite s k 2 = resumeCore s k := rfl
  rw [resumes, resumeCore, if_neg (by simp [halted]), drainHook_inService (by exact noDrain)]

theorem step_steps (halted : (s.core k).dbg.halted = true) :
    Stores (.step k) s (dctlAddr k) k { s.core k with
      dbg := { (s.core k).dbg with halted := false, requested := false, stepping := true, skipBp := true } } := by
  refine stores_setCore ((dctl_writes k s unlocked rfl).trans ?_)
  have steps : dctlWrite s k 4 = stepCore s k := rfl
  rw [steps, stepCore, if_neg (by simp [halted])]

end

theorem dctl_noEffect (i : Instr) (k : CoreId) (s : State) (unlocked : Unlocked s)
    (row : (i = .halt k ∧ (s.core k).dbg.halted = true) ∨ ((i = .resume k ∨ i = .step k) ∧ (s.core k).dbg.halted = false)) :
    Results i s (dctlAddr k) 0 0 := by
  refine proulDone_results ?_
  rcases row with ⟨rfl, halted⟩ | ⟨rfl | rfl, runs⟩
  · have ignored : dctlWrite s k 1 = s := by simp [dctlWrite, haltRequest, requestHalt, halted]
    exact (dctl_writes k s unlocked rfl).trans (by rw [ignored])
  · have ignored : dctlWrite s k 2 = s := by simp [dctlWrite, resumeCore, runs]
    exact (dctl_writes k s unlocked rfl).trans (by rw [ignored])
  · have ignored : dctlWrite s k 4 = s := by simp [dctlWrite, stepCore, runs]
    exact (dctl_writes k s unlocked rfl).trans (by rw [ignored])

theorem xtStatusClear_clears (m : Byte) (s : State) (unlocked : Unlocked s) :
    Does (.xtStatusClear m) s fun t => t.proul = { s.proul with
        result := 0, addr := xtAddr, data := 0, xtStatus := s.proul.xtStatus &&& (255 - m.toNat) } ∧ SameExcept [.proul] s t := by
  have whole : m.toNat % 256 = m.toNat := Nat.mod_eq_of_lt m.isLt
  refine ⟨_, dbgWrite_free unlocked rfl (p := .xt) (by decide) (.inr rfl), ?_, by simp [SameExcept, proulDone, dbgStore, State.setProul]⟩
  simp only [proulDone, dbgStore, State.setProul, whole]

/-! ## The halt point and cross-triggers (R584, R587) -/

theorem haltPoint_idle (k : CoreId) (s : State) (notYet : (s.core k).dbg.requested = false ∨ boundaryOpen (s.core k).regs = false) :
    Idle (.haltPointReached k) s := by
  refine congrArg Host.Outcome.next (if_neg ?_)
  rcases notYet with none | closed
  · simp [none]
  · simp [closed]

/-- A core as it halts: its results have retired, and it stands at its halt point with its cause. -/
def haltedAt (c : Core) (cause : Nat) : Core :=
  let d := (settle 8 c none 0).1
  { d with open_ := [], waiting := false
           dbg := { d.dbg with halted := true, requested := false, stepping := false, cause := cause, index := 0 } }

theorem haltPoint_halts (k : CoreId) (s : State) (requested : (s.core k).dbg.requested = true) (runs : (s.core k).dbg.halted = false)
    (inService : (s.core k).restoring = false) (boundary : boundaryOpen (s.core k).regs = true)
    (noTrap : (settle 8 (s.core k) none 0).2.1 = none) (stays : (settle 8 (s.core k) none 0).1.restoring = false)
    (noGroups : (settle 8 (s.core k) none 0).1.dbg.dxt % 256 = 0) (first : mapGet? s.ev.rate (rateKey 0x1604 k) = none)
    (room : Room 1 s) :
    Does (.haltPointReached k) s fun t => t.core k = { (settle 8 (s.core k) none 0).1 with
        open_ := [], waiting := false
        dbg := { (settle 8 (s.core k) none 0).1.dbg with
          halted := true, requested := false, stepping := false, cause := (s.core k).dbg.cause, index := 0 } } ∧
      (∀ j, j ≠ k.val → t.core j = s.core j) ∧ Queued t 0 0 0x1604 ∧ SameExcept [.facet, .ev] s t := by
  have halts : haltPoint s k = raiseLimited
      ((s.setCore k (settle 8 (s.core k) none 0).1).setCore k (haltedAt (s.core k) (s.core k).dbg.cause)) 0 0 0x1604 k 19661 1
      fun _ => leBytes 2 k ++ leBytes 1 (s.core k).dbg.cause ++ leBytes 2 (settle 8 (s.core k) none 0).1.regs.pc := by
    rw [haltPoint]
    simp only [requested, runs, inService, boundary, Bool.not_false, Bool.and_self, if_true, haltCore, noTrap, State.core_setCore_self,
      stays, noGroups, decide_true, Bool.or_true, Bool.false_eq_true, if_false, haltedAt]
  obtain ⟨ev, reported, queued⟩ := raiseLimited_first
    ((s.setCore k (settle 8 (s.core k) none 0).1).setCore k (haltedAt (s.core k) (s.core k).dbg.cause)) 0 0 0x1604 k 19661 1
    (fun _ => leBytes 2 k ++ leBytes 1 (s.core k).dbg.cause ++ leBytes 2 (settle 8 (s.core k) none 0).1.regs.pc) first room
  refine ⟨_, congrArg Host.Outcome.next halts, ?_, fun j other => ?_, queued, ?_⟩
  · rw [reported]
    exact State.core_setCore_self _ _ _
  · rw [reported]
    exact (State.core_setCore_ne _ _ _ other).trans (State.core_setCore_ne _ _ _ other)
  · rw [reported]
    simp [SameExcept]

theorem crossTrigger_idle (k : CoreId) (s : State) (none : k.val ∉ s.proul.xtPending) : Idle (.crossTriggerRequest k) s :=
  congrArg Host.Outcome.next (if_pos (by simp [none]))

theorem crossTrigger_requests (k : CoreId) (s : State) (pending : k.val ∈ s.proul.xtPending) (on : s.domainOn (k.val / 16) = true)
    (runs : (s.core k).dbg.halted = false) (fresh : (s.core k).dbg.requested = false) (inService : (s.core k).restoring = false) :
    Does (.crossTriggerRequest k) s fun t =>
      t.core k = { s.core k with dbg := { (s.core k).dbg with requested := true, cause := 5 } } ∧
      (∀ j, j ≠ k.val → t.core j = s.core j) ∧ k.val ∉ t.proul.xtPending ∧ SameExcept [.proul, .facet] s t := by
  let u := s.setProul { s.proul with xtPending := s.proul.xtPending.filter fun i => i ≠ k.val }
  have requests : crossTrigger s k = u.setCore k { s.core k with dbg := { (s.core k).dbg with requested := true, cause := 5 } } := by
    have on' : u.domainOn (k.val / 16) = true := on
    have core : u.core k = s.core k := rfl
    rw [crossTrigger, if_neg (by simp [pending])]
    change haltRequest u k 5 = _
    rw [haltRequest, if_neg (by simp [on']), requestHalt]
    simp only [core, runs, fresh, inService, Bool.or_self, Bool.false_eq_true, if_false]
  exact ⟨_, congrArg Host.Outcome.next requests, State.core_setCore_self u _ _, fun _ other => State.core_setCore_ne u _ _ other,
    by simp [u, State.setProul], by simp [u, SameExcept]⟩

/-! ## Expiry of an unlock and of a challenge (R590, R591) -/

theorem unlockExpiry_idle (s : State) (none : s.proul.expiry = none) : Idle .unlockExpiry s :=
  congrArg Host.Outcome.next (by simp only [unlockExpiryOp, none])

/-- With no core ever touched, a relock clears the Proul register's own debug state alone. -/
theorem clearDebug_noCores (s : State) (noCores : s.facet.cores = []) :
    clearDebug s = (s.setProul { s.proul with
      xtStatus := 0, xtPending := [], relocked := decide (s.proul.result = 1), unlocked := false, unlockAt := 0, expiry := none }, 0) := by
  have same : { s.facet with cores := [] } = s.facet := by rw [← noCores]
  simp [clearDebug, noCores, same, State.setProul]

theorem unlockExpiry_relocks (x : Nat) (s : State) (expires : s.proul.expiry = some x) (passed : x ≤ s.now)
    (unlocked : s.proul.unlocked = true) (noCores : s.facet.cores = []) (room : Room 1 s) :
    Does .unlockExpiry s fun t => t.proul.unlocked = false ∧ t.proul.unlockAt = 0 ∧ t.proul.expiry = none ∧
      Raised s t 0 0 0x1602 1 (leBytes 1 1 ++ leBytes 2 0) ∧ SameExcept [.proul, .ev] s t := by
  have relocks : unlockExpiryOp s = raise (clearDebug s).1 0 0 0x1602 (leBytes 1 1 ++ leBytes 2 (clearDebug s).2) := by
    simp [unlockExpiryOp, expires, reached, passed, relock, unlocked]
  rw [clearDebug_noCores s noCores] at relocks
  exact ⟨_, congrArg Host.Outcome.next (relocks.trans (raise_joins _ _ _ _ _ room)), rfl, rfl, rfl, rfl,
    by simp [SameExcept, State.setProul]⟩

theorem challengeExpiry_expires (c : Challenge) (s : State) (live : s.proul.challenge = some c) (passed : c.expiry ≤ s.now) :
    Does .challengeExpiry s fun t => t.proul = { s.proul with challenge := none } ∧ SameExcept [.proul] s t := by
  have expires : challengeExpiryOp s = s.setProul { s.proul with challenge := none } := by
    simp [challengeExpiryOp, live, reached, passed]
  exact ⟨_, congrArg Host.Outcome.next expires, rfl, by simp [SameExcept, State.setProul]⟩

theorem challengeExpiry_idle (s : State) (none : s.proul.challenge = none) : Idle .challengeExpiry s :=
  congrArg Host.Outcome.next (by simp only [challengeExpiryOp, none])

/-- Settles O60, clause by clause: each instruction, operation, request and expiry has its own lemma above. -/
theorem tapAndProul : Obligations.TapAndProul :=
  ⟨tap_loads, tap_drives, proul_pending, proul_locked, nop_results, fab_misaligned, fab_sends, dbg_badAddress, dbgWrite_imem,
   dbg_notHalted, dbgRead_g, dbgRead_imem, dbgRead_dstat, dbgWrite_setsG, dbgWrite_setsBreakpoint, halt_requests, resume_resumes,
   step_steps, dctl_noEffect, xtStatusClear_clears, haltPoint_idle, haltPoint_halts, crossTrigger_idle, crossTrigger_requests,
   unlockExpiry_idle, unlockExpiry_relocks, challengeExpiry_expires, challengeExpiry_idle⟩

end Sys2Proof.Machine
end

section
namespace Sys2Proof.Machine

open Sys2Proof.Claims

/-! ## What an operation of the power block may change -/

/-- Only the power block and the arbiter have changed. -/
def PowerOnly (s t : State) : Prop := ∃ power ev, t = { s with power := power, ev := ev }

theorem PowerOnly.refl (s : State) : PowerOnly s s := ⟨_, _, rfl⟩

theorem PowerOnly.trans {s t u : State} : PowerOnly s t → PowerOnly t u → PowerOnly s u := by
  rintro ⟨p, e, rfl⟩ ⟨p', e', rfl⟩
  exact ⟨p', e', rfl⟩

theorem PowerOnly.sameExcept {s t : State} (h : PowerOnly s t) : SameExcept [.power, .ev] s t := by
  obtain ⟨p, e, rfl⟩ := h
  simp [SameExcept]

theorem PowerOnly.now {s t : State} (h : PowerOnly s t) : t.now = s.now := by
  obtain ⟨p, e, rfl⟩ := h
  rfl

theorem PowerOnly.param {s t : State} (h : PowerOnly s t) (id inst : Nat) : t.param id inst = s.param id inst := by
  obtain ⟨p, e, rfl⟩ := h
  rfl

theorem PowerOnly.cluster {s t : State} (h : PowerOnly s t) (k : Nat) : t.cluster k = s.cluster k := by
  obtain ⟨p, e, rfl⟩ := h
  rfl

theorem powerOnly_raise (s : State) (c i n : Nat) (b : List Byte) : PowerOnly s (raise s c i n b) := by
  unfold raise offer
  split <;> exact ⟨s.power, _, rfl⟩

/-! ## Droop (R545) -/

theorem droopDetect_rises (x : Fin 6) (sag : Byte) (s : State) (deeper : (s.stretch x).level < sagLevel (s.param 0x1303 x) sag.toNat) :
    Does (.droopDetect x sag) s fun t =>
      t.stretch x = { stretchCount s (s.stretch x) with level := sagLevel (s.param 0x1303 x) sag.toNat } ∧
      (∀ j, j ≠ x.val → t.stretch j = s.stretch j) ∧ SameExcept [.power] s t :=
  ⟨_, congrArg Host.Outcome.next (if_pos deeper), State.stretch_setStretch_self _ _ _,
    fun _ other => State.stretch_setStretch_ne _ _ _ other, by simp [SameExcept]⟩

theorem droopDetect_idle (x : Fin 6) (sag : Byte) (s : State) (shallow : sagLevel (s.param 0x1303 x) sag.toNat ≤ (s.stretch x).level) :
    Idle (.droopDetect x sag) s :=
  congrArg Host.Outcome.next (if_neg (Nat.not_lt.mpr shallow))

theorem droopLevelFall_falls (x : Fin 6) (s : State) (stretched : 0 < (s.stretch x).level) :
    Does (.droopLevelFall x) s fun t => t.stretch x = { stretchCount s (s.stretch x) with level := (s.stretch x).level - 1 } ∧
      (∀ j, j ≠ x.val → t.stretch j = s.stretch j) ∧ SameExcept [.power] s t :=
  ⟨_, congrArg Host.Outcome.next (if_neg (Nat.ne_of_gt stretched)), State.stretch_setStretch_self _ _ _,
    fun _ other => State.stretch_setStretch_ne _ _ _ other, by simp [SameExcept]⟩

theorem droopLevelFall_idle (x : Fin 6) (s : State) (flat : (s.stretch x).level = 0) : Idle (.droopLevelFall x) s :=
  congrArg Host.Outcome.next (if_pos flat)

/-! ## The end of a stretch window (R546) -/

/-- A tile whose window has just ended. -/
def stretchEnded (x : Stretch) (reserve : Nat) (compute : Bool) : Stretch :=
  { x with
    window := [0, 0, 0]
    load := (roundAway (stretchLoad x.window * 1000)).toNat
    overRes := if compute && decide ((reserve : Rat) < stretchLoad x.window * 1000) then satAdd 32 x.overRes 1 else x.overRes }

theorem stretchEnded_over (x : Stretch) (reserve : Nat) (compute : Bool)
    (above : compute = true ∧ (reserve : Rat) < stretchLoad x.window * 1000) :
    (stretchEnded x reserve compute).overRes = min (x.overRes + 1) (2 ^ 32 - 1) :=
  if_pos (by simp [above])

theorem stretchEnded_under (x : Stretch) (reserve : Nat) (compute : Bool)
    (below : ¬(compute = true ∧ (reserve : Rat) < stretchLoad x.window * 1000)) :
    (stretchEnded x reserve compute).overRes = x.overRes :=
  if_neg (by simpa using below)

/-- The window of one tile ends: the step that `stretchWindowEnd` repeats. -/
def endWindow (z : State) (t : Nat) : State :=
  let x := stretchCount z (z.stretch t)
  let l := stretchLoad x.window
  let shown := (roundAway (l * 1000)).toNat
  let deepest := if x.window.getD 2 0 ≠ 0 then 3 else if x.window.getD 1 0 ≠ 0 then 2 else if x.window.getD 0 0 ≠ 0 then 1 else 0
  let over_ := 2 ≤ t && decide (((z.param 0x1304 0 : Nat) : Rat) < l * 1000)
  let z1 := z.setStretch t (stretchEnded x (z.param 0x1304 0) (2 ≤ t))
  if over_ then lanimanEvt z1 0x1303 (leBytes 1 t ++ leBytes 2 shown ++ leBytes 1 deepest) else z1

theorem stretchWindowEnd_ends (s : State) (due : s.power.windows < s.now / 19660800) :
    stretchWindowEnd s = (List.range 6).foldl endWindow { s with power := { s.power with windows := s.now / 19660800 } } :=
  if_neg (Nat.not_le.mpr due)

/-- The load of a compute tile's window lies above the reserve. -/
abbrev OverReserve (s : State) (x : Nat) : Prop :=
  2 ≤ x ∧ ((s.param 0x1304 0 : Nat) : Rat) < stretchLoad (stretchCount s (s.stretch x)).window * 1000

theorem endWindow_powerOnly (z : State) (t : Nat) : PowerOnly z (endWindow z t) := by
  unfold endWindow
  extract_lets x l shown deepest over_ z1
  split
  · exact PowerOnly.trans ⟨_, z.ev, rfl⟩ (powerOnly_raise z1 _ _ _ _)
  · exact ⟨_, z.ev, rfl⟩

theorem endWindow_windows (z : State) (t : Nat) : (endWindow z t).power.windows = z.power.windows := by
  unfold endWindow
  extract_lets x l shown deepest over_ z1
  split
  · exact (congrArg PowerSt.windows (raise_power z1 _ _ _ _)).trans rfl
  · rfl

theorem endWindow_self (z : State) (t : Nat) :
    (endWindow z t).stretch t = stretchEnded (stretchCount z (z.stretch t)) (z.param 0x1304 0) (2 ≤ t) := by
  unfold endWindow
  extract_lets x l shown deepest over_ z1
  have ended : z1.stretch t = stretchEnded x (z.param 0x1304 0) (2 ≤ t) := State.stretch_setStretch_self _ _ _
  split
  · exact (raise_stretch z1 _ _ _ _ t).trans ended
  · exact ended

theorem endWindow_ne (z : State) {t j : Nat} (other : j ≠ t) : (endWindow z t).stretch j = z.stretch j := by
  unfold endWindow
  extract_lets x l shown deepest over_ z1
  split <;> simp [z1, lanimanEvt, other]

theorem endWindow_grows (z : State) (t : Nat) : QueueGrows 1 z (endWindow z t) := by
  unfold endWindow
  extract_lets x l shown deepest over_ z1
  split
  · exact queueGrows_raise z1 _ _ _ _
  · exact QueueGrows.of_ev 1 rfl

theorem endWindow_queued (z : State) (t : Nat) (over_ : OverReserve z t) (room : Room 1 z) :
    Queued (endWindow z t) 0 0 0x1303 := by
  unfold endWindow
  rw [if_pos (by simp [over_])]
  exact raise_queued _ _ _ _ _ room

/-- After the windows of the first `n` tiles. -/
structure WindowsEnded (n : Nat) (s z : State) : Prop where
  only : PowerOnly s z
  windows : z.power.windows = s.power.windows
  grows : QueueGrows n s z
  ahead : ∀ j, n ≤ j → z.stretch j = s.stretch j
  done : ∀ j, j < n → z.stretch j = stretchEnded (stretchCount s (s.stretch j)) (s.param 0x1304 0) (2 ≤ j) ∧
    (OverReserve s j → Room n s → Queued z 0 0 0x1303)

theorem windowsEnded (n : Nat) (s : State) : WindowsEnded n s ((List.range n).foldl endWindow s) := by
  induction n with
  | zero => exact ⟨.refl s, rfl, .of_ev 0 rfl, fun _ _ => rfl, fun _ h => absurd h (Nat.not_lt_zero _)⟩
  | succ n ih =>
    rw [List.range_succ, List.foldl_append]
    generalize (List.range n).foldl endWindow s = z at ih
    obtain ⟨only, windows, grows, ahead, done⟩ := ih
    have count : stretchCount z (z.stretch n) = stretchCount s (s.stretch n) := by
      rw [ahead n le_rfl, stretchCount, only.now, stretchCount]
    refine ⟨only.trans (endWindow_powerOnly z n), (endWindow_windows z n).trans windows, grows.trans (endWindow_grows z n),
      fun j past => (endWindow_ne z (by omega)).trans (ahead j (by omega)), fun j before => ?_⟩
    obtain rfl | earlier : j = n ∨ j < n := by omega
    · refine ⟨?_, fun above room => endWindow_queued z j ?_ (grows.room (by simpa [Nat.add_comm] using room))⟩
      · exact (endWindow_self z j).trans (by rw [count, only.param])
      · simpa only [OverReserve, count, only.param] using above
    · obtain ⟨ended, queued⟩ := done j earlier
      refine ⟨(endWindow_ne z (by omega)).trans ended, fun above room => (endWindow_grows z n).queued (queued above ?_)⟩
      have : s.ev.queue.length + (n + 1) ≤ 256 := room
      show s.ev.queue.length + n ≤ 256
      omega

theorem stretchWindowEnd_idle (s : State) (early : s.now / 19660800 ≤ s.power.windows) : Idle .stretchWindowEnd s :=
  congrArg Host.Outcome.next (if_pos early)

theorem stretchWindowEnd_reports (s : State) (due : s.power.windows < s.now / 19660800) (room : Room 6 s) :
    Does .stretchWindowEnd s fun t => t.power.windows = s.now / 19660800 ∧ SameExcept [.power, .ev] s t ∧ ∀ x : Fin 6,
      let y := stretchCount s (s.stretch x)
      let over_ := 2 ≤ x.val ∧ ((s.param 0x1304 0 : Nat) : Rat) < stretchLoad y.window * 1000
      (t.stretch x).window = [0, 0, 0] ∧ (t.stretch x).total = y.total ∧ (t.stretch x).level = y.level ∧
      (t.stretch x).load = (roundAway (stretchLoad y.window * 1000)).toNat ∧
      (over_ → Queued t 0 0 0x1303 ∧ (t.stretch x).overRes = min (y.overRes + 1) (2 ^ 32 - 1)) ∧
      (¬over_ → (t.stretch x).overRes = y.overRes) := by
  let s0 : State := { s with power := { s.power with windows := s.now / 19660800 } }
  have marked : PowerOnly s s0 := ⟨_, s.ev, rfl⟩
  have ends : stretchWindowEnd s = (List.range 6).foldl endWindow s0 := stretchWindowEnd_ends s due
  obtain ⟨only, windows, -, -, done⟩ := windowsEnded 6 s0
  rw [← ends] at only windows done
  refine ⟨stretchWindowEnd s, rfl, windows, (marked.trans only).sameExcept, fun x => ?_⟩
  obtain ⟨ended, queued⟩ := done x x.isLt
  intro y over_
  refine ⟨by rw [ended]; rfl, by rw [ended]; rfl, by rw [ended]; rfl, by rw [ended]; rfl,
    fun above => ⟨queued above room, ?_⟩, fun below => ?_⟩
  · rw [ended]
    exact stretchEnded_over _ _ _ ⟨decide_eq_true above.1, above.2⟩
  · rw [ended]
    exact stretchEnded_under _ _ _ fun above => below ⟨of_decide_eq_true above.1, above.2⟩

/-! ## Ageing samples (R548, R549, R551) -/

theorem PowerOnly.split {s z : State} (h : PowerOnly s z) (k : Nat) : (z.cluster k).split = (s.cluster k).split := by
  rw [h.cluster]

/-- The first row of R549 that applies to a tile rests on the tile's own plan, beside parts that sampling leaves alone. -/
theorem agePlan_congr {s z : State} {t : Nat} (only : PowerOnly s z) (same : z.tilePlan t = s.tilePlan t) (w : AgeView) :
    agePlan z t w = agePlan s t w := by
  simp only [agePlan, same, only.param, only.split]

/-- Whether a cluster or a Clove domain of a tile is withdrawn rests on the tile's own plan. -/
theorem domainWithdrawn_congr {s z : State} {c i : Nat} (same : z.tilePlan (2 + c) = s.tilePlan (2 + c)) (tile : c < 4) :
    (i < 16 → domainWithdrawn z (16 * c + i) = domainWithdrawn s (16 * c + i)) ∧
    (i < 2 → domainWithdrawn z (68 + 2 * c + i) = domainWithdrawn s (68 + 2 * c + i)) := by
  unfold State.tilePlan at same
  constructor <;> intro inside
  · have cluster : (16 * c + i) / 16 = c := by omega
    simp only [domainWithdrawn, cluster, same]
    rw [if_pos (by omega), if_pos (by omega)]
  · have clove : (68 + 2 * c + i - 68) / 2 = c := by omega
    have above : ¬68 + 2 * c + i < 64 := by omega
    simp only [domainWithdrawn, clove, same, if_neg above]

theorem belowAt_congr (l : List Int) (bound n : Nat) (f g : Nat → Bool) (same : ∀ i, i < n → f i = g i) :
    belowAt (l.take n) bound f = belowAt (l.take n) bound g := by
  refine List.filterMap_congr fun e he => ?_
  have place := (List.mem_zipIdx' he).1
  rw [List.length_take] at place
  simp only [same e.2 (by omega)]

theorem ageView_congr {s z : State} {t : Nat} (compute : 2 ≤ t ∧ t < 6) (only : PowerOnly s z)
    (same : z.tilePlan t = s.tilePlan t) (m : TileSample) : ageView z t m = ageView s t m := by
  obtain ⟨c, rfl⟩ : ∃ c, t = 2 + c := ⟨t - 2, by omega⟩
  have clusters : ∀ i, i < 16 → (!domainWithdrawn z (16 * c + i)) = !domainWithdrawn s (16 * c + i) := fun i inside => by
    rw [(domainWithdrawn_congr same (by omega)).1 inside]
  have cloves : ∀ i, i < 2 → (!domainWithdrawn z (68 + 2 * c + i)) = !domainWithdrawn s (68 + 2 * c + i) := fun i inside => by
    rw [(domainWithdrawn_congr same (by omega)).2 inside]
  simp only [ageView, Nat.add_sub_cancel_left, only.param]
  rw [belowAt_congr m.array _ 16 _ _ clusters, belowAt_congr m.datapath _ 16 _ _ clusters,
    belowAt_congr m.clove _ 2 _ _ cloves, belowAt_congr m.array _ 16 _ _ clusters, belowAt_congr m.datapath _ 16 _ _ clusters,
    belowAt_congr m.clove _ 2 _ _ cloves]

/-- The plan of a tile after its sample, of a device in state `s`. -/
structure Sampled (s : State) (t : Nat) (m : TileSample) (x : TilePlan) : Prop where
  measured : x.slack = m.slack ∧ x.cls = m.cls ∧ x.idx = m.idx ∧ x.degr = m.degr
  kept : x.v = (s.tilePlan t).v ∧ x.bin = (s.tilePlan t).bin
  planned : 2 ≤ t → t < 6 → x.bound = some (boundary s.now) ∧ x.step = agePlan s t (ageView s t m)

theorem Sampled.of_before {s z : State} {t : Nat} {m : TileSample} {x : TilePlan} (only : PowerOnly s z)
    (same : z.tilePlan t = s.tilePlan t) (h : Sampled z t m x) : Sampled s t m x := by
  obtain ⟨measured, kept, planned⟩ := h
  rw [same] at kept
  refine ⟨measured, kept, fun compute tile => ?_⟩
  rw [only.now, agePlan_congr only same, ageView_congr ⟨compute, tile⟩ only same] at planned
  exact planned compute tile

/-- What the sample of tile `t` leaves of the state `z`. -/
structure TileSampled (z : State) (t : Nat) (m : TileSample) (u : State) : Prop where
  only : PowerOnly z u
  samples : u.power.samples = z.power.samples
  others : ∀ j, j ≠ t → u.tilePlan j = z.tilePlan j
  tile : Sampled z t m (u.tilePlan t)

theorem TileSampled.raise {z u : State} {t : Nat} {m : TileSample} (h : TileSampled z t m u) (c i n : Nat) (b : List Byte) :
    TileSampled z t m (raise u c i n b) := by
  obtain ⟨only, samples, others, tile⟩ := h
  exact ⟨only.trans (powerOnly_raise u c i n b), by rw [raise_power, samples], fun j other => by rw [raise_tilePlan, others j other],
    by rwa [raise_tilePlan]⟩

/-- The plan of a tile as its sample leaves it (R548, R549, R552). -/
def sampledPlan (z : State) (t : Nat) (m : TileSample) (good : Nat) (soon : Bool) : TilePlan :=
  { z.tilePlan t with
    slack := m.slack, cls := m.cls, idx := m.idx, degr := m.degr, history := (m.slack :: (z.tilePlan t).history).take 4320
    forecast := soon
    bound := if t < 2 then none else some (boundary z.now)
    step := if t < 2 then none else agePlan z t (ageView z t m)
    good := good }

theorem sampledPlan_sampled (z : State) (t : Nat) (m : TileSample) (good : Nat) (soon : Bool) :
    Sampled z t m (sampledPlan z t m good soon) :=
  ⟨⟨rfl, rfl, rfl, rfl⟩, ⟨rfl, rfl⟩, fun compute _ => ⟨if_neg (Nat.not_lt.mpr compute), if_neg (Nat.not_lt.mpr compute)⟩⟩

/-- A sample writes the tile's plan and the history's records. -/
def sampleStored (z : State) (t : Nat) (x : TilePlan) (records : List (List Byte)) : State :=
  { z.setTilePlan t x with power := { (z.setTilePlan t x).power with records := records } }

theorem sampleStored_sampled {z : State} {t : Nat} {m : TileSample} {x : TilePlan} (sampled : Sampled z t m x)
    (records : List (List Byte)) : TileSampled z t m (sampleStored z t x records) where
  only := ⟨_, z.ev, rfl⟩
  samples := rfl
  others _ other := State.tilePlan_setTilePlan_ne z t x other
  tile := (State.tilePlan_setTilePlan_self z t x).symm ▸ sampled

/-- A sample is stored, and a new forecast reported (R552). -/
theorem sampleTile_stores (z : State) (t : Nat) (m : TileSample) : ∃ good soon records d,
    sampleTile z t m = sampleStored z t (sampledPlan z t m good soon) records ∨
    sampleTile z t m = lanimanEvt (sampleStored z t (sampledPlan z t m good soon) records) 0x1403 d := by
  unfold sampleTile
  dsimp only
  split
  · exact ⟨_, _, _, _, .inr rfl⟩
  · exact ⟨_, _, _, [], .inl rfl⟩

theorem sampleTile_sampled (z : State) (t : Nat) (m : TileSample) : TileSampled z t m (sampleTile z t m) := by
  obtain ⟨good, soon, records, d, stores | reports⟩ := sampleTile_stores z t m
  · exact stores ▸ sampleStored_sampled (sampledPlan_sampled z t m good soon) records
  · exact reports ▸ (sampleStored_sampled (sampledPlan_sampled z t m good soon) records).raise 0 0 0x1403 d

/-- The samples of a report, tile by tile from tile `k`. -/
def sampleTiles (z : State) (k : Nat) (ms : List TileSample) : State :=
  (ms.zipIdx k).foldl (fun z (m, t) => sampleTile z t m) z

theorem sampleTiles_cons (z : State) (k : Nat) (m : TileSample) (ms : List TileSample) :
    sampleTiles z k (m :: ms) = sampleTiles (sampleTile z k m) (k + 1) ms := rfl

theorem sampleTiles_sampled (ms : List TileSample) (z : State) (k : Nat) :
    PowerOnly z (sampleTiles z k ms) ∧ (sampleTiles z k ms).power.samples = z.power.samples ∧
    (∀ j, j < k → (sampleTiles z k ms).tilePlan j = z.tilePlan j) ∧
    ∀ i m, ms[i]? = some m → Sampled z (k + i) m ((sampleTiles z k ms).tilePlan (k + i)) := by
  induction ms generalizing z k with
  | nil => exact ⟨.refl z, rfl, fun _ _ => rfl, fun _ _ h => by simp at h⟩
  | cons m₀ ms ih =>
    rw [sampleTiles_cons]
    obtain ⟨only, samples, others, tile⟩ := sampleTile_sampled z k m₀
    obtain ⟨onlyRest, samplesRest, before, rest⟩ := ih (sampleTile z k m₀) (k + 1)
    refine ⟨only.trans onlyRest, samplesRest.trans samples,
      fun j earlier => (before j (by omega)).trans (others j (by omega)), fun i m present => ?_⟩
    cases i with
    | zero =>
      obtain rfl : m₀ = m := by simpa using present
      rw [Nat.add_zero, before k (by omega)]
      exact tile
    | succ i =>
      have at_ : k + (i + 1) = k + 1 + i := by omega
      rw [at_]
      exact (rest i m (by simpa using present)).of_before only (others _ (by omega))

theorem ageingSample_idle (ms : List TileSample) (s : State) (early : ∀ x, s.power.nextSample = some x → s.now < x) :
    Idle (.ageingSample ms) s := by
  have notDue : (s.power.nextSample.any fun t => decide (t ≤ s.now)) = false := by
    cases next : s.power.nextSample with
    | none => rfl
    | some x => simpa using early x next
  exact congrArg Host.Outcome.next (if_pos (by simp [notDue]))

/-- The count and the times of a sample (R548). -/
def sampleCounted (s z : State) : State :=
  { z with power := { z.power with
    samples := z.power.samples + 1, sampleAt := s.now, nextSample := some (s.now + 600 * tcS) } }

/-- A cluster leaves the split mode of start-up (R551). -/
def leaveStartup (z : State) (cl : Nat) : State :=
  if bit (z.cluster cl).reasons 0 then setReason z cl 0 false 0 else z

theorem ageingSample_due (ms : List TileSample) {x : Nat} {s : State} (next : s.power.nextSample = some x) (due : x ≤ s.now) :
    ageingSample s ms = (List.range 64).foldl leaveStartup (sampleCounted s (sampleTiles s 0 (ms.take 6))) := by
  rw [ageingSample, if_neg (by simp [next, due])]
  rfl

theorem leaveStartup_none (z : State) (n : Nat) (none : ∀ cl, cl < n → bit (z.cluster cl).reasons 0 = false) :
    (List.range n).foldl leaveStartup z = z := by
  induction n with
  | zero => rfl
  | succ n ih =>
    rw [List.range_succ, List.foldl_append, ih fun cl before => none cl (by omega)]
    exact if_neg (by simp [none n (by omega)])

theorem ageingSample_records (ms : List TileSample) (x : Nat) (s : State) (next : s.power.nextSample = some x) (due : x ≤ s.now)
    (joint : ∀ cl, cl < 64 → bit (s.cluster cl).reasons 0 = false) :
    Does (.ageingSample ms) s fun t => t.power.samples = s.power.samples + 1 ∧ t.power.sampleAt = s.now ∧
      t.power.nextSample = some (s.now + 1179648000000) ∧
      (∀ (x : Fin 6) (m : TileSample), ms[x.val]? = some m →
        (t.tilePlan x).slack = m.slack ∧ (t.tilePlan x).cls = m.cls ∧ (t.tilePlan x).idx = m.idx ∧ (t.tilePlan x).degr = m.degr ∧
        (t.tilePlan x).v = (s.tilePlan x).v ∧ (t.tilePlan x).bin = (s.tilePlan x).bin ∧
        (2 ≤ x.val → (t.tilePlan x).bound = some (boundary s.now) ∧ (t.tilePlan x).step = agePlan s x (ageView s x m))) ∧
      SameExcept [.power, .ev] s t := by
  have runs := ageingSample_due ms next due
  obtain ⟨only, samples, -, tiles⟩ := sampleTiles_sampled (ms.take 6) s 0
  generalize sampleTiles s 0 (ms.take 6) = z at *
  have counted : PowerOnly s (sampleCounted s z) := only.trans ⟨_, z.ev, rfl⟩
  rw [leaveStartup_none _ _ fun cl before => by rw [counted.cluster]; exact joint cl before] at runs
  refine ⟨_, congrArg Host.Outcome.next runs, congrArg (· + 1) samples, rfl, rfl, fun x m present => ?_, counted.sameExcept⟩
  obtain ⟨⟨slack, cls, idx, degr⟩, ⟨v, bin⟩, planned⟩ := tiles x m (by rw [List.getElem?_take_of_lt x.isLt, present])
  rw [Nat.zero_add] at *
  exact ⟨slack, cls, idx, degr, v, bin, fun compute => planned compute x.isLt⟩

/-! ## Reasons for split mode (R203) -/

theorem drainUnit_cluster (s : State) (k j : Nat) : (drainUnit s k).cluster j = s.cluster j := by
  unfold drainUnit
  split <;> rfl

theorem releaseCore_cluster (s : State) (k j : Nat) : (releaseCore s k).cluster j = s.cluster j := by
  unfold releaseCore
  split <;> rfl

theorem foldl_cluster (f : State → Nat → State) (keeps : ∀ z k j, (f z k).cluster j = z.cluster j) (ks : List Nat) (s : State)
    (j : Nat) : (ks.foldl f s).cluster j = s.cluster j := by
  induction ks generalizing s with
  | nil => rfl
  | cons k ks ih => rw [List.foldl_cons, ih, keeps]

theorem clusterSync_reasons (s : State) (cl cause j : Nat) : ((clusterSync s cl cause).cluster j).reasons = (s.cluster j).reasons := by
  unfold clusterSync
  dsimp only
  split
  · rw [foldl_cluster _ drainUnit_cluster]
    by_cases same : j = cl <;> simp [same]
  · rw [foldl_cluster _ releaseCore_cluster]

theorem setReason_self (s : State) (cl b : Nat) (on : Bool) (cause : Nat) :
    ((setReason s cl b on cause).cluster cl).reasons = setBit (s.cluster cl).reasons b on := by
  simp [setReason, clusterSync_reasons]

theorem setReason_ne (s : State) {cl j : Nat} (b : Nat) (on : Bool) (cause : Nat) (other : j ≠ cl) :
    ((setReason s cl b on cause).cluster j).reasons = (s.cluster j).reasons := by
  simp [setReason, clusterSync_reasons, other]

theorem bit_zero_setBit_false (v : Nat) : bit (setBit v 0 false) 0 = false := by
  unfold setBit
  cases set : bit v 0 with
  | false => simpa using set
  | true =>
    simp [bit] at set ⊢
    omega

theorem leaveStartup_joint (s : State) (cl : Nat) :
    bit ((leaveStartup s cl).cluster cl).reasons 0 = false ∧
    ∀ j, j ≠ cl → ((leaveStartup s cl).cluster j).reasons = (s.cluster j).reasons := by
  unfold leaveStartup
  split
  · exact ⟨by rw [setReason_self, bit_zero_setBit_false], fun j other => setReason_ne s 0 false 0 other⟩
  · next joint => exact ⟨by simpa using joint, fun _ _ => rfl⟩

theorem leaveStartup_all (z : State) (n : Nat) :
    ∀ cl, cl < n → bit (((List.range n).foldl leaveStartup z).cluster cl).reasons 0 = false := by
  induction n with
  | zero => exact fun _ h => absurd h (Nat.not_lt_zero _)
  | succ n ih =>
    intro cl before
    rw [List.range_succ, List.foldl_append]
    obtain ⟨self, others⟩ := leaveStartup_joint ((List.range n).foldl leaveStartup z) n
    by_cases last : cl = n
    · exact last ▸ self
    · exact (congrArg (bit · 0) (others cl last)).trans (ih cl (by omega))

theorem ageingSample_joins (ms : List TileSample) (x : Nat) (s : State) (next : s.power.nextSample = some x) (due : x ≤ s.now) :
    Does (.ageingSample ms) s fun t => ∀ cl, cl < 64 → bit (t.cluster cl).reasons 0 = false :=
  ⟨_, congrArg Host.Outcome.next (ageingSample_due ms next due), leaveStartup_all _ 64⟩

end Sys2Proof.Machine
end

section
namespace Sys2Proof.Machine

open Sys2Proof.Claims

/-! ## The re-plan boundary (R548, R549) -/

theorem replanTile_unplanned (s : State) (t : Nat) (none : (s.tilePlan t).bound = none) : replanTile s t = s := by
  simp only [replanTile, none]

theorem replanTiles_unplanned (cs : List Nat) (s : State) (none : ∀ c ∈ cs, (s.tilePlan (2 + c)).bound = none) :
    cs.foldl (fun z c => replanTile z (2 + c)) s = s := by
  induction cs with
  | nil => rfl
  | cons c cs ih =>
    rw [List.foldl_cons, replanTile_unplanned s _ (none c List.mem_cons_self)]
    exact ih fun c later => none c (List.mem_cons_of_mem _ later)

/-- Where one tile alone has a boundary, the boundary's step is that tile's. -/
theorem replanBoundary_tile (x : Fin 6) (s : State) (compute : 2 ≤ x.val)
    (others : ∀ j : Fin 6, j ≠ x → (s.tilePlan j).bound = none) (keeps : OtherTiles s (replanTile s x) x) :
    replanBoundary s = replanTile s x := by
  obtain ⟨c, hc⟩ : ∃ c, x.val = 2 + c := ⟨x.val - 2, by omega⟩
  obtain ⟨before, after, order⟩ := List.append_of_mem (List.mem_range.mpr (show c < 4 by omega))
  have distinct : (before ++ c :: after).Nodup := order ▸ List.nodup_range
  have tiles : ∀ e ∈ before ++ c :: after, e < 4 := fun e he => List.mem_range.mp (order ▸ he)
  have unplanned : ∀ e ∈ before ++ c :: after, e ≠ c → (s.tilePlan (2 + e)).bound = none := fun e he other =>
    others ⟨2 + e, by have := tiles e he; omega⟩ fun same => other (by have := congrArg Fin.val same; simp only at this; omega)
  obtain ⟨-, -, apart⟩ := List.nodup_append.mp distinct
  have single := (List.nodup_cons.mp (List.nodup_append.mp distinct).2.1).1
  rw [replanBoundary, order, List.foldl_append, List.foldl_cons,
    replanTiles_unplanned before s fun e he => unplanned e (List.mem_append_left _ he) (apart e he c List.mem_cons_self),
    ← hc, replanTiles_unplanned after]
  intro e he
  have other : e ≠ c := fun same => single (same ▸ he)
  rw [keeps (2 + e) (by omega)]
  exact unplanned e (List.mem_append_right _ (List.mem_cons_of_mem c he)) other

theorem replanBoundary_idle (s : State) (none : ∀ x : Fin 6, (s.tilePlan x).bound = none) : Idle .replanBoundary s :=
  congrArg Host.Outcome.next (replanTiles_unplanned _ s fun c tile => none ⟨2 + c, by have := List.mem_range.mp tile; omega⟩)

/-- The ageing record is rewritten in flash, and the plan that it holds is noted (R566). -/
theorem writeAgeRecord_writes (s : State) : ∃ flash, writeAgeRecord s =
    { s with host := { s.host with flash := flash }, boot := { s.boot with ageSaved := s.power.tiles } } := by
  unfold writeAgeRecord
  split
  exact ⟨_, rfl⟩

/-- A memory bin is taken: the record is rewritten and the step reported (R549, R566). -/
theorem ageStep_bin (s : State) (t inst : Nat) :
    ageStep s t 3 inst = ageingStepEvt (writeAgeRecord (s.setTilePlan t { s.tilePlan t with bin := (s.tilePlan t).bin + 1 })) t 3 inst := rfl

theorem ageingStepEvt_raises (s : State) (t kind inst : Nat) : ∃ d, ageingStepEvt s t kind inst = raise s 0 0 0x1401 d := ⟨_, rfl⟩

/-- A tile at its boundary, with its plan's step taken off it. -/
def boundaryReached (s : State) (t : Nat) : State := s.setTilePlan t { s.tilePlan t with bound := none, step := none }

/-- A tile at its boundary, outside a commit and with no cluster in margin recovery, takes the step of its plan. -/
theorem replanTile_due {s : State} {t b : Nat} (bound : (s.tilePlan t).bound = some b) (due : b ≤ s.now)
    (clear : commitWindow s b = none) (margin : (s.tilePlan t).margin = 0) :
    replanTile s t = match (s.tilePlan t).step with
      | some (kind, inst) => ageStep (boundaryReached s t) t kind inst
      | none => boundaryReached s t := by
  have back : ((List.range 16).filter fun i => bit (s.tilePlan t).margin i && bit (s.tilePlan t).good i) = [] := by
    simp [margin, bit]
  simp only [replanTile, bound, if_neg (Nat.not_lt.mpr due), clear, back, List.foldl_nil]
  rfl

section
variable {x : Fin 6} {b : Nat} {s : State} (compute : 2 ≤ x.val) (bound : (s.tilePlan x).bound = some b) (due : b ≤ s.now)
  (clear : commitWindow s b = none) (others : ∀ j : Fin 6, j ≠ x → (s.tilePlan j).bound = none)
  (margin : (s.tilePlan x).margin = 0)
include compute bound due clear others margin

theorem replanBoundary_noStep (step : (s.tilePlan x).step = none) :
    Does .replanBoundary s fun t => t.tilePlan x = { s.tilePlan x with bound := none } ∧ OtherTiles s t x ∧ SameExcept [.power] s t := by
  have runs : replanTile s x = boundaryReached s x := by rw [replanTile_due bound due clear margin, step]
  have other : OtherTiles s (boundaryReached s x) x := fun j other => State.tilePlan_setTilePlan_ne _ _ _ other
  refine ⟨_, congrArg Host.Outcome.next ((replanBoundary_tile x s compute others (runs ▸ other)).trans runs), ?_, other,
    by simp [SameExcept, boundaryReached]⟩
  exact (State.tilePlan_setTilePlan_self _ _ _).trans (by rw [← step])

/-- A step that asks the AVSBus for a voltage (R549, R551). -/
theorem replanBoundary_asks {kind i : Nat} {ask : Option (Nat × Nat)} (step : (s.tilePlan x).step = some (kind, i))
    (asks : ageStep (boundaryReached s x) x kind i =
      (boundaryReached s x).setTilePlan x { (boundaryReached s x).tilePlan x with avs := ask }) :
    Does .replanBoundary s fun t => t.tilePlan x = { s.tilePlan x with bound := none, step := none, avs := ask } ∧
      OtherTiles s t x ∧ SameExcept [.power] s t := by
  have runs := replanTile_due bound due clear margin
  rw [step] at runs
  replace runs := runs.trans asks
  have other : OtherTiles s (replanTile s x) x := fun j other => by simp [runs, boundaryReached, other]
  refine ⟨_, congrArg Host.Outcome.next ((replanBoundary_tile x s compute others other).trans runs), ?_, runs ▸ other,
    by simp [SameExcept, boundaryReached]⟩
  simp [boundaryReached]

theorem replanBoundary_takesBin {i : Nat} (room : Room 1 s) (step : (s.tilePlan x).step = some (3, i)) :
    Does .replanBoundary s fun t => t.tilePlan x = { s.tilePlan x with
        bound := none, step := none, bin := (s.tilePlan x).bin + 1 } ∧ OtherTiles s t x ∧ Queued t 0 0 0x1401 ∧
      t.boot.ageSaved = t.power.tiles ∧ SameExcept [.power, .host, .boot, .ev] s t := by
  let u := (boundaryReached s x).setTilePlan x { (boundaryReached s x).tilePlan x with bin := ((boundaryReached s x).tilePlan x).bin + 1 }
  obtain ⟨flash, record⟩ := writeAgeRecord_writes u
  have runs := replanTile_due bound due clear margin
  obtain ⟨d, event⟩ := ageingStepEvt_raises (writeAgeRecord u) x 3 i
  rw [step] at runs
  replace runs := (runs.trans (ageStep_bin _ _ _)).trans event
  have tile : (replanTile s x).tilePlan x = u.tilePlan x := by rw [runs, raise_tilePlan, record]; rfl
  have other : OtherTiles s (replanTile s x) x := fun j other => by
    rw [runs, raise_tilePlan, record]
    exact (State.tilePlan_setTilePlan_ne _ _ _ other).trans (State.tilePlan_setTilePlan_ne _ _ _ other)
  refine ⟨replanTile s x, congrArg Host.Outcome.next (replanBoundary_tile x s compute others other), tile.trans ?_, other,
    runs ▸ raise_queued _ _ _ _ _ (record ▸ room), ?_, ?_⟩
  · simp [u, boundaryReached]
  · rw [runs, raise_boot, raise_power, record]
  · rw [runs, record]
    simp [SameExcept, u, boundaryReached]

end

theorem boundaryReached_v (s : State) (t : Nat) : ((boundaryReached s t).tilePlan t).v = (s.tilePlan t).v := by
  simp [boundaryReached]

/-- A voltage step up is capped at the tile's maximum (R549). -/
theorem ageStep_raises (s : State) (t i : Nat) : ageStep (boundaryReached s t) t 0 i =
    (boundaryReached s t).setTilePlan t { (boundaryReached s t).tilePlan t with
      avs := some (min ((s.tilePlan t).v + 5) (s.param 0x1403 (t - 2)), 0) } := by
  rw [← boundaryReached_v s t]
  rfl

theorem ageStep_lowers (s : State) (t i : Nat) : ageStep (boundaryReached s t) t 1 i =
    (boundaryReached s t).setTilePlan t { (boundaryReached s t).tilePlan t with avs := some ((s.tilePlan t).v - 5, 1) } := by
  rw [← boundaryReached_v s t]
  rfl

theorem replanBoundary_steps (x : Fin 6) (b : Nat) (s : State) (compute : 2 ≤ x.val) (bound : (s.tilePlan x).bound = some b)
    (due : b ≤ s.now) (clear : commitWindow s b = none) (others : ∀ j : Fin 6, j ≠ x → (s.tilePlan j).bound = none)
    (margin : (s.tilePlan x).margin = 0) (room : Room 1 s) :
    ((s.tilePlan x).step = none →
      Does .replanBoundary s fun t => t.tilePlan x = { s.tilePlan x with bound := none } ∧ OtherTiles s t x ∧ SameExcept [.power] s t) ∧
    (∀ i, (s.tilePlan x).step = some (0, i) →
      Does .replanBoundary s fun t => t.tilePlan x = { s.tilePlan x with
          bound := none, step := none, avs := some (min ((s.tilePlan x).v + 5) (s.param 0x1403 (x.val - 2)), 0) } ∧
        OtherTiles s t x ∧ SameExcept [.power] s t) ∧
    (∀ i, (s.tilePlan x).step = some (1, i) →
      Does .replanBoundary s fun t => t.tilePlan x = { s.tilePlan x with
          bound := none, step := none, avs := some ((s.tilePlan x).v - 5, 1) } ∧ OtherTiles s t x ∧ SameExcept [.power] s t) ∧
    ∀ i, (s.tilePlan x).step = some (3, i) →
      Does .replanBoundary s fun t => t.tilePlan x = { s.tilePlan x with
          bound := none, step := none, bin := (s.tilePlan x).bin + 1 } ∧ OtherTiles s t x ∧ Queued t 0 0 0x1401 ∧
        t.boot.ageSaved = t.power.tiles ∧ SameExcept [.power, .host, .boot, .ev] s t :=
  ⟨replanBoundary_noStep compute bound due clear others margin,
    fun i step => replanBoundary_asks compute bound due clear others margin step (ageStep_raises s x i),
    fun i step => replanBoundary_asks compute bound due clear others margin step (ageStep_lowers s x i),
    fun _ => replanBoundary_takesBin compute bound due clear others margin room⟩

theorem replanBoundary_givesWay (x : Fin 6) (b o : Nat) (s : State) (compute : 2 ≤ x.val) (bound : (s.tilePlan x).bound = some b)
    (due : b ≤ s.now) (commit : commitWindow s b = some o) (others : ∀ j : Fin 6, j ≠ x → (s.tilePlan j).bound = none) :
    Does .replanBoundary s fun t => t.tilePlan x = { s.tilePlan x with bound := some ((o / 19660800 + 1) * 19660800) } ∧
      OtherTiles s t x ∧ SameExcept [.power] s t := by
  have runs : replanTile s x = s.setTilePlan x { s.tilePlan x with bound := some ((o / 19660800 + 1) * 19660800) } := by
    simp only [replanTile, bound, if_neg (Nat.not_lt.mpr due), commit]
  have other : OtherTiles s (replanTile s x) x := fun j other => by rw [runs, State.tilePlan_setTilePlan_ne _ _ _ other]
  exact ⟨_, congrArg Host.Outcome.next ((replanBoundary_tile x s compute others other).trans runs),
    State.tilePlan_setTilePlan_self _ _ _, runs ▸ other, by simp [SameExcept]⟩

/-! ## Margin flags and the AVSBus (R550, R551) -/

/-- The report of a margin flag, with the tile's voltage. -/
def marginReport (s : State) (x : Fin 6) (c : Fin 5) (idx : Byte) : List Byte :=
  leBytes 1 x ++ leBytes 1 c ++ leBytes 2 idx.toNat ++ leBytes 2 (if x.val < 2 then 750 else (s.tilePlan x).v)

theorem marginFlag_reports (x : Fin 6) (c : Fin 5) (idx : Byte) (s : State) (reported : x.val < 2 ∨ c.val = 4) (room : Room 1 s) :
    Does (.marginFlag x c idx) s fun t => Raised s t 0 0 0x1402 3 (leBytes 1 x ++ leBytes 1 c ++ leBytes 2 idx.toNat ++
        leBytes 2 (if x.val < 2 then 750 else (s.tilePlan x).v)) ∧ SameExcept [.ev] s t := by
  have runs : marginFlag s x c idx.toNat = raise s 0 0 0x1402 (marginReport s x c idx) :=
    if_pos (by simpa using reported.imp_right fun four => show 3 < c.val by omega)
  exact ⟨_, congrArg Host.Outcome.next (runs.trans (raise_joins s _ _ _ _ room)), rfl, by simp [SameExcept]⟩

theorem marginFlag_raisesVoltage (x : Fin 6) (c : Fin 5) (idx : Byte) (s : State) (compute : 2 ≤ x.val)
    (shared : c.val = 2 ∨ c.val = 3) (below : (s.tilePlan x).v < s.param 0x1403 (x.val - 2)) (room : Room 1 s) :
    Does (.marginFlag x c idx) s fun t => t.tilePlan x = { s.tilePlan x with
        avs := some (min ((s.tilePlan x).v + 10) (s.param 0x1403 (x.val - 2)), 255) } ∧ OtherTiles s t x ∧ Queued t 0 0 0x1402 ∧
      SameExcept [.power, .ev] s t := by
  have acted : ¬(decide (x.val < 2) || decide (3 < c.val)) = true := by
    simp
    omega
  have unclustered : ¬c.val < 2 := by omega
  have runs : marginFlag s x c idx.toNat = (raise s 0 0 0x1402 (marginReport s x c idx)).setTilePlan x { s.tilePlan x with
      avs := some (min ((s.tilePlan x).v + 10) (s.param 0x1403 (x.val - 2)), 255) } := by
    simp only [marginFlag, if_neg acted, if_pos below, if_neg unclustered]
    rfl
  refine ⟨_, congrArg Host.Outcome.next runs, State.tilePlan_setTilePlan_self _ _ _, fun j other => ?_,
    raise_queued _ _ _ _ _ room, by simp [SameExcept]⟩
  rw [State.tilePlan_setTilePlan_ne _ _ _ other, raise_tilePlan]

theorem avsWriteComplete_idle (rail : Fin 4) (res : Fin 3) (s : State) (none : (s.tilePlan (2 + rail.val)).avs = none) :
    Idle (.avsWriteComplete rail res) s :=
  congrArg Host.Outcome.next (by simp only [avsWriteComplete, none])

theorem avsWriteComplete_done (rail : Fin 4) (v kind : Nat) (s : State) (asked : (s.tilePlan (2 + rail.val)).avs = some (v, kind))
    (room : Room 1 s) :
    Does (.avsWriteComplete rail 0) s fun t => t.tilePlan (2 + rail.val) = { s.tilePlan (2 + rail.val) with v := v, avs := none } ∧
      OtherTiles s t (2 + rail.val) ∧ (kind ≤ 1 → Queued t 0 0 0x1401) ∧ (1 < kind → t.ev = s.ev) ∧ SameExcept [.power, .ev] s t := by
  let u := s.setTilePlan (2 + rail.val) { s.tilePlan (2 + rail.val) with v := v, avs := none }
  have self : u.tilePlan (2 + rail.val) = _ := State.tilePlan_setTilePlan_self s _ _
  have other : OtherTiles s u (2 + rail.val) := fun j other => State.tilePlan_setTilePlan_ne s _ _ other
  have runs : avsWriteComplete s rail 0 = if kind ≤ 1 then ageingStepEvt u (2 + rail.val) kind rail else u := by
    simp only [avsWriteComplete, asked, if_true]
    rfl
  by_cases step : kind ≤ 1
  · obtain ⟨d, event⟩ := ageingStepEvt_raises u (2 + rail.val) kind rail
    rw [if_pos step, event] at runs
    exact ⟨_, congrArg Host.Outcome.next runs, (raise_tilePlan ..).trans self, fun j apart => (raise_tilePlan ..).trans (other j apart),
      fun _ => raise_queued _ _ _ _ _ room, fun late => absurd step (Nat.not_le.mpr late), by simp [SameExcept, u]⟩
  · rw [if_neg step] at runs
    exact ⟨u, congrArg Host.Outcome.next runs, self, other, fun early => absurd early step, fun _ => rfl, by simp [SameExcept, u]⟩

theorem avsWriteComplete_fails (rail : Fin 4) (res : Fin 3) (v kind : Nat) (s : State)
    (asked : (s.tilePlan (2 + rail.val)).avs = some (v, kind)) (failed : res ≠ 0) (room : Room 1 s) :
    Does (.avsWriteComplete rail res) s fun t => t.tilePlan (2 + rail.val) = { s.tilePlan (2 + rail.val) with avs := none } ∧
      OtherTiles s t (2 + rail.val) ∧ Raised s t 0 0 0x1405 3 (leBytes 1 rail ++ leBytes 1 (res.val - 1) ++ leBytes 2 v) ∧
      SameExcept [.power, .ev] s t := by
  have nonzero : ¬res.val = 0 := fun zero => failed (Fin.ext zero)
  let u := s.setTilePlan (2 + rail.val) { s.tilePlan (2 + rail.val) with avs := none }
  have runs : avsWriteComplete s rail res = raise u 0 0 0x1405 (leBytes 1 rail ++ leBytes 1 (res.val - 1) ++ leBytes 2 v) := by
    simp only [avsWriteComplete, asked, if_neg nonzero]
    rfl
  refine ⟨_, congrArg Host.Outcome.next (runs.trans (raise_joins u _ _ _ _ room)), State.tilePlan_setTilePlan_self s _ _,
    fun j other => State.tilePlan_setTilePlan_ne s _ _ other, rfl, by simp [SameExcept, u]⟩

/-! ## The thermal outputs (R603) -/

theorem thermAlert_follows (hot : Bool) (s : State) (on : s.boot.off = false) :
    Does (.thermAlert hot) s fun t => t.power = { s.power with alert := hot } ∧ SameExcept [.power] s t := by
  have runs : thermAlertOp s hot = { s with power := { s.power with alert := hot } } := if_neg (by simp [on])
  exact ⟨_, congrArg Host.Outcome.next runs, rfl, by simp [SameExcept]⟩

theorem thermtrip_trips (s : State) (on : s.boot.off = false) (fresh : s.power.trip = false) :
    Does .thermtrip s fun t => t.power.trip = true ∧ t.power.alert = true ∧ t.power.on = [95] ∧ t.power.coming = [] ∧
      t.mem = { capacity := s.mem.capacity } ∧ (∀ h : Fin 4, (t.hp h).linkUp = false ∧ (t.hp h).current = none) ∧
      t.cfg.params = s.cfg.params := by
  have only := hostOnly_discardPackets s
  refine ⟨_, congrArg Host.Outcome.next (if_neg (by simp [on, fresh])), rfl, rfl, rfl, rfl, ?_, fun h => ?_, ?_⟩
  · obtain ⟨host, ev, discards⟩ := only
    rw [discards]
    rfl
  · fin_cases h <;> exact ⟨rfl, rfl⟩
  · obtain ⟨host, ev, discards⟩ := only
    rw [discards]
    rfl

theorem thermal_idle (s : State) (dead : s.boot.off = true ∨ s.power.trip = true) :
    Idle .thermtrip s ∧ (s.boot.off = true → ∀ hot, Idle (.thermAlert hot) s) :=
  ⟨congrArg Host.Outcome.next (if_pos (by simpa using dead)), fun off _ => congrArg Host.Outcome.next (if_pos off)⟩

/-- Settles O58, clause by clause: each sensor's command has its own lemmas above. -/
theorem powerSensors : Obligations.PowerSensors :=
  ⟨droopDetect_rises, droopDetect_idle, droopLevelFall_falls, droopLevelFall_idle, stretchWindowEnd_idle, stretchWindowEnd_reports,
   ageingSample_idle, ageingSample_records, ageingSample_joins, replanBoundary_idle, replanBoundary_steps, replanBoundary_givesWay,
   marginFlag_reports, marginFlag_raisesVoltage, avsWriteComplete_idle, avsWriteComplete_done, avsWriteComplete_fails,
   thermAlert_follows, thermtrip_trips, thermal_idle⟩

end Sys2Proof.Machine
end

section
namespace Sys2Proof.Machine

open Sys2Proof.Claims

/-! ## The arbiter's acceptance (R513, R517, R527) -/

theorem losses_none {s : State} (noLoss : s.ev.loss = []) : losses s = s := by
  rw [losses, lossWrite, if_neg (by simp [noLoss])]

/-- With fewer than 16 free entries no LOSS event is written (R528). -/
theorem losses_full {s : State} (full : logFree s < 16) : losses s = s := by
  rw [losses, lossWrite, if_neg (by simp; omega)]

theorem entriesFor_length (s : State) (e : EventRec) : (entriesFor s e).length = entriesOf e.detail := by
  unfold entriesFor entriesOf
  by_cases short : e.detail.length ≤ 12
  · simp [short, Nat.not_lt.mpr short]
  · simp [short, Nat.not_le.mp short]

/-- An event of at most 12 bytes of detail takes one entry, which holds it whole (R517). -/
theorem entriesFor_short (s : State) (e : EventRec) (short : e.detail.length ≤ 12) :
    ∃ a : LogEntry, entriesFor s e = [a] ∧ a.code = e.code ∧ a.seq = s.ev.nextSeq ∧ a.at_ = s.now ∧ a.detail = e.detail :=
  ⟨_, if_neg (Nat.not_lt.mpr short), rfl, rfl, rfl, List.take_of_length_le short⟩

/-- Without a subscribed host an event is written, and no message sent. -/
theorem logWrite_noSubs {s : State} (noSubs : s.ev.subs = []) (e : EventRec) :
    logWrite s e = { s with ev := { s.ev with log := s.ev.log ++ entriesFor s e, nextSeq := (s.ev.nextSeq + 1) % 2 ^ 32 } } := by
  simp only [logWrite, noSubs, List.foldl_nil]
  rfl

theorem eventAcceptance_empty (s : State) (empty : s.ev.queue = []) (noLoss : s.ev.loss = []) : Idle .eventAcceptance s := by
  have runs : eventAcceptanceOp s = losses s := by simp only [eventAcceptanceOp, empty]
  exact congrArg Host.Outcome.next (runs.trans (losses_none noLoss))

theorem eventAcceptance_oncePerCycle (s : State) (waits : s.ev.queue ≠ []) (taken : s.ev.acceptedAt = some s.now) :
    Idle .eventAcceptance s := by
  obtain ⟨e, rest, queue⟩ := List.exists_cons_of_ne_nil waits
  exact congrArg Host.Outcome.next (by simp only [eventAcceptanceOp, queue, taken, if_true])

/-- The arbiter's state with the oldest event taken from its queue. -/
def eventTaken (s : State) (rest : List EventRec) : State := { s with ev := { s.ev with queue := rest, acceptedAt := some s.now } }

section
variable {e : EventRec} {rest : List EventRec} {s : State}

theorem eventAcceptance_takes (queue : s.ev.queue = e :: rest) (fresh : s.ev.acceptedAt ≠ some s.now) :
    eventAcceptanceOp s = losses (acceptEvent (eventTaken s rest) e) := by
  simp only [eventAcceptanceOp, queue, if_neg fresh]
  rfl

theorem acceptEvent_noSubs (noSubs : s.ev.subs = []) :
    acceptEvent s e = if logFree s < entriesOf e.detail then countLoss s e.cls e.inst else logWrite s e :=
  if_neg (by simp [noSubs])

end

theorem eventAcceptance_writes (e : EventRec) (rest : List EventRec) (s : State) (queue : s.ev.queue = e :: rest)
    (fresh : s.ev.acceptedAt ≠ some s.now) (noSubs : s.ev.subs = []) (noLoss : s.ev.loss = [])
    (fits : (entriesFor s e).length ≤ 4096 - s.ev.log.length) :
    Does .eventAcceptance s fun t => t.ev = { s.ev with
        queue := rest, acceptedAt := some s.now, log := s.ev.log ++ entriesFor s e, nextSeq := (s.ev.nextSeq + 1) % 2 ^ 32 } ∧
          SameExcept [.ev] s t := by
  have room : ¬logFree (eventTaken s rest) < entriesOf e.detail := by
    rw [← entriesFor_length s e]
    exact Nat.not_lt.mpr fits
  have noSubs' : (eventTaken s rest).ev.subs = [] := noSubs
  have writes : eventAcceptanceOp s = logWrite (eventTaken s rest) e := by
    rw [eventAcceptance_takes queue fresh, acceptEvent_noSubs noSubs', if_neg room, logWrite_noSubs noSubs']
    exact losses_none noLoss
  exact ⟨_, congrArg Host.Outcome.next (writes.trans (logWrite_noSubs noSubs' e)), rfl, by simp [SameExcept, eventTaken]⟩

theorem eventAcceptance_unmatched (e : EventRec) (rest : List EventRec) (s : State) (queue : s.ev.queue = e :: rest)
    (fresh : s.ev.acceptedAt ≠ some s.now) (subscribed : s.ev.subs ≠ []) (unmatched : ∀ u ∈ s.ev.subs, u.2.matches e.code e.sev = false)
    (noLoss : s.ev.loss = []) :
    Does .eventAcceptance s fun t => t.ev = { s.ev with
        queue := rest, acceptedAt := some s.now, nextSeq := (s.ev.nextSeq + 1) % 2 ^ 32
        unmatched := min (s.ev.unmatched + 1) (2 ^ 32 - 1) } ∧
      SameExcept [.ev] s t := by
  let u := eventTaken s rest
  have counts : acceptEvent u e =
      { u with ev := { u.ev with nextSeq := (s.ev.nextSeq + 1) % 2 ^ 32, unmatched := satAdd 32 s.ev.unmatched 1 } } :=
    if_pos (by simpa [u, eventTaken, subscribed] using unmatched)
  have runs := eventAcceptance_takes queue fresh
  rw [counts] at runs
  exact ⟨_, congrArg Host.Outcome.next (runs.trans (losses_none noLoss)), rfl, by simp [SameExcept, u, eventTaken]⟩

theorem eventAcceptance_loses (e : EventRec) (rest : List EventRec) (s : State) (queue : s.ev.queue = e :: rest)
    (fresh : s.ev.acceptedAt ≠ some s.now) (noSubs : s.ev.subs = []) (full : 4096 - s.ev.log.length < (entriesFor s e).length) :
    Does .eventAcceptance s fun t => t.ev.queue = rest ∧ t.ev.log = s.ev.log ∧ t.ev.nextSeq = s.ev.nextSeq ∧
      mapGet t.ev.loss (lossIndex e.cls e.inst) 0 = min (mapGet s.ev.loss (lossIndex e.cls e.inst) 0 + 1) (2 ^ 32 - 1) ∧
      SameExcept [.ev] s t := by
  rw [entriesFor_length] at full
  have atMostTwo : entriesOf e.detail ≤ 2 := by
    unfold entriesOf
    split <;> omega
  let u := eventTaken s rest
  have noRoom : logFree u < entriesOf e.detail := full
  have runs := eventAcceptance_takes queue fresh
  rw [acceptEvent_noSubs (show u.ev.subs = [] from noSubs), if_pos noRoom,
    losses_full (show logFree (countLoss u e.cls e.inst) < 16 from Nat.lt_of_lt_of_le noRoom (by omega))] at runs
  exact ⟨_, congrArg Host.Outcome.next runs, rfl, rfl, rfl, mapGet_mapSet_self _ _ _ _, by simp [SameExcept, u, eventTaken, countLoss]⟩

/-! ## Lagging hosts (R525) -/

theorem mem_insertNat (v : Nat) (l : List Nat) : v ∈ insertNat v l := by
  induction l with
  | nil => exact List.mem_singleton_self v
  | cons x l ih =>
    unfold insertNat
    split
    · exact List.mem_cons_self
    · exact List.mem_cons_of_mem x ih

theorem hostLagged_unsubscribed (h : HostId) (s : State) (none : mapGet? s.ev.subs h = none) : Idle (.hostLaggedTimeout h) s :=
  congrArg Host.Outcome.next (by simp only [hostLaggedOp, none])

theorem hostLagged_early (h : HostId) (u : Sub) (x : Nat) (s : State) (subscribed : mapGet? s.ev.subs h = some u)
    (deadline : lagDeadline s u = some x) (early : s.now < x) : Idle (.hostLaggedTimeout h) s :=
  congrArg Host.Outcome.next (by simp only [hostLaggedOp, subscribed, deadline, if_pos early])

/-- HOST_LAGGED of a host that the arbiter gives up (R525). -/
def laggedEvent (s : State) (h : HostId) (u : Sub) : EventRec :=
  { cls := 0, inst := 1, code := 0x1202, sev := 2
    detail := leBytes 1 h.val ++ leBytes 2 (min (subPending s u) 65535) ++ leBytes 4 u.mask }

theorem laggedEvent_length (s : State) (h : HostId) (u : Sub) : (laggedEvent s h u).detail.length = 7 := by
  simp [laggedEvent, leBytes]

theorem hostLagged_unsubscribes (h : HostId) (u : Sub) (x : Nat) (s : State) (only : s.ev.subs = [(h.val, u)])
    (deadline : lagDeadline s u = some x) (late : x ≤ s.now) (room : s.ev.log.length < 4096) (noLoss : s.ev.loss = []) :
    Does (.hostLaggedTimeout h) s fun t => t.ev.subs = [] ∧ h.val ∈ t.ev.lagged ∧ (∃ e : LogEntry,
        t.ev.log = s.ev.log ++ [e] ∧ e.code = 0x1202 ∧ e.seq = s.ev.nextSeq ∧ e.at_ = s.now ∧
        e.detail = leBytes 1 h.val ++ leBytes 2 (min (subPending s u) 65535) ++ leBytes 4 u.mask) ∧
      SameExcept [.ev] s t := by
  have subscribed : mapGet? s.ev.subs h = some u := by rw [only]; simp [mapGet?]
  have last : mapDel s.ev.subs h = [] := by rw [only]; simp [mapDel]
  let v : State := { s with ev := { s.ev with subs := [], lagged := insertNat h s.ev.lagged } }
  have free : ¬logFree v = 0 := Nat.sub_ne_zero_of_lt room
  have runs : hostLaggedOp s h = losses (logWrite v (laggedEvent s h u)) := by
    simp only [hostLaggedOp, subscribed, deadline, if_neg (Nat.not_lt.mpr late), last]
    exact congrArg losses (if_neg free)
  rw [logWrite_noSubs rfl] at runs
  replace runs := runs.trans (losses_none noLoss)
  obtain ⟨a, entry, code, seq, at_, detail⟩ := entriesFor_short v (laggedEvent s h u) (by rw [laggedEvent_length]; omega)
  rw [entry] at runs
  exact ⟨_, congrArg Host.Outcome.next runs, rfl, mem_insertNat _ _, ⟨a, rfl, code, seq, at_, detail⟩, by simp [SameExcept, v]⟩

/-! ## A self-test begins (R529, R530) -/

/-- A Clove unit is drained already: it is in service, runs nothing, and no placement waits. -/
structure IdleUnit (s : State) (k : Nat) : Prop where
  clove : 1024 ≤ k
  noDrain : mapGet? s.mill.drains k = none
  waits : waitsForWork s k = true
  runsNone : runningOn s k = none
  noPlacement : s.host.placeWait = none

theorem inService_noDrain {s : State} {k : Nat} (serves : inService s k = true) : mapGet? s.mill.drains k = none := by
  simp only [inService, Bool.and_eq_true, Option.isNone_iff_eq_none] at serves
  obtain ⟨⟨⟨⟨⟨noDrain, -⟩, -⟩, -⟩, -⟩, -⟩ := serves
  exact noDrain

theorem idleUnit_of_idleClove {s : State} {k : Nat} (idle : IdleClove s k) : IdleUnit s k := by
  obtain ⟨clove, -, serves, waits, runsNone, noPlacement⟩ := idle
  exact ⟨clove, inService_noDrain serves, waits, runsNone, noPlacement⟩

/-- A unit under test is held out of service. -/
theorem releaseCore_underTest {s : State} {k : Nat} (under : s.underTest k = true) : releaseCore s k = s :=
  if_pos (by simp [drainHeld, under])

/-- An idle Clove unit drains at once, and its test with it begins. -/
theorem drainNow_test {s : State} {k : Nat} (idle : IdleUnit s k) (asked : (s.unitTest k).st = 2) :
    drainNow s k = ({ s with mill := { s.mill with drains := mapSet s.mill.drains k s.now } } : State).setTest k
      { s.unitTest k with st := 3, until_ := s.now + testLen k } := by
  obtain ⟨clove, noDrain, waits, runsNone, noPlacement⟩ := idle
  let u : State := { s with mill := { s.mill with drains := mapSet s.mill.drains k s.now } }
  have drains : drainUnit s k = u := if_neg (by simp [noDrain])
  have isDrained : drained u k = true := by
    have here : mapGet? u.mill.drains k = some s.now := mapGet?_mapSet_self _ _ _
    simp [drained, here, show runningOn u k = none from runsNone, show waitsForWork u k = true from waits]
  have tail : tailStep u k = u := if_pos (by simp [clove])
  have place : placeStep u k = u := by simp only [placeStep, show u.host.placeWait = none from noPlacement]
  have test : testStep u k = u.setTest k { s.unitTest k with st := 3, until_ := s.now + testLen k } :=
    if_neg (by simp [show (u.unitTest k).st = 2 from asked, Nat.not_lt.mpr clove])
  rw [drainNow, drains, drainHook, if_neg (by simp [isDrained]), tail, place, test]
  exact releaseCore_underTest (by simp [State.underTest])

theorem testBegin_clove {s : State} {k : Nat} (idle : IdleUnit s k) : testBegin s k =
    ({ s.setTest k { s.unitTest k with st := 2 } with mill := { s.mill with drains := mapSet s.mill.drains k s.now } } : State).setTest k
      { s.unitTest k with st := 3, until_ := s.now + testLen k } := by
  let u := s.setTest k { s.unitTest k with st := 2 }
  have asked : u.unitTest k = { s.unitTest k with st := 2 } := State.unitTest_setTest_self _ _ _
  have begins : testBegin s k = drainNow u k := congrArg (drainNow · k) (if_neg (Nat.not_lt.mpr idle.clove))
  have idle' : IdleUnit u k := ⟨idle.clove, idle.noDrain, idle.waits, idle.runsNone, idle.noPlacement⟩
  rw [begins, drainNow_test idle' (congrArg UnitTest.st asked), asked]
  rfl

/-- The test of an idle Clove unit runs at once, whatever the waiting tests were before. -/
theorem testBegin_runs {s u : State} {k : Nat} (idle : IdleUnit u k) (gone : k ∉ u.test.waiting)
    (same : ∀ j, j ≠ k → u.unitTest j = s.unitTest j) (frame : ∃ test, u = { s with test := test }) :
    TestRuns s (testBegin u k) k := by
  rw [testBegin_clove idle]
  obtain ⟨test, rfl⟩ := frame
  refine ⟨?_, ?_, gone, mapGet?_mapSet_self _ _ _, fun j other => ?_, by simp [SameExcept]⟩
  · rw [State.unitTest_setTest_self]
  · rw [State.unitTest_setTest_self]
    rfl
  · rw [State.unitTest_setTest_ne _ _ _ other]
    exact (State.unitTest_setTest_ne _ _ _ other).trans (same j other)

/-- A waiting test leaves the line when it begins. -/
def lineLeft (s : State) (k : Nat) : State := { s with test := { s.test with waiting := s.test.waiting.filter fun j => j ≠ k } }

theorem selftestStart_begins {s : State} {k : Nat} (idle : IdleClove s k) (first : firstWaiting s k = true)
    (allowed : testAllowed s k = true) (alone : (s.unitTest k).trigger = 1 ∨ scheduledRuns s k = false) :
    selftestStartOp s k = testBegin (lineLeft s k) k := by
  obtain ⟨-, runs, serves, -⟩ := idle
  refine if_neg ?_
  obtain requested | scheduled := alone
  · simp [testsRun, runs, first, serves, allowed, requested]
  · simp [testsRun, runs, first, serves, allowed, scheduled]

theorem selftestStart_runs (k : Fin 1144) (s : State) (idle : IdleClove s k.val) (first : firstWaiting s k = true)
    (allowed : testAllowed s k = true) (requested : (s.unitTest k).trigger = 1) :
    Does (.selftestStart k) s fun t => TestRuns s t k.val := by
  obtain ⟨clove, noDrain, waits, runsNone, noPlacement⟩ := idleUnit_of_idleClove idle
  exact ⟨_, congrArg Host.Outcome.next (selftestStart_begins idle first allowed (.inl requested)),
    testBegin_runs ⟨clove, noDrain, waits, runsNone, noPlacement⟩ (by simp [lineLeft]) (fun _ _ => rfl) ⟨_, rfl⟩⟩

theorem selftestStart_waits {s : State} {k : Nat}
    (blocked : firstWaiting s k = false ∨ inService s k = false ∨ testAllowed s k = false) : selftestStartOp s k = s := by
  refine if_pos ?_
  obtain notFirst | off | denied := blocked
  · simp [notFirst]
  · simp [off]
  · simp [denied]

theorem selftestStart_idle (k : Fin 1144) (s : State) (blocked : firstWaiting s k = false ∨ testAllowed s k = false) :
    Idle (.selftestStart k) s :=
  congrArg Host.Outcome.next (selftestStart_waits (blocked.imp_right .inr))

/-- A due test, recorded and in line. -/
def testLined (s : State) (k : Nat) : State :=
  let u := s.setTest k { s.unitTest k with st := 1, trigger := 0, dueAt := testDueAt s k }
  { u with test := { u.test with waiting := testInsert u (testDueAt s k) k u.test.waiting } }

theorem selftestDue_lines {s : State} {k : Nat} (runs : s.boot.devState = 1) (scheduled : s.param 0x1201 (unitTarget k) ≠ 0)
    (idle : (s.unitTest k).st = 0) (place : inService s k = true ∨ testGated s k = true) (due : testDueAt s k ≤ s.now) :
    selftestDueOp s k = selftestStartOp (testLined s k) k := by
  refine if_neg ?_
  obtain serves | gated := place
  · simp [testsRun, runs, scheduled, idle, serves, due]
  · simp [testsRun, runs, scheduled, idle, gated, due]

theorem selftestDue_waits (k : Fin 1144) (s : State) (runs : s.boot.devState = 1) (scheduled : s.param 0x1201 (unitTarget k) ≠ 0)
    (idle : (s.unitTest k).st = 0) (due : testDueAt s k ≤ s.now) :
    let u := s.setTest k { s.unitTest k with st := 1, trigger := 0, dueAt := testDueAt s k }
    (inService s k = true ∧ testAllowed u k = false) ∨ testGated s k = true →
    exec (.selftestDue k) s =
      .next { u with test := { u.test with waiting := testInsert u (testDueAt s k) k u.test.waiting } } := by
  intro u blocked
  have lines := selftestDue_lines runs scheduled idle (blocked.imp_left And.left) due
  refine congrArg Host.Outcome.next (lines.trans (selftestStart_waits ?_))
  obtain ⟨-, denied⟩ | gated := blocked
  · exact .inr (.inr denied)
  · have off : (testLined s k).domainOn (unitDomain k) = false := by
      simp only [testGated, Bool.and_eq_true, Bool.not_eq_true'] at gated
      exact gated.2
    exact .inr (.inl (by simp [inService, off]))

theorem selftestDue_idle (k : Fin 1144) (s : State)
    (none : s.param 0x1201 (unitTarget k) = 0 ∨ (inService s k = false ∧ testGated s k = false) ∨ s.now < testDueAt s k) :
    Idle (.selftestDue k) s := by
  refine congrArg Host.Outcome.next (if_pos ?_)
  obtain unscheduled | ⟨off, open_⟩ | early := none
  · simp [unscheduled]
  · simp [off, open_]
  · simp [early]

theorem selftestDue_runs (k : Fin 1144) (s : State) (idle : IdleClove s k.val) (scheduled : s.param 0x1201 (unitTarget k) ≠ 0)
    (fresh : (s.unitTest k).st = 0) (due : testDueAt s k ≤ s.now)
    (allowed : testAllowed (s.setTest k { s.unitTest k with st := 1, trigger := 0, dueAt := testDueAt s k }) k = true)
    (noLine : s.test.waiting = []) (noTests : s.test.units = []) : Does (.selftestDue k) s fun t => TestRuns s t k.val := by
  obtain ⟨clove, runs, serves, waits, runsNone, noPlacement⟩ := idle
  let u := testLined s k
  have record : u.unitTest k = { s.unitTest k with st := 1, trigger := 0, dueAt := testDueAt s k } :=
    State.unitTest_setTest_self s _ _
  have line : u.test.waiting = [k.val] := by
    show testInsert _ _ _ s.test.waiting = _
    rw [noLine, testInsert]
  have serves' : inService u k = true := by
    have before : s.underTest k = false := by simp [State.underTest, fresh]
    have after : u.underTest k = false := by simp [State.underTest, record]
    simp only [inService, before] at serves
    simp only [inService, after]
    exact serves
  have first : firstWaiting u k = true := by simp [firstWaiting, line, serves']
  have alone : scheduledRuns u k = false := by
    have units : u.test.units = [(k.val, { s.unitTest k with st := 1, trigger := 0, dueAt := testDueAt s k })] := by
      show mapSet s.test.units _ _ = _
      rw [noTests, mapSet]
    simp [scheduledRuns, units]
  have lines := selftestDue_lines runs scheduled fresh (.inl serves) due
  have begins := selftestStart_begins (s := u) ⟨clove, runs, serves', waits, runsNone, noPlacement⟩ first allowed (.inr alone)
  exact ⟨_, congrArg Host.Outcome.next (lines.trans begins),
    testBegin_runs ⟨clove, inService_noDrain (s := s) serves, waits, runsNone, noPlacement⟩ (by simp [lineLeft])
      (fun j other => State.unitTest_setTest_ne s _ _ other) ⟨_, rfl⟩⟩

/-! ## A self-test ends (R530, R533, R535) -/

theorem testComplete_idle (k : Fin 1144) (f : Option (BitVec 16)) (s : State)
    (early : (s.unitTest k).st ≠ 3 ∨ s.now < (s.unitTest k).until_) : Idle (.selftestTestComplete k f) s :=
  congrArg Host.Outcome.next (if_pos (by simpa using early))

/-- The detail of CLOVE_SELFTEST (R535). -/
def cloveReport (k : Nat) (res vec : Nat) : List Byte :=
  leBytes 1 (unitTarget k) ++ leBytes 1 (cloveNumber (k - 1024)) ++ leBytes 1 res ++ leBytes 2 vec

theorem eventSev_cloveReport (k res vec : Nat) (bit_ : res < 2) : eventSev 0x0903 (cloveReport k res vec) = if res = 1 then 3 else 0 := by
  obtain rfl | rfl : res = 0 ∨ res = 1 := by omega
  · rfl
  · rfl

/-- A unit's record at the end of its test, as it is reported. -/
def testRecorded (s : State) (k : Nat) (fail : Option Nat) : State :=
  let u := s.unitTest k
  testEvt (s.setTest k { u with
    st := if fail.isSome then 4 else 0, result := if fail.isSome then 1 else 0, vector := fail.getD u.vector, at_ := s.now }) k
    (if fail.isSome then 1 else 0) (fail.getD 0)

/-- A unit that failed its test is withdrawn (R533). -/
def unitWithdrawn (s : State) (k : Nat) : State := { s with mill := { s.mill with withdrawn := insertNat k s.mill.withdrawn } }

section
variable {s : State} {k : Nat} (running : (s.unitTest k).st = 3) (ended : (s.unitTest k).until_ ≤ s.now)
include running ended

theorem testComplete_passes (clove : 1024 ≤ k) (noStart : (testRecorded s k none).boot.devState ≠ 4) :
    testCompleteOp s k none = releaseCore (testRecorded s k none) k := by
  have unclustered : ¬k < 1024 := Nat.not_lt.mpr clove
  have stays : ∀ t, testLeaves t k = t := fun t => if_neg (by simp [unclustered])
  rw [testCompleteOp]
  dsimp only
  rw [if_neg (by simp [running, ended])]
  simp only [if_neg unclustered, Option.isSome_none, Bool.false_eq_true, if_false, stays]
  exact if_neg noStart

theorem testComplete_fails (clove : 1024 ≤ k) (v : Nat) : testCompleteOp s k (some v) = unitWithdrawn (testRecorded s k (some v)) k := by
  have unclustered : ¬k < 1024 := Nat.not_lt.mpr clove
  have stays : ∀ t, testLeaves t k = t := fun t => if_neg (by simp [unclustered])
  rw [testCompleteOp]
  dsimp only
  rw [if_neg (by simp [running, ended])]
  simp only [if_neg unclustered, Option.isSome_some, if_true, stays, ite_self]
  rfl

theorem testComplete_failsAtStart (core : k < 1024) (v : Nat) (start : (reloadCore (testRecorded s k (some v)) k).boot.devState = 4) :
    testCompleteOp s k (some v) = unitWithdrawn (reloadCore (testRecorded s k (some v)) k) k := by
  rw [testCompleteOp]
  dsimp only
  rw [if_neg (by simp [running, ended])]
  simp only [if_pos core, Option.isSome_some, if_true]
  exact if_pos start

end

/-- The report of a Clove unit's test joins the arbiter's queue. -/
theorem testRecorded_clove {s : State} {k : Nat} (clove : 1024 ≤ k) (room : Room 1 s) (fail : Option Nat) :
    testRecorded s k fail =
      { s.setTest k { s.unitTest k with
          st := if fail.isSome then 4 else 0, result := if fail.isSome then 1 else 0, vector := fail.getD (s.unitTest k).vector
          at_ := s.now } with
        ev := { s.ev with queue := s.ev.queue ++ [{ cls := 6, inst := k - 1024, code := 0x0903, sev := if fail.isSome then 3 else 0
                                                    detail := cloveReport k (if fail.isSome then 1 else 0) (fail.getD 0) }] } } := by
  have unclustered : ¬k < 1024 := Nat.not_lt.mpr clove
  rw [testRecorded, testEvt, if_neg unclustered, if_neg (by split <;> omega)]
  refine (raise_joins (s.setTest k _) _ _ _ _ room).trans ?_
  have sev := eventSev_cloveReport k (if fail.isSome then 1 else 0) (fail.getD 0) (by split <;> omega)
  rw [cloveReport] at sev
  rw [sev]
  cases fail <;> rfl

theorem testComplete_returns (k : Fin 1144) (s : State) (clove : 1024 ≤ k.val) (running : (s.unitTest k).st = 3)
    (ended : (s.unitTest k).until_ ≤ s.now) (noStart : s.boot.devState ≠ 4) (room : Room 1 s) :
    Does (.selftestTestComplete k none) s fun t =>
      t.unitTest k = { s.unitTest k with st := 0, result := 0, at_ := s.now } ∧ mapGet? t.mill.drains k = none ∧
      t.mill.withdrawn = s.mill.withdrawn ∧
      Raised s t 6 (k.val - 1024) 0x0903 0 (leBytes 1 (unitTarget k) ++ leBytes 1 (cloveNumber (k.val - 1024)) ++ leBytes 1 0 ++
        leBytes 2 0) ∧ (∀ j, j ≠ k.val → t.unitTest j = s.unitTest j) ∧ SameExcept [.test, .ev, .mill] s t := by
  have recorded := testRecorded_clove clove room none
  have runs := testComplete_passes running ended clove (by rw [recorded]; exact noStart)
  generalize testRecorded s k none = t at recorded runs
  subst recorded
  rw [releaseCore, if_neg (by simp [drainHeld, State.underTest, State.unitTest, State.setTest, Nat.not_lt.mpr clove])] at runs
  exact ⟨_, congrArg Host.Outcome.next runs, State.unitTest_setTest_self _ _ _, mapGet?_mapDel_self _ _, rfl, rfl,
    fun j other => State.unitTest_setTest_ne _ _ _ other, by simp [SameExcept, undrain]⟩

theorem testComplete_withdraws (k : Fin 1144) (v : BitVec 16) (s : State) (clove : 1024 ≤ k.val) (running : (s.unitTest k).st = 3)
    (ended : (s.unitTest k).until_ ≤ s.now) (room : Room 1 s) :
    Does (.selftestTestComplete k (some v)) s fun t =>
      t.unitTest k = { s.unitTest k with st := 4, result := 1, vector := v.toNat, at_ := s.now } ∧
      k.val ∈ t.mill.withdrawn ∧ t.mill.drains = s.mill.drains ∧
      Raised s t 6 (k.val - 1024) 0x0903 3 (leBytes 1 (unitTarget k) ++ leBytes 1 (cloveNumber (k.val - 1024)) ++ leBytes 1 1 ++
        leBytes 2 v.toNat) ∧ (∀ j, j ≠ k.val → t.unitTest j = s.unitTest j) ∧ SameExcept [.test, .ev, .mill] s t := by
  have recorded := testRecorded_clove clove room (some v.toNat)
  have runs := testComplete_fails running ended clove v.toNat
  generalize testRecorded s k (some v.toNat) = t at recorded runs
  subst recorded
  exact ⟨_, congrArg Host.Outcome.next runs, State.unitTest_setTest_self _ _ _, mem_insertNat _ _, rfl, rfl,
    fun j other => State.unitTest_setTest_ne _ _ _ other, by simp [SameExcept, unitWithdrawn]⟩

/-- The placement's tail mode is noted with the host's placements alone. -/
theorem noteTail_host (s : State) (k : Nat) : ∃ host, noteTail s k = { s with host := host } := by
  unfold noteTail
  split <;> exact ⟨_, rfl⟩

theorem testComplete_withdrawsAtStart (k : Fin 1144) (v : BitVec 16) (s : State) (core : k.val < 1024)
    (running : (s.unitTest k).st = 3) (ended : (s.unitTest k).until_ ≤ s.now) (start : s.boot.devState = 4) (room : Room 1 s) :
    Does (.selftestTestComplete k (some v)) s fun t =>
      t.unitTest k = { s.unitTest k with st := 4, result := 1, vector := v.toNat, at_ := s.now } ∧ k.val ∈ t.mill.withdrawn ∧
      t.core k = { s.core k with imem := placedCode s k } ∧
      Raised s t 0 0 0x1203 3 (leBytes 2 k.val ++ leBytes 1 1 ++ leBytes 1 (s.unitTest k).trigger ++ leBytes 2 v.toNat) ∧
      SameExcept [.test, .ev, .mill, .facet, .host] s t := by
  let u := s.setTest k { s.unitTest k with st := 4, result := 1, vector := v.toNat, at_ := s.now }
  let w := raise u 0 0 0x1203 (leBytes 2 k.val ++ leBytes 1 1 ++ leBytes 1 (s.unitTest k).trigger ++ leBytes 2 v.toNat)
  have record : u.unitTest k = _ := State.unitTest_setTest_self s _ _
  have recorded : testRecorded s k (some v.toNat) = w := by
    show testEvt u k 1 v.toNat = w
    rw [testEvt, if_pos core, record]
  have joins : w = _ := raise_joins u _ _ _ _ room
  obtain ⟨host, noted⟩ := noteTail_host (w.setCore k { w.core k with imem := placedCode w k }) k
  have runs := testComplete_failsAtStart running ended core v.toNat (by
    rw [recorded, reloadCore, noted, joins]
    exact start)
  rw [recorded, reloadCore, noted] at runs
  refine ⟨_, congrArg Host.Outcome.next runs, (raise_unitTest u 0 0 0x1203 _ k).trans record, mem_insertNat _ _, ?_,
    congrArg State.ev joins, by simp [SameExcept, unitWithdrawn, w, u]⟩
  have same : w.core k = s.core k ∧ placedCode w k = placedCode s k := by
    rw [joins]
    exact ⟨rfl, rfl⟩
  rw [← same.1, ← same.2]
  exact State.core_setCore_self w k _

/-- Settles O56, clause by clause: acceptance, lagging hosts, and the beginning and the end of a self-test. -/
theorem eventsAndTests : Obligations.EventsAndTests :=
  ⟨eventAcceptance_empty, eventAcceptance_oncePerCycle, eventAcceptance_writes, eventAcceptance_unmatched, eventAcceptance_loses,
   hostLagged_unsubscribed, hostLagged_unsubscribes, hostLagged_early, selftestDue_waits, selftestDue_runs, selftestDue_idle,
   selftestStart_runs, selftestStart_idle, testComplete_idle, testComplete_returns, testComplete_withdraws,
   testComplete_withdrawsAtStart⟩

end Sys2Proof.Machine
end

section
namespace Sys2Proof.Machine

open Sys2Proof.Claims

/-! ## READY and APPLIED (R475, R476) -/

theorem commit_none (i : Instr) (s : State) (none : s.cfg.commit = none)
    (step : (∃ u, i = .unitReady u) ∨ (∃ b, i = .commitReadinessCheck b) ∨ (∃ b r, i = .shadowSwap b r) ∨ (∃ u, i = .unitApplied u) ∨
      i = .commitOutcome ∨ i = .commitRollback) : Idle i s := by
  obtain ⟨u, rfl⟩ | ⟨b, rfl⟩ | ⟨b, r, rfl⟩ | ⟨u, rfl⟩ | rfl | rfl := step
  · exact congrArg Host.Outcome.next (by simp only [unitReadyMsg, none])
  · exact congrArg Host.Outcome.next (by simp only [readinessCheck, none])
  · exact congrArg Host.Outcome.next (by simp only [shadowSwapOp, none])
  · exact congrArg Host.Outcome.next (by simp only [unitAppliedMsg, none])
  · exact congrArg Host.Outcome.next (by simp only [commitOutcomeOp, none])
  · exact congrArg Host.Outcome.next (by simp only [commitRollbackOp, none])

theorem unitReady_joins (u : BitVec 16) (k : Commit) (s : State) (commit : s.cfg.commit = some k) (stage : k.stage = 0)
    (concerned : u.toNat ∈ k.units) (fresh : u.toNat ∉ k.ready) (able : mapGet? k.reasons u.toNat = none)
    (reached : unitClosed s u.toNat = false) :
    Does (.unitReady u) s fun t => t.cfg = { s.cfg with commit := some { k with ready := k.ready ++ [u.toNat] } } ∧
      SameExcept [.cfg] s t := by
  have joins : unitReadyMsg s u.toNat = setCommit s (some { k with ready := k.ready ++ [u.toNat] }) := by
    simp only [unitReadyMsg, commit]
    exact if_neg (by simp [stage, concerned, fresh, able, reached])
  exact ⟨_, congrArg Host.Outcome.next joins, rfl, by simp [SameExcept, setCommit]⟩

theorem unitReady_closed (u : BitVec 16) (k : Commit) (s : State) (commit : s.cfg.commit = some k)
    (closed : unitClosed s u.toNat = true) : Idle (.unitReady u) s := by
  have ignored : unitReadyMsg s u.toNat = s := by
    simp only [unitReadyMsg, commit]
    exact if_pos (by simp [closed])
  exact congrArg Host.Outcome.next ignored

theorem unitApplied_joins (u : BitVec 16) (k : Commit) (s : State) (commit : s.cfg.commit = some k) (stage : k.stage = 2)
    (swapped : u.toNat ∈ k.swapped) (fresh : u.toNat ∉ k.applied) :
    Does (.unitApplied u) s fun t => t.cfg = { s.cfg with commit := some { k with applied := k.applied ++ [u.toNat] } } ∧
      SameExcept [.cfg] s t := by
  have joins : unitAppliedMsg s u.toNat = setCommit s (some { k with applied := k.applied ++ [u.toNat] }) := by
    simp only [unitAppliedMsg, commit]
    exact if_neg (by simp [stage, swapped, fresh])
  exact ⟨_, congrArg Host.Outcome.next joins, rfl, by simp [SameExcept, setCommit]⟩

/-! ## The readiness check (R476, R477) -/

/-- The units that are not READY, with why. -/
def unreadyUnits (s : State) (k : Commit) (bad : List Nat) : List (Nat × Nat) :=
  (k.units.filter fun u => u ∉ k.ready ∨ u ∈ bad).map fun u => (u, unreadyReason s k bad u)

/-- How the check ends for the units that are not READY (R476, R477). -/
def readinessOutcome (s : State) (k : Commit) (fail : List (Nat × Nat)) : State :=
  if fail.isEmpty then setCommit s (some { k with stage := 1 })
  else
    let s1 := cancelledEvt s.endCommit k 0 fail
    reply s1 k.req dzNotReady fail.length (armPayload s1 k fail)

theorem readinessCheck_due {s : State} {k : Commit} (bad : List Nat) (commit : s.cfg.commit = some k) (stage : k.stage = 0)
    (due : k.t ≤ s.now + 491520) :
    readinessCheck s bad = readinessOutcome s k (unreadyUnits s k bad) := by
  have units : ((k.units.filter fun u => !k.ready.contains u || bad.contains u).map fun u =>
      (u, if bad.contains u then 3 else match mapGet? k.reasons u with | some r => r | none => if unitClosed s u then 1 else 2)) =
      unreadyUnits s k bad := by
    have filters : (fun u => !k.ready.contains u || bad.contains u) = fun u => decide (u ∉ k.ready ∨ u ∈ bad) := by
      funext u
      simp
    rw [unreadyUnits, filters]
    refine List.map_congr_left fun u _ => ?_
    rw [unreadyReason]
    by_cases inBad : u ∈ bad
    · simp [inBad]
    · cases reason : mapGet? k.reasons u <;> simp [inBad]
  simp only [readinessCheck, commit]
  exact (if_neg (by simp [stage, due])).trans (congrArg (readinessOutcome s k) units)

theorem readinessCheck_passes (bad : List Nat) (k : Commit) (s : State) (commit : s.cfg.commit = some k) (stage : k.stage = 0)
    (due : k.t ≤ s.now + 491520) (ready : ∀ u ∈ k.units, u ∈ k.ready ∧ u ∉ bad) :
    Does (.commitReadinessCheck bad) s fun t => t.cfg = { s.cfg with commit := some { k with stage := 1 } } ∧
      SameExcept [.cfg] s t := by
  have all : unreadyUnits s k bad = [] := by
    rw [unreadyUnits, List.map_eq_nil_iff, List.filter_eq_nil_iff]
    intro u concerned
    simp [ready u concerned]
  have runs := readinessCheck_due bad commit stage due
  rw [all] at runs
  exact ⟨_, congrArg Host.Outcome.next runs, rfl, by simp [SameExcept, setCommit, readinessOutcome]⟩

theorem readinessCheck_early (bad : List Nat) (k : Commit) (s : State) (commit : s.cfg.commit = some k) (_ : k.stage = 0)
    (early : s.now + 491520 < k.t) : Idle (.commitReadinessCheck bad) s := by
  have waits : readinessCheck s bad = s := by
    simp only [readinessCheck, commit]
    exact if_pos (by simp [early])
  exact congrArg Host.Outcome.next waits

theorem readinessCheck_cancels (bad : List Nat) (k : Commit) (s : State) (commit : s.cfg.commit = some k) (stage : k.stage = 0)
    (due : k.t ≤ s.now + 491520) (unready : ∃ u ∈ k.units, u ∉ k.ready ∨ u ∈ bad) (room : Room 1 s) :
    let l := (k.units.filter fun u => u ∉ k.ready ∨ u ∈ bad).map fun u => (u, unreadyReason s k bad u)
    ∃ t, exec (.commitReadinessCheck bad) s = .next (reply t k.req 9 l.length (leBytes 4 s.deviceGen ++ leBytes 2 k.units.length ++
        leBytes 2 l.length ++ l.flatMap fun e => leBytes 2 e.1 ++ leBytes 1 e.2 ++ [0])) ∧
      t.cfg = { s.cfg with commit := none } ∧ Queued t 0 0 0x1002 ∧ Disarmed s t ∧ SameExcept [.cfg, .ev, .time] s t := by
  have some_ : (unreadyUnits s k bad).isEmpty = false := by
    obtain ⟨u, concerned, why⟩ := unready
    rw [List.isEmpty_eq_false_iff]
    exact List.ne_nil_of_mem (List.mem_map_of_mem (List.mem_filter.mpr ⟨concerned, decide_eq_true why⟩))
  have runs := readinessCheck_due bad commit stage due
  rw [readinessOutcome, if_neg (by simp [some_])] at runs
  intro l
  obtain ⟨d, event⟩ : ∃ d, cancelledEvt s.endCommit k 0 l = raise s.endCommit 0 0 0x1002 d := ⟨_, rfl⟩
  refine ⟨cancelledEvt s.endCommit k 0 l, (congrArg Host.Outcome.next runs).trans ?_, ?_, ?_, ?_, ?_⟩
  · have gen : (cancelledEvt s.endCommit k 0 l).deviceGen = s.deviceGen := by rw [event, State.deviceGen, raise_cfg]; rfl
    rw [← gen]
    rfl
  · rw [event, raise_cfg]
    rfl
  · exact event ▸ raise_queued _ _ _ _ _ room
  · rw [Disarmed, event, raise_time]
    rfl
  · rw [event]
    simp [SameExcept, State.endCommit]

/-! ## A swap of inert parameters (R475, R478) -/

/-- A parameter whose change of value changes nothing else. -/
abbrev InertKey (key : Nat) : Prop :=
  key / 65536 ∉ [0x0405, 0x0501, 0x020F, 0x0702, 0x0710, 0x080B, 0x080C, 0x080D, 0x1001, 0x1301] ∧
    (key / 65536 < 0x1101 ∨ 0x1104 < key / 65536)

theorem swapBefore_inert (s : State) {key : Nat} (old new : Nat) (inert : InertKey key) : swapBefore s key old new = s := by
  obtain ⟨listed, -⟩ := inert
  simp only [List.mem_cons, List.not_mem_nil, or_false, not_or] at listed
  obtain ⟨lane, mode, -, -, -, -, -, -, active, -⟩ := listed
  unfold swapBefore
  split
  · rfl
  · split
    case h_4 => rfl
    all_goals contradiction

theorem swapAfter_inert (s : State) {key : Nat} (old new : Nat) (inert : InertKey key) : swapAfter s key old new = s := by
  obtain ⟨listed, -⟩ := inert
  simp only [List.mem_cons, List.not_mem_nil, or_false, not_or] at listed
  obtain ⟨-, -, synce, split_, tail, flows, trace, ring, active, plan⟩ := listed
  unfold swapAfter
  dsimp only
  rw [if_neg active]
  split
  · rfl
  · split
    case h_8 => rfl
    all_goals contradiction

theorem swapValues_inert (s : State) (l : List (Nat × Nat × Nat)) (move : State → State) (inert : ∀ e ∈ l, InertKey e.1) :
    swapValues s l move = move s := by
  have pool : (l.any fun e => 0x1101 ≤ e.1 / 65536 && e.1 / 65536 ≤ 0x1104 && e.2.1 ≠ e.2.2) = false := by
    rw [List.any_eq_false]
    intro e he
    obtain ⟨-, outside⟩ := inert e he
    simp
    omega
  have before : l.foldl (fun t e => swapBefore t e.1 e.2.1 e.2.2) s = s :=
    foldl_fixed_mem fun e he => swapBefore_inert s _ _ (inert e he)
  rw [swapValues, before, pool]
  exact foldl_fixed_mem fun e he => swapAfter_inert _ _ _ (inert e he)

/-- The keys that move are of the set. -/
theorem movedKeys_inert {s : State} {k : Commit} (inert : Inert k.set) (swapped : List Nat) : ∀ e ∈ movedKeys s k swapped, InertKey e.1 :=
  fun e moved => inert e (List.mem_of_mem_filter moved)

/-! ## The swap (R475, R478) -/

/-- A commit that has swapped the units that could. -/
def commitSwapped (s : State) (k : Commit) (bad reset : List Nat) : Commit :=
  { k with
    stage := 2
    swapped := k.units.filter fun u => missReason s bad reset u = 0
    reasons := (k.units.filter fun u => missReason s bad reset u ≠ 0).map fun u => (u, missReason s bad reset u)
    heldOut := [] }

theorem shadowSwap_inert {s : State} {k : Commit} (bad reset : List Nat) (commit : s.cfg.commit = some k) (stage : k.stage = 1)
    (due : k.t ≤ s.now) (inert : Inert k.set) : shadowSwapOp s bad reset = setCommit s (some (commitSwapped s k bad reset)) := by
  have why : (fun u => if unitClosed s u then 1 else if bad.contains u then 2 else if reset.contains u then 3 else 0) =
      missReason s bad reset := by
    funext u
    simp [missReason]
  simp only [shadowSwapOp, commit]
  rw [if_neg (by simp [stage, due])]
  simp only [congrFun why]
  rw [swapValues_inert s _ _ fun e he => ?_]
  · have noneHeld : ((movedKeys s k (k.units.filter fun u => missReason s bad reset u = 0)).filter fun e =>
        e.1 / 65536 = 0x1001 && e.2 = 1 && s.pool.held.contains (e.1 % 65536)) = [] := by
      rw [List.filter_eq_nil_iff]
      intro e moved
      have key := (movedKeys_inert inert _ e moved).1
      simp only [List.mem_cons, not_or] at key
      simp [key]
    rw [noneHeld]
    rfl
  · obtain ⟨m, moved, rfl⟩ := List.mem_map.mp he
    exact movedKeys_inert inert _ m moved

theorem shadowSwap_swaps (bad reset : List Nat) (k : Commit) (s : State) (commit : s.cfg.commit = some k) (stage : k.stage = 1)
    (due : k.t ≤ s.now) (inert : Inert k.set) :
    Does (.shadowSwap bad reset) s fun t => t.cfg = { s.cfg with commit := some { k with
        stage := 2
        swapped := k.units.filter fun u => missReason s bad reset u = 0
        reasons := (k.units.filter fun u => missReason s bad reset u ≠ 0).map fun u => (u, missReason s bad reset u)
        heldOut := [] } } ∧ SameExcept [.cfg] s t ∧
      (∀ u id inst v, u ∈ k.units → missReason s bad reset u = 0 → mapGet? k.set (pkey id inst) = some v → t.paramIn u id inst = v) ∧
      ∀ u id inst, missReason s bad reset u ≠ 0 → t.paramIn u id inst = s.param id inst := by
  refine ⟨_, congrArg Host.Outcome.next (shadowSwap_inert bad reset commit stage due inert), rfl, by simp [SameExcept, setCommit], ?_, ?_⟩
  · intro u id inst v concerned swaps value
    have swapped : ((commitSwapped s k bad reset).swapped.contains u) = true := by simp [commitSwapped, concerned, swaps]
    exact (if_pos swapped).trans (by rw [State.paramWith, mapGet, show mapGet? (commitSwapped s k bad reset).set _ = _ from value]; rfl)
  · intro u id inst misses
    have missed : ¬((commitSwapped s k bad reset).swapped.contains u) = true := by simp [commitSwapped, misses]
    exact if_neg missed

theorem shadowSwap_early (bad reset : List Nat) (k : Commit) (s : State) (commit : s.cfg.commit = some k) (_ : k.stage = 1)
    (early : s.now < k.t) : Idle (.shadowSwap bad reset) s := by
  have waits : shadowSwapOp s bad reset = s := by
    simp only [shadowSwapOp, commit]
    exact if_pos (by simp [early])
  exact congrArg Host.Outcome.next waits

/-! ## The outcome (R478, R480, R483) -/

/-- A list without its repetitions holds each element once, and those it began with. -/
theorem dedup_nodup (l acc : List Nat) (nodup : acc.Nodup) :
    (l.foldl (fun acc x => if acc.contains x then acc else acc ++ [x]) acc).Nodup ∧
    ∀ x ∈ acc, x ∈ l.foldl (fun acc x => if acc.contains x then acc else acc ++ [x]) acc := by
  induction l generalizing acc with
  | nil => exact ⟨nodup, fun _ h => h⟩
  | cons y l ih =>
    rw [List.foldl_cons]
    by_cases here : y ∈ acc
    · rw [if_pos (by simpa using here)]
      exact ih acc nodup
    · rw [if_neg (by simpa using here)]
      obtain ⟨once, kept⟩ := ih (acc ++ [y]) (by simpa using nodup.concat here)
      exact ⟨once, fun x hx => kept x (List.mem_append_left _ hx)⟩

theorem dedupNat_cons (x : Nat) (l : List Nat) : (dedupNat (x :: l)).Nodup ∧ x ∈ dedupNat (x :: l) := by
  obtain ⟨once, kept⟩ := dedup_nodup l [x] (List.nodup_singleton x)
  exact ⟨once, kept x (List.mem_singleton_self x)⟩

/-- Each key that is listed once is modified once. -/
theorem mapGet_foldl_mapMod (keys : List Nat) (m : SMap Nat) (f : Nat → Nat) (d k : Nat) (once : keys.Nodup) :
    mapGet (keys.foldl (fun m x => mapMod m x d f) m) k d = if k ∈ keys then f (mapGet m k d) else mapGet m k d := by
  induction keys generalizing m with
  | nil => rfl
  | cons x keys ih =>
    obtain ⟨fresh, once⟩ := List.nodup_cons.mp once
    rw [List.foldl_cons, ih _ once]
    by_cases same : k = x
    · subst same
      simp [fresh, mapMod]
    · simp [same, mapMod]

/-- The device generation is among those that an applied set raises, once (R483). -/
theorem applySet_deviceGen (s : State) (k : Commit) : (applySet s k).deviceGen = (s.deviceGen + 1) % 2 ^ 32 :=
  (mapGet_foldl_mapMod _ _ _ 0 0 (dedupNat_cons 0 _).1).trans (if_pos (dedupNat_cons 0 _).2)

/-- The set of one parameter, applied. -/
theorem applySet_param {s : State} {k : Commit} {e : Nat × Nat} (set : k.set = [e]) :
    (applySet s k).param (e.1 / 65536) (e.1 % 65536) = e.2 ∧ ∀ i j, pkey i j ≠ e.1 → (applySet s k).param i j = s.param i j := by
  have key : pkey (e.1 / 65536) (e.1 % 65536) = e.1 := by unfold pkey; omega
  have params : (applySet s k).cfg.params = mapPut s.cfg.params e.1 e.2 (paramDefault (e.1 / 65536) (e.1 % 65536)) := by
    simp only [applySet, set, List.foldl_cons, List.foldl_nil]
  constructor
  · rw [State.param, params, key, mapGet_mapPut_self]
  · intro i j other
    rw [State.param, params, mapGet_mapPut_ne _ _ _ _ other]
    rfl

theorem missedUnits_none {s : State} {k : Commit} (all : ∀ u ∈ k.units, u ∈ k.applied) : missedUnits s k = [] := by
  rw [missedUnits, List.map_eq_nil_iff, List.filter_eq_nil_iff]
  intro u concerned
  simp [all u concerned]

theorem commitOutcome_commits (k : Commit) (e : Nat × Nat) (s : State) (commit : s.cfg.commit = some k) (stage : k.stage = 2)
    (due : k.t + 491520 ≤ s.now) (unsafe_ : k.safe = false) (all : ∀ u ∈ k.units, u ∈ k.applied) (set : k.set = [e])
    (noCarrier : carrierOf (e.1 / 65536) (e.1 % 65536) = none) (room : Room 1 s) :
    ∃ t, exec .commitOutcome s = .next (replyOk t k.req (leBytes 4 ((s.deviceGen + 1) % 2 ^ 32) ++ leBytes 2 k.units.length ++
        leBytes 2 0)) ∧
      t.cfg.commit = none ∧ t.param (e.1 / 65536) (e.1 % 65536) = e.2 ∧ t.deviceGen = (s.deviceGen + 1) % 2 ^ 32 ∧
      (∀ i j, pkey i j ≠ e.1 → t.param i j = s.param i j) ∧ mapGet? t.cfg.staged k.req.port = none ∧ Queued t 0 0 0x1001 ∧
      Disarmed s t ∧ SameExcept [.cfg, .ev, .time] s t := by
  let u := applySet s.endCommit k
  obtain ⟨d, event⟩ : ∃ d, d = leBytes 1 k.req.port ++ [0] ++ leBytes 2 k.units.length ++ leBytes 4 u.deviceGen ++ leBytes 8 k.t := ⟨_, rfl⟩
  let t := raise u 0 0 0x1001 d
  have noMirror : (dedupNat (k.set.filterMap fun e => carrierOf (e.1 / 65536) (e.1 % 65536))).foldl mirrorSync u = u := by
    simp [set, noCarrier, dedupNat]
  have runs : commitOutcomeOp s = armReply t k 0 0 2 [] := by
    simp only [commitOutcomeOp, commit]
    rw [if_neg (by simp [stage, due]), missedUnits_none all]
    show armReply (raise (List.foldl mirrorSync u _) 0 0 0x1001 _) k 0 0 2 [] = _
    rw [noMirror, ← event]
  have cfg : t.cfg = u.cfg := raise_cfg ..
  have gen : t.deviceGen = (s.deviceGen + 1) % 2 ^ 32 := by
    rw [State.deviceGen, cfg]
    exact applySet_deviceGen s.endCommit k
  have param : ∀ i j, t.param i j = u.param i j := fun i j => by simp only [State.param, cfg]
  obtain ⟨value, others⟩ := applySet_param (s := s.endCommit) set
  refine ⟨t, (congrArg Host.Outcome.next runs).trans ?_, by rw [cfg]; rfl, (param _ _).trans value, gen,
    fun i j other => (param i j).trans (others i j other), ?_, raise_queued _ _ _ _ _ room, raise_time .., ?_⟩
  · rw [← gen, armReply, if_neg (by simp [unsafe_])]
    rfl
  · rw [cfg]
    exact mapGet?_mapDel_self _ _
  · simp [SameExcept, t, u, applySet, State.endCommit]

theorem commitOutcome_misses (k : Commit) (s : State) (commit : s.cfg.commit = some k) (stage : k.stage = 2)
    (due : k.t + 491520 ≤ s.now) (missed : ∃ u ∈ k.units, u ∉ k.applied) :
    Does .commitOutcome s fun t => (∃ m : SMap Nat, t.cfg = { s.cfg with commit := some { k with stage := 3, reasons := m } } ∧
        m.map (fun x => x.1) = k.units.filter (fun u => u ∉ k.applied) ∧
        ∀ u r, u ∉ k.applied → mapGet? k.reasons u = some r → ∀ x ∈ m, x.1 = u → x.2 = r) ∧
      SameExcept [.cfg, .free] s t := by
  have filters : (fun u => !k.applied.contains u) = fun u => decide (u ∉ k.applied) := by
    funext u
    simp
  have units : (missedUnits s k).map (fun x => x.1) = k.units.filter fun u => u ∉ k.applied := by
    rw [missedUnits, List.map_map, filters]
    exact List.map_id _
  have some_ : ¬(missedUnits s k).isEmpty = true := by
    obtain ⟨u, concerned, late⟩ := missed
    rw [missedUnits, List.isEmpty_iff, List.map_eq_nil_iff]
    exact List.ne_nil_of_mem (List.mem_filter.mpr ⟨concerned, by simpa using late⟩)
  have runs : commitOutcomeOp s =
      setCommit { s with freeCount := s.freeCount + 36864 } (some { k with stage := 3, reasons := missedUnits s k }) := by
    simp only [commitOutcomeOp, commit]
    rw [if_neg (by simp [stage, due]), if_neg some_]
  refine ⟨_, congrArg Host.Outcome.next runs, ⟨missedUnits s k, rfl, units, ?_⟩, by simp [SameExcept, setCommit]⟩
  rintro u r - reason x listed rfl
  obtain ⟨v, -, rfl⟩ := List.mem_map.mp listed
  show mapGet k.reasons v _ = r
  rw [mapGet, reason]
  rfl

/-! ## The rollback (R478, R480) -/

theorem commitRollback_restores (k : Commit) (s : State) (commit : s.cfg.commit = some k) (stage : k.stage = 3)
    (due : k.t + 1966080 ≤ s.now) (unsafe_ : k.safe = false) (inert : Inert k.set) (noneHeld : k.heldOut = [])
    (noHold : s.pool.held = []) (room : Room 1 s) :
    ∃ t, exec .commitRollback s = .next (reply t k.req 12 k.reasons.length (leBytes 4 s.deviceGen ++ leBytes 2 k.units.length ++
        leBytes 2 k.reasons.length ++ k.reasons.flatMap fun e => leBytes 2 e.1 ++ leBytes 1 e.2 ++ [0])) ∧
      t.cfg = { s.cfg with commit := none } ∧ (∀ u id inst, t.paramIn u id inst = s.param id inst) ∧ Queued t 0 0 0x1003 ∧
      Disarmed s t ∧ SameExcept [.cfg, .ev, .time] s t := by
  have pool : { s.endCommit with pool := { s.endCommit.pool with held := sortNat (s.endCommit.pool.held ++ k.heldOut) } } = s.endCommit := by
    have held : sortNat (s.endCommit.pool.held ++ k.heldOut) = s.endCommit.pool.held := by
      rw [noneHeld, show s.endCommit.pool.held = [] from noHold]
      rfl
    rw [held]
  obtain ⟨d, runs⟩ : ∃ d, commitRollbackOp s = armReply (raise s.endCommit 0 0 0x1003 d) k dzRolledBack k.reasons.length 3 k.reasons := by
    simp only [commitRollbackOp, commit]
    rw [if_neg (by simp [stage, due]), swapValues_inert s _ _ fun e he => ?_]
    · rw [pool, noneHeld, List.foldl_nil]
      exact ⟨_, rfl⟩
    · obtain ⟨m, moved, rfl⟩ := List.mem_map.mp he
      exact movedKeys_inert inert _ m moved
  let t := raise s.endCommit 0 0 0x1003 d
  have cfg : t.cfg = { s.cfg with commit := none } := raise_cfg ..
  have gen : t.deviceGen = s.deviceGen := by rw [State.deviceGen, cfg]; rfl
  refine ⟨t, (congrArg Host.Outcome.next runs).trans ?_, cfg, ?_, raise_queued _ _ _ _ _ room, raise_time .., ?_⟩
  · rw [← gen, armReply, if_neg (by simp [unsafe_])]
    rfl
  · intro u id inst
    rw [State.paramIn, cfg]
    simp only [State.param, cfg]
  · simp [SameExcept, t, State.endCommit]

/-- Settles O53, clause by clause: the steps of a commit in their order. -/
theorem commits : Obligations.Commits :=
  ⟨commit_none, unitReady_joins, unitReady_closed, readinessCheck_passes, readinessCheck_early, readinessCheck_cancels,
   shadowSwap_swaps, shadowSwap_early, unitApplied_joins, commitOutcome_commits, commitOutcome_misses, commitRollback_restores⟩

end Sys2Proof.Machine
end

section
namespace Sys2Proof.Machine

open Sys2Proof.Claims

/-! ## A received pool frame (R495) -/

/-- What the payload of an accepted frame does, by the frame's type. -/
def poolUse (s : State) (p ty src q : Nat) (plain : List Byte) (d : Decode) : State :=
  match ty with
  | 1 => heartbeatRecv s p src q plain
  | 2 => stateRecv s src plain
  | 3 => claimRecv s src plain
  | 4 => answerReady (mirrorRecv s plain d) (rd plain 0 2)
  | _ => migrateRecv s src plain

theorem poolFrame_arrives {s : State} {p ty src : Nat} {b : List Byte} (arrives : PoolArrives s p ty src b) (known : ty ≠ 0 ∧ ty ≤ 5)
    (d : Decode) :
    (¬Genuine s b → poolFrame s p b d = poolDrop s p src 2) ∧
    (Genuine s b → poolFrame s p b d = poolUse (withSeen s b) p ty src (rd (slice b 14 24) 8 8) (poolBody s b) d) := by
  obtain ⟨-, type, -, frames, id, size, version, source, foreign, here, keyed, long, short, fresh, recent⟩ := arrives
  obtain ⟨e, epoch⟩ := Option.isSome_iff_exists.mp keyed
  have body : poolBody s b = (Config.gcmSeal (poolKey s e) (slice (slice b 14 24) 4 12) (slice b 14 24)
      (slice b 38 (rd (slice b 14 24) 16 2))).1 := by
    simp only [poolBody, epoch, Option.getD_some]
  have tag : Genuine s b ↔ (Config.gcmSeal (poolKey s e) (slice (slice b 14 24) 4 12) (slice b 14 24) (poolBody s b)).2 =
      slice b (38 + rd (slice b 14 24) 16 2) 16 := by
    simp only [Genuine, epoch, Option.getD_some]
  have accepted : ¬(!s.pool.frames || decide (rd (slice b 14 24) 0 4 ≠ poolId s) || decide (poolSize s ≤ 1)) = true := by
    simp [frames, id, size]
  have typed : ¬(decide (rd (slice b 14 24) 4 1 / 16 ≠ 1) || decide (ty = 0) || decide (5 < ty) || decide (src = poolIndex s)) = true := by
    simp [version, known, foreign]
  unfold poolFrame
  simp only [type, source, here, epoch, ← body, if_neg accepted, if_neg typed]
  constructor
  · intro fake
    exact if_pos (by simp [mt tag.mpr fake])
  · intro genuine
    refine (if_neg (by simp [tag.mp genuine, long, short])).trans ((if_neg (by simp [fresh, recent])).trans
      ((if_neg (not_not_intro rfl)).trans ?_))
    subst source
    rfl

/-- Rows of received pool frames, by their type (R495). -/
theorem poolRow_arrives {s : State} {p ty src : Nat} {b : List Byte} (arrives : PoolArrives s p ty src b) (known : ty ≠ 0 ∧ ty ≤ 5)
    (d : Decode) :
    (¬Genuine s b → poolRow s p ty b d = poolDrop s p src 2) ∧
    (Genuine s b → poolRow s p ty b d = poolUse (withSeen s b) p ty src (rd (slice b 14 24) 8 8) (poolBody s b) d) := by
  have row : poolRow s p ty b d = poolFrame s p b d := if_pos (by simp [arrives.1, arrives.2.2.1])
  rw [row]
  exact poolFrame_arrives arrives known d

theorem poolRow_idle {s : State} {p ty : Nat} {b : List Byte} (other : rd b 19 1 ≠ ty) (d : Decode) : poolRow s p ty b d = s :=
  if_neg (by simp [other])

theorem poolDrop_dropped (s : State) (p src : Nat) : Dropped s (poolDrop s p src 2) p := by
  unfold poolDrop
  extract_lets k n _ s1
  obtain ⟨ev, limited⟩ := raiseLimited_eq s1 11 0 0x1105 p 19661 1 fun _ =>
    leBytes 1 p ++ leBytes 1 src ++ leBytes 1 2 ++ [0] ++ leBytes 4 n
  rw [limited]
  exact ⟨mapGet_mapSet_self _ _ _ _, rfl, by simp [SameExcept, s1]⟩

/-! ## What the pool agent's sending may change (R491, R493, R502, R505) -/

/-- Of the device only the counts of the key slots, the mirrors, the ports and the arbiter have changed, and no event has left the
arbiter's queue. -/
structure AgentOnly (s t : State) : Prop where
  parts : ∃ slot0 slot1 mirrors ports ev,
    t = { s with pool := { s.pool with slot0 := slot0, slot1 := slot1, mirrors := mirrors }, ports := ports, ev := ev }
  queue : ∀ e ∈ s.ev.queue, e ∈ t.ev.queue

theorem AgentOnly.refl (s : State) : AgentOnly s s := ⟨⟨_, _, _, _, _, rfl⟩, fun _ h => h⟩

theorem AgentOnly.trans {s t u : State} (h : AgentOnly s t) (k : AgentOnly t u) : AgentOnly s u := by
  obtain ⟨⟨_, _, _, _, _, rfl⟩, queue⟩ := h
  obtain ⟨⟨_, _, _, _, _, rfl⟩, queue'⟩ := k
  exact ⟨⟨_, _, _, _, _, rfl⟩, fun e he => queue' e (queue e he)⟩

theorem agentOnly_foldl {α : Type} (f : State → α → State) (only : ∀ s x, AgentOnly s (f s x)) (l : List α) (s : State) :
    AgentOnly s (l.foldl f s) := by
  induction l generalizing s with
  | nil => exact .refl s
  | cons x l ih => exact (only s x).trans (ih (f s x))

/-- Only the ports have changed. -/
def PortsOnly (s t : State) : Prop := ∃ ports, t = { s with ports := ports }

theorem PortsOnly.trans {s t u : State} : PortsOnly s t → PortsOnly t u → PortsOnly s u := by
  rintro ⟨_, rfl⟩ ⟨ports, rfl⟩
  exact ⟨ports, rfl⟩

theorem PortsOnly.agentOnly {s t : State} (h : PortsOnly s t) : AgentOnly s t := by
  obtain ⟨ports, rfl⟩ := h
  exact ⟨⟨_, _, _, _, _, rfl⟩, fun _ h => h⟩

theorem portsOnly_frameDone (s : State) (f : TxFrame) : PortsOnly s (frameDone s f) := by
  unfold frameDone
  split
  · exact ⟨_, rfl⟩
  · split
    · dsimp only
      unfold dlFree
      dsimp only
      split <;> exact ⟨_, rfl⟩
    · split <;> exact ⟨_, rfl⟩

theorem portsOnly_foldl_frameDone (l : List TxFrame) (s : State) : PortsOnly s (l.foldl frameDone s) := by
  induction l generalizing s with
  | nil => exact ⟨_, rfl⟩
  | cons f l ih => exact (portsOnly_frameDone s f).trans (ih _)

theorem portsOnly_cpPurge (s : State) (p k : Nat) : PortsOnly s (cpPurge s p k) :=
  PortsOnly.trans ⟨_, rfl⟩ (portsOnly_foldl_frameDone _ _)

theorem portsOnly_txKick (s : State) (p k : Nat) : PortsOnly s (txKick s p k) := by
  have purge := portsOnly_cpPurge s p k
  unfold txKick
  dsimp only
  split
  · exact purge
  · split
    · exact purge.trans ⟨_, rfl⟩
    · exact purge

theorem portsOnly_txQueue (s : State) (p k : Nat) (f : TxFrame) : PortsOnly s (txQueue s p k f) :=
  PortsOnly.trans ⟨_, rfl⟩ (portsOnly_txKick _ p k)

theorem agentOnly_raise (s : State) (c i n : Nat) (b : List Byte) : AgentOnly s (raise s c i n b) := by
  refine ⟨?_, (queueGrows_raise s c i n b).1⟩
  obtain ⟨power, ev, same⟩ := powerOnly_raise s c i n b
  exact ⟨s.pool.slot0, s.pool.slot1, s.pool.mirrors, s.ports, ev, by rw [same, show power = s.power by rw [← raise_power s c i n b, same]]⟩

theorem agentOnly_setKeySlot (s : State) (k : Nat) (x : PoolKey) : AgentOnly s (s.setKeySlot k x) := by
  unfold State.setKeySlot
  split <;> exact ⟨⟨_, _, _, _, _, rfl⟩, fun _ h => h⟩

theorem agentOnly_poolSendOn (s : State) (p i ty : Nat) (payload : List Byte) : AgentOnly s (poolSendOn s p i ty payload) := by
  unfold poolSendOn
  dsimp only
  split
  · exact .refl s
  · refine AgentOnly.trans ?_ (portsOnly_txQueue _ p 0 _).agentOnly
    split
    · exact (agentOnly_setKeySlot s _ _).trans (agentOnly_raise _ _ _ _ _)
    · exact agentOnly_setKeySlot s _ _

theorem agentOnly_poolSend (s : State) (i ty : Nat) (payload : List Byte) : AgentOnly s (poolSend s i ty payload) := by
  unfold poolSend
  split
  · exact agentOnly_poolSendOn s _ i ty payload
  · exact .refl s

theorem agentOnly_sendFull (s : State) (i : Nat) : AgentOnly s (sendFull s i) := by
  unfold sendFull
  dsimp only
  split
  · exact agentOnly_poolSend s i 3 _
  · exact (agentOnly_poolSend s i 3 _).trans (agentOnly_poolSend _ i 3 _)

theorem agentOnly_mirrors (s : State) (m : SMap Mirror) : AgentOnly s { s with pool := { s.pool with mirrors := m } } :=
  ⟨⟨_, _, _, _, _, rfl⟩, fun _ h => h⟩

theorem agentOnly_resyncStart (s : State) (c i : Nat) : AgentOnly s (resyncStart s c i) :=
  (agentOnly_mirrors s _).trans (agentOnly_raise _ 11 0 0x1108 _)

theorem AgentOnly.peer {s t : State} (h : AgentOnly s t) (i : Nat) : t.peer i = s.peer i := by
  obtain ⟨⟨_, _, _, _, _, rfl⟩, -⟩ := h
  rfl

theorem AgentOnly.poolLink {s t : State} (h : AgentOnly s t) (p : Nat) : t.poolLink p = s.poolLink p := by
  obtain ⟨⟨_, _, _, _, _, rfl⟩, -⟩ := h
  rfl

theorem AgentOnly.rest {s t : State} (h : AgentOnly s t) : t.mem = s.mem ∧ t.cfg = s.cfg ∧ t.facet = s.facet := by
  obtain ⟨⟨_, _, _, _, _, rfl⟩, -⟩ := h
  exact ⟨rfl, rfl, rfl⟩

/-! ## Heartbeats (R496 to R498) -/

/-- What a heartbeat from member `i` on port `p` leaves of the state `s`, its answers aside: the member's offsets may have changed. -/
structure Measured (s t : State) (p i : Nat) : Prop where
  parts : ∃ pool, t = { s with pool := pool }
  others : ∀ j, j ≠ i → t.peer j = s.peer j
  sender : ∃ offsets delay, t.peer i = { s.peer i with offsets := offsets, delay2 := delay }
  link : (t.poolLink p).peer = (s.poolLink p).peer

theorem offsetMeasure_measured (s : State) (p i : Nat) (b : List Byte) (x : Nat × Nat) : Measured s (offsetMeasure s p i b x) p i := by
  unfold offsetMeasure
  extract_lets l st find s1
  have link : (s1.poolLink p).peer = (s.poolLink p).peer := by simp [s1, l]
  split
  · dsimp only
    split
    · exact ⟨⟨_, rfl⟩, fun j other => State.peer_setPeer_ne s1 i _ other, ⟨_, _, State.peer_setPeer_self s1 i _⟩, link⟩
    · exact ⟨⟨_, rfl⟩, fun _ _ => rfl, ⟨_, _, rfl⟩, link⟩
  · exact ⟨⟨_, rfl⟩, fun _ _ => rfl, ⟨_, _, rfl⟩, link⟩

/-- A heartbeat heard: its sender's state and, of a direct link, its partner and an offset. -/
def heartbeatHeard (s : State) (p i sq : Nat) (b : List Byte) : State :=
  let links := rd b 38 1 % 16
  let s1 := s.setPeer i { s.peer i with lastHb := s.now, safe := bit (rd b 39 1) 0, links := links }
  if bit links (poolIndex s) || (s.poolLink p).peer.isNone then
    offsetMeasure (s1.setPoolLink p { s1.poolLink p with peer := some i }) p i b (sq, poolStamp s)
  else s1

theorem heartbeatRecv_hears (s : State) (p i sq : Nat) (b : List Byte) :
    heartbeatRecv s p i sq b = if (s.peer i).reachable then heartbeatHeard s p i sq b else peerUp (heartbeatHeard s p i sq b) i := rfl

/-- The record of a member that was heard. -/
structure Heard (s t : State) (p i : Nat) (b : List Byte) : Prop where
  parts : ∃ pool, t = { s with pool := pool }
  others : ∀ j, j ≠ i → t.peer j = s.peer j
  time : (t.peer i).lastHb = s.now
  safe : (t.peer i).safe = bit (rd b 39 1) 0
  links : (t.peer i).links = rd b 38 1 % 16
  reachable : (t.peer i).reachable = (s.peer i).reachable
  partner : bit (rd b 38 1 % 16) (poolIndex s) = true → (t.poolLink p).peer = some i

theorem heartbeatHeard_heard (s : State) (p i sq : Nat) (b : List Byte) : Heard s (heartbeatHeard s p i sq b) p i b := by
  unfold heartbeatHeard
  extract_lets links _ s1
  have here : s1.peer i = { s.peer i with lastHb := s.now, safe := bit (rd b 39 1) 0, links := links } := State.peer_setPeer_self s i _
  have others : ∀ j, j ≠ i → s1.peer j = s.peer j := fun j other => State.peer_setPeer_ne s i _ other
  split
  · obtain ⟨⟨pool, parts⟩, rest, ⟨offsets, delay, sender⟩, link⟩ :=
      offsetMeasure_measured (s1.setPoolLink p { s1.poolLink p with peer := some i }) p i b (sq, poolStamp s)
    replace sender : _ = { s1.peer i with offsets := offsets, delay2 := delay } := sender
    rw [here] at sender
    exact ⟨⟨pool, parts⟩, fun j other => (rest j other).trans (others j other), by rw [sender], by rw [sender], by rw [sender],
      by rw [sender], fun _ => link.trans (by simp)⟩
  · next indirect => exact ⟨⟨_, rfl⟩, others, by rw [here], by rw [here], by rw [here], by rw [here],
      fun direct => absurd (by simp [links, direct]) indirect⟩

/-- A member that becomes reachable is reported, and is sent what this device owns (R497, R502, R505). -/
theorem peerUp_reports (s : State) (i : Nat) (room : Room 1 s) :
    AgentOnly (s.setPeer i { s.peer i with reachable := true }) (peerUp s i) ∧ Queued (peerUp s i) 11 0 0x1101 := by
  unfold peerUp
  extract_lets _ s1 s2
  have sent : AgentOnly s1 s2 := agentOnly_sendFull s1 i
  have synced := agentOnly_foldl (fun t (e : Nat × Nat × Nat) => resyncStart t e.1 i) (fun t e => agentOnly_resyncStart t e.1 i)
    (s2.pool.owners.filter fun e => e.2.1 = poolIndex s && mirrorTarget s2 e.1 = some i) s2
  refine ⟨((agentOnly_raise _ _ _ _ _).trans sent).trans synced, ?_⟩
  obtain ⟨e, queued, same⟩ : Queued s1 11 0 0x1101 := raise_queued _ _ _ _ _ room
  exact ⟨e, synced.queue e (sent.queue e queued), same⟩

theorem heartbeat_renews (p : PortId) (src : Nat) (b : List Byte) (s : State) (arrives : PoolArrives s p 1 src b) (room : Room 1 s) :
    Does (.heartbeat p b) s fun t => (¬Genuine s b → Dropped s t p) ∧ (Genuine s b →
      (t.peer src).lastHb = s.now ∧ (t.peer src).safe = bit (rd (poolBody s b) 39 1) 0 ∧
      (t.peer src).links = rd (poolBody s b) 38 1 % 16 ∧ (t.peer src).reachable = true ∧ (∀ j, j ≠ src → t.peer j = s.peer j) ∧
      (bit (rd (poolBody s b) 38 1 % 16) (poolIndex s) = true → (t.poolLink p).peer = some src) ∧
      ((s.peer src).reachable = false → Queued t 11 0 0x1101) ∧ t.mem = s.mem ∧ t.cfg = s.cfg ∧ t.facet = s.facet) := by
  obtain ⟨drops, uses⟩ := poolRow_arrives arrives (by decide) .clean
  refine ⟨_, rfl, fun fake => drops fake ▸ poolDrop_dropped s p src, fun genuine => ?_⟩
  have hears : poolRow s p 1 b .clean = _ := (uses genuine).trans (heartbeatRecv_hears (withSeen s b) p src _ (poolBody s b))
  rw [hears]
  obtain ⟨⟨pool, parts⟩, others, time, safe, links, reachable, partner⟩ :=
    heartbeatHeard_heard (withSeen s b) p src (rd (slice b 14 24) 8 8) (poolBody s b)
  generalize heartbeatHeard (withSeen s b) p src (rd (slice b 14 24) 8 8) (poolBody s b) = u at parts others time safe links reachable partner ⊢
  split
  · next known => exact ⟨time, safe, links, reachable.trans known, others, partner, fun unknown => absurd known (by simp [show
      ((withSeen s b).peer src).reachable = false from unknown]), by rw [parts]; rfl, by rw [parts]; rfl, by rw [parts]; rfl⟩
  · have room' : Room 1 u := by rw [parts]; exact room
    obtain ⟨only, queued⟩ := peerUp_reports u src room'
    obtain ⟨mem, cfg, facet⟩ := only.rest
    have sender : (peerUp u src).peer src = { u.peer src with reachable := true } := (only.peer src).trans (State.peer_setPeer_self u src _)
    refine ⟨by rw [sender, time]; rfl, by rw [sender, safe], by rw [sender, links], by rw [sender], fun j other => ?_, fun direct => ?_,
      fun _ => queued, by rw [mem, State.setPeer_mem, parts]; rfl, by rw [cfg, State.setPeer_cfg, parts]; rfl,
      by rw [facet, State.setPeer_facet, parts]; rfl⟩
    · exact (only.peer j).trans ((State.peer_setPeer_ne u src _ other).trans (others j other))
    · rw [only.poolLink p]
      exact partner direct

/-! ## STATE frames (R499) -/

/-- A member's record after its STATE frame, while no key slot waits to be retired. -/
def peerStated (s : State) (x : Peer) (b : List Byte) : Peer :=
  { x with
    keyEpoch := some (rd b 4 4)
    owned := ((List.range 1024).filter fun c => bit (rd b 24 128) c).length
    mismatch := if bit (rd b 16 1) 0 || commitOpen s then x.mismatch else decide (rd b 8 8 ≠ fingerprint s .pool) }

theorem stateRecv_records (s : State) (i : Nat) (b : List Byte) (noRetire : s.pool.retireAt = none) : ∃ d, stateRecv s i b =
    if (bit (rd b 16 1) 0 || commitOpen s) = true ∨ decide (rd b 8 8 ≠ fingerprint s .pool) = (s.peer i).mismatch then
      s.setPeer i (peerStated s (s.peer i) b)
    else raise (s.setPeer i (peerStated s (s.peer i) b)) 11 0 0x1102 d := by
  unfold stateRecv
  extract_lets x ep n busy differs sw y s1
  have noSwitch : sw = false := by simp [sw, noRetire]
  have records : s1 = s.setPeer i (peerStated s (s.peer i) b) := by
    simp only [s1, y, noSwitch, Bool.false_eq_true, if_false, Bool.or_false]
    rfl
  have same : differs = (x.mismatch = true) ↔ decide differs = (s.peer i).mismatch := by
    rw [eq_iff_iff, Bool.eq_iff_iff (a := decide differs), decide_eq_true_iff]
  have agrees : (busy || decide (differs = (x.mismatch = true))) = true ↔
      (bit (rd b 16 1) 0 || commitOpen s) = true ∨ decide differs = (s.peer i).mismatch := by
    rw [Bool.or_eq_true, decide_eq_true_iff, same]
  rw [records]
  by_cases settled : (bit (rd b 16 1) 0 || commitOpen s) = true ∨ decide differs = (s.peer i).mismatch
  · exact ⟨[], (if_pos (agrees.mpr settled)).trans (if_pos settled).symm⟩
  · exact ⟨_, (if_neg (mt agrees.mp settled)).trans (if_neg settled).symm⟩

theorem state_records (p : PortId) (src : Nat) (b : List Byte) (s : State) (arrives : PoolArrives s p 2 src b)
    (noRetire : s.pool.retireAt = none) (room : Room 1 s) :
    Does (.state p b) s fun t => (¬Genuine s b → Dropped s t p) ∧ (Genuine s b →
      let open_ := bit (rd (poolBody s b) 16 1) 0 || commitOpen s
      let differs := decide (rd (poolBody s b) 8 8 ≠ fingerprint s .pool)
      t.peer src = { s.peer src with
        keyEpoch := some (rd (poolBody s b) 4 4)
        owned := ((List.range 1024).filter fun c => bit (rd (poolBody s b) 24 128) c).length
        mismatch := if open_ then (s.peer src).mismatch else differs } ∧
      (∀ j, j ≠ src → t.peer j = s.peer j) ∧ (open_ = false → differs ≠ (s.peer src).mismatch → Queued t 11 0 0x1102) ∧
      SameExcept [.pool, .ev] s t) := by
  obtain ⟨drops, uses⟩ := poolRow_arrives arrives (by decide) .clean
  refine ⟨_, rfl, fun fake => drops fake ▸ poolDrop_dropped s p src, fun genuine => ?_⟩
  intro open_ differs
  let x := peerStated s (s.peer src) (poolBody s b)
  have here : ((withSeen s b).setPeer src x).peer src = x := State.peer_setPeer_self _ src x
  have others : ∀ j, j ≠ src → ((withSeen s b).setPeer src x).peer j = s.peer j := fun j other => State.peer_setPeer_ne _ src x other
  obtain ⟨d, records⟩ := stateRecv_records (withSeen s b) src (poolBody s b) noRetire
  have runs : poolRow s p 2 b .clean = if open_ = true ∨ differs = (s.peer src).mismatch then (withSeen s b).setPeer src x
      else raise ((withSeen s b).setPeer src x) 11 0 0x1102 d := (uses genuine).trans records
  rw [runs]
  split
  · next same =>
    refine ⟨here, others, fun closed differ => absurd same (by simp [closed, differ]), by simp [SameExcept, withSeen]⟩
  · exact ⟨(raise_peer ..).trans here, fun j other => (raise_peer ..).trans (others j other),
      fun _ _ => raise_queued _ _ _ _ _ room, by simp [SameExcept, withSeen]⟩

/-! ## Claims (R502) -/

/-- Only the pool and the arbiter have changed, and of the owners carrier `c`'s alone. -/
def ClaimOnly (s t : State) (c : Nat) : Prop := (∃ pool ev, t = { s with pool := pool, ev := ev }) ∧ ∀ j, j ≠ c → ownerOf t j = ownerOf s j

theorem claimOnly_refl (s : State) (c : Nat) : ClaimOnly s s c := ⟨⟨_, _, rfl⟩, fun _ _ => rfl⟩

theorem claimOnly_lost (s : State) (c : Nat) (l : SMap (Nat × Nat)) : ClaimOnly s { s with pool := { s.pool with lost := l } } c :=
  ⟨⟨_, s.ev, rfl⟩, fun _ _ => rfl⟩

theorem ownerOf_setOwner_self (s : State) (c o e : Nat) : ownerOf (setOwner s c o e) c = (o, e) := mapGet_mapSet_self _ _ _ _

theorem ownerOf_setOwner_ne (s : State) {c j : Nat} (o e : Nat) (other : j ≠ c) : ownerOf (setOwner s c o e) j = ownerOf s j :=
  mapGet_mapSet_ne _ _ _ other

theorem claimOnly_setOwner (s : State) (c o e : Nat) : ClaimOnly s (setOwner s c o e) c :=
  ⟨⟨_, s.ev, rfl⟩, fun _ other => ownerOf_setOwner_ne s o e other⟩

theorem ownerOf_raise (s : State) (cl i n : Nat) (b : List Byte) (c : Nat) : ownerOf (raise s cl i n b) c = ownerOf s c := by
  rw [ownerOf, raise_pool, ownerOf]

theorem claimOnly_raise (s : State) (c n : Nat) (b : List Byte) : ClaimOnly s (raise s 11 0 n b) c := by
  refine ⟨?_, fun j _ => ownerOf_raise s 11 0 n b j⟩
  obtain ⟨_, _, _, _, ev, same⟩ := (agentOnly_raise s 11 0 n b).parts
  have pool : (raise s 11 0 n b).pool = s.pool := raise_pool ..
  have ports : (raise s 11 0 n b).ports = s.ports := raise_ports ..
  exact ⟨s.pool, ev, by rw [same] at pool ports ⊢; simp only at pool ports; rw [pool, ports]⟩

theorem claimEntry_only (s : State) (i c : Nat) (owned : Bool) (e : Nat) : ClaimOnly s (claimEntry s i c owned e) c := by
  unfold claimEntry
  dsimp only
  split
  · split
    · exact claimOnly_setOwner s c 255 e
    · exact claimOnly_refl s c
  · split
    · exact iteInduction (motive := (ClaimOnly s · c))
        (fun _ => iteInduction (motive := (ClaimOnly s · c)) (fun _ => claimOnly_lost s c _) fun _ => claimOnly_refl s c)
        fun _ => claimOnly_raise s c _ _
    · split
      · exact claimOnly_setOwner s c i _
      · exact claimOnly_refl s c

/-- A later claim of another member's carrier is believed. -/
theorem claimEntry_moves {s : State} {i c e : Nat} (foreign : (ownerOf s c).1 ≠ poolIndex s) (later : (ownerOf s c).2 < e) :
    claimEntry s i c true e = setOwner s c i e := by
  simp [claimEntry, foreign, later, Nat.max_eq_left (Nat.le_of_lt later)]

/-- A later claim of a carrier that this device owns is noted as lost. -/
theorem claimEntry_loses {s : State} {i c e : Nat} (own : (ownerOf s c).1 = poolIndex s) (later : (ownerOf s c).2 < e)
    (best : ∀ o x, mapGet? s.pool.lost c = some (o, x) → x < e) :
    claimEntry s i c true e = { s with pool := { s.pool with lost := mapSet s.pool.lost c (i, e) } } := by
  have better : (match mapGet? s.pool.lost c with
      | some (j, x) => decide (x < e) || (decide (x = e) && decide (i < j))
      | none => true) = true := by
    split
    · next o x lost => simp [best o x lost]
    · rfl
  simp only [claimEntry, own, later, decide_true, Bool.true_or, Bool.not_true, Bool.false_eq_true, if_false, if_true]
  exact if_pos better

/-- An earlier claim of a carrier that this device owns is reported, and settles nothing. -/
theorem claimEntry_keeps {s : State} {i c e : Nat} (own : (ownerOf s c).1 = poolIndex s) (earlier : e < (ownerOf s c).2) :
    claimEntry s i c true e = ownerEvt s c i (poolIndex s) (ownerOf s c).2 5 := by
  have loses : ¬(ownerOf s c).2 < e := by omega
  have differs : ¬(ownerOf s c).2 = e := by omega
  simp [claimEntry, own, loses, differs]

theorem claimEntry_released {s : State} {i c e : Nat} (owner : (ownerOf s c).1 = i) (later : (ownerOf s c).2 ≤ e) :
    claimEntry s i c false e = setOwner s c 255 e := by
  simp [claimEntry, owner, later]

/-- A frame of one entry. -/
theorem claimRecv_one {s : State} {i : Nat} {b : List Byte} (count : rd b 0 2 = 1) (long : 16 ≤ b.length) (carrier : rd b 8 2 < 1024) :
    claimRecv s i b = claimEntry s i (rd b 8 2) (bit (rd b 10 1) 0) (rd b 12 4) := by
  rw [claimRecv, count]
  exact if_neg (by simp [carrier, long])

theorem claim_settles (p : PortId) (src : Nat) (b : List Byte) (s : State) (arrives : PoolArrives s p 3 src b) (room : Room 1 s) :
    Does (.claim p b) s fun t => (¬Genuine s b → Dropped s t p) ∧
      (∀ c e : Nat, Genuine s b → rd (poolBody s b) 0 2 = 1 → 16 ≤ (poolBody s b).length → rd (poolBody s b) 8 2 = c → c < 1024 →
        rd (poolBody s b) 12 4 = e →
        SameExcept [.pool, .ev] s t ∧ (∀ j, j ≠ c → ownerOf t j = ownerOf s j) ∧
        (bit (rd (poolBody s b) 10 1) 0 = true → (ownerOf s c).1 ≠ poolIndex s → (ownerOf s c).2 < e → ownerOf t c = (src, e)) ∧
        (bit (rd (poolBody s b) 10 1) 0 = true → (ownerOf s c).1 = poolIndex s → (ownerOf s c).2 < e →
          (∀ o x, mapGet? s.pool.lost c = some (o, x) → x < e) →
          ownerOf t c = ownerOf s c ∧ mapGet? t.pool.lost c = some (src, e)) ∧
        (bit (rd (poolBody s b) 10 1) 0 = true → (ownerOf s c).1 = poolIndex s → e < (ownerOf s c).2 →
          ownerOf t c = ownerOf s c ∧ t.pool.lost = s.pool.lost ∧ Queued t 11 0 0x1104) ∧
        (bit (rd (poolBody s b) 10 1) 0 = false → (ownerOf s c).1 = src → (ownerOf s c).2 ≤ e → ownerOf t c = (255, e))) := by
  obtain ⟨drops, uses⟩ := poolRow_arrives arrives (by decide) .clean
  refine ⟨_, rfl, fun fake => drops fake ▸ poolDrop_dropped s p src, ?_⟩
  rintro c e genuine count long rfl carrier rfl
  have runs : poolRow s p 3 b .clean = _ := (uses genuine).trans (claimRecv_one count long carrier)
  rw [runs]
  generalize rd (poolBody s b) 8 2 = c at carrier ⊢
  generalize rd (poolBody s b) 12 4 = e
  generalize bit (rd (poolBody s b) 10 1) 0 = owned
  obtain ⟨⟨pool, ev, parts⟩, others⟩ := claimEntry_only (withSeen s b) src c owned e
  refine ⟨by rw [parts]; simp [SameExcept, withSeen], others, ?_, ?_, ?_, ?_⟩
  · rintro rfl foreign later
    rw [claimEntry_moves (s := withSeen s b) foreign later, ownerOf_setOwner_self]
  · rintro rfl own later best
    rw [claimEntry_loses (s := withSeen s b) own later best]
    exact ⟨rfl, mapGet?_mapSet_self _ _ _⟩
  · rintro rfl own earlier
    rw [claimEntry_keeps (s := withSeen s b) own earlier]
    exact ⟨ownerOf_raise .., (congrArg PoolSt.lost (raise_pool ..)).trans rfl, raise_queued _ _ _ _ _ room⟩
  · rintro rfl owner later
    rw [claimEntry_released (s := withSeen s b) owner later, ownerOf_setOwner_self]

end Sys2Proof.Machine
end

section
namespace Sys2Proof.Machine

open Sys2Proof.Claims

/-! ## What external memory leaves of the migrations toward this device (R392, R401, R504, R532)

A write of external memory may evict a page, whose check may fail and take the device to SAFE state, which ends the migrations away
from it. The lemmas below follow the definitions in their order. -/

@[simp] theorem State.pool_ite (c : Prop) [Decidable c] (s t : State) : (if c then s else t).pool = if c then s.pool else t.pool :=
  apply_ite _ _ _ _

@[simp] theorem PoolSt.incoming_ite (c : Prop) [Decidable c] (s t : PoolSt) :
    (if c then s else t).incoming = if c then s.incoming else t.incoming :=
  apply_ite _ _ _ _

theorem pool_foldl {α : Type} (f : State → α → State) (h : ∀ t a, (f t a).pool = t.pool) (l : List α) (s : State) :
    (l.foldl f s).pool = s.pool :=
  List.foldlRecOn (motive := fun t => t.pool = s.pool) l f rfl fun t e a _ => (h t a).trans e

theorem incoming_foldl {α : Type} (f : State → α → State) (h : ∀ t a, (f t a).pool.incoming = t.pool.incoming) (l : List α) (s : State) :
    (l.foldl f s).pool.incoming = s.pool.incoming :=
  List.foldlRecOn (motive := fun t => t.pool.incoming = s.pool.incoming) l f rfl fun t e a _ => (h t a).trans e

theorem HostOnly.pool {s t : State} (h : HostOnly s t) : t.pool = s.pool := by
  obtain ⟨host, ev, rfl⟩ := h
  rfl

@[simp] theorem raiseLimited_pool (s : State) (c i n key period cnt : Nat) (b : Nat → List Byte) :
    (raiseLimited s c i n key period cnt b).pool = s.pool :=
  (hostOnly_raiseLimited s c i n key period cnt b).pool

@[simp] theorem reply_pool (s : State) (rq : Req) (st det : Nat) (pl : List Byte) : (reply s rq st det pl).pool = s.pool :=
  (hostOnly_reply s rq st det pl).pool

@[simp] theorem setDevState_pool (s : State) (v : Nat) : (setDevState s v).pool = s.pool := by
  unfold setDevState
  split
  · rfl
  · exact pool_foldl _ (fun t h => (hostOnly_msixSend t h _).pool) _ _

@[simp] theorem safeTests_pool (s : State) : (safeTests s).pool = s.pool := rfl

@[simp] theorem safeCommit_pool (s : State) : (safeCommit s).pool = s.pool := by
  unfold safeCommit cancelledEvt
  split
  · rfl
  · split
    · simp [State.endCommit]
    · rfl

@[simp] theorem safeSwitch_pool (s : State) : (safeSwitch s).pool = s.pool := by
  unfold safeSwitch
  split <;> simp

@[simp] theorem safePlace_pool (s : State) : (safePlace s).pool = s.pool := by
  unfold safePlace
  split <;> simp

@[simp] theorem safePower_pool (s : State) : (safePower s).pool = s.pool := by
  unfold safePower
  split <;> simp

@[simp] theorem safePool_incoming (s : State) : (safePool s).pool.incoming = s.pool.incoming := by
  unfold safePool
  rw [pool_foldl _ fun t e => reply_pool t _ _ _ _, pool_foldl _ fun t e => reply_pool t _ _ _ _]

@[simp] theorem enterSafe_incoming (s : State) (cause slc : Nat) : (enterSafe s cause slc).pool.incoming = s.pool.incoming := by
  simp [enterSafe]

@[simp] theorem tamper_incoming (s : State) (g tile cause level off : Nat) :
    (tamper s g tile cause level off).pool.incoming = s.pool.incoming := by
  simp [tamper]

@[simp] theorem memCorrected_pool (s : State) (p bits kind : Nat) : (memCorrected s p bits kind).pool = s.pool := by
  simp [memCorrected, modChan]

@[simp] theorem memUncorrectable_pool (s : State) (p src mask : Nat) : (memUncorrectable s p src mask).pool = s.pool := by
  simp [memUncorrectable, modChan]

@[simp] theorem decodeReport_pool (s : State) (p : Nat) (d : Decode) (src mask : Nat) : (decodeReport s p d src mask).pool = s.pool := by
  unfold decodeReport
  split
  · rfl
  · split
    · simp [arenaCorrected, metadataCorrected, State.fresh]
    · simp
  · simp

@[simp] theorem setCtrCache_pool (s : State) (tile : Nat) (c : List CacheBlock) : (setCtrCache s tile c).pool = s.pool := by
  unfold setCtrCache
  split <;> rfl

@[simp] theorem bumpParent_pool (s : State) (key : Nat) : (bumpParent s key).1.pool = s.pool := rfl

@[simp] theorem ctrTouch_pool (fuel : Nat) (s : State) (tile key : Nat) (dirty : Bool) : (ctrTouch fuel s tile key dirty).pool = s.pool := by
  induction fuel generalizing s key dirty with
  | zero => rfl
  | succ n ih =>
    unfold ctrTouch
    dsimp only
    split
    · simp
    · split
      · split
        · split <;> simp [ih]
        · simp
      · simp

@[simp] theorem ctrUse_pool (s : State) (g p : Nat) (mask : BitVec 32) (dirty : Bool) : (ctrUse s g p mask dirty).pool = s.pool := by
  unfold ctrUse
  rw [pool_foldl _ fun t q => ctrTouch_pool 8 t _ _ _, ctrTouch_pool, pool_foldl _ fun t q => ctrTouch_pool 8 t _ _ _]

@[simp] theorem writeWholePage_pool (s : State) (g p : Nat) (bad : List Nat) : (writeWholePage s g p bad).pool = s.pool := by
  simp [writeWholePage, clearFailed, unpoisonLines, poisonLines]

@[simp] theorem protWriteBack_incoming (s : State) (g : Nat) (c : CachePage) (d : Decode) :
    (protWriteBack s g c d).pool.incoming = s.pool.incoming := by
  simp [protWriteBack, clearFailed, unpoisonLines, poisonLines]

@[simp] theorem writeBack_incoming (s : State) (c : CachePage) (d : Decode) : (writeBack s c d).pool.incoming = s.pool.incoming := by
  unfold writeBack
  split
  · rfl
  · split
    · simp
    · dsimp only
      split
      · rfl
      · split <;> simp [unpoisonLines, poisonLines]

@[simp] theorem setCache_pool (s : State) (tile : Nat) (c : List CachePage) : (setCache s tile c).pool = s.pool := by
  unfold setCache
  split <;> rfl

@[simp] theorem cachePut_incoming (s : State) (p : Nat) (valid dirty : BitVec 32) (d : Decode) :
    (cachePut s p valid dirty d).pool.incoming = s.pool.incoming := by
  unfold cachePut
  dsimp only
  split
  · simp
  · split
    · simp
    · split <;> simp

@[simp] theorem mirrorMark_incoming (s : State) (p : Nat) : (mirrorMark s p).pool.incoming = s.pool.incoming := by
  unfold mirrorMark
  split <;> rfl

@[simp] theorem extPutD_incoming (s : State) (off : Nat) (bs : List Byte) (d : Decode) :
    (extPutD s off bs d).pool.incoming = s.pool.incoming := by
  unfold extPutD
  exact incoming_foldl _ (fun t i => by dsimp only; split <;> simp) _ _

/-! ## Mirror frames (R503, R504, R507) -/

theorem answerReady_none {s : State} {c : Nat} (none : mapGet? s.pool.incoming c = none) : answerReady s c = s := by
  simp only [answerReady, none]

/-- A mirror page is dropped and counted. -/
def pageDropped (s : State) : State := { s with pool := { s.pool with mirrorDropped := satAdd 32 s.pool.mirrorDropped 1 } }

/-- A page that is not this device's to take, or lies outside the mirror range, is dropped and counted. -/
theorem mirrorRecv_drops {s : State} {b : List Byte} (d : Decode)
    (outside : 1024 ≤ rd b 0 2 ∨ (ownerOf s (rd b 0 2)).1 = poolIndex s ∨ rd b 8 8 % 2048 ≠ 0 ∨ rd b 8 8 < s.param 0x110A (rd b 0 2) ∨
      s.param 0x110A (rd b 0 2) + s.param 0x110B (rd b 0 2) < rd b 8 8 + 2048) :
    mirrorRecv s b d = pageDropped s := by
  rw [mirrorRecv]
  dsimp only
  rw [if_pos (by simpa [or_assoc] using outside), pageDropped]

theorem mirrorRecv_writes {s : State} {b : List Byte} {g : Nat} (d : Decode) (carrier : rd b 0 2 < 1024)
    (foreign : (ownerOf s (rd b 0 2)).1 ≠ poolIndex s) (aligned : rd b 8 8 % 2048 = 0) (low : s.param 0x110A (rd b 0 2) ≤ rd b 8 8)
    (high : rd b 8 8 + 2048 ≤ s.param 0x110A (rd b 0 2) + s.param 0x110B (rd b 0 2))
    (fits : rd b 8 8 + (slice b 16 2048).length ≤ dataSpace s) (place : memPlace s (rd b 8 8) = .region g)
    (declared : (s.region g).st = 2) : mirrorRecv s b d = extPutD s (rd b 8 8) (slice b 16 2048) d := by
  have writes : extWriteD s (rd b 8 8) (slice b 16 2048) d = some (extPutD s (rd b 8 8) (slice b 16 2048) d) := by
    rw [extWriteD, if_neg (Nat.not_lt.mpr fits)]
    simp only [place]
    exact if_pos declared
  rw [mirrorRecv]
  dsimp only
  rw [if_neg (by simp [carrier, foreign, aligned, low, high]), writes]

theorem mirror_takes (p : PortId) (src : Nat) (b : List Byte) (d : Decode) (s : State) (arrives : PoolArrives s p 4 src b)
    (noIncoming : ∀ c, mapGet? s.pool.incoming c = none) :
    Does (.mirror p b d) s fun t => (¬Genuine s b → Dropped s t p) ∧
      (∀ c off : Nat, Genuine s b → rd (poolBody s b) 0 2 = c → rd (poolBody s b) 8 8 = off →
        (1024 ≤ c ∨ (ownerOf s c).1 = poolIndex s ∨ off % 2048 ≠ 0 ∨ off < s.param 0x110A c ∨
            s.param 0x110A c + s.param 0x110B c < off + 2048 →
          t.pool.mirrorDropped = min (s.pool.mirrorDropped + 1) (2 ^ 32 - 1) ∧ SameExcept [.pool] s t) ∧
        ∀ g, c < 1024 → (ownerOf s c).1 ≠ poolIndex s → off % 2048 = 0 → s.param 0x110A c ≤ off →
          off + 2048 ≤ s.param 0x110A c + s.param 0x110B c → off + (slice (poolBody s b) 16 2048).length ≤ dataSpace s →
          memPlace s off = .region g → (s.region g).st = 2 →
          t = extPutD (withSeen s b) off (slice (poolBody s b) 16 2048) d) := by
  obtain ⟨drops, uses⟩ := poolRow_arrives arrives (by decide) d
  refine ⟨_, rfl, fun fake => drops fake ▸ poolDrop_dropped s p src, ?_⟩
  rintro c off genuine rfl rfl
  have runs : poolRow s p 4 b d = answerReady (mirrorRecv (withSeen s b) (poolBody s b) d) (rd (poolBody s b) 0 2) := uses genuine
  rw [runs]
  constructor
  · intro outside
    rw [mirrorRecv_drops (s := withSeen s b) d outside, answerReady_none (s := pageDropped (withSeen s b)) (noIncoming _)]
    exact ⟨rfl, by simp [SameExcept, pageDropped, withSeen]⟩
  · intro g carrier foreign aligned low high fits place declared
    rw [mirrorRecv_writes (s := withSeen s b) d carrier foreign aligned low high fits place declared]
    exact answerReady_none ((congrArg (mapGet? · _) (extPutD_incoming (withSeen s b) _ _ d)).trans (noIncoming _))

/-! ## Steps of a migration (R507) -/

/-- What a step of carrier `c`'s migration may change. -/
structure MigrateOnly (s t : State) (c : Nat) : Prop where
  frame : SameExcept [.pool, .ports, .ev, .free] s t
  others : ∀ j, j ≠ c → mapGet? t.pool.incoming j = mapGet? s.pool.incoming j ∧
    mapGet? t.pool.migrations j = mapGet? s.pool.migrations j
  owners : t.pool.owners = s.pool.owners

theorem MigrateOnly.refl (s : State) (c : Nat) : MigrateOnly s s c := ⟨by simp [SameExcept], fun _ _ => ⟨rfl, rfl⟩, rfl⟩

theorem MigrateOnly.agent {s t u : State} {c : Nat} (h : MigrateOnly s t c) (k : AgentOnly t u) : MigrateOnly s u c := by
  obtain ⟨frame, others, owners⟩ := h
  obtain ⟨⟨_, _, _, _, _, rfl⟩, -⟩ := k
  exact ⟨by simpa [SameExcept] using frame, others, owners⟩

theorem migrateOnly_incoming (s : State) (c : Nat) (x : Incoming) :
    MigrateOnly s { s with pool := { s.pool with incoming := mapSet s.pool.incoming c x } } c :=
  ⟨by simp [SameExcept], fun _ other => ⟨mapGet?_mapSet_ne _ _ other, rfl⟩, rfl⟩

theorem migrateOnly_migration (s : State) (c : Nat) (x : Migration) :
    MigrateOnly s { s with pool := { s.pool with migrations := mapSet s.pool.migrations c x } } c :=
  ⟨by simp [SameExcept], fun _ other => ⟨rfl, mapGet?_mapSet_ne _ _ other⟩, rfl⟩

theorem MigrateOnly.trans {s t u : State} {c : Nat} (h : MigrateOnly s t c) (k : MigrateOnly t u c) : MigrateOnly s u c := by
  refine ⟨?_, fun j other => ⟨((k.others j other).1).trans (h.others j other).1, ((k.others j other).2).trans (h.others j other).2⟩,
    k.owners.trans h.owners⟩
  have first := h.frame
  have second := k.frame
  simp_all [SameExcept]

theorem agentOnly_sendMigrate (s : State) (i c st e t : Nat) : AgentOnly s (sendMigrate s i c st e t) := agentOnly_poolSend s i 5 _

theorem AgentOnly.incoming {s t : State} (h : AgentOnly s t) : t.pool.incoming = s.pool.incoming := by
  obtain ⟨⟨_, _, _, _, _, rfl⟩, -⟩ := h
  rfl

/-- The target may answer READY, which its record notes. -/
theorem answerReady_answers {s : State} {c : Nat} {m : Incoming} (waiting : mapGet? s.pool.incoming c = some m) :
    MigrateOnly s (answerReady s c) c ∧ ∃ r, mapGet? (answerReady s c).pool.incoming c = some { m with readySent := r } := by
  have same : ∀ free, mapGet? ({ s with freeCount := free } : State).pool.incoming c = some { m with readySent := m.readySent } :=
    fun _ => waiting
  have drawn : MigrateOnly s s.fresh.2 c := ⟨by simp [SameExcept, State.fresh], fun _ _ => ⟨rfl, rfl⟩, rfl⟩
  simp only [answerReady, waiting]
  split
  · exact ⟨.refl s c, m.readySent, waiting⟩
  · split
    · have sent := agentOnly_sendMigrate { s.fresh.2 with pool := { s.fresh.2.pool with
          incoming := mapSet s.fresh.2.pool.incoming c { m with readySent := true } } } m.source c 2 m.epoch m.t
      exact ⟨(drawn.trans (migrateOnly_incoming _ c _)).agent sent, true, by rw [sent.incoming]; exact mapGet?_mapSet_self _ _ _⟩
    · exact ⟨drawn, m.readySent, waiting⟩

theorem migrateRecv_only (s : State) (i : Nat) (b : List Byte) : MigrateOnly s (migrateRecv s i b) (rd b 0 2) := by
  have refused : MigrateOnly s { s with pool := { s.pool with migBad := satAdd 32 s.pool.migBad 1 } } (rd b 0 2) :=
    ⟨by simp [SameExcept], fun _ _ => ⟨rfl, rfl⟩, rfl⟩
  unfold migrateRecv
  extract_lets c e t _ bad out inc
  clear_value out inc
  split
  · exact refused
  · split
    · exact (migrateOnly_incoming s c _).trans (answerReady_answers (mapGet?_mapSet_self _ _ _)).1
    · split
      · exact migrateOnly_migration s c _
      · exact .refl s c
    · split
      · exact (migrateOnly_incoming s c _).agent (agentOnly_sendMigrate _ _ _ _ _ _)
      · exact .refl s c
    · split
      · exact migrateOnly_migration s c _
      · exact .refl s c
    · split
      · exact ⟨by simp [SameExcept], fun _ other => ⟨mapGet?_mapDel_ne _ other, rfl⟩, rfl⟩
      · exact .refl s c
    · exact refused

section
variable {s : State} {i : Nat} {b : List Byte} (carrier : rd b 0 2 < 1024)
include carrier

/-- PREPARE is recorded, and perhaps answered. -/
theorem migrateRecv_prepare (step : rd b 2 1 = 1) : ∃ r, mapGet? (migrateRecv s i b).pool.incoming (rd b 0 2) =
    some { source := i, t := rd b 8 8, epoch := rd b 4 4, readySent := r } := by
  simp only [migrateRecv, step, if_neg (Nat.not_le.mpr carrier)]
  have recorded : ∀ m : Incoming, mapGet? ({ s with pool := { s.pool with
      incoming := mapSet s.pool.incoming (rd b 0 2) m } } : State).pool.incoming (rd b 0 2) = some m := fun _ => mapGet?_mapSet_self _ _ _
  exact (answerReady_answers (recorded _)).2

theorem migrateRecv_ready {m : Migration} (step : rd b 2 1 = 2) (out : mapGet? s.pool.migrations (rd b 0 2) = some m)
    (target : m.target = i) : mapGet? (migrateRecv s i b).pool.migrations (rd b 0 2) = some { m with ready := true } := by
  simp only [migrateRecv, step, if_neg (Nat.not_le.mpr carrier), out, Option.bind_some, if_pos target]
  exact mapGet?_mapSet_self _ _ _

theorem migrateRecv_go {m : Incoming} (step : rd b 2 1 = 3) (inc : mapGet? s.pool.incoming (rd b 0 2) = some m)
    (source : m.source = i) :
    mapGet? (migrateRecv s i b).pool.incoming (rd b 0 2) = some { m with armed := true, epoch := rd b 4 4, t := rd b 8 8 } := by
  simp only [migrateRecv, step, if_neg (Nat.not_le.mpr carrier), inc, Option.bind_some, if_pos source]
  rw [(agentOnly_sendMigrate _ _ _ _ _ _).incoming]
  exact mapGet?_mapSet_self _ _ _

theorem migrateRecv_goAck {m : Migration} (step : rd b 2 1 = 4) (out : mapGet? s.pool.migrations (rd b 0 2) = some m)
    (target : m.target = i) : mapGet? (migrateRecv s i b).pool.migrations (rd b 0 2) = some { m with ack := true } := by
  simp only [migrateRecv, step, if_neg (Nat.not_le.mpr carrier), out, Option.bind_some, if_pos target]
  exact mapGet?_mapSet_self _ _ _

theorem migrateRecv_cancel {m : Incoming} (step : rd b 2 1 = 5) (inc : mapGet? s.pool.incoming (rd b 0 2) = some m)
    (source : m.source = i) : mapGet? (migrateRecv s i b).pool.incoming (rd b 0 2) = none := by
  simp only [migrateRecv, step, if_neg (Nat.not_le.mpr carrier), inc, Option.bind_some, if_pos source]
  exact mapGet?_mapDel_self _ _

end

/-- The plain text of an arriving frame, where its tag is right. -/
theorem poolPlain_arrives {s : State} {p ty src : Nat} {b : List Byte} (arrives : PoolArrives s p ty src b) :
    (¬Genuine s b → poolPlain s b = none) ∧ (Genuine s b → poolPlain s b = some (poolBody s b)) := by
  obtain ⟨-, -, -, -, -, -, -, -, -, -, keyed, -⟩ := arrives
  obtain ⟨e, epoch⟩ := Option.isSome_iff_exists.mp keyed
  simp only [poolPlain, Genuine, poolBody, epoch, Option.getD_some]
  exact ⟨fun fake => if_neg fake, fun genuine => if_pos genuine⟩

theorem migrateRow_arrives {s : State} {p src : Nat} {b : List Byte} (arrives : PoolArrives s p 5 src b) (step : Nat) :
    (¬Genuine s b → migrateRow s p step b = poolDrop s p src 2) ∧
    (Genuine s b → rd (poolBody s b) 2 1 ≠ step → migrateRow s p step b = s) ∧
    (Genuine s b → rd (poolBody s b) 2 1 = step → migrateRow s p step b = migrateRecv (withSeen s b) src (poolBody s b)) := by
  obtain ⟨none, plain⟩ := poolPlain_arrives arrives
  obtain ⟨drops, uses⟩ := poolRow_arrives arrives (by decide) .clean
  refine ⟨fun fake => ?_, fun genuine other => ?_, fun genuine this => ?_⟩
  · simp only [migrateRow, none fake]
    exact drops fake
  · simp only [migrateRow, plain genuine, if_neg other]
  · simp only [migrateRow, plain genuine, if_pos this]
    exact uses genuine

theorem migrate_steps (i : Instr) (step : Nat) (p : PortId) (src : Nat) (b : List Byte) (s : State)
    (row : (step = 1 ∧ i = .prepare p b) ∨ (step = 2 ∧ i = .ready p b) ∨ (step = 3 ∧ i = .go p b) ∨ (step = 4 ∧ i = .goAck p b) ∨
      (step = 5 ∧ i = .cancel p b)) (arrives : PoolArrives s p 5 src b) :
    Does i s fun t => (¬Genuine s b → Dropped s t p) ∧ (Genuine s b → rd (poolBody s b) 2 1 ≠ step → t = s) ∧
      (Genuine s b → SameExcept [.pool, .ports, .ev, .free] s t) ∧
      ∀ c : Nat, Genuine s b → rd (poolBody s b) 2 1 = step → rd (poolBody s b) 0 2 = c → c < 1024 →
        (∀ j, j ≠ c → mapGet? t.pool.incoming j = mapGet? s.pool.incoming j ∧
          mapGet? t.pool.migrations j = mapGet? s.pool.migrations j) ∧ t.pool.owners = s.pool.owners ∧
        (step = 1 → ∃ r, mapGet? t.pool.incoming c = some
          { source := src, t := rd (poolBody s b) 8 8, epoch := rd (poolBody s b) 4 4, readySent := r }) ∧
        (∀ m, step = 2 → mapGet? s.pool.migrations c = some m → m.target = src →
          mapGet? t.pool.migrations c = some { m with ready := true }) ∧
        (∀ m, step = 3 → mapGet? s.pool.incoming c = some m → m.source = src →
          mapGet? t.pool.incoming c = some { m with
            armed := true, epoch := rd (poolBody s b) 4 4, t := rd (poolBody s b) 8 8 }) ∧
        (∀ m, step = 4 → mapGet? s.pool.migrations c = some m → m.target = src →
          mapGet? t.pool.migrations c = some { m with ack := true }) ∧
        ∀ m, step = 5 → mapGet? s.pool.incoming c = some m → m.source = src → mapGet? t.pool.incoming c = none := by
  have runs : exec i s = .next (migrateRow s p step b) := by
    obtain ⟨rfl, rfl⟩ | ⟨rfl, rfl⟩ | ⟨rfl, rfl⟩ | ⟨rfl, rfl⟩ | ⟨rfl, rfl⟩ := row
    all_goals rfl
  obtain ⟨drops, ignores, uses⟩ := migrateRow_arrives arrives step
  have seen : MigrateOnly s (withSeen s b) (rd (poolBody s b) 0 2) := ⟨by simp [SameExcept, withSeen], fun _ _ => ⟨rfl, rfl⟩, rfl⟩
  have only := seen.trans (migrateRecv_only (withSeen s b) src (poolBody s b))
  refine ⟨_, runs, fun fake => drops fake ▸ poolDrop_dropped s p src, ignores, fun genuine => ?_, ?_⟩
  · by_cases this : rd (poolBody s b) 2 1 = step
    · exact uses genuine this ▸ only.frame
    · rw [ignores genuine this]
      simp [SameExcept]
  · rintro c genuine this rfl carrier
    rw [uses genuine this]
    exact ⟨only.others, only.owners, fun one => migrateRecv_prepare carrier (this.trans one),
      fun m two out target => migrateRecv_ready (s := withSeen s b) carrier (this.trans two) out target,
      fun m three inc source => migrateRecv_go (s := withSeen s b) carrier (this.trans three) inc source,
      fun m four out target => migrateRecv_goAck (s := withSeen s b) carrier (this.trans four) out target,
      fun m five inc source => migrateRecv_cancel (s := withSeen s b) carrier (this.trans five) inc source⟩

theorem pool_otherType (i : Instr) (ty : Nat) (p : PortId) (b : List Byte) (s : State)
    (row : (ty = 1 ∧ i = .heartbeat p b) ∨ (ty = 2 ∧ i = .state p b) ∨ (ty = 3 ∧ i = .claim p b) ∨ (ty = 4 ∧ ∃ d, i = .mirror p b d))
    (other : rd b 19 1 ≠ ty) : Idle i s := by
  obtain ⟨rfl, rfl⟩ | ⟨rfl, rfl⟩ | ⟨rfl, rfl⟩ | ⟨rfl, d, rfl⟩ := row
  all_goals exact congrArg Host.Outcome.next (poolRow_idle other _)

/-- Settles O54, one lemma for each type of frame. -/
theorem poolFrames : Obligations.PoolFrames :=
  ⟨pool_otherType, heartbeat_renews, state_records, claim_settles, mirror_takes, migrate_steps⟩

end Sys2Proof.Machine
end

section
namespace Sys2Proof.Machine

open Sys2Proof.Claims

/-! ## A pool frame queued behind a stale C-plane frame (R135, R162) -/

/-- Member 0 of a pool of two: port 0 is a POOL port whose link is busy, leads to member 1, and still holds a C-plane frame whose
window closed at Air Time 0. -/
def staleQueue : State :=
  { time := { air := 19660800 * 2 ^ 32 }
    boot := { devState := 1 }
    power := { on := List.range 96 }
    cfg := { params := [(pkey 0x0501 0, 5), (pkey 0x0502 0, 2), (pkey 0x1101 0, 0), (pkey 0x1102 0, 2)] }
    pool := { slot0 := { epoch := some 0 }, frames := true, links := [(0, { peer := some 1 })] }
    ports := { ports := [(0, { link0 := { up := true, sending := some { kind := 2, bytes := [] }
                                          fh := [{ kind := 1, bytes := [], due := some 0 }] } })] } }

/-- Queueing the STATE frame drops the C-plane frame (R162). -/
theorem stateSend_purges : ((stateSend staleQueue).link 0 0).fh.isEmpty = true := by decide

/-- Refutes O55: its clause on STATE frames has the link keep all but its low queue, but where a frame joins a queue the C-plane
frames whose window has closed are dropped from the link (R162). -/
theorem not_poolTimers : ¬ Obligations.PoolTimers := by
  intro h
  obtain ⟨-, -, -, state, -⟩ := h
  obtain ⟨t, runs, ⟨link, -, -⟩, -⟩ := state 1 0 staleQueue (by decide) (by decide) (by decide) (by decide)
  obtain rfl : stateSend staleQueue = t := Host.Outcome.next.inj runs
  have purged := stateSend_purges
  rw [link] at purged
  exact absurd purged (by decide)

end Sys2Proof.Machine
end
